-- ==== Sys2Proof/Word.lean ====
section
/-! DEFINITION. The machine words of the Lamulay L9 and their plainest arithmetic (R3, R537: every register is 32 bits wide;
R243: an order is 128 bits). -/
namespace Sys2Proof

/-- A register word (R537). -/
abbrev Word := BitVec 32

/-- One byte of cistern or granary memory. -/
abbrev Byte := BitVec 8

/-- An order word (R243). -/
abbrev OrderWord := BitVec 128

end Sys2Proof
end

