-- ==== Sys2Proof/Syntax.lean ====
section
/-! DEFINITION. The commands the block takes, one constructor per row of the table of operations and events, with their
operands. Crofts, wells, pumps and queues carry their global numbers (R8). -/
namespace Sys2Proof

/-- Global croft number (R8). -/
abbrev CroftId := Fin 128
/-- Global well number (R8). -/
abbrev WellId := Fin 2048
/-- Global pump number (R8). -/
abbrev PumpId := Fin 512
/-- Global queue number, croft × 128 + local queue (R11). -/
abbrev QueueId := Fin 16384
/-- Hamlet number, which also names its granary (R8). -/
abbrev HamletId := Fin 8
/-- Quinar link number. -/
abbrev LinkId := Fin 16

/-- A MILL order, and a TALLY COMPARE, is issued by the reeve and later carried out by the mill: the two moments of its row. -/
inductive Stage where
  /-- The reeve issues the order to the mill's queue (R245). -/
  | issue
  /-- The mill carries the started order out. -/
  | carry
deriving DecidableEq, Repr

/-- What makes an access of a memory (R316). -/
inductive Source where
  /-- An engine of the croft that owns the slice, or its reeve's fetch, by the codes of R266, for the order of index `idx`. -/
  | engine (code : Fin 16) (idx : BitVec 24)
  /-- The sluice of its croft for a queue of its own. -/
  | sluice (q : QueueId)
  /-- Incoming traffic on behalf of a queue of this device, or of another device. -/
  | incoming (q : Option QueueId)
  | host
  | bucket
  | steward
deriving DecidableEq, Repr

/-- Who rings a queue's doorbell by a write (R324). -/
inductive Ringer where
  | host
  | steward
  | bucket
deriving DecidableEq, Repr

/-- MKIND of a HEAD flit (R360). -/
inductive MKind where
  | write
  | readReq
  | readResp
  | reserved
deriving DecidableEq, Repr

/-- The fields of a HEAD flit (R360). -/
structure Head where
  kind : MKind
  ledger : Bool
  coll : BitVec 8
  srcDev : BitVec 14
  dstDev : BitVec 14
  queue : BitVec 14
  tag : BitVec 12
  epoch : BitVec 4
  inc : BitVec 4
  seg : BitVec 6
  addr : BitVec 52
  respAddr : BitVec 52
  length : BitVec 32
  segBytes : BitVec 32
  segOffset : BitVec 32
  bucket : Bool
deriving DecidableEq, Repr

/-- Messages between Stewards (R424, R218): origin device, the boundary they name, and whether an ALARM is an abandonment (R217). -/
inductive StewMsg where
  | snapReq (origin b : Nat)
  | alarm (origin b : Nat) (abandoned : Bool)
  | halted (origin b : Nat)
deriving DecidableEq, Repr

/-- A flit's KIND with its payload (R352); a DATA flit's payload beyond the listed bytes is zero. A Steward message takes one flit of the
Steward's turns of share 15 (R424); its form is open. -/
inductive Payload where
  | idle
  | head (h : Head)
  | data (bs : List Byte)
  | steward (m : StewMsg)
  | reserved (bs : List Byte)
deriving DecidableEq, Repr

/-- A flit: the croft that owns its message, and its payload (R352). -/
structure Flit where
  croft : CroftId
  body : Payload
deriving DecidableEq, Repr

/-- A control message (R358). -/
inductive Ctrl where
  | segAck (dev queue : BitVec 14) (tag : BitVec 12) (epoch inc : BitVec 4) (seg : BitVec 6) (status : BitVec 4) (bucket : Bool)
  | signal (dev : BitVec 14) (croft : CroftId) (token : BitVec 8) (count : BitVec 16)
  | bell (body : BitVec 61)
  | none
  | reserved
deriving DecidableEq, Repr

/-- A slot header of larder or cellar (R413). -/
structure SlotHeader where
  state : Nat
  owner : Nat
  step : Nat
  pails : Nat
  bell : Nat
  digest : BitVec 128
deriving DecidableEq, Repr

/-- What a partner or ward answers in the exchange of R416: the fields of its Bucket page, its cellar's headers, its declared feed, and
the granary pails of its set and state block, in slot order. -/
structure Peer where
  partnerDev : BitVec 14
  wardDev : BitVec 14
  pails : Nat
  cellarBase : BitVec 23
  cellarLen : BitVec 24
  feed : BitVec 8
  headers : List SlotHeader
  set : List Nat
deriving DecidableEq, Repr

/-- Who makes a register access. -/
inductive Agent where
  | host
  | steward
deriving DecidableEq, Repr

/-- What the device beyond a link answers to a BAR2 access, or nothing within 100 µs (R444). -/
inductive FarAnswer where
  | silent
  | ok (bs : List Byte)
  | unmapped
  | collision
  | uncorrectable
  | absorbed
deriving DecidableEq, Repr

/-- A configuration request (R438, R446): a write of Bus Master Enable, of the MSI-X control bits, or any other. -/
inductive ConfigReq where
  | command (busMaster : Bool)
  | msixControl (enable mask : Bool)
  | other
deriving DecidableEq, Repr

/-- An AVSBus command (R471). -/
inductive AvsCmd where
  | writeVoltage
  | readVoltage
  | readCurrent
  | readTemperature
  | readStatus
deriving DecidableEq, Repr

/-- The four kinds of core (R501). -/
inductive CoreKind where
  | well
  | pump
  | mill
  | reeve
deriving DecidableEq, Repr

/-- A grain of reset: a core by its page number (BAR0 offset / 0x1000), a croft, a hamlet or the device (R15). -/
inductive GrainId where
  | core (pg : BitVec 16)
  | croft (c : CroftId)
  | hamlet (h : HamletId)
  | device
deriving DecidableEq, Repr

/-- A finding of self-test or of a repeated test: KIND, UNIT and DETAIL of the defect entry it makes (R504, R506). -/
structure Finding where
  kind : BitVec 8
  unit : BitVec 16
  detail : BitVec 16
deriving DecidableEq, Repr

/-- How a start's bring-up ended: ready, on the inactive bank where FALLBACK is set (R499) and with the granaries whose interface did not
train on leaving self-refresh (R322), or stopped with a code and the rail, unit or flash offset concerned (R514). -/
inductive StartEnd where
  | ready (fallback : Bool) (untrained : List HamletId)
  | stopped (code : BitVec 8) (addr : BitVec 64)
deriving DecidableEq, Repr

/-- What a stack returns with a read of a granule: whether data parity failed in a beat, how many corrections its on-die code reports, and
the symbols of the granule that have newly changed (R307, R310). -/
structure StackRead where
  parity : Bool
  onDie : Nat
  flips : List (Fin 68 × Byte)
deriving DecidableEq, Repr

/-- The commands of the block, one per row of the table of operations and events. What an analogue part yields and what another device answers
are operands. (DESIGN CHOICE, assumptions 8 and 9) -/
inductive Instr where
  /-- NOP (R244). The reeve issues a NOP order, which completes at issue. -/
  | nop (c : CroftId)
  /-- HALT (R262). The reeve issues a HALT order, which waits for every issued order and pending signal before halting the croft. -/
  | halt (c : CroftId)
  /-- FENCE (R253). The reeve issues a FENCE order that waits on the units in its MASK and, with bit 6 set, on pending signals. -/
  | fence (c : CroftId)
  /-- LAYER_FENCE_OPEN (R254). The reeve issues a FENCE with LAYER 1 and CLOSE 0, which opens a layer span and saves the phase. -/
  | layerFenceOpen (c : CroftId)
  /-- LAYER_FENCE_CLOSE (R213). The reeve issues a FENCE with LAYER 1 and CLOSE 1, which closes the span and may repeat it once after OVF. -/
  | layerFenceClose (c : CroftId)
  /-- STEP_FENCE (R255). The reeve issues a FENCE with STEP 1, which waits on every unit and then reports the croft to the step barrier. -/
  | stepFence (c : CroftId)
  /-- LOOP (R260). The reeve carries out a LOOP order on loop register L0-L3, jumping to TARGET or falling through. -/
  | loop (c : CroftId)
  /-- TOKEN_WAIT (R256). The reeve issues a TOKEN WAIT that consumes COUNT from the named token once the count suffices. -/
  | tokenWait (c : CroftId)
  /-- TOKEN_SIGNAL (R257). The reeve places a TOKEN SIGNAL in its list of up to 16 pending signals. -/
  | tokenSignal (c : CroftId)
  /-- BELL_ABS (R259). The reeve issues a BELL order in ABS mode, which waits until the croft's Bell view reaches TIME. -/
  | bellAbs (c : CroftId)
  /-- BELL_REL (R259). The reeve issues a BELL order in REL mode, which waits until the Bell view reaches STEP_BELL plus TIME. -/
  | bellRel (c : CroftId)
  /-- SEED (R46). The reeve issues a SEED order, which waits for earlier rounding orders of the croft. -/
  | seed (c : CroftId)
  /-- SEED_LOAD (R45). Once earlier rounding orders have completed, all 384 lane generators of the croft are loaded from the seed. -/
  | seedLoad (c : CroftId)
  /-- LOAD (R73). The reeve issues a LOAD order of a load image into one well. -/
  | load (c : CroftId)
  /-- DRAW (R85). The reeve issues a DRAW order of N draws on a well run. -/
  | draw (c : CroftId)
  /-- PLUMB_WINDOW (R118). The reeve issues a PLUMB order of kind WINDOW for the named wells. -/
  | plumbWindow (c : CroftId)
  /-- PLUMB_SOUND (R118). The reeve issues a PLUMB order of kind SOUND for the named wells. -/
  | plumbSound (c : CroftId)
  /-- PUMP (R146). The reeve issues a PUMP order without an epilogue to a pump. -/
  | pump (c : CroftId)
  /-- SMAX_BWD (R171). The reeve issues a PUMP order with the SMAX_BWD epilogue, finished on the mill. -/
  | smaxBwd (c : CroftId)
  /-- NORM_BWD_RMS (R172). The reeve issues a PUMP order with the NORM_BWD_RMS epilogue, whose row sums span a strip. -/
  | normBwdRms (c : CroftId)
  /-- NORM_BWD_LAYER (R172). The reeve issues a PUMP order with the NORM_BWD_LAYER epilogue. -/
  | normBwdLayer (c : CroftId)
  /-- ADD (R184). A MILL order of operation ADD is carried out element-wise. -/
  | add (c : CroftId) (st : Stage)
  /-- MUL (R184). A MILL order of operation MUL is carried out element-wise. -/
  | mul (c : CroftId) (st : Stage)
  /-- FMA (R184). A MILL order of operation FMA is carried out element-wise with one rounding. -/
  | fma (c : CroftId) (st : Stage)
  /-- AXPBY (R194). A MILL order of operation AXPBY reads alpha and beta from its parameter block. -/
  | axpby (c : CroftId) (st : Stage)
  /-- RELU (R184). A MILL order of operation RELU is carried out element-wise. -/
  | relu (c : CroftId) (st : Stage)
  /-- GELU (R185). A MILL order of operation GELU in tanh form is carried out within 2 ulp. -/
  | gelu (c : CroftId) (st : Stage)
  /-- SILU (R185). A MILL order of operation SILU is carried out within 2 ulp. -/
  | silu (c : CroftId) (st : Stage)
  /-- EXP (R185). A MILL order of operation EXP is carried out within 2 ulp. -/
  | exp (c : CroftId) (st : Stage)
  /-- LOG (R185). A MILL order of operation LOG is carried out within 2 ulp. -/
  | log (c : CroftId) (st : Stage)
  /-- RECIP (R185). A MILL order of operation RECIP is carried out correctly rounded. -/
  | recip (c : CroftId) (st : Stage)
  /-- SQRT (R185). A MILL order of operation SQRT is carried out correctly rounded. -/
  | sqrt (c : CroftId) (st : Stage)
  /-- RSQRT (R185). A MILL order of operation RSQRT is carried out within 2 ulp. -/
  | rsqrt (c : CroftId) (st : Stage)
  /-- DIV (R185). A MILL order of operation DIV is carried out correctly rounded. -/
  | div (c : CroftId) (st : Stage)
  /-- RSUM (R186). A MILL order of operation RSUM sums each row in the fixed lane order. -/
  | rsum (c : CroftId) (st : Stage)
  /-- RMAX (R186). A MILL order of operation RMAX takes the largest value of each row. -/
  | rmax (c : CroftId) (st : Stage)
  /-- RDOT (R186). A MILL order of operation RDOT sums exact product pairs along each row. -/
  | rdot (c : CroftId) (st : Stage)
  /-- NORM_FWD_RMS (R187). A MILL order of operation NORM_FWD_RMS writes y, x-hat and rstd in two passes. -/
  | normFwdRms (c : CroftId) (st : Stage)
  /-- NORM_FWD_LAYER (R187). A MILL order of operation NORM_FWD_LAYER subtracts the row mean and adds a bias. -/
  | normFwdLayer (c : CroftId) (st : Stage)
  /-- SMAX_FWD (R187). A MILL order of operation SMAX_FWD writes P, the row maximum and the row sum. -/
  | smaxFwd (c : CroftId) (st : Stage)
  /-- COMBINE (R188). A MILL order of operation COMBINE adds 2-16 FP32 operands in full width and rounds once. -/
  | combine (c : CroftId) (st : Stage)
  /-- TOPK (R189). A MILL order of operation TOPK writes the k largest values and their positions per row. -/
  | topk (c : CroftId) (st : Stage)
  /-- CONVERT (R198). A MILL order of operation CONVERT writes its result in the order's format and writes the amax word. -/
  | convert (c : CroftId) (st : Stage)
  /-- OPT_SGD (R195). A MILL order of operation OPT_SGD updates the master shard. -/
  | optSgd (c : CroftId) (st : Stage)
  /-- OPT_MOMENTUM (R195). A MILL order of operation OPT_MOMENTUM updates the master and one moment. -/
  | optMomentum (c : CroftId) (st : Stage)
  /-- OPT_ADAM (R195). A MILL order of operation OPT_ADAM updates the master and two moments. -/
  | optAdam (c : CroftId) (st : Stage)
  /-- WELL_IMAGE (R199). A MILL order of operation WELL_IMAGE builds load images of a master strip. -/
  | wellImage (c : CroftId) (st : Stage)
  /-- TALLY_FLUSH (R227). The reeve issues a TALLY FLUSH, which sends a slot to a device entry and clears the slot. -/
  | tallyFlush (c : CroftId)
  /-- TALLY_CLEAR (R227). The reeve issues a TALLY CLEAR, which clears a range of slots. -/
  | tallyClear (c : CroftId)
  /-- TALLY_COMPARE (R224). The mill carries out a TALLY COMPARE and sends (D, Q) to the device half of Tally. -/
  | tallyCompare (c : CroftId) (st : Stage)
  /-- SLUICE (R246). The reeve issues a SLUICE order, which rings a stream-owned queue's doorbell. -/
  | sluice (c : CroftId)
  /-- CHUNK_FETCH_DONE (R241). A 4 KiB chunk of the order stream finishes fetching and its check record is verified. `n` is the chunk, `flips` the bytes the fetch path corrupted, by their place in the chunk, with the bits that differ. -/
  | chunkFetchDone (c : CroftId) (n : Nat) (flips : List (Nat × Byte))
  /-- ORDER_START (R245). A queued engine order starts on its engine and is checked for ownership, operands and the load-step limit. `k` is the order's place in the croft's list of incomplete orders, oldest first. -/
  | orderStart (c : CroftId) (k : Nat)
  /-- LOAD_PASS_END (R74). A 10 us load pass ends and the load either continues, or completes with failed cells handled. `cells` are the cells read back away from their target: column (512 to 519 checks, 520 to 535 unused spares), row, read-back in 1/8 level. -/
  | loadPassEnd (w : WellId) (cells : List (Nat × Nat × Int))
  /-- RETENTION_LIMIT (R80). A well's retention timer reaches LIMIT and STALE is set. -/
  | retentionLimit (w : WellId)
  /-- DRAW_SLOT_START (R83). A run begins a new 40 ns draw slot once any wait for the leat queue, the escalation queue, relock or a dip has ended. `w` leads the run. -/
  | drawSlotStart (w : WellId)
  /-- DRAW_SLICE_END (R83). A slice-draw ends; its codes are added, and clipping and the confidence checks are evaluated. `codes` are, for each well of the run, the codes of the 512 data and 8 check columns; beyond ±512 a sum beyond full scale. -/
  | drawSliceEnd (w : WellId) (codes : List (List Int))
  /-- DRAW_QUARTER_END (R94). A 40 ns quarter draw of a clipped or ALWAYS-quartered slice ends and its codes are added. -/
  | drawQuarterEnd (w : WellId) (codes : List (List Int))
  /-- DRAW_PROMOTION_END (R97). Promotion of a draw's columns to FP32 completes 10 ns after the last slice. -/
  | drawPromotionEnd (w : WellId)
  /-- LEAT_MERGE_START (R192). The leat begins merging a draw's record once every escalated part of the draw has completed. -/
  | leatMergeStart (c : CroftId)
  /-- LEAT_MERGE_END (R192). The leat writes a merged output record, completing the DRAW after its last record. -/
  | leatMergeEnd (c : CroftId)
  /-- WINDOW_END (R114). A 60 us calibration window ends and the new trims wait for a draw boundary. `ts` are the trims measured: physical column, tap, 1/8 codes. -/
  | windowEnd (c : CroftId) (ts : List (Nat × Nat × Int))
  /-- TRIM_COMMIT (R115). A window's shadow trims come into force at the first draw boundary after the window. -/
  | trimCommit (w : WellId)
  /-- SOUNDING_END (R116). A 2 us sounding ends and each column is compared with its four reference points. `sums` are, by physical column, the sums of the twelve codes at each of the four points. -/
  | soundingEnd (c : CroftId) (sums : List (Nat × List Int))
  /-- CAL_DUE (R117). A well's window age reaches CAL_INTERVAL and the well becomes due. -/
  | calDue (w : WellId)
  /-- OVERDUE (R117). A well's window or sounding age reaches its overdue limit; OVERDUE is set and the Crier line raised. -/
  | overdue (w : WellId) (sound : Bool)
  /-- PLUMB_AUTO_START (R119). Under AUTO the plumb starts overdue work on a well at its next slot boundary after any load ends. -/
  | plumbAutoStart (c : CroftId)
  /-- TEMP_STALE (R122). The plumb's Tj reading becomes older than 1 ms and every well is treated as past its temperature condition. -/
  | tempStale (c : CroftId)
  /-- ESC_PART_START (R170). The escalation pump takes an escalated part at a k-chunk boundary, or at once if idle, after the converter is free. -/
  | escPartStart (c : CroftId)
  /-- ESC_PART_END (R170). An escalated part ends after 264 cycles and its result is added to the run's output. -/
  | escPartEnd (c : CroftId)
  /-- PUMP_CHUNK_END (R157). A pump k-chunk ends and its exact block result enters the carried sum. -/
  | pumpChunkEnd (p : PumpId)
  /-- PUMP_CONVERSION_END (R165). A tile's 64-cycle conversion ends and the tile is written, or retried after an overflow event. -/
  | pumpConversionEnd (p : PumpId)
  /-- PUMP_RETRY_END (R167). A tile retry ends and the tile is written with the raised scales. -/
  | pumpRetryEnd (p : PumpId)
  /-- EPILOGUE_TILE (R171). A pump tile's FP32 results reach the mill over the epilogue link and the mill completes the kernel. -/
  | epilogueTile (p : PumpId)
  /-- MILL_ORDER_END (R187). A MILL order completes, its results are written and its scale record is updated. -/
  | millOrderEnd (c : CroftId)
  /-- MILL_STRETCH_END (R198). The mill finishes converting a stretch of 4,096 elements, or retries it after an overflow event. -/
  | millStretchEnd (c : CroftId)
  /-- FENCE_COMPLETE (R253). A FENCE's wait ends and the reeve continues. -/
  | fenceComplete (c : CroftId)
  /-- TOKEN_WAIT_COMPLETE (R256). A waiting TOKEN WAIT finds its count sufficient, consumes it, and on the phase token advances the phase. -/
  | tokenWaitComplete (c : CroftId)
  /-- TOKEN_SIGNAL_ARRIVAL (R256). A token signal arrives at a croft and adds its COUNT to the named token. `k` is the signal's place among those on their way. -/
  | tokenSignalArrival (k : Nat)
  /-- PENDING_SIGNAL_SEND (R257). A pending signal is sent once its mask's orders and earlier signals are done. -/
  | pendingSignalSend (c : CroftId)
  /-- BELL_WAIT_COMPLETE (R259). A BELL order completes when the croft's Bell view reaches its target. -/
  | bellWaitComplete (c : CroftId)
  /-- HALT_COMPLETE (R262). A HALT order's wait ends and the croft halts with reason HALT_ORDER. -/
  | haltComplete (c : CroftId)
  /-- CROFT_HALTED (R263). The drain of a halting croft ends and STATUS.HALTED reads 1. -/
  | croftHalted (c : CroftId)
  /-- WATCHDOG_EXPIRY (R267). The reeve watchdog reaches LIMIT; the reeve stops at once without drain and faults with cause 0x0A. -/
  | watchdogExpiry (c : CroftId)
  /-- STEP_REPORT (R255). A croft's step report reaches the device step barrier. -/
  | stepReport (c : CroftId)
  /-- STEP_BARRIER_RELEASE (R418). Once the boundary work is done, every croft is released and continues at ENTRY or halts with STEP_STOP. -/
  | stepBarrierRelease
  /-- TALLY_CONTRIBUTION (R225). A COMPARE contribution reaches the device half of Tally and opens or joins its group's compare. `k` is the contribution's place among those on their way. -/
  | tallyContribution (k : Nat)
  /-- TALLY_VERDICT (R225). The device half decides a group's verdict and each reeve skips or continues. -/
  | tallyVerdict (g : Fin 16)
  /-- HALT_MESSAGE (R218). A Steward message reports that a device has halted after abandonment. -/
  | haltMessage (l : LinkId) (origin : BitVec 14) (b : BitVec 32)
  /-- STEP_REPEAT (R218). After every device has halted, the Steward checks and raises the scale records and restarts every reeve at the step entry. -/
  | stepRepeat
  /-- REEVE_RESTART (R265). REEVE.CMD OP 1 restarts a halted croft at INDEX. -/
  | reeveRestart (c : CroftId) (idx : BitVec 24)
  /-- REEVE_HALT_REQUEST (R265). REEVE.CMD OP 2 requests a halt with reason 7. -/
  | reeveHaltRequest (c : CroftId)
  /-- CLEAN_RESTART (R265). REEVE.CMD OP 3 restarts a halted croft and clears its tokens, loops, span state and WIDE. -/
  | cleanRestart (c : CroftId) (idx : BitVec 24)
  /-- CLK_MULT_WRITE (R472). A write of CROFT.CLK.MULT changes the island clock, raising the voltage first where needed. `v` is the word written to CROFT.CLK. -/
  | clkMultWrite (c : CroftId) (v : Word)
  /-- RELOCK_DONE (R288). An island's clock relocks and its orders resume. -/
  | relockDone (c : CroftId)
  /-- LANE_FLIT_HOP (R287). A router checks a flit's owning croft against the share entry and discards mismatches. `n` is the link, or the channel × 2 + direction. -/
  | laneFlitHop (link : Bool) (n : Fin 28) (share : Fin 16) (c : CroftId)
  /-- LANE_FLIT_CRC_FAIL (R432). A lane flit fails its CRC at a router and is replayed; after three failed replays the channel direction fails. `again` says that the failing flit was already a replay. -/
  | laneFlitCrcFail (ch : Fin 14) (dir : Fin 2) (again : Bool)
  /-- CISTERN_READ (R304). A port reads cistern words, which are checked and corrected by SECDED or a stripe rebuild. The port reads `len` bytes from slice offset `off`, within one stripe; `flips` are the bits of its words that have changed since the last access, by bank (32 is BP), data in bits 63 to 0. -/
  | cisternRead (c : CroftId) (off : BitVec 28) (len : Fin 257) (src : Source) (flips : List (Fin 33 × BitVec 72))
  /-- CISTERN_WRITE (R299). A port writes cistern bytes and updates the stripe's parity word. The port writes `bs` from slice offset `off` on, within one stripe; `rival` is the source of another write that reaches the word in the same cycle (R300). -/
  | cisternWrite (c : CroftId) (off : BitVec 28) (bs : List Byte) (src : Source) (rival : Option Source) (flips : List (Fin 33 × BitVec 72))
  /-- SCRUB_STRIPE (R305). Every 10 ns the scrub reads and checks the next stripe of each bank group. `flips` are bits that have changed since the last access, by bank group and bank. -/
  | scrubStripe (c : CroftId) (flips : List (Fin 16 × Fin 33 × BitVec 72))
  /-- GRANARY_READ (R310). A granule is read and decoded under RS_MODE with data parity checked. `g` is the granule; `parity` says that data parity failed in a beat, `onDie` counts corrections the stack reports, `flips` are changed symbols. -/
  | granaryRead (h : HamletId) (g : Fin 1073741824) (src : Source) (parity : Bool) (onDie : Nat) (flips : List (Fin 68 × Byte))
  /-- GRANARY_REREAD_DONE (R310). The re-read after a parity failure returns and is decoded or declared uncorrectable. The oldest re-read of the hamlet returns `b`. -/
  | granaryRereadDone (h : HamletId) (b : StackRead)
  /-- GRANARY_WRITE (R311). A granary write encodes a whole granule or reads, merges and writes it back. `a` is the stack address of the first byte; the bytes lie in one granule, of which the stack returns `b` to the read that a merge makes. -/
  | granaryWrite (h : HamletId) (a : Fin 68719476736) (bs : List Byte) (src : Source) (b : StackRead)
  /-- WRITE_PARITY_REPORT (R310). The stack reports a write parity failure and the write is repeated, or a second report faults the controller. -/
  | writeParityReport (h : HamletId) (g : Fin 1073741824)
  /-- GRANARY_REFRESH (R307). The controller issues per-bank refresh at the interval for the stack temperature. `rfm` says that the command is of refresh management. -/
  | granaryRefresh (h : HamletId) (rfm : Bool)
  /-- GRANARY_TEMP_READOUT (R313). Every 1 ms the controller reads the stack temperature and sets REFRESH_2X and HOT. `t` is the temperature in °C, none for a failed attempt. -/
  | granaryTempReadout (h : HamletId) (t : Option Byte)
  /-- GRANARY_SCRUB (R314). The patrol scrub reads and corrects the next granule in the Steward's turns. The stack returns `b`. -/
  | granaryScrub (h : HamletId) (b : StackRead)
  /-- GRANARY_CMD_TIMEOUT (R322). A pseudo-channel does not complete a command within 2 us; controller fault 0x02. -/
  | granaryCmdTimeout (h : HamletId) (a : Fin 68719476736)
  /-- DOORBELL (R327). A host write to a queue's DOORBELL adds COUNT descriptors if the ring has room. -/
  | doorbell (q : QueueId) (who : Ringer) (count : BitVec 16)
  /-- DESCRIPTOR_START (R328). A queue starts its next descriptor within MAX_OUT and any FENCE. -/
  | descriptorStart (q : QueueId)
  /-- DESCRIPTOR_NOP (R330). A NOP descriptor moves nothing and writes its record when it starts. -/
  | descriptorNop (q : QueueId)
  /-- COPY (R330). A COPY descriptor moves its rows as segments. -/
  | copy (q : QueueId)
  /-- FILL (R330). A FILL descriptor writes its 8-byte pattern over the destination. -/
  | fill (q : QueueId)
  /-- EPOCH (R339). An EPOCH descriptor waits as FENCE does, advances the queue's epoch and writes its record. -/
  | epoch (q : QueueId)
  /-- SLUICE_SLOT_CYCLE (R325). A sluice port cycle moves 256 bytes of its named queue or of incoming traffic. `cyc` is the cycle of the frame, `turn` the frame's number modulo 4, which gives the ASYNC cycle its owner (R284). -/
  | sluiceSlotCycle (c : CroftId) (cyc : Fin 16) (turn : Fin 4)
  /-- SEG_TIMEOUT (R334). A segment gets no acknowledgement within SEG_TIMEOUT and completes with TIMEOUT. `idx` is the transfer's descriptor index. -/
  | segTimeout (q : QueueId) (idx : BitVec 32) (seg : Fin 64)
  /-- EPOCH_WAIT_END (R339). An epoch advance that waited for 2 x SEG_TIMEOUT takes effect. -/
  | epochWaitEnd (q : QueueId)
  /-- QUEUE_RESTART (R345). Queue CMD OP 1 restarts a stopped queue in a new epoch. -/
  | queueRestart (q : QueueId)
  /-- ADVANCE_EPOCH (R345). Queue CMD OP 2 advances the epoch of an idle queue. -/
  | advanceEpoch (q : QueueId)
  /-- INCARNATION_WINDOW_END (R340). 3 ms after a croft's incarnation advanced, the router stops discarding token signals to it. -/
  | incarnationWindowEnd (c : CroftId)
  /-- DRAIN_END (R15). The 20 us drain of a croft or hamlet reset ends and remaining traffic is absorbed. -/
  | drainEnd (g : GrainId)
  /-- FRAME_SEND (R350). Every 8 ns a link direction sends a frame of 20 flit slots with control messages. -/
  | frameSend (l : LinkId)
  /-- FRAME_RECEIVE (R353). A frame is received, its codewords decoded and its flits accepted in sequence or rejected. `a` to `d` are the symbols received on lanes 0 to 2, 3 to 5, 6 to 8 and 9 to 11, lane by lane (R346), `fixes` the corrected bytes by their place in the frame, `flagged` the codewords flagged as uncorrectable (R350): the manual gives the code no generator. -/
  | frameReceive (l : LinkId) (a : List (List (BitVec 2))) (b : List (List (BitVec 2))) (c : List (List (BitVec 2))) (d : List (List (BitVec 2))) (fixes : List (Fin 5376 × Byte)) (flagged : List (Fin 24))
  /-- REPLAY_TIMEOUT (R354). The oldest unacknowledged flit goes 4 us without acknowledgement and is replayed. `ctrl` says that the oldest is a control message. -/
  | replayTimeout (l : LinkId) (ctrl : Bool)
  /-- RETRAIN_START (R355). A link starts a retrain from its stored equaliser settings. -/
  | retrainStart (l : LinkId)
  /-- LINK_UP (R355). A retrain or full training completes, identities match, and the link is up and replays. The far end's identity, what training found of the lanes, and the far end's last ACK_SEQ and CACK. -/
  | linkUp (l : LinkId) (dev : BitVec 14) (far : LinkId) (vidx : BitVec 4) (reversed : Bool) (polarity : BitVec 12) (ack : BitVec 32) (cack : BitVec 8)
  /-- RETRAIN_TIMEOUT (R355). A retrain is not up by 40 us, or full training by 150 ms, and the link goes down. -/
  | retrainTimeout (l : LinkId)
  /-- LINK_RETRAIN (R373). LINK.CMD OP 1 starts a retrain from the up or down state. -/
  | linkRetrain (l : LinkId)
  /-- LINK_TAKE_DOWN (R373). LINK.CMD OP 2 takes an up link down. -/
  | linkTakeDown (l : LinkId)
  /-- QREF_LOSS (R557). A Quinar reference clock stops or leaves frequency; its gatehouse's links go down. `g` is the gatehouse whose reference clock it is. -/
  | qrefLoss (g : Fin 2)
  /-- WRITE (R361). A WRITE message is received and written into its reassembly entry's destination. `k` is the message's place among those the link has received. -/
  | write (l : LinkId) (k : Nat)
  /-- READ_REQ (R362). A READ_REQ is served from memory and returned as a READ_RESP, or refused with a SEG_ACK. `k` is the message's place among those the link has received. -/
  | readReq (l : LinkId) (k : Nat)
  /-- READ_RESP (R362). A READ_RESP message writes read data at the requester. `k` is the message's place among those the link has received. -/
  | readResp (l : LinkId) (k : Nat)
  /-- REASM_TIMEOUT (R361). A reassembly entry that receives nothing for 3 ms is closed without reply. `k` is the entry's place among the link's open ones. -/
  | reasmTimeout (l : LinkId) (k : Nat)
  /-- SEG_ACK (R335). A segment acknowledgement arrives, completes the segment and may complete the transfer. `k` is the message's place among the acknowledgements delivered. -/
  | segAck (k : Nat)
  /-- SIGNAL (R337). A SIGNAL control message adds COUNT to a token of the destination croft. `k` is the message's place among the signals delivered. -/
  | signal (k : Nat)
  /-- SYNC (R398). A Bell SYNC message from the parent is received and a DELAY_REQ is returned. `k` is the message's place among the Bell messages received; `ago` and `ahead` place its receive point and the reply's send point from the present, in 1/16 ns. -/
  | sync (k : Nat) (ago : Nat) (ahead : Nat)
  /-- DELAY_REQ (R400). A parent receives a DELAY_REQ and answers with DELAY_RESP. -/
  | delayReq (k : Nat) (ago : Nat)
  /-- DELAY_RESP (R400). A follower receives DELAY_RESP, computes offset and delay and steers its rate. -/
  | delayResp (k : Nat)
  /-- COARSE (R399). A COARSE message sets an acquiring device's upper count bits. -/
  | coarse (k : Nat)
  /-- BELL_PERIOD (R398). Each PERIOD a synchronised device sends SYNC on every up link. The send points lie `ahead` of the present, in 1/16 ns. -/
  | bellPeriod (ahead : Nat)
  /-- BELL_EXCHANGE_MISS (R400). An exchange is not complete within PERIOD; after eight misses the follower switches or holds over. -/
  | bellExchangeMiss (l : LinkId)
  /-- BELL_COPY_CHECK (R396). Every 1 us G0 compares the G1 copy with its count; above 2 ns is a Bell fault. `diff` is the difference in 1/16 ns. -/
  | bellCopyCheck (diff : Nat)
  /-- HOLDOVER_LIMIT (R401). HOLDOVER lasts more than 1 s; Bell fault 0x01. -/
  | holdoverLimit
  /-- BELL_PPS (R404). BELL_PPS rises as the count reaches a multiple of 10^9. -/
  | bellPps
  /-- BELL_TOD (R405). 10 us after a BELL_PPS edge, the 96-bit time-of-day word is sent. -/
  | bellTod
  /-- WATCH_EVENT (R410). An event passed to Watch adds to its input accumulator. `k` is the event's place among those the Steward has yet to pass on. -/
  | watchEvent (k : Nat)
  /-- WATCH_DECAY (R410). Every 1 ms each event accumulator decays. -/
  | watchDecay
  /-- WATCH_SAMPLE (R410). Every 10 us Watch samples level inputs and forms SCORE. `tj` is the hottest Tj in °C, `shift` the largest MAX_SHIFT of the last 1 ms. -/
  | watchSample (tj : Int) (shift : Nat)
  /-- SNAP_REQ (R417). A flooded SNAP_REQ arrives, sets the pending boundary, or is late. -/
  | snapReq (l : LinkId) (origin : BitVec 14) (b : BitVec 32)
  /-- ALARM (R424). A flooded ALARM arrives, is forwarded, and ends the step on the device. `abandoned` says that it was raised for an abandonment (R217). -/
  | alarm (l : LinkId) (origin : BitVec 14) (b : BitVec 32) (abandoned : Bool)
  /-- STEWARD_STEP_END (R562). The Steward halts every still-issuing croft within 1 ms of a step-ending event and raises ALARM. -/
  | stewardStepEnd
  /-- BUCKET_PAIL_COPY (R419). Bucket reads the next uncopied pail, writes it to the larder and sends it to the partner's cellar. -/
  | bucketPailCopy
  /-- BUCKET_TOUCH_RELEASE (R420). A held write is released after its pail is read into a holding buffer. -/
  | bucketTouchRelease
  /-- BUCKET_PAIL_TIMEOUT (R423). A pail unacknowledged after 1 ms fails the snapshot. `k` is the pail's place among those not acknowledged. -/
  | bucketPailTimeout (k : Nat)
  /-- BUCKET_COMMIT (R421). When every pail is acknowledged, Bucket writes the larder and then the cellar header. -/
  | bucketCommit
  /-- COMMIT_ACK (R421). The cellar header write is acknowledged and the snapshot is committed. -/
  | commitAck
  /-- BUCKET_REQUEST (R417). BUCKET.CMD OP 1 requests a snapshot at boundary INDEX + 2. -/
  | bucketRequest
  /-- BUCKET_LOCAL (R425). BUCKET.CMD OP 2 restores from larder slot SLOT. -/
  | bucketLocal (slot : Fin 2)
  /-- BUCKET_SERVE (R425). BUCKET.CMD OP 3 pushes cellar slot SLOT to the ward. -/
  | bucketServe (slot : Fin 2)
  /-- BUCKET_ACCEPT (R425). BUCKET.CMD OP 4 lets the partner's pushed pails in. -/
  | bucketAccept (slot : Fin 2)
  /-- BUCKET_ABORT (R425). BUCKET.CMD OP 5 aborts a restore. -/
  | bucketAbort
  /-- RESTORE_DONE (R425). The restore's digest check ends and the Steward restores scale records and Tally, or the restore fails. -/
  | restoreDone
  /-- RESIDUE_MISMATCH (R430). A residue-checked unit mismatches, stops at once, and the croft halts. `u` is the unit as RES_LOG.ENGINE numbers them. -/
  | residueMismatch (c : CroftId) (u : Fin 6)
  /-- STEWARD_WDOG_RESTART (R431). The Steward firmware restarts the Steward watchdog. -/
  | stewardWdogRestart
  /-- STEWARD_WDOG_EXPIRY (R431). 5 ms pass without a restart; FAULT_N is asserted and every croft halts without drain. -/
  | stewardWdogExpiry
  /-- HOST_BAR2_READ (R443). A host read through BAR2 reaches a village address in the host's shares. `ide` says that the request came in a secure IDE stream, `far` what another device answers. -/
  | hostBar2Read (o : BitVec 40) (n : Nat) (ide : Bool) (far : FarAnswer)
  /-- HOST_BAR2_WRITE (R443). A host posted write through BAR2 reaches a village address in the host's shares. `ide` and `far` as for a read. -/
  | hostBar2Write (o : BitVec 40) (bs : List Byte) (ide : Bool) (far : FarAnswer)
  /-- HOST_ACCESS_TIMEOUT (R444). A host access gets no acknowledgement within 100 us and completes with CA. `k` is the access's place among those that wait. -/
  | hostAccessTimeout (k : Nat)
  /-- PCIE_CONFIG_REQUEST (R438). A configuration request, including MSI-X enable and function mask changes, is served. -/
  | pcieConfigRequest (r : ConfigReq)
  /-- MSIX_VECTOR_CONTROL (R446). A write to an MSI-X table entry masks or unmasks a vector, sending any pending message. `dw` is the word of the entry. -/
  | msixVectorControl (v : Fin 64) (dw : Fin 4) (x : Word) (ide : Bool)
  /-- LINK_RATE_CHANGE (R439). The host link changes rate or width and BAR2 is refused below 128 GT/s x8. `rate` and `width` as HOST.LINK shows them. -/
  | linkRateChange (rate : Fin 7) (width : Fin 9) (flit : Bool)
  /-- IDE_STREAM_EXIT (R447). An IDE stream leaves the secure state. -/
  | ideStreamExit
  /-- MAILBOX_DOORBELL (R450). A write to the mailbox DOORBELL is accepted or ignored. -/
  | mailboxDoorbell (seq : Word) (ide : Bool)
  /-- GET_INFO (R451). The Steward answers with the serial number, firmware revision and page revisions. -/
  | getInfo
  /-- SET_POWER_STATE (R479). The Steward moves the device to ACTIVE, IDLE, DOZE or OFF. -/
  | setPowerState
  /-- GET_CERT (R530). The Steward returns one certificate of the device chain. -/
  | getCert
  /-- GET_ATTESTATION (R529). Orarn signs a 384-byte attestation report over the NONCE. `keyOk` says that the private keys agree with their check value (R534). -/
  | getAttestation (keyOk : Bool)
  /-- MEASURE_PLAN (R527). Orarn checks a plan manifest's signature and hashes its regions. -/
  | measurePlan
  /-- FW_UPDATE (R516). The Steward writes a piece of the inactive firmware bank and verifies it on LAST. -/
  | fwUpdate
  /-- READ_DEFECTS (R517). The Steward returns the defect list header, entries and runtime records. -/
  | readDefects
  /-- READ_DIGESTS (R451). The Steward returns the Ledger digests by link, collective and bank. -/
  | readDigests
  /-- READ_FAULTS (R451). The Steward returns every page reading FAULT with its cause and address. -/
  | readFaults
  /-- GET_VERSION (R531). Orarn answers the SPDM GET_VERSION request. -/
  | getVersion
  /-- GET_CAPABILITIES (R531). Orarn answers the SPDM GET_CAPABILITIES request. -/
  | getCapabilities
  /-- NEGOTIATE_ALGORITHMS (R531). Orarn answers the SPDM NEGOTIATE_ALGORITHMS request. -/
  | negotiateAlgorithms
  /-- GET_DIGESTS (R531). Orarn answers the SPDM GET_DIGESTS request. -/
  | getDigests
  /-- GET_CERTIFICATE (R531). Orarn answers the SPDM GET_CERTIFICATE request from slot 0. -/
  | getCertificate (slot : Fin 8)
  /-- CHALLENGE (R531). Orarn answers the SPDM CHALLENGE, signed by AK. -/
  | challenge (nonce : BitVec 256) (keyOk : Bool)
  /-- GET_MEASUREMENTS (R531). Orarn returns SPDM measurement indices 1-5. -/
  | getMeasurements (index : BitVec 8) (keyOk : Bool)
  /-- KEY_EXCHANGE (R531). Orarn carries out SPDM KEY_EXCHANGE and opens a session. -/
  | keyExchange (keyOk : Bool)
  /-- FINISH (R531). Orarn completes an SPDM session with FINISH. -/
  | finish
  /-- IDE_KEY_MANAGEMENT (R531). Orarn sets IDE keys within an SPDM session by the IDE key management protocol. -/
  | ideKeyManagement (stream : Fin 5)
  /-- CRIER_SOURCE_REQUEST (R458). A Crier source begins to request and its target is asserted or served. -/
  | crierSourceRequest (n : BitVec 11)
  /-- CRIER_SOURCE_WITHDRAW (R456). A source's inputs all fall, it withdraws, and a reeve-target source is completed. -/
  | crierSourceWithdraw (n : BitVec 11)
  /-- CRIER_CLAIM (R459). A read of CLAIMv returns the highest eligible source and places it in service. `t` is the vector, none for the Steward. -/
  | crierClaim (t : Option (Fin 64))
  /-- CRIER_COMPLETE (R460). A write to COMPLETEv takes a source out of service. -/
  | crierComplete (t : Option (Fin 64)) (v : Word)
  /-- ROUTE_DATA_WRITE (R462). A write to ROUTE_DATA changes a source's route for later claims. -/
  | routeDataWrite (who : Agent) (v : Word)
  /-- PEND_WRITE (R464). A write to a PEND word stores pending bits, which hardware then resets for requesting sources. -/
  | pendWrite (who : Agent) (w : Fin 64) (v : Word)
  /-- MASK_WRITE (R464). A write to a MASK word affects claims and assertions that begin afterwards. -/
  | maskWrite (who : Agent) (w : Fin 64) (v : Word)
  /-- SUPPLY_WARNING (R474). VDD_COREh falls to 94 %: the hamlet's wells discard draws, islands stretch and Gauge bursts. -/
  | supplyWarning (h : HamletId)
  /-- SUPPLY_WARNING_RELEASE (R473). The rail rises through 95 % and the warning is released and logged. `dur` is the time from assertion in 10 ns, `low` the lowest voltage in % of the reference. -/
  | supplyWarningRelease (h : HamletId) (dur : Nat) (low : BitVec 7)
  /-- WARNING_SETTLE_END (R134). 200 ns after release the stretch ends and discarded slice-draws, plumb work and load passes restart. -/
  | warningSettleEnd (h : HamletId)
  /-- SUPPLY_RESET_LEVEL (R475). VDD_COREh reaches 88 % and the hamlet enters reset. -/
  | supplyResetLevel (h : HamletId)
  /-- SUPPLY_RESET_RELEASE (R475). 10 us after the rail stays above 95 % the hamlet leaves supply reset. -/
  | supplyResetRelease (h : HamletId)
  /-- RESET_LEVEL_HOLD_TIMEOUT (R475). A hamlet held at the reset level beyond 1 ms is power fault 0x03. -/
  | resetLevelHoldTimeout (h : HamletId)
  /-- OVERVOLTAGE (R473). VDD_COREh stays at 108 % for 1 us; power fault 0x02. -/
  | overvoltage (h : HamletId)
  /-- RAIL_SUPERVISOR_TRIP (R476). A PHY or aux supervisor finds a rail outside its limits; power fault 0x04. -/
  | railSupervisorTrip (rail : Fin 36)
  /-- AVS_TRANSACTION (R471). An AVSBus transaction completes, is retried, or fails a third time as power fault 0x01. `ok` says that it was answered with a good CRC, `v` is the voltage in mV or the current in A read. -/
  | avsTransaction (rail : Fin 16) (cmd : AvsCmd) (ok : Bool) (v : BitVec 13)
  /-- VDONE (R472). The regulator reports VDone and a waiting clock raise relocks. -/
  | vdone (h : HamletId)
  /-- VDONE_TIMEOUT (R472). No VDone within 100 us; power fault 0x05 and the clock stays. -/
  | vdoneTimeout (h : HamletId)
  /-- CAP_GOVERNOR_TICK (R478). Every 1 ms the cap governor forms package power and adjusts the stretch duty. -/
  | capGovernorTick
  /-- THERMTRIP (R483). A sensor finds 115 C or a stack 105 C; clocks stop, rails drop and THERMTRIP_N asserts. `stack` says that a granary stack fired, `number` is the sensor or stack. -/
  | thermtrip (stack : Bool) (number : BitVec 6)
  /-- PM_D3HOT (R481). A PowerState write of D3hot halts the crofts and enters RETAIN. -/
  | pmD3hot
  /-- PM_D0 (R479). A PowerState write of D0 wakes the device from RETAIN to IDLE. -/
  | pmD0
  /-- POWER_TRANSITION_DONE (R479). A power-state transition completes and TRANS clears. -/
  | powerTransitionDone
  /-- OFF_ENTRY (R481). 1 ms after an accepted OFF request the L9 drops its rails in reverse order. -/
  | offEntry
  /-- GAUGE_SLOT (R488). A 500 ns Gauge slot ends and both converters' codes are written and checked. `a` and `b` are the codes of GA and GB, `fin` says that both converters finished. -/
  | gaugeSlot (a : BitVec 14) (b : BitVec 14) (fin : Bool)
  /-- GAUGE_SEQ_TIMER (R489). A sequence timer ticks and starts its sequence, or drops the start. -/
  | gaugeSeqTimer (q : Fin 4)
  /-- GAUGE_CMD (R489). A write to GAUGE.CMD starts the named sequences. -/
  | gaugeCmd (who : Agent) (v : Word)
  /-- COLD_START (R499). WARM_RST_N is released in OFF and the cold-start sequence begins with rail group 1. -/
  | coldStart
  /-- RAIL_GROUP_VALID (R498). A rail group stays within limits for 100 us and the next group is enabled. -/
  | railGroupValid
  /-- RAIL_GROUP_TIMEOUT (R498). A rail group is not within limits 20 ms after enable; the start stops with 0x02. `rail` is the rail found outside its limits. -/
  | railGroupTimeout (rail : Fin 36)
  /-- FW_PACKET (R501). A firmware packet reaches the cores of its kind, which store it and are released on a digest match. `n` is the sequence number, `only` the core of a point-to-point resend, `lost` the cores it reaches with a bad CRC, `differ` those whose completed image has another digest. -/
  | fwPacket (kind : CoreKind) (n : BitVec 16) (only : Option (BitVec 16)) (lost : List Nat) (differ : List Nat)
  /-- REPAIR_REPORT (R502). 50 us after a broadcast or repair round, held cores report missing packets and a round follows or cores retire. -/
  | repairReport
  /-- WARM_RST_N_ASSERT (R558). WARM_RST_N goes low; a pulse of at least 1 us is taken as a device reset. `long` says that the pulse lasts at least 1 µs. -/
  | warmRstNAssert (long : Bool)
  /-- WARM_RST_N_RELEASE (R510). The device reset is released and the Steward takes the fast or full path. `same` says that the retained firmware, the defect list and the trim copy agree with flash and manifest (R510). -/
  | warmRstNRelease (same : Bool)
  /-- DEVICE_RESET_REQ (R518). RESET_REQ on the device control page starts a device reset 1 us later. -/
  | deviceResetReq (who : Agent)
  /-- CORE_RESET (R543). RESET_REQ on a well, pump, mill or reeve page starts a core reset. `pg` is the page's BAR0 offset / 0x1000. -/
  | coreReset (who : Agent) (pg : BitVec 16)
  /-- CROFT_RESET (R543). RESET_REQ on the croft control page starts a croft reset. -/
  | croftReset (who : Agent) (c : CroftId)
  /-- HAMLET_RESET (R543). RESET_REQ on the hamlet control page starts a hamlet reset. -/
  | hamletReset (who : Agent) (h : HamletId)
  /-- RESET_DONE (R512). A reset grain finishes bring-up and its pages read their reset values. `fs` are the units that self-test found bad, `e` how the start ended. -/
  | resetDone (g : GrainId) (fs : List Finding) (e : StartEnd)
  /-- RUNTIME_RECORD_WRITE (R496). The Steward writes a runtime event record to the board flash within 100 ms. -/
  | runtimeRecordWrite
  /-- SMB_BOOT (R515). An SMBus block read of command 0x10 returns the boot phase and stop code. -/
  | smbBoot
  /-- SMB_RESET_CAUSE (R515). An SMBus block read of command 0x11 returns the last reset cause. -/
  | smbResetCause
  /-- SMB_THERMTRIP (R515). An SMBus block read of command 0x12 returns the THERMTRIP record. -/
  | smbThermtrip
  /-- SMB_SERIAL (R515). An SMBus block read of command 0x13 returns the serial number. -/
  | smbSerial
  /-- ENABLE_SET (R540). A write of 1 to CTL.ENABLE sets BUSY and runs the page's consistency check. `pg` is the page's BAR0 offset / 0x1000. -/
  | enableSet (who : Agent) (pg : BitVec 16)
  /-- ENABLE_CHECK_DONE (R540). A page's check, training or exchange ends and the page reads ENABLED or REFUSED. `ok` says that training succeeded, `partner` and `ward` are what they answer the Bucket exchange. -/
  | enableCheckDone (pg : BitVec 16) (ok : Bool) (partner : Option Peer) (ward : Option Peer)
  /-- ENABLE_CLEAR (R542). A write of 0 to CTL.ENABLE disables an idle page, or is refused with 0x03. -/
  | enableClear (who : Agent) (pg : BitVec 16)
  /-- PLAN_START (R546). Plan control CMD OP 1 restarts every enabled reeve at ENTRY or RESTORE_ENTRY. `restore` says that FROM is 1. -/
  | planStart (who : Agent) (restore : Bool)
  /-- STOP_AT_STEP_BOUNDARY (R546). Plan control CMD OP 2 sets STOP_PENDING so every reeve halts at the next boundary. -/
  | stopAtStepBoundary (who : Agent)
  /-- HALT_NOW (R546). Plan control CMD OP 3 requests a halt on every enabled reeve. -/
  | haltNow (who : Agent)
  /-- COUNTER_CLEAR (R65). A write to a page's CNT_CLEAR clears the selected counters. `a` is the BAR0 offset of the register. -/
  | counterClear (who : Agent) (a : BitVec 28) (v : Word)
  /-- LEDGER_DIGEST_READ (R393). A read of DIGEST0 latches all 128 bits of the selected digest. `g` is the page's gatehouse. -/
  | ledgerDigestRead (g : Fin 2)
  /-- BELL_NOW_READ (R406). A read of NOW_LO latches the upper 32 bits of the G0 count. -/
  | bellNowRead
  /-- RC_READ (R538). A read of an RC field returns its value and clears it. `a` is the BAR0 offset of the register. -/
  | rcRead (a : BitVec 28)
  /-- REGISTER_WRITE (R537). A write to a register without a row of its own stores, clears W1C bits or is ignored. `a` is the offset in BAR0 or BAR4, `bs` the bytes written. -/
  | registerWrite (who : Agent) (bar4 : Bool) (a : BitVec 28) (bs : List Byte) (ide : Bool)
  /-- BUCKET_EXCHANGE (R416). A Steward exchange message arrives from a partner or ward whose Bucket page is being enabled, and this device answers with its own Bucket fields, cellar headers and declared feed, whether or not its own page is enabled. `l` is the link the message arrives on. -/
  | bucketExchange (l : LinkId)
  /-- VDD_AUX_VALID (R558). VDD_AUX and AUX_3V3 become valid: the address straps are sampled once, the RAIL_EN outputs leave their forced-low state, and the SMBus responder becomes ready within 20 ms. -/
  | vddAuxValid (straps : BitVec 3)
  /-- MAIN_FEEDS_REMOVED (R483). The board manager removes the main power feeds, which releases THERMTRIP_N and leaves the device in OFF with only the aux island kept. -/
  | mainFeedsRemoved
deriving DecidableEq, Repr

end Sys2Proof
end

