-- ==== Sys2Proof/Config.lean ====
section
/-! DEFINITION. What an implementation fixes and what the manual leaves open, as opaque constants: nothing can be proved of
their values. A free value is one of them applied to `State.seq`, the count of free values taken. -/
namespace Sys2Proof

/-- How far a rounding generator in FREE mode has advanced between two uses: the island's cycles since (R47, R48). (DESIGN CHOICE,
assumption 13) -/
opaque Config.freeCycles : Nat → Nat

/-- Which of the FP32 codes within 2 ulp of the exact result the mill's fixed algorithm gives, by operation code and operand
bits: an offset, taken modulo the number of such codes (R185). (DESIGN CHOICE, assumption 11) -/
opaque Config.ulpChoice : Nat → Nat → Nat

/-- A result the manual states for no value of the operands: a reciprocal of zero, a logarithm of zero and the like, as an
FP32 code, by operation code and operand bits (R185). (DESIGN CHOICE, assumption 12) -/
opaque Config.openResult : Nat → Nat → BitVec 32

/-- One of two values the manual does not choose between, taken modulo 2, by the count of free values: how `CONF_LAST.DEV` is rounded (R139)
and the like. (DESIGN CHOICE, assumptions 10, 14 and 149) -/
opaque Config.openBit : Nat → Nat

/-- A word the manual gives no value for, by the count of free values. (DESIGN CHOICE, assumption 10) -/
opaque Config.openWord : Nat → BitVec 64

/-- What a check-bit pattern of three or more bits in error shows, taken modulo 3 (0 no single error, 1 a single error, 2 no error),
and the bit a miscorrection flips (R304). (DESIGN CHOICE, assumption 41) -/
opaque Config.eccCase : Nat → Nat
opaque Config.eccBit : Nat → Nat

/-- Whether more symbol errors than the code detects read as uncorrectable, and the symbols a miscorrection leaves changed (R310). -/
opaque Config.rsCase : Nat → Nat
opaque Config.rsLeft : Nat → Nat

/-- Parity of a codeword of a frame, by its 220 data symbols (R350), and the payload of a Steward message, by its kind, its origin and its
boundary (R424). (DESIGN CHOICE, assumptions 134 and 135) -/
opaque Config.rsParity : List (BitVec 8) → BitVec 32
opaque Config.stewBytes : Nat → Nat → Nat → List (BitVec 8)

/-- Factory trim in 1/8 code of a well's physical column and tap, from the trim image in the board flash (R113, R496). (DESIGN CHOICE,
assumption 71) -/
opaque Config.factoryTrim : Nat → Nat → Nat → BitVec 9

/-- The trim image of the board flash (R496, R497), and the serial number the manufacturing record gives the device (R1). -/
opaque Config.trimImage : List (BitVec 8)
opaque Config.serial : BitVec 128

/-- The entry of the trimmed voltage–frequency table for a MULT on a hamlet, as a step of 5 mV above 0.65 V, taken modulo 41 (R469,
R472). -/
opaque Config.vfTable : Nat → Nat → Nat

/-- The current in A that the trim image gives for a rail from 16 to 35, by rail and power state (R487). -/
opaque Config.railAmps : Nat → Nat → Nat

/-- Contents of the firmware banks before any update, by bank and offset (R496), and whether a bank's bytes verify (R516, R524). -/
opaque Config.flashByte : Nat → Nat → BitVec 8
opaque Config.bankOk : List (BitVec 8) → Bool

/-- SHA-384 of FIPS 180-4, byte 0 of the digest in bits 7 to 0 (R520). (DESIGN CHOICE, assumption 72) -/
opaque Config.sha384 : List (BitVec 8) → BitVec 384

/-- Whether a signature of 96 bytes over a digest verifies under a public key (R520, R527). -/
opaque Config.verify : List (BitVec 8) → BitVec 384 → List (BitVec 8) → Bool

/-- A signature over a digest, byte 0 in bits 7 to 0: by the count of free values, since ECDSA draws a fresh number for each, and by key,
0 DK and 1 AK (R520). -/
opaque Config.sign : Nat → Nat → BitVec 384 → BitVec 768

/-- The certificates of the device chain in DER form, by index and by the digest of the running firmware bank (R523). -/
opaque Config.cert : Nat → BitVec 384 → List (BitVec 8)

/-- What an SPDM response carries beyond the fields the manual gives, by request and response number: its encoding is DMTF's (R531).
(DESIGN CHOICE, assumption 94) -/
opaque Config.spdmBytes : Nat → Nat → List (BitVec 8)

end Sys2Proof
end

