-- ==== Sys2Proof/Machine/Fp.lean ====
section
/-! DEFINITION. Exact values, the eight element formats, and rounding into them (R24 to R27, R35 to R44, R56). -/
namespace Sys2Proof.Machine

/-- A value: a NaN with the sign and payload heritage mode carries (R56) and the trap cause that produced it, 0 for a NaN read
as an operand (R57); an infinity; or the finite value `m × 2^e` with its sign. -/
inductive Val where
  | nan (neg : Bool) (pay cause : Nat)
  | inf (neg : Bool)
  | fin (neg : Bool) (m : Nat) (e : Int)
deriving DecidableEq, Repr

namespace Val

/-- Zero of a sign. -/
def zero (neg : Bool) : Val := .fin neg 0 0

/-- A NaN produced with a trap cause. -/
def made (cause : Nat) : Val := .nan false 0 cause

def isNan : Val → Bool | .nan .. => true | _ => false
def isInf : Val → Bool | .inf _ => true | _ => false
def isFin : Val → Bool | .fin .. => true | _ => false
def isZero : Val → Bool | .fin _ m _ => m == 0 | _ => false
def sign : Val → Bool | .nan n _ _ => n | .inf n => n | .fin n _ _ => n

/-- The trap cause a NaN carries, 0 otherwise. -/
def cause : Val → Nat | .nan _ _ c => c | _ => 0

def neg : Val → Val
  | .nan n p c => .nan n p c
  | .inf n => .inf !n
  | .fin n m e => .fin (!n) m e

def abs : Val → Val
  | .nan n p c => .nan n p c
  | .inf _ => .inf false
  | .fin _ m e => .fin false m e

/-- Multiply by a power of two, exactly. -/
def scale (k : Int) : Val → Val
  | .fin n m e => .fin n m (e + k)
  | v => v

/-- The mantissa of `m × 2^e` at the smaller exponent `f`. -/
def atExp (m : Nat) (e f : Int) : Nat := m * 2 ^ (e - f).toNat

/-- A signed integer multiple of `2^e`. A zero takes the sign given. -/
def ofInt (i : Int) (e : Int) (zeroNeg : Bool) : Val :=
  if i = 0 then .fin zeroNeg 0 e else .fin (decide (i < 0)) i.natAbs e

/-- The signed mantissa. -/
def sm (n : Bool) (m : Nat) : Int := if n then -(m : Int) else (m : Int)

/-- Exact sum. An exact zero sum of unlike signs is +0. -/
def add : Val → Val → Val
  | .nan n p c, _ => .nan n p c
  | _, .nan n p c => .nan n p c
  | .inf a, .inf b => if a = b then .inf a else made 2
  | .inf a, _ => .inf a
  | _, .inf b => .inf b
  | .fin a m e, .fin b k f =>
    let g := min e f
    ofInt (sm a (atExp m e g) + sm b (atExp k f g)) g (a && b)

def sub (x y : Val) : Val := add x (neg y)

/-- Exact product. Zero times infinity is a NaN of cause 0x01. -/
def mul : Val → Val → Val
  | .nan n p c, _ => .nan n p c
  | _, .nan n p c => .nan n p c
  | .inf a, .inf b => .inf (a != b)
  | .inf a, .fin b m _ => if m = 0 then made 1 else .inf (a != b)
  | .fin a m _, .inf b => if m = 0 then made 1 else .inf (a != b)
  | .fin a m e, .fin b k f => .fin (a != b) (m * k) (e + f)

/-- Exact `x × y + z`. -/
def mulAdd (x y z : Val) : Val :=
  match x, y, z with
  | .nan n p c, _, _ => .nan n p c
  | _, .nan n p c, _ => .nan n p c
  | _, _, .nan n p c => .nan n p c
  | _, _, _ => add (mul x y) z

/-- Whether the magnitude of finite `m × 2^e` is below that of `k × 2^f`. -/
def magLt (m : Nat) (e : Int) (k : Nat) (f : Int) : Bool :=
  let g := min e f
  decide (atExp m e g < atExp k f g)

/-- Strict order of values that are not NaN; the two zeros are equal (R25). -/
def lt : Val → Val → Bool
  | .nan .., _ => false
  | _, .nan .. => false
  | .inf a, .inf b => a && !b
  | .inf a, .fin .. => a
  | .fin .., .inf b => !b
  | .fin a m e, .fin b k f =>
    let g := min e f
    decide (sm a (atExp m e g) < sm b (atExp k f g))

/-- Quotient to at least 64 significant bits, with a sticky last bit: correctly rounded by one later rounding into any
format. Division of zero by zero and of infinities is a NaN of cause 0x03; of a nonzero value by zero an infinity. -/
def div : Val → Val → Val
  | .nan n p c, _ => .nan n p c
  | _, .nan n p c => .nan n p c
  | .inf a, .inf _ => if a then made 3 else made 3
  | .inf a, .fin b _ _ => .inf (a != b)
  | .fin a _ _, .inf b => zero (a != b)
  | .fin a m e, .fin b k f =>
    if k = 0 then (if m = 0 then made 3 else .inf (a != b))
    else
      let sh := 66 + Nat.log2 k
      let q := (m * 2 ^ sh) / k
      let r := (m * 2 ^ sh) % k
      .fin (a != b) (2 * q + (if r = 0 then 0 else 1)) (e - f - sh - 1)

/-- Square root to at least 64 significant bits with a sticky last bit. A negative value gives a NaN of cause 0x04. -/
def sqrt : Val → Val
  | .nan n p c => .nan n p c
  | .inf n => if n then made 4 else .inf false
  | .fin n m e =>
    if m = 0 then .fin n 0 0
    else if n then made 4
    else
      let odd := decide (e % 2 ≠ 0)
      let m1 := if odd then 2 * m else m
      let e1 := if odd then e - 1 else e
      let r := Nat.sqrt (m1 * 2 ^ 136)
      .fin false (2 * r + (if r * r = m1 * 2 ^ 136 then 0 else 1)) (e1 / 2 - 68 - 1)

end Val

/-- The four rounding codes of R41; 3 is reserved. -/
def rndRNE : Nat := 0
def rndRTZ : Nat := 1
def rndSR : Nat := 2

/-- An element format (R24): bits of exponent and mantissa, bias, and its special encodings: 0 as IEEE, 1 E4M3, 2 none. -/
structure Fmt where
  code : Nat
  expBits : Nat
  manBits : Nat
  bias : Nat
  special : Nat
deriving DecidableEq, Repr

def fFP32 : Fmt := ⟨0, 8, 23, 127, 0⟩
def fBF16 : Fmt := ⟨1, 8, 7, 127, 0⟩
def fFP16 : Fmt := ⟨2, 5, 10, 15, 0⟩
def fE4M3 : Fmt := ⟨3, 4, 3, 7, 1⟩
def fE5M2 : Fmt := ⟨4, 5, 2, 15, 0⟩
def fE3M2 : Fmt := ⟨5, 3, 2, 3, 2⟩
def fE2M3 : Fmt := ⟨6, 2, 3, 1, 2⟩
def fE2M1 : Fmt := ⟨7, 2, 1, 1, 2⟩

/-- The format of a code; codes 0x8 to 0xF are reserved (R24). -/
def fmtOf : Nat → Option Fmt
  | 0 => some fFP32 | 1 => some fBF16 | 2 => some fFP16 | 3 => some fE4M3
  | 4 => some fE5M2 | 5 => some fE3M2 | 6 => some fE2M3 | 7 => some fE2M1
  | _ => none

namespace Fmt

/-- Width of an element in bits. -/
def width (f : Fmt) : Nat := 1 + f.expBits + f.manBits

/-- Largest exponent field of a finite value. -/
def maxField (f : Fmt) : Nat := if f.special = 0 then 2 ^ f.expBits - 2 else 2 ^ f.expBits - 1

/-- Exponent of the largest finite value (R49). -/
def emax (f : Fmt) : Int := (f.maxField : Int) - f.bias

/-- The largest finite magnitude, as mantissa and exponent. -/
def maxM (f : Fmt) : Nat := if f.special = 1 then 2 ^ (f.manBits + 1) - 2 else 2 ^ (f.manBits + 1) - 1
def maxE (f : Fmt) : Int := f.emax - f.manBits

/-- Code of the largest finite magnitude. -/
def maxCode (f : Fmt) : Nat := f.maxField * 2 ^ f.manBits + (f.maxM - 2 ^ f.manBits)

/-- Exponent of the smallest subnormal. -/
def minE (f : Fmt) : Int := 1 - (f.bias : Int) - f.manBits

/-- Sign bit of a code. -/
def signBit (f : Fmt) : Nat := 2 ^ (f.width - 1)

/-- Canonical NaN of a format (R26). -/
def nanCode (f : Fmt) : Nat :=
  if f.special = 1 then 0x7F else (2 ^ f.expBits - 1) * 2 ^ f.manBits + 2 ^ (f.manBits - 1)

/-- Code of +infinity. -/
def infCode (f : Fmt) : Nat := (2 ^ f.expBits - 1) * 2 ^ f.manBits

/-- The value of an element code (R24). A NaN keeps its sign and its payload at FP32's width, for R56. -/
def decode (f : Fmt) (c : Nat) : Val :=
  let neg := decide (c / f.signBit % 2 = 1)
  let x := c / 2 ^ f.manBits % 2 ^ f.expBits
  let m := c % 2 ^ f.manBits
  if f.special = 0 && x = 2 ^ f.expBits - 1 then
    if m = 0 then .inf neg else .nan neg (m * 2 ^ (23 - f.manBits)) 0
  else if f.special = 1 && x = 15 && m = 7 then .nan neg (m * 2 ^ (23 - f.manBits)) 0
  else if x = 0 then .fin neg m f.minE
  else .fin neg (2 ^ f.manBits + m) ((x : Int) - f.bias - f.manBits)

/-- The value of an operand's element code: in heritage mode a subnormal reads as zero of its sign (R56, R174, R202). -/
def decodeOp (f : Fmt) (her : Bool) (c : Nat) : Val :=
  if her && c / 2 ^ f.manBits % 2 ^ f.expBits == 0 then Val.zero (decide (c / f.signBit % 2 = 1)) else f.decode c

end Fmt

/-- What one rounding did beside its result. -/
structure Rounded where
  code : Nat
  /-- The value was finite and too large: brought to the largest finite value or to NaN, a saturation (R37, R55). -/
  sat : Bool
  /-- The value was finite and too large and became an infinity (R37). -/
  toInf : Bool
  /-- Discarded bits were present: SR consumed the generator (R42). -/
  inexact : Bool
  /-- Trap cause of a NaN written from a source that is not a NaN, or of the NaN the source carries; 0 for none (R40, R57). -/
  cause : Nat
deriving DecidableEq, Repr

/-- How conversions into a format behave in a croft: E4M3 saturation (R39) and heritage mode (R56). -/
structure ConvMode where
  e4m3Sat : Bool
  heritage : Bool
deriving DecidableEq, Repr

/-- Round a magnitude `m × 2^e` to a multiple of `2^q`: the multiple and whether bits were discarded (R41, R42). `u` is the
generator's output. -/
def roundAt (mode u m : Nat) (e q : Int) : Nat × Bool :=
  if q ≤ e then (m * 2 ^ (e - q).toNat, false)
  else
    let sh := (q - e).toNat
    let n := m / 2 ^ sh
    let d := m % 2 ^ sh
    if d = 0 then (n, false)
    else
      let up :=
        if mode = rndRTZ then false
        else if mode = rndSR then decide (2 ^ 32 ≤ (if sh ≤ 32 then d * 2 ^ (32 - sh) else d / 2 ^ (sh - 32)) + u)
        else decide (2 ^ sh < 2 * d) || (decide (2 * d = 2 ^ sh) && decide (n % 2 = 1))
      (if up then n + 1 else n, true)

namespace Fmt

/-- Whether heritage rules apply to conversions into the format: the L7's five (R56). -/
def heritageFmt (f : Fmt) (h : Bool) : Bool := h && f.special != 2

/-- What an overflow of sign `neg` becomes (R37). -/
def overflow (f : Fmt) (cm : ConvMode) (mode : Nat) (neg inexact : Bool) : Rounded :=
  let s := if neg then f.signBit else 0
  let sat4 := cm.e4m3Sat || cm.heritage
  if f.special = 0 && mode != rndRTZ then ⟨f.infCode + s, false, true, inexact, 0⟩
  else if f.special = 1 && !sat4 && mode != rndRTZ then ⟨f.nanCode, true, false, inexact, 5⟩
  else ⟨f.maxCode + s, true, false, inexact, 0⟩

/-- Round a value into a format: the one rounding of every conversion (R35 to R42, R56). -/
def round (f : Fmt) (cm : ConvMode) (mode0 u : Nat) (v : Val) : Rounded :=
  let her := f.heritageFmt cm.heritage
  let mode := if her && mode0 = rndSR then rndRNE else mode0
  match v with
  | .nan n p c =>
    if f.special = 2 then ⟨0, false, false, false, c⟩
    else if her && c = 0 then
      -- sign kept, highest payload bits kept, quiet bit set
      if f.special = 1 then ⟨(if n then f.signBit else 0) + 0x7F, false, false, false, 0⟩
      else ⟨(if n then f.signBit else 0) + f.infCode + ((p / 2 ^ (23 - f.manBits)) ||| 2 ^ (f.manBits - 1)), false, false, false, 0⟩
    else ⟨f.nanCode, false, false, false, c⟩
  | .inf n =>
    let s := if n then f.signBit else 0
    if f.special = 0 then ⟨f.infCode + s, false, false, false, 0⟩
    else if f.special = 1 then
      if cm.e4m3Sat || cm.heritage then ⟨f.maxCode + s, false, false, false, 0⟩ else ⟨f.nanCode, false, false, false, 5⟩
    else ⟨0, false, false, false, 6⟩
  | .fin n m e =>
    let s := if n then f.signBit else 0
    if m = 0 then ⟨s, false, false, false, 0⟩
    else
      let x := e + Nat.log2 m
      if f.emax < x then f.overflow cm mode n (roundAt mode u m e (x - f.manBits)).2
      else if f.special = 1 && Val.magLt f.maxM f.maxE m e then
        -- above 448 the next value is 512: the excess over 448 on a gap of 64, counted from 1 so that the midpoint 480 goes up (R37)
        let g := min e f.maxE
        let r := roundAt mode u (Val.atExp 1 (f.maxE + 1) g + Val.atExp m e g - Val.atExp f.maxM f.maxE g) g (f.maxE + 1)
        if r.1 = 1 then ⟨f.maxCode + s, false, false, true, 0⟩ else f.overflow cm mode n true
      else
        let q := max (x - f.manBits) f.minE
        let r := roundAt mode u m e q
        let (k, q) := if r.1 = 2 ^ (f.manBits + 1) then (2 ^ f.manBits, q + 1) else (r.1, q)
        if k < 2 ^ f.manBits then
          if her && k != 0 then ⟨s, false, false, r.2, 0⟩ else ⟨k + s, false, false, r.2, 0⟩
        else
          let field := (q + f.manBits + f.bias).toNat
          if f.maxField < field then f.overflow cm mode n r.2
          else ⟨field * 2 ^ f.manBits + (k - 2 ^ f.manBits) + s, false, false, r.2, 0⟩

end Fmt

/-- The FP32 value of a 32-bit code. -/
def f32 (c : Nat) : Val := fFP32.decode c

/-- Native FP32 code of a value under RNE. -/
def code32 (v : Val) : Nat := (fFP32.round ⟨true, false⟩ rndRNE 0 v).code

/-- A value rounded once to FP32 with RNE; a NaN keeps its cause. -/
def rne (v : Val) : Val :=
  match v with
  | .nan n p c => .nan n p c
  | _ => f32 (code32 v)

/-- The pair sum of R160 in exact form: the FP32 sum and its error term. -/
structure Pair where
  s : Val
  e : Val
deriving DecidableEq, Repr

/-- Add a pair to a pair (R160): two-sum of the sums, the error terms carried; an error term is dropped where a sum is not
finite. -/
def Pair.add (p : Pair) (x xe : Val) : Pair :=
  if !p.s.isFin || !x.isFin then ⟨rne (Val.add p.s x), .zero false⟩
  else
    let t := rne (Val.add p.s x)
    if !t.isFin then ⟨t, .zero false⟩
    else
      let b := rne (Val.sub t p.s)
      let te := rne (Val.add (rne (Val.sub p.s (rne (Val.sub t b)))) (rne (Val.sub x b)))
      ⟨t, rne (Val.add p.e (rne (Val.add te xe)))⟩

/-- The combination of two pairs (R160). -/
def Pair.combine (p q : Pair) : Pair := p.add q.s q.e

/-- The combination where either may be missing (R162, R186). -/
def Pair.merge : Option Pair → Option Pair → Option Pair
  | none, q => q
  | p, none => p
  | some p, some q => some (p.combine q)

/-- The exact value of a pair; a zero error term leaves the sum with its sign (R157, R186). -/
def Pair.val (p : Pair) : Val := if p.e.isZero || !p.s.isFin then p.s else Val.add p.s p.e

/-- Combine pairwise level by level; an odd last one passes up unchanged. `fuel` bounds the levels. (DEDUCED, assumption 15) -/
def pairLevels : Nat → List (Option Pair) → Option Pair
  | _, [] => none
  | _, [p] => p
  | 0, p :: _ => p
  | fuel + 1, ps => pairLevels fuel (level ps)
where
  /-- One level. -/
  level : List (Option Pair) → List (Option Pair)
    | p :: q :: rest => Pair.merge p q :: level rest
    | ps => ps

/-- The exact square or product as a pair: its FP32 rounding and the rest (R186, R201). -/
def prodPair (a b : Val) : Pair :=
  let h := rne (Val.mul a b)
  ⟨h, if h.isFin then rne (Val.mulAdd a b h.neg) else .zero false⟩

/-- One xorshift step of a generator (R44). -/
def xorshift (x : BitVec 32) : BitVec 32 :=
  let x := x ^^^ (x <<< 13)
  let x := x ^^^ (x >>> 17)
  x ^^^ (x <<< 5)

/-- `n` steps of a generator. -/
def xorshifts : Nat → BitVec 32 → BitVec 32
  | 0, x => x
  | n + 1, x => xorshifts n (xorshift x)

/-- The state a SEED of `v` gives a global lane (R45). -/
def seedLane (v : BitVec 32) (globalLane : Nat) : BitVec 32 :=
  let x := v ^^^ BitVec.ofNat 32 (globalLane * 0x9E3779B9)
  if x = 0 then 1 else x

end Sys2Proof.Machine
end

