-- ==== Sys2Proof/Machine/Records.lean ====
section
/-! DEFINITION. The records the state holds for the engines of a croft: argument blocks as an engine read them, wells, runs and
their records, the plumb, pumps, the mill and the Tally half. -/
namespace Sys2Proof.Machine

/-! ### Argument blocks (R247 to R252) -/

/-- A tensor reference (R247). -/
structure TRef where
  elem : Nat
  fmt : Nat
  scale : Nat
  block : Nat
  hasPeel : Bool
  peel : Nat
  smode : Nat
  rnd : Nat
  pitch : Nat
  trans : Bool
  /-- Bits [31:29] of word 3, reserved. -/
  reserved : Nat
deriving DecidableEq, Repr

/-- A result written in widened form on a span's repeat: its planned element region and format (R214). -/
structure WideRef where
  elem : Nat
  bytes : Nat
  fmt : Nat
deriving DecidableEq, Repr

/-- The DRAW block (R249). -/
structure DrawArgs where
  wells : List Nat
  wellsWord : Nat
  nwellsWord : Nat
  input : TRef
  k : Nat
  k0 : Nat
  t0 : Nat
  rows : Nat
  out : Nat
  stride : Nat
  reserved : Nat
deriving DecidableEq, Repr

/-- The PUMP block (R250). -/
structure PumpArgs where
  a : TRef
  b : TRef
  c : TRef
  e0 : TRef
  e1 : TRef
  e2 : TRef
  m : Nat
  n : Nat
  k : Nat
  rc : Nat
  scratch : Nat
  flags : Nat
  reserved : Nat
deriving DecidableEq, Repr

/-- The MILL block (R251). -/
structure MillArgs where
  slots : List TRef
  rows : Nat
  rowlen : Nat
  param : Nat
  rc : Nat
  amax : Nat
  flags : Nat
  sel : Nat
  reserved : Nat
deriving DecidableEq, Repr

/-- The COMPARE block (R252). -/
structure CompareArgs where
  r : TRef
  k : TRef
  count : Nat
  reserved : Nat
deriving DecidableEq, Repr

/-! ### Wells and plumb -/

/-- A residual entry of a well (R70, R75): its VALUE in BF16. -/
structure Residual where
  col : Nat
  row : Nat
  val : Nat
deriving DecidableEq, Repr

/-- A LOAD in progress (R74). -/
structure LoadRun where
  serial : Nat
  idx : Nat
  /-- Slice offset of the load image. -/
  image : Nat
  /-- Passes ended that count (R136). -/
  pass : Nat
  /-- Cells not yet passed: column, row and target level. -/
  bad : List (Nat × Nat × Int)
  /-- The pass overlaps a supply warning and is repeated (R136). -/
  redo : Bool
  /-- The repeat waits for the end of the settle (R136). -/
  hold : Bool := false
deriving DecidableEq, Repr

/-- What a well keeps beyond its registers. -/
structure Well where
  load : Option LoadRun := none
  /-- Levels of the data columns as the last LOAD programs them, row by row (R68, R72); none before a first load. -/
  levels : List (BitVec 8) := []
  /-- When the last load completed (R80). -/
  loadedAt : Nat := 0
  /-- Column scales, FP32 codes (R69). -/
  scales : List Nat := []
  /-- Residual entries the leat store holds (R190). -/
  resid : List Residual := []
  /-- The residues e(r, q) in 1/128 level, row by row for each quarter (R123). -/
  resErr : List (List Int) := []
  /-- Spare map in force since the last load: spare and logical column (R77, R99). -/
  spares : List (Nat × Nat) := []
  /-- Trims in force that a window has set, by physical column × 128 + tap; others are the factory trims (R112, R113). -/
  trims : List (Nat × Int) := []
  /-- A window's shadow trims that wait for a draw boundary (R115). -/
  shadow : Option (List (Nat × Int)) := none
  /-- When the last window and the last sounding ended (R117). -/
  windowAt : Option Nat := none
  soundAt : Option Nat := none
  /-- Codes of the last slice-draw completed since the last load (R120). -/
  last : List Int := []
  /-- Since the last event of R130 a window without TRIM_LIMIT has completed (R133). -/
  cleanWindow : Bool := false
  /-- Due for a window for another reason than Tj: its age, a failed sounding, or a reset (R113, R116, R117). -/
  due : Bool := false
  /-- Overdue for a window, for a sounding (R117). -/
  overWindow : Bool := false
  overSound : Bool := false
deriving DecidableEq, Repr

/-- One well's rows as the edge prepared them for a draw (R88, R91). -/
structure EdgeWell where
  /-- For each row, Q with its sign and the binary logarithm of 1 / gain. -/
  rows : List (Int × Nat)
  /-- Elements with edge loss (R92). -/
  lost : Nat
  /-- Outlier rows and their BF16 values. -/
  outliers : List (Nat × Nat)
  /-- Decoded inputs of the rows a residual entry or an outlier names (R190). -/
  decoded : List (Nat × Val)
deriving DecidableEq, Repr

/-- A draw's inputs at the edge: S and c of R88, the binary logarithm of M, and each well's rows. -/
structure Edge where
  s : Int
  c : Nat
  m : Nat
  nan : Bool
  zero : Bool
  wells : List EdgeWell
deriving DecidableEq, Repr

def Edge.none : Edge := ⟨0, 0, 0, false, false, []⟩

/-- A DRAW order in progress on its run of wells (R85). Wells are named by their place in the run. -/
structure Run where
  serial : Nat
  idx : Nat
  args : DrawArgs
  /-- Draws of the order, and the draw in progress or next. -/
  n : Nat
  draw : Nat := 0
  /-- The draw has begun: its inputs are latched. -/
  live : Bool := false
  inSlot : Bool := false
  slice : Nat := 0
  /-- Slice-draws of this slice that have ended, and how many it takes (R126). -/
  rep : Nat := 0
  nrep : Nat := 1
  /-- The row quarter due or in progress, and the wells that draw quarters (R94, R95). -/
  quarter : Option Nat := none
  quartering : List Nat := []
  /-- Codes of the slice-draw in progress, of the slice's ended slice-draws, and of the ended slices, well by well. -/
  part : List (List Int) := []
  cur : List (List Int) := []
  past : List (List (List Int)) := []
  edge : Edge := Edge.none
  /-- Status word so far (R98). -/
  status : Nat := 0
  esc : List Nat := []
  /-- Of these, the wells escalated for a failed check (R125, R127). -/
  conf : List Nat := []
  held : List Nat := []
  stale : List Nat := []
  /-- The order has advanced NAN_IN_CNT (R90). -/
  nanSeen : Bool := false
  waitLeat : Bool := false
  waitEsc : Bool := false
deriving DecidableEq, Repr

/-- A draw's record, from the end of its last slice to its merge (R190, R192). -/
structure DrawRec where
  serial : Nat
  idx : Nat
  draw : Nat
  final : Bool
  /-- Slice offset of the output record. -/
  out : Nat
  wells : List Nat
  edge : Edge
  /-- A_k of each slice, the codes of escalated wells withdrawn (R96, R127). -/
  sums : List (List Int)
  nrep : Nat
  status : Nat
  /-- Escalated parts not yet computed (R128). -/
  parts : Nat
  promoted : Bool := false
  merging : Bool := false
  /-- Outputs, FP32 codes. -/
  y : List Nat := []
deriving DecidableEq, Repr

/-- An escalated part: its well, the draw it belongs to and when it fell due (R128, R132). -/
structure EscPart where
  well : Nat
  serial : Nat
  draw : Nat
  due : Nat
deriving DecidableEq, Repr

/-- A window or sounding in progress: its PLUMB order, none for autonomous work, and the wells that follow (R118, R119). -/
structure PlumbJob where
  order : Option (Nat × Nat)
  well : Nat
  rest : List Nat
  sound : Bool
  /-- Aborted by a supply warning, to restart from its beginning (R135). -/
  restart : Bool
deriving DecidableEq, Repr

/-! ### Pumps and mill -/

/-- A tile whose sums are final and whose conversion runs (R165). -/
structure TileConv where
  row : Nat
  col : Nat
  sums : List Pair
  /-- The first chunk and position with a 0 × infinity product (R59). -/
  bad : Option (Nat × Nat)
  retry : Bool
deriving DecidableEq, Repr

/-- A PUMP order in progress. -/
structure PumpRun where
  serial : Nat
  idx : Nat
  shape : Nat
  /-- Epilogue code of the order word (R244). -/
  epi : Nat
  bnd : Bool
  layer : Nat
  args : PumpArgs
  /-- Scale byte of a DELAYED C, read when the order began (R208). -/
  scale : Nat
  /-- The tile in progress, counted along R149's walk, and its next chunk. -/
  tile : Nat := 0
  chunk : Nat := 0
  /-- Pairs of each cell: of each group under SHAPE, of each chunk under TREE (R162, R163). -/
  sums : List (List (Option Pair)) := []
  bad : Option (Nat × Nat) := none
  conv : Option TileConv := none
  retried : Bool := false
  retryFail : Bool := false
  ovf : Bool := false
  invalid : Bool := false
  infOut : Bool := false
  esc : Bool := false
  nanSeen : Bool := false
  /-- Largest finite magnitude converted (R209). -/
  amax : Val := .fin false 0 0
  /-- Elements of C an epilogue has written (R183). -/
  wrote : Nat := 0
  /-- An escalated part has been taken since the last k-chunk ended (R170). -/
  served : Bool := false
  /-- Of the strip a NORM_BWD epilogue gathers: the values its scratch region does not carry, by place, row by row, which are NaNs
  with the cause that made them and the rows past the 64th; and each tile's column with its first 0 × infinity product (R59, R172). -/
  strip : List (Nat × Val) := []
  stripBad : List (Nat × Nat × Nat) := []
deriving DecidableEq, Repr

/-- A result tensor of a MILL order on its way to the slice: its reference, its row length, its values in the order they are
written, and how many have been written. -/
structure MillOut where
  ref : TRef
  len : Nat
  /-- Slot of the block, 0 to 5. -/
  slot : Nat
  vals : List Val
  done : Nat := 0
  /-- Written as head and remnant bytes rather than converted (R197). -/
  rem : Bool := false
  /-- Place of the first 0 × infinity product of each row's contraction: k-chunk and position (R59, R60). -/
  places : List (Option (Nat × Nat)) := []
  /-- Whether the operation has a contraction (R60). -/
  contr : Bool := false
deriving DecidableEq, Repr

/-- One Tally slot (R227). -/
structure TallySlot where
  pair : Option Pair
  nf : Nat
deriving DecidableEq, Repr

/-- A contribution of a TALLY COMPARE (R224): D and Q, whether a difference was not finite, its layer, skip count and number of
contributors. -/
structure Contrib where
  croft : Nat
  d : Pair
  q : Pair
  nonfin : Bool
  layer : Nat
  count : Nat
deriving DecidableEq, Repr

/-- A device entry of Tally (R228, R229): its ENTRY_CFG word, norm and reference as FP32 codes, whether the reference is set, and
one slot per croft that has sent one. -/
structure TallyEntry where
  cfg : Nat := 0
  norm : Nat := 0
  ref : Nat := 0
  seen : Bool := false
  slots : List (Nat × TallySlot) := []
deriving DecidableEq, Repr

/-- A MILL order or TALLY COMPARE in progress. -/
structure MillRun where
  serial : Nat
  idx : Nat
  op : Nat
  bnd : Bool
  layer : Nat
  args : MillArgs
  scale : Nat
  rows : Nat
  len : Nat
  /-- The operation has been carried out, and its results wait to be converted. -/
  carried : Bool := false
  outs : List MillOut := []
  /-- Bytes written whole at the order's end: load images, positions and other plain words, by slice offset. -/
  raw : List (Nat × List (BitVec 8)) := []
  retry : Bool := false
  retried : Bool := false
  ovf : Bool := false
  nanSeen : Bool := false
  amax : Val := .fin false 0 0
  /-- Sums for Tally slots: slot, pair and non-finite elements (R201). -/
  tally : List (Nat × TallySlot) := []
  /-- A TALLY COMPARE: its group and the contribution it sends (R224). -/
  cmp : Option (Nat × Contrib) := none
deriving DecidableEq, Repr

/-! ### Snapshots -/

/-- A write held at a granary controller because its pail is not copied yet (R420): its bytes, and whether it found every holding
buffer full and waits for one. -/
structure HeldWrite where
  src : Source
  addr : Nat
  bytes : List (BitVec 8)
  waited : Bool
deriving DecidableEq, Repr

/-- A snapshot in progress (R418 to R421). Pails of the slot are named by their number k. -/
structure Snap where
  b : Nat
  bell : Nat
  /-- Slot written: 0 A, 1 B. -/
  slot : Nat
  /-- Granary pail of each k: the set's regions in list order, then the state block. -/
  pails : List Nat
  uncopied : List Nat
  /-- Pails read into holding buffers on a first touch and not yet sent. -/
  staged : List (Nat × List (BitVec 8)) := []
  /-- Pails sent and not acknowledged. -/
  unacked : List Nat := []
  /-- Both headers of the slot read STATE 1 (R418). -/
  begun : Bool := false
  /-- Sum of the granules copied so far (R390, R419). -/
  digest : BitVec 128 := 0
  committing : Bool := false
  /-- The cellar header's commit has been acknowledged (R421). -/
  acked : Bool := false
  held : List HeldWrite := []
deriving DecidableEq, Repr

/-- A restore in progress (R425): its kind (1 local, 2 serving, 3 accepting), its slot, the boundary and digest of its header, the
digest of the pails so far, and the pails it still lacks or, serving, that are not acknowledged. -/
structure Restore where
  kind : Nat
  slot : Nat
  b : Nat
  want : BitVec 128
  digest : BitVec 128 := 0
  left : List Nat := []
deriving DecidableEq, Repr

/-- What a granule is read for (R310): an access, the patrol scrub, or the merge of a write. -/
inductive RereadFor where
  | read (src : Source)
  | scrub
  | merge (src : Source) (addr : Nat) (bytes : List (BitVec 8))
deriving DecidableEq, Repr

/-- A granule to be read once more: its hamlet and its number over all granaries (R310). -/
structure Reread where
  hamlet : Nat
  granule : Nat
  what : RereadFor
deriving DecidableEq, Repr

/-! ### Sluices (11_sluices) -/

/-- A descriptor (R329): its fields, and whether a reserved bit is set. -/
structure Desc where
  kind : Nat
  tag : Nat
  fence : Bool
  ledger : Bool
  irq : Bool
  lSig : Bool
  rSig : Bool
  segLog : Nat
  /-- Token, croft and COUNT of LTOK and of RTOK. -/
  ltok : Nat × Nat × Nat
  rtok : Nat × Nat × Nat
  coll : Nat
  src : Nat
  dst : Nat
  dev : Nat
  sys : Bool
  rows : Nat
  rowBytes : Nat
  srcPitch : Nat
  dstPitch : Nat
  fill : Nat
  reserved : Bool
deriving DecidableEq, Repr

/-- One segment of a transfer in progress (R330, R334). -/
structure Seg where
  size : Nat
  /-- Bytes the queue's port has moved or, for a remote source, has requested. -/
  moved : Nat := 0
  /-- A beat asked of another croft's IN cycles, and its bytes once they have come. -/
  asked : Bool := false
  ready : List (BitVec 8) := []
  /-- Messages begun, the bytes the one in progress has left, and its link (16 none) and share (R359). -/
  msgs : Nat := 0
  left : Nat := 0
  link : Nat := 16
  share : Nat := 0
  /-- Status, once complete. -/
  res : Option Nat := none
deriving DecidableEq, Repr

/-- A transfer from the start of its descriptor to its record (R328). -/
structure Xfer where
  idx : Nat
  epoch : Nat
  desc : Desc
  segs : List Seg
  /-- Its descriptor has started and what its KIND does has yet to begin. -/
  fresh : Bool
deriving DecidableEq, Repr

/-- A queue beyond its registers (R326 to R328, R338, R339). -/
structure Queue where
  tail : Nat := 0
  head : Nat := 0
  done : Nat := 0
  /-- Descriptors at or past DONE whose records are written. -/
  written : List Nat := []
  xfers : List Xfer := []
  epoch : Nat := 0
  /-- TAGs used in the current epoch. -/
  tags : List Nat := []
  /-- When each epoch value was last left. -/
  left : List (Nat × Nat) := []
  /-- An epoch advance waits; the EPOCH descriptor whose record follows it, if one ordered it. -/
  waiting : Option (Option Nat) := none
  /-- The transfer that stopped the queue (R336). -/
  stopper : Option Nat := none
  /-- Owner code at the latest accepted doorbell, and index of the SLUICE order that rang it. -/
  owner : Nat := 0
  order : Nat := 0
deriving DecidableEq, Repr

/-- What names a segment at its receiver: the link it came by (16 for the lanes, 17 for read responses), its device, queue, tag, epoch, incarnation and
number, and whether it is Bucket's (R360, R361). -/
structure SegKey where
  link : Nat
  dev : Nat
  queue : Nat
  tag : Nat
  epoch : Nat
  inc : Nat
  seg : Nat
  bucket : Bool
deriving DecidableEq, Repr

/-- A segment open at its receiver (R333, R361): its bytes, the local address of the first that came, whether its destination was under
reset when it began, the bytes accounted for, and its status so far. -/
structure Entry where
  key : SegKey
  size : Nat
  dst : Nat
  late : Bool := false
  seen : Nat := 0
  status : Nat := 0
  absorbed : Bool := false
deriving DecidableEq, Repr

/-- A beat of incoming traffic that waits for an IN cycle of a croft (R325, R333). -/
inductive InJob where
  /-- Bytes for the slice, at slice offsets, on behalf of croft `src` of device `dev`; `via` is the link × 16 + share they came by. -/
  | write (dev src : Nat) (key : SegKey) (via : Option Nat) (parts : List (Nat × List (BitVec 8)))
  /-- Bytes of the slice, for segment `seg` of the transfer `idx` of a queue of this device. -/
  | feed (queue idx seg : Nat) (offs : List Nat)
  /-- Bytes of the slice for a READ_REQ: what is still to be read, from the end of what has been (R362). -/
  | serve (link share croft : Nat) (req : Head) (got : List (BitVec 8))
deriving DecidableEq, Repr

/-! ### Links (12_quinar_links) -/

/-- A message received whole (R359): its inbound share, its croft, its HEAD and its bytes; `late` says of a READ_REQ that what it reads
was under reset when it came (R341). -/
structure RxMsg where
  share : Nat
  croft : Nat
  head : Head
  bytes : List (BitVec 8)
  late : Bool := false
deriving DecidableEq, Repr

/-- The latest HEAD of a share and its bytes so far; `drop` says its flits are discarded, `relay` where a transit entry sends
them on. -/
structure ShareRx where
  croft : Nat
  head : Head
  bytes : List (BitVec 8) := []
  /-- Bytes passed, of data that is not kept. -/
  passed : Nat := 0
  drop : Bool := false
  relay : Option (Nat × Nat) := none
deriving DecidableEq, Repr

/-- A flit or control message sent and not acknowledged, with the times it has been replayed (R354). -/
structure Sent (α : Type) where
  seq : Nat
  item : α
  count : Nat := 0
deriving DecidableEq, Repr

/-- A link beyond its registers. -/
structure Link where
  /-- Flits that wait, by outbound share: 0 to 14, and those of share 15 under 16 for the Steward, 17 for the host's queues, 18 for Bucket's and
  19 for Bucket's own messages (R285). -/
  tx : List (Nat × List Flit) := []
  /-- Sequence number of the next slot sent, and of the first slot never sent. -/
  next : Nat := 0
  high : Nat := 0
  replay : List (Sent Flit) := []
  /-- Next sequence expected, and whether a flit has been rejected since the last was accepted. -/
  expect : Nat := 0
  /-- NAK is due, and the sequence and time of the last one sent (R353). -/
  nak : Bool := false
  lastNak : Option (Nat × Nat) := none
  /-- When the last replay of flits and the last of control messages started, in model time (R354). -/
  replayAt : Option Nat := none
  creplayAt : Option Nat := none
  /-- Control messages that wait, with their source: 0 acknowledgements, 1 signals, 2 the Bell, 3 relays; and the source whose turn is
  next (R357). -/
  ctrl : List (Nat × Ctrl) := []
  turn : Nat := 0
  cnext : Nat := 0
  chigh : Nat := 0
  creplay : List (Sent Ctrl) := []
  cexpect : Nat := 0
  cnak : Bool := false
  clastNak : Option (Nat × Nat) := none
  /-- A retrain is due (R354). -/
  retrainDue : Bool := false
  /-- The link was down before the training in progress. -/
  wasDown : Bool := false
  rx : List (Nat × ShareRx) := []
  /-- The HEAD sent last on each share and the bytes sent of it (R389). -/
  txHead : List (Nat × Head × Nat) := []
  inbox : List RxMsg := []
  /-- Flits counted towards the next 2^20. -/
  txCount : Nat := 0
  rxCount : Nat := 0
  laneErr : List (Nat × Nat) := []
deriving DecidableEq, Repr

end Sys2Proof.Machine
end

