-- ==== Sys2Proof/Machine/Regs.lean ====
section
/-! DEFINITION. The register pages (R535 to R539): page kinds, instances and BAR0 addresses, and every register field of the
register tables of the chapters with its place, access code (R3) and reset value (R6). -/
namespace Sys2Proof.Machine

/-- The kinds of register page (R535). -/
inductive Kind where
  | plan | devctl | host | crier | orarn | power | gauge | numstep | fabric | port | bell | window | ledger | watch | bucket | link | feed | defect | hamlet | granary | croft | reeve | mill | sluice | plumb | tally | pump | own | cistern | well | qgroup
deriving DecidableEq, Repr

/-- TYPE of a page of kind `k` (R535). -/
def Kind.type : Kind → Nat
  | .plan => 0x0001
  | .devctl => 0x0002
  | .host => 0x0003
  | .crier => 0x0004
  | .orarn => 0x0005
  | .power => 0x0006
  | .gauge => 0x0007
  | .numstep => 0x0008
  | .fabric => 0x0009
  | .port => 0x000A
  | .bell => 0x000B
  | .window => 0x000C
  | .ledger => 0x000D
  | .watch => 0x000E
  | .bucket => 0x000F
  | .link => 0x0010
  | .feed => 0x0011
  | .defect => 0x0012
  | .hamlet => 0x0020
  | .granary => 0x0021
  | .croft => 0x0030
  | .reeve => 0x0031
  | .mill => 0x0032
  | .sluice => 0x0033
  | .plumb => 0x0034
  | .tally => 0x0035
  | .pump => 0x0036
  | .own => 0x0037
  | .cistern => 0x0038
  | .well => 0x0039
  | .qgroup => 0x003A

/-- One register page: its kind and its INSTANCE (R535). -/
structure Page where
  kind : Kind
  inst : Nat
deriving DecidableEq, Repr

/-- BAR0 base of hamlet `h` (R535). -/
def hamletBase (h : Nat) : Nat := 0x1000000 + h * 0x1000000

/-- BAR0 base of global croft `c` (R535). -/
def croftBase (c : Nat) : Nat := hamletBase (c / 16) + 0x400000 + (c % 16) * 0x40000

/-- BAR0 offset of a page (R535). -/
def Page.base (p : Page) : Nat :=
  match p.kind with
  | .plan => 0x0
  | .devctl => 0x1000
  | .host => 0x2000
  | .crier => 0x3000
  | .orarn => 0x4000
  | .power => 0x5000
  | .gauge => 0x6000
  | .numstep => 0x7000
  | .fabric => 0x8000
  | .port => 0x9000
  | .bell => 0xA000
  | .window => 0xB000
  | .ledger => 0xC000 + p.inst * 0x1000
  | .watch => 0xE000
  | .bucket => 0xF000
  | .link => 0x10000 + p.inst * 0x1000
  | .feed => 0x20000
  | .defect => 0x21000
  | .hamlet => hamletBase p.inst
  | .granary => hamletBase p.inst + 0x1000
  | .croft => croftBase p.inst + 0x0
  | .reeve => croftBase p.inst + 0x1000
  | .mill => croftBase p.inst + 0x2000
  | .sluice => croftBase p.inst + 0x3000
  | .plumb => croftBase p.inst + 0x4000
  | .tally => croftBase p.inst + 0x5000
  | .pump => croftBase (p.inst / 4) + 0x6000 + (p.inst % 4) * 0x1000
  | .own => croftBase p.inst + 0xA000
  | .cistern => croftBase p.inst + 0xB000
  | .well => croftBase (p.inst / 16) + 0x10000 + (p.inst % 16) * 0x1000
  | .qgroup => croftBase (p.inst / 16) + 0x20000 + (p.inst % 16) * 0x1000

/-- The page that holds BAR0 offset `a`, if any (R535). -/
def pageAt (a : Nat) : Option Page :=
  if a < 0x1000000 then
    match a / 0x1000 with
    | 0 => some ⟨.plan, 0⟩
    | 1 => some ⟨.devctl, 0⟩
    | 2 => some ⟨.host, 0⟩
    | 3 => some ⟨.crier, 0⟩
    | 4 => some ⟨.orarn, 0⟩
    | 5 => some ⟨.power, 0⟩
    | 6 => some ⟨.gauge, 0⟩
    | 7 => some ⟨.numstep, 0⟩
    | 8 => some ⟨.fabric, 0⟩
    | 9 => some ⟨.port, 0⟩
    | 10 => some ⟨.bell, 0⟩
    | 11 => some ⟨.window, 0⟩
    | 14 => some ⟨.watch, 0⟩
    | 15 => some ⟨.bucket, 0⟩
    | 32 => some ⟨.feed, 0⟩
    | 33 => some ⟨.defect, 0⟩
    | n =>
      if n = 0xC ∨ n = 0xD then some ⟨.ledger, n - 0xC⟩
      else if 0x10 ≤ n ∧ n ≤ 0x1F then some ⟨.link, n - 0x10⟩
      else none
  else
    let h := a / 0x1000000 - 1
    let r := a % 0x1000000
    if 8 ≤ h then none
    else if r < 0x1000 then some ⟨.hamlet, h⟩
    else if r < 0x2000 then some ⟨.granary, h⟩
    else if r < 0x400000 ∨ 0x800000 ≤ r then none
    else
      let c := h * 16 + (r - 0x400000) / 0x40000
      let n := (r % 0x40000) / 0x1000
      match n with
      | 0 => some ⟨.croft, c⟩
      | 1 => some ⟨.reeve, c⟩
      | 2 => some ⟨.mill, c⟩
      | 3 => some ⟨.sluice, c⟩
      | 4 => some ⟨.plumb, c⟩
      | 5 => some ⟨.tally, c⟩
      | 10 => some ⟨.own, c⟩
      | 11 => some ⟨.cistern, c⟩
      | n =>
        if 6 ≤ n ∧ n ≤ 9 then some ⟨.pump, c * 4 + (n - 6)⟩
        else if 16 ≤ n ∧ n ≤ 31 then some ⟨.well, c * 16 + (n - 16)⟩
        else if 32 ≤ n ∧ n ≤ 47 then some ⟨.qgroup, c * 16 + (n - 32)⟩
        else none

/-- Access codes of R3. -/
inductive Acc where
  | rw | ro | w1c | wo | rc | rwl
deriving DecidableEq, Repr

/-- One field of a register table: the register's offset in its page, the field's lowest bit and width, its access code and
reset value. `n1`, `s1`, `n2`, `s2` repeat the register for an array of `n1` rows, `s1` bytes apart, of `n2` entries, `s2`
bytes apart. -/
structure FieldSpec where
  off : Nat
  lo : Nat
  width : Nat
  acc : Acc
  reset : Nat
  n1 : Nat
  s1 : Nat
  n2 : Nat
  s2 : Nat
deriving DecidableEq, Repr

/-- The place of one field: register offset in its page, lowest bit, width. -/
structure Fld where
  off : Nat
  lo : Nat
  width : Nat
deriving DecidableEq, Repr

/-- The same field of the register `k` bytes further on in an array of registers. -/
def Fld.plus (f : Fld) (k : Nat) : Fld := ⟨f.off + k, f.lo, f.width⟩

/-- A field of a single register. -/
def f1 (off lo width : Nat) (acc : Acc) (reset : Nat) : FieldSpec := ⟨off, lo, width, acc, reset, 1, 4, 1, 4⟩

/-- A field of an array of registers. -/
def fa (off lo width : Nat) (acc : Acc) (reset n1 s1 n2 s2 : Nat) : FieldSpec := ⟨off, lo, width, acc, reset, n1, s1, n2, s2⟩

/-- Whether the field lies in the register at offset `o`. -/
def FieldSpec.at (f : FieldSpec) (o : Nat) : Bool :=
  decide (f.off ≤ o) && decide ((o - f.off) / f.s1 < f.n1) &&
  decide (((o - f.off) % f.s1) / f.s2 < f.n2) && decide (((o - f.off) % f.s1) % f.s2 = 0)

/-- Fields of the common header (R455, R539). -/
def fields_header0 : List FieldSpec := [
  f1 0x020 0 11 .rw 0x0,
  f1 0x020 16 1 .w1c 0x0,
  f1 0x000 0 16 .ro 0x0,
  f1 0x000 16 16 .ro 0x0,
  f1 0x004 0 16 .ro 0x1,
  f1 0x008 0 1 .rw 0x0,
  f1 0x008 1 1 .wo 0x0,
  f1 0x00C 0 3 .ro 0x0,
  f1 0x010 0 8 .ro 0x0,
  f1 0x010 16 12 .ro 0x0,
  f1 0x014 0 32 .ro 0x0,
  f1 0x018 0 32 .ro 0x0,
  f1 0x01C 0 32 .ro 0x0,
  f1 0x024 0 32 .rc 0x0]

/-- Fields of the plan page (R545). -/
def fields_plan0 : List FieldSpec := [
  f1 0x040 0 24 .rwl 0x0,
  f1 0x044 0 2 .wo 0x0,
  f1 0x044 2 1 .wo 0x0,
  f1 0x048 0 1 .ro 0x0,
  f1 0x048 1 1 .ro 0x0,
  f1 0x048 2 3 .ro 0x0,
  f1 0x048 5 8 .ro 0x0,
  f1 0x080 0 32 .ro 0x0,
  f1 0x084 0 32 .ro 0x0,
  f1 0x088 0 32 .ro 0x0,
  f1 0x09C 0 3 .wo 0x0]

/-- Fields of the devctl page (R518, R519). -/
def fields_devctl0 : List FieldSpec := [
  f1 0x040 0 4 .ro 0x0,
  f1 0x040 4 1 .ro 0x0,
  f1 0x040 5 1 .ro 0x0,
  f1 0x040 8 8 .ro 0x0,
  f1 0x044 0 32 .ro 0x0,
  f1 0x048 0 3 .ro 0x0,
  f1 0x048 3 1 .ro 0x0,
  f1 0x04C 0 12 .ro 0x0,
  f1 0x04C 12 10 .ro 0x0,
  f1 0x04C 22 7 .ro 0x0,
  f1 0x080 0 32 .ro 0x0,
  f1 0x084 0 32 .ro 0x0,
  f1 0x088 0 32 .ro 0x0,
  f1 0x08C 0 32 .ro 0x0,
  f1 0x090 0 32 .ro 0x0,
  f1 0x094 0 32 .ro 0x0,
  f1 0x09C 0 6 .wo 0x0]

/-- Fields of the host page (R452, R453). -/
def fields_host0 : List FieldSpec := [
  f1 0x040 0 1 .rwl 0x0,
  f1 0x044 0 3 .ro 0x0,
  f1 0x044 3 4 .ro 0x0,
  f1 0x044 7 1 .ro 0x0,
  f1 0x048 0 2 .ro 0x0,
  f1 0x048 2 3 .ro 0x0,
  f1 0x048 5 1 .ro 0x0,
  f1 0x048 30 1 .w1c 0x0,
  f1 0x048 31 1 .w1c 0x0,
  f1 0x04C 0 32 .ro 0x0,
  f1 0x050 0 8 .ro 0x0,
  f1 0x080 0 32 .ro 0x0,
  f1 0x084 0 32 .ro 0x0,
  f1 0x088 0 32 .ro 0x0,
  f1 0x08C 0 32 .ro 0x0,
  f1 0x090 0 32 .ro 0x0,
  f1 0x094 0 32 .ro 0x0,
  f1 0x098 0 32 .ro 0x0,
  f1 0x09C 0 32 .ro 0x0,
  f1 0x0BC 0 8 .wo 0x0]

/-- Fields of the crier page (R467, R468). -/
def fields_crier0 : List FieldSpec := [
  f1 0x040 0 8 .rwl 0xFF,
  f1 0x044 0 16 .rw 0x0,
  f1 0x048 0 11 .rw 0x0,
  f1 0x04C 0 2 .rw 0x0,
  f1 0x04C 2 7 .rw 0x0,
  f1 0x04C 9 3 .rw 0x0,
  f1 0x04C 12 1 .ro 0x0,
  fa 0x100 0 32 .rw 0xFFFFFFFF 64 0x4 1 0x4,
  fa 0x200 0 32 .rw 0x0 64 0x4 1 0x4,
  fa 0x300 0 11 .ro 0x0 64 0x4 1 0x4,
  fa 0x400 0 11 .wo 0x0 64 0x4 1 0x4,
  f1 0x080 0 32 .ro 0x0,
  f1 0x084 0 32 .ro 0x0,
  f1 0x088 0 32 .ro 0x0,
  f1 0x08C 0 32 .ro 0x0,
  f1 0x09C 0 4 .wo 0x0]

/-- Fields of the orarn page (R532, R533). -/
def fields_orarn0 : List FieldSpec := [
  f1 0x040 0 1 .rwl 0x0,
  f1 0x044 0 1 .ro 0x0,
  f1 0x044 1 1 .ro 0x0,
  f1 0x044 2 1 .ro 0x0,
  f1 0x044 8 8 .ro 0x0,
  f1 0x048 0 32 .ro 0x0,
  f1 0x04C 0 32 .ro 0x0,
  fa 0x050 0 32 .rwl 0x0 12 0x4 1 0x4,
  fa 0x100 0 32 .ro 0x0 12 0x4 1 0x4,
  f1 0x080 0 32 .ro 0x0,
  f1 0x084 0 32 .ro 0x0,
  f1 0x088 0 32 .ro 0x0,
  f1 0x08C 0 32 .ro 0x0,
  f1 0x09C 0 4 .wo 0x0]

/-- Fields of the power page (R484, R485). -/
def fields_power0 : List FieldSpec := [
  f1 0x040 0 9 .rwl 0x1B8,
  f1 0x040 9 1 .rwl 0x1,
  f1 0x044 0 3 .ro 0x1,
  f1 0x044 3 1 .ro 0x0,
  f1 0x044 4 8 .ro 0x0,
  f1 0x044 12 8 .ro 0x0,
  f1 0x044 20 8 .ro 0x0,
  f1 0x044 28 1 .ro 0x0,
  f1 0x044 29 1 .w1c 0x0,
  f1 0x044 30 1 .w1c 0x0,
  f1 0x048 0 13 .ro 0x0,
  f1 0x048 16 6 .ro 0x0,
  f1 0x04C 0 6 .rw 0x0,
  f1 0x050 0 13 .ro 0x0,
  f1 0x050 16 13 .ro 0x0,
  f1 0x054 0 13 .ro 0x0,
  f1 0x058 0 3 .ro 0x0,
  f1 0x058 4 20 .ro 0x0,
  f1 0x058 24 7 .ro 0x0,
  f1 0x058 31 1 .w1c 0x0]

/-- Fields of the power page (R484, R485), continued. -/
def fields_power1 : List FieldSpec := [
  f1 0x05C 0 12 .ro 0x0,
  f1 0x05C 12 6 .ro 0x0,
  f1 0x080 0 32 .ro 0x0,
  f1 0x084 0 32 .ro 0x0,
  f1 0x088 0 32 .ro 0x0,
  f1 0x08C 0 32 .ro 0x0,
  f1 0x090 0 32 .ro 0x0,
  f1 0x094 0 32 .ro 0x0,
  f1 0x098 0 32 .ro 0x0,
  f1 0x09C 0 32 .ro 0x0,
  f1 0x0BC 0 8 .wo 0x0]

/-- Fields of the gauge page (R494, R495). -/
def fields_gauge0 : List FieldSpec := [
  f1 0x040 0 5 .rwl 0x8,
  f1 0x044 0 4 .ro 0x0,
  f1 0x044 4 4 .ro 0x0,
  f1 0x048 0 4 .wo 0x0,
  f1 0x04C 0 8 .w1c 0x0,
  f1 0x050 0 7 .ro 0x0,
  f1 0x050 31 1 .w1c 0x0,
  f1 0x054 0 14 .ro 0x0,
  f1 0x054 16 14 .ro 0x0,
  f1 0x058 0 7 .ro 0x0,
  f1 0x058 8 3 .ro 0x0,
  f1 0x058 11 14 .ro 0x0,
  f1 0x058 31 1 .w1c 0x0,
  fa 0x060 0 6 .rwl 0x0 4 0x4 1 0x4,
  fa 0x060 6 2 .rwl 0x0 4 0x4 1 0x4,
  fa 0x060 8 12 .rwl 0x0 4 0x4 1 0x4,
  fa 0x070 0 16 .ro 0x0 4 0x4 1 0x4,
  fa 0x070 16 5 .ro 0x0 4 0x4 1 0x4,
  fa 0x100 0 7 .rwl 0x0 8 0x8 1 0x4,
  fa 0x100 8 7 .rwl 0x0 8 0x8 1 0x4]

/-- Fields of the gauge page (R494, R495), continued. -/
def fields_gauge1 : List FieldSpec := [
  fa 0x100 16 2 .rwl 0x0 8 0x8 1 0x4,
  fa 0x100 18 2 .rwl 0x0 8 0x8 1 0x4,
  fa 0x100 20 1 .rwl 0x0 8 0x8 1 0x4,
  fa 0x100 21 1 .rwl 0x0 8 0x8 1 0x4,
  fa 0x104 0 14 .rwl 0x0 8 0x8 1 0x4,
  fa 0x104 16 14 .rwl 0x0 8 0x8 1 0x4,
  fa 0x200 0 7 .rwl 0x0 4 0x80 32 0x4,
  fa 0x200 7 1 .rwl 0x0 4 0x80 32 0x4,
  fa 0x200 8 7 .rwl 0x0 4 0x80 32 0x4,
  fa 0x200 15 1 .rwl 0x0 4 0x80 32 0x4,
  fa 0x400 0 14 .ro 0x0 4 0x80 32 0x4,
  fa 0x400 14 1 .ro 0x0 4 0x80 32 0x4,
  fa 0x400 16 14 .ro 0x0 4 0x80 32 0x4,
  fa 0x400 30 1 .ro 0x0 4 0x80 32 0x4,
  f1 0x080 0 32 .ro 0x0,
  f1 0x084 0 32 .ro 0x0,
  f1 0x088 0 32 .ro 0x0,
  f1 0x08C 0 32 .ro 0x0,
  f1 0x090 0 32 .ro 0x0,
  f1 0x09C 0 5 .wo 0x0]

/-- Fields of the numstep page (R236, R237). -/
def fields_numstep0 : List FieldSpec := [
  f1 0x040 0 1 .rwl 0x0,
  f1 0x040 8 8 .rwl 0x8,
  f1 0x040 16 5 .rwl 0x6,
  f1 0x044 0 5 .rwl 0x2,
  f1 0x044 5 5 .rwl 0x8,
  f1 0x044 10 5 .rwl 0x8,
  f1 0x044 15 5 .rwl 0x4,
  f1 0x044 20 3 .rwl 0x4,
  f1 0x044 24 8 .rwl 0x10,
  f1 0x048 0 10 .ro 0x0,
  f1 0x048 10 1 .ro 0x0,
  f1 0x048 11 1 .ro 0x0,
  f1 0x048 12 1 .ro 0x0,
  f1 0x04C 0 32 .ro 0x0,
  f1 0x050 0 10 .ro 0x0,
  f1 0x050 10 2 .ro 0x0,
  f1 0x050 16 7 .ro 0x0,
  f1 0x050 31 1 .w1c 0x0,
  f1 0x054 0 10 .ro 0x0,
  f1 0x054 10 2 .ro 0x0]

/-- Fields of the numstep page (R236, R237), continued. -/
def fields_numstep1 : List FieldSpec := [
  f1 0x054 31 1 .w1c 0x0,
  f1 0x058 0 32 .ro 0x0,
  f1 0x05C 0 32 .ro 0x0,
  f1 0x060 0 10 .rw 0x0,
  f1 0x064 0 2 .rwl 0x0,
  f1 0x064 2 1 .rwl 0x0,
  f1 0x068 0 32 .ro 0x0,
  f1 0x06C 0 32 .ro 0x0,
  f1 0x070 0 16 .ro 0x0,
  f1 0x070 16 16 .ro 0x0,
  f1 0x074 0 32 .rwl 0x0,
  f1 0x078 0 16 .rwl 0x0,
  f1 0x07C 0 17 .rwl 0x0,
  f1 0x080 0 32 .ro 0x0,
  f1 0x084 0 32 .ro 0x0,
  f1 0x088 0 32 .ro 0x0,
  f1 0x08C 0 32 .ro 0x0,
  f1 0x090 0 32 .ro 0x0,
  f1 0x094 0 32 .ro 0x0,
  f1 0x0BC 0 6 .wo 0x0]

/-- Fields of the fabric page (R297). -/
def fields_fabric0 : List FieldSpec := [
  f1 0x050 0 9 .ro 0x0,
  f1 0x050 9 1 .ro 0x0,
  f1 0x050 10 7 .ro 0x0,
  f1 0x050 31 1 .w1c 0x0,
  f1 0x080 0 32 .ro 0x0,
  f1 0x09C 0 1 .wo 0x0,
  fa 0x100 0 3 .rwl 0x0 44 0x40 15 0x4,
  fa 0x100 3 7 .rwl 0x0 44 0x40 15 0x4,
  fa 0x13C 0 3 .ro 0x5 44 0x40 1 0x4]

/-- Fields of the port page (R370, R372). -/
def fields_port0 : List FieldSpec := [
  f1 0x040 0 14 .rwl 0x0,
  f1 0x040 14 4 .rwl 0x0,
  f1 0x040 20 3 .rwl 0x0,
  f1 0x040 24 3 .rwl 0x0,
  f1 0x044 0 16 .ro 0x0,
  f1 0x044 16 16 .ro 0x0,
  fa 0x100 0 16 .rwl 0x0 16 0x8 1 0x4,
  fa 0x100 16 1 .rwl 0x0 16 0x8 1 0x4,
  fa 0x100 17 1 .rwl 0x0 16 0x8 1 0x4,
  fa 0x104 0 14 .rwl 0x0 16 0x8 1 0x4,
  fa 0x104 14 4 .rwl 0x0 16 0x8 1 0x4,
  fa 0x180 0 4 .rwl 0x0 16 0x4 1 0x4,
  fa 0x180 4 1 .rwl 0x0 16 0x4 1 0x4,
  fa 0x1C0 0 16 .rwl 0x0 16 0x4 1 0x4,
  fa 0x200 0 4 .rwl 0x0 64 0x4 1 0x4,
  fa 0x200 4 4 .rwl 0x0 64 0x4 1 0x4,
  fa 0x200 8 4 .rwl 0x0 64 0x4 1 0x4,
  fa 0x200 12 4 .rwl 0x0 64 0x4 1 0x4,
  fa 0x200 16 1 .rwl 0x0 64 0x4 1 0x4,
  fa 0x300 0 14 .rwl 0x0 16 0x4 1 0x4]

/-- Fields of the port page (R370, R372), continued. -/
def fields_port1 : List FieldSpec := [
  fa 0x300 14 1 .rwl 0x0 16 0x4 1 0x4,
  f1 0x080 0 32 .ro 0x0,
  f1 0x084 0 32 .ro 0x0,
  f1 0x088 0 32 .ro 0x0,
  f1 0x08C 0 32 .ro 0x0,
  f1 0x090 0 32 .ro 0x0,
  f1 0x09C 0 5 .wo 0x0]

/-- Fields of the bell page (R406, R407). -/
def fields_bell0 : List FieldSpec := [
  f1 0x040 0 1 .rwl 0x0,
  f1 0x040 1 4 .rwl 0x0,
  f1 0x040 5 4 .rwl 0x0,
  f1 0x040 9 1 .rwl 0x0,
  f1 0x040 10 8 .rwl 0xA,
  f1 0x040 18 5 .rwl 0x0,
  f1 0x044 0 1 .rwl 0x0,
  f1 0x044 1 1 .rwl 0x0,
  f1 0x044 2 1 .rwl 0x0,
  f1 0x044 4 8 .rwl 0x64,
  f1 0x048 0 3 .ro 0x0,
  f1 0x048 3 1 .ro 0x0,
  f1 0x048 4 8 .ro 0xFF,
  f1 0x04C 0 32 .ro 0x0,
  f1 0x050 0 32 .ro 0x0,
  f1 0x054 0 20 .ro 0x0,
  f1 0x058 0 32 .ro 0x0,
  f1 0x05C 0 32 .ro 0x0,
  f1 0x060 0 32 .rwl 0x0,
  f1 0x064 0 32 .rwl 0x0]

/-- Fields of the bell page (R406, R407), continued. -/
def fields_bell1 : List FieldSpec := [
  f1 0x080 0 32 .ro 0x0,
  f1 0x084 0 32 .ro 0x0,
  f1 0x088 0 32 .ro 0x0,
  f1 0x08C 0 32 .ro 0x0,
  f1 0x090 0 32 .ro 0x0,
  f1 0x094 0 32 .ro 0x0,
  f1 0x09C 0 6 .wo 0x0]

/-- Fields of the window page (R548). -/
def fields_window0 : List FieldSpec := [
  f1 0x040 0 12 .rw 0x0]

/-- Fields of the ledger page (R393, R394). -/
def fields_ledger0 : List FieldSpec := [
  fa 0x040 0 32 .rwl 0x0 4 0x4 1 0x4,
  f1 0x050 0 8 .rw 0x0,
  f1 0x050 8 3 .rw 0x0,
  f1 0x050 11 1 .rw 0x0,
  f1 0x050 12 1 .rw 0x0,
  fa 0x054 0 32 .ro 0x0 4 0x4 1 0x4,
  f1 0x064 0 32 .ro 0x0,
  f1 0x068 0 1 .ro 0x0,
  f1 0x080 0 32 .ro 0x0,
  f1 0x084 0 32 .ro 0x0,
  f1 0x09C 0 2 .wo 0x0]

/-- Fields of the watch page (R433, R434). -/
def fields_watch0 : List FieldSpec := [
  f1 0x040 0 8 .rwl 0x80,
  f1 0x040 8 8 .rwl 0x1,
  f1 0x044 0 8 .ro 0x0,
  f1 0x044 8 4 .ro 0x0,
  f1 0x048 0 8 .rc 0x0,
  f1 0x04C 0 8 .ro 0x0,
  f1 0x04C 8 4 .ro 0x0,
  f1 0x04C 31 1 .w1c 0x0,
  f1 0x050 0 7 .ro 0x0,
  f1 0x050 8 3 .ro 0x0,
  f1 0x050 31 1 .w1c 0x0,
  f1 0x054 0 4 .ro 0x0,
  f1 0x054 4 1 .ro 0x0,
  f1 0x054 31 1 .w1c 0x0,
  f1 0x058 0 1 .w1c 0x0,
  fa 0x100 0 8 .rwl 0x0 16 0x8 1 0x4,
  fa 0x100 8 4 .rwl 0x0 16 0x8 1 0x4,
  fa 0x100 12 4 .rwl 0x0 16 0x8 1 0x4,
  fa 0x100 16 1 .rwl 0x1 16 0x8 1 0x4,
  fa 0x104 0 16 .ro 0x0 16 0x8 1 0x4]

/-- Fields of the watch page (R433, R434), continued. -/
def fields_watch1 : List FieldSpec := [
  fa 0x104 16 8 .ro 0x0 16 0x8 1 0x4,
  f1 0x080 0 32 .ro 0x0,
  f1 0x084 0 32 .ro 0x0,
  f1 0x088 0 32 .ro 0x0,
  f1 0x08C 0 32 .ro 0x0,
  f1 0x090 0 32 .ro 0x0,
  f1 0x094 0 32 .ro 0x0,
  f1 0x09C 0 6 .wo 0x0]

/-- Fields of the bucket page (R435, R436). -/
def fields_bucket0 : List FieldSpec := [
  f1 0x040 0 8 .rwl 0x10,
  f1 0x040 8 4 .rwl 0x0,
  f1 0x040 12 4 .rwl 0x0,
  f1 0x044 0 23 .rwl 0x0,
  f1 0x044 24 7 .rwl 0x0,
  f1 0x048 0 23 .rwl 0x0,
  f1 0x04C 0 23 .rwl 0x0,
  f1 0x054 0 23 .rwl 0x0,
  f1 0x050 0 24 .rwl 0x0,
  f1 0x058 0 24 .rwl 0x0,
  f1 0x060 0 2 .ro 0x0,
  f1 0x060 2 3 .ro 0x0,
  f1 0x060 5 1 .ro 0x0,
  f1 0x060 6 1 .w1c 0x0,
  f1 0x060 7 5 .ro 0x0,
  f1 0x060 16 8 .ro 0x0,
  f1 0x064 0 14 .ro 0x0,
  f1 0x064 16 14 .ro 0x0,
  f1 0x068 0 32 .ro 0x0,
  f1 0x06C 0 32 .ro 0x0]

/-- Fields of the bucket page (R435, R436), continued. -/
def fields_bucket1 : List FieldSpec := [
  f1 0x070 0 32 .ro 0xFFFFFFFF,
  f1 0x074 0 32 .ro 0xFFFFFFFF,
  f1 0x078 0 32 .ro 0xFFFFFFFF,
  f1 0x07C 0 32 .ro 0xFFFFFFFF,
  f1 0x0C0 0 3 .wo 0x0,
  f1 0x0C0 3 1 .wo 0x0,
  f1 0x0C4 0 24 .ro 0x0,
  f1 0x080 0 32 .ro 0x0,
  f1 0x084 0 32 .ro 0x0,
  f1 0x088 0 32 .ro 0x0,
  f1 0x08C 0 32 .ro 0x0,
  f1 0x090 0 32 .ro 0x0,
  f1 0x094 0 32 .ro 0x0,
  f1 0x098 0 32 .ro 0x0,
  f1 0x09C 0 32 .ro 0x0,
  f1 0x0A0 0 32 .ro 0x0,
  f1 0x0A4 0 32 .ro 0x0,
  f1 0x0BC 0 10 .wo 0x0]

/-- Fields of the link page (R373, R374). -/
def fields_link0 : List FieldSpec := [
  f1 0x040 0 3 .rwl 0x0,
  f1 0x044 0 3 .ro 0x0,
  f1 0x044 3 1 .ro 0x0,
  f1 0x044 4 12 .ro 0x0,
  f1 0x044 16 2 .ro 0x0,
  f1 0x048 0 14 .ro 0x0,
  f1 0x048 14 4 .ro 0x0,
  f1 0x048 18 4 .ro 0x0,
  f1 0x048 22 1 .ro 0x0,
  f1 0x04C 0 2 .wo 0x0,
  f1 0x050 0 4 .rw 0x0,
  f1 0x054 0 32 .ro 0x0,
  f1 0x058 0 3 .ro 0x0,
  f1 0x080 0 32 .ro 0x0,
  f1 0x084 0 32 .ro 0x0,
  f1 0x088 0 32 .ro 0x0,
  f1 0x08C 0 32 .ro 0x0,
  f1 0x090 0 32 .ro 0x0,
  f1 0x094 0 32 .ro 0x0,
  f1 0x098 0 32 .ro 0x0]

/-- Fields of the link page (R373, R374), continued. -/
def fields_link1 : List FieldSpec := [
  f1 0x09C 0 32 .ro 0x0,
  f1 0x0A0 0 32 .ro 0x0,
  f1 0x0A4 0 32 .ro 0x0,
  f1 0x0BC 0 10 .wo 0x0]

/-- Fields of the feed page (R549). -/
def fields_feed0 : List FieldSpec := [
  f1 0x040 0 8 .rwl 0x0]

/-- Fields of the defect page (R550). -/
def fields_defect0 : List FieldSpec := [
  f1 0x040 0 13 .ro 0x0,
  f1 0x040 13 11 .ro 0x0,
  f1 0x040 24 1 .ro 0x0,
  f1 0x044 0 8 .rw 0x0,
  f1 0x044 16 14 .rw 0x0,
  f1 0x048 0 1 .ro 0x0,
  f1 0x048 1 2 .ro 0x0,
  f1 0x048 3 1 .ro 0x0,
  f1 0x048 4 5 .ro 0x0]

/-- Fields of the granary page (R320, R321). -/
def fields_granary0 : List FieldSpec := [
  f1 0x040 0 1 .rwl 0x1,
  f1 0x040 1 1 .rwl 0x1,
  f1 0x040 2 2 .rwl 0x0,
  f1 0x044 0 8 .rwl 0x5F,
  f1 0x044 16 8 .ro 0x0,
  f1 0x048 0 1 .ro 0x0,
  f1 0x048 1 1 .ro 0x0,
  f1 0x048 2 1 .ro 0x0,
  f1 0x048 3 1 .w1c 0x0,
  f1 0x04C 0 16 .rwl 0xE10,
  f1 0x050 6 26 .ro 0x0,
  f1 0x054 0 4 .ro 0x0,
  f1 0x054 4 3 .ro 0x0,
  f1 0x054 31 1 .w1c 0x0,
  f1 0x058 6 26 .ro 0x0,
  f1 0x05C 0 4 .ro 0x0,
  f1 0x05C 4 2 .ro 0x0,
  f1 0x05C 30 1 .w1c 0x0,
  f1 0x05C 31 1 .w1c 0x0,
  fa 0x100 0 3 .rwl 0x0 15 0x4 1 0x4]

/-- Fields of the granary page (R320, R321), continued. -/
def fields_granary1 : List FieldSpec := [
  fa 0x100 3 4 .rwl 0x0 15 0x4 1 0x4,
  f1 0x13C 0 3 .ro 0x5,
  f1 0x080 0 32 .ro 0x0,
  f1 0x084 0 32 .ro 0x0,
  f1 0x088 0 32 .ro 0x0,
  f1 0x08C 0 32 .ro 0x0,
  f1 0x090 0 32 .ro 0x0,
  f1 0x094 0 32 .ro 0x0,
  f1 0x098 0 32 .ro 0x0,
  f1 0x09C 0 32 .ro 0x0,
  f1 0x0BC 0 8 .wo 0x0]

/-- Fields of the croft page (R63, R64, R65, R66, R288). -/
def fields_croft0 : List FieldSpec := [
  f1 0x100 0 1 .rwl 0x0,
  f1 0x100 1 1 .rwl 0x1,
  f1 0x100 2 1 .rwl 0x0,
  f1 0x110 0 32 .ro 0x0,
  f1 0x114 0 32 .ro 0x0,
  f1 0x118 0 32 .ro 0x0,
  f1 0x11C 0 32 .ro 0x0,
  f1 0x120 0 32 .ro 0x0,
  f1 0x124 0 32 .ro 0x0,
  f1 0x128 0 32 .ro 0x0,
  f1 0x140 0 1 .w1c 0x0,
  f1 0x140 1 1 .w1c 0x0,
  f1 0x140 4 4 .ro 0x0,
  f1 0x140 8 8 .ro 0x0,
  f1 0x140 16 7 .ro 0x0,
  f1 0x144 0 32 .ro 0x0,
  f1 0x148 0 16 .ro 0x0,
  f1 0x148 16 16 .ro 0x0,
  f1 0x14C 0 24 .ro 0x0,
  f1 0x14C 24 7 .ro 0x0]

/-- Fields of the croft page (R63, R64, R65, R66, R288), continued. -/
def fields_croft1 : List FieldSpec := [
  f1 0x150 0 32 .ro 0x0,
  f1 0x154 0 32 .ro 0x0,
  f1 0x158 0 4 .ro 0x0,
  f1 0x158 4 4 .ro 0x0,
  f1 0x158 8 4 .ro 0x0,
  f1 0x158 12 2 .ro 0x0,
  f1 0x160 0 32 .ro 0x0,
  f1 0x180 0 7 .rw 0x40,
  f1 0x180 8 7 .ro 0x40,
  f1 0x180 15 1 .ro 0x0,
  f1 0x12C 0 7 .wo 0x0]

/-- Fields of the reeve page (R269, R270). -/
def fields_reeve0 : List FieldSpec := [
  f1 0x040 12 16 .rwl 0x0,
  f1 0x044 0 16 .rwl 0x0,
  f1 0x044 16 16 .rwl 0x0,
  f1 0x048 0 24 .rwl 0x0,
  f1 0x04C 0 10 .rwl 0x1F4,
  f1 0x050 0 1 .ro 0x0,
  f1 0x050 1 1 .ro 0x0,
  f1 0x050 2 3 .ro 0x0,
  f1 0x050 5 1 .ro 0x0,
  f1 0x050 6 1 .ro 0x0,
  f1 0x050 7 1 .ro 0x0,
  f1 0x050 8 4 .ro 0x0,
  f1 0x050 12 5 .ro 0x0,
  f1 0x050 17 7 .ro 0x0,
  f1 0x050 24 3 .ro 0x0,
  f1 0x050 27 1 .w1c 0x0,
  f1 0x054 0 24 .ro 0x0,
  f1 0x058 0 24 .wo 0x0,
  f1 0x058 28 2 .wo 0x0,
  f1 0x05C 0 16 .ro 0x0]

/-- Fields of the reeve page (R269, R270), continued. -/
def fields_reeve1 : List FieldSpec := [
  f1 0x060 0 24 .ro 0x0,
  f1 0x060 24 4 .ro 0x0,
  f1 0x064 0 24 .ro 0x0,
  f1 0x068 0 32 .ro 0x0,
  f1 0x06C 0 32 .ro 0x0,
  f1 0x070 0 8 .rw 0x0,
  f1 0x074 0 16 .ro 0x0,
  f1 0x078 0 2 .rw 0x0,
  f1 0x07C 0 24 .ro 0x0,
  f1 0x07C 24 1 .ro 0x0,
  f1 0x080 0 32 .ro 0x0,
  f1 0x084 0 32 .ro 0x0,
  f1 0x088 0 32 .ro 0x0,
  f1 0x08C 0 32 .ro 0x0,
  f1 0x090 0 32 .ro 0x0,
  f1 0x094 0 32 .ro 0x0,
  f1 0x098 0 32 .ro 0x0,
  f1 0x09C 0 32 .ro 0x0,
  f1 0x0A0 0 32 .ro 0x0,
  f1 0x0A4 0 32 .ro 0x0]

/-- Fields of the reeve page (R269, R270), continued. -/
def fields_reeve2 : List FieldSpec := [
  f1 0x0A8 0 32 .ro 0x0,
  f1 0x0BC 0 11 .wo 0x0]

/-- Fields of the mill page (R204, R205). -/
def fields_mill0 : List FieldSpec := [
  f1 0x040 0 1 .rwl 0x0,
  f1 0x040 1 1 .rwl 0x1,
  f1 0x044 0 1 .ro 0x0,
  f1 0x044 1 1 .ro 0x0,
  f1 0x044 2 2 .ro 0x0,
  f1 0x044 4 1 .ro 0x0,
  f1 0x044 5 1 .ro 0x0,
  f1 0x044 6 8 .ro 0x0,
  f1 0x048 0 32 .ro 0x0,
  f1 0x04C 0 3 .ro 0x0,
  f1 0x04C 3 1 .ro 0x0,
  f1 0x080 0 32 .ro 0x0,
  f1 0x084 0 32 .ro 0x0,
  f1 0x088 0 32 .ro 0x0,
  f1 0x08C 0 32 .ro 0x0,
  f1 0x090 0 32 .ro 0x0,
  f1 0x094 0 32 .ro 0x0,
  f1 0x098 0 32 .ro 0x0,
  f1 0x09C 0 32 .ro 0x0,
  f1 0x0A0 0 32 .ro 0x0]

/-- Fields of the mill page (R204, R205), continued. -/
def fields_mill1 : List FieldSpec := [
  f1 0x0A4 0 32 .ro 0x0,
  f1 0x0A8 0 32 .ro 0x0,
  f1 0x0AC 0 32 .ro 0x0,
  f1 0x0B0 0 32 .ro 0x0,
  f1 0x0BC 0 13 .wo 0x0]

/-- Fields of the sluice page (R342, R343). -/
def fields_sluice0 : List FieldSpec := [
  f1 0x050 0 8 .ro 0x0,
  f1 0x050 8 8 .ro 0x0,
  f1 0x080 0 32 .ro 0x0,
  f1 0x084 0 32 .ro 0x0,
  f1 0x088 0 32 .ro 0x0,
  f1 0x08C 0 32 .ro 0x0,
  f1 0x090 0 32 .ro 0x0,
  f1 0x094 0 32 .ro 0x0,
  f1 0x098 0 32 .ro 0x0,
  f1 0x09C 0 32 .ro 0x0,
  f1 0x0A0 0 32 .ro 0x0,
  f1 0x0A4 0 32 .ro 0x0,
  f1 0x0BC 0 10 .wo 0x0,
  fa 0x040 0 8 .rwl 0x80 4 0x4 1 0x4,
  fa 0x040 8 8 .rwl 0x80 4 0x4 1 0x4,
  fa 0x040 16 8 .rwl 0x80 3 0x4 1 0x4,
  fa 0x040 24 8 .rwl 0x80 3 0x4 1 0x4]

/-- Fields of the plumb page (R143, R144). -/
def fields_plumb0 : List FieldSpec := [
  f1 0x040 0 1 .rwl 0x1,
  f1 0x040 1 7 .rwl 0xA,
  f1 0x040 8 8 .rwl 0x32,
  f1 0x040 16 8 .rwl 0x64,
  f1 0x040 24 2 .rwl 0x0,
  f1 0x044 0 8 .rwl 0x10,
  f1 0x044 8 8 .rwl 0x3C,
  f1 0x048 0 4 .ro 0x0,
  f1 0x048 4 1 .ro 0x0,
  f1 0x048 5 1 .ro 0x0,
  f1 0x048 6 1 .ro 0x0,
  f1 0x048 8 16 .ro 0x0,
  f1 0x04C 0 12 .ro 0x0,
  f1 0x080 0 32 .ro 0x0,
  f1 0x084 0 32 .ro 0x0,
  f1 0x088 0 32 .ro 0x0,
  f1 0x09C 0 3 .wo 0x0]

/-- Fields of the tally page (R238). -/
def fields_tally0 : List FieldSpec := [
  f1 0x040 0 8 .rw 0x0,
  f1 0x044 0 32 .ro 0x0,
  f1 0x048 0 32 .ro 0x0,
  f1 0x04C 0 32 .ro 0x0,
  f1 0x050 0 1 .w1c 0x0,
  f1 0x050 1 1 .ro 0x0,
  f1 0x050 2 4 .ro 0x0,
  f1 0x050 16 10 .ro 0x0,
  f1 0x054 0 32 .ro 0x0,
  f1 0x080 0 32 .ro 0x0,
  f1 0x084 0 32 .ro 0x0,
  f1 0x088 0 32 .ro 0x0,
  f1 0x09C 0 3 .wo 0x0]

/-- Fields of the pump page (R177, R178, R179). -/
def fields_pump0 : List FieldSpec := [
  f1 0x040 0 1 .rwl 0x0,
  f1 0x040 1 1 .rwl 0x0,
  f1 0x044 0 1 .ro 0x0,
  f1 0x044 1 1 .ro 0x0,
  f1 0x044 2 1 .ro 0x0,
  f1 0x044 3 1 .ro 0x0,
  f1 0x044 4 1 .ro 0x0,
  f1 0x044 5 3 .ro 0x0,
  f1 0x044 8 1 .ro 0x0,
  f1 0x048 0 32 .ro 0x0,
  f1 0x04C 0 16 .ro 0x0,
  f1 0x04C 16 16 .ro 0x0,
  f1 0x050 0 1 .ro 0x0,
  f1 0x050 1 1 .ro 0x0,
  f1 0x050 2 1 .ro 0x0,
  f1 0x050 3 1 .ro 0x0,
  f1 0x050 4 1 .ro 0x0,
  f1 0x050 5 1 .ro 0x0,
  f1 0x054 0 11 .ro 0x0,
  f1 0x054 16 16 .ro 0x0]

/-- Fields of the pump page (R177, R178, R179), continued. -/
def fields_pump1 : List FieldSpec := [
  f1 0x080 0 32 .ro 0x0,
  f1 0x084 0 32 .ro 0x0,
  f1 0x088 0 32 .ro 0x0,
  f1 0x08C 0 32 .ro 0x0,
  f1 0x090 0 32 .ro 0x0,
  f1 0x094 0 32 .ro 0x0,
  f1 0x098 0 32 .ro 0x0,
  f1 0x09C 0 32 .ro 0x0,
  f1 0x0A0 0 32 .ro 0x0,
  f1 0x0A4 0 32 .ro 0x0,
  f1 0x0A8 0 32 .ro 0x0,
  f1 0x0AC 0 32 .ro 0x0,
  f1 0x0BC 0 12 .wo 0x0]

/-- Fields of the own page (R293, R294, R295). -/
def fields_own0 : List FieldSpec := [
  f1 0x040 0 5 .rwl 0x1,
  f1 0x040 8 8 .rwl 0x0,
  f1 0x044 0 4 .ro 0x0,
  f1 0x044 4 4 .ro 0x0,
  f1 0x050 0 1 .w1c 0x0,
  f1 0x050 1 1 .w1c 0x0,
  f1 0x050 2 4 .ro 0x0,
  f1 0x050 6 3 .ro 0x0,
  f1 0x050 9 4 .ro 0x0,
  f1 0x050 20 9 .ro 0x0,
  f1 0x054 0 24 .ro 0x0,
  f1 0x058 0 28 .ro 0x0,
  f1 0x05C 0 7 .ro 0x0,
  f1 0x05C 8 4 .ro 0x0,
  f1 0x05C 12 1 .ro 0x0,
  f1 0x060 0 32 .ro 0x0,
  f1 0x064 0 32 .ro 0x0,
  fa 0x100 0 32 .rwl 0x0 16 0xC0 1 0x4,
  fa 0x104 0 32 .rwl 0x0 16 0xC0 1 0x4,
  fa 0x108 0 4 .rwl 0x0 16 0xC0 1 0x4]

/-- Fields of the own page (R293, R294, R295), continued. -/
def fields_own1 : List FieldSpec := [
  fa 0x108 4 1 .rwl 0x0 16 0xC0 1 0x4,
  fa 0x108 5 1 .rwl 0x0 16 0xC0 1 0x4,
  fa 0x108 6 2 .rwl 0x0 16 0xC0 1 0x4,
  fa 0x110 0 4 .rwl 0x0 16 0xC0 16 0x4,
  fa 0x110 4 8 .rwl 0x0 16 0xC0 16 0x4,
  fa 0x150 0 32 .rwl 0x0 16 0xC0 16 0x4,
  f1 0x080 0 32 .ro 0x0,
  f1 0x084 0 32 .ro 0x0,
  f1 0x088 0 32 .ro 0x0,
  f1 0x08C 0 32 .ro 0x0,
  f1 0x09C 0 4 .wo 0x0]

/-- Fields of the cistern page (R318, R319). -/
def fields_cistern0 : List FieldSpec := [
  f1 0x040 0 1 .rwl 0x1,
  f1 0x040 1 1 .rw 0x0,
  f1 0x044 0 16 .ro 0x0,
  f1 0x048 0 28 .ro 0x0,
  f1 0x048 28 1 .ro 0x0,
  f1 0x048 31 1 .w1c 0x0,
  f1 0x04C 0 28 .ro 0x0,
  f1 0x04C 28 2 .ro 0x0,
  f1 0x04C 30 1 .w1c 0x0,
  f1 0x04C 31 1 .w1c 0x0,
  f1 0x080 0 32 .ro 0x0,
  f1 0x084 0 32 .ro 0x0,
  f1 0x088 0 32 .ro 0x0,
  f1 0x08C 0 32 .ro 0x0,
  f1 0x090 0 32 .ro 0x0,
  f1 0x094 0 32 .ro 0x0,
  f1 0x098 0 32 .ro 0x0,
  f1 0x09C 0 32 .ro 0x0,
  f1 0x0BC 0 8 .wo 0x0]

/-- Fields of the well page (R104, R105, R106, R107, R139, R140, R141). -/
def fields_well0 : List FieldSpec := [
  f1 0x040 0 2 .rwl 0x1,
  f1 0x040 2 2 .rwl 0x3,
  f1 0x044 0 2 .rwl 0x1,
  f1 0x044 2 2 .rwl 0x2,
  f1 0x044 4 1 .rwl 0x0,
  f1 0x048 0 11 .rwl 0x7D0,
  f1 0x048 16 1 .rwl 0x0,
  f1 0x04C 0 12 .ro 0x0,
  f1 0x050 0 1 .ro 0x0,
  f1 0x050 1 1 .ro 0x0,
  f1 0x050 2 1 .ro 0x0,
  f1 0x050 3 1 .ro 0x0,
  f1 0x050 4 1 .ro 0x0,
  f1 0x050 5 2 .ro 0x0,
  f1 0x050 7 1 .ro 0x0,
  f1 0x050 8 5 .ro 0x10,
  f1 0x054 0 32 .ro 0x0,
  f1 0x058 0 10 .ro 0x0,
  f1 0x058 16 10 .ro 0x0,
  f1 0x05C 0 10 .ro 0x0]

/-- Fields of the well page (R104, R105, R106, R107, R139, R140, R141), continued. -/
def fields_well1 : List FieldSpec := [
  f1 0x05C 15 1 .w1c 0x0,
  f1 0x05C 16 1 .w1c 0x0,
  fa 0x060 0 10 .ro 0x0 16 0x4 1 0x4,
  fa 0x060 15 1 .ro 0x0 16 0x4 1 0x4,
  f1 0x0C0 0 32 .ro 0x0,
  f1 0x0C4 0 32 .ro 0x0,
  f1 0x0C8 0 32 .ro 0x0,
  f1 0x0CC 0 32 .ro 0x0,
  f1 0x0D0 0 32 .ro 0x0,
  f1 0x0D4 0 32 .ro 0x0,
  f1 0x0D8 0 32 .ro 0x0,
  f1 0x0DC 0 32 .ro 0x0,
  f1 0x0E0 0 32 .ro 0x0,
  f1 0x0E4 0 32 .ro 0x0,
  f1 0x0E8 0 32 .ro 0x0,
  f1 0x0EC 0 32 .ro 0x0,
  f1 0x0F0 0 32 .ro 0x0,
  f1 0x200 0 1 .ro 0x0,
  f1 0x200 1 1 .ro 0x0,
  f1 0x200 2 1 .ro 0x0]

/-- Fields of the well page (R104, R105, R106, R107, R139, R140, R141), continued. -/
def fields_well2 : List FieldSpec := [
  f1 0x200 3 1 .ro 0x0,
  f1 0x200 4 1 .ro 0x0,
  f1 0x200 5 1 .w1c 0x0,
  f1 0x200 6 1 .w1c 0x0,
  f1 0x204 0 12 .ro 0x0,
  f1 0x208 0 16 .ro 0xFFFF,
  f1 0x208 16 16 .ro 0xFFFF,
  f1 0x20C 0 9 .ro 0x0,
  f1 0x20C 16 10 .ro 0x0,
  f1 0x210 0 10 .rwl 0xC0,
  f1 0x210 16 10 .rwl 0x80,
  f1 0x210 28 1 .rwl 0x0,
  f1 0x214 0 3 .ro 0x0,
  f1 0x214 4 2 .ro 0x0,
  f1 0x214 6 1 .ro 0x0,
  f1 0x214 7 1 .w1c 0x0,
  f1 0x214 8 16 .ro 0x0,
  f1 0x218 0 28 .ro 0x0,
  f1 0x21C 0 1 .ro 0x0,
  f1 0x21C 1 1 .ro 0x0]

/-- Fields of the well page (R104, R105, R106, R107, R139, R140, R141), continued. -/
def fields_well3 : List FieldSpec := [
  f1 0x21C 2 1 .ro 0x0,
  f1 0x21C 3 1 .ro 0x0,
  f1 0x220 0 10 .rw 0x0,
  f1 0x220 16 7 .rw 0x0,
  f1 0x224 0 9 .ro 0x0,
  f1 0x224 16 9 .ro 0x0,
  f1 0x240 0 32 .ro 0x0,
  f1 0x244 0 32 .ro 0x0,
  f1 0x248 0 32 .ro 0x0,
  f1 0x24C 0 32 .ro 0x0,
  f1 0x250 0 32 .ro 0x0,
  f1 0x254 0 32 .ro 0x0,
  f1 0x258 0 32 .ro 0x0,
  f1 0x25C 0 32 .ro 0x0,
  f1 0x260 0 32 .ro 0x0,
  f1 0x264 0 32 .ro 0x0,
  f1 0x268 0 32 .ro 0x0,
  f1 0x0FC 0 13 .wo 0x0,
  f1 0x27C 0 11 .wo 0x0]

/-- Fields of the qgroup page (R345). -/
def fields_qgroup0 : List FieldSpec := [
  fa 0x100 0 5 .rwl 0x4 8 0x40 1 0x4,
  fa 0x100 5 1 .rwl 0x0 8 0x40 1 0x4,
  fa 0x100 6 4 .rwl 0x4 8 0x40 1 0x4,
  fa 0x100 16 8 .rwl 0x64 8 0x40 1 0x4,
  fa 0x104 6 22 .rwl 0x0 8 0x40 1 0x4,
  fa 0x108 6 22 .rwl 0x0 8 0x40 1 0x4,
  fa 0x10C 0 16 .wo 0x0 8 0x40 1 0x4,
  fa 0x110 0 32 .ro 0x0 8 0x40 1 0x4,
  fa 0x114 0 32 .ro 0x0 8 0x40 1 0x4,
  fa 0x118 0 32 .ro 0x0 8 0x40 1 0x4,
  fa 0x11C 0 2 .ro 0x0 8 0x40 1 0x4,
  fa 0x11C 4 4 .ro 0x0 8 0x40 1 0x4,
  fa 0x11C 8 4 .ro 0x0 8 0x40 1 0x4,
  fa 0x120 0 2 .wo 0x0 8 0x40 1 0x4,
  fa 0x124 0 28 .ro 0x0 8 0x40 1 0x4,
  fa 0x124 28 4 .ro 0x0 8 0x40 1 0x4]

/-- The fields of a page of kind `k` after the common header. -/
def Kind.fields : Kind → List FieldSpec
  | .plan => fields_plan0
  | .devctl => fields_devctl0
  | .host => fields_host0
  | .crier => fields_crier0
  | .orarn => fields_orarn0
  | .power => fields_power0 ++ fields_power1
  | .gauge => fields_gauge0 ++ fields_gauge1
  | .numstep => fields_numstep0 ++ fields_numstep1
  | .fabric => fields_fabric0
  | .port => fields_port0 ++ fields_port1
  | .bell => fields_bell0 ++ fields_bell1
  | .window => fields_window0
  | .ledger => fields_ledger0
  | .watch => fields_watch0 ++ fields_watch1
  | .bucket => fields_bucket0 ++ fields_bucket1
  | .link => fields_link0 ++ fields_link1
  | .feed => fields_feed0
  | .defect => fields_defect0
  | .hamlet => []
  | .granary => fields_granary0 ++ fields_granary1
  | .croft => fields_croft0 ++ fields_croft1
  | .reeve => fields_reeve0 ++ fields_reeve1 ++ fields_reeve2
  | .mill => fields_mill0 ++ fields_mill1
  | .sluice => fields_sluice0
  | .plumb => fields_plumb0
  | .tally => fields_tally0
  | .pump => fields_pump0 ++ fields_pump1
  | .own => fields_own0 ++ fields_own1
  | .cistern => fields_cistern0
  | .well => fields_well0 ++ fields_well1 ++ fields_well2 ++ fields_well3
  | .qgroup => fields_qgroup0

/-- The fields of the register at offset `o` of a page of kind `k`. -/
def Kind.regFields (k : Kind) (o : Nat) : List FieldSpec :=
  if o < 0x40 then fields_header0.filter (fun f => f.at o) else k.fields.filter (fun f => f.at o)

/-- WEIGHT, PRESCALE and DECAY of Watch input `i` at reset, as INPUT_CFG bits (R409). -/
def watchInputReset (i : Nat) : Nat :=
  let row : Nat × Nat × Nat :=
    match i with

    | 0 => (32, 4, 4)
    | 1 => (255, 0, 4)
    | 2 => (32, 4, 4)
    | 3 => (255, 0, 4)
    | 4 => (16, 8, 4)
    | 5 => (16, 2, 4)
    | 6 => (64, 0, 4)
    | 7 => (255, 0, 4)
    | 8 => (64, 0, 4)
    | 9 => (128, 0, 0)
    | 10 => (64, 0, 0)
    | 11 => (32, 2, 4)
    | 12 => (64, 0, 4)
    | 13 => (32, 0, 4)
    | 14 => (255, 0, 4)
    | 15 => (64, 0, 4)
    | _ => (0, 0, 0)
  row.1 + row.2.2 * 0x100 + row.2.1 * 0x1000

/-- Reset value of the register at offset `o` of page `p` (R6, R539). -/
def resetWord (p : Page) (o : Nat) : Word :=
  if o = 0 then BitVec.ofNat 32 (p.kind.type * 0x10000 + p.inst % 0x10000)
  else
    let v := (p.kind.regFields o).foldl (fun v f => v + f.reset * 2 ^ f.lo) 0
    BitVec.ofNat 32
      (if p.kind = .watch ∧ 0x100 ≤ o ∧ o < 0x180 ∧ o % 8 = 0 then v + watchInputReset ((o - 0x100) / 8) else v)

/-! Field constants, named as `PAGE.REGISTER.FIELD` of the manual. -/

@[reducible] def R.croft_NUMCFG_NAN_MODE : Fld := ⟨0x100, 0, 1⟩
@[reducible] def R.croft_NUMCFG_E4M3_SAT : Fld := ⟨0x100, 1, 1⟩
@[reducible] def R.croft_NUMCFG_RNG_MODE : Fld := ⟨0x100, 2, 1⟩
@[reducible] def R.croft_ZERO_BLK_CNT : Fld := ⟨0x110, 0, 32⟩
@[reducible] def R.croft_PEEL_CNT : Fld := ⟨0x114, 0, 32⟩
@[reducible] def R.croft_SWAMP_CNT : Fld := ⟨0x118, 0, 32⟩
@[reducible] def R.croft_VANISH_CNT : Fld := ⟨0x11C, 0, 32⟩
@[reducible] def R.croft_SAT_CNT : Fld := ⟨0x120, 0, 32⟩
@[reducible] def R.croft_NAN_PROD_CNT : Fld := ⟨0x124, 0, 32⟩
@[reducible] def R.croft_NAN_IN_CNT : Fld := ⟨0x128, 0, 32⟩
@[reducible] def R.croft_TRAP_STATUS_VALID : Fld := ⟨0x140, 0, 1⟩
@[reducible] def R.croft_TRAP_STATUS_OVERRUN : Fld := ⟨0x140, 1, 1⟩
@[reducible] def R.croft_TRAP_STATUS_ENGINE : Fld := ⟨0x140, 4, 4⟩
@[reducible] def R.croft_TRAP_STATUS_CAUSE : Fld := ⟨0x140, 8, 8⟩
@[reducible] def R.croft_TRAP_STATUS_CROFT : Fld := ⟨0x140, 16, 7⟩
@[reducible] def R.croft_TRAP_ORDER_INDEX : Fld := ⟨0x144, 0, 32⟩
@[reducible] def R.croft_TRAP_TILE_ROW : Fld := ⟨0x148, 0, 16⟩
@[reducible] def R.croft_TRAP_TILE_COL : Fld := ⟨0x148, 16, 16⟩
@[reducible] def R.croft_TRAP_K_CHUNK : Fld := ⟨0x14C, 0, 24⟩
@[reducible] def R.croft_TRAP_K_POS : Fld := ⟨0x14C, 24, 7⟩
@[reducible] def R.croft_TRAP_BELL_LO : Fld := ⟨0x150, 0, 32⟩
@[reducible] def R.croft_TRAP_BELL_HI : Fld := ⟨0x154, 0, 32⟩
@[reducible] def R.croft_TRAP_FMT_A : Fld := ⟨0x158, 0, 4⟩
@[reducible] def R.croft_TRAP_FMT_B : Fld := ⟨0x158, 4, 4⟩
@[reducible] def R.croft_TRAP_FMT_RESULT : Fld := ⟨0x158, 8, 4⟩
@[reducible] def R.croft_TRAP_FMT_ROUND : Fld := ⟨0x158, 12, 2⟩
@[reducible] def R.croft_SEED_LAST : Fld := ⟨0x160, 0, 32⟩
@[reducible] def R.well_LOADCFG_VTOL : Fld := ⟨0x040, 0, 2⟩
@[reducible] def R.well_LOADCFG_MAX_PASS : Fld := ⟨0x040, 2, 2⟩
@[reducible] def R.well_DRAWCFG_SLICES : Fld := ⟨0x044, 0, 2⟩
@[reducible] def R.well_DRAWCFG_AVG : Fld := ⟨0x044, 2, 2⟩
@[reducible] def R.well_DRAWCFG_QUARTER : Fld := ⟨0x044, 4, 1⟩
@[reducible] def R.well_RETCFG_LIMIT : Fld := ⟨0x048, 0, 11⟩
@[reducible] def R.well_RETCFG_STALE_ACT : Fld := ⟨0x048, 16, 1⟩
@[reducible] def R.well_RET_TIME_TIME : Fld := ⟨0x04C, 0, 12⟩
@[reducible] def R.well_STATUS_LOADED : Fld := ⟨0x050, 0, 1⟩
@[reducible] def R.well_STATUS_LOADING : Fld := ⟨0x050, 1, 1⟩
@[reducible] def R.well_STATUS_DRAWING : Fld := ⟨0x050, 2, 1⟩
@[reducible] def R.well_STATUS_STALE : Fld := ⟨0x050, 3, 1⟩
@[reducible] def R.well_STATUS_SUSPECT : Fld := ⟨0x050, 4, 1⟩
@[reducible] def R.well_STATUS_LAST_PASSES : Fld := ⟨0x050, 5, 2⟩
@[reducible] def R.well_STATUS_RESID_FULL : Fld := ⟨0x050, 7, 1⟩
@[reducible] def R.well_STATUS_SPARES_FREE : Fld := ⟨0x050, 8, 5⟩
@[reducible] def R.well_SCALE_FP_FP : Fld := ⟨0x054, 0, 32⟩
@[reducible] def R.well_RESID_IMAGE : Fld := ⟨0x058, 0, 10⟩
@[reducible] def R.well_RESID_TOTAL : Fld := ⟨0x058, 16, 10⟩
@[reducible] def R.well_FAIL_LOG_COL : Fld := ⟨0x05C, 0, 10⟩
@[reducible] def R.well_FAIL_LOG_VALID : Fld := ⟨0x05C, 15, 1⟩
@[reducible] def R.well_FAIL_LOG_NO_SPARE : Fld := ⟨0x05C, 16, 1⟩
@[reducible] def R.well_SPARE_MAP_LOGICAL : Fld := ⟨0x060, 0, 10⟩
@[reducible] def R.well_SPARE_MAP_VALID : Fld := ⟨0x060, 15, 1⟩
@[reducible] def R.well_LOAD_CNT : Fld := ⟨0x0C0, 0, 32⟩
@[reducible] def R.well_PASS2_CNT : Fld := ⟨0x0C4, 0, 32⟩
@[reducible] def R.well_PASS3_CNT : Fld := ⟨0x0C8, 0, 32⟩
@[reducible] def R.well_FCELL_CNT : Fld := ⟨0x0CC, 0, 32⟩
@[reducible] def R.well_COLFAIL_CNT : Fld := ⟨0x0D0, 0, 32⟩
@[reducible] def R.well_DRAW_CNT : Fld := ⟨0x0D4, 0, 32⟩
@[reducible] def R.well_QUARTER_CNT : Fld := ⟨0x0D8, 0, 32⟩
@[reducible] def R.well_QSAT_CNT : Fld := ⟨0x0DC, 0, 32⟩
@[reducible] def R.well_EDGE_LOSS_CNT : Fld := ⟨0x0E0, 0, 32⟩
@[reducible] def R.well_STALE_CNT : Fld := ⟨0x0E4, 0, 32⟩
@[reducible] def R.well_LEAT_OVF_CNT : Fld := ⟨0x0E8, 0, 32⟩
@[reducible] def R.well_NONFIN_CNT : Fld := ⟨0x0EC, 0, 32⟩
@[reducible] def R.well_ZERO_IN_CNT : Fld := ⟨0x0F0, 0, 32⟩
@[reducible] def R.well_CAL_STATUS_CALIBRATED : Fld := ⟨0x200, 0, 1⟩
@[reducible] def R.well_CAL_STATUS_WINDOW : Fld := ⟨0x200, 1, 1⟩
@[reducible] def R.well_CAL_STATUS_SOUNDING : Fld := ⟨0x200, 2, 1⟩
@[reducible] def R.well_CAL_STATUS_DUE : Fld := ⟨0x200, 3, 1⟩
@[reducible] def R.well_CAL_STATUS_OVERDUE : Fld := ⟨0x200, 4, 1⟩
@[reducible] def R.well_CAL_STATUS_TRIM_LIMIT : Fld := ⟨0x200, 5, 1⟩
@[reducible] def R.well_CAL_STATUS_SOUND_FAIL : Fld := ⟨0x200, 6, 1⟩
@[reducible] def R.well_CAL_TEMP_T_CAL : Fld := ⟨0x204, 0, 12⟩
@[reducible] def R.well_CAL_AGE_WINDOW : Fld := ⟨0x208, 0, 16⟩
@[reducible] def R.well_CAL_AGE_SOUND : Fld := ⟨0x208, 16, 16⟩
@[reducible] def R.well_CAL_DRIFT_MAX_SHIFT : Fld := ⟨0x20C, 0, 9⟩
@[reducible] def R.well_CAL_DRIFT_COL : Fld := ⟨0x20C, 16, 10⟩
@[reducible] def R.well_CONFCFG_TOL_Q : Fld := ⟨0x210, 0, 10⟩
@[reducible] def R.well_CONFCFG_TOL_R : Fld := ⟨0x210, 16, 10⟩
@[reducible] def R.well_CONFCFG_SUSPECT_ACT : Fld := ⟨0x210, 28, 1⟩
@[reducible] def R.well_CONF_LAST_CHECK : Fld := ⟨0x214, 0, 3⟩
@[reducible] def R.well_CONF_LAST_SLICE : Fld := ⟨0x214, 4, 2⟩
@[reducible] def R.well_CONF_LAST_AFTER_REPEAT : Fld := ⟨0x214, 6, 1⟩
@[reducible] def R.well_CONF_LAST_VALID : Fld := ⟨0x214, 7, 1⟩
@[reducible] def R.well_CONF_LAST_DEV : Fld := ⟨0x214, 8, 16⟩
@[reducible] def R.well_IMG_ADDR_OFFSET : Fld := ⟨0x218, 0, 28⟩
@[reducible] def R.well_SUSPECT_CAUSE_RESID_FULL : Fld := ⟨0x21C, 0, 1⟩
@[reducible] def R.well_SUSPECT_CAUSE_CONF : Fld := ⟨0x21C, 1, 1⟩
@[reducible] def R.well_SUSPECT_CAUSE_TRIM : Fld := ⟨0x21C, 2, 1⟩
@[reducible] def R.well_SUSPECT_CAUSE_SOUND : Fld := ⟨0x21C, 3, 1⟩
@[reducible] def R.well_TRIM_SEL_COL : Fld := ⟨0x220, 0, 10⟩
@[reducible] def R.well_TRIM_SEL_TAP : Fld := ⟨0x220, 16, 7⟩
@[reducible] def R.well_TRIM_DATA_TRIM : Fld := ⟨0x224, 0, 9⟩
@[reducible] def R.well_TRIM_DATA_FACTORY : Fld := ⟨0x224, 16, 9⟩
@[reducible] def R.well_CONF_FAIL_CNT : Fld := ⟨0x240, 0, 32⟩
@[reducible] def R.well_REPEAT_CNT : Fld := ⟨0x244, 0, 32⟩
@[reducible] def R.well_ESC_CONF_CNT : Fld := ⟨0x248, 0, 32⟩
@[reducible] def R.well_ESC_CNT : Fld := ⟨0x24C, 0, 32⟩
@[reducible] def R.well_HELD_CNT : Fld := ⟨0x250, 0, 32⟩
@[reducible] def R.well_WINDOW_CNT : Fld := ⟨0x254, 0, 32⟩
@[reducible] def R.well_SOUND_CNT : Fld := ⟨0x258, 0, 32⟩
@[reducible] def R.well_DIP_CNT : Fld := ⟨0x25C, 0, 32⟩
@[reducible] def R.well_SUSPECT_CNT : Fld := ⟨0x260, 0, 32⟩
@[reducible] def R.well_OVERDUE_CNT : Fld := ⟨0x264, 0, 32⟩
@[reducible] def R.well_ESC_HOLD_CNT : Fld := ⟨0x268, 0, 32⟩
@[reducible] def R.plumb_PLUMBCFG_AUTO : Fld := ⟨0x040, 0, 1⟩
@[reducible] def R.plumb_PLUMBCFG_CAL_DT : Fld := ⟨0x040, 1, 7⟩
@[reducible] def R.plumb_PLUMBCFG_CAL_INTERVAL : Fld := ⟨0x040, 8, 8⟩
@[reducible] def R.plumb_PLUMBCFG_SOUND_INTERVAL : Fld := ⟨0x040, 16, 8⟩
@[reducible] def R.plumb_PLUMBCFG_ESC_PUMP : Fld := ⟨0x040, 24, 2⟩
@[reducible] def R.plumb_OVERDUECFG_OVERDUE_DT : Fld := ⟨0x044, 0, 8⟩
@[reducible] def R.plumb_OVERDUECFG_OVERDUE_TIME : Fld := ⟨0x044, 8, 8⟩
@[reducible] def R.plumb_STATUS_CUR_WELL : Fld := ⟨0x048, 0, 4⟩
@[reducible] def R.plumb_STATUS_BUSY_WINDOW : Fld := ⟨0x048, 4, 1⟩
@[reducible] def R.plumb_STATUS_BUSY_SOUND : Fld := ⟨0x048, 5, 1⟩
@[reducible] def R.plumb_STATUS_TEMP_STALE : Fld := ⟨0x048, 6, 1⟩
@[reducible] def R.plumb_STATUS_DUE_MASK : Fld := ⟨0x048, 8, 16⟩
@[reducible] def R.plumb_TEMP_TJ : Fld := ⟨0x04C, 0, 12⟩
@[reducible] def R.plumb_ABORT_CNT : Fld := ⟨0x080, 0, 32⟩
@[reducible] def R.plumb_TEMP_STALE_CNT : Fld := ⟨0x084, 0, 32⟩
@[reducible] def R.plumb_AUTO_CNT : Fld := ⟨0x088, 0, 32⟩
@[reducible] def R.pump_PUMPCFG_SUM_ORDER : Fld := ⟨0x040, 0, 1⟩
@[reducible] def R.pump_PUMPCFG_OVF_POLICY : Fld := ⟨0x040, 1, 1⟩
@[reducible] def R.pump_STATUS_BUSY : Fld := ⟨0x044, 0, 1⟩
@[reducible] def R.pump_STATUS_FUSED : Fld := ⟨0x044, 1, 1⟩
@[reducible] def R.pump_STATUS_ESCALATING : Fld := ⟨0x044, 2, 1⟩
@[reducible] def R.pump_STATUS_RETRYING : Fld := ⟨0x044, 3, 1⟩
@[reducible] def R.pump_STATUS_HELD : Fld := ⟨0x044, 4, 1⟩
@[reducible] def R.pump_STATUS_SHAPE : Fld := ⟨0x044, 5, 3⟩
@[reducible] def R.pump_STATUS_HERITAGE : Fld := ⟨0x044, 8, 1⟩
@[reducible] def R.pump_ORDER_IDX_INDEX : Fld := ⟨0x048, 0, 32⟩
@[reducible] def R.pump_TILE_POS_ROW : Fld := ⟨0x04C, 0, 16⟩
@[reducible] def R.pump_TILE_POS_COL : Fld := ⟨0x04C, 16, 16⟩
@[reducible] def R.pump_LAST_DONE_RETRIED : Fld := ⟨0x050, 0, 1⟩
@[reducible] def R.pump_LAST_DONE_RETRY_FAIL : Fld := ⟨0x050, 1, 1⟩
@[reducible] def R.pump_LAST_DONE_OVF : Fld := ⟨0x050, 2, 1⟩
@[reducible] def R.pump_LAST_DONE_INVALID_BLK : Fld := ⟨0x050, 3, 1⟩
@[reducible] def R.pump_LAST_DONE_INF_OUT : Fld := ⟨0x050, 4, 1⟩
@[reducible] def R.pump_LAST_DONE_ESC_SERVED : Fld := ⟨0x050, 5, 1⟩
@[reducible] def R.pump_ESC_LAST_WELL : Fld := ⟨0x054, 0, 11⟩
@[reducible] def R.pump_ESC_LAST_CYCLES : Fld := ⟨0x054, 16, 16⟩
@[reducible] def R.pump_TILE_CNT : Fld := ⟨0x080, 0, 32⟩
@[reducible] def R.pump_CHUNK_CNT : Fld := ⟨0x084, 0, 32⟩
@[reducible] def R.pump_RETRY_CNT : Fld := ⟨0x088, 0, 32⟩
@[reducible] def R.pump_RETRY_FAIL_CNT : Fld := ⟨0x08C, 0, 32⟩
@[reducible] def R.pump_OVF_CNT : Fld := ⟨0x090, 0, 32⟩
@[reducible] def R.pump_INVALID_BLK_CNT : Fld := ⟨0x094, 0, 32⟩
@[reducible] def R.pump_INF_OUT_CNT : Fld := ⟨0x098, 0, 32⟩
@[reducible] def R.pump_PEEL_TERM_CNT : Fld := ⟨0x09C, 0, 32⟩
@[reducible] def R.pump_ESC_PART_CNT : Fld := ⟨0x0A0, 0, 32⟩
@[reducible] def R.pump_TRANS_TILE_CNT : Fld := ⟨0x0A4, 0, 32⟩
@[reducible] def R.pump_FUSED_TILE_CNT : Fld := ⟨0x0A8, 0, 32⟩
@[reducible] def R.pump_HERITAGE_TILE_CNT : Fld := ⟨0x0AC, 0, 32⟩
@[reducible] def R.mill_MILLCFG_OVF_POLICY : Fld := ⟨0x040, 0, 1⟩
@[reducible] def R.mill_MILLCFG_LEAT : Fld := ⟨0x040, 1, 1⟩
@[reducible] def R.mill_STATUS_BUSY : Fld := ⟨0x044, 0, 1⟩
@[reducible] def R.mill_STATUS_EPILOGUE : Fld := ⟨0x044, 1, 1⟩
@[reducible] def R.mill_STATUS_EPI_PUMP : Fld := ⟨0x044, 2, 2⟩
@[reducible] def R.mill_STATUS_RETRYING : Fld := ⟨0x044, 4, 1⟩
@[reducible] def R.mill_STATUS_HERITAGE : Fld := ⟨0x044, 5, 1⟩
@[reducible] def R.mill_STATUS_OP : Fld := ⟨0x044, 6, 8⟩
@[reducible] def R.mill_ORDER_IDX_INDEX : Fld := ⟨0x048, 0, 32⟩
@[reducible] def R.mill_LEAT_STATUS_QUEUED : Fld := ⟨0x04C, 0, 3⟩
@[reducible] def R.mill_LEAT_STATUS_HOLDING : Fld := ⟨0x04C, 3, 1⟩
@[reducible] def R.mill_ORDER_CNT : Fld := ⟨0x080, 0, 32⟩
@[reducible] def R.mill_EPI_TILE_CNT : Fld := ⟨0x084, 0, 32⟩
@[reducible] def R.mill_RETRY_CNT : Fld := ⟨0x088, 0, 32⟩
@[reducible] def R.mill_RETRY_FAIL_CNT : Fld := ⟨0x08C, 0, 32⟩
@[reducible] def R.mill_OVF_CNT : Fld := ⟨0x090, 0, 32⟩
@[reducible] def R.mill_LEAT_REC_CNT : Fld := ⟨0x094, 0, 32⟩
@[reducible] def R.mill_LEAT_TERM_CNT : Fld := ⟨0x098, 0, 32⟩
@[reducible] def R.mill_LEAT_HOLD_CNT : Fld := ⟨0x09C, 0, 32⟩
@[reducible] def R.mill_LEAT_DROP_CNT : Fld := ⟨0x0A0, 0, 32⟩
@[reducible] def R.mill_SPLIT_STEP_CNT : Fld := ⟨0x0A4, 0, 32⟩
@[reducible] def R.mill_MASTER_SAT_CNT : Fld := ⟨0x0A8, 0, 32⟩
@[reducible] def R.mill_TOPK_NAN_CNT : Fld := ⟨0x0AC, 0, 32⟩
@[reducible] def R.mill_TALLY_NONFIN_CNT : Fld := ⟨0x0B0, 0, 32⟩
@[reducible] def R.numstep_CFG_HERITAGE : Fld := ⟨0x040, 0, 1⟩
@[reducible] def R.numstep_CFG_FALLBACK_LIMIT : Fld := ⟨0x040, 8, 8⟩
@[reducible] def R.numstep_CFG_DIV_LIMIT : Fld := ⟨0x040, 16, 5⟩
@[reducible] def R.numstep_JUMPCFG_J_W : Fld := ⟨0x044, 0, 5⟩
@[reducible] def R.numstep_JUMPCFG_J_G : Fld := ⟨0x044, 5, 5⟩
@[reducible] def R.numstep_JUMPCFG_J_U : Fld := ⟨0x044, 10, 5⟩
@[reducible] def R.numstep_JUMPCFG_J_A : Fld := ⟨0x044, 15, 5⟩
@[reducible] def R.numstep_JUMPCFG_EWMA : Fld := ⟨0x044, 20, 3⟩
@[reducible] def R.numstep_JUMPCFG_WARMUP : Fld := ⟨0x044, 24, 8⟩
@[reducible] def R.numstep_STATUS_FALLBACKS : Fld := ⟨0x048, 0, 10⟩
@[reducible] def R.numstep_STATUS_REPEATING : Fld := ⟨0x048, 10, 1⟩
@[reducible] def R.numstep_STATUS_HALTED : Fld := ⟨0x048, 11, 1⟩
@[reducible] def R.numstep_STATUS_ABANDONING : Fld := ⟨0x048, 12, 1⟩
@[reducible] def R.numstep_STEP_INDEX : Fld := ⟨0x04C, 0, 32⟩
@[reducible] def R.numstep_FALLBACK_LOG_LAYER : Fld := ⟨0x050, 0, 10⟩
@[reducible] def R.numstep_FALLBACK_LOG_KIND : Fld := ⟨0x050, 10, 2⟩
@[reducible] def R.numstep_FALLBACK_LOG_CROFT : Fld := ⟨0x050, 16, 7⟩
@[reducible] def R.numstep_FALLBACK_LOG_VALID : Fld := ⟨0x050, 31, 1⟩
@[reducible] def R.numstep_JUMP_LOG_ENTRY : Fld := ⟨0x054, 0, 10⟩
@[reducible] def R.numstep_JUMP_LOG_KIND : Fld := ⟨0x054, 10, 2⟩
@[reducible] def R.numstep_JUMP_LOG_VALID : Fld := ⟨0x054, 31, 1⟩
@[reducible] def R.numstep_JUMP_NORM_N : Fld := ⟨0x058, 0, 32⟩
@[reducible] def R.numstep_JUMP_REF_REF : Fld := ⟨0x05C, 0, 32⟩
@[reducible] def R.numstep_ENTRY_SEL_ENTRY : Fld := ⟨0x060, 0, 10⟩
@[reducible] def R.numstep_ENTRY_CFG_KIND : Fld := ⟨0x064, 0, 2⟩
@[reducible] def R.numstep_ENTRY_CFG_EN : Fld := ⟨0x064, 2, 1⟩
@[reducible] def R.numstep_ENTRY_NORM_N : Fld := ⟨0x068, 0, 32⟩
@[reducible] def R.numstep_ENTRY_REF_REF : Fld := ⟨0x06C, 0, 32⟩
@[reducible] def R.numstep_GROUP_STATUS_PENDING : Fld := ⟨0x070, 0, 16⟩
@[reducible] def R.numstep_GROUP_STATUS_FAIL : Fld := ⟨0x070, 16, 16⟩
@[reducible] def R.numstep_RECLIST_LO_ADDR_LO : Fld := ⟨0x074, 0, 32⟩
@[reducible] def R.numstep_RECLIST_HI_ADDR_HI : Fld := ⟨0x078, 0, 16⟩
@[reducible] def R.numstep_RECLIST_LEN_LEN : Fld := ⟨0x07C, 0, 17⟩
@[reducible] def R.numstep_FALLBACK_CNT : Fld := ⟨0x080, 0, 32⟩
@[reducible] def R.numstep_LREPEAT_CNT : Fld := ⟨0x084, 0, 32⟩
@[reducible] def R.numstep_RECOMP_CNT : Fld := ⟨0x088, 0, 32⟩
@[reducible] def R.numstep_ABANDON_CNT : Fld := ⟨0x08C, 0, 32⟩
@[reducible] def R.numstep_JUMP_CNT : Fld := ⟨0x090, 0, 32⟩
@[reducible] def R.numstep_HEADROOM_SAT_CNT : Fld := ⟨0x094, 0, 32⟩
@[reducible] def R.tally_SLOT_SEL_SLOT : Fld := ⟨0x040, 0, 8⟩
@[reducible] def R.tally_SLOT_S_S : Fld := ⟨0x044, 0, 32⟩
@[reducible] def R.tally_SLOT_E_E : Fld := ⟨0x048, 0, 32⟩
@[reducible] def R.tally_SLOT_NF_NF : Fld := ⟨0x04C, 0, 32⟩
@[reducible] def R.tally_CMP_LAST_VALID : Fld := ⟨0x050, 0, 1⟩
@[reducible] def R.tally_CMP_LAST_FAIL : Fld := ⟨0x050, 1, 1⟩
@[reducible] def R.tally_CMP_LAST_GROUP : Fld := ⟨0x050, 2, 4⟩
@[reducible] def R.tally_CMP_LAST_LAYER : Fld := ⟨0x050, 16, 10⟩
@[reducible] def R.tally_CMP_RATIO_RATIO : Fld := ⟨0x054, 0, 32⟩
@[reducible] def R.tally_FLUSH_CNT : Fld := ⟨0x080, 0, 32⟩
@[reducible] def R.tally_CMP_CNT : Fld := ⟨0x084, 0, 32⟩
@[reducible] def R.tally_CMP_FAIL_CNT : Fld := ⟨0x088, 0, 32⟩
@[reducible] def R.tally_CNT_CLEAR : Fld := ⟨0x09C, 0, 3⟩
@[reducible] def R.reeve_STREAM_BASE_BASE : Fld := ⟨0x040, 12, 16⟩
@[reducible] def R.reeve_STREAM_CFG_LEN : Fld := ⟨0x044, 0, 16⟩
@[reducible] def R.reeve_STREAM_CFG_ID : Fld := ⟨0x044, 16, 16⟩
@[reducible] def R.reeve_ENTRY_INDEX : Fld := ⟨0x048, 0, 24⟩
@[reducible] def R.reeve_WDOG_LIMIT : Fld := ⟨0x04C, 0, 10⟩
@[reducible] def R.reeve_STATUS_RUNNING : Fld := ⟨0x050, 0, 1⟩
@[reducible] def R.reeve_STATUS_HALTED : Fld := ⟨0x050, 1, 1⟩
@[reducible] def R.reeve_STATUS_HALT_REASON : Fld := ⟨0x050, 2, 3⟩
@[reducible] def R.reeve_STATUS_MORE : Fld := ⟨0x050, 5, 1⟩
@[reducible] def R.reeve_STATUS_SPAN_OPEN : Fld := ⟨0x050, 6, 1⟩
@[reducible] def R.reeve_STATUS_WIDE : Fld := ⟨0x050, 7, 1⟩
@[reducible] def R.reeve_STATUS_LOOP_ACTIVE : Fld := ⟨0x050, 8, 4⟩
@[reducible] def R.reeve_STATUS_PENDING : Fld := ⟨0x050, 12, 5⟩
@[reducible] def R.reeve_STATUS_WAIT_ON : Fld := ⟨0x050, 17, 7⟩
@[reducible] def R.reeve_STATUS_WAIT_KIND : Fld := ⟨0x050, 24, 3⟩
@[reducible] def R.reeve_STATUS_TOKEN_OVF : Fld := ⟨0x050, 27, 1⟩
@[reducible] def R.reeve_PC_INDEX : Fld := ⟨0x054, 0, 24⟩
@[reducible] def R.reeve_CMD_INDEX : Fld := ⟨0x058, 0, 24⟩
@[reducible] def R.reeve_CMD_OP : Fld := ⟨0x058, 28, 2⟩
@[reducible] def R.reeve_HALT_INFO_CODE : Fld := ⟨0x05C, 0, 16⟩
@[reducible] def R.reeve_FAULT_IDX_INDEX : Fld := ⟨0x060, 0, 24⟩
@[reducible] def R.reeve_FAULT_IDX_ENGINE : Fld := ⟨0x060, 24, 4⟩
@[reducible] def R.reeve_SPAN_OPEN_IDX : Fld := ⟨0x064, 0, 24⟩
@[reducible] def R.reeve_STEP_BELL_LO : Fld := ⟨0x068, 0, 32⟩
@[reducible] def R.reeve_STEP_BELL_HI : Fld := ⟨0x06C, 0, 32⟩
@[reducible] def R.reeve_TOKEN_SEL_TOKEN : Fld := ⟨0x070, 0, 8⟩
@[reducible] def R.reeve_TOKEN_VAL_COUNT : Fld := ⟨0x074, 0, 16⟩
@[reducible] def R.reeve_LOOP_SEL_LEVEL : Fld := ⟨0x078, 0, 2⟩
@[reducible] def R.reeve_LOOP_VAL_COUNT : Fld := ⟨0x07C, 0, 24⟩
@[reducible] def R.reeve_LOOP_VAL_ACTIVE : Fld := ⟨0x07C, 24, 1⟩
@[reducible] def R.reeve_ISSUE_CNT : Fld := ⟨0x080, 0, 32⟩
@[reducible] def R.reeve_QFULL_CNT : Fld := ⟨0x084, 0, 32⟩
@[reducible] def R.reeve_TOKEN_WAIT_CNT : Fld := ⟨0x088, 0, 32⟩
@[reducible] def R.reeve_SIGNAL_CNT : Fld := ⟨0x08C, 0, 32⟩
@[reducible] def R.reeve_SIGNAL_ABS_CNT : Fld := ⟨0x090, 0, 32⟩
@[reducible] def R.reeve_TOKEN_OVF_CNT : Fld := ⟨0x094, 0, 32⟩
@[reducible] def R.reeve_BELL_LATE_CNT : Fld := ⟨0x098, 0, 32⟩
@[reducible] def R.reeve_CHUNK_CNT : Fld := ⟨0x09C, 0, 32⟩
@[reducible] def R.reeve_REFETCH_CNT : Fld := ⟨0x0A0, 0, 32⟩
@[reducible] def R.reeve_SKIP_CNT : Fld := ⟨0x0A4, 0, 32⟩
@[reducible] def R.reeve_STEP_CNT : Fld := ⟨0x0A8, 0, 32⟩
@[reducible] def R.croft_CLK_MULT : Fld := ⟨0x180, 0, 7⟩
@[reducible] def R.croft_CLK_CUR : Fld := ⟨0x180, 8, 7⟩
@[reducible] def R.croft_CLK_RELOCK : Fld := ⟨0x180, 15, 1⟩
@[reducible] def R.own_CFG_NPHASE : Fld := ⟨0x040, 0, 5⟩
@[reducible] def R.own_CFG_PHASE_TOKEN : Fld := ⟨0x040, 8, 8⟩
@[reducible] def R.own_STATUS_PHASE : Fld := ⟨0x044, 0, 4⟩
@[reducible] def R.own_STATUS_SPAN_PHASE : Fld := ⟨0x044, 4, 4⟩
@[reducible] def R.own_COLL_STATUS_VALID : Fld := ⟨0x050, 0, 1⟩
@[reducible] def R.own_COLL_STATUS_OVERRUN : Fld := ⟨0x050, 1, 1⟩
@[reducible] def R.own_COLL_STATUS_SOURCE : Fld := ⟨0x050, 2, 4⟩
@[reducible] def R.own_COLL_STATUS_CLASS : Fld := ⟨0x050, 6, 3⟩
@[reducible] def R.own_COLL_STATUS_PHASE : Fld := ⟨0x050, 9, 4⟩
@[reducible] def R.own_COLL_STATUS_INDEX : Fld := ⟨0x050, 20, 9⟩
@[reducible] def R.own_COLL_ORDER_INDEX : Fld := ⟨0x054, 0, 24⟩
@[reducible] def R.own_COLL_ADDR_OFFSET : Fld := ⟨0x058, 0, 28⟩
@[reducible] def R.own_COLL_SRC_CROFT : Fld := ⟨0x05C, 0, 7⟩
@[reducible] def R.own_COLL_SRC_VILLAGE_IDX : Fld := ⟨0x05C, 8, 4⟩
@[reducible] def R.own_COLL_SRC_OUTSIDE : Fld := ⟨0x05C, 12, 1⟩
@[reducible] def R.own_COLL_BELL_LO : Fld := ⟨0x060, 0, 32⟩
@[reducible] def R.own_COLL_BELL_HI : Fld := ⟨0x064, 0, 32⟩
@[reducible] def R.own_WELL_USE0 : Fld := ⟨0x100, 0, 32⟩
@[reducible] def R.own_WELL_USE1 : Fld := ⟨0x104, 0, 32⟩
@[reducible] def R.own_ENGINE_PUMP : Fld := ⟨0x108, 0, 4⟩
@[reducible] def R.own_ENGINE_MILL : Fld := ⟨0x108, 4, 1⟩
@[reducible] def R.own_ENGINE_EPI_EN : Fld := ⟨0x108, 5, 1⟩
@[reducible] def R.own_ENGINE_EPI_PUMP : Fld := ⟨0x108, 6, 2⟩
@[reducible] def R.own_BANK_WRITER : Fld := ⟨0x110, 0, 4⟩
@[reducible] def R.own_BANK_READ : Fld := ⟨0x110, 4, 8⟩
@[reducible] def R.own_QOWN : Fld := ⟨0x150, 0, 32⟩
@[reducible] def R.own_COLL_CNT : Fld := ⟨0x080, 0, 32⟩
@[reducible] def R.own_PHASE_ADV_CNT : Fld := ⟨0x084, 0, 32⟩
@[reducible] def R.own_HOST_COLL_CNT : Fld := ⟨0x088, 0, 32⟩
@[reducible] def R.own_IN_COLL_CNT : Fld := ⟨0x08C, 0, 32⟩
@[reducible] def R.fabric_HDR_LOG_INDEX : Fld := ⟨0x050, 0, 9⟩
@[reducible] def R.fabric_HDR_LOG_LINK : Fld := ⟨0x050, 9, 1⟩
@[reducible] def R.fabric_HDR_LOG_CROFT : Fld := ⟨0x050, 10, 7⟩
@[reducible] def R.fabric_HDR_LOG_VALID : Fld := ⟨0x050, 31, 1⟩
@[reducible] def R.fabric_HDR_COLL_CNT : Fld := ⟨0x080, 0, 32⟩
@[reducible] def R.fabric_CNT_CLEAR : Fld := ⟨0x09C, 0, 1⟩
@[reducible] def R.cistern_CFG_SCRUB_EN : Fld := ⟨0x040, 0, 1⟩
@[reducible] def R.cistern_CFG_CE_IRQ : Fld := ⟨0x040, 1, 1⟩
@[reducible] def R.cistern_STATUS_SCRUB_STRIPE : Fld := ⟨0x044, 0, 16⟩
@[reducible] def R.cistern_CE_LOG_OFFSET : Fld := ⟨0x048, 0, 28⟩
@[reducible] def R.cistern_CE_LOG_KIND : Fld := ⟨0x048, 28, 1⟩
@[reducible] def R.cistern_CE_LOG_VALID : Fld := ⟨0x048, 31, 1⟩
@[reducible] def R.cistern_UE_LOG_OFFSET : Fld := ⟨0x04C, 0, 28⟩
@[reducible] def R.cistern_UE_LOG_SOURCE : Fld := ⟨0x04C, 28, 2⟩
@[reducible] def R.cistern_UE_LOG_OVERRUN : Fld := ⟨0x04C, 30, 1⟩
@[reducible] def R.cistern_UE_LOG_VALID : Fld := ⟨0x04C, 31, 1⟩
@[reducible] def R.cistern_CE_CNT : Fld := ⟨0x080, 0, 32⟩
@[reducible] def R.cistern_RECON_CNT : Fld := ⟨0x084, 0, 32⟩
@[reducible] def R.cistern_UE_CNT : Fld := ⟨0x088, 0, 32⟩
@[reducible] def R.cistern_PARITY_CNT : Fld := ⟨0x08C, 0, 32⟩
@[reducible] def R.cistern_MISMATCH_CNT : Fld := ⟨0x090, 0, 32⟩
@[reducible] def R.cistern_SCRUB_PASS_CNT : Fld := ⟨0x094, 0, 32⟩
@[reducible] def R.cistern_SUBWORD_UE_CNT : Fld := ⟨0x098, 0, 32⟩
@[reducible] def R.cistern_WW_CNT : Fld := ⟨0x09C, 0, 32⟩
@[reducible] def R.granary_CFG_RATE : Fld := ⟨0x040, 0, 1⟩
@[reducible] def R.granary_CFG_SCRUB_EN : Fld := ⟨0x040, 1, 1⟩
@[reducible] def R.granary_CFG_RS_MODE : Fld := ⟨0x040, 2, 2⟩
@[reducible] def R.granary_THERM_HOT_LIMIT : Fld := ⟨0x044, 0, 8⟩
@[reducible] def R.granary_THERM_TEMP : Fld := ⟨0x044, 16, 8⟩
@[reducible] def R.granary_STATUS_TRAINED : Fld := ⟨0x048, 0, 1⟩
@[reducible] def R.granary_STATUS_SELF_REFRESH : Fld := ⟨0x048, 1, 1⟩
@[reducible] def R.granary_STATUS_REFRESH_2X : Fld := ⟨0x048, 2, 1⟩
@[reducible] def R.granary_STATUS_HOT : Fld := ⟨0x048, 3, 1⟩
@[reducible] def R.granary_SCRUB_CFG_PERIOD : Fld := ⟨0x04C, 0, 16⟩
@[reducible] def R.granary_CE_LOG_LO_ADDR : Fld := ⟨0x050, 6, 26⟩
@[reducible] def R.granary_CE_LOG_HI_ADDR : Fld := ⟨0x054, 0, 4⟩
@[reducible] def R.granary_CE_LOG_HI_SYMBOLS : Fld := ⟨0x054, 4, 3⟩
@[reducible] def R.granary_CE_LOG_HI_VALID : Fld := ⟨0x054, 31, 1⟩
@[reducible] def R.granary_UE_LOG_LO_ADDR : Fld := ⟨0x058, 6, 26⟩
@[reducible] def R.granary_UE_LOG_HI_ADDR : Fld := ⟨0x05C, 0, 4⟩
@[reducible] def R.granary_UE_LOG_HI_SOURCE : Fld := ⟨0x05C, 4, 2⟩
@[reducible] def R.granary_UE_LOG_HI_OVERRUN : Fld := ⟨0x05C, 30, 1⟩
@[reducible] def R.granary_UE_LOG_HI_VALID : Fld := ⟨0x05C, 31, 1⟩
@[reducible] def R.granary_SHARE_KIND : Fld := ⟨0x100, 0, 3⟩
@[reducible] def R.granary_SHARE_CROFT : Fld := ⟨0x100, 3, 4⟩
@[reducible] def R.granary_SHARE15_KIND : Fld := ⟨0x13C, 0, 3⟩
@[reducible] def R.granary_CE_CNT : Fld := ⟨0x080, 0, 32⟩
@[reducible] def R.granary_CE2_CNT : Fld := ⟨0x084, 0, 32⟩
@[reducible] def R.granary_UE_CNT : Fld := ⟨0x088, 0, 32⟩
@[reducible] def R.granary_ODECC_CNT : Fld := ⟨0x08C, 0, 32⟩
@[reducible] def R.granary_RFM_CNT : Fld := ⟨0x090, 0, 32⟩
@[reducible] def R.granary_SCRUB_PASS_CNT : Fld := ⟨0x094, 0, 32⟩
@[reducible] def R.granary_RMW_UE_CNT : Fld := ⟨0x098, 0, 32⟩
@[reducible] def R.granary_BEAT_RETRY_CNT : Fld := ⟨0x09C, 0, 32⟩
@[reducible] def R.sluice_STATUS_ACTIVE : Fld := ⟨0x050, 0, 8⟩
@[reducible] def R.sluice_STATUS_STOPPED : Fld := ⟨0x050, 8, 8⟩
@[reducible] def R.sluice_XFER_CNT : Fld := ⟨0x080, 0, 32⟩
@[reducible] def R.sluice_SEG_CNT : Fld := ⟨0x084, 0, 32⟩
@[reducible] def R.sluice_IN_SEG_CNT : Fld := ⟨0x088, 0, 32⟩
@[reducible] def R.sluice_ERR_CNT : Fld := ⟨0x08C, 0, 32⟩
@[reducible] def R.sluice_TIMEOUT_CNT : Fld := ⟨0x090, 0, 32⟩
@[reducible] def R.sluice_STALE_CNT : Fld := ⟨0x094, 0, 32⟩
@[reducible] def R.sluice_ABS_CNT : Fld := ⟨0x098, 0, 32⟩
@[reducible] def R.sluice_DESC_ERR_CNT : Fld := ⟨0x09C, 0, 32⟩
@[reducible] def R.sluice_DB_REFUSE_CNT : Fld := ⟨0x0A0, 0, 32⟩
@[reducible] def R.sluice_EPOCH_WAIT_CNT : Fld := ⟨0x0A4, 0, 32⟩
@[reducible] def R.qgroup_QCFG_RING_LOG : Fld := ⟨0x100, 0, 5⟩
@[reducible] def R.qgroup_QCFG_MODE : Fld := ⟨0x100, 5, 1⟩
@[reducible] def R.qgroup_QCFG_MAX_OUT : Fld := ⟨0x100, 6, 4⟩
@[reducible] def R.qgroup_QCFG_SEG_TIMEOUT : Fld := ⟨0x100, 16, 8⟩
@[reducible] def R.qgroup_RING_BASE_BASE : Fld := ⟨0x104, 6, 22⟩
@[reducible] def R.qgroup_COMP_BASE_BASE : Fld := ⟨0x108, 6, 22⟩
@[reducible] def R.qgroup_DOORBELL_COUNT : Fld := ⟨0x10C, 0, 16⟩
@[reducible] def R.qgroup_TAIL : Fld := ⟨0x110, 0, 32⟩
@[reducible] def R.qgroup_HEAD : Fld := ⟨0x114, 0, 32⟩
@[reducible] def R.qgroup_DONE : Fld := ⟨0x118, 0, 32⟩
@[reducible] def R.qgroup_QSTATUS_STATE : Fld := ⟨0x11C, 0, 2⟩
@[reducible] def R.qgroup_QSTATUS_EPOCH : Fld := ⟨0x11C, 4, 4⟩
@[reducible] def R.qgroup_QSTATUS_OUT : Fld := ⟨0x11C, 8, 4⟩
@[reducible] def R.qgroup_CMD_OP : Fld := ⟨0x120, 0, 2⟩
@[reducible] def R.qgroup_LAST_ERR_INDEX : Fld := ⟨0x124, 0, 28⟩
@[reducible] def R.qgroup_LAST_ERR_STATUS : Fld := ⟨0x124, 28, 4⟩
@[reducible] def R.port_CFG_SELF_DEV : Fld := ⟨0x040, 0, 14⟩
@[reducible] def R.port_CFG_VIDX : Fld := ⟨0x040, 14, 4⟩
@[reducible] def R.port_CFG_VTOPO : Fld := ⟨0x040, 20, 3⟩
@[reducible] def R.port_CFG_STOPO : Fld := ⟨0x040, 24, 3⟩
@[reducible] def R.port_STATUS_UP : Fld := ⟨0x044, 0, 16⟩
@[reducible] def R.port_STATUS_DOWN : Fld := ⟨0x044, 16, 16⟩
@[reducible] def R.port_PORT_LINKS_LINKS : Fld := ⟨0x100, 0, 16⟩
@[reducible] def R.port_PORT_LINKS_VALID : Fld := ⟨0x100, 16, 1⟩
@[reducible] def R.port_PORT_LINKS_SYSTEM : Fld := ⟨0x100, 17, 1⟩
@[reducible] def R.port_PORT_FAR_FAR_DEV : Fld := ⟨0x104, 0, 14⟩
@[reducible] def R.port_PORT_FAR_FAR_VIDX : Fld := ⟨0x104, 14, 4⟩
@[reducible] def R.port_VROUTE_PORT : Fld := ⟨0x180, 0, 4⟩
@[reducible] def R.port_VROUTE_VALID : Fld := ⟨0x180, 4, 1⟩
@[reducible] def R.port_RESP_SHARES : Fld := ⟨0x1C0, 0, 16⟩
@[reducible] def R.port_TRANSIT_IN_LINK : Fld := ⟨0x200, 0, 4⟩
@[reducible] def R.port_TRANSIT_IN_SHARE : Fld := ⟨0x200, 4, 4⟩
@[reducible] def R.port_TRANSIT_OUT_LINK : Fld := ⟨0x200, 8, 4⟩
@[reducible] def R.port_TRANSIT_OUT_SHARE : Fld := ⟨0x200, 12, 4⟩
@[reducible] def R.port_TRANSIT_VALID : Fld := ⟨0x200, 16, 1⟩
@[reducible] def R.port_VDEV_DEV : Fld := ⟨0x300, 0, 14⟩
@[reducible] def R.port_VDEV_VALID : Fld := ⟨0x300, 14, 1⟩
@[reducible] def R.port_MISROUTE_CNT : Fld := ⟨0x080, 0, 32⟩
@[reducible] def R.port_TRANSIT_DROP_CNT : Fld := ⟨0x084, 0, 32⟩
@[reducible] def R.port_CTRL_DROP_CNT : Fld := ⟨0x088, 0, 32⟩
@[reducible] def R.port_REASM_FULL_CNT : Fld := ⟨0x08C, 0, 32⟩
@[reducible] def R.port_RESP_REFUSE_CNT : Fld := ⟨0x090, 0, 32⟩
@[reducible] def R.link_LCFG_PRESET : Fld := ⟨0x040, 0, 3⟩
@[reducible] def R.link_LSTATUS_STATE : Fld := ⟨0x044, 0, 3⟩
@[reducible] def R.link_LSTATUS_REVERSED : Fld := ⟨0x044, 3, 1⟩
@[reducible] def R.link_LSTATUS_POLARITY : Fld := ⟨0x044, 4, 12⟩
@[reducible] def R.link_LSTATUS_REPLAYS : Fld := ⟨0x044, 16, 2⟩
@[reducible] def R.link_FAR_ID_FAR_DEV : Fld := ⟨0x048, 0, 14⟩
@[reducible] def R.link_FAR_ID_FAR_LINK : Fld := ⟨0x048, 14, 4⟩
@[reducible] def R.link_FAR_ID_FAR_VIDX : Fld := ⟨0x048, 18, 4⟩
@[reducible] def R.link_FAR_ID_VALID : Fld := ⟨0x048, 22, 1⟩
@[reducible] def R.link_CMD_OP : Fld := ⟨0x04C, 0, 2⟩
@[reducible] def R.link_LANE_SEL_LANE : Fld := ⟨0x050, 0, 4⟩
@[reducible] def R.link_LANE_ERR : Fld := ⟨0x054, 0, 32⟩
@[reducible] def R.link_LAST_DOWN_CAUSE : Fld := ⟨0x058, 0, 3⟩
@[reducible] def R.link_FEC_CORR_CNT : Fld := ⟨0x080, 0, 32⟩
@[reducible] def R.link_FEC_UNCORR_CNT : Fld := ⟨0x084, 0, 32⟩
@[reducible] def R.link_CRC_FAIL_CNT : Fld := ⟨0x088, 0, 32⟩
@[reducible] def R.link_HCRC_FAIL_CNT : Fld := ⟨0x08C, 0, 32⟩
@[reducible] def R.link_NAK_REPLAY_CNT : Fld := ⟨0x090, 0, 32⟩
@[reducible] def R.link_TIMEOUT_REPLAY_CNT : Fld := ⟨0x094, 0, 32⟩
@[reducible] def R.link_RETRAIN_CNT : Fld := ⟨0x098, 0, 32⟩
@[reducible] def R.link_DOWN_CNT : Fld := ⟨0x09C, 0, 32⟩
@[reducible] def R.link_TX_FLIT_CNT : Fld := ⟨0x0A0, 0, 32⟩
@[reducible] def R.link_RX_FLIT_CNT : Fld := ⟨0x0A4, 0, 32⟩
@[reducible] def R.ledger_KEY : Fld := ⟨0x040, 0, 32⟩
@[reducible] def R.ledger_SEL_COLL : Fld := ⟨0x050, 0, 8⟩
@[reducible] def R.ledger_SEL_LINK : Fld := ⟨0x050, 8, 3⟩
@[reducible] def R.ledger_SEL_DIR : Fld := ⟨0x050, 11, 1⟩
@[reducible] def R.ledger_SEL_BANK : Fld := ⟨0x050, 12, 1⟩
@[reducible] def R.ledger_DIGEST : Fld := ⟨0x054, 0, 32⟩
@[reducible] def R.ledger_PREV_STEP_INDEX : Fld := ⟨0x064, 0, 32⟩
@[reducible] def R.ledger_STATUS_PREV_ABANDONED : Fld := ⟨0x068, 0, 1⟩
@[reducible] def R.ledger_TX_GRAN_CNT : Fld := ⟨0x080, 0, 32⟩
@[reducible] def R.ledger_RX_GRAN_CNT : Fld := ⟨0x084, 0, 32⟩
@[reducible] def R.bell_CFG_ROLE : Fld := ⟨0x040, 0, 1⟩
@[reducible] def R.bell_CFG_PARENT_LINK : Fld := ⟨0x040, 1, 4⟩
@[reducible] def R.bell_CFG_ALT_LINK : Fld := ⟨0x040, 5, 4⟩
@[reducible] def R.bell_CFG_ALT_EN : Fld := ⟨0x040, 9, 1⟩
@[reducible] def R.bell_CFG_PERIOD : Fld := ⟨0x040, 10, 8⟩
@[reducible] def R.bell_CFG_DEPTH : Fld := ⟨0x040, 18, 5⟩
@[reducible] def R.bell_OUTCFG_PPS_EN : Fld := ⟨0x044, 0, 1⟩
@[reducible] def R.bell_OUTCFG_REF_EN : Fld := ⟨0x044, 1, 1⟩
@[reducible] def R.bell_OUTCFG_TOD_EN : Fld := ⟨0x044, 2, 1⟩
@[reducible] def R.bell_OUTCFG_PPS_WIDTH : Fld := ⟨0x044, 4, 8⟩
@[reducible] def R.bell_STATUS_STATE : Fld := ⟨0x048, 0, 3⟩
@[reducible] def R.bell_STATUS_ON_ALT : Fld := ⟨0x048, 3, 1⟩
@[reducible] def R.bell_STATUS_ACCURACY : Fld := ⟨0x048, 4, 8⟩
@[reducible] def R.bell_OFFSET : Fld := ⟨0x04C, 0, 32⟩
@[reducible] def R.bell_DELAY : Fld := ⟨0x050, 0, 32⟩
@[reducible] def R.bell_FREQ_ADJ : Fld := ⟨0x054, 0, 20⟩
@[reducible] def R.bell_NOW_LO : Fld := ⟨0x058, 0, 32⟩
@[reducible] def R.bell_NOW_HI : Fld := ⟨0x05C, 0, 32⟩
@[reducible] def R.bell_SET_LO : Fld := ⟨0x060, 0, 32⟩
@[reducible] def R.bell_SET_HI : Fld := ⟨0x064, 0, 32⟩
@[reducible] def R.bell_EXCH_CNT : Fld := ⟨0x080, 0, 32⟩
@[reducible] def R.bell_MISS_CNT : Fld := ⟨0x084, 0, 32⟩
@[reducible] def R.bell_HOLDOVER_CNT : Fld := ⟨0x088, 0, 32⟩
@[reducible] def R.bell_STEP_CNT : Fld := ⟨0x08C, 0, 32⟩
@[reducible] def R.bell_LINK_SWITCH_CNT : Fld := ⟨0x090, 0, 32⟩
@[reducible] def R.bell_MSG_DROP_CNT : Fld := ⟨0x094, 0, 32⟩
@[reducible] def R.watch_CFG_THRESH : Fld := ⟨0x040, 0, 8⟩
@[reducible] def R.watch_CFG_MIN_GAP : Fld := ⟨0x040, 8, 8⟩
@[reducible] def R.watch_STATUS_SCORE : Fld := ⟨0x044, 0, 8⟩
@[reducible] def R.watch_STATUS_TOP : Fld := ⟨0x044, 8, 4⟩
@[reducible] def R.watch_PEAK_SCORE : Fld := ⟨0x048, 0, 8⟩
@[reducible] def R.watch_CROSS_LOG_SCORE : Fld := ⟨0x04C, 0, 8⟩
@[reducible] def R.watch_CROSS_LOG_TOP : Fld := ⟨0x04C, 8, 4⟩
@[reducible] def R.watch_CROSS_LOG_VALID : Fld := ⟨0x04C, 31, 1⟩
@[reducible] def R.watch_RES_LOG_CROFT : Fld := ⟨0x050, 0, 7⟩
@[reducible] def R.watch_RES_LOG_ENGINE : Fld := ⟨0x050, 8, 3⟩
@[reducible] def R.watch_RES_LOG_VALID : Fld := ⟨0x050, 31, 1⟩
@[reducible] def R.watch_LANE_LOG_CHANNEL : Fld := ⟨0x054, 0, 4⟩
@[reducible] def R.watch_LANE_LOG_DIR : Fld := ⟨0x054, 4, 1⟩
@[reducible] def R.watch_LANE_LOG_VALID : Fld := ⟨0x054, 31, 1⟩
@[reducible] def R.watch_SW_WDOG_EXPIRED : Fld := ⟨0x058, 0, 1⟩
@[reducible] def R.watch_INPUT_CFG_WEIGHT : Fld := ⟨0x100, 0, 8⟩
@[reducible] def R.watch_INPUT_CFG_DECAY : Fld := ⟨0x100, 8, 4⟩
@[reducible] def R.watch_INPUT_CFG_PRESCALE : Fld := ⟨0x100, 12, 4⟩
@[reducible] def R.watch_INPUT_CFG_EN : Fld := ⟨0x100, 16, 1⟩
@[reducible] def R.watch_INPUT_VAL_A : Fld := ⟨0x104, 0, 16⟩
@[reducible] def R.watch_INPUT_VAL_CONTRIB : Fld := ⟨0x104, 16, 8⟩
@[reducible] def R.watch_CROSS_CNT : Fld := ⟨0x080, 0, 32⟩
@[reducible] def R.watch_REQ_CNT : Fld := ⟨0x084, 0, 32⟩
@[reducible] def R.watch_GAP_DROP_CNT : Fld := ⟨0x088, 0, 32⟩
@[reducible] def R.watch_RES_CNT : Fld := ⟨0x08C, 0, 32⟩
@[reducible] def R.watch_LANE_CNT : Fld := ⟨0x090, 0, 32⟩
@[reducible] def R.watch_SW_WDOG_CNT : Fld := ⟨0x094, 0, 32⟩
@[reducible] def R.bucket_CFG_MAX_INTERVAL : Fld := ⟨0x040, 0, 8⟩
@[reducible] def R.bucket_CFG_PARTNER_PORT : Fld := ⟨0x040, 8, 4⟩
@[reducible] def R.bucket_CFG_WARD_PORT : Fld := ⟨0x040, 12, 4⟩
@[reducible] def R.bucket_SET_BASE : Fld := ⟨0x044, 0, 23⟩
@[reducible] def R.bucket_SET_LEN : Fld := ⟨0x044, 24, 7⟩
@[reducible] def R.bucket_STATE_BASE_BASE : Fld := ⟨0x048, 0, 23⟩
@[reducible] def R.bucket_LARDER_BASE_BASE : Fld := ⟨0x04C, 0, 23⟩
@[reducible] def R.bucket_CELLAR_BASE_BASE : Fld := ⟨0x054, 0, 23⟩
@[reducible] def R.bucket_LARDER_LEN_PAILS : Fld := ⟨0x050, 0, 24⟩
@[reducible] def R.bucket_CELLAR_LEN_PAILS : Fld := ⟨0x058, 0, 24⟩
@[reducible] def R.bucket_STATUS_SNAP : Fld := ⟨0x060, 0, 2⟩
@[reducible] def R.bucket_STATUS_REST : Fld := ⟨0x060, 2, 3⟩
@[reducible] def R.bucket_STATUS_HELD : Fld := ⟨0x060, 5, 1⟩
@[reducible] def R.bucket_STATUS_LATE : Fld := ⟨0x060, 6, 1⟩
@[reducible] def R.bucket_STATUS_STAGED : Fld := ⟨0x060, 7, 5⟩
@[reducible] def R.bucket_STATUS_PARTNER_FEED : Fld := ⟨0x060, 16, 8⟩
@[reducible] def R.bucket_PEERS_PARTNER_DEV : Fld := ⟨0x064, 0, 14⟩
@[reducible] def R.bucket_PEERS_WARD_DEV : Fld := ⟨0x064, 16, 14⟩
@[reducible] def R.bucket_CUR_STEP : Fld := ⟨0x068, 0, 32⟩
@[reducible] def R.bucket_B_LAST : Fld := ⟨0x06C, 0, 32⟩
@[reducible] def R.bucket_OWN_A : Fld := ⟨0x070, 0, 32⟩
@[reducible] def R.bucket_OWN_B : Fld := ⟨0x074, 0, 32⟩
@[reducible] def R.bucket_WARD_A : Fld := ⟨0x078, 0, 32⟩
@[reducible] def R.bucket_WARD_B : Fld := ⟨0x07C, 0, 32⟩
@[reducible] def R.bucket_CMD_OP : Fld := ⟨0x0C0, 0, 3⟩
@[reducible] def R.bucket_CMD_SLOT : Fld := ⟨0x0C0, 3, 1⟩
@[reducible] def R.bucket_SET_PAILS_P : Fld := ⟨0x0C4, 0, 24⟩
@[reducible] def R.bucket_SNAP_CNT : Fld := ⟨0x080, 0, 32⟩
@[reducible] def R.bucket_COMMIT_CNT : Fld := ⟨0x084, 0, 32⟩
@[reducible] def R.bucket_FAIL_CNT : Fld := ⟨0x088, 0, 32⟩
@[reducible] def R.bucket_FORCED_CNT : Fld := ⟨0x08C, 0, 32⟩
@[reducible] def R.bucket_TOUCH_CNT : Fld := ⟨0x090, 0, 32⟩
@[reducible] def R.bucket_TOUCH_WAIT_CNT : Fld := ⟨0x094, 0, 32⟩
@[reducible] def R.bucket_HOLD_CNT : Fld := ⟨0x098, 0, 32⟩
@[reducible] def R.bucket_LATE_CNT : Fld := ⟨0x09C, 0, 32⟩
@[reducible] def R.bucket_REFUSE_CNT : Fld := ⟨0x0A0, 0, 32⟩
@[reducible] def R.bucket_DEFER_CNT : Fld := ⟨0x0A4, 0, 32⟩
@[reducible] def R.host_CFG_IDE_REQ : Fld := ⟨0x040, 0, 1⟩
@[reducible] def R.host_LINK_RATE : Fld := ⟨0x044, 0, 3⟩
@[reducible] def R.host_LINK_WIDTH : Fld := ⟨0x044, 3, 4⟩
@[reducible] def R.host_LINK_FLIT : Fld := ⟨0x044, 7, 1⟩
@[reducible] def R.host_ERR_LOG_BAR : Fld := ⟨0x048, 0, 2⟩
@[reducible] def R.host_ERR_LOG_KIND : Fld := ⟨0x048, 2, 3⟩
@[reducible] def R.host_ERR_LOG_WRITE : Fld := ⟨0x048, 5, 1⟩
@[reducible] def R.host_ERR_LOG_OVERRUN : Fld := ⟨0x048, 30, 1⟩
@[reducible] def R.host_ERR_LOG_VALID : Fld := ⟨0x048, 31, 1⟩
@[reducible] def R.host_ERR_ADDR_LO : Fld := ⟨0x04C, 0, 32⟩
@[reducible] def R.host_ERR_ADDR_HI : Fld := ⟨0x050, 0, 8⟩
@[reducible] def R.host_UR_CNT : Fld := ⟨0x080, 0, 32⟩
@[reducible] def R.host_REFUSED_CNT : Fld := ⟨0x084, 0, 32⟩
@[reducible] def R.host_UE_CNT : Fld := ⟨0x088, 0, 32⟩
@[reducible] def R.host_ABS_CNT : Fld := ⟨0x08C, 0, 32⟩
@[reducible] def R.host_TIMEOUT_CNT : Fld := ⟨0x090, 0, 32⟩
@[reducible] def R.host_IDE_REQ_CNT : Fld := ⟨0x094, 0, 32⟩
@[reducible] def R.host_IDE_FAIL_CNT : Fld := ⟨0x098, 0, 32⟩
@[reducible] def R.host_MBX_IGNORE_CNT : Fld := ⟨0x09C, 0, 32⟩
@[reducible] def R.CRIER_LINE_SOURCE : Fld := ⟨0x020, 0, 11⟩
@[reducible] def R.CRIER_LINE_RAISED : Fld := ⟨0x020, 16, 1⟩
@[reducible] def R.crier_CFG_REEVE_TOKEN : Fld := ⟨0x040, 0, 8⟩
@[reducible] def R.crier_SW_SW : Fld := ⟨0x044, 0, 16⟩
@[reducible] def R.crier_ROUTE_SEL_SOURCE : Fld := ⟨0x048, 0, 11⟩
@[reducible] def R.crier_ROUTE_DATA_TKIND : Fld := ⟨0x04C, 0, 2⟩
@[reducible] def R.crier_ROUTE_DATA_TIDX : Fld := ⟨0x04C, 2, 7⟩
@[reducible] def R.crier_ROUTE_DATA_PRIO : Fld := ⟨0x04C, 9, 3⟩
@[reducible] def R.crier_ROUTE_DATA_INSERVICE : Fld := ⟨0x04C, 12, 1⟩
@[reducible] def R.crier_MASK : Fld := ⟨0x100, 0, 32⟩
@[reducible] def R.crier_PEND : Fld := ⟨0x200, 0, 32⟩
@[reducible] def R.crier_CLAIM_NUMBER : Fld := ⟨0x300, 0, 11⟩
@[reducible] def R.crier_COMPLETE_NUMBER : Fld := ⟨0x400, 0, 11⟩
@[reducible] def R.crier_CLAIM_CNT : Fld := ⟨0x080, 0, 32⟩
@[reducible] def R.crier_SPUR_CNT : Fld := ⟨0x084, 0, 32⟩
@[reducible] def R.crier_BAD_COMPLETE_CNT : Fld := ⟨0x088, 0, 32⟩
@[reducible] def R.crier_REEVE_SIG_CNT : Fld := ⟨0x08C, 0, 32⟩
@[reducible] def R.power_CFG_CAP : Fld := ⟨0x040, 0, 9⟩
@[reducible] def R.power_CFG_CAP_EN : Fld := ⟨0x040, 9, 1⟩
@[reducible] def R.power_STATUS_PSTATE : Fld := ⟨0x044, 0, 3⟩
@[reducible] def R.power_STATUS_TRANS : Fld := ⟨0x044, 3, 1⟩
@[reducible] def R.power_STATUS_WARN : Fld := ⟨0x044, 4, 8⟩
@[reducible] def R.power_STATUS_SUPPLY_RST : Fld := ⟨0x044, 12, 8⟩
@[reducible] def R.power_STATUS_VPEND : Fld := ⟨0x044, 20, 8⟩
@[reducible] def R.power_STATUS_CAP_LIMITING : Fld := ⟨0x044, 28, 1⟩
@[reducible] def R.power_STATUS_CAP_MISS : Fld := ⟨0x044, 29, 1⟩
@[reducible] def R.power_STATUS_THERM_WARN : Fld := ⟨0x044, 30, 1⟩
@[reducible] def R.power_POWER_AVG_W : Fld := ⟨0x048, 0, 13⟩
@[reducible] def R.power_POWER_DUTY : Fld := ⟨0x048, 16, 6⟩
@[reducible] def R.power_RAIL_SEL_RAIL : Fld := ⟨0x04C, 0, 6⟩
@[reducible] def R.power_RAIL_DATA_CMD_MV : Fld := ⟨0x050, 0, 13⟩
@[reducible] def R.power_RAIL_DATA_MEAS_MV : Fld := ⟨0x050, 16, 13⟩
@[reducible] def R.power_RAIL_CUR_AMPS : Fld := ⟨0x054, 0, 13⟩
@[reducible] def R.power_DROOP_LOG_HAMLET : Fld := ⟨0x058, 0, 3⟩
@[reducible] def R.power_DROOP_LOG_DUR : Fld := ⟨0x058, 4, 20⟩
@[reducible] def R.power_DROOP_LOG_MIN : Fld := ⟨0x058, 24, 7⟩
@[reducible] def R.power_DROOP_LOG_VALID : Fld := ⟨0x058, 31, 1⟩
@[reducible] def R.power_THERM_HOTTEST : Fld := ⟨0x05C, 0, 12⟩
@[reducible] def R.power_THERM_SENSOR : Fld := ⟨0x05C, 12, 6⟩
@[reducible] def R.power_WARN_CNT : Fld := ⟨0x080, 0, 32⟩
@[reducible] def R.power_SUPPLY_RST_CNT : Fld := ⟨0x084, 0, 32⟩
@[reducible] def R.power_STEP_DELAY_CNT : Fld := ⟨0x088, 0, 32⟩
@[reducible] def R.power_CAP_LIMIT_CNT : Fld := ⟨0x08C, 0, 32⟩
@[reducible] def R.power_THERM_WARN_CNT : Fld := ⟨0x090, 0, 32⟩
@[reducible] def R.power_AVS_ERR_CNT : Fld := ⟨0x094, 0, 32⟩
@[reducible] def R.power_TRANS_CNT : Fld := ⟨0x098, 0, 32⟩
@[reducible] def R.power_OV_CNT : Fld := ⟨0x09C, 0, 32⟩
@[reducible] def R.gauge_CFG_TOL : Fld := ⟨0x040, 0, 5⟩
@[reducible] def R.gauge_STATUS_RUNNING : Fld := ⟨0x044, 0, 4⟩
@[reducible] def R.gauge_STATUS_PENDING : Fld := ⟨0x044, 4, 4⟩
@[reducible] def R.gauge_CMD_START : Fld := ⟨0x048, 0, 4⟩
@[reducible] def R.gauge_TRIP_TRIPPED : Fld := ⟨0x04C, 0, 8⟩
@[reducible] def R.gauge_XCHK_LOG_CHANNEL : Fld := ⟨0x050, 0, 7⟩
@[reducible] def R.gauge_XCHK_LOG_VALID : Fld := ⟨0x050, 31, 1⟩
@[reducible] def R.gauge_XCHK_CODES_A : Fld := ⟨0x054, 0, 14⟩
@[reducible] def R.gauge_XCHK_CODES_B : Fld := ⟨0x054, 16, 14⟩
@[reducible] def R.gauge_TRIP_LOG_CHANNEL : Fld := ⟨0x058, 0, 7⟩
@[reducible] def R.gauge_TRIP_LOG_COMP : Fld := ⟨0x058, 8, 3⟩
@[reducible] def R.gauge_TRIP_LOG_CODE : Fld := ⟨0x058, 11, 14⟩
@[reducible] def R.gauge_TRIP_LOG_VALID : Fld := ⟨0x058, 31, 1⟩
@[reducible] def R.gauge_SEQ_CFG_LEN : Fld := ⟨0x060, 0, 6⟩
@[reducible] def R.gauge_SEQ_CFG_START : Fld := ⟨0x060, 6, 2⟩
@[reducible] def R.gauge_SEQ_CFG_PERIOD : Fld := ⟨0x060, 8, 12⟩
@[reducible] def R.gauge_SEQ_STATUS_PASS : Fld := ⟨0x070, 0, 16⟩
@[reducible] def R.gauge_SEQ_STATUS_ENTRY : Fld := ⟨0x070, 16, 5⟩
@[reducible] def R.gauge_COMP_FIRST : Fld := ⟨0x100, 0, 7⟩
@[reducible] def R.gauge_COMP_LAST : Fld := ⟨0x100, 8, 7⟩
@[reducible] def R.gauge_COMP_ACT : Fld := ⟨0x100, 16, 2⟩
@[reducible] def R.gauge_COMP_SEQ : Fld := ⟨0x100, 18, 2⟩
@[reducible] def R.gauge_COMP_START_EN : Fld := ⟨0x100, 20, 1⟩
@[reducible] def R.gauge_COMP_EN : Fld := ⟨0x100, 21, 1⟩
@[reducible] def R.gauge_WIN_LOW : Fld := ⟨0x104, 0, 14⟩
@[reducible] def R.gauge_WIN_HIGH : Fld := ⟨0x104, 16, 14⟩
@[reducible] def R.gauge_ENTRY_CH_A : Fld := ⟨0x200, 0, 7⟩
@[reducible] def R.gauge_ENTRY_EN_A : Fld := ⟨0x200, 7, 1⟩
@[reducible] def R.gauge_ENTRY_CH_B : Fld := ⟨0x200, 8, 7⟩
@[reducible] def R.gauge_ENTRY_EN_B : Fld := ⟨0x200, 15, 1⟩
@[reducible] def R.gauge_RESULT_CODE_A : Fld := ⟨0x400, 0, 14⟩
@[reducible] def R.gauge_RESULT_VALID_A : Fld := ⟨0x400, 14, 1⟩
@[reducible] def R.gauge_RESULT_CODE_B : Fld := ⟨0x400, 16, 14⟩
@[reducible] def R.gauge_RESULT_VALID_B : Fld := ⟨0x400, 30, 1⟩
@[reducible] def R.gauge_TRIP_CNT : Fld := ⟨0x080, 0, 32⟩
@[reducible] def R.gauge_XCHK_CNT : Fld := ⟨0x084, 0, 32⟩
@[reducible] def R.gauge_SKIP_CNT : Fld := ⟨0x088, 0, 32⟩
@[reducible] def R.gauge_PREEMPT_CNT : Fld := ⟨0x08C, 0, 32⟩
@[reducible] def R.gauge_TIMER_MISS_CNT : Fld := ⟨0x090, 0, 32⟩
@[reducible] def R.devctl_BOOT_PHASE : Fld := ⟨0x040, 0, 4⟩
@[reducible] def R.devctl_BOOT_FAST : Fld := ⟨0x040, 4, 1⟩
@[reducible] def R.devctl_BOOT_FALLBACK : Fld := ⟨0x040, 5, 1⟩
@[reducible] def R.devctl_BOOT_STOP : Fld := ⟨0x040, 8, 8⟩
@[reducible] def R.devctl_START_START_CNT : Fld := ⟨0x044, 0, 32⟩
@[reducible] def R.devctl_RESET_CAUSE_LAST : Fld := ⟨0x048, 0, 3⟩
@[reducible] def R.devctl_RESET_CAUSE_FULL_PATH : Fld := ⟨0x048, 3, 1⟩
@[reducible] def R.devctl_RETIRED_WELLS : Fld := ⟨0x04C, 0, 12⟩
@[reducible] def R.devctl_RETIRED_PUMPS : Fld := ⟨0x04C, 12, 10⟩
@[reducible] def R.devctl_RETIRED_CROFTS : Fld := ⟨0x04C, 22, 7⟩
@[reducible] def R.devctl_DEV_RST_CNT : Fld := ⟨0x080, 0, 32⟩
@[reducible] def R.devctl_HAMLET_RST_CNT : Fld := ⟨0x084, 0, 32⟩
@[reducible] def R.devctl_CROFT_RST_CNT : Fld := ⟨0x088, 0, 32⟩
@[reducible] def R.devctl_CORE_RST_CNT : Fld := ⟨0x08C, 0, 32⟩
@[reducible] def R.devctl_REPAIR_CNT : Fld := ⟨0x090, 0, 32⟩
@[reducible] def R.devctl_RETIRE_CNT : Fld := ⟨0x094, 0, 32⟩
@[reducible] def R.orarn_CFG_PLAN_REQ : Fld := ⟨0x040, 0, 1⟩
@[reducible] def R.orarn_STATUS_PLAN_VALID : Fld := ⟨0x044, 0, 1⟩
@[reducible] def R.orarn_STATUS_SIGNED : Fld := ⟨0x044, 1, 1⟩
@[reducible] def R.orarn_STATUS_BUSY : Fld := ⟨0x044, 2, 1⟩
@[reducible] def R.orarn_STATUS_LAST_RESULT : Fld := ⟨0x044, 8, 8⟩
@[reducible] def R.orarn_MEAS_BELL_LO : Fld := ⟨0x048, 0, 32⟩
@[reducible] def R.orarn_MEAS_BELL_HI : Fld := ⟨0x04C, 0, 32⟩
@[reducible] def R.orarn_PKEY : Fld := ⟨0x050, 0, 32⟩
@[reducible] def R.orarn_PLAN_DIGEST : Fld := ⟨0x100, 0, 32⟩
@[reducible] def R.orarn_MEAS_CNT : Fld := ⟨0x080, 0, 32⟩
@[reducible] def R.orarn_MEAS_FAIL_CNT : Fld := ⟨0x084, 0, 32⟩
@[reducible] def R.orarn_REPORT_CNT : Fld := ⟨0x088, 0, 32⟩
@[reducible] def R.orarn_SPDM_SESS_CNT : Fld := ⟨0x08C, 0, 32⟩
@[reducible] def R.PAGE_ID_INSTANCE : Fld := ⟨0x000, 0, 16⟩
@[reducible] def R.PAGE_ID_TYPE : Fld := ⟨0x000, 16, 16⟩
@[reducible] def R.PAGE_REV_REV : Fld := ⟨0x004, 0, 16⟩
@[reducible] def R.CTL_ENABLE : Fld := ⟨0x008, 0, 1⟩
@[reducible] def R.CTL_RESET_REQ : Fld := ⟨0x008, 1, 1⟩
@[reducible] def R.STATE_STATE : Fld := ⟨0x00C, 0, 3⟩
@[reducible] def R.REFUSAL_REASON : Fld := ⟨0x010, 0, 8⟩
@[reducible] def R.REFUSAL_OFFSET : Fld := ⟨0x010, 16, 12⟩
@[reducible] def R.FAULT_CAUSE : Fld := ⟨0x014, 0, 32⟩
@[reducible] def R.FAULT_ADDR_LO : Fld := ⟨0x018, 0, 32⟩
@[reducible] def R.FAULT_ADDR_HI : Fld := ⟨0x01C, 0, 32⟩
@[reducible] def R.IGNORED_CNT : Fld := ⟨0x024, 0, 32⟩
@[reducible] def R.plan_CFG_RESTORE_ENTRY : Fld := ⟨0x040, 0, 24⟩
@[reducible] def R.plan_CMD_OP : Fld := ⟨0x044, 0, 2⟩
@[reducible] def R.plan_CMD_FROM : Fld := ⟨0x044, 2, 1⟩
@[reducible] def R.plan_STATUS_RUNNING : Fld := ⟨0x048, 0, 1⟩
@[reducible] def R.plan_STATUS_STOP_PENDING : Fld := ⟨0x048, 1, 1⟩
@[reducible] def R.plan_STATUS_START_ERR : Fld := ⟨0x048, 2, 3⟩
@[reducible] def R.plan_STATUS_REEVES : Fld := ⟨0x048, 5, 8⟩
@[reducible] def R.plan_PLAN_START_CNT : Fld := ⟨0x080, 0, 32⟩
@[reducible] def R.plan_STOP_CNT : Fld := ⟨0x084, 0, 32⟩
@[reducible] def R.plan_HOLE_CNT : Fld := ⟨0x088, 0, 32⟩
@[reducible] def R.plan_CNT_CLEAR : Fld := ⟨0x09C, 0, 3⟩
@[reducible] def R.defect_SUMMARY_COUNT : Fld := ⟨0x040, 0, 13⟩
@[reducible] def R.defect_SUMMARY_RUNTIME : Fld := ⟨0x040, 13, 11⟩
@[reducible] def R.defect_SUMMARY_SEALED : Fld := ⟨0x040, 24, 1⟩
@[reducible] def R.defect_QUERY_KIND : Fld := ⟨0x044, 0, 8⟩
@[reducible] def R.defect_QUERY_UNIT : Fld := ⟨0x044, 16, 14⟩
@[reducible] def R.defect_ANSWER_RETIRED : Fld := ⟨0x048, 0, 1⟩
@[reducible] def R.defect_ANSWER_SOURCE : Fld := ⟨0x048, 1, 2⟩
@[reducible] def R.defect_ANSWER_VIA : Fld := ⟨0x048, 3, 1⟩
@[reducible] def R.defect_ANSWER_SPARES : Fld := ⟨0x048, 4, 5⟩
@[reducible] def R.window_BASE_BASE : Fld := ⟨0x040, 0, 12⟩
@[reducible] def R.feed_FEED_FEED : Fld := ⟨0x040, 0, 8⟩
@[reducible] def R.croft_CNT_CLEAR : Fld := ⟨0x12C, 0, 7⟩
@[reducible] def R.well_CNT_CLEAR : Fld := ⟨0x0FC, 0, 13⟩
@[reducible] def R.well_CAL_CNT_CLEAR : Fld := ⟨0x27C, 0, 11⟩
@[reducible] def R.plumb_CNT_CLEAR : Fld := ⟨0x09C, 0, 3⟩
@[reducible] def R.pump_CNT_CLEAR : Fld := ⟨0x0BC, 0, 12⟩
@[reducible] def R.mill_CNT_CLEAR : Fld := ⟨0x0BC, 0, 13⟩
@[reducible] def R.numstep_CNT_CLEAR : Fld := ⟨0x0BC, 0, 6⟩
@[reducible] def R.reeve_CNT_CLEAR : Fld := ⟨0x0BC, 0, 11⟩
@[reducible] def R.own_CNT_CLEAR : Fld := ⟨0x09C, 0, 4⟩
@[reducible] def R.cistern_CNT_CLEAR : Fld := ⟨0x0BC, 0, 8⟩
@[reducible] def R.granary_CNT_CLEAR : Fld := ⟨0x0BC, 0, 8⟩
@[reducible] def R.sluice_CNT_CLEAR : Fld := ⟨0x0BC, 0, 10⟩
@[reducible] def R.port_CNT_CLEAR : Fld := ⟨0x09C, 0, 5⟩
@[reducible] def R.link_CNT_CLEAR : Fld := ⟨0x0BC, 0, 10⟩
@[reducible] def R.ledger_CNT_CLEAR : Fld := ⟨0x09C, 0, 2⟩
@[reducible] def R.bell_CNT_CLEAR : Fld := ⟨0x09C, 0, 6⟩
@[reducible] def R.watch_CNT_CLEAR : Fld := ⟨0x09C, 0, 6⟩
@[reducible] def R.bucket_CNT_CLEAR : Fld := ⟨0x0BC, 0, 10⟩
@[reducible] def R.host_CNT_CLEAR : Fld := ⟨0x0BC, 0, 8⟩
@[reducible] def R.crier_CNT_CLEAR : Fld := ⟨0x09C, 0, 4⟩
@[reducible] def R.power_CNT_CLEAR : Fld := ⟨0x0BC, 0, 8⟩
@[reducible] def R.gauge_CNT_CLEAR : Fld := ⟨0x09C, 0, 5⟩
@[reducible] def R.devctl_CNT_CLEAR : Fld := ⟨0x09C, 0, 6⟩
@[reducible] def R.orarn_CNT_CLEAR : Fld := ⟨0x09C, 0, 4⟩
@[reducible] def R.fabric_SHARE_KIND : Fld := ⟨0x100, 0, 3⟩
@[reducible] def R.fabric_SHARE_CROFT : Fld := ⟨0x100, 3, 7⟩
@[reducible] def R.fabric_SHARE15_KIND : Fld := ⟨0x13C, 0, 3⟩
@[reducible] def R.sluice_SLOT_E0 : Fld := ⟨0x040, 0, 8⟩
@[reducible] def R.sluice_SLOT_E1 : Fld := ⟨0x040, 8, 8⟩
@[reducible] def R.sluice_SLOT_E2 : Fld := ⟨0x040, 16, 8⟩
@[reducible] def R.sluice_SLOT_E3 : Fld := ⟨0x040, 24, 8⟩

end Sys2Proof.Machine
end

