-- ==== Sys2Proof/Machine/Sparse.lean ====
section
/-! DEFINITION. Sparse maps from natural numbers: the one representation of memory, of the register file and of the per-unit
records of State. A map is a list of key and value pairs with strictly rising keys. -/
namespace Sys2Proof.Machine

/-- The value held at `k`, if the map lists one. -/
def Sparse.get? {α : Type} : List (Nat × α) → Nat → Option α
  | [], _ => none
  | (j, v) :: m, k => if j = k then some v else Sparse.get? m k

/-- The map with `v` at `k`, every other key as it was. -/
def Sparse.set {α : Type} : List (Nat × α) → Nat → α → List (Nat × α)
  | [], k, v => [(k, v)]
  | (j, w) :: m, k, v =>
    if k < j then (k, v) :: (j, w) :: m
    else if k = j then (k, v) :: m
    else (j, w) :: Sparse.set m k v

/-- The map with no key in `lo ≤ k < hi`. -/
def Sparse.eraseRange {α : Type} (m : List (Nat × α)) (lo hi : Nat) : List (Nat × α) :=
  m.filter (fun e => !(decide (lo ≤ e.1) && decide (e.1 < hi)))

/-- The canonical form: keys strictly rising. -/
abbrev Sparse.Wf {α : Type} (m : List (Nat × α)) : Prop :=
  m.Pairwise (fun x y => x.1 < y.1)

/-! Memory: bytes by local address (R21), where an unlisted address reads zero (R20 for the cisterns; assumption 3 for the
granaries), so no entry holds zero. -/

/-- The byte at local address `a`. (DESIGN CHOICE, assumption 3) -/
def Memory.read (m : List (Nat × Byte)) (a : Nat) : Byte := (Sparse.get? m a).getD 0

/-- The memory with byte `b` at local address `a`, in canonical form. -/
def Memory.write (m : List (Nat × Byte)) (a : Nat) (b : Byte) : List (Nat × Byte) :=
  if b = 0 then Sparse.eraseRange m a (a + 1) else Sparse.set m a b

/-- The memory with the bytes `bs` from local address `a` on. -/
def Memory.writeBytes (m : List (Nat × Byte)) (a : Nat) : List Byte → List (Nat × Byte)
  | [] => m
  | b :: bs => Memory.writeBytes (Memory.write m a b) (a + 1) bs

/-- The canonical form of memory: addresses strictly rising and no entry equal to what an unlisted address reads as. -/
abbrev Memory.Wf (m : List (Nat × Byte)) : Prop :=
  Sparse.Wf m ∧ ∀ e ∈ m, e.2 ≠ 0

/-- `Memory.Wf` as a Boolean. -/
def Memory.wf (m : List (Nat × Byte)) : Bool := decide (Memory.Wf m)

end Sys2Proof.Machine
end

