-- ==== Sys2Proof/Machine/Units.lean ====
section
/-! DEFINITION. What the host port, the mailbox, Crier, the power blocks, Gauge, the start and Orarn keep beyond their registers. -/
namespace Sys2Proof.Machine

/-! ### Host port and mailbox (R444, R446, R448, R450) -/

/-- An entry of the MSI-X table, with its pending bit and whether the vector is asserted (R446). (PRESUMED, assumption 85) -/
structure Vec where
  addr : BitVec 64 := 0
  data : Word := 0
  masked : Bool := true
  pend : Bool := false
  asserted : Bool := false
deriving DecidableEq, Repr

/-- A BAR2 access to another device that waits for its acknowledgement (R444). -/
structure HostAccess where
  write : Bool
  off : Nat
deriving DecidableEq, Repr

/-- A mailbox request as the Steward copied it (R449, R450). -/
structure Request where
  op : Nat
  seq : Word
  len : Nat
  payload : List Byte
deriving DecidableEq, Repr

/-- The Steward mailbox (R448). -/
structure Mailbox where
  mstate : Nat := 3
  rspSeq : Word := 0
  /-- SEQ of the last accepted request. -/
  last : Option Word := Option.none
  /-- Bytes of the request area; an unlisted one is zero. -/
  area : List Host.Cell := []
  /-- The request being served. -/
  serving : Option Request := Option.none
  /-- Header and payload of the last response. -/
  response : List Byte := []
deriving DecidableEq, Repr

/-- The host port beyond its page: Bus Master Enable, MSI-X Enable and Function Mask, the MSI-X table, and accesses that wait. -/
structure HostPort where
  busMaster : Bool := false
  msixEnable : Bool := false
  funcMask : Bool := false
  vecs : List (Nat × Vec) := []
  waiting : List HostAccess := []
  mailbox : Mailbox := {}
deriving DecidableEq, Repr

/-! ### Crier (R458 to R466) -/

/-- A target of Crier (R458). -/
inductive Target where
  | reeve (c : Nat)
  | steward
  | vector (v : Nat)
deriving DecidableEq, Repr

/-- Crier beyond its page: ROUTE_DATA of each source whose word is not zero, the sources in service with their target, the targets whose
SIGNALLED bit is 1, and whether the Steward's interrupt input is up. -/
structure CrierState where
  routes : List (Nat × Word) := []
  service : List (Nat × Target) := []
  signalled : List Target := []
  stewardUp : Bool := false
deriving DecidableEq, Repr

/-! ### Power (R469 to R483) -/

/-- Which supplies are on: all, those of RETAIN, or those of OFF (R469). -/
inductive Level where
  | on | retain | off
deriving DecidableEq, Repr

/-- A MULT write that waits for its turn (R472): the croft and the value. -/
structure ClkWrite where
  croft : Nat
  mult : Nat
deriving DecidableEq, Repr

/-- Power beyond its page. -/
structure Power where
  level : Level := .off
  /-- The state a transition in progress leads to (R479): 0 ACTIVE, 1 IDLE, 2 DOZE, 3 RETAIN. -/
  target : Option Nat := Option.none
  /-- A mailbox request waits for its end (R479). -/
  asked : Bool := false
  /-- Power-management writes that wait for the transition in progress, oldest first: D3hot, or else D0 (R481). -/
  later : List Bool := []
  /-- Hamlets that reached the reset level during the transition: it waits until they leave reset (R475). -/
  holds : List Nat := []
  /-- An OFF request is accepted (R481). -/
  offAsked : Bool := false
  /-- Commanded voltages in mV of rails 0 to 15 that differ from 750 (R472, R498). -/
  volts : List (Nat × Nat) := []
  /-- MULT writes that wait, oldest first, and the clocks that relock with the value they relock to (R472, R288). -/
  clkQ : List ClkWrite := []
  relock : List ClkWrite := []
  /-- Last measured voltages in mV and currents in A, by rail. -/
  meas : List (Nat × Nat) := []
  amps : List (Nat × Nat) := []
  /-- Failures in a row of the transaction in progress, by rail (R471). -/
  avsFails : List (Nat × Nat) := []
  /-- Package power of the last ten ticks in mW, newest first, and the ticks the duty has stood at 32/64 above CAP (R478). -/
  samples : List Nat := []
  atMax : Nat := 0
  /-- THERMTRIP_N is asserted; the THERMTRIP record: whether a stack fired, and its number (R483, R515). -/
  thermN : Bool := false
  tripped : Option (Bool × Nat) := Option.none
deriving DecidableEq, Repr

/-! ### Gauge (R488 to R492) -/

/-- Gauge beyond its page. -/
structure Gauge where
  /-- The sequence and entry whose slot is in progress. -/
  cur : Option (Nat × Nat) := Option.none
  /-- The channel that started each sequence; none is listed for a start by timer or software. -/
  trig : List (Nat × Nat) := []
  /-- Successive dropped ticks of timer sequences (R489). -/
  missed : List (Nat × Nat) := []
  /-- Sequences whose pass in progress has a mismatch, and the sequence whose pass ends the page's fault (R492, R495). -/
  bad : List Nat := []
  faultSeq : Option Nat := Option.none
  /-- The last code of each channel. -/
  codes : List (Nat × Nat) := []
deriving DecidableEq, Repr

/-! ### Start-up (R496 to R515) -/

/-- An entry of the defect list, or a runtime record in the form of one (R506, R517). -/
structure DefEntry where
  kind : Nat
  source : Nat
  unit : Nat
  detail : Nat
  start : Nat
deriving DecidableEq, Repr

/-- A core that is held until its image is present: its page, the sequence numbers it lacks and the reports it has made (R502). -/
structure CoreLoad where
  core : Page
  lacks : List Nat
  round : Nat
deriving DecidableEq, Repr

/-- What the board flash holds for the trim image: none, one of another serial number, or the device's own (R1, R496). -/
inductive TrimImage where
  | absent
  | foreign
  | own
deriving DecidableEq, Repr

/-- The enrolment section of the PUF helper region, by its COMMIT word (R522). -/
inductive Enrolment where
  | absent
  | uncommitted
  | committed
deriving DecidableEq, Repr

/-- Board flash and the state the aux island, the lane routers' domain and the Steward's retained memory keep of starts. -/
structure Boot where
  /-- VDD_AUX and AUX_3V3 are valid, and the address straps sampled then (R558, R554). -/
  strap : Option (BitVec 3) := Option.none
  /-- RAIL_EN outputs that are high (R554). -/
  railEn : List Nat := []
  /-- The rail group enabled last, while a cold start brings the rails up (R498). -/
  group : Option Nat := Option.none
  /-- WARM_RST_N is low (R558). -/
  warmLow : Bool := false
  /-- A cold start is under way. -/
  cold : Bool := false
  /-- A device reset's bring-up takes the full path; BOOT.PHASE read STOPPED before that reset (R510). -/
  full : Bool := false
  wasStopped : Bool := false
  /-- Cores being loaded (R502). -/
  loads : List CoreLoad := []
  /-- Units the broadcast of a start has retired (R502, R507). -/
  found : List DefEntry := []
  /-- Active bank; bytes of the banks that FW_UPDATE has written, at bank × 2^32 + offset; the OFFSET it expects next (R496, R516). -/
  bank : Nat := 0
  flash : List Host.Cell := []
  next : Nat := 0
  /-- An update succeeded: the new image takes effect by the full path (R516). -/
  updated : Bool := false
  /-- What the System builder has programmed into the board flash (R1, R522). -/
  trim : TrimImage := .own
  enrol : Enrolment := .uncommitted
  /-- The sealed defect list, START_CNT, whether the seal verified, and the runtime records (R506, R507, R509). -/
  defects : List DefEntry := []
  starts : Nat := 0
  sealed : Bool := false
  runtime : List DefEntry := []
  /-- Runtime events whose record is still to be written to the flash (R496). -/
  unwritten : List DefEntry := []
  /-- The reset is released and its bring-up runs. -/
  released : Bool := false
deriving DecidableEq, Repr

/-! ### Orarn (R520 to R534) -/

/-- Orarn beyond its page. -/
structure Orarn where
  /-- The running firmware bank's header digest and REV, as measured at the start (R520, R524). -/
  fwDigest : BitVec 384 := 0
  fwRev : Word := 0
  /-- The regions of the measured plan: base and length (R527). -/
  regions : List (Nat × Nat) := []
  /-- SPDM sessions opened and not finished, and sessions finished; streams with keys (R531). -/
  opened : Nat := 0
  finished : Nat := 0
  ideKeys : List Nat := []
deriving DecidableEq, Repr

end Sys2Proof.Machine
end

