-- ==== Sys2Proof/Machine/State.lean ====
section
/-! DEFINITION. The state of one L9 as plain data: the queue of waiting commands, model time, the register file, the one memory
of cisterns and granaries, and a record per unit for the state its chapter gives it beyond its registers. -/
namespace Sys2Proof.Machine

/-! ### The croft: reeve (08_order_streams) -/

/-- An order issued to an engine and not yet complete (R245, R246). -/
structure Issued where
  /-- Issue number within the croft, rising. -/
  serial : Nat
  /-- Index in the order stream (R240). -/
  idx : Nat
  word : OrderWord
  /-- Unit by its bit of MASK: 0 well group, 1 to 4 pumps, 5 mill (R244). -/
  unit : Nat
  /-- Engine code of R266. -/
  engine : Nat
  /-- Whether the engine has started it (R245). -/
  started : Bool
  /-- Whether the reeve passed WIDE with it (R254). -/
  wide : Bool
deriving DecidableEq, Repr

/-- A verified chunk the reeve holds (R242): its number and its slots that are not zero. -/
structure Chunk where
  no : Nat
  slots : List (Nat × OrderWord)
deriving DecidableEq, Repr

/-- A pending signal (R257): the issue number before which orders of its MASK are waited for, its index and its word. -/
structure PendSig where
  before : Nat
  idx : Nat
  word : OrderWord
deriving DecidableEq, Repr

/-- What the reeve waits on (`REEVE.STATUS.WAIT_KIND`, R269), and a HALT order's wait (R262). -/
inductive Wait where
  | none
  | queueFull
  | token
  | bell (target : Nat)
  | fence
  | seed
  | verdict
  | stepBarrier
  | haltOrder
deriving DecidableEq, Repr

/-- One loop register (R260). -/
structure LoopReg where
  count : Nat
  active : Bool
deriving DecidableEq, Repr

/-- The state of a reeve beyond its registers. -/
structure Reeve where
  /-- Orders issued and not complete, oldest first. -/
  orders : List Issued := []
  /-- Number of the next order to be issued. -/
  serial : Nat := 0
  pend : List PendSig := []
  /-- The chunks held, at most two (R242). -/
  chunks : List Chunk := []
  /-- A chunk that failed its check, and the cause it stops with (R241). -/
  failed : Option (Nat × Nat) := Option.none
  /-- The chunk whose first fetch failed its CRC (R241). -/
  refetch : Option Nat := Option.none
  wait : Wait := .none
  /-- The halt reason taken, while the drain of R263 runs. -/
  halting : Option Nat := Option.none
  /-- An open span: its opening index and its layer (R254). -/
  span : Option (Nat × Nat) := Option.none
  /-- WIDE: the span's repeat is in progress (R254). -/
  wide : Bool := false
  /-- Opening indices of the spans already repeated in this step (R213). -/
  repeated : List Nat := []
  /-- Whether an order of the open span reported OVF, and the scale records such orders named (R213). -/
  spanOvf : Bool := false
  spanRecs : List Nat := []
  loops : List LoopReg := [⟨0, false⟩, ⟨0, false⟩, ⟨0, false⟩, ⟨0, false⟩]
  /-- Token counts, 0 where not listed (R256). -/
  tokens : List (Nat × Nat) := []
  /-- Whether the croft's step report stands at the barrier (R255). -/
  reported : Bool := false
  /-- Whether the watchdog expired: nothing but a croft reset leaves that state (R267). -/
  dead : Bool := false
  /-- When the latest uncorrectable read halted the croft, in model time, and the engine code recorded (R268). -/
  ueAt : Option (Nat × Nat) := Option.none
deriving DecidableEq, Repr

/-- The state of a croft beyond its registers and its cistern slice. -/
structure Croft where
  reeve : Reeve := {}
  /-- Rounding generators by local lane that differ from the state an R45 seed with v = `laneSeed` gives (R43). -/
  lanes : List (Nat × BitVec 32) := []
  laneSeed : BitVec 32 := 0
  /-- Steps that the generators not listed have made since that seed, while FREE (R47). -/
  laneRan : Nat := 0
  /-- DRAW orders in progress (R85). -/
  runs : List Run := []
  /-- Draw records from the end of their last slice to their merge, oldest first (R190). -/
  leat : List DrawRec := []
  /-- Escalated parts that wait, oldest first, and the part being computed (R132, R170). -/
  escs : List EscPart := []
  escNow : Option EscPart := Option.none
  plumb : Option PlumbJob := Option.none
  mill : Option MillRun := Option.none
  /-- Tally slots that are not empty (R227). -/
  tally : List (Nat × TallySlot) := []
  /-- Results written in a widened format on the span's repeat (R214). -/
  wideRefs : List WideRef := []
  /-- Incoming traffic that waits for IN cycles, oldest first (R325). -/
  inJobs : List InJob := []
  /-- The queue each owner's ASYNC turns took last, by owner code (R325). -/
  asyncAt : List (Nat × Nat) := []
  /-- Units stopped by a residue mismatch, by their place in RES_LOG.ENGINE (R430). -/
  stopped : List Nat := []
deriving DecidableEq, Repr

/-! ### The device -/

/-- A grain of reset (R15). -/
inductive Grain where
  | core (p : Page)
  | croft (c : Nat)
  | hamlet (h : Nat)
  | device
deriving DecidableEq, Repr

/-- A reset in progress: its grain and whether its drain has ended (R15, R512). -/
structure ResetRun where
  grain : Grain
  drained : Bool
deriving DecidableEq, Repr

/-- A token signal on its way: its sending croft (none for Crier and for other devices), target, token and count (R257); the queue of
this device it comes from, and whether a control message carries it (R337, R357). -/
structure TokSig where
  src : Option Nat
  dst : Nat
  token : Nat
  count : Nat
  queue : Option Nat := Option.none
  msg : Bool := false
deriving DecidableEq, Repr

/-- The state of a hamlet beyond its registers. -/
structure Hamlet where
  /-- Supply warning: 0 none, 1 asserted, 2 released and not yet settled (R134, R474). -/
  warn : Nat := 0
deriving DecidableEq, Repr

/-- An exchange a follower has open on a link: its SEQ, t1 to t3 in 1/16 ns, and whether the SYNC had PLOCK set (R400). -/
structure Exchange where
  link : Nat
  seq : Nat
  t1 : Int
  t2 : Int
  t3 : Int
  plock : Bool
deriving DecidableEq, Repr

/-- The Bell's exchanges. -/
structure BellSync where
  /-- SEQ of the last SYNC sent on each link. -/
  sent : List (Nat × Nat) := []
  /-- Periods so far, and the links whose device has had a COARSE (R399). -/
  periods : Nat := 0
  coarse : List Nat := []
  /-- Open exchanges of a follower, at most one a link. -/
  opened : List Exchange := []
  /-- Successive misses on the link in use, successive good exchanges while acquiring, and successive exchanges completed on the
  parent link while on the alternate. -/
  misses : Nat := 0
  good : Nat := 0
  back : Nat := 0
  /-- When the last exchange completed, in model time. -/
  at' : Nat := 0
  /-- SECONDS at the last BELL_PPS edge, and SEQ of the next BELL_TOD word (R405). -/
  seconds : Nat := 0
  todSeq : Nat := 0
deriving DecidableEq, Repr

/-- The device-wide state beyond its registers. -/
structure Device where
  resets : List ResetRun := []
  /-- Pages whose checks wait, by BAR0 base, in order of arrival (R540). -/
  checks : List Nat := []
  /-- Absorbed traffic by the page, as its BAR0 base, that owns the unit under reset (R16). -/
  absorbed : List (Nat × Nat) := []
  /-- A step-ending event the Steward has yet to act on (R562). -/
  stepEnd : Bool := false
  /-- It is to raise ALARM for it (R562). -/
  stepAlarm : Bool := false
  /-- Steward messages heard, each forwarded once (R424). -/
  heard : List StewMsg := []
  /-- FAULT_N is asserted (R431). -/
  faultN : Bool := false
  /-- When the Steward watchdog was last restarted, in model time (R431). -/
  wdogAt : Nat := 0
  /-- What partner and ward answered at the last enable of the Bucket page (R416). -/
  partner : Option Peer := Option.none
  ward : Option Peer := Option.none
  /-- Token signals on their way, those of control messages delivered here among them (R257, R291, R337, R357). -/
  signals : List TokSig := []
  /-- Distinct layers that fell back in this step (R216). -/
  fallLayers : List Nat := []
  /-- Events of Watch inputs the Steward has yet to pass on (R409). -/
  watchDue : List Nat := []
  /-- Devices known to have halted after an abandonment (R218). -/
  haltedDevs : List Nat := []
  /-- Runtime spare assignments the Steward keeps until the next cold start: well, spare and logical column (R77). -/
  spareRuns : List (Nat × Nat × Nat) := []
  /-- Contributions on their way to the device half, with their group (R225). -/
  contribs : List (Nat × Contrib) := []
  /-- Compare groups that hold a contribution: the open compare, and those that arrived contributions open after it (R225). -/
  groups : List (Nat × List (List Contrib)) := []
  /-- Device entries of Tally (R228). -/
  entries : List (Nat × TallyEntry) := []
  /-- Bits of cistern words that differ from their code word, by word address / 8, data in bits 63 to 0; and of the parity words,
  by stripe address / 256 (R298, R304). (DEDUCED, assumption 42) -/
  flips : List (Nat × BitVec 72) := []
  parityFlips : List (Nat × BitVec 72) := []
  /-- Words found uncorrectable, which hold their stored bits (R304, R301). -/
  deadWords : List Nat := []
  /-- Stripes whose exclusive OR differs from the parity word, and by what (R305). -/
  parityErr : List (Nat × BitVec 64) := []
  /-- Symbols of granules that differ from their code word, by granule address / 64, as 68 bytes (R309); granules found
  uncorrectable. -/
  granFlips : List (Nat × BitVec 544) := []
  deadGranules : List Nat := []
  /-- Granules to be read again after a parity failure (R310). -/
  rereads : List Reread := []
  /-- Granules whose last write's parity the stack has reported once (R310). -/
  writeRetries : List Nat := []
  /-- Next granule of each hamlet's patrol scrub, and failed temperature readouts in a row (R314, R322). -/
  scrubAt : List (Nat × Nat) := []
  tempFails : List (Nat × Nat) := []
  snap : Option Snap := Option.none
  /-- The boundary pending requests name (R417, R423). -/
  pendingB : Option Nat := Option.none
  /-- The device has passed a step boundary and not yet released it (R418). -/
  boundary : Bool := false
  /-- A stop was pending when it passed it (R546). -/
  stopHere : Bool := false
  restore : Option Restore := Option.none
  /-- Acknowledgements and Bell messages delivered to this device and not yet acted on (R357). -/
  acks : List Ctrl := []
  bells : List (Nat × BitVec 61) := []
  /-- Open reassembly entries (R361). -/
  entriesIn : List Entry := []
  /-- Incarnations of the crofts that are not 0, and the crofts within 3 ms of an advance (R340). -/
  incs : List (Nat × Nat) := []
  incWindow : List Nat := []
  /-- Ledger digests that are not zero: ((bank × 2 + direction) × 16 + link) × 256 + collective; granules counted towards the next
  2^20, by page × 2 + direction; and the digest each page has latched (R391, R393). -/
  digests : List (Nat × BitVec 128) := []
  granules : List (Nat × Nat) := []
  latched : List (Nat × BitVec 128) := []
  /-- Bell time of G0 in 10^-9 ns, so that a rate correction of 0.001 ppm is one unit a nanosecond (R395). -/
  bell : Nat := 0
  /-- What the Bell keeps of its exchanges (R398 to R401). -/
  bellSync : BellSync := {}
  /-- Failures in a row of the lane flit in progress, by channel × 2 + direction (R432). -/
  laneFails : List (Nat × Nat) := []
  host : HostPort := {}
  crier : CrierState := {}
  power : Power := {}
  gauge : Gauge := {}
  boot : Boot := {}
  orarn : Orarn := {}
deriving DecidableEq, Repr

/-- What the block sends outside: completions, messages and pins, newest last. -/
inductive Out where
  /-- A frame sent on a link, as the symbols of each of its twelve lanes (R346, R350). -/
  | frame (link : Nat) (lanes : List (List (BitVec 2)))
  /-- An exchange message to the Bucket of the device beyond a link, and this device's answer to one (R416). -/
  | exchange (link : Nat)
  | exchangeAnswer (link : Nat) (p : Peer)
  /-- A rising edge of BELL_PPS, and a word on BELL_TOD (R404, R405). -/
  | pps (seconds : Nat)
  | tod (word : BitVec 96)
  /-- The value a register read, a claim or a mailbox read returns. -/
  | read (v : Nat)
  /-- The completion of a BAR or configuration access: successful with its data, Unsupported Request, or Completer Abort (R444). -/
  | done (bs : List Byte)
  | ur
  | ca
  /-- A host access sent to another village device on a link (R443). -/
  | hostAccess (link : Nat) (addr : Nat) (write : Bool) (bs : List Byte)
  /-- An MSI-X message (R446). -/
  | msix (v : Nat) (addr : BitVec 64) (data : Word)
  /-- An SMBus block read's bytes (R515), an SPDM response (R531), a runtime record written to the board flash (R496). -/
  | smbus (bs : List Byte)
  | spdm (bs : List Byte)
  | record (e : DefEntry)
deriving DecidableEq, Repr

/-- The state of the block. -/
structure State where
  /-- Commands that wait, first in first out. -/
  pending : List Instr
  /-- Model time in ns. -/
  now : Nat
  /-- Free values taken so far; the argument of the opaque constants of Config. -/
  seq : Nat
  /-- Registers by BAR0 offset; an unlisted one holds its reset value (R6). -/
  regs : List (Nat × Word)
  /-- Bytes of granaries and cisterns by local address (R21); an unlisted one reads zero. -/
  mem : List Host.Cell
  /-- Croft records by global croft; an unlisted one is as after reset. -/
  crofts : List (Nat × Croft)
  /-- Well records by global well; an unlisted one is as after reset. -/
  wells : List (Nat × Well)
  /-- PUMP orders in progress by global pump. -/
  pumps : List (Nat × PumpRun)
  hamlets : List (Nat × Hamlet)
  /-- Queue records by global queue; an unlisted one is as after reset. -/
  queues : List (Nat × Queue)
  /-- Link records; an unlisted one is as after reset. -/
  links : List (Nat × Link)
  dev : Device
  out : List Out
deriving DecidableEq, Repr

/-- Reasons the block can stop with a fault. No meaning of this model raises one. -/
inductive Fault where
  /-- No meaning raises it: the closed type needs a constructor. Safe: a stop proves nothing of the hardware. -/
  | unused
deriving DecidableEq, Repr

/-- Reasons the block can refuse a command. -/
inductive Refusal where
  /-- Raised by an arm of exec for a row without a meaning in this model. Safe: the model stops. -/
  | notModelled (mnemonic : String)
deriving DecidableEq, Repr

/-- The block right after reset: without main power and aux power, every unit held in reset until a cold start ends (R498, R499). (DESIGN
CHOICE, assumption 2) (DESIGN CHOICE, assumption 4) (DESIGN CHOICE, assumption 5) (DESIGN CHOICE, assumption 144) -/
def State.reset : State where
  pending := []
  now := 0
  seq := 0
  regs := []
  mem := []
  crofts := []
  wells := []
  pumps := []
  hamlets := []
  queues := []
  links := []
  dev := { resets := [⟨.device, true⟩] }
  out := []

/-- The record of croft `c`. -/
def State.croft (s : State) (c : Nat) : Croft := (Sparse.get? s.crofts c).getD {}

/-- The record of global well `w`. -/
def State.well (s : State) (w : Nat) : Well := (Sparse.get? s.wells w).getD {}

/-- The PUMP order in progress on global pump `p`. -/
def State.pumpRun (s : State) (p : Nat) : Option PumpRun := Sparse.get? s.pumps p

/-- The record of hamlet `h`. -/
def State.hamlet (s : State) (h : Nat) : Hamlet := (Sparse.get? s.hamlets h).getD {}

/-- The record of global queue `q`. -/
def State.queue (s : State) (q : Nat) : Queue := (Sparse.get? s.queues q).getD {}

/-- The record of link `q`. -/
def State.link (s : State) (q : Nat) : Link := (Sparse.get? s.links q).getD {}

/-- The reeve of croft `c`. -/
def State.reeve (s : State) (c : Nat) : Reeve := (s.croft c).reeve

end Sys2Proof.Machine
end

