-- ==== Sys2Proof/Machine/Ops.lean ====
section
/-! DEFINITION. The named operations: primitive effects and programs of effects, register reads and writes, counters, Crier
lines, page faults, halts and order faults. Every command's meaning is a program of these effects, run on the state. -/
namespace Sys2Proof.Machine

/-! ### Effects -/

/-- A primitive effect on the state. None touches the queue of waiting commands. -/
inductive Act where
  | reg (a : Nat) (v : Word)
  | regsErase (lo hi : Nat)
  | bytes (a : Nat) (bs : List Byte)
  | memErase (lo hi : Nat)
  | croft (c : Nat) (r : Croft)
  | croftErase (lo hi : Nat)
  | well (w : Nat) (r : Well)
  | wellErase (lo hi : Nat)
  | pump (p : Nat) (r : PumpRun)
  | pumpErase (lo hi : Nat)
  | hamlet (h : Nat) (r : Hamlet)
  | queue (q : Nat) (r : Queue)
  | queueErase (lo hi : Nat)
  | link (q : Nat) (r : Link)
  | linkErase (lo hi : Nat)
  | dev (d : Device)
  | out (o : Out)
  | seq
deriving DecidableEq, Repr

/-- The state after a primitive effect. -/
def Act.apply : Act → State → State
  | .reg a v, s => { s with regs := Sparse.set s.regs a v }
  | .regsErase lo hi, s => { s with regs := Sparse.eraseRange s.regs lo hi }
  | .bytes a bs, s => { s with mem := Memory.writeBytes s.mem a bs }
  | .memErase lo hi, s => { s with mem := Sparse.eraseRange s.mem lo hi }
  | .croft c r, s => { s with crofts := Sparse.set s.crofts c r }
  | .croftErase lo hi, s => { s with crofts := Sparse.eraseRange s.crofts lo hi }
  | .well w r, s => { s with wells := Sparse.set s.wells w r }
  | .wellErase lo hi, s => { s with wells := Sparse.eraseRange s.wells lo hi }
  | .pump p r, s => { s with pumps := Sparse.set s.pumps p r }
  | .pumpErase lo hi, s => { s with pumps := Sparse.eraseRange s.pumps lo hi }
  | .hamlet h r, s => { s with hamlets := Sparse.set s.hamlets h r }
  | .queue q r, s => { s with queues := Sparse.set s.queues q r }
  | .queueErase lo hi, s => { s with queues := Sparse.eraseRange s.queues lo hi }
  | .link q r, s => { s with links := Sparse.set s.links q r }
  | .linkErase lo hi, s => { s with links := Sparse.eraseRange s.links lo hi }
  | .dev d, s => { s with dev := d }
  | .out o, s => { s with out := s.out ++ [o] }
  | .seq, s => { s with seq := s.seq + 1 }

/-- A program of effects: it ends, does an effect and goes on, or reads the state and goes on. -/
inductive Prog where
  | done
  | act (a : Act) (k : Prog)
  | get (f : State → Prog)

/-- The state after a program. -/
def Prog.run : Prog → State → State
  | .done, s => s
  | .act a k, s => Prog.run k (a.apply s)
  | .get f, s => Prog.run (f s) s

/-- One program, then another. -/
def Prog.seq : Prog → Prog → Prog
  | .done, q => q
  | .act a k, q => .act a (Prog.seq k q)
  | .get f, q => .get (fun s => Prog.seq (f s) q)

/-- Programs one after the other. -/
def Prog.all : List Prog → Prog
  | [] => .done
  | p :: ps => Prog.seq p (Prog.all ps)

/-- A program for each element of a list, in order. -/
def Prog.each {α : Type} (l : List α) (f : α → Prog) : Prog := Prog.all (l.map f)

/-- A program that runs only where `b` holds. -/
def Prog.when (b : Bool) (p : Prog) : Prog := if b then p else .done

/-- One effect. -/
def eff (a : Act) : Prog := .act a .done

/-- A program that runs only where `b` holds of the state it is reached in. -/
def Prog.whenever (b : State → Bool) (p : Prog) : Prog := .get (fun s => Prog.when (b s) p)

/-- The outcome of a meaning: the state its program leaves. (DEDUCED, assumption 6) -/
def Prog.next (p : Prog) (s : State) : Host.Outcome State Fault Refusal := .next (p.run s)

/-! ### Pages -/

def pgPlan : Page := ⟨.plan, 0⟩
def pgDevctl : Page := ⟨.devctl, 0⟩
def pgHost : Page := ⟨.host, 0⟩
def pgCrier : Page := ⟨.crier, 0⟩
def pgOrarn : Page := ⟨.orarn, 0⟩
def pgPower : Page := ⟨.power, 0⟩
def pgGauge : Page := ⟨.gauge, 0⟩
def pgNum : Page := ⟨.numstep, 0⟩
def pgFabric : Page := ⟨.fabric, 0⟩
def pgPort : Page := ⟨.port, 0⟩
def pgBell : Page := ⟨.bell, 0⟩
def pgWindow : Page := ⟨.window, 0⟩
def pgWatch : Page := ⟨.watch, 0⟩
def pgBucket : Page := ⟨.bucket, 0⟩
def pgFeed : Page := ⟨.feed, 0⟩
def pgDefect : Page := ⟨.defect, 0⟩
def pgLedger (g : Nat) : Page := ⟨.ledger, g⟩
def pgLink (q : Nat) : Page := ⟨.link, q⟩
def pgHamlet (h : Nat) : Page := ⟨.hamlet, h⟩
def pgGran (h : Nat) : Page := ⟨.granary, h⟩
def pgCroft (c : Nat) : Page := ⟨.croft, c⟩
def pgReeve (c : Nat) : Page := ⟨.reeve, c⟩
def pgMill (c : Nat) : Page := ⟨.mill, c⟩
def pgSluice (c : Nat) : Page := ⟨.sluice, c⟩
def pgPlumb (c : Nat) : Page := ⟨.plumb, c⟩
def pgTally (c : Nat) : Page := ⟨.tally, c⟩
def pgOwn (c : Nat) : Page := ⟨.own, c⟩
def pgCist (c : Nat) : Page := ⟨.cistern, c⟩
def pgPump (g : Nat) : Page := ⟨.pump, g⟩
def pgWell (w : Nat) : Page := ⟨.well, w⟩
/-- The queue group page of global queue `q`: groups of eight (R345). -/
def pgQueue (q : Nat) : Page := ⟨.qgroup, q / 8⟩
/-- Offset of queue `q`'s block past the first in its group page (R345). -/
def qblk (q : Nat) : Nat := (q % 8) * 0x40

/-- The croft whose grain holds the page, if any. -/
def Page.croft? (p : Page) : Option Nat :=
  match p.kind with
  | .croft | .reeve | .mill | .sluice | .plumb | .tally | .own | .cistern => some p.inst
  | .pump => some (p.inst / 4)
  | .well | .qgroup => some (p.inst / 16)
  | _ => none

/-- The hamlet whose grain holds the page, if any. -/
def Page.hamlet? (p : Page) : Option Nat :=
  match p.kind with
  | .hamlet | .granary => some p.inst
  | _ => p.croft?.map (· / 16)

/-- Whether a reset of grain `g` includes the block of page `p` (R6, R15). -/
def Grain.covers (g : Grain) (p : Page) : Bool :=
  match g with
  | .core q => decide (p = q)
  | .croft c => decide (p.croft? = some c)
  | .hamlet h => decide (p.hamlet? = some h)
  | .device => true

/-- Whether the block of page `p` is under reset (R18). -/
def State.underReset (s : State) (p : Page) : Bool := s.dev.resets.any (fun r => r.grain.covers p)

/-- Whether croft `c` as a whole is under reset. -/
def State.croftUnderReset (s : State) (c : Nat) : Bool := s.underReset (pgCroft c)

/-! ### Registers -/

/-- The stored word of the register at offset `o` of page `p`, reserved bits included (R5, R6). -/
def State.reg (s : State) (p : Page) (o : Nat) : Word := (Sparse.get? s.regs (p.base + o)).getD (resetWord p o)

/-- The stored value of a field. -/
def State.fld (s : State) (p : Page) (f : Fld) : Nat := ((s.reg p f.off).toNat / 2 ^ f.lo) % 2 ^ f.width

/-- Whether a one-bit field reads 1. -/
def State.bit (s : State) (p : Page) (f : Fld) : Bool := s.fld p f != 0

/-- Store a register word. -/
def setReg (p : Page) (o : Nat) (v : Word) : Prog := eff (.reg (p.base + o) v)

/-- A word with the field's bits replaced by the low bits of `v`. -/
def Fld.insert (f : Fld) (w : Word) (v : Nat) : Word :=
  let m : Nat := (2 ^ f.width - 1) * 2 ^ f.lo
  (w &&& ~~~ (BitVec.ofNat 32 m)) ||| BitVec.ofNat 32 ((v % 2 ^ f.width) * 2 ^ f.lo)

/-- Set a field. -/
def setFld (p : Page) (f : Fld) (v : Nat) : Prog :=
  .get (fun s => setReg p f.off (f.insert (s.reg p f.off) v))

/-- Set a one-bit field. -/
def setBit (p : Page) (f : Fld) (b : Bool) : Prog := setFld p f (if b then 1 else 0)

/-- The value of a 32-bit counter after `n` more events: it holds at 0xFFFF_FFFF (R64, R106 and the other counter rules). -/
def satAdd (v : Word) (n : Nat) : Word := BitVec.ofNat 32 (min (v.toNat + n) 0xFFFFFFFF)

/-- Advance a counter by `n`. -/
def bumpBy (p : Page) (f : Fld) (n : Nat) : Prog := .get (fun s => setReg p f.off (satAdd (s.reg p f.off) n))

/-- Advance a counter by one. -/
def bump (p : Page) (f : Fld) : Prog := bumpBy p f 1

/-- A write without effect: the page's ignored-write count advances (R4). (DEDUCED, assumption 109) -/
def ignored (p : Page) : Prog := bump p R.IGNORED_CNT

/-- STATE values of R539. -/
def stDisabled : Nat := 0
def stEnabled : Nat := 1
def stRefused : Nat := 2
def stBusy : Nat := 3
def stFault : Nat := 4

/-- Whether the page is enabled: ENABLE stands and its check was accepted, whether or not the page has since entered FAULT. -/
def State.enabled (s : State) (p : Page) : Bool :=
  s.bit p R.CTL_ENABLE && (s.fld p R.STATE_STATE == stEnabled || s.fld p R.STATE_STATE == stFault)

/-- A page raises its Crier line (R455); while it is under reset its line is not raised (R456). (DEDUCED, assumption 88) -/
def raiseLine (p : Page) : Prog := .get (fun s => if s.underReset p then .done else setFld p R.CRIER_LINE_RAISED 1)

/-- A page reads FAULT with a cause and an address (R539). -/
def faultRecord (p : Page) (cause addr : Nat) : Prog := .all [
  setFld p R.STATE_STATE stFault, setReg p R.FAULT_CAUSE.off (BitVec.ofNat 32 cause),
  setReg p R.FAULT_ADDR_LO.off (BitVec.ofNat 32 addr), setReg p R.FAULT_ADDR_HI.off (BitVec.ofNat 32 (addr / 2 ^ 32))]

/-- A page enters FAULT with a cause and an address; a page already in FAULT keeps its record (R539). (DEDUCED, assumption 89) -/
def pageFault (p : Page) (cause addr : Nat) : Prog := .get (fun s =>
  if s.fld p R.STATE_STATE = stFault then .done else faultRecord p cause addr)

/-- Clear every register of the page to its reset value (R6). -/
def pageReset (p : Page) : Prog := eff (.regsErase p.base (p.base + 0x1000))

/-! ### Records -/

def modCroft (c : Nat) (f : Croft → Croft) : Prog := .get (fun s => eff (.croft c (f (s.croft c))))
def modReeve (c : Nat) (f : Reeve → Reeve) : Prog := modCroft c (fun r => { r with reeve := f r.reeve })
def modWell (w : Nat) (f : Well → Well) : Prog := .get (fun s => eff (.well w (f (s.well w))))
def modPump (p : Nat) (f : PumpRun → PumpRun) : Prog := .get (fun s =>
  match s.pumpRun p with
  | some r => eff (.pump p (f r))
  | none => .done)
def modHamlet (h : Nat) (f : Hamlet → Hamlet) : Prog := .get (fun s => eff (.hamlet h (f (s.hamlet h))))
def modQueue (q : Nat) (f : Queue → Queue) : Prog := .get (fun s => eff (.queue q (f (s.queue q))))
def modLink (q : Nat) (f : Link → Link) : Prog := .get (fun s => eff (.link q (f (s.link q))))
/-- Put flits in a link's outbound share (R359). -/
def sendFlits (l key : Nat) (fs : List Flit) : Prog := modLink l (fun r => { r with
  tx := Sparse.set r.tx key ((Sparse.get? r.tx key).getD [] ++ fs) })

/-- Where flits of owner code `own` (R294) wait for outbound share `sh`: share 15 by its owner (R285). -/
def txKey (own sh : Nat) : Nat :=
  if sh = 15 then (match own with | 3 => 16 | 4 => 18 | _ => 17) else sh

def modDev (f : Device → Device) : Prog := .get (fun s => eff (.dev (f s.dev)))
def emit (o : Out) : Prog := eff (.out o)

/-- The absorbed-traffic count of the page that owns a unit under reset advances (R16). A page without a counter of its own for it keeps
the count beyond its registers. (DEDUCED, assumption 57) -/
def absorbAt (p : Page) (n : Nat) : Prog := modDev (fun d => { d with
  absorbed := Sparse.set d.absorbed p.base ((Sparse.get? d.absorbed p.base).getD 0 + n) })

/-! ### Memory -/

/-- Byte size of a cistern slice, 240 MiB (R21). -/
def sliceSize : Nat := 0xF000000

/-- Local address of slice offset `o` of croft `c` (R21). -/
def sliceAddr (c o : Nat) : Nat := 0x100000000000 + c * 0x10000000 + o

/-- Byte at a local address. -/
def State.byte (s : State) (a : Nat) : Byte := Memory.read s.mem a

/-- `n` bytes from a local address on. -/
def State.bytes (s : State) (a n : Nat) : List Byte := (List.range n).map (fun i => s.byte (a + i))

/-- Bytes as a little-endian number. -/
def leNat : List Byte → Nat
  | [] => 0
  | b :: bs => b.toNat + 256 * leNat bs

/-- A number as `n` little-endian bytes. -/
def toLe : Nat → Nat → List Byte
  | 0, _ => []
  | n + 1, v => BitVec.ofNat 8 v :: toLe n (v / 256)

/-- A little-endian number of `n` bytes at a local address. -/
def State.le (s : State) (a n : Nat) : Nat := leNat (s.bytes a n)

/-- Little-endian number of `n` bytes at slice offset `o` of croft `c`. -/
def State.sl (s : State) (c o n : Nat) : Nat := s.le (sliceAddr c o) n

/-! ### Time -/

/-- The Bell count of G0 in ns (R395). -/
def State.bellNow (s : State) : Nat := (s.dev.bell / 10 ^ 9) % 2 ^ 64

/-- Latch the Bell count in a pair of registers. -/
def latchBell (p : Page) (lo hi : Fld) : Prog := .get (fun s =>
  .all [setReg p lo.off (BitVec.ofNat 32 s.bellNow), setReg p hi.off (BitVec.ofNat 32 (s.bellNow / 2 ^ 32))])

/-! ### Halts and order faults (R263, R264, R266) -/

/-- Whether the croft runs: its reeve issues or waits (R269). -/
def State.running (s : State) (c : Nat) : Bool := s.bit (pgReeve c) R.reeve_STATUS_RUNNING

/-- A reason to halt arises in croft `c`. The first is recorded and the drain of R263 begins: waits for a token, the Bell, a
fence, a queue or the step barrier end without effect. A later one sets MORE (R264). -/
def haltReq (c reason : Nat) : Prog := .get (fun s =>
  if !s.running c then .done
  else match (s.reeve c).halting with
    | some _ => setFld (pgReeve c) R.reeve_STATUS_MORE 1
    | none => .all [
        setFld (pgReeve c) R.reeve_STATUS_HALT_REASON reason,
        modReeve c (fun r => { r with
          halting := some reason
          reported := false
          wait := match r.wait with
            | .verdict => .verdict
            | .seed => .seed
            | _ => .none })])

/-- The step ends on the device: the Steward has yet to act, and to raise ALARM (R562). -/
def stepEnds : Prog := modDev (fun d => { d with stepEnd := true, stepAlarm := true })

/-- The Steward owes Watch an event of input `i` (R409). (DESIGN CHOICE, assumption 45) -/
def tellWatch (i : Nat) : Prog := modDev (fun d => { d with watchDue := d.watchDue ++ [i] })

/-- The event inputs: all but 9 and 10 (R409). -/
def eventInputs : List Nat := (List.range 16).filter (fun i => i != 9 && i != 10)

/-- Watch is told of an event whose input the manual does not name (R258, R313, R447, R478): which event input it is, is open. (DESIGN
CHOICE, assumption 44) -/
def tellWatchOpen : Prog := .get (fun s => .all [eff .seq, tellWatch (eventInputs.getD ((Config.openWord s.seq).toNat % 14) 15)])

/-- FAULT_IDX names order `idx` and its engine, the croft halts with reason 3 and the step ends (R266, R562). -/
def orderHalt (c idx engine : Nat) : Prog := .all [
  setFld (pgReeve c) R.reeve_FAULT_IDX_INDEX idx,
  setFld (pgReeve c) R.reeve_FAULT_IDX_ENGINE engine,
  haltReq c 3, stepEnds]

/-- An order fault: the halt of `orderHalt`, and Watch's event (R266). -/
def orderFault (c idx engine : Nat) : Prog := .all [orderHalt c idx engine, tellWatch 14]

/-- A fault of the reeve's own (R266): its page reads FAULT with the cause, its line is raised and the croft halts. -/
def reeveFault (c cause idx addr : Nat) : Prog := .all [
  pageFault (pgReeve c) cause addr,
  raiseLine (pgReeve c),
  orderFault c idx 0]

/-- The slice offset of order `i` of croft `c`'s stream (R240). -/
def State.orderOffset (s : State) (c i : Nat) : Nat :=
  s.fld (pgReeve c) R.reeve_STREAM_BASE_BASE * 0x1000 + i * 16

/-- Remove the incomplete order of the given issue number: it has completed, or ended with a fault (R246, R266). -/
def dropOrder (c serial : Nat) : Prog :=
  modReeve c (fun r => { r with orders := r.orders.filter (fun o => o.serial != serial) })

end Sys2Proof.Machine
end

