-- ==== Sys2Proof/Machine/Clock.lean ====
section
/-! DEFINITION. What time does by itself: the nanosecond that passes when no command waits. -/
namespace Sys2Proof.Machine

/-- The rate correction of the Bell in 0.001 ppm, `FREQ.ADJ` as a signed number (R395, R406). -/
def State.bellAdj (s : State) : Int :=
  let v := s.fld pgBell R.bell_FREQ_ADJ
  if v < 2 ^ 19 then v else (v : Int) - 2 ^ 20

/-- What the Bell counts in one nanosecond of the reference clock, in 10^-9 ns (R395): 0 where its supply is off (R480). (DEDUCED,
assumption 50) -/
def State.bellRate (s : State) : Nat :=
  if s.dev.power.level = .on then ((10 : Int) ^ 9 + s.bellAdj).toNat else 0

/-- One nanosecond passes: model time and the Bell count advance. Everything else that time brings about is a command. (DESIGN CHOICE,
assumption 1) -/
def State.tick (s : State) : State :=
  { s with now := s.now + 1, dev := { s.dev with bell := s.dev.bell + s.bellRate } }

end Sys2Proof.Machine
end

