-- ==== Sys2Proof/Machine/Operands.lean ====
section
/-! DEFINITION. Operand forms: the order word and its kinds (R243, R244), tensor references (R247) and argument blocks
(R249 to R252). -/
namespace Sys2Proof.Machine

/-- Bits `[lo + n - 1 : lo]` of a number. -/
def bitsOf (v lo n : Nat) : Nat := (v / 2 ^ lo) % 2 ^ n

/-- The epilogues of a PUMP order (R244). -/
inductive Epi where
  | none | smaxBwd | normBwdRms | normBwdLayer
deriving DecidableEq, Repr

/-- An order as its word decodes (R244). -/
inductive Order where
  | nop
  | halt (code : Nat)
  | fence (mask : Nat) (layer close step : Bool)
  | loop (level count target : Nat)
  | tokenWait (token count : Nat)
  | tokenSignal (token count croft mask : Nat)
  | bell (rel : Bool) (time : Nat)
  | seed (v : BitVec 32)
  | load (well image : Nat)
  | draw (n args : Nat)
  | plumb (wells : Nat) (sound : Bool)
  | pump (p shape : Nat) (epi : Epi) (args : Nat)
  | mill (op args : Nat)
  | tallyFlush (slot entry : Nat)
  | tallyClear (first last : Nat)
  | tallyCompare (group skip contrib args : Nat)
  | sluice (q count : Nat)
deriving DecidableEq, Repr

/-- LAYER of an order word (R243). -/
def orderLayer (w : OrderWord) : Nat := bitsOf w.toNat 8 10

/-- BND of an order word (R243). -/
def orderBnd (w : OrderWord) : Bool := bitsOf w.toNat 6 1 = 1

/-- Whether `used` covers every set bit of the 96-bit argument `v`: no reserved bit is set. -/
def within (v used : Nat) : Bool := v &&& used == v

/-- Whether a MILL operation code is one of R184's. -/
def millOpKnown (op : Nat) : Bool :=
  (decide (1 ≤ op) && decide (op ≤ 0x0D)) || (decide (0x10 ≤ op) && decide (op ≤ 0x12)) ||
  (decide (0x18 ≤ op) && decide (op ≤ 0x1A)) || (decide (0x20 ≤ op) && decide (op ≤ 0x22)) ||
  (decide (0x28 ≤ op) && decide (op ≤ 0x2A)) || decide (op = 0x30)

/-- Whether an argument block of `n` bytes at slice offset `o` is aligned to 64 bytes and wholly inside the slice (R244). -/
def argsOk (o n : Nat) : Bool := decide (o % 64 = 0) && decide (o + n ≤ sliceSize)

/-- Bytes of a well load image, 0x4_2000 (R251). -/
def imageSize : Nat := 0x42000

/-- Decode an order word. The error is the reeve's fault cause: 0x01 for a KIND without meaning, 0x02 for a reserved bit or a
value out of range, 0x03 for an argument block or image out of place (R244, R271). (DEDUCED, assumption 32) -/
def decodeOrder (w : OrderWord) : Except Nat Order :=
  let v := w.toNat
  let a := bitsOf v 32 32
  let b := bitsOf v 64 64
  let hdr := decide (bitsOf v 7 1 = 0) && decide (bitsOf v 18 14 = 0)
  let chk (ua ub : Nat) (range : Bool) (inSlice : Bool) (o : Order) : Except Nat Order :=
    if !(hdr && within a ua && within b ub && range) then .error 2
    else if !inSlice then .error 3 else .ok o
  match bitsOf v 0 6 with
  | 0x01 => chk 0 0 true true .nop
  | 0x02 => chk 0xFFFF 0 true true (.halt (bitsOf a 0 16))
  | 0x04 =>
    let layer := decide (bitsOf a 16 1 = 1)
    let close := decide (bitsOf a 17 1 = 1)
    let step := decide (bitsOf a 18 1 = 1)
    chk 0x7007F 0 (!(layer && step)) true (.fence (bitsOf a 0 7) layer close step)
  | 0x05 => chk 0xFFFFFF03 0xFFFFFF (bitsOf a 8 24 != 0) true (.loop (bitsOf a 0 2) (bitsOf a 8 24) (bitsOf b 0 24))
  | 0x06 =>
    if bitsOf a 0 1 = 0 then chk 0xFFFFFF01 0 (bitsOf a 16 16 != 0) true (.tokenWait (bitsOf a 8 8) (bitsOf a 16 16))
    else chk 0xFFFFFF01 0x3F7F (bitsOf a 16 16 != 0) true
      (.tokenSignal (bitsOf a 8 8) (bitsOf a 16 16) (bitsOf b 0 7) (bitsOf b 8 6))
  | 0x07 => chk 1 0xFFFFFFFFFFFFFFFF true true (.bell (bitsOf a 0 1 = 1) b)
  | 0x08 => chk 0xFFFFFFFF 0 true true (.seed (BitVec.ofNat 32 a))
  | 0x10 => chk 0xF 0xFFFFFFF true (decide (bitsOf b 0 12 = 0) && decide (b + imageSize ≤ sliceSize)) (.load (bitsOf a 0 4) b)
  | 0x11 => chk 0xFFFFFF 0xFFFFFFF (bitsOf a 0 24 != 0) (argsOk b 64) (.draw (bitsOf a 0 24) b)
  | 0x12 => chk 0x1FFFF 0 (bitsOf a 0 16 != 0) true (.plumb (bitsOf a 0 16) (bitsOf a 16 1 = 1))
  | 0x14 =>
    let epi := match bitsOf a 8 2 with | 0 => Epi.none | 1 => .smaxBwd | 2 => .normBwdRms | _ => .normBwdLayer
    chk 0x373 0xFFFFFFF true (argsOk b 128) (.pump (bitsOf a 0 2) (bitsOf a 4 3) epi b)
  | 0x18 => chk 0xFF 0xFFFFFFF true (argsOk b 128) (.mill (bitsOf a 0 8) b)
  | 0x1C =>
    match bitsOf a 0 2 with
    | 0 => chk 0xFF03 0x3FF true true (.tallyFlush (bitsOf a 8 8) (bitsOf b 0 10))
    | 1 => chk 0xFFFF03 0 (decide (bitsOf a 8 8 ≤ bitsOf a 16 8)) true (.tallyClear (bitsOf a 8 8) (bitsOf a 16 8))
    | 2 => chk 0x7FFF0F03 0xFFFFFFF true (argsOk b 64)
        (.tallyCompare (bitsOf a 8 4) (bitsOf a 16 8) (bitsOf a 24 7 + 1) b)
    | _ => .error 2
  | 0x20 => chk 0xFFFF007F 0 (bitsOf a 16 16 != 0) true (.sluice (bitsOf a 0 7) (bitsOf a 16 16))
  | _ => .error 1

/-- The tensor reference in the 16 bytes at slice offset `o` of croft `c` (R247). -/
def State.tref (s : State) (c o : Nat) : TRef :=
  let w0 := s.sl c o 4
  let w1 := s.sl c (o + 4) 4
  let w2 := s.sl c (o + 8) 4
  let w3 := s.sl c (o + 12) 4
  { elem := bitsOf w0 0 28, fmt := bitsOf w0 28 4, scale := bitsOf w1 0 28, block := bitsOf w1 28 3,
    hasPeel := bitsOf w1 31 1 = 1, peel := bitsOf w2 0 28, smode := bitsOf w2 28 2, rnd := bitsOf w2 30 2,
    pitch := bitsOf w3 0 28, trans := bitsOf w3 28 1 = 1, reserved := bitsOf w3 29 3 }

/-- Read a DRAW block (R249). -/
def State.drawArgs (s : State) (c o : Nat) : DrawArgs :=
  let nw := s.sl c (o + 4) 4
  let ww := s.sl c o 4
  { wells := (List.range (bitsOf nw 0 3 + 1)).map (fun i => bitsOf ww (4 * i) 4), wellsWord := ww, nwellsWord := nw,
    input := s.tref c (o + 8), k := s.sl c (o + 0x18) 4, k0 := s.sl c (o + 0x1C) 4, t0 := s.sl c (o + 0x20) 4,
    rows := s.sl c (o + 0x24) 4, out := s.sl c (o + 0x28) 4, stride := s.sl c (o + 0x2C) 4,
    reserved := s.sl c (o + 0x30) 16 }

/-- HAS_REC of a PUMP block. -/
def PumpArgs.hasRec (p : PumpArgs) : Bool := p.flags % 2 = 1

/-- Read a PUMP block (R250). -/
def State.pumpArgs (s : State) (c o : Nat) : PumpArgs :=
  { a := s.tref c o, b := s.tref c (o + 0x10), c := s.tref c (o + 0x20), e0 := s.tref c (o + 0x30),
    e1 := s.tref c (o + 0x40), e2 := s.tref c (o + 0x50), m := s.sl c (o + 0x60) 4, n := s.sl c (o + 0x64) 4,
    k := s.sl c (o + 0x68) 4, rc := s.sl c (o + 0x6C) 4, scratch := s.sl c (o + 0x70) 4, flags := s.sl c (o + 0x74) 4,
    reserved := s.sl c (o + 0x78) 8 }

def MillArgs.tslot (m : MillArgs) : Nat := bitsOf m.flags 0 8
def MillArgs.tsrc (m : MillArgs) : Nat := bitsOf m.flags 8 2
def MillArgs.hasRec (m : MillArgs) : Bool := bitsOf m.flags 10 1 = 1
def MillArgs.hasAmax (m : MillArgs) : Bool := bitsOf m.flags 11 1 = 1
def MillArgs.ncomb (m : MillArgs) : Nat := bitsOf m.flags 12 4 + 1
def MillArgs.rem (m : MillArgs) (i : Nat) : Bool := bitsOf m.flags (16 + i) 1 = 1
def MillArgs.topk (m : MillArgs) : Nat := bitsOf m.sel 0 9
def MillArgs.magnitude (m : MillArgs) : Bool := bitsOf m.sel 9 1 = 1
def MillArgs.budget (m : MillArgs) : Nat := bitsOf m.sel 10 10

/-- A tensor reference of zeros. -/
def TRef.zero : TRef := ⟨0, 0, 0, 0, false, 0, 0, 0, 0, false, 0⟩

/-- Slot Si of a MILL block (R251). -/
def MillArgs.slot (m : MillArgs) (i : Nat) : TRef := m.slots.getD i TRef.zero

/-- Read a MILL block (R251). -/
def State.millArgs (s : State) (c o : Nat) : MillArgs :=
  { slots := (List.range 6).map (fun i => s.tref c (o + 16 * i)), rows := s.sl c (o + 0x60) 4, rowlen := s.sl c (o + 0x64) 4,
    param := s.sl c (o + 0x68) 4, rc := s.sl c (o + 0x6C) 4, amax := s.sl c (o + 0x70) 4, flags := s.sl c (o + 0x74) 4,
    sel := s.sl c (o + 0x78) 4, reserved := s.sl c (o + 0x7C) 4 }

/-- Read a COMPARE block (R252). -/
def State.compareArgs (s : State) (c o : Nat) : CompareArgs :=
  { r := s.tref c o, k := s.tref c (o + 0x10), count := s.sl c (o + 0x20) 4, reserved := s.sl c (o + 0x24) 28 }

end Sys2Proof.Machine
end

