-- ==== Sys2Proof/Machine/Own.lean ====
section
/-! DEFINITION. Ownership: the rights of a phase, collisions and their record (R272 to R287), and phases (R277). -/
namespace Sys2Proof.Machine

/-- The croft's current phase (R277). -/
def State.phase (s : State) (c : Nat) : Nat := s.fld (pgOwn c) R.own_STATUS_PHASE

/-- Offset of the current phase's block past the first (R292). -/
def State.phaseOff (s : State) (c : Nat) : Nat := s.phase c * 0xC0

/-- Agents of a bank group by the bit of READ less 4: 0 to 3 pumps, 4 mill, 5 well edge, 6 sluice, 7 host (R294). -/
def agEdge : Nat := 5
def agMill : Nat := 4
def agSluice : Nat := 6
def agHost : Nat := 7

/-- Writer code of bank group `n` in the phase; host while the page is not enabled (R276, R294). -/
def State.bankWriter (s : State) (c n : Nat) : Nat :=
  if s.enabled (pgOwn c) then s.fld (pgOwn c) (R.own_BANK_WRITER.plus (s.phaseOff c + 4 * n)) else agHost + 1

/-- Reader mask of bank group `n` in the phase; host while the page is not enabled (R276, R294). -/
def State.bankReaders (s : State) (c n : Nat) : Nat :=
  if s.enabled (pgOwn c) then s.fld (pgOwn c) (R.own_BANK_READ.plus (s.phaseOff c + 4 * n)) else 2 ^ agHost

/-- Whether agent `a` may access bank group `n` (R273). -/
def State.bankRight (s : State) (c a : Nat) (wr : Bool) (n : Nat) : Bool :=
  s.bankWriter c n == a + 1 || (!wr && s.bankReaders c n / 2 ^ a % 2 == 1)

/-- Size of a bank group (R273). -/
def bankSize : Nat := 0xF00000

/-- The first offset of `[o, o + n)` that lies in a bank group where agent `a` lacks the right, if any (R273). -/
def State.bankMiss (s : State) (c a : Nat) (wr : Bool) (o n : Nat) : Option Nat :=
  if n = 0 then none
  else
    let first := o / bankSize
    let last := (o + n - 1) / bankSize
    ((List.range (last + 1 - first)).map (fun i => first + i)).find? (fun b => !s.bankRight c a wr b)
      |>.map (fun b => max o (b * bankSize))

/-- Use bits of well `w` in the phase: bit 0 L, 1 D, 2 P (R294). -/
def State.wellUse (s : State) (c w : Nat) : Nat :=
  if s.enabled (pgOwn c) then
    ((s.reg (pgOwn c) (0x100 + s.phaseOff c + 4 * (w / 8))).toNat / 2 ^ (4 * (w % 8))) % 8
  else 0

/-- Whether the stream owns pump `p` in the phase. -/
def State.pumpRight (s : State) (c p : Nat) : Bool :=
  s.enabled (pgOwn c) && (s.fld (pgOwn c) (R.own_ENGINE_PUMP.plus (s.phaseOff c)) / 2 ^ p % 2 == 1)

/-- Whether the stream owns the mill in the phase. -/
def State.millRight (s : State) (c : Nat) : Bool :=
  s.enabled (pgOwn c) && s.bit (pgOwn c) (R.own_ENGINE_MILL.plus (s.phaseOff c))

/-- Whether the mill serves epilogues of pump `p` in the phase (R283). -/
def State.epiRight (s : State) (c p : Nat) : Bool :=
  s.enabled (pgOwn c) && s.bit (pgOwn c) (R.own_ENGINE_EPI_EN.plus (s.phaseOff c)) &&
  s.fld (pgOwn c) (R.own_ENGINE_EPI_PUMP.plus (s.phaseOff c)) == p

/-- Owner of local queue `q` in the phase: 0 none, 1 stream, 2 host, 3 Steward, 4 Bucket (R294, R276). -/
def State.queueOwner (s : State) (c q : Nat) : Nat :=
  if s.enabled (pgOwn c) then
    ((s.reg (pgOwn c) (0x150 + s.phaseOff c + 4 * (q / 8))).toNat / 2 ^ (4 * (q % 8))) % 8
  else 0

/-- Who sent colliding traffic: croft, village index, and whether from outside the village (R293). -/
structure Sender where
  croft : Nat
  vidx : Nat
  outside : Bool
deriving DecidableEq, Repr

/-- Classes of COLL_STATUS (R293). -/
def clWell : Nat := 0
def clPump : Nat := 1
def clMill : Nat := 2
def clBank : Nat := 3
def clQueue : Nat := 4
def clLane : Nat := 5
def clLink : Nat := 6
def clGran : Nat := 7

/-- A collision: counted, its line raised, and recorded unless a record is held (R280, R281). -/
def collide (c source cls index order addr : Nat) (snd : Option Sender) : Prog := .get (fun s => .all [
  bump (pgOwn c) R.own_COLL_CNT,
  raiseLine (pgOwn c),
  tellWatch 14,
  if s.bit (pgOwn c) R.own_COLL_STATUS_VALID then setFld (pgOwn c) R.own_COLL_STATUS_OVERRUN 1
  else .all [
    setFld (pgOwn c) R.own_COLL_STATUS_VALID 1,
    setFld (pgOwn c) R.own_COLL_STATUS_SOURCE source,
    setFld (pgOwn c) R.own_COLL_STATUS_CLASS cls,
    setFld (pgOwn c) R.own_COLL_STATUS_PHASE (s.phase c),
    setFld (pgOwn c) R.own_COLL_STATUS_INDEX index,
    Prog.when (decide (source ≤ 9)) (setFld (pgOwn c) R.own_COLL_ORDER_INDEX order),
    setFld (pgOwn c) R.own_COLL_ADDR_OFFSET addr,
    match snd with
    | none => .done
    | some x => .all [
        setFld (pgOwn c) R.own_COLL_SRC_CROFT x.croft,
        setFld (pgOwn c) R.own_COLL_SRC_VILLAGE_IDX x.vidx,
        setBit (pgOwn c) R.own_COLL_SRC_OUTSIDE x.outside],
    latchBell (pgOwn c) R.own_COLL_BELL_LO R.own_COLL_BELL_HI]])

/-- A collision of an engine order, of a SLUICE kick or of the croft's own sluice: the croft halts, and cause and record stand
on the ownership page, whose FAULT_ADDR holds COLL_ADDR (R280, R296). (DEDUCED, assumption 35) -/
def collideHalt (c engine cls index order addr : Nat) : Prog := .all [
  collide c engine cls index order addr none,
  .get (fun s => pageFault (pgOwn c) 1 (s.fld (pgOwn c) R.own_COLL_ADDR_OFFSET)),
  orderHalt c order engine]

/-- Advance the phase by one modulo NPHASE (R277). -/
def phaseAdvance (c : Nat) : Prog := .get (fun s => .all [
  setFld (pgOwn c) R.own_STATUS_PHASE ((s.phase c + 1) % max 1 (s.fld (pgOwn c) R.own_CFG_NPHASE)),
  bump (pgOwn c) R.own_PHASE_ADV_CNT])

/-- Whether token `t` is the phase token with more than one phase (R277). -/
def State.isPhaseToken (s : State) (c t : Nat) : Bool :=
  s.enabled (pgOwn c) && s.fld (pgOwn c) R.own_CFG_PHASE_TOKEN == t && decide (1 < s.fld (pgOwn c) R.own_CFG_NPHASE)

end Sys2Proof.Machine
end

