-- ==== Sys2Proof/Machine/Fallback.lean ====
section
/-! DEFINITION. Fall-backs, abandonment and alarms (R216 to R220, R424). -/
namespace Sys2Proof.Machine

/-- The crofts of the device. -/
def allCrofts : List Nat := List.range 128

/-- Every croft halts at its next order boundary with a reason (R217, R263). -/
def haltAll (reason : Nat) : Prog := Prog.each allCrofts (fun c => haltReq c reason)

/-- Whether link `q` is up (R370). -/
def State.linkUp (s : State) (q : Nat) : Bool := s.fld pgPort R.port_STATUS_UP / 2 ^ q % 2 == 1

/-- A Steward message in the Steward's turns of share 15 of every link that is up, except one (R424). Its flit names no croft: CROFT reads
0 (DESIGN CHOICE, assumption 134). -/
def flood (m : StewMsg) (skip : Option Nat) : Prog := .get (fun s =>
  Prog.each ((List.range 16).filter (fun q => s.linkUp q && skip != some q)) (fun q => sendFlits q (txKey 3 15) [⟨0, .steward m⟩]))

/-- The system device number of this device (R370). -/
def State.self (s : State) : Nat := s.fld pgPort R.port_CFG_SELF_DEV

/-- The step boundaries passed (R236). -/
def State.stepIndex (s : State) : Nat := s.fld pgNum R.numstep_STEP_INDEX

/-- The Steward raises ALARM (R424), for an abandonment (R217) or another event. -/
def raiseAlarm (abandoned : Bool) : Prog := .get (fun s => flood (.alarm s.self s.stepIndex abandoned) none)

/-- The crofts whose reeve page is enabled. -/
def State.enabledReeves (s : State) : List Nat := allCrofts.filter (fun c => s.enabled (pgReeve c))

/-- Under abandonment a device whose enabled reeves all read HALTED counts as halted, which its Steward floods (R218). -/
def countHalted : Prog := .get (fun s =>
  Prog.when (s.bit pgNum R.numstep_STATUS_ABANDONING && s.enabledReeves.all (fun k => s.bit (pgReeve k) R.reeve_STATUS_HALTED))
    (.all [
      modDev (fun d => { d with
        haltedDevs := if d.haltedDevs.contains s.self then d.haltedDevs else d.haltedDevs ++ [s.self] }),
      flood (.halted s.self s.stepIndex) none]))

/-- Step numerics faults of R219: the halt, the fault and the line. -/
def repeatExceeded : Prog := .all [
  haltAll 5, setFld pgNum R.numstep_STATUS_HALTED 1, setFld pgNum R.numstep_STATUS_ABANDONING 0, pageFault pgNum 1 0,
  raiseLine pgNum, raiseAlarm false]

/-- The device abandons the step, on its own count or on receiving the abandonment (R217, R236). -/
def abandonHere : Prog := .all [
  haltAll 5, setFld pgNum R.numstep_STATUS_ABANDONING 1, bump pgNum R.numstep_ABANDON_CNT, tellWatch 13, countHalted]

/-- The device abandons the step on its own count, and raises it to the system (R217). -/
def abandon : Prog := .all [abandonHere, raiseAlarm true]

/-- A layer of croft `c` falls back: 1 OVF, 2 span repeat, 3 failed compare (R216). Passing the limit abandons the step, or
halts the device where the step already repeats (R217, R219); while a halt of either is under way it is only counted (R220). -/
def fallBack (c layer kind : Nat) : Prog := .all [
  bump pgNum R.numstep_FALLBACK_CNT,
  modDev (fun d => { d with fallLayers := if d.fallLayers.contains layer then d.fallLayers else d.fallLayers ++ [layer] }),
  .get (fun s => setFld pgNum R.numstep_STATUS_FALLBACKS s.dev.fallLayers.length),
  setFld pgNum R.numstep_FALLBACK_LOG_LAYER layer,
  setFld pgNum R.numstep_FALLBACK_LOG_KIND kind,
  setFld pgNum R.numstep_FALLBACK_LOG_CROFT c,
  setFld pgNum R.numstep_FALLBACK_LOG_VALID 1,
  tellWatch 13,
  .get (fun s =>
    if s.bit pgNum R.numstep_STATUS_ABANDONING || s.bit pgNum R.numstep_STATUS_HALTED ||
      decide (s.dev.fallLayers.length ≤ s.fld pgNum R.numstep_CFG_FALLBACK_LIMIT) then .done
    else if s.bit pgNum R.numstep_STATUS_REPEATING then repeatExceeded else abandon)]

end Sys2Proof.Machine
end

