-- ==== Sys2Proof/Machine/BellState.lean ====
section
/-! DEFINITION. The Bell's STATE: its changes, the loss of a parent, faults and accuracy (R395, R400, R401, R403, R408). -/
namespace Sys2Proof.Machine

/-- STATE values of R406. -/
def bFree : Nat := 0
def bAcquiring : Nat := 1
def bLocked : Nat := 2
def bHoldover : Nat := 3
def bRoot : Nat := 4

def State.bellState (s : State) : Nat := s.fld pgBell R.bell_STATUS_STATE

def modSync (f : BellSync → BellSync) : Prog := modDev (fun d => { d with bellSync := f d.bellSync })

/-- The Bell's STATE changes: the line is raised and Watch hears of it (R401); a page in FAULT for a long HOLDOVER returns to ENABLED
with LOCKED (R408). -/
def bellGo (st : Nat) : Prog := .get (fun s =>
  if s.bellState = st then .done
  else .all [
    setFld pgBell R.bell_STATUS_STATE st,
    Prog.when (st == bHoldover) (bump pgBell R.bell_HOLDOVER_CNT),
    Prog.when (st == bLocked && s.fld pgBell R.STATE_STATE == stFault && s.fld pgBell R.FAULT_CAUSE == 1)
      (setFld pgBell R.STATE_STATE stEnabled),
    modSync (fun b => { b with good := 0 }),
    raiseLine pgBell,
    tellWatch 15])

/-- Whether the device is a follower whose page is enabled. -/
def State.bellFollows (s : State) : Bool := s.enabled pgBell && s.fld pgBell R.bell_CFG_ROLE == 0

/-- The link a follower uses (R398). -/
def State.bellLink (s : State) : Nat :=
  if s.bit pgBell R.bell_STATUS_ON_ALT then s.fld pgBell R.bell_CFG_ALT_LINK else s.fld pgBell R.bell_CFG_PARENT_LINK

/-- A follower has lost the link it uses: it moves to the alternate, or enters HOLDOVER from LOCKED (R400, R401). -/
def bellLost : Prog := .get (fun s =>
  .all [
    modSync (fun b => { b with misses := 0, back := 0 }),
    if !s.bit pgBell R.bell_STATUS_ON_ALT && s.bit pgBell R.bell_CFG_ALT_EN && s.linkUp (s.fld pgBell R.bell_CFG_ALT_LINK) then .all [
      setFld pgBell R.bell_STATUS_ON_ALT 1, bump pgBell R.bell_LINK_SWITCH_CNT]
    else Prog.when (s.bellState == bLocked) (bellGo bHoldover)])

/-- A link goes down: the Bell's exchanges on it end, and a follower that uses it has lost it (R356, R400). -/
def bellLinkDown (l : Nat) : Prog := .get (fun s => .all [
  modSync (fun b => { b with opened := b.opened.filter (fun e => e.link != l), coarse := b.coarse.filter (· != l) }),
  Prog.when (s.bellFollows && s.bellLink == l) bellLost])

/-- A Bell fault (R408, R424). -/
def bellFault (cause : Nat) : Prog := .all [pageFault pgBell cause 0, raiseLine pgBell, raiseAlarm false]

/-- ACCURACY (R403). -/
def State.bellAccuracy (s : State) : Nat :=
  let locked := (3 * s.fld pgBell R.bell_CFG_DEPTH + 4) / 5
  match s.bellState with
  | 4 => 0
  | 2 => min 255 locked
  | 3 => min 255 (locked + (s.now - s.dev.bellSync.at') / 10 ^ 7)
  | _ => 255

/-- The fine time F in 1/16 ns (R395). -/
def State.fine (s : State) : Nat := s.dev.bell * 16 / 10 ^ 9

/-- Whether the count may step: no reeve page of the device is enabled (R395). -/
def State.mayStep (s : State) : Bool := allCrofts.all (fun c => !s.enabled (pgReeve c))

/-- The count steps to `v` in 10^-9 ns, where it may (R395). -/
def bellStep (v : Nat) : Prog := .get (fun s =>
  Prog.when (s.mayStep && decide (v ≠ s.dev.bell)) (.all [
    modDev (fun d => { d with bell := v }), bump pgBell R.bell_STEP_CNT]))

end Sys2Proof.Machine
end

