-- ==== Sys2Proof/Machine/Guard.lean ====
section
/-! DEFINITION. Protected memory: what every read and every write of a cistern or a granary meets (R298 to R301, R304, R309 to R311, R316,
R318 to R321). The record of memory holds what each code word says; bits that differ from it are listed beside it. -/
namespace Sys2Proof.Machine

/-! ### Uncorrectable data (R268, R316) -/

/-- SOURCE codes of UE_LOG; none is the scrub (R318). -/
def srcCode : Option Source → Nat
  | some (.engine ..) => 0
  | some (.sluice _) => 1
  | some (.incoming _) => 1
  | some _ => 2
  | none => 3

/-- An access of an engine, by its code of R266, for the order of index `idx`. -/
def byEngine (e idx : Nat) : Option Source := some (.engine (Fin.ofNat 16 e) (BitVec.ofNat 24 idx))

/-- Croft `c` halts for an uncorrectable read: reason 3, reeve cause 0x0C, the engine that made the read and its order. Of several such
reads in one cycle the one of the lowest engine code stands in the record (R268). -/
def ueHalt (c engine idx addr : Nat) : Prog := .get (fun s =>
  let p := pgReeve c
  let lower := match (s.reeve c).ueAt with | some (t, e) => decide (t = s.now) && decide (engine < e) | none => false
  if s.fld p R.STATE_STATE = stFault ∧ !lower then .all [haltReq c 3, stepEnds]
  else .all [
    faultRecord p 0x0C addr, raiseLine p,
    modReeve c (fun r => { r with ueAt := some (s.now, engine) }),
    orderHalt c idx engine])

/-- The halt of an uncorrectable read for queue `q`: its croft's, with engine 9 and the order that rang its doorbell. A queue that the host,
the Steward or Bucket rang has no order, and which index the record names is open. (DESIGN CHOICE, assumption 114) -/
def queueUE (q addr : Nat) : Prog := .get (fun s =>
  if (s.queue q).owner = 1 then ueHalt (q / 128) 9 (s.queue q).order addr
  else .all [ueHalt (q / 128) 9 ((Config.openWord s.seq).toNat % 2 ^ 24) addr, eff .seq])

/-- What an uncorrectable access does to its source; `own` is the croft whose slice it is, if it is one (R316). Host, Bucket and Steward
act where their access is. The order index of a scrub's find, which has none, is open. (DESIGN CHOICE, assumption 114) -/
def ueReact (src : Option Source) (own : Option Nat) (addr : Nat) : Prog :=
  match src with
  | some (.engine e i) => (match own with | some c => ueHalt c e.val i.toNat addr | none => .done)
  | some (.sluice q) => queueUE q.val addr
  | some (.incoming (some q)) => queueUE q.val addr
  | none => (match own with
      | some c => .get (fun s => .all [ueHalt c 0 ((Config.openWord s.seq).toNat % 2 ^ 24) addr, eff .seq])
      | none => .done)
  | _ => .done

/-! ### Changed bits -/

/-- Number of bits set. -/
def weight {w : Nat} (m : BitVec w) : Nat := (List.range w).foldl (fun n i => if m.getLsbD i then n + 1 else n) 0

/-- A sparse map with a word of changed bits, unlisted where it is none. -/
def putBits {w : Nat} (m : List (Nat × BitVec w)) (k : Nat) (v : BitVec w) : List (Nat × BitVec w) :=
  if v = 0 then Sparse.eraseRange m k (k + 1) else Sparse.set m k v

/-- Change stored data bits. -/
def xorBytes (a n v : Nat) : Prog := .get (fun s => eff (.bytes a (List.zipWith (· ^^^ ·) (s.bytes a n) (toLe n v))))

/-- Data bits of a word's changed bits. -/
def dataBits (m : BitVec 72) : BitVec 64 := m.setWidth 64

/-! ### Cistern words (R298, R304) -/

/-- What SECDED shows of a word whose stored bits differ from its code word by `m` (R304). -/
inductive WordFind where
  | clean
  /-- A single error: corrected. `left` is what the correction leaves changed: nothing, or after a miscorrection a code word. -/
  | single (left : BitVec 72)
  | beyond
  /-- Three or more bits in error that match no error. -/
  | silent
deriving DecidableEq, Repr

def wordFind (m : BitVec 72) : WordFind :=
  match weight m with
  | 0 => .clean
  | 1 => .single 0
  | 2 => .beyond
  | _ =>
    match Config.eccCase m.toNat % 3 with
    | 0 => .beyond
    | 1 => .single (m ^^^ BitVec.ofNat 72 (2 ^ (Config.eccBit m.toNat % 72)))
    | _ => .silent

/-- The changed bits of the word at word address `k`, and of the parity word of stripe `st`. -/
def State.flipOf (s : State) (k : Nat) : BitVec 72 := (Sparse.get? s.dev.flips k).getD 0
def State.parityFlip (s : State) (st : Nat) : BitVec 72 := (Sparse.get? s.dev.parityFlips st).getD 0
def State.parityDiff (s : State) (st : Nat) : BitVec 64 := (Sparse.get? s.dev.parityErr st).getD 0

/-- Slice offset of a word address or stripe address within croft `c`. -/
def offIn (c a : Nat) : Nat := a - sliceAddr c 0

/-- A correction of croft `c` is logged (R304, R318). -/
def logCE (c addr kind : Nat) : Prog := .get (fun s => .all [
  setFld (pgCist c) R.cistern_CE_LOG_OFFSET (offIn c addr),
  setFld (pgCist c) R.cistern_CE_LOG_KIND kind,
  setFld (pgCist c) R.cistern_CE_LOG_VALID 1,
  Prog.when (s.bit (pgCist c) R.cistern_CFG_CE_IRQ) (raiseLine (pgCist c)),
  tellWatch 0])

/-- An uncorrectable word or stripe of croft `c` (R304, R305, R316, R318). -/
def cistUE (c addr cause : Nat) (src : Option Source) : Prog := .get (fun s => .all [
  bump (pgCist c) R.cistern_UE_CNT,
  if s.bit (pgCist c) R.cistern_UE_LOG_VALID then setFld (pgCist c) R.cistern_UE_LOG_OVERRUN 1
  else .all [
    setFld (pgCist c) R.cistern_UE_LOG_OFFSET (offIn c addr),
    setFld (pgCist c) R.cistern_UE_LOG_SOURCE (srcCode src),
    setFld (pgCist c) R.cistern_UE_LOG_VALID 1],
  .get (fun s => pageFault (pgCist c) cause (s.fld (pgCist c) R.cistern_UE_LOG_OFFSET)),
  raiseLine (pgCist c),
  tellWatch 1,
  ueReact src (some c) (offIn c addr)])

/-- Whether the parity word and every data word of stripe `st` but that of word address `k` are within SECDED (R304). -/
def State.rebuildable (s : State) (st k : Nat) : Bool :=
  wordFind (s.parityFlip st) != .beyond &&
  (List.range 32).all (fun b => st * 32 + b == k || wordFind (s.flipOf (st * 32 + b)) != .beyond)

/-- Set the changed bits of a word. -/
def setFlip (k : Nat) (m : BitVec 72) : Prog := modDev (fun d => { d with flips := putBits d.flips k m })

/-- Change a word's data, its stripe's parity word left behind. -/
def corrupt (k : Nat) (d : BitVec 64) : Prog := .all [
  xorBytes (k * 8) 8 d.toNat,
  modDev (fun x => { x with parityErr := putBits x.parityErr (k / 32) ((Sparse.get? x.parityErr (k / 32)).getD 0 ^^^ d) })]

/-- A word found uncorrectable before holds its stored bits; it is checked again as any other (R301, R304). -/
def reviveWord (k : Nat) : Prog := .get (fun s =>
  Prog.when (s.dev.deadWords.contains k) (.all [
    xorBytes (k * 8) 8 (dataBits (s.flipOf k)).toNat,
    modDev (fun d => { d with deadWords := d.deadWords.filter (· != k) })]))

/-- What SECDED alone does to a data word of croft `c`: a single error is corrected and written back, a wrong word is left so (R304). -/
def settleWord (c k : Nat) : Prog := .get (fun s =>
  let m := s.flipOf k
  match wordFind m with
  | .clean => .done
  | .single left => .all [reviveWord k, setFlip k 0, corrupt k (dataBits left), bump (pgCist c) R.cistern_CE_CNT, logCE c (k * 8) 0]
  | .silent => .all [reviveWord k, setFlip k 0, corrupt k (dataBits m)]
  | .beyond => .done)

/-- The same for a stripe's parity word. -/
def settleParity (c st : Nat) : Prog := .get (fun s =>
  let m := s.parityFlip st
  let put (v : BitVec 64) : Prog := modDev (fun d => { d with
    parityFlips := putBits d.parityFlips st 0, parityErr := putBits d.parityErr st (s.parityDiff st ^^^ v) })
  match wordFind m with
  | .clean => .done
  | .single left => .all [put (dataBits left), bump (pgCist c) R.cistern_CE_CNT, logCE c (st * 256) 0]
  | .silent => put (dataBits m)
  | .beyond => .done)

/-- The word addresses of stripe `st`. -/
def stripeWords (st : Nat) : List Nat := (List.range 32).map (st * 32 + ·)

/-- Check one data word of croft `c` under R304; what makes the access is `src`. A rebuild reads the stripe's other words and its parity
word, each under SECDED. -/
def checkWord (c k : Nat) (src : Option Source) : Prog := .all [
  settleWord c k,
  .get (fun s =>
    let st := k / 32
    if wordFind (s.flipOf k) != .beyond then reviveWord k
    else .all [
      reviveWord k,
      if s.rebuildable st k then .all [
        Prog.each ((stripeWords st).filter (· != k)) (settleWord c),
        settleParity c st,
        .get (fun s => .all [
          xorBytes (k * 8) 8 (s.parityDiff st).toNat,
          modDev (fun d => { d with parityErr := putBits d.parityErr st 0 })]),
        setFlip k 0,
        bump (pgCist c) R.cistern_RECON_CNT,
        logCE c (k * 8) 1]
      else .all [
        xorBytes (k * 8) 8 (dataBits (s.flipOf k)).toNat,
        modDev (fun d => { d with deadWords := d.deadWords ++ [k] }),
        cistUE c (k * 8) 1 src]])]

/-- Check a stripe's parity word: beyond SECDED, it is recomputed where every data word is correctable (R304). -/
def checkParity (c st : Nat) : Prog := .all [
  settleParity c st,
  .get (fun s =>
    Prog.when (wordFind (s.parityFlip st) == .beyond && (stripeWords st).all (fun k => wordFind (s.flipOf k) != .beyond)) (.all [
      Prog.each (stripeWords st) (settleWord c),
      modDev (fun d => { d with parityFlips := putBits d.parityFlips st 0, parityErr := putBits d.parityErr st 0 }),
      bump (pgCist c) R.cistern_PARITY_CNT]))]

/-- The word addresses that `n` bytes from local address `a` on touch. -/
def wordsOf (a n : Nat) : List Nat := if n = 0 then [] else (List.range ((a + n - 1) / 8 + 1 - a / 8)).map (a / 8 + ·)

/-! ### Granules (R309 to R311) -/

/-- Symbols of a granule's changed bits that are not zero, by place (R309). -/
def symbolsOf (m : BitVec 544) : List Nat := (List.range 68).filter (fun i => bitsOf m.toNat (8 * i) 8 != 0)

/-- What the decoder shows of a granule (R310). -/
inductive GranFind where
  | clean
  /-- Corrected in `n` symbols; `left` is what differs afterwards: nothing, or after a miscorrection another code word. -/
  | corrected (n : Nat) (left : BitVec 544)
  | bad
  /-- More symbols than the code detects: read as another code word. -/
  | silent
deriving DecidableEq, Repr

def granFind (detect : Bool) (m : BitVec 544) : GranFind :=
  let n := (symbolsOf m).length
  let x := m.toNat
  let sym (p v : Nat) : BitVec 544 := BitVec.ofNat 544 ((v % 255 + 1) * 2 ^ (8 * (p % 68)))
  let y := Config.rsLeft x
  let near : BitVec 544 := if y % 2 = 0 then sym (y / 2) (y / 256) else sym (y / 2) (y / 256) ^^^ sym (y / 2 + 1 + y / 65536 % 67) (y / 2 ^ 24)
  if n = 0 then .clean
  else if detect then (if n ≤ 4 ∨ Config.rsCase x % 2 = 0 then .bad else .silent)
  else if n ≤ 2 then .corrected n 0
  else
    match Config.rsCase x % (if n ≤ 4 then 2 else 3) with
    | 0 => .bad
    | 1 => .corrected (symbolsOf near).length (m ^^^ near)
    | _ => .silent

def State.granMask (s : State) (g : Nat) : BitVec 544 := (Sparse.get? s.dev.granFlips g).getD 0

def setGranMask (g : Nat) (m : BitVec 544) : Prog := modDev (fun d => { d with granFlips := putBits d.granFlips g m })

/-- Stack granule of a granule number over all granaries. -/
def stackGranule (g : Nat) : Nat := g % 2 ^ 30

/-- A granule found uncorrectable before holds its stored bits; it is decoded again as any other. -/
def reviveGranule (g : Nat) : Prog := .get (fun s =>
  Prog.when (s.dev.deadGranules.contains g) (.all [
    xorBytes (g * 64) 64 ((s.granMask g).toNat % 2 ^ 512),
    modDev (fun d => { d with deadGranules := d.deadGranules.filter (· != g) })]))

/-- An uncorrectable granule (R310, R316, R320). -/
def granUE (g : Nat) (src : Option Source) : Prog := .all [
  reviveGranule g,
  .get (fun s =>
    let p := pgGran (g / 2 ^ 30)
    let a := stackGranule g * 64
    .all [
      xorBytes (g * 64) 64 ((s.granMask g).toNat % 2 ^ 512),
      modDev (fun d => { d with deadGranules := d.deadGranules ++ [g] }),
      bump p R.granary_UE_CNT,
      if s.bit p R.granary_UE_LOG_HI_VALID then setFld p R.granary_UE_LOG_HI_OVERRUN 1
      else .all [
        setFld p R.granary_UE_LOG_LO_ADDR (a / 64 % 2 ^ 26),
        setFld p R.granary_UE_LOG_HI_ADDR (a / 2 ^ 32),
        setFld p R.granary_UE_LOG_HI_SOURCE (srcCode src),
        setFld p R.granary_UE_LOG_HI_VALID 1],
      raiseLine p,
      tellWatch 3,
      ueReact src none (g * 64)])]

/-- Decode granule `g`, whose parity passed; `back` says that a corrected granule is written back (R310, R314). -/
def granDecode (g : Nat) (src : Option Source) (back : Bool) : Prog := .all [
  reviveGranule g,
  .get (fun s =>
    let p := pgGran (g / 2 ^ 30)
    let m := s.granMask g
    match granFind (s.fld p R.granary_CFG_RS_MODE == 1) m with
    | .clean => .done
    | .silent => .all [xorBytes (g * 64) 64 (m.toNat % 2 ^ 512), setGranMask g 0]
    | .corrected n left => .all [
        xorBytes (g * 64) 64 (left.toNat % 2 ^ 512),
        setGranMask g (if back then 0 else m ^^^ left),
        bump p (if n ≤ 1 then R.granary_CE_CNT else R.granary_CE2_CNT),
        setFld p R.granary_CE_LOG_LO_ADDR (stackGranule g % 2 ^ 26),
        setFld p R.granary_CE_LOG_HI_ADDR (stackGranule g / 2 ^ 26),
        setFld p R.granary_CE_LOG_HI_SYMBOLS n,
        setFld p R.granary_CE_LOG_HI_VALID 1,
        tellWatch 2]
    | .bad => granUE g src)]

/-! ### Reads and writes -/

/-- Memory holds its code words: no bit is changed, no word or granule is uncorrectable and no write is being repeated. -/
def State.intact (s : State) : Bool :=
  s.dev.flips.isEmpty && s.dev.parityFlips.isEmpty && s.dev.parityErr.isEmpty && s.dev.deadWords.isEmpty &&
  s.dev.granFlips.isEmpty && s.dev.deadGranules.isEmpty && s.dev.writeRetries.isEmpty

/-- End of the granaries' addresses (R308). -/
def granEnd : Nat := 2 ^ 39

/-- The croft whose slice holds local address `a`. -/
def sliceOf (a : Nat) : Nat := (a - sliceAddr 0 0) / 0x10000000

/-- Whether the unit of `u` bytes numbered `k` meets the `n` bytes from `a` on. -/
def meets (a n u k : Nat) : Bool := decide (a < (k + 1) * u) && decide (k * u < a + n)

/-- Whether a word or granule of the `n` bytes at local address `a` is uncorrectable. -/
def State.deadAt (s : State) (a n : Nat) : Bool :=
  (decide (granEnd ≤ a) && s.dev.deadWords.any (meets a n 8)) || (decide (a < granEnd) && s.dev.deadGranules.any (meets a n 64))

/-- A read of `n` bytes at local address `a`: each word or granule of them with changed bits is checked (R304, R310, R316). -/
def readBy (src : Option Source) (a n : Nat) : Prog := .get (fun s =>
  if s.intact then .done
  else if a < granEnd then
    Prog.each (((s.dev.granFlips.map (·.1)) ++ s.dev.deadGranules.filter (fun g => (Sparse.get? s.dev.granFlips g).isNone)).filter (meets a n 64))
      (fun g => granDecode g src false)
  else
    Prog.each (((s.dev.flips.map (·.1)) ++ s.dev.deadWords.filter (fun k => (Sparse.get? s.dev.flips k).isNone)).filter (meets a n 8))
      (fun k => checkWord (sliceOf a) k src))

/-- A read of several regions (R304, R310). -/
def readAll (src : Option Source) (rs : List (Nat × Nat)) : Prog := .get (fun s =>
  if s.intact then .done else Prog.each rs (fun r => readBy src r.1 r.2))

/-- A read of regions of croft `c`'s slice by the engine of code `e` for the order of index `idx`. -/
def engineReads (c e idx : Nat) (rs : List (Nat × Nat)) : Prog :=
  readAll (byEngine e idx) (rs.map (fun r => (sliceAddr c r.1, r.2)))

/-- A list of bytes from local address `a` on, cut where units of `u` bytes end. -/
def cutAt (u : Nat) : Nat → Nat → List Byte → List (Nat × List Byte)
  | 0, _, _ => []
  | fuel + 1, a, bs =>
    if bs.isEmpty then []
    else
      let n := u - a % u
      (a, bs.take n) :: cutAt u fuel (a + n) (bs.drop n)

/-- One access that writes bytes of one stripe. A whole stripe is written directly; any other write first reads and corrects the old words
it needs, and is not carried out where one is uncorrectable (R299 to R301). -/
def storeStripe (src : Option Source) (a : Nat) (bs : List Byte) : Prog :=
  let c := sliceOf a
  let st := a / 256
  if bs.length = 256 then .all [
    eff (.bytes a bs),
    modDev (fun d => { d with
      flips := Sparse.eraseRange d.flips (st * 32) (st * 32 + 32), deadWords := d.deadWords.filter (fun k => k / 32 != st)
      parityFlips := putBits d.parityFlips st 0, parityErr := putBits d.parityErr st 0 })]
  else .all [
    Prog.each (wordsOf a bs.length) (fun k => checkWord c k src),
    checkParity c st,
    .get (fun s =>
      if s.deadAt a bs.length then bump (pgCist c) R.cistern_SUBWORD_UE_CNT else eff (.bytes a bs))]

/-- One access that writes bytes of one granule: a whole granule is encoded directly; any other write reads the granule, decodes it and
merges, and is not carried out where it is uncorrectable (R311). A new write is no repeat of the last one (R310). -/
def storeGranule (src : Option Source) (a : Nat) (bs : List Byte) : Prog :=
  let g := a / 64
  .all [
    modDev (fun d => { d with writeRetries := d.writeRetries.filter (· != g) }),
    if bs.length = 64 then .all [
      eff (.bytes a bs), setGranMask g 0, modDev (fun d => { d with deadGranules := d.deadGranules.filter (· != g) })]
    else .all [
      granDecode g src true,
      .get (fun s =>
        if s.dev.deadGranules.contains g then bump (pgGran (g / 2 ^ 30)) R.granary_RMW_UE_CNT else eff (.bytes a bs))]]

/-- Store bytes at a local address, stripe by stripe or granule by granule. -/
def store (src : Option Source) (a : Nat) (bs : List Byte) : Prog := .get (fun s =>
  if s.intact then eff (.bytes a bs)
  else if a < granEnd then Prog.each (cutAt 64 (bs.length / 64 + 2) a bs) (fun x => storeGranule src x.1 x.2)
  else Prog.each (cutAt 256 (bs.length / 256 + 2) a bs) (fun x => storeStripe src x.1 x.2))

/-- Store a number as `n` little-endian bytes. -/
def storeLe (src : Option Source) (a n v : Nat) : Prog := store src a (toLe n v)

/-- What follows a write of `n` bytes at `a` that was refused in part or whole (R301, R311). -/
def ifRefused (a n : Nat) (yes no : Prog) : Prog := .get (fun s => if s.deadAt a n then yes else no)

end Sys2Proof.Machine
end

