-- ==== Sys2Proof/Machine/Tensor.lean ====
section
/-! DEFINITION. Tensors in a slice: element, scale and peel regions, block conversion, and its counts (R27 to R33, R49 to R56,
R214). -/
namespace Sys2Proof.Machine

/-- The block size of a code, 0 for an unscaled tensor; reserved codes give none (R28). -/
def blockSize? : Nat → Option Nat
  | 0 => some 0 | 1 => some 16 | 2 => some 32 | 3 => some 64 | 4 => some 128
  | _ => none

def TRef.bsize (t : TRef) : Nat := (blockSize? t.block).getD 0
def TRef.format (t : TRef) : Fmt := (fmtOf t.fmt).getD fFP32

/-- Whether format, block size, scale mode and rounding form an accepted combination (R29, R30). -/
def TRef.accepted (t : TRef) : Bool :=
  match fmtOf t.fmt, blockSize? t.block with
  | some f, some b =>
    t.rnd != 3 &&
    (if b = 0 then decide (t.fmt ≤ 4) && t.smode == 0
     else if f.code = 3 ∨ f.code = 4 then t.smode == 1 || t.smode == 2
     else decide (5 ≤ f.code) && t.smode == 2)
  | _, _ => false

/-- Length padded to 64 bytes (R31). -/
def pad64 (n : Nat) : Nat := (n + 63) / 64 * 64

/-- Length in bytes of `n` packed elements (R32). -/
def Fmt.bytes (f : Fmt) (n : Nat) : Nat := (n * f.width + 7) / 8

/-- Element code `i` of an element region at slice offset `base` (R32). -/
def State.elemCode (s : State) (c base : Nat) (f : Fmt) (i : Nat) : Nat :=
  if f.width = 6 then bitsOf (s.sl c (base + i / 4 * 3) 3) (6 * (i % 4)) 6
  else if f.width = 4 then bitsOf (s.sl c (base + i / 2) 1) (4 * (i % 2)) 4
  else s.sl c (base + i * (f.width / 8)) (f.width / 8)

/-- Scale byte of block `b` (R31). -/
def State.scaleByte (s : State) (c : Nat) (t : TRef) (b : Nat) : Nat := s.sl c (t.scale + b) 1

/-- A value under a scale byte; 0xFF makes it a NaN (R27). -/
def scaled (v : Val) (sc : Nat) : Val := if sc = 0xFF then .nan false 0 0 else v.scale ((sc : Int) - 127)

/-- Element `k` of row `r` of a tensor with rows of `len` elements; a block-scaled tensor is packed, an unscaled one has
PITCH bytes a row where it is not 0 (R247). In heritage mode an element whose code is subnormal reads as zero, whatever its
block's scale (R56, R174, R202). -/
def State.elem (s : State) (c : Nat) (her : Bool) (t : TRef) (len r k : Nat) : Val :=
  let f := t.format
  if t.bsize = 0 then
    if t.pitch = 0 then f.decodeOp her (s.elemCode c t.elem f (r * len + k))
    else f.decodeOp her (s.elemCode c (t.elem + r * t.pitch) f k)
  else
    let i := r * len + k
    scaled (f.decodeOp her (s.elemCode c t.elem f i)) (s.scaleByte c t (i / t.bsize))

/-- The entries of a tensor's peel list: flattened index and BF16 code (R52, R54). -/
def State.peels (s : State) (c : Nat) (t : TRef) : List (Nat × Nat) :=
  if t.hasPeel && t.bsize != 0 then
    (List.range (s.sl c t.peel 4)).map (fun j =>
      let w := s.sl c (t.peel + 16 + 8 * j) 8
      (bitsOf w 0 48, bitsOf w 48 16))
  else []

/-- Capacity of a tensor's peel list; none for a tensor without one (R52, R247). -/
def State.peelCap (s : State) (c : Nat) (t : TRef) : Nat := if t.hasPeel then s.sl c (t.peel + 4) 4 else 0

/-- Bytes a tensor of `rows` rows of `len` elements occupies in its element region (R31, R247). -/
def TRef.elemBytes (t : TRef) (rows len : Nat) : Nat :=
  if t.bsize = 0 ∧ t.pitch ≠ 0 then (rows - 1) * t.pitch + t.format.bytes len
  else pad64 (t.format.bytes (rows * len))

/-- Bytes of its scale region. -/
def TRef.scaleBytes (t : TRef) (rows len : Nat) : Nat := if t.bsize = 0 then 0 else pad64 (rows * len / t.bsize)

/-- The regions of a tensor: slice offset and length of elements, scales and peel list (R31). -/
def State.regions (s : State) (c : Nat) (t : TRef) (rows len : Nat) : List (Nat × Nat) :=
  [(t.elem, t.elemBytes rows len)] ++ (if t.bsize = 0 then [] else [(t.scale, t.scaleBytes rows len)]) ++
  (if t.hasPeel && t.bsize != 0 then [(t.peel, 16 + 8 * s.peelCap c t)] else [])

/-- The bytes of a tensor that hold elements `k0` to `k0 + n` of rows `r0` to `r0 + m`, with their scales and its peel list: slice offset
and length. -/
def State.partRegions (s : State) (c : Nat) (t : TRef) (len r0 m k0 n : Nat) : List (Nat × Nat) :=
  let w := t.format.width
  (List.range m).flatMap (fun i =>
    let e := (r0 + i) * len + k0
    if t.bsize = 0 ∧ t.pitch ≠ 0 then [(t.elem + (r0 + i) * t.pitch + k0 * w / 8, (k0 * w % 8 + n * w + 7) / 8)]
    else [(t.elem + e * w / 8, (e * w % 8 + n * w + 7) / 8)] ++
      (if t.bsize = 0 then [] else [(t.scale + e / t.bsize, (e % t.bsize + n + t.bsize - 1) / t.bsize)])) ++
  (if t.hasPeel && t.bsize != 0 then [(t.peel, 16 + 8 * s.sl c t.peel 4)] else [])

/-- The widened form of a tensor on a span's repeat (R214). -/
def TRef.widen (t : TRef) : TRef :=
  match t.fmt with
  | 7 | 6 => { t with fmt := 5 }
  | 5 => { t with fmt := 3 }
  | 3 => { t with fmt := 4 }
  | 4 => { t with fmt := 1, block := 0, smode := 0, hasPeel := false, pitch := if t.block = 0 then t.pitch else 0 }
  | _ => t

/-! ### Rounding generators -/

/-- The generators of a croft while an engine rounds. -/
structure Rng where
  lanes : List (Nat × BitVec 32)
  seed : BitVec 32
  /-- Steps of the lanes that are not listed, since their seed. -/
  ran : Nat
  croft : Nat
  stepped : Bool
  /-- Free values taken. -/
  free : Nat
deriving DecidableEq, Repr

/-- The generators of croft `c` (R43, R47). -/
def State.rng (s : State) (c : Nat) : Rng :=
  { lanes := (s.croft c).lanes, seed := (s.croft c).laneSeed, ran := (s.croft c).laneRan, croft := c,
    stepped := s.bit (pgCroft c) R.croft_NUMCFG_RNG_MODE, free := s.seq }

/-- The state of a lane's generator. -/
def Rng.lane (r : Rng) (lane : Nat) : BitVec 32 :=
  (Sparse.get? r.lanes lane).getD (xorshifts r.ran (seedLane r.seed (r.croft * 512 + lane)))

/-- Take an output of a lane's generator: one step under STEPPED, as many as cycles have passed under FREE (R44, R47). R42 names the
current output and R44 the new state: the generator steps first, and the rounding takes the state it steps to. (DEDUCED,
assumption 119) -/
def Rng.take (r : Rng) (lane : Nat) : Nat × Rng :=
  let y := xorshifts (if r.stepped then 1 else Config.freeCycles r.free) (r.lane lane)
  (y.toNat, { r with lanes := Sparse.set r.lanes lane y, free := r.free + 1 })

/-- Round a value on a lane. A value without discarded bits does not consume the generator (R42). -/
def Rng.round (r : Rng) (f : Fmt) (cm : ConvMode) (mode lane : Nat) (v : Val) : Rounded × Rng :=
  if mode = rndSR then
    let t := f.round cm mode 0 v
    if t.inexact && !(f.heritageFmt cm.heritage) then
      let (u, r') := r.take lane
      (f.round cm mode u v, r')
    else (t, r)
  else (f.round cm mode 0 v, r)

/-! ### Conversion of a result -/

/-- What a conversion has written and counted. -/
structure Conv where
  rng : Rng
  codes : List Nat := []
  scales : List Nat := []
  peels : List (Nat × Nat) := []
  zeroBlk : Nat := 0
  peel : Nat := 0
  swamp : Nat := 0
  vanish : Nat := 0
  sat : Nat := 0
  /-- A 16-bit or FP32 result overflowed to infinity. -/
  toInf : Bool := false
  /-- A block saturated, or an unscaled narrow element: an overflow event (R55). -/
  ovf : Bool := false
  /-- Trap cause of each element, 0 for none, in element order. -/
  causes : List Nat := []
deriving DecidableEq, Repr

/-- Round a list of elements, each on its lane, at a scale (R35). `peel` is the place and value of a peeled element: its VALUE
rounds to BF16 under `peelMode` on its own lane, in its element's turn (R52). (DESIGN CHOICE, assumption 120) -/
def convElems (f : Fmt) (cm : ConvMode) (mode : Nat) (lane : Nat → Nat) (sc : Int) (peel : Option (Nat × Val)) :
    List Val → Nat → Rng → List Rounded × List Nat × Rng
  | [], _, r => ([], [], r)
  | v :: vs, i, r =>
    let (ps, r0) := match peel with
      | some (j, w) => if j = i then let (x, r') := r.round fBF16 cm mode (lane i) w; ([x.code], r') else ([], r)
      | none => ([], r)
    let (x, r1) := r0.round f cm mode (lane i) (v.scale (-sc))
    let (xs, qs, r2) := convElems f cm mode lane sc peel vs (i + 1) r1
    (x :: xs, ps ++ qs, r2)

/-- The largest finite magnitude of a list, as a value; +0 if none is larger. -/
def maxMag (vs : List Val) : Val :=
  vs.foldl (fun a v => if v.isFin && Val.lt a v.abs then v.abs else a) (Val.zero false)

/-- Scale byte chosen under BLOCK for a block whose largest finite magnitude is `a` (R49). -/
def blockScale (f : Fmt) (a : Val) : Nat :=
  match a with
  | .fin _ m e =>
    if m = 0 then 0x7F
    else
      let x := e + Nat.log2 m - f.emax
      let x := if Val.magLt f.maxM (f.maxE + x) m e then x + 1 else x
      (min (max (x + 127) 0) 0xFE).toNat
  | _ => 0x7F

/-- The format's range ratio: its largest finite value over its smallest subnormal (R24). -/
def Fmt.ratio (f : Fmt) : Nat := f.maxM * 2 ^ (f.maxE - f.minE).toNat

/-- The position of the element to peel from a block, if any (R51). -/
def peelPos (f : Fmt) (vs : List Val) : Option Nat :=
  let a1 := maxMag vs
  match a1, vs.findIdx? (fun v => v.isFin && !Val.lt v.abs a1) with
  | .fin _ m1 e1, some i =>
    match maxMag (vs.eraseIdx i) with
    | .fin _ m2 e2 => if m2 ≠ 0 ∧ Val.magLt (f.ratio * m2) e2 m1 e1 then some i else none
    | _ => none
  | _, _ => none

/-- Causes of the elements of a 6-bit or 4-bit block that takes scale 0xFF: the NaNs' own where it holds a NaN, which makes it a
copied NaN and not a produced one; else 0x06 on each infinity (R40, R57). (DEDUCED, assumption 16) -/
def nonfiniteCauses (vs : List Val) : List Nat :=
  if vs.any (·.isNan) then vs.map (·.cause) else vs.map (fun v => if v.isInf then (6 : Nat) else 0)

/-- Convert one block (R49 to R55). `delayed` is the running scale of a DELAYED tensor; `idx` the block's first flattened index;
`room` the free entries of the peel list. A 6-bit or 4-bit block with a non-finite element takes scale 0xFF and zero elements; its
due peel is made or swamped as in any block, and it is no vanishing block (DESIGN CHOICE, assumption 122). An all-zero block of a
DELAYED tensor whose raised scale passes 0xFE keeps its zeros, under scale 0xFE, so that no NaN arises (R50; DESIGN CHOICE,
assumption 123); any other such block takes 0xFF and NaN codes (R167; DESIGN CHOICE, assumption 121). -/
def convBlock (f : Fmt) (cm : ConvMode) (mode : Nat) (lane : Nat → Nat) (delayed : Option Nat)
    (room idx : Nat) (vs : List Val) (k : Conv) : Conv :=
  let bad := f.special == 2 && vs.any (fun v => !v.isFin)
  let allZero := vs.all (·.isZero)
  let due := if delayed.isNone then peelPos f vs else none
  let peel := match due with
    | some i => if k.peels.length < room then some (i, vs.getD i (Val.zero false)) else none
    | none => none
  let swamped := due.isSome && peel.isNone
  let vs1 := match peel with
    | some (i, v) => vs.set i (Val.zero v.sign)
    | none => vs
  let sc : Nat := if bad then 0xFF else match delayed with
    | some d => if allZero then min d 0xFE else d
    | none => blockScale f (maxMag vs1)
  if sc = 0xFF && !bad then
    { k with codes := k.codes ++ vs.map (fun _ => f.nanCode), scales := k.scales ++ [0xFF],
             causes := k.causes ++ vs.map (fun v => if v.isNan then v.cause else (7 : Nat)) }
  else
    let vs2 := if bad then vs.map (fun _ => Val.zero false) else vs1
    let (xs, pcodes, rng) := convElems f cm mode lane ((sc : Int) - 127) peel vs2 0 k.rng
    let codes := xs.map (·.code)
    let nonzeroSrc := vs2.any (fun v => v.isFin && !v.isZero)
    let vanished := nonzeroSrc && codes.all (fun x => x % f.signBit == 0)
    let sat := xs.any (fun x => x.sat || x.toInf)
    let peels := match peel with
      | some (i, _) => pcodes.map (fun x => (idx + i, x))
      | none => []
    { k with
      rng := rng
      codes := k.codes ++ codes
      scales := k.scales ++ [sc]
      peels := k.peels ++ peels
      zeroBlk := k.zeroBlk + (if allZero then 1 else 0)
      peel := k.peel + peels.length
      swamp := k.swamp + (if swamped then 1 else 0)
      vanish := k.vanish + (if vanished then 1 else 0)
      sat := k.sat + (if sat then 1 else 0)
      ovf := k.ovf || sat
      causes := k.causes ++ (if bad then nonfiniteCauses vs else xs.map (·.cause)) }

/-- Convert blocks of `b` elements one after the other; `fuel` bounds their number. -/
def convBlocks (f : Fmt) (cm : ConvMode) (mode : Nat) (lane : Nat → Nat) (delayed : Option Nat) (room b : Nat) :
    Nat → Nat → Nat → List Val → Conv → Conv
  | 0, _, _, _, k => k
  | fuel + 1, idx, pos, vs, k =>
    if vs.isEmpty then k
    else convBlocks f cm mode lane delayed room b fuel (idx + b) (pos + b) (vs.drop b)
      (convBlock f cm mode (fun i => lane (pos + i)) delayed room idx (vs.take b) k)

/-- Convert elements that start at flattened index `idx` of a result tensor. `lane` gives the lane of the i-th of them. -/
def convert (t : TRef) (cm : ConvMode) (lane : Nat → Nat) (dsc room idx : Nat) (vs : List Val) (k : Conv) : Conv :=
  let f := t.format
  if t.bsize = 0 then
    let (xs, _, r) := convElems f cm t.rnd lane 0 none vs 0 k.rng
    let n := if f.width = 8 then (xs.filter (fun x => x.sat || x.toInf)).length else 0
    { k with rng := r, codes := k.codes ++ xs.map (·.code), sat := k.sat + n, ovf := k.ovf || decide (0 < n),
             toInf := k.toInf || (f.width != 8 && xs.any (·.toInf)), causes := k.causes ++ xs.map (·.cause) }
  else
    convBlocks f cm t.rnd lane (if t.smode = 1 then some dsc else none) room t.bsize (vs.length / t.bsize + 1) idx 0 vs k

/-- The conversion mode of croft `c` (R39, R56). -/
def State.convMode (s : State) (c : Nat) : ConvMode :=
  ⟨s.bit (pgCroft c) R.croft_NUMCFG_E4M3_SAT, s.bit pgNum R.numstep_CFG_HERITAGE⟩

/-- Packed bytes of element codes that begin on a group boundary (R32). -/
def packCodes (f : Fmt) (codes : List Nat) : List Byte :=
  let v := codes.foldr (fun x a => x % 2 ^ f.width + 2 ^ f.width * a) 0
  toLe (f.bytes codes.length) v

/-- The zero bytes after the last of a region's `n` bytes (R31). -/
def padding (n : Nat) : List Byte := List.replicate (pad64 n - n) 0

/-- Store element codes from flattened index `i` on of an element region. `total` is the number of elements of a packed tensor: with
its last one the region's padding is written (R31); 0 for one row of a tensor with a PITCH. -/
def storeCodes (src : Option Source) (c base : Nat) (f : Fmt) (total i : Nat) (codes : List Nat) : Prog :=
  store src (sliceAddr c (base + i * f.width / 8))
    (packCodes f codes ++ if i + codes.length = total then padding (f.bytes total) else [])

/-- Store scale bytes from block `b` on of a scale region of `total` blocks, and with the last one its padding (R31). -/
def storeScales (src : Option Source) (c base total b : Nat) (scales : List Nat) : Prog :=
  store src (sliceAddr c (base + b)) (scales.map (BitVec.ofNat 8) ++ if b + scales.length = total then padding total else [])

/-- Store a peel list's entries from entry `n` on, and its count (R52). -/
def storePeels (src : Option Source) (c : Nat) (t : TRef) (n : Nat) (ps : List (Nat × Nat)) : Prog :=
  if t.hasPeel && t.bsize != 0 then
    .all [Prog.each (ps.zip (List.range ps.length)) (fun x =>
        storeLe src (sliceAddr c (t.peel + 16 + 8 * (n + x.2))) 8 (x.1.1 % 2 ^ 48 + x.1.2 * 2 ^ 48)),
      storeLe src (sliceAddr c t.peel) 4 (n + ps.length)]
  else .done

/-- Keep the generators after a conversion (R47). -/
def keepRng (c : Nat) (r : Rng) : Prog := .get (fun s => .all [
  modCroft c (fun k => { k with lanes := r.lanes }),
  Prog.each (List.range (r.free - s.seq)) (fun _ => eff .seq)])

/-- The counts of a conversion (R64). -/
def countConv (c : Nat) (k : Conv) : Prog := .all [
  bumpBy (pgCroft c) R.croft_ZERO_BLK_CNT k.zeroBlk,
  bumpBy (pgCroft c) R.croft_PEEL_CNT k.peel,
  bumpBy (pgCroft c) R.croft_SWAMP_CNT k.swamp,
  bumpBy (pgCroft c) R.croft_VANISH_CNT k.vanish,
  bumpBy (pgCroft c) R.croft_SAT_CNT k.sat]

end Sys2Proof.Machine
end

