-- ==== Sys2Proof/Machine/Flags.lean ====
section
/-! DEFINITION. Numeric flags: the NaN trap and its record (R57 to R61, R66), scale records (R207 to R209) and the exact pair
sums of R160. -/
namespace Sys2Proof.Machine

/-- Where a trap arose: engine (R66), order index, tile or output row and column, k-chunk and position, and the format and
rounding codes of TRAP_FMT. -/
structure TrapAt where
  engine : Nat
  idx : Nat
  row : Nat
  col : Nat
  chunk : Nat
  pos : Nat
  fa : Nat
  fb : Nat
  fr : Nat
  rnd : Nat
deriving DecidableEq, Repr

/-- One trap event of cause `cause` in croft `c` (R57, R58, R61): counted; recorded unless a record is held; the croft control
line is raised; under STOP the croft halts with reason 2. -/
def trap (c cause : Nat) (t : TrapAt) : Prog := .get (fun s => .all [
  bump (pgCroft c) R.croft_NAN_PROD_CNT,
  if s.bit (pgCroft c) R.croft_TRAP_STATUS_VALID then setFld (pgCroft c) R.croft_TRAP_STATUS_OVERRUN 1
  else .all [
    setFld (pgCroft c) R.croft_TRAP_STATUS_VALID 1,
    setFld (pgCroft c) R.croft_TRAP_STATUS_ENGINE t.engine,
    setFld (pgCroft c) R.croft_TRAP_STATUS_CAUSE cause,
    setFld (pgCroft c) R.croft_TRAP_STATUS_CROFT c,
    setReg (pgCroft c) R.croft_TRAP_ORDER_INDEX.off (BitVec.ofNat 32 t.idx),
    setFld (pgCroft c) R.croft_TRAP_TILE_ROW t.row,
    setFld (pgCroft c) R.croft_TRAP_TILE_COL t.col,
    setFld (pgCroft c) R.croft_TRAP_K_CHUNK t.chunk,
    setFld (pgCroft c) R.croft_TRAP_K_POS t.pos,
    latchBell (pgCroft c) R.croft_TRAP_BELL_LO R.croft_TRAP_BELL_HI,
    setFld (pgCroft c) R.croft_TRAP_FMT_A t.fa,
    setFld (pgCroft c) R.croft_TRAP_FMT_B t.fb,
    setFld (pgCroft c) R.croft_TRAP_FMT_RESULT t.fr,
    setFld (pgCroft c) R.croft_TRAP_FMT_ROUND t.rnd],
  raiseLine (pgCroft c),
  Prog.when (!s.bit (pgCroft c) R.croft_NUMCFG_NAN_MODE) (haltReq c 2)])

/-- The groups of `n` of a list of causes that hold a produced NaN: each group's number and lowest cause (R57). (DEDUCED, assumption 16) -/
def trapGroups (n : Nat) (causes : List Nat) : List (Nat × Nat) :=
  (List.range ((causes.length + n - 1) / max 1 n)).filterMap (fun g =>
    let cs := ((causes.drop (g * n)).take n).filter (· != 0)
    match cs with
    | [] => none
    | x :: xs => some (g, xs.foldl min x))

/-- For each group of 128 causes that holds one, the first element with the group's lowest cause (R57, R60). -/
def trapPlaces (causes : List Nat) : List (Nat × Nat) :=
  (trapGroups 128 causes).map (fun g =>
    (g.1 * 128 + (((causes.drop (g.1 * 128)).take 128).findIdx (fun x => x == g.2)), g.2))

/-- k-chunk and position of a trap of an order with a contraction: the place of a 0 × infinity product, and a free value where there
is none (R59, R60; DESIGN CHOICE, assumption 17). -/
def State.kPlace (s : State) (bad : Option (Nat × Nat)) : Nat × Nat :=
  bad.getD ((Config.openWord s.seq).toNat % 2 ^ 24, (Config.openWord s.seq).toNat / 2 ^ 24 % 128)

/-! ### Scale records -/

/-- A scale record is well formed: SCALE not 0xFF, HEADROOM at most 7, HIST_LEN 1 to 16, no reserved bit (R208). -/
def State.recordOk (s : State) (c o : Nat) : Bool :=
  s.sl c o 1 != 0xFF && decide (s.sl c (o + 1) 1 ≤ 7) && decide (1 ≤ s.sl c (o + 2) 1) && decide (s.sl c (o + 2) 1 ≤ 16) &&
  decide (s.sl c (o + 3) 1 ≤ 3) && s.sl c (o + 0x50) 48 == 0

/-- The new SCALE of a record before clamping (R209): `a` is the largest amax of the history. -/
def recordScale (f : Fmt) (a : Val) (scale headroom : Nat) : Int :=
  match a with
  | .fin _ m e =>
    if m = 0 then scale
    else
      let x := e + Nat.log2 m - f.emax
      let x := if Val.magLt f.maxM (f.maxE + x) m e then x + 1 else x
      x + 127 + headroom
  | _ => scale

/-- The engine's update of a scale record when its order completes (R209). `amax` is the FP32 value of the order's largest
finite magnitude. -/
def updateRecord (src : Option Source) (c o : Nat) (f : Fmt) (amax : Val) (corrected : Bool) : Prog := .get (fun s =>
  let base := sliceAddr c o
  let scale := s.sl c o 1
  let hl := max 1 (s.sl c (o + 2) 1)
  let writes := s.sl c (o + 4) 4
  .all [
    storeLe src (base + 0x10 + 4 * (writes % hl)) 4 (code32 amax),
    storeLe src (base + 4) 4 (writes + 1),
    .get (fun s =>
      let hist := (List.range (min (writes + 1) hl)).map (fun i => f32 (s.sl c (o + 0x10 + 4 * i) 4))
      let a := maxMag hist
      let n0 := recordScale f a scale (s.sl c (o + 1) 1)
      let n1 := if corrected then max n0 ((scale : Int) + 4) else n0
      let limit := decide (0xFE < n1)
      let n2 := (min (max n1 0) 0xFE).toNat
      .all [
        storeLe src base 1 n2,
        storeLe src (base + 3) 1 ((if corrected then 1 else 0) + (if limit then 2 else 0)),
        storeLe src (base + 0xC) 4 (code32 amax),
        Prog.when corrected (storeLe src (base + 8) 4 (s.sl c (o + 8) 4 + 1))])])

end Sys2Proof.Machine
end

