-- ==== Sys2Proof/Machine/Gate.lean ====
section
/-! DEFINITION. What every access from the host meets: the completions of R444, and the gate of register accesses before READY (R499) and
under reset (R18). -/
namespace Sys2Proof.Machine

/-! ### Completions (R444) -/

/-- Rows of R444, as ERR_LOG.KIND codes them. -/
def endUR : Nat := 0
def endRefused : Nat := 1
def endUE : Nat := 2
def endAbs : Nat := 3
def endTimeout : Nat := 4

/-- The counter of a row of R444. -/
def endCounter (kind : Nat) : Fld :=
  match kind with
  | 0 => R.host_UR_CNT
  | 1 => R.host_REFUSED_CNT
  | 2 => R.host_UE_CNT
  | 3 => R.host_ABS_CNT
  | _ => R.host_TIMEOUT_CNT

/-- A host access that cannot be carried out: counted, logged, its line raised, and a read answered (R444). (DEDUCED, assumption 148) -/
def hostEnd (bar kind : Nat) (write : Bool) (off : Nat) : Prog := .get (fun s => .all [
  bump pgHost (endCounter kind),
  if s.bit pgHost R.host_ERR_LOG_VALID then setFld pgHost R.host_ERR_LOG_OVERRUN 1
  else .all [
    setFld pgHost R.host_ERR_LOG_BAR bar,
    setFld pgHost R.host_ERR_LOG_KIND kind,
    setBit pgHost R.host_ERR_LOG_WRITE write,
    setFld pgHost R.host_ERR_LOG_VALID 1,
    setFld pgHost R.host_ERR_ADDR_LO off,
    setFld pgHost R.host_ERR_ADDR_HI (off / 2 ^ 32)],
  raiseLine pgHost,
  Prog.when (!write) (emit (if kind = endUR then .ur else .ca))])

/-! ### The gate of register accesses -/

/-- BOOT.PHASE of READY and STOPPED (R518). -/
def phReady : Nat := 8
def phStopped : Nat := 9

/-- BOOT.PHASE reads READY (R499). -/
def State.atReady (s : State) : Bool := s.fld pgDevctl R.devctl_BOOT_PHASE == phReady

/-- Whether an access of the host to page `p` completes as for a device in reset: before READY it reaches the device control page only
(R499, R514). (DEDUCED, assumption 84) -/
def State.shut (s : State) (who : Agent) (p : Page) : Bool := who == .host && !s.atReady && p != pgDevctl

/-- A write to offset `o` of page `p` has the effect `k`, unless the device or the page's block is under reset (R18, R444, R499). -/
def regWrite (who : Agent) (p : Page) (o : Nat) (k : Prog) : Prog := .get (fun s =>
  if s.shut who p then hostEnd 0 endAbs true (p.base + o)
  else if s.underReset p && p != pgDevctl then ignored p
  else k)

/-- A read of offset `o` of page `p` has the effect `k`; under reset it returns zero, except STATE, which reads BUSY (R18). -/
def regRead (who : Agent) (p : Page) (o : Nat) (k : Prog) : Prog := .get (fun s =>
  if s.shut who p then hostEnd 0 endAbs false (p.base + o)
  else if s.underReset p && p != pgDevctl then emit (.read (if o = 0x00C then stBusy else 0))
  else k)

end Sys2Proof.Machine
end

