-- ==== Sys2Proof/Machine/Reeve.lean ====
section
/-! DEFINITION. The reeve: issue of every order kind, its own orders, tokens, halts, the watchdog and restarts (R240 to R271). -/
namespace Sys2Proof.Machine

/-! ### Issue -/

/-- The index after `i` in stream order, stepping over the check slot (R240). -/
def nextIdx (i : Nat) : Nat := if (i + 1) % 256 = 255 then i + 2 else i + 1

/-- What stands at the reeve's PC: nothing to issue now, a reason to stop with its cause and the slice offset of its record, or
an order. -/
inductive Ready where
  | no
  | stop (cause addr : Nat)
  | order (i : Nat) (w : OrderWord) (o : Order)
deriving DecidableEq, Repr

/-- PC of croft `c`. -/
def State.pc (s : State) (c : Nat) : Nat := s.fld (pgReeve c) R.reeve_PC_INDEX

/-- Whether the croft's island clock runs: it does not relock, and the power state does not gate it (R288, R480). (DEDUCED, assumption 79)
-/
def State.clockRuns (s : State) (c : Nat) : Bool :=
  !s.bit (pgCroft c) R.croft_CLK_RELOCK && s.dev.power.level == .on && s.fld pgPower R.power_STATUS_PSTATE != 2

/-- Whether croft `c`'s reeve issues: it runs, is not halting, is not stopped by its watchdog and its clock runs. -/
def State.issuing (s : State) (c : Nat) : Bool :=
  s.running c && s.enabled (pgReeve c) && !s.underReset (pgReeve c) && (s.reeve c).halting.isNone && !(s.reeve c).dead &&
  s.clockRuns c

/-- Stream rules at an order: LOOP targets and loops at a step FENCE (cause 7; R255, R260), the layer span's (8; R254) and heritage's (9;
R232). The lowest cause that it breaks, if any (R266). -/
def State.streamRule (s : State) (c i : Nat) (w : OrderWord) (o : Order) : Option Nat :=
  let r := s.reeve c
  let inSpan := r.span.isSome
  let layerOk := match r.span with | none => true | some (_, l) => orderLayer w == l
  let spanStart := match r.span with | none => 0 | some (a, _) => a
  let loop := match o with
    | .fence _ _ _ true => r.loops.any (·.active)
    | .loop _ _ t => decide (i ≤ t) || decide (t < spanStart)
    | _ => false
  let span := match o with
    | .fence _ true false _ => inSpan
    | .fence _ true true _ => !inSpan || !layerOk
    | .fence _ _ _ true => inSpan
    | .tokenSignal .. | .sluice .. | .tallyCompare .. => inSpan
    | _ => !layerOk
  let her := match o with | .load .. | .draw .. => s.bit pgNum R.numstep_CFG_HERITAGE | _ => false
  if loop then some 7 else if span then some 8 else if her then some 9 else none

/-- What stands at the PC of croft `c` (R241, R243, R244, R261). -/
def State.ready (s : State) (c : Nat) : Ready :=
  let r := s.reeve c
  let i := s.pc c
  let addr := s.orderOffset c i
  if !s.issuing c then .no
  else if i % 256 = 255 ∨ s.fld (pgReeve c) R.reeve_STREAM_CFG_LEN ≤ i / 256 then .stop 6 addr
  else
    match r.failed with
    | some (n, cause) => if n = i / 256 then .stop cause (s.orderOffset c (n * 256 + 255)) else held
    | none => held
where
  /-- The order of a held chunk. -/
  held : Ready :=
    let r := s.reeve c
    let i := s.pc c
    match r.chunks.find? (fun k => k.no == i / 256) with
    | none => .no
    | some k =>
      let w := (Sparse.get? k.slots (i % 256)).getD 0
      match decodeOrder w with
      | .error e => .stop e (s.orderOffset c i)
      | .ok o =>
        match s.streamRule c i w o with
        | some e => .stop e (s.orderOffset c i)
        | none => .order i w o

/-- An issue row: where the reeve has an order to issue and it is of the row's form, its program; where the order at PC stops
the reeve, that stop; otherwise nothing. -/
def issueRow (c : Nat) (f : State → Nat → OrderWord → Order → Option Prog) : Prog := .get (fun s =>
  match s.ready c with
  | .no => .done
  | .stop cause addr => reeveFault c cause (s.pc c) addr
  | .order i w o =>
    match (s.reeve c).wait with
    | .none | .queueFull => (f s i w o).getD .done
    | _ => .done)

def setWait (c : Nat) (w : Wait) : Prog := modReeve c (fun r => { r with wait := w })
def setPC (c i : Nat) : Prog := setFld (pgReeve c) R.reeve_PC_INDEX i

/-- An order is issued: counted (R270). -/
def countIssue (c : Nat) : Prog := bump (pgReeve c) R.reeve_ISSUE_CNT

/-- An order that completes at issue: the reeve goes on at `j`. -/
def issueDone (c j : Nat) : Prog := .all [countIssue c, setWait c .none, setPC c j]

/-- An order whose wait begins: PC stays at it until the wait ends (R263). -/
def issueWait (c : Nat) (w : Wait) : Prog := .all [countIssue c, setWait c w]

/-- Orders of a unit that wait in its queue (R245). -/
def Reeve.queued (r : Reeve) (unit : Nat) : Nat := (r.orders.filter (fun o => o.unit == unit && !o.started)).length

/-- Issue an engine order to its queue of `cap` places; while it is full, issue waits and is counted once (R245). -/
def issueEngine (c i : Nat) (w : OrderWord) (unit engine cap : Nat) (after : Wait) : Prog := .get (fun s =>
  if cap ≤ (s.reeve c).queued unit then
    Prog.when ((s.reeve c).wait != .queueFull) (.all [bump (pgReeve c) R.reeve_QFULL_CNT, setWait c .queueFull])
  else .all [
    countIssue c,
    modReeve c (fun r => { r with
      orders := r.orders ++ [⟨r.serial, i, w, unit, engine, false, r.wide⟩], serial := r.serial + 1, wait := after }),
    Prog.when (after == .none) (setPC c (nextIdx i))])

/-- Whether an order's results pass through the mill as a PUMP order with an epilogue (R244). -/
def Issued.fused (o : Issued) : Bool :=
  match decodeOrder o.word with
  | .ok (.pump _ _ e _) => e != .none
  | _ => false

/-- The units of MASK bits 0 to 5 that an order occupies: its own, and the mill's for one with an epilogue (R244). -/
def Issued.mask (o : Issued) : Nat := 2 ^ o.unit ||| (if o.fused then 0x20 else 0)

/-- Whether every incomplete order lies outside the units of MASK bits 0 to 5 (R253). -/
def Reeve.drained (r : Reeve) (mask : Nat) : Bool := r.orders.all (fun o => o.mask &&& mask == 0)

/-- Whether an order of the given word at PC is what croft `c` waits on: the order at PC. -/
def State.waiting (s : State) (c : Nat) : Option (Nat × OrderWord × Order) :=
  let r := s.reeve c
  let i := s.pc c
  if !(s.running c) || s.underReset (pgReeve c) || r.dead || r.halting.isSome || !s.clockRuns c then none
  else
    match r.chunks.find? (fun k => k.no == i / 256) with
    | none => none
    | some k =>
      let w := (Sparse.get? k.slots (i % 256)).getD 0
      match decodeOrder w with
      | .error _ => none
      | .ok o => some (i, w, o)

/-! ### Control orders -/

/-- NOP: completes at issue (R244, R246). -/
def execNop (c : CroftId) (s : State) : Host.Outcome State Fault Refusal :=
  Prog.next (issueRow c.val (fun _ i _ o =>
    match o with | .nop => some (issueDone c.val (nextIdx i)) | _ => none)) s

/-- HALT: waits for every issued order and pending signal (R262). -/
def execHalt (c : CroftId) (s : State) : Host.Outcome State Fault Refusal :=
  Prog.next (issueRow c.val (fun _ _ _ o =>
    match o with | .halt _ => some (issueWait c.val .haltOrder) | _ => none)) s

/-- FENCE: waits on the units of its MASK (R253). -/
def execFence (c : CroftId) (s : State) : Host.Outcome State Fault Refusal :=
  Prog.next (issueRow c.val (fun _ _ _ o =>
    match o with | .fence _ false _ false => some (issueWait c.val .fence) | _ => none)) s

/-- FENCE with LAYER 1 and CLOSE 0 (R254). -/
def execLayerFenceOpen (c : CroftId) (s : State) : Host.Outcome State Fault Refusal :=
  Prog.next (issueRow c.val (fun _ _ _ o =>
    match o with | .fence _ true false false => some (issueWait c.val .fence) | _ => none)) s

/-- FENCE with LAYER 1 and CLOSE 1 (R254); its wait over, FENCE_COMPLETE closes or repeats the span (R213). -/
def execLayerFenceClose (c : CroftId) (s : State) : Host.Outcome State Fault Refusal :=
  Prog.next (issueRow c.val (fun _ _ _ o =>
    match o with | .fence _ true true false => some (issueWait c.val .fence) | _ => none)) s

/-- FENCE with STEP 1 (R255); its wait over, STEP_REPORT reports the croft. -/
def execStepFence (c : CroftId) (s : State) : Host.Outcome State Fault Refusal :=
  Prog.next (issueRow c.val (fun _ _ _ o =>
    match o with | .fence _ false _ true => some (issueWait c.val .fence) | _ => none)) s

/-- One LOOP of level `l`: the registers after it, and whether it jumps (R260). -/
def loopStep (ls : List LoopReg) (l count : Nat) : List LoopReg × Bool :=
  let cur := ls.getD l ⟨0, false⟩
  let n := if cur.active then cur.count else count - 1
  if 0 < n then (ls.set l ⟨n - 1, true⟩, true) else (ls.set l ⟨0, false⟩, false)

/-- LOOP (R260). -/
def execLoop (c : CroftId) (s : State) : Host.Outcome State Fault Refusal :=
  Prog.next (issueRow c.val (fun s i _ o =>
    match o with
    | .loop l count target =>
      let st := loopStep (s.reeve c.val).loops l count
      some (.all [modReeve c.val (fun r => { r with loops := st.1 }),
        issueDone c.val (if st.2 then target else nextIdx i)])
    | _ => none)) s

/-- Count of token `t` (R256). -/
def Reeve.token (r : Reeve) (t : Nat) : Nat := (Sparse.get? r.tokens t).getD 0

/-- Set a token's count. -/
def setToken (c t n : Nat) : Prog := modReeve c (fun r => { r with tokens := Sparse.set r.tokens t n })

/-- TOKEN WAIT: its wait begins, counted where the count is short; on a span's repeat it completes at issue without consuming,
except on the phase token (R254, R256, R277). -/
def execTokenWait (c : CroftId) (s : State) : Host.Outcome State Fault Refusal :=
  Prog.next (issueRow c.val (fun s i _ o =>
    match o with
    | .tokenWait t n =>
      let r := s.reeve c.val
      if r.wide && !s.isPhaseToken c.val t then some (issueDone c.val (nextIdx i))
      else some (.all [issueWait c.val .token,
        Prog.when (!r.wide && decide (r.token t < n)) (bump (pgReeve c.val) R.reeve_TOKEN_WAIT_CNT)])
    | _ => none)) s

/-- TOKEN SIGNAL: enters the list of up to 16 pending signals; a 17th waits for a free place (R257). -/
def execTokenSignal (c : CroftId) (s : State) : Host.Outcome State Fault Refusal :=
  Prog.next (issueRow c.val (fun s i w o =>
    match o with
    | .tokenSignal .. =>
      if 16 ≤ (s.reeve c.val).pend.length then some (setWait c.val .queueFull)
      else some (.all [
        modReeve c.val (fun r => { r with pend := r.pend ++ [⟨r.serial, i, w⟩] }),
        issueDone c.val (nextIdx i)])
    | _ => none)) s

/-- STEP_BELL of the croft (R255). -/
def State.stepBell (s : State) (c : Nat) : Nat :=
  (s.reg (pgReeve c) R.reeve_STEP_BELL_LO.off).toNat + 2 ^ 32 * (s.reg (pgReeve c) R.reeve_STEP_BELL_HI.off).toNat

/-- A BELL order with its target: already passed, it completes at once and is counted late; otherwise its wait begins (R259). -/
def bellIssue (c i target : Nat) : Prog := .get (fun s =>
  if target ≤ s.bellNow then .all [bump (pgReeve c) R.reeve_BELL_LATE_CNT, issueDone c (nextIdx i)]
  else issueWait c (.bell target))

/-- BELL in ABS mode (R259). -/
def execBellAbs (c : CroftId) (s : State) : Host.Outcome State Fault Refusal :=
  Prog.next (issueRow c.val (fun _ i _ o =>
    match o with | .bell false t => some (bellIssue c.val i t) | _ => none)) s

/-- BELL in REL mode (R259). -/
def execBellRel (c : CroftId) (s : State) : Host.Outcome State Fault Refusal :=
  Prog.next (issueRow c.val (fun s i _ o =>
    match o with | .bell true t => some (bellIssue c.val i (s.stepBell c.val + t)) | _ => none)) s

/-- SEED: waits for earlier rounding orders (R46). -/
def execSeed (c : CroftId) (s : State) : Host.Outcome State Fault Refusal :=
  Prog.next (issueRow c.val (fun _ _ _ o =>
    match o with | .seed _ => some (issueWait c.val .seed) | _ => none)) s

/-- The orders that write rounded results: those of pumps and mill, and DRAWs, whose merges round (R46, R191). -/
def Issued.rounds (o : Issued) : Bool := o.unit != 0 || bitsOf o.word.toNat 0 6 == 0x11

/-- SEED_LOAD: once earlier rounding orders have completed, every lane is loaded from the seed (R45, R46). -/
def execSeedLoad (c : CroftId) (s : State) : Host.Outcome State Fault Refusal :=
  Prog.next (.get (fun s =>
    let r := s.reeve c.val
    let i := s.pc c.val
    let w : OrderWord := match r.chunks.find? (fun k => k.no == i / 256) with
      | none => 0
      | some k => (Sparse.get? k.slots (i % 256)).getD 0
    if r.wait == .seed && !r.dead && !s.underReset (pgReeve c.val) && s.clockRuns c.val && r.orders.all (fun o => !o.rounds) then .all [
      modCroft c.val (fun k => { k with lanes := [], laneRan := 0, laneSeed := BitVec.ofNat 32 (bitsOf w.toNat 32 32) }),
      setReg (pgCroft c.val) R.croft_SEED_LAST.off (BitVec.ofNat 32 (bitsOf w.toNat 32 32)),
      setWait c.val .none, setPC c.val (nextIdx i)]
    else .done)) s

/-! ### Engine orders -/

/-- LOAD, issued to the well group (R73, R245). -/
def execLoad (c : CroftId) (s : State) : Host.Outcome State Fault Refusal :=
  Prog.next (issueRow c.val (fun _ i w o =>
    match o with | .load .. => some (issueEngine c.val i w 0 1 16 .none) | _ => none)) s

/-- DRAW, issued to the well group (R85, R245). -/
def execDraw (c : CroftId) (s : State) : Host.Outcome State Fault Refusal :=
  Prog.next (issueRow c.val (fun _ i w o =>
    match o with | .draw .. => some (issueEngine c.val i w 0 1 16 .none) | _ => none)) s

/-- PLUMB of kind WINDOW, issued to the well group's queue for the plumb (R118, R245). -/
def execPlumbWindow (c : CroftId) (s : State) : Host.Outcome State Fault Refusal :=
  Prog.next (issueRow c.val (fun _ i w o =>
    match o with | .plumb _ false => some (issueEngine c.val i w 0 7 16 .none) | _ => none)) s

/-- PLUMB of kind SOUND (R118, R245). -/
def execPlumbSound (c : CroftId) (s : State) : Host.Outcome State Fault Refusal :=
  Prog.next (issueRow c.val (fun _ i w o =>
    match o with | .plumb _ true => some (issueEngine c.val i w 0 7 16 .none) | _ => none)) s

/-- A PUMP order of a given epilogue, issued to its pump (R146, R245). -/
def issuePump (c : Nat) (e : Epi) : Prog := issueRow c (fun _ i w o =>
  match o with
  | .pump p _ e' _ => if e' = e then some (issueEngine c i w (p + 1) (p + 2) 4 .none) else none
  | _ => none)

/-- PUMP without an epilogue (R146). -/
def execPump (c : CroftId) (s : State) : Host.Outcome State Fault Refusal := Prog.next (issuePump c.val .none) s

/-- PUMP with the SMAX_BWD epilogue (R171). -/
def execSmaxBwd (c : CroftId) (s : State) : Host.Outcome State Fault Refusal := Prog.next (issuePump c.val .smaxBwd) s

/-- PUMP with the NORM_BWD_RMS epilogue (R172). -/
def execNormBwdRms (c : CroftId) (s : State) : Host.Outcome State Fault Refusal := Prog.next (issuePump c.val .normBwdRms) s

/-- PUMP with the NORM_BWD_LAYER epilogue (R172). -/
def execNormBwdLayer (c : CroftId) (s : State) : Host.Outcome State Fault Refusal := Prog.next (issuePump c.val .normBwdLayer) s

/-- A MILL order of a given operation, or of a reserved code, which no row names, issued to the mill (R184, R206, R245). (DEDUCED,
assumption 31) -/
def issueMill (c op : Nat) : Prog := issueRow c (fun _ i w o =>
  match o with
  | .mill op' _ => if op' = op ∨ !millOpKnown op' then some (issueEngine c i w 5 6 4 .none) else none
  | _ => none)

/-- A TALLY COMPARE, issued to the mill; the reeve waits for its verdict (R224, R246). -/
def issueCompare (c : Nat) : Prog := issueRow c (fun _ i w o =>
  match o with
  | .tallyCompare .. => some (issueEngine c i w 5 8 4 .verdict)
  | _ => none)

/-! ### Chunks -/

/-- One step of CRC-32 of IEEE 802.3 over a byte, low bit first. -/
def crcByte (crc : BitVec 32) (b : Byte) : BitVec 32 :=
  (List.range 8).foldl (fun r _ => if r.getLsbD 0 then (r >>> 1) ^^^ 0xEDB88320#32 else r >>> 1) (crc ^^^ b.setWidth 32)

/-- CRC-32 of IEEE 802.3. -/
def crc32 (bs : List Byte) : BitVec 32 := (bs.foldl crcByte 0xFFFFFFFF#32) ^^^ 0xFFFFFFFF#32

/-- The check record's fields other than its CRC agree (R241). -/
def checkRecordOk (w : OrderWord) (id n : Nat) : Bool :=
  let v := w.toNat
  bitsOf v 0 6 == 0x3F && bitsOf v 6 10 == 0 && bitsOf v 16 16 == id && bitsOf v 32 32 == n && bitsOf v 96 32 == 0

/-- The slots of a chunk's bytes that are not zero. -/
def chunkSlots (bs : List Byte) : List (Nat × OrderWord) :=
  (List.range 255).filterMap (fun i =>
    let w := BitVec.ofNat 128 (leNat ((bs.drop (16 * i)).take 16))
    if w = 0 then none else some (i, w))

/-- The chunk a reeve fetches next: that of its PC, then the one after in stream order (R242). -/
def State.fetchWanted (s : State) (c n : Nat) : Bool :=
  let r := s.reeve c
  let p := s.pc c / 256
  let have' := fun k => r.chunks.any (fun x => x.no == k)
  let len := s.fld (pgReeve c) R.reeve_STREAM_CFG_LEN
  s.running c && !r.dead && !s.underReset (pgReeve c) && s.clockRuns c && decide (n < len) && !have' n &&
  (match r.failed with | some (k, _) => k != n | none => true) &&
  (n == p || (n == p + 1 && have' p))

/-- The reeve reads the slots of chunk `n` at slice offset `o`: an uncorrectable read names the slot (R242, R268). -/
def fetchReads (c n o : Nat) : Prog := .get (fun s =>
  if s.intact then .done
  else Prog.each (List.range 256) (fun i => readBy (byEngine 0 (n * 256 + i)) (sliceAddr c (o + 16 * i)) 16))

/-- CHUNK_FETCH_DONE: a chunk's 4,096 bytes are fetched and its check record verified; a CRC mismatch is fetched once more,
any other failure marks the chunk as failing (R241, R242). -/
def execChunkFetchDone (c : CroftId) (n : Nat) (flips : List (Nat × Byte)) (s : State) : Host.Outcome State Fault Refusal :=
  Prog.next (.get (fun s =>
    if !s.fetchWanted c.val n then .done
    else .all [fetchReads c.val n (s.orderOffset c.val (n * 256)), .get (fun s =>
      let raw := s.bytes (sliceAddr c.val (s.orderOffset c.val (n * 256))) 4096
      let bs := (List.range 4096).map (fun i => raw.getD i 0 ^^^ (Sparse.get? flips i).getD 0)
      let rec' := BitVec.ofNat 128 (leNat (bs.drop 4080))
      let fail (cause : Nat) : Prog := modReeve c.val (fun r => { r with failed := some (n, cause), refetch := none })
      if !checkRecordOk rec' (s.fld (pgReeve c.val) R.reeve_STREAM_CFG_ID) n then fail 5
      else if bitsOf rec'.toNat 64 32 ≠ (crc32 (bs.take 4080)).toNat then
        if (s.reeve c.val).refetch = some n then fail 4
        else .all [modReeve c.val (fun r => { r with refetch := some n }), bump (pgReeve c.val) R.reeve_REFETCH_CNT]
      else .all [
        modReeve c.val (fun r => { r with
          chunks := (r.chunks.filter (fun k => k.no == s.pc c.val / 256)) ++ [⟨n, chunkSlots bs⟩], refetch := none }),
        bump (pgReeve c.val) R.reeve_CHUNK_CNT])])) s

/-! ### Waits that end -/

/-- SCALE of the record at slice offset `o` rises by 4 and CORRECT_CNT advances (R207, R213). -/
def raiseRecord (src : Option Source) (c o : Nat) : Prog := .get (fun s =>
  let sc := s.sl c o 1
  .all [storeLe src (sliceAddr c o) 1 (min 0xFE (sc + 4)), storeLe src (sliceAddr c (o + 8)) 4 (s.sl c (o + 8) 4 + 1)])

/-- A closing FENCE's wait is over: the span repeats once a step after OVF, or closes (R213, R254, R278). -/
def closeSpan (c i layer : Nat) : Prog := .get (fun s =>
  let r := s.reeve c
  let openIdx := (r.span.getD (0, 0)).1
  if r.spanOvf && !r.wide && !r.repeated.contains openIdx then .all [
    Prog.each r.spanRecs (raiseRecord (byEngine 0 i) c),
    bump pgNum R.numstep_LREPEAT_CNT,
    modReeve c (fun r => { r with
      wide := true, spanOvf := false, spanRecs := [], repeated := r.repeated ++ [openIdx], wait := .none }),
    modCroft c (fun k => { k with wideRefs := [] }),
    setFld (pgOwn c) R.own_STATUS_PHASE (s.fld (pgOwn c) R.own_STATUS_SPAN_PHASE),
    setPC c (nextIdx openIdx),
    fallBack c layer 2]
  else .all [
    modReeve c (fun r => { r with wide := false, span := none, spanOvf := false, spanRecs := [], wait := .none }),
    modCroft c (fun k => { k with wideRefs := [] }),
    setPC c (nextIdx i)])

/-- FENCE_COMPLETE: the orders before a FENCE have completed; a plain FENCE ends, a span opens, closes or repeats. A step FENCE
goes on to STEP_REPORT (R253 to R255, R213). -/
def execFenceComplete (c : CroftId) (s : State) : Host.Outcome State Fault Refusal :=
  Prog.next (.get (fun s =>
    let r := s.reeve c.val
    if r.wait != .fence then .done
    else
      match s.waiting c.val with
      | some (i, w, .fence mask layer close step) =>
        let all := layer || step
        if !(r.drained (if all then 0x3F else mask) && (!(all || mask / 64 % 2 == 1) || r.pend.isEmpty)) || step then .done
        else if layer && close then closeSpan c.val i (orderLayer w)
        else if layer then .all [
          modReeve c.val (fun r => { r with span := some (i, orderLayer w), spanOvf := false, spanRecs := [], wait := .none }),
          setFld (pgReeve c.val) R.reeve_SPAN_OPEN_IDX i,
          setFld (pgOwn c.val) R.own_STATUS_SPAN_PHASE (s.phase c.val),
          setPC c.val (nextIdx i)]
        else .all [setWait c.val .none, setPC c.val (nextIdx i)]
      | _ => .done)) s

/-- TOKEN_WAIT_COMPLETE: the count suffices and is consumed, and on the phase token, its drain over, the phase advances; on a
span's repeat nothing is consumed (R256, R277, R278). -/
def execTokenWaitComplete (c : CroftId) (s : State) : Host.Outcome State Fault Refusal :=
  Prog.next (.get (fun s =>
    let r := s.reeve c.val
    if r.wait != .token then .done
    else
      match s.waiting c.val with
      | some (i, _, .tokenWait t n) =>
        let ph := s.isPhaseToken c.val t
        if (ph && !r.drained 0x3F) || (!r.wide && decide (r.token t < n)) then .done
        else .all [
          Prog.when (!r.wide) (setToken c.val t (r.token t - n)),
          Prog.when ph (phaseAdvance c.val),
          setWait c.val .none, setPC c.val (nextIdx i)]
      | _ => .done)) s

/-- A signal adds its count to a token of croft `c`; past 65,535 it is held there, counted and flagged (R256, R258). -/
def signalToken (c t n : Nat) : Prog := .get (fun s =>
  let v := (s.reeve c).token t + n
  if v ≤ 65535 then setToken c t v
  else .all [setToken c t 65535, bump (pgReeve c) R.reeve_TOKEN_OVF_CNT,
    setFld (pgReeve c) R.reeve_STATUS_TOKEN_OVF 1, raiseLine (pgReeve c), tellWatchOpen])

/-- PENDING_SIGNAL_SEND: the oldest pending signal leaves once the orders issued before it to the units of its MASK are
complete (R257). -/
def execPendingSignalSend (c : CroftId) (s : State) : Host.Outcome State Fault Refusal :=
  Prog.next (.get (fun s =>
    let r := s.reeve c.val
    match r.pend with
    | [] => .done
    | p :: rest =>
      match decodeOrder p.word with
      | .ok (.tokenSignal t n dst mask) =>
        if s.underReset (pgReeve c.val) || !s.clockRuns c.val || !(r.orders.all (fun o => decide (p.before ≤ o.serial) || o.mask &&& mask == 0)) then
          .done
        else .all [
          modReeve c.val (fun r => { r with pend := rest }),
          bump (pgReeve c.val) R.reeve_SIGNAL_CNT,
          modDev (fun d => { d with signals := d.signals ++ [{ src := some c.val, dst := dst, token := t, count := n }] })]
      | _ => .done)) s

/-- BELL_WAIT_COMPLETE: the croft's Bell view has reached the target (R259, R397). -/
def execBellWaitComplete (c : CroftId) (s : State) : Host.Outcome State Fault Refusal :=
  Prog.next (.get (fun s =>
    match (s.reeve c.val).wait, s.waiting c.val with
    | .bell target, some (i, _, _) =>
      if target ≤ s.bellNow then .all [setWait c.val .none, setPC c.val (nextIdx i)] else .done
    | _, _ => .done)) s

/-! ### Halts -/

/-- A croft reads HALTED: a pending stop ends with the last enabled reeve (R546), and under abandonment the device counts as
halted with the last, which its Steward floods (R218). -/
def croftStops (c : Nat) : Prog := .all [
  setFld (pgReeve c) R.reeve_STATUS_RUNNING 0,
  setFld (pgReeve c) R.reeve_STATUS_HALTED 1,
  modReeve c (fun r => { r with halting := none }),
  .get (fun s => Prog.when (s.bit pgPlan R.plan_STATUS_STOP_PENDING && s.enabledReeves.all (fun k => !s.running k))
    (.all [setFld pgPlan R.plan_STATUS_STOP_PENDING 0, bump pgPlan R.plan_STOP_CNT])),
  countHalted]

/-- Whether everything croft `c` issued has run out: the end of the drain of R263. -/
def Reeve.ranOut (r : Reeve) : Bool := r.orders.isEmpty && r.pend.isEmpty

/-- HALT_COMPLETE: a HALT order's wait ends and the croft halts with its reason and CODE (R262). -/
def execHaltComplete (c : CroftId) (s : State) : Host.Outcome State Fault Refusal :=
  Prog.next (.get (fun s =>
    let r := s.reeve c.val
    match r.wait, s.waiting c.val with
    | .haltOrder, some (i, _, .halt code) =>
      if r.ranOut then .all [
        setFld (pgReeve c.val) R.reeve_HALT_INFO_CODE code,
        setFld (pgReeve c.val) R.reeve_STATUS_HALT_REASON 1,
        setWait c.val .none, setPC c.val (nextIdx i),
        croftStops c.val,
        raiseLine (pgReeve c.val)]
      else .done
    | _, _ => .done)) s

/-- CROFT_HALTED: the drain of a halting croft ends (R263). -/
def execCroftHalted (c : CroftId) (s : State) : Host.Outcome State Fault Refusal :=
  Prog.next (.get (fun s =>
    let r := s.reeve c.val
    if r.halting.isSome && !r.dead && s.clockRuns c.val && r.ranOut && r.wait != .verdict && r.wait != .seed then croftStops c.val else .done)) s

/-- The reeve stops at once without drain, its page reads FAULT with cause 0x0A, FAULT_IDX names the order waited on or the oldest
incomplete one, and pending signals are discarded (R267). -/
def stopAtOnce (c : Nat) : Prog := .get (fun s =>
  let r := s.reeve c
  let o := r.orders.head?
  let idx := if r.wait != .none then s.pc c else (o.map (·.idx)).getD (s.pc c)
  let eng := if r.wait != .none then 0 else (o.map (·.engine)).getD 0
  .all [
    faultRecord (pgReeve c) 0x0A (s.orderOffset c idx),
    raiseLine (pgReeve c),
    setFld (pgReeve c) R.reeve_FAULT_IDX_INDEX idx,
    setFld (pgReeve c) R.reeve_FAULT_IDX_ENGINE eng,
    if r.halting.isSome then setFld (pgReeve c) R.reeve_STATUS_MORE 1
      else setFld (pgReeve c) R.reeve_STATUS_HALT_REASON 4,
    modReeve c (fun r => { r with pend := [], dead := true }),
    croftStops c,
    tellWatch 14,
    stepEnds])

/-- Whether the watchdog of croft `c` can expire or be acted on: its reeve runs and has not stopped so already. -/
def State.watched (s : State) (c : Nat) : Bool := s.running c && !(s.reeve c).dead && !s.underReset (pgReeve c)

/-- WATCHDOG_EXPIRY (R267). (DESIGN CHOICE, assumption 7) -/
def execWatchdogExpiry (c : CroftId) (s : State) : Host.Outcome State Fault Refusal :=
  Prog.next (.get (fun s => Prog.when (s.watched c.val) (stopAtOnce c.val))) s

/-! ### Restarts -/

/-- The pages of croft `c` (R535). -/
def croftPages (c : Nat) : List Page :=
  [pgCroft c, pgReeve c, pgMill c, pgSluice c, pgPlumb c, pgTally c, pgOwn c, pgCist c] ++
  (List.range 4).map (fun p => pgPump (c * 4 + p)) ++ (List.range 16).map (fun w => pgWell (c * 16 + w)) ++
  (List.range 16).map (fun g => ⟨.qgroup, c * 16 + g⟩)

/-- Whether a page of croft `c` reads FAULT. -/
def State.croftFault (s : State) (c : Nat) : Bool := (croftPages c).any (fun p => s.fld p R.STATE_STATE == stFault)

/-- A restart takes effect only on a halted croft none of whose pages reads FAULT (R265). -/
def State.canRestart (s : State) (c : Nat) : Bool :=
  s.bit (pgReeve c) R.reeve_STATUS_HALTED && s.enabled (pgReeve c) && !s.croftFault c && !s.underReset (pgReeve c)

/-- The reeve goes on at `i`, its halt record cleared (R264, R265). (DEDUCED, assumption 29) -/
def restartAt (c i : Nat) : Prog := .all [
  setFld (pgReeve c) R.reeve_STATUS_HALTED 0,
  setFld (pgReeve c) R.reeve_STATUS_HALT_REASON 0,
  setFld (pgReeve c) R.reeve_STATUS_MORE 0,
  setFld (pgReeve c) R.reeve_STATUS_RUNNING 1,
  setPC c i,
  modReeve c (fun r => { r with wait := .none, halting := none, failed := none, refetch := none, reported := false })]

/-- What OP 3 clears beside: tokens, loop registers, span state and WIDE; the phase returns to 0 (R265, R277). -/
def cleanReeve (c : Nat) : Prog := .all [
  modReeve c (fun r => { r with
    tokens := [], loops := [⟨0, false⟩, ⟨0, false⟩, ⟨0, false⟩, ⟨0, false⟩], span := none, wide := false,
    spanOvf := false, spanRecs := [], repeated := [] }),
  modCroft c (fun k => { k with wideRefs := [] }),
  setFld (pgOwn c) R.own_STATUS_PHASE 0]

/-- A clean restart at `i` (R265). -/
def cleanRestartAt (c i : Nat) : Prog := .all [cleanReeve c, restartAt c i]

/-- An OP 3 restart: it takes effect, or is counted (R265, R4). -/
def cleanRestartOr (c i : Nat) : Prog := .get (fun s => if s.canRestart c then cleanRestartAt c i else ignored (pgReeve c))

/-- An OP 1 restart: it takes effect, or is counted (R265, R4). -/
def restartOr (c i : Nat) : Prog := .get (fun s => if s.canRestart c then restartAt c i else ignored (pgReeve c))

/-- REEVE_RESTART: `REEVE.CMD` OP 1 (R265). -/
def execReeveRestart (c : CroftId) (idx : BitVec 24) (s : State) : Host.Outcome State Fault Refusal :=
  Prog.next (regWrite .host (pgReeve c.val) R.reeve_CMD_OP.off (restartOr c.val idx.toNat)) s

/-- REEVE_HALT_REQUEST: `REEVE.CMD` OP 2 (R265). (DEDUCED, assumption 30) -/
def execReeveHaltRequest (c : CroftId) (s : State) : Host.Outcome State Fault Refusal :=
  Prog.next (regWrite .host (pgReeve c.val) R.reeve_CMD_OP.off (haltReq c.val 7)) s

/-- CLEAN_RESTART: `REEVE.CMD` OP 3 (R265). -/
def execCleanRestart (c : CroftId) (idx : BitVec 24) (s : State) : Host.Outcome State Fault Refusal :=
  Prog.next (regWrite .host (pgReeve c.val) R.reeve_CMD_OP.off (cleanRestartOr c.val idx.toNat)) s

end Sys2Proof.Machine
end

