-- ==== Sys2Proof/Machine/Engine.lean ====
section
/-! DEFINITION. What the engines of a croft share: checks of argument blocks and their faults, rights of regions, and the end of
an order (R246, R266, R274, R563). -/
namespace Sys2Proof.Machine

/-- One check of an order's start: whether it fails, its fault cause and the slice offset it names. -/
structure Check where
  bad : Bool
  cause : Nat
  addr : Nat
deriving DecidableEq, Repr

/-- The failing check of the lowest cause, and of its lowest address (R266). (DEDUCED, assumption 18) -/
def firstFault (cs : List Check) : Option (Nat × Nat) :=
  (cs.filter (·.bad)).foldl (fun b k =>
    match b with
    | none => some (k.cause, k.addr)
    | some (c, a) => if k.cause < c ∨ (k.cause = c ∧ k.addr < a) then some (k.cause, k.addr) else b) none

/-- Whether a region of a tensor lies wholly in the slice. -/
def inSlice (o n : Nat) : Bool := decide (o + n ≤ sliceSize)

/-- The checks of a tensor reference that stands at slice offset `o`: its regions against the slice and 64-byte alignment under
cause `cr`, and under `cw` where only the widened form of a result runs past the slice (R214); its codes under `cf` (R29, R30,
R41); TRANS and reserved bits under `cm` (R563). -/
def State.refChecks (s : State) (c : Nat) (t plan : TRef) (o rows len cr cw cf cm : Nat) (transOk : Bool) : List Check :=
  let cap := 16 + 8 * s.peelCap c t
  let scaled := t.bsize != 0
  [⟨t.elem % 64 != 0 || !inSlice plan.elem (plan.elemBytes rows len), cr, o⟩,
   ⟨!inSlice t.elem (t.elemBytes rows len), cw, o⟩,
   ⟨scaled && (t.scale % 64 != 0 || !inSlice t.scale (t.scaleBytes rows len)), cr, o + 4⟩,
   ⟨scaled && t.hasPeel && (t.peel % 64 != 0 || !inSlice t.peel 16 || !inSlice t.peel cap), cr, o + 8⟩,
   ⟨(fmtOf t.fmt).isNone, cf, o + 3⟩,
   ⟨(blockSize? t.block).isNone, cf, o + 7⟩,
   ⟨t.smode == 3 || t.rnd == 3, cf, o + 11⟩,
   ⟨!t.accepted, cf, o + 3⟩,
   ⟨t.trans && !transOk, cm, o + 15⟩,
   ⟨t.reserved != 0, cm, o + 15⟩]

/-- The form of a tensor reference that an argument block holds and its order does not use: TRANS and reserved bits under `cm`
(R563). -/
def refForm (t : TRef) (o cm : Nat) : List Check := [⟨t.trans, cm, o + 15⟩, ⟨t.reserved != 0, cm, o + 15⟩]

/-- The entries of a peel list as they stand are malformed: a count above capacity, an index outside the tensor of `n` elements,
or entries not in block order; the slice offset of the first offending byte (R180). -/
def State.peelBad (s : State) (c : Nat) (t : TRef) (n : Nat) : Option Nat :=
  if !t.hasPeel || t.bsize = 0 then none
  else if s.sl c (t.peel + 4) 4 < s.sl c t.peel 4 then some t.peel
  else
    let es := s.peels c t
    (List.range es.length).findSome? (fun j =>
      let i := (es.getD j (0, 0)).1
      let prev := if j = 0 then none else some (es.getD (j - 1) (0, 0)).1
      let order := match prev with | none => true | some p => decide (p / max 1 t.bsize < i / max 1 t.bsize)
      if n ≤ i ∨ !order then some (t.peel + 16 + 8 * j) else none)

/-- The first bank group of the regions in which agent `a` lacks the right, with the offset of the access. -/
def State.miss (s : State) (c a : Nat) (wr : Bool) (rs : List (Nat × Nat)) : Option Nat :=
  rs.findSome? (fun r => s.bankMiss c a wr r.1 r.2)

/-- The first of several findings. -/
def firstSome {α : Type} : List (Option α) → Option α
  | [] => none
  | some x :: _ => some x
  | none :: xs => firstSome xs

/-- An engine fault ends an order (R108, R180, R206, R239, R266): the page reads FAULT with the cause and the cistern address,
its line is raised, the croft halts with the engine's code and the order is no longer incomplete. -/
def engineFault (c : Nat) (p : Page) (cause off engine serial idx : Nat) : Prog := .all [
  pageFault p cause (sliceAddr c off),
  raiseLine p,
  orderFault c idx engine,
  dropOrder c serial]

/-- A collision ends an engine order before anything of it is done (R280). -/
def startCollides (c : Nat) (o : Issued) (cls index addr : Nat) : Prog := .all [
  collideHalt c o.engine cls index o.idx addr,
  dropOrder c o.serial]

/-- An order has started: it leaves its queue (R245). -/
def markStarted (c serial : Nat) : Prog :=
  modReeve c (fun r => { r with orders := r.orders.map (fun o => if o.serial = serial then { o with started := true } else o) })

/-- An engine of code `e` reads an order's block of `n` bytes at slice offset `o`, then what `more` gives of the block it has read. -/
def argReads (c e idx o n : Nat) (more : State → List (Nat × Nat)) : Prog := .all [
  engineReads c e idx [(o, n)],
  .get (fun s => engineReads c e idx ((more s).filter (fun r => decide (r.1 + r.2 ≤ sliceSize))))]

/-- The order of issue number `n` in croft `c`. -/
def State.order? (s : State) (c n : Nat) : Option Issued := (s.reeve c).orders.find? (fun o => o.serial == n)

/-- Whether the reeve passed WIDE with that order (R254). -/
def State.orderWide (s : State) (c n : Nat) : Bool := match s.order? c n with | some o => o.wide | none => false

/-- The scale byte of a retry: raised by 4, and 0xFF beyond 0xFE (R167). -/
def raisedScale (n : Nat) : Nat := if 0xFE < n + 4 then 0xFF else n + 4

/-- An order reads a NaN operand or a scale of 0xFF for the first time: counted once (R64). -/
def countNanIn (c : Nat) (seen now : Bool) : Prog := Prog.when (now && !seen) (bump (pgCroft c) R.croft_NAN_IN_CNT)

/-- A tensor as an order reads it: on a span's repeat a result written in widened form is read so (R214). A reference to a part of
it, of the planned format, reads the elements it names: its element offset counts elements of the widened format. (DESIGN CHOICE,
assumption 124) -/
def State.asRead (s : State) (c : Nat) (t : TRef) : TRef :=
  if (s.reeve c).wide then
    match (s.croft c).wideRefs.find? (fun w => w.fmt == t.fmt && decide (w.elem ≤ t.elem) && decide (t.elem < w.elem + w.bytes)) with
    | some w => { t.widen with elem := w.elem + (t.elem - w.elem) * t.widen.format.width / t.format.width }
    | none => t
  else t

/-- A result's reference as it is written: widened on a span's repeat unless the order marks its results as boundary results
(R214). -/
def asWritten (wide bnd : Bool) (t : TRef) : TRef := if wide && !bnd then t.widen else t

/-- A result written in widened form is noted for the span's later reads, and one written over it takes its place (R214). -/
def noteWide (c : Nat) (wide bnd : Bool) (t : TRef) (rows len : Nat) : Prog :=
  let n := t.elemBytes rows len
  Prog.when wide (modCroft c (fun k => { k with
    wideRefs := k.wideRefs.filter (fun w => decide (w.elem + w.bytes ≤ t.elem) || decide (t.elem + n ≤ w.elem)) ++
      if bnd then [] else [⟨t.elem, n, t.fmt⟩] }))

/-- An order reported OVF: under LAYER_REPEAT an open span remembers it, and its record, for the repeat (R213); the layer falls
back (R216). -/
def reportOvf (c layer : Nat) (layerRepeat : Bool) (rec' : Option Nat) : Prog := .all [
  modReeve c (fun r => if r.span.isSome && layerRepeat then { r with
      spanOvf := true
      spanRecs := match rec' with
        | some o => if r.spanRecs.contains o then r.spanRecs else r.spanRecs ++ [o]
        | none => r.spanRecs } else r),
  fallBack c layer 1]

/-- An earlier-issued order of the croft names the same scale record and has not completed (R208). `recOf` gives the record an
order names. -/
def State.recordBusy (s : State) (c serial rc : Nat) (recOf : Issued → Option Nat) : Bool :=
  (s.reeve c).orders.any (fun o => decide (o.serial < serial) && recOf o == some rc)

end Sys2Proof.Machine
end

