-- ==== Sys2Proof/Machine/Snapshot.lean ====
section
/-! DEFINITION. The snapshot's hold on granary writes and its failure (R420, R422, R423): what every writer of a granary meets. -/
namespace Sys2Proof.Machine

/-- Bytes of a pail (R412). -/
def pailSize : Nat := 0x10000

/-- The slot place of the pail that holds granary address `a`, while it is uncopied. -/
def Snap.waiting (n : Snap) (a : Nat) : Option Nat :=
  match n.pails.idxOf? (a / pailSize) with
  | some k => if n.uncopied.contains k then some k else none
  | none => none

/-- Base address and size of the larder, of the cellar and of the state block (R413, R435). -/
def State.larder (s : State) : Nat × Nat :=
  (s.fld pgBucket R.bucket_LARDER_BASE_BASE * pailSize, s.fld pgBucket R.bucket_LARDER_LEN_PAILS * pailSize)
def State.cellar (s : State) : Nat × Nat :=
  (s.fld pgBucket R.bucket_CELLAR_BASE_BASE * pailSize, s.fld pgBucket R.bucket_CELLAR_LEN_PAILS * pailSize)

/-- Whether two regions overlap. -/
def overlaps (x y : Nat × Nat) : Bool := decide (x.1 < y.1 + y.2) && decide (y.1 < x.1 + x.2)

/-- Whether `n` bytes at local address `a` touch the larder or the cellar, which only Bucket writes (R415). -/
def State.bucketKeeps (s : State) (a n : Nat) : Bool :=
  s.enabled pgBucket && (overlaps (a, n) s.larder || overlaps (a, n) s.cellar)

/-- Whether `n` bytes at local address `a` touch the boot region, which only the Steward writes (R497). -/
def touchesBoot (a n : Nat) : Bool := overlaps (a, n) (0x7FF0000000, 0x10000000)

def modSnap (f : Snap → Snap) : Prog := modDev (fun d => { d with snap := d.snap.map f })

/-- A write within one pail, from any source but Bucket: held while its pail is uncopied, carried out otherwise (R420). -/
def pailStore (src : Source) (a : Nat) (bs : List Byte) : Prog := .get (fun s =>
  match s.dev.snap with
  | none => store (some src) a bs
  | some n =>
    match n.waiting a with
    | none => store (some src) a bs
    | some k =>
      if src = .bucket then store (some src) a bs
      else
        let first := !n.held.any (fun h => n.waiting h.addr == some k)
        let full := decide (16 ≤ n.staged.length)
        .all [
          Prog.when (first && full) (bump pgBucket R.bucket_TOUCH_WAIT_CNT),
          modSnap (fun n => { n with held := n.held ++ [⟨src, a, bs, full⟩] })])

/-- A write of local memory by anything but an engine: a granary write pail by pail (R420), a cistern write at once. -/
def memStore (src : Source) (a : Nat) (bs : List Byte) : Prog :=
  if a < granEnd then Prog.each (cutAt pailSize (bs.length / pailSize + 2) a bs) (fun x => pailStore src x.1 x.2)
  else store (some src) a bs

/-- An access of Bucket to `n` bytes at local address `a` that met uncorrectable data fails the snapshot in progress (R316, R423). -/
def bucketHears (src : Source) (fail : Prog) (a n : Nat) : Prog :=
  .get (fun s => Prog.when (src == .bucket && s.deadAt a n) fail)

/-- A held boundary may be released again (R422). -/
def unhold : Prog := setFld pgBucket R.bucket_STATUS_HELD 0

/-- A snapshot fails: its slot stays at STATE 1, the page reads FAULT, Watch hears of it and the next boundary is treated as if a
risk request had named it; writes it held are carried out (R423, R437). -/
def snapFail (cause addr : Nat) : Prog := .get (fun s =>
  match s.dev.snap with
  | none => .done
  | some n => .all [
      modDev (fun d => { d with snap := none, pendingB := some (max (d.pendingB.getD 0) (s.stepIndex + 1)) }),
      setFld pgBucket R.bucket_STATUS_SNAP 0,
      setFld pgBucket R.bucket_STATUS_STAGED 0,
      bump pgBucket R.bucket_FAIL_CNT,
      pageFault pgBucket cause addr,
      tellWatch 14,
      Prog.each n.held (fun h => store (some h.src) h.addr h.bytes),
      unhold])

end Sys2Proof.Machine
end

