-- ==== Sys2Proof/Machine/Mem.lean ====
section
/-! DEFINITION. The rows of cisterns and granaries: their accesses, scrubs and re-reads (R298 to R316). -/
namespace Sys2Proof.Machine

/-! ### Cisterns -/

/-- Bits of a stripe's words that have newly changed: by bank, 32 the parity bank. -/
def newFlips (st : Nat) (l : List (Nat × BitVec 72)) : Prog := Prog.each l (fun x => .get (fun s =>
  if x.1 = 32 then modDev (fun d => { d with parityFlips := putBits d.parityFlips st (s.parityFlip st ^^^ x.2) })
  else
    let k := st * 32 + x.1
    .all [
      Prog.when (s.dev.deadWords.contains k) (xorBytes (k * 8) 8 (dataBits x.2).toNat),
      modDev (fun d => { d with flips := putBits d.flips k (s.flipOf k ^^^ x.2) })]))

/-- Whether `n` bytes from slice offset `o` on lie in one stripe of the slice. -/
def inStripe (o n : Nat) : Bool := decide (0 < n) && decide (o + n ≤ sliceSize) && decide (o / 256 = (o + n - 1) / 256)

/-- CISTERN_READ: a port reads words of one stripe; each is checked (R304, R316). -/
def execCisternRead (c : CroftId) (off : BitVec 28) (len : Fin 257) (src : Source) (flips : List (Fin 33 × BitVec 72))
    (s : State) : Host.Outcome State Fault Refusal :=
  Prog.next (.get (fun s =>
    let a := sliceAddr c.val off.toNat
    if !inStripe off.toNat len.val || s.underReset (pgCist c.val) then .done
    else .all [
      newFlips (a / 256) (flips.map (fun x => (x.1.val, x.2))),
      Prog.each (wordsOf a len.val) (fun k => checkWord c.val k (some src)),
      bucketHears src (snapFail 1 a) a len.val])) s

/-- Place of a writer where two writes reach one word in one cycle: the Steward's takes effect over Bucket's, and Bucket's over any other
(R300). -/
def writeRank (src : Source) : Nat := match src with | .steward => 2 | .bucket => 1 | _ => 0

/-- CISTERN_WRITE: a port writes bytes of one stripe (R299 to R301); it is discarded where `rival`, the source of another write to the word
in the cycle, takes effect over it (R300). (DESIGN CHOICE, assumption 146) -/
def execCisternWrite (c : CroftId) (off : BitVec 28) (bs : List Byte) (src : Source) (rival : Option Source)
    (flips : List (Fin 33 × BitVec 72)) (s : State) : Host.Outcome State Fault Refusal :=
  Prog.next (.get (fun s =>
    let a := sliceAddr c.val off.toNat
    let lost := match rival with | some r => decide (writeRank src < writeRank r) | none => false
    if !inStripe off.toNat bs.length || s.underReset (pgCist c.val) then .done
    else .all [
      newFlips (a / 256) (flips.map (fun x => (x.1.val, x.2))),
      if lost then bump (pgCist c.val) R.cistern_WW_CNT
      else .all [store (some src) a bs, bucketHears src (snapFail 1 a) a bs.length]])) s

/-- The scrub's stripe of one bank group (R305). -/
def scrubOne (c st : Nat) : Prog := .get (fun s =>
  let clean := (List.range 32).all (fun b => wordFind (s.flipOf (st * 32 + b)) == .clean || wordFind (s.flipOf (st * 32 + b)) == .silent) &&
    (wordFind (s.parityFlip st) == .clean || wordFind (s.parityFlip st) == .silent)
  .all [
    Prog.each ((List.range 32).map (st * 32 + ·)) (fun k => checkWord c k none),
    checkParity c st,
    .get (fun s => Prog.when (clean && s.parityDiff st != 0) (.all [
      bump (pgCist c) R.cistern_MISMATCH_CNT, cistUE c (st * 256) 2 none]))])

/-- SCRUB_STRIPE: the next stripe of each bank group is read and checked (R305). -/
def execScrubStripe (c : CroftId) (flips : List (Fin 16 × Fin 33 × BitVec 72)) (s : State) : Host.Outcome State Fault Refusal :=
  Prog.next (.get (fun s =>
    let p := pgCist c.val
    let n := s.fld p R.cistern_STATUS_SCRUB_STRIPE
    let st (g : Nat) : Nat := (sliceAddr c.val (g * bankSize)) / 256 + n
    if !s.bit p R.cistern_CFG_SCRUB_EN || s.underReset p then .done
    else .all [
      Prog.each flips (fun x => newFlips (st x.1.val) [(x.2.1.val, x.2.2)]),
      Prog.each (List.range 16) (fun g => scrubOne c.val (st g)),
      setFld p R.cistern_STATUS_SCRUB_STRIPE (if n + 1 < 61440 then n + 1 else 0),
      Prog.when (decide (61440 ≤ n + 1)) (bump p R.cistern_SCRUB_PASS_CNT)])) s

/-! ### Granaries -/

/-- Symbols of granule `g` that have newly changed. -/
def newSymbols (g : Nat) (l : List (Fin 68 × Byte)) : Prog := .get (fun s =>
  let m := l.foldl (fun (a : BitVec 544) x => a ^^^ BitVec.ofNat 544 (x.2.toNat * 2 ^ (8 * x.1.val))) 0
  if l.isEmpty then .done
  else .all [
    Prog.when (s.dev.deadGranules.contains g) (xorBytes (g * 64) 64 (m.toNat % 2 ^ 512)),
    setGranMask g (s.granMask g ^^^ m)])

/-- Granule number over all granaries of granule `g` of hamlet `h`. -/
def granuleOf (h : HamletId) (g : Nat) : Nat := h.val * 2 ^ 30 + g

/-- Whether the drain of a reset that covers granary `h` has ended (R15, R315). -/
def State.granDrained (s : State) (h : Nat) : Bool := s.dev.resets.any (fun r => r.drained && r.grain.covers (pgGran h))

/-- Whether traffic of a segment that has `begun` or not is absorbed at granary `h` (R315, R341). -/
def State.granAbsorbs (s : State) (h : Nat) (begun : Bool) : Bool := s.underReset (pgGran h) && (s.granDrained h || !begun)

/-- Whether the controller of hamlet `h` serves its granary: its page is enabled and in no fault, and no reset holds it (R315,
R322). -/
def State.granServes (s : State) (h : Nat) : Bool := s.fld (pgGran h) R.STATE_STATE == stEnabled && !s.granDrained h

/-- A granule is read in full of its parity: one whose data parity failed is read again first, and `what` follows (R310). -/
def parityRead (h g : Nat) (parity : Bool) (what : RereadFor) (k : Prog) : Prog :=
  if parity then modDev (fun d => { d with rereads := d.rereads ++ [⟨h, g, what⟩] }) else k

/-- A granule read for `src` is decoded. -/
def granuleRead (g : Nat) (src : Source) : Prog := .all [
  granDecode g (some src) false, bucketHears src (snapFail 1 (g * 64)) (g * 64) 64]

/-- A merge of bytes into a granule that has been read. -/
def granuleMerge (src : Source) (a : Nat) (bs : List Byte) : Prog := .all [
  memStore src a bs, bucketHears src (snapFail 1 a) a bs.length]

/-- GRANARY_READ: a granule is read and decoded (R307, R310). -/
def execGranaryRead (h : HamletId) (g : Fin 1073741824) (src : Source) (parity : Bool) (onDie : Nat) (flips : List (Fin 68 × Byte))
    (s : State) : Host.Outcome State Fault Refusal :=
  Prog.next (.get (fun s =>
    if !s.granServes h.val then .done
    else .all [
      newSymbols (granuleOf h g.val) flips,
      bumpBy (pgGran h.val) R.granary_ODECC_CNT onDie,
      parityRead h.val (granuleOf h g.val) parity (.read src) (granuleRead (granuleOf h g.val) src)])) s

/-- GRANARY_REREAD_DONE: the re-read's parity passes and the granule is decoded for what read it, or it is uncorrectable (R310, R311,
R314). -/
def execGranaryRereadDone (h : HamletId) (b : StackRead) (s : State) : Host.Outcome State Fault Refusal :=
  Prog.next (.get (fun s =>
    match s.dev.rereads.find? (fun x => x.hamlet == h.val) with
    | none => .done
    | some x => .all [
        modDev (fun d => { d with rereads := d.rereads.eraseP (fun x => x.hamlet == h.val) }),
        newSymbols x.granule b.flips,
        bumpBy (pgGran h.val) R.granary_ODECC_CNT b.onDie,
        Prog.when (!b.parity) (bump (pgGran h.val) R.granary_BEAT_RETRY_CNT),
        match x.what with
        | .read src => if b.parity then .all [granUE x.granule (some src), bucketHears src (snapFail 1 (x.granule * 64)) (x.granule * 64) 64]
            else granuleRead x.granule src
        | .scrub => if b.parity then granUE x.granule none else granDecode x.granule none true
        | .merge src a bs =>
          if b.parity then .all [
            granUE x.granule (some src), bump (pgGran h.val) R.granary_RMW_UE_CNT, bucketHears src (snapFail 1 a) a bs.length]
          else granuleMerge src a bs])) s

/-- GRANARY_WRITE: a whole granule is encoded; any other write reads the granule, decodes it and merges, or is refused where it is
uncorrectable. A write to an uncopied pail is held (R310, R311, R420). -/
def execGranaryWrite (h : HamletId) (a : Fin 68719476736) (bs : List Byte) (src : Source) (b : StackRead)
    (s : State) : Host.Outcome State Fault Refusal :=
  Prog.next (.get (fun s =>
    let g := granuleOf h (a.val / 64)
    let addr := h.val * 2 ^ 36 + a.val
    if !s.granServes h.val || bs.isEmpty || decide (64 < a.val % 64 + bs.length) then .done
    else .all [
      newSymbols g b.flips,
      if bs.length = 64 then granuleMerge src addr bs
      else .all [
        bumpBy (pgGran h.val) R.granary_ODECC_CNT b.onDie,
        parityRead h.val g b.parity (.merge src addr bs) (granuleMerge src addr bs)]])) s

/-- GRANARY_REFRESH: refresh leaves the contents as they are; a refresh-management command is counted (R307). -/
def execGranaryRefresh (h : HamletId) (rfm : Bool) (s : State) : Host.Outcome State Fault Refusal :=
  Prog.next (.get (fun s => Prog.when (rfm && s.granServes h.val) (bump (pgGran h.val) R.granary_RFM_CNT))) s

/-- GRANARY_SCRUB: the next granule of the patrol scrub (R310, R314). -/
def execGranaryScrub (h : HamletId) (b : StackRead) (s : State) :
    Host.Outcome State Fault Refusal :=
  Prog.next (.get (fun s =>
    let p := pgGran h.val
    let n := (Sparse.get? s.dev.scrubAt h.val).getD 0
    if !s.granServes h.val || !s.bit p R.granary_CFG_SCRUB_EN then .done
    else .all [
      newSymbols (granuleOf h n) b.flips,
      bumpBy p R.granary_ODECC_CNT b.onDie,
      parityRead h.val (granuleOf h n) b.parity .scrub (granDecode (granuleOf h n) none true),
      modDev (fun d => { d with scrubAt := Sparse.set d.scrubAt h.val ((n + 1) % 2 ^ 30) }),
      Prog.when (decide (2 ^ 30 ≤ n + 1)) (bump p R.granary_SCRUB_PASS_CNT)])) s

end Sys2Proof.Machine
end

