-- ==== Sys2Proof/Machine/Routes.lean ====
section
/-! DEFINITION. Addresses, routes and shares: what a village address names (R21, R22, R332, R365), lane routes (R286), and the shares
a queue's traffic may use (R285, R287, R312). -/
namespace Sys2Proof.Machine

/-! ### Places -/

/-- What a local address names (R317). -/
inductive Place where
  | granary (h : Nat)
  | slice (c o : Nat)
  | unmapped
deriving DecidableEq, Repr

def placeOf (a : Nat) : Place :=
  if a < 2 ^ 39 then .granary (a / 2 ^ 36)
  else
    let r := a - 0x100000000000
    if 0x100000000000 ≤ a ∧ r / 0x10000000 < 128 ∧ r % 0x10000000 < sliceSize then .slice (r / 0x10000000) (r % 0x10000000)
    else .unmapped

/-- Where a village or system destination lies (R22, R365): here, beyond a port, or nowhere declared. -/
inductive Dest where
  | here
  | port (p dev : Nat)
  | none
deriving DecidableEq, Repr

def State.portFld (s : State) (f : Fld) (k : Nat) : Nat := s.fld pgPort (f.plus k)

/-- Whether port `p` is declared, and as which kind (R370). -/
def State.portValid (s : State) (p : Nat) (sys : Bool) : Bool :=
  s.portFld R.port_PORT_LINKS_VALID (8 * p) == 1 && (s.portFld R.port_PORT_LINKS_SYSTEM (8 * p) == 1) == sys

/-- The port towards a village index: the one that reaches it, or its VROUTE entry's (R365). -/
def State.portTowards (s : State) (v : Nat) : Option Nat :=
  match (List.range 16).find? (fun p => s.portValid p false && s.portFld R.port_PORT_FAR_FAR_VIDX (8 * p) == v) with
  | some p => some p
  | none => if s.portFld R.port_VROUTE_VALID (4 * v) = 1 then some (s.portFld R.port_VROUTE_PORT (4 * v)) else none

/-- Where the device field of a village address leads (R22, R365, R366). -/
def State.village (s : State) (a : Nat) : Dest :=
  let v := a / 2 ^ 48 % 16
  if v = s.fld pgPort R.port_CFG_VIDX then .here
  else
    match s.portTowards v with
    | some p => .port p (s.portFld R.port_VDEV_DEV (4 * v))
    | none => .none

/-- Where a SYS transfer leads: the far device of a port only (R365). -/
def State.system (s : State) (dev : Nat) : Dest :=
  match (List.range 16).find? (fun p => s.portFld R.port_PORT_LINKS_VALID (8 * p) == 1 && s.portFld R.port_PORT_FAR_FAR_DEV (8 * p) == dev) with
  | some p => .port p dev
  | none => .none

/-- Links of a port, in ascending number (R364). -/
def State.portLinks (s : State) (p : Nat) : List Nat :=
  (List.range 16).filter (fun q => s.portFld R.port_PORT_LINKS_LINKS (8 * p) / 2 ^ q % 2 == 1)

/-! ### Lane routes -/

/-- Channel and direction of each hop along row `r` from column `a` to column `b` (R293). -/
def rowHops (r a b : Nat) : List (Nat × Nat) :=
  if a ≤ b then (List.range (b - a)).map (fun i => (3 * r + a + i, 0))
  else (List.range (a - b)).map (fun i => (3 * r + a - 1 - i, 1))

/-- The hops from hamlet `a` to hamlet `b`: along the row of `a`, then across the column (R286). -/
def hamletHops (a b : Nat) : List (Nat × Nat) :=
  rowHops (a / 4) (a % 4) (b % 4) ++
  (if a / 4 = b / 4 then [] else [(6 + b % 4, if a / 4 = 0 then 0 else 1)])

/-- The hops from gatehouse `g` to hamlet `h` (R286). -/
def gateHops (g h : Nat) : List (Nat × Nat) :=
  (10 + 2 * g + h / 4, 0) :: rowHops (h / 4) (if g = 0 then 0 else 3) (h % 4)

/-- The hops from hamlet `h` to gatehouse `g`: the same channels the other way. -/
def toGateHops (h g : Nat) : List (Nat × Nat) :=
  rowHops (h / 4) (h % 4) (if g = 0 then 0 else 3) ++ [(10 + 2 * g + h / 4, 1)]

/-- The gatehouse of a link. -/
def gateOf (link : Nat) : Nat := link / 8

/-! ### Shares -/

/-- Offset of a lane share's entry and of a link share's entry past the first (R297). -/
def laneShareOff (ch dir share : Nat) : Nat := (ch * 2 + dir) * 0x40 + 4 * share
def linkShareOff (link share : Nat) : Nat := 0x700 + link * 0x40 + 4 * share

/-- Whether traffic of croft `c`'s queue of owner `own` may use the share whose entry stands at `off`: the croft's own shares for
the stream, the shares of their kind and share 15 for host and Bucket, share 15 for the Steward (R285, R287). -/
def State.shareFor (s : State) (c own off share : Nat) : Bool :=
  if share = 15 then own != 1
  else
    let k := s.fld pgFabric (R.fabric_SHARE_KIND.plus off)
    match own with
    | 1 => k == 1 && s.fld pgFabric (R.fabric_SHARE_CROFT.plus off) == c
    | 2 => k == 2
    | 4 => k == 3
    | _ => false

/-- The first hop of a route on which the traffic has no share, as channel × 2 + direction (R287). -/
def State.hopMiss (s : State) (c own : Nat) (hops : List (Nat × Nat)) : Option Nat :=
  (hops.find? (fun h => !(List.range 16).any (fun x => s.shareFor c own (laneShareOff h.1 h.2 x) x))).map (fun h => h.1 * 2 + h.2)

/-- The shares of a link that the traffic may use, in ascending number (R287, R359). -/
def State.linkShares (s : State) (c own link : Nat) : List Nat :=
  (List.range 16).filter (fun x => s.shareFor c own (linkShareOff link x) x)

/-- Whether the traffic has a share of the granary of hamlet `h`: the croft's of KIND 1 in its own hamlet, or those of KIND 2 for
traffic of other dies; share 15 for host, Steward and Bucket (R312). -/
def State.granShare (s : State) (c own h : Nat) : Bool :=
  own != 1 || (List.range 15).any (fun x =>
    let k := s.fld (pgGran h) (R.granary_SHARE_KIND.plus (4 * x))
    if c / 16 = h then k == 1 && s.fld (pgGran h) (R.granary_SHARE_CROFT.plus (4 * x)) == c % 16 else k == 2)

end Sys2Proof.Machine
end

