-- ==== Sys2Proof/Machine/Sluice.lean ====
section
/-! DEFINITION. The sluices: queues and doorbells, descriptors, segments and beats, incoming traffic, completion records, epochs and
incarnations (R323 to R345). -/
namespace Sys2Proof.Machine

/-! ### Queues -/

/-- A field of queue `q`'s block (R345). -/
def State.qfld (s : State) (q : Nat) (f : Fld) : Nat := s.fld (pgQueue q) (f.plus (qblk q))

/-- Croft and local number of a global queue (R323). -/
def qCroft (q : Nat) : Nat := q / 128
def qLocal (q : Nat) : Nat := q % 128

/-- Entries of the queue's rings (R326). -/
def State.ringLen (s : State) (q : Nat) : Nat := 2 ^ s.qfld q R.qgroup_QCFG_RING_LOG

/-- Slice offset of descriptor `i`, and of its record (R326). -/
def State.descOff (s : State) (q i : Nat) : Nat := s.qfld q R.qgroup_RING_BASE_BASE * 64 + i % s.ringLen q * 64
def State.recOff (s : State) (q i : Nat) : Nat := s.qfld q R.qgroup_COMP_BASE_BASE * 64 + i % s.ringLen q * 32

/-- STATE of QSTATUS (R345). -/
def Queue.state (q : Queue) : Nat :=
  if q.waiting.isSome then 3
  else if q.stopper.isSome && q.xfers.isEmpty then 2
  else if q.tail = q.done && q.xfers.isEmpty then 0 else 1

/-- The incarnation of croft `c` (R340). -/
def State.inc (s : State) (c : Nat) : Nat := (Sparse.get? s.dev.incs c).getD 0

/-! ### Descriptors (R329 to R331) -/

/-- Read a descriptor at slice offset `o`. -/
def State.readDesc (s : State) (c o : Nat) : Desc :=
  let w (k n : Nat) : Nat := s.sl c (o + k) n
  let w0 := w 0 4
  let tok (v : Nat) : Nat × Nat × Nat := (bitsOf v 0 8, bitsOf v 8 7, bitsOf v 16 16)
  { kind := bitsOf w0 0 4, tag := bitsOf w0 4 12, fence := bitsOf w0 16 1 = 1, ledger := bitsOf w0 17 1 = 1,
    irq := bitsOf w0 18 1 = 1, lSig := bitsOf w0 19 1 = 1, rSig := bitsOf w0 20 1 = 1, segLog := bitsOf w0 21 4,
    ltok := tok (w 4 4), rtok := tok (w 8 4), coll := bitsOf (w 0xC 4) 0 8, src := bitsOf (w 0x10 8) 0 52,
    dst := bitsOf (w 0x18 8) 0 52, dev := bitsOf (w 0x20 4) 0 14, sys := bitsOf (w 0x20 4) 15 1 = 1,
    rows := bitsOf (w 0x24 4) 0 17, rowBytes := w 0x28 4, srcPitch := w 0x2C 4, dstPitch := w 0x30 4, fill := w 0x38 8,
    reserved := !(within w0 0x1FFFFFF && within (w 4 4) 0xFFFF7FFF && within (w 8 4) 0xFFFF7FFF && within (w 0xC 4) 0xFF &&
      within (w 0x10 8) 0xFFFFFFFFFFFFF && within (w 0x18 8) 0xFFFFFFFFFFFFF && within (w 0x20 4) 0xBFFF &&
      within (w 0x24 4) 0x1FFFF && w 0x34 4 == 0) }

/-- Bytes of the transfer, of a segment, and the number of segments (R330). -/
def Desc.len (d : Desc) : Nat := d.rows * d.rowBytes
def Desc.segSize (d : Desc) : Nat := 2 ^ (12 + d.segLog)
def Desc.nseg (d : Desc) : Nat := (d.len + d.segSize - 1) / d.segSize

/-- Address of byte `p` of the transfer from a base and a pitch (R329). -/
def Desc.rowAddr (d : Desc) (base pitch p : Nat) : Nat :=
  base + p / d.rowBytes * (if pitch = 0 then d.rowBytes else pitch) + p % d.rowBytes
def Desc.srcAddr (d : Desc) (p : Nat) : Nat := d.rowAddr d.src d.srcPitch p % 2 ^ 48
def Desc.dstAddr (d : Desc) (p : Nat) : Nat := d.rowAddr d.dst d.dstPitch p % 2 ^ 48

/-- Bytes from position `p` on that are contiguous at source and destination (R359). -/
def Desc.run (d : Desc) (p : Nat) : Nat :=
  let one (pitch : Nat) : Nat := if pitch = 0 ∨ pitch = d.rowBytes then d.len - p else d.rowBytes - p % d.rowBytes
  if d.kind = 2 then one d.dstPitch else min (one d.srcPitch) (one d.dstPitch)

/-- Where source and destination lie (R332). -/
def State.srcDest (s : State) (d : Desc) : Dest := if d.kind = 2 then .here else s.village d.src
def State.dstDest (s : State) (d : Desc) : Dest := if d.sys then s.system d.dev else s.village d.dst

/-- Whether a local address lies in the register region (R21, R317). -/
def inRegisters (a : Nat) : Bool := decide (0x200000000000 ≤ a) && decide (a < 0x200010000000)

/-- A descriptor error (R331). (DEDUCED, assumption 40) -/
def State.descErr (s : State) (q : Queue) (d : Desc) : Bool :=
  let ranged (x : Nat × Nat × Nat) : Bool := x.2.2 != 0
  let srcHere := s.village d.src == .here
  let dstHere := s.dstDest d == .here
  decide (3 < d.kind) || decide (13 < d.segLog) || d.reserved ||
  d.rows = 0 || decide (65536 < d.rows) || d.rowBytes = 0 || d.rowBytes % 64 != 0 ||
  !ranged d.ltok || !ranged d.rtok ||
  d.src % 64 != 0 || d.dst % 64 != 0 || d.srcPitch % 64 != 0 || d.dstPitch % 64 != 0 ||
  decide (64 < d.nseg) || (!srcHere && !dstHere) || (d.sys && !srcHere) ||
  inRegisters (d.src % 2 ^ 48) || inRegisters (d.dst % 2 ^ 48) || q.tags.contains d.tag

/-! ### Control messages (R357) -/

/-- The lowest-numbered link of a port that is up. -/
def State.upLink (s : State) (p : Nat) : Option Nat := (s.portLinks p).find? (fun q => s.linkUp q)

/-- The link a control message for device `dev` goes on. -/
def State.ctrlLink (s : State) (dev : Nat) : Option Nat :=
  match (List.range 16).find? (fun p => s.portFld R.port_PORT_LINKS_VALID (8 * p) == 1 && s.portFld R.port_PORT_FAR_FAR_DEV (8 * p) == dev) with
  | some p => s.upLink p
  | none =>
    match (List.range 16).find? (fun v => s.portFld R.port_VDEV_VALID (4 * v) == 1 && s.portFld R.port_VDEV_DEV (4 * v) == dev &&
        s.portFld R.port_VROUTE_VALID (4 * v) == 1) with
    | some v => s.upLink (s.portFld R.port_VROUTE_PORT (4 * v))
    | none => none

/-- Where a control message of this device's own waits (R357). -/
def ctrlSource : Ctrl → Nat
  | .segAck .. => 0
  | .signal .. => 1
  | .bell _ => 2
  | .none | .reserved => 3

/-- Route a SEG_ACK or SIGNAL of source `src`: deliver it here, send it on, or discard it; `queue` is the queue of this device that sends
a SIGNAL. (DEDUCED, assumption 49) -/
def routeCtrl (src : Nat) (queue : Option Nat) (m : Ctrl) : Prog := .get (fun s =>
  let route (dev : Nat) (here : Prog) : Prog :=
    if dev = s.self then here
    else
      match s.ctrlLink dev with
      | some l => modLink l (fun k => { k with ctrl := k.ctrl ++ [(src, m)] })
      | none => bump pgPort R.port_CTRL_DROP_CNT
  match m with
  | .segAck dev _ _ _ _ _ _ _ => route dev.toNat (modDev (fun d => { d with acks := d.acks ++ [m] }))
  | .signal dev c t n => route dev.toNat (modDev (fun d => { d with
      signals := d.signals ++ [{ src := none, dst := c.val, token := t.toNat, count := n.toNat, queue := queue, msg := true }] }))
  | .bell _ | .none => .done
  | .reserved => bump pgPort R.port_CTRL_DROP_CNT)

/-- A control message of this device's own. (DEDUCED, assumption 49) -/
def sendCtrl (m : Ctrl) : Prog := routeCtrl (ctrlSource m) none m

/-! ### Receiving segments (R333, R361) -/

/-- The SEG_ACK of a segment. -/
def SegKey.ack (k : SegKey) (status : Nat) : Ctrl :=
  .segAck (BitVec.ofNat 14 k.dev) (BitVec.ofNat 14 k.queue) (BitVec.ofNat 12 k.tag) (BitVec.ofNat 4 k.epoch) (BitVec.ofNat 4 k.inc)
    (BitVec.ofNat 6 k.seg) (BitVec.ofNat 4 status) k.bucket

/-- Precedence of a status when a segment's messages fail in several ways (R361). -/
def statusRank (st : Nat) : Nat :=
  match st with
  | 2 => 4
  | 1 => 3
  | 3 => 2
  | 5 => 1
  | _ => 0

/-- The entry of a segment. -/
def State.entryIn (s : State) (k : SegKey) : Option Entry := s.dev.entriesIn.find? (fun e => e.key == k)

/-- Whether what lies at local address `a` is under reset. -/
def State.resetAt (s : State) (a : Nat) : Bool :=
  match placeOf a with
  | .slice c _ => s.croftUnderReset c
  | .granary h => s.underReset (pgGran h)
  | .unmapped => false

/-- A segment of `size` bytes opens at its receiver, unless it is open; its first bytes are for local address `dst` (R341, R361). -/
def openEntry (k : SegKey) (size dst : Nat) : Prog := .get (fun s =>
  Prog.when (s.entryIn k).isNone (modDev (fun d => { d with
    entriesIn := d.entriesIn ++ [{ key := k, size := size, dst := dst, late := s.resetAt dst }] })))

/-- Whether the segment was open before its destination's reset was requested (R341). -/
def State.begun (s : State) (k : SegKey) : Bool :=
  match s.entryIn k with
  | some e => !e.late
  | none => false

/-- Open segments that `p` picks are forgotten without a reply. -/
def dropEntries (p : SegKey → Bool) : Prog := modDev (fun d => { d with entriesIn := d.entriesIn.filter (fun e => !p e.key) })

/-- A segment absorbed at local address `a` is counted (R16, R341). -/
def countAbsorbed (a : Nat) : Prog :=
  match placeOf a with
  | .slice c _ => bump (pgSluice c) R.sluice_ABS_CNT
  | .granary h => absorbAt (pgGran h) 1
  | .unmapped => .done

/-- Whether the segment comes from a queue of the croft that holds its destination. -/
def SegKey.own (k : SegKey) (a : Nat) : Bool :=
  match placeOf a with
  | .slice c _ => k.link == 16 && k.queue / 128 == c
  | _ => false

/-- Account for `n` bytes of an open segment, written (status 0) or refused; the last close it and send the acknowledgement (R333, R341,
R343, R361). A segment that is no longer open has no account. -/
def account (k : SegKey) (n status : Nat) : Prog := .get (fun s =>
  match s.entryIn k with
  | none => .done
  | some e =>
    let e' : Entry := { e with
      seen := e.seen + n
      status := if statusRank e.status < statusRank status then status else e.status
      absorbed := e.absorbed || status == 5 }
    .all [
      Prog.when (status == 5 && !e.absorbed) (countAbsorbed e.dst),
      if e'.size ≤ e'.seen then .all [
        dropEntries (· == k),
        (match placeOf e.dst with
         | .slice c _ => Prog.when (e'.status == 0 && !k.own e.dst) (bump (pgSluice c) R.sluice_IN_SEG_CNT)
         | _ => .done),
        sendCtrl (k.ack e'.status)]
      else modDev (fun d => { d with entriesIn := d.entriesIn.map (fun x => if x.key = k then e' else x) })])

/-- Whether the drain of a reset that covers croft `c` has ended (R15). -/
def State.drained (s : State) (c : Nat) : Bool := s.dev.resets.any (fun r => r.drained && r.grain.covers (pgCroft c))

/-- Incoming bytes for the slice of croft `c`: they wait for an IN cycle, or are absorbed at a croft under reset unless their segment
began before the request and the drain has not ended (R333, R341). -/
def postWrite (c dev src : Nat) (k : SegKey) (via : Option Nat) (parts : List (Nat × List Byte)) : Prog := .get (fun s =>
  if s.croftUnderReset c && (s.drained c || !s.begun k) then account k (parts.map (fun p => p.2.length)).sum 5
  else modCroft c (fun r => { r with inJobs := r.inJobs ++ [.write dev src k via parts] }))

/-- Who sent incoming traffic, as COLL_SRC shows it (R293). -/
def State.sender (s : State) (dev src : Nat) : Sender :=
  match (List.range 16).find? (fun v => s.portFld R.port_VDEV_VALID (4 * v) == 1 && s.portFld R.port_VDEV_DEV (4 * v) == dev) with
  | some v => ⟨src, v, false⟩
  | none => ⟨src, if dev = s.self then s.fld pgPort R.port_CFG_VIDX else 0, dev != s.self⟩

/-- A collision of incoming traffic at croft `c` (R280). -/
def inCollide (c off dev src : Nat) : Prog := .get (fun s => .all [
  bump (pgOwn c) R.own_IN_COLL_CNT,
  collide c 11 clBank (off / bankSize) 0 off (some (s.sender dev src))])

/-! ### Completion (R334 to R337) -/

/-- DONE advances over written records (R327). -/
def Queue.advance (q : Queue) : Queue :=
  let d := (List.range q.written.length).foldl (fun n _ => if q.written.contains n then n + 1 else n) q.done
  { q with done := d, written := q.written.filter (fun i => decide (d ≤ i)) }

/-- The first segment that is not OK, with its status. -/
def Xfer.firstBad (x : Xfer) : Option (Nat × Nat) :=
  (List.range x.segs.length).findSome? (fun k =>
    match x.segs[k]? with
    | some g => (match g.res with | some 0 => none | some st => some (k, st) | none => none)
    | none => none)

/-- Whether a descriptor of this KIND moves data. -/
def Desc.moves (d : Desc) : Bool := d.kind == 1 || d.kind == 2

/-- The 32 bytes of a completion record (R335). (DESIGN CHOICE, assumption 38) -/
def Xfer.record (x : Xfer) (stopped : Bool) (bell nseg : Nat) : List Byte :=
  let bad := x.firstBad
  let st := match bad with | some b => b.2 | none => 0
  let fb := match bad with | some b => b.1 | none => 0
  let ok := x.segs.map (fun g => g.res == some 0 && x.desc.moves)
  let map := (List.zip ok (List.range 64)).foldl (fun (a : Nat) p => if p.1 then a + 2 ^ p.2 else a) 0
  let bytes := ((List.zip ok x.segs).map (fun p => if p.1 then p.2.size else 0)).sum
  toLe 4 (x.desc.tag + x.epoch * 2 ^ 12 + st * 2 ^ 16 + fb * 2 ^ 20 + (if stopped then 2 ^ 26 else 0)) ++ toLe 4 nseg ++
  toLe 8 map ++ toLe 8 bell ++ toLe 4 bytes ++ toLe 4 x.idx

/-- The index and the slice offset of the order that rang queue `q`; of a queue that the host, the Steward or Bucket rang, which has none,
they are open. (DESIGN CHOICE, assumption 36) -/
def State.queueOrder (s : State) (q : Nat) : Nat × Nat :=
  if (s.queue q).owner = 1 then ((s.queue q).order, s.orderOffset (qCroft q) (s.queue q).order)
  else ((Config.openWord s.seq).toNat % 2 ^ 24, (Config.openWord s.seq).toNat / 2 ^ 24 % 2 ^ 28)

/-- A collision of the sluice for queue `q`: the croft halts with engine 9. COLL_ADDR is the offset of the access in the croft's slice, or
of the order where it has none there (R280, R293). (DESIGN CHOICE, assumption 36) -/
def sluiceCollide (q cls index : Nat) (addr : Option Nat) : Prog := .get (fun s => .all [
  collideHalt (qCroft q) 9 cls index (s.queueOrder q).1 (addr.getD (s.queueOrder q).2),
  eff .seq])

/-- The number of a device a transfer's destination names, if declared (R337). -/
def State.dstDev (s : State) (d : Desc) : Option Nat :=
  match s.dstDest d with
  | .here => some s.self
  | .port _ dev => some dev
  | .none => none

/-- The signals of a transfer that is wholly OK (R337). -/
def xferSignals (q : Nat) (d : Desc) : Prog := .get (fun s => .all [
  Prog.when d.lSig (modDev (fun v => { v with
    signals := v.signals ++ [{ src := some (qCroft q), dst := d.ltok.2.1, token := d.ltok.1, count := d.ltok.2.2, queue := some q }] })),
  match s.dstDev d with
  | some dev => Prog.when d.rSig (routeCtrl 1 (some q)
      (.signal (BitVec.ofNat 14 dev) (Fin.ofNat 128 d.rtok.2.1) (BitVec.ofNat 8 d.rtok.1) (BitVec.ofNat 16 d.rtok.2.2)))
  | none => .done])

/-- A transfer leaves the queue. -/
def dropXfer (q idx : Nat) : Prog := modQueue q (fun r => { r with xfers := r.xfers.filter (fun y => y.idx != idx) })

/-- A transfer with a failed segment: counted, recorded in LAST_ERR, its line raised (R336). -/
def xferFails (q idx st : Nat) : Prog := .all [
  bump (pgSluice (qCroft q)) R.sluice_ERR_CNT,
  setFld (pgQueue q) (R.qgroup_LAST_ERR_INDEX.plus (qblk q)) idx,
  setFld (pgQueue q) (R.qgroup_LAST_ERR_STATUS.plus (qblk q)) st,
  raiseLine (pgQueue q),
  tellWatch 14]

/-- A transfer all of whose segments have completed: its record is written, then its signals are sent or its failure takes effect
(R335 to R337, R344). During its croft's reset it leaves no record (R341). -/
def finishXfer (q : Nat) (x : Xfer) : Prog := .get (fun s =>
  let c := qCroft q
  let Q := s.queue q
  let failed := x.firstBad.isSome
  let stopped := failed && Q.stopper == some x.idx
  let off := s.recOff q x.idx
  let free := x.desc.nseg = 0 ∨ 64 < x.desc.nseg
  let nseg := if free then (Config.openWord s.seq).toNat % 128 else x.desc.nseg
  let st := match x.firstBad with | some b => b.2 | none => 0
  if s.croftUnderReset c then dropXfer q x.idx
  else .all [
    Prog.when free (eff .seq),
    dropXfer q x.idx,
    Prog.when failed (xferFails q x.idx st),
    match s.bankMiss c agSluice true off 32 with
    | some a => sluiceCollide q clBank (a / bankSize) (some a)
    | none => .all [
        store (some (.sluice (Fin.ofNat 16384 q))) (sliceAddr c off) (x.record stopped s.bellNow nseg),
        bump (pgSluice c) R.sluice_XFER_CNT,
        modQueue q (fun r => ({ r with written := r.written ++ [x.idx] } : Queue).advance),
        Prog.when x.desc.irq (raiseLine (pgQueue q)),
        Prog.when (!failed) (xferSignals q x.desc)],
    Prog.when (stopped && Q.owner == 1) (.all [
      pageFault (pgSluice c) (if st = 9 then 2 else 1) (s.descOff q x.idx),
      orderFault c Q.order 9])])

/-- Change a segment of a transfer in progress. -/
def modSeg (q idx k : Nat) (f : Seg → Seg) : Prog := modQueue q (fun r => { r with
  xfers := r.xfers.map (fun x => if x.idx = idx then { x with segs := x.segs.modify k f } else x) })

/-- How a segment of this device's queue is named at a receiver on this device: written from here, or by a read response. -/
def State.localKey (s : State) (q : Nat) (x : Xfer) (k : Nat) : SegKey :=
  ⟨16, s.self, q, x.desc.tag, x.epoch, s.inc (qCroft q), k, false⟩

/-- The transfer of a descriptor index. -/
def State.xfer? (s : State) (q idx : Nat) : Option Xfer := (s.queue q).xfers.find? (fun x => x.idx == idx)

/-- A segment completes (R334, R336): under STOP_ON_ERROR a failure stops the queue, and the transfer's segments not yet issued are
NOT_RUN; the last completes the transfer. -/
def completeSeg (q idx k st : Nat) : Prog := .get (fun s =>
  match s.xfer? q idx with
  | none => .done
  | some x =>
    match x.segs[k]? with
    | none => .done
    | some g =>
      if g.res.isSome then .done
      else
        let stop := st != 0 && s.qfld q R.qgroup_QCFG_MODE == 0
        .all [
          modSeg q idx k (fun g => { g with res := some st }),
          dropEntries (fun e => e == s.localKey q x k || e == { s.localKey q x k with link := 17 }),
          Prog.when (st == 0) (bump (pgSluice (qCroft q)) R.sluice_SEG_CNT),
          Prog.when (st == 6) (bump (pgSluice (qCroft q)) R.sluice_TIMEOUT_CNT),
          Prog.when stop (modQueue q (fun r => { r with
            stopper := if r.stopper.isSome then r.stopper else some idx
            xfers := r.xfers.map (fun x => if x.idx = idx then
              { x with segs := x.segs.map (fun g => if g.res.isNone && g.moved == 0 && !g.asked then { g with res := some 8 } else g) }
              else x) })),
          .get (fun s =>
            match s.xfer? q idx with
            | some x => Prog.when (x.segs.all (fun g => g.res.isSome)) (finishXfer q x)
            | none => .done)])

/-! ### Starting descriptors (R328) -/

/-- Sizes of a transfer's segments (R330). -/
def Desc.segs (d : Desc) : List Seg :=
  (List.range d.nseg).map (fun k => { size := min d.segSize (d.len - k * d.segSize) })

/-- Whether every record before HEAD is written. -/
def Queue.allWritten (q : Queue) : Bool := decide (q.head = q.done) && q.xfers.isEmpty

/-- DESCRIPTOR_START: the queue starts its next descriptor within MAX_OUT and any FENCE; a descriptor error moves nothing and completes
with DESC_ERR (R328, R331). -/
def execDescriptorStart (q : QueueId) (s : State) : Host.Outcome State Fault Refusal :=
  Prog.next (.get (fun s =>
    let c := qCroft q.val
    let Q := s.queue q.val
    let off := s.descOff q.val Q.head
    if decide (Q.tail ≤ Q.head) || Q.stopper.isSome || Q.waiting.isSome || decide (s.qfld q.val R.qgroup_QCFG_MAX_OUT ≤ Q.xfers.length) ||
        s.croftUnderReset c || !s.clockRuns c then .done
    else
      match s.bankMiss c agSluice false off 64 with
      | some a => sluiceCollide q.val clBank (a / bankSize) (some a)
      | none => .all [readBy (some (.sluice q)) (sliceAddr c off) 64, .get (fun s =>
        let d := s.readDesc c off
        if (d.fence || d.kind == 3) && !Q.allWritten then .done
        else if s.descErr Q d then
          let n := if d.nseg = 0 ∨ 64 < d.nseg then 1 else d.nseg
          let x : Xfer := ⟨Q.head, Q.epoch, d, List.replicate n { size := 0, res := some 9 }, false⟩
          .all [
            bump (pgSluice c) R.sluice_DESC_ERR_CNT,
            modQueue q.val (fun r => { r with
              head := r.head + 1
              stopper := if s.qfld q.val R.qgroup_QCFG_MODE = 0 then some Q.head else none }),
            finishXfer q.val x]
        else modQueue q.val (fun r => { r with
          head := r.head + 1, tags := r.tags ++ [d.tag], xfers := r.xfers ++ [⟨Q.head, Q.epoch, d, d.segs, true⟩] }))])) s

/-- The started descriptor of a KIND that has yet to take effect. -/
def State.freshXfer (s : State) (q kind : Nat) : Option Xfer := (s.queue q).xfers.find? (fun x => x.fresh && x.desc.kind == kind)

/-- A started descriptor takes effect. -/
def unfresh (q idx : Nat) : Prog := modQueue q (fun r => { r with
  xfers := r.xfers.map (fun x => if x.idx = idx then { x with fresh := false } else x) })

/-- DESCRIPTOR_NOP: writes its record when it starts (R330). -/
def execDescriptorNop (q : QueueId) (s : State) : Host.Outcome State Fault Refusal :=
  Prog.next (.get (fun s =>
    match s.freshXfer q.val 0 with
    | some x => finishXfer q.val { x with segs := [] }
    | none => .done)) s

/-- COPY: the transfer's segments may issue (R330). -/
def execCopy (q : QueueId) (s : State) : Host.Outcome State Fault Refusal :=
  Prog.next (.get (fun s => match s.freshXfer q.val 1 with | some x => unfresh q.val x.idx | none => .done)) s

/-- FILL: reads nothing; its pattern's segments may issue (R330). -/
def execFill (q : QueueId) (s : State) : Host.Outcome State Fault Refusal :=
  Prog.next (.get (fun s => match s.freshXfer q.val 2 with | some x => unfresh q.val x.idx | none => .done)) s

/-! ### Epochs (R338, R339) -/

/-- 2 × SEG_TIMEOUT in ns. -/
def State.epochGuard (s : State) (q : Nat) : Nat := 2 * s.qfld q R.qgroup_QCFG_SEG_TIMEOUT * 10000

/-- The epoch advances: transfers of the old one still outstanding complete with TIMEOUT, and the EPOCH descriptor that ordered it
writes its record. -/
def epochTakes (q : Nat) (order : Option Nat) : Prog := .get (fun s =>
  let Q := s.queue q
  let old := Q.xfers.filter (fun x => order != some x.idx)
  .all [
    Prog.each old (fun x => Prog.each (List.range x.segs.length) (fun k => completeSeg q x.idx k 6)),
    modQueue q (fun r => { r with
      epoch := (r.epoch + 1) % 16, tags := [], waiting := none, left := Sparse.set r.left r.epoch s.now }),
    match order with
    | some i => (match Q.xfers.find? (fun x => x.idx == i) with
        | some x => finishXfer q { x with segs := [] }
        | none => .done)
    | none => .done])

/-- The epoch is to advance: at once, or after a wait while its next value was left too recently (R339). -/
def epochAdvance (q : Nat) (order : Option Nat) : Prog := .get (fun s =>
  let Q := s.queue q
  match Sparse.get? Q.left ((Q.epoch + 1) % 16) with
  | some t =>
    if s.now < t + s.epochGuard q then .all [
      modQueue q (fun r => { r with waiting := some order }),
      bump (pgSluice (qCroft q)) R.sluice_EPOCH_WAIT_CNT]
    else epochTakes q order
  | none => epochTakes q order)

/-- EPOCH: the descriptor advances the queue's epoch and writes its record (R339). -/
def execEpoch (q : QueueId) (s : State) : Host.Outcome State Fault Refusal :=
  Prog.next (.get (fun s =>
    match s.freshXfer q.val 3 with
    | some x => .all [unfresh q.val x.idx, epochAdvance q.val (some x.idx)]
    | none => .done)) s

/-- EPOCH_WAIT_END: an advance that waited takes effect (R339). -/
def execEpochWaitEnd (q : QueueId) (s : State) : Host.Outcome State Fault Refusal :=
  Prog.next (.get (fun s => match (s.queue q.val).waiting with | some o => epochTakes q.val o | none => .done)) s

/-- A restart of a queue, on a stopped queue only (R345). (DEDUCED, assumption 39) -/
def queueRestart (q : Nat) : Prog := .get (fun s =>
  if (s.queue q).state != 2 then ignored (pgQueue q)
  else .all [modQueue q (fun r => { r with stopper := none }), epochAdvance q none])

/-- QUEUE_RESTART: `QUEUE.CMD` OP 1 (R345). -/
def execQueueRestart (q : QueueId) (s : State) : Host.Outcome State Fault Refusal :=
  Prog.next (regWrite .host (pgQueue q.val) (R.qgroup_CMD_OP.off + qblk q.val) (queueRestart q.val)) s

/-- An epoch advance by command, on an idle queue only (R345). -/
def queueAdvance (q : Nat) : Prog := .get (fun s =>
  if (s.queue q).state != 0 then ignored (pgQueue q) else epochAdvance q none)

/-- ADVANCE_EPOCH: `QUEUE.CMD` OP 2 (R345). -/
def execAdvanceEpoch (q : QueueId) (s : State) : Host.Outcome State Fault Refusal :=
  Prog.next (regWrite .host (pgQueue q.val) (R.qgroup_CMD_OP.off + qblk q.val) (queueAdvance q.val)) s

/-! ### Doorbells (R324, R327) -/

/-- Whether a doorbell of `n` has room (R327). -/
def State.hasRoom (s : State) (q n : Nat) : Bool := decide ((s.queue q).tail + n ≤ (s.queue q).done + s.ringLen q)

/-- A doorbell with room is accepted. -/
def ring (q n owner : Nat) (order : Option Nat) : Prog := modQueue q (fun r => { r with
  tail := r.tail + n, owner := owner, order := order.getD r.order })

/-- A doorbell of owner `own` for `n` descriptors; 0 has no effect (R324, R327, R345). From the host without the right it is a refused
access (R280, R444). COLL_ADDR of its collision is open. (DESIGN CHOICE,
assumption 113) -/
def doorbell (q own n : Nat) : Prog := .get (fun s =>
  let c := qCroft q
  if n = 0 then ignored (pgQueue q)
  else if s.queueOwner c (qLocal q) ≠ own then .all [
    bump (pgOwn c) R.own_HOST_COLL_CNT,
    collide c 10 clQueue (qLocal q) 0 ((Config.openWord s.seq).toNat % 2 ^ 28) none,
    eff .seq,
    Prog.when (own == 2) (hostEnd 0 endRefused true ((pgQueue q).base + R.qgroup_DOORBELL_COUNT.off + qblk q))]
  else if s.hasRoom q n then ring q n own none
  else bump (pgSluice c) R.sluice_DB_REFUSE_CNT)

/-- Who writes the doorbell, as an agent of the register pages and as an owner (R294). -/
def ringAgent (w : Ringer) : Agent := match w with | .host => .host | .steward => .steward | .bucket => .steward
def ringOwner (w : Ringer) : Nat := match w with | .host => 2 | .steward => 3 | .bucket => 4

/-- DOORBELL: a write of the host, or an internal write of Steward or Bucket, to the queue's DOORBELL (R324, R327). -/
def execDoorbell (q : QueueId) (who : Ringer) (count : BitVec 16) (s : State) : Host.Outcome State Fault Refusal :=
  Prog.next (regWrite (ringAgent who) (pgQueue q.val) (R.qgroup_DOORBELL_COUNT.off + qblk q.val)
    (doorbell q.val (ringOwner who) count.toNat)) s

/-- SLUICE: the order kicks a stream-owned queue and completes at issue; a kick of a queue it does not own collides, and one without
room is an order fault (R246, R274, R279, R327). -/
def execSluice (c : CroftId) (s : State) : Host.Outcome State Fault Refusal :=
  Prog.next (issueRow c.val (fun s i _ o =>
    match o with
    | .sluice j n =>
      let q := c.val * 128 + j
      some (
        if !s.enabled (pgQueue q) then reeveFault c.val 0x0B i (s.orderOffset c.val i)
        else .all [
          issueDone c.val (nextIdx i),
          if s.queueOwner c.val j ≠ 1 then collideHalt c.val 0 clQueue j i (s.orderOffset c.val i)
          else if s.hasRoom q n then ring q n 1 (some i)
          else .all [
            bump (pgSluice c.val) R.sluice_DB_REFUSE_CNT,
            pageFault (pgSluice c.val) 3 (s.descOff q (s.queue q).tail),
            orderFault c.val i 9]])
    | _ => none)) s

/-! ### Beats (R325, R332) -/

/-- The oldest segment of the queue that its port has yet to move, of those `p` picks (R325). -/
def Queue.current (q : Queue) (p : Seg → Bool) : Option (Xfer × Nat × Seg) :=
  q.xfers.findSome? (fun x =>
    if x.fresh || !x.desc.moves then none
    else (List.range x.segs.length).findSome? (fun k =>
      match x.segs[k]? with
      | some g => if g.res.isNone && decide (g.moved < g.size) && p g then some (x, k, g) else none
      | none => none))

/-- The segment queue `q` moves next; during its croft's reset only one already under way (R341). -/
def State.current (s : State) (q : Nat) : Option (Xfer × Nat × Seg) :=
  (s.queue q).current (fun g => !s.croftUnderReset (qCroft q) || g.moved != 0 || g.asked)

/-- Positions of the 64-byte granules of a beat of at most `n` bytes from position `p`, those that lie where the first does. -/
def Desc.granules (d : Desc) (p n : Nat) : List Nat :=
  let unit (a : Nat) : Place := match placeOf a with | .slice c _ => .slice c 0 | x => x
  let same (i : Nat) : Bool :=
    (d.kind == 2 || unit (d.srcAddr i) == unit (d.srcAddr p)) && unit (d.dstAddr i) == unit (d.dstAddr p)
  ((List.range (n / 64)).map (fun i => p + 64 * i)).takeWhile same

/-- Eight-byte pattern of a FILL over `n` bytes (R330). -/
def fillBytes (v n : Nat) : List Byte := (List.range n).map (fun i => BitVec.ofNat 8 (v / 2 ^ (8 * (i % 8))))

/-- Slice offset of what the queue's beat at position `p` reads or writes in its own croft's slice, if it does. -/
def State.ownOffset (s : State) (q : Nat) (d : Desc) (p : Nat) : Option Nat :=
  let mine (a : Nat) : Option Nat := match placeOf a with | .slice c o => if c = qCroft q then some o else none | _ => none
  match (if d.kind ≠ 2 ∧ s.srcDest d = .here then mine (d.srcAddr p) else none) with
  | some o => some o
  | none => if s.dstDest d = .here then mine (d.dstAddr p) else none

/-- A segment of the queue ends in a collision of its own sluice (R280, R334). -/
def segCollide (q idx k cls index : Nat) (addr : Option Nat) : Prog := .all [sluiceCollide q cls index addr, completeSeg q idx k 1]

/-- A lane share is missing on channel and direction `h` (R287); which share the record names is open. (DESIGN CHOICE, assumption 37) -/
def laneCollide (q idx k h : Nat) (addr : Option Nat) : Prog := .get (fun s => .all [
  eff .seq, segCollide q idx k clLane (h * 16 + (Config.openWord s.seq).toNat % 15) addr])

/-- The bytes a queue's beat moves, handed to `f`: from its own slice or a granary at once, from another croft's slice once an IN
cycle there has brought them. A read that fails completes the segment (R280, R312, R316, R317, R341). -/
def withSource (q : Nat) (x : Xfer) (k : Nat) (g : Seg) (ps : List Nat) (f : List Byte → Prog) : Prog := .get (fun s =>
  let c := qCroft q
  let d := x.desc
  let own := (s.queue q).owner
  let a0 := d.srcAddr (ps.headD 0)
  let addr := s.ownOffset q d (ps.headD 0)
  let absorb : Prog := .all [countAbsorbed a0, completeSeg q x.idx k 5]
  let read : Prog := .all [
    readAll (some (.sluice (Fin.ofNat 16384 q))) (ps.map (fun p => (d.srcAddr p, 64))),
    .get (fun s =>
      if ps.any (fun p => s.deadAt (d.srcAddr p) 64) then completeSeg q x.idx k 2
      else f (ps.flatMap (fun p => s.bytes (d.srcAddr p) 64)))]
  if d.kind = 2 then f (fillBytes d.fill (64 * ps.length))
  else
    match placeOf a0 with
    | .unmapped => completeSeg q x.idx k 3
    | .granary h =>
      if !s.granShare c own h then segCollide q x.idx k clGran h addr
      else if s.granAbsorbs h (decide (0 < g.moved)) then absorb
      else
        match s.hopMiss c own (hamletHops h (c / 16)) with
        | some m => laneCollide q x.idx k m addr
        | none => read
    | .slice c' _ =>
      if c' = c then
        match firstSome (ps.map (fun p => s.bankMiss c agSluice false (d.srcAddr p - sliceAddr c 0) 64)) with
        | some a => segCollide q x.idx k clBank (a / bankSize) (some a)
        | none => read
      else if !g.ready.isEmpty then .all [modSeg q x.idx k (fun g => { g with ready := [], asked := false }), f g.ready]
      else
        match s.hopMiss c own (hamletHops (c' / 16) (c / 16)) with
        | some m => laneCollide q x.idx k m addr
        | none =>
          if s.croftUnderReset c' && (s.drained c' || g.moved == 0) then absorb
          else .all [
            modSeg q x.idx k (fun g => { g with asked := true }),
            modCroft c' (fun r => { r with inJobs := r.inJobs ++ [.feed q x.idx k (ps.map (fun p => d.srcAddr p - sliceAddr c' 0))] })])

/-- Cut bytes into granules. -/
def granulesOf (as : List Nat) (bs : List Byte) : List (Nat × List Byte) :=
  (List.zip as (List.range as.length)).map (fun p => (p.1, (bs.drop (64 * p.2)).take 64))

/-- Parts that follow each other without a gap, joined. -/
def joinParts (ps : List (Nat × List Byte)) : List (Nat × List Byte) :=
  ps.foldr (fun p l => match l with
    | (a, bs) :: l' => if a = p.1 + p.2.length then (p.1, p.2 ++ bs) :: l' else p :: l
    | [] => [p]) []

/-- Bytes of an open segment are written, and accounted for as written or as refused for uncorrectable data (R301, R311, R333). -/
def writeParts (src : Source) (key : SegKey) (parts : List (Nat × List Byte)) : Prog := .all [
  Prog.each (joinParts parts) (fun p => memStore src p.1 p.2),
  .get (fun s => account key (parts.map (fun p => p.2.length)).sum (if parts.any (fun p => s.deadAt p.1 p.2.length) then 2 else 0))]

/-- The destination on this device takes a beat's bytes (R280, R312, R317, R333, R497). -/
def putBeat (q : Nat) (x : Xfer) (k : Nat) (g : Seg) (ps : List Nat) (bs : List Byte) : Prog := .get (fun s =>
  let c := qCroft q
  let d := x.desc
  let own := (s.queue q).owner
  let key := s.localKey q x k
  let a0 := d.dstAddr (ps.headD 0)
  let addr := s.ownOffset q d (ps.headD 0)
  let parts := granulesOf (ps.map d.dstAddr) bs
  let go (p : Prog) : Prog := .all [openEntry key g.size a0, modSeg q x.idx k (fun g => { g with moved := g.moved + 64 * ps.length }), p]
  let write : Prog := go (writeParts (.sluice (Fin.ofNat 16384 q)) key parts)
  match placeOf a0 with
  | .unmapped => completeSeg q x.idx k 3
  | .granary h =>
    if !s.granShare c own h then segCollide q x.idx k clGran h addr
    else if s.granAbsorbs h (s.begun key || decide (0 < g.moved)) then .all [countAbsorbed a0, completeSeg q x.idx k 5]
    else if parts.any (fun p => touchesBoot p.1 64) then segCollide q x.idx k clGran h addr
    else if parts.any (fun p => s.bucketKeeps p.1 64) then
      .all [bump pgBucket R.bucket_REFUSE_CNT, completeSeg q x.idx k 1]
    else
      match s.hopMiss c own (hamletHops (c / 16) h) with
      | some m => laneCollide q x.idx k m addr
      | none => write
  | .slice c' _ =>
    if c' = c then
      match firstSome (ps.map (fun p => s.bankMiss c agSluice true (d.dstAddr p - sliceAddr c 0) 64)) with
      | some a => segCollide q x.idx k clBank (a / bankSize) (some a)
      | none => write
    else
      match s.hopMiss c own (hamletHops (c / 16) (c' / 16)) with
      | some m => laneCollide q x.idx k m addr
      | none => go (postWrite c' s.self c key none (parts.map (fun p => (p.1 - sliceAddr c' 0, p.2)))))

/-- The link and shares a segment of another device's memory takes, handed to `f`; `addr` is the access's own slice offset, if it has
one (R287, R332, R356). -/
def withLink (q : Nat) (x : Xfer) (k p : Nat) (addr : Option Nat) (f : Nat → List Nat → Prog) : Prog := .get (fun s =>
  let c := qCroft q
  let own := (s.queue q).owner
  let links := s.portLinks p
  match links[k % links.length]? with
  | none => completeSeg q x.idx k 4
  | some l =>
    let shares := s.linkShares c own l
    if s.fld pgPort R.port_STATUS_DOWN / 2 ^ l % 2 = 1 then completeSeg q x.idx k 7
    else
      match s.hopMiss c own (toGateHops (c / 16) (gateOf l)) with
      | some m => laneCollide q x.idx k m addr
      | none =>
        if shares.isEmpty then .all [eff .seq, segCollide q x.idx k clLink (l * 16 + (Config.openWord s.seq).toNat % 15) addr]
        else f l shares)

/-- The HEAD of a message of segment `k` (R360). -/
def State.headOf (s : State) (q : Nat) (x : Xfer) (k : Nat) (g : Seg) (kind : MKind) (dev len addr resp : Nat) : Head :=
  { kind := kind, ledger := x.desc.ledger, coll := BitVec.ofNat 8 x.desc.coll, srcDev := BitVec.ofNat 14 s.self,
    dstDev := BitVec.ofNat 14 dev, queue := BitVec.ofNat 14 q, tag := BitVec.ofNat 12 x.desc.tag, epoch := BitVec.ofNat 4 x.epoch,
    inc := BitVec.ofNat 4 (s.inc (qCroft q)), seg := BitVec.ofNat 6 k, addr := BitVec.ofNat 52 addr, respAddr := BitVec.ofNat 52 resp,
    length := BitVec.ofNat 32 len, segBytes := BitVec.ofNat 32 g.size, segOffset := BitVec.ofNat 32 g.moved, bucket := false }

/-- Bytes of the message that begins at position `p` of a segment: contiguous, and in one memory at each end (R359). -/
def Desc.msgLen (d : Desc) (p : Nat) (g : Seg) : Nat :=
  64 * (d.granules p (min 65536 (min (d.run p) (g.size - g.moved)))).length

/-- A beat towards another device: a DATA flit, after its message's HEAD where it is the first (R332, R359). -/
def pushBeat (q : Nat) (x : Xfer) (k : Nat) (g : Seg) (port dev : Nat) : Prog := .get (fun s =>
  let pos := k * x.desc.segSize + g.moved
  withLink q x k port (s.ownOffset q x.desc pos) (fun l shares => .get (fun s =>
    let fresh := g.left = 0
    let len := if fresh then x.desc.msgLen pos g else g.left
    let sh := if fresh then shares.getD (g.msgs % shares.length) 0 else g.share
    let ps := x.desc.granules pos (min 256 len)
    withSource q x k g ps (fun bs => .all [
      sendFlits l (txKey (s.queue q).owner sh) ((if fresh then
          [⟨Fin.ofNat 128 (qCroft q), .head (s.headOf q x k g .write dev len (x.desc.dstAddr pos) 0)⟩] else []) ++
        [⟨Fin.ofNat 128 (qCroft q), .data bs⟩]),
      modSeg q x.idx k (fun g => { g with
        moved := g.moved + bs.length, left := len - bs.length, link := l, share := sh
        msgs := if fresh then g.msgs + 1 else g.msgs })]))))

/-- A read of another device's memory: a READ_REQ for the segment's next contiguous bytes (R332, R362). -/
def pullBeat (q : Nat) (x : Xfer) (k : Nat) (g : Seg) (port dev : Nat) : Prog := .get (fun s =>
  let pos := k * x.desc.segSize + g.moved
  withLink q x k port (s.ownOffset q x.desc pos) (fun l shares => .get (fun s =>
    let len := x.desc.msgLen pos g
    .all [
      sendFlits l (txKey (s.queue q).owner (shares.getD (g.msgs % shares.length) 0))
        [⟨Fin.ofNat 128 (qCroft q), .head (s.headOf q x k g .readReq dev len (x.desc.srcAddr pos) (x.desc.dstAddr pos))⟩],
      modSeg q x.idx k (fun g => { g with moved := g.moved + len, msgs := g.msgs + 1, link := l })])))

/-- Whether a queue other than `q` has begun a message in outbound share `key` of link `l` and not ended it (R359). -/
def State.shareBusy (s : State) (q l key : Nat) : Bool :=
  s.queues.any (fun e => e.1 != q && e.2.xfers.any (fun x => x.segs.any (fun g =>
    g.res.isNone && g.left != 0 && g.link == l && txKey e.2.owner g.share == key)))

/-- The link of port `p` and the share where segment `k` goes on, if it has them (R332, R359). -/
def State.nextShare (s : State) (q k : Nat) (g : Seg) (p : Nat) : Option (Nat × Nat) :=
  let links := s.portLinks p
  match links[k % links.length]? with
  | none => none
  | some l =>
    let shares := s.linkShares (qCroft q) (s.queue q).owner l
    if shares.isEmpty then none else some (l, if g.left = 0 then shares.getD (g.msgs % shares.length) 0 else g.share)

/-- Whether the queue's beat must wait: for bytes another croft is to send, for a granary that does not serve, or for a share where
another message is under way (R325, R359). -/
def State.beatWaits (s : State) (q : Nat) (x : Xfer) (k : Nat) (g : Seg) : Bool :=
  let c := qCroft q
  let d := x.desc
  let own := (s.queue q).owner
  let pos := k * d.segSize + g.moved
  let gran (h : Nat) : Bool := s.granShare c own h && !s.granAbsorbs h (decide (0 < g.moved)) && !s.granServes h
  let share (p : Nat) : Bool := match s.nextShare q k g p with | some (l, sh) => s.shareBusy q l (txKey own sh) | none => false
  let source : Bool := d.kind != 2 &&
    (match placeOf (d.srcAddr pos) with
     | .granary h => gran h
     | .slice c' _ => c' != c && g.asked && g.ready.isEmpty
     | .unmapped => false)
  match s.srcDest d, s.dstDest d with
  | .none, _ => false
  | _, .none => false
  | .here, .here => source || (match placeOf (d.dstAddr pos) with | .granary h => gran h | _ => false)
  | .here, .port p _ => source || share p
  | .port p _, _ => share p

/-- A cycle of queue `q`: 256 bytes of its oldest unfinished segment, if they are ready (R325). (DEDUCED, assumption 34) -/
def queueBeat (q : Nat) : Prog := .get (fun s =>
  match s.current q with
  | none => .done
  | some (x, k, g) =>
    if s.beatWaits q x k g then .done
    else
      match s.srcDest x.desc, s.dstDest x.desc with
      | .none, _ => completeSeg q x.idx k 4
      | _, .none => completeSeg q x.idx k 4
      | .here, .here =>
        let ps := x.desc.granules (k * x.desc.segSize + g.moved) (min 256 (g.size - g.moved))
        withSource q x k g ps (putBeat q x k g ps)
      | .here, .port p dev => pushBeat q x k g p dev
      | .port p dev, _ => pullBeat q x k g p dev)

/-! ### Incoming traffic -/

/-- A READ_RESP goes out on the share its request came by (R362). -/
def sendResp (l share croft : Nat) (r : Head) (bs : List Byte) : Prog := .get (fun s =>
  let h : Head := { r with kind := .readResp, srcDev := BitVec.ofNat 14 s.self, dstDev := r.srcDev, addr := r.respAddr, respAddr := 0 }
  let data := (List.range ((bs.length + 255) / 256)).map (fun i => (⟨Fin.ofNat 128 croft, .data ((bs.drop (256 * i)).take 256)⟩ : Flit))
  sendFlits l (txKey 2 share) (⟨Fin.ofNat 128 croft, .head h⟩ :: data))

/-- The SEG_ACK that refuses a read request (R362). -/
def refuseRead (r : Head) (status : Nat) : Prog :=
  sendCtrl (.segAck r.srcDev r.queue r.tag r.epoch r.inc r.seg (BitVec.ofNat 4 status) r.bucket)

/-- An IN cycle of croft `c`: 256 bytes of incoming traffic into the slice, or out of it for a read (R325, R333). -/
def inBeat (c : Nat) : Prog := .get (fun s =>
  match (s.croft c).inJobs with
  | [] => .done
  | j :: rest =>
    let pop := modCroft c (fun r => { r with inJobs := rest })
    match j with
    | .write dev src k _ parts =>
      let who : Source := .incoming (if dev = s.self then some (Fin.ofNat 16384 k.queue) else none)
      (match firstSome (parts.map (fun p => s.bankMiss c agSluice true p.1 p.2.length)) with
       | some a => .all [pop, inCollide c a dev src, account k (parts.map (fun p => p.2.length)).sum 1]
       | none => .all [pop, writeParts who k (parts.map (fun p => (sliceAddr c p.1, p.2)))])
    | .feed q idx k offs =>
      (match firstSome (offs.map (fun o => s.bankMiss c agSluice false o 64)) with
       | some a => .all [pop, inCollide c a s.self (qCroft q), completeSeg q idx k 1]
       | none => .all [
          pop,
          readAll (some (.incoming (some (Fin.ofNat 16384 q)))) (offs.map (fun o => (sliceAddr c o, 64))),
          .get (fun s =>
            if offs.any (fun o => s.deadAt (sliceAddr c o) 64) then completeSeg q idx k 2
            else modSeg q idx k (fun g => { g with ready := offs.flatMap (fun o => s.bytes (sliceAddr c o) 64) }))])
    | .serve l share croft r got =>
      let o := r.addr.toNat - sliceAddr c 0 + got.length
      let n := min 256 (r.length.toNat - got.length)
      (match s.bankMiss c agSluice false o n with
       | some a => .all [pop, inCollide c a r.srcDev.toNat croft, refuseRead r 1]
       | none => .all [
          readBy (some (.incoming none)) (sliceAddr c o) n,
          .get (fun s =>
            let all' := got ++ s.bytes (sliceAddr c o) n
            if s.deadAt (sliceAddr c o) n then .all [pop, refuseRead r 2]
            else if r.length.toNat ≤ all'.length then .all [pop, sendResp l share croft r all']
            else modCroft c (fun x => { x with inJobs := .serve l share croft r all' :: rest }))]))

/-- The queue an owner's ASYNC turn takes: its queues with data ready, in ascending number after the last taken (R325). -/
def State.asyncQueue (s : State) (c own : Nat) : Option Nat :=
  let last := (Sparse.get? (s.croft c).asyncAt own).getD 127
  let hasData (q : Nat) : Bool := match s.current q with | some (x, k, g) => !s.beatWaits q x k g | none => false
  let ready := (s.queues.filter (fun e => decide (qCroft e.1 = c) && e.2.owner == own && hasData e.1)).map (fun e => qLocal e.1)
  match ready.find? (fun j => decide (last < j)) with
  | some j => some j
  | none => ready.head?

/-- The owner code whose turn an ASYNC cycle is (R284). -/
def asyncOwner (turn : Nat) : Nat :=
  match turn with
  | 0 => 3
  | 3 => 4
  | _ => 2

/-- The slot entry of cycle `cyc` of the frame (R342): cycles 1 to 7 and 9 to 15. -/
def State.slotEntry (s : State) (c cyc : Nat) : Nat :=
  let i := if cyc < 8 then cyc - 1 else cyc - 2
  (s.reg (pgSluice c) (0x040 + 4 * (i / 4))).toNat / 2 ^ (8 * (i % 4)) % 256

/-- SLUICE_SLOT_CYCLE: one cycle of the port's frame (R284, R325). Cycle 0 is the reeve's fetch cycle. -/
def execSluiceSlotCycle (c : CroftId) (cyc : Fin 16) (turn : Fin 4) (s : State) : Host.Outcome State Fault Refusal :=
  Prog.next (.get (fun s =>
    let own := asyncOwner turn.val
    if s.drained c.val || !s.clockRuns c.val || cyc.val = 0 then .done
    else if cyc.val = 8 then
      match s.asyncQueue c.val own with
      | some j => .all [
          modCroft c.val (fun r => { r with asyncAt := Sparse.set r.asyncAt own j }),
          queueBeat (c.val * 128 + j)]
      | none => .done
    else
      let e := s.slotEntry c.val cyc.val
      if e < 0x80 then Prog.when ((s.queue (c.val * 128 + e)).owner == 1) (queueBeat (c.val * 128 + e))
      else if e = 0x80 then inBeat c.val
      else .done)) s

/-- SEG_TIMEOUT: no acknowledgement of a segment whose last byte has left (R334). -/
def execSegTimeout (q : QueueId) (idx : BitVec 32) (seg : Fin 64) (s : State) : Host.Outcome State Fault Refusal :=
  Prog.next (.get (fun s =>
    match (s.queue q.val).xfers.find? (fun x => x.idx % 2 ^ 32 == idx.toNat) with
    | some x =>
      (match x.segs[seg.val]? with
       | some g => Prog.when (decide (g.size ≤ g.moved)) (completeSeg q.val x.idx seg.val 6)
       | none => .done)
    | none => .done)) s

/-- A segment acknowledgement reaches its queue (R335, R338, R340). Uncorrectable data that another device reports halts the requesting
croft; the address its record gives is open (R316, DESIGN CHOICE, assumption 36). -/
def ackArrives (q tag epoch inc seg status : Nat) : Prog := .get (fun s =>
  let c := qCroft q
  let Q := s.queue q
  let told := s.fld (pgReeve c) R.STATE_STATE == stFault && s.fld (pgReeve c) R.FAULT_CAUSE == 0x0C
  if inc ≠ s.inc c ∨ epoch ≠ Q.epoch then bump (pgSluice c) R.sluice_STALE_CNT
  else
    match Q.xfers.find? (fun x => x.desc.tag == tag && x.epoch == epoch) with
    | some x => .all [
        Prog.when (status == 2 && !told && (match x.segs[seg]? with | some g => g.res.isNone | none => false)) (.all [
          queueUE q ((Config.openWord s.seq).toNat % 2 ^ 28), eff .seq]),
        completeSeg q x.idx seg status]
    | none => .done)

/-! ### Tokens and incarnations (R256 to R258, R340) -/

/-- A token signal reaches croft `c`: discarded within 3 ms of an incarnation's advance, absorbed under reset, counted otherwise (R16, R258,
R340). -/
def tokenArrives (src : Option Nat) (c t n : Nat) : Prog := .get (fun s =>
  if s.dev.incWindow.contains c then bump (pgSluice c) R.sluice_STALE_CNT
  else if s.underReset (pgReeve c) then .all [
    absorbAt (pgReeve c) 1,
    (match src with | some x => bump (pgReeve x) R.reeve_SIGNAL_ABS_CNT | none => .done)]
  else signalToken c t n)

/-- Whether signal `y`, sent before, must arrive before `x`: from one croft to another (R257), from one queue of this device (R337), or both
by control messages from other devices, which come in their order. (DESIGN CHOICE, assumption 136) -/
def TokSig.after (x y : TokSig) : Bool :=
  x.msg == y.msg && (x.src == y.src && x.dst == y.dst || (x.msg && x.queue.isNone && y.queue.isNone)) ||
  (x.queue.isSome && x.queue == y.queue)

/-- Place in the list of signals on their way of the `k`-th that a control message carries, or of the `k`-th of the others. -/
def State.signalAt (s : State) (msg : Bool) (k : Nat) : Option Nat :=
  ((List.range s.dev.signals.length).filter (fun i => (s.dev.signals[i]?).any (fun x => x.msg == msg)))[k]?

/-- The `k`-th signal on its way of those that a control message carries, or of the others, arrives, unless one before it must come
first. -/
def arriveSignal (msg : Bool) (k : Nat) : Prog := .get (fun s =>
  match s.signalAt msg k with
  | none => .done
  | some i =>
    match s.dev.signals[i]? with
    | none => .done
    | some x =>
      if (s.dev.signals.take i).any x.after then .done
      else .all [
        modDev (fun d => { d with signals := d.signals.eraseIdx i }),
        tokenArrives x.src x.dst x.token x.count])

/-- TOKEN_SIGNAL_ARRIVAL: the `k`-th token signal on the lanes arrives (R256, R257). -/
def execTokenSignalArrival (k : Nat) (s : State) : Host.Outcome State Fault Refusal :=
  Prog.next (arriveSignal false k) s

/-- SIGNAL: the `k`-th signal message delivered to this device adds COUNT to a token of its croft (R337). -/
def execSignal (k : Nat) (s : State) : Host.Outcome State Fault Refusal :=
  Prog.next (arriveSignal true k) s

/-- INCARNATION_WINDOW_END: the router discards no more signals to the croft (R340). -/
def execIncarnationWindowEnd (c : CroftId) (s : State) : Host.Outcome State Fault Refusal :=
  Prog.next (modDev (fun d => { d with incWindow := d.incWindow.filter (· != c.val) })) s

/-- A croft's incarnation advances (R340). (DEDUCED, assumption 59) -/
def incAdvance (c : Nat) : Prog := .get (fun s => modDev (fun d => { d with
  incs := let n := (s.inc c + 1) % 16
          if n = 0 then Sparse.eraseRange d.incs c (c + 1) else Sparse.set d.incs c n
  incWindow := if d.incWindow.contains c then d.incWindow else d.incWindow ++ [c] }))

/-- The open segments for the places `p` picks are absorbed: each is counted and acknowledged (R16, R341). -/
def closeAbsorbed (p : Place → Bool) : Prog := .get (fun s =>
  Prog.each (s.dev.entriesIn.filter (fun e => p (placeOf e.dst))) (fun e => account e.key e.size 5))

/-- What the end of a drain absorbs at croft `c`: incoming traffic still unfinished, and the croft's own transfers, which leave no record
(R341). -/
def absorbCroft (c : Nat) : Prog := .get (fun s => .all [
  Prog.each (s.croft c).inJobs (fun j =>
    match j with
    | .write .. => .done
    | .feed q idx k _ => .all [bump (pgSluice c) R.sluice_ABS_CNT, completeSeg q idx k 5]
    | .serve _ _ _ r _ => .all [bump (pgSluice c) R.sluice_ABS_CNT, refuseRead r 5]),
  modCroft c (fun r => { r with inJobs := [] }),
  closeAbsorbed (fun p => match p with | .slice c' _ => c' == c | _ => false),
  dropEntries (fun k => decide (16 ≤ k.link) && k.queue / 128 == c),
  eff (.queueErase (c * 128) (c * 128 + 128))])

/-- What the end of a hamlet's drain absorbs at its granary (R315, R341). -/
def absorbGranary (h : Nat) : Prog := closeAbsorbed (fun p => p == .granary h)

end Sys2Proof.Machine
end

