-- ==== Sys2Proof/Machine/Ledger.lean ====
section
/-! DEFINITION. Ledger: the digest of a granule, and the digests each gatehouse keeps (R389 to R394). -/
namespace Sys2Proof.Machine

/-- A 128-bit block times x, modulo x^128 + x^7 + x^2 + x + 1 (R390). -/
def gfDouble (a : BitVec 128) : BitVec 128 := if a.msb then (a <<< 1) ^^^ 0x87#128 else a <<< 1

/-- Product in GF(2^128), bit i of a block being the coefficient of x^i (R390). -/
def gfMul (a b : BitVec 128) : BitVec 128 :=
  ((List.range 128).foldl (fun (st : BitVec 128 × BitVec 128) i =>
    (if b.getLsbD i then st.1 ^^^ st.2 else st.1, gfDouble st.2)) (0, a)).1

/-- The value h of a granule under key H: `addr` fills bits [51:0] of b0, and the 64 bytes are b1 to b4 (R390). -/
def granuleValue (key : BitVec 128) (addr : Nat) (bs : List Byte) : BitVec 128 :=
  let piece (i : Nat) : BitVec 128 := BitVec.ofNat 128 (leNat ((bs.drop (16 * i)).take 16))
  let b0 := BitVec.ofNat 128 (addr % 2 ^ 52)
  [piece 0, piece 1, piece 2, piece 3].foldl (fun a b => gfMul a key ^^^ b) b0 |> (gfMul · key)

/-- KEY of a Ledger page (R393). -/
def State.ledgerKey (s : State) (g : Nat) : BitVec 128 :=
  (List.range 4).foldl (fun (a : BitVec 128) i =>
    a ||| BitVec.ofNat 128 ((s.reg (pgLedger g) (0x040 + 4 * i)).toNat * 2 ^ (32 * i))) 0

/-- Place of a digest: bank 0 CUR, 1 PREV; direction 0 SENT, 1 RECV. -/
def digestAt (bank dir link coll : Nat) : Nat := ((bank * 2 + dir) * 16 + link) * 256 + coll

def State.digest (s : State) (bank dir link coll : Nat) : BitVec 128 := (Sparse.get? s.dev.digests (digestAt bank dir link coll)).getD 0

/-- Granules added to a digest count towards the page's 2^20 (R394). -/
def countGranules (link dir n : Nat) : Prog := .get (fun s =>
  let g := gateOf link
  let v := (Sparse.get? s.dev.granules (g * 2 + dir)).getD 0 + n
  .all [
    modDev (fun d => { d with granules := Sparse.set d.granules (g * 2 + dir) (v % 2 ^ 20) }),
    bumpBy (pgLedger g) (if dir = 0 then R.ledger_TX_GRAN_CNT else R.ledger_RX_GRAN_CNT) (v / 2 ^ 20)])

/-- Digest the granules of a DATA flit: `addr` is the destination of its first byte (R389). -/
def digestFlit (dir link coll addr : Nat) (bs : List Byte) : Prog := .get (fun s =>
  let n := (bs.length + 63) / 64
  let key := s.ledgerKey (gateOf link)
  let sum := (List.range n).foldl (fun (a : BitVec 128) i => a + granuleValue key (addr + 64 * i) ((bs.drop (64 * i)).take 64))
    (s.digest 0 dir link coll)
  if !s.enabled (pgLedger (gateOf link)) then .done
  else .all [
    modDev (fun d => { d with digests := Sparse.set d.digests (digestAt 0 dir link coll) sum }),
    countGranules link dir n])

/-- The swap of R391: each gatehouse copies CUR to PREV and clears CUR. -/
def ledgerSwap (abandoned : Bool) : Prog := .get (fun s => .all [
  modDev (fun d => { d with
    digests := (d.digests.filter (fun e => decide (e.1 < digestAt 1 0 0 0))).map (fun e => (e.1 + digestAt 1 0 0 0, e.2)) }),
  Prog.each [0, 1] (fun g => .all [
    setReg (pgLedger g) R.ledger_PREV_STEP_INDEX.off (BitVec.ofNat 32 s.stepIndex),
    setBit (pgLedger g) R.ledger_STATUS_PREV_ABANDONED abandoned])])

/-- ENABLE on a Ledger page clears both banks of its links (R391). -/
def ledgerClear (g : Nat) : Prog := modDev (fun d => { d with
  digests := d.digests.filter (fun e => e.1 / 256 % 16 / 8 != g) })

/-- The digest SEL names on a page (R393). -/
def State.selDigest (s : State) (g : Nat) : BitVec 128 :=
  s.digest (s.fld (pgLedger g) R.ledger_SEL_BANK) (s.fld (pgLedger g) R.ledger_SEL_DIR) (8 * g + s.fld (pgLedger g) R.ledger_SEL_LINK)
    (s.fld (pgLedger g) R.ledger_SEL_COLL)

/-- LEDGER_DIGEST_READ: a read of DIGEST0 latches all 128 bits of the selected digest (R393). -/
def execLedgerDigestRead (g : Fin 2) (s : State) : Host.Outcome State Fault Refusal :=
  Prog.next (.get (fun s =>
    if s.underReset (pgLedger g.val) then .done
    else modDev (fun d => { d with latched := Sparse.set d.latched g.val (s.selDigest g.val) }))) s

end Sys2Proof.Machine
end

