-- ==== Sys2Proof/Machine/Wire.lean ====
section
/-! DEFINITION. What travels on a Quinar link: the frame and its lanes, flits, control messages and HEADs as their bits (R346, R350 to
R352, R358, R360). -/
namespace Sys2Proof.Machine

/-- A frame: its header fields and its twenty flits (R350, R351). -/
structure Frame where
  firstSeq : BitVec 32
  ackSeq : BitVec 32
  cseq : BitVec 8
  cack : BitVec 8
  nak : Bool
  cnak : Bool
  retrain : Bool
  ctrl : List Ctrl
  flits : List Flit
deriving DecidableEq, Repr

/-- Bit `i` of a number's place, set where `b` holds. -/
def bitAt (b : Bool) (i : Nat) : Nat := if b then 2 ^ i else 0

/-! ### Control messages (R358) -/

def ctrlWord : Ctrl → Nat
  | .segAck dev queue tag epoch inc seg status bucket =>
    1 + dev.toNat * 2 ^ 3 + queue.toNat * 2 ^ 17 + tag.toNat * 2 ^ 31 + epoch.toNat * 2 ^ 43 + inc.toNat * 2 ^ 47 + seg.toNat * 2 ^ 51 +
    status.toNat * 2 ^ 57 + bitAt bucket 61
  | .signal dev croft token count => 2 + dev.toNat * 2 ^ 3 + croft.val * 2 ^ 17 + token.toNat * 2 ^ 24 + count.toNat * 2 ^ 32
  | .bell body => 3 + body.toNat * 2 ^ 3
  | .none => 0
  | .reserved => 4

/-- The control message of 64 bits; its reserved bits are ignored. -/
def ctrlOf (w : Nat) : Ctrl :=
  let fld (lo n : Nat) : BitVec n := BitVec.ofNat n (bitsOf w lo n)
  match w % 8 with
  | 0 => .none
  | 1 => .segAck (fld 3 14) (fld 17 14) (fld 31 12) (fld 43 4) (fld 47 4) (fld 51 6) (fld 57 4) (bitsOf w 61 1 == 1)
  | 2 => .signal (fld 3 14) (Fin.ofNat 128 (bitsOf w 17 7)) (fld 24 8) (fld 32 16)
  | 3 => .bell (fld 3 61)
  | _ => .reserved

/-! ### HEAD flits (R360) -/

def mkindCode : MKind → Nat
  | .write => 0
  | .readReq => 1
  | .readResp => 2
  | .reserved => 3

def mkindOf : Nat → MKind
  | 0 => .write
  | 1 => .readReq
  | 2 => .readResp
  | _ => .reserved

/-- The first 48 bytes of a HEAD flit's payload. -/
def headBytes (h : Head) : List Byte :=
  toLe 4 (mkindCode h.kind + bitAt h.ledger 2 + h.coll.toNat * 2 ^ 8) ++
  toLe 4 (h.srcDev.toNat + h.dstDev.toNat * 2 ^ 16) ++
  toLe 4 (h.queue.toNat + h.tag.toNat * 2 ^ 16 + h.epoch.toNat * 2 ^ 28) ++
  toLe 4 (h.inc.toNat + h.seg.toNat * 2 ^ 4) ++
  toLe 8 h.addr.toNat ++ toLe 8 h.respAddr.toNat ++
  toLe 4 h.length.toNat ++ toLe 4 h.segBytes.toNat ++ toLe 4 h.segOffset.toNat ++
  toLe 4 (bitAt h.bucket 0)

/-- The HEAD a flit's payload holds. -/
def headOfBytes (bs : List Byte) : Head :=
  let fld (o lo n : Nat) : BitVec n := BitVec.ofNat n (bitsOf (leNat ((bs.drop o).take 8)) lo n)
  { kind := mkindOf (fld 0 0 2).toNat, ledger := fld 0 2 1 == 1, coll := fld 0 8 8,
    srcDev := fld 4 0 14, dstDev := fld 4 16 14,
    queue := fld 8 0 14, tag := fld 8 16 12, epoch := fld 8 28 4,
    inc := fld 0xC 0 4, seg := fld 0xC 4 6,
    addr := fld 0x10 0 52, respAddr := fld 0x18 0 52,
    length := fld 0x20 0 32, segBytes := fld 0x24 0 32, segOffset := fld 0x28 0 32, bucket := fld 0x2C 0 1 == 1 }

/-! ### Flits (R352) -/

/-- A list of bytes to the payload's 256, those it lacks zero. -/
def pad256 (bs : List Byte) : List Byte := (bs ++ List.replicate 256 0).take 256

/-- Numbers that name a Steward message. -/
def stewCode : StewMsg → Nat × Nat × Nat
  | .snapReq o b => (0, o, b)
  | .alarm o b a => (if a then 2 else 1, o, b)
  | .halted o b => (3, o, b)

/-- KIND of a flit. That a Steward message is DATA is the model's choice. (DESIGN CHOICE, assumption 134) -/
def payloadKind : Payload → Nat
  | .idle => 0
  | .head _ => 1
  | .data _ | .steward _ => 2
  | .reserved _ => 3

/-- The payload's 256 bytes; those of a Steward message are open. -/
def payloadBytes : Payload → List Byte
  | .idle => pad256 []
  | .head h => pad256 (headBytes h)
  | .data bs => pad256 bs
  | .steward m => pad256 (Config.stewBytes (stewCode m).1 (stewCode m).2.1 (stewCode m).2.2)
  | .reserved bs => pad256 bs

/-- The flit header. -/
def flitHeader (f : Flit) : Nat := payloadKind f.body + f.croft.val * 2 ^ 2

/-- The flit CRC, by the flit's sequence number, header and payload. -/
def flitCrc (seq hdr : Nat) (payload : List Byte) : BitVec 32 := crc32 (toLe 4 seq ++ toLe 2 hdr ++ payload)

/-- The flit of a header and a payload. -/
def flitOf (hdr : Nat) (payload : List Byte) : Flit :=
  ⟨Fin.ofNat 128 (bitsOf hdr 2 7),
   match hdr % 4 with
   | 0 => .idle
   | 1 => .head (headOfBytes payload)
   | 2 => .data payload
   | _ => .reserved payload⟩

/-! ### Frames (R350, R351) -/

/-- Bytes 0x00 to 0x23 of a frame header. -/
def Frame.fields (f : Frame) : List Byte :=
  toLe 4 f.firstSeq.toNat ++ toLe 4 f.ackSeq.toNat ++ toLe 1 f.cseq.toNat ++ toLe 1 f.cack.toNat ++
  toLe 2 (bitAt f.nak 0 + bitAt f.cnak 1 + bitAt f.retrain 2 + f.ctrl.length % 4 * 2 ^ 3) ++
  (List.range 3).flatMap (fun i => toLe 8 (match f.ctrl[i]? with | some m => ctrlWord m | none => 0))

/-- The 5,280 data bytes of a frame. -/
def Frame.data (f : Frame) : List Byte :=
  let slots := List.zip (f.flits.take 20) (List.range 20)
  slots.flatMap (fun x => payloadBytes x.1.body) ++
  f.fields ++ toLe 4 (crc32 f.fields).toNat ++
  slots.flatMap (fun x => toLe 2 (flitHeader x.1)) ++
  slots.flatMap (fun x => toLe 4 (flitCrc ((f.firstSeq.toNat + x.2) % 2 ^ 32) (flitHeader x.1) (payloadBytes x.1.body)).toNat)

/-- Data symbols of codeword `c`. -/
def codeword (data : List Byte) (c : Nat) : List Byte := (List.range 220).map (fun i => data.getD (24 * i + c) 0)

/-- The 5,376 bytes of a frame. The code's generator is not given: its parity is open. (DESIGN CHOICE, assumption 135) -/
def Frame.bytes (f : Frame) : List Byte :=
  f.data ++ (List.range 24).flatMap (fun c => toLe 4 (Config.rsParity (codeword f.data c)).toNat)

/-- The codeword of the byte at place `j` of a frame. -/
def codewordAt (j : Nat) : Nat := if j < 5280 then j % 24 else (j - 5280) / 4

/-- A frame as received: its header with whether HCRC passes, and its flits, each with whether its CRC passes. -/
structure RxFrame where
  frame : Frame
  headerOk : Bool
  ok : List Bool

/-- The frame that 5,376 bytes hold, once their codewords are decoded. -/
def frameOf (bs : List Byte) : RxFrame :=
  let hd := (bs.drop 5120).take 40
  let fld (o n : Nat) : Nat := leNat ((hd.drop o).take n)
  let first := fld 0 4
  let ctl := fld 0xA 2
  let payload (i : Nat) : List Byte := (bs.drop (256 * i)).take 256
  let hdr (i : Nat) : Nat := leNat ((bs.drop (5160 + 2 * i)).take 2)
  { frame := {
      firstSeq := BitVec.ofNat 32 first, ackSeq := BitVec.ofNat 32 (fld 4 4), cseq := BitVec.ofNat 8 (fld 8 1), cack := BitVec.ofNat 8 (fld 9 1)
      nak := bitsOf ctl 0 1 == 1, cnak := bitsOf ctl 1 1 == 1, retrain := bitsOf ctl 2 1 == 1
      ctrl := (List.range (bitsOf ctl 3 2)).map (fun i => ctrlOf (fld (0xC + 8 * i) 8))
      flits := (List.range 20).map (fun i => flitOf (hdr i) (payload i)) }
    headerOk := crc32 (hd.take 36) == BitVec.ofNat 32 (fld 0x24 4)
    ok := (List.range 20).map (fun i =>
      flitCrc ((first + i) % 2 ^ 32) (hdr i) (payload i) == BitVec.ofNat 32 (leNat ((bs.drop (5200 + 4 * i)).take 4))) }

/-! ### Lanes (R346) -/

/-- A byte's four symbols, most significant bit pair first. -/
def symbolsOfByte (b : Byte) : List (BitVec 2) := [b.extractLsb' 6 2, b.extractLsb' 4 2, b.extractLsb' 2 2, b.extractLsb' 0 2]

/-- The byte of four symbols. -/
def byteOfSymbols (l : List (BitVec 2)) : Byte := l.foldl (fun (b : Byte) x => b <<< 2 ||| x.setWidth 8) 0

/-- The symbols of each lane: byte `j` of the frame on lane `j` mod 12, in rising `j`. -/
def stripe (bs : List Byte) : List (List (BitVec 2)) :=
  (List.range 12).map (fun l => (List.range 448).flatMap (fun i => symbolsOfByte (bs.getD (12 * i + l) 0)))

/-- The bytes of a frame from the symbols of its lanes. -/
def unstripe (lanes : List (List (BitVec 2))) : List Byte :=
  (List.range 448).flatMap (fun i => (List.range 12).map (fun l => byteOfSymbols (((lanes.getD l []).drop (4 * i)).take 4)))

end Sys2Proof.Machine
end

