-- ==== Sys2Proof/Machine/Link.lean ====
section
/-! DEFINITION. The Quinar links: frames, flits in sequence, replay, retrain, link-down, messages and transit (R346 to R375). -/
namespace Sys2Proof.Machine

/-! ### Sequence numbers -/

/-- Whether an acknowledgement of `ack` covers sequence `n`: it lies behind `ack` in the window of `2 ^ (w - 1)`. -/
def covers (w ack n : Nat) : Bool :=
  let d := (ack + 2 ^ w - n % 2 ^ w) % 2 ^ w
  decide (1 ≤ d) && decide (d ≤ 2 ^ (w - 1))

/-- The sequence at or before `high` whose low `w` bits are `ack`. -/
def unwrap (w high ack : Nat) : Nat := high - (high + 2 ^ w - ack % 2 ^ w) % 2 ^ w

/-- STATE of LSTATUS (R373). -/
def State.linkState (s : State) (l : Nat) : Nat := s.fld (pgLink l) R.link_LSTATUS_STATE

def setLinkState (l v : Nat) : Prog := .all [
  setFld (pgLink l) R.link_LSTATUS_STATE v,
  .get (fun s =>
    let up := s.fld pgPort R.port_STATUS_UP
    setFld pgPort R.port_STATUS_UP (if v = 2 then up ||| 2 ^ l else up &&& (0xFFFF - 2 ^ l)))]

/-! ### Sending (R350 to R354) -/

/-- One flit slot of a frame as it is filled: the link after it, its flit, and the data first sent in it with its collective and
address where Ledger digests it (R389). -/
structure Slot where
  link : Link
  flit : Flit
  digest : Option (Nat × Nat × List Byte) := none

def idleFlit : Flit := ⟨0, .idle⟩

/-- Where the flits for the slot of sequence `n` wait: its share's, and of share 15 those of the owner whose turn it is (R284, R285). -/
def slotKeys (n : Nat) : List Nat :=
  if n % 16 = 15 then (match n / 16 % 4 with | 0 => [16] | 3 => [18, 19] | _ => [17]) else [n % 16]

/-- The places where flits of share 15 wait. -/
def asyncKeys : List Nat := [16, 17, 18, 19]

/-- Flits that wait under a key. -/
def Link.waiting (k : Link) (key : Nat) : List Flit := (Sparse.get? k.tx key).getD []

/-- Whether the message begun last under a key goes on: bytes are to come, from the flits that wait or from a segment in `going` (R359). -/
def Link.underWay (k : Link) (going : List Nat) (key : Nat) : Bool :=
  match Sparse.get? k.txHead key with
  | some (h, off) => decide (off < h.length.toNat) && (going.contains key ||
      (match k.waiting key with | { body := .data _, .. } :: _ => true | _ => false))
  | none => false

/-- Whether a flit under a key may be sent: no message of another owner of share 15 is under way (R359). -/
def Link.mayUse (k : Link) (going : List Nat) (key : Nat) : Bool :=
  decide (key < 16) || asyncKeys.all (fun o => o == key || !k.underWay going o)

/-- HEAD tracking of the flits sent under a key, and what a DATA flit adds to Ledger (R389). -/
def Link.noteSent (k : Link) (key : Nat) (f : Flit) : Link × Option (Nat × Nat × List Byte) :=
  match f.body with
  | .idle | .steward _ | .reserved _ => (k, none)
  | .head h => ({ k with txHead := Sparse.set k.txHead key (h, if h.kind = .readReq then h.length.toNat else 0) }, none)
  | .data bs =>
    match Sparse.get? k.txHead key with
    | none => (k, none)
    | some (h, off) =>
      ({ k with txHead := Sparse.set k.txHead key (h, off + bs.length) },
       if h.ledger && decide (off < h.length.toNat) then some (h.coll.toNat, h.addr.toNat + off, bs.take (h.length.toNat - off)) else none)

/-- The place whose flit the slot of sequence `n` takes. -/
def Link.slotKey (k : Link) (going : List Nat) (n : Nat) : Nat :=
  ((slotKeys n).find? (fun key => !(k.waiting key).isEmpty && k.mayUse going key)).getD ((slotKeys n).headD 0)

/-- Fill the slot of the next sequence number: a kept flit again on a replay, a new flit of its share while the buffer has room, an
IDLE flit otherwise (R352, R354). -/
def Link.fill (k : Link) (new : Bool) (going : List Nat) : Slot :=
  let n := k.next
  let key := k.slotKey going n
  if n < k.high then
    match k.replay.find? (fun e => e.seq == n) with
    | some e => { link := { k with next := n + 1 }, flit := e.item }
    | none => { link := { k with next := n + 1 }, flit := idleFlit }
  else
    let k' : Link := { k with next := n + 1, high := n + 1 }
    match k.waiting key with
    | [] => ⟨k', idleFlit, none⟩
    | f :: fs =>
      if !new || !k.mayUse going key || decide (16384 ≤ k.replay.length) then ⟨k', idleFlit, none⟩
      else
        let k'' : Link := { k' with
          tx := if fs.isEmpty then Sparse.eraseRange k.tx key (key + 1) else Sparse.set k.tx key fs
          replay := k.replay ++ [{ seq := n, item := f }] }
        let t := k''.noteSent key f
        ⟨t.1, f, t.2⟩

/-- Fill `n` slots. -/
def Link.fillSlots (new : Bool) (going : List Nat) : Nat → Link → Link × List Flit × List (Nat × Nat × List Byte)
  | 0, k => (k, [], [])
  | n + 1, k =>
    let x := k.fill new going
    let r := Link.fillSlots new going n x.link
    (r.1, x.flit :: r.2.1, (match x.digest with | some d => [d] | none => []) ++ r.2.2)

/-- The waiting control message of the source whose turn it is, or of the next in the rotation that has one (R357). The rotation's order is
the model's. (DESIGN CHOICE, assumption 137) -/
def Link.nextCtrl (k : Link) : Option (Ctrl × Link) :=
  ((List.range 4).map (fun i => (k.turn + i) % 4)).findSome? (fun src =>
    (k.ctrl.find? (fun e => e.1 == src)).map (fun e =>
      (e.2, { k with ctrl := k.ctrl.eraseP (fun x => x.1 == src), turn := (src + 1) % 4 })))

/-- Take up to `n` control messages: kept ones again on a replay, then new ones within the window of 128 (R353, R357). -/
def Link.takeCtrl (new : Bool) : Nat → Link → Link × List Ctrl
  | 0, k => (k, [])
  | n + 1, k =>
    if k.cnext < k.chigh then
      match k.creplay.find? (fun e => e.seq == k.cnext) with
      | some e =>
        let r := Link.takeCtrl new n { k with cnext := k.cnext + 1 }
        (r.1, e.item :: r.2)
      | none => Link.takeCtrl new n { k with cnext := k.cnext + 1 }
    else
      match k.nextCtrl with
      | none => (k, [])
      | some (m, k') =>
        if !new || decide (128 ≤ k.creplay.length) then (k, [])
        else
          let r := Link.takeCtrl new n { k' with
            cnext := k.cnext + 1, chigh := k.chigh + 1, creplay := k.creplay ++ [{ seq := k.cnext, item := m }] }
          (r.1, m :: r.2)

/-- Whether a NAK naming `e` may go out: not again for the same sequence within 4 µs (R353). -/
def nakAllowed (last : Option (Nat × Nat)) (e now : Nat) : Bool :=
  match last with
  | some (x, t) => x != e || decide (t + 4000 ≤ now)
  | none => true

/-- Non-idle flits of a frame. -/
def busyFlits (fs : List Flit) : Nat := (fs.filter (fun f => f.body != .idle)).length

/-- FRAME_SEND: the next frame of a link direction (R350 to R354). During a retrain it carries RETRAIN_REQ and no new flit. (DEDUCED,
assumption 23) -/
def execFrameSend (l : LinkId) (s : State) : Host.Outcome State Fault Refusal :=
  Prog.next (.get (fun s =>
    let st := s.linkState l.val
    if st ≠ 2 ∧ st ≠ 3 then .done
    else
      let k := s.link l.val
      let new := decide (st = 2)
      let first := k.next
      let going := asyncKeys.filter (fun key => s.shareBusy 16384 l.val key)
      let r := k.fillSlots new going 20
      let cfirst := match r.1.creplay with | e :: _ => max r.1.cnext e.seq | [] => r.1.chigh
      let cr := Link.takeCtrl new 3 { r.1 with cnext := cfirst }
      let nak := k.nak && nakAllowed k.lastNak k.expect s.now
      let cnak := k.cnak && nakAllowed k.clastNak k.cexpect s.now
      let n := r.1.txCount + busyFlits r.2.1
      let f : Frame := {
        firstSeq := BitVec.ofNat 32 first, ackSeq := BitVec.ofNat 32 k.expect, cseq := BitVec.ofNat 8 cfirst,
        cack := BitVec.ofNat 8 k.cexpect, nak := nak, cnak := cnak, retrain := decide (st = 3), ctrl := cr.2, flits := r.2.1 }
      .all [
        eff (.link l.val { cr.1 with
          nak := k.nak && !nak, lastNak := if nak then some (k.expect, s.now) else k.lastNak
          cnak := k.cnak && !cnak, clastNak := if cnak then some (k.cexpect, s.now) else k.clastNak
          txCount := n % 2 ^ 20 }),
        bumpBy (pgLink l.val) R.link_TX_FLIT_CNT (n / 2 ^ 20),
        Prog.each r.2.2 (fun x => digestFlit 0 l.val x.1 x.2.1 x.2.2),
        emit (.frame l.val (stripe f.bytes))])) s

/-! ### Replay (R354) -/

/-- Each flit from `n` on has been replayed once more. -/
def replayFrom {α : Type} (es : List (Sent α)) (n : Nat) : List (Sent α) :=
  es.map (fun e => if n ≤ e.seq then { e with count := e.count + 1 } else e)

/-- Whether the flit of sequence `n` has been replayed three times. -/
def worn {α : Type} (es : List (Sent α)) (n : Nat) : Bool := es.any (fun e => e.seq == n && decide (3 ≤ e.count))

/-- Watch hears of a rejection or replay of a link (R409). -/
def tellReplay : Prog := tellWatch 5

/-- Replay flits from sequence `n`, or retrain where that flit has already been replayed three times; `c` counts the replay. A NAK and a
timeout of one cycle start one replay. -/
def replayFlits (l n : Nat) (c : Fld) : Prog := .get (fun s =>
  if (s.link l).replayAt = some s.now then .done
  else if worn (s.link l).replay n then modLink l (fun k => { k with retrainDue := true })
  else .all [
    modLink l (fun k => { k with next := n, replay := replayFrom k.replay n, replayAt := some s.now }),
    bump (pgLink l) c, tellReplay])

/-- Replay control messages from sequence `n` in the same way. -/
def replayCtrl (l n : Nat) (c : Fld) : Prog := .get (fun s =>
  if (s.link l).creplayAt = some s.now then .done
  else if worn (s.link l).creplay n then modLink l (fun k => { k with retrainDue := true })
  else .all [
    modLink l (fun k => { k with cnext := n, creplay := replayFrom k.creplay n, creplayAt := some s.now }),
    bump (pgLink l) c, tellReplay])

/-- REPLAY_TIMEOUT: the oldest unacknowledged flit, or control message, has gone 4 µs without acknowledgement (R354). -/
def execReplayTimeout (l : LinkId) (ctrl : Bool) (s : State) : Host.Outcome State Fault Refusal :=
  Prog.next (.get (fun s =>
    if s.linkState l.val ≠ 2 then .done
    else if ctrl then
      match (s.link l.val).creplay with
      | [] => .done
      | e :: _ => replayCtrl l.val e.seq R.link_TIMEOUT_REPLAY_CNT
    else
      match (s.link l.val).replay with
      | [] => .done
      | e :: _ => replayFlits l.val e.seq R.link_TIMEOUT_REPLAY_CNT)) s

/-! ### Transit (R363) -/

/-- Transit entry `e`: its inbound and its outbound pair. -/
def State.transit (s : State) (e : Nat) : Option ((Nat × Nat) × (Nat × Nat)) :=
  if s.portFld R.port_TRANSIT_VALID (4 * e) = 1 then
    some ((s.portFld R.port_TRANSIT_IN_LINK (4 * e), s.portFld R.port_TRANSIT_IN_SHARE (4 * e)),
      (s.portFld R.port_TRANSIT_OUT_LINK (4 * e), s.portFld R.port_TRANSIT_OUT_SHARE (4 * e)))
  else none

/-- Where every flit that arrives on share `sh` of link `l` is sent on, if an entry maps it. -/
def State.forward (s : State) (l sh : Nat) : Option (Nat × Nat) :=
  (((List.range 64).filterMap s.transit).find? (fun e => e.1 == (l, sh))).map (·.2)

/-- Where a READ_RESP message that arrives on share `sh` of link `l` is sent back, if an entry's outbound pair is that share. -/
def State.backward (s : State) (l sh : Nat) : Option (Nat × Nat) :=
  (((List.range 64).filterMap s.transit).find? (fun e => e.2 == (l, sh))).map (·.1)

/-- Whether link `l` is down under R356. -/
def State.linkDowned (s : State) (l : Nat) : Bool := s.fld pgPort R.port_STATUS_DOWN / 2 ^ l % 2 == 1

/-- Pass a flit on in its outbound share, unless either link is down or 64 flits wait there (R356, R363). -/
def relayFlit (l : Nat) (out : Nat × Nat) (f : Flit) : Prog := .get (fun s =>
  if s.linkDowned l || s.linkDowned out.1 || decide (64 ≤ ((s.link out.1).waiting (txKey 2 out.2)).length) then
    bump pgPort R.port_TRANSIT_DROP_CNT
  else sendFlits out.1 (txKey 2 out.2) [f])

/-! ### Receiving (R353, R359 to R361) -/

/-- How the segment of a message is named at this device. -/
def headKey (h : Head) (l : Nat) : SegKey :=
  ⟨l, h.srcDev.toNat, h.queue.toNat, h.tag.toNat, h.epoch.toNat, h.inc.toNat, h.seg.toNat, h.bucket⟩

def setRx (l sh : Nat) (r : ShareRx) : Prog := modLink l (fun k => { k with rx := Sparse.set k.rx sh r })

/-- A HEAD flit accepted on share `sh` (R360 to R363). A message of the reserved MKIND is discarded. (DESIGN CHOICE, assumption 138) -/
def takeHead (l sh : Nat) (f : Flit) (h : Head) : Prog := .get (fun s =>
  let rx : ShareRx := { croft := f.croft.val, head := h }
  let relay : Option (Nat × Nat) := match s.forward l sh with
    | some out => some out
    | none => if h.kind = .readResp then s.backward l sh else none
  match relay with
  | some out => .all [setRx l sh { rx with relay := some out }, relayFlit l out f]
  | none =>
    if h.dstDev.toNat ≠ s.self then .all [setRx l sh { rx with drop := true }, bump pgPort R.port_MISROUTE_CNT]
    else
      match h.kind with
      | .readReq => .all [
          setRx l sh { rx with drop := true },
          modLink l (fun k => { k with inbox := k.inbox ++ [⟨sh, f.croft.val, h, [], s.resetAt h.addr.toNat⟩] })]
      | .readResp => setRx l sh rx
      | .reserved => setRx l sh { rx with drop := true }
      | .write =>
        if (s.entryIn (headKey h l)).isSome then setRx l sh rx
        else if 256 ≤ (s.dev.entriesIn.filter (fun e => e.key.link == l)).length then
          .all [setRx l sh { rx with drop := true }, bump pgPort R.port_REASM_FULL_CNT]
        else .all [openEntry (headKey h l) h.segBytes.toNat h.addr.toNat, setRx l sh rx])

/-- A DATA flit accepted on share `sh` belongs to the latest HEAD of the share (R359); its granules enter RECV (R389). On a mapped share it
is sent on whatever HEAD came before it (R363). -/
def takeData (l sh : Nat) (f : Flit) (bs : List Byte) : Prog := .get (fun s =>
  match Sparse.get? (s.link l).rx sh with
  | none => (match s.forward l sh with | some out => relayFlit l out f | none => .done)
  | some r =>
    let n := min 256 (r.head.length.toNat - r.passed)
    let data := (bs ++ List.replicate 256 0).take n
    let relay : Option (Nat × Nat) := match s.forward l sh with | some out => some out | none => r.relay
    .all [
      Prog.when (r.head.ledger && r.head.kind != .readReq) (digestFlit 1 l r.head.coll.toNat (r.head.addr.toNat + r.passed) data),
      setRx l sh { r with passed := r.passed + n, bytes := if r.drop || relay.isSome then [] else r.bytes ++ data },
      match relay with
      | some out => relayFlit l out f
      | none => Prog.when (!r.drop && n != 0 && r.passed + n == r.head.length.toNat)
          (modLink l (fun k => { k with inbox := k.inbox ++ [⟨sh, r.croft, r.head, r.bytes ++ data, false⟩] }))])

/-- A flit slot of a received frame: accepted in sequence, or rejected (R353). One of the reserved KIND has no effect here. (DESIGN CHOICE,
assumption 138) -/
def takeFlit (l seq : Nat) (bad : Bool) (f : Flit) : Prog := .get (fun s =>
  let k := s.link l
  let next := decide (seq % 2 ^ 32 = k.expect % 2 ^ 32)
  let go : Prog := modLink l (fun k => { k with expect := k.expect + 1, nak := false })
  let reject : Prog := modLink l (fun k => { k with nak := true })
  if bad then .all [bump (pgLink l) R.link_CRC_FAIL_CNT, tellReplay, reject]
  else
    match f.body with
    | .idle => Prog.when next go
    | body =>
      if !next then reject
      else .all [
        go,
        bumpBy (pgLink l) R.link_RX_FLIT_CNT ((k.rxCount + 1) / 2 ^ 20),
        modLink l (fun k => { k with rxCount := (k.rxCount + 1) % 2 ^ 20 }),
        match body with
        | .head h => takeHead l (seq % 16) f h
        | .data bs => takeData l (seq % 16) f bs
        | _ => (match s.forward l (seq % 16) with | some out => relayFlit l out f | none => .done)])

/-- A control message of a received frame: accepted in sequence, then delivered or sent on, or rejected (R353, R357). -/
def takeCtrlMsg (l seq : Nat) (m : Ctrl) : Prog := .get (fun s =>
  if seq % 256 ≠ (s.link l).cexpect % 256 then modLink l (fun k => { k with cnak := true })
  else .all [
    modLink l (fun k => { k with cexpect := k.cexpect + 1, cnak := false }),
    match m with
    | .bell body => modDev (fun d => { d with bells := d.bells ++ [(l, body)] })
    | .none => .done
    | m => routeCtrl 3 none m])

/-- Bytes corrected on a lane, held at 0xFFFF_FFFF (R373). -/
def countLane (l lane n : Nat) : Prog := modLink l (fun k => { k with
  laneErr := Sparse.set k.laneErr lane (min ((Sparse.get? k.laneErr lane).getD 0 + n) 0xFFFFFFFF) })

/-- What the decoder of a frame reports: each corrected codeword, each one it cannot correct, and the bytes corrected on each lane (R350, R373,
R374). -/
def countFec (l : Nat) (fixes : List Nat) (flagged : Nat) : Prog :=
  let corr := ((List.range 24).filter (fun c => fixes.any (fun j => codewordAt j == c))).length
  .all [
    bumpBy (pgLink l) R.link_FEC_CORR_CNT corr,
    Prog.each (List.range corr) (fun _ => tellWatch 4),
    bumpBy (pgLink l) R.link_FEC_UNCORR_CNT flagged,
    Prog.each ((List.range 12).filter (fun i => fixes.any (fun j => j % 12 == i))) (fun i =>
      countLane l i (fixes.filter (fun j => j % 12 == i)).length)]

/-- What a frame whose header passes its check brings (R353, R354). -/
def takeFrame (l : Nat) (x : RxFrame) : Prog := .get (fun s =>
  let f := x.frame
  .all [
    modLink l (fun k => { k with
      replay := k.replay.filter (fun e => !covers 32 f.ackSeq.toNat e.seq)
      creplay := k.creplay.filter (fun e => !covers 8 f.cack.toNat e.seq) }),
    .get (fun s => Prog.when f.nak (replayFlits l (unwrap 32 (s.link l).high f.ackSeq.toNat) R.link_NAK_REPLAY_CNT)),
    .get (fun s => Prog.when f.cnak (replayCtrl l (unwrap 8 (s.link l).chigh f.cack.toNat) R.link_NAK_REPLAY_CNT)),
    Prog.when (f.retrain && decide (s.linkState l = 2)) (modLink l (fun k => { k with retrainDue := true })),
    Prog.each (List.zip f.ctrl (List.range 3)) (fun m => takeCtrlMsg l (f.cseq.toNat + m.2) m.1),
    Prog.each (List.zip (List.zip f.flits x.ok) (List.range 20)) (fun m => takeFlit l (f.firstSeq.toNat + m.2) (!m.1.2) m.1.1)])

/-- The frame of received symbols, with the bytes its codewords correct. -/
def received (lanes : List (List (BitVec 2))) (fixes : List (Fin 5376 × Byte)) : RxFrame :=
  frameOf (fixes.foldl (fun bs x => bs.set x.1.val x.2) (unstripe lanes))

/-- FRAME_RECEIVE: a frame's corrections, acknowledgements, requests, control messages and flits (R350 to R354). (DEDUCED, assumption 48) -/
def execFrameReceive (l : LinkId) (a b c d : List (List (BitVec 2))) (fixes : List (Fin 5376 × Byte)) (flagged : List (Fin 24))
    (s : State) : Host.Outcome State Fault Refusal :=
  Prog.next (.get (fun s =>
    let x := received (a ++ b ++ c ++ d) fixes
    if s.linkState l.val ≠ 2 ∧ s.linkState l.val ≠ 3 then .done
    else .all [
      countFec l.val (fixes.map (fun x => x.1.val)) flagged.length,
      if x.headerOk then takeFrame l.val x
      else .all [
        bump (pgLink l.val) R.link_HCRC_FAIL_CNT, tellReplay,
        modLink l.val (fun k => { k with nak := true, cnak := true })]])) s

/-! ### Retrain and link-down (R354 to R356) -/

/-- Segments of this device's queues that are outstanding on link `l` complete with LINK_DOWN (R356). -/
def failSegments (l : Nat) : Prog := .get (fun s =>
  Prog.each s.queues (fun e => Prog.each e.2.xfers (fun x => Prog.each (List.range x.segs.length) (fun k =>
    match x.segs[k]? with
    | some g => Prog.when (g.res.isNone && g.link == l) (completeSeg e.1 x.idx k 7)
    | none => .done))))

/-- Where the flits of the transit entries of link `l` wait: with the link as the outbound one, and as the inbound one of READ_RESPs. -/
def State.transitPairs (s : State) (l : Nat) : List (Nat × Nat) :=
  (((List.range 64).filterMap s.transit).filter (fun e => e.1.1 == l || e.2.1 == l)).flatMap (fun e => [e.2, e.1])

/-- The flits of the transit entries of link `l` that wait are discarded and counted (R356). -/
def dropTransit (l : Nat) : Prog := .get (fun s =>
  Prog.each (s.transitPairs l) (fun out => .get (fun t => .all [
    bumpBy pgPort R.port_TRANSIT_DROP_CNT ((t.link out.1).waiting (txKey 2 out.2)).length,
    modLink out.1 (fun k => { k with tx := Sparse.eraseRange k.tx (txKey 2 out.2) (txKey 2 out.2 + 1) })])))

/-- A link-down plan fault (R356, R375). -/
def linkDown (l cause : Nat) : Prog := .get (fun s => .all [
  failSegments l,
  dropTransit l,
  bumpBy pgPort R.port_CTRL_DROP_CNT ((s.link l).ctrl.length + (s.link l).creplay.length),
  modLink l (fun k => { k with tx := [], replay := [], ctrl := [], creplay := [], rx := [], txHead := [], retrainDue := false }),
  setLinkState l 4,
  setFld pgPort R.port_STATUS_DOWN (s.fld pgPort R.port_STATUS_DOWN ||| 2 ^ l),
  setFld (pgLink l) R.link_LAST_DOWN_CAUSE cause,
  bump (pgLink l) R.link_DOWN_CNT,
  pageFault (pgLink l) cause 0,
  raiseLine (pgLink l),
  tellWatch 7,
  raiseAlarm false,
  bellLinkDown l,
  Prog.when (s.enabled pgBucket && (s.portLinks (s.fld pgBucket R.bucket_CFG_PARTNER_PORT)).contains l) (snapFail 2 0)])

/-- A retrain starts (R355). -/
def startRetrain (l : Nat) : Prog := .get (fun s => .all [
  modLink l (fun k => { k with retrainDue := false, wasDown := decide (s.linkState l = 4) }),
  setLinkState l 3,
  bump (pgLink l) R.link_RETRAIN_CNT,
  tellWatch 6])

/-- RETRAIN_START: a fourth failure of one flit or message, or the far end's request, retrains an up link (R354, R355). -/
def execRetrainStart (l : LinkId) (s : State) : Host.Outcome State Fault Refusal :=
  Prog.next (.get (fun s => Prog.when ((s.link l.val).retrainDue && s.linkState l.val == 2) (startRetrain l.val))) s

/-- A retrain by command, from the up or down state (R373). -/
def linkRetrain (l : Nat) : Prog := .get (fun s =>
  if s.linkState l == 2 || s.linkState l == 4 then startRetrain l else ignored (pgLink l))

/-- LINK_RETRAIN: `LINK.CMD` OP 1 (R373). -/
def execLinkRetrain (l : LinkId) (s : State) : Host.Outcome State Fault Refusal :=
  Prog.next (regWrite .host (pgLink l.val) R.link_CMD_OP.off (linkRetrain l.val)) s

/-- A take-down by command, on an up link (R373). -/
def linkTakeDown (l : Nat) : Prog := .get (fun s => if s.linkState l == 2 then linkDown l 4 else ignored (pgLink l))

/-- LINK_TAKE_DOWN: `LINK.CMD` OP 2 (R373). -/
def execLinkTakeDown (l : LinkId) (s : State) : Host.Outcome State Fault Refusal :=
  Prog.next (regWrite .host (pgLink l.val) R.link_CMD_OP.off (linkTakeDown l.val)) s

/-- RETRAIN_TIMEOUT: a retrain not up by 40 µs, or a full training that failed or was not done within 150 ms (R355, R356). -/
def execRetrainTimeout (l : LinkId) (s : State) : Host.Outcome State Fault Refusal :=
  Prog.next (.get (fun s =>
    match s.linkState l.val with
    | 1 => linkDown l.val 3
    | 3 => linkDown l.val 1
    | _ => .done)) s

/-- LINK_UP: training ends and the identities are exchanged. A retrain that meets another far end fails; otherwise the link is up and
each end replays from the far end's last ACK_SEQ and CACK (R355, R373). (DEDUCED, assumption 145) -/
def execLinkUp (l : LinkId) (dev : BitVec 14) (far : LinkId) (vidx : BitVec 4) (reversed : Bool) (polarity : BitVec 12)
    (ack : BitVec 32) (cack : BitVec 8) (s : State) : Host.Outcome State Fault Refusal :=
  Prog.next (.get (fun s =>
    let p := pgLink l.val
    let same := s.fld p R.link_FAR_ID_FAR_DEV == dev.toNat && s.fld p R.link_FAR_ID_FAR_LINK == far.val &&
      s.fld p R.link_FAR_ID_FAR_VIDX == vidx.toNat
    let meet : Prog := .all [
      setFld p R.link_FAR_ID_FAR_DEV dev.toNat, setFld p R.link_FAR_ID_FAR_LINK far.val,
      setFld p R.link_FAR_ID_FAR_VIDX vidx.toNat, setFld p R.link_FAR_ID_VALID 1]
    let show' : Prog := .all [
      setBit p R.link_LSTATUS_REVERSED reversed, setFld p R.link_LSTATUS_POLARITY polarity.toNat, setLinkState l.val 2]
    match s.linkState l.val with
    | 1 => .all [
        meet,
        show', setFld p R.STATE_STATE stEnabled, setReg p R.REFUSAL_REASON.off 0]
    | 3 =>
      if s.bit p R.link_FAR_ID_VALID && !same then linkDown l.val 2
      else .all [
        meet,
        show',
        Prog.when (s.link l.val).wasDown (.all [
          setFld pgPort R.port_STATUS_DOWN (s.fld pgPort R.port_STATUS_DOWN &&& (0xFFFF - 2 ^ l.val)),
          Prog.when (s.bit p R.CTL_ENABLE) (setFld p R.STATE_STATE stEnabled)]),
        modLink l.val (fun k => { k with
          wasDown := false
          replay := (k.replay.filter (fun e => !covers 32 ack.toNat e.seq)).map (fun e => { e with count := 0 })
          creplay := (k.creplay.filter (fun e => !covers 8 cack.toNat e.seq)).map (fun e => { e with count := 0 })
          next := unwrap 32 k.high ack.toNat, cnext := unwrap 8 k.chigh cack.toNat
          chigh := if k.creplay.all (fun e => covers 8 cack.toNat e.seq) then unwrap 8 k.chigh cack.toNat else k.chigh
          nak := false, lastNak := none, cnak := false, clastNak := none })]
    | _ => .done)) s

/-! ### Messages for this device (R361, R362) -/

/-- The `k`-th message of link `l` that waits, if it is of the kind and none of its share waits before it (R367). -/
def State.message (s : State) (l k : Nat) (kind : MKind) : Option RxMsg :=
  let box := (s.link l).inbox
  match box[k]? with
  | some m => if m.head.kind = kind ∧ !(box.take k).any (fun x => x.share == m.share) then some m else none
  | none => none

def takeMessage (l k : Nat) : Prog := modLink l (fun r => { r with inbox := r.inbox.eraseIdx k })

/-- Bytes in parts of 256 from an address on. -/
def partsOf (a : Nat) (bs : List Byte) : List (Nat × List Byte) :=
  (List.range ((bs.length + 255) / 256)).map (fun i => (a + 256 * i, (bs.drop (256 * i)).take 256))

/-- Whether the granary has a share by which traffic of other dies enters (R312). -/
def State.granPort (s : State) (h : Nat) : Bool :=
  (List.range 15).any (fun x => s.fld (pgGran h) (R.granary_SHARE_KIND.plus (4 * x)) == 2)

/-- Whether a message of share `via` for local address `a`, one that is not `refused`, waits: for an earlier one of the share whose bytes
wait elsewhere (R367), or for a granary that does not serve, or that gives other dies' traffic no share (R312, R315). -/
def State.placeWaits (s : State) (key : SegKey) (via a : Nat) (refused : Bool) : Bool :=
  let elsewhere (c : Nat) : Bool := s.crofts.any (fun e => e.1 != c && e.2.inJobs.any (fun j =>
    match j with | .write _ _ _ v _ => v == some via | _ => false))
  match placeOf a with
  | .slice c _ => elsewhere c
  | .granary h => elsewhere 128 || (!s.granAbsorbs h (s.begun key) && !refused && (!s.granServes h || !s.granPort h))
  | .unmapped => false

/-- Whether a write of sluice traffic to `n` bytes at granary address `a` is refused (R415, R497). -/
def State.keptFrom (s : State) (a n : Nat) : Bool := touchesBoot a n || s.bucketKeeps a n

/-- Incoming bytes of an open segment for local address `a`, by share `via`: to a slice through IN cycles, to a granary at once, or refused
(R317, R333, R361, R415, R497). -/
def placeBytes (key : SegKey) (via dev croft a : Nat) (bs : List Byte) : Prog := .get (fun s =>
  let n := bs.length
  let mine := if dev = s.self then some (Fin.ofNat 16384 key.queue) else none
  match placeOf a, placeOf (a + n - 1) with
  | .slice c o, .slice c' _ =>
    if c = c' then Prog.each (partsOf o bs) (fun p => postWrite c dev croft key (some via) [p]) else account key n 3
  | .granary h, .granary _ =>
    if s.granAbsorbs h (s.begun key) then account key n 5
    else if touchesBoot a n then account key n 1
    else if s.bucketKeeps a n then .all [bump pgBucket R.bucket_REFUSE_CNT, account key n 1]
    else writeParts (.incoming mine) key [(a, bs)]
  | _, _ => account key n 3)

/-- The inbound link and share of a message, as one number. -/
def RxMsg.via (m : RxMsg) (l : Nat) : Nat := l * 16 + m.share

/-- A WRITE message of sluice traffic is written (R361). -/
def recvWrite (l : Nat) (m : RxMsg) : Prog :=
  placeBytes (headKey m.head l) (m.via l) m.head.srcDev.toNat m.croft m.head.addr.toNat m.bytes

/-- READ_REQ: served from the memory at ADDR and returned as one READ_RESP, or refused with a SEG_ACK (R362). One that came before a reset's
request is served until the drain ends (R341). -/
def execReadReq (l : LinkId) (k : Nat) (s : State) : Host.Outcome State Fault Refusal :=
  Prog.next (.get (fun s =>
    match s.message l.val k .readReq with
    | none => .done
    | some m =>
      let h := m.head
      let a := h.addr.toNat
      let n := h.length.toNat
      let take := takeMessage l.val k
      if s.portFld R.port_RESP_SHARES (4 * l.val) / 2 ^ m.share % 2 = 0 then
        .all [take, bump pgPort R.port_RESP_REFUSE_CNT, refuseRead h 1]
      else
        match placeOf a, placeOf (a + n - 1) with
        | .slice c _, .slice c' _ =>
          if c ≠ c' then .all [take, refuseRead h 3]
          else if s.croftUnderReset c && (m.late || s.drained c) then .all [take, countAbsorbed a, refuseRead h 5]
          else .all [take, modCroft c (fun r => { r with inJobs := r.inJobs ++ [.serve l.val m.share m.croft h []] })]
        | .granary g, .granary _ =>
          if s.granAbsorbs g (!m.late) then .all [take, countAbsorbed a, refuseRead h 5]
          else if !s.granServes g || !s.granPort g then .done
          else .all [
            take,
            readBy (some (.incoming none)) a n,
            .get (fun s => if s.deadAt a n then refuseRead h 2 else sendResp l.val m.share m.croft h (s.bytes a n))]
        | _, _ => .all [take, refuseRead h 3])) s

/-- READ_RESP: the data is written at the requester, unless its queue's epoch or its croft's incarnation has changed (R338, R340,
R362). -/
def execReadResp (l : LinkId) (k : Nat) (s : State) : Host.Outcome State Fault Refusal :=
  Prog.next (.get (fun s =>
    match s.message l.val k .readResp with
    | none => .done
    | some m =>
      let h := m.head
      let q := h.queue.toNat
      let c := qCroft q
      let key : SegKey := { headKey h 17 with dev := s.self }
      let via := m.via l.val
      if h.inc.toNat ≠ s.inc c ∨ h.epoch.toNat ≠ (s.queue q).epoch then
        .all [takeMessage l.val k, bump (pgSluice c) R.sluice_STALE_CNT]
      else if s.placeWaits key via h.addr.toNat (s.keptFrom h.addr.toNat m.bytes.length) then .done
      else .all [
        takeMessage l.val k,
        openEntry key h.segBytes.toNat h.addr.toNat,
        placeBytes key via s.self c h.addr.toNat m.bytes])) s

/-- REASM_TIMEOUT: the `k`-th open entry of the link has received nothing for 3 ms and is closed without a reply (R361). -/
def execReasmTimeout (l : LinkId) (k : Nat) (s : State) : Host.Outcome State Fault Refusal :=
  Prog.next (.get (fun s =>
    match (s.dev.entriesIn.filter (fun e => e.key.link == l.val))[k]? with
    | some e => modDev (fun d => { d with entriesIn := d.entriesIn.filter (fun x => x.key != e.key) })
    | none => .done)) s

end Sys2Proof.Machine
end

