-- ==== Sys2Proof/Machine/Bell.lean ====
section
/-! DEFINITION. The Bell: exchanges with parents and followers, its outputs and its reads (R395 to R408), and the loss of a Quinar
reference clock (R557). -/
namespace Sys2Proof.Machine

/-- A Bell message as its 61 bits decode (R399). -/
structure BellMsg where
  dev : Nat
  op : Nat
  seq : Nat
  t : Nat
  plock : Bool
deriving DecidableEq, Repr

def bellMsg (b : BitVec 61) : BellMsg :=
  let v := b.toNat
  ⟨bitsOf v 0 14, bitsOf v 14 2, bitsOf v 16 4, bitsOf v 20 40, bitsOf v 60 1 = 1⟩

/-- Send a Bell message to the far device of link `l` (R399). -/
def sendBell (l op seq t : Nat) : Prog := .get (fun s =>
  let st := s.bellState
  let v := s.fld (pgLink l) R.link_FAR_ID_FAR_DEV + op * 2 ^ 14 + seq % 16 * 2 ^ 16 + t % 2 ^ 40 * 2 ^ 20 +
    (if st = bRoot ∨ st = bLocked then 2 ^ 60 else 0)
  modLink l (fun k => { k with ctrl := k.ctrl ++ [(2, .bell (BitVec.ofNat 61 v))] }))

/-- The value nearest `own` whose low 40 bits are `t` (R399). -/
def rebuild (own t : Nat) : Int :=
  let d : Int := ((t + 2 ^ 40 - own % 2 ^ 40) % 2 ^ 40 : Nat)
  (own : Int) + (if d < 2 ^ 39 then d else d - 2 ^ 40)

/-- The Bell messages of an operation: the `k`-th that waits, with its link, taken from the list and handed to `f`; one for another
device is discarded and counted (R399). -/
def takeBell (k op : Nat) (f : Nat → BellMsg → Prog) : Prog := .get (fun s =>
  match s.dev.bells[k]? with
  | none => .done
  | some (l, b) =>
    let m := bellMsg b
    if m.op ≠ op then .done
    else .all [
      modDev (fun d => { d with bells := d.bells.eraseIdx k }),
      if m.dev ≠ s.self then bump pgBell R.bell_MSG_DROP_CNT else f l m])

/-- Whether the Bell sends SYNC: ROOT, LOCKED or HOLDOVER (R398). -/
def State.bellSends (s : State) : Bool := s.bellState == bRoot || s.bellState == bLocked || s.bellState == bHoldover

/-- A COARSE message on link `l`: bits [63:24] of the count (R399). -/
def sendCoarse (l seq : Nat) : Prog := .get (fun s => .all [
  sendBell l 3 seq (s.bellNow / 2 ^ 24),
  modSync (fun b => { b with coarse := if b.coarse.contains l then b.coarse else b.coarse ++ [l] })])

/-- BELL_PERIOD: a SYNC on every link that is up, and a COARSE in every 64th period (R398, R399). The send point lies `ahead` of the
present in 1/16 ns. -/
def execBellPeriod (ahead : Nat) (s : State) : Host.Outcome State Fault Refusal :=
  Prog.next (.get (fun s =>
    if !s.bellSends then .done
    else
      let b := s.dev.bellSync
      .all [
        Prog.each ((List.range 16).filter (fun l => s.linkUp l)) (fun l =>
          let seq := ((Sparse.get? b.sent l).getD 15 + 1) % 16
          .all [
            modSync (fun b => { b with sent := Sparse.set b.sent l seq }),
            sendBell l 0 seq (s.fine + ahead),
            Prog.when ((b.periods + 1) % 64 == 0) (sendCoarse l seq)]),
        modSync (fun b => { b with periods := b.periods + 1 })])) s

/-- Whether a follower completes exchanges on link `l`: the one it uses, and its parent's while on the alternate (R398). -/
def State.bellHears (s : State) (l : Nat) : Bool :=
  s.bellFollows && (l == s.bellLink || (s.bit pgBell R.bell_STATUS_ON_ALT && l == s.fld pgBell R.bell_CFG_PARENT_LINK))

/-- SYNC: a follower records t1 and t2 and returns a DELAY_REQ at t3 (R398, R400). `ago` and `ahead` place the receive and the send point
from the present, in 1/16 ns. -/
def execSync (k ago ahead : Nat) (s : State) : Host.Outcome State Fault Refusal :=
  Prog.next (takeBell k 0 (fun l m => .get (fun s =>
    if !s.bellHears l then .done
    else
      let t2 := s.fine - ago
      let t3 := s.fine + ahead
      .all [
        modSync (fun b => { b with
          opened := b.opened.filter (fun e => e.link != l) ++ [⟨l, m.seq, rebuild t2 m.t, t2, t3, m.plock⟩] }),
        sendBell l 1 m.seq t3]))) s

/-- DELAY_REQ: the parent answers with its time of arrival, and with a COARSE to a device that has had none (R399, R400). -/
def execDelayReq (k ago : Nat) (s : State) : Host.Outcome State Fault Refusal :=
  Prog.next (takeBell k 1 (fun l m => .get (fun s =>
    if !s.bellSends || Sparse.get? s.dev.bellSync.sent l != some m.seq then bump pgBell R.bell_MSG_DROP_CNT
    else .all [
      Prog.when (!s.dev.bellSync.coarse.contains l) (sendCoarse l m.seq),
      sendBell l 2 m.seq (s.fine - ago)]))) s

/-- Half of a difference in 1/16 ns; which way an odd one is rounded is open. -/
def halved (s : State) (x : Int) : Int := x.ediv 2 + (if x.emod 2 = 1 then (Config.openBit s.seq % 2 : Nat) else 0)

/-- An offset taken from the count, in 10^-9 ns. -/
def State.countLess (s : State) (offset : Int) : Nat := ((s.dev.bell : Int) - offset * 62500000).toNat

/-- The rate correction of a follower: towards removing the offset, by an amount up to 500 ppm that the manual leaves open (R395,
R400). (DESIGN CHOICE, assumption 51) -/
def steer (offset : Int) : Prog := .get (fun s =>
  let n := (Config.openWord s.seq).toNat % 500001
  .all [
    setFld pgBell R.bell_FREQ_ADJ (if offset = 0 then 0 else if 0 < offset then (2 ^ 20 - n) % 2 ^ 20 else n),
    eff .seq])

/-- STATE after an exchange on the link in use (R401). -/
def bellExchange (offset : Int) (plock : Bool) : Prog := .get (fun s =>
  let a := offset.natAbs
  if s.bellState = bAcquiring then
    let good := if a ≤ 32 ∧ plock then s.dev.bellSync.good + 1 else 0
    .all [
      bellStep (s.countLess offset),
      modSync (fun b => { b with good := good }),
      Prog.when (decide (16 ≤ good)) (bellGo bLocked)]
  else if s.bellState = bHoldover then bellGo (if a ≤ 16000 then bLocked else bAcquiring)
  else .done)

/-- DELAY_RESP: the follower forms offset and delay, steers its rate and moves its STATE; on the parent link while on the alternate it
counts towards the return (R398, R400, R401). -/
def execDelayResp (k : Nat) (s : State) : Host.Outcome State Fault Refusal :=
  Prog.next (takeBell k 2 (fun l m => .get (fun s =>
    match s.dev.bellSync.opened.find? (fun e => e.link == l && e.seq == m.seq) with
    | none => bump pgBell R.bell_MSG_DROP_CNT
    | some e =>
      let t4 := rebuild s.fine m.t
      let offset := halved s ((e.t2 - e.t1) - (t4 - e.t3))
      let delay := halved s ((e.t2 - e.t1) + (t4 - e.t3))
      .all [
        modSync (fun b => { b with opened := b.opened.filter (fun x => x.link != l) }),
        bump pgBell R.bell_EXCH_CNT,
        setReg pgBell R.bell_OFFSET.off (BitVec.ofInt 32 offset),
        setReg pgBell R.bell_DELAY.off (BitVec.ofInt 32 delay),
        eff .seq,
        if l = s.bellLink then .all [
          modSync (fun b => { b with misses := 0, at' := s.now }),
          steer offset,
          bellExchange offset (e.plock && m.plock)]
        else if 15 ≤ s.dev.bellSync.back then .all [
          modSync (fun b => { b with back := 0, misses := 0 }),
          setFld pgBell R.bell_STATUS_ON_ALT 0,
          bump pgBell R.bell_LINK_SWITCH_CNT]
        else modSync (fun b => { b with back := b.back + 1 })]))) s

/-- COARSE: an acquiring device sets its upper count bits, where the count may step; one of no open exchange is discarded (R395, R399). -/
def execCoarse (k : Nat) (s : State) : Host.Outcome State Fault Refusal :=
  Prog.next (takeBell k 3 (fun l m => .get (fun s =>
    if !s.dev.bellSync.opened.any (fun e => e.link == l && e.seq == m.seq) then bump pgBell R.bell_MSG_DROP_CNT
    else Prog.when (l == s.bellLink && s.bellState == bAcquiring)
      (bellStep ((m.t * 2 ^ 24 + s.bellNow % 2 ^ 24) * 10 ^ 9 + s.dev.bell % 10 ^ 9))))) s

/-- BELL_EXCHANGE_MISS: an exchange on link `l` is not complete within PERIOD; eight in a row on the link in use lose it (R400). -/
def execBellExchangeMiss (l : LinkId) (s : State) : Host.Outcome State Fault Refusal :=
  Prog.next (.get (fun s =>
    if !s.bellHears l.val then .done
    else .all [
      bump pgBell R.bell_MISS_CNT,
      modSync (fun b => { b with opened := b.opened.filter (fun e => e.link != l.val) }),
      if l.val = s.bellLink then
        if 7 ≤ s.dev.bellSync.misses then bellLost else modSync (fun b => { b with misses := b.misses + 1 })
      else modSync (fun b => { b with back := 0 })])) s

/-- BELL_COPY_CHECK: G0 compares the G1 copy with its count; `diff` is the difference in 1/16 ns (R396). -/
def execBellCopyCheck (diff : Nat) (s : State) : Host.Outcome State Fault Refusal :=
  Prog.next (Prog.when (decide (32 < diff)) (bellFault 2)) s

/-- HOLDOVER_LIMIT: HOLDOVER has lasted more than 1 s (R401). -/
def execHoldoverLimit (s : State) : Host.Outcome State Fault Refusal :=
  Prog.next (.get (fun s => Prog.when (s.bellState == bHoldover) (bellFault 1))) s

/-- Whether an output of the Bell is driven (R404). -/
def State.bellDrives (s : State) (f : Fld) : Bool := s.bit pgBell f && s.bellSends

/-- The levels of BELL_PPS and BELL_REF (R404). -/
def State.ppsHigh (s : State) : Bool :=
  s.bellDrives R.bell_OUTCFG_PPS_EN && decide (s.bellNow % 10 ^ 9 < s.fld pgBell R.bell_OUTCFG_PPS_WIDTH * 10 ^ 6)
def State.refHigh (s : State) : Bool := s.bellDrives R.bell_OUTCFG_REF_EN && decide (s.bellNow % 100 < 50)

/-- BELL_PPS rises where it is driven; its second is the one a BELL_TOD word names (R404, R405). -/
def execBellPps (s : State) : Host.Outcome State Fault Refusal :=
  Prog.next (.get (fun s => Prog.when s.bellSends (.all [
    modSync (fun b => { b with seconds := s.bellNow / 10 ^ 9 }),
    Prog.when (s.bellDrives R.bell_OUTCFG_PPS_EN) (emit (.pps (s.bellNow / 10 ^ 9)))]))) s

/-- One bit of the CRC-8 with polynomial x^8 + x^2 + x + 1 (R405). -/
def crc8Bit (c : BitVec 8) (b : Bool) : BitVec 8 := if c.msb != b then (c <<< 1) ^^^ 0x07#8 else c <<< 1

/-- The time-of-day word (R405). -/
def todWord (seconds st acc seq : Nat) : BitVec 96 :=
  let v := 0x5AA5 + seconds % 2 ^ 48 * 2 ^ 16 + st % 8 * 2 ^ 64 + acc % 256 * 2 ^ 72 + seq % 256 * 2 ^ 80
  let crc := (List.range 88).foldl (fun c i => crc8Bit c (v / 2 ^ i % 2 == 1)) 0
  BitVec.ofNat 96 (v + crc.toNat * 2 ^ 88)

/-- BELL_TOD: the word of the BELL_PPS edge just sent (R405). -/
def execBellTod (s : State) : Host.Outcome State Fault Refusal :=
  Prog.next (.get (fun s =>
    let b := s.dev.bellSync
    Prog.when (s.bellDrives R.bell_OUTCFG_TOD_EN) (.all [
      emit (.tod (todWord b.seconds s.bellState s.bellAccuracy b.todSeq)),
      modSync (fun b => { b with todSeq := (b.todSeq + 1) % 256 })]))) s

/-- BELL_NOW_READ: a read of NOW_LO latches the upper half of the count (R406). -/
def execBellNowRead (s : State) : Host.Outcome State Fault Refusal :=
  Prog.next (.get (fun s =>
    Prog.when (!s.underReset pgBell) (setReg pgBell R.bell_NOW_HI.off (BitVec.ofNat 32 (s.bellNow / 2 ^ 32))))) s

/-- ENABLE accepted on the Bell page: a root loads its starting count, a follower begins to acquire (R395, R398, R401). -/
def bellEnabled : Prog := .get (fun s =>
  if s.fld pgBell R.bell_CFG_ROLE = 1 then .all [
    bellStep (((s.reg pgBell R.bell_SET_LO.off).toNat + (s.reg pgBell R.bell_SET_HI.off).toNat * 2 ^ 32) * 10 ^ 9),
    bellGo bRoot]
  else bellGo bAcquiring)

/-- ENABLE cleared on the Bell page (R401). -/
def bellDisabled : Prog := .all [bellGo bFree, setFld pgBell R.bell_STATUS_ON_ALT 0, modSync (fun b => { b with opened := [], misses := 0, back := 0 })]

/-- QREF_LOSS: a gatehouse's reference clock stops or leaves its frequency: every link of it is taken down, and with QREF0 the Bell enters
HOLDOVER (R557). -/
def execQrefLoss (g : Fin 2) (s : State) : Host.Outcome State Fault Refusal :=
  Prog.next (.get (fun s => .all [
    Prog.each ((List.range 8).map (8 * g.val + ·)) (fun l => Prog.whenever (fun s => s.linkState l != 0 && s.linkState l != 4) (linkDown l 5)),
    Prog.when (g.val == 0 && s.bellState != bFree) (bellGo bHoldover)])) s

end Sys2Proof.Machine
end

