-- ==== Sys2Proof/Machine/Granary.lean ====
section
/-! DEFINITION. Faults of the granary controllers and the readouts that raise them (R310, R313, R322). -/
namespace Sys2Proof.Machine

/-- Whether a transfer in progress has a segment under way that reads or writes the granary of hamlet `h` of this device (R322). -/
def State.usesGranary (s : State) (x : Xfer) (h : Nat) : Bool :=
  let d := x.desc
  (List.zip x.segs (List.range x.segs.length)).any (fun g =>
    let p := g.2 * d.segSize + min g.1.moved (g.1.size - 1)
    g.1.res.isNone && (g.1.moved != 0 || g.1.asked) &&
    ((d.kind != 2 && s.srcDest d == .here && placeOf (d.srcAddr p) == .granary h) ||
     (s.dstDest d == .here && placeOf (d.dstAddr p) == .granary h)))

/-- Whether croft `c` has a granary request outstanding. -/
def State.granWaits (s : State) (c h : Nat) : Bool :=
  s.queues.any (fun e => decide (e.1 / 128 = c) && e.2.xfers.any (fun x => s.usesGranary x h))

/-- A controller fault (R322): the page reads FAULT and every croft of the hamlet with a granary request outstanding halts. -/
def granFault (h cause addr : Nat) : Prog := .get (fun s => .all [
  pageFault (pgGran h) cause addr,
  raiseLine (pgGran h),
  Prog.each ((List.range 16).map (h * 16 + ·)) (fun c => Prog.when (s.granWaits c h) (.all [haltReq c 3, stepEnds]))])

/-- WRITE_PARITY_REPORT: the write is repeated; a second report for it is a controller fault (R310, R322). -/
def execWriteParityReport (h : HamletId) (g : Fin 1073741824) (s : State) : Host.Outcome State Fault Refusal :=
  Prog.next (.get (fun s =>
    let k := granuleOf h g.val
    if !s.granServes h.val then .done
    else if s.dev.writeRetries.contains k then .all [
      modDev (fun d => { d with writeRetries := d.writeRetries.filter (· != k) }),
      granFault h.val 4 (g.val * 64)]
    else modDev (fun d => { d with writeRetries := d.writeRetries ++ [k] }))) s

/-- GRANARY_TEMP_READOUT: the temperature is written, refresh doubles from 85 °C and returns below 83 °C, and HOT is set at its
limit; two failed attempts in a row are a controller fault (R313, R322). (DEDUCED, assumption 43) -/
def execGranaryTempReadout (h : HamletId) (t : Option Byte) (s : State) : Host.Outcome State Fault Refusal :=
  Prog.next (.get (fun s =>
    let p := pgGran h.val
    if !s.granServes h.val then .done
    else
      match t with
      | none =>
        let n := (Sparse.get? s.dev.tempFails h.val).getD 0
        if 1 ≤ n then granFault h.val 3 0
        else modDev (fun d => { d with tempFails := Sparse.set d.tempFails h.val (n + 1) })
      | some t => .all [
          modDev (fun d => { d with tempFails := Sparse.eraseRange d.tempFails h.val (h.val + 1) }),
          setFld p R.granary_THERM_TEMP t.toNat,
          Prog.when (decide (85 ≤ t.toNat)) (setFld p R.granary_STATUS_REFRESH_2X 1),
          Prog.when (decide (t.toNat < 83)) (setFld p R.granary_STATUS_REFRESH_2X 0),
          Prog.when (decide (s.fld p R.granary_THERM_HOT_LIMIT ≤ t.toNat)) (.all [
            setFld p R.granary_STATUS_HOT 1, raiseLine p, tellWatchOpen])])) s

/-- GRANARY_CMD_TIMEOUT: a command is not complete within 2 µs (R322). -/
def execGranaryCmdTimeout (h : HamletId) (a : Fin 68719476736) (s : State) : Host.Outcome State Fault Refusal :=
  Prog.next (.get (fun s => Prog.when (s.granServes h.val) (granFault h.val 2 a.val))) s

end Sys2Proof.Machine
end

