-- ==== Sys2Proof/Machine/Watch.lean ====
section
/-! DEFINITION. Watch: its inputs, score and requests (R409 to R411), Steward messages and the end of a step (R417, R424, R562), and the
faults it records (R430 to R432). -/
namespace Sys2Proof.Machine

/-! ### Requests (R411, R417) -/

/-- A snapshot at boundary `b` is asked for: the pending boundary rises, and the request is flooded (R417). -/
def askSnapshot (b : Nat) : Prog := .get (fun s => .all [
  Prog.when (s.enabled pgBucket) (modDev (fun d => { d with pendingB := some (max (d.pendingB.getD 0) b) })),
  flood (.snapReq s.self b) none])

/-- A risk request names the boundary after the next, unless the last snapshot is too near (R411). -/
def riskRequest : Prog := .get (fun s =>
  let b := s.stepIndex + 2
  .all [
    bump pgWatch R.watch_REQ_CNT,
    if b - s.fld pgBucket R.bucket_B_LAST < s.fld pgWatch R.watch_CFG_MIN_GAP then bump pgWatch R.watch_GAP_DROP_CNT
    else askSnapshot b])

/-- Watch's part in a step boundary (R411). -/
def watchBoundary : Prog := .get (fun s =>
  Prog.when (s.enabled pgWatch && decide (s.fld pgWatch R.watch_CFG_THRESH ≤ s.fld pgWatch R.watch_STATUS_SCORE)) riskRequest)

/-! ### Score (R409, R410) -/

def State.inputA (s : State) (i : Nat) : Nat := s.fld pgWatch (R.watch_INPUT_VAL_A.plus (8 * i))
def setInputA (i v : Nat) : Prog := setFld pgWatch (R.watch_INPUT_VAL_A.plus (8 * i)) v

/-- WATCH_EVENT: the `k`-th event the Steward has yet to pass on reaches its input (R410). -/
def execWatchEvent (k : Nat) (s : State) : Host.Outcome State Fault Refusal :=
  Prog.next (.get (fun s =>
    match s.dev.watchDue[k]? with
    | none => .done
    | some i => .all [
        modDev (fun d => { d with watchDue := d.watchDue.eraseIdx k }),
        setInputA i (min 65535 (s.inputA i + 256 / 2 ^ s.fld pgWatch (R.watch_INPUT_CFG_PRESCALE.plus (8 * i))))])) s

/-- WATCH_DECAY: every event accumulator decays (R410). -/
def execWatchDecay (s : State) : Host.Outcome State Fault Refusal :=
  Prog.next (Prog.each eventInputs (fun i => .get (fun s =>
    let a := s.inputA i
    let n := s.fld pgWatch (R.watch_INPUT_CFG_DECAY.plus (8 * i))
    Prog.when (decide (0 < a) && n != 0) (setInputA i (a - max 1 (a / 2 ^ n)))))) s

/-- Contribution of input `i` (R410). -/
def State.contribution (s : State) (i : Nat) : Nat :=
  if s.bit pgWatch (R.watch_INPUT_CFG_EN.plus (8 * i)) then
    min 255 (s.fld pgWatch (R.watch_INPUT_CFG_WEIGHT.plus (8 * i)) * s.inputA i / 256)
  else 0

/-- The input with the largest contribution; of equal ones the lowest. -/
def topInput (cs : List Nat) : Nat := cs.idxOf (cs.foldl max 0)

/-- The score is formed from the accumulators (R410, R411). -/
def formScore : Prog := .get (fun s =>
  let cs := (List.range 16).map s.contribution
  let score := if s.enabled pgWatch then min 255 cs.sum else 0
  let old := s.fld pgWatch R.watch_STATUS_SCORE
  let th := s.fld pgWatch R.watch_CFG_THRESH
  .all [
    Prog.each (List.zip (List.range 16) cs) (fun x => setFld pgWatch (R.watch_INPUT_VAL_CONTRIB.plus (8 * x.1)) x.2),
    setFld pgWatch R.watch_STATUS_SCORE score,
    setFld pgWatch R.watch_STATUS_TOP (topInput cs),
    setFld pgWatch R.watch_PEAK_SCORE (max (s.fld pgWatch R.watch_PEAK_SCORE) score),
    Prog.when (s.enabled pgWatch && decide (old < th) && decide (th ≤ score)) (.all [
      bump pgWatch R.watch_CROSS_CNT,
      setFld pgWatch R.watch_CROSS_LOG_SCORE score,
      setFld pgWatch R.watch_CROSS_LOG_TOP (topInput cs),
      setFld pgWatch R.watch_CROSS_LOG_VALID 1,
      raiseLine pgWatch,
      riskRequest])])

/-- WATCH_SAMPLE: the level inputs are sampled and the score formed; `tj` is the hottest Tj in °C, `shift` the largest MAX_SHIFT of the
last 1 ms (R409 to R411). -/
def execWatchSample (tj : Int) (shift : Nat) (s : State) : Host.Outcome State Fault Refusal :=
  Prog.next (.all [
    setInputA 9 (min 255 (max 0 (8 * (tj - 73))).toNat),
    setInputA 10 (min 255 shift),
    formScore]) s

/-! ### Steward messages (R424, R562) -/

/-- The device a Steward message comes from. -/
def stewOrigin : StewMsg → Nat
  | .snapReq o _ => o
  | .alarm o _ _ => o
  | .halted o _ => o

/-- A Steward message arrives on link `l`: one heard before, or this device's own, goes no further; another is forwarded on every other
up link and handed to `f` (R424). (DEDUCED, assumption 28) -/
def hear (l : Nat) (m : StewMsg) (f : Prog) : Prog := .get (fun s =>
  if s.dev.heard.contains m || stewOrigin m == s.self then .done
  else .all [modDev (fun d => { d with heard := d.heard ++ [m] }), flood m (some l), f])

/-- SNAP_REQ: sets the pending boundary, or is late (R417). -/
def execSnapReq (l : LinkId) (origin : BitVec 14) (b : BitVec 32) (s : State) : Host.Outcome State Fault Refusal :=
  Prog.next (hear l.val (.snapReq origin.toNat b.toNat) (.get (fun s =>
    if !s.enabled pgBucket then .done
    else if b.toNat ≤ s.stepIndex then .all [
      setFld pgBucket R.bucket_STATUS_LATE 1,
      bump pgBucket R.bucket_LATE_CNT,
      pageFault pgBucket 4 0,
      raiseLine pgBucket]
    else modDev (fun d => { d with pendingB := some (max (d.pendingB.getD 0) b.toNat) })))) s

/-- ALARM: ends the step on the device, and the host hears of it on the Bucket page's line (R424, R562); one for an abandonment makes the
device abandon the step too (R217, R236), unless it already halts for R217 or R219 (R220). -/
def execAlarm (l : LinkId) (origin : BitVec 14) (b : BitVec 32) (abandoned : Bool) (s : State) : Host.Outcome State Fault Refusal :=
  Prog.next (hear l.val (.alarm origin.toNat b.toNat abandoned) (.all [
    .get (fun s => Prog.when (abandoned && !s.bit pgNum R.numstep_STATUS_ABANDONING && !s.bit pgNum R.numstep_STATUS_HALTED)
      abandonHere),
    modDev (fun d => { d with stepEnd := true }),
    raiseLine pgBucket])) s

/-- STEWARD_STEP_END: every croft still issuing halts at its next order boundary with reason 5, and ALARM is raised unless the event was
an ALARM received (R562). -/
def execStewardStepEnd (s : State) : Host.Outcome State Fault Refusal :=
  Prog.next (.get (fun s =>
    if !s.dev.stepEnd then .done
    else .all [
      Prog.each (allCrofts.filter (fun c => (s.reeve c).halting.isNone)) (fun c => haltReq c 5),
      Prog.when s.dev.stepAlarm (raiseAlarm false),
      modDev (fun d => { d with stepEnd := false, stepAlarm := false })])) s

/-! ### Detected faults (R430 to R432) -/

/-- Engine code of R266 and unit of R244 for RES_LOG's engine `u`: 0 to 3 pumps, 4 mill, 5 well edge (R433). -/
def resEngine (u : Nat) : Nat := if u < 4 then u + 2 else if u = 4 then 6 else 1
def resUnit (u : Nat) : Nat := if u < 4 then u + 1 else if u = 4 then 5 else 0

/-- RESIDUE_MISMATCH: the unit stops at once with what it had in hand, and the croft halts; the record stands on the Watch page (R430).
An order index where the unit held no order is open. -/
def execResidueMismatch (c : CroftId) (u : Fin 6) (s : State) : Host.Outcome State Fault Refusal :=
  Prog.next (.get (fun s =>
    let mine (o : Issued) : Bool := o.unit == resUnit u.val && o.engine != 7
    let idx := match (s.reeve c.val).orders.find? (fun o => mine o && o.started) with
      | some o => o.idx
      | none => (Config.openWord s.seq).toNat % 2 ^ 24
    if s.croftUnderReset c.val then .done
    else .all [
      eff .seq,
      Prog.when (!s.bit pgWatch R.watch_RES_LOG_VALID) (.all [
        setFld pgWatch R.watch_RES_LOG_CROFT c.val,
        setFld pgWatch R.watch_RES_LOG_ENGINE u.val,
        setFld pgWatch R.watch_RES_LOG_VALID 1]),
      pageFault pgWatch 1 0,
      bump pgWatch R.watch_RES_CNT,
      modCroft c.val (fun r => { r with
        stopped := if r.stopped.contains u.val then r.stopped else r.stopped ++ [u.val]
        runs := if u.val = 5 then [] else r.runs
        mill := if u.val = 4 then none else r.mill
        reeve := { r.reeve with orders := r.reeve.orders.filter (fun o => !mine o) } }),
      Prog.when (decide (u.val < 4)) (eff (.pumpErase (c.val * 4 + u.val) (c.val * 4 + u.val + 1))),
      orderHalt c.val idx (resEngine u.val)])) s

/-- STEWARD_WDOG_RESTART: the firmware restarts the Steward watchdog (R431). -/
def execStewardWdogRestart (s : State) : Host.Outcome State Fault Refusal :=
  Prog.next (.get (fun s => modDev (fun d => { d with wdogAt := s.now }))) s

/-- STEWARD_WDOG_EXPIRY: FAULT_N is asserted, every croft halts without drain, and MSTATE reads 3 (R431, R451). -/
def execStewardWdogExpiry (s : State) : Host.Outcome State Fault Refusal :=
  Prog.next (.get (fun s => .all [
    modDev (fun d => { d with
      faultN := true, host := { d.host with mailbox := { d.host.mailbox with mstate := 3, serving := none } } }),
    Prog.each (allCrofts.filter s.watched) stopAtOnce,
    setFld pgWatch R.watch_SW_WDOG_EXPIRED 1,
    pageFault pgWatch 3 0,
    bump pgWatch R.watch_SW_WDOG_CNT])) s

/-! ### Lane flits (R287, R432) -/

/-- Whether a flit of croft `c` matches the share whose entry stands at `off`: shares of the sluices name a croft. -/
def State.flitOk (s : State) (off share c : Nat) : Bool :=
  share = 15 ||
  (match s.fld pgFabric (R.fabric_SHARE_KIND.plus off) with
   | 0 => false
   | 1 => s.fld pgFabric (R.fabric_SHARE_CROFT.plus off) == c
   | _ => true)

/-- A lane flit of croft `c` is discarded: the bytes it carried last towards another croft's slice do not arrive, so its segment fails by
timeout. Which of its flits it is, the manual cannot say. (DESIGN CHOICE, assumption 139) -/
def dropLaneFlit (c : Nat) : Prog := .get (fun s =>
  let mine (j : InJob) : Bool := match j with | .write dev src _ _ _ => dev == s.self && src == c | _ => false
  match (s.crofts.reverse).find? (fun e => e.2.inJobs.any mine) with
  | some e => modCroft e.1 (fun k => { k with inJobs := (k.inJobs.reverse.eraseP mine).reverse })
  | none => .done)

/-- A flit of croft `c` that waits for a link's outbound share is discarded: the newest. -/
def dropLinkFlit (l share c : Nat) : Prog := modLink l (fun k => { k with
  tx := Sparse.set k.tx share ((k.waiting share).reverse.eraseP (fun f => f.croft.val == c)).reverse })

/-- LANE_FLIT_HOP: a router, or a gatehouse for a link, checks a flit's croft against the share's entry; transit and response shares have
maps of their own (R287, R362, R363). A flit that does not match is discarded, counted and logged. -/
def execLaneFlitHop (link : Bool) (n : Fin 28) (share : Fin 16) (c : CroftId) (s : State) : Host.Outcome State Fault Refusal :=
  Prog.next (.get (fun s =>
    let off := if link then linkShareOff (n.val % 16) share.val else laneShareOff (n.val / 2) (n.val % 2) share.val
    let es := (List.range 64).filterMap s.transit
    let mapped := link && (s.portFld R.port_RESP_SHARES (4 * (n.val % 16)) / 2 ^ share.val % 2 == 1 ||
      es.any (fun e => e.1 == (n.val % 16, share.val) || e.2 == (n.val % 16, share.val)))
    if mapped || s.flitOk off share.val c.val then .done
    else .all [
      if link then Prog.when (!((s.link (n.val % 16)).waiting share.val).isEmpty) (dropLinkFlit (n.val % 16) share.val c.val)
      else dropLaneFlit c.val,
      bump pgFabric R.fabric_HDR_COLL_CNT,
      setFld pgFabric R.fabric_HDR_LOG_INDEX ((if link then n.val % 16 else n.val) * 16 + share.val),
      setBit pgFabric R.fabric_HDR_LOG_LINK link,
      setFld pgFabric R.fabric_HDR_LOG_CROFT c.val,
      setFld pgFabric R.fabric_HDR_LOG_VALID 1])) s

/-- The crofts that the fabric page gives a share of a channel direction. -/
def State.sharers (s : State) (ch dir : Nat) : List Nat :=
  allCrofts.filter (fun c => (List.range 15).any (fun x => s.shareFor c 1 (laneShareOff ch dir x) x))

/-- LANE_FLIT_CRC_FAIL: a flit fails its CRC on a hop; `again` says that it was already a replay. When the third replay fails the channel
direction is failed, and every croft with traffic over it halts (R432). -/
def execLaneFlitCrcFail (ch : Fin 14) (dir : Fin 2) (again : Bool) (s : State) : Host.Outcome State Fault Refusal :=
  Prog.next (.get (fun s =>
    let k := ch.val * 2 + dir.val
    let n := if again then (Sparse.get? s.dev.laneFails k).getD 0 + 1 else 1
    if n ≤ 3 then modDev (fun d => { d with laneFails := Sparse.set d.laneFails k n })
    else .all [
      modDev (fun d => { d with laneFails := Sparse.eraseRange d.laneFails k (k + 1) }),
      Prog.when (!s.bit pgWatch R.watch_LANE_LOG_VALID) (.all [
        setFld pgWatch R.watch_LANE_LOG_CHANNEL ch.val,
        setFld pgWatch R.watch_LANE_LOG_DIR dir.val,
        setFld pgWatch R.watch_LANE_LOG_VALID 1]),
      pageFault pgWatch 2 0,
      bump pgWatch R.watch_LANE_CNT,
      Prog.each (s.sharers ch.val dir.val) (fun c => .all [haltReq c 3, stepEnds])])) s

end Sys2Proof.Machine
end

