-- ==== Sys2Proof/Machine/Bucket.lean ====
section
/-! DEFINITION. Bucket: the set, larder and cellar, snapshots from their beginning to their commit, traffic from the ward and the partner,
and restores (R412 to R427, R435 to R437). -/
namespace Sys2Proof.Machine

/-! ### Set, slots and headers (R412, R413) -/

/-- Pails of the set, in list order: base bits [38:16] and length bits [63:40] of each entry. -/
def State.setPails (s : State) : List Nat :=
  let base := s.fld pgBucket R.bucket_SET_BASE * pailSize
  (List.range (s.fld pgBucket R.bucket_SET_LEN)).flatMap (fun i =>
    let v := s.le (base + 8 * i) 8
    (List.range (bitsOf v 40 24)).map (fun j => bitsOf v 16 23 + j))

/-- Pails of the state block, and of a slot: the set, then the state block. -/
def State.statePails (s : State) : List Nat := (List.range 256).map (fun j => s.fld pgBucket R.bucket_STATE_BASE_BASE + j)
def State.slotPails (s : State) : List Nat := s.setPails ++ s.statePails

/-- Address of pail `k` of slot `slot` in a region of slots of `p` pails. -/
def slotAddr (base p slot k : Nat) : Nat := base + (1 + slot * p + k) * pailSize

/-- A slot header as its 64 bytes read, and as they are written. -/
def State.header (s : State) (a : Nat) : SlotHeader :=
  { state := s.le a 4, owner := bitsOf (s.le (a + 4) 4) 0 14, step := s.le (a + 8) 4, pails := s.le (a + 0xC) 4,
    bell := s.le (a + 0x10) 8, digest := BitVec.ofNat 128 (s.le (a + 0x18) 16) }
def headerBytes (h : SlotHeader) : List Byte :=
  toLe 4 h.state ++ toLe 4 h.owner ++ toLe 4 h.step ++ toLe 4 h.pails ++ toLe 8 h.bell ++ toLe 16 h.digest.toNat ++ List.replicate 24 0

/-- Sum under R390 of the granules of pail `k` of a slot, with the key of Ledger page 0x0D; b0 is the granule's offset in the slot
(R419). -/
def State.pailDigest (s : State) (k : Nat) (bs : List Byte) : BitVec 128 :=
  (List.range 1024).foldl (fun (a : BitVec 128) i =>
    a + granuleValue (s.ledgerKey 1) (k * pailSize + 64 * i) ((bs.drop (64 * i)).take 64)) 0

/-! ### Messages (R415, R419) -/

/-- Parts of a Bucket message's name: 0 a pail, 1 the header that begins a snapshot, 2 the one that commits it, 3 a pail served. -/
def bkPail : Nat := 0
def bkBegin : Nat := 1
def bkCommit : Nat := 2
def bkServe : Nat := 3

/-- Send a Bucket WRITE for pail `k` through a port: on link k mod m, in the shares Bucket has there where no message is under way (R359, R419). -/
def sendBucket (port dev what k addr : Nat) (bs : List Byte) : Prog := .get (fun s =>
  let links := s.portLinks port
  match links[k % links.length]? with
  | none => .done
  | some l =>
    let shares := (s.linkShares 0 4 l).filter (fun x => x == 15 || !s.shareBusy 16384 l x)
    let sh := shares.getD (k / links.length % shares.length) 15
    let n := BitVec.ofNat 32 bs.length
    let h : Head := { kind := .write, ledger := false, coll := 0, srcDev := BitVec.ofNat 14 s.self, dstDev := BitVec.ofNat 14 dev,
                      queue := BitVec.ofNat 14 k, tag := BitVec.ofNat 12 (k / 2 ^ 14), epoch := 0, inc := 0, seg := BitVec.ofNat 6 what,
                      addr := BitVec.ofNat 52 addr, respAddr := 0, length := n, segBytes := n, segOffset := 0, bucket := true }
    let data := (List.range ((bs.length + 255) / 256)).map (fun i => (⟨0, .data ((bs.drop (256 * i)).take 256)⟩ : Flit))
    sendFlits l (if sh = 15 then 19 else sh) (⟨0, .head h⟩ :: data))

/-- Send to the partner. -/
def sendPartner (what k addr : Nat) (bs : List Byte) : Prog := .get (fun s =>
  sendBucket (s.fld pgBucket R.bucket_CFG_PARTNER_PORT) (s.fld pgBucket R.bucket_PEERS_PARTNER_DEV) what k addr bs)

/-- Base of the partner's cellar (R416). -/
def State.partnerCellar (s : State) : Nat := (match s.dev.partner with | some p => p.cellarBase.toNat | none => 0) * pailSize

/-! ### Beginning a snapshot (R412, R417, R418, R422, R423) -/

/-- Where the state block holds its parts (the layout is the model's): b at 0, the Bell count at 8, n and reference of Tally entry e at
0x1000 + 8e, scale record i at 0x4000 + 128i. -/
def sbEntries : Nat := 0x1000
def sbRecords : Nat := 0x4000

/-- Address of RECLIST, its entry `i`, and the number of entries (R218). -/
def State.recList (s : State) : Nat :=
  s.fld pgNum R.numstep_RECLIST_LO_ADDR_LO + s.fld pgNum R.numstep_RECLIST_HI_ADDR_HI * 2 ^ 32
def State.recEntry (s : State) (i : Nat) : Nat := s.le (s.recList + 8 * i) 8
def State.recCount (s : State) : Nat := s.fld pgNum R.numstep_RECLIST_LEN_LEN

/-- The Steward writes the state block (R412). (DESIGN CHOICE, assumption 53) -/
def writeStateBlock (b : Nat) : Prog := .get (fun s =>
  let base := s.fld pgBucket R.bucket_STATE_BASE_BASE * pailSize
  .all [
    store (some .steward) base (toLe 8 b ++ toLe 8 s.bellNow),
    Prog.each s.dev.entries (fun e => store (some .steward) (base + sbEntries + 8 * e.1) (toLe 4 e.2.norm ++ toLe 4 e.2.ref)),
    Prog.each (List.range s.recCount) (fun i => .all [
      readBy (some .steward) (s.recEntry i) 128,
      .get (fun s => store (some .steward) (base + sbRecords + 128 * i) (s.bytes (s.recEntry i) 128))])])

/-- OWN_A and OWN_B: the boundary a slot holds, if committed (R435). -/
def State.ownSlot (s : State) (slot : Nat) : Option Nat :=
  let v := (s.reg pgBucket (R.bucket_OWN_A.off + 4 * slot)).toNat
  if v = 0xFFFFFFFF then none else some v

/-- The slot of the latest committed snapshot, and its boundary. -/
def State.latestOwn (s : State) : Option (Nat × Nat) :=
  match s.ownSlot 0, s.ownSlot 1 with
  | none, none => none
  | some a, none => some (0, a)
  | none, some b => some (1, b)
  | some a, some b => if a < b then some (1, b) else some (0, a)

/-- A snapshot begins at boundary `b` in the slot that does not hold the latest committed one; with none committed, which slot is open
(R417, R418). (DESIGN CHOICE, assumption 54) -/
def beginSnapshot (b : Nat) (forced : Bool) : Prog := .get (fun s =>
  let slot := match s.latestOwn with | some (x, _) => 1 - x | none => Config.openBit s.seq % 2
  let ps := s.slotPails
  let h : SlotHeader := { state := 1, owner := s.self, step := b, pails := ps.length, bell := s.bellNow, digest := 0 }
  .all [
    eff .seq,
    writeStateBlock b,
    store (some .bucket) (s.larder.1 + 0x40 * slot) (headerBytes h),
    sendPartner bkBegin 0 (s.partnerCellar + 0x40 * slot) (headerBytes h),
    modDev (fun d => { d with
      snap := some { b := b, bell := s.bellNow, slot := slot, pails := ps, uncopied := List.range ps.length }
      pendingB := match d.pendingB with | some p => if p ≤ b then none else some p | none => none }),
    setReg pgBucket (R.bucket_OWN_A.off + 4 * slot) 0xFFFFFFFF#32,
    setReg pgBucket R.bucket_B_LAST.off (BitVec.ofNat 32 b),
    setReg pgBucket R.bucket_CUR_STEP.off (BitVec.ofNat 32 b),
    setFld pgBucket R.bucket_STATUS_SNAP 1,
    bump pgBucket R.bucket_SNAP_CNT,
    Prog.when forced (bump pgBucket R.bucket_FORCED_CNT)])

/-- Bucket's part in the boundary just passed (R417, R418, R422, R423). -/
def bucketBoundary : Prog := .get (fun s =>
  let b := s.stepIndex
  let asked := match s.dev.pendingB with | some p => decide (p ≤ b) | none => false
  let max' := s.fld pgBucket R.bucket_CFG_MAX_INTERVAL
  let forced := decide (max' ≤ b - s.fld pgBucket R.bucket_B_LAST)
  let since := b - (match s.latestOwn with | some (_, x) => x | none => 0)
  if !s.enabled pgBucket then .done
  else
    match s.dev.snap with
    | none => Prog.when (asked || forced) (beginSnapshot b (!asked))
    | some _ => .all [
        Prog.when (s.dev.pendingB == some b) (bump pgBucket R.bucket_DEFER_CNT),
        Prog.when (decide (max' < since)) (.all [
          setFld pgBucket R.bucket_STATUS_HELD 1, bump pgBucket R.bucket_HOLD_CNT])])

/-! ### Copying (R419, R420) -/

/-- Held writes of the pail at slot place `k` are carried out. -/
def releaseHeld (k : Nat) : Prog := .get (fun s =>
  match s.dev.snap with
  | none => .done
  | some n =>
    let mine (h : HeldWrite) : Bool := n.pails[k]? == some (h.addr / pailSize)
    .all [
      modSnap (fun n => { n with held := n.held.filter (fun h => !mine h) }),
      Prog.each (n.held.filter mine) (fun h => store (some h.src) h.addr h.bytes)])

/-- Granary address of pail `k` of the slot. -/
def Snap.addr (n : Snap) (k : Nat) : Nat := n.pails.getD k 0 * pailSize

/-- A copied pail goes to the larder and to the partner's cellar, and into the slot's digest (R419). -/
def shipPail (k : Nat) (bs : List Byte) : Prog := .get (fun s =>
  match s.dev.snap with
  | none => .done
  | some n => .all [
      store (some .bucket) (slotAddr s.larder.1 n.pails.length n.slot k) bs,
      sendPartner bkPail k (slotAddr s.partnerCellar n.pails.length n.slot k) bs,
      modSnap (fun n => { n with unacked := n.unacked ++ [k], digest := n.digest + s.pailDigest k bs })])

/-- Bucket reads pail `k` of the slot; an uncorrectable granule fails the snapshot (R316, R423, R437). -/
def pailRead (n : Snap) (k : Nat) (go : Prog) : Prog := .all [
  readBy (some .bucket) (n.addr k) pailSize, ifRefused (n.addr k) pailSize (snapFail 1 (n.addr k)) go]

/-- BUCKET_PAIL_COPY: a held pail is sent first; otherwise the next uncopied pail is read, written to the larder and sent (R419, R423). -/
def execBucketPailCopy (s : State) : Host.Outcome State Fault Refusal :=
  Prog.next (.get (fun s =>
    match s.dev.snap with
    | none => .done
    | some n =>
      if !n.begun then .done
      else
        match n.staged with
        | (k, bs) :: rest => .all [
            shipPail k bs,
            modSnap (fun n => { n with staged := rest }),
            setFld pgBucket R.bucket_STATUS_STAGED rest.length]
        | [] =>
          match n.uncopied with
          | [] => .done
          | k :: rest =>
            pailRead n k (.get (fun s => .all [
              shipPail k (s.bytes (n.addr k) pailSize),
              modSnap (fun n => { n with uncopied := rest }),
              releaseHeld k])))) s

/-- BUCKET_TOUCH_RELEASE: the pail of the first held write is read into a holding buffer and its writes are released (R420). -/
def execBucketTouchRelease (s : State) : Host.Outcome State Fault Refusal :=
  Prog.next (.get (fun s =>
    match s.dev.snap with
    | none => .done
    | some n =>
      match n.held.head?.bind (fun h => n.waiting h.addr) with
      | none => .done
      | some k =>
        if 16 ≤ n.staged.length then .done
        else pailRead n k (.get (fun s => .all [
          modSnap (fun n => { n with
            staged := n.staged ++ [(k, s.bytes (n.addr k) pailSize)], uncopied := n.uncopied.filter (· != k) }),
          setFld pgBucket R.bucket_STATUS_STAGED (n.staged.length + 1),
          bump pgBucket R.bucket_TOUCH_CNT,
          releaseHeld k])))) s

/-- BUCKET_PAIL_TIMEOUT: the `k`-th pail sent and not acknowledged is 1 ms old (R423). -/
def execBucketPailTimeout (k : Nat) (s : State) : Host.Outcome State Fault Refusal :=
  Prog.next (.get (fun s =>
    match s.dev.snap with
    | some n => (match n.unacked[k]? with | some p => snapFail 2 (n.addr p) | none => .done)
    | none => .done)) s

/-! ### Commit (R421) -/

/-- The header of the snapshot in progress once committed. -/
def State.commitHeader (s : State) (n : Snap) : SlotHeader :=
  { state := 2, owner := s.self, step := n.b, pails := n.pails.length, bell := n.bell, digest := n.digest }

/-- BUCKET_COMMIT: every pail is acknowledged and written, and Bucket writes the larder header, then the cellar's (R421). -/
def execBucketCommit (s : State) : Host.Outcome State Fault Refusal :=
  Prog.next (.get (fun s =>
    match s.dev.snap with
    | none => .done
    | some n =>
      if !(n.begun && n.uncopied.isEmpty && n.staged.isEmpty && n.unacked.isEmpty) || n.committing then .done
      else .all [
        store (some .bucket) (s.larder.1 + 0x40 * n.slot) (headerBytes (s.commitHeader n)),
        sendPartner bkCommit 0 (s.partnerCellar + 0x40 * n.slot) (headerBytes (s.commitHeader n)),
        setFld pgBucket R.bucket_STATUS_SNAP 2,
        modSnap (fun n => { n with committing := true })])) s

/-- A commit or a successful restore returns a page in FAULT to ENABLED (R437). -/
def bucketSound : Prog := .get (fun s =>
  Prog.when (s.fld pgBucket R.STATE_STATE == stFault) (setFld pgBucket R.STATE_STATE stEnabled))

/-- COMMIT_ACK: the cellar header write is acknowledged and the snapshot is committed (R421, R422). -/
def execCommitAck (s : State) : Host.Outcome State Fault Refusal :=
  Prog.next (.get (fun s =>
    match s.dev.snap with
    | none => .done
    | some n =>
      if !n.acked then .done
      else .all [
        modDev (fun d => { d with snap := none }),
        setReg pgBucket (R.bucket_OWN_A.off + 4 * n.slot) (BitVec.ofNat 32 n.b),
        bump pgBucket R.bucket_COMMIT_CNT,
        setFld pgBucket R.bucket_STATUS_SNAP 0,
        bucketSound,
        unhold])) s

/-! ### Traffic of partner and ward (R415) -/

/-- The header of slot `slot` in the partner's cellar is now `h`. -/
def partnerHeader (slot : Nat) (h : SlotHeader) : Prog := modDev (fun d => { d with
  partner := d.partner.map (fun p => { p with headers := p.headers.set slot h }) })

/-- What an acknowledgement of Bucket's own traffic does: `what` and `k` name the message, as `sendBucket` writes them. -/
def bucketAck (what k status : Nat) : Prog := .get (fun s =>
  if what = bkServe then
    modDev (fun d => { d with restore := d.restore.map (fun r => { r with left := r.left.filter (· != k) }) })
  else
    match s.dev.snap with
    | none => .done
    | some n =>
      if status ≠ 0 then snapFail (if status = 7 then 2 else 3) (if what = bkPail then n.addr k else 0)
      else if what = bkBegin then .all [
        modSnap (fun n => { n with begun := true }),
        partnerHeader n.slot { state := 1, owner := s.self, step := n.b, pails := n.pails.length, bell := n.bell, digest := 0 }]
      else if what = bkCommit then .all [modSnap (fun n => { n with acked := true }), partnerHeader n.slot (s.commitHeader n)]
      else modSnap (fun n => { n with unacked := n.unacked.filter (· != k) }))

/-- A WRITE of Bucket traffic: from the ward into the cellar, or from the partner while a restore is accepted; any other is refused
(R415). A header the ward writes shows in WARD_A or WARD_B (R421). -/
def recvBucket (l : Nat) (m : RxMsg) : Prog := .get (fun s =>
  let h := m.head
  let a := h.addr.toNat
  let n := m.bytes.length
  let key := headKey h l
  let inCellar := decide (s.cellar.1 ≤ a) && decide (a + n ≤ s.cellar.1 + s.cellar.2)
  let fromWard := s.enabled pgBucket && h.srcDev.toNat == s.fld pgBucket R.bucket_PEERS_WARD_DEV && inCellar
  let k := h.queue.toNat + h.tag.toNat * 2 ^ 14
  let accepting := match s.dev.restore with
    | some r => s.enabled pgBucket && r.kind == 3 && h.srcDev.toNat == s.fld pgBucket R.bucket_PEERS_PARTNER_DEV &&
        decide (s.slotPails[k]? = some (a / pailSize)) && decide (a % pailSize = 0) && n == pailSize
    | none => false
  if decide (a < 2 ^ 39) && s.granAbsorbs (a / 2 ^ 36) (s.begun key) then account key n 5
  else if touchesBoot a n then account key n 1
  else if fromWard then .all [
    store (some (.incoming none)) a m.bytes,
    Prog.when (decide (a < s.cellar.1 + 0x80) && n == 0x40) (.get (fun s =>
      let x := s.header a
      setReg pgBucket (R.bucket_WARD_A.off + 4 * ((a - s.cellar.1) / 0x40))
        (if x.state = 2 then BitVec.ofNat 32 x.step else 0xFFFFFFFF#32))),
    account key n 0]
  else if accepting then .all [
    store (some (.incoming none)) a m.bytes,
    modDev (fun d => { d with restore := d.restore.map (fun r => { r with
      left := r.left.filter (· != k), digest := r.digest + s.pailDigest k m.bytes }) }),
    account key n 0]
  else .all [bump pgBucket R.bucket_REFUSE_CNT, account key n 1])

/-- WRITE: the `k`-th message of a link is written, unless it must wait (R361, R367, R415). -/
def execWrite (l : LinkId) (k : Nat) (s : State) : Host.Outcome State Fault Refusal :=
  Prog.next (.get (fun s =>
    match s.message l.val k .write with
    | none => .done
    | some m =>
      let a := m.head.addr.toNat
      let refused := !m.head.bucket && s.keptFrom a m.bytes.length
      if s.placeWaits (headKey m.head l.val) (m.via l.val) a refused then .done
      else .all [takeMessage l.val k, if m.head.bucket then recvBucket l.val m else recvWrite l.val m])) s

/-- SEG_ACK: the `k`-th acknowledgement delivered completes its segment, or is Bucket's (R335, R338, R340, R415). -/
def execSegAck (k : Nat) (s : State) : Host.Outcome State Fault Refusal :=
  Prog.next (.get (fun s =>
    match s.dev.acks[k]? with
    | some (.segAck _ q tag epoch inc seg status bucket) => .all [
        modDev (fun d => { d with acks := d.acks.eraseIdx k }),
        if bucket then bucketAck seg.toNat (q.toNat + tag.toNat * 2 ^ 14) status.toNat
        else ackArrives q.toNat tag.toNat epoch.toNat inc.toNat seg.toNat status.toNat]
    | _ => .done)) s

/-! ### Commands and restores (R417, R425) -/

/-- What an OP 1 command does. -/
def bucketRequest : Prog := .get (fun s =>
  if !s.enabled pgBucket then ignored pgBucket else askSnapshot (s.stepIndex + 2))

/-- BUCKET_REQUEST: `BUCKET.CMD` OP 1 (R417). -/
def execBucketRequest (s : State) : Host.Outcome State Fault Refusal :=
  Prog.next (regWrite .host pgBucket R.bucket_CMD_OP.off (bucketRequest)) s

/-- Whether a restore command is carried out: the page is enabled and no reeve page of the device is (R425). -/
def State.mayRestore (s : State) : Bool := s.enabled pgBucket && s.mayStep

/-- A restore fails, at the pail of granary address `addr` or at none (R425, R437). -/
def restoreFails (cause addr : Nat) : Prog := .all [
  modDev (fun d => { d with restore := none }), setFld pgBucket R.bucket_STATUS_REST 5, pageFault pgBucket cause addr]

/-- Bucket reads the pails of a slot at `base`; an uncorrectable one fails the restore (R316, R437). (DEDUCED, assumption 147) -/
def slotRead (base n slot : Nat) (go : Prog) : Prog := .all [
  readAll (some .bucket) ((List.range n).map (fun k => (slotAddr base n slot k, pailSize))),
  .get (fun s =>
    match (List.range n).find? (fun k => s.deadAt (slotAddr base n slot k) pailSize) with
    | some k => restoreFails 1 (slotAddr base n slot k)
    | none => go)]

/-- Whether a header may be restored from (R425). -/
def State.headerOk (s : State) (h : SlotHeader) : Bool := h.state == 2 && h.owner == s.self

/-- What an OP 2 command does. -/
def bucketLocal (slot : Nat) : Prog := .get (fun s =>
  let h := s.header (s.larder.1 + 0x40 * slot)
  let ps := s.slotPails
  if !s.mayRestore then ignored pgBucket
  else if !s.headerOk h then restoreFails 6 0
  else slotRead s.larder.1 ps.length slot (.get (fun s =>
    let src (k : Nat) : List Byte := s.bytes (slotAddr s.larder.1 ps.length slot k) pailSize
    let sum := (List.range ps.length).foldl (fun (a : BitVec 128) k => a + s.pailDigest k (src k)) 0
    .all [
      setFld pgBucket R.bucket_STATUS_REST 1,
      Prog.each (List.zip ps (List.range ps.length)) (fun x => store (some .bucket) (x.1 * pailSize) (src x.2)),
      modDev (fun d => { d with restore := some { kind := 1, slot := slot, b := h.step, want := h.digest, digest := sum } })])))

/-- BUCKET_LOCAL: `BUCKET.CMD` OP 2 copies larder slot SLOT into the set and the state block (R425). -/
def execBucketLocal (slot : Fin 2) (s : State) : Host.Outcome State Fault Refusal :=
  Prog.next (regWrite .host pgBucket R.bucket_CMD_OP.off (bucketLocal slot.val)) s

/-- What an OP 3 command does. -/
def bucketServe (slot : Nat) : Prog := .get (fun s =>
  match s.dev.ward with
  | none => ignored pgBucket
  | some w =>
    let h := s.header (s.cellar.1 + 0x40 * slot)
    if !s.mayRestore then ignored pgBucket
    else slotRead s.cellar.1 w.set.length slot (.get (fun s => .all [
      setFld pgBucket R.bucket_STATUS_REST 2,
      modDev (fun d => { d with restore := some {
        kind := 2, slot := slot, b := h.step, want := h.digest, left := List.range w.set.length } }),
      Prog.each (List.zip w.set (List.range w.set.length)) (fun x =>
        sendBucket (s.fld pgBucket R.bucket_CFG_WARD_PORT) (s.fld pgBucket R.bucket_PEERS_WARD_DEV) bkServe x.2 (x.1 * pailSize)
          (s.bytes (slotAddr s.cellar.1 w.set.length slot x.2) pailSize))])))

/-- BUCKET_SERVE: `BUCKET.CMD` OP 3 pushes cellar slot SLOT to the ward (R425). -/
def execBucketServe (slot : Fin 2) (s : State) : Host.Outcome State Fault Refusal :=
  Prog.next (regWrite .host pgBucket R.bucket_CMD_OP.off (bucketServe slot.val)) s

/-- What an OP 4 command does. -/
def bucketAccept (slot : Nat) : Prog := .get (fun s =>
  let h := (s.dev.partner.bind (fun p => p.headers[slot]?)).getD ⟨0, 0, 0, 0, 0, 0⟩
  if !s.mayRestore then ignored pgBucket
  else if !s.headerOk h then restoreFails 6 0
  else .all [
    setFld pgBucket R.bucket_STATUS_REST 3,
    modDev (fun d => { d with restore := some {
      kind := 3, slot := slot, b := h.step, want := h.digest, left := List.range s.slotPails.length } })])

/-- BUCKET_ACCEPT: `BUCKET.CMD` OP 4 lets the partner's pushed pails in, after a check of the partner's cellar header (R415, R425). -/
def execBucketAccept (slot : Fin 2) (s : State) : Host.Outcome State Fault Refusal :=
  Prog.next (regWrite .host pgBucket R.bucket_CMD_OP.off (bucketAccept slot.val)) s

/-- What an OP 5 command does. -/
def bucketAbort : Prog := .get (fun s =>
  if !s.mayRestore then ignored pgBucket
  else .all [modDev (fun d => { d with restore := none }), setFld pgBucket R.bucket_STATUS_REST 0])

/-- BUCKET_ABORT: `BUCKET.CMD` OP 5 (R425). -/
def execBucketAbort (s : State) : Host.Outcome State Fault Refusal :=
  Prog.next (regWrite .host pgBucket R.bucket_CMD_OP.off (bucketAbort)) s

/-- What the Steward puts back after a restore: scale records, Tally entries, the step index and B_LAST (R425). -/
def stewardRestores (b : Nat) : Prog := .get (fun s =>
  let base := s.fld pgBucket R.bucket_STATE_BASE_BASE * pailSize
  .all [
    Prog.each (List.range s.recCount) (fun i => .all [
      readBy (some .steward) (base + sbRecords + 128 * i) 128,
      .get (fun s => store (some .steward) (s.recEntry i) (s.bytes (base + sbRecords + 128 * i) 128))]),
    modDev (fun d => { d with entries := d.entries.map (fun e =>
      let norm := s.le (base + sbEntries + 8 * e.1) 4
      let r := s.le (base + sbEntries + 8 * e.1 + 4) 4
      (e.1, { e.2 with norm := norm, ref := r, seen := r != 0, slots := [] })) }),
    setReg pgNum R.numstep_STEP_INDEX.off (BitVec.ofNat 32 b),
    setReg pgBucket R.bucket_B_LAST.off (BitVec.ofNat 32 b)])

/-- RESTORE_DONE: every pail is in and the digest decides (R425, R437); a device that served returns to rest. -/
def execRestoreDone (s : State) : Host.Outcome State Fault Refusal :=
  Prog.next (.get (fun s =>
    match s.dev.restore with
    | none => .done
    | some r =>
      if !r.left.isEmpty then .done
      else if r.kind = 2 then .all [modDev (fun d => { d with restore := none }), setFld pgBucket R.bucket_STATUS_REST 0]
      else if r.digest ≠ r.want then restoreFails 5 0
      else .all [
        modDev (fun d => { d with restore := none }),
        stewardRestores r.b,
        setFld pgBucket R.bucket_STATUS_REST 4,
        bucketSound])) s

/-! ### The exchange (R416) -/

/-- What this device answers: its own Bucket fields, cellar headers and declared feed. -/
def State.ownPeer (s : State) : Peer :=
  let far (f : Fld) : BitVec 14 := BitVec.ofNat 14 (s.portFld R.port_PORT_FAR_FAR_DEV (8 * s.fld pgBucket f))
  { partnerDev := far R.bucket_CFG_PARTNER_PORT, wardDev := far R.bucket_CFG_WARD_PORT, pails := s.slotPails.length,
    cellarBase := BitVec.ofNat 23 (s.fld pgBucket R.bucket_CELLAR_BASE_BASE),
    cellarLen := BitVec.ofNat 24 (s.fld pgBucket R.bucket_CELLAR_LEN_PAILS),
    feed := BitVec.ofNat 8 (if s.enabled ⟨.feed, 0⟩ then s.fld pgFeed R.feed_FEED_FEED else 0),
    headers := [s.header s.cellar.1, s.header (s.cellar.1 + 0x40)], set := s.slotPails }

/-- BUCKET_EXCHANGE: a message of a partner or ward whose Bucket page is being enabled arrives on link `l` and is answered, whether or not
this device's page is enabled (R416). -/
def execBucketExchange (l : LinkId) (s : State) : Host.Outcome State Fault Refusal :=
  Prog.next (.get (fun s => emit (.exchangeAnswer l.val s.ownPeer))) s

end Sys2Proof.Machine
end

