-- ==== Sys2Proof/Machine/Wells.lean ====
section
/-! DEFINITION. Wells: loads, draws on runs of wells, the edge, confidence checks, repeats and promotion (R67 to R108, R123 to
R136). -/
namespace Sys2Proof.Machine

/-! ### Loading -/

/-- `n` lists of `k` elements cut from a list. -/
def cuts {α : Type} (k : Nat) : Nat → List α → List (List α)
  | 0, _ => []
  | n + 1, l => l.take k :: cuts k n (l.drop k)

/-- An integer divided by a positive number, rounded to nearest with ties to even. -/
def divEven (a : Int) (n : Nat) : Int :=
  let q := a / n
  let r := a % n
  if (n : Int) < 2 * r ∨ (2 * r = n ∧ q % 2 = 1) then q + 1 else q

/-- Sum of the levels of quarter `q` of the data columns in row `r` (R100). -/
def quarterSum (levels : List Byte) (r q : Nat) : Int :=
  ((levels.drop (512 * r + 128 * q)).take 128).foldl (fun a b => a + b.toInt) 0

/-- Target level of a cell of a logical column: data columns from the image, check columns by R100 (R99, R100). -/
def targetLevel (levels : List Byte) (col row : Nat) : Int :=
  if col < 512 then (levels.getD (512 * row + col) 0).toInt
  else if col < 516 then divEven (quarterSum levels row (col - 512)) 128
  else if col = 516 then 4
  else if col = 517 then -4
  else if col = 518 then (if row % 2 = 0 then 4 else -4)
  else 0  -- K7

/-- Logical column a physical column carries under a spare map, if any: a spare carries the column it is assigned, and the physical
column so vacated, or a spare not in use, carries none (R68, R99). -/
def logicalOf (spares : List (Nat × Nat)) (p : Nat) : Option Nat :=
  let own (k : Nat) : Option Nat := if spares.any (fun e => e.2 == k) then none else some k
  if p < 512 then own p
  else if p < 528 then (spares.find? (fun e => e.1 == p - 512)).map (·.2)
  else own (p - 16)

/-- Target level of a cell as LOAD_PASS_END names its column: logical columns 0 to 519, unused spares from 520 on, and vacated physical
columns from 536 on, both of level 0 (R73, R99); none for a column the pass does not write. -/
def cellTarget (levels : List Byte) (spares : List (Nat × Nat)) (col row : Nat) : Option Int :=
  if 512 ≤ row then none
  else if col < 520 then some (targetLevel levels col row)
  else if col < 536 then if spares.any (fun e => e.1 == col - 520) then none else some 0
  else if col < 1072 ∧ (logicalOf spares (col - 536)).isNone ∧ ¬(512 ≤ col - 536 ∧ col - 536 < 528) then some 0
  else none

/-- The residues e(r, q) of R123 in 1/128 level, for each quarter row by row. -/
def residues (levels : List Byte) : List (List Int) :=
  (List.range 4).map (fun q => (cuts 512 512 levels).map (fun row =>
    let s := ((row.drop (128 * q)).take 128).foldl (fun a b => a + b.toInt) 0
    128 * divEven s 128 - s))

/-- Whether an FP32 code is a positive, finite, normal value (R71). -/
def scaleOk (v : Nat) : Bool := decide (0x00800000 ≤ v) && decide (v < 0x7F800000)

/-- FP32 words in bytes, low byte first. -/
def words32 (bs : List Byte) : List Nat := (cuts 4 (bs.length / 4) bs).map leNat

/-- The checks of a load image at slice offset `img` (R71). -/
def State.imageChecks (s : State) (c img : Nat) : List Check :=
  let levels := s.bytes (sliceAddr c img) 0x40000
  let scales := words32 (s.bytes (sliceAddr c (img + 0x40000)) 0x800)
  let hdr := s.bytes (sliceAddr c (img + 0x40800)) 64
  let count := s.sl c (img + 0x40800) 2 % 1024
  let lvl := (levels.findIdx? (fun b => decide (b.toInt < -31) || decide (31 < b.toInt))).map (fun i => img + i)
  let scl := (scales.findIdx? (fun v => !scaleOk v)).map (fun i => img + 0x40000 + 4 * i)
  let hdrBad := (List.range 64).find? (fun i =>
    let b := (hdr.getD i 0).toNat
    if i = 0 then false else if i = 1 then decide (4 ≤ b) else if i = 2 then b != 1 else if i = 3 then b != 0 else b != 0)
  let ent := (List.range (min count 512)).findSome? (fun j =>
    let a := img + 0x40840 + 8 * j
    let v := s.sl c a 8
    if bitsOf v 9 7 ≠ 0 then some (a + 1) else if bitsOf v 25 7 ≠ 0 then some (a + 3)
    else if bitsOf v 32 8 ≠ 0 then some (a + 4) else if bitsOf v 40 8 ≠ 0 then some (a + 5) else none)
  let mk (o : Option Nat) (cause : Nat) : List Check := match o with | some a => [⟨true, cause, a⟩] | none => []
  mk lvl 1 ++ mk scl 2 ++ mk (hdrBad.map (fun i => img + 0x40800 + i)) 3 ++
  [⟨decide (512 < count), 3, img + 0x40800⟩, ⟨img % 4096 != 0 || !inSlice img imageSize, 3, img⟩] ++ mk ent 3

/-- The image's residual entries (R70). -/
def State.imageResid (s : State) (c img : Nat) : List Residual :=
  (List.range (s.sl c (img + 0x40800) 2 % 1024)).map (fun j =>
    let v := s.sl c (img + 0x40840 + 8 * j) 8
    ⟨bitsOf v 0 9, bitsOf v 16 9, bitsOf v 48 16⟩)

/-- A well becomes suspect (R130): a change from 0 to 1 is counted, raised and told; the sequence of R133 starts anew. -/
def suspect (w : Nat) (cause : Fld) : Prog := .all [
  .get (fun s => Prog.when (!s.bit (pgWell w) R.well_STATUS_SUSPECT) (.all [
    setFld (pgWell w) R.well_STATUS_SUSPECT 1, bump (pgWell w) R.well_SUSPECT_CNT, raiseLine (pgWell w), tellWatch 11])),
  setFld (pgWell w) cause 1,
  modWell w (fun r => { r with cleanWindow := false })]

/-- A column is logged and given the lowest free spare, for the next LOAD; the assignment is a runtime record (R77, R121, R496). -/
def assignSpare (w col : Nat) : Prog := .get (fun s =>
  let p := pgWell w
  .all [
    setFld p R.well_FAIL_LOG_COL col,
    setFld p R.well_FAIL_LOG_VALID 1,
    match (List.range 16).find? (fun i => !s.bit p (R.well_SPARE_MAP_VALID.plus (4 * i))) with
    | some i => .all [
        setFld p (R.well_SPARE_MAP_LOGICAL.plus (4 * i)) col,
        setFld p (R.well_SPARE_MAP_VALID.plus (4 * i)) 1,
        setFld p R.well_STATUS_SPARES_FREE (s.fld p R.well_STATUS_SPARES_FREE - 1),
        modDev (fun d =>
          let e : DefEntry := ⟨1, 2, w, col, d.boot.starts⟩
          { d with
            spareRuns := d.spareRuns ++ [(w, i, col)]
            boot := { d.boot with runtime := d.boot.runtime ++ [e], unwritten := d.boot.unwritten ++ [e] } })]
    | none => setFld p R.well_FAIL_LOG_NO_SPARE 1])

/-- The spare map's valid entries: spare and logical column; of two entries that name one column, the lower spare carries it (R99). -/
def State.spareMap (s : State) (w : Nat) : List (Nat × Nat) :=
  ((List.range 16).filter (fun i => s.bit (pgWell w) (R.well_SPARE_MAP_VALID.plus (4 * i)))).foldl (fun l i =>
    let col := s.fld (pgWell w) (R.well_SPARE_MAP_LOGICAL.plus (4 * i))
    if l.any (fun e => e.2 == col) then l else l ++ [(i, col)]) []

/-- Wells an issued order of the well group names: of a LOAD, a DRAW's run, a PLUMB's mask (R78). -/
def State.orderWells (s : State) (c : Nat) (o : Issued) : List Nat :=
  match decodeOrder o.word with
  | .ok (.load w _) => [w]
  | .ok (.draw _ a) => (s.drawArgs c a).wells
  | .ok (.plumb m _) => (List.range 16).filter (fun w => m / 2 ^ w % 2 = 1)
  | _ => []

/-- Whether an earlier-issued order on one of the wells is incomplete (R78, R118). -/
def State.wellsBusy (s : State) (c serial : Nat) (ws : List Nat) : Bool :=
  (s.reeve c).orders.any (fun o => o.unit == 0 && decide (o.serial < serial) && (s.orderWells c o).any (fun w => ws.contains w))

/-- Loads in progress in croft `c` (R73). -/
def State.loadsNow (s : State) (c : Nat) : Nat :=
  ((List.range 16).filter (fun w => (s.well (c * 16 + w)).load.isSome)).length

/-- The bank group or unit right an order lacks: class, index and offset of a collision (R274). -/
structure Miss where
  cls : Nat
  index : Nat
  addr : Nat
deriving DecidableEq, Repr

/-- A missing bank right of agent `a` on the regions, as a collision. -/
def State.bankColl (s : State) (c a : Nat) (wr : Bool) (rs : List (Nat × Nat)) : Option Miss :=
  (s.miss c a wr rs).map (fun o => ⟨clBank, o / bankSize, o⟩)

/-- A LOAD starts: its right, then the checks of R71; LOADED and STALE read 0 and the image is read (R73, R78 to R80, R274). The cells
of a well whose LOAD faults are undefined: the record keeps the previous load's, which nothing reads while LOADED is 0 (R79; DESIGN
CHOICE, assumption 128). -/
def startLoad (c : Nat) (o : Issued) (w img : Nat) : Prog := .get (fun s =>
  let g := c * 16 + w
  let p := pgWell g
  if s.wellsBusy c o.serial [w] || decide (8 ≤ s.loadsNow c) then .done
  else if s.wellUse c w % 2 = 0 then startCollides c o clWell w (s.orderOffset c o.idx)
  else
    match s.bankColl c agEdge false [(img, imageSize)] with
    | some m => startCollides c o m.cls m.index m.addr
    | none => .all [engineReads c 1 o.idx [(img, imageSize)], .get (fun s =>
      match firstFault (s.imageChecks c img) with
      | some (cause, a) => .all [
          setFld p R.well_STATUS_LOADED 0, setFld p R.well_STATUS_STALE 0, engineFault c p cause a 1 o.serial o.idx]
      | none => .all [
          markStarted c o.serial,
          setFld p R.well_STATUS_LOADED 0,
          setFld p R.well_STATUS_LOADING 1,
          setFld p R.well_STATUS_STALE 0,
          setFld p R.well_IMG_ADDR_OFFSET img,
          modWell g (fun r => { r with
            load := some ⟨o.serial, o.idx, img, 0, [], decide ((s.hamlet (c / 16)).warn ≠ 0), false⟩
            levels := s.bytes (sliceAddr c img) 0x40000
            scales := words32 (s.bytes (sliceAddr c (img + 0x40000)) 0x800)
            resid := s.imageResid c img
            resErr := residues (s.bytes (sliceAddr c img) 0x40000)
            spares := s.spareMap g
            last := [] })])])

/-- The failed cells of each column, with their number: failed columns are taken in rising column order (DESIGN CHOICE, assumption
130). -/
def failCols (bad : List (Nat × Nat × Int)) : List (Nat × Nat) :=
  (List.range 520).filterMap (fun col =>
    let n := (bad.filter (fun b => b.1 == col)).length
    if n = 0 then none else some (col, n))

/-- A residual entry for a failed data cell (R75): (target − read-back) × column scale, to BF16 with RNE. -/
def failEntry (scales : List Nat) (b : Nat × Nat × Int) (rb : Int) : Residual :=
  let d := Val.ofInt (8 * b.2.2 - rb) (-3) false
  ⟨b.1, b.2.1, (fBF16.round ⟨true, false⟩ rndRNE 0 (Val.mul d (f32 (scales.getD b.1 0)))).code⟩

/-- A load completes (R72, R75 to R80, R106, R133). `bad` are the cells still outside tolerance with their read-backs, in the order the
command lists them, which is the order of their residual entries (DESIGN CHOICE, assumption 129). (DEDUCED, assumption 19) -/
def loadDone (c g : Nat) (l : LoadRun) (passes : Nat) (bad : List ((Nat × Nat × Int) × Int)) : Prog := .get (fun s =>
  let p := pgWell g
  let r := s.well g
  let failed := bad.filter (fun b => decide (b.1.1 < 520))
  let entries := (failed.filter (fun b => decide (b.1.1 < 512))).map (fun b => failEntry r.scales b.1 b.2)
  let all := r.resid ++ entries
  let full := decide (512 < all.length)
  let cols := (failCols (failed.map (·.1))).filter (fun x => decide (4 < x.2))
  .all [
    bumpBy p R.well_FCELL_CNT failed.length,
    setReg p R.well_SCALE_FP_FP.off (crc32 (r.scales.flatMap (toLe 4))),
    setFld p R.well_RESID_IMAGE r.resid.length,
    setFld p R.well_RESID_TOTAL (min all.length 512),
    setBit p R.well_STATUS_RESID_FULL full,
    setFld p R.well_STATUS_LAST_PASSES passes,
    Prog.each cols (fun x => .all [assignSpare g x.1, bump p R.well_COLFAIL_CNT, raiseLine p]),
    bump p R.well_LOAD_CNT,
    Prog.when (decide (2 ≤ passes)) (bump p R.well_PASS2_CNT),
    Prog.when (decide (3 ≤ passes)) (bump p R.well_PASS3_CNT),
    setFld p R.well_STATUS_LOADING 0,
    setFld p R.well_STATUS_LOADED 1,
    modWell g (fun r => { r with load := none, resid := all.take 512, loadedAt := s.now, last := [] }),
    if full then .all [raiseLine p, suspect g R.well_SUSPECT_CAUSE_RESID_FULL]
    else Prog.when r.cleanWindow (.all [
      setFld p R.well_STATUS_SUSPECT 0, setReg p R.well_SUSPECT_CAUSE_CONF.off 0,
      modWell g (fun r => { r with cleanWindow := false })]),
    dropOrder c l.serial])

/-- LOAD_PASS_END: a load pass ends (R74). `cells` are the cells read back outside their target: column as `cellTarget` names it, row
and read-back in 1/8 level. A cell that has passed in an earlier pass stays passed (DESIGN CHOICE, assumption 131). A pass that
overlapped a supply warning does not count, and is repeated once the settle is over (R136). -/
def execLoadPassEnd (w : WellId) (cells : List (Nat × Nat × Int)) (s : State) : Host.Outcome State Fault Refusal :=
  Prog.next (.get (fun s =>
    let g := w.val
    let c := g / 16
    match (s.well g).load with
    | none => .done
    | some l =>
      let warned := decide ((s.hamlet (c / 16)).warn ≠ 0)
      if l.hold then .done
      else if l.redo || warned then modWell g (fun r => { r with load := some { l with redo := false, hold := warned } })
      else
        let tol : Int := 2 * ((s.fld (pgWell g) R.well_LOADCFG_VTOL : Nat) + 1)
        let out (t rb : Int) : Bool := decide (tol < rb - 8 * t) || decide (rb - 8 * t < -tol)
        let bad : List ((Nat × Nat × Int) × Int) :=
          if l.pass = 0 then
            cells.filterMap (fun x =>
              match cellTarget (s.well g).levels (s.well g).spares x.1 x.2.1 with
              | some t => if out t x.2.2 then some ((x.1, x.2.1, t), x.2.2) else none
              | none => none)
          else l.bad.filterMap (fun b =>
            match cells.find? (fun x => x.1 == b.1 && x.2.1 == b.2.1) with
            | some x => if out b.2.2 x.2.2 then some (b, x.2.2) else none
            | none => none)
        if bad.isEmpty ∨ s.fld (pgWell g) R.well_LOADCFG_MAX_PASS ≤ l.pass + 1 then loadDone c g l (l.pass + 1) bad
        else modWell g (fun r => { r with load := some { l with pass := l.pass + 1, bad := bad.map (·.1) } }))) s

/-- A supply warning begins: the pass in progress is to be repeated (R136). -/
def loadWarned (w : Nat) : Prog :=
  modWell w (fun r => { r with load := r.load.map (fun l => if l.hold then l else { l with redo := true }) })

/-- The settle after a warning is over: a load pass that waited for it begins again (R136). -/
def loadSettled (w : Nat) : Prog := modWell w (fun r => { r with load := r.load.map (fun l => { l with hold := false }) })

/-- RETENTION_LIMIT: the retention timer reaches LIMIT (R80). -/
def execRetentionLimit (w : WellId) (s : State) : Host.Outcome State Fault Refusal :=
  Prog.next (.get (fun s =>
    Prog.when (s.bit (pgWell w.val) R.well_STATUS_LOADED) (setFld (pgWell w.val) R.well_STATUS_STALE 1))) s

/-! ### The edge (R87 to R92) -/

/-- Inputs of a draw before alignment: for each position of the run, sign, magnitude q on the format's grid, scale byte, and
whether it is not finite. Rows past the contraction read zero (R86). -/
def State.gridOf (s : State) (c : Nat) (a : DrawArgs) (row p : Nat) : Bool × Nat × Nat × Bool :=
  let t := s.asRead c a.input
  let f := t.format
  if a.k ≤ a.k0 + p then (false, 0, 0, false)
  else
    let col := a.k0 + p
    let code := if t.bsize = 0 ∧ t.pitch ≠ 0 then s.elemCode c (t.elem + row * t.pitch) f col
      else s.elemCode c t.elem f (row * a.k + col)
    let sc := if t.bsize = 0 then 0x7F else s.scaleByte c t ((row * a.k + col) / t.bsize)
    match f.decode code with
    | .fin n m e => (n, m * 2 ^ (e - f.minE).toNat, sc, decide (sc = 0xFF))
    | v => (v.sign, 0, sc, true)

/-- Block size at the edge; an unscaled tensor is taken in row-blocks of 16 (R83, R87). -/
def TRef.edgeBlock (t : TRef) : Nat := if t.bsize = 0 then 16 else t.bsize

/-- Grid width W of a format (R87). -/
def gridWidth (f : Fmt) : Nat := Nat.log2 f.ratio + 1

/-- The edge of a draw: row `row` of the input on the run's wells (R88 to R92, R101). -/
def State.edgeOf (s : State) (c : Nat) (a : DrawArgs) (row slices : Nat) : Edge :=
  let t := s.asRead c a.input
  let f := t.format
  let b := t.edgeBlock
  let grid := (List.range (512 * a.wells.length)).map (fun p => s.gridOf c a row p)
  let blocks := cuts b (512 * a.wells.length / b) grid
  let nan := grid.any (·.2.2.2)
  let live := blocks.filter (fun k => k.any (fun x => x.2.1 != 0))
  let zero := live.isEmpty
  let top := live.foldl (fun m k => max m (k.headD (false, 0, 0, false)).2.2.1) 0
  let cc := gridWidth f - 4 * slices
  let peels := s.peels c t
  let rowsOf (i : Nat) : List (Int × Nat × Bool) := (cuts 512 a.wells.length grid).getD i [] |>.map (fun x =>
    let d := top - x.2.2.1
    let k := cc + (d - 3)
    let q : Nat := x.2.1 / 2 ^ k
    (if x.1 then -(q : Int) else (q : Int), min d 3, decide (q * 2 ^ k ≠ x.2.1)))
  { s := top, c := cc, m := (-f.minE).toNat, nan := nan, zero := zero && !nan,
    wells := (List.range a.wells.length).map (fun i =>
      let rows := rowsOf i
      let base := row * a.k + a.k0 + 512 * i
      let outl := (peels.filter (fun e => decide (base ≤ e.1) && decide (e.1 < base + 512) &&
        decide (e.1 < row * a.k + a.k))).map (fun e => (e.1 - base, e.2))
      let named := (s.well (c * 16 + a.wells.getD i 0)).resid.map (·.row)
      let need := (List.range 512).filter (fun r => named.contains r || outl.any (fun x => x.1 == r))
      { rows := if nan then [] else rows.map (fun x => (x.1, x.2.1))
        lost := if nan then 0 else (rows.filter (·.2.2)).length
        outliers := outl
        decoded := need.map (fun r =>
          (r, if a.k ≤ a.k0 + 512 * i + r then Val.zero false else s.elem c false t a.k row (a.k0 + 512 * i + r))) }) }

/-! ### Draws -/

/-- Add two lists of codes. -/
def addCodes (a b : List Int) : List Int := List.zipWith (· + ·) a b

/-- 520 codes of zero: the data and check columns of a well. -/
def noCodes : List Int := List.replicate 520 0

/-- The codes a command gives for place `i` of a run, brought to 520 columns. -/
def codesAt (codes : List (List Int)) (i : Nat) : List Int := ((codes.getD i []) ++ noCodes).take 520

/-- The leader of a run. -/
def Run.leader (r : Run) : Nat := r.args.wells.headD 0

/-- Global well at place `i` of a run of croft `c`. -/
def Run.well (r : Run) (c i : Nat) : Nat := c * 16 + r.args.wells.getD i 0

/-- The run that well `w` leads, if one is in progress (R85). -/
def State.runOf (s : State) (w : Nat) : Option Run := (s.croft (w / 16)).runs.find? (fun r => r.leader == w % 16)

def modRun (c serial : Nat) (f : Run → Run) : Prog :=
  modCroft c (fun k => { k with runs := k.runs.map (fun r => if r.serial = serial then f r else r) })

/-- A run takes the place of its record. -/
def putRun (c : Nat) (r : Run) : Prog := modRun c r.serial (fun _ => r)

/-- The wells of a run read DRAWING, or not. -/
def setDrawing (c : Nat) (ws : List Nat) (b : Bool) : Prog :=
  Prog.each ws (fun w => setBit (pgWell (c * 16 + w)) R.well_STATUS_DRAWING b)

/-- HOLDING of the leat section and its queue's length (R204). -/
def leatStatus (c : Nat) : Prog := .get (fun s => .all [
  setFld (pgMill c) R.mill_LEAT_STATUS_QUEUED (min 4 (s.croft c).leat.length),
  setBit (pgMill c) R.mill_LEAT_STATUS_HOLDING ((s.croft c).runs.any (·.waitLeat))])

/-- The escalation pump of croft `c`, as its place in the croft (R128). -/
def State.escPump (s : State) (c : Nat) : Nat := s.fld (pgPlumb c) R.plumb_PLUMBCFG_ESC_PUMP

/-- A DRAW ends with a fault at draw `d`: its run ends, and no record of that draw or a later one is written (R108); a part of it that the
escalation pump computes ends with it. -/
def endDraw (c serial d : Nat) (ws : List Nat) : Prog := .get (fun s =>
  let parted := match (s.croft c).escNow with
    | some e => decide (e.serial = serial ∧ d ≤ e.draw)
    | none => false
  let g := c * 4 + s.escPump c
  .all [
    modCroft c (fun k => { k with
      runs := k.runs.filter (fun r => r.serial != serial)
      leat := k.leat.filter (fun r => !(r.serial == serial && decide (d ≤ r.draw)))
      escs := k.escs.filter (fun e => !(e.serial == serial && decide (d ≤ e.draw)))
      escNow := if parted then none else k.escNow }),
    Prog.when parted (.all [setFld (pgPump g) R.pump_STATUS_ESCALATING 0, setFld (pgPump g) R.pump_STATUS_HELD 0]),
    setDrawing c ws false,
    leatStatus c,
    dropOrder c serial])

/-- Wells of a run fault in one draw: each records its own cause; the DRAW ends as an order fault (R108). -/
def runFault (c : Nat) (r : Run) (fs : List (Nat × Nat × Nat)) : Prog := .all [
  Prog.each fs (fun f => .all [pageFault (pgWell f.1) f.2.1 (sliceAddr c f.2.2), raiseLine (pgWell f.1)]),
  orderFault c r.idx 1,
  endDraw c r.serial r.draw r.args.wells]

/-- The lowest byte of a little-endian number that is not zero; the last of `n` where all are. -/
def lowByte (v : Nat) : Nat → Nat
  | 0 => 0
  | n + 1 => if v % 256 ≠ 0 then 0 else lowByte (v / 256) n + 1

/-- The place in a run of the first well that the run lists before (R86). -/
def repeatedAt (ws : List Nat) : Option Nat := (List.range ws.length).find? (fun i => (ws.take i).contains (ws.getD i 0))

/-- The checks of a DRAW's argument block (R86, R87, R249, R563). -/
def State.drawChecks (s : State) (c args n : Nat) : List Check :=
  let a := s.drawArgs c args
  let t := s.asRead c a.input
  s.refChecks c t t (args + 8) a.rows a.k 8 8 7 8 false ++
  [⟨!(decide (3 ≤ t.fmt) && decide (t.fmt ≤ 7)), 7, args + 11⟩,
   ⟨t.bsize != 0 && a.k % max 1 t.bsize != 0, 7, args + 0x18⟩,
   ⟨decide (8 ≤ a.nwellsWord), 8, args + 4 + lowByte (a.nwellsWord / 8 * 8) 3⟩,
   ⟨(repeatedAt a.wells).isSome, 8, args + (repeatedAt a.wells).getD 0 / 2⟩,
   ⟨a.k0 % 512 != 0 || decide (a.k ≤ a.k0), 8, args + 0x1C⟩,
   ⟨decide (a.rows < a.t0 + n), 8, args + 0x20⟩,
   ⟨!inSlice a.out ((n - 1) * a.stride + 2052), 8, args + 0x28⟩,
   ⟨a.stride % 64 != 0 || decide (a.stride < 2112), 8, args + 0x2C⟩,
   ⟨a.reserved != 0, 8, args + 0x30 + lowByte a.reserved 15⟩]

/-- A DRAW starts: use D on every well, then its block, then the rights of its regions (R78, R249, R274). -/
def startDraw (c : Nat) (o : Issued) (n args : Nat) : Prog := .get (fun s =>
  if s.wellsBusy c o.serial (s.drawArgs c args).wells then .done
  else
    match s.bankColl c agEdge false [(args, 64)] with
    | some m => startCollides c o m.cls m.index m.addr
    | none => .all [engineReads c 1 o.idx [(args, 64)], .get (fun s =>
      let a := s.drawArgs c args
      let t := s.asRead c a.input
      let lead := c * 16 + a.wells.headD 0
      match a.wells.find? (fun w => s.wellUse c w / 2 % 2 = 0) with
      | some w => startCollides c o clWell w (s.orderOffset c o.idx)
      | none =>
        match firstFault (s.drawChecks c args n) with
        | some (cause, x) => engineFault c (pgWell lead) cause x 1 o.serial o.idx
        | none =>
          match firstSome [s.bankColl c agEdge false (s.regions c t a.rows a.k),
              s.bankColl c agEdge true ((List.range n).map (fun d => (a.out + d * a.stride, 2052)))] with
          | some m => startCollides c o m.cls m.index m.addr
          | none => .all [
              markStarted c o.serial,
              modCroft c (fun k => { k with runs := k.runs ++ [{ serial := o.serial, idx := o.idx, args := a, n := n }] })])])

/-- Whether well `g` escalates before it draws: stale or suspect under ESCALATE, or with more than eight outlier rows (R81,
R102, R131). -/
def State.escBefore (s : State) (g : Nat) (e : EdgeWell) : Bool :=
  (s.bit (pgWell g) R.well_STATUS_SUSPECT && !s.bit (pgWell g) R.well_CONFCFG_SUSPECT_ACT) || decide (8 < e.outliers.length)

/-- The wells' shadow trims come into force (R115). -/
def commitTrims (g : Nat) : Prog := .get (fun s =>
  match (s.well g).shadow with
  | some t => modWell g (fun r => { r with trims := t.foldl (fun m x => Sparse.set m x.1 x.2) r.trims, shadow := none })
  | none => .done)

/-- Whether a window or sounding runs on a well (R120). -/
def State.calibrating (s : State) (g : Nat) : Bool :=
  s.bit (pgWell g) R.well_CAL_STATUS_WINDOW || s.bit (pgWell g) R.well_CAL_STATUS_SOUNDING

/-- Places of a run whose wells a window or sounding holds (R120). -/
def State.heldNow (s : State) (c : Nat) (r : Run) : List Nat :=
  (List.range r.args.wells.length).filter (fun i => r.held.contains i || s.calibrating (r.well c i))

/-- A slot of the draw in progress begins (R83, R95). -/
def beginSlot (c : Nat) (r : Run) (always : Bool) : Prog := .get (fun s =>
  let places := List.range r.args.wells.length
  modRun c r.serial (fun r => { r with
    inSlot := true
    held := s.heldNow c r
    part := if r.quarter.isNone then places.map (fun _ => noCodes) else r.part
    quarter := if always && r.quarter.isNone then some 0 else r.quarter
    quartering := if always then places else r.quartering }))

/-- A draw begins: its wells are checked, its inputs latched and its counts taken (R85 to R92, R102, R108, R131). -/
def beginDraw (c : Nat) (r : Run) (e : Edge) : Prog := .get (fun s =>
  let ws := r.args.wells
  let places := List.range ws.length
  let lead := pgWell (r.well c 0)
  let many := places.filter (fun i => decide (8 < ((e.wells.getD i ⟨[], 0, [], []⟩).outliers).length))
  let esc := places.filter (fun i => s.escBefore (r.well c i) (e.wells.getD i ⟨[], 0, [], []⟩))
  let lost := e.wells.any (fun x => x.lost != 0)
  let st := (if lost then 16 else 0) + (if e.nan then 32 else 0) + (if e.zero then 64 else 0) +
    (if many.isEmpty then 0 else 128) + (if esc.isEmpty then 0 else 256)
  .all [
    Prog.each places (fun i => commitTrims (r.well c i)),
    setDrawing c ws true,
    Prog.each places (fun i => bumpBy (pgWell (r.well c i)) R.well_EDGE_LOSS_CNT (e.wells.getD i ⟨[], 0, [], []⟩).lost),
    Prog.each many (fun i => bump (pgWell (r.well c i)) R.well_LEAT_OVF_CNT),
    Prog.when e.nan (.all [bump lead R.well_NONFIN_CNT, countNanIn c r.nanSeen true]),
    Prog.when e.zero (bump lead R.well_ZERO_IN_CNT),
    modRun c r.serial (fun r => { r with
      live := true, slice := 0, rep := 0, nrep := 1, quarter := none, quartering := [], part := [],
      cur := places.map (fun _ => noCodes), past := [], edge := e, status := st, esc := esc, conf := [], held := [], stale := [],
      nanSeen := r.nanSeen || e.nan, waitLeat := false, waitEsc := false }),
    leatStatus c])

/-- Parts that the draws in progress of croft `c` are already to add to the escalation queue (R132). A part that a draw adds unforeseen
joins the queue whatever its length, since none is ever dropped (DESIGN CHOICE, assumption 133). -/
def State.partsDue (s : State) (c : Nat) : Nat :=
  (((s.croft c).runs.filter (·.live)).map (fun r => r.esc.length)).foldl (· + ·) 0

/-- Parts that a draw with edge `e` is to add at its start: wells that escalate before it, and stale ones under ESCALATE (R81, R132). -/
def State.newParts (s : State) (c : Nat) (r : Run) (e : Edge) : Nat :=
  ((List.range r.args.wells.length).filter (fun i => s.escBefore (r.well c i) (e.wells.getD i ⟨[], 0, [], []⟩) ||
    (s.bit (pgWell (r.well c i)) R.well_STATUS_STALE && !s.bit (pgWell (r.well c i)) R.well_RETCFG_STALE_ACT))).length

/-- The regions of the input elements that a draw latches (R85, R88). -/
def State.inputRegions (s : State) (c : Nat) (r : Run) : List (Nat × Nat) :=
  let a := r.args
  s.partRegions c (s.asRead c a.input) a.k (a.t0 + r.draw) 1 a.k0 (min (512 * a.wells.length) (a.k - a.k0))

/-- The inputs of a draw of the run that well `w` leads have been read: the draw begins, unless its peel list is malformed or the
escalation queue has no room (R83, R108, R132). -/
def takeInput (c w : Nat) (r : Run) : Prog := .get (fun s =>
  let lead := pgWell w
  match s.peelBad c (s.asRead c r.args.input) (r.args.rows * r.args.k) with
  | some a => runFault c r [(w, 8, a)]
  | none =>
    let e := s.edgeOf c r.args (r.args.t0 + r.draw) (s.fld lead R.well_DRAWCFG_SLICES)
    if 16 < (s.croft c).escs.length + s.partsDue c + s.newParts c r e then
      Prog.when (!r.waitEsc) (.all [bump lead R.well_ESC_HOLD_CNT, modRun c r.serial (fun r => { r with waitEsc := true })])
    else .all [
      beginDraw c r e,
      .get (fun s => match s.runOf w with
        | some r => beginSlot c r (s.bit lead R.well_DRAWCFG_QUARTER)
        | none => .done)])

/-- DRAW_SLOT_START: the run that well `w` leads begins a 40 ns slot, unless a relock or a supply dip holds it; at a draw
boundary also unless the leat queue or the escalation queue has no room (R83, R132, R134, R190, R288). Where SCALE_FP differs the
wells that differ from the leader fault, and not the leader (R85; DESIGN CHOICE, assumption 132). -/
def execDrawSlotStart (w : WellId) (s : State) : Host.Outcome State Fault Refusal :=
  Prog.next (.get (fun s =>
    let c := w.val / 16
    match s.runOf w.val with
    | none => .done
    | some r =>
      let lead := pgWell w.val
      let always := s.bit lead R.well_DRAWCFG_QUARTER
      if r.inSlot || !s.clockRuns c || decide ((s.hamlet (c / 16)).warn ≠ 0) || s.underReset lead then .done
      else if r.live then beginSlot c r always
      else
        let places := List.range r.args.wells.length
        let off := s.orderOffset c r.idx
        let unloaded := places.filter (fun i => !s.bit (pgWell (r.well c i)) R.well_STATUS_LOADED)
        let differ := places.filter (fun i =>
          s.reg (pgWell (r.well c i)) R.well_SCALE_FP_FP.off != s.reg lead R.well_SCALE_FP_FP.off)
        if !unloaded.isEmpty || !differ.isEmpty then
          runFault c r (places.filterMap (fun i =>
            if differ.contains i then some (r.well c i, 4, off)
            else if unloaded.contains i then some (r.well c i, 5, off) else none))
        else if 4 ≤ (s.croft c).leat.length then
          Prog.when (!r.waitLeat) (.all [bump (pgMill c) R.mill_LEAT_HOLD_CNT,
            modRun c r.serial (fun r => { r with waitLeat := true }), leatStatus c])
        else .all [engineReads c 1 r.idx (s.inputRegions c r), takeInput c w.val r])) s

/-! ### Confidence (R123 to R127) -/

/-- Signed digit × 8 × gain of a row in slice `k` (R84, R123). -/
def digit8 (k : Nat) (x : Int × Nat) : Int :=
  let d : Int := ((x.1.natAbs / 16 ^ k % 16) * (8 / 2 ^ x.2) : Nat)
  if x.1 < 0 then -d else d

/-- The common denominator of R123's expected readings. -/
def confDen : Int := 119040

/-- The eight deviations of a well for a slice, times `confDen`: `codes` summed over `n` slice-draws (R123, R124). -/
def deviations (resErr : List (List Int)) (rows : List (Int × Nat)) (k n : Nat) (codes : List Int) : List Int :=
  let v := rows.map (digit8 k)
  let sum := v.foldl (· + ·) 0
  let alt := (List.zip v (List.range v.length)).foldl (fun a x => if x.2 % 2 = 0 then a + x.1 else a - x.1) 0
  let kc (i : Nat) : Int := codes.getD (512 + i) 0
  (List.range 4).map (fun q =>
    let data := ((codes.drop (128 * q)).take 128).foldl (· + ·) 0
    let t := (List.zipWith (· * ·) v (resErr.getD q [])).foldl (· + ·) 0
    kc q * confDen - data * 930 - n * t) ++
  [kc 4 * confDen - n * (512 * sum), kc 5 * confDen + n * (512 * sum), kc 6 * confDen - n * (512 * alt), kc 7 * confDen]

/-- Whether a well passes its check (R124). -/
def State.confPass (s : State) (g n : Nat) (ds : List Int) : Bool :=
  let tq : Int := (s.fld (pgWell g) R.well_CONFCFG_TOL_Q : Nat)
  let tr : Int := (s.fld (pgWell g) R.well_CONFCFG_TOL_R : Nat)
  (List.zip ds (List.range 8)).all (fun x => decide ((x.1.natAbs : Int) * 16 ≤ (if x.2 < 4 then tq else tr) * n * confDen))

/-- CONF_LAST records a failure: the check of the largest deviation, and the deviation in 1/16 code; which of the two nearest
values stands where it is no multiple is a free value (R127, R139). (DESIGN CHOICE, assumption 14) -/
def confLast (g k n : Nat) (summed : Bool) (ds : List Int) : Prog := .get (fun s =>
  let best := (List.zip ds (List.range 8)).foldl (fun (b : Int × Nat) x => if b.1.natAbs < x.1.natAbs then x else b) (ds.headD 0, 0)
  let num := 16 * best.1
  let den := confDen * n
  let q := num / den
  let dev := if num % den = 0 then q else q + (Config.openBit s.seq % 2 : Nat)
  .all [
    setFld (pgWell g) R.well_CONF_LAST_CHECK best.2,
    setFld (pgWell g) R.well_CONF_LAST_SLICE k,
    setBit (pgWell g) R.well_CONF_LAST_AFTER_REPEAT summed,
    setFld (pgWell g) R.well_CONF_LAST_VALID 1,
    setFld (pgWell g) R.well_CONF_LAST_DEV (dev % 65536).toNat,
    eff .seq])

/-- Whether the place `i` of a run gives no codes to its checks: held, or escalated for another reason than a failed check (R120,
R125). -/
def Run.idle (r : Run) (i : Nat) : Bool := r.held.contains i || (r.esc.contains i && !r.conf.contains i)

/-- The wells of a run whose check is evaluated (R125). -/
def Run.checked (r : Run) : List Nat :=
  if r.edge.nan || r.edge.zero then []
  else (List.range r.args.wells.length).filter (fun i => !r.idle i)

/-- The failing wells of a slice on `n` summed slice-draws, with their deviations. -/
def State.confFails (s : State) (c : Nat) (r : Run) (n : Nat) : List (Nat × List Int) :=
  r.checked.filterMap (fun i =>
    let g := r.well c i
    let ds := deviations (s.well g).resErr (r.edge.wells.getD i ⟨[], 0, [], []⟩).rows r.slice n (r.cur.getD i noCodes)
    if s.confPass g n ds then none else some (i, ds))

/-- Wells fail their check: each is logged, suspect, and counted where it is to escalate (R127). -/
def confEscalate (c : Nat) (r : Run) (n : Nat) (summed : Bool) (fs : List (Nat × List Int)) : Prog :=
  Prog.each fs (fun f => .all [
    confLast (r.well c f.1) r.slice n summed f.2,
    Prog.when (!r.esc.contains f.1) (bump (pgWell (r.well c f.1)) R.well_ESC_CONF_CNT),
    suspect (r.well c f.1) R.well_SUSPECT_CAUSE_CONF])

/-- A run with the failing places `fs` escalated, and named in its status word (R98, R127). -/
def Run.failing (r : Run) (fs : List Nat) : Run :=
  let new := fs.filter (fun i => !r.esc.contains i)
  { r with esc := r.esc ++ new, conf := r.conf ++ new, status := fs.foldl (fun st i => st ||| 2 ^ (16 + i) ||| 256) r.status }

/-! ### The end of slices and draws -/

/-- Places of a run whose wells are stale and were not found so earlier in the draw (R81). -/
def State.newStale (s : State) (c : Nat) (r : Run) : List Nat :=
  (List.range r.args.wells.length).filter (fun i => s.bit (pgWell (r.well c i)) R.well_STATUS_STALE && !r.stale.contains i)

/-- Of these, the places whose STALE_ACT ends the draw with a fault (R81). -/
def State.staleFaults (s : State) (c : Nat) (r : Run) : List Nat :=
  (s.newStale c r).filter (fun i => s.bit (pgWell (r.well c i)) R.well_RETCFG_STALE_ACT)

/-- A run after a slice-draw that gave the codes of its `part`: they are added to the slice's, and wells found stale escalate (R81, R96,
R120). -/
def State.afterSlot (s : State) (c : Nat) (r : Run) : Run :=
  let new := s.newStale c r
  { r with
    inSlot := false, quarter := none, quartering := [], held := s.heldNow c r
    cur := List.zipWith addCodes r.cur r.part, part := [], rep := r.rep + 1
    stale := r.stale ++ new, esc := r.esc ++ new.filter (fun i => !r.esc.contains i)
    status := if new.isEmpty then r.status else r.status ||| 2 ||| 256 }

/-- A run that draws this slice and the later ones 2^`avg` times: the ended slices' codes are scaled to that number (R96, R126). -/
def Run.averaging (r : Run) (avg : Nat) : Run :=
  { r with
    nrep := 2 ^ avg, past := r.past.map (fun sl => sl.map (fun k => k.map (fun x => x * 2 ^ avg))), status := r.status ||| avg * 1024 }

/-- A run with its slice ended. -/
def Run.nextSlice (r : Run) : Run :=
  { r with past := r.past ++ [r.cur], cur := (List.range r.args.wells.length).map (fun _ => noCodes), rep := 0, slice := r.slice + 1 }

/-- The places of a run that escalate. -/
def Run.escPlaces (r : Run) : List Nat := (List.range r.args.wells.length).filter (fun i => r.esc.contains i)

/-- The record of a draw whose slices have ended: A_k of each slice, where escalated wells give nothing and held wells their last codes
(R96, R98, R120, R127). -/
def State.recordOf (s : State) (c : Nat) (r : Run) : DrawRec :=
  let lastOf (i : Nat) : List Int := ((s.well (r.well c i)).last ++ noCodes).take 512
  let wellSum (sl : List (List Int)) (i : Nat) : List Int :=
    if r.held.contains i then (lastOf i).map (fun x => x * r.nrep) else (sl.getD i noCodes).take 512
  { serial := r.serial, idx := r.idx, draw := r.draw, final := decide (r.n ≤ r.draw + 1), out := r.args.out + r.draw * r.args.stride
    wells := r.args.wells, edge := r.edge
    sums := r.past.map (fun sl => ((List.range r.args.wells.length).filter (fun i => !r.esc.contains i)).foldl
      (fun a i => addCodes a (wellSum sl i)) (List.replicate 512 0))
    nrep := r.nrep, status := r.status ||| (if r.held.isEmpty then 0 else 4) ||| (if r.escPlaces.isEmpty then 0 else 256)
    parts := r.escPlaces.length }

/-- The parts that fall due at the end of a draw, in rising well order (R132). -/
def State.partsOf (s : State) (r : Run) : List EscPart :=
  ((r.escPlaces.map (fun i => r.args.wells.getD i 0)).mergeSort (fun x y => decide (x ≤ y))).map (fun g => ⟨g, r.serial, r.draw, s.now⟩)

/-- A draw's last slice has ended: held and escalated wells are counted, its record takes its place in the leat queue, its parts
fall due, and the run goes on to its next draw or ends (R96, R120, R127, R128, R132). -/
def drawEnds (c : Nat) (r : Run) : Prog := .get (fun s => .all [
  Prog.each r.held (fun i => bump (pgWell (r.well c i)) R.well_HELD_CNT),
  Prog.each r.escPlaces (fun i => .all [bump (pgWell (r.well c i)) R.well_ESC_CNT, tellWatch 11]),
  modCroft c (fun k => { k with
    leat := k.leat ++ [s.recordOf c r]
    escs := k.escs ++ s.partsOf r
    runs := if r.n ≤ r.draw + 1 then k.runs.filter (fun x => x.serial != r.serial)
      else k.runs.map (fun x => if x.serial = r.serial then { r with draw := r.draw + 1, live := false } else x) }),
  setDrawing c r.args.wells false,
  leatStatus c])

/-- A slice-draw of run `r` has ended on every well with the codes of its `part`: stale wells are found, the check is evaluated, and the
run repeats the slice, goes on to the next or ends its draw (R81, R96, R124, R126, R127). -/
def sliceDrawEnds (c : Nat) (r : Run) : Prog := .get (fun s =>
  let lead := pgWell (r.well c 0)
  let r1 := s.afterSlot c r
  let avg := s.fld lead R.well_DRAWCFG_AVG
  let fails := if r1.rep = r1.nrep then s.confFails c r1 r1.nrep else []
  let r2 := (r1.failing (fails.map (·.1))).nextSlice
  .all [
    Prog.each ((List.range r.args.wells.length).filter (fun i => !(r1.held.contains i || r.idle i || r.edge.nan || r.edge.zero))) (fun i =>
      modWell (r.well c i) (fun k => { k with last := r.part.getD i noCodes })),
    Prog.each (s.newStale c r) (fun i => bump (pgWell (r.well c i)) R.well_STALE_CNT),
    if !(s.staleFaults c r).isEmpty then
      runFault c r ((s.staleFaults c r).map (fun i => (r.well c i, 6, s.orderOffset c r.idx)))
    else if r1.rep < r1.nrep then putRun c r1
    else .all [
      Prog.when (decide (r1.nrep = 1)) (Prog.each fails (fun f => bump (pgWell (r.well c f.1)) R.well_CONF_FAIL_CNT)),
      if r1.nrep = 1 ∧ !fails.isEmpty ∧ avg ≠ 0 then .all [bump lead R.well_REPEAT_CNT, putRun c (r1.averaging avg)]
      else .all [
        confEscalate c r1 r1.nrep (decide (r1.nrep ≠ 1)) fails,
        if s.fld lead R.well_DRAWCFG_SLICES ≤ r2.slice then drawEnds c r2 else putRun c r2]]])

/-- The places of a run whose codes count in a slice-draw of a draw that is finite and not zero (R90, R120, R125). -/
def Run.reads (r : Run) : List Nat :=
  (List.range r.args.wells.length).filter (fun i => !(r.idle i || r.edge.nan || r.edge.zero))

/-- The places whose codes clip a slice-draw (R93). -/
def Run.clips (r : Run) (codes : List (List Int)) : List Nat :=
  r.reads.filter (fun i => (codesAt codes i).any (fun x => decide (512 < x.natAbs)))

/-- The codes that a slice-draw gives, well by well: a clipped well gives none (R94). -/
def Run.slicePart (r : Run) (codes : List (List Int)) : List (List Int) :=
  (List.range r.args.wells.length).map (fun i =>
    if r.reads.contains i && !(r.clips codes).contains i then codesAt codes i else noCodes)

/-- A quarter's code, held at ±512 (R94). -/
def clampCode (x : Int) : Int := max (-512) (min 512 x)

/-- The places that draw a quarter and whose codes count. -/
def Run.quarterReads (r : Run) : List Nat := r.quartering.filter (fun i => !(r.idle i || r.edge.nan || r.edge.zero))

/-- The codes of a slice-draw after a quarter of it (R94). -/
def Run.quarterPart (r : Run) (codes : List (List Int)) : List (List Int) :=
  (List.range r.args.wells.length).map (fun i =>
    if r.quarterReads.contains i then addCodes (r.part.getD i noCodes) ((codesAt codes i).map clampCode) else r.part.getD i noCodes)

/-- DRAW_SLICE_END: the slice-draw of the run that well `w` leads ends. `codes` are the converters' codes, 512 data then 8 check
columns for each well of the run; a code beyond ±512 stands for a sum beyond full scale, which clips the draw (R93, R94). -/
def execDrawSliceEnd (w : WellId) (codes : List (List Int)) (s : State) : Host.Outcome State Fault Refusal :=
  Prog.next (.get (fun s =>
    let c := w.val / 16
    match s.runOf w.val with
    | none => .done
    | some r =>
      if !r.inSlot || r.quarter.isSome then .done
      else
        .all [
          Prog.each (List.range r.args.wells.length) (fun i => bump (pgWell (r.well c i)) R.well_DRAW_CNT),
          Prog.each (r.clips codes) (fun i => bump (pgWell (r.well c i)) R.well_QUARTER_CNT),
          if (r.clips codes).isEmpty then sliceDrawEnds c { r with part := r.slicePart codes }
          else putRun c { r with
            part := r.slicePart codes, inSlot := false, quarter := some 0, quartering := r.clips codes, status := r.status ||| 8 }])) s

/-- DRAW_QUARTER_END: a row quarter of a clipped or ALWAYS-quartered slice ends (R94, R95). -/
def execDrawQuarterEnd (w : WellId) (codes : List (List Int)) (s : State) : Host.Outcome State Fault Refusal :=
  Prog.next (.get (fun s =>
    let c := w.val / 16
    match s.runOf w.val with
    | none => .done
    | some r =>
      match r.inSlot, r.quarter with
      | true, some q =>
        .all [
          Prog.each r.quartering (fun i => bump (pgWell (r.well c i)) R.well_DRAW_CNT),
          Prog.each r.quarterReads (fun i => bumpBy (pgWell (r.well c i)) R.well_QSAT_CNT
            ((codesAt codes i).filter (fun x => decide (512 < x.natAbs))).length),
          if q < 3 then putRun c { r with part := r.quarterPart codes, inSlot := false, quarter := some (q + 1) }
          else sliceDrawEnds c { r with part := r.quarterPart codes }]
      | _, _ => .done)) s

/-- A slice-draw in a slot that overlaps a supply warning is discarded and drawn again (R134). -/
def discardSlots (c : Nat) : Prog := .get (fun s =>
  Prog.each ((s.croft c).runs.filter (·.inSlot)) (fun r => .all [
    Prog.each r.args.wells (fun w => bump (pgWell (c * 16 + w)) R.well_DIP_CNT),
    modRun c r.serial (fun r => { r with
      inSlot := false, quarter := none, quartering := [], part := [], status := r.status ||| 512 })]))

/-! ### Promotion (R97, R98) -/

/-- Promotion of one column from its A_k of each slice (R97). -/
def promote (e : Edge) (nrep : Nat) (scale : Nat) (as : List Int) : Nat :=
  let p := (List.zip as (List.range as.length)).foldl (fun t x => t + x.1 * 16 ^ x.2) 0
  let t := rne (Val.ofInt (p * 465) (e.s - 127 + e.c - e.m - 2 - Nat.log2 nrep) false)
  code32 (Val.mul t (f32 scale))

/-- The outputs of a draw's record, FP32 codes (R89, R90, R97). -/
def DrawRec.outputs (r : DrawRec) (scales : List Nat) : List Nat :=
  (List.range 512).map (fun j =>
    if r.edge.nan then 0x7FC00000
    else if r.edge.zero then 0
    else promote r.edge r.nrep (scales.getD j 0) (r.sums.map (fun sl => sl.getD j 0)))

def modRec (c serial draw : Nat) (f : DrawRec → DrawRec) : Prog :=
  modCroft c (fun k => { k with leat := k.leat.map (fun r => if r.serial = serial ∧ r.draw = draw then f r else r) })

/-- Write an output record: 512 FP32 values and the status word (R98). -/
def writeRecord (c : Nat) (r : DrawRec) : Prog :=
  store (byEngine 1 r.idx) (sliceAddr c r.out) (r.y.flatMap (toLe 4) ++ toLe 4 (r.status ||| 1))

/-- DRAW_PROMOTION_END: promotion of the oldest unpromoted draw of the run led by well `w` completes; its record is written once
every escalated part has completed (R97, R98, R128). -/
def execDrawPromotionEnd (w : WellId) (s : State) : Host.Outcome State Fault Refusal :=
  Prog.next (.get (fun s =>
    let c := w.val / 16
    match (s.croft c).leat.find? (fun r => r.wells.head? == some (w.val % 16) && !r.promoted) with
    | none => .done
    | some r => Prog.when (s.clockRuns c) (
      let r' := { r with promoted := true, y := r.outputs (s.well w.val).scales }
      .all [modRec c r.serial r.draw (fun _ => r'), Prog.when (decide (r.parts = 0)) (writeRecord c r')]))) s

/-! ### Escalated parts (R128 to R132, R170) -/

/-- The image column scales' fingerprint in the slice (R72, R129). -/
def State.imageFp (s : State) (c img : Nat) : Word := crc32 (s.bytes (sliceAddr c (img + 0x40000)) 0x800)

/-- An escalated part ends its DRAW with a plumb fault (R129, R145). -/
def plumbFault (c : Nat) (e : EscPart) (idx cause img : Nat) (ws : List Nat) : Prog := .all [
  pageFault (pgPlumb c) cause (sliceAddr c img), raiseLine (pgPlumb c), orderFault c idx 7, endDraw c e.serial e.draw ws]

/-- ESC_PART_START: the escalation pump takes the oldest part, unless its converter works or it has taken a part since its order's last
k-chunk boundary; its rights and the image's fingerprint are checked (R129, R132, R145, R170, R282). (DEDUCED, assumption 22) -/
def execEscPartStart (c : CroftId) (s : State) : Host.Outcome State Fault Refusal :=
  Prog.next (.get (fun s =>
    let k := s.croft c.val
    let pl := s.escPump c.val
    let p := pgPump (c.val * 4 + pl)
    let conv := match s.pumpRun (c.val * 4 + pl) with
      | some r => (r.conv.isSome && r.epi == 0) || r.served
      | none => false
    match k.escNow, k.escs with
    | none, e :: rest =>
      if conv || !s.clockRuns c.val then .done
      else
        let g := c.val * 16 + e.well
        let img := s.fld (pgWell g) R.well_IMG_ADDR_OFFSET
        match k.leat.find? (fun r => r.serial == e.serial && r.draw == e.draw) with
        | none => modCroft c.val (fun k => { k with escs := rest })
        | some rec' =>
          if s.underReset p then plumbFault c.val e rec'.idx 2 img rec'.wells
          else
            match s.bankMiss c.val pl false img 0x40800 with
            | some a => .all [collideHalt c.val (2 + pl) clBank (a / bankSize) rec'.idx a, endDraw c.val e.serial e.draw rec'.wells]
            | none => .all [engineReads c.val (2 + pl) rec'.idx [(img, 0x40800)], .get (fun s =>
              if s.imageFp c.val img ≠ s.reg (pgWell g) R.well_SCALE_FP_FP.off then plumbFault c.val e rec'.idx 1 img rec'.wells
              else .all [
                modCroft c.val (fun k => { k with escs := rest, escNow := some e }),
                setFld p R.pump_STATUS_ESCALATING 1,
                setBit p R.pump_STATUS_HELD (s.pumpRun (c.val * 4 + pl)).isSome,
                modPump (c.val * 4 + pl) (fun r => { r with esc := true, served := true })])]
    | _, _ => .done)) s

/-- The parts z_j of an escalated well (R128, R170). -/
def State.escValues (s : State) (c img : Nat) (e : Edge) (ew : EdgeWell) : List Val :=
  let levels := cuts 512 512 (s.bytes (sliceAddr c img) 0x40000)
  let scales := words32 (s.bytes (sliceAddr c (img + 0x40000)) 0x800)
  let sums := (List.zip ew.rows levels).foldl (fun acc x =>
    let q : Int := x.1.1 * (8 / 2 ^ x.1.2 : Nat)
    if q = 0 then acc else List.zipWith (fun a (b : Byte) => a + q * b.toInt) acc x.2) (List.replicate 512 (0 : Int))
  (List.zip sums scales).map (fun x =>
    rne (Val.mul (Val.ofInt x.1 (e.s - 127 + e.c - e.m - 3) false) (f32 x.2)))

/-- Croft cycles in a time in ns: cycles of 25 MHz × MULT (R288). -/
def State.croftCycles (s : State) (c t : Nat) : Nat := t * s.fld (pgCroft c) R.croft_CLK_CUR / 40

/-- ESC_PART_END: an escalated part ends and its result is added; the record is written with the draw's last part (R128, R170). -/
def execEscPartEnd (c : CroftId) (s : State) : Host.Outcome State Fault Refusal :=
  Prog.next (.get (fun s =>
    let k := s.croft c.val
    let pl := s.escPump c.val
    let p := pgPump (c.val * 4 + pl)
    match k.escNow with
    | none => .done
    | some e =>
      match k.leat.find? (fun r => r.serial == e.serial && r.draw == e.draw) with
      | none => .done
      | some r =>
        if !r.promoted || !s.clockRuns c.val then .done
        else
          let g := c.val * 16 + e.well
          let i := r.wells.findIdx (fun w => w == e.well)
          let zs := s.escValues c.val (s.fld (pgWell g) R.well_IMG_ADDR_OFFSET) r.edge (r.edge.wells.getD i ⟨[], 0, [], []⟩)
          let r' := { r with parts := r.parts - 1, y := List.zipWith (fun y z => code32 (Val.add (f32 y) z)) r.y zs }
          .all [
            bump p R.pump_ESC_PART_CNT,
            setFld p R.pump_ESC_LAST_WELL g,
            setFld p R.pump_ESC_LAST_CYCLES (min 0xFFFF (s.croftCycles c.val (s.now - e.due))),
            setFld p R.pump_STATUS_ESCALATING 0,
            setFld p R.pump_STATUS_HELD 0,
            modCroft c.val (fun k => { k with escNow := none }),
            modRec c.val r.serial r.draw (fun _ => r'),
            Prog.when (decide (r.parts ≤ 1)) (writeRecord c.val r')])) s

/-! ### The leat merge (R191 to R193) -/

/-- A leat term for one column: its pair, and for the NaN trap the group of one leat cycle it is added in. -/
structure LeatTerm where
  x : Val
  xe : Val
  /-- The cycle of the merge in which it is added. -/
  cycle : Nat
deriving DecidableEq, Repr

/-- The terms of column `j`, outlier rows first, then residual entries (R191, R192). `rows` are the wells' levels by row. -/
def State.leatTerms (s : State) (c : Nat) (r : DrawRec) (j : Nat) : List LeatTerm :=
  let places := List.range r.wells.length
  let ew (i : Nat) := r.edge.wells.getD i ⟨[], 0, [], []⟩
  let outl : List (Nat × Nat × Nat) := places.flatMap (fun i =>
    ((ew i).outliers.mergeSort (fun a b => decide (a.1 ≤ b.1))).map (fun o => (i, o.1, o.2)))
  let outTerms := (List.zip outl (List.range outl.length)).flatMap (fun x =>
    let i := x.1.1; let row := x.1.2.1; let v := fBF16.decode x.1.2.2
    let g := c * 16 + r.wells.getD i 0
    let img := s.fld (pgWell g) R.well_IMG_ADDR_OFFSET
    let lev := (s.byte (sliceAddr c (img + 512 * row + j))).toInt
    let a := Val.mul v (Val.ofInt lev 0 false)
    let pr := prodPair a (f32 ((s.well g).scales.getD j 0))
    let extra := ((s.well g).resid.filter (fun e => e.col == j && e.row == row)).map (fun e =>
      (⟨rne (Val.mul v (fBF16.decode e.val)), Val.zero false, 8 * x.2 + j / 64⟩ : LeatTerm))
    (⟨pr.s, pr.e, 8 * x.2 + j / 64⟩ : LeatTerm) :: extra)
  let n := 8 * outl.length
  let resAll : List (Nat × Residual) := places.flatMap (fun i => (s.well (c * 16 + r.wells.getD i 0)).resid.map (fun e => (i, e)))
  let resTerms := (List.zip resAll (List.range resAll.length)).filterMap (fun x =>
    let i := x.1.1; let e := x.1.2
    if e.col ≠ j ∨ (ew i).outliers.any (fun o => o.1 == e.row) then none
    else
      let inp := ((ew i).decoded.find? (fun d => d.1 == e.row)).map (·.2) |>.getD (Val.zero false)
      some (⟨rne (Val.mul (fBF16.decode e.val) inp), Val.zero false, n + x.2⟩ : LeatTerm))
  outTerms ++ resTerms

/-- One column's merge: its value, and the cycle in which an addition made it NaN from operands that are not, with its cause (R57,
R193). -/
def mergeColumn (y : Nat) (ts : List LeatTerm) : Nat × Option (Nat × Nat) :=
  let r := ts.foldl (fun (a : Pair × Option (Nat × Nat)) t =>
    let p := a.1.add t.x t.xe
    (p, if p.s.isNan && p.s.cause != 0 && a.2.isNone then some (t.cycle, p.s.cause) else a.2)) (⟨f32 y, Val.zero false⟩, none)
  (code32 r.1.val, if r.1.s.cause = 0 then none else r.2)

/-- The trap events of a merge in the order of their cycles: of each cycle its lowest cause, with the lowest column of that cause
(R57, R193). -/
def leatEvents (cols : List (Nat × Option (Nat × Nat))) : List (Nat × Nat) :=
  let es : List (Nat × Nat × Nat) := (List.zip cols (List.range cols.length)).filterMap (fun x => x.1.2.map (fun k => (k.1, k.2, x.2)))
  let rank (x : Nat × Nat × Nat) : Nat := (x.1 * 256 + x.2.1) * 1024 + x.2.2
  let sorted := es.mergeSort (fun a b => decide (rank a ≤ rank b))
  (sorted.foldl (fun (l : List (Nat × Nat × Nat)) x => if l.any (fun y => y.1 == x.1) then l else l ++ [x]) []).map (·.2)

/-- LEAT_MERGE_START: the leat takes the oldest record, once its draw is promoted and its escalated parts have completed (R192). -/
def execLeatMergeStart (c : CroftId) (s : State) : Host.Outcome State Fault Refusal :=
  Prog.next (.get (fun s =>
    match (s.croft c.val).leat with
    | r :: _ => Prog.when (r.promoted && decide (r.parts = 0) && !r.merging && s.clockRuns c.val && !s.underReset (pgMill c.val))
        (modRec c.val r.serial r.draw (fun r => { r with merging := true }))
    | [] => .done)) s

/-- The rows of levels that the merge of a record reads (R191). -/
def State.leatReads (s : State) (c : Nat) (r : DrawRec) : List (Nat × Nat) :=
  if r.edge.nan then []
  else (List.range r.wells.length).flatMap (fun i => ((r.edge.wells.getD i ⟨[], 0, [], []⟩).outliers).map (fun o =>
    (s.fld (pgWell (c * 16 + r.wells.getD i 0)) R.well_IMG_ADDR_OFFSET + 512 * o.1, 512)))

/-- LEAT_MERGE_END: the merged record is written in place; the DRAW completes with its last record (R192, R193, R246). A trap's record
gives the draw as ROW, BF16 as A and zero for the rest, which R193 leaves open (DESIGN CHOICE, assumption 126). -/
def execLeatMergeEnd (c : CroftId) (s : State) : Host.Outcome State Fault Refusal :=
  Prog.next (.get (fun s =>
    match (s.croft c.val).leat with
    | r :: _ =>
      if !r.merging || !s.clockRuns c.val then .done
      else .all [engineReads c.val 6 r.idx (s.leatReads c.val r), .get (fun s =>
        let terms := (List.range 512).map (fun j => if r.edge.nan then [] else s.leatTerms c.val r j)
        let n := (terms.map (·.length)).foldl (· + ·) 0
        let on := s.bit (pgMill c.val) R.mill_MILLCFG_LEAT
        let cols := (List.zip r.y terms).map (fun x => mergeColumn x.1 x.2)
        .all [
          modCroft c.val (fun k => { k with leat := k.leat.drop 1 }),
          if on then .all [
            store (byEngine 6 r.idx) (sliceAddr c.val r.out) ((cols.map (·.1)).flatMap (toLe 4)),
            bump (pgMill c.val) R.mill_LEAT_REC_CNT,
            bumpBy (pgMill c.val) R.mill_LEAT_TERM_CNT n,
            Prog.each (leatEvents cols) (fun x => trap c.val x.1 ⟨4, r.idx, r.draw, x.2, 0, 0, 1, 0, 0, 0⟩)]
          else Prog.when (decide (n ≠ 0)) (bump (pgMill c.val) R.mill_LEAT_DROP_CNT),
          leatStatus c.val,
          Prog.when r.final (dropOrder c.val r.serial)])]
    | [] => .done)) s

end Sys2Proof.Machine
end

