-- ==== Sys2Proof/Machine/Pump.lean ====
section
/-! DEFINITION. Pumps: start checks, block products and their sums, conversion, tile retry, and the epilogues the mill completes
(R146 to R180, R200, R207 to R215). -/
namespace Sys2Proof.Machine

/-! ### Shapes and chunks -/

/-- Tile rows, tile columns and cell groups of a shape code (R148). -/
def shapeOf : Nat → Nat × Nat × Nat
  | 0 => (64, 64, 1) | 1 => (128, 32, 1) | 2 => (32, 128, 1) | 3 => (64, 32, 2) | 4 => (32, 32, 4)
  | _ => (16, 16, 16)

/-- Largest block size of a block-scaled C; a reserved shape gives none (R148). -/
def shapeBlock : Nat → Nat
  | 0 => 64 | 2 => 128 | 5 => 16 | 6 => 128 | 7 => 128 | _ => 32

/-- `n / k` rounded up. -/
def ceilDiv (n k : Nat) : Nat := (n + k - 1) / max 1 k

/-- Length of a k-chunk: the block size of the scaled operand, else 64 (R60, R152, R156). -/
def chunkLen (a b : TRef) : Nat := if a.bsize ≠ 0 then a.bsize else if b.bsize ≠ 0 then b.bsize else 64

/-- Whether an operand pair is narrow (R146). -/
def narrowPair (a : TRef) : Bool := decide (3 ≤ a.fmt)

def PumpRun.tileCols (r : PumpRun) : Nat := ceilDiv r.args.n (shapeOf r.shape).2.1
def PumpRun.tileRows (r : PumpRun) : Nat := ceilDiv r.args.m (shapeOf r.shape).1
/-- Row and column of the tile in progress: columns inner (R149). -/
def PumpRun.tileRow (r : PumpRun) : Nat := r.tile / max 1 r.tileCols
def PumpRun.tileCol (r : PumpRun) : Nat := r.tile % max 1 r.tileCols

/-- Rows of tile row `i` and columns of tile column `j` that lie in the output (R149). -/
def PumpRun.rowsIn (r : PumpRun) (i : Nat) : Nat := min (shapeOf r.shape).1 (r.args.m - i * (shapeOf r.shape).1)
def PumpRun.colsIn (r : PumpRun) (j : Nat) : Nat := min (shapeOf r.shape).2.1 (r.args.n - j * (shapeOf r.shape).2.1)

/-! ### Products -/

/-- Element of an operand at row or column `i` and contraction place `k` (R153, R174, R248). -/
def State.operand (s : State) (c : Nat) (t : TRef) (dim len i k : Nat) (her : Bool) : Val :=
  if t.trans then s.elem c her t dim k i else s.elem c her t len i k

/-- The exact sum of a narrow chunk's products, by the flags of R158, with the first place of a 0 × infinity product. -/
def chunkValue (ps : List (Val × Val)) : Val × Option Nat :=
  let prods := ps.map (fun x => Val.mul x.1 x.2)
  let inv := prods.findIdx? (fun v => v.cause == 1)
  if ps.any (fun x => x.1.isNan || x.2.isNan) then (.nan false 0 0, none)
  else
    match inv with
    | some i => (.nan false 0 1, some i)
    | none =>
      if prods.any (fun v => v == .inf false) then
        (if prods.any (fun v => v == .inf true) then .nan false 0 2 else .inf false, none)
      else if prods.any (fun v => v == .inf true) then (.inf true, none)
      else
        match prods with
        | [] => (Val.zero false, none)
        | v :: vs => (vs.foldl Val.add v, none)

/-- The pair of a chunk's result (R157). -/
def chunkPair (v : Val) : Pair :=
  let hi := rne v
  ⟨hi, if hi.isFin then (let lo := rne (Val.sub v hi); if lo.isZero then Val.zero false else lo) else Val.zero false⟩

/-- Add a pair to a sum that may not have started (R160). -/
def addTo (s : Option Pair) (p : Pair) : Option Pair :=
  match s with
  | none => some p
  | some q => some (q.add p.s p.e)

/-- Heritage addition into one FP32 value: rounded and flushed (R174). -/
def flush32 (v : Val) : Val :=
  match v with
  | .fin n m e => if Val.magLt m e 1 (-126) then Val.zero n else v
  | v => v

def addHeritage (s : Option Pair) (x : Val) : Option Pair :=
  match s with
  | none => some ⟨x, Val.zero false⟩
  | some q => some ⟨flush32 (rne (Val.add q.s x)), Val.zero false⟩

/-- What one chunk does to one cell: its sum after it, the place of a 0 × infinity product, and the peel terms added. -/
structure CellStep where
  sum : Option Pair
  bad : Option Nat
  terms : Nat
  /-- An operand was a NaN, or its scale 0xFF (R64). -/
  nanIn : Bool
deriving DecidableEq, Repr

/-- One cell's chunk (R157 to R161, R164, R174). `ops` are the operands and `peel` the peel terms' factors by place. -/
def cellChunk (narrow her : Bool) (start : Option Pair) (ops : List (Val × Val)) (peel : List (Nat × Val × Val)) : CellStep :=
  let nanIn := ops.any (fun x => x.1.isNan || x.2.isNan) || peel.any (fun x => x.2.1.isNan || x.2.2.isNan)
  if her then
    let r := (List.zip ops (List.range ops.length)).foldl (fun (a : Option Pair × Option Nat) x =>
      let p := Val.mul x.1.1 x.1.2
      let a1 := addHeritage a.1 (flush32 (rne p))
      let a2 := if a.2.isNone && p.cause == 1 then some x.2 else a.2
      ((peel.filter (fun t => t.1 == x.2)).foldl (fun q t => addHeritage q (flush32 (rne (Val.mul t.2.1 t.2.2)))) a1, a2)) (start, none)
    ⟨r.1, r.2, peel.length, nanIn⟩
  else
    let base : Option Pair × Option Nat :=
      if narrow then
        let v := chunkValue ops
        (addTo start (chunkPair v.1), v.2)
      else
        (List.zip ops (List.range ops.length)).foldl (fun (a : Option Pair × Option Nat) x =>
          let p := Val.mul x.1.1 x.1.2
          (addTo a.1 ⟨rne p, Val.zero false⟩, if a.2.isNone && p.cause == 1 then some x.2 else a.2)) (start, none)
    ⟨peel.foldl (fun q t => addTo q ⟨rne (Val.mul t.2.1 t.2.2), Val.zero false⟩) base.1, base.2, peel.length, nanIn⟩

/-- The peel value of flattened element `i`, if peeled (R54); in heritage mode a subnormal one is zero (R174, R202). -/
def peelAt (her : Bool) (ps : List (Nat × Nat)) (i : Nat) : Option Val :=
  (ps.find? (fun e => e.1 == i)).map (fun e => fBF16.decodeOp her e.2)

/-- One chunk of the tile in progress, for every cell in row-major order. -/
def State.tileChunk (s : State) (c : Nat) (r : PumpRun) (start : List (Option Pair)) : List CellStep :=
  let a := s.asRead c r.args.a
  let b := s.asRead c r.args.b
  let her := s.bit pgNum R.numstep_CFG_HERITAGE
  let len := chunkLen a b
  let k0 := r.chunk * len
  let n := min len (r.args.k - k0)
  let dims := shapeOf r.shape
  let i0 := r.tileRow * dims.1
  let j0 := r.tileCol * dims.2.1
  let pa := s.peels c a
  let pb := s.peels c b
  let rowOps := (List.range (r.rowsIn r.tileRow)).map (fun i =>
    (List.range n).map (fun k => (s.operand c a r.args.m r.args.k (i0 + i) (k0 + k) her, peelAt her pa ((i0 + i) * r.args.k + k0 + k))))
  let colOps := (List.range (r.colsIn r.tileCol)).map (fun j =>
    (List.range n).map (fun k => (s.operand c b r.args.n r.args.k (j0 + j) (k0 + k) her, peelAt her pb ((j0 + j) * r.args.k + k0 + k))))
  let cells := rowOps.flatMap (fun x => colOps.map (fun y => (x, y)))
  (List.zip cells start).map (fun z =>
    let both := List.zip z.1.1 z.1.2
    let peel := (List.zip both (List.range n)).filterMap (fun w =>
      if w.1.1.2.isSome || w.1.2.2.isSome then some (w.2, w.1.1.2.getD w.1.1.1, w.1.2.2.getD w.1.2.1) else none)
    cellChunk (narrowPair a) her z.2 (both.map (fun w => (w.1.1, w.2.1))) peel)

/-! ### Start -/

/-- The scale record an order of the croft names, if its result is DELAYED (R208). -/
def State.recOf (s : State) (c : Nat) (o : Issued) : Option Nat :=
  match decodeOrder o.word with
  | .ok (.pump _ _ _ a) => if (s.pumpArgs c a).hasRec then some (s.pumpArgs c a).rc else none
  | .ok (.mill _ a) => if (s.millArgs c a).hasRec then some (s.millArgs c a).rc else none
  | _ => none

/-- The checks of a DELAYED result's scale record (R208): cause 0x02, or 0x01 where it is out of place. -/
def State.recordChecks (s : State) (c : Nat) (t : TRef) (has : Bool) (rc flagsAt recAt : Nat) : List Check :=
  if t.smode = 1 then
    [⟨!has, 2, flagsAt⟩, ⟨has && (rc % 64 != 0 || !inSlice rc 128), 1, recAt⟩, ⟨has && inSlice rc 128 && !s.recordOk c rc, 2, rc⟩]
  else []

/-- Effective row pitch of an operand. -/
def TRef.rowPitch (t : TRef) (len : Nat) : Nat := if t.pitch = 0 then t.format.bytes len else t.pitch

/-- Bytes of the scratch region of a NORM_BWD epilogue: 64 rows of the output width in FP32 (R172). -/
def scratchBytes (n : Nat) : Nat := 64 * n * 4

/-- The checks of a PUMP order (R147 to R154, R171, R172, R180, R208, R563). `at'` is the slice offset of the order's word. -/
def State.pumpChecks (s : State) (c args shape epi at' : Nat) (wide bnd : Bool) : List Check :=
  let p := s.pumpArgs c args
  let a := s.asRead c p.a
  let b := s.asRead c p.b
  let w := asWritten wide bnd p.c
  let d := shapeOf shape
  let dim (t : TRef) (n : Nat) : Nat × Nat := if t.trans then (p.k, n) else (n, p.k)
  let oper (t plan : TRef) (o n : Nat) : List Check :=
    s.refChecks c t plan o (dim t n).1 (dim t n).2 1 9 2 2 true ++
    [⟨t.fmt == 0, 2, o + 3⟩,
     ⟨t.bsize != 0 && p.k % max 1 t.bsize != 0, 2, o + 7⟩,
     ⟨t.trans && t.bsize != 0, 4, o + 15⟩,
     ⟨t.trans && t.bsize == 0 && !(decide (1 ≤ t.fmt) && decide (t.fmt ≤ 4)), 2, o + 15⟩,
     ⟨t.trans && t.rowPitch n % 128 != 0, 5, o + 12⟩]
  let epiRef (t : TRef) (o rows len fmt : Nat) : List Check :=
    s.refChecks c t t o rows len 1 9 2 2 false ++ [⟨t.fmt != fmt || t.bsize != 0, 2, o + 3⟩]
  oper a a args p.m ++ oper b b (args + 0x10) p.n ++
  s.refChecks c w p.c (args + 0x20) p.m p.n 1 9 2 2 false ++
  s.recordChecks c w p.hasRec p.rc (args + 0x74) (args + 0x6C) ++
  refForm p.e0 (args + 0x30) 2 ++ refForm p.e1 (args + 0x40) 2 ++ refForm p.e2 (args + 0x50) 2 ++
  (if epi = 0 then [] else if epi = 1 then epiRef p.e0 (args + 0x30) p.m p.n 1 ++ epiRef p.e1 (args + 0x40) p.m 1 0
    else epiRef p.e0 (args + 0x30) p.m p.n 1 ++ epiRef p.e1 (args + 0x40) 1 p.n 1 ++ epiRef p.e2 (args + 0x50) p.m 1 0 ++
      [⟨!inSlice p.scratch (scratchBytes p.n), 9, args + 0x70⟩]) ++
  [⟨narrowPair a != narrowPair b, 2, args + 0x13⟩,
   ⟨a.bsize != 0 && b.bsize != 0 && a.bsize != b.bsize, 3, args + 0x17⟩,
   ⟨w.bsize != 0 && p.n % max 1 w.bsize != 0, 2, args + 0x27⟩,
   ⟨w.bsize != 0 && decide (shapeBlock shape < w.bsize), 6, args + 0x27⟩,
   ⟨decide (6 ≤ shape), 7, at'⟩,
   ⟨decide (p.m = 0) || decide (65536 < ceilDiv p.m d.1), 7, args + 0x60⟩,
   ⟨decide (p.n = 0) || decide (65536 < ceilDiv p.n d.2.1), 7, args + 0x64⟩,
   ⟨decide (p.k = 0) || decide (2 ^ 24 < ceilDiv p.k (chunkLen a b)), 7, args + 0x68⟩,
   ⟨decide (2 ≤ p.flags), 2, args + 0x74⟩, ⟨p.reserved != 0, 2, args + 0x78⟩]

/-- The slice regions that the chunk in progress reads of its operands (R152, R153). -/
def State.chunkRegions (s : State) (c : Nat) (r : PumpRun) : List (Nat × Nat) :=
  let a := s.asRead c r.args.a
  let b := s.asRead c r.args.b
  let len := chunkLen a b
  let k0 := r.chunk * len
  let n := min len (r.args.k - k0)
  let part (t : TRef) (dim i0 m : Nat) : List (Nat × Nat) :=
    if t.trans then s.partRegions c t dim k0 n i0 m else s.partRegions c t r.args.k i0 m k0 n
  part a r.args.m (r.tileRow * (shapeOf r.shape).1) (r.rowsIn r.tileRow) ++
  part b r.args.n (r.tileCol * (shapeOf r.shape).2.1) (r.colsIn r.tileCol)

/-- A PUMP order's block has been read: its checks, then the rights of its regions, and the pump takes it up (R173, R208, R274). -/
def beginPump (c : Nat) (o : Issued) (pl shape epi args : Nat) (bnd : Bool) : Prog := .get (fun s =>
  let g := c * 4 + pl
  let p := s.pumpArgs c args
  let w := asWritten o.wide bnd p.c
  let a := s.asRead c p.a
  let b := s.asRead c p.b
  match firstFault (s.pumpChecks c args shape epi (s.orderOffset c o.idx) o.wide bnd) with
  | some (cause, x) => engineFault c (pgPump g) cause x (2 + pl) o.serial o.idx
  | none =>
    let cRegs := s.regions c w p.m p.n
    let recReg := if w.smode = 1 then [(p.rc, 128)] else []
    let da := if a.trans then s.regions c a p.k p.m else s.regions c a p.m p.k
    let db := if b.trans then s.regions c b p.k p.n else s.regions c b p.n p.k
    let writer := if epi = 0 then pl else agMill
    let epiReads := if epi = 0 then [] else if epi = 1 then s.regions c p.e0 p.m p.n ++ s.regions c p.e1 p.m 1
      else s.regions c p.e0 p.m p.n ++ s.regions c p.e1 1 p.n ++ s.regions c p.e2 p.m 1
    let scratch := if 2 ≤ epi then [(p.scratch, scratchBytes p.n)] else []
    match firstSome [s.bankColl c pl false (da ++ db), s.bankColl c agMill false epiReads,
        s.bankColl c writer true (cRegs ++ recReg ++ scratch)] with
    | some m => startCollides c o m.cls m.index m.addr
    | none =>
      let run : PumpRun := {
        serial := o.serial, idx := o.idx, shape := shape, epi := epi, bnd := bnd, layer := orderLayer o.word, args := p
        scale := if w.smode = 1 then s.sl c p.rc 1 else 0 }
      .all [
        markStarted c o.serial,
        eff (.pump g run),
        setFld (pgPump g) R.pump_STATUS_BUSY 1,
        setBit (pgPump g) R.pump_STATUS_FUSED (epi != 0),
        setFld (pgPump g) R.pump_STATUS_SHAPE shape,
        setReg (pgPump g) R.pump_ORDER_IDX_INDEX.off (BitVec.ofNat 32 o.idx),
        setReg (pgPump g) R.pump_TILE_POS_ROW.off 0,
        noteWide c o.wide bnd p.c p.m p.n,
        Prog.when (epi != 0) (.all [
          setFld (pgMill c) R.mill_STATUS_EPILOGUE 1, setFld (pgMill c) R.mill_STATUS_EPI_PUMP pl])])

/-- A PUMP order starts: the pump's right and the epilogue's, then the block (R173, R208, R245, R274, R283). -/
def startPump (c : Nat) (o : Issued) (pl shape epi args : Nat) (bnd : Bool) : Prog := .get (fun s =>
  let g := c * 4 + pl
  let at' := s.orderOffset c o.idx
  let p := s.pumpArgs c args
  let earlier := (s.reeve c).orders.any (fun x => x.unit == o.unit && decide (x.serial < o.serial))
  if earlier || (s.pumpRun g).isSome || s.underReset (pgPump g) ||
    (p.hasRec && s.recordBusy c o.serial p.rc (s.recOf c)) then .done
  else if !s.pumpRight c pl then startCollides c o clPump pl at'
  else if epi ≠ 0 ∧ !s.epiRight c pl then startCollides c o clMill 0 at'
  else
    match s.bankColl c pl false [(args, 128)] with
    | some m => startCollides c o m.cls m.index m.addr
    | none => .all [
        argReads c (2 + pl) o.idx args 128 (fun s => let p := s.pumpArgs c args; if p.hasRec then [(p.rc, 128)] else []),
        beginPump c o pl shape epi args bnd])

/-! ### Chunks -/

/-- A pump's run and its registers end; the order is complete or has ended with a fault (R246, R177). -/
def pumpEnd (g : Nat) (r : PumpRun) : Prog := .all [
  eff (.pumpErase g (g + 1)),
  setFld (pgPump g) R.pump_STATUS_BUSY 0,
  setFld (pgPump g) R.pump_STATUS_FUSED 0,
  setFld (pgPump g) R.pump_STATUS_RETRYING 0,
  setFld (pgPump g) R.pump_STATUS_HELD 0,
  setFld (pgPump g) R.pump_STATUS_SHAPE 0,
  Prog.when (r.epi != 0) (.all [
    setFld (pgMill (g / 4)) R.mill_STATUS_EPILOGUE 0, setFld (pgMill (g / 4)) R.mill_STATUS_EPI_PUMP 0])]

/-- The C of a PUMP order as it is written (R214). -/
def State.pumpOut (s : State) (c : Nat) (r : PumpRun) : TRef := asWritten (s.orderWide c r.serial) r.bnd r.args.c

/-- LAST_DONE of an order (R177). -/
def PumpRun.lastDone (r : PumpRun) : Nat :=
  (if r.retried then 1 else 0) + (if r.retryFail then 2 else 0) + (if r.ovf then 4 else 0) + (if r.invalid then 8 else 0) +
  (if r.infOut then 16 else 0) + (if r.esc then 32 else 0)

/-- A PUMP order completes: its record is updated and LAST_DONE rewritten (R169, R177, R209, R246). -/
def pumpDone (g : Nat) : Prog := .get (fun s =>
  match s.pumpRun g with
  | none => .done
  | some r =>
    let c := g / 4
    let w := s.pumpOut c r
    .all [
      Prog.when (w.smode == 1) (updateRecord (byEngine (if r.epi = 0 then 2 + g % 4 else 6) r.idx) c r.args.rc w.format r.amax r.retried),
      setReg (pgPump g) R.pump_LAST_DONE_RETRIED.off (BitVec.ofNat 32 r.lastDone),
      pumpEnd g r,
      dropOrder c r.serial])

/-- The sums of a tile, its groups or chunks combined (R162, R163). -/
def finalSums (sums : List (List (Option Pair))) (n : Nat) : List Pair :=
  (List.range n).map (fun i =>
    (pairLevels 32 ((sums.map (fun g => g.getD i none)).filter (·.isSome))).getD ⟨Val.zero false, Val.zero false⟩)

/-- The sums with those of group `g` replaced. -/
def setGroup (sums : List (List (Option Pair))) (g : Nat) (v : List (Option Pair)) : List (List (Option Pair)) :=
  if g < sums.length then sums.set g v else sums ++ List.replicate (g - sums.length) [] ++ [v]

/-- A k-chunk whose operands have been read enters the sums of the tile's cells; with the last chunk the tile goes to its conversion
(R150 to R164, R174, R180). -/
def chunkSums (g : Nat) (r : PumpRun) : Prog := .get (fun s =>
  let c := g / 4
  let a := s.asRead c r.args.a
  let b := s.asRead c r.args.b
  let her := s.bit pgNum R.numstep_CFG_HERITAGE
  let final := decide (ceilDiv r.args.k (chunkLen a b) ≤ r.chunk + 1)
  match firstSome [s.peelBad c a (r.args.m * r.args.k), s.peelBad c b (r.args.n * r.args.k)] with
  | some x => .all [engineFault c (pgPump g) 8 x (2 + g % 4) r.serial r.idx, pumpEnd g r]
  | none =>
    let cells := r.rowsIn r.tileRow * r.colsIn r.tileCol
    let tree := s.bit (pgPump g) R.pump_PUMPCFG_SUM_ORDER && !her
    let grp := if her then 0 else if tree then r.chunk else r.chunk % (shapeOf r.shape).2.2
    let start := if tree then List.replicate cells none
      else let old := r.sums.getD grp []
        if old.isEmpty then List.replicate cells none else old
    let steps := s.tileChunk c r start
    let sums := setGroup r.sums grp (steps.map (·.sum))
    let bads := steps.filterMap (·.bad)
    let bad := match r.bad, bads with
      | some x, _ => some x
      | none, [] => none
      | none, x :: xs => some (r.chunk, xs.foldl min x)
    let nInv := if narrowPair a && !her then bads.length else 0
    let nan := steps.any (·.nanIn)
    let next := if final && decide (r.tile + 1 < r.tileRows * r.tileCols) then { r with tile := r.tile + 1 } else r
    .all [
      bump (pgPump g) R.pump_CHUNK_CNT,
      bumpBy (pgPump g) R.pump_INVALID_BLK_CNT nInv,
      bumpBy (pgPump g) R.pump_PEEL_TERM_CNT ((steps.map (·.terms)).foldl (· + ·) 0),
      setFld (pgPump g) R.pump_TILE_POS_ROW next.tileRow,
      setFld (pgPump g) R.pump_TILE_POS_COL next.tileCol,
      countNanIn c r.nanSeen nan,
      modPump g (fun r =>
        let r := { r with nanSeen := r.nanSeen || nan, invalid := r.invalid || decide (nInv ≠ 0), bad := bad, served := false }
        if final then { r with
          conv := some ⟨r.tileRow, r.tileCol, finalSums sums cells, bad, false⟩
          tile := r.tile + 1, chunk := 0, sums := [], bad := none }
        else { r with chunk := r.chunk + 1, sums := sums })])

/-- PUMP_CHUNK_END: a k-chunk's operands are read and its result enters the tile, unless an escalated part holds the pump or the tile
before it still waits for its conversion (R150 to R164, R170). -/
def execPumpChunkEnd (p : PumpId) (s : State) : Host.Outcome State Fault Refusal :=
  Prog.next (.get (fun s =>
    let g := p.val
    let c := g / 4
    match s.pumpRun g with
    | none => .done
    | some r =>
      let final := decide (ceilDiv r.args.k (chunkLen (s.asRead c r.args.a) (s.asRead c r.args.b)) ≤ r.chunk + 1)
      let held := (s.croft c).escNow.isSome && s.escPump c == g % 4
      if held || !s.clockRuns c || s.underReset (pgPump g) || decide (r.tileRows * r.tileCols ≤ r.tile) || (final && r.conv.isSome) then .done
      else .all [engineReads c (2 + g % 4) r.idx (s.chunkRegions c r), chunkSums g r])) s

/-! ### Conversion -/

/-- A tile's elements converted row by row (R165). `dsc` is the scale byte of a DELAYED C. (DESIGN CHOICE, assumption 17) -/
def convTile (t : TRef) (cm : ConvMode) (lane : Nat → Nat) (dsc room : Nat) (n row0 col0 cols : Nat) (vals : List Val) (rng : Rng) : Conv :=
  let rows := cuts cols (vals.length / max 1 cols) vals
  (List.zip rows (List.range rows.length)).foldl (fun k x =>
    convert t cm (fun i => lane (x.2 * cols + i)) dsc room ((row0 + x.2) * n + col0) x.1 k) { rng := rng }

/-- Write a converted tile of a result of `m` rows: elements, scales and peel entries together (R169). `peel0` entries stand
already. -/
def writeTile (src : Option Source) (c : Nat) (t : TRef) (m n row0 col0 cols peel0 : Nat) (k : Conv) : Prog :=
  let f := t.format
  let rows := cuts cols (k.codes.length / max 1 cols) k.codes
  .all [
    Prog.each (List.zip rows (List.range rows.length)) (fun x =>
      if t.bsize = 0 ∧ t.pitch ≠ 0 then storeCodes src c (t.elem + (row0 + x.2) * t.pitch) f 0 col0 x.1
      else storeCodes src c t.elem f (m * n) ((row0 + x.2) * n + col0) x.1),
    Prog.when (t.bsize != 0) (
      let per := cols / max 1 t.bsize
      let sr := cuts per (k.scales.length / max 1 per) k.scales
      Prog.each (List.zip sr (List.range sr.length)) (fun x =>
        storeScales src c t.scale (m * n / max 1 t.bsize) (((row0 + x.2) * n + col0) / max 1 t.bsize) x.1)),
    storePeels src c t peel0 k.peels]

/-- Lane of the i-th element of a pump's tile (R43, R165). -/
def pumpLane (pl i : Nat) : Nat := 128 + 64 * pl + i % 64

/-- Peel entries that stand before a tile is written: none before an order's first tile (R52). -/
def State.peelsBefore (s : State) (c : Nat) (t : TRef) (first : Bool) : Nat :=
  if first || !t.hasPeel || t.bsize = 0 then 0 else s.sl c t.peel 4

/-- The values a tile converts: its sums, exact (R160), and its largest finite FP32 magnitude (R209). -/
def tileVals (sums : List Pair) : List Val := sums.map (·.val)
def amaxOf (a : Val) (vs : List Val) : Val := maxMag (a :: vs.map rne)

/-- The last write of a pump's tile: its counts, traps and flags, and with the order's last tile its completion (R57, R64, R166 to
R169, R178). `again` says that this is the retry. TRAP_FMT shows the formats operands are read in. (DESIGN CHOICE, assumption 125) -/
def pumpWrite (g : Nat) (r : PumpRun) (tc : TileConv) (w : TRef) (k : Conv) (peel0 : Nat) (again : Bool) : Prog := .get (fun s =>
  let c := g / 4
  let pl := g % 4
  let dims := shapeOf r.shape
  let pol := s.bit (pgPump g) R.pump_PUMPCFG_OVF_POLICY
  let her := s.bit pgNum R.numstep_CFG_HERITAGE
  let kpos := s.kPlace tc.bad
  .all [
    writeTile (byEngine (2 + pl) r.idx) c w r.args.m r.args.n (tc.row * dims.1) (tc.col * dims.2.1) (r.colsIn tc.col) peel0 k,
    keepRng c k.rng,
    countConv c k,
    bump (pgPump g) R.pump_TILE_CNT,
    Prog.when (r.args.a.trans || r.args.b.trans) (bump (pgPump g) R.pump_TRANS_TILE_CNT),
    Prog.when her (bump (pgPump g) R.pump_HERITAGE_TILE_CNT),
    Prog.when k.toInf (bump (pgPump g) R.pump_INF_OUT_CNT),
    eff .seq,
    Prog.each (trapGroups 64 k.causes) (fun x =>
      trap c x.2 ⟨pl, r.idx, tc.row, tc.col, kpos.1, kpos.2, (s.asRead c r.args.a).fmt, (s.asRead c r.args.b).fmt, w.fmt, w.rnd⟩),
    Prog.when k.ovf (.all [
      bump (pgPump g) R.pump_OVF_CNT,
      Prog.when again (bump (pgPump g) R.pump_RETRY_FAIL_CNT),
      reportOvf c r.layer pol (if w.smode = 1 then some r.args.rc else none)]),
    setFld (pgPump g) R.pump_STATUS_RETRYING 0,
    modPump g (fun r => { r with
      conv := none, retried := r.retried || again, retryFail := r.retryFail || (again && k.ovf),
      ovf := r.ovf || k.ovf, infOut := r.infOut || k.toInf }),
    .get (fun s =>
      match s.pumpRun g with
      | some r => Prog.when (decide (r.tileRows * r.tileCols ≤ r.tile) && r.conv.isNone) (pumpDone g)
      | none => .done)])

/-- The conversion of the tile that waits, at a scale byte; a DELAYED scale beyond 0xFE is written as 0xFF (R165, R167). -/
def State.pumpConv (s : State) (g : Nat) (r : PumpRun) (tc : TileConv) (w : TRef) (scale : Nat) : Conv :=
  let c := g / 4
  let dims := shapeOf r.shape
  let first := decide (tc.row = 0 ∧ tc.col = 0)
  convTile w (s.convMode c) (pumpLane (g % 4)) (min scale 0xFF) (s.peelCap c w - s.peelsBefore c w first) r.args.n
    (tc.row * dims.1) (tc.col * dims.2.1) (r.colsIn tc.col) (tileVals tc.sums) (s.rng c)

/-- PUMP_CONVERSION_END: a tile's conversion ends: it is written, or retried after an overflow event of a DELAYED C under
TILE_RETRY (R165 to R168). -/
def execPumpConversionEnd (p : PumpId) (s : State) : Host.Outcome State Fault Refusal :=
  Prog.next (.get (fun s =>
    let g := p.val
    let c := g / 4
    match s.pumpRun g with
    | none => .done
    | some r =>
      match r.conv with
      | none => .done
      | some tc =>
        if tc.retry || decide (r.epi ≠ 0) || !s.clockRuns c || s.underReset (pgPump g) then .done
        else
          let w := s.pumpOut c r
          let k := s.pumpConv g r tc w r.scale
          .all [
            modPump g (fun r => { r with amax := amaxOf r.amax (tileVals tc.sums) }),
            if k.ovf && w.smode == 1 && !s.bit (pgPump g) R.pump_PUMPCFG_OVF_POLICY then .all [
              keepRng c k.rng,
              bump (pgPump g) R.pump_RETRY_CNT,
              setFld (pgPump g) R.pump_STATUS_RETRYING 1,
              modPump g (fun r => { r with conv := some { tc with retry := true } })]
            else pumpWrite g r tc w k (s.peelsBefore c w (decide (tc.row = 0 ∧ tc.col = 0))) false])) s

/-- PUMP_RETRY_END: the held sums are converted again with every scale byte raised by 4, and the tile is written (R167). -/
def execPumpRetryEnd (p : PumpId) (s : State) : Host.Outcome State Fault Refusal :=
  Prog.next (.get (fun s =>
    let g := p.val
    let c := g / 4
    match s.pumpRun g with
    | none => .done
    | some r =>
      match r.conv with
      | none => .done
      | some tc =>
        if !tc.retry || !s.clockRuns c || s.underReset (pgPump g) then .done
        else
          let w := s.pumpOut c r
          pumpWrite g r tc w (s.pumpConv g r tc w (raisedScale r.scale)) 0 true)) s

/-! ### Epilogues (R171, R172, R200) -/

/-- The lane pairs of R186 combined, of elements that enter as pairs; none for no element. -/
def lanePairs (ps : List Pair) : Option Pair :=
  pairLevels 8 ((List.range (min 128 ps.length)).map (fun i =>
    ((List.range ((ps.length - i + 127) / 128)).map (fun k => ps.getD (i + 128 * k) ⟨Val.zero false, Val.zero false⟩)).foldl
      addTo none))

/-- A row sum in the order of R186 of elements that enter as pairs. -/
def rowSum (ps : List Pair) : Val :=
  match lanePairs ps with
  | some p => rne p.val
  | none => Val.zero false

/-- A value as a pair without error term. -/
def asPair (v : Val) : Pair := ⟨v, Val.zero false⟩

/-- One arithmetic step of the mill: rounded to FP32 with RNE, and flushed in heritage mode (R181, R202). -/
def step32 (her : Bool) (v : Val) : Val := if her then flush32 (rne v) else rne v

/-- A row sum: R186's, or one value at a time in heritage mode (R202). -/
def sumRow (her : Bool) (ps : List Pair) : Val :=
  if her then
    match ps with
    | [] => Val.zero false
    | p :: rest => rest.foldl (fun a q => flush32 (rne (Val.add a q.s))) p.s
  else rowSum ps

/-- One row of the NORM_BWD result (R171): every step rounded to FP32, in heritage mode as R202 has it. -/
def normBwdRow (her layer : Bool) (rstd : Val) (g x dy : List Val) : List Val :=
  let n := Val.ofInt dy.length 0 false
  let mulEach (a b : List Val) : List Val := List.zipWith (fun u v => step32 her (Val.mul u v)) a b
  let gd := mulEach g dy
  let gxd := mulEach (mulEach g x) dy
  let m := step32 her (Val.div (sumRow her (gxd.map asPair)) n)
  let m0 := step32 her (Val.div (sumRow her (gd.map asPair)) n)
  List.zipWith (fun a b =>
    let t := step32 her (Val.sub a (step32 her (Val.mul b m)))
    let t := if layer then step32 her (Val.sub t m0) else t
    step32 her (Val.mul rstd t)) gd x

/-- The mill's conversion of the values of an epilogue's tile, as one stretch, and whether it is its retry (R166, R167, R198). The values
are row by row in a part of the output that begins at `row0`, `col0` and is `cols` wide. -/
def State.epiConv (s : State) (c : Nat) (r : PumpRun) (w : TRef) (row0 col0 cols : Nat) (vals : List Val) : Conv × Bool :=
  let room := s.peelCap c w - s.peelsBefore c w (decide (r.wrote = 0))
  let conv (scale : Nat) (rng : Rng) : Conv :=
    convTile w (s.convMode c) (fun i => (r.wrote + i) % 128) scale room r.args.n row0 col0 cols vals rng
  let k := conv r.scale (s.rng c)
  if k.ovf && w.smode == 1 && !s.bit (pgMill c) R.mill_MILLCFG_OVF_POLICY then (conv (raisedScale r.scale) k.rng, true) else (k, false)

/-- The mill writes the values of an epilogue's tile (R166, R167, R171, R198); `bad` is the tile's first 0 × infinity product (R59). A
trap names the element's row and column in the output (R60). -/
def epiWrite (g : Nat) (w : TRef) (row0 col0 cols : Nat) (bad : Option (Nat × Nat)) (vals : List Val) : Prog := .get (fun s =>
  match s.pumpRun g with
  | none => .done
  | some r =>
    let c := g / 4
    let k2 := (s.epiConv c r w row0 col0 cols vals).1
    let again := (s.epiConv c r w row0 col0 cols vals).2
    let pol := s.bit (pgMill c) R.mill_MILLCFG_OVF_POLICY
    let peel0 := s.peelsBefore c w (decide (r.wrote = 0))
    let kpos := s.kPlace bad
    .all [
      writeTile (byEngine 6 r.idx) c w r.args.m r.args.n row0 col0 cols peel0 k2,
      keepRng c k2.rng,
      countConv c k2,
      Prog.when again (bump (pgMill c) R.mill_RETRY_CNT),
      Prog.when k2.toInf (bump (pgPump g) R.pump_INF_OUT_CNT),
      eff .seq,
      Prog.each (trapPlaces k2.causes) (fun x =>
        trap c x.2 ⟨4, r.idx, row0 + x.1 / max 1 cols, col0 + x.1 % max 1 cols, kpos.1, kpos.2, (s.asRead c r.args.a).fmt,
          (s.asRead c r.args.b).fmt, w.fmt, w.rnd⟩),
      Prog.when k2.ovf (.all [
        bump (pgMill c) R.mill_OVF_CNT,
        Prog.when again (bump (pgMill c) R.mill_RETRY_FAIL_CNT),
        reportOvf c r.layer pol (if w.smode = 1 then some r.args.rc else none)]),
      modPump g (fun r => { r with
        wrote := r.wrote + vals.length, amax := amaxOf r.amax vals, retried := r.retried || again,
        retryFail := r.retryFail || (again && k2.ovf), ovf := r.ovf || k2.ovf, infOut := r.infOut || k2.toInf })])

/-- An epilogue reads operands of its own: a NaN among them is counted for the order (R40, R64). -/
def epiNanIn (g : Nat) (nan : Bool) : Prog := .get (fun s =>
  match s.pumpRun g with
  | none => .done
  | some r => .all [countNanIn (g / 4) r.nanSeen nan, modPump g (fun r => { r with nanSeen := r.nanSeen || nan })])

/-- The values of a strip's tile that its scratch region does not carry: NaNs with the cause that made them, and rows past the 64th,
for which R172 gives the region no room. (DESIGN CHOICE, assumption 127) -/
def stripKeeps (n col0 : Nat) (rows : List (List Val)) : List (Nat × Val) :=
  (List.zip rows (List.range rows.length)).flatMap (fun x =>
    (List.zip x.1 (List.range x.1.length)).filterMap (fun y =>
      if decide (64 ≤ x.2) || y.1.cause != 0 then some (x.2 * n + col0 + y.2, y.1) else none))

/-- Element `i` of a strip's dŶ: as kept, else as the scratch region holds it (R172). -/
def State.stripElem (s : State) (c : Nat) (r : PumpRun) (her : Bool) (i : Nat) : Val :=
  match r.strip.find? (fun x => x.1 == i) with
  | some x => x.2
  | none => fFP32.decodeOp her (s.sl c (r.args.scratch + i * 4) 4)

/-- The first 0 × infinity product that a tile of a strip names: its own, else the strip's first (R59). -/
def stripBadOf (bads : List (Nat × Nat × Nat)) (col : Nat) : Option (Nat × Nat) :=
  match bads.find? (fun x => x.1 == col) with
  | some x => some x.2
  | none => (bads.map (·.2)).head?

/-- The slice regions that the epilogue of a strip, or of a SMAX_BWD tile, reads (R171, R172). -/
def State.epiRegions (s : State) (c : Nat) (r : PumpRun) (row0 rows col0 cols : Nat) : List (Nat × Nat) :=
  let n := r.args.n
  if r.epi = 1 then s.partRegions c r.args.e0 n row0 rows col0 cols ++ s.partRegions c r.args.e1 1 row0 rows 0 1
  else s.partRegions c r.args.e0 n row0 rows 0 n ++ s.partRegions c r.args.e1 n 0 1 0 n ++ s.partRegions c r.args.e2 1 row0 rows 0 1 ++
    [(r.args.scratch, min rows 64 * n * 4)]

/-- The strip of a NORM_BWD epilogue is written, tile by tile, from the scratch region (R172). -/
def epiStrip (g : Nat) (w : TRef) (row : Nat) : Prog := .get (fun s =>
  match s.pumpRun g with
  | none => .done
  | some r =>
    let c := g / 4
    let her := s.bit pgNum R.numstep_CFG_HERITAGE
    let h := (shapeOf r.shape).1
    let wd := (shapeOf r.shape).2.1
    let n := r.args.n
    let gain := (List.range n).map (fun j => s.elem c her r.args.e1 n 0 j)
    let opnds := (List.range (r.rowsIn row)).map (fun i =>
      ((List.range n).map (fun j => s.elem c her r.args.e0 n (row * h + i) j), s.elem c her r.args.e2 1 (row * h + i) 0))
    let rows := (List.zip opnds (List.range opnds.length)).map (fun x =>
      normBwdRow her (r.epi == 3) x.1.2 gain x.1.1 ((List.range n).map (fun j => s.stripElem c r her (x.2 * n + j))))
    .all [
      epiNanIn g (gain.any (·.isNan) || opnds.any (fun x => x.2.isNan || x.1.any (·.isNan))),
      Prog.each (List.range r.tileCols) (fun j =>
        epiWrite g w (row * h) (j * wd) (r.colsIn j) (stripBadOf r.stripBad j)
          (rows.flatMap (fun x => (x.drop (j * wd)).take (r.colsIn j)))),
      modPump g (fun r => { r with strip := [], stripBad := [] })])

/-- One tile of SMAX_BWD: P ⊙ (dP − D) (R171). -/
def State.smaxBwd (s : State) (c : Nat) (r : PumpRun) (her : Bool) (row0 col0 : Nat) (rows : List (List Val)) : List Val × Bool :=
  let cells := (List.zip rows (List.range rows.length)).flatMap (fun x =>
    let d := s.elem c her r.args.e1 1 (row0 + x.2) 0
    (List.zip x.1 (List.range x.1.length)).map (fun y =>
      let p := s.elem c her r.args.e0 r.args.n (row0 + x.2) (col0 + y.2)
      (step32 her (Val.mul p (step32 her (Val.sub y.1 d))), p.isNan || d.isNan)))
  (cells.map (·.1), cells.any (·.2))

/-- The values of a tile that reach the mill, row by row: FP32 results (R171, R202). -/
def State.epiRows (s : State) (r : PumpRun) (tc : TileConv) : List (List Val) :=
  cuts (r.colsIn tc.col) (r.rowsIn tc.row) (tc.sums.map (fun q => step32 (s.bit pgNum R.numstep_CFG_HERITAGE) q.val))

/-- A NORM_BWD tile is gathered into its strip: its FP32 results go to the scratch region (R172). -/
def stripGather (g : Nat) (r : PumpRun) (tc : TileConv) : Prog := .get (fun s =>
  let rows := s.epiRows r tc
  let col0 := tc.col * (shapeOf r.shape).2.1
  .all [
    Prog.each ((List.zip rows (List.range rows.length)).take 64) (fun x =>
      store (byEngine 6 r.idx) (sliceAddr (g / 4) (r.args.scratch + (x.2 * r.args.n + col0) * 4)) (x.1.flatMap (fun v => toLe 4 (code32 v)))),
    modPump g (fun r => { r with
      strip := r.strip ++ stripKeeps r.args.n col0 rows
      stripBad := r.stripBad ++ (match tc.bad with | some b => [(tc.col, b)] | none => []) })])

/-- A tile of an order with an epilogue is completed by the mill: SMAX_BWD writes it; NORM_BWD gathers its strip, and with the strip's
last tile writes that (R171, R172). -/
def epiTile (g : Nat) (r : PumpRun) (tc : TileConv) (w : TRef) : Prog := .get (fun s =>
  let c := g / 4
  let row0 := tc.row * (shapeOf r.shape).1
  let col0 := tc.col * (shapeOf r.shape).2.1
  let reads := engineReads c 6 r.idx (s.epiRegions c r row0 (r.rowsIn tc.row) col0 (r.colsIn tc.col))
  if r.epi = 1 then .all [reads, .get (fun s =>
    let smax := s.smaxBwd c r (s.bit pgNum R.numstep_CFG_HERITAGE) row0 col0 (s.epiRows r tc)
    .all [epiNanIn g smax.2, epiWrite g w row0 col0 (r.colsIn tc.col) tc.bad smax.1])]
  else .all [stripGather g r tc, Prog.when (decide (r.tileCols ≤ tc.col + 1)) (.all [reads, epiStrip g w tc.row])])

/-- EPILOGUE_TILE: a tile of an order with an epilogue reaches the mill, which completes the kernel (R171, R172, R200). -/
def execEpilogueTile (p : PumpId) (s : State) : Host.Outcome State Fault Refusal :=
  Prog.next (.get (fun s =>
    let g := p.val
    let c := g / 4
    match s.pumpRun g with
    | none => .done
    | some r =>
      match r.conv with
      | none => .done
      | some tc =>
        if r.epi = 0 ∨ (s.croft c).mill.isSome ∨ !s.clockRuns c ∨ s.underReset (pgMill c) then .done
        else
          .all [
            bump (pgPump g) R.pump_FUSED_TILE_CNT,
            Prog.when (r.args.a.trans || r.args.b.trans) (bump (pgPump g) R.pump_TRANS_TILE_CNT),
            Prog.when (s.bit pgNum R.numstep_CFG_HERITAGE) (bump (pgPump g) R.pump_HERITAGE_TILE_CNT),
            bump (pgMill c) R.mill_EPI_TILE_CNT,
            epiTile g r tc (s.pumpOut c r),
            modPump g (fun r => { r with conv := none }),
            .get (fun s =>
              match s.pumpRun g with
              | some r => Prog.when (decide (r.tileRows * r.tileCols ≤ r.tile)) (pumpDone g)
              | none => .done)])) s

end Sys2Proof.Machine
end

