-- ==== Sys2Proof/Machine/MillOps.lean ====
section
/-! DEFINITION. The mill's arithmetic: element-wise functions, row operations, optimiser steps, the split of masters and the
levels of a well image (R181 to R202, R221, R222). -/
namespace Sys2Proof.Machine

/-- A decoded operand: too large for FP32, it is an infinity of its sign (R182). -/
def clip32 (v : Val) : Val :=
  match v with
  | .fin n m e => if Val.magLt fFP32.maxM fFP32.maxE m e then .inf n else v
  | v => v

/-! ### EXP, LOG, RSQRT, GELU and SILU: within 2 ulp (R185)

The magnitude's FP32 code is found by truncation of a value carried to `fxBits` fraction bits; the codes within 2 ulp of the
exact result are those from one below to two above it, or from two below to two above where it is exact. `Config.ulpChoice`
takes one of them. -/

/-- Fraction bits of the fixed-point values. -/
def fxBits : Nat := 512

/-- The value `2^-fxBits × n` truncated to an FP32 code of a magnitude. -/
def truncCode (v : Val) : Nat := (fFP32.round ⟨true, false⟩ rndRTZ 0 v).code

/-- The result taken for a value whose magnitude is `v`, truncated; `op` and `bits` name the operation and its operand. -/
def near (op bits : Nat) (neg exact : Bool) (v : Val) : Val :=
  match v with
  | .fin _ m e =>
    if decide (m ≠ 0) && !Val.magLt m e 1 128 then .inf neg
    else
      let f : Int := truncCode v
      let k : Int := if exact then (Config.ulpChoice op bits % 5 : Nat) - 2 else (Config.ulpChoice op bits % 4 : Nat) - 1
      let c := f + k
      let sgn := if c < 0 then !neg else neg
      f32 (min c.natAbs 0x7F800000 + (if sgn then 0x80000000 else 0))
  | v => v

/-- A result the manual does not state, with the trap cause it would have as a NaN (R57, R185). -/
def openVal (op bits cause : Nat) : Val :=
  match f32 (Config.openResult op bits).toNat with
  | .nan n p _ => .nan n p cause
  | v => v

/-- A finite value's magnitude as a fixed-point number, truncated. -/
def toFx (v : Val) : Nat :=
  match v with
  | .fin _ m e => let s := e + fxBits; if 0 ≤ s then m * 2 ^ s.toNat else m / 2 ^ (-s).toNat
  | _ => 0

/-- A fixed-point number as a value. -/
def ofFx (n : Nat) : Val := .fin false n (-(fxBits : Int))

/-- Terms of the exponential series of `x`, all in fixed point. -/
def expSeries (x : Nat) : Nat → Nat → Nat → Nat → Nat
  | 0, _, _, acc => acc
  | n + 1, k, t, acc => let t' := t * x / 2 ^ fxBits / k; expSeries x n (k + 1) t' (acc + t')

/-- e to a fixed-point number not below zero, by 256ths (below 512). -/
def fxExp (x : Nat) : Nat :=
  let y := expSeries (x / 256) 96 1 (2 ^ fxBits) (2 ^ fxBits)
  (List.range 8).foldl (fun a _ => a * a / 2 ^ fxBits) y

/-- e to the power `±x`, never zero. -/
def fxExpSigned (neg : Bool) (x : Nat) : Nat :=
  if neg then max 1 (2 ^ (2 * fxBits) / fxExp x) else fxExp x

/-- Terms of the inverse hyperbolic tangent series of `z`. -/
def atanhSeries (z2 : Nat) : Nat → Nat → Nat → Nat → Nat
  | 0, _, _, acc => acc
  | n + 1, k, t, acc => let t' := t * z2 / 2 ^ fxBits; atanhSeries z2 n (k + 2) t' (acc + t' / k)

/-- Twice the inverse hyperbolic tangent of `a / b`, at most 1/3: the logarithm of `(b + a) / (b - a)`. -/
def fxLogRatio (a b : Nat) : Nat :=
  let z := a * 2 ^ fxBits / b
  2 * atanhSeries (z * z / 2 ^ fxBits) 170 3 z z

/-- Natural logarithm of `m × 2^e`, `m` not 0, in fixed point with its sign. -/
def fxLog (m : Nat) (e : Int) : Int :=
  let n := Nat.log2 m
  (fxLogRatio (m - 2 ^ n) (m + 2 ^ n) : Int) + (e + n) * (fxLogRatio 1 3 : Int)

/-- `a / (1 + exp(-t))` for finite `a`, with `t` of sign `tneg` and fixed-point magnitude `t`. -/
def logistic (op bits : Nat) (a : Val) (tneg : Bool) (t : Nat) : Val :=
  let x := fxExpSigned (!tneg) (min t (400 * 2 ^ fxBits))
  match a with
  | .fin n m e =>
    if m = 0 then near op bits n true (.fin false 0 0)
    else near op bits n false (Val.div (.fin false (m * 2 ^ 64) (e - 64)) (.fin false (2 ^ fxBits + x) (-(fxBits : Int))))
  | v => v

/-- The bits of an FP32 operand that name it to `Config.ulpChoice`. -/
def opBits (x : Val) : Nat := code32 x

/-- EXP (R184, R185). -/
def millExp (x : Val) : Val :=
  match x with
  | .inf n => if n then Val.zero false else .inf false
  | .fin n m e =>
    if m = 0 then near 8 (opBits x) false true (.fin false 1 0)
    else if !Val.magLt m e 300 0 then (if n then near 8 (opBits x) false false (.fin false 0 0) else .inf false)
    else near 8 (opBits x) false false (ofFx (fxExpSigned n (toFx x)))
  | v => v

/-- LOG: of a negative value a NaN of cause 0x04, of zero not stated (R57, R185). -/
def millLog (x : Val) : Val :=
  match x with
  | .inf n => if n then Val.made 4 else .inf false
  | .fin n m e =>
    if m = 0 then openVal 9 (opBits x) 4
    else if n then Val.made 4
    else
      let l := fxLog m e
      near 9 (opBits x) (decide (l < 0)) (x == f32 0x3F800000 || (Val.lt x (f32 0x3F800000) == Val.lt (f32 0x3F800000) x))
        (ofFx l.natAbs)
  | v => v

/-- RECIP: correctly rounded; of zero not stated (R185). -/
def millRecip (her : Bool) (x : Val) : Val :=
  if x.isZero then openVal 0x0A (opBits x) 3 else step32 her (Val.div (f32 0x3F800000) x)

/-- SQRT: correctly rounded (R185). -/
def millSqrt (her : Bool) (x : Val) : Val := step32 her (Val.sqrt x)

/-- RSQRT: of a negative value a NaN of cause 0x04, of zero not stated (R57, R185). -/
def millRsqrt (x : Val) : Val :=
  match x with
  | .inf n => if n then Val.made 4 else Val.zero false
  | .fin n m e =>
    if m = 0 then openVal 0x0C (opBits x) 4
    else if n then Val.made 4
    else
      -- 2^300 / sqrt(m) × 2^(-300 - e/2)
      let odd := decide (e % 2 ≠ 0)
      let m1 := if odd then 2 * m else m
      let e1 := if odd then e - 1 else e
      let q := Nat.sqrt (2 ^ 600 / m1)
      let v : Val := .fin false q (-300 - e1 / 2)
      let r := f32 (truncCode v)
      let one := Val.mul (Val.mul r r) x
      near 0x0C (opBits x) false (!Val.lt one (f32 0x3F800000) && !Val.lt (f32 0x3F800000) one) v
  | v => v

/-- DIV: correctly rounded; of a finite nonzero value or an infinity by zero not stated (R57, R185). -/
def millDiv (her : Bool) (x y : Val) : Val :=
  if y.isZero && !x.isZero && !x.isNan then openVal 0x0D (opBits x + 2 ^ 32 * opBits y) 3 else step32 her (Val.div x y)

/-- SILU: a / (1 + exp(-a)); of -infinity not stated (R184, R185). -/
def millSilu (x : Val) : Val :=
  match x with
  | .inf n => if n then openVal 7 (opBits x) 3 else .inf false
  | .fin n _ _ => logistic 7 (opBits x) x n (toFx x)
  | v => v

/-- GELU in the tanh form, which is a / (1 + exp(-2u)) with u the argument of tanh; of -infinity not stated (R184, R185). -/
def millGelu (x : Val) : Val :=
  match x with
  | .inf n => if n then openVal 6 (opBits x) 1 else .inf false
  | .fin n m e =>
    -- 2u = 1.5957691216 (a + 0.044715 a^3), over 10^16
    let cube : Val := .fin false (44715 * m * m * m) (3 * e)
    let lin : Val := .fin false (1000000 * m) e
    match Val.mul (.fin false 15957691216 0) (Val.add cube lin) with
    | .fin _ k f => logistic 6 (opBits x) x n (toFx (.fin false k f) / 10 ^ 16)
    | _ => Val.zero n
  | v => v

/-- RELU: max(a, +0) (R184). -/
def millRelu (x : Val) : Val := if x.isNan then x else if Val.lt (Val.zero false) x then x else Val.zero false

/-- An element-wise operation of one operand (R184). -/
def millUnary (her : Bool) (op : Nat) (x : Val) : Val :=
  let flush (v : Val) : Val := if her then flush32 v else v
  match op with
  | 0x05 => flush (millRelu x)
  | 0x06 => flush (millGelu x)
  | 0x07 => flush (millSilu x)
  | 0x08 => flush (millExp x)
  | 0x09 => flush (millLog x)
  | 0x0A => millRecip her x
  | 0x0B => millSqrt her x
  | 0x0C => flush (millRsqrt x)
  | _ => x

/-- An element-wise operation of two operands; α and β are AXPBY's (R184). -/
def millBinary (her : Bool) (op : Nat) (al be x y : Val) : Val :=
  match op with
  | 0x01 => step32 her (Val.add x y)
  | 0x02 => step32 her (Val.mul x y)
  | 0x04 => step32 her (Val.mulAdd al x (step32 her (Val.mul be y)))
  | _ => millDiv her x y

/-! ### Rows (R186, R187, R189, R202) -/

/-- A product as it enters a row sum: exact, or rounded and flushed in heritage mode. -/
def rowProd (her : Bool) (x y : Val) : Pair := if her then asPair (flush32 (rne (Val.mul x y))) else prodPair x y

/-- RMAX: the largest value, +0 before -0, a NaN if any element is one (R186); a row of none is not stated. -/
def maxRow (xs : List Val) : Val :=
  match xs with
  | [] => openVal 0x11 0 1
  | x :: rest => rest.foldl (fun a b =>
      if a.isNan then a else if b.isNan then b else if Val.lt a b then b
      else if a.isZero && b.isZero && a.sign && !b.sign then b else a) x

/-- What a normalisation gives for a row: y, x̂ and rstd (R187). -/
def normRow (her layer : Bool) (eps : Val) (g bias x : List Val) : List Val × List Val × Val :=
  let n := Val.ofInt x.length 0 false
  let mean (v : Val) : Val := step32 her (Val.div v n)
  let xc := if layer then
      let mu := mean (sumRow her (x.map asPair))
      x.map (fun a => step32 her (Val.sub a mu))
    else x
  let rstd := millUnary her 0x0C (step32 her (Val.add (mean (sumRow her (xc.map (fun a => rowProd her a a)))) eps))
  let xh := xc.map (fun a => step32 her (Val.mul a rstd))
  let y := List.zipWith (fun a b => step32 her (Val.mul a b)) g xh
  (if layer then List.zipWith (fun a b => step32 her (Val.add a b)) y bias else y, xh, rstd)

/-- What a soft-max gives for a row: P, the row maximum and the row sum (R187). -/
def smaxRow (her : Bool) (factor : Option Val) (x : List Val) : List Val × Val × Val :=
  let a := match factor with | some f => x.map (fun v => step32 her (Val.mul v f)) | none => x
  let mx := maxRow a
  let p := a.map (fun v => millUnary her 0x08 (step32 her (Val.sub v mx)))
  let sum := sumRow her (p.map asPair)
  (p.map (fun v => millDiv her v sum), mx, sum)

/-- The sum of an element's operands in order, exact (R188), or one value at a time in heritage mode (R202). -/
def combineVals (her : Bool) (xs : List Val) : Val :=
  match xs with
  | [] => Val.zero false
  | x :: rest =>
    if her then rest.foldl (fun a b => flush32 (rne (Val.add a b))) x
    else (rest.foldl (fun (a : Pair) b => a.add b (Val.zero false)) (asPair x)).val

/-- Whether element `a` ranks before `b` in value or magnitude; a NaN above every number (R189). -/
def ranksOver (mag : Bool) (a b : Val) : Bool :=
  if b.isNan then false else if a.isNan then true
  else if mag then Val.lt b.abs a.abs else Val.lt b a

/-- The first 0 × infinity product of a row's contraction, as k-chunk of `len` and position (R59, R60). -/
def badProduct (len : Nat) (x y : List Val) : Option (Nat × Nat) :=
  ((List.zipWith Val.mul x y).findIdx? (fun v => v.cause == 1)).map (fun i => (i / max 1 len, i % max 1 len))

/-- Insert an element into a list in rank order, after its equals. -/
def rankInsert (mag : Bool) (x : Val × Nat) : List (Val × Nat) → List (Val × Nat)
  | [] => [x]
  | y :: ys => if ranksOver mag x.1 y.1 then x :: y :: ys else y :: rankInsert mag x ys

/-- The k largest elements of a row with their positions, from largest down (R189). -/
def topkRow (mag : Bool) (k : Nat) (xs : List Val) : List (Val × Nat) :=
  ((List.zip xs (List.range xs.length)).foldl (fun l x => rankInsert mag x l) []).take k

/-! ### Optimisers and masters (R194 to R197) -/

/-- The parameters of R194 as values. -/
structure OptParams where
  lr : Val
  b1 : Val
  omb1 : Val
  b2 : Val
  omb2 : Val
  eps : Val
  lam : Val
  c1 : Val
  c2 : Val
  gscale : Val
deriving DecidableEq, Repr

/-- One element of an optimiser order: g, m, v and w2 (R195). -/
def optElem (her : Bool) (op : Nat) (p : OptParams) (gin w m v : Val) : Val × Val × Val × Val :=
  let r := step32 her
  let g := r (Val.mul gin p.gscale)
  let decay := r (Val.mul p.lam w)
  let upd (u : Val) : Val := r (Val.sub w (r (Val.mul p.lr u)))
  if op = 0x28 then (g, m, v, upd (r (Val.add g decay)))
  else if op = 0x29 then
    let m' := r (Val.mulAdd p.b1 m g)
    (g, m', v, upd (r (Val.add m' decay)))
  else
    let m' := r (Val.mulAdd p.b1 m (r (Val.mul p.omb1 g)))
    let v' := r (Val.mulAdd p.b2 v (r (Val.mul p.omb2 (r (Val.mul g g)))))
    let d := r (Val.add (r (Val.sqrt (r (Val.mul v' p.c2)))) p.eps)
    let u := r (Val.add (millDiv her (r (Val.mul m' p.c1)) d) decay)
    (g, m', v', upd u)

/-- ulp(h) of a BF16 head as a power of two: its exponent (R196). -/
def headUlp (h : Nat) : Int :=
  let x := h / 128 % 256
  (if x = 0 then (-126 : Int) else (x : Int) - 127) - 7

/-- The value of a head and its remnant byte (R196). -/
def headValue (h r : Nat) : Val :=
  match fBF16.decode h with
  | .fin n m e =>
    let s : Int := if r < 128 then r else (r : Int) - 256
    let u := headUlp h - 8
    let g := min e u
    Val.ofInt (Val.sm n (Val.atExp m e g) + s * 2 ^ (u - g).toNat) g n
  | v => v

/-- A split: head, remnant byte, whether the head stepped and whether it was held at the largest finite value (R197). -/
structure Split where
  head : Nat
  rem : Nat
  stepped : Bool
  held : Bool
deriving DecidableEq, Repr

/-- The remnant of `w` against head `h`, rounded with RNE, before its byte (R197). -/
def remnant (w : Val) (h : Nat) : Int :=
  match Val.sub w (fBF16.decode h) with
  | .fin n m e =>
    let r := (roundAt rndRNE 0 m (e + 8 - headUlp h) 0).1
    if n then -(r : Int) else r
  | _ => 0

/-- The next BF16 code above a finite one. -/
def bf16Next (h : Nat) : Nat := if h = 0x8000 then 1 else if h < 0x8000 then h + 1 else h - 1

/-- Split an FP32 value into head and remnant (R197). -/
def split (w : Val) : Split :=
  let c := (fBF16.round ⟨true, false⟩ rndRNE 0 w).code
  match w with
  | .fin n _ _ =>
    let top : Split := ⟨if n then 0xFF7F else 0x7F7F, if n then 0x80 else 0x7F, false, true⟩
    let byte (i : Int) : Nat := (BitVec.ofInt 8 i).toNat
    if c % 0x8000 = 0x7F80 then top
    else
      let r := remnant w c
      if r = 128 then
        if c = 0x7F7F then top
        else let h := bf16Next c; ⟨h, byte (remnant w h), true, false⟩
      else ⟨c, byte r, false, false⟩
  | _ => ⟨c, 0, false, false⟩

/-! ### Well images (R199) -/

/-- A signed rounding of a quotient to an integer with RNE. -/
def rneInt (v : Val) : Int :=
  match v with
  | .fin n m e => let r := (roundAt rndRNE 0 m e 0).1; if n then -(r : Int) else r
  | _ => 0

/-- The scale of a column of weights (R199). -/
def columnScale (ws : List Val) : Val :=
  let a := maxMag ws
  if a.isZero then f32 0x3F800000 else rne (Val.div a (Val.ofInt 31 0 false))

/-- Whether a value is a positive normal FP32 value. -/
def posNormal (v : Val) : Bool :=
  match v with
  | .fin n m e => !n && decide (m ≠ 0) && !Val.magLt m e 1 (-126)
  | _ => false

/-- Level of a weight under a column scale (R199). -/
def levelOf (w sc : Val) : Int := max (-31) (min 31 (rneInt (Val.div w sc)))

/-- What a level leaves of a weight, exactly (R199). -/
def leftExact (w sc : Val) : Val := Val.sub w (Val.mul (Val.ofInt (levelOf w sc) 0 false) sc)

/-- Insert a candidate residual entry in order of magnitude, rising row and rising column. -/
def residInsert (x : Nat × Nat × Val) : List (Nat × Nat × Val) → List (Nat × Nat × Val)
  | [] => [x]
  | y :: ys => if Val.lt y.2.2.abs x.2.2.abs then x :: y :: ys else y :: residInsert x ys

/-- One load image of a strip: rows of weights (at most 512), the strip's column scales and the budget (R69, R70, R199, R202). -/
def wellImage (her : Bool) (rows : List (List Val)) (scales : List Val) (budget : Nat) : List Byte :=
  let cell (r c : Nat) : Val := (rows.getD r []).getD c (Val.zero false)
  let sc (c : Nat) : Val := scales.getD c (f32 0x3F800000)
  let levels : List Byte := (List.range 512).flatMap (fun r => (List.range 512).map (fun c => BitVec.ofInt 8 (levelOf (cell r c) (sc c))))
  let value (d : Val) : Nat := (fBF16.round ⟨true, her⟩ rndRNE 0 d).code
  let cand := (List.range rows.length).flatMap (fun r => (List.range (rows.getD r []).length).filterMap (fun c =>
    let d := leftExact (cell r c) (sc c)
    if value d % 0x8000 = 0 then none else some (r, c, d)))
  let chosen := (cand.foldl (fun l x => residInsert x l) []).take budget
  let entry (x : Nat × Nat × Val) : Nat :=
    x.2.1 + 2 ^ 16 * x.1 + 2 ^ 48 * value x.2.2
  levels ++ (List.range 512).flatMap (fun c => toLe 4 (code32 (sc c))) ++
    toLe 64 (chosen.length + 2 ^ 16) ++ chosen.flatMap (fun x => toLe 8 (entry x))

end Sys2Proof.Machine
end

