-- ==== Sys2Proof/Machine/Mill.lean ====
section
/-! DEFINITION. The mill: start checks, the operations of MILL orders and of TALLY COMPARE, stretches, and the end of an order
(R181 to R206, R222, R224, R251, R252). -/
namespace Sys2Proof.Machine

/-! ### Slots of a MILL block -/

/-- A tensor of a MILL order: its place in the block, its reference as read or written, its shape, and whether it is read,
written, held as head and remnant, and of a form its operation refuses. -/
structure MillSlot where
  ref : TRef
  rows : Nat
  len : Nat
  rd : Bool
  wr : Bool
  rem : Bool
  /-- Its form is not accepted for the operation. -/
  bad : Bool
  /-- Slice offset of its 16 bytes in the block. -/
  place : Nat
deriving DecidableEq, Repr

def TRef.plain32 (t : TRef) : Bool := t.fmt == 0 && t.bsize == 0
def TRef.plainB (t : TRef) : Bool := t.fmt == 1 && t.bsize == 0

def isOpt (op : Nat) : Bool := decide (0x28 ≤ op) && decide (op ≤ 0x2A)
def isUnary (op : Nat) : Bool := op == 5 || (decide (6 ≤ op) && decide (op ≤ 0x0C))
def isBinary (op : Nat) : Bool := op == 1 || op == 2 || op == 4 || op == 0x0D
def isNorm (op : Nat) : Bool := op == 0x18 || op == 0x19
/-- Whether slot S3 holds a result of the operation that can be DELAYED (R208, R251): not for WELL_IMAGE, whose result is a load
image, nor for OPT_SGD and OPT_MOMENTUM, which do not use it. -/
def resultInS3 (op : Nat) : Bool := op != 0x30 && op != 0x28 && op != 0x29
/-- Whether the operation reads slot S1 (R251). -/
def readsS1 (op : Nat) : Bool := isBinary op || isNorm op || isOpt op || op == 3 || op == 0x12

/-- The slots on which an operation allows a REM bit, as a mask (R195, R199, R222). -/
def remMask (op : Nat) : Nat :=
  if isOpt op then 2 else match op with | 1 => 0xB | 4 => 0xB | 3 => 0xF | 0x20 => 9 | 0x30 => 1 | _ => 0

/-- REM on slot `i`, where it is allowed. -/
def MillArgs.remOn (p : MillArgs) (op i : Nat) : Bool := p.rem i && remMask op / 2 ^ i % 2 == 1

/-- Whether an optimiser order names a copy (R195). -/
def MillArgs.copy (p : MillArgs) : Bool := (p.slot 4).fmt == 1

/-- Element offsets of COMBINE's operands (R251). -/
def State.combOffs (s : State) (c : Nat) (p : MillArgs) : List Nat := (List.range p.ncomb).map (fun i => s.sl c (p.param + 4 * i) 4)

/-- The tensors of a MILL order (R195, R199, R222, R251); COMBINE's operands are those its list names. -/
def State.millSlots (s : State) (c op args : Nat) (p : MillArgs) (wide bnd : Bool) : List MillSlot :=
  let n := p.rows
  let l := p.rowlen
  let pack (rem : Bool) (t : TRef) : TRef := if rem then { t with pitch := 0 } else t
  let src (i rows len : Nat) (ok : TRef → Bool) : MillSlot :=
    let rem := p.remOn op i
    let t := pack rem (s.asRead c (p.slot i))
    ⟨t, rows, len, true, false, rem, if rem then !t.plainB else !ok t, args + 16 * i⟩
  let dst (i rows len : Nat) (ok : TRef → Bool) : MillSlot :=
    let rem := p.remOn op i
    let t := pack rem (asWritten wide bnd (p.slot i))
    ⟨t, rows, len, false, true, rem, if rem then !t.plainB else !ok t, args + 16 * i⟩
  let both (i : Nat) (ok : TRef → Bool) : MillSlot := { src i n l ok with wr := true }
  let any : TRef → Bool := fun _ => true
  if isUnary op || op == 0x22 then [src 0 n l any, dst 3 n l any]
  else if isBinary op then [src 0 n l any, src 1 n l any, dst 3 n l any]
  else if op = 3 then [src 0 n l any, src 1 n l any, src 2 n l any, dst 3 n l any]
  else if op = 0x10 ∨ op = 0x11 then [src 0 n l any, dst 3 n 1 TRef.plain32]
  else if op = 0x12 then [src 0 n l any, src 1 n l any, dst 3 n 1 TRef.plain32]
  else if isNorm op then
    [src 0 n l any, src 1 1 l any] ++ (if op = 0x19 then [src 2 1 l any] else []) ++
    [dst 3 n l any, dst 4 n l TRef.plainB, dst 5 n 1 TRef.plain32]
  else if op = 0x1A then [src 0 n l any, dst 3 n l any, dst 4 n 1 TRef.plain32, dst 5 n 1 TRef.plain32]
  else if op = 0x20 then
    (s.combOffs c p).map (fun o => { src 0 n l TRef.plain32 with ref := { (src 0 n l TRef.plain32).ref with elem := o } }) ++
    [dst 3 n l any]
  else if op = 0x21 then
    [src 0 n l any,
     dst 3 n p.topk (fun t => t.bsize == 0 &&
       ((p.slot 0).bsize != 0 || t.fmt == (asWritten wide bnd (p.slot 0)).fmt)),
     dst 4 n p.topk TRef.plain32]
  else if isOpt op then
    [src 0 n l (fun t => t.plain32 || t.plainB), both 1 TRef.plain32] ++
    (if op = 0x28 then [] else [both 2 TRef.plain32]) ++ (if op = 0x2A then [both 3 TRef.plain32] else []) ++
    (if p.copy then [dst 4 n l TRef.plainB] else [])
  else if op = 0x30 then [src 0 n l TRef.plain32]
  else []

/-- Bytes from a slot's element offset to the end of its remnant region (R196). -/
def remBytes (n : Nat) : Nat := pad64 (2 * n) + n

/-- The regions of a slot. -/
def State.slotRegions (s : State) (c : Nat) (t : MillSlot) : List (Nat × Nat) :=
  if t.rem then [(t.ref.elem, remBytes (t.rows * t.len))] else s.regions c t.ref t.rows t.len

/-- Offsets of the parameters an operation reads (R194, R251). -/
def parOffs (op : Nat) (p : MillArgs) : List Nat :=
  if isOpt op then (List.range 10).map (4 * ·) else if op = 4 then [0, 4] else if isNorm op then [0x14]
  else if op = 0x1A && p.param != 0 then [0x24] else []

/-- Bytes at PARAM that an operation names. -/
def parBytes (op : Nat) (p : MillArgs) : Nat :=
  if op = 0x20 then 4 * p.ncomb else if (parOffs op p).isEmpty then 0 else 64

/-- The regions that an operation reads (R251). -/
def State.millReads (s : State) (c : Nat) (slots : List MillSlot) (op : Nat) (p : MillArgs) : List (Nat × Nat) :=
  (slots.filter (·.rd)).flatMap (s.slotRegions c) ++ (if parBytes op p = 0 then [] else [(p.param, parBytes op p)])

/-- Images of a strip, and the bytes they span from the first on (R199). -/
def imagesOf (rows : Nat) : Nat := ceilDiv rows 512
def imageSpan (rows : Nat) : Nat := (imagesOf rows - 1) * imageSize + 0x41840

/-! ### Decoding -/

/-- Element `k` of row `r` of a slot, decoded (R54, R182, R196, R202). -/
def State.millElem (s : State) (c : Nat) (her : Bool) (t : MillSlot) (ps : List (Nat × Nat)) (r k : Nat) : Val :=
  let i := r * t.len + k
  let flush (v : Val) : Val := if her then flush32 v else v
  clip32 (
    if t.rem then flush (headValue (s.sl c (t.ref.elem + 2 * i) 2) (s.sl c (t.ref.elem + pad64 (2 * (t.rows * t.len)) + i) 1))
    else (peelAt her ps i).getD (s.elem c her t.ref t.len r k))

/-- A slot's rows, decoded. -/
def State.millRows (s : State) (c : Nat) (her : Bool) (t : MillSlot) : List (List Val) :=
  let ps := s.peels c t.ref
  (List.range t.rows).map (fun r => (List.range t.len).map (fun k => s.millElem c her t ps r k))

/-- An FP32 value of the parameter block (R194). -/
def State.par (s : State) (c : Nat) (p : MillArgs) (o : Nat) : Val := f32 (s.sl c (p.param + o) 4)

def State.optParams (s : State) (c : Nat) (p : MillArgs) : OptParams :=
  let q := s.par c p
  ⟨q 0, q 4, q 8, q 0xC, q 0x10, q 0x14, q 0x18, q 0x1C, q 0x20, q 0x24⟩

/-- The strip's column scales (R199). -/
def stripScales (rows : List (List Val)) (len : Nat) : List Val :=
  (List.range len).map (fun j => columnScale (rows.map (fun r => r.getD j (Val.zero false))))

/-! ### Start -/

/-- The checks of a MILL order (R180, R182, R185, R188, R189, R194, R195, R199, R201, R206, R208, R222, R563). -/
def State.millChecks (s : State) (c op args at' : Nat) (wide bnd : Bool) : List Check :=
  let p := s.millArgs c args
  let slots := s.millSlots c op args p wide bnd
  let her := s.bit pgNum R.numstep_CFG_HERITAGE
  let w := asWritten wide bnd (p.slot 3)
  let perSlot := slots.flatMap (fun t =>
    let plan := p.slot ((t.place - args) / 16)
    s.refChecks c t.ref (if t.wr && !t.rd then { plan with pitch := if t.rem then 0 else plan.pitch } else t.ref) t.place
      t.rows t.len 1 9 2 2 false ++
    [⟨t.bad, 2, t.place + 3⟩,
     ⟨t.ref.bsize != 0 && t.len % max 1 t.ref.bsize != 0, 2, t.place + 7⟩,
     ⟨t.rem && !inSlice t.ref.elem (remBytes (t.rows * t.len)), 1, t.place⟩] ++
    (if t.rd then match s.peelBad c t.ref (t.rows * t.len) with | some x => [⟨true, 8, x⟩] | none => [] else []))
  let limits : List Check :=
    if op = 0x30 then [⟨decide (p.rows = 0) || decide (4096 < p.rows), 5, args + 0x60⟩,
      ⟨decide (p.rowlen = 0) || decide (512 < p.rowlen), 5, args + 0x64⟩]
    else [⟨decide (2 ^ 24 < p.rows), 5, args + 0x60⟩, ⟨decide (2 ^ 24 < p.rowlen), 5, args + 0x64⟩]
  let params := (parOffs op p).map (fun o => (⟨!(s.par c p o).isFin, 4, p.param + o⟩ : Check))
  let image : List Check :=
    if op = 0x30 then
      let t := slots.headD ⟨p.slot 0, 0, 0, true, false, false, true, args⟩
      let big := decide (4096 < p.rows) || decide (512 < p.rowlen)
      let rows := if big then [] else s.millRows c her t
      let scales := stripScales rows p.rowlen
      [⟨(p.slot 3).elem % 64 != 0 || !inSlice (p.slot 3).elem (imageSpan p.rows), 1, args + 0x30⟩,
       ⟨(p.slot 3).reserved != 0 || (p.slot 3).trans, 2, args + 0x3F⟩,
       ⟨rows.any (fun r => r.any (fun v => !v.isFin)), 0x0A, t.ref.elem⟩,
       ⟨scales.any (fun v => !posNormal v), 0x0A, t.ref.elem⟩,
       ⟨decide (512 < p.budget), 0x0A, args + 0x78⟩]
    else []
  let s4 := p.slot 4
  perSlot ++ limits ++ params ++ image ++
  (List.range 6).flatMap (fun i => refForm (p.slot i) (args + 16 * i) 2) ++
  (if resultInS3 op then s.recordChecks c w p.hasRec p.rc (args + 0x74) (args + 0x6C) else []) ++
  [⟨!millOpKnown op, 3, at'⟩,
   ⟨parBytes op p != 0 && (p.param % 64 != 0 || !inSlice p.param (parBytes op p)), 1, args + 0x68⟩,
   ⟨isOpt op && s.sl c (p.param + 0x28) 24 != 0, 4, p.param + 0x28⟩,
   ⟨isOpt op && !p.copy && s4 != TRef.zero, 2, args + 0x40⟩,
   ⟨op == 0x21 && (decide (p.topk = 0) || decide (256 < p.topk) || decide (p.rowlen < p.topk)), 6, args + 0x78⟩,
   ⟨op == 0x20 && decide (p.ncomb < 2), 7, args + 0x74⟩,
   ⟨op == 0x22 && p.hasAmax && !inSlice p.amax 4, 1, args + 0x70⟩,
   ⟨(p.tsrc == 3 && !isOpt op) || (p.tsrc == 2 && op == 0x30), 2, args + 0x74⟩,
   ⟨bitsOf p.flags 16 6 &&& remMask op != bitsOf p.flags 16 6, 2, args + 0x76⟩,
   ⟨decide (2 ^ 22 ≤ p.flags), 2, args + 0x76⟩, ⟨decide (2 ^ 20 ≤ p.sel), 2, args + 0x7A⟩, ⟨p.reserved != 0, 2, args + 0x7C⟩]

/-- Whether the mill of croft `c` can begin an order: it is idle, serves no epilogue and is not under reset (R200). -/
def State.millFree (s : State) (c : Nat) : Bool :=
  (s.croft c).mill.isNone && !s.bit (pgMill c) R.mill_STATUS_EPILOGUE && !s.underReset (pgMill c)

/-- The mill takes up an order. -/
def millBegin (c : Nat) (o : Issued) (op : Nat) (r : MillRun) : Prog := .all [
  markStarted c o.serial,
  modCroft c (fun k => { k with mill := some r }),
  setFld (pgMill c) R.mill_STATUS_BUSY 1,
  setFld (pgMill c) R.mill_STATUS_OP op,
  setReg (pgMill c) R.mill_ORDER_IDX_INDEX.off (BitVec.ofNat 32 o.idx)]

/-- A MILL order's block has been read: its checks, then the rights of its regions, and the mill takes it up (R182, R206, R208, R274). -/
def beginMill (c : Nat) (o : Issued) (op args : Nat) (bnd : Bool) : Prog := .get (fun s =>
  let p := s.millArgs c args
  match firstFault (s.millChecks c op args (s.orderOffset c o.idx) o.wide bnd) with
  | some (cause, x) => engineFault c (pgMill c) cause x 6 o.serial o.idx
  | none =>
    let slots := s.millSlots c op args p o.wide bnd
    let w := asWritten o.wide bnd (p.slot 3)
    let delayed := resultInS3 op && w.smode == 1
    let writes := (slots.filter (·.wr)).flatMap (s.slotRegions c) ++ (if delayed then [(p.rc, 128)] else []) ++
      (if op = 0x22 ∧ p.hasAmax then [(p.amax, 4)] else []) ++
      (if op = 0x30 then [((p.slot 3).elem, imageSpan p.rows)] else [])
    match firstSome [s.bankColl c agMill false (s.millReads c slots op p), s.bankColl c agMill true writes] with
    | some m => startCollides c o m.cls m.index m.addr
    | none => .all [
        millBegin c o op {
          serial := o.serial, idx := o.idx, op := op, bnd := bnd, layer := orderLayer o.word, args := p
          scale := if delayed then s.sl c p.rc 1 else 0, rows := p.rows, len := p.rowlen },
        Prog.each (slots.filter (fun t => t.wr && !t.rd && !t.rem)) (fun t =>
          noteWide c o.wide bnd (p.slot ((t.place - args) / 16)) t.rows t.len)])

/-- A MILL order starts: the mill's right, then its block (R182, R206, R208, R245, R274). -/
def startMill (c : Nat) (o : Issued) (op args : Nat) (bnd : Bool) : Prog := .get (fun s =>
  let p := s.millArgs c args
  let at' := s.orderOffset c o.idx
  let earlier := (s.reeve c).orders.any (fun x => x.unit == o.unit && decide (x.serial < o.serial) && x.engine == 6)
  if earlier || !s.millFree c || (p.hasRec && s.recordBusy c o.serial p.rc (s.recOf c)) then .done
  else if !s.millRight c then startCollides c o clMill 0 at'
  else
    match s.bankColl c agMill false [(args, 128)] with
    | some m => startCollides c o m.cls m.index m.addr
    | none => .all [
        argReads c 6 o.idx args 128 (fun s =>
          let p := s.millArgs c args
          (if parBytes op p = 0 then [] else [(p.param, parBytes op p)]) ++ (if p.hasRec then [(p.rc, 128)] else [])),
        beginMill c o op args bnd])

/-- The block of a COMPARE's tensors: one row of COUNT elements each. -/
def compareSlot (t : TRef) (n place : Nat) : MillSlot := ⟨t, 1, n, true, false, false, false, place⟩

/-- The checks of a COMPARE (R224, R239, R252, R563). -/
def State.compareChecks (s : State) (c args : Nat) : List Check :=
  let p := s.compareArgs c args
  let r := s.asRead c p.r
  let k := s.asRead c p.k
  s.refChecks c r r args 1 p.count 1 3 3 4 false ++ s.refChecks c k k (args + 0x10) 1 p.count 1 3 3 4 false ++
  [⟨r.fmt != k.fmt || r.bsize != k.bsize, 3, args + 0x13⟩,
   ⟨r.bsize != 0 && p.count % max 1 r.bsize != 0, 3, args + 0x20⟩,
   ⟨p.reserved != 0, 4, args + 0x24⟩] ++
  (match firstSome [s.peelBad c r p.count, s.peelBad c k p.count] with | some x => [⟨true, 4, x⟩] | none => [])

/-- The reeve waits for no verdict any more. -/
def noVerdict (c : Nat) : Prog := modReeve c (fun r => { r with wait := if r.wait == .verdict then .none else r.wait })

/-- A collision of a COMPARE: no verdict will come. -/
def compareColl (c : Nat) (o : Issued) (cls index addr : Nat) : Prog :=
  .all [startCollides c o cls index addr, noVerdict c]

/-- A COMPARE's block has been read: its checks, then the rights of its tensors, and the mill takes it up (R224, R239). -/
def beginCompare (c : Nat) (o : Issued) (group cnt args : Nat) : Prog := .get (fun s =>
  match firstFault (s.compareChecks c args) with
  | some (cause, x) => .all [engineFault c (pgTally c) cause x 8 o.serial o.idx, noVerdict c]
  | none =>
    let p := s.compareArgs c args
    match s.bankColl c agMill false (s.regions c (s.asRead c p.r) 1 p.count ++ s.regions c (s.asRead c p.k) 1 p.count) with
    | some m => compareColl c o m.cls m.index m.addr
    | none =>
      let z : Pair := ⟨Val.zero false, Val.zero false⟩
      millBegin c o 0 {
        serial := o.serial, idx := o.idx, op := 0, bnd := false, layer := orderLayer o.word
        args := ⟨[p.r, p.k], 1, p.count, 0, 0, 0, 0, 0, 0⟩
        scale := 0, rows := 1, len := p.count
        cmp := some (group, ⟨c, z, z, false, orderLayer o.word, cnt⟩) })

/-- A TALLY COMPARE starts on the mill, after every earlier MILL order (R224, R245, R274). -/
def startCompare (c : Nat) (o : Issued) (group cnt args : Nat) : Prog := .get (fun s =>
  let at' := s.orderOffset c o.idx
  let earlier := (s.reeve c).orders.any (fun x => x.unit == o.unit && decide (x.serial < o.serial))
  if earlier || !s.millFree c then .done
  else if !s.millRight c then compareColl c o clMill 0 at'
  else
    match s.bankColl c agMill false [(args, 64)] with
    | some m => compareColl c o m.cls m.index m.addr
    | none => .all [engineReads c 8 o.idx [(args, 64)], beginCompare c o group cnt args])

/-! ### Operations -/

/-- The results of a MILL order: tensors to be converted, bytes to be written whole, sums under OPT, and whether an operand was a
NaN. -/
structure MillResult where
  outs : List MillOut := []
  raw : List (Nat × List Byte) := []
  tally : List (Nat × TallySlot) := []
  nan : Bool := false
  topkNan : Nat := 0
deriving DecidableEq, Repr

/-- Sum of squares of finite elements in the lane order of R186, and the number left out (R201). -/
def squareSum (vs : List Val) : TallySlot :=
  ⟨lanePairs (vs.map (fun v => if v.isFin then prodPair v v else asPair (Val.zero false))),
   (vs.filter (fun v => !v.isFin)).length⟩

/-- A result of the slot that stands at place `i` of the list of slots. -/
def outOf (slots : List MillSlot) (i slot : Nat) (vals : List Val) : MillOut :=
  match slots[i]? with
  | some t => { ref := t.ref, len := t.len, slot := slot, vals := vals, rem := t.rem }
  | none => { ref := TRef.zero, len := 0, slot := slot, vals := [] }

/-- What a MILL order's operation gives (R184 to R202). -/
def State.millResult (s : State) (c : Nat) (r : MillRun) (wide : Bool) : MillResult :=
  let op := r.op
  let p := r.args
  let her := s.bit pgNum R.numstep_CFG_HERITAGE
  let slots := s.millSlots c op 0 p wide r.bnd
  let rowsOf (i : Nat) : List (List Val) := match slots[i]? with | some t => s.millRows c her t | none => []
  let x := rowsOf 0
  let nanIn (l : List (List Val)) : Bool := l.any (fun v => v.any (·.isNan))
  let rnd (o : MillOut) : MillOut := if o.rem then { o with vals := o.vals.map (step32 her) } else o
  if isUnary op then { outs := [outOf slots 1 3 (x.flatten.map (millUnary her op))], nan := nanIn x }
  else if op = 0x22 then { outs := [outOf slots 1 3 x.flatten], nan := nanIn x }
  else if isBinary op then
    let y := rowsOf 1
    { outs := [outOf slots 2 3 (List.zipWith (millBinary her op (s.par c p 0) (s.par c p 4)) x.flatten y.flatten)]
      nan := nanIn x || nanIn y }
  else if op = 3 then
    let y := rowsOf 1
    let z := rowsOf 2
    { outs := [outOf slots 3 3 (List.zipWith (fun ab d => step32 her (Val.mulAdd ab.1 ab.2 d)) (List.zip x.flatten y.flatten) z.flatten)]
      nan := nanIn x || nanIn y || nanIn z }
  else if op = 0x10 then
    { outs := [{ outOf slots 1 3 (x.map (fun v => sumRow her (v.map asPair))) with contr := true }], nan := nanIn x }
  else if op = 0x11 then { outs := [outOf slots 1 3 (x.map maxRow)], nan := nanIn x }
  else if op = 0x12 then
    let y := rowsOf 1
    let len := match slots[0]?, slots[1]? with | some a, some b => chunkLen a.ref b.ref | _, _ => 64
    { outs := [{ outOf slots 2 3 (List.zipWith (fun a b => sumRow her (List.zipWith (rowProd her) a b)) x y) with
        contr := true, places := List.zipWith (badProduct len) x y }]
      nan := nanIn x || nanIn y }
  else if isNorm op then
    let layer := op == 0x19
    let g := (rowsOf 1).flatten
    let b := if layer then (rowsOf 2).flatten else []
    let rs := x.map (normRow her layer (s.par c p 0x14) g b)
    let i := if layer then 3 else 2
    { outs := [outOf slots i 3 (rs.flatMap (·.1)), outOf slots (i + 1) 4 (rs.flatMap (·.2.1)), outOf slots (i + 2) 5 (rs.map (·.2.2))]
      nan := nanIn x || nanIn [g] || nanIn [b] }
  else if op = 0x1A then
    let rs := x.map (smaxRow her (if p.param = 0 then none else some (s.par c p 0x24)))
    { outs := [outOf slots 1 3 (rs.flatMap (·.1)), outOf slots 2 4 (rs.map (·.2.1)), outOf slots 3 5 (rs.map (·.2.2))], nan := nanIn x }
  else if op = 0x20 then
    let xs := (List.range p.ncomb).map (fun i => (rowsOf i).flatten)
    { outs := [rnd (outOf slots p.ncomb 3 ((List.range (r.rows * r.len)).map (fun i =>
        combineVals her (xs.map (fun v => v.getD i (Val.zero false))))))]
      nan := nanIn xs }
  else if op = 0x21 then
    let rs := x.map (topkRow p.magnitude p.topk)
    let tail := padding (4 * r.rows * p.topk)
    { outs := [outOf slots 1 3 (rs.flatMap (fun l => l.map (·.1)))]
      raw := (List.zip rs (List.range rs.length)).map (fun y =>
        let pitch := if (p.slot 4).pitch = 0 then 4 * p.topk else (p.slot 4).pitch
        ((p.slot 4).elem + y.2 * pitch, y.1.flatMap (fun e => toLe 4 e.2) ++
          if (p.slot 4).pitch = 0 ∧ y.2 + 1 = r.rows then tail else []))
      nan := nanIn x
      topkNan := (x.flatten.filter (·.isNan)).length }
  else if isOpt op then
    let q := s.optParams c p
    let w := (rowsOf 1).flatten
    let m := if op = 0x28 then [] else (rowsOf 2).flatten
    let v := if op = 0x2A then (rowsOf 3).flatten else []
    let g := x.flatten
    let es := (List.range g.length).map (fun i =>
      let z := Val.zero false
      optElem her op q (g.getD i z) (w.getD i z) (m.getD i z) (v.getD i z))
    let w2 := es.map (·.2.2.2)
    let ci := if op = 0x28 then 2 else if op = 0x29 then 3 else 4
    { outs := [outOf slots 1 1 w2] ++ (if op = 0x28 then [] else [outOf slots 2 2 (es.map (·.2.1))]) ++
        (if op = 0x2A then [outOf slots 3 3 (es.map (·.2.2.1))] else []) ++ (if p.copy then [outOf slots ci 4 w2] else [])
      tally := if p.tsrc = 3 then [(p.tslot, squareSum w2), ((p.tslot + 1) % 256, squareSum (es.map (·.1))),
          ((p.tslot + 2) % 256, squareSum (List.zipWith (fun a b => step32 her (Val.sub a b)) w2 w))] else []
      nan := nanIn x || nanIn [w] || nanIn [m] || nanIn [v] }
  else
    let scales := stripScales x r.len
    { raw := (List.range (imagesOf r.rows)).map (fun i =>
        ((p.slot 3).elem + i * imageSize, wellImage her ((x.drop (512 * i)).take 512) scales p.budget)) }

/-- The operands of the mill's order have been read: its operation is carried out (R182 to R202). -/
def millCompute (c : Nat) (r : MillRun) (wide : Bool) : Prog := .get (fun s =>
  let x := s.millResult c r wide
  let main := (x.outs.filter (fun o => o.slot == 3)).flatMap (·.vals)
  .all [
    countNanIn c r.nanSeen x.nan,
    bumpBy (pgMill c) R.mill_TOPK_NAN_CNT x.topkNan,
    modCroft c (fun k => { k with mill := some { r with
      carried := true, outs := x.outs, raw := x.raw, tally := if wide then [] else x.tally,
      nanSeen := r.nanSeen || x.nan, amax := amaxOf (Val.zero false) main } })])

/-- The mill carries out the operation `op` of its order: its results wait to be converted, its bytes to be written. -/
def carryMill (c op : Nat) : Prog := .get (fun s =>
  match (s.croft c).mill with
  | none => .done
  | some r =>
    if r.op ≠ op ∨ r.carried ∨ r.cmp.isSome ∨ !s.clockRuns c ∨ s.underReset (pgMill c) then .done
    else
      let wide := s.orderWide c r.serial
      .all [engineReads c 6 r.idx (s.millReads c (s.millSlots c op 0 r.args wide r.bnd) op r.args), millCompute c r wide])

/-- The operands of a COMPARE have been read: D and Q in the lane order of R186 (R224). -/
def compareSums (c : Nat) (r : MillRun) (g : Nat) (k : Contrib) : Prog := .get (fun s =>
  let her := s.bit pgNum R.numstep_CFG_HERITAGE
  let x := (s.millRows c her (compareSlot (s.asRead c (r.args.slot 0)) r.len 0)).flatten
  let y := (s.millRows c her (compareSlot (s.asRead c (r.args.slot 1)) r.len 0)).flatten
  let d := List.zipWith (fun a b => step32 her (Val.sub a b)) x y
  let z : Pair := ⟨Val.zero false, Val.zero false⟩
  let sum (l : List Val) : Pair := (lanePairs (l.map (fun v => prodPair v v))).getD z
  .all [
    countNanIn c r.nanSeen (x.any (·.isNan) || y.any (·.isNan)),
    modCroft c (fun q => { q with mill := some { r with
      carried := true, cmp := some (g, { k with d := sum d, q := sum y, nonfin := d.any (fun v => !v.isFin) }) } })])

/-- The mill carries out a COMPARE (R224). -/
def carryCompare (c : Nat) : Prog := .get (fun s =>
  match (s.croft c).mill with
  | none => .done
  | some r =>
    match r.cmp with
    | none => .done
    | some (g, k) =>
      if r.carried ∨ !s.clockRuns c ∨ s.underReset (pgMill c) then .done
      else .all [
        engineReads c 8 r.idx (s.regions c (s.asRead c (r.args.slot 0)) 1 r.len ++ s.regions c (s.asRead c (r.args.slot 1)) 1 r.len),
        compareSums c r g k])

/-- A MILL row at its stage: issue by the reeve, or the operation on the mill. -/
def millRow (c op : Nat) : Stage → Prog
  | .issue => issueMill c op
  | .carry => carryMill c op

def execAdd (c : CroftId) (st : Stage) (s : State) : Host.Outcome State Fault Refusal := Prog.next (millRow c.val 0x01 st) s
def execMul (c : CroftId) (st : Stage) (s : State) : Host.Outcome State Fault Refusal := Prog.next (millRow c.val 0x02 st) s
def execFma (c : CroftId) (st : Stage) (s : State) : Host.Outcome State Fault Refusal := Prog.next (millRow c.val 0x03 st) s
def execAxpby (c : CroftId) (st : Stage) (s : State) : Host.Outcome State Fault Refusal := Prog.next (millRow c.val 0x04 st) s
def execRelu (c : CroftId) (st : Stage) (s : State) : Host.Outcome State Fault Refusal := Prog.next (millRow c.val 0x05 st) s
def execGelu (c : CroftId) (st : Stage) (s : State) : Host.Outcome State Fault Refusal := Prog.next (millRow c.val 0x06 st) s
def execSilu (c : CroftId) (st : Stage) (s : State) : Host.Outcome State Fault Refusal := Prog.next (millRow c.val 0x07 st) s
def execExp (c : CroftId) (st : Stage) (s : State) : Host.Outcome State Fault Refusal := Prog.next (millRow c.val 0x08 st) s
def execLog (c : CroftId) (st : Stage) (s : State) : Host.Outcome State Fault Refusal := Prog.next (millRow c.val 0x09 st) s
def execRecip (c : CroftId) (st : Stage) (s : State) : Host.Outcome State Fault Refusal := Prog.next (millRow c.val 0x0A st) s
def execSqrt (c : CroftId) (st : Stage) (s : State) : Host.Outcome State Fault Refusal := Prog.next (millRow c.val 0x0B st) s
def execRsqrt (c : CroftId) (st : Stage) (s : State) : Host.Outcome State Fault Refusal := Prog.next (millRow c.val 0x0C st) s
def execDiv (c : CroftId) (st : Stage) (s : State) : Host.Outcome State Fault Refusal := Prog.next (millRow c.val 0x0D st) s
def execRsum (c : CroftId) (st : Stage) (s : State) : Host.Outcome State Fault Refusal := Prog.next (millRow c.val 0x10 st) s
def execRmax (c : CroftId) (st : Stage) (s : State) : Host.Outcome State Fault Refusal := Prog.next (millRow c.val 0x11 st) s
def execRdot (c : CroftId) (st : Stage) (s : State) : Host.Outcome State Fault Refusal := Prog.next (millRow c.val 0x12 st) s
def execNormFwdRms (c : CroftId) (st : Stage) (s : State) : Host.Outcome State Fault Refusal := Prog.next (millRow c.val 0x18 st) s
def execNormFwdLayer (c : CroftId) (st : Stage) (s : State) : Host.Outcome State Fault Refusal := Prog.next (millRow c.val 0x19 st) s
def execSmaxFwd (c : CroftId) (st : Stage) (s : State) : Host.Outcome State Fault Refusal := Prog.next (millRow c.val 0x1A st) s
def execCombine (c : CroftId) (st : Stage) (s : State) : Host.Outcome State Fault Refusal := Prog.next (millRow c.val 0x20 st) s
def execTopk (c : CroftId) (st : Stage) (s : State) : Host.Outcome State Fault Refusal := Prog.next (millRow c.val 0x21 st) s
def execConvert (c : CroftId) (st : Stage) (s : State) : Host.Outcome State Fault Refusal := Prog.next (millRow c.val 0x22 st) s
def execOptSgd (c : CroftId) (st : Stage) (s : State) : Host.Outcome State Fault Refusal := Prog.next (millRow c.val 0x28 st) s
def execOptMomentum (c : CroftId) (st : Stage) (s : State) : Host.Outcome State Fault Refusal := Prog.next (millRow c.val 0x29 st) s
def execOptAdam (c : CroftId) (st : Stage) (s : State) : Host.Outcome State Fault Refusal := Prog.next (millRow c.val 0x2A st) s
def execWellImage (c : CroftId) (st : Stage) (s : State) : Host.Outcome State Fault Refusal := Prog.next (millRow c.val 0x30 st) s

/-- TALLY_COMPARE: its issue, or the compare on the mill (R224). -/
def execTallyCompare (c : CroftId) (st : Stage) (s : State) : Host.Outcome State Fault Refusal :=
  Prog.next (match st with | .issue => issueCompare c.val | .carry => carryCompare c.val) s

/-! ### Stretches -/

/-- Traps of elements that begin at element `i0` of a result (R57, R60). -/
def millTraps (c : Nat) (r : MillRun) (o : MillOut) (i0 : Nat) (causes : List Nat) : Prog := .get (fun s =>
  .all [
    Prog.when (o.contr) (eff .seq),
    Prog.each (trapPlaces causes) (fun x =>
      let i := i0 + x.1
      let k := if o.contr then s.kPlace (if x.2 = 1 then o.places.getD i none else none) else (0, 0)
      trap c x.2 ⟨4, r.idx, i / max 1 o.len, i % max 1 o.len, k.1, k.2, (s.asRead c (r.args.slot 0)).fmt,
        if readsS1 r.op then (s.asRead c (r.args.slot 1)).fmt else 0, o.ref.fmt, o.ref.rnd⟩)])

/-- Elements of a stretch (R198). -/
def stretch : Nat := 4096

/-- Write converted elements from element `i0` of a result on. -/
def writeStretch (src : Option Source) (c : Nat) (o : MillOut) (i0 peel0 : Nat) (k : Conv) : Prog := .all [
  if o.ref.bsize = 0 ∧ o.ref.pitch ≠ 0 then
    Prog.each (List.zip k.codes (List.range k.codes.length)) (fun x =>
      storeCodes src c (o.ref.elem + (i0 + x.2) / max 1 o.len * o.ref.pitch) o.ref.format 0 ((i0 + x.2) % max 1 o.len) [x.1])
  else storeCodes src c o.ref.elem o.ref.format o.vals.length i0 k.codes,
  Prog.when (o.ref.bsize != 0) (
    storeScales src c o.ref.scale (o.vals.length / max 1 o.ref.bsize) (i0 / max 1 o.ref.bsize) k.scales),
  storePeels src c o.ref peel0 k.peels]

/-- A stretch of a result held as head and remnant is split and written (R197, R222). -/
def splitStretch (c : Nat) (r : MillRun) (o : MillOut) (part : List Val) : Prog :=
  let sp := part.map split
  .all [
    store (byEngine 6 r.idx) (sliceAddr c (o.ref.elem + 2 * o.done)) (sp.flatMap (fun x => toLe 2 x.head) ++
      if o.done + part.length = o.vals.length then padding (2 * o.vals.length) else []),
    store (byEngine 6 r.idx) (sliceAddr c (o.ref.elem + pad64 (2 * o.vals.length) + o.done)) (sp.map (fun x => BitVec.ofNat 8 x.rem)),
    bumpBy (pgMill c) R.mill_SPLIT_STEP_CNT (sp.filter (·.stepped)).length,
    bumpBy (pgMill c) R.mill_MASTER_SAT_CNT (sp.filter (·.held)).length,
    millTraps c r o o.done (part.map (·.cause))]

/-- The result advanced by `n` elements, and the mill's flags of the stretch. -/
def advanceOut (c n : Nat) (again ovf : Bool) : Prog := modCroft c (fun k => { k with
  mill := k.mill.map (fun r => { r with
    outs := match r.outs.findIdx? (fun o => decide (o.done < o.vals.length)) with
      | some i => r.outs.modify i (fun o => { o with done := o.done + n })
      | none => r.outs
    retry := false, retried := r.retried || again, ovf := r.ovf || ovf }) })

/-- MILL_STRETCH_END: the next stretch of the order's results is converted and written, or, after an overflow event of a DELAYED
result under TILE_RETRY, converted again with raised scales (R166, R167, R183, R198). -/
def execMillStretchEnd (c : CroftId) (s : State) : Host.Outcome State Fault Refusal :=
  Prog.next (.get (fun s =>
    let c := c.val
    match (s.croft c).mill with
    | none => .done
    | some r =>
      match r.outs.find? (fun o => decide (o.done < o.vals.length)) with
      | none => .done
      | some o =>
        if !s.clockRuns c || s.underReset (pgMill c) then .done
        else
          let part := (o.vals.drop o.done).take stretch
          if o.rem then .all [splitStretch c r o part, advanceOut c part.length false false]
          else
            let pol := s.bit (pgMill c) R.mill_MILLCFG_OVF_POLICY
            let peel0 := s.peelsBefore c o.ref (o.done == 0)
            let scale := if r.retry then raisedScale r.scale else r.scale
            let k := convert o.ref (s.convMode c) (fun i => (o.done + i) % 128) scale (s.peelCap c o.ref - peel0) o.done part
              { rng := s.rng c }
            if k.ovf && o.ref.smode == 1 && !pol && !r.retry then .all [
              keepRng c k.rng,
              bump (pgMill c) R.mill_RETRY_CNT,
              setFld (pgMill c) R.mill_STATUS_RETRYING 1,
              modCroft c (fun q => { q with mill := q.mill.map (fun r => { r with retry := true }) })]
            else .all [
              writeStretch (byEngine 6 r.idx) c o o.done peel0 k,
              keepRng c k.rng,
              countConv c k,
              millTraps c r o o.done k.causes,
              Prog.when k.ovf (.all [
                bump (pgMill c) R.mill_OVF_CNT,
                Prog.when r.retry (bump (pgMill c) R.mill_RETRY_FAIL_CNT),
                reportOvf c r.layer pol (if o.ref.smode = 1 then some r.args.rc else none)]),
              setFld (pgMill c) R.mill_STATUS_RETRYING 0,
              advanceOut c part.length r.retry k.ovf])) s

/-! ### The end of an order -/

/-- Add sums to a Tally slot of croft `c` (R160, R201). -/
def tallyAdd (c slot : Nat) (x : TallySlot) : Prog := .all [
  bumpBy (pgMill c) R.mill_TALLY_NONFIN_CNT x.nf,
  modCroft c (fun k =>
    let old := (Sparse.get? k.tally slot).getD ⟨none, 0⟩
    { k with tally := Sparse.set k.tally slot ⟨Pair.merge old.pair x.pair, old.nf + x.nf⟩ })]

/-- The slot whose elements TSRC A or C names, if the operation has one (R201). -/
def tallySlotOf (op tsrc : Nat) (slots : List MillSlot) : Option MillSlot :=
  if tsrc = 1 then slots.head?
  else if tsrc = 2 then (if isOpt op && op != 0x2A then none else slots.find? (fun t => t.place == 0x30))
  else none

/-- The mill is free again. -/
def millEnd (c : Nat) : Prog := .all [
  modCroft c (fun k => { k with mill := none }),
  setFld (pgMill c) R.mill_STATUS_BUSY 0,
  setFld (pgMill c) R.mill_STATUS_OP 0,
  setFld (pgMill c) R.mill_STATUS_RETRYING 0]

/-- MILL_ORDER_END: the order's results are all written; plain bytes, amax word and scale record follow, the Tally sums are added
and the order completes. A COMPARE sends its contribution and waits for the verdict (R187, R198, R201, R209, R224, R246). -/
def execMillOrderEnd (c : CroftId) (s : State) : Host.Outcome State Fault Refusal :=
  Prog.next (.get (fun s =>
    let c := c.val
    match (s.croft c).mill with
    | none => .done
    | some r =>
      if !r.carried || r.outs.any (fun o => decide (o.done < o.vals.length)) || !s.clockRuns c || s.underReset (pgMill c) then .done
      else
        match r.cmp with
        | some (g, k) => .all [
            bump (pgTally c) R.tally_CMP_CNT,
            modDev (fun d => { d with contribs := d.contribs ++ [(g, k)] }),
            millEnd c]
        | none =>
          let wide := s.orderWide c r.serial
          let w := asWritten wide r.bnd (r.args.slot 3)
          let delayed := resultInS3 r.op && w.smode == 1
          .all [
            Prog.each r.raw (fun x => store (byEngine 6 r.idx) (sliceAddr c x.1) x.2),
            Prog.when (r.op == 0x22 && r.args.hasAmax) (storeLe (byEngine 6 r.idx) (sliceAddr c r.args.amax) 4 (code32 r.amax)),
            Prog.when delayed (updateRecord (byEngine 6 r.idx) c r.args.rc w.format r.amax r.retried),
            Prog.each r.tally (fun x => tallyAdd c x.1 x.2),
            .get (fun s =>
              let her := s.bit pgNum R.numstep_CFG_HERITAGE
              match tallySlotOf r.op r.args.tsrc (s.millSlots c r.op 0 r.args wide r.bnd) with
              | some t => Prog.when (!wide) (tallyAdd c r.args.tslot (squareSum (s.millRows c her t).flatten))
              | none => .done),
            bump (pgMill c) R.mill_ORDER_CNT,
            millEnd c,
            dropOrder c r.serial])) s

end Sys2Proof.Machine
end

