-- ==== Sys2Proof/Machine/NumStep.lean ====
section
/-! DEFINITION. Tally: slots, device entries, compares and their verdicts, and the boundary's norms and jumps (R224 to R230). -/
namespace Sys2Proof.Machine

/-! ### Slots and entries -/

def modEntry (e : Nat) (f : TallyEntry → TallyEntry) : Prog := modDev (fun d => { d with
  entries := Sparse.set d.entries e (f ((Sparse.get? d.entries e).getD {})) })

/-- A slot of croft `c` goes to a device entry and is cleared (R227). -/
def tallySend (c slot entry : Nat) : Prog := .get (fun s =>
  let x := (Sparse.get? (s.croft c).tally slot).getD ⟨none, 0⟩
  .all [
    bump (pgTally c) R.tally_FLUSH_CNT,
    modCroft c (fun k => { k with tally := Sparse.eraseRange k.tally slot (slot + 1) }),
    modEntry entry (fun e =>
      let old := (Sparse.get? e.slots c).getD ⟨none, 0⟩
      { e with slots := Sparse.set e.slots c ⟨Pair.merge old.pair x.pair, old.nf + x.nf⟩ })])

/-- TALLY_FLUSH: on a span's repeat it has no effect (R227, R246, R254). -/
def execTallyFlush (c : CroftId) (s : State) : Host.Outcome State Fault Refusal :=
  Prog.next (issueRow c.val (fun s i _ o =>
    match o with
    | .tallyFlush slot entry => some (.all [
        Prog.when (!(s.reeve c.val).wide) (tallySend c.val slot entry), issueDone c.val (nextIdx i)])
    | _ => none)) s

/-- TALLY_CLEAR: clears a range of slots; on a span's repeat it has no effect (R227, R246, R254). -/
def execTallyClear (c : CroftId) (s : State) : Host.Outcome State Fault Refusal :=
  Prog.next (issueRow c.val (fun s i _ o =>
    match o with
    | .tallyClear first last => some (.all [
        Prog.when (!(s.reeve c.val).wide) (modCroft c.val (fun k => { k with tally := Sparse.eraseRange k.tally first (last + 1) })),
        issueDone c.val (nextIdx i)])
    | _ => none)) s

/-! ### Compares -/

/-- Compares of group `g`, the open one first. -/
def State.compares (s : State) (g : Nat) : List (List Contrib) := (Sparse.get? s.dev.groups g).getD []

/-- Whether every contribution of a compare has arrived (R225). -/
def compareFull (l : List Contrib) : Bool :=
  match l with
  | [] => false
  | k :: _ => decide (k.count ≤ l.length)

/-- Set a bit of a field. -/
def putBit (p : Page) (f : Fld) (i : Nat) (b : Bool) : Prog := .get (fun s =>
  let v := s.fld p f
  setFld p f (if b then v ||| 2 ^ i else v &&& (2 ^ f.width - 1 - 2 ^ i)))

/-- Set the compares of a group; PENDING follows (R236). -/
def setCompares (g : Nat) (l : List (List Contrib)) : Prog := .all [
  modDev (fun d => { d with groups := if l.isEmpty then Sparse.eraseRange d.groups g (g + 1) else Sparse.set d.groups g l }),
  putBit pgNum R.numstep_GROUP_STATUS_PENDING g (match l with | [] => false | k :: _ => !compareFull k)]

/-- A contribution joins the first compare that is not full, or opens one; none where it does not agree with its first. -/
def joinCompare (k : Contrib) : List (List Contrib) → Option (List (List Contrib))
  | [] => some [[k]]
  | l :: ls =>
    if compareFull l then (joinCompare k ls).map (l :: ·)
    else
      match l with
      | [] => some ([k] :: ls)
      | f :: _ => if f.layer = k.layer ∧ f.count = k.count then some ((l ++ [k]) :: ls) else none

/-- The TALLY COMPARE a croft has not completed. -/
def State.compareOrder (s : State) (c : Nat) : Option Issued := (s.reeve c).orders.find? (fun o => o.engine == 8)

/-- TALLY_CONTRIBUTION: the `k`-th contribution on its way reaches the device half; one that disagrees with its group's first is
an order fault (R225, R239). -/
def execTallyContribution (k : Nat) (s : State) : Host.Outcome State Fault Refusal :=
  Prog.next (.get (fun s =>
    match s.dev.contribs[k]? with
    | none => .done
    | some (g, x) => .all [
        modDev (fun d => { d with contribs := d.contribs.eraseIdx k }),
        match joinCompare x (s.compares g) with
        | some l => setCompares g l
        | none =>
          match s.compareOrder x.croft with
          | some o => .all [
              pageFault (pgTally x.croft) 2 (sliceAddr x.croft (s.orderOffset x.croft o.idx)), raiseLine (pgTally x.croft),
              orderFault x.croft o.idx 8, dropOrder x.croft o.serial, noVerdict x.croft]
          | none => .done])) s

/-- The index `n` orders after `i` in stream order. -/
def skipIdx : Nat → Nat → Nat
  | 0, i => i
  | n + 1, i => skipIdx n (nextIdx i)

/-- Insert in ascending croft order. -/
def insertContrib (k : Contrib) : List Contrib → List Contrib
  | [] => [k]
  | x :: xs => if k.croft < x.croft then k :: x :: xs else x :: insertContrib k xs

/-- D, Q and the verdict of a compare's contributions (R225). -/
def verdictOf (limit : Nat) (l : List Contrib) : Val × Val × Bool :=
  let ks := l.foldl (fun a k => insertContrib k a) []
  let sum (f : Contrib → Pair) : Val :=
    match (ks.foldl (fun (a : Option Pair) k => Pair.merge a (some (f k))) none) with
    | some p => p.val
    | none => Val.zero false
  let d := sum (·.d)
  let q := sum (·.q)
  let fail := ks.any (·.nonfin) || !d.isFin || (q.isZero && !d.isZero) || Val.lt (q.scale (-(2 * limit : Nat) : Int)) d
  (d, q, fail)

/-- CMP_RATIO of a compare (R238). -/
def ratioCode (d q : Val) : Nat :=
  if q.isZero then (if d.isZero then 0 else 0x7F800000) else code32 (Val.div d q)

/-- The verdict reaches a contributing croft (R225, R261). -/
def verdictTo (g : Nat) (fail : Bool) (ratio layer : Nat) (c : Nat) : Prog := .get (fun s => .all [
  setFld (pgTally c) R.tally_CMP_LAST_VALID 1,
  setBit (pgTally c) R.tally_CMP_LAST_FAIL fail,
  setFld (pgTally c) R.tally_CMP_LAST_GROUP g,
  setFld (pgTally c) R.tally_CMP_LAST_LAYER layer,
  setReg (pgTally c) R.tally_CMP_RATIO_RATIO.off (BitVec.ofNat 32 ratio),
  Prog.when fail (bump (pgTally c) R.tally_CMP_FAIL_CNT),
  match s.compareOrder c with
  | none => .done
  | some o =>
    let skip := match decodeOrder o.word with | .ok (.tallyCompare _ n _ _) => n | _ => 0
    .all [
      dropOrder c o.serial,
      Prog.when ((s.reeve c).wait == .verdict) (.all [
        noVerdict c,
        setPC c (if fail then nextIdx o.idx else skipIdx skip (nextIdx o.idx)),
        Prog.when (!fail) (bumpBy (pgReeve c) R.reeve_SKIP_CNT skip)])]])

/-- TALLY_VERDICT: the device half decides the open compare of group `g` (R216, R225, R226, R261). -/
def execTallyVerdict (g : Fin 16) (s : State) : Host.Outcome State Fault Refusal :=
  Prog.next (.get (fun s =>
    match s.compares g.val with
    | [] => .done
    | l :: rest =>
      if !compareFull l then .done
      else
        let v := verdictOf (s.fld pgNum R.numstep_CFG_DIV_LIMIT) l
        let ks := l.foldl (fun a k => insertContrib k a) []
        let layer := match l with | k :: _ => k.layer | [] => 0
        .all [
          setCompares g.val rest,
          putBit pgNum R.numstep_GROUP_STATUS_FAIL g.val v.2.2,
          Prog.each (ks.map (·.croft)).dedup (verdictTo g.val v.2.2 (ratioCode v.1 v.2.1) layer),
          Prog.when v.2.2 (.all [
            bump pgNum R.numstep_RECOMP_CNT,
            fallBack ((ks.head?.map (·.croft)).getD 0) layer 3])])) s

/-! ### The boundary -/

/-- The field J of a kind (R229, R236). -/
def State.jumpField (s : State) (kind : Nat) : Nat :=
  match kind with
  | 0 => s.fld pgNum R.numstep_JUMPCFG_J_W
  | 1 => s.fld pgNum R.numstep_JUMPCFG_J_G
  | 2 => s.fld pgNum R.numstep_JUMPCFG_J_U
  | _ => s.fld pgNum R.numstep_JUMPCFG_J_A

/-- Whether `x` exceeds `y × 2^(j/4)`, for values not below zero: compared in fourth powers (R229). -/
def overOctaves (x y : Val) (j : Nat) : Bool :=
  let p4 (v : Val) : Val := Val.mul (Val.mul v v) (Val.mul v v)
  Val.lt ((p4 y).scale j) (p4 x)

/-- What a boundary does to one entry: the entry after it, and its norm and reference where it jumps (R228, R229). Without a
contribution its norm is that of no pairs, zero. `passed` is the number of boundaries passed since ENABLE, this one included. -/
def State.entryStep (s : State) (passed : Nat) (e : TallyEntry) : TallyEntry × Option (Nat × Nat) :=
  let sums := e.slots.map (·.2)
  let pair := sums.foldl (fun (a : Option Pair) x => Pair.merge a x.pair) none
  let n := match pair with | some p => code32 (Val.sqrt (rne p.val)) | none => 0
  let nf := sums.any (fun x => x.nf != 0)
  let v := f32 n
  let e1 := { e with norm := n, slots := [] }
  if nf || !v.isFin then (e1, some (n, e.ref))
  else if !e.seen then (if e.slots.isEmpty then e1 else { e1 with ref := n, seen := true }, none)
  else
    let r := f32 e.ref
    let j := s.jumpField (e.cfg % 4)
    let jump := decide (s.fld pgNum R.numstep_JUMPCFG_WARMUP < passed) && (overOctaves v r j || overOctaves r v j)
    let a := s.fld pgNum R.numstep_JUMPCFG_EWMA
    let r' := rne (Val.add r ((rne (Val.sub v r)).scale (-(a : Int))))
    ({ e1 with ref := code32 r' }, if jump then some (n, e.ref) else none)

/-- Tally at a step boundary: norms, references and jumps of the entries in use (R228 to R230). -/
def tallyBoundary (passed : Nat) : Prog := .get (fun s =>
  let steps := s.dev.entries.map (fun x => (x.1, if x.2.cfg / 4 % 2 = 1 then s.entryStep passed x.2 else ({ x.2 with slots := [] }, none)))
  let jumps := steps.filterMap (fun x => x.2.2.map (fun j => (x.1, x.2.1.cfg % 4, j)))
  .all [
    modDev (fun d => { d with entries := steps.map (fun x => (x.1, x.2.1)) }),
    match jumps with
    | [] => .done
    | (e, kind, n, r) :: _ => .all [
        bump pgNum R.numstep_JUMP_CNT,
        setFld pgNum R.numstep_JUMP_LOG_ENTRY e,
        setFld pgNum R.numstep_JUMP_LOG_KIND kind,
        setFld pgNum R.numstep_JUMP_LOG_VALID 1,
        setReg pgNum R.numstep_JUMP_NORM_N.off (BitVec.ofNat 32 n),
        setReg pgNum R.numstep_JUMP_REF_REF.off (BitVec.ofNat 32 r),
        raiseLine pgNum,
        Prog.each jumps (fun _ => tellWatch 12)]])

end Sys2Proof.Machine
end

