-- ==== Sys2Proof/Machine/Steps.lean ====
section
/-! DEFINITION. The step barrier, its boundary and its release (R255, R391, R418, R422, R546), and the repeat of an abandoned step
(R218). -/
namespace Sys2Proof.Machine

/-! ### The barrier (R255, R418) -/

/-- What a boundary leaves in the step numerics page and Tally (R216, R219, R228, R236). -/
def numericsBoundary : Prog := .get (fun s => .all [
  setReg pgNum R.numstep_STEP_INDEX.off (BitVec.ofNat 32 (s.stepIndex + 1)),
  setFld pgNum R.numstep_STATUS_FALLBACKS 0,
  setFld pgNum R.numstep_STATUS_REPEATING 0,
  modDev (fun d => { d with fallLayers := [] }),
  tallyBoundary (s.stepIndex + 1)])

/-- The device passes its step boundary: every croft latches one Bell count, and the boundary's actions run (R255). A stop pending now
is the one the crofts halt with (R546). (DEDUCED, assumption 24) (DEDUCED, assumption 25) -/
def passBoundary : Prog := .all [
  numericsBoundary,
  Prog.each allCrofts (fun c => .all [
    latchBell (pgReeve c) R.reeve_STEP_BELL_LO R.reeve_STEP_BELL_HI,
    .get (fun s => Prog.when (!(s.reeve c).repeated.isEmpty) (modReeve c (fun r => { r with repeated := [] })))]),
  ledgerSwap false,
  watchBoundary,
  bucketBoundary,
  .get (fun s => modDev (fun d => { d with boundary := true, stopHere := s.bit pgPlan R.plan_STATUS_STOP_PENDING }))]

/-- Whether every croft with an enabled reeve page has reported, and the boundary is still to be passed. -/
def State.allReported (s : State) : Bool :=
  !s.dev.boundary && !s.enabledReeves.isEmpty && s.enabledReeves.all (fun c => (s.reeve c).reported)

/-- The boundary is passed where the last report stands. -/
def tryBoundary : Prog := Prog.whenever State.allReported passBoundary

/-- Whether croft `c` stands at a step FENCE whose wait is over (R253, R255). -/
def State.stepFenceOver (s : State) (c : Nat) : Bool :=
  (s.reeve c).wait == .fence && (s.reeve c).drained 0x3F && (s.reeve c).pend.isEmpty &&
  (match s.waiting c with
   | some (_, _, .fence _ _ _ step) => step
   | _ => false)

/-- STEP_REPORT: the wait of a step FENCE is over and the croft reports; the last report passes the boundary (R255). -/
def execStepReport (c : CroftId) (s : State) : Host.Outcome State Fault Refusal :=
  Prog.next (.get (fun s =>
    if s.stepFenceOver c.val then .all [
      modReeve c.val (fun r => { r with reported := true, wait := .stepBarrier }),
      tryBoundary]
    else .done)) s

/-- A croft leaves the barrier: it halts with STEP_STOP, or goes on at ENTRY in phase 0 (R255, R277, R546). A stopped croft's PC holds the
index it would have gone on at. (DEDUCED, assumption 26) -/
def leaveBarrier (stop : Bool) (c : Nat) : Prog := .get (fun s => .all [
  modReeve c (fun r => { r with reported := false, wait := .none }),
  setFld (pgOwn c) R.own_STATUS_PHASE 0,
  setPC c (s.fld (pgReeve c) R.reeve_ENTRY_INDEX),
  if stop then .all [setFld (pgReeve c) R.reeve_STATUS_HALT_REASON 6, croftStops c]
  else bump (pgReeve c) R.reeve_STEP_CNT])

/-- Whether the boundary passed may be released: the snapshot that began there has its headers, and it is not held (R418, R422). -/
def State.releasable (s : State) : Bool :=
  s.dev.boundary && !s.bit pgBucket R.bucket_STATUS_HELD && (match s.dev.snap with | some n => n.begun | none => true)

/-- STEP_BARRIER_RELEASE: every croft at the barrier goes on, or halts for the stop (R255, R418). -/
def execStepBarrierRelease (s : State) : Host.Outcome State Fault Refusal :=
  Prog.next (.get (fun s =>
    if s.releasable then .all [
      modDev (fun d => { d with boundary := false, stopHere := false }),
      Prog.each (allCrofts.filter (fun c => (s.reeve c).wait == .stepBarrier)) (leaveBarrier s.dev.stopHere)]
    else .done)) s

/-! ### The repeat of an abandoned step (R218) -/

/-- Length of a scale record (R207). -/
def recordSize : Nat := 128

/-- Whether an entry of RECLIST is the 64-byte-aligned local address of a record wholly in a mapped slice (R218, R317). -/
def recordValid (a : Nat) : Bool :=
  decide (a % 64 = 0) &&
  (match placeOf a with
   | .slice _ o => inSlice o recordSize
   | _ => false)

/-- HEADROOM and SCALE of the record at `a` rise by 2, each hold counted (R218). -/
def liftRecord (a : Nat) : Prog := .get (fun s =>
  let sc := s.le a 1
  let h := s.le (a + 1) 1
  .all [
    storeLe (some .steward) a 1 (min 0xFE (sc + 2)),
    storeLe (some .steward) (a + 1) 1 (h / 8 * 8 + min 7 (h % 8 + 2)),
    bumpBy pgNum R.numstep_HEADROOM_SAT_CNT ((if 7 < h % 8 + 2 then 1 else 0) + (if 0xFE < sc + 2 then 1 else 0))])

/-- An entry of RECLIST fails its check: nothing is raised and the device stays halted (R218). -/
def repeatRefused (addr : Nat) : Prog := .all [
  setFld pgNum R.numstep_STATUS_HALTED 1,
  setFld pgNum R.numstep_STATUS_ABANDONING 0,
  pageFault pgNum 2 addr,
  raiseLine pgNum]

/-- The devices of the system that this one knows: the village's, and those that its ports name (R218, R370). (DEDUCED, assumption 27) -/
def State.knownDevs (s : State) : List Nat :=
  (s.self ::
    ((List.range 16).filter (fun v => s.portFld R.port_VDEV_VALID (4 * v) == 1)).map (fun v => s.portFld R.port_VDEV_DEV (4 * v)) ++
    ((List.range 16).filter (fun p => s.portFld R.port_PORT_LINKS_VALID (8 * p) == 1)).map
      (fun p => s.portFld R.port_PORT_FAR_FAR_DEV (8 * p))).dedup

/-- STEP_REPEAT: the Steward checks every entry of RECLIST, raises the records and restarts every reeve at ENTRY (R218, R391). (DEDUCED,
assumption 27) -/
def execStepRepeat (s : State) : Host.Outcome State Fault Refusal :=
  Prog.next (.get (fun s =>
    let es := List.range s.recCount
    if !(s.bit pgNum R.numstep_STATUS_ABANDONING && s.enabledReeves.all (fun c => s.bit (pgReeve c) R.reeve_STATUS_HALTED) &&
      s.knownDevs.all (fun d => s.dev.haltedDevs.contains d)) then .done
    else
      match es.find? (fun i => !recordValid (s.recEntry i)) with
      | some i => repeatRefused (s.recList + 8 * i)
      | none => .all [
          Prog.each es (fun i => liftRecord (s.recEntry i)),
          setFld pgNum R.numstep_STATUS_REPEATING 1,
          setFld pgNum R.numstep_STATUS_FALLBACKS 0,
          setFld pgNum R.numstep_STATUS_ABANDONING 0,
          modDev (fun d => { d with fallLayers := [], haltedDevs := [] }),
          ledgerSwap true,
          Prog.each s.enabledReeves (fun c => cleanRestartOr c (s.fld (pgReeve c) R.reeve_ENTRY_INDEX))])) s

/-- HALT_MESSAGE: a Steward learns that a device has halted after an abandonment (R218). -/
def execHaltMessage (l : LinkId) (origin : BitVec 14) (b : BitVec 32) (s : State) : Host.Outcome State Fault Refusal :=
  Prog.next (hear l.val (.halted origin.toNat b.toNat) (modDev (fun d => { d with
    haltedDevs := if d.haltedDevs.contains origin.toNat then d.haltedDevs else d.haltedDevs ++ [origin.toNat] }))) s

end Sys2Proof.Machine
end

