-- ==== Sys2Proof/Machine/Bus.lean ====
section
/-! DEFINITION. Units that are retired (R503, R506 to R509), and updates of the device's records. -/
namespace Sys2Proof.Machine

/-! ### Retired units (R503, R508, R509) -/

/-- KIND codes of defect entries (R506). -/
def dkSpare : Nat := 1
def dkWell : Nat := 2
def dkPump : Nat := 3
def dkCroft : Nat := 4
def dkQueue : Nat := 5
def dkLink : Nat := 6

/-- Every entry that keeps a unit out of service: the sealed list's, and the runtime records. -/
def State.defectList (s : State) : List DefEntry := s.dev.boot.defects ++ s.dev.boot.runtime

/-- The logical columns given spares on well `w`, in entry order (R508). -/
def State.columnEntries (s : State) (w : Nat) : List Nat :=
  (s.dev.boot.defects.filter (fun e => e.kind == dkSpare && e.unit == w)).map (·.detail)

/-- The entry that names a unit itself, if it is retired so. -/
def State.retiredBy (s : State) (kind unit : Nat) : Option DefEntry :=
  s.defectList.find? (fun e => e.kind == kind && e.unit == unit)

/-- Whether a croft, a well, a pump, a queue or a link is retired, by itself or with its croft (R503); a well whose column entries exceed
16 is retired too (R508). -/
def State.retiredCroft (s : State) (c : Nat) : Bool := (s.retiredBy dkCroft c).isSome
def State.retiredWell (s : State) (w : Nat) : Bool :=
  (s.retiredBy dkWell w).isSome || s.retiredCroft (w / 16) || decide (16 < (s.columnEntries w).length)
def State.retiredPump (s : State) (p : Nat) : Bool := (s.retiredBy dkPump p).isSome || s.retiredCroft (p / 4)
def State.retiredQueue (s : State) (q : Nat) : Bool := (s.retiredBy dkQueue q).isSome || s.retiredCroft (q / 128)
def State.retiredLink (s : State) (l : Nat) : Bool := (s.retiredBy dkLink l).isSome

def modHost (f : HostPort → HostPort) : Prog := modDev (fun d => { d with host := f d.host })
def modCrier (f : CrierState → CrierState) : Prog := modDev (fun d => { d with crier := f d.crier })
def modPower (f : Power → Power) : Prog := modDev (fun d => { d with power := f d.power })
def modGauge (f : Gauge → Gauge) : Prog := modDev (fun d => { d with gauge := f d.gauge })
def modBoot (f : Boot → Boot) : Prog := modDev (fun d => { d with boot := f d.boot })
def modOrarn (f : Orarn → Orarn) : Prog := modDev (fun d => { d with orarn := f d.orarn })

end Sys2Proof.Machine
end

