-- ==== Sys2Proof/Machine/Crier.lean ====
section
/-! DEFINITION. Crier: sources, routes, claims and completes, mask and pending words (R454 to R465), and the MSI-X vectors it asserts
(R446). -/
namespace Sys2Proof.Machine

/-! ### Requests and eligibility (R454, R458, R464) -/

/-- Whether `n` is the number of a source (R454). -/
def isSource (n : Nat) : Bool := decide (1 ≤ n) && decide (n ≤ 2046)

/-- The source that the register at BAR0 offset `a`, holding `w`, makes request: the line of a page not under reset (R454 to R456). -/
def State.raisedBy (s : State) (a : Nat) (w : Word) : Option Nat :=
  let src := bitsOf w.toNat 0 11
  match pageAt a with
  | some p => if a % 0x1000 = R.CRIER_LINE_SOURCE.off ∧ w.getLsbD 16 ∧ 2 ≤ src ∧ src ≤ 2030 ∧ !s.underReset p then some src else none
  | none => none

/-- The sources that request: the mailbox's, those of raised lines, and those of CRIER.SW (R454). -/
def State.requests (s : State) : List Nat :=
  (if s.dev.host.mailbox.mstate = 2 then [1] else []) ++
  s.regs.filterMap (fun e => s.raisedBy e.1 e.2) ++
  ((List.range 16).filter (fun i => s.fld pgCrier R.crier_SW_SW / 2 ^ i % 2 == 1)).map (· + 2031)

/-- Bit of source `n` in a word array of the page. -/
def State.sourceBit (s : State) (f : Fld) (n : Nat) : Bool := s.fld pgCrier (f.plus (4 * (n / 32))) / 2 ^ (n % 32) % 2 == 1

/-- The sources whose PEND bit a write has set while they do not request (R464): what the PEND words store. -/
def State.injected (s : State) : List Nat := (List.range 2047).filter (fun n => isSource n && s.sourceBit R.crier_PEND n)

/-- The sources whose PEND bit reads 1. (DEDUCED, assumption 86) -/
def State.pendingSources (s : State) : List Nat :=
  if (s.regs.any (fun e => decide (pgCrier.base + 0x200 ≤ e.1) && decide (e.1 < pgCrier.base + 0x300))) then s.requests ++ s.injected
  else s.requests

/-- The target of a route word (R458, R462). -/
def routeTarget (w : Word) : Option Target :=
  let v := w.toNat
  match bitsOf v 0 2 with
  | 0 => none
  | 1 => some (.reeve (bitsOf v 2 7))
  | 2 => some .steward
  | _ => if bitsOf v 2 7 < 64 then some (.vector (bitsOf v 2 7)) else none

def State.route (s : State) (n : Nat) : Word := (Sparse.get? s.dev.crier.routes n).getD 0
def State.inService (s : State) (n : Nat) : Bool := s.dev.crier.service.any (fun e => e.1 == n)

/-- The sources eligible for target `t` (R458). -/
def State.eligible (s : State) (t : Target) : List Nat :=
  s.pendingSources.filter (fun n => routeTarget (s.route n) == some t && !s.sourceBit R.crier_MASK n && !s.inService n)

/-- The better of two sources: the higher priority, then the lower number (R459). -/
def State.better (s : State) (a b : Nat) : Nat :=
  let p (n : Nat) : Nat := bitsOf (s.route n).toNat 9 3
  if p a < p b ∨ (p a = p b ∧ b < a) then b else a

/-- The source a claim of target `t` takes, if any is eligible. (DEDUCED, assumption 87) -/
def State.claimable (s : State) (t : Target) : Option Nat :=
  if !s.enabled pgCrier then none
  else
    match s.eligible t with
    | [] => none
    | n :: ns => some (ns.foldl s.better n)

/-! ### MSI-X (R446) -/

def State.vec (s : State) (v : Nat) : Vec := (Sparse.get? s.dev.host.vecs v).getD {}
def modVec (v : Nat) (f : Vec → Vec) : Prog := .get (fun s => modHost (fun h => { h with vecs := Sparse.set h.vecs v (f (s.vec v)) }))

def setSignalled (t : Target) : Prog := modCrier (fun k => { k with
  signalled := if k.signalled.contains t then k.signalled else k.signalled ++ [t] })

/-- Whether Bus Master Enable, MSI-X Enable and Function Mask allow messages. -/
def HostPort.allows (h : HostPort) : Bool := h.busMaster && h.msixEnable && !h.funcMask

/-- A message of vector `v` is due: sent, kept in the pending bit while masked, or owed until the three bits allow it. -/
def sendMsix (v : Nat) : Prog := .get (fun s =>
  let e := s.vec v
  if e.masked || s.dev.host.funcMask then modVec v (fun e => { e with pend := true })
  else Prog.when s.dev.host.allows (.all [
    emit (.msix v e.addr e.data),
    modVec v (fun e => { e with pend := false }),
    setSignalled (.vector v)]))

/-- Vector `v` follows its sources: newly asserted, its message is due; no longer asserted, its pending bit clears. -/
def settleVector (v : Nat) : Prog := .get (fun s =>
  let now := (s.claimable (.vector v)).isSome
  if now == (s.vec v).asserted then .done
  else if now then .all [modVec v (fun e => { e with asserted := true }), sendMsix v]
  else modVec v (fun e => { e with asserted := false, pend := false }))

/-- The Steward's interrupt input follows its sources; its rise sets SIGNALLED (R459). -/
def settleSteward : Prog := .get (fun s =>
  let now := (s.claimable .steward).isSome
  if now == s.dev.crier.stewardUp then .done
  else .all [modCrier (fun k => { k with stewardUp := now }), Prog.when now (setSignalled .steward)])

/-! ### Claims and completes (R459 to R461) -/

/-- Clear the injected bit of a source. -/
def clearInjected (n : Nat) : Prog := .get (fun s =>
  let f := R.crier_PEND.plus (4 * (n / 32))
  Prog.when (s.sourceBit R.crier_PEND n) (setFld pgCrier f (s.fld pgCrier f - 2 ^ (n % 32))))

/-- Source `n` enters service at `t`: counted, its injected bit cleared. -/
def enterService (n : Nat) (t : Target) : Prog := .all [
  modCrier (fun k => { k with service := k.service ++ [(n, t)] }),
  clearInjected n,
  bump pgCrier R.crier_CLAIM_CNT]

def leaveService (n : Nat) : Prog := modCrier (fun k => { k with service := k.service.filter (fun e => e.1 != n) })

/-- Crier claims every source eligible for reeve `c` on its behalf and signals its token; one that does not request is complete at once
(R461, R464). -/
def serveReeve (c : Nat) : Prog := .get (fun s =>
  if !s.enabled pgCrier then .done
  else Prog.each (s.eligible (.reeve c)) (fun n => .get (fun s =>
    Prog.when (!s.inService n) (.all [
      enterService n (.reeve c),
      bump pgCrier R.crier_REEVE_SIG_CNT,
      modDev (fun d => { d with signals := d.signals ++ [{ src := none, dst := c, token := s.fld pgCrier R.crier_CFG_REEVE_TOKEN, count := 1 }] }),
      Prog.when (!s.requests.contains n) (leaveService n)]))))

/-- A target follows its sources. -/
def settle (t : Target) : Prog :=
  match t with
  | .reeve c => serveReeve c
  | .steward => settleSteward
  | .vector v => settleVector v

/-- The targets that some source is routed to, that are asserted, or that a source is in service at. -/
def State.targets (s : State) : List Target :=
  (s.dev.crier.routes.filterMap (fun e => routeTarget e.2)) ++ (s.dev.host.vecs.map (fun e => Target.vector e.1)) ++ [.steward]

/-- Every target follows its sources: after an enable, or a change of routes, masks or pending words. -/
def settleAll : Prog := .get (fun s => Prog.each s.targets settle)

/-- The target a source is routed to follows it. -/
def settleRoute (n : Nat) : Prog := .get (fun s =>
  match routeTarget (s.route n) with
  | some t => settle t
  | none => .done)

/-- CRIER_SOURCE_REQUEST: source `n` begins to request; its PEND bit is now the request's own (R458, R464). -/
def execCrierSourceRequest (n : BitVec 11) (s : State) : Host.Outcome State Fault Refusal :=
  Prog.next (.get (fun s => Prog.when (s.requests.contains n.toNat) (.all [clearInjected n.toNat, settleRoute n.toNat]))) s

/-- CRIER_SOURCE_WITHDRAW: every input of source `n` has fallen; Crier completes it where a reeve is its target (R456, R461, R464). -/
def execCrierSourceWithdraw (n : BitVec 11) (s : State) : Host.Outcome State Fault Refusal :=
  Prog.next (.get (fun s => Prog.when (isSource n.toNat && !s.requests.contains n.toNat) (.all [
    clearInjected n.toNat,
    Prog.when (s.dev.crier.service.any (fun e => e.1 == n.toNat && (match e.2 with | .reeve _ => true | _ => false)))
      (leaveService n.toNat),
    settleRoute n.toNat]))) s

/-- A claim of target `t`: the number it returns, and what it leaves (R459). -/
def claim (t : Target) : Prog := .get (fun s =>
  let clear := modCrier (fun k => { k with signalled := k.signalled.filter (· != t) })
  match s.claimable t with
  | some n => .all [enterService n t, clear, settle t, emit (.read n)]
  | none =>
    if s.enabled pgCrier && s.dev.crier.signalled.contains t then .all [bump pgCrier R.crier_SPUR_CNT, clear, emit (.read 0x7FF)]
    else .all [clear, emit (.read 0)])

/-- The target of an operand: a vector, or the Steward. -/
def hostTarget (t : Option (Fin 64)) : Target :=
  match t with
  | some v => .vector v.val
  | none => .steward

/-- Who claims and completes for a target (R461). -/
def targetAgent (t : Option (Fin 64)) : Agent := if t.isSome then .host else .steward

/-- Place of a vector's register in its array. -/
def vecOff (t : Option (Fin 64)) : Nat := match t with | some v => 4 * v.val | none => 0

/-- CRIER_CLAIM: a read of CLAIMv, or the Steward's (R459, R461). -/
def execCrierClaim (t : Option (Fin 64)) (s : State) : Host.Outcome State Fault Refusal :=
  Prog.next (regRead (targetAgent t) pgCrier (R.crier_CLAIM_NUMBER.off + vecOff t) (claim (hostTarget t))) s

/-- A complete of source `n` at target `t`; one that leaves a vector asserted sends its message again (R446, R460). -/
def complete (t : Target) (n : Nat) : Prog := .get (fun s =>
  if s.dev.crier.service.contains (n, t) then .all [
    leaveService n,
    .get (fun s => match t with
      | .vector v => if (s.claimable t).isSome && (s.vec v).asserted then sendMsix v else settleVector v
      | _ => settle t),
    settleRoute n]
  else bump pgCrier R.crier_BAD_COMPLETE_CNT)

/-- CRIER_COMPLETE: a write to COMPLETEv, or the Steward's (R460, R461). -/
def execCrierComplete (t : Option (Fin 64)) (v : Word) (s : State) : Host.Outcome State Fault Refusal :=
  Prog.next (regWrite (targetAgent t) pgCrier (R.crier_COMPLETE_NUMBER.off + vecOff t)
    (complete (hostTarget t) (bitsOf v.toNat 0 11))) s

/-! ### Routes, masks and pending words (R462, R464) -/

/-- Whether a route word names a retired croft's reeve, or a vector above 63 (R462). -/
def State.badRoute (s : State) (w : Word) : Bool :=
  let v := w.toNat
  (bitsOf v 0 2 == 1 && s.retiredCroft (bitsOf v 2 7)) || (bitsOf v 0 2 == 3 && decide (63 < bitsOf v 2 7))

/-- A write of ROUTE_DATA (R462, R467); the INSERVICE bit is no part of the route. -/
def writeRoute (v : Word) : Prog := .get (fun s =>
  let n := s.fld pgCrier R.crier_ROUTE_SEL_SOURCE
  let w : Word := v &&& ~~~0x1000#32
  if !isSource n || (s.enabled pgCrier && s.badRoute w) then ignored pgCrier
  else .all [modCrier (fun k => { k with routes := Sparse.set k.routes n w }), settleAll])

/-- ROUTE_DATA_WRITE (R462). -/
def execRouteDataWrite (who : Agent) (v : Word) (s : State) : Host.Outcome State Fault Refusal :=
  Prog.next (regWrite who pgCrier R.crier_ROUTE_DATA_TKIND.off (writeRoute v)) s

/-- A write of a PEND word: the bits of sources that request are hardware's, the others are stored (R464). -/
def writePend (w : Nat) (v : Word) : Prog := .get (fun s =>
  let rs := s.requests.filter (fun n => n / 32 == w)
  let keep := (List.range 32).foldl (fun (a : Nat) j => if v.toNat / 2 ^ j % 2 = 1 ∧ !rs.contains (32 * w + j) then a + 2 ^ j else a) 0
  .all [setReg pgCrier (R.crier_PEND.off + 4 * w) (BitVec.ofNat 32 keep), settleAll])

/-- PEND_WRITE (R464). -/
def execPendWrite (who : Agent) (w : Fin 64) (v : Word) (s : State) : Host.Outcome State Fault Refusal :=
  Prog.next (regWrite who pgCrier (R.crier_PEND.off + 4 * w.val) (writePend w.val v)) s

/-- A write of a MASK word: it affects claims and assertions that begin afterwards (R464). -/
def writeMask (w : Nat) (v : Word) : Prog := .all [setReg pgCrier (R.crier_MASK.off + 4 * w) v, settleAll]

/-- MASK_WRITE (R464). -/
def execMaskWrite (who : Agent) (w : Fin 64) (v : Word) (s : State) : Host.Outcome State Fault Refusal :=
  Prog.next (regWrite who pgCrier (R.crier_MASK.off + 4 * w.val) (writeMask w.val v)) s

end Sys2Proof.Machine
end

