-- ==== Sys2Proof/Machine/Host.lean ====
section
/-! DEFINITION. The host port: BAR2 accesses (R439 to R445), configuration requests, the MSI-X table and the link and its IDE streams
(R438, R446, R447). -/
namespace Sys2Proof.Machine

/-! ### BAR2 (R440 to R445) -/

/-- The village address of BAR2 offset `o` (R440, R441). -/
def State.windowAddr (s : State) (o : Nat) : Nat := s.fld pgWindow R.window_BASE_BASE * 2 ^ 40 + o

/-- Whether the host link runs at 128 GT/s ×8 (R439). -/
def State.fullRate (s : State) : Bool := s.fld pgHost R.host_LINK_RATE == 6 && s.fld pgHost R.host_LINK_WIDTH == 8

/-- Whether the device as a whole is under reset. -/
def State.deviceReset (s : State) : Bool := s.dev.resets.any (fun r => r.grain == .device)

/-- A request to BAR2 or BAR4 outside a secure IDE stream while IDE_REQ is 1 is refused (R447). -/
def needsIde (ide write : Bool) (k : Prog) : Prog := .get (fun s =>
  if s.bit pgHost R.host_CFG_IDE_REQ && !ide then .all [bump pgHost R.host_IDE_REQ_CNT, Prog.when (!write) (emit .ur)] else k)

/-- What every BAR2 access meets first; where it may go on, `k` has its village address (R22, R439, R442, R444). -/
def bar2 (o : Nat) (write ide : Bool) (k : Nat → Prog) : Prog := needsIde ide write (.get (fun s =>
  let a := s.windowAddr o
  if s.deviceReset || !s.atReady then hostEnd 1 endAbs write o
  else if !s.fullRate || !s.enabled pgHost then hostEnd 1 endUR write o
  else if a % 2 ^ 48 / 2 ^ 28 = 0x20000 then hostEnd 1 endRefused write o
  else k a))

/-- The end of an access that another village device has answered (R444). -/
def farEnd (o : Nat) (write : Bool) (far : FarAnswer) : Prog :=
  match far with
  | .silent => modHost (fun h => { h with waiting := h.waiting ++ [⟨write, o⟩] })
  | .ok bs => Prog.when (!write) (emit (.done bs))
  | .unmapped => hostEnd 1 endUR write o
  | .collision => hostEnd 1 endRefused write o
  | .uncorrectable => hostEnd 1 endUE write o
  | .absorbed => hostEnd 1 endAbs write o

/-- An access to another village device leaves on the lowest-numbered up link of the port towards it (R443); with none up it ends as a
link down (R444). -/
def bar2Far (p o a : Nat) (write : Bool) (bs : List Byte) (far : FarAnswer) : Prog := .get (fun s =>
  match (s.portLinks p).find? s.linkUp with
  | none => hostEnd 1 endTimeout write o
  | some l => .all [emit (.hostAccess l a write bs), farEnd o write far])

/-- An access of the host to a slice without the right is a collision that halts no croft (R280). -/
def hostCollide (c a : Nat) : Prog := .all [
  bump (pgOwn c) R.own_HOST_COLL_CNT,
  collide c 10 clBank (a / bankSize) 0 a none]

/-- An access of the host to memory under reset is absorbed: counted for the page that owns it, and ended (R16, R444). -/
def hostAbsorbed (p : Page) (write : Bool) (off : Nat) : Prog := .all [absorbAt p 1, hostEnd 1 endAbs write off]

/-- What the host reads of `n` bytes at local address `a`: memory, with its own earlier writes that a snapshot still holds (R420, R443). -/
def State.hostBytes (s : State) (a n : Nat) : List Byte :=
  let held : List HeldWrite := match s.dev.snap with | some x => x.held.filter (fun h => h.src == .host) | none => []
  held.foldl (fun (bs : List Byte) (h : HeldWrite) => (List.range n).map (fun i =>
    if h.addr ≤ a + i ∧ a + i < h.addr + h.bytes.length then h.bytes.getD (a + i - h.addr) 0 else bs.getD i 0)) (s.bytes a n)

/-- A read of the host's from this device's memory (R316, R443, R444). -/
def hostRead (off a n : Nat) : Prog := .all [
  readBy (some .host) a n,
  .get (fun s => if s.deadAt a n then hostEnd 1 endUE false off else emit (.done (s.hostBytes a n)))]

/-- A write of the host's to this device's memory; one that would merge into uncorrectable data is not carried out (R301, R311, R444). -/
def hostWrite (off a : Nat) (bs : List Byte) : Prog := .all [memStore .host a bs, ifRefused a bs.length (hostEnd 1 endUE true off) .done]

/-- HOST_BAR2_READ (R443, R444). (DEDUCED, assumption 115) -/
def execHostBar2Read (o : BitVec 40) (n : Nat) (ide : Bool) (far : FarAnswer) (s : State) : Host.Outcome State Fault Refusal :=
  Prog.next (bar2 o.toNat false ide (fun a => .get (fun s =>
    let l := a % 2 ^ 48
    match s.village a with
    | .none => hostEnd 1 endUR false o.toNat
    | .port p _ => bar2Far p o.toNat a false [] far
    | .here =>
      match placeOf l, placeOf (l + n - 1) with
      | .granary h, .granary _ =>
        if s.underReset (pgGran h) then hostAbsorbed (pgGran h) false o.toNat
        else if !s.granServes h then farEnd o.toNat false .silent
        else hostRead o.toNat l n
      | .slice c x, .slice c' _ =>
        if c ≠ c' then hostEnd 1 endUR false o.toNat
        else if s.croftUnderReset c then hostAbsorbed (pgCist c) false o.toNat
        else
          match s.bankMiss c agHost false x n with
          | some m => .all [hostCollide c m, hostEnd 1 endRefused false o.toNat]
          | none => hostRead o.toNat l n
      | _, _ => hostEnd 1 endUR false o.toNat))) s

/-- HOST_BAR2_WRITE (R415, R443, R444, R497). -/
def execHostBar2Write (o : BitVec 40) (bs : List Byte) (ide : Bool) (far : FarAnswer) (s : State) : Host.Outcome State Fault Refusal :=
  Prog.next (bar2 o.toNat true ide (fun a => .get (fun s =>
    let l := a % 2 ^ 48
    let n := bs.length
    match s.village a with
    | .none => hostEnd 1 endUR true o.toNat
    | .port p _ => bar2Far p o.toNat a true bs far
    | .here =>
      match placeOf l, placeOf (l + n - 1) with
      | .granary h, .granary _ =>
        if s.underReset (pgGran h) then hostAbsorbed (pgGran h) true o.toNat
        else if s.bucketKeeps l n then .all [bump pgBucket R.bucket_REFUSE_CNT, hostEnd 1 endRefused true o.toNat]
        else if touchesBoot l n then hostEnd 1 endRefused true o.toNat
        else if !s.granServes h then farEnd o.toNat true .silent
        else hostWrite o.toNat l bs
      | .slice c x, .slice c' _ =>
        if c ≠ c' then hostEnd 1 endUR true o.toNat
        else if s.croftUnderReset c then hostAbsorbed (pgCist c) true o.toNat
        else
          match s.bankMiss c agHost true x n with
          | some m => .all [hostCollide c m, hostEnd 1 endRefused true o.toNat]
          | none => hostWrite o.toNat l bs
      | _, _ => hostEnd 1 endUR true o.toNat))) s

/-- HOST_ACCESS_TIMEOUT: the `k`-th access that waits has had no acknowledgement for 100 µs (R444). -/
def execHostAccessTimeout (k : Nat) (s : State) : Host.Outcome State Fault Refusal :=
  Prog.next (.get (fun s =>
    match s.dev.host.waiting[k]? with
    | none => .done
    | some x => .all [
        modHost (fun h => { h with waiting := h.waiting.eraseIdx k }),
        hostEnd 1 endTimeout x.write x.off])) s

/-! ### Configuration, MSI-X table, link (R438, R439, R446, R447) -/

/-- After a change of the three bits that allow messages: if they now do and did not, every vector asserted and unmasked sends (R446). -/
def releaseMsix (before : Bool) : Prog := .get (fun s =>
  Prog.when (!before && s.dev.host.allows) (Prog.each (s.dev.host.vecs.filter (fun e => e.2.asserted && !e.2.masked)) (fun e => sendMsix e.1)))

/-- PCIE_CONFIG_REQUEST (R438, R446). -/
def execPcieConfigRequest (r : ConfigReq) (s : State) : Host.Outcome State Fault Refusal :=
  Prog.next (.get (fun s =>
    let before := s.dev.host.allows
    match r with
    | .command b => .all [modHost (fun h => { h with busMaster := b }), releaseMsix before, emit (.done [])]
    | .msixControl e m => .all [modHost (fun h => { h with msixEnable := e, funcMask := m }), releaseMsix before, emit (.done [])]
    | .other => emit (.done []))) s

/-- The entry after a write of one of its words; bit 0 of the last masks the vector (R446). -/
def Vec.write (e : Vec) (dw : Nat) (x : Word) : Vec :=
  match dw with
  | 0 => { e with addr := e.addr.extractLsb' 32 32 ++ x }
  | 1 => { e with addr := x ++ e.addr.extractLsb' 0 32 }
  | 2 => { e with data := x }
  | _ => { e with masked := x.getLsbD 0 }

/-- A write of word `dw` of entry `v` of the MSI-X table: unmasked while asserted with its pending bit set, the vector sends (R446). -/
def writeVec (v dw : Nat) (x : Word) : Prog := .get (fun s =>
  let old := s.vec v
  let new := old.write dw x
  .all [
    modVec v (fun _ => new),
    Prog.when (old.masked && !new.masked && new.asserted && new.pend) (sendMsix v)])

/-- MSIX_VECTOR_CONTROL (R446). -/
def execMsixVectorControl (v : Fin 64) (dw : Fin 4) (x : Word) (ide : Bool) (s : State) : Host.Outcome State Fault Refusal :=
  Prog.next (needsIde ide true (writeVec v.val dw.val x)) s

/-- LINK_RATE_CHANGE: a change of rate or width clears the host page's ENABLE (R439). -/
def execLinkRateChange (rate : Fin 7) (width : Fin 9) (flit : Bool) (s : State) : Host.Outcome State Fault Refusal :=
  Prog.next (.get (fun s =>
    let changed := s.fld pgHost R.host_LINK_RATE != rate.val || s.fld pgHost R.host_LINK_WIDTH != width.val
    .all [
      setFld pgHost R.host_LINK_RATE rate.val,
      setFld pgHost R.host_LINK_WIDTH width.val,
      setBit pgHost R.host_LINK_FLIT flit,
      Prog.when (changed && s.bit pgHost R.CTL_ENABLE) (.all [
        setFld pgHost R.CTL_ENABLE 0,
        setFld pgHost R.STATE_STATE stDisabled,
        raiseLine pgHost])])) s

/-- IDE_STREAM_EXIT: counted, the line raised, and passed to Watch; on which input is open (R447). -/
def execIdeStreamExit (s : State) : Host.Outcome State Fault Refusal :=
  Prog.next (.all [bump pgHost R.host_IDE_FAIL_CNT, raiseLine pgHost, tellWatchOpen]) s

end Sys2Proof.Machine
end

