-- ==== Sys2Proof/Machine/Mailbox.lean ====
section
/-! DEFINITION. The Steward mailbox: doorbell, requests and responses, and the messages that only report (R448 to R451, R517). -/
namespace Sys2Proof.Machine

def modMailbox (f : Mailbox → Mailbox) : Prog := modHost (fun h => { h with mailbox := f h.mailbox })

/-! ### Requests and responses (R448 to R450) -/

/-- RESULT values (R449). -/
def rsDone : Nat := 0
def rsUnknown : Nat := 1
def rsMalformed : Nat := 2
def rsNotNow : Nat := 3
def rsMismatch : Nat := 4
def rsFailed : Nat := 5

/-- OPCODEs (R451). -/
def opGetInfo : Nat := 1
def opSetPower : Nat := 2
def opGetCert : Nat := 3
def opAttest : Nat := 4
def opMeasure : Nat := 5
def opFwUpdate : Nat := 6
def opDefects : Nat := 7
def opDigests : Nat := 8
def opFaults : Nat := 9

/-- Messages that Orarn carries out (R526, R529, R530). -/
def isOrarnOp (op : Nat) : Bool := op == opGetCert || op == opAttest || op == opMeasure

/-- Byte `o` of the request area. -/
def Mailbox.byte (m : Mailbox) (o : Nat) : Byte := Memory.read m.area o

/-- `n` bytes of the request area. -/
def Mailbox.bytes (m : Mailbox) (o n : Nat) : List Byte := (List.range n).map (fun i => m.byte (o + i))

/-- Payload bytes the request area holds beyond a header. -/
def areaRoom : Nat := 508 * 1024 - 32

/-- The response of R449 is written, RSP_SEQ follows and MSTATE reads 2 (R450). -/
def respondTo (r : Request) (result : Nat) (payload : List Byte) : Prog := .all [
  modMailbox (fun m => { m with
    serving := none
    response := toLe 4 r.op ++ toLe 4 r.seq.toNat ++ toLe 4 payload.length ++ toLe 4 result ++ List.replicate 16 0 ++ payload
    rspSeq := r.seq
    mstate := 2 }),
  Prog.when (isOrarnOp r.op) (.all [
    setFld pgOrarn R.orarn_STATUS_BUSY 0,
    setFld pgOrarn R.orarn_STATUS_LAST_RESULT result])]

/-- The response to the request being served. -/
def respond (result : Nat) (payload : List Byte) : Prog := .get (fun s =>
  match s.dev.host.mailbox.serving with
  | some r => respondTo r result payload
  | none => .done)

/-- A message of OPCODE `op`, where the Steward is serving one: `k` answers it. -/
def serve (op : Nat) (k : Request → Prog) : Prog := .get (fun s =>
  match s.dev.host.mailbox.serving with
  | some r => if r.op = op then k r else .done
  | none => .done)

/-- As `serve`, with an answer of RESULT 0x02 where the payload has not `n` bytes. -/
def serveLen (op n : Nat) (k : Request → Prog) : Prog := serve op (fun r => if r.len = n then k r else respond rsMalformed [])

/-- A doorbell is accepted: the request is copied and MSTATE reads 1; an unknown OPCODE and a header out of form are answered (R449,
R450). -/
def takeRequest (seq : Word) : Prog := .get (fun s =>
  let m := s.dev.host.mailbox
  let op := leNat (m.bytes 0 4)
  let len := leNat (m.bytes 8 4)
  let r : Request := ⟨op % 65536, BitVec.ofNat 32 (leNat (m.bytes 4 4)), len, m.bytes 32 (min len areaRoom)⟩
  let known := decide (1 ≤ r.op) && decide (r.op ≤ 9)
  let form := op == r.op && decide (len ≤ areaRoom) && leNat (m.bytes 16 16) == 0
  .all [
    modMailbox (fun m => { m with mstate := 1, last := some seq, serving := some r }),
    if !known then respondTo r rsUnknown []
    else if !form then respondTo r rsMalformed []
    else Prog.when (isOrarnOp r.op) (setFld pgOrarn R.orarn_STATUS_BUSY 1)])

/-- A write of DOORBELL: accepted while MSTATE is 0 or 2 and the SEQ is new, else counted (R450). (DEDUCED, assumption 90) -/
def ringMailbox (seq : Word) : Prog := .get (fun s =>
  let m := s.dev.host.mailbox
  if (m.mstate == 0 || m.mstate == 2) && m.last != some seq then takeRequest seq
  else bump pgHost R.host_MBX_IGNORE_CNT)

/-- MAILBOX_DOORBELL (R450). -/
def execMailboxDoorbell (seq : Word) (ide : Bool) (s : State) : Host.Outcome State Fault Refusal :=
  Prog.next (needsIde ide true (ringMailbox seq)) s

/-! ### Messages that report (R451, R517) -/

/-- TYPEs of pages, ascending (R535). -/
def pageTypes : List Nat := (List.range 18).map (· + 1) ++ [0x20, 0x21] ++ (List.range 11).map (· + 0x30)

/-- GET_INFO: serial number, firmware revision and PAGE_REV of every page type, four bytes each (R451, R539). (DEDUCED, assumption 91) -/
def execGetInfo (s : State) : Host.Outcome State Fault Refusal :=
  Prog.next (serveLen opGetInfo 0 (fun _ => .get (fun s =>
    respond rsDone (toLe 16 Config.serial.toNat ++ toLe 4 s.dev.orarn.fwRev.toNat ++ pageTypes.flatMap (fun _ => toLe 4 1))))) s

/-- An entry of the defect list (R506). -/
def DefEntry.bytes (e : DefEntry) : List Byte := toLe 4 (e.kind + e.source * 256) ++ toLe 4 (e.unit + e.detail * 65536) ++ toLe 4 e.start ++ toLe 4 0

/-- The header of the defect list (R506). -/
def Boot.header (b : Boot) : List Byte :=
  toLe 4 1 ++ toLe 4 b.defects.length ++ toLe 8 b.starts ++ toLe 16 Config.serial.toNat ++ List.replicate 32 0

/-- READ_DEFECTS: the header, up to 32,000 entries from FIRST, and every runtime record with SOURCE 2 (R517). -/
def execReadDefects (s : State) : Host.Outcome State Fault Refusal :=
  Prog.next (serveLen opDefects 4 (fun r => .get (fun s =>
    let b := s.dev.boot
    respond rsDone (b.header ++ ((b.defects.drop (leNat (r.payload.take 4))).take 32000).flatMap DefEntry.bytes ++
      b.runtime.flatMap (fun e => DefEntry.bytes { e with source := 2 }))))) s

/-- READ_DIGESTS: the digests by link, collective and bank, SENT before RECV (R393, R451). -/
def execReadDigests (s : State) : Host.Outcome State Fault Refusal :=
  Prog.next (serveLen opDigests 0 (fun _ => .get (fun s =>
    respond rsDone ((List.range 16).flatMap (fun l => (List.range 256).flatMap (fun k => (List.range 2).flatMap (fun b =>
      (List.range 2).flatMap (fun d => toLe 16 (s.digest b d l k).toNat)))))))) s

/-- The BAR0 offsets of the pages that read FAULT, ascending. -/
def State.faultedPages (s : State) : List Nat :=
  (s.regs.filter (fun e => e.1 % 0x1000 = R.STATE_STATE.off && e.2.toNat % 8 == stFault)).map (fun e => e.1 - R.STATE_STATE.off)

/-- READ_FAULTS: 16 bytes for each page that reads FAULT: BAR0 offset, cause, address low, address high (R451). -/
def execReadFaults (s : State) : Host.Outcome State Fault Refusal :=
  Prog.next (serveLen opFaults 0 (fun _ => .get (fun s =>
    let word (a : Nat) : List Byte := toLe 4 ((Sparse.get? s.regs a).getD 0).toNat
    respond rsDone (s.faultedPages.flatMap (fun a =>
      toLe 4 a ++ word (a + R.FAULT_CAUSE.off) ++ word (a + R.FAULT_ADDR_LO.off) ++ word (a + R.FAULT_ADDR_HI.off)))))) s

end Sys2Proof.Machine
end

