-- ==== Sys2Proof/Machine/Orarn.lean ====
section
/-! DEFINITION. Orarn: certificates, plan measurement, attestation, SPDM and IDE keys (R520 to R534). -/
namespace Sys2Proof.Machine

/-! ### Signatures (R520, R534) -/

/-- Whether Orarn may sign: its keys agree with their check value and have since the last device reset (R534). -/
def signs (keyOk : Bool) (good : Prog) (bad : Prog) : Prog := .get (fun s =>
  if s.fld pgOrarn R.STATE_STATE = stFault then bad
  else if keyOk then good
  else .all [pageFault pgOrarn 1 0, raiseLine pgOrarn, tellWatch 15, bad])

/-- A signature under AK over a digest, a free value each time. -/
def State.akSign (s : State) (digest : BitVec 384) : List Byte := toLe 96 (Config.sign s.seq 1 digest).toNat

/-- Bytes of a digest. -/
def digestBytes (d : BitVec 384) : List Byte := toLe 48 d.toNat

/-- PLAN_DIGEST as it stands. -/
def State.planDigest (s : State) : List Byte := (List.range 12).flatMap (fun i => toLe 4 (s.reg pgOrarn (R.orarn_PLAN_DIGEST.off + 4 * i)).toNat)

/-- The digest of the sealed defect list's header and entries (R525). -/
def Boot.digest (b : Boot) : BitVec 384 := Config.sha384 (b.header ++ b.defects.flatMap DefEntry.bytes)

/-- The five measurements of R531: the report's fields at 0x048, 0x078, 0x080, 0x0B0 and 0x0E0. -/
def State.measurement (s : State) (i : Nat) : List Byte :=
  match i with
  | 1 => digestBytes s.dev.orarn.fwDigest
  | 2 => toLe 4 s.dev.orarn.fwRev.toNat
  | 3 => digestBytes (Config.sha384 Config.trimImage)
  | 4 => digestBytes s.dev.boot.digest
  | _ => if s.bit pgOrarn R.orarn_STATUS_PLAN_VALID then s.planDigest else List.replicate 48 0

/-! ### Mailbox messages -/

/-- GET_CERT: a certificate of the chain in DER form (R530). -/
def execGetCert (s : State) : Host.Outcome State Fault Refusal :=
  Prog.next (serveLen opGetCert 4 (fun r => .get (fun s =>
    let i := leNat (r.payload.take 4)
    if 2 < i then respond rsMalformed [] else respond rsDone (Config.cert i s.dev.orarn.fwDigest)))) s

/-- The report's bytes before its signature (R529). -/
def State.report (s : State) (nonce : List Byte) : List Byte :=
  let flag (b : Bool) (n : Nat) : Nat := if b then n else 0
  toLe 4 0x4F525250 ++ toLe 2 1 ++ toLe 2 0 ++ toLe 16 Config.serial.toNat ++ toLe 4 s.dev.boot.starts ++
  toLe 4 (flag (s.bit pgDevctl R.devctl_BOOT_FALLBACK) 1 + flag (s.bit pgDevctl R.devctl_BOOT_FAST) 2 +
    flag (s.bit pgOrarn R.orarn_STATUS_PLAN_VALID) 4 + flag (s.bit pgOrarn R.orarn_STATUS_SIGNED) 8 +
    flag (s.bit pgOrarn R.orarn_CFG_PLAN_REQ) 16 + flag (s.bit pgHost R.host_CFG_IDE_REQ) 32) ++
  toLe 8 s.bellNow ++ nonce ++ s.measurement 1 ++ s.measurement 2 ++ toLe 4 0 ++ s.measurement 3 ++ s.measurement 4 ++ s.measurement 5 ++
  toLe 4 (s.reg pgOrarn R.orarn_MEAS_BELL_LO.off).toNat ++ toLe 4 (s.reg pgOrarn R.orarn_MEAS_BELL_HI.off).toNat ++ toLe 8 0

/-- GET_ATTESTATION: a signed report over the NONCE (R529). -/
def execGetAttestation (keyOk : Bool) (s : State) : Host.Outcome State Fault Refusal :=
  Prog.next (serveLen opAttest 32 (fun r => signs keyOk
    (.get (fun s =>
      let body := s.report (r.payload.take 32)
      .all [
        eff .seq,
        bump pgOrarn R.orarn_REPORT_CNT,
        respond rsDone (body ++ s.akSign (Config.sha384 body))]))
    (respond rsFailed []))) s

/-- A manifest's regions: address, length and digest (R526). -/
def manifestRegions (p : List Byte) (count : Nat) : List (Nat × Nat × List Byte) :=
  (List.range count).map (fun e =>
    let x := p.drop (0x80 + 64 * e)
    (leNat (x.take 8), leNat ((x.drop 8).take 8), (x.drop 16).take 48))

/-- Whether a region lies in the granary or wholly in one cistern slice (R317, R526). -/
def regionMapped (a n : Nat) : Bool :=
  match placeOf a, placeOf (a + n - 1) with
  | .granary _, .granary _ => true
  | .slice c _, .slice c' _ => c == c'
  | _, _ => false

/-- Whether a manifest of `len` bytes is in the form of R526. -/
def manifestOk (p : List Byte) (len : Nat) : Bool :=
  let count := leNat (p.take 4)
  let flags := leNat ((p.drop 4).take 4)
  let rs := manifestRegions p count
  decide (128 ≤ len) && decide (1 ≤ count) && decide (count ≤ 1024) && decide (flags < 2) &&
  leNat ((p.drop 8).take 8) == 0 && leNat ((p.drop 0x71).take 15) == 0 &&
  (flags == 1 || leNat ((p.drop 0x10).take 104) == 0) &&
  len == 128 + 64 * count + (if flags = 1 then 96 else 0) &&
  rs.all (fun r => decide (r.1 % 64 = 0) && decide (r.2.1 ≠ 0) && decide (r.2.1 % 64 = 0) && regionMapped r.1 r.2.1) &&
  (List.zip rs (List.range count)).all (fun x => (rs.drop (x.2 + 1)).all (fun y => !overlaps (x.1.1, x.1.2.1) (y.1, y.2.1))) &&
  decide ((rs.map (fun r => r.2.1)).sum ≤ 256 * 2 ^ 20)

/-- Whether the signature of a manifest holds against PKEY (R527). -/
def State.manifestSigned (s : State) (p : List Byte) (count flags : Nat) : Bool :=
  let pkey := (List.range 12).flatMap (fun i => toLe 4 (s.reg pgOrarn (R.orarn_PKEY.off + 4 * i)).toNat)
  let body := p.take (0x80 + 64 * count)
  let pub := (p.drop 0x10).take 104
  let good := Config.verify pub (Config.sha384 body) ((p.drop (0x80 + 64 * count)).take 96)
  if leNat pkey = 0 then flags == 0 || good
  else flags == 1 && digestBytes (Config.sha384 pub) == pkey && good

/-- The plan is measured: its regions are kept and its digest and time are latched (R527). -/
def planMeasured (p : List Byte) (count flags : Nat) : Prog := .get (fun s =>
  let d := digestBytes (Config.sha384 (p.take (0x80 + 64 * count)))
  .all [
    modOrarn (fun o => { o with regions := (manifestRegions p count).map (fun r => (r.1, r.2.1)) }),
    setFld pgOrarn R.orarn_STATUS_PLAN_VALID 1,
    setFld pgOrarn R.orarn_STATUS_SIGNED flags,
    Prog.each (List.range 12) (fun i =>
      setReg pgOrarn (R.orarn_PLAN_DIGEST.off + 4 * i) (BitVec.ofNat 32 (leNat ((d.drop (4 * i)).take 4)))),
    setReg pgOrarn R.orarn_MEAS_BELL_LO.off (BitVec.ofNat 32 s.bellNow),
    setReg pgOrarn R.orarn_MEAS_BELL_HI.off (BitVec.ofNat 32 (s.bellNow / 2 ^ 32)),
    respond rsDone []])

/-- MEASURE_PLAN: a region with uncorrectable data does not match its digest (R316, R526, R527). (DEDUCED, assumption 93) -/
def execMeasurePlan (s : State) : Host.Outcome State Fault Refusal :=
  Prog.next (serve opMeasure (fun r => .get (fun s =>
    let p := r.payload
    let count := leNat (p.take 4)
    let flags := leNat ((p.drop 4).take 4)
    let fails (i : Nat) : Prog := .all [bump pgOrarn R.orarn_MEAS_FAIL_CNT, respond rsMismatch (toLe 4 i)]
    if !manifestOk p r.len then respond rsMalformed []
    else if !s.enabledReeves.isEmpty then respond rsNotNow []
    else .all [
      bump pgOrarn R.orarn_MEAS_CNT,
      setFld pgOrarn R.orarn_STATUS_PLAN_VALID 0,
      if !s.manifestSigned p count flags then fails 0xFFFFFFFF
      else .all [
        readAll (some .steward) ((manifestRegions p count).map (fun r => (r.1, r.2.1))),
        .get (fun s =>
          match (List.zip (manifestRegions p count) (List.range count)).find?
              (fun x => s.deadAt x.1.1 x.1.2.1 || digestBytes (Config.sha384 (s.bytes x.1.1 x.1.2.1)) != x.1.2.2) with
          | some x => fails x.2
          | none => planMeasured p count flags)]]))) s

/-! ### SPDM (R531) -/

/-- Orarn answers an SPDM request, unless a mailbox operation is in progress: the request then waits (R531). What the answer carries beyond
`bs` is open. -/
def spdm (request : Nat) (bs : State → List Byte) : Prog := .get (fun s =>
  if s.bit pgOrarn R.orarn_STATUS_BUSY || s.dev.host.mailbox.mstate == 3 then .done
  else .all [eff .seq, emit (.spdm (Config.spdmBytes request s.seq ++ bs s))])

/-- The chain of R523, which certificate slot 0 holds. -/
def State.chain (s : State) : List Byte := (List.range 3).flatMap (fun i => Config.cert i s.dev.orarn.fwDigest)

/-- A signed SPDM response over its own bytes. -/
def signedSpdm (keyOk : Bool) (request : Nat) (bs : State → List Byte) : Prog := .get (fun s =>
  if s.bit pgOrarn R.orarn_STATUS_BUSY || s.dev.host.mailbox.mstate == 3 then .done
  else signs keyOk (spdm request (fun s => bs s ++ s.akSign (Config.sha384 (bs s)))) (spdm 0x7F (fun _ => [])))

/-- GET_VERSION: SPDM 1.2. -/
def execGetVersion (s : State) : Host.Outcome State Fault Refusal := Prog.next (spdm 0x84 (fun _ => [0x12])) s

/-- GET_CAPABILITIES. -/
def execGetCapabilities (s : State) : Host.Outcome State Fault Refusal := Prog.next (spdm 0xE1 (fun _ => [])) s

/-- NEGOTIATE_ALGORITHMS: ECDSA P-384, SHA-384, ECDHE P-384 and AES-256-GCM. -/
def execNegotiateAlgorithms (s : State) : Host.Outcome State Fault Refusal := Prog.next (spdm 0xE3 (fun _ => [])) s

/-- GET_DIGESTS: the digest of the chain in slot 0. -/
def execGetDigests (s : State) : Host.Outcome State Fault Refusal :=
  Prog.next (spdm 0x81 (fun s => digestBytes (Config.sha384 s.chain))) s

/-- GET_CERTIFICATE: the chain of slot 0; no other slot holds one. -/
def execGetCertificate (slot : Fin 8) (s : State) : Host.Outcome State Fault Refusal :=
  Prog.next (if slot.val = 0 then spdm 0x82 State.chain else spdm 0x7F (fun _ => [])) s

/-- CHALLENGE: signed by AK. -/
def execChallenge (nonce : BitVec 256) (keyOk : Bool) (s : State) : Host.Outcome State Fault Refusal :=
  Prog.next (signedSpdm keyOk 0x83 (fun s => digestBytes (Config.sha384 s.chain) ++ toLe 32 nonce.toNat)) s

/-- GET_MEASUREMENTS: one of the indices 1 to 5, all of them for 0xFF (the protocol's code), their number for 0; signed by AK. (PRESUMED,
assumption 95) -/
def execGetMeasurements (i : BitVec 8) (keyOk : Bool) (s : State) : Host.Outcome State Fault Refusal :=
  Prog.next (
    if i = 0 then signedSpdm keyOk 0xE0 (fun _ => [5])
    else if i = 0xFF then signedSpdm keyOk 0xE0 (fun s => (List.range 5).flatMap (fun k => s.measurement (k + 1)))
    else if i.toNat ≤ 5 then signedSpdm keyOk 0xE0 (fun s => s.measurement i.toNat)
    else spdm 0x7F (fun _ => [])) s

/-- KEY_EXCHANGE: signed by AK; a session opens and is counted (R531, R533). -/
def execKeyExchange (keyOk : Bool) (s : State) : Host.Outcome State Fault Refusal :=
  Prog.next (.get (fun s =>
    let good := keyOk && s.fld pgOrarn R.STATE_STATE != stFault && !s.bit pgOrarn R.orarn_STATUS_BUSY && s.dev.host.mailbox.mstate != 3
    .all [
      signedSpdm keyOk 0xE4 (fun s => digestBytes (Config.sha384 s.chain)),
      Prog.when good (.all [bump pgOrarn R.orarn_SPDM_SESS_CNT, modOrarn (fun o => { o with opened := o.opened + 1 })])])) s

/-- FINISH: completes a session that KEY_EXCHANGE opened. -/
def execFinish (s : State) : Host.Outcome State Fault Refusal :=
  Prog.next (.get (fun s =>
    if s.dev.orarn.opened = 0 then spdm 0x7F (fun _ => [])
    else if s.bit pgOrarn R.orarn_STATUS_BUSY || s.dev.host.mailbox.mstate == 3 then .done
    else .all [
      modOrarn (fun o => { o with opened := o.opened - 1, finished := o.finished + 1 }),
      spdm 0xE5 (fun _ => [])])) s

/-- IDE_KEY_MANAGEMENT: within a session, a stream of R447 gets its keys. -/
def execIdeKeyManagement (stream : Fin 5) (s : State) : Host.Outcome State Fault Refusal :=
  Prog.next (.get (fun s =>
    if s.dev.orarn.finished = 0 then spdm 0x7F (fun _ => [])
    else if s.bit pgOrarn R.orarn_STATUS_BUSY || s.dev.host.mailbox.mstate == 3 then .done
    else .all [
      modOrarn (fun o => { o with ideKeys := if o.ideKeys.contains stream.val then o.ideKeys else o.ideKeys ++ [stream.val] }),
      spdm 0xE8 (fun _ => [])])) s

end Sys2Proof.Machine
end

