-- ==== Sys2Proof/Machine/Plumb.lean ====
section
/-! DEFINITION. The plumb: windows, soundings, due and overdue wells (R112 to R122, R130, R133, R135). -/
namespace Sys2Proof.Machine

/-- The plumb page shows the work in progress (R143). -/
def plumbShow (c : Nat) (j : Option PlumbJob) : Prog :=
  match j with
  | some j => .all [
      setFld (pgPlumb c) R.plumb_STATUS_CUR_WELL j.well,
      setBit (pgPlumb c) R.plumb_STATUS_BUSY_WINDOW (!j.sound),
      setBit (pgPlumb c) R.plumb_STATUS_BUSY_SOUND j.sound]
  | none => .all [setFld (pgPlumb c) R.plumb_STATUS_BUSY_WINDOW 0, setFld (pgPlumb c) R.plumb_STATUS_BUSY_SOUND 0]

/-- The plumb begins a window or sounding; one that overlaps a supply warning restarts after it (R114, R116, R135). -/
def plumbBegin (c : Nat) (j : PlumbJob) : Prog := .get (fun s =>
  let j' := { j with restart := decide ((s.hamlet (c / 16)).warn ≠ 0) }
  .all [
    modCroft c (fun k => { k with plumb := some j' }),
    setFld (pgWell (c * 16 + j.well)) (if j.sound then R.well_CAL_STATUS_SOUNDING else R.well_CAL_STATUS_WINDOW) 1,
    Prog.when j'.restart (bump (pgPlumb c) R.plumb_ABORT_CNT),
    plumbShow c (some j')])

/-- A PLUMB order starts: use P on every named well; then its wells in rising order (R118, R274). -/
def startPlumb (c : Nat) (o : Issued) (mask : Nat) (sound : Bool) : Prog := .get (fun s =>
  let ws := (List.range 16).filter (fun w => mask / 2 ^ w % 2 = 1)
  if s.wellsBusy c o.serial ws || (s.croft c).plumb.isSome then .done
  else
    match ws.find? (fun w => s.wellUse c w / 4 = 0) with
    | some w => startCollides c o clWell w (s.orderOffset c o.idx)
    | none =>
      match ws with
      | [] => .done
      | w :: rest => .all [markStarted c o.serial, plumbBegin c ⟨some (o.serial, o.idx), w, rest, sound, false⟩])

/-- The work on a well has ended: the order's next well follows, or the order completes (R118, R246). -/
def plumbNext (c : Nat) (j : PlumbJob) : Prog :=
  match j.rest, j.order with
  | w :: rest, _ => plumbBegin c { j with well := w, rest := rest }
  | [], some (serial, _) => .all [modCroft c (fun k => { k with plumb := none }), plumbShow c none, dropOrder c serial]
  | [], none => .all [modCroft c (fun k => { k with plumb := none }), plumbShow c none]

/-- The difference in 1/8 °C between the plumb's Tj and a well's at its last window (R117). -/
def State.tempShift (s : State) (g : Nat) : Nat :=
  ((BitVec.ofNat 12 (s.fld (pgPlumb (g / 16)) R.plumb_TEMP_TJ)).toInt - (BitVec.ofNat 12 (s.fld (pgWell g) R.well_CAL_TEMP_T_CAL)).toInt).natAbs

/-- Whether a well meets the temperature condition of R117 with a limit in 0.5 °C; a Tj too old counts as met (R122). -/
def State.tempMet (s : State) (g limit : Nat) : Bool :=
  s.bit (pgPlumb (g / 16)) R.plumb_STATUS_TEMP_STALE || decide (4 * limit ≤ s.tempShift g)

/-- DUE of a well and its bit of DUE_MASK follow its age and the temperature (R117, R143). -/
def showDue (g : Nat) : Prog := .get (fun s =>
  let b := (s.well g).due || s.tempMet g (s.fld (pgPlumb (g / 16)) R.plumb_PLUMBCFG_CAL_DT)
  .all [
    setBit (pgWell g) R.well_CAL_STATUS_DUE b,
    setBit (pgPlumb (g / 16)) ⟨R.plumb_STATUS_DUE_MASK.off, R.plumb_STATUS_DUE_MASK.lo + g % 16, 1⟩ b])

/-- A well becomes due for a window by its age, a failed sounding or a reset, or is so no longer (R113, R116, R117). -/
def setDue (g : Nat) (b : Bool) : Prog := .all [modWell g (fun r => { r with due := b }), showDue g]

/-- OVERDUE of a well follows its two kinds; a change to 1 is counted and raised (R117). -/
def showOverdue (g : Nat) : Prog := .get (fun s =>
  let b := (s.well g).overWindow || (s.well g).overSound
  .all [
    Prog.when (b && !s.bit (pgWell g) R.well_CAL_STATUS_OVERDUE)
      (.all [bump (pgWell g) R.well_OVERDUE_CNT, raiseLine (pgWell g)]),
    setBit (pgWell g) R.well_CAL_STATUS_OVERDUE b])

def setOverWindow (g : Nat) (b : Bool) : Prog := .all [modWell g (fun r => { r with overWindow := b }), showOverdue g]
/-- A new Tj, or one too old: DUE follows it, and a well that meets the overdue limit is overdue for a window (R117, R122). -/
def tempSeen (g : Nat) : Prog := .all [
  showDue g,
  .get (fun s => Prog.when (s.tempMet g (s.fld (pgPlumb (g / 16)) R.plumb_OVERDUECFG_OVERDUE_DT)) (setOverWindow g true))]

def setOverSound (g : Nat) (b : Bool) : Prog := .all [modWell g (fun r => { r with overSound := b }), showOverdue g]

/-- The trim in force at a physical column and tap, in 1/8 code (R112, R113). -/
def State.trim (s : State) (g col tap : Nat) : Int :=
  (Sparse.get? (s.well g).trims (col * 128 + tap)).getD (Config.factoryTrim g col tap).toInt

/-- WINDOW_END: the window on the plumb's current well ends. `ts` are the trims it measured: physical column, tap and value in 1/8
code before it is held to the trim's range (R114, R115, R117, R121, R133). -/
def execWindowEnd (c : CroftId) (ts : List (Nat × Nat × Int)) (s : State) : Host.Outcome State Fault Refusal :=
  Prog.next (.get (fun s =>
    match (s.croft c.val).plumb with
    | none => .done
    | some j =>
      if j.sound || j.restart then .done
      else
        let g := c.val * 16 + j.well
        let p := pgWell g
        let hold (v : Int) : Int := max (-256) (min 255 v)
        let new : List (Nat × Int) := ts.map (fun t => (t.1 * 128 + t.2.1, hold t.2.2))
        let cols := ((ts.filter (fun t => decide (hold t.2.2 ≠ t.2.2))).filterMap (fun t => logicalOf (s.well g).spares t.1)).eraseDups
        let big := ts.foldl (fun (b : Nat × Nat) t =>
          let d := (hold t.2.2 - s.trim g t.1 t.2.1).natAbs
          if b.1 < d then (d, t.1) else b) (0, 0)
        let stale := s.bit (pgPlumb c.val) R.plumb_STATUS_TEMP_STALE
        let drawing := (s.croft c.val).runs.any (fun r => r.live && r.args.wells.contains j.well)
        .all [
          modWell g (fun r => { r with shadow := some new, windowAt := some s.now }),
          Prog.when (!drawing) (commitTrims g),
          setFld p R.well_CAL_STATUS_WINDOW 0,
          setFld p R.well_CAL_STATUS_CALIBRATED 1,
          setFld p R.well_CAL_TEMP_T_CAL (s.fld (pgPlumb c.val) R.plumb_TEMP_TJ),
          setFld p R.well_CAL_DRIFT_MAX_SHIFT big.1,
          setFld p R.well_CAL_DRIFT_COL big.2,
          bump p R.well_WINDOW_CNT,
          setDue g false,
          setOverWindow g stale,
          if cols.isEmpty then Prog.when (s.bit p R.well_STATUS_SUSPECT) (modWell g (fun r => { r with cleanWindow := true }))
          else .all [
            setFld p R.well_CAL_STATUS_TRIM_LIMIT 1,
            suspect g R.well_SUSPECT_CAUSE_TRIM,
            Prog.each cols (fun x => assignSpare g x)],
          plumbNext c.val j])) s

/-- TRIM_COMMIT: a window's shadow trims come into force at a draw boundary (R115). -/
def execTrimCommit (w : WellId) (s : State) : Host.Outcome State Fault Refusal :=
  Prog.next (.get (fun s =>
    if (s.croft (w.val / 16)).runs.any (fun r => r.live && r.args.wells.contains (w.val % 16)) then .done else commitTrims w.val)) s

/-- The four points of a sounding, in codes (R116). -/
def soundPoints : List Int := [-384, -128, 128, 384]

/-- SOUNDING_END: the sounding on the plumb's current well ends. `sums` give, for physical columns in use, the sum of the twelve
codes at each point; a column more than six codes from a point on average fails it (R116, R117, R130). -/
def execSoundingEnd (c : CroftId) (sums : List (Nat × List Int)) (s : State) : Host.Outcome State Fault Refusal :=
  Prog.next (.get (fun s =>
    match (s.croft c.val).plumb with
    | none => .done
    | some j =>
      if !j.sound || j.restart then .done
      else
        let g := c.val * 16 + j.well
        let p := pgWell g
        let fail := sums.any (fun x => (List.zip x.2 soundPoints).any (fun y => decide (72 < (y.1 - 12 * y.2).natAbs)))
        .all [
          modWell g (fun r => { r with soundAt := some s.now }),
          setFld p R.well_CAL_STATUS_SOUNDING 0,
          bump p R.well_SOUND_CNT,
          setOverSound g false,
          Prog.when fail (.all [
            setFld p R.well_CAL_STATUS_SOUND_FAIL 1,
            suspect g R.well_SUSPECT_CAUSE_SOUND,
            setDue g true,
            raiseLine p]),
          plumbNext c.val j])) s

/-- CAL_DUE: a well's window age reaches CAL_INTERVAL (R117). -/
def execCalDue (w : WellId) (s : State) : Host.Outcome State Fault Refusal := Prog.next (setDue w.val true) s

/-- OVERDUE: a well's window age reaches OVERDUE_TIME, or its sounding age SOUND_INTERVAL (R117). -/
def execOverdue (w : WellId) (sound : Bool) (s : State) : Host.Outcome State Fault Refusal :=
  Prog.next (if sound then setOverSound w.val true else setOverWindow w.val true) s

/-- PLUMB_AUTO_START: under AUTO the idle plumb starts overdue work by itself, soundings before windows, in rising well order,
on a well that is not loading (R119). -/
def execPlumbAutoStart (c : CroftId) (s : State) : Host.Outcome State Fault Refusal :=
  Prog.next (.get (fun s =>
    let ok (w : Nat) : Bool := (s.well (c.val * 16 + w)).load.isNone
    let snd := (List.range 16).find? (fun w => ok w && (s.well (c.val * 16 + w)).overSound)
    let win := (List.range 16).find? (fun w => ok w && (s.well (c.val * 16 + w)).overWindow)
    if !s.bit (pgPlumb c.val) R.plumb_PLUMBCFG_AUTO || (s.croft c.val).plumb.isSome || s.underReset (pgPlumb c.val) then .done
    else
      match snd, win with
      | some w, _ => .all [bump (pgPlumb c.val) R.plumb_AUTO_CNT, plumbBegin c.val ⟨none, w, [], true, false⟩]
      | none, some w => .all [bump (pgPlumb c.val) R.plumb_AUTO_CNT, plumbBegin c.val ⟨none, w, [], false, false⟩]
      | none, none => .done)) s

/-- TEMP_STALE: the plumb's Tj reading becomes older than 1 ms: every well has met the temperature condition (R122). (DEDUCED, assumption 21) -/
def execTempStale (c : CroftId) (s : State) : Host.Outcome State Fault Refusal :=
  Prog.next (.get (fun s => .all [
    Prog.when (!s.bit (pgPlumb c.val) R.plumb_STATUS_TEMP_STALE) (bump (pgPlumb c.val) R.plumb_TEMP_STALE_CNT),
    setFld (pgPlumb c.val) R.plumb_STATUS_TEMP_STALE 1,
    Prog.each (List.range 16) (fun w => tempSeen (c.val * 16 + w))])) s

/-- A supply warning aborts the window or sounding in progress (R135). -/
def plumbAbort (c : Nat) : Prog := .get (fun s =>
  match (s.croft c).plumb with
  | some j => Prog.when (!j.restart) (.all [
      bump (pgPlumb c) R.plumb_ABORT_CNT,
      modCroft c (fun k => { k with plumb := some { j with restart := true } })])
  | none => .done)

/-- 200 ns after release the aborted work restarts from its beginning (R135). -/
def plumbRestart (c : Nat) : Prog := modCroft c (fun k => { k with plumb := k.plumb.map (fun j => { j with restart := false }) })

end Sys2Proof.Machine
end

