-- ==== Sys2Proof/Machine/Gauge.lean ====
section
/-! DEFINITION. Gauge: sequences, slots, comparators, plausibility and the standard load (R487 to R495), and the power faults and thermal
warnings it takes part in (R476, R482, R486). -/
namespace Sys2Proof.Machine

/-! ### Power faults and thermal warnings (R482, R486) -/

/-- FAULT_N is asserted (R558). -/
def assertFaultN : Prog := modDev (fun d => { d with faultN := true })

/-- A power fault with its cause and rail (R486). -/
def powerFault (cause rail : Nat) : Prog := .all [
  pageFault pgPower cause rail,
  raiseLine pgPower,
  tellWatch 15,
  Prog.when (cause == 2 || cause == 3 || cause == 4) assertFaultN]

/-- THERM_WARN; Watch is told by its level input 9, which rises with Tj (R409, R482). (DEDUCED, assumption 142) -/
def thermWarn : Prog := .get (fun s => Prog.when (!s.bit pgPower R.power_STATUS_THERM_WARN) (.all [
  setFld pgPower R.power_STATUS_THERM_WARN 1,
  bump pgPower R.power_THERM_WARN_CNT,
  raiseLine pgPower]))

/-! ### Channels (R487) -/

/-- typ of a rail in mV (R469). -/
def railTyp (r : Nat) : Nat :=
  if r < 16 then 750
  else if r < 24 then 900
  else match r with
    | 24 | 25 | 26 => 750
    | 27 | 28 | 30 => 800
    | 29 => 1200
    | 31 => 1000
    | 32 => 750
    | 33 => 1800
    | 34 => 750
    | _ => 3300

/-- The rail of a channel (R487). -/
def channelRail (ch : Nat) : Option Nat :=
  if ch < 64 then none
  else if ch < 88 then some (ch - 64)
  else match ch with
    | 88 => some 24
    | 89 => some 25
    | 90 => some 26
    | 91 => some 29
    | 92 => some 31
    | 93 => some 32
    | 94 => some 33
    | _ => none

/-- Millivolts of a rail's code, less the fraction (R487). -/
def codeMv (ch rail code : Nat) : Nat := if ch < 72 then code * 1000 / 16384 else code * railTyp rail / 8192

/-- Tj of a thermal code in 1/8 °C, as a 12-bit signed value (R487). -/
def codeTj (code : Nat) : Nat := (code / 8 + 4096 - 512) % 4096

/-- The hottest sensor and its code. -/
def hottest (codes : List (Nat × Nat)) : Option (Nat × Nat) :=
  (codes.filter (fun e => decide (e.1 < 64))).foldl (fun b e =>
    match b with
    | none => some e
    | some x => if x.2 < e.2 then some e else b) none

/-- A result reaches those who use it: the plumbs its sensor serves, the power page's THERM, and the measured voltages (R122, R478, R484). -/
def useCode (ch code : Nat) : Prog := .all [
  modGauge (fun g => { g with codes := Sparse.set g.codes ch code }),
  match channelRail ch with
  | some r => modPower (fun p => { p with meas := Sparse.set p.meas r (codeMv ch r code) })
  | none => .done,
  Prog.when (decide (ch < 64)) (.all [
    Prog.each [2 * ch, 2 * ch + 1] (fun c => .all [
      setFld (pgPlumb c) R.plumb_TEMP_TJ (codeTj code),
      setFld (pgPlumb c) R.plumb_STATUS_TEMP_STALE 0,
      Prog.each (List.range 16) (fun w => tempSeen (c * 16 + w))]),
    .get (fun s =>
      match hottest s.dev.gauge.codes with
      | some (x, k) => .all [setFld pgPower R.power_THERM_HOTTEST (codeTj k), setFld pgPower R.power_THERM_SENSOR x]
      | none => .done)])]

/-! ### Sequences (R488, R489) -/

def State.seqLen (s : State) (q : Nat) : Nat := s.fld pgGauge (R.gauge_SEQ_CFG_LEN.plus (4 * q))
def State.seqStart (s : State) (q : Nat) : Nat := s.fld pgGauge (R.gauge_SEQ_CFG_START.plus (4 * q))
def State.seqPending (s : State) (q : Nat) : Bool := s.fld pgGauge R.gauge_STATUS_PENDING / 2 ^ q % 2 == 1
def State.seqRunning (s : State) (q : Nat) : Bool := s.fld pgGauge R.gauge_STATUS_RUNNING / 2 ^ q % 2 == 1

/-- Whether a start of sequence `q` is dropped (R489). -/
def State.seqBusy (s : State) (q : Nat) : Bool := s.seqPending q || s.seqRunning q

/-- A start of sequence `q`, by a channel or by timer or software (R488, R489). -/
def gaugeStart (q : Nat) (trig : Option Nat) : Prog := .get (fun s =>
  if !s.enabled pgGauge || s.seqLen q = 0 then .done
  else if s.seqBusy q then bump pgGauge R.gauge_SKIP_CNT
  else .all [
    putBit pgGauge R.gauge_STATUS_PENDING q true,
    modGauge (fun g => { g with
      trig := match trig with
        | some ch => Sparse.set g.trig q ch
        | none => Sparse.eraseRange g.trig q (q + 1) })])

/-- The next slot goes to the pending or running sequence of the lowest number; `prev` is the sequence that had the slot and has not
ended its pass (R489). -/
def gaugeNext (prev : Option Nat) : Prog := .get (fun s =>
  match (List.range 4).find? s.seqBusy with
  | none => modGauge (fun g => { g with cur := none })
  | some q => .all [
      Prog.when (prev.isSome && prev != some q) (bump pgGauge R.gauge_PREEMPT_CNT),
      putBit pgGauge R.gauge_STATUS_PENDING q false,
      putBit pgGauge R.gauge_STATUS_RUNNING q true,
      modGauge (fun g => { g with cur := some (q, s.fld pgGauge (R.gauge_SEQ_STATUS_ENTRY.plus (4 * q))) })])

/-- The channel a half of an entry converts in this pass. -/
def State.halfChannel (s : State) (q i : Nat) (b : Bool) : Option Nat :=
  let k := 0x80 * q + 4 * i
  let en := if b then s.bit pgGauge (R.gauge_ENTRY_EN_B.plus k) else s.bit pgGauge (R.gauge_ENTRY_EN_A.plus k)
  let ch := if b then s.fld pgGauge (R.gauge_ENTRY_CH_B.plus k) else s.fld pgGauge (R.gauge_ENTRY_CH_A.plus k)
  if !en then none
  else if ch = 0x7F then Sparse.get? s.dev.gauge.trig q
  else if ch < 96 then some ch
  else none

/-! ### Comparators and plausibility (R491, R492) -/

/-- The results that trip comparator `w`. -/
def State.tripsOf (s : State) (w : Nat) (rs : List (Nat × Nat)) : List (Nat × Nat) :=
  let k := 8 * w
  if !s.bit pgGauge (R.gauge_COMP_EN.plus k) then []
  else rs.filter (fun r =>
    decide (s.fld pgGauge (R.gauge_COMP_FIRST.plus k) ≤ r.1) && decide (r.1 ≤ s.fld pgGauge (R.gauge_COMP_LAST.plus k)) &&
    (decide (r.2 < s.fld pgGauge (R.gauge_WIN_LOW.plus k)) || decide (s.fld pgGauge (R.gauge_WIN_HIGH.plus k) < r.2)))

/-- What comparator `w` does on the first trip since TRIPPED was cleared (R491). A power fault of a channel without a rail names none:
its FAULT_ADDR is open. (DESIGN CHOICE, assumption 83) -/
def compActs (w ch : Nat) : Prog := .get (fun s =>
  let k := 8 * w
  .all [
    putBit pgGauge R.gauge_TRIP_TRIPPED w true,
    raiseLine pgGauge,
    Prog.when (s.bit pgGauge (R.gauge_COMP_START_EN.plus k)) (gaugeStart (s.fld pgGauge (R.gauge_COMP_SEQ.plus k)) (some ch)),
    match s.fld pgGauge (R.gauge_COMP_ACT.plus k) with
    | 1 => (match channelRail ch with
      | some r => powerFault 4 r
      | none => .all [eff .seq, powerFault 4 ((Config.openWord s.seq).toNat)])
    | 2 => thermWarn
    | _ => .done])

/-- The comparators check a slot's results (R491). -/
def comparators (rs : List (Nat × Nat)) : Prog := .get (fun s =>
  let trips := (List.range 8).map (fun w => (w, s.tripsOf w rs))
  let first := trips.filterMap (fun t =>
    match t.2 with
    | r :: _ => if s.fld pgGauge R.gauge_TRIP_TRIPPED / 2 ^ t.1 % 2 = 0 then some (t.1, r) else none
    | [] => none)
  .all [
    bumpBy pgGauge R.gauge_TRIP_CNT ((trips.map (fun t => t.2.length)).sum),
    match first with
    | (w, ch, code) :: _ => .all [
        setFld pgGauge R.gauge_TRIP_LOG_CHANNEL ch,
        setFld pgGauge R.gauge_TRIP_LOG_COMP w,
        setFld pgGauge R.gauge_TRIP_LOG_CODE code,
        setFld pgGauge R.gauge_TRIP_LOG_VALID 1]
    | [] => .done,
    Prog.each first (fun t => compActs t.1 t.2.1)])

/-- A Gauge fault that a complete pass of sequence `q` ends (R489, R492, R495). -/
def gaugeFault (cause addr q : Nat) : Prog := .all [
  .get (fun s => Prog.when (s.fld pgGauge R.STATE_STATE != stFault) (modGauge (fun g => { g with faultSeq := some q }))),
  pageFault pgGauge cause addr,
  tellWatch 15]

/-- The two codes of a paired entry differ by more than TOL (R492). -/
def mismatch (q ch a b : Nat) : Prog := .get (fun s => .all [
  bump pgGauge R.gauge_XCHK_CNT,
  Prog.when (!s.bit pgGauge R.gauge_XCHK_LOG_VALID) (.all [
    setFld pgGauge R.gauge_XCHK_LOG_CHANNEL ch,
    setFld pgGauge R.gauge_XCHK_LOG_VALID 1,
    setFld pgGauge R.gauge_XCHK_CODES_A a,
    setFld pgGauge R.gauge_XCHK_CODES_B b]),
  gaugeFault 1 ch q,
  raiseLine pgGauge,
  modGauge (fun g => { g with bad := if g.bad.contains q then g.bad else g.bad ++ [q] })])

/-- A pass of sequence `q` ends (R489, R492, R495). -/
def passEnds (q : Nat) : Prog := .get (fun s =>
  let g := s.dev.gauge
  let ends := s.fld pgGauge R.STATE_STATE == stFault && g.faultSeq == some q &&
    (s.fld pgGauge R.FAULT_CAUSE == 2 || (s.fld pgGauge R.FAULT_CAUSE == 1 && !g.bad.contains q))
  .all [
    setFld pgGauge (R.gauge_SEQ_STATUS_PASS.plus (4 * q)) (s.fld pgGauge (R.gauge_SEQ_STATUS_PASS.plus (4 * q)) + 1),
    setFld pgGauge (R.gauge_SEQ_STATUS_ENTRY.plus (4 * q)) 0,
    putBit pgGauge R.gauge_STATUS_RUNNING q false,
    Prog.when ends (setFld pgGauge R.STATE_STATE stEnabled),
    modGauge (fun g => { g with
      bad := g.bad.filter (· != q), trig := Sparse.eraseRange g.trig q (q + 1)
      faultSeq := if ends then none else g.faultSeq })])

/-- The results of entry `i` of sequence `q` are written and checked (R488, R491, R492). -/
def slotResults (q i a b : Nat) : Prog := .get (fun s =>
  let k := 0x80 * q + 4 * i
  let ca := s.halfChannel q i false
  let cb := s.halfChannel q i true
  let ra : List (Nat × Nat) := match ca with | some ch => [(ch, a)] | none => []
  let rb : List (Nat × Nat) := match cb with | some ch => [(ch, b)] | none => []
  .all [
    setFld pgGauge (R.gauge_RESULT_VALID_A.plus k) ca.toList.length,
    Prog.when ca.isSome (setFld pgGauge (R.gauge_RESULT_CODE_A.plus k) a),
    setFld pgGauge (R.gauge_RESULT_VALID_B.plus k) cb.toList.length,
    Prog.when cb.isSome (setFld pgGauge (R.gauge_RESULT_CODE_B.plus k) b),
    Prog.each (ra ++ rb) (fun r => useCode r.1 r.2),
    comparators (ra ++ rb),
    match ca, cb with
    | some x, some y => Prog.when (x == y && (decide (s.fld pgGauge R.gauge_CFG_TOL < a - b) || decide (s.fld pgGauge R.gauge_CFG_TOL < b - a)))
        (mismatch q x a b)
    | _, _ => .done])

/-- GAUGE_SLOT: a slot ends, and the next goes to the sequence of the lowest number (R488, R489). -/
def execGaugeSlot (a b : BitVec 14) (fin : Bool) (s : State) : Host.Outcome State Fault Refusal :=
  Prog.next (.get (fun s =>
    if !s.enabled pgGauge then .done
    else
      match s.dev.gauge.cur with
      | none => gaugeNext none
      | some (q, i) =>
        let last := decide (s.seqLen q ≤ i + 1)
        .all [
          if fin then slotResults q i a.toNat b.toNat else gaugeFault 3 0 4,
          if last then passEnds q else setFld pgGauge (R.gauge_SEQ_STATUS_ENTRY.plus (4 * q)) (i + 1),
          gaugeNext (if last then none else some q)])) s

/-- GAUGE_SEQ_TIMER: a tick of a timer sequence; four dropped in a row are a fault (R489). -/
def execGaugeSeqTimer (q : Fin 4) (s : State) : Host.Outcome State Fault Refusal :=
  Prog.next (.get (fun s =>
    let n := (Sparse.get? s.dev.gauge.missed q.val).getD 0 + 1
    if !s.enabled pgGauge || s.seqStart q.val != 1 || s.seqLen q.val = 0 then .done
    else if !s.seqBusy q.val then .all [
      modGauge (fun g => { g with missed := Sparse.eraseRange g.missed q.val (q.val + 1) }),
      gaugeStart q.val none]
    else if n < 4 then .all [gaugeStart q.val none, modGauge (fun g => { g with missed := Sparse.set g.missed q.val n })]
    else .all [
      gaugeStart q.val none,
      modGauge (fun g => { g with missed := Sparse.eraseRange g.missed q.val (q.val + 1) }),
      bump pgGauge R.gauge_TIMER_MISS_CNT,
      gaugeFault 2 0 q.val])) s

/-- A write of GAUGE.CMD starts the sequences named (R489). -/
def writeGaugeCmd (v : Nat) : Prog := Prog.each ((List.range 4).filter (fun q => v / 2 ^ q % 2 == 1)) (fun q => gaugeStart q none)

/-- GAUGE_CMD (R489). -/
def execGaugeCmd (who : Agent) (v : Word) (s : State) : Host.Outcome State Fault Refusal :=
  Prog.next (regWrite who pgGauge R.gauge_CMD_START.off (writeGaugeCmd v.toNat)) s

/-- A supply warning of hamlet `h` starts the sequences whose START is WARN (R488, R489). -/
def gaugeBurst (h : Nat) : Prog := .get (fun s =>
  Prog.each ((List.range 4).filter (fun q => s.seqStart q == 2)) (fun q => gaugeStart q (some (64 + h))))

/-! ### The standard load (R493) -/

/-- An entry word with both halves used. -/
def entryWord (a b : Nat) : Nat := a + 0x80 + (b + 0x80) * 2 ^ 8

/-- Entries of the standard load: sequence, entry, channels. -/
def standardEntries : List (Nat × Nat × Nat × Nat) :=
  (List.range 32).map (fun i => (0, i, 0x7F, 0x7F)) ++
  (List.range 32).map (fun i => (1, i, i, 32 + i)) ++
  (List.range 8).map (fun i => (2, i, 64 + i, 72 + i)) ++
  (List.range 7).map (fun j => (2, 8 + j, 80 + j, 88 + j)) ++
  [(2, 15, 87, 95), (2, 16, 95, 95)]

/-- Comparators of the standard load: channels, window, ACT; each starts SEQ0. -/
def standardComps : List (Nat × Nat × Nat × Nat × Nat) :=
  [(72, 79, 7646, 8738, 1), (80, 87, 8010, 8374, 1), (88, 90, 7865, 8519, 1), (91, 91, 7783, 8601, 1),
   (92, 92, 7947, 8437, 1), (93, 93, 7974, 8410, 1), (94, 94, 7783, 8601, 1), (0, 63, 0, 10815, 2)]

/-- The Steward writes the standard load and enables the page (R493). -/
def gaugeLoad : Prog := .all [
  setReg pgGauge 0x060 (BitVec.ofNat 32 (32 + 2 * 2 ^ 6)),
  setReg pgGauge 0x064 (BitVec.ofNat 32 (32 + 2 ^ 6 + 100 * 2 ^ 8)),
  setReg pgGauge 0x068 (BitVec.ofNat 32 (17 + 2 ^ 6 + 50 * 2 ^ 8)),
  setReg pgGauge 0x06C 0,
  Prog.each standardEntries (fun e => setReg pgGauge (0x200 + 0x80 * e.1 + 4 * e.2.1) (BitVec.ofNat 32 (entryWord e.2.2.1 e.2.2.2))),
  Prog.each (List.zip (List.range 8) standardComps) (fun x => .all [
    setReg pgGauge (0x100 + 8 * x.1) (BitVec.ofNat 32 (x.2.1 + x.2.2.1 * 2 ^ 8 + x.2.2.2.2.2 * 2 ^ 16 + 2 ^ 20 + 2 ^ 21)),
    setReg pgGauge (0x104 + 8 * x.1) (BitVec.ofNat 32 (x.2.2.2.1 + x.2.2.2.2.1 * 2 ^ 16))]),
  setFld pgGauge R.CTL_ENABLE 1,
  setFld pgGauge R.STATE_STATE stEnabled]

end Sys2Proof.Machine
end

