-- ==== Sys2Proof/Machine/Resets.lean ====
section
/-! DEFINITION. Resets of the four grains: what a request does at once, the end of a drain, and what a grain holds when it leaves reset
(R6, R15 to R20, R82, R113, R315, R339 to R341, R512, R513). -/
namespace Sys2Proof.Machine

/-! ### Grains -/

/-- Whether a page is a core's (R15). -/
def Page.isCore (p : Page) : Bool :=
  match p.kind with
  | .well | .pump | .mill | .reeve => true
  | _ => false

/-- Whether grain `g` lies inside grain `g'`, or is it (R15). -/
def Grain.within : Grain → Grain → Bool
  | _, .device => true
  | .core p, .core q => p == q
  | .core p, .croft c => p.croft? == some c
  | .core p, .hamlet h => p.hamlet? == some h
  | .croft c, .croft d => c == d
  | .croft c, .hamlet h => c / 16 == h
  | .hamlet h, .hamlet h' => h == h'
  | _, _ => false

/-- The grain a command names. -/
def grainOf : GrainId → Option Grain
  | .core pg => match pageAt (pg.toNat * 0x1000) with
    | some p => if p.isCore then some (.core p) else none
    | none => none
  | .croft c => some (.croft c.val)
  | .hamlet h => some (.hamlet h.val)
  | .device => some .device

/-- The crofts of hamlet `h`. -/
def croftsOf (h : Nat) : List Nat := (List.range 16).map (h * 16 + ·)

/-- The crofts that lie whole inside a grain. -/
def Grain.crofts : Grain → List Nat
  | .core _ => []
  | .croft c => [c]
  | .hamlet h => croftsOf h
  | .device => allCrofts

def wellsOf (c : Nat) : List Nat := (List.range 16).map (c * 16 + ·)
def pumpsOf (c : Nat) : List Nat := (List.range 4).map (c * 4 + ·)

/-- The cores of croft `c` (R11). -/
def coresOf (c : Nat) : List Page := (wellsOf c).map pgWell ++ (pumpsOf c).map pgPump ++ [pgMill c, pgReeve c]

/-! ### Firmware of cores (R501, R502) -/

/-- Packets of a core's image (R501). -/
def packetsOf (p : Page) : Nat :=
  match p.kind with
  | .well => 16
  | .pump => 32
  | _ => 64

/-- Whether a core is retired: its unit, or with its croft (R503). -/
def State.retiredCore (s : State) (p : Page) : Bool :=
  match p.kind with
  | .well => s.retiredWell p.inst
  | .pump => s.retiredPump p.inst
  | _ => s.retiredCroft p.inst

/-- Cores that are held until their images are present (R502). -/
def holdCores (ps : List Page) : Prog := .get (fun s => modBoot (fun b => { b with
  loads := b.loads ++ ((ps.filter (fun p => !s.retiredCore p)).map (fun p => ⟨p, List.range (packetsOf p), 0⟩)) }))

/-! ### Orders a reset absorbs (R16) -/

/-- Incomplete orders of croft `c` that `p` picks are absorbed, each counted for the page under reset. (DEDUCED, assumption 57) -/
def absorbOrders (pg : Page) (c : Nat) (p : Issued → Bool) : Prog := .get (fun s => .all [
  absorbAt pg ((s.reeve c).orders.filter p).length,
  modReeve c (fun r => { r with orders := r.orders.filter (fun o => !p o) })])

/-- A DRAW order is absorbed with its run, its records and its parts. -/
def absorbDraw (pg : Page) (c serial : Nat) (ws : List Nat) : Prog := .all [absorbAt pg 1, endDraw c serial 0 ws]

/-- A core reset of a well absorbs the LOAD, DRAW or PLUMB order in flight on it; its weights are gone (R79, R82). (DEDUCED, assumption 56) -/
def dropWell (w : Nat) : Prog := .get (fun s =>
  let c := w / 16
  let k := s.croft c
  let runs := (k.runs.filter (fun r => r.args.wells.contains (w % 16))).map (fun r => (r.serial, r.args.wells))
  let recs := (k.leat.filter (fun r => r.wells.contains (w % 16))).map (fun r => (r.serial, r.wells))
  let draws := (runs ++ recs).foldl (fun (l : List (Nat × List Nat)) x => if l.any (fun y => y.1 == x.1) then l else l ++ [x]) []
  let onPlumb := match k.plumb with | some j => j.well == w % 16 | none => false
  .all [
    (match (s.well w).load with
     | some l => absorbOrders (pgWell w) c (fun o => o.serial == l.serial)
     | none => .done),
    Prog.each draws (fun x => absorbDraw (pgWell w) c x.1 x.2),
    Prog.when onPlumb (.all [
      (match k.plumb with
       | some { order := some (serial, _), .. } => absorbOrders (pgWell w) c (fun o => o.serial == serial)
       | _ => .done),
      modCroft c (fun k => { k with plumb := none }),
      plumbShow c none]),
    eff (.wellErase w (w + 1)),
    pageReset (pgWell w)])

/-- The generators of `n` lanes from `a` on are seeded as by a SEED with v = 0 (R45). -/
def seedLanes (c a n : Nat) : Prog := modCroft c (fun k => { k with
  lanes := (List.range n).foldl (fun l i => Sparse.set l (a + i) (seedLane 0 (c * 512 + a + i))) k.lanes })

/-- A core reset of a pump absorbs its orders, the mill's share of one with it, and the DRAW whose escalated part it computes (R173). -/
def dropPump (g : Nat) : Prog := .get (fun s =>
  let c := g / 4
  let k := s.croft c
  .all [
    (match s.pumpRun g with | some r => pumpEnd g r | none => .done),
    absorbOrders (pgPump g) c (fun o => o.engine == 2 + g % 4),
    (match k.escNow with
     | some e =>
       let ws := ((k.leat.find? (fun r => r.serial == e.serial)).map (·.wells)).getD [e.well]
       Prog.when (s.escPump c == g % 4) (absorbDraw (pgPump g) c e.serial ws)
     | none => .done),
    seedLanes c (128 + 64 * (g % 4)) 64,
    pageReset (pgPump g)])

/-- A core reset of the mill absorbs its orders, the merges in the leat's queue with their DRAW orders, and the orders whose epilogue it
serves (R193). A COMPARE whose contribution has left keeps its verdict (R263). -/
def dropMill (c : Nat) : Prog := .get (fun s =>
  let k := s.croft c
  let held (o : Issued) : Bool := !o.started || (match k.mill with | some r => r.serial == o.serial | none => false)
  let mine (o : Issued) : Bool := o.engine == 6 || (o.engine == 8 && held o)
  .all [
    Prog.when (k.reeve.orders.any (fun o => o.engine == 8 && held o)) (noVerdict c),
    absorbOrders (pgMill c) c mine,
    modCroft c (fun k => { k with mill := none }),
    Prog.each (k.leat.foldl (fun (l : List (Nat × List Nat)) r =>
        if l.any (fun y => y.1 == r.serial) then l else l ++ [(r.serial, r.wells)]) []) (fun x => absorbDraw (pgMill c) c x.1 x.2),
    Prog.each (pumpsOf c) (fun g =>
      match s.pumpRun g with
      | some r => Prog.when (decide (r.epi ≠ 0)) (.all [pumpEnd g r, absorbOrders (pgMill c) c (fun o => o.serial == r.serial)])
      | none => .done),
    seedLanes c 0 128,
    pageReset (pgMill c)])

/-- The reeve page takes its reset values; the record of a watchdog expiry stays until a croft reset (R267). -/
def clearReevePage (c : Nat) : Prog := .get (fun s =>
  let p := pgReeve c
  let keep := [R.FAULT_CAUSE.off, R.FAULT_ADDR_LO.off, R.FAULT_ADDR_HI.off, R.reeve_FAULT_IDX_INDEX.off]
  .all [
    pageReset p,
    Prog.when (s.reeve c).dead (.all [
      setFld p R.STATE_STATE stFault,
      Prog.each keep (fun o => setReg p o (s.reg p o))])])

/-- A core reset of the reeve resets the croft's Tally half with it (R239); orders issued to engines run on, and the state a watchdog
expiry leaves stays (R267). -/
def dropReeve (c : Nat) : Prog := .all [
  modCroft c (fun k => { k with
    reeve := { orders := k.reeve.orders, serial := k.reeve.serial, dead := k.reeve.dead }
    tally := [] }),
  clearReevePage c,
  pageReset (pgTally c)]

/-- A core reset begins on its page. -/
def dropCore (p : Page) : Prog :=
  match p.kind with
  | .well => dropWell p.inst
  | .pump => dropPump p.inst
  | .mill => dropMill p.inst
  | _ => dropReeve p.inst

/-! ### Crofts and hamlets -/

/-- A unit of croft `c` had stopped on a residue mismatch: its croft's reset ends the Watch page's fault of cause 0x01 (R430). (DEDUCED,
assumption 62) -/
def residueEnds (c : Nat) : Prog := .get (fun s =>
  Prog.when (!(s.croft c).stopped.isEmpty && s.fld pgWatch R.STATE_STATE == stFault && s.fld pgWatch R.FAULT_CAUSE == 1)
    (setFld pgWatch R.STATE_STATE (if s.bit pgWatch R.CTL_ENABLE then stEnabled else stDisabled)))

/-- A croft stops: its reeve and its engines at once; its sluice, its queues and its slice serve the drain (R15, R341). -/
def stopCroft (c : Nat) : Prog :=
  let base := croftBase c
  .all [
    residueEnds c,
    absorbOrders (pgCroft c) c (fun _ => true),
    modCroft c (fun k => { inJobs := k.inJobs, asyncAt := k.asyncAt }),
    eff (.wellErase (c * 16) (c * 16 + 16)),
    eff (.pumpErase (c * 4) (c * 4 + 4)),
    eff (.regsErase (base + 0x1000) (base + 0x3000)),
    eff (.regsErase (base + 0x4000) (base + 0xA000)),
    eff (.regsErase (base + 0x10000) (base + 0x20000)),
    modPower (fun p => { p with
      clkQ := p.clkQ.filter (fun w => w.croft != c), relock := p.relock.filter (fun w => w.croft != c) })]

/-- Every register of croft `c` takes its reset value, and the croft keeps nothing beyond them. -/
def clearCroft (c : Nat) : Prog := .all [
  eff (.regsErase (croftBase c) (croftBase c + 0x40000)),
  eff (.croftErase c (c + 1)),
  eff (.wellErase (c * 16) (c * 16 + 16)),
  eff (.pumpErase (c * 4) (c * 4 + 4)),
  eff (.queueErase (c * 128) (c * 128 + 128))]

/-- Units of `u` bytes that lie in slice `c`, as an interval of unit numbers. -/
def outside (c u : Nat) (k : Nat) : Bool := !(decide (sliceAddr c 0 ≤ k * u) && decide (k * u < sliceAddr c sliceSize))

/-- The slice of croft `c` is rewritten with zero and valid check bits (R20, R305). -/
def clearSlice (c : Nat) : Prog := .all [
  eff (.memErase (sliceAddr c 0) (sliceAddr c sliceSize)),
  modDev (fun d => { d with
    flips := d.flips.filter (fun e => outside c 8 e.1)
    parityFlips := d.parityFlips.filter (fun e => outside c 256 e.1)
    parityErr := d.parityErr.filter (fun e => outside c 256 e.1)
    deadWords := d.deadWords.filter (outside c 8) })]

/-- The spares of well `w`: those of the defect list in entry order, then the runtime assignments (R77, R82, R99, R508). (DEDUCED,
assumption 20) -/
def State.givenSpares (s : State) (w : Nat) : List (Nat × Nat) :=
  let cols := (s.columnEntries w).take 16
  List.zip (List.range cols.length) cols ++ (s.dev.spareRuns.filter (fun e => e.1 == w)).map (fun e => e.2)

/-- What the Steward writes to a well before it leaves reset: its spare map and its factory trims; the well is due for a window (R82,
R99, R113). -/
def rebuildWell (w : Nat) : Prog := .get (fun s =>
  let p := pgWell w
  let l := s.givenSpares w
  .all [
    Prog.each l (fun e => .all [
      setFld p (R.well_SPARE_MAP_LOGICAL.plus (4 * e.1)) e.2, setFld p (R.well_SPARE_MAP_VALID.plus (4 * e.1)) 1]),
    Prog.when (!l.isEmpty) (setFld p R.well_STATUS_SPARES_FREE (16 - min 16 l.length)),
    Prog.when (!s.retiredWell w) (setDue w true)])

/-! ### A request (R15 to R19) -/

/-- The device's own units, its crofts, its cisterns' traffic and its links are reset; the aux island, the lane routers, the host port's
configuration space and MSI-X table, Orarn's derived key and the Steward's retained memory are kept, and the counters of R519
(R6, R510). (DEDUCED, assumption 60) -/
def clearDevice : Prog := .get (fun s => .all [
  eff (.regsErase 0 (pgDevctl.base + R.devctl_DEV_RST_CNT.off)),
  eff (.regsErase (pgDevctl.base + R.devctl_RETIRE_CNT.off + 4) 0x10000000),
  eff (.croftErase 0 128), eff (.wellErase 0 2048), eff (.pumpErase 0 512), eff (.queueErase 0 16384), eff (.linkErase 0 16),
  Prog.each (List.range 8) (fun h => modHamlet h (fun _ => {})),
  eff (.dev { (({} : Device)) with
    resets := s.dev.resets
    incs := s.dev.incs, incWindow := s.dev.incWindow
    spareRuns := s.dev.spareRuns
    granFlips := s.dev.granFlips, deadGranules := s.dev.deadGranules
    bell := s.dev.bell
    wdogAt := s.now
    host := { s.dev.host with waiting := [], mailbox := {} }
    power := { s.dev.power with
      target := none, asked := false, later := [], holds := [], offAsked := false, clkQ := [], relock := [], avsFails := [], samples := [], atMax := 0 }
    boot := { s.dev.boot with loads := [], found := [], released := false } })])

/-- What a request does at once, by its grain. (DEDUCED, assumption 58) -/
def resetStarts (g : Grain) : Prog :=
  match g with
  | .core p => .all [dropCore p, bump pgDevctl R.devctl_CORE_RST_CNT, holdCores [p], stepEnds]
  | .croft c => .all [stopCroft c, incAdvance c, bump pgDevctl R.devctl_CROFT_RST_CNT, stepEnds]
  | .hamlet h => .all [
      Prog.each (croftsOf h) stopCroft, Prog.each (croftsOf h) incAdvance, snapFail 7 0,
      bump pgDevctl R.devctl_HAMLET_RST_CNT, stepEnds]
  | .device => .all [clearDevice, bump pgDevctl R.devctl_DEV_RST_CNT]

/-- A reset of grain `g` is requested: without effect inside one in progress, which runs on; else it begins, and ends those of the grains
inside it with their bring-up (R15, R19, R513). A core and the device have no drain. (DEDUCED, assumption 61) -/
def beginReset (g : Grain) : Prog := .get (fun s =>
  if s.dev.resets.any (fun r => g.within r.grain) then .done
  else
    let atOnce := match g with | .croft _ | .hamlet _ => false | _ => true
    .all [
      modDev (fun d => { d with resets := d.resets.filter (fun r => !r.grain.within g) ++ [⟨g, atOnce⟩] }),
      modBoot (fun b => { b with loads := b.loads.filter (fun l => !g.covers l.core) }),
      resetStarts g])

/-! ### The end of a drain (R15, R16, R341) -/

/-- DRAIN_END: the 20 µs of a croft or hamlet reset are over, what remains is absorbed, and the grain's bring-up begins (R512). -/
def execDrainEnd (g : GrainId) (s : State) : Host.Outcome State Fault Refusal :=
  Prog.next (.get (fun s =>
    match grainOf g with
    | none => .done
    | some g =>
      if !s.dev.resets.any (fun r => r.grain == g && !r.drained) then .done
      else .all [
        modDev (fun d => { d with resets := d.resets.map (fun r => if r.grain = g then { r with drained := true } else r) }),
        Prog.each g.crofts absorbCroft,
        (match g with | .hamlet h => absorbGranary h | _ => .done),
        Prog.each g.crofts clearCroft,
        (match g with
         | .hamlet h => eff (.regsErase (hamletBase h) (hamletBase h + 0x2000))
         | _ => .done),
        Prog.each g.crofts (fun c => holdCores (coresOf c))])) s

/-! ### The end of a reset (R512) -/

/-- Registers and records of the grain at their reset values, and what the Steward writes before it leaves reset (R6, R20, R82). -/
def grainLeaves (g : Grain) : Prog :=
  match g with
  | .core p =>
    match p.kind with
    | .well => .all [pageReset p, rebuildWell p.inst]
    | .reeve => .all [clearReevePage p.inst, pageReset (pgTally p.inst)]
    | _ => pageReset p
  | .croft c => .all [clearCroft c, clearSlice c, Prog.each (wellsOf c) rebuildWell]
  | .hamlet h => .all [
      eff (.regsErase (hamletBase h) (hamletBase h + 0x1000000)),
      Prog.each (croftsOf h) (fun c => .all [clearCroft c, clearSlice c, Prog.each (wellsOf c) rebuildWell]),
      modHamlet h (fun r => { r with warn := 0 }),
      modDev (fun d => { d with
        rereads := d.rereads.filter (fun r => r.hamlet != h), writeRetries := d.writeRetries.filter (fun g => g / 2 ^ 30 != h)
        scrubAt := Sparse.eraseRange d.scrubAt h (h + 1), tempFails := Sparse.eraseRange d.tempFails h (h + 1) })]
  | .device => Prog.each allCrofts (fun c => .all [clearCroft c, clearSlice c, Prog.each (wellsOf c) rebuildWell])

/-- The grain's reset is over. -/
def resetOver (g : Grain) : Prog := .all [
  modDev (fun d => { d with resets := d.resets.filter (fun r => r.grain != g) }),
  grainLeaves g]

/-- Whether a grain below the device may leave reset: its drain is over, no core of it is held, its hamlet is not at the reset level, and
no start is under way or stopped (R475, R502, R514). -/
def State.mayLeave (s : State) (g : Grain) : Bool :=
  s.dev.resets.any (fun r => r.grain == g && r.drained) &&
  !s.dev.boot.loads.any (fun l => g.covers l.core) &&
  s.fld pgDevctl R.devctl_BOOT_PHASE != phStopped &&
  (match g with
   | .hamlet h => s.fld pgPower R.power_STATUS_SUPPLY_RST / 2 ^ h % 2 == 0
   | _ => true)

end Sys2Proof.Machine
end

