-- ==== Sys2Proof/Machine/Power.lean ====
section
/-! DEFINITION. Power: AVSBus, voltage and clock, supply warnings and the reset level, the power cap, and the power states (R469 to R486,
R288). -/
namespace Sys2Proof.Machine

/-- Whether main power is on and every clock domain is fed. (DEDUCED, assumption 79) -/
def State.powered (s : State) : Bool := s.dev.power.level == .on

/-- A bit of a field that holds one for each hamlet. -/
def hamletBit (f : Fld) (h : Nat) : Fld := ⟨f.off, f.lo + h, 1⟩

/-! ### AVSBus (R471) -/

/-- AVS_TRANSACTION: the transaction on a rail completes, or fails and is retried; the third failure is a power fault (R471). -/
def execAvsTransaction (rail : Fin 16) (cmd : AvsCmd) (ok : Bool) (v : BitVec 13) (s : State) : Host.Outcome State Fault Refusal :=
  Prog.next (.get (fun s =>
    let n := (Sparse.get? s.dev.power.avsFails rail.val).getD 0
    let fails (k : Nat) : Prog := modPower (fun p => { p with avsFails := Sparse.set p.avsFails rail.val k })
    if !s.powered then .done
    else if ok then .all [
      fails 0,
      (match cmd with
       | .readVoltage => modPower (fun p => { p with meas := Sparse.set p.meas rail.val v.toNat })
       | .readCurrent => modPower (fun p => { p with amps := Sparse.set p.amps rail.val v.toNat })
       | _ => .done)]
    else if n < 2 then fails (n + 1)
    else .all [fails 0, bump pgPower R.power_AVS_ERR_CNT, powerFault 1 rail.val])) s

/-! ### Voltage and clock (R288, R472) -/

/-- Commanded voltage of a rail: typ of R469 where nothing else is commanded. -/
def State.volts (s : State) (r : Nat) : Nat := (Sparse.get? s.dev.power.volts r).getD (railTyp r)
def setVolts (r mv : Nat) : Prog := modPower (fun p => { p with volts := Sparse.set p.volts r mv })

def State.vpend (s : State) (h : Nat) : Bool := s.bit pgPower (hamletBit R.power_STATUS_VPEND h)
def setVpend (h : Nat) (b : Bool) : Prog := setBit pgPower (hamletBit R.power_STATUS_VPEND h) b

/-- The clock an island relocks to, if it does. -/
def State.relockTo (s : State) (c : Nat) : Option Nat := (s.dev.power.relock.find? (fun w => w.croft == c)).map (·.mult)

/-- The lowest voltage in mV for a MULT on a hamlet, as the trimmed table gives it: in steps of 5 mV within the rail's 0.65 V to
0.85 V (R12, R469, R472). -/
def vfOf (h m : Nat) : Nat := 650 + 5 * (Config.vfTable h m % 41)

/-- The highest MULT the clocks of hamlet `h` run at or relock to. -/
def State.topMult (s : State) (h : Nat) : Nat :=
  (croftsOf h).foldl (fun m c => max m (max (s.fld (pgCroft c) R.croft_CLK_CUR) ((s.relockTo c).getD 0))) 0

/-- An island's clock stops and relocks (R288). -/
def relock (c m : Nat) : Prog := .all [
  setFld (pgCroft c) R.croft_CLK_RELOCK 1,
  modPower (fun p => { p with relock := p.relock ++ [⟨c, m⟩] })]

/-- The writes that wait are carried out in order while none of the hamlet waits for VDone: a raise that needs more voltage commands it
first, any other relocks (R472). -/
def clkAdvance (h : Nat) : Nat → Prog
  | 0 => .done
  | fuel + 1 => .get (fun s =>
    match s.dev.power.clkQ.find? (fun w => w.croft / 16 == h) with
    | none => .done
    | some w =>
      let pop := modPower (fun p => { p with clkQ := p.clkQ.erase w })
      let need := vfOf h (max (s.topMult h) w.mult)
      if s.vpend h || (s.relockTo w.croft).isSome then .done
      else if w.mult = s.fld (pgCroft w.croft) R.croft_CLK_CUR then .all [pop, clkAdvance h fuel]
      else if s.volts h < need then .all [setVolts h need, setVpend h true]
      else .all [pop, relock w.croft w.mult, clkAdvance h fuel])

/-- The hamlet's voltage falls to the lowest its clocks need, unless a raise waits for VDone (R472). -/
def voltsSettle (h : Nat) : Prog := .get (fun s =>
  Prog.when (!s.vpend h && decide (vfOf h (s.topMult h) < s.volts h)) (setVolts h (vfOf h (s.topMult h))))

def clkGo (h : Nat) : Prog := .get (fun s => clkAdvance h (s.dev.power.clkQ.length + 1))

/-- The effect of a write of CROFT.CLK: a MULT outside 32 to 72 has none (R288). -/
def writeClk (c : Nat) (v : Nat) : Prog :=
  let m := v % 128
  if m < 32 ∨ 72 < m then ignored (pgCroft c)
  else .all [
    setFld (pgCroft c) R.croft_CLK_MULT m,
    modPower (fun p => { p with clkQ := p.clkQ ++ [⟨c, m⟩] }),
    clkGo (c / 16)]

/-- CLK_MULT_WRITE (R288, R472). -/
def execClkMultWrite (c : CroftId) (v : Word) (s : State) : Host.Outcome State Fault Refusal :=
  Prog.next (regWrite .host (pgCroft c.val) R.croft_CLK_MULT.off (writeClk c.val v.toNat)) s

/-- RELOCK_DONE: the new clock is in force and orders resume (R288). -/
def execRelockDone (c : CroftId) (s : State) : Host.Outcome State Fault Refusal :=
  Prog.next (.get (fun s =>
    match s.relockTo c.val with
    | none => .done
    | some m => .all [
        setFld (pgCroft c.val) R.croft_CLK_CUR m,
        setFld (pgCroft c.val) R.croft_CLK_RELOCK 0,
        modPower (fun p => { p with relock := p.relock.filter (fun w => w.croft != c.val) }),
        voltsSettle (c.val / 16),
        clkGo (c.val / 16)])) s

/-- The raise that waits for VDone on hamlet `h`. -/
def State.raising (s : State) (h : Nat) : Option ClkWrite :=
  if s.vpend h then s.dev.power.clkQ.find? (fun w => w.croft / 16 == h) else none

/-- VDONE: the regulator has reached the commanded voltage, and the clock that waits relocks (R472). -/
def execVdone (h : HamletId) (s : State) : Host.Outcome State Fault Refusal :=
  Prog.next (.get (fun s =>
    .all [
      setVpend h.val false,
      (match s.raising h.val with
       | some w => .all [modPower (fun p => { p with clkQ := p.clkQ.erase w }), relock w.croft w.mult]
       | none => .done),
      clkGo h.val])) s

/-- VDONE_TIMEOUT: a power fault, and the clock stays as it was (R472, R486). (DEDUCED, assumption 76) -/
def execVdoneTimeout (h : HamletId) (s : State) : Host.Outcome State Fault Refusal :=
  Prog.next (.get (fun s =>
    if !s.vpend h.val then .done
    else .all [
      setVpend h.val false,
      (match s.raising h.val with
       | some w => modPower (fun p => { p with clkQ := p.clkQ.erase w })
       | none => .done),
      powerFault 5 h.val,
      clkGo h.val])) s

/-! ### Supply warnings and the reset level (R473 to R476) -/

/-- SUPPLY_WARNING: the hamlet's wells discard, its plumb work aborts, its load passes are to be repeated, and Gauge starts a burst (R134 to
R136, R474). -/
def execSupplyWarning (h : HamletId) (s : State) : Host.Outcome State Fault Refusal :=
  Prog.next (.get (fun s =>
    if !s.powered || (s.hamlet h.val).warn = 1 then .done
    else .all [
      modHamlet h.val (fun r => { r with warn := 1 }),
      setFld pgPower (hamletBit R.power_STATUS_WARN h.val) 1,
      Prog.each (croftsOf h.val) (fun c => .all [
        discardSlots c,
        plumbAbort c,
        Prog.each ((wellsOf c).filter (fun w => (s.well w).load.isSome)) loadWarned]),
      gaugeBurst h.val])) s

/-- SUPPLY_WARNING_RELEASE: the warning ends and, unless the reset level was reached, is counted, logged, raised and told (R474). -/
def execSupplyWarningRelease (h : HamletId) (dur : Nat) (low : BitVec 7) (s : State) : Host.Outcome State Fault Refusal :=
  Prog.next (.get (fun s =>
    if (s.hamlet h.val).warn ≠ 1 then .done
    else .all [
      modHamlet h.val (fun r => { r with warn := 2 }),
      setFld pgPower (hamletBit R.power_STATUS_WARN h.val) 0,
      Prog.when (!s.bit pgPower (hamletBit R.power_STATUS_SUPPLY_RST h.val)) (.all [
        bump pgPower R.power_WARN_CNT,
        setFld pgPower R.power_DROOP_LOG_HAMLET h.val,
        setFld pgPower R.power_DROOP_LOG_DUR (min dur 0xFFFFF),
        setFld pgPower R.power_DROOP_LOG_MIN low.toNat,
        setFld pgPower R.power_DROOP_LOG_VALID 1,
        raiseLine pgPower,
        tellWatch 8])])) s

/-- WARNING_SETTLE_END: 200 ns after release the effects end (R134 to R136, R474). -/
def execWarningSettleEnd (h : HamletId) (s : State) : Host.Outcome State Fault Refusal :=
  Prog.next (.get (fun s =>
    if (s.hamlet h.val).warn ≠ 2 then .done
    else .all [
      modHamlet h.val (fun r => { r with warn := 0 }),
      Prog.each (croftsOf h.val) (fun c => .all [
        plumbRestart c,
        Prog.each ((wellsOf c).filter (fun w => (s.well w).load.isSome)) loadSettled])])) s

/-- SUPPLY_RESET_RELEASE: the rail has stayed above 95 % for 10 µs (R475). -/
def execSupplyResetRelease (h : HamletId) (s : State) : Host.Outcome State Fault Refusal :=
  Prog.next (setFld pgPower (hamletBit R.power_STATUS_SUPPLY_RST h.val) 0) s

/-- RESET_LEVEL_HOLD_TIMEOUT: a hamlet held for more than 1 ms is a power fault (R475, R486). -/
def execResetLevelHoldTimeout (h : HamletId) (s : State) : Host.Outcome State Fault Refusal :=
  Prog.next (.get (fun s => Prog.when (s.bit pgPower (hamletBit R.power_STATUS_SUPPLY_RST h.val)) (powerFault 3 h.val))) s

/-- OVERVOLTAGE (R473, R486). -/
def execOvervoltage (h : HamletId) (s : State) : Host.Outcome State Fault Refusal :=
  Prog.next (.get (fun s => Prog.when s.powered (.all [bump pgPower R.power_OV_CNT, powerFault 2 h.val]))) s

/-- The rails that supervisors watch (R487). -/
def supervised (r : Nat) : Bool := r == 27 || r == 28 || r == 30 || r == 34 || r == 35

/-- RAIL_SUPERVISOR_TRIP: a supervisor reports a rail outside its limits (R476, R487). -/
def execRailSupervisorTrip (rail : Fin 36) (s : State) : Host.Outcome State Fault Refusal :=
  Prog.next (.get (fun s => Prog.when (s.powered && supervised rail.val) (powerFault 4 rail.val))) s

/-! ### Power cap (R478) -/

/-- Power of a rail in mW: AVSBus readings for rails 0 to 15, else the latest measured voltage, or typ, times the trimmed current (R478,
R487). -/
def State.railPower (s : State) (r : Nat) : Nat :=
  if r < 16 then (Sparse.get? s.dev.power.meas r).getD 0 * (Sparse.get? s.dev.power.amps r).getD 0
  else (Sparse.get? s.dev.power.meas r).getD (railTyp r) * Config.railAmps r (s.fld pgPower R.power_STATUS_PSTATE)

/-- CAP_GOVERNOR_TICK: the governor forms package power and moves the stretch duty (R478). Which of two whole watts a fractional average
shows is a free value. (DEDUCED, assumption 77) -/
def execCapGovernorTick (s : State) : Host.Outcome State Fault Refusal :=
  Prog.next (.get (fun s =>
    let now := ((List.range 36).map s.railPower).sum
    let samples := (now :: s.dev.power.samples).take 10
    let total := samples.sum
    let den := 1000 * samples.length
    let avg := min 8191 (total / den + (if total % den = 0 then 0 else Config.openBit s.seq % 2))
    let cap := 10 * s.fld pgPower R.power_CFG_CAP
    let duty := s.fld pgPower R.power_POWER_DUTY
    let up := decide (cap < avg)
    let down := decide (100 * avg < 98 * cap)
    let next := if up then min 32 (duty + 1) else if down then duty - 1 else duty
    let atMax := if up && duty == 32 then s.dev.power.atMax + 1 else 0
    if !s.powered then .done
    else if !s.bit pgPower R.power_CFG_CAP_EN then .all [
      setFld pgPower R.power_POWER_DUTY 0, setFld pgPower R.power_STATUS_CAP_LIMITING 0,
      modPower (fun p => { p with samples := [], atMax := 0 })]
    else .all [
      eff .seq,
      modPower (fun p => { p with samples := samples, atMax := atMax }),
      setFld pgPower R.power_POWER_AVG_W avg,
      setFld pgPower R.power_POWER_DUTY next,
      Prog.when (decide (0 < next) && !s.bit pgPower R.power_STATUS_CAP_LIMITING) (bump pgPower R.power_CAP_LIMIT_CNT),
      setBit pgPower R.power_STATUS_CAP_LIMITING (decide (0 < next)),
      Prog.when (decide (10 ≤ atMax) && !s.bit pgPower R.power_STATUS_CAP_MISS) (.all [
        setFld pgPower R.power_STATUS_CAP_MISS 1, raiseLine pgPower, tellWatchOpen])])) s

/-! ### Off (R469, R480, R481, R483) -/

/-- Main power goes: what the board flash and the aux island keep stands, and every unit is held in reset (R480, R496, R515). -/
def powerOff : Prog := .get (fun s =>
  let b := s.dev.boot
  .all [
    eff (.regsErase 0 0x10000000), eff (.memErase 0 0x200000000000),
    eff (.croftErase 0 128), eff (.wellErase 0 2048), eff (.pumpErase 0 512), eff (.queueErase 0 16384), eff (.linkErase 0 16),
    Prog.each (List.range 8) (fun h => modHamlet h (fun _ => {})),
    eff (.dev { (({} : Device)) with
      resets := [⟨.device, true⟩]
      power := { thermN := s.dev.power.thermN, tripped := s.dev.power.tripped }
      boot := {
        strap := b.strap, warmLow := b.warmLow, bank := b.bank, flash := b.flash, next := b.next, trim := b.trim, enrol := b.enrol
        defects := b.defects, starts := b.starts
        runtime := b.runtime.filter (fun e => !b.unwritten.contains e) } })])

/-- THERMTRIP: every clock but the aux island's stops, the rails drop and THERMTRIP_N is asserted with its record (R483). -/
def execThermtrip (stack : Bool) (i : BitVec 6) (s : State) : Host.Outcome State Fault Refusal :=
  Prog.next (.get (fun s =>
    if s.dev.power.level == .off then .done
    else .all [modPower (fun p => { p with thermN := true, tripped := some (stack, i.toNat) }), powerOff])) s

/-- OFF_ENTRY: 1 ms after an accepted OFF request the rails drop in the reverse of the start-up order (R481). -/
def execOffEntry (s : State) : Host.Outcome State Fault Refusal :=
  Prog.next (.get (fun s => Prog.when s.dev.power.offAsked powerOff)) s

/-- MAIN_FEEDS_REMOVED: THERMTRIP_N is released and the device is in OFF (R483). -/
def execMainFeedsRemoved (s : State) : Host.Outcome State Fault Refusal :=
  Prog.next (.all [
    .get (fun s => Prog.when (s.dev.power.level != .off) powerOff),
    modPower (fun p => { p with thermN := false })]) s

/-! ### Power states (R479 to R481) -/

/-- Values of PSTATE (R479, R484), and of the targets beyond. -/
def psActive : Nat := 0
def psIdle : Nat := 1
def psDoze : Nat := 2
def psRetain : Nat := 3

def State.pstate (s : State) : Nat := s.fld pgPower R.power_STATUS_PSTATE

/-- Whether some reeve reads RUNNING. -/
def State.anyRunning (s : State) : Bool := allCrofts.any s.running

/-- A transition begins (R479). -/
def transTo (t : Nat) : Prog := .all [
  modPower (fun p => { p with target := some t, holds := [] }),
  setFld pgPower R.power_STATUS_TRANS 1]

/-- A D3hot write is taken: with a reeve page enabled every croft halts and the step is abandoned (R481). (DEDUCED, assumption 82) -/
def takeD3 : Prog := .get (fun s => .all [
  Prog.when (!s.enabledReeves.isEmpty) (.all [haltAll 7, stepEnds]),
  transTo psRetain])

/-- PM_D3HOT: taken while the device runs; during a transition it waits (R481). -/
def execPmD3hot (s : State) : Host.Outcome State Fault Refusal :=
  Prog.next (.get (fun s =>
    if !s.powered || !s.atReady || s.dev.power.offAsked then .done
    else if s.dev.power.target.isSome then modPower (fun p => { p with later := p.later ++ [true] })
    else takeD3)) s

/-- PM_D0: wakes the device from RETAIN; during the entry it waits (R479, R481). -/
def execPmD0 (s : State) : Host.Outcome State Fault Refusal :=
  Prog.next (.get (fun s =>
    if s.dev.power.target.isSome then modPower (fun p => { p with later := p.later ++ [false] })
    else Prog.when (s.dev.power.level == .retain) (transTo psIdle))) s

/-- SET_POWER_STATE: checked and begun, or answered at once; the response to a transition follows its end (R479, R481, R499). (DEDUCED,
assumption 80) -/
def execSetPowerState (s : State) : Host.Outcome State Fault Refusal :=
  Prog.next (serveLen opSetPower 4 (fun r => .get (fun s =>
    let t := leNat (r.payload.take 4)
    let p := s.pstate
    if !(t == 0 || t == 1 || t == 2 || t == 4) then respond rsMalformed []
    else if !s.powered || !s.atReady || s.dev.power.target.isSome || s.dev.power.offAsked || t = p then respond rsNotNow []
    else if t = 4 then
      if (p == psIdle || p == psDoze) && s.enabledReeves.isEmpty then
        .all [modPower (fun p => { p with offAsked := true }), setFld pgPower R.power_STATUS_TRANS 1, respond rsDone (toLe 4 4)]
      else respond rsNotNow []
    else if (p == psIdle && t == psActive) || (p == psDoze && t == psIdle) || (((p == psActive && t == psIdle) || (p == psIdle && t == psDoze)) && !s.anyRunning)
      then .all [transTo t, modPower (fun p => { p with asked := true })]
    else respond rsNotNow []))) s

/-- What entering RETAIN leaves: the cisterns and granaries, Crier's CFG, SW, masks, routes and service states, and what the start keeps
(R6, R466, R467, R480). (DEDUCED, assumption 81) -/
def retainEntry : Prog := .get (fun s => .all [
  eff (.regsErase 0 (pgCrier.base + R.crier_CFG_REEVE_TOKEN.off)),
  eff (.regsErase (pgCrier.base + R.crier_ROUTE_SEL_SOURCE.off) (pgCrier.base + R.crier_MASK.off)),
  eff (.regsErase (pgCrier.base + R.crier_PEND.off) 0x10000000),
  eff (.croftErase 0 128), eff (.wellErase 0 2048), eff (.pumpErase 0 512), eff (.queueErase 0 16384), eff (.linkErase 0 16),
  Prog.each (List.range 8) (fun h => modHamlet h (fun _ => {})),
  eff (.dev { (({} : Device)) with
    resets := [⟨.device, true⟩]
    incs := s.dev.incs
    spareRuns := s.dev.spareRuns
    flips := s.dev.flips, parityFlips := s.dev.parityFlips, deadWords := s.dev.deadWords, parityErr := s.dev.parityErr
    granFlips := s.dev.granFlips, deadGranules := s.dev.deadGranules
    faultN := s.dev.faultN
    crier := s.dev.crier
    host := { s.dev.host with waiting := [], mailbox := {} }
    power := { (({} : Power)) with level := .retain, later := s.dev.power.later }
    boot := s.dev.boot
    orarn := { s.dev.orarn with regions := [], opened := 0, finished := 0, ideKeys := [] } })])

/-- PM writes that waited for a transition are taken in turn, until one begins another (R481). -/
def takeLater : Nat → Prog
  | 0 => .done
  | fuel + 1 => .get (fun s =>
    match s.dev.power.later with
    | [] => .done
    | d3 :: rest =>
      if s.dev.power.target.isSome then .done
      else .all [
        modPower (fun p => { p with later := rest }),
        (if d3 then Prog.when s.powered takeD3 else Prog.when (s.dev.power.level == .retain) (transTo psIdle)),
        takeLater fuel])

/-- Whether the transition in progress can end: no hamlet that reached the reset level during it is still in reset, and for RETAIN every
croft has halted (R475, R481). -/
def State.transEnds (s : State) (t : Nat) : Bool :=
  s.dev.power.holds.all (fun h => !s.underReset (pgHamlet h)) && (t != psRetain || !s.anyRunning)

end Sys2Proof.Machine
end

