-- ==== Sys2Proof/Machine/Boot.lean ====
section
/-! DEFINITION. Start-up: cold start, firmware broadcast, the end of a reset, device resets, the sideband and firmware updates (R496 to
R516, R543, R558), and the ends of power transitions and the reset level, which share what a start writes. -/
namespace Sys2Proof.Machine

def State.bootPhase (s : State) : Nat := s.fld pgDevctl R.devctl_BOOT_PHASE
def setPhase (n : Nat) : Prog := setFld pgDevctl R.devctl_BOOT_PHASE n

/-! ### Retirement (R502, R503, R509) -/

/-- KIND and UNIT of the entry that retires a core's unit; a mill or a reeve retires its croft (R503). -/
def coreEntry (p : Page) : Nat × Nat :=
  match p.kind with
  | .well => (dkWell, p.inst)
  | .pump => (dkPump, p.inst)
  | _ => (dkCroft, p.inst)

/-- A unit is retired by broadcast (DETAIL 2) or otherwise: at a cold start it is a finding of that start, else a runtime record (R507,
R509); counted once (R519). (DEDUCED, assumption 68) (DEDUCED, assumption 69) -/
def retire (kind unit detail : Nat) : Prog := .get (fun s =>
  let b := s.dev.boot
  let same (e : DefEntry) : Bool := e.kind == kind && e.unit == unit
  if (s.retiredBy kind unit).isSome || b.found.any same then .done
  else .all [
    bump pgDevctl R.devctl_RETIRE_CNT,
    if b.cold then modBoot (fun b => { b with found := b.found ++ [⟨kind, 1, unit, detail, b.starts⟩] })
    else
      let e : DefEntry := ⟨kind, 2, unit, detail, b.starts⟩
      modBoot (fun b => { b with runtime := b.runtime ++ [e], unwritten := b.unwritten ++ [e] })])

/-- Loads of cores that are retired by now are dropped, found ones of this start included. -/
def dropRetired : Prog := .get (fun s =>
  let b := s.dev.boot
  let found (p : Page) : Bool := b.found.any (fun e =>
    (e.kind == (coreEntry p).1 && e.unit == (coreEntry p).2) || (e.kind == dkCroft && p.croft? == some e.unit))
  modBoot (fun b => { b with loads := b.loads.filter (fun l => !s.retiredCore l.core && !found l.core) }))

/-! ### Start stops (R514) -/

/-- A start stops: every croft is held in reset, FAULT_N is asserted and the record stands (R514). (DEDUCED, assumption 64) -/
def startStops (code addr : Nat) : Prog := .all [
  modDev (fun d => { d with
    faultN := true
    resets := allCrofts.map (fun c => ⟨.croft c, true⟩)
    boot := { d.boot with group := none, cold := false, full := false, released := false, loads := [], found := [] } }),
  setPhase phStopped,
  setFld pgDevctl R.devctl_BOOT_STOP code,
  setReg pgDevctl R.FAULT_CAUSE.off (BitVec.ofNat 32 code),
  setReg pgDevctl R.FAULT_ADDR_LO.off (BitVec.ofNat 32 addr),
  setReg pgDevctl R.FAULT_ADDR_HI.off (BitVec.ofNat 32 (addr / 2 ^ 32))]

/-- The enrolment section serves a start: it is committed, or the defect list carries no device seal, as its START_CNT says (R522, R525). -/
def Boot.enrolled (b : Boot) : Bool :=
  match b.enrol with
  | .absent => false
  | .uncommitted => b.starts == 0
  | .committed => true

/-- Steps 3 and 4 of a start, and what follows where they pass: Orarn derives the identity from the enrolment section and writes its COMMIT
word, and the trim image is the device's own; else the start stops with code 0x03 or 0x01, at a flash offset the manual leaves open (R1,
R499, R514, R521, R522). (DESIGN CHOICE, assumption 70) -/
def identified (k : Prog) : Prog := .get (fun s =>
  let b := s.dev.boot
  let stop (code : Nat) : Prog := .all [eff .seq, startStops code (Config.openWord s.seq).toNat]
  if !b.enrolled then stop 3
  else .all [
    modBoot (fun b => { b with enrol := .committed }),
    if b.trim = .own then k else stop 1])

/-! ### Cold start (R498, R499) -/

/-- Rails of a group of R498, and the RAIL_EN outputs that switch it (R554). -/
def groupRails : Nat → List Nat
  | 1 => [26]
  | 2 => [24, 25, 30]
  | 3 => [27, 28, 29]
  | 4 => [33, 31, 32]
  | 5 => [8, 9, 10, 11, 12, 13, 14, 15]
  | 6 => [16, 17, 18, 19, 20, 21, 22, 23]
  | _ => [0, 1, 2, 3, 4, 5, 6, 7]

def groupEnables : Nat → List Nat
  | 1 => [0]
  | 2 => [1]
  | 3 => [2]
  | 4 => [3, 4, 5]
  | 5 => [6]
  | 6 => [7]
  | _ => [8]

/-- A rail group is enabled. -/
def enableGroup (g : Nat) : Prog := modBoot (fun b => { b with group := some g, railEn := b.railEn ++ groupEnables g })

/-- COLD_START: WARM_RST_N is released in OFF, nothing of an earlier run remains, and rail group 1 is enabled; the THERMTRIP record is
cleared (R498, R499, R515, R519, R559). (DEDUCED, assumption 65) -/
def execColdStart (s : State) : Host.Outcome State Fault Refusal :=
  Prog.next (.get (fun s =>
    if s.dev.power.level != .off || s.dev.power.thermN || s.dev.boot.strap.isNone then .done
    else .all [
      powerOff,
      modPower (fun p => { p with level := .on, tripped := none }),
      modBoot (fun b => { b with cold := true, warmLow := false }),
      enableGroup 1])) s

/-- RAIL_GROUP_VALID: the next group is enabled; after the last, G0 and G1 leave reset and the cores are held for their images (R498, R499,
R502). -/
def execRailGroupValid (s : State) : Host.Outcome State Fault Refusal :=
  Prog.next (.get (fun s =>
    match s.dev.boot.group with
    | none => .done
    | some g =>
      if g < 7 then enableGroup (g + 1)
      else .all [
        modBoot (fun b => { b with group := none, released := true }),
        setPhase 1,
        Prog.each allCrofts (fun c => holdCores (coresOf c))])) s

/-- RAIL_GROUP_TIMEOUT: the start stops with code 0x02 and the rail's index (R498, R514). -/
def execRailGroupTimeout (rail : Fin 36) (s : State) : Host.Outcome State Fault Refusal :=
  Prog.next (.get (fun s =>
    match s.dev.boot.group with
    | some g => Prog.when ((groupRails g).contains rail.val) (startStops 2 rail.val)
    | none => .done)) s

/-! ### Firmware broadcast (R501, R502) -/

def CoreKind.page : CoreKind → Kind
  | .well => .well
  | .pump => .pump
  | .mill => .mill
  | .reeve => .reeve

/-- No core is held any more: self-test follows, or on the fast path the granaries and the trims (R499, R511). -/
def broadcastEnds : Prog := .get (fun s =>
  Prog.when (s.deviceReset && s.dev.boot.loads.isEmpty && s.bootPhase == 4) (setPhase (if s.dev.boot.cold || s.dev.boot.full then 5 else 7)))

/-- FW_PACKET: each core it reaches that lacks the packet stores it; a core whose image is whole is released, or lacks every packet again
where its digest differs (R501, R502). The first of a start finds the Steward's firmware running (R499). (DEDUCED, assumption 66) -/
def execFwPacket (kind : CoreKind) (n : BitVec 16) (only : Option (BitVec 16)) (lost : List Nat) (differ : List Nat) (s : State) :
    Host.Outcome State Fault Refusal :=
  Prog.next (.get (fun s =>
    let reaches (l : CoreLoad) : Bool := l.core.kind == CoreKind.page kind &&
      (match only with | some u => u.toNat == l.core.inst | none => true)
    let takes (l : CoreLoad) : List CoreLoad :=
      if !reaches l || lost.contains l.core.inst then [l]
      else
        let left := l.lacks.filter (· != n.toNat)
        if !left.isEmpty then [{ l with lacks := left }]
        else if l.lacks.contains n.toNat && differ.contains l.core.inst then [{ l with lacks := List.range (packetsOf l.core) }]
        else []
    let stored : Prog := .all [
      Prog.when only.isSome (bump pgDevctl R.devctl_REPAIR_CNT),
      modBoot (fun b => { b with loads := b.loads.flatMap takes }),
      broadcastEnds]
    if !s.dev.boot.loads.any reaches then .done
    else if s.deviceReset && s.dev.boot.released && decide (s.bootPhase < 4) then
      identified (.all [setPhase 4, modMailbox (fun m => { m with mstate := 0 }), stored])
    else stored)) s

/-- REPAIR_REPORT: every core still held reports; after the third round it is retired with its unit (R502, R503, R509). (DEDUCED,
assumption 67) -/
def execRepairReport (s : State) : Host.Outcome State Fault Refusal :=
  Prog.next (.all [
    modBoot (fun b => { b with loads := b.loads.map (fun l => { l with round := l.round + 1 }) }),
    .get (fun s => Prog.each (s.dev.boot.loads.filter (fun l => decide (4 ≤ l.round))) (fun l =>
      retire (coreEntry l.core).1 (coreEntry l.core).2 2)),
    dropRetired,
    broadcastEnds]) s

/-! ### Device reset (R510, R518, R558) -/

/-- A device reset begins with its cause, unless the device is under reset; FAULT_N is released (R19, R510, R558). -/
def deviceReset (cause : Nat) : Prog := .get (fun s =>
  if s.deviceReset then .done
  else .all [
    modBoot (fun b => { b with wasStopped := decide (s.bootPhase = phStopped) }),
    beginReset .device,
    setFld pgDevctl R.devctl_RESET_CAUSE_LAST cause])

/-- WARM_RST_N_ASSERT: a pulse of less than 1 µs, or one under THERMTRIP_N, is ignored; in OFF the pin is only held (R498, R558, R559).
(DEDUCED, assumption 75) -/
def execWarmRstNAssert (long : Bool) (s : State) : Host.Outcome State Fault Refusal :=
  Prog.next (.get (fun s =>
    if !long || s.dev.power.thermN then .done
    else .all [
      modBoot (fun b => { b with warmLow := true }),
      Prog.when s.powered (deviceReset 1)])) s

/-- WARM_RST_N_RELEASE: the device reset is released; the Steward takes the fast path where all of R510 holds, and the cores are held for
their images (R510, R511). -/
def execWarmRstNRelease (same : Bool) (s : State) : Host.Outcome State Fault Refusal :=
  Prog.next (.get (fun s =>
    let b := s.dev.boot
    let full := !same || b.wasStopped || b.updated
    .all [
      modBoot (fun b => { b with warmLow := false }),
      Prog.when (s.powered && s.deviceReset && !b.cold && !b.released && s.bootPhase == 0) (.all [
        modBoot (fun b => { b with released := true, full := full }),
        setBit pgDevctl R.devctl_BOOT_FAST (!full),
        setBit pgDevctl R.devctl_RESET_CAUSE_FULL_PATH full,
        setPhase 1,
        Prog.each allCrofts (fun c => holdCores (coresOf c))])])) s

/-- A write to a BAR0 offset in no page (R536); before READY the host's ends as for a device in reset (R499). -/
def holeWrite (who : Agent) (a : Nat) : Prog := .get (fun s =>
  if s.shut who pgPlan then hostEnd 0 endAbs true a else bump pgPlan R.plan_HOLE_CNT)

/-- RESET_REQ on the device control page (R518). -/
def deviceResetReq : Prog := .get (fun s => if s.deviceReset then ignored pgDevctl else deviceReset 2)

/-- DEVICE_RESET_REQ (R518, R543). -/
def execDeviceResetReq (who : Agent) (s : State) : Host.Outcome State Fault Refusal :=
  Prog.next (regWrite who pgDevctl R.CTL_ENABLE.off deviceResetReq) s

/-! ### Requests of smaller grains (R543) -/

/-- What RESET_REQ on a page requests; on a page of no grain it has no effect and is counted (R543). -/
def resetRequest (p : Page) : Prog :=
  if p.isCore then beginReset (.core p)
  else
    match p.kind with
    | .croft => beginReset (.croft p.inst)
    | .hamlet => beginReset (.hamlet p.inst)
    | .devctl => deviceResetReq
    | _ => ignored p

/-- CORE_RESET: RESET_REQ on a page (R543). -/
def execCoreReset (who : Agent) (pg : BitVec 16) (s : State) : Host.Outcome State Fault Refusal :=
  Prog.next (
    match pageAt (pg.toNat * 0x1000) with
    | none => holeWrite who (pg.toNat * 0x1000 + R.CTL_RESET_REQ.off)
    | some p => regWrite who p R.CTL_RESET_REQ.off (resetRequest p)) s

/-- CROFT_RESET: RESET_REQ on a croft control page (R543). -/
def execCroftReset (who : Agent) (c : CroftId) (s : State) : Host.Outcome State Fault Refusal :=
  Prog.next (regWrite who (pgCroft c.val) R.CTL_ENABLE.off (beginReset (.croft c.val))) s

/-- HAMLET_RESET: RESET_REQ on a hamlet control page (R518, R543). -/
def execHamletReset (who : Agent) (h : HamletId) (s : State) : Host.Outcome State Fault Refusal :=
  Prog.next (regWrite who (pgHamlet h.val) R.CTL_ENABLE.off (beginReset (.hamlet h.val))) s

/-- SUPPLY_RESET_LEVEL: the hamlet enters reset; during a cold start or a full path the start stops, and on the fast path the hamlet's
bring-up starts again (R475, R513). (DEDUCED, assumption 74) -/
def execSupplyResetLevel (h : HamletId) (s : State) : Host.Outcome State Fault Refusal :=
  Prog.next (.get (fun s =>
    let b := s.dev.boot
    if !s.powered then .done
    else if s.deviceReset && b.released && (b.cold || b.full) then startStops 8 h.val
    else .all [
      bump pgPower R.power_SUPPLY_RST_CNT,
      setFld pgPower (hamletBit R.power_STATUS_SUPPLY_RST h.val) 1,
      Prog.when s.dev.power.target.isSome (modPower (fun p => { p with holds := p.holds ++ [h.val] })),
      Prog.when (s.deviceReset && b.released) (.all [
        modBoot (fun b => { b with loads := b.loads.filter (fun l => !(Grain.hamlet h.val).covers l.core) }),
        Prog.each (croftsOf h.val) (fun c => holdCores (coresOf c)),
        setPhase 4]),
      beginReset (.hamlet h.val)])) s

/-! ### The end of a start (R499, R507, R508, R511) -/

/-- What the Steward writes at the end of every start and wake: Gauge's load, the rails' voltages, START_CNT and PHASE READY (R472, R493,
R499, R518). -/
def ready : Prog := .get (fun s => .all [
  gaugeLoad,
  Prog.each (List.range 8) (fun h => setVolts h (vfOf h 0x40)),
  setReg pgDevctl R.devctl_START_START_CNT.off (BitVec.ofNat 32 s.dev.boot.starts),
  setPhase phReady,
  raiseLine pgDevctl,
  modMailbox (fun m => { m with mstate := if m.mstate = 3 then 0 else m.mstate }),
  modDev (fun d => { d with wdogAt := s.now })])

/-- Whether a finding of self-test confirms a runtime record (R507). -/
def confirms (f : Finding) (e : DefEntry) : Bool :=
  f.kind.toNat == e.kind && f.unit.toNat == e.unit && (e.kind != dkSpare || f.detail.toNat == e.detail)

/-- The list with an entry appended, unless its unit is already retired: by an entry, with its croft, or by the column that found no spare
(R507, R508). -/
def appendEntry (l : List DefEntry) (e : DefEntry) : List DefEntry :=
  let croft := match e.kind with
    | 1 | 2 => some (e.unit / 16)
    | 3 => some (e.unit / 4)
    | 5 => some (e.unit / 128)
    | _ => none
  let well (x : DefEntry) : Bool := x.kind == dkWell && x.unit == e.unit && e.kind == dkSpare
  let retired := l.any (fun x => (x.kind == e.kind && x.unit == e.unit && (e.kind != dkSpare || x.detail == e.detail)) || well x ||
    (x.kind == dkCroft && croft == some x.unit))
  let full := decide (e.kind ≤ 2) && decide (16 < (l.filter (fun x => x.kind == dkSpare && x.unit == e.unit)).length)
  if retired || full then l else l ++ [e]

/-- The list a cold start seals: confirmed runtime records, then the findings of self-test and broadcast (R507). -/
def Boot.appended (b : Boot) (fs : List Finding) : List DefEntry :=
  let confirmed := (b.runtime.filter (fun e => fs.any (fun f => confirms f e))).map (fun e =>
    { e with source := 2, start := b.starts, detail := if e.kind = dkSpare then e.detail else 3 })
  let new := (fs.filter (fun f => decide (1 ≤ f.kind.toNat) && decide (f.kind.toNat ≤ 6) && !b.runtime.any (confirms f))).map (fun f =>
    (⟨f.kind.toNat, 1, f.unit.toNat, if f.kind.toNat = dkSpare then f.detail.toNat else 1, b.starts⟩ : DefEntry))
  (confirmed ++ new ++ b.found).foldl appendEntry b.defects

/-- Units that the new entries of the list `l` retire, those that the broadcast retired left out: they are counted already (R508, R519). -/
def Boot.newlyRetired (b : Boot) (l : List DefEntry) : Nat :=
  let cols (l : List DefEntry) (w : Nat) : Nat := (l.filter (fun e => e.kind == dkSpare && e.unit == w)).length
  ((l.drop b.defects.length).filter (fun e => e.kind != dkSpare && !b.found.contains e)).length +
  ((List.range 2048).filter (fun w => decide (cols b.defects w ≤ 16) && decide (16 < cols l w))).length

/-- The bytes of a firmware bank from an offset on (R496, R516). -/
def Boot.bankBytes (b : Boot) (bank o n : Nat) : List Byte :=
  (List.range n).map (fun i => (Sparse.get? b.flash (bank * 2 ^ 32 + o + i)).getD (Config.flashByte bank (o + i)))

/-- The firmware of a bank runs: its header's digest and REV are what Orarn measured (R520, R524). -/
def runBank (bank : Nat) : Prog := .get (fun s =>
  let hdr := s.dev.boot.bankBytes bank 0 4096
  modOrarn (fun o => { o with fwDigest := Config.sha384 hdr, fwRev := BitVec.ofNat 32 (leNat (hdr.take 4)) }))

/-- A cold start appends, seals and clears the runtime section, and writes the trim copy; a list beyond 4,096 entries stops it, at a flash
offset the manual leaves open (R497, R507). (DESIGN CHOICE, assumption 70) -/
def coldEnds (fs : List Finding) (k : Prog) : Prog := .get (fun s =>
  let l := s.dev.boot.appended fs
  if 4096 < l.length then .all [eff .seq, startStops 5 (Config.openWord s.seq).toNat]
  else .all [
    bumpBy pgDevctl R.devctl_RETIRE_CNT (s.dev.boot.newlyRetired l),
    modDev (fun d => { d with
      spareRuns := []
      boot := { d.boot with
        defects := l, starts := (d.boot.starts + 1) % 2 ^ 32, sealed := true, runtime := [], unwritten := [], found := [], cold := false } }),
    eff (.bytes 0x7FF0000000 (Config.trimImage.take 0x10000000)),
    k])

/-- The full path tests as a cold start does and retires what it finds at runtime (R505, R509). -/
def fullEnds (fs : List Finding) : Prog := .all [
  Prog.each (fs.filter (fun f => decide (2 ≤ f.kind.toNat) && decide (f.kind.toNat ≤ 6))) (fun f => retire f.kind.toNat f.unit.toNat 1),
  Prog.each (fs.filter (fun f => f.kind.toNat == dkSpare)) (fun f => .get (fun s =>
    let e : DefEntry := ⟨dkSpare, 2, f.unit.toNat, f.detail.toNat, s.dev.boot.starts⟩
    let used := (s.givenSpares f.unit.toNat).map (·.1)
    match (List.range 16).find? (fun i => !used.contains i) with
    | some i => modDev (fun d => { d with
        spareRuns := d.spareRuns ++ [(f.unit.toNat, i, f.detail.toNat)]
        boot := { d.boot with runtime := d.boot.runtime ++ [e], unwritten := d.boot.unwritten ++ [e] } })
    | none => retire dkWell f.unit.toNat 1))]

/-- The device leaves reset and reads READY (R499, R508, R511). (DEDUCED, assumption 73) -/
def startReady (fallback : Bool) : Prog := .all [
  resetOver .device,
  modDev (fun d => { d with resets := [], boot := { d.boot with full := false, updated := false, released := false, wasStopped := false } }),
  setBit pgDevctl R.devctl_BOOT_FALLBACK fallback,
  .get (fun s => runBank (if fallback then 1 - s.dev.boot.bank else s.dev.boot.bank)),
  ready]

/-- The granaries whose interface did not train, of the end of a start or of a reset (R322). -/
def untrainedOf : StartEnd → List HamletId
  | .ready _ untrained => untrained
  | .stopped _ _ => []

/-- Granaries that left self-refresh and whose interface did not train read FAULT (R322). -/
def untrainedFault (hs : List HamletId) : Prog := Prog.each hs (fun h => granFault h.val 1 0)

/-- The device's bring-up ends as `e` says; on the fast path the granaries leave self-refresh (R511). -/
def startEnds (fs : List Finding) (e : StartEnd) : Prog := .get (fun s =>
  let b := s.dev.boot
  if !s.deviceReset || !b.released then .done
  else
    match e with
    | .stopped code addr => Prog.when (decide (1 ≤ code.toNat) && decide (code.toNat ≤ 9) && !(code == 1 && b.trim == .own))
        (startStops code.toNat addr.toNat)
    | .ready fallback untrained =>
      if !b.loads.isEmpty || s.fld pgPower R.power_STATUS_SUPPLY_RST != 0 then .done
      else identified (
        if b.cold then coldEnds fs (startReady fallback)
        else .all [Prog.when b.full (fullEnds fs), startReady fallback, Prog.when (!b.full) (untrainedFault untrained)]))

/-- RESET_DONE: a grain finishes its bring-up and its pages read their reset values (R512); for the device, how its start ends. (DEDUCED,
assumption 63) -/
def execResetDone (g : GrainId) (fs : List Finding) (e : StartEnd) (s : State) : Host.Outcome State Fault Refusal :=
  Prog.next (.get (fun s =>
    match grainOf g with
    | none => .done
    | some .device => startEnds fs e
    | some g =>
      if !s.mayLeave g then .done
      else .all [
        resetOver g,
        (match g with
         | .croft c => .all [voltsSettle (c / 16), .get (fun s => Prog.when (decide (s.volts (c / 16) < vfOf (c / 16) (s.topMult (c / 16))))
             (setVolts (c / 16) (vfOf (c / 16) (s.topMult (c / 16)))))]
         | .hamlet h => .all [setVolts h (vfOf h 0x40), untrainedFault ((untrainedOf e).filter (fun x => x.val == h))]
         | _ => .done)])) s

/-! ### Runtime records and the sideband (R496, R515, R558) -/

/-- RUNTIME_RECORD_WRITE: the oldest runtime event not yet in the flash is written (R496). -/
def execRuntimeRecordWrite (s : State) : Host.Outcome State Fault Refusal :=
  Prog.next (.get (fun s =>
    match s.dev.boot.unwritten with
    | [] => .done
    | e :: rest => .all [modBoot (fun b => { b with unwritten := rest }), emit (.record e)])) s

/-- The responder answers once VDD_AUX and AUX_3V3 are valid (R515, R558). -/
def smbus (f : State → List Byte) : Prog := .get (fun s => Prog.when s.dev.boot.strap.isSome (emit (.smbus (f s))))

/-- SMB_BOOT: PHASE, FAST, FALLBACK and STOP, as BOOT holds them (R515). -/
def execSmbBoot (s : State) : Host.Outcome State Fault Refusal :=
  Prog.next (smbus (fun s => toLe 4 (s.reg pgDevctl R.devctl_BOOT_PHASE.off).toNat)) s

/-- SMB_RESET_CAUSE: LAST and FULL_PATH (R515). -/
def execSmbResetCause (s : State) : Host.Outcome State Fault Refusal :=
  Prog.next (smbus (fun s => toLe 4 (s.reg pgDevctl R.devctl_RESET_CAUSE_LAST.off).toNat)) s

/-- SMB_THERMTRIP: FIRED, SOURCE and INDEX (R515). -/
def execSmbThermtrip (s : State) : Host.Outcome State Fault Refusal :=
  Prog.next (smbus (fun s =>
    match s.dev.power.tripped with
    | some (stack, i) => toLe 4 (1 + (if stack then 2 else 0) + 4 * i)
    | none => toLe 4 0)) s

/-- SMB_SERIAL (R515). -/
def execSmbSerial (s : State) : Host.Outcome State Fault Refusal := Prog.next (smbus (fun _ => toLe 16 Config.serial.toNat)) s

/-- VDD_AUX_VALID: the address straps are sampled, once (R554, R558). -/
def execVddAuxValid (straps : BitVec 3) (s : State) : Host.Outcome State Fault Refusal :=
  Prog.next (modBoot (fun b => if b.strap.isSome then b else { b with strap := some straps, railEn := [] })) s

/-! ### Firmware update (R516) -/

/-- FW_UPDATE: a piece of the inactive bank; with LAST the whole bank is verified and becomes active (R516). (DEDUCED, assumption 92) -/
def execFwUpdate (s : State) : Host.Outcome State Fault Refusal :=
  Prog.next (serve opFwUpdate (fun r => .get (fun s =>
    let b := s.dev.boot
    let off := leNat (r.payload.take 4)
    let flags := leNat ((r.payload.drop 4).take 4)
    let data := r.payload.drop 8
    let bank := 1 - b.bank
    let stop := off + data.length
    if r.len < 8 ∨ 8 + 507 * 1024 < r.len ∨ 2 ≤ flags ∨ off ≠ b.next then respond rsMalformed []
    else if !s.enabledReeves.isEmpty then respond rsNotNow []
    else .all [
      modBoot (fun b => { b with
        next := stop
        flash := (List.zip (List.range data.length) data).foldl (fun m x => Sparse.set m (bank * 2 ^ 32 + off + x.1) x.2) b.flash }),
      if flags = 0 then respond rsDone []
      else .get (fun s =>
        if Config.bankOk (s.dev.boot.bankBytes bank 0 stop) then
          .all [modBoot (fun b => { b with bank := bank, next := 0, updated := true }), respond rsDone []]
        else .all [modBoot (fun b => { b with next := 0 }), respond rsMismatch []])]))) s

/-! ### The end of a power transition (R479 to R481) -/

/-- The device has woken from RETAIN: pages but Crier's at their reset values, wells with their spare maps and trims again (R82, R113, R480,
R493). -/
def wake : Prog := .all [
  modDev (fun d => { d with resets := [] }),
  modPower (fun p => { p with level := .on }),
  Prog.each (List.range 2048) rebuildWell,
  ready,
  settleAll]

/-- Whether the interface of a granary trains when its stack leaves self-refresh at a wake is a free value; one that does not train reads
FAULT (R322, R480). (DESIGN CHOICE, assumption 149) -/
def wakeTrains : Prog := Prog.each (List.range 8) (fun h => .get (fun s => .all [
  eff .seq, Prog.when (Config.openBit s.seq % 2 == 1) (granFault h 1 0)]))

/-- POWER_TRANSITION_DONE: the state is reached, counted and answered; a D3hot from ACTIVE goes on from IDLE (R479, R481). -/
def execPowerTransitionDone (s : State) : Host.Outcome State Fault Refusal :=
  Prog.next (.get (fun s =>
    match s.dev.power.target with
    | none => .done
    | some t =>
      if !s.transEnds t then .done
      else if s.dev.power.level == .retain then .all [
        wake,
        wakeTrains,
        modPower (fun p => { p with target := none }),
        setFld pgPower R.power_STATUS_TRANS 0,
        bump pgPower R.power_TRANS_CNT,
        takeLater 16]
      else if t = psRetain then
        if s.pstate = psActive then .all [setFld pgPower R.power_STATUS_PSTATE psIdle, bump pgPower R.power_TRANS_CNT]
        else .all [bump pgPower R.power_TRANS_CNT, retainEntry, takeLater 16]
      else .all [
        modPower (fun p => { p with target := none }),
        setFld pgPower R.power_STATUS_TRANS 0,
        setFld pgPower R.power_STATUS_PSTATE t,
        bump pgPower R.power_TRANS_CNT,
        Prog.when s.dev.power.asked (.all [modPower (fun p => { p with asked := false }), respond rsDone (toLe 4 t)]),
        takeLater 16])) s

end Sys2Proof.Machine
end

