-- ==== Sys2Proof/Machine/Check.lean ====
section
/-! DEFINITION. ENABLE and the consistency check of every page (R540 to R544), and the plan control page (R545 to R547). -/
namespace Sys2Proof.Machine

/-! ### Failing conditions (R541, R544)

A failing condition is a pair of its class and the offset of the lowest register of the page that takes part in it; 0x008 where it
concerns another page only. -/

abbrev Fails := List (Nat × Nat)

/-- One condition: it fails where `b` holds. -/
def failIf (b : Bool) (code off : Nat) : Fails := if b then [(code, off)] else []

/-- Offset named by a condition on another page only (R541). (DEDUCED, assumption 101) -/
def elsewhere : Nat := 0x008

/-- Place of a class in the order of R541. -/
def classRank (code : Nat) : Nat :=
  match code with
  | 2 => 0
  | 1 => 1
  | 4 => 2
  | 8 => 3
  | 5 => 4
  | 6 => 5
  | 7 => 6
  | 9 => 7
  | n => n + 8

/-- The condition REFUSAL reports: the first class that fails, at its lowest offset (R541). -/
def firstFail : Fails → Option (Nat × Nat)
  | [] => none
  | f :: fs =>
    match firstFail fs with
    | none => some f
    | some g =>
      if classRank f.1 < classRank g.1 ∨ (f.1 = g.1 ∧ f.2 ≤ g.2) then some f else some g

/-! ### Reserved bits (R5) -/

/-- Bits of a register that some field of its table covers. -/
def fieldMask (fs : List FieldSpec) : Nat := fs.foldl (fun m f => m ||| ((2 ^ f.width - 1) * 2 ^ f.lo)) 0

/-- Whether a register stores its reserved bits: it has an RW or RWL field (R5). -/
def stores (fs : List FieldSpec) : Bool := fs.any (fun f => f.acc == .rw || f.acc == .rwl)

/-- Reserved bits inside fields that the tables give whole: bit 3 of each use and owner code (R294), the two sources that do not exist
(R467), and slot entries 14 and 15 (R342). (DEDUCED, assumption 33) (DEDUCED, assumption 99) -/
def innerReserved (k : Kind) (o : Nat) : Nat :=
  match k with
  | .own =>
    if o < 0x100 then 0
    else if (o - 0x100) % 0xC0 < 8 ∨ 0x50 ≤ (o - 0x100) % 0xC0 then 0x88888888 else 0
  | .crier => if o = 0x100 ∨ o = 0x200 then 1 else if o = 0x1FC ∨ o = 0x2FC then 0x80000000 else 0
  | .sluice => if o = 0x4C then 0xFFFF0000 else 0
  | _ => 0

/-- Low bits of a base register that are to be zero and no field covers: a one there is a misalignment, not a reserved bit (R269, R345).
(DEDUCED, assumption 98) -/
def lowBits (k : Kind) (o : Nat) : Nat :=
  match k with
  | .reeve => if o = 0x40 then 0xFFF else 0
  | .qgroup => if 0x100 ≤ o ∧ (o % 0x40 = 4 ∨ o % 0x40 = 8) then 0x3F else 0
  | _ => 0

/-- The reserved bits of a register that are stored. -/
def reservedMask (k : Kind) (o : Nat) : Nat :=
  let fs := k.regFields o
  if stores fs then ((0xFFFFFFFF - fieldMask fs) &&& (0xFFFFFFFF - lowBits k o)) ||| innerReserved k o else 0

/-- Phases that the ownership page of croft `c` uses: blocks at or above NPHASE are ignored (R294). (DEDUCED, assumption 100) -/
def State.nphase (s : State) (c : Nat) : Nat := min 16 (s.fld (pgOwn c) R.own_CFG_NPHASE)

/-- Registers of the page whose stored reserved bits are not all zero (R5). A phase block at or above NPHASE is ignored by the ownership
check (R294), but not here: R5 refuses any stored reserved bit. (DEDUCED, assumption 100) -/
def State.reservedFails (s : State) (p : Page) : Fails :=
  (s.regs.filter (fun e => decide (p.base ≤ e.1) && decide (e.1 < p.base + 0x1000) &&
    (e.2.toNat &&& reservedMask p.kind (e.1 - p.base)) != 0)).map (fun e => (2, e.1 - p.base))

/-! ### Conditions of the pages of a croft -/

/-- R104, R139. -/
def State.wellFails (s : State) (p : Page) : Fails :=
  failIf (s.fld p R.well_LOADCFG_MAX_PASS == 0) 1 R.well_LOADCFG_MAX_PASS.off ++
  failIf (s.fld p R.well_DRAWCFG_SLICES == 0) 1 R.well_DRAWCFG_SLICES.off ++
  failIf (s.fld p R.well_RETCFG_LIMIT == 0 || decide (2000 < s.fld p R.well_RETCFG_LIMIT)) 1 R.well_RETCFG_LIMIT.off ++
  failIf (s.fld p R.well_CONFCFG_TOL_Q == 0 || s.fld p R.well_CONFCFG_TOL_R == 0) 1 R.well_CONFCFG_TOL_Q.off

/-- Whether a phase gives use D to a well while the pump of ESC_PUMP has no pump bit in it, and the offset of the first such use (R296). -/
def State.escRightFails (s : State) (c : Nat) : List Nat :=
  (List.range (s.nphase c)).flatMap (fun k =>
    let uses (i : Nat) : Nat := (s.reg (pgOwn c) (0x100 + 0xC0 * k + 4 * i)).toNat
    if s.fld (pgOwn c) (R.own_ENGINE_PUMP.plus (0xC0 * k)) / 2 ^ s.escPump c % 2 = 1 then []
    else ((List.range 2).filter (fun i => (uses i &&& 0x22222222) != 0)).map (fun i => 0x100 + 0xC0 * k + 4 * i))

/-- R143, and R296 where the ownership page is enabled. -/
def State.plumbFails (s : State) (p : Page) : Fails :=
  let f (x : Fld) : Nat := s.fld p x
  let cfg := R.plumb_PLUMBCFG_CAL_DT.off
  failIf (f R.plumb_PLUMBCFG_CAL_DT == 0 || f R.plumb_PLUMBCFG_CAL_INTERVAL == 0 ||
    decide (f R.plumb_PLUMBCFG_SOUND_INTERVAL < 0x0A)) 1 cfg ++
  failIf (decide (f R.plumb_OVERDUECFG_OVERDUE_DT ≤ f R.plumb_PLUMBCFG_CAL_DT) ||
    decide (f R.plumb_OVERDUECFG_OVERDUE_TIME ≤ f R.plumb_PLUMBCFG_CAL_INTERVAL) ||
    (s.enabled (pgOwn p.inst) && !(s.escRightFails p.inst).isEmpty)) 0x20 cfg

/-- Bytes of a chunk of a stream (R240). -/
def chunkBytes : Nat := 4096

/-- R269, R528. -/
def State.reeveFails (s : State) (p : Page) : Fails :=
  let base := s.fld p R.reeve_STREAM_BASE_BASE * 0x1000
  let len := s.fld p R.reeve_STREAM_CFG_LEN
  let entry := s.fld p R.reeve_ENTRY_INDEX
  let lim := s.fld p R.reeve_WDOG_LIMIT
  let a := sliceAddr p.inst base
  let planReq := s.enabled pgOrarn && s.bit pgOrarn R.orarn_CFG_PLAN_REQ
  let kept := s.dev.orarn.regions.any (fun r => decide (r.1 ≤ a) && decide (a + len * chunkBytes ≤ r.1 + r.2))
  failIf (!inSlice base (len * chunkBytes)) 1 R.reeve_STREAM_BASE_BASE.off ++
  failIf (len == 0 || decide (61440 < len) || decide (len * 256 ≤ entry)) 1 R.reeve_STREAM_CFG_LEN.off ++
  failIf (entry % 256 == 255) 1 R.reeve_ENTRY_INDEX.off ++
  failIf (lim == 0 || decide (800 < lim)) 1 R.reeve_WDOG_LIMIT.off ++
  failIf (((s.reg p R.reeve_STREAM_BASE_BASE.off).toNat &&& lowBits .reeve 0x40) != 0) 4 R.reeve_STREAM_BASE_BASE.off ++
  failIf (s.retiredCroft p.inst) 7 elsewhere ++
  failIf (planReq && !s.bit pgOrarn R.orarn_STATUS_PLAN_VALID) 0x61 elsewhere ++
  failIf (planReq && s.bit pgOrarn R.orarn_STATUS_PLAN_VALID && !kept) 0x61 R.reeve_STREAM_BASE_BASE.off

/-- The conditions of one phase block (R294, R296). -/
def State.phaseFails (s : State) (c k : Nat) : Fails :=
  let p := pgOwn c
  let b := 0xC0 * k
  let use (i : Nat) : Nat := (s.reg p (0x100 + b + 4 * i)).toNat
  let qown (g : Nat) : Nat := (s.reg p (0x150 + b + 4 * g)).toNat
  let eng := R.own_ENGINE_PUMP.off + b
  let pumps := s.fld p (R.own_ENGINE_PUMP.plus b)
  let epi := s.fld p (R.own_ENGINE_EPI_PUMP.plus b)
  ((List.range 16).flatMap (fun n => failIf (decide (8 < s.fld p (R.own_BANK_WRITER.plus (b + 4 * n)))) 1 (0x110 + b + 4 * n))) ++
  ((List.range 16).flatMap (fun g =>
    failIf ((List.range 8).any (fun j => decide (4 < bitsOf (qown g) (4 * j) 3))) 1 (0x150 + b + 4 * g) ++
    failIf ((List.range 8).any (fun j => bitsOf (qown g) (4 * j) 3 != 0 && s.retiredQueue (c * 128 + 8 * g + j))) 7 (0x150 + b + 4 * g))) ++
  ((List.range 2).flatMap (fun i =>
    failIf ((List.range 8).any (fun j => bitsOf (use i) (4 * j) 3 != 0 && s.retiredWell (c * 16 + 8 * i + j))) 7 (0x100 + b + 4 * i))) ++
  failIf ((List.range 4).any (fun q => pumps / 2 ^ q % 2 == 1 && s.retiredPump (c * 4 + q)) ||
    (s.bit p (R.own_ENGINE_MILL.plus b) && s.retiredCroft c)) 7 eng ++
  failIf (s.bit p (R.own_ENGINE_EPI_EN.plus b) && !(s.bit p (R.own_ENGINE_MILL.plus b) && pumps / 2 ^ epi % 2 == 1)) 0x21 eng

/-- R296. -/
def State.ownFails (s : State) (p : Page) : Fails :=
  let n := s.fld p R.own_CFG_NPHASE
  failIf (n == 0 || decide (16 < n)) 1 R.own_CFG_NPHASE.off ++
  ((List.range (s.nphase p.inst)).flatMap (fun k => s.phaseFails p.inst k)) ++
  (s.escRightFails p.inst).map (fun o => (0x20, o))

/-- R342. -/
def State.sluiceFails (s : State) (p : Page) : Fails :=
  (List.range 14).flatMap (fun i =>
    let o := R.sluice_SLOT_E0.off + 4 * (i / 4)
    let e := bitsOf (s.reg p o).toNat (8 * (i % 4)) 8
    failIf (decide (0x80 < e) && e != 0xFF) 1 o ++
    failIf (decide (e < 0x80) && s.retiredQueue (p.inst * 128 + e)) 7 o)

/-- The rings of a queue, as slice offset and size (R326). -/
def State.rings (s : State) (q : Nat) : List (Nat × Nat) :=
  [(s.qfld q R.qgroup_RING_BASE_BASE * 64, 64 * s.ringLen q), (s.qfld q R.qgroup_COMP_BASE_BASE * 64, 32 * s.ringLen q)]

/-- The conditions of one queue's block (R345). (DEDUCED, assumption 102) -/
def State.queueFails (s : State) (q : Nat) : Fails :=
  let p := pgQueue q
  let o := 0x100 + qblk q
  let n := s.qfld q R.qgroup_QCFG_RING_LOG
  let out := s.qfld q R.qgroup_QCFG_MAX_OUT
  let low (k : Nat) : Bool := ((s.reg p (o + k)).toNat &&& 0x3F) != 0
  let c := qCroft q
  let others := ((List.range 128).map (c * 128 + ·)).filter (fun r => r != q && (pgQueue r == p || s.enabled (pgQueue r)))
  let hits (r : Nat × Nat) : Bool := others.any (fun x => (s.rings x).any (overlaps r))
  failIf (decide (n < 4) || decide (16 < n) || out == 0 || decide (8 < out) ||
    decide (s.qfld q R.qgroup_QCFG_SEG_TIMEOUT < 10) || !(s.rings q).all (fun r => inSlice r.1 r.2)) 1 o ++
  failIf (low 4) 4 (o + 4) ++ failIf (low 8) 4 (o + 8) ++
  failIf ((s.rings q).any hits) 5 o ++
  failIf (s.retiredQueue q) 7 elsewhere

/-! ### Conditions of the fabric, granary and device pages -/

/-- R320. -/
def State.granFails (s : State) (p : Page) : Fails :=
  failIf (decide (2 ≤ s.fld p R.granary_CFG_RS_MODE) ||
    (s.bit p R.granary_CFG_SCRUB_EN && s.fld p R.granary_SCRUB_CFG_PERIOD == 0)) 1 R.granary_CFG_RS_MODE.off ++
  (List.range 15).flatMap (fun i =>
    let k := s.fld p (R.granary_SHARE_KIND.plus (4 * i))
    failIf (decide (4 < k)) 1 (R.granary_SHARE_KIND.off + 4 * i) ++
    failIf (k == 1 && s.retiredCroft (p.inst * 16 + s.fld p (R.granary_SHARE_CROFT.plus (4 * i)))) 7 (R.granary_SHARE_KIND.off + 4 * i))

/-- The valid transit entries: number, inbound and outbound link and share (R363). -/
def State.transits (s : State) : List (Nat × (Nat × Nat) × (Nat × Nat)) :=
  (List.range 64).filterMap (fun e => (s.transit e).map (fun t => (e, t.1, t.2)))

/-- Whether an outbound share of a link is taken on the fabric page, or is share 15 (R371). (DEDUCED, assumption 104) -/
def State.shareTaken (s : State) (link share : Nat) : Bool :=
  share == 15 || s.fld pgFabric (R.fabric_SHARE_KIND.plus (linkShareOff link share)) != 0

/-- The outbound link shares that transit and response entries name: a transit entry's outbound pair, and its inbound pair, on which
responses return (R363). -/
def State.namedShares (s : State) : List (Nat × Nat) :=
  s.transits.flatMap (fun t => [t.2.1, t.2.2]) ++
  (List.range 16).flatMap (fun q =>
    ((List.range 16).filter (fun x => s.portFld R.port_RESP_SHARES (4 * q) / 2 ^ x % 2 == 1)).map (fun x => (q, x)))

/-- Offsets on the port page of the transit and response entries that meet 0x52 (R371). -/
def State.transitFails (s : State) : List Nat :=
  let ts := s.transits
  ((ts.filter (fun t =>
    s.shareTaken t.2.1.1 t.2.1.2 || s.shareTaken t.2.2.1 t.2.2.2 || t.2.1.1 / 8 != t.2.2.1 / 8 ||
    ts.any (fun u => u.1 != t.1 && (u.2.1 == t.2.1 || u.2.2 == t.2.2)))).map (fun t => R.port_TRANSIT_VALID.off + 4 * t.1)) ++
  ((List.range 16).filter (fun q =>
    (List.range 16).any (fun x => s.portFld R.port_RESP_SHARES (4 * q) / 2 ^ x % 2 == 1 && s.shareTaken q x))).map
      (fun q => R.port_RESP_SHARES.off + 4 * q)

/-- R297, and the check of 0x52 where the port page is enabled (R371). -/
def State.fabricFails (s : State) (p : Page) : Fails :=
  let entries := (List.range 44).flatMap (fun r => (List.range 15).map (fun x => r * 0x40 + 4 * x))
  (entries.flatMap (fun o =>
    let k := s.fld p (R.fabric_SHARE_KIND.plus o)
    failIf (decide (3 < k)) 1 (R.fabric_SHARE_KIND.off + o) ++
    failIf ((k != 0 && decide (0x700 ≤ o) && s.retiredLink ((o - 0x700) / 0x40)) ||
      (k == 1 && s.retiredCroft (s.fld p (R.fabric_SHARE_CROFT.plus o)))) 7 (R.fabric_SHARE_KIND.off + o))) ++
  (if s.enabled pgPort then
    (s.namedShares.filter (fun x => x.2 != 15 && s.shareTaken x.1 x.2)).map (fun x => (0x52, R.fabric_SHARE_KIND.off + linkShareOff x.1 x.2))
  else [])

/-- Declared ports, and those of one kind (R364). -/
def State.ports (s : State) : List Nat := (List.range 16).filter (fun p => s.portFld R.port_PORT_LINKS_VALID (8 * p) == 1)
def State.portsOf (s : State) (sys : Bool) : List Nat := (List.range 16).filter (fun p => s.portValid p sys)

/-- Ports an arrangement takes (R364). -/
def arrangedPorts (code : Nat) : Nat := 2 * code

/-- The village indices that village ports and VROUTE entries declare, each with the offset of its declaration (R365, R366). -/
def State.declared (s : State) : List (Nat × Nat) :=
  (s.portsOf false).map (fun p => (s.portFld R.port_PORT_FAR_FAR_VIDX (8 * p), R.port_PORT_FAR_FAR_VIDX.off + 8 * p)) ++
  ((List.range 16).filter (fun v => s.portFld R.port_VROUTE_VALID (4 * v) == 1)).map (fun v => (v, R.port_VROUTE_PORT.off + 4 * v))

/-- Conditions of 0x54 (R365, R366, R371). -/
def State.villageFails (s : State) : List Nat :=
  let vps := s.portsOf false
  let far (p : Nat) : Nat := s.portFld R.port_PORT_FAR_FAR_VIDX (8 * p)
  let own := s.fld pgPort R.port_CFG_VIDX
  let dev (v : Nat) : Nat := s.portFld R.port_VDEV_DEV (4 * v)
  let has (v : Nat) : Bool := s.portFld R.port_VDEV_VALID (4 * v) == 1
  let routed (v : Nat) : Bool := s.portFld R.port_VROUTE_VALID (4 * v) == 1
  let farOff (p : Nat) : Nat := R.port_PORT_FAR_FAR_VIDX.off + 8 * p
  let named := own :: s.declared.map (·.1)
  (if vps.any (fun p => far p == own) || !has own || dev own != s.self then [R.port_CFG_VIDX.off] else []) ++
  ((vps.filter (fun p => vps.any (fun q => q != p && far q == far p) || routed (far p) ||
    !has (far p) || dev (far p) != s.portFld R.port_PORT_FAR_FAR_DEV (8 * p))).map farOff) ++
  (((List.range 16).filter (fun v => routed v && s.portValid (s.portFld R.port_VROUTE_PORT (4 * v)) true)).map
    (fun v => R.port_PORT_LINKS_SYSTEM.off + 8 * s.portFld R.port_VROUTE_PORT (4 * v))) ++
  (((List.range 16).filter (fun v => routed v && !has v)).map (fun v => R.port_VROUTE_PORT.off + 4 * v)) ++
  (((List.range 16).filter (fun v => named.contains v && has v &&
    (List.range 16).any (fun u => u != v && named.contains u && has u && dev u == dev v))).map (fun v => R.port_VDEV_DEV.off + 4 * v))

/-- Whether link `l` is up towards the far device its port names; FAR_VIDX is that of a village port (R370, R371). (DEDUCED, assumption 103) -/
def State.linkMeets (s : State) (l p : Nat) : Bool :=
  s.linkUp l && s.fld (pgLink l) R.link_FAR_ID_FAR_DEV == s.portFld R.port_PORT_FAR_FAR_DEV (8 * p) &&
  (s.portValid p true || s.fld (pgLink l) R.link_FAR_ID_FAR_VIDX == s.portFld R.port_PORT_FAR_FAR_VIDX (8 * p))

/-- R371. -/
def State.portFails (s : State) (p : Page) : Fails :=
  let links (q : Nat) : List Nat := s.portLinks q
  let linkOff (q : Nat) : Nat := R.port_PORT_LINKS_LINKS.off + 8 * q
  let vt := s.fld p R.port_CFG_VTOPO
  let st := s.fld p R.port_CFG_STOPO
  failIf (decide (4 < vt) || decide (4 < st)) 1 R.port_CFG_VTOPO.off ++
  s.ports.flatMap (fun q =>
    failIf (!(links q).all (fun l => s.linkMeets l q)) 0x51 (linkOff q) ++
    failIf (!([1, 2, 4, 8] : List Nat).contains (links q).length || s.ports.any (fun r => r != q && (links r).any (links q).contains)) 0x53 (linkOff q) ++
    failIf ((links q).any s.retiredLink) 7 (linkOff q)) ++
  s.transitFails.map (fun o => (0x52, o)) ++
  failIf ((s.portsOf false).length != arrangedPorts vt || (s.portsOf true).length != arrangedPorts st) 0x53 R.port_CFG_VTOPO.off ++
  s.villageFails.map (fun o => (0x54, o)) ++
  s.transits.flatMap (fun t => failIf (s.retiredLink t.2.1.1 || s.retiredLink t.2.2.1) 7 (R.port_TRANSIT_VALID.off + 4 * t.1))

/-- R236, R211. -/
def State.numFails (s : State) (p : Page) : Fails :=
  let f (x : Fld) : Nat := s.fld p x
  let policies := ((List.range 512).filter (fun g => s.enabled (pgPump g))).map (fun g => s.fld (pgPump g) R.pump_PUMPCFG_OVF_POLICY) ++
    (allCrofts.filter (fun c => s.enabled (pgMill c))).map (fun c => s.fld (pgMill c) R.mill_MILLCFG_OVF_POLICY)
  failIf (s.dev.entries.any (fun e => decide (7 < e.2.cfg))) 2 R.numstep_ENTRY_CFG_KIND.off ++
  failIf (f R.numstep_CFG_FALLBACK_LIMIT == 0 || f R.numstep_CFG_DIV_LIMIT == 0 || decide (20 < f R.numstep_CFG_DIV_LIMIT)) 1
    R.numstep_CFG_DIV_LIMIT.off ++
  failIf ([R.numstep_JUMPCFG_J_W, R.numstep_JUMPCFG_J_G, R.numstep_JUMPCFG_J_U, R.numstep_JUMPCFG_J_A, R.numstep_JUMPCFG_EWMA].any
    (fun x => f x == 0)) 1 R.numstep_JUMPCFG_J_W.off ++
  failIf (decide (65536 < f R.numstep_RECLIST_LEN_LEN)) 1 R.numstep_RECLIST_LEN_LEN.off ++
  failIf (f R.numstep_RECLIST_LO_ADDR_LO % 8 != 0) 4 R.numstep_RECLIST_LO_ADDR_LO.off ++
  failIf (policies.contains 0 && policies.contains 1) 0x20 elsewhere

/-- Whether a link belongs to a declared port (R364). -/
def State.linkDeclared (s : State) (l : Nat) : Bool := s.ports.any (fun p => (s.portLinks p).contains l)

/-- R406. (DEDUCED, assumption 52) -/
def State.bellFails (s : State) (p : Page) : Fails :=
  let f (x : Fld) : Nat := s.fld p x
  let parent := f R.bell_CFG_PARENT_LINK
  let alt := f R.bell_CFG_ALT_LINK
  let root := f R.bell_CFG_ROLE == 1
  failIf (f R.bell_CFG_PERIOD == 0) 1 R.bell_CFG_PERIOD.off ++
  failIf (f R.bell_OUTCFG_PPS_WIDTH == 0 || decide (200 < f R.bell_OUTCFG_PPS_WIDTH)) 1 R.bell_OUTCFG_PPS_WIDTH.off ++
  failIf (s.retiredLink parent || s.retiredLink alt) 7 R.bell_CFG_ROLE.off ++
  failIf (!root && (!s.linkDeclared parent || (f R.bell_CFG_ALT_EN == 1 && !s.linkDeclared alt) || alt == parent)) 0x20 R.bell_CFG_ROLE.off ++
  failIf (root != (f R.bell_CFG_DEPTH == 0)) 0x21 R.bell_CFG_ROLE.off

/-- R433. -/
def State.watchFails (s : State) (p : Page) : Fails :=
  failIf (s.fld p R.watch_CFG_MIN_GAP == 0) 1 R.watch_CFG_MIN_GAP.off ++
  (List.range 16).flatMap (fun i =>
    failIf (decide (8 < s.fld p (R.watch_INPUT_CFG_PRESCALE.plus (8 * i)))) 1 (R.watch_INPUT_CFG_PRESCALE.off + 8 * i))

/-- R494, and the codes it reserves (R544). (DEDUCED, assumption 105) -/
def State.gaugeFails (s : State) (p : Page) : Fails :=
  let bad (ch : Nat) : Bool := decide (0x60 ≤ ch) && decide (ch ≤ 0x7E)
  failIf (s.fld p R.gauge_CFG_TOL == 0) 1 R.gauge_CFG_TOL.off ++
  (List.range 4).flatMap (fun q =>
    let start := s.seqStart q
    failIf (decide (32 < s.seqLen q) || start == 3 || (start == 1 && s.fld p (R.gauge_SEQ_CFG_PERIOD.plus (4 * q)) == 0)) 1
      (R.gauge_SEQ_CFG_LEN.off + 4 * q) ++
    (List.range 32).flatMap (fun i =>
      let k := 0x80 * q + 4 * i
      failIf (bad (s.fld p (R.gauge_ENTRY_CH_A.plus k)) || bad (s.fld p (R.gauge_ENTRY_CH_B.plus k))) 1 (R.gauge_ENTRY_CH_A.off + k))) ++
  (List.range 8).flatMap (fun w =>
    failIf (decide (s.fld p (R.gauge_COMP_LAST.plus (8 * w)) < s.fld p (R.gauge_COMP_FIRST.plus (8 * w))) ||
      s.fld p (R.gauge_COMP_ACT.plus (8 * w)) == 3) 1 (R.gauge_COMP_FIRST.off + 8 * w) ++
    failIf (decide (s.fld p (R.gauge_WIN_HIGH.plus (8 * w)) < s.fld p (R.gauge_WIN_LOW.plus (8 * w)))) 1 (R.gauge_WIN_LOW.off + 8 * w))

/-- R462; the routes are shown one at a time in ROUTE_DATA. -/
def State.crierFails (s : State) : Fails :=
  let o := R.crier_ROUTE_DATA_TKIND.off
  s.dev.crier.routes.flatMap (fun r =>
    let v := r.2.toNat
    failIf (decide (0x1000 ≤ v)) 2 o ++
    failIf (bitsOf v 0 2 == 3 && decide (63 < bitsOf v 2 7)) 1 o ++
    failIf (bitsOf v 0 2 == 1 && s.retiredCroft (bitsOf v 2 7)) 7 o)

/-- R547. -/
def State.planFails (s : State) : Fails :=
  failIf s.enabledReeves.isEmpty 0x20 elsewhere ++
  failIf (s.enabledReeves.any (fun c => !s.enabled (pgOwn c))) 0x21 elsewhere ++
  failIf (!s.enabled pgNum) 0x22 elsewhere

/-! ### Bucket (R416) -/

/-- Regions of the set as base address and bytes (R412). -/
def State.setRegions (s : State) : List (Nat × Nat) :=
  let base := s.fld pgBucket R.bucket_SET_BASE * pailSize
  (List.range (s.fld pgBucket R.bucket_SET_LEN)).map (fun i =>
    let v := s.le (base + 8 * i) 8
    (bitsOf v 16 23 * pailSize, bitsOf v 40 24 * pailSize))

/-- The regions the page declares, each with the offset of its register. -/
def State.bucketRegions (s : State) : List (Nat × (Nat × Nat)) :=
  s.setRegions.map (fun r => (R.bucket_SET_BASE.off, r)) ++
  [(R.bucket_STATE_BASE_BASE.off, (s.fld pgBucket R.bucket_STATE_BASE_BASE * pailSize, 256 * pailSize)),
   (R.bucket_LARDER_BASE_BASE.off, s.larder), (R.bucket_CELLAR_BASE_BASE.off, s.cellar)]

/-- Offsets of the regions that overlap one after them in the list. -/
def overlapFails : List (Nat × (Nat × Nat)) → List Nat
  | [] => []
  | x :: xs => (if xs.any (fun y => overlaps x.2 y.2) then [x.1] else []) ++ overlapFails xs

/-- R416, given the answers of partner and ward. (DEDUCED, assumption 55) -/
def State.bucketFails (s : State) (partner ward : Option Peer) : Fails :=
  let f (x : Fld) : Nat := s.fld pgBucket x
  let pails := (s.setRegions.map (fun r => r.2 / pailSize)).sum
  let need := 1 + 2 * (pails + 256)
  let pp := f R.bucket_CFG_PARTNER_PORT
  let wp := f R.bucket_CFG_WARD_PORT
  let feed := if s.enabled pgFeed then s.fld pgFeed R.feed_FEED_FEED else 0
  let cfg := R.bucket_CFG_PARTNER_PORT.off
  failIf (f R.bucket_CFG_MAX_INTERVAL == 0) 1 cfg ++
  failIf (f R.bucket_SET_LEN == 0 || decide (64 < f R.bucket_SET_LEN) || decide (524288 < pails)) 1 R.bucket_SET_LEN.off ++
  (overlapFails s.bucketRegions).map (fun o => (5, o)) ++
  failIf ((s.portLinks pp ++ s.portLinks wp).any s.retiredLink) 7 cfg ++
  failIf (decide (f R.bucket_LARDER_LEN_PAILS < need)) 0x43 R.bucket_SET_LEN.off ++
  failIf (!(s.ports.contains pp && s.ports.contains wp) || partner.isNone || ward.isNone) 0x44 cfg ++
  (match partner with
   | some a =>
     failIf (a.feed.toNat == feed) 0x41 elsewhere ++
     failIf (decide (a.cellarLen.toNat < need)) 0x42 R.bucket_SET_LEN.off ++
     failIf (a.wardDev.toNat != s.self) 0x45 elsewhere
   | none => []) ++
  (match ward with
   | some a =>
     failIf (decide (f R.bucket_CELLAR_LEN_PAILS < 1 + 2 * a.pails)) 0x43 R.bucket_CELLAR_LEN_PAILS.off ++
     failIf (a.partnerDev.toNat != s.self) 0x45 elsewhere
   | none => [])

/-- What OWN and WARD read of a header: its boundary if committed, all ones otherwise (R416, R435). -/
def committedStep (b : Bool) (h : SlotHeader) : Word := if b && h.state == 2 then BitVec.ofNat 32 h.step else 0xFFFFFFFF#32

/-- The Bucket page is accepted: the peers, the slots' boundaries and P are set (R416, R435). -/
def bucketEnabled (partner ward : Option Peer) : Prog := .get (fun s =>
  let own (i : Nat) : SlotHeader := s.header (s.larder.1 + 0x40 * i)
  let cellar (i : Nat) : SlotHeader := s.header (s.cellar.1 + 0x40 * i)
  let far (f : Fld) : Nat := s.portFld R.port_PORT_FAR_FAR_DEV (8 * s.fld pgBucket f)
  let agrees (i : Nat) : Bool :=
    match partner with
    | some p => match p.headers[i]? with
      | some h => h.state == 2 && h.step == (own i).step && h.digest == (own i).digest
      | none => false
    | none => false
  .all [
    Prog.each [0, 1] (fun i => .all [
      setReg pgBucket (R.bucket_WARD_A.off + 4 * i) (committedStep true (cellar i)),
      setReg pgBucket (R.bucket_OWN_A.off + 4 * i) (committedStep (agrees i) (own i))]),
    setFld pgBucket R.bucket_PEERS_PARTNER_DEV (far R.bucket_CFG_PARTNER_PORT),
    setFld pgBucket R.bucket_PEERS_WARD_DEV (far R.bucket_CFG_WARD_PORT),
    setFld pgBucket R.bucket_STATUS_PARTNER_FEED (match partner with | some p => p.feed.toNat | none => 0),
    setFld pgBucket R.bucket_SET_PAILS_P s.slotPails.length,
    modDev (fun d => { d with partner := partner, ward := ward })])

/-! ### The check (R540) -/

/-- Every condition of page `p` that fails now; of a page with none but reserved bits, those. (DEDUCED, assumption 106) -/
def State.fails (s : State) (p : Page) (partner ward : Option Peer) : Fails :=
  s.reservedFails p ++
  (match p.kind with
   | .plan => s.planFails
   | .devctl => []
   | .host => failIf (!s.fullRate) 0x20 R.host_LINK_RATE.off
   | .crier => s.crierFails
   | .orarn => []
   | .power => failIf (decide (s.fld p R.power_CFG_CAP < 150) || decide (440 < s.fld p R.power_CFG_CAP)) 1 R.power_CFG_CAP.off
   | .gauge => s.gaugeFails p
   | .numstep => s.numFails p
   | .fabric => s.fabricFails p
   | .port => s.portFails p
   | .bell => s.bellFails p
   | .window => []
   | .ledger => failIf (s.ledgerKey p.inst == 0) 1 R.ledger_KEY.off
   | .watch => s.watchFails p
   | .bucket => s.bucketFails partner ward
   | .link => []
   | .feed => failIf (s.fld p R.feed_FEED_FEED == 0) 1 R.feed_FEED_FEED.off
   | .defect => []
   | .hamlet => []
   | .granary => s.granFails p
   | .croft => []
   | .reeve => s.reeveFails p
   | .mill => []
   | .sluice => s.sluiceFails p
   | .plumb => s.plumbFails p
   | .tally => []
   | .pump => []
   | .own => s.ownFails p
   | .cistern => []
   | .well => s.wellFails p
   | .qgroup => (List.range 8).flatMap (fun j => s.queueFails (p.inst * 8 + j)))

/-- What an accepted enable of page `p` does beside (R256, R225, R236, R277, R320, R391, R401, R416, R458). -/
def accepted (p : Page) (partner ward : Option Peer) : Prog :=
  match p.kind with
  | .own => setFld p R.own_STATUS_PHASE 0
  | .reeve => modReeve p.inst (fun r => { r with tokens := [], chunks := [] })
  | .numstep => .all [
      setReg p R.numstep_STEP_INDEX.off 0,
      setFld p R.numstep_GROUP_STATUS_PENDING 0,
      modDev (fun d => { d with groups := [] })]
  | .ledger => ledgerClear p.inst
  | .bell => bellEnabled
  | .bucket => bucketEnabled partner ward
  | .granary => setFld p R.granary_STATUS_TRAINED 1
  | .crier => settleAll
  | _ => .done

/-- The page reads ENABLED (R540). -/
def nowEnabled (p : Page) : Prog := .all [setFld p R.STATE_STATE stEnabled, setReg p R.REFUSAL_REASON.off 0]

/-- The page reads REFUSED with a reason and an offset, and ENABLE returns to 0 (R540, R541). -/
def nowRefused (p : Page) (code off : Nat) : Prog := .all [
  setFld p R.CTL_ENABLE 0, setFld p R.STATE_STATE stRefused,
  setReg p R.REFUSAL_REASON.off (BitVec.ofNat 32 (code + off * 2 ^ 16))]

/-- Full training of a link begins once its check holds (R373); a link that is down waits for a retrain by command (R356). (DEDUCED,
assumption 46) -/
def trainLink (p : Page) : Prog := .get (fun s =>
  Prog.when (s.linkState p.inst != 1 && !s.linkDowned p.inst && (s.fails p none none).isEmpty) (setLinkState p.inst 1))

/-- Whether the page reads FAULT until a reset of its croft, whatever is written to ENABLE: a cistern page, and a reeve page after its
watchdog (R267, R316). (DEDUCED, assumption 108) -/
def State.stuck (s : State) (p : Page) : Bool :=
  s.fld p R.STATE_STATE == stFault && (p.kind == .cistern || (p.kind == .reeve && (s.reeve p.inst).dead))

/-- ENABLE is written with 1 (R540); a link's training starts (R373). (DEDUCED, assumption 96) -/
def setEnable (p : Page) : Prog := .get (fun s =>
  if s.bit p R.CTL_ENABLE || s.stuck p then ignored p
  else .all [
    setFld p R.CTL_ENABLE 1, setFld p R.STATE_STATE stBusy,
    modDev (fun d => { d with checks := d.checks.filter (· != p.base) ++ [p.base] }),
    Prog.when (p.kind == .link) (trainLink p)])

/-- The page's check ends: refused with its first failing condition, or accepted. A granary whose training failed reads FAULT instead
(R322); a link waits on until it is up (R373). (DEDUCED, assumption 97) -/
def checkEnds (p : Page) (ok : Bool) (partner ward : Option Peer) : Prog := .get (fun s =>
  match firstFail (s.fails p partner ward) with
  | some f => .all [nowRefused p f.1 f.2, Prog.when (p.kind == .link) (setLinkState p.inst 0)]
  | none =>
    if p.kind == .link then trainLink p
    else if p.kind == .granary && !ok then granFault p.inst 1 0
    else .all [nowEnabled p, accepted p partner ward])

/-! ### Clearing ENABLE (R542) -/

/-- Whether an incomplete order of the croft satisfies `f`. -/
def State.hasOrder (s : State) (c : Nat) (f : Issued → Bool) : Bool := (s.reeve c).orders.any f

/-- Whether a queue is active (R345). -/
def State.queueActive (s : State) (q : Nat) : Bool := (s.queue q).state == 1

/-- Whether the page's block is idle (R542). -/
def State.idle (s : State) (p : Page) : Bool :=
  match p.kind with
  | .well => !s.hasOrder (p.inst / 16) (fun o => o.unit == 0 && (s.orderWells (p.inst / 16) o).contains (p.inst % 16))
  | .pump => !s.hasOrder (p.inst / 4) (fun o => o.unit == 1 + p.inst % 4)
  | .mill => !s.hasOrder p.inst (fun o => o.unit == 5)
  | .plumb => !s.hasOrder p.inst (fun o => o.engine == 7)
  | .reeve => !s.running p.inst
  | .sluice => !(List.range 128).any (fun j => s.queueActive (p.inst * 128 + j))
  | .qgroup => !(List.range 8).any (fun j => s.queueActive (p.inst * 8 + j))
  | .plan => !s.anyRunning
  | .feed => !s.enabled pgBucket
  | _ => true

/-- Whether a rule keeps the page's ENABLE set: the port page's while a reeve page is enabled (R364), Orarn's always (R532). -/
def State.keepsEnable (s : State) (p : Page) : Bool :=
  s.bit p R.CTL_ENABLE && (match p.kind with
    | .port => !s.enabledReeves.isEmpty
    | .orarn => true
    | _ => false)

/-- Clearing ENABLE on the plan page ends the repeat state of R218 and R219 (R547). (DEDUCED, assumption 107) -/
def planDisabled : Prog := .get (fun s => .all [
  setFld pgNum R.numstep_STATUS_REPEATING 0, setFld pgNum R.numstep_STATUS_ABANDONING 0, setFld pgNum R.numstep_STATUS_HALTED 0,
  modDev (fun d => { d with haltedDevs := [] }),
  setFld pgPlan R.plan_STATUS_STOP_PENDING 0,
  Prog.when (s.fld pgNum R.STATE_STATE == stFault && ((s.reg pgNum R.FAULT_CAUSE.off).toNat == 1 || (s.reg pgNum R.FAULT_CAUSE.off).toNat == 2))
    (setFld pgNum R.STATE_STATE stEnabled)])

/-- A link whose page is disabled is off, unless it is down: what it held is lost, its counters stand. (DESIGN CHOICE, assumption 140) -/
def linkDisabled (l : Nat) : Prog := .get (fun s =>
  Prog.when (!s.linkDowned l) (.all [
    setLinkState l 0,
    modLink l (fun k => { (({} : Link)) with laneErr := k.laneErr, txCount := k.txCount, rxCount := k.rxCount }),
    bellLinkDown l]))

/-- What clearing ENABLE of page `p` does beside: the plan's repeat state ends, a disabled reeve is waited for no longer (R255), a
follower's Bell is FREE (R401), Crier serves no target (R458), and a link is off. (DEDUCED, assumption 47) -/
def disabled (p : Page) : Prog :=
  match p.kind with
  | .plan => planDisabled
  | .reeve => .all [modReeve p.inst (fun r => { r with chunks := [] }), tryBoundary]
  | .bell => bellDisabled
  | .crier => settleAll
  | .link => linkDisabled p.inst
  | _ => .done

/-- ENABLE is written with 0 (R540, R542). (DEDUCED, assumption 108) -/
def clearEnable (p : Page) : Prog := .get (fun s =>
  if s.fld p R.STATE_STATE == stBusy || s.keepsEnable p then ignored p
  else if s.idle p then .all [setFld p R.CTL_ENABLE 0, Prog.when (!s.stuck p) (setFld p R.STATE_STATE stDisabled), disabled p]
  else .all [ignored p, setReg p R.REFUSAL_REASON.off (BitVec.ofNat 32 (3 + 0x008 * 2 ^ 16))])

/-! ### The rows -/

/-- The page an operand names, by BAR0 offset / 0x1000. -/
def pageOf (pg : BitVec 16) : Option Page := pageAt (pg.toNat * 0x1000)

/-- An access to CTL of the page an operand names; one that names no page is a write to a hole (R536). -/
def onPage (who : Agent) (pg : BitVec 16) (f : Page → Prog) : Prog :=
  match pageOf pg with
  | some p => regWrite who p R.CTL_ENABLE.off (f p)
  | none => holeWrite who (pg.toNat * 0x1000 + R.CTL_ENABLE.off)

/-- ENABLE_SET: a write of 1 to CTL.ENABLE (R540). -/
def execEnableSet (who : Agent) (pg : BitVec 16) (s : State) : Host.Outcome State Fault Refusal :=
  Prog.next (onPage who pg setEnable) s

/-- The page whose check runs: the first in order of arrival that still reads BUSY; a reset abandons a check (R540, R543). (DEDUCED,
assumption 141) -/
def State.checking (s : State) : Option Page :=
  (s.dev.checks.filterMap pageAt).find? (fun p => s.fld p R.STATE_STATE == stBusy && !s.underReset p)

/-- ENABLE_CHECK_DONE: the check that runs ends, if it is this page's (R540, R541). A link's training, which may follow its check, holds
up no other check. (DEDUCED, assumption 141) -/
def execEnableCheckDone (pg : BitVec 16) (ok : Bool) (partner ward : Option Peer) (s : State) : Host.Outcome State Fault Refusal :=
  Prog.next (.get (fun s =>
    match pageOf pg with
    | some p => Prog.when (s.checking == some p) (.all [
        modDev (fun d => { d with checks := d.checks.filter (· != p.base) }),
        checkEnds p ok partner ward])
    | none => .done)) s

/-- ENABLE_CLEAR: a write of 0 to CTL.ENABLE (R542). -/
def execEnableClear (who : Agent) (pg : BitVec 16) (s : State) : Host.Outcome State Fault Refusal :=
  Prog.next (onPage who pg clearEnable) s

/-! ### The plan control page (R546) -/

/-- The index a start begins at in croft `c`: `REEVE.ENTRY`, or RESTORE_ENTRY. -/
def State.startIndex (s : State) (restore : Bool) (c : Nat) : Nat :=
  if restore then s.fld pgPlan R.plan_CFG_RESTORE_ENTRY else s.fld (pgReeve c) R.reeve_ENTRY_INDEX

/-- START_ERR of a start now, 0 where it is carried out (R546). (DEDUCED, assumption 111) -/
def State.startErr (s : State) (restore : Bool) : Nat :=
  let at' := s.fld pgPlan R.plan_CFG_RESTORE_ENTRY
  if !s.bit pgPlan R.CTL_ENABLE then 1
  else if s.pstate != psActive then 2
  else if s.enabledReeves.any s.running then 3
  else if restore && (at' % 256 == 255 || s.enabledReeves.any (fun c => decide (s.fld (pgReeve c) R.reeve_STREAM_CFG_LEN * 256 ≤ at'))) then 4
  else if s.enabledReeves.any s.croftFault then 5
  else 0

/-- A start: every enabled reeve restarts as OP 3 would, whether or not it has run; a boundary passed before belongs to no step of the new
run (R426, R546). (DEDUCED, assumption 112) -/
def planStart (restore : Bool) : Prog := .get (fun s =>
  if s.startErr restore != 0 then .all [setFld pgPlan R.plan_STATUS_START_ERR (s.startErr restore), ignored pgPlan]
  else .all [
    Prog.each s.enabledReeves (fun c => .all [
      cleanRestartAt c (s.startIndex restore c),
      latchBell (pgReeve c) R.reeve_STEP_BELL_LO R.reeve_STEP_BELL_HI]),
    modDev (fun d => { d with boundary := false, stopHere := false }),
    setFld pgPlan R.plan_STATUS_START_ERR 0,
    setFld pgPlan R.plan_STATUS_STOP_PENDING 0,
    bump pgPlan R.plan_PLAN_START_CNT])

/-- PLAN_START: plan control CMD OP 1 (R546). -/
def execPlanStart (who : Agent) (restore : Bool) (s : State) : Host.Outcome State Fault Refusal :=
  Prog.next (regWrite who pgPlan R.plan_CMD_OP.off (planStart restore)) s

/-- A stop: from now on a boundary passed halts every reeve (R546). -/
def planStop : Prog := .get (fun s =>
  if s.enabledReeves.any s.running then setFld pgPlan R.plan_STATUS_STOP_PENDING 1 else ignored pgPlan)

/-- STOP_AT_STEP_BOUNDARY: plan control CMD OP 2 (R546). -/
def execStopAtStepBoundary (who : Agent) (s : State) : Host.Outcome State Fault Refusal :=
  Prog.next (regWrite who pgPlan R.plan_CMD_OP.off planStop) s

/-- A halt now: OP 2 of every enabled reeve (R546, R265). -/
def planHalt : Prog := .get (fun s => Prog.each s.enabledReeves (fun c => haltReq c 7))

/-- HALT_NOW: plan control CMD OP 3 (R546). -/
def execHaltNow (who : Agent) (s : State) : Host.Outcome State Fault Refusal :=
  Prog.next (regWrite who pgPlan R.plan_CMD_OP.off planHalt) s

end Sys2Proof.Machine
end

