-- ==== Sys2Proof/Machine/Registers.lean ====
section
/-! DEFINITION. Register accesses without a row of their own: what a write stores, clears, triggers or leaves (R3 to R5, R536 to R538), the
counter clears (R65 and its copies), read-to-clear fields, and writes of the BAR4 mailbox and MSI-X table (R446, R448). -/
namespace Sys2Proof.Machine

/-! ### Access codes (R3 to R5) -/

/-- Bits of the fields of one access code. -/
def accMask (fs : List FieldSpec) (a : Acc) : Nat := fieldMask (fs.filter (fun f => f.acc == a))

/-- The bits a write stores: RW fields, RWL fields while ENABLE is 0, and with them the reserved bits (R3, R5). -/
def storedMask (fs : List FieldSpec) (locked : Bool) : Nat :=
  let m := accMask fs .rw ||| (if locked then 0 else accMask fs .rwl)
  if m = 0 then 0 else m ||| (0xFFFFFFFF - fieldMask fs)

/-- The word a write of `v` leaves of `old`: stored bits replaced, W1C bits written with 1 cleared (R3). -/
def writtenWord (fs : List FieldSpec) (locked : Bool) (old v : Nat) : Nat :=
  let m := storedMask fs locked
  ((old &&& (0xFFFFFFFF - m)) ||| (v &&& m)) &&& (0xFFFFFFFF - (v &&& accMask fs .w1c))

/-- Whether a write of `v` has an effect on a register without WO fields: it stores, or writes 1 to a W1C bit (R3, R4). -/
def writeActs (fs : List FieldSpec) (locked : Bool) (v : Nat) : Bool :=
  storedMask fs locked != 0 || (v &&& accMask fs .w1c) != 0

/-- A write to a register that only stores and clears; a reserved offset has no fields (R4, R536). -/
def plainWrite (p : Page) (o v : Nat) : Prog := .get (fun s =>
  let fs := p.kind.regFields o
  let locked := s.bit p R.CTL_ENABLE
  if writeActs fs locked v then setReg p o (BitVec.ofNat 32 (writtenWord fs locked (s.reg p o).toNat v)) else ignored p)

/-! ### Counter clears -/

/-- The counters a CNT_CLEAR register clears: the offset of the first, and their number (R65, R107, R141, R144, R179, R205, R237, R238, R270,
R295, R297, R319, R321, R343, R372, R374, R394, R407, R434, R436, R453, R468, R485, R495, R519, R533, R545). -/
def clearsOf (k : Kind) (o : Nat) : Option (Nat × Nat) :=
  match k, o with
  | .croft, 0x12C => some (0x110, 7)
  | .well, 0x0FC => some (0x0C0, 13)
  | .well, 0x27C => some (0x240, 11)
  | .plumb, 0x09C => some (0x080, 3)
  | .pump, 0x0BC => some (0x080, 12)
  | .mill, 0x0BC => some (0x080, 13)
  | .numstep, 0x0BC => some (0x080, 6)
  | .tally, 0x09C => some (0x080, 3)
  | .reeve, 0x0BC => some (0x080, 11)
  | .own, 0x09C => some (0x080, 4)
  | .fabric, 0x09C => some (0x080, 1)
  | .cistern, 0x0BC => some (0x080, 8)
  | .granary, 0x0BC => some (0x080, 8)
  | .sluice, 0x0BC => some (0x080, 10)
  | .port, 0x09C => some (0x080, 5)
  | .link, 0x0BC => some (0x080, 10)
  | .ledger, 0x09C => some (0x080, 2)
  | .bell, 0x09C => some (0x080, 6)
  | .watch, 0x09C => some (0x080, 6)
  | .bucket, 0x0BC => some (0x080, 10)
  | .host, 0x0BC => some (0x080, 8)
  | .crier, 0x09C => some (0x080, 4)
  | .power, 0x0BC => some (0x080, 8)
  | .gauge, 0x09C => some (0x080, 5)
  | .devctl, 0x09C => some (0x080, 6)
  | .orarn, 0x09C => some (0x080, 4)
  | .plan, 0x09C => some (0x080, 3)
  | _, _ => none

/-- Offsets of the counters that a write of `v` clears. -/
def clearedBy (first n v : Nat) : List Nat := ((List.range n).filter (fun i => v / 2 ^ i % 2 == 1)).map (fun i => first + 4 * i)

/-- A write of `v` to a CNT_CLEAR register: each bit clears its counter; one that selects none has no effect (R4, R65). -/
def clearCounters (p : Page) (first n v : Nat) : Prog :=
  if (clearedBy first n v).isEmpty then ignored p
  else Prog.each (clearedBy first n v) (fun o => setReg p o 0)

/-! ### Registers with an action of their own -/

/-- A write to CTL: RESET_REQ before ENABLE; reserved bits are stored with ENABLE (R5, R540, R542, R543). -/
def writeCtl (p : Page) (v : Nat) : Prog := .get (fun s =>
  let o := R.CTL_ENABLE.off
  let keep : Prog := setReg p o ((s.reg p o &&& 3#32) ||| (BitVec.ofNat 32 v &&& ~~~3#32))
  if v / 2 % 2 = 1 then resetRequest p
  else if v % 2 = 1 then Prog.seq (Prog.when (!s.bit p R.CTL_ENABLE) keep) (setEnable p)
  else Prog.seq (Prog.when (s.fld p R.STATE_STATE != stBusy && !s.keepsEnable p && s.idle p) keep) (clearEnable p))

/-- A write to CRIER_LINE: a SOURCE outside 0 and 2 to 2,030 has no effect (R455). -/
def writeLine (p : Page) (v : Nat) : Prog :=
  if v % 2048 = 1 ∨ 2030 < v % 2048 then ignored p else plainWrite p R.CRIER_LINE_SOURCE.off v

/-- A write to the plan page's CMD (R545, R546). -/
def writePlanCmd (v : Nat) : Prog :=
  match v % 4 with
  | 1 => planStart (v / 4 % 2 = 1)
  | 2 => planStop
  | 3 => planHalt
  | _ => ignored pgPlan

/-- A write to a reeve's CMD (R265, R269). -/
def writeReeveCmd (c v : Nat) : Prog :=
  match bitsOf v 28 2 with
  | 1 => restartOr c (bitsOf v 0 24)
  | 2 => haltReq c 7
  | 3 => cleanRestartOr c (bitsOf v 0 24)
  | _ => ignored (pgReeve c)

/-- A write to a queue's CMD (R345). -/
def writeQueueCmd (q v : Nat) : Prog :=
  match v % 4 with
  | 1 => queueRestart q
  | 2 => queueAdvance q
  | _ => ignored (pgQueue q)

/-- A write to a link's CMD (R373). -/
def writeLinkCmd (l v : Nat) : Prog :=
  match v % 4 with
  | 1 => linkRetrain l
  | 2 => linkTakeDown l
  | _ => ignored (pgLink l)

/-- A write to Bucket's CMD (R417, R425, R435). -/
def writeBucketCmd (v : Nat) : Prog :=
  match v % 8 with
  | 1 => bucketRequest
  | 2 => bucketLocal (v / 8 % 2)
  | 3 => bucketServe (v / 8 % 2)
  | 4 => bucketAccept (v / 8 % 2)
  | 5 => bucketAbort
  | _ => ignored pgBucket

/-- A write to ENTRY_CFG: the entry that ENTRY_SEL names, under the lock (R3, R236). -/
def writeEntryCfg (v : Nat) : Prog := .get (fun s =>
  if s.bit pgNum R.CTL_ENABLE then ignored pgNum
  else modEntry (s.fld pgNum R.numstep_ENTRY_SEL_ENTRY) (fun e => { e with cfg := v }))

/-- A write to CROFT.CLK stores its reserved bits with MULT (R5, R288). -/
def writeClkReg (c v : Nat) : Prog := .all [
  writeClk c v,
  Prog.when (decide (32 ≤ v % 128) && decide (v % 128 ≤ 72)) (.get (fun s =>
    let o := R.croft_CLK_MULT.off
    let r : Word := BitVec.ofNat 32 (0xFFFFFFFF - fieldMask (Kind.regFields .croft o))
    setReg (pgCroft c) o ((s.reg (pgCroft c) o &&& ~~~r) ||| (BitVec.ofNat 32 v &&& r))))]

/-- The lanes of croft `c` leave FREE: each holds the state that the cycles since its last use have brought it to (R47). (DESIGN CHOICE,
assumption 13) -/
def settleLanes (c : Nat) : Prog := .get (fun s => .all [
  modCroft c (fun k => { k with
    laneRan := k.laneRan + Config.freeCycles s.seq
    lanes := k.lanes.map (fun e => (e.1, xorshifts (Config.freeCycles (s.seq + 1 + e.1)) e.2)) }),
  Prog.each (List.range 513) (fun _ => eff .seq)])

/-- A write to CROFT.NUMCFG; one that changes RNG_MODE from FREE to STEPPED leaves the generators where they have advanced to (R47). -/
def writeNumCfg (c v : Nat) : Prog := .get (fun s =>
  let f := R.croft_NUMCFG_RNG_MODE
  .all [
    plainWrite (pgCroft c) f.off v,
    .get (fun t => Prog.when (!s.bit (pgCroft c) f && t.bit (pgCroft c) f) (settleLanes c))])

/-- A write to a ledger page's SEL clears the latch (R393). -/
def writeSel (g v : Nat) : Prog := .all [
  plainWrite (pgLedger g) R.ledger_SEL_COLL.off v,
  modDev (fun d => { d with latched := Sparse.eraseRange d.latched g (g + 1) })]

/-- Who rings a queue's doorbell by a register write, as an owner (R294). (DEDUCED, assumption 117) -/
def agentOwner (who : Agent) : Nat := match who with | .host => 2 | .steward => 3

/-- A write of `v` to the register at offset `o` of page `p`, past the gate. -/
def writeReg (who : Agent) (p : Page) (o v : Nat) : Prog :=
  if o = R.CTL_ENABLE.off then writeCtl p v
  else if o = R.CRIER_LINE_SOURCE.off then writeLine p v
  else
    match clearsOf p.kind o with
    | some x => clearCounters p x.1 x.2 v
    | none =>
      match p.kind with
      | .plan => if o = R.plan_CMD_OP.off then writePlanCmd v else plainWrite p o v
      | .reeve => if o = R.reeve_CMD_OP.off then writeReeveCmd p.inst v else plainWrite p o v
      | .link => if o = R.link_CMD_OP.off then writeLinkCmd p.inst v else plainWrite p o v
      | .bucket => if o = R.bucket_CMD_OP.off then writeBucketCmd v else plainWrite p o v
      | .gauge => if o = R.gauge_CMD_START.off ∧ v % 16 ≠ 0 then writeGaugeCmd v else plainWrite p o v
      | .croft =>
        if o = R.croft_CLK_MULT.off then writeClkReg p.inst v
        else if o = R.croft_NUMCFG_RNG_MODE.off then writeNumCfg p.inst v
        else plainWrite p o v
      | .numstep => if o = R.numstep_ENTRY_CFG_KIND.off then writeEntryCfg v else plainWrite p o v
      | .ledger => if o = R.ledger_SEL_COLL.off then writeSel p.inst v else plainWrite p o v
      | .qgroup =>
        let q := p.inst * 8 + (o - 0x100) / 0x40
        if o < 0x100 ∨ 0x300 ≤ o then plainWrite p o v
        else if o % 0x40 = 0x0C then doorbell q (agentOwner who) (v % 65536)
        else if o % 0x40 = 0x20 then writeQueueCmd q v
        else plainWrite p o v
      | .crier =>
        let x := BitVec.ofNat 32 v
        if o = R.crier_ROUTE_DATA_TKIND.off then writeRoute x
        else if 0x100 ≤ o ∧ o < 0x200 then writeMask ((o - 0x100) / 4) x
        else if 0x200 ≤ o ∧ o < 0x300 then writePend ((o - 0x200) / 4) x
        else if 0x400 ≤ o ∧ o < 0x500 then complete (.vector ((o - 0x400) / 4)) (v % 2048)
        else plainWrite p o v
      | _ => plainWrite p o v

/-! ### BAR0 and BAR4 writes -/

/-- A whole-word write at BAR0 offset `a` (R536, R537). -/
def writeWordAt (who : Agent) (a v : Nat) : Prog :=
  match pageAt a with
  | some p => regWrite who p (a % 0x1000) (writeReg who p (a % 0x1000) v)
  | none => holeWrite who a

/-- A BAR0 write: 4 or 8 aligned bytes, as one or two words in ascending order; any other has no effect and is counted (R4, R537).
(DEDUCED, assumption 110) -/
def writeBar0 (who : Agent) (a : Nat) (bs : List Byte) : Prog :=
  if a % 4 = 0 ∧ bs.length = 4 then writeWordAt who a (leNat bs)
  else if a % 4 = 0 ∧ bs.length = 8 then .all [writeWordAt who a (leNat (bs.take 4)), writeWordAt who (a + 4) (leNat (bs.drop 4))]
  else
    match pageAt a with
    | some p => regWrite who p (a % 0x1000) (ignored p)
    | none => holeWrite who a

/-- BAR4 offsets: the request area and the MSI-X table (R446, R448). -/
def areaBase : Nat := 0x1000
def areaEnd : Nat := 0x80000
def msixBase : Nat := 0xFE000
def msixEnd : Nat := 0xFE400

/-- A BAR4 write: DOORBELL, the request area while the mailbox is not busy, or words of the MSI-X table; anything else has no effect and is
counted (R446, R448, R450). -/
def writeBar4 (a : Nat) (bs : List Byte) : Prog := .get (fun s =>
  let n := bs.length
  if a = 0 ∧ n = 4 then ringMailbox (BitVec.ofNat 32 (leNat bs))
  else if areaBase ≤ a ∧ a + n ≤ areaEnd ∧ s.dev.host.mailbox.mstate ≠ 1 then
    modMailbox (fun m => { m with area := Memory.writeBytes m.area (a - areaBase) bs })
  else if msixBase ≤ a ∧ a + n ≤ msixEnd ∧ a % 4 = 0 ∧ n % 4 = 0 then
    Prog.each (List.range (n / 4)) (fun i =>
      let o := a - msixBase + 4 * i
      writeVec (o / 16) (o % 16 / 4) (BitVec.ofNat 32 (leNat ((bs.drop (4 * i)).take 4))))
  else ignored pgHost)

/-! ### The rows -/

/-- COUNTER_CLEAR: a write to a page's CNT_CLEAR (R65 and its copies). -/
def execCounterClear (who : Agent) (a : BitVec 28) (v : Word) (s : State) : Host.Outcome State Fault Refusal :=
  Prog.next (
    match pageAt a.toNat with
    | none => .done
    | some p =>
      match clearsOf p.kind (a.toNat % 0x1000) with
      | some x => regWrite who p (a.toNat % 0x1000) (clearCounters p x.1 x.2 v.toNat)
      | none => .done) s

/-- What a read of an RC register returns and leaves: IGNORED_CNT, or Watch's PEAK (R3, R433, R538). -/
def readClear (p : Page) (o : Nat) : Prog := .get (fun s =>
  let m := accMask (p.kind.regFields o) .rc
  .all [
    setReg p o (s.reg p o &&& ~~~(BitVec.ofNat 32 m)),
    emit (.read ((s.reg p o).toNat &&& m))])

/-- RC_READ: a read of an RC field (R3, R538). -/
def execRcRead (a : BitVec 28) (s : State) : Host.Outcome State Fault Refusal :=
  Prog.next (
    match pageAt a.toNat with
    | none => .done
    | some p =>
      Prog.when (accMask (p.kind.regFields (a.toNat % 0x1000)) .rc != 0)
        (regRead .host p (a.toNat % 0x1000) (readClear p (a.toNat % 0x1000)))) s

/-- REGISTER_WRITE: a write to BAR0, or to BAR4 (R448, R536, R537). -/
def execRegisterWrite (who : Agent) (bar4 : Bool) (a : BitVec 28) (bs : List Byte) (ide : Bool) (s : State) :
    Host.Outcome State Fault Refusal :=
  Prog.next (if bar4 then needsIde ide true (writeBar4 a.toNat bs) else writeBar0 who a.toNat bs) s

end Sys2Proof.Machine
end

