-- ==== Sys2Proof/Machine/Start.lean ====
section
/-! DEFINITION. The start of a queued engine order (R245, R266, R273). -/
namespace Sys2Proof.Machine

/-- The page of the engine an order goes to, by its code (R266); none for orders without one. -/
def enginePage (c engine : Nat) : Option Page :=
  match engine with
  | 2 | 3 | 4 | 5 => some (pgPump (c * 4 + (engine - 2)))
  | 6 => some (pgMill c)
  | 7 => some (pgPlumb c)
  | 8 => some (pgTally c)
  | _ => none

/-- Whether the unit of engine code `e` has stopped on a residue mismatch (R430). -/
def Croft.halts (k : Croft) (e : Nat) : Bool :=
  match e with
  | 1 => k.stopped.contains 5
  | 2 | 3 | 4 | 5 => k.stopped.contains (e - 2)
  | 6 | 8 => k.stopped.contains 4
  | _ => false

/-- Whether the engine can start orders: neither it nor its croft is under reset, the island's clock runs, and it has not stopped
(R15, R288, R430). -/
def State.canStart (s : State) (c e : Nat) : Bool :=
  !s.croftUnderReset c && s.clockRuns c && !(s.croft c).halts e &&
  (match enginePage c e with | some p => !s.underReset p | none => true)

/-- EPI of a PUMP order (R244). -/
def Epi.code : Epi → Nat
  | .none => 0
  | .smaxBwd => 1
  | .normBwdRms => 2
  | .normBwdLayer => 3

/-- The start of an order by its kind. -/
def startOrder (c : Nat) (o : Issued) : Prog :=
  match decodeOrder o.word with
  | .ok (.load w img) => startLoad c o w img
  | .ok (.draw n args) => startDraw c o n args
  | .ok (.plumb mask sound) => startPlumb c o mask sound
  | .ok (.pump p shape epi args) => startPump c o p shape epi.code args (orderBnd o.word)
  | .ok (.mill op args) => startMill c o op args (orderBnd o.word)
  | .ok (.tallyCompare group _ cnt args) => startCompare c o group cnt args
  | _ => .done

/-- The step limiter may have held an order back from its start, and then counts it; whether it did rests on trimmed figures and is open (R477,
DESIGN CHOICE, assumption 78). -/
def stepLimiter : Prog := .get (fun s => .all [
  eff .seq, Prog.when (Config.openBit s.seq % 2 == 1) (bump pgPower R.power_STEP_DELAY_CNT)])

/-- ORDER_START: the `k`-th incomplete order of croft `c`, if it has not started and its engine can take it, starts (R245, R477).
(DEDUCED, assumption 143) -/
def execOrderStart (c : CroftId) (k : Nat) (s : State) : Host.Outcome State Fault Refusal :=
  Prog.next (.get (fun s =>
    match (s.reeve c.val).orders[k]? with
    | none => .done
    | some o => Prog.when (!o.started && s.canStart c.val o.engine) (.all [
        startOrder c.val o,
        .get (fun t => Prog.when ((t.reeve c.val).orders.any (fun x => x.serial == o.serial && x.started)) stepLimiter)]))) s

end Sys2Proof.Machine
end

