-- ==== Sys2Proof/Machine/Dispatch.lean ====
section
/-! DEFINITION. The commands to their meanings: one direct call per row of the table. -/
namespace Sys2Proof.Machine

/-- The effect of command `i` on everything but the queue of waiting commands. -/
def exec (i : Instr) (s : State) : Host.Outcome State Fault Refusal :=
  match i with
  | .nop c => Sys2Proof.Machine.execNop c s
  | .halt c => Sys2Proof.Machine.execHalt c s
  | .fence c => Sys2Proof.Machine.execFence c s
  | .layerFenceOpen c => Sys2Proof.Machine.execLayerFenceOpen c s
  | .layerFenceClose c => Sys2Proof.Machine.execLayerFenceClose c s
  | .stepFence c => Sys2Proof.Machine.execStepFence c s
  | .loop c => Sys2Proof.Machine.execLoop c s
  | .tokenWait c => Sys2Proof.Machine.execTokenWait c s
  | .tokenSignal c => Sys2Proof.Machine.execTokenSignal c s
  | .bellAbs c => Sys2Proof.Machine.execBellAbs c s
  | .bellRel c => Sys2Proof.Machine.execBellRel c s
  | .seed c => Sys2Proof.Machine.execSeed c s
  | .seedLoad c => Sys2Proof.Machine.execSeedLoad c s
  | .load c => Sys2Proof.Machine.execLoad c s
  | .draw c => Sys2Proof.Machine.execDraw c s
  | .plumbWindow c => Sys2Proof.Machine.execPlumbWindow c s
  | .plumbSound c => Sys2Proof.Machine.execPlumbSound c s
  | .pump c => Sys2Proof.Machine.execPump c s
  | .smaxBwd c => Sys2Proof.Machine.execSmaxBwd c s
  | .normBwdRms c => Sys2Proof.Machine.execNormBwdRms c s
  | .normBwdLayer c => Sys2Proof.Machine.execNormBwdLayer c s
  | .add c st => Sys2Proof.Machine.execAdd c st s
  | .mul c st => Sys2Proof.Machine.execMul c st s
  | .fma c st => Sys2Proof.Machine.execFma c st s
  | .axpby c st => Sys2Proof.Machine.execAxpby c st s
  | .relu c st => Sys2Proof.Machine.execRelu c st s
  | .gelu c st => Sys2Proof.Machine.execGelu c st s
  | .silu c st => Sys2Proof.Machine.execSilu c st s
  | .exp c st => Sys2Proof.Machine.execExp c st s
  | .log c st => Sys2Proof.Machine.execLog c st s
  | .recip c st => Sys2Proof.Machine.execRecip c st s
  | .sqrt c st => Sys2Proof.Machine.execSqrt c st s
  | .rsqrt c st => Sys2Proof.Machine.execRsqrt c st s
  | .div c st => Sys2Proof.Machine.execDiv c st s
  | .rsum c st => Sys2Proof.Machine.execRsum c st s
  | .rmax c st => Sys2Proof.Machine.execRmax c st s
  | .rdot c st => Sys2Proof.Machine.execRdot c st s
  | .normFwdRms c st => Sys2Proof.Machine.execNormFwdRms c st s
  | .normFwdLayer c st => Sys2Proof.Machine.execNormFwdLayer c st s
  | .smaxFwd c st => Sys2Proof.Machine.execSmaxFwd c st s
  | .combine c st => Sys2Proof.Machine.execCombine c st s
  | .topk c st => Sys2Proof.Machine.execTopk c st s
  | .convert c st => Sys2Proof.Machine.execConvert c st s
  | .optSgd c st => Sys2Proof.Machine.execOptSgd c st s
  | .optMomentum c st => Sys2Proof.Machine.execOptMomentum c st s
  | .optAdam c st => Sys2Proof.Machine.execOptAdam c st s
  | .wellImage c st => Sys2Proof.Machine.execWellImage c st s
  | .tallyFlush c => Sys2Proof.Machine.execTallyFlush c s
  | .tallyClear c => Sys2Proof.Machine.execTallyClear c s
  | .tallyCompare c st => Sys2Proof.Machine.execTallyCompare c st s
  | .sluice c => Sys2Proof.Machine.execSluice c s
  | .chunkFetchDone c n flips => Sys2Proof.Machine.execChunkFetchDone c n flips s
  | .orderStart c k => Sys2Proof.Machine.execOrderStart c k s
  | .loadPassEnd w cells => Sys2Proof.Machine.execLoadPassEnd w cells s
  | .retentionLimit w => Sys2Proof.Machine.execRetentionLimit w s
  | .drawSlotStart w => Sys2Proof.Machine.execDrawSlotStart w s
  | .drawSliceEnd w codes => Sys2Proof.Machine.execDrawSliceEnd w codes s
  | .drawQuarterEnd w codes => Sys2Proof.Machine.execDrawQuarterEnd w codes s
  | .drawPromotionEnd w => Sys2Proof.Machine.execDrawPromotionEnd w s
  | .leatMergeStart c => Sys2Proof.Machine.execLeatMergeStart c s
  | .leatMergeEnd c => Sys2Proof.Machine.execLeatMergeEnd c s
  | .windowEnd c ts => Sys2Proof.Machine.execWindowEnd c ts s
  | .trimCommit w => Sys2Proof.Machine.execTrimCommit w s
  | .soundingEnd c sums => Sys2Proof.Machine.execSoundingEnd c sums s
  | .calDue w => Sys2Proof.Machine.execCalDue w s
  | .overdue w sound => Sys2Proof.Machine.execOverdue w sound s
  | .plumbAutoStart c => Sys2Proof.Machine.execPlumbAutoStart c s
  | .tempStale c => Sys2Proof.Machine.execTempStale c s
  | .escPartStart c => Sys2Proof.Machine.execEscPartStart c s
  | .escPartEnd c => Sys2Proof.Machine.execEscPartEnd c s
  | .pumpChunkEnd p => Sys2Proof.Machine.execPumpChunkEnd p s
  | .pumpConversionEnd p => Sys2Proof.Machine.execPumpConversionEnd p s
  | .pumpRetryEnd p => Sys2Proof.Machine.execPumpRetryEnd p s
  | .epilogueTile p => Sys2Proof.Machine.execEpilogueTile p s
  | .millOrderEnd c => Sys2Proof.Machine.execMillOrderEnd c s
  | .millStretchEnd c => Sys2Proof.Machine.execMillStretchEnd c s
  | .fenceComplete c => Sys2Proof.Machine.execFenceComplete c s
  | .tokenWaitComplete c => Sys2Proof.Machine.execTokenWaitComplete c s
  | .tokenSignalArrival k => Sys2Proof.Machine.execTokenSignalArrival k s
  | .pendingSignalSend c => Sys2Proof.Machine.execPendingSignalSend c s
  | .bellWaitComplete c => Sys2Proof.Machine.execBellWaitComplete c s
  | .haltComplete c => Sys2Proof.Machine.execHaltComplete c s
  | .croftHalted c => Sys2Proof.Machine.execCroftHalted c s
  | .watchdogExpiry c => Sys2Proof.Machine.execWatchdogExpiry c s
  | .stepReport c => Sys2Proof.Machine.execStepReport c s
  | .stepBarrierRelease => Sys2Proof.Machine.execStepBarrierRelease s
  | .tallyContribution k => Sys2Proof.Machine.execTallyContribution k s
  | .tallyVerdict g => Sys2Proof.Machine.execTallyVerdict g s
  | .haltMessage l origin b => Sys2Proof.Machine.execHaltMessage l origin b s
  | .stepRepeat => Sys2Proof.Machine.execStepRepeat s
  | .reeveRestart c idx => Sys2Proof.Machine.execReeveRestart c idx s
  | .reeveHaltRequest c => Sys2Proof.Machine.execReeveHaltRequest c s
  | .cleanRestart c idx => Sys2Proof.Machine.execCleanRestart c idx s
  | .clkMultWrite c v => Sys2Proof.Machine.execClkMultWrite c v s
  | .relockDone c => Sys2Proof.Machine.execRelockDone c s
  | .laneFlitHop link n share c => Sys2Proof.Machine.execLaneFlitHop link n share c s
  | .laneFlitCrcFail ch dir again => Sys2Proof.Machine.execLaneFlitCrcFail ch dir again s
  | .cisternRead c off len src flips => Sys2Proof.Machine.execCisternRead c off len src flips s
  | .cisternWrite c off bs src rival flips => Sys2Proof.Machine.execCisternWrite c off bs src rival flips s
  | .scrubStripe c flips => Sys2Proof.Machine.execScrubStripe c flips s
  | .granaryRead h g src parity onDie flips => Sys2Proof.Machine.execGranaryRead h g src parity onDie flips s
  | .granaryRereadDone h b => Sys2Proof.Machine.execGranaryRereadDone h b s
  | .granaryWrite h a bs src b => Sys2Proof.Machine.execGranaryWrite h a bs src b s
  | .writeParityReport h g => Sys2Proof.Machine.execWriteParityReport h g s
  | .granaryRefresh h rfm => Sys2Proof.Machine.execGranaryRefresh h rfm s
  | .granaryTempReadout h t => Sys2Proof.Machine.execGranaryTempReadout h t s
  | .granaryScrub h b => Sys2Proof.Machine.execGranaryScrub h b s
  | .granaryCmdTimeout h a => Sys2Proof.Machine.execGranaryCmdTimeout h a s
  | .doorbell q who count => Sys2Proof.Machine.execDoorbell q who count s
  | .descriptorStart q => Sys2Proof.Machine.execDescriptorStart q s
  | .descriptorNop q => Sys2Proof.Machine.execDescriptorNop q s
  | .copy q => Sys2Proof.Machine.execCopy q s
  | .fill q => Sys2Proof.Machine.execFill q s
  | .epoch q => Sys2Proof.Machine.execEpoch q s
  | .sluiceSlotCycle c cyc turn => Sys2Proof.Machine.execSluiceSlotCycle c cyc turn s
  | .segTimeout q idx seg => Sys2Proof.Machine.execSegTimeout q idx seg s
  | .epochWaitEnd q => Sys2Proof.Machine.execEpochWaitEnd q s
  | .queueRestart q => Sys2Proof.Machine.execQueueRestart q s
  | .advanceEpoch q => Sys2Proof.Machine.execAdvanceEpoch q s
  | .incarnationWindowEnd c => Sys2Proof.Machine.execIncarnationWindowEnd c s
  | .drainEnd g => Sys2Proof.Machine.execDrainEnd g s
  | .frameSend l => Sys2Proof.Machine.execFrameSend l s
  | .frameReceive l a b c d fixes flagged => Sys2Proof.Machine.execFrameReceive l a b c d fixes flagged s
  | .replayTimeout l ctrl => Sys2Proof.Machine.execReplayTimeout l ctrl s
  | .retrainStart l => Sys2Proof.Machine.execRetrainStart l s
  | .linkUp l dev far vidx reversed polarity ack cack => Sys2Proof.Machine.execLinkUp l dev far vidx reversed polarity ack cack s
  | .retrainTimeout l => Sys2Proof.Machine.execRetrainTimeout l s
  | .linkRetrain l => Sys2Proof.Machine.execLinkRetrain l s
  | .linkTakeDown l => Sys2Proof.Machine.execLinkTakeDown l s
  | .qrefLoss g => Sys2Proof.Machine.execQrefLoss g s
  | .write l k => Sys2Proof.Machine.execWrite l k s
  | .readReq l k => Sys2Proof.Machine.execReadReq l k s
  | .readResp l k => Sys2Proof.Machine.execReadResp l k s
  | .reasmTimeout l k => Sys2Proof.Machine.execReasmTimeout l k s
  | .segAck k => Sys2Proof.Machine.execSegAck k s
  | .signal k => Sys2Proof.Machine.execSignal k s
  | .sync k ago ahead => Sys2Proof.Machine.execSync k ago ahead s
  | .delayReq k ago => Sys2Proof.Machine.execDelayReq k ago s
  | .delayResp k => Sys2Proof.Machine.execDelayResp k s
  | .coarse k => Sys2Proof.Machine.execCoarse k s
  | .bellPeriod ahead => Sys2Proof.Machine.execBellPeriod ahead s
  | .bellExchangeMiss l => Sys2Proof.Machine.execBellExchangeMiss l s
  | .bellCopyCheck diff => Sys2Proof.Machine.execBellCopyCheck diff s
  | .holdoverLimit => Sys2Proof.Machine.execHoldoverLimit s
  | .bellPps => Sys2Proof.Machine.execBellPps s
  | .bellTod => Sys2Proof.Machine.execBellTod s
  | .watchEvent k => Sys2Proof.Machine.execWatchEvent k s
  | .watchDecay => Sys2Proof.Machine.execWatchDecay s
  | .watchSample tj shift => Sys2Proof.Machine.execWatchSample tj shift s
  | .snapReq l origin b => Sys2Proof.Machine.execSnapReq l origin b s
  | .alarm l origin b abandoned => Sys2Proof.Machine.execAlarm l origin b abandoned s
  | .stewardStepEnd => Sys2Proof.Machine.execStewardStepEnd s
  | .bucketPailCopy => Sys2Proof.Machine.execBucketPailCopy s
  | .bucketTouchRelease => Sys2Proof.Machine.execBucketTouchRelease s
  | .bucketPailTimeout k => Sys2Proof.Machine.execBucketPailTimeout k s
  | .bucketCommit => Sys2Proof.Machine.execBucketCommit s
  | .commitAck => Sys2Proof.Machine.execCommitAck s
  | .bucketRequest => Sys2Proof.Machine.execBucketRequest s
  | .bucketLocal slot => Sys2Proof.Machine.execBucketLocal slot s
  | .bucketServe slot => Sys2Proof.Machine.execBucketServe slot s
  | .bucketAccept slot => Sys2Proof.Machine.execBucketAccept slot s
  | .bucketAbort => Sys2Proof.Machine.execBucketAbort s
  | .restoreDone => Sys2Proof.Machine.execRestoreDone s
  | .residueMismatch c u => Sys2Proof.Machine.execResidueMismatch c u s
  | .stewardWdogRestart => Sys2Proof.Machine.execStewardWdogRestart s
  | .stewardWdogExpiry => Sys2Proof.Machine.execStewardWdogExpiry s
  | .hostBar2Read o n ide far => Sys2Proof.Machine.execHostBar2Read o n ide far s
  | .hostBar2Write o bs ide far => Sys2Proof.Machine.execHostBar2Write o bs ide far s
  | .hostAccessTimeout k => Sys2Proof.Machine.execHostAccessTimeout k s
  | .pcieConfigRequest r => Sys2Proof.Machine.execPcieConfigRequest r s
  | .msixVectorControl v dw x ide => Sys2Proof.Machine.execMsixVectorControl v dw x ide s
  | .linkRateChange rate width flit => Sys2Proof.Machine.execLinkRateChange rate width flit s
  | .ideStreamExit => Sys2Proof.Machine.execIdeStreamExit s
  | .mailboxDoorbell seq ide => Sys2Proof.Machine.execMailboxDoorbell seq ide s
  | .getInfo => Sys2Proof.Machine.execGetInfo s
  | .setPowerState => Sys2Proof.Machine.execSetPowerState s
  | .getCert => Sys2Proof.Machine.execGetCert s
  | .getAttestation keyOk => Sys2Proof.Machine.execGetAttestation keyOk s
  | .measurePlan => Sys2Proof.Machine.execMeasurePlan s
  | .fwUpdate => Sys2Proof.Machine.execFwUpdate s
  | .readDefects => Sys2Proof.Machine.execReadDefects s
  | .readDigests => Sys2Proof.Machine.execReadDigests s
  | .readFaults => Sys2Proof.Machine.execReadFaults s
  | .getVersion => Sys2Proof.Machine.execGetVersion s
  | .getCapabilities => Sys2Proof.Machine.execGetCapabilities s
  | .negotiateAlgorithms => Sys2Proof.Machine.execNegotiateAlgorithms s
  | .getDigests => Sys2Proof.Machine.execGetDigests s
  | .getCertificate slot => Sys2Proof.Machine.execGetCertificate slot s
  | .challenge nonce keyOk => Sys2Proof.Machine.execChallenge nonce keyOk s
  | .getMeasurements index keyOk => Sys2Proof.Machine.execGetMeasurements index keyOk s
  | .keyExchange keyOk => Sys2Proof.Machine.execKeyExchange keyOk s
  | .finish => Sys2Proof.Machine.execFinish s
  | .ideKeyManagement stream => Sys2Proof.Machine.execIdeKeyManagement stream s
  | .crierSourceRequest n => Sys2Proof.Machine.execCrierSourceRequest n s
  | .crierSourceWithdraw n => Sys2Proof.Machine.execCrierSourceWithdraw n s
  | .crierClaim t => Sys2Proof.Machine.execCrierClaim t s
  | .crierComplete t v => Sys2Proof.Machine.execCrierComplete t v s
  | .routeDataWrite who v => Sys2Proof.Machine.execRouteDataWrite who v s
  | .pendWrite who w v => Sys2Proof.Machine.execPendWrite who w v s
  | .maskWrite who w v => Sys2Proof.Machine.execMaskWrite who w v s
  | .supplyWarning h => Sys2Proof.Machine.execSupplyWarning h s
  | .supplyWarningRelease h dur low => Sys2Proof.Machine.execSupplyWarningRelease h dur low s
  | .warningSettleEnd h => Sys2Proof.Machine.execWarningSettleEnd h s
  | .supplyResetLevel h => Sys2Proof.Machine.execSupplyResetLevel h s
  | .supplyResetRelease h => Sys2Proof.Machine.execSupplyResetRelease h s
  | .resetLevelHoldTimeout h => Sys2Proof.Machine.execResetLevelHoldTimeout h s
  | .overvoltage h => Sys2Proof.Machine.execOvervoltage h s
  | .railSupervisorTrip rail => Sys2Proof.Machine.execRailSupervisorTrip rail s
  | .avsTransaction rail cmd ok v => Sys2Proof.Machine.execAvsTransaction rail cmd ok v s
  | .vdone h => Sys2Proof.Machine.execVdone h s
  | .vdoneTimeout h => Sys2Proof.Machine.execVdoneTimeout h s
  | .capGovernorTick => Sys2Proof.Machine.execCapGovernorTick s
  | .thermtrip stack number => Sys2Proof.Machine.execThermtrip stack number s
  | .pmD3hot => Sys2Proof.Machine.execPmD3hot s
  | .pmD0 => Sys2Proof.Machine.execPmD0 s
  | .powerTransitionDone => Sys2Proof.Machine.execPowerTransitionDone s
  | .offEntry => Sys2Proof.Machine.execOffEntry s
  | .gaugeSlot a b fin => Sys2Proof.Machine.execGaugeSlot a b fin s
  | .gaugeSeqTimer q => Sys2Proof.Machine.execGaugeSeqTimer q s
  | .gaugeCmd who v => Sys2Proof.Machine.execGaugeCmd who v s
  | .coldStart => Sys2Proof.Machine.execColdStart s
  | .railGroupValid => Sys2Proof.Machine.execRailGroupValid s
  | .railGroupTimeout rail => Sys2Proof.Machine.execRailGroupTimeout rail s
  | .fwPacket kind n only lost differ => Sys2Proof.Machine.execFwPacket kind n only lost differ s
  | .repairReport => Sys2Proof.Machine.execRepairReport s
  | .warmRstNAssert long => Sys2Proof.Machine.execWarmRstNAssert long s
  | .warmRstNRelease same => Sys2Proof.Machine.execWarmRstNRelease same s
  | .deviceResetReq who => Sys2Proof.Machine.execDeviceResetReq who s
  | .coreReset who pg => Sys2Proof.Machine.execCoreReset who pg s
  | .croftReset who c => Sys2Proof.Machine.execCroftReset who c s
  | .hamletReset who h => Sys2Proof.Machine.execHamletReset who h s
  | .resetDone g fs e => Sys2Proof.Machine.execResetDone g fs e s
  | .runtimeRecordWrite => Sys2Proof.Machine.execRuntimeRecordWrite s
  | .smbBoot => Sys2Proof.Machine.execSmbBoot s
  | .smbResetCause => Sys2Proof.Machine.execSmbResetCause s
  | .smbThermtrip => Sys2Proof.Machine.execSmbThermtrip s
  | .smbSerial => Sys2Proof.Machine.execSmbSerial s
  | .enableSet who pg => Sys2Proof.Machine.execEnableSet who pg s
  | .enableCheckDone pg ok partner ward => Sys2Proof.Machine.execEnableCheckDone pg ok partner ward s
  | .enableClear who pg => Sys2Proof.Machine.execEnableClear who pg s
  | .planStart who restore => Sys2Proof.Machine.execPlanStart who restore s
  | .stopAtStepBoundary who => Sys2Proof.Machine.execStopAtStepBoundary who s
  | .haltNow who => Sys2Proof.Machine.execHaltNow who s
  | .counterClear who a v => Sys2Proof.Machine.execCounterClear who a v s
  | .ledgerDigestRead g => Sys2Proof.Machine.execLedgerDigestRead g s
  | .bellNowRead => Sys2Proof.Machine.execBellNowRead s
  | .rcRead a => Sys2Proof.Machine.execRcRead a s
  | .registerWrite who bar4 a bs ide => Sys2Proof.Machine.execRegisterWrite who bar4 a bs ide s
  | .bucketExchange l => Sys2Proof.Machine.execBucketExchange l s
  | .vddAuxValid straps => Sys2Proof.Machine.execVddAuxValid straps s
  | .mainFeedsRemoved => Sys2Proof.Machine.execMainFeedsRemoved s

end Sys2Proof.Machine
end

