-- ==== Sys2Proof/WellFormed.lean ====
section
/-! DEFINITION. Well-formed commands: the operands of a command that the hardware can carry out, beyond what the types of Syntax.lean
say. `exec` answers on every command; a claim about commands the hardware makes takes `Instr.wf` as a premise. -/
namespace Sys2Proof

/-- No element of the list stands in it twice. -/
def noRepeat {α : Type} [DecidableEq α] : List α → Bool
  | [] => true
  | x :: xs => !xs.contains x && noRepeat xs

/-- A list of keyed values with keys below `n`, no key twice. -/
def keysUnder {α : Type} (n : Nat) (l : List (Nat × α)) : Bool :=
  l.all (fun x => decide (x.1 < n)) && noRepeat (l.map (·.1))

/-- Codes of a run of 1 to 16 wells: 512 data and 8 check columns each (R83, R93, R106). -/
def wellCodes (codes : List (List Int)) : Bool :=
  decide (1 ≤ codes.length) && decide (codes.length ≤ 16) && codes.all (fun l => l.length == 520)

/-- `n` bytes, at least one, from slice offset `o` on lie within one stripe of 256 bytes of a slice of 240 MiB (R21, R298). -/
def inStripe (o n : Nat) : Bool := decide (0 < n) && decide (o % 256 + n ≤ 256) && decide (o < 0xF000000)

/-- A host access carries 1 to 4,096 bytes (R438). -/
def hostLength (n : Nat) : Bool := decide (0 < n) && decide (n ≤ 4096)

/-- A far device that answers with data answers the bytes asked for. -/
def answers (far : FarAnswer) (n : Nat) : Bool :=
  match far with
  | .ok bs => bs.length == n
  | .silent | .unmapped | .collision | .uncorrectable | .absorbed => true

/-- A register offset is a multiple of 4 (R537). -/
def wordAligned (a : BitVec 28) : Bool := a.toNat % 4 == 0

/-- The codeword of the byte at place `j` of a frame: 24 interleaved codewords of data, then four bytes of parity for each (R350). -/
def frameCodeword (j : Nat) : Nat := if j < 5280 then j % 24 else (j - 5280) / 4

/-- A frame comes on twelve lanes of 1,792 symbols (R346); a codeword is corrected in at most two bytes, or flagged (R350). -/
def frameOperands (lanes : List (List (BitVec 2))) (fixes : List Nat) (flagged : List Nat) : Bool :=
  lanes.length == 12 && lanes.all (fun l => l.length == 1792) && noRepeat fixes && noRepeat flagged &&
  fixes.all (fun j => decide ((fixes.filter (fun k => frameCodeword k == frameCodeword j)).length ≤ 2) && !flagged.contains (frameCodeword j))

/-- The operands of a command are ones the hardware can present. -/
def Instr.wf : Instr → Bool
  | .chunkFetchDone _ n flips =>
    decide (n < 65536) && keysUnder 4096 flips
  | .loadPassEnd _ cells =>
    cells.all (fun x => decide (x.1 < 536) && decide (x.2.1 < 512)) && noRepeat (cells.map (fun x => (x.1, x.2.1)))
  | .drawSliceEnd _ codes =>
    wellCodes codes
  | .drawQuarterEnd _ codes =>
    wellCodes codes
  | .windowEnd _ ts =>
    ts.all (fun x => decide (x.1 < 536) && decide (x.2.1 < 65)) &&
    noRepeat (ts.map (fun x => (x.1, x.2.1)))
  | .soundingEnd _ sums =>
    keysUnder 536 sums && sums.all (fun x => x.2.length == 4 && x.2.all (fun v => decide (-6144 ≤ v) && decide (v ≤ 6144)))
  | .cisternRead _ off len _ flips =>
    inStripe off.toNat len.val && noRepeat (flips.map (·.1))
  | .cisternWrite _ off bs _ _ flips =>
    inStripe off.toNat bs.length && noRepeat (flips.map (·.1))
  | .scrubStripe _ flips =>
    noRepeat (flips.map (fun x => (x.1, x.2.1)))
  | .granaryRead _ _ _ _ _ flips =>
    noRepeat (flips.map (·.1))
  | .granaryWrite _ a bs _ b =>
    decide (0 < bs.length) && decide (a.val % 64 + bs.length ≤ 64) && noRepeat (b.flips.map (·.1))
  | .granaryRereadDone _ b =>
    noRepeat (b.flips.map (·.1))
  | .granaryScrub _ b =>
    noRepeat (b.flips.map (·.1))
  | .frameReceive _ a b c d fixes flagged =>
    a.length == 3 && b.length == 3 && c.length == 3 && d.length == 3 &&
    frameOperands (a ++ b ++ c ++ d) (fixes.map (fun x => x.1.val)) (flagged.map (·.val))
  | .watchSample _ shift =>
    decide (shift < 256)
  | .hostBar2Read _ n _ far =>
    hostLength n && answers far n
  | .hostBar2Write _ bs _ _ =>
    hostLength bs.length
  | .supplyWarningRelease _ _ low =>
    decide (low.toNat < 95)
  | .thermtrip stack i =>
    !stack || decide (i.toNat < 8)
  | .fwPacket _ _ _ lost differ =>
    noRepeat lost && noRepeat differ
  | .coreReset _ pg =>
    decide (pg.toNat < 0x8000)
  | .enableSet _ pg =>
    decide (pg.toNat < 0x8000)
  | .enableCheckDone pg _ _ _ =>
    decide (pg.toNat < 0x8000)
  | .enableClear _ pg =>
    decide (pg.toNat < 0x8000)
  | .counterClear _ a _ =>
    wordAligned a
  | .rcRead a =>
    wordAligned a
  | .registerWrite _ _ a bs _ =>
    hostLength bs.length && decide (a.toNat % 4096 + bs.length ≤ 4096)
  | .nop .. | .halt .. | .fence .. | .layerFenceOpen .. | .layerFenceClose .. | .stepFence .. | .loop .. | .tokenWait ..
  | .tokenSignal .. | .bellAbs .. | .bellRel .. | .seed .. | .seedLoad .. | .load .. | .draw .. | .plumbWindow ..
  | .plumbSound .. | .pump .. | .smaxBwd .. | .normBwdRms .. | .normBwdLayer .. | .add .. | .mul .. | .fma .. | .axpby ..
  | .relu .. | .gelu .. | .silu .. | .exp .. | .log .. | .recip .. | .sqrt .. | .rsqrt .. | .div .. | .rsum .. | .rmax ..
  | .rdot .. | .normFwdRms .. | .normFwdLayer .. | .smaxFwd .. | .combine .. | .topk .. | .convert .. | .optSgd ..
  | .optMomentum .. | .optAdam .. | .wellImage .. | .tallyFlush .. | .tallyClear .. | .tallyCompare .. | .sluice ..
  | .orderStart .. | .retentionLimit .. | .drawSlotStart .. | .drawPromotionEnd .. | .leatMergeStart .. | .leatMergeEnd ..
  | .trimCommit .. | .calDue .. | .overdue .. | .plumbAutoStart .. | .tempStale .. | .escPartStart .. | .escPartEnd ..
  | .pumpChunkEnd .. | .pumpConversionEnd .. | .pumpRetryEnd .. | .epilogueTile .. | .millOrderEnd .. | .millStretchEnd ..
  | .fenceComplete .. | .tokenWaitComplete .. | .tokenSignalArrival .. | .pendingSignalSend .. | .bellWaitComplete ..
  | .haltComplete .. | .croftHalted .. | .watchdogExpiry .. | .stepReport .. | .stepBarrierRelease .. | .tallyContribution ..
  | .tallyVerdict .. | .haltMessage .. | .stepRepeat .. | .reeveRestart .. | .reeveHaltRequest .. | .cleanRestart ..
  | .clkMultWrite .. | .relockDone .. | .laneFlitHop .. | .laneFlitCrcFail .. | .writeParityReport ..
  | .granaryRefresh .. | .granaryTempReadout .. | .granaryCmdTimeout .. | .doorbell .. | .descriptorStart ..
  | .descriptorNop .. | .copy .. | .fill .. | .epoch .. | .sluiceSlotCycle .. | .segTimeout .. | .epochWaitEnd ..
  | .queueRestart .. | .advanceEpoch .. | .incarnationWindowEnd .. | .drainEnd .. | .frameSend .. | .replayTimeout ..
  | .retrainStart .. | .linkUp .. | .retrainTimeout .. | .linkRetrain .. | .linkTakeDown .. | .qrefLoss .. | .write ..
  | .readReq .. | .readResp .. | .reasmTimeout .. | .segAck .. | .signal .. | .sync .. | .delayReq .. | .delayResp ..
  | .coarse .. | .bellPeriod .. | .bellExchangeMiss .. | .bellCopyCheck .. | .holdoverLimit .. | .bellPps .. | .bellTod ..
  | .watchEvent .. | .watchDecay .. | .snapReq .. | .alarm .. | .stewardStepEnd .. | .bucketPailCopy ..
  | .bucketTouchRelease .. | .bucketPailTimeout .. | .bucketCommit .. | .commitAck .. | .bucketRequest .. | .bucketLocal ..
  | .bucketServe .. | .bucketAccept .. | .bucketAbort .. | .restoreDone .. | .residueMismatch .. | .stewardWdogRestart ..
  | .stewardWdogExpiry .. | .hostAccessTimeout .. | .pcieConfigRequest .. | .msixVectorControl .. | .linkRateChange ..
  | .ideStreamExit .. | .mailboxDoorbell .. | .getInfo .. | .setPowerState .. | .getCert .. | .getAttestation ..
  | .measurePlan .. | .fwUpdate .. | .readDefects .. | .readDigests .. | .readFaults .. | .getVersion .. | .getCapabilities ..
  | .negotiateAlgorithms .. | .getDigests .. | .getCertificate .. | .challenge .. | .getMeasurements .. | .keyExchange ..
  | .finish .. | .ideKeyManagement .. | .crierSourceRequest .. | .crierSourceWithdraw .. | .crierClaim .. | .crierComplete ..
  | .routeDataWrite .. | .pendWrite .. | .maskWrite .. | .supplyWarning .. | .warningSettleEnd .. | .supplyResetLevel ..
  | .supplyResetRelease .. | .resetLevelHoldTimeout .. | .overvoltage .. | .railSupervisorTrip .. | .avsTransaction ..
  | .vdone .. | .vdoneTimeout .. | .capGovernorTick .. | .pmD3hot .. | .pmD0 .. | .powerTransitionDone .. | .offEntry ..
  | .gaugeSlot .. | .gaugeSeqTimer .. | .gaugeCmd .. | .coldStart .. | .railGroupValid .. | .railGroupTimeout ..
  | .repairReport .. | .warmRstNAssert .. | .warmRstNRelease .. | .deviceResetReq .. | .croftReset .. | .hamletReset ..
  | .resetDone .. | .runtimeRecordWrite .. | .smbBoot .. | .smbResetCause .. | .smbThermtrip .. | .smbSerial .. | .planStart ..
  | .stopAtStepBoundary .. | .haltNow .. | .ledgerDigestRead .. | .bellNowRead .. | .bucketExchange .. | .vddAuxValid ..
  | .mainFeedsRemoved .. => true

end Sys2Proof
end

