-- ==== Sys2Proof/Safety.lean ====
section
/-! DEFINITION. The words claims are stated in: what a state must satisfy to be one the block can be in, what an outcome leaves, and
what a command leaves unchanged. -/
namespace Sys2Proof.Machine

/-- The canonical forms of a state: every sparse map has strictly rising keys, and memory lists no byte that reads as an unlisted one. -/
structure State.Inv (s : State) : Prop where
  regs : Sparse.Wf s.regs
  mem : Memory.Wf s.mem
  crofts : Sparse.Wf s.crofts
  wells : Sparse.Wf s.wells
  pumps : Sparse.Wf s.pumps
  hamlets : Sparse.Wf s.hamlets
  queues : Sparse.Wf s.queues
  links : Sparse.Wf s.links

/-- An outcome is a next state that satisfies `P`. -/
def Leaves (o : Host.Outcome State Fault Refusal) (P : State → Prop) : Prop := ∃ t, o = .next t ∧ P t

/-- A safe run: the next `n` steps answer next states, and each state on the way is in canonical form. -/
def SafeFor : Nat → State → Prop
  | 0, s => s.Inv
  | n + 1, s => s.Inv ∧ Leaves (step s) (SafeFor n)

/-- Whether every command that waits is one the hardware can present. -/
def State.queueWf (s : State) : Bool := s.pending.all Instr.wf

/-! ### Frames -/

/-- What a command may change: registers by BAR0 offset, bytes by local address, records by number, the device record, the outputs and
the count of free values. Where a part is not named, nothing of it changes. -/
structure Touch where
  regs : Nat → Prop := fun _ => False
  mem : Nat → Prop := fun _ => False
  crofts : Nat → Prop := fun _ => False
  wells : Nat → Prop := fun _ => False
  pumps : Nat → Prop := fun _ => False
  hamlets : Nat → Prop := fun _ => False
  queues : Nat → Prop := fun _ => False
  links : Nat → Prop := fun _ => False
  dev : Prop := False
  out : Prop := False
  seq : Prop := False

/-- The effects a frame permits. -/
def Touch.allows (T : Touch) : Act → Prop
  | .reg a _ => T.regs a
  | .regsErase lo hi => ∀ a, lo ≤ a → a < hi → T.regs a
  | .bytes a bs => ∀ x, a ≤ x → x < a + bs.length → T.mem x
  | .memErase lo hi => ∀ x, lo ≤ x → x < hi → T.mem x
  | .croft c _ => T.crofts c
  | .croftErase lo hi => ∀ x, lo ≤ x → x < hi → T.crofts x
  | .well w _ => T.wells w
  | .wellErase lo hi => ∀ x, lo ≤ x → x < hi → T.wells x
  | .pump p _ => T.pumps p
  | .pumpErase lo hi => ∀ x, lo ≤ x → x < hi → T.pumps x
  | .hamlet h _ => T.hamlets h
  | .queue q _ => T.queues q
  | .queueErase lo hi => ∀ x, lo ≤ x → x < hi → T.queues x
  | .link q _ => T.links q
  | .linkErase lo hi => ∀ x, lo ≤ x → x < hi → T.links x
  | .dev _ => T.dev
  | .out _ => T.out
  | .seq => T.seq

/-- From `s` to `t` nothing has changed but what the frame names; the queue of waiting commands and model time never have. -/
structure Keeps (T : Touch) (s t : State) : Prop where
  pending : t.pending = s.pending
  now : t.now = s.now
  regs : ∀ a, ¬ T.regs a → Sparse.get? t.regs a = Sparse.get? s.regs a
  mem : ∀ a, ¬ T.mem a → t.byte a = s.byte a
  crofts : ∀ c, ¬ T.crofts c → t.croft c = s.croft c
  wells : ∀ w, ¬ T.wells w → t.well w = s.well w
  pumps : ∀ p, ¬ T.pumps p → t.pumpRun p = s.pumpRun p
  hamlets : ∀ h, ¬ T.hamlets h → t.hamlet h = s.hamlet h
  queues : ∀ q, ¬ T.queues q → t.queue q = s.queue q
  links : ∀ q, ¬ T.links q → t.link q = s.link q
  dev : ¬ T.dev → t.dev = s.dev
  out : ¬ T.out → t.out = s.out
  seq : ¬ T.seq → t.seq = s.seq

/-- The BAR0 offsets of page `p`. -/
def Page.covers (p : Page) (a : Nat) : Prop := p.base ≤ a ∧ a < p.base + 0x1000

/-- The BAR0 offsets of some pages. -/
def onPages (ps : List Page) (a : Nat) : Prop := ∃ p ∈ ps, p.covers a

/-- The registers of some fields of one page. -/
def theRegs (p : Page) (fs : List Fld) (a : Nat) : Prop := ∃ f ∈ fs, a = p.base + f.off

/-- The BAR0 offsets of some fields of some pages. -/
def someRegs (l : List (Page × List Fld)) (a : Nat) : Prop := ∃ x ∈ l, theRegs x.1 x.2 a

/-- A counter has advanced by `n`. -/
def Counts (s t : State) (p : Page) (f : Fld) (n : Nat) : Prop := t.reg p f.off = satAdd (s.reg p f.off) n

/-- A write of a page's register has had no effect and is counted on the page (R4). -/
def Ignored (s t : State) (p : Page) : Prop := Counts s t p R.IGNORED_CNT 1 ∧ Keeps { regs := theRegs p [R.IGNORED_CNT] } s t

/-- The bytes from `a` on are `bs`. -/
def State.holds (s : State) (a : Nat) (bs : List Byte) : Prop := ∀ i, i < bs.length → s.byte (a + i) = bs.getD i 0

/-- The `k`-th incomplete order of croft `c` waits in its queue, and its engine can take it (R245). -/
def State.mayStart (s : State) (c k : Nat) (o : Issued) : Prop :=
  (s.reeve c).orders[k]? = some o ∧ o.started = false ∧ s.canStart c o.engine = true

/-- The step limiter has counted an order that starts, or has not: which is open (R477). -/
def MayCountHold (s t : State) : Prop :=
  t.reg pgPower R.power_STEP_DELAY_CNT.off = s.reg pgPower R.power_STEP_DELAY_CNT.off ∨ Counts s t pgPower R.power_STEP_DELAY_CNT 1

/-- The reeve with an order started, and with an order complete. -/
def Reeve.begun (r : Reeve) (serial : Nat) : Reeve :=
  { r with orders := r.orders.map (fun o => if o.serial = serial then { o with started := true } else o) }
def Reeve.ended (r : Reeve) (serial : Nat) : Reeve := { r with orders := r.orders.filter (fun o => o.serial != serial) }

/-- Global well `g` takes part in a draw whose inputs are latched. -/
def State.drawing (s : State) (g : Nat) : Bool := (s.croft (g / 16)).runs.any (fun r => r.live && r.args.wells.contains (g % 16))

/-- The registers of some fields of every well of a run of croft `c`. -/
def runRegs (c : Nat) (r : Run) (fs : List Fld) (a : Nat) : Prop := someRegs (r.args.wells.map (fun x => (pgWell (c * 16 + x), fs))) a

/-- Global well `g` is one of a run of croft `c`. -/
def inRun (c : Nat) (r : Run) (g : Nat) : Prop := ∃ x ∈ r.args.wells, g = c * 16 + x

/-- The BAR0 offsets of croft `c`'s block of pages, and of hamlet `h`'s. -/
def inCroft (c a : Nat) : Prop := croftBase c ≤ a ∧ a < croftBase c + 0x40000
def inHamlet (h a : Nat) : Prop := hamletBase h ≤ a ∧ a < hamletBase h + 0x1000000

/-- The local addresses of croft `c`'s slice. -/
def ofSlice (c a : Nat) : Prop := sliceAddr c 0 ≤ a ∧ a < sliceAddr c sliceSize

/-- A run of local addresses. -/
def inRange (a n x : Nat) : Prop := a ≤ x ∧ x < a + n

/-! ### Orders -/

/-- An order stands at croft `c`'s PC and the reeve is free to issue it: it waits on nothing but a place in a queue (R243 to R245). -/
def State.stands (s : State) (c i : Nat) (w : OrderWord) (o : Order) : Prop :=
  s.ready c = .order i w o ∧ ((s.reeve c).wait = .none ∨ (s.reeve c).wait = .queueFull)

/-- The reeve has counted an issue (R270). -/
def CountsIssue (s t : State) (c : Nat) : Prop :=
  t.reg (pgReeve c) R.reeve_ISSUE_CNT.off = satAdd (s.reg (pgReeve c) R.reeve_ISSUE_CNT.off) 1

/-- The order is issued and complete: the reeve waits on nothing and goes on at `j`; the croft's record is otherwise `k`. -/
def GoesOn (s t : State) (c j : Nat) (k : Croft) : Prop :=
  CountsIssue s t c ∧ t.pc c = j ∧ t.croft c = { k with reeve := { k.reeve with wait := .none } }

/-- The order is issued and its wait begins: PC stays at it (R263). -/
def BeginsWait (s t : State) (c : Nat) (w : Wait) : Prop :=
  CountsIssue s t c ∧ t.pc c = s.pc c ∧ t.croft c = { s.croft c with reeve := { s.reeve c with wait := w } }

/-- What the issue of an order may change: PC and ISSUE_CNT of its reeve, and the croft's record. -/
def issueTouch (c : Nat) (more : List Fld) : Touch :=
  { regs := theRegs (pgReeve c) ([R.reeve_PC_INDEX, R.reeve_ISSUE_CNT] ++ more), crofts := (· = c) }

/-- The rows of the MILL operations, with their codes (R184). -/
def millRows (c : CroftId) (st : Stage) : List (Instr × Nat) :=
  [(.add c st, 0x01), (.mul c st, 0x02), (.fma c st, 0x03), (.axpby c st, 0x04), (.relu c st, 0x05), (.gelu c st, 0x06),
   (.silu c st, 0x07), (.exp c st, 0x08), (.log c st, 0x09), (.recip c st, 0x0A), (.sqrt c st, 0x0B), (.rsqrt c st, 0x0C),
   (.div c st, 0x0D), (.rsum c st, 0x10), (.rmax c st, 0x11), (.rdot c st, 0x12), (.normFwdRms c st, 0x18),
   (.normFwdLayer c st, 0x19), (.smaxFwd c st, 0x1A), (.combine c st, 0x20), (.topk c st, 0x21), (.convert c st, 0x22),
   (.optSgd c st, 0x28), (.optMomentum c st, 0x29), (.optAdam c st, 0x2A), (.wellImage c st, 0x30)]

/-- The row of an engine order, its unit by bit of MASK (R253), its engine code (R266), the places of the unit's queue (R245) and what
the reeve waits on after its issue: only a TALLY COMPARE holds it. A MILL order of an operation code has that operation's row. -/
inductive EngineRow (c : CroftId) : Order → Instr → Nat → Nat → Nat → Wait → Prop
  | load (w img : Nat) : EngineRow c (.load w img) (.load c) 0 1 16 .none
  | draw (n a : Nat) : EngineRow c (.draw n a) (.draw c) 0 1 16 .none
  | plumbWindow (ws : Nat) : EngineRow c (.plumb ws false) (.plumbWindow c) 0 7 16 .none
  | plumbSound (ws : Nat) : EngineRow c (.plumb ws true) (.plumbSound c) 0 7 16 .none
  | pump (p sh a : Nat) : EngineRow c (.pump p sh .none a) (.pump c) (p + 1) (p + 2) 4 .none
  | smaxBwd (p sh a : Nat) : EngineRow c (.pump p sh .smaxBwd a) (.smaxBwd c) (p + 1) (p + 2) 4 .none
  | normBwdRms (p sh a : Nat) : EngineRow c (.pump p sh .normBwdRms a) (.normBwdRms c) (p + 1) (p + 2) 4 .none
  | normBwdLayer (p sh a : Nat) : EngineRow c (.pump p sh .normBwdLayer a) (.normBwdLayer c) (p + 1) (p + 2) 4 .none
  | mill (op a : Nat) (i : Instr) (h : (i, op) ∈ millRows c .issue) : EngineRow c (.mill op a) i 5 6 4 .none
  | tallyCompare (g k n a : Nat) : EngineRow c (.tallyCompare g k n a) (.tallyCompare c .issue) 5 8 4 .verdict

/-- The rows by which the reeve of croft `c` issues an order. -/
def issueRows (c : CroftId) : List Instr :=
  [.nop c, .halt c, .fence c, .layerFenceOpen c, .layerFenceClose c, .stepFence c, .loop c, .tokenWait c, .tokenSignal c, .bellAbs c,
   .bellRel c, .seed c, .load c, .draw c, .plumbWindow c, .plumbSound c, .pump c, .smaxBwd c, .normBwdRms c, .normBwdLayer c,
   .tallyFlush c, .tallyClear c, .tallyCompare c .issue, .sluice c] ++ (millRows c .issue).map (·.1)

/-! ### The mill -/

/-- Whether the reeve passed WIDE with the order the mill carries out (R254). -/
def State.millWide (s : State) (c : Nat) (r : MillRun) : Bool := s.orderWide c r.serial

/-- Operand `k` of the mill's order as the mill reads it, row by row (R182, R251). -/
def State.millIn (s : State) (c : Nat) (r : MillRun) (k : Nat) : List (List Val) :=
  match (s.millSlots c r.op 0 r.args (s.millWide c r) r.bnd)[k]? with
  | some t => s.millRows c (s.bit pgNum R.numstep_CFG_HERITAGE) t
  | none => []

/-- 1 for what is so, and 0. -/
def oneIf (b : Bool) : Nat := if b then 1 else 0

/-- The run of a PUMP order after the write of a tile (R169). -/
def PumpRun.wroteTile (r : PumpRun) (k : Conv) (again : Bool) (amax : Val) : PumpRun :=
  { r with
    amax := amax, conv := none, retried := r.retried || again, retryFail := r.retryFail || (again && k.ovf), ovf := r.ovf || k.ovf
    infOut := r.infOut || k.toInf }

/-- Whether no tile of a PUMP order is left to compute. -/
def PumpRun.lastTile (r : PumpRun) : Bool := decide (r.tileRows * r.tileCols ≤ r.tile)

/-- Tile `tc` of the order on pump `g` has been written as conversion `k` gives it, after `peel0` peel entries: counted by what it met, its
bytes in the slice, and the order's record with its last tile; the run goes on, or the pump is idle and the order complete (R64, R166 to R169,
R177, R178, R209). -/
def TileWritten (s t : State) (g : Nat) (r : PumpRun) (tc : TileConv) (k : Conv) (peel0 : Nat) (again : Bool) (amax : Val) : Prop :=
  let c := g / 4
  let p := pgPump g
  let w := s.pumpOut c r
  let r' := r.wroteTile k again amax
  let src := byEngine (2 + g % 4) r.idx
  Counts s t p R.pump_TILE_CNT 1 ∧ Counts s t p R.pump_TRANS_TILE_CNT (oneIf (r.args.a.trans || r.args.b.trans)) ∧
  Counts s t p R.pump_HERITAGE_TILE_CNT (oneIf (s.bit pgNum R.numstep_CFG_HERITAGE)) ∧ Counts s t p R.pump_INF_OUT_CNT (oneIf k.toInf) ∧
  Counts s t p R.pump_OVF_CNT (oneIf k.ovf) ∧ Counts s t p R.pump_RETRY_FAIL_CNT (oneIf (again && k.ovf)) ∧
  t.bit p R.pump_STATUS_RETRYING = false ∧
  (∀ x, t.byte x = ((Prog.all [
    writeTile src c w r.args.m r.args.n (tc.row * (shapeOf r.shape).1) (tc.col * (shapeOf r.shape).2.1) (r.colsIn tc.col) peel0 k,
    Prog.when (r.lastTile && w.smode == 1) (updateRecord src c r.args.rc w.format amax r'.retried)]).run s).byte x) ∧
  (if r.lastTile then
    t.pumpRun g = none ∧ t.bit p R.pump_STATUS_BUSY = false ∧ (t.reeve c).orders = ((s.reeve c).ended r.serial).orders ∧
    (t.reg p R.pump_LAST_DONE_RETRIED.off).toNat = r'.lastDone
   else t.pumpRun g = some r' ∧ (t.reeve c).orders = (s.reeve c).orders)

/-- What the write of a tile without overflow or NaN may change; `TileWritten` says what becomes of every byte. -/
def tileTouch (g : Nat) : Touch :=
  { regs := someRegs [(pgPump g, [R.pump_TILE_CNT, R.pump_TRANS_TILE_CNT, R.pump_HERITAGE_TILE_CNT, R.pump_INF_OUT_CNT,
      R.pump_STATUS_RETRYING, R.pump_LAST_DONE_RETRIED]),
      (pgCroft (g / 4), [R.croft_ZERO_BLK_CNT, R.croft_PEEL_CNT, R.croft_SWAMP_CNT, R.croft_VANISH_CNT, R.croft_SAT_CNT])]
    mem := fun _ => True, crofts := (· = g / 4), pumps := (· = g), seq := True }

/-- Page `p` has entered FAULT; it names `cause` unless it was in FAULT already (R539). -/
def Faults (s t : State) (p : Page) (cause : Nat) : Prop :=
  t.fld p R.STATE_STATE = stFault ∧ (s.fld p R.STATE_STATE ≠ stFault → t.fld p R.FAULT_CAUSE = cause)

/-- The registers a page's fault record and its Crier line take. -/
def faultRegs : List Fld := [R.STATE_STATE, R.FAULT_CAUSE, R.FAULT_ADDR_LO, R.FAULT_ADDR_HI, R.CRIER_LINE_RAISED]

/-- Croft `c`, where it runs, is on its way to a halt (R263). -/
def Halts (s t : State) (c : Nat) : Prop := s.running c = true → (t.reeve c).halting.isSome = true

/-! ### Memory -/

/-- Every word of stripe `st` is a code word and its parity agrees (R298). -/
def State.cleanStripe (s : State) (st : Nat) : Prop :=
  (∀ b < 32, s.flipOf (st * 32 + b) = 0) ∧ s.parityFlip st = 0 ∧ s.parityDiff st = 0

/-- Link `l` has gone down with a cause: its page is in FAULT, the port shows it down and not up, and nothing waits on it (R356, R375). -/
def LinkDowns (s t : State) (l cause : Nat) : Prop :=
  t.linkState l = 4 ∧ t.linkUp l = false ∧ t.linkDowned l = true ∧ t.fld (pgLink l) R.link_LAST_DOWN_CAUSE = cause ∧
  Counts s t (pgLink l) R.link_DOWN_CNT 1 ∧ Faults s t (pgLink l) cause ∧
  (t.link l).tx = [] ∧ (t.link l).replay = [] ∧ (t.link l).ctrl = [] ∧ (t.link l).creplay = []

/-- A retrain of link `l` has started (R355). -/
def Retrains (s t : State) (l : Nat) : Prop :=
  t.linkState l = 3 ∧ t.linkUp l = false ∧ Counts s t (pgLink l) R.link_RETRAIN_CNT 1 ∧
  t.link l = { s.link l with retrainDue := false, wasDown := decide (s.linkState l = 4) } ∧
  Keeps { regs := someRegs [(pgLink l, [R.link_LSTATUS_STATE, R.link_RETRAIN_CNT]), (pgPort, [R.port_STATUS_UP])], links := (· = l),
          dev := True } s t

/-! ### Queues -/

/-- The epoch of queue `q` has advanced: to the next of 16, with its tags free again and the time it was left (R338, R339). -/
def EpochTakes (s t : State) (q : Nat) : Prop :=
  (t.queue q).epoch = ((s.queue q).epoch + 1) % 16 ∧ (t.queue q).tags = [] ∧ (t.queue q).waiting = none ∧
  Sparse.get? (t.queue q).left (s.queue q).epoch = some s.now ∧ (t.queue q).head = (s.queue q).head ∧ (t.queue q).tail = (s.queue q).tail

/-- The advance waits, counted, with the EPOCH descriptor that ordered it, if one did (R339). -/
def EpochWaits (s t : State) (q : Nat) (o : Option Nat) : Prop :=
  (t.queue q).waiting = some o ∧ (t.queue q).epoch = (s.queue q).epoch ∧ Counts s t (pgSluice (qCroft q)) R.sluice_EPOCH_WAIT_CNT 1

/-- Queue `q` left its next epoch less than twice SEG_TIMEOUT ago (R339). -/
def State.leftSoon (s : State) (q : Nat) : Bool :=
  (Sparse.get? (s.queue q).left (((s.queue q).epoch + 1) % 16)).any (fun t0 => decide (s.now < t0 + s.epochGuard q))

/-- What the decoder reports of a frame of link `l` is counted: corrected codewords, codewords it cannot correct, and the bytes corrected on
each lane, held at 0xFFFF_FFFF (R350, R373). -/
def FecCounted (s t : State) (l : Nat) (fixes : List Nat) (flagged : Nat) : Prop :=
  Counts s t (pgLink l) R.link_FEC_CORR_CNT ((List.range 24).filter (fun c => fixes.any (fun j => codewordAt j == c))).length ∧
  Counts s t (pgLink l) R.link_FEC_UNCORR_CNT flagged ∧
  ∀ i < 12,
    let n := (fixes.filter (fun j => j % 12 == i)).length
    let old := (Sparse.get? (s.link l).laneErr i).getD 0
    (Sparse.get? (t.link l).laneErr i).getD 0 = if n = 0 then old else min (old + n) 0xFFFFFFFF

/-! ### What goes outside -/

/-- Steward message `m` waits for the Steward's turns of share 15 of every link that is up, but for the one it came by (R424). -/
def Floods (s t : State) (m : StewMsg) (skip : Option Nat) : Prop :=
  ∀ q < 16, t.link q = if s.linkUp q = true ∧ skip ≠ some q
    then { s.link q with tx := Sparse.set (s.link q).tx 16 ((Sparse.get? (s.link q).tx 16).getD [] ++ [⟨0, .steward m⟩]) }
    else s.link q

/-- Steward message `m` is among what waits for the Steward's turns of every link that is up, but for the one it came by (R424). -/
def Forwards (s t : State) (m : StewMsg) (skip : Option Nat) : Prop :=
  ∀ q < 16, s.linkUp q = true → skip ≠ some q → ⟨0, .steward m⟩ ∈ (t.link q).waiting 16

/-- A write to a register of page `p` reaches it: the device is at READY, and the page is not under reset (R18, R444, R499). -/
def State.reaches (s : State) (who : Agent) (p : Page) : Prop :=
  s.shut who p = false ∧ (s.underReset p = true → p = pgDevctl)

/-- A message of another Steward that this one has not heard (R424). -/
def State.newMsg (s : State) (m : StewMsg) : Prop := s.dev.heard.contains m = false ∧ stewOrigin m ≠ s.self

/-- What the failure of a snapshot leaves (R423). -/
def SnapFailed (s t : State) (cause : Nat) : Prop :=
  t.dev.snap = none ∧ t.dev.pendingB = some (max (s.dev.pendingB.getD 0) (s.stepIndex + 1)) ∧ t.fld pgBucket R.bucket_STATUS_SNAP = 0 ∧
  t.bit pgBucket R.bucket_STATUS_HELD = false ∧ Counts s t pgBucket R.bucket_FAIL_CNT 1 ∧ t.fld pgBucket R.STATE_STATE = stFault ∧
  (s.fld pgBucket R.STATE_STATE ≠ stFault → t.fld pgBucket R.FAULT_CAUSE = cause)

/-! ### The host -/

/-- A BAR2 access of the host at offset `o` meets nothing that ends it before its address is looked at (R439, R442, R444, R447). -/
def State.hostMayGo (s : State) (o : Nat) (ide : Bool) : Prop :=
  (s.bit pgHost R.host_CFG_IDE_REQ = true → ide = true) ∧ s.deviceReset = false ∧ s.atReady = true ∧ s.fullRate = true ∧
  s.enabled pgHost = true ∧ s.windowAddr o % 2 ^ 48 / 2 ^ 28 ≠ 0x20000

/-- A host access has ended without being carried out: counted, logged unless a record is held, and a read answered (R444). -/
def HostEnds (s t : State) (bar kind : Nat) (write : Bool) (off : Nat) : Prop :=
  Counts s t pgHost (endCounter kind) 1 ∧ t.bit pgHost R.host_ERR_LOG_VALID = true ∧
  (s.bit pgHost R.host_ERR_LOG_VALID = false → t.fld pgHost R.host_ERR_LOG_KIND = kind ∧ t.fld pgHost R.host_ERR_LOG_BAR = bar ∧
    t.bit pgHost R.host_ERR_LOG_WRITE = write ∧ (t.reg pgHost R.host_ERR_ADDR_LO.off).toNat = off % 2 ^ 32) ∧
  t.out = s.out ++ (if write then [] else [if kind = endUR then .ur else .ca])

/-- The registers such an end takes. -/
def hostEndRegs (kind : Nat) : List Fld :=
  [endCounter kind, R.host_ERR_LOG_VALID, R.host_ERR_ADDR_LO, R.host_ERR_ADDR_HI, R.CRIER_LINE_RAISED]

/-- The Steward's response to request `r` stands, and the mailbox is free for the next (R449, R450). -/
def Responds (t : State) (r : Request) (result : Nat) (payload : List Byte) : Prop :=
  t.dev.host.mailbox.mstate = 2 ∧ t.dev.host.mailbox.rspSeq = r.seq ∧ t.dev.host.mailbox.serving = none ∧
  t.dev.host.mailbox.response =
    toLe 4 r.op ++ toLe 4 r.seq.toNat ++ toLe 4 payload.length ++ toLe 4 result ++ List.replicate 16 0 ++ payload

/-- Orarn answers an SPDM request now (R531). -/
def State.spdmFree (s : State) : Prop := s.bit pgOrarn R.orarn_STATUS_BUSY = false ∧ s.dev.host.mailbox.mstate ≠ 3

/-! ### Power and Gauge -/

/-- A power fault with its cause and the rail it names (R486). -/
def PowerFaults (s t : State) (cause rail : Nat) : Prop :=
  Faults s t pgPower cause ∧ (s.fld pgPower R.STATE_STATE ≠ stFault → (t.reg pgPower R.FAULT_ADDR_LO.off).toNat = rail)

/-- Main power is gone: no register is written and no memory holds a byte, every unit is in reset, and the board flash stands (R480, R496). -/
def MainPowerOff (s t : State) : Prop :=
  t.dev.power.level = .off ∧ (∀ a < 0x10000000, Sparse.get? t.regs a = none) ∧ (∀ a < 0x200000000000, t.byte a = 0) ∧
  t.dev.resets = [⟨.device, true⟩] ∧ (∀ c < 128, t.croft c = {}) ∧ (∀ w < 2048, t.well w = {}) ∧ (∀ q < 16384, t.queue q = {}) ∧
  t.dev.boot.defects = s.dev.boot.defects ∧ t.dev.boot.flash = s.dev.boot.flash ∧ t.dev.boot.starts = s.dev.boot.starts ∧
  t.dev.boot.strap = s.dev.boot.strap ∧ t.dev.boot.trim = s.dev.boot.trim ∧ t.dev.boot.enrol = s.dev.boot.enrol ∧ t.pending = s.pending ∧
  t.now = s.now ∧ t.out = s.out

/-- A start of Gauge's sequence `q`: it pends, or is dropped and counted while the sequence pends or runs; a sequence without entries and a
page not enabled start nothing (R488, R489). -/
def GaugeStarts (s t : State) (q : Nat) : Prop :=
  (s.enabled pgGauge = false ∨ s.seqLen q = 0 → t.regs = s.regs) ∧
  (s.enabled pgGauge = true → s.seqLen q ≠ 0 → s.seqBusy q = true → Counts s t pgGauge R.gauge_SKIP_CNT 1 ∧
    ∀ j < 4, t.seqPending j = s.seqPending j ∧ t.seqRunning j = s.seqRunning j) ∧
  (s.enabled pgGauge = true → s.seqLen q ≠ 0 → s.seqBusy q = false → t.seqPending q = true ∧
    ∀ j < 4, j ≠ q → t.seqPending j = s.seqPending j ∧ t.seqRunning j = s.seqRunning j)

/-! ### Starts and resets -/

/-- A start has stopped with a code: every croft is in reset, FAULT_N is asserted, and the device control page holds the record (R514). -/
def StartStops (s t : State) (code addr : Nat) : Prop :=
  t.dev.faultN = true ∧ t.dev.resets = allCrofts.map (fun c => ⟨.croft c, true⟩) ∧ t.dev.boot.loads = [] ∧ t.bootPhase = phStopped ∧
  t.fld pgDevctl R.devctl_BOOT_STOP = code ∧ (t.reg pgDevctl R.FAULT_CAUSE.off).toNat = code ∧
  (t.reg pgDevctl R.FAULT_ADDR_LO.off).toNat = addr % 2 ^ 32 ∧ (t.reg pgDevctl R.FAULT_ADDR_HI.off).toNat = addr / 2 ^ 32 % 2 ^ 32 ∧
  Keeps { regs := theRegs pgDevctl [R.devctl_BOOT_PHASE, R.FAULT_CAUSE, R.FAULT_ADDR_LO, R.FAULT_ADDR_HI], dev := True } s t

/-- Every core of the crofts `cs` that is not retired is held until its whole image is present (R502). -/
def HoldsCores (s t : State) (cs : List Nat) : Prop :=
  ∀ c ∈ cs, ∀ p ∈ coresOf c, s.retiredCore p = false → ⟨p, List.range (packetsOf p), 0⟩ ∈ t.dev.boot.loads

/-- A device reset has begun with its cause: every unit but the exceptions of R510 is in reset, and memory stands (R15, R510). -/
def DeviceResets (s t : State) (cause : Nat) : Prop :=
  t.dev.resets = [⟨.device, true⟩] ∧ t.fld pgDevctl R.devctl_RESET_CAUSE_LAST = cause ∧ Counts s t pgDevctl R.devctl_DEV_RST_CNT 1 ∧
  t.bootPhase = 0 ∧ t.dev.boot.wasStopped = decide (s.bootPhase = phStopped) ∧ t.dev.faultN = false ∧
  (∀ c < 128, t.croft c = {}) ∧ (∀ w < 2048, t.well w = {}) ∧ (∀ g < 512, t.pumpRun g = none) ∧ (∀ q < 16384, t.queue q = {}) ∧
  (∀ l < 16, t.link l = {}) ∧ t.dev.bell = s.dev.bell ∧ t.dev.power.level = s.dev.power.level ∧ t.mem = s.mem ∧ t.out = s.out

/-- The traffic absorbed for page `p` (R16). -/
def State.absorbed (s : State) (p : Page) : Nat := (Sparse.get? s.dev.absorbed p.base).getD 0

/-- The reeve and the engines of croft `c` have stopped, its incomplete orders are absorbed and counted, and its incarnation has
advanced (R15, R16, R339, R341). -/
def CroftStops (s t : State) (c : Nat) : Prop :=
  (t.reeve c).orders = [] ∧ t.absorbed (pgCroft c) = s.absorbed (pgCroft c) + (s.reeve c).orders.length ∧
  t.inc c = (s.inc c + 1) % 16 ∧ (∀ w, w / 16 = c → t.well w = {}) ∧ (∀ g, g / 4 = c → t.pumpRun g = none)

/-- A write of a page's register before READY or under reset: the rows, with the page and the register's offset (R18, R499). -/
inductive WriteRow (who : Agent) : Instr → Page → Nat → Prop
  | croftReset (c : CroftId) : WriteRow who (.croftReset who c) (pgCroft c.val) R.CTL_ENABLE.off
  | hamletReset (h : HamletId) : WriteRow who (.hamletReset who h) (pgHamlet h.val) R.CTL_ENABLE.off
  | coreReset (pg : BitVec 16) (p : Page) : pageOf pg = some p → WriteRow who (.coreReset who pg) p R.CTL_RESET_REQ.off
  | enableSet (pg : BitVec 16) (p : Page) : pageOf pg = some p → WriteRow who (.enableSet who pg) p R.CTL_ENABLE.off
  | enableClear (pg : BitVec 16) (p : Page) : pageOf pg = some p → WriteRow who (.enableClear who pg) p R.CTL_ENABLE.off
  | planStart (b : Bool) : WriteRow who (.planStart who b) pgPlan R.plan_CMD_OP.off
  | stopAtStepBoundary : WriteRow who (.stopAtStepBoundary who) pgPlan R.plan_CMD_OP.off
  | haltNow : WriteRow who (.haltNow who) pgPlan R.plan_CMD_OP.off
  | registerWrite (a : BitVec 28) (bs : List Byte) (ide : Bool) (p : Page) : pageAt a.toNat = some p → a.toNat % 4 = 0 → bs.length = 4 →
      WriteRow who (.registerWrite who false a bs ide) p (a.toNat % 0x1000)

/-- The kinds of page whose registers but CTL, CRIER_LINE and CNT_CLEAR only store and clear. -/
def plainKinds : List Kind :=
  [.devctl, .host, .orarn, .power, .fabric, .port, .bell, .window, .watch, .feed, .defect, .hamlet, .granary, .mill, .sluice, .plumb, .tally,
   .pump, .own, .cistern, .well]

end Sys2Proof.Machine
end

