-- ==== Sys2Proof/Certificates/Slice0/Obligations.lean ====
section
/-! DEFINITION. The statements for the provers: what each family of commands does, by the numbered rules of the spec. A statement with several
parts is their conjunction, one part for each kind of command it names. -/
open Sys2Proof Sys2Proof.Machine

/-! ### Steps and states -/

/-- A step takes the command at the front of the queue and is that command on the state with the queue's rest. -/
def Obligations.StepRunsTheFront : Prop :=
  ∀ (c : Instr) (cs : List Instr) (s : State), step { s with pending := c :: cs } = exec c { s with pending := cs }

/-- The model's choice (assumption 1): with no command waiting, a step is one nanosecond of model time, in which the Bell counts its rate
and nothing else changes. -/
def Obligations.IdleStepIsOneNanosecond : Prop :=
  ∀ s : State, s.pending = [] →
    step s = .next { s with now := s.now + 1, dev := { s.dev with bell := s.dev.bell + s.bellRate } }

/-- Every command answers a next state: none stops the block. The queue and model time stay, and what went outside stays. -/
def Obligations.EveryCommandAnswers : Prop :=
  ∀ (i : Instr) (s : State), Leaves (exec i s) (fun t => t.pending = s.pending ∧ t.now = s.now ∧ s.seq ≤ t.seq ∧ s.out <+: t.out)

/-- R6, R20: right after reset every register reads its reset value, every byte reads zero (for the granaries, whose contents the spec
leaves open, the model's choice: DESIGN CHOICE, assumption 3), no command waits. -/
def Obligations.ResetState : Prop :=
  (∀ p o, State.reset.reg p o = resetWord p o) ∧ (∀ a, State.reset.byte a = 0) ∧ State.reset.pending = [] ∧ State.reset.Inv

/-- Every step keeps the canonical forms of the register file, the memory and the records. -/
def Obligations.StepKeepsInv : Prop := ∀ s t : State, s.Inv → step s = .next t → t.Inv

/-! ### The reeve -/

/-- R244, R246: a NOP completes at issue. R260: a LOOP loads COUNT − 1 into its loop register where that is idle, jumps while the count is
not used up and counts down, and falls through with the register idle after the last pass. R257: a TOKEN SIGNAL enters the list of pending
signals and completes at issue while the list has fewer than 16; a 17th waits. R254, R256, R277: a TOKEN WAIT is issued and its wait begins,
counted where the token's count is short; on a span's repeat it completes at issue without consuming, except on the phase token, which waits
as ever. R262, R253, R254, R255, R46: HALT, the FENCE forms and SEED are issued and their wait begins; PC stays at the order. -/
def Obligations.OrdersIssue : Prop :=
  (
  ∀ (s : State) (c : CroftId) (i : Nat) (w : OrderWord), s.stands c.val i w .nop →
    Leaves (exec (.nop c) s) (fun t => GoesOn s t c.val (nextIdx i) (s.croft c.val) ∧ Keeps (issueTouch c.val []) s t)
  ) ∧
  (
  ∀ (s : State) (c : CroftId) (i : Nat) (w : OrderWord) (l count target : Nat), s.stands c.val i w (.loop l count target) →
    l < (s.reeve c.val).loops.length →
    Leaves (exec (.loop c) s) (fun t =>
      (∀ n, (s.reeve c.val).loops[l]? = some ⟨n + 1, true⟩ ∨ ((∃ k, (s.reeve c.val).loops[l]? = some ⟨k, false⟩) ∧ count = n + 2) →
        GoesOn s t c.val target { s.croft c.val with
          reeve := { s.reeve c.val with loops := (s.reeve c.val).loops.set l ⟨n, true⟩ } }) ∧
      ((s.reeve c.val).loops[l]? = some ⟨0, true⟩ ∨ ((∃ k, (s.reeve c.val).loops[l]? = some ⟨k, false⟩) ∧ count = 1) →
        GoesOn s t c.val (nextIdx i) { s.croft c.val with
          reeve := { s.reeve c.val with loops := (s.reeve c.val).loops.set l ⟨0, false⟩ } }) ∧
      Keeps (issueTouch c.val []) s t)
  ) ∧
  (
  ∀ (s : State) (c : CroftId) (i : Nat) (w : OrderWord) (tok n dst mask : Nat), s.stands c.val i w (.tokenSignal tok n dst mask) →
    Leaves (exec (.tokenSignal c) s) (fun t =>
      (if (s.reeve c.val).pend.length < 16 then
        GoesOn s t c.val (nextIdx i) { s.croft c.val with
          reeve := { s.reeve c.val with pend := (s.reeve c.val).pend ++ [⟨(s.reeve c.val).serial, i, w⟩] } }
       else t.pc c.val = s.pc c.val ∧ t.croft c.val = { s.croft c.val with reeve := { s.reeve c.val with wait := .queueFull } } ∧
         t.regs = s.regs) ∧
      Keeps (issueTouch c.val []) s t)
  ) ∧
  (
  ∀ (s : State) (c : CroftId) (i : Nat) (w : OrderWord) (tok n : Nat), s.stands c.val i w (.tokenWait tok n) →
    Leaves (exec (.tokenWait c) s) (fun t =>
      (if (s.reeve c.val).wide = true ∧ s.isPhaseToken c.val tok = false then GoesOn s t c.val (nextIdx i) (s.croft c.val)
       else BeginsWait s t c.val .token) ∧
      t.reg (pgReeve c.val) R.reeve_TOKEN_WAIT_CNT.off =
        (if (s.reeve c.val).wide = false ∧ (s.reeve c.val).token tok < n then satAdd (s.reg (pgReeve c.val) R.reeve_TOKEN_WAIT_CNT.off) 1
         else s.reg (pgReeve c.val) R.reeve_TOKEN_WAIT_CNT.off) ∧
      Keeps (issueTouch c.val [R.reeve_TOKEN_WAIT_CNT]) s t)
  ) ∧
  (
  ∀ (s : State) (c : CroftId) (i : Nat) (w : OrderWord) (r : Instr) (o : Order) (wt : Wait), s.stands c.val i w o →
    (∃ code, r = .halt c ∧ o = .halt code ∧ wt = .haltOrder) ∨
    (∃ m cl, r = .fence c ∧ o = .fence m false cl false ∧ wt = .fence) ∨
    (∃ m, r = .layerFenceOpen c ∧ o = .fence m true false false ∧ wt = .fence) ∨
    (∃ m, r = .layerFenceClose c ∧ o = .fence m true true false ∧ wt = .fence) ∨
    (∃ m cl, r = .stepFence c ∧ o = .fence m false cl true ∧ wt = .fence) ∨
    (∃ v, r = .seed c ∧ o = .seed v ∧ wt = .seed) →
    Leaves (exec r s) (fun t => BeginsWait s t c.val wt ∧ Keeps (issueTouch c.val []) s t)
  )

/-- R259: a BELL order waits until the Bell view reaches its target, TIME in ABS mode and STEP_BELL + TIME in REL mode; a target already
passed completes it at once and advances BELL_LATE_CNT. R259: a BELL order completes once the Bell has reached its target, and not before. -/
def Obligations.BellOrdersWaitForTheirTarget : Prop :=
  (
  ∀ (s : State) (c : CroftId) (i : Nat) (w : OrderWord) (rel : Bool) (time : Nat), s.stands c.val i w (.bell rel time) →
    Leaves (exec (if rel then .bellRel c else .bellAbs c) s) (fun t =>
      (if (if rel then s.stepBell c.val + time else time) ≤ s.bellNow then
        GoesOn s t c.val (nextIdx i) (s.croft c.val) ∧
        t.reg (pgReeve c.val) R.reeve_BELL_LATE_CNT.off = satAdd (s.reg (pgReeve c.val) R.reeve_BELL_LATE_CNT.off) 1
       else BeginsWait s t c.val (.bell (if rel then s.stepBell c.val + time else time)) ∧
        t.reg (pgReeve c.val) R.reeve_BELL_LATE_CNT.off = s.reg (pgReeve c.val) R.reeve_BELL_LATE_CNT.off) ∧
      Keeps (issueTouch c.val [R.reeve_BELL_LATE_CNT]) s t)
  ) ∧
  (
  ∀ (s : State) (c : CroftId) (i target : Nat) (w : OrderWord) (o : Order),
    (s.reeve c.val).wait = .bell target → s.waiting c.val = some (i, w, o) → nextIdx i < 2 ^ 24 →
    (s.bellNow < target → exec (.bellWaitComplete c) s = .next s) ∧
    (target ≤ s.bellNow → Leaves (exec (.bellWaitComplete c) s) (fun t => t.pc c.val = nextIdx i ∧
      t.croft c.val = { s.croft c.val with reeve := { s.reeve c.val with wait := .none } } ∧
      Keeps { regs := theRegs (pgReeve c.val) [R.reeve_PC_INDEX], crofts := (· = c.val) } s t))
  )

/-- R245, R246, R253, R266: an order of an engine enters its unit's queue while that has a place, 16 for the wells and 4 for each pump and
the mill, and issue goes on, but for a TALLY COMPARE, which holds the reeve for its verdict. R245, R270: while its unit's queue is full an
order waits, the reeve does not go on, and QFULL_CNT advances once for it. -/
def Obligations.EngineOrdersAreQueued : Prop :=
  (
  ∀ (s : State) (c : CroftId) (i : Nat) (w : OrderWord) (o : Order) (r : Instr) (unit engine cap : Nat) (after : Wait),
    s.stands c.val i w o → EngineRow c o r unit engine cap after → (s.reeve c.val).queued unit < cap →
    Leaves (exec r s) (fun t =>
      CountsIssue s t c.val ∧
      t.croft c.val = { s.croft c.val with reeve := { s.reeve c.val with
        orders := (s.reeve c.val).orders ++ [⟨(s.reeve c.val).serial, i, w, unit, engine, false, (s.reeve c.val).wide⟩]
        serial := (s.reeve c.val).serial + 1, wait := after } } ∧
      t.pc c.val = (if after = .none then nextIdx i else s.pc c.val) ∧
      Keeps (issueTouch c.val []) s t)
  ) ∧
  (
  ∀ (s : State) (c : CroftId) (i : Nat) (w : OrderWord) (o : Order) (r : Instr) (unit engine cap : Nat) (after : Wait),
    s.stands c.val i w o → EngineRow c o r unit engine cap after → cap ≤ (s.reeve c.val).queued unit →
    Leaves (exec r s) (fun t =>
      t.pc c.val = s.pc c.val ∧ t.croft c.val = { s.croft c.val with reeve := { s.reeve c.val with wait := .queueFull } } ∧
      t.reg (pgReeve c.val) R.reeve_QFULL_CNT.off =
        (if (s.reeve c.val).wait = .queueFull then s.reg (pgReeve c.val) R.reeve_QFULL_CNT.off
         else satAdd (s.reg (pgReeve c.val) R.reeve_QFULL_CNT.off) 1) ∧
      Keeps { regs := theRegs (pgReeve c.val) [R.reeve_QFULL_CNT], crofts := (· = c.val) } s t)
  )

/-- R227, R246, R254: TALLY FLUSH adds the slot to its device entry and clears it, TALLY CLEAR clears its range of slots; each completes at
issue, and on a span's repeat does nothing else. R246, R274, R324, R327: a SLUICE order of an enabled queue that the stream owns and that
has room rings its doorbell and completes at issue. -/
def Obligations.TallyAndSluiceOrdersComplete : Prop :=
  (
  (∀ (s : State) (c : CroftId) (i : Nat) (w : OrderWord) (slot entry : Nat), s.stands c.val i w (.tallyFlush slot entry) →
    Leaves (exec (.tallyFlush c) s) (fun t =>
      (if (s.reeve c.val).wide then GoesOn s t c.val (nextIdx i) (s.croft c.val) ∧ t.dev = s.dev
       else
        let x := (Sparse.get? (s.croft c.val).tally slot).getD ⟨none, 0⟩
        let e := (Sparse.get? s.dev.entries entry).getD {}
        let old := (Sparse.get? e.slots c.val).getD ⟨none, 0⟩
        GoesOn s t c.val (nextIdx i) { s.croft c.val with tally := Sparse.eraseRange (s.croft c.val).tally slot (slot + 1) } ∧
        t.reg (pgTally c.val) R.tally_FLUSH_CNT.off = satAdd (s.reg (pgTally c.val) R.tally_FLUSH_CNT.off) 1 ∧
        let e' : TallyEntry := { e with slots := Sparse.set e.slots c.val ⟨Pair.merge old.pair x.pair, old.nf + x.nf⟩ }
        t.dev = { s.dev with entries := Sparse.set s.dev.entries entry e' }) ∧
      Keeps { regs := fun a => theRegs (pgReeve c.val) [R.reeve_PC_INDEX, R.reeve_ISSUE_CNT] a ∨ theRegs (pgTally c.val) [R.tally_FLUSH_CNT] a,
              crofts := (· = c.val), dev := True } s t)) ∧
  (∀ (s : State) (c : CroftId) (i : Nat) (w : OrderWord) (first last : Nat), s.stands c.val i w (.tallyClear first last) →
    Leaves (exec (.tallyClear c) s) (fun t =>
      GoesOn s t c.val (nextIdx i) (if (s.reeve c.val).wide then s.croft c.val
        else { s.croft c.val with tally := Sparse.eraseRange (s.croft c.val).tally first (last + 1) }) ∧
      Keeps (issueTouch c.val []) s t))
  ) ∧
  (
  ∀ (s : State) (c : CroftId) (i : Nat) (w : OrderWord) (j n : Nat), s.stands c.val i w (.sluice j n) →
    s.enabled (pgQueue (c.val * 128 + j)) = true → s.queueOwner c.val j = 1 → s.hasRoom (c.val * 128 + j) n = true →
    Leaves (exec (.sluice c) s) (fun t =>
      GoesOn s t c.val (nextIdx i) (s.croft c.val) ∧
      t.queue (c.val * 128 + j) = { s.queue (c.val * 128 + j) with
        tail := (s.queue (c.val * 128 + j)).tail + n, owner := 1, order := i } ∧
      Keeps { issueTouch c.val [] with queues := (· = c.val * 128 + j) } s t)
  )

/-- R266, R271: where the order at PC cannot be issued, every issue row stops the reeve: its page reads FAULT with the cause and the
record's address, its line is raised, FAULT_IDX names the order, and the croft halts with reason 3; no order is issued. The model's readings
it rests on: assumption 32. -/
def Obligations.BadOrderStopsTheReeve : Prop :=
  ∀ (s : State) (c : CroftId) (r : Instr) (cause addr : Nat), r ∈ issueRows c → s.ready c.val = .stop cause addr →
    cause < 2 ^ 32 → s.fld (pgReeve c.val) R.STATE_STATE ≠ stFault →
    Leaves (exec r s) (fun t =>
      t.fld (pgReeve c.val) R.STATE_STATE = stFault ∧ t.fld (pgReeve c.val) R.FAULT_CAUSE = cause ∧
      t.fld (pgReeve c.val) R.FAULT_ADDR_LO = addr % 2 ^ 32 ∧ t.fld (pgReeve c.val) R.CRIER_LINE_RAISED = 1 ∧
      t.fld (pgReeve c.val) R.reeve_FAULT_IDX_INDEX = s.pc c.val ∧
      t.fld (pgReeve c.val) R.reeve_STATUS_HALT_REASON = 3 ∧ (t.reeve c.val).halting = some 3 ∧
      (t.reeve c.val).orders = (s.reeve c.val).orders ∧ t.pc c.val = s.pc c.val ∧
      t.dev = { s.dev with stepEnd := true, stepAlarm := true, watchDue := s.dev.watchDue ++ [14] } ∧
      Keeps { regs := (pgReeve c.val).covers, crofts := (· = c.val), dev := True } s t)

/-- R253, R254: a FENCE completes once the units of its MASK have, and its pending signals where it names them, and the reeve goes on; an
opening FENCE of a layer, which waits for all of them, opens its span and keeps the phase. Until then the FENCE waits with no effect. R254:
a closing FENCE whose span is not to be repeated closes it: WIDE clears and the reeve goes on. R213, R216, R278: a closing FENCE whose span
reported OVF repeats it once a step: LREPEAT_CNT advances, WIDE is set, the phase saved at the opening FENCE returns, SCALE of each record
that reported it rises by 4 and its CORRECT_CNT advances, and the reeve goes on after that FENCE. The layer falls back, which may halt the
device's crofts. -/
def Obligations.FencesAndSpansEnd : Prop :=
  (
  ∀ (s : State) (c : CroftId) (i : Nat) (w : OrderWord) (mask : Nat) (layer close : Bool),
    (s.reeve c.val).wait = .fence → s.waiting c.val = some (i, w, .fence mask layer close false) → nextIdx i < 2 ^ 24 →
    let ends := (s.reeve c.val).drained (if layer then 0x3F else mask) = true ∧
      (layer = true ∨ mask / 64 % 2 = 1 → (s.reeve c.val).pend = [])
    (¬ ends → exec (.fenceComplete c) s = .next s) ∧
    (ends → layer = false → Leaves (exec (.fenceComplete c) s) (fun t =>
      t.pc c.val = nextIdx i ∧ t.croft c.val = { s.croft c.val with reeve := { s.reeve c.val with wait := .none } } ∧
      Keeps { regs := theRegs (pgReeve c.val) [R.reeve_PC_INDEX], crofts := (· = c.val) } s t)) ∧
    (ends → layer = true → close = false → Leaves (exec (.fenceComplete c) s) (fun t =>
      t.pc c.val = nextIdx i ∧
      t.croft c.val = { s.croft c.val with reeve := { s.reeve c.val with
        span := some (i, orderLayer w), spanOvf := false, spanRecs := [], wait := .none } } ∧
      t.fld (pgReeve c.val) R.reeve_SPAN_OPEN_IDX = i ∧ t.fld (pgOwn c.val) R.own_STATUS_SPAN_PHASE = s.phase c.val ∧
      t.phase c.val = s.phase c.val ∧
      Keeps { regs := someRegs [(pgReeve c.val, [R.reeve_PC_INDEX, R.reeve_SPAN_OPEN_IDX]), (pgOwn c.val, [R.own_STATUS_SPAN_PHASE])],
              crofts := (· = c.val) } s t))
  ) ∧
  (
  ∀ (s : State) (c : CroftId) (i : Nat) (w : OrderWord) (mask : Nat),
    (s.reeve c.val).wait = .fence → s.waiting c.val = some (i, w, .fence mask true true false) → nextIdx i < 2 ^ 24 →
    (s.reeve c.val).drained 0x3F = true → (s.reeve c.val).pend = [] →
    ((s.reeve c.val).spanOvf = false ∨ (s.reeve c.val).wide = true ∨
      ((s.reeve c.val).span.getD (0, 0)).1 ∈ (s.reeve c.val).repeated) →
    Leaves (exec (.fenceComplete c) s) (fun t =>
      t.pc c.val = nextIdx i ∧
      t.croft c.val = { s.croft c.val with
        reeve := { s.reeve c.val with wide := false, span := none, spanOvf := false, spanRecs := [], wait := .none }
        wideRefs := [] } ∧
      Keeps { regs := theRegs (pgReeve c.val) [R.reeve_PC_INDEX], crofts := (· = c.val) } s t)
  ) ∧
  (
  ∀ (s : State) (c : CroftId) (i : Nat) (w : OrderWord) (mask a layer : Nat),
    (s.reeve c.val).wait = .fence → s.waiting c.val = some (i, w, .fence mask true true false) →
    (s.reeve c.val).span = some (a, layer) → nextIdx a < 2 ^ 24 →
    (s.reeve c.val).drained 0x3F = true → (s.reeve c.val).pend = [] →
    (s.reeve c.val).spanOvf = true → (s.reeve c.val).wide = false → a ∉ (s.reeve c.val).repeated →
    ((s.reeve c.val).spanRecs = [] ∨ s.intact = true) → (s.reeve c.val).spanRecs.Pairwise (fun x y => x + 16 ≤ y ∨ y + 16 ≤ x) →
    Leaves (exec (.fenceComplete c) s) (fun t =>
      t.pc c.val = nextIdx a ∧ t.phase c.val = s.fld (pgOwn c.val) R.own_STATUS_SPAN_PHASE ∧
      (t.reeve c.val).wide = true ∧ (t.reeve c.val).span = some (a, layer) ∧ (t.reeve c.val).spanOvf = false ∧
      (t.reeve c.val).repeated = (s.reeve c.val).repeated ++ [a] ∧ (t.reeve c.val).wait = .none ∧
      t.reg pgNum R.numstep_LREPEAT_CNT.off = satAdd (s.reg pgNum R.numstep_LREPEAT_CNT.off) 1 ∧
      t.reg pgNum R.numstep_FALLBACK_CNT.off = satAdd (s.reg pgNum R.numstep_FALLBACK_CNT.off) 1 ∧
      (∀ o ∈ (s.reeve c.val).spanRecs, t.sl c.val o 1 = min 0xFE (s.sl c.val o 1 + 4) ∧
        t.sl c.val (o + 8) 4 = (s.sl c.val (o + 8) 4 + 1) % 2 ^ 32) ∧
      (∀ x, (∀ o ∈ (s.reeve c.val).spanRecs, x ≠ sliceAddr c.val o ∧ ¬ inRange (sliceAddr c.val (o + 8)) 4 x) → t.byte x = s.byte x))
  )

/-- R256, R277, R278: a TOKEN WAIT whose count suffices consumes it and completes; on the phase token, the engine orders before it complete,
the phase advances by one modulo NPHASE and PHASE_ADV_CNT advances; on a span's repeat nothing is consumed. R256: a TOKEN WAIT whose count
is short goes on waiting, with no effect. R45, R46: once every earlier order that writes rounded results has completed, a SEED order loads
all 384 lanes of its croft from its seed, and the reeve goes on. -/
def Obligations.TokenWaitsAndSeedsEnd : Prop :=
  (
  ∀ (s : State) (c : CroftId) (i : Nat) (w : OrderWord) (tok n : Nat),
    (s.reeve c.val).wait = .token → s.waiting c.val = some (i, w, .tokenWait tok n) → nextIdx i < 2 ^ 24 →
    s.fld (pgOwn c.val) R.own_CFG_NPHASE ≤ 16 →
    (s.isPhaseToken c.val tok = true → (s.reeve c.val).drained 0x3F = true) →
    ((s.reeve c.val).wide = true ∨ n ≤ (s.reeve c.val).token tok) →
    Leaves (exec (.tokenWaitComplete c) s) (fun t =>
      t.pc c.val = nextIdx i ∧
      t.croft c.val = { s.croft c.val with reeve := { s.reeve c.val with
        tokens := if (s.reeve c.val).wide then (s.reeve c.val).tokens
          else Sparse.set (s.reeve c.val).tokens tok ((s.reeve c.val).token tok - n)
        wait := .none } } ∧
      (if s.isPhaseToken c.val tok then
        t.phase c.val = (s.phase c.val + 1) % s.fld (pgOwn c.val) R.own_CFG_NPHASE ∧
        t.reg (pgOwn c.val) R.own_PHASE_ADV_CNT.off = satAdd (s.reg (pgOwn c.val) R.own_PHASE_ADV_CNT.off) 1
       else t.phase c.val = s.phase c.val) ∧
      Keeps { regs := fun a => theRegs (pgReeve c.val) [R.reeve_PC_INDEX] a ∨
                theRegs (pgOwn c.val) [R.own_STATUS_PHASE, R.own_PHASE_ADV_CNT] a,
              crofts := (· = c.val) } s t)
  ) ∧
  (
  ∀ (s : State) (c : CroftId) (i : Nat) (w : OrderWord) (tok n : Nat),
    (s.reeve c.val).wait = .token → s.waiting c.val = some (i, w, .tokenWait tok n) →
    (s.reeve c.val).wide = false → (s.reeve c.val).token tok < n → exec (.tokenWaitComplete c) s = .next s
  ) ∧
  (
  ∀ (s : State) (c : CroftId) (i : Nat) (w : OrderWord) (v : BitVec 32),
    (s.reeve c.val).wait = .seed → s.waiting c.val = some (i, w, .seed v) → nextIdx i < 2 ^ 24 →
    (∀ o ∈ (s.reeve c.val).orders, o.rounds = false) →
    Leaves (exec (.seedLoad c) s) (fun t =>
      t.pc c.val = nextIdx i ∧ t.reg (pgCroft c.val) R.croft_SEED_LAST.off = v ∧
      t.croft c.val = { s.croft c.val with lanes := [], laneRan := 0, laneSeed := v, reeve := { s.reeve c.val with wait := .none } } ∧
      Keeps { regs := fun a => theRegs (pgReeve c.val) [R.reeve_PC_INDEX] a ∨ theRegs (pgCroft c.val) [R.croft_SEED_LAST] a,
              crofts := (· = c.val) } s t)
  )

/-- R257: the oldest pending signal leaves once every order issued before it to the units of its MASK has completed, and SIGNAL_CNT
advances. R16, R256 to R258, R340: a signal that arrives adds COUNT to its token; a count that would exceed 65,535 stays there, is counted,
and the croft's line is raised. Within 3 ms of an advance of its croft's incarnation it is discarded and counted; at a croft under reset it
is absorbed and counted there, and at the reeve it came from. One that must come after another on its way waits for it. The model's readings
it rests on: assumptions 57, 136. -/
def Obligations.SignalsLeaveAndArrive : Prop :=
  (
  ∀ (s : State) (c : CroftId) (p : PendSig) (rest : List PendSig) (tok n dst mask : Nat),
    (s.reeve c.val).pend = p :: rest → decodeOrder p.word = .ok (.tokenSignal tok n dst mask) →
    s.underReset (pgReeve c.val) = false → s.clockRuns c.val = true →
    (∀ o ∈ (s.reeve c.val).orders, p.before ≤ o.serial ∨ o.mask &&& mask = 0) →
    Leaves (exec (.pendingSignalSend c) s) (fun t =>
      t.croft c.val = { s.croft c.val with reeve := { s.reeve c.val with pend := rest } } ∧
      t.dev = { s.dev with signals := s.dev.signals ++ [{ src := some c.val, dst := dst, token := tok, count := n }] } ∧
      t.reg (pgReeve c.val) R.reeve_SIGNAL_CNT.off = satAdd (s.reg (pgReeve c.val) R.reeve_SIGNAL_CNT.off) 1 ∧
      Keeps { regs := theRegs (pgReeve c.val) [R.reeve_SIGNAL_CNT], crofts := (· = c.val), dev := True } s t)
  ) ∧
  (
  ∀ (s : State) (msg : Bool) (k i : Nat) (x : TokSig) (c : CroftId), s.signalAt msg k = some i → s.dev.signals[i]? = some x →
    x.dst = c.val → (s.reeve c.val).token x.token ≤ 65535 →
    let r : Instr := if msg then .signal k else .tokenSignalArrival k
    let d : Device := { s.dev with signals := s.dev.signals.eraseIdx i }
    let n := (s.reeve c.val).token x.token + x.count
    ((s.dev.signals.take i).any x.after = true → exec r s = .next s) ∧
    ((s.dev.signals.take i).any x.after = false →
      (c.val ∈ s.dev.incWindow → Leaves (exec r s) (fun t =>
        t.dev = d ∧ Counts s t (pgSluice c.val) R.sluice_STALE_CNT 1 ∧
        Keeps { regs := theRegs (pgSluice c.val) [R.sluice_STALE_CNT], dev := True } s t)) ∧
      (c.val ∉ s.dev.incWindow → s.underReset (pgReeve c.val) = true → Leaves (exec r s) (fun t =>
        t.dev = { d with absorbed := Sparse.set d.absorbed (pgReeve c.val).base (s.absorbed (pgReeve c.val) + 1) } ∧
        (∀ y, x.src = some y → Counts s t (pgReeve y) R.reeve_SIGNAL_ABS_CNT 1) ∧
        Keeps { regs := fun a => ∃ y, x.src = some y ∧ theRegs (pgReeve y) [R.reeve_SIGNAL_ABS_CNT] a, dev := True } s t)) ∧
      (c.val ∉ s.dev.incWindow → s.underReset (pgReeve c.val) = false → Leaves (exec r s) (fun t =>
        t.croft c.val = { s.croft c.val with reeve := { s.reeve c.val with
          tokens := Sparse.set (s.reeve c.val).tokens x.token (min 65535 n) } } ∧
        (n ≤ 65535 → t.dev = d ∧ Keeps { crofts := (· = c.val), dev := True } s t) ∧
        (65535 < n →
          Counts s t (pgReeve c.val) R.reeve_TOKEN_OVF_CNT 1 ∧
          t.bit (pgReeve c.val) R.reeve_STATUS_TOKEN_OVF = true ∧ t.bit (pgReeve c.val) R.CRIER_LINE_RAISED = true ∧
          t.dev.signals = d.signals ∧ t.dev.watchDue.length = s.dev.watchDue.length + 1 ∧
          Keeps { regs := theRegs (pgReeve c.val) [R.reeve_TOKEN_OVF_CNT, R.reeve_STATUS_TOKEN_OVF, R.CRIER_LINE_RAISED],
                  crofts := (· = c.val), dev := True, seq := True } s t))))
  )

/-- R262: a HALT order waits until every issued order has completed and every pending signal has been sent; it then halts the croft with
reason HALT_ORDER and CODE in HALT_INFO, and raises the Crier line. -/
def Obligations.HaltOrderHalts : Prop :=
  ∀ (s : State) (c : CroftId) (i code : Nat) (w : OrderWord),
    (s.reeve c.val).wait = .haltOrder → s.waiting c.val = some (i, w, .halt code) → nextIdx i < 2 ^ 24 → code < 2 ^ 16 →
    ((s.reeve c.val).orders ≠ [] ∨ (s.reeve c.val).pend ≠ [] → exec (.haltComplete c) s = .next s) ∧
    ((s.reeve c.val).orders = [] → (s.reeve c.val).pend = [] →
    Leaves (exec (.haltComplete c) s) (fun t =>
      t.bit (pgReeve c.val) R.reeve_STATUS_RUNNING = false ∧ t.bit (pgReeve c.val) R.reeve_STATUS_HALTED = true ∧
      t.fld (pgReeve c.val) R.reeve_STATUS_HALT_REASON = 1 ∧ t.fld (pgReeve c.val) R.reeve_HALT_INFO_CODE = code ∧
      t.pc c.val = nextIdx i ∧ t.bit (pgReeve c.val) R.CRIER_LINE_RAISED = true ∧
      t.croft c.val = { s.croft c.val with reeve := { s.reeve c.val with wait := .none, halting := none } } ∧
      Keeps { regs := fun a => theRegs (pgReeve c.val) [R.reeve_PC_INDEX, R.reeve_STATUS_RUNNING, R.reeve_HALT_INFO_CODE,
                  R.CRIER_LINE_RAISED] a ∨ (s.bit pgPlan R.plan_STATUS_STOP_PENDING = true ∧
                    theRegs pgPlan [R.plan_STATUS_STOP_PENDING, R.plan_STOP_CNT] a),
              crofts := (· = c.val), dev := s.bit pgNum R.numstep_STATUS_ABANDONING = true,
              links := fun _ => s.bit pgNum R.numstep_STATUS_ABANDONING = true } s t))

/-- R263, R264, R265: OP 2 requests a halt with reason 7: a running croft begins its drain, and waits for a token, the Bell, a fence, a
queue or the step barrier end without effect; during a drain MORE is set and the reason stays. A croft that does not run has nothing to
halt. R263: the drain of a halting croft over, it reads HALTED with the reason recorded at its request; PC stays. R263: while an order
issued has not completed, or a pending signal has not left, a halting croft stays as it is. The model's readings it rests on: assumption 30. -/
def Obligations.CroftsDrainAndHalt : Prop :=
  (
  ∀ (s : State) (c : CroftId), s.atReady = true → s.underReset (pgReeve c.val) = false →
    let touched : Touch := { regs := theRegs (pgReeve c.val) [R.reeve_STATUS_RUNNING], crofts := (· = c.val) }
    (s.running c.val = true → (s.reeve c.val).halting = none → Leaves (exec (.reeveHaltRequest c) s) (fun t =>
      t.fld (pgReeve c.val) R.reeve_STATUS_HALT_REASON = 7 ∧
      t.croft c.val = { s.croft c.val with reeve := { s.reeve c.val with
        halting := some 7, reported := false
        wait := if (s.reeve c.val).wait = .verdict ∨ (s.reeve c.val).wait = .seed then (s.reeve c.val).wait else .none } } ∧
      Keeps touched s t)) ∧
    (s.running c.val = true → (s.reeve c.val).halting ≠ none → Leaves (exec (.reeveHaltRequest c) s) (fun t =>
      t.bit (pgReeve c.val) R.reeve_STATUS_MORE = true ∧ t.croft c.val = s.croft c.val ∧
      t.fld (pgReeve c.val) R.reeve_STATUS_HALT_REASON = s.fld (pgReeve c.val) R.reeve_STATUS_HALT_REASON ∧ Keeps touched s t)) ∧
    (s.running c.val = false → exec (.reeveHaltRequest c) s = .next s)
  ) ∧
  (
  ∀ (s : State) (c : CroftId) (k : Nat),
    (s.reeve c.val).halting = some k → (s.reeve c.val).dead = false → s.clockRuns c.val = true → (s.reeve c.val).orders = [] → (s.reeve c.val).pend = [] →
    (s.reeve c.val).wait ≠ .verdict → (s.reeve c.val).wait ≠ .seed →
    Leaves (exec (.croftHalted c) s) (fun t =>
      t.bit (pgReeve c.val) R.reeve_STATUS_RUNNING = false ∧ t.bit (pgReeve c.val) R.reeve_STATUS_HALTED = true ∧
      t.fld (pgReeve c.val) R.reeve_STATUS_HALT_REASON = s.fld (pgReeve c.val) R.reeve_STATUS_HALT_REASON ∧
      t.pc c.val = s.pc c.val ∧ t.croft c.val = { s.croft c.val with reeve := { s.reeve c.val with halting := none } } ∧
      Keeps { regs := fun a => theRegs (pgReeve c.val) [R.reeve_STATUS_RUNNING] a ∨
                  (s.bit pgPlan R.plan_STATUS_STOP_PENDING = true ∧ theRegs pgPlan [R.plan_STATUS_STOP_PENDING, R.plan_STOP_CNT] a),
              crofts := (· = c.val), dev := s.bit pgNum R.numstep_STATUS_ABANDONING = true,
              links := fun _ => s.bit pgNum R.numstep_STATUS_ABANDONING = true } s t)
  ) ∧
  (
  ∀ (s : State) (c : CroftId), (s.reeve c.val).orders ≠ [] ∨ (s.reeve c.val).pend ≠ [] → exec (.croftHalted c) s = .next s
  )

/-- R267: the watchdog stops the reeve at once, without drain: its page reads FAULT with cause 0x0A, the halt has reason 4 where none was
under way, and pending signals are discarded; the step ends on the device. R264, R265, R277: OP 1 restarts a halted croft at INDEX, OP 3
also clears tokens, loop registers, span state and WIDE and returns the phase to 0; HALT_REASON and MORE clear. A croft that is not halted,
or has a page in FAULT, is left as it is and the write is counted. The model's readings it rests on: assumptions 29, 30. -/
def Obligations.WatchdogAndRestarts : Prop :=
  (
  ∀ (s : State) (c : CroftId), s.running c.val = true → (s.reeve c.val).dead = false → s.underReset (pgReeve c.val) = false →
    Leaves (exec (.watchdogExpiry c) s) (fun t =>
      t.fld (pgReeve c.val) R.STATE_STATE = stFault ∧
      (t.reg (pgReeve c.val) R.FAULT_CAUSE.off).toNat = 0x0A ∧
      t.bit (pgReeve c.val) R.reeve_STATUS_RUNNING = false ∧ t.bit (pgReeve c.val) R.reeve_STATUS_HALTED = true ∧
      ((s.reeve c.val).halting = none → t.fld (pgReeve c.val) R.reeve_STATUS_HALT_REASON = 4) ∧
      ((s.reeve c.val).halting ≠ none → t.bit (pgReeve c.val) R.reeve_STATUS_MORE = true ∧
        t.fld (pgReeve c.val) R.reeve_STATUS_HALT_REASON = s.fld (pgReeve c.val) R.reeve_STATUS_HALT_REASON) ∧
      t.bit (pgReeve c.val) R.CRIER_LINE_RAISED = true ∧ t.dev.stepEnd = true ∧ t.dev.stepAlarm = true ∧
      t.croft c.val = { s.croft c.val with reeve := { s.reeve c.val with pend := [], dead := true, halting := none } } ∧
      Keeps { regs := fun a => theRegs (pgReeve c.val) (faultRegs ++ [R.reeve_STATUS_RUNNING, R.reeve_FAULT_IDX_INDEX]) a ∨
                (s.bit pgPlan R.plan_STATUS_STOP_PENDING = true ∧ theRegs pgPlan [R.plan_STATUS_STOP_PENDING, R.plan_STOP_CNT] a),
              crofts := (· = c.val), dev := True, links := fun _ => s.bit pgNum R.numstep_STATUS_ABANDONING = true } s t)
  ) ∧
  (
  ∀ (s : State) (c : CroftId) (i : BitVec 24), s.atReady = true → s.underReset (pgReeve c.val) = false →
    let goesOn := fun t : State =>
      t.bit (pgReeve c.val) R.reeve_STATUS_RUNNING = true ∧ t.bit (pgReeve c.val) R.reeve_STATUS_HALTED = false ∧
      t.fld (pgReeve c.val) R.reeve_STATUS_HALT_REASON = 0 ∧ t.bit (pgReeve c.val) R.reeve_STATUS_MORE = false ∧ t.pc c.val = i.toNat
    (s.canRestart c.val = true → Leaves (exec (.reeveRestart c i) s) (fun t => goesOn t ∧
      t.croft c.val = { s.croft c.val with
        reeve := { s.reeve c.val with wait := .none, halting := none, failed := none, refetch := none, reported := false } } ∧
      Keeps { regs := theRegs (pgReeve c.val) [R.reeve_PC_INDEX, R.reeve_STATUS_RUNNING], crofts := (· = c.val) } s t)) ∧
    (s.canRestart c.val = true → Leaves (exec (.cleanRestart c i) s) (fun t => goesOn t ∧ t.phase c.val = 0 ∧
      t.croft c.val = { s.croft c.val with wideRefs := [], reeve := { s.reeve c.val with
        tokens := [], loops := [⟨0, false⟩, ⟨0, false⟩, ⟨0, false⟩, ⟨0, false⟩], span := none, wide := false, spanOvf := false
        spanRecs := [], repeated := [], wait := .none, halting := none, failed := none, refetch := none, reported := false } } ∧
      Keeps { regs := someRegs [(pgReeve c.val, [R.reeve_PC_INDEX, R.reeve_STATUS_RUNNING]), (pgOwn c.val, [R.own_STATUS_PHASE])],
              crofts := (· = c.val) } s t)) ∧
    (s.canRestart c.val = false → Leaves (exec (.reeveRestart c i) s) (fun t => Ignored s t (pgReeve c.val)) ∧
      Leaves (exec (.cleanRestart c i) s) (fun t => Ignored s t (pgReeve c.val)))
  )

/-! ### Wells and plumb -/

/-- R73, R79, R274, R477: a LOAD on a well the stream may load, with a good image, starts: LOADED and STALE read 0 and LOADING 1 until it
ends, the image is read, and the step limiter may have counted the order. R74, R75, R77, R136: a load pass that overlaps a supply warning
does not count: it is repeated once the settle is over, and a pass held for that does not end; one in which every cell passes ends the load:
LOADED reads 1, LAST_PASSES says the passes, LOAD_CNT advances and the order completes; one that is not the last and leaves cells outside
the tolerance goes on with those cells. The model's readings it rests on: assumptions 20, 78, 128, 129, 130, 131. -/
def Obligations.LoadsRun : Prop :=
  (
  ∀ (s : State) (c : CroftId) (k w img : Nat) (o : Issued), s.mayStart c.val k o → decodeOrder o.word = .ok (.load w img) →
    s.wellsBusy c.val o.serial [w] = false → s.loadsNow c.val < 8 → s.wellUse c.val w % 2 = 1 →
    s.bankColl c.val agEdge false [(img, imageSize)] = none → s.intact = true → firstFault (s.imageChecks c.val img) = none →
    Leaves (exec (.orderStart c k) s) (fun t =>
      let g := c.val * 16 + w
      t.bit (pgWell g) R.well_STATUS_LOADED = false ∧ t.bit (pgWell g) R.well_STATUS_LOADING = true ∧
      t.bit (pgWell g) R.well_STATUS_STALE = false ∧ t.fld (pgWell g) R.well_IMG_ADDR_OFFSET = img ∧
      t.croft c.val = { s.croft c.val with reeve := (s.reeve c.val).begun o.serial } ∧
      t.well g = { s.well g with
        load := some ⟨o.serial, o.idx, img, 0, [], decide ((s.hamlet (c.val / 16)).warn ≠ 0), false⟩
        levels := s.bytes (sliceAddr c.val img) 0x40000
        scales := words32 (s.bytes (sliceAddr c.val (img + 0x40000)) 0x800)
        resid := s.imageResid c.val img
        resErr := residues (s.bytes (sliceAddr c.val img) 0x40000)
        spares := s.spareMap g
        last := [] } ∧
      MayCountHold s t ∧
      Keeps { regs := someRegs [(pgWell g, [R.well_STATUS_LOADED, R.well_IMG_ADDR_OFFSET]), (pgPower, [R.power_STEP_DELAY_CNT])],
              crofts := (· = c.val), wells := (· = g), seq := True } s t)
  ) ∧
  (
  ∀ (s : State) (w : WellId) (cells : List (Nat × Nat × Int)) (l : LoadRun), (s.well w.val).load = some l →
    (l.hold = true → exec (.loadPassEnd w cells) s = .next s) ∧
    (l.hold = false → l.redo = true ∨ (s.hamlet (w.val / 256)).warn ≠ 0 → Leaves (exec (.loadPassEnd w cells) s) (fun t =>
        t.well w.val = { s.well w.val with load := some { l with
          redo := false, hold := decide ((s.hamlet (w.val / 256)).warn ≠ 0) } } ∧ Keeps { wells := (· = w.val) } s t)) ∧
    (l.hold = false → l.redo = false → (s.hamlet (w.val / 256)).warn = 0 → cells = [] → l.pass < 3 → (s.well w.val).resid.length ≤ 512 →
        (s.well w.val).cleanWindow = false → Leaves (exec (.loadPassEnd w cells) s) (fun t =>
        t.bit (pgWell w.val) R.well_STATUS_LOADED = true ∧ t.bit (pgWell w.val) R.well_STATUS_LOADING = false ∧
        t.fld (pgWell w.val) R.well_STATUS_LAST_PASSES = l.pass + 1 ∧ t.bit (pgWell w.val) R.well_STATUS_RESID_FULL = false ∧
        t.reg (pgWell w.val) R.well_SCALE_FP_FP.off = crc32 ((s.well w.val).scales.flatMap (toLe 4)) ∧
        Counts s t (pgWell w.val) R.well_LOAD_CNT 1 ∧ Counts s t (pgWell w.val) R.well_FCELL_CNT 0 ∧
        Counts s t (pgWell w.val) R.well_PASS2_CNT (if 1 ≤ l.pass then 1 else 0) ∧
        Counts s t (pgWell w.val) R.well_PASS3_CNT (if 2 ≤ l.pass then 1 else 0) ∧
        t.croft (w.val / 16) = { s.croft (w.val / 16) with reeve := (s.reeve (w.val / 16)).ended l.serial } ∧
        t.well w.val = { s.well w.val with load := none, loadedAt := s.now, last := [] } ∧
        Keeps { regs := theRegs (pgWell w.val) [R.well_STATUS_LOADED, R.well_SCALE_FP_FP, R.well_RESID_IMAGE, R.well_LOAD_CNT, R.well_FCELL_CNT,
                  R.well_PASS2_CNT, R.well_PASS3_CNT], crofts := (· = w.val / 16), wells := (· = w.val) } s t)) ∧
    (l.hold = false → l.redo = false → (s.hamlet (w.val / 256)).warn = 0 → l.pass = 0 → 1 < s.fld (pgWell w.val) R.well_LOADCFG_MAX_PASS →
        let tol := 2 * (s.fld (pgWell w.val) R.well_LOADCFG_VTOL + 1)
        let target (x : Nat × Nat × Int) := cellTarget (s.well w.val).levels (s.well w.val).spares x.1 x.2.1
        (∃ x ∈ cells, ∃ v, target x = some v ∧ tol < (x.2.2 - 8 * v).natAbs) →
        Leaves (exec (.loadPassEnd w cells) s) (fun t =>
          (∃ b, t.well w.val = { s.well w.val with load := some { l with pass := 1, bad := b } } ∧
            ∀ y, y ∈ b ↔ ∃ x ∈ cells, ∃ v, target x = some v ∧ tol < (x.2.2 - 8 * v).natAbs ∧ y = (x.1, x.2.1, v)) ∧
          Keeps { wells := (· = w.val) } s t))
  )

/-- R80, R115: at the retention limit a loaded well reads STALE; a window's trims come into force at a draw boundary and not within a draw.
R117, R122: a well becomes due, which its status and the plumb's mask show; it becomes overdue for a window or a sounding, counted and
raised on the first; a reading of Tj older than 1 ms makes every well of the croft due and overdue. The model's readings it rests on:
assumptions 7, 21. -/
def Obligations.WellAndPlumbTimersAct : Prop :=
  (
  (∀ (s : State) (w : WellId), Leaves (exec (.retentionLimit w) s) (fun t =>
    if s.bit (pgWell w.val) R.well_STATUS_LOADED then
      t.bit (pgWell w.val) R.well_STATUS_STALE = true ∧ t.bit (pgWell w.val) R.well_STATUS_LOADED = true ∧
      Keeps { regs := theRegs (pgWell w.val) [R.well_STATUS_STALE] } s t
    else t = s)) ∧
  (∀ (s : State) (w : WellId) (ts : List (Nat × Int)), (s.well w.val).shadow = some ts →
    Leaves (exec (.trimCommit w) s) (fun t =>
      if s.drawing w.val then t = s
      else
        t.well w.val = { s.well w.val with trims := ts.foldl (fun m x => Sparse.set m x.1 x.2) (s.well w.val).trims, shadow := none } ∧
        Keeps { wells := (· = w.val) } s t))
  ) ∧
  (
  (∀ (s : State) (w : WellId), Leaves (exec (.calDue w) s) (fun t =>
    t.bit (pgWell w.val) R.well_CAL_STATUS_DUE = true ∧
    t.fld (pgPlumb (w.val / 16)) R.plumb_STATUS_DUE_MASK / 2 ^ (w.val % 16) % 2 = 1 ∧ t.well w.val = { s.well w.val with due := true } ∧
    Keeps { regs := someRegs [(pgWell w.val, [R.well_CAL_STATUS_DUE]), (pgPlumb (w.val / 16), [R.plumb_STATUS_DUE_MASK])],
            wells := (· = w.val) } s t)) ∧
  (∀ (s : State) (w : WellId) (sound : Bool), Leaves (exec (.overdue w sound) s) (fun t =>
    t.bit (pgWell w.val) R.well_CAL_STATUS_OVERDUE = true ∧
    t.well w.val = (if sound then { s.well w.val with overSound := true } else { s.well w.val with overWindow := true }) ∧
    Counts s t (pgWell w.val) R.well_OVERDUE_CNT (if s.bit (pgWell w.val) R.well_CAL_STATUS_OVERDUE then 0 else 1) ∧
    (s.bit (pgWell w.val) R.well_CAL_STATUS_OVERDUE = false → s.underReset (pgWell w.val) = false →
      t.bit (pgWell w.val) R.CRIER_LINE_RAISED = true) ∧
    Keeps { regs := theRegs (pgWell w.val) [R.well_CAL_STATUS_OVERDUE, R.well_OVERDUE_CNT, R.CRIER_LINE_RAISED], wells := (· = w.val) } s t)) ∧
  (∀ (s : State) (c : CroftId), Leaves (exec (.tempStale c) s) (fun t =>
    t.bit (pgPlumb c.val) R.plumb_STATUS_TEMP_STALE = true ∧ t.fld (pgPlumb c.val) R.plumb_STATUS_DUE_MASK = 0xFFFF ∧
    Counts s t (pgPlumb c.val) R.plumb_TEMP_STALE_CNT (if s.bit (pgPlumb c.val) R.plumb_STATUS_TEMP_STALE then 0 else 1) ∧
    (∀ i < 16, t.bit (pgWell (c.val * 16 + i)) R.well_CAL_STATUS_DUE = true ∧ t.bit (pgWell (c.val * 16 + i)) R.well_CAL_STATUS_OVERDUE = true ∧
      t.well (c.val * 16 + i) = { s.well (c.val * 16 + i) with overWindow := true }) ∧
    Keeps { regs := someRegs ((pgPlumb c.val, [R.plumb_STATUS_TEMP_STALE, R.plumb_TEMP_STALE_CNT]) ::
              (List.range 16).map (fun i => (pgWell (c.val * 16 + i), [R.well_CAL_STATUS_DUE, R.well_OVERDUE_CNT, R.CRIER_LINE_RAISED]))),
            wells := fun g => g / 16 = c.val } s t))
  )

/-- R78, R85, R249, R274, R477: a DRAW whose wells are free and the stream's, and whose block passes its checks, starts: its run stands, no
draw of it begun, and the step limiter may have counted it. R83, R132, R134, R190, R288: within a draw the next slot begins; at a draw
boundary the run waits, counted once, while the leat queue is full or the escalation queue has no room for its parts. While the island
relocks or its supply dips, or in a slot, nothing begins. The model's readings it rests on: assumptions 78, 132, 133. -/
def Obligations.DrawsBegin : Prop :=
  (
  ∀ (s : State) (c : CroftId) (k n a : Nat) (o : Issued), s.mayStart c.val k o → decodeOrder o.word = .ok (.draw n a) →
    s.wellsBusy c.val o.serial (s.drawArgs c.val a).wells = false → s.bankColl c.val agEdge false [(a, 64)] = none → s.intact = true →
    (∀ w ∈ (s.drawArgs c.val a).wells, s.wellUse c.val w / 2 % 2 = 1) → firstFault (s.drawChecks c.val a n) = none →
    s.bankColl c.val agEdge false (s.regions c.val (s.asRead c.val (s.drawArgs c.val a).input) (s.drawArgs c.val a).rows
      (s.drawArgs c.val a).k) = none →
    s.bankColl c.val agEdge true ((List.range n).map (fun d => ((s.drawArgs c.val a).out + d * (s.drawArgs c.val a).stride, 2052))) = none →
    Leaves (exec (.orderStart c k) s) (fun t =>
      t.croft c.val = { s.croft c.val with
        reeve := (s.reeve c.val).begun o.serial
        runs := (s.croft c.val).runs ++ [{ serial := o.serial, idx := o.idx, args := s.drawArgs c.val a, n := n }] } ∧
      MayCountHold s t ∧
      Keeps { regs := theRegs pgPower [R.power_STEP_DELAY_CNT], crofts := (· = c.val), seq := True } s t)
  ) ∧
  (
  ∀ (s : State) (w : WellId) (r : Run), s.runOf w.val = some r →
    (r.inSlot = true ∨ s.clockRuns (w.val / 16) = false ∨ (s.hamlet (w.val / 256)).warn ≠ 0 → exec (.drawSlotStart w) s = .next s) ∧
    (r.inSlot = false → s.clockRuns (w.val / 16) = true → (s.hamlet (w.val / 256)).warn = 0 → s.underReset (pgWell w.val) = false →
      (r.live = true → Leaves (exec (.drawSlotStart w) s) (fun t =>
          t.runOf w.val = some { r with
            inSlot := true
            held := s.heldNow (w.val / 16) r
            part := if r.quarter.isNone then (List.range r.args.wells.length).map (fun _ => noCodes) else r.part
            quarter := if s.bit (pgWell w.val) R.well_DRAWCFG_QUARTER && r.quarter.isNone then some 0 else r.quarter
            quartering := if s.bit (pgWell w.val) R.well_DRAWCFG_QUARTER then List.range r.args.wells.length else r.quartering } ∧
          Keeps { crofts := (· = w.val / 16) } s t)) ∧
      (r.live = false → (∀ i < r.args.wells.length, s.bit (pgWell (r.well (w.val / 16) i)) R.well_STATUS_LOADED = true ∧
            s.reg (pgWell (r.well (w.val / 16) i)) R.well_SCALE_FP_FP.off = s.reg (pgWell w.val) R.well_SCALE_FP_FP.off) →
          (4 ≤ (s.croft (w.val / 16)).leat.length → r.waitLeat = false → Leaves (exec (.drawSlotStart w) s) (fun t =>
            t.runOf w.val = some { r with waitLeat := true } ∧ Counts s t (pgMill (w.val / 16)) R.mill_LEAT_HOLD_CNT 1 ∧
            t.bit (pgMill (w.val / 16)) R.mill_LEAT_STATUS_HOLDING = true ∧
            Keeps { regs := theRegs (pgMill (w.val / 16)) [R.mill_LEAT_HOLD_CNT, R.mill_LEAT_STATUS_HOLDING],
                    crofts := (· = w.val / 16) } s t)) ∧
          ((s.croft (w.val / 16)).leat.length < 4 → s.intact = true →
            s.peelBad (w.val / 16) (s.asRead (w.val / 16) r.args.input) (r.args.rows * r.args.k) = none →
            let e := s.edgeOf (w.val / 16) r.args (r.args.t0 + r.draw) (s.fld (pgWell w.val) R.well_DRAWCFG_SLICES)
            let due := (s.croft (w.val / 16)).escs.length + s.partsDue (w.val / 16) + s.newParts (w.val / 16) r e
            (16 < due → r.waitEsc = false → Leaves (exec (.drawSlotStart w) s) (fun t =>
              t.runOf w.val = some { r with waitEsc := true } ∧ Counts s t (pgWell w.val) R.well_ESC_HOLD_CNT 1 ∧
              Keeps { regs := theRegs (pgWell w.val) [R.well_ESC_HOLD_CNT], crofts := (· = w.val / 16) } s t)) ∧
            (due ≤ 16 → Leaves (exec (.drawSlotStart w) s) (fun t =>
              ∃ r', t.runOf w.val = some r' ∧ r'.live = true ∧ r'.inSlot = true ∧ r'.slice = 0 ∧ r'.rep = 0 ∧ r'.nrep = 1 ∧
                r'.draw = r.draw ∧ r'.edge = e ∧
                (∀ x ∈ r.args.wells, t.bit (pgWell (w.val / 16 * 16 + x)) R.well_STATUS_DRAWING = true))))))
  )

/-- R93 to R95: a slice-draw with a code beyond ±512 on a well in use clips: it is counted on that well, which draws its slice again in
quarters, and every well keeps its other codes; a quarter that is not the fourth adds its codes, held at ±512 and counted where they were,
and leads to the next. R81, R96, R120, R124 to R128, R132: a slice-draw without a clip, or the fourth quarter of one, ends on every well. A
well newly stale whose STALE_ACT is FAULT ends the DRAW with cause 0x06. Otherwise its codes are added to the slice's: with repeats of the
slice still due the run goes on with them; a first check that fails under AVG is counted, and the slice is repeated 2^AVG times; a check
that passes, that fails with AVG 0, or that fails on the repeats' sum, which makes its wells suspect and escalates them, ends the slice. The
last slice ends the draw: its record takes its place in the leat queue, its parts fall due, its wells leave DRAWING, and the run goes on to
its next draw or ends. The model's readings it rests on: assumptions 14, 133. -/
def Obligations.DrawsEnd : Prop :=
  (
  ∀ (s : State) (w : WellId) (codes : List (List Int)) (r : Run), s.runOf w.val = some r → r.inSlot = true → r.args.wells.Nodup →
    (r.quarter = none → r.clips codes ≠ [] →
      Leaves (exec (.drawSliceEnd w codes) s) (fun t =>
        t.runOf w.val = some { r with
          part := r.slicePart codes, inSlot := false, quarter := some 0, quartering := r.clips codes, status := r.status ||| 8 } ∧
        (∀ i < r.args.wells.length, Counts s t (pgWell (r.well (w.val / 16) i)) R.well_DRAW_CNT 1 ∧
          Counts s t (pgWell (r.well (w.val / 16) i)) R.well_QUARTER_CNT (if i ∈ r.clips codes then 1 else 0)) ∧
        Keeps { regs := runRegs (w.val / 16) r [R.well_DRAW_CNT, R.well_QUARTER_CNT], crofts := (· = w.val / 16) } s t)) ∧
    (∀ q, r.quarter = some q → q < 3 → r.quartering.Nodup → (∀ i ∈ r.quartering, i < r.args.wells.length) →
      Leaves (exec (.drawQuarterEnd w codes) s) (fun t =>
        t.runOf w.val = some { r with part := r.quarterPart codes, inSlot := false, quarter := some (q + 1) } ∧
        (∀ i ∈ r.quartering, Counts s t (pgWell (r.well (w.val / 16) i)) R.well_DRAW_CNT 1) ∧
        (∀ i ∈ r.quarterReads, Counts s t (pgWell (r.well (w.val / 16) i)) R.well_QSAT_CNT
          ((codesAt codes i).filter (fun x => decide (512 < x.natAbs))).length) ∧
        Keeps { regs := runRegs (w.val / 16) r [R.well_DRAW_CNT, R.well_QSAT_CNT], crofts := (· = w.val / 16) } s t))
  ) ∧
  (
  ∀ (s : State) (w : WellId) (codes : List (List Int)) (r : Run) (i : Instr) (part : List (List Int)), s.runOf w.val = some r →
    r.inSlot = true → r.args.wells.Nodup → (∀ k ∈ r.quartering, k < r.args.wells.length) →
    ((r.quarter = none ∧ i = .drawSliceEnd w codes ∧ r.clips codes = [] ∧ part = r.slicePart codes) ∨
     (r.quarter = some 3 ∧ i = .drawQuarterEnd w codes ∧ part = r.quarterPart codes)) →
    let c := w.val / 16
    let r0 := { r with part := part }
    let r1 := s.afterSlot c r0
    let fails := s.confFails c r1 r1.nrep
    let avg := s.fld (pgWell w.val) R.well_DRAWCFG_AVG
    let r2 := (r1.failing (fails.map (·.1))).nextSlice
    let slices := s.fld (pgWell w.val) R.well_DRAWCFG_SLICES
    (s.staleFaults c r0 ≠ [] → Leaves (exec i s) (fun t =>
      (∀ k ∈ s.staleFaults c r0, Faults s t (pgWell (r.well c k)) 6) ∧ Halts s t c ∧ t.dev.stepEnd = true ∧
      (∀ x ∈ (t.croft c).runs, x.serial ≠ r.serial) ∧ (∀ o ∈ (t.reeve c).orders, o.serial ≠ r.serial) ∧
      (∀ x ∈ r.args.wells, t.bit (pgWell (c * 16 + x)) R.well_STATUS_DRAWING = false) ∧ ∀ a, t.byte a = s.byte a)) ∧
    (s.staleFaults c r0 = [] →
      (r1.rep < r1.nrep → Leaves (exec i s) (fun t =>
        t.runOf w.val = some r1 ∧ (∀ k ∈ s.newStale c r0, Counts s t (pgWell (r.well c k)) R.well_STALE_CNT 1) ∧
        (∀ k ∈ r.reads, k ∉ r1.held → (t.well (r.well c k)).last = part.getD k noCodes) ∧
        Keeps { regs := runRegs c r [R.well_DRAW_CNT, R.well_QSAT_CNT, R.well_STALE_CNT], crofts := (· = c), wells := inRun c r } s t)) ∧
      (r1.rep = r1.nrep → r1.nrep = 1 → fails ≠ [] → avg ≠ 0 → Leaves (exec i s) (fun t =>
        t.runOf w.val = some (r1.averaging avg) ∧ Counts s t (pgWell w.val) R.well_REPEAT_CNT 1 ∧
        (∀ f ∈ fails, Counts s t (pgWell (r.well c f.1)) R.well_CONF_FAIL_CNT 1) ∧
        Keeps { regs := runRegs c r [R.well_DRAW_CNT, R.well_QSAT_CNT, R.well_STALE_CNT, R.well_REPEAT_CNT, R.well_CONF_FAIL_CNT],
                crofts := (· = c), wells := inRun c r } s t)) ∧
      (r1.rep = r1.nrep → (r1.nrep ≠ 1 ∨ fails = [] ∨ avg = 0) → Leaves (exec i s) (fun t =>
        (∀ f ∈ fails, t.bit (pgWell (r.well c f.1)) R.well_STATUS_SUSPECT = true ∧
          t.bit (pgWell (r.well c f.1)) R.well_SUSPECT_CAUSE_CONF = true ∧ t.bit (pgWell (r.well c f.1)) R.well_CONF_LAST_VALID = true ∧
          Counts s t (pgWell (r.well c f.1)) R.well_CONF_FAIL_CNT (if r1.nrep = 1 then 1 else 0) ∧
          Counts s t (pgWell (r.well c f.1)) R.well_ESC_CONF_CNT (if f.1 ∈ r1.esc then 0 else 1)) ∧
        (r2.slice < slices → t.runOf w.val = some r2 ∧ (t.croft c).leat = (s.croft c).leat ∧ (t.croft c).escs = (s.croft c).escs) ∧
        (slices ≤ r2.slice →
          (t.croft c).leat = (s.croft c).leat ++ [s.recordOf c r2] ∧ (t.croft c).escs = (s.croft c).escs ++ s.partsOf r2 ∧
          (r.draw + 1 < r.n → t.runOf w.val = some { r2 with draw := r.draw + 1, live := false }) ∧
          (r.n ≤ r.draw + 1 → ∀ x ∈ (t.croft c).runs, x.serial ≠ r.serial) ∧
          (∀ k ∈ r2.escPlaces, Counts s t (pgWell (r.well c k)) R.well_ESC_CNT 1) ∧
          (∀ k ∈ r2.held, Counts s t (pgWell (r.well c k)) R.well_HELD_CNT 1) ∧
          ∀ x ∈ r.args.wells, t.bit (pgWell (c * 16 + x)) R.well_STATUS_DRAWING = false) ∧
        Keeps { regs := fun a => runRegs c r [R.well_DRAW_CNT, R.well_QSAT_CNT, R.well_STALE_CNT, R.well_CONF_FAIL_CNT, R.well_STATUS_DRAWING,
                  R.well_SUSPECT_CAUSE_CONF, R.well_SUSPECT_CNT, R.well_CONF_LAST_VALID, R.well_ESC_CONF_CNT, R.well_ESC_CNT, R.well_HELD_CNT,
                  R.CRIER_LINE_RAISED] a ∨ theRegs (pgMill c) [R.mill_LEAT_STATUS_QUEUED] a,
                crofts := (· = c), wells := inRun c r, dev := True, seq := True } s t)))
  )

/-- R97, R98, R192: promotion gives the record its outputs and, with no escalated part left, writes 512 FP32 values and the status word; the
leat takes the oldest record once it is promoted and its parts are computed; a merge without terms that make a NaN writes the merged values
in place, counts the record and its terms, and completes the DRAW with its last record. R128, R129, R132, R170: the escalation pump takes
the oldest part while its converter is free, against an image with the well's scales; its end adds the part's values to the record, counts
it, and the draw's last part writes the record. The model's readings it rests on: assumptions 15, 22, 126. -/
def Obligations.RecordsArePromotedAndMerged : Prop :=
  (
  (∀ (s : State) (w : WellId) (r : DrawRec), s.intact = true → s.clockRuns (w.val / 16) = true →
    (s.croft (w.val / 16)).leat.find? (fun x => x.wells.head? == some (w.val % 16) && !x.promoted) = some r →
    Leaves (exec (.drawPromotionEnd w) s) (fun t =>
      t.croft (w.val / 16) = { s.croft (w.val / 16) with leat := (s.croft (w.val / 16)).leat.map (fun x =>
        if x.serial = r.serial ∧ x.draw = r.draw then { r with promoted := true, y := r.outputs (s.well w.val).scales } else x) } ∧
      (r.parts = 0 → t.holds (sliceAddr (w.val / 16) r.out)
        ((r.outputs (s.well w.val).scales).flatMap (toLe 4) ++ toLe 4 (r.status ||| 1))) ∧
      Keeps { mem := fun a => r.parts = 0 ∧ inRange (sliceAddr (w.val / 16) r.out) 2052 a, crofts := (· = w.val / 16) } s t)) ∧
  (∀ (s : State) (c : CroftId) (r : DrawRec) (rs : List DrawRec), (s.croft c.val).leat = r :: rs →
    r.promoted = true → r.parts = 0 → r.merging = false → s.underReset (pgMill c.val) = false → s.clockRuns c.val = true →
    Leaves (exec (.leatMergeStart c) s) (fun t =>
      t.croft c.val = { s.croft c.val with leat := (r :: rs).map (fun x =>
        if x.serial = r.serial ∧ x.draw = r.draw then { x with merging := true } else x) } ∧
      Keeps { crofts := (· = c.val) } s t)) ∧
  (∀ (s : State) (c : CroftId) (r : DrawRec) (rs : List DrawRec), s.intact = true → s.clockRuns c.val = true → (s.croft c.val).leat = r :: rs → r.merging = true →
    r.edge.nan = false → r.y.length = 512 → s.bit (pgMill c.val) R.mill_MILLCFG_LEAT = true →
    (∀ j < 512, (mergeColumn (r.y.getD j 0) (s.leatTerms c.val r j)).2 = none) →
    Leaves (exec (.leatMergeEnd c) s) (fun t =>
      t.croft c.val = { s.croft c.val with
        leat := rs, reeve := if r.final then (s.reeve c.val).ended r.serial else s.reeve c.val } ∧
      (∀ j < 512, t.le (sliceAddr c.val r.out + 4 * j) 4 = (mergeColumn (r.y.getD j 0) (s.leatTerms c.val r j)).1 % 2 ^ 32) ∧
      Counts s t (pgMill c.val) R.mill_LEAT_REC_CNT 1 ∧
      Counts s t (pgMill c.val) R.mill_LEAT_TERM_CNT (((List.range 512).map (fun j => (s.leatTerms c.val r j).length)).sum) ∧
      Keeps { regs := theRegs (pgMill c.val) [R.mill_LEAT_REC_CNT, R.mill_LEAT_TERM_CNT, R.mill_LEAT_STATUS_QUEUED],
              mem := inRange (sliceAddr c.val r.out) 2048, crofts := (· = c.val) } s t))
  ) ∧
  (
  (∀ (s : State) (c : CroftId) (e : EscPart) (rest : List EscPart) (d : DrawRec), (s.croft c.val).escNow = none → (s.croft c.val).escs = e :: rest →
    let p := c.val * 4 + s.escPump c.val
    let img := s.fld (pgWell (c.val * 16 + e.well)) R.well_IMG_ADDR_OFFSET
    (s.croft c.val).leat.find? (fun r => r.serial == e.serial && r.draw == e.draw) = some d →
    s.intact = true → s.clockRuns c.val = true → (∀ r, s.pumpRun p = some r → (r.conv = none ∨ r.epi ≠ 0) ∧ r.served = false) → s.underReset (pgPump p) = false → s.bankMiss c.val (s.escPump c.val) false img 0x40800 = none →
    s.imageFp c.val img = s.reg (pgWell (c.val * 16 + e.well)) R.well_SCALE_FP_FP.off →
    Leaves (exec (.escPartStart c) s) (fun t =>
      t.croft c.val = { s.croft c.val with escs := rest, escNow := some e } ∧ t.bit (pgPump p) R.pump_STATUS_ESCALATING = true ∧
      t.bit (pgPump p) R.pump_STATUS_HELD = (s.pumpRun p).isSome ∧ t.pumpRun p = (s.pumpRun p).map (fun r => { r with esc := true, served := true }) ∧
      Keeps { regs := theRegs (pgPump p) [R.pump_STATUS_ESCALATING], crofts := (· = c.val), pumps := (· = p) } s t)) ∧
  (∀ (s : State) (c : CroftId) (e : EscPart) (r : DrawRec), s.intact = true → s.clockRuns c.val = true → (s.croft c.val).escNow = some e →
    (s.croft c.val).leat.find? (fun r => r.serial == e.serial && r.draw == e.draw) = some r → r.promoted = true →
    Leaves (exec (.escPartEnd c) s) (fun t =>
      let p := pgPump (c.val * 4 + s.escPump c.val)
      let ys := List.zipWith (fun y z => code32 (Val.add (f32 y) z)) r.y (s.escValues c.val
        (s.fld (pgWell (c.val * 16 + e.well)) R.well_IMG_ADDR_OFFSET) r.edge
        (r.edge.wells.getD (r.wells.findIdx (fun w => w == e.well)) ⟨[], 0, [], []⟩))
      t.croft c.val = { s.croft c.val with
        escNow := none
        leat := (s.croft c.val).leat.map (fun x =>
          if x.serial = r.serial ∧ x.draw = r.draw then { r with parts := r.parts - 1, y := ys } else x) } ∧
      Counts s t p R.pump_ESC_PART_CNT 1 ∧ t.bit p R.pump_STATUS_ESCALATING = false ∧ t.bit p R.pump_STATUS_HELD = false ∧
      t.fld p R.pump_ESC_LAST_WELL = (c.val * 16 + e.well) % 2048 ∧
      (r.parts ≤ 1 → t.holds (sliceAddr c.val r.out) (ys.flatMap (toLe 4) ++ toLe 4 (r.status ||| 1))) ∧
      Keeps { regs := theRegs p [R.pump_ESC_PART_CNT, R.pump_ESC_LAST_WELL, R.pump_STATUS_ESCALATING],
              mem := fun a => r.parts ≤ 1 ∧ inRange (sliceAddr c.val r.out) (4 * ys.length + 4) a, crofts := (· = c.val) } s t))
  )

/-- R114, R116, R118, R135, R477: a PLUMB order starts on the first of its wells, and AUTO starts overdue work by itself, soundings before
windows: CUR_WELL names the well and the kind of work reads busy; under a supply warning the work is to restart and is counted; the step
limiter may have counted an order. R114 to R118, R121: a window ends with its trims in the shadow, or in force where no draw is in progress,
CALIBRATED set, the temperature and the age taken and WINDOW_CNT advanced; a sounding ends with SOUND_CNT advanced, and a column more than
six codes from a point on average fails it, makes the well suspect and due. The order's last well completes the order. The model's readings
it rests on: assumption 78. -/
def Obligations.PlumbWorkRuns : Prop :=
  (
  ∀ (s : State) (c : CroftId) (r : Instr) (w : Nat) (rest : List Nat) (sound : Bool) (by' : Option Issued),
    ((∃ k o mask, r = .orderStart c k ∧ by' = some o ∧ s.mayStart c.val k o ∧ decodeOrder o.word = .ok (.plumb mask sound) ∧
        (List.range 16).filter (fun w => mask / 2 ^ w % 2 = 1) = w :: rest ∧ s.wellsBusy c.val o.serial (w :: rest) = false ∧
        ∀ x ∈ w :: rest, s.wellUse c.val x / 4 ≠ 0) ∨
     (r = .plumbAutoStart c ∧ by' = none ∧ rest = [] ∧ w < 16 ∧ s.bit (pgPlumb c.val) R.plumb_PLUMBCFG_AUTO = true ∧
        s.underReset (pgPlumb c.val) = false ∧ (s.well (c.val * 16 + w)).load = none ∧
        (if sound then (s.well (c.val * 16 + w)).overSound else (s.well (c.val * 16 + w)).overWindow) = true ∧
        (∀ x < w, (s.well (c.val * 16 + x)).load = none →
          (if sound then (s.well (c.val * 16 + x)).overSound else (s.well (c.val * 16 + x)).overWindow) = false) ∧
        (sound = false → ∀ x < 16, (s.well (c.val * 16 + x)).load = none → (s.well (c.val * 16 + x)).overSound = false))) →
    (s.croft c.val).plumb = none →
    Leaves (exec r s) (fun t =>
      let again := decide ((s.hamlet (c.val / 16)).warn ≠ 0)
      t.croft c.val = { s.croft c.val with
        reeve := (match by' with | some o => (s.reeve c.val).begun o.serial | none => s.reeve c.val)
        plumb := some ⟨by'.map (fun o => (o.serial, o.idx)), w, rest, sound, again⟩ } ∧
      t.fld (pgPlumb c.val) R.plumb_STATUS_CUR_WELL = w ∧ t.bit (pgPlumb c.val) R.plumb_STATUS_BUSY_SOUND = sound ∧
      t.bit (pgPlumb c.val) R.plumb_STATUS_BUSY_WINDOW = !sound ∧
      t.bit (pgWell (c.val * 16 + w)) (if sound then R.well_CAL_STATUS_SOUNDING else R.well_CAL_STATUS_WINDOW) = true ∧
      Counts s t (pgPlumb c.val) R.plumb_ABORT_CNT (if again then 1 else 0) ∧
      Counts s t (pgPlumb c.val) R.plumb_AUTO_CNT (if by' = none then 1 else 0) ∧
      MayCountHold s t ∧
      Keeps { regs := someRegs ([(pgPlumb c.val, [R.plumb_STATUS_CUR_WELL, R.plumb_ABORT_CNT, R.plumb_AUTO_CNT]),
                (pgWell (c.val * 16 + w), [R.well_CAL_STATUS_WINDOW])] ++ (if by'.isSome then [(pgPower, [R.power_STEP_DELAY_CNT])] else [])),
              crofts := (· = c.val), seq := by'.isSome = true } s t)
  ) ∧
  (
  ∀ (s : State) (c : CroftId) (j : PlumbJob), (s.croft c.val).plumb = some j → j.restart = false → j.rest = [] → j.well < 16 →
    let g := c.val * 16 + j.well
    (∀ ts : List (Nat × Nat × Int), j.sound = false → (∀ x ∈ ts, -256 ≤ x.2.2 ∧ x.2.2 ≤ 255) →
      s.bit (pgPlumb c.val) R.plumb_STATUS_TEMP_STALE = false →
      Leaves (exec (.windowEnd c ts) s) (fun t =>
        let new := ts.map (fun x => (x.1 * 128 + x.2.1, x.2.2))
        t.bit (pgWell g) R.well_CAL_STATUS_WINDOW = false ∧ t.bit (pgWell g) R.well_CAL_STATUS_CALIBRATED = true ∧
        t.bit (pgWell g) R.well_CAL_STATUS_DUE = decide (s.fld (pgPlumb c.val) R.plumb_PLUMBCFG_CAL_DT = 0) ∧ t.bit (pgWell g) R.well_CAL_STATUS_OVERDUE = (s.well g).overSound ∧
        t.fld (pgWell g) R.well_CAL_TEMP_T_CAL = s.fld (pgPlumb c.val) R.plumb_TEMP_TJ ∧ Counts s t (pgWell g) R.well_WINDOW_CNT 1 ∧
        t.well g = { s.well g with
          windowAt := some s.now, due := false, overWindow := false
          cleanWindow := if s.bit (pgWell g) R.well_STATUS_SUSPECT then true else (s.well g).cleanWindow
          trims := if s.drawing g then (s.well g).trims else new.foldl (fun m x => Sparse.set m x.1 x.2) (s.well g).trims
          shadow := if s.drawing g then some new else none } ∧
        t.bit (pgPlumb c.val) R.plumb_STATUS_BUSY_WINDOW = false ∧
        t.croft c.val = { s.croft c.val with
          plumb := none
          reeve := (match j.order with | some x => (s.reeve c.val).ended x.1 | none => s.reeve c.val) } ∧
        Keeps { regs := someRegs [(pgPlumb c.val, [R.plumb_STATUS_CUR_WELL, R.plumb_STATUS_DUE_MASK]), (pgWell g, [R.well_CAL_STATUS_WINDOW, R.well_CAL_TEMP_T_CAL,
                  R.well_CAL_DRIFT_COL, R.well_WINDOW_CNT, R.well_OVERDUE_CNT, R.CRIER_LINE_RAISED])],
                crofts := (· = c.val), wells := (· = g) } s t)) ∧
    (∀ sums : List (Nat × List Int), j.sound = true →
      Leaves (exec (.soundingEnd c sums) s) (fun t =>
        let fail : Prop := ∃ x ∈ sums, ∃ y ∈ List.zip x.2 soundPoints, 72 < (y.1 - 12 * y.2).natAbs
        t.bit (pgWell g) R.well_CAL_STATUS_SOUNDING = false ∧ Counts s t (pgWell g) R.well_SOUND_CNT 1 ∧ (t.well g).soundAt = some s.now ∧
        (t.well g).overSound = false ∧ t.bit (pgWell g) R.well_CAL_STATUS_OVERDUE = (s.well g).overWindow ∧
        (fail → t.bit (pgWell g) R.well_CAL_STATUS_SOUND_FAIL = true ∧ t.bit (pgWell g) R.well_STATUS_SUSPECT = true ∧
          t.bit (pgWell g) R.well_SUSPECT_CAUSE_SOUND = true ∧ t.bit (pgWell g) R.well_CAL_STATUS_DUE = true) ∧
        (¬ fail → t.bit (pgWell g) R.well_CAL_STATUS_SOUND_FAIL = s.bit (pgWell g) R.well_CAL_STATUS_SOUND_FAIL ∧
          t.bit (pgWell g) R.well_STATUS_SUSPECT = s.bit (pgWell g) R.well_STATUS_SUSPECT ∧ t.dev = s.dev) ∧
        t.croft c.val = { s.croft c.val with
          plumb := none
          reeve := (match j.order with | some x => (s.reeve c.val).ended x.1 | none => s.reeve c.val) } ∧
        Keeps { regs := someRegs [(pgPlumb c.val, [R.plumb_STATUS_CUR_WELL, R.plumb_STATUS_DUE_MASK]), (pgWell g, [R.well_CAL_STATUS_SOUNDING, R.well_SOUND_CNT,
                  R.well_STATUS_SUSPECT, R.well_SUSPECT_CAUSE_SOUND, R.well_SUSPECT_CNT, R.well_OVERDUE_CNT, R.CRIER_LINE_RAISED])],
                crofts := (· = c.val), wells := (· = g), dev := True } s t))
  )

/-! ### Pumps and mill -/

/-- R173, R245, R274, R283, R477: a PUMP order on an idle pump the stream owns, with a good block and the rights of its regions, starts:
BUSY reads 1, the page shows its shape and index, no tile of it is done, and the step limiter may have counted it. R150, R157, R160, R162,
R163, R170, R177: a k-chunk's result enters the sums of the tile's cells and CHUNK_CNT advances; the tile's last chunk makes its sums final
and hands it to the converter, and the next tile begins. While an escalated part holds the pump, the converter still holds the tile before,
or the island's clock stands, nothing happens. The model's readings it rests on: assumptions 18, 78. -/
def Obligations.PumpOrdersRun : Prop :=
  (
  ∀ (s : State) (c : CroftId) (k p sh a : Nat) (epi : Epi) (o : Issued), s.mayStart c.val k o → decodeOrder o.word = .ok (.pump p sh epi a) →
    let b := s.pumpArgs c.val a
    let w := asWritten o.wide (orderBnd o.word) b.c
    let x := s.asRead c.val b.a
    let y := s.asRead c.val b.b
    (∀ z ∈ (s.reeve c.val).orders, z.unit = o.unit → o.serial ≤ z.serial) → s.pumpRun (c.val * 4 + p) = none →
    s.underReset (pgPump (c.val * 4 + p)) = false → (b.hasRec = true → s.recordBusy c.val o.serial b.rc (s.recOf c.val) = false) →
    s.intact = true → s.pumpRight c.val p = true → (epi ≠ .none → s.epiRight c.val p = true) → s.bankColl c.val p false [(a, 128)] = none →
    firstFault (s.pumpChecks c.val a sh epi.code (s.orderOffset c.val o.idx) o.wide (orderBnd o.word)) = none →
    s.bankColl c.val p false ((if x.trans then s.regions c.val x b.k b.m else s.regions c.val x b.m b.k) ++
      (if y.trans then s.regions c.val y b.k b.n else s.regions c.val y b.n b.k)) = none →
    s.bankColl c.val agMill false (match epi with
      | .none => []
      | .smaxBwd => s.regions c.val b.e0 b.m b.n ++ s.regions c.val b.e1 b.m 1
      | _ => s.regions c.val b.e0 b.m b.n ++ s.regions c.val b.e1 1 b.n ++ s.regions c.val b.e2 b.m 1) = none →
    s.bankColl c.val (if epi = .none then p else agMill) true (s.regions c.val w b.m b.n ++ (if w.smode = 1 then [(b.rc, 128)] else []) ++
      (if epi = .normBwdRms ∨ epi = .normBwdLayer then [(b.scratch, scratchBytes b.n)] else [])) = none →
    Leaves (exec (.orderStart c k) s) (fun t =>
      let g := c.val * 4 + p
      t.reeve c.val = (s.reeve c.val).begun o.serial ∧
      t.pumpRun g = some {
        serial := o.serial, idx := o.idx, shape := sh, epi := epi.code, bnd := orderBnd o.word, layer := orderLayer o.word
        args := b, scale := if w.smode = 1 then s.sl c.val b.rc 1 else 0 } ∧
      t.bit (pgPump g) R.pump_STATUS_BUSY = true ∧ t.bit (pgPump g) R.pump_STATUS_FUSED = decide (epi ≠ .none) ∧
      t.fld (pgPump g) R.pump_STATUS_SHAPE = sh % 8 ∧ t.fld (pgPump g) R.pump_ORDER_IDX_INDEX = o.idx % 2 ^ 32 ∧
      (epi ≠ .none → t.bit (pgMill c.val) R.mill_STATUS_EPILOGUE = true ∧ t.fld (pgMill c.val) R.mill_STATUS_EPI_PUMP = p % 4) ∧
      MayCountHold s t ∧
      Keeps { regs := someRegs ((pgPump g, [R.pump_STATUS_BUSY, R.pump_ORDER_IDX_INDEX, R.pump_TILE_POS_ROW]) ::
                (pgPower, [R.power_STEP_DELAY_CNT]) :: (if epi = .none then [] else [(pgMill c.val, [R.mill_STATUS_EPILOGUE])])),
              crofts := (· = c.val), pumps := (· = g), seq := True } s t)
  ) ∧
  (
  ∀ (s : State) (p : PumpId) (r : PumpRun), s.pumpRun p.val = some r → s.underReset (pgPump p.val) = false →
    let c := p.val / 4
    let a := s.asRead c r.args.a
    let b := s.asRead c r.args.b
    let final := decide (ceilDiv r.args.k (chunkLen a b) ≤ r.chunk + 1)
    let cells := r.rowsIn r.tileRow * r.colsIn r.tileCol
    let tree := s.bit (pgPump p.val) R.pump_PUMPCFG_SUM_ORDER
    let grp := if tree then r.chunk else r.chunk % (shapeOf r.shape).2.2
    let old := if tree ∨ r.sums.getD grp [] = [] then List.replicate cells none else r.sums.getD grp []
    let held := (s.croft c).escNow.isSome && decide (s.escPump c = p.val % 4)
    let next := if final = true ∧ r.tile + 1 < r.tileRows * r.tileCols then { r with tile := r.tile + 1 } else r
    (held = true ∨ s.clockRuns c = false ∨ r.tileRows * r.tileCols ≤ r.tile ∨ (final = true ∧ r.conv.isSome) →
      exec (.pumpChunkEnd p) s = .next s) ∧
    (held = false → s.clockRuns c = true → r.tile < r.tileRows * r.tileCols → (final = true → r.conv = none) → s.intact = true →
      s.peelBad c a (r.args.m * r.args.k) = none → s.peelBad c b (r.args.n * r.args.k) = none →
      s.bit pgNum R.numstep_CFG_HERITAGE = false → Leaves (exec (.pumpChunkEnd p) s) (fun t =>
        Counts s t (pgPump p.val) R.pump_CHUNK_CNT 1 ∧ t.fld (pgPump p.val) R.pump_TILE_POS_ROW = next.tileRow % 2 ^ 16 ∧
        t.fld (pgPump p.val) R.pump_TILE_POS_COL = next.tileCol % 2 ^ 16 ∧
        (∃ r', t.pumpRun p.val = some r' ∧ r'.args = r.args ∧ r'.serial = r.serial ∧ r'.scale = r.scale ∧ r'.served = false ∧
          (if final then r'.tile = r.tile + 1 ∧ r'.chunk = 0 ∧ r'.sums = [] ∧
            ∃ tc, r'.conv = some tc ∧ tc.row = r.tileRow ∧ tc.col = r.tileCol ∧ tc.retry = false ∧
              tc.sums = finalSums (setGroup r.sums grp ((s.tileChunk c r old).map (·.sum))) cells
           else r'.tile = r.tile ∧ r'.chunk = r.chunk + 1 ∧ r'.conv = r.conv ∧
            r'.sums = setGroup r.sums grp ((s.tileChunk c r old).map (·.sum)))) ∧
        Keeps { regs := someRegs [(pgPump p.val, [R.pump_CHUNK_CNT, R.pump_INVALID_BLK_CNT, R.pump_PEEL_TERM_CNT, R.pump_TILE_POS_ROW]),
                  (pgCroft c, [R.croft_NAN_IN_CNT])], pumps := (· = p.val) } s t))
  )

/-- R64, R165 to R169, R177, R178, R209, R246: a conversion that meets an overflow event of a DELAYED C under TILE_RETRY leaves the slice as
it is and begins a retry, counted. Any other conversion, and the retry's end, at a scale byte raised by 4 and whatever it finds, write the
tile, elements, scales and peel entries together, and count it with what it met; the order's last tile also writes its scale record, and
completes the order. R171, R172, R178, R200, R246: a tile of an order with an epilogue reaches the idle mill and is counted. SMAX_BWD's
results are converted and written at once. NORM_BWD's FP32 results go to the strip's scratch region, and once the strip's last tile has
come, its tiles are written. The converter is free again; with the order's last tile the order completes and mill and pump leave it. The
model's readings it rests on: assumptions 16, 17, 125, 127. -/
def Obligations.PumpTilesAreWritten : Prop :=
  (
  ∀ (s : State) (p : PumpId) (r : PumpRun) (tc : TileConv), s.intact = true → s.clockRuns (p.val / 4) = true → s.pumpRun p.val = some r →
    r.conv = some tc → s.underReset (pgPump p.val) = false → r.epi = 0 →
    let c := p.val / 4
    let w := s.pumpOut c r
    let k := s.pumpConv p.val r tc w r.scale
    let k2 := s.pumpConv p.val r tc w (raisedScale r.scale)
    let retries := k.ovf = true ∧ w.smode = 1 ∧ s.bit (pgPump p.val) R.pump_PUMPCFG_OVF_POLICY = false
    (tc.retry = false → retries → Leaves (exec (.pumpConversionEnd p) s) (fun t =>
      Counts s t (pgPump p.val) R.pump_RETRY_CNT 1 ∧ t.bit (pgPump p.val) R.pump_STATUS_RETRYING = true ∧
      t.pumpRun p.val = some { r with amax := amaxOf r.amax (tileVals tc.sums), conv := some { tc with retry := true } } ∧
      Keeps { regs := theRegs (pgPump p.val) [R.pump_RETRY_CNT, R.pump_STATUS_RETRYING], crofts := (· = c), pumps := (· = p.val),
              seq := True } s t)) ∧
    (tc.retry = false → ¬ retries → Leaves (exec (.pumpConversionEnd p) s) (fun t =>
      TileWritten s t p.val r tc k (s.peelsBefore c w (decide (tc.row = 0 ∧ tc.col = 0))) false (amaxOf r.amax (tileVals tc.sums)) ∧
      (k.ovf = false → k.causes.all (· == 0) = true → Keeps (tileTouch p.val) s t))) ∧
    (tc.retry = true → Leaves (exec (.pumpRetryEnd p) s) (fun t =>
      TileWritten s t p.val r tc k2 0 true r.amax ∧
      (k2.ovf = false → k2.causes.all (· == 0) = true → Keeps (tileTouch p.val) s t)))
  ) ∧
  (
  ∀ (s : State) (p : PumpId) (r : PumpRun) (tc : TileConv), s.intact = true → s.clockRuns (p.val / 4) = true → s.pumpRun p.val = some r →
    r.conv = some tc → r.epi ≠ 0 → (s.croft (p.val / 4)).mill = none → s.underReset (pgMill (p.val / 4)) = false →
    let c := p.val / 4
    let n := r.args.n
    let w := s.pumpOut c r
    let her := s.bit pgNum R.numstep_CFG_HERITAGE
    let row0 := tc.row * (shapeOf r.shape).1
    let col0 := tc.col * (shapeOf r.shape).2.1
    let counted (t : State) : Prop :=
      Counts s t (pgPump p.val) R.pump_FUSED_TILE_CNT 1 ∧ Counts s t (pgMill c) R.mill_EPI_TILE_CNT 1 ∧
      Counts s t (pgPump p.val) R.pump_TRANS_TILE_CNT (oneIf (r.args.a.trans || r.args.b.trans)) ∧
      Counts s t (pgPump p.val) R.pump_HERITAGE_TILE_CNT (oneIf her) ∧
      (if r.lastTile then
        t.pumpRun p.val = none ∧ t.bit (pgPump p.val) R.pump_STATUS_BUSY = false ∧ t.bit (pgMill c) R.mill_STATUS_EPILOGUE = false ∧
        (t.reeve c).orders = ((s.reeve c).ended r.serial).orders
       else (t.reeve c).orders = (s.reeve c).orders ∧
        ∃ r', t.pumpRun p.val = some r' ∧ r'.conv = none ∧ r'.tile = r.tile ∧ r'.args = r.args ∧ r'.serial = r.serial)
    (r.epi = 1 → Leaves (exec (.epilogueTile p) s) (fun t =>
      let vals := (s.smaxBwd c r her row0 col0 (s.epiRows r tc)).1
      let k := (s.epiConv c r w row0 col0 (r.colsIn tc.col) vals).1
      counted t ∧ Counts s t (pgPump p.val) R.pump_INF_OUT_CNT (oneIf k.toInf) ∧
      (r.lastTile = false ∨ w.smode ≠ 1 → ∀ x, t.byte x =
        ((writeTile (byEngine 6 r.idx) c w r.args.m n row0 col0 (r.colsIn tc.col) (s.peelsBefore c w (decide (r.wrote = 0))) k).run s).byte x))) ∧
    (r.epi ≠ 1 → tc.col + 1 < r.tileCols → r.lastTile = false → tc.sums.length = r.rowsIn tc.row * r.colsIn tc.col →
      Leaves (exec (.epilogueTile p) s) (fun t =>
        counted t ∧
        (∀ i < min 64 (r.rowsIn tc.row), ∀ j < r.colsIn tc.col,
          t.le (sliceAddr c (r.args.scratch + (i * n + col0 + j) * 4)) 4 =
            code32 (step32 her (tc.sums.getD (i * r.colsIn tc.col + j) ⟨Val.zero false, Val.zero false⟩).val) % 2 ^ 32) ∧
        Keeps { regs := someRegs [(pgPump p.val, [R.pump_FUSED_TILE_CNT, R.pump_TRANS_TILE_CNT, R.pump_HERITAGE_TILE_CNT]),
                  (pgMill c, [R.mill_EPI_TILE_CNT])],
                mem := fun x => ∃ i < min 64 (r.rowsIn tc.row), ∃ j < 4 * r.colsIn tc.col,
                  x = sliceAddr c (r.args.scratch + (i * n + col0) * 4) + j,
                pumps := (· = p.val) } s t)) ∧
    (r.epi ≠ 1 → r.tileCols ≤ tc.col + 1 → Leaves (exec (.epilogueTile p) s) (fun t =>
      counted t ∧
      (r.lastTile = false ∨ w.smode ≠ 1 → ∀ x, t.byte x = ((epiStrip p.val w tc.row).run ((stripGather p.val r tc).run s)).byte x)))
  )

/-- R182, R184, R186, R189, R195, R198, R252: the mill carries out the operation of its order on the operands as it reads them. Outside
heritage mode its results are the formulas of the table: sums, products and quotients rounded once to FP32, RELU, the row sums and maxima,
the k largest elements of each row, the optimisers' masters, and for CONVERT the operand itself. They wait to be converted. The model's
readings it rests on: assumptions 11, 12. -/
def Obligations.MillOperationsAreCarriedOut : Prop :=
  ∀ (s : State) (c : CroftId) (i : Instr) (op : Nat) (r : MillRun), (i, op) ∈ millRows c .carry →
    (s.croft c.val).mill = some r → r.op = op → r.carried = false → r.cmp = none → s.underReset (pgMill c.val) = false →
    s.intact = true → s.clockRuns c.val = true → Leaves (exec i s) (fun t =>
      let x := s.millIn c.val r 0
      let y := s.millIn c.val r 1
      let z := s.millIn c.val r 2
      let res := s.millResult c.val r (s.millWide c.val r)
      (∃ r', (t.croft c.val).mill = some r' ∧ r'.carried = true ∧ r'.serial = r.serial ∧ r'.op = op ∧ r'.outs = res.outs ∧ r'.raw = res.raw ∧
        (s.bit pgNum R.numstep_CFG_HERITAGE = false →
          (op = 0x01 → r'.outs.map (·.vals) = [List.zipWith (fun a b => rne (Val.add a b)) x.flatten y.flatten]) ∧
          (op = 0x02 → r'.outs.map (·.vals) = [List.zipWith (fun a b => rne (Val.mul a b)) x.flatten y.flatten]) ∧
          (op = 0x03 → r'.outs.map (·.vals) =
            [List.zipWith (fun ab d => rne (Val.mulAdd ab.1 ab.2 d)) (List.zip x.flatten y.flatten) z.flatten]) ∧
          (op = 0x04 → r'.outs.map (·.vals) = [List.zipWith (fun a b =>
            rne (Val.mulAdd (s.par c.val r.args 0) a (rne (Val.mul (s.par c.val r.args 4) b)))) x.flatten y.flatten]) ∧
          (op = 0x05 → r'.outs.map (·.vals) = [x.flatten.map (fun a =>
            if a.isNan then a else if Val.lt (Val.zero false) a then a else Val.zero false)]) ∧
          (op = 0x0B → r'.outs.map (·.vals) = [x.flatten.map (fun a => rne (Val.sqrt a))]) ∧
          (op = 0x0D → (∀ b ∈ y.flatten, b.isZero = false) →
            r'.outs.map (·.vals) = [List.zipWith (fun a b => rne (Val.div a b)) x.flatten y.flatten]) ∧
          (op = 0x10 → r'.outs.map (·.vals) = [x.map (fun v => rowSum (v.map asPair))]) ∧
          (op = 0x11 → r'.outs.map (·.vals) = [x.map maxRow]) ∧
          (op = 0x12 → r'.outs.map (·.vals) = [List.zipWith (fun a b => rowSum (List.zipWith prodPair a b)) x y]) ∧
          (op = 0x21 → r'.outs.map (·.vals) =
            [x.flatMap (fun v => (topkRow r.args.magnitude r.args.topk v).map (·.1))]) ∧
          (op = 0x22 → r'.outs.map (·.vals) = [x.flatten]) ∧
          (op = 0x28 → r.args.copy = false → x.flatten.length = y.flatten.length →
            r'.outs.map (·.vals) = [List.zipWith (fun g w => rne (Val.sub w (rne (Val.mul (s.par c.val r.args 0)
              (rne (Val.add (rne (Val.mul g (s.par c.val r.args 0x24))) (rne (Val.mul (s.par c.val r.args 0x18) w)))))))) x.flatten y.flatten]))) ∧
      (t.croft c.val).reeve = s.reeve c.val ∧
      Keeps { regs := someRegs [(pgMill c.val, [R.mill_TOPK_NAN_CNT]), (pgCroft c.val, [R.croft_NAN_IN_CNT])], crofts := (· = c.val) } s t)

/-- R64, R166, R167, R183, R197, R198, R205, R222: a stretch of at most 4,096 elements is converted and written, or split into heads and
remnants, and the result goes on after it; an overflow event of a DELAYED result under TILE_RETRY leaves the slice as it is and is converted
again, at scale bytes raised by 4, whatever that finds. R187, R198, R201, R204, R209, R224, R246: once every result is written a MILL order
ends: its plain bytes, a CONVERT's amax word and its scale record are written, its Tally sums added, ORDER_CNT advances, the mill is idle
and the order complete. A COMPARE sends its contribution to the device half and leaves the mill, and stays incomplete until the verdict. The
model's readings it rests on: assumptions 16, 125. -/
def Obligations.MillResultsAreWritten : Prop :=
  (
  ∀ (s : State) (c : CroftId) (r : MillRun) (j : Nat) (o : MillOut), s.intact = true → s.clockRuns c.val = true → (s.croft c.val).mill = some r →
    r.outs.findIdx? (fun o => decide (o.done < o.vals.length)) = some j → r.outs[j]? = some o → s.underReset (pgMill c.val) = false →
    let part := (o.vals.drop o.done).take 4096
    let peel0 := s.peelsBefore c.val o.ref (o.done == 0)
    let scale := if r.retry then raisedScale r.scale else r.scale
    let k := convert o.ref (s.convMode c.val) (fun i => (o.done + i) % 128) scale (s.peelCap c.val o.ref - peel0) o.done part
      { rng := s.rng c.val }
    let again := k.ovf = true ∧ o.ref.smode = 1 ∧ s.bit (pgMill c.val) R.mill_MILLCFG_OVF_POLICY = false ∧ r.retry = false
    let next := r.outs.modify j (fun o => { o with done := o.done + part.length })
    (o.rem = false → again → Leaves (exec (.millStretchEnd c) s) (fun t =>
      (t.croft c.val).mill = some { r with retry := true } ∧ Counts s t (pgMill c.val) R.mill_RETRY_CNT 1 ∧
      t.bit (pgMill c.val) R.mill_STATUS_RETRYING = true ∧
      Keeps { regs := theRegs (pgMill c.val) [R.mill_RETRY_CNT, R.mill_STATUS_RETRYING], crofts := (· = c.val), seq := True } s t)) ∧
    (o.rem = false → ¬ again → Leaves (exec (.millStretchEnd c) s) (fun t =>
      (t.croft c.val).mill = some { r with outs := next, retry := false, retried := r.retried || r.retry, ovf := r.ovf || k.ovf } ∧
      Counts s t (pgMill c.val) R.mill_OVF_CNT (oneIf k.ovf) ∧ Counts s t (pgMill c.val) R.mill_RETRY_FAIL_CNT (oneIf (k.ovf && r.retry)) ∧
      t.bit (pgMill c.val) R.mill_STATUS_RETRYING = false ∧
      (∀ x, t.byte x = ((writeStretch (byEngine 6 r.idx) c.val o o.done peel0 k).run s).byte x) ∧
      (k.ovf = false → k.causes.all (· == 0) = true →
        Keeps { regs := someRegs [(pgMill c.val, [R.mill_STATUS_RETRYING]),
                  (pgCroft c.val, [R.croft_ZERO_BLK_CNT, R.croft_PEEL_CNT, R.croft_SWAMP_CNT, R.croft_VANISH_CNT, R.croft_SAT_CNT])],
                mem := fun _ => True, crofts := (· = c.val), seq := True } s t))) ∧
    (o.rem = true → Leaves (exec (.millStretchEnd c) s) (fun t =>
      (t.croft c.val).mill = some { r with outs := next, retry := false } ∧
      Counts s t (pgMill c.val) R.mill_SPLIT_STEP_CNT (((part.map split).filter (·.stepped)).length) ∧
      Counts s t (pgMill c.val) R.mill_MASTER_SAT_CNT (((part.map split).filter (·.held)).length) ∧
      (∀ i < part.length, ∀ v, part[i]? = some v →
        t.le (sliceAddr c.val (o.ref.elem + 2 * (o.done + i))) 2 = (split v).head % 2 ^ 16 ∧
        (t.byte (sliceAddr c.val (o.ref.elem + pad64 (2 * o.vals.length) + o.done + i))).toNat = (split v).rem % 256) ∧
      ((part.map (·.cause)).all (· == 0) = true →
        Keeps { regs := theRegs (pgMill c.val) [R.mill_SPLIT_STEP_CNT, R.mill_MASTER_SAT_CNT],
                mem := fun x => inRange (sliceAddr c.val (o.ref.elem + 2 * o.done)) (pad64 (2 * o.vals.length) - 2 * o.done) x ∨
                  inRange (sliceAddr c.val (o.ref.elem + pad64 (2 * o.vals.length) + o.done)) part.length x,
                crofts := (· = c.val), seq := o.contr = true } s t)))
  ) ∧
  (
  ∀ (s : State) (c : CroftId) (r : MillRun), s.intact = true → s.clockRuns c.val = true → (s.croft c.val).mill = some r → r.carried = true →
    (∀ o ∈ r.outs, o.vals.length ≤ o.done) → s.underReset (pgMill c.val) = false →
    (∀ x, r.cmp = some x → Leaves (exec (.millOrderEnd c) s) (fun t =>
      t.bit (pgMill c.val) R.mill_STATUS_BUSY = false ∧ t.fld (pgMill c.val) R.mill_STATUS_OP = 0 ∧
      t.dev = { s.dev with contribs := s.dev.contribs ++ [x] } ∧ Counts s t (pgTally c.val) R.tally_CMP_CNT 1 ∧
      t.croft c.val = { s.croft c.val with mill := none } ∧
      Keeps { regs := someRegs [(pgTally c.val, [R.tally_CMP_CNT]), (pgMill c.val, [R.mill_STATUS_BUSY])], crofts := (· = c.val),
              dev := True } s t)) ∧
    (r.cmp = none → Leaves (exec (.millOrderEnd c) s) (fun t =>
      let wide := s.millWide c.val r
      let w := asWritten wide r.bnd (r.args.slot 3)
      let written : Prog := Prog.all [
        Prog.each r.raw (fun x => store (byEngine 6 r.idx) (sliceAddr c.val x.1) x.2),
        Prog.when (r.op == 0x22 && r.args.hasAmax) (storeLe (byEngine 6 r.idx) (sliceAddr c.val r.args.amax) 4 (code32 r.amax)),
        Prog.when (resultInS3 r.op && w.smode == 1) (updateRecord (byEngine 6 r.idx) c.val r.args.rc w.format r.amax r.retried)]
      t.bit (pgMill c.val) R.mill_STATUS_BUSY = false ∧ t.fld (pgMill c.val) R.mill_STATUS_OP = 0 ∧ (t.croft c.val).mill = none ∧
      t.reeve c.val = (s.reeve c.val).ended r.serial ∧ Counts s t (pgMill c.val) R.mill_ORDER_CNT 1 ∧
      (∀ x, t.byte x = (written.run s).byte x) ∧
      (r.tally = [] → r.args.tsrc = 0 → (t.croft c.val).tally = (s.croft c.val).tally ∧ Counts s t (pgMill c.val) R.mill_TALLY_NONFIN_CNT 0) ∧
      (r.tally = [] → wide = false → ∀ m, tallySlotOf r.op r.args.tsrc (s.millSlots c.val r.op 0 r.args wide r.bnd) = some m →
        r.raw = [] → (r.op = 0x22 → r.args.hasAmax = false) → (resultInS3 r.op = true → w.smode ≠ 1) →
        let x := squareSum (s.millRows c.val (s.bit pgNum R.numstep_CFG_HERITAGE) m).flatten
        let old := (Sparse.get? (s.croft c.val).tally r.args.tslot).getD ⟨none, 0⟩
        (t.croft c.val).tally = Sparse.set (s.croft c.val).tally r.args.tslot ⟨Pair.merge old.pair x.pair, old.nf + x.nf⟩ ∧
        Counts s t (pgMill c.val) R.mill_TALLY_NONFIN_CNT x.nf) ∧
      Keeps { regs := theRegs (pgMill c.val) [R.mill_STATUS_BUSY, R.mill_ORDER_CNT, R.mill_TALLY_NONFIN_CNT],
              mem := fun _ => True, crofts := (· = c.val) } s t))
  )

/-- R224, R225: a TALLY COMPARE forms D and Q in the lane order of a row sum; its contribution opens its group's compare or joins it,
PENDING shows a group that still lacks one, and one that disagrees with its group's first is a fault of its order. R225, R226, R261: a full
compare is decided: CMP_LAST of each contributor shows group, layer and verdict; a reeve that waits for a pass skips the orders it names,
and goes on at the next order after a fail, which is counted as a recomputation and falls the layer back. The model's readings it rests on:
assumption 15. -/
def Obligations.ComparesGiveVerdicts : Prop :=
  (
  (∀ (s : State) (c : CroftId) (r : MillRun) (g : Nat) (k : Contrib), (s.croft c.val).mill = some r → r.cmp = some (g, k) → r.carried = false →
    s.intact = true → s.clockRuns c.val = true → s.underReset (pgMill c.val) = false → s.bit pgNum R.numstep_CFG_HERITAGE = false →
    Leaves (exec (.tallyCompare c .carry) s) (fun t =>
      let x := (s.millRows c.val false (compareSlot (s.asRead c.val (r.args.slot 0)) r.len 0)).flatten
      let y := (s.millRows c.val false (compareSlot (s.asRead c.val (r.args.slot 1)) r.len 0)).flatten
      let d := List.zipWith (fun a b => rne (Val.sub a b)) x y
      let z : Pair := ⟨Val.zero false, Val.zero false⟩
      t.croft c.val = { s.croft c.val with mill := some { r with
        carried := true
        cmp := some (g, { k with
          d := (lanePairs (d.map (fun v => prodPair v v))).getD z, q := (lanePairs (y.map (fun v => prodPair v v))).getD z
          nonfin := d.any (fun v => !v.isFin) }) } } ∧
      Keeps { regs := theRegs (pgCroft c.val) [R.croft_NAN_IN_CNT], crofts := (· = c.val) } s t)) ∧
  (∀ (s : State) (k g : Nat) (x : Contrib), s.dev.contribs[k]? = some (g, x) → g < 16 →
    (∀ l, joinCompare x (s.compares g) = some l → Leaves (exec (.tallyContribution k) s) (fun t =>
        t.dev = { s.dev with contribs := s.dev.contribs.eraseIdx k, groups := Sparse.set s.dev.groups g l } ∧
        (t.fld pgNum R.numstep_GROUP_STATUS_PENDING / 2 ^ g % 2 = 1 ↔ compareFull (l.headD []) = false) ∧
        Keeps { regs := theRegs pgNum [R.numstep_GROUP_STATUS_PENDING], dev := True } s t)) ∧
    (joinCompare x (s.compares g) = none → ∀ o, s.compareOrder x.croft = some o → Leaves (exec (.tallyContribution k) s) (fun t =>
        t.fld (pgTally x.croft) R.STATE_STATE = stFault ∧
        (s.fld (pgTally x.croft) R.STATE_STATE ≠ stFault → t.fld (pgTally x.croft) R.FAULT_CAUSE = 2) ∧
        t.fld (pgReeve x.croft) R.reeve_FAULT_IDX_INDEX = o.idx % 2 ^ 24 ∧ t.fld (pgReeve x.croft) R.reeve_FAULT_IDX_ENGINE = 8 ∧
        (t.reeve x.croft).orders = (s.reeve x.croft).orders.filter (fun y => y.serial != o.serial) ∧ (t.reeve x.croft).wait ≠ .verdict)))
  ) ∧
  (
  ∀ (s : State) (g : Fin 16) (l : List Contrib) (rest : List (List Contrib)), s.compares g.val = l :: rest → compareFull l = true →
    (∀ x ∈ l, x.croft < 128) →
    let fail := (verdictOf (s.fld pgNum R.numstep_CFG_DIV_LIMIT) l).2.2
    Leaves (exec (.tallyVerdict g) s) (fun t =>
      t.compares g.val = rest ∧ (t.fld pgNum R.numstep_GROUP_STATUS_FAIL / 2 ^ g.val % 2 = 1 ↔ fail = true) ∧
      Counts s t pgNum R.numstep_RECOMP_CNT (if fail then 1 else 0) ∧ Counts s t pgNum R.numstep_FALLBACK_CNT (if fail then 1 else 0) ∧
      ∀ x ∈ l,
        t.bit (pgTally x.croft) R.tally_CMP_LAST_VALID = true ∧ t.bit (pgTally x.croft) R.tally_CMP_LAST_FAIL = fail ∧
        t.fld (pgTally x.croft) R.tally_CMP_LAST_GROUP = g.val ∧
        Counts s t (pgTally x.croft) R.tally_CMP_FAIL_CNT (if fail then 1 else 0) ∧
        ∀ o grp n k a, s.compareOrder x.croft = some o → decodeOrder o.word = .ok (.tallyCompare grp n k a) →
          (s.reeve x.croft).wait = .verdict →
          t.pc x.croft = (if fail then nextIdx o.idx else skipIdx n (nextIdx o.idx)) % 2 ^ 24 ∧
          (t.reeve x.croft).orders = (s.reeve x.croft).orders.filter (fun y => y.serial != o.serial) ∧ (t.reeve x.croft).wait = .none ∧
          Counts s t (pgReeve x.croft) R.reeve_SKIP_CNT (if fail then 0 else n))
  )

/-! ### Steps, Watch and Bucket -/

/-- R255: a step FENCE whose wait is over reports its croft, which waits at the barrier; the last report passes the device's boundary: every
croft latches one Bell count, the step index advances, fall-backs and REPEATING clear and the Ledger's current digests begin anew. R255,
R277, R418, R546: once the boundary's work is done every croft at the barrier goes on at ENTRY in phase 0 and its step is counted, or halts
with reason 6 where a stop was pending; the others stay as they are. Until then nothing happens. The model's readings it rests on:
assumptions 24, 25, 26. -/
def Obligations.BoundariesArePassedAndReleased : Prop :=
  (
  ∀ (s : State) (c : CroftId), s.stepFenceOver c.val = true →
    Leaves (exec (.stepReport c) s) (fun t =>
      t.reeve c.val = { s.reeve c.val with
        reported := true, wait := .stepBarrier, repeated := (t.reeve c.val).repeated } ∧
      ((s.dev.boundary = true ∨ ∃ k ∈ s.enabledReeves, k ≠ c.val ∧ (s.reeve k).reported = false) → Keeps { crofts := (· = c.val) } s t) ∧
      (s.dev.boundary = false → s.enabledReeves ≠ [] → (∀ k ∈ s.enabledReeves, k ≠ c.val → (s.reeve k).reported = true) →
        t.dev.boundary = true ∧ t.dev.stopHere = s.bit pgPlan R.plan_STATUS_STOP_PENDING ∧ t.stepIndex = (s.stepIndex + 1) % 2 ^ 32 ∧
        t.fld pgNum R.numstep_STATUS_FALLBACKS = 0 ∧ t.bit pgNum R.numstep_STATUS_REPEATING = false ∧
        (∀ k < 128, t.stepBell k = s.bellNow ∧ (t.reeve k).repeated = []) ∧
        ∀ dir < 2, ∀ link < 16, ∀ coll < 256, t.digest 0 dir link coll = 0))
  ) ∧
  (
  (∀ s : State, s.releasable = false → exec .stepBarrierRelease s = .next s) ∧
  (∀ s : State, s.releasable = true → s.dev.stopHere = false → Leaves (exec .stepBarrierRelease s) (fun t =>
    t.dev = { s.dev with boundary := false, stopHere := false } ∧
    (∀ c < 128, (s.reeve c).wait = .stepBarrier →
      t.pc c = s.fld (pgReeve c) R.reeve_ENTRY_INDEX ∧ t.phase c = 0 ∧ t.reeve c = { s.reeve c with reported := false, wait := .none } ∧
      Counts s t (pgReeve c) R.reeve_STEP_CNT 1 ∧ t.running c = s.running c) ∧
    (∀ c, (128 ≤ c ∨ (s.reeve c).wait ≠ .stepBarrier) → t.croft c = s.croft c) ∧
    Keeps { regs := someRegs ((List.range 128).flatMap (fun c => [(pgReeve c, [R.reeve_PC_INDEX, R.reeve_STEP_CNT]), (pgOwn c, [R.own_STATUS_PHASE])])),
            crofts := (· < 128), dev := True } s t)) ∧
  (∀ s : State, s.releasable = true → s.dev.stopHere = true → Leaves (exec .stepBarrierRelease s) (fun t =>
    t.dev.boundary = false ∧
    (∀ c < 128, (s.reeve c).wait = .stepBarrier →
      t.pc c = s.fld (pgReeve c) R.reeve_ENTRY_INDEX ∧ t.phase c = 0 ∧ t.running c = false ∧
      t.bit (pgReeve c) R.reeve_STATUS_HALTED = true ∧ t.fld (pgReeve c) R.reeve_STATUS_HALT_REASON = 6) ∧
    (∀ c, (128 ≤ c ∨ (s.reeve c).wait ≠ .stepBarrier) → t.croft c = s.croft c) ∧ ∀ a, t.byte a = s.byte a))
  )

/-- R217, R218, R417, R424, R562: a Steward message not heard before is forwarded on every other link that is up and acted on: a snapshot
request sets the pending boundary or is late, an alarm ends the step and raises the Bucket page's line, one for an abandonment begins the
abandonment here, a halt message notes the device. One heard before, or this device's own, has no effect. R562: the Steward ends the step:
every croft that runs and has no halt under way begins one with reason 5, and ALARM is raised on every link that is up unless the event was
an ALARM received; without such an event nothing happens. R218: the repeat of an abandoned step waits until every enabled reeve reads HALTED
and every device known has halted; an entry of RECLIST that is no record faults the page and leaves the device halted; otherwise HEADROOM
and SCALE of every record rise by 2, held at their largest, and the Steward restarts every reeve that can restart at ENTRY, marked
REPEATING. The model's readings it rests on: assumptions 27, 28, 134. -/
def Obligations.StewardsEndAndRepeatSteps : Prop :=
  (
  (∀ (s : State) (l : LinkId) (o : BitVec 14) (b : BitVec 32) (ab : Bool),
    (¬ s.newMsg (.snapReq o.toNat b.toNat) → exec (.snapReq l o b) s = .next s) ∧
    (¬ s.newMsg (.alarm o.toNat b.toNat ab) → exec (.alarm l o b ab) s = .next s) ∧
    (¬ s.newMsg (.halted o.toNat b.toNat) → exec (.haltMessage l o b) s = .next s)) ∧
  (∀ (s : State) (l : LinkId) (o : BitVec 14) (b : BitVec 32) (m : StewMsg), m = .snapReq o.toNat b.toNat → s.newMsg m →
    (s.enabled pgBucket = false → Leaves (exec (.snapReq l o b) s) (fun t =>
      Floods s t m (some l.val) ∧ t.dev = { s.dev with heard := s.dev.heard ++ [m] } ∧ Keeps { links := (· < 16), dev := True } s t)) ∧
    (s.enabled pgBucket = true → s.stepIndex < b.toNat → Leaves (exec (.snapReq l o b) s) (fun t =>
      Floods s t m (some l.val) ∧
      t.dev = { s.dev with heard := s.dev.heard ++ [m], pendingB := some (max (s.dev.pendingB.getD 0) b.toNat) } ∧
      Keeps { links := (· < 16), dev := True } s t)) ∧
    (s.enabled pgBucket = true → b.toNat ≤ s.stepIndex → Leaves (exec (.snapReq l o b) s) (fun t =>
      Floods s t m (some l.val) ∧ t.dev = { s.dev with heard := s.dev.heard ++ [m] } ∧
      t.bit pgBucket R.bucket_STATUS_LATE = true ∧ Counts s t pgBucket R.bucket_LATE_CNT 1 ∧ Faults s t pgBucket 4 ∧
      Keeps { regs := theRegs pgBucket ([R.bucket_STATUS_LATE, R.bucket_LATE_CNT] ++ faultRegs), links := (· < 16), dev := True } s t))) ∧
  (∀ (s : State) (l : LinkId) (o : BitVec 14) (b : BitVec 32) (ab : Bool) (m : StewMsg), m = .alarm o.toNat b.toNat ab → s.newMsg m →
    (ab = false ∨ s.bit pgNum R.numstep_STATUS_ABANDONING = true ∨ s.bit pgNum R.numstep_STATUS_HALTED = true →
      Leaves (exec (.alarm l o b ab) s) (fun t =>
        Floods s t m (some l.val) ∧ t.dev = { s.dev with heard := s.dev.heard ++ [m], stepEnd := true } ∧
        (s.underReset pgBucket = false → t.bit pgBucket R.CRIER_LINE_RAISED = true) ∧
        Keeps { regs := theRegs pgBucket [R.CRIER_LINE_RAISED], links := (· < 16), dev := True } s t)) ∧
    (ab = true → s.bit pgNum R.numstep_STATUS_ABANDONING = false → s.bit pgNum R.numstep_STATUS_HALTED = false →
      Leaves (exec (.alarm l o b ab) s) (fun t =>
        Forwards s t m (some l.val) ∧ t.dev.heard = s.dev.heard ++ [m] ∧ t.dev.stepEnd = true ∧ t.dev.stepAlarm = s.dev.stepAlarm ∧
        (s.underReset pgBucket = false → t.bit pgBucket R.CRIER_LINE_RAISED = true) ∧
        t.bit pgNum R.numstep_STATUS_ABANDONING = true ∧ Counts s t pgNum R.numstep_ABANDON_CNT 1 ∧
        (∀ c < 128, s.running c = true → (t.reeve c).halting.isSome = true) ∧
        Keeps { regs := someRegs ([(pgBucket, [R.CRIER_LINE_RAISED]), (pgNum, [R.numstep_STATUS_ABANDONING, R.numstep_ABANDON_CNT])] ++
                  (List.range 128).map (fun c => (pgReeve c, [R.reeve_STATUS_HALT_REASON]))),
                crofts := (· < 128), links := (· < 16), dev := True } s t))) ∧
  (∀ (s : State) (l : LinkId) (o : BitVec 14) (b : BitVec 32) (m : StewMsg), m = .halted o.toNat b.toNat → s.newMsg m →
    Leaves (exec (.haltMessage l o b) s) (fun t =>
      Floods s t m (some l.val) ∧
      t.dev = { s.dev with heard := s.dev.heard ++ [m], haltedDevs := s.dev.haltedDevs ++ if o.toNat ∈ s.dev.haltedDevs then [] else [o.toNat] } ∧
      Keeps { links := (· < 16), dev := True } s t))
  ) ∧
  (
  (∀ s : State, s.dev.stepEnd = false → exec .stewardStepEnd s = .next s) ∧
  (∀ s : State, s.dev.stepEnd = true → Leaves (exec .stewardStepEnd s) (fun t =>
    t.dev = { s.dev with stepEnd := false, stepAlarm := false } ∧
    (s.dev.stepAlarm = true → Floods s t (.alarm s.self s.stepIndex false) none) ∧ (s.dev.stepAlarm = false → ∀ q, t.link q = s.link q) ∧
    (∀ c < 128, s.running c = true → (s.reeve c).halting = none →
      (t.reeve c).halting = some 5 ∧ t.fld (pgReeve c) R.reeve_STATUS_HALT_REASON = 5 ∧ (t.reeve c).orders = (s.reeve c).orders ∧
      t.pc c = s.pc c) ∧
    (∀ c, (128 ≤ c ∨ s.running c = false ∨ (s.reeve c).halting.isSome = true) → t.croft c = s.croft c) ∧
    Keeps { regs := someRegs ((List.range 128).map (fun c => (pgReeve c, [R.reeve_STATUS_HALT_REASON]))), crofts := (· < 128),
            links := (· < 16), dev := True } s t))
  ) ∧
  (
  (∀ s : State, (s.bit pgNum R.numstep_STATUS_ABANDONING = false ∨ (∃ c ∈ s.enabledReeves, s.bit (pgReeve c) R.reeve_STATUS_HALTED = false) ∨
      ∃ d ∈ s.knownDevs, d ∉ s.dev.haltedDevs) → exec .stepRepeat s = .next s) ∧
  (∀ s : State, s.bit pgNum R.numstep_STATUS_ABANDONING = true → (∀ c ∈ s.enabledReeves, s.bit (pgReeve c) R.reeve_STATUS_HALTED = true) →
    (∀ d ∈ s.knownDevs, d ∈ s.dev.haltedDevs) →
    (∀ i < s.recCount, recordValid (s.recEntry i) = false → (∀ j < i, recordValid (s.recEntry j) = true) →
      Leaves (exec .stepRepeat s) (fun t =>
        t.bit pgNum R.numstep_STATUS_HALTED = true ∧ t.bit pgNum R.numstep_STATUS_ABANDONING = false ∧ Faults s t pgNum 2 ∧
        (s.fld pgNum R.STATE_STATE ≠ stFault → t.fld pgNum R.FAULT_ADDR_LO = (s.recList + 8 * i) % 2 ^ 32) ∧
        Keeps { regs := pgNum.covers } s t)) ∧
    ((∀ i < s.recCount, recordValid (s.recEntry i) = true) → s.intact = true →
      Leaves (exec .stepRepeat s) (fun t =>
        t.bit pgNum R.numstep_STATUS_REPEATING = true ∧ t.bit pgNum R.numstep_STATUS_ABANDONING = false ∧
        t.fld pgNum R.numstep_STATUS_FALLBACKS = 0 ∧ t.dev.haltedDevs = [] ∧ t.dev.fallLayers = [] ∧
        ((∀ i < s.recCount, ∀ j < s.recCount, s.recEntry i = s.recEntry j → i = j) → ∀ i < s.recCount,
          t.le (s.recEntry i) 1 = min 0xFE (s.le (s.recEntry i) 1 + 2) ∧
          t.le (s.recEntry i + 1) 1 % 8 = min 7 (s.le (s.recEntry i + 1) 1 % 8 + 2) ∧
          t.le (s.recEntry i + 1) 1 / 8 = s.le (s.recEntry i + 1) 1 / 8) ∧
        (∀ a, (∀ i < s.recCount, a ≠ s.recEntry i ∧ a ≠ s.recEntry i + 1) → t.byte a = s.byte a) ∧
        (∀ c ∈ s.enabledReeves, s.canRestart c = true →
          t.running c = true ∧ t.pc c = s.fld (pgReeve c) R.reeve_ENTRY_INDEX ∧ t.phase c = 0 ∧ (t.reeve c).wait = .none ∧
          (t.reeve c).tokens = [] ∧ (t.croft c).wideRefs = []))))
  )

/-- R410: an event adds 256 / 2^PRESCALE to its input's accumulator, held at 65,535; a decay takes 1 / 2^DECAY of each, at least 1, from
those that are not zero; a sample sets the two level inputs and forms the score, the sum of the contributions held at 255, and a crossing of
the threshold is counted, logged and requests a snapshot. R430 to R432: a residue mismatch stops its unit at once and halts the croft; the
Steward's watchdog restarts, or expires: FAULT_N asserts and every reeve that runs stops without drain; a lane flit's CRC failure is counted
until the third replay fails, which fails the channel direction. R287: on a channel a flit goes on in share 15, and in a share of the fabric
page that is of another kind than a croft's or names the flit's croft, and a link's transit and response shares have maps of their own; any
other flit is discarded, counted and logged. The model's readings it rests on: assumptions 45, 62, 139. -/
def Obligations.FaultsAreDetectedAndScored : Prop :=
  (
  (∀ (s : State) (k i : Nat), s.dev.watchDue[k]? = some i → i < 16 →
    Leaves (exec (.watchEvent k) s) (fun t =>
      t.inputA i = min 65535 (s.inputA i + 256 / 2 ^ s.fld pgWatch (R.watch_INPUT_CFG_PRESCALE.plus (8 * i))) ∧
      t.dev = { s.dev with watchDue := s.dev.watchDue.eraseIdx k } ∧
      Keeps { regs := theRegs pgWatch [R.watch_INPUT_VAL_A.plus (8 * i)], dev := True } s t)) ∧
  (∀ s : State, Leaves (exec .watchDecay s) (fun t =>
    (∀ i < 16, t.inputA i =
      if i = 9 ∨ i = 10 ∨ s.fld pgWatch (R.watch_INPUT_CFG_DECAY.plus (8 * i)) = 0 then s.inputA i
      else s.inputA i - max 1 (s.inputA i / 2 ^ s.fld pgWatch (R.watch_INPUT_CFG_DECAY.plus (8 * i)))) ∧
    Keeps { regs := theRegs pgWatch (eventInputs.map (fun i => R.watch_INPUT_VAL_A.plus (8 * i))) } s t)) ∧
  (∀ (s : State) (tj : Int) (shift : Nat), Leaves (exec (.watchSample tj shift) s) (fun t =>
    let score := if s.enabled pgWatch then min 255 ((List.range 16).map t.contribution).sum else 0
    let crosses := s.enabled pgWatch = true ∧ s.fld pgWatch R.watch_STATUS_SCORE < s.fld pgWatch R.watch_CFG_THRESH ∧
      s.fld pgWatch R.watch_CFG_THRESH ≤ score
    let near := s.stepIndex + 2 - s.fld pgBucket R.bucket_B_LAST < s.fld pgWatch R.watch_CFG_MIN_GAP
    t.inputA 9 = min 255 (max 0 (8 * (tj - 73))).toNat ∧ t.inputA 10 = min 255 shift ∧
    (∀ i < 16, i ≠ 9 → i ≠ 10 → t.inputA i = s.inputA i) ∧
    t.fld pgWatch R.watch_STATUS_SCORE = score ∧ t.fld pgWatch R.watch_PEAK_SCORE = max (s.fld pgWatch R.watch_PEAK_SCORE) score ∧
    t.fld pgWatch R.watch_STATUS_TOP = topInput ((List.range 16).map t.contribution) ∧
    (∀ i < 16, t.fld pgWatch (R.watch_INPUT_VAL_CONTRIB.plus (8 * i)) = t.contribution i) ∧
    (crosses → Counts s t pgWatch R.watch_CROSS_CNT 1 ∧ Counts s t pgWatch R.watch_REQ_CNT 1 ∧ t.fld pgWatch R.watch_CROSS_LOG_SCORE = score ∧
      t.bit pgWatch R.watch_CROSS_LOG_VALID = true) ∧
    (crosses → near → Counts s t pgWatch R.watch_GAP_DROP_CNT 1 ∧ t.dev = s.dev ∧ ∀ q, t.link q = s.link q) ∧
    (crosses → ¬ near → Floods s t (.snapReq s.self (s.stepIndex + 2)) none ∧
      (s.enabled pgBucket = true → t.dev = { s.dev with pendingB := some (max (s.dev.pendingB.getD 0) (s.stepIndex + 2)) })) ∧
    (¬ crosses → Counts s t pgWatch R.watch_CROSS_CNT 0 ∧ t.dev = s.dev ∧ ∀ q, t.link q = s.link q) ∧
    Keeps { regs := pgWatch.covers, links := (· < 16), dev := True } s t))
  ) ∧
  (
  (∀ (s : State) (c : CroftId) (u : Fin 6), s.croftUnderReset c.val = false →
    Leaves (exec (.residueMismatch c u) s) (fun t =>
      u.val ∈ (t.croft c.val).stopped ∧ Counts s t pgWatch R.watch_RES_CNT 1 ∧ t.bit pgWatch R.watch_RES_LOG_VALID = true ∧
      (s.bit pgWatch R.watch_RES_LOG_VALID = false →
        t.fld pgWatch R.watch_RES_LOG_CROFT = c.val ∧ t.fld pgWatch R.watch_RES_LOG_ENGINE = u.val) ∧
      Faults s t pgWatch 1 ∧ t.fld (pgReeve c.val) R.reeve_FAULT_IDX_ENGINE = resEngine u.val ∧
      (∀ o ∈ (t.reeve c.val).orders, o.unit = resUnit u.val → o.engine = 7) ∧
      (∀ o ∈ (s.reeve c.val).orders, o.unit ≠ resUnit u.val ∨ o.engine = 7 → o ∈ (t.reeve c.val).orders) ∧
      Halts s t c.val ∧ t.dev.stepEnd = true ∧
      Keeps { regs := fun a => theRegs pgWatch [R.watch_RES_LOG_VALID, R.watch_RES_CNT, R.STATE_STATE, R.FAULT_CAUSE, R.FAULT_ADDR_LO,
                R.FAULT_ADDR_HI] a ∨ theRegs (pgReeve c.val) [R.reeve_FAULT_IDX_INDEX, R.reeve_STATUS_MORE] a,
              crofts := (· = c.val), pumps := fun p => u.val < 4 ∧ p = c.val * 4 + u.val, dev := True, seq := True } s t)) ∧
  (∀ (s : State) (c : CroftId) (u : Fin 6), s.croftUnderReset c.val = true → exec (.residueMismatch c u) s = .next s) ∧
  (∀ s : State, Leaves (exec .stewardWdogRestart s) (fun t =>
    t.dev = { s.dev with wdogAt := s.now } ∧ Keeps { dev := True } s t)) ∧
  (∀ s : State, Leaves (exec .stewardWdogExpiry s) (fun t =>
    t.dev.faultN = true ∧ t.dev.host.mailbox.mstate = 3 ∧ t.bit pgWatch R.watch_SW_WDOG_EXPIRED = true ∧
    Counts s t pgWatch R.watch_SW_WDOG_CNT 1 ∧ Faults s t pgWatch 3 ∧
    (∀ c < 128, s.watched c = true →
      t.running c = false ∧ t.bit (pgReeve c) R.reeve_STATUS_HALTED = true ∧ (t.reeve c).dead = true ∧ (t.reeve c).pend = [] ∧
      t.fld (pgReeve c) R.STATE_STATE = stFault ∧ t.fld (pgReeve c) R.FAULT_CAUSE = 0x0A ∧
      ((s.reeve c).halting = none → t.fld (pgReeve c) R.reeve_STATUS_HALT_REASON = 4)) ∧
    (∀ c, (128 ≤ c ∨ s.watched c = false) → t.croft c = s.croft c) ∧ ∀ a, t.byte a = s.byte a)) ∧
  (∀ (s : State) (ch : Fin 14) (dir : Fin 2) (again : Bool),
    let k := ch.val * 2 + dir.val
    let n := if again then (Sparse.get? s.dev.laneFails k).getD 0 + 1 else 1
    (n ≤ 3 → Leaves (exec (.laneFlitCrcFail ch dir again) s) (fun t =>
      t.dev = { s.dev with laneFails := Sparse.set s.dev.laneFails k n } ∧ Keeps { dev := True } s t)) ∧
    (3 < n → Leaves (exec (.laneFlitCrcFail ch dir again) s) (fun t =>
      t.dev.laneFails = Sparse.eraseRange s.dev.laneFails k (k + 1) ∧
      Counts s t pgWatch R.watch_LANE_CNT 1 ∧ t.bit pgWatch R.watch_LANE_LOG_VALID = true ∧ Faults s t pgWatch 2 ∧
      (s.bit pgWatch R.watch_LANE_LOG_VALID = false →
        t.fld pgWatch R.watch_LANE_LOG_CHANNEL = ch.val ∧ t.fld pgWatch R.watch_LANE_LOG_DIR = dir.val) ∧
      (∀ c ∈ s.sharers ch.val dir.val, Halts s t c ∧ t.dev.stepEnd = true) ∧
      ∀ c, c ∉ s.sharers ch.val dir.val → t.croft c = s.croft c)))
  ) ∧
  (
  ∀ (s : State) (link : Bool) (n : Fin 28) (share : Fin 16) (c : CroftId),
    let q := n.val % 16
    let off := if link then linkShareOff q share.val else laneShareOff (n.val / 2) (n.val % 2) share.val
    let es := (List.range 64).filterMap s.transit
    let goes := share.val = 15 ∨
      (s.fld pgFabric (R.fabric_SHARE_KIND.plus off) ≠ 0 ∧
        (s.fld pgFabric (R.fabric_SHARE_KIND.plus off) = 1 → s.fld pgFabric (R.fabric_SHARE_CROFT.plus off) = c.val)) ∨
      (link = true ∧ (s.portFld R.port_RESP_SHARES (4 * q) / 2 ^ share.val % 2 = 1 ∨
        ∃ e ∈ es, e.1 = (q, share.val) ∨ e.2 = (q, share.val)))
    let mine (j : InJob) : Prop := ∃ key via parts, j = .write s.self c.val key via parts
    (goes → exec (.laneFlitHop link n share c) s = .next s) ∧
    (¬ goes → Leaves (exec (.laneFlitHop link n share c) s) (fun t =>
      Counts s t pgFabric R.fabric_HDR_COLL_CNT 1 ∧
      t.fld pgFabric R.fabric_HDR_LOG_INDEX = (if link then q else n.val) * 16 + share.val ∧
      t.bit pgFabric R.fabric_HDR_LOG_LINK = link ∧ t.fld pgFabric R.fabric_HDR_LOG_CROFT = c.val ∧
      t.bit pgFabric R.fabric_HDR_LOG_VALID = true ∧
      Keeps { regs := theRegs pgFabric [R.fabric_HDR_COLL_CNT, R.fabric_HDR_LOG_VALID], crofts := fun _ => link = false,
              links := fun x => link = true ∧ x = q } s t ∧
      (link = true → ((s.link q).waiting share.val = [] → t.link q = s.link q) ∧
        ∀ a f b, (s.link q).waiting share.val = a ++ f :: b → f.croft.val = c.val → (∀ x ∈ b, x.croft.val ≠ c.val) →
          t.link q = { s.link q with tx := Sparse.set (s.link q).tx share.val (a ++ b) }) ∧
      (link = false → Sparse.Wf s.crofts →
        ((∀ k, ∀ j ∈ (s.croft k).inJobs, ¬ mine j) ∧ ∀ k, t.croft k = s.croft k) ∨
        ∃ k a j b, (s.croft k).inJobs = a ++ j :: b ∧ mine j ∧ t.croft k = { s.croft k with inJobs := a ++ b } ∧
          ∀ x, x ≠ k → t.croft x = s.croft x)))
  )

/-- R419 to R423: a pail copied goes to the larder, into the slot's digest and among those not acknowledged; the pail of a held write is
read into a holding buffer first; an acknowledged pail is no longer waited for, and one refused or not acknowledged in 1 ms fails the
snapshot; with every pail acknowledged the header is committed, and its acknowledgement commits the snapshot. R416, R417, R425: the commands
of the Bucket page: a request asks for the boundary after the next, on every link; a restore from the larder or the partner begins with a
committed header of this device's own and is refused with cause 6 otherwise; a restore serves the ward; an abort ends one. A restore ends
when its pails are in: one that served returns to rest, one whose digest differs fails with cause 5, another is done. An exchange message is
answered. The model's readings it rests on: assumptions 54, 147. -/
def Obligations.SnapshotsAndRestoresProceed : Prop :=
  (
  ∀ (s : State) (n : Snap), s.intact = true → s.dev.snap = some n →
    (∀ k bs rest, n.begun = true → n.staged = (k, bs) :: rest → Leaves (exec .bucketPailCopy s) (fun t =>
      t.dev = { s.dev with snap := some { n with staged := rest, unacked := n.unacked ++ [k], digest := n.digest + s.pailDigest k bs } } ∧
      t.fld pgBucket R.bucket_STATUS_STAGED = rest.length % 32 ∧ t.holds (slotAddr s.larder.1 n.pails.length n.slot k) bs ∧
      Keeps { regs := theRegs pgBucket [R.bucket_STATUS_STAGED], mem := inRange (slotAddr s.larder.1 n.pails.length n.slot k) bs.length,
              links := fun _ => True, dev := True } s t)) ∧
    (∀ k rest, n.begun = true → n.staged = [] → n.uncopied = k :: rest → n.held = [] → Leaves (exec .bucketPailCopy s) (fun t =>
      let bs := s.bytes (n.addr k) pailSize
      t.dev = { s.dev with snap := some { n with uncopied := rest, unacked := n.unacked ++ [k], digest := n.digest + s.pailDigest k bs } } ∧
      t.holds (slotAddr s.larder.1 n.pails.length n.slot k) bs ∧
      Keeps { mem := inRange (slotAddr s.larder.1 n.pails.length n.slot k) pailSize, links := fun _ => True, dev := True } s t)) ∧
    (∀ h k, n.held.head? = some h → n.waiting h.addr = some k → n.staged.length < 16 →
      Leaves (exec .bucketTouchRelease s) (fun t =>
        (∃ n', t.dev = { s.dev with snap := some n' } ∧ n'.staged = n.staged ++ [(k, s.bytes (n.addr k) pailSize)] ∧
          n'.uncopied = n.uncopied.filter (· != k) ∧ ∀ x ∈ n'.held, x ∈ n.held ∧ n.pails[k]? ≠ some (x.addr / pailSize)) ∧
        Counts s t pgBucket R.bucket_TOUCH_CNT 1 ∧ t.fld pgBucket R.bucket_STATUS_STAGED = n.staged.length + 1 ∧
        Keeps { regs := theRegs pgBucket [R.bucket_TOUCH_CNT, R.bucket_STATUS_STAGED],
                mem := fun a => ∃ x ∈ n.held, n.pails[k]? = some (x.addr / pailSize) ∧ inRange x.addr x.bytes.length a, dev := True } s t)) ∧
    (∀ k p, n.unacked[k]? = some p → Leaves (exec (.bucketPailTimeout k) s) (fun t => SnapFailed s t 2)) ∧
    (∀ k dev queue tag epoch inc status, s.dev.acks[k]? = some (.segAck dev queue tag epoch inc 0 status true) →
      (status = 0 → Leaves (exec (.segAck k) s) (fun t =>
        t.dev = { s.dev with acks := s.dev.acks.eraseIdx k, snap := some { n with
          unacked := n.unacked.filter (· != queue.toNat + tag.toNat * 2 ^ 14) } } ∧
        Keeps { dev := True } s t)) ∧
      (status ≠ 0 → Leaves (exec (.segAck k) s) (fun t => SnapFailed s t (if status = 7 then 2 else 3)))) ∧
    (n.begun = true → n.uncopied = [] → n.staged = [] → n.unacked = [] → n.committing = false →
      Leaves (exec .bucketCommit s) (fun t =>
        t.dev = { s.dev with snap := some { n with committing := true } } ∧ t.fld pgBucket R.bucket_STATUS_SNAP = 2 ∧
        t.holds (s.larder.1 + 0x40 * n.slot) (headerBytes (s.commitHeader n)) ∧
        Keeps { regs := theRegs pgBucket [R.bucket_STATUS_SNAP], mem := inRange (s.larder.1 + 0x40 * n.slot) 0x40,
                links := fun _ => True, dev := True } s t)) ∧
    (n.acked = true → n.slot < 2 → Leaves (exec .commitAck s) (fun t =>
      t.dev = { s.dev with snap := none } ∧ (t.reg pgBucket (R.bucket_OWN_A.off + 4 * n.slot)).toNat = n.b % 2 ^ 32 ∧
      Counts s t pgBucket R.bucket_COMMIT_CNT 1 ∧
      t.fld pgBucket R.bucket_STATUS_SNAP = 0 ∧ t.bit pgBucket R.bucket_STATUS_HELD = false ∧
      t.fld pgBucket R.STATE_STATE = (if s.fld pgBucket R.STATE_STATE = stFault then stEnabled else s.fld pgBucket R.STATE_STATE) ∧
      Keeps { regs := theRegs pgBucket [R.bucket_OWN_A, R.bucket_OWN_B, R.bucket_COMMIT_CNT, R.bucket_STATUS_SNAP, R.STATE_STATE],
              dev := True } s t))
  ) ∧
  (
  (∀ s : State, s.reaches .host pgBucket → s.enabled pgBucket = true → Leaves (exec .bucketRequest s) (fun t =>
    t.dev = { s.dev with pendingB := some (max (s.dev.pendingB.getD 0) (s.stepIndex + 2)) } ∧
    Floods s t (.snapReq s.self (s.stepIndex + 2)) none ∧ Keeps { links := (· < 16), dev := True } s t)) ∧
  (∀ s : State, s.reaches .host pgBucket → s.enabled pgBucket = false → Leaves (exec .bucketRequest s) (fun t => Ignored s t pgBucket)) ∧
  (∀ (s : State) (r : Instr) (rest kind : Nat) (h : SlotHeader) (slot : Fin 2), s.reaches .host pgBucket → s.mayRestore = true →
    ((r = .bucketLocal slot ∧ h = s.header (s.larder.1 + 0x40 * slot.val) ∧ rest = 1 ∧ kind = 1 ∧ s.intact = true) ∨
     (r = .bucketAccept slot ∧ rest = 3 ∧ kind = 3 ∧ ∃ p, s.dev.partner = some p ∧ p.headers[slot.val]? = some h)) →
    (h.state = 2 → h.owner = s.self → Leaves (exec r s) (fun t => t.fld pgBucket R.bucket_STATUS_REST = rest ∧
      ∃ x, t.dev = { s.dev with restore := some x } ∧ x.kind = kind ∧ x.slot = slot.val ∧ x.b = h.step ∧ x.want = h.digest)) ∧
    (¬ (h.state = 2 ∧ h.owner = s.self) → Leaves (exec r s) (fun t =>
      t.fld pgBucket R.bucket_STATUS_REST = 5 ∧ t.dev = { s.dev with restore := none } ∧ Faults s t pgBucket 6 ∧
      Keeps { regs := theRegs pgBucket (R.bucket_STATUS_REST :: faultRegs), dev := True } s t))) ∧
  (∀ (s : State) (slot : Fin 2) (w : Peer), s.reaches .host pgBucket → s.mayRestore = true → s.dev.ward = some w → s.intact = true →
    Leaves (exec (.bucketServe slot) s) (fun t => t.fld pgBucket R.bucket_STATUS_REST = 2 ∧
      (∃ x, t.dev = { s.dev with restore := some x } ∧ x.kind = 2 ∧ x.slot = slot.val ∧ x.left = List.range w.set.length) ∧
      Keeps { regs := theRegs pgBucket [R.bucket_STATUS_REST], links := fun _ => True, dev := True } s t)) ∧
  (∀ s : State, s.reaches .host pgBucket → s.mayRestore = true → Leaves (exec .bucketAbort s) (fun t =>
    t.dev = { s.dev with restore := none } ∧ t.fld pgBucket R.bucket_STATUS_REST = 0 ∧
    Keeps { regs := theRegs pgBucket [R.bucket_STATUS_REST], dev := True } s t)) ∧
  (∀ s : State, s.reaches .host pgBucket → s.mayRestore = false → Leaves (exec .bucketAbort s) (fun t => Ignored s t pgBucket)) ∧
  (∀ (s : State) (x : Restore), s.dev.restore = some x → x.left = [] →
    (x.kind = 2 → Leaves (exec .restoreDone s) (fun t => t.dev = { s.dev with restore := none } ∧ t.fld pgBucket R.bucket_STATUS_REST = 0 ∧
      Keeps { regs := theRegs pgBucket [R.bucket_STATUS_REST], dev := True } s t)) ∧
    (x.kind ≠ 2 → x.digest ≠ x.want → Leaves (exec .restoreDone s) (fun t => t.dev = { s.dev with restore := none } ∧
      t.fld pgBucket R.bucket_STATUS_REST = 5 ∧ Faults s t pgBucket 5 ∧
      Keeps { regs := theRegs pgBucket (R.bucket_STATUS_REST :: faultRegs), dev := True } s t)) ∧
    (x.kind ≠ 2 → x.digest = x.want → Leaves (exec .restoreDone s) (fun t => t.dev.restore = none ∧
      t.fld pgBucket R.bucket_STATUS_REST = 4 ∧ t.stepIndex = x.b % 2 ^ 32 ∧
      t.fld pgBucket R.bucket_B_LAST = x.b % 2 ^ 32 ∧ t.fld pgBucket R.STATE_STATE ≠ stFault))) ∧
  (∀ (s : State) (l : LinkId), Leaves (exec (.bucketExchange l) s) (fun t =>
    t.out = s.out ++ [.exchangeAnswer l.val s.ownPeer] ∧ Keeps { out := True } s t))
  )

/-! ### Memory -/

/-- R241, R242: the chunk a reeve wants arrives. A chunk whose record and CRC agree is held, and CHUNK_CNT advances; a CRC that fails is
fetched a second time, counted, and a second failure stops the reeve there with cause 4; a record whose other fields differ does with cause
5. A chunk the reeve does not want changes nothing. -/
def Obligations.ChunksAreVerified : Prop :=
  (∀ (s : State) (c : CroftId) (n : Nat) (flips : List (Nat × Byte)), s.fetchWanted c.val n = false → exec (.chunkFetchDone c n flips) s = .next s) ∧
  (∀ (s : State) (c : CroftId) (n : Nat) (flips : List (Nat × Byte)), s.fetchWanted c.val n = true → s.intact = true →
    let raw := s.bytes (sliceAddr c.val (s.orderOffset c.val (n * 256))) 4096
    let bs := (List.range 4096).map (fun i => raw.getD i 0 ^^^ (Sparse.get? flips i).getD 0)
    let w : OrderWord := BitVec.ofNat 128 (leNat (bs.drop 4080))
    let agrees := checkRecordOk w (s.fld (pgReeve c.val) R.reeve_STREAM_CFG_ID) n
    let crcOk := bitsOf w.toNat 64 32 = (crc32 (bs.take 4080)).toNat
    (agrees = false → Leaves (exec (.chunkFetchDone c n flips) s) (fun t =>
      t.reeve c.val = { s.reeve c.val with failed := some (n, 5), refetch := none } ∧ Keeps { crofts := (· = c.val) } s t)) ∧
    (agrees = true → ¬ crcOk → (s.reeve c.val).refetch ≠ some n → Leaves (exec (.chunkFetchDone c n flips) s) (fun t =>
      t.reeve c.val = { s.reeve c.val with refetch := some n } ∧ Counts s t (pgReeve c.val) R.reeve_REFETCH_CNT 1 ∧
      Keeps { regs := theRegs (pgReeve c.val) [R.reeve_REFETCH_CNT], crofts := (· = c.val) } s t)) ∧
    (agrees = true → ¬ crcOk → (s.reeve c.val).refetch = some n → Leaves (exec (.chunkFetchDone c n flips) s) (fun t =>
      t.reeve c.val = { s.reeve c.val with failed := some (n, 4), refetch := none } ∧ Keeps { crofts := (· = c.val) } s t)) ∧
    (agrees = true → crcOk → Leaves (exec (.chunkFetchDone c n flips) s) (fun t =>
      t.reeve c.val = { s.reeve c.val with
        chunks := (s.reeve c.val).chunks.filter (fun k => k.no == s.pc c.val / 256) ++ [⟨n, chunkSlots bs⟩], refetch := none } ∧
      Counts s t (pgReeve c.val) R.reeve_CHUNK_CNT 1 ∧
      Keeps { regs := theRegs (pgReeve c.val) [R.reeve_CHUNK_CNT], crofts := (· = c.val) } s t)))

/-- R304, R316, R318: a read of clean words changes nothing. A word with one bit changed is corrected, counted and logged; one with two bits
changed is rebuilt from the stripe where the rest of the stripe is clean, and is uncorrectable where a part of the rest is beyond SECDED
too: counted, logged, the page in FAULT, and the order that read it halts its croft. No other byte, and no other word's check bits, change.
R299 to R301, R305: a write to a clean stripe stores its bytes and changes no other; one of a whole stripe leaves the stripe clean whatever
it held; one over which another write of its cycle takes effect is counted and stores nothing. The scrub reads the next stripe of each of
the 16 bank groups; clean stripes stay as they are, its place advances, and a pass ends after 61,440 stripes. The model's readings it rests
on: assumptions 41, 42, 146. -/
def Obligations.CisternWordsAreProtected : Prop :=
  (
  (∀ (s : State) (c : CroftId) (off : BitVec 28) (len : Fin 257) (src : Source), Machine.inStripe off.toNat len.val = true →
    s.underReset (pgCist c.val) = false →
    (∀ k ∈ wordsOf (sliceAddr c.val off.toNat) len.val, s.flipOf k = 0 ∧ k ∉ s.dev.deadWords) →
    exec (.cisternRead c off len src []) s = .next s) ∧
  (∀ (s : State) (c : CroftId) (off : BitVec 28) (len : Fin 257) (src : Source) (k : Nat), Machine.inStripe off.toNat len.val = true →
    s.underReset (pgCist c.val) = false → wordsOf (sliceAddr c.val off.toNat) len.val = [k] → k ∉ s.dev.deadWords →
    let st := k / 32
    let others := (∀ j, j ≠ k → j / 32 = st → s.flipOf j = 0) ∧ s.parityFlip st = 0 ∧ s.parityDiff st = 0
    (weight (s.flipOf k) = 1 ∨ (weight (s.flipOf k) = 2 ∧ others) → Leaves (exec (.cisternRead c off len src []) s) (fun t =>
      t.flipOf k = 0 ∧ (∀ j, j ≠ k → t.flipOf j = s.flipOf j) ∧ t.dev.deadWords = s.dev.deadWords ∧
      Counts s t (pgCist c.val) (if weight (s.flipOf k) = 1 then R.cistern_CE_CNT else R.cistern_RECON_CNT) 1 ∧
      t.fld (pgCist c.val) R.cistern_CE_LOG_KIND = (if weight (s.flipOf k) = 1 then 0 else 1) ∧
      t.bit (pgCist c.val) R.cistern_CE_LOG_VALID = true ∧
      Keeps { regs := theRegs (pgCist c.val) [if weight (s.flipOf k) = 1 then R.cistern_CE_CNT else R.cistern_RECON_CNT,
                R.cistern_CE_LOG_VALID, R.CRIER_LINE_RAISED],
              dev := True } s t)) ∧
    (weight (s.flipOf k) = 2 → s.rebuildable st k = false → src ≠ .bucket → Leaves (exec (.cisternRead c off len src []) s) (fun t =>
      Counts s t (pgCist c.val) R.cistern_UE_CNT 1 ∧ t.bit (pgCist c.val) R.cistern_UE_LOG_VALID = true ∧ k ∈ t.dev.deadWords ∧
      Faults s t (pgCist c.val) 1)) ∧
    (weight (s.flipOf k) = 2 → s.rebuildable st k = false → s.fld (pgReeve c.val) R.STATE_STATE ≠ stFault → ∀ e i, src = .engine e i →
      Leaves (exec (.cisternRead c off len src []) s) (fun t =>
        Faults s t (pgReeve c.val) 0x0C ∧ Halts s t c.val ∧
        t.fld (pgReeve c.val) R.reeve_FAULT_IDX_INDEX = i.toNat ∧ t.fld (pgReeve c.val) R.reeve_FAULT_IDX_ENGINE = e.val ∧
        Keeps { regs := someRegs [(pgCist c.val, R.cistern_UE_CNT :: R.cistern_UE_LOG_VALID :: faultRegs),
                  (pgReeve c.val, R.reeve_FAULT_IDX_INDEX :: R.reeve_STATUS_MORE :: faultRegs)],
                mem := inRange (k * 8) 8, crofts := (· = c.val), dev := True } s t)))
  ) ∧
  (
  (∀ (s : State) (c : CroftId) (off : BitVec 28) (bs : List Byte) (src : Source) (rival : Option Source), Machine.inStripe off.toNat bs.length = true →
    s.underReset (pgCist c.val) = false →
    let a := sliceAddr c.val off.toNat
    (∀ r, rival = some r → writeRank src < writeRank r → Leaves (exec (.cisternWrite c off bs src rival []) s) (fun t =>
      Counts s t (pgCist c.val) R.cistern_WW_CNT 1 ∧ Keeps { regs := theRegs (pgCist c.val) [R.cistern_WW_CNT] } s t)) ∧
    ((∀ r, rival = some r → writeRank r ≤ writeRank src) → s.cleanStripe (a / 256) → (∀ k ∈ s.dev.deadWords, k / 32 ≠ a / 256) →
      Leaves (exec (.cisternWrite c off bs src rival []) s) (fun t => t.holds a bs ∧ t.cleanStripe (a / 256) ∧
        Keeps { mem := inRange a bs.length, dev := bs.length = 256 } s t)) ∧
    ((∀ r, rival = some r → writeRank r ≤ writeRank src) → bs.length = 256 → Leaves (exec (.cisternWrite c off bs src rival []) s) (fun t =>
      t.holds a bs ∧ t.cleanStripe (a / 256) ∧ (∀ k, k / 32 ≠ a / 256 → t.flipOf k = s.flipOf k) ∧
      Keeps { mem := inRange a 256, dev := True } s t))) ∧
  (∀ (s : State) (c : CroftId), s.bit (pgCist c.val) R.cistern_CFG_SCRUB_EN = false → exec (.scrubStripe c []) s = .next s) ∧
  (∀ (s : State) (c : CroftId), s.underReset (pgCist c.val) = false → s.bit (pgCist c.val) R.cistern_CFG_SCRUB_EN = true →
    let n := s.fld (pgCist c.val) R.cistern_STATUS_SCRUB_STRIPE
    (∀ g < 16, s.cleanStripe (sliceAddr c.val (g * bankSize) / 256 + n) ∧
      ∀ k ∈ s.dev.deadWords, k / 32 ≠ sliceAddr c.val (g * bankSize) / 256 + n) →
    Leaves (exec (.scrubStripe c []) s) (fun t =>
      t.fld (pgCist c.val) R.cistern_STATUS_SCRUB_STRIPE = (if n + 1 < 61440 then n + 1 else 0) ∧
      Counts s t (pgCist c.val) R.cistern_SCRUB_PASS_CNT (if n + 1 < 61440 then 0 else 1) ∧
      Keeps { regs := theRegs (pgCist c.val) [R.cistern_STATUS_SCRUB_STRIPE, R.cistern_SCRUB_PASS_CNT] } s t))
  )

/-- R310, R311: a granary read of a clean granule counts the stack's own corrections and changes nothing else; one or two symbols changed
are corrected, counted by their number and logged; with RS_MODE 1 up to four make it uncorrectable. A granule whose data parity failed is
read again: a second failure makes it uncorrectable, and a read that passes is decoded, or merged with the bytes that wait for it. R310,
R311, R314: a write within one granule stores its bytes and no others; a whole granule is encoded anew, and any other write merges with the
granule as decoded, once it has been read with its parity in order. A write whose parity the stack reports is repeated. The patrol scrub
decodes the next granule and goes on; its place returns to 0 at a pass's end, which is counted. The model's readings it rests on:
assumptions 41, 42. -/
def Obligations.GranaryGranulesAreProtected : Prop :=
  (
  (∀ (s : State) (h : HamletId) (g : Fin 1073741824) (src : Source) (onDie : Nat), s.granServes h.val = true →
    let p := pgGran h.val
    let a := granuleOf h g.val
    let n := (symbolsOf (s.granMask a)).length
    Leaves (exec (.granaryRead h g src true onDie []) s) (fun t =>
      Counts s t p R.granary_ODECC_CNT onDie ∧ t.dev.rereads = s.dev.rereads ++ [⟨h.val, a, .read src⟩] ∧ t.granMask a = s.granMask a ∧
      Keeps { regs := theRegs p [R.granary_ODECC_CNT], dev := True } s t) ∧
    (n = 0 → a ∉ s.dev.deadGranules → Leaves (exec (.granaryRead h g src false onDie []) s) (fun t =>
      Counts s t p R.granary_ODECC_CNT onDie ∧ t.granMask a = s.granMask a ∧
      Keeps { regs := theRegs p [R.granary_ODECC_CNT], dev := True } s t)) ∧
    (s.fld p R.granary_CFG_RS_MODE ≠ 1 → n = 1 ∨ n = 2 → a ∉ s.dev.deadGranules → Leaves (exec (.granaryRead h g src false onDie []) s) (fun t =>
      Counts s t p R.granary_ODECC_CNT onDie ∧
      Counts s t p (if n = 1 then R.granary_CE_CNT else R.granary_CE2_CNT) 1 ∧ t.granMask a = s.granMask a ∧
      t.fld p R.granary_CE_LOG_HI_SYMBOLS = n ∧ t.bit p R.granary_CE_LOG_HI_VALID = true ∧
      t.fld p R.granary_CE_LOG_LO_ADDR = g.val % 2 ^ 26 ∧ t.fld p R.granary_CE_LOG_HI_ADDR = g.val / 2 ^ 26 ∧
      Keeps { regs := theRegs p [R.granary_ODECC_CNT, if n = 1 then R.granary_CE_CNT else R.granary_CE2_CNT,
                R.granary_CE_LOG_LO_ADDR, R.granary_CE_LOG_HI_ADDR], dev := True } s t)) ∧
    (s.fld p R.granary_CFG_RS_MODE = 1 → 1 ≤ n → n ≤ 4 → src ≠ .bucket → Leaves (exec (.granaryRead h g src false onDie []) s) (fun t =>
      Counts s t p R.granary_ODECC_CNT onDie ∧ Counts s t p R.granary_UE_CNT 1 ∧ t.bit p R.granary_UE_LOG_HI_VALID = true ∧
      a ∈ t.dev.deadGranules ∧
      (src = .host → Keeps { regs := theRegs p [R.granary_ODECC_CNT, R.granary_UE_CNT, R.granary_UE_LOG_LO_ADDR, R.granary_UE_LOG_HI_ADDR,
                R.CRIER_LINE_RAISED], mem := inRange (a * 64) 64, dev := True } s t)))) ∧
  (∀ (s : State) (h : HamletId) (b : StackRead), s.dev.rereads.find? (fun x => x.hamlet == h.val) = none →
    exec (.granaryRereadDone h b) s = .next s) ∧
  (∀ (s : State) (h : HamletId) (onDie : Nat) (x : Reread), s.dev.rereads.find? (fun x => x.hamlet == h.val) = some x → x.granule / 2 ^ 30 = h.val →
    (x.what = .read .host ∨ x.what = .scrub →
      Leaves (exec (.granaryRereadDone h ⟨true, onDie, []⟩) s) (fun t => t.dev.rereads = s.dev.rereads.eraseP (fun x => x.hamlet == h.val) ∧
        Counts s t (pgGran h.val) R.granary_ODECC_CNT onDie ∧
        Counts s t (pgGran h.val) R.granary_UE_CNT 1 ∧ x.granule ∈ t.dev.deadGranules) ∧
      (symbolsOf (s.granMask x.granule) = [] → x.granule ∉ s.dev.deadGranules → Leaves (exec (.granaryRereadDone h ⟨false, onDie, []⟩) s) (fun t =>
        t.dev = { s.dev with rereads := s.dev.rereads.eraseP (fun x => x.hamlet == h.val) } ∧
        Counts s t (pgGran h.val) R.granary_ODECC_CNT onDie ∧ Counts s t (pgGran h.val) R.granary_BEAT_RETRY_CNT 1 ∧
        Keeps { regs := theRegs (pgGran h.val) [R.granary_ODECC_CNT, R.granary_BEAT_RETRY_CNT], dev := True } s t))) ∧
    (∀ src a bs, x.what = .merge src a bs → src ≠ .bucket →
      Leaves (exec (.granaryRereadDone h ⟨true, onDie, []⟩) s) (fun t => t.dev.rereads = s.dev.rereads.eraseP (fun x => x.hamlet == h.val) ∧
        Counts s t (pgGran h.val) R.granary_UE_CNT 1 ∧ Counts s t (pgGran h.val) R.granary_RMW_UE_CNT 1 ∧ x.granule ∈ t.dev.deadGranules) ∧
      (s.intact = true → s.dev.snap = none → Leaves (exec (.granaryRereadDone h ⟨false, onDie, []⟩) s) (fun t =>
        t.dev = { s.dev with rereads := s.dev.rereads.eraseP (fun x => x.hamlet == h.val) } ∧ t.holds a bs ∧
        Counts s t (pgGran h.val) R.granary_ODECC_CNT onDie ∧ Counts s t (pgGran h.val) R.granary_BEAT_RETRY_CNT 1 ∧
        Keeps { regs := theRegs (pgGran h.val) [R.granary_ODECC_CNT, R.granary_BEAT_RETRY_CNT], mem := inRange a bs.length, dev := True } s t))))
  ) ∧
  (
  (∀ (s : State) (h : HamletId) (a : Fin 68719476736) (bs : List Byte) (src : Source) (parity : Bool) (onDie : Nat), s.dev.snap = none →
    s.granServes h.val = true → bs ≠ [] → a.val % 64 + bs.length ≤ 64 →
    let g := granuleOf h (a.val / 64)
    let x := h.val * 2 ^ 36 + a.val
    (bs.length = 64 → Leaves (exec (.granaryWrite h a bs src ⟨parity, onDie, []⟩) s) (fun t =>
      t.granMask g = 0 ∧ t.holds x bs ∧ (∀ j, j ≠ g → t.granMask j = s.granMask j) ∧ Keeps { mem := inRange x 64, dev := True } s t)) ∧
    (bs.length < 64 → symbolsOf (s.granMask g) = [] → g ∉ s.dev.deadGranules →
      Leaves (exec (.granaryWrite h a bs src ⟨false, onDie, []⟩) s) (fun t =>
        t.holds x bs ∧ Counts s t (pgGran h.val) R.granary_ODECC_CNT onDie ∧ (∀ j, j ≠ g → t.granMask j = s.granMask j) ∧
        Keeps { regs := theRegs (pgGran h.val) [R.granary_ODECC_CNT], mem := inRange x bs.length, dev := True } s t)) ∧
    (bs.length < 64 → Leaves (exec (.granaryWrite h a bs src ⟨true, onDie, []⟩) s) (fun t =>
      t.dev.rereads = s.dev.rereads ++ [⟨h.val, g, .merge src x bs⟩] ∧ Counts s t (pgGran h.val) R.granary_ODECC_CNT onDie ∧
      (∀ j, t.granMask j = s.granMask j) ∧ Keeps { regs := theRegs (pgGran h.val) [R.granary_ODECC_CNT], dev := True } s t))) ∧
  (∀ (s : State) (h : HamletId) (g : Fin 1073741824), s.granServes h.val = true → s.dev.writeRetries.contains (granuleOf h g.val) = false →
    Leaves (exec (.writeParityReport h g) s) (fun t =>
      t.dev = { s.dev with writeRetries := s.dev.writeRetries ++ [granuleOf h g.val] } ∧ Keeps { dev := True } s t)) ∧
  (∀ (s : State) (h : HamletId) (onDie : Nat), s.granServes h.val = true → s.bit (pgGran h.val) R.granary_CFG_SCRUB_EN = true →
    let n := (Sparse.get? s.dev.scrubAt h.val).getD 0
    (symbolsOf (s.granMask (granuleOf h n)) = [] → granuleOf h n ∉ s.dev.deadGranules → Leaves (exec (.granaryScrub h ⟨false, onDie, []⟩) s) (fun t =>
      Sparse.get? t.dev.scrubAt h.val = some ((n + 1) % 2 ^ 30) ∧ Counts s t (pgGran h.val) R.granary_ODECC_CNT onDie ∧
      Counts s t (pgGran h.val) R.granary_SCRUB_PASS_CNT (if 2 ^ 30 ≤ n + 1 then 1 else 0) ∧
      Keeps { regs := theRegs (pgGran h.val) [R.granary_ODECC_CNT, R.granary_SCRUB_PASS_CNT], dev := True } s t)) ∧
    Leaves (exec (.granaryScrub h ⟨true, onDie, []⟩) s) (fun t =>
      t.dev.rereads = s.dev.rereads ++ [⟨h.val, granuleOf h n, .scrub⟩] ∧ Sparse.get? t.dev.scrubAt h.val = some ((n + 1) % 2 ^ 30) ∧
      Counts s t (pgGran h.val) R.granary_SCRUB_PASS_CNT (if 2 ^ 30 ≤ n + 1 then 1 else 0) ∧
      Keeps { regs := theRegs (pgGran h.val) [R.granary_ODECC_CNT, R.granary_SCRUB_PASS_CNT], dev := True } s t))
  )

/-- R307, R313, R322: a refresh changes no contents, and a refresh-management command is counted; a temperature readout is kept, refresh
doubles at 85 °C and above and returns below 83 °C; a controller fault, on a second failed readout, a second parity report for a write or a
command that times out, puts the page in FAULT and halts the crofts of the hamlet with a granary request outstanding. The model's readings
it rests on: assumption 43. -/
def Obligations.GranaryControllerActs : Prop :=
  (∀ (s : State) (h : HamletId) (rfm : Bool), s.granServes h.val = true → Leaves (exec (.granaryRefresh h rfm) s) (fun t =>
    Counts s t (pgGran h.val) R.granary_RFM_CNT (if rfm then 1 else 0) ∧
    Keeps { regs := theRegs (pgGran h.val) [R.granary_RFM_CNT] } s t)) ∧
  (∀ (s : State) (h : HamletId) (x : Byte), s.granServes h.val = true → Leaves (exec (.granaryTempReadout h (some x)) s) (fun t =>
    t.fld (pgGran h.val) R.granary_THERM_TEMP = x.toNat ∧ Sparse.get? t.dev.tempFails h.val = none ∧
    t.bit (pgGran h.val) R.granary_STATUS_REFRESH_2X =
      (if 85 ≤ x.toNat then true else if x.toNat < 83 then false else s.bit (pgGran h.val) R.granary_STATUS_REFRESH_2X) ∧
    (s.fld (pgGran h.val) R.granary_THERM_HOT_LIMIT ≤ x.toNat → t.bit (pgGran h.val) R.granary_STATUS_HOT = true) ∧
    (x.toNat < s.fld (pgGran h.val) R.granary_THERM_HOT_LIMIT →
      Keeps { regs := theRegs (pgGran h.val) [R.granary_THERM_TEMP, R.granary_STATUS_REFRESH_2X], dev := True } s t))) ∧
  (∀ (s : State) (h : HamletId), s.granServes h.val = true → (Sparse.get? s.dev.tempFails h.val).getD 0 = 0 →
    Leaves (exec (.granaryTempReadout h none) s) (fun t =>
      t.dev = { s.dev with tempFails := Sparse.set s.dev.tempFails h.val 1 } ∧ Keeps { dev := True } s t)) ∧
  (∀ (s : State) (h : HamletId) (i : Instr) (cause addr : Nat), s.granServes h.val = true →
    ((i = .granaryTempReadout h none ∧ cause = 3 ∧ addr = 0 ∧ 1 ≤ (Sparse.get? s.dev.tempFails h.val).getD 0) ∨
     (∃ g, i = .writeParityReport h g ∧ cause = 4 ∧ addr = g.val * 64 ∧ s.dev.writeRetries.contains (granuleOf h g.val) = true) ∨
     (∃ a, i = .granaryCmdTimeout h a ∧ cause = 2 ∧ addr = a.val)) →
    Leaves (exec i s) (fun t =>
      t.fld (pgGran h.val) R.STATE_STATE = stFault ∧ t.fld (pgGran h.val) R.FAULT_CAUSE = cause ∧
      t.fld (pgGran h.val) R.FAULT_ADDR_LO = addr % 2 ^ 32 ∧
      (∀ c, c / 16 = h.val → s.granWaits c h.val = true → Halts s t c ∧ t.dev.stepEnd = true) ∧
      (∀ c, c / 16 ≠ h.val ∨ s.granWaits c h.val = false → t.croft c = s.croft c) ∧ t.mem = s.mem ∧ t.out = s.out))

/-! ### Sluices and links -/

/-- R324, R327, R444: a doorbell of 0 descriptors has no effect; one of an agent that does not own the queue collides, and ends a write of
the host's as a refused access; one that fits its ring advances TAIL; one that does not fit is refused, counted, and leaves the queue as it
was. R338, R339, R345: an epoch advances by an EPOCH descriptor, by a restart of a stopped queue and by command on an idle one: to the next
of 16, with its tags free again; while the queue left that epoch less than twice SEG_TIMEOUT ago it waits, counted, and the wait's end
advances it. A restart or an advance in any other state has no effect. The model's readings it rests on: assumption 39. -/
def Obligations.DoorbellsAndEpochs : Prop :=
  (
  ∀ (s : State) (q : QueueId) (who : Ringer) (n : BitVec 16), s.reaches (ringAgent who) (pgQueue q.val) →
    let own := pgOwn (qCroft q.val)
    let owned := s.queueOwner (qCroft q.val) (qLocal q.val) = ringOwner who
    (n = 0 → Leaves (exec (.doorbell q who n) s) (fun t => Ignored s t (pgQueue q.val))) ∧
    (n ≠ 0 → ¬ owned → Leaves (exec (.doorbell q who n) s) (fun t =>
      Counts s t own R.own_HOST_COLL_CNT 1 ∧ Counts s t own R.own_COLL_CNT 1 ∧ t.bit own R.own_COLL_STATUS_VALID = true ∧
      (s.bit own R.own_COLL_STATUS_VALID = false →
        t.fld own R.own_COLL_STATUS_SOURCE = 10 ∧ t.fld own R.own_COLL_STATUS_CLASS = 4) ∧
      (who = .host → HostEnds s t 0 endRefused true ((pgQueue q.val).base + R.qgroup_DOORBELL_COUNT.off + qblk q.val)) ∧
      Keeps { regs := fun a => own.covers a ∨ (who = .host ∧ theRegs pgHost (hostEndRegs endRefused) a), dev := True, seq := True } s t)) ∧
    (n ≠ 0 → owned → s.hasRoom q.val n.toNat = true → Leaves (exec (.doorbell q who n) s) (fun t =>
      t.queue q.val = { s.queue q.val with tail := (s.queue q.val).tail + n.toNat, owner := ringOwner who } ∧
      Keeps { queues := (· = q.val) } s t)) ∧
    (n ≠ 0 → owned → s.hasRoom q.val n.toNat = false → Leaves (exec (.doorbell q who n) s) (fun t =>
      Counts s t (pgSluice (qCroft q.val)) R.sluice_DB_REFUSE_CNT 1 ∧
      Keeps { regs := theRegs (pgSluice (qCroft q.val)) [R.sluice_DB_REFUSE_CNT] } s t))
  ) ∧
  (
  ∀ (s : State) (q : QueueId), let k := s.queue q.val
    (∀ x, s.freshXfer q.val 3 = some x →
      (s.leftSoon q.val = false → Leaves (exec (.epoch q) s) (fun t => EpochTakes s t q.val)) ∧
      (s.leftSoon q.val = true → Leaves (exec (.epoch q) s) (fun t => EpochWaits s t q.val (some x.idx)))) ∧
    (∀ o, k.waiting = some o → Leaves (exec (.epochWaitEnd q) s) (fun t => EpochTakes s t q.val)) ∧
    (k.waiting = none → exec (.epochWaitEnd q) s = .next s) ∧
    (s.reaches .host (pgQueue q.val) →
      (k.state = 2 → s.leftSoon q.val = false → Leaves (exec (.queueRestart q) s) (fun t => EpochTakes s t q.val ∧ (t.queue q.val).stopper = none)) ∧
      (k.state = 2 → s.leftSoon q.val = true → Leaves (exec (.queueRestart q) s) (fun t => EpochWaits s t q.val none ∧ (t.queue q.val).stopper = none)) ∧
      (k.state ≠ 2 → Leaves (exec (.queueRestart q) s) (fun t => Ignored s t (pgQueue q.val))) ∧
      (k.state = 0 → s.leftSoon q.val = false → Leaves (exec (.advanceEpoch q) s) (fun t => EpochTakes s t q.val)) ∧
      (k.state = 0 → s.leftSoon q.val = true → Leaves (exec (.advanceEpoch q) s) (fun t => EpochWaits s t q.val none)) ∧
      (k.state ≠ 0 → Leaves (exec (.advanceEpoch q) s) (fun t => Ignored s t (pgQueue q.val))))
  )

/-- R328, R331: a queue with a descriptor between HEAD and TAIL, not stopped, not waiting and within MAX_OUT starts it, unless a fence or an
EPOCH waits for the records before it; a descriptor error moves nothing, is counted, and under STOP_ON_ERROR stops the queue. R330, R335,
R337: a started COPY or FILL may issue its segments, and a started NOP writes its record of 32 bytes, status OK, and no other byte; DONE
follows over the records written, and the signals the descriptor asks for are sent. With no such descriptor nothing happens. The model's
readings it rests on: assumptions 36, 38, 40. -/
def Obligations.DescriptorsTakeEffect : Prop :=
  (
  ∀ (s : State) (q : QueueId), let c := qCroft q.val
    let k := s.queue q.val
    let off := s.descOff q.val k.head
    let d := s.readDesc c off
    let may := k.head < k.tail ∧ k.stopper = none ∧ k.waiting = none ∧ k.xfers.length < s.qfld q.val R.qgroup_QCFG_MAX_OUT ∧
      s.croftUnderReset c = false ∧ s.clockRuns c = true
    let held := (d.fence || d.kind == 3) && !k.allWritten
    (¬ may → exec (.descriptorStart q) s = .next s) ∧
    (may → s.intact = true → s.bankMiss c agSluice false off 64 = none →
      (held = true → exec (.descriptorStart q) s = .next s) ∧
      (held = false → s.descErr k d = false → Leaves (exec (.descriptorStart q) s) (fun t =>
        t.queue q.val = { k with
          head := k.head + 1, tags := k.tags ++ [d.tag], xfers := k.xfers ++ [⟨k.head, k.epoch, d, d.segs, true⟩] } ∧
        Keeps { queues := (· = q.val) } s t)) ∧
      (held = false → s.descErr k d = true → Leaves (exec (.descriptorStart q) s) (fun t =>
        (t.queue q.val).head = k.head + 1 ∧ (t.queue q.val).tags = k.tags ∧ (t.queue q.val).tail = k.tail ∧
        (t.queue q.val).stopper = (if s.qfld q.val R.qgroup_QCFG_MODE = 0 then some k.head else none) ∧
        Counts s t (pgSluice c) R.sluice_DESC_ERR_CNT 1 ∧ Counts s t (pgSluice c) R.sluice_ERR_CNT 1 ∧
        t.fld (pgQueue q.val) (R.qgroup_LAST_ERR_STATUS.plus (qblk q.val)) = 9 ∧
        ∀ a, ¬ inRange (sliceAddr c (s.recOff q.val k.head)) 32 a → t.byte a = s.byte a)))
  ) ∧
  (
  (∀ (s : State) (q : QueueId) (r : Instr) (kind : Nat), ((r = .copy q ∧ kind = 1) ∨ (r = .fill q ∧ kind = 2)) →
    (s.freshXfer q.val kind = none → exec r s = .next s) ∧
    (∀ x, s.freshXfer q.val kind = some x → Leaves (exec r s) (fun t =>
      t.queue q.val = { s.queue q.val with
        xfers := (s.queue q.val).xfers.map (fun y => if y.idx = x.idx then { y with fresh := false } else y) } ∧
      Keeps { queues := (· = q.val) } s t))) ∧
  (∀ (s : State) (q : QueueId), s.freshXfer q.val 0 = none → exec (.descriptorNop q) s = .next s) ∧
  (∀ (s : State) (q : QueueId) (x : Xfer), s.freshXfer q.val 0 = some x → s.intact = true → 1 ≤ x.desc.nseg → x.desc.nseg ≤ 64 →
    let c := qCroft q.val
    let k := s.queue q.val
    let off := s.recOff q.val x.idx
    let d := x.desc
    let here := match s.dstDev d with | some dev => decide (dev % 2 ^ 14 = s.self) | none => false
    s.croftUnderReset c = false → s.bankMiss c agSluice true off 32 = none →
    Leaves (exec (.descriptorNop q) s) (fun t =>
      t.holds (sliceAddr c off) (({ x with segs := [] } : Xfer).record false s.bellNow x.desc.nseg) ∧
      t.queue q.val = ({ k with xfers := k.xfers.filter (fun y => y.idx != x.idx), written := k.written ++ [x.idx] } : Queue).advance ∧
      Counts s t (pgSluice c) R.sluice_XFER_CNT 1 ∧
      t.dev.signals = s.dev.signals ++
        (if d.lSig then [⟨some c, d.ltok.2.1, d.ltok.1, d.ltok.2.2, some q.val, false⟩] else []) ++
        (if d.rSig && here then [⟨none, d.rtok.2.1 % 128, d.rtok.1 % 256, d.rtok.2.2 % 65536, some q.val, true⟩] else []) ∧
      Keeps { regs := someRegs [(pgSluice c, [R.sluice_XFER_CNT]), (pgQueue q.val, [R.CRIER_LINE_RAISED]), (pgPort, [R.port_CTRL_DROP_CNT])],
              mem := inRange (sliceAddr c off) 32, queues := (· = q.val), links := fun _ => True, dev := True } s t))
  )

/-- R284, R325, R330, R333: cycle 0 of the sluice's frame moves nothing. A slot of a stream queue whose oldest unfinished segment is a FILL
of its own slice writes the pattern to the granules of its beat, and to no other byte, and the segment advances; an IN slot writes the
oldest waiting incoming bytes where the bank group allows it, and counts a collision where it does not. R334 to R336, R338, R340: a segment
whose last byte has left and that is not acknowledged in time ends with TIMEOUT; an acknowledgement of the queue's epoch and incarnation
ends its segment with the status it carries; one of another is discarded and counted. A segment that has ended is not ended again. The
model's readings it rests on: assumptions 34, 49. -/
def Obligations.SegmentsMoveAndEnd : Prop :=
  (
  (∀ (s : State) (c : CroftId) (turn : Fin 4), exec (.sluiceSlotCycle c 0 turn) s = .next s) ∧
  (∀ (s : State) (c : CroftId) (cyc : Fin 16) (turn : Fin 4) (x : Xfer) (k : Nat) (g : Seg), s.intact = true → s.drained c.val = false →
    s.clockRuns c.val = true → cyc.val ≠ 0 → cyc.val ≠ 8 → s.slotEntry c.val cyc.val < 0x80 →
    let q := c.val * 128 + s.slotEntry c.val cyc.val
    let d := x.desc
    let ps := d.granules (k * d.segSize + g.moved) (min 256 (g.size - g.moved))
    (s.queue q).owner = 1 → s.current q = some (x, k, g) → d.kind = 2 → s.dstDest d = .here →
    d.dst % 64 = 0 → d.dstPitch % 64 = 0 → d.rowBytes % 64 = 0 → g.moved % 64 = 0 → 64 ≤ g.size - g.moved →
    (∀ p ∈ ps, placeOf (d.dstAddr p) = .slice c.val (d.dstAddr p - sliceAddr c.val 0)) →
    (∀ p ∈ ps, s.bankMiss c.val agSluice true (d.dstAddr p - sliceAddr c.val 0) 64 = none) →
    Leaves (exec (.sluiceSlotCycle c cyc turn) s) (fun t =>
      (∀ p ∈ ps, t.holds (d.dstAddr p) (fillBytes d.fill 64)) ∧
      (∀ a, (∀ p ∈ ps, ¬ inRange (d.dstAddr p) 64 a) → t.byte a = s.byte a) ∧
      t.queue q = { s.queue q with
        xfers := (s.queue q).xfers.map (fun y => if y.idx = x.idx then
          { y with segs := y.segs.modify k (fun g => { g with moved := g.moved + 64 * ps.length }) } else y) })) ∧
  (∀ (s : State) (c : CroftId) (cyc : Fin 16) (turn : Fin 4) (dev src o : Nat) (key : SegKey) (via : Option Nat) (bs : List Byte) (rest : List InJob),
    s.intact = true → s.drained c.val = false → s.clockRuns c.val = true → cyc.val ≠ 0 → cyc.val ≠ 8 → s.slotEntry c.val cyc.val = 0x80 →
    (s.croft c.val).inJobs = .write dev src key via [(o, bs)] :: rest →
    (s.bankMiss c.val agSluice true o bs.length = none → Leaves (exec (.sluiceSlotCycle c cyc turn) s) (fun t =>
      (t.croft c.val).inJobs = rest ∧ t.holds (sliceAddr c.val o) bs ∧
      ∀ a, ¬ inRange (sliceAddr c.val o) bs.length a → t.byte a = s.byte a)) ∧
    (s.bankMiss c.val agSluice true o bs.length ≠ none → Leaves (exec (.sluiceSlotCycle c cyc turn) s) (fun t =>
      (t.croft c.val).inJobs = rest ∧ Counts s t (pgOwn c.val) R.own_IN_COLL_CNT 1 ∧ ∀ a, t.byte a = s.byte a)))
  ) ∧
  (
  (∀ (s : State) (q : QueueId) (idx : BitVec 32) (seg : Fin 64) (x : Xfer) (g : Seg),
    (s.queue q.val).xfers.find? (fun x => x.idx % 2 ^ 32 == idx.toNat) = some x → x.segs[seg.val]? = some g → g.res = none →
    g.size ≤ g.moved →
    Leaves (exec (.segTimeout q idx seg) s) (fun t =>
      Counts s t (pgSluice (qCroft q.val)) R.sluice_TIMEOUT_CNT 1 ∧
      (∀ y, t.xfer? q.val x.idx = some y → ∃ g', y.segs[seg.val]? = some g' ∧ g'.res = some 6))) ∧
  (∀ (s : State) (k : Nat) (dev : BitVec 14) (queue : BitVec 14) (tag : BitVec 12) (epoch inc : BitVec 4) (seg : BitVec 6) (status : BitVec 4),
    s.dev.acks[k]? = some (.segAck dev queue tag epoch inc seg status false) →
    let c := qCroft queue.toNat
    let Q := s.queue queue.toNat
    (inc.toNat ≠ s.inc c ∨ epoch.toNat ≠ Q.epoch → Leaves (exec (.segAck k) s) (fun t =>
      Counts s t (pgSluice c) R.sluice_STALE_CNT 1 ∧ t.dev = { s.dev with acks := s.dev.acks.eraseIdx k } ∧
      Keeps { regs := theRegs (pgSluice c) [R.sluice_STALE_CNT], dev := True } s t)) ∧
    (∀ x g, inc.toNat = s.inc c → epoch.toNat = Q.epoch → Q.xfers.find? (fun x => x.desc.tag == tag.toNat && x.epoch == epoch.toNat) = some x →
      s.xfer? queue.toNat x.idx = some x → x.segs[seg.toNat]? = some g → g.res = none →
      Leaves (exec (.segAck k) s) (fun t =>
        Counts s t (pgSluice c) R.sluice_SEG_CNT (if status = 0 then 1 else 0) ∧
        (∀ y, t.xfer? queue.toNat x.idx = some y → ∃ g', y.segs[seg.toNat]? = some g' ∧ g'.res = some status.toNat))))
  )

/-- R346, R350 to R354: a link that is up or retrains sends a frame of twenty flits, striped over its lanes, that begins at its next
sequence number and acknowledges what it has accepted, with at most three control messages; the next frame begins twenty later. During a
retrain the frame says so and takes no waiting flit. Any other link sends nothing. R350, R351, R353, R354, R362, R373: what a decoder
reports of a frame is counted, by codeword and by lane. A frame whose header CRC fails is rejected whole, counted, and a NAK is due. A frame
of idle flits in sequence is accepted and acknowledges what it names; a flit whose CRC fails is counted, is not accepted, and a NAK is due;
a READ_REQ for this device is kept for service. The model's readings it rests on: assumptions 23, 48, 138. -/
def Obligations.FramesAreSentAndReceived : Prop :=
  (
  (∀ (s : State) (l : LinkId), s.linkState l.val ≠ 2 → s.linkState l.val ≠ 3 → exec (.frameSend l) s = .next s) ∧
  (∀ (s : State) (l : LinkId), s.linkState l.val = 2 ∨ s.linkState l.val = 3 → Leaves (exec (.frameSend l) s) (fun t =>
    ∃ f : Frame, t.out = s.out ++ [.frame l.val (stripe f.bytes)] ∧ f.flits.length = 20 ∧
      f.ctrl.length ≤ 3 ∧ f.firstSeq.toNat = (s.link l.val).next % 2 ^ 32 ∧ f.ackSeq.toNat = (s.link l.val).expect % 2 ^ 32 ∧
      f.cack.toNat = (s.link l.val).cexpect % 2 ^ 8 ∧ (f.nak = true → (s.link l.val).nak = true) ∧
      f.retrain = decide (s.linkState l.val = 3) ∧ (t.link l.val).next = (s.link l.val).next + 20 ∧
      (t.link l.val).expect = (s.link l.val).expect ∧
      (s.linkState l.val = 3 → (t.link l.val).tx = (s.link l.val).tx ∧ (t.link l.val).replay = (s.link l.val).replay) ∧
      Keeps { regs := fun a => theRegs (pgLink l.val) [R.link_TX_FLIT_CNT] a ∨ theRegs (pgLedger (gateOf l.val)) [R.ledger_TX_GRAN_CNT] a,
              links := (· = l.val), dev := True, out := True } s t))
  ) ∧
  (
  ∀ (s : State) (l : LinkId) (a b c d : List (List (BitVec 2))) (fixes : List (Fin 5376 × Byte)) (flagged : List (Fin 24)),
    s.linkState l.val = 2 ∨ s.linkState l.val = 3 →
    let x := received (a ++ b ++ c ++ d) fixes
    let f := x.frame
    let k := s.link l.val
    let places := fixes.map (fun x => x.1.val)
    let fec := [R.link_FEC_CORR_CNT, R.link_FEC_UNCORR_CNT]
    let acked : Link := { k with
      replay := k.replay.filter (fun e => !covers 32 f.ackSeq.toNat e.seq)
      creplay := k.creplay.filter (fun e => !covers 8 f.cack.toNat e.seq) }
    (x.headerOk = false → Leaves (exec (.frameReceive l a b c d fixes flagged) s) (fun t =>
      FecCounted s t l.val places flagged.length ∧
      t.link l.val = { k with nak := true, cnak := true, laneErr := (t.link l.val).laneErr } ∧ Counts s t (pgLink l.val) R.link_HCRC_FAIL_CNT 1 ∧
      Keeps { regs := theRegs (pgLink l.val) (fec ++ [R.link_HCRC_FAIL_CNT]), links := (· = l.val), dev := True } s t)) ∧
    (∀ (y : Flit) (rest : List Flit), x.headerOk = true → f.nak = false → f.cnak = false → f.retrain = false → f.ctrl = [] →
      f.flits = y :: rest → (∀ z ∈ rest, z.body = .idle) → f.firstSeq.toNat = k.expect % 2 ^ 32 →
      (x.ok = List.replicate 20 true → y.body = .idle → Leaves (exec (.frameReceive l a b c d fixes flagged) s) (fun t =>
        FecCounted s t l.val places flagged.length ∧
        t.link l.val = { acked with expect := k.expect + 20, nak := false, laneErr := (t.link l.val).laneErr } ∧
        Keeps { regs := theRegs (pgLink l.val) fec, links := (· = l.val), dev := True } s t)) ∧
      (x.ok = false :: List.replicate 19 true → Leaves (exec (.frameReceive l a b c d fixes flagged) s) (fun t =>
        FecCounted s t l.val places flagged.length ∧
        t.link l.val = { acked with nak := true, laneErr := (t.link l.val).laneErr } ∧ Counts s t (pgLink l.val) R.link_CRC_FAIL_CNT 1 ∧
        Keeps { regs := theRegs (pgLink l.val) (fec ++ [R.link_CRC_FAIL_CNT]), links := (· = l.val), dev := True } s t)) ∧
      (∀ h, x.ok = List.replicate 20 true → y.body = .head h → h.kind = .readReq → h.dstDev.toNat = s.self →
        s.forward l.val (f.firstSeq.toNat % 16) = none → Leaves (exec (.frameReceive l a b c d fixes flagged) s) (fun t =>
        FecCounted s t l.val places flagged.length ∧
        (t.link l.val).inbox = k.inbox ++ [⟨f.firstSeq.toNat % 16, y.croft.val, h, [], s.resetAt h.addr.toNat⟩] ∧
        (t.link l.val).expect = k.expect + 20 ∧ (t.link l.val).nak = false ∧
        Counts s t (pgLink l.val) R.link_RX_FLIT_CNT ((k.rxCount + 1) / 2 ^ 20) ∧
        Keeps { regs := theRegs (pgLink l.val) (fec ++ [R.link_RX_FLIT_CNT]), links := (· = l.val), dev := True } s t)))
  )

/-- R354 to R356, R373, R557: a flit or control message 4 µs without acknowledgement is replayed, one replay a cycle, and after a third
replay a retrain is due instead; a due retrain, or a command, starts one; a retrain or a training that does not end, a take-down and the
loss of the reference clock take the link down, each with its cause; a link that comes up knows the far end and replays from what it has
accepted. The model's readings it rests on: assumptions 46, 145. -/
def Obligations.LinksRetrainAndGoDown : Prop :=
  ∀ (s : State) (l : LinkId), let k := s.link l.val
    let p := pgLink l.val
    ((s.linkState l.val ≠ 2 ∨ k.replay = [] ∨ k.replayAt = some s.now → exec (.replayTimeout l false) s = .next s) ∧
      (s.linkState l.val ≠ 2 ∨ k.creplay = [] ∨ k.creplayAt = some s.now → exec (.replayTimeout l true) s = .next s)) ∧
    (∀ e es, s.linkState l.val = 2 → k.replay = e :: es → k.replayAt ≠ some s.now →
      (worn k.replay e.seq = true → Leaves (exec (.replayTimeout l false) s) (fun t =>
        t.link l.val = { k with retrainDue := true } ∧ Keeps { links := (· = l.val) } s t)) ∧
      (worn k.replay e.seq = false → Leaves (exec (.replayTimeout l false) s) (fun t =>
        t.link l.val = { k with next := e.seq, replay := replayFrom k.replay e.seq, replayAt := some s.now } ∧
        Counts s t p R.link_TIMEOUT_REPLAY_CNT 1 ∧
        Keeps { regs := theRegs p [R.link_TIMEOUT_REPLAY_CNT], links := (· = l.val), dev := True } s t))) ∧
    (∀ e es, s.linkState l.val = 2 → k.creplay = e :: es → k.creplayAt ≠ some s.now →
      (worn k.creplay e.seq = true → Leaves (exec (.replayTimeout l true) s) (fun t =>
        t.link l.val = { k with retrainDue := true } ∧ Keeps { links := (· = l.val) } s t)) ∧
      (worn k.creplay e.seq = false → Leaves (exec (.replayTimeout l true) s) (fun t =>
        t.link l.val = { k with cnext := e.seq, creplay := replayFrom k.creplay e.seq, creplayAt := some s.now } ∧
        Counts s t p R.link_TIMEOUT_REPLAY_CNT 1 ∧
        Keeps { regs := theRegs p [R.link_TIMEOUT_REPLAY_CNT], links := (· = l.val), dev := True } s t))) ∧
    (k.retrainDue = true → s.linkState l.val = 2 → Leaves (exec (.retrainStart l) s) (fun t => Retrains s t l.val)) ∧
    (k.retrainDue = false ∨ s.linkState l.val ≠ 2 → exec (.retrainStart l) s = .next s) ∧
    (s.linkState l.val = 1 → Leaves (exec (.retrainTimeout l) s) (fun t => LinkDowns s t l.val 3)) ∧
    (s.linkState l.val = 3 → Leaves (exec (.retrainTimeout l) s) (fun t => LinkDowns s t l.val 1)) ∧
    (s.linkState l.val ≠ 1 → s.linkState l.val ≠ 3 → exec (.retrainTimeout l) s = .next s) ∧
    (s.reaches .host p →
      (s.linkState l.val = 2 ∨ s.linkState l.val = 4 → Leaves (exec (.linkRetrain l) s) (fun t => Retrains s t l.val)) ∧
      (s.linkState l.val ≠ 2 → s.linkState l.val ≠ 4 → Leaves (exec (.linkRetrain l) s) (fun t => Ignored s t p)) ∧
      (s.linkState l.val = 2 → Leaves (exec (.linkTakeDown l) s) (fun t => LinkDowns s t l.val 4)) ∧
      (s.linkState l.val ≠ 2 → Leaves (exec (.linkTakeDown l) s) (fun t => Ignored s t p))) ∧
    (∀ g : Fin 2,
      (l.val / 8 = g.val → s.linkState l.val ≠ 0 → s.linkState l.val ≠ 4 → Leaves (exec (.qrefLoss g) s) (fun t =>
        t.linkState l.val = 4 ∧ t.linkUp l.val = false ∧ t.fld p R.link_LAST_DOWN_CAUSE = 5 ∧ Counts s t p R.link_DOWN_CNT 1)) ∧
      (l.val / 8 ≠ g.val ∨ s.linkState l.val = 0 ∨ s.linkState l.val = 4 → Leaves (exec (.qrefLoss g) s) (fun t =>
        t.linkState l.val = s.linkState l.val)) ∧
      (g.val = 0 → s.bellState ≠ bFree → Leaves (exec (.qrefLoss g) s) (fun t => t.bellState = bHoldover))) ∧
    (∀ (dev : BitVec 14) (far : LinkId) (vidx : BitVec 4) (rev : Bool) (pol : BitVec 12) (ack : BitVec 32) (cack : BitVec 8),
      let same := s.fld p R.link_FAR_ID_FAR_DEV = dev.toNat ∧ s.fld p R.link_FAR_ID_FAR_LINK = far.val ∧
        s.fld p R.link_FAR_ID_FAR_VIDX = vidx.toNat
      let up := fun t : State => t.linkState l.val = 2 ∧ t.linkUp l.val = true ∧ t.fld p R.link_FAR_ID_FAR_DEV = dev.toNat ∧
        t.fld p R.link_FAR_ID_FAR_LINK = far.val ∧ t.fld p R.link_FAR_ID_FAR_VIDX = vidx.toNat ∧ t.bit p R.link_FAR_ID_VALID = true ∧
        t.bit p R.link_LSTATUS_REVERSED = rev ∧ t.fld p R.link_LSTATUS_POLARITY = pol.toNat
      (s.linkState l.val = 1 → Leaves (exec (.linkUp l dev far vidx rev pol ack cack) s) (fun t =>
        up t ∧ t.fld p R.STATE_STATE = stEnabled ∧ t.link l.val = k)) ∧
      (s.linkState l.val = 3 → s.bit p R.link_FAR_ID_VALID = true → ¬ same →
        Leaves (exec (.linkUp l dev far vidx rev pol ack cack) s) (fun t => LinkDowns s t l.val 2)) ∧
      (s.linkState l.val = 3 → s.bit p R.link_FAR_ID_VALID = false ∨ same →
        Leaves (exec (.linkUp l dev far vidx rev pol ack cack) s) (fun t => up t ∧
          (t.link l.val).next = unwrap 32 k.high ack.toNat ∧ (t.link l.val).cnext = unwrap 8 k.chigh cack.toNat ∧
          (t.link l.val).expect = k.expect ∧ (t.link l.val).tx = k.tx ∧ (t.link l.val).wasDown = false ∧
          (∀ e ∈ (t.link l.val).replay, e.count = 0 ∧ covers 32 ack.toNat e.seq = false) ∧
          (∀ e ∈ (t.link l.val).creplay, e.count = 0 ∧ covers 8 cack.toNat e.seq = false) ∧
          ((t.link l.val).creplay = [] → (t.link l.val).chigh = (t.link l.val).cnext) ∧
          (k.wasDown = true → t.linkDowned l.val = false ∧ (s.bit p R.CTL_ENABLE = true → t.fld p R.STATE_STATE = stEnabled)))) ∧
      (s.linkState l.val ≠ 1 → s.linkState l.val ≠ 3 → exec (.linkUp l dev far vidx rev pol ack cack) s = .next s))

/-- R333, R338, R361, R362: a WRITE for a granary is written there, and to no other byte; one for a slice, and the answer to a read of this
device's, waits for the slice's IN cycles, unless the answer's epoch or incarnation is past: then it is discarded and counted. A READ_REQ of
a share that is not served is refused and counted; one of a granary is answered at once on its share, one of a slice waits for the IN
cycles. R340, R361, R393: a reassembly entry that has received nothing for 3 ms is closed without a reply; the window after an incarnation's
advance ends; a read of DIGEST0 latches the digest that SEL names. Nothing else changes. The model's readings it rests on: assumptions 34,
49. -/
def Obligations.MessagesAreServed : Prop :=
  (
  ∀ (s : State) (l : LinkId) (k : Nat) (m : RxMsg), let a := m.head.addr.toNat
    let n := m.bytes.length
    let rest := (s.link l.val).inbox.eraseIdx k
    let via := m.via l.val
    (s.message l.val k .write = some m → m.head.bucket = false → 0 < n → s.keptFrom a n = false →
      s.placeWaits (headKey m.head l.val) via a false = false →
      (∀ h, s.intact = true → s.dev.snap = none → placeOf a = .granary h → placeOf (a + n - 1) = .granary h → s.underReset (pgGran h) = false →
        Leaves (exec (.write l k) s) (fun t => (t.link l.val).inbox = rest ∧ t.holds a m.bytes ∧
          Keeps { mem := inRange a n, links := fun _ => True, dev := True, regs := theRegs pgPort [R.port_CTRL_DROP_CNT] } s t)) ∧
      (∀ c o o', n ≤ 256 → placeOf a = .slice c o → placeOf (a + n - 1) = .slice c o' → s.croftUnderReset c = false →
        Leaves (exec (.write l k) s) (fun t => (t.link l.val).inbox = rest ∧
          (t.croft c).inJobs = (s.croft c).inJobs ++ [.write m.head.srcDev.toNat m.croft (headKey m.head l.val) (some via) [(o, m.bytes)]] ∧
          Keeps { crofts := (· = c), links := (· = l.val) } s t))) ∧
    (s.message l.val k .readResp = some m →
      let q := m.head.queue.toNat
      let key : SegKey := { headKey m.head 17 with dev := s.self }
      (m.head.inc.toNat ≠ s.inc (qCroft q) ∨ m.head.epoch.toNat ≠ (s.queue q).epoch → Leaves (exec (.readResp l k) s) (fun t =>
        (t.link l.val).inbox = rest ∧ Counts s t (pgSluice (qCroft q)) R.sluice_STALE_CNT 1 ∧
        Keeps { regs := theRegs (pgSluice (qCroft q)) [R.sluice_STALE_CNT], links := (· = l.val) } s t)) ∧
      (∀ c o o', 0 < n → n ≤ 256 → m.head.inc.toNat = s.inc (qCroft q) → m.head.epoch.toNat = (s.queue q).epoch → placeOf a = .slice c o →
        placeOf (a + n - 1) = .slice c o' → s.croftUnderReset c = false → s.placeWaits key via a (s.keptFrom a n) = false →
        Leaves (exec (.readResp l k) s) (fun t => (t.link l.val).inbox = rest ∧
          (t.croft c).inJobs = (s.croft c).inJobs ++ [.write s.self (qCroft q) key (some via) [(o, m.bytes)]] ∧
          Keeps { crofts := (· = c), links := (· = l.val), dev := True } s t))) ∧
    (s.message l.val k .readReq = some m →
      let len := m.head.length.toNat
      let served := s.portFld R.port_RESP_SHARES (4 * l.val) / 2 ^ m.share % 2 = 1
      (¬ served → Leaves (exec (.readReq l k) s) (fun t => (t.link l.val).inbox = rest ∧ Counts s t pgPort R.port_RESP_REFUSE_CNT 1 ∧
        t.crofts = s.crofts ∧ t.mem = s.mem)) ∧
      (∀ c o o', served → placeOf a = .slice c o → placeOf (a + len - 1) = .slice c o' → s.croftUnderReset c = false →
        Leaves (exec (.readReq l k) s) (fun t => (t.link l.val).inbox = rest ∧
          (t.croft c).inJobs = (s.croft c).inJobs ++ [.serve l.val m.share m.croft m.head []] ∧
          Keeps { crofts := (· = c), links := (· = l.val) } s t)) ∧
      (∀ h, served → placeOf a = .granary h → placeOf (a + len - 1) = .granary h → s.underReset (pgGran h) = false → s.granServes h = true →
        s.granPort h = true → s.intact = true → Leaves (exec (.readReq l k) s) (fun t => (t.link l.val).inbox = rest ∧
          (t.link l.val).waiting (txKey 2 m.share) = (s.link l.val).waiting (txKey 2 m.share) ++
            ⟨Fin.ofNat 128 m.croft, .head { m.head with kind := .readResp, srcDev := BitVec.ofNat 14 s.self, dstDev := m.head.srcDev,
                                                        addr := m.head.respAddr, respAddr := 0 }⟩ ::
            (List.range ((len + 255) / 256)).map (fun i =>
              ⟨Fin.ofNat 128 m.croft, .data (((s.bytes a len).drop (256 * i)).take 256)⟩) ∧
          Keeps { links := (· = l.val) } s t)))
  ) ∧
  (
  (∀ (s : State) (l : LinkId) (k : Nat),
    ((s.dev.entriesIn.filter (fun e => e.key.link == l.val))[k]? = none → exec (.reasmTimeout l k) s = .next s) ∧
    (∀ e, (s.dev.entriesIn.filter (fun e => e.key.link == l.val))[k]? = some e → Leaves (exec (.reasmTimeout l k) s) (fun t =>
      t.dev = { s.dev with entriesIn := s.dev.entriesIn.filter (fun x => x.key != e.key) } ∧ Keeps { dev := True } s t))) ∧
  (∀ (s : State) (c : CroftId), Leaves (exec (.incarnationWindowEnd c) s) (fun t =>
    c.val ∉ t.dev.incWindow ∧ (∀ d, d ≠ c.val → (d ∈ t.dev.incWindow ↔ d ∈ s.dev.incWindow)) ∧
    t.dev = { s.dev with incWindow := t.dev.incWindow } ∧ Keeps { dev := True } s t)) ∧
  (∀ (s : State) (g : Fin 2), s.underReset (pgLedger g.val) = false → Leaves (exec (.ledgerDigestRead g) s) (fun t =>
    Sparse.get? t.dev.latched g.val = some (s.selDigest g.val) ∧ t.dev = { s.dev with latched := t.dev.latched } ∧
    (∀ j, j ≠ g.val → Sparse.get? t.dev.latched j = Sparse.get? s.dev.latched j) ∧ Keeps { dev := True } s t))
  )

/-! ### The Bell -/

/-- R398, R399: in ROOT, LOCKED and HOLDOVER the Bell sends a SYNC with the next SEQ and its send time on every link that is up, each
period, and in every 64th a COARSE with the upper bits of its count; in the other states nothing. R398 to R400: a Bell message for another
device is discarded and counted. A SYNC on a link the follower hears opens an exchange with t1, t2 and t3 and is answered with a DELAY_REQ;
on another it is ignored. A DELAY_REQ for the SYNC last sent is answered with its time of arrival, after a COARSE where the link has had
none; any other is counted. A message that is not there, or of another operation, changes nothing. -/
def Obligations.BellMessagesAreExchanged : Prop :=
  (
  ∀ (s : State) (ahead : Nat),
    (s.bellSends = false → exec (.bellPeriod ahead) s = .next s) ∧
    (s.bellSends = true → Leaves (exec (.bellPeriod ahead) s) (fun t =>
      t.dev = { s.dev with bellSync := t.dev.bellSync } ∧ t.dev.bellSync.periods = s.dev.bellSync.periods + 1 ∧
      (∀ l < 16, s.linkUp l = true →
        let seq := ((Sparse.get? s.dev.bellSync.sent l).getD 15 + 1) % 16
        let far := s.fld (pgLink l) R.link_FAR_ID_FAR_DEV
        let plock := s.bellState == bRoot || s.bellState == bLocked
        Sparse.get? t.dev.bellSync.sent l = some seq ∧
        ((s.dev.bellSync.periods + 1) % 64 ≠ 0 → ∃ b, t.link l = { s.link l with ctrl := (s.link l).ctrl ++ [(2, .bell b)] } ∧
          bellMsg b = ⟨far, 0, seq, (s.fine + ahead) % 2 ^ 40, plock⟩) ∧
        ((s.dev.bellSync.periods + 1) % 64 = 0 → ∃ b b', t.link l = { s.link l with ctrl := (s.link l).ctrl ++ [(2, .bell b), (2, .bell b')] } ∧
          bellMsg b = ⟨far, 0, seq, (s.fine + ahead) % 2 ^ 40, plock⟩ ∧ bellMsg b' = ⟨far, 3, seq, s.bellNow / 2 ^ 24, plock⟩ ∧
          l ∈ t.dev.bellSync.coarse)) ∧
      Keeps { links := fun l => l < 16 ∧ s.linkUp l = true, dev := True } s t))
  ) ∧
  (
  (∀ (s : State) (k ago ahead : Nat) (l : Nat) (b : BitVec 61), s.dev.bells[k]? = some (l, b) →
    let m := bellMsg b
    let far := s.fld (pgLink l) R.link_FAR_ID_FAR_DEV
    let plock := s.bellState == bRoot || s.bellState == bLocked
    let rest := s.dev.bells.eraseIdx k
    let due := s.bellSends = true ∧ Sparse.get? s.dev.bellSync.sent l = some m.seq
    (∀ r op, (r, op) ∈ [(Instr.sync k ago ahead, 0), (.delayReq k ago, 1), (.delayResp k, 2), (.coarse k, 3)] →
      (m.op ≠ op → exec r s = .next s) ∧
      (m.op = op → m.dev ≠ s.self → Leaves (exec r s) (fun t => t.dev = { s.dev with bells := rest } ∧ Counts s t pgBell R.bell_MSG_DROP_CNT 1 ∧
        Keeps { regs := theRegs pgBell [R.bell_MSG_DROP_CNT], dev := True } s t))) ∧
    (m.dev = s.self → m.op = 0 → s.bellHears l = false → Leaves (exec (.sync k ago ahead) s) (fun t =>
      t.dev = { s.dev with bells := rest } ∧ Keeps { dev := True } s t)) ∧
    (m.dev = s.self → m.op = 0 → s.bellHears l = true → Leaves (exec (.sync k ago ahead) s) (fun t =>
      t.dev = { s.dev with bells := rest, bellSync := { s.dev.bellSync with
        opened := s.dev.bellSync.opened.filter (fun e => e.link != l) ++
          [⟨l, m.seq, rebuild (s.fine - ago) m.t, (s.fine - ago : Nat), (s.fine + ahead : Nat), m.plock⟩] } } ∧
      (∃ b', t.link l = { s.link l with ctrl := (s.link l).ctrl ++ [(2, .bell b')] } ∧ bellMsg b' = ⟨far, 1, m.seq, (s.fine + ahead) % 2 ^ 40, plock⟩) ∧
      Keeps { links := (· = l), dev := True } s t)) ∧
    (m.dev = s.self → m.op = 1 → ¬ due → Leaves (exec (.delayReq k ago) s) (fun t =>
      t.dev = { s.dev with bells := rest } ∧ Counts s t pgBell R.bell_MSG_DROP_CNT 1 ∧
      Keeps { regs := theRegs pgBell [R.bell_MSG_DROP_CNT], dev := True } s t)) ∧
    (m.dev = s.self → m.op = 1 → due → l ∈ s.dev.bellSync.coarse → Leaves (exec (.delayReq k ago) s) (fun t =>
      t.dev = { s.dev with bells := rest } ∧
      (∃ b', t.link l = { s.link l with ctrl := (s.link l).ctrl ++ [(2, .bell b')] } ∧ bellMsg b' = ⟨far, 2, m.seq, (s.fine - ago) % 2 ^ 40, plock⟩) ∧
      Keeps { links := (· = l), dev := True } s t)) ∧
    (m.dev = s.self → m.op = 1 → due → l ∉ s.dev.bellSync.coarse → Leaves (exec (.delayReq k ago) s) (fun t =>
      t.dev = { s.dev with bells := rest, bellSync := { s.dev.bellSync with coarse := s.dev.bellSync.coarse ++ [l] } } ∧
      (∃ b b', t.link l = { s.link l with ctrl := (s.link l).ctrl ++ [(2, .bell b), (2, .bell b')] } ∧
        bellMsg b = ⟨far, 3, m.seq, s.bellNow / 2 ^ 24, plock⟩ ∧ bellMsg b' = ⟨far, 2, m.seq, (s.fine - ago) % 2 ^ 40, plock⟩) ∧
      Keeps { links := (· = l), dev := True } s t))) ∧
  (∀ (s : State) (k ago ahead : Nat), s.dev.bells[k]? = none →
    ∀ r ∈ [Instr.sync k ago ahead, .delayReq k ago, .delayResp k, .coarse k], exec r s = .next s)
  )

/-- R395, R398 to R401: a DELAY_RESP ends the exchange it answers: OFFSET and DELAY are half the difference and half the sum of the two
paths. On the link in use the rate is corrected against the offset by no more than 500 ppm; while the device acquires, the count steps only
where no reeve page is enabled, and the sixteenth good exchange in a row locks it. On the parent link while on the alternate, the sixteenth
returns to it. A DELAY_RESP or COARSE of no open exchange is counted; a COARSE sets the upper bits of an acquiring device's count. R396,
R400, R401, R404 to R406: an exchange missed is counted, and the eighth in a row on the link in use moves the follower to its alternate or
from LOCKED into HOLDOVER; two copies that differ by more than 2 ns, and a HOLDOVER of more than a second, are faults. A driven output sends
its edge or its word; a read of NOW_LO latches the upper half of the count. The model's readings it rests on: assumption 51. -/
def Obligations.BellIsSteered : Prop :=
  (
  ∀ (s : State) (k l : Nat) (b : BitVec 61), s.dev.bells[k]? = some (l, b) → (bellMsg b).dev = s.self →
    let m := bellMsg b
    let y := s.dev.bellSync
    let open? := y.opened.find? (fun e => e.link == l && e.seq == m.seq)
    let rest := s.dev.bells.eraseIdx k
    (∀ r op, (r, op) ∈ [(Instr.delayResp k, 2), (.coarse k, 3)] → m.op = op → open? = none →
      Leaves (exec r s) (fun t => t.dev = { s.dev with bells := rest } ∧ Counts s t pgBell R.bell_MSG_DROP_CNT 1 ∧
        Keeps { regs := theRegs pgBell [R.bell_MSG_DROP_CNT], dev := True } s t)) ∧
    (∀ (e : Exchange) (off del : Int), m.op = 2 → open? = some e →
      let t4 := rebuild s.fine m.t
      2 * off = (e.t2 - e.t1) - (t4 - e.t3) → 2 * del = (e.t2 - e.t1) + (t4 - e.t3) →
      let forms := fun t : State => t.dev.bells = rest ∧ Counts s t pgBell R.bell_EXCH_CNT 1 ∧
        t.reg pgBell R.bell_OFFSET.off = BitVec.ofInt 32 off ∧ t.reg pgBell R.bell_DELAY.off = BitVec.ofInt 32 del ∧
        (∀ x ∈ t.dev.bellSync.opened, x.link ≠ l)
      (l = s.bellLink → Leaves (exec (.delayResp k) s) (fun t => forms t ∧
        t.dev.bellSync.misses = 0 ∧ t.dev.bellSync.at' = s.now ∧ t.bellAdj ≤ 500000 ∧ -500000 ≤ t.bellAdj ∧
        (off = 0 → t.bellAdj = 0) ∧ (0 < off → t.bellAdj ≤ 0) ∧ (off < 0 → 0 ≤ t.bellAdj) ∧
        t.dev.bell = (if s.mayStep = true ∧ s.bellState = bAcquiring then s.countLess off else s.dev.bell) ∧
        (s.bellState = bAcquiring → t.bellState =
          (if off.natAbs ≤ 32 ∧ e.plock = true ∧ m.plock = true ∧ 15 ≤ y.good then bLocked else bAcquiring)) ∧
        (s.bellState = bHoldover → t.bellState = if off.natAbs ≤ 16000 then bLocked else bAcquiring) ∧
        (s.bellState ≠ bAcquiring → s.bellState ≠ bHoldover → t.bellState = s.bellState) ∧
        Keeps { regs := theRegs pgBell [R.bell_EXCH_CNT, R.bell_OFFSET, R.bell_DELAY, R.bell_FREQ_ADJ, R.bell_STEP_CNT, R.bell_STATUS_STATE,
                  R.STATE_STATE, R.CRIER_LINE_RAISED], dev := True, seq := True } s t)) ∧
      (l ≠ s.bellLink → Leaves (exec (.delayResp k) s) (fun t => forms t ∧ t.dev.bell = s.dev.bell ∧ t.bellState = s.bellState ∧
        t.bit pgBell R.bell_STATUS_ON_ALT = (if 15 ≤ y.back then false else s.bit pgBell R.bell_STATUS_ON_ALT) ∧
        Counts s t pgBell R.bell_LINK_SWITCH_CNT (if 15 ≤ y.back then 1 else 0) ∧
        t.dev.bellSync.back = (if 15 ≤ y.back then 0 else y.back + 1) ∧
        Keeps { regs := theRegs pgBell [R.bell_EXCH_CNT, R.bell_OFFSET, R.bell_DELAY, R.bell_STATUS_ON_ALT, R.bell_LINK_SWITCH_CNT], dev := True,
                seq := True } s t))) ∧
    (m.op = 3 → open? ≠ none → Leaves (exec (.coarse k) s) (fun t =>
      t.dev = { s.dev with bells := rest, bell := t.dev.bell } ∧
      t.dev.bell = (if l = s.bellLink ∧ s.bellState = bAcquiring ∧ s.mayStep = true then
        (m.t * 2 ^ 24 + s.bellNow % 2 ^ 24) * 10 ^ 9 + s.dev.bell % 10 ^ 9 else s.dev.bell) ∧
      Counts s t pgBell R.bell_STEP_CNT (if t.dev.bell = s.dev.bell then 0 else 1) ∧
      Keeps { regs := theRegs pgBell [R.bell_STEP_CNT], dev := True } s t))
  ) ∧
  (
  (∀ (s : State) (l : LinkId),
    let y := s.dev.bellSync
    let other := s.bit pgBell R.bell_STATUS_ON_ALT = false ∧ s.bit pgBell R.bell_CFG_ALT_EN = true ∧
      s.linkUp (s.fld pgBell R.bell_CFG_ALT_LINK) = true
    let less := y.opened.filter (fun e => e.link != l.val)
    (s.bellHears l.val = false → exec (.bellExchangeMiss l) s = .next s) ∧
    (s.bellHears l.val = true → l.val ≠ s.bellLink ∨ y.misses < 7 → Leaves (exec (.bellExchangeMiss l) s) (fun t =>
      Counts s t pgBell R.bell_MISS_CNT 1 ∧
      t.dev = { s.dev with bellSync := { y with
        opened := less, misses := if l.val = s.bellLink then y.misses + 1 else y.misses, back := if l.val = s.bellLink then y.back else 0 } } ∧
      Keeps { regs := theRegs pgBell [R.bell_MISS_CNT], dev := True } s t)) ∧
    (s.bellHears l.val = true → l.val = s.bellLink → 7 ≤ y.misses →
      (other → Leaves (exec (.bellExchangeMiss l) s) (fun t => Counts s t pgBell R.bell_MISS_CNT 1 ∧
        t.dev = { s.dev with bellSync := { y with opened := less, misses := 0, back := 0 } } ∧
        t.bit pgBell R.bell_STATUS_ON_ALT = true ∧ Counts s t pgBell R.bell_LINK_SWITCH_CNT 1 ∧ t.bellState = s.bellState ∧
        Keeps { regs := theRegs pgBell [R.bell_MISS_CNT, R.bell_STATUS_ON_ALT, R.bell_LINK_SWITCH_CNT], dev := True } s t)) ∧
      (¬ other → s.bellState = bLocked → Leaves (exec (.bellExchangeMiss l) s) (fun t => Counts s t pgBell R.bell_MISS_CNT 1 ∧
        t.bellState = bHoldover ∧ Counts s t pgBell R.bell_HOLDOVER_CNT 1 ∧ t.dev.bell = s.dev.bell ∧ t.dev.watchDue = s.dev.watchDue ++ [15] ∧
        Keeps { regs := theRegs pgBell [R.bell_MISS_CNT, R.bell_STATUS_STATE, R.bell_HOLDOVER_CNT, R.CRIER_LINE_RAISED], dev := True } s t)) ∧
      (¬ other → s.bellState ≠ bLocked → Leaves (exec (.bellExchangeMiss l) s) (fun t => Counts s t pgBell R.bell_MISS_CNT 1 ∧
        t.dev = { s.dev with bellSync := { y with opened := less, misses := 0, back := 0 } } ∧
        Keeps { regs := theRegs pgBell [R.bell_MISS_CNT], dev := True } s t)))) ∧
  (∀ (s : State) (diff : Nat),
    let faulted := fun (cause : Nat) (t : State) => Faults s t pgBell cause ∧ Floods s t (.alarm s.self s.stepIndex false) none ∧
      (s.underReset pgBell = false → t.bit pgBell R.CRIER_LINE_RAISED = true) ∧
      Keeps { regs := theRegs pgBell faultRegs, links := (· < 16), dev := True } s t
    (diff ≤ 32 → exec (.bellCopyCheck diff) s = .next s) ∧
    (32 < diff → Leaves (exec (.bellCopyCheck diff) s) (faulted 2)) ∧
    (s.bellState ≠ bHoldover → exec .holdoverLimit s = .next s) ∧
    (s.bellState = bHoldover → Leaves (exec .holdoverLimit s) (faulted 1))) ∧
  (∀ s : State,
    let noted := { s.dev with bellSync := { s.dev.bellSync with seconds := s.bellNow / 10 ^ 9 } }
    (s.bellSends = false → exec .bellPps s = .next s) ∧
    (s.bellSends = true → s.bit pgBell R.bell_OUTCFG_PPS_EN = false → Leaves (exec .bellPps s) (fun t =>
      t.dev = noted ∧ Keeps { dev := True } s t)) ∧
    (s.bellSends = true → s.bit pgBell R.bell_OUTCFG_PPS_EN = true → Leaves (exec .bellPps s) (fun t =>
      t.dev = noted ∧ t.out = s.out ++ [.pps (s.bellNow / 10 ^ 9)] ∧ Keeps { dev := True, out := True } s t)) ∧
    (s.bellDrives R.bell_OUTCFG_TOD_EN = false → exec .bellTod s = .next s) ∧
    (s.bellDrives R.bell_OUTCFG_TOD_EN = true → Leaves (exec .bellTod s) (fun t =>
      (∃ w : BitVec 96, t.out = s.out ++ [.tod w] ∧ w.toNat % 2 ^ 16 = 0x5AA5 ∧
        w.toNat / 2 ^ 16 % 2 ^ 48 = s.dev.bellSync.seconds % 2 ^ 48 ∧ w.toNat / 2 ^ 64 % 8 = s.bellState % 8 ∧ w.toNat / 2 ^ 67 % 32 = 0 ∧
        w.toNat / 2 ^ 72 % 256 = s.bellAccuracy % 256 ∧ w.toNat / 2 ^ 80 % 256 = s.dev.bellSync.todSeq % 256) ∧
      t.dev = { s.dev with bellSync := { s.dev.bellSync with todSeq := (s.dev.bellSync.todSeq + 1) % 256 } } ∧
      Keeps { dev := True, out := True } s t)) ∧
    (s.underReset pgBell = true → exec .bellNowRead s = .next s) ∧
    (s.underReset pgBell = false → Leaves (exec .bellNowRead s) (fun t =>
      (t.reg pgBell R.bell_NOW_HI.off).toNat = s.bellNow / 2 ^ 32 ∧ Keeps { regs := theRegs pgBell [R.bell_NOW_HI] } s t)))
  )

/-! ### The host -/

/-- R420, R443, R444: a BAR2 access that nothing ends before and that lies in a granary or a slice of this device, with the right and
without a changed bit, is carried out: a read returns the bytes, with the host's own held writes, and changes nothing; a write stores its
bytes and changes no other. R439, R442 to R444, R447: an access outside a secure stream that is asked for one is counted and does nothing;
before READY and under reset an access ends as ABS; at less than the full rate, in the register region and at an address that no device
declares it ends as UR or REFUSED; one of another device's memory leaves on a link that is up, ends as its answer says, and waits without
one; one that has waited 100 µs ends as a timeout. A write that Bucket or the boot region keeps out is refused. The model's readings it
rests on: assumptions 84, 115. -/
def Obligations.HostAccessesAreCarriedOutOrEnded : Prop :=
  (
  ∀ (s : State) (o : BitVec 40) (ide : Bool) (far : FarAnswer) (n : Nat) (bs : List Byte), s.hostMayGo o.toNat ide →
    s.village (s.windowAddr o.toNat) = .here → s.intact = true →
    let l := s.windowAddr o.toNat % 2 ^ 48
    ((∃ h h', placeOf l = .granary h ∧ placeOf (l + n - 1) = .granary h' ∧ s.underReset (pgGran h) = false ∧ s.granServes h = true) ∨
     (∃ c x x', placeOf l = .slice c x ∧ placeOf (l + n - 1) = .slice c x' ∧ s.croftUnderReset c = false ∧
        s.bankMiss c agHost false x n = none)) →
    Leaves (exec (.hostBar2Read o n ide far) s) (fun t => t.out = s.out ++ [.done (s.hostBytes l n)] ∧ Keeps { out := True } s t) ∧
    (bs.length = n → 0 < n →
      ((∃ h, placeOf l = .granary h ∧ s.dev.snap = none ∧ s.bucketKeeps l n = false ∧ touchesBoot l n = false) ∨
       (∃ c x, placeOf l = .slice c x ∧ s.bankMiss c agHost true x n = none)) →
      Leaves (exec (.hostBar2Write o bs ide far) s) (fun t => t.holds l bs ∧ Keeps { mem := inRange l n } s t))
  ) ∧
  (
  (∀ (s : State) (o : BitVec 40) (n : Nat) (bs : List Byte) (ide wr : Bool) (far : FarAnswer) (r : Instr),
    (r = .hostBar2Read o n ide far ∧ wr = false) ∨ (r = .hostBar2Write o bs ide far ∧ wr = true ∧ bs.length = n) →
    let a := s.windowAddr o.toNat
    let l := a % 2 ^ 48
    let free := s.bit pgHost R.host_CFG_IDE_REQ = false ∨ ide = true
    let up := free ∧ s.deviceReset = false ∧ s.atReady = true
    let may := s.hostMayGo o.toNat ide
    let ends := fun kind : Nat => Leaves (exec r s) (fun t => HostEnds s t 1 kind wr o.toNat ∧
      Keeps { regs := theRegs pgHost (hostEndRegs kind), out := True } s t)
    (¬ free → Leaves (exec r s) (fun t => Counts s t pgHost R.host_IDE_REQ_CNT 1 ∧ t.out = s.out ++ (if wr then [] else [.ur]) ∧
      Keeps { regs := theRegs pgHost [R.host_IDE_REQ_CNT], out := True } s t)) ∧
    (free → s.deviceReset = true ∨ s.atReady = false → ends endAbs) ∧
    (up → s.fullRate = false ∨ s.enabled pgHost = false → ends endUR) ∧
    (up → s.fullRate = true → s.enabled pgHost = true → l / 2 ^ 28 = 0x20000 → ends endRefused) ∧
    (may → s.village a = .none → ends endUR) ∧
    (may → ∀ h h', s.village a = .here → placeOf l = .granary h → placeOf (l + n - 1) = .granary h' →
      (s.underReset (pgGran h) = true → Leaves (exec r s) (fun t => HostEnds s t 1 endAbs wr o.toNat ∧
        t.absorbed (pgGran h) = s.absorbed (pgGran h) + 1 ∧ Keeps { regs := theRegs pgHost (hostEndRegs endAbs), dev := True, out := True } s t)) ∧
      (s.underReset (pgGran h) = false → wr = true → s.bucketKeeps l n = true → Leaves (exec r s) (fun t =>
        HostEnds s t 1 endRefused wr o.toNat ∧ Counts s t pgBucket R.bucket_REFUSE_CNT 1 ∧
        Keeps { regs := someRegs [(pgHost, hostEndRegs endRefused), (pgBucket, [R.bucket_REFUSE_CNT])], out := True } s t)) ∧
      (s.underReset (pgGran h) = false → wr = true → s.bucketKeeps l n = false → touchesBoot l n = true → ends endRefused)) ∧
    (may → ∀ p d, s.village a = .port p d →
      ((s.portLinks p).find? s.linkUp = none → ends endTimeout) ∧
      (∀ q, (s.portLinks p).find? s.linkUp = some q →
        let gone : List Out := [.hostAccess q a wr (if wr then bs else [])]
        (far = .silent → Leaves (exec r s) (fun t => t.out = s.out ++ gone ∧
          t.dev = { s.dev with host := { s.dev.host with waiting := s.dev.host.waiting ++ [⟨wr, o.toNat⟩] } } ∧
          Keeps { dev := True, out := True } s t)) ∧
        (∀ got, far = .ok got → Leaves (exec r s) (fun t => t.out = s.out ++ gone ++ (if wr then [] else [.done got]) ∧
          Keeps { out := True } s t)) ∧
        (∀ kind, (far, kind) ∈ [(FarAnswer.unmapped, endUR), (.collision, endRefused), (.uncorrectable, endUE), (.absorbed, endAbs)] →
          Leaves (exec r s) (fun t => HostEnds { s with out := s.out ++ gone } t 1 kind wr o.toNat ∧
            Keeps { regs := theRegs pgHost (hostEndRegs kind), out := True } s t))))) ∧
  (∀ (s : State) (k : Nat),
    (s.dev.host.waiting[k]? = none → exec (.hostAccessTimeout k) s = .next s) ∧
    (∀ x, s.dev.host.waiting[k]? = some x → Leaves (exec (.hostAccessTimeout k) s) (fun t => HostEnds s t 1 endTimeout x.write x.off ∧
      t.dev = { s.dev with host := { s.dev.host with waiting := s.dev.host.waiting.eraseIdx k } } ∧
      Keeps { regs := theRegs pgHost (hostEndRegs endTimeout), dev := True, out := True } s t)))
  )

/-- R438, R439, R446, R447: configuration writes set the three bits that allow messages; a word of the MSI-X table is written, and an
unmasked vector whose pending bit stands sends its message; a change of the link's rate or width clears the host page's ENABLE; an IDE
stream that leaves its secure state is counted, raises the line and is told to Watch. R447, R449, R450: a doorbell with a new SEQ while the
mailbox is free is taken: its request is served, or answered at once with RESULT 1 for an unknown OPCODE and 2 for a header out of form; any
other doorbell is counted, and so is one outside a secure stream that is asked for one. The model's readings it rests on: assumption 90. -/
def Obligations.HostPortAndMailboxDoorbell : Prop :=
  (
  (∀ (s : State) (b e m : Bool),
    let due := s.dev.host.vecs.any (fun v => v.2.asserted && !v.2.masked)
    Leaves (exec (.pcieConfigRequest (.command b)) s) (fun t =>
      t.dev.host.busMaster = b ∧ t.dev.host.msixEnable = s.dev.host.msixEnable ∧ t.dev.host.funcMask = s.dev.host.funcMask ∧
      t.out.getLast? = some (.done []) ∧ (due = false → t.out = s.out ++ [.done []]) ∧ Keeps { dev := True, out := True } s t) ∧
    Leaves (exec (.pcieConfigRequest (.msixControl e m)) s) (fun t =>
      t.dev.host.msixEnable = e ∧ t.dev.host.funcMask = m ∧ t.dev.host.busMaster = s.dev.host.busMaster ∧
      t.out.getLast? = some (.done []) ∧ (due = false → t.out = s.out ++ [.done []]) ∧ Keeps { dev := True, out := True } s t) ∧
    Leaves (exec (.pcieConfigRequest .other) s) (fun t => t.out = s.out ++ [.done []] ∧ Keeps { out := True } s t)) ∧
  (∀ (s : State) (v : Fin 64) (dw : Fin 4) (x : Word) (ide : Bool),
    let free := s.bit pgHost R.host_CFG_IDE_REQ = false ∨ ide = true
    let e := s.vec v.val
    let send := dw.val = 3 ∧ x.getLsbD 0 = false ∧ e.masked = true ∧ e.asserted = true ∧ e.pend = true ∧ s.dev.host.allows = true
    (¬ free → Leaves (exec (.msixVectorControl v dw x ide) s) (fun t => Counts s t pgHost R.host_IDE_REQ_CNT 1 ∧
      Keeps { regs := theRegs pgHost [R.host_IDE_REQ_CNT] } s t)) ∧
    (free → ¬ send → Leaves (exec (.msixVectorControl v dw x ide) s) (fun t =>
      (∀ w, w ≠ v.val → t.vec w = s.vec w) ∧ t.vec v.val = e.write dw.val x ∧ Keeps { dev := True } s t)) ∧
    (free → send → Leaves (exec (.msixVectorControl v dw x ide) s) (fun t =>
      (∀ w, w ≠ v.val → t.vec w = s.vec w) ∧ t.vec v.val = { e.write dw.val x with pend := false } ∧
      t.out = s.out ++ [.msix v.val e.addr e.data] ∧ Keeps { dev := True, out := True } s t))) ∧
  (∀ (s : State) (rate : Fin 7) (width : Fin 9) (flit : Bool),
    let same := s.fld pgHost R.host_LINK_RATE = rate.val ∧ s.fld pgHost R.host_LINK_WIDTH = width.val
    let reads := fun t : State =>
      t.fld pgHost R.host_LINK_RATE = rate.val ∧ t.fld pgHost R.host_LINK_WIDTH = width.val ∧ t.bit pgHost R.host_LINK_FLIT = flit
    (same ∨ s.bit pgHost R.CTL_ENABLE = false → Leaves (exec (.linkRateChange rate width flit) s) (fun t => reads t ∧
      Keeps { regs := theRegs pgHost [R.host_LINK_RATE] } s t)) ∧
    (¬ same → s.bit pgHost R.CTL_ENABLE = true → Leaves (exec (.linkRateChange rate width flit) s) (fun t => reads t ∧
      t.bit pgHost R.CTL_ENABLE = false ∧ t.fld pgHost R.STATE_STATE = stDisabled ∧
      (s.underReset pgHost = false → t.bit pgHost R.CRIER_LINE_RAISED = true) ∧
      Keeps { regs := theRegs pgHost [R.host_LINK_RATE, R.CTL_ENABLE, R.STATE_STATE, R.CRIER_LINE_RAISED] } s t))) ∧
  (∀ s : State, Leaves (exec .ideStreamExit s) (fun t => Counts s t pgHost R.host_IDE_FAIL_CNT 1 ∧
    (s.underReset pgHost = false → t.bit pgHost R.CRIER_LINE_RAISED = true) ∧ t.dev.watchDue.length = s.dev.watchDue.length + 1 ∧
    Keeps { regs := theRegs pgHost [R.host_IDE_FAIL_CNT, R.CRIER_LINE_RAISED], dev := True, seq := True } s t))
  ) ∧
  (
  ∀ (s : State) (seq : Word) (ide : Bool),
    let m := s.dev.host.mailbox
    let op := leNat (m.bytes 0 4)
    let len := leNat (m.bytes 8 4)
    let r : Request := ⟨op % 65536, BitVec.ofNat 32 (leNat (m.bytes 4 4)), len, m.bytes 32 (min len areaRoom)⟩
    let free := s.bit pgHost R.host_CFG_IDE_REQ = false ∨ ide = true
    let taken := free ∧ (m.mstate = 0 ∨ m.mstate = 2) ∧ m.last ≠ some seq
    let known := 1 ≤ op % 65536 ∧ op % 65536 ≤ 9
    let form := op < 65536 ∧ len ≤ areaRoom ∧ leNat (m.bytes 16 16) = 0
    let answered := fun result : Nat => Leaves (exec (.mailboxDoorbell seq ide) s) (fun t =>
      Responds t r result [] ∧ t.dev.host.mailbox.last = some seq ∧ t.dev.host.mailbox.area = m.area ∧
      Keeps { regs := theRegs pgOrarn [R.orarn_STATUS_BUSY], dev := True } s t)
    (¬ free → Leaves (exec (.mailboxDoorbell seq ide) s) (fun t => Counts s t pgHost R.host_IDE_REQ_CNT 1 ∧
      Keeps { regs := theRegs pgHost [R.host_IDE_REQ_CNT] } s t)) ∧
    (free → ¬ taken → Leaves (exec (.mailboxDoorbell seq ide) s) (fun t => Counts s t pgHost R.host_MBX_IGNORE_CNT 1 ∧
      Keeps { regs := theRegs pgHost [R.host_MBX_IGNORE_CNT] } s t)) ∧
    (taken → ¬ known → answered rsUnknown) ∧
    (taken → known → ¬ form → answered rsMalformed) ∧
    (taken → known → form → Leaves (exec (.mailboxDoorbell seq ide) s) (fun t =>
      t.dev = { s.dev with host := { s.dev.host with mailbox := { m with mstate := 1, last := some seq, serving := some r } } } ∧
      t.bit pgOrarn R.orarn_STATUS_BUSY = (s.bit pgOrarn R.orarn_STATUS_BUSY || decide (3 ≤ r.op ∧ r.op ≤ 5)) ∧
      Keeps { regs := theRegs pgOrarn [R.orarn_STATUS_BUSY], dev := True } s t))
  )

/-- R451, R517, R529: the messages that report: GET_INFO, the defect list, the Ledger's digests, the pages in FAULT and, while Orarn's keys
agree, a signed report; each answers the request it serves, one of another length is answered with RESULT 2, and without such a request
nothing changes. R516, R526, R527: MEASURE_PLAN answers RESULT 2 for a manifest out of form and 3 while a reeve page is enabled; a plan
whose signature or a region's digest does not hold is answered with RESULT 4 and leaves no valid plan, and one that holds is latched.
FW_UPDATE takes the next piece of the inactive bank; the last is verified before the bank becomes active. The model's readings it rests on:
assumptions 90, 91, 92. -/
def Obligations.MailboxMessagesAreAnswered : Prop :=
  (
  (∀ (s : State) (ok : Bool), ∀ i ∈ [Instr.getInfo, .getCert, .readDefects, .readDigests, .readFaults, .getAttestation ok, .measurePlan, .fwUpdate],
    s.dev.host.mailbox.serving = none → exec i s = .next s) ∧
  (∀ (s : State) (r : Request) (ok : Bool), s.dev.host.mailbox.serving = some r →
    let busy := theRegs pgOrarn [R.orarn_STATUS_BUSY, R.orarn_REPORT_CNT]
    let failed := theRegs pgOrarn ([R.orarn_STATUS_BUSY] ++ faultRegs)
    (∀ i op n, (i, op, n) ∈ [(Instr.getInfo, opGetInfo, 0), (.getCert, opGetCert, 4), (.readDefects, opDefects, 4), (.readDigests, opDigests, 0),
        (.readFaults, opFaults, 0), (.getAttestation ok, opAttest, 32)] →
      (r.op ≠ op → exec i s = .next s) ∧
      (r.op = op → r.len ≠ n → Leaves (exec i s) (fun t => Responds t r rsMalformed [] ∧ Keeps { regs := busy, dev := True } s t))) ∧
    (r.op = opGetInfo → r.len = 0 → Leaves (exec .getInfo s) (fun t =>
      Responds t r rsDone (toLe 16 Config.serial.toNat ++ toLe 4 s.dev.orarn.fwRev.toNat ++ pageTypes.flatMap (fun _ => toLe 4 1)) ∧
      Keeps { dev := True } s t)) ∧
    (r.op = opDefects → r.len = 4 → Leaves (exec .readDefects s) (fun t =>
      Responds t r rsDone (s.dev.boot.header ++ ((s.dev.boot.defects.drop (leNat (r.payload.take 4))).take 32000).flatMap DefEntry.bytes ++
        s.dev.boot.runtime.flatMap (fun e => DefEntry.bytes { e with source := 2 })) ∧ Keeps { dev := True } s t)) ∧
    (r.op = opDigests → r.len = 0 → Leaves (exec .readDigests s) (fun t =>
      Responds t r rsDone ((List.range 16).flatMap (fun l => (List.range 256).flatMap (fun k => (List.range 2).flatMap (fun b =>
        (List.range 2).flatMap (fun d => toLe 16 (s.digest b d l k).toNat))))) ∧ Keeps { dev := True } s t)) ∧
    (r.op = opFaults → r.len = 0 → Leaves (exec .readFaults s) (fun t =>
      (∃ p, Responds t r rsDone p ∧ p.length = 16 * s.faultedPages.length) ∧ Keeps { dev := True } s t)) ∧
    (r.op = opAttest → r.len = 32 →
      let body := s.report (r.payload.take 32)
      (s.fld pgOrarn R.STATE_STATE ≠ stFault → ok = true → Leaves (exec (.getAttestation ok) s) (fun t =>
        Responds t r rsDone (body ++ s.akSign (Config.sha384 body)) ∧ Counts s t pgOrarn R.orarn_REPORT_CNT 1 ∧
        Keeps { regs := busy, dev := True, seq := True } s t)) ∧
      (s.fld pgOrarn R.STATE_STATE = stFault → Leaves (exec (.getAttestation ok) s) (fun t => Responds t r rsFailed [] ∧
        Keeps { regs := busy, dev := True } s t)) ∧
      (s.fld pgOrarn R.STATE_STATE ≠ stFault → ok = false → Leaves (exec (.getAttestation ok) s) (fun t => Responds t r rsFailed [] ∧
        Faults s t pgOrarn 1 ∧ Keeps { regs := failed, dev := True } s t))))
  ) ∧
  (
  (∀ (s : State) (r : Request), s.dev.host.mailbox.serving = some r → r.op = opMeasure → s.intact = true →
    let p := r.payload
    let count := leNat (p.take 4)
    let flags := leNat ((p.drop 4).take 4)
    let signed := s.manifestSigned p count flags
    let bad := (List.zip (manifestRegions p count) (List.range count)).find?
      (fun x => digestBytes (Config.sha384 (s.bytes x.1.1 x.1.2.1)) != x.1.2.2)
    let mismatch := fun i : Nat => Leaves (exec .measurePlan s) (fun t => Responds t r rsMismatch (toLe 4 i) ∧
      t.bit pgOrarn R.orarn_STATUS_PLAN_VALID = false ∧ Counts s t pgOrarn R.orarn_MEAS_CNT 1 ∧ Counts s t pgOrarn R.orarn_MEAS_FAIL_CNT 1 ∧
      Keeps { regs := theRegs pgOrarn [R.orarn_STATUS_PLAN_VALID, R.orarn_MEAS_CNT, R.orarn_MEAS_FAIL_CNT], dev := True } s t)
    let turned := fun result : Nat => Leaves (exec .measurePlan s) (fun t => Responds t r result [] ∧
      Keeps { regs := theRegs pgOrarn [R.orarn_STATUS_BUSY], dev := True } s t)
    (manifestOk p r.len = false → turned rsMalformed) ∧
    (manifestOk p r.len = true → s.enabledReeves ≠ [] → turned rsNotNow) ∧
    (manifestOk p r.len = true → s.enabledReeves = [] → signed = false → mismatch 0xFFFFFFFF) ∧
    (∀ x, manifestOk p r.len = true → s.enabledReeves = [] → signed = true → bad = some x → mismatch x.2) ∧
    (manifestOk p r.len = true → s.enabledReeves = [] → signed = true → bad = none → Leaves (exec .measurePlan s) (fun t =>
      Responds t r rsDone [] ∧ Counts s t pgOrarn R.orarn_MEAS_CNT 1 ∧ t.bit pgOrarn R.orarn_STATUS_PLAN_VALID = true ∧
      t.bit pgOrarn R.orarn_STATUS_SIGNED = decide (flags % 2 = 1) ∧
      t.dev.orarn.regions = (manifestRegions p count).map (fun x => (x.1, x.2.1)) ∧
      t.planDigest = digestBytes (Config.sha384 (p.take (0x80 + 64 * count))) ∧
      (t.reg pgOrarn R.orarn_MEAS_BELL_LO.off).toNat = s.bellNow % 2 ^ 32 ∧
      (t.reg pgOrarn R.orarn_MEAS_BELL_HI.off).toNat = s.bellNow / 2 ^ 32 % 2 ^ 32 ∧ Keeps { regs := onPages [pgOrarn], dev := True } s t))) ∧
  (∀ (s : State) (r : Request), s.dev.host.mailbox.serving = some r → r.op = opFwUpdate →
    let b := s.dev.boot
    let off := leNat (r.payload.take 4)
    let flags := leNat ((r.payload.drop 4).take 4)
    let data := r.payload.drop 8
    let form := 8 ≤ r.len ∧ r.len ≤ 8 + 507 * 1024 ∧ flags < 2 ∧ off = b.next
    let stored := fun t : State => ∀ i < data.length, Sparse.get? t.dev.boot.flash ((1 - b.bank) * 2 ^ 32 + off + i) = some (data.getD i 0)
    (¬ form → Leaves (exec .fwUpdate s) (fun t => Responds t r rsMalformed [] ∧ t.dev.boot = b ∧ Keeps { dev := True } s t)) ∧
    (form → s.enabledReeves ≠ [] → Leaves (exec .fwUpdate s) (fun t => Responds t r rsNotNow [] ∧ t.dev.boot = b ∧ Keeps { dev := True } s t)) ∧
    (form → s.enabledReeves = [] → flags = 0 → Leaves (exec .fwUpdate s) (fun t => Responds t r rsDone [] ∧ stored t ∧
      t.dev.boot = { b with next := off + data.length, flash := t.dev.boot.flash } ∧ Keeps { dev := True } s t)) ∧
    (form → s.enabledReeves = [] → flags = 1 → Leaves (exec .fwUpdate s) (fun t => stored t ∧ t.dev.boot.next = 0 ∧
      (let whole := Config.bankOk (t.dev.boot.bankBytes (1 - b.bank) 0 (off + data.length))
       (whole = true → Responds t r rsDone [] ∧ t.dev.boot.bank = 1 - b.bank ∧ t.dev.boot.updated = true) ∧
       (whole = false → Responds t r rsMismatch [] ∧ t.dev.boot.bank = b.bank ∧ t.dev.boot.updated = b.updated)) ∧
      Keeps { dev := True } s t)))
  )

/-- R530: GET_CERT takes a 4-byte INDEX and answers with that certificate's DER bytes; an INDEX above 2 answers RESULT 2. -/
def Obligations.CertificatesAreGiven : Prop :=
  ∀ (s : State) (r : Request), s.dev.host.mailbox.serving = some r → r.op = opGetCert →
    let i := leNat (r.payload.take 4)
    let gives := fun (result : Nat) (p : List Byte) => Leaves (exec .getCert s) (fun t => Responds t r result p ∧
      t.bit pgOrarn R.orarn_STATUS_BUSY = false ∧ Keeps { regs := theRegs pgOrarn [R.orarn_STATUS_BUSY], dev := True } s t)
    (r.len = 4 → i ≤ 2 → gives rsDone (Config.cert i s.dev.orarn.fwDigest)) ∧
    (r.len = 4 → 2 < i → gives rsMalformed []) ∧ (r.len ≠ 4 → gives rsMalformed [])

/-- R531, R533, R534: an SPDM request waits while a mailbox operation of Orarn's runs, and is answered otherwise; the signed ones need keys
that agree. A KEY_EXCHANGE opens a session, counted, FINISH completes one, and within a session a stream gets its keys. The model's readings
it rests on: assumptions 94, 95. -/
def Obligations.SpdmRequestsAreAnswered : Prop :=
  ∀ (s : State) (nonce : BitVec 256) (stream : Fin 5) (slot : Fin 8) (i : BitVec 8) (ok : Bool),
    let opened := s.dev.orarn.opened
    let finished := s.dev.orarn.finished
    let healthy := s.fld pgOrarn R.STATE_STATE ≠ stFault
    let known := i.toNat ≤ 5 ∨ i = 0xFF
    let answers := fun (r : Instr) (code : Nat) (p : List Byte → State → Prop) => Leaves (exec r s) (fun t =>
      ∃ bs, t.out = s.out ++ [.spdm (Config.spdmBytes code s.seq ++ bs)] ∧ p bs t ∧
        Keeps { regs := theRegs pgOrarn [R.orarn_SPDM_SESS_CNT], dev := True, out := True, seq := True } s t)
    let plain := fun (bs : List Byte) => fun (x : List Byte) (t : State) => x = bs ∧ t.dev = s.dev
    let sign := fun bs : List Byte => bs ++ s.akSign (Config.sha384 bs)
    let hash := digestBytes (Config.sha384 s.chain)
    (¬ s.spdmFree → ∀ r ∈ [Instr.getVersion, .getCapabilities, .negotiateAlgorithms, .getDigests, .getCertificate slot, .challenge nonce ok,
      .getMeasurements i ok, .keyExchange ok, .finish, .ideKeyManagement stream], exec r s = .next s) ∧
    (s.spdmFree →
      answers .getVersion 0x84 (plain [0x12]) ∧ answers .getCapabilities 0xE1 (plain []) ∧ answers .negotiateAlgorithms 0xE3 (plain []) ∧
      answers .getDigests 0x81 (plain hash) ∧ (slot.val = 0 → answers (.getCertificate slot) 0x82 (plain s.chain)) ∧
      (slot.val ≠ 0 → answers (.getCertificate slot) 0x7F (plain [])) ∧ (¬ known → answers (.getMeasurements i ok) 0x7F (plain [])) ∧
      (opened = 0 → answers .finish 0x7F (plain [])) ∧ (finished = 0 → answers (.ideKeyManagement stream) 0x7F (plain [])) ∧
      (0 < opened → answers .finish 0xE5 (fun _ t =>
        t.dev = { s.dev with orarn := { s.dev.orarn with opened := opened - 1, finished := finished + 1 } })) ∧
      (0 < finished → answers (.ideKeyManagement stream) 0xE8 (fun _ t => stream.val ∈ t.dev.orarn.ideKeys ∧
        (∀ k, k ≠ stream.val → (k ∈ t.dev.orarn.ideKeys ↔ k ∈ s.dev.orarn.ideKeys)) ∧
        t.dev = { s.dev with orarn := { s.dev.orarn with ideKeys := t.dev.orarn.ideKeys } }))) ∧
    (s.spdmFree → healthy → ok = true →
      answers (.challenge nonce ok) 0x83 (plain (sign (hash ++ toLe 32 nonce.toNat))) ∧
      (i = 0 → answers (.getMeasurements i ok) 0xE0 (plain (sign [5]))) ∧
      (1 ≤ i.toNat → i.toNat ≤ 5 → answers (.getMeasurements i ok) 0xE0 (plain (sign (s.measurement i.toNat)))) ∧
      (i = 0xFF → answers (.getMeasurements i ok) 0xE0 (plain (sign ((List.range 5).flatMap (fun k => s.measurement (k + 1)))))) ∧
      answers (.keyExchange ok) 0xE4 (fun bs t => bs = sign hash ∧ Counts s t pgOrarn R.orarn_SPDM_SESS_CNT 1 ∧
        t.dev = { s.dev with orarn := { s.dev.orarn with opened := opened + 1 } })) ∧
    (s.spdmFree → known → ∀ r ∈ [Instr.challenge nonce ok, .getMeasurements i ok, .keyExchange ok],
      (¬ healthy → answers r 0x7F (plain [])) ∧
      (healthy → ok = false → Leaves (exec r s) (fun t => Faults s t pgOrarn 1 ∧
        (∃ bs, t.out = s.out ++ [.spdm (Config.spdmBytes 0x7F s.seq ++ bs)]) ∧ t.dev = { s.dev with watchDue := s.dev.watchDue ++ [15] } ∧
        Keeps { regs := theRegs pgOrarn faultRegs, dev := True, out := True, seq := True } s t)))

/-! ### Crier, Gauge and power -/

/-- R458 to R462, R464: a claim at a vector or at the Steward takes the best eligible source, which enters service and is counted; with none
it returns 0x7FF, counted, if its target was signalled, and 0 otherwise. A complete of a source in service at its target ends that service;
any other is counted. A route word is kept for the source that ROUTE_SEL names, unless it names a retired reeve or no vector; a mask word is
stored, and a PEND word but for the bits of sources that request. R446, R458, R461, R464: a source that begins to request, eligible for a
reeve, enters service on its behalf, counted, and its token is signalled; for a vector that becomes asserted its message is sent, or kept
pending while masked; when every input of a source has fallen, Crier completes it where a reeve is its target. The model's readings it rests
on: assumptions 86, 87, 88. -/
def Obligations.CrierServesItsSources : Prop :=
  (
  (∀ (s : State) (v : Option (Fin 64)), s.reaches (targetAgent v) pgCrier →
    let tgt := hostTarget v
    let idle := { s.dev with crier := { s.dev.crier with signalled := s.dev.crier.signalled.filter (· != tgt) } }
    let owed := s.enabled pgCrier = true ∧ tgt ∈ s.dev.crier.signalled
    (∀ n, s.claimable tgt = some n → Leaves (exec (.crierClaim v) s) (fun t =>
      t.out.getLast? = some (.read n) ∧ t.dev.crier.service = s.dev.crier.service ++ [(n, tgt)] ∧ Counts s t pgCrier R.crier_CLAIM_CNT 1 ∧
      t.dev.crier.routes = s.dev.crier.routes ∧ Keeps { regs := onPages [pgCrier], dev := True, out := True } s t)) ∧
    (s.claimable tgt = none → owed → Leaves (exec (.crierClaim v) s) (fun t => t.out = s.out ++ [.read 0x7FF] ∧ t.dev = idle ∧
      Counts s t pgCrier R.crier_SPUR_CNT 1 ∧ Keeps { regs := theRegs pgCrier [R.crier_SPUR_CNT], dev := True, out := True } s t)) ∧
    (s.claimable tgt = none → ¬ owed → Leaves (exec (.crierClaim v) s) (fun t => t.out = s.out ++ [.read 0] ∧ t.dev = idle ∧
      Keeps { dev := True, out := True } s t)) ∧
    (∀ x : Word, let n := x.toNat % 2 ^ 11
      ((n, tgt) ∉ s.dev.crier.service → Leaves (exec (.crierComplete v x) s) (fun t => Counts s t pgCrier R.crier_BAD_COMPLETE_CNT 1 ∧
        Keeps { regs := theRegs pgCrier [R.crier_BAD_COMPLETE_CNT] } s t)) ∧
      ((n, tgt) ∈ s.dev.crier.service → Leaves (exec (.crierComplete v x) s) (fun t => (n, tgt) ∉ t.dev.crier.service ∧
        (∀ e ∈ s.dev.crier.service, e.1 ≠ n → e ∈ t.dev.crier.service) ∧
        Keeps { regs := onPages [pgCrier], dev := True, out := True } s t)))) ∧
  (∀ (s : State) (who : Agent) (x : Word), s.reaches who pgCrier →
    let n := s.fld pgCrier R.crier_ROUTE_SEL_SOURCE
    let w := x &&& ~~~0x1000#32
    let good := isSource n = true ∧ (s.enabled pgCrier = false ∨ s.badRoute w = false)
    (¬ good → Leaves (exec (.routeDataWrite who x) s) (fun t => Ignored s t pgCrier)) ∧
    (good → Leaves (exec (.routeDataWrite who x) s) (fun t => t.route n = w ∧ (∀ m, m ≠ n → t.route m = s.route m) ∧
      Keeps { regs := onPages [pgCrier], dev := True, out := True } s t))) ∧
  (∀ (s : State) (who : Agent) (i : Fin 64) (x : Word), s.reaches who pgCrier →
    let mask := fun (t : State) (j : Nat) => t.reg pgCrier (R.crier_MASK.off + 4 * j)
    let pend := fun (t : State) (j : Nat) => (t.reg pgCrier (R.crier_PEND.off + 4 * i.val)).getLsbD j
    Leaves (exec (.maskWrite who i x) s) (fun t => mask t i.val = x ∧ (∀ j < 64, j ≠ i.val → mask t j = mask s j) ∧
      Keeps { regs := onPages [pgCrier], dev := True, out := True } s t) ∧
    Leaves (exec (.pendWrite who i x) s) (fun t =>
      (∀ j < 32, pend t j = true → x.getLsbD j = true ∧ s.requests.contains (32 * i.val + j) = false) ∧
      (s.enabled pgCrier = false → ∀ j < 32, pend t j = (x.getLsbD j && !s.requests.contains (32 * i.val + j))) ∧
      Keeps { regs := onPages [pgCrier], dev := True, out := True } s t))
  ) ∧
  (
  ∀ (s : State) (n : BitVec 11),
    let begins := s.requests.contains n.toNat = true ∧ s.sourceBit R.crier_PEND n.toNat = false
    (s.requests.contains n.toNat = false → exec (.crierSourceRequest n) s = .next s) ∧
    (begins → routeTarget (s.route n.toNat) = none → exec (.crierSourceRequest n) s = .next s) ∧
    (∀ c, begins → s.enabled pgCrier = true → routeTarget (s.route n.toNat) = some (.reeve c) → s.eligible (.reeve c) = [n.toNat] →
      Leaves (exec (.crierSourceRequest n) s) (fun t =>
        t.dev = { s.dev with
          crier := { s.dev.crier with service := s.dev.crier.service ++ [(n.toNat, .reeve c)] }
          signals := s.dev.signals ++ [{ src := none, dst := c, token := s.fld pgCrier R.crier_CFG_REEVE_TOKEN, count := 1 }] } ∧
        Counts s t pgCrier R.crier_CLAIM_CNT 1 ∧ Counts s t pgCrier R.crier_REEVE_SIG_CNT 1 ∧
        Keeps { regs := theRegs pgCrier [R.crier_CLAIM_CNT, R.crier_REEVE_SIG_CNT], dev := True } s t)) ∧
    (∀ v, begins → routeTarget (s.route n.toNat) = some (.vector v) → (s.claimable (.vector v)).isSome = true → (s.vec v).asserted = false →
      ((s.vec v).masked = false → s.dev.host.allows = true → Leaves (exec (.crierSourceRequest n) s) (fun t =>
        t.vec v = { s.vec v with asserted := true, pend := false } ∧ t.out = s.out ++ [.msix v (s.vec v).addr (s.vec v).data] ∧
        .vector v ∈ t.dev.crier.signalled ∧ Keeps { dev := True, out := True } s t)) ∧
      ((s.vec v).masked = true → Leaves (exec (.crierSourceRequest n) s) (fun t =>
        t.vec v = { s.vec v with asserted := true, pend := true } ∧ Keeps { dev := True } s t))) ∧
    (isSource n.toNat = false ∨ s.requests.contains n.toNat = true → exec (.crierSourceWithdraw n) s = .next s) ∧
    (isSource n.toNat = true → s.requests.contains n.toNat = false → Leaves (exec (.crierSourceWithdraw n) s) (fun t =>
      t.sourceBit R.crier_PEND n.toNat = false ∧ (∀ e ∈ s.dev.crier.service, e.1 ≠ n.toNat → e ∈ t.dev.crier.service) ∧
      (s.enabled pgCrier = false → ∀ c, (n.toNat, .reeve c) ∉ t.dev.crier.service) ∧
      Keeps { regs := onPages [pgCrier], dev := True, out := True } s t))
  )

/-- R488, R489: a tick of a timer sequence and a write of CMD start sequences; a tick dropped a fourth time in a row is a fault. A slot that
ends writes its results, counts a pass after its last entry, and gives the next slot to the pending or running sequence of the lowest
number. The model's readings it rests on: assumption 83. -/
def Obligations.GaugeRunsItsSequences : Prop :=
  (∀ (s : State) (q : Fin 4),
    let n := (Sparse.get? s.dev.gauge.missed q.val).getD 0 + 1
    let ticks := s.enabled pgGauge = true ∧ s.seqStart q.val = 1 ∧ s.seqLen q.val ≠ 0
    let starts := fun t : State => GaugeStarts s t q.val
    (¬ ticks → exec (.gaugeSeqTimer q) s = .next s) ∧
    (ticks → s.seqBusy q.val = false → Leaves (exec (.gaugeSeqTimer q) s) (fun t => starts t ∧ Sparse.get? t.dev.gauge.missed q.val = none ∧
      Keeps { regs := theRegs pgGauge [R.gauge_STATUS_PENDING], dev := True } s t)) ∧
    (ticks → s.seqBusy q.val = true → n < 4 → Leaves (exec (.gaugeSeqTimer q) s) (fun t => starts t ∧
      Sparse.get? t.dev.gauge.missed q.val = some n ∧ Keeps { regs := theRegs pgGauge [R.gauge_SKIP_CNT], dev := True } s t)) ∧
    (ticks → s.seqBusy q.val = true → 4 ≤ n → Leaves (exec (.gaugeSeqTimer q) s) (fun t => starts t ∧
      Sparse.get? t.dev.gauge.missed q.val = none ∧ Counts s t pgGauge R.gauge_TIMER_MISS_CNT 1 ∧ Faults s t pgGauge 2 ∧
      t.dev.watchDue = s.dev.watchDue ++ [15] ∧
      Keeps { regs := theRegs pgGauge ([R.gauge_SKIP_CNT, R.gauge_TIMER_MISS_CNT] ++ faultRegs), dev := True } s t))) ∧
  (∀ (s : State) (who : Agent) (v : Word) (q : Fin 4), s.reaches who pgGauge → v.toNat % 16 = 2 ^ q.val →
    Leaves (exec (.gaugeCmd who v) s) (fun t => GaugeStarts s t q.val ∧
      Keeps { regs := theRegs pgGauge [R.gauge_STATUS_PENDING, R.gauge_SKIP_CNT], dev := True } s t)) ∧
  (∀ (s : State) (a b : BitVec 14) (fin : Bool),
    let gives := fun (t : State) (q : Nat) => t.seqRunning q = true ∧ t.seqPending q = false ∧
      t.dev.gauge.cur = some (q, s.fld pgGauge (R.gauge_SEQ_STATUS_ENTRY.plus (4 * q)))
    (s.enabled pgGauge = false → exec (.gaugeSlot a b fin) s = .next s) ∧
    (s.enabled pgGauge = true → s.dev.gauge.cur = none → (List.range 4).find? s.seqBusy = none → exec (.gaugeSlot a b fin) s = .next s) ∧
    (∀ q, s.enabled pgGauge = true → s.dev.gauge.cur = none → (List.range 4).find? s.seqBusy = some q →
      Leaves (exec (.gaugeSlot a b fin) s) (fun t => gives t q ∧ Keeps { regs := theRegs pgGauge [R.gauge_STATUS_PENDING], dev := True } s t)) ∧
    (∀ q i, s.enabled pgGauge = true → s.dev.gauge.cur = some (q, i) → q < 4 → i < 32 →
      let k := 0x80 * q + 4 * i
      let entry := fun t : State => t.fld pgGauge (R.gauge_SEQ_STATUS_ENTRY.plus (4 * q))
      let pass := fun t : State => t.fld pgGauge (R.gauge_SEQ_STATUS_PASS.plus (4 * q))
      let moves := fun t : State =>
        (s.seqLen q ≤ i + 1 → pass t = (pass s + 1) % 2 ^ 16 ∧ entry t = 0) ∧ (i + 1 < s.seqLen q → entry t = (i + 1) % 32)
      (fin = true → Leaves (exec (.gaugeSlot a b fin) s) (fun t => moves t ∧
        t.bit pgGauge (R.gauge_RESULT_VALID_A.plus k) = (s.halfChannel q i false).isSome ∧
        t.bit pgGauge (R.gauge_RESULT_VALID_B.plus k) = (s.halfChannel q i true).isSome ∧
        ((s.halfChannel q i false).isSome = true → t.fld pgGauge (R.gauge_RESULT_CODE_A.plus k) = a.toNat) ∧
        ((s.halfChannel q i true).isSome = true → t.fld pgGauge (R.gauge_RESULT_CODE_B.plus k) = b.toNat) ∧
        t.mem = s.mem ∧ t.crofts = s.crofts)) ∧
      (fin = false → s.fld pgGauge R.STATE_STATE ≠ stFault → Leaves (exec (.gaugeSlot a b fin) s) (fun t => moves t ∧ Faults s t pgGauge 3 ∧
        Keeps { regs := onPages [pgGauge], dev := True } s t))))

/-- R288, R471, R472: a MULT from 32 to 72 is taken: the clock relocks at once where the hamlet's voltage suffices, and otherwise the
voltage is commanded first and the relock follows VDone; a relock's end brings the clock into force and lets the voltage fall to what the
clocks need; without VDone the clock stays as it was and the power page faults. A regulator transaction that fails a third time is a power
fault. R478: without CAP_EN the duty is 0; with it, each tick shows the average of the last ten ticks' package power and moves the duty by
one of 64: up while the average is above the cap, to 32 at most, and down while it is below 98 % of it. The model's readings it rests on:
assumptions 76, 77. -/
def Obligations.ClocksVoltagesAndTheCap : Prop :=
  (
  (∀ (s : State) (c : CroftId) (v : Word), s.reaches .host (pgCroft c.val) →
    let m := v.toNat % 128
    let h := c.val / 16
    let need := vfOf h (max (s.topMult h) m)
    let takes := 32 ≤ m ∧ m ≤ 72
    let quiet := (∀ w ∈ s.dev.power.clkQ, w.croft / 16 ≠ h) ∧ s.vpend h = false ∧ s.relockTo c.val = none
    let cur := s.fld (pgCroft c.val) R.croft_CLK_CUR
    let mult := fun t : State => t.fld (pgCroft c.val) R.croft_CLK_MULT = m ∧ t.fld (pgCroft c.val) R.croft_CLK_CUR = cur
    let keeps := fun t : State =>
      Keeps { regs := someRegs [(pgCroft c.val, [R.croft_CLK_MULT]), (pgPower, [R.power_STATUS_VPEND])], dev := True } s t
    (¬ takes → Leaves (exec (.clkMultWrite c v) s) (fun t => Ignored s t (pgCroft c.val))) ∧
    (takes → quiet → m = cur → Leaves (exec (.clkMultWrite c v) s) (fun t => mult t ∧ t.dev = s.dev ∧ keeps t)) ∧
    (takes → quiet → m ≠ cur → s.volts h < need → Leaves (exec (.clkMultWrite c v) s) (fun t => mult t ∧ t.volts h = need ∧ t.vpend h = true ∧
      t.relockTo c.val = none ∧ t.dev.power.clkQ = s.dev.power.clkQ ++ [⟨c.val, m⟩] ∧ keeps t)) ∧
    (takes → quiet → m ≠ cur → need ≤ s.volts h → Leaves (exec (.clkMultWrite c v) s) (fun t => mult t ∧ t.relockTo c.val = some m ∧
      t.bit (pgCroft c.val) R.croft_CLK_RELOCK = true ∧ t.dev.power.clkQ = s.dev.power.clkQ ∧ t.volts h = s.volts h ∧ keeps t)) ∧
    (takes → s.vpend h = true → Leaves (exec (.clkMultWrite c v) s) (fun t => mult t ∧
      t.dev = { s.dev with power := { s.dev.power with clkQ := s.dev.power.clkQ ++ [⟨c.val, m⟩] } } ∧ keeps t))) ∧
  (∀ (s : State) (c : CroftId), let h := c.val / 16
    (s.relockTo c.val = none → exec (.relockDone c) s = .next s) ∧
    (∀ m, s.relockTo c.val = some m → (∀ w ∈ s.dev.power.clkQ, w.croft / 16 ≠ h) → Leaves (exec (.relockDone c) s) (fun t =>
      t.fld (pgCroft c.val) R.croft_CLK_CUR = m % 128 ∧ t.bit (pgCroft c.val) R.croft_CLK_RELOCK = false ∧ t.relockTo c.val = none ∧
      t.volts h = (if s.vpend h = false then min (s.volts h) (vfOf h (t.topMult h)) else s.volts h) ∧
      Keeps { regs := theRegs (pgCroft c.val) [R.croft_CLK_CUR], dev := True } s t))) ∧
  (∀ (s : State) (h : HamletId),
    (∀ w, s.raising h.val = some w → (∀ x ∈ s.dev.power.clkQ.erase w, x.croft / 16 ≠ h.val) →
      Leaves (exec (.vdone h) s) (fun t => t.vpend h.val = false ∧ (s.relockTo w.croft = none → t.relockTo w.croft = some w.mult) ∧
        t.bit (pgCroft w.croft) R.croft_CLK_RELOCK = true ∧ t.dev.power.clkQ = s.dev.power.clkQ.erase w ∧
        Keeps { regs := someRegs [(pgCroft w.croft, [R.croft_CLK_RELOCK]), (pgPower, [R.power_STATUS_VPEND])], dev := True } s t) ∧
      Leaves (exec (.vdoneTimeout h) s) (fun t => t.vpend h.val = false ∧ PowerFaults s t 5 h.val ∧
        t.dev.power.relock = s.dev.power.relock ∧ t.dev.power.clkQ = s.dev.power.clkQ.erase w ∧
        Keeps { regs := theRegs pgPower ([R.power_STATUS_VPEND] ++ faultRegs), dev := True } s t)) ∧
    (s.vpend h.val = false → exec (.vdoneTimeout h) s = .next s)) ∧
  (∀ (s : State) (rail : Fin 16) (cmd : AvsCmd) (ok : Bool) (v : BitVec 13),
    let p := s.dev.power
    let n := (Sparse.get? p.avsFails rail.val).getD 0
    (s.powered = false → exec (.avsTransaction rail cmd ok v) s = .next s) ∧
    (s.powered = true → ok = true → Leaves (exec (.avsTransaction rail cmd ok v) s) (fun t => Sparse.get? t.dev.power.avsFails rail.val = some 0 ∧
      t.dev.power.meas = (if cmd = .readVoltage then Sparse.set p.meas rail.val v.toNat else p.meas) ∧
      t.dev.power.amps = (if cmd = .readCurrent then Sparse.set p.amps rail.val v.toNat else p.amps) ∧ Keeps { dev := True } s t)) ∧
    (s.powered = true → ok = false → n < 2 → Leaves (exec (.avsTransaction rail cmd ok v) s) (fun t =>
      t.dev = { s.dev with power := { p with avsFails := Sparse.set p.avsFails rail.val (n + 1) } } ∧ Keeps { dev := True } s t)) ∧
    (s.powered = true → ok = false → 2 ≤ n → Leaves (exec (.avsTransaction rail cmd ok v) s) (fun t =>
      Counts s t pgPower R.power_AVS_ERR_CNT 1 ∧ PowerFaults s t 1 rail.val ∧ t.dev.watchDue = s.dev.watchDue ++ [15] ∧
      Keeps { regs := theRegs pgPower ([R.power_AVS_ERR_CNT] ++ faultRegs), dev := True } s t)))
  ) ∧
  (
  ∀ s : State,
    let samples := (((List.range 36).map s.railPower).sum :: s.dev.power.samples).take 10
    let mean := samples.sum / (1000 * samples.length)
    let duty := s.fld pgPower R.power_POWER_DUTY
    let cap := 10 * s.fld pgPower R.power_CFG_CAP
    (s.powered = false → exec .capGovernorTick s = .next s) ∧
    (s.powered = true → s.bit pgPower R.power_CFG_CAP_EN = false → Leaves (exec .capGovernorTick s) (fun t =>
      t.fld pgPower R.power_POWER_DUTY = 0 ∧ t.bit pgPower R.power_STATUS_CAP_LIMITING = false ∧
      t.dev = { s.dev with power := { s.dev.power with samples := [], atMax := 0 } } ∧
      Keeps { regs := theRegs pgPower [R.power_POWER_DUTY, R.power_STATUS_CAP_LIMITING], dev := True } s t)) ∧
    (s.powered = true → s.bit pgPower R.power_CFG_CAP_EN = true → Leaves (exec .capGovernorTick s) (fun t => t.dev.power.samples = samples ∧
      (let avg := t.fld pgPower R.power_POWER_AVG_W
       (avg = min 8191 mean ∨ avg = min 8191 (mean + 1)) ∧ (samples.sum % (1000 * samples.length) = 0 → avg = min 8191 mean) ∧
       t.fld pgPower R.power_POWER_DUTY = (if cap < avg then min 32 (duty + 1) else if 100 * avg < 98 * cap then duty - 1 else duty)) ∧
      t.bit pgPower R.power_STATUS_CAP_LIMITING = decide (0 < t.fld pgPower R.power_POWER_DUTY) ∧
      Keeps { regs := theRegs pgPower [R.power_POWER_DUTY, R.power_STATUS_CAP_LIMITING, R.power_CAP_LIMIT_CNT, R.CRIER_LINE_RAISED],
              dev := True, seq := True } s t))
  )

/-- R134 to R136, R473 to R476: a supply warning discards the draw slots in progress in its hamlet, aborts plumb work and marks load passes
to be repeated; its release is counted and logged unless the reset level was reached, and the effects end 200 ns later. The reset level puts
the hamlet in reset, or stops a cold start; a hamlet held there for more than 1 ms, an overvoltage and a supervisor's trip are power faults
that assert FAULT_N. R479 to R481, R483: power states change one step at a time, towards less power only while no reeve runs; a request that
is not one of them is answered at once and changes nothing. RETAIN keeps the memories and Crier's service; a wake returns to READY, with a
fault of each granary that did not train. OFF, THERMTRIP and the loss of the main feeds end everything that main power holds. The model's
readings it rests on: assumptions 74, 80, 81, 82, 149. -/
def Obligations.SupplyEventsAndPowerStates : Prop :=
  (
  ∀ (s : State) (h : HamletId),
    let warn := (s.hamlet h.val).warn
    let mine := fun c : Nat => c / 16 = h.val
    let below := hamletBit R.power_STATUS_SUPPLY_RST h.val
    let starting := s.deviceReset = true ∧ s.dev.boot.released = true
    let whole := s.dev.boot.cold = true ∨ s.dev.boot.full = true
    let faults := fun (i : Instr) (cause rail : Nat) => Leaves (exec i s) (fun t => PowerFaults s t cause rail ∧ t.dev.faultN = true ∧
      t.dev.watchDue = s.dev.watchDue ++ [15] ∧ Keeps { regs := theRegs pgPower ([R.power_OV_CNT] ++ faultRegs), dev := True } s t)
    (s.powered = false ∨ warn = 1 → exec (.supplyWarning h) s = .next s) ∧
    (s.powered = true → warn ≠ 1 → Leaves (exec (.supplyWarning h) s) (fun t => (t.hamlet h.val).warn = 1 ∧
      t.bit pgPower (hamletBit R.power_STATUS_WARN h.val) = true ∧
      (∀ c, mine c → (∀ r ∈ (t.croft c).runs, r.inSlot = false) ∧ (t.croft c).plumb = (s.croft c).plumb.map (fun j => { j with restart := true })) ∧
      (∀ w, w / 256 = h.val → (t.well w).load = (s.well w).load.map (fun l => if l.hold then l else { l with redo := true })) ∧
      Keeps { regs := fun a => inHamlet h.val a ∨ onPages [pgPower, pgGauge] a, crofts := mine, wells := fun w => w / 256 = h.val,
              hamlets := (· = h.val), dev := True } s t)) ∧
    (∀ dur low,
      (warn ≠ 1 → exec (.supplyWarningRelease h dur low) s = .next s) ∧
      (warn = 1 → s.bit pgPower below = true → Leaves (exec (.supplyWarningRelease h dur low) s) (fun t => (t.hamlet h.val).warn = 2 ∧
        t.bit pgPower (hamletBit R.power_STATUS_WARN h.val) = false ∧
        Keeps { regs := theRegs pgPower [R.power_STATUS_WARN], hamlets := (· = h.val) } s t)) ∧
      (warn = 1 → s.bit pgPower below = false → Leaves (exec (.supplyWarningRelease h dur low) s) (fun t => (t.hamlet h.val).warn = 2 ∧
        t.bit pgPower (hamletBit R.power_STATUS_WARN h.val) = false ∧ Counts s t pgPower R.power_WARN_CNT 1 ∧
        t.fld pgPower R.power_DROOP_LOG_HAMLET = h.val ∧ t.fld pgPower R.power_DROOP_LOG_DUR = min dur 0xFFFFF ∧
        t.fld pgPower R.power_DROOP_LOG_MIN = low.toNat ∧ t.bit pgPower R.power_DROOP_LOG_VALID = true ∧
        t.dev = { s.dev with watchDue := s.dev.watchDue ++ [8] } ∧
        Keeps { regs := theRegs pgPower [R.power_STATUS_WARN, R.power_WARN_CNT, R.power_DROOP_LOG_HAMLET, R.CRIER_LINE_RAISED],
                hamlets := (· = h.val), dev := True } s t))) ∧
    (warn ≠ 2 → exec (.warningSettleEnd h) s = .next s) ∧
    (warn = 2 → Leaves (exec (.warningSettleEnd h) s) (fun t => (t.hamlet h.val).warn = 0 ∧
      (∀ c, mine c → (t.croft c).plumb = (s.croft c).plumb.map (fun j => { j with restart := false })) ∧
      (∀ w, w / 256 = h.val → (t.well w).load = (s.well w).load.map (fun l => { l with hold := false })) ∧
      Keeps { hamlets := (· = h.val), crofts := mine, wells := fun w => w / 256 = h.val } s t)) ∧
    (s.powered = false → exec (.supplyResetLevel h) s = .next s) ∧
    (s.powered = true → starting → whole → Leaves (exec (.supplyResetLevel h) s) (fun t => StartStops s t 8 h.val)) ∧
    (s.powered = true → starting → ¬ whole → Leaves (exec (.supplyResetLevel h) s) (fun t => Counts s t pgPower R.power_SUPPLY_RST_CNT 1 ∧
      t.bit pgPower below = true ∧ t.bootPhase = 4 ∧ HoldsCores s t (croftsOf h.val) ∧
      Keeps { regs := someRegs [(pgPower, [R.power_SUPPLY_RST_CNT, R.power_STATUS_SUPPLY_RST]), (pgDevctl, [R.devctl_BOOT_PHASE])], dev := True }
        s t)) ∧
    (s.powered = true → s.deviceReset = false → Leaves (exec (.supplyResetLevel h) s) (fun t => Counts s t pgPower R.power_SUPPLY_RST_CNT 1 ∧
      t.bit pgPower below = true ∧ t.underReset (pgHamlet h.val) = true ∧ t.mem = s.mem)) ∧
    Leaves (exec (.supplyResetRelease h) s) (fun t => t.bit pgPower below = false ∧
      (∀ g < 8, g ≠ h.val → t.bit pgPower (hamletBit R.power_STATUS_SUPPLY_RST g) = s.bit pgPower (hamletBit R.power_STATUS_SUPPLY_RST g)) ∧
      Keeps { regs := theRegs pgPower [R.power_STATUS_SUPPLY_RST] } s t) ∧
    (s.bit pgPower below = false → exec (.resetLevelHoldTimeout h) s = .next s) ∧
    (s.bit pgPower below = true → faults (.resetLevelHoldTimeout h) 3 h.val) ∧
    (s.powered = false → exec (.overvoltage h) s = .next s) ∧
    (s.powered = true → faults (.overvoltage h) 2 h.val ∧
      Leaves (exec (.overvoltage h) s) (fun t => Counts s t pgPower R.power_OV_CNT 1)) ∧
    (∀ rail : Fin 36,
      (s.powered = false ∨ supervised rail.val = false → exec (.railSupervisorTrip rail) s = .next s) ∧
      (s.powered = true → supervised rail.val = true → faults (.railSupervisorTrip rail) 4 rail.val))
  ) ∧
  (
  (∀ (s : State) (r : Request), s.dev.host.mailbox.serving = some r →
    let x := leNat (r.payload.take 4)
    let p := s.pstate
    let free := s.powered = true ∧ s.atReady = true ∧ s.dev.power.target = none ∧ s.dev.power.offAsked = false
    let steps := (p = 1 ∧ x = 0) ∨ (p = 2 ∧ x = 1) ∨ (((p = 0 ∧ x = 1) ∨ (p = 1 ∧ x = 2)) ∧ s.anyRunning = false)
    let off := x = 4 ∧ (p = 1 ∨ p = 2) ∧ s.enabledReeves = []
    let turned := fun result : Nat => Leaves (exec .setPowerState s) (fun t => Responds t r result [] ∧ Keeps { dev := True } s t)
    (r.op ≠ opSetPower → exec .setPowerState s = .next s) ∧
    (r.op = opSetPower → r.len ≠ 4 → turned rsMalformed) ∧
    (r.op = opSetPower → r.len = 4 → x ∉ [0, 1, 2, 4] → turned rsMalformed) ∧
    (r.op = opSetPower → r.len = 4 → x ∈ [0, 1, 2, 4] → ¬ (free ∧ (steps ∨ off)) → turned rsNotNow) ∧
    (r.op = opSetPower → r.len = 4 → free → steps → Leaves (exec .setPowerState s) (fun t =>
      t.dev = { s.dev with power := { s.dev.power with target := some x, holds := [], asked := true } } ∧
      t.bit pgPower R.power_STATUS_TRANS = true ∧ Keeps { regs := theRegs pgPower [R.power_STATUS_TRANS], dev := True } s t)) ∧
    (r.op = opSetPower → r.len = 4 → free → off → Leaves (exec .setPowerState s) (fun t => t.dev.power.offAsked = true ∧
      Responds t r rsDone (toLe 4 4) ∧ t.bit pgPower R.power_STATUS_TRANS = true ∧
      Keeps { regs := theRegs pgPower [R.power_STATUS_TRANS], dev := True } s t))) ∧
  (∀ s : State,
    let w := s.dev.power
    let takes := s.powered = true ∧ s.atReady = true ∧ w.offAsked = false
    (¬ takes → exec .pmD3hot s = .next s) ∧
    (takes → w.target.isSome = true → Leaves (exec .pmD3hot s) (fun t =>
      t.dev = { s.dev with power := { w with later := w.later ++ [true] } } ∧ Keeps { dev := True } s t)) ∧
    (takes → w.target = none → s.enabledReeves = [] → Leaves (exec .pmD3hot s) (fun t =>
      t.dev = { s.dev with power := { w with target := some psRetain, holds := [] } } ∧ t.bit pgPower R.power_STATUS_TRANS = true ∧
      Keeps { regs := theRegs pgPower [R.power_STATUS_TRANS], dev := True } s t)) ∧
    (takes → w.target = none → s.enabledReeves ≠ [] → Leaves (exec .pmD3hot s) (fun t => t.dev.power.target = some psRetain ∧
      t.bit pgPower R.power_STATUS_TRANS = true ∧ (∀ c < 128, Halts s t c) ∧ t.mem = s.mem)) ∧
    (w.target.isSome = true → Leaves (exec .pmD0 s) (fun t =>
      t.dev = { s.dev with power := { w with later := w.later ++ [false] } } ∧ Keeps { dev := True } s t)) ∧
    (w.target = none → w.level = .retain → Leaves (exec .pmD0 s) (fun t =>
      t.dev = { s.dev with power := { w with target := some psIdle, holds := [] } } ∧
      Keeps { regs := theRegs pgPower [R.power_STATUS_TRANS], dev := True } s t)) ∧
    (w.target = none → w.level ≠ .retain → exec .pmD0 s = .next s) ∧
    (w.target = none → exec .powerTransitionDone s = .next s) ∧
    (∀ x, w.target = some x → s.transEnds x = false → exec .powerTransitionDone s = .next s) ∧
    (∀ x, w.target = some x → s.transEnds x = true → w.later = [] →
      (w.level = .retain → Leaves (exec .powerTransitionDone s) (fun t => t.dev.power.level = .on ∧ t.dev.power.target = none ∧
        t.dev.resets = [] ∧ t.atReady = true ∧ t.bit pgPower R.power_STATUS_TRANS = false ∧ t.mem = s.mem ∧
        (∀ h < 8, t.fld (pgGran h) R.STATE_STATE = stFault ∨ t.fld (pgGran h) R.STATE_STATE = s.fld (pgGran h) R.STATE_STATE))) ∧
      (w.level ≠ .retain → x < 3 → w.asked = true → ∀ r, s.dev.host.mailbox.serving = some r →
        Leaves (exec .powerTransitionDone s) (fun t => t.dev.power.target = none ∧ t.pstate = x ∧
          t.bit pgPower R.power_STATUS_TRANS = false ∧ Counts s t pgPower R.power_TRANS_CNT 1 ∧ Responds t r rsDone (toLe 4 x) ∧
          t.mem = s.mem ∧ t.crofts = s.crofts)) ∧
      (w.level ≠ .retain → x < 3 → w.asked = false → Leaves (exec .powerTransitionDone s) (fun t =>
        t.dev = { s.dev with power := { w with target := none } } ∧ t.pstate = x ∧ t.bit pgPower R.power_STATUS_TRANS = false ∧
        Counts s t pgPower R.power_TRANS_CNT 1 ∧
        Keeps { regs := theRegs pgPower [R.power_STATUS_TRANS, R.power_TRANS_CNT], dev := True } s t)) ∧
      (w.level ≠ .retain → x = psRetain → s.pstate = psActive → Leaves (exec .powerTransitionDone s) (fun t =>
        t.pstate = psIdle ∧ Counts s t pgPower R.power_TRANS_CNT 1 ∧
        Keeps { regs := theRegs pgPower [R.power_STATUS_PSTATE, R.power_TRANS_CNT] } s t)) ∧
      (w.level ≠ .retain → x = psRetain → s.pstate ≠ psActive → Leaves (exec .powerTransitionDone s) (fun t =>
        t.dev.power.level = .retain ∧ t.mem = s.mem ∧ t.dev.resets = [⟨.device, true⟩] ∧ t.dev.crier = s.dev.crier ∧
        (∀ c < 128, t.croft c = {}))))) ∧
  (∀ s : State,
    (s.dev.power.offAsked = false → exec .offEntry s = .next s) ∧
    (s.dev.power.offAsked = true → Leaves (exec .offEntry s) (fun t => MainPowerOff s t)) ∧
    (∀ stack i,
      (s.dev.power.level = .off → exec (.thermtrip stack i) s = .next s) ∧
      (s.dev.power.level ≠ .off → Leaves (exec (.thermtrip stack i) s) (fun t =>
        MainPowerOff s t ∧ t.dev.power.thermN = true ∧ t.dev.power.tripped = some (stack, i.toNat)))) ∧
    (s.dev.power.level ≠ .off → Leaves (exec .mainFeedsRemoved s) (fun t => t.dev.power.thermN = false ∧ MainPowerOff s t)) ∧
    (s.dev.power.level = .off → Leaves (exec .mainFeedsRemoved s) (fun t =>
      t.dev = { s.dev with power := { s.dev.power with thermN := false } } ∧ Keeps { dev := True } s t)) ∧
    (∀ straps,
      (s.dev.boot.strap.isSome = true → exec (.vddAuxValid straps) s = .next s) ∧
      (s.dev.boot.strap = none → Leaves (exec (.vddAuxValid straps) s) (fun t =>
        t.dev = { s.dev with boot := { s.dev.boot with strap := some straps, railEn := [] } } ∧ Keeps { dev := True } s t))))
  )

/-! ### Starts, resets and register pages -/

/-- R498, R499, R515: a cold start clears what an earlier run left and enables rail group 1; each valid group enables the next, and after
the last the Steward's ROM runs and the cores are held for their images; a group not valid in time stops the start with code 0x02 and its
rail. R496, R515: the oldest runtime event is written to the flash; the sideband answers its four commands with the fields of R515. The
model's readings it rests on: assumption 65. -/
def Obligations.ColdStartsAndTheSideband : Prop :=
  (
  (∀ s : State,
    let may := s.dev.power.level = .off ∧ s.dev.power.thermN = false ∧ s.dev.boot.strap ≠ none
    (¬ may → exec .coldStart s = .next s) ∧
    (may → Leaves (exec .coldStart s) (fun t =>
      t.dev.power.level = .on ∧ t.dev.power.tripped = none ∧ t.dev.boot.cold = true ∧ t.dev.boot.group = some 1 ∧
      t.dev.boot.railEn = groupEnables 1 ∧ t.dev.resets = [⟨.device, true⟩] ∧ (∀ a < 0x10000000, Sparse.get? t.regs a = none) ∧
      (∀ a < 0x200000000000, t.byte a = 0) ∧ (∀ c < 128, t.croft c = {}) ∧ t.dev.boot.defects = s.dev.boot.defects ∧
      t.dev.boot.flash = s.dev.boot.flash ∧ t.dev.boot.bank = s.dev.boot.bank ∧ t.dev.boot.starts = s.dev.boot.starts ∧ t.out = s.out))) ∧
  (∀ s : State,
    (s.dev.boot.group = none → exec .railGroupValid s = .next s) ∧
    (∀ g, s.dev.boot.group = some g → g < 7 → Leaves (exec .railGroupValid s) (fun t =>
      t.dev = { s.dev with boot := { s.dev.boot with group := some (g + 1), railEn := s.dev.boot.railEn ++ groupEnables (g + 1) } } ∧
      Keeps { dev := True } s t)) ∧
    (∀ g, s.dev.boot.group = some g → 7 ≤ g → Leaves (exec .railGroupValid s) (fun t => t.dev.boot.group = none ∧ t.dev.boot.released = true ∧
      t.bootPhase = 1 ∧ HoldsCores s t allCrofts ∧ Keeps { regs := theRegs pgDevctl [R.devctl_BOOT_PHASE], dev := True } s t))) ∧
  (∀ (s : State) (rail : Fin 36),
    (∀ g, s.dev.boot.group = some g → (groupRails g).contains rail.val = true →
      Leaves (exec (.railGroupTimeout rail) s) (fun t => StartStops s t 2 rail.val)) ∧
    ((∀ g, s.dev.boot.group = some g → (groupRails g).contains rail.val = false) → exec (.railGroupTimeout rail) s = .next s))
  ) ∧
  (
  (∀ s : State,
    (s.dev.boot.unwritten = [] → exec .runtimeRecordWrite s = .next s) ∧
    (∀ e rest, s.dev.boot.unwritten = e :: rest → Leaves (exec .runtimeRecordWrite s) (fun t =>
      t.dev = { s.dev with boot := { s.dev.boot with unwritten := rest } } ∧ t.out = s.out ++ [.record e] ∧
      Keeps { dev := True, out := True } s t))) ∧
  (∀ (s : State) (i : Instr) (bs : List Byte),
    (i, bs) ∈ [(Instr.smbBoot, toLe 4 (s.reg pgDevctl R.devctl_BOOT_PHASE.off).toNat),
      (Instr.smbResetCause, toLe 4 (s.reg pgDevctl R.devctl_RESET_CAUSE_LAST.off).toNat),
      (Instr.smbThermtrip, toLe 4 (match s.dev.power.tripped with | some (k, x) => 1 + (if k then 2 else 0) + 4 * x | none => 0)),
      (Instr.smbSerial, toLe 16 Config.serial.toNat)] →
    (s.dev.boot.strap = none → exec i s = .next s) ∧
    (s.dev.boot.strap.isSome = true → Leaves (exec i s) (fun t => t.out = s.out ++ [.smbus bs] ∧ Keeps { out := True } s t)))
  )

/-- R1, R499, R501 to R503, R509, R522: a firmware packet is stored by the cores it reaches that lack it; a core with its whole image is
released, or lacks every packet again where its digest differs; a packet sent to one core is a repair and is counted. The first of a start
finds the enrolment committed and the trim image the device's own, or the start stops. A report begins the next round, and a core still held
after the third is retired with its unit. R1, R322, R499, R505, R507, R511, R514, R522: where every core has its image and no hamlet stands
at the reset level, the device's start ends in READY, with its pages at their reset values, Gauge loaded and the slices rewritten; a cold
start's end seals the appended list, clears the runtime section and writes the trim copy, and a list beyond 4,096 entries stops it; on the
fast path a granary that did not train is in FAULT. A start that stops does so with its code and address. The model's readings it rests on:
assumptions 64, 66, 67, 68, 69, 70, 73, 144. -/
def Obligations.StartsLoadTheCoresAndEnd : Prop :=
  (
  (∀ (s : State) (kind : CoreKind) (n : BitVec 16) (only : Option (BitVec 16)) (lost differ : List Nat),
    let b := s.dev.boot
    let reaches (l : CoreLoad) : Prop := l.core.kind = CoreKind.page kind ∧ ∀ u, only = some u → u.toNat = l.core.inst
    let gets (l : CoreLoad) : Prop := reaches l ∧ l.core.inst ∉ lost
    let left (l : CoreLoad) : List Nat := l.lacks.filter (· != n.toNat)
    let first := s.deviceReset = true ∧ b.released = true ∧ s.bootPhase < 4
    let stops := fun (code : Nat) => Leaves (exec (.fwPacket kind n only lost differ) s) (fun t =>
      t.bootPhase = phStopped ∧ t.fld pgDevctl R.devctl_BOOT_STOP = code ∧ t.dev.faultN = true ∧ t.mem = s.mem)
    let stored := fun t : State =>
      (∀ l ∈ b.loads, ¬ gets l → l ∈ t.dev.boot.loads) ∧
      (∀ l ∈ b.loads, gets l → left l ≠ [] → { l with lacks := left l } ∈ t.dev.boot.loads) ∧
      (∀ l ∈ b.loads, gets l → n.toNat ∈ l.lacks → left l = [] → l.core.inst ∈ differ →
        { l with lacks := List.range (packetsOf l.core) } ∈ t.dev.boot.loads) ∧
      (∀ l' ∈ t.dev.boot.loads, (l' ∈ b.loads ∧ ¬ gets l') ∨ ∃ l ∈ b.loads, gets l ∧ l'.core = l.core ∧
        l'.round = l.round ∧ (left l ≠ [] ∨ l.core.inst ∈ differ)) ∧
      (only.isSome = true → Counts s t pgDevctl R.devctl_REPAIR_CNT 1) ∧
      Keeps { regs := theRegs pgDevctl ([R.devctl_BOOT_PHASE] ++ if only.isSome then [R.devctl_REPAIR_CNT] else []), dev := True } s t
    ((∀ l ∈ b.loads, ¬ reaches l) → exec (.fwPacket kind n only lost differ) s = .next s) ∧
    ((∃ l ∈ b.loads, reaches l) → ¬ first → Leaves (exec (.fwPacket kind n only lost differ) s) stored) ∧
    ((∃ l ∈ b.loads, reaches l) → first → b.enrolled = true → b.trim = .own → Leaves (exec (.fwPacket kind n only lost differ) s) (fun t =>
      stored t ∧ 4 ≤ t.bootPhase ∧ t.dev.host.mailbox.mstate = 0 ∧ t.dev.boot.enrol = .committed)) ∧
    ((∃ l ∈ b.loads, reaches l) → first → b.enrolled = false → stops 3) ∧
    ((∃ l ∈ b.loads, reaches l) → first → b.enrolled = true → b.trim ≠ .own → stops 1)) ∧
  (∀ s : State, Leaves (exec .repairReport s) (fun t =>
    ((∀ l ∈ s.dev.boot.loads, l.round < 3) → s.dev.boot.found = [] → t.dev.boot.found = [] ∧ t.dev.boot.runtime = s.dev.boot.runtime ∧
      ∀ l ∈ s.dev.boot.loads, s.retiredCore l.core = false → { l with round := l.round + 1 } ∈ t.dev.boot.loads) ∧
    (∀ l ∈ s.dev.boot.loads, 3 ≤ l.round →
      (∃ e ∈ t.defectList ++ t.dev.boot.found, e.kind = (coreEntry l.core).1 ∧ e.unit = (coreEntry l.core).2) ∧
      ∀ l' ∈ t.dev.boot.loads, l'.core ≠ l.core) ∧
    Keeps { regs := theRegs pgDevctl [R.devctl_BOOT_PHASE, R.devctl_RETIRE_CNT], dev := True } s t))
  ) ∧
  (
  ∀ (s : State) (fs : List Finding),
    let b := s.dev.boot
    let under := s.deviceReset = true ∧ b.released = true
    (∀ e, ¬ under → exec (.resetDone .device fs e) s = .next s) ∧
    (∀ (code : Byte) (addr : BitVec 64),
      let told := 1 ≤ code.toNat ∧ code.toNat ≤ 9 ∧ ¬ (code = 1 ∧ b.trim = .own)
      (under → told → Leaves (exec (.resetDone .device fs (.stopped code addr)) s) (fun t => StartStops s t code.toNat addr.toNat)) ∧
      (under → ¬ told → exec (.resetDone .device fs (.stopped code addr)) s = .next s)) ∧
    (∀ (fb : Bool) (hs : List HamletId),
      let l := b.appended fs
      let clear := b.loads = [] ∧ s.fld pgPower R.power_STATUS_SUPPLY_RST = 0
      let identified := b.enrolled = true ∧ b.trim = .own
      let stops := fun (code : Nat) => Leaves (exec (.resetDone .device fs (.ready fb hs)) s) (fun t =>
        t.bootPhase = phStopped ∧ t.fld pgDevctl R.devctl_BOOT_STOP = code ∧ t.dev.faultN = true ∧ t.mem = s.mem)
      let ready := fun t : State => t.atReady = true ∧ t.dev.resets = [] ∧ t.bit pgDevctl R.devctl_BOOT_FALLBACK = fb ∧ t.enabled pgGauge = true ∧
        t.bit pgDevctl R.CRIER_LINE_RAISED = true ∧ (t.reg pgDevctl R.devctl_START_START_CNT.off).toNat = t.dev.boot.starts % 2 ^ 32 ∧
        (∀ c < 128, t.croft c = {} ∧ ∀ x, ofSlice c x → t.byte x = 0)
      (under → ¬ clear → exec (.resetDone .device fs (.ready fb hs)) s = .next s) ∧
      (under → clear → b.enrolled = false → stops 3) ∧
      (under → clear → b.enrolled = true → b.trim ≠ .own → stops 1) ∧
      (under → clear → identified → b.cold = true → 4096 < l.length → stops 5) ∧
      (under → clear → identified → b.cold = true → l.length ≤ 4096 → Leaves (exec (.resetDone .device fs (.ready fb hs)) s) (fun t => ready t ∧
        t.dev.boot.defects = l ∧ t.dev.boot.runtime = [] ∧ t.dev.boot.sealed = true ∧ t.dev.boot.starts = (b.starts + 1) % 2 ^ 32 ∧
        ∀ i < 0x10000000, i < Config.trimImage.length → t.byte (0x7FF0000000 + i) = Config.trimImage.getD i 0)) ∧
      (under → clear → identified → b.cold = false → Leaves (exec (.resetDone .device fs (.ready fb hs)) s) (fun t => ready t ∧
        t.dev.boot.defects = b.defects ∧ t.dev.boot.starts = b.starts ∧
        (b.full = false → ∀ h ∈ hs, t.fld (pgGran h.val) R.STATE_STATE = stFault))))
  )

/-- R18, R510, R518, R543, R558: a write of RESET_REQ on the device control page and a long WARM_RST_N begin a device reset with their
cause; one under way runs on. When WARM_RST_N is released the Steward takes the fast path where all of R510 holds and the full path
otherwise. R15, R16, R19, R45, R502, R543: a reset of a core, a croft or a hamlet stops its units, absorbs and counts what they hold, and
begins its bring-up or its drain; a pump's or the mill's lanes are seeded; RESET_REQ on a page of no grain is ignored and counted. The
model's readings it rests on: assumptions 56, 57, 58, 59, 60, 61, 75. -/
def Obligations.ResetsBegin : Prop :=
  (
  (∀ (s : State) (who : Agent),
    (s.deviceReset = true → Leaves (exec (.deviceResetReq who) s) (fun t => Ignored s t pgDevctl)) ∧
    (s.deviceReset = false → Leaves (exec (.deviceResetReq who) s) (fun t => DeviceResets s t 2))) ∧
  (∀ (s : State) (long : Bool),
    let taken := long = true ∧ s.dev.power.thermN = false
    (¬ taken → exec (.warmRstNAssert long) s = .next s) ∧
    (taken → s.powered = true → s.deviceReset = false → Leaves (exec (.warmRstNAssert long) s) (fun t =>
      t.dev.boot.warmLow = true ∧ DeviceResets s t 1)) ∧
    (taken → s.powered = false ∨ s.deviceReset = true → Leaves (exec (.warmRstNAssert long) s) (fun t =>
      t.dev = { s.dev with boot := { s.dev.boot with warmLow := true } } ∧ Keeps { dev := True } s t))) ∧
  (∀ (s : State) (same : Bool),
    let b := s.dev.boot
    let due := s.powered = true ∧ s.deviceReset = true ∧ b.cold = false ∧ b.released = false ∧ s.bootPhase = 0
    let full := !same || b.wasStopped || b.updated
    (¬ due → Leaves (exec (.warmRstNRelease same) s) (fun t =>
      t.dev = { s.dev with boot := { b with warmLow := false } } ∧ Keeps { dev := True } s t)) ∧
    (due → Leaves (exec (.warmRstNRelease same) s) (fun t => t.dev.boot.warmLow = false ∧ t.dev.boot.released = true ∧ t.dev.boot.full = full ∧
      t.bit pgDevctl R.devctl_BOOT_FAST = !full ∧ t.bit pgDevctl R.devctl_RESET_CAUSE_FULL_PATH = full ∧ t.bootPhase = 1 ∧
      HoldsCores s t allCrofts ∧ Keeps { regs := theRegs pgDevctl [R.devctl_BOOT_PHASE, R.devctl_RESET_CAUSE_LAST], dev := True } s t)))
  ) ∧
  (
  (∀ (s : State) (who : Agent) (pg : BitVec 16) (p : Page) (c : Nat), pageOf pg = some p → s.reaches who p → p.isCore = true →
    p.croft? = some c → Leaves (exec (.coreReset who pg) s) (fun t =>
      let seeded := fun (a n : Nat) => ∀ i < n, Sparse.get? (t.croft c).lanes (a + i) = some (seedLane 0 (c * 512 + a + i))
      ⟨.core p, true⟩ ∈ t.dev.resets ∧ (s.retiredCore p = false → ⟨p, List.range (packetsOf p), 0⟩ ∈ t.dev.boot.loads) ∧
      Counts s t pgDevctl R.devctl_CORE_RST_CNT 1 ∧ t.dev.stepEnd = true ∧
      (p.kind ≠ .reeve → ∀ a, p.covers a → Sparse.get? t.regs a = none) ∧
      (p.kind = .well → t.well p.inst = {}) ∧
      (p.kind = .pump → t.pumpRun p.inst = none ∧ seeded (128 + 64 * (p.inst % 4)) 64) ∧
      (p.kind = .mill → (t.croft c).mill = none ∧ seeded 0 128) ∧
      (p.kind = .reeve → (t.reeve c).orders = (s.reeve c).orders) ∧ t.mem = s.mem ∧ t.out = s.out)) ∧
  (∀ (s : State) (who : Agent) (pg : BitVec 16) (p : Page), pageOf pg = some p → s.reaches who p → p.isCore = false → p.kind ≠ .croft →
    p.kind ≠ .hamlet → p.kind ≠ .devctl → Leaves (exec (.coreReset who pg) s) (fun t => Ignored s t p)) ∧
  (∀ (s : State) (who : Agent) (c : CroftId), s.reaches who (pgCroft c) → Leaves (exec (.croftReset who c) s) (fun t =>
    ⟨.croft c, false⟩ ∈ t.dev.resets ∧ CroftStops s t c ∧ Counts s t pgDevctl R.devctl_CROFT_RST_CNT 1 ∧ t.dev.stepEnd = true ∧
    Keeps { regs := fun a => inCroft c a ∨ someRegs [(pgDevctl, [R.devctl_CROFT_RST_CNT]), (pgWatch, [R.STATE_STATE])] a,
            crofts := (· = c), wells := (· / 16 = c), pumps := (· / 4 = c), dev := True } s t)) ∧
  (∀ (s : State) (who : Agent) (h : HamletId), s.reaches who (pgHamlet h) → Leaves (exec (.hamletReset who h) s) (fun t =>
    ⟨.hamlet h, false⟩ ∈ t.dev.resets ∧ (∀ c, c / 16 = h.val → CroftStops s t c) ∧ Counts s t pgDevctl R.devctl_HAMLET_RST_CNT 1 ∧
    t.dev.stepEnd = true ∧ (s.dev.snap ≠ none → SnapFailed s t 7) ∧
    (s.dev.snap = none → t.mem = s.mem) ∧ ∀ c, c / 16 ≠ h.val → t.croft c = s.croft c))
  )

/-- R15, R16, R19, R20, R82, R322, R341, R512: at the end of a drain what remains is absorbed, the grain's registers take their reset values
and its cores are held for their images; when its bring-up has ended the grain leaves reset with its slices rewritten as zero and its wells
due for a window. The model's readings it rests on: assumptions 20, 57, 63. -/
def Obligations.ResetsEnd : Prop :=
  (∀ (s : State) (g : GrainId),
    ((∀ gr, grainOf g = some gr → ⟨gr, false⟩ ∉ s.dev.resets) → exec (.drainEnd g) s = .next s) ∧
    (∀ gr, grainOf g = some gr → ⟨gr, false⟩ ∈ s.dev.resets → Leaves (exec (.drainEnd g) s) (fun t =>
      ⟨gr, true⟩ ∈ t.dev.resets ∧ HoldsCores s t gr.crofts ∧
      ∀ c ∈ gr.crofts, t.croft c = {} ∧ (∀ w, w / 16 = c → t.well w = {}) ∧ (∀ q, q / 128 = c → t.queue q = {}) ∧
        ∀ a, inCroft c a → Sparse.get? t.regs a = none))) ∧
  (∀ (s : State) (g : GrainId) (gr : Grain) (fs : List Finding) (e : StartEnd), grainOf g = some gr → gr ≠ .device →
    (s.mayLeave gr = false → exec (.resetDone g fs e) s = .next s) ∧
    (s.mayLeave gr = true → Leaves (exec (.resetDone g fs e) s) (fun t => (∀ r ∈ t.dev.resets, r.grain ≠ gr) ∧
      (∀ r ∈ s.dev.resets, r.grain ≠ gr → r ∈ t.dev.resets) ∧
      (∀ c ∈ gr.crofts, t.croft c = {} ∧ (∀ a, (pgReeve c).covers a → Sparse.get? t.regs a = none) ∧
        (∀ w, w / 16 = c → s.retiredWell w = false → t.bit (pgWell w) R.well_CAL_STATUS_DUE = true) ∧
        ∀ x, ofSlice c x → t.byte x = 0) ∧
      (∀ p, gr = .core p → p.kind = .well → s.retiredWell p.inst = false → t.bit p R.well_CAL_STATUS_DUE = true) ∧
      (∀ h, gr = .hamlet h → ∀ x ∈ untrainedOf e, x.val = h → t.fld (pgGran h) R.STATE_STATE = stFault) ∧
      (∀ c, gr = .croft c → Keeps { regs := inCroft c, mem := ofSlice c, crofts := (· = c), wells := (· / 16 = c),
                                    pumps := (· / 4 = c), queues := (· / 128 = c), dev := True } s t)))) ∧
  (∀ (s : State) (g : GrainId) (fs : List Finding) (e : StartEnd), grainOf g = none →
    exec (.resetDone g fs e) s = .next s)

/-- R4, R267, R316, R373, R540, R541, R543: a write of 1 to ENABLE while it reads 0 sets it and makes the page BUSY; checks run one at a
time, in order of arrival; a check's end finds the page ENABLED with REFUSAL zero, or REFUSED with ENABLE 0 and REFUSAL naming the first
failing class and its lowest offset; a granary that fails its training is in FAULT and a link trains. A page whose FAULT only a croft reset
ends is not enabled. R4, R267, R316, R364, R532, R540, R542: a write of 0 to ENABLE disables an idle page; one that is busy, or whose
chapter keeps its ENABLE set, ignores it, and one that is not idle refuses it with reason 0x03 and OFFSET 0x008. A page whose FAULT only a
croft reset ends reads FAULT still. The model's readings it rests on: assumptions 96, 97, 100, 107, 108, 140, 141. -/
def Obligations.EnablesAreCheckedAndCleared : Prop :=
  (
  (∀ (s : State) (who : Agent) (pg : BitVec 16) (p : Page), pageOf pg = some p → s.reaches who p →
    (s.bit p R.CTL_ENABLE = true ∨ s.stuck p = true → Leaves (exec (.enableSet who pg) s) (fun t => Ignored s t p)) ∧
    (s.bit p R.CTL_ENABLE = false → s.stuck p = false → Leaves (exec (.enableSet who pg) s) (fun t => t.bit p R.CTL_ENABLE = true ∧
      t.fld p R.STATE_STATE = stBusy ∧ t.dev.checks = s.dev.checks.filter (· != p.base) ++ [p.base] ∧
      (p.kind ≠ .link → t.dev = { s.dev with checks := t.dev.checks } ∧
        Keeps { regs := theRegs p [R.CTL_ENABLE, R.STATE_STATE], dev := True } s t)))) ∧
  (∀ (s : State) (pg : BitVec 16) (ok : Bool) (partner ward : Option Peer) (p : Page), pageOf pg = some p →
    let first := firstFail (s.fails p partner ward)
    (s.checking ≠ some p → exec (.enableCheckDone pg ok partner ward) s = .next s) ∧
    (∀ code off, s.checking = some p → first = some (code, off) → Leaves (exec (.enableCheckDone pg ok partner ward) s) (fun t =>
      t.bit p R.CTL_ENABLE = false ∧ t.fld p R.STATE_STATE = stRefused ∧ t.reg p R.REFUSAL_REASON.off = BitVec.ofNat 32 (code + off * 2 ^ 16) ∧
      t.dev.checks = s.dev.checks.filter (· != p.base) ∧
      (p.kind ≠ .link → Keeps { regs := theRegs p [R.CTL_ENABLE, R.STATE_STATE, R.REFUSAL_REASON], dev := True } s t))) ∧
    (s.checking = some p → first = none → p.kind = .link → Leaves (exec (.enableCheckDone pg ok partner ward) s) (fun t =>
      t.fld p R.STATE_STATE = stBusy ∧ t.linkState p.inst = (if s.linkDowned p.inst = true then s.linkState p.inst else 1))) ∧
    (s.checking = some p → first = none → p.kind = .granary → ok = false → Leaves (exec (.enableCheckDone pg ok partner ward) s) (fun t =>
      Faults s t p 1)) ∧
    (s.checking = some p → first = none → p.kind ≠ .link → (p.kind = .granary → ok = true) →
      Leaves (exec (.enableCheckDone pg ok partner ward) s) (fun t =>
        t.fld p R.STATE_STATE = stEnabled ∧ t.reg p R.REFUSAL_REASON.off = 0 ∧ t.bit p R.CTL_ENABLE = s.bit p R.CTL_ENABLE ∧
        t.mem = s.mem ∧ t.pumps = s.pumps ∧ t.wells = s.wells)))
  ) ∧
  (
  ∀ (s : State) (who : Agent) (pg : BitVec 16) (p : Page), pageOf pg = some p → s.reaches who p →
    let heard := s.fld p R.STATE_STATE ≠ stBusy ∧ s.keepsEnable p = false
    (¬ heard → Leaves (exec (.enableClear who pg) s) (fun t => Ignored s t p)) ∧
    (heard → s.idle p = true → Leaves (exec (.enableClear who pg) s) (fun t =>
      t.bit p R.CTL_ENABLE = false ∧ t.fld p R.STATE_STATE = (if s.stuck p = true then stFault else stDisabled) ∧
      t.reg p R.REFUSAL_REASON.off = s.reg p R.REFUSAL_REASON.off)) ∧
    (heard → s.idle p = false → Leaves (exec (.enableClear who pg) s) (fun t =>
      Counts s t p R.IGNORED_CNT 1 ∧ t.fld p R.REFUSAL_REASON = 3 ∧ t.fld p R.REFUSAL_OFFSET = 8 ∧
      Keeps { regs := theRegs p [R.IGNORED_CNT, R.REFUSAL_REASON] } s t))
  )

/-- R263, R265, R546: a start of the plan restarts every enabled reeve at its index, or is ignored, counted and names its reason; a stop
pends while a reeve runs and is ignored otherwise; a halt now sends every enabled reeve that runs to its halt. The model's readings it rests
on: assumptions 111, 112. -/
def Obligations.PlansStartAndStop : Prop :=
  (∀ (s : State) (who : Agent) (restore : Bool), s.reaches who pgPlan →
    (s.startErr restore ≠ 0 → Leaves (exec (.planStart who restore) s) (fun t =>
      t.fld pgPlan R.plan_STATUS_START_ERR = s.startErr restore ∧ Counts s t pgPlan R.IGNORED_CNT 1 ∧
      Keeps { regs := theRegs pgPlan [R.plan_STATUS_START_ERR, R.IGNORED_CNT] } s t)) ∧
    (s.startErr restore = 0 → Leaves (exec (.planStart who restore) s) (fun t =>
      t.fld pgPlan R.plan_STATUS_START_ERR = 0 ∧ t.bit pgPlan R.plan_STATUS_STOP_PENDING = false ∧
      Counts s t pgPlan R.plan_PLAN_START_CNT 1 ∧ t.mem = s.mem ∧ t.out = s.out ∧
      (∀ c ∈ s.enabledReeves, t.running c = true ∧ t.pc c = s.startIndex restore c ∧ t.bit (pgReeve c) R.reeve_STATUS_HALTED = false ∧
        t.fld (pgReeve c) R.reeve_STATUS_HALT_REASON = 0 ∧ (t.reeve c).halting = none ∧ (t.reeve c).tokens = [] ∧
        t.fld (pgOwn c) R.own_STATUS_PHASE = 0) ∧
      ∀ c < 128, c ∉ s.enabledReeves → t.croft c = s.croft c ∧ t.running c = s.running c ∧ t.pc c = s.pc c))) ∧
  (∀ (s : State) (who : Agent), s.reaches who pgPlan →
    (s.enabledReeves.any s.running = true → Leaves (exec (.stopAtStepBoundary who) s) (fun t => t.bit pgPlan R.plan_STATUS_STOP_PENDING = true ∧
      Keeps { regs := theRegs pgPlan [R.plan_STATUS_STOP_PENDING] } s t)) ∧
    (s.enabledReeves.any s.running = false → Leaves (exec (.stopAtStepBoundary who) s) (fun t => Ignored s t pgPlan)) ∧
    Leaves (exec (.haltNow who) s) (fun t =>
      (∀ c ∈ s.enabledReeves, Halts s t c ∧ (s.running c = true → (s.reeve c).halting = none → (t.reeve c).halting = some 7 ∧
        t.fld (pgReeve c) R.reeve_STATUS_HALT_REASON = 7)) ∧
      Keeps { regs := fun a => ∃ c ∈ s.enabledReeves, theRegs (pgReeve c) [R.reeve_STATUS_HALT_REASON] a, crofts := (· ∈ s.enabledReeves) } s t))

/-- R3, R4, R5, R448, R450, R536, R537: a whole-word write to a register that only stores and clears stores its RW bits, and its RWL bits
while ENABLE is 0, clears the W1C bits written with 1 and changes nothing else; a write that stores and clears nothing, or of another size,
is ignored and counted, one to a hole counts in HOLE_CNT; one to the mailbox's request area while the mailbox is not busy is stored there.
R3, R4, R65, R433, R538: a write to CNT_CLEAR clears the counters whose bits are 1 and no other register; a read of an RC field returns its
value and clears it. The model's readings it rests on: assumptions 109, 110. -/
def Obligations.RegistersAreWrittenAndCleared : Prop :=
  (
  (∀ (s : State) (who : Agent) (a : BitVec 28) (bs : List Byte) (ide : Bool) (p : Page), pageAt a.toNat = some p → s.reaches who p →
    let o := a.toNat % 0x1000
    let fs := p.kind.regFields o
    let m := storedMask fs (s.bit p R.CTL_ENABLE)
    let w := accMask fs .w1c
    let plain := a.toNat % 4 = 0 ∧ bs.length = 4 ∧ p.kind ∈ plainKinds ∧ o ≠ R.CTL_ENABLE.off ∧ o ≠ R.CRIER_LINE_SOURCE.off ∧ clearsOf p.kind o = none
    let acts := m ≠ 0 ∨ leNat bs &&& w ≠ 0
    (plain → ¬ acts → Leaves (exec (.registerWrite who false a bs ide) s) (fun t => Ignored s t p)) ∧
    (plain → acts → Leaves (exec (.registerWrite who false a bs ide) s) (fun t =>
      (∀ i < 32, (t.reg p o).getLsbD i =
        ((if m.testBit i then (leNat bs).testBit i else (s.reg p o).getLsbD i) && !((leNat bs).testBit i && w.testBit i))) ∧
      Keeps { regs := (· = p.base + o) } s t)) ∧
    (a.toNat % 4 ≠ 0 ∨ (bs.length ≠ 4 ∧ bs.length ≠ 8) → Leaves (exec (.registerWrite who false a bs ide) s) (fun t => Ignored s t p))) ∧
  (∀ (s : State) (who : Agent) (a : BitVec 28) (bs : List Byte) (ide : Bool), pageAt a.toNat = none → s.shut who pgPlan = false →
    bs.length ≠ 8 → Leaves (exec (.registerWrite who false a bs ide) s) (fun t =>
      Counts s t pgPlan R.plan_HOLE_CNT 1 ∧ Keeps { regs := theRegs pgPlan [R.plan_HOLE_CNT] } s t)) ∧
  (∀ (s : State) (who : Agent) (a : BitVec 28) (bs : List Byte) (ide : Bool), s.bit pgHost R.host_CFG_IDE_REQ = false ∨ ide = true →
    areaBase ≤ a.toNat → a.toNat + bs.length ≤ areaEnd → s.dev.host.mailbox.mstate ≠ 1 →
    Leaves (exec (.registerWrite who true a bs ide) s) (fun t =>
      (∀ i < bs.length, t.dev.host.mailbox.byte (a.toNat - areaBase + i) = bs.getD i 0) ∧
      (∀ k, (k < a.toNat - areaBase ∨ a.toNat - areaBase + bs.length ≤ k) → t.dev.host.mailbox.byte k = s.dev.host.mailbox.byte k) ∧
      t.dev = { s.dev with host := { s.dev.host with mailbox := { s.dev.host.mailbox with area := t.dev.host.mailbox.area } } } ∧
      Keeps { dev := True } s t))
  ) ∧
  (
  (∀ (s : State) (who : Agent) (a : BitVec 28) (v : Word),
    ((∀ p, pageAt a.toNat = some p → clearsOf p.kind (a.toNat % 0x1000) = none) → exec (.counterClear who a v) s = .next s) ∧
    (∀ p first n, pageAt a.toNat = some p → clearsOf p.kind (a.toNat % 0x1000) = some (first, n) → s.reaches who p →
      ((∀ i < n, v.getLsbD i = false) → Leaves (exec (.counterClear who a v) s) (fun t => Ignored s t p)) ∧
      ((∃ i < n, v.getLsbD i = true) → Leaves (exec (.counterClear who a v) s) (fun t =>
        (∀ i < n, v.getLsbD i = true → t.reg p (first + 4 * i) = 0) ∧
        Keeps { regs := fun x => ∃ i < n, v.getLsbD i = true ∧ x = p.base + (first + 4 * i) } s t)))) ∧
  (∀ (s : State) (a : BitVec 28),
    ((∀ p, pageAt a.toNat = some p → accMask (p.kind.regFields (a.toNat % 0x1000)) .rc = 0) → exec (.rcRead a) s = .next s) ∧
    (∀ p, pageAt a.toNat = some p →
      let o := a.toNat % 0x1000
      let m := accMask (p.kind.regFields o) .rc
      (m ≠ 0 → s.shut .host p = true → Leaves (exec (.rcRead a) s) (fun t => HostEnds s t 0 endAbs false (p.base + o))) ∧
      (m ≠ 0 → s.shut .host p = false → s.underReset p = true → p ≠ pgDevctl → Leaves (exec (.rcRead a) s) (fun t =>
        t.out = s.out ++ [.read 0] ∧ Keeps { out := True } s t)) ∧
      (m ≠ 0 → s.reaches .host p → Leaves (exec (.rcRead a) s) (fun t => t.out = s.out ++ [.read ((s.reg p o).toNat &&& m)] ∧
        (∀ i < 32, (t.reg p o).getLsbD i = ((s.reg p o).getLsbD i && !m.testBit i)) ∧
        Keeps { regs := (· = p.base + o), out := True } s t))))
  )

/-- R4, R18, R444, R499: a write of a register by the host before READY ends as one of a device in reset, on every page but the device
control page; one to a page under reset has no effect and is counted. The model's readings it rests on: assumption 84. -/
def Obligations.WritesBeforeReadyAndUnderResetDoNothing : Prop :=
  ∀ (s : State) (who : Agent) (i : Instr) (p : Page) (o : Nat), WriteRow who i p o →
    (s.shut who p = true → Leaves (exec i s) (fun t => HostEnds s t 0 endAbs true (p.base + o) ∧
      Keeps { regs := theRegs pgHost (hostEndRegs endAbs) } s t)) ∧
    (s.shut who p = false → s.underReset p = true → p ≠ pgDevctl → Leaves (exec i s) (fun t => Ignored s t p))
end

