-- ==== Sys2Proof/Laws/Sparse.lean ====
section
/-! SUPPORT. Sparse maps and memory: a read after a write to the same key gives what was written, a write leaves every other key
alone, and every operation keeps the canonical form. -/
namespace Sys2Proof.Machine

variable {α : Type}

@[simp] theorem Sparse.get?_nil (k : Nat) : Sparse.get? ([] : List (Nat × α)) k = none := rfl

theorem Sparse.get?_cons (j : Nat) (v : α) (m : List (Nat × α)) (k : Nat) :
    Sparse.get? ((j, v) :: m) k = if j = k then some v else Sparse.get? m k := rfl

@[simp] theorem Sparse.get?_set_same (m : List (Nat × α)) (k : Nat) (v : α) : Sparse.get? (Sparse.set m k v) k = some v := by
  induction m with
  | nil => simp [Sparse.set, Sparse.get?]
  | cons e m ih =>
    obtain ⟨j, w⟩ := e
    unfold Sparse.set
    split
    · simp [Sparse.get?]
    · split
      · simp [Sparse.get?]
      · simp only [Sparse.get?_cons, ih]
        exact if_neg (by omega)

theorem Sparse.get?_set_ne (m : List (Nat × α)) {k k' : Nat} (v : α) (h : k' ≠ k) :
    Sparse.get? (Sparse.set m k v) k' = Sparse.get? m k' := by
  induction m with
  | nil => simp [Sparse.set, Sparse.get?, Ne.symm h]
  | cons e m ih =>
    obtain ⟨j, w⟩ := e
    unfold Sparse.set
    split
    · simp [Sparse.get?, Ne.symm h]
    · split
      · subst k; simp [Sparse.get?, Ne.symm h]
      · simp only [Sparse.get?_cons, ih]

theorem Sparse.get?_set (m : List (Nat × α)) (k k' : Nat) (v : α) :
    Sparse.get? (Sparse.set m k v) k' = if k' = k then some v else Sparse.get? m k' := by
  split
  · subst k'; simp
  · exact Sparse.get?_set_ne m v ‹_›

theorem Sparse.get?_eraseRange (m : List (Nat × α)) (lo hi k : Nat) :
    Sparse.get? (Sparse.eraseRange m lo hi) k = if lo ≤ k ∧ k < hi then none else Sparse.get? m k := by
  induction m with
  | nil => simp [Sparse.eraseRange]
  | cons e m ih =>
    obtain ⟨j, w⟩ := e
    simp only [Sparse.eraseRange] at ih ⊢
    rw [List.filter_cons]
    by_cases hj : lo ≤ j ∧ j < hi
    · rw [if_neg (by simp; omega), ih, Sparse.get?_cons]
      by_cases hk : lo ≤ k ∧ k < hi
      · simp [hk]
      · rw [if_neg hk, if_neg hk, if_neg (by rintro rfl; exact hk hj)]
    · rw [if_pos (by simp; omega), Sparse.get?_cons, Sparse.get?_cons, ih]
      by_cases he : j = k
      · subst he; simp [hj]
      · simp [he]

/-- What a map lists after `set` is what it listed before, or the entry set. -/
theorem Sparse.mem_set {m : List (Nat × α)} {k : Nat} {v : α} {e : Nat × α} (h : e ∈ Sparse.set m k v) : e = (k, v) ∨ e ∈ m := by
  induction m with
  | nil => simpa [Sparse.set] using h
  | cons x m ih =>
    unfold Sparse.set at h
    split at h
    · simpa using h
    · split at h
      · rcases List.mem_cons.1 h with h | h
        · exact .inl h
        · exact .inr (List.mem_cons_of_mem _ h)
      · rcases List.mem_cons.1 h with h | h
        · exact .inr (by simp [h])
        · rcases ih h with h | h
          · exact .inl h
          · exact .inr (List.mem_cons_of_mem _ h)

theorem Sparse.wf_nil : Sparse.Wf ([] : List (Nat × α)) := List.Pairwise.nil

theorem Sparse.wf_set {m : List (Nat × α)} (h : Sparse.Wf m) (k : Nat) (v : α) : Sparse.Wf (Sparse.set m k v) := by
  induction m with
  | nil => simp [Sparse.set, Sparse.Wf]
  | cons x m ih =>
    obtain ⟨j, w⟩ := x
    obtain ⟨h1, h2⟩ := List.pairwise_cons.1 h
    unfold Sparse.set
    split
    · refine List.pairwise_cons.2 ⟨fun e he => ?_, h⟩
      rcases List.mem_cons.1 he with rfl | he
      · assumption
      · have := h1 e he; simp at this ⊢; omega
    · split
      · subst k
        exact List.pairwise_cons.2 ⟨h1, h2⟩
      · refine List.pairwise_cons.2 ⟨fun e he => ?_, ih h2⟩
        rcases Sparse.mem_set he with rfl | he
        · simp; omega
        · exact h1 e he

theorem Sparse.wf_eraseRange {m : List (Nat × α)} (h : Sparse.Wf m) (lo hi : Nat) : Sparse.Wf (Sparse.eraseRange m lo hi) :=
  List.Pairwise.filter _ h

@[simp] theorem Memory.read_write_same (m : List (Nat × Byte)) (a : Nat) (b : Byte) : Memory.read (Memory.write m a b) a = b := by
  unfold Memory.read Memory.write
  split
  · simp [Sparse.get?_eraseRange, *]
  · simp

theorem Memory.read_write_ne (m : List (Nat × Byte)) {a a' : Nat} (b : Byte) (h : a' ≠ a) :
    Memory.read (Memory.write m a b) a' = Memory.read m a' := by
  unfold Memory.read Memory.write
  split
  · rw [Sparse.get?_eraseRange, if_neg (by omega)]
  · rw [Sparse.get?_set_ne _ _ h]

theorem Memory.wf_write {m : List (Nat × Byte)} (h : Memory.Wf m) (a : Nat) (b : Byte) : Memory.Wf (Memory.write m a b) := by
  unfold Memory.write
  split
  · exact ⟨Sparse.wf_eraseRange h.1 _ _, fun e he => h.2 e (List.mem_of_mem_filter he)⟩
  · refine ⟨Sparse.wf_set h.1 _ _, fun e he => ?_⟩
    rcases Sparse.mem_set he with rfl | he
    · assumption
    · exact h.2 e he

theorem Memory.wf_writeBytes {m : List (Nat × Byte)} (h : Memory.Wf m) (a : Nat) (bs : List Byte) :
    Memory.Wf (Memory.writeBytes m a bs) := by
  induction bs generalizing m a with
  | nil => exact h
  | cons b bs ih => exact ih (Memory.wf_write h a b) _

theorem Memory.wf_eraseRange {m : List (Nat × Byte)} (h : Memory.Wf m) (lo hi : Nat) : Memory.Wf (Sparse.eraseRange m lo hi) :=
  ⟨Sparse.wf_eraseRange h.1 _ _, fun e he => h.2 e (List.mem_of_mem_filter he)⟩

/-- A write of bytes is read back inside it, and leaves every address outside it alone. -/
theorem Memory.read_writeBytes (m : List (Nat × Byte)) (a : Nat) (bs : List Byte) (x : Nat) :
    Memory.read (Memory.writeBytes m a bs) x = if a ≤ x ∧ x < a + bs.length then bs.getD (x - a) 0 else Memory.read m x := by
  induction bs generalizing m a with
  | nil => rw [if_neg (by simp)]; rfl
  | cons b bs ih =>
    rw [Memory.writeBytes, ih]
    by_cases hx : x = a
    · subst hx
      simp
    · rw [Memory.read_write_ne _ _ hx]
      by_cases h : a ≤ x ∧ x < a + (b :: bs).length
      · have h' : a + 1 ≤ x ∧ x < a + 1 + bs.length := by simp at h; omega
        have e : x - a = (x - (a + 1)) + 1 := by omega
        rw [if_pos h, if_pos h', e]; simp
      · rw [if_neg h, if_neg (by simp at h ⊢; omega)]

/-- Equal memories are equal data: two memories in canonical form that read the same everywhere are the same list. -/
theorem Memory.eq_of_read {m n : List (Nat × Byte)} (hm : Memory.Wf m) (hn : Memory.Wf n)
    (h : ∀ a, Memory.read m a = Memory.read n a) : m = n := by
  have key : ∀ {m : List (Nat × Byte)}, Memory.Wf m → ∀ e : Nat × Byte, e ∈ m ↔ e.2 ≠ 0 ∧ Memory.read m e.1 = e.2 := by
    intro m hm
    induction m with
    | nil => intro e; simp [Memory.read]; exact fun h => Ne.symm h
    | cons x m ih =>
      intro e
      obtain ⟨h1, h2⟩ := List.pairwise_cons.1 hm.1
      have hm' : Memory.Wf m := ⟨h2, fun e he => hm.2 e (List.mem_cons_of_mem _ he)⟩
      have hx := hm.2 x (by simp)
      obtain ⟨j, w⟩ := x
      obtain ⟨k, v⟩ := e
      have hk := ih hm' (k, v)
      simp only [Memory.read, Sparse.get?_cons, List.mem_cons, Prod.mk.injEq] at hk hx ⊢
      by_cases hj : j = k
      · subst hj
        have : (j, v) ∉ m := fun hc => by have := h1 _ hc; simp at this
        simp [this]
        constructor
        · rintro rfl; exact ⟨hx, rfl⟩
        · rintro ⟨-, rfl⟩; rfl
      · simp only [hj, if_false, Ne.symm hj, false_and, false_or]
        exact hk
  have sorted : ∀ {m : List (Nat × Byte)}, Memory.Wf m → m.Pairwise (fun x y => x.1 < y.1) := fun hm => hm.1
  refine List.Perm.eq_of_pairwise (le := fun x y => x.1 < y.1) (fun x y _ _ h1 h2 => by omega) (sorted hm) (sorted hn) ?_
  refine (List.perm_ext_iff_of_nodup ?_ ?_).2 fun e => ?_
  · exact (sorted hm).imp (fun h => by rintro rfl; omega)
  · exact (sorted hn).imp (fun h => by rintro rfl; omega)
  · rw [key hm, key hn, h]

end Sys2Proof.Machine
end

