-- ==== Sys2Proof/Laws/State.lean ====
section
/-! SUPPORT. One lemma per field of State per primitive effect, true by unfolding, so that no proof unfolds a record update. -/
namespace Sys2Proof.Machine

variable (s : State)

@[simp] theorem Act.apply_reg_pending (a : Nat) (v : Word) : ((Act.reg a v).apply s).pending = s.pending := rfl
@[simp] theorem Act.apply_reg_now (a : Nat) (v : Word) : ((Act.reg a v).apply s).now = s.now := rfl
@[simp] theorem Act.apply_reg_seq (a : Nat) (v : Word) : ((Act.reg a v).apply s).seq = s.seq := rfl
@[simp] theorem Act.apply_reg_regs (a : Nat) (v : Word) : ((Act.reg a v).apply s).regs = Sparse.set s.regs a v := rfl
@[simp] theorem Act.apply_reg_mem (a : Nat) (v : Word) : ((Act.reg a v).apply s).mem = s.mem := rfl
@[simp] theorem Act.apply_reg_crofts (a : Nat) (v : Word) : ((Act.reg a v).apply s).crofts = s.crofts := rfl
@[simp] theorem Act.apply_reg_wells (a : Nat) (v : Word) : ((Act.reg a v).apply s).wells = s.wells := rfl
@[simp] theorem Act.apply_reg_pumps (a : Nat) (v : Word) : ((Act.reg a v).apply s).pumps = s.pumps := rfl
@[simp] theorem Act.apply_reg_hamlets (a : Nat) (v : Word) : ((Act.reg a v).apply s).hamlets = s.hamlets := rfl
@[simp] theorem Act.apply_reg_queues (a : Nat) (v : Word) : ((Act.reg a v).apply s).queues = s.queues := rfl
@[simp] theorem Act.apply_reg_links (a : Nat) (v : Word) : ((Act.reg a v).apply s).links = s.links := rfl
@[simp] theorem Act.apply_reg_dev (a : Nat) (v : Word) : ((Act.reg a v).apply s).dev = s.dev := rfl
@[simp] theorem Act.apply_reg_out (a : Nat) (v : Word) : ((Act.reg a v).apply s).out = s.out := rfl

@[simp] theorem Act.apply_regsErase_pending (lo hi : Nat) : ((Act.regsErase lo hi).apply s).pending = s.pending := rfl
@[simp] theorem Act.apply_regsErase_now (lo hi : Nat) : ((Act.regsErase lo hi).apply s).now = s.now := rfl
@[simp] theorem Act.apply_regsErase_seq (lo hi : Nat) : ((Act.regsErase lo hi).apply s).seq = s.seq := rfl
@[simp] theorem Act.apply_regsErase_regs (lo hi : Nat) : ((Act.regsErase lo hi).apply s).regs = Sparse.eraseRange s.regs lo hi := rfl
@[simp] theorem Act.apply_regsErase_mem (lo hi : Nat) : ((Act.regsErase lo hi).apply s).mem = s.mem := rfl
@[simp] theorem Act.apply_regsErase_crofts (lo hi : Nat) : ((Act.regsErase lo hi).apply s).crofts = s.crofts := rfl
@[simp] theorem Act.apply_regsErase_wells (lo hi : Nat) : ((Act.regsErase lo hi).apply s).wells = s.wells := rfl
@[simp] theorem Act.apply_regsErase_pumps (lo hi : Nat) : ((Act.regsErase lo hi).apply s).pumps = s.pumps := rfl
@[simp] theorem Act.apply_regsErase_hamlets (lo hi : Nat) : ((Act.regsErase lo hi).apply s).hamlets = s.hamlets := rfl
@[simp] theorem Act.apply_regsErase_queues (lo hi : Nat) : ((Act.regsErase lo hi).apply s).queues = s.queues := rfl
@[simp] theorem Act.apply_regsErase_links (lo hi : Nat) : ((Act.regsErase lo hi).apply s).links = s.links := rfl
@[simp] theorem Act.apply_regsErase_dev (lo hi : Nat) : ((Act.regsErase lo hi).apply s).dev = s.dev := rfl
@[simp] theorem Act.apply_regsErase_out (lo hi : Nat) : ((Act.regsErase lo hi).apply s).out = s.out := rfl

@[simp] theorem Act.apply_bytes_pending (a : Nat) (bs : List Byte) : ((Act.bytes a bs).apply s).pending = s.pending := rfl
@[simp] theorem Act.apply_bytes_now (a : Nat) (bs : List Byte) : ((Act.bytes a bs).apply s).now = s.now := rfl
@[simp] theorem Act.apply_bytes_seq (a : Nat) (bs : List Byte) : ((Act.bytes a bs).apply s).seq = s.seq := rfl
@[simp] theorem Act.apply_bytes_regs (a : Nat) (bs : List Byte) : ((Act.bytes a bs).apply s).regs = s.regs := rfl
@[simp] theorem Act.apply_bytes_mem (a : Nat) (bs : List Byte) : ((Act.bytes a bs).apply s).mem = Memory.writeBytes s.mem a bs := rfl
@[simp] theorem Act.apply_bytes_crofts (a : Nat) (bs : List Byte) : ((Act.bytes a bs).apply s).crofts = s.crofts := rfl
@[simp] theorem Act.apply_bytes_wells (a : Nat) (bs : List Byte) : ((Act.bytes a bs).apply s).wells = s.wells := rfl
@[simp] theorem Act.apply_bytes_pumps (a : Nat) (bs : List Byte) : ((Act.bytes a bs).apply s).pumps = s.pumps := rfl
@[simp] theorem Act.apply_bytes_hamlets (a : Nat) (bs : List Byte) : ((Act.bytes a bs).apply s).hamlets = s.hamlets := rfl
@[simp] theorem Act.apply_bytes_queues (a : Nat) (bs : List Byte) : ((Act.bytes a bs).apply s).queues = s.queues := rfl
@[simp] theorem Act.apply_bytes_links (a : Nat) (bs : List Byte) : ((Act.bytes a bs).apply s).links = s.links := rfl
@[simp] theorem Act.apply_bytes_dev (a : Nat) (bs : List Byte) : ((Act.bytes a bs).apply s).dev = s.dev := rfl
@[simp] theorem Act.apply_bytes_out (a : Nat) (bs : List Byte) : ((Act.bytes a bs).apply s).out = s.out := rfl

@[simp] theorem Act.apply_memErase_pending (lo hi : Nat) : ((Act.memErase lo hi).apply s).pending = s.pending := rfl
@[simp] theorem Act.apply_memErase_now (lo hi : Nat) : ((Act.memErase lo hi).apply s).now = s.now := rfl
@[simp] theorem Act.apply_memErase_seq (lo hi : Nat) : ((Act.memErase lo hi).apply s).seq = s.seq := rfl
@[simp] theorem Act.apply_memErase_regs (lo hi : Nat) : ((Act.memErase lo hi).apply s).regs = s.regs := rfl
@[simp] theorem Act.apply_memErase_mem (lo hi : Nat) : ((Act.memErase lo hi).apply s).mem = Sparse.eraseRange s.mem lo hi := rfl
@[simp] theorem Act.apply_memErase_crofts (lo hi : Nat) : ((Act.memErase lo hi).apply s).crofts = s.crofts := rfl
@[simp] theorem Act.apply_memErase_wells (lo hi : Nat) : ((Act.memErase lo hi).apply s).wells = s.wells := rfl
@[simp] theorem Act.apply_memErase_pumps (lo hi : Nat) : ((Act.memErase lo hi).apply s).pumps = s.pumps := rfl
@[simp] theorem Act.apply_memErase_hamlets (lo hi : Nat) : ((Act.memErase lo hi).apply s).hamlets = s.hamlets := rfl
@[simp] theorem Act.apply_memErase_queues (lo hi : Nat) : ((Act.memErase lo hi).apply s).queues = s.queues := rfl
@[simp] theorem Act.apply_memErase_links (lo hi : Nat) : ((Act.memErase lo hi).apply s).links = s.links := rfl
@[simp] theorem Act.apply_memErase_dev (lo hi : Nat) : ((Act.memErase lo hi).apply s).dev = s.dev := rfl
@[simp] theorem Act.apply_memErase_out (lo hi : Nat) : ((Act.memErase lo hi).apply s).out = s.out := rfl

@[simp] theorem Act.apply_croft_pending (c : Nat) (r : Croft) : ((Act.croft c r).apply s).pending = s.pending := rfl
@[simp] theorem Act.apply_croft_now (c : Nat) (r : Croft) : ((Act.croft c r).apply s).now = s.now := rfl
@[simp] theorem Act.apply_croft_seq (c : Nat) (r : Croft) : ((Act.croft c r).apply s).seq = s.seq := rfl
@[simp] theorem Act.apply_croft_regs (c : Nat) (r : Croft) : ((Act.croft c r).apply s).regs = s.regs := rfl
@[simp] theorem Act.apply_croft_mem (c : Nat) (r : Croft) : ((Act.croft c r).apply s).mem = s.mem := rfl
@[simp] theorem Act.apply_croft_crofts (c : Nat) (r : Croft) : ((Act.croft c r).apply s).crofts = Sparse.set s.crofts c r := rfl
@[simp] theorem Act.apply_croft_wells (c : Nat) (r : Croft) : ((Act.croft c r).apply s).wells = s.wells := rfl
@[simp] theorem Act.apply_croft_pumps (c : Nat) (r : Croft) : ((Act.croft c r).apply s).pumps = s.pumps := rfl
@[simp] theorem Act.apply_croft_hamlets (c : Nat) (r : Croft) : ((Act.croft c r).apply s).hamlets = s.hamlets := rfl
@[simp] theorem Act.apply_croft_queues (c : Nat) (r : Croft) : ((Act.croft c r).apply s).queues = s.queues := rfl
@[simp] theorem Act.apply_croft_links (c : Nat) (r : Croft) : ((Act.croft c r).apply s).links = s.links := rfl
@[simp] theorem Act.apply_croft_dev (c : Nat) (r : Croft) : ((Act.croft c r).apply s).dev = s.dev := rfl
@[simp] theorem Act.apply_croft_out (c : Nat) (r : Croft) : ((Act.croft c r).apply s).out = s.out := rfl

@[simp] theorem Act.apply_croftErase_pending (lo hi : Nat) : ((Act.croftErase lo hi).apply s).pending = s.pending := rfl
@[simp] theorem Act.apply_croftErase_now (lo hi : Nat) : ((Act.croftErase lo hi).apply s).now = s.now := rfl
@[simp] theorem Act.apply_croftErase_seq (lo hi : Nat) : ((Act.croftErase lo hi).apply s).seq = s.seq := rfl
@[simp] theorem Act.apply_croftErase_regs (lo hi : Nat) : ((Act.croftErase lo hi).apply s).regs = s.regs := rfl
@[simp] theorem Act.apply_croftErase_mem (lo hi : Nat) : ((Act.croftErase lo hi).apply s).mem = s.mem := rfl
@[simp] theorem Act.apply_croftErase_crofts (lo hi : Nat) : ((Act.croftErase lo hi).apply s).crofts = Sparse.eraseRange s.crofts lo hi := rfl
@[simp] theorem Act.apply_croftErase_wells (lo hi : Nat) : ((Act.croftErase lo hi).apply s).wells = s.wells := rfl
@[simp] theorem Act.apply_croftErase_pumps (lo hi : Nat) : ((Act.croftErase lo hi).apply s).pumps = s.pumps := rfl
@[simp] theorem Act.apply_croftErase_hamlets (lo hi : Nat) : ((Act.croftErase lo hi).apply s).hamlets = s.hamlets := rfl
@[simp] theorem Act.apply_croftErase_queues (lo hi : Nat) : ((Act.croftErase lo hi).apply s).queues = s.queues := rfl
@[simp] theorem Act.apply_croftErase_links (lo hi : Nat) : ((Act.croftErase lo hi).apply s).links = s.links := rfl
@[simp] theorem Act.apply_croftErase_dev (lo hi : Nat) : ((Act.croftErase lo hi).apply s).dev = s.dev := rfl
@[simp] theorem Act.apply_croftErase_out (lo hi : Nat) : ((Act.croftErase lo hi).apply s).out = s.out := rfl

@[simp] theorem Act.apply_well_pending (w : Nat) (r : Well) : ((Act.well w r).apply s).pending = s.pending := rfl
@[simp] theorem Act.apply_well_now (w : Nat) (r : Well) : ((Act.well w r).apply s).now = s.now := rfl
@[simp] theorem Act.apply_well_seq (w : Nat) (r : Well) : ((Act.well w r).apply s).seq = s.seq := rfl
@[simp] theorem Act.apply_well_regs (w : Nat) (r : Well) : ((Act.well w r).apply s).regs = s.regs := rfl
@[simp] theorem Act.apply_well_mem (w : Nat) (r : Well) : ((Act.well w r).apply s).mem = s.mem := rfl
@[simp] theorem Act.apply_well_crofts (w : Nat) (r : Well) : ((Act.well w r).apply s).crofts = s.crofts := rfl
@[simp] theorem Act.apply_well_wells (w : Nat) (r : Well) : ((Act.well w r).apply s).wells = Sparse.set s.wells w r := rfl
@[simp] theorem Act.apply_well_pumps (w : Nat) (r : Well) : ((Act.well w r).apply s).pumps = s.pumps := rfl
@[simp] theorem Act.apply_well_hamlets (w : Nat) (r : Well) : ((Act.well w r).apply s).hamlets = s.hamlets := rfl
@[simp] theorem Act.apply_well_queues (w : Nat) (r : Well) : ((Act.well w r).apply s).queues = s.queues := rfl
@[simp] theorem Act.apply_well_links (w : Nat) (r : Well) : ((Act.well w r).apply s).links = s.links := rfl
@[simp] theorem Act.apply_well_dev (w : Nat) (r : Well) : ((Act.well w r).apply s).dev = s.dev := rfl
@[simp] theorem Act.apply_well_out (w : Nat) (r : Well) : ((Act.well w r).apply s).out = s.out := rfl

@[simp] theorem Act.apply_wellErase_pending (lo hi : Nat) : ((Act.wellErase lo hi).apply s).pending = s.pending := rfl
@[simp] theorem Act.apply_wellErase_now (lo hi : Nat) : ((Act.wellErase lo hi).apply s).now = s.now := rfl
@[simp] theorem Act.apply_wellErase_seq (lo hi : Nat) : ((Act.wellErase lo hi).apply s).seq = s.seq := rfl
@[simp] theorem Act.apply_wellErase_regs (lo hi : Nat) : ((Act.wellErase lo hi).apply s).regs = s.regs := rfl
@[simp] theorem Act.apply_wellErase_mem (lo hi : Nat) : ((Act.wellErase lo hi).apply s).mem = s.mem := rfl
@[simp] theorem Act.apply_wellErase_crofts (lo hi : Nat) : ((Act.wellErase lo hi).apply s).crofts = s.crofts := rfl
@[simp] theorem Act.apply_wellErase_wells (lo hi : Nat) : ((Act.wellErase lo hi).apply s).wells = Sparse.eraseRange s.wells lo hi := rfl
@[simp] theorem Act.apply_wellErase_pumps (lo hi : Nat) : ((Act.wellErase lo hi).apply s).pumps = s.pumps := rfl
@[simp] theorem Act.apply_wellErase_hamlets (lo hi : Nat) : ((Act.wellErase lo hi).apply s).hamlets = s.hamlets := rfl
@[simp] theorem Act.apply_wellErase_queues (lo hi : Nat) : ((Act.wellErase lo hi).apply s).queues = s.queues := rfl
@[simp] theorem Act.apply_wellErase_links (lo hi : Nat) : ((Act.wellErase lo hi).apply s).links = s.links := rfl
@[simp] theorem Act.apply_wellErase_dev (lo hi : Nat) : ((Act.wellErase lo hi).apply s).dev = s.dev := rfl
@[simp] theorem Act.apply_wellErase_out (lo hi : Nat) : ((Act.wellErase lo hi).apply s).out = s.out := rfl

@[simp] theorem Act.apply_pump_pending (p : Nat) (r : PumpRun) : ((Act.pump p r).apply s).pending = s.pending := rfl
@[simp] theorem Act.apply_pump_now (p : Nat) (r : PumpRun) : ((Act.pump p r).apply s).now = s.now := rfl
@[simp] theorem Act.apply_pump_seq (p : Nat) (r : PumpRun) : ((Act.pump p r).apply s).seq = s.seq := rfl
@[simp] theorem Act.apply_pump_regs (p : Nat) (r : PumpRun) : ((Act.pump p r).apply s).regs = s.regs := rfl
@[simp] theorem Act.apply_pump_mem (p : Nat) (r : PumpRun) : ((Act.pump p r).apply s).mem = s.mem := rfl
@[simp] theorem Act.apply_pump_crofts (p : Nat) (r : PumpRun) : ((Act.pump p r).apply s).crofts = s.crofts := rfl
@[simp] theorem Act.apply_pump_wells (p : Nat) (r : PumpRun) : ((Act.pump p r).apply s).wells = s.wells := rfl
@[simp] theorem Act.apply_pump_pumps (p : Nat) (r : PumpRun) : ((Act.pump p r).apply s).pumps = Sparse.set s.pumps p r := rfl
@[simp] theorem Act.apply_pump_hamlets (p : Nat) (r : PumpRun) : ((Act.pump p r).apply s).hamlets = s.hamlets := rfl
@[simp] theorem Act.apply_pump_queues (p : Nat) (r : PumpRun) : ((Act.pump p r).apply s).queues = s.queues := rfl
@[simp] theorem Act.apply_pump_links (p : Nat) (r : PumpRun) : ((Act.pump p r).apply s).links = s.links := rfl
@[simp] theorem Act.apply_pump_dev (p : Nat) (r : PumpRun) : ((Act.pump p r).apply s).dev = s.dev := rfl
@[simp] theorem Act.apply_pump_out (p : Nat) (r : PumpRun) : ((Act.pump p r).apply s).out = s.out := rfl

@[simp] theorem Act.apply_pumpErase_pending (lo hi : Nat) : ((Act.pumpErase lo hi).apply s).pending = s.pending := rfl
@[simp] theorem Act.apply_pumpErase_now (lo hi : Nat) : ((Act.pumpErase lo hi).apply s).now = s.now := rfl
@[simp] theorem Act.apply_pumpErase_seq (lo hi : Nat) : ((Act.pumpErase lo hi).apply s).seq = s.seq := rfl
@[simp] theorem Act.apply_pumpErase_regs (lo hi : Nat) : ((Act.pumpErase lo hi).apply s).regs = s.regs := rfl
@[simp] theorem Act.apply_pumpErase_mem (lo hi : Nat) : ((Act.pumpErase lo hi).apply s).mem = s.mem := rfl
@[simp] theorem Act.apply_pumpErase_crofts (lo hi : Nat) : ((Act.pumpErase lo hi).apply s).crofts = s.crofts := rfl
@[simp] theorem Act.apply_pumpErase_wells (lo hi : Nat) : ((Act.pumpErase lo hi).apply s).wells = s.wells := rfl
@[simp] theorem Act.apply_pumpErase_pumps (lo hi : Nat) : ((Act.pumpErase lo hi).apply s).pumps = Sparse.eraseRange s.pumps lo hi := rfl
@[simp] theorem Act.apply_pumpErase_hamlets (lo hi : Nat) : ((Act.pumpErase lo hi).apply s).hamlets = s.hamlets := rfl
@[simp] theorem Act.apply_pumpErase_queues (lo hi : Nat) : ((Act.pumpErase lo hi).apply s).queues = s.queues := rfl
@[simp] theorem Act.apply_pumpErase_links (lo hi : Nat) : ((Act.pumpErase lo hi).apply s).links = s.links := rfl
@[simp] theorem Act.apply_pumpErase_dev (lo hi : Nat) : ((Act.pumpErase lo hi).apply s).dev = s.dev := rfl
@[simp] theorem Act.apply_pumpErase_out (lo hi : Nat) : ((Act.pumpErase lo hi).apply s).out = s.out := rfl

@[simp] theorem Act.apply_hamlet_pending (h : Nat) (r : Hamlet) : ((Act.hamlet h r).apply s).pending = s.pending := rfl
@[simp] theorem Act.apply_hamlet_now (h : Nat) (r : Hamlet) : ((Act.hamlet h r).apply s).now = s.now := rfl
@[simp] theorem Act.apply_hamlet_seq (h : Nat) (r : Hamlet) : ((Act.hamlet h r).apply s).seq = s.seq := rfl
@[simp] theorem Act.apply_hamlet_regs (h : Nat) (r : Hamlet) : ((Act.hamlet h r).apply s).regs = s.regs := rfl
@[simp] theorem Act.apply_hamlet_mem (h : Nat) (r : Hamlet) : ((Act.hamlet h r).apply s).mem = s.mem := rfl
@[simp] theorem Act.apply_hamlet_crofts (h : Nat) (r : Hamlet) : ((Act.hamlet h r).apply s).crofts = s.crofts := rfl
@[simp] theorem Act.apply_hamlet_wells (h : Nat) (r : Hamlet) : ((Act.hamlet h r).apply s).wells = s.wells := rfl
@[simp] theorem Act.apply_hamlet_pumps (h : Nat) (r : Hamlet) : ((Act.hamlet h r).apply s).pumps = s.pumps := rfl
@[simp] theorem Act.apply_hamlet_hamlets (h : Nat) (r : Hamlet) : ((Act.hamlet h r).apply s).hamlets = Sparse.set s.hamlets h r := rfl
@[simp] theorem Act.apply_hamlet_queues (h : Nat) (r : Hamlet) : ((Act.hamlet h r).apply s).queues = s.queues := rfl
@[simp] theorem Act.apply_hamlet_links (h : Nat) (r : Hamlet) : ((Act.hamlet h r).apply s).links = s.links := rfl
@[simp] theorem Act.apply_hamlet_dev (h : Nat) (r : Hamlet) : ((Act.hamlet h r).apply s).dev = s.dev := rfl
@[simp] theorem Act.apply_hamlet_out (h : Nat) (r : Hamlet) : ((Act.hamlet h r).apply s).out = s.out := rfl

@[simp] theorem Act.apply_queue_pending (q : Nat) (r : Queue) : ((Act.queue q r).apply s).pending = s.pending := rfl
@[simp] theorem Act.apply_queue_now (q : Nat) (r : Queue) : ((Act.queue q r).apply s).now = s.now := rfl
@[simp] theorem Act.apply_queue_seq (q : Nat) (r : Queue) : ((Act.queue q r).apply s).seq = s.seq := rfl
@[simp] theorem Act.apply_queue_regs (q : Nat) (r : Queue) : ((Act.queue q r).apply s).regs = s.regs := rfl
@[simp] theorem Act.apply_queue_mem (q : Nat) (r : Queue) : ((Act.queue q r).apply s).mem = s.mem := rfl
@[simp] theorem Act.apply_queue_crofts (q : Nat) (r : Queue) : ((Act.queue q r).apply s).crofts = s.crofts := rfl
@[simp] theorem Act.apply_queue_wells (q : Nat) (r : Queue) : ((Act.queue q r).apply s).wells = s.wells := rfl
@[simp] theorem Act.apply_queue_pumps (q : Nat) (r : Queue) : ((Act.queue q r).apply s).pumps = s.pumps := rfl
@[simp] theorem Act.apply_queue_hamlets (q : Nat) (r : Queue) : ((Act.queue q r).apply s).hamlets = s.hamlets := rfl
@[simp] theorem Act.apply_queue_queues (q : Nat) (r : Queue) : ((Act.queue q r).apply s).queues = Sparse.set s.queues q r := rfl
@[simp] theorem Act.apply_queue_links (q : Nat) (r : Queue) : ((Act.queue q r).apply s).links = s.links := rfl
@[simp] theorem Act.apply_queue_dev (q : Nat) (r : Queue) : ((Act.queue q r).apply s).dev = s.dev := rfl
@[simp] theorem Act.apply_queue_out (q : Nat) (r : Queue) : ((Act.queue q r).apply s).out = s.out := rfl

@[simp] theorem Act.apply_queueErase_pending (lo hi : Nat) : ((Act.queueErase lo hi).apply s).pending = s.pending := rfl
@[simp] theorem Act.apply_queueErase_now (lo hi : Nat) : ((Act.queueErase lo hi).apply s).now = s.now := rfl
@[simp] theorem Act.apply_queueErase_seq (lo hi : Nat) : ((Act.queueErase lo hi).apply s).seq = s.seq := rfl
@[simp] theorem Act.apply_queueErase_regs (lo hi : Nat) : ((Act.queueErase lo hi).apply s).regs = s.regs := rfl
@[simp] theorem Act.apply_queueErase_mem (lo hi : Nat) : ((Act.queueErase lo hi).apply s).mem = s.mem := rfl
@[simp] theorem Act.apply_queueErase_crofts (lo hi : Nat) : ((Act.queueErase lo hi).apply s).crofts = s.crofts := rfl
@[simp] theorem Act.apply_queueErase_wells (lo hi : Nat) : ((Act.queueErase lo hi).apply s).wells = s.wells := rfl
@[simp] theorem Act.apply_queueErase_pumps (lo hi : Nat) : ((Act.queueErase lo hi).apply s).pumps = s.pumps := rfl
@[simp] theorem Act.apply_queueErase_hamlets (lo hi : Nat) : ((Act.queueErase lo hi).apply s).hamlets = s.hamlets := rfl
@[simp] theorem Act.apply_queueErase_queues (lo hi : Nat) : ((Act.queueErase lo hi).apply s).queues = Sparse.eraseRange s.queues lo hi := rfl
@[simp] theorem Act.apply_queueErase_links (lo hi : Nat) : ((Act.queueErase lo hi).apply s).links = s.links := rfl
@[simp] theorem Act.apply_queueErase_dev (lo hi : Nat) : ((Act.queueErase lo hi).apply s).dev = s.dev := rfl
@[simp] theorem Act.apply_queueErase_out (lo hi : Nat) : ((Act.queueErase lo hi).apply s).out = s.out := rfl

@[simp] theorem Act.apply_link_pending (q : Nat) (r : Link) : ((Act.link q r).apply s).pending = s.pending := rfl
@[simp] theorem Act.apply_link_now (q : Nat) (r : Link) : ((Act.link q r).apply s).now = s.now := rfl
@[simp] theorem Act.apply_link_seq (q : Nat) (r : Link) : ((Act.link q r).apply s).seq = s.seq := rfl
@[simp] theorem Act.apply_link_regs (q : Nat) (r : Link) : ((Act.link q r).apply s).regs = s.regs := rfl
@[simp] theorem Act.apply_link_mem (q : Nat) (r : Link) : ((Act.link q r).apply s).mem = s.mem := rfl
@[simp] theorem Act.apply_link_crofts (q : Nat) (r : Link) : ((Act.link q r).apply s).crofts = s.crofts := rfl
@[simp] theorem Act.apply_link_wells (q : Nat) (r : Link) : ((Act.link q r).apply s).wells = s.wells := rfl
@[simp] theorem Act.apply_link_pumps (q : Nat) (r : Link) : ((Act.link q r).apply s).pumps = s.pumps := rfl
@[simp] theorem Act.apply_link_hamlets (q : Nat) (r : Link) : ((Act.link q r).apply s).hamlets = s.hamlets := rfl
@[simp] theorem Act.apply_link_queues (q : Nat) (r : Link) : ((Act.link q r).apply s).queues = s.queues := rfl
@[simp] theorem Act.apply_link_links (q : Nat) (r : Link) : ((Act.link q r).apply s).links = Sparse.set s.links q r := rfl
@[simp] theorem Act.apply_link_dev (q : Nat) (r : Link) : ((Act.link q r).apply s).dev = s.dev := rfl
@[simp] theorem Act.apply_link_out (q : Nat) (r : Link) : ((Act.link q r).apply s).out = s.out := rfl

@[simp] theorem Act.apply_linkErase_pending (lo hi : Nat) : ((Act.linkErase lo hi).apply s).pending = s.pending := rfl
@[simp] theorem Act.apply_linkErase_now (lo hi : Nat) : ((Act.linkErase lo hi).apply s).now = s.now := rfl
@[simp] theorem Act.apply_linkErase_seq (lo hi : Nat) : ((Act.linkErase lo hi).apply s).seq = s.seq := rfl
@[simp] theorem Act.apply_linkErase_regs (lo hi : Nat) : ((Act.linkErase lo hi).apply s).regs = s.regs := rfl
@[simp] theorem Act.apply_linkErase_mem (lo hi : Nat) : ((Act.linkErase lo hi).apply s).mem = s.mem := rfl
@[simp] theorem Act.apply_linkErase_crofts (lo hi : Nat) : ((Act.linkErase lo hi).apply s).crofts = s.crofts := rfl
@[simp] theorem Act.apply_linkErase_wells (lo hi : Nat) : ((Act.linkErase lo hi).apply s).wells = s.wells := rfl
@[simp] theorem Act.apply_linkErase_pumps (lo hi : Nat) : ((Act.linkErase lo hi).apply s).pumps = s.pumps := rfl
@[simp] theorem Act.apply_linkErase_hamlets (lo hi : Nat) : ((Act.linkErase lo hi).apply s).hamlets = s.hamlets := rfl
@[simp] theorem Act.apply_linkErase_queues (lo hi : Nat) : ((Act.linkErase lo hi).apply s).queues = s.queues := rfl
@[simp] theorem Act.apply_linkErase_links (lo hi : Nat) : ((Act.linkErase lo hi).apply s).links = Sparse.eraseRange s.links lo hi := rfl
@[simp] theorem Act.apply_linkErase_dev (lo hi : Nat) : ((Act.linkErase lo hi).apply s).dev = s.dev := rfl
@[simp] theorem Act.apply_linkErase_out (lo hi : Nat) : ((Act.linkErase lo hi).apply s).out = s.out := rfl

@[simp] theorem Act.apply_dev_pending (d : Device) : ((Act.dev d).apply s).pending = s.pending := rfl
@[simp] theorem Act.apply_dev_now (d : Device) : ((Act.dev d).apply s).now = s.now := rfl
@[simp] theorem Act.apply_dev_seq (d : Device) : ((Act.dev d).apply s).seq = s.seq := rfl
@[simp] theorem Act.apply_dev_regs (d : Device) : ((Act.dev d).apply s).regs = s.regs := rfl
@[simp] theorem Act.apply_dev_mem (d : Device) : ((Act.dev d).apply s).mem = s.mem := rfl
@[simp] theorem Act.apply_dev_crofts (d : Device) : ((Act.dev d).apply s).crofts = s.crofts := rfl
@[simp] theorem Act.apply_dev_wells (d : Device) : ((Act.dev d).apply s).wells = s.wells := rfl
@[simp] theorem Act.apply_dev_pumps (d : Device) : ((Act.dev d).apply s).pumps = s.pumps := rfl
@[simp] theorem Act.apply_dev_hamlets (d : Device) : ((Act.dev d).apply s).hamlets = s.hamlets := rfl
@[simp] theorem Act.apply_dev_queues (d : Device) : ((Act.dev d).apply s).queues = s.queues := rfl
@[simp] theorem Act.apply_dev_links (d : Device) : ((Act.dev d).apply s).links = s.links := rfl
@[simp] theorem Act.apply_dev_dev (d : Device) : ((Act.dev d).apply s).dev = d := rfl
@[simp] theorem Act.apply_dev_out (d : Device) : ((Act.dev d).apply s).out = s.out := rfl

@[simp] theorem Act.apply_out_pending (o : Out) : ((Act.out o).apply s).pending = s.pending := rfl
@[simp] theorem Act.apply_out_now (o : Out) : ((Act.out o).apply s).now = s.now := rfl
@[simp] theorem Act.apply_out_seq (o : Out) : ((Act.out o).apply s).seq = s.seq := rfl
@[simp] theorem Act.apply_out_regs (o : Out) : ((Act.out o).apply s).regs = s.regs := rfl
@[simp] theorem Act.apply_out_mem (o : Out) : ((Act.out o).apply s).mem = s.mem := rfl
@[simp] theorem Act.apply_out_crofts (o : Out) : ((Act.out o).apply s).crofts = s.crofts := rfl
@[simp] theorem Act.apply_out_wells (o : Out) : ((Act.out o).apply s).wells = s.wells := rfl
@[simp] theorem Act.apply_out_pumps (o : Out) : ((Act.out o).apply s).pumps = s.pumps := rfl
@[simp] theorem Act.apply_out_hamlets (o : Out) : ((Act.out o).apply s).hamlets = s.hamlets := rfl
@[simp] theorem Act.apply_out_queues (o : Out) : ((Act.out o).apply s).queues = s.queues := rfl
@[simp] theorem Act.apply_out_links (o : Out) : ((Act.out o).apply s).links = s.links := rfl
@[simp] theorem Act.apply_out_dev (o : Out) : ((Act.out o).apply s).dev = s.dev := rfl
@[simp] theorem Act.apply_out_out (o : Out) : ((Act.out o).apply s).out = s.out ++ [o] := rfl

@[simp] theorem Act.apply_seq_pending : (Act.seq.apply s).pending = s.pending := rfl
@[simp] theorem Act.apply_seq_now : (Act.seq.apply s).now = s.now := rfl
@[simp] theorem Act.apply_seq_seq : (Act.seq.apply s).seq = s.seq + 1 := rfl
@[simp] theorem Act.apply_seq_regs : (Act.seq.apply s).regs = s.regs := rfl
@[simp] theorem Act.apply_seq_mem : (Act.seq.apply s).mem = s.mem := rfl
@[simp] theorem Act.apply_seq_crofts : (Act.seq.apply s).crofts = s.crofts := rfl
@[simp] theorem Act.apply_seq_wells : (Act.seq.apply s).wells = s.wells := rfl
@[simp] theorem Act.apply_seq_pumps : (Act.seq.apply s).pumps = s.pumps := rfl
@[simp] theorem Act.apply_seq_hamlets : (Act.seq.apply s).hamlets = s.hamlets := rfl
@[simp] theorem Act.apply_seq_queues : (Act.seq.apply s).queues = s.queues := rfl
@[simp] theorem Act.apply_seq_links : (Act.seq.apply s).links = s.links := rfl
@[simp] theorem Act.apply_seq_dev : (Act.seq.apply s).dev = s.dev := rfl
@[simp] theorem Act.apply_seq_out : (Act.seq.apply s).out = s.out := rfl

end Sys2Proof.Machine
end

