-- ==== Sys2Proof/Laws/Fld.lean ====
section
/-! SUPPORT. Fields of register words: a field reads what was inserted, and every other field of the word stays. -/
namespace Sys2Proof.Machine

/-- The value of a field of a word. -/
def Fld.of (f : Fld) (w : Word) : Nat := (w.toNat / 2 ^ f.lo) % 2 ^ f.width

theorem State.fld_eq (s : State) (p : Page) (f : Fld) : s.fld p f = f.of (s.reg p f.off) := rfl

theorem Fld.of_eq (f : Fld) (w : Word) : f.of w = (w.extractLsb' f.lo f.width).toNat := by
  simp [Fld.of, Nat.shiftRight_eq_div_pow]

theorem Fld.of_lt (f : Fld) (w : Word) : f.of w < 2 ^ f.width := Nat.mod_lt _ (Nat.two_pow_pos _)

theorem Fld.getLsbD_insert (f : Fld) (hf : f.lo + f.width ≤ 32) (w : Word) (v i : Nat) :
    (f.insert w v).getLsbD i =
      if f.lo ≤ i ∧ i < f.lo + f.width then v.testBit (i - f.lo) else w.getLsbD i := by
  have hm : ((2 ^ f.width - 1) * 2 ^ f.lo).testBit i = decide (f.lo ≤ i ∧ i < f.lo + f.width) := by
    rw [Nat.testBit_mul_two_pow]
    by_cases h : f.lo ≤ i
    · simp [h, Nat.testBit_two_pow_sub_one]; omega
    · simp [h]
  have hv : ((v % 2 ^ f.width) * 2 ^ f.lo).testBit i = (decide (f.lo ≤ i ∧ i < f.lo + f.width) && v.testBit (i - f.lo)) := by
    rw [Nat.testBit_mul_two_pow]
    by_cases h : f.lo ≤ i
    · simp [h, Nat.testBit_mod_two_pow]
      by_cases h' : i - f.lo < f.width
      · have : i < f.lo + f.width := by omega
        simp [h', this]
      · have : ¬ i < f.lo + f.width := by omega
        simp [h', this]
    · simp [h]
  by_cases hi : i < 32
  · simp only [Fld.insert, BitVec.getLsbD_or, BitVec.getLsbD_and, BitVec.getLsbD_not, BitVec.getLsbD_ofNat, hi, decide_true,
      Bool.true_and, hm, hv]
    by_cases h : f.lo ≤ i ∧ i < f.lo + f.width
    · simp [h]
    · simp [h]
  · rw [if_neg (by omega), BitVec.getLsbD_of_ge _ _ (by omega), BitVec.getLsbD_of_ge _ _ (by omega)]

/-- A field reads the low bits of what was inserted. -/
theorem Fld.of_insert_same (f : Fld) (hf : f.lo + f.width ≤ 32) (w : Word) (v : Nat) :
    f.of (f.insert w v) = v % 2 ^ f.width := by
  rw [Fld.of_eq]
  apply Nat.eq_of_testBit_eq
  intro i
  rw [BitVec.testBit_toNat, BitVec.getLsbD_extractLsb', Fld.getLsbD_insert f hf, Nat.testBit_mod_two_pow]
  by_cases h : i < f.width
  · have h' : f.lo ≤ f.lo + i ∧ f.lo + i < f.lo + f.width := by omega
    simp [h, h']
  · simp [h]

/-- A field that shares no bit with the one inserted stays. -/
theorem Fld.of_insert_disjoint (f g : Fld) (hf : f.lo + f.width ≤ 32) (h : f.lo + f.width ≤ g.lo ∨ g.lo + g.width ≤ f.lo)
    (w : Word) (v : Nat) : g.of (f.insert w v) = g.of w := by
  rw [Fld.of_eq, Fld.of_eq]
  congr 1
  apply BitVec.eq_of_getLsbD_eq
  intro i hi
  rw [BitVec.getLsbD_extractLsb', BitVec.getLsbD_extractLsb', Fld.getLsbD_insert f hf, if_neg (by omega)]

/-! ### Registers after an effect -/

/-- A register read after a register effect. -/
theorem State.reg_apply_reg (s : State) (a : Nat) (v : Word) (p : Page) (o : Nat) :
    ((Act.reg a v).apply s).reg p o = if p.base + o = a then v else s.reg p o := by
  unfold State.reg
  rw [Act.apply_reg_regs, Sparse.get?_set]
  split <;> rfl

theorem State.reg_apply_erase (s : State) (lo hi : Nat) (p : Page) (o : Nat) :
    ((Act.regsErase lo hi).apply s).reg p o = if lo ≤ p.base + o ∧ p.base + o < hi then resetWord p o else s.reg p o := by
  unfold State.reg
  rw [Act.apply_regsErase_regs, Sparse.get?_eraseRange]
  split <;> simp_all

/-- Effects on anything but the register file leave every register. -/
theorem State.reg_congr {s t : State} (h : t.regs = s.regs) (p : Page) (o : Nat) : t.reg p o = s.reg p o := by
  unfold State.reg; rw [h]

theorem State.fld_congr {s t : State} (h : t.regs = s.regs) (p : Page) (f : Fld) : t.fld p f = s.fld p f := by
  simp only [State.fld, State.reg_congr h]

theorem State.bit_congr {s t : State} (h : t.regs = s.regs) (p : Page) (f : Fld) : t.bit p f = s.bit p f := by
  simp only [State.bit, State.fld_congr h]

/-- A register with the register file replaced at one address. -/
theorem State.fld_apply_reg (s : State) (a : Nat) (v : Word) (p : Page) (f : Fld) :
    ((Act.reg a v).apply s).fld p f = if p.base + f.off = a then f.of v else s.fld p f := by
  simp only [State.fld_eq, State.reg_apply_reg]
  split <;> rfl

end Sys2Proof.Machine
end

