-- ==== Sys2Proof/Laws/Prog.lean ====
section
/-! SUPPORT. Programs of effects: how a composed program runs, and what every program keeps. -/
namespace Sys2Proof.Machine

/-! ### Running -/

@[simp] theorem Prog.run_done (s : State) : Prog.done.run s = s := rfl
@[simp] theorem Prog.run_act (a : Act) (k : Prog) (s : State) : (Prog.act a k).run s = k.run (a.apply s) := rfl
@[simp] theorem Prog.run_get (f : State → Prog) (s : State) : (Prog.get f).run s = (f s).run s := rfl
@[simp] theorem Prog.run_eff (a : Act) (s : State) : (eff a).run s = a.apply s := rfl

@[simp] theorem Prog.run_seq (p q : Prog) (s : State) : (Prog.seq p q).run s = q.run (p.run s) := by
  induction p generalizing s with
  | done => rfl
  | act a k ih => exact ih _
  | get f ih => exact ih s s

@[simp] theorem Prog.run_all_nil (s : State) : (Prog.all []).run s = s := rfl

@[simp] theorem Prog.run_all_cons (p : Prog) (ps : List Prog) (s : State) :
    (Prog.all (p :: ps)).run s = (Prog.all ps).run (p.run s) := Prog.run_seq ..

theorem Prog.run_all_append (ps qs : List Prog) (s : State) :
    (Prog.all (ps ++ qs)).run s = (Prog.all qs).run ((Prog.all ps).run s) := by
  induction ps generalizing s with
  | nil => rfl
  | cons p ps ih => simp [ih]

@[simp] theorem Prog.run_each_nil {α : Type} (f : α → Prog) (s : State) : (Prog.each [] f).run s = s := rfl

@[simp] theorem Prog.run_each_cons {α : Type} (x : α) (l : List α) (f : α → Prog) (s : State) :
    (Prog.each (x :: l) f).run s = (Prog.each l f).run ((f x).run s) := Prog.run_seq ..

theorem Prog.run_when (b : Bool) (p : Prog) (s : State) : (Prog.when b p).run s = if b then p.run s else s := by
  cases b <;> rfl

@[simp] theorem Prog.run_when_true (p : Prog) (s : State) : (Prog.when true p).run s = p.run s := rfl
@[simp] theorem Prog.run_when_false (p : Prog) (s : State) : (Prog.when false p).run s = s := rfl

theorem Prog.run_whenever (b : State → Bool) (p : Prog) (s : State) :
    (Prog.whenever b p).run s = if b s then p.run s else s := Prog.run_when ..

theorem Prog.run_ite (c : Prop) [Decidable c] (p q : Prog) (s : State) :
    (if c then p else q).run s = if c then p.run s else q.run s := by split <;> rfl

theorem Prog.next_eq (p : Prog) (s : State) : Prog.next p s = .next (p.run s) := rfl

/-! ### What every program keeps -/

/-- A relation between states that holds of a state and itself, goes on by composition and holds of every effect holds of every
program. -/
theorem Prog.run_rel (R : State → State → Prop) (refl : ∀ s, R s s) (trans : ∀ s t u, R s t → R t u → R s u)
    (act : ∀ a s, R s (Act.apply a s)) (p : Prog) (s : State) : R s (p.run s) := by
  induction p generalizing s with
  | done => exact refl s
  | act a k ih => exact trans _ _ _ (act a s) (ih _)
  | get f ih => exact ih s s

theorem Prog.run_pending (p : Prog) (s : State) : (p.run s).pending = s.pending :=
  Prog.run_rel (fun s t => t.pending = s.pending) (fun _ => rfl) (fun _ _ _ h k => k.trans h) (fun a s => by cases a <;> rfl) p s

theorem Prog.run_now (p : Prog) (s : State) : (p.run s).now = s.now :=
  Prog.run_rel (fun s t => t.now = s.now) (fun _ => rfl) (fun _ _ _ h k => k.trans h) (fun a s => by cases a <;> rfl) p s

theorem Prog.run_seq_le (p : Prog) (s : State) : s.seq ≤ (p.run s).seq :=
  Prog.run_rel (fun s t => s.seq ≤ t.seq) (fun _ => Nat.le_refl _) (fun _ _ _ h k => Nat.le_trans h k)
    (fun a s => by cases a <;> simp) p s

theorem Prog.run_out_prefix (p : Prog) (s : State) : s.out <+: (p.run s).out :=
  Prog.run_rel (fun s t => s.out <+: t.out) (fun _ => List.prefix_rfl) (fun _ _ _ h k => h.trans k)
    (fun a s => by cases a <;> simp) p s

theorem Act.apply_inv (a : Act) {s : State} (h : s.Inv) : (a.apply s).Inv := by
  cases a <;> constructor <;>
    first
    | exact h.regs | exact h.mem | exact h.crofts | exact h.wells | exact h.pumps | exact h.hamlets | exact h.queues
    | exact h.links
    | exact Sparse.wf_set h.regs _ _ | exact Sparse.wf_eraseRange h.regs _ _
    | exact Memory.wf_writeBytes h.mem _ _ | exact Memory.wf_eraseRange h.mem _ _
    | exact Sparse.wf_set h.crofts _ _ | exact Sparse.wf_eraseRange h.crofts _ _
    | exact Sparse.wf_set h.wells _ _ | exact Sparse.wf_eraseRange h.wells _ _
    | exact Sparse.wf_set h.pumps _ _ | exact Sparse.wf_eraseRange h.pumps _ _
    | exact Sparse.wf_set h.hamlets _ _
    | exact Sparse.wf_set h.queues _ _ | exact Sparse.wf_eraseRange h.queues _ _
    | exact Sparse.wf_set h.links _ _ | exact Sparse.wf_eraseRange h.links _ _

theorem Prog.run_inv (p : Prog) {s : State} (h : s.Inv) : (p.run s).Inv :=
  Prog.run_rel (fun s t => s.Inv → t.Inv) (fun _ h => h) (fun _ _ _ h k i => k (h i)) (fun a _ => Act.apply_inv a) p s h

/-! ### Programs that do only some effects -/

/-- Every effect of the program satisfies `P`, whatever states it reads. -/
def Prog.Only (P : Act → Prop) : Prog → Prop
  | .done => True
  | .act a k => P a ∧ Prog.Only P k
  | .get f => ∀ s, Prog.Only P (f s)

variable {P : Act → Prop}

@[simp] theorem Prog.only_done : Prog.done.Only P := trivial
@[simp] theorem Prog.only_eff (a : Act) : (eff a).Only P ↔ P a := by simp [eff, Prog.Only]
@[simp] theorem Prog.only_get (f : State → Prog) : (Prog.get f).Only P ↔ ∀ s, (f s).Only P := Iff.rfl

@[simp] theorem Prog.only_seq (p q : Prog) : (Prog.seq p q).Only P ↔ p.Only P ∧ q.Only P := by
  induction p with
  | done => simp [Prog.seq]
  | act a k ih => simp [Prog.seq, Prog.Only, ih, and_assoc]
  | get f ih =>
    simp only [Prog.seq, Prog.only_get, ih]
    exact ⟨fun h => ⟨fun s => (h s).1, (h State.reset).2⟩, fun h s => ⟨h.1 s, h.2⟩⟩

@[simp] theorem Prog.only_all_nil : (Prog.all []).Only P := trivial
@[simp] theorem Prog.only_all_cons (p : Prog) (ps : List Prog) : (Prog.all (p :: ps)).Only P ↔ p.Only P ∧ (Prog.all ps).Only P :=
  Prog.only_seq ..

theorem Prog.only_all (ps : List Prog) : (Prog.all ps).Only P ↔ ∀ p ∈ ps, p.Only P := by
  induction ps with
  | nil => simp
  | cons p ps ih => simp [ih]

@[simp] theorem Prog.only_each {α : Type} (l : List α) (f : α → Prog) : (Prog.each l f).Only P ↔ ∀ x ∈ l, (f x).Only P := by
  simp [Prog.each, Prog.only_all]

theorem Prog.only_when (b : Bool) (p : Prog) : (Prog.when b p).Only P ↔ (b = true → p.Only P) := by
  cases b <;> simp [Prog.when]

theorem Prog.only_whenever (b : State → Bool) {p : Prog} (h : p.Only P) : (Prog.whenever b p).Only P :=
  fun _ => (Prog.only_when ..).2 fun _ => h

theorem Prog.Only.mono {Q : Act → Prop} (h : ∀ a, P a → Q a) {p : Prog} (k : p.Only P) : p.Only Q := by
  induction p with
  | done => trivial
  | act a q ih => exact ⟨h a k.1, ih k.2⟩
  | get f ih => exact fun s => ih s (k s)

/-- What every permitted effect keeps, a program of permitted effects keeps. -/
theorem Prog.Only.keeps {β : Type} (f : State → β) (h : ∀ a s, P a → f (Act.apply a s) = f s) {p : Prog} (k : p.Only P) (s : State) :
    f (p.run s) = f s := by
  induction p generalizing s with
  | done => rfl
  | act a q ih => exact (ih k.2 _).trans (h a s k.1)
  | get g ih => exact ih s (k s) s

/-- The commands of `exec` leave the queue and model time alone: each is a program. -/
theorem Leaves.of_next {p : Prog} {s : State} {Q : State → Prop} (h : Q (p.run s)) : Leaves (Prog.next p s) Q := ⟨_, rfl, h⟩

theorem Leaves.elim {o : Host.Outcome State Fault Refusal} {t : State} {Q : State → Prop} (h : Leaves o Q) (e : o = .next t) : Q t := by
  obtain ⟨u, rfl, hu⟩ := h
  cases e
  exact hu

end Sys2Proof.Machine
end

