-- ==== Sys2Proof/Laws/Reads.lean ====
section
/-! SUPPORT. What each read of the state sees after each primitive effect. -/
namespace Sys2Proof.Machine

variable (s : State)

@[simp] theorem Act.apply_reg_croft_ (a : Nat) (v : Word) (k : Nat) : ((Act.reg a v).apply s).croft k = s.croft k := rfl
@[simp] theorem Act.apply_reg_reeve_ (a : Nat) (v : Word) (k : Nat) : ((Act.reg a v).apply s).reeve k = s.reeve k := rfl
@[simp] theorem Act.apply_reg_well_ (a : Nat) (v : Word) (k : Nat) : ((Act.reg a v).apply s).well k = s.well k := rfl
@[simp] theorem Act.apply_reg_pumpRun_ (a : Nat) (v : Word) (k : Nat) : ((Act.reg a v).apply s).pumpRun k = s.pumpRun k := rfl
@[simp] theorem Act.apply_reg_hamlet_ (a : Nat) (v : Word) (k : Nat) : ((Act.reg a v).apply s).hamlet k = s.hamlet k := rfl
@[simp] theorem Act.apply_reg_queue_ (a : Nat) (v : Word) (k : Nat) : ((Act.reg a v).apply s).queue k = s.queue k := rfl
@[simp] theorem Act.apply_reg_link_ (a : Nat) (v : Word) (k : Nat) : ((Act.reg a v).apply s).link k = s.link k := rfl
@[simp] theorem Act.apply_reg_byte_ (a : Nat) (v : Word) (x : Nat) : ((Act.reg a v).apply s).byte x = s.byte x := rfl
@[simp] theorem Act.apply_reg_underReset_ (a : Nat) (v : Word) (pg : Page) : ((Act.reg a v).apply s).underReset pg = s.underReset pg := rfl
@[simp] theorem Act.apply_reg_bellNow_ (a : Nat) (v : Word) : ((Act.reg a v).apply s).bellNow = s.bellNow := rfl

@[simp] theorem Act.apply_regsErase_croft_ (lo hi : Nat) (k : Nat) : ((Act.regsErase lo hi).apply s).croft k = s.croft k := rfl
@[simp] theorem Act.apply_regsErase_reeve_ (lo hi : Nat) (k : Nat) : ((Act.regsErase lo hi).apply s).reeve k = s.reeve k := rfl
@[simp] theorem Act.apply_regsErase_well_ (lo hi : Nat) (k : Nat) : ((Act.regsErase lo hi).apply s).well k = s.well k := rfl
@[simp] theorem Act.apply_regsErase_pumpRun_ (lo hi : Nat) (k : Nat) : ((Act.regsErase lo hi).apply s).pumpRun k = s.pumpRun k := rfl
@[simp] theorem Act.apply_regsErase_hamlet_ (lo hi : Nat) (k : Nat) : ((Act.regsErase lo hi).apply s).hamlet k = s.hamlet k := rfl
@[simp] theorem Act.apply_regsErase_queue_ (lo hi : Nat) (k : Nat) : ((Act.regsErase lo hi).apply s).queue k = s.queue k := rfl
@[simp] theorem Act.apply_regsErase_link_ (lo hi : Nat) (k : Nat) : ((Act.regsErase lo hi).apply s).link k = s.link k := rfl
@[simp] theorem Act.apply_regsErase_byte_ (lo hi : Nat) (x : Nat) : ((Act.regsErase lo hi).apply s).byte x = s.byte x := rfl
@[simp] theorem Act.apply_regsErase_underReset_ (lo hi : Nat) (pg : Page) : ((Act.regsErase lo hi).apply s).underReset pg = s.underReset pg := rfl
@[simp] theorem Act.apply_regsErase_bellNow_ (lo hi : Nat) : ((Act.regsErase lo hi).apply s).bellNow = s.bellNow := rfl

@[simp] theorem Act.apply_bytes_reg_ (a : Nat) (bs : List Byte) (pg : Page) (x : Nat) : ((Act.bytes a bs).apply s).reg pg x = s.reg pg x := rfl
@[simp] theorem Act.apply_bytes_fld_ (a : Nat) (bs : List Byte) (pg : Page) (f : Fld) : ((Act.bytes a bs).apply s).fld pg f = s.fld pg f := rfl
@[simp] theorem Act.apply_bytes_bit_ (a : Nat) (bs : List Byte) (pg : Page) (f : Fld) : ((Act.bytes a bs).apply s).bit pg f = s.bit pg f := rfl
@[simp] theorem Act.apply_bytes_enabled_ (a : Nat) (bs : List Byte) (pg : Page) : ((Act.bytes a bs).apply s).enabled pg = s.enabled pg := rfl
@[simp] theorem Act.apply_bytes_running_ (a : Nat) (bs : List Byte) (k : Nat) : ((Act.bytes a bs).apply s).running k = s.running k := rfl
@[simp] theorem Act.apply_bytes_croft_ (a : Nat) (bs : List Byte) (k : Nat) : ((Act.bytes a bs).apply s).croft k = s.croft k := rfl
@[simp] theorem Act.apply_bytes_reeve_ (a : Nat) (bs : List Byte) (k : Nat) : ((Act.bytes a bs).apply s).reeve k = s.reeve k := rfl
@[simp] theorem Act.apply_bytes_well_ (a : Nat) (bs : List Byte) (k : Nat) : ((Act.bytes a bs).apply s).well k = s.well k := rfl
@[simp] theorem Act.apply_bytes_pumpRun_ (a : Nat) (bs : List Byte) (k : Nat) : ((Act.bytes a bs).apply s).pumpRun k = s.pumpRun k := rfl
@[simp] theorem Act.apply_bytes_hamlet_ (a : Nat) (bs : List Byte) (k : Nat) : ((Act.bytes a bs).apply s).hamlet k = s.hamlet k := rfl
@[simp] theorem Act.apply_bytes_queue_ (a : Nat) (bs : List Byte) (k : Nat) : ((Act.bytes a bs).apply s).queue k = s.queue k := rfl
@[simp] theorem Act.apply_bytes_link_ (a : Nat) (bs : List Byte) (k : Nat) : ((Act.bytes a bs).apply s).link k = s.link k := rfl
@[simp] theorem Act.apply_bytes_underReset_ (a : Nat) (bs : List Byte) (pg : Page) : ((Act.bytes a bs).apply s).underReset pg = s.underReset pg := rfl
@[simp] theorem Act.apply_bytes_bellNow_ (a : Nat) (bs : List Byte) : ((Act.bytes a bs).apply s).bellNow = s.bellNow := rfl

@[simp] theorem Act.apply_memErase_reg_ (lo hi : Nat) (pg : Page) (x : Nat) : ((Act.memErase lo hi).apply s).reg pg x = s.reg pg x := rfl
@[simp] theorem Act.apply_memErase_fld_ (lo hi : Nat) (pg : Page) (f : Fld) : ((Act.memErase lo hi).apply s).fld pg f = s.fld pg f := rfl
@[simp] theorem Act.apply_memErase_bit_ (lo hi : Nat) (pg : Page) (f : Fld) : ((Act.memErase lo hi).apply s).bit pg f = s.bit pg f := rfl
@[simp] theorem Act.apply_memErase_enabled_ (lo hi : Nat) (pg : Page) : ((Act.memErase lo hi).apply s).enabled pg = s.enabled pg := rfl
@[simp] theorem Act.apply_memErase_running_ (lo hi : Nat) (k : Nat) : ((Act.memErase lo hi).apply s).running k = s.running k := rfl
@[simp] theorem Act.apply_memErase_croft_ (lo hi : Nat) (k : Nat) : ((Act.memErase lo hi).apply s).croft k = s.croft k := rfl
@[simp] theorem Act.apply_memErase_reeve_ (lo hi : Nat) (k : Nat) : ((Act.memErase lo hi).apply s).reeve k = s.reeve k := rfl
@[simp] theorem Act.apply_memErase_well_ (lo hi : Nat) (k : Nat) : ((Act.memErase lo hi).apply s).well k = s.well k := rfl
@[simp] theorem Act.apply_memErase_pumpRun_ (lo hi : Nat) (k : Nat) : ((Act.memErase lo hi).apply s).pumpRun k = s.pumpRun k := rfl
@[simp] theorem Act.apply_memErase_hamlet_ (lo hi : Nat) (k : Nat) : ((Act.memErase lo hi).apply s).hamlet k = s.hamlet k := rfl
@[simp] theorem Act.apply_memErase_queue_ (lo hi : Nat) (k : Nat) : ((Act.memErase lo hi).apply s).queue k = s.queue k := rfl
@[simp] theorem Act.apply_memErase_link_ (lo hi : Nat) (k : Nat) : ((Act.memErase lo hi).apply s).link k = s.link k := rfl
@[simp] theorem Act.apply_memErase_underReset_ (lo hi : Nat) (pg : Page) : ((Act.memErase lo hi).apply s).underReset pg = s.underReset pg := rfl
@[simp] theorem Act.apply_memErase_bellNow_ (lo hi : Nat) : ((Act.memErase lo hi).apply s).bellNow = s.bellNow := rfl

@[simp] theorem Act.apply_croft_reg_ (c : Nat) (r : Croft) (pg : Page) (x : Nat) : ((Act.croft c r).apply s).reg pg x = s.reg pg x := rfl
@[simp] theorem Act.apply_croft_fld_ (c : Nat) (r : Croft) (pg : Page) (f : Fld) : ((Act.croft c r).apply s).fld pg f = s.fld pg f := rfl
@[simp] theorem Act.apply_croft_bit_ (c : Nat) (r : Croft) (pg : Page) (f : Fld) : ((Act.croft c r).apply s).bit pg f = s.bit pg f := rfl
@[simp] theorem Act.apply_croft_enabled_ (c : Nat) (r : Croft) (pg : Page) : ((Act.croft c r).apply s).enabled pg = s.enabled pg := rfl
@[simp] theorem Act.apply_croft_running_ (c : Nat) (r : Croft) (k : Nat) : ((Act.croft c r).apply s).running k = s.running k := rfl
@[simp] theorem Act.apply_croft_well_ (c : Nat) (r : Croft) (k : Nat) : ((Act.croft c r).apply s).well k = s.well k := rfl
@[simp] theorem Act.apply_croft_pumpRun_ (c : Nat) (r : Croft) (k : Nat) : ((Act.croft c r).apply s).pumpRun k = s.pumpRun k := rfl
@[simp] theorem Act.apply_croft_hamlet_ (c : Nat) (r : Croft) (k : Nat) : ((Act.croft c r).apply s).hamlet k = s.hamlet k := rfl
@[simp] theorem Act.apply_croft_queue_ (c : Nat) (r : Croft) (k : Nat) : ((Act.croft c r).apply s).queue k = s.queue k := rfl
@[simp] theorem Act.apply_croft_link_ (c : Nat) (r : Croft) (k : Nat) : ((Act.croft c r).apply s).link k = s.link k := rfl
@[simp] theorem Act.apply_croft_byte_ (c : Nat) (r : Croft) (x : Nat) : ((Act.croft c r).apply s).byte x = s.byte x := rfl
@[simp] theorem Act.apply_croft_underReset_ (c : Nat) (r : Croft) (pg : Page) : ((Act.croft c r).apply s).underReset pg = s.underReset pg := rfl
@[simp] theorem Act.apply_croft_bellNow_ (c : Nat) (r : Croft) : ((Act.croft c r).apply s).bellNow = s.bellNow := rfl

@[simp] theorem Act.apply_croftErase_reg_ (lo hi : Nat) (pg : Page) (x : Nat) : ((Act.croftErase lo hi).apply s).reg pg x = s.reg pg x := rfl
@[simp] theorem Act.apply_croftErase_fld_ (lo hi : Nat) (pg : Page) (f : Fld) : ((Act.croftErase lo hi).apply s).fld pg f = s.fld pg f := rfl
@[simp] theorem Act.apply_croftErase_bit_ (lo hi : Nat) (pg : Page) (f : Fld) : ((Act.croftErase lo hi).apply s).bit pg f = s.bit pg f := rfl
@[simp] theorem Act.apply_croftErase_enabled_ (lo hi : Nat) (pg : Page) : ((Act.croftErase lo hi).apply s).enabled pg = s.enabled pg := rfl
@[simp] theorem Act.apply_croftErase_running_ (lo hi : Nat) (k : Nat) : ((Act.croftErase lo hi).apply s).running k = s.running k := rfl
@[simp] theorem Act.apply_croftErase_well_ (lo hi : Nat) (k : Nat) : ((Act.croftErase lo hi).apply s).well k = s.well k := rfl
@[simp] theorem Act.apply_croftErase_pumpRun_ (lo hi : Nat) (k : Nat) : ((Act.croftErase lo hi).apply s).pumpRun k = s.pumpRun k := rfl
@[simp] theorem Act.apply_croftErase_hamlet_ (lo hi : Nat) (k : Nat) : ((Act.croftErase lo hi).apply s).hamlet k = s.hamlet k := rfl
@[simp] theorem Act.apply_croftErase_queue_ (lo hi : Nat) (k : Nat) : ((Act.croftErase lo hi).apply s).queue k = s.queue k := rfl
@[simp] theorem Act.apply_croftErase_link_ (lo hi : Nat) (k : Nat) : ((Act.croftErase lo hi).apply s).link k = s.link k := rfl
@[simp] theorem Act.apply_croftErase_byte_ (lo hi : Nat) (x : Nat) : ((Act.croftErase lo hi).apply s).byte x = s.byte x := rfl
@[simp] theorem Act.apply_croftErase_underReset_ (lo hi : Nat) (pg : Page) : ((Act.croftErase lo hi).apply s).underReset pg = s.underReset pg := rfl
@[simp] theorem Act.apply_croftErase_bellNow_ (lo hi : Nat) : ((Act.croftErase lo hi).apply s).bellNow = s.bellNow := rfl

@[simp] theorem Act.apply_well_reg_ (w : Nat) (r : Well) (pg : Page) (x : Nat) : ((Act.well w r).apply s).reg pg x = s.reg pg x := rfl
@[simp] theorem Act.apply_well_fld_ (w : Nat) (r : Well) (pg : Page) (f : Fld) : ((Act.well w r).apply s).fld pg f = s.fld pg f := rfl
@[simp] theorem Act.apply_well_bit_ (w : Nat) (r : Well) (pg : Page) (f : Fld) : ((Act.well w r).apply s).bit pg f = s.bit pg f := rfl
@[simp] theorem Act.apply_well_enabled_ (w : Nat) (r : Well) (pg : Page) : ((Act.well w r).apply s).enabled pg = s.enabled pg := rfl
@[simp] theorem Act.apply_well_running_ (w : Nat) (r : Well) (k : Nat) : ((Act.well w r).apply s).running k = s.running k := rfl
@[simp] theorem Act.apply_well_croft_ (w : Nat) (r : Well) (k : Nat) : ((Act.well w r).apply s).croft k = s.croft k := rfl
@[simp] theorem Act.apply_well_reeve_ (w : Nat) (r : Well) (k : Nat) : ((Act.well w r).apply s).reeve k = s.reeve k := rfl
@[simp] theorem Act.apply_well_pumpRun_ (w : Nat) (r : Well) (k : Nat) : ((Act.well w r).apply s).pumpRun k = s.pumpRun k := rfl
@[simp] theorem Act.apply_well_hamlet_ (w : Nat) (r : Well) (k : Nat) : ((Act.well w r).apply s).hamlet k = s.hamlet k := rfl
@[simp] theorem Act.apply_well_queue_ (w : Nat) (r : Well) (k : Nat) : ((Act.well w r).apply s).queue k = s.queue k := rfl
@[simp] theorem Act.apply_well_link_ (w : Nat) (r : Well) (k : Nat) : ((Act.well w r).apply s).link k = s.link k := rfl
@[simp] theorem Act.apply_well_byte_ (w : Nat) (r : Well) (x : Nat) : ((Act.well w r).apply s).byte x = s.byte x := rfl
@[simp] theorem Act.apply_well_underReset_ (w : Nat) (r : Well) (pg : Page) : ((Act.well w r).apply s).underReset pg = s.underReset pg := rfl
@[simp] theorem Act.apply_well_bellNow_ (w : Nat) (r : Well) : ((Act.well w r).apply s).bellNow = s.bellNow := rfl

@[simp] theorem Act.apply_wellErase_reg_ (lo hi : Nat) (pg : Page) (x : Nat) : ((Act.wellErase lo hi).apply s).reg pg x = s.reg pg x := rfl
@[simp] theorem Act.apply_wellErase_fld_ (lo hi : Nat) (pg : Page) (f : Fld) : ((Act.wellErase lo hi).apply s).fld pg f = s.fld pg f := rfl
@[simp] theorem Act.apply_wellErase_bit_ (lo hi : Nat) (pg : Page) (f : Fld) : ((Act.wellErase lo hi).apply s).bit pg f = s.bit pg f := rfl
@[simp] theorem Act.apply_wellErase_enabled_ (lo hi : Nat) (pg : Page) : ((Act.wellErase lo hi).apply s).enabled pg = s.enabled pg := rfl
@[simp] theorem Act.apply_wellErase_running_ (lo hi : Nat) (k : Nat) : ((Act.wellErase lo hi).apply s).running k = s.running k := rfl
@[simp] theorem Act.apply_wellErase_croft_ (lo hi : Nat) (k : Nat) : ((Act.wellErase lo hi).apply s).croft k = s.croft k := rfl
@[simp] theorem Act.apply_wellErase_reeve_ (lo hi : Nat) (k : Nat) : ((Act.wellErase lo hi).apply s).reeve k = s.reeve k := rfl
@[simp] theorem Act.apply_wellErase_pumpRun_ (lo hi : Nat) (k : Nat) : ((Act.wellErase lo hi).apply s).pumpRun k = s.pumpRun k := rfl
@[simp] theorem Act.apply_wellErase_hamlet_ (lo hi : Nat) (k : Nat) : ((Act.wellErase lo hi).apply s).hamlet k = s.hamlet k := rfl
@[simp] theorem Act.apply_wellErase_queue_ (lo hi : Nat) (k : Nat) : ((Act.wellErase lo hi).apply s).queue k = s.queue k := rfl
@[simp] theorem Act.apply_wellErase_link_ (lo hi : Nat) (k : Nat) : ((Act.wellErase lo hi).apply s).link k = s.link k := rfl
@[simp] theorem Act.apply_wellErase_byte_ (lo hi : Nat) (x : Nat) : ((Act.wellErase lo hi).apply s).byte x = s.byte x := rfl
@[simp] theorem Act.apply_wellErase_underReset_ (lo hi : Nat) (pg : Page) : ((Act.wellErase lo hi).apply s).underReset pg = s.underReset pg := rfl
@[simp] theorem Act.apply_wellErase_bellNow_ (lo hi : Nat) : ((Act.wellErase lo hi).apply s).bellNow = s.bellNow := rfl

@[simp] theorem Act.apply_pump_reg_ (p : Nat) (r : PumpRun) (pg : Page) (x : Nat) : ((Act.pump p r).apply s).reg pg x = s.reg pg x := rfl
@[simp] theorem Act.apply_pump_fld_ (p : Nat) (r : PumpRun) (pg : Page) (f : Fld) : ((Act.pump p r).apply s).fld pg f = s.fld pg f := rfl
@[simp] theorem Act.apply_pump_bit_ (p : Nat) (r : PumpRun) (pg : Page) (f : Fld) : ((Act.pump p r).apply s).bit pg f = s.bit pg f := rfl
@[simp] theorem Act.apply_pump_enabled_ (p : Nat) (r : PumpRun) (pg : Page) : ((Act.pump p r).apply s).enabled pg = s.enabled pg := rfl
@[simp] theorem Act.apply_pump_running_ (p : Nat) (r : PumpRun) (k : Nat) : ((Act.pump p r).apply s).running k = s.running k := rfl
@[simp] theorem Act.apply_pump_croft_ (p : Nat) (r : PumpRun) (k : Nat) : ((Act.pump p r).apply s).croft k = s.croft k := rfl
@[simp] theorem Act.apply_pump_reeve_ (p : Nat) (r : PumpRun) (k : Nat) : ((Act.pump p r).apply s).reeve k = s.reeve k := rfl
@[simp] theorem Act.apply_pump_well_ (p : Nat) (r : PumpRun) (k : Nat) : ((Act.pump p r).apply s).well k = s.well k := rfl
@[simp] theorem Act.apply_pump_hamlet_ (p : Nat) (r : PumpRun) (k : Nat) : ((Act.pump p r).apply s).hamlet k = s.hamlet k := rfl
@[simp] theorem Act.apply_pump_queue_ (p : Nat) (r : PumpRun) (k : Nat) : ((Act.pump p r).apply s).queue k = s.queue k := rfl
@[simp] theorem Act.apply_pump_link_ (p : Nat) (r : PumpRun) (k : Nat) : ((Act.pump p r).apply s).link k = s.link k := rfl
@[simp] theorem Act.apply_pump_byte_ (p : Nat) (r : PumpRun) (x : Nat) : ((Act.pump p r).apply s).byte x = s.byte x := rfl
@[simp] theorem Act.apply_pump_underReset_ (p : Nat) (r : PumpRun) (pg : Page) : ((Act.pump p r).apply s).underReset pg = s.underReset pg := rfl
@[simp] theorem Act.apply_pump_bellNow_ (p : Nat) (r : PumpRun) : ((Act.pump p r).apply s).bellNow = s.bellNow := rfl

@[simp] theorem Act.apply_pumpErase_reg_ (lo hi : Nat) (pg : Page) (x : Nat) : ((Act.pumpErase lo hi).apply s).reg pg x = s.reg pg x := rfl
@[simp] theorem Act.apply_pumpErase_fld_ (lo hi : Nat) (pg : Page) (f : Fld) : ((Act.pumpErase lo hi).apply s).fld pg f = s.fld pg f := rfl
@[simp] theorem Act.apply_pumpErase_bit_ (lo hi : Nat) (pg : Page) (f : Fld) : ((Act.pumpErase lo hi).apply s).bit pg f = s.bit pg f := rfl
@[simp] theorem Act.apply_pumpErase_enabled_ (lo hi : Nat) (pg : Page) : ((Act.pumpErase lo hi).apply s).enabled pg = s.enabled pg := rfl
@[simp] theorem Act.apply_pumpErase_running_ (lo hi : Nat) (k : Nat) : ((Act.pumpErase lo hi).apply s).running k = s.running k := rfl
@[simp] theorem Act.apply_pumpErase_croft_ (lo hi : Nat) (k : Nat) : ((Act.pumpErase lo hi).apply s).croft k = s.croft k := rfl
@[simp] theorem Act.apply_pumpErase_reeve_ (lo hi : Nat) (k : Nat) : ((Act.pumpErase lo hi).apply s).reeve k = s.reeve k := rfl
@[simp] theorem Act.apply_pumpErase_well_ (lo hi : Nat) (k : Nat) : ((Act.pumpErase lo hi).apply s).well k = s.well k := rfl
@[simp] theorem Act.apply_pumpErase_hamlet_ (lo hi : Nat) (k : Nat) : ((Act.pumpErase lo hi).apply s).hamlet k = s.hamlet k := rfl
@[simp] theorem Act.apply_pumpErase_queue_ (lo hi : Nat) (k : Nat) : ((Act.pumpErase lo hi).apply s).queue k = s.queue k := rfl
@[simp] theorem Act.apply_pumpErase_link_ (lo hi : Nat) (k : Nat) : ((Act.pumpErase lo hi).apply s).link k = s.link k := rfl
@[simp] theorem Act.apply_pumpErase_byte_ (lo hi : Nat) (x : Nat) : ((Act.pumpErase lo hi).apply s).byte x = s.byte x := rfl
@[simp] theorem Act.apply_pumpErase_underReset_ (lo hi : Nat) (pg : Page) : ((Act.pumpErase lo hi).apply s).underReset pg = s.underReset pg := rfl
@[simp] theorem Act.apply_pumpErase_bellNow_ (lo hi : Nat) : ((Act.pumpErase lo hi).apply s).bellNow = s.bellNow := rfl

@[simp] theorem Act.apply_hamlet_reg_ (h : Nat) (r : Hamlet) (pg : Page) (x : Nat) : ((Act.hamlet h r).apply s).reg pg x = s.reg pg x := rfl
@[simp] theorem Act.apply_hamlet_fld_ (h : Nat) (r : Hamlet) (pg : Page) (f : Fld) : ((Act.hamlet h r).apply s).fld pg f = s.fld pg f := rfl
@[simp] theorem Act.apply_hamlet_bit_ (h : Nat) (r : Hamlet) (pg : Page) (f : Fld) : ((Act.hamlet h r).apply s).bit pg f = s.bit pg f := rfl
@[simp] theorem Act.apply_hamlet_enabled_ (h : Nat) (r : Hamlet) (pg : Page) : ((Act.hamlet h r).apply s).enabled pg = s.enabled pg := rfl
@[simp] theorem Act.apply_hamlet_running_ (h : Nat) (r : Hamlet) (k : Nat) : ((Act.hamlet h r).apply s).running k = s.running k := rfl
@[simp] theorem Act.apply_hamlet_croft_ (h : Nat) (r : Hamlet) (k : Nat) : ((Act.hamlet h r).apply s).croft k = s.croft k := rfl
@[simp] theorem Act.apply_hamlet_reeve_ (h : Nat) (r : Hamlet) (k : Nat) : ((Act.hamlet h r).apply s).reeve k = s.reeve k := rfl
@[simp] theorem Act.apply_hamlet_well_ (h : Nat) (r : Hamlet) (k : Nat) : ((Act.hamlet h r).apply s).well k = s.well k := rfl
@[simp] theorem Act.apply_hamlet_pumpRun_ (h : Nat) (r : Hamlet) (k : Nat) : ((Act.hamlet h r).apply s).pumpRun k = s.pumpRun k := rfl
@[simp] theorem Act.apply_hamlet_queue_ (h : Nat) (r : Hamlet) (k : Nat) : ((Act.hamlet h r).apply s).queue k = s.queue k := rfl
@[simp] theorem Act.apply_hamlet_link_ (h : Nat) (r : Hamlet) (k : Nat) : ((Act.hamlet h r).apply s).link k = s.link k := rfl
@[simp] theorem Act.apply_hamlet_byte_ (h : Nat) (r : Hamlet) (x : Nat) : ((Act.hamlet h r).apply s).byte x = s.byte x := rfl
@[simp] theorem Act.apply_hamlet_underReset_ (h : Nat) (r : Hamlet) (pg : Page) : ((Act.hamlet h r).apply s).underReset pg = s.underReset pg := rfl
@[simp] theorem Act.apply_hamlet_bellNow_ (h : Nat) (r : Hamlet) : ((Act.hamlet h r).apply s).bellNow = s.bellNow := rfl

@[simp] theorem Act.apply_queue_reg_ (q : Nat) (r : Queue) (pg : Page) (x : Nat) : ((Act.queue q r).apply s).reg pg x = s.reg pg x := rfl
@[simp] theorem Act.apply_queue_fld_ (q : Nat) (r : Queue) (pg : Page) (f : Fld) : ((Act.queue q r).apply s).fld pg f = s.fld pg f := rfl
@[simp] theorem Act.apply_queue_bit_ (q : Nat) (r : Queue) (pg : Page) (f : Fld) : ((Act.queue q r).apply s).bit pg f = s.bit pg f := rfl
@[simp] theorem Act.apply_queue_enabled_ (q : Nat) (r : Queue) (pg : Page) : ((Act.queue q r).apply s).enabled pg = s.enabled pg := rfl
@[simp] theorem Act.apply_queue_running_ (q : Nat) (r : Queue) (k : Nat) : ((Act.queue q r).apply s).running k = s.running k := rfl
@[simp] theorem Act.apply_queue_croft_ (q : Nat) (r : Queue) (k : Nat) : ((Act.queue q r).apply s).croft k = s.croft k := rfl
@[simp] theorem Act.apply_queue_reeve_ (q : Nat) (r : Queue) (k : Nat) : ((Act.queue q r).apply s).reeve k = s.reeve k := rfl
@[simp] theorem Act.apply_queue_well_ (q : Nat) (r : Queue) (k : Nat) : ((Act.queue q r).apply s).well k = s.well k := rfl
@[simp] theorem Act.apply_queue_pumpRun_ (q : Nat) (r : Queue) (k : Nat) : ((Act.queue q r).apply s).pumpRun k = s.pumpRun k := rfl
@[simp] theorem Act.apply_queue_hamlet_ (q : Nat) (r : Queue) (k : Nat) : ((Act.queue q r).apply s).hamlet k = s.hamlet k := rfl
@[simp] theorem Act.apply_queue_link_ (q : Nat) (r : Queue) (k : Nat) : ((Act.queue q r).apply s).link k = s.link k := rfl
@[simp] theorem Act.apply_queue_byte_ (q : Nat) (r : Queue) (x : Nat) : ((Act.queue q r).apply s).byte x = s.byte x := rfl
@[simp] theorem Act.apply_queue_underReset_ (q : Nat) (r : Queue) (pg : Page) : ((Act.queue q r).apply s).underReset pg = s.underReset pg := rfl
@[simp] theorem Act.apply_queue_bellNow_ (q : Nat) (r : Queue) : ((Act.queue q r).apply s).bellNow = s.bellNow := rfl

@[simp] theorem Act.apply_queueErase_reg_ (lo hi : Nat) (pg : Page) (x : Nat) : ((Act.queueErase lo hi).apply s).reg pg x = s.reg pg x := rfl
@[simp] theorem Act.apply_queueErase_fld_ (lo hi : Nat) (pg : Page) (f : Fld) : ((Act.queueErase lo hi).apply s).fld pg f = s.fld pg f := rfl
@[simp] theorem Act.apply_queueErase_bit_ (lo hi : Nat) (pg : Page) (f : Fld) : ((Act.queueErase lo hi).apply s).bit pg f = s.bit pg f := rfl
@[simp] theorem Act.apply_queueErase_enabled_ (lo hi : Nat) (pg : Page) : ((Act.queueErase lo hi).apply s).enabled pg = s.enabled pg := rfl
@[simp] theorem Act.apply_queueErase_running_ (lo hi : Nat) (k : Nat) : ((Act.queueErase lo hi).apply s).running k = s.running k := rfl
@[simp] theorem Act.apply_queueErase_croft_ (lo hi : Nat) (k : Nat) : ((Act.queueErase lo hi).apply s).croft k = s.croft k := rfl
@[simp] theorem Act.apply_queueErase_reeve_ (lo hi : Nat) (k : Nat) : ((Act.queueErase lo hi).apply s).reeve k = s.reeve k := rfl
@[simp] theorem Act.apply_queueErase_well_ (lo hi : Nat) (k : Nat) : ((Act.queueErase lo hi).apply s).well k = s.well k := rfl
@[simp] theorem Act.apply_queueErase_pumpRun_ (lo hi : Nat) (k : Nat) : ((Act.queueErase lo hi).apply s).pumpRun k = s.pumpRun k := rfl
@[simp] theorem Act.apply_queueErase_hamlet_ (lo hi : Nat) (k : Nat) : ((Act.queueErase lo hi).apply s).hamlet k = s.hamlet k := rfl
@[simp] theorem Act.apply_queueErase_link_ (lo hi : Nat) (k : Nat) : ((Act.queueErase lo hi).apply s).link k = s.link k := rfl
@[simp] theorem Act.apply_queueErase_byte_ (lo hi : Nat) (x : Nat) : ((Act.queueErase lo hi).apply s).byte x = s.byte x := rfl
@[simp] theorem Act.apply_queueErase_underReset_ (lo hi : Nat) (pg : Page) : ((Act.queueErase lo hi).apply s).underReset pg = s.underReset pg := rfl
@[simp] theorem Act.apply_queueErase_bellNow_ (lo hi : Nat) : ((Act.queueErase lo hi).apply s).bellNow = s.bellNow := rfl

@[simp] theorem Act.apply_link_reg_ (q : Nat) (r : Link) (pg : Page) (x : Nat) : ((Act.link q r).apply s).reg pg x = s.reg pg x := rfl
@[simp] theorem Act.apply_link_fld_ (q : Nat) (r : Link) (pg : Page) (f : Fld) : ((Act.link q r).apply s).fld pg f = s.fld pg f := rfl
@[simp] theorem Act.apply_link_bit_ (q : Nat) (r : Link) (pg : Page) (f : Fld) : ((Act.link q r).apply s).bit pg f = s.bit pg f := rfl
@[simp] theorem Act.apply_link_enabled_ (q : Nat) (r : Link) (pg : Page) : ((Act.link q r).apply s).enabled pg = s.enabled pg := rfl
@[simp] theorem Act.apply_link_running_ (q : Nat) (r : Link) (k : Nat) : ((Act.link q r).apply s).running k = s.running k := rfl
@[simp] theorem Act.apply_link_croft_ (q : Nat) (r : Link) (k : Nat) : ((Act.link q r).apply s).croft k = s.croft k := rfl
@[simp] theorem Act.apply_link_reeve_ (q : Nat) (r : Link) (k : Nat) : ((Act.link q r).apply s).reeve k = s.reeve k := rfl
@[simp] theorem Act.apply_link_well_ (q : Nat) (r : Link) (k : Nat) : ((Act.link q r).apply s).well k = s.well k := rfl
@[simp] theorem Act.apply_link_pumpRun_ (q : Nat) (r : Link) (k : Nat) : ((Act.link q r).apply s).pumpRun k = s.pumpRun k := rfl
@[simp] theorem Act.apply_link_hamlet_ (q : Nat) (r : Link) (k : Nat) : ((Act.link q r).apply s).hamlet k = s.hamlet k := rfl
@[simp] theorem Act.apply_link_queue_ (q : Nat) (r : Link) (k : Nat) : ((Act.link q r).apply s).queue k = s.queue k := rfl
@[simp] theorem Act.apply_link_byte_ (q : Nat) (r : Link) (x : Nat) : ((Act.link q r).apply s).byte x = s.byte x := rfl
@[simp] theorem Act.apply_link_underReset_ (q : Nat) (r : Link) (pg : Page) : ((Act.link q r).apply s).underReset pg = s.underReset pg := rfl
@[simp] theorem Act.apply_link_bellNow_ (q : Nat) (r : Link) : ((Act.link q r).apply s).bellNow = s.bellNow := rfl

@[simp] theorem Act.apply_linkErase_reg_ (lo hi : Nat) (pg : Page) (x : Nat) : ((Act.linkErase lo hi).apply s).reg pg x = s.reg pg x := rfl
@[simp] theorem Act.apply_linkErase_fld_ (lo hi : Nat) (pg : Page) (f : Fld) : ((Act.linkErase lo hi).apply s).fld pg f = s.fld pg f := rfl
@[simp] theorem Act.apply_linkErase_bit_ (lo hi : Nat) (pg : Page) (f : Fld) : ((Act.linkErase lo hi).apply s).bit pg f = s.bit pg f := rfl
@[simp] theorem Act.apply_linkErase_enabled_ (lo hi : Nat) (pg : Page) : ((Act.linkErase lo hi).apply s).enabled pg = s.enabled pg := rfl
@[simp] theorem Act.apply_linkErase_running_ (lo hi : Nat) (k : Nat) : ((Act.linkErase lo hi).apply s).running k = s.running k := rfl
@[simp] theorem Act.apply_linkErase_croft_ (lo hi : Nat) (k : Nat) : ((Act.linkErase lo hi).apply s).croft k = s.croft k := rfl
@[simp] theorem Act.apply_linkErase_reeve_ (lo hi : Nat) (k : Nat) : ((Act.linkErase lo hi).apply s).reeve k = s.reeve k := rfl
@[simp] theorem Act.apply_linkErase_well_ (lo hi : Nat) (k : Nat) : ((Act.linkErase lo hi).apply s).well k = s.well k := rfl
@[simp] theorem Act.apply_linkErase_pumpRun_ (lo hi : Nat) (k : Nat) : ((Act.linkErase lo hi).apply s).pumpRun k = s.pumpRun k := rfl
@[simp] theorem Act.apply_linkErase_hamlet_ (lo hi : Nat) (k : Nat) : ((Act.linkErase lo hi).apply s).hamlet k = s.hamlet k := rfl
@[simp] theorem Act.apply_linkErase_queue_ (lo hi : Nat) (k : Nat) : ((Act.linkErase lo hi).apply s).queue k = s.queue k := rfl
@[simp] theorem Act.apply_linkErase_byte_ (lo hi : Nat) (x : Nat) : ((Act.linkErase lo hi).apply s).byte x = s.byte x := rfl
@[simp] theorem Act.apply_linkErase_underReset_ (lo hi : Nat) (pg : Page) : ((Act.linkErase lo hi).apply s).underReset pg = s.underReset pg := rfl
@[simp] theorem Act.apply_linkErase_bellNow_ (lo hi : Nat) : ((Act.linkErase lo hi).apply s).bellNow = s.bellNow := rfl

@[simp] theorem Act.apply_dev_reg_ (d : Device) (pg : Page) (x : Nat) : ((Act.dev d).apply s).reg pg x = s.reg pg x := rfl
@[simp] theorem Act.apply_dev_fld_ (d : Device) (pg : Page) (f : Fld) : ((Act.dev d).apply s).fld pg f = s.fld pg f := rfl
@[simp] theorem Act.apply_dev_bit_ (d : Device) (pg : Page) (f : Fld) : ((Act.dev d).apply s).bit pg f = s.bit pg f := rfl
@[simp] theorem Act.apply_dev_enabled_ (d : Device) (pg : Page) : ((Act.dev d).apply s).enabled pg = s.enabled pg := rfl
@[simp] theorem Act.apply_dev_running_ (d : Device) (k : Nat) : ((Act.dev d).apply s).running k = s.running k := rfl
@[simp] theorem Act.apply_dev_croft_ (d : Device) (k : Nat) : ((Act.dev d).apply s).croft k = s.croft k := rfl
@[simp] theorem Act.apply_dev_reeve_ (d : Device) (k : Nat) : ((Act.dev d).apply s).reeve k = s.reeve k := rfl
@[simp] theorem Act.apply_dev_well_ (d : Device) (k : Nat) : ((Act.dev d).apply s).well k = s.well k := rfl
@[simp] theorem Act.apply_dev_pumpRun_ (d : Device) (k : Nat) : ((Act.dev d).apply s).pumpRun k = s.pumpRun k := rfl
@[simp] theorem Act.apply_dev_hamlet_ (d : Device) (k : Nat) : ((Act.dev d).apply s).hamlet k = s.hamlet k := rfl
@[simp] theorem Act.apply_dev_queue_ (d : Device) (k : Nat) : ((Act.dev d).apply s).queue k = s.queue k := rfl
@[simp] theorem Act.apply_dev_link_ (d : Device) (k : Nat) : ((Act.dev d).apply s).link k = s.link k := rfl
@[simp] theorem Act.apply_dev_byte_ (d : Device) (x : Nat) : ((Act.dev d).apply s).byte x = s.byte x := rfl

@[simp] theorem Act.apply_out_reg_ (o : Out) (pg : Page) (x : Nat) : ((Act.out o).apply s).reg pg x = s.reg pg x := rfl
@[simp] theorem Act.apply_out_fld_ (o : Out) (pg : Page) (f : Fld) : ((Act.out o).apply s).fld pg f = s.fld pg f := rfl
@[simp] theorem Act.apply_out_bit_ (o : Out) (pg : Page) (f : Fld) : ((Act.out o).apply s).bit pg f = s.bit pg f := rfl
@[simp] theorem Act.apply_out_enabled_ (o : Out) (pg : Page) : ((Act.out o).apply s).enabled pg = s.enabled pg := rfl
@[simp] theorem Act.apply_out_running_ (o : Out) (k : Nat) : ((Act.out o).apply s).running k = s.running k := rfl
@[simp] theorem Act.apply_out_croft_ (o : Out) (k : Nat) : ((Act.out o).apply s).croft k = s.croft k := rfl
@[simp] theorem Act.apply_out_reeve_ (o : Out) (k : Nat) : ((Act.out o).apply s).reeve k = s.reeve k := rfl
@[simp] theorem Act.apply_out_well_ (o : Out) (k : Nat) : ((Act.out o).apply s).well k = s.well k := rfl
@[simp] theorem Act.apply_out_pumpRun_ (o : Out) (k : Nat) : ((Act.out o).apply s).pumpRun k = s.pumpRun k := rfl
@[simp] theorem Act.apply_out_hamlet_ (o : Out) (k : Nat) : ((Act.out o).apply s).hamlet k = s.hamlet k := rfl
@[simp] theorem Act.apply_out_queue_ (o : Out) (k : Nat) : ((Act.out o).apply s).queue k = s.queue k := rfl
@[simp] theorem Act.apply_out_link_ (o : Out) (k : Nat) : ((Act.out o).apply s).link k = s.link k := rfl
@[simp] theorem Act.apply_out_byte_ (o : Out) (x : Nat) : ((Act.out o).apply s).byte x = s.byte x := rfl
@[simp] theorem Act.apply_out_underReset_ (o : Out) (pg : Page) : ((Act.out o).apply s).underReset pg = s.underReset pg := rfl
@[simp] theorem Act.apply_out_bellNow_ (o : Out) : ((Act.out o).apply s).bellNow = s.bellNow := rfl

@[simp] theorem Act.apply_seq_reg_ (pg : Page) (x : Nat) : (Act.seq.apply s).reg pg x = s.reg pg x := rfl
@[simp] theorem Act.apply_seq_fld_ (pg : Page) (f : Fld) : (Act.seq.apply s).fld pg f = s.fld pg f := rfl
@[simp] theorem Act.apply_seq_bit_ (pg : Page) (f : Fld) : (Act.seq.apply s).bit pg f = s.bit pg f := rfl
@[simp] theorem Act.apply_seq_enabled_ (pg : Page) : (Act.seq.apply s).enabled pg = s.enabled pg := rfl
@[simp] theorem Act.apply_seq_running_ (k : Nat) : (Act.seq.apply s).running k = s.running k := rfl
@[simp] theorem Act.apply_seq_croft_ (k : Nat) : (Act.seq.apply s).croft k = s.croft k := rfl
@[simp] theorem Act.apply_seq_reeve_ (k : Nat) : (Act.seq.apply s).reeve k = s.reeve k := rfl
@[simp] theorem Act.apply_seq_well_ (k : Nat) : (Act.seq.apply s).well k = s.well k := rfl
@[simp] theorem Act.apply_seq_pumpRun_ (k : Nat) : (Act.seq.apply s).pumpRun k = s.pumpRun k := rfl
@[simp] theorem Act.apply_seq_hamlet_ (k : Nat) : (Act.seq.apply s).hamlet k = s.hamlet k := rfl
@[simp] theorem Act.apply_seq_queue_ (k : Nat) : (Act.seq.apply s).queue k = s.queue k := rfl
@[simp] theorem Act.apply_seq_link_ (k : Nat) : (Act.seq.apply s).link k = s.link k := rfl
@[simp] theorem Act.apply_seq_byte_ (x : Nat) : (Act.seq.apply s).byte x = s.byte x := rfl
@[simp] theorem Act.apply_seq_underReset_ (pg : Page) : (Act.seq.apply s).underReset pg = s.underReset pg := rfl
@[simp] theorem Act.apply_seq_bellNow_ : (Act.seq.apply s).bellNow = s.bellNow := rfl

theorem Act.apply_croft_croft_at (c k : Nat) (r : Croft) : ((Act.croft c r).apply s).croft k = if k = c then r else s.croft k := by
  simp only [State.croft, Act.apply_croft_crofts, Sparse.get?_set]; split <;> rfl

@[simp] theorem Act.apply_croft_croft_same (c : Nat) (r : Croft) : ((Act.croft c r).apply s).croft c = r := by
  simp [Act.apply_croft_croft_at]

theorem Act.apply_well_well_at (c k : Nat) (r : Well) : ((Act.well c r).apply s).well k = if k = c then r else s.well k := by
  simp only [State.well, Act.apply_well_wells, Sparse.get?_set]; split <;> rfl

@[simp] theorem Act.apply_well_well_same (c : Nat) (r : Well) : ((Act.well c r).apply s).well c = r := by
  simp [Act.apply_well_well_at]

theorem Act.apply_hamlet_hamlet_at (c k : Nat) (r : Hamlet) : ((Act.hamlet c r).apply s).hamlet k = if k = c then r else s.hamlet k := by
  simp only [State.hamlet, Act.apply_hamlet_hamlets, Sparse.get?_set]; split <;> rfl

@[simp] theorem Act.apply_hamlet_hamlet_same (c : Nat) (r : Hamlet) : ((Act.hamlet c r).apply s).hamlet c = r := by
  simp [Act.apply_hamlet_hamlet_at]

theorem Act.apply_queue_queue_at (c k : Nat) (r : Queue) : ((Act.queue c r).apply s).queue k = if k = c then r else s.queue k := by
  simp only [State.queue, Act.apply_queue_queues, Sparse.get?_set]; split <;> rfl

@[simp] theorem Act.apply_queue_queue_same (c : Nat) (r : Queue) : ((Act.queue c r).apply s).queue c = r := by
  simp [Act.apply_queue_queue_at]

theorem Act.apply_link_link_at (c k : Nat) (r : Link) : ((Act.link c r).apply s).link k = if k = c then r else s.link k := by
  simp only [State.link, Act.apply_link_links, Sparse.get?_set]; split <;> rfl

@[simp] theorem Act.apply_link_link_same (c : Nat) (r : Link) : ((Act.link c r).apply s).link c = r := by
  simp [Act.apply_link_link_at]

theorem Act.apply_pump_pumpRun_at (c k : Nat) (r : PumpRun) :
    ((Act.pump c r).apply s).pumpRun k = if k = c then some r else s.pumpRun k := by
  simp only [State.pumpRun, Act.apply_pump_pumps, Sparse.get?_set]

@[simp] theorem Act.apply_pump_pumpRun_same (c : Nat) (r : PumpRun) : ((Act.pump c r).apply s).pumpRun c = some r := by
  simp [Act.apply_pump_pumpRun_at]

@[simp] theorem Act.apply_croft_reeve_same (c : Nat) (r : Croft) : ((Act.croft c r).apply s).reeve c = r.reeve := by
  simp [State.reeve]

theorem Act.apply_bytes_byte (a : Nat) (bs : List Byte) (x : Nat) :
    ((Act.bytes a bs).apply s).byte x = if a ≤ x ∧ x < a + bs.length then bs.getD (x - a) 0 else s.byte x :=
  Memory.read_writeBytes ..

@[simp] theorem Act.apply_dev_underReset_ (d : Device) (p : Page) :
    ((Act.dev d).apply s).underReset p = d.resets.any (fun r => r.grain.covers p) := rfl

/-! ### Page addresses -/

@[simp] theorem pgPlan_base : pgPlan.base = 0x0 := by simp [pgPlan, Page.base]
@[simp] theorem pgDevctl_base : pgDevctl.base = 0x1000 := by simp [pgDevctl, Page.base]
@[simp] theorem pgHost_base : pgHost.base = 0x2000 := by simp [pgHost, Page.base]
@[simp] theorem pgCrier_base : pgCrier.base = 0x3000 := by simp [pgCrier, Page.base]
@[simp] theorem pgOrarn_base : pgOrarn.base = 0x4000 := by simp [pgOrarn, Page.base]
@[simp] theorem pgPower_base : pgPower.base = 0x5000 := by simp [pgPower, Page.base]
@[simp] theorem pgGauge_base : pgGauge.base = 0x6000 := by simp [pgGauge, Page.base]
@[simp] theorem pgNum_base : pgNum.base = 0x7000 := by simp [pgNum, Page.base]
@[simp] theorem pgFabric_base : pgFabric.base = 0x8000 := by simp [pgFabric, Page.base]
@[simp] theorem pgPort_base : pgPort.base = 0x9000 := by simp [pgPort, Page.base]
@[simp] theorem pgBell_base : pgBell.base = 0xA000 := by simp [pgBell, Page.base]
@[simp] theorem pgWindow_base : pgWindow.base = 0xB000 := by simp [pgWindow, Page.base]
@[simp] theorem pgWatch_base : pgWatch.base = 0xE000 := by simp [pgWatch, Page.base]
@[simp] theorem pgBucket_base : pgBucket.base = 0xF000 := by simp [pgBucket, Page.base]
@[simp] theorem pgFeed_base : pgFeed.base = 0x20000 := by simp [pgFeed, Page.base]
@[simp] theorem pgDefect_base : pgDefect.base = 0x21000 := by simp [pgDefect, Page.base]
@[simp] theorem pgLedger_base (g : Nat) : (pgLedger g).base = 0xC000 + g * 0x1000 := by simp [pgLedger, Page.base]
@[simp] theorem pgLink_base (q : Nat) : (pgLink q).base = 0x10000 + q * 0x1000 := by simp [pgLink, Page.base]
@[simp] theorem pgHamlet_base (h : Nat) : (pgHamlet h).base = hamletBase h := by simp [pgHamlet, Page.base]
@[simp] theorem pgGran_base (h : Nat) : (pgGran h).base = hamletBase h + 0x1000 := by simp [pgGran, Page.base]
@[simp] theorem pgCroft_base (c : Nat) : (pgCroft c).base = croftBase c := by simp [pgCroft, Page.base]
@[simp] theorem pgReeve_base (c : Nat) : (pgReeve c).base = croftBase c + 0x1000 := by simp [pgReeve, Page.base]
@[simp] theorem pgMill_base (c : Nat) : (pgMill c).base = croftBase c + 0x2000 := by simp [pgMill, Page.base]
@[simp] theorem pgSluice_base (c : Nat) : (pgSluice c).base = croftBase c + 0x3000 := by simp [pgSluice, Page.base]
@[simp] theorem pgPlumb_base (c : Nat) : (pgPlumb c).base = croftBase c + 0x4000 := by simp [pgPlumb, Page.base]
@[simp] theorem pgTally_base (c : Nat) : (pgTally c).base = croftBase c + 0x5000 := by simp [pgTally, Page.base]
@[simp] theorem pgOwn_base (c : Nat) : (pgOwn c).base = croftBase c + 0xA000 := by simp [pgOwn, Page.base]
@[simp] theorem pgCist_base (c : Nat) : (pgCist c).base = croftBase c + 0xB000 := by simp [pgCist, Page.base]
@[simp] theorem pgPump_base (g : Nat) : (pgPump g).base = croftBase (g / 4) + 0x6000 + (g % 4) * 0x1000 := by simp [pgPump, Page.base]
@[simp] theorem pgWell_base (w : Nat) : (pgWell w).base = croftBase (w / 16) + 0x10000 + (w % 16) * 0x1000 := by simp [pgWell, Page.base]
@[simp] theorem pgQueue_base (q : Nat) : (pgQueue q).base = croftBase (q / 8 / 16) + 0x20000 + (q / 8 % 16) * 0x1000 := by simp [pgQueue, Page.base]

theorem croftBase_eq (c : Nat) : croftBase c = 0x1400000 + (c / 16) * 0x1000000 + (c % 16) * 0x40000 := by
  simp only [croftBase, hamletBase]; omega

theorem hamletBase_eq (h : Nat) : hamletBase h = 0x1000000 + h * 0x1000000 := by simp only [hamletBase]

end Sys2Proof.Machine
end

