-- ==== Sys2Proof/Laws/Keeps.lean ====
section
/-! SUPPORT. Frames: a program whose effects a frame permits keeps everything else; what each shared operation can do. -/
namespace Sys2Proof.Machine

theorem Keeps.refl (T : Touch) (s : State) : Keeps T s s := by constructor <;> intros <;> rfl

theorem Keeps.trans {T : Touch} {s t u : State} (h : Keeps T s t) (k : Keeps T t u) : Keeps T s u where
  pending := k.pending.trans h.pending
  now := k.now.trans h.now
  regs a n := (k.regs a n).trans (h.regs a n)
  mem a n := (k.mem a n).trans (h.mem a n)
  crofts a n := (k.crofts a n).trans (h.crofts a n)
  wells a n := (k.wells a n).trans (h.wells a n)
  pumps a n := (k.pumps a n).trans (h.pumps a n)
  hamlets a n := (k.hamlets a n).trans (h.hamlets a n)
  queues a n := (k.queues a n).trans (h.queues a n)
  links a n := (k.links a n).trans (h.links a n)
  dev n := (k.dev n).trans (h.dev n)
  out n := (k.out n).trans (h.out n)
  seq n := (k.seq n).trans (h.seq n)

/-- A wider frame permits whatever a narrower one does. -/
structure Touch.le (T U : Touch) : Prop where
  regs : ∀ a, T.regs a → U.regs a
  mem : ∀ a, T.mem a → U.mem a
  crofts : ∀ a, T.crofts a → U.crofts a
  wells : ∀ a, T.wells a → U.wells a
  pumps : ∀ a, T.pumps a → U.pumps a
  hamlets : ∀ a, T.hamlets a → U.hamlets a
  queues : ∀ a, T.queues a → U.queues a
  links : ∀ a, T.links a → U.links a
  dev : T.dev → U.dev
  out : T.out → U.out
  seq : T.seq → U.seq

theorem Keeps.mono {T U : Touch} (h : T.le U) {s t : State} (k : Keeps T s t) : Keeps U s t where
  pending := k.pending
  now := k.now
  regs a n := k.regs a fun x => n (h.regs a x)
  mem a n := k.mem a fun x => n (h.mem a x)
  crofts a n := k.crofts a fun x => n (h.crofts a x)
  wells a n := k.wells a fun x => n (h.wells a x)
  pumps a n := k.pumps a fun x => n (h.pumps a x)
  hamlets a n := k.hamlets a fun x => n (h.hamlets a x)
  queues a n := k.queues a fun x => n (h.queues a x)
  links a n := k.links a fun x => n (h.links a x)
  dev n := k.dev fun x => n (h.dev x)
  out n := k.out fun x => n (h.out x)
  seq n := k.seq fun x => n (h.seq x)

theorem record_set {α : Type} (m : List (Nat × α)) (d : α) (k j : Nat) (v : α) (h : j ≠ k) :
    (Sparse.get? (Sparse.set m k v) j).getD d = (Sparse.get? m j).getD d := by rw [Sparse.get?_set_ne _ _ h]

theorem record_erase {α : Type} (m : List (Nat × α)) (d : α) (lo hi j : Nat) (h : ¬ (lo ≤ j ∧ j < hi)) :
    (Sparse.get? (Sparse.eraseRange m lo hi) j).getD d = (Sparse.get? m j).getD d := by rw [Sparse.get?_eraseRange, if_neg h]

theorem Keeps.act {T : Touch} {a : Act} (h : T.allows a) (s : State) : Keeps T s (a.apply s) := by
  cases a <;> constructor <;> intros <;> try rfl
  all_goals simp only [Touch.allows] at h
  · rename_i x v y n; exact Sparse.get?_set_ne _ _ (by rintro rfl; exact n h)
  · rename_i lo hi y n; exact (Sparse.get?_eraseRange ..).trans (if_neg fun k => n (h y k.1 k.2))
  · rename_i x bs y n; rw [Act.apply_bytes_byte, if_neg fun k => n (h y k.1 k.2)]
  · rename_i lo hi y n; exact record_erase _ _ _ _ _ fun k => n (h y k.1 k.2)
  · rename_i x v y n; exact record_set _ _ _ _ _ (by rintro rfl; exact n h)
  · rename_i lo hi y n; exact record_erase _ _ _ _ _ fun k => n (h y k.1 k.2)
  · rename_i x v y n; exact record_set _ _ _ _ _ (by rintro rfl; exact n h)
  · rename_i lo hi y n; exact record_erase _ _ _ _ _ fun k => n (h y k.1 k.2)
  · rename_i x v y n; exact Sparse.get?_set_ne _ _ (by rintro rfl; exact n h)
  · rename_i lo hi y n; exact (Sparse.get?_eraseRange ..).trans (if_neg fun k => n (h y k.1 k.2))
  · rename_i x v y n; exact record_set _ _ _ _ _ (by rintro rfl; exact n h)
  · rename_i x v y n; exact record_set _ _ _ _ _ (by rintro rfl; exact n h)
  · rename_i lo hi y n; exact record_erase _ _ _ _ _ fun k => n (h y k.1 k.2)
  · rename_i x v y n; exact record_set _ _ _ _ _ (by rintro rfl; exact n h)
  · rename_i lo hi y n; exact record_erase _ _ _ _ _ fun k => n (h y k.1 k.2)
  · rename_i d n; exact absurd h n
  · rename_i o n; exact absurd h n
  · rename_i n; exact absurd h n

/-- A program whose effects a frame permits keeps everything else. -/
theorem Prog.keeps {T : Touch} {p : Prog} (h : p.Only T.allows) (s : State) : Keeps T s (p.run s) := by
  induction p generalizing s with
  | done => exact Keeps.refl T s
  | act a k ih => exact (Keeps.act h.1 s).trans (ih h.2 _)
  | get f ih => exact ih s (h s) s

/-! ### What the shared operations can do -/

variable {P : Act → Prop}

theorem setReg_only (p : Page) (o : Nat) (v : Word) : (setReg p o v).Only P ↔ P (.reg (p.base + o) v) := by simp [setReg]

theorem setFld_only {p : Page} {f : Fld} (h : ∀ w, P (.reg (p.base + f.off) w)) (v : Nat) : (setFld p f v).Only P :=
  fun _ => (setReg_only ..).2 (h _)

theorem setBit_only {p : Page} {f : Fld} (h : ∀ w, P (.reg (p.base + f.off) w)) (b : Bool) : (setBit p f b).Only P :=
  setFld_only h _

theorem bumpBy_only {p : Page} {f : Fld} (h : ∀ w, P (.reg (p.base + f.off) w)) (n : Nat) : (bumpBy p f n).Only P :=
  fun _ => (setReg_only ..).2 (h _)

theorem bump_only {p : Page} {f : Fld} (h : ∀ w, P (.reg (p.base + f.off) w)) : (bump p f).Only P := bumpBy_only h 1

theorem ignored_only {p : Page} (h : ∀ w, P (.reg (p.base + 0x024) w)) : (ignored p).Only P := bump_only (f := R.IGNORED_CNT) h

theorem raiseLine_only {p : Page} (h : ∀ w, P (.reg (p.base + R.CRIER_LINE_RAISED.off) w)) : (raiseLine p).Only P := by
  intro s
  show Prog.Only P (if _ then _ else _)
  split
  · trivial
  · exact setFld_only h _

theorem faultRecord_only {p : Page} (h : ∀ o w, o < 0x1000 → P (.reg (p.base + o) w)) (cause addr : Nat) :
    (faultRecord p cause addr).Only P := by
  simp only [faultRecord, Prog.only_all_cons, Prog.only_all_nil, and_true]
  exact ⟨setFld_only (fun w => h _ w (by decide)) _, (setReg_only ..).2 (h _ _ (by decide)), (setReg_only ..).2 (h _ _ (by decide)),
    (setReg_only ..).2 (h _ _ (by decide))⟩

theorem pageFault_only {p : Page} (h : ∀ o w, o < 0x1000 → P (.reg (p.base + o) w)) (cause addr : Nat) :
    (pageFault p cause addr).Only P := by
  intro s
  show Prog.Only P (if _ then _ else _)
  split
  · trivial
  · exact faultRecord_only h _ _

theorem pageReset_only (p : Page) : (pageReset p).Only P ↔ P (.regsErase p.base (p.base + 0x1000)) := by simp [pageReset]

theorem latchBell_only {p : Page} {lo hi : Fld} (h : ∀ w, P (.reg (p.base + lo.off) w)) (k : ∀ w, P (.reg (p.base + hi.off) w)) :
    (latchBell p lo hi).Only P := by
  intro s
  simp only [Prog.only_all_cons, Prog.only_all_nil, and_true]
  exact ⟨(setReg_only ..).2 (h _), (setReg_only ..).2 (k _)⟩

theorem modCroft_only {c : Nat} (h : ∀ r, P (.croft c r)) (f : Croft → Croft) : (modCroft c f).Only P :=
  fun _ => (Prog.only_eff _).2 (h _)
theorem modReeve_only {c : Nat} (h : ∀ r, P (.croft c r)) (f : Reeve → Reeve) : (modReeve c f).Only P := modCroft_only h _
theorem modWell_only {w : Nat} (h : ∀ r, P (.well w r)) (f : Well → Well) : (modWell w f).Only P :=
  fun _ => (Prog.only_eff _).2 (h _)
theorem modPump_only {p : Nat} (h : ∀ r, P (.pump p r)) (f : PumpRun → PumpRun) : (modPump p f).Only P := by
  intro s
  show Prog.Only P (match s.pumpRun p with | some r => eff (.pump p (f r)) | none => .done)
  cases s.pumpRun p
  · trivial
  · exact (Prog.only_eff _).2 (h _)
theorem modHamlet_only {k : Nat} (h : ∀ r, P (.hamlet k r)) (f : Hamlet → Hamlet) : (modHamlet k f).Only P :=
  fun _ => (Prog.only_eff _).2 (h _)
theorem modQueue_only {q : Nat} (h : ∀ r, P (.queue q r)) (f : Queue → Queue) : (modQueue q f).Only P :=
  fun _ => (Prog.only_eff _).2 (h _)
theorem modLink_only {q : Nat} (h : ∀ r, P (.link q r)) (f : Link → Link) : (modLink q f).Only P :=
  fun _ => (Prog.only_eff _).2 (h _)
theorem modDev_only (h : ∀ d, P (.dev d)) (f : Device → Device) : (modDev f).Only P :=
  fun _ => (Prog.only_eff _).2 (h _)
theorem emit_only (o : Out) : (emit o).Only P ↔ P (.out o) := by simp [emit]

/-- While memory holds its code words a store writes its bytes and does nothing else. -/
theorem store_run {s : State} (h : s.intact = true) (src : Option Source) (a : Nat) (bs : List Byte) :
    (store src a bs).run s = (Act.bytes a bs).apply s := by
  show Prog.run (if s.intact then eff (.bytes a bs) else _) s = _
  rw [if_pos h]
  rfl

theorem storeLe_run {s : State} (h : s.intact = true) (src : Option Source) (a n v : Nat) :
    (storeLe src a n v).run s = (Act.bytes a (toLe n v)).apply s := store_run h src a _

/-- While memory holds its code words a read finds nothing to correct. -/
theorem readBy_run {s : State} (h : s.intact = true) (src : Option Source) (a n : Nat) : (readBy src a n).run s = s := by
  show Prog.run (if s.intact then .done else _) s = _
  rw [if_pos h]
  rfl

theorem readAll_run {s : State} (h : s.intact = true) (src : Option Source) (rs : List (Nat × Nat)) : (readAll src rs).run s = s := by
  show Prog.run (if s.intact then .done else _) s = _
  rw [if_pos h]
  rfl

/-- While memory holds its code words no access meets an uncorrectable one. -/
theorem deadAt_intact {s : State} (h : s.intact = true) (a n : Nat) : s.deadAt a n = false := by
  simp only [State.intact, Bool.and_eq_true, List.isEmpty_iff] at h
  simp [State.deadAt, h.1.1.1.2, h.1.2]

theorem stepEnds_only (h : ∀ d, P (.dev d)) : stepEnds.Only P := modDev_only h _
theorem tellWatch_only (i : Nat) (h : ∀ d, P (.dev d)) : (tellWatch i).Only P := modDev_only h _

theorem haltReq_only {c : Nat} (reason : Nat) (hr : ∀ w, P (.reg ((pgReeve c).base + R.reeve_STATUS_RUNNING.off) w))
    (hc : ∀ r, P (.croft c r)) : (haltReq c reason).Only P := by
  intro s
  show Prog.Only P (if _ then _ else _)
  split
  · trivial
  · split
    · exact setFld_only (f := R.reeve_STATUS_MORE) hr _
    · simp only [Prog.only_all_cons, Prog.only_all_nil, and_true]
      exact ⟨setFld_only (f := R.reeve_STATUS_HALT_REASON) hr _, modReeve_only hc _⟩

theorem orderHalt_only {c : Nat} (idx engine : Nat) (hr : ∀ o w, o < 0x1000 → P (.reg ((pgReeve c).base + o) w))
    (hc : ∀ r, P (.croft c r)) (hd : ∀ d, P (.dev d)) : (orderHalt c idx engine).Only P := by
  simp only [orderHalt, Prog.only_all_cons, Prog.only_all_nil, and_true]
  exact ⟨setFld_only (fun w => hr _ w (by decide)) _, setFld_only (fun w => hr _ w (by decide)) _,
    haltReq_only _ (fun w => hr _ w (by decide)) hc, stepEnds_only hd⟩

theorem orderFault_only {c : Nat} (idx engine : Nat) (hr : ∀ o w, o < 0x1000 → P (.reg ((pgReeve c).base + o) w))
    (hc : ∀ r, P (.croft c r)) (hd : ∀ d, P (.dev d)) : (orderFault c idx engine).Only P := by
  simp only [orderFault, Prog.only_all_cons, Prog.only_all_nil, and_true]
  exact ⟨orderHalt_only _ _ hr hc hd, tellWatch_only _ hd⟩

theorem reeveFault_only {c : Nat} (cause idx addr : Nat) (hr : ∀ o w, o < 0x1000 → P (.reg ((pgReeve c).base + o) w))
    (hc : ∀ r, P (.croft c r)) (hd : ∀ d, P (.dev d)) : (reeveFault c cause idx addr).Only P := by
  simp only [reeveFault, Prog.only_all_cons, Prog.only_all_nil, and_true]
  exact ⟨pageFault_only hr _ _, raiseLine_only (fun w => hr _ w (by decide)), orderFault_only _ _ hr hc hd⟩

theorem dropOrder_only {c : Nat} (serial : Nat) (hc : ∀ r, P (.croft c r)) : (dropOrder c serial).Only P := modReeve_only hc _

end Sys2Proof.Machine
end

