-- ==== Sys2Proof/Laws/Gate.lean ====
section
/-! SUPPORT. Register commands at the gate: a write that reaches its page runs its effect, and what an ignored write, a raised line and a
page fault leave. -/
namespace Sys2Proof.Machine

theorem regWrite_reaches {s : State} {who : Agent} {p : Page} (h : s.reaches who p) (o : Nat) (k : Prog) :
    (regWrite who p o k).run s = k.run s := by
  obtain ⟨h1, h2⟩ := h
  simp only [regWrite, Prog.run_get, h1, Bool.false_eq_true, if_false]
  split
  · rename_i h3
    simp only [Bool.and_eq_true, bne_iff_ne] at h3
    exact absurd (h2 h3.1) h3.2
  · rfl

theorem regWrite_shut {s : State} {who : Agent} {p : Page} (h : s.shut who p = true) (o : Nat) (k : Prog) :
    (regWrite who p o k).run s = (hostEnd 0 endAbs true (p.base + o)).run s := by
  simp only [regWrite, Prog.run_get, h, if_true]

theorem regWrite_underReset {s : State} {who : Agent} {p : Page} (h : s.shut who p = false) (k : s.underReset p = true)
    (hp : p ≠ pgDevctl) (o : Nat) (q : Prog) : (regWrite who p o q).run s = (ignored p).run s := by
  simp [regWrite, h, k, hp]

theorem regRead_reaches {s : State} {who : Agent} {p : Page} (h : s.reaches who p) (o : Nat) (k : Prog) :
    (regRead who p o k).run s = k.run s := by
  obtain ⟨h1, h2⟩ := h
  simp only [regRead, Prog.run_get, h1, Bool.false_eq_true, if_false]
  split
  · rename_i h3
    simp only [Bool.and_eq_true, bne_iff_ne] at h3
    exact absurd (h2 h3.1) h3.2
  · rfl

/-- A counter's bump advances it and nothing else. -/
theorem bumpBy_run (p : Page) (f : Fld) (n : Nat) (s : State) :
    Counts s ((bumpBy p f n).run s) p f n ∧ Keeps { regs := theRegs p [f] } s ((bumpBy p f n).run s) := by
  constructor
  · simp [Counts, bumpBy, setReg, State.reg_apply_reg]
  · exact Prog.keeps (bumpBy_only (fun w => ⟨f, by simp, rfl⟩) n) s

theorem ignored_run (p : Page) (s : State) : Ignored s ((ignored p).run s) p := bumpBy_run p R.IGNORED_CNT 1 s

theorem raiseLine_run (p : Page) (s : State) :
    (s.underReset p = true → (raiseLine p).run s = s) ∧
    (s.underReset p = false → ((raiseLine p).run s).bit p R.CRIER_LINE_RAISED = true) ∧
    Keeps { regs := theRegs p [R.CRIER_LINE_RAISED] } s ((raiseLine p).run s) := by
  refine ⟨fun h => ?_, fun h => ?_, ?_⟩
  · simp [raiseLine, h]
  · simp [raiseLine, h, setFld, setReg, State.bit, State.fld_apply_reg, Fld.of_insert_same]
  · exact Prog.keeps (T := { regs := theRegs p [R.CRIER_LINE_RAISED] }) (raiseLine_only fun w => ⟨R.CRIER_LINE_RAISED, by simp, rfl⟩) s

theorem setFld_run (p : Page) (f : Fld) (v : Nat) (s : State) :
    ((setFld p f v).run s).reg p f.off = f.insert (s.reg p f.off) v ∧ Keeps { regs := theRegs p [f] } s ((setFld p f v).run s) := by
  constructor
  · simp [setFld, setReg, State.reg_apply_reg]
  · exact Prog.keeps (setFld_only (fun w => ⟨f, by simp, rfl⟩) v) s

end Sys2Proof.Machine
end

