-- ==== Sys2Proof/Laws/PerInstr.lean ====
section
/-! SUPPORT. What holds of every row as syntax, row by row: the opcode table gives no row any bits, so no table word spells it. -/
namespace Sys2Proof.Laws.Rows

/-- No word of the opcode table spells the row. -/
def Statement (i : Instr) : Prop := ∀ nbits w, decodeTableWord nbits w ≠ some i

/-- The decoder finds no row in any word. -/
theorem none_spelled (i : Instr) : Statement i := fun _ _ h => by simp [decodeTableWord] at h

theorem nop (c : CroftId) : Statement (.nop c) := none_spelled _
theorem halt (c : CroftId) : Statement (.halt c) := none_spelled _
theorem fence (c : CroftId) : Statement (.fence c) := none_spelled _
theorem layerFenceOpen (c : CroftId) : Statement (.layerFenceOpen c) := none_spelled _
theorem layerFenceClose (c : CroftId) : Statement (.layerFenceClose c) := none_spelled _
theorem stepFence (c : CroftId) : Statement (.stepFence c) := none_spelled _
theorem loop (c : CroftId) : Statement (.loop c) := none_spelled _
theorem tokenWait (c : CroftId) : Statement (.tokenWait c) := none_spelled _
theorem tokenSignal (c : CroftId) : Statement (.tokenSignal c) := none_spelled _
theorem bellAbs (c : CroftId) : Statement (.bellAbs c) := none_spelled _
theorem bellRel (c : CroftId) : Statement (.bellRel c) := none_spelled _
theorem seed (c : CroftId) : Statement (.seed c) := none_spelled _
theorem seedLoad (c : CroftId) : Statement (.seedLoad c) := none_spelled _
theorem load (c : CroftId) : Statement (.load c) := none_spelled _
theorem draw (c : CroftId) : Statement (.draw c) := none_spelled _
theorem plumbWindow (c : CroftId) : Statement (.plumbWindow c) := none_spelled _
theorem plumbSound (c : CroftId) : Statement (.plumbSound c) := none_spelled _
theorem pump (c : CroftId) : Statement (.pump c) := none_spelled _
theorem smaxBwd (c : CroftId) : Statement (.smaxBwd c) := none_spelled _
theorem normBwdRms (c : CroftId) : Statement (.normBwdRms c) := none_spelled _
theorem normBwdLayer (c : CroftId) : Statement (.normBwdLayer c) := none_spelled _
theorem add (c : CroftId) (st : Stage) : Statement (.add c st) := none_spelled _
theorem mul (c : CroftId) (st : Stage) : Statement (.mul c st) := none_spelled _
theorem fma (c : CroftId) (st : Stage) : Statement (.fma c st) := none_spelled _
theorem axpby (c : CroftId) (st : Stage) : Statement (.axpby c st) := none_spelled _
theorem relu (c : CroftId) (st : Stage) : Statement (.relu c st) := none_spelled _
theorem gelu (c : CroftId) (st : Stage) : Statement (.gelu c st) := none_spelled _
theorem silu (c : CroftId) (st : Stage) : Statement (.silu c st) := none_spelled _
theorem exp (c : CroftId) (st : Stage) : Statement (.exp c st) := none_spelled _
theorem log (c : CroftId) (st : Stage) : Statement (.log c st) := none_spelled _
theorem recip (c : CroftId) (st : Stage) : Statement (.recip c st) := none_spelled _
theorem sqrt (c : CroftId) (st : Stage) : Statement (.sqrt c st) := none_spelled _
theorem rsqrt (c : CroftId) (st : Stage) : Statement (.rsqrt c st) := none_spelled _
theorem div (c : CroftId) (st : Stage) : Statement (.div c st) := none_spelled _
theorem rsum (c : CroftId) (st : Stage) : Statement (.rsum c st) := none_spelled _
theorem rmax (c : CroftId) (st : Stage) : Statement (.rmax c st) := none_spelled _
theorem rdot (c : CroftId) (st : Stage) : Statement (.rdot c st) := none_spelled _
theorem normFwdRms (c : CroftId) (st : Stage) : Statement (.normFwdRms c st) := none_spelled _
theorem normFwdLayer (c : CroftId) (st : Stage) : Statement (.normFwdLayer c st) := none_spelled _
theorem smaxFwd (c : CroftId) (st : Stage) : Statement (.smaxFwd c st) := none_spelled _
theorem combine (c : CroftId) (st : Stage) : Statement (.combine c st) := none_spelled _
theorem topk (c : CroftId) (st : Stage) : Statement (.topk c st) := none_spelled _
theorem convert (c : CroftId) (st : Stage) : Statement (.convert c st) := none_spelled _
theorem optSgd (c : CroftId) (st : Stage) : Statement (.optSgd c st) := none_spelled _
theorem optMomentum (c : CroftId) (st : Stage) : Statement (.optMomentum c st) := none_spelled _
theorem optAdam (c : CroftId) (st : Stage) : Statement (.optAdam c st) := none_spelled _
theorem wellImage (c : CroftId) (st : Stage) : Statement (.wellImage c st) := none_spelled _
theorem tallyFlush (c : CroftId) : Statement (.tallyFlush c) := none_spelled _
theorem tallyClear (c : CroftId) : Statement (.tallyClear c) := none_spelled _
theorem tallyCompare (c : CroftId) (st : Stage) : Statement (.tallyCompare c st) := none_spelled _
theorem sluice (c : CroftId) : Statement (.sluice c) := none_spelled _
theorem chunkFetchDone (c : CroftId) (n : Nat) (flips : List (Nat × Byte)) : Statement (.chunkFetchDone c n flips) := none_spelled _
theorem orderStart (c : CroftId) (k : Nat) : Statement (.orderStart c k) := none_spelled _
theorem loadPassEnd (w : WellId) (cells : List (Nat × Nat × Int)) : Statement (.loadPassEnd w cells) := none_spelled _
theorem retentionLimit (w : WellId) : Statement (.retentionLimit w) := none_spelled _
theorem drawSlotStart (w : WellId) : Statement (.drawSlotStart w) := none_spelled _
theorem drawSliceEnd (w : WellId) (codes : List (List Int)) : Statement (.drawSliceEnd w codes) := none_spelled _
theorem drawQuarterEnd (w : WellId) (codes : List (List Int)) : Statement (.drawQuarterEnd w codes) := none_spelled _
theorem drawPromotionEnd (w : WellId) : Statement (.drawPromotionEnd w) := none_spelled _
theorem leatMergeStart (c : CroftId) : Statement (.leatMergeStart c) := none_spelled _
theorem leatMergeEnd (c : CroftId) : Statement (.leatMergeEnd c) := none_spelled _
theorem windowEnd (c : CroftId) (ts : List (Nat × Nat × Int)) : Statement (.windowEnd c ts) := none_spelled _
theorem trimCommit (w : WellId) : Statement (.trimCommit w) := none_spelled _
theorem soundingEnd (c : CroftId) (sums : List (Nat × List Int)) : Statement (.soundingEnd c sums) := none_spelled _
theorem calDue (w : WellId) : Statement (.calDue w) := none_spelled _
theorem overdue (w : WellId) (sound : Bool) : Statement (.overdue w sound) := none_spelled _
theorem plumbAutoStart (c : CroftId) : Statement (.plumbAutoStart c) := none_spelled _
theorem tempStale (c : CroftId) : Statement (.tempStale c) := none_spelled _
theorem escPartStart (c : CroftId) : Statement (.escPartStart c) := none_spelled _
theorem escPartEnd (c : CroftId) : Statement (.escPartEnd c) := none_spelled _
theorem pumpChunkEnd (p : PumpId) : Statement (.pumpChunkEnd p) := none_spelled _
theorem pumpConversionEnd (p : PumpId) : Statement (.pumpConversionEnd p) := none_spelled _
theorem pumpRetryEnd (p : PumpId) : Statement (.pumpRetryEnd p) := none_spelled _
theorem epilogueTile (p : PumpId) : Statement (.epilogueTile p) := none_spelled _
theorem millOrderEnd (c : CroftId) : Statement (.millOrderEnd c) := none_spelled _
theorem millStretchEnd (c : CroftId) : Statement (.millStretchEnd c) := none_spelled _
theorem fenceComplete (c : CroftId) : Statement (.fenceComplete c) := none_spelled _
theorem tokenWaitComplete (c : CroftId) : Statement (.tokenWaitComplete c) := none_spelled _
theorem tokenSignalArrival (k : Nat) : Statement (.tokenSignalArrival k) := none_spelled _
theorem pendingSignalSend (c : CroftId) : Statement (.pendingSignalSend c) := none_spelled _
theorem bellWaitComplete (c : CroftId) : Statement (.bellWaitComplete c) := none_spelled _
theorem haltComplete (c : CroftId) : Statement (.haltComplete c) := none_spelled _
theorem croftHalted (c : CroftId) : Statement (.croftHalted c) := none_spelled _
theorem watchdogExpiry (c : CroftId) : Statement (.watchdogExpiry c) := none_spelled _
theorem stepReport (c : CroftId) : Statement (.stepReport c) := none_spelled _
theorem stepBarrierRelease : Statement (.stepBarrierRelease) := none_spelled _
theorem tallyContribution (k : Nat) : Statement (.tallyContribution k) := none_spelled _
theorem tallyVerdict (g : Fin 16) : Statement (.tallyVerdict g) := none_spelled _
theorem haltMessage (l : LinkId) (origin : BitVec 14) (b : BitVec 32) : Statement (.haltMessage l origin b) := none_spelled _
theorem stepRepeat : Statement (.stepRepeat) := none_spelled _
theorem reeveRestart (c : CroftId) (idx : BitVec 24) : Statement (.reeveRestart c idx) := none_spelled _
theorem reeveHaltRequest (c : CroftId) : Statement (.reeveHaltRequest c) := none_spelled _
theorem cleanRestart (c : CroftId) (idx : BitVec 24) : Statement (.cleanRestart c idx) := none_spelled _
theorem clkMultWrite (c : CroftId) (v : Word) : Statement (.clkMultWrite c v) := none_spelled _
theorem relockDone (c : CroftId) : Statement (.relockDone c) := none_spelled _
theorem laneFlitHop (link : Bool) (n : Fin 28) (share : Fin 16) (c : CroftId) : Statement (.laneFlitHop link n share c) := none_spelled _
theorem laneFlitCrcFail (ch : Fin 14) (dir : Fin 2) (again : Bool) : Statement (.laneFlitCrcFail ch dir again) := none_spelled _
theorem cisternRead (c : CroftId) (off : BitVec 28) (len : Fin 257) (src : Source) (flips : List (Fin 33 × BitVec 72)) : Statement (.cisternRead c off len src flips) := none_spelled _
theorem cisternWrite (c : CroftId) (off : BitVec 28) (bs : List Byte) (src : Source) (rival : Option Source) (flips : List (Fin 33 × BitVec 72)) : Statement (.cisternWrite c off bs src rival flips) := none_spelled _
theorem scrubStripe (c : CroftId) (flips : List (Fin 16 × Fin 33 × BitVec 72)) : Statement (.scrubStripe c flips) := none_spelled _
theorem granaryRead (h : HamletId) (g : Fin 1073741824) (src : Source) (parity : Bool) (onDie : Nat) (flips : List (Fin 68 × Byte)) : Statement (.granaryRead h g src parity onDie flips) := none_spelled _
theorem granaryRereadDone (h : HamletId) (b : StackRead) : Statement (.granaryRereadDone h b) := none_spelled _
theorem granaryWrite (h : HamletId) (a : Fin 68719476736) (bs : List Byte) (src : Source) (b : StackRead) : Statement (.granaryWrite h a bs src b) := none_spelled _
theorem writeParityReport (h : HamletId) (g : Fin 1073741824) : Statement (.writeParityReport h g) := none_spelled _
theorem granaryRefresh (h : HamletId) (rfm : Bool) : Statement (.granaryRefresh h rfm) := none_spelled _
theorem granaryTempReadout (h : HamletId) (t : Option Byte) : Statement (.granaryTempReadout h t) := none_spelled _
theorem granaryScrub (h : HamletId) (b : StackRead) : Statement (.granaryScrub h b) := none_spelled _
theorem granaryCmdTimeout (h : HamletId) (a : Fin 68719476736) : Statement (.granaryCmdTimeout h a) := none_spelled _
theorem doorbell (q : QueueId) (who : Ringer) (count : BitVec 16) : Statement (.doorbell q who count) := none_spelled _
theorem descriptorStart (q : QueueId) : Statement (.descriptorStart q) := none_spelled _
theorem descriptorNop (q : QueueId) : Statement (.descriptorNop q) := none_spelled _
theorem copy (q : QueueId) : Statement (.copy q) := none_spelled _
theorem fill (q : QueueId) : Statement (.fill q) := none_spelled _
theorem epoch (q : QueueId) : Statement (.epoch q) := none_spelled _
theorem sluiceSlotCycle (c : CroftId) (cyc : Fin 16) (turn : Fin 4) : Statement (.sluiceSlotCycle c cyc turn) := none_spelled _
theorem segTimeout (q : QueueId) (idx : BitVec 32) (seg : Fin 64) : Statement (.segTimeout q idx seg) := none_spelled _
theorem epochWaitEnd (q : QueueId) : Statement (.epochWaitEnd q) := none_spelled _
theorem queueRestart (q : QueueId) : Statement (.queueRestart q) := none_spelled _
theorem advanceEpoch (q : QueueId) : Statement (.advanceEpoch q) := none_spelled _
theorem incarnationWindowEnd (c : CroftId) : Statement (.incarnationWindowEnd c) := none_spelled _
theorem drainEnd (g : GrainId) : Statement (.drainEnd g) := none_spelled _
theorem frameSend (l : LinkId) : Statement (.frameSend l) := none_spelled _
theorem frameReceive (l : LinkId) (a : List (List (BitVec 2))) (b : List (List (BitVec 2))) (c : List (List (BitVec 2))) (d : List (List (BitVec 2))) (fixes : List (Fin 5376 × Byte)) (flagged : List (Fin 24)) : Statement (.frameReceive l a b c d fixes flagged) := none_spelled _
theorem replayTimeout (l : LinkId) (ctrl : Bool) : Statement (.replayTimeout l ctrl) := none_spelled _
theorem retrainStart (l : LinkId) : Statement (.retrainStart l) := none_spelled _
theorem linkUp (l : LinkId) (dev : BitVec 14) (far : LinkId) (vidx : BitVec 4) (reversed : Bool) (polarity : BitVec 12) (ack : BitVec 32) (cack : BitVec 8) : Statement (.linkUp l dev far vidx reversed polarity ack cack) := none_spelled _
theorem retrainTimeout (l : LinkId) : Statement (.retrainTimeout l) := none_spelled _
theorem linkRetrain (l : LinkId) : Statement (.linkRetrain l) := none_spelled _
theorem linkTakeDown (l : LinkId) : Statement (.linkTakeDown l) := none_spelled _
theorem qrefLoss (g : Fin 2) : Statement (.qrefLoss g) := none_spelled _
theorem write (l : LinkId) (k : Nat) : Statement (.write l k) := none_spelled _
theorem readReq (l : LinkId) (k : Nat) : Statement (.readReq l k) := none_spelled _
theorem readResp (l : LinkId) (k : Nat) : Statement (.readResp l k) := none_spelled _
theorem reasmTimeout (l : LinkId) (k : Nat) : Statement (.reasmTimeout l k) := none_spelled _
theorem segAck (k : Nat) : Statement (.segAck k) := none_spelled _
theorem signal (k : Nat) : Statement (.signal k) := none_spelled _
theorem sync (k : Nat) (ago : Nat) (ahead : Nat) : Statement (.sync k ago ahead) := none_spelled _
theorem delayReq (k : Nat) (ago : Nat) : Statement (.delayReq k ago) := none_spelled _
theorem delayResp (k : Nat) : Statement (.delayResp k) := none_spelled _
theorem coarse (k : Nat) : Statement (.coarse k) := none_spelled _
theorem bellPeriod (ahead : Nat) : Statement (.bellPeriod ahead) := none_spelled _
theorem bellExchangeMiss (l : LinkId) : Statement (.bellExchangeMiss l) := none_spelled _
theorem bellCopyCheck (diff : Nat) : Statement (.bellCopyCheck diff) := none_spelled _
theorem holdoverLimit : Statement (.holdoverLimit) := none_spelled _
theorem bellPps : Statement (.bellPps) := none_spelled _
theorem bellTod : Statement (.bellTod) := none_spelled _
theorem watchEvent (k : Nat) : Statement (.watchEvent k) := none_spelled _
theorem watchDecay : Statement (.watchDecay) := none_spelled _
theorem watchSample (tj : Int) (shift : Nat) : Statement (.watchSample tj shift) := none_spelled _
theorem snapReq (l : LinkId) (origin : BitVec 14) (b : BitVec 32) : Statement (.snapReq l origin b) := none_spelled _
theorem alarm (l : LinkId) (origin : BitVec 14) (b : BitVec 32) (abandoned : Bool) : Statement (.alarm l origin b abandoned) := none_spelled _
theorem stewardStepEnd : Statement (.stewardStepEnd) := none_spelled _
theorem bucketPailCopy : Statement (.bucketPailCopy) := none_spelled _
theorem bucketTouchRelease : Statement (.bucketTouchRelease) := none_spelled _
theorem bucketPailTimeout (k : Nat) : Statement (.bucketPailTimeout k) := none_spelled _
theorem bucketCommit : Statement (.bucketCommit) := none_spelled _
theorem commitAck : Statement (.commitAck) := none_spelled _
theorem bucketRequest : Statement (.bucketRequest) := none_spelled _
theorem bucketLocal (slot : Fin 2) : Statement (.bucketLocal slot) := none_spelled _
theorem bucketServe (slot : Fin 2) : Statement (.bucketServe slot) := none_spelled _
theorem bucketAccept (slot : Fin 2) : Statement (.bucketAccept slot) := none_spelled _
theorem bucketAbort : Statement (.bucketAbort) := none_spelled _
theorem restoreDone : Statement (.restoreDone) := none_spelled _
theorem residueMismatch (c : CroftId) (u : Fin 6) : Statement (.residueMismatch c u) := none_spelled _
theorem stewardWdogRestart : Statement (.stewardWdogRestart) := none_spelled _
theorem stewardWdogExpiry : Statement (.stewardWdogExpiry) := none_spelled _
theorem hostBar2Read (o : BitVec 40) (n : Nat) (ide : Bool) (far : FarAnswer) : Statement (.hostBar2Read o n ide far) := none_spelled _
theorem hostBar2Write (o : BitVec 40) (bs : List Byte) (ide : Bool) (far : FarAnswer) : Statement (.hostBar2Write o bs ide far) := none_spelled _
theorem hostAccessTimeout (k : Nat) : Statement (.hostAccessTimeout k) := none_spelled _
theorem pcieConfigRequest (r : ConfigReq) : Statement (.pcieConfigRequest r) := none_spelled _
theorem msixVectorControl (v : Fin 64) (dw : Fin 4) (x : Word) (ide : Bool) : Statement (.msixVectorControl v dw x ide) := none_spelled _
theorem linkRateChange (rate : Fin 7) (width : Fin 9) (flit : Bool) : Statement (.linkRateChange rate width flit) := none_spelled _
theorem ideStreamExit : Statement (.ideStreamExit) := none_spelled _
theorem mailboxDoorbell (seq : Word) (ide : Bool) : Statement (.mailboxDoorbell seq ide) := none_spelled _
theorem getInfo : Statement (.getInfo) := none_spelled _
theorem setPowerState : Statement (.setPowerState) := none_spelled _
theorem getCert : Statement (.getCert) := none_spelled _
theorem getAttestation (keyOk : Bool) : Statement (.getAttestation keyOk) := none_spelled _
theorem measurePlan : Statement (.measurePlan) := none_spelled _
theorem fwUpdate : Statement (.fwUpdate) := none_spelled _
theorem readDefects : Statement (.readDefects) := none_spelled _
theorem readDigests : Statement (.readDigests) := none_spelled _
theorem readFaults : Statement (.readFaults) := none_spelled _
theorem getVersion : Statement (.getVersion) := none_spelled _
theorem getCapabilities : Statement (.getCapabilities) := none_spelled _
theorem negotiateAlgorithms : Statement (.negotiateAlgorithms) := none_spelled _
theorem getDigests : Statement (.getDigests) := none_spelled _
theorem getCertificate (slot : Fin 8) : Statement (.getCertificate slot) := none_spelled _
theorem challenge (nonce : BitVec 256) (keyOk : Bool) : Statement (.challenge nonce keyOk) := none_spelled _
theorem getMeasurements (index : BitVec 8) (keyOk : Bool) : Statement (.getMeasurements index keyOk) := none_spelled _
theorem keyExchange (keyOk : Bool) : Statement (.keyExchange keyOk) := none_spelled _
theorem finish : Statement (.finish) := none_spelled _
theorem ideKeyManagement (stream : Fin 5) : Statement (.ideKeyManagement stream) := none_spelled _
theorem crierSourceRequest (n : BitVec 11) : Statement (.crierSourceRequest n) := none_spelled _
theorem crierSourceWithdraw (n : BitVec 11) : Statement (.crierSourceWithdraw n) := none_spelled _
theorem crierClaim (t : Option (Fin 64)) : Statement (.crierClaim t) := none_spelled _
theorem crierComplete (t : Option (Fin 64)) (v : Word) : Statement (.crierComplete t v) := none_spelled _
theorem routeDataWrite (who : Agent) (v : Word) : Statement (.routeDataWrite who v) := none_spelled _
theorem pendWrite (who : Agent) (w : Fin 64) (v : Word) : Statement (.pendWrite who w v) := none_spelled _
theorem maskWrite (who : Agent) (w : Fin 64) (v : Word) : Statement (.maskWrite who w v) := none_spelled _
theorem supplyWarning (h : HamletId) : Statement (.supplyWarning h) := none_spelled _
theorem supplyWarningRelease (h : HamletId) (dur : Nat) (low : BitVec 7) : Statement (.supplyWarningRelease h dur low) := none_spelled _
theorem warningSettleEnd (h : HamletId) : Statement (.warningSettleEnd h) := none_spelled _
theorem supplyResetLevel (h : HamletId) : Statement (.supplyResetLevel h) := none_spelled _
theorem supplyResetRelease (h : HamletId) : Statement (.supplyResetRelease h) := none_spelled _
theorem resetLevelHoldTimeout (h : HamletId) : Statement (.resetLevelHoldTimeout h) := none_spelled _
theorem overvoltage (h : HamletId) : Statement (.overvoltage h) := none_spelled _
theorem railSupervisorTrip (rail : Fin 36) : Statement (.railSupervisorTrip rail) := none_spelled _
theorem avsTransaction (rail : Fin 16) (cmd : AvsCmd) (ok : Bool) (v : BitVec 13) : Statement (.avsTransaction rail cmd ok v) := none_spelled _
theorem vdone (h : HamletId) : Statement (.vdone h) := none_spelled _
theorem vdoneTimeout (h : HamletId) : Statement (.vdoneTimeout h) := none_spelled _
theorem capGovernorTick : Statement (.capGovernorTick) := none_spelled _
theorem thermtrip (stack : Bool) (number : BitVec 6) : Statement (.thermtrip stack number) := none_spelled _
theorem pmD3hot : Statement (.pmD3hot) := none_spelled _
theorem pmD0 : Statement (.pmD0) := none_spelled _
theorem powerTransitionDone : Statement (.powerTransitionDone) := none_spelled _
theorem offEntry : Statement (.offEntry) := none_spelled _
theorem gaugeSlot (a : BitVec 14) (b : BitVec 14) (fin : Bool) : Statement (.gaugeSlot a b fin) := none_spelled _
theorem gaugeSeqTimer (q : Fin 4) : Statement (.gaugeSeqTimer q) := none_spelled _
theorem gaugeCmd (who : Agent) (v : Word) : Statement (.gaugeCmd who v) := none_spelled _
theorem coldStart : Statement (.coldStart) := none_spelled _
theorem railGroupValid : Statement (.railGroupValid) := none_spelled _
theorem railGroupTimeout (rail : Fin 36) : Statement (.railGroupTimeout rail) := none_spelled _
theorem fwPacket (kind : CoreKind) (n : BitVec 16) (only : Option (BitVec 16)) (lost : List Nat) (differ : List Nat) : Statement (.fwPacket kind n only lost differ) := none_spelled _
theorem repairReport : Statement (.repairReport) := none_spelled _
theorem warmRstNAssert (long : Bool) : Statement (.warmRstNAssert long) := none_spelled _
theorem warmRstNRelease (same : Bool) : Statement (.warmRstNRelease same) := none_spelled _
theorem deviceResetReq (who : Agent) : Statement (.deviceResetReq who) := none_spelled _
theorem coreReset (who : Agent) (pg : BitVec 16) : Statement (.coreReset who pg) := none_spelled _
theorem croftReset (who : Agent) (c : CroftId) : Statement (.croftReset who c) := none_spelled _
theorem hamletReset (who : Agent) (h : HamletId) : Statement (.hamletReset who h) := none_spelled _
theorem resetDone (g : GrainId) (fs : List Finding) (e : StartEnd) : Statement (.resetDone g fs e) := none_spelled _
theorem runtimeRecordWrite : Statement (.runtimeRecordWrite) := none_spelled _
theorem smbBoot : Statement (.smbBoot) := none_spelled _
theorem smbResetCause : Statement (.smbResetCause) := none_spelled _
theorem smbThermtrip : Statement (.smbThermtrip) := none_spelled _
theorem smbSerial : Statement (.smbSerial) := none_spelled _
theorem enableSet (who : Agent) (pg : BitVec 16) : Statement (.enableSet who pg) := none_spelled _
theorem enableCheckDone (pg : BitVec 16) (ok : Bool) (partner : Option Peer) (ward : Option Peer) : Statement (.enableCheckDone pg ok partner ward) := none_spelled _
theorem enableClear (who : Agent) (pg : BitVec 16) : Statement (.enableClear who pg) := none_spelled _
theorem planStart (who : Agent) (restore : Bool) : Statement (.planStart who restore) := none_spelled _
theorem stopAtStepBoundary (who : Agent) : Statement (.stopAtStepBoundary who) := none_spelled _
theorem haltNow (who : Agent) : Statement (.haltNow who) := none_spelled _
theorem counterClear (who : Agent) (a : BitVec 28) (v : Word) : Statement (.counterClear who a v) := none_spelled _
theorem ledgerDigestRead (g : Fin 2) : Statement (.ledgerDigestRead g) := none_spelled _
theorem bellNowRead : Statement (.bellNowRead) := none_spelled _
theorem rcRead (a : BitVec 28) : Statement (.rcRead a) := none_spelled _
theorem registerWrite (who : Agent) (bar4 : Bool) (a : BitVec 28) (bs : List Byte) (ide : Bool) : Statement (.registerWrite who bar4 a bs ide) := none_spelled _
theorem bucketExchange (l : LinkId) : Statement (.bucketExchange l) := none_spelled _
theorem vddAuxValid (straps : BitVec 3) : Statement (.vddAuxValid straps) := none_spelled _
theorem mainFeedsRemoved : Statement (.mainFeedsRemoved) := none_spelled _

end Sys2Proof.Laws.Rows
end

