-- ==== Sys2Proof/Laws/Reeve.lean ====
section
/-! SUPPORT. The rows of issue: what an order that stands at PC makes of an issue row, where PC can lie, and PC and the phase after a
primitive effect. -/
namespace Sys2Proof.Machine

/-- Every row's meaning is a program of effects. -/
theorem exec_prog (i : Instr) (s : State) : ∃ p : Prog, exec i s = Prog.next p s := by
  cases i <;> exact ⟨_, rfl⟩

/-! ### What stands at PC -/

theorem issueRow_stands {s : State} {c i : Nat} {w : OrderWord} {o : Order} (h : s.stands c i w o)
    (f : State → Nat → OrderWord → Order → Option Prog) : (issueRow c f).run s = ((f s i w o).getD .done).run s := by
  obtain ⟨h1, h2⟩ := h
  simp only [issueRow, Prog.run_get, h1]
  rcases h2 with h2 | h2 <;> simp [h2]

theorem issueRow_stop {s : State} {c cause addr : Nat} (h : s.ready c = .stop cause addr)
    (f : State → Nat → OrderWord → Order → Option Prog) : (issueRow c f).run s = (reeveFault c cause (s.pc c) addr).run s := by
  simp only [issueRow, Prog.run_get, h]

theorem issueRow_no {s : State} {c : Nat} (h : s.ready c = .no) (f : State → Nat → OrderWord → Order → Option Prog) :
    (issueRow c f).run s = s := by
  simp only [issueRow, Prog.run_get, h, Prog.run]

theorem streamLen_lt (s : State) (c : Nat) : s.fld (pgReeve c) R.reeve_STREAM_CFG_LEN < 2 ^ 16 := Nat.mod_lt _ (by decide)

/-- An order that stands is the one at PC, and lies inside the stream. -/
theorem stands_pc {s : State} {c i : Nat} {w : OrderWord} {o : Order} (h : s.stands c i w o) : s.pc c = i ∧ i / 256 < 65535 := by
  have h1 := h.1
  simp only [State.ready, State.ready.held] at h1
  have := streamLen_lt s c
  split at h1 <;> try contradiction
  split at h1 <;> try contradiction
  rename_i h2 h3
  have key : s.pc c / 256 < 65535 := by omega
  have : s.pc c = i := by
    split at h1
    · split at h1 <;> try contradiction
      split at h1 <;> try contradiction
      split at h1 <;> try contradiction
      split at h1 <;> try contradiction
      cases h1; rfl
    · split at h1 <;> try contradiction
      split at h1 <;> try contradiction
      split at h1 <;> try contradiction
      cases h1; rfl
  exact ⟨this, this ▸ key⟩

theorem nextIdx_lt {i : Nat} (h : i / 256 < 65535) : nextIdx i < 2 ^ 24 - 1 := by unfold nextIdx; split <;> omega

/-! ### PC and the phase after an effect -/

theorem State.pc_apply_reg (s : State) (a : Nat) (v : Word) (c : Nat) :
    ((Act.reg a v).apply s).pc c = if (pgReeve c).base + R.reeve_PC_INDEX.off = a then R.reeve_PC_INDEX.of v else s.pc c := by
  unfold State.pc; exact State.fld_apply_reg ..

theorem State.phase_apply_reg (s : State) (a : Nat) (v : Word) (c : Nat) :
    ((Act.reg a v).apply s).phase c = if (pgOwn c).base + R.own_STATUS_PHASE.off = a then R.own_STATUS_PHASE.of v else s.phase c := by
  unfold State.phase; exact State.fld_apply_reg ..

@[simp] theorem State.pc_apply_croft (s : State) (c k : Nat) (r : Croft) : ((Act.croft c r).apply s).pc k = s.pc k := rfl
@[simp] theorem State.pc_apply_queue (s : State) (c k : Nat) (r : Queue) : ((Act.queue c r).apply s).pc k = s.pc k := rfl
@[simp] theorem State.pc_apply_dev (s : State) (k : Nat) (r : Device) : ((Act.dev r).apply s).pc k = s.pc k := rfl
@[simp] theorem State.pc_apply_bytes (s : State) (k a : Nat) (bs : List Byte) : ((Act.bytes a bs).apply s).pc k = s.pc k := rfl
@[simp] theorem State.pc_apply_out (s : State) (k : Nat) (o : Out) : ((Act.out o).apply s).pc k = s.pc k := rfl
@[simp] theorem Reeve.queued_wait (r : Reeve) (u : Nat) (w : Wait) : ({ r with wait := w } : Reeve).queued u = r.queued u := rfl

theorem State.reeve_eq (s : State) (c : Nat) : s.reeve c = (s.croft c).reeve := rfl

end Sys2Proof.Machine
end

