-- ==== Sys2Proof/Laws/Wire.lean ====
section
/-! SUPPORT. What a frame's bytes hold comes back from its lanes (R346, R350 to R352). -/
namespace Sys2Proof.Machine

theorem length_toLe : ∀ n v, (toLe n v).length = n
  | 0, _ => rfl
  | n + 1, v => by rw [toLe, List.length_cons, length_toLe n]

theorem leNat_toLe : ∀ n v, leNat (toLe n v) = v % 256 ^ n
  | 0, v => by rw [toLe, leNat, Nat.pow_zero, Nat.mod_one]
  | n + 1, v => by
    have h : (BitVec.ofNat 8 v).toNat = v % 256 := BitVec.toNat_ofNat ..
    rw [toLe, leNat, leNat_toLe n, h, Nat.pow_succ, Nat.mul_comm (256 ^ n) 256, Nat.mod_mul]

/-- Block `i` of a list made of blocks of `k`. -/
theorem flatMap_block {α β : Type} (f : α → List β) (k : Nat) : ∀ (xs : List α) (i : Nat) (h : i < xs.length), (∀ x ∈ xs, (f x).length = k) →
    ((xs.flatMap f).drop (k * i)).take k = f xs[i]
  | [], _, h, _ => absurd h (Nat.not_lt_zero _)
  | x :: xs, 0, _, hk => by
    have hx := hk x (List.mem_cons_self ..)
    rw [List.flatMap_cons, Nat.mul_zero, List.drop_zero, List.take_append_of_le_length (by omega), List.take_of_length_le (by omega)]; rfl
  | x :: xs, i + 1, h, hk => by
    have hx := hk x (List.mem_cons_self ..)
    rw [List.flatMap_cons, Nat.mul_succ, Nat.add_comm, ← List.drop_drop, List.drop_append_of_le_length (by omega),
      List.drop_of_length_le (l := f x) (by omega), List.nil_append]
    exact flatMap_block f k xs i (by simpa using h) (fun y hy => hk y (List.mem_cons_of_mem _ hy))

theorem length_flatMap_block {α β : Type} (f : α → List β) (k : Nat) : ∀ xs : List α, (∀ x ∈ xs, (f x).length = k) →
    (xs.flatMap f).length = k * xs.length
  | [], _ => by simp
  | x :: xs, hk => by
    rw [List.flatMap_cons, List.length_append, hk x (List.mem_cons_self ..),
      length_flatMap_block f k xs (fun y hy => hk y (List.mem_cons_of_mem _ hy)), List.length_cons, Nat.mul_succ, Nat.add_comm]

/-- A block of a list made of blocks of `k`, within a longer list. -/
theorem block_at {α β : Type} (f : α → List β) (k : Nat) (xs : List α) (pre post : List β) (o i : Nat) (ho : pre.length = o) (hi : i < xs.length)
    (hk : ∀ x ∈ xs, (f x).length = k) : ((pre ++ (xs.flatMap f ++ post)).drop (o + k * i)).take k = f xs[i] := by
  have hl := length_flatMap_block f k xs hk
  have hm : k * i + k ≤ k * xs.length := by rw [← Nat.mul_succ]; exact Nat.mul_le_mul_left k hi
  rw [← List.drop_drop, List.drop_append_of_le_length (by omega), List.drop_of_length_le (l := pre) (by omega), List.nil_append,
    List.drop_append_of_le_length (by omega), List.take_append_of_le_length (by rw [List.length_drop]; omega)]
  exact flatMap_block f k xs i hi hk

theorem block_first {α β : Type} (f : α → List β) (k : Nat) (xs : List α) (post : List β) (i : Nat) (hi : i < xs.length)
    (hk : ∀ x ∈ xs, (f x).length = k) : ((xs.flatMap f ++ post).drop (k * i)).take k = f xs[i] := by
  have e := block_at f k xs [] post 0 i rfl hi hk
  rwa [List.nil_append, Nat.zero_add] at e

theorem slice_at {β : Type} (pre x post : List β) (o n : Nat) (ho : pre.length = o) (hn : x.length = n) :
    ((pre ++ (x ++ post)).drop o).take n = x := by
  subst ho; subst hn
  rw [List.drop_left, List.take_left]

/-! ### Lanes -/

theorem byteOfSymbols_symbolsOfByte : ∀ b : Byte, byteOfSymbols (symbolsOfByte b) = b := by decide +kernel

theorem rows_flat {β : Type} (g : Nat → β) (m : Nat) : ∀ n, (List.range n).flatMap (fun i => (List.range m).map (fun l => g (m * i + l))) =
    (List.range (m * n)).map g
  | 0 => rfl
  | n + 1 => by
    rw [List.range_succ, List.flatMap_append, rows_flat g m n, Nat.mul_succ, List.range_add, List.map_append, List.map_map]
    simp [Function.comp_def]

theorem flatMap_same {α β : Type} {f g : α → List β} {l : List α} (h : ∀ x ∈ l, f x = g x) : l.flatMap f = l.flatMap g := by
  unfold List.flatMap
  rw [List.map_congr_left h]

theorem lane_byte (bs : List Byte) (n l i : Nat) (hl : l < 12) (hi : i < n) :
    byteOfSymbols (((((List.range 12).map (fun l => (List.range n).flatMap (fun i => symbolsOfByte (bs.getD (12 * i + l) 0)))).getD l []).drop
      (4 * i)).take 4) = bs.getD (12 * i + l) 0 := by
  rw [List.getD_eq_getElem?_getD, List.getElem?_map, List.getElem?_range hl, Option.map_some, Option.getD_some,
    flatMap_block _ 4 _ i (by simpa using hi) (fun _ _ => rfl), byteOfSymbols_symbolsOfByte, List.getElem_range]

theorem unstripe_stripe_of (bs : List Byte) (n : Nat) (h : bs.length = 12 * n) :
    (List.range n).flatMap (fun i => (List.range 12).map (fun l => byteOfSymbols
      (((((List.range 12).map (fun l => (List.range n).flatMap (fun i => symbolsOfByte (bs.getD (12 * i + l) 0)))).getD l []).drop
        (4 * i)).take 4))) = bs := by
  rw [flatMap_same (g := fun i => (List.range 12).map (fun l => bs.getD (12 * i + l) 0))
    (fun i hi => List.map_congr_left (fun l hl => lane_byte bs n l i (List.mem_range.mp hl) (List.mem_range.mp hi))),
    rows_flat (fun j => bs.getD j 0) 12 n]
  apply List.ext_getElem
  · simp [h]
  · intro i h1 h2
    simp [List.getD_eq_getElem?_getD, h2]

/-- The bytes of the twelve lanes are the frame's. -/
theorem unstripe_stripe (bs : List Byte) (h : bs.length = 5376) : unstripe (stripe bs) = bs := by
  unfold unstripe stripe
  exact unstripe_stripe_of bs 448 (by omega)

/-! ### Frames -/

/-- The bytes of frame `f` whose header CRC reads `h`, whose flit CRCs read `c` and whose parity is `p`. -/
def laid (f : Frame) (h : BitVec 32) (c : Nat → BitVec 32) (p : List Byte) : List Byte :=
  (List.zip (f.flits.take 20) (List.range 20)).flatMap (fun x => payloadBytes x.1.body) ++ (f.fields ++ (toLe 4 h.toNat ++
  ((List.zip (f.flits.take 20) (List.range 20)).flatMap (fun x => toLe 2 (flitHeader x.1)) ++
  ((List.zip (f.flits.take 20) (List.range 20)).flatMap (fun x => toLe 4 (c x.2).toNat) ++ p))))

theorem length_pad256 (bs : List Byte) : (pad256 bs).length = 256 := by
  rw [pad256, List.length_take, List.length_append, List.length_replicate]; omega

theorem length_payloadBytes (b : Payload) : (payloadBytes b).length = 256 := by cases b <;> exact length_pad256 _

theorem length_fields (f : Frame) : f.fields.length = 36 := by
  unfold Frame.fields
  simp only [List.length_append, length_toLe]
  rw [length_flatMap_block _ 8 _ (fun _ _ => length_toLe _ _), List.length_range]

theorem frame_slices (P F H D C p : List Byte) (hP : P.length = 5120) (hF : F.length = 36) (hH : H.length = 4) (hD : D.length = 40) :
    ((P ++ (F ++ (H ++ (D ++ (C ++ p))))).drop 5120).take 40 = F ++ H ∧
    P ++ (F ++ (H ++ (D ++ (C ++ p)))) = (P ++ F ++ H) ++ (D ++ (C ++ p)) ∧ (P ++ F ++ H).length = 5160 ∧
    P ++ (F ++ (H ++ (D ++ (C ++ p)))) = (P ++ F ++ H ++ D) ++ (C ++ p) ∧ (P ++ F ++ H ++ D).length = 5200 := by
  refine ⟨?_, by simp only [List.append_assoc], by simp only [List.length_append]; omega, by simp only [List.append_assoc],
    by simp only [List.length_append]; omega⟩
  rw [show P ++ (F ++ (H ++ (D ++ (C ++ p)))) = P ++ ((F ++ H) ++ (D ++ (C ++ p))) by simp only [List.append_assoc]]
  exact slice_at P (F ++ H) _ _ _ hP (by rw [List.length_append]; omega)

/-- A field of `n` bytes read back from a number's `n` bytes. -/
theorem ofNat_leNat_toLe (w : Nat) (n : Nat) (x : BitVec w) (h : 2 ^ w ≤ 256 ^ n) : BitVec.ofNat w (leNat (toLe n x.toNat)) = x := by
  rw [leNat_toLe, Nat.mod_eq_of_lt (Nat.lt_of_lt_of_le x.isLt h), BitVec.ofNat_toNat, BitVec.setWidth_eq]

theorem header_flags (a b c : Bool) : leNat (toLe 2 (bitAt a 0 + bitAt b 1 + bitAt c 2 + ([] : List Ctrl).length % 4 * 2 ^ 3)) =
    bitAt a 0 + bitAt b 1 + bitAt c 2 := by
  cases a <;> cases b <;> cases c <;> decide

theorem flags_back (a b c : Bool) : let n := bitAt a 0 + bitAt b 1 + bitAt c 2
    (bitsOf n 0 1 == 1) = a ∧ (bitsOf n 1 1 == 1) = b ∧ (bitsOf n 2 1 == 1) = c ∧ bitsOf n 3 2 = 0 := by
  cases a <;> cases b <;> cases c <;> decide

theorem length_laid (f : Frame) (h : BitVec 32) (c : Nat → BitVec 32) (p : List Byte) (hf : f.flits.length = 20) :
    (laid f h c p).length = 5280 + p.length := by
  have hz : (List.zip (f.flits.take 20) (List.range 20)).length = 20 := by
    rw [List.length_zip, List.length_take, List.length_range]; omega
  unfold laid
  simp only [List.length_append]
  rw [length_flatMap_block _ 256 _ (fun _ _ => length_payloadBytes _), length_flatMap_block _ 2 _ (fun _ _ => length_toLe _ _),
    length_flatMap_block _ 4 _ (fun _ _ => length_toLe _ _), length_fields, length_toLe, hz]
  omega

/-- A frame of twenty flits as its bytes read. -/
theorem frameOf_laid (f : Frame) (h : BitVec 32) (c : Nat → BitVec 32) (p : List Byte) (hf : f.flits.length = 20) (hc : f.ctrl = []) :
    (frameOf (laid f h c p)).frame = { f with flits := f.flits.map (fun x => flitOf (flitHeader x) (payloadBytes x.body)) } ∧
    (frameOf (laid f h c p)).headerOk = (crc32 f.fields == h) ∧
    (frameOf (laid f h c p)).ok = (List.range 20).map (fun i =>
      let x := f.flits.getD i ⟨0, .idle⟩
      flitCrc ((f.firstSeq.toNat + i) % 2 ^ 32) (flitHeader x) (payloadBytes x.body) == c i) := by
  have hz : (List.zip (f.flits.take 20) (List.range 20)).length = 20 := by
    rw [List.length_zip, List.length_take, List.length_range]; omega
  have hzi : ∀ i, (hi : i < 20) → (List.zip (f.flits.take 20) (List.range 20))[i]'(by omega) = (f.flits[i]'(by omega), i) := by
    intro i hi; simp [List.getElem_zip]
  obtain ⟨hhd, hD, hDl, hC, hCl⟩ := frame_slices
    ((List.zip (f.flits.take 20) (List.range 20)).flatMap (fun x => payloadBytes x.1.body)) f.fields (toLe 4 h.toNat)
    ((List.zip (f.flits.take 20) (List.range 20)).flatMap (fun x => toLe 2 (flitHeader x.1)))
    ((List.zip (f.flits.take 20) (List.range 20)).flatMap (fun x => toLe 4 (c x.2).toNat)) p
    (by rw [length_flatMap_block _ 256 _ (fun _ _ => length_payloadBytes _), hz]) (length_fields f) (length_toLe _ _)
    (by rw [length_flatMap_block _ 2 _ (fun _ _ => length_toLe _ _), hz])
  have hP : ∀ i, (hi : i < 20) → ((laid f h c p).drop (256 * i)).take 256 = payloadBytes (f.flits[i]'(by omega)).body := by
    intro i hi
    unfold laid
    rw [block_first _ 256 _ _ i (by omega) (fun _ _ => length_payloadBytes _), hzi i hi]
  have hH : ∀ i, (hi : i < 20) → ((laid f h c p).drop (5160 + 2 * i)).take 2 = toLe 2 (flitHeader (f.flits[i]'(by omega))) := by
    intro i hi
    unfold laid
    rw [hD, block_at _ 2 _ _ _ 5160 i hDl (by omega) (fun _ _ => length_toLe _ _), hzi i hi]
  have hK : ∀ i, (hi : i < 20) → ((laid f h c p).drop (5200 + 4 * i)).take 4 = toLe 4 (c i).toNat := by
    intro i hi
    unfold laid
    rw [hC, block_at _ 4 _ _ _ 5200 i hCl (by omega) (fun _ _ => length_toLe _ _), hzi i hi]
  have hh : ((laid f h c p).drop 5120).take 40 = f.fields ++ toLe 4 h.toNat := hhd
  have hctl : (((f.fields ++ toLe 4 h.toNat).drop 0xA).take 2) = toLe 2 (bitAt f.nak 0 + bitAt f.cnak 1 + bitAt f.retrain 2 + f.ctrl.length % 4 * 2 ^ 3) := rfl
  have hlt : ∀ x : Flit, flitHeader x < 256 ^ 2 := by
    intro x
    have : x.croft.val < 128 := x.croft.isLt
    unfold flitHeader
    have : payloadKind x.body < 4 := by cases x.body <;> simp [payloadKind]
    omega
  generalize laid f h c p = bs at hP hH hK hh ⊢
  have fld : ∀ (n : Nat) (x : BitVec (8 * n)), leNat (toLe n x.toNat) = x.toNat := by
    intro n x
    rw [leNat_toLe, Nat.mod_eq_of_lt]
    exact Nat.lt_of_lt_of_le x.isLt (by rw [Nat.pow_mul])
  have a0 : leNat (((f.fields ++ toLe 4 h.toNat).drop 0).take 4) = f.firstSeq.toNat := fld 4 f.firstSeq
  have a4 : leNat (((f.fields ++ toLe 4 h.toNat).drop 4).take 4) = f.ackSeq.toNat := fld 4 f.ackSeq
  have a8 : leNat (((f.fields ++ toLe 4 h.toNat).drop 8).take 1) = f.cseq.toNat := fld 1 f.cseq
  have a9 : leNat (((f.fields ++ toLe 4 h.toNat).drop 9).take 1) = f.cack.toNat := fld 1 f.cack
  have a10 : leNat (((f.fields ++ toLe 4 h.toNat).drop 0xA).take 2) = bitAt f.nak 0 + bitAt f.cnak 1 + bitAt f.retrain 2 := by
    rw [hctl, hc, header_flags]
  have a36 : leNat (((f.fields ++ toLe 4 h.toNat).drop 0x24).take 4) = h.toNat := fld 4 h
  have at20 : ∀ (i : Nat) (hi : i < 20), f.flits.getD i ⟨0, .idle⟩ = f.flits[i]'(by omega) := by
    intro i hi
    rw [List.getD_eq_getElem?_getD, List.getElem?_eq_getElem (by omega), Option.getD_some]
  have flag : ∀ x : Flit, leNat (toLe 2 (flitHeader x)) = flitHeader x := fun x => by rw [leNat_toLe, Nat.mod_eq_of_lt (hlt x)]
  refine ⟨?_, ?_, ?_⟩
  · obtain ⟨e1, e2, e3, e4⟩ := flags_back f.nak f.cnak f.retrain
    have fl : (List.range 20).map (fun i => flitOf (leNat ((bs.drop (5160 + 2 * i)).take 2)) ((bs.drop (256 * i)).take 256)) =
        f.flits.map (fun x => flitOf (flitHeader x) (payloadBytes x.body)) := by
      apply List.ext_getElem
      · simp [hf]
      · intro i h1 h2
        have hi : i < 20 := by simpa using h1
        rw [List.getElem_map, List.getElem_map, List.getElem_range, hP i hi, hH i hi, flag]
    unfold frameOf
    dsimp only
    rw [hh, a0, a4, a8, a9, a10, e1, e2, e3, e4, fl, List.range_zero, List.map_nil]
    simp only [BitVec.ofNat_toNat, BitVec.setWidth_eq]
    cases f
    simp_all
  · unfold frameOf
    dsimp only
    rw [hh, a36, List.take_append_of_le_length (by rw [length_fields]), List.take_of_length_le (by rw [length_fields]), BitVec.ofNat_toNat,
      BitVec.setWidth_eq]
  · unfold frameOf
    dsimp only
    apply List.map_congr_left
    intro i hi
    rw [List.mem_range] at hi
    rw [hh, a0, hH i hi, hP i hi, hK i hi, flag, at20 i hi, fld 4 (c i), BitVec.ofNat_toNat, BitVec.setWidth_eq]

end Sys2Proof.Machine
end

