-- ==== Sys2Proof/Machine/Shown.lean ====
section
/-! DEFINITION. What a read of a register shows (R3, R18): its stored word, with the fields hardware computes from the rest of the state. -/
namespace Sys2Proof.Machine

/-- The word `w` with field `f` showing `v`. -/
def Fld.show (f : Fld) (v : Nat) (w : Nat) : Nat := w - (w / 2 ^ f.lo % 2 ^ f.width) * 2 ^ f.lo + v % 2 ^ f.width * 2 ^ f.lo

/-- A flag as a field value. -/
def flagNat (b : Bool) : Nat := if b then 1 else 0

/-- `REEVE.STATUS.WAIT_KIND` (R269). -/
def Wait.code : Wait → Nat
  | .none => 0
  | .queueFull => 1
  | .token => 2
  | .bell _ => 3
  | .fence => 4
  | .seed => 5
  | .verdict => 6
  | .stepBarrier => 7
  | .haltOrder => 0

/-- MASK bits 0 to 6 of the units with incomplete orders; bit 6 is pending signals (R244, R269). -/
def Reeve.waitOn (r : Reeve) : Nat :=
  (List.range 6).foldl (fun a u => a + flagNat (r.orders.any (fun o => o.mask / 2 ^ u % 2 == 1)) * 2 ^ u) (flagNat (!r.pend.isEmpty) * 2 ^ 6)

/-- Age in 10 µs of the last window or sounding, held at 0xFFFF, which it reads before a first one (R139). -/
def State.calAge (s : State) (t : Option Nat) : Nat :=
  match t with
  | none => 0xFFFF
  | some t => min 0xFFFF ((s.now - t) / 10000)

/-- SOURCE and whether a containing unit retires it, for the unit a defect query names (R503, R508, R550). -/
def State.queried (s : State) (kind unit : Nat) : Option (Nat × Bool) :=
  let croft (c : Nat) : Option (Nat × Bool) := (s.retiredBy dkCroft c).map (fun e => (e.source, true))
  match s.retiredBy kind unit with
  | some e => some (e.source, false)
  | none =>
    if kind = dkWell then
      if 16 < (s.columnEntries unit).length then
        ((s.dev.boot.defects.filter (fun e => e.kind == dkSpare && e.unit == unit))[16]?).map (fun e => (e.source, false))
      else croft (unit / 16)
    else if kind = dkPump then croft (unit / 4)
    else if kind = dkQueue then croft (unit / 128)
    else none

/-- Whether KIND and UNIT of a defect query are in range (R550). -/
def queryInRange (kind unit : Nat) : Bool :=
  (kind == dkWell && decide (unit < 2048)) || (kind == dkPump && decide (unit < 512)) || (kind == dkCroft && decide (unit < 128)) ||
  (kind == dkQueue && decide (unit < 16384)) || (kind == dkLink && decide (unit < 16))

/-- ANSWER of the defect page (R550). -/
def State.defectAnswer (s : State) : Nat :=
  let kind := s.fld pgDefect R.defect_QUERY_KIND
  let unit := s.fld pgDefect R.defect_QUERY_UNIT
  if !queryInRange kind unit then 0
  else
    let spares := if kind = dkWell then min 16 ((s.columnEntries unit).length + (s.dev.spareRuns.filter (fun e => e.1 == unit)).length) else 0
    (match s.queried kind unit with
      | some x => 1 + x.1 % 4 * 2 + flagNat x.2 * 8
      | none => 0) + spares * 16

/-- Queues of croft `c` in a state that `f` holds of. -/
def State.countQueues (s : State) (c : Nat) (f : Queue → Bool) : Nat :=
  ((List.range 128).filter (fun j => f (s.queue (128 * c + j)))).length

/-- The current that RAIL_CUR shows: measured by AVSBus on rails 0 to 15, trimmed on the others (R471, R487). -/
def State.railAmpsShown (s : State) (r : Nat) : Nat :=
  if r < 16 then (Sparse.get? s.dev.power.amps r).getD 0
  else if r < 36 then Config.railAmps r (s.fld pgPower R.power_STATUS_PSTATE)
  else 0

/-- A well page's computed fields (R80, R139). -/
def State.shownWell (s : State) (g o w : Nat) : Nat :=
  let p := pgWell g
  if o = R.well_RET_TIME_TIME.off then
    R.well_RET_TIME_TIME.show (if s.bit p R.well_STATUS_LOADED then min 4095 ((s.now - (s.well g).loadedAt) / 1000) else 0) w
  else if o = R.well_CAL_AGE_WINDOW.off then
    R.well_CAL_AGE_SOUND.show (s.calAge (s.well g).soundAt) (R.well_CAL_AGE_WINDOW.show (s.calAge (s.well g).windowAt) w)
  else if o = R.well_TRIM_DATA_TRIM.off then
    let col := s.fld p R.well_TRIM_SEL_COL
    let tap := s.fld p R.well_TRIM_SEL_TAP
    let there : Bool := decide (col < 536) && decide (tap < 65)
    R.well_TRIM_DATA_FACTORY.show (if there then (Config.factoryTrim g col tap).toNat else 0)
      (R.well_TRIM_DATA_TRIM.show (if there then (s.trim g col tap % 512).toNat else 0) w)
  else w

/-- A reeve page's computed fields (R269). -/
def State.shownReeve (s : State) (c o w : Nat) : Nat :=
  let p := pgReeve c
  let r := s.reeve c
  if o = R.reeve_STATUS_SPAN_OPEN.off then
    let loops := (List.range 4).foldl (fun a l => a + (match r.loops[l]? with | some x => flagNat x.active * 2 ^ l | none => 0)) 0
    R.reeve_STATUS_SPAN_OPEN.show (flagNat r.span.isSome) (R.reeve_STATUS_WIDE.show (flagNat r.wide)
      (R.reeve_STATUS_LOOP_ACTIVE.show loops (R.reeve_STATUS_PENDING.show r.pend.length
        (R.reeve_STATUS_WAIT_ON.show r.waitOn (R.reeve_STATUS_WAIT_KIND.show r.wait.code w)))))
  else if o = R.reeve_TOKEN_VAL_COUNT.off then
    R.reeve_TOKEN_VAL_COUNT.show ((Sparse.get? r.tokens (s.fld p R.reeve_TOKEN_SEL_TOKEN)).getD 0) w
  else if o = R.reeve_LOOP_VAL_COUNT.off then
    match r.loops[s.fld p R.reeve_LOOP_SEL_LEVEL]? with
    | some x => R.reeve_LOOP_VAL_ACTIVE.show (flagNat x.active) (R.reeve_LOOP_VAL_COUNT.show x.count w)
    | none => w
  else w

/-- A queue group page's computed registers: TAIL, HEAD, DONE and QSTATUS of each block (R345). -/
def State.shownQueue (s : State) (g o w : Nat) : Nat :=
  if o < 0x100 ∨ 0x300 ≤ o then w
  else
    let q := s.queue (g * 8 + (o - 0x100) / 0x40)
    match o % 0x40 with
    | 0x10 => q.tail % 2 ^ 32
    | 0x14 => q.head % 2 ^ 32
    | 0x18 => q.done % 2 ^ 32
    | 0x1C => q.state + q.epoch % 16 * 16 + min 15 q.xfers.length * 256
    | _ => w

/-- A Tally page's slot registers (R238). -/
def State.shownTally (s : State) (c o w : Nat) : Nat :=
  let x := (Sparse.get? (s.croft c).tally (s.fld (pgTally c) R.tally_SLOT_SEL_SLOT)).getD ⟨none, 0⟩
  if o = R.tally_SLOT_S_S.off then (match x.pair with | some p => code32 p.s | none => 0)
  else if o = R.tally_SLOT_E_E.off then (match x.pair with | some p => code32 p.e | none => 0)
  else if o = R.tally_SLOT_NF_NF.off then x.nf % 2 ^ 32
  else w

/-- The number-step page's entry registers (R236). -/
def State.shownNum (s : State) (o w : Nat) : Nat :=
  let e := (Sparse.get? s.dev.entries (s.fld pgNum R.numstep_ENTRY_SEL_ENTRY)).getD {}
  if o = R.numstep_ENTRY_CFG_KIND.off then e.cfg
  else if o = R.numstep_ENTRY_NORM_N.off then e.norm
  else if o = R.numstep_ENTRY_REF_REF.off then e.ref
  else w

/-- The power page's rail registers (R484). -/
def State.shownPower (s : State) (o w : Nat) : Nat :=
  let r := s.fld pgPower R.power_RAIL_SEL_RAIL
  if o = R.power_RAIL_DATA_CMD_MV.off then
    if 35 < r then w
    else R.power_RAIL_DATA_MEAS_MV.show ((Sparse.get? s.dev.power.meas r).getD 0) (R.power_RAIL_DATA_CMD_MV.show (s.volts r) w)
  else if o = R.power_RAIL_CUR_AMPS.off then R.power_RAIL_CUR_AMPS.show (s.railAmpsShown r) w
  else w

/-- The defect page's summary and answer (R550). -/
def State.shownDefect (s : State) (o w : Nat) : Nat :=
  let b := s.dev.boot
  if o = R.defect_SUMMARY_COUNT.off then
    R.defect_SUMMARY_COUNT.show b.defects.length (R.defect_SUMMARY_RUNTIME.show b.runtime.length
      (R.defect_SUMMARY_SEALED.show (flagNat b.sealed) w))
  else if o = R.defect_ANSWER_RETIRED.off then s.defectAnswer
  else w

/-- The device control page's count of retired units (R518). -/
def State.shownDevctl (s : State) (o w : Nat) : Nat :=
  if o = R.devctl_RETIRED_WELLS.off then
    R.devctl_RETIRED_WELLS.show ((List.range 2048).filter s.retiredWell).length
      (R.devctl_RETIRED_PUMPS.show ((List.range 512).filter s.retiredPump).length
        (R.devctl_RETIRED_CROFTS.show ((List.range 128).filter s.retiredCroft).length w))
  else w

/-- The bits of a register that a read shows: those of its fields, write-only and reserved ones apart (R3, R5). -/
def shownMask (k : Kind) (o : Nat) : Nat :=
  fieldMask ((k.regFields o).filter (fun f => f.acc != .wo)) &&& (0xFFFFFFFF - innerReserved k o)

/-- A pump's STATUS and a mill's show the heritage mode in force (R177, R204). -/
def State.showHeritage (s : State) (f : Fld) (o w : Nat) : Nat :=
  if o = f.off then f.show (flagNat (s.bit pgNum R.numstep_CFG_HERITAGE)) w else w

/-- What the register at offset `o` of page `p` shows to a read: zero but for STATE under reset (R18); else the stored word with the
fields hardware computes (R3), and zero for its reserved bits (R5). A read clears nothing but RC fields, which have their row. (DESIGN
CHOICE, assumption 116) -/
def State.shown (s : State) (p : Page) (o : Nat) : Word :=
  if s.underReset p && p != pgDevctl then (if o = 0x00C then BitVec.ofNat 32 stBusy else 0)
  else
    let w := (s.reg p o).toNat
    BitVec.ofNat 32 (shownMask p.kind o &&& match p.kind with
      | .pump => s.showHeritage R.pump_STATUS_HERITAGE o w
      | .mill => s.showHeritage R.mill_STATUS_HERITAGE o w
      | .well => s.shownWell p.inst o w
      | .reeve => s.shownReeve p.inst o w
      | .qgroup => s.shownQueue p.inst o w
      | .tally => s.shownTally p.inst o w
      | .numstep => s.shownNum o w
      | .power => s.shownPower o w
      | .defect => s.shownDefect o w
      | .devctl => s.shownDevctl o w
      | .granary =>
        if o = R.granary_STATUS_SELF_REFRESH.off then R.granary_STATUS_SELF_REFRESH.show (flagNat (s.dev.power.level != .on)) w else w
      | .sluice =>
        if o = R.sluice_STATUS_ACTIVE.off then
          R.sluice_STATUS_ACTIVE.show (s.countQueues p.inst (fun q => q.head != q.done))
            (R.sluice_STATUS_STOPPED.show (s.countQueues p.inst (fun q => q.state == 2)) w)
        else w
      | .link =>
        if o = R.link_LSTATUS_REPLAYS.off then
          R.link_LSTATUS_REPLAYS.show (match (s.link p.inst).replay with | [] => 0 | x :: _ => min 3 x.count) w
        else if o = R.link_LANE_ERR.off then (Sparse.get? (s.link p.inst).laneErr (s.fld p R.link_LANE_SEL_LANE)).getD 0
        else w
      | .ledger =>
        if o = R.ledger_DIGEST.off then (s.selDigest p.inst).toNat % 2 ^ 32
        else if 0x058 ≤ o ∧ o < 0x064 then
          match Sparse.get? s.dev.latched p.inst with
          | some d => d.toNat / 2 ^ (32 * ((o - 0x054) / 4)) % 2 ^ 32
          | none => (Config.openWord s.seq).toNat % 2 ^ 32
        else w
      | .bell =>
        if o = R.bell_STATUS_ACCURACY.off then R.bell_STATUS_ACCURACY.show s.bellAccuracy w
        else if o = R.bell_NOW_LO.off then s.bellNow % 2 ^ 32
        else w
      | .crier =>
        if o = R.crier_ROUTE_DATA_INSERVICE.off then
          let n := s.fld pgCrier R.crier_ROUTE_SEL_SOURCE
          if isSource n then R.crier_ROUTE_DATA_INSERVICE.show (flagNat (s.inService n)) (s.route n).toNat else 0
        else if R.crier_PEND.off ≤ o ∧ o < R.crier_PEND.off + 0x100 then
          let k := (o - R.crier_PEND.off) / 4
          (List.range 32).foldl (fun a j =>
            let n := 32 * k + j
            a + (if isSource n then flagNat (s.requests.contains n || s.sourceBit R.crier_PEND n) else w / 2 ^ j % 2) * 2 ^ j) 0
        else w
      | .plan =>
        if o = R.plan_STATUS_RUNNING.off then
          R.plan_STATUS_RUNNING.show (flagNat (s.enabledReeves.any s.running)) (R.plan_STATUS_REEVES.show s.enabledReeves.length w)
        else w
      | _ => w)

end Sys2Proof.Machine
end

