-- ==== Sys2Proof/Tests/Slice0.lean ====
section
/-! SUPPORT. The model's own tests: ill-formed commands are refused, words of orders decode as the spec lays them out, and for every statement
of the obligations a state and operands that meet its hypotheses, clause by clause. -/
namespace Sys2Proof.Tests
open Sys2Proof Sys2Proof.Machine

/-! ### States -/

/-- A device that has reached READY, with some registers written and what its device record holds beside. -/
def live (rs : List (Page × Nat × Nat)) (d : Device) : State :=
  { State.reset with
    regs := ((pgDevctl, 0x040, 8) :: rs).foldl (fun m x => Sparse.set m (x.1.base + x.2.1) (BitVec.ofNat 32 x.2.2)) []
    dev := { d with power := { d.power with level := .on } } }

/-- A page that is enabled. -/
def on (p : Page) : List (Page × Nat × Nat) := [(p, 0x008, 1), (p, 0x00C, 1)]

/-- Croft 0's reeve runs a stream of two chunks, with PC at `pc`. -/
def running (pc : Nat) : List (Page × Nat × Nat) := on (pgReeve 0) ++ [(pgReeve 0, 0x044, 2), (pgReeve 0, 0x050, 1), (pgReeve 0, 0x054, pc)]

/-- An order word of KIND `k` with its ARG_A and ARG_B (R243). -/
def ow (k a b : Nat) : OrderWord := BitVec.ofNat 128 (k + a * 2 ^ 32 + b * 2 ^ 64)

/-- Croft 0 with an order at slot `i` of chunk 0, its PC there, and what else its reeve holds. -/
def at' (i : Nat) (w : OrderWord) (rs : List (Page × Nat × Nat)) (r : Reeve) : State :=
  { live (running i ++ rs) {} with crofts := [(0, { reeve := { r with chunks := [⟨0, [(i, w)]⟩] } })] }

theorem test_live_inv : Sparse.Wf (at' 254 (ow 1 0 0) [] {}).regs := by decide
theorem test_reset_inv : State.reset.Inv := by constructor <;> decide

/-- A register's word with one field set. -/
def w1 (p : Page) (f : Fld) (v : Nat) : Page × Nat × Nat := (p, f.off, v * 2 ^ f.lo)

/-! ### Orders that stand at PC -/

theorem test_nop_stands : (at' 254 (ow 1 0 0) [] {}).stands 0 254 (ow 1 0 0) .nop := ⟨by decide, by decide⟩
theorem test_nop_goes_on_past_the_check_slot : ∀ t, exec (.nop 0) (at' 254 (ow 1 0 0) [] {}) = .next t → t.pc 0 = 256 := by
  intro t h; cases h; decide

/-- KIND 0x02, CODE 7 (R244). -/
theorem test_halt_word : (at' 0 (ow 2 7 0) [] {}).stands 0 0 (ow 2 7 0) (.halt 7) := ⟨by decide, by decide⟩
theorem test_fence_word : (at' 0 (ow 4 0x7F 0) [] {}).stands 0 0 (ow 4 0x7F 0) (.fence 0x7F false false false) := ⟨by decide, by decide⟩
theorem test_layerFenceOpen_word : (at' 0 (ow 4 0x10000 0) [] {}).stands 0 0 (ow 4 0x10000 0) (.fence 0 true false false) :=
  ⟨by decide, by decide⟩
theorem test_layerFenceClose_word : (at' 9 (ow 4 0x30000 0) [] { span := some (0, 0) }).stands 0 9 (ow 4 0x30000 0) (.fence 0 true true false) :=
  ⟨by decide, by decide⟩
theorem test_stepFence_word : (at' 0 (ow 4 0x40000 0) [] {}).stands 0 0 (ow 4 0x40000 0) (.fence 0 false false true) :=
  ⟨by decide, by decide⟩
theorem test_seed_word : (at' 0 (ow 8 5 0) [] {}).stands 0 0 (ow 8 5 0) (.seed 5) := ⟨by decide, by decide⟩

/-- LOOP of level 3, COUNT 2, TARGET 1: its loop register idle, in its first pass, in its last (R260). -/
def loops (r : LoopReg) : Reeve := { loops := [⟨0, false⟩, ⟨0, false⟩, ⟨0, false⟩, r] }
theorem test_loop_idle : (at' 4 (ow 5 0x203 1) [] (loops ⟨0, false⟩)).stands 0 4 (ow 5 0x203 1) (.loop 3 2 1) ∧
    ((at' 4 (ow 5 0x203 1) [] (loops ⟨0, false⟩)).reeve 0).loops[3]? = some ⟨0, false⟩ := ⟨⟨by decide, by decide⟩, by decide⟩
theorem test_loop_active : (at' 4 (ow 5 0x203 1) [] (loops ⟨1, true⟩)).stands 0 4 (ow 5 0x203 1) (.loop 3 2 1) ∧
    ((at' 4 (ow 5 0x203 1) [] (loops ⟨1, true⟩)).reeve 0).loops[3]? = some ⟨1, true⟩ := ⟨⟨by decide, by decide⟩, by decide⟩
theorem test_loop_last : (at' 4 (ow 5 0x203 1) [] (loops ⟨0, true⟩)).stands 0 4 (ow 5 0x203 1) (.loop 3 2 1) ∧
    ((at' 4 (ow 5 0x203 1) [] (loops ⟨0, true⟩)).reeve 0).loops[3]? = some ⟨0, true⟩ := ⟨⟨by decide, by decide⟩, by decide⟩
/-- Hand calculation: COUNT 3 leaves one more than COUNT − 2 passes to come (R260). -/
theorem test_loop_loads_count_less_one : loopStep [⟨0, false⟩] 0 3 = ([⟨1, true⟩], true) ∧ loopStep [⟨1, true⟩] 0 3 = ([⟨0, true⟩], true) ∧
    loopStep [⟨0, true⟩] 0 3 = ([⟨0, false⟩], false) := by decide

theorem test_tokenWait_word : (at' 0 (ow 6 0x20500 0) [] {}).stands 0 0 (ow 6 0x20500 0) (.tokenWait 5 2) := ⟨by decide, by decide⟩
theorem test_tokenWait_wide : (at' 0 (ow 6 0x20500 0) [] { wide := true }).stands 0 0 (ow 6 0x20500 0) (.tokenWait 5 2) :=
  ⟨by decide, by decide⟩
theorem test_tokenSignal_word : (at' 0 (ow 6 0x20501 0x3F03) [] {}).stands 0 0 (ow 6 0x20501 0x3F03) (.tokenSignal 5 2 3 0x3F) :=
  ⟨by decide, by decide⟩
theorem test_tokenSignal_full :
    (at' 0 (ow 6 0x20501 0x103) [] { pend := List.replicate 16 ⟨0, 0, ow 6 0x20501 0x103⟩ }).stands 0 0 (ow 6 0x20501 0x103) (.tokenSignal 5 2 3 1) :=
  ⟨by decide, by decide⟩
theorem test_bell_words : (at' 0 (ow 7 0 100) [] {}).stands 0 0 (ow 7 0 100) (.bell false 100) ∧
    (at' 0 (ow 7 1 0) [] {}).stands 0 0 (ow 7 1 0) (.bell true 0) ∧ ¬ 100 ≤ (at' 0 (ow 7 0 100) [] {}).bellNow ∧
    0 ≤ (at' 0 (ow 7 1 0) [] {}).bellNow := ⟨⟨by decide, by decide⟩, ⟨by decide, by decide⟩, by decide, by decide⟩

/-- An engine order of word `w` stands, with `n` orders of its unit waiting. -/
def queued (w : OrderWord) (n unit engine : Nat) : State :=
  at' 0 w [] { orders := List.replicate n ⟨0, 0, w, unit, engine, false, false⟩ }
theorem test_load_word : (queued (ow 0x10 3 0x1000) 15 0 1).stands 0 0 (ow 0x10 3 0x1000) (.load 3 0x1000) ∧
    ((queued (ow 0x10 3 0x1000) 15 0 1).reeve 0).queued 0 < 16 := ⟨⟨by decide, by decide⟩, by decide⟩
theorem test_load_full : (queued (ow 0x10 3 0x1000) 16 0 1).stands 0 0 (ow 0x10 3 0x1000) (.load 3 0x1000) ∧
    16 ≤ ((queued (ow 0x10 3 0x1000) 16 0 1).reeve 0).queued 0 := ⟨⟨by decide, by decide⟩, by decide⟩
theorem test_draw_word : (at' 0 (ow 0x11 2 0x40) [] {}).stands 0 0 (ow 0x11 2 0x40) (.draw 2 0x40) := ⟨by decide, by decide⟩
theorem test_plumb_words : (at' 0 (ow 0x12 1 0) [] {}).stands 0 0 (ow 0x12 1 0) (.plumb 1 false) ∧
    (at' 0 (ow 0x12 0x18000 0) [] {}).stands 0 0 (ow 0x12 0x18000 0) (.plumb 0x8000 true) := ⟨⟨by decide, by decide⟩, by decide, by decide⟩
theorem test_pump_words : (at' 0 (ow 0x14 3 0x40) [] {}).stands 0 0 (ow 0x14 3 0x40) (.pump 3 0 .none 0x40) ∧
    (at' 0 (ow 0x14 0x111 0x40) [] {}).stands 0 0 (ow 0x14 0x111 0x40) (.pump 1 1 .smaxBwd 0x40) ∧
    (at' 0 (ow 0x14 0x200 0x40) [] {}).stands 0 0 (ow 0x14 0x200 0x40) (.pump 0 0 .normBwdRms 0x40) ∧
    (at' 0 (ow 0x14 0x300 0x40) [] {}).stands 0 0 (ow 0x14 0x300 0x40) (.pump 0 0 .normBwdLayer 0x40) :=
  ⟨⟨by decide, by decide⟩, ⟨by decide, by decide⟩, ⟨by decide, by decide⟩, by decide, by decide⟩
theorem test_mill_words : ∀ op ∈ (millRows 0 .issue).map (·.2), (at' 0 (ow 0x18 op 0x40) [] {}).ready 0 = .order 0 (ow 0x18 op 0x40) (.mill op 0x40) :=
  by decide
theorem test_tallyCompare_word : (at' 0 (ow 0x1C 0x7F0F0F02 0x40) [] {}).stands 0 0 (ow 0x1C 0x7F0F0F02 0x40) (.tallyCompare 15 15 128 0x40) :=
  ⟨by decide, by decide⟩
theorem test_tallyFlush_word : (at' 0 (ow 0x1C 0x500 0x3FF) [] {}).stands 0 0 (ow 0x1C 0x500 0x3FF) (.tallyFlush 5 0x3FF) ∧
    (at' 0 (ow 0x1C 0x500 0x3FF) [] { wide := true }).stands 0 0 (ow 0x1C 0x500 0x3FF) (.tallyFlush 5 0x3FF) :=
  ⟨⟨by decide, by decide⟩, by decide, by decide⟩
theorem test_tallyClear_word : (at' 0 (ow 0x1C 0xFF0501 0) [] {}).stands 0 0 (ow 0x1C 0xFF0501 0) (.tallyClear 5 255) := ⟨by decide, by decide⟩

/-- Queue 3 of croft 0 is the stream's and its ring has two slots. -/
def ring3 : List (Page × Nat × Nat) := on (pgQueue 3) ++ on (pgOwn 0) ++ [(pgQueue 3, 0x1C0, 1), (pgOwn 0, 0x150, 0x1000)]
theorem test_sluice_stands : (at' 0 (ow 0x20 0x20003 0) ring3 {}).stands 0 0 (ow 0x20 0x20003 0) (.sluice 3 2) ∧
    (at' 0 (ow 0x20 0x20003 0) ring3 {}).enabled (pgQueue 3) = true ∧ (at' 0 (ow 0x20 0x20003 0) ring3 {}).queueOwner 0 3 = 1 ∧
    (at' 0 (ow 0x20 0x20003 0) ring3 {}).hasRoom 3 2 = true := ⟨⟨by decide, by decide⟩, by decide, by decide, by decide⟩

/-- A KIND of 0 stops with cause 1, a reserved bit with 2, a misplaced block with 3, and PC past the stream with 6 (R244, R261). -/
theorem test_stops : (at' 0 0 [] {}).ready 0 = .stop 1 0 ∧ (at' 0 (ow 1 1 0) [] {}).ready 0 = .stop 2 0 ∧
    (at' 1 (ow 0x11 1 0x41) [] {}).ready 0 = .stop 3 0x10 ∧ (live (running 512) {}).ready 0 = .stop 6 0x2000 ∧
    (at' 0 0 [] {}).fld (pgReeve 0) R.STATE_STATE ≠ stFault := by decide

/-! ### Waits that end -/

/-- Croft 0 waits at PC 254 on the order of word `w`. -/
def waits (w : OrderWord) (k : Wait) (r : Reeve) : State := at' 254 w [] { r with wait := k }
theorem test_fence_waits : (waits (ow 4 0x41 0) .fence {}).waiting 0 = some (254, ow 4 0x41 0, .fence 0x41 false false false) ∧
    ((waits (ow 4 0x41 0) .fence {}).reeve 0).drained 0x41 = true ∧ ((waits (ow 4 0x41 0) .fence {}).reeve 0).pend = [] := by decide
theorem test_layerFence_waits : (waits (ow 4 0x10000 0) .fence {}).waiting 0 = some (254, ow 4 0x10000 0, .fence 0 true false false) ∧
    ((waits (ow 4 0x10000 0) .fence {}).reeve 0).drained 0x3F = true := by decide
theorem test_span_closes : (waits (ow 4 0x30000 0) .fence { span := some (0, 0), wide := true, spanOvf := true }).waiting 0 =
    some (254, ow 4 0x30000 0, .fence 0 true true false) := by decide
theorem test_span_repeats : (waits (ow 4 0x30000 0) .fence { span := some (253, 0), spanOvf := true }).waiting 0 =
    some (254, ow 4 0x30000 0, .fence 0 true true false) ∧ 253 ∉ ((waits (ow 4 0x30000 0) .fence { span := some (253, 0) }).reeve 0).repeated := by
  decide
theorem test_token_waits : (waits (ow 6 0x20500 0) .token { tokens := [(5, 2)] }).waiting 0 = some (254, ow 6 0x20500 0, .tokenWait 5 2) ∧
    2 ≤ ((waits (ow 6 0x20500 0) .token { tokens := [(5, 2)] }).reeve 0).token 5 ∧
    ((waits (ow 6 0x20500 0) .token { tokens := [(5, 1)] }).reeve 0).token 5 < 2 ∧
    (waits (ow 6 0x20500 0) .token {}).fld (pgOwn 0) R.own_CFG_NPHASE ≤ 16 := by decide
/-- Token 5 is the phase token of a croft with two phases. -/
theorem test_phase_token : (at' 0 (ow 6 0x20500 0) (on (pgOwn 0) ++ [(pgOwn 0, 0x040, 0x502)]) {}).isPhaseToken 0 5 = true := by decide
theorem test_bell_waits : (waits (ow 7 0 100) (.bell 100) {}).waiting 0 = some (254, ow 7 0 100, .bell false 100) := by decide
theorem test_seed_waits : (waits (ow 8 5 0) .seed {}).waiting 0 = some (254, ow 8 5 0, .seed 5) ∧
    ∀ o ∈ ((waits (ow 8 5 0) .seed {}).reeve 0).orders, o.rounds = false := by decide
theorem test_signal_leaves :
    let s := at' 0 0 [] { pend := [⟨3, 0, ow 6 0x20501 0x103⟩], orders := [⟨3, 0, 0, 0, 1, true, false⟩, ⟨1, 0, 0, 2, 3, true, false⟩] }
    decodeOrder (ow 6 0x20501 0x103) = .ok (.tokenSignal 5 2 3 1) ∧ s.underReset (pgReeve 0) = false ∧
    ∀ o ∈ (s.reeve 0).orders, 3 ≤ o.serial ∨ 1 / 2 ^ o.unit % 2 = 0 := by decide
theorem test_signal_arrives :
    let s := live [] { signals := [⟨none, 0, 5, 65535, none, false⟩, ⟨none, 0, 5, 65535, none, true⟩] }
    s.dev.signals[0]? = some ⟨none, 0, 5, 65535, none, false⟩ ∧ s.dev.signals[1]? = some ⟨none, 0, 5, 65535, none, true⟩ ∧ 0 ∉ s.dev.incWindow ∧
    s.underReset (pgReeve 0) = false ∧ (s.reeve 0).token 5 ≤ 65535 := by decide
/-- A count that would exceed 65,535 stays there (R258). -/
theorem test_signal_overflows : ∀ t, exec (.tokenSignalArrival 0)
    { live [] { signals := [⟨none, 0, 5, 1, none, false⟩] } with crofts := [(0, { reeve := { tokens := [(5, 65535)] } })] } = .next t →
    (t.reeve 0).token 5 = 65535 ∧ t.bit (pgReeve 0) R.reeve_STATUS_TOKEN_OVF = true := by
  intro t h; cases h; decide
theorem test_halt_waits : (waits (ow 2 7 0) .haltOrder {}).waiting 0 = some (254, ow 2 7 0, .halt 7) ∧
    ((waits (ow 2 7 0) .haltOrder { pend := [⟨0, 0, 0⟩] }).reeve 0).pend ≠ [] := by decide
theorem test_halt_code : ∀ t, exec (.haltComplete 0) (waits (ow 2 0xABCD 0) .haltOrder {}) = .next t →
    t.fld (pgReeve 0) R.reeve_HALT_INFO_CODE = 0xABCD ∧ t.fld (pgReeve 0) R.reeve_STATUS_HALT_REASON = 1 := by
  intro t h; cases h; decide
theorem test_croft_drained : let s := at' 0 0 [] { halting := some 7 }
    (s.reeve 0).halting = some 7 ∧ (s.reeve 0).dead = false ∧ (s.reeve 0).orders = [] ∧ (s.reeve 0).pend = [] ∧
    (s.reeve 0).wait ≠ .verdict ∧ (s.reeve 0).wait ≠ .seed := by decide
theorem test_croft_runs : let s := at' 0 0 [] {}
    s.running 0 = true ∧ (s.reeve 0).dead = false ∧ s.underReset (pgReeve 0) = false ∧ s.atReady = true ∧
    (at' 0 0 [] { halting := some 5 }).running 0 = true := by decide
theorem test_croft_restarts : let s := live (on (pgReeve 0) ++ [(pgReeve 0, 0x050, 2)]) {}
    s.canRestart 0 = true ∧ s.atReady = true ∧ s.underReset (pgReeve 0) = false ∧ (live [] {}).canRestart 0 = false := by decide

theorem test_fence_goes_on_waiting : let s := waits (ow 4 0x41 0) .fence { orders := [⟨0, 0, 0, 0, 1, true, false⟩] }
    s.waiting 0 = some (254, ow 4 0x41 0, .fence 0x41 false false false) ∧ (s.reeve 0).wait = .fence ∧ (s.reeve 0).drained 0x41 = false := by decide
/-- The mill's bit of a FENCE covers an epilogue (R244). -/
theorem test_epilogue_holds_the_mills_fence :
    ((waits (ow 4 0x20 0) .fence { orders := [⟨0, 0, ow 0x14 0x100 0x40, 1, 2, true, false⟩] }).reeve 0).drained 0x20 = false := by decide
theorem test_signal_leaves_a_croft_that_runs :
    let s := at' 0 0 [] { pend := [⟨3, 0, ow 6 0x20501 0x103⟩], orders := [⟨3, 0, 0, 0, 1, true, false⟩, ⟨1, 0, 0, 2, 3, true, false⟩] }
    s.clockRuns 0 = true ∧ ∀ o ∈ (s.reeve 0).orders, 3 ≤ o.serial ∨ o.mask &&& 1 = 0 := by decide
def sig (d t : Nat) (q : Option Nat) (m : Bool) : TokSig := ⟨none, d, t, 3, q, m⟩
theorem test_signals_keep_their_order : let s := live [] { signals := [sig 0 5 (some 7) true, sig 1 5 (some 7) true, sig 0 6 none false] }
    s.signalAt true 1 = some 1 ∧ (s.dev.signals.take 1).any (sig 1 5 (some 7) true).after = true ∧ s.signalAt false 0 = some 2 ∧
    (s.dev.signals.take 2).any (sig 0 6 none false).after = false ∧ s.signalAt false 1 = none := by decide
theorem test_signal_within_the_window : 0 ∈ (live [] { signals := [sig 0 5 none false], incWindow := [0] }).dev.incWindow := by decide
theorem test_signal_at_a_reset_croft : let s := live [] { signals := [sig 0 5 none false], resets := [⟨.croft 0, false⟩] }
    s.underReset (pgReeve 0) = true ∧ s.signalAt false 0 = some 0 ∧ 0 ∉ s.dev.incWindow := by decide
theorem test_croft_halts_while_its_clock_runs : (at' 0 0 [] { halting := some 7 }).clockRuns 0 = true := by decide
theorem test_halt_request_finds_nothing : (live [] {}).running 0 = false ∧ (live [] {}).atReady = true ∧ (live [] {}).underReset (pgReeve 0) = false := by
  decide

/-! ### Wells and plumb -/

/-- Croft 0 with its ownership page enabled: every use of every well, and bank group 0 for agent `a`. -/
def owned (a : Nat) : List (Page × Nat × Nat) :=
  on (pgOwn 0) ++ [(pgOwn 0, 0x100, 0x77777777), (pgOwn 0, 0x104, 0x77777777), (pgOwn 0, 0x108, 0x3F), (pgOwn 0, 0x110, a + 1 + 0xFF0)]

/-- A 32-bit word's bytes from an address on. -/
def words (l : List (Nat × Nat)) : List (Nat × Byte) := l.foldl (fun m x => Memory.writeBytes m (sliceAddr 0 x.1) (toLe 4 x.2)) []

/-- The oldest order of croft 0's reeve waits to start. -/
def starts (rs : List (Page × Nat × Nat)) (w : OrderWord) (unit engine : Nat) (k : Croft) (m : List (Nat × Byte)) : State :=
  { live (running 0 ++ rs) {} with
    mem := m, crofts := [(0, { k with reeve := { orders := [⟨0, 0, w, unit, engine, false, false⟩], serial := 1 } })] }

theorem bytes_of {s : State} {a : Nat} {bs : List Byte} (h : s.holds a bs) : s.bytes a bs.length = bs := by
  apply List.ext_getElem
  · simp [State.bytes]
  · intro i h1 h2
    simp only [State.bytes, List.getElem_map, List.getElem_range]
    rw [h i h2]
    simp [h2]

/-- Croft 0 with a LOAD on well 0 of an image of zero levels and the column scales `l` at slice offset 0. -/
def loadable (l : List Nat) : State := starts (owned agEdge) (ow 0x10 0 0) 0 1 {}
  (Memory.writeBytes (Memory.writeBytes [] (sliceAddr 0 0x40000) (l.flatMap (toLe 4))) (sliceAddr 0 0x40000 + 0x802) [1])

theorem scales_length (l : List Nat) : (l.flatMap (toLe 4)).length = 4 * l.length := by
  induction l with
  | nil => rfl
  | cons v l ih => rw [List.flatMap_cons, List.length_append, ih]; simp [toLe]; omega

theorem scales_words (l : List Nat) (h : ∀ v ∈ l, v < 2 ^ 32) : words32 (l.flatMap (toLe 4)) = l := by
  unfold words32
  rw [scales_length, Nat.mul_div_cancel_left _ (by decide)]
  induction l with
  | nil => rfl
  | cons v l ih =>
    have hv := h v (by simp)
    have e : toLe 4 v = [BitVec.ofNat 8 v, BitVec.ofNat 8 (v / 256), BitVec.ofNat 8 (v / 256 / 256), BitVec.ofNat 8 (v / 256 / 256 / 256)] := rfl
    rw [List.flatMap_cons, List.length_cons, e]
    simp only [cuts, List.map_cons, List.cons_append, List.nil_append, List.take_succ_cons, List.take_zero, List.drop_succ_cons, List.drop_zero,
      ih fun x hx => h x (by simp [hx])]
    congr 1
    simp only [leNat, BitVec.toNat_ofNat]
    omega

theorem image_read (b x : Nat) (bs : List Byte) (hl : bs.length = 0x800) :
    Memory.read (Memory.writeBytes (Memory.writeBytes [] b bs) (b + 0x802) [1]) x =
      if x = b + 0x802 then 1 else if b ≤ x ∧ x < b + 0x800 then bs.getD (x - b) 0 else 0 := by
  rw [Memory.read_writeBytes, Memory.read_writeBytes, hl]
  have e : ([1] : List Byte).length = 1 := rfl
  by_cases h : x = b + 0x802
  · rw [if_pos (by omega), if_pos h, h, Nat.sub_self]
    rfl
  · rw [if_neg (by omega), if_neg h]
    rfl

theorem loadable_byte (l : List Nat) (hl : l.length = 512) (x : Nat) : (loadable l).byte (sliceAddr 0 x) =
    if x = 0x40802 then 1 else if 0x40000 ≤ x ∧ x < 0x40800 then (l.flatMap (toLe 4)).getD (x - 0x40000) 0 else 0 := by
  have e : ∀ y, sliceAddr 0 y = sliceAddr 0 0 + y := fun y => by simp only [sliceAddr, Nat.add_zero]
  have k := image_read (sliceAddr 0 0x40000) (sliceAddr 0 x) (l.flatMap (toLe 4)) (by rw [scales_length, hl])
  refine Eq.trans k ?_
  rw [e x, e 0x40000]
  generalize sliceAddr 0 0 = b
  by_cases h : x = 0x40802
  · rw [if_pos (by omega), if_pos h]
  · rw [if_neg (by omega), if_neg h]
    by_cases h : 0x40000 ≤ x ∧ x < 0x40800
    · have e2 : b + x - (b + 0x40000) = x - 0x40000 := by omega
      rw [if_pos (by omega), if_pos h, e2]
    · rw [if_neg (by omega), if_neg h]

/-- R71: the image passes its checks. -/
theorem loadable_image (l : List Nat) (hl : l.length = 512) (h : ∀ v ∈ l, scaleOk v = true ∧ v < 2 ^ 32) :
    firstFault ((loadable l).imageChecks 0 0) = none := by
  have hb := loadable_byte l hl
  have hz : ∀ x, x ≠ 0x40802 → x < 0x40000 ∨ 0x40800 ≤ x → (loadable l).byte (sliceAddr 0 x) = 0 := by
    intro x h1 h2
    rw [hb, if_neg h1, if_neg (by omega)]
  have hsl : (loadable l).sl 0 0x40800 2 = 0 := by
    have e0 : (loadable l).byte (sliceAddr 0 0x40800) = 0 := hz _ (by decide) (by decide)
    have e1 : (loadable l).byte (sliceAddr 0 0x40800 + 1) = 0 := hz 0x40801 (by decide) (by decide)
    simp only [State.sl, State.le, State.bytes, List.range, List.range.loop, List.map_cons, List.map_nil, leNat, Nat.add_zero, e0, e1]
    decide
  have hlev : ((loadable l).bytes (sliceAddr 0 0) 0x40000).findIdx? (fun b => decide (b.toInt < -31) || decide (31 < b.toInt)) = none := by
    rw [List.findIdx?_eq_none_iff]
    intro b hm
    simp only [State.bytes, List.mem_map, List.mem_range] at hm
    obtain ⟨i, hi, rfl⟩ := hm
    have : sliceAddr 0 0 + i = sliceAddr 0 i := by simp only [sliceAddr, Nat.add_zero]
    rw [this, hz i (by omega) (by omega)]
    decide
  have hscl : (words32 ((loadable l).bytes (sliceAddr 0 (0 + 0x40000)) 0x800)).findIdx? (fun v => !scaleOk v) = none := by
    have : (loadable l).bytes (sliceAddr 0 (0 + 0x40000)) 0x800 = l.flatMap (toLe 4) := by
      have k := bytes_of (s := loadable l) (a := sliceAddr 0 0x40000) (bs := l.flatMap (toLe 4)) fun i hi => by
        rw [scales_length, hl] at hi
        have e : sliceAddr 0 0x40000 + i = sliceAddr 0 (0x40000 + i) := by simp only [sliceAddr]; omega
        rw [e, hb, if_neg (by omega), if_pos (by omega), Nat.add_sub_cancel_left]
      rwa [scales_length, hl] at k
    rw [this, scales_words l fun v hv => (h v hv).2, List.findIdx?_eq_none_iff]
    intro v hv
    simp [(h v hv).1]
  have hhdr : ∀ i < 64, ((loadable l).bytes (sliceAddr 0 (0 + 0x40800)) 64).getD i 0 = if i = 2 then 1 else 0 := by
    intro i hi
    have e : sliceAddr 0 (0 + 0x40800) + i = sliceAddr 0 (0x40800 + i) := by simp only [sliceAddr]; omega
    rw [State.bytes, List.getD_eq_getElem?_getD, List.getElem?_map, List.getElem?_range hi, Option.map_some, Option.getD_some, e]
    split
    · rename_i h; subst h; rw [hb, if_pos rfl]
    · rw [hz _ (by omega) (by omega)]
  have hhb : (List.range 64).find? (fun i =>
      let b := (((loadable l).bytes (sliceAddr 0 (0 + 0x40800)) 64).getD i 0).toNat
      if i = 0 then false else if i = 1 then decide (4 ≤ b) else if i = 2 then b != 1 else if i = 3 then b != 0 else b != 0) = none := by
    rw [List.find?_eq_none]
    intro i hi
    rw [List.mem_range] at hi
    simp only [hhdr i hi]
    by_cases h2 : i = 2
    · subst h2; decide
    · simp [h2]
  unfold State.imageChecks
  simp only [Nat.zero_add] at hscl hhb
  simp only [Nat.zero_add, hlev, hscl, hsl, hhb]
  rfl

theorem test_load_starts :
    let s := loadable (List.replicate 512 0x3F800000)
    s.mayStart 0 0 ⟨0, 0, ow 0x10 0 0, 0, 1, false, false⟩ ∧ decodeOrder (ow 0x10 0 0) = .ok (.load 0 0) ∧ s.wellsBusy 0 0 [0] = false ∧
    s.loadsNow 0 < 8 ∧ s.wellUse 0 0 % 2 = 1 ∧ s.bankColl 0 agEdge false [(0, imageSize)] = none ∧ firstFault (s.imageChecks 0 0) = none :=
  ⟨⟨by decide, by decide, by decide⟩, by decide, by decide, by decide, by decide, by decide,
    loadable_image _ (List.length_replicate ..) fun v hv => by rw [List.eq_of_mem_replicate hv]; decide⟩

/-- Well 0 of croft 0 with a LOAD in progress. -/
def loading (l : LoadRun) (warn : Nat) : State :=
  { live [] {} with wells := [(0, { load := some l, levels := [0] })], hamlets := [(0, { warn := warn })] }
theorem test_load_passes : ((loading ⟨0, 0, 0, 2, [], false, false⟩ 0).well 0).load = some ⟨0, 0, 0, 2, [], false, false⟩ ∧
    ((loading ⟨0, 0, 0, 2, [], false, false⟩ 0).well 0).resid.length ≤ 512 ∧ ((loading ⟨0, 0, 0, 2, [], false, false⟩ 0).well 0).cleanWindow = false ∧
    ((loading ⟨0, 0, 0, 2, [], false, false⟩ 0).hamlet 0).warn = 0 ∧ ((loading ⟨0, 0, 0, 0, [], true, false⟩ 1).hamlet 0).warn ≠ 0 ∧
    ((loading ⟨0, 0, 0, 0, [], true, false⟩ 0).well 0).load = some ⟨0, 0, 0, 0, [], true, false⟩ := by decide
/-- A cell 100 eighths of a level above its target is outside every tolerance (R74). -/
theorem test_load_goes_on : 1 < (loading ⟨0, 0, 0, 0, [], false, false⟩ 0).fld (pgWell 0) R.well_LOADCFG_MAX_PASS ∧
    2 * ((loading ⟨0, 0, 0, 0, [], false, false⟩ 0).fld (pgWell 0) R.well_LOADCFG_VTOL + 1) < ((100 : Int) - 8 * targetLevel [0] 0 0).natAbs := by decide
set_option maxRecDepth 50000 in
theorem test_load_last_passes : ∀ t, exec (.loadPassEnd 0 []) (loading ⟨0, 0, 0, 2, [], false, false⟩ 0) = .next t →
    t.fld (pgWell 0) R.well_STATUS_LAST_PASSES = 3 ∧ t.bit (pgWell 0) R.well_STATUS_LOADED = true := by
  intro t h; cases h; decide
theorem test_trims_wait : ({ live [] {} with wells := [(0, { shadow := some [(5, -3)] })] } : State).well 0 = { shadow := some [(5, -3)] } ∧
    ({ live [] {} with wells := [(0, { shadow := some [(5, -3)] })] } : State).drawing 0 = false := by decide
theorem test_loaded_well : (live [(pgWell 0, 0x050, 1)] {}).bit (pgWell 0) R.well_STATUS_LOADED = true := by decide

/-- A DRAW block at slice offset 0x40 (R249): well 0, 16 E4M3 inputs of one row at 0x1000, its record at 0x10000. -/
def drawBlock : List (Nat × Byte) :=
  words [(0x48, 0x30001000), (0x58, 16), (0x64, 1), (0x68, 0x10000), (0x6C, 2112)]
def drawable : State := starts (owned agEdge) (ow 0x11 1 0x40) 0 1 {} drawBlock
theorem test_draw_starts :
    drawable.mayStart 0 0 ⟨0, 0, ow 0x11 1 0x40, 0, 1, false, false⟩ ∧ decodeOrder (ow 0x11 1 0x40) = .ok (.draw 1 0x40) ∧
    drawable.wellsBusy 0 0 (drawable.drawArgs 0 0x40).wells = false ∧ drawable.bankColl 0 agEdge false [(0x40, 64)] = none ∧
    (∀ w ∈ (drawable.drawArgs 0 0x40).wells, drawable.wellUse 0 w / 2 % 2 = 1) ∧ firstFault (drawable.drawChecks 0 0x40 1) = none ∧
    drawable.bankColl 0 agEdge false (drawable.regions 0 (drawable.asRead 0 (drawable.drawArgs 0 0x40).input) 1 16) = none ∧
    drawable.bankColl 0 agEdge true [(0x10000, 2052)] = none ∧ (drawable.drawArgs 0 0x40).rows = 1 ∧ (drawable.drawArgs 0 0x40).k = 16 :=
  ⟨⟨by decide, by decide, by decide⟩, by decide⟩

/-- A run of well 0 in croft 0. -/
def run0 : Run := { serial := 0, idx := 0, args := drawable.drawArgs 0 0x40, n := 2 }
def drawn (r : Run) (k : Croft) (rs : List (Page × Nat × Nat)) : State :=
  { live ((pgWell 0, 0x050, 1) :: rs) {} with mem := drawBlock, crofts := [(0, { k with runs := [r] })] }
theorem test_slot_begins : (drawn { run0 with live := true } {} []).runOf 0 = some { run0 with live := true } ∧
    (drawn run0 {} []).clockRuns 0 = true ∧ (drawn run0 {} []).underReset (pgWell 0) = false ∧ ((drawn run0 {} []).hamlet 0).warn = 0 := by decide
theorem test_draw_begins : (drawn run0 {} []).runOf 0 = some run0 ∧ (∀ i < run0.args.wells.length,
      (drawn run0 {} []).bit (pgWell (run0.well 0 i)) R.well_STATUS_LOADED = true ∧
      (drawn run0 {} []).reg (pgWell (run0.well 0 i)) R.well_SCALE_FP_FP.off = (drawn run0 {} []).reg (pgWell 0) R.well_SCALE_FP_FP.off) ∧
    (drawn run0 {} []).peelBad 0 ((drawn run0 {} []).asRead 0 run0.args.input) 16 = none ∧
    ((drawn run0 {} []).croft 0).escs.length + run0.args.wells.length ≤ 16 := by decide
def rec0 : DrawRec := ⟨0, 0, 0, false, 0x10000, [0], Edge.none, [], 1, 0, 0, false, false, []⟩
theorem test_draw_waits : 4 ≤ ((drawn run0 { leat := List.replicate 4 rec0 } []).croft 0).leat.length ∧
    (drawn run0 { leat := List.replicate 4 rec0 } []).runOf 0 = some run0 ∧ run0.waitLeat = false := by decide
theorem test_no_slot_in_relock : (drawn run0 {} [(pgCroft 0, R.croft_CLK_RELOCK.off, 2 ^ R.croft_CLK_RELOCK.lo)]).clockRuns 0 = false := by decide

set_option maxRecDepth 50000 in
/-- A code of 513 clips, one of −512 does not (R94). -/
theorem test_codes_clip : (codesAt [[513]] 0).any (fun x => decide (512 < x.natAbs)) = true ∧
    (codesAt [[-512]] 0).any (fun x => decide (512 < x.natAbs)) = false := by decide
def inSlot : Run := { run0 with live := true, inSlot := true }
theorem test_slice_ends : (drawn { inSlot with nrep := 2 } {} []).runOf 0 = some { inSlot with nrep := 2 } ∧
    (∀ x ∈ ((drawn { inSlot with nrep := 2 } {} []).croft 0).runs, x.serial = 0 → x = { inSlot with nrep := 2 }) ∧
    (∀ i < inSlot.args.wells.length, (drawn inSlot {} []).bit (pgWell (inSlot.well 0 i)) R.well_STATUS_STALE = false) ∧
    inSlot.args.wells.Nodup := by decide
theorem test_quarter_ends : (drawn { inSlot with quarter := some 2, quartering := [0] } {} []).runOf 0 =
    some { inSlot with quarter := some 2, quartering := [0] } := by decide
def lastSlot : Run := { inSlot with edge := { Edge.none with zero := true } }
theorem test_last_slice : (drawn lastSlot {} [(pgWell 0, 0x044, 1)]).runOf 0 = some lastSlot ∧ lastSlot.edge.zero = true ∧
    lastSlot.rep + 1 = lastSlot.nrep ∧ (drawn lastSlot {} [(pgWell 0, 0x044, 1)]).fld (pgWell 0) R.well_DRAWCFG_SLICES ≤ 1 ∧
    lastSlot.draw + 1 < lastSlot.n ∧ lastSlot.esc = [] := by decide

theorem test_record_promotes : ({ live [] {} with crofts := [(0, { leat := [rec0] })] } : State).intact = true ∧
    (({ live [] {} with crofts := [(0, { leat := [rec0] })] } : State).croft 0).leat.find? (fun x => x.wells.head? == some 0 && !x.promoted) = some rec0 :=
  ⟨rfl, by decide⟩
def promoted : DrawRec := { rec0 with promoted := true, y := List.replicate 512 0 }
set_option maxRecDepth 50000 in
theorem test_merge_starts : let s : State := { live [] {} with crofts := [(0, { leat := [promoted] })] }
    (s.croft 0).leat = [promoted] ∧ s.underReset (pgMill 0) = false := by decide
theorem zeros_at (n j : Nat) : (List.replicate n 0).getD j 0 = 0 := by
  simp only [List.getD_eq_getElem?_getD, List.getElem?_replicate]; split <;> rfl
def merging0 : State := { live [] {} with crofts := [(0, { leat := [{ promoted with merging := true }] })] }
theorem test_merge_ends : merging0.bit (pgMill 0) R.mill_MILLCFG_LEAT = true ∧ { promoted with merging := true }.y.length = 512 ∧
    ∀ j < 512, (mergeColumn (promoted.y.getD j 0) (merging0.leatTerms 0 { promoted with merging := true } j)).2 = none := by
  refine ⟨by decide, List.length_replicate, fun j hj => ?_⟩
  have hy : promoted.y.getD j 0 = 0 := zeros_at 512 j
  have ht : merging0.leatTerms 0 { promoted with merging := true } j = [] := by
    with_unfolding_all rfl
  rw [hy, ht]; decide
def part0 : EscPart := ⟨0, 0, 0, 0⟩
set_option maxRecDepth 50000 in
theorem test_part_ends : let s : State := { live [] {} with crofts := [(0, { leat := [{ promoted with parts := 1 }], escNow := some part0 })] }
    (s.croft 0).escNow = some part0 ∧
    (s.croft 0).leat.find? (fun r => r.serial == part0.serial && r.draw == part0.draw) = some { promoted with parts := 1 } := by decide

/-- A PLUMB order of well 2 on an idle plumb. -/
def plumbing : State := starts (owned agEdge) (ow 0x12 4 0) 0 7 {} []
theorem test_plumb_begins :
    plumbing.mayStart 0 0 ⟨0, 0, ow 0x12 4 0, 0, 7, false, false⟩ ∧ decodeOrder (ow 0x12 4 0) = .ok (.plumb 4 false) ∧
    (List.range 16).filter (fun w => 4 / 2 ^ w % 2 = 1) = [2] ∧ plumbing.wellsBusy 0 0 [2] = false ∧ plumbing.wellUse 0 2 / 4 ≠ 0 ∧
    (plumbing.croft 0).plumb = none := ⟨⟨by decide, by decide, by decide⟩, by decide⟩
def overdue (snd : Bool) : State := { live (on (pgPlumb 0) ++ [(pgPlumb 0, 0x040, 1)]) {} with wells := [(1, { overSound := snd, overWindow := !snd })] }
theorem test_plumb_auto_starts :
    (∀ b, (overdue b).bit (pgPlumb 0) R.plumb_PLUMBCFG_AUTO = true ∧ (overdue b).enabled (pgPlumb 0) = true ∧ ((overdue b).well 1).load = none ∧
      (if b then ((overdue b).well 1).overSound else ((overdue b).well 1).overWindow) = true ∧ ((overdue b).croft 0).plumb = none) ∧
    ((overdue true).well 0).overSound = false ∧ ((overdue false).well 0).overWindow = false ∧
    ∀ x < 16, ((overdue false).well x).overSound = false := by decide
def plumbJob (snd : Bool) : PlumbJob := ⟨some (0, 0), 3, [], snd, false⟩
theorem test_plumb_ends : ∀ b, let s : State := { live [] {} with crofts := [(0, { plumb := some (plumbJob b) })] }
    (s.croft 0).plumb = some (plumbJob b) ∧ (plumbJob b).restart = false ∧ (plumbJob b).rest = [] ∧ (plumbJob b).well < 16 ∧
    s.bit (pgPlumb 0) R.plumb_STATUS_TEMP_STALE = false := by decide
/-- A sum of 12 ones at the first point agrees with it; 73 more does not (R121). -/
theorem test_sounding_fails_above_six : (72 < (12 * soundPoints.headD 0 + 73 - 12 * soundPoints.headD 0).natAbs) ∧
    ¬ 72 < (12 * soundPoints.headD 0 - 72 - 12 * soundPoints.headD 0).natAbs := by decide

theorem test_load_is_held : ((loading ⟨0, 0, 0, 2, [], true, true⟩ 0).well 0).load = some ⟨0, 0, 0, 2, [], true, true⟩ := by decide
theorem test_load_image_is_sound (l : List Nat) : (loadable l).intact = true := rfl
theorem test_load_target : cellTarget ((loading ⟨0, 0, 0, 0, [], false, false⟩ 0).well 0).levels ((loading ⟨0, 0, 0, 0, [], false, false⟩ 0).well 0).spares
    0 0 = some 0 := by decide
theorem test_trims_wait_for_the_draw : ({ live [] {} with
    wells := [(0, { shadow := some [(5, -3)] })], crofts := [(0, { runs := [{ run0 with live := true }] })] } : State).drawing 0 = true := by decide
theorem test_draw_block_is_sound : drawable.intact = true := by decide
theorem test_slot_is_held_by_the_supply : ({ drawn run0 {} [] with hamlets := [(0, { warn := 1 })] } : State).runOf 0 = some run0 ∧
    ({ drawn run0 {} [] with hamlets := [(0, { warn := 1 })] } : State).hamlet 0 = { warn := 1 } := by decide
/-- The parts due of a draw of run `run0` in a croft with `k` parts queued. -/
def dueParts (k : Nat) : Nat :=
  let s := drawn run0 { escs := List.replicate k ⟨0, 0, 0, 0⟩ } [(pgWell 0, 0x050, 0x9)]
  (s.croft 0).escs.length + s.partsDue 0 + s.newParts 0 run0 (s.edgeOf 0 run0.args (run0.args.t0 + run0.draw) (s.fld (pgWell 0) R.well_DRAWCFG_SLICES))
theorem test_draw_waits_for_room : dueParts 15 = 16 ∧ dueParts 16 = 17 ∧ run0.waitEsc = false ∧
    (drawn run0 { escs := List.replicate 16 ⟨0, 0, 0, 0⟩ } [(pgWell 0, 0x050, 0x9)]).intact = true ∧
    (drawn run0 {} []).underReset (pgWell 0) = false ∧ (drawn run0 {} []).bit (pgWell 0) R.well_STATUS_LOADED = true := by decide +kernel
def edge1 : Edge := { Edge.none with wells := [⟨[], 0, [], []⟩] }
def base1 : Run := { inSlot with edge := edge1, part := [noCodes], cur := [noCodes] }
def codes1 (n : Int) : List (List Int) := [List.replicate 520 n]
theorem test_slot_clips : (drawn base1 {} []).runOf 0 = some base1 ∧ base1.clips (codes1 513) ≠ [] ∧ base1.clips (codes1 512) = [] ∧
    base1.args.wells.Nodup ∧ base1.inSlot = true ∧ base1.quarter = none := by decide +kernel
theorem test_quarter_leads_to_the_next : let r := { base1 with quarter := some 2, quartering := [0] }
    (drawn r {} []).runOf 0 = some r ∧ r.quartering.Nodup ∧ ∀ i ∈ r.quartering, i < r.args.wells.length := by decide +kernel
/-- SLICES 1 and AVG `a` on a loaded well that is stale or not, whose STALE_ACT is `f`. -/
def sliced (r : Run) (a : Nat) (stale fault : Bool) : State :=
  drawn r {} [(pgWell 0, 0x044, 1 + 8 * a), (pgWell 0, 0x050, if stale then 9 else 1), w1 (pgWell 0) R.well_RETCFG_STALE_ACT (if fault then 1 else 0)]
theorem test_slot_ends_by_quarters : let r := { base1 with quarter := some 3, quartering := [0] }
    (drawn r {} []).runOf 0 = some r ∧ r.inSlot = true ∧ r.args.wells.Nodup ∧ ∀ k ∈ r.quartering, k < r.args.wells.length := by decide +kernel
/-- What a slot's end finds for the codes `n`: a stale fault, more repeats due, a failed check, AVG, and whether it is the last slice. -/
def finds (r : Run) (a : Nat) (stale fault : Bool) (n : Int) : Bool × Bool × Bool × Bool × Bool :=
  let s := sliced r a stale fault
  let r0 := { r with part := r.slicePart (codes1 n) }
  let r1 := s.afterSlot 0 r0
  let fails := s.confFails 0 r1 r1.nrep
  (!(s.staleFaults 0 r0).isEmpty, decide (r1.rep < r1.nrep), !fails.isEmpty, s.fld (pgWell 0) R.well_DRAWCFG_AVG != 0,
    decide (s.fld (pgWell 0) R.well_DRAWCFG_SLICES ≤ ((r1.failing (fails.map (·.1))).nextSlice).slice))
theorem test_slots_end : finds base1 0 true true 0 = (true, false, false, false, true) ∧
    finds { base1 with nrep := 2 } 0 false false 0 = (false, true, false, false, true) ∧
    finds base1 1 false false 300 = (false, false, true, true, true) ∧ finds base1 0 false false 300 = (false, false, true, false, true) ∧
    finds base1 0 false false 0 = (false, false, false, false, true) ∧
    (sliced base1 1 false false).runOf 0 = some base1 ∧ base1.clips (codes1 300) = [] := by decide +kernel
theorem test_slice_goes_on : (drawn base1 {} [(pgWell 0, 0x044, 2)]).fld (pgWell 0) R.well_DRAWCFG_SLICES = 2 := by decide
theorem test_record_is_promoted_while_the_clock_runs : (drawn run0 { leat := [rec0] } []).clockRuns 0 = true ∧ promoted.edge.nan = false := by decide
/-- An escalated part of well 0 waits for the pump of croft 0; SCALE_FP is `x`. -/
def parted (x : Word) : State :=
  let s := live (owned 0) {}
  { s with
    regs := Sparse.set s.regs ((pgWell 0).base + R.well_SCALE_FP_FP.off) x
    crofts := [(0, { leat := [{ promoted with parts := 1 }], escs := [part0] })] }
theorem parted_fp (x : Word) : (parted x).reg (pgWell 0) R.well_SCALE_FP_FP.off = x := by
  simp only [State.reg, parted, Sparse.get?_set_same, Option.getD_some]
theorem imageFp_parted (x : Word) : (parted x).imageFp 0 0 = (parted 0).imageFp 0 0 := by
  have h : (parted x).mem = (parted 0).mem := rfl
  simp only [State.imageFp, State.bytes, State.byte, h]
theorem test_part_starts : ∃ x, (parted x).imageFp 0 0 = (parted x).reg (pgWell 0) R.well_SCALE_FP_FP.off :=
  ⟨(parted 0).imageFp 0 0, by rw [parted_fp, imageFp_parted]⟩
theorem test_part_may_start : let s := parted 0
    (s.croft 0).leat.find? (fun r => r.serial == part0.serial && r.draw == part0.draw) = some { promoted with parts := 1 } ∧ s.intact = true ∧
    s.clockRuns 0 = true ∧ s.pumpRun (s.escPump 0) = none ∧ s.underReset (pgPump (s.escPump 0)) = false ∧
    s.bankMiss 0 (s.escPump 0) false (s.fld (pgWell 0) R.well_IMG_ADDR_OFFSET) 0x40800 = none ∧ s.fld (pgWell 0) R.well_IMG_ADDR_OFFSET = 0 ∧
    (s.croft 0).escNow = none ∧ (s.croft 0).escs = [part0] ∧ part0.well = 0 := by decide +kernel
theorem test_plumb_auto_starts_while_not_reset : (overdue true).underReset (pgPlumb 0) = false := by decide

/-! ### Pumps and the mill -/

/-- A PUMP block at slice offset 0x40 (R250): A of 1 × 1 at 0x1000 and B at 0x2000 in BF16, C at 0x10000 in BF16; E0 in BF16 and E1 in FP32. -/
def pumpBlock : List (Nat × Byte) :=
  words [(0x40, 0x10001000), (0x50, 0x10002000), (0x60, 0x10010000), (0x70, 0x10003000), (0x80, 0x00004000), (0xA0, 1), (0xA4, 1), (0xA8, 1)]
def pumpable : State := starts (owned 0) (ow 0x14 0 0x40) 1 2 {} pumpBlock
theorem test_pump_starts :
    let b := pumpable.pumpArgs 0 0x40
    pumpable.mayStart 0 0 ⟨0, 0, ow 0x14 0 0x40, 1, 2, false, false⟩ ∧ decodeOrder (ow 0x14 0 0x40) = .ok (.pump 0 0 .none 0x40) ∧
    (∀ z ∈ (pumpable.reeve 0).orders, z.unit = 1 → 0 ≤ z.serial) ∧ pumpable.pumpRun 0 = none ∧ pumpable.underReset (pgPump 0) = false ∧
    b.hasRec = false ∧ pumpable.pumpRight 0 0 = true ∧ pumpable.bankColl 0 0 false [(0x40, 128)] = none ∧
    firstFault (pumpable.pumpChecks 0 0x40 0 0 (pumpable.orderOffset 0 0) false (orderBnd (ow 0x14 0 0x40))) = none ∧
    pumpable.bankColl 0 0 false (pumpable.regions 0 (pumpable.asRead 0 b.a) 1 1 ++ pumpable.regions 0 (pumpable.asRead 0 b.b) 1 1) = none ∧
    pumpable.bankColl 0 0 true (pumpable.regions 0 (asWritten false (orderBnd (ow 0x14 0 0x40)) b.c) 1 1) = none := 
  ⟨⟨by decide, by decide, by decide⟩, by decide⟩
/-- The same with the SMAX_BWD epilogue on pump 0, which the mill serves and writes for. -/
def fusable : State := starts (owned agMill) (ow 0x14 0x100 0x40) 1 2 {} pumpBlock
theorem test_fused_pump_starts :
    let b := fusable.pumpArgs 0 0x40
    fusable.mayStart 0 0 ⟨0, 0, ow 0x14 0x100 0x40, 1, 2, false, false⟩ ∧ decodeOrder (ow 0x14 0x100 0x40) = .ok (.pump 0 0 .smaxBwd 0x40) ∧
    fusable.pumpRight 0 0 = true ∧ fusable.epiRight 0 0 = true ∧
    firstFault (fusable.pumpChecks 0 0x40 0 1 (fusable.orderOffset 0 0) false (orderBnd (ow 0x14 0x100 0x40))) = none ∧
    fusable.bankColl 0 agMill false (fusable.regions 0 b.e0 1 1 ++ fusable.regions 0 b.e1 1 1) = none ∧
    fusable.bankColl 0 agMill true (fusable.regions 0 (asWritten false (orderBnd (ow 0x14 0x100 0x40)) b.c) 1 1) = none :=
  ⟨⟨by decide, by decide, by decide⟩, by decide⟩

def run1 : PumpRun := { serial := 0, idx := 0, shape := 0, epi := 0, bnd := false, layer := 0, args := pumpable.pumpArgs 0 0x40, scale := 0 }
def tile1 (b : Bool) : TileConv := ⟨0, 0, [⟨Val.zero false, Val.zero false⟩], none, b⟩
def pumps (r : PumpRun) (rs : List (Page × Nat × Nat)) : State := { live rs {} with mem := pumpBlock, pumps := [(0, r)] }
theorem test_chunk_ends : (pumps run1 []).pumpRun 0 = some run1 ∧ (pumps run1 []).underReset (pgPump 0) = false ∧
    ((pumps run1 []).croft 0).escNow.isSome = false ∧ run1.tile < run1.tileRows * run1.tileCols ∧ run1.conv = none ∧
    (pumps run1 []).peelBad 0 ((pumps run1 []).asRead 0 run1.args.a) 1 = none ∧
    (pumps run1 []).peelBad 0 ((pumps run1 []).asRead 0 run1.args.b) 1 = none ∧ (pumps run1 []).bit pgNum R.numstep_CFG_HERITAGE = false := by
  decide
def conv1 (r b : Bool) : PumpRun := { run1 with tile := if b then 0 else 1, conv := some (tile1 r) }
theorem test_tile_is_written : (pumps (conv1 false true) []).intact = true ∧ (pumps (conv1 false true) []).pumpRun 0 = some (conv1 false true) ∧
    ((pumps (conv1 false true) []).pumpConv 0 (conv1 false true) (tile1 false) ((pumps (conv1 false true) []).pumpOut 0 (conv1 false true)) 0).ovf
      = false ∧
    ((pumps (conv1 false true) []).pumpConv 0 (conv1 false true) (tile1 false) ((pumps (conv1 false true) []).pumpOut 0 (conv1 false true)) 0).causes.all
      (· == 0) = true ∧ (conv1 false true).tile < (conv1 false true).tileRows * (conv1 false true).tileCols :=
  ⟨by decide, by decide, by decide, by decide, by decide⟩
theorem test_tile_retries : (pumps (conv1 true true) []).pumpRun 0 = some (conv1 true true) ∧
    ((pumps (conv1 true true) []).pumpConv 0 (conv1 true true) (tile1 true) ((pumps (conv1 true true) []).pumpOut 0 (conv1 true true)) 4).ovf
      = false := by decide
/-- A block of E4M3 at scale byte 0 that holds 2¹⁰⁰ overflows (R55). -/
theorem test_block_overflows : (convert { TRef.zero with fmt := 5, block := 1, smode := 1 } ((pumps run1 []).convMode 0) (fun i => i) 0 0 0
    (Val.fin false 1 100 :: List.replicate 15 (Val.zero false)) { rng := (pumps run1 []).rng 0 }).ovf = true := by decide
def fused1 (e : Nat) : PumpRun := { conv1 false true with epi := e }
theorem test_epilogue_tile : ∀ e ∈ [1, 2, 3], (pumps (fused1 e) []).pumpRun 0 = some (fused1 e) ∧ (fused1 e).epi ≠ 0 ∧
    ((pumps (fused1 e) []).croft 0).mill = none ∧ (pumps (fused1 e) []).underReset (pgMill 0) = false ∧
    (fused1 e).tile < (fused1 e).tileRows * (fused1 e).tileCols := by decide
/-- An order of two tile columns: the first tile is not the strip's last. -/
theorem test_strip_goes_on : let r : PumpRun := { fused1 2 with args := { run1.args with n := 65 } }
    (tile1 false).col + 1 < r.tileCols ∧ (List.replicate (r.rowsIn 0 * r.colsIn 0) (⟨Val.zero false, Val.zero false⟩ : Pair)).length =
      r.rowsIn (tile1 false).row * r.colsIn (tile1 false).col :=
  ⟨by decide, List.length_replicate⟩

/-- A MILL order of operation `op` on S0 at 0x1000 and S1 at 0x2000, both one BF16 element of value 1. -/
def bf16 (e : Nat) : TRef := { TRef.zero with elem := e, fmt := 1 }
def margs : MillArgs := ⟨[bf16 0x1000, bf16 0x2000, TRef.zero, bf16 0x10000], 1, 1, 0, 0, 0, 0, 0, 0⟩
def mrun (op : Nat) : MillRun := { serial := 0, idx := 0, op := op, bnd := false, layer := 0, args := margs, scale := 0, rows := 1, len := 1 }
def milling (r : MillRun) : State :=
  { live [] {} with mem := words [(0x1000, 0x3F80), (0x2000, 0x3F80)], crofts := [(0, { mill := some r })] }
theorem test_mill_carries : ∀ x ∈ (millRows 0 .carry).map (·.2), ((milling (mrun x)).croft 0).mill = some (mrun x) ∧ (mrun x).carried = false ∧
    (mrun x).cmp = none ∧ (milling (mrun x)).underReset (pgMill 0) = false ∧ (milling (mrun x)).bit pgNum R.numstep_CFG_HERITAGE = false ∧
    (mrun x).args.copy = false := by decide
theorem test_mill_divides : (milling (mrun 0x0D)).millIn 0 (mrun 0x0D) 1 ≠ [] ∧
    (∀ b ∈ ((milling (mrun 0x0D)).millIn 0 (mrun 0x0D) 1).flatten, b.isZero = false) ∧
    ((milling (mrun 0x28)).millIn 0 (mrun 0x28) 0).flatten.length = ((milling (mrun 0x28)).millIn 0 (mrun 0x28) 1).flatten.length := by decide
/-- Hand calculation: 1 + 1 is 2, whose BF16 code is 0x4000. -/
theorem test_add_of_ones : (((milling (mrun 1)).millResult 0 (mrun 1) false).outs.map (·.vals)).flatten.map code32 = [0x40000000] := by decide
def mout : MillOut := { ref := bf16 0x10000, len := 1, slot := 3, vals := [Val.fin false 1 0] }
def stretching (rem retry : Bool) : MillRun := { mrun 1 with carried := true, outs := [{ mout with rem := rem }], retry := retry }
theorem test_stretch_is_written : ∀ a b, ((milling (stretching a b)).croft 0).mill = some (stretching a b) ∧
    (stretching a b).outs.findIdx? (fun o => decide (o.done < o.vals.length)) = some 0 ∧ (stretching a b).outs[0]? = some { mout with rem := a } := by
  decide
theorem test_stretch_is_sound : (milling (stretching false false)).intact = true := by decide
def ending (op : Nat) (c : Option (Nat × Contrib)) : MillRun := { mrun op with carried := true, outs := [{ mout with done := 1 }], cmp := c }
def contrib0 (f : Nat) : Contrib := ⟨0, ⟨Val.fin false 1 0, Val.zero false⟩, ⟨Val.fin false 1 f, Val.zero false⟩, false, 0, 1⟩
theorem test_mill_order_ends : ∀ x ∈ [ending 0x22 none, ending 1 none, ending 0 (some (3, contrib0 0))],
    ((milling x).croft 0).mill = some x ∧ x.carried = true ∧ (∀ o ∈ x.outs, o.vals.length ≤ o.done) ∧ x.raw = [] ∧
    (asWritten ((milling x).millWide 0 x) x.bnd (x.args.slot 3)).smode ≠ 1 := by decide
theorem test_convert_writes_amax : ({ margs with flags := 0x800 } : MillArgs).hasAmax = true := by decide

theorem test_pump_block_is_sound : pumpable.intact = true ∧ fusable.intact = true ∧ (pumps run1 []).intact = true ∧ (milling (mrun 1)).intact = true := by decide
theorem test_chunk_may_end : (pumps run1 []).clockRuns 0 = true ∧
    decide (ceilDiv run1.args.k (chunkLen ((pumps run1 []).asRead 0 run1.args.a) ((pumps run1 []).asRead 0 run1.args.b)) ≤ run1.chunk + 1) = true := by decide
/-- The escalation pump is pump 0, which an escalated part holds; a tile before is still in the converter; every tile is done. -/
theorem test_chunk_is_held : ({ pumps run1 [] with crofts := [(0, { escNow := some part0 })] } : State).escPump 0 = 0 ∧
    (conv1 false true).conv.isSome = true ∧ ¬ (conv1 false false).tile < (conv1 false false).tileRows * (conv1 false false).tileCols := by decide
/-- A tile of one element, 2¹⁰⁰, converted to E4M3 under DELAYED scales at scale byte 0, with TILE_RETRY. -/
def over1 (r : Bool) : PumpRun := { run1 with
  args := { run1.args with c := { TRef.zero with elem := 0x10000, fmt := 5, block := 1, smode := 1, scale := 0x20000 }, rc := 0x8000 }
  conv := some { tile1 r with sums := [⟨Val.fin false 1 100, Val.zero false⟩] } }
theorem test_tile_overflows : let s := pumps (over1 false) []
    let tc : TileConv := { tile1 false with sums := [⟨Val.fin false 1 100, Val.zero false⟩] }
    (s.pumpConv 0 (over1 false) tc (s.pumpOut 0 (over1 false)) 0).ovf = true ∧ (s.pumpOut 0 (over1 false)).smode = 1 ∧ s.clockRuns 0 = true ∧
    s.bit (pgPump 0) R.pump_PUMPCFG_OVF_POLICY = false ∧ s.pumpRun 0 = some (over1 false) ∧ (over1 false).conv = some tc ∧ (over1 false).epi = 0 ∧
    (pumps (over1 true) []).pumpRun 0 = some (over1 true) := by decide +kernel
theorem test_strip_ends : let r : PumpRun := { fused1 2 with args := { run1.args with n := 65 } }
    r.tileCols ≤ ({ tile1 false with col := 1 } : TileConv).col + 1 ∧ (fused1 1).epi = 1 := by decide
/-- A result of one element, 2¹⁰⁰, to E4M3 under DELAYED scales. -/
def stretchOver (retry : Bool) : MillRun := { mrun 1 with
  carried := true, retry := retry, outs := [{ ref := { TRef.zero with elem := 0x10000, fmt := 5, block := 1, smode := 1, scale := 0x20000 }, len := 1, slot := 3, vals := [Val.fin false 1 100] }] }
theorem test_stretch_overflows : let s := milling (stretchOver false)
    let o : MillOut := { ref := { TRef.zero with elem := 0x10000, fmt := 5, block := 1, smode := 1, scale := 0x20000 }, len := 1, slot := 3, vals := [Val.fin false 1 100] }
    (stretchOver false).outs[0]? = some o ∧ s.clockRuns 0 = true ∧ s.bit (pgMill 0) R.mill_MILLCFG_OVF_POLICY = false ∧
    (convert o.ref (s.convMode 0) (fun i => (o.done + i) % 128) 0 (s.peelCap 0 o.ref - s.peelsBefore 0 o.ref true) 0 o.vals { rng := s.rng 0 }).ovf = true := by
  decide +kernel
theorem test_mill_order_has_ended : ∀ x ∈ [ending 0x22 none, ending 1 none, ending 0 (some (3, contrib0 0))],
    (milling x).clockRuns 0 = true ∧ (milling x).intact = true ∧ (milling x).underReset (pgMill 0) = false ∧ x.tally = [] ∧ x.args.tsrc = 0 := by decide
/-- A Tally source of 1 names the operation's first slot. -/
theorem test_tally_slot : (tallySlotOf 1 1 ((milling (mrun 1)).millSlots 0 1 0 margs false false)).isSome = true := by decide

/-! ### Tally -/

theorem test_compare_is_carried : let r : MillRun := { mrun 0 with cmp := some (3, contrib0 0) }
    ((milling r).croft 0).mill = some r ∧ r.carried = false ∧ (milling r).bit pgNum R.numstep_CFG_HERITAGE = false := by decide
/-- Croft 0 waits for the verdict of group 3, to which `k` compares of `l` belong. -/
def comparing (l : List (List Contrib)) (cs : List (Nat × Contrib)) : State :=
  { live (running 1) { groups := [(3, l)], contribs := cs } with
    crofts := [(0, { reeve := { orders := [⟨0, 0, ow 0x1C 0x00010302 0x40, 5, 8, true, false⟩], serial := 1, wait := .verdict } })] }
theorem test_contribution_joins :
    (comparing [] [(3, contrib0 0)]).dev.contribs[0]? = some (3, contrib0 0) ∧
    joinCompare (contrib0 0) ((comparing [] [(3, contrib0 0)]).compares 3) = some [[contrib0 0]] ∧ compareFull [contrib0 0] = true := by decide
/-- Two contributors of different layers disagree (R225). -/
theorem test_contribution_disagrees :
    joinCompare (contrib0 0) ((comparing [[{ contrib0 0 with layer := 1, count := 2 }]] [(3, contrib0 0)]).compares 3) = none ∧
    (comparing [] []).compareOrder (contrib0 0).croft = some ⟨0, 0, ow 0x1C 0x00010302 0x40, 5, 8, true, false⟩ := by decide
theorem test_verdict : (comparing [[contrib0 0]] []).compares 3 = [[contrib0 0]] ∧ compareFull [contrib0 0] = true ∧ (contrib0 0).croft < 128 ∧
    decodeOrder (ow 0x1C 0x00010302 0x40) = .ok (.tallyCompare 3 1 1 0x40) ∧ ((comparing [[contrib0 0]] []).reeve 0).wait = .verdict := by decide
/-- Hand calculation: D ≤ Q · 2^(−2 · limit) passes (R226): with limit 4, D = 1 needs Q ≥ 2⁸. -/
theorem test_verdict_limit : (verdictOf 4 [contrib0 8]).2.2 = false ∧ (verdictOf 4 [contrib0 7]).2.2 = true := by decide

/-! ### Steps and Stewards -/

/-- The device with nothing but registers written. -/
def bare (rs : List (Page × Nat × Nat)) : State := live rs {}

/-- Crofts 0 and 1 run; croft 0 waits on a step FENCE, croft 1 has reported or not (R255). -/
def fencing (b : Bool) : State :=
  { live (running 3 ++ on (pgReeve 1)) {} with
    crofts := [(0, { reeve := { wait := .fence, chunks := [⟨0, [(3, ow 4 0x40000 0)]⟩] } }), (1, { reeve := { reported := b, wait := .stepBarrier } })] }
theorem test_step_fence_is_over : ∀ b, (fencing b).stepFenceOver 0 = true ∧ (fencing b).dev.boundary = false ∧ (fencing b).enabledReeves = [0, 1] ∧
    ((fencing b).reeve 1).reported = b := by decide
def boundary (stop : Bool) : State := { live (on (pgReeve 1)) { boundary := true, stopHere := stop } with crofts := [(1, { reeve := { wait := .stepBarrier } })] }
theorem test_boundary_releases : ∀ b, (boundary b).releasable = true ∧ (boundary b).dev.stopHere = b ∧ ((boundary b).reeve 1).wait = .stepBarrier ∧
    ((boundary b).reeve 0).wait ≠ .stepBarrier := by decide
theorem test_nothing_to_release : (bare []).releasable = false := by decide

/-- An abandoned step on a device with croft 0 halted; RECLIST of one entry at 0x1000_0000_1000 that names a record at slice offset `o`. -/
def abandoned (halted o : Nat) : State :=
  { bare (on (pgReeve 0) ++ [w1 pgNum R.numstep_STATUS_ABANDONING 1, w1 (pgReeve 0) R.reeve_STATUS_HALTED halted,
      w1 pgNum R.numstep_RECLIST_LO_ADDR_LO 0x1000, w1 pgNum R.numstep_RECLIST_HI_ADDR_HI 0x1000, w1 pgNum R.numstep_RECLIST_LEN_LEN 1]) with
    mem := words [(0x1000, o), (0x1004, 0x1000)] }
theorem test_step_repeats : (abandoned 1 0x2000).bit pgNum R.numstep_STATUS_ABANDONING = true ∧
    (∀ c ∈ (abandoned 1 0x2000).enabledReeves, (abandoned 1 0x2000).bit (pgReeve c) R.reeve_STATUS_HALTED = true) ∧
    (abandoned 1 0x2000).enabledReeves = [0] ∧ (abandoned 1 0x2000).canRestart 0 = true ∧ (abandoned 1 0x2000).recCount = 1 ∧
    recordValid ((abandoned 1 0x2000).recEntry 0) = true ∧ recordValid ((abandoned 1 0x2004).recEntry 0) = false ∧
    (abandoned 0 0x2000).bit (pgReeve 0) R.reeve_STATUS_HALTED = false := by decide

/-- The Bucket page enabled, at step 5. -/
def bucketAt5 (ss : List StewMsg) : State := live (on pgBucket ++ [w1 pgNum R.numstep_STEP_INDEX 5]) { heard := ss }
theorem test_message_is_new : (∀ m ∈ [StewMsg.snapReq 7 6, .alarm 7 6 false, .alarm 7 6 true, .halted 7 6], (bucketAt5 []).newMsg m) ∧
    ¬ (bucketAt5 []).newMsg (.snapReq 0 6) ∧ ¬ (bucketAt5 [.snapReq 7 6]).newMsg (.snapReq 7 6) ∧ (bucketAt5 []).enabled pgBucket = true ∧
    (bucketAt5 []).stepIndex < 6 ∧ 5 ≤ (bucketAt5 []).stepIndex ∧ (bucketAt5 []).underReset pgBucket = false ∧
    (bucketAt5 []).bit pgNum R.numstep_STATUS_ABANDONING = false ∧ (bucketAt5 []).bit pgNum R.numstep_STATUS_HALTED = false := by
  unfold State.newMsg; decide
def stepEnding : State := { at' 4 (ow 1 0 0) [] {} with dev := { (live [] {}).dev with stepEnd := true } }
theorem test_step_ends : stepEnding.dev.stepEnd = true ∧ stepEnding.running 0 = true ∧ (stepEnding.reeve 0).halting = none ∧
    stepEnding.running 1 = false ∧ (bare []).dev.stepEnd = false := by decide

/-! ### Watch -/

theorem test_watch_event : (live [] { watchDue := [3, 5] }).dev.watchDue[1]? = some 5 := by decide
/-- Input 0 at 65,535 with weight 255 against a threshold of 200 (R410). -/
def watching : State := bare (on pgWatch ++ [w1 pgWatch R.watch_CFG_THRESH 200, (pgWatch, 0x100, 0x100FF), (pgWatch, 0x104, 0xFFFF)])
theorem test_watch_crosses : watching.enabled pgWatch = true ∧ watching.fld pgWatch R.watch_STATUS_SCORE < watching.fld pgWatch R.watch_CFG_THRESH ∧
    watching.fld pgWatch R.watch_CFG_THRESH ≤ min 255 ((List.range 16).map watching.contribution).sum := by decide
theorem test_watch_does_not_cross : (bare []).enabled pgWatch = false := by decide
/-- 256 / 2^PRESCALE with PRESCALE 3. -/
theorem test_event_adds : ∀ t, exec (.watchEvent 0) (live [(pgWatch, 0x128, 0x3000)] { watchDue := [5] }) = .next t → t.inputA 5 = 32 := by
  intro t h; cases h; decide
theorem test_residue : (at' 4 (ow 1 0 0) [] {}).croftUnderReset 0 = false ∧ (at' 4 (ow 1 0 0) [] {}).running 0 = true ∧
    (bare []).bit pgWatch R.watch_RES_LOG_VALID = false := by decide
theorem test_watchdog_expires : (at' 4 (ow 1 0 0) [] {}).running 0 = true ∧ ((at' 4 (ow 1 0 0) [] {}).reeve 0).dead = false ∧
    (at' 4 (ow 1 0 0) [] {}).underReset (pgReeve 0) = false ∧ (at' 4 (ow 1 0 0) [] {}).running 1 = false := by decide
theorem test_lane_fails : 3 < (Sparse.get? (live [] { laneFails := [(4, 3)] }).dev.laneFails 4).getD 0 + 1 ∧
    (Sparse.get? (live [] { laneFails := [(4, 2)] }).dev.laneFails 4).getD 0 + 1 ≤ 3 := by decide
/-- Share 2 of channel 0 in direction 0 is croft 5's. -/
def shares5 : State := bare [(pgFabric, R.fabric_SHARE_KIND.off + laneShareOff 0 0 2, 2 ^ R.fabric_SHARE_KIND.lo + 5 * 2 ^ R.fabric_SHARE_CROFT.lo)]
theorem test_router_shares : shares5.fld pgFabric (R.fabric_SHARE_KIND.plus (laneShareOff 0 0 2)) = 1 ∧
    shares5.fld pgFabric (R.fabric_SHARE_CROFT.plus (laneShareOff 0 0 2)) = 5 ∧ 5 ∈ shares5.sharers 0 0 := by decide
theorem test_router_discards : ∀ t, exec (.laneFlitHop false 0 2 6) shares5 = .next t → t.bit pgFabric R.fabric_HDR_LOG_VALID = true ∧
    t.fld pgFabric R.fabric_HDR_LOG_CROFT = 6 := by intro t h; cases h; decide

/-! ### Bucket -/

def snapping (n : Snap) : State := live (on pgBucket) { snap := some n }
def snap0 : Snap := { b := 4, bell := 0, slot := 1, pails := [3, 9], uncopied := [1], begun := true }
def byte9 : HeldWrite := ⟨.host, 9 * pailSize + 5, [1], false⟩
theorem test_snapshot_is_sound : (snapping snap0).intact = true := by decide
theorem test_pail_copies : ({ snap0 with staged := [(0, [])] } : Snap).staged = (0, []) :: [] ∧ snap0.begun = true ∧ snap0.staged = [] ∧
    snap0.uncopied = 1 :: [] ∧ snap0.held = [] ∧ (snapping snap0).dev.snap = some snap0 := by decide
theorem test_touch_releases : ({ snap0 with held := [byte9] } : Snap).held.head? = some byte9 ∧
    ({ snap0 with held := [byte9] } : Snap).waiting byte9.addr = some 1 ∧ snap0.staged.length < 16 := by decide
theorem test_snapshot_commits : let n : Snap := { snap0 with uncopied := [], acked := true }
    n.begun = true ∧ n.uncopied = [] ∧ n.staged = [] ∧ n.unacked = [] ∧ n.committing = false ∧ n.acked = true ∧ n.slot < 2 ∧
    ({ snap0 with unacked := [0] } : Snap).unacked[0]? = some 0 := by decide

def peer0 : Peer := ⟨0, 0, 1, 0, 0, 0, [⟨2, 0, 7, 1, 0, 0⟩, ⟨1, 0, 7, 1, 0, 0⟩], [4]⟩
/-- A header of STATE 2, owner 0 and step `7`, at slot 0 of a larder at pail 0. -/
def larderAt0 (st : Nat) : State :=
  { live (on pgBucket) { partner := some peer0, ward := some peer0 } with mem := Memory.writeBytes [] 0 (headerBytes ⟨st, 0, 7, 0, 0, 0⟩) }
theorem test_larder_header : (larderAt0 2).reaches .host pgBucket ∧ (larderAt0 2).mayRestore = true ∧
    (larderAt0 2).dev.partner = some peer0 ∧ peer0.headers[0]? = some ⟨2, 0, 7, 1, 0, 0⟩ ∧ (larderAt0 2).dev.ward = some peer0 ∧
    (let h := (larderAt0 2).header ((larderAt0 2).larder.1); h.state = 2 ∧ h.owner = (larderAt0 2).self) ∧
    ¬ ((larderAt0 1).header ((larderAt0 1).larder.1)).state = 2 := ⟨⟨by decide, by decide⟩, by decide⟩
theorem test_bucket_page_not_enabled : (bare []).reaches .host pgBucket ∧ (bare []).enabled pgBucket = false ∧ (bare []).mayRestore = false :=
  ⟨⟨by decide, by decide⟩, by decide, by decide⟩
def restoring (k : Nat) (d : BitVec 128) : Restore := ⟨k, 0, 7, d, 0, []⟩
theorem test_restore_done : ∀ x ∈ [restoring 2 0, restoring 1 0, restoring 3 1], (live [] { restore := some x }).dev.restore = some x ∧ x.left = [] := by
  decide
theorem test_restore_outcomes : (restoring 1 0).digest = (restoring 1 0).want ∧ (restoring 3 1).digest ≠ (restoring 3 1).want := by decide

theorem test_every_known_device_has_halted : let s : State := { abandoned 1 0x2000 with dev := { (abandoned 1 0x2000).dev with haltedDevs := [0] } }
    (∀ d ∈ s.knownDevs, d ∈ s.dev.haltedDevs) ∧ s.knownDevs ≠ [] ∧ s.intact = true ∧ s.bit pgNum R.numstep_STATUS_ABANDONING = true ∧
    (∃ d ∈ (abandoned 1 0x2000).knownDevs, d ∉ (abandoned 1 0x2000).dev.haltedDevs) := by decide
theorem test_alarm_while_abandoning : (bare [w1 pgNum R.numstep_STATUS_ABANDONING 1]).newMsg (.alarm 7 6 true) ∧
    (bare [w1 pgNum R.numstep_STATUS_ABANDONING 1]).bit pgNum R.numstep_STATUS_ABANDONING = true := by unfold State.newMsg; decide
theorem test_crossing_is_near : watching.stepIndex + 2 - watching.fld pgBucket R.bucket_B_LAST < 4 ∧
    (bare [w1 pgWatch R.watch_CFG_MIN_GAP 4]).fld pgWatch R.watch_CFG_MIN_GAP = 4 ∧
    ¬ (bare [w1 pgNum R.numstep_STEP_INDEX 5]).stepIndex + 2 - (bare []).fld pgBucket R.bucket_B_LAST < 4 := by decide
theorem test_no_residue_under_reset : ({ bare [] with dev := { (bare []).dev with resets := [⟨.croft 5, true⟩] } } : State).croftUnderReset 5 = true := by
  decide
/-- Share 15 goes on; a share of another kind, and a transit share of a link, go on whatever the croft. -/
theorem test_router_lets_go : (bare [(pgFabric, R.fabric_SHARE_KIND.off + laneShareOff 0 0 2, 2 * 2 ^ R.fabric_SHARE_KIND.lo)]).fld pgFabric
      (R.fabric_SHARE_KIND.plus (laneShareOff 0 0 2)) = 2 ∧
    (bare [(pgPort, R.port_RESP_SHARES.off + 12, 4)]).portFld R.port_RESP_SHARES (4 * 3) / 2 ^ 2 % 2 = 1 ∧
    (bare []).fld pgFabric (R.fabric_SHARE_KIND.plus (laneShareOff 0 0 2)) = 0 := by decide
/-- The newest flit of croft 6 in share 2 of link 3 goes. -/
theorem test_router_discards_a_link_flit : ∀ t, exec (.laneFlitHop true 3 2 6)
    { bare [] with links := [(3, { tx := [(2, [⟨6, .data []⟩, ⟨5, .data []⟩])] })] } = .next t → (t.link 3).waiting 2 = [⟨5, .data []⟩] := by
  intro t h; cases h; decide
theorem test_router_discards_a_beat : ∀ t, exec (.laneFlitHop false 0 2 6)
    { shares5 with crofts := [(4, { inJobs := [.write 0 6 ⟨16, 0, 0, 0, 0, 0, 0, false⟩ none [(0x4000, [1])]] })] } = .next t → (t.croft 4).inJobs = [] := by
  intro t h; cases h; decide
theorem test_pail_acks : ∀ st ∈ [0, 3, 7], (live [] { snap := some snap0, acks := [.segAck 0 3 0 0 0 0 st true] }).dev.acks[0]? = some (.segAck 0 3 0 0 0 0 st true) := by
  decide
theorem test_larder_is_sound : (larderAt0 2).intact = true := by decide

/-! ### Chunks, cisterns and granaries -/

/-- `f x`, with `x` evaluated first. -/
def forced {α : Type} (x : BitVec 32) (f : BitVec 32 → α) : α :=
  match x.toNat with | 0 => f 0#32 | n + 1 => f (BitVec.ofNat 32 (n + 1))
theorem forced_eq {α : Type} (x : BitVec 32) (f : BitVec 32 → α) : forced x f = f x := by
  unfold forced
  split
  · rename_i h; congr 1; exact (BitVec.eq_of_toNat_eq h).symm
  · rename_i n h; replace h : x.toNat = n + 1 := h
    rw [← h, BitVec.ofNat_toNat, BitVec.setWidth_eq]
def crcBit (r : BitVec 32) : BitVec 32 := if r.getLsbD 0 then (r >>> 1) ^^^ 0xEDB88320#32 else r >>> 1
def crcZeros : Nat → BitVec 32 → BitVec 32
  | 0, r => r
  | n + 1, r => forced (crcBit r) fun r => forced (crcBit r) fun r => forced (crcBit r) fun r => forced (crcBit r) fun r =>
      forced (crcBit r) fun r => forced (crcBit r) fun r => forced (crcBit r) fun r => forced (crcBit r) (crcZeros n)
theorem crcZeros_eq (n : Nat) (r : BitVec 32) : (List.replicate n 0).foldl crcByte r = crcZeros n r := by
  induction n generalizing r with
  | zero => rfl
  | succ n ih =>
    have e : crcByte r 0 = crcBit (crcBit (crcBit (crcBit (crcBit (crcBit (crcBit (crcBit r))))))) := by
      have z : r ^^^ BitVec.setWidth 32 (0#8) = r := by simp
      unfold crcByte
      show List.foldl _ (r ^^^ BitVec.setWidth 32 (0#8)) _ = _
      rw [z]; rfl
    simp only [List.replicate_succ, List.foldl_cons, ih, e, crcZeros, forced_eq]

/-- The check record of chunk 0 of stream 0 (R241): KIND 0x3F and the CRC of 4,080 zeros. -/
def check0 : OrderWord := BitVec.ofNat 128 (0x3F + 0x11DDF14F * 2 ^ 64)
/-- The CRC of R241 on the 4,080 zero bytes that precede the check record. -/
theorem test_crc_of_zeros : crc32 (List.replicate 4080 0) = 0x11DDF14F#32 := by
  rw [crc32, crcZeros_eq]
  decide +kernel
theorem test_check_record : checkRecordOk check0 0 0 = true ∧ checkRecordOk check0 0 1 = false ∧ bitsOf check0.toNat 64 32 = 0x11DDF14F := by decide
/-- Croft 0 wants chunk 0 of its stream, fetched once before or not. -/
def wanting (r : Option Nat) : State := { live (running 0) {} with crofts := [(0, { reeve := { refetch := r } })] }
theorem test_chunk_is_wanted : ∀ r ∈ [none, some 0], (wanting r).fetchWanted 0 0 = true ∧ (wanting r).fetchWanted 0 1 = false ∧
    ((wanting r).reeve 0).refetch = r := by decide
/-- The record in memory at the chunk's end, and what is fetched with it. -/
def fetched : List Byte := List.replicate 4080 0 ++ toLe 16 check0.toNat
theorem test_chunk_agrees : let w : OrderWord := BitVec.ofNat 128 (leNat (fetched.drop 4080))
    checkRecordOk w 0 0 = true ∧ bitsOf w.toNat 64 32 = (crc32 (fetched.take 4080)).toNat := by
  have hl : (List.replicate 4080 (0 : Byte)).length = 4080 := List.length_replicate
  have hd : fetched.drop 4080 = toLe 16 check0.toNat := List.drop_left' hl
  have ht : fetched.take 4080 = List.replicate 4080 0 := List.take_left' hl
  rw [hd, ht, test_crc_of_zeros]
  decide

theorem test_in_stripe : Machine.inStripe 0x100 8 = true ∧ Machine.inStripe 0x100 256 = true ∧ Machine.inStripe 0x1FF 2 = false := by decide
/-- Word 0 of croft 0's slice with bits changed, and another of its stripe beyond SECDED or not. -/
def flipped (m o : BitVec 72) : State := live [] { flips := [(sliceAddr 0 0 / 8, m), (sliceAddr 0 8 / 8, o)] }
theorem test_cistern_words : wordsOf (sliceAddr 0 0) 8 = [sliceAddr 0 0 / 8] ∧ (flipped 4 0).underReset (pgCist 0) = false ∧
    weight ((flipped 4 0).flipOf (sliceAddr 0 0 / 8)) = 1 ∧ weight ((flipped 5 0).flipOf (sliceAddr 0 0 / 8)) = 2 ∧
    (flipped 5 0).rebuildable (sliceAddr 0 0 / 8 / 32) (sliceAddr 0 0 / 8) = true ∧
    (flipped 5 3).rebuildable (sliceAddr 0 0 / 8 / 32) (sliceAddr 0 0 / 8) = false ∧ (flipped 5 3).parityDiff (sliceAddr 0 0 / 8 / 32) = 0 ∧
    sliceAddr 0 0 / 8 ∉ (flipped 5 3).dev.deadWords ∧ (bare []).flipOf (sliceAddr 0 0 / 8) = 0 := by decide
theorem test_clean_stripe : ∀ st, (bare []).cleanStripe st := fun _ => ⟨fun _ _ => rfl, rfl, rfl⟩
theorem test_cistern_state : (bare []).intact = true ∧ (bare [w1 (pgCist 0) R.cistern_CFG_SCRUB_EN 0]).bit (pgCist 0) R.cistern_CFG_SCRUB_EN = false ∧
    (bare [w1 (pgCist 0) R.cistern_CFG_SCRUB_EN 1]).bit (pgCist 0) R.cistern_CFG_SCRUB_EN = true := by decide
/-- Granary 0 enabled with granule 3 changed by `m`. -/
def granary (m : BitVec 544) (d : Device) (rs : List (Page × Nat × Nat)) : State := live (on (pgGran 0) ++ rs) { d with granFlips := [(3, m)] }
theorem test_granary_reads : (granary 1 {} []).granServes 0 = true ∧ granuleOf 0 3 = 3 ∧
    (symbolsOf ((granary 1 {} []).granMask 3)).length = 1 ∧ (symbolsOf ((granary 0x101 {} []).granMask 3)).length = 2 ∧
    (symbolsOf ((granary 0 {} []).granMask 3)).length = 0 ∧ (granary 1 {} []).fld (pgGran 0) R.granary_CFG_RS_MODE ≠ 1 ∧
    (granary 1 {} [w1 (pgGran 0) R.granary_CFG_RS_MODE 1]).fld (pgGran 0) R.granary_CFG_RS_MODE = 1 := by decide +kernel
theorem test_granary_rereads : (granary 0 { rereads := [⟨0, 3, .read .host⟩] } []).dev.rereads.find? (fun x => x.hamlet == 0) = some ⟨0, 3, .read .host⟩ ∧
    (granary 0 {} []).dev.rereads.find? (fun x => x.hamlet == 0) = none ∧ 3 / 2 ^ 30 = 0 := by decide
theorem test_granary_writes : (bare (on (pgGran 0))).intact = true ∧ (granary 0 {} []).dev.snap = none ∧ granuleOf 0 (0xC5 / 64) = 3 ∧
    0xC5 % 64 + ([1, 2] : List Byte).length ≤ 64 := by decide
theorem test_granary_scrubs : (granary 0 {} [w1 (pgGran 0) R.granary_CFG_SCRUB_EN 1]).bit (pgGran 0) R.granary_CFG_SCRUB_EN = true ∧
    (granary 0 { writeRetries := [3] } []).dev.writeRetries.contains 3 = true ∧
    (granary 0 {} []).dev.writeRetries.contains 3 = false ∧
    (Sparse.get? (granary 0 { tempFails := [(0, 1)] } []).dev.tempFails 0).getD 0 = 1 ∧ (Sparse.get? (granary 0 {} []).dev.tempFails 0).getD 0 = 0 := by
  decide
/-- Refresh keeps its rate between 83 and 85 °C (R313). -/
theorem test_refresh_hysteresis : ∀ t, exec (.granaryTempReadout 0 (some 84)) (granary 0 {} [w1 (pgGran 0) R.granary_STATUS_REFRESH_2X 1]) = .next t →
    t.bit (pgGran 0) R.granary_STATUS_REFRESH_2X = true ∧ t.fld (pgGran 0) R.granary_THERM_TEMP = 84 := by intro t h; cases h; decide

/-! ### Queues -/

/-- Queue 0 of croft 0: its stream's, a ring of two descriptors at 0x1000 with records at 0x2000, and what its ring holds. -/
def queueing (k : Queue) (rs : List (Page × Nat × Nat)) (ds : List (Nat × Nat)) (d : Device) : State :=
  { live (on (pgOwn 0) ++ [(pgOwn 0, 0x110, agSluice + 1 + 0xFF0), (pgOwn 0, 0x150, 1), w1 (pgQueue 0) (R.qgroup_QCFG_RING_LOG.plus (qblk 0)) 1 |>
        fun x => (x.1, x.2.1, x.2.2 + 4 * 2 ^ R.qgroup_QCFG_MAX_OUT.lo),
      w1 (pgQueue 0) (R.qgroup_RING_BASE_BASE.plus (qblk 0)) 0x40, w1 (pgQueue 0) (R.qgroup_COMP_BASE_BASE.plus (qblk 0)) 0x80] ++ rs) d with
    queues := [(0, k)], mem := words ds }
def hosted : State := queueing {} [(pgOwn 0, 0x150, 2)] [] {}
theorem test_doorbell : hosted.reaches (ringAgent .host) (pgQueue 0) ∧ hosted.queueOwner (qCroft 0) (qLocal 0) = ringOwner .host ∧
    hosted.queueOwner (qCroft 0) (qLocal 0) ≠ ringOwner .bucket ∧ hosted.hasRoom 0 2 = true ∧ hosted.hasRoom 0 3 = false :=
  ⟨⟨by decide, by decide⟩, by decide⟩
/-- A descriptor of KIND `k` at ring slot 0: one row of 64 bytes from granary 0 to slice offset 0x3000, COUNT of each token 1 (R329). -/
def descWords (k : Nat) : List (Nat × Nat) :=
  [(0x1000, k), (0x1004, 0x10000), (0x1008, 0x10000), (0x1018, 0x3000), (0x101C, 0x1000), (0x1024, 1), (0x1028, 64), (0x102C, 64), (0x1030, 64)]
theorem test_descriptor_starts : let s := queueing { tail := 1 } [] (descWords 2) {}
    let k := s.queue 0
    (k.head < k.tail ∧ k.stopper = none ∧ k.waiting = none ∧ k.xfers.length < s.qfld 0 R.qgroup_QCFG_MAX_OUT ∧
      s.croftUnderReset 0 = false ∧ s.clockRuns 0 = true) ∧ s.bankMiss 0 agSluice false (s.descOff 0 k.head) 64 = none ∧
    s.descErr k (s.readDesc 0 (s.descOff 0 k.head)) = false ∧ (s.readDesc 0 (s.descOff 0 k.head)).kind = 2 := by decide
theorem test_descriptor_errs : let s := queueing { tail := 1 } [] (descWords 4) {}
    s.descErr (s.queue 0) (s.readDesc 0 (s.descOff 0 (s.queue 0).head)) = true ∧ s.qfld 0 R.qgroup_QCFG_MODE = 0 := by decide
theorem test_epoch_waits_for_records : let s := queueing { tail := 2, head := 1 } [] (descWords 3) {}
    ((s.readDesc 0 (s.descOff 0 0)).kind == 3 && !(s.queue 0).allWritten) = true := by decide

def desc (k : Nat) : Desc := ⟨k, 5, false, false, false, false, false, 13, (0, 0, 1), (0, 0, 1), 0, 0, sliceAddr 0 0x3000, 0, false, 1, 64, 64, 64, 7, false⟩
def xfer (k : Nat) (f : Bool) : Xfer := ⟨0, 0, desc k, [{ size := 64 }], f⟩
def oneXfer (k : Nat) (f : Bool) : State := queueing { tail := 1, head := 1, xfers := [xfer k f], tags := [5], owner := 1 } [] [] {}
theorem test_fresh_transfers : ∀ k ∈ [0, 1, 2, 3], (oneXfer k true).freshXfer 0 k = some (xfer k true) ∧ (oneXfer k false).freshXfer 0 k = none := by decide
theorem test_nop_completes : (oneXfer 0 true).intact = true ∧ 1 ≤ (xfer 0 true).desc.nseg ∧ (xfer 0 true).desc.nseg ≤ 64 ∧
    (oneXfer 0 true).bankMiss 0 agSluice true ((oneXfer 0 true).recOff 0 0) 32 = none := by decide
theorem test_epoch_states : (queueing { waiting := some none } [] [] {}).reaches .host (pgQueue 0) ∧
    ((queueing { waiting := some none } [] [] {}).queue 0).waiting = some none ∧
    (queueing { stopper := some 0 } [] [] {} |>.queue 0).state = 2 ∧ (queueing {} [] [] {} |>.queue 0).state = 0 ∧
    (oneXfer 1 true |>.queue 0).state = 1 := ⟨⟨by decide, by decide⟩, by decide⟩
/-- Epoch 1 was left at 0 and its timeout is not over. -/
theorem test_epoch_is_too_soon : let s := queueing { left := [(1, 0)] } [w1 (pgQueue 0) (R.qgroup_QCFG_SEG_TIMEOUT.plus (qblk 0)) 1] [] {}
    Sparse.get? (s.queue 0).left 1 = some 0 ∧ s.now < 0 + s.epochGuard 0 ∧ Sparse.get? (queueing {} [] [] {} |>.queue 0).left 1 = none := by decide

/-- Cycle 1 of the frame names queue 0, and cycle 2 the IN slot. -/
def cycling : State := { oneXfer 2 false with
  regs := Sparse.set (oneXfer 2 false).regs ((pgSluice 0).base + 0x040) 0x8000, crofts := [(0, { inJobs := [.write 0 0 ⟨16, 0, 0, 0, 0, 0, 0, false⟩ none [(0x4000, [1])]] })] }
theorem test_sluice_moves_a_fill : let d := desc 2
    let ps := d.granules 0 64
    cycling.drained 0 = false ∧ cycling.clockRuns 0 = true ∧ cycling.slotEntry 0 1 = 0 ∧ (cycling.queue 0).owner = 1 ∧
    cycling.current 0 = some (xfer 2 false, 0, { size := 64 }) ∧ cycling.dstDest d = .here ∧ ps = [0] ∧
    (∀ p ∈ ps, placeOf (d.dstAddr p) = .slice 0 (d.dstAddr p - sliceAddr 0 0)) ∧
    (∀ p ∈ ps, cycling.bankMiss 0 agSluice true (d.dstAddr p - sliceAddr 0 0) 64 = none) := by decide
theorem test_sluice_serves_in : cycling.slotEntry 0 2 = 0x80 ∧ (cycling.croft 0).inJobs = [.write 0 0 ⟨16, 0, 0, 0, 0, 0, 0, false⟩ none [(0x4000, [1])]] ∧
    cycling.bankMiss 0 agSluice true 0x4000 1 = none ∧ cycling.bankMiss 0 agSluice true 0xF000000 1 ≠ none := by decide
theorem test_cycling_sound : cycling.intact = true := by decide
theorem test_segments_end : let x : Xfer := { xfer 1 false with segs := [{ size := 64, moved := 64 }] }
    let s := queueing { tail := 1, head := 1, xfers := [x] } [] [] { acks := [.segAck 0 0 5 0 0 0 0 false] }
    (s.queue 0).xfers.find? (fun x => x.idx % 2 ^ 32 == 0) = some x ∧ x.segs[0]? = some { size := 64, moved := 64 } ∧
    s.dev.acks[0]? = some (.segAck 0 0 5 0 0 0 0 false) ∧ s.inc 0 = 0 ∧ (s.queue 0).epoch = 0 ∧
    (s.queue 0).xfers.find? (fun x => x.desc.tag == 5 && x.epoch == 0) = some x ∧ s.xfer? 0 x.idx = some x := by decide +kernel

/-- The chunk's bytes with its check record in memory. -/
def checked : State := { wanting none with mem := Memory.writeBytes [] (sliceAddr 0 0xFF0) (toLe 16 check0.toNat) }
theorem zeros_then (n : Nat) (l : List Byte) (i : Nat) : (List.replicate n (0 : Byte) ++ l).getD i 0 = if i < n then 0 else l.getD (i - n) 0 := by
  simp only [List.getD_eq_getElem?_getD, List.getElem?_append, List.length_replicate, List.getElem?_replicate]
  split <;> simp_all
theorem fetched_length : fetched.length = 4096 := by
  unfold fetched; rw [List.length_append, List.length_replicate]; rfl
theorem read_empty (a : Nat) : Memory.read [] a = 0 := rfl
theorem checked_holds : checked.holds (sliceAddr 0 0) fetched := by
  intro i hi
  rw [fetched_length] at hi
  have k : checked.byte (sliceAddr 0 0 + i) = Memory.read (Memory.writeBytes [] (sliceAddr 0 0xFF0) (toLe 16 check0.toNat)) (sliceAddr 0 0 + i) := rfl
  have l : (toLe 16 check0.toNat).length = 16 := rfl
  have e : sliceAddr 0 0xFF0 = sliceAddr 0 0 + 4080 := rfl
  unfold fetched
  rw [k, Memory.read_writeBytes, l, e, zeros_then, read_empty]
  generalize sliceAddr 0 0 = b
  generalize toLe 16 check0.toNat = z
  by_cases h : i < 4080
  · rw [if_neg (by omega), if_pos h]
  · have h2 : b + i - (b + 4080) = i - 4080 := by omega
    rw [if_pos (by omega), if_neg h, h2]
theorem test_chunk_in_memory : checked.bytes (sliceAddr 0 (checked.orderOffset 0 0)) 4096 = fetched ∧ checked.intact = true ∧
    checked.fetchWanted 0 0 = true := by
  refine ⟨?_, by decide, by decide⟩
  have h := bytes_of checked_holds
  rwa [fetched_length] at h
theorem test_bad_records : checkRecordOk 0 0 0 = false ∧ checkRecordOk (BitVec.ofNat 128 0x3F) 0 0 = true ∧
    bitsOf (BitVec.ofNat 128 0x3F : OrderWord).toNat 64 32 ≠ 0x11DDF14F := by decide
theorem test_rivals : writeRank .bucket < writeRank .steward ∧ writeRank (.engine 2 7) ≤ writeRank .bucket ∧ writeRank .host = writeRank (.engine 2 7) := by decide
theorem test_cistern_engine_reads : (flipped 5 3).rebuildable (sliceAddr 0 0 / 8 / 32) (sliceAddr 0 0 / 8) = false ∧
    (flipped 5 3).fld (pgReeve 0) R.STATE_STATE ≠ stFault ∧ (flipped 5 3).bit (pgCist 0) R.CTL_ENABLE = false ∧ (bare []).dev.deadWords = [] := by decide
theorem test_stripe_is_clean_but_for_word_0 :
    (flipped 4 0).parityFlip (sliceAddr 0 0 / 8 / 32) = 0 ∧ (flipped 4 0).parityDiff (sliceAddr 0 0 / 8 / 32) = 0 ∧
    (flipped 4 0).flipOf (sliceAddr 0 8 / 8) = 0 := by decide
theorem test_granary_merges_and_scrubs_again : ∀ w ∈ [RereadFor.merge .host 0xC5 [1, 2], .scrub, .read .host],
    (granary 0 { rereads := [⟨0, 3, w⟩] } []).dev.rereads.find? (fun x => x.hamlet == 0) = some ⟨0, 3, w⟩ ∧ (granary 0 {} []).dev.deadGranules = [] ∧
    symbolsOf ((granary 0 {} []).granMask 3) = [] ∧ (bare []).dev.snap = none := by decide +kernel
theorem test_granary_waits : (queueing { xfers := [{ xfer 1 false with segs := [{ size := 64, moved := 1 }] }] } [] [] {}).granWaits 0 0 = true ∧ (bare []).granWaits 0 0 = false := by decide

theorem test_left_soon : (queueing { left := [(1, 0)] } [w1 (pgQueue 0) (R.qgroup_QCFG_SEG_TIMEOUT.plus (qblk 0)) 1] [] {}).leftSoon 0 = true ∧
    (queueing {} [] [] {}).leftSoon 0 = false ∧ (queueing {} [] [] {}).intact = true ∧
    (queueing { stopper := some 0, left := [(1, 0)] } [w1 (pgQueue 0) (R.qgroup_QCFG_SEG_TIMEOUT.plus (qblk 0)) 1] [] {}).leftSoon 0 = true := by decide
theorem test_host_rings_for_another : (oneXfer 1 false).reaches (ringAgent .host) (pgQueue 0) ∧
    (oneXfer 1 false).queueOwner (qCroft 0) (qLocal 0) ≠ ringOwner .host := ⟨⟨by decide, by decide⟩, by decide⟩
theorem test_no_descriptor_waits : ¬ (queueing {} [] [] {} |>.queue 0).head < (queueing {} [] [] {} |>.queue 0).tail := by decide
theorem test_fill_is_whole_granules : let d := desc 2
    d.kind = 2 ∧ d.dst % 64 = 0 ∧ d.dstPitch % 64 = 0 ∧ d.rowBytes % 64 = 0 ∧ ({ size := 64 } : Seg).moved % 64 = 0 ∧ 64 ≤ ({ size := 64 } : Seg).size - 0 := by
  decide
theorem test_stale_acks : let s := queueing { tail := 1, head := 1 } [] [] { acks := [.segAck 0 0 5 1 0 0 0 false, .segAck 0 0 5 0 3 0 0 false] }
    s.dev.acks[0]? = some (.segAck 0 0 5 1 0 0 0 false) ∧ (1 : BitVec 4).toNat ≠ (s.queue 0).epoch ∧
    s.dev.acks[1]? = some (.segAck 0 0 5 0 3 0 0 false) ∧ (3 : BitVec 4).toNat ≠ s.inc 0 := by decide

/-! ### Links -/

/-- Link 3 in state `st` with what it holds. -/
def linked (st : Nat) (k : Link) (rs : List (Page × Nat × Nat)) (d : Device) : State :=
  { live ([w1 (pgLink 3) R.link_LSTATUS_STATE st, w1 pgPort R.port_STATUS_UP 8] ++ rs) d with links := [(3, k)] }
theorem test_link_states : ∀ i < 5, (linked i {} [] {}).linkState 3 = i ∧ (linked i {} [] {}).linkUp 3 = true := by decide
def idle : Flit := ⟨0, .idle⟩
def head (k : MKind) (a : BitVec 52) : Head := ⟨k, false, 0, 0, 0, 0, 0, 0, 0, 0, a, 0, 64, 64, 0, false⟩
/-- A frame that says nothing but its twenty flits, from sequence number 0. -/
def frame (y : Flit) : Frame := ⟨0, 0, 0, 0, false, false, false, [], y :: List.replicate 19 idle⟩
/-- Its lanes, with a header CRC of `h` and the flit CRCs `c`. -/
def lanesOf (y : Flit) (h : BitVec 32) (c : Nat → BitVec 32) : List (List (BitVec 2)) := stripe (laid (frame y) h c (List.replicate 96 0))
/-- The CRC of flit `i` of the frame. -/
def crcOf (y : Flit) (i : Nat) : BitVec 32 :=
  let x := (frame y).flits.getD i idle
  flitCrc i (flitHeader x) (payloadBytes x.body)
theorem received_lanes (y : Flit) (h : BitVec 32) (c : Nat → BitVec 32) (hy : flitOf (flitHeader y) (payloadBytes y.body) = y) :
    (Machine.received (lanesOf y h c) []).frame = frame y ∧ (Machine.received (lanesOf y h c) []).headerOk = (crc32 (frame y).fields == h) ∧
    (Machine.received (lanesOf y h c) []).ok = (List.range 20).map (fun i => crcOf y i == c i) := by
  have e : Machine.received (lanesOf y h c) [] = frameOf (laid (frame y) h c (List.replicate 96 0)) := by
    unfold Machine.received lanesOf
    rw [List.foldl_nil, unstripe_stripe]
    rw [length_laid _ _ _ _ rfl, List.length_replicate]
  obtain ⟨a, b, d⟩ := frameOf_laid (frame y) h c (List.replicate 96 0) rfl rfl
  rw [e]
  refine ⟨?_, b, ?_⟩
  · rw [a]
    have hi : flitOf (flitHeader idle) (payloadBytes idle.body) = idle := by decide
    unfold frame
    simp only [List.map_cons, List.map_replicate, hy, hi]
  · rw [d]
    apply List.map_congr_left
    intro i hi
    have : i < 20 := List.mem_range.mp hi
    have z : ((frame y).firstSeq.toNat + i) % 2 ^ 32 = i := by
      show (0 + i) % 2 ^ 32 = i
      omega
    dsimp only
    rw [z]; rfl
theorem not_self (x : BitVec 32) : (x == ~~~x) = false := by
  rw [beq_eq_false_iff_ne]
  intro h
  have := congrArg (fun y : BitVec 32 => y.getLsbD 0) h
  simp at this
theorem test_frame_whose_header_fails : (Machine.received (lanesOf idle (~~~crc32 (frame idle).fields) (crcOf idle)) []).headerOk = false := by
  rw [(received_lanes idle _ _ (by decide)).2.1, not_self]
theorem test_frame_in_sequence : let x := Machine.received (lanesOf idle (crc32 (frame idle).fields) (crcOf idle)) []
    x.headerOk = true ∧ x.frame = frame idle ∧ x.ok = List.replicate 20 true ∧ (frame idle).firstSeq.toNat = (linked 2 {} [] {} |>.link 3).expect % 2 ^ 32 := by
  obtain ⟨a, b, c⟩ := received_lanes idle (crc32 (frame idle).fields) (crcOf idle) (by decide)
  refine ⟨by rw [b, beq_self_eq_true], a, ?_, by decide⟩
  rw [c]; simp only [beq_self_eq_true]; decide
theorem test_frame_whose_first_flit_fails :
    let x := Machine.received (lanesOf idle (crc32 (frame idle).fields) (fun i => if i = 0 then ~~~crcOf idle 0 else crcOf idle i)) []
    x.headerOk = true ∧ x.frame = frame idle ∧ x.ok = false :: List.replicate 19 true := by
  obtain ⟨a, b, c⟩ := received_lanes idle (crc32 (frame idle).fields) (fun i => if i = 0 then ~~~crcOf idle 0 else crcOf idle i) (by decide)
  refine ⟨by rw [b, beq_self_eq_true], a, ?_⟩
  rw [c]
  apply List.ext_getElem
  · simp
  · intro i h1 h2
    rw [List.getElem_map, List.getElem_range]
    cases i with
    | zero => rw [if_pos rfl, not_self]; rfl
    | succ n => rw [if_neg (by omega), beq_self_eq_true, List.getElem_cons_succ, List.getElem_replicate]
def asks : Flit := ⟨5, .head (head .readReq 0x40)⟩
/-- A HEAD's fields come back from its bytes (R360). -/
theorem test_head_bytes : flitOf (flitHeader asks) (payloadBytes asks.body) = asks ∧
    headOfBytes (pad256 (headBytes ⟨.readResp, true, 255, 1, 2, 3, 4, 5, 6, 7, 0xFFFFFFFFFFFFF, 0x123456789ABCD, 8, 9, 10, true⟩)) =
      ⟨.readResp, true, 255, 1, 2, 3, 4, 5, 6, 7, 0xFFFFFFFFFFFFF, 0x123456789ABCD, 8, 9, 10, true⟩ := by decide +kernel
theorem test_frame_with_a_read : let x := Machine.received (lanesOf asks (crc32 (frame asks).fields) (crcOf asks)) []
    x.headerOk = true ∧ x.frame = frame asks ∧ x.ok = List.replicate 20 true ∧ (head .readReq 0x40).dstDev.toNat = (linked 2 {} [] {}).self ∧
    (linked 2 {} [] {}).forward 3 ((frame asks).firstSeq.toNat % 16) = none := by
  obtain ⟨a, b, c⟩ := received_lanes asks (crc32 (frame asks).fields) (crcOf asks) test_head_bytes.1
  refine ⟨by rw [b, beq_self_eq_true], a, ?_, by decide, by decide⟩
  rw [c]; simp only [beq_self_eq_true]; decide
/-- A control message's word is laid out as R358 says, and comes back. -/
theorem test_ctrl_words : ∀ m ∈ [Ctrl.none, .segAck 1 2 3 4 5 6 7 true, .signal 9 127 255 65535, .bell 12345, .reserved], ctrlOf (ctrlWord m) = m := by decide
theorem lanes_length (bs : List Byte) : (stripe bs).length = 12 ∧ ∀ l ∈ stripe bs, l.length = 1792 := by
  refine ⟨by simp [stripe], fun l h => ?_⟩
  obtain ⟨i, -, rfl⟩ := List.mem_map.mp h
  rw [length_flatMap_block _ 4 _ (fun _ _ => rfl), List.length_range]
/-- The frame that comes as the symbols of lanes `L`, in the four operands that carry them. -/
def arrives (L : List (List (BitVec 2))) (fixes : List (Fin 5376 × Byte)) (flagged : List (Fin 24)) : Instr :=
  .frameReceive 3 (L.take 3) ((L.drop 3).take 3) (((L.drop 3).drop 3).take 3) (((L.drop 3).drop 3).drop 3) fixes flagged
/-- Every list of lanes stands in four operands as `FramesAreReceived` joins them. -/
theorem test_lanes_join (L : List (List (BitVec 2))) :
    L.take 3 ++ (L.drop 3).take 3 ++ ((L.drop 3).drop 3).take 3 ++ ((L.drop 3).drop 3).drop 3 = L := by
  simp only [List.append_assoc, List.take_append_drop]
/-- A third correction within one codeword, a correction in a flagged codeword and a repeated place are no operands (R350). -/
theorem test_frame_operands (bs : List Byte) : (arrives (stripe bs) [(0, 1), (24, 1)] [1]).wf = true ∧
    (arrives (stripe bs) [(0, 1), (24, 1), (48, 1)] []).wf = false ∧
    (arrives (stripe bs) [(5280, 1)] [0]).wf = false ∧ (arrives (stripe bs) [(0, 1), (0, 2)] []).wf = false ∧
    (arrives (stripe bs) [] [2, 2]).wf = false := by
  have h2 : (stripe bs).all (fun l => l.length == 1792) = true := by
    rw [List.all_eq_true]; intro l h; rw [(lanes_length bs).2 l h]; rfl
  simp only [arrives, Instr.wf, frameOperands, test_lanes_join, h2, List.length_take, List.length_drop, (lanes_length bs).1]
  decide
def sent (n : Nat) : Sent Flit := ⟨7, idle, n⟩
theorem test_replays : let k : Link := { replay := [sent 2], creplay := [⟨3, .reserved, 0⟩] }
    ((linked 2 k [] {}).link 3).replay = sent 2 :: [] ∧ worn [sent 2] 7 = false ∧ worn [sent 3] 7 = true ∧
    ((linked 2 k [] {}).link 3).creplay = [⟨3, .reserved, 0⟩] ∧ worn k.creplay 3 = false ∧ ((linked 2 {} [] {}).link 3).replay = [] := by decide
theorem test_link_commands : (linked 2 { retrainDue := true } [] {}).reaches .host (pgLink 3) ∧ ((linked 2 { retrainDue := true } [] {}).link 3).retrainDue = true ∧
    (linked 3 {} [w1 (pgLink 3) R.link_FAR_ID_FAR_DEV 5, (pgBell, R.bell_STATUS_STATE.off, bLocked)] {}).bellState ≠ bFree ∧
    (linked 3 {} [w1 (pgLink 3) R.link_FAR_ID_VALID 1] {}).bit (pgLink 3) R.link_FAR_ID_VALID = true ∧
    (linked 3 {} [w1 (pgLink 3) R.link_FAR_ID_FAR_DEV 5] {}).fld (pgLink 3) R.link_FAR_ID_FAR_DEV = 5 ∧
    (linked 3 {} [] {}).bit (pgLink 3) R.link_FAR_ID_VALID = false ∧ ((linked 3 { wasDown := true } [] {}).link 3).wasDown = true :=
  ⟨⟨by decide, by decide⟩, by decide⟩
/-- A message of one byte on link 3 and its kind and address; granary 0 serves. -/
def msg (k : MKind) (a : BitVec 52) : RxMsg := ⟨2, 0, head k a, [0xAB], false⟩
def received (k : MKind) (a : BitVec 52) : State :=
  linked 2 { inbox := [msg k a] } (on (pgGran 0) ++ [(pgGran 0, R.granary_SHARE_KIND.off + 4, 2 * 2 ^ R.granary_SHARE_KIND.lo),
    (pgPort, R.port_RESP_SHARES.off + 12, 4)]) {}
def sliceA : BitVec 52 := 0x0100000003000
theorem test_messages : (∀ k ∈ [MKind.write, .readReq, .readResp], (received k 0x40).message 3 0 k = some (msg k 0x40)) ∧
    (msg .write 0x40).head.bucket = false ∧ 0 < (msg .write 0x40).bytes.length ∧ (msg .write 0x40).bytes.length ≤ 256 := by decide
theorem test_write_to_a_granary : let s := received .write 0x40
    s.intact = true ∧ s.dev.snap = none ∧ placeOf 0x40 = .granary 0 ∧ 0x40 % pailSize + 1 ≤ pailSize ∧ s.granServes 0 = true ∧
    s.underReset (pgGran 0) = false ∧ s.granPort 0 = true ∧ touchesBoot 0x40 1 = false ∧ s.bucketKeeps 0x40 1 = false := by decide
theorem test_messages_for_a_slice : let s := received .readResp 0x40
    placeOf (sliceAddr 0 0x3000) = .slice 0 0x3000 ∧ placeOf (sliceAddr 0 0x3000 + 64 - 1) = .slice 0 0x303F ∧ s.croftUnderReset 0 = false ∧
    (head .readResp 0).inc.toNat = s.inc (qCroft 0) ∧ (head .readResp 0).epoch.toNat = (s.queue 0).epoch ∧
    ({ head .readResp 0 with epoch := 1 } : Head).epoch.toNat ≠ (s.queue 0).epoch ∧ sliceA.toNat = sliceAddr 0 0x3000 := by decide
theorem test_reads_are_served : let s := received .readReq 0x40
    s.portFld R.port_RESP_SHARES 12 / 2 ^ 2 % 2 = 1 ∧ ¬ (linked 2 {} [] {}).portFld R.port_RESP_SHARES 12 / 2 ^ 2 % 2 = 1 ∧
    placeOf (0x40 + 64 - 1) = .granary 0 ∧ s.deadAt 0x40 64 = false := by decide

def entry0 : Entry := { key := ⟨3, 0, 0, 0, 0, 0, 0, false⟩, size := 64, dst := 0 }
theorem test_entries : ((linked 2 {} [] { entriesIn := [entry0] }).dev.entriesIn.filter (fun e => e.key.link == 3))[0]? = some entry0 ∧
    ((linked 2 {} [] {}).dev.entriesIn.filter (fun e => e.key.link == 3))[0]? = none ∧ (linked 2 {} [] {}).underReset (pgLedger 0) = false := by decide

theorem test_replay_once_a_cycle : ((linked 2 { replay := [sent 2], replayAt := some 0 } [] {}).link 3).replayAt = some (linked 2 {} [] {}).now ∧
    ((linked 2 { creplay := [⟨3, .reserved, 0⟩], creplayAt := some 0 } [] {}).link 3).creplayAt = some (linked 2 {} [] {}).now ∧
    worn [(⟨3, .reserved, 3⟩ : Sent Ctrl)] 3 = true := by decide
/-- The far end's identity is stored and is the same, or another. -/
theorem test_far_identity : let s := linked 3 {} [(pgLink 3, R.link_FAR_ID_FAR_DEV.off, 5 * 2 ^ R.link_FAR_ID_FAR_DEV.lo + 2 ^ R.link_FAR_ID_VALID.lo)] {}
    s.bit (pgLink 3) R.link_FAR_ID_VALID = true ∧ s.fld (pgLink 3) R.link_FAR_ID_FAR_DEV = (5 : BitVec 14).toNat ∧
    s.fld (pgLink 3) R.link_FAR_ID_FAR_LINK = (0 : LinkId).val ∧ s.fld (pgLink 3) R.link_FAR_ID_FAR_VIDX = (0 : BitVec 4).toNat ∧
    s.fld (pgLink 3) R.link_FAR_ID_FAR_DEV ≠ (6 : BitVec 14).toNat ∧ s.linkState 3 = 3 := by decide
theorem test_reference_clock_groups : (3 : Fin 16).val / 8 = (0 : Fin 2).val ∧ (3 : Fin 16).val / 8 ≠ (1 : Fin 2).val ∧
    (linked 2 {} [] {}).linkState 3 ≠ 0 ∧ (linked 2 {} [] {}).linkState 3 ≠ 4 := by decide
theorem test_messages_need_not_wait : (received .write 0x40).keptFrom 0x40 1 = false ∧
    (received .write 0x40).placeWaits (headKey (head .write 0x40) 3) ((msg .write 0x40).via 3) 0x40 false = false ∧
    (received .readResp sliceA).keptFrom (sliceAddr 0 0x3000) 1 = false ∧
    (received .readResp sliceA).placeWaits { headKey (head .readResp sliceA) 17 with dev := (received .readResp sliceA).self }
      ((msg .readResp sliceA).via 3) (sliceAddr 0 0x3000) false = false ∧ (received .readReq 0x40).granPort 0 = true := by decide
theorem test_entry_closes : ∀ t, exec (.reasmTimeout 3 0) (linked 2 {} [] { entriesIn := [entry0] }) = .next t → t.dev.entriesIn = [] := by
  intro t h; cases h; decide

/-! ### The Bell -/

def follows (st : Nat) : List (Page × Nat × Nat) := on pgBell ++ [w1 pgBell R.bell_STATUS_STATE st, w1 pgBell R.bell_CFG_PARENT_LINK 3]
theorem test_bell_sends : (linked 2 {} (follows bLocked) {}).bellSends = true ∧ (linked 2 {} [] {}).bellSends = false ∧
    (linked 2 {} (follows bLocked) {}).bellHears 3 = true ∧ (linked 2 {} (follows bLocked) {}).bellHears 4 = false ∧
    (linked 2 {} (follows bLocked) {}).bellLink = 3 ∧ (linked 2 {} (follows bLocked) {}).mayStep = true := by decide
/-- A Bell message for device `d` of operation `op`, SEQ 2 and T 100 (R358). -/
def bellB (d op : Nat) : BitVec 61 := BitVec.ofNat 61 (d + op * 2 ^ 14 + 2 * 2 ^ 16 + 100 * 2 ^ 20 + 2 ^ 60)
def heard (d op st : Nat) (y : BellSync) : State := linked 2 {} (follows st) { bells := [(3, bellB d op)], bellSync := y }
theorem test_bell_messages : (∀ op < 4, bellMsg (bellB 7 op) = ⟨7, op, 2, 100, true⟩ ∧ (heard 0 op bLocked {}).dev.bells[0]? = some (3, bellB 0 op) ∧
    (bellMsg (bellB 7 op)).dev ≠ (heard 7 op bLocked {}).self ∧ (bellMsg (bellB 0 op)).dev = (heard 0 op bLocked {}).self) ∧
    (heard 0 1 bLocked { sent := [(3, 2)] }).bellSends = true ∧ Sparse.get? (heard 0 1 bLocked { sent := [(3, 2)] }).dev.bellSync.sent 3 = some 2 ∧
    Sparse.get? (heard 0 1 bLocked {}).dev.bellSync.sent 3 ≠ some 2 := by decide
def exch : Exchange := ⟨3, 2, 0, 20, 50, true⟩
/-- Hand calculation: t1 0, t2 20, t3 50, t4 100 give the offset −15 and the delay 35 (R400). -/
theorem test_exchange : let s := heard 0 2 bAcquiring { opened := [exch], good := 15 }
    s.dev.bellSync.opened.find? (fun e => e.link == 3 && e.seq == 2) = some exch ∧ rebuild s.fine 100 = 100 ∧
    2 * (-15 : Int) = (exch.t2 - exch.t1) - (100 - exch.t3) ∧ 2 * (35 : Int) = (exch.t2 - exch.t1) + (100 - exch.t3) ∧ s.bellState = bAcquiring ∧
    3 = s.bellLink ∧ (-15 : Int).natAbs ≤ 32 ∧ exch.plock = true ∧ 15 ≤ s.dev.bellSync.good := by decide
theorem test_exchange_locks : ∀ t, exec (.delayResp 0) (heard 0 2 bAcquiring { opened := [exch], good := 15 }) = .next t →
    t.reg pgBell R.bell_OFFSET.off = BitVec.ofInt 32 (-15) ∧ t.bellState = bLocked := by intro t h; cases h; decide
/-- The parent is link 4, and the alternate, link 3, is up. -/
def alternate : State := linked 2 {} (on pgBell ++ [w1 pgBell R.bell_STATUS_STATE bLocked, (pgBell, 0x040, 4 * 2 + 3 * 32 + 512)]) { bellSync := { misses := 7 } }
theorem test_bell_misses : alternate.bellHears 4 = true ∧ 4 = alternate.bellLink ∧ 7 ≤ alternate.dev.bellSync.misses ∧
    alternate.bit pgBell R.bell_STATUS_ON_ALT = false ∧ alternate.bit pgBell R.bell_CFG_ALT_EN = true ∧
    alternate.linkUp (alternate.fld pgBell R.bell_CFG_ALT_LINK) = true ∧
    (linked 2 {} (follows bLocked) {}).dev.bellSync.misses < 7 ∧ (linked 2 {} (follows bLocked) {}).bellState = bLocked ∧
    ¬ (linked 2 {} (follows bLocked) {}).bit pgBell R.bell_CFG_ALT_EN = true := by decide
theorem test_bell_drives : (linked 2 {} (follows bLocked ++ [(pgBell, R.bell_OUTCFG_PPS_EN.off, 5)]) {}).bellDrives R.bell_OUTCFG_PPS_EN = true ∧
    (linked 2 {} (follows bLocked ++ [(pgBell, R.bell_OUTCFG_PPS_EN.off, 5)]) {}).bellDrives R.bell_OUTCFG_TOD_EN = true ∧
    (linked 2 {} [] {}).bellDrives R.bell_OUTCFG_PPS_EN = false ∧ (linked 2 {} (follows bHoldover) {}).bellState = bHoldover ∧
    (linked 2 {} [] {}).underReset pgBell = false := by decide

theorem test_no_bell_message : (heard 0 0 bLocked {}).dev.bells[1]? = none ∧ (bellMsg (bellB 0 2)).op ≠ 0 := by decide
/-- A DELAY_REQ answers the SYNC last sent, with and without a COARSE before. -/
theorem test_coarse_before : let s := heard 0 1 bLocked { sent := [(3, 2)], coarse := [3] }
    3 ∈ s.dev.bellSync.coarse ∧ s.bellSends = true ∧ Sparse.get? s.dev.bellSync.sent 3 = some (bellMsg (bellB 0 1)).seq ∧
    3 ∉ (heard 0 1 bLocked { sent := [(3, 2)] }).dev.bellSync.coarse := by decide
theorem test_delay_req_is_answered : ∀ t, exec (.delayReq 0 0) (heard 0 1 bLocked { sent := [(3, 2)] }) = .next t →
    (t.link 3).ctrl.length = 2 ∧ 3 ∈ t.dev.bellSync.coarse := by intro t h; cases h; decide
theorem test_no_exchange_is_open : (heard 0 2 bAcquiring {}).dev.bellSync.opened.find? (fun e => e.link == 3 && e.seq == 2) = none ∧
    (heard 0 3 bAcquiring { opened := [exch] }).dev.bellSync.opened.find? (fun e => e.link == 3 && e.seq == 2) ≠ none := by decide
/-- An exchange on the parent link while the alternate is in use. -/
theorem test_exchange_on_the_parent : let s := linked 2 {} (on pgBell ++ [(pgBell, R.bell_STATUS_STATE.off, bLocked * 2 ^ R.bell_STATUS_STATE.lo + 2 ^ R.bell_STATUS_ON_ALT.lo),
      (pgBell, 0x040, 3 * 2 + 4 * 32 + 512)]) { bells := [(3, bellB 0 2)], bellSync := { opened := [exch], back := 15 } }
    3 ≠ s.bellLink ∧ s.bellHears 3 = true ∧ 15 ≤ s.dev.bellSync.back := by decide
theorem test_misses_without_an_alternate : let s := linked 2 {} (follows bLocked) { bellSync := { misses := 7 } }
    s.bellHears 3 = true ∧ 3 = s.bellLink ∧ 7 ≤ s.dev.bellSync.misses ∧ s.bellState = bLocked ∧ s.bit pgBell R.bell_CFG_ALT_EN = false ∧
    (linked 2 {} (follows bHoldover) { bellSync := { misses := 7 } }).bellState ≠ bLocked ∧
    (linked 2 {} (follows bHoldover) { bellSync := { misses := 7 } }).bellHears 3 = true := by decide
theorem test_eighth_miss_holds_over : ∀ t, exec (.bellExchangeMiss 3) (linked 2 {} (follows bLocked) { bellSync := { misses := 7 } }) = .next t →
    t.bellState = bHoldover := by intro t h; cases h; decide
theorem test_pps_is_off : (linked 2 {} (follows bLocked) {}).bit pgBell R.bell_OUTCFG_PPS_EN = false ∧
    (linked 2 {} (follows bLocked ++ [(pgBell, R.bell_OUTCFG_PPS_EN.off, 5)]) {}).bit pgBell R.bell_OUTCFG_PPS_EN = true := by decide
theorem test_bell_now_under_reset : (live [] { resets := [⟨.hamlet 0, true⟩] }).underReset pgBell = false ∧
    (live [] { resets := [⟨.device, true⟩] }).underReset pgBell = true := by decide

/-! ### The host port, the mailbox and Orarn -/

/-- The host page enabled at the full rate, with other registers and what memory and device hold. -/
def hostAt (rs : List (Page × Nat × Nat)) (d : Device) : State :=
  live (on pgHost ++ [(pgHost, R.host_LINK_RATE.off, 6 * 2 ^ R.host_LINK_RATE.lo + 8 * 2 ^ R.host_LINK_WIDTH.lo)] ++ on (pgGran 0) ++ rs) d
theorem test_host_may_go : (hostAt [] {}).hostMayGo 0x40 false := ⟨by decide, by decide, by decide, by decide, by decide, by decide⟩
/-- Croft 0's bank group 0 is the host's. -/
def hostSlice : State := hostAt (on (pgOwn 0) ++ [(pgOwn 0, 0x110, agHost + 1 + 0xFF0), w1 pgWindow R.window_BASE_BASE 0x10]) {}
theorem test_host_access : (hostAt [] {}).village ((hostAt [] {}).windowAddr 0x40) = .here ∧ placeOf 0x40 = .granary 0 ∧
    (hostAt [] {}).underReset (pgGran 0) = false ∧ (hostAt [] {}).granServes 0 = true ∧ (hostAt [] {}).deadAt 0x40 8 = false ∧
    (hostAt [] {}).dev.snap = none ∧ 0x40 % pailSize + 8 ≤ pailSize ∧ (hostAt [] {}).bucketKeeps 0x40 8 = false ∧ touchesBoot 0x40 8 = false ∧
    hostSlice.windowAddr 0x3000 % 2 ^ 48 = sliceAddr 0 0x3000 ∧ hostSlice.village (hostSlice.windowAddr 0x3000) = .here ∧
    hostSlice.croftUnderReset 0 = false ∧ hostSlice.bankMiss 0 agHost false 0x3000 8 = none ∧
    hostSlice.bankMiss 0 agHost true 0x3000 8 = none := by decide
theorem test_host_sound : (hostAt [] {}).intact = true ∧ hostSlice.intact = true := by decide
theorem test_host_ends : (hostAt [w1 pgHost R.host_CFG_IDE_REQ 1] {}).bit pgHost R.host_CFG_IDE_REQ = true ∧
    (bare [(pgDevctl, 0x040, 0)]).atReady = false ∧ (bare []).fullRate = false ∧ (bare []).bit pgHost R.host_CFG_IDE_REQ = false ∧
    (hostAt [w1 pgWindow R.window_BASE_BASE 0x20] {}).windowAddr 0 % 2 ^ 48 / 2 ^ 28 = 0x20000 ∧
    (hostAt [w1 pgWindow R.window_BASE_BASE 0x500] {}).village ((hostAt [w1 pgWindow R.window_BASE_BASE 0x500] {}).windowAddr 0) = .none := by decide
/-- Village device 5 lies beyond port 3, whose link 2 is up. -/
def farHost : State := hostAt [w1 pgWindow R.window_BASE_BASE 0x500, (pgPort, R.port_VROUTE_VALID.off + 20, 2 ^ R.port_VROUTE_VALID.lo + 3 * 2 ^ R.port_VROUTE_PORT.lo),
  (pgPort, R.port_PORT_LINKS_LINKS.off + 24, 4), w1 pgPort R.port_STATUS_UP 4] {}
theorem test_host_access_leaves : farHost.village (farHost.windowAddr 0x40) = .port 3 0 ∧ (farHost.portLinks 3).find? farHost.linkUp = some 2 ∧
    farHost.windowAddr 0x40 % 2 ^ 48 / 2 ^ 28 ≠ 0x20000 := by decide
theorem test_host_access_waits : (hostAt [] { host := { waiting := [⟨true, 9⟩] } }).dev.host.waiting[0]? = some ⟨true, 9⟩ := by decide
theorem test_msix : let s := hostAt [] { host := { busMaster := true, msixEnable := true, vecs := [(5, { pend := true, asserted := true })] } }
    (s.vec 5).masked = true ∧ (s.vec 5).asserted = true ∧ (s.vec 5).pend = true ∧ s.dev.host.allows = true ∧
    (0 : Word).getLsbD 0 = false := by decide
theorem test_link_rate : (hostAt [] {}).fld pgHost R.host_LINK_RATE = 6 ∧ (hostAt [] {}).fld pgHost R.host_LINK_WIDTH = 8 ∧
    (hostAt [] {}).bit pgHost R.CTL_ENABLE = true ∧ (hostAt [] {}).underReset pgHost = false := by decide

/-- A mailbox that rests, with a request header in its area. -/
def boxed (op len res : Nat) (seq : Option Word) : State :=
  hostAt [] { host := { mailbox := { mstate := 0, last := seq, area := Memory.writeBytes [] 0 (toLe 4 op ++ toLe 4 1 ++ toLe 4 len ++ toLe 4 0 ++ toLe 4 res) } } }
theorem test_mailbox_doorbell : (boxed 1 0 0 none).dev.host.mailbox.mstate = 0 ∧ (boxed 1 0 0 none).dev.host.mailbox.last ≠ some 1 ∧
    (boxed 1 0 0 (some 1)).dev.host.mailbox.last = some 1 ∧ leNat ((boxed 1 0 0 none).dev.host.mailbox.bytes 0 4) = 1 ∧
    leNat ((boxed 10 0 0 none).dev.host.mailbox.bytes 0 4) = 10 ∧ leNat ((boxed 1 0 7 none).dev.host.mailbox.bytes 16 16) = 7 ∧
    leNat ((boxed 1 0 0 none).dev.host.mailbox.bytes 16 16) = 0 := by decide
def serving (op len : Nat) (p : List Byte) (rs : List (Page × Nat × Nat)) : State :=
  hostAt rs { host := { mailbox := { mstate := 1, serving := some ⟨op, 1, len, p⟩ } } }
theorem test_messages_served : ∀ x ∈ [(opGetInfo, 0), (opGetCert, 4), (opDefects, 4), (opDigests, 0), (opFaults, 0), (opAttest, 32), (opGetInfo, 4)],
    (serving x.1 x.2 [] []).dev.host.mailbox.serving = some ⟨x.1, 1, x.2, []⟩ ∧ (serving x.1 x.2 [] []).fld pgOrarn R.STATE_STATE ≠ stFault ∧
    (serving x.1 x.2 [] [(pgOrarn, 0x00C, 4)]).fld pgOrarn R.STATE_STATE = stFault := by decide
theorem test_certificate_indices : leNat (([2, 0, 0, 0] : List Byte).take 4) ≤ 2 ∧ 2 < leNat (([3, 0, 0, 0] : List Byte).take 4) := by decide
/-- A manifest of one region of 64 bytes at 0 with digest `d`, unsigned (R526). -/
def manifest (d : List Byte) : List Byte := toLe 4 1 ++ List.replicate 124 0 ++ toLe 8 0 ++ toLe 8 64 ++ d
set_option maxRecDepth 50000 in
theorem test_manifest_form : manifestOk (manifest []) 192 = true ∧ manifestOk (manifest []) 191 = false ∧
    (serving opMeasure 192 (manifest []) []).enabledReeves = [] ∧ (serving opMeasure 192 (manifest []) (on (pgReeve 3))).enabledReeves ≠ [] := by
  decide
set_option maxRecDepth 50000 in
theorem test_manifest_signed : (serving opMeasure 192 (manifest []) []).manifestSigned (manifest []) 1 0 = true ∧
    (serving opMeasure 192 (manifest []) [(pgOrarn, R.orarn_PKEY.off, 1)]).manifestSigned (manifest []) 1 0 = false := by decide
/-- The region's digest agrees, or is missing. -/
theorem test_region_digest (x : BitVec 384) :
    manifestRegions (manifest []) 1 = [(0, 64, [])] ∧ (digestBytes x != []) = true ∧
    ∀ d : List Byte, d.length = 48 → manifestRegions (manifest d) 1 = [(0, 64, d)] := by
  refine ⟨by decide, ?_, fun d hd => ?_⟩
  · rw [bne_iff_ne]
    intro h
    have := congrArg List.length h
    rw [digestBytes, length_toLe] at this
    exact absurd this (by decide)
  · have e : (manifest d).drop (0x80 + 64 * 0) = toLe 8 0 ++ toLe 8 64 ++ d := by
      have m : manifest d = (toLe 4 1 ++ List.replicate 124 0) ++ (toLe 8 0 ++ toLe 8 64 ++ d) := by simp only [manifest, List.append_assoc]
      rw [m, List.drop_left' (by rw [List.length_append, length_toLe, List.length_replicate])]
    have t : d.take 48 = d := List.take_of_length_le (by omega)
    show [(leNat (((manifest d).drop (0x80 + 64 * 0)).take 8), leNat ((((manifest d).drop (0x80 + 64 * 0)).drop 8).take 8),
      (((manifest d).drop (0x80 + 64 * 0)).drop 16).take 48)] = _
    rw [e]
    show [(leNat (toLe 8 0), leNat (toLe 8 64), d.take 48)] = _
    rw [t, show leNat (toLe 8 0) = 0 by decide, show leNat (toLe 8 64) = 64 by decide]
theorem test_firmware_form : let p : List Byte := toLe 4 0 ++ toLe 4 0 ++ [0xAA]
    8 ≤ p.length ∧ leNat (p.take 4) = (serving opFwUpdate 9 p []).dev.boot.next ∧ leNat ((p.drop 4).take 4) < 2 := by decide
theorem test_spdm_is_free : (hostAt [] { host := { mailbox := { mstate := 0 } }, orarn := { opened := 1, finished := 1 } }).spdmFree ∧
    ¬ (bare []).spdmFree := ⟨⟨by decide, by decide⟩, fun h => h.2 (by decide)⟩

/-- Hamlet 0 is under reset. -/
theorem test_host_under_reset : (hostAt [] { resets := [⟨.hamlet 0, true⟩] }).underReset (pgGran 0) = true ∧
    (hostAt [] { resets := [⟨.hamlet 0, true⟩] }).hostMayGo 0x40 false ∧ (bare []).deviceReset = false ∧
    (live [] { resets := [⟨.device, true⟩] }).deviceReset = true :=
  ⟨by decide, ⟨by decide, by decide, by decide, by decide, by decide, by decide⟩, by decide, by decide⟩
/-- A larder of one pail at 0, which Bucket keeps. -/
def kept : State := hostAt (on pgBucket ++ [(pgBucket, R.bucket_LARDER_BASE_BASE.off, 0), w1 pgBucket R.bucket_LARDER_LEN_PAILS 1]) {}
theorem test_host_is_kept_out : kept.bucketKeeps 0x40 8 = true ∧ kept.hostMayGo 0x40 false ∧ kept.underReset (pgGran 0) = false :=
  ⟨by decide, ⟨by decide, by decide, by decide, by decide, by decide, by decide⟩, by decide⟩
theorem test_boot_region : ∃ o : Nat, o < 2 ^ 40 ∧ touchesBoot ((hostAt [] {}).windowAddr o % 2 ^ 48) 8 = true ∧
    (hostAt [] {}).bucketKeeps ((hostAt [] {}).windowAddr o % 2 ^ 48) 8 = false ∧ (hostAt [] {}).hostMayGo o false :=
  ⟨0x7FF0000000, by decide, by decide, by decide, ⟨by decide, by decide, by decide, by decide, by decide, by decide⟩⟩
theorem test_far_host_may_go : farHost.hostMayGo 0x40 false ∧ (hostAt [w1 pgWindow R.window_BASE_BASE 0x500] {}).hostMayGo 0x40 false ∧
    (hostAt [w1 pgWindow R.window_BASE_BASE 0x500, (pgPort, R.port_VROUTE_VALID.off + 20, 2 ^ R.port_VROUTE_VALID.lo + 3 * 2 ^ R.port_VROUTE_PORT.lo)] {}).village
      ((hostAt [w1 pgWindow R.window_BASE_BASE 0x500] {}).windowAddr 0x40) = .port 3 0 :=
  ⟨⟨by decide, by decide, by decide, by decide, by decide, by decide⟩, ⟨by decide, by decide, by decide, by decide, by decide, by decide⟩, by decide⟩
theorem test_far_answers : ∀ a ∈ [FarAnswer.silent, .ok [1, 2, 3, 4], .unmapped, .collision, .uncorrectable, .absorbed],
    (Instr.hostBar2Read 0x40 4 false a).wf = true := by decide
theorem test_mailbox_rests : (hostAt [] {}).dev.host.mailbox.serving = none := by decide
theorem test_mailbox_served_otherwise : opGetInfo ≠ opGetCert ∧ (serving opGetCert 5 [] []).dev.host.mailbox.serving = some ⟨opGetCert, 1, 5, []⟩ := by decide
theorem test_firmware_bytes_that_are_not_next : leNat ((toLe 4 8 ++ toLe 4 0 : List Byte).take 4) ≠ (serving opFwUpdate 9 [] []).dev.boot.next ∧
    (serving opFwUpdate 9 [] (on (pgReeve 3))).enabledReeves ≠ [] := by decide
theorem test_spdm_states : let s := hostAt [(pgOrarn, 0x00C, 4)] { host := { mailbox := { mstate := 0 } } }
    s.spdmFree ∧ s.fld pgOrarn R.STATE_STATE = stFault ∧ (hostAt [] {}).fld pgOrarn R.STATE_STATE ≠ stFault ∧ s.dev.orarn.opened = 0 ∧
    s.dev.orarn.finished = 0 ∧ ((1 : Fin 8).val ≠ 0) ∧ ¬ ((6 : BitVec 8).toNat ≤ 5 ∨ (6 : BitVec 8) = 0xFF) ∧
    ((5 : BitVec 8).toNat ≤ 5 ∨ (5 : BitVec 8) = 0xFF) := ⟨⟨by decide, by decide⟩, by decide, by decide, by decide, by decide, by decide, by decide, by decide⟩

/-! ### Crier and Gauge -/

/-- Crier enabled, SW source 2031 + `i` requesting where bit `i` of `sw` is set, source 2033 routed by `w`. -/
def crying (sw : Nat) (w : Word) (more : List (Page × Nat × Nat)) (h : HostPort) (k : CrierState) : State :=
  live (on pgCrier ++ [w1 pgCrier R.crier_SW_SW sw, (pgCrier, R.crier_MASK.off + 4 * 63, 0)] ++ more) { host := h, crier := { k with routes := [(2033, w)] } }
theorem test_crier_claims : (crying 4 7 [] {} {}).claimable (hostTarget (some 1)) = some 2033 ∧ (crying 4 2 [] {} {}).claimable .steward = some 2033 ∧
    (crying 0 7 [] {} {}).claimable (hostTarget (some 1)) = none ∧ (crying 4 7 [] {} {}).shut (targetAgent (some 1)) pgCrier = false ∧
    (crying 4 7 [] {} {}).underReset pgCrier = false ∧ hostTarget (some 1) ∈ (crying 0 7 [] {} { signalled := [.vector 1] }).dev.crier.signalled ∧
    (2033, Target.vector 1) ∈ (crying 0 7 [] {} { service := [(2033, .vector 1)] }).dev.crier.service := by decide
theorem test_crier_claim : ∀ t, exec (.crierClaim (some 1)) (crying 4 7 [] {} {}) = .next t → t.out.getLast? = some (.read 2033) ∧
    (2033, Target.vector 1) ∈ t.dev.crier.service := by intro t h; cases h; decide
theorem test_crier_writes : (crying 0 0 [w1 pgCrier R.crier_ROUTE_SEL_SOURCE 2033] {} {}).reaches .host pgCrier ∧
    isSource ((crying 0 0 [w1 pgCrier R.crier_ROUTE_SEL_SOURCE 2033] {} {}).fld pgCrier R.crier_ROUTE_SEL_SOURCE) = true ∧ isSource 2047 = false ∧
    (crying 0 0 [] {} {}).badRoute 0x1FF = true ∧ (crying 0 0 [] {} {}).badRoute 7 = false ∧ (bare []).enabled pgCrier = false ∧
    (bare []).reaches .host pgCrier := ⟨⟨by decide, by decide⟩, by decide, by decide, by decide, by decide, by decide, by decide, by decide⟩
/-- Route word of KIND reeve, croft 5 (R458). -/
theorem test_crier_sources : (crying 4 (1 + 5 * 4) [] {} {}).requests.contains 2033 = true ∧ (crying 4 21 [] {} {}).sourceBit R.crier_PEND 2033 = false ∧
    routeTarget ((crying 4 21 [] {} {}).route 2033) = some (.reeve 5) ∧ (crying 4 21 [] {} {}).eligible (.reeve 5) = [2033] ∧
    routeTarget ((crying 4 7 [] {} {}).route 2033) = some (.vector 1) ∧ ((crying 4 7 [] {} {}).claimable (.vector 1)).isSome = true ∧
    ((crying 4 7 [] {} {}).vec 1).asserted = false ∧ ((crying 4 7 [] { vecs := [(1, { masked := false })] } {}).vec 1).masked = false ∧
    (crying 0 7 [] {} {}).requests.contains 2033 = false ∧ (bare []).requests.contains 2033 = false ∧ isSource 2033 = true := by decide

/-- Gauge enabled, with sequence 1 of two entries, started by its timer. -/
def gauging (st : Nat) (g : Gauge) : State :=
  live (on pgGauge ++ [(pgGauge, R.gauge_SEQ_CFG_LEN.off + 4, 2 + 64), (pgGauge, R.gauge_STATUS_PENDING.off, st),
    (pgGauge, R.gauge_ENTRY_EN_A.off + 0x80, 2 ^ R.gauge_ENTRY_EN_A.lo)]) { gauge := g }
theorem test_gauge_ticks : (gauging 0 {}).enabled pgGauge = true ∧ (gauging 0 {}).seqStart 1 = 1 ∧ (gauging 0 {}).seqLen 1 = 2 ∧
    (gauging 0 {}).seqBusy 1 = false ∧ (gauging (2 * 2 ^ R.gauge_STATUS_PENDING.lo) {}).seqBusy 1 = true ∧
    4 ≤ (Sparse.get? (gauging 0 { missed := [(1, 3)] }).dev.gauge.missed 1).getD 0 + 1 ∧ (gauging 0 {}).reaches .host pgGauge ∧
    (2 : Word).toNat % 16 = 2 ^ 1 :=
  ⟨by decide, by decide, by decide, by decide, by decide, by decide, ⟨by decide, by decide⟩, by decide⟩
theorem test_gauge_slots : (List.range 4).find? (gauging (2 * 2 ^ R.gauge_STATUS_PENDING.lo) {}).seqBusy = some 1 ∧
    (gauging 0 {}).dev.gauge.cur = none ∧ (gauging 0 { cur := some (1, 0) }).dev.gauge.cur = some (1, 0) ∧
    (gauging 0 {}).halfChannel 1 0 false = some 0 ∧ (gauging 0 {}).halfChannel 1 0 true = none ∧ ¬ (gauging 0 {}).seqLen 1 ≤ 0 + 1 ∧
    (gauging 0 {}).seqLen 1 ≤ 1 + 1 ∧ (gauging 0 {}).fld pgGauge R.STATE_STATE ≠ stFault := by decide

/-! ### Power -/

def powered (p : Power) (rs : List (Page × Nat × Nat)) : State := live rs { power := p }
theorem test_mult_writes : (bare []).reaches .host (pgCroft 5) ∧ (31 : Word).toNat % 128 < 32 ∧ 32 ≤ (40 : Word).toNat % 128 ∧
    (40 : Word).toNat % 128 ≤ 72 ∧ (bare []).dev.power.clkQ = [] ∧ (bare []).vpend 0 = false ∧ (bare []).relockTo 5 = none ∧
    40 ≠ (bare []).fld (pgCroft 5) R.croft_CLK_CUR := ⟨⟨by decide, by decide⟩, by decide⟩
theorem test_relocks : (powered { relock := [⟨5, 40⟩] } []).relockTo 5 = some 40 ∧
    (powered { clkQ := [⟨5, 40⟩] } [w1 pgPower R.power_STATUS_VPEND 1]).raising 0 = some ⟨5, 40⟩ ∧
    ([⟨5, 40⟩] : List ClkWrite).erase ⟨5, 40⟩ = [] ∧ (powered { clkQ := [⟨5, 40⟩] } [w1 pgPower R.power_STATUS_VPEND 1]).relockTo 5 = none := by decide
theorem test_transactions : (bare []).powered = true ∧ (Sparse.get? (powered { avsFails := [(3, 2)] } []).dev.power.avsFails 3).getD 0 = 2 ∧
    (Sparse.get? (bare []).dev.power.avsFails 3).getD 0 = 0 ∧ State.reset.powered = false := by decide
def warned (w : Nat) (rs : List (Page × Nat × Nat)) : State := { bare rs with hamlets := [(2, { warn := w })] }
theorem test_supply : ((warned 0 []).hamlet 2).warn ≠ 1 ∧ ((warned 1 []).hamlet 2).warn = 1 ∧ ((warned 2 []).hamlet 2).warn = 2 ∧
    (warned 1 []).bit pgPower (hamletBit R.power_STATUS_SUPPLY_RST 2) = false ∧
    (warned 1 [w1 pgPower R.power_STATUS_SUPPLY_RST 4]).bit pgPower (hamletBit R.power_STATUS_SUPPLY_RST 2) = true ∧
    (bare []).deviceReset = false ∧ supervised 27 = true ∧ supervised 26 = false := by decide
/-- A device in a cold start, its reset released. -/
def starting (b : Boot) (ph : Nat) : State := { live [(pgDevctl, 0x040, ph)] { boot := b } with
  dev := { (live [] { boot := b }).dev with resets := [⟨.device, true⟩] } }
theorem test_supply_stops_a_start : (starting { released := true, cold := true } 4).deviceReset = true ∧
    (starting { released := true, cold := true } 4).powered = true ∧ (starting { released := true, cold := true } 4).dev.boot.released = true := by decide
theorem test_cap : (bare [w1 pgPower R.power_CFG_CAP_EN 1]).bit pgPower R.power_CFG_CAP_EN = true ∧
    (bare [(pgPower, R.power_CFG_CAP_EN.off, 0)]).bit pgPower R.power_CFG_CAP_EN = false := by decide

/-- A SET_POWER_STATE to state `x` is served in state `p`. -/
def asking (x p : Nat) : State :=
  live [w1 pgPower R.power_STATUS_PSTATE p] { host := { mailbox := { mstate := 1, serving := some ⟨opSetPower, 1, 4, toLe 4 x⟩ } } }
theorem test_power_requests : (∀ x ∈ [0, 1, 2, 3, 4], (asking x 1).dev.host.mailbox.serving = some ⟨opSetPower, 1, 4, toLe 4 x⟩ ∧
      leNat ((toLe 4 x).take 4) = x) ∧ (∀ p < 3, (asking 1 p).pstate = p) ∧ (asking 1 1).powered = true ∧ (asking 1 1).atReady = true ∧
    (asking 1 1).dev.power.target = none ∧ (asking 1 1).dev.power.offAsked = false ∧ (asking 1 1).anyRunning = false ∧
    (asking 1 1).enabledReeves = [] ∧ (bare (running 0)).anyRunning = true ∧ (bare (on (pgReeve 5))).enabledReeves ≠ [] := by decide
theorem test_transitions : (powered { target := some 3 } []).dev.power.target = some psRetain ∧ (powered { target := some 3 } []).transEnds 3 = true ∧
    (powered { target := some 3 } (running 0)).transEnds 3 = false ∧ (powered { target := some 1, asked := true } []).dev.power.later = [] ∧
    (asking 1 0).pstate = psActive ∧ ({ (bare []) with dev := { power := { level := .retain } } } : State).dev.power.level = .retain ∧
    (powered { offAsked := true } []).dev.power.offAsked = true ∧ (bare []).dev.power.level ≠ .off ∧ (bare []).dev.power.level ≠ .retain ∧
    State.reset.dev.power.level = .off := by decide

theorem test_spurious_claim : let s := crying 0 7 [] {} { signalled := [.vector 1] }
    s.claimable (hostTarget (some 1)) = none ∧ s.enabled pgCrier = true ∧ hostTarget (some 1) ∈ s.dev.crier.signalled ∧
    s.reaches (targetAgent (some 1)) pgCrier ∧ hostTarget (some 1) ∉ (crying 0 7 [] {} {}).dev.crier.signalled ∧
    (2033, hostTarget (some 1)) ∉ (crying 0 7 [] {} {}).dev.crier.service ∧ (2033 : Word).toNat % 2 ^ 11 = 2033 :=
  ⟨by decide, by decide, by decide, ⟨by decide, by decide⟩, by decide, by decide, by decide⟩
theorem test_spurious_claim_reads_all_ones : ∀ t, exec (.crierClaim (some 1)) (crying 0 7 [] {} { signalled := [.vector 1] }) = .next t →
    t.out = [.read 0x7FF] := by intro t h; cases h; decide
theorem test_no_source_is_selected : isSource ((crying 0 0 [w1 pgCrier R.crier_ROUTE_SEL_SOURCE 2047] {} {}).fld pgCrier R.crier_ROUTE_SEL_SOURCE) = false ∧
    routeTarget ((crying 4 0 [] {} {}).route 2033) = none ∧ (crying 4 0 [] {} {}).requests.contains 2033 = true ∧
    (crying 4 0 [] {} {}).sourceBit R.crier_PEND 2033 = false := by decide
/-- Messages are allowed or not, and the vector is masked or not. -/
theorem test_vectors_are_told : let s := crying 4 7 [] { busMaster := true, msixEnable := true, vecs := [(1, { masked := false })] } {}
    (s.vec 1).masked = false ∧ s.dev.host.allows = true ∧ (s.claimable (.vector 1)).isSome = true ∧ (s.vec 1).asserted = false ∧
    s.requests.contains 2033 = true ∧ ((crying 4 7 [] {} {}).vec 1).masked = true := by decide
/-- A reeve's source in service has fallen. -/
theorem test_source_falls : let s := crying 0 21 [] {} { service := [(2033, .reeve 5)] }
    isSource 2033 = true ∧ s.requests.contains 2033 = false ∧ s.enabled pgCrier = true ∧ (2033, Target.reeve 5) ∈ s.dev.crier.service := by decide
theorem test_pend_of_a_request_is_kept : (crying 4 7 [] {} {}).requests.contains (32 * 63 + 17) = true ∧ (crying 4 7 [] {} {}).reaches .host pgCrier :=
  ⟨by decide, by decide, by decide⟩
theorem test_gauge_rests : (bare []).enabled pgGauge = false ∧ (List.range 4).find? (gauging 0 {}).seqBusy = none ∧
    ¬ 4 ≤ (Sparse.get? (gauging 0 { missed := [(1, 2)] }).dev.gauge.missed 1).getD 0 + 1 := by decide
theorem test_gauge_does_not_finish : ∀ t, exec (.gaugeSlot 5 6 false) (gauging 0 { cur := some (1, 0) }) = .next t →
    t.fld pgGauge R.STATE_STATE = stFault := by intro t h; cases h; decide +kernel
/-- The commanded voltage is at least, or below, what any clock needs (R472). -/
theorem test_voltage_suffices (h m : Nat) : vfOf h m ≤ (powered { volts := [(0, 850)] } []).volts 0 ∧ (powered { volts := [(0, 640)] } []).volts 0 < vfOf h m := by
  have e : (powered { volts := [(0, 850)] } []).volts 0 = 850 ∧ (powered { volts := [(0, 640)] } []).volts 0 = 640 := by decide
  rw [e.1, e.2]
  unfold vfOf
  have := Nat.mod_lt (Config.vfTable h m) (show 0 < 41 by decide)
  omega
theorem test_mult_write_quiet : let s := powered { volts := [(0, 850)] } []
    (∀ w ∈ s.dev.power.clkQ, w.croft / 16 ≠ 0) ∧ s.vpend 0 = false ∧ s.relockTo 5 = none ∧ s.reaches .host (pgCroft 5) ∧
    (s.fld (pgCroft 5) R.croft_CLK_CUR) = (BitVec.ofNat 32 (s.fld (pgCroft 5) R.croft_CLK_CUR)).toNat % 128 ∧
    (powered { clkQ := [⟨6, 40⟩] } [w1 pgPower R.power_STATUS_VPEND 1]).vpend 0 = true :=
  ⟨by decide, by decide, by decide, ⟨by decide, by decide⟩, by decide, by decide⟩
theorem test_warning_below_the_reset_level : (warned 1 [w1 pgPower R.power_STATUS_SUPPLY_RST 4]).bit pgPower (hamletBit R.power_STATUS_SUPPLY_RST 2) = true ∧
    State.reset.powered = false ∧ (bare []).bit pgPower (hamletBit R.power_STATUS_SUPPLY_RST 2) = false := by decide
theorem test_fast_start_at_the_reset_level : let s := starting { released := true } 4
    s.deviceReset = true ∧ s.dev.boot.released = true ∧ ¬ (s.dev.boot.cold = true ∨ s.dev.boot.full = true) ∧ s.powered = true := by decide
theorem test_transition_leaves_retention : let s : State := { (bare []) with dev := { power := { level := .retain, target := some psIdle } } }
    s.dev.power.target = some psIdle ∧ s.transEnds psIdle = true ∧ s.dev.power.level = .retain ∧ s.dev.power.later = [] := by decide
theorem test_transition_asked : let s : State := { asking 1 0 with dev := { (asking 1 0).dev with power := { (asking 1 0).dev.power with target := some 1, asked := true } } }
    s.dev.power.target = some 1 ∧ s.transEnds 1 = true ∧ s.dev.power.asked = true ∧ s.dev.power.later = [] ∧ s.dev.power.level ≠ .retain ∧
    s.dev.host.mailbox.serving = some ⟨opSetPower, 1, 4, toLe 4 1⟩ := by decide
theorem test_retention_from_idle : (powered { target := some 3 } [w1 pgPower R.power_STATUS_PSTATE 1]).pstate ≠ psActive ∧ (bare []).dev.boot.strap = none := by decide

/-! ### Starts -/

theorem test_cold_start : let s : State := { State.reset with dev := { State.reset.dev with boot := { strap := some 5 } } }
    s.dev.power.level = .off ∧ s.dev.power.thermN = false ∧ s.dev.boot.strap ≠ none ∧ State.reset.dev.boot.strap = none := by decide
theorem test_rail_groups : (starting { group := some 2 } 0).dev.boot.group = some 2 ∧ (starting { group := some 7 } 0).dev.boot.group = some 7 ∧
    (groupRails 2).contains 24 = true ∧ (groupRails 2).contains 26 = false ∧ (starting {} 0).dev.boot.group = none := by decide
/-- Well 3's core lacks packet 5, and the mill of croft 0 two packets. -/
def loading2 : State := starting { released := true, loads := [⟨pgWell 3, [5], 1⟩, ⟨pgMill 0, [5, 6], 3⟩] } 1
theorem test_firmware : ⟨pgWell 3, [5], 1⟩ ∈ loading2.dev.boot.loads ∧ (pgWell 3).kind = CoreKind.page .well ∧ (pgMill 0).kind = CoreKind.page .mill ∧
    ([5] : List Nat).filter (· != (5 : BitVec 16).toNat) = [] ∧ ([5, 6] : List Nat).filter (· != (5 : BitVec 16).toNat) ≠ [] ∧
    (5 : BitVec 16).toNat ∈ [5] ∧ loading2.deviceReset = true ∧ loading2.bootPhase < 4 ∧ (∀ l ∈ (bare []).dev.boot.loads, l.core.kind ≠ .well) ∧
    (∃ l ∈ loading2.dev.boot.loads, 3 ≤ l.round) ∧ (∃ l ∈ loading2.dev.boot.loads, l.round < 3 ∧ loading2.retiredCore l.core = false) := by decide
theorem test_firmware_completes_a_core : ∀ t, exec (.fwPacket .well 5 none [] []) loading2 = .next t →
    t.dev.boot.loads = [⟨pgMill 0, [5, 6], 3⟩] ∧ t.bootPhase = 4 := by intro t h; cases h; decide
def defect (n : Nat) : DefEntry := ⟨1, 0, n, 0, 0⟩
theorem test_starts_end : (starting { released := true } 8).deviceReset = true ∧ (starting { released := true } 8).dev.boot.released = true ∧
    (starting { released := true } 8).dev.boot.loads = [] ∧ (starting { released := true } 8).fld pgPower R.power_STATUS_SUPPLY_RST = 0 ∧
    (starting { released := true } 8).dev.boot.cold = false ∧ (starting { released := true, cold := true } 8).dev.boot.cold = true ∧
    ((starting { released := true } 8).dev.boot.appended []).length ≤ 4096 ∧ (3 : Byte).toNat = 3 ∧ (bare []).deviceReset = false := by decide
theorem test_defects_overflow : 4096 < (({ defects := List.replicate 4097 (defect 0) } : Boot).appended []).length := by
  show 4096 < (List.replicate 4097 (defect 0)).length
  rw [List.length_replicate]; decide
theorem test_runtime_record : (bare []).dev.boot.unwritten = [] ∧ (starting { unwritten := [defect 5] } 0).dev.boot.unwritten = defect 5 :: [] ∧
    (starting { strap := some 1 } 0).dev.boot.strap.isSome = true := by decide

/-! ### Resets -/

theorem test_warm_reset : let s := starting { strap := some 1 } 0
    (s.powered && s.deviceReset && !s.dev.boot.cold && !s.dev.boot.released && s.bootPhase == 0) = true ∧ s.dev.power.thermN = false ∧
    (bare []).powered = true ∧ (bare []).deviceReset = false := by decide
/-- Pages by number: mill of croft 0 and reeve 0 are cores, the device control page is not. -/
theorem test_reset_pages : ∀ p ∈ [pgMill 0, pgReeve 0, pgPump 3, pgWell 15], pageOf (BitVec.ofNat 16 (p.base / 0x1000)) = some p ∧ p.isCore = true ∧
    p.croft? = some 0 ∧ (bare []).shut .host p = false ∧ (bare []).underReset p = false ∧ (bare []).retiredCore p = false := by decide
theorem test_pages_of_no_grain : pageOf 0 = some pgPlan ∧ pgPlan.isCore = false ∧ pgPlan.kind ≠ .croft ∧ pgPlan.kind ≠ .hamlet ∧ pgPlan.kind ≠ .devctl ∧
    (bare []).reaches .host (pgHamlet 1) ∧ (live [] { snap := some snap0 }).dev.snap ≠ none :=
  ⟨by decide, by decide, by decide, by decide, by decide, ⟨by decide, by decide⟩, by decide⟩
def draining (b : Bool) : State := { bare [] with dev := { (bare []).dev with resets := [⟨.croft 5, b⟩] } }
theorem test_resets_end : grainOf (.croft 5) = some (.croft 5) ∧ ⟨.croft 5, false⟩ ∈ (draining false).dev.resets ∧
    (draining true).mayLeave (.croft 5) = true ∧ (draining false).mayLeave (.croft 5) = false ∧ grainOf (.core 0) = none ∧
    (Grain.croft 5).crofts = [5] := by decide

/-! ### Pages -/

theorem test_enable_set : (bare []).reaches .host pgBell ∧ (bare []).bit pgBell R.CTL_ENABLE = false ∧ (bare (on pgBell)).bit pgBell R.CTL_ENABLE = true ∧
    pageOf (BitVec.ofNat 16 (pgBell.base / 0x1000)) = some pgBell := ⟨⟨by decide, by decide⟩, by decide⟩
def busy (p : Page) (rs : List (Page × Nat × Nat)) : State := bare ([(p, 0x008, 1), (p, 0x00C, 3)] ++ rs)
theorem test_check_ends : (busy pgOrarn []).fld pgOrarn R.STATE_STATE = stBusy ∧ firstFail ((busy pgOrarn []).fails pgOrarn none none) = none ∧
    (busy pgHost []).fld pgHost R.STATE_STATE = stBusy ∧ firstFail ((busy pgHost []).fails pgHost none none) = some (0x20, 0x044) ∧
    (busy pgHost []).underReset pgHost = false := by decide
theorem test_granary_training : firstFail ((busy (pgGran 0) []).fails (pgGran 0) none none) = none ∧ (pgGran 0).kind = .granary := by decide
theorem test_enable_clear : (bare (on pgBell)).idle pgBell = true ∧ (bare (on pgBell)).keepsEnable pgBell = false ∧
    (bare (on pgOrarn)).keepsEnable pgOrarn = true ∧ (bare (running 0)).idle (pgReeve 0) = false ∧ (bare (running 0)).keepsEnable (pgReeve 0) = false ∧
    (bare (on pgBell)).fld pgBell R.STATE_STATE ≠ stBusy := by decide
/-- The plan page enabled in ACTIVE. -/
def planned (rs : List (Page × Nat × Nat)) : State := bare (on pgPlan ++ [w1 pgPower R.power_STATUS_PSTATE 0] ++ rs)
theorem test_plan_starts : (planned []).reaches .host pgPlan ∧ (planned []).startErr false = 0 ∧ (bare []).startErr false = 1 ∧
    (bare (running 0)).enabledReeves.any (bare (running 0)).running = true ∧ (bare []).enabledReeves.any (bare []).running = false ∧
    (planned (on (pgReeve 0))).startErr false = 0 ∧ 0 ∈ (planned (on (pgReeve 0))).enabledReeves := ⟨⟨by decide, by decide⟩, by decide⟩
theorem test_counter_clears : pageAt ((pgMill 0).base + 0x0BC) = some (pgMill 0) ∧ clearsOf .mill 0x0BC = some (0x080, 13) ∧
    ((pgMill 0).base + 0x0BC) % 0x1000 = 0x0BC ∧ (bare []).reaches .host (pgMill 0) ∧ (1 : Word).getLsbD 0 = true ∧ clearsOf .mill 0 = none :=
  ⟨by decide, by decide, by decide, ⟨by decide, by decide⟩, by decide⟩
theorem test_register_writes : Kind.mill ∈ plainKinds ∧ pageAt ((pgMill 0).base + R.mill_MILLCFG_LEAT.off) = some (pgMill 0) ∧
    R.mill_MILLCFG_LEAT.off ≠ R.CTL_ENABLE.off ∧ R.mill_MILLCFG_LEAT.off ≠ R.CRIER_LINE_SOURCE.off ∧
    clearsOf .mill R.mill_MILLCFG_LEAT.off = none ∧ storedMask ((Kind.mill).regFields R.mill_MILLCFG_LEAT.off) false ≠ 0 ∧
    storedMask ((Kind.mill).regFields R.STATE_STATE.off) false = 0 ∧ accMask ((Kind.mill).regFields R.STATE_STATE.off) .w1c = 0 ∧
    pageAt 0xFFFF000 = none ∧ (bare []).shut .host pgPlan = false := by decide
theorem test_before_ready : (bare [(pgDevctl, 0x040, 4)]).shut .host pgPlan = true ∧ (draining true).shut .host (pgMill 5) = false ∧
    (draining true).underReset (pgMill 5) = true ∧ pgMill 5 ≠ pgDevctl := by decide

theorem test_cold_start_needs_straps : ¬ (State.reset.dev.power.level = .off ∧ State.reset.dev.power.thermN = false ∧ State.reset.dev.boot.strap ≠ none) := by
  decide
/-- The first packet of a start, with the enrolment committed or not and the trim image the device's own or not. -/
def identifying (en : Enrolment) (tr : TrimImage) (n ph : Nat) : State :=
  starting { released := true, loads := [⟨pgWell 3, [5], 1⟩], trim := tr, enrol := en, starts := n } ph
theorem test_first_packet : (∀ en ∈ [Enrolment.committed, .uncommitted, .absent], ∀ tr ∈ [TrimImage.own, .foreign, .absent],
      (identifying en tr 1 1).deviceReset = true ∧ (identifying en tr 1 1).bootPhase < 4 ∧
      (∃ l ∈ (identifying en tr 1 1).dev.boot.loads, l.core.kind = CoreKind.page .well)) ∧
    (identifying .committed .own 1 1).dev.boot.enrolled = true ∧ (identifying .absent .own 1 1).dev.boot.enrolled = false ∧
    (identifying .uncommitted .own 1 1).dev.boot.enrolled = false ∧ (identifying .uncommitted .own 0 1).dev.boot.enrolled = true ∧
    (identifying .committed .foreign 1 1).dev.boot.trim ≠ .own ∧ ¬ (identifying .committed .own 1 4).bootPhase < 4 := by decide
theorem test_first_packet_stops : ∀ t, exec (.fwPacket .well 5 none [] []) (identifying .committed .foreign 1 1) = .next t →
    t.fld pgDevctl R.devctl_BOOT_STOP = 1 := by intro t h; cases h; decide
theorem test_start_ends_identified : (starting { released := true } 8).dev.boot.enrolled = true ∧ (starting { released := true } 8).dev.boot.trim = .own ∧
    (starting { released := true, enrol := .absent } 8).dev.boot.enrolled = false ∧ (starting { released := true, trim := .absent } 8).dev.boot.trim ≠ .own := by
  decide
theorem test_sideband_is_up : (starting { strap := some 1 } 0).dev.boot.strap.isSome = true := by decide
/-- The stop codes that RESET_DONE tells. -/
theorem test_stop_codes : 1 ≤ (9 : Byte).toNat ∧ (9 : Byte).toNat ≤ 9 ∧ ¬ ((9 : Byte) = 1 ∧ (starting { released := true } 8).dev.boot.trim = .own) ∧
    ¬ 1 ≤ (0 : Byte).toNat := by decide
/-- ENABLE is checked at pages in order of arrival. -/
def checkingPage (p : Page) (rs : List (Page × Nat × Nat)) : State :=
  { busy p rs with dev := { (busy p rs).dev with checks := [p.base] } }
theorem test_checks_run : (checkingPage pgOrarn []).checking = some pgOrarn ∧ firstFail ((checkingPage pgOrarn []).fails pgOrarn none none) = none ∧
    (checkingPage pgHost []).checking = some pgHost ∧ firstFail ((checkingPage pgHost []).fails pgHost none none) = some (0x20, 0x044) ∧
    (checkingPage (pgGran 0) []).checking = some (pgGran 0) ∧ (checkingPage (pgLink 3) []).checking = some (pgLink 3) ∧
    (pgLink 3).kind = .link ∧ (bare []).checking ≠ some pgOrarn := by decide
theorem test_stuck_page : (bare [(pgCist 5, 0x00C, 4)]).stuck (pgCist 5) = true ∧ (bare []).stuck (pgReeve 5) = false := by decide
theorem test_page_not_idle : (bare (running 0)).idle (pgReeve 0) = false ∧ (bare (running 0)).fld (pgReeve 0) R.STATE_STATE ≠ stBusy := by decide
theorem test_request_area : areaBase ≤ (BitVec.ofNat 28 areaBase).toNat ∧ (BitVec.ofNat 28 areaBase).toNat + 8 ≤ areaEnd ∧
    (hostAt [] { host := { mailbox := { mstate := 0 } } }).dev.host.mailbox.mstate ≠ 1 ∧ (hostAt [] {}).bit pgHost R.host_CFG_IDE_REQ = false := by decide
theorem test_core_reset_seeds_lanes : ∀ t, exec (.coreReset .host (BitVec.ofNat 16 ((pgMill 0).base / 0x1000))) (bare []) = .next t →
    Sparse.get? (t.croft 0).lanes 127 = some (seedLane 0 127) := by intro t h; cases h; decide +kernel

/-! ### Ill-formed commands are refused, check by check -/

/-- An index or a key out of its range. -/
theorem test_ranges_are_checked : ∀ i ∈ [Instr.chunkFetchDone 0 65536 [], .chunkFetchDone 0 0 [(4096, 1)], .loadPassEnd 0 [(536, 0, 0)],
    .loadPassEnd 0 [(0, 512, 0)], .windowEnd 0 [(536, 0, 0)], .windowEnd 0 [(0, 65, 0)], .soundingEnd 0 [(536, [0, 0, 0, 0])],
    .soundingEnd 0 [(0, [6145, 0, 0, 0])], .soundingEnd 0 [(0, [-6145, 0, 0, 0])], .watchSample 0 256, .supplyWarningRelease 0 0 95,
    .thermtrip true 8, .coreReset .host 0x8000, .enableSet .host 0x8000, .enableCheckDone 0x8000 true none none, .enableClear .host 0x8000],
    i.wf = false := by decide
set_option maxRecDepth 20000 in
/-- A list of the wrong length. -/
theorem test_lengths_are_checked : ∀ i ∈ [Instr.drawSliceEnd 0 [], .drawSliceEnd 0 [[0]], .drawQuarterEnd 0 [], .soundingEnd 0 [(0, [0])],
    .granaryWrite 0 0 [] .host ⟨false, 0, []⟩, .granaryWrite 0 63 [1, 2] .host ⟨false, 0, []⟩, .hostBar2Read 0 0 false .silent, .hostBar2Read 0 4097 false .silent,
    .hostBar2Read 0 2 false (.ok [1]), .hostBar2Write 0 [] false .silent, .registerWrite .host false 0 [] false,
    .registerWrite .host false 0xFFE [1, 2, 3, 4] false, .frameReceive 3 [] [] [] [] [] [], arrives (List.replicate 12 [0]) [] []],
    i.wf = false := by decide
/-- A key that stands twice, an access across stripes, and an offset that is no multiple of 4. -/
theorem test_repeats_and_places_are_checked : ∀ i ∈ [Instr.chunkFetchDone 0 0 [(5, 1), (5, 2)], .loadPassEnd 0 [(1, 2, 0), (1, 2, 3)],
    .windowEnd 0 [(1, 2, 0), (1, 2, 3)], .cisternRead 0 0xFF 2 .host [], .cisternRead 0 0 0 .host [], .cisternWrite 0 0xF000000 [1] .host none [],
    .counterClear .host 2 0, .rcRead 6, .fwPacket .well 0 none [3, 3] [], .fwPacket .well 0 none [] [3, 3],
    .cisternRead 0 0 8 .host [(1, 1), (1, 2)], .cisternWrite 0 0 [1] .host none [(1, 1), (1, 2)], .scrubStripe 0 [(1, 1, 0), (1, 1, 1)],
    .granaryRead 0 0 .host false 0 [(1, 1), (1, 2)], .granaryWrite 0 0 [1] .host ⟨false, 0, [(1, 1), (1, 2)]⟩,
    .granaryScrub 0 ⟨false, 0, [(1, 1), (1, 2)]⟩, .granaryRereadDone 0 ⟨false, 0, [(1, 1), (1, 2)]⟩], i.wf = false := by decide
theorem test_good_commands_pass : ∀ i ∈ [Instr.chunkFetchDone 0 65535 [(4095, 1)], .loadPassEnd 0 [(535, 511, 0)], .watchSample 0 255,
    .hostBar2Read 0 4096 false .silent, .cisternRead 0 0x100 256 .host [], .rcRead 4, .nop 0, .enableSet .host 0x7FFF], i.wf = true := by decide

/-! ### What reads show -/

/-- Under reset only STATE reads other than zero, as BUSY, 3 (R18, R539). -/
theorem test_reads_under_reset : State.reset.shown (pgWell 0) 0x00C = 3 ∧ State.reset.shown (pgWell 0) 0x208 = 0 := by decide
/-- Both ages stand at their hold before a first window and sounding, and 25 µs after one WINDOW reads 2 (R139). -/
theorem test_cal_age_shown : (live [] {}).shown (pgWell 0) 0x208 = 0xFFFFFFFF ∧
    ({ live [] {} with now := 25000, wells := [(0, { windowAt := some 0 })] }).shown (pgWell 0) 0x208 = 0xFFFF0002 := by decide
/-- A span open, L[3] active and waiting at a FENCE for pump 0: bits 6, 11, 18 and 4 in bits 26 to 24, beside RUNNING (R269). -/
theorem test_reeve_status_shown :
    let r : Reeve := {
      span := some (3, 1), wait := .fence, loops := [⟨0, false⟩, ⟨0, false⟩, ⟨0, false⟩, ⟨1, true⟩],
      orders := [⟨0, 0, 0, 1, 2, false, false⟩] }
    (at' 0 0 [] r).shown (pgReeve 0) 0x050 = 0x04040841 := by decide +kernel
/-- A raised line of source 34 shows in bit 2 of PEND1, an injected source 33 in bit 1; the host's MASK words stand (R464, R467). -/
theorem test_pend_shown : (live [(pgPlan, 0x020, 34 + 65536), (pgCrier, 0x204, 2)] {}).shown pgCrier 0x204 = 6 ∧
    (live [] {}).shown pgCrier 0x104 = 0xFFFFFFFF ∧ (live [] {}).shown pgCrier 0x04C = 0 := by decide +kernel
/-- A retired croft takes its 16 wells and 4 pumps with it (R503, R518); the query of its well 16 answers RETIRED, runtime, VIA (R550). -/
theorem test_retired_shown : (live [(pgDefect, 0x044, 2 + 16 * 65536)] { boot := { runtime := [⟨4, 2, 1, 2, 0⟩] } }).shown pgDefect 0x048 = 0xD := by decide
/-- The worked example of R503: croft 77 retired shows 16 wells, 4 pumps and 1 croft. -/
theorem test_retired_counts_shown : (live [] { boot := { runtime := [⟨4, 2, 77, 2, 0⟩] } }).shown pgDevctl 0x04C = BitVec.ofNat 32 (16 + 4 * 2 ^ 12 + 2 ^ 22) := by
  decide +kernel

end Sys2Proof.Tests
end

section
/-! SUPPORT. The reeve's own effects: what a frame keeps of the reads, a field's read after a field is set, the end of an issue and
of a wait, and the halt of a croft. -/
namespace Sys2Proof.Machine

/-! ### Reads a frame keeps -/

section
variable {T : Touch} {s t : State} {p : Page}

theorem Keeps.reg_eq (h : Keeps T s t) {o : Nat} (n : ¬ T.regs (p.base + o)) : t.reg p o = s.reg p o := by
  simp only [State.reg, h.regs _ n]

theorem Keeps.fld_eq (h : Keeps T s t) {f : Fld} (n : ¬ T.regs (p.base + f.off)) : t.fld p f = s.fld p f := by
  simp only [State.fld, h.reg_eq n]

theorem Keeps.bit_eq (h : Keeps T s t) {f : Fld} (n : ¬ T.regs (p.base + f.off)) : t.bit p f = s.bit p f := by
  simp only [State.bit, h.fld_eq n]

theorem Keeps.underReset_eq (h : Keeps T s t) (n : ¬ T.dev) : t.underReset p = s.underReset p := by
  simp only [State.underReset, h.dev n]

end

theorem theRegs_mem {f : Fld} {fs : List Fld} (h : f ∈ fs) (p : Page) : theRegs p fs (p.base + f.off) := ⟨f, h, rfl⟩

/-- Within one page, an offset that is none of some fields' is not among their registers. -/
theorem not_theRegs_offset {fs : List Fld} {o : Nat} (h : o ∉ fs.map Fld.off) (p : Page) : ¬ theRegs p fs (p.base + o) := by
  rintro ⟨f, hf, e⟩
  exact h (List.mem_map.2 ⟨f, hf, by omega⟩)

/-- The registers of a reeve page lie above every device page. -/
theorem lt_pgReeve_base (c : Nat) : 0x1400000 < (pgReeve c).base := by
  simp only [pgReeve_base, croftBase_eq]; omega

theorem not_theRegs_pgReeve {c a : Nat} (h : a < 0x1400000) (fs : List Fld) : ¬ theRegs (pgReeve c) fs a := by
  rintro ⟨f, -, rfl⟩
  have := lt_pgReeve_base c
  omega

/-! ### Fields and records after an effect -/

theorem fld_setFld_same {f : Fld} (hf : f.lo + f.width ≤ 32) (p : Page) (v : Nat) (s : State) :
    ((setFld p f v).run s).fld p f = v % 2 ^ f.width := by
  rw [State.fld_eq, (setFld_run p f v s).1, Fld.of_insert_same f hf]

/-- Another field of the page, of another register or of other bits, stays. -/
theorem fld_setFld_other {f g : Fld} (hf : f.lo + f.width ≤ 32)
    (h : g.off ≠ f.off ∨ f.lo + f.width ≤ g.lo ∨ g.lo + g.width ≤ f.lo) (p : Page) (v : Nat) (s : State) :
    ((setFld p f v).run s).fld p g = s.fld p g := by
  by_cases ho : g.off = f.off
  · rw [State.fld_eq, State.fld_eq, ho, (setFld_run p f v s).1, Fld.of_insert_disjoint f g hf (h.resolve_left (· ho))]
  · exact (setFld_run p f v s).2.fld_eq (not_theRegs_offset (by simpa using ho) p)

theorem fld_modReeve (c : Nat) (f : Reeve → Reeve) (s : State) (p : Page) (g : Fld) :
    ((modReeve c f).run s).fld p g = s.fld p g := rfl

theorem croft_modReeve (c : Nat) (f : Reeve → Reeve) (s : State) :
    ((modReeve c f).run s).croft c = { s.croft c with reeve := f (s.reeve c) } := by
  simp [modReeve, modCroft, State.reeve]

theorem croft_setWait (c : Nat) (wt : Wait) (s : State) :
    ((setWait c wt).run s).croft c = { s.croft c with reeve := { s.reeve c with wait := wt } } :=
  croft_modReeve c (fun r => { r with wait := wt }) s

/-! ### Issue and the end of a wait -/

theorem pc_setPC {j : Nat} (h : j < 2 ^ 24) (c : Nat) (s : State) : ((setPC c j).run s).pc c = j := by
  rw [State.pc, setPC, fld_setFld_same (by decide)]
  exact Nat.mod_eq_of_lt h

/-- The end of a wait: the reeve waits on nothing and goes on at `j`. -/
def waitEnds (c j : Nat) : Prog := .all [setWait c .none, setPC c j]

section
variable {P : Act → Prop} {c : Nat}

theorem waitEnds_only (hr : ∀ w, P (.reg ((pgReeve c).base + R.reeve_PC_INDEX.off) w)) (hc : ∀ r, P (.croft c r)) (j : Nat) :
    (waitEnds c j).Only P := by
  simp only [waitEnds, Prog.only_all_cons, Prog.only_all_nil, and_true]
  exact ⟨modReeve_only hc _, setFld_only hr _⟩

theorem issueWait_only (hr : ∀ w, P (.reg ((pgReeve c).base + R.reeve_ISSUE_CNT.off) w)) (hc : ∀ r, P (.croft c r)) (wt : Wait) :
    (issueWait c wt).Only P := by
  simp only [issueWait, Prog.only_all_cons, Prog.only_all_nil, and_true]
  exact ⟨bump_only hr, modReeve_only hc _⟩

theorem issueDone_only (hr : ∀ w, P (.reg ((pgReeve c).base + R.reeve_ISSUE_CNT.off) w))
    (hp : ∀ w, P (.reg ((pgReeve c).base + R.reeve_PC_INDEX.off) w)) (hc : ∀ r, P (.croft c r)) (j : Nat) : (issueDone c j).Only P := by
  rw [issueDone, Prog.only_all_cons]
  exact ⟨bump_only hr, waitEnds_only hp hc j⟩

end

theorem waitEnds_run {j : Nat} (h : j < 2 ^ 24) (c : Nat) (s : State) :
    let t := (waitEnds c j).run s
    t.pc c = j ∧ t.croft c = { s.croft c with reeve := { s.reeve c with wait := .none } } ∧
    Keeps { regs := theRegs (pgReeve c) [R.reeve_PC_INDEX], crofts := (· = c) } s t := by
  refine ⟨?_, croft_setWait c .none s, Prog.keeps (waitEnds_only (fun _ => theRegs_mem (List.mem_singleton_self _) _) (fun _ => rfl) j) s⟩
  simp only [waitEnds, Prog.run_all_cons, Prog.run_all_nil]
  exact pc_setPC h c _

theorem issueWait_run (c : Nat) (wt : Wait) (s : State) :
    BeginsWait s ((issueWait c wt).run s) c wt ∧ Keeps (issueTouch c []) s ((issueWait c wt).run s) := by
  obtain ⟨hcount, hkeep⟩ := bumpBy_run (pgReeve c) R.reeve_ISSUE_CNT 1 s
  exact ⟨⟨hcount, hkeep.fld_eq (not_theRegs_offset (by decide) _), croft_setWait c wt _⟩,
    Prog.keeps (issueWait_only (fun _ => theRegs_mem (by simp) _) (fun _ => rfl) wt) s⟩

theorem issueDone_run {j : Nat} (h : j < 2 ^ 24) (c : Nat) (s : State) :
    GoesOn s ((issueDone c j).run s) c j (s.croft c) ∧ Keeps (issueTouch c []) s ((issueDone c j).run s) := by
  obtain ⟨hcount, -⟩ := bumpBy_run (pgReeve c) R.reeve_ISSUE_CNT 1 s
  obtain ⟨hpc, hcroft, hends⟩ := waitEnds_run h c ((countIssue c).run s)
  have hissue := (hends.reg_eq (not_theRegs_offset (by decide) _)).trans hcount
  have hkeep : (issueDone c j).Only (issueTouch c []).allows :=
    issueDone_only (fun _ => theRegs_mem (by simp) _) (fun _ => theRegs_mem (by simp) _) (fun _ => rfl) j
  refine ⟨?_, Prog.keeps hkeep s⟩
  rw [issueDone, Prog.run_all_cons]
  exact ⟨hissue, hpc, hcroft⟩

/-! ### The waits of a croft -/

/-- A croft that waits runs, is not under reset and has no halt under way. -/
theorem waiting_some {s : State} {c : Nat} {x : Nat × OrderWord × Order} (h : s.waiting c = some x) :
    s.running c = true ∧ s.underReset (pgReeve c) = false ∧ (s.reeve c).dead = false ∧ (s.reeve c).halting = none ∧
    s.clockRuns c = true := by
  simp only [State.waiting] at h
  split at h
  · contradiction
  · rename_i hgo
    simp only [Bool.not_eq_true, Bool.or_eq_false_iff, Bool.not_eq_false', Option.isSome_eq_false_iff, Option.isNone_iff_eq_none] at hgo
    obtain ⟨⟨⟨⟨hrun, hreset⟩, hdead⟩, hhalt⟩, hclock⟩ := hgo
    exact ⟨hrun, hreset, hdead, hhalt, hclock⟩

/-! ### A croft reads HALTED -/

/-- The part of `croftStops` on the croft itself. -/
def markHalted (c : Nat) : Prog := .all [
  setFld (pgReeve c) R.reeve_STATUS_RUNNING 0,
  setFld (pgReeve c) R.reeve_STATUS_HALTED 1,
  modReeve c (fun r => { r with halting := none })]

/-- The fields of the plan page that the end of a pending stop changes (R546). -/
def planStopFields : List Fld := [R.plan_STATUS_STOP_PENDING, R.plan_STOP_CNT]

theorem not_theRegs_planStop {a : Nat} (h : 0x1000 ≤ a) : ¬ theRegs pgPlan planStopFields a := by
  rintro ⟨f, hf, rfl⟩
  have hoff : ∀ f ∈ planStopFields, f.off < 0x1000 := by decide
  have := hoff f hf
  rw [pgPlan_base] at h
  omega

theorem not_theRegs_planStop_reeve (c o : Nat) : ¬ theRegs pgPlan planStopFields ((pgReeve c).base + o) :=
  not_theRegs_planStop (by have := lt_pgReeve_base c; omega)

/-- The part of `croftStops` on the plan: a pending stop ends with the last enabled reeve (R546). -/
def endPendingStop : Prog := .get (fun s =>
  Prog.when (s.bit pgPlan R.plan_STATUS_STOP_PENDING && s.enabledReeves.all (fun k => !s.running k))
    (.all [setFld pgPlan R.plan_STATUS_STOP_PENDING 0, bump pgPlan R.plan_STOP_CNT]))

theorem croftStops_run_eq (c : Nat) (s : State) :
    (croftStops c).run s = countHalted.run (endPendingStop.run ((markHalted c).run s)) := by
  simp only [croftStops, endPendingStop, markHalted, Prog.run_all_cons, Prog.run_all_nil]

theorem markHalted_only {P : Act → Prop} {c : Nat} (hr : ∀ w, P (.reg ((pgReeve c).base + R.reeve_STATUS_RUNNING.off) w))
    (hc : ∀ r, P (.croft c r)) : (markHalted c).Only P := by
  simp only [markHalted, Prog.only_all_cons, Prog.only_all_nil, and_true]
  exact ⟨setFld_only hr _, setFld_only (f := R.reeve_STATUS_HALTED) hr _, modReeve_only hc _⟩

theorem markHalted_run (c : Nat) (s : State) :
    let t := (markHalted c).run s
    t.bit (pgReeve c) R.reeve_STATUS_RUNNING = false ∧ t.bit (pgReeve c) R.reeve_STATUS_HALTED = true ∧
    t.fld (pgReeve c) R.reeve_STATUS_HALT_REASON = s.fld (pgReeve c) R.reeve_STATUS_HALT_REASON ∧
    t.croft c = { s.croft c with reeve := { s.reeve c with halting := none } } ∧
    Keeps { regs := theRegs (pgReeve c) [R.reeve_STATUS_RUNNING], crofts := (· = c) } s t := by
  have honly : (markHalted c).Only (Touch.allows { regs := theRegs (pgReeve c) [R.reeve_STATUS_RUNNING], crofts := (· = c) }) :=
    markHalted_only (fun _ => theRegs_mem (List.mem_singleton_self _) _) fun _ => rfl
  refine ⟨?running, ?halted, ?reason, croft_modReeve c (fun r => { r with halting := none }) _, Prog.keeps honly s⟩
  all_goals simp only [markHalted, Prog.run_all_cons, Prog.run_all_nil, State.bit, fld_modReeve]
  case running => rw [fld_setFld_other (by decide) (by decide), fld_setFld_same (by decide)]; rfl
  case halted => rw [fld_setFld_same (by decide)]; rfl
  case reason => rw [fld_setFld_other (by decide) (by decide), fld_setFld_other (by decide) (by decide)]

/-- Only a pending stop lets the plan's registers change. -/
theorem endPendingStop_keeps {T : Touch} {s : State}
    (h : s.bit pgPlan R.plan_STATUS_STOP_PENDING = true →
      ∀ a, theRegs pgPlan planStopFields a → T.regs a) : Keeps T s (endPendingStop.run s) := by
  rw [endPendingStop, Prog.run_get, Prog.run_when]
  split
  · rename_i hb
    have hplan := h (Bool.and_eq_true _ _ ▸ hb).1
    refine Prog.keeps ?_ s
    simp only [Prog.only_all_cons, Prog.only_all_nil, and_true]
    exact ⟨setFld_only (fun _ => hplan _ (theRegs_mem (by simp [planStopFields]) _)) _, bump_only fun _ => hplan _ (theRegs_mem (by simp [planStopFields]) _)⟩
  · exact Keeps.refl T s

theorem endPendingStop_keeps_plan (s : State) : Keeps { regs := theRegs pgPlan planStopFields } s (endPendingStop.run s) :=
  endPendingStop_keeps fun _ _ ha => ha

theorem flood_only {P : Act → Prop} (h : ∀ q r, P (.link q r)) (m : StewMsg) (skip : Option Nat) : (flood m skip).Only P :=
  fun _ => (Prog.only_each ..).2 fun q _ => modLink_only (h q) _

/-- Only an abandonment lets the device's record and the links change. -/
theorem countHalted_keeps {T : Touch} {s : State} (h : s.bit pgNum R.numstep_STATUS_ABANDONING = true → T.dev ∧ ∀ q, T.links q) :
    Keeps T s (countHalted.run s) := by
  rw [countHalted, Prog.run_get, Prog.run_when]
  split
  · rename_i hb
    obtain ⟨hdev, hlinks⟩ := h (Bool.and_eq_true _ _ ▸ hb).1
    refine Prog.keeps ?_ s
    simp only [Prog.only_all_cons, Prog.only_all_nil, and_true]
    exact ⟨modDev_only (fun _ => hdev) _, flood_only (fun q _ => hlinks q) _ _⟩
  · exact Keeps.refl T s

/-- The device's record keeps its resets: only the devices known to have halted change. -/
theorem countHalted_underReset (s : State) (p : Page) : (countHalted.run s).underReset p = s.underReset p := by
  rw [countHalted, Prog.run_get, Prog.run_when]
  split
  · rw [Prog.run_all_cons, Prog.run_all_cons, Prog.run_all_nil]
    have hflood := Prog.keeps (T := { links := fun _ => True }) (flood_only (fun _ _ => trivial) (.halted s.self s.stepIndex) none)
    rw [State.underReset, (hflood _).dev id]
    rfl
  · rfl

/-- What the halt of croft `c` may change: registers of its reeve, and where a stop is pending the plan's, and under abandonment the
device's record and the links. -/
def haltTouch (s : State) (c : Nat) (fs : List Fld) : Touch :=
  { regs := fun a => theRegs (pgReeve c) fs a ∨
      (s.bit pgPlan R.plan_STATUS_STOP_PENDING = true ∧ theRegs pgPlan planStopFields a)
    crofts := (· = c)
    dev := s.bit pgNum R.numstep_STATUS_ABANDONING = true
    links := fun _ => s.bit pgNum R.numstep_STATUS_ABANDONING = true }

theorem not_haltTouch_regs {fs : List Fld} {o : Nat} (h : o ∉ fs.map Fld.off) (s : State) (c : Nat) :
    ¬ (haltTouch s c fs).regs ((pgReeve c).base + o) := by
  rintro (hr | ⟨-, hp⟩)
  · exact not_theRegs_offset h _ hr
  · exact not_theRegs_planStop_reeve c o hp

/-- After the croft itself is marked, only the plan, the device's record and the links can change. -/
theorem croftStops_after_mark (c : Nat) (s : State) :
    Keeps { regs := theRegs pgPlan planStopFields, dev := True, links := fun _ => True }
      ((markHalted c).run s) ((croftStops c).run s) := by
  rw [croftStops_run_eq]
  exact (endPendingStop_keeps fun _ _ ha => ha).trans (countHalted_keeps fun _ => ⟨trivial, fun _ => trivial⟩)

theorem croftStops_underReset (c : Nat) (s : State) (p : Page) : ((croftStops c).run s).underReset p = s.underReset p := by
  obtain ⟨-, -, -, -, hmark⟩ := markHalted_run c s
  rw [croftStops_run_eq, countHalted_underReset, (endPendingStop_keeps_plan _).underReset_eq id, hmark.underReset_eq id]

/-- A croft that stops reads HALTED and not RUNNING, and its halt reason stays. -/
theorem croftStops_run (c : Nat) (s : State) :
    let t := (croftStops c).run s
    t.bit (pgReeve c) R.reeve_STATUS_RUNNING = false ∧ t.bit (pgReeve c) R.reeve_STATUS_HALTED = true ∧
    t.fld (pgReeve c) R.reeve_STATUS_HALT_REASON = s.fld (pgReeve c) R.reeve_STATUS_HALT_REASON ∧
    t.croft c = { s.croft c with reeve := { s.reeve c with halting := none } } := by
  obtain ⟨hrun, hhalt, hreason, hcroft, -⟩ := markHalted_run c s
  have hafter := croftStops_after_mark c s
  have hreg := not_theRegs_planStop_reeve c
  exact ⟨(hafter.bit_eq (hreg _)).trans hrun, (hafter.bit_eq (hreg _)).trans hhalt, (hafter.fld_eq (hreg _)).trans hreason,
    (hafter.crofts c id).trans hcroft⟩

/-- The plan changes only where a stop was pending before the halt, the device's record and the links only under abandonment. -/
theorem croftStops_keeps {fs : List Fld} (h : R.reeve_STATUS_RUNNING ∈ fs) (c : Nat) (s : State) :
    Keeps (haltTouch s c fs) s ((croftStops c).run s) := by
  obtain ⟨-, -, -, -, hmark⟩ := markHalted_run c s
  have hplan : ((markHalted c).run s).bit pgPlan R.plan_STATUS_STOP_PENDING = s.bit pgPlan R.plan_STATUS_STOP_PENDING :=
    hmark.bit_eq (not_theRegs_pgReeve (by simp) _)
  have hnum : (endPendingStop.run ((markHalted c).run s)).bit pgNum R.numstep_STATUS_ABANDONING =
      s.bit pgNum R.numstep_STATUS_ABANDONING :=
    ((endPendingStop_keeps_plan _).bit_eq (not_theRegs_planStop (by simp))).trans (hmark.bit_eq (not_theRegs_pgReeve (by simp) _))
  have hmarked : (markHalted c).Only (haltTouch s c fs).allows := markHalted_only (fun _ => Or.inl (theRegs_mem h _)) fun _ => rfl
  have hstopped : Keeps (haltTouch s c fs) ((markHalted c).run s) _ := endPendingStop_keeps fun hb _ ha => Or.inr ⟨hplan ▸ hb, ha⟩
  have hcounted : Keeps (haltTouch s c fs) (endPendingStop.run ((markHalted c).run s)) _ :=
    countHalted_keeps fun hb => ⟨hnum.symm.trans hb, fun _ => hnum.symm.trans hb⟩
  rw [croftStops_run_eq]
  exact ((Prog.keeps hmarked s).trans hstopped).trans hcounted

end Sys2Proof.Machine
end

section
/-! O7: BELL orders (R259). -/
namespace Sys2Proof.Machine

/-- A BELL order at PC, of either mode, is issued with its target. -/
theorem exec_bell_stands {s : State} {c : CroftId} {i : Nat} {w : OrderWord} {rel : Bool} {time : Nat}
    (h : s.stands c.val i w (.bell rel time)) :
    exec (if rel then .bellRel c else .bellAbs c) s =
      .next ((bellIssue c.val i (if rel then s.stepBell c.val + time else time)).run s) := by
  cases rel with
  | false => exact congrArg Host.Outcome.next (issueRow_stands h _)
  | true => exact congrArg Host.Outcome.next (issueRow_stands h _)

theorem bellIssue_keeps (c i target : Nat) (s : State) :
    Keeps (issueTouch c [R.reeve_BELL_LATE_CNT]) s ((bellIssue c i target).run s) := by
  have hcount (w : Word) : (issueTouch c [R.reeve_BELL_LATE_CNT]).allows (.reg ((pgReeve c).base + R.reeve_ISSUE_CNT.off) w) :=
    theRegs_mem (by simp) _
  have hpc (w : Word) : (issueTouch c [R.reeve_BELL_LATE_CNT]).allows (.reg ((pgReeve c).base + R.reeve_PC_INDEX.off) w) :=
    theRegs_mem (by simp) _
  have hlate (w : Word) : (issueTouch c [R.reeve_BELL_LATE_CNT]).allows (.reg ((pgReeve c).base + R.reeve_BELL_LATE_CNT.off) w) :=
    theRegs_mem (by simp) _
  refine Prog.keeps (fun s => ?_) s
  show Prog.Only _ (if _ then _ else _)
  split
  · simp only [Prog.only_all_cons, Prog.only_all_nil, and_true]
    exact ⟨bump_only hlate, issueDone_only hcount hpc (fun _ => rfl) _⟩
  · exact issueWait_only hcount (fun _ => rfl) _

/-- A target that has passed completes the order at once and counts it late. -/
theorem bellIssue_passed {s : State} {c i target : Nat} (h : target ≤ s.bellNow) (hi : nextIdx i < 2 ^ 24) :
    GoesOn s ((bellIssue c i target).run s) c (nextIdx i) (s.croft c) ∧
    Counts s ((bellIssue c i target).run s) (pgReeve c) R.reeve_BELL_LATE_CNT 1 := by
  obtain ⟨hlate, hbump⟩ := bumpBy_run (pgReeve c) R.reeve_BELL_LATE_CNT 1 s
  simp only [bellIssue, Prog.run_get, if_pos h, Prog.run_all_cons, Prog.run_all_nil]
  obtain ⟨⟨hcount, hpc, hcroft⟩, hdone⟩ := issueDone_run hi c ((bump (pgReeve c) R.reeve_BELL_LATE_CNT).run s)
  have hissue := hbump.reg_eq (o := R.reeve_ISSUE_CNT.off) (not_theRegs_offset (by decide) (pgReeve c))
  exact ⟨⟨hcount.trans (congrArg (satAdd · 1) hissue), hpc, hcroft⟩, (hdone.reg_eq (not_theRegs_offset (by decide) _)).trans hlate⟩

/-- Before its target the order's wait begins and nothing is counted late. -/
theorem bellIssue_early {s : State} {c i target : Nat} (h : ¬ target ≤ s.bellNow) :
    BeginsWait s ((bellIssue c i target).run s) c (.bell target) ∧
    ((bellIssue c i target).run s).reg (pgReeve c) R.reeve_BELL_LATE_CNT.off = s.reg (pgReeve c) R.reeve_BELL_LATE_CNT.off := by
  simp only [bellIssue, Prog.run_get, if_neg h]
  obtain ⟨hwait, hkeep⟩ := issueWait_run c (.bell target) s
  exact ⟨hwait, hkeep.reg_eq (not_theRegs_offset (by decide) _)⟩

theorem exec_bellWaitComplete {s : State} {c : CroftId} {i target : Nat} {w : OrderWord} {o : Order}
    (hwait : (s.reeve c.val).wait = .bell target) (h : s.waiting c.val = some (i, w, o)) :
    exec (.bellWaitComplete c) s =
      .next (if target ≤ s.bellNow then (waitEnds c.val (nextIdx i)).run s else s) := by
  show execBellWaitComplete c s = _
  simp only [execBellWaitComplete, Prog.next_eq, Prog.run_get, hwait, h]
  rw [Prog.run_ite, Prog.run_done, waitEnds]

/-- Settles O7: at issue by the target's two cases, and the wait's end by the same comparison. -/
theorem bellOrdersWaitForTheirTarget : Obligations.BellOrdersWaitForTheirTarget := by
  unfold Obligations.BellOrdersWaitForTheirTarget
  constructor
  · intro s c i w rel time h
    refine ⟨_, exec_bell_stands h, ?_, bellIssue_keeps ..⟩
    have hi : nextIdx i < 2 ^ 24 := by have := nextIdx_lt (stands_pc h).2; omega
    by_cases hle : (if rel then s.stepBell c.val + time else time) ≤ s.bellNow
    · rw [if_pos hle]
      exact bellIssue_passed hle hi
    · rw [if_neg hle]
      exact bellIssue_early hle
  · intro s c i target w o hwait h hi
    rw [exec_bellWaitComplete hwait h]
    refine ⟨fun hlt => by rw [if_neg (by omega)], fun hle => ⟨_, rfl, ?_⟩⟩
    rw [if_pos hle]
    exact waitEnds_run hi c.val s

end Sys2Proof.Machine
end

section
/-! O14: HALT orders (R262). -/
namespace Sys2Proof.Machine

/-- What a HALT order of CODE `code` at index `i` records before its croft stops (R262). -/
def haltRecord (c i code : Nat) : Prog := .all [
  setFld (pgReeve c) R.reeve_HALT_INFO_CODE code,
  setFld (pgReeve c) R.reeve_STATUS_HALT_REASON 1,
  setWait c .none, setPC c (nextIdx i)]

/-- What ends a HALT order's wait: the halt's record, the croft's stop and the Crier line (R262). -/
def haltOrderEnds (c i code : Nat) : Prog := .all [
  setFld (pgReeve c) R.reeve_HALT_INFO_CODE code,
  setFld (pgReeve c) R.reeve_STATUS_HALT_REASON 1,
  setWait c .none, setPC c (nextIdx i),
  croftStops c,
  raiseLine (pgReeve c)]

theorem haltOrderEnds_run_eq (c i code : Nat) (s : State) :
    (haltOrderEnds c i code).run s = (raiseLine (pgReeve c)).run ((croftStops c).run ((haltRecord c i code).run s)) := by
  rw [haltRecord, ← Prog.run_all_nil ((raiseLine _).run _), ← Prog.run_all_cons, ← Prog.run_all_cons]
  exact Prog.run_all_append [_, _, _, _] [_, _] s

theorem exec_haltComplete {s : State} {c : CroftId} {i code : Nat} {w : OrderWord}
    (hwait : (s.reeve c.val).wait = .haltOrder) (h : s.waiting c.val = some (i, w, .halt code)) :
    exec (.haltComplete c) s = .next (if (s.reeve c.val).ranOut then (haltOrderEnds c.val i code).run s else s) := by
  show execHaltComplete c s = _
  simp only [execHaltComplete, Prog.next_eq, Prog.run_get, hwait, h]
  rw [Prog.run_ite, Prog.run_done, haltOrderEnds]

theorem ranOut_iff (r : Reeve) : r.ranOut = true ↔ r.orders = [] ∧ r.pend = [] := by
  simp [Reeve.ranOut]

theorem haltRecord_run {i code : Nat} (hi : nextIdx i < 2 ^ 24) (hcode : code < 2 ^ 16) (c : Nat) (s : State) :
    let t := (haltRecord c i code).run s
    t.fld (pgReeve c) R.reeve_STATUS_HALT_REASON = 1 ∧ t.fld (pgReeve c) R.reeve_HALT_INFO_CODE = code ∧
    t.pc c = nextIdx i ∧ t.croft c = { s.croft c with reeve := { s.reeve c with wait := .none } } := by
  obtain ⟨hpc, hcroft, hkeep⟩ := waitEnds_run hi c
    ((setFld (pgReeve c) R.reeve_STATUS_HALT_REASON 1).run ((setFld (pgReeve c) R.reeve_HALT_INFO_CODE code).run s))
  have hreason := hkeep.fld_eq (f := R.reeve_STATUS_HALT_REASON) (not_theRegs_offset (by decide) (pgReeve c))
  have hinfo := hkeep.fld_eq (f := R.reeve_HALT_INFO_CODE) (not_theRegs_offset (by decide) (pgReeve c))
  rw [haltRecord, Prog.run_all_cons, Prog.run_all_cons]
  refine ⟨hreason.trans (fld_setFld_same (by decide) ..), hinfo.trans ?_, hpc, hcroft⟩
  rw [fld_setFld_other (by decide) (by decide), fld_setFld_same (by decide)]
  exact Nat.mod_eq_of_lt hcode

theorem haltRecord_only {P : Act → Prop} {c : Nat}
    (hr : ∀ f ∈ [R.reeve_PC_INDEX, R.reeve_STATUS_RUNNING, R.reeve_HALT_INFO_CODE], ∀ w, P (.reg ((pgReeve c).base + f.off) w))
    (hc : ∀ r, P (.croft c r)) (i code : Nat) : (haltRecord c i code).Only P := by
  rw [haltRecord, Prog.only_all_cons, Prog.only_all_cons]
  exact ⟨setFld_only (hr R.reeve_HALT_INFO_CODE (by simp)) _,
    setFld_only (f := R.reeve_STATUS_HALT_REASON) (hr R.reeve_STATUS_RUNNING (by simp)) _,
    waitEnds_only (hr R.reeve_PC_INDEX (by simp)) hc _⟩

theorem haltRecord_keeps (c i code : Nat) (s : State) :
    Keeps { regs := theRegs (pgReeve c) [R.reeve_PC_INDEX, R.reeve_STATUS_RUNNING, R.reeve_HALT_INFO_CODE], crofts := (· = c) }
      s ((haltRecord c i code).run s) :=
  Prog.keeps (haltRecord_only (fun _ hf _ => theRegs_mem hf _) (fun _ => rfl) i code) s

/-- What the record changes decides nothing of what else the halt may change. -/
theorem haltTouch_haltRecord (c i code : Nat) (s : State) (fs : List Fld) :
    haltTouch ((haltRecord c i code).run s) c fs = haltTouch s c fs := by
  have hkeep := haltRecord_keeps c i code s
  have hplan := hkeep.bit_eq (p := pgPlan) (f := R.plan_STATUS_STOP_PENDING) (not_theRegs_pgReeve (by simp) _)
  have hnum := hkeep.bit_eq (p := pgNum) (f := R.numstep_STATUS_ABANDONING) (not_theRegs_pgReeve (by simp) _)
  simp only [haltTouch, hplan, hnum]

/-- The fields of its reeve whose registers a HALT order may change: with RUNNING go HALTED and the reason, of one register. -/
def haltFields : List Fld := [R.reeve_PC_INDEX, R.reeve_STATUS_RUNNING, R.reeve_HALT_INFO_CODE, R.CRIER_LINE_RAISED]

theorem haltOrderEnds_keeps (c i code : Nat) (s : State) :
    Keeps (haltTouch s c haltFields) s ((haltOrderEnds c i code).run s) := by
  have hrecord : (haltRecord c i code).Only (haltTouch s c haltFields).allows :=
    haltRecord_only (fun _ hf _ => Or.inl (theRegs_mem (List.mem_append_left [R.CRIER_LINE_RAISED] hf) _)) (fun _ => rfl) i code
  have hstop := haltTouch_haltRecord c i code s haltFields ▸
    croftStops_keeps (fs := haltFields) (by simp [haltFields]) c ((haltRecord c i code).run s)
  have hline : (raiseLine (pgReeve c)).Only (haltTouch s c haltFields).allows :=
    raiseLine_only fun _ => Or.inl (theRegs_mem (by simp [haltFields]) _)
  rw [haltOrderEnds_run_eq]
  exact ((Prog.keeps hrecord s).trans hstop).trans (Prog.keeps hline _)

/-- The croft halts with the order's reason and CODE, goes past the order and raises its line. -/
theorem haltOrderEnds_run {s : State} {c i code : Nat} (hreset : s.underReset (pgReeve c) = false)
    (hi : nextIdx i < 2 ^ 24) (hcode : code < 2 ^ 16) :
    let t := (haltOrderEnds c i code).run s
    t.bit (pgReeve c) R.reeve_STATUS_RUNNING = false ∧ t.bit (pgReeve c) R.reeve_STATUS_HALTED = true ∧
    t.fld (pgReeve c) R.reeve_STATUS_HALT_REASON = 1 ∧ t.fld (pgReeve c) R.reeve_HALT_INFO_CODE = code ∧
    t.pc c = nextIdx i ∧ t.bit (pgReeve c) R.CRIER_LINE_RAISED = true ∧
    t.croft c = { s.croft c with reeve := { s.reeve c with wait := .none, halting := none } } := by
  obtain ⟨hreason, hinfo, hpc, hcroft⟩ := haltRecord_run hi hcode c s
  obtain ⟨hrun, hhalt, hreason', hcroft'⟩ := croftStops_run c ((haltRecord c i code).run s)
  have hstop := croftStops_keeps (List.mem_singleton_self _) c ((haltRecord c i code).run s)
  have hup : ((croftStops c).run ((haltRecord c i code).run s)).underReset (pgReeve c) = false := by
    rw [croftStops_underReset, (haltRecord_keeps c i code s).underReset_eq id, hreset]
  obtain ⟨-, hline, hraise⟩ := raiseLine_run (pgReeve c) ((croftStops c).run ((haltRecord c i code).run s))
  rw [haltOrderEnds_run_eq]
  refine ⟨?_, ?_, ?_, ?_, ?_, hline hup, ?_⟩
  · exact (hraise.bit_eq (not_theRegs_offset (by decide) _)).trans hrun
  · exact (hraise.bit_eq (not_theRegs_offset (by decide) _)).trans hhalt
  · exact ((hraise.fld_eq (not_theRegs_offset (by decide) _)).trans hreason').trans hreason
  · exact ((hraise.fld_eq (not_theRegs_offset (by decide) _)).trans (hstop.fld_eq (not_haltTouch_regs (by decide) _ _))).trans hinfo
  · exact ((hraise.fld_eq (not_theRegs_offset (by decide) _)).trans (hstop.fld_eq (not_haltTouch_regs (by decide) _ _))).trans hpc
  · rw [hraise.crofts c id, hcroft', State.reeve_eq, hcroft]

/-- Settles O14: the order waits while anything issued has not run out, and then ends with its croft's halt. -/
theorem haltOrderHalts : Obligations.HaltOrderHalts := by
  unfold Obligations.HaltOrderHalts
  intro s c i code w hwait h hi hcode
  rw [exec_haltComplete hwait h]
  constructor
  · intro hleft
    rw [if_neg fun hout => ?_]
    obtain ⟨ho, hp⟩ := (ranOut_iff _).1 hout
    exact hleft.elim (· ho) (· hp)
  · intro ho hp
    rw [if_pos ((ranOut_iff _).2 ⟨ho, hp⟩)]
    obtain ⟨-, hreset, -⟩ := waiting_some h
    obtain ⟨hrun, hhalt, hreason, hinfo, hpc, hline, hcroft⟩ := haltOrderEnds_run hreset hi hcode
    exact ⟨_, rfl, hrun, hhalt, hreason, hinfo, hpc, hline, hcroft, haltOrderEnds_keeps c.val i code s⟩

end Sys2Proof.Machine
end

section
/-! SUPPORT. The Steward's mailbox: what a message served runs, and what a response leaves (R449, R450). -/
namespace Sys2Proof.Machine

variable {s : State} {r : Request}

/-! ### The message served -/

theorem respond_run (h : s.dev.host.mailbox.serving = some r) (result : Nat) (payload : List Byte) :
    (respond result payload).run s = (respondTo r result payload).run s := by
  simp only [respond, Prog.run_get, h]

theorem serve_run (h : s.dev.host.mailbox.serving = some r) (k : Request → Prog) : (serve r.op k).run s = (k r).run s := by
  simp only [serve, Prog.run_get, h, if_true]

/-- A message of another length is answered as malformed (assumption 90). -/
theorem serveLen_run (h : s.dev.host.mailbox.serving = some r) (n : Nat) (k : Request → Prog) :
    (serveLen r.op n k).run s = if r.len = n then (k r).run s else (respondTo r rsMalformed []).run s := by
  rw [serveLen, serve_run h, Prog.run_ite, respond_run h]

/-! ### The response -/

/-- The part of a response that shows on Orarn's page, for a message that Orarn carries out (R532). -/
def orarnAnswers (result : Nat) : Prog := .all [
  setFld pgOrarn R.orarn_STATUS_BUSY 0,
  setFld pgOrarn R.orarn_STATUS_LAST_RESULT result]

theorem whenOrarnAnswers_only {T : Touch} (h : T.regs (pgOrarn.base + R.orarn_STATUS_BUSY.off)) (b : Bool) (result : Nat) :
    (Prog.when b (orarnAnswers result)).Only T.allows := by
  refine (Prog.only_when ..).2 fun _ => ?_
  simp only [orarnAnswers, Prog.only_all_cons, Prog.only_all_nil, and_true]
  exact ⟨setFld_only (fun _ => h) _, setFld_only (f := R.orarn_STATUS_LAST_RESULT) (fun _ => h) _⟩

/-- LAST_RESULT shares its register with BUSY, and no bit. -/
theorem orarnAnswers_bit_busy (result : Nat) (s : State) : ((orarnAnswers result).run s).bit pgOrarn R.orarn_STATUS_BUSY = false := by
  simp only [orarnAnswers, Prog.run_all_cons, Prog.run_all_nil, State.bit]
  rw [fld_setFld_other (by decide) (by decide), fld_setFld_same (by decide)]
  rfl

theorem modMailbox_only {P : Act → Prop} (h : ∀ d, P (.dev d)) (f : Mailbox → Mailbox) : (modMailbox f).Only P :=
  modDev_only h fun d => { d with host := { d.host with mailbox := f d.host.mailbox } }

/-- The response stands in the mailbox: what follows it writes registers only. -/
theorem respondTo_responds (r : Request) (result : Nat) (payload : List Byte) (s : State) :
    Responds ((respondTo r result payload).run s) r result payload := by
  simp only [respondTo, Prog.run_all_cons, Prog.run_all_nil, Responds]
  have hregs (b : Bool) (u : State) : ((Prog.when b (orarnAnswers result)).run u).dev = u.dev :=
    (Prog.keeps (T := { regs := fun _ => True }) (whenOrarnAnswers_only trivial b result) u).dev id
  rw [← orarnAnswers, hregs]
  exact ⟨rfl, rfl, rfl, rfl⟩

theorem respondTo_keeps (r : Request) (result : Nat) (payload : List Byte) (s : State) :
    Keeps { regs := theRegs pgOrarn [R.orarn_STATUS_BUSY], dev := True } s ((respondTo r result payload).run s) := by
  refine Prog.keeps ?_ s
  simp only [respondTo, Prog.only_all_cons, Prog.only_all_nil, and_true]
  exact ⟨modMailbox_only (fun _ => trivial) _, whenOrarnAnswers_only (theRegs_mem (List.mem_singleton_self _) _) _ result⟩

theorem respondTo_bit_busy (h : isOrarnOp r.op = true) (result : Nat) (payload : List Byte) (s : State) :
    ((respondTo r result payload).run s).bit pgOrarn R.orarn_STATUS_BUSY = false := by
  simp only [respondTo, Prog.run_all_cons, Prog.run_all_nil, h, Prog.run_when_true]
  exact orarnAnswers_bit_busy result _

end Sys2Proof.Machine
end

section
/-! O47: GET_CERT (R530). -/
namespace Sys2Proof.Machine

/-- GET_CERT answers by the length of its request and then by its INDEX. -/
theorem exec_getCert {s : State} {r : Request} (h : s.dev.host.mailbox.serving = some r) (hop : r.op = opGetCert) :
    exec .getCert s = .next (
      if r.len = 4 then
        if 2 < leNat (r.payload.take 4) then (respondTo r rsMalformed []).run s
        else (respondTo r rsDone (Config.cert (leNat (r.payload.take 4)) s.dev.orarn.fwDigest)).run s
      else (respondTo r rsMalformed []).run s) := by
  show execGetCert s = _
  rw [execGetCert, Prog.next_eq, ← hop, serveLen_run h, Prog.run_get, Prog.run_ite, respond_run h, respond_run h]

/-- Settles O47: each of the three cases is one response, to a message of Orarn's. -/
theorem certificatesAreGiven : Obligations.CertificatesAreGiven := by
  unfold Obligations.CertificatesAreGiven
  intro s r h hop
  have hresponse (result : Nat) (p : List Byte) (he : exec .getCert s = .next ((respondTo r result p).run s)) :
      Leaves (exec .getCert s) (fun t => Responds t r result p ∧ t.bit pgOrarn R.orarn_STATUS_BUSY = false ∧
        Keeps { regs := theRegs pgOrarn [R.orarn_STATUS_BUSY], dev := True } s t) :=
    ⟨_, he, respondTo_responds r result p s, respondTo_bit_busy (hop ▸ rfl) result p s, respondTo_keeps r result p s⟩
  refine ⟨fun hlen hi => ?_, fun hlen hi => ?_, fun hlen => ?_⟩
  · exact hresponse _ _ (by rw [exec_getCert h hop, if_pos hlen, if_neg (by omega)])
  · exact hresponse _ _ (by rw [exec_getCert h hop, if_pos hlen, if_pos hi])
  · exact hresponse _ _ (by rw [exec_getCert h hop, if_neg hlen])

end Sys2Proof.Machine
end

section
/-! O1 to O5: steps, the state after reset and the canonical forms that every step keeps. -/
namespace Sys2Proof.Machine

/-- The canonical forms speak of neither the queue of commands nor time nor the device's record. -/
theorem State.Inv.congr {s t : State} (h : s.Inv) (hregs : t.regs = s.regs) (hmem : t.mem = s.mem) (hcrofts : t.crofts = s.crofts)
    (hwells : t.wells = s.wells) (hpumps : t.pumps = s.pumps) (hhamlets : t.hamlets = s.hamlets) (hqueues : t.queues = s.queues)
    (hlinks : t.links = s.links) : t.Inv where
  regs := hregs ▸ h.regs
  mem := hmem ▸ h.mem
  crofts := hcrofts ▸ h.crofts
  wells := hwells ▸ h.wells
  pumps := hpumps ▸ h.pumps
  hamlets := hhamlets ▸ h.hamlets
  queues := hqueues ▸ h.queues
  links := hlinks ▸ h.links

theorem State.tick_inv {s : State} (h : s.Inv) : s.tick.Inv := h.congr rfl rfl rfl rfl rfl rfl rfl rfl

theorem exec_inv {i : Instr} {s t : State} (h : s.Inv) (he : exec i s = .next t) : t.Inv := by
  obtain ⟨p, hp⟩ := exec_prog i s
  rw [hp, Prog.next_eq] at he
  cases he
  exact p.run_inv h

/-- Settles O5: a step is a nanosecond's passage or a program of effects, and both keep every canonical form. -/
theorem stepKeepsInv : Obligations.StepKeepsInv := by
  unfold Obligations.StepKeepsInv
  intro s t h he
  unfold step at he
  split at he
  · cases he
    exact State.tick_inv h
  · rename_i c cs _
    have hrest : State.Inv { s with pending := cs } := h.congr rfl rfl rfl rfl rfl rfl rfl rfl
    exact exec_inv hrest he

/-- Settles O1. -/
theorem stepRunsTheFront : Obligations.StepRunsTheFront := fun _ _ _ => rfl

/-- Settles O2: on an empty queue a step is one tick. -/
theorem idleStepIsOneNanosecond : Obligations.IdleStepIsOneNanosecond := by
  unfold Obligations.IdleStepIsOneNanosecond
  intro s h
  unfold step
  split
  · rfl
  · rename_i hp
    rw [h] at hp
    contradiction

/-- Settles O3: every row is a program of effects, and what every program keeps is known. -/
theorem everyCommandAnswers : Obligations.EveryCommandAnswers := by
  unfold Obligations.EveryCommandAnswers
  intro i s
  obtain ⟨p, hp⟩ := exec_prog i s
  rw [hp]
  exact Leaves.of_next ⟨p.run_pending s, p.run_now s, p.run_seq_le s, p.run_out_prefix s⟩

theorem reset_inv : State.reset.Inv :=
  ⟨Sparse.wf_nil, ⟨Sparse.wf_nil, fun _ h => nomatch h⟩, Sparse.wf_nil, Sparse.wf_nil, Sparse.wf_nil, Sparse.wf_nil, Sparse.wf_nil,
    Sparse.wf_nil⟩

/-- Settles O4: after reset every sparse map is empty, so every read answers its default. -/
theorem resetState : Obligations.ResetState := ⟨fun _ _ => rfl, fun _ => rfl, rfl, reset_inv⟩

end Sys2Proof.Machine
end

section
/-! SUPPORT. One register write, and what every read sees after it; which registers are apart. -/
namespace Sys2Proof.Machine

/-! ### Registers apart -/

/-- The kind of device page `n` of BAR0. -/
def deviceKind (n : Nat) : Kind :=
  [.plan, .devctl, .host, .crier, .orarn, .power, .gauge, .numstep, .fabric, .port, .bell, .window, .ledger, .ledger, .watch, .bucket,
    .link, .link, .link, .link, .link, .link, .link, .link, .link, .link, .link, .link, .link, .link, .link, .link, .feed].getD n .defect

/-- The kind of page `n` of a croft's block. -/
def croftKind (n : Nat) : Kind :=
  if 0x20 ≤ n then .qgroup else if 0x10 ≤ n then .well
  else [.croft, .reeve, .mill, .sluice, .plumb, .tally, .pump, .pump, .pump, .pump, .own].getD n .cistern

/-- The kind of the page a BAR0 offset lies on (R535). -/
def kindAt (a : Nat) : Kind :=
  if a < 0x1000000 then deviceKind (a / 0x1000)
  else if a % 0x1000000 / 0x1000 < 0x400 then (if a % 0x1000000 / 0x1000 = 0 then .hamlet else .granary)
  else croftKind (a / 0x1000 % 0x40)

/-- The instances of a page that the map of R535 holds apart: two Ledger pages and sixteen link pages. -/
def Page.placed (p : Page) : Prop := (p.kind = .ledger → p.inst < 2) ∧ (p.kind = .link → p.inst < 16)

theorem kindAt_device {a n : Nat} (hn : n < 0x22) (h : a / 0x1000 = n) : kindAt a = deviceKind n := by
  rw [kindAt, if_pos (by omega), h]

theorem kindAt_croft {a : Nat} (c : Nat) {n o : Nat} (hn : n < 0x30) (ho : o < 0x1000) (h : a = croftBase c + n * 0x1000 + o) :
    kindAt a = croftKind n := by
  have hc := croftBase_eq c
  rw [kindAt, if_neg (by omega), if_neg (by omega), show a / 0x1000 % 0x40 = n by omega]

theorem kindAt_hamlet {a : Nat} (h : Nat) {n o : Nat} (hn : n < 2) (ho : o < 0x1000) (e : a = hamletBase h + n * 0x1000 + o) :
    kindAt a = if n = 0 then .hamlet else .granary := by
  have hh := hamletBase_eq h
  rw [kindAt, if_neg (by omega), if_pos (by omega)]
  exact if_congr (by omega) rfl rfl

theorem kindAt_base {p : Page} (h : p.placed) {o : Nat} (ho : o < 0x1000) : kindAt (p.base + o) = p.kind := by
  obtain ⟨k, n⟩ := p
  cases k <;> simp only [Page.base]
  case plan => exact kindAt_device (n := 0) (by decide) (by omega)
  case devctl => exact kindAt_device (n := 1) (by decide) (by omega)
  case host => exact kindAt_device (n := 2) (by decide) (by omega)
  case crier => exact kindAt_device (n := 3) (by decide) (by omega)
  case orarn => exact kindAt_device (n := 4) (by decide) (by omega)
  case power => exact kindAt_device (n := 5) (by decide) (by omega)
  case gauge => exact kindAt_device (n := 6) (by decide) (by omega)
  case numstep => exact kindAt_device (n := 7) (by decide) (by omega)
  case fabric => exact kindAt_device (n := 8) (by decide) (by omega)
  case port => exact kindAt_device (n := 9) (by decide) (by omega)
  case bell => exact kindAt_device (n := 10) (by decide) (by omega)
  case window => exact kindAt_device (n := 11) (by decide) (by omega)
  case watch => exact kindAt_device (n := 14) (by decide) (by omega)
  case bucket => exact kindAt_device (n := 15) (by decide) (by omega)
  case feed => exact kindAt_device (n := 32) (by decide) (by omega)
  case defect => exact kindAt_device (n := 33) (by decide) (by omega)
  case ledger =>
    have hn : n < 2 := h.1 rfl
    rw [kindAt_device (n := 12 + n) (by omega) (by omega)]
    interval_cases n <;> rfl
  case link =>
    have hn : n < 16 := h.2 rfl
    rw [kindAt_device (n := 16 + n) (by omega) (by omega)]
    interval_cases n <;> rfl
  case hamlet => exact kindAt_hamlet n (n := 0) (by decide) ho (by omega)
  case granary => exact kindAt_hamlet n (n := 1) (by decide) ho (by omega)
  case croft => exact kindAt_croft n (n := 0) (by decide) ho (by omega)
  case reeve => exact kindAt_croft n (n := 1) (by decide) ho (by omega)
  case mill => exact kindAt_croft n (n := 2) (by decide) ho (by omega)
  case sluice => exact kindAt_croft n (n := 3) (by decide) ho (by omega)
  case plumb => exact kindAt_croft n (n := 4) (by decide) ho (by omega)
  case tally => exact kindAt_croft n (n := 5) (by decide) ho (by omega)
  case own => exact kindAt_croft n (n := 10) (by decide) ho (by omega)
  case cistern => exact kindAt_croft n (n := 11) (by decide) ho (by omega)
  case pump =>
    rw [kindAt_croft (n / 4) (n := 6 + n % 4) (by omega) ho (by omega)]
    have : n % 4 < 4 := Nat.mod_lt _ (by decide)
    interval_cases n % 4 <;> rfl
  case well =>
    rw [kindAt_croft (n / 16) (n := 16 + n % 16) (by omega) ho (by omega), croftKind, if_neg (by omega), if_pos (by omega)]
  case qgroup =>
    rw [kindAt_croft (n / 16) (n := 32 + n % 16) (by omega) ho (by omega), croftKind, if_pos (by omega)]

theorem base_mod (p : Page) : p.base % 0x1000 = 0 := by
  obtain ⟨k, n⟩ := p
  cases k <;> simp only [Page.base, croftBase, hamletBase] <;> omega

/-- Which of the pages of its kind a page is; 0 where there is only one. -/
def Page.number (p : Page) : Nat :=
  match p.kind with
  | .ledger | .link | .hamlet | .granary | .croft | .reeve | .mill | .sluice | .plumb | .tally | .own | .cistern | .pump | .well | .qgroup =>
    p.inst
  | _ => 0

theorem number_of_base {p q : Page} (hk : p.kind = q.kind) (hb : p.base = q.base) : p.number = q.number := by
  obtain ⟨k, n⟩ := p
  obtain ⟨k', m⟩ := q
  obtain rfl : k = k' := hk
  cases k <;> simp only [Page.base, croftBase_eq, hamletBase_eq] at hb <;> simp only [Page.number] <;> omega

/-- Two registers lie apart: at different places of their pages, or on different pages. -/
def apart (p : Page) (o : Nat) (q : Page) (o' : Nat) : Prop :=
  o < 0x1000 ∧ o' < 0x1000 ∧ (o ≠ o' ∨ ((p.kind ≠ q.kind ∨ p.number ≠ q.number) ∧ p.placed ∧ q.placed))

@[simp] theorem apart_iff (p : Page) (o : Nat) (q : Page) (o' : Nat) : apart p o q o' ↔
    o < 0x1000 ∧ o' < 0x1000 ∧ (o ≠ o' ∨ ((p.kind ≠ q.kind ∨ p.number ≠ q.number) ∧ p.placed ∧ q.placed)) := (Iff.rfl)

theorem apart_ne {p q : Page} {o o' : Nat} (h : apart p o q o') : p.base + o ≠ q.base + o' := by
  obtain ⟨ho, ho', h⟩ := h
  have hp := base_mod p
  have hq := base_mod q
  intro e
  obtain h | ⟨h, hpp, hqp⟩ := h
  · omega
  · have hk : p.kind = q.kind := (kindAt_base hpp ho).symm.trans ((congrArg kindAt e).trans (kindAt_base hqp ho'))
    exact h.elim (fun h => h hk) fun h => h (number_of_base hk (by omega))

/-! ### The kinds of the pages -/

@[simp] theorem pgPlan_kind : pgPlan.kind = .plan := (rfl)
@[simp] theorem pgDevctl_kind : pgDevctl.kind = .devctl := (rfl)
@[simp] theorem pgHost_kind : pgHost.kind = .host := (rfl)
@[simp] theorem pgCrier_kind : pgCrier.kind = .crier := (rfl)
@[simp] theorem pgOrarn_kind : pgOrarn.kind = .orarn := (rfl)
@[simp] theorem pgPower_kind : pgPower.kind = .power := (rfl)
@[simp] theorem pgGauge_kind : pgGauge.kind = .gauge := (rfl)
@[simp] theorem pgNum_kind : pgNum.kind = .numstep := (rfl)
@[simp] theorem pgFabric_kind : pgFabric.kind = .fabric := (rfl)
@[simp] theorem pgPort_kind : pgPort.kind = .port := (rfl)
@[simp] theorem pgBell_kind : pgBell.kind = .bell := (rfl)
@[simp] theorem pgWindow_kind : pgWindow.kind = .window := (rfl)
@[simp] theorem pgWatch_kind : pgWatch.kind = .watch := (rfl)
@[simp] theorem pgBucket_kind : pgBucket.kind = .bucket := (rfl)
@[simp] theorem pgFeed_kind : pgFeed.kind = .feed := (rfl)
@[simp] theorem pgDefect_kind : pgDefect.kind = .defect := (rfl)
@[simp] theorem pgLedger_kind (n : Nat) : (pgLedger n).kind = .ledger := (rfl)
@[simp] theorem pgLink_kind (n : Nat) : (pgLink n).kind = .link := (rfl)
@[simp] theorem pgHamlet_kind (n : Nat) : (pgHamlet n).kind = .hamlet := (rfl)
@[simp] theorem pgGran_kind (n : Nat) : (pgGran n).kind = .granary := (rfl)
@[simp] theorem pgCroft_kind (n : Nat) : (pgCroft n).kind = .croft := (rfl)
@[simp] theorem pgReeve_kind (n : Nat) : (pgReeve n).kind = .reeve := (rfl)
@[simp] theorem pgMill_kind (n : Nat) : (pgMill n).kind = .mill := (rfl)
@[simp] theorem pgSluice_kind (n : Nat) : (pgSluice n).kind = .sluice := (rfl)
@[simp] theorem pgPlumb_kind (n : Nat) : (pgPlumb n).kind = .plumb := (rfl)
@[simp] theorem pgTally_kind (n : Nat) : (pgTally n).kind = .tally := (rfl)
@[simp] theorem pgOwn_kind (n : Nat) : (pgOwn n).kind = .own := (rfl)
@[simp] theorem pgCist_kind (n : Nat) : (pgCist n).kind = .cistern := (rfl)
@[simp] theorem pgPump_kind (n : Nat) : (pgPump n).kind = .pump := (rfl)
@[simp] theorem pgWell_kind (n : Nat) : (pgWell n).kind = .well := (rfl)
@[simp] theorem pgQueue_kind (n : Nat) : (pgQueue n).kind = .qgroup := (rfl)

/-! ### Their numbers -/

@[simp] theorem pgPlan_number : pgPlan.number = 0 := (rfl)
@[simp] theorem pgDevctl_number : pgDevctl.number = 0 := (rfl)
@[simp] theorem pgHost_number : pgHost.number = 0 := (rfl)
@[simp] theorem pgCrier_number : pgCrier.number = 0 := (rfl)
@[simp] theorem pgOrarn_number : pgOrarn.number = 0 := (rfl)
@[simp] theorem pgPower_number : pgPower.number = 0 := (rfl)
@[simp] theorem pgGauge_number : pgGauge.number = 0 := (rfl)
@[simp] theorem pgNum_number : pgNum.number = 0 := (rfl)
@[simp] theorem pgFabric_number : pgFabric.number = 0 := (rfl)
@[simp] theorem pgPort_number : pgPort.number = 0 := (rfl)
@[simp] theorem pgBell_number : pgBell.number = 0 := (rfl)
@[simp] theorem pgWindow_number : pgWindow.number = 0 := (rfl)
@[simp] theorem pgWatch_number : pgWatch.number = 0 := (rfl)
@[simp] theorem pgBucket_number : pgBucket.number = 0 := (rfl)
@[simp] theorem pgFeed_number : pgFeed.number = 0 := (rfl)
@[simp] theorem pgDefect_number : pgDefect.number = 0 := (rfl)
@[simp] theorem pgLedger_number (n : Nat) : (pgLedger n).number = n := (rfl)
@[simp] theorem pgLink_number (n : Nat) : (pgLink n).number = n := (rfl)
@[simp] theorem pgHamlet_number (n : Nat) : (pgHamlet n).number = n := (rfl)
@[simp] theorem pgGran_number (n : Nat) : (pgGran n).number = n := (rfl)
@[simp] theorem pgCroft_number (n : Nat) : (pgCroft n).number = n := (rfl)
@[simp] theorem pgReeve_number (n : Nat) : (pgReeve n).number = n := (rfl)
@[simp] theorem pgMill_number (n : Nat) : (pgMill n).number = n := (rfl)
@[simp] theorem pgSluice_number (n : Nat) : (pgSluice n).number = n := (rfl)
@[simp] theorem pgPlumb_number (n : Nat) : (pgPlumb n).number = n := (rfl)
@[simp] theorem pgTally_number (n : Nat) : (pgTally n).number = n := (rfl)
@[simp] theorem pgOwn_number (n : Nat) : (pgOwn n).number = n := (rfl)
@[simp] theorem pgCist_number (n : Nat) : (pgCist n).number = n := (rfl)
@[simp] theorem pgPump_number (n : Nat) : (pgPump n).number = n := (rfl)
@[simp] theorem pgWell_number (n : Nat) : (pgWell n).number = n := (rfl)
@[simp] theorem pgQueue_number (n : Nat) : (pgQueue n).number = n / 8 := (rfl)

/-- Every page but those of Ledger and of the links is placed. -/
@[simp] theorem Page.placed_of_kind {p : Page} (h : p.kind ≠ .ledger) (h' : p.kind ≠ .link) : p.placed :=
  ⟨fun e => absurd e h, fun e => absurd e h'⟩

@[simp] theorem pgLedger_placed (g : Nat) : (pgLedger g).placed ↔ g < 2 := by simp [Page.placed, pgLedger]
@[simp] theorem pgLink_placed (q : Nat) : (pgLink q).placed ↔ q < 16 := by simp [Page.placed, pgLink]

/-! ### One register write -/

/-- The state with one register written. -/
def State.put (s : State) (p : Page) (o : Nat) (v : Word) : State := (Act.reg (p.base + o) v).apply s

@[simp] theorem setReg_run_put (p : Page) (o : Nat) (v : Word) (s : State) : (setReg p o v).run s = s.put p o v := (rfl)
@[simp] theorem setFld_run_put (p : Page) (f : Fld) (v : Nat) (s : State) :
    (setFld p f v).run s = s.put p f.off (f.insert (s.reg p f.off) v) := (rfl)
@[simp] theorem setBit_run_put (p : Page) (f : Fld) (b : Bool) (s : State) :
    (setBit p f b).run s = s.put p f.off (f.insert (s.reg p f.off) (if b then 1 else 0)) := (rfl)
@[simp] theorem bumpBy_run_put (p : Page) (f : Fld) (n : Nat) (s : State) :
    (bumpBy p f n).run s = s.put p f.off (satAdd (s.reg p f.off) n) := (rfl)
@[simp] theorem bump_run_put (p : Page) (f : Fld) (s : State) : (bump p f).run s = s.put p f.off (satAdd (s.reg p f.off) 1) := (rfl)

section
variable (s : State) (p : Page) (o : Nat) (v : Word)

@[simp] theorem State.put_croft (k : Nat) : (s.put p o v).croft k = s.croft k := (rfl)
@[simp] theorem State.put_reeve (k : Nat) : (s.put p o v).reeve k = s.reeve k := (rfl)
@[simp] theorem State.put_well (k : Nat) : (s.put p o v).well k = s.well k := (rfl)
@[simp] theorem State.put_pumpRun (k : Nat) : (s.put p o v).pumpRun k = s.pumpRun k := (rfl)
@[simp] theorem State.put_hamlet (k : Nat) : (s.put p o v).hamlet k = s.hamlet k := (rfl)
@[simp] theorem State.put_queue (k : Nat) : (s.put p o v).queue k = s.queue k := (rfl)
@[simp] theorem State.put_link (k : Nat) : (s.put p o v).link k = s.link k := (rfl)
@[simp] theorem State.put_byte (k : Nat) : (s.put p o v).byte k = s.byte k := (rfl)
@[simp] theorem State.put_dev : (s.put p o v).dev = s.dev := (rfl)
@[simp] theorem State.put_out : (s.put p o v).out = s.out := (rfl)
@[simp] theorem State.put_seq : (s.put p o v).seq = s.seq := (rfl)
@[simp] theorem State.put_mem : (s.put p o v).mem = s.mem := (rfl)
@[simp] theorem State.put_now : (s.put p o v).now = s.now := (rfl)
@[simp] theorem State.put_pending : (s.put p o v).pending = s.pending := (rfl)
@[simp] theorem State.put_underReset (k : Page) : (s.put p o v).underReset k = s.underReset k := (rfl)
@[simp] theorem State.put_bellNow : (s.put p o v).bellNow = s.bellNow := (rfl)

end

/-- The two offsets are one. -/
@[simp] theorem State.reg_put_same {o o' : Nat} (h : o = o') (s : State) (p : Page) (v : Word) : (s.put p o v).reg p o' = v := by
  rw [State.put, State.reg_apply_reg, if_pos (by rw [h])]

@[simp] theorem State.reg_put_apart {p q : Page} {o o' : Nat} (h : apart p o q o') (s : State) (v : Word) :
    (s.put p o v).reg q o' = s.reg q o' := by
  rw [State.put, State.reg_apply_reg, if_neg (Ne.symm (apart_ne h))]

@[simp] theorem State.fld_put_same {o : Nat} {f : Fld} (h : o = f.off) (s : State) (p : Page) (v : Word) :
    (s.put p o v).fld p f = f.of v := by
  rw [State.fld_eq, State.reg_put_same h]

@[simp] theorem State.fld_put_apart {p q : Page} {o : Nat} {f : Fld} (h : apart p o q f.off) (s : State) (v : Word) :
    (s.put p o v).fld q f = s.fld q f := by
  rw [State.fld_eq, State.reg_put_apart h, State.fld_eq]

@[simp] theorem State.bit_put_same {o : Nat} {f : Fld} (h : o = f.off) (s : State) (p : Page) (v : Word) :
    (s.put p o v).bit p f = (f.of v != 0) := by
  rw [State.bit, State.fld_put_same h]

@[simp] theorem State.bit_put_apart {p q : Page} {o : Nat} {f : Fld} (h : apart p o q f.off) (s : State) (v : Word) :
    (s.put p o v).bit q f = s.bit q f := by
  rw [State.bit, State.fld_put_apart h, State.bit]

@[simp] theorem State.enabled_put_apart {p q : Page} {o : Nat} (h : apart p o q R.CTL_ENABLE.off) (h' : apart p o q R.STATE_STATE.off)
    (s : State) (v : Word) : (s.put p o v).enabled q = s.enabled q := by
  simp only [State.enabled, State.bit_put_apart h, State.fld_put_apart h']

@[simp] theorem State.running_put_apart {p : Page} {o c : Nat} (h : apart p o (pgReeve c) R.reeve_STATUS_RUNNING.off)
    (s : State) (v : Word) : (s.put p o v).running c = s.running c := State.bit_put_apart h s v

@[simp] theorem State.pc_put_apart {p : Page} {o c : Nat} (h : apart p o (pgReeve c) R.reeve_PC_INDEX.off)
    (s : State) (v : Word) : (s.put p o v).pc c = s.pc c := State.fld_put_apart h s v

@[simp] theorem State.pc_put_same {c o : Nat} (h : o = R.reeve_PC_INDEX.off) (s : State) (v : Word) :
    (s.put (pgReeve c) o v).pc c = R.reeve_PC_INDEX.of v := State.fld_put_same h s _ v

/-! ### Fields of words -/

@[simp] theorem Fld.of_insert_fits {f : Fld} (h : f.lo + f.width ≤ 32) (w : Word) (v : Nat) : f.of (f.insert w v) = v % 2 ^ f.width :=
  Fld.of_insert_same f h w v

@[simp] theorem Fld.of_insert_aside {f g : Fld} (h : f.lo + f.width ≤ 32) (h' : f.lo + f.width ≤ g.lo ∨ g.lo + g.width ≤ f.lo)
    (w : Word) (v : Nat) : g.of (f.insert w v) = g.of w := Fld.of_insert_disjoint f g h h' w v

@[simp] theorem Fld.of_reg {o : Nat} {f : Fld} (h : o = f.off) (s : State) (p : Page) : f.of (s.reg p o) = s.fld p f := by
  rw [State.fld_eq, h]

@[simp] theorem State.fld_lt {f : Fld} {n : Nat} (h : 2 ^ f.width ≤ n) (s : State) (p : Page) : s.fld p f < n :=
  Nat.lt_of_lt_of_le (Nat.mod_lt _ (Nat.two_pow_pos _)) h

/-- The field that is the whole word. -/
@[simp] theorem Fld.of_whole {f : Fld} (h : f.lo = 0) (h' : f.width = 32) (v : Word) : f.of v = v.toNat := by
  rw [Fld.of, h, h', Nat.pow_zero, Nat.div_one, Nat.mod_eq_of_lt v.isLt]

/-- What holds of a state whatever the state is, holds. -/
theorem forall_const_iff {a : Prop} : (State → a) ↔ a := ⟨fun h => h State.reset, fun h _ => h⟩

/-! ### What a frame allows -/

/-- The register at offset `o` of page `p` is among some registers. -/
def onReg (A : Nat → Prop) (p : Page) (o : Nat) : Prop := A (p.base + o)

@[simp] theorem onReg_theRegs (p : Page) (fs : List Fld) (o : Nat) : onReg (theRegs p fs) p o ↔ fs.any (fun f => f.off == o) = true := by
  simp only [onReg, theRegs, List.any_eq_true, beq_iff_eq]
  exact exists_congr fun f => and_congr_right fun _ => by omega

@[simp] theorem onReg_someRegs_nil (p : Page) (o : Nat) : ¬ onReg (someRegs []) p o := by simp [onReg, someRegs]

@[simp] theorem onReg_someRegs_cons (q : Page) (fs : List Fld) (l : List (Page × List Fld)) (p : Page) (o : Nat) :
    onReg (someRegs ((q, fs) :: l)) p o ↔ onReg (theRegs q fs) p o ∨ onReg (someRegs l) p o := by simp [onReg, someRegs]

@[simp] theorem onReg_or (A B : Nat → Prop) (p : Page) (o : Nat) : onReg (fun a => A a ∨ B a) p o ↔ onReg A p o ∨ onReg B p o := Iff.rfl

@[simp] theorem onReg_covers (p : Page) (o : Nat) : onReg p.covers p o ↔ o < 0x1000 := by
  simp only [onReg, Page.covers]; omega

@[simp] theorem onReg_onPages_cons (q : Page) (ps : List Page) (p : Page) (o : Nat) :
    onReg (onPages (q :: ps)) p o ↔ onReg q.covers p o ∨ onReg (onPages ps) p o := by simp [onReg, onPages]

section
variable {T : Touch}

@[simp] theorem setReg_allows (p : Page) (o : Nat) (v : Word) : (setReg p o v).Only T.allows ↔ onReg T.regs p o := by
  simp [setReg, Touch.allows, onReg]
@[simp] theorem setFld_allows (p : Page) (f : Fld) (v : Nat) : (setFld p f v).Only T.allows ↔ onReg T.regs p f.off := by
  simp only [setFld, Prog.only_get, setReg_allows, forall_const_iff]
@[simp] theorem setBit_allows (p : Page) (f : Fld) (b : Bool) : (setBit p f b).Only T.allows ↔ onReg T.regs p f.off := setFld_allows ..
@[simp] theorem bumpBy_allows (p : Page) (f : Fld) (n : Nat) : (bumpBy p f n).Only T.allows ↔ onReg T.regs p f.off := by
  simp only [bumpBy, Prog.only_get, setReg_allows, forall_const_iff]
@[simp] theorem bump_allows (p : Page) (f : Fld) : (bump p f).Only T.allows ↔ onReg T.regs p f.off := bumpBy_allows ..
@[simp] theorem ignored_allows (p : Page) : (ignored p).Only T.allows ↔ onReg T.regs p R.IGNORED_CNT.off := bumpBy_allows ..
@[simp] theorem modCroft_allows (c : Nat) (f : Croft → Croft) : (modCroft c f).Only T.allows ↔ T.crofts c := by
  simp [modCroft, Touch.allows, forall_const_iff]
@[simp] theorem modReeve_allows (c : Nat) (f : Reeve → Reeve) : (modReeve c f).Only T.allows ↔ T.crofts c := modCroft_allows ..
@[simp] theorem modWell_allows (c : Nat) (f : Well → Well) : (modWell c f).Only T.allows ↔ T.wells c := by
  simp [modWell, Touch.allows, forall_const_iff]
@[simp] theorem modHamlet_allows (c : Nat) (f : Hamlet → Hamlet) : (modHamlet c f).Only T.allows ↔ T.hamlets c := by
  simp [modHamlet, Touch.allows, forall_const_iff]
@[simp] theorem modQueue_allows (c : Nat) (f : Queue → Queue) : (modQueue c f).Only T.allows ↔ T.queues c := by
  simp [modQueue, Touch.allows, forall_const_iff]
@[simp] theorem modLink_allows (c : Nat) (f : Link → Link) : (modLink c f).Only T.allows ↔ T.links c := by
  simp [modLink, Touch.allows, forall_const_iff]
@[simp] theorem modDev_allows (f : Device → Device) : (modDev f).Only T.allows ↔ T.dev := by
  simp [modDev, Touch.allows, forall_const_iff]
@[simp] theorem emit_allows (o : Out) : (emit o).Only T.allows ↔ T.out := by simp [emit, Touch.allows]
@[simp] theorem stepEnds_allows : stepEnds.Only T.allows ↔ T.dev := modDev_allows _
@[simp] theorem tellWatch_allows (i : Nat) : (tellWatch i).Only T.allows ↔ T.dev := modDev_allows _
@[simp] theorem absorbAt_allows (p : Page) (n : Nat) : (absorbAt p n).Only T.allows ↔ T.dev := modDev_allows _
@[simp] theorem setWait_allows (c : Nat) (w : Wait) : (setWait c w).Only T.allows ↔ T.crofts c := modReeve_allows ..
@[simp] theorem dropOrder_allows (c n : Nat) : (dropOrder c n).Only T.allows ↔ T.crofts c := modReeve_allows ..
@[simp] theorem setPC_allows (c j : Nat) : (setPC c j).Only T.allows ↔ onReg T.regs (pgReeve c) R.reeve_PC_INDEX.off := setFld_allows ..

@[simp] theorem raiseLine_allows (p : Page) : (raiseLine p).Only T.allows ↔ onReg T.regs p R.CRIER_LINE_RAISED.off := by
  refine ⟨fun h => ?_, fun h => raiseLine_only fun _ => h⟩
  have := h { State.reset with dev := {} }
  simpa [State.underReset] using this

/-- The registers of a page's fault record. -/
@[simp] theorem faultRecord_allows (p : Page) (cause addr : Nat) : (faultRecord p cause addr).Only T.allows ↔
    onReg T.regs p R.STATE_STATE.off ∧ onReg T.regs p R.FAULT_CAUSE.off ∧ onReg T.regs p R.FAULT_ADDR_LO.off ∧
    onReg T.regs p R.FAULT_ADDR_HI.off := by simp [faultRecord]

@[simp] theorem pageFault_allows (p : Page) (cause addr : Nat) : (pageFault p cause addr).Only T.allows ↔
    onReg T.regs p R.STATE_STATE.off ∧ onReg T.regs p R.FAULT_CAUSE.off ∧ onReg T.regs p R.FAULT_ADDR_LO.off ∧
    onReg T.regs p R.FAULT_ADDR_HI.off := by
  rw [← faultRecord_allows p cause addr]
  refine ⟨fun h => ?_, fun h s => ?_⟩
  · have hs := h (State.reset.put p R.STATE_STATE.off 0)
    have hstate : (State.reset.put p R.STATE_STATE.off 0).fld p R.STATE_STATE ≠ stFault := by
      rw [State.fld_put_same rfl]; decide
    simpa only [if_neg hstate] using hs
  · show Prog.Only _ (if _ then _ else _)
    split
    · trivial
    · exact h

theorem exists_running (c : Nat) : ∃ s : State, s.running c = true ∧ (s.reeve c).halting = none :=
  ⟨State.reset.put (pgReeve c) R.reeve_STATUS_RUNNING.off 1, by rw [State.running, State.bit_put_same rfl]; decide, rfl⟩

@[simp] theorem haltReq_allows (c reason : Nat) : (haltReq c reason).Only T.allows ↔
    onReg T.regs (pgReeve c) R.reeve_STATUS_RUNNING.off ∧ T.crofts c := by
  refine ⟨fun h => ?_, fun h => haltReq_only reason (fun _ => h.1) fun _ => h.2⟩
  obtain ⟨s, hrun, hnone⟩ := exists_running c
  have hs := h s
  simpa only [hrun, hnone, Bool.not_true, Bool.false_eq_true, if_false, Prog.only_all_cons, Prog.only_all_nil, and_true,
    setFld_allows, modReeve_allows] using hs

@[simp] theorem orderHalt_allows (c idx engine : Nat) : (orderHalt c idx engine).Only T.allows ↔
    onReg T.regs (pgReeve c) R.reeve_FAULT_IDX_INDEX.off ∧ onReg T.regs (pgReeve c) R.reeve_STATUS_RUNNING.off ∧ T.crofts c ∧ T.dev := by
  simp [orderHalt, and_assoc]

@[simp] theorem orderFault_allows (c idx engine : Nat) : (orderFault c idx engine).Only T.allows ↔
    onReg T.regs (pgReeve c) R.reeve_FAULT_IDX_INDEX.off ∧ onReg T.regs (pgReeve c) R.reeve_STATUS_RUNNING.off ∧ T.crofts c ∧ T.dev := by
  simp [orderFault, and_assoc]

end

end Sys2Proof.Machine
end

section
/-! O6: control orders at issue (R244 to R260). -/
namespace Sys2Proof.Machine

/-- The row of an order that stands runs the order's program. -/
theorem leaves_issue {s : State} {c i : Nat} {w : OrderWord} {o : Order} (h : s.stands c i w o)
    {f : State → Nat → OrderWord → Order → Option Prog} {p : Prog} (hf : f s i w o = some p) {Q : State → Prop} (hq : Q (p.run s)) :
    Leaves (Prog.next (issueRow c f) s) Q :=
  Leaves.of_next (by rwa [issueRow_stands h, hf])

theorem nextIdx_fits {s : State} {c i : Nat} {w : OrderWord} {o : Order} (h : s.stands c i w o) : nextIdx i < 2 ^ 24 := by
  have := nextIdx_lt (stands_pc h).2
  omega

/-- An order that stands is what its word decodes to. -/
theorem stands_decoded {s : State} {c i : Nat} {w : OrderWord} {o : Order} (h : s.stands c i w o) : decodeOrder w = .ok o := by
  have hready := h.1
  have hheld (hh : State.ready.held s c = .order i w o) : decodeOrder w = .ok o := by
    simp only [State.ready.held] at hh
    split at hh
    · contradiction
    · split at hh
      · contradiction
      · rename_i hd
        split at hh
        · contradiction
        · cases hh
          exact hd
  simp only [State.ready] at hready
  split at hready
  · contradiction
  · split at hready
    · contradiction
    · split at hready
      · split at hready
        · contradiction
        · exact hheld hready
      · exact hheld hready

theorem bitsOf_lt (v lo n : Nat) : bitsOf v lo n < 2 ^ n := Nat.mod_lt _ (Nat.two_pow_pos _)

theorem decodeOrder_loop_target {w : OrderWord} {l n target : Nat} (h : decodeOrder w = .ok (.loop l n target)) : target < 2 ^ 24 := by
  simp only [decodeOrder] at h
  split at h <;> (repeat' split at h) <;> (try contradiction)
  all_goals simp only [Except.ok.injEq, Order.loop.injEq, reduceCtorEq] at h
  obtain ⟨-, -, rfl⟩ := h
  exact bitsOf_lt _ _ _

/-- Where a change of the reeve comes before the issue of an order that completes at issue. -/
theorem modReeve_issueDone_run {j : Nat} (hj : j < 2 ^ 24) (c : Nat) (f : Reeve → Reeve) (s : State) :
    let t := (Prog.all [modReeve c f, issueDone c j]).run s
    GoesOn s t c j { s.croft c with reeve := f (s.reeve c) } ∧ Keeps (issueTouch c []) s t := by
  obtain ⟨⟨hcount, hpc, hcroft⟩, hkeep⟩ := issueDone_run hj c ((modReeve c f).run s)
  rw [croft_modReeve] at hcroft
  have hfirst : Keeps (issueTouch c []) s ((modReeve c f).run s) := Prog.keeps ((modReeve_allows ..).2 rfl) s
  simp only [Prog.run_all_cons, Prog.run_all_nil]
  exact ⟨⟨hcount, hpc, hcroft⟩, hfirst.trans hkeep⟩

theorem loopStep_jumps {ls : List LoopReg} {l count n : Nat}
    (h : ls[l]? = some ⟨n + 1, true⟩ ∨ ((∃ k, ls[l]? = some ⟨k, false⟩) ∧ count = n + 2)) :
    loopStep ls l count = (ls.set l ⟨n, true⟩, true) := by
  rcases h with h | ⟨⟨k, h⟩, rfl⟩ <;> simp [loopStep, List.getD_eq_getElem?_getD, h]

theorem loopStep_ends {ls : List LoopReg} {l count : Nat}
    (h : ls[l]? = some ⟨0, true⟩ ∨ ((∃ k, ls[l]? = some ⟨k, false⟩) ∧ count = 1)) :
    loopStep ls l count = (ls.set l ⟨0, false⟩, false) := by
  rcases h with h | ⟨⟨k, h⟩, rfl⟩ <;> simp [loopStep, List.getD_eq_getElem?_getD, h]

section
variable {T : Touch}

@[simp] theorem issueWait_allows (c : Nat) (w : Wait) : (issueWait c w).Only T.allows ↔
    onReg T.regs (pgReeve c) R.reeve_ISSUE_CNT.off ∧ T.crofts c := by simp [issueWait, countIssue]

@[simp] theorem issueDone_allows (c j : Nat) : (issueDone c j).Only T.allows ↔
    onReg T.regs (pgReeve c) R.reeve_ISSUE_CNT.off ∧ T.crofts c ∧ onReg T.regs (pgReeve c) R.reeve_PC_INDEX.off := by
  simp [issueDone, countIssue]

end

/-- The wait of a TOKEN WAIT begins, counted or not. -/
theorem tokenWaitBegins_run (c : Nat) (b : Bool) (s : State) :
    let t := (Prog.all [issueWait c .token, Prog.when b (bump (pgReeve c) R.reeve_TOKEN_WAIT_CNT)]).run s
    BeginsWait s t c .token ∧
    t.reg (pgReeve c) R.reeve_TOKEN_WAIT_CNT.off =
      (if b then satAdd (s.reg (pgReeve c) R.reeve_TOKEN_WAIT_CNT.off) 1 else s.reg (pgReeve c) R.reeve_TOKEN_WAIT_CNT.off) ∧
    Keeps (issueTouch c [R.reeve_TOKEN_WAIT_CNT]) s t := by
  obtain ⟨⟨hcount, hpc, hcroft⟩, hkeep⟩ := issueWait_run c .token s
  have hreg := hkeep.reg_eq (o := R.reeve_TOKEN_WAIT_CNT.off) (not_theRegs_offset (by decide) (pgReeve c))
  refine ⟨?_, ?_, Prog.keeps (by simp +decide [Prog.only_when, issueTouch, onReg_theRegs]) s⟩
  all_goals simp only [Prog.run_all_cons, Prog.run_all_nil]
  · cases b
    · exact ⟨hcount, hpc, hcroft⟩
    · rw [Prog.run_when_true, bump_run_put]
      exact ⟨(State.reg_put_apart (by simp) _ _).trans hcount, (State.pc_put_apart (by simp) _ _).trans hpc, hcroft⟩
  · cases b
    · exact hreg
    · rw [Prog.run_when_true, bump_run_put, State.reg_put_same rfl, hreg]
      rfl

/-- Settles O6: each row runs the program of its order. -/
theorem ordersIssue : Obligations.OrdersIssue := by
  unfold Obligations.OrdersIssue
  refine ⟨?nop, ?loop, ?signal, ?wait, ?waits⟩
  case nop =>
    intro s c i w h
    exact leaves_issue h rfl (issueDone_run (nextIdx_fits h) c.val s)
  case loop =>
    intro s c i w l count target h hl
    refine leaves_issue h rfl ?_
    have ht : target < 2 ^ 24 := decodeOrder_loop_target (stands_decoded h)
    obtain ⟨hgo, hkeep⟩ := modReeve_issueDone_run
      (j := if (loopStep (s.reeve c.val).loops l count).2 then target else nextIdx i)
      (by split; exacts [ht, nextIdx_fits h]) c.val (fun r => { r with loops := (loopStep (s.reeve c.val).loops l count).1 }) s
    refine ⟨fun n hn => ?_, fun hn => ?_, hkeep⟩
    · simpa only [loopStep_jumps hn, if_true] using hgo
    · simpa only [loopStep_ends hn, Bool.false_eq_true, if_false] using hgo
  case signal =>
    intro s c i w tok n dst mask h
    by_cases hp : (s.reeve c.val).pend.length < 16
    · refine leaves_issue h (if_neg (by omega)) ?_
      rw [if_pos hp]
      exact modReeve_issueDone_run (nextIdx_fits h) c.val _ s
    · refine leaves_issue h (if_pos (by omega)) ?_
      rw [if_neg hp]
      exact ⟨⟨rfl, croft_setWait c.val .queueFull s, rfl⟩, Prog.keeps ((setWait_allows ..).2 rfl) s⟩
  case wait =>
    intro s c i w tok n h
    by_cases hw : (s.reeve c.val).wide = true ∧ s.isPhaseToken c.val tok = false
    · refine leaves_issue h (if_pos (by simp [hw])) ?_
      obtain ⟨hgo, hkeep⟩ := issueDone_run (nextIdx_fits h) c.val s
      rw [if_pos hw, if_neg (by simp [hw])]
      exact ⟨hgo, hkeep.reg_eq (not_theRegs_offset (by decide) _), Prog.keeps (by simp +decide [issueTouch, onReg_theRegs]) s⟩
    · refine leaves_issue h (if_neg (by simpa using hw)) ?_
      rw [if_neg hw]
      simpa using tokenWaitBegins_run c.val (!(s.reeve c.val).wide && decide ((s.reeve c.val).token tok < n)) s
  case waits =>
    intro s c i w r o wt h hr
    have hwaits := issueWait_run c.val wt s
    rcases hr with ⟨_, rfl, rfl, rfl⟩ | ⟨_, _, rfl, rfl, rfl⟩ | ⟨_, rfl, rfl, rfl⟩ | ⟨_, rfl, rfl, rfl⟩ | ⟨_, _, rfl, rfl, rfl⟩ |
      ⟨_, rfl, rfl, rfl⟩
    · exact leaves_issue h rfl hwaits
    · exact leaves_issue h rfl hwaits
    · exact leaves_issue h rfl hwaits
    · exact leaves_issue h rfl hwaits
    · exact leaves_issue h rfl hwaits
    · exact leaves_issue h rfl hwaits

end Sys2Proof.Machine
end

section
/-! O8: engine orders at issue (R245, R246, R253, R266). -/
namespace Sys2Proof.Machine

theorem exec_millRow (c : CroftId) (st : Stage) (s : State) :
    ∀ x ∈ millRows c st, exec x.1 s = Prog.next (millRow c.val x.2 st) s := by
  simp only [millRows, List.forall_mem_cons, List.not_mem_nil, false_implies, implies_true, and_true]
  refine ⟨?_, ?_, ?_, ?_, ?_, ?_, ?_, ?_, ?_, ?_, ?_, ?_, ?_, ?_, ?_, ?_, ?_, ?_, ?_, ?_, ?_, ?_, ?_, ?_, ?_, ?_⟩ <;> rfl

/-- The row of an engine order that stands hands it to its engine. -/
theorem exec_engineRow {s : State} {c : CroftId} {i : Nat} {w : OrderWord} {o : Order} {r : Instr} {unit engine cap : Nat} {after : Wait}
    (h : s.stands c.val i w o) (hr : EngineRow c o r unit engine cap after) :
    exec r s = .next ((issueEngine c.val i w unit engine cap after).run s) := by
  have issue {f : State → Nat → OrderWord → Order → Option Prog} {p : Prog} (hf : f s i w o = some p) :
      Prog.next (issueRow c.val f) s = .next (p.run s) := by rw [Prog.next_eq, issueRow_stands h, hf, Option.getD_some]
  cases hr with
  | load => exact issue rfl
  | draw => exact issue rfl
  | plumbWindow => exact issue rfl
  | plumbSound => exact issue rfl
  | pump => exact issue rfl
  | smaxBwd => exact issue rfl
  | normBwdRms => exact issue rfl
  | normBwdLayer => exact issue rfl
  | tallyCompare => exact issue rfl
  | mill op a r hm =>
    rw [exec_millRow c .issue s _ hm]
    exact issue (if_pos (.inl rfl))

/-- The reeve with an order of a unit added to its incomplete ones. -/
def Reeve.issued (r : Reeve) (i : Nat) (w : OrderWord) (unit engine : Nat) (after : Wait) : Reeve :=
  { r with orders := r.orders ++ [⟨r.serial, i, w, unit, engine, false, r.wide⟩], serial := r.serial + 1, wait := after }

theorem issueEngine_place {s : State} {c i : Nat} (hi : nextIdx i < 2 ^ 24) {w : OrderWord} {unit engine cap : Nat} {after : Wait}
    (h : (s.reeve c).queued unit < cap) :
    let t := (issueEngine c i w unit engine cap after).run s
    CountsIssue s t c ∧ t.croft c = { s.croft c with reeve := (s.reeve c).issued i w unit engine after } ∧
    t.pc c = (if after = .none then nextIdx i else s.pc c) ∧ Keeps (issueTouch c []) s t := by
  have hrun : (issueEngine c i w unit engine cap after).run s = (Prog.all [countIssue c,
      modReeve c (fun r => r.issued i w unit engine after), Prog.when (after == .none) (setPC c (nextIdx i))]).run s := by
    rw [issueEngine, Prog.run_get, if_neg (by omega)]
    rfl
  have hmod : nextIdx i % 16777216 = nextIdx i := Nat.mod_eq_of_lt hi
  simp only [hrun]
  refine ⟨?_, ?_, ?_, Prog.keeps (by simp +decide [countIssue, Prog.only_when, issueTouch]) s⟩
  all_goals by_cases ha : after = .none
  all_goals simp -implicitDefEqProofs [ha, hmod, countIssue, modReeve, modCroft, setPC, Prog.run_when, CountsIssue, State.reeve_eq]

theorem issueEngine_full {s : State} {c i : Nat} {w : OrderWord} {unit engine cap : Nat} {after : Wait}
    (h : cap ≤ (s.reeve c).queued unit) :
    let t := (issueEngine c i w unit engine cap after).run s
    t.pc c = s.pc c ∧ t.croft c = { s.croft c with reeve := { s.reeve c with wait := .queueFull } } ∧
    t.reg (pgReeve c) R.reeve_QFULL_CNT.off = (if (s.reeve c).wait = .queueFull then s.reg (pgReeve c) R.reeve_QFULL_CNT.off
      else satAdd (s.reg (pgReeve c) R.reeve_QFULL_CNT.off) 1) ∧
    Keeps { regs := theRegs (pgReeve c) [R.reeve_QFULL_CNT], crofts := (· = c) } s t := by
  have hrun : (issueEngine c i w unit engine cap after).run s =
      (Prog.when ((s.reeve c).wait != .queueFull) (.all [bump (pgReeve c) R.reeve_QFULL_CNT, setWait c .queueFull])).run s := by
    rw [issueEngine, Prog.run_get, if_pos h]
  simp only [hrun]
  refine ⟨?_, ?_, ?_, Prog.keeps (by simp +decide [Prog.only_when]) s⟩
  all_goals by_cases hw : (s.reeve c).wait = .queueFull
  all_goals simp -implicitDefEqProofs [Prog.run_when, hw, setWait, modReeve, modCroft, ← State.reeve_eq]
  rw [← hw]
  rfl

/-- Settles O8: by whether the queue of the order's unit has a place. -/
theorem engineOrdersAreQueued : Obligations.EngineOrdersAreQueued := by
  unfold Obligations.EngineOrdersAreQueued
  refine ⟨?place, ?full⟩
  case place =>
    intro s c i w o r unit engine cap after h hr hq
    exact ⟨_, exec_engineRow h hr, issueEngine_place (nextIdx_fits h) hq⟩
  case full =>
    intro s c i w o r unit engine cap after h hr hq
    exact ⟨_, exec_engineRow h hr, issueEngine_full hq⟩

end Sys2Proof.Machine
end

section
/-! O9: TALLY FLUSH, TALLY CLEAR and SLUICE at issue (R227, R324, R327). -/
namespace Sys2Proof.Machine

/-- Settles O9: on a span's repeat the Tally orders only complete; otherwise their effect comes first. -/
theorem tallyAndSluiceOrdersComplete : Obligations.TallyAndSluiceOrdersComplete := by
  unfold Obligations.TallyAndSluiceOrdersComplete
  refine ⟨⟨?flush, ?clear⟩, ?sluice⟩
  case flush =>
    intro s c i w slot entry h
    refine leaves_issue h rfl ⟨?_, Prog.keeps (by simp +decide [Prog.only_when, tallySend, modEntry]) s⟩
    have hi : nextIdx i % 16777216 = nextIdx i := Nat.mod_eq_of_lt (nextIdx_fits h)
    cases hw : (s.reeve c.val).wide <;>
      simp -implicitDefEqProofs [tallySend, modCroft, modEntry, modDev, issueDone, countIssue, setWait, setPC, modReeve, GoesOn, CountsIssue, hi]
  case clear =>
    intro s c i w first last h
    refine leaves_issue h rfl ⟨?_, Prog.keeps (by simp +decide [Prog.only_when, issueTouch]) s⟩
    have hi : nextIdx i % 16777216 = nextIdx i := Nat.mod_eq_of_lt (nextIdx_fits h)
    cases hw : (s.reeve c.val).wide <;>
      simp -implicitDefEqProofs [modCroft, issueDone, countIssue, setWait, setPC, modReeve, GoesOn, CountsIssue, hi]
  case sluice =>
    intro s c i w j n h he ho hr
    refine leaves_issue h rfl ?_
    have hi : nextIdx i % 16777216 = nextIdx i := Nat.mod_eq_of_lt (nextIdx_fits h)
    simp only [he, Bool.not_true, Bool.false_eq_true, if_false, ho, ne_eq, not_true_eq_false, hr, if_true]
    refine ⟨?_, ?_, Prog.keeps (by simp +decide [issueTouch, ring]) s⟩ <;>
      simp -implicitDefEqProofs [ring, modQueue, issueDone, countIssue, setWait, setPC, modReeve, modCroft, GoesOn, CountsIssue, hi]

end Sys2Proof.Machine
end

section
/-! O10: orders that cannot be issued (R266, R271). -/
namespace Sys2Proof.Machine

/-- Every issue row is `issueRow` with some program for its order. -/
theorem exec_issueRow {c : CroftId} {r : Instr} (h : r ∈ issueRows c) :
    ∃ f, ∀ s, exec r s = Prog.next (issueRow c.val f) s := by
  simp only [issueRows, List.mem_append, List.mem_map] at h
  rcases h with h | ⟨x, hx, rfl⟩
  · simp only [List.mem_cons, List.not_mem_nil, or_false] at h
    rcases h with rfl | rfl | rfl | rfl | rfl | rfl | rfl | rfl | rfl | rfl | rfl | rfl | rfl | rfl | rfl | rfl | rfl | rfl | rfl | rfl |
      rfl | rfl | rfl | rfl
    all_goals exact ⟨_, fun _ => rfl⟩
  · exact ⟨_, fun s => exec_millRow c .issue s x hx⟩

/-- A reeve that stops at an order issues: it runs, is not under reset and has no halt under way. -/
theorem ready_stop_issuing {s : State} {c cause addr : Nat} (h : s.ready c = .stop cause addr) : s.issuing c = true := by
  by_contra hn
  simp only [Bool.not_eq_true] at hn
  simp only [State.ready, hn, Bool.not_false, if_true, reduceCtorEq] at h

theorem issuing_some {s : State} {c : Nat} (h : s.issuing c = true) :
    s.running c = true ∧ s.underReset (pgReeve c) = false ∧ (s.reeve c).halting = none := by
  simp only [State.issuing, Bool.and_eq_true, Bool.not_eq_true', Option.isNone_iff_eq_none] at h
  tauto

theorem pageFault_run_new {p : Page} {s : State} (h : s.fld p R.STATE_STATE ≠ stFault) (cause addr : Nat) :
    (pageFault p cause addr).run s = (faultRecord p cause addr).run s := by rw [pageFault, Prog.run_get, if_neg h]

theorem raiseLine_run_up {p : Page} {s : State} (h : s.underReset p = false) :
    (raiseLine p).run s = (setFld p R.CRIER_LINE_RAISED 1).run s := by simp only [raiseLine, Prog.run_get, h, Bool.false_eq_true, if_false]

/-- What a halt makes of a wait: only those for a verdict and for a seed go on (R263). -/
def Wait.afterHalt : Wait → Wait
  | .verdict => .verdict
  | .seed => .seed
  | _ => .none

/-- The reeve with a halt under way (R263). -/
def Reeve.haltsFor (r : Reeve) (reason : Nat) : Reeve :=
  { r with halting := some reason, reported := false, wait := r.wait.afterHalt }

/-- The first reason to halt that arises in a running croft. -/
theorem haltReq_run_first {s : State} {c : Nat} (hrun : s.running c = true) (hhalt : (s.reeve c).halting = none) (reason : Nat) :
    (haltReq c reason).run s = (Prog.all [setFld (pgReeve c) R.reeve_STATUS_HALT_REASON reason,
      modReeve c (fun r => r.haltsFor reason)]).run s := by
  simp only [haltReq, Prog.run_get, hrun, hhalt, Bool.not_true, Bool.false_eq_true, if_false]
  rfl

theorem orderOffset_eq (s : State) (c i : Nat) : s.orderOffset c i = s.fld (pgReeve c) R.reeve_STREAM_BASE_BASE * 0x1000 + i * 16 := rfl

theorem pc_mod (s : State) (c : Nat) : s.pc c % 16777216 = s.pc c := Nat.mod_eq_of_lt (Nat.mod_lt _ (by decide))

/-- Settles O10: the stop is one fault of the reeve's own, in a croft that runs. -/
theorem badOrderStopsTheReeve : Obligations.BadOrderStopsTheReeve := by
  unfold Obligations.BadOrderStopsTheReeve
  intro s c r cause addr hr h hcause hfault
  obtain ⟨f, hf⟩ := exec_issueRow hr
  obtain ⟨hrun, hup, hhalt⟩ := issuing_some (ready_stop_issuing h)
  rw [hf]
  refine Leaves.of_next ?_
  rw [issueRow_stop h]
  have hpc := pc_mod s c.val
  rw [State.reeve_eq] at hhalt
  norm_num only at hcause
  refine ⟨?_, ?_, ?_, ?_, ?_, ?_, ?_, ?_, ?_, ?_, Prog.keeps (by simp +decide [reeveFault]) s⟩
  all_goals
    simp -implicitDefEqProofs [reeveFault, pageFault_run_new hfault, faultRecord, raiseLine_run_up, hup, orderFault, orderHalt,
      haltReq_run_first, hrun, hhalt, stepEnds, tellWatch, modDev, modReeve, modCroft, Reeve.haltsFor, State.reeve_eq, hpc,
      stFault, hcause]

end Sys2Proof.Machine
end

section
/-! SUPPORT. Numbers in memory: what a store of a number leaves to be read. -/
namespace Sys2Proof.Machine

theorem State.bytes_congr {s t : State} {a n : Nat} (h : ∀ i < n, t.byte (a + i) = s.byte (a + i)) : t.bytes a n = s.bytes a n :=
  List.map_congr_left fun i hi => h i (List.mem_range.1 hi)

theorem State.le_congr {s t : State} {a n : Nat} (h : ∀ i < n, t.byte (a + i) = s.byte (a + i)) : t.le a n = s.le a n :=
  congrArg leNat (State.bytes_congr h)

/-- Bytes stored are read back. -/
theorem State.bytes_store (s : State) (a : Nat) (bs : List Byte) : ((Act.bytes a bs).apply s).bytes a bs.length = bs := by
  refine List.ext_getElem (by simp [State.bytes]) fun i _ hi => ?_
  rw [show (((Act.bytes a bs).apply s).bytes a bs.length)[i] = ((Act.bytes a bs).apply s).byte (a + i) by simp [State.bytes], 
      Act.apply_bytes_byte, if_pos (by omega), Nat.add_sub_cancel_left,
    List.getD_eq_getElem _ _ hi]

/-- A number stored is read back, less what its bytes cannot hold. -/
theorem State.le_store (s : State) (a n v : Nat) : ((Act.bytes a (toLe n v)).apply s).le a n = v % 256 ^ n := by
  have h := s.bytes_store a (toLe n v)
  rw [length_toLe] at h
  rw [State.le, h, leNat_toLe]

theorem State.le_store_apart (s : State) {a b n : Nat} {bs : List Byte} (h : b + bs.length ≤ a ∨ a + n ≤ b) :
    ((Act.bytes b bs).apply s).le a n = s.le a n :=
  State.le_congr fun i hi => by rw [Act.apply_bytes_byte, if_neg (by omega)]

@[simp] theorem State.intact_put (s : State) (p : Page) (o : Nat) (v : Word) : (s.put p o v).intact = s.intact := rfl
@[simp] theorem Act.apply_bytes_intact (s : State) (a : Nat) (bs : List Byte) : ((Act.bytes a bs).apply s).intact = s.intact := rfl
@[simp] theorem Act.apply_croft_intact (s : State) (c : Nat) (r : Croft) : ((Act.croft c r).apply s).intact = s.intact := rfl
@[simp] theorem Act.apply_well_intact (s : State) (c : Nat) (r : Well) : ((Act.well c r).apply s).intact = s.intact := rfl

end Sys2Proof.Machine
end

section
/-! SUPPORT. Halts of one croft and of all (R217, R263, R264). -/
namespace Sys2Proof.Machine

/-- A reason to halt that arises in croft `k` takes effect: it runs and has no halt under way. -/
def State.haltsNow (s : State) (k : Nat) : Bool := s.running k && (s.reeve k).halting.isNone

theorem haltReq_run_cases (k x : Nat) (s : State) :
    (s.haltsNow k = true ∧ (haltReq k x).run s = (Prog.all [setFld (pgReeve k) R.reeve_STATUS_HALT_REASON x,
      modReeve k (fun r => r.haltsFor x)]).run s) ∨
    (s.haltsNow k = false ∧ (s.running k = true ∧ (haltReq k x).run s = (setFld (pgReeve k) R.reeve_STATUS_MORE 1).run s ∨
      s.running k = false ∧ (haltReq k x).run s = s)) := by
  cases hrun : s.running k
  · exact .inr ⟨by simp [State.haltsNow, hrun], .inr ⟨rfl, by simp [haltReq, hrun]⟩⟩
  · cases hhalt : (s.reeve k).halting with
    | none => exact .inl ⟨by simp [State.haltsNow, hrun, hhalt], haltReq_run_first hrun hhalt x⟩
    | some y => exact .inr ⟨by simp [State.haltsNow, hhalt], .inl ⟨rfl, by simp only [haltReq, Prog.run_get, hrun, hhalt, Bool.not_true,
        Bool.false_eq_true, if_false]⟩⟩

theorem haltReq_keeps (k x : Nat) (s : State) :
    Keeps { regs := theRegs (pgReeve k) [R.reeve_STATUS_RUNNING], crofts := (· = k) } s ((haltReq k x).run s) :=
  Prog.keeps (by simp) s

/-- A halt leaves RUNNING. -/
theorem haltReq_running (k x c : Nat) (s : State) : ((haltReq k x).run s).running c = s.running c := by
  by_cases hc : c = k
  · subst hc
    obtain ⟨-, h⟩ | ⟨-, ⟨-, h⟩ | ⟨-, h⟩⟩ := haltReq_run_cases c x s
    all_goals rw [h]
    all_goals simp -implicitDefEqProofs [State.running, State.bit, modReeve, modCroft]
  · refine (haltReq_keeps k x s).bit_eq ?_
    simp only [theRegs, List.mem_singleton, exists_eq_left, pgReeve_base, croftBase_eq]
    omega

theorem haltReq_croft (k x c : Nat) (s : State) : ((haltReq k x).run s).croft c =
    if c = k ∧ s.haltsNow k = true then { s.croft c with reeve := (s.reeve c).haltsFor x } else s.croft c := by
  by_cases hc : c = k
  · subst hc
    obtain ⟨hn, h⟩ | ⟨hn, ⟨-, h⟩ | ⟨-, h⟩⟩ := haltReq_run_cases c x s
    all_goals simp -implicitDefEqProofs [h, hn, modReeve, modCroft, State.reeve_eq]
  · rw [if_neg (fun h => hc h.1)]
    exact (haltReq_keeps k x s).crofts c hc

/-- A halt of several crofts halts each that runs and has no halt under way, once. -/
theorem haltEach_run (l : List Nat) (x c : Nat) (s : State) :
    let t := (Prog.each l (fun k => haltReq k x)).run s
    t.running c = s.running c ∧
    t.croft c = if c ∈ l ∧ s.haltsNow c = true then { s.croft c with reeve := (s.reeve c).haltsFor x } else s.croft c := by
  induction l generalizing s with
  | nil => simp
  | cons k l ih =>
    obtain ⟨hrun, hcroft⟩ := ih ((haltReq k x).run s)
    rw [Prog.run_each_cons]
    refine ⟨hrun.trans (haltReq_running ..), hcroft.trans ?_⟩
    have hreeve : ((haltReq k x).run s).reeve c = (((haltReq k x).run s).croft c).reeve := rfl
    by_cases hn : c = k ∧ s.haltsNow k = true
    · obtain ⟨rfl, hn⟩ := hn
      have hhalted : ((haltReq c x).run s).haltsNow c = false := by
        rw [State.haltsNow, hreeve, haltReq_croft, if_pos ⟨rfl, hn⟩]
        exact Bool.and_false _
      rw [if_neg (by simp [hhalted]), if_pos ⟨List.mem_cons_self .., hn⟩, haltReq_croft, if_pos ⟨rfl, hn⟩]
    · have hsame : ((haltReq k x).run s).croft c = s.croft c := by rw [haltReq_croft, if_neg hn]
      have hnow : ((haltReq k x).run s).haltsNow c = s.haltsNow c := by
        simp only [State.haltsNow, haltReq_running, State.reeve_eq, hsame]
      simp only [hnow, hsame, State.reeve_eq]
      refine if_congr ?_ rfl rfl
      rw [List.mem_cons]
      constructor
      · exact fun h => ⟨.inr h.1, h.2⟩
      · rintro ⟨rfl | h, hc⟩
        · exact absurd ⟨rfl, hc⟩ hn
        · exact ⟨h, hc⟩

end Sys2Proof.Machine
end

section
/-! O11: FENCE orders and spans (R213, R253, R254). -/
namespace Sys2Proof.Machine

/-- The wait of a FENCE that does not end a step is over. -/
def Reeve.fenceOver (r : Reeve) (mask : Nat) (layer : Bool) : Prop :=
  r.drained (if layer then 0x3F else mask) = true ∧ (layer = true ∨ mask / 64 % 2 = 1 → r.pend = [])

/-- What ends the wait of a FENCE. -/
def fenceEnds (s : State) (c i : Nat) (w : OrderWord) (layer close : Bool) : Prog :=
  if layer && close then closeSpan c i (orderLayer w)
  else if layer then .all [
    modReeve c (fun r => { r with span := some (i, orderLayer w), spanOvf := false, spanRecs := [], wait := .none }),
    setFld (pgReeve c) R.reeve_SPAN_OPEN_IDX i,
    setFld (pgOwn c) R.own_STATUS_SPAN_PHASE (s.phase c),
    setPC c (nextIdx i)]
  else waitEnds c (nextIdx i)

section
variable {s : State} {c : CroftId} {i mask : Nat} {w : OrderWord} {layer close : Bool}

theorem exec_fenceComplete (hw : (s.reeve c.val).wait = .fence) (h : s.waiting c.val = some (i, w, .fence mask layer close false)) :
    ((s.reeve c.val).fenceOver mask layer → exec (.fenceComplete c) s = .next ((fenceEnds s c.val i w layer close).run s)) ∧
    (¬ (s.reeve c.val).fenceOver mask layer → exec (.fenceComplete c) s = .next s) := by
  have hexec : exec (.fenceComplete c) s = .next ((if !((s.reeve c.val).drained (if layer then 0x3F else mask) &&
      (!(layer || mask / 64 % 2 == 1) || (s.reeve c.val).pend.isEmpty)) then Prog.done else fenceEnds s c.val i w layer close).run s) := by
    show execFenceComplete c s = _
    simp only [execFenceComplete, Prog.next_eq, Prog.run_get, hw, h, bne_self_eq_false, Bool.false_eq_true, if_false, Bool.or_false]
    rfl
  rw [hexec, Reeve.fenceOver]
  constructor
  · rintro ⟨hd, hp⟩
    rw [if_neg]
    cases layer <;> simp_all [Classical.or_iff_not_imp_left]
  · intro hn
    rw [if_pos]
    · rfl
    · cases layer <;> simp_all [Classical.or_iff_not_imp_left]

theorem waiting_pc {s : State} {c : Nat} {o : Order} (h : s.waiting c = some (i, w, o)) : s.pc c = i := by
  simp only [State.waiting] at h
  split at h
  · contradiction
  · split at h
    · contradiction
    · split at h
      · contradiction
      · cases h
        rfl

end

/-! ### The span's repeat -/

/-- The records' bytes: SCALE and CORRECT_CNT of each have risen, and every other byte is as it was. -/
def Raises (s t : State) (c : Nat) (recs : List Nat) : Prop :=
  (∀ o ∈ recs, t.sl c o 1 = min 0xFE (s.sl c o 1 + 4) ∧ t.sl c (o + 8) 4 = (s.sl c (o + 8) 4 + 1) % 2 ^ 32) ∧
  (∀ x, (∀ o ∈ recs, x ≠ sliceAddr c o ∧ ¬ inRange (sliceAddr c (o + 8)) 4 x) → t.byte x = s.byte x)

theorem raiseRecord_run {s : State} (h : s.intact = true) (src : Option Source) (c o : Nat) :
    (raiseRecord src c o).run s = (Act.bytes (sliceAddr c (o + 8)) (toLe 4 (s.sl c (o + 8) 4 + 1))).apply
      ((Act.bytes (sliceAddr c o) (toLe 1 (min 0xFE (s.sl c o 1 + 4)))).apply s) := by
  simp only [raiseRecord, Prog.run_get, Prog.run_all_cons, Prog.run_all_nil, storeLe_run h]
  exact storeLe_run (s := (Act.bytes _ _).apply s) h ..

theorem raiseRecord_raises {s : State} (h : s.intact = true) (src : Option Source) (c o : Nat) :
    Raises s ((raiseRecord src c o).run s) c [o] := by
  have hlen (n v : Nat) := length_toLe n v
  rw [raiseRecord_run h]
  refine ⟨fun o' ho => ?_, fun x hx => ?_⟩
  · obtain rfl := List.mem_singleton.1 ho
    constructor
    · rw [State.sl, State.le_store_apart _ (by simp only [hlen, sliceAddr]; omega), State.le_store]
      omega
    · exact State.le_store ..
  · obtain ⟨hscale, hcount⟩ := hx o (List.mem_singleton_self o)
    simp only [inRange] at hcount
    rw [Act.apply_bytes_byte, if_neg (by rw [hlen]; exact hcount), Act.apply_bytes_byte, if_neg (by rw [hlen]; omega)]

/-- A number of a record stays while records apart from it rise. -/
theorem Raises.sl_eq {s t : State} {c : Nat} {recs : List Nat} (h : Raises s t c recs) {o : Nat} (k n : Nat) (hkn : k + n ≤ 16)
    (ho : ∀ o' ∈ recs, o + 16 ≤ o' ∨ o' + 16 ≤ o) : t.sl c (o + k) n = s.sl c (o + k) n :=
  State.le_congr fun i hi => h.2 _ fun o' ho' => by
    have := ho o' ho'
    simp only [inRange, sliceAddr]
    omega

theorem raiseRecords_run (src : Option Source) (c : Nat) : ∀ (recs : List Nat) (s : State),
    recs = [] ∨ s.intact = true → recs.Pairwise (fun x y => x + 16 ≤ y ∨ y + 16 ≤ x) →
    ∃ m, (Prog.each recs (raiseRecord src c)).run s = { s with mem := m } ∧ Raises s { s with mem := m } c recs
  | [], s, _, _ => ⟨s.mem, rfl, by simp [Raises]⟩
  | o :: recs, s, h, hp => by
    have hi : s.intact = true := h.resolve_left (List.cons_ne_nil o recs)
    obtain ⟨hhead, htail⟩ := List.pairwise_cons.1 hp
    have hfirst := raiseRecord_raises hi src c o
    have hrun := raiseRecord_run hi src c o
    obtain ⟨m, hm, hraise⟩ := raiseRecords_run src c recs ((raiseRecord src c o).run s) (.inr (hrun ▸ hi)) htail
    refine ⟨m, by rw [Prog.run_each_cons, hm, hrun]; rfl, ?_⟩
    have heq : { (raiseRecord src c o).run s with mem := m } = { s with mem := m } := by rw [hrun]; rfl
    rw [heq] at hraise
    refine ⟨fun o' ho' => ?_, fun x hx => ?_⟩
    · rcases List.mem_cons.1 ho' with rfl | ho'
      · have hkept := fun k n hkn => hraise.sl_eq (o := o') k n hkn hhead
        obtain ⟨hscale, hcount⟩ := hfirst.1 o' (List.mem_singleton_self _)
        exact ⟨(hkept 0 1 (by omega)).trans hscale, (hkept 8 4 (by omega)).trans hcount⟩
      · have hkept := fun k n hkn => hfirst.sl_eq (o := o') k n hkn fun o'' h'' => by
          rw [List.mem_singleton.1 h'']
          exact (hhead o' ho').symm
        obtain ⟨hscale, hcount⟩ := hraise.1 o' ho'
        have hkept0 := hkept 0 1 (by omega)
        rw [Nat.add_zero] at hkept0
        rw [hscale, hcount, hkept0, hkept 8 4 (by omega)]
        exact ⟨rfl, rfl⟩
    · rw [hraise.2 x fun o' ho' => hx o' (List.mem_cons_of_mem _ ho')]
      exact hfirst.2 x fun o' ho' => by
        obtain rfl := List.mem_singleton.1 ho'
        exact hx _ (List.mem_cons_self ..)

/-! ### The fall-back -/

/-- What a fall-back may change after it is counted, with the halts or without: fields of the step numerics page, the reeves' STATUS and
records, the device's record and the links. -/
def fallBackTouch (halts : Prop) : Touch :=
  { regs := fun a => theRegs pgNum [R.numstep_STATUS_FALLBACKS, R.numstep_FALLBACK_LOG_LAYER, R.numstep_ABANDON_CNT, R.STATE_STATE,
      R.FAULT_CAUSE, R.FAULT_ADDR_LO, R.FAULT_ADDR_HI, R.CRIER_LINE_RAISED] a ∨ ∃ k, theRegs (pgReeve k) [R.reeve_STATUS_RUNNING] a
    crofts := fun _ => halts, dev := True, links := fun _ => True }

@[simp] theorem sendFlits_allows {T : Touch} (l key : Nat) (fs : List Flit) : (sendFlits l key fs).Only T.allows ↔ T.links l :=
  modLink_allows ..

theorem haltAll_allows (reason : Nat) : (haltAll reason).Only (fallBackTouch True).allows := by
  simp only [haltAll, Prog.only_each, haltReq_allows]
  exact fun k _ => ⟨.inr ⟨k, theRegs_mem (List.mem_singleton_self _) _⟩, trivial⟩

theorem Keeps.withHalts {s t : State} (h : Keeps (fallBackTouch False) s t) : Keeps (fallBackTouch True) s t :=
  Keeps.mono (T := fallBackTouch False) (U := fallBackTouch True)
    { regs := fun _ h => h, mem := fun _ h => h, crofts := fun _ _ => trivial, wells := fun _ h => h, pumps := fun _ h => h,
      hamlets := fun _ h => h, queues := fun _ h => h, links := fun _ h => h, dev := id, out := id, seq := id } h

/-- What follows the halts of an abandoned step, which keeps every croft. -/
def abandonRest : Prog := .all [
  setFld pgNum R.numstep_STATUS_ABANDONING 1, bump pgNum R.numstep_ABANDON_CNT, tellWatch 13, countHalted, raiseAlarm true]

/-- What follows the halts of a repeated step that falls back too often, which keeps every croft. -/
def repeatRest : Prog := .all [
  setFld pgNum R.numstep_STATUS_HALTED 1, setFld pgNum R.numstep_STATUS_ABANDONING 0, pageFault pgNum 1 0,
  raiseLine pgNum, raiseAlarm false]

theorem abandon_run (s : State) : abandon.run s = abandonRest.run ((haltAll 5).run s) := by
  simp only [abandon, abandonHere, abandonRest, Prog.run_all_cons, Prog.run_all_nil]

theorem repeatExceeded_run (s : State) : repeatExceeded.run s = repeatRest.run ((haltAll 5).run s) := by
  simp only [repeatExceeded, repeatRest, Prog.run_all_cons]

theorem abandonRest_keeps (s : State) : Keeps (fallBackTouch False) s (abandonRest.run s) :=
  Prog.keeps (by simp +decide [abandonRest, countHalted, Prog.only_when, raiseAlarm, flood, fallBackTouch]) s

theorem repeatRest_keeps (s : State) : Keeps (fallBackTouch False) s (repeatRest.run s) :=
  Prog.keeps (by simp +decide [repeatRest, raiseAlarm, flood, fallBackTouch]) s

/-- What a fall-back records of itself (R216). -/
def fallBackRecord (c layer kind : Nat) : Prog := .all [
  modDev (fun d => { d with fallLayers := if d.fallLayers.contains layer then d.fallLayers else d.fallLayers ++ [layer] }),
  .get (fun s => setFld pgNum R.numstep_STATUS_FALLBACKS s.dev.fallLayers.length),
  setFld pgNum R.numstep_FALLBACK_LOG_LAYER layer,
  setFld pgNum R.numstep_FALLBACK_LOG_KIND kind,
  setFld pgNum R.numstep_FALLBACK_LOG_CROFT c,
  setFld pgNum R.numstep_FALLBACK_LOG_VALID 1,
  tellWatch 13]

theorem fallBackRecord_keeps (c layer kind : Nat) (s : State) :
    Keeps (fallBackTouch False) s ((fallBackRecord c layer kind).run s) :=
  Prog.keeps (by simp +decide [fallBackRecord, fallBackTouch]) s

/-- What it leads to, by the limit of layers (R217, R219, R220). -/
def fallBackLimit : Prog := .get (fun s =>
  if s.bit pgNum R.numstep_STATUS_ABANDONING || s.bit pgNum R.numstep_STATUS_HALTED ||
    decide (s.dev.fallLayers.length ≤ s.fld pgNum R.numstep_CFG_FALLBACK_LIMIT) then .done
  else if s.bit pgNum R.numstep_STATUS_REPEATING then repeatExceeded else abandon)

theorem fallBack_run (c layer kind : Nat) (s : State) : (fallBack c layer kind).run s =
    fallBackLimit.run ((fallBackRecord c layer kind).run ((bump pgNum R.numstep_FALLBACK_CNT).run s)) := by
  simp only [fallBack, fallBackRecord, fallBackLimit, Prog.run_all_cons, Prog.run_all_nil]

/-- The limit's outcome leaves a croft as it was or halts it. -/
theorem fallBackLimit_run (k : Nat) (s : State) :
    let t := fallBackLimit.run s
    Keeps (fallBackTouch True) s t ∧ (t.reeve k = s.reeve k ∨ t.reeve k = (s.reeve k).haltsFor 5) := by
  have halts {rest : Prog} (hrest : ∀ u, Keeps (fallBackTouch False) u (rest.run u)) :
      let t := rest.run ((haltAll 5).run s)
      Keeps (fallBackTouch True) s t ∧ (t.reeve k = s.reeve k ∨ t.reeve k = (s.reeve k).haltsFor 5) := by
    refine ⟨(Prog.keeps (haltAll_allows 5) s).trans (hrest _).withHalts, ?_⟩
    obtain ⟨-, hcroft⟩ := haltEach_run allCrofts 5 k s
    simp only [State.reeve, (hrest _).crofts k id]
    simp only [haltAll, hcroft]
    split
    · exact .inr rfl
    · exact .inl rfl
  simp only [fallBackLimit, Prog.run_get, Prog.run_ite, abandon_run, repeatExceeded_run]
  split
  · exact ⟨Keeps.refl _ _, .inl rfl⟩
  · split
    · exact halts repeatRest_keeps
    · exact halts abandonRest_keeps

theorem not_fallBackTouch_num {halts : Prop} {o : Nat} (ho : o < 0x1000) (h : o ∉ [0x48, 0x50, 0x8C, 0x0C, 0x14, 0x18, 0x1C, 0x20]) :
    ¬ (fallBackTouch halts).regs (pgNum.base + o) := by
  rintro (hn | ⟨k, f, hf, e⟩)
  · exact not_theRegs_offset (by simpa using h) _ hn
  · refine apart_ne (p := pgNum) (q := pgReeve k) ?_ e
    rw [List.mem_singleton.1 hf]
    simp [ho]

theorem not_fallBackTouch_croft {halts : Prop} {p : Page} {o : Nat} (hp : p.placed) (hk : p.kind ≠ .numstep) (ho : o < 0x1000)
    (h : o ≠ 0x50) : ¬ (fallBackTouch halts).regs (p.base + o) := by
  rintro (⟨f, hf, e⟩ | ⟨k, f, hf, e⟩)
  · refine apart_ne (p := p) (q := pgNum) ?_ e
    have hoff : ∀ f ∈ [R.numstep_STATUS_FALLBACKS, R.numstep_FALLBACK_LOG_LAYER, R.numstep_ABANDON_CNT, R.STATE_STATE,
      R.FAULT_CAUSE, R.FAULT_ADDR_LO, R.FAULT_ADDR_HI, R.CRIER_LINE_RAISED], f.off < 0x1000 := by decide
    simp [ho, hk, hp, hoff f hf]
  · refine apart_ne (p := p) (q := pgReeve k) ?_ e
    rw [List.mem_singleton.1 hf]
    simp [ho, h]

/-- A fall-back is counted; a croft goes on as it was, or with a halt under way; registers outside its frame stay. -/
theorem fallBack_facts (c layer kind k : Nat) (s : State) :
    let t := (fallBack c layer kind).run s
    Counts s t pgNum R.numstep_FALLBACK_CNT 1 ∧ (t.reeve k = s.reeve k ∨ t.reeve k = (s.reeve k).haltsFor 5) ∧
    ∃ u, Keeps { regs := theRegs pgNum [R.numstep_FALLBACK_CNT] } s u ∧ Keeps (fallBackTouch True) u t := by
  obtain ⟨hcount, hbump⟩ := bumpBy_run pgNum R.numstep_FALLBACK_CNT 1 s
  have hrecord := fallBackRecord_keeps c layer kind ((bump pgNum R.numstep_FALLBACK_CNT).run s)
  obtain ⟨hlimit, hreeve⟩ := fallBackLimit_run k ((fallBackRecord c layer kind).run ((bump pgNum R.numstep_FALLBACK_CNT).run s))
  have hsame : ((fallBackRecord c layer kind).run ((bump pgNum R.numstep_FALLBACK_CNT).run s)).reeve k = s.reeve k :=
    congrArg Croft.reeve (hrecord.crofts k id)
  have hnot {halts : Prop} := not_fallBackTouch_num (halts := halts) (o := R.numstep_FALLBACK_CNT.off) (by decide) (by decide)
  rw [fallBack_run]
  exact ⟨(hlimit.reg_eq hnot).trans ((hrecord.reg_eq hnot).trans hcount), hsame ▸ hreeve, _, hbump, hrecord.withHalts.trans hlimit⟩

/-- What a span's repeat does between the records' rise and the fall-back: it goes on after the opening FENCE at `a`. -/
def spanRepeats (c a phase : Nat) : Prog := .all [
  bump pgNum R.numstep_LREPEAT_CNT,
  modReeve c (fun r => { r with wide := true, spanOvf := false, spanRecs := [], repeated := r.repeated ++ [a], wait := .none }),
  modCroft c (fun k => { k with wideRefs := [] }),
  setFld (pgOwn c) R.own_STATUS_PHASE phase,
  setPC c (nextIdx a)]

theorem spanRepeats_run {a phase : Nat} (ha : nextIdx a < 2 ^ 24) (hphase : phase < 2 ^ R.own_STATUS_PHASE.width) (c : Nat) (s : State) :
    let t := (spanRepeats c a phase).run s
    t.pc c = nextIdx a ∧ t.phase c = phase ∧
    t.reeve c = { s.reeve c with wide := true, spanOvf := false, spanRecs := [], repeated := (s.reeve c).repeated ++ [a], wait := .none } ∧
    t.reg pgNum R.numstep_LREPEAT_CNT.off = satAdd (s.reg pgNum R.numstep_LREPEAT_CNT.off) 1 ∧
    t.reg pgNum R.numstep_FALLBACK_CNT.off = s.reg pgNum R.numstep_FALLBACK_CNT.off ∧ t.byte = s.byte := by
  have hmod : nextIdx a % 16777216 = nextIdx a := Nat.mod_eq_of_lt ha
  have hphase := Nat.mod_eq_of_lt hphase
  norm_num only at hphase
  refine ⟨?_, ?_, ?_, ?_, ?_, ?_⟩
  all_goals simp -implicitDefEqProofs [spanRepeats, modReeve, modCroft, setPC, hmod, hphase, State.phase, State.reeve_eq]
  rfl

/-- Settles O11: a FENCE whose wait is over opens its span, closes it, or repeats it, which falls the layer back. -/
theorem fencesAndSpansEnd : Obligations.FencesAndSpansEnd := by
  unfold Obligations.FencesAndSpansEnd
  refine ⟨?fence, ?close, ?again⟩
  case fence =>
    intro s c i w mask layer close hw h hi
    obtain ⟨hover, hnot⟩ := exec_fenceComplete hw h
    refine ⟨hnot, fun hends hl => ⟨_, hover hends, ?_⟩, fun hends hl hc => ⟨_, hover hends, ?_⟩⟩
    · subst hl
      exact waitEnds_run hi c.val s
    · subst hl hc
      have hmod : nextIdx i % 16777216 = nextIdx i := Nat.mod_eq_of_lt hi
      have hpc := pc_mod s c.val
      rw [waiting_pc h] at hpc
      simp -implicitDefEqProofs only [fenceEnds, Bool.and_false, Bool.false_eq_true, if_false, if_true]
      refine ⟨?_, ?_, ?_, ?_, ?_, Prog.keeps (by simp +decide) s⟩
      all_goals simp -implicitDefEqProofs [modReeve, modCroft, setPC, hmod, hpc, State.phase, State.reeve_eq]
  case close =>
    intro s c i w mask hw h hi hd hp hr
    obtain ⟨hover, -⟩ := exec_fenceComplete hw h
    refine ⟨_, hover ⟨hd, fun _ => hp⟩, ?_⟩
    have hmod : nextIdx i % 16777216 = nextIdx i := Nat.mod_eq_of_lt hi
    have hrun : (fenceEnds s c.val i w true true).run s = (Prog.all [
        modReeve c.val (fun r => { r with wide := false, span := none, spanOvf := false, spanRecs := [], wait := .none }),
        modCroft c.val (fun k => { k with wideRefs := [] }),
        setPC c.val (nextIdx i)]).run s := by
      simp -implicitDefEqProofs only [fenceEnds, Bool.and_true, if_true, closeSpan, Prog.run_get]
      rw [if_neg]
      simp only [Bool.and_eq_true, Bool.not_eq_true', List.contains_eq_mem, decide_eq_false_iff_not, not_and, not_not]
      rcases hr with hr | hr | hr <;> simp [hr]
    rw [hrun]
    refine ⟨?_, ?_, Prog.keeps (by simp +decide) s⟩
    all_goals simp -implicitDefEqProofs [modReeve, modCroft, setPC, hmod, State.reeve_eq]
  case again =>
    intro s c i w mask a layer hw h hs ha hd hp ho hwide hr hrec hpair
    obtain ⟨hover, -⟩ := exec_fenceComplete hw h
    refine ⟨_, hover ⟨hd, fun _ => hp⟩, ?_⟩
    obtain ⟨m, hm, hscale, hbytes⟩ := raiseRecords_run (byEngine 0 i) c.val (s.reeve c.val).spanRecs s hrec hpair
    have hrun : (fenceEnds s c.val i w true true).run s = (fallBack c.val (orderLayer w) 2).run
        ((spanRepeats c.val a (s.fld (pgOwn c.val) R.own_STATUS_SPAN_PHASE)).run { s with mem := m }) := by
      simp -implicitDefEqProofs only [fenceEnds, Bool.and_true, if_true, closeSpan, Prog.run_get, hs, Option.getD_some]
      rw [if_pos (by simp [ho, hwide, hr]), Prog.run_all_cons, hm]
      simp -implicitDefEqProofs only [spanRepeats, Prog.run_all_cons, Prog.run_all_nil]
    obtain ⟨hpc, hphase, hreeve, hrepeat, hcnt, hmem⟩ :=
      spanRepeats_run ha (State.fld_lt (f := R.own_STATUS_SPAN_PHASE) (by decide) s (pgOwn c.val)) c.val { s with mem := m }
    obtain ⟨hcount, hhalts, u, hu, hkeep⟩ := fallBack_facts c.val (orderLayer w) 2 c.val
      ((spanRepeats c.val a (s.fld (pgOwn c.val) R.own_STATUS_SPAN_PHASE)).run { s with mem := m })
    rw [hrun]
    generalize (spanRepeats c.val a (s.fld (pgOwn c.val) R.own_STATUS_SPAN_PHASE)).run { s with mem := m } = v at *
    have hpage {p : Page} (hk : p.kind ≠ .numstep ∧ p.kind ≠ .ledger ∧ p.kind ≠ .link) {f : Fld} (ho : f.off < 0x1000 ∧ f.off ≠ 0x50) :
        ((fallBack c.val (orderLayer w) 2).run v).fld p f = v.fld p f :=
      (hkeep.fld_eq (not_fallBackTouch_croft (Page.placed_of_kind hk.2.1 hk.2.2) hk.1 ho.1 ho.2)).trans
        (hu.fld_eq fun ⟨_, hf, e⟩ => apart_ne (p := p) (q := pgNum) (by simp [List.mem_singleton.1 hf, hk, ho]) e)
    have hbyte : ((fallBack c.val (orderLayer w) 2).run v).byte = State.byte { s with mem := m } :=
      (funext fun x => (hkeep.mem x id).trans (hu.mem x id)).trans hmem
    have hsl (o n : Nat) : ((fallBack c.val (orderLayer w) 2).run v).sl c.val o n = State.sl { s with mem := m } c.val o n :=
      State.le_congr fun _ _ => congrFun hbyte _
    refine ⟨(hpage (by simp) (by decide)).trans hpc, (hpage (by simp) (by decide)).trans hphase, ?_, ?_, ?_, ?_, ?_, ?_,
      hcount.trans (congrArg (satAdd · 1) hcnt), fun o ho => ?_, fun x hx => ?_⟩
    case refine_6 =>
      exact ((hkeep.reg_eq (not_fallBackTouch_num (by decide) (by decide))).trans
        (hu.reg_eq (not_theRegs_offset (by decide) _))).trans hrepeat
    case refine_7 => rw [hsl, hsl]; exact hscale o ho
    case refine_8 => rw [hbyte]; exact hbytes x hx
    all_goals
      have hrec : State.reeve { s with mem := m } c.val = s.reeve c.val := rfl
      rcases hhalts with e | e <;> simp only [e, hreeve, Reeve.haltsFor, Wait.afterHalt, hrec, hs]

end Sys2Proof.Machine
end

section
/-! O12: TOKEN WAIT and SEED orders end (R45, R46, R256, R277, R278). -/
namespace Sys2Proof.Machine

theorem decodeOrder_seed_value {w : OrderWord} {v : BitVec 32} (h : decodeOrder w = .ok (.seed v)) :
    BitVec.ofNat 32 (bitsOf w.toNat 32 32) = v := by
  simp only [decodeOrder] at h
  split at h <;> (repeat' split at h) <;> (try contradiction)
  all_goals simp only [Except.ok.injEq, Order.seed.injEq, reduceCtorEq] at h
  exact h

/-- The order waited on is the one that the chunk of PC holds at PC. -/
theorem waiting_held {s : State} {c i : Nat} {w : OrderWord} {o : Order} (h : s.waiting c = some (i, w, o)) :
    ∃ k, (s.reeve c).chunks.find? (fun k => k.no == s.pc c / 256) = some k ∧ (Sparse.get? k.slots (s.pc c % 256)).getD 0 = w ∧
      decodeOrder w = .ok o := by
  simp only [State.waiting] at h
  split at h
  · contradiction
  · split at h
    · contradiction
    · rename_i k hk
      split at h
      · contradiction
      · rename_i hd
        cases h
        exact ⟨k, hk, rfl, hd⟩

section
variable {s : State} {c : CroftId} {i tok n : Nat} {w : OrderWord}

theorem exec_tokenWaitComplete (hw : (s.reeve c.val).wait = .token) (h : s.waiting c.val = some (i, w, .tokenWait tok n)) :
    exec (.tokenWaitComplete c) s = .next ((if (s.isPhaseToken c.val tok && !(s.reeve c.val).drained 0x3F) ||
        (!(s.reeve c.val).wide && decide ((s.reeve c.val).token tok < n)) then .done
      else .all [
        Prog.when (!(s.reeve c.val).wide) (setToken c.val tok ((s.reeve c.val).token tok - n)),
        Prog.when (s.isPhaseToken c.val tok) (phaseAdvance c.val),
        setWait c.val .none, setPC c.val (nextIdx i)] : Prog).run s) := by
  show execTokenWaitComplete c s = _
  simp only [execTokenWaitComplete, Prog.next_eq, Prog.run_get, hw, h, bne_self_eq_false, Bool.false_eq_true, if_false]

theorem exec_seedLoad {v : BitVec 32} (hw : (s.reeve c.val).wait = .seed) (h : s.waiting c.val = some (i, w, .seed v))
    (hr : ∀ o ∈ (s.reeve c.val).orders, o.rounds = false) :
    exec (.seedLoad c) s = .next ((Prog.all [
      modCroft c.val (fun k => { k with lanes := [], laneRan := 0, laneSeed := v }),
      setReg (pgCroft c.val) R.croft_SEED_LAST.off v,
      setWait c.val .none, setPC c.val (nextIdx i)]).run s) := by
  obtain ⟨-, hreset, hdead, -, hclock⟩ := waiting_some h
  obtain ⟨k, hk, hword, hdec⟩ := waiting_held h
  rw [waiting_pc h] at hk hword
  have hrounds : (s.reeve c.val).orders.all (fun o => !o.rounds) = true := by simpa using hr
  show execSeedLoad c s = _
  simp only [execSeedLoad, Prog.next_eq, Prog.run_get, hk, hword, hw, hdead, hreset, hclock, hrounds, beq_self_eq_true, Bool.not_false,
    Bool.and_self, if_true, decodeOrder_seed_value hdec, waiting_pc h]

end

theorem isPhaseToken_phases {s : State} {c tok : Nat} (h : s.isPhaseToken c tok = true) : 1 < s.fld (pgOwn c) R.own_CFG_NPHASE := by
  simp only [State.isPhaseToken, Bool.and_eq_true, decide_eq_true_eq] at h
  exact h.2

/-- Settles O12: each row, its wait over, runs a fixed sequence of writes. -/
theorem tokenWaitsAndSeedsEnd : Obligations.TokenWaitsAndSeedsEnd := by
  unfold Obligations.TokenWaitsAndSeedsEnd
  refine ⟨?ends, ?waits, ?seed⟩
  case ends =>
    intro s c i w tok n hw h hi hphases hdrain hn
    have hover : ((s.isPhaseToken c.val tok && !(s.reeve c.val).drained 0x3F) ||
        (!(s.reeve c.val).wide && decide ((s.reeve c.val).token tok < n))) = false := by
      cases hp : s.isPhaseToken c.val tok <;> cases hwd : (s.reeve c.val).wide <;> simp_all
    refine ⟨_, exec_tokenWaitComplete hw h, ?_⟩
    have hmod : nextIdx i % 16777216 = nextIdx i := Nat.mod_eq_of_lt hi
    have hphase : s.isPhaseToken c.val tok = true →
        (s.phase c.val + 1) % max 1 (s.fld (pgOwn c.val) R.own_CFG_NPHASE) % 16 =
          (s.phase c.val + 1) % s.fld (pgOwn c.val) R.own_CFG_NPHASE := fun hp => by
      have hmany := isPhaseToken_phases hp
      rw [max_eq_right (by omega)]
      exact Nat.mod_eq_of_lt (lt_of_lt_of_le (Nat.mod_lt _ (by omega)) hphases)
    rw [State.phase] at hphase
    simp only [hover, Bool.false_eq_true, if_false]
    refine ⟨?_, ?_, ?_, Prog.keeps (by simp +decide [Prog.only_when, setToken, phaseAdvance]) s⟩
    all_goals
      cases hp : s.isPhaseToken c.val tok <;> cases hwd : (s.reeve c.val).wide
      all_goals
        rw [State.reeve_eq] at hwd
        try have hphase := hphase hp
        simp -implicitDefEqProofs [Prog.run_when, setToken, phaseAdvance, setWait, setPC, modReeve, modCroft, State.phase, State.reeve_eq,
          hwd, hmod, hphase]
  case waits =>
    intro s c i w tok n hw h hwide hshort
    rw [exec_tokenWaitComplete hw h, if_pos (by simp [hwide, hshort])]
    rfl
  case seed =>
    intro s c i w v hw h hi hr
    refine ⟨_, exec_seedLoad hw h hr, ?_⟩
    have hmod : nextIdx i % 16777216 = nextIdx i := Nat.mod_eq_of_lt hi
    refine ⟨?_, ?_, ?_, Prog.keeps (by simp +decide) s⟩
    all_goals simp -implicitDefEqProofs [setWait, setPC, modReeve, modCroft, State.reeve_eq, hmod]

end Sys2Proof.Machine
end

section
/-! O13: signals leave and arrive (R16, R256 to R258, R340). -/
namespace Sys2Proof.Machine

theorem exec_pendingSignalSend {s : State} {c : CroftId} {p : PendSig} {rest : List PendSig} {tok n dst mask : Nat}
    (hp : (s.reeve c.val).pend = p :: rest) (hd : decodeOrder p.word = .ok (.tokenSignal tok n dst mask))
    (hreset : s.underReset (pgReeve c.val) = false) (hclock : s.clockRuns c.val = true)
    (hdone : ∀ o ∈ (s.reeve c.val).orders, p.before ≤ o.serial ∨ o.mask &&& mask = 0) :
    exec (.pendingSignalSend c) s = .next ((Prog.all [
      modReeve c.val (fun r => { r with pend := rest }),
      bump (pgReeve c.val) R.reeve_SIGNAL_CNT,
      modDev (fun d => { d with signals := d.signals ++ [{ src := some c.val, dst := dst, token := tok, count := n }] })]).run s) := by
  have hall : (s.reeve c.val).orders.all (fun o => decide (p.before ≤ o.serial) || o.mask &&& mask == 0) = true := by simpa using hdone
  show execPendingSignalSend c s = _
  simp only [execPendingSignalSend, Prog.next_eq, Prog.run_get, hp, hd, hreset, hclock, hall, Bool.not_true, Bool.or_self,
    Bool.false_eq_true, if_false]

/-- The signal that arrives has left the list of those on their way. -/
def takeSignal (i : Nat) : Prog := modDev (fun d => { d with signals := d.signals.eraseIdx i })

theorem exec_signalArrives {s : State} {msg : Bool} {k i : Nat} {x : TokSig} (hk : s.signalAt msg k = some i)
    (hx : s.dev.signals[i]? = some x) :
    exec (if msg then .signal k else .tokenSignalArrival k) s = .next ((if (s.dev.signals.take i).any x.after then .done
      else .all [takeSignal i, tokenArrives x.src x.dst x.token x.count] : Prog).run s) := by
  have hexec : exec (if msg then .signal k else .tokenSignalArrival k) s = Prog.next (arriveSignal msg k) s := by cases msg <;> rfl
  simp only [hexec, arriveSignal, Prog.next_eq, Prog.run_get, hk, hx, takeSignal]

section
variable {s : State} {x : TokSig} {c i : Nat}

theorem signalStale_run (hdst : x.dst = c) (hwin : c ∈ s.dev.incWindow) :
    (Prog.all [takeSignal i, tokenArrives x.src x.dst x.token x.count]).run s =
      (Prog.all [takeSignal i, bump (pgSluice c) R.sluice_STALE_CNT]).run s := by
  simp [takeSignal, modDev, tokenArrives, hdst, hwin]

theorem signalAbsorbed_run (hdst : x.dst = c) (hwin : c ∉ s.dev.incWindow) (hreset : s.underReset (pgReeve c) = true) :
    (Prog.all [takeSignal i, tokenArrives x.src x.dst x.token x.count]).run s =
      (Prog.all [takeSignal i, absorbAt (pgReeve c) 1,
        match x.src with | some y => bump (pgReeve y) R.reeve_SIGNAL_ABS_CNT | none => .done]).run s := by
  rw [State.underReset] at hreset
  cases hsrc : x.src <;> simp [takeSignal, modDev, tokenArrives, hdst, hwin, hreset]

theorem signalCounts_run (hdst : x.dst = c) (hwin : c ∉ s.dev.incWindow) (hup : s.underReset (pgReeve c) = false) :
    (Prog.all [takeSignal i, tokenArrives x.src x.dst x.token x.count]).run s =
      (if (s.reeve c).token x.token + x.count ≤ 65535 then
        Prog.all [takeSignal i, setToken c x.token ((s.reeve c).token x.token + x.count)]
      else .all [takeSignal i, setToken c x.token 65535, bump (pgReeve c) R.reeve_TOKEN_OVF_CNT,
        setFld (pgReeve c) R.reeve_STATUS_TOKEN_OVF 1, setFld (pgReeve c) R.CRIER_LINE_RAISED 1, tellWatchOpen]).run s := by
  rw [State.underReset] at hup
  by_cases hfits : (s.reeve c).token x.token + x.count ≤ 65535
  all_goals
    rw [State.reeve_eq] at hfits
    simp -implicitDefEqProofs [takeSignal, modDev, tokenArrives, signalToken, setToken, modReeve, modCroft, raiseLine, hdst, hwin, hup,
      hfits, State.reeve_eq]

end

@[simp] theorem tellWatchOpen_allows {T : Touch} : tellWatchOpen.Only T.allows ↔ T.dev ∧ T.seq := by
  simp [tellWatchOpen, forall_const_iff, Touch.allows, and_comm]

/-- Settles O13: by where the signal that arrives goes. -/
theorem signalsLeaveAndArrive : Obligations.SignalsLeaveAndArrive := by
  unfold Obligations.SignalsLeaveAndArrive
  refine ⟨?leaves, ?arrives⟩
  case leaves =>
    intro s c p rest tok n dst mask hp hd hreset hclock hdone
    refine ⟨_, exec_pendingSignalSend hp hd hreset hclock hdone, ?_⟩
    refine ⟨?_, ?_, ?_, Prog.keeps (by simp +decide) s⟩
    all_goals simp -implicitDefEqProofs [modReeve, modCroft, modDev, State.reeve_eq]
  case arrives =>
    intro s msg k i x c hk hx hdst htok
    refine ⟨fun h => ?_, fun h => ⟨fun hwin => ?_, fun hwin hreset => ?_, fun hwin hup => ?_⟩⟩
    all_goals simp only [exec_signalArrives hk hx, h, if_true, Bool.false_eq_true, if_false]
    · rfl
    · refine ⟨_, rfl, ?_⟩
      rw [signalStale_run hdst hwin]
      refine ⟨?_, ?_, Prog.keeps (by simp +decide [takeSignal]) s⟩
      all_goals simp -implicitDefEqProofs [takeSignal, modDev, Counts]
    · refine ⟨_, rfl, ?_⟩
      rw [signalAbsorbed_run hdst hwin hreset]
      cases hsrc : x.src with
      | none =>
        refine ⟨?_, ?_, Prog.keeps (by simp +decide [takeSignal]) s⟩
        all_goals simp -implicitDefEqProofs [takeSignal, modDev, absorbAt, State.absorbed]
      | some y =>
        refine ⟨?_, ?_, Prog.keeps (by simp +decide [takeSignal]) s⟩
        all_goals simp -implicitDefEqProofs [takeSignal, modDev, absorbAt, Counts, State.absorbed]
    · refine ⟨_, rfl, ?_⟩
      rw [signalCounts_run hdst hwin hup]
      by_cases hfits : (s.reeve c.val).token x.token + x.count ≤ 65535
      · rw [if_pos hfits]
        have hmin := min_eq_right hfits
        rw [State.reeve_eq] at hmin
        have hover : ¬ 65535 < (s.reeve c.val).token x.token + x.count := by omega
        refine ⟨?_, fun _ => ⟨?_, Prog.keeps (by simp +decide [takeSignal, setToken]) s⟩, fun hn => absurd hn hover⟩
        all_goals simp -implicitDefEqProofs [takeSignal, setToken, modDev, modReeve, modCroft, State.reeve_eq, hmin]
      · rw [if_neg hfits]
        have hmin : min 65535 ((s.reeve c.val).token x.token + x.count) = 65535 := by omega
        rw [State.reeve_eq] at hmin
        refine ⟨?_, fun hn => absurd hn hfits, fun hn => ⟨?_, ?_, ?_, ?_, ?_,
          Prog.keeps (by simp +decide [takeSignal, setToken]) s⟩⟩
        all_goals simp -implicitDefEqProofs [takeSignal, setToken, tellWatchOpen, tellWatch, modDev, modReeve, modCroft, State.reeve_eq, hmin,
          Counts]

end Sys2Proof.Machine
end

section
/-! O15: halts requested by the host, and the end of a drain (R263 to R265). -/
namespace Sys2Proof.Machine

/-- A write of the host's to a reeve page that it reaches. -/
theorem regWrite_pgReeve {s : State} {c : Nat} (hready : s.atReady = true) (hup : s.underReset (pgReeve c) = false) (o : Nat) (k : Prog) :
    (regWrite .host (pgReeve c) o k).run s = k.run s :=
  regWrite_reaches ⟨by simp [State.shut, hready], by simp [hup]⟩ o k

theorem haltReq_run_again {s : State} {c : Nat} (hrun : s.running c = true) (hhalt : (s.reeve c).halting ≠ none) (reason : Nat) :
    (haltReq c reason).run s = (setFld (pgReeve c) R.reeve_STATUS_MORE 1).run s := by
  obtain ⟨x, hx⟩ := Option.ne_none_iff_exists'.1 hhalt
  simp only [haltReq, Prog.run_get, hrun, hx, Bool.not_true, Bool.false_eq_true, if_false]

theorem haltReq_run_stopped {s : State} {c : Nat} (hrun : s.running c = false) (reason : Nat) : (haltReq c reason).run s = s := by
  simp [haltReq, hrun]

theorem Wait.afterHalt_eq (w : Wait) : w.afterHalt = if w = .verdict ∨ w = .seed then w else .none := by cases w <;> simp [Wait.afterHalt]

/-- Settles O15: a request begins a halt, or is noted where one is under way; the halt ends with the drain. -/
theorem croftsDrainAndHalt : Obligations.CroftsDrainAndHalt := by
  unfold Obligations.CroftsDrainAndHalt
  refine ⟨?requests, ?ends, ?waits⟩
  case requests =>
    intro s c hready hup touched
    have hexec : exec (.reeveHaltRequest c) s = .next ((haltReq c.val 7).run s) :=
      congrArg Host.Outcome.next (regWrite_pgReeve hready hup ..)
    refine ⟨fun hrun hhalt => ⟨_, hexec, ?_⟩, fun hrun hhalt => ⟨_, hexec, ?_⟩, fun hrun => ?_⟩
    · rw [haltReq_run_first hrun hhalt]
      refine ⟨?_, ?_, Prog.keeps (by simp +decide [touched]) s⟩
      all_goals simp -implicitDefEqProofs [modReeve, modCroft, Reeve.haltsFor, Wait.afterHalt_eq, State.reeve_eq]
    · rw [haltReq_run_again hrun hhalt]
      refine ⟨?_, ?_, ?_, Prog.keeps (by simp +decide [touched]) s⟩
      all_goals simp -implicitDefEqProofs
    · rw [hexec, haltReq_run_stopped hrun]
  case ends =>
    intro s c k hhalt hdead hclock ho hp hv hs
    have hexec : exec (.croftHalted c) s = .next ((croftStops c.val).run s) := by
      show execCroftHalted c s = _
      simp only [execCroftHalted, Prog.next_eq, Prog.run_get, hhalt, hdead, hclock, (ranOut_iff _).2 ⟨ho, hp⟩]
      rw [if_pos (by simp [hv, hs])]
    obtain ⟨hrun, hhalted, hreason, hcroft⟩ := croftStops_run c.val s
    have hkeep := croftStops_keeps (List.mem_singleton_self _) c.val s
    exact ⟨_, hexec, hrun, hhalted, hreason, hkeep.fld_eq (not_haltTouch_regs (by decide) s c.val), hcroft, hkeep⟩
  case waits =>
    intro s c h
    have hout : (s.reeve c.val).ranOut = false := by
      rw [← Bool.not_eq_true, ranOut_iff]
      tauto
    show execCroftHalted c s = _
    simp only [execCroftHalted, Prog.next_eq, Prog.run_get, hout, Bool.and_false, Bool.false_and, Bool.false_eq_true, if_false]
    rfl

end Sys2Proof.Machine
end

section
/-! O16: the watchdog and restarts (R264, R265, R267, R277). -/
namespace Sys2Proof.Machine

/-- What the watchdog's stop records on the reeve's page and in its croft. -/
def stopRecord (c idx eng addr : Nat) (more : Bool) : Prog := .all [
  faultRecord (pgReeve c) 0x0A addr,
  setFld (pgReeve c) R.CRIER_LINE_RAISED 1,
  setFld (pgReeve c) R.reeve_FAULT_IDX_INDEX idx,
  setFld (pgReeve c) R.reeve_FAULT_IDX_ENGINE eng,
  if more then setFld (pgReeve c) R.reeve_STATUS_MORE 1 else setFld (pgReeve c) R.reeve_STATUS_HALT_REASON 4,
  modReeve c (fun r => { r with pend := [], dead := true })]

theorem stopAtOnce_run {s : State} {c : Nat} (hup : s.underReset (pgReeve c) = false) :
    ∃ idx eng, (stopAtOnce c).run s = (Prog.all [tellWatch 14, stepEnds]).run ((croftStops c).run
      ((stopRecord c idx eng (s.orderOffset c idx) (s.reeve c).halting.isSome).run s)) := by
  refine ⟨if (s.reeve c).wait != .none then s.pc c else ((s.reeve c).orders.head?.map (·.idx)).getD (s.pc c),
    if (s.reeve c).wait != .none then 0 else ((s.reeve c).orders.head?.map (·.engine)).getD 0, ?_⟩
  have hline (addr : Nat) : (raiseLine (pgReeve c)).run ((faultRecord (pgReeve c) 0x0A addr).run s) =
      (setFld (pgReeve c) R.CRIER_LINE_RAISED 1).run ((faultRecord (pgReeve c) 0x0A addr).run s) :=
    raiseLine_run_up (by simpa [faultRecord] using hup)
  simp -implicitDefEqProofs only [stopAtOnce, stopRecord, Prog.run_get, Prog.run_all_cons, Prog.run_all_nil, hline]

theorem stopRecord_keeps (c idx eng addr : Nat) (more : Bool) (s : State) :
    Keeps { regs := theRegs (pgReeve c) (faultRegs ++ [R.reeve_STATUS_RUNNING, R.reeve_FAULT_IDX_INDEX]), crofts := (· = c) } s
      ((stopRecord c idx eng addr more).run s) :=
  Prog.keeps (by cases more <;> simp +decide [stopRecord, faultRegs]) s

theorem stopRecord_run (c idx eng addr : Nat) (more : Bool) (s : State) :
    let t := (stopRecord c idx eng addr more).run s
    t.fld (pgReeve c) R.STATE_STATE = stFault ∧ (t.reg (pgReeve c) R.FAULT_CAUSE.off).toNat = 0x0A ∧
    (more = false → t.fld (pgReeve c) R.reeve_STATUS_HALT_REASON = 4) ∧
    (more = true → t.bit (pgReeve c) R.reeve_STATUS_MORE = true ∧
      t.fld (pgReeve c) R.reeve_STATUS_HALT_REASON = s.fld (pgReeve c) R.reeve_STATUS_HALT_REASON) ∧
    t.bit (pgReeve c) R.CRIER_LINE_RAISED = true ∧
    t.croft c = { s.croft c with reeve := { s.reeve c with pend := [], dead := true } } := by
  cases more
  all_goals
    refine ⟨?_, ?_, ?_, ?_, ?_, ?_⟩
    all_goals simp -implicitDefEqProofs [stopRecord, faultRecord, modReeve, modCroft, State.reeve_eq, stFault]

/-- The register of a page of the croft that a halt's end leaves. -/
theorem croftStops_reg {o : Nat} (h : o ≠ R.reeve_STATUS_RUNNING.off) (c : Nat) (s : State) :
    ((croftStops c).run s).reg (pgReeve c) o = s.reg (pgReeve c) o :=
  (croftStops_keeps (List.mem_singleton_self _) c s).reg_eq (not_haltTouch_regs (by simpa using h) s c)

/-- A field beside RUNNING and HALTED of their register that a halt's end leaves. -/
theorem croftStops_more (c : Nat) (s : State) :
    ((croftStops c).run s).bit (pgReeve c) R.reeve_STATUS_MORE = s.bit (pgReeve c) R.reeve_STATUS_MORE := by
  refine ((croftStops_after_mark c s).bit_eq (not_theRegs_planStop_reeve c _)).trans ?_
  simp -implicitDefEqProofs [markHalted, modReeve, modCroft, State.bit]

theorem haltTouch_stopRecord (c idx eng addr : Nat) (more : Bool) (s : State) (fs : List Fld) :
    haltTouch ((stopRecord c idx eng addr more).run s) c fs = haltTouch s c fs := by
  have hkeep := stopRecord_keeps c idx eng addr more s
  have hplan := hkeep.bit_eq (p := pgPlan) (f := R.plan_STATUS_STOP_PENDING) (not_theRegs_pgReeve (by simp) _)
  have hnum := hkeep.bit_eq (p := pgNum) (f := R.numstep_STATUS_ABANDONING) (not_theRegs_pgReeve (by simp) _)
  simp only [haltTouch, hplan, hnum]

theorem Keeps.withDev {s t : State} {c : Nat} {fs : List Fld} {u : State} (h : Keeps (haltTouch s c fs) t u) :
    Keeps { haltTouch s c fs with dev := True } t u :=
  Keeps.mono (T := haltTouch s c fs) (U := { haltTouch s c fs with dev := True })
    { regs := fun _ h => h, mem := fun _ h => h, crofts := fun _ h => h, wells := fun _ h => h, pumps := fun _ h => h,
      hamlets := fun _ h => h, queues := fun _ h => h, links := fun _ h => h, dev := fun _ => trivial, out := id, seq := id } h

theorem canRestart_run {s : State} {c : Nat} (h : s.canRestart c = true) (i : Nat) :
    (restartOr c i).run s = (restartAt c i).run s ∧ (cleanRestartOr c i).run s = (cleanRestartAt c i).run s := by
  simp only [restartOr, cleanRestartOr, Prog.run_get, h, if_true, and_self]

theorem notRestart_run {s : State} {c : Nat} (h : s.canRestart c = false) (i : Nat) :
    (restartOr c i).run s = (ignored (pgReeve c)).run s ∧ (cleanRestartOr c i).run s = (ignored (pgReeve c)).run s := by
  simp only [restartOr, cleanRestartOr, Prog.run_get, h, Bool.false_eq_true, if_false, and_self]

/-- Settles O16: the stop is a record and a halt's end; a restart is one sequence of writes, or is counted. -/
theorem watchdogAndRestarts : Obligations.WatchdogAndRestarts := by
  unfold Obligations.WatchdogAndRestarts
  refine ⟨?stops, ?restarts⟩
  case stops =>
    intro s c hrun hdead hup
    obtain ⟨idx, eng, hstop⟩ := stopAtOnce_run hup
    have hexec : exec (.watchdogExpiry c) s = .next ((stopAtOnce c.val).run s) := by
      show execWatchdogExpiry c s = _
      simp only [execWatchdogExpiry, Prog.next_eq, Prog.run_get, State.watched, hrun, hdead, hup, Bool.not_false, Bool.and_self,
        Prog.run_when_true]
    rw [hexec, hstop]
    obtain ⟨hstate, hcause, hreason, hmore, hline, hcroft⟩ :=
      stopRecord_run c.val idx eng (s.orderOffset c.val idx) (s.reeve c.val).halting.isSome s
    have hrecord := Prog.keeps (T := { haltTouch s c.val (faultRegs ++ [R.reeve_STATUS_RUNNING, R.reeve_FAULT_IDX_INDEX]) with dev := True })
      (p := stopRecord c.val idx eng (s.orderOffset c.val idx) (s.reeve c.val).halting.isSome)
      (by cases (s.reeve c.val).halting.isSome <;> simp +decide [stopRecord, faultRegs, haltTouch]) s
    have hstopped := croftStops_keeps (fs := faultRegs ++ [R.reeve_STATUS_RUNNING, R.reeve_FAULT_IDX_INDEX]) (by simp) c.val
      ((stopRecord c.val idx eng (s.orderOffset c.val idx) (s.reeve c.val).halting.isSome).run s)
    rw [haltTouch_stopRecord] at hstopped
    generalize (stopRecord c.val idx eng (s.orderOffset c.val idx) (s.reeve c.val).halting.isSome).run s = u at *
    obtain ⟨hrunning, hhalted, hreason', hcroft'⟩ := croftStops_run c.val u
    have hreg {o : Nat} (h : o ≠ R.reeve_STATUS_RUNNING.off) := croftStops_reg h c.val u
    have hmore' := croftStops_more c.val u
    generalize (croftStops c.val).run u = v at *
    refine ⟨_, rfl, ?_, ?_, hrunning, hhalted, fun hn => ?_, fun hn => ?_, ?_, rfl, rfl, ?_, ?_⟩
    · exact (congrArg R.STATE_STATE.of (hreg (by decide))).trans hstate
    · exact (congrArg BitVec.toNat (hreg (by decide))).trans hcause
    · exact hreason'.trans (hreason (by simp [hn]))
    · obtain ⟨hm, hr⟩ := hmore (by simpa [Option.isSome_iff_ne_none] using hn)
      exact ⟨hmore'.trans hm, hreason'.trans hr⟩
    · exact (congrArg (fun w => R.CRIER_LINE_RAISED.of w != 0) (hreg (by decide))).trans hline
    · exact hcroft'.trans (by rw [State.reeve_eq u, hcroft])
    · exact (hrecord.trans hstopped.withDev).trans (Prog.keeps (by simp [haltTouch]) v)
  case restarts =>
    intro s c i hready hup goesOn
    have hmod : i.toNat % 16777216 = i.toNat := Nat.mod_eq_of_lt i.isLt
    have hrestart : exec (.reeveRestart c i) s = .next ((restartOr c.val i.toNat).run s) :=
      congrArg Host.Outcome.next (regWrite_pgReeve hready hup ..)
    have hclean : exec (.cleanRestart c i) s = .next ((cleanRestartOr c.val i.toNat).run s) :=
      congrArg Host.Outcome.next (regWrite_pgReeve hready hup ..)
    refine ⟨fun h => ⟨_, hrestart, ?_⟩, fun h => ⟨_, hclean, ?_⟩, fun h => ⟨⟨_, hrestart, ?_⟩, _, hclean, ?_⟩⟩
    · rw [(canRestart_run h _).1]
      refine ⟨⟨?_, ?_, ?_, ?_, ?_⟩, ?_, Prog.keeps (by simp +decide [restartAt]) s⟩
      all_goals simp -implicitDefEqProofs [restartAt, setPC, modReeve, modCroft, State.reeve_eq, hmod]
    · rw [(canRestart_run h _).2]
      refine ⟨⟨?_, ?_, ?_, ?_, ?_⟩, ?_, ?_, Prog.keeps (by simp +decide [cleanRestartAt, cleanReeve, restartAt]) s⟩
      all_goals simp -implicitDefEqProofs [cleanRestartAt, cleanReeve, restartAt, setPC, modReeve, modCroft, State.reeve_eq, State.phase, hmod]
    · rw [(notRestart_run h _).1]
      exact ignored_run ..
    · rw [(notRestart_run h _).2]
      exact ignored_run ..

end Sys2Proof.Machine
end

section
/-! SUPPORT. The start of a queued order (R245, R477), and the well group's orders. -/
namespace Sys2Proof.Machine

theorem engineReads_run {s : State} (h : s.intact = true) (c e idx : Nat) (rs : List (Nat × Nat)) : (engineReads c e idx rs).run s = s :=
  readAll_run h _ _

theorem Reeve.begun_started {r : Reeve} {o : Issued} {k : Nat} (h : r.orders[k]? = some o) :
    (r.begun o.serial).orders.any (fun x => x.serial == o.serial && x.started) = true := by
  have ho : o ∈ r.orders := List.mem_of_getElem? h
  rw [Reeve.begun, List.any_eq_true]
  exact ⟨_, List.mem_map_of_mem ho, by simp⟩

/-- An order that may start starts; the step limiter counts it or does not. -/
theorem leaves_orderStart {s : State} {c : CroftId} {k : Nat} {o : Issued} (h : s.mayStart c.val k o) {p : Prog}
    (hp : (startOrder c.val o).run s = p.run s) (hb : (p.run s).reeve c.val = (s.reeve c.val).begun o.serial) {Q : State → Prop}
    (hQ : ∀ b, Q ((Prog.all [p, eff .seq, Prog.when b (bump pgPower R.power_STEP_DELAY_CNT)]).run s)) :
    Leaves (exec (.orderStart c k) s) Q := by
  obtain ⟨ho, hs, hcan⟩ := h
  refine ⟨_, ?_, hQ (Config.openBit (p.run s).seq % 2 == 1)⟩
  show execOrderStart c k s = _
  simp only [execOrderStart, Prog.next_eq, Prog.run_get, ho, hs, hcan, Bool.not_false, Bool.and_self, Prog.run_when_true, Prog.run_all_cons,
    Prog.run_all_nil, hp, hb, Reeve.begun_started ho, stepLimiter]

end Sys2Proof.Machine
end

section
/-! O17: loads (R73 to R79, R136, R274, R477). -/
namespace Sys2Proof.Machine

/-- A load begins: the image is read into the well's record. -/
def loadBegins (s : State) (c : Nat) (o : Issued) (w img : Nat) : Prog := .all [
  markStarted c o.serial,
  setFld (pgWell (c * 16 + w)) R.well_STATUS_LOADED 0,
  setFld (pgWell (c * 16 + w)) R.well_STATUS_LOADING 1,
  setFld (pgWell (c * 16 + w)) R.well_STATUS_STALE 0,
  setFld (pgWell (c * 16 + w)) R.well_IMG_ADDR_OFFSET img,
  modWell (c * 16 + w) (fun r => { r with
    load := some ⟨o.serial, o.idx, img, 0, [], decide ((s.hamlet (c / 16)).warn ≠ 0), false⟩
    levels := s.bytes (sliceAddr c img) 0x40000
    scales := words32 (s.bytes (sliceAddr c (img + 0x40000)) 0x800)
    resid := s.imageResid c img
    resErr := residues (s.bytes (sliceAddr c img) 0x40000)
    spares := s.spareMap (c * 16 + w)
    last := [] })]

theorem startLoad_run {s : State} {c w img : Nat} {o : Issued} (hd : decodeOrder o.word = .ok (.load w img))
    (hfree : s.wellsBusy c o.serial [w] = false) (hloads : s.loadsNow c < 8) (huse : s.wellUse c w % 2 = 1)
    (hbank : s.bankColl c agEdge false [(img, imageSize)] = none) (hmem : s.intact = true)
    (himg : firstFault (s.imageChecks c img) = none) : (startOrder c o).run s = (loadBegins s c o w img).run s := by
  have hmany : decide (8 ≤ s.loadsNow c) = false := by simpa using hloads
  simp only [startOrder, hd, startLoad, Prog.run_get, hfree, hmany, huse, hbank, Prog.run_all_cons, engineReads_run hmem, himg, Bool.or_self,
    Bool.false_eq_true, if_false, one_ne_zero, Prog.run_all_nil, loadBegins]

theorem decodeOrder_load_fits {w : OrderWord} {x img : Nat} (h : decodeOrder w = .ok (.load x img)) : img < 2 ^ 28 := by
  simp only [decodeOrder] at h
  split at h <;> (repeat' split at h) <;> (try contradiction)
  all_goals simp only [Except.ok.injEq, Order.load.injEq, reduceCtorEq] at h
  rename_i hin
  obtain ⟨-, rfl⟩ := h
  simp only [Bool.not_eq_true, Bool.not_eq_false', Bool.and_eq_true, decide_eq_true_eq] at hin
  simp only [imageSize, sliceSize] at hin
  omega

theorem satAdd_zero (w : Word) : satAdd w 0 = w := by
  have := w.isLt
  simp only [satAdd, Nat.add_zero]
  rw [min_eq_left (by omega), BitVec.ofNat_toNat, BitVec.setWidth_eq]

theorem failCols_nil : failCols [] = [] := by simp [failCols]

/-- The load of a well whose cells have all passed ends. -/
def loadEnds (s : State) (g : Nat) (l : LoadRun) : Prog := .all [
  bumpBy (pgWell g) R.well_FCELL_CNT 0,
  setReg (pgWell g) R.well_SCALE_FP_FP.off (crc32 ((s.well g).scales.flatMap (toLe 4))),
  setFld (pgWell g) R.well_RESID_IMAGE (s.well g).resid.length,
  setFld (pgWell g) R.well_RESID_TOTAL (min (s.well g).resid.length 512),
  setBit (pgWell g) R.well_STATUS_RESID_FULL false,
  setFld (pgWell g) R.well_STATUS_LAST_PASSES (l.pass + 1),
  bump (pgWell g) R.well_LOAD_CNT,
  Prog.when (decide (1 ≤ l.pass)) (bump (pgWell g) R.well_PASS2_CNT),
  Prog.when (decide (2 ≤ l.pass)) (bump (pgWell g) R.well_PASS3_CNT),
  setFld (pgWell g) R.well_STATUS_LOADING 0,
  setFld (pgWell g) R.well_STATUS_LOADED 1,
  modWell g (fun r => { r with load := none, loadedAt := s.now, last := [], resid := (s.well g).resid }),
  dropOrder (g / 16) l.serial]

theorem loadDone_run {s : State} {g : Nat} (l : LoadRun) (hres : (s.well g).resid.length ≤ 512) (hwin : (s.well g).cleanWindow = false) :
    (loadDone (g / 16) g l (l.pass + 1) []).run s = (loadEnds s g l).run s := by
  have hfull : decide (512 < (s.well g).resid.length) = false := by simpa using hres
  simp only [loadDone, loadEnds, Prog.run_get, List.filter_nil, List.map_nil, failCols_nil, List.append_nil, hfull, List.length_nil,
    Prog.run_all_cons, Prog.run_all_nil, Prog.run_each_nil, hwin, Prog.run_when_false, Bool.false_eq_true, if_false,
    List.take_of_length_le hres, Nat.succ_le_succ_iff]

/-- The cells of a first pass that lie outside the tolerance, with their targets and their read-backs. -/
def firstBad (s : State) (g : Nat) (cells : List (Nat × Nat × Int)) : List ((Nat × Nat × Int) × Int) :=
  let tol : Int := 2 * ((s.fld (pgWell g) R.well_LOADCFG_VTOL : Nat) + 1)
  cells.filterMap (fun x => match cellTarget (s.well g).levels (s.well g).spares x.1 x.2.1 with
    | some t => if decide (tol < x.2.2 - 8 * t) || decide (x.2.2 - 8 * t < -tol) then some ((x.1, x.2.1, t), x.2.2) else none
    | none => none)

theorem mem_firstBad {s : State} {g : Nat} {cells : List (Nat × Nat × Int)} {y : Nat × Nat × Int} :
    y ∈ (firstBad s g cells).map (·.1) ↔ ∃ x ∈ cells, ∃ v, cellTarget (s.well g).levels (s.well g).spares x.1 x.2.1 = some v ∧
      2 * (s.fld (pgWell g) R.well_LOADCFG_VTOL + 1) < (x.2.2 - 8 * v).natAbs ∧ y = (x.1, x.2.1, v) := by
  have hout (a : Int) (n : Nat) : (decide (2 * ((n : Int) + 1) < a) || decide (a < -(2 * ((n : Int) + 1)))) = true ↔
      2 * (n + 1) < a.natAbs := by
    simp only [Bool.or_eq_true, decide_eq_true_eq]
    omega
  simp only [firstBad, List.mem_map, List.mem_filterMap]
  constructor
  · rintro ⟨z, ⟨x, hx, hz⟩, rfl⟩
    split at hz
    · rename_i v hv
      split at hz
      · rename_i hb
        cases hz
        exact ⟨x, hx, v, hv, (hout _ _).1 hb, rfl⟩
      · contradiction
    · contradiction
  · rintro ⟨x, hx, v, hv, hb, rfl⟩
    refine ⟨((x.1, x.2.1, v), x.2.2), ⟨x, hx, ?_⟩, rfl⟩
    rw [hv]
    exact if_pos ((hout _ _).2 hb)

section
variable {s : State} {w : WellId} {l : LoadRun} {cells : List (Nat × Nat × Int)}

theorem exec_loadPassEnd (hl : (s.well w.val).load = some l) :
    (l.hold = true → exec (.loadPassEnd w cells) s = .next s) ∧
    (l.hold = false → (l.redo = true ∨ (s.hamlet (w.val / 256)).warn ≠ 0) → exec (.loadPassEnd w cells) s = .next ((modWell w.val (fun r =>
      { r with load := some { l with redo := false, hold := decide ((s.hamlet (w.val / 256)).warn ≠ 0) } })).run s)) ∧
    (l.hold = false → l.redo = false → (s.hamlet (w.val / 256)).warn = 0 →
      (cells = [] → exec (.loadPassEnd w cells) s = .next ((loadDone (w.val / 16) w.val l (l.pass + 1) []).run s)) ∧
      (l.pass = 0 → firstBad s w.val cells ≠ [] → 1 < s.fld (pgWell w.val) R.well_LOADCFG_MAX_PASS →
        exec (.loadPassEnd w cells) s = .next ((modWell w.val (fun r =>
          { r with load := some { l with pass := 1, bad := (firstBad s w.val cells).map (·.1) } })).run s))) := by
  have hexec : exec (.loadPassEnd w cells) s = execLoadPassEnd w cells s := rfl
  have hham : w.val / 16 / 16 = w.val / 256 := by omega
  simp only [hexec, execLoadPassEnd, Prog.next_eq, Prog.run_get, hl, hham]
  refine ⟨fun hh => ?_, fun hh hr => ?_, fun hh hr hw => ⟨fun hc => ?_, fun hp hb hm => ?_⟩⟩
  · rw [if_pos hh]
    rfl
  · rw [if_neg (by simp [hh]), if_pos (by simpa using hr)]
  · subst hc
    rw [if_neg (by simp [hh]), if_neg (by simp [hr, hw])]
    simp
  · rw [if_neg (by simp [hh]), if_neg (by simp [hr, hw])]
    simp only [hp]
    rw [if_neg]
    · rfl
    · simp only [if_true, List.isEmpty_iff, not_or]
      exact ⟨hb, by omega⟩

end

/-- Settles O17: by what becomes of the pass. -/
theorem loadsRun : Obligations.LoadsRun := by
  unfold Obligations.LoadsRun
  refine ⟨?starts, ?passes⟩
  case starts =>
    intro s c k w img o hstart hd hfree hloads huse hbank hmem himg
    refine leaves_orderStart hstart (startLoad_run hd hfree hloads huse hbank hmem himg) ?_ fun b => ?_
    · simp -implicitDefEqProofs [loadBegins, markStarted, modReeve, modCroft, modWell, Reeve.begun, State.reeve_eq]
    · have hfits : img % 268435456 = img := Nat.mod_eq_of_lt (decodeOrder_load_fits hd)
      refine ⟨?_, ?_, ?_, ?_, ?_, ?_, ?_, Prog.keeps (by simp +decide [loadBegins, markStarted, Prog.only_when, Touch.allows]) s⟩
      all_goals cases b
      all_goals simp -implicitDefEqProofs [loadBegins, markStarted, modReeve, modCroft, modWell, Reeve.begun, State.reeve_eq, hfits,
        MayCountHold, Counts]
  case passes =>
    intro s w cells l hl
    obtain ⟨hhold, hredo, hgoes⟩ := exec_loadPassEnd (cells := cells) hl
    refine ⟨hhold, fun hh hr => ⟨_, hredo hh hr, ?_⟩, fun hh hr hw hc hp hres hwin => ⟨_, (hgoes hh hr hw).1 hc, ?_⟩,
      fun hh hr hw hp hm hb => ⟨_, (hgoes hh hr hw).2 hp ?_ hm, ⟨_, ?_, fun y => mem_firstBad⟩, ?_⟩⟩
    · exact ⟨by simp [modWell], Prog.keeps (by simp) s⟩
    · rw [loadDone_run l hres hwin]
      have hpass : (l.pass + 1) % 4 = l.pass + 1 := Nat.mod_eq_of_lt (by omega)
      refine ⟨?_, ?_, ?_, ?_, ?_, ?_, ?_, ?_, ?_, ?_, ?_, Prog.keeps (by simp +decide [loadEnds, Prog.only_when]) s⟩
      all_goals by_cases h1 : 1 ≤ l.pass
      all_goals by_cases h2 : 2 ≤ l.pass
      all_goals simp -implicitDefEqProofs [loadEnds, dropOrder, modReeve, modCroft, modWell, Reeve.ended, State.reeve_eq, Counts, hpass, h1,
        h2, satAdd_zero]
    · obtain ⟨x, hx, v, hv, hv'⟩ := hb
      intro hn
      have hmem := mem_firstBad.2 ⟨x, hx, v, hv, hv', rfl⟩
      rw [hn] at hmem
      exact List.not_mem_nil hmem
    · simp [modWell]
    · exact Prog.keeps (by simp) s

end Sys2Proof.Machine
end

section
/-! O18: retention, trims and the plumb's timers (R80, R115, R117, R122). -/
namespace Sys2Proof.Machine

/-- Bit `i` of DUE_MASK. -/
def dueBit (i : Nat) : Fld := ⟨R.plumb_STATUS_DUE_MASK.off, R.plumb_STATUS_DUE_MASK.lo + i, 1⟩

@[simp] theorem dueBit_off (i : Nat) : (dueBit i).off = 0x048 := (rfl)

theorem dueBit_of (i : Nat) (hi : i < 16) (w : Word) : (dueBit i).of w = R.plumb_STATUS_DUE_MASK.of w / 2 ^ i % 2 := by
  simp only [dueBit, Fld.of]
  rw [Nat.pow_add, ← Nat.div_div_eq_div_mul]
  generalize w.toNat / 2 ^ 8 = x
  rw [pow_one, ← Nat.mod_mul_right_div_self x, ← Nat.mod_mul_right_div_self (x % _), ← Nat.pow_succ,
    Nat.mod_mod_of_dvd _ (Nat.pow_dvd_pow 2 (by omega : i + 1 ≤ 16))]

@[simp] theorem dueBit_insert_same {i : Nat} (hi : i < 16) (w : Word) (v : Nat) : (dueBit i).of ((dueBit i).insert w v) = v % 2 :=
  Fld.of_insert_same (dueBit i) (by simp only [dueBit]; omega) w v

@[simp] theorem of_insert_dueBit {i : Nat} {f : Fld} (hi : i < 16) (hf : f.lo + f.width ≤ 8) (w : Word) (v : Nat) :
    f.of ((dueBit i).insert w v) = f.of w :=
  Fld.of_insert_disjoint (dueBit i) f (by simp only [dueBit]; omega) (.inr (by simp only [dueBit]; omega)) w v

theorem dueBit_insert_other {i j : Nat} (hi : i < 16) (hij : i ≠ j) (w : Word) (v : Nat) :
    (dueBit j).of ((dueBit i).insert w v) = (dueBit j).of w :=
  Fld.of_insert_disjoint (dueBit i) (dueBit j) (by simp only [dueBit]; omega) (by simp only [dueBit]; omega) w v

/-- A mask whose sixteen bits are set. -/
theorem dueMask_full {w : Word} (h : ∀ i < 16, (dueBit i).of w = 1) : R.plumb_STATUS_DUE_MASK.of w = 0xFFFF := by
  have hlt : R.plumb_STATUS_DUE_MASK.of w < 2 ^ 16 := Fld.of_lt _ w
  refine Nat.eq_of_testBit_eq fun k => ?_
  by_cases hk : k < 16
  · have := h k hk
    rw [dueBit_of k hk] at this
    rw [Nat.testBit_eq_decide_div_mod_eq, this]
    interval_cases k <;> rfl
  · rw [Nat.testBit_lt_two_pow (lt_of_lt_of_le hlt (Nat.pow_le_pow_right (by omega) (by omega))),
      Nat.testBit_lt_two_pow (lt_of_lt_of_le (by decide : 0xFFFF < 2 ^ 16) (Nat.pow_le_pow_right (by omega) (by omega)))]

/-- OVERDUE of a well rises: a change is counted and raised. -/
def overdueRises (s : State) (g : Nat) : Prog := .all [
  Prog.when (!s.bit (pgWell g) R.well_CAL_STATUS_OVERDUE) (.all [bump (pgWell g) R.well_OVERDUE_CNT,
    Prog.when (!s.underReset (pgWell g)) (setFld (pgWell g) R.CRIER_LINE_RAISED 1)]),
  setBit (pgWell g) R.well_CAL_STATUS_OVERDUE true]

theorem raiseLine_run_eq (p : Page) (s : State) :
    (raiseLine p).run s = (Prog.when (!s.underReset p) (setFld p R.CRIER_LINE_RAISED 1)).run s := by
  cases h : s.underReset p <;> simp only [raiseLine, Prog.run_get, h] <;> rfl

theorem showOverdue_run {s : State} {g : Nat} (h : ((s.well g).overWindow || (s.well g).overSound) = true) :
    (showOverdue g).run s = (overdueRises s g).run s := by
  cases ho : s.bit (pgWell g) R.well_CAL_STATUS_OVERDUE
  · simp only [showOverdue, overdueRises, Prog.run_get, h, ho, Bool.not_false, Bool.and_self, Prog.run_when_true, Prog.run_all_cons,
      raiseLine_run_eq]
    rfl
  · simp only [showOverdue, overdueRises, Prog.run_get, h, ho, Bool.not_true, Bool.and_false, Prog.run_when_false, Prog.run_all_cons]

theorem setOverWindow_run (g : Nat) (s : State) : (setOverWindow g true).run s =
    (Prog.all [modWell g (fun r => { r with overWindow := true }), overdueRises s g]).run s := by
  simp only [setOverWindow, Prog.run_all_cons, Prog.run_all_nil]
  rw [showOverdue_run (by simp [modWell])]
  rfl

theorem setOverSound_run (g : Nat) (s : State) : (setOverSound g true).run s =
    (Prog.all [modWell g (fun r => { r with overSound := true }), overdueRises s g]).run s := by
  simp only [setOverSound, Prog.run_all_cons, Prog.run_all_nil]
  rw [showOverdue_run (by simp [modWell])]
  rfl

/-- A well reads due, and the plumb's mask shows it. -/
def dueShows (g : Nat) : Prog := .all [
  setBit (pgWell g) R.well_CAL_STATUS_DUE true, setBit (pgPlumb (g / 16)) (dueBit (g % 16)) true]

theorem showDue_run {s : State} {g : Nat} (h : (s.well g).due = true ∨ s.bit (pgPlumb (g / 16)) R.plumb_STATUS_TEMP_STALE = true) :
    (showDue g).run s = (dueShows g).run s := by
  have hdue : ((s.well g).due || s.tempMet g (s.fld (pgPlumb (g / 16)) R.plumb_PLUMBCFG_CAL_DT)) = true := by
    rcases h with h | h <;> simp [h, State.tempMet]
  simp only [showDue, Prog.run_get, hdue, dueShows]
  rfl

theorem dueShows_stale (g : Nat) (s : State) :
    ((dueShows g).run s).bit (pgPlumb (g / 16)) R.plumb_STATUS_TEMP_STALE = s.bit (pgPlumb (g / 16)) R.plumb_STATUS_TEMP_STALE := by
  have hg : g % 16 < 16 := Nat.mod_lt _ (by decide)
  simp -implicitDefEqProofs [dueShows, State.bit, hg]

/-- The well with its window overdue. -/
def Well.late (r : Well) : Well := { r with overWindow := true }

@[simp] theorem Well.late_late (r : Well) : r.late.late = r.late := rfl

/-- What a Tj too old does to a well of the croft. -/
theorem tempSeen_run {s : State} {g : Nat} (h : s.bit (pgPlumb (g / 16)) R.plumb_STATUS_TEMP_STALE = true) :
    (tempSeen g).run s = (Prog.all [modWell g Well.late, overdueRises ((dueShows g).run s) g]).run ((dueShows g).run s) := by
  have hmet (l : Nat) : ((dueShows g).run s).tempMet g l = true := by simp only [State.tempMet, dueShows_stale, h, Bool.true_or]
  simp only [tempSeen, Prog.run_all_cons, Prog.run_all_nil, Prog.run_get, showDue_run (.inr h), hmet, Prog.run_when_true, setOverWindow_run]
  rfl

theorem overdueRises_run (g : Nat) (s : State) :
    let t := (overdueRises s g).run s
    t.bit (pgWell g) R.well_CAL_STATUS_OVERDUE = true ∧ t.well g = s.well g ∧
    Counts s t (pgWell g) R.well_OVERDUE_CNT (if s.bit (pgWell g) R.well_CAL_STATUS_OVERDUE then 0 else 1) ∧
    (s.bit (pgWell g) R.well_CAL_STATUS_OVERDUE = false → s.underReset (pgWell g) = false →
      t.bit (pgWell g) R.CRIER_LINE_RAISED = true) ∧
    t.bit (pgWell g) R.well_CAL_STATUS_DUE = s.bit (pgWell g) R.well_CAL_STATUS_DUE := by
  cases ho : s.bit (pgWell g) R.well_CAL_STATUS_OVERDUE <;> cases hr : s.underReset (pgWell g)
  all_goals
    refine ⟨?_, ?_, ?_, ?_, ?_⟩
    all_goals simp -implicitDefEqProofs [overdueRises, ho, hr, Counts, satAdd_zero]
    all_goals simp -implicitDefEqProofs [State.bit]

theorem dueShows_run (g : Nat) (s : State) :
    let t := (dueShows g).run s
    t.bit (pgWell g) R.well_CAL_STATUS_DUE = true ∧ t.bit (pgPlumb (g / 16)) (dueBit (g % 16)) = true ∧ t.well g = s.well g := by
  have hg : g % 16 < 16 := Nat.mod_lt _ (by decide)
  refine ⟨?_, ?_, ?_⟩
  all_goals simp -implicitDefEqProofs [dueShows, hg]

/-- The other wells of the croft read as before. -/
theorem dueShows_others {k : Nat} (hk : k < 16) {c : Nat} (s : State) {i : Nat} (hik : k ≠ i) :
    let t := (dueShows (c * 16 + k)).run s
    t.reg (pgWell (c * 16 + i)) R.well_CAL_STATUS_DUE.off = s.reg (pgWell (c * 16 + i)) R.well_CAL_STATUS_DUE.off ∧
    t.bit (pgPlumb c) (dueBit i) = s.bit (pgPlumb c) (dueBit i) ∧ t.well (c * 16 + i) = s.well (c * 16 + i) := by
  have hdiv : (c * 16 + k) / 16 = c := by omega
  have hmod : (c * 16 + k) % 16 = k := by omega
  refine ⟨?_, ?_, ?_⟩
  all_goals simp -implicitDefEqProofs [dueShows, hdiv, hmod, hik, hk, State.bit, dueBit_insert_other]

theorem not_theRegs_apart {p q : Page} {fs : List Fld} {o : Nat} (h : ∀ f ∈ fs, apart p o q f.off) : ¬ theRegs q fs (p.base + o) :=
  fun ⟨f, hf, e⟩ => apart_ne (h f hf) e

theorem setDue_run (g : Nat) (s : State) :
    (setDue g true).run s = (dueShows g).run ((modWell g (fun r => { r with due := true })).run s) := by
  rw [setDue, Prog.run_all_cons, Prog.run_all_cons, Prog.run_all_nil, showDue_run (.inl (by simp [modWell]))]

theorem dueBit_one {i : Nat} {s : State} {p : Page} (h : s.bit p (dueBit i) = true) : (dueBit i).of (s.reg p 0x048) = 1 := by
  have hne : (dueBit i).of (s.reg p 0x048) ≠ 0 := bne_iff_ne.1 h
  have hlt : (dueBit i).of (s.reg p 0x048) < 2 ^ 1 := Fld.of_lt _ _
  omega

/-- Well `i` of croft `c` has met the temperature condition, and reads so. -/
def TempOld (s : State) (c i : Nat) : Prop :=
  s.bit (pgWell (c * 16 + i)) R.well_CAL_STATUS_DUE = true ∧ s.bit (pgWell (c * 16 + i)) R.well_CAL_STATUS_OVERDUE = true ∧
  s.bit (pgPlumb c) (dueBit i) = true

theorem overdue_facts {s : State} {g : Nat} {p : Prog} {f : Well → Well}
    (hp : p.run s = (Prog.all [modWell g f, overdueRises s g]).run s) :
    (p.run s).bit (pgWell g) R.well_CAL_STATUS_OVERDUE = true ∧ (p.run s).well g = f (s.well g) ∧
    Counts s (p.run s) (pgWell g) R.well_OVERDUE_CNT (if s.bit (pgWell g) R.well_CAL_STATUS_OVERDUE then 0 else 1) ∧
    (s.bit (pgWell g) R.well_CAL_STATUS_OVERDUE = false → s.underReset (pgWell g) = false →
      (p.run s).bit (pgWell g) R.CRIER_LINE_RAISED = true) ∧
    (p.run s).bit (pgWell g) R.well_CAL_STATUS_DUE = s.bit (pgWell g) R.well_CAL_STATUS_DUE := by
  obtain ⟨hover, hwell, hcount, hline, hdue⟩ := overdueRises_run g ((modWell g f).run s)
  have hrises : overdueRises ((modWell g f).run s) g = overdueRises s g := rfl
  rw [hrises] at hover hwell hcount hline hdue
  simp only [hp, Prog.run_all_cons, Prog.run_all_nil]
  exact ⟨hover, hwell.trans (by simp [modWell]), hcount, hline, hdue⟩

/-- What an overdue well may change. -/
def overdueTouch (g : Nat) : Touch :=
  { regs := theRegs (pgWell g) [R.well_CAL_STATUS_OVERDUE, R.well_OVERDUE_CNT, R.CRIER_LINE_RAISED], wells := (· = g) }

theorem tempSeen_facts {s : State} {c k : Nat} (hk : k < 16) (h : s.bit (pgPlumb c) R.plumb_STATUS_TEMP_STALE = true) :
    let t := (tempSeen (c * 16 + k)).run s
    t.bit (pgPlumb c) R.plumb_STATUS_TEMP_STALE = true ∧ (∀ i < 16, i = k ∨ TempOld s c i → TempOld t c i) ∧
    (∀ i < 16, t.well (c * 16 + i) = if i = k then (s.well (c * 16 + i)).late else s.well (c * 16 + i)) := by
  have hdiv : (c * 16 + k) / 16 = c := by omega
  have hmod : (c * 16 + k) % 16 = k := by omega
  have hseen := tempSeen_run (s := s) (g := c * 16 + k) (by rwa [hdiv])
  obtain ⟨hdue, hmask, hwell⟩ := dueShows_run (c * 16 + k) s
  have hstale := dueShows_stale (c * 16 + k) s
  have hothers {i : Nat} := dueShows_others hk (c := c) s (i := i)
  rw [hdiv, hmod] at hmask
  rw [hdiv] at hstale
  generalize (dueShows (c * 16 + k)).run s = u at *
  obtain ⟨hover, hlate, -, -, hdue'⟩ := overdue_facts (p := .all [modWell (c * 16 + k) Well.late, overdueRises u (c * 16 + k)]) rfl
  have hkeep : Keeps (overdueTouch (c * 16 + k)) u ((tempSeen (c * 16 + k)).run s) := by
    rw [hseen]
    exact Prog.keeps (by simp +decide [overdueRises, Prog.only_when, overdueTouch]) _
  rw [← hseen] at hover hlate hdue'
  generalize (tempSeen (c * 16 + k)).run s = t at *
  have hplumb (f : Fld) (hf : f.off < 0x1000) : t.bit (pgPlumb c) f = u.bit (pgPlumb c) f :=
    hkeep.bit_eq (not_theRegs_apart (by simp [hf]))
  have hwells {i : Nat} (hik : k ≠ i) (f : Fld) (hf : f.off < 0x1000) : t.bit (pgWell (c * 16 + i)) f = u.bit (pgWell (c * 16 + i)) f :=
    hkeep.bit_eq (not_theRegs_apart (by simp [hf, Ne.symm hik]))
  refine ⟨(hplumb _ (by decide)).trans (hstale.trans h), fun i hi hold => ?_, fun i hi => ?_⟩
  · by_cases hik : k = i
    · subst hik
      exact ⟨hdue'.trans hdue, hover, (hplumb _ (by simp)).trans hmask⟩
    · obtain ⟨hreg, hbit, -⟩ := hothers hik
      obtain ⟨hd, ho, hm⟩ := hold.resolve_left (Ne.symm hik)
      refine ⟨(hwells hik _ (by decide)).trans ?_, (hwells hik _ (by decide)).trans ?_, (hplumb _ (by simp)).trans (hbit.trans hm)⟩
      · exact (congrArg (fun w => R.well_CAL_STATUS_DUE.of w != 0) hreg).trans hd
      · exact (congrArg (fun w => R.well_CAL_STATUS_OVERDUE.of w != 0) hreg).trans ho
  · by_cases hik : k = i
    · subst hik
      rw [if_pos rfl, hlate, hwell]
    · rw [if_neg (Ne.symm hik), hkeep.wells _ (by simp [overdueTouch]; omega), (hothers hik).2.2]

theorem tempSeen_each {c : Nat} (l : List Nat) (hl : ∀ k ∈ l, k < 16) (s : State)
    (h : s.bit (pgPlumb c) R.plumb_STATUS_TEMP_STALE = true) :
    let t := (Prog.each l (fun k => tempSeen (c * 16 + k))).run s
    t.bit (pgPlumb c) R.plumb_STATUS_TEMP_STALE = true ∧ (∀ i < 16, i ∈ l ∨ TempOld s c i → TempOld t c i) ∧
    (∀ i < 16, t.well (c * 16 + i) = if i ∈ l then (s.well (c * 16 + i)).late else s.well (c * 16 + i)) := by
  induction l generalizing s with
  | nil => simpa using h
  | cons k l ih =>
    obtain ⟨hstale, hold, hwell⟩ := tempSeen_facts (hl k (List.mem_cons_self ..)) h
    obtain ⟨hstale', hold', hwell'⟩ := ih (fun k hk => hl k (List.mem_cons_of_mem _ hk)) _ hstale
    rw [Prog.run_each_cons]
    refine ⟨hstale', fun i hi h => hold' i hi ?_, fun i hi => ?_⟩
    · rcases h with h | h
      · rcases List.mem_cons.1 h with h | h
        · exact .inr (hold i hi (.inl h))
        · exact .inl h
      · exact .inr (hold i hi (.inr h))
    · rw [hwell' i hi, hwell i hi]
      by_cases hik : i = k <;> by_cases him : i ∈ l <;> simp [hik, him]

/-- The frame that a step of `tempSeen` on a well needs. -/
theorem tempSeen_allows {T : Touch} {g : Nat} (hwell : ∀ f ∈ [R.well_CAL_STATUS_DUE, R.well_OVERDUE_CNT, R.CRIER_LINE_RAISED],
    onReg T.regs (pgWell g) f.off) (hplumb : onReg T.regs (pgPlumb (g / 16)) R.plumb_STATUS_TEMP_STALE.off) (hw : T.wells g) :
    (tempSeen g).Only T.allows := by
  simp only [List.forall_mem_cons, List.not_mem_nil, false_implies, implies_true, and_true] at hwell
  obtain ⟨hdue, hcnt, hline⟩ := hwell
  simp [tempSeen, showDue, setOverWindow, showOverdue, Prog.only_when, hdue, hcnt, hline, hplumb, hw]

theorem onReg_someRegs {l : List (Page × List Fld)} {p : Page} {fs : List Fld} {f : Fld} (h : (p, fs) ∈ l) (hf : f ∈ fs) :
    onReg (someRegs l) p f.off := ⟨_, h, f, hf, rfl⟩

/-- What a Tj too old may change: some registers of the plumb, and DUE, OVERDUE and its count of the croft's wells. -/
def tempStaleTouch (c : Nat) (fs : List Fld) : Touch :=
  { regs := someRegs ((pgPlumb c, fs) :: (List.range 16).map (fun i =>
      (pgWell (c * 16 + i), [R.well_CAL_STATUS_DUE, R.well_OVERDUE_CNT, R.CRIER_LINE_RAISED]))), wells := fun g => g / 16 = c }

theorem tempSeen_each_keeps {fs : List Fld} (hfs : R.plumb_STATUS_TEMP_STALE ∈ fs) (c : Nat) (s : State) :
    Keeps (tempStaleTouch c fs) s ((Prog.each (List.range 16) (fun k => tempSeen (c * 16 + k))).run s) := by
  refine Prog.keeps ((Prog.only_each ..).2 fun k hk => ?_) s
  have hk' := List.mem_range.1 hk
  have hdiv : (c * 16 + k) / 16 = c := by omega
  refine tempSeen_allows (fun f hf => onReg_someRegs (List.mem_cons_of_mem _ (List.mem_map_of_mem hk)) hf) ?_ hdiv
  rw [hdiv]
  exact onReg_someRegs (List.mem_cons_self ..) hfs

theorem not_tempStaleTouch {c o : Nat} {fs : List Fld} (ho : o < 0x1000) (h : o ∉ fs.map Fld.off) :
    ¬ (tempStaleTouch c fs).regs ((pgPlumb c).base + o) := by
  rintro ⟨x, hx, hr⟩
  rcases List.mem_cons.1 hx with rfl | hx
  · exact not_theRegs_offset h _ hr
  · obtain ⟨i, -, rfl⟩ := List.mem_map.1 hx
    exact not_theRegs_apart (by simp [ho]) hr

/-- Settles O18: the timers act on one well each; a Tj too old acts on each well of the croft in turn. -/
theorem wellAndPlumbTimersAct : Obligations.WellAndPlumbTimersAct := by
  unfold Obligations.WellAndPlumbTimersAct
  refine ⟨⟨?retention, ?trims⟩, ?due, ?overdue, ?stale⟩
  case retention =>
    intro s w
    refine Leaves.of_next (p := .get _) ?_
    by_cases hl : s.bit (pgWell w.val) R.well_STATUS_LOADED = true
    · simp only [hl, if_true, Prog.run_get, Prog.run_when_true]
      refine ⟨?_, ?_, Prog.keeps (by simp +decide) s⟩
      all_goals simp -implicitDefEqProofs
      simpa [State.bit] using hl
    · rw [Bool.not_eq_true] at hl
      simp only [hl, Bool.false_eq_true, if_false, Prog.run_get, Prog.run_when_false]
  case trims =>
    intro s w ts hts
    refine Leaves.of_next (p := .get _) ?_
    simp only [Prog.run_get, State.drawing]
    split
    · rfl
    · simp only [commitTrims, Prog.run_get, hts]
      exact ⟨by simp [modWell], Prog.keeps (by simp) s⟩
  case due =>
    intro s w
    refine Leaves.of_next (p := setDue w.val true) ?_
    obtain ⟨hdue, hmask, hwell⟩ := dueShows_run w.val ((modWell w.val (fun r => { r with due := true })).run s)
    rw [setDue_run]
    refine ⟨hdue, ?_, ?_, ?_⟩
    · rw [State.fld_eq, ← dueBit_of _ (Nat.mod_lt _ (by decide))]
      exact dueBit_one hmask
    · rw [hwell]
      simp [modWell]
    · rw [← setDue_run]
      exact Prog.keeps (by simp +decide [setDue, showDue]) s
  case overdue =>
    intro s w sound
    refine Leaves.of_next (p := if sound then setOverSound w.val true else setOverWindow w.val true) ?_
    have hkeep := Prog.keeps (T := { regs := theRegs (pgWell w.val) [R.well_CAL_STATUS_OVERDUE, R.well_OVERDUE_CNT, R.CRIER_LINE_RAISED], wells := (· = w.val) })
      (p := if sound then setOverSound w.val true else setOverWindow w.val true)
      (by cases sound <;> simp +decide [setOverSound, setOverWindow, showOverdue, Prog.only_when]) s
    cases sound
    · obtain ⟨hover, hwell, hcount, hline, -⟩ := overdue_facts (setOverWindow_run w.val s)
      exact ⟨hover, hwell, hcount, hline, hkeep⟩
    · obtain ⟨hover, hwell, hcount, hline, -⟩ := overdue_facts (setOverSound_run w.val s)
      exact ⟨hover, hwell, hcount, hline, hkeep⟩
  case stale =>
    intro s c
    refine Leaves.of_next (p := .get _) ?_
    simp only [Prog.run_get, Prog.run_all_cons, Prog.run_all_nil]
    set u := (setFld (pgPlumb c.val) R.plumb_STATUS_TEMP_STALE 1).run ((Prog.when (!s.bit (pgPlumb c.val) R.plumb_STATUS_TEMP_STALE)
      (bump (pgPlumb c.val) R.plumb_TEMP_STALE_CNT)).run s) with hu
    have hstale : u.bit (pgPlumb c.val) R.plumb_STATUS_TEMP_STALE = true := by simp [hu]
    have hcount : Counts s u (pgPlumb c.val) R.plumb_TEMP_STALE_CNT (if s.bit (pgPlumb c.val) R.plumb_STATUS_TEMP_STALE then 0 else 1) := by
      cases hb : s.bit (pgPlumb c.val) R.plumb_STATUS_TEMP_STALE <;> simp [hu, hb, Counts, satAdd_zero]
    have hwell : ∀ g, u.well g = s.well g := fun g => by
      cases hb : s.bit (pgPlumb c.val) R.plumb_STATUS_TEMP_STALE <;> simp [hu, hb]
    have hkeep : Keeps (tempStaleTouch c.val [R.plumb_STATUS_TEMP_STALE, R.plumb_TEMP_STALE_CNT]) s u :=
      (Prog.keeps (by simp [Prog.only_when, tempStaleTouch]) s).trans (Prog.keeps (by simp [tempStaleTouch]) _)
    clear_value u
    obtain ⟨hstale', hold, hwell'⟩ := tempSeen_each (List.range 16) (fun k hk => List.mem_range.1 hk) u hstale
    have hold' (i : Nat) (hi : i < 16) := hold i hi (.inl (List.mem_range.2 hi))
    refine ⟨hstale', dueMask_full fun i hi => dueBit_one (hold' i hi).2.2, ?_, fun i hi => ⟨(hold' i hi).1, (hold' i hi).2.1, ?_⟩,
      hkeep.trans (tempSeen_each_keeps (by simp) c.val u)⟩
    · exact ((tempSeen_each_keeps (List.mem_singleton_self _) c.val u).reg_eq (not_tempStaleTouch (by decide) (by decide))).trans hcount
    · rw [hwell' i hi, if_pos (List.mem_range.2 hi), hwell]
      rfl

end Sys2Proof.Machine
end

section
/-! SUPPORT. The runs of a croft: what a change of one leaves to be found. -/
namespace Sys2Proof.Machine

theorem find?_map_of_eq {α : Type} {p : α → Bool} {h : α → α} (hp : ∀ x, p (h x) = p x) (l : List α) :
    (l.map h).find? p = (l.find? p).map h := by
  rw [List.find?_map]
  exact congrArg _ (congrArg (List.find? · l) (funext hp))

/-- A replacement puts one element wherever it changes the list, and changes the element found. -/
theorem find?_map_replace {α : Type} {p q : α → Bool} {y : α} (hy : p y = true) {l : List α} {x : α} (hx : l.find? p = some x)
    (hq : q x = true) : (l.map (fun z => if q z = true then y else z)).find? p = some y := by
  induction l with
  | nil => contradiction
  | cons z l ih =>
    rw [List.map_cons, List.find?_cons]
    by_cases hz : q z = true
    · rw [if_pos hz, hy]
    · rw [if_neg hz]
      rw [List.find?_cons] at hx
      cases hpz : p z with
      | false =>
        rw [hpz] at hx
        exact ih hx
      | true =>
        rw [hpz] at hx
        cases hx
        exact absurd hq hz

theorem runOf_leader {s : State} {w : Nat} {r : Run} (h : s.runOf w = some r) : r.leader = w % 16 :=
  eq_of_beq (List.find?_some (p := fun r : Run => r.leader == w % 16) h)

theorem modRun_croft (c serial : Nat) (f : Run → Run) (s : State) : ((modRun c serial f).run s).croft c =
    { s.croft c with runs := (s.croft c).runs.map (fun r => if r.serial = serial then f r else r) } := by simp [modRun, modCroft]

/-- A run changed is found changed. -/
theorem runOf_modRun {s : State} {w : Nat} {r : Run} (h : s.runOf w = some r) {f : Run → Run} (hf : ∀ x, (f x).args = x.args) :
    ((modRun (w / 16) r.serial f).run s).runOf w = some (f r) := by
  rw [State.runOf, modRun_croft]
  refine (find?_map_of_eq (fun x => ?_) _).trans ?_
  · split
    · rw [Run.leader, hf, Run.leader]
    · rfl
  · exact (congrArg (Option.map _) h).trans (by simp)

/-- A run put in the place of its record is found. -/
theorem runOf_putRun {s : State} {w : Nat} {r r' : Run} (h : s.runOf w = some r) (hs : r'.serial = r.serial) (ha : r'.args = r.args) :
    ((putRun (w / 16) r').run s).runOf w = some r' := by
  rw [State.runOf, putRun, modRun_croft]
  have hlead : (r'.leader == w % 16) = true := by rw [Run.leader, ha, ← runOf_leader h, Run.leader, beq_self_eq_true]
  have := find?_map_replace (p := fun r : Run => r.leader == w % 16) (q := fun x => decide (x.serial = r'.serial)) hlead h (by simp [hs])
  simpa using this

section
variable {T : Touch}

@[simp] theorem modRun_allows (c serial : Nat) (f : Run → Run) : (modRun c serial f).Only T.allows ↔ T.crofts c := modCroft_allows ..
@[simp] theorem putRun_allows (c : Nat) (r : Run) : (putRun c r).Only T.allows ↔ T.crofts c := modRun_allows ..

end

end Sys2Proof.Machine
end

section
/-! SUPPORT. One change on each of several pages. -/
namespace Sys2Proof.Machine

/-- A register apart from what a loop writes stays. -/
theorem each_reg_apart {α : Type} {l : List α} {f : α → Prog} {P : α → Page} {fs : List Fld}
    (h : ∀ x ∈ l, ∀ s, Keeps { regs := theRegs (P x) fs, mem := fun _ => True, crofts := fun _ => True, wells := fun _ => True, dev := True }
      s ((f x).run s)) {q : Page} {o : Nat} (hq : ∀ x ∈ l, ∀ g ∈ fs, apart q o (P x) g.off) (s : State) :
    ((Prog.each l f).run s).reg q o = s.reg q o := by
  induction l generalizing s with
  | nil => rfl
  | cons x l ih =>
    rw [Prog.run_each_cons, ih (fun y hy => h y (List.mem_cons_of_mem _ hy)) (fun y hy => hq y (List.mem_cons_of_mem _ hy))]
    exact (h x (List.mem_cons_self ..) s).reg_eq (not_theRegs_apart (hq x (List.mem_cons_self ..)))

/-- A counter on each of several pages advances once. -/
theorem each_bumpBy_run {α : Type} {l : List α} (hl : l.Nodup) {P : α → Page} {f : Fld} (n : α → Nat)
    (hP : ∀ x ∈ l, ∀ y ∈ l, x ≠ y → apart (P x) f.off (P y) f.off) (s : State) {x : α} (hx : x ∈ l) :
    Counts s ((Prog.each l (fun y => bumpBy (P y) f (n y))).run s) (P x) f (n x) := by
  induction l generalizing s with
  | nil => contradiction
  | cons z l ih =>
    obtain ⟨hz, hl⟩ := List.nodup_cons.1 hl
    rw [Prog.run_each_cons]
    rcases List.mem_cons.1 hx with rfl | hxl
    · refine (each_reg_apart (P := P) (fs := [f]) (fun y hy u => Prog.keeps (by simp) u) (fun y hy g hg => ?_) _).trans ?_
      · rw [List.mem_singleton.1 hg]
        exact hP _ hx _ (List.mem_cons_of_mem _ hy) fun e => hz (e ▸ hy)
      · exact State.reg_put_same rfl ..
    · refine (ih hl (fun a ha b hb => hP a (List.mem_cons_of_mem _ ha) b (List.mem_cons_of_mem _ hb)) _ hxl).trans ?_
      rw [bumpBy_run_put, State.reg_put_apart (hP z (List.mem_cons_self ..) x hx fun e => hz (e ▸ hxl))]

/-- The wells of a run are different ones. -/
theorem Run.well_ne {r : Run} (h : r.args.wells.Nodup) (c : Nat) {i j : Nat} (hi : i < r.args.wells.length) (hj : j < r.args.wells.length)
    (hij : i ≠ j) : r.well c i ≠ r.well c j := by
  simp only [Run.well, List.getD_eq_getElem _ _ hi, List.getD_eq_getElem _ _ hj]
  have : r.args.wells[i] ≠ r.args.wells[j] := fun e => hij ((List.Nodup.getElem_inj_iff h).1 e)
  omega

theorem setDrawing_bit (c : Nat) (ws : List Nat) (b : Bool) (s : State) (x : Nat) :
    ((setDrawing c ws b).run s).bit (pgWell (c * 16 + x)) R.well_STATUS_DRAWING =
      if x ∈ ws then b else s.bit (pgWell (c * 16 + x)) R.well_STATUS_DRAWING := by
  induction ws generalizing s with
  | nil => simp [setDrawing]
  | cons w ws ih =>
    rw [setDrawing, Prog.run_each_cons, ← setDrawing, ih]
    by_cases hx : x ∈ ws
    · simp [hx]
    · by_cases hw : w = x
      · cases b <;> simp [hw, hx]
      · simp [hx, hw, Ne.symm hw]

end Sys2Proof.Machine
end

section
/-! O19: draws begin (R78, R83, R85, R132, R134, R190, R249, R288). -/
namespace Sys2Proof.Machine

theorem startDraw_run {s : State} {c n a : Nat} {o : Issued} (hfree : s.wellsBusy c o.serial (s.drawArgs c a).wells = false) (hblock : s.bankColl c agEdge false [(a, 64)] = none)
    (hmem : s.intact = true) (huse : ∀ w ∈ (s.drawArgs c a).wells, s.wellUse c w / 2 % 2 = 1)
    (hchecks : firstFault (s.drawChecks c a n) = none)
    (hin : s.bankColl c agEdge false (s.regions c (s.asRead c (s.drawArgs c a).input) (s.drawArgs c a).rows (s.drawArgs c a).k) = none)
    (hout : s.bankColl c agEdge true ((List.range n).map (fun d => ((s.drawArgs c a).out + d * (s.drawArgs c a).stride, 2052))) = none) :
    (startDraw c o n a).run s = (Prog.all [markStarted c o.serial,
      modCroft c (fun k => { k with runs := k.runs ++ [{ serial := o.serial, idx := o.idx, args := s.drawArgs c a, n := n }] })]).run s := by
  have hnone : (s.drawArgs c a).wells.find? (fun w => s.wellUse c w / 2 % 2 = 0) = none := by
    rw [List.find?_eq_none]
    exact fun w hw => by simp [huse w hw]
  simp only [startDraw, Prog.run_get, hfree, Bool.false_eq_true, if_false, hblock, Prog.run_all_cons, engineReads_run hmem, hnone, hchecks,
    hin, hout, firstSome, Prog.run_all_nil]

theorem runOf_congr {s t : State} {w : Nat} (h : t.croft (w / 16) = s.croft (w / 16)) : t.runOf w = s.runOf w := by
  rw [State.runOf, State.runOf, h]

theorem runOf_mem {s : State} {w : Nat} {r : Run} (h : s.runOf w = some r) : r ∈ (s.croft (w / 16)).runs := List.mem_of_find?_eq_some h

/-- At a draw boundary the run waits for the leat queue or the escalation queue, or its draw begins. -/
def drawBoundary (s : State) (w : Nat) (r : Run) : Prog :=
  if 4 ≤ (s.croft (w / 16)).leat.length then
    Prog.when (!r.waitLeat) (.all [bump (pgMill (w / 16)) R.mill_LEAT_HOLD_CNT,
      modRun (w / 16) r.serial (fun r => { r with waitLeat := true }), leatStatus (w / 16)])
  else .all [engineReads (w / 16) 1 r.idx (s.inputRegions (w / 16) r), takeInput (w / 16) w r]

theorem exec_drawSlotStart {s : State} {w : WellId} {r : Run} (hr : s.runOf w.val = some r) :
    (r.inSlot = true ∨ s.clockRuns (w.val / 16) = false ∨ (s.hamlet (w.val / 256)).warn ≠ 0 → exec (.drawSlotStart w) s = .next s) ∧
    (r.inSlot = false → s.clockRuns (w.val / 16) = true → (s.hamlet (w.val / 256)).warn = 0 → s.underReset (pgWell w.val) = false →
      (r.live = true → exec (.drawSlotStart w) s =
        .next ((beginSlot (w.val / 16) r (s.bit (pgWell w.val) R.well_DRAWCFG_QUARTER)).run s)) ∧
      (r.live = false → (∀ i < r.args.wells.length, s.bit (pgWell (r.well (w.val / 16) i)) R.well_STATUS_LOADED = true ∧
          s.reg (pgWell (r.well (w.val / 16) i)) R.well_SCALE_FP_FP.off = s.reg (pgWell w.val) R.well_SCALE_FP_FP.off) →
        exec (.drawSlotStart w) s = .next ((drawBoundary s w.val r).run s))) := by
  have hexec : exec (.drawSlotStart w) s = execDrawSlotStart w s := rfl
  have hham : w.val / 16 / 16 = w.val / 256 := by omega
  simp only [hexec, execDrawSlotStart, Prog.next_eq, Prog.run_get, hr, hham]
  refine ⟨fun h => ?_, fun hi hc hw hu => ⟨fun hl => ?_, fun hl hwells => ?_⟩⟩
  · rw [if_pos (by rcases h with h | h | h <;> simp [h])]
    rfl
  · rw [if_neg (by simp [hi, hc, hw, hu]), if_pos hl]
  · have hloaded : (List.range r.args.wells.length).filter
        (fun i => !s.bit (pgWell (r.well (w.val / 16) i)) R.well_STATUS_LOADED) = [] := by
      simpa using fun i hi => (hwells i hi).1
    have hsame : (List.range r.args.wells.length).filter (fun i =>
        s.reg (pgWell (r.well (w.val / 16) i)) R.well_SCALE_FP_FP.off != s.reg (pgWell w.val) R.well_SCALE_FP_FP.off) = [] := by
      simpa using fun i hi => (hwells i hi).2
    rw [if_neg (by simp [hi, hc, hw, hu]), if_neg (by simp [hl]), hloaded, hsame]
    rfl

/-- The record of a run, as the start of a draw of run `r` makes it. -/
def drawBegins (s : State) (c : Nat) (r : Run) (e : Edge) (x : Run) : Run :=
  let places := List.range r.args.wells.length
  let many := places.filter (fun i => decide (8 < ((e.wells.getD i ⟨[], 0, [], []⟩).outliers).length))
  let esc := places.filter (fun i => s.escBefore (r.well c i) (e.wells.getD i ⟨[], 0, [], []⟩))
  { x with
    live := true, slice := 0, rep := 0, nrep := 1, quarter := none, quartering := [], part := []
    cur := places.map (fun _ => noCodes), past := [], edge := e
    status := (if e.wells.any (fun x => x.lost != 0) then 16 else 0) + (if e.nan then 32 else 0) + (if e.zero then 64 else 0) +
      (if many.isEmpty then 0 else 128) + (if esc.isEmpty then 0 else 256)
    esc := esc, conf := [], held := [], stale := [], nanSeen := x.nanSeen || e.nan, waitLeat := false, waitEsc := false }

/-- A frame that keeps one register of a page. -/
def allBut (q : Page) (o : Nat) : Touch :=
  { regs := fun a => a ≠ q.base + o, mem := fun _ => True, crofts := fun _ => True, wells := fun _ => True, dev := True, seq := True }

@[simp] theorem onReg_allBut {q p : Page} {o o' : Nat} (h : apart p o' q o) : onReg (allBut q o).regs p o' := apart_ne h

theorem commitTrims_allows {T : Touch} {g : Nat} (h : T.wells g) : (commitTrims g).Only T.allows := by
  intro s
  show Prog.Only _ (match (s.well g).shadow with | some _ => _ | none => _)
  split
  · exact (modWell_allows ..).2 h
  · trivial

/-- What the start of a draw counts, on its wells and its croft. -/
def drawCounts (c : Nat) (r : Run) (e : Edge) : Prog :=
  let places := List.range r.args.wells.length
  let many := places.filter (fun i => decide (8 < ((e.wells.getD i ⟨[], 0, [], []⟩).outliers).length))
  .all [
    Prog.each places (fun i => bumpBy (pgWell (r.well c i)) R.well_EDGE_LOSS_CNT (e.wells.getD i ⟨[], 0, [], []⟩).lost),
    Prog.each many (fun i => bump (pgWell (r.well c i)) R.well_LEAT_OVF_CNT),
    Prog.when e.nan (.all [bump (pgWell (r.well c 0)) R.well_NONFIN_CNT, countNanIn c r.nanSeen true]),
    Prog.when e.zero (bump (pgWell (r.well c 0)) R.well_ZERO_IN_CNT)]

theorem beginDraw_run_eq (c : Nat) (r : Run) (e : Edge) (s : State) : (beginDraw c r e).run s =
    (leatStatus c).run ((modRun c r.serial (drawBegins s c r e)).run ((drawCounts c r e).run
      ((setDrawing c r.args.wells true).run ((Prog.each (List.range r.args.wells.length) (fun i => commitTrims (r.well c i))).run s)))) := by
  simp only [beginDraw, drawCounts, Prog.run_get, Prog.run_all_cons, Prog.run_all_nil]
  rfl

theorem drawCounts_bit (c : Nat) (r : Run) (e : Edge) (u : State) (g : Nat) :
    ((drawCounts c r e).run u).bit (pgWell g) R.well_STATUS_DRAWING = u.bit (pgWell g) R.well_STATUS_DRAWING :=
  Keeps.bit_eq (T := allBut (pgWell g) R.well_STATUS_DRAWING.off)
    (Prog.keeps (by simp [drawCounts, countNanIn, Prog.only_when]) u) (by simp [allBut])

/-- A draw that begins takes the run's record and its wells read DRAWING. -/
theorem beginDraw_run {s : State} {w : Nat} {r : Run} (hr : s.runOf w = some r) (e : Edge) :
    let t := (beginDraw (w / 16) r e).run s
    t.runOf w = some (drawBegins s (w / 16) r e r) ∧
    ∀ x ∈ r.args.wells, t.bit (pgWell (w / 16 * 16 + x)) R.well_STATUS_DRAWING = true := by
  have hcounts (u : State) : ((drawCounts (w / 16) r e).run u).croft (w / 16) = u.croft (w / 16) :=
    (Prog.keeps (T := { regs := fun _ => True }) (by simp [drawCounts, countNanIn, Prog.only_when, onReg]) u).crofts _ id
  have hdrawing (u : State) : ((setDrawing (w / 16) r.args.wells true).run u).croft (w / 16) = u.croft (w / 16) :=
    (Prog.keeps (T := { regs := fun _ => True }) (by simp [setDrawing, onReg]) u).crofts _ id
  have htrims (l : List Nat) (u : State) : ((Prog.each l (fun i => commitTrims (r.well (w / 16) i))).run u).croft (w / 16) =
      u.croft (w / 16) :=
    (Prog.keeps (T := { wells := fun _ => True }) ((Prog.only_each ..).2 fun _ _ => commitTrims_allows trivial) u).crofts _ id
  have hleat (u : State) : ((leatStatus (w / 16)).run u).croft (w / 16) = u.croft (w / 16) := by simp -implicitDefEqProofs [leatStatus]
  rw [beginDraw_run_eq]
  refine ⟨(runOf_congr (hleat _)).trans (runOf_modRun ?_ fun _ => rfl), fun x hx => ?_⟩
  · exact (runOf_congr (((hcounts _).trans (hdrawing _)).trans (htrims _ _))).trans hr
  · have hlast (u : State) : ((leatStatus (w / 16)).run ((modRun (w / 16) r.serial (drawBegins s (w / 16) r e)).run u)).bit
        (pgWell (w / 16 * 16 + x)) R.well_STATUS_DRAWING = u.bit (pgWell (w / 16 * 16 + x)) R.well_STATUS_DRAWING := by
      simp -implicitDefEqProofs [leatStatus, modRun, modCroft]
    rw [hlast, drawCounts_bit, setDrawing_bit, if_pos hx]

/-- Settles O19: an order starts; a slot begins where nothing holds the run, at a boundary with the draw's inputs. -/
theorem drawsBegin : Obligations.DrawsBegin := by
  unfold Obligations.DrawsBegin
  refine ⟨?starts, ?slots⟩
  case starts =>
    intro s c k n a o hstart hd hfree hblock hmem huse hchecks hin hout
    have hstartOrder : (startOrder c.val o).run s = (startDraw c.val o n a).run s := by rw [startOrder, hd]
    refine leaves_orderStart hstart (hstartOrder.trans (startDraw_run hfree hblock hmem huse hchecks hin hout)) ?_ fun b => ?_
    · simp -implicitDefEqProofs [markStarted, modReeve, modCroft, Reeve.begun, State.reeve_eq]
    · refine ⟨?_, ?_, Prog.keeps (by simp +decide [markStarted, Prog.only_when, Touch.allows]) s⟩
      all_goals cases b
      all_goals simp -implicitDefEqProofs [markStarted, modReeve, modCroft, Reeve.begun, State.reeve_eq, MayCountHold, Counts]
  case slots =>
    intro s w r hr
    obtain ⟨hheld, hgoes⟩ := exec_drawSlotStart hr
    refine ⟨hheld, fun hi hc hw hu => ⟨fun hl => ⟨_, (hgoes hi hc hw hu).1 hl, ?_, ?_⟩, fun hl hwells => ⟨fun hfull hwait =>
      ⟨_, (hgoes hi hc hw hu).2 hl hwells, ?_⟩, fun hroom hmem hpeel => ⟨fun hdue hwait => ⟨_, (hgoes hi hc hw hu).2 hl hwells, ?_⟩,
      fun hdue => ⟨_, (hgoes hi hc hw hu).2 hl hwells, ?_⟩⟩⟩⟩⟩
    · exact runOf_modRun hr fun _ => rfl
    · exact Prog.keeps (by simp [beginSlot]) s
    · simp only [drawBoundary, if_pos hfull, hwait, Bool.not_false, Prog.run_when_true, Prog.run_all_cons, Prog.run_all_nil]
      have hrun := runOf_modRun (s := (bump (pgMill (w.val / 16)) R.mill_LEAT_HOLD_CNT).run s) (f := fun r => { r with waitLeat := true }) hr
        fun _ => rfl
      have hany : ((s.croft (w.val / 16)).runs.map (fun x => if x.serial = r.serial then { x with waitLeat := true } else x)).any
          (·.waitLeat) = true :=
        List.any_eq_true.2 ⟨_, List.mem_map_of_mem (runOf_mem hr), by simp⟩
      refine ⟨(runOf_congr ?_).trans hrun, ?_, ?_, ?_⟩
      · simp -implicitDefEqProofs [leatStatus]
      · simp -implicitDefEqProofs [leatStatus, modRun, modCroft, Counts]
      · simp -implicitDefEqProofs [leatStatus, modRun, modCroft, hany]
      · exact (Prog.keeps (by simp) s).trans ((Prog.keeps (by simp) _).trans (Prog.keeps (by simp [leatStatus]) _))
    · have hfew : ¬ 4 ≤ (s.croft (w.val / 16)).leat.length := by omega
      have hmany : 16 < (s.croft (w.val / 16)).escs.length + s.partsDue (w.val / 16) + s.newParts (w.val / 16) r
        (s.edgeOf (w.val / 16) r.args (r.args.t0 + r.draw) (s.fld (pgWell w.val) R.well_DRAWCFG_SLICES)) := hdue
      simp only [drawBoundary, if_neg hfew, Prog.run_all_cons, engineReads_run hmem, takeInput, Prog.run_get, hpeel, if_pos hmany, hwait,
        Bool.not_false, Prog.run_when_true, Prog.run_all_nil]
      refine ⟨?_, ?_, ?_⟩
      · exact runOf_modRun (s := (bump (pgWell w.val) R.well_ESC_HOLD_CNT).run s) hr fun _ => rfl
      · simp -implicitDefEqProofs [modRun, modCroft, Counts]
      · exact (Prog.keeps (by simp) s).trans (Prog.keeps (by simp) _)
    · have hfew : ¬ 4 ≤ (s.croft (w.val / 16)).leat.length := by omega
      have hmany : ¬ 16 < (s.croft (w.val / 16)).escs.length + s.partsDue (w.val / 16) + s.newParts (w.val / 16) r
        (s.edgeOf (w.val / 16) r.args (r.args.t0 + r.draw) (s.fld (pgWell w.val) R.well_DRAWCFG_SLICES)) := not_lt.2 hdue
      obtain ⟨hrun, hdrawing⟩ := beginDraw_run hr (s.edgeOf (w.val / 16) r.args (r.args.t0 + r.draw) (s.fld (pgWell w.val) R.well_DRAWCFG_SLICES))
      simp only [drawBoundary, if_neg hfew, Prog.run_all_cons, engineReads_run hmem, takeInput, Prog.run_get, hpeel, if_neg hmany, hrun,
        Prog.run_all_nil]
      generalize (beginDraw (w.val / 16) r _).run s = u at *
      exact ⟨_, runOf_modRun (f := fun x => _) hrun fun _ => rfl, rfl, rfl, rfl, rfl, rfl, rfl, rfl, hdrawing⟩

end Sys2Proof.Machine
end

section
/-! SUPPORT. One program on each of several wells. -/
namespace Sys2Proof.Machine

/-- What a program on well `g` may change: some registers of its page, its record, and what the device is told. -/
def wellTouch (g : Nat) (fs : List Fld) : Touch :=
  { regs := theRegs (pgWell g) fs, wells := (· = g), dev := True, seq := True }

/-- Two states agree on some registers of well `g` and on its record. -/
def SameWell (g : Nat) (fs : List Fld) (s t : State) : Prop :=
  (∀ f ∈ fs, t.reg (pgWell g) f.off = s.reg (pgWell g) f.off) ∧ t.well g = s.well g

theorem each_wells_apart {α : Type} {l : List α} {f : α → Prog} {W : α → Nat} {fs : List Fld}
    (hf : ∀ x ∈ l, ∀ s, Keeps (wellTouch (W x) fs) s ((f x).run s)) (hfs : ∀ k ∈ fs, k.off < 0x1000) {g : Nat} (hg : ∀ x ∈ l, W x ≠ g)
    (s : State) : SameWell g fs s ((Prog.each l f).run s) := by
  induction l generalizing s with
  | nil => exact ⟨fun _ _ => rfl, rfl⟩
  | cons x l ih =>
    obtain ⟨hreg, hwell⟩ := ih (fun y hy => hf y (List.mem_cons_of_mem _ hy)) (fun y hy => hg y (List.mem_cons_of_mem _ hy)) ((f x).run s)
    have hx := hf x (List.mem_cons_self ..) s
    have hne := hg x (List.mem_cons_self ..)
    rw [Prog.run_each_cons]
    refine ⟨fun k hk => (hreg k hk).trans (hx.reg_eq (not_theRegs_apart fun k' hk' => ?_)), hwell.trans (hx.wells _ (Ne.symm hne))⟩
    simp [hfs k hk, hfs k' hk', Ne.symm hne]

/-- What a program does to its own well is what a loop over different wells does to that well. -/
theorem each_well {α : Type} {l : List α} (hl : l.Nodup) {f : α → Prog} {W : α → Nat} {fs : List Fld}
    (hf : ∀ x ∈ l, ∀ s, Keeps (wellTouch (W x) fs) s ((f x).run s)) (hfs : ∀ k ∈ fs, k.off < 0x1000)
    (hW : ∀ x ∈ l, ∀ y ∈ l, x ≠ y → W x ≠ W y) (s : State) {x : α} (hx : x ∈ l) :
    ∃ u v, SameWell (W x) fs s u ∧ v = (f x).run u ∧ SameWell (W x) fs v ((Prog.each l f).run s) := by
  induction l generalizing s with
  | nil => contradiction
  | cons z l ih =>
    obtain ⟨hz, hl⟩ := List.nodup_cons.1 hl
    have hft := fun y hy => hf y (List.mem_cons_of_mem _ hy)
    rw [Prog.run_each_cons]
    rcases List.mem_cons.1 hx with rfl | hxl
    · exact ⟨s, _, ⟨fun _ _ => rfl, rfl⟩, rfl, each_wells_apart hft hfs
        (fun y hy => Ne.symm (hW _ hx y (List.mem_cons_of_mem _ hy) fun e => hz (e ▸ hy))) _⟩
    · obtain ⟨u, v, hu, hv, ht⟩ := ih hl hft (fun a ha b hb => hW a (List.mem_cons_of_mem _ ha) b (List.mem_cons_of_mem _ hb)) ((f z).run s) hxl
      have hne := hW z (List.mem_cons_self ..) x hx fun e => hz (e ▸ hxl)
      have hkeep := hf z (List.mem_cons_self ..) s
      refine ⟨u, v, ⟨fun k hk => (hu.1 k hk).trans (hkeep.reg_eq (not_theRegs_apart fun k' hk' => ?_)),
        hu.2.trans (hkeep.wells _ (Ne.symm hne))⟩, hv, ht⟩
      simp [hfs k hk, hfs k' hk', Ne.symm hne]

end Sys2Proof.Machine
end

section
/-! SUPPORT. Faults of pages and of orders. -/
namespace Sys2Proof.Machine

theorem each_map {α β : Type} (g : α → β) (l : List α) (f : β → Prog) : Prog.each (l.map g) f = Prog.each l (fun x => f (g x)) := by
  simp only [Prog.each, List.map_map]
  rfl

theorem Faults.congr {s s' t t' : State} {p : Page} {cause : Nat} (h : Faults s t p cause)
    (hs : ∀ f ∈ faultRegs, s.reg p f.off = s'.reg p f.off) (ht : ∀ f ∈ faultRegs, t'.reg p f.off = t.reg p f.off) : Faults s' t' p cause := by
  obtain ⟨hstate, hcause⟩ := h
  simp only [State.fld_eq] at hstate hcause
  refine ⟨?_, fun hn => ?_⟩
  · rw [State.fld_eq, ht R.STATE_STATE (by simp [faultRegs]), hstate]
  · rw [State.fld_eq, ht R.FAULT_CAUSE (by simp [faultRegs])]
    exact hcause (by rwa [hs R.STATE_STATE (by simp [faultRegs])])

/-- A page's fault names the cause. -/
theorem pageFault_run_faults (p : Page) {cause : Nat} (hc : cause < 2 ^ R.FAULT_CAUSE.width) (addr : Nat) (s : State) :
    Faults s ((pageFault p cause addr).run s) p cause := by
  by_cases hf : s.fld p R.STATE_STATE = stFault
  · rw [pageFault, Prog.run_get, if_pos hf]
    exact ⟨hf, fun h => absurd hf h⟩
  · have hmod := Nat.mod_eq_of_lt hc
    norm_num only at hmod
    rw [pageFault_run_new hf]
    refine ⟨?_, fun _ => ?_⟩
    · simp -implicitDefEqProofs [faultRecord, stFault]
    · simp -implicitDefEqProofs [faultRecord, hmod]

/-- A page's fault with its line raised names the cause. -/
theorem pageFault_faults (p : Page) {cause : Nat} (hc : cause < 2 ^ R.FAULT_CAUSE.width) (addr : Nat) (s : State) :
    Faults s ((Prog.all [pageFault p cause addr, raiseLine p]).run s) p cause := by
  obtain ⟨hstate, hcause⟩ := pageFault_run_faults p hc addr s
  obtain ⟨-, -, hkeep⟩ := raiseLine_run p ((pageFault p cause addr).run s)
  rw [Prog.run_all_cons, Prog.run_all_cons, Prog.run_all_nil]
  exact ⟨(hkeep.fld_eq (not_theRegs_offset (by decide) p)).trans hstate,
    fun hn => (hkeep.fld_eq (not_theRegs_offset (by decide) p)).trans (hcause hn)⟩

/-- An order fault halts its croft, where it runs and no halt is under way, and ends the step. -/
theorem orderFault_run (c idx engine : Nat) (s : State) :
    let t := (orderFault c idx engine).run s
    t.croft c = (if s.haltsNow c = true then { s.croft c with reeve := (s.reeve c).haltsFor 3 } else s.croft c) ∧
    t.running c = s.running c ∧ t.dev.stepEnd = true := by
  set u := (setFld (pgReeve c) R.reeve_FAULT_IDX_ENGINE engine).run ((setFld (pgReeve c) R.reeve_FAULT_IDX_INDEX idx).run s) with hu
  have hrunning : u.running c = s.running c := by simp -implicitDefEqProofs [hu]
  have hreeve : u.reeve c = s.reeve c := by simp -implicitDefEqProofs [hu]
  have hcroft : u.croft c = s.croft c := by simp -implicitDefEqProofs [hu]
  have hnow : u.haltsNow c = s.haltsNow c := by rw [State.haltsNow, hrunning, hreeve, State.haltsNow]
  have hrun : (orderFault c idx engine).run s = (tellWatch 14).run (stepEnds.run ((haltReq c 3).run u)) := by
    simp -implicitDefEqProofs only [orderFault, orderHalt, Prog.run_all_cons, Prog.run_all_nil, hu]
  have hkeep : Keeps { dev := True } ((haltReq c 3).run u) ((tellWatch 14).run (stepEnds.run ((haltReq c 3).run u))) :=
    (Prog.keeps (by simp) _).trans (Prog.keeps (by simp) _)
  have hhalt := haltReq_croft c 3 c u
  rw [hrun]
  refine ⟨?_, ?_, ?_⟩
  · rw [hkeep.crofts c id, hhalt]
    simp only [hnow, hreeve, hcroft, true_and]
  · exact ((hkeep.bit_eq id).trans (haltReq_running ..)).trans hrunning
  · simp [tellWatch, stepEnds, modDev]

/-- A croft with an order fault is on its way to a halt. -/
theorem orderFault_halts (c idx engine : Nat) (s : State) : Halts s ((orderFault c idx engine).run s) c := by
  intro hrun
  obtain ⟨hcroft, -, -⟩ := orderFault_run c idx engine s
  have hreeve : ((orderFault c idx engine).run s).reeve c = if s.haltsNow c = true then (s.reeve c).haltsFor 3 else s.reeve c := by
    rw [State.reeve_eq, hcroft]
    split <;> rfl
  rw [hreeve]
  split
  · rfl
  · rename_i hn
    simpa [State.haltsNow, hrun, Option.isSome_iff_ne_none] using hn

end Sys2Proof.Machine
end


section
/-! SUPPORT. What every read sees after a line is raised (R455). -/
namespace Sys2Proof.Machine

section
variable (s : State) (p : Page)

theorem raiseLine_keeps : Keeps { regs := theRegs p [R.CRIER_LINE_RAISED] } s ((raiseLine p).run s) := (raiseLine_run p s).2.2

@[simp] theorem raiseLine_croft (k : Nat) : ((raiseLine p).run s).croft k = s.croft k := (raiseLine_keeps s p).crofts k id
@[simp] theorem raiseLine_reeve (k : Nat) : ((raiseLine p).run s).reeve k = s.reeve k := by
  rw [State.reeve_eq, raiseLine_croft, State.reeve_eq]
@[simp] theorem raiseLine_well (k : Nat) : ((raiseLine p).run s).well k = s.well k := (raiseLine_keeps s p).wells k id
@[simp] theorem raiseLine_pumpRun (k : Nat) : ((raiseLine p).run s).pumpRun k = s.pumpRun k := (raiseLine_keeps s p).pumps k id
@[simp] theorem raiseLine_hamlet (k : Nat) : ((raiseLine p).run s).hamlet k = s.hamlet k := (raiseLine_keeps s p).hamlets k id
@[simp] theorem raiseLine_queue (k : Nat) : ((raiseLine p).run s).queue k = s.queue k := (raiseLine_keeps s p).queues k id
@[simp] theorem raiseLine_link (k : Nat) : ((raiseLine p).run s).link k = s.link k := (raiseLine_keeps s p).links k id
@[simp] theorem raiseLine_byte (k : Nat) : ((raiseLine p).run s).byte k = s.byte k := (raiseLine_keeps s p).mem k id
@[simp] theorem raiseLine_dev : ((raiseLine p).run s).dev = s.dev := (raiseLine_keeps s p).dev id
@[simp] theorem raiseLine_out : ((raiseLine p).run s).out = s.out := (raiseLine_keeps s p).out id
@[simp] theorem raiseLine_seq : ((raiseLine p).run s).seq = s.seq := (raiseLine_keeps s p).seq id
@[simp] theorem raiseLine_now : ((raiseLine p).run s).now = s.now := (raiseLine_keeps s p).now

end

section
variable {p q : Page} {o : Nat} {f : Fld}

@[simp] theorem raiseLine_reg (h : apart p R.CRIER_LINE_RAISED.off q o) (s : State) : ((raiseLine p).run s).reg q o = s.reg q o := by
  rw [raiseLine_run_eq]
  cases s.underReset p
  · simpa using State.reg_put_apart h s _
  · simp

@[simp] theorem raiseLine_fld (h : apart p R.CRIER_LINE_RAISED.off q f.off) (s : State) : ((raiseLine p).run s).fld q f = s.fld q f := by
  rw [State.fld_eq, raiseLine_reg h, State.fld_eq]

@[simp] theorem raiseLine_bit (h : apart p R.CRIER_LINE_RAISED.off q f.off) (s : State) : ((raiseLine p).run s).bit q f = s.bit q f := by
  rw [State.bit, raiseLine_fld h, State.bit]

end

end Sys2Proof.Machine
end

section
/-! SUPPORT. What an ended access of the host leaves (R444). -/
namespace Sys2Proof.Machine

theorem State.fld_zero_iff (s : State) (p : Page) (f : Fld) : s.fld p f = 0 ↔ s.bit p f = false := by simp [State.bit]

@[simp] theorem Fld.insert_whole_toNat {f : Fld} (h : f.lo = 0) (h' : f.width = 32) (w : Word) (v : Nat) :
    (f.insert w v).toNat = v % 2 ^ 32 := by
  have := Fld.of_insert_fits (f := f) (by omega) w v
  rwa [Fld.of_whole h h', h'] at this

theorem endCounter_off (kind : Nat) : (endCounter kind).off < 0x1000 ∧ (endCounter kind).off ≠ R.host_ERR_LOG_VALID.off ∧
    (endCounter kind).off ≠ R.host_ERR_ADDR_LO.off ∧ (endCounter kind).off ≠ R.host_ERR_ADDR_HI.off ∧
    (endCounter kind).off ≠ R.CRIER_LINE_RAISED.off := by
  unfold endCounter
  split
  all_goals decide

/-- The record of an ended access, where one is held (`v`) and where none is. -/
def hostEndRest (bar kind : Nat) (write : Bool) (off : Nat) (v : Bool) : Prog := .all [
  bump pgHost (endCounter kind),
  if v then setFld pgHost R.host_ERR_LOG_OVERRUN 1
  else .all [
    setFld pgHost R.host_ERR_LOG_BAR bar, setFld pgHost R.host_ERR_LOG_KIND kind, setBit pgHost R.host_ERR_LOG_WRITE write,
    setFld pgHost R.host_ERR_LOG_VALID 1, setFld pgHost R.host_ERR_ADDR_LO off, setFld pgHost R.host_ERR_ADDR_HI (off / 2 ^ 32)],
  raiseLine pgHost,
  Prog.when (!write) (emit (if kind = endUR then .ur else .ca))]

/-- A host access that ends without being carried out is counted, logged and answered. -/
theorem hostEnd_run {bar kind : Nat} (hb : bar < 4) (hk : kind < 8) (write : Bool) (off : Nat) (s : State) :
    let t := (hostEnd bar kind write off).run s
    HostEnds s t bar kind write off ∧ Keeps { regs := theRegs pgHost (hostEndRegs kind), out := write = false } s t := by
  obtain ⟨hlt, h1, h2, h3, h4⟩ := endCounter_off kind
  have hbar := Nat.mod_eq_of_lt hb
  have hkind := Nat.mod_eq_of_lt hk
  have hrun : (hostEnd bar kind write off).run s = (hostEndRest bar kind write off (s.bit pgHost R.host_ERR_LOG_VALID)).run s := by
    rw [hostEnd, Prog.run_get]
    rfl
  rw [hrun]
  generalize hv : s.bit pgHost R.host_ERR_LOG_VALID = v
  have hkeep : (hostEndRest bar kind write off v).Only
      (Touch.allows { regs := theRegs pgHost (hostEndRegs kind), out := write = false }) := by
    cases v
    all_goals simp [hostEndRest, hostEndRegs, Prog.only_when]
  refine ⟨?_, Prog.keeps hkeep s⟩
  cases write
  all_goals
    cases v
    all_goals
      simp -implicitDefEqProofs [HostEnds, hostEndRest, emit, Counts, h1, h2, h3, State.fld_zero_iff, Ne.symm h1, Ne.symm h2, Ne.symm h3, Ne.symm h4, hlt, hbar,
        hkind, hv]

end Sys2Proof.Machine
end

section
/-! O60: register writes before READY and under reset (R4, R18, R444, R499). -/
namespace Sys2Proof.Machine

/-- Every row that writes a page's register writes it past the gate. -/
theorem exec_writeRow {who : Agent} {i : Instr} {p : Page} {o : Nat} (h : WriteRow who i p o) (s : State) :
    ∃ k, exec i s = .next ((regWrite who p o k).run s) := by
  cases h with
  | croftReset c => exact ⟨_, rfl⟩
  | hamletReset h => exact ⟨_, rfl⟩
  | coreReset pg p hp => 
    refine ⟨resetRequest p, ?_⟩
    show execCoreReset who pg s = _
    rw [execCoreReset, show pageAt (pg.toNat * 0x1000) = some p from hp]
    rfl
  | enableSet pg p hp =>
    refine ⟨setEnable p, ?_⟩
    show execEnableSet who pg s = _
    rw [execEnableSet, onPage, hp]
    rfl
  | enableClear pg p hp =>
    refine ⟨clearEnable p, ?_⟩
    show execEnableClear who pg s = _
    rw [execEnableClear, onPage, hp]
    rfl
  | planStart b => exact ⟨_, rfl⟩
  | stopAtStepBoundary => exact ⟨_, rfl⟩
  | haltNow => exact ⟨_, rfl⟩
  | registerWrite a bs ide p hp ha hl =>
    refine ⟨writeReg who p (a.toNat % 0x1000) (leNat bs), ?_⟩
    show execRegisterWrite who false a bs ide s = _
    rw [execRegisterWrite, if_neg (by decide), writeBar0, if_pos ⟨ha, hl⟩, writeWordAt, hp]
    rfl

/-- Settles O60: the gate of register writes. -/
theorem writesBeforeReadyAndUnderResetDoNothing : Obligations.WritesBeforeReadyAndUnderResetDoNothing := by
  unfold Obligations.WritesBeforeReadyAndUnderResetDoNothing
  intro s who i p o hrow
  obtain ⟨k, hexec⟩ := exec_writeRow hrow s
  refine ⟨fun hs => ⟨_, hexec, ?_⟩, fun hs hr hp => ⟨_, hexec, ?_⟩⟩
  · rw [regWrite_shut hs]
    have := hostEnd_run (bar := 0) (kind := endAbs) (by decide) (by decide) true (p.base + o) s
    simpa using this
  · rw [regWrite_underReset hs hr hp]
    exact ignored_run p s

end Sys2Proof.Machine
end

section
/-! SUPPORT. One program on each of several parts of a state that are apart. -/
namespace Sys2Proof.Machine

/-- What a program on one part does to it is what a loop over parts that are apart does to it; `V x` says that the view of part `x` is the
same. -/
theorem each_part {α : Type} {V : α → State → State → Prop} (hrefl : ∀ x s, V x s s) (htrans : ∀ x a b c, V x a b → V x b c → V x a c)
    {l : List α} (hl : l.Nodup) {f : α → Prog} (hf : ∀ x ∈ l, ∀ y ∈ l, x ≠ y → ∀ s, V x s ((f y).run s)) (s : State) {x : α} (hx : x ∈ l) :
    ∃ u, V x s u ∧ V x ((f x).run u) ((Prog.each l f).run s) := by
  have haside (k : List α) (hk : ∀ y ∈ k, ∀ s, V x s ((f y).run s)) (s : State) : V x s ((Prog.each k f).run s) := by
    induction k generalizing s with
    | nil => exact hrefl x s
    | cons y k ih =>
      rw [Prog.run_each_cons]
      exact htrans _ _ _ _ (hk y (List.mem_cons_self ..) s) (ih (fun z hz => hk z (List.mem_cons_of_mem _ hz)) _)
  induction l generalizing s with
  | nil => contradiction
  | cons z l ih =>
    obtain ⟨hz, hl⟩ := List.nodup_cons.1 hl
    rw [Prog.run_each_cons]
    rcases List.mem_cons.1 hx with rfl | hxl
    · exact ⟨s, hrefl _ s, haside l (fun y hy => hf _ hx y (List.mem_cons_of_mem _ hy) fun e => hz (e ▸ hy)) _⟩
    · obtain ⟨u, hu, ht⟩ := ih hl (fun a ha b hb => hf a (List.mem_cons_of_mem _ ha) b (List.mem_cons_of_mem _ hb)) ((f z).run s) hxl
      exact ⟨u, htrans _ _ _ _ (hf x hx z (List.mem_cons_self ..) (fun e => hz (e ▸ hxl)) s) hu, ht⟩

/-- What the programs of a loop leave of a part is left by the loop. -/
theorem each_aside {α : Type} {V : State → State → Prop} (hrefl : ∀ s, V s s) (htrans : ∀ a b c, V a b → V b c → V a c) {l : List α}
    {f : α → Prog} (hf : ∀ x ∈ l, ∀ s, V s ((f x).run s)) (s : State) : V s ((Prog.each l f).run s) := by
  induction l generalizing s with
  | nil => exact hrefl s
  | cons x l ih =>
    rw [Prog.run_each_cons]
    exact htrans _ _ _ (hf x (List.mem_cons_self ..) s) (ih (fun y hy => hf y (List.mem_cons_of_mem _ hy)) _)

/-- The frame of a croft's reeve: its page, its ownership page and its record. -/
def reeveTouch (c : Nat) : Touch := { regs := onPages [pgReeve c, pgOwn c], crofts := (· = c) }

/-- Two states agree on a croft's reeve. -/
def SameReeve (c : Nat) (s t : State) : Prop :=
  t.croft c = s.croft c ∧ ∀ o < 0x1000, t.reg (pgReeve c) o = s.reg (pgReeve c) o ∧ t.reg (pgOwn c) o = s.reg (pgOwn c) o

theorem SameReeve.refl (c : Nat) (s : State) : SameReeve c s s := ⟨rfl, fun _ _ => ⟨rfl, rfl⟩⟩

theorem SameReeve.trans (c : Nat) (s t u : State) (h : SameReeve c s t) (h' : SameReeve c t u) : SameReeve c s u :=
  ⟨h'.1.trans h.1, fun o ho => ⟨(h'.2 o ho).1.trans (h.2 o ho).1, (h'.2 o ho).2.trans (h.2 o ho).2⟩⟩

theorem Keeps.sameReeve {c k : Nat} (h : c ≠ k) {s t : State} (hk : Keeps (reeveTouch k) s t) : SameReeve c s t := by
  have hc := croftBase_eq c
  have hk' := croftBase_eq k
  refine ⟨hk.crofts c h, fun o ho => ⟨hk.reg_eq ?_, hk.reg_eq ?_⟩⟩
  all_goals
    rintro ⟨p, hp, h1, h2⟩
    obtain rfl | rfl : p = pgReeve k ∨ p = pgOwn k := by simpa using hp
    all_goals simp only [pgReeve, pgOwn, Page.base] at h1 h2; omega

/-- What each program does to its own reeve is what the loop over different crofts does to it. -/
theorem each_reeve {l : List Nat} (hl : l.Nodup) {f : Nat → Prog} (hf : ∀ c ∈ l, (f c).Only (reeveTouch c).allows) (s : State) {c : Nat}
    (hc : c ∈ l) : ∃ u, SameReeve c s u ∧ SameReeve c ((f c).run u) ((Prog.each l f).run s) :=
  each_part SameReeve.refl SameReeve.trans hl (fun _ _ y hy hne t => (Prog.keeps (hf y hy) t).sameReeve hne) s hc

theorem each_reeve_aside {l : List Nat} {f : Nat → Prog} (hf : ∀ c ∈ l, (f c).Only (reeveTouch c).allows) (s : State) {c : Nat}
    (hc : c ∉ l) : SameReeve c s ((Prog.each l f).run s) :=
  each_aside (SameReeve.refl c) (SameReeve.trans c)
    (fun k hk t => (Prog.keeps (hf k hk) t).sameReeve fun e : c = k => hc (by rwa [e])) s

theorem enabledReeves_nodup (s : State) : s.enabledReeves.Nodup := List.nodup_range.filter _

theorem SameReeve.fld {c : Nat} {s t : State} (h : SameReeve c s t) {f : Fld} (hf : f.off < 0x1000) :
    t.fld (pgReeve c) f = s.fld (pgReeve c) f ∧ t.fld (pgOwn c) f = s.fld (pgOwn c) f := by
  simp only [State.fld_eq, (h.2 _ hf).1, (h.2 _ hf).2, and_self]

theorem SameReeve.bit {c : Nat} {s t : State} (h : SameReeve c s t) {f : Fld} (hf : f.off < 0x1000) :
    t.bit (pgReeve c) f = s.bit (pgReeve c) f := by
  simp only [State.bit, (h.fld hf).1]

theorem SameReeve.reeve {c : Nat} {s t : State} (h : SameReeve c s t) : t.reeve c = s.reeve c := by
  rw [State.reeve_eq, h.1, State.reeve_eq]

end Sys2Proof.Machine
end

section
/-! SUPPORT. Programs that leave memory as it is. -/
namespace Sys2Proof.Machine

/-- Everything but memory. -/
def memless : Touch :=
  { regs := fun _ => True, crofts := fun _ => True, wells := fun _ => True, pumps := fun _ => True, hamlets := fun _ => True
    queues := fun _ => True, links := fun _ => True, dev := True, out := True, seq := True }

section
variable (p q : Page) (o k : Nat)

@[simp] theorem onReg_memless : onReg memless.regs p o := trivial
@[simp] theorem memless_crofts : memless.crofts k := trivial
@[simp] theorem memless_wells : memless.wells k := trivial
@[simp] theorem memless_pumps : memless.pumps k := trivial
@[simp] theorem memless_hamlets : memless.hamlets k := trivial
@[simp] theorem memless_queues : memless.queues k := trivial
@[simp] theorem memless_links : memless.links k := trivial
@[simp] theorem memless_dev : memless.dev := trivial
@[simp] theorem memless_out : memless.out := trivial
@[simp] theorem memless_seq : memless.seq := trivial

@[simp] theorem allBut_crofts : (allBut q o).crofts k := trivial
@[simp] theorem allBut_wells : (allBut q o).wells k := trivial
@[simp] theorem allBut_dev : (allBut q o).dev := trivial
@[simp] theorem allBut_seq : (allBut q o).seq := trivial

end

theorem Act.apply_mem_of_memless {a : Act} (h : memless.allows a) (s : State) : (a.apply s).mem = s.mem := by
  cases a with
  | bytes a bs =>
    cases bs with
    | nil => rfl
    | cons b bs => exact absurd (h a le_rfl (by simp)) id
  | memErase lo hi =>
    refine List.filter_eq_self.2 fun e _ => ?_
    have : lo ≤ e.1 → e.1 < hi → False := h e.1
    simpa [imp_iff_or_not, or_comm] using this
  | _ => rfl

/-- A program that may change everything but memory leaves memory as it is. -/
theorem Prog.mem_eq {p : Prog} (h : p.Only memless.allows) (s : State) : (p.run s).mem = s.mem :=
  Prog.Only.keeps State.mem (fun _ s ha => Act.apply_mem_of_memless ha s) h s

end Sys2Proof.Machine
end

section
/-! O58: plans start and stop (R263, R265, R546). -/
namespace Sys2Proof.Machine

/-- One reeve of a plan's start. -/
def planReeve (c i : Nat) : Prog := .all [cleanRestartAt c i, latchBell (pgReeve c) R.reeve_STEP_BELL_LO R.reeve_STEP_BELL_HI]

/-- What a plan's start records beside its reeves. -/
def planRecord : Prog := .all [
  modDev (fun d => { d with boundary := false, stopHere := false }),
  setFld pgPlan R.plan_STATUS_START_ERR 0, setFld pgPlan R.plan_STATUS_STOP_PENDING 0, bump pgPlan R.plan_PLAN_START_CNT]

theorem planReeve_only (c i : Nat) : (planReeve c i).Only (reeveTouch c).allows := by
  simp [planReeve, cleanRestartAt, cleanReeve, restartAt, latchBell, reeveTouch]

theorem startIndex_lt (s : State) (restore : Bool) (c : Nat) : s.startIndex restore c < 2 ^ 24 := by
  unfold State.startIndex
  split
  all_goals simp

theorem planReeve_run {i : Nat} (hi : i < 2 ^ 24) (c : Nat) (s : State) :
    let t := (planReeve c i).run s
    t.running c = true ∧ t.pc c = i ∧ t.bit (pgReeve c) R.reeve_STATUS_HALTED = false ∧ t.fld (pgReeve c) R.reeve_STATUS_HALT_REASON = 0 ∧
    (t.reeve c).halting = none ∧ (t.reeve c).tokens = [] ∧ t.fld (pgOwn c) R.own_STATUS_PHASE = 0 := by
  norm_num only at hi
  refine ⟨?_, ?_, ?_, ?_, ?_, ?_, ?_⟩
  all_goals
    simp -implicitDefEqProofs [planReeve, cleanRestartAt, cleanReeve, restartAt, latchBell, setPC, modReeve, modCroft, State.reeve_eq,
      State.running, hi]

theorem planStart_run {s : State} {restore : Bool} (h : s.startErr restore = 0) :
    (planStart restore).run s = planRecord.run ((Prog.each s.enabledReeves (fun c => planReeve c (s.startIndex restore c))).run s) := by
  simp only [planStart, planRecord, planReeve, Prog.run_get, h, bne_self_eq_false, Bool.false_eq_true, if_false, Prog.run_all_cons]

theorem planRecord_keeps (s : State) : Keeps { regs := pgPlan.covers, dev := True } s (planRecord.run s) :=
  Prog.keeps (by simp [planRecord]) s

theorem planRecord_sameReeve (c : Nat) (s : State) : SameReeve c s (planRecord.run s) := by
  have hkeep := planRecord_keeps s
  have hc := croftBase_eq c
  refine ⟨hkeep.crofts c id, fun o ho => ⟨hkeep.reg_eq ?_, hkeep.reg_eq ?_⟩⟩
  all_goals simp only [Page.covers, pgPlan, pgReeve, pgOwn, Page.base]; omega

theorem planHalt_run (s : State) : planHalt.run s = (Prog.each s.enabledReeves (fun c => haltReq c 7)).run s := rfl

/-- Settles O58: a start is one sequence of writes on each enabled reeve, a halt a request to each. -/
theorem plansStartAndStop : Obligations.PlansStartAndStop := by
  unfold Obligations.PlansStartAndStop
  refine ⟨fun s who restore hr => ⟨fun he => ⟨_, rfl, ?_⟩, fun he => ⟨_, rfl, ?_⟩⟩,
    fun s who hr => ⟨fun h => ⟨_, rfl, ?_⟩, fun h => ⟨_, rfl, ?_⟩, _, rfl, ?_⟩⟩
  · have herr : s.startErr restore < 8 := by
      simp only [State.startErr]
      split_ifs
      all_goals decide
    have hrun : (planStart restore).run s =
        (Prog.all [setFld pgPlan R.plan_STATUS_START_ERR (s.startErr restore), ignored pgPlan]).run s := by
      simp [planStart, he]
    rw [regWrite_reaches hr, hrun]
    refine ⟨?_, ?_, Prog.keeps (by simp) s⟩
    all_goals simp -implicitDefEqProofs [Counts, ignored, herr]
  · have honly (c : Nat) := planReeve_only c (s.startIndex restore c)
    have hmem := (Prog.mem_eq (p := planRecord) (by simp [planRecord]) _).trans
      (Prog.mem_eq (p := Prog.each s.enabledReeves (fun c => planReeve c (s.startIndex restore c)))
        (by simp [planReeve, cleanRestartAt, cleanReeve, restartAt, latchBell]) s)
    have hcount := (Prog.keeps (T := allBut pgPlan R.plan_PLAN_START_CNT.off)
      (p := Prog.each s.enabledReeves (fun c => planReeve c (s.startIndex restore c)))
      (by simp [planReeve, cleanRestartAt, cleanReeve, restartAt, latchBell]) s)
    have hloop {c : Nat} (hc : c ∈ s.enabledReeves) := each_reeve (enabledReeves_nodup s) (fun c _ => honly c) s hc
    have haside {c : Nat} (hc : c ∉ s.enabledReeves) := each_reeve_aside (fun c _ => honly c) s hc
    rw [regWrite_reaches hr, planStart_run he]
    generalize (Prog.each s.enabledReeves (fun c => planReeve c (s.startIndex restore c))).run s = u at *
    have hrec {c : Nat} := planRecord_sameReeve c u
    refine ⟨?_, ?_, ?_, hmem, ?_, fun c hc => ?_, fun c _ hc => ?_⟩
    · simp -implicitDefEqProofs [planRecord]
    · simp -implicitDefEqProofs [planRecord]
    · have := hcount.reg_eq (p := pgPlan) (o := R.plan_PLAN_START_CNT.off) (by simp [allBut])
      simpa -implicitDefEqProofs [planRecord, modDev, Counts] using congrArg (satAdd · 1) this
    · exact ((planRecord_keeps u).out id).trans (hcount.out id)
    · obtain ⟨v, -, hv⟩ := hloop hc
      obtain ⟨h1, h2, h3, h4, h5, h6, h7⟩ := planReeve_run (startIndex_lt s restore c) c v
      have hall := hv.trans _ _ _ _ hrec
      refine ⟨(hall.bit (by decide)).trans h1, ((hall.fld (by decide)).1).trans h2, (hall.bit (by decide)).trans h3,
        ((hall.fld (by decide)).1).trans h4, ?_, ?_, ((hall.fld (by decide)).2).trans h7⟩
      · rw [hall.reeve, h5]
      · rw [hall.reeve, h6]
    · have hall := (haside hc).trans _ _ _ _ hrec
      exact ⟨hall.1, hall.bit (by decide), (hall.fld (by decide)).1⟩
  · rw [regWrite_reaches hr, planStop, Prog.run_get, if_pos h]
    exact ⟨by simp -implicitDefEqProofs, Prog.keeps (by simp) s⟩
  · rw [regWrite_reaches hr, planStop, Prog.run_get, if_neg (by simp [h])]
    exact ignored_run ..
  · rw [regWrite_reaches hr, planHalt_run]
    have honly (c : Nat) : (haltReq c 7).Only (reeveTouch c).allows := by simp [reeveTouch]
    refine ⟨fun c hc => ?_, Prog.keeps ?_ s⟩
    · obtain ⟨u, hu, hv⟩ := each_reeve (enabledReeves_nodup s) (fun c _ => honly c) s hc
      have hrunning : u.running c = s.running c := hu.bit (by decide)
      obtain ⟨-, hcroft⟩ := haltEach_run s.enabledReeves 7 c s
      have hreeve : ((Prog.each s.enabledReeves (fun k => haltReq k 7)).run s).reeve c =
          if s.haltsNow c = true then (s.reeve c).haltsFor 7 else s.reeve c := by
        rw [State.reeve_eq, hcroft]
        simp only [hc, true_and]
        split <;> rfl
      rw [Halts, hreeve]
      refine ⟨fun hrun => ?_, fun hrun hnone => ⟨?_, ?_⟩⟩
      · split
        · rfl
        · rename_i hn
          simpa [State.haltsNow, hrun, Option.isSome_iff_ne_none] using hn
      · rw [if_pos (by simp [State.haltsNow, hrun, hnone])]
        rfl
      · rw [(hv.fld (by decide)).1, haltReq_run_first (hrunning.trans hrun) (by rwa [hu.reeve])]
        simp -implicitDefEqProofs [modReeve, modCroft]
    · refine (Prog.only_each ..).2 fun c hc => (haltReq_allows ..).2 ⟨⟨c, hc, ?_⟩, hc⟩
      simp [theRegs]

end Sys2Proof.Machine
end

section
/-! SUPPORT. The masks of a register's fields (R3 to R5). -/
namespace Sys2Proof.Machine

theorem fields_fit (k : Kind) : ∀ f ∈ k.fields, f.lo + f.width ≤ 32 := by cases k <;> decide

theorem regFields_fit {k : Kind} {o : Nat} : ∀ f ∈ k.regFields o, f.lo + f.width ≤ 32 := by
  intro f hf
  unfold Kind.regFields at hf
  split at hf
  · exact (by decide : ∀ f ∈ fields_header0, f.lo + f.width ≤ 32) f (List.mem_of_mem_filter hf)
  · exact fields_fit k f (List.mem_of_mem_filter hf)

theorem fieldMask_lt {fs : List FieldSpec} (h : ∀ f ∈ fs, f.lo + f.width ≤ 32) : fieldMask fs < 2 ^ 32 := by
  have hfold (fs : List FieldSpec) (h : ∀ f ∈ fs, f.lo + f.width ≤ 32) (m : Nat) (hm : m < 2 ^ 32) :
      fs.foldl (fun m f => m ||| ((2 ^ f.width - 1) * 2 ^ f.lo)) m < 2 ^ 32 := by
    induction fs generalizing m with
    | nil => exact hm
    | cons f fs ih =>
      refine ih (fun g hg => h g (List.mem_cons_of_mem _ hg)) _ (Nat.or_lt_two_pow hm ?_)
      calc (2 ^ f.width - 1) * 2 ^ f.lo < 2 ^ f.width * 2 ^ f.lo := by
            exact (Nat.mul_lt_mul_right (Nat.two_pow_pos _)).2 (by have := Nat.two_pow_pos f.width; omega)
        _ = 2 ^ (f.lo + f.width) := by rw [Nat.pow_add, Nat.mul_comm]
        _ ≤ 2 ^ 32 := Nat.pow_le_pow_right (by decide) (h f (List.mem_cons_self ..))
  exact hfold fs h 0 (by decide)

theorem accMask_lt (k : Kind) (o : Nat) (a : Acc) : accMask (k.regFields o) a < 2 ^ 32 :=
  fieldMask_lt fun f hf => regFields_fit f (List.mem_of_mem_filter hf)

theorem storedMask_lt (k : Kind) (o : Nat) (locked : Bool) : storedMask (k.regFields o) locked < 2 ^ 32 := by
  have hm : accMask (k.regFields o) .rw ||| (if locked then 0 else accMask (k.regFields o) .rwl) < 2 ^ 32 := by
    refine Nat.or_lt_two_pow (accMask_lt ..) ?_
    split
    · exact Nat.two_pow_pos _
    · exact accMask_lt ..
  have hrest : 0xFFFFFFFF - fieldMask (k.regFields o) < 2 ^ 32 := by omega
  have hmask (m : Nat) (hm : m < 2 ^ 32) : (if m = 0 then 0 else m ||| (0xFFFFFFFF - fieldMask (k.regFields o))) < 2 ^ 32 := by
    split
    · exact Nat.two_pow_pos _
    · exact Nat.or_lt_two_pow hm hrest
  exact hmask _ hm

/-- The complement of a word. -/
theorem testBit_complement {m i : Nat} (hm : m < 2 ^ 32) (hi : i < 32) : (0xFFFFFFFF - m).testBit i = !m.testBit i := by
  have := Nat.testBit_two_pow_sub_succ hm i
  rw [show (0xFFFFFFFF - m) = 2 ^ 32 - (m + 1) by omega, this]
  simp [hi]

/-- What a write leaves of each bit of a register. -/
theorem writtenWord_bit (k : Kind) (o : Nat) (locked : Bool) (old : Word) (v : Nat) {i : Nat} (hi : i < 32) :
    (BitVec.ofNat 32 (writtenWord (k.regFields o) locked old.toNat v)).getLsbD i =
      ((if (storedMask (k.regFields o) locked).testBit i then v.testBit i else old.getLsbD i) &&
        !(v.testBit i && (accMask (k.regFields o) .w1c).testBit i)) := by
  have hm := storedMask_lt k o locked
  have hw : v &&& accMask (k.regFields o) .w1c < 2 ^ 32 := Nat.and_lt_two_pow _ (accMask_lt ..)
  rw [BitVec.getLsbD_ofNat, writtenWord]
  simp only [hi, decide_true, Bool.true_and, Nat.testBit_and, Nat.testBit_or, testBit_complement hm hi, testBit_complement hw hi]
  rw [show old.toNat.testBit i = old.getLsbD i from rfl]
  cases (storedMask (k.regFields o) locked).testBit i <;> simp

theorem writeActs_iff (fs : List FieldSpec) (locked : Bool) (v : Nat) :
    writeActs fs locked v = true ↔ storedMask fs locked ≠ 0 ∨ v &&& accMask fs .w1c ≠ 0 := by
  simp [writeActs]

theorem plainWrite_run_acts {p : Page} {o v : Nat} {s : State}
    (h : storedMask (p.kind.regFields o) (s.bit p R.CTL_ENABLE) ≠ 0 ∨ v &&& accMask (p.kind.regFields o) .w1c ≠ 0) :
    (plainWrite p o v).run s =
      s.put p o (BitVec.ofNat 32 (writtenWord (p.kind.regFields o) (s.bit p R.CTL_ENABLE) (s.reg p o).toNat v)) := by
  rw [plainWrite, Prog.run_get]
  simp only [(writeActs_iff ..).2 h, if_true]
  rfl

theorem plainWrite_run_ignored {p : Page} {o v : Nat} {s : State}
    (h : ¬ (storedMask (p.kind.regFields o) (s.bit p R.CTL_ENABLE) ≠ 0 ∨ v &&& accMask (p.kind.regFields o) .w1c ≠ 0)) :
    (plainWrite p o v).run s = (ignored p).run s := by
  rw [plainWrite, Prog.run_get]
  simp only [mt (writeActs_iff ..).1 h, Bool.false_eq_true, if_false]

/-- A register that only stores and clears. -/
theorem writeReg_plain {p : Page} {o : Nat} (hk : p.kind ∈ plainKinds) (h1 : o ≠ R.CTL_ENABLE.off) (h2 : o ≠ R.CRIER_LINE_SOURCE.off)
    (h3 : clearsOf p.kind o = none) (who : Agent) (v : Nat) : writeReg who p o v = plainWrite p o v := by
  rw [writeReg, if_neg h1, if_neg h2, h3]
  obtain ⟨k, n⟩ := p
  cases k
  all_goals simp [plainKinds] at hk
  all_goals rfl

end Sys2Proof.Machine
end

section
/-! O59: registers are written and cleared (R3 to R5, R65, R433, R448, R450, R536 to R538). -/
namespace Sys2Proof.Machine

theorem exec_registerWrite (who : Agent) (a : BitVec 28) (bs : List Byte) (ide : Bool) (s : State) :
    exec (.registerWrite who false a bs ide) s = .next ((writeBar0 who a.toNat bs).run s) := rfl

theorem mem_clearedBy {first n o : Nat} {v : Word} : o ∈ clearedBy first n v.toNat ↔ ∃ i < n, v.getLsbD i = true ∧ o = first + 4 * i := by
  have hbit (i : Nat) : (v.toNat / 2 ^ i % 2 == 1) = v.getLsbD i := by
    rw [← BitVec.testBit_toNat, Nat.testBit_eq_decide_div_mod_eq]
    exact Bool.beq_eq_decide_eq _ _
  simp only [clearedBy, List.mem_map, List.mem_filter, List.mem_range, hbit]
  exact exists_congr fun i => ⟨fun h => ⟨h.1.1, h.1.2, h.2.symm⟩, fun h => ⟨⟨h.1, h.2.1⟩, h.2.2.symm⟩⟩

/-- Clearing registers of a page clears each of them. -/
theorem each_setReg_zero (p : Page) (l : List Nat) (s : State) {o : Nat} (ho : o ∈ l) :
    ((Prog.each l (fun o => setReg p o 0)).run s).reg p o = 0 := by
  have hrest (l : List Nat) (s : State) (h : s.reg p o = 0) : ((Prog.each l (fun o => setReg p o 0)).run s).reg p o = 0 := by
    induction l generalizing s with
    | nil => exact h
    | cons x l ih =>
      refine (Prog.run_each_cons ..).symm ▸ ih _ ?_
      rw [setReg_run_put, State.put, State.reg_apply_reg]
      split
      · rfl
      · exact h
  induction l generalizing s with
  | nil => contradiction
  | cons x l ih =>
    rw [Prog.run_each_cons]
    rcases List.mem_cons.1 ho with rfl | hol
    · exact hrest l _ (by simp)
    · exact ih _ hol

theorem exec_counterClear {who : Agent} {a : BitVec 28} {v : Word} {s : State} {p : Page} {first n : Nat} (hp : pageAt a.toNat = some p)
    (hc : clearsOf p.kind (a.toNat % 0x1000) = some (first, n)) (hr : s.reaches who p) :
    exec (.counterClear who a v) s = .next ((clearCounters p first n v.toNat).run s) := by
  show execCounterClear who a v s = _
  simp only [execCounterClear, hp, hc]
  exact congrArg Host.Outcome.next (regWrite_reaches hr ..)

theorem exec_rcRead {a : BitVec 28} {s : State} {p : Page} (hp : pageAt a.toNat = some p)
    (hm : accMask (p.kind.regFields (a.toNat % 0x1000)) .rc ≠ 0) : exec (.rcRead a) s =
      .next ((regRead .host p (a.toNat % 0x1000) (readClear p (a.toNat % 0x1000))).run s) := by
  show execRcRead a s = _
  simp only [execRcRead, hp, bne_iff_ne.2 hm]
  rfl

theorem regRead_shut {s : State} {who : Agent} {p : Page} (h : s.shut who p = true) (o : Nat) (k : Prog) :
    (regRead who p o k).run s = (hostEnd 0 endAbs false (p.base + o)).run s := by
  simp only [regRead, Prog.run_get, h, if_true]

theorem regRead_underReset {s : State} {who : Agent} {p : Page} (h : s.shut who p = false) (k : s.underReset p = true)
    (hp : p ≠ pgDevctl) (o : Nat) (q : Prog) : (regRead who p o q).run s = (emit (.read (if o = 0x00C then stBusy else 0))).run s := by
  simp only [regRead, Prog.run_get, h, k, Bool.false_eq_true, if_false, Bool.true_and, bne_iff_ne.2 hp, if_true]

/-- STATE has no field that a read clears. -/
theorem rc_state (k : Kind) : accMask (k.regFields 0x00C) .rc = 0 := by
  rw [Kind.regFields, if_pos (by decide)]
  decide

/-- Settles O59. -/
theorem registersAreWrittenAndCleared : Obligations.RegistersAreWrittenAndCleared := by
  unfold Obligations.RegistersAreWrittenAndCleared
  refine ⟨⟨?words, ?holes, ?area⟩, ?clears, ?reads⟩
  case words =>
    intro s who a bs ide p hp hr
    have hword {v : Nat} : (writeWordAt who a.toNat v).run s = (writeReg who p (a.toNat % 0x1000) v).run s := by
      rw [writeWordAt, hp]
      exact regWrite_reaches hr ..
    refine ⟨fun h hn => ⟨_, exec_registerWrite .., ?_⟩, fun h hn => ⟨_, exec_registerWrite .., ?_⟩, fun h => ⟨_, exec_registerWrite .., ?_⟩⟩
    · obtain ⟨ha, hl, hk, h1, h2, h3⟩ := h
      rw [writeBar0, if_pos ⟨ha, hl⟩, hword, writeReg_plain hk h1 h2 h3, plainWrite_run_ignored hn]
      exact ignored_run ..
    · obtain ⟨ha, hl, hk, h1, h2, h3⟩ := h
      rw [writeBar0, if_pos ⟨ha, hl⟩, hword, writeReg_plain hk h1 h2 h3, plainWrite_run_acts hn]
      refine ⟨fun i hi => ?_, Prog.keeps (p := setReg p _ _) (by simp [onReg]) s⟩
      rw [State.reg_put_same rfl, writtenWord_bit _ _ _ _ _ hi]
    · rw [writeBar0, if_neg (by omega), if_neg (by omega), hp]
      exact regWrite_reaches hr (a.toNat % 0x1000) (ignored p) ▸ ignored_run p s
  case holes =>
    intro s who a bs ide hp hs hl
    have hhole : (writeBar0 who a.toNat bs).run s = (bump pgPlan R.plan_HOLE_CNT).run s := by
      have hwrite : (holeWrite who a.toNat).run s = (bump pgPlan R.plan_HOLE_CNT).run s := by
        rw [holeWrite, Prog.run_get, if_neg (by simp [hs])]
      rw [writeBar0]
      split
      · rw [writeWordAt, hp]
        exact hwrite
      · rw [if_neg (fun h => hl h.2), hp]
        exact hwrite
    refine ⟨_, exec_registerWrite .., ?_⟩
    rw [hhole]
    exact bumpBy_run ..
  case area =>
    intro s who a bs ide hide hlo hhi hstate
    have hexec : exec (.registerWrite who true a bs ide) s = .next ((modMailbox (fun m =>
        { m with area := Memory.writeBytes m.area (a.toNat - areaBase) bs })).run s) := by
      show execRegisterWrite who true a bs ide s = _
      have hide' : (s.bit pgHost R.host_CFG_IDE_REQ && !ide) = false := by
        rcases hide with h | h <;> simp [h]
      simp only [execRegisterWrite, if_true, needsIde, Prog.next_eq, Prog.run_get, hide', Bool.false_eq_true, if_false, writeBar4]
      rw [if_neg (by unfold areaBase at hlo; omega), if_pos ⟨hlo, hhi, hstate⟩]
    have harea : ((modMailbox (fun m => { m with area := Memory.writeBytes m.area (a.toNat - areaBase) bs })).run s).dev.host.mailbox.area =
        Memory.writeBytes s.dev.host.mailbox.area (a.toNat - areaBase) bs := by simp [modMailbox, modHost, modDev]
    refine ⟨_, hexec, fun i hi => ?_, fun k hk => ?_, ?_, Prog.keeps (modMailbox_only (fun _ => trivial) _) s⟩
    · rw [Mailbox.byte, harea, Memory.read_writeBytes, if_pos (by omega), Nat.add_sub_cancel_left]
    · rw [Mailbox.byte, harea, Memory.read_writeBytes, if_neg (by omega), Mailbox.byte]
    · simp [modMailbox, modHost, modDev]
  case clears =>
    intro s who a v
    refine ⟨fun h => ?_, fun p first n hp hc hr => ⟨fun h => ⟨_, exec_counterClear hp hc hr, ?_⟩, fun h => ⟨_, exec_counterClear hp hc hr, ?_⟩⟩⟩
    · show execCounterClear who a v s = _
      rw [execCounterClear]
      cases hp : pageAt a.toNat with
      | none => rfl
      | some p => simp only [h p hp]; rfl
    · have hnone : clearedBy first n v.toNat = [] := List.eq_nil_iff_forall_not_mem.2 fun o ho => by
        obtain ⟨i, hi, hv, -⟩ := mem_clearedBy.1 ho
        simp [h i hi] at hv
      rw [clearCounters, hnone]
      exact ignored_run ..
    · have hsome : (clearedBy first n v.toNat).isEmpty = false := by
        obtain ⟨i, hi, hv⟩ := h
        exact List.isEmpty_eq_false_iff.2 (List.ne_nil_of_mem (mem_clearedBy.2 ⟨i, hi, hv, rfl⟩))
      rw [clearCounters, hsome]
      refine ⟨fun i hi hv => each_setReg_zero _ _ _ (mem_clearedBy.2 ⟨i, hi, hv, rfl⟩), Prog.keeps ?_ s⟩
      refine (Prog.only_each ..).2 fun o ho => (setReg_allows ..).2 ?_
      obtain ⟨i, hi, hv, rfl⟩ := mem_clearedBy.1 ho
      exact ⟨i, hi, hv, rfl⟩
  case reads =>
    intro s a
    refine ⟨fun h => ?_, fun p hp => ⟨fun hm hs => ⟨_, exec_rcRead hp hm, ?_⟩, fun hm hs hu hd => ⟨_, exec_rcRead hp hm, ?_⟩,
      fun hm hr => ⟨_, exec_rcRead hp hm, ?_⟩⟩⟩
    · show execRcRead a s = _
      rw [execRcRead]
      cases hp : pageAt a.toNat with
      | none => rfl
      | some p => simp only [h p hp]; rfl
    · rw [regRead_shut hs]
      exact (hostEnd_run (by decide) (by decide) ..).1
    · rw [regRead_underReset hs hu hd, if_neg (fun e => hm (by rw [e]; exact rc_state p.kind))]
      exact ⟨by simp [emit], Prog.keeps (by simp) s⟩
    · rw [regRead_reaches hr]
      refine ⟨?_, fun i hi => ?_, Prog.keeps (by simp [readClear, onReg]) s⟩
      · simp [readClear, emit]
      · have hbit (m : Nat) : (BitVec.ofNat 32 m).getLsbD i = m.testBit i := by rw [BitVec.getLsbD_ofNat, decide_eq_true hi, Bool.true_and]
        have hreg : ((readClear p (a.toNat % 0x1000)).run s).reg p (a.toNat % 0x1000) =
            s.reg p (a.toNat % 0x1000) &&& ~~~BitVec.ofNat 32 (accMask (p.kind.regFields (a.toNat % 0x1000)) .rc) := by
          simp [readClear, emit]
        rw [hreg, BitVec.getLsbD_and, BitVec.getLsbD_not, hbit, decide_eq_true hi, Bool.true_and]

end Sys2Proof.Machine
end

section
/-! SUPPORT. What an access to protected memory may change beside its bytes: the pages of its cistern or granary, and what the find of
uncorrectable data does to the source of the access (R304, R310, R316). -/
namespace Sys2Proof.Machine

/-- A frame that permits an access to protected memory everything but the reaction of its source. -/
structure Touch.guards (T : Touch) : Prop where
  dev : T.dev
  mem : ∀ x, T.mem x
  cist : ∀ c o, o < 0x1000 → onReg T.regs (pgCist c) o
  gran : ∀ g o, o < 0x1000 → onReg T.regs (pgGran g) o

section
variable {T : Touch} (h : T.guards)
include h

theorem xorBytes_only (a n v : Nat) : (xorBytes a n v).Only T.allows := fun _ => (Prog.only_eff _).2 fun x _ _ => h.mem x

theorem logCE_only (c addr kind : Nat) : (logCE c addr kind).Only T.allows := by
  simp [logCE, Prog.only_when, h.cist, h.dev]

theorem reviveWord_only (k : Nat) : (reviveWord k).Only T.allows := by
  simp [reviveWord, Prog.only_when, h.dev, xorBytes_only h]

theorem settleWord_only (c k : Nat) : (settleWord c k).Only T.allows := by
  intro s
  show Prog.Only _ (match wordFind (s.flipOf k) with | .clean => _ | .single left => _ | .silent => _ | .beyond => _)
  split
  all_goals simp [reviveWord_only h, setFlip, corrupt, logCE_only h, xorBytes_only h, h.dev, h.cist]

theorem settleParity_only (c st : Nat) : (settleParity c st).Only T.allows := by
  intro s
  show Prog.Only _ (match wordFind (s.parityFlip st) with | .clean => _ | .single left => _ | .silent => _ | .beyond => _)
  split
  all_goals simp [logCE_only h, h.dev, h.cist]

theorem reviveGranule_only (g : Nat) : (reviveGranule g).Only T.allows := by
  simp [reviveGranule, Prog.only_when, h.dev, xorBytes_only h]

theorem checkParity_only (c st : Nat) : (checkParity c st).Only T.allows := by
  simp [checkParity, Prog.only_when, h.dev, h.cist, settleParity_only h, settleWord_only h]

variable {src : Option Source} (hsrc : ∀ own addr, (ueReact src own addr).Only T.allows)
include hsrc

theorem cistUE_only (c addr cause : Nat) : (cistUE c addr cause src).Only T.allows := by
  intro s
  simp only [Prog.only_all_cons, Prog.only_all_nil]
  refine ⟨by simp [h.cist], ?_, by simp [h.cist], by simp [h.cist], by simp [h.dev], hsrc _ _, trivial⟩
  split
  all_goals simp [h.cist]

theorem checkWord_only (c k : Nat) : (checkWord c k src).Only T.allows := by
  simp only [checkWord, Prog.only_all_cons, Prog.only_all_nil, Prog.only_get, and_true]
  refine ⟨settleWord_only h _ _, fun s => ?_⟩
  split
  · exact reviveWord_only h _
  · simp only [Prog.only_all_cons, Prog.only_all_nil, and_true]
    refine ⟨reviveWord_only h _, ?_⟩
    split
    · simp [settleWord_only h, settleParity_only h, xorBytes_only h, setFlip, logCE_only h, h.dev, h.cist]
    · simp [xorBytes_only h, h.dev, cistUE_only h hsrc]

theorem granUE_only (g : Nat) : (granUE g src).Only T.allows := by
  simp only [granUE, Prog.only_all_cons, Prog.only_all_nil, Prog.only_get, and_true]
  refine ⟨reviveGranule_only h _, fun s => ⟨xorBytes_only h _ _ _, by simp [h.dev], by simp [h.gran], ?_, by simp [h.gran], by simp [h.dev], hsrc _ _⟩⟩
  split
  all_goals simp [h.gran]

theorem granDecode_only (g : Nat) (back : Bool) : (granDecode g src back).Only T.allows := by
  simp only [granDecode, Prog.only_all_cons, Prog.only_all_nil, Prog.only_get, and_true]
  refine ⟨reviveGranule_only h _, fun s => ?_⟩
  split
  · trivial
  · simp [xorBytes_only h, setGranMask, h.dev]
  · simp only [Prog.only_all_cons, Prog.only_all_nil, and_true]
    refine ⟨xorBytes_only h _ _ _, by simp [setGranMask, h.dev], ?_, by simp [h.gran], by simp [h.gran], by simp [h.gran], by simp [h.gran], by simp [h.dev]⟩
    split
    all_goals simp [h.gran]
  · exact granUE_only h hsrc _

/-- What a read of protected memory may change. -/
theorem readBy_only (a n : Nat) : (readBy src a n).Only T.allows := by
  intro s
  show Prog.Only _ (if s.intact then _ else if a < granEnd then _ else _)
  split
  · trivial
  · split
    · exact (Prog.only_each ..).2 fun g _ => granDecode_only h hsrc _ _
    · exact (Prog.only_each ..).2 fun k _ => checkWord_only h hsrc _ _

theorem readAll_only (rs : List (Nat × Nat)) : (readAll src rs).Only T.allows := by
  intro s
  show Prog.Only _ (if s.intact then _ else _)
  split
  · trivial
  · exact (Prog.only_each ..).2 fun r _ => readBy_only h hsrc _ _

theorem storeStripe_only (a : Nat) (bs : List Byte) : (storeStripe src a bs).Only T.allows := by
  simp only [storeStripe]
  split
  · simp [Touch.allows, h.dev, h.mem]
  · simp only [Prog.only_all_cons, Prog.only_all_nil, Prog.only_get, and_true]
    refine ⟨(Prog.only_each ..).2 fun k _ => checkWord_only h hsrc _ _, checkParity_only h _ _, fun s => ?_⟩
    split
    · simp [h.cist]
    · simp [Touch.allows, h.mem]

theorem storeGranule_only (a : Nat) (bs : List Byte) : (storeGranule src a bs).Only T.allows := by
  simp only [storeGranule, Prog.only_all_cons, Prog.only_all_nil, and_true]
  refine ⟨by simp [h.dev], ?_⟩
  split
  · simp [Touch.allows, setGranMask, h.dev, h.mem]
  · simp only [Prog.only_all_cons, Prog.only_all_nil, Prog.only_get, and_true]
    refine ⟨granDecode_only h hsrc _ _, fun s => ?_⟩
    split
    · simp [h.gran]
    · simp [Touch.allows, h.mem]

/-- What a write of protected memory may change. -/
theorem store_only (a : Nat) (bs : List Byte) : (store src a bs).Only T.allows := by
  intro s
  show Prog.Only _ (if s.intact then _ else if a < granEnd then _ else _)
  split
  · exact (Prog.only_eff _).2 fun x _ _ => h.mem x
  · split
    · exact (Prog.only_each ..).2 fun x _ => storeGranule_only h hsrc _ _
    · exact (Prog.only_each ..).2 fun x _ => storeStripe_only h hsrc _ _

end

/-- Accesses of the host, of Bucket, of the Steward and of a sluice without a queue halt nothing. -/
theorem ueReact_outer {T : Touch} {src : Option Source} (h : src ∈ [some .host, some .bucket, some .steward, some (.incoming none)])
    (own : Option Nat) (addr : Nat) : (ueReact src own addr).Only T.allows := by
  simp only [List.mem_cons, List.not_mem_nil, or_false] at h
  rcases h with rfl | rfl | rfl | rfl
  all_goals trivial

end Sys2Proof.Machine
end

section
/-! SUPPORT. Programs that leave the head of a page: ENABLE, STATE and REFUSAL (R539, R540). -/
namespace Sys2Proof.Machine

/-- A frame that keeps CTL, STATE and REFUSAL of page `p`; memory, the wells and the pumps as `rest` says. -/
def butHead (p : Page) (rest : Prop) : Touch :=
  { regs := fun a => a ≠ p.base + R.CTL_ENABLE.off ∧ a ≠ p.base + R.STATE_STATE.off ∧ a ≠ p.base + R.REFUSAL_REASON.off
    mem := fun _ => rest, crofts := fun _ => True, wells := fun _ => rest, pumps := fun _ => rest, hamlets := fun _ => True
    queues := fun _ => True, links := fun _ => True, dev := True, out := True, seq := True }

section
variable {p : Page} {rest : Prop} (k : Nat)

@[simp] theorem onReg_butHead_same (o : Nat) : onReg (butHead p rest).regs p o ↔
    o ≠ R.CTL_ENABLE.off ∧ o ≠ R.STATE_STATE.off ∧ o ≠ R.REFUSAL_REASON.off := by
  simp only [onReg, butHead, ne_eq, Nat.add_left_cancel_iff]

@[simp] theorem onReg_butHead {q : Page} {o : Nat} (h : apart q o p R.CTL_ENABLE.off) (h' : apart q o p R.STATE_STATE.off)
    (h'' : apart q o p R.REFUSAL_REASON.off) : onReg (butHead p rest).regs q o := ⟨apart_ne h, apart_ne h', apart_ne h''⟩

@[simp] theorem butHead_crofts : (butHead p rest).crofts k := trivial
@[simp] theorem butHead_hamlets : (butHead p rest).hamlets k := trivial
@[simp] theorem butHead_queues : (butHead p rest).queues k := trivial
@[simp] theorem butHead_links : (butHead p rest).links k := trivial
@[simp] theorem butHead_dev : (butHead p rest).dev := trivial
@[simp] theorem butHead_out : (butHead p rest).out := trivial
@[simp] theorem butHead_seq : (butHead p rest).seq := trivial
@[simp] theorem butHead_mem : (butHead p rest).mem k ↔ rest := Iff.rfl
@[simp] theorem butHead_wells : (butHead p rest).wells k ↔ rest := Iff.rfl
@[simp] theorem butHead_pumps : (butHead p rest).pumps k ↔ rest := Iff.rfl

end

theorem Keeps.head_eq {p : Page} {rest : Prop} {s t : State} (h : Keeps (butHead p rest) s t) :
    t.bit p R.CTL_ENABLE = s.bit p R.CTL_ENABLE ∧ t.fld p R.STATE_STATE = s.fld p R.STATE_STATE ∧
    t.reg p R.REFUSAL_REASON.off = s.reg p R.REFUSAL_REASON.off :=
  ⟨h.bit_eq (by simp [butHead]), h.fld_eq (by simp [butHead]), h.reg_eq (by simp [butHead])⟩

end Sys2Proof.Machine
end

section
/-! SUPPORT. What the parts of a page's enable and disable may change. -/
namespace Sys2Proof.Machine

section
variable {T : Touch}

@[simp] theorem modSync_allows (f : BellSync → BellSync) : (modSync f).Only T.allows ↔ T.dev := modDev_allows _

theorem setLinkState_only {l : Nat} (h : onReg T.regs (pgLink l) R.link_LSTATUS_STATE.off) (h' : onReg T.regs pgPort R.port_STATUS_UP.off)
    (v : Nat) : (setLinkState l v).Only T.allows := by simp [setLinkState, h, h']

@[simp] theorem flood_allows_of (m : StewMsg) (skip : Option Nat) (h : ∀ q, T.links q) : (flood m skip).Only T.allows :=
  flood_only (fun q _ => h q) m skip

end

section
variable {rest : Prop} {p : Page}

theorem bellGo_only (hp : p.kind ≠ .bell) (hpp : p.placed) (st : Nat) : (bellGo st).Only (butHead p rest).allows := by
  intro s
  show Prog.Only _ (if _ then _ else _)
  split
  · trivial
  · simp [Prog.only_when, Ne.symm hp, hpp]

/-- A change of the Bell's STATE to another than LOCKED leaves the head of its page. -/
theorem bellGo_only_bell {st : Nat} (hst : st ≠ bLocked) : (bellGo st).Only (butHead pgBell rest).allows := by
  intro s
  show Prog.Only _ (if _ then _ else _)
  split
  · trivial
  · simp [Prog.only_when, hst]

theorem bellLinkDown_only (hp : p.kind ≠ .bell) (hpp : p.placed) (l : Nat) : (bellLinkDown l).Only (butHead p rest).allows := by
  intro s
  simp only [Prog.only_all_cons, Prog.only_all_nil, Prog.only_when, and_true, modSync_allows, butHead_dev, true_and]
  intro _ t
  simp only [Prog.only_all_cons, Prog.only_all_nil, and_true, modSync_allows, butHead_dev, true_and]
  split
  · simp [Ne.symm hp, hpp]
  · exact (Prog.only_when ..).2 fun _ => bellGo_only hp hpp _

theorem clearInjected_only (n : Nat) : (clearInjected n).Only (butHead pgCrier rest).allows := by
  intro s
  refine (Prog.only_when ..).2 fun _ => (setFld_allows ..).2 ((onReg_butHead_same _).2 ?_)
  simp only [Fld.plus]
  omega

theorem settle_only (t : Target) : (settle t).Only (butHead pgCrier rest).allows := by
  cases t with
  | reeve c =>
    simp only [settle, serveReeve]
    intro s
    show Prog.Only _ (if _ then _ else _)
    split
    · trivial
    · simp [Prog.only_when, enterService, leaveService, modCrier, clearInjected_only]
  | steward =>
    intro s
    show Prog.Only _ (if _ then _ else _)
    split
    · trivial
    · simp [Prog.only_when, setSignalled, modCrier]
  | vector v =>
    simp only [settle, settleVector]
    intro s
    show Prog.Only _ (if _ then _ else if _ then _ else _)
    split
    · trivial
    · split
      · simp only [Prog.only_all_cons, Prog.only_all_nil, and_true]
        refine ⟨by simp [modVec, modHost], fun s => ?_⟩
        show Prog.Only _ (if _ then _ else _)
        split
        all_goals simp [Prog.only_when, modVec, modHost, setSignalled, modCrier]
      · simp [modVec, modHost]

theorem sendPartner_only {T : Touch} (h : ∀ l, T.links l) (what k addr : Nat) (bs : List Byte) :
    (sendPartner what k addr bs).Only T.allows := by
  intro s t
  show Prog.Only _ (match (t.portLinks (s.fld pgBucket R.bucket_CFG_PARTNER_PORT))[
    k % (t.portLinks (s.fld pgBucket R.bucket_CFG_PARTNER_PORT)).length]? with | none => _ | some l => _)
  split
  · trivial
  · simp [h]

/-- What Watch and Bucket may change at a step boundary: their pages, memory and its protection, and what goes out. -/
structure Touch.snapshots (T : Touch) : Prop extends T.guards where
  watch : ∀ o, o < 0x1000 → onReg T.regs pgWatch o
  bucket : ∀ o, o < 0x1000 → onReg T.regs pgBucket o
  links : ∀ l, T.links l
  seq : T.seq

/-- What a step boundary may change, beside the reeve pages' Bell count: the device's own pages, memory and its protection. -/
structure Touch.boundary (T : Touch) : Prop extends T.snapshots where
  num : ∀ o, o < 0x1000 → onReg T.regs pgNum o
  ledger : ∀ g o, g < 2 → o < 0x1000 → onReg T.regs (pgLedger g) o

section
variable {T : Touch} (h : T.boundary)
include h

theorem numericsBoundary_only : numericsBoundary.Only T.allows := by
  intro s
  simp only [Prog.only_all_cons, Prog.only_all_nil, setReg_allows, setFld_allows, modDev_allows, h.dev, and_true, true_and]
  refine ⟨h.num _ (by decide), h.num _ (by decide), h.num _ (by decide), fun t => ?_⟩
  simp only [Prog.only_all_cons, Prog.only_all_nil, modDev_allows, h.dev, and_true, true_and]
  split
  · trivial
  · simp [h.num, h.dev]

theorem ledgerSwap_only (b : Bool) : (ledgerSwap b).Only T.allows := by
  simp [ledgerSwap, h.ledger, h.dev]

end

section
variable {T : Touch} (h : T.snapshots)
include h

theorem writeStateBlock_only (b : Nat) : (writeStateBlock b).Only T.allows := by
  have hst (a : Nat) (bs : List Byte) := store_only h.toguards (fun own addr => ueReact_outer (src := some .steward) (by decide) own addr) a bs
  have hrd (a n : Nat) := readBy_only h.toguards (fun own addr => ueReact_outer (src := some .steward) (by decide) own addr) a n
  simp [writeStateBlock, hst, hrd]

theorem beginSnapshot_only (b : Nat) (forced : Bool) : (beginSnapshot b forced).Only T.allows := by
  have hslot (s : State) : (match s.latestOwn with | some (x, _) => 1 - x | none => Config.openBit s.seq % 2) < 2 := by
    split
    all_goals omega
  have hst (a : Nat) (bs : List Byte) := store_only h.toguards (fun own addr => ueReact_outer (src := some .bucket) (by decide) own addr) a bs
  intro s
  simp only [Prog.only_all_cons, Prog.only_all_nil, Prog.only_eff, Prog.only_when, setReg_allows, setFld_allows, bump_allows, modDev_allows,
    h.dev, and_true, true_and]
  exact ⟨h.seq, writeStateBlock_only h b, hst _ _, sendPartner_only h.links _ _ _ _, h.bucket _ (Nat.lt_of_le_of_lt (Nat.add_le_add_left (Nat.mul_le_mul_left 4 (Nat.le_of_lt (hslot s))) 0x070) (by decide)), h.bucket _ (by decide),
    h.bucket _ (by decide), h.bucket _ (by decide), h.bucket _ (by decide), fun _ => h.bucket _ (by decide)⟩

theorem bucketBoundary_only : bucketBoundary.Only T.allows := by
  intro s
  show Prog.Only _ (if _ then _ else match s.dev.snap with | none => _ | some _ => _)
  split
  · trivial
  · split
    · exact (Prog.only_when ..).2 fun _ => beginSnapshot_only h _ _
    · simp [Prog.only_when, h.bucket]

theorem watchBoundary_only : watchBoundary.Only T.allows := by
  refine fun s => (Prog.only_when ..).2 fun _ t => ?_
  simp only [Prog.only_all_cons, Prog.only_all_nil, and_true]
  refine ⟨by simp [h.watch], ?_⟩
  split
  · simp [h.watch]
  · simp [askSnapshot, Prog.only_when, h.dev, h.links]

end

theorem passBoundary_only (c : Nat) : passBoundary.Only (butHead (pgReeve c) True).allows := by
  have hb : (butHead (pgReeve c) True).boundary :=
    { dev := trivial, mem := fun _ => trivial, links := fun _ => trivial, seq := trivial
      cist := fun _ _ ho => by simp [ho], gran := fun _ _ ho => by simp [ho], num := fun _ ho => by simp [ho]
      ledger := fun _ _ hg ho => by simp [ho, hg], watch := fun _ ho => by simp [ho], bucket := fun _ ho => by simp [ho] }
  simp only [passBoundary, Prog.only_all_cons, Prog.only_all_nil, Prog.only_each, and_true]
  refine ⟨numericsBoundary_only hb, fun k _ => ?_, ledgerSwap_only hb _, watchBoundary_only hb.tosnapshots, bucketBoundary_only hb.tosnapshots, fun s => by simp⟩
  simp [latchBell, Prog.only_when]

theorem accepted_only {p : Page} (hp : p.kind ≠ .link) (partner ward : Option Peer) : (accepted p partner ward).Only (butHead p False).allows := by
  obtain ⟨k, n⟩ := p
  cases k with
  | own => simp [accepted]
  | reeve => simp [accepted]
  | numstep => simp [accepted]
  | ledger => simp [accepted, ledgerClear]
  | bell =>
    show bellEnabled.Only (butHead pgBell False).allows
    intro s
    show Prog.Only _ (if _ then _ else _)
    split
    · simp [bellStep, Prog.only_when, bellGo_only_bell (st := bRoot) (by decide)]
    · exact bellGo_only_bell (by decide)
  | bucket =>
    show (bucketEnabled partner ward).Only (butHead pgBucket False).allows
    simp [bucketEnabled]
  | granary => simp [accepted]
  | crier => exact fun s => (Prog.only_each ..).2 fun t _ => settle_only t
  | _ => trivial

theorem disabled_only {p : Page} (hp : p.placed) : (disabled p).Only (butHead p True).allows := by
  obtain ⟨k, n⟩ := p
  cases k with
  | plan => 
    show planDisabled.Only (butHead pgPlan True).allows
    simp [planDisabled, Prog.only_when]
  | reeve =>
    simp only [disabled, tryBoundary, Prog.only_all_cons, Prog.only_all_nil, and_true]
    exact ⟨by simp, Prog.only_whenever _ (passBoundary_only n)⟩
  | bell =>
    show bellDisabled.Only (butHead pgBell True).allows
    simp [bellDisabled, bellGo_only_bell (st := bFree) (by decide)]
  | crier => exact fun s => (Prog.only_each ..).2 fun t _ => settle_only t
  | link =>
    simp [disabled, linkDisabled, setLinkState, Prog.only_when, bellLinkDown_only (p := ⟨.link, n⟩) (by simp) hp]
  | _ => trivial

end

/-- Memory, the pumps and the wells of a program whose frame does not name them are as they were, listed as they were. -/
theorem Prog.stores_eq {T : Touch} (hm : ∀ a, ¬ T.mem a) (hp : ∀ a, ¬ T.pumps a) (hw : ∀ a, ¬ T.wells a) {p : Prog} (h : p.Only T.allows)
    (s : State) : (p.run s).mem = s.mem ∧ (p.run s).pumps = s.pumps ∧ (p.run s).wells = s.wells := by
  have hnone {α : Type} (m : List (Nat × α)) {lo hi : Nat} {A : Nat → Prop} (hA : ∀ a, ¬ A a) (ha : ∀ x, lo ≤ x → x < hi → A x) :
      Sparse.eraseRange m lo hi = m :=
    List.filter_eq_self.2 fun e _ => by
      have := fun h1 h2 => hA _ (ha e.1 h1 h2)
      simpa [imp_iff_or_not, or_comm] using this
  have hact (a : Act) (s : State) (ha : T.allows a) :
      ((a.apply s).mem, (a.apply s).pumps, (a.apply s).wells) = (s.mem, s.pumps, s.wells) := by
    cases a with
    | bytes a bs =>
      cases bs with
      | nil => rfl
      | cons b bs => exact absurd (ha a le_rfl (by simp)) (hm a)
    | memErase lo hi => simp [hnone s.mem hm ha]
    | pump g r => exact absurd ha (hp g)
    | pumpErase lo hi => simp [hnone s.pumps hp ha]
    | well g r => exact absurd ha (hw g)
    | wellErase lo hi => simp [hnone s.wells hw ha]
    | _ => rfl
  simpa [Prod.ext_iff] using Prog.Only.keeps (fun s => (s.mem, s.pumps, s.wells)) hact h s

end Sys2Proof.Machine
end

section
/-! SUPPORT. Faults of a granary's controller (R322). -/
namespace Sys2Proof.Machine

/-- A frame that keeps every register of page `p`, and memory. -/
def offPage (p : Page) : Touch :=
  { regs := fun a => ¬ p.covers a, crofts := fun _ => True, wells := fun _ => True, pumps := fun _ => True, hamlets := fun _ => True
    queues := fun _ => True, links := fun _ => True, dev := True, out := True, seq := True }

@[simp] theorem onReg_offPage {p q : Page} {o : Nat} (ho : o < 0x1000) (h : q.kind ≠ p.kind ∨ q.number ≠ p.number) (hq : q.placed)
    (hp : p.placed) : onReg (offPage p).regs q o := by
  simp only [onReg, offPage, Page.covers, not_and, not_lt]
  intro h1
  by_contra h2
  obtain ⟨o', e⟩ := Nat.exists_eq_add_of_le h1
  have ho' : o' < 0x1000 := by omega
  exact apart_ne ((apart_iff q o p o').2 ⟨ho, ho', .inr ⟨h, hq, hp⟩⟩) e

@[simp] theorem offPage_crofts (p : Page) (k : Nat) : (offPage p).crofts k := trivial
@[simp] theorem offPage_dev (p : Page) : (offPage p).dev := trivial

theorem Keeps.offPage_reg {p : Page} {s t : State} (h : Keeps (offPage p) s t) {o : Nat} (ho : o < 0x1000) : t.reg p o = s.reg p o :=
  h.reg_eq fun hn => hn ((onReg_covers p o).2 ho)

/-- The crofts that a granary controller's fault halts. -/
def granHalts (s : State) (h : Nat) : Prog := Prog.each ((List.range 16).map (h * 16 + ·))
  (fun c => Prog.when (s.granWaits c h) (.all [haltReq c 3, stepEnds]))

theorem granFault_run (h cause addr : Nat) (s : State) : (granFault h cause addr).run s =
    (granHalts s h).run ((Prog.all [pageFault (pgGran h) cause addr, raiseLine (pgGran h)]).run s) := by
  simp -implicitDefEqProofs only [granFault, granHalts, Prog.run_get, Prog.run_all_cons, Prog.run_all_nil]

theorem granHalts_keeps (s : State) (h : Nat) (u : State) : Keeps (offPage (pgGran h)) u ((granHalts s h).run u) :=
  Prog.keeps (by simp [granHalts, Prog.only_when]) u

/-- A controller fault puts the granary page in FAULT with its cause. -/
theorem granFault_faults (h : Nat) {cause : Nat} (hc : cause < 2 ^ R.FAULT_CAUSE.width) (addr : Nat) (s : State) :
    Faults s ((granFault h cause addr).run s) (pgGran h) cause := by
  rw [granFault_run]
  refine (pageFault_faults (pgGran h) hc addr s).congr (fun _ _ => rfl) fun f hf => (granHalts_keeps s h _).offPage_reg ?_
  revert f
  decide

end Sys2Proof.Machine
end

section
/-! O57: ENABLE is set, checked and cleared (R4, R267, R316, R322, R373, R540 to R543). -/
namespace Sys2Proof.Machine

theorem exec_onPage {who : Agent} {pg : BitVec 16} {p : Page} {s : State} (hp : pageOf pg = some p) (hr : s.reaches who p) (f : Page → Prog) :
    (onPage who pg f).run s = (f p).run s := by
  rw [onPage, hp]
  exact regWrite_reaches hr ..

theorem pageAt_placed {a : Nat} {p : Page} (h : pageAt a = some p) : p.placed := by
  unfold pageAt at h
  split at h
  · split at h
    case h_17 n _ _ _ _ _ _ _ _ _ _ _ _ _ _ _ _ =>
      split_ifs at h with h1 h2
      all_goals
        obtain rfl := Option.some.inj h
        simp only [Page.placed, reduceCtorEq, false_implies, true_implies, true_and, and_true]
        omega
    all_goals
      obtain rfl := Option.some.inj h
      simp
  · simp only at h
    split_ifs at h
    · obtain rfl := Option.some.inj h
      simp
    · obtain rfl := Option.some.inj h
      simp
    · split at h
      case h_9 n _ _ _ _ _ _ _ _ =>
        split_ifs at h
        all_goals
          obtain rfl := Option.some.inj h
          simp
      all_goals
        obtain rfl := Option.some.inj h
        simp

theorem firstFail_none {fs : Fails} : firstFail fs = none ↔ fs = [] := by
  cases fs with
  | nil => simp [firstFail]
  | cons f fs =>
    simp only [firstFail, List.cons_ne_nil, iff_false]
    split
    · simp
    · split <;> simp

/-- The frame of a link's state. -/
def linkTouch (l : Nat) : Touch := { regs := someRegs [(pgLink l, [R.link_LSTATUS_STATE]), (pgPort, [R.port_STATUS_UP])] }

theorem setLinkState_keeps (l v : Nat) (s : State) : Keeps (linkTouch l) s ((setLinkState l v).run s) :=
  Prog.keeps (setLinkState_only (by simp [linkTouch]) (by simp [linkTouch]) v) s

theorem trainLink_keeps (p : Page) (s : State) : Keeps (linkTouch p.inst) s ((trainLink p).run s) := by
  rw [trainLink, Prog.run_get, Prog.run_when]
  split
  · exact setLinkState_keeps ..
  · exact Keeps.refl ..

/-- A link's state leaves the head of its page. -/
theorem linkTouch_head {p : Page} (hk : p.kind = .link) (hp : p.placed) {s t : State} (h : Keeps (linkTouch p.inst) s t) :
    t.bit p R.CTL_ENABLE = s.bit p R.CTL_ENABLE ∧ t.fld p R.STATE_STATE = s.fld p R.STATE_STATE ∧
    t.reg p R.REFUSAL_REASON.off = s.reg p R.REFUSAL_REASON.off ∧ t.dev = s.dev := by
  have hnot {o : Nat} (ho : o < 0x40) : ¬ (linkTouch p.inst).regs (p.base + o) := by
    obtain ⟨k, n⟩ := p
    obtain rfl : k = .link := hk
    rintro ⟨x, hx, f, hf, e⟩
    simp only [List.mem_cons, List.not_mem_nil, or_false] at hx
    rcases hx with rfl | rfl
    all_goals
      obtain rfl := List.mem_singleton.1 hf
      refine apart_ne ?_ e
      simp [hp]
      omega
  exact ⟨h.bit_eq (hnot (by decide)), h.fld_eq (hnot (by decide)), h.reg_eq (hnot (by decide)), h.dev id⟩

/-- What a write of 1 to ENABLE of a disabled page sets. -/
def enableRequest (p : Page) : Prog := .all [
  setFld p R.CTL_ENABLE 1, setFld p R.STATE_STATE stBusy,
  modDev (fun d => { d with checks := d.checks.filter (· != p.base) ++ [p.base] })]

theorem setEnable_run {s : State} {p : Page} (h : s.bit p R.CTL_ENABLE = false) (h' : s.stuck p = false) :
    (setEnable p).run s = (Prog.when (p.kind == .link) (trainLink p)).run ((enableRequest p).run s) := by
  simp only [setEnable, enableRequest, Prog.run_get, h, h', Bool.or_self, Bool.false_eq_true, if_false, Prog.run_all_cons, Prog.run_all_nil]

theorem enableRequest_run (p : Page) (s : State) :
    let t := (enableRequest p).run s
    t.bit p R.CTL_ENABLE = true ∧ t.fld p R.STATE_STATE = stBusy ∧ t.dev = { s.dev with checks := s.dev.checks.filter (· != p.base) ++ [p.base] } ∧
    Keeps { regs := theRegs p [R.CTL_ENABLE, R.STATE_STATE], dev := True } s t := by
  refine ⟨?_, ?_, ?_, Prog.keeps (by simp [enableRequest]) s⟩
  all_goals simp -implicitDefEqProofs [enableRequest, modDev, stBusy]

/-- The state in which the check of a page ends: it waits no longer. -/
def State.checked (s : State) (p : Page) : State := { s with dev := { s.dev with checks := s.dev.checks.filter (· != p.base) } }

theorem checked_fails (s : State) (p : Page) (partner ward : Option Peer) : (s.checked p).fails p partner ward = s.fails p partner ward := rfl

theorem checked_keeps (s : State) (p : Page) : Keeps { dev := True } s (s.checked p) :=
  Prog.keeps (p := modDev (fun d => { d with checks := d.checks.filter (· != p.base) })) (by simp) s

theorem checked_bit (s : State) (q p : Page) (f : Fld) : (s.checked q).bit p f = s.bit p f := rfl

/-- The page whose check runs is BUSY. -/
theorem checking_busy {s : State} {p : Page} (h : s.checking = some p) : s.fld p R.STATE_STATE = stBusy := by
  have := List.find?_some h
  simp only [Bool.and_eq_true, beq_iff_eq] at this
  exact this.1

theorem exec_checkDone {s : State} {pg : BitVec 16} {p : Page} (hp : pageOf pg = some p) (h : s.checking = some p) (ok : Bool)
    (partner ward : Option Peer) :
    exec (.enableCheckDone pg ok partner ward) s = .next ((checkEnds p ok partner ward).run (s.checked p)) := by
  show execEnableCheckDone pg ok partner ward s = _
  rw [execEnableCheckDone, Prog.next_eq, Prog.run_get]
  simp only [hp, h, beq_self_eq_true, Prog.run_when_true, Prog.run_all_cons, Prog.run_all_nil]
  rfl

/-- Settles O57. -/
theorem enablesAreCheckedAndCleared : Obligations.EnablesAreCheckedAndCleared := by
  unfold Obligations.EnablesAreCheckedAndCleared
  refine ⟨⟨?sets, ?checks⟩, ?clears⟩
  case sets =>
    intro s who pg p hp hr
    have hexec : exec (.enableSet who pg) s = .next ((setEnable p).run s) := congrArg Host.Outcome.next (exec_onPage hp hr _)
    refine ⟨fun h => ⟨_, hexec, ?_⟩, fun h h' => ⟨_, hexec, ?_⟩⟩
    · rw [setEnable, Prog.run_get, if_pos (by simpa using h)]
      exact ignored_run ..
    · rw [setEnable_run h h']
      obtain ⟨henable, hstate, hdev, hkeep⟩ := enableRequest_run p s
      by_cases hk : p.kind = .link
      · obtain ⟨h1, h2, -, h4⟩ := linkTouch_head hk (pageAt_placed hp) (trainLink_keeps p ((enableRequest p).run s))
        rw [hk, beq_self_eq_true, Prog.run_when_true, h1, h2, h4, hdev]
        exact ⟨henable, hstate, rfl, fun hn => absurd rfl hn⟩
      · rw [beq_false_of_ne hk, Prog.run_when_false]
        refine ⟨henable, hstate, ?_, fun _ => ⟨?_, hkeep⟩⟩
        all_goals rw [hdev]
  case checks =>
    intro s pg ok partner ward p hp
    have hplaced := pageAt_placed hp
    refine ⟨fun h => ?_, fun code off h hf => ⟨_, exec_checkDone hp h ok partner ward, ?_⟩, fun h hf hk => ⟨_, exec_checkDone hp h ok partner ward, ?_⟩,
      fun h hf hk hok => ⟨_, exec_checkDone hp h ok partner ward, ?_⟩, fun h hf hk hok => ⟨_, exec_checkDone hp h ok partner ward, ?_⟩⟩
    · show execEnableCheckDone pg ok partner ward s = _
      rw [execEnableCheckDone, Prog.next_eq, Prog.run_get]
      simp only [hp, beq_eq_false_iff_ne.2 h, Prog.run_when_false]
    · rw [checkEnds, Prog.run_get, checked_fails, hf]
      have hrefused : (nowRefused p code off).Only (Touch.allows { regs := theRegs p [R.CTL_ENABLE, R.STATE_STATE, R.REFUSAL_REASON] }) := by
        simp [nowRefused]
      have h1 : ((nowRefused p code off).run (s.checked p)).bit p R.CTL_ENABLE = false := by simp -implicitDefEqProofs [nowRefused]
      have h2 : ((nowRefused p code off).run (s.checked p)).fld p R.STATE_STATE = stRefused := by
        simp -implicitDefEqProofs [nowRefused, stRefused]
      have h3 : ((nowRefused p code off).run (s.checked p)).reg p R.REFUSAL_REASON.off = BitVec.ofNat 32 (code + off * 2 ^ 16) := by
        simp -implicitDefEqProofs [nowRefused]
      have h4 := (Prog.keeps hrefused (s.checked p)).dev id
      by_cases hk : p.kind = .link
      · obtain ⟨k1, k2, k3, k4⟩ := linkTouch_head hk hplaced (setLinkState_keeps p.inst 0 ((nowRefused p code off).run (s.checked p)))
        simp only [Prog.run_all_cons, Prog.run_all_nil, hk, beq_self_eq_true, Prog.run_when_true]
        exact ⟨k1.trans h1, k2.trans h2, k3.trans h3, (congrArg Device.checks k4).trans (congrArg Device.checks h4), fun hn => absurd rfl hn⟩
      · simp only [Prog.run_all_cons, Prog.run_all_nil, beq_false_of_ne hk, Prog.run_when_false]
        refine ⟨h1, h2, h3, congrArg Device.checks h4, fun _ => ?_⟩
        exact Prog.keeps (p := .all [modDev (fun d => { d with checks := d.checks.filter (· != p.base) }), nowRefused p code off])
          (by simp [nowRefused]) s
    · rw [checkEnds, Prog.run_get, checked_fails, hf]
      simp only [hk, beq_self_eq_true, if_true]
      have hfails : s.fails p none none = [] := (firstFail_none.1 hf).symm ▸ (by
        obtain ⟨k, n⟩ := p
        obtain rfl : k = .link := hk
        rfl)
      obtain ⟨-, hstate, -, -⟩ := linkTouch_head hk hplaced (trainLink_keeps p (s.checked p))
      refine ⟨hstate.trans (show s.fld p R.STATE_STATE = stBusy from checking_busy h), ?_⟩
      rw [trainLink, Prog.run_get, checked_fails, hfails]
      have hlink : (s.checked p).linkState p.inst = s.linkState p.inst ∧ (s.checked p).linkDowned p.inst = s.linkDowned p.inst := ⟨rfl, rfl⟩
      have hset (u : State) : ((setLinkState p.inst 1).run u).linkState p.inst = 1 := by
        obtain ⟨k, n⟩ := p
        obtain rfl : k = .link := hk
        have hn : n < 16 := hplaced.2 rfl
        simp -implicitDefEqProofs [setLinkState, State.linkState, hn]
      by_cases h1 : s.linkState p.inst = 1
      · simp [hlink, h1]
      · cases h2 : s.linkDowned p.inst
        · simp [hlink, bne_iff_ne.2 h1, h2, hset]
        · simp [hlink, h2]
    · rw [checkEnds, Prog.run_get, checked_fails, hf]
      simp only [hk, hok, beq_self_eq_true, Bool.not_false, Bool.and_self, if_true]
      rw [if_neg (by decide)]
      obtain ⟨k, n⟩ := p
      obtain rfl : k = .granary := hk
      exact granFault_faults n (cause := 1) (by decide) 0 (s.checked _)
    · rw [checkEnds, Prog.run_get, checked_fails, hf]
      have hnot : ¬ ((p.kind == .granary && !ok) = true) := by
        simpa using hok
      simp only [beq_false_of_ne hk, Bool.false_eq_true, if_false]
      rw [if_neg hnot]
      simp only [Prog.run_all_cons, Prog.run_all_nil]
      have haccepted := accepted_only hk partner ward
      obtain ⟨h1, h2, h3⟩ := (Prog.keeps haccepted ((nowEnabled p).run (s.checked p))).head_eq
      obtain ⟨h4, h5, h6⟩ := Prog.stores_eq (fun _ => id) (fun _ => id) (fun _ => id) haccepted ((nowEnabled p).run (s.checked p))
      refine ⟨h2.trans ?_, h3.trans ?_, h1.trans ?_, h4.trans ?_, h5.trans ?_, h6.trans ?_⟩
      · simp -implicitDefEqProofs [nowEnabled, stEnabled]
      · simp -implicitDefEqProofs [nowEnabled]
      · simp -implicitDefEqProofs [nowEnabled, checked_bit]
      all_goals rfl
  case clears =>
    intro s who pg p hp hr
    have hexec : exec (.enableClear who pg) s = .next ((clearEnable p).run s) := congrArg Host.Outcome.next (exec_onPage hp hr _)
    refine ⟨fun h => ⟨_, hexec, ?_⟩, fun h hi => ⟨_, hexec, ?_⟩, fun h hi => ⟨_, hexec, ?_⟩⟩
    · rw [clearEnable, Prog.run_get, if_pos (by simpa [imp_iff_not_or] using h)]
      exact ignored_run ..
    · have hoff : ((clearEnable p).run s) = (disabled p).run ((Prog.when (!s.stuck p) (setFld p R.STATE_STATE stDisabled)).run
          ((setFld p R.CTL_ENABLE 0).run s)) := by
        rw [clearEnable, Prog.run_get, if_neg (by simpa using h), if_pos hi]
        simp only [Prog.run_all_cons, Prog.run_all_nil]
      obtain ⟨h1, h2, h3⟩ := (Prog.keeps (disabled_only (pageAt_placed hp))
        ((Prog.when (!s.stuck p) (setFld p R.STATE_STATE stDisabled)).run ((setFld p R.CTL_ENABLE 0).run s))).head_eq
      rw [hoff]
      cases hstuck : s.stuck p
      all_goals rw [hstuck] at h1 h2 h3
      · refine ⟨h1.trans ?_, h2.trans ?_, h3.trans ?_⟩
        all_goals simp -implicitDefEqProofs [stDisabled]
      · have hfault : s.fld p R.STATE_STATE = stFault := by
          simp only [State.stuck, Bool.and_eq_true, beq_iff_eq] at hstuck
          exact hstuck.1
        refine ⟨h1.trans ?_, h2.trans ?_, h3.trans ?_⟩
        all_goals simp -implicitDefEqProofs [hfault]
    · rw [clearEnable, Prog.run_get, if_neg (by simpa using h), if_neg (by simp [hi])]
      refine ⟨?_, ?_, ?_, Prog.keeps (by simp) s⟩
      · simp -implicitDefEqProofs [Counts, ignored]
      all_goals
        simp -implicitDefEqProofs [ignored]
        decide

end Sys2Proof.Machine
end

section
/-! SUPPORT. The MSI-X table and its messages (R446). -/
namespace Sys2Proof.Machine

section
variable {T : Touch}
@[simp] theorem modHost_allows (f : HostPort → HostPort) : (modHost f).Only T.allows ↔ T.dev := modDev_allows _
@[simp] theorem modCrier_allows (f : CrierState → CrierState) : (modCrier f).Only T.allows ↔ T.dev := modDev_allows _
@[simp] theorem modPower_allows (f : Power → Power) : (modPower f).Only T.allows ↔ T.dev := modDev_allows _
@[simp] theorem modGauge_allows (f : Gauge → Gauge) : (modGauge f).Only T.allows ↔ T.dev := modDev_allows _
@[simp] theorem modMailbox_allows (f : Mailbox → Mailbox) : (modMailbox f).Only T.allows ↔ T.dev := modHost_allows _
@[simp] theorem modVec_allows (v : Nat) (f : Vec → Vec) : (modVec v f).Only T.allows ↔ T.dev := by simp [modVec, forall_const_iff]
@[simp] theorem setSignalled_allows (t : Target) : (setSignalled t).Only T.allows ↔ T.dev := modCrier_allows _
end

theorem sendMsix_only {T : Touch} (hd : T.dev) (ho : T.out) (v : Nat) : (sendMsix v).Only T.allows := by
  intro s
  show Prog.Only _ (if _ then _ else _)
  split
  all_goals simp [Prog.only_when, hd, ho]

@[simp] theorem modVec_vec (v : Nat) (f : Vec → Vec) (s : State) (w : Nat) :
    ((modVec v f).run s).vec w = if w = v then f (s.vec v) else s.vec w := by
  by_cases h : w = v
  · simp [modVec, modHost, modDev, State.vec, h]
  · simp [modVec, modHost, modDev, State.vec, Sparse.get?_set, h]

@[simp] theorem setSignalled_vec (t : Target) (s : State) (w : Nat) : ((setSignalled t).run s).vec w = s.vec w := by
  simp [setSignalled, modCrier, modDev, State.vec]

theorem sendMsix_run (v : Nat) (s : State) : (sendMsix v).run s =
    if (s.vec v).masked || s.dev.host.funcMask then (modVec v (fun e => { e with pend := true })).run s
    else (Prog.when s.dev.host.allows (.all [emit (.msix v (s.vec v).addr (s.vec v).data), modVec v (fun e => { e with pend := false }),
      setSignalled (.vector v)])).run s := by
  rw [sendMsix, Prog.run_get]
  exact Prog.run_ite ..

@[simp] theorem ite_one_mod_two (b : Bool) : ((if b = true then 1 else 0) % 2 == 1) = b := by cases b <;> rfl

/-- The three bits that allow messages. -/
def SameGate (s t : State) : Prop :=
  t.dev.host.busMaster = s.dev.host.busMaster ∧ t.dev.host.msixEnable = s.dev.host.msixEnable ∧ t.dev.host.funcMask = s.dev.host.funcMask

theorem sendMsix_gate (v : Nat) (s : State) : SameGate s ((sendMsix v).run s) := by
  unfold SameGate
  rw [sendMsix_run]
  split
  · simp [modVec, modHost, modDev]
  · rw [Prog.run_when]
    split
    · simp [modVec, modHost, modDev, setSignalled, modCrier, emit]
    · simp

theorem modVec_gate (v : Nat) (f : Vec → Vec) (s : State) : SameGate s ((modVec v f).run s) := by
  unfold SameGate
  simp [modVec, modHost, modDev]

theorem SameGate.allows {s t : State} (h : SameGate s t) : t.dev.host.allows = s.dev.host.allows := by
  simp only [HostPort.allows, h.1, h.2.1, h.2.2]

theorem vec_out (o : Out) (s : State) (w : Nat) : ((Act.out o).apply s).vec w = s.vec w := rfl

theorem releaseMsix_gate (before : Bool) (s : State) : SameGate s ((releaseMsix before).run s) := by
  rw [releaseMsix, Prog.run_get, Prog.run_when]
  split
  · exact each_aside (fun _ => ⟨rfl, rfl, rfl⟩)
      (fun _ _ _ h k => ⟨k.1.trans h.1, k.2.1.trans h.2.1, k.2.2.trans h.2.2⟩) (fun v _ s => sendMsix_gate v.1 s) s
  · exact ⟨rfl, rfl, rfl⟩

theorem releaseMsix_only {T : Touch} (hd : T.dev) (ho : T.out) (before : Bool) : (releaseMsix before).Only T.allows :=
  fun _ => (Prog.only_when ..).2 fun _ => (Prog.only_each ..).2 fun v _ => sendMsix_only hd ho v.1

/-- With no message due, allowing messages sends none. -/
theorem releaseMsix_none {s : State} (h : s.dev.host.vecs.any (fun v => v.2.asserted && !v.2.masked) = false) (before : Bool) :
    (releaseMsix before).run s = s := by
  have hnil : s.dev.host.vecs.filter (fun v => v.2.asserted && !v.2.masked) = [] :=
    List.filter_eq_nil_iff.2 fun v hv => by simpa using List.any_eq_false.1 h v hv
  rw [releaseMsix, Prog.run_get, Prog.run_when, hnil]
  split <;> rfl

end Sys2Proof.Machine
end

section
/-! O45: configuration, the MSI-X table, the link and the mailbox doorbell (R438, R439, R446, R447, R449, R450). -/
namespace Sys2Proof.Machine

theorem needsIde_free {s : State} {ide : Bool} (h : s.bit pgHost R.host_CFG_IDE_REQ = false ∨ ide = true) (write : Bool) (k : Prog) :
    (needsIde ide write k).run s = k.run s := by
  rw [needsIde, Prog.run_get, if_neg]
  rcases h with h | h <;> simp [h]

theorem needsIde_counts {s : State} {ide : Bool} (h : ¬ (s.bit pgHost R.host_CFG_IDE_REQ = false ∨ ide = true)) (write : Bool) (k : Prog) :
    (needsIde ide write k).run s = (Prog.all [bump pgHost R.host_IDE_REQ_CNT, Prog.when (!write) (emit .ur)]).run s := by
  rw [needsIde, Prog.run_get, if_pos]
  simpa using h

/-- A configuration write: the bits, then what they release, then its completion. -/
theorem config_run {f : HostPort → HostPort} (hf : ∀ h, (f h).vecs = h.vecs) (before : Bool) (s : State) :
    let t := (Prog.all [modHost f, releaseMsix before, emit (.done [])]).run s
    SameGate ((modHost f).run s) t ∧ t.out.getLast? = some (.done []) ∧
    (s.dev.host.vecs.any (fun v => v.2.asserted && !v.2.masked) = false → t.out = s.out ++ [.done []]) ∧
    Keeps { dev := True, out := True } s t := by
  have hout (u : State) : ((emit (.done [])).run u).out = u.out ++ [.done []] := by simp [emit]
  simp only [Prog.run_all_cons, Prog.run_all_nil]
  refine ⟨?_, ?_, fun h => ?_, ?_⟩
  · exact releaseMsix_gate before ((modHost f).run s)
  · rw [hout, List.getLast?_concat]
  · rw [hout, releaseMsix_none (by simpa [modHost, modDev, hf] using h)]
    rfl
  · exact (((Prog.keeps (by simp) s).trans (Prog.keeps (releaseMsix_only trivial trivial before) _)).trans (Prog.keeps (by simp) _))

/-- Whether a write of word `dw` of an entry unmasks it while it is asserted with its pending bit set. -/
def unmasksDue (e : Vec) (dw : Nat) (x : Word) : Bool :=
  e.masked && !(e.write dw x).masked && (e.write dw x).asserted && (e.write dw x).pend

theorem writeVec_run (v dw : Nat) (x : Word) (s : State) : (writeVec v dw x).run s =
    (Prog.when (unmasksDue (s.vec v) dw x) (sendMsix v)).run ((modVec v (fun _ => (s.vec v).write dw x)).run s) := by
  simp only [writeVec, unmasksDue, Prog.run_get, Prog.run_all_cons, Prog.run_all_nil]

theorem Vec.write_unmask (e : Vec) {x : Word} (hx : x.getLsbD 0 = false) : e.write 3 x = { e with masked := false } :=
  congrArg (fun b => { e with masked := b }) hx

theorem unmasksDue_iff (e : Vec) (dw : Fin 4) (x : Word) : unmasksDue e dw.val x = true ↔
    dw.val = 3 ∧ x.getLsbD 0 = false ∧ e.masked = true ∧ e.asserted = true ∧ e.pend = true := by
  fin_cases dw
  all_goals simp [unmasksDue, Vec.write]
  tauto

/-- What LINK reads after a change of the link, and what a change of its rate or width clears. -/
def linkReads (rate : Fin 7) (width : Fin 9) (flit : Bool) : Prog := .all [
  setFld pgHost R.host_LINK_RATE rate.val, setFld pgHost R.host_LINK_WIDTH width.val, setBit pgHost R.host_LINK_FLIT flit]
def linkDrops : Prog := .all [setFld pgHost R.CTL_ENABLE 0, setFld pgHost R.STATE_STATE stDisabled, raiseLine pgHost]

/-- The request that stands in the request area. -/
def newRequest (m : Mailbox) : Request :=
  ⟨leNat (m.bytes 0 4) % 65536, BitVec.ofNat 32 (leNat (m.bytes 4 4)), leNat (m.bytes 8 4), m.bytes 32 (min (leNat (m.bytes 8 4)) areaRoom)⟩

/-- The mailbox has taken the request of its area. -/
def takes (seq : Word) (s : State) : State :=
  (modMailbox (fun m => { m with mstate := 1, last := some seq, serving := some (newRequest s.dev.host.mailbox) })).run s

theorem takeRequest_run (seq : Word) (s : State) :
    let m := s.dev.host.mailbox
    let op := leNat (m.bytes 0 4)
    (takeRequest seq).run s =
      if ¬ (1 ≤ op % 65536 ∧ op % 65536 ≤ 9) then (respondTo (newRequest m) rsUnknown []).run (takes seq s)
      else if ¬ (op < 65536 ∧ leNat (m.bytes 8 4) ≤ areaRoom ∧ leNat (m.bytes 16 16) = 0) then
        (respondTo (newRequest m) rsMalformed []).run (takes seq s)
      else (Prog.when (isOrarnOp (newRequest m).op) (setFld pgOrarn R.orarn_STATUS_BUSY 1)).run (takes seq s) := by
  simp only [takeRequest, Prog.run_get, Prog.run_all_cons, Prog.run_all_nil, Prog.run_ite]
  refine if_congr ?_ rfl (if_congr ?_ rfl rfl)
  · simp
    omega
  · simp only [Bool.not_eq_true', Bool.and_eq_false_iff, beq_eq_false_iff_ne, decide_eq_false_iff_not]
    omega

theorem exec_doorbell {s : State} {seq : Word} {ide : Bool}
    (h : (s.bit pgHost R.host_CFG_IDE_REQ = false ∨ ide = true) ∧
      (s.dev.host.mailbox.mstate = 0 ∨ s.dev.host.mailbox.mstate = 2) ∧ s.dev.host.mailbox.last ≠ some seq) :
    exec (.mailboxDoorbell seq ide) s = .next ((takeRequest seq).run s) := by
  obtain ⟨hfree, hstate, hlast⟩ := h
  refine congrArg Host.Outcome.next ((needsIde_free hfree true _).trans ?_)
  rw [ringMailbox, Prog.run_get, if_pos]
  simpa using ⟨hstate, hlast⟩

theorem isOrarnOp_eq (op : Nat) : isOrarnOp op = decide (3 ≤ op ∧ op ≤ 5) := by
  rw [Bool.eq_iff_iff]
  simp only [isOrarnOp, opGetCert, opAttest, opMeasure, Bool.or_eq_true, beq_iff_eq, decide_eq_true_eq]
  omega

/-- What a response writes in the mailbox. -/
theorem respondTo_mailbox (r : Request) (result : Nat) (payload : List Byte) (s : State) :
    ((respondTo r result payload).run s).dev.host.mailbox = { s.dev.host.mailbox with
      serving := none
      response := toLe 4 r.op ++ toLe 4 r.seq.toNat ++ toLe 4 payload.length ++ toLe 4 result ++ List.replicate 16 0 ++ payload
      rspSeq := r.seq
      mstate := 2 } := by
  have hregs (b : Bool) (u : State) : ((Prog.when b (orarnAnswers result)).run u).dev = u.dev :=
    (Prog.keeps (T := { regs := fun _ => True }) (whenOrarnAnswers_only trivial b result) u).dev id
  simp only [respondTo, Prog.run_all_cons, Prog.run_all_nil]
  rw [← orarnAnswers, hregs]
  rfl

/-- A request taken and answered at once. -/
theorem answered_run (seq : Word) (result : Nat) (s : State) :
    let t := (respondTo (newRequest s.dev.host.mailbox) result []).run (takes seq s)
    Responds t (newRequest s.dev.host.mailbox) result [] ∧ t.dev.host.mailbox.last = some seq ∧
    t.dev.host.mailbox.area = s.dev.host.mailbox.area ∧ Keeps { regs := theRegs pgOrarn [R.orarn_STATUS_BUSY], dev := True } s t := by
  refine ⟨respondTo_responds .., ?_, ?_, (Prog.keeps (by simp) s).trans (respondTo_keeps ..)⟩
  all_goals rw [respondTo_mailbox]; simp [takes, modMailbox, modHost, modDev]

/-- Settles O45. -/
theorem hostPortAndMailboxDoorbell : Obligations.HostPortAndMailboxDoorbell := by
  unfold Obligations.HostPortAndMailboxDoorbell
  refine ⟨⟨?config, ?table, ?link, ?ide⟩, ?doorbell⟩
  case config =>
    intro s b e m
    refine ⟨⟨_, rfl, ?_⟩, ⟨_, rfl, ?_⟩, ⟨_, rfl, by simp [emit], Prog.keeps (by simp) s⟩⟩
    · obtain ⟨⟨h1, h2, h3⟩, hlast, hout, hkeep⟩ := config_run (f := fun h => { h with busMaster := b }) (fun _ => rfl) s.dev.host.allows s
      exact ⟨h1, h2, h3, hlast, hout, hkeep⟩
    · obtain ⟨⟨h1, h2, h3⟩, hlast, hout, hkeep⟩ :=
        config_run (f := fun h => { h with msixEnable := e, funcMask := m }) (fun _ => rfl) s.dev.host.allows s
      exact ⟨h2, h3, h1, hlast, hout, hkeep⟩
  case table =>
    intro s v dw x ide
    have hfree {h : s.bit pgHost R.host_CFG_IDE_REQ = false ∨ ide = true} : exec (.msixVectorControl v dw x ide) s =
        .next ((writeVec v.val dw.val x).run s) := congrArg Host.Outcome.next (needsIde_free h true _)
    refine ⟨fun h => ⟨_, congrArg Host.Outcome.next (needsIde_counts h true _), ?_⟩, fun h hs => ⟨_, hfree (h := h), ?_⟩,
      fun h hs => ⟨_, hfree (h := h), ?_⟩⟩
    · refine ⟨?_, Prog.keeps (by simp [Prog.only_when]) s⟩
      simp [Counts]
    · rw [writeVec_run]
      have hkeep := Prog.keeps (T := { dev := True }) (p := modVec v.val (fun _ => (s.vec v.val).write dw.val x)) (by simp) s
      have hgate := modVec_gate v.val (fun _ => (s.vec v.val).write dw.val x) s
      have hvec := modVec_vec v.val (fun _ => (s.vec v.val).write dw.val x) s
      generalize (modVec v.val (fun _ => (s.vec v.val).write dw.val x)).run s = u at *
      cases hd : unmasksDue (s.vec v.val) dw.val x
      · rw [Prog.run_when_false]
        exact ⟨fun w hw => by rw [hvec, if_neg hw], by rw [hvec, if_pos rfl], hkeep⟩
      · obtain ⟨hdw, hx, hmasked, hasserted, hpend⟩ := (unmasksDue_iff ..).1 hd
        have hno : u.dev.host.allows = false := by
          rw [hgate.allows]
          exact Bool.eq_false_iff.2 fun ha => hs ⟨hdw, hx, hmasked, hasserted, hpend, ha⟩
        have hnew : (s.vec v.val).write dw.val x = { s.vec v.val with masked := false } := by rw [hdw, Vec.write_unmask _ hx]
        rw [Prog.run_when_true, sendMsix_run, hno, Prog.run_when_false]
        split
        · refine ⟨fun w hw => ?_, ?_, hkeep.trans (Prog.keeps (by simp) u)⟩
          · rw [modVec_vec, if_neg hw, hvec, if_neg hw]
          · rw [modVec_vec, if_pos rfl, hvec, if_pos rfl, hnew, ← hpend]
        · exact ⟨fun w hw => by rw [hvec, if_neg hw], by rw [hvec, if_pos rfl], hkeep⟩
    · obtain ⟨hdw, hx, hmasked, hasserted, hpend, hallows⟩ := hs
      rw [writeVec_run, (unmasksDue_iff ..).2 ⟨hdw, hx, hmasked, hasserted, hpend⟩, Prog.run_when_true, sendMsix_run]
      have hkeep := Prog.keeps (T := { dev := True, out := True }) (p := modVec v.val (fun _ => (s.vec v.val).write dw.val x)) (by simp) s
      have hgate := modVec_gate v.val (fun _ => (s.vec v.val).write dw.val x) s
      have hvec := modVec_vec v.val (fun _ => (s.vec v.val).write dw.val x) s
      have hout : ((modVec v.val (fun _ => (s.vec v.val).write dw.val x)).run s).out = s.out := rfl
      generalize (modVec v.val (fun _ => (s.vec v.val).write dw.val x)).run s = u at *
      have hnew : (s.vec v.val).write dw.val x = { s.vec v.val with masked := false } := by rw [hdw, Vec.write_unmask _ hx]
      have hopen : ((u.vec v.val).masked || u.dev.host.funcMask) = false := by
        have := (hgate.allows).trans hallows
        simp only [HostPort.allows, Bool.and_eq_true, Bool.not_eq_true'] at this
        simp [hvec, hnew, this.2]
      rw [hopen, if_neg (by decide), hgate.allows, hallows, Prog.run_when_true]
      refine ⟨fun w hw => ?_, ?_, ?_, hkeep.trans (Prog.keeps (by simp) u)⟩
      · simp [emit, hvec, hw, vec_out]
      · simp [emit, hvec, vec_out]
      · simp [emit, modVec, modHost, modDev, setSignalled, modCrier, hvec, hnew, hout]
  case link =>
    intro s rate width flit
    have hrate : rate.val % 8 = rate.val := Nat.mod_eq_of_lt (by omega)
    have hwidth : width.val % 16 = width.val := Nat.mod_eq_of_lt (by omega)
    have hexec (b : Bool) (hb : ((s.fld pgHost R.host_LINK_RATE != rate.val || s.fld pgHost R.host_LINK_WIDTH != width.val) &&
        s.bit pgHost R.CTL_ENABLE) = b) : exec (.linkRateChange rate width flit) s =
        .next ((Prog.when b linkDrops).run ((linkReads rate width flit).run s)) := by
      subst hb
      show execLinkRateChange rate width flit s = _
      simp -implicitDefEqProofs only [execLinkRateChange, linkReads, Prog.next_eq, Prog.run_get, Prog.run_all_cons, Prog.run_all_nil]
      rfl
    refine ⟨fun h => ⟨_, hexec false ?_, ⟨?_, ?_, ?_⟩, ?_⟩, fun h he => ⟨_, hexec true ?_, ⟨?_, ?_, ?_⟩, ?_, ?_, fun hu => ?_, ?_⟩⟩
    · simpa [imp_iff_not_or, or_comm] using h
    · simp -implicitDefEqProofs [linkReads, hrate]
    · simp -implicitDefEqProofs [linkReads, hwidth]
    · simp -implicitDefEqProofs [linkReads]
    · exact Prog.keeps (by simp [linkReads]) s
    · simpa [imp_iff_not_or, he] using h
    · simp -implicitDefEqProofs [linkReads, linkDrops, hrate]
    · simp -implicitDefEqProofs [linkReads, linkDrops, hwidth]
    · simp -implicitDefEqProofs [linkReads, linkDrops]
    · simp -implicitDefEqProofs [linkReads, linkDrops]
    · simp -implicitDefEqProofs [linkReads, linkDrops, stDisabled]
    · simp -implicitDefEqProofs [linkReads, linkDrops, raiseLine_run_eq, hu]
    · exact (Prog.keeps (by simp [linkReads]) s).trans (Prog.keeps (by simp [linkDrops, Prog.only_when]) _)
  case ide =>
    intro s
    refine ⟨_, rfl, ?_, fun hu => ?_, ?_, Prog.keeps (by simp) s⟩
    · simp -implicitDefEqProofs [Counts, tellWatchOpen, tellWatch, modDev]
    · simp -implicitDefEqProofs [raiseLine_run_eq, hu, tellWatchOpen, tellWatch, modDev]
    · simp [tellWatchOpen, tellWatch, modDev]
  case doorbell =>
    intro s seq ide
    refine ⟨fun h => ⟨_, congrArg Host.Outcome.next (needsIde_counts h true _), ?_⟩,
      fun h ht => ⟨_, congrArg Host.Outcome.next (needsIde_free h true _), ?_⟩, fun ht hk => ⟨_, exec_doorbell ht, ?_⟩,
      fun ht hk hf => ⟨_, exec_doorbell ht, ?_⟩, fun ht hk hf => ⟨_, exec_doorbell ht, ?_⟩⟩
    · exact ⟨by simp [Counts], Prog.keeps (by simp [Prog.only_when]) s⟩
    · rw [ringMailbox, Prog.run_get, if_neg]
      · exact bumpBy_run ..
      · simpa [h, imp_iff_not_or] using ht
    · rw [takeRequest_run, if_pos hk]
      exact answered_run ..
    · rw [takeRequest_run, if_neg (not_not.2 hk), if_pos hf]
      exact answered_run ..
    · rw [takeRequest_run, if_neg (not_not.2 hk), if_neg (not_not.2 hf)]
      have hkeep : (Prog.when (isOrarnOp (newRequest s.dev.host.mailbox).op) (setFld pgOrarn R.orarn_STATUS_BUSY 1)).Only
          (Touch.allows { regs := theRegs pgOrarn [R.orarn_STATUS_BUSY] }) := by simp [Prog.only_when]
      have hbit : (takes seq s).bit pgOrarn R.orarn_STATUS_BUSY = s.bit pgOrarn R.orarn_STATUS_BUSY := rfl
      refine ⟨?_, ?_, (Prog.keeps (by simp) s).trans (Prog.keeps (by simp [Prog.only_when]) _)⟩
      · exact ((Prog.keeps hkeep (takes seq s)).dev id).trans (by simp [takes, modMailbox, modHost, modDev, newRequest])
      · show _ = (_ || decide (3 ≤ (newRequest s.dev.host.mailbox).op ∧ (newRequest s.dev.host.mailbox).op ≤ 5))
        rw [← isOrarnOp_eq, ← hbit]
        cases isOrarnOp (newRequest s.dev.host.mailbox).op
        · rw [Prog.run_when_false, Bool.or_false]
        · rw [Prog.run_when_true, Bool.or_true]
          simp

end Sys2Proof.Machine
end

open Host
section
/-! SUPPORT and O48: what Orarn answers to SPDM requests (R531, R533, R534). -/
namespace Sys2Proof.Machine

variable {s : State}

@[simp] theorem modOrarn_allows {T : Touch} (f : Orarn → Orarn) : (modOrarn f).Only T.allows ↔ T.dev := modDev_allows _

theorem modOrarn_run (f : Orarn → Orarn) (s : State) : (modOrarn f).run s = { s with dev := { s.dev with orarn := f s.dev.orarn } } := by
  simp only [modOrarn, modDev, Prog.run_get, Prog.run_eff]
  rfl

/-! ### Answers -/

theorem State.spdmFree_iff (s : State) :
    s.spdmFree ↔ (s.bit pgOrarn R.orarn_STATUS_BUSY || s.dev.host.mailbox.mstate == 3) = false := by
  simp [State.spdmFree]

/-- The state once Orarn has answered with `bs`. -/
def State.spdmAnswer (s : State) (code : Nat) (bs : List Byte) : State :=
  { s with seq := s.seq + 1, out := s.out ++ [.spdm (Config.spdmBytes code s.seq ++ bs)] }

@[simp] theorem State.spdmAnswer_reg (s : State) (code : Nat) (bs : List Byte) (p : Page) (o : Nat) :
    (s.spdmAnswer code bs).reg p o = s.reg p o := rfl

@[simp] theorem State.spdmAnswer_out (s : State) (code : Nat) (bs : List Byte) :
    (s.spdmAnswer code bs).out = s.out ++ [.spdm (Config.spdmBytes code s.seq ++ bs)] := rfl

@[simp] theorem State.spdmAnswer_dev (s : State) (code : Nat) (bs : List Byte) : (s.spdmAnswer code bs).dev = s.dev := rfl

theorem modOrarn_free (h : s.spdmFree) (f : Orarn → Orarn) : ((modOrarn f).run s).spdmFree := by
  rw [modOrarn_run]
  exact h

theorem spdm_run_free (h : s.spdmFree) (code : Nat) (bs : State → List Byte) : (spdm code bs).run s = s.spdmAnswer code (bs s) := by
  rw [spdm, Prog.run_get, (State.spdmFree_iff s).1 h]
  rfl

theorem spdm_run_busy (h : ¬ s.spdmFree) (code : Nat) (bs : State → List Byte) : (spdm code bs).run s = s := by
  rw [State.spdmFree_iff, Bool.not_eq_false] at h
  rw [spdm, Prog.run_get, h]
  rfl

theorem signedSpdm_run_free (h : s.spdmFree) (keyOk : Bool) (code : Nat) (bs : State → List Byte) :
    (signedSpdm keyOk code bs).run s =
      (signs keyOk (spdm code (fun s => bs s ++ s.akSign (Config.sha384 (bs s)))) (spdm 0x7F (fun _ => []))).run s := by
  rw [signedSpdm, Prog.run_get, (State.spdmFree_iff s).1 h]
  rfl

theorem signedSpdm_run_busy (h : ¬ s.spdmFree) (keyOk : Bool) (code : Nat) (bs : State → List Byte) :
    (signedSpdm keyOk code bs).run s = s := by
  rw [State.spdmFree_iff, Bool.not_eq_false] at h
  rw [signedSpdm, Prog.run_get, h]
  rfl

/-- With keys that agree the good branch runs; on a page in FAULT the other; and keys that fail the check fault the page first. -/
theorem signs_run_good (hs : s.fld pgOrarn R.STATE_STATE ≠ stFault) (good bad : Prog) : (signs true good bad).run s = good.run s := by
  rw [signs, Prog.run_get, if_neg hs, if_pos rfl]

theorem signs_run_fault (hs : s.fld pgOrarn R.STATE_STATE = stFault) (keyOk : Bool) (good bad : Prog) :
    (signs keyOk good bad).run s = bad.run s := by
  rw [signs, Prog.run_get, if_pos hs]

/-- The fault of a failed key check, told to Watch. -/
def keyFault : Prog := .all [.all [pageFault pgOrarn 1 0, raiseLine pgOrarn], tellWatch 15]

theorem signs_run_bad (hs : s.fld pgOrarn R.STATE_STATE ≠ stFault) (good bad : Prog) :
    (signs false good bad).run s = bad.run (keyFault.run s) := by
  rw [signs, Prog.run_get, if_neg hs]
  simp -implicitDefEqProofs only [keyFault, Prog.run_all_cons, Prog.run_all_nil, Bool.false_eq_true, if_false]

theorem keyFault_keeps (s : State) : Keeps { regs := theRegs pgOrarn faultRegs, dev := True } s (keyFault.run s) :=
  Prog.keeps (by simp [keyFault, tellWatch, faultRegs]) s

theorem keyFault_faults (s : State) : Faults s (keyFault.run s) pgOrarn 1 :=
  (pageFault_faults pgOrarn (by decide) 0 s).congr (fun _ _ => rfl) fun f _ => by
    rw [keyFault, Prog.run_all_cons, Prog.run_all_cons, Prog.run_all_nil]
    rfl

theorem keyFault_dev (s : State) : (keyFault.run s).dev = { s.dev with watchDue := s.dev.watchDue ++ [15] } := by
  have hdev := (Prog.keeps (T := { regs := theRegs pgOrarn faultRegs }) (p := .all [pageFault pgOrarn 1 0, raiseLine pgOrarn])
    (by simp [faultRegs]) s).dev id
  simp only [keyFault, Prog.run_all_cons, Prog.run_all_nil, tellWatch, modDev] at hdev ⊢
  simp [hdev]

theorem keyFault_free (h : s.spdmFree) : (keyFault.run s).spdmFree := by
  refine ⟨((keyFault_keeps s).bit_eq (not_theRegs_offset (by decide) _)).trans h.1, ?_⟩
  rw [keyFault_dev]
  exact h.2

/-! ### The requests -/

theorem State.spdmAnswer_keeps {T : Touch} (ho : T.out) (hs : T.seq) (s : State) (code : Nat) (bs : List Byte) :
    Keeps T s (s.spdmAnswer code bs) :=
  Prog.keeps (p := .all [eff .seq, emit (.spdm (Config.spdmBytes code s.seq ++ bs))]) (by simpa [ho] using show T.allows .seq from hs) s

theorem exec_getMeasurements_unknown {i : BitVec 8} (h : ¬ (i.toNat ≤ 5 ∨ i = 0xFF)) (ok : Bool) :
    exec (.getMeasurements i ok) s = .next ((spdm 0x7F fun _ => []).run s) := by
  obtain ⟨h5, hff⟩ := not_or.1 h
  have h0 : i ≠ 0 := fun h0 => h5 (by simp [h0])
  show execGetMeasurements i ok s = _
  rw [execGetMeasurements, Prog.next_eq, if_neg h0, if_neg hff, if_neg h5]

/-- What GET_MEASUREMENTS returns for an index it knows. -/
def State.measured (s : State) (i : BitVec 8) : List Byte :=
  if i = 0 then [5] else if i = 0xFF then (List.range 5).flatMap (fun k => s.measurement (k + 1)) else s.measurement i.toNat

theorem exec_getMeasurements_known {i : BitVec 8} (h : i.toNat ≤ 5 ∨ i = 0xFF) (ok : Bool) :
    exec (.getMeasurements i ok) s = .next ((signedSpdm ok 0xE0 fun s => s.measured i).run s) := by
  show execGetMeasurements i ok s = _
  rw [execGetMeasurements, Prog.next_eq]
  unfold State.measured
  by_cases h0 : i = 0
  · simp only [if_pos h0]
  · by_cases hff : i = 0xFF
    · simp only [if_neg h0, if_pos hff]
    · simp only [if_neg h0, if_neg hff, if_pos (h.resolve_right hff)]

/-- A session opens once the answer to KEY_EXCHANGE is signed. -/
def sessionOpens : Prog := .all [bump pgOrarn R.orarn_SPDM_SESS_CNT, modOrarn (fun o => { o with opened := o.opened + 1 })]

theorem exec_keyExchange (ok : Bool) (s : State) : exec (.keyExchange ok) s = .next
    ((Prog.when (ok && s.fld pgOrarn R.STATE_STATE != stFault && !s.bit pgOrarn R.orarn_STATUS_BUSY && s.dev.host.mailbox.mstate != 3)
      sessionOpens).run ((signedSpdm ok 0xE4 fun s => digestBytes (Config.sha384 s.chain)).run s)) := by
  show execKeyExchange ok s = _
  simp -implicitDefEqProofs only [execKeyExchange, sessionOpens, Prog.next_eq, Prog.run_get, Prog.run_all_cons, Prog.run_all_nil]

/-- A FINISH of an open session. -/
theorem exec_finish_opened (h : s.dev.orarn.opened ≠ 0) (hf : s.spdmFree) : exec .finish s = .next
    ((spdm 0xE5 fun _ => []).run ((modOrarn fun o => { o with opened := o.opened - 1, finished := o.finished + 1 }).run s)) := by
  show execFinish s = _
  rw [execFinish, Prog.next_eq, Prog.run_get, if_neg h, (State.spdmFree_iff s).1 hf]
  simp -implicitDefEqProofs only [Bool.false_eq_true, if_false, Prog.run_all_cons, Prog.run_all_nil]

/-- The stream's keys among those given. -/
def withKey (stream : Nat) (o : Orarn) : Orarn := { o with ideKeys := if o.ideKeys.contains stream then o.ideKeys else o.ideKeys ++ [stream] }

theorem mem_withKey (stream k : Nat) (o : Orarn) : k ∈ (withKey stream o).ideKeys ↔ k ∈ o.ideKeys ∨ k = stream := by
  unfold withKey
  by_cases h : stream ∈ o.ideKeys
  · simp only [List.contains_iff_mem.2 h, if_true]
    exact ⟨.inl, fun hk => hk.elim id fun hk => hk ▸ h⟩
  · simp [h]

theorem exec_ideKeyManagement_finished {stream : Fin 5} (h : s.dev.orarn.finished ≠ 0) (hf : s.spdmFree) :
    exec (.ideKeyManagement stream) s = .next ((spdm 0xE8 fun _ => []).run ((modOrarn (withKey stream.val)).run s)) := by
  show execIdeKeyManagement stream s = _
  rw [execIdeKeyManagement, Prog.next_eq, Prog.run_get, if_neg h, (State.spdmFree_iff s).1 hf]
  simp -implicitDefEqProofs only [Bool.false_eq_true, if_false, Prog.run_all_cons, Prog.run_all_nil]
  rfl

/-- While an operation of Orarn's runs every request waits. -/
theorem spdm_waits (h : ¬ s.spdmFree) (nonce : BitVec 256) (stream : Fin 5) (slot : Fin 8) (i : BitVec 8) (ok : Bool) :
    ∀ r ∈ [Instr.getVersion, .getCapabilities, .negotiateAlgorithms, .getDigests, .getCertificate slot, .challenge nonce ok,
      .getMeasurements i ok, .keyExchange ok, .finish, .ideKeyManagement stream], exec r s = .next s := by
  have hplain (code : Nat) (bs : State → List Byte) : Prog.next (spdm code bs) s = .next s := congrArg _ (spdm_run_busy h code bs)
  have hsigned (code : Nat) (bs : State → List Byte) : Prog.next (signedSpdm ok code bs) s = .next s :=
    congrArg _ (signedSpdm_run_busy h ok code bs)
  have hbusy := h
  rw [State.spdmFree_iff, Bool.not_eq_false] at hbusy
  simp only [List.forall_mem_cons]
  refine ⟨hplain .., hplain .., hplain .., hplain .., ?_, hsigned .., ?_, ?_, ?_, ?_, fun _ hn => absurd hn List.not_mem_nil⟩
  · show Prog.next (if _ then _ else _) s = _
    split
    · exact hplain ..
    · exact hplain ..
  · by_cases hi : i.toNat ≤ 5 ∨ i = 0xFF
    · exact (exec_getMeasurements_known hi ok).trans (hsigned ..)
    · exact (exec_getMeasurements_unknown hi ok).trans (hplain ..)
  · rw [exec_keyExchange, signedSpdm_run_busy h, Prog.run_when, if_neg]
    simp only [Bool.or_eq_true, beq_iff_eq] at hbusy
    simp only [Bool.and_eq_true, Bool.not_eq_true', bne_iff_ne]
    exact fun hgood => hbusy.elim (by simp [hgood.1.2]) hgood.2
  · show Prog.next (.get _) s = _
    rw [Prog.next_eq, Prog.run_get, Prog.run_ite, spdm_run_busy h, hbusy, if_pos rfl, Prog.run_done, ite_self]
  · show Prog.next (.get _) s = _
    rw [Prog.next_eq, Prog.run_get, Prog.run_ite, spdm_run_busy h, hbusy, if_pos rfl, Prog.run_done, ite_self]

/-- Settles O48. -/
theorem spdmRequestsAreAnswered : Obligations.SpdmRequestsAreAnswered := by
  unfold Obligations.SpdmRequestsAreAnswered
  intro s nonce stream slot i ok opened finished healthy known answers plain sign hash
  have hplain {r : Instr} {code : Nat} {bs : List Byte} (he : exec r s = .next (s.spdmAnswer code bs)) : answers r code (plain bs) :=
    ⟨_, he, bs, rfl, ⟨rfl, rfl⟩, s.spdmAnswer_keeps trivial trivial code bs⟩
  have hsigned (hf : s.spdmFree) (hh : healthy) (code : Nat) (bs : State → List Byte) :
      (signedSpdm true code bs).run s = s.spdmAnswer code (sign (bs s)) := by
    rw [signedSpdm_run_free hf, signs_run_good hh, spdm_run_free hf]
  have hrefused (hf : s.spdmFree) (hn : ¬ healthy) (code : Nat) (bs : State → List Byte) :
      (signedSpdm ok code bs).run s = s.spdmAnswer 0x7F [] := by
    rw [signedSpdm_run_free hf, signs_run_fault (not_not.1 hn), spdm_run_free hf]
  have hfailed (hf : s.spdmFree) (hh : healthy) (code : Nat) (bs : State → List Byte) :
      (signedSpdm false code bs).run s = (keyFault.run s).spdmAnswer 0x7F [] := by
    rw [signedSpdm_run_free hf, signs_run_bad hh, spdm_run_free (keyFault_free hf)]
  refine ⟨fun h => spdm_waits h nonce stream slot i ok, fun hf => ⟨?_, ?_, ?_, ?_, ?_, ?_, ?_, ?_, ?_, ?_, ?_⟩, fun hf hh hok => ?_, fun hf hk r hr => ?_⟩
  · exact hplain (congrArg _ (spdm_run_free hf ..))
  · exact hplain (congrArg _ (spdm_run_free hf ..))
  · exact hplain (congrArg _ (spdm_run_free hf ..))
  · exact hplain (congrArg _ (spdm_run_free hf ..))
  · intro h0
    refine hplain ?_
    show execGetCertificate slot s = _
    rw [execGetCertificate, if_pos h0]
    exact congrArg _ (spdm_run_free hf ..)
  · intro h0
    refine hplain ?_
    show execGetCertificate slot s = _
    rw [execGetCertificate, if_neg h0]
    exact congrArg _ (spdm_run_free hf ..)
  · intro hk
    exact hplain ((exec_getMeasurements_unknown hk ok).trans (congrArg _ (spdm_run_free hf ..)))
  · intro h0
    exact hplain (show Prog.next (.get _) s = _ by rw [Prog.next_eq, Prog.run_get, if_pos h0]; exact congrArg _ (spdm_run_free hf ..))
  · intro h0
    exact hplain (show Prog.next (.get _) s = _ by rw [Prog.next_eq, Prog.run_get, if_pos h0]; exact congrArg _ (spdm_run_free hf ..))
  · intro h0
    refine ⟨_, (exec_finish_opened (Nat.pos_iff_ne_zero.1 h0) hf).trans (congrArg _ (spdm_run_free (modOrarn_free hf _) ..)),
      [], by simp [modOrarn_run, State.spdmAnswer], ⟨by simp [modOrarn_run, State.spdmAnswer, opened, finished], ?_⟩⟩
    exact (Prog.keeps (by simp) s).trans (State.spdmAnswer_keeps trivial trivial ..)
  · intro h0
    refine ⟨_, (exec_ideKeyManagement_finished (Nat.pos_iff_ne_zero.1 h0) hf).trans (congrArg _ (spdm_run_free (modOrarn_free hf _) ..)),
      [], by simp [modOrarn_run, State.spdmAnswer], ⟨?_, ?_, by simp [modOrarn_run, State.spdmAnswer, withKey]⟩, ?_⟩
    · simp [modOrarn_run, State.spdmAnswer, mem_withKey]
    · intro k hk
      simp [modOrarn_run, State.spdmAnswer, mem_withKey, hk]
    exact (Prog.keeps (by simp) s).trans (State.spdmAnswer_keeps trivial trivial ..)
  · subst hok
    have hmeasured (hk : known) : answers (.getMeasurements i true) 0xE0 (plain (sign (s.measured i))) :=
      hplain ((exec_getMeasurements_known hk true).trans (congrArg _ (hsigned hf hh ..)))
    refine ⟨hplain (congrArg _ (hsigned hf hh ..)), fun h0 => ?_, fun h1 h5 => ?_, fun hff => ?_, ?_⟩
    · have := hmeasured (.inl (by simp [h0]))
      rwa [State.measured, if_pos h0] at this
    · have := hmeasured (.inl h5)
      rwa [State.measured, if_neg (by rintro rfl; simp at h1), if_neg (by rintro rfl; simp at h5)] at this
    · have := hmeasured (.inr hff)
      rwa [State.measured, if_neg (by rw [hff]; decide), if_pos hff] at this
    · refine ⟨_, exec_keyExchange true s, sign (digestBytes (Config.sha384 s.chain)), ?_⟩
      have hgood : (true && s.fld pgOrarn R.STATE_STATE != stFault && !s.bit pgOrarn R.orarn_STATUS_BUSY &&
          s.dev.host.mailbox.mstate != 3) = true := by
        simpa [hf.1, hf.2] using hh
      rw [hsigned hf hh, hgood, Prog.run_when_true, sessionOpens]
      refine ⟨?_, ⟨rfl, ?_, ?_⟩, (s.spdmAnswer_keeps trivial trivial ..).trans (Prog.keeps (by simp) _)⟩
      · simp -implicitDefEqProofs [modOrarn, modDev]
      · simp -implicitDefEqProofs [Counts, modOrarn, modDev]
      · simp -implicitDefEqProofs [modOrarn, modDev, opened]
  · have hsessions : ¬ healthy ∨ ok = false → exec (.keyExchange ok) s =
        .next ((signedSpdm ok 0xE4 fun s => digestBytes (Config.sha384 s.chain)).run s) := fun hno => by
      rw [exec_keyExchange, Prog.run_when, if_neg]
      simp only [Bool.and_eq_true, bne_iff_ne]
      exact fun hgood => hno.elim (· hgood.1.1.2) (by simp [hgood.1.1.1])
    have hrun : ∃ code bs, (¬ healthy ∨ ok = false → exec r s = .next ((signedSpdm ok code bs).run s)) := by
      simp only [List.mem_cons, List.not_mem_nil, or_false] at hr
      rcases hr with rfl | rfl | rfl
      · exact ⟨_, _, fun _ => rfl⟩
      · exact ⟨_, _, fun _ => exec_getMeasurements_known hk ok⟩
      · exact ⟨_, _, hsessions⟩
    obtain ⟨code, bs, hrun⟩ := hrun
    refine ⟨fun hn => hplain ((hrun (.inl hn)).trans (congrArg _ (hrefused hf hn code bs))), fun hh hok => ?_⟩
    subst hok
    refine ⟨_, (hrun (.inr rfl)).trans (congrArg _ (hfailed hf hh code bs)), keyFault_faults s, ⟨[], ?_⟩, keyFault_dev s, ?_⟩
    · have hseq : (keyFault.run s).seq = s.seq := (keyFault_keeps s).seq id
      have hout : (keyFault.run s).out = s.out := (keyFault_keeps s).out id
      simp [State.spdmAnswer, hseq, hout]
    · exact (keyFault_keeps s).mono (by constructor <;> simp) |>.trans (State.spdmAnswer_keeps trivial trivial ..)

end Sys2Proof.Machine
end

open Host
section
/-! SUPPORT and O46: the messages of the Steward's mailbox (R451, R516, R517, R526, R527, R529). -/
namespace Sys2Proof.Machine

variable {s : State} {r : Request}

/-! ### The message served -/

theorem serve_run_none (h : s.dev.host.mailbox.serving = none) (op : Nat) (k : Request → Prog) : (serve op k).run s = s := by
  simp only [serve, Prog.run_get, h, Prog.run_done]

theorem serve_run_other (h : s.dev.host.mailbox.serving = some r) {op : Nat} (hop : r.op ≠ op) (k : Request → Prog) :
    (serve op k).run s = s := by
  simp only [serve, Prog.run_get, h, if_neg hop, Prog.run_done]

theorem serveLen_run_len (h : s.dev.host.mailbox.serving = some r) {op n : Nat} (hop : r.op = op) (hlen : r.len = n) (k : Request → Prog) :
    (serveLen op n k).run s = (k r).run s := by
  subst hop hlen
  rw [serveLen_run h, if_pos rfl]

theorem serveLen_run_malformed (h : s.dev.host.mailbox.serving = some r) {op n : Nat} (hop : r.op = op) (hlen : r.len ≠ n)
    (k : Request → Prog) : (serveLen op n k).run s = (respondTo r rsMalformed []).run s := by
  subst hop
  rw [serveLen_run h, if_neg hlen]

/-- The answer to a message that is none of Orarn's stands in the mailbox alone. -/
theorem respondTo_keeps_steward (h : isOrarnOp r.op = false) (result : Nat) (payload : List Byte) (s : State) :
    Keeps { dev := True } s ((respondTo r result payload).run s) := by
  refine Prog.keeps ?_ s
  simp [respondTo, h, Prog.only_when]

theorem respondTo_boot (r : Request) (result : Nat) (payload : List Byte) (s : State) :
    ((respondTo r result payload).run s).dev.boot = s.dev.boot ∧ ((respondTo r result payload).run s).dev.orarn = s.dev.orarn := by
  have hregs (b : Bool) (u : State) : ((Prog.when b (orarnAnswers result)).run u).dev = u.dev :=
    (Prog.keeps (T := { regs := fun _ => True }) (whenOrarnAnswers_only trivial b result) u).dev id
  simp only [respondTo, Prog.run_all_cons, Prog.run_all_nil]
  rw [← orarnAnswers, hregs]
  exact ⟨rfl, rfl⟩

/-- What a message of the list that reports serves. -/
theorem reports_served (s : State) (ok : Bool) {i : Instr} {op n : Nat}
    (h : (i, op, n) ∈ [(Instr.getInfo, opGetInfo, 0), (.getCert, opGetCert, 4), (.readDefects, opDefects, 4), (.readDigests, opDigests, 0),
        (.readFaults, opFaults, 0), (.getAttestation ok, opAttest, 32)]) : ∃ k, exec i s = .next ((serveLen op n k).run s) := by
  simp only [List.mem_cons, Prod.mk.injEq, List.not_mem_nil, or_false] at h
  rcases h with ⟨rfl, rfl, rfl⟩ | ⟨rfl, rfl, rfl⟩ | ⟨rfl, rfl, rfl⟩ | ⟨rfl, rfl, rfl⟩ | ⟨rfl, rfl, rfl⟩ | ⟨rfl, rfl, rfl⟩
  all_goals exact ⟨_, rfl⟩

theorem messages_served (s : State) (ok : Bool) : ∀ i ∈ [Instr.getInfo, .getCert, .readDefects, .readDigests, .readFaults, .getAttestation ok,
    .measurePlan, .fwUpdate], ∃ op k, exec i s = .next ((serve op k).run s) := by
  simp only [List.forall_mem_cons]
  exact ⟨⟨_, _, rfl⟩, ⟨_, _, rfl⟩, ⟨_, _, rfl⟩, ⟨_, _, rfl⟩, ⟨_, _, rfl⟩, ⟨_, _, rfl⟩, ⟨_, _, rfl⟩, ⟨_, _, rfl⟩,
    fun _ hn => absurd hn List.not_mem_nil⟩

end Sys2Proof.Machine
end

section
/-! O46, the messages that report. -/
namespace Sys2Proof.Machine

variable {s : State} {r : Request}

/-- The signed report is counted, and then stands as the answer. -/
theorem reported_run (h : s.dev.host.mailbox.serving = some r) (p : List Byte) :
    let t := (Prog.all [eff .seq, bump pgOrarn R.orarn_REPORT_CNT, respond rsDone p]).run s
    Responds t r rsDone p ∧ Counts s t pgOrarn R.orarn_REPORT_CNT 1 ∧
      Keeps { regs := theRegs pgOrarn [R.orarn_STATUS_BUSY, R.orarn_REPORT_CNT], dev := True, seq := True } s t := by
  simp -implicitDefEqProofs only [Prog.run_all_cons, Prog.run_all_nil]
  rw [respond_run (r := r) (by simp [h])]
  refine ⟨respondTo_responds .., ?_, (Prog.keeps (by simp; trivial) s).trans
    ((Prog.keeps (by simp) _).trans (Prog.keeps (by simp [respondTo, Prog.only_when]) _))⟩
  refine ((respondTo_keeps r rsDone p _).reg_eq (not_theRegs_offset (by decide) _)).trans ?_
  simp

/-! ### The messages -/

/-- A report over the nonce is answered once Orarn may sign. -/
theorem exec_getAttestation (h : s.dev.host.mailbox.serving = some r) (hop : r.op = opAttest) (hlen : r.len = 32) (ok : Bool) :
    exec (.getAttestation ok) s = .next ((signs ok (.get fun s =>
      .all [eff .seq, bump pgOrarn R.orarn_REPORT_CNT,
        respond rsDone (s.report (r.payload.take 32) ++ s.akSign (Config.sha384 (s.report (r.payload.take 32))))])
      (respond rsFailed [])).run s) :=
  congrArg Host.Outcome.next (serveLen_run_len h hop hlen _)

theorem readFaults_payload_length (s : State) (f : Nat → List Byte) (h : ∀ a, (f a).length = 16) :
    (s.faultedPages.flatMap f).length = 16 * s.faultedPages.length := by
  simp [List.length_flatMap, h, Nat.mul_comm]

end Sys2Proof.Machine
end

section
/-! O46, the plan's measurement (R526, R527). -/
namespace Sys2Proof.Machine

variable {s : State} {r : Request}

/-! ### A digest in twelve registers -/

theorem toLe_leNat (bs : List Byte) : toLe bs.length (leNat bs) = bs := by
  induction bs with
  | nil => rfl
  | cons b bs ih =>
    have hlow : BitVec.ofNat 8 (b.toNat + 256 * leNat bs) = b := by
      apply BitVec.eq_of_toNat_eq
      rw [BitVec.toNat_ofNat]
      omega
    have hhigh : (b.toNat + 256 * leNat bs) / 256 = leNat bs := by omega
    rw [List.length_cons, leNat, toLe, hlow, hhigh, ih]

theorem leNat_lt (bs : List Byte) : leNat bs < 256 ^ bs.length := by
  induction bs with
  | nil => simp [leNat]
  | cons b bs ih =>
    rw [leNat, List.length_cons, Nat.pow_succ]
    omega

theorem flatMap_words (d : List Byte) (n : Nat) : (List.range n).flatMap (fun i => (d.drop (4 * i)).take 4) = d.take (4 * n) := by
  induction n with
  | zero => rfl
  | succ n ih => rw [List.range_succ, List.flatMap_append, ih, Nat.mul_succ, List.take_add]; simp

/-- Word `i` of a digest. -/
def digestWord (d : List Byte) (i : Nat) : Word := BitVec.ofNat 32 (leNat ((d.drop (4 * i)).take 4))

theorem toLe_digestWord (d : List Byte) {i : Nat} (h : 4 * i + 4 ≤ d.length) :
    toLe 4 (digestWord d i).toNat = (d.drop (4 * i)).take 4 := by
  have hlen : ((d.drop (4 * i)).take 4).length = 4 := by simp; omega
  have hlt := leNat_lt ((d.drop (4 * i)).take 4)
  rw [hlen, show (256 : Nat) ^ 4 = 2 ^ 32 from rfl] at hlt
  rw [digestWord, BitVec.toNat_ofNat, Nat.mod_eq_of_lt hlt]
  calc toLe 4 _ = toLe ((d.drop (4 * i)).take 4).length _ := by rw [hlen]
    _ = _ := toLe_leNat _

/-- The registers of PLAN_DIGEST take the words of a digest. -/
def latchDigest (d : List Byte) : Prog :=
  Prog.each (List.range 12) (fun i => setReg pgOrarn (R.orarn_PLAN_DIGEST.off + 4 * i) (digestWord d i))

theorem latchDigest_reg (d : List Byte) (s : State) {i : Nat} (hi : i < 12) :
    ((latchDigest d).run s).reg pgOrarn (R.orarn_PLAN_DIGEST.off + 4 * i) = digestWord d i := by
  obtain ⟨u, -, hu⟩ := each_part
    (V := fun i a b => b.reg pgOrarn (R.orarn_PLAN_DIGEST.off + 4 * i) = a.reg pgOrarn (R.orarn_PLAN_DIGEST.off + 4 * i))
    (fun _ _ => rfl) (fun _ _ _ _ h k => k.trans h) List.nodup_range
    (f := fun i => setReg pgOrarn (R.orarn_PLAN_DIGEST.off + 4 * i) (digestWord d i))
    (fun i hi j hj hij s => by
      rw [List.mem_range] at hi hj
      rw [setReg_run_put, State.reg_put_apart (by simp; omega)]) s (List.mem_range.2 hi)
  exact hu.trans (by simp)

/-- The registers of PLAN_DIGEST. -/
def digestRegs : Touch := { regs := fun a => ∃ i < 12, a = pgOrarn.base + (R.orarn_PLAN_DIGEST.off + 4 * i) }

theorem latchDigest_keeps (d : List Byte) (s : State) : Keeps digestRegs s ((latchDigest d).run s) := by
  refine Prog.keeps ((Prog.only_each ..).2 fun i hi => ?_) s
  exact (setReg_only ..).2 ⟨i, List.mem_range.1 hi, rfl⟩

theorem not_digestRegs {o : Nat} (h : o < 0x100 ∨ 0x130 ≤ o) : ¬ digestRegs.regs (pgOrarn.base + o) := by
  rintro ⟨i, hi, e⟩
  have : R.orarn_PLAN_DIGEST.off = 0x100 := rfl
  omega

theorem digestRegs_le : digestRegs.le { regs := onPages [pgOrarn], dev := True } := by
  constructor
  case regs =>
    rintro a ⟨i, hi, rfl⟩
    have : R.orarn_PLAN_DIGEST.off = 0x100 := rfl
    exact ⟨pgOrarn, List.mem_singleton_self _, by omega, by omega⟩
  all_goals simp [digestRegs]

theorem planDigest_of_words {t : State} {d : List Byte} (hlen : d.length = 48)
    (h : ∀ i < 12, t.reg pgOrarn (R.orarn_PLAN_DIGEST.off + 4 * i) = digestWord d i) : t.planDigest = d := by
  have hmap : t.planDigest = (List.range 12).flatMap (fun i => (d.drop (4 * i)).take 4) := by
    refine List.flatMap_congr fun i hi => ?_
    rw [List.mem_range] at hi
    rw [h i hi, toLe_digestWord d (by omega)]
  rw [hmap, flatMap_words, List.take_of_length_le (by omega)]

/-! ### The measurement -/

/-- The manifest's regions with their places in it, and the first that does not match its digest. -/
def State.mismatched (s : State) (p : List Byte) (count : Nat) : Option ((Nat × Nat × List Byte) × Nat) :=
  (List.zip (manifestRegions p count) (List.range count)).find? (fun x => digestBytes (Config.sha384 (s.bytes x.1.1 x.1.2.1)) != x.1.2.2)

/-- A measurement begins: it is counted, and no plan is valid. -/
def measuring (s : State) : State := (Prog.all [bump pgOrarn R.orarn_MEAS_CNT, setFld pgOrarn R.orarn_STATUS_PLAN_VALID 0]).run s

/-- A measurement that fails is counted and answered. -/
def planFails (i : Nat) : Prog := .all [bump pgOrarn R.orarn_MEAS_FAIL_CNT, respond rsMismatch (toLe 4 i)]

theorem measuring_keeps (s : State) :
    Keeps { regs := theRegs pgOrarn [R.orarn_MEAS_CNT, R.orarn_STATUS_PLAN_VALID] } s (measuring s) :=
  Prog.keeps (by simp) s

theorem exec_measurePlan (h : s.dev.host.mailbox.serving = some r) (hop : r.op = opMeasure) (hi : s.intact = true) :
    let p := r.payload
    let count := leNat (p.take 4)
    let flags := leNat ((p.drop 4).take 4)
    exec .measurePlan s = .next (
      if manifestOk p r.len = false then (respondTo r rsMalformed []).run s
      else if s.enabledReeves ≠ [] then (respondTo r rsNotNow []).run s
      else if s.manifestSigned p count flags = false then (planFails 0xFFFFFFFF).run (measuring s)
      else match s.mismatched p count with
        | some x => (planFails x.2).run (measuring s)
        | none => (planMeasured p count flags).run (measuring s)) := by
  intro p count flags
  have hintact : (measuring s).intact = true := by rw [State.intact, (measuring_keeps s).dev id]; exact hi
  have hbytes (a n : Nat) : (measuring s).bytes a n = s.bytes a n := State.bytes_congr fun i _ => (measuring_keeps s).mem _ id
  have hserving : (measuring s).dev.host.mailbox.serving = some r := by rw [(measuring_keeps s).dev id]; exact h
  show execMeasurePlan s = _
  rw [execMeasurePlan, Prog.next_eq, ← hop, serve_run h, Prog.run_get]
  have hmeasuring : (setFld pgOrarn R.orarn_STATUS_PLAN_VALID 0).run ((bump pgOrarn R.orarn_MEAS_CNT).run s) = measuring s := by
    simp -implicitDefEqProofs only [measuring, Prog.run_all_cons, Prog.run_all_nil]
  simp -implicitDefEqProofs only [Prog.run_ite, respond_run h, Prog.run_all_cons, Prog.run_all_nil, hmeasuring, readAll_run hintact,
    Prog.run_get, deadAt_intact hintact, Bool.false_or, hbytes]
  refine congrArg _ (if_congr (by simp [p]) rfl (if_congr (by simp) rfl (if_congr (by simp [p, count, flags]) ?_ ?_)))
  · simp -implicitDefEqProofs only [planFails, Prog.run_all_cons, Prog.run_all_nil]
  · cases hx : s.mismatched p count with
    | none =>
      unfold State.mismatched at hx
      rw [hx]
    | some x =>
      unfold State.mismatched at hx
      rw [hx]
      simp -implicitDefEqProofs only [planFails, Prog.run_all_cons, Prog.run_all_nil]

/-- A measurement that fails is counted twice over, answered, and leaves no valid plan. -/
theorem planFails_run (h : s.dev.host.mailbox.serving = some r) (hop : r.op = opMeasure) (i : Nat) :
    let t := (planFails i).run (measuring s)
    Responds t r rsMismatch (toLe 4 i) ∧ t.bit pgOrarn R.orarn_STATUS_PLAN_VALID = false ∧ Counts s t pgOrarn R.orarn_MEAS_CNT 1 ∧
      Counts s t pgOrarn R.orarn_MEAS_FAIL_CNT 1 ∧
      Keeps { regs := theRegs pgOrarn [R.orarn_STATUS_PLAN_VALID, R.orarn_MEAS_CNT, R.orarn_MEAS_FAIL_CNT], dev := True } s t := by
  have hrun : (planFails i).run (measuring s) =
      (respondTo r rsMismatch (toLe 4 i)).run ((bump pgOrarn R.orarn_MEAS_FAIL_CNT).run (measuring s)) := by
    rw [planFails, Prog.run_all_cons, Prog.run_all_cons, Prog.run_all_nil, respond_run]
    simp [(measuring_keeps s).dev id, h]
  rw [hrun]
  refine ⟨respondTo_responds .., ?_, ?_, ?_, ?_⟩
  · simp -implicitDefEqProofs [respondTo, hop, isOrarnOp, measuring, modMailbox, modHost, modDev]
  · simp -implicitDefEqProofs [Counts, respondTo, hop, isOrarnOp, measuring, modMailbox, modHost, modDev]
  · simp -implicitDefEqProofs [Counts, respondTo, hop, isOrarnOp, measuring, modMailbox, modHost, modDev]
  · exact (Prog.keeps (by simp) s).trans ((Prog.keeps (by simp) _).trans (Prog.keeps (by simp [respondTo, Prog.only_when]) _))

/-- The plan's regions and flags stand, then its digest, then its time and the answer. -/
def planFlags (p : List Byte) (count flags : Nat) : Prog := .all [
  modOrarn (fun o => { o with regions := (manifestRegions p count).map (fun r => (r.1, r.2.1)) }),
  setFld pgOrarn R.orarn_STATUS_PLAN_VALID 1,
  setFld pgOrarn R.orarn_STATUS_SIGNED flags]

def planTime (bell : Nat) : Prog := .all [
  setReg pgOrarn R.orarn_MEAS_BELL_LO.off (BitVec.ofNat 32 bell),
  setReg pgOrarn R.orarn_MEAS_BELL_HI.off (BitVec.ofNat 32 (bell / 2 ^ 32))]

theorem planMeasured_run_eq (h : s.dev.host.mailbox.serving = some r) (p : List Byte) (count flags : Nat) :
    (planMeasured p count flags).run s = (respondTo r rsDone []).run ((planTime s.bellNow).run
      ((latchDigest (digestBytes (Config.sha384 (p.take (0x80 + 64 * count))))).run ((planFlags p count flags).run s))) := by
  have hkeep (d : List Byte) (u : State) : ((latchDigest d).run u).dev = u.dev :=
    (latchDigest_keeps d u).dev id
  rw [← respond_run]
  · simp -implicitDefEqProofs only [planMeasured, planTime, planFlags, latchDigest, digestWord, Prog.run_get, Prog.run_all_cons, Prog.run_all_nil]
  · simp [planTime, planFlags, hkeep, modOrarn, modDev, h]

/-- A plan measured: its flags, its regions, its digest and its time are latched, and the answer stands. -/
theorem planMeasured_run (h : s.dev.host.mailbox.serving = some r) (hop : r.op = opMeasure) (p : List Byte) (count flags : Nat) :
    let t := (planMeasured p count flags).run (measuring s)
    Responds t r rsDone [] ∧ Counts s t pgOrarn R.orarn_MEAS_CNT 1 ∧ t.bit pgOrarn R.orarn_STATUS_PLAN_VALID = true ∧
      t.bit pgOrarn R.orarn_STATUS_SIGNED = decide (flags % 2 = 1) ∧
      t.dev.orarn.regions = (manifestRegions p count).map (fun x => (x.1, x.2.1)) ∧
      t.planDigest = digestBytes (Config.sha384 (p.take (0x80 + 64 * count))) ∧
      (t.reg pgOrarn R.orarn_MEAS_BELL_LO.off).toNat = s.bellNow % 2 ^ 32 ∧
      (t.reg pgOrarn R.orarn_MEAS_BELL_HI.off).toNat = s.bellNow / 2 ^ 32 % 2 ^ 32 ∧ Keeps { regs := onPages [pgOrarn], dev := True } s t := by
  intro t
  have hserving : (measuring s).dev.host.mailbox.serving = some r := by rw [(measuring_keeps s).dev id]; exact h
  have hbell : (measuring s).bellNow = s.bellNow := by rw [State.bellNow, (measuring_keeps s).dev id]; rfl
  have hrun := planMeasured_run_eq hserving p count flags
  rw [hbell] at hrun
  have hdigest {i : Nat} (hi : i < 12) := latchDigest_reg (digestBytes (Config.sha384 (p.take (0x80 + 64 * count))))
    ((planFlags p count flags).run (measuring s)) hi
  have hlatch := latchDigest_keeps (digestBytes (Config.sha384 (p.take (0x80 + 64 * count)))) ((planFlags p count flags).run (measuring s))
  generalize (latchDigest (digestBytes (Config.sha384 (p.take (0x80 + 64 * count))))).run ((planFlags p count flags).run (measuring s)) = u at *
  have hstatus : u.reg pgOrarn 0x044 = _ := hlatch.reg_eq (not_digestRegs (by decide))
  have hmeas : u.reg pgOrarn R.orarn_MEAS_CNT.off = _ := hlatch.reg_eq (not_digestRegs (by decide))
  have ht : t = (respondTo r rsDone []).run ((planTime s.bellNow).run u) := hrun
  rw [ht]
  refine ⟨respondTo_responds .., ?_, ?_, ?_, ?_, ?_, ?_, ?_, ?_⟩
  · simp -implicitDefEqProofs [Counts, respondTo, hop, isOrarnOp, planTime, modMailbox, modHost, modDev, hmeas, planFlags, measuring, modOrarn]
  · simp -implicitDefEqProofs [respondTo, hop, isOrarnOp, planTime, modMailbox, modHost, modDev, hstatus, planFlags, measuring, modOrarn]
  · simp -implicitDefEqProofs [respondTo, hop, isOrarnOp, planTime, modMailbox, modHost, modDev, hstatus, planFlags, measuring, modOrarn,
      Bool.beq_eq_decide_eq]
  · simp -implicitDefEqProofs [(respondTo_boot ..).2, planTime, hlatch.dev id, planFlags, modOrarn, modDev]
  · refine planDigest_of_words (by simp [digestBytes, length_toLe]) fun i hi => ?_
    have hoff : R.orarn_PLAN_DIGEST.off = 0x100 := rfl
    refine ((respondTo_keeps ..).reg_eq (not_theRegs_offset (by simp; omega) _)).trans (.trans ?_ (hdigest hi))
    have htime : Keeps { regs := theRegs pgOrarn [R.orarn_MEAS_BELL_LO, R.orarn_MEAS_BELL_HI] } u ((planTime s.bellNow).run u) :=
      Prog.keeps (by simp [planTime]) u
    exact htime.reg_eq (not_theRegs_offset (by simp; omega) _)
  · simp -implicitDefEqProofs [respondTo, hop, isOrarnOp, planTime, modMailbox, modHost, modDev]
  · simp -implicitDefEqProofs [respondTo, hop, isOrarnOp, planTime, modMailbox, modHost, modDev]
  · have hbefore : Keeps { regs := onPages [pgOrarn], dev := True } s ((planFlags p count flags).run (measuring s)) :=
      (Prog.keeps (by simp) s).trans (Prog.keeps (by simp [planFlags]) _)
    have hafter : Keeps { regs := onPages [pgOrarn], dev := True } u ((respondTo r rsDone []).run ((planTime s.bellNow).run u)) :=
      (Prog.keeps (by simp [planTime]) _).trans (Prog.keeps (by simp [respondTo, Prog.only_when]) _)
    exact (hbefore.trans (hlatch.mono digestRegs_le)).trans hafter

end Sys2Proof.Machine
end

section
/-! O46, the firmware update (R516). -/
namespace Sys2Proof.Machine

variable {s : State} {r : Request}

@[simp] theorem modBoot_allows {T : Touch} (f : Boot → Boot) : (modBoot f).Only T.allows ↔ T.dev := modDev_allows _

/-- The bytes of a piece, written from address `a` of the flash on. -/
def Boot.writeFlash (b : Boot) (a : Nat) (data : List Byte) : List Host.Cell :=
  (List.zip (List.range data.length) data).foldl (fun m x => Sparse.set m (a + x.1) x.2) b.flash

theorem writeFlash_get (b : Boot) (a : Nat) (data : List Byte) {i : Nat} (hi : i < data.length) :
    Sparse.get? (b.writeFlash a data) (a + i) = some (data.getD i 0) := by
  suffices h : ∀ n ≤ data.length, ∀ i < n, Sparse.get? ((List.zip (List.range n) (data.take n)).foldl
      (fun m x => Sparse.set m (a + x.1) x.2) b.flash) (a + i) = some (data.getD i 0) by
    simpa [Boot.writeFlash] using h data.length le_rfl i hi
  intro n
  induction n with
  | zero => simp
  | succ n ih =>
    intro hn i hi
    have hsplit : List.zip (List.range (n + 1)) (data.take (n + 1)) = List.zip (List.range n) (data.take n) ++ [(n, data.getD n 0)] := by
      rw [List.range_succ, List.take_succ_eq_append_getElem (by omega), List.zip_append (by simp; omega)]
      simp [List.getD_eq_getElem?_getD, List.getElem?_eq_getElem (show n < data.length by omega)]
    rw [hsplit, List.foldl_append, List.foldl_cons, List.foldl_nil, Sparse.get?_set]
    by_cases he : i = n
    · simp [he]
    · rw [if_neg (by omega), ih (by omega) i (by omega)]

/-- The piece is in the inactive bank, and the next follows it. -/
def pieceStored (bank off : Nat) (data : List Byte) (b : Boot) : Boot :=
  { b with next := off + data.length, flash := b.writeFlash (bank * 2 ^ 32 + off) data }

/-- What the last piece of an update leaves: the bank verified and active, or the update refused. -/
def updateEnds (bank stop : Nat) : Prog := .get (fun s =>
  if Config.bankOk (s.dev.boot.bankBytes bank 0 stop) then .all [modBoot (fun b => { b with bank := bank, next := 0, updated := true }), respond rsDone []]
  else .all [modBoot (fun b => { b with next := 0 }), respond rsMismatch []])

theorem exec_fwUpdate (h : s.dev.host.mailbox.serving = some r) (hop : r.op = opFwUpdate) :
    let off := leNat (r.payload.take 4)
    let flags := leNat ((r.payload.drop 4).take 4)
    let data := r.payload.drop 8
    exec .fwUpdate s = .next (
      if ¬ (8 ≤ r.len ∧ r.len ≤ 8 + 507 * 1024 ∧ flags < 2 ∧ off = s.dev.boot.next) then (respondTo r rsMalformed []).run s
      else if s.enabledReeves ≠ [] then (respondTo r rsNotNow []).run s
      else if flags = 0 then (respondTo r rsDone []).run ((modBoot (pieceStored (1 - s.dev.boot.bank) off data)).run s)
      else (updateEnds (1 - s.dev.boot.bank) (off + data.length)).run ((modBoot (pieceStored (1 - s.dev.boot.bank) off data)).run s)) := by
  intro off flags data
  have hserving : ((modBoot (pieceStored (1 - s.dev.boot.bank) off data)).run s).dev.host.mailbox.serving = some r := h
  show execFwUpdate s = _
  rw [execFwUpdate, Prog.next_eq, ← hop, serve_run h, Prog.run_get]
  simp -implicitDefEqProofs only [Prog.run_ite, Prog.run_all_cons, Prog.run_all_nil, respond_run h]
  refine congrArg _ (if_congr (by omega) rfl (if_congr (by simp) rfl ?_))
  simp -implicitDefEqProofs only [← respond_run hserving]
  exact if_congr Iff.rfl rfl rfl

/-- The last piece: the bank becomes active where it holds, and the update ends either way. -/
theorem updateEnds_run (h : s.dev.host.mailbox.serving = some r) (bank stop : Nat) :
    (updateEnds bank stop).run s =
      if Config.bankOk (s.dev.boot.bankBytes bank 0 stop) = true then
        (respondTo r rsDone []).run ((modBoot fun b => { b with bank := bank, next := 0, updated := true }).run s)
      else (respondTo r rsMismatch []).run ((modBoot fun b => { b with next := 0 }).run s) := by
  have hserving (f : Boot → Boot) : ((modBoot f).run s).dev.host.mailbox.serving = some r := h
  rw [updateEnds, Prog.run_get]
  simp -implicitDefEqProofs only [Prog.run_ite, Prog.run_all_cons, Prog.run_all_nil, respond_run (hserving _)]

end Sys2Proof.Machine
end

section
/-! O46. -/
namespace Sys2Proof.Machine

/-- Settles O46. -/
theorem mailboxMessagesAreAnswered : Obligations.MailboxMessagesAreAnswered := by
  unfold Obligations.MailboxMessagesAreAnswered
  refine ⟨⟨?none, ?reports⟩, ?measure, ?update⟩
  case none =>
    intro s ok i hi h
    obtain ⟨op, k, he⟩ := messages_served s ok i hi
    exact he.trans (congrArg _ (serve_run_none h op k))
  case reports =>
    intro s r ok h busy failed
    have hbusy (result : Nat) (p : List Byte) : Keeps { regs := busy, dev := True } s ((respondTo r result p).run s) :=
      Prog.keeps (by simp [respondTo, Prog.only_when, busy]) s
    have hplain (op : Nat) (hno : isOrarnOp op = false) (hop : r.op = op) (p : List Byte) :
        Keeps { dev := True } s ((respond rsDone p).run s) ∧ Responds ((respond rsDone p).run s) r rsDone p := by
      rw [respond_run h]
      exact ⟨respondTo_keeps_steward (hop ▸ hno) _ _ s, respondTo_responds ..⟩
    refine ⟨fun i op n hi => ?_, fun hop hlen => ?_, fun hop hlen => ?_, fun hop hlen => ?_, fun hop hlen => ?_, fun hop hlen => ⟨?_, ?_, ?_⟩⟩
    · obtain ⟨k, he⟩ := reports_served s ok hi
      refine ⟨fun hne => he.trans (congrArg _ (serve_run_other h hne _)),
        fun hop hlen => ⟨_, he.trans (congrArg _ (serveLen_run_malformed h hop hlen k)), respondTo_responds .., hbusy ..⟩⟩
    · exact ⟨_, congrArg Host.Outcome.next (serveLen_run_len h hop hlen _), (hplain _ rfl hop _).symm⟩
    · exact ⟨_, congrArg Host.Outcome.next (serveLen_run_len h hop hlen _), (hplain _ rfl hop _).symm⟩
    · exact ⟨_, congrArg Host.Outcome.next (serveLen_run_len h hop hlen _), (hplain _ rfl hop _).symm⟩
    · obtain ⟨hkeep, hresp⟩ := hplain opFaults rfl hop _
      exact ⟨_, congrArg Host.Outcome.next (serveLen_run_len h hop hlen _), ⟨_, hresp, readFaults_payload_length s _ fun a => by simp [length_toLe]⟩, hkeep⟩
    · intro hs hok
      subst hok
      refine ⟨_, (exec_getAttestation h hop hlen true).trans (congrArg _ (signs_run_good hs ..)), reported_run h _⟩
    · intro hs
      refine ⟨_, (exec_getAttestation h hop hlen ok).trans (congrArg _ ((signs_run_fault hs ..).trans (respond_run h ..))),
        respondTo_responds .., hbusy ..⟩
    · intro hs hok
      subst hok
      have hserving : (keyFault.run s).dev.host.mailbox.serving = some r := by rw [keyFault_dev]; exact h
      refine ⟨_, (exec_getAttestation h hop hlen false).trans (congrArg _ ((signs_run_bad hs ..).trans (respond_run hserving ..))),
        respondTo_responds .., ?_, ?_⟩
      · exact (keyFault_faults s).congr (fun _ _ => rfl) fun f hf =>
          (respondTo_keeps ..).reg_eq (not_theRegs_offset (by revert f; decide) _)
      · exact (Prog.keeps (by simp [keyFault, tellWatch, faultRegs, failed]) s).trans
          (Prog.keeps (by simp [respondTo, Prog.only_when, failed]) _)
  case measure =>
    intro s r h hop hi p count flags signed bad mismatch turned
    have hexec := exec_measurePlan h hop hi
    have hok {b : Bool} (hb : b = true) : ¬ b = false := by simp [hb]
    have hturned (result : Nat) (he : exec .measurePlan s = .next ((respondTo r result []).run s)) : turned result :=
      ⟨_, he, respondTo_responds .., respondTo_keeps ..⟩
    have hfails (i : Nat) (he : exec .measurePlan s = .next ((planFails i).run (measuring s))) : mismatch i :=
      ⟨_, he, planFails_run h hop i⟩
    refine ⟨fun hform => ?_, fun hform hrun => ?_, fun hform hrun hsign => ?_, fun x hform hrun hsign hbad => ?_, fun hform hrun hsign hbad => ?_⟩
    · exact hturned _ (by rw [hexec, if_pos hform])
    · exact hturned _ (by rw [hexec, if_neg (hok hform), if_pos hrun])
    · exact hfails _ (by rw [hexec, if_neg (hok hform), if_neg (not_not.2 hrun), if_pos hsign])
    · refine hfails _ ?_
      rw [hexec, if_neg (hok hform), if_neg (not_not.2 hrun), if_neg (hok hsign), show s.mismatched p count = some x from hbad]
    · refine ⟨_, ?_, planMeasured_run h hop p count flags⟩
      rw [hexec, if_neg (hok hform), if_neg (not_not.2 hrun), if_neg (hok hsign), show s.mismatched p count = none from hbad]
  case update =>
    intro s r h hop b off flags data form stored
    have hexec := exec_fwUpdate h hop
    have hkeep (result : Nat) (u : State) := respondTo_keeps_steward (r := r) (hop ▸ rfl) result [] u
    refine ⟨fun hform => ?_, fun hform hrun => ?_, fun hform hrun hflags => ?_, fun hform hrun hflags => ?_⟩
    · exact ⟨_, hexec.trans (congrArg _ (if_pos hform)), respondTo_responds .., (respondTo_boot ..).1, hkeep ..⟩
    · exact ⟨_, hexec.trans (congrArg _ ((if_neg (not_not.2 hform)).trans (if_pos hrun))), respondTo_responds .., (respondTo_boot ..).1, hkeep ..⟩
    · refine ⟨_, hexec.trans (congrArg _ ((if_neg (not_not.2 hform)).trans ((if_neg (not_not.2 hrun)).trans (if_pos hflags)))),
        respondTo_responds .., ?_, ?_, (Prog.keeps (by simp) s).trans (hkeep ..)⟩
      · intro i hi
        rw [(respondTo_boot ..).1]
        exact writeFlash_get b _ data hi
      · rw [(respondTo_boot ..).1]
        rfl
    · have hflags' : ¬ flags = 0 := by omega
      have hrun' := updateEnds_run (s := (modBoot (pieceStored (1 - b.bank) off data)).run s) h (1 - b.bank) (off + data.length)
      have hget : ∀ i < data.length, Sparse.get? (pieceStored (1 - b.bank) off data b).flash ((1 - b.bank) * 2 ^ 32 + off + i) = some (data.getD i 0) :=
        fun i hi => writeFlash_get b _ data hi
      refine ⟨_, hexec.trans (congrArg _ ((if_neg (not_not.2 hform)).trans ((if_neg (not_not.2 hrun)).trans ((if_neg hflags').trans hrun')))), ?_⟩
      by_cases hw : Config.bankOk (((modBoot (pieceStored (1 - b.bank) off data)).run s).dev.boot.bankBytes (1 - b.bank) 0 (off + data.length)) = true
      · rw [if_pos hw]
        simp only [(respondTo_boot ..).1, stored]
        refine ⟨hget, rfl, ⟨fun _ => ⟨respondTo_responds .., rfl, rfl⟩, fun hn => absurd (hn.symm.trans hw) (by decide)⟩, ?_⟩
        exact ((Prog.keeps (by simp) s).trans (Prog.keeps (by simp) _)).trans (hkeep ..)
      · rw [if_neg hw]
        simp only [(respondTo_boot ..).1, stored]
        refine ⟨hget, rfl, ⟨fun hy => absurd hy hw, fun _ => ⟨respondTo_responds .., rfl, rfl⟩⟩, ?_⟩
        exact ((Prog.keeps (by simp) s).trans (Prog.keeps (by simp) _)).trans (hkeep ..)

end Sys2Proof.Machine
end

open Host
section
/-! SUPPORT. A write that no snapshot holds is one store (R420). -/
namespace Sys2Proof.Machine

theorem Memory.writeBytes_append (m : List (Nat × Byte)) (a : Nat) (xs ys : List Byte) :
    Memory.writeBytes m a (xs ++ ys) = Memory.writeBytes (Memory.writeBytes m a xs) (a + xs.length) ys := by
  induction xs generalizing m a with
  | nil => rfl
  | cons x xs ih =>
    rw [List.cons_append, Memory.writeBytes, ih, Memory.writeBytes, List.length_cons, show a + (xs.length + 1) = a + 1 + xs.length by omega]

/-- The pieces of `cutAt`, stored in turn, are the bytes stored at once, where the fuel reaches their end. -/
theorem each_cutAt_run {u : Nat} (hu : 0 < u) {f : Nat × List Byte → Prog} {Q : State → Prop} (hQ : ∀ s a bs, Q s → Q ((Act.bytes a bs).apply s))
    (hf : ∀ s x, Q s → (f x).run s = (Act.bytes x.1 x.2).apply s) (fuel a : Nat) (bs : List Byte) {s : State} (hs : Q s)
    (hfuel : bs ≠ [] → bs.length + a % u ≤ fuel * u) : (Prog.each (cutAt u fuel a bs) f).run s = (Act.bytes a bs).apply s := by
  induction fuel generalizing a bs s with
  | zero =>
    have he : bs = [] := by
      by_contra hne
      have := hfuel hne
      have := List.length_pos_iff.2 hne
      omega
    rw [he]
    rfl
  | succ fuel ih =>
    rw [cutAt]
    split
    next he => rw [List.isEmpty_iff.1 he]; rfl
    next he =>
      have hmod := Nat.mod_lt a hu
      have halign : (a + (u - a % u)) % u = 0 := by
        rw [Nat.add_mod, ← Nat.mod_add_div a u]
        have : a % u + u * (a / u) + (u - (a % u + u * (a / u)) % u) = u * (a / u + 1) := by
          rw [Nat.add_mul_mod_self_left, Nat.mod_mod, Nat.mul_succ]
          omega
        rw [← Nat.add_mod, this, Nat.mul_mod_right]
      rw [Prog.run_each_cons, hf _ _ hs, ih _ _ (hQ _ _ _ hs)]
      · have hsplit := Memory.writeBytes_append s.mem a (bs.take (u - a % u)) (bs.drop (u - a % u))
        rw [List.take_append_drop] at hsplit
        by_cases hlong : u - a % u ≤ bs.length
        · rw [List.length_take, Nat.min_eq_left hlong] at hsplit
          show State.mk .. = State.mk ..
          congr 1
          exact hsplit.symm
        · rw [List.drop_of_length_le (by omega), List.take_of_length_le (by omega)]
          rfl
      · intro hne
        have hlong : 0 < (bs.drop (u - a % u)).length := List.length_pos_iff.2 hne
        have := hfuel fun h => he (List.isEmpty_iff.2 h)
        rw [Nat.succ_mul] at this
        rw [halign, List.length_drop] at *
        omega

theorem pailStore_run {s : State} (hi : s.intact = true) (hs : s.dev.snap = none) (src : Source) (a : Nat) (bs : List Byte) :
    (pailStore src a bs).run s = (Act.bytes a bs).apply s := by
  rw [pailStore, Prog.run_get, hs]
  exact store_run hi ..

theorem memStore_run {s : State} (hi : s.intact = true) (a : Nat) (hs : s.dev.snap = none ∨ granEnd ≤ a) (src : Source) (bs : List Byte) :
    (memStore src a bs).run s = (Act.bytes a bs).apply s := by
  rw [memStore]
  split
  next hlow =>
    refine each_cutAt_run (by decide) (Q := fun t => t.intact = true ∧ t.dev.snap = none) (fun _ _ _ h => h)
      (fun t x h => pailStore_run h.1 h.2 ..) _ _ _ ⟨hi, hs.resolve_right (by omega)⟩ fun _ => ?_
    have hmod := Nat.mod_lt a (show 0 < pailSize by decide)
    have hlen := Nat.div_add_mod bs.length pailSize
    have hlast := Nat.mod_lt bs.length (show 0 < pailSize by decide)
    rw [Nat.add_mul, Nat.mul_comm (bs.length / pailSize)]
    omega
  next => exact store_run hi ..

theorem Act.apply_bytes_holds (s : State) (a : Nat) (bs : List Byte) : ((Act.bytes a bs).apply s).holds a bs := fun i hi => by
  rw [Act.apply_bytes_byte, if_pos (by omega), Nat.add_sub_cancel_left]

theorem Act.apply_bytes_keeps (s : State) (a : Nat) (bs : List Byte) : Keeps { mem := inRange a bs.length } s ((Act.bytes a bs).apply s) :=
  Prog.keeps (p := eff (.bytes a bs)) ((Prog.only_eff _).2 fun _ h h' => And.intro h h') s

end Sys2Proof.Machine
end

section
/-! O44: BAR2 accesses of the host (R439 to R445). -/
namespace Sys2Proof.Machine

variable {s : State}

/-! ### What an access meets before its address -/

theorem hostEnd_ends {bar kind : Nat} (hb : bar < 4) (hk : kind < 8) (write : Bool) (off : Nat) (s : State) :
    let t := (hostEnd bar kind write off).run s
    HostEnds s t bar kind write off ∧ Keeps { regs := theRegs pgHost (hostEndRegs kind), out := True } s t := by
  obtain ⟨hends, hkeep⟩ := hostEnd_run hb hk write off s
  exact ⟨hends, hkeep.mono (by constructor <;> simp)⟩

theorem bar2_run {o : Nat} {ide : Bool} (h : s.bit pgHost R.host_CFG_IDE_REQ = false ∨ ide = true) (write : Bool) (k : Nat → Prog) :
    (bar2 o write ide k).run s =
      if s.deviceReset = true ∨ s.atReady = false then (hostEnd 1 endAbs write o).run s
      else if s.fullRate = false ∨ s.enabled pgHost = false then (hostEnd 1 endUR write o).run s
      else if s.windowAddr o % 2 ^ 48 / 2 ^ 28 = 0x20000 then (hostEnd 1 endRefused write o).run s
      else (k (s.windowAddr o)).run s := by
  rw [bar2, needsIde_free h, Prog.run_get]
  simp -implicitDefEqProofs only [Prog.run_ite]
  exact if_congr (by simp) rfl (if_congr (by simp) rfl rfl)

theorem bar2_run_go {o : Nat} {ide : Bool} (h : s.hostMayGo o ide) (write : Bool) (k : Nat → Prog) :
    (bar2 o write ide k).run s = (k (s.windowAddr o)).run s := by
  obtain ⟨hide, hreset, hready, hrate, hen, hwin⟩ := h
  rw [bar2_run, if_neg (by simp [hreset, hready]), if_neg (by simp [hrate, hen]), if_neg hwin]
  cases hreq : s.bit pgHost R.host_CFG_IDE_REQ
  · exact .inl rfl
  · exact .inr (hide hreq)

/-! ### The two accesses -/

/-- What both accesses do with their village address. -/
structure HostServes (s : State) (o : BitVec 40) (n : Nat) (bs : List Byte) (wr : Bool) (far : FarAnswer) (k : Nat → Prog) : Prop where
  nowhere (a : Nat) : s.village a = .none → (k a).run s = (hostEnd 1 endUR wr o.toNat).run s
  beyond (a p d : Nat) : s.village a = .port p d → (k a).run s = (bar2Far p o.toNat a wr (if wr then bs else []) far).run s
  absorbed (a h h' : Nat) : s.village a = .here → placeOf (a % 2 ^ 48) = .granary h → placeOf (a % 2 ^ 48 + n - 1) = .granary h' →
    s.underReset (pgGran h) = true → (k a).run s = (hostAbsorbed (pgGran h) wr o.toNat).run s
  kept (a h h' : Nat) : s.village a = .here → placeOf (a % 2 ^ 48) = .granary h → placeOf (a % 2 ^ 48 + n - 1) = .granary h' →
    s.underReset (pgGran h) = false → wr = true → s.bucketKeeps (a % 2 ^ 48) n = true →
    (k a).run s = (Prog.all [bump pgBucket R.bucket_REFUSE_CNT, hostEnd 1 endRefused true o.toNat]).run s
  boot (a h h' : Nat) : s.village a = .here → placeOf (a % 2 ^ 48) = .granary h → placeOf (a % 2 ^ 48 + n - 1) = .granary h' →
    s.underReset (pgGran h) = false → wr = true → s.bucketKeeps (a % 2 ^ 48) n = false → touchesBoot (a % 2 ^ 48) n = true →
    (k a).run s = (hostEnd 1 endRefused true o.toNat).run s

theorem exec_hostAccess (s : State) {o : BitVec 40} {n : Nat} {bs : List Byte} {ide wr : Bool} {far : FarAnswer} {r : Instr}
    (hr : (r = .hostBar2Read o n ide far ∧ wr = false) ∨ (r = .hostBar2Write o bs ide far ∧ wr = true ∧ bs.length = n)) :
    ∃ k, exec r s = .next ((bar2 o.toNat wr ide k).run s) ∧ HostServes s o n bs wr far k := by
  rcases hr with ⟨rfl, rfl⟩ | ⟨rfl, rfl, rfl⟩
  · refine ⟨_, rfl, ⟨fun a hv => ?_, fun a p d hv => ?_, fun a h h' hv hl hl' hu => ?_, ?_, ?_⟩⟩
    · simp -implicitDefEqProofs only [Prog.run_get, hv]
    · simp -implicitDefEqProofs only [Prog.run_get, hv, Bool.false_eq_true, if_false]
    · simp -implicitDefEqProofs only [Prog.run_get, hv, hl, hl', hu, if_true]
    · simp
    · simp
  · refine ⟨_, rfl, ⟨fun a hv => ?_, fun a p d hv => ?_, fun a h h' hv hl hl' hu => ?_, fun a h h' hv hl hl' hu _ hk => ?_,
      fun a h h' hv hl hl' hu _ hk hb => ?_⟩⟩
    · simp -implicitDefEqProofs only [Prog.run_get, hv]
    · simp -implicitDefEqProofs only [Prog.run_get, hv, if_true]
    · simp -implicitDefEqProofs only [Prog.run_get, hv, hl, hl', hu, if_true]
    · simp -implicitDefEqProofs only [Prog.run_get, hv, hl, hl', hu, hk, Bool.false_eq_true, if_false, if_true]
    · simp -implicitDefEqProofs only [Prog.run_get, hv, hl, hl', hu, hk, hb, Bool.false_eq_true, if_false, if_true]

/-! ### Accesses that are carried out -/

theorem hostRead_run (hi : s.intact = true) (off a n : Nat) : (hostRead off a n).run s = (emit (.done (s.hostBytes a n))).run s := by
  rw [hostRead, Prog.run_all_cons, Prog.run_all_cons, Prog.run_all_nil, readBy_run hi, Prog.run_get, deadAt_intact hi, if_neg (by decide)]

theorem hostWrite_run (hi : s.intact = true) (off a : Nat) (hs : s.dev.snap = none ∨ granEnd ≤ a) (bs : List Byte) :
    (hostWrite off a bs).run s = (Act.bytes a bs).apply s := by
  have hi' : ((Act.bytes a bs).apply s).intact = true := hi
  rw [hostWrite, Prog.run_all_cons, Prog.run_all_cons, Prog.run_all_nil, memStore_run hi a hs, ifRefused, Prog.run_get,
    deadAt_intact hi', if_neg (by decide), Prog.run_done]

theorem placeOf_slice_high {a c x : Nat} (h : placeOf a = .slice c x) : granEnd ≤ a := by
  rw [placeOf] at h
  split at h
  · contradiction
  · exact Nat.le_of_not_lt ‹_›

theorem hostBar2Read_served {o : BitVec 40} {n : Nat} {ide : Bool} {far : FarAnswer} (h : s.hostMayGo o.toNat ide)
    (hv : s.village (s.windowAddr o.toNat) = .here) :
    let l := s.windowAddr o.toNat % 2 ^ 48
    ((∃ h h', placeOf l = .granary h ∧ placeOf (l + n - 1) = .granary h' ∧ s.underReset (pgGran h) = false ∧ s.granServes h = true) ∨
     (∃ c x x', placeOf l = .slice c x ∧ placeOf (l + n - 1) = .slice c x' ∧ s.croftUnderReset c = false ∧ s.bankMiss c agHost false x n = none)) →
    exec (.hostBar2Read o n ide far) s = .next ((hostRead o.toNat l n).run s) := by
  intro l hplace
  refine congrArg Host.Outcome.next ((bar2_run_go h false _).trans ?_)
  clear h
  simp only [l] at hplace ⊢
  generalize s.windowAddr o.toNat = a at hv hplace
  rcases hplace with ⟨h, h', hl, hl', hu, hg⟩ | ⟨c, x, x', hl, hl', hu, hb⟩
  · simp -implicitDefEqProofs only [Prog.run_get, hv, hl, hl', hu, hg, Bool.not_true, Bool.false_eq_true, if_false]
  · simp -implicitDefEqProofs only [Prog.run_get, hv, hl, hl', hu, hb, ne_eq, not_true, Bool.false_eq_true, if_false]

theorem hostBar2Write_served {o : BitVec 40} {n : Nat} {bs : List Byte} (hn : bs.length = n) {ide : Bool} {far : FarAnswer}
    (h : s.hostMayGo o.toNat ide) (hv : s.village (s.windowAddr o.toNat) = .here) :
    let l := s.windowAddr o.toNat % 2 ^ 48
    ((∃ h h', placeOf l = .granary h ∧ placeOf (l + n - 1) = .granary h' ∧ s.underReset (pgGran h) = false ∧ s.granServes h = true ∧
       s.bucketKeeps l n = false ∧ touchesBoot l n = false) ∨
     (∃ c x x', placeOf l = .slice c x ∧ placeOf (l + n - 1) = .slice c x' ∧ s.croftUnderReset c = false ∧ s.bankMiss c agHost true x n = none)) →
    exec (.hostBar2Write o bs ide far) s = .next ((hostWrite o.toNat l bs).run s) := by
  subst hn
  intro l hplace
  refine congrArg Host.Outcome.next ((bar2_run_go h true _).trans ?_)
  clear h
  simp only [l] at hplace ⊢
  generalize s.windowAddr o.toNat = a at hv hplace
  rcases hplace with ⟨h, h', hl, hl', hu, hg, hk, hb⟩ | ⟨c, x, x', hl, hl', hu, hb⟩
  · simp -implicitDefEqProofs only [Prog.run_get, hv, hl, hl', hu, hg, hk, hb, Bool.not_true, Bool.false_eq_true, if_false]
  · simp -implicitDefEqProofs only [Prog.run_get, hv, hl, hl', hu, hb, ne_eq, not_true, Bool.false_eq_true, if_false]

/-! ### The obligation -/

theorem HostEnds.congr {s s' t : State} {bar kind : Nat} {write : Bool} {off : Nat} (h : HostEnds s t bar kind write off)
    (hreg : ∀ o < 0x1000, s.reg pgHost o = s'.reg pgHost o) (hout : s.out = s'.out) : HostEnds s' t bar kind write off := by
  have hcounter := hreg _ (endCounter_off kind).1
  have hvalid := hreg R.host_ERR_LOG_VALID.off (by decide)
  simpa only [HostEnds, Counts, State.bit, State.fld_eq, hcounter, hvalid, hout] using h

/-- Settles O44. -/
theorem hostAccessesAreCarriedOutOrEnded : Obligations.HostAccessesAreCarriedOutOrEnded := by
  unfold Obligations.HostAccessesAreCarriedOutOrEnded
  refine ⟨?served, ?ended, ?timeout⟩
  case served =>
    intro s o ide far n bs hmay hv hi l hplace
    refine ⟨⟨_, hostBar2Read_served hmay hv hplace, ?_⟩, fun hn hpos hw => ⟨_, hostBar2Write_served hn hmay hv ?_, ?_⟩⟩
    · rw [hostRead_run hi]
      exact ⟨rfl, Prog.keeps (by simp) s⟩
    · rcases hplace with ⟨h, h', hl, hl', hu, hg⟩ | ⟨c, x, x', hl, hl', hu, hb⟩
      · rcases hw with ⟨_, _, _, hk, hb⟩ | ⟨_, _, hslice, _⟩
        · exact .inl ⟨h, h', hl, hl', hu, hg, hk, hb⟩
        · exact absurd (hl.symm.trans hslice) (by simp)
      · rcases hw with ⟨_, hgran, _⟩ | ⟨c', y, hslice, hm⟩
        · exact absurd (hl.symm.trans hgran) (by simp)
        · obtain ⟨rfl, rfl⟩ : c = c' ∧ x = y := by simpa using hl.symm.trans hslice
          exact .inr ⟨c, x, x', hl, hl', hu, hm⟩
    · have hs : s.dev.snap = none ∨ granEnd ≤ l := by
        rcases hw with ⟨_, _, hs, _⟩ | ⟨c, x, hl, _⟩
        · exact .inl hs
        · exact .inr (placeOf_slice_high hl)
      rw [hostWrite_run hi _ _ hs, ← hn]
      exact ⟨Act.apply_bytes_holds s l bs, Act.apply_bytes_keeps ..⟩
  case ended =>
    intro s o n bs ide wr far r hr a l free up may ends
    obtain ⟨k, hexec, hserves⟩ := exec_hostAccess s hr
    have hends (kind : Nat) (hk : kind < 8) (he : (bar2 o.toNat wr ide k).run s = (hostEnd 1 kind wr o.toNat).run s) : ends kind :=
      ⟨_, hexec.trans (congrArg _ he), hostEnd_ends (by decide) hk wr o.toNat s⟩
    have hgo (hmay : may) := bar2_run_go hmay wr k
    have hsends (hmay : may) {p d q : Nat} (hv : s.village a = .port p d) (hq : (s.portLinks p).find? s.linkUp = some q) :
        exec r s = .next ((Prog.all [emit (.hostAccess q a wr (if wr then bs else [])), farEnd o.toNat wr far]).run s) := by
      refine hexec.trans (congrArg _ ((hgo hmay).trans ((hserves.beyond a p d hv).trans ?_)))
      simp -implicitDefEqProofs only [bar2Far, Prog.run_get, hq]
    refine ⟨fun hf => ⟨_, hexec.trans (congrArg _ (needsIde_counts hf wr _)), ?_⟩, fun hf hre => hends _ (by decide) ?_, fun hup hrate => hends _ (by decide) ?_,
      fun hup hrate hen hwin => hends _ (by decide) ?_, fun hmay hv => hends _ (by decide) ?_, fun hmay h h' hv hl hl' => ⟨fun hu => ?_, fun hu hw hk => ?_,
        fun hu hw hk hb => ?_⟩, fun hmay p d hv => ⟨fun hnone => ?_, fun q hq => ⟨fun hfar => ?_, fun got hfar => ?_, fun kind hfar => ?_⟩⟩⟩
    · simp -implicitDefEqProofs only [Prog.run_all_cons, Prog.run_all_nil]
      cases wr
      · exact ⟨by simp [Counts, emit], by simp [emit], (Prog.keeps (by simp) s).trans (Prog.keeps (by simp [Prog.only_when]) _)⟩
      · exact ⟨by simp [Counts], by simp, (Prog.keeps (by simp) s).trans (Prog.keeps (by simp [Prog.only_when]) _)⟩
    · rw [bar2_run hf, if_pos hre]
    · rw [bar2_run hup.1, if_neg (by simp [hup.2.1, hup.2.2]), if_pos hrate]
    · rw [bar2_run hup.1, if_neg (by simp [hup.2.1, hup.2.2]), if_neg (by simp [hrate, hen]), if_pos hwin]
    · exact (hgo hmay).trans (hserves.nowhere a hv)
    · refine ⟨_, hexec.trans (congrArg _ ((hgo hmay).trans (hserves.absorbed a h h' hv hl hl' hu))), ?_⟩
      obtain ⟨hends', hkeep⟩ := hostEnd_ends (bar := 1) (kind := endAbs) (by decide) (by decide) wr o.toNat ((absorbAt (pgGran h) 1).run s)
      rw [hostAbsorbed, Prog.run_all_cons, Prog.run_all_cons, Prog.run_all_nil]
      refine ⟨hends'.congr (fun _ _ => rfl) rfl, ?_, (Prog.keeps (by simp) s).trans (hkeep.mono (by constructor <;> simp))⟩
      rw [State.absorbed, hkeep.dev id]
      simp [absorbAt, modDev, State.absorbed]
    · refine ⟨_, hexec.trans (congrArg _ ((hgo hmay).trans (hserves.kept a h h' hv hl hl' hu hw hk))), ?_⟩
      obtain ⟨hends', hkeep⟩ := hostEnd_ends (bar := 1) (kind := endRefused) (by decide) (by decide) true o.toNat
        ((bump pgBucket R.bucket_REFUSE_CNT).run s)
      rw [Prog.run_all_cons, Prog.run_all_cons, Prog.run_all_nil, hw]
      refine ⟨hends'.congr (fun o ho => ?_) ?_, ?_, ?_⟩
      · simp [ho]
      · simp
      · refine (hkeep.reg_eq (by simp only [theRegs]; decide)).trans ?_
        simp
      · refine (Prog.keeps (by simp) s).trans (hkeep.mono ?_)
        constructor
        case regs => exact fun a ha => ⟨_, List.mem_cons_self .., ha⟩
        all_goals simp
    · subst hw
      exact (hends _ (by decide) ((hgo hmay).trans (hserves.boot a h h' hv hl hl' hu rfl hk hb)))
    · refine hends _ (by decide) ((hgo hmay).trans ((hserves.beyond a p d hv).trans ?_))
      simp -implicitDefEqProofs only [bar2Far, Prog.run_get, hnone]
    · subst hfar
      refine ⟨_, hsends hmay hv hq, ?_, ?_, ?_⟩
      · simp [farEnd, modHost, modDev, emit]
      · simp [farEnd, modHost, modDev, emit]
      · exact Prog.keeps (by simp [farEnd]) s
    · subst hfar
      refine ⟨_, hsends hmay hv hq, ?_, ?_⟩
      · cases wr <;> simp [farEnd, emit]
      · exact Prog.keeps (by simp [farEnd, Prog.only_when]) s
    · have hkind : kind < 8 ∧ farEnd o.toNat wr far = hostEnd 1 kind wr o.toNat := by
        simp only [List.mem_cons, Prod.mk.injEq, List.not_mem_nil, or_false] at hfar
        rcases hfar with ⟨rfl, rfl⟩ | ⟨rfl, rfl⟩ | ⟨rfl, rfl⟩ | ⟨rfl, rfl⟩
        all_goals exact ⟨by decide, rfl⟩
      obtain ⟨hends', hkeep⟩ := hostEnd_ends (bar := 1) (by decide) hkind.1 wr o.toNat
        { s with out := s.out ++ [.hostAccess q a wr (if wr then bs else [])] }
      refine ⟨_, hsends hmay hv hq, ?_⟩
      rw [Prog.run_all_cons, Prog.run_all_cons, Prog.run_all_nil, hkind.2]
      exact ⟨hends', (Prog.keeps (p := emit (.hostAccess q a wr (if wr then bs else []))) (by simp) s).trans hkeep⟩
  case timeout =>
    intro s k
    refine ⟨fun h => ?_, fun x h => ?_⟩
    · show execHostAccessTimeout k s = _
      simp only [execHostAccessTimeout, Prog.next_eq, Prog.run_get, h, Prog.run_done]
    · have hexec : exec (.hostAccessTimeout k) s = .next ((hostEnd 1 endTimeout x.write x.off).run
          ((modHost fun h => { h with waiting := h.waiting.eraseIdx k }).run s)) := by
        show execHostAccessTimeout k s = _
        simp -implicitDefEqProofs only [execHostAccessTimeout, Prog.next_eq, Prog.run_get, h, Prog.run_all_cons, Prog.run_all_nil]
      obtain ⟨hends, hkeep⟩ := hostEnd_ends (bar := 1) (kind := endTimeout) (by decide) (by decide) x.write x.off
        ((modHost fun h => { h with waiting := h.waiting.eraseIdx k }).run s)
      refine ⟨_, hexec, hends.congr (fun _ _ => rfl) rfl, ?_, ?_⟩
      · rw [hkeep.dev id]
        rfl
      · exact (Prog.keeps (by simp) s).trans (hkeep.mono (by constructor <;> simp))

end Sys2Proof.Machine
end

open Host
section
/-! SUPPORT. Crier's pending words, and what a target that follows its sources changes (R458, R461, R464). -/
namespace Sys2Proof.Machine

variable {s : State}

/-! ### One bit of a word cleared -/

theorem ofNat_sub_two_pow {w : Word} {k : Nat} (hk : k < 32) (h : w.getLsbD k = true) :
    BitVec.ofNat 32 (w.toNat - 2 ^ k) = w &&& ~~~BitVec.twoPow 32 k := by
  have hsplit : (w &&& ~~~BitVec.twoPow 32 k) + BitVec.twoPow 32 k = w := by
    rw [BitVec.add_eq_or_of_and_eq_zero]
    · refine BitVec.eq_of_getLsbD_eq fun i hi => ?_
      by_cases hik : k = i
      · subst hik; simp [hi, h]
      · simp [hi, Ne.symm hik]
    · refine BitVec.eq_of_getLsbD_eq fun i hi => ?_
      by_cases hik : k = i
      · simp [hi, hik]
      · simp [hi, Ne.symm hik]
  have hle : 2 ^ k ≤ w.toNat := by
    by_contra hlt
    rw [← BitVec.testBit_toNat, Nat.testBit_lt_two_pow (by omega)] at h
    contradiction
  rw [← BitVec.ofNat_sub_ofNat_of_le _ _ (Nat.pow_lt_pow_right (by decide) hk) hle, BitVec.ofNat_toNat, BitVec.setWidth_eq]
  rw [show BitVec.ofNat 32 (2 ^ k) = BitVec.twoPow 32 k from by rw [BitVec.twoPow_eq]; exact BitVec.eq_of_toNat_eq (by simp [Nat.shiftLeft_eq])]
  rw [← eq_sub_iff_add_eq] at hsplit
  exact hsplit.symm

/-- The pending word of source `n`. -/
def State.pendWord (s : State) (i : Nat) : Word := s.reg pgCrier (R.crier_PEND.off + 4 * i)

theorem sourceBit_pend (s : State) (n : Nat) : s.sourceBit R.crier_PEND n = (s.pendWord (n / 32)).getLsbD (n % 32) := by
  rw [State.sourceBit, State.fld_eq, Fld.of_whole rfl rfl, ← BitVec.testBit_toNat, Nat.testBit_eq_decide_div_mod_eq]
  rfl

theorem insert_whole {f : Fld} (h : f.lo = 0) (h' : f.width = 32) (w : Word) (v : Nat) : f.insert w v = BitVec.ofNat 32 v := by
  apply BitVec.eq_of_toNat_eq
  rw [Fld.insert_whole_toNat h h', BitVec.toNat_ofNat]

/-- The bit of a source in its pending word is cleared, and no other. -/
theorem clearInjected_run (n : Nat) (s : State) : (clearInjected n).run s =
    if s.sourceBit R.crier_PEND n = true then
      s.put pgCrier (R.crier_PEND.off + 4 * (n / 32)) (s.pendWord (n / 32) &&& ~~~BitVec.twoPow 32 (n % 32))
    else s := by
  rw [clearInjected, Prog.run_get, Prog.run_when]
  split
  next h =>
    rw [sourceBit_pend] at h
    rw [setFld_run_put, insert_whole rfl rfl, State.fld_eq, Fld.of_whole rfl rfl, ← ofNat_sub_two_pow (Nat.mod_lt _ (by decide)) h]
    rfl
  next => rfl

theorem clearInjected_reg {o : Nat} (n : Nat) (s : State) (h : o ≠ R.crier_PEND.off + 4 * (n / 32)) :
    ((clearInjected n).run s).reg pgCrier o = s.reg pgCrier o := by
  rw [clearInjected_run]
  split
  · rw [State.put, State.reg_apply_reg, if_neg (by omega)]
  · rfl

theorem clearInjected_pendWord (n : Nat) (s : State) (i : Nat) : ((clearInjected n).run s).pendWord i =
    if i = n / 32 then s.pendWord i &&& ~~~BitVec.twoPow 32 (n % 32) else s.pendWord i := by
  by_cases hi : i = n / 32
  · subst hi
    rw [if_pos rfl, clearInjected_run]
    split
    next h => rw [State.pendWord, State.put, State.reg_apply_reg, if_pos rfl]
    next h =>
      rw [sourceBit_pend, Bool.not_eq_true] at h
      refine BitVec.eq_of_getLsbD_eq fun j hj => ?_
      by_cases hjn : n % 32 = j
      · rw [← hjn, h]; simp [h]
      · simp [hj, Ne.symm hjn]
  · rw [if_neg hi]
    exact clearInjected_reg n s (by omega)

/-! ### Sources are numbered below 2,047 -/

theorem requests_lt {n : Nat} (h : n ∈ s.requests) : n < 2047 := by
  simp only [State.requests, List.mem_append, List.mem_filterMap, List.mem_map, List.mem_filter, List.mem_range] at h
  rcases h with (h | ⟨e, -, h⟩) | ⟨i, ⟨hi, -⟩, rfl⟩
  · split at h
    · rw [List.mem_singleton.1 h]; decide
    · contradiction
  · simp only [State.raisedBy] at h
    split at h
    · split at h
      next hsrc =>
        obtain ⟨-, -, -, hle, -⟩ := hsrc
        cases h
        omega
      · contradiction
    · contradiction
  · omega

theorem eligible_lt {t : Target} {n : Nat} (h : n ∈ s.eligible t) : n < 2047 := by
  obtain ⟨hp, -⟩ := List.mem_filter.1 h
  simp only [State.pendingSources] at hp
  split at hp
  · rcases List.mem_append.1 hp with h | h
    · exact requests_lt h
    · exact List.mem_range.1 (List.mem_filter.1 h).1
  · exact requests_lt hp

theorem better_mem (s : State) (a b : Nat) : s.better a b = a ∨ s.better a b = b := by
  simp only [State.better]
  split
  · exact .inr rfl
  · exact .inl rfl

theorem claimable_mem {t : Target} {n : Nat} (h : s.claimable t = some n) : s.enabled pgCrier = true ∧ n ∈ s.eligible t := by
  simp only [State.claimable] at h
  split at h
  · contradiction
  next hen =>
    refine ⟨by simpa using hen, ?_⟩
    split at h
    · contradiction
    next m ns he =>
      cases h
      rw [he]
      clear he
      suffices hfold : ∀ (l : List Nat) a, (l.foldl s.better a) = a ∨ (l.foldl s.better a) ∈ l by
        exact (hfold ns m).elim (fun h => by rw [h]; exact List.mem_cons_self ..) (List.mem_cons_of_mem _)
      intro l
      induction l with
      | nil => exact fun a => .inl rfl
      | cons b l ih =>
        intro a
        rw [List.foldl_cons]
        rcases ih (s.better a b) with h | h
        · rcases better_mem s a b with hb | hb
          · exact .inl (h.trans hb)
          · exact .inr (by rw [h, hb]; exact List.mem_cons_self ..)
        · exact .inr (List.mem_cons_of_mem _ h)

/-! ### What a target that follows its sources changes -/

/-- Crier's pending words and its counts of claims and signals, its record and the vectors, and messages. -/
def followTouch : Touch := {
  regs := fun a => (∃ i < 64, a = pgCrier.base + (R.crier_PEND.off + 4 * i)) ∨ theRegs pgCrier [R.crier_CLAIM_CNT, R.crier_REEVE_SIG_CNT] a
  dev := True, out := True }

theorem clearInjected_follow {n : Nat} (h : n < 2047) : (clearInjected n).Only followTouch.allows := by
  intro s
  refine (Prog.only_when ..).2 fun _ => setFld_only (fun _ => ?_) _
  exact .inl ⟨n / 32, by omega, rfl⟩

theorem setSignalled_follow (t : Target) : (setSignalled t).Only followTouch.allows := (setSignalled_allows t).2 trivial

theorem sendMsix_follow (v : Nat) : (sendMsix v).Only followTouch.allows := sendMsix_only trivial trivial v

theorem enterService_follow {n : Nat} (h : n < 2047) (t : Target) : (enterService n t).Only followTouch.allows := by
  simp only [enterService, Prog.only_all_cons, Prog.only_all_nil, and_true]
  exact ⟨(modCrier_allows _).2 trivial, clearInjected_follow h, bumpBy_only (fun w => .inr ⟨R.crier_CLAIM_CNT, by simp, rfl⟩) 1⟩

theorem serveReeve_follow (c : Nat) : (serveReeve c).Only followTouch.allows := by
  intro s
  show Prog.Only _ (if _ then _ else _)
  split
  · trivial
  · refine (Prog.only_each ..).2 fun n hn u => (Prog.only_when ..).2 fun _ => ?_
    simp only [Prog.only_all_cons, Prog.only_all_nil, and_true]
    exact ⟨enterService_follow (eligible_lt hn) _, bumpBy_only (fun w => .inr ⟨R.crier_REEVE_SIG_CNT, by simp, rfl⟩) 1,
      (modDev_allows _).2 trivial, (Prog.only_when ..).2 fun _ => (modCrier_allows _).2 trivial⟩

theorem settle_follow (t : Target) : (settle t).Only followTouch.allows := by
  cases t with
  | reeve c => exact serveReeve_follow c
  | steward =>
    intro s
    show Prog.Only _ (if _ then _ else _)
    split
    · trivial
    · simp only [Prog.only_all_cons, Prog.only_all_nil, and_true]
      exact ⟨(modCrier_allows _).2 trivial, (Prog.only_when ..).2 fun _ => setSignalled_follow _⟩
  | vector v =>
    intro s
    show Prog.Only _ (if _ then _ else if _ then _ else _)
    split
    · trivial
    · split
      · simp only [Prog.only_all_cons, Prog.only_all_nil, and_true]
        exact ⟨(modVec_allows ..).2 trivial, sendMsix_follow v⟩
      · exact (modVec_allows ..).2 trivial

theorem settleAll_follow : settleAll.Only followTouch.allows := fun _ => (Prog.only_each ..).2 fun t _ => settle_follow t

theorem settleRoute_follow (n : Nat) : (settleRoute n).Only followTouch.allows := by
  intro s
  show Prog.Only _ (match routeTarget (s.route n) with | some t => settle t | none => .done)
  split
  · exact settle_follow _
  · trivial

/-- Crier's record follows: no source leaves service, one enters it for a reeve only, routes stand, and pending bits only fall; while the
page is not enabled nothing of that happens. -/
structure Follows (s t : State) : Prop where
  keeps : Keeps followTouch s t
  stays : ∀ e ∈ s.dev.crier.service, e ∈ t.dev.crier.service
  enters : ∀ e ∈ t.dev.crier.service, e ∈ s.dev.crier.service ∨ ∃ c, e.2 = .reeve c
  routes : t.dev.crier.routes = s.dev.crier.routes
  falls : ∀ i j, (t.pendWord i).getLsbD j = true → (s.pendWord i).getLsbD j = true
  idle : s.enabled pgCrier = false → t.dev.crier.service = s.dev.crier.service ∧ ∀ i, t.pendWord i = s.pendWord i

theorem Follows.refl (s : State) : Follows s s :=
  ⟨Prog.keeps (p := .done) trivial s, fun _ h => h, fun _ h => .inl h, rfl, fun _ _ h => h, fun _ => ⟨rfl, fun _ => rfl⟩⟩

/-- The registers that following its sources leaves to Crier's page. -/
theorem not_followTouch {o : Nat} (h : o < 0x080 ∨ 0x08C < o ∧ o < 0x200 ∨ 0x2FC < o ∧ o < 0x1000 ∨ o = 0x084 ∨ o = 0x088) :
    ¬ followTouch.regs (pgCrier.base + o) := by
  rintro (⟨i, hi, e⟩ | h')
  · have : R.crier_PEND.off = 0x200 := rfl
    omega
  · exact not_theRegs_offset (by simp; omega) _ h'

theorem Follows.enabled {s t : State} (h : Follows s t) : t.enabled pgCrier = s.enabled pgCrier := by
  rw [State.enabled, State.enabled, h.keeps.bit_eq (not_followTouch (by decide)), h.keeps.fld_eq (not_followTouch (by decide))]

theorem Follows.trans {s t u : State} (h : Follows s t) (k : Follows t u) : Follows s u where
  keeps := h.keeps.trans k.keeps
  stays e he := k.stays e (h.stays e he)
  enters e he := (k.enters e he).elim (h.enters e) .inr
  routes := k.routes.trans h.routes
  falls i j hj := h.falls i j (k.falls i j hj)
  idle hs := by
    obtain ⟨hserv, hpend⟩ := h.idle hs
    obtain ⟨hserv', hpend'⟩ := k.idle (h.enabled.trans hs)
    exact ⟨hserv'.trans hserv, fun i => (hpend' i).trans (hpend i)⟩

/-- What leaves Crier's service, its routes and every register follows. -/
theorem Follows.of_quiet {p : Prog} (hp : p.Only (Touch.allows { dev := True, out := True })) {s : State}
    (hserv : (p.run s).dev.crier.service = s.dev.crier.service) (hroutes : (p.run s).dev.crier.routes = s.dev.crier.routes) :
    Follows s (p.run s) := by
  have hkeep := Prog.keeps hp s
  have hpend (i : Nat) : (p.run s).pendWord i = s.pendWord i := hkeep.reg_eq id
  exact ⟨hkeep.mono (by constructor <;> simp [followTouch]), fun e he => hserv ▸ he, fun e he => .inl (hserv ▸ he), hroutes,
    fun i j hj => hpend i ▸ hj, fun _ => ⟨hserv, hpend⟩⟩

/-! ### Each target -/

theorem sendMsix_crier (v : Nat) (s : State) : ((sendMsix v).run s).dev.crier.service = s.dev.crier.service ∧
    ((sendMsix v).run s).dev.crier.routes = s.dev.crier.routes := by
  rw [sendMsix_run]
  split
  · simp [modVec, modHost, modDev]
  · rw [Prog.run_when]
    split
    · simp [modVec, modHost, modDev, emit, setSignalled, modCrier]
    · exact ⟨rfl, rfl⟩

theorem sendMsix_follows (v : Nat) (s : State) : Follows s ((sendMsix v).run s) :=
  .of_quiet (sendMsix_only trivial trivial v) (sendMsix_crier v s).1 (sendMsix_crier v s).2

theorem modVec_follows (v : Nat) (f : Vec → Vec) (s : State) : Follows s ((modVec v f).run s) :=
  .of_quiet (by simp) rfl rfl

theorem settleVector_follows (v : Nat) (s : State) : Follows s ((settleVector v).run s) := by
  rw [settleVector, Prog.run_get, Prog.run_ite]
  split
  · exact .refl s
  · rw [Prog.run_ite]
    split
    · rw [Prog.run_all_cons, Prog.run_all_cons, Prog.run_all_nil]
      exact (modVec_follows ..).trans (sendMsix_follows ..)
    · exact modVec_follows ..

theorem settleSteward_follows (s : State) : Follows s (settleSteward.run s) := by
  rw [settleSteward, Prog.run_get, Prog.run_ite]
  split
  · exact .refl s
  · refine .of_quiet (by simp [Prog.only_when]) ?_ ?_
    all_goals
      rw [Prog.run_all_cons, Prog.run_all_cons, Prog.run_all_nil, Prog.run_when]
      split
      all_goals rfl

theorem clearInjected_regs (n : Nat) : (clearInjected n).Only (Touch.allows { regs := fun _ => True }) := by
  intro s
  exact (Prog.only_when ..).2 fun _ => setFld_only (fun _ => trivial) _

theorem enterService_run (n : Nat) (t : Target) (s : State) :
    let u := (enterService n t).run s
    u.dev = { s.dev with crier := { s.dev.crier with service := s.dev.crier.service ++ [(n, t)] } } ∧ Counts s u pgCrier R.crier_CLAIM_CNT 1 ∧
      (∀ i, u.pendWord i = if i = n / 32 then s.pendWord i &&& ~~~BitVec.twoPow 32 (n % 32) else s.pendWord i) ∧ u.out = s.out ∧
      ∀ o < 0x200, o ≠ R.crier_CLAIM_CNT.off → u.reg pgCrier o = s.reg pgCrier o := by
  simp only [enterService, Prog.run_all_cons, Prog.run_all_nil]
  have hkeep (v : State) : Keeps { regs := fun _ => True } v ((clearInjected n).run v) :=
    Prog.keeps (clearInjected_regs n) v
  have hoff : R.crier_PEND.off = 0x200 := rfl
  refine ⟨?_, ?_, fun i => ?_, ?_, fun o ho hne => ?_⟩
  · simp -implicitDefEqProofs [(hkeep _).dev id, modCrier, modDev]
  · have := clearInjected_reg n ((modCrier fun k => { k with service := k.service ++ [(n, t)] }).run s) (o := R.crier_CLAIM_CNT.off)
      (by rw [hoff]; simp; omega)
    simp only [Counts, bump, bumpBy, Prog.run_get, setReg_run_put, State.reg_put_same, this]
    rfl
  · refine Eq.trans ?_ (clearInjected_pendWord n ((modCrier fun k => { k with service := k.service ++ [(n, t)] }).run s) i)
    exact (bumpBy_run ..).2.reg_eq (not_theRegs_offset (by rw [hoff]; simp; omega) _)
  · simp -implicitDefEqProofs [(hkeep _).out id, modCrier, modDev]
  · refine ((bumpBy_run ..).2.reg_eq (not_theRegs_offset (by simpa using hne) _)).trans ?_
    exact clearInjected_reg n _ (by rw [hoff]; omega)

/-- A source enters service on a reeve's behalf, and the reeve's token is signalled. -/
def reeveEnters (c n : Nat) : Prog := .get (fun s => .all [
  enterService n (.reeve c),
  bump pgCrier R.crier_REEVE_SIG_CNT,
  modDev (fun d => { d with signals := d.signals ++ [{ src := none, dst := c, token := s.fld pgCrier R.crier_CFG_REEVE_TOKEN, count := 1 }] })])

theorem reeveEnters_follow {n : Nat} (h : n < 2047) (c : Nat) : (reeveEnters c n).Only followTouch.allows := by
  intro s
  simp only [Prog.only_all_cons, Prog.only_all_nil, and_true]
  exact ⟨enterService_follow h _, bumpBy_only (fun w => .inr ⟨R.crier_REEVE_SIG_CNT, by simp, rfl⟩) 1, (modDev_allows _).2 trivial⟩

theorem reeveEnters_run (c n : Nat) (s : State) :
    let u := (reeveEnters c n).run s
    u.dev = { s.dev with
      crier := { s.dev.crier with service := s.dev.crier.service ++ [(n, .reeve c)] }
      signals := s.dev.signals ++ [{ src := none, dst := c, token := s.fld pgCrier R.crier_CFG_REEVE_TOKEN, count := 1 }] } ∧
    (∀ i, u.pendWord i = if i = n / 32 then s.pendWord i &&& ~~~BitVec.twoPow 32 (n % 32) else s.pendWord i) ∧
    Counts s u pgCrier R.crier_CLAIM_CNT 1 ∧ Counts s u pgCrier R.crier_REEVE_SIG_CNT 1 := by
  obtain ⟨hdev, hclaim, hpend, -, hreg⟩ := enterService_run n (.reeve c) s
  have hsig := hreg R.crier_REEVE_SIG_CNT.off (by decide) (by decide)
  simp -implicitDefEqProofs only [reeveEnters, Prog.run_get, Prog.run_all_cons, Prog.run_all_nil]
  generalize (enterService n (.reeve c)).run s = u at *
  obtain ⟨hcnt, hkeep⟩ := bumpBy_run pgCrier R.crier_REEVE_SIG_CNT 1 u
  refine ⟨?_, fun i => ?_, ?_, ?_⟩
  · simp -implicitDefEqProofs [modDev, hdev]
  · have hoff : R.crier_PEND.off = 0x200 := rfl
    exact (hkeep.reg_eq (not_theRegs_offset (by rw [hoff]; simp; omega) _)).trans (hpend i)
  · exact (hkeep.reg_eq (not_theRegs_offset (by decide) _)).trans hclaim
  · exact hcnt.trans (by rw [hsig])

/-- What Crier does on a reeve's behalf with one of its sources. -/
def reeveClaims (c n : Nat) : Prog := .get (fun s =>
  Prog.when (!s.inService n) (.all [
    enterService n (.reeve c),
    bump pgCrier R.crier_REEVE_SIG_CNT,
    modDev (fun d => { d with signals := d.signals ++ [{ src := none, dst := c, token := s.fld pgCrier R.crier_CFG_REEVE_TOKEN, count := 1 }] }),
    Prog.when (!s.requests.contains n) (leaveService n)]))

theorem reeveClaims_run (c n : Nat) (s : State) : (reeveClaims c n).run s =
    if s.inService n = true then s
    else if s.requests.contains n = false then (leaveService n).run ((reeveEnters c n).run s) else (reeveEnters c n).run s := by
  simp -implicitDefEqProofs only [reeveClaims, reeveEnters, Prog.run_get, Prog.run_when, Prog.run_all_cons, Prog.run_all_nil]
  cases s.inService n <;> cases s.requests.contains n <;> rfl

theorem serveReeve_run (c : Nat) (s : State) : (serveReeve c).run s =
    if s.enabled pgCrier = false then s else (Prog.each (s.eligible (.reeve c)) (reeveClaims c)).run s := by
  rw [serveReeve, Prog.run_get, Prog.run_ite]
  exact if_congr (by simp) rfl rfl

/-- A source that enters service for a reeve, and may be complete at once. -/
theorem reeveClaims_follows {c n : Nat} (hn : n < 2047) {s : State} (hen : s.enabled pgCrier = true) : Follows s ((reeveClaims c n).run s) := by
  rw [reeveClaims_run]
  split
  · exact .refl s
  next hout =>
    obtain ⟨hdev, hpend, -, -⟩ := reeveEnters_run c n s
    have hkeep := Prog.keeps (reeveEnters_follow hn c) s
    have hfalls (i j : Nat) : (((reeveEnters c n).run s).pendWord i).getLsbD j = true → (s.pendWord i).getLsbD j = true := by
      rw [hpend]
      split
      · rw [BitVec.getLsbD_and]
        exact fun h => (Bool.and_eq_true_iff.1 h).1
      · exact id
    have hservice : ((reeveEnters c n).run s).dev.crier.service = s.dev.crier.service ++ [(n, .reeve c)] := by rw [hdev]
    have hroutes : ((reeveEnters c n).run s).dev.crier.routes = s.dev.crier.routes := by rw [hdev]
    have hidle (t : State) : s.enabled pgCrier = false → t.dev.crier.service = s.dev.crier.service ∧ ∀ i, t.pendWord i = s.pendWord i :=
      fun hn => absurd (hn.symm.trans hen) (by decide)
    split
    · refine ⟨hkeep.trans (Prog.keeps (by simp [leaveService, followTouch]) _), fun e he => ?_, fun e he => ?_, hroutes, hfalls, hidle _⟩
      · have hne : e.1 ≠ n := fun h => hout (by simpa [State.inService] using ⟨e.2, h ▸ he⟩)
        simpa [leaveService, modCrier, modDev, hservice, hne] using he
      · have : e ∈ s.dev.crier.service ++ [(n, .reeve c)] := hservice ▸ (List.mem_filter.1 he).1
        rcases List.mem_append.1 this with h | h
        · exact .inl h
        · exact .inr ⟨c, by rw [List.mem_singleton.1 h]⟩
    · refine ⟨hkeep, fun e he => ?_, fun e he => ?_, hroutes, hfalls, hidle _⟩
      · rw [hservice]; exact List.mem_append_left _ he
      · rw [hservice] at he
        rcases List.mem_append.1 he with h | h
        · exact .inl h
        · exact .inr ⟨c, by rw [List.mem_singleton.1 h]⟩

theorem settle_follows (t : Target) (s : State) : Follows s ((settle t).run s) := by
  cases t with
  | reeve c =>
    rw [settle, serveReeve_run]
    split
    · exact .refl s
    next hen =>
      rw [Bool.not_eq_false] at hen
      suffices h : ∀ l : List Nat, (∀ n ∈ l, n < 2047) → ∀ s : State, s.enabled pgCrier = true → Follows s ((Prog.each l (reeveClaims c)).run s) from
        h _ (fun n hn => eligible_lt hn) s hen
      intro l hl
      induction l with
      | nil => exact fun s _ => .refl s
      | cons n l ih =>
        intro s hen
        rw [Prog.run_each_cons]
        have hfirst := reeveClaims_follows (c := c) (hl n (List.mem_cons_self ..)) hen
        exact hfirst.trans (ih (fun m hm => hl m (List.mem_cons_of_mem _ hm)) _ (hfirst.enabled.trans hen))
  | steward => exact settleSteward_follows s
  | vector v => exact settleVector_follows v s

theorem settleAll_follows (s : State) : Follows s (settleAll.run s) := by
  rw [settleAll, Prog.run_get]
  exact each_aside Follows.refl (fun _ _ _ => Follows.trans) (fun t _ u => settle_follows t u) s

theorem settleRoute_follows (n : Nat) (s : State) : Follows s ((settleRoute n).run s) := by
  simp only [settleRoute, Prog.run_get]
  cases routeTarget (s.route n) with
  | none => exact .refl s
  | some t => exact settle_follows t s

end Sys2Proof.Machine
end

open Host
section
/-! O49: Crier serves its sources (R446, R456 to R464). -/
namespace Sys2Proof.Machine

variable {s : State}

/-! ### The host's targets -/

theorem settle_hostTarget_quiet (v : Option (Fin 64)) : (settle (hostTarget v)).Only (Touch.allows { dev := True, out := True }) := by
  cases v with
  | none =>
    intro s
    show Prog.Only _ (if _ then _ else _)
    split
    · trivial
    · simp [Prog.only_when]
  | some v =>
    intro s
    show Prog.Only _ (if _ then _ else if _ then _ else _)
    split
    · trivial
    · split
      · simp only [Prog.only_all_cons, Prog.only_all_nil, and_true]
        exact ⟨(modVec_allows ..).2 trivial, sendMsix_only trivial trivial _⟩
      · exact (modVec_allows ..).2 trivial

theorem settle_hostTarget_service (v : Option (Fin 64)) (s : State) :
    ((settle (hostTarget v)).run s).dev.crier.service = s.dev.crier.service := by
  cases v with
  | none =>
    show (settleSteward.run s).dev.crier.service = _
    rw [settleSteward, Prog.run_get, Prog.run_ite]
    split
    · rfl
    · rw [Prog.run_all_cons, Prog.run_all_cons, Prog.run_all_nil, Prog.run_when]
      split
      all_goals rfl
  | some v =>
    show ((settleVector v.val).run s).dev.crier.service = _
    rw [settleVector, Prog.run_get, Prog.run_ite]
    split
    · rfl
    · rw [Prog.run_ite]
      split
      · rw [Prog.run_all_cons, Prog.run_all_cons, Prog.run_all_nil]
        exact (sendMsix_crier v.val _).1
      · rfl

theorem hostTarget_ne_reeve (v : Option (Fin 64)) (c : Nat) : hostTarget v ≠ .reeve c := by
  cases v <;> simp [hostTarget]

theorem followTouch_le : followTouch.le { regs := onPages [pgCrier], dev := True, out := True } := by
  constructor
  case regs =>
    have hcovers {o : Nat} (h : o < 0x1000) : onPages [pgCrier] (pgCrier.base + o) :=
      ⟨pgCrier, List.mem_singleton_self _, Nat.le_add_right .., by omega⟩
    have hoff : R.crier_PEND.off = 0x200 := rfl
    rintro a (⟨i, hi, rfl⟩ | ⟨f, hf, rfl⟩)
    · exact hcovers (by omega)
    · refine hcovers ?_
      revert f
      decide
  all_goals simp [followTouch]

/-! ### Claims and completes -/

/-- What a claim leaves of the signalled targets. -/
def unsignal (t : Target) : Prog := modCrier (fun k => { k with signalled := k.signalled.filter (· != t) })

theorem exec_crierClaim {v : Option (Fin 64)} (h : s.reaches (targetAgent v) pgCrier) : exec (.crierClaim v) s = .next (
    match s.claimable (hostTarget v) with
    | some n => (Prog.all [enterService n (hostTarget v), unsignal (hostTarget v), settle (hostTarget v), emit (.read n)]).run s
    | none =>
      if s.enabled pgCrier = true ∧ hostTarget v ∈ s.dev.crier.signalled then
        (Prog.all [bump pgCrier R.crier_SPUR_CNT, unsignal (hostTarget v), emit (.read 0x7FF)]).run s
      else (Prog.all [unsignal (hostTarget v), emit (.read 0)]).run s) := by
  show execCrierClaim v s = _
  rw [execCrierClaim, Prog.next_eq, regRead_reaches h, claim, Prog.run_get]
  cases s.claimable (hostTarget v) with
  | some n => rfl
  | none =>
    simp -implicitDefEqProofs only [Prog.run_ite]
    exact congrArg _ (if_congr (by simp) rfl rfl)

/-- What follows a complete: its target, and the target its source is routed to now. -/
def settlesAfter (v : Option (Fin 64)) (n : Nat) : Prog := .all [
  .get (fun s => match hostTarget v with
    | .vector w => if (s.claimable (hostTarget v)).isSome && (s.vec w).asserted then sendMsix w else settleVector w
    | _ => settle (hostTarget v)),
  settleRoute n]

theorem settlesAfter_follows (v : Option (Fin 64)) (n : Nat) (s : State) : Follows s ((settlesAfter v n).run s) := by
  rw [settlesAfter, Prog.run_all_cons, Prog.run_all_cons, Prog.run_all_nil, Prog.run_get]
  refine .trans ?_ (settleRoute_follows n _)
  cases v with
  | none => exact settle_follows .steward s
  | some w =>
    show Follows s (Prog.run (if _ then _ else _) s)
    rw [Prog.run_ite]
    split
    · exact sendMsix_follows ..
    · exact settleVector_follows ..

theorem exec_crierComplete {v : Option (Fin 64)} (h : s.reaches (targetAgent v) pgCrier) (x : Word) : exec (.crierComplete v x) s = .next (
    if (x.toNat % 2 ^ 11, hostTarget v) ∈ s.dev.crier.service then
      (settlesAfter v (x.toNat % 2 ^ 11)).run ((leaveService (x.toNat % 2 ^ 11)).run s)
    else (bump pgCrier R.crier_BAD_COMPLETE_CNT).run s) := by
  have hbits : bitsOf x.toNat 0 11 = x.toNat % 2 ^ 11 := by simp [bitsOf]
  show execCrierComplete v x s = _
  rw [execCrierComplete, Prog.next_eq, regWrite_reaches h, complete, Prog.run_get, Prog.run_ite, hbits]
  refine congrArg _ (if_congr (by simp) ?_ rfl)
  simp -implicitDefEqProofs only [settlesAfter, Prog.run_all_cons, Prog.run_all_nil] <;> rfl

/-! ### Pending words -/

/-- A number made bit by bit. -/
theorem foldl_bits (p : Nat → Prop) [DecidablePred p] (n : Nat) :
    let k := (List.range n).foldl (fun (a : Nat) j => if p j then a + 2 ^ j else a) 0
    k < 2 ^ n ∧ ∀ j, k.testBit j = (decide (j < n) && decide (p j)) := by
  induction n with
  | zero => simp
  | succ n ih =>
    obtain ⟨hlt, hbit⟩ := ih
    rw [List.range_succ, List.foldl_append]
    generalize (List.range n).foldl (fun (a : Nat) j => if p j then a + 2 ^ j else a) 0 = k at *
    simp only [List.foldl_cons, List.foldl_nil]
    have hpow : 2 ^ (n + 1) = 2 ^ n + 2 ^ n := by omega
    by_cases hp : p n
    · rw [if_pos hp]
      refine ⟨by omega, fun j => ?_⟩
      rw [Nat.add_comm]
      rcases Nat.lt_trichotomy j n with hj | rfl | hj
      · rw [Nat.testBit_two_pow_add_gt hj, hbit]
        simp [hj, Nat.lt_succ_of_lt hj]
      · rw [Nat.testBit_two_pow_add_eq, hbit]
        simp [hp]
      · rw [Nat.testBit_lt_two_pow (Nat.lt_of_lt_of_le (by omega : _ < 2 ^ (n + 1)) (Nat.pow_le_pow_right (by decide) hj))]
        simp; omega
    · rw [if_neg hp]
      refine ⟨by omega, fun j => ?_⟩
      rw [hbit]
      by_cases hj : j = n
      · subst hj; simp [hp]
      · simp [show j < n + 1 ↔ j < n by omega]

/-- What a write of a pending word stores. -/
def State.pendKept (s : State) (i : Nat) (x : Word) : Nat :=
  (List.range 32).foldl (fun (a : Nat) j =>
    if x.toNat / 2 ^ j % 2 = 1 ∧ !(s.requests.filter (fun n => n / 32 == i)).contains (32 * i + j) then a + 2 ^ j else a) 0

theorem pendKept_bit (s : State) (i : Nat) (x : Word) {j : Nat} (hj : j < 32) :
    (BitVec.ofNat 32 (s.pendKept i x)).getLsbD j = (x.getLsbD j && !s.requests.contains (32 * i + j)) := by
  obtain ⟨-, hbit⟩ := foldl_bits (fun j => x.toNat / 2 ^ j % 2 = 1 ∧
    (!(s.requests.filter (fun n => n / 32 == i)).contains (32 * i + j)) = true) 32
  have hrow : (32 * i + j) / 32 = i := by omega
  rw [BitVec.getLsbD_ofNat, State.pendKept, hbit, ← BitVec.testBit_toNat, Nat.testBit_eq_decide_div_mod_eq, Bool.eq_iff_iff]
  simp [hj, hrow]

theorem exec_pendWrite {who : Agent} (h : s.reaches who pgCrier) (i : Fin 64) (x : Word) : exec (.pendWrite who i x) s = .next
    (settleAll.run (s.put pgCrier (R.crier_PEND.off + 4 * i.val) (BitVec.ofNat 32 (s.pendKept i.val x)))) := by
  show execPendWrite who i x s = _
  rw [execPendWrite, Prog.next_eq, regWrite_reaches h, writePend, Prog.run_get, Prog.run_all_cons, Prog.run_all_cons, Prog.run_all_nil,
    setReg_run_put]
  rfl

theorem exec_maskWrite {who : Agent} (h : s.reaches who pgCrier) (i : Fin 64) (x : Word) : exec (.maskWrite who i x) s = .next
    (settleAll.run (s.put pgCrier (R.crier_MASK.off + 4 * i.val) x)) := by
  show execMaskWrite who i x s = _
  rw [execMaskWrite, Prog.next_eq, regWrite_reaches h, writeMask, Prog.run_all_cons, Prog.run_all_cons, Prog.run_all_nil, setReg_run_put]

theorem exec_routeDataWrite {who : Agent} (h : s.reaches who pgCrier) (x : Word) :
    let n := s.fld pgCrier R.crier_ROUTE_SEL_SOURCE
    let w := x &&& ~~~0x1000#32
    exec (.routeDataWrite who x) s = .next (
      if ¬ (isSource n = true ∧ (s.enabled pgCrier = false ∨ s.badRoute w = false)) then (ignored pgCrier).run s
      else settleAll.run ((modCrier fun k => { k with routes := Sparse.set k.routes n w }).run s)) := by
  intro n w
  show execRouteDataWrite who x s = _
  rw [execRouteDataWrite, Prog.next_eq, regWrite_reaches h, writeRoute, Prog.run_get, Prog.run_ite]
  refine congrArg _ (if_congr ?_ rfl ?_)
  · simp [n, w, imp_iff_not_or]
  · rw [Prog.run_all_cons, Prog.run_all_cons, Prog.run_all_nil]

/-! ### Sources that begin and cease to request -/

theorem exec_crierSourceRequest (n : BitVec 11) (h : s.requests.contains n.toNat = true) :
    exec (.crierSourceRequest n) s = .next ((settleRoute n.toNat).run ((clearInjected n.toNat).run s)) := by
  show execCrierSourceRequest n s = _
  rw [execCrierSourceRequest, Prog.next_eq, Prog.run_get, h, Prog.run_when_true, Prog.run_all_cons, Prog.run_all_cons, Prog.run_all_nil]

theorem setSignalled_mem (t : Target) (s : State) : t ∈ ((setSignalled t).run s).dev.crier.signalled := by
  simp only [setSignalled, modCrier, modDev, Prog.run_get, Prog.run_eff, Act.apply_dev_dev]
  split
  next h => exact List.contains_iff_mem.1 h
  next => simp

/-- A source that has no pending bit of its own enters a reeve's service by its record and its counts alone. -/
theorem reeveEnters_run_clear {n : Nat} (h : s.sourceBit R.crier_PEND n = false) (c : Nat) : (reeveEnters c n).run s = (Prog.all [
    modCrier (fun k => { k with service := k.service ++ [(n, .reeve c)] }), bump pgCrier R.crier_CLAIM_CNT, bump pgCrier R.crier_REEVE_SIG_CNT,
    modDev (fun d => { d with signals := d.signals ++ [{ src := none, dst := c, token := s.fld pgCrier R.crier_CFG_REEVE_TOKEN, count := 1 }] })]).run s := by
  have hclear : (clearInjected n).run ((modCrier fun k => { k with service := k.service ++ [(n, .reeve c)] }).run s) =
      (modCrier fun k => { k with service := k.service ++ [(n, .reeve c)] }).run s := by
    rw [clearInjected_run, if_neg]
    exact Bool.eq_false_iff.1 h
  simp -implicitDefEqProofs only [reeveEnters, enterService, Prog.run_get, Prog.run_all_cons, Prog.run_all_nil, hclear]

/-- A source withdrawn leaves service where a reeve serves it. -/
def withdrawn (n : Nat) (s : State) : State :=
  if s.dev.crier.service.any (fun e => e.1 == n && (match e.2 with | .reeve _ => true | _ => false)) then (leaveService n).run s else s

theorem exec_crierSourceWithdraw (n : BitVec 11) (s : State) : exec (.crierSourceWithdraw n) s = .next (
    if isSource n.toNat = true ∧ s.requests.contains n.toNat = false then
      (settleRoute n.toNat).run (withdrawn n.toNat ((clearInjected n.toNat).run s))
    else s) := by
  have hdev : ((clearInjected n.toNat).run s).dev = s.dev := (Prog.keeps (clearInjected_regs n.toNat) s).dev id
  show execCrierSourceWithdraw n s = _
  rw [execCrierSourceWithdraw, Prog.next_eq, Prog.run_get, Prog.run_when, Prog.run_all_cons, Prog.run_all_cons, Prog.run_all_cons,
    Prog.run_all_nil, Prog.run_when, withdrawn, hdev]
  exact congrArg _ (if_congr (by simp) rfl rfl)

theorem withdrawn_service (n : Nat) (s : State) :
    (∀ e ∈ s.dev.crier.service, e.1 ≠ n → e ∈ (withdrawn n s).dev.crier.service) ∧ ∀ c, (n, .reeve c) ∉ (withdrawn n s).dev.crier.service := by
  rw [withdrawn]
  split
  · refine ⟨fun e he hne => List.mem_filter.2 ⟨he, by simpa using hne⟩, fun c hc => ?_⟩
    simpa using (List.mem_filter.1 hc).2
  next h => exact ⟨fun e he _ => he, fun c hc => h (List.any_eq_true.2 ⟨_, hc, by simp⟩)⟩

theorem withdrawn_keeps (n : Nat) (s : State) : Keeps { dev := True } s (withdrawn n s) := by
  rw [withdrawn]
  split
  · exact Prog.keeps (by simp [leaveService]) s
  · exact Prog.keeps (p := .done) trivial s

/-- Settles O49. -/
theorem crierServesItsSources : Obligations.CrierServesItsSources := by
  unfold Obligations.CrierServesItsSources
  have hfollow {s t : State} (h : Follows s t) : Keeps { regs := onPages [pgCrier], dev := True, out := True } s t :=
    h.keeps.mono followTouch_le
  refine ⟨⟨?claims, ?routes, ?words⟩, ?sources⟩
  case claims =>
    intro s v hreach tgt idle owed
    have hexec := exec_crierClaim hreach
    refine ⟨fun n hn => ?_, fun hn ho => ?_, fun hn ho => ?_, fun x => ⟨fun hx => ?_, fun hx => ?_⟩⟩
    · rw [hn] at hexec
      refine ⟨_, hexec, ?_⟩
      obtain ⟨hdev, hcnt, -, -, -⟩ := enterService_run n tgt s
      have henter := (Prog.keeps (enterService_follow (eligible_lt (claimable_mem hn).2) tgt) s).mono followTouch_le
      simp -implicitDefEqProofs only [Prog.run_all_cons, Prog.run_all_nil]
      generalize (enterService n tgt).run s = u at *
      have hquiet := Prog.keeps (settle_hostTarget_quiet v) ((unsignal tgt).run u)
      have hserv := settle_hostTarget_service v ((unsignal tgt).run u)
      have hroutes := (settle_follows (hostTarget v) ((unsignal tgt).run u)).routes
      refine ⟨by simp [emit], hserv.trans ?_, (hquiet.reg_eq id).trans hcnt, hroutes.trans ?_, ?_⟩
      · simp [unsignal, modCrier, modDev, hdev]
      · simp [unsignal, modCrier, modDev, hdev]
      · exact ((henter.trans (Prog.keeps (by simp [unsignal]) _)).trans (hquiet.mono (by constructor <;> simp))).trans (Prog.keeps (by simp) _)
    · rw [hn] at hexec
      refine ⟨_, hexec.trans (congrArg _ (if_pos ho)), ?_, ?_, ?_, Prog.keeps (by simp [unsignal]) s⟩
      · simp -implicitDefEqProofs [unsignal, modCrier, modDev, emit]
      · simp -implicitDefEqProofs [unsignal, modCrier, modDev, emit, idle, tgt]
      · simp -implicitDefEqProofs [unsignal, modCrier, modDev, Counts, emit]
    · rw [hn] at hexec
      refine ⟨_, hexec.trans (congrArg _ (if_neg ho)), ?_, ?_, Prog.keeps (by simp [unsignal]) s⟩
      · simp -implicitDefEqProofs [unsignal, modCrier, modDev, emit]
      · simp -implicitDefEqProofs [unsignal, modCrier, modDev, emit, idle, tgt]
    · refine ⟨_, (exec_crierComplete hreach x).trans (congrArg _ (if_neg hx)), bumpBy_run ..⟩
    · refine ⟨_, (exec_crierComplete hreach x).trans (congrArg _ (if_pos hx)), ?_⟩
      have hf := settlesAfter_follows v (x.toNat % 2 ^ 11) ((leaveService (x.toNat % 2 ^ 11)).run s)
      refine ⟨fun hin => ?_, fun e he hne => hf.stays e (List.mem_filter.2 ⟨he, by simpa using hne⟩),
        (Prog.keeps (by simp [leaveService]) s).trans (hfollow hf)⟩
      rcases hf.enters _ hin with h | ⟨c, h⟩
      · simpa using (List.mem_filter.1 h).2
      · exact hostTarget_ne_reeve v c h
  case routes =>
    intro s who x hreach n w good
    have hexec := exec_routeDataWrite hreach x
    refine ⟨fun hg => ⟨_, hexec.trans (congrArg _ (if_pos hg)), ignored_run ..⟩,
      fun hg => ⟨_, hexec.trans (congrArg _ (if_neg (not_not.2 hg))), ?_⟩⟩
    have hf := settleAll_follows ((modCrier fun k => { k with routes := Sparse.set k.routes n w }).run s)
    refine ⟨?_, fun m hm => ?_, (Prog.keeps (by simp) s).trans (hfollow hf)⟩
    · rw [State.route, hf.routes]
      simp [modCrier, modDev]
    · rw [State.route, hf.routes]
      simp [modCrier, modDev, Sparse.get?_set, hm, State.route]
  case words =>
    intro s who i x hreach mask pend
    have hi := i.isLt
    have hpend : R.crier_PEND.off = 0x200 := rfl
    have hmask : R.crier_MASK.off = 0x100 := rfl
    refine ⟨⟨_, exec_maskWrite hreach i x, ?_⟩, ⟨_, exec_pendWrite hreach i x, ?_⟩⟩
    · have hf := settleAll_follows (s.put pgCrier (R.crier_MASK.off + 4 * i.val) x)
      have hstand (j : Nat) (hj : j < 64) := hf.keeps.reg_eq (p := pgCrier) (o := R.crier_MASK.off + 4 * j) (not_followTouch (by omega))
      refine ⟨(hstand i.val hi).trans (by simp), fun j hj hji => (hstand j hj).trans ?_, ?_⟩
      · rw [State.reg_put_apart (by simp; omega)]
      · exact (Prog.keeps (p := setReg pgCrier (R.crier_MASK.off + 4 * i.val) x) (by simp; omega) s).trans (hfollow hf)
    · have hf := settleAll_follows (s.put pgCrier (R.crier_PEND.off + 4 * i.val) (BitVec.ofNat 32 (s.pendKept i.val x)))
      have hword : (s.put pgCrier (R.crier_PEND.off + 4 * i.val) (BitVec.ofNat 32 (s.pendKept i.val x))).pendWord i.val =
        BitVec.ofNat 32 (s.pendKept i.val x) := by simp [State.pendWord]
      refine ⟨fun j hj hbit => ?_, fun hen j hj => ?_, ?_⟩
      · have := hf.falls i.val j hbit
        rw [hword, pendKept_bit s i.val x hj] at this
        simpa using this
      · have := (hf.idle (by rwa [State.enabled_put_apart (by simp; omega) (by simp; omega)])).2 i.val
        rw [hword] at this
        exact (congrArg (·.getLsbD j) this).trans (pendKept_bit s i.val x hj)
      · exact (Prog.keeps (p := setReg pgCrier (R.crier_PEND.off + 4 * i.val) _) (by simp; omega) s).trans (hfollow hf)
  case sources =>
    intro s n begins
    have hvector {v : Nat} (h : begins) (hr : routeTarget (s.route n.toNat) = some (.vector v)) (hcl : (s.claimable (.vector v)).isSome = true)
        (has : (s.vec v).asserted = false) : exec (.crierSourceRequest n) s =
          .next ((sendMsix v).run ((modVec v fun e => { e with asserted := true }).run s)) := by
      rw [exec_crierSourceRequest n h.1, clearInjected_run, if_neg (by simp [h.2])]
      simp -implicitDefEqProofs only [settleRoute, Prog.run_get, hr, settle, settleVector, hcl, has, Prog.run_ite, Prog.run_all_cons, Prog.run_all_nil]
      rfl
    have hbegins (h : begins) : (clearInjected n.toNat).run s = s := by rw [clearInjected_run, if_neg (by simp [h.2])]
    refine ⟨fun h => ?_, fun h hr => ?_, fun c h hen hr hel => ?_, fun v h hr hcl has => ⟨fun hm ha => ?_, fun hm => ?_⟩, fun h => ?_, fun hs h => ?_⟩
    · show execCrierSourceRequest n s = _
      rw [execCrierSourceRequest, Prog.next_eq, Prog.run_get, h, Prog.run_when_false]
    · rw [exec_crierSourceRequest n h.1, hbegins h]
      simp only [settleRoute, Prog.run_get, hr, Prog.run_done]
    · have hmem : n.toNat ∈ s.eligible (.reeve c) := by rw [hel]; exact List.mem_singleton_self _
      have hout : s.inService n.toNat = false := by simpa using (Bool.and_eq_true_iff.1 (List.mem_filter.1 hmem).2).2
      obtain ⟨hdev, -, hclaim, hsig⟩ := reeveEnters_run c n.toNat s
      refine ⟨_, (exec_crierSourceRequest n h.1).trans (congrArg _ ?_), hdev, hclaim, hsig, ?_⟩
      · rw [hbegins h]
        simp only [settleRoute, Prog.run_get, hr, settle]
        rw [serveReeve_run, if_neg (by simp [hen]), hel, Prog.run_each_cons, Prog.run_each_nil, reeveClaims_run, if_neg (by simp [hout]),
          if_neg (by rw [h.1]; decide)]
      · rw [reeveEnters_run_clear h.2]
        exact Prog.keeps (by simp) s
    · have hfunc : s.dev.host.funcMask = false := by
        simp only [HostPort.allows, Bool.and_eq_true, Bool.not_eq_true'] at ha
        exact ha.2
      have hopen : ((((modVec v fun e => { e with asserted := true }).run s).vec v).masked ||
          ((modVec v fun e => { e with asserted := true }).run s).dev.host.funcMask) = false := by
        simp [hm, (modVec_gate v _ s).2.2, hfunc]
      have hallows := (modVec_gate v (fun e => { e with asserted := true }) s).allows.trans ha
      refine ⟨_, hvector h hr hcl has, ?_⟩
      rw [sendMsix_run, hopen, if_neg (by decide), hallows, Prog.run_when_true]
      refine ⟨?_, ?_, ?_, (Prog.keeps (by simp) s).trans (Prog.keeps (by simp) _)⟩
      · simp [emit, vec_out]
      · simp [emit, modVec, modHost, modDev, setSignalled, modCrier, State.vec]
      · simp only [Prog.run_all_cons, Prog.run_all_nil]
        exact setSignalled_mem ..
    · have hclosed : ((((modVec v fun e => { e with asserted := true }).run s).vec v).masked ||
          ((modVec v fun e => { e with asserted := true }).run s).dev.host.funcMask) = true := by simp [hm]
      refine ⟨_, hvector h hr hcl has, ?_⟩
      rw [sendMsix_run, hclosed, if_pos rfl]
      exact ⟨by simp, (Prog.keeps (by simp) s).trans (Prog.keeps (by simp) _)⟩
    · rw [exec_crierSourceWithdraw, if_neg]
      rintro ⟨hs, hr⟩
      exact h.elim (fun h => absurd (h.symm.trans hs) (by decide)) fun h => absurd (h.symm.trans hr) (by decide)
    · refine ⟨_, (exec_crierSourceWithdraw n s).trans (congrArg _ (if_pos ⟨hs, h⟩)), ?_⟩
      have hn : n.toNat < 2047 := by simp [isSource] at hs; omega
      have hf := settleRoute_follows n.toNat (withdrawn n.toNat ((clearInjected n.toNat).run s))
      have hkeep := withdrawn_keeps n.toNat ((clearInjected n.toNat).run s)
      have hdev : ((clearInjected n.toNat).run s).dev = s.dev := (Prog.keeps (clearInjected_regs n.toNat) s).dev id
      obtain ⟨hstays, hleaves⟩ := withdrawn_service n.toNat ((clearInjected n.toNat).run s)
      rw [hdev] at hstays
      refine ⟨?_, fun e he hne => hf.stays e (hstays e he hne), fun hen c hc => ?_, ?_⟩
      · rw [Bool.eq_false_iff, sourceBit_pend]
        intro hbit
        have := hf.falls _ _ hbit
        rw [State.pendWord, hkeep.reg_eq id] at this
        have hword := clearInjected_pendWord n.toNat s (n.toNat / 32)
        rw [if_pos rfl] at hword
        rw [show ((clearInjected n.toNat).run s).reg pgCrier _ = _ from hword] at this
        simp [Nat.mod_lt] at this
      · rw [(hf.idle ?_).1] at hc
        · exact hleaves c hc
        · have hclear := (Prog.keeps (clearInjected_follow hn) s)
          rw [State.enabled, hkeep.bit_eq id, hkeep.fld_eq id, hclear.bit_eq (not_followTouch (by decide)),
            hclear.fld_eq (not_followTouch (by decide))]
          exact hen
      · exact (((Prog.keeps (clearInjected_follow hn) s).mono followTouch_le).trans (hkeep.mono (by constructor <;> simp))).trans (hfollow hf)

end Sys2Proof.Machine
end

open Host
section
/-! SUPPORT. A frame that keeps some registers of one page, and memory and the crofts. -/
namespace Sys2Proof.Machine

/-- A frame that keeps the registers of page `p` at the places `kept`, memory and the crofts. -/
def keepRegs (p : Page) (kept : Nat → Prop) : Touch :=
  { regs := fun a => ∀ o < 0x1000, kept o → a ≠ p.base + o
    wells := fun _ => True, pumps := fun _ => True, hamlets := fun _ => True, queues := fun _ => True, links := fun _ => True
    dev := True, out := True, seq := True }

section
variable {p q : Page} {kept : Nat → Prop} {o : Nat} (k : Nat)

@[simp] theorem onReg_keepRegs_same : onReg (keepRegs p kept).regs p o ↔ (o < 0x1000 → ¬ kept o) := by
  refine ⟨fun h ho hk => h o ho hk rfl, fun h o' ho' hk e => ?_⟩
  obtain rfl : o = o' := by omega
  exact h ho' hk

@[simp] theorem onReg_keepRegs (ho : o < 0x1000) (h : q.kind ≠ p.kind ∨ q.number ≠ p.number) (hq : q.placed) (hp : p.placed) :
    onReg (keepRegs p kept).regs q o :=
  fun o' ho' _ => apart_ne ((apart_iff q o p o').2 ⟨ho, ho', .inr ⟨h, hq, hp⟩⟩)

@[simp] theorem keepRegs_wells : (keepRegs p kept).wells k := trivial
@[simp] theorem keepRegs_dev : (keepRegs p kept).dev := trivial
@[simp] theorem keepRegs_out : (keepRegs p kept).out := trivial
@[simp] theorem keepRegs_seq : (keepRegs p kept).seq := trivial

theorem Keeps.keepRegs_reg {s t : State} (h : Keeps (keepRegs p kept) s t) (ho : o < 0x1000) (hk : kept o) : t.reg p o = s.reg p o :=
  h.reg_eq fun hn => hn o ho hk rfl

end

/-- What writes no croft and no memory leaves both as they are. -/
theorem Prog.crofts_eq {T : Touch} (hc : ∀ a, ¬ T.crofts a) {p : Prog} (h : p.Only T.allows) (s : State) : (p.run s).crofts = s.crofts := by
  refine Prog.Only.keeps State.crofts (fun a s ha => ?_) h s
  cases a with
  | croft c r => exact absurd ha (hc c)
  | croftErase lo hi =>
    refine List.filter_eq_self.2 fun e _ => ?_
    have := fun h1 h2 => hc _ (ha e.1 h1 h2)
    simpa [imp_iff_or_not, or_comm] using this
  | _ => rfl

/-- What writes no memory leaves it as it is. -/
theorem Prog.mem_eq_of {T : Touch} (hm : ∀ a, ¬ T.mem a) {p : Prog} (h : p.Only T.allows) (s : State) : (p.run s).mem = s.mem := by
  refine Prog.Only.keeps State.mem (fun a s ha => ?_) h s
  cases a with
  | bytes a bs =>
    cases bs with
    | nil => rfl
    | cons b bs => exact absurd (ha a le_rfl (by simp)) (hm a)
  | memErase lo hi =>
    refine List.filter_eq_self.2 fun e _ => ?_
    have := fun h1 h2 => hm _ (ha e.1 h1 h2)
    simpa [imp_iff_or_not, or_comm] using this
  | _ => rfl

/-- A frame of registers and the device's record within a wider one. -/
theorem Keeps.widen {A B : Nat → Prop} {d : Prop} (h : ∀ a, A a → B a) {s t : State} (k : Keeps { regs := A, dev := d } s t) :
    Keeps { regs := B, dev := True } s t :=
  k.mono (by constructor; case regs => exact h
             all_goals simp)

theorem theRegs_mono {p : Page} {fs gs : List Fld} (h : fs ⊆ gs) : ∀ a, theRegs p fs a → theRegs p gs a :=
  fun _ ⟨f, hf, e⟩ => ⟨f, h hf, e⟩

/-! ### One bit of a mask -/

theorem putBit_testBit {f : Fld} (hf : f.lo + f.width ≤ 32) {i : Nat} (hi : i < f.width) (p : Page) (b : Bool) (s : State) {j : Nat} (hj : j < f.width) :
    (((putBit p f i b).run s).fld p f).testBit j = if j = i then b else (s.fld p f).testBit j := by
  have hmask : 2 ^ f.width - 1 - 2 ^ i = 2 ^ f.width - (2 ^ i + 1) := by omega
  have hpow : 2 ^ i < 2 ^ f.width := Nat.pow_lt_pow_right (by decide) hi
  rw [putBit, Prog.run_get, setFld_run_put, State.fld_put_same rfl, Fld.of_insert_fits hf, Nat.testBit_mod_two_pow]
  cases b
  · rw [if_neg (by decide), hmask, Nat.testBit_and, Nat.testBit_two_pow_sub_succ hpow, Nat.testBit_two_pow]
    by_cases hji : j = i
    · simp [hji]
    · simp [hj, hji, Ne.symm hji]
  · rw [if_pos rfl, Nat.testBit_or, Nat.testBit_two_pow]
    by_cases hji : j = i
    · simp [hji, hi]
    · simp [hj, hji, Ne.symm hji]

end Sys2Proof.Machine
end

section
/-! O50: Gauge's sequences (R488, R489). -/
namespace Sys2Proof.Machine

variable {s : State}

theorem seqPending_eq (s : State) (q : Nat) : s.seqPending q = (s.fld pgGauge R.gauge_STATUS_PENDING).testBit q := by
  rw [State.seqPending, Nat.testBit_eq_decide_div_mod_eq, Bool.beq_eq_decide_eq]

theorem seqRunning_eq (s : State) (q : Nat) : s.seqRunning q = (s.fld pgGauge R.gauge_STATUS_RUNNING).testBit q := by
  rw [State.seqRunning, Nat.testBit_eq_decide_div_mod_eq, Bool.beq_eq_decide_eq]

/-! ### Starts -/

/-- The record of a start: it pends, and its trigger is kept. -/
def gaugePends (q : Nat) (trig : Option Nat) : Prog := .all [
  putBit pgGauge R.gauge_STATUS_PENDING q true,
  modGauge (fun g => { g with
    trig := match trig with
      | some ch => Sparse.set g.trig q ch
      | none => Sparse.eraseRange g.trig q (q + 1) })]

theorem gaugeStart_run (q : Nat) (trig : Option Nat) (s : State) : (gaugeStart q trig).run s =
    if s.enabled pgGauge = false ∨ s.seqLen q = 0 then s
    else if s.seqBusy q = true then (bump pgGauge R.gauge_SKIP_CNT).run s
    else (gaugePends q trig).run s := by
  simp -implicitDefEqProofs only [gaugeStart, Prog.run_get, Prog.run_ite, Prog.run_done]
  exact if_congr (by simp) rfl rfl

theorem gaugeStart_starts {q : Nat} (hq : q < 4) (trig : Option Nat) (s : State) : GaugeStarts s ((gaugeStart q trig).run s) q := by
  rw [gaugeStart_run]
  refine ⟨fun h => by rw [if_pos h], fun hen hlen hb => ?_, fun hen hlen hb => ?_⟩
  · rw [if_neg (by simp [hen, hlen]), if_pos hb]
    obtain ⟨hcnt, hkeep⟩ := bumpBy_run pgGauge R.gauge_SKIP_CNT 1 s
    refine ⟨hcnt, fun j _ => ?_⟩
    simp only [seqPending_eq, seqRunning_eq]
    rw [show (bump pgGauge R.gauge_SKIP_CNT).run s = (bumpBy pgGauge R.gauge_SKIP_CNT 1).run s from rfl,
      hkeep.fld_eq (not_theRegs_offset (by decide) _), hkeep.fld_eq (not_theRegs_offset (by decide) _)]
    exact ⟨rfl, rfl⟩
  · rw [if_neg (by simp [hen, hlen]), if_neg (by simp [hb]), gaugePends, Prog.run_all_cons, Prog.run_all_cons, Prog.run_all_nil]
    have hpend (j : Nat) (hj : j < 4) := putBit_testBit (f := R.gauge_STATUS_PENDING) (by decide) (i := q) hq pgGauge true s (j := j) hj
    simp only [seqPending_eq, seqRunning_eq]
    refine ⟨(hpend q hq).trans (by simp), fun j hj hjq => ⟨(hpend j hj).trans (by simp [hjq]), ?_⟩⟩
    simp [modGauge, modDev, putBit]

theorem seqBusy_congr {s t : State} (h : t.regs = s.regs) (q : Nat) : t.seqBusy q = s.seqBusy q := by
  simp only [State.seqBusy, State.seqPending, State.seqRunning, State.fld, State.reg, h]

/-- A start of a sequence that has entries is a matter of STATUS and SKIP_CNT. -/
theorem GaugeStarts.congr {s s' t t' : State} {q : Nat} (h : GaugeStarts s t q) (hs : s'.regs = s.regs)
    (hstatus : t'.reg pgGauge R.gauge_STATUS_PENDING.off = t.reg pgGauge R.gauge_STATUS_PENDING.off)
    (hskip : t'.reg pgGauge R.gauge_SKIP_CNT.off = t.reg pgGauge R.gauge_SKIP_CNT.off)
    (hn : s'.enabled pgGauge = true ∧ s'.seqLen q ≠ 0) : GaugeStarts s' t' q := by
  obtain ⟨-, hbusy, hfree⟩ := h
  have hfld (p : Page) (f : Fld) : s.fld p f = s'.fld p f := by rw [State.fld, State.fld, State.reg, State.reg, hs]
  have hreg (p : Page) (o : Nat) : s.reg p o = s'.reg p o := by rw [State.reg, State.reg, hs]
  have hpend (j : Nat) : t'.seqPending j = t.seqPending j := by rw [State.seqPending, State.fld_eq, hstatus]; rfl
  have hrun (j : Nat) : t'.seqRunning j = t.seqRunning j := by
    rw [State.seqRunning, State.fld_eq, show R.gauge_STATUS_RUNNING.off = R.gauge_STATUS_PENDING.off from rfl, hstatus]; rfl
  simp only [State.seqLen, State.enabled, State.bit, State.seqBusy, State.seqPending, State.seqRunning, Counts, hfld, hreg] at hbusy hfree
  simp only [State.seqPending, State.seqRunning] at hpend hrun
  refine ⟨fun hno => absurd hno (by simp [hn.1, hn.2]), fun hen hlen hb => ?_, fun hen hlen hb => ?_⟩
  · obtain ⟨hcnt, hall⟩ := hbusy hen hlen hb
    refine ⟨hskip.trans hcnt, fun j hj => ?_⟩
    simpa only [State.seqPending, State.seqRunning, hpend, hrun] using hall j hj
  · obtain ⟨hset, hall⟩ := hfree hen hlen hb
    refine ⟨by simpa only [State.seqPending, hpend] using hset, fun j hj hjq => ?_⟩
    simpa only [State.seqPending, State.seqRunning, hpend, hrun] using hall j hj hjq

/-- A start takes STATUS where it pends, and SKIP_CNT where it is dropped. -/
theorem gaugeStart_keeps {q : Nat} (trig : Option Nat) (s : State) :
    (s.seqBusy q = false → Keeps { regs := theRegs pgGauge [R.gauge_STATUS_PENDING], dev := True } s ((gaugeStart q trig).run s)) ∧
    (s.seqBusy q = true → Keeps { regs := theRegs pgGauge [R.gauge_SKIP_CNT] } s ((gaugeStart q trig).run s)) := by
  rw [gaugeStart_run]
  refine ⟨fun hb => ?_, fun hb => ?_⟩
  · split
    · exact Prog.keeps (p := .done) trivial s
    · rw [if_neg (by simp [hb])]
      exact Prog.keeps (by simp [gaugePends, putBit]) s
  · split
    · exact Prog.keeps (p := .done) trivial s
    · exact Prog.keeps (by simp) s

theorem gaugeStart_missed (q : Nat) (trig : Option Nat) (s : State) :
    ((gaugeStart q trig).run s).dev.gauge.missed = s.dev.gauge.missed := by
  rw [gaugeStart_run]
  split
  · rfl
  · split
    · rfl
    · simp [gaugePends, putBit, modGauge, modDev]

/-- The ticks missed are forgotten. -/
theorem forgets (q : Nat) (s : State) :
    Sparse.get? ((modGauge fun g => { g with missed := Sparse.eraseRange g.missed q (q + 1) }).run s).dev.gauge.missed q = none := by
  show Sparse.get? (Sparse.eraseRange s.dev.gauge.missed q (q + 1)) q = none
  rw [Sparse.get?_eraseRange, if_pos (by omega)]

theorem gaugeFault_faults {cause : Nat} (hc : cause < 2 ^ R.FAULT_CAUSE.width) (addr q : Nat) (s : State) :
    Faults s ((gaugeFault cause addr q).run s) pgGauge cause ∧
    ((gaugeFault cause addr q).run s).dev.watchDue = s.dev.watchDue ++ [15] := by
  simp only [gaugeFault, Prog.run_all_cons, Prog.run_all_nil, Prog.run_get]
  have hmark (b : Bool) (f : Gauge → Gauge) : ((Prog.when b (modGauge f)).run s).dev.watchDue = s.dev.watchDue ∧
      ∀ o, ((Prog.when b (modGauge f)).run s).reg pgGauge o = s.reg pgGauge o := by
    cases b
    · exact ⟨rfl, fun _ => rfl⟩
    · exact ⟨rfl, fun _ => rfl⟩
  obtain ⟨hwatch, hreg⟩ := hmark (s.fld pgGauge R.STATE_STATE != stFault) (fun g => { g with faultSeq := some q })
  generalize (Prog.when (s.fld pgGauge R.STATE_STATE != stFault) (modGauge fun g => { g with faultSeq := some q })).run s = u at *
  have hkeep : Keeps { regs := theRegs pgGauge faultRegs } u ((pageFault pgGauge cause addr).run u) := Prog.keeps (by simp [faultRegs]) u
  refine ⟨(pageFault_run_faults pgGauge hc addr u).congr (fun f _ => hreg _) fun _ _ => rfl, ?_⟩
  simp [tellWatch, modDev, hkeep.dev id, hwatch]

theorem gaugeFault_missed (cause addr q : Nat) (s : State) :
    ((gaugeFault cause addr q).run s).dev.gauge.missed = s.dev.gauge.missed ∧
    (s.fld pgGauge R.STATE_STATE ≠ stFault → ((gaugeFault cause addr q).run s).dev.gauge.faultSeq = some q) := by
  have hpage (u : State) : ((pageFault pgGauge cause addr).run u).dev = u.dev :=
    (Prog.keeps (T := { regs := theRegs pgGauge faultRegs }) (by simp [faultRegs]) u).dev id
  simp -implicitDefEqProofs only [gaugeFault, Prog.run_all_cons, Prog.run_all_nil, Prog.run_get, tellWatch, modDev, Prog.run_eff, Act.apply_dev_dev, hpage,
    Prog.run_when]
  split
  · exact ⟨rfl, fun _ => rfl⟩
  next h => exact ⟨rfl, fun hn => absurd (by simpa using hn) h⟩

theorem gaugeFault_allows {T : Touch} (hregs : ∀ f ∈ faultRegs, onReg T.regs pgGauge f.off) (hd : T.dev) (cause addr q : Nat) :
    (gaugeFault cause addr q).Only T.allows := by
  simp only [faultRegs, List.forall_mem_cons] at hregs
  simp [gaugeFault, Prog.only_when, tellWatch, hd, hregs]

/-! ### The timer -/

theorem exec_gaugeSeqTimer (q : Fin 4) (s : State) :
    let n := (Sparse.get? s.dev.gauge.missed q.val).getD 0 + 1
    let forget := modGauge (fun g => { g with missed := Sparse.eraseRange g.missed q.val (q.val + 1) })
    exec (.gaugeSeqTimer q) s = .next (
      if ¬ (s.enabled pgGauge = true ∧ s.seqStart q.val = 1 ∧ s.seqLen q.val ≠ 0) then s
      else if s.seqBusy q.val = false then (Prog.all [forget, gaugeStart q.val none]).run s
      else if n < 4 then (Prog.all [gaugeStart q.val none, modGauge (fun g => { g with missed := Sparse.set g.missed q.val n })]).run s
      else (Prog.all [gaugeStart q.val none, forget, bump pgGauge R.gauge_TIMER_MISS_CNT, gaugeFault 2 0 q.val]).run s) := by
  intro n forget
  show execGaugeSeqTimer q s = _
  rw [execGaugeSeqTimer, Prog.next_eq, Prog.run_get]
  simp -implicitDefEqProofs only [Prog.run_ite, Prog.run_done]
  refine congrArg _ (if_congr ?_ rfl (if_congr (by simp) rfl (if_congr Iff.rfl rfl rfl)))
  simp [imp_iff_not_or, or_assoc]

/-- A write of CMD that names one sequence starts it. -/
theorem exec_gaugeCmd {who : Agent} (h : s.reaches who pgGauge) {v : Word} {q : Fin 4} (hv : v.toNat % 16 = 2 ^ q.val) :
    exec (.gaugeCmd who v) s = .next ((gaugeStart q.val none).run s) := by
  have hone : (List.range 4).filter (fun q => v.toNat / 2 ^ q % 2 == 1) = [q.val] := by
    have hbit (j : Nat) (hj : j < 4) : (v.toNat / 2 ^ j % 2 == 1) = (j == q.val) := by
      have : v.toNat.testBit j = (v.toNat % 2 ^ 4).testBit j := by rw [Nat.testBit_mod_two_pow]; simp [hj]
      rw [Bool.beq_eq_decide_eq, ← Nat.testBit_eq_decide_div_mod_eq, this, show (2 : Nat) ^ 4 = 16 from rfl, hv, Nat.testBit_two_pow]
      simp [Bool.beq_eq_decide_eq, eq_comm]
    rw [List.filter_congr (q := (· == q.val)) fun j hj => hbit j (List.mem_range.1 hj)]
    clear hv hbit
    revert q
    decide
  show execGaugeCmd who v s = _
  rw [execGaugeCmd, Prog.next_eq, regWrite_reaches h, writeGaugeCmd, hone, Prog.run_each_cons, Prog.run_each_nil]

/-! ### Slots -/

/-- What the checks of a slot's results keep of the page: SEQ_STATUS and the results. -/
def slotKept (o : Nat) : Prop := 0x70 ≤ o ∧ o < 0x80 ∨ 0x400 ≤ o ∧ o < 0x600

theorem powerFault_slot (cause rail : Nat) : (powerFault cause rail).Only (keepRegs pgGauge slotKept).allows := by
  simp [powerFault, assertFaultN, tellWatch, Prog.only_when]

theorem gaugeStart_slot (q : Nat) (trig : Option Nat) : (gaugeStart q trig).Only (keepRegs pgGauge slotKept).allows := by
  intro s
  show Prog.Only _ (if _ then _ else if _ then _ else _)
  split
  · trivial
  · split
    all_goals simp [slotKept, putBit]

theorem compActs_slot (w ch : Nat) : (compActs w ch).Only (keepRegs pgGauge slotKept).allows := by
  intro s
  simp only [Prog.only_all_cons, Prog.only_all_nil, and_true, Prog.only_when]
  refine ⟨by simp [slotKept, putBit], by simp [slotKept], fun _ => gaugeStart_slot _ _, ?_⟩
  split
  · split
    · exact powerFault_slot _ _
    · simp only [Prog.only_all_cons, Prog.only_all_nil, and_true]
      exact ⟨(Prog.only_eff _).2 trivial, powerFault_slot _ _⟩
  · simp [thermWarn, Prog.only_when]
  · trivial

theorem comparators_slot (rs : List (Nat × Nat)) : (comparators rs).Only (keepRegs pgGauge slotKept).allows := by
  intro s
  simp only [Prog.only_all_cons, Prog.only_all_nil, and_true]
  refine ⟨by simp [slotKept], ?_, (Prog.only_each ..).2 fun t _ => compActs_slot _ _⟩
  split
  · simp [slotKept]
  · trivial

theorem useCode_slot (ch code : Nat) : (useCode ch code).Only (keepRegs pgGauge slotKept).allows := by
  have htherm (s : State) : Prog.Only (keepRegs pgGauge slotKept).allows (match hottest s.dev.gauge.codes with
      | some (x, k) => .all [setFld pgPower R.power_THERM_HOTTEST (codeTj k), setFld pgPower R.power_THERM_SENSOR x]
      | none => .done) := by
    split
    · simp
    · trivial
  have hseen (g : Nat) : (tempSeen g).Only (keepRegs pgGauge slotKept).allows :=
    tempSeen_allows (T := keepRegs pgGauge slotKept) (g := g) (by simp) (by simp) trivial
  have hrail : Prog.Only (keepRegs pgGauge slotKept).allows (match channelRail ch with
      | some r => modPower (fun p => { p with meas := Sparse.set p.meas r (codeMv ch r code) })
      | none => .done) := by
    split
    · simp
    · trivial
  simp only [useCode, Prog.only_all_cons, Prog.only_all_nil, and_true, Prog.only_when]
  exact ⟨by simp, hrail, fun _ => ⟨(Prog.only_each ..).2 fun c _ => by simp [hseen], htherm⟩⟩

theorem mismatch_slot (q ch a b : Nat) : (mismatch q ch a b).Only (keepRegs pgGauge slotKept).allows := by
  have hfault := gaugeFault_allows (T := keepRegs pgGauge slotKept) (by simp [faultRegs, slotKept]) trivial 1 ch q
  simp [mismatch, Prog.only_when, slotKept, hfault]

/-- The results of a slot as they are written. -/
def slotWrites (k : Nat) (ca cb : Option Nat) (a b : Nat) : Prog := .all [
  setFld pgGauge (R.gauge_RESULT_VALID_A.plus k) ca.toList.length,
  Prog.when ca.isSome (setFld pgGauge (R.gauge_RESULT_CODE_A.plus k) a),
  setFld pgGauge (R.gauge_RESULT_VALID_B.plus k) cb.toList.length,
  Prog.when cb.isSome (setFld pgGauge (R.gauge_RESULT_CODE_B.plus k) b)]

/-- Results are written first; what checks them keeps them. -/
theorem slotResults_run (q i a b : Nat) (s : State) :
    ∃ k : Prog, k.Only (keepRegs pgGauge slotKept).allows ∧ (slotResults q i a b).run s =
      k.run ((slotWrites (0x80 * q + 4 * i) (s.halfChannel q i false) (s.halfChannel q i true) a b).run s) := by
  simp -implicitDefEqProofs only [slotResults, Prog.run_get, Prog.run_all_cons, Prog.run_all_nil, slotWrites]
  refine ⟨.all [_, _, _], ?_, by rw [Prog.run_all_cons, Prog.run_all_cons, Prog.run_all_cons, Prog.run_all_nil]⟩
  simp only [Prog.only_all_cons, Prog.only_all_nil, and_true]
  refine ⟨(Prog.only_each ..).2 fun r _ => useCode_slot _ _, comparators_slot _, ?_⟩
  split
  · exact (Prog.only_when ..).2 fun _ => mismatch_slot _ _ _ _
  · trivial

theorem slotWrites_run (k : Nat) (ca cb : Option Nat) {a b : Nat} (ha : a < 2 ^ 14) (hb : b < 2 ^ 14) (s : State) :
    let t := (slotWrites k ca cb a b).run s
    t.bit pgGauge (R.gauge_RESULT_VALID_A.plus k) = ca.isSome ∧ t.bit pgGauge (R.gauge_RESULT_VALID_B.plus k) = cb.isSome ∧
      (ca.isSome = true → t.fld pgGauge (R.gauge_RESULT_CODE_A.plus k) = a) ∧ (cb.isSome = true → t.fld pgGauge (R.gauge_RESULT_CODE_B.plus k) = b) ∧
      Keeps { regs := fun x => x = pgGauge.base + (0x400 + k) } s t := by
  have ha' : a % 16384 = a := Nat.mod_eq_of_lt ha
  have hb' : b % 16384 = b := Nat.mod_eq_of_lt hb
  refine ⟨?_, ?_, ?_, ?_, Prog.keeps (by simp [slotWrites, Prog.only_when, Fld.plus, onReg]) s⟩
  all_goals
    cases ca <;> cases cb <;> simp -implicitDefEqProofs [slotWrites, Fld.plus, ha', hb']

/-- A sequence goes on to its next entry, or ends its pass. -/
def entryEnds (q i : Nat) (last : Bool) : Prog :=
  if last then passEnds q else setFld pgGauge (R.gauge_SEQ_STATUS_ENTRY.plus (4 * q)) (i + 1)

theorem exec_gaugeSlot_cur {a b : BitVec 14} {fin : Bool} {q i : Nat} (hen : s.enabled pgGauge = true) (hcur : s.dev.gauge.cur = some (q, i)) :
    exec (.gaugeSlot a b fin) s = .next ((gaugeNext (if decide (s.seqLen q ≤ i + 1) = true then none else some q)).run
      ((entryEnds q i (decide (s.seqLen q ≤ i + 1))).run ((if fin then slotResults q i a.toNat b.toNat else gaugeFault 3 0 4).run s))) := by
  show execGaugeSlot a b fin s = _
  simp -implicitDefEqProofs only [execGaugeSlot, Prog.next_eq, Prog.run_get, hen, hcur, Bool.not_true, Bool.false_eq_true, if_false, entryEnds,
    Prog.run_all_cons, Prog.run_all_nil]

/-- The registers of the page that neither the end of an entry nor the next slot takes. -/
def nextKept (o : Nat) : Prop := 0x400 ≤ o

theorem gaugeNext_only {kept : Nat → Prop} (h : ¬ kept 0x44) (h' : ¬ kept 0x8C) (prev : Option Nat) :
    (gaugeNext prev).Only (keepRegs pgGauge kept).allows := by
  intro s
  show Prog.Only _ (match (List.range 4).find? s.seqBusy with | none => _ | some q => _)
  split
  · simp
  · simp [Prog.only_when, putBit, h, h']

theorem passEnds_next {q : Nat} (hq : q < 4) : (passEnds q).Only (keepRegs pgGauge nextKept).allows := by
  intro s
  simp only [Prog.only_all_cons, Prog.only_all_nil, and_true, Prog.only_when]
  simp [nextKept, Fld.plus, putBit]
  omega

theorem entryEnds_next {q : Nat} (hq : q < 4) (i : Nat) (last : Bool) : (entryEnds q i last).Only (keepRegs pgGauge nextKept).allows := by
  cases last
  · simp [entryEnds, nextKept, Fld.plus]
    omega
  · exact passEnds_next hq

/-- Whether the end of a pass of sequence `q` ends the page's fault. -/
def State.passMends (s : State) (q : Nat) : Bool :=
  s.fld pgGauge R.STATE_STATE == stFault && s.dev.gauge.faultSeq == some q &&
    (s.fld pgGauge R.FAULT_CAUSE == 2 || (s.fld pgGauge R.FAULT_CAUSE == 1 && !s.dev.gauge.bad.contains q))

/-- The end of a pass beside its count: the sequence runs no longer. -/
def passStops (q : Nat) (mends : Bool) : Prog := .all [
  putBit pgGauge R.gauge_STATUS_RUNNING q false,
  Prog.when mends (setFld pgGauge R.STATE_STATE stEnabled)]

theorem passStops_keeps (q : Nat) (mends : Bool) (s : State) :
    Keeps { regs := theRegs pgGauge [R.gauge_STATUS_RUNNING, R.STATE_STATE] } s ((passStops q mends).run s) :=
  Prog.keeps (by simp [passStops, putBit, Prog.only_when]) s

theorem passEnds_run (q : Nat) (s : State) : ∃ f : Gauge → Gauge, (passEnds q).run s = (modGauge f).run ((passStops q (s.passMends q)).run
    ((setFld pgGauge (R.gauge_SEQ_STATUS_ENTRY.plus (4 * q)) 0).run ((setFld pgGauge (R.gauge_SEQ_STATUS_PASS.plus (4 * q))
      (s.fld pgGauge (R.gauge_SEQ_STATUS_PASS.plus (4 * q)) + 1)).run s))) :=
  ⟨fun g => { g with
      bad := g.bad.filter (· != q), trig := Sparse.eraseRange g.trig q (q + 1)
      faultSeq := if s.passMends q then none else g.faultSeq },
    by simp -implicitDefEqProofs only [passEnds, passStops, State.passMends, Prog.run_get, Prog.run_all_cons, Prog.run_all_nil]
       rfl⟩

/-- The place of a sequence after an entry, and its passes. -/
theorem entryEnds_moves {q : Nat} (hq : q < 4) (i : Nat) (last : Bool) (s : State) :
    let t := (entryEnds q i last).run s
    let entry := fun t : State => t.fld pgGauge (R.gauge_SEQ_STATUS_ENTRY.plus (4 * q))
    let pass := fun t : State => t.fld pgGauge (R.gauge_SEQ_STATUS_PASS.plus (4 * q))
    (last = true → pass t = (pass s + 1) % 2 ^ 16 ∧ entry t = 0) ∧ (last = false → entry t = (i + 1) % 32) := by
  refine ⟨fun h => ?_, fun h => ?_⟩
  · subst h
    obtain ⟨f, hrun⟩ := passEnds_run q s
    rw [show (entryEnds q i true).run s = _ from hrun]
    have hreg (u : State) : ((modGauge f).run ((passStops q (s.passMends q)).run u)).reg pgGauge (0x70 + 4 * q) = u.reg pgGauge (0x70 + 4 * q) :=
      (passStops_keeps q (s.passMends q) u).reg_eq (not_theRegs_offset (by simp; omega) _)
    simp -implicitDefEqProofs only [State.fld_eq, Fld.plus, hreg]
    simp -implicitDefEqProofs
  · subst h
    simp -implicitDefEqProofs [entryEnds, Fld.plus]

/-- A pass that ends no fault leaves the head of the page. -/
theorem entryEnds_low (q i : Nat) (last : Bool) (hm : s.passMends q = false) {o : Nat} (ho : o < 0x40) :
    ((entryEnds q i last).run s).reg pgGauge o = s.reg pgGauge o := by
  cases last
  · exact (Prog.keeps (T := keepRegs pgGauge (· < 0x40)) (by simp [entryEnds, Fld.plus]; omega) s).keepRegs_reg (by omega) ho
  · obtain ⟨f, hrun⟩ := passEnds_run q s
    have hset (v w : Nat) : Keeps (keepRegs pgGauge (· < 0x40)) s ((passStops q false).run
        ((setFld pgGauge (R.gauge_SEQ_STATUS_ENTRY.plus (4 * q)) v).run ((setFld pgGauge (R.gauge_SEQ_STATUS_PASS.plus (4 * q)) w).run s))) :=
      ((Prog.keeps (by simp [Fld.plus]; omega) s).trans (Prog.keeps (by simp [Fld.plus]; omega) _)).trans (Prog.keeps (by simp [passStops, putBit, Prog.only_when]) _)
    rw [hm] at hrun
    have hmod (u : State) : ((modGauge f).run u).reg pgGauge o = u.reg pgGauge o := rfl
    refine (congrArg (·.reg pgGauge o) hrun).trans ((hmod _).trans ?_)
    exact (hset 0 (s.fld pgGauge (R.gauge_SEQ_STATUS_PASS.plus (4 * q)) + 1)).keepRegs_reg (by omega) ho

theorem faultRegs_onPage (p : Page) : ∀ a, theRegs p faultRegs a → onPages [p] a := by
  rintro a ⟨f, hf, rfl⟩
  have hoff : f.off < 0x1000 := by revert f; decide
  exact ⟨p, List.mem_singleton_self _, by omega, by omega⟩

theorem gaugeNext_page (prev : Option Nat) : (gaugeNext prev).Only (Touch.allows { regs := onPages [pgGauge], dev := True }) := by
  intro s
  show Prog.Only _ (match (List.range 4).find? s.seqBusy with | none => _ | some q => _)
  split
  · simp
  · simp [Prog.only_when, putBit]

theorem entryEnds_page {q : Nat} (hq : q < 4) (i : Nat) (last : Bool) :
    (entryEnds q i last).Only (Touch.allows { regs := onPages [pgGauge], dev := True }) := by
  cases last
  · simp [entryEnds, Fld.plus]
    omega
  · intro s
    simp only [Prog.only_all_cons, Prog.only_all_nil, and_true, Prog.only_when]
    simp [Fld.plus, putBit]
    omega

/-- The slot is given to a sequence: it runs, and pends no more. -/
theorem gaugeNext_gives (prev : Option Nat) {q : Nat} (h : (List.range 4).find? s.seqBusy = some q) :
    let t := (gaugeNext prev).run s
    t.seqRunning q = true ∧ t.seqPending q = false ∧ t.dev.gauge.cur = some (q, s.fld pgGauge (R.gauge_SEQ_STATUS_ENTRY.plus (4 * q))) := by
  have hq : q < 4 := List.mem_range.1 (List.mem_of_find?_eq_some h)
  have hrun : (gaugeNext prev).run s = (modGauge fun g => { g with cur := some (q, s.fld pgGauge (R.gauge_SEQ_STATUS_ENTRY.plus (4 * q))) }).run
      ((putBit pgGauge R.gauge_STATUS_RUNNING q true).run ((putBit pgGauge R.gauge_STATUS_PENDING q false).run
        ((Prog.when (prev.isSome && prev != some q) (bump pgGauge R.gauge_PREEMPT_CNT)).run s))) := by
    simp -implicitDefEqProofs only [gaugeNext, Prog.run_get, h, Prog.run_all_cons, Prog.run_all_nil]
  simp only [seqRunning_eq, seqPending_eq, hrun]
  generalize (Prog.when (prev.isSome && prev != some q) (bump pgGauge R.gauge_PREEMPT_CNT)).run s = u
  refine ⟨(putBit_testBit (f := R.gauge_STATUS_RUNNING) (by decide) hq pgGauge true _ hq).trans (if_pos rfl), .trans ?_
    ((putBit_testBit (f := R.gauge_STATUS_PENDING) (by decide) hq pgGauge false u hq).trans (if_pos rfl)), rfl⟩
  generalize (putBit pgGauge R.gauge_STATUS_PENDING q false).run u = w
  simp [putBit, modGauge, modDev]

/-- Settles O50. -/
theorem gaugeRunsItsSequences : Obligations.GaugeRunsItsSequences := by
  unfold Obligations.GaugeRunsItsSequences
  refine ⟨?timer, ?cmd, ?slot⟩
  case timer =>
    intro s q n ticks starts
    have hexec := exec_gaugeSeqTimer q s
    refine ⟨fun h => hexec.trans (congrArg _ (if_pos h)), fun h hb => ⟨_, hexec.trans (congrArg _ ((if_neg (not_not.2 h)).trans (if_pos hb))), ?_⟩,
      fun h hb hn => ⟨_, hexec.trans (congrArg _ ((if_neg (not_not.2 h)).trans ((if_neg (by simp [hb])).trans (if_pos hn)))), ?_⟩,
      fun h hb hn => ⟨_, hexec.trans (congrArg _ ((if_neg (not_not.2 h)).trans ((if_neg (by simp [hb])).trans (if_neg (by omega))))), ?_⟩⟩
    · have hstart := gaugeStart_starts q.isLt none ((modGauge fun g => { g with missed := Sparse.eraseRange g.missed q.val (q.val + 1) }).run s)
      have hkeep := (gaugeStart_keeps none ((modGauge fun g => { g with missed := Sparse.eraseRange g.missed q.val (q.val + 1) }).run s)).1 hb
      rw [Prog.run_all_cons, Prog.run_all_cons, Prog.run_all_nil]
      refine ⟨hstart.congr rfl rfl rfl ⟨h.1, h.2.2⟩, ?_, (Prog.keeps (by simp) s).trans hkeep⟩
      rw [gaugeStart_missed]
      exact forgets q.val s
    · rw [Prog.run_all_cons, Prog.run_all_cons, Prog.run_all_nil]
      refine ⟨(gaugeStart_starts q.isLt none s).congr rfl rfl rfl ⟨h.1, h.2.2⟩, ?_, ?_⟩
      · simp [modGauge, modDev, n]
      · exact (((gaugeStart_keeps none s).2 hb).mono (by constructor <;> simp)).trans (Prog.keeps (by simp) _)
    · simp -implicitDefEqProofs only [Prog.run_all_cons, Prog.run_all_nil]
      have hstart := gaugeStart_starts q.isLt none s
      have hkeep := (gaugeStart_keeps (q := q.val) none s).2 hb
      generalize (gaugeStart q.val none).run s = u at *
      have hforget := forgets q.val u
      have hcount := bumpBy_run pgGauge R.gauge_TIMER_MISS_CNT 1
        ((modGauge fun g => { g with missed := Sparse.eraseRange g.missed q.val (q.val + 1) }).run u)
      have hreg (o : Nat) : ((modGauge fun g => { g with missed := Sparse.eraseRange g.missed q.val (q.val + 1) }).run u).reg pgGauge o =
        u.reg pgGauge o := rfl
      have hwatch : ((modGauge fun g => { g with missed := Sparse.eraseRange g.missed q.val (q.val + 1) }).run u).dev.watchDue =
        s.dev.watchDue := by show u.dev.watchDue = _; rw [hkeep.dev id]
      have htouch : Keeps { regs := theRegs pgGauge ([R.gauge_SKIP_CNT, R.gauge_TIMER_MISS_CNT] ++ faultRegs), dev := True } s
          ((modGauge fun g => { g with missed := Sparse.eraseRange g.missed q.val (q.val + 1) }).run u) :=
        (hkeep.widen (theRegs_mono (by simp))).trans
          (Prog.keeps (by simp) u)
      change Counts _ ((bump pgGauge R.gauge_TIMER_MISS_CNT).run _) _ _ _ ∧ Keeps _ _ ((bump pgGauge R.gauge_TIMER_MISS_CNT).run _) at hcount
      generalize (modGauge fun g => { g with missed := Sparse.eraseRange g.missed q.val (q.val + 1) }).run u = v at *
      obtain ⟨hcnt, hbump⟩ := hcount
      generalize (bump pgGauge R.gauge_TIMER_MISS_CNT).run v = w at *
      obtain ⟨hfaults, hwatch'⟩ := gaugeFault_faults (cause := 2) (by decide) 0 q.val w
      have hfault : Keeps { regs := theRegs pgGauge faultRegs, dev := True } w ((gaugeFault 2 0 q.val).run w) :=
        Prog.keeps (gaugeFault_allows (by simp [faultRegs]) trivial 2 0 q.val) w
      have hmissed := gaugeFault_missed 2 0 q.val w
      generalize (gaugeFault 2 0 q.val).run w = t at *
      have hpage {o : Nat} (ho : o ∉ ([R.gauge_TIMER_MISS_CNT] ++ faultRegs).map Fld.off) : t.reg pgGauge o = u.reg pgGauge o := by
        rw [hfault.reg_eq (not_theRegs_offset (by simp_all) _), hbump.reg_eq (not_theRegs_offset (by simp_all) _), hreg]
      have hskipped {o : Nat} (ho : o ≠ R.gauge_SKIP_CNT.off) (ho' : o ≠ R.gauge_TIMER_MISS_CNT.off) :
          w.reg pgGauge o = s.reg pgGauge o := by
        rw [hbump.reg_eq (not_theRegs_offset (by simpa using ho') _), hreg, hkeep.reg_eq (not_theRegs_offset (by simpa using ho) _)]
      refine ⟨hstart.congr rfl (hpage (by decide)) (hpage (by decide)) ⟨h.1, h.2.2⟩, ?_, ?_, ?_, ?_, ?_⟩
      · rw [hmissed.1, hbump.dev id]
        exact hforget
      · rw [Counts, hfault.reg_eq (not_theRegs_offset (by decide) _), hcnt, hreg, hkeep.reg_eq (not_theRegs_offset (by decide) _)]
      · exact hfaults.congr (fun f hf => hskipped (by revert f; decide) (by revert f; decide)) fun _ _ => rfl
      · rw [hwatch', hbump.dev id, hwatch]
      · exact (htouch.trans (hbump.widen (theRegs_mono (by simp)))).trans
          (hfault.widen (theRegs_mono (List.subset_append_right ..)))
  case cmd =>
    intro s who v q h hv
    refine ⟨_, exec_gaugeCmd h hv, gaugeStart_starts q.isLt none s, ?_⟩
    obtain ⟨hfree, hbusy⟩ := gaugeStart_keeps (q := q.val) none s
    cases hb : s.seqBusy q.val
    · exact (hfree hb).widen (theRegs_mono (by simp))
    · exact (hbusy hb).widen (theRegs_mono (by simp))
  case slot =>
    intro s a b fin gives
    refine ⟨fun hen => ?_, fun hen hcur hnone => ?_, fun q hen hcur hq => ⟨_, ?_, gaugeNext_gives none hq, ?_⟩, fun q i hen hcur hq hi => ?_⟩
    · show execGaugeSlot a b fin s = _
      simp -implicitDefEqProofs only [execGaugeSlot, Prog.next_eq, Prog.run_get, hen, Bool.not_false, if_true, Prog.run_done]
    · show execGaugeSlot a b fin s = _
      simp -implicitDefEqProofs only [execGaugeSlot, Prog.next_eq, Prog.run_get, hen, hcur, Bool.not_true, Bool.false_eq_true, if_false, gaugeNext, hnone]
      have hsame : { s.dev.gauge with cur := none } = s.dev.gauge := by rw [← hcur]
      show Host.Outcome.next { s with dev := { s.dev with gauge := { s.dev.gauge with cur := none } } } = _
      rw [hsame]
    · show execGaugeSlot a b fin s = _
      simp -implicitDefEqProofs only [execGaugeSlot, Prog.next_eq, Prog.run_get, hen, hcur, Bool.not_true, Bool.false_eq_true, if_false]
    · refine Prog.keeps (fun u => ?_) s
      show Prog.Only _ (match (List.range 4).find? u.seqBusy with | none => _ | some q => _)
      split
      · simp
      · simp [putBit, Prog.only_when]
    · have hexec := exec_gaugeSlot_cur (a := a) (b := b) (fin := fin) hen hcur
      intro k entry pass moves
      have hends (u : State) (hseq : u.reg pgGauge (0x70 + 4 * q) = s.reg pgGauge (0x70 + 4 * q)) (prev : Option Nat) :
          moves ((gaugeNext prev).run ((entryEnds q i (decide (s.seqLen q ≤ i + 1))).run u)) := by
        have hnext := Prog.keeps (gaugeNext_only (kept := fun o => o ≠ 0x44 ∧ o ≠ 0x8C) (by simp) (by simp) prev)
          ((entryEnds q i (decide (s.seqLen q ≤ i + 1))).run u)
        have hentry := hnext.keepRegs_reg (o := 0x70 + 4 * q) (by omega) ⟨by omega, by omega⟩
        obtain ⟨hlast, hmore⟩ := entryEnds_moves hq i (decide (s.seqLen q ≤ i + 1)) u
        simp only [State.fld_eq, Fld.plus, hseq] at hlast hmore
        simp only [moves, pass, entry, State.fld_eq, Fld.plus, hentry]
        exact ⟨fun hl => hlast (by simpa using hl), fun hl => hmore (by simpa using hl)⟩
      have hlater (u : State) (prev : Option Nat) : Keeps (keepRegs pgGauge nextKept) u
          ((gaugeNext prev).run ((entryEnds q i (decide (s.seqLen q ≤ i + 1))).run u)) :=
        (Prog.keeps (entryEnds_next hq i _) u).trans (Prog.keeps (gaugeNext_only (by simp [nextKept]) (by simp [nextKept]) prev) _)
      refine ⟨fun hfin => ?_, fun hfin hs => ?_⟩
      · subst hfin
        obtain ⟨check, hcheck, hrun⟩ := slotResults_run q i a.toNat b.toNat s
        have hresults := slotWrites_run k (s.halfChannel q i false) (s.halfChannel q i true) a.isLt b.isLt s
        refine ⟨_, hexec, ?_⟩
        rw [if_pos rfl, hrun]
        obtain ⟨hva, hvb, hca, hcb, hwrites⟩ := hresults
        have hk : k < 0x200 := by omega
        have hwrite : (slotWrites k (s.halfChannel q i false) (s.halfChannel q i true) a.toNat b.toNat).Only
            (keepRegs pgGauge (fun o => o < 0x400)).allows := by simp [slotWrites, Prog.only_when, Fld.plus]
        have hcrofts (u : State) (prev : Option Nat) : ((gaugeNext prev).run ((entryEnds q i (decide (s.seqLen q ≤ i + 1))).run u)).mem = u.mem ∧
            ((gaugeNext prev).run ((entryEnds q i (decide (s.seqLen q ≤ i + 1))).run u)).crofts = u.crofts := by
          rw [Prog.mem_eq_of (fun _ => id) (gaugeNext_only (kept := nextKept) (by simp [nextKept]) (by simp [nextKept]) prev),
            Prog.mem_eq_of (fun _ => id) (entryEnds_next hq i _),
            Prog.crofts_eq (fun _ => id) (gaugeNext_only (kept := nextKept) (by simp [nextKept]) (by simp [nextKept]) prev),
            Prog.crofts_eq (fun _ => id) (entryEnds_next hq i _)]
          exact ⟨rfl, rfl⟩
        have hcheckKeeps := Prog.keeps hcheck ((slotWrites k (s.halfChannel q i false) (s.halfChannel q i true) a.toNat b.toNat).run s)
        have hcheckMem := Prog.mem_eq_of (fun _ => id) hcheck ((slotWrites k (s.halfChannel q i false) (s.halfChannel q i true) a.toNat b.toNat).run s)
        have hcheckCrofts := Prog.crofts_eq (fun _ => id) hcheck ((slotWrites k (s.halfChannel q i false) (s.halfChannel q i true) a.toNat b.toNat).run s)
        have hwriteMem := Prog.mem_eq_of (fun _ => id) hwrite s
        have hwriteCrofts := Prog.crofts_eq (fun _ => id) hwrite s
        generalize (slotWrites k (s.halfChannel q i false) (s.halfChannel q i true) a.toNat b.toNat).run s = v at *
        have hresult (prev : Option Nat) : ((gaugeNext prev).run ((entryEnds q i (decide (s.seqLen q ≤ i + 1))).run (check.run v))).reg pgGauge (0x400 + k) =
            v.reg pgGauge (0x400 + k) :=
          ((hlater (check.run v) prev).keepRegs_reg (by omega) (by simp [nextKept])).trans
            (hcheckKeeps.keepRegs_reg (by omega) (.inr ⟨by omega, by omega⟩))
        have hseq : (check.run v).reg pgGauge (0x70 + 4 * q) = s.reg pgGauge (0x70 + 4 * q) :=
          (hcheckKeeps.keepRegs_reg (by omega) (.inl ⟨by omega, by omega⟩)).trans (hwrites.reg_eq (by omega))
        refine ⟨hends _ hseq _, ?_, ?_, fun ha => ?_, fun hb => ?_, ?_, ?_⟩
        · simpa only [State.bit, State.fld_eq, Fld.plus, hresult] using hva
        · simpa only [State.bit, State.fld_eq, Fld.plus, hresult] using hvb
        · simpa only [State.fld_eq, Fld.plus, hresult] using hca ha
        · simpa only [State.fld_eq, Fld.plus, hresult] using hcb hb
        · rw [(hcrofts ..).1, hcheckMem, hwriteMem]
        · rw [(hcrofts ..).2, hcheckCrofts, hwriteCrofts]
      · subst hfin
        refine ⟨_, hexec, ?_⟩
        rw [if_neg Bool.false_ne_true]
        obtain ⟨hfaults, -⟩ := gaugeFault_faults (cause := 3) (by decide) 0 4 s
        have hmissed := (gaugeFault_missed 3 0 4 s).2 hs
        have hfault : Keeps { regs := theRegs pgGauge faultRegs, dev := True } s ((gaugeFault 3 0 4).run s) :=
          Prog.keeps (gaugeFault_allows (by simp [faultRegs]) trivial 3 0 4) s
        generalize (gaugeFault 3 0 4).run s = u at *
        have hseq : u.reg pgGauge (0x70 + 4 * q) = s.reg pgGauge (0x70 + 4 * q) :=
          hfault.reg_eq (not_theRegs_offset (by simp [faultRegs]; omega) _)
        refine ⟨hends u hseq _, hfaults.congr (fun _ _ => rfl) fun f hf => ?_, ?_⟩
        · have hmends : u.passMends q = false := by
            simp [State.passMends, hmissed, show ¬ (4 = q) by omega]
          have hlow : f.off < 0x40 := by revert f; decide
          exact (Keeps.keepRegs_reg (Prog.keeps (gaugeNext_only (kept := (· < 0x40)) (by simp) (by simp) _) _) (by omega) hlow).trans
            (entryEnds_low q i _ hmends hlow)
        · exact ((hfault.widen (faultRegs_onPage pgGauge)).trans (Prog.keeps (entryEnds_page hq i _) u)).trans (Prog.keeps (gaugeNext_page _) _)

end Sys2Proof.Machine
end

open Host
section
/-! SUPPORT. Power faults, and the voltages and clocks of a hamlet (R288, R472, R486). -/
namespace Sys2Proof.Machine

variable {s : State}

/-! ### Power faults -/

theorem powerFault_allows {T : Touch} (h : ∀ f ∈ faultRegs, onReg T.regs pgPower f.off) (hd : T.dev) (cause rail : Nat) :
    (powerFault cause rail).Only T.allows := by
  simp only [faultRegs, List.forall_mem_cons] at h
  simp [powerFault, assertFaultN, tellWatch, Prog.only_when, hd, h]

/-- A new fault takes its address. -/
theorem pageFault_addr {p : Page} {cause addr : Nat} (ha : addr < 2 ^ 32) (h : s.fld p R.STATE_STATE ≠ stFault) :
    (((pageFault p cause addr).run s).reg p R.FAULT_ADDR_LO.off).toNat = addr := by
  rw [pageFault_run_new h]
  have := Nat.mod_eq_of_lt ha
  norm_num only at this
  simp -implicitDefEqProofs [faultRecord, this]

theorem powerFault_faults {cause rail : Nat} (hc : cause < 2 ^ R.FAULT_CAUSE.width) (hr : rail < 2 ^ 32) (s : State) :
    PowerFaults s ((powerFault cause rail).run s) cause rail ∧
    ((powerFault cause rail).run s).dev = { s.dev with
      watchDue := s.dev.watchDue ++ [15], faultN := s.dev.faultN || (cause == 2 || cause == 3 || cause == 4) } := by
  have hrun : (powerFault cause rail).run s = (Prog.when (cause == 2 || cause == 3 || cause == 4) assertFaultN).run ((tellWatch 15).run
      ((raiseLine pgPower).run ((pageFault pgPower cause rail).run s))) := by
    rw [powerFault, Prog.run_all_cons, Prog.run_all_cons, Prog.run_all_cons, Prog.run_all_cons, Prog.run_all_nil]
  have hpage : Keeps { regs := theRegs pgPower faultRegs } s ((pageFault pgPower cause rail).run s) := Prog.keeps (by simp [faultRegs]) s
  have hend (b : Bool) (u : State) : ((Prog.when b assertFaultN).run ((tellWatch 15).run u)).dev = { u.dev with
      watchDue := u.dev.watchDue ++ [15], faultN := u.dev.faultN || b } ∧
      ∀ o, ((Prog.when b assertFaultN).run ((tellWatch 15).run u)).reg pgPower o = u.reg pgPower o := by
    cases b
    · exact ⟨by simp [tellWatch, modDev], fun _ => rfl⟩
    · exact ⟨by simp [tellWatch, modDev, assertFaultN], fun _ => rfl⟩
  have hdev : ((raiseLine pgPower).run ((pageFault pgPower cause rail).run s)).dev = s.dev :=
    ((raiseLine_run pgPower _).2.2.dev id).trans (hpage.dev id)
  have hfaults := pageFault_faults pgPower hc rail s
  rw [Prog.run_all_cons, Prog.run_all_cons, Prog.run_all_nil] at hfaults
  rw [hrun, (hend ..).1, hdev]
  refine ⟨⟨hfaults.congr (fun _ _ => rfl) fun f _ => (hend ..).2 f.off, fun hn => ?_⟩, rfl⟩
  rw [(hend ..).2, (raiseLine_run pgPower _).2.2.reg_eq (not_theRegs_offset (by decide) _)]
  exact pageFault_addr hr hn

/-! ### Clocks -/

@[simp] theorem modPower_reg (f : Power → Power) (s : State) (p : Page) (o : Nat) : ((modPower f).run s).reg p o = s.reg p o := rfl

theorem modPower_power (f : Power → Power) (s : State) : ((modPower f).run s).dev.power = f s.dev.power := rfl

@[simp] theorem setVolts_reg (r mv : Nat) (s : State) (p : Page) (o : Nat) : ((setVolts r mv).run s).reg p o = s.reg p o := rfl

@[simp] theorem setVpend_dev (h : Nat) (b : Bool) (s : State) : ((setVpend h b).run s).dev = s.dev := rfl

@[simp] theorem setVpend_run (h : Nat) (b : Bool) (s : State) : (setVpend h b).run s =
    s.put pgPower R.power_STATUS_VPEND.off ((hamletBit R.power_STATUS_VPEND h).insert (s.reg pgPower R.power_STATUS_VPEND.off) (if b then 1 else 0)) := rfl

/-- The bit of a hamlet in a word that takes it. -/
theorem vpend_insert {h : Nat} (hh : h < 8) (b : Bool) (w : Word) (s : State) :
    (s.put pgPower R.power_STATUS_VPEND.off ((hamletBit R.power_STATUS_VPEND h).insert w (if b then 1 else 0))).vpend h = b := by
  rw [State.vpend, State.bit_put_same (by simp [hamletBit]), Fld.of_insert_fits (by simp [hamletBit]; omega)]
  cases b <;> simp [hamletBit]

theorem State.vpend_congr {s t : State} {h : Nat} (ht : t.reg pgPower R.power_STATUS_VPEND.off = s.reg pgPower R.power_STATUS_VPEND.off) :
    t.vpend h = s.vpend h := by
  simp only [State.vpend, State.bit, State.fld, hamletBit, ht]

theorem State.relockTo_append_self {s t : State} {w : ClkWrite} (ht : t.dev.power.relock = s.dev.power.relock ++ [w])
    (hs : s.relockTo w.croft = none) : t.relockTo w.croft = some w.mult := by
  have hnone : s.dev.power.relock.find? (fun x => x.croft == w.croft) = none := by simpa [State.relockTo] using hs
  simp [State.relockTo, ht, List.find?_append, hnone]

theorem State.relockTo_filter {s t : State} {c : Nat} (ht : t.dev.power.relock = s.dev.power.relock.filter (fun w => w.croft != c)) :
    t.relockTo c = none := by
  simp [State.relockTo, ht, List.find?_eq_none]

theorem State.volts_congr {s t : State} (ht : t.dev.power.volts = s.dev.power.volts) (r : Nat) : t.volts r = s.volts r := by
  rw [State.volts, State.volts, ht]

theorem setVolts_volts (r mv : Nat) (s : State) : ((setVolts r mv).run s).volts r = mv := by
  rw [State.volts, setVolts, modPower_power, Sparse.get?_set, if_pos rfl, Option.getD_some]

@[simp] theorem setVolts_allows {T : Touch} (r mv : Nat) : (setVolts r mv).Only T.allows ↔ T.dev := modPower_allows _

/-- No write waits for a clock of the hamlet. -/
theorem clkAdvance_run_none {h : Nat} (hq : ∀ w ∈ s.dev.power.clkQ, w.croft / 16 ≠ h) (fuel : Nat) : (clkAdvance h fuel).run s = s := by
  cases fuel with
  | zero => rfl
  | succ fuel =>
    have hnone : s.dev.power.clkQ.find? (fun w => w.croft / 16 == h) = none := List.find?_eq_none.2 fun w hw => by simpa using hq w hw
    simp -implicitDefEqProofs only [clkAdvance, Prog.run_get, hnone, Prog.run_done]

theorem clkGo_run_none {h : Nat} (hq : ∀ w ∈ s.dev.power.clkQ, w.croft / 16 ≠ h) : (clkGo h).run s = s := by
  rw [clkGo, Prog.run_get, clkAdvance_run_none hq]

/-- The first write that waits on a hamlet, where nothing else of it is in progress. -/
theorem clkAdvance_run_some {h : Nat} {w : ClkWrite} (hw : s.dev.power.clkQ.find? (fun w => w.croft / 16 == h) = some w) (fuel : Nat) :
    (clkAdvance h (fuel + 1)).run s =
      if s.vpend h = true ∨ (s.relockTo w.croft).isSome = true then s
      else if w.mult = s.fld (pgCroft w.croft) R.croft_CLK_CUR then
        (clkAdvance h fuel).run ((modPower fun p => { p with clkQ := p.clkQ.erase w }).run s)
      else if s.volts h < vfOf h (max (s.topMult h) w.mult) then
        (setVpend h true).run ((setVolts h (vfOf h (max (s.topMult h) w.mult))).run s)
      else (clkAdvance h fuel).run ((relock w.croft w.mult).run ((modPower fun p => { p with clkQ := p.clkQ.erase w }).run s)) := by
  simp -implicitDefEqProofs only [clkAdvance, Prog.run_get, hw, Prog.run_ite, Prog.run_done, Prog.run_all_cons, Prog.run_all_nil]
  exact if_congr (by simp) rfl rfl

end Sys2Proof.Machine
end

section
/-! O51: clocks, voltages and the cap governor (R288, R471, R472, R478). -/
namespace Sys2Proof.Machine

variable {s : State}

theorem topMult_congr {s t : State} {h : Nat} (hcur : ∀ c, t.fld (pgCroft c) R.croft_CLK_CUR = s.fld (pgCroft c) R.croft_CLK_CUR)
    (hrelock : t.dev.power.relock = s.dev.power.relock) : t.topMult h = s.topMult h := by
  simp only [State.topMult, State.relockTo, hcur, hrelock]

/-- A write of CLK that is taken waits in its turn. -/
def clkWaits (c m : Nat) : Prog := .all [setFld (pgCroft c) R.croft_CLK_MULT m, modPower (fun p => { p with clkQ := p.clkQ ++ [⟨c, m⟩] })]

theorem clkWaits_dev (c m : Nat) (s : State) : ((clkWaits c m).run s).dev =
    { s.dev with power := { s.dev.power with clkQ := s.dev.power.clkQ ++ [⟨c, m⟩] } } := by
  simp [clkWaits, modPower, modDev]

theorem clkWaits_cur (c m : Nat) (s : State) (k : Nat) :
    ((clkWaits c m).run s).fld (pgCroft k) R.croft_CLK_CUR = s.fld (pgCroft k) R.croft_CLK_CUR := by
  by_cases hk : k = c
  · subst hk
    simp [clkWaits, modPower, modDev]
  · simp [clkWaits, modPower, modDev, Ne.symm hk]

theorem clkWaits_topMult (c m h : Nat) (s : State) : ((clkWaits c m).run s).topMult h = s.topMult h :=
  topMult_congr (clkWaits_cur c m s) (by rw [clkWaits_dev])

theorem exec_clkMultWrite {c : CroftId} {v : Word} (h : s.reaches .host (pgCroft c.val)) : exec (.clkMultWrite c v) s = .next (
    if ¬ (32 ≤ v.toNat % 128 ∧ v.toNat % 128 ≤ 72) then (ignored (pgCroft c.val)).run s
    else (clkGo (c.val / 16)).run ((clkWaits c.val (v.toNat % 128)).run s)) := by
  show execClkMultWrite c v s = _
  rw [execClkMultWrite, Prog.next_eq, regWrite_reaches h, writeClk, Prog.run_ite]
  refine congrArg _ (if_congr (by omega) rfl ?_)
  rw [clkWaits, Prog.run_all_cons, Prog.run_all_cons, Prog.run_all_cons, Prog.run_all_nil, Prog.run_all_cons, Prog.run_all_cons, Prog.run_all_nil]

/-- The write waits alone on its hamlet. -/
theorem clkWaits_find {c m : Nat} (hq : ∀ w ∈ s.dev.power.clkQ, w.croft / 16 ≠ c / 16) :
    ((clkWaits c m).run s).dev.power.clkQ.find? (fun w => w.croft / 16 == c / 16) = some ⟨c, m⟩ := by
  have hnone : s.dev.power.clkQ.find? (fun w => w.croft / 16 == c / 16) = none := List.find?_eq_none.2 fun w hw => by simpa using hq w hw
  simp only [clkWaits_dev, List.find?_append, hnone, Option.none_or]
  simp

/-- The frame of a write of CLK. -/
def clkTouch (c : Nat) : Touch := { regs := someRegs [(pgCroft c, [R.croft_CLK_MULT]), (pgPower, [R.power_STATUS_VPEND])], dev := True }

theorem clkWaits_keeps (c m : Nat) (s : State) : Keeps (clkTouch c) s ((clkWaits c m).run s) := Prog.keeps (by simp [clkWaits, clkTouch]) s

theorem clkWaits_vpend (c m h : Nat) (s : State) : ((clkWaits c m).run s).vpend h = s.vpend h := by
  exact State.vpend_congr (by simp [clkWaits])

/-- A single write that waits: the clock is the same, or needs more voltage, or relocks. -/
theorem clkGo_waits {c m : Nat} (hq : ∀ w ∈ s.dev.power.clkQ, w.croft / 16 ≠ c / 16) (hp : s.vpend (c / 16) = false)
    (hr : s.relockTo c = none) :
    let u := (clkWaits c m).run s
    let popped := { u with dev := s.dev }
    let need := vfOf (c / 16) (max (s.topMult (c / 16)) m)
    (clkGo (c / 16)).run u =
      if m = s.fld (pgCroft c) R.croft_CLK_CUR then popped
      else if s.volts (c / 16) < need then (setVpend (c / 16) true).run ((setVolts (c / 16) need).run u)
      else (relock c m).run popped := by
  intro u popped need
  have hpop : (modPower fun p => { p with clkQ := p.clkQ.erase ⟨c, m⟩ }).run u = popped := by
    have hout : (⟨c, m⟩ : ClkWrite) ∉ s.dev.power.clkQ := fun hw => hq _ hw rfl
    show { u with dev := { u.dev with power := { u.dev.power with clkQ := u.dev.power.clkQ.erase ⟨c, m⟩ } } } = popped
    rw [clkWaits_dev]
    simp [List.erase_append_right _ hout, popped]
  have hvpend : u.vpend (c / 16) = false := (clkWaits_vpend ..).trans hp
  have hnone (t : State) (ht : t.dev.power.clkQ = s.dev.power.clkQ) (fuel : Nat) : (clkAdvance (c / 16) fuel).run t = t :=
    clkAdvance_run_none (by rw [ht]; exact hq) fuel
  rw [clkGo, Prog.run_get, clkAdvance_run_some (clkWaits_find hq), hpop, if_neg, clkWaits_cur, clkWaits_topMult]
  · refine if_congr Iff.rfl (hnone popped rfl _) (if_congr ?_ rfl (hnone ((relock c m).run popped) ?_ _))
    · simp [State.volts, clkWaits_dev, need]
    · simp [relock, modPower, modDev, popped]
  · rw [hvpend, State.relockTo, clkWaits_dev]
    simpa [State.relockTo] using hr

/-- Neither MULT nor CUR of a clock changes while the write is served. -/
theorem clkWaits_mult {c m : Nat} (hm : m < 128) {t : State} (ht : t.reg (pgCroft c) R.croft_CLK_MULT.off =
    ((clkWaits c m).run s).reg (pgCroft c) R.croft_CLK_MULT.off) :
    t.fld (pgCroft c) R.croft_CLK_MULT = m ∧ t.fld (pgCroft c) R.croft_CLK_CUR = s.fld (pgCroft c) R.croft_CLK_CUR := by
  refine ⟨?_, ?_⟩
  · rw [State.fld_eq, ht]
    simp [clkWaits, Nat.mod_eq_of_lt hm]
  · rw [State.fld_eq, show R.croft_CLK_CUR.off = R.croft_CLK_MULT.off from rfl, ht]
    simp [clkWaits]

theorem relock_power (c m : Nat) (s : State) : ((relock c m).run s).dev.power =
    { s.dev.power with relock := s.dev.power.relock ++ [⟨c, m⟩] } := by
  simp [relock, modPower_power]

theorem relock_fld {f : Fld} (hf : R.croft_CLK_RELOCK.off = f.off) (hlo : f.lo + f.width ≤ R.croft_CLK_RELOCK.lo) (c m : Nat) (s : State) :
    ((relock c m).run s).fld (pgCroft c) f = s.fld (pgCroft c) f := by
  have hreg : ((relock c m).run s).reg (pgCroft c) f.off = (s.put (pgCroft c) R.croft_CLK_RELOCK.off
    (R.croft_CLK_RELOCK.insert (s.reg (pgCroft c) R.croft_CLK_RELOCK.off) 1)).reg (pgCroft c) f.off := rfl
  rw [State.fld_eq, hreg, ← State.fld_eq, State.fld_put_same hf, Fld.of_insert_aside (by decide) (.inr hlo), Fld.of_reg hf]

theorem relock_bit (c m : Nat) (s : State) : ((relock c m).run s).bit (pgCroft c) R.croft_CLK_RELOCK = true := by
  have hbit : ((relock c m).run s).bit (pgCroft c) R.croft_CLK_RELOCK = (s.put (pgCroft c) R.croft_CLK_RELOCK.off
    (R.croft_CLK_RELOCK.insert (s.reg (pgCroft c) R.croft_CLK_RELOCK.off) 1)).bit (pgCroft c) R.croft_CLK_RELOCK := rfl
  rw [hbit]
  simp

/-- A clock has relocked. -/
def relocked (c m : Nat) : Prog := .all [
  setFld (pgCroft c) R.croft_CLK_CUR m,
  setFld (pgCroft c) R.croft_CLK_RELOCK 0,
  modPower (fun p => { p with relock := p.relock.filter (fun w => w.croft != c) })]

theorem relocked_power (c m : Nat) (s : State) : ((relocked c m).run s).dev.power =
    { s.dev.power with relock := s.dev.power.relock.filter (fun w => w.croft != c) } := by
  simp [relocked, modPower_power]

theorem voltsSettle_run (h : Nat) (s : State) : (voltsSettle h).run s =
    if s.vpend h = false ∧ vfOf h (s.topMult h) < s.volts h then (setVolts h (vfOf h (s.topMult h))).run s else s := by
  simp -implicitDefEqProofs only [voltsSettle, Prog.run_get, Prog.run_when]
  exact if_congr (by simp) rfl rfl

theorem voltsSettle_keeps (h : Nat) (s : State) {T : Touch} (hd : T.dev := by trivial) : Keeps T s ((voltsSettle h).run s) :=
  Prog.keeps (by simp [voltsSettle, Prog.only_when, hd]) s

theorem voltsSettle_reg (h : Nat) (s : State) (p : Page) (o : Nat) : ((voltsSettle h).run s).reg p o = s.reg p o := by
  rw [voltsSettle_run]
  split <;> rfl

theorem voltsSettle_clkQ (h : Nat) (s : State) : ((voltsSettle h).run s).dev.power.clkQ = s.dev.power.clkQ := by
  rw [voltsSettle_run]
  split <;> rfl

theorem voltsSettle_relock (h : Nat) (s : State) : ((voltsSettle h).run s).dev.power.relock = s.dev.power.relock := by
  rw [voltsSettle_run]
  split <;> rfl

/-- The hamlet's voltage is the lowest its clocks need, unless a raise waits. -/
theorem voltsSettle_volts (h : Nat) (s : State) : ((voltsSettle h).run s).volts h =
    if s.vpend h = false then min (s.volts h) (vfOf h (((voltsSettle h).run s).topMult h)) else s.volts h := by
  have htop : ((voltsSettle h).run s).topMult h = s.topMult h :=
    topMult_congr (fun c => by rw [State.fld_eq, voltsSettle_reg, State.fld_eq]) (voltsSettle_relock h s)
  rw [htop, voltsSettle_run]
  by_cases hp : s.vpend h = false
  · by_cases hv : vfOf h (s.topMult h) < s.volts h
    · rw [if_pos ⟨hp, hv⟩, if_pos hp, setVolts_volts, Nat.min_eq_right hv.le]
    · rw [if_neg (fun hc => hv hc.2), if_pos hp, Nat.min_eq_left (Nat.le_of_not_lt hv)]
  · rw [if_neg (fun hc => hp hc.1), if_neg hp]

def popClk (w : ClkWrite) : Prog := modPower (fun p => { p with clkQ := p.clkQ.erase w })

theorem PowerFaults.congr {s s' t : State} {cause rail : Nat} (h : PowerFaults s t cause rail)
    (hs : ∀ f ∈ faultRegs, s.reg pgPower f.off = s'.reg pgPower f.off) : PowerFaults s' t cause rail := by
  obtain ⟨hf, ha⟩ := h
  refine ⟨hf.congr hs fun _ _ => rfl, fun hn => ha ?_⟩
  rwa [State.fld_eq, hs _ (by simp [faultRegs]), ← State.fld_eq]

/-- The average of the ticks that are kept (R478): between two whole watts, one of them. -/
def State.capAvg (s : State) (samples : List Nat) : Nat :=
  min 8191 (samples.sum / (1000 * samples.length) + (if samples.sum % (1000 * samples.length) = 0 then 0 else Config.openBit s.seq % 2))

/-- The duty after a tick. -/
def capNext (cap avg duty : Nat) : Nat := if cap < avg then min 32 (duty + 1) else if 100 * avg < 98 * cap then duty - 1 else duty

/-- The ticks in a row the duty has stood at its largest above the cap. -/
def State.capAtMax (s : State) (cap avg duty : Nat) : Nat := if decide (cap < avg) && duty == 32 then s.dev.power.atMax + 1 else 0

/-- What a tick shows. -/
def capShow (samples : List Nat) (atMax avg next : Nat) : Prog := .all [
  eff .seq, modPower (fun p => { p with samples := samples, atMax := atMax }),
  setFld pgPower R.power_POWER_AVG_W avg, setFld pgPower R.power_POWER_DUTY next]

/-- What a tick counts and reports: whether the duty limits now, and whether it fails to hold the cap. -/
def capTail (limits misses : Bool) (next : Nat) : Prog := .all [
  Prog.when limits (bump pgPower R.power_CAP_LIMIT_CNT),
  setBit pgPower R.power_STATUS_CAP_LIMITING (decide (0 < next)),
  Prog.when misses (.all [setFld pgPower R.power_STATUS_CAP_MISS 1, raiseLine pgPower, tellWatchOpen])]

theorem capShow_flds (samples : List Nat) (atMax : Nat) {avg next : Nat} (ha : avg < 8192) (hn : next < 64) (s : State) :
    ((capShow samples atMax avg next).run s).fld pgPower R.power_POWER_AVG_W = avg ∧
    ((capShow samples atMax avg next).run s).fld pgPower R.power_POWER_DUTY = next := by
  simp [capShow, Nat.mod_eq_of_lt ha, Nat.mod_eq_of_lt hn]

theorem capTail_allows {T : Touch} (h : ∀ f ∈ [R.power_CAP_LIMIT_CNT, R.power_STATUS_CAP_LIMITING, R.CRIER_LINE_RAISED], onReg T.regs pgPower f.off)
    (hd : T.dev) (hs : T.seq) (limits misses : Bool) (next : Nat) : (capTail limits misses next).Only T.allows := by
  simp only [List.forall_mem_cons] at h
  simp [capTail, Prog.only_when, h, hd, hs]

theorem capTail_reg (limits misses : Bool) (next : Nat) {o : Nat}
    (ho : o ∉ [R.power_CAP_LIMIT_CNT, R.power_STATUS_CAP_LIMITING, R.CRIER_LINE_RAISED].map Fld.off) (s : State) :
    ((capTail limits misses next).run s).reg pgPower o = s.reg pgPower o :=
  (Prog.keeps (T := { regs := theRegs pgPower [R.power_CAP_LIMIT_CNT, R.power_STATUS_CAP_LIMITING, R.CRIER_LINE_RAISED], dev := True, seq := True })
    (capTail_allows (by simp) trivial trivial ..) s).reg_eq (not_theRegs_offset ho _)

/-- The page's line is raised and Watch told. -/
theorem raised_told (s : State) : ((Prog.all [raiseLine pgPower, tellWatchOpen]).run s).dev.power = s.dev.power ∧
    ((Prog.all [raiseLine pgPower, tellWatchOpen]).run s).reg pgPower R.power_STATUS_CAP_MISS.off = s.reg pgPower R.power_STATUS_CAP_MISS.off := by
  have hline := (raiseLine_run pgPower s).2.2
  have htold (u : State) : (tellWatchOpen.run u).dev.power = u.dev.power ∧ ∀ p o, (tellWatchOpen.run u).reg p o = u.reg p o := ⟨rfl, fun _ _ => rfl⟩
  rw [Prog.run_all_cons, Prog.run_all_cons, Prog.run_all_nil, (htold _).1, (htold _).2, hline.dev id, hline.reg_eq (not_theRegs_offset (by decide) _)]
  exact ⟨rfl, rfl⟩

theorem capTail_power (limits misses : Bool) (next : Nat) (s : State) : ((capTail limits misses next).run s).dev.power = s.dev.power := by
  have htold := raised_told
  simp only [Prog.run_all_cons, Prog.run_all_nil] at htold
  cases limits <;> cases misses <;> simp [capTail, htold]

theorem capTail_limiting (limits misses : Bool) (next : Nat) (s : State) :
    ((capTail limits misses next).run s).bit pgPower R.power_STATUS_CAP_LIMITING = decide (0 < next) := by
  have htold (u : State) : ((Prog.all [raiseLine pgPower, tellWatchOpen]).run u).bit pgPower R.power_STATUS_CAP_LIMITING =
      u.bit pgPower R.power_STATUS_CAP_LIMITING := by
    rw [State.bit, State.fld_eq, (raised_told u).2, ← State.fld_eq, State.bit]
  simp only [Prog.run_all_cons, Prog.run_all_nil] at htold
  by_cases hn : 0 < next <;> cases limits <;> cases misses <;> simp [capTail, htold, hn]

/-- Settles O51: each write, raise, relock and tick by the branch it takes. -/
theorem clocksVoltagesAndTheCap : Obligations.ClocksVoltagesAndTheCap := by
  unfold Obligations.ClocksVoltagesAndTheCap
  refine ⟨⟨?clock, ?relock, ?volts, ?avs⟩, ?cap⟩
  case clock =>
    intro s c v hreach m h need takes quiet cur mult keeps
    have hexec := exec_clkMultWrite (v := v) hreach
    have hm : m < 128 := Nat.mod_lt _ (by decide)
    have hh : h < 8 := by have := c.isLt; omega
    have hgo (ht : takes) : exec (.clkMultWrite c v) s = .next ((clkGo h).run ((clkWaits c.val m).run s)) :=
      hexec.trans (congrArg _ (if_neg (not_not.2 ht)))
    have hwaits (hq : quiet) := clkGo_waits (m := m) hq.1 hq.2.1 hq.2.2
    have hpopped : keeps { (clkWaits c.val m).run s with dev := s.dev } := (clkWaits_keeps c.val m s).trans
      (Prog.keeps (by simp [clkTouch]) _ : Keeps (clkTouch c.val) _ ((modDev fun _ => s.dev).run ((clkWaits c.val m).run s)))
    refine ⟨fun ht => ⟨_, hexec.trans (congrArg _ (if_pos ht)), ignored_run ..⟩, fun ht hq he => ⟨_, hgo ht, ?_⟩, fun ht hq hne hv => ⟨_, hgo ht, ?_⟩,
      fun ht hq hne hv => ⟨_, hgo ht, ?_⟩, fun ht hp => ⟨_, hgo ht, ?_⟩⟩
    · rw [hwaits hq, if_pos he]
      exact ⟨clkWaits_mult hm rfl, rfl, hpopped⟩
    · rw [hwaits hq, if_neg hne, if_pos hv]
      refine ⟨clkWaits_mult hm ?_, ?_, ?_, ?_, ?_, (clkWaits_keeps c.val m s).trans
        ((Prog.keeps (by simp [clkTouch]) _).trans (Prog.keeps (by simp [clkTouch, setVpend, hamletBit]) _))⟩
      · simp
      · exact setVolts_volts ..
      · rw [setVpend_run]
        exact vpend_insert hh true _ _
      · rw [← hq.2.2]
        simp [State.relockTo, setVolts, modPower_power, clkWaits_dev]
      · simp [setVolts, modPower_power, clkWaits_dev]
    · rw [hwaits hq, if_neg hne, if_neg (Nat.not_lt.2 hv)]
      have hmult := clkWaits_mult (s := s) (c := c.val) hm rfl
      refine ⟨⟨(relock_fld (f := R.croft_CLK_MULT) rfl (by decide) ..).trans hmult.1,
        (relock_fld (f := R.croft_CLK_CUR) rfl (by decide) ..).trans hmult.2⟩, ?_, relock_bit .., ?_,
        State.volts_congr ?_ h, hpopped.trans (Prog.keeps (by simp [relock]) _)⟩
      · exact State.relockTo_append_self (w := ⟨c.val, m⟩) (by rw [relock_power]) hq.2.2
      · rw [relock_power]
      · rw [relock_power]
    · have hstay : (clkGo h).run ((clkWaits c.val m).run s) = (clkWaits c.val m).run s := by
        obtain ⟨w, hw⟩ : ∃ w, ((clkWaits c.val m).run s).dev.power.clkQ.find? (fun w => w.croft / 16 == h) = some w := by
          refine Option.isSome_iff_exists.1 (List.find?_isSome.2 ⟨⟨c.val, m⟩, ?_, ?_⟩)
          · rw [clkWaits_dev]; simp
          · simp [h]
        rw [clkGo, Prog.run_get, clkAdvance_run_some hw, if_pos (.inl ((clkWaits_vpend ..).trans hp))]
      rw [hstay]
      exact ⟨clkWaits_mult hm rfl, clkWaits_dev .., clkWaits_keeps ..⟩
  case relock =>
    intro s c h
    have hexec (m : Nat) (hm : s.relockTo c.val = some m) : exec (.relockDone c) s =
        .next ((clkGo h).run ((voltsSettle h).run ((relocked c.val m).run s))) := by
      show execRelockDone c s = _
      simp -implicitDefEqProofs only [execRelockDone, Prog.next_eq, Prog.run_get, hm, relocked, Prog.run_all_cons, Prog.run_all_nil]
      rfl
    refine ⟨fun hn => ?_, fun m hm hq => ⟨_, hexec m hm, ?_⟩⟩
    · show execRelockDone c s = _
      simp -implicitDefEqProofs only [execRelockDone, Prog.next_eq, Prog.run_get, hn, Prog.run_done]
    · have hpower := relocked_power c.val m s
      rw [clkGo_run_none (by rw [voltsSettle_clkQ, hpower]; exact hq)]
      have hkeeps : Keeps { regs := theRegs (pgCroft c.val) [R.croft_CLK_CUR], dev := True } s ((relocked c.val m).run s) :=
        Prog.keeps (by simp [relocked]) s
      have hreg (p : Page) (o : Nat) := voltsSettle_reg h ((relocked c.val m).run s) p o
      refine ⟨?_, ?_, State.relockTo_filter (s := s) (by rw [voltsSettle_relock, hpower]), ?_, hkeeps.trans (voltsSettle_keeps h _)⟩
      · rw [State.fld_eq, hreg]
        simp [relocked]
      · rw [State.bit, State.fld_eq, hreg]
        simp [relocked]
      · have hv : ((relocked c.val m).run s).vpend h = s.vpend h := State.vpend_congr (by simp [relocked])
        rw [voltsSettle_volts, hv, State.volts_congr (s := s) (by rw [hpower])]
  case volts =>
    intro s h
    have hhq : h.val < 8 := h.isLt
    have hmid (w : ClkWrite) (hw : s.raising h.val = some w) : s.vpend h.val = true ∧ w.croft / 16 = h.val := by
      rw [State.raising] at hw
      split at hw
      next hp => exact ⟨hp, by simpa using List.find?_some hw⟩
      next => exact absurd hw (by simp)
    refine ⟨fun w hw hq => ?_, fun hp => ?_⟩
    · obtain ⟨hp, hwh⟩ := hmid w hw
      have hclear : ((setVpend h.val false).run s).vpend h.val = false := by
        rw [setVpend_run]
        exact vpend_insert hhq false _ _
      have hpopKeeps : Keeps { regs := theRegs pgPower [R.power_STATUS_VPEND], dev := True } s ((popClk w).run ((setVpend h.val false).run s)) :=
        (Prog.keeps (by simp [setVpend, hamletBit]) s).trans (Prog.keeps (by simp [popClk]) _)
      obtain ⟨hfaults, hdev⟩ := powerFault_faults (cause := 5) (rail := h.val) (by decide) (by omega) ((popClk w).run ((setVpend h.val false).run s))
      have hq' : ∀ x ∈ ((powerFault 5 h.val).run ((popClk w).run ((setVpend h.val false).run s))).dev.power.clkQ, x.croft / 16 ≠ h.val := by
        rw [hdev]
        exact hq
      have hstay {o : Nat} (ho : o ∉ faultRegs.map Fld.off) : ((powerFault 5 h.val).run ((popClk w).run ((setVpend h.val false).run s))).reg pgPower o =
          ((setVpend h.val false).run s).reg pgPower o :=
        (Prog.keeps (T := { regs := theRegs pgPower faultRegs, dev := True }) (powerFault_allows (by simp [faultRegs]) trivial ..) _).reg_eq
          (not_theRegs_offset ho _)
      refine ⟨⟨(relock w.croft w.mult).run ((popClk w).run ((setVpend h.val false).run s)), ?_, ?_, fun hr => ?_, relock_bit .., ?_, ?_⟩,
        ⟨(powerFault 5 h.val).run ((popClk w).run ((setVpend h.val false).run s)), ?_, ?_, ?_, ?_, ?_, ?_⟩⟩
      · show execVdone h s = _
        simp -implicitDefEqProofs only [execVdone, Prog.next_eq, Prog.run_get, hw, Prog.run_all_cons, Prog.run_all_nil]
        rw [clkGo_run_none (by rw [relock_power]; exact hq)]
        rfl
      · exact (State.vpend_congr (by simp [relock, popClk])).trans hclear
      · exact State.relockTo_append_self (s := s) (by rw [relock_power]; rfl) hr
      · rw [relock_power]
        rfl
      · refine (Prog.keeps ?_ s).trans ((Prog.keeps ?_ _).trans (Prog.keeps ?_ _))
        all_goals simp [setVpend, hamletBit, popClk, relock]
      · show execVdoneTimeout h s = _
        simp -implicitDefEqProofs only [execVdoneTimeout, Prog.next_eq, Prog.run_get, hp, hw, Bool.not_true, Bool.false_eq_true, if_false,
          Prog.run_all_cons, Prog.run_all_nil]
        exact congrArg _ (clkGo_run_none hq')
      · exact (State.vpend_congr (hstay (by decide))).trans hclear
      · exact hfaults.congr fun f hf => hpopKeeps.reg_eq (not_theRegs_offset (by revert f; decide) _)
      · rw [hdev]
        rfl
      · rw [hdev]
        rfl
      · exact (hpopKeeps.widen (theRegs_mono (by simp))).trans (Prog.keeps (powerFault_allows (by simp [faultRegs]) trivial ..) _)
    · show execVdoneTimeout h s = _
      simp -implicitDefEqProofs only [execVdoneTimeout, Prog.next_eq, Prog.run_get, hp, Bool.not_false, if_true, Prog.run_done]
  case avs =>
    intro s rail cmd ok v p n
    have hexec : exec (.avsTransaction rail cmd ok v) s = .next (
        if s.powered = false then s
        else if ok = true then ((match cmd with
          | .readVoltage => modPower (fun p => { p with meas := Sparse.set p.meas rail.val v.toNat })
          | .readCurrent => modPower (fun p => { p with amps := Sparse.set p.amps rail.val v.toNat })
          | _ => .done : Prog)).run ((modPower fun p => { p with avsFails := Sparse.set p.avsFails rail.val 0 }).run s)
        else if n < 2 then (modPower fun p => { p with avsFails := Sparse.set p.avsFails rail.val (n + 1) }).run s
        else (powerFault 1 rail.val).run ((bump pgPower R.power_AVS_ERR_CNT).run
          ((modPower fun p => { p with avsFails := Sparse.set p.avsFails rail.val 0 }).run s))) := by
      show execAvsTransaction rail cmd ok v s = _
      simp -implicitDefEqProofs only [execAvsTransaction, Prog.next_eq, Prog.run_get, Prog.run_ite, Prog.run_done, Prog.run_all_cons, Prog.run_all_nil]
      exact congrArg _ (if_congr (by simp) rfl (if_congr Iff.rfl (by cases cmd <;> rfl) (if_congr Iff.rfl rfl rfl)))
    refine ⟨fun h => hexec.trans (congrArg _ (if_pos h)), fun h hok => ⟨_, hexec.trans (congrArg _ (if_neg (by simp [h]))), ?_⟩,
      fun h hok hn => ⟨_, hexec.trans (congrArg _ (if_neg (by simp [h]))), ?_⟩, fun h hok hn => ⟨_, hexec.trans (congrArg _ (if_neg (by simp [h]))), ?_⟩⟩
    · rw [if_pos hok]
      cases cmd
      all_goals refine ⟨?_, ?_, ?_, (Prog.keeps (by simp) s : Keeps { dev := True } _ _).trans (Prog.keeps (by simp) _)⟩
      all_goals simp [modPower_power, p]
    · rw [if_neg (by simp [hok]), if_pos hn]
      exact ⟨rfl, Prog.keeps (by simp) s⟩
    · rw [if_neg (by simp [hok]), if_neg (by omega)]
      generalize hu : (bump pgPower R.power_AVS_ERR_CNT).run ((modPower fun p => { p with avsFails := Sparse.set p.avsFails rail.val 0 }).run s) = u
      have hkeeps : Keeps { regs := theRegs pgPower [R.power_AVS_ERR_CNT], dev := True } s u := by
        rw [← hu]
        exact (Prog.keeps (by simp) s).trans (Prog.keeps (by simp) _)
      obtain ⟨hfaults, hdev⟩ := powerFault_faults (cause := 1) (rail := rail.val) (by decide) (by have := rail.isLt; omega) u
      have hfault {fs : List Fld} (hfs : faultRegs ⊆ fs) : Keeps { regs := theRegs pgPower fs, dev := True } u ((powerFault 1 rail.val).run u) :=
        Prog.keeps (powerFault_allows (fun f hf => (onReg_theRegs ..).2 (List.any_eq_true.2 ⟨f, hfs hf, by simp⟩)) trivial 1 _) u
      refine ⟨?_, hfaults.congr fun f hf => hkeeps.reg_eq (not_theRegs_offset ?_ _), ?_, (hkeeps.widen (theRegs_mono (by simp))).trans (hfault (List.subset_append_right ..))⟩
      · rw [Counts, (hfault (List.Subset.refl _)).reg_eq (not_theRegs_offset (by decide) _), ← hu]
        simp
      · revert f; decide
      · rw [hdev, ← hu]
        rfl
  case cap =>
    intro s samples mean duty cap
    have hexec : exec .capGovernorTick s = .next (
        if s.powered = false then s
        else if s.bit pgPower R.power_CFG_CAP_EN = false then
          (modPower fun p => { p with samples := [], atMax := 0 }).run
            ((setFld pgPower R.power_STATUS_CAP_LIMITING 0).run ((setFld pgPower R.power_POWER_DUTY 0).run s))
        else (capTail (decide (0 < capNext cap (s.capAvg samples) duty) && !s.bit pgPower R.power_STATUS_CAP_LIMITING)
            (decide (10 ≤ s.capAtMax cap (s.capAvg samples) duty) && !s.bit pgPower R.power_STATUS_CAP_MISS) (capNext cap (s.capAvg samples) duty)).run
          ((capShow samples (s.capAtMax cap (s.capAvg samples) duty) (s.capAvg samples) (capNext cap (s.capAvg samples) duty)).run s)) := by
      show execCapGovernorTick s = _
      simp -implicitDefEqProofs only [execCapGovernorTick, Prog.next_eq, Prog.run_get, Prog.run_ite, Prog.run_done, Prog.run_all_cons, Prog.run_all_nil]
      refine congrArg _ (if_congr (by simp) rfl (if_congr (by simp) rfl ?_))
      simp -implicitDefEqProofs only [capShow, capTail, Prog.run_all_cons, Prog.run_all_nil, State.capAvg, capNext, State.capAtMax, decide_eq_true_eq]
      rfl
    refine ⟨fun h => hexec.trans (congrArg _ (if_pos h)), fun h hen => ⟨_, hexec.trans (congrArg _ ((if_neg (by simp [h])).trans (if_pos hen))), ?_⟩,
      fun h hen => ⟨_, hexec.trans (congrArg _ ((if_neg (by simp [h])).trans (if_neg (by simp [hen])))), ?_⟩⟩
    · refine ⟨?_, ?_, rfl, (Prog.keeps ?_ s).trans ((Prog.keeps ?_ _).trans (Prog.keeps ?_ _))⟩
      · rw [State.fld_eq, modPower_reg]; simp
      · rw [State.bit, State.fld_eq, modPower_reg]; simp
      all_goals simp
    · generalize (decide (0 < capNext cap (s.capAvg samples) duty) && !s.bit pgPower R.power_STATUS_CAP_LIMITING) = limits
      generalize (decide (10 ≤ s.capAtMax cap (s.capAvg samples) duty) && !s.bit pgPower R.power_STATUS_CAP_MISS) = misses
      generalize s.capAtMax cap (s.capAvg samples) duty = atMax
      have havg : s.capAvg samples < 8192 := Nat.lt_of_le_of_lt (Nat.min_le_left ..) (by decide)
      have hduty : duty < 64 := State.fld_lt (by decide) ..
      have hnext : capNext cap (s.capAvg samples) duty < 64 := by
        unfold capNext
        split
        · omega
        · split <;> omega
      have hshow := capShow_flds samples atMax havg hnext s
      have hpower : ((capShow samples atMax (s.capAvg samples) (capNext cap (s.capAvg samples) duty)).run s).dev.power.samples = samples := rfl
      have hkeeps : Keeps
          { regs := theRegs pgPower [R.power_POWER_DUTY, R.power_STATUS_CAP_LIMITING, R.power_CAP_LIMIT_CNT, R.CRIER_LINE_RAISED],
            dev := True, seq := True } s ((capShow samples atMax (s.capAvg samples) (capNext cap (s.capAvg samples) duty)).run s) :=
        Prog.keeps (by simp [capShow, Touch.allows]) s
      generalize (capShow samples atMax (s.capAvg samples) (capNext cap (s.capAvg samples) duty)).run s = u at *
      have hfld {f : Fld} (hf : f.off = R.power_POWER_DUTY.off) :
          ((capTail limits misses (capNext cap (s.capAvg samples) duty)).run u).fld pgPower f = u.fld pgPower f := by
        rw [State.fld_eq, capTail_reg _ _ _ (by rw [hf]; decide), State.fld_eq]
      rw [hfld (f := R.power_POWER_AVG_W) rfl, hfld (f := R.power_POWER_DUTY) rfl, hshow.1, hshow.2]
      refine ⟨?_, ⟨?_, fun hz => ?_, rfl⟩, capTail_limiting .., hkeeps.trans (Prog.keeps (capTail_allows (by simp) trivial trivial ..) _)⟩
      · rw [capTail_power, hpower]
      · simp only [State.capAvg]
        split
        · exact .inl rfl
        · obtain h0 | h1 := Nat.mod_two_eq_zero_or_one (Config.openBit s.seq)
          · exact .inl (by rw [h0]; rfl)
          · exact .inr (by rw [h1])
      · rw [State.capAvg, if_pos hz]
        rfl

end Sys2Proof.Machine
end

open Host
section
/-! SUPPORT. Properties of the state that a program keeps at each of its effects. -/
namespace Sys2Proof.Machine

variable {α β : Type} {I : State → Prop} {p : Prog} {s : State}

/-- Every effect of a program, in states where the property holds, keeps the property. -/
inductive Prog.Safe (I : State → Prop) : Prog → Prop
  | done : Prog.Safe I .done
  | act (a : Act) (k : Prog) : (∀ s, I s → I (a.apply s)) → Prog.Safe I k → Prog.Safe I (.act a k)
  | get (f : State → Prog) : (∀ s, I s → Prog.Safe I (f s)) → Prog.Safe I (.get f)

@[simp] theorem Prog.safe_done : Prog.done.Safe I := .done

theorem Prog.safe_act (a : Act) (k : Prog) : (Prog.act a k).Safe I ↔ (∀ s, I s → I (a.apply s)) ∧ k.Safe I :=
  ⟨fun | .act _ _ h hk => ⟨h, hk⟩, fun h => .act a k h.1 h.2⟩

@[simp] theorem Prog.safe_get (f : State → Prog) : (Prog.get f).Safe I ↔ ∀ s, I s → (f s).Safe I := ⟨fun | .get _ h => h, .get f⟩

theorem Prog.safe_eff (a : Act) : (eff a).Safe I ↔ ∀ s, I s → I (a.apply s) := by rw [eff, Prog.safe_act, and_iff_left Prog.safe_done]

theorem Prog.Safe.run (h : p.Safe I) : ∀ {s : State}, I s → I (p.run s) := by
  induction p with
  | done => exact fun hs => hs
  | act a k ih =>
    obtain ⟨ha, hk⟩ := (Prog.safe_act ..).1 h
    exact fun hs => ih hk (ha _ hs)
  | get f ih => exact fun hs => ih _ ((Prog.safe_get f).1 h _ hs) hs

theorem Prog.safe_seq (hI : ∃ s, I s) (p q : Prog) : (Prog.seq p q).Safe I ↔ p.Safe I ∧ q.Safe I := by
  induction p with
  | done => exact (and_iff_right Prog.safe_done).symm
  | act a k ih => simp only [Prog.seq, Prog.safe_act, ih, and_assoc]
  | get f ih =>
    obtain ⟨t, ht⟩ := hI
    simp only [Prog.seq, Prog.safe_get, ih]
    exact ⟨fun h => ⟨fun s hs => (h s hs).1, (h t ht).2⟩, fun h s hs => ⟨h.1 s hs, h.2⟩⟩

@[simp] theorem Prog.safe_all_nil : (Prog.all []).Safe I := Prog.safe_done

@[simp] theorem Prog.safe_all_cons (hI : ∃ s, I s) (p : Prog) (ps : List Prog) : (Prog.all (p :: ps)).Safe I ↔ p.Safe I ∧ (Prog.all ps).Safe I :=
  Prog.safe_seq hI ..

@[simp] theorem Prog.safe_each (hI : ∃ s, I s) (l : List β) (f : β → Prog) : (Prog.each l f).Safe I ↔ ∀ x ∈ l, (f x).Safe I := by
  induction l with
  | nil => simp [Prog.each]
  | cons x l ih =>
    rw [List.forall_mem_cons, ← ih]
    exact Prog.safe_all_cons hI ..

@[simp] theorem Prog.safe_when (b : Bool) (p : Prog) : (Prog.when b p).Safe I ↔ (b = true → p.Safe I) := by
  cases b <;> simp [Prog.when]

@[simp] theorem Prog.safe_ite (c : Prop) [Decidable c] (p q : Prog) : (if c then p else q).Safe I ↔ (c → p.Safe I) ∧ (¬ c → q.Safe I) := by
  split <;> simp [*]

/-! ### A view of the device -/

/-- The device looks as `d` does. -/
def looks (v : Device → α) (d : Device) (s : State) : Prop := v s.dev = v d

variable {v : Device → α} {d : Device}

@[simp] theorem exists_looks : ∃ s, looks v d s := ⟨{ State.reset with dev := d }, rfl⟩

/-- A program that never changes the view leaves it as it was. -/
theorem looks_run (h : ∀ d, p.Safe (looks v d)) (s : State) : v (p.run s).dev = v s.dev := (h s.dev).run rfl

theorem Prog.looks_of_only {T : Touch} (h : p.Only T.allows) (hd : ¬ T.dev) : p.Safe (looks v d) := by
  induction p with
  | done => exact Prog.safe_done
  | act a k ih =>
    refine (Prog.safe_act ..).2 ⟨fun s hs => ?_, ih h.2⟩
    cases a
    case dev => exact absurd h.1 hd
    all_goals exact hs
  | get f ih => exact (Prog.safe_get f).2 fun s _ => ih s (h s)

/-- A program that reads the state and has one effect, on something else than the device. -/
theorem looks_one {f : State → Act} (h : ∀ s t, (( f s).apply t).dev = t.dev) : (Prog.get fun s => eff (f s)).Safe (looks v d) :=
  (Prog.safe_get _).2 fun s _ => (Prog.safe_eff _).2 fun t ht => (congrArg v (h s t)).trans ht

@[simp] theorem modDev_looks_iff (f : Device → Device) : (modDev f).Safe (looks v d) ↔ ∀ e, v e = v d → v (f e) = v d := by
  simp only [modDev, Prog.safe_get, Prog.safe_eff]
  exact ⟨fun h e he => h { State.reset with dev := e } he { State.reset with dev := e } he, fun h s hs _ _ => h s.dev hs⟩

theorem modDev_looks {f : Device → Device} (h : ∀ d, v (f d) = v d) : (modDev f).Safe (looks v d) :=
  (modDev_looks_iff f).2 fun e he => (h e).trans he

section
variable (v : Device → α) (d : Device)
@[simp] theorem setReg_looks (p : Page) (o : Nat) (w : Word) : (setReg p o w).Safe (looks v d) := (Prog.safe_eff _).2 fun _ hs => hs
@[simp] theorem setFld_looks (p : Page) (f : Fld) (n : Nat) : (setFld p f n).Safe (looks v d) := looks_one fun _ _ => rfl
@[simp] theorem setBit_looks (p : Page) (f : Fld) (b : Bool) : (setBit p f b).Safe (looks v d) := setFld_looks v d p f _
@[simp] theorem bumpBy_looks (p : Page) (f : Fld) (n : Nat) : (bumpBy p f n).Safe (looks v d) := looks_one fun _ _ => rfl
@[simp] theorem bump_looks (p : Page) (f : Fld) : (bump p f).Safe (looks v d) := bumpBy_looks v d p f 1
@[simp] theorem ignored_looks (p : Page) : (ignored p).Safe (looks v d) := bump_looks v d p _
@[simp] theorem modCroft_looks (c : Nat) (f : Croft → Croft) : (modCroft c f).Safe (looks v d) := looks_one fun _ _ => rfl
@[simp] theorem modReeve_looks (c : Nat) (f : Reeve → Reeve) : (modReeve c f).Safe (looks v d) := modCroft_looks v d c _
@[simp] theorem modWell_looks (c : Nat) (f : Well → Well) : (modWell c f).Safe (looks v d) := looks_one fun _ _ => rfl
@[simp] theorem modHamlet_looks (c : Nat) (f : Hamlet → Hamlet) : (modHamlet c f).Safe (looks v d) := looks_one fun _ _ => rfl
@[simp] theorem modQueue_looks (c : Nat) (f : Queue → Queue) : (modQueue c f).Safe (looks v d) := looks_one fun _ _ => rfl
@[simp] theorem modLink_looks (c : Nat) (f : Link → Link) : (modLink c f).Safe (looks v d) := looks_one fun _ _ => rfl
@[simp] theorem emit_looks (o : Out) : (emit o).Safe (looks v d) := (Prog.safe_eff _).2 fun _ hs => hs
@[simp] theorem setWait_looks (c : Nat) (w : Wait) : (setWait c w).Safe (looks v d) := modReeve_looks v d c _
@[simp] theorem dropOrder_looks (c n : Nat) : (dropOrder c n).Safe (looks v d) := modReeve_looks v d c _
@[simp] theorem eff_seq_looks : (eff .seq).Safe (looks v d) := (Prog.safe_eff _).2 fun _ hs => hs
@[simp] theorem eff_bytes_looks (a : Nat) (bs : List Byte) : (eff (.bytes a bs)).Safe (looks v d) := (Prog.safe_eff _).2 fun _ hs => hs
@[simp] theorem eff_regsErase_looks (lo hi : Nat) : (eff (.regsErase lo hi)).Safe (looks v d) := (Prog.safe_eff _).2 fun _ hs => hs
@[simp] theorem eff_memErase_looks (lo hi : Nat) : (eff (.memErase lo hi)).Safe (looks v d) := (Prog.safe_eff _).2 fun _ hs => hs
@[simp] theorem eff_croftErase_looks (lo hi : Nat) : (eff (.croftErase lo hi)).Safe (looks v d) := (Prog.safe_eff _).2 fun _ hs => hs
@[simp] theorem eff_wellErase_looks (lo hi : Nat) : (eff (.wellErase lo hi)).Safe (looks v d) := (Prog.safe_eff _).2 fun _ hs => hs
@[simp] theorem eff_pumpErase_looks (lo hi : Nat) : (eff (.pumpErase lo hi)).Safe (looks v d) := (Prog.safe_eff _).2 fun _ hs => hs
@[simp] theorem eff_queueErase_looks (lo hi : Nat) : (eff (.queueErase lo hi)).Safe (looks v d) := (Prog.safe_eff _).2 fun _ hs => hs
@[simp] theorem eff_linkErase_looks (lo hi : Nat) : (eff (.linkErase lo hi)).Safe (looks v d) := (Prog.safe_eff _).2 fun _ hs => hs
@[simp] theorem pageReset_looks (p : Page) : (pageReset p).Safe (looks v d) := eff_regsErase_looks ..
@[simp] theorem xorBytes_looks (a n x : Nat) : (xorBytes a n x).Safe (looks v d) := looks_one fun _ _ => rfl
@[simp] theorem faultRecord_looks (p : Page) (cause addr : Nat) : (faultRecord p cause addr).Safe (looks v d) := by simp [faultRecord]
@[simp] theorem pageFault_looks (p : Page) (cause addr : Nat) : (pageFault p cause addr).Safe (looks v d) :=
  Prog.looks_of_only (T := { regs := p.covers }) (by simp) id
@[simp] theorem raiseLine_looks (p : Page) : (raiseLine p).Safe (looks v d) := Prog.looks_of_only (T := { regs := p.covers }) (by simp) id
@[simp] theorem haltReq_looks (c reason : Nat) : (haltReq c reason).Safe (looks v d) :=
  Prog.looks_of_only (T := { regs := (pgReeve c).covers, crofts := (· = c) }) (by simp) id
end

end Sys2Proof.Machine
end

section
/-! SUPPORT. What traffic and the units' own work leave of the device's record. -/
namespace Sys2Proof.Machine

/-- The parts of the device's record that traffic and the units' own work leave as they are. -/
structure StartView where
  resets : List ResetRun
  boot : Boot
  power : Power
  incs : List (Nat × Nat)
  incWindow : List Nat
  host : HostPort
  bell : Nat
  spareRuns : List (Nat × Nat × Nat)
  digests : List (Nat × BitVec 128)
  boundary : Bool
  stopHere : Bool
  crier : CrierState
  gauge : Gauge
  orarn : Orarn
  faultN : Bool
  restore : Option Restore

def startView (d : Device) : StartView where
  resets := d.resets
  boot := d.boot
  power := d.power
  incs := d.incs
  incWindow := d.incWindow
  host := d.host
  bell := d.bell
  spareRuns := d.spareRuns
  digests := d.digests
  boundary := d.boundary
  stopHere := d.stopHere
  crier := d.crier
  gauge := d.gauge
  orarn := d.orarn
  faultN := d.faultN
  restore := d.restore

@[simp] theorem startView_eq (d e : Device) : startView e = startView d ↔ e.resets = d.resets ∧ e.boot = d.boot ∧ e.power = d.power ∧ e.incs = d.incs ∧
    e.incWindow = d.incWindow ∧ e.host = d.host ∧ e.bell = d.bell ∧ e.spareRuns = d.spareRuns ∧ e.digests = d.digests ∧ e.boundary = d.boundary ∧
    e.stopHere = d.stopHere ∧ e.crier = d.crier ∧ e.gauge = d.gauge ∧ e.orarn = d.orarn ∧ e.faultN = d.faultN ∧ e.restore = d.restore := by simp [startView]

section
variable (d : Device)

@[simp] theorem stepEnds_start : stepEnds.Safe (looks startView d) := modDev_looks fun _ => rfl
@[simp] theorem tellWatch_start (i : Nat) : (tellWatch i).Safe (looks startView d) := modDev_looks fun _ => rfl
@[simp] theorem absorbAt_start (p : Page) (n : Nat) : (absorbAt p n).Safe (looks startView d) := modDev_looks fun _ => rfl
@[simp] theorem dropEntries_start (p : SegKey → Bool) : (dropEntries p).Safe (looks startView d) := modDev_looks fun _ => rfl
@[simp] theorem setFlip_start (k : Nat) (m : BitVec 72) : (setFlip k m).Safe (looks startView d) := modDev_looks fun _ => rfl
@[simp] theorem setGranMask_start (k : Nat) (m : BitVec 544) : (setGranMask k m).Safe (looks startView d) := modDev_looks fun _ => rfl
@[simp] theorem modSeg_start (q idx k : Nat) (f : Seg → Seg) : (modSeg q idx k f).Safe (looks startView d) := modQueue_looks _ _ q _
@[simp] theorem dropXfer_start (q idx : Nat) : (dropXfer q idx).Safe (looks startView d) := modQueue_looks _ _ q _
@[simp] theorem orderHalt_start (c idx engine : Nat) : (orderHalt c idx engine).Safe (looks startView d) := by simp [orderHalt]
@[simp] theorem orderFault_start (c idx engine : Nat) : (orderFault c idx engine).Safe (looks startView d) := by simp [orderFault]

@[simp] theorem routeCtrl_start (src : Nat) (queue : Option Nat) (m : Ctrl) : (routeCtrl src queue m).Safe (looks startView d) := by
  simp only [routeCtrl, Prog.safe_get]
  intro s _
  cases m
  case segAck => exact (Prog.safe_ite ..).2 ⟨fun _ => modDev_looks fun _ => rfl, fun _ => by split <;> simp⟩
  case signal => exact (Prog.safe_ite ..).2 ⟨fun _ => modDev_looks fun _ => rfl, fun _ => by split <;> simp⟩
  all_goals simp

@[simp] theorem sendCtrl_start (m : Ctrl) : (sendCtrl m).Safe (looks startView d) := routeCtrl_start d _ _ m

@[simp] theorem ueHalt_start (c engine idx addr : Nat) : (ueHalt c engine idx addr).Safe (looks startView d) := by
  refine (Prog.safe_get _).2 fun s _ => (Prog.safe_ite ..).2 ⟨fun _ => ?_, fun _ => ?_⟩ <;> simp
@[simp] theorem queueUE_start (q addr : Nat) : (queueUE q addr).Safe (looks startView d) := by simp [queueUE]

@[simp] theorem ueReact_start (src : Option Source) (own : Option Nat) (addr : Nat) : (ueReact src own addr).Safe (looks startView d) := by
  cases src with
  | none =>
    cases own with
    | none => exact Prog.safe_done
    | some c => exact (Prog.safe_get _).2 fun s _ => by simp
  | some src =>
    cases src with
    | engine e i =>
      cases own with
      | none => exact Prog.safe_done
      | some c => exact ueHalt_start d c e.val i.toNat addr
    | sluice q => exact queueUE_start d q.val addr
    | incoming q =>
      cases q with
      | none => exact Prog.safe_done
      | some q => exact queueUE_start d q.val addr
    | host => exact Prog.safe_done
    | bucket => exact Prog.safe_done
    | steward => exact Prog.safe_done

@[simp] theorem logCE_start (c addr kind : Nat) : (logCE c addr kind).Safe (looks startView d) := by simp [logCE]
@[simp] theorem cistUE_start (c addr cause : Nat) (src : Option Source) : (cistUE c addr cause src).Safe (looks startView d) := by simp [cistUE]
@[simp] theorem corrupt_start (k : Nat) (m : BitVec 64) : (corrupt k m).Safe (looks startView d) := by simp [corrupt]
@[simp] theorem reviveWord_start (k : Nat) : (reviveWord k).Safe (looks startView d) := by simp [reviveWord]

@[simp] theorem settleWord_start (c k : Nat) : (settleWord c k).Safe (looks startView d) := by
  simp only [settleWord, Prog.safe_get]
  intro s _
  split <;> simp

@[simp] theorem settleParity_start (c st : Nat) : (settleParity c st).Safe (looks startView d) := by
  simp only [settleParity, Prog.safe_get]
  intro s _
  split <;> simp

@[simp] theorem checkWord_start (c k : Nat) (src : Option Source) : (checkWord c k src).Safe (looks startView d) := by
  simp [checkWord]

@[simp] theorem checkParity_start (c st : Nat) : (checkParity c st).Safe (looks startView d) := by simp [checkParity]
@[simp] theorem reviveGranule_start (g : Nat) : (reviveGranule g).Safe (looks startView d) := by simp [reviveGranule]
@[simp] theorem granUE_start (g : Nat) (src : Option Source) : (granUE g src).Safe (looks startView d) := by simp [granUE]

@[simp] theorem granDecode_start (g : Nat) (src : Option Source) (back : Bool) : (granDecode g src back).Safe (looks startView d) := by
  simp only [granDecode, Prog.safe_all_cons exists_looks, Prog.safe_get]
  refine ⟨by simp, fun s _ => ?_, Prog.safe_all_nil⟩
  split <;> simp

@[simp] theorem storeStripe_start (src : Option Source) (a : Nat) (bs : List Byte) : (storeStripe src a bs).Safe (looks startView d) := by
  simp [storeStripe]

@[simp] theorem storeGranule_start (src : Option Source) (a : Nat) (bs : List Byte) : (storeGranule src a bs).Safe (looks startView d) := by
  simp [storeGranule]

@[simp] theorem store_start (src : Option Source) (a : Nat) (bs : List Byte) : (store src a bs).Safe (looks startView d) := by simp [store]
@[simp] theorem readBy_start (src : Option Source) (a n : Nat) : (readBy src a n).Safe (looks startView d) := by simp [readBy]
@[simp] theorem readAll_start (src : Option Source) (rs : List (Nat × Nat)) : (readAll src rs).Safe (looks startView d) := by simp [readAll]

/-! ### Segments and transfers -/

@[simp] theorem countAbsorbed_start (a : Nat) : (countAbsorbed a).Safe (looks startView d) := by
  unfold countAbsorbed
  split <;> simp

@[simp] theorem account_start (k : SegKey) (n status : Nat) : (account k n status).Safe (looks startView d) := by
  refine (Prog.safe_get _).2 fun s _ => ?_
  split
  · exact Prog.safe_done
  next e _ =>
    simp
    intro _
    split <;> simp

@[simp] theorem closeAbsorbed_start (p : Place → Bool) : (closeAbsorbed p).Safe (looks startView d) := by simp [closeAbsorbed]
@[simp] theorem absorbGranary_start (h : Nat) : (absorbGranary h).Safe (looks startView d) := closeAbsorbed_start ..
@[simp] theorem refuseRead_start (r : Head) (status : Nat) : (refuseRead r status).Safe (looks startView d) := sendCtrl_start ..
@[simp] theorem xferSignals_start (q : Nat) (x : Desc) : (xferSignals q x).Safe (looks startView d) := by
  refine (Prog.safe_get _).2 fun s _ => ?_
  simp
  split <;> simp
@[simp] theorem xferFails_start (q idx st : Nat) : (xferFails q idx st).Safe (looks startView d) := by simp [xferFails]
@[simp] theorem collide_start (c engine cls index order addr : Nat) (k : Option Sender) :
    (collide c engine cls index order addr k).Safe (looks startView d) := by
  cases k <;> simp [collide, latchBell]
@[simp] theorem sluiceCollide_start (q cls index : Nat) (a : Option Nat) : (sluiceCollide q cls index a).Safe (looks startView d) := by
  simp [sluiceCollide, collideHalt]

@[simp] theorem finishXfer_start (q : Nat) (x : Xfer) : (finishXfer q x).Safe (looks startView d) := by
  refine (Prog.safe_get _).2 fun s _ => ?_
  simp
  split <;> simp

@[simp] theorem completeSeg_start (q idx k st : Nat) : (completeSeg q idx k st).Safe (looks startView d) := by
  refine (Prog.safe_get _).2 fun s _ => ?_
  split
  · exact Prog.safe_done
  split
  · exact Prog.safe_done
  simp
  intros
  split <;> simp

@[simp] theorem absorbCroft_start (c : Nat) : (absorbCroft c).Safe (looks startView d) := by
  simp [absorbCroft]
  intro s _ j _
  split <;> simp

end

end Sys2Proof.Machine
end

open Host
section
/-! O56 fails: what the Steward writes to a well's spare map (R77, R508) is bounded by the runtime assignments' places alone. -/
namespace Sys2Proof.Machine

/-- A croft whose drain is over, and a runtime assignment of spare 0x100000 to its well 0: there are 16 spares. -/
def strayState : State := { State.reset with dev := { resets := [⟨.croft 0, true⟩], spareRuns := [(0, 0x100000, 5)] } }

/-- Where the spare map's entry for that spare would lie: far beyond the croft's registers. -/
def strayEntry : Nat := (pgWell 0).base + R.well_SPARE_MAP_LOGICAL.off + 4 * 0x100000

theorem strayEntry_outside : ¬ inCroft 0 strayEntry := by
  rintro ⟨-, h⟩
  exact absurd h (by decide)

theorem strayState_mayLeave : strayState.mayLeave (.croft 0) = true := by decide

set_option maxRecDepth 10000 in
theorem resetOver_strays : Sparse.get? ((resetOver (.croft 0)).run strayState).regs strayEntry ≠ none := by decide

/-- The voltage of a croft's hamlet follows its clocks. -/
def voltsFollow (h : Nat) : Prog := .all [
  voltsSettle h, .get (fun s => Prog.when (decide (s.volts h < vfOf h (s.topMult h))) (setVolts h (vfOf h (s.topMult h))))]

theorem voltsFollow_keeps (h : Nat) (s : State) : Keeps { dev := True } s ((voltsFollow h).run s) :=
  Prog.keeps (by simp [voltsFollow, voltsSettle, Prog.only_when]) s

theorem exec_resetDone_croft {s : State} {c : CroftId} (h : s.mayLeave (.croft c.val) = true) (fs : List Finding) (e : StartEnd) :
    exec (.resetDone (.croft c) fs e) s = .next ((voltsFollow (c.val / 16)).run ((resetOver (.croft c.val)).run s)) := by
  show execResetDone (.croft c) fs e s = _
  simp -implicitDefEqProofs only [execResetDone, grainOf, Prog.next_eq, Prog.run_get, h, Bool.not_true, Bool.false_eq_true, if_false,
    Prog.run_all_cons, Prog.run_all_nil, voltsFollow]

/-- Refutes O56: a runtime assignment of a spare that a well does not have makes the croft's leaving of reset write a register outside the
croft. -/
theorem not_resetsEnd : ¬ Obligations.ResetsEnd := by
  unfold Obligations.ResetsEnd
  rintro ⟨-, hleave, -⟩
  obtain ⟨t, ht, -, -, -, -, -, hkeeps⟩ := (hleave strayState (.croft 0) (.croft 0) [] (.ready false []) rfl (by decide)).2 strayState_mayLeave
  obtain rfl : _ = t := by simpa using (exec_resetDone_croft (c := 0) strayState_mayLeave [] (.ready false [])).symm.trans ht
  have hleft := (hkeeps 0 rfl).regs _ strayEntry_outside
  rw [(voltsFollow_keeps ..).regs _ id] at hleft
  exact resetOver_strays hleft

end Sys2Proof.Machine
end

open Host
section
/-! O55 fails: a hamlet reset ends the snapshot, and the writes it held meet what memory holds (R310, R316, R420, R423). -/
namespace Sys2Proof.Machine

/-- The state an instruction leaves. -/
def leftBy (i : Instr) (s : State) : State :=
  match exec i s with
  | .next t => t
  | _ => s

theorem Leaves.leftBy {i : Instr} {s : State} {P : State → Prop} (h : Leaves (exec i s) P) : P (leftBy i s) := by
  obtain ⟨t, ht, hP⟩ := h
  simpa only [Machine.leftBy, ht] using hP

/-- A snapshot holds a write of croft 32's sluice to granary 0, whose first granule has an error that RS_MODE 1 does not correct. -/
def heldState : State := { State.reset with
  regs := [((pgGran 0).base + R.granary_CFG_RS_MODE.off, R.granary_CFG_RS_MODE.insert 0 1)]
  queues := [(32 * 128, { owner := 1 })]
  dev := {
    granFlips := [(0, 1)]
    snap := some { b := 0, bell := 0, slot := 0, pails := [], uncopied := [], held := [⟨.sluice 0x1000, 0, [1], false⟩] } } }

set_option maxRecDepth 10000 in
theorem heldState_ueAt : ((leftBy (.hamletReset .steward 1) heldState).reeve 32).ueAt = some (0, 9) := by decide

/-- Refutes O55: a reset of hamlet 1 ends the snapshot, the held write meets uncorrectable data, and croft 32 of hamlet 2, whose queue made
it, changes. -/
theorem not_resetsBegin : ¬ Obligations.ResetsBegin := by
  unfold Obligations.ResetsBegin
  rintro ⟨-, -, -, -, hhamlet⟩
  have hueAt := heldState_ueAt
  obtain ⟨-, -, -, -, -, -, hothers⟩ := (hhamlet heldState .steward 1 (by unfold State.reaches; decide)).leftBy
  have hstays := hothers 32 (by decide)
  generalize leftBy (.hamletReset .steward 1) heldState = t at *
  have hnone : (t.reeve 32).ueAt = none := congrArg (fun k : Croft => k.reeve.ueAt) hstays
  exact absurd (hueAt.symm.trans hnone) (by decide)

end Sys2Proof.Machine
end

open Host
section
/-! O52 fails: a warning counts the discarded slot on every well its DRAW names (R134), and nothing bounds those names. -/
namespace Sys2Proof.Machine

/-- A block whose one well would be the first of croft 16, counted from croft 0. -/
def strayArgs : DrawArgs where
  wells := [256]
  wellsWord := 0
  nwellsWord := 0
  input := ⟨0, 0, 0, 0, false, 0, 0, 0, 0, false, 0⟩
  k := 0
  k0 := 0
  t0 := 0
  rows := 0
  out := 0
  stride := 0
  reserved := 0

/-- The device is powered, and croft 0 is in a slot of such a DRAW. -/
def strayRun : State := { State.reset with
  crofts := [(0, { runs := [{ serial := 0, idx := 0, args := strayArgs, n := 1, inSlot := true }] })]
  dev := { power := { level := .on } } }

/-- Where the discarded slot is counted: a register of hamlet 1. -/
def strayCount : Nat := (pgWell 256).base + R.well_DIP_CNT.off

theorem strayCount_outside : ¬ (inHamlet 0 strayCount ∨ onPages [pgPower, pgGauge] strayCount) := by
  rintro (⟨-, h⟩ | ⟨p, hp, h⟩)
  · exact absurd h (by decide)
  · simp only [List.mem_cons, List.not_mem_nil, or_false] at hp
    obtain rfl | rfl := hp <;> exact absurd h.2 (by decide)

set_option maxRecDepth 10000 in
theorem strayRun_counts : Sparse.get? (leftBy (.supplyWarning 0) strayRun).regs strayCount = some 1 := by decide

/-- Refutes O52: a warning of hamlet 0 counts on a well of hamlet 1. -/
theorem not_supplyEventsAndPowerStates : ¬ Obligations.SupplyEventsAndPowerStates := by
  unfold Obligations.SupplyEventsAndPowerStates
  rintro ⟨hsupply, -⟩
  obtain ⟨-, hwarn, -⟩ := hsupply strayRun 0
  obtain ⟨-, -, -, -, hkeeps⟩ := (hwarn rfl (by decide)).leftBy
  have hcount := strayRun_counts
  rw [hkeeps.regs strayCount strayCount_outside] at hcount
  exact absurd hcount (by decide)

end Sys2Proof.Machine
end

open Host
section
/-! SUPPORT. What erasing a range of records leaves. -/
namespace Sys2Proof.Machine

variable (s : State) (lo hi k : Nat)

theorem croft_croftErase : ((Act.croftErase lo hi).apply s).croft k = if lo ≤ k ∧ k < hi then {} else s.croft k := by
  rw [State.croft, Act.apply_croftErase_crofts, Sparse.get?_eraseRange]
  split <;> rfl

theorem well_wellErase : ((Act.wellErase lo hi).apply s).well k = if lo ≤ k ∧ k < hi then {} else s.well k := by
  rw [State.well, Act.apply_wellErase_wells, Sparse.get?_eraseRange]
  split <;> rfl

theorem queue_queueErase : ((Act.queueErase lo hi).apply s).queue k = if lo ≤ k ∧ k < hi then {} else s.queue k := by
  rw [State.queue, Act.apply_queueErase_queues, Sparse.get?_eraseRange]
  split <;> rfl

theorem pumpRun_pumpErase : ((Act.pumpErase lo hi).apply s).pumpRun k = if lo ≤ k ∧ k < hi then none else s.pumpRun k := by
  rw [State.pumpRun, Act.apply_pumpErase_pumps, Sparse.get?_eraseRange, State.pumpRun]

theorem link_linkErase : ((Act.linkErase lo hi).apply s).link k = if lo ≤ k ∧ k < hi then {} else s.link k := by
  rw [State.link, Act.apply_linkErase_links, Sparse.get?_eraseRange]
  split <;> rfl

theorem regs_regsErase : Sparse.get? ((Act.regsErase lo hi).apply s).regs k = if lo ≤ k ∧ k < hi then none else Sparse.get? s.regs k := by
  rw [Act.apply_regsErase_regs, Sparse.get?_eraseRange]

theorem byte_memErase : ((Act.memErase lo hi).apply s).byte k = if lo ≤ k ∧ k < hi then 0 else s.byte k := by
  rw [State.byte, Act.apply_memErase_mem, Memory.read, Sparse.get?_eraseRange]
  split <;> rfl

end Sys2Proof.Machine
end

section
/-! O53: cold starts and the sideband (R496, R498, R499, R514, R515). -/
namespace Sys2Proof.Machine

variable {s : State}

/-! ### Cores that are held -/

theorem retiredCore_congr {s t : State} (hd : t.dev.boot.defects = s.dev.boot.defects) (hr : t.dev.boot.runtime = s.dev.boot.runtime) (p : Page) :
    t.retiredCore p = s.retiredCore p := by
  have hby (k u : Nat) : t.retiredBy k u = s.retiredBy k u := by simp only [State.retiredBy, State.defectList, hd, hr]
  have hcols (w : Nat) : t.columnEntries w = s.columnEntries w := by simp only [State.columnEntries, hd]
  obtain ⟨k, n⟩ := p
  cases k <;> simp only [State.retiredCore, State.retiredWell, State.retiredPump, State.retiredCroft, hby, hcols]

/-- The loads of the cores that are not retired. -/
def State.held (s : State) (ps : List Page) : List CoreLoad :=
  (ps.filter (fun p => !s.retiredCore p)).map (fun p => ⟨p, List.range (packetsOf p), 0⟩)

theorem held_congr {s t : State} (hd : t.dev.boot.defects = s.dev.boot.defects) (hr : t.dev.boot.runtime = s.dev.boot.runtime) (ps : List Page) :
    t.held ps = s.held ps := by
  simp only [State.held, retiredCore_congr hd hr]

theorem holdCores_run (ps : List Page) (s : State) : (holdCores ps).run s =
    { s with dev := { s.dev with boot := { s.dev.boot with loads := s.dev.boot.loads ++ s.held ps } } } := rfl

theorem each_holdCores (cs : List Nat) (s : State) : (Prog.each cs (fun c => holdCores (coresOf c))).run s =
    { s with dev := { s.dev with boot := { s.dev.boot with loads := s.dev.boot.loads ++ cs.flatMap (fun c => s.held (coresOf c)) } } } := by
  induction cs generalizing s with
  | nil => simp [Prog.run_each_nil]
  | cons c cs ih =>
    rw [Prog.run_each_cons, ih, holdCores_run]
    simp only [List.flatMap_cons, List.append_assoc]
    rfl

theorem holdsCores_held {s t : State} {cs : List Nat} (hd : t.dev.boot.defects = s.dev.boot.defects) (hr : t.dev.boot.runtime = s.dev.boot.runtime) :
    HoldsCores s ((Prog.each cs (fun c => holdCores (coresOf c))).run t) cs := by
  intro c hc p hp hret
  rw [each_holdCores]
  refine List.mem_append_right _ (List.mem_flatMap.2 ⟨c, hc, ?_⟩)
  rw [held_congr hd hr]
  exact List.mem_map.2 ⟨p, List.mem_filter.2 ⟨hp, by simp [hret]⟩, rfl⟩

/-! ### Main power off -/

/-- What the device keeps without main power. -/
def offDev (d : Device) : Device := { (({} : Device)) with
  resets := [⟨.device, true⟩]
  power := { thermN := d.power.thermN, tripped := d.power.tripped }
  boot := {
    strap := d.boot.strap, warmLow := d.boot.warmLow, bank := d.boot.bank, flash := d.boot.flash, next := d.boot.next, trim := d.boot.trim
    enrol := d.boot.enrol, defects := d.boot.defects, starts := d.boot.starts
    runtime := d.boot.runtime.filter (fun e => !d.boot.unwritten.contains e) } }

theorem powerOff_dev (s : State) : (powerOff.run s).dev = offDev s.dev := by
  simp [powerOff, offDev]

/-- The hamlets' records alone change. -/
theorem each_hamlet_keeps (s : State) : Keeps { hamlets := fun _ => True } s ((Prog.each (List.range 8) (fun h => modHamlet h (fun _ => {}))).run s) :=
  Prog.keeps (by simp) s

theorem powerOff_regs (s : State) {a : Nat} (ha : a < 0x10000000) : Sparse.get? (powerOff.run s).regs a = none := by
  simp only [powerOff, Prog.run_get, Prog.run_all_cons, Prog.run_all_nil, Prog.run_eff]
  rw [Act.apply_dev_regs, (each_hamlet_keeps _).regs a id]
  simp [Sparse.get?_eraseRange, ha]

theorem powerOff_byte (s : State) {a : Nat} (ha : a < 0x200000000000) : (powerOff.run s).byte a = 0 := by
  have h : (powerOff.run s).byte a = ((Act.memErase 0 0x200000000000).apply s).byte a := by
    simp only [powerOff, Prog.run_get, Prog.run_all_cons, Prog.run_all_nil, Prog.run_eff]
    exact (each_hamlet_keeps _).mem a id
  rw [h, byte_memErase, if_pos ⟨Nat.zero_le _, ha⟩]

theorem powerOff_croft (s : State) {c : Nat} (hc : c < 128) : (powerOff.run s).croft c = {} := by
  have h : (powerOff.run s).croft c = ((Act.croftErase 0 128).apply s).croft c := by
    simp only [powerOff, Prog.run_get, Prog.run_all_cons, Prog.run_all_nil, Prog.run_eff]
    exact (each_hamlet_keeps _).crofts c id
  rw [h, croft_croftErase, if_pos ⟨Nat.zero_le _, hc⟩]

/-- Everything may change but what goes outside. -/
def inside : Touch where
  regs := fun _ => True
  mem := fun _ => True
  crofts := fun _ => True
  wells := fun _ => True
  pumps := fun _ => True
  hamlets := fun _ => True
  queues := fun _ => True
  links := fun _ => True
  dev := True

theorem powerOff_inside : powerOff.Only inside.allows := by simp [powerOff, inside, Touch.allows]

theorem powerOff_out (s : State) : (powerOff.run s).out = s.out := (Prog.keeps powerOff_inside s).out id

/-- What a cold start turns on. -/
def coldOn : Prog := .all [
  modPower (fun p => { p with level := .on, tripped := none }), modBoot (fun b => { b with cold := true, warmLow := false }), enableGroup 1]

theorem startStops_stops {code : Nat} (hc : code < 256) (addr : Nat) (s : State) :
    StartStops s ((startStops code addr).run s) code addr := by
  refine ⟨rfl, rfl, rfl, ?_, ?_, ?_, ?_, ?_, Prog.keeps (by simp [startStops, setPhase]) s⟩
  all_goals simp -implicitDefEqProofs [startStops, setPhase, State.bootPhase]
  · decide
  · exact hc
  · omega

/-- The last rail group is valid: G0 and G1 leave reset. -/
def romRuns : Prog := .all [modBoot (fun b => { b with group := none, released := true }), setPhase 1]

/-- Settles O53: each step of a cold start and each answer of the sideband by its branch. -/
theorem coldStartsAndTheSideband : Obligations.ColdStartsAndTheSideband := by
  unfold Obligations.ColdStartsAndTheSideband
  refine ⟨⟨?cold, ?valid, ?timeout⟩, ?record, ?smb⟩
  case cold =>
    intro s may
    have hexec : exec .coldStart s = .next (if ¬ may then s else coldOn.run (powerOff.run s)) := by
      show execColdStart s = _
      simp -implicitDefEqProofs only [execColdStart, Prog.next_eq, Prog.run_get, Prog.run_ite, Prog.run_done, coldOn, Prog.run_all_cons, Prog.run_all_nil]
      refine congrArg _ (if_congr ?_ rfl rfl)
      simp [may, Option.isNone_iff_eq_none, imp_iff_not_or, or_assoc]
    refine ⟨fun h => hexec.trans (congrArg _ (if_pos h)), fun h => ⟨_, hexec.trans (congrArg _ (if_neg (not_not.2 h))), ?_⟩⟩
    have hkeeps : Keeps { dev := True } (powerOff.run s) (coldOn.run (powerOff.run s)) := Prog.keeps (by simp [coldOn, enableGroup]) _
    have hdev : (coldOn.run (powerOff.run s)).dev = { offDev s.dev with
        power := { (offDev s.dev).power with level := .on, tripped := none }
        boot := { (offDev s.dev).boot with cold := true, warmLow := false, group := some 1, railEn := (offDev s.dev).boot.railEn ++ groupEnables 1 } } := by
      rw [← powerOff_dev]
      rfl
    show _ ∧ _
    rw [hdev]
    exact ⟨rfl, rfl, rfl, rfl, rfl, rfl, fun a ha => (hkeeps.regs a id).trans (powerOff_regs s ha), fun a ha => (hkeeps.mem a id).trans (powerOff_byte s ha),
      fun c hc => (hkeeps.crofts c id).trans (powerOff_croft s hc), rfl, rfl, rfl, rfl, (hkeeps.out id).trans (powerOff_out s)⟩
  case valid =>
    intro s
    refine ⟨fun hn => ?_, fun g hg hlt => ⟨(enableGroup (g + 1)).run s, ?_, rfl, Prog.keeps (by simp [enableGroup]) s⟩,
      fun g hg hle => ⟨(Prog.each allCrofts fun c => holdCores (coresOf c)).run (romRuns.run s), ?_, ?_, ?_, ?_, ?_, ?_⟩⟩
    · show execRailGroupValid s = _
      simp -implicitDefEqProofs only [execRailGroupValid, Prog.next_eq, Prog.run_get, hn, Prog.run_done]
    · show execRailGroupValid s = _
      simp -implicitDefEqProofs only [execRailGroupValid, Prog.next_eq, Prog.run_get, hg, if_pos hlt]
    · show execRailGroupValid s = _
      simp -implicitDefEqProofs only [execRailGroupValid, Prog.next_eq, Prog.run_get, hg, if_neg (Nat.not_lt.2 hle), romRuns, Prog.run_all_cons,
        Prog.run_all_nil]
    · rw [each_holdCores]
      rfl
    · rw [each_holdCores]
      rfl
    · rw [each_holdCores]
      show (romRuns.run s).bootPhase = 1
      simp [romRuns, State.bootPhase, setPhase]
    · exact holdsCores_held rfl rfl
    · exact (Prog.keeps (by simp [romRuns, setPhase]) s).trans (Prog.keeps (by simp [holdCores]) _)
  case timeout =>
    intro s rail
    refine ⟨fun g hg hr => ⟨_, ?_, startStops_stops (by decide) rail.val s⟩, fun h => ?_⟩
    · show execRailGroupTimeout rail s = _
      simp -implicitDefEqProofs only [execRailGroupTimeout, Prog.next_eq, Prog.run_get, hg, hr, Prog.run_when_true]
    · show execRailGroupTimeout rail s = _
      simp -implicitDefEqProofs only [execRailGroupTimeout, Prog.next_eq, Prog.run_get]
      split
      next g hg => rw [h g hg, Prog.run_when_false]
      next => rfl
  case record =>
    intro s
    refine ⟨fun hn => ?_, fun e rest he => ⟨(emit (.record e)).run ((modBoot fun b => { b with unwritten := rest }).run s), ?_, rfl, rfl,
      (Prog.keeps (by simp) s).trans (Prog.keeps (by simp) _)⟩⟩
    · show execRuntimeRecordWrite s = _
      simp -implicitDefEqProofs only [execRuntimeRecordWrite, Prog.next_eq, Prog.run_get, hn, Prog.run_done]
    · show execRuntimeRecordWrite s = _
      simp -implicitDefEqProofs only [execRuntimeRecordWrite, Prog.next_eq, Prog.run_get, he, Prog.run_all_cons, Prog.run_all_nil]
  case smb =>
    intro s i bs hi
    have hexec : exec i s = .next ((Prog.when s.dev.boot.strap.isSome (emit (.smbus bs))).run s) := by
      simp only [List.mem_cons, Prod.mk.injEq, List.not_mem_nil, or_false] at hi
      rcases hi with ⟨rfl, rfl⟩ | ⟨rfl, rfl⟩ | ⟨rfl, rfl⟩ | ⟨rfl, rfl⟩
      case inr.inr.inl =>
        show execSmbThermtrip s = _
        simp -implicitDefEqProofs only [execSmbThermtrip, smbus, Prog.next_eq, Prog.run_get]
        cases s.dev.power.tripped <;> rfl
      all_goals rfl
    refine ⟨fun hn => ?_, fun hs => ⟨(emit (.smbus bs)).run s, ?_, rfl, Prog.keeps (by simp) s⟩⟩
    · rw [hexec, hn]
      rfl
    · rw [hexec, hs, Prog.run_when_true]

end Sys2Proof.Machine
end

open Host
section
/-! SUPPORT. The registers of pages of other kinds. -/
namespace Sys2Proof.Machine

/-- Every register but those of the pages of some kinds. -/
def offKinds (ks : List Kind) (a : Nat) : Prop := ∀ q : Page, q.kind ∈ ks → q.placed → ¬ q.covers a

theorem onReg_offKinds {ks : List Kind} {p : Page} {o : Nat} (ho : o < 0x1000) (hp : p.placed) (h : p.kind ∉ ks) : onReg (offKinds ks) p o := by
  rintro q hq hqp ⟨hlo, hhi⟩
  have hk : p.kind ≠ q.kind := fun e => h (e ▸ hq)
  exact apart_ne (p := p) (q := q) (o := o) (o' := p.base + o - q.base) ⟨ho, by omega, .inr ⟨.inl hk, hp, hqp⟩⟩ (by omega)

theorem not_offKinds {ks : List Kind} {q : Page} (hq : q.kind ∈ ks) (hp : q.placed) {o : Nat} (ho : o < 0x1000) : ¬ offKinds ks (q.base + o) :=
  fun h => h q hq hp ⟨by omega, by omega⟩

end Sys2Proof.Machine
end

section
/-! O28: the step barrier, its boundary and its release (R255, R277, R391, R418, R546). -/
namespace Sys2Proof.Machine

variable {s : State}

/-! ### Reports -/

/-- A croft reports at the barrier. -/
def reports (c : Nat) : Prog := modReeve c (fun r => { r with reported := true, wait := .stepBarrier })

theorem exec_stepReport {c : CroftId} (h : s.stepFenceOver c.val = true) : exec (.stepReport c) s = .next (
    if ((reports c.val).run s).allReported = true then passBoundary.run ((reports c.val).run s) else (reports c.val).run s) := by
  show execStepReport c s = _
  simp -implicitDefEqProofs only [execStepReport, Prog.next_eq, Prog.run_get, h, if_true, Prog.run_all_cons, Prog.run_all_nil, tryBoundary,
    Prog.whenever, Prog.run_when, reports]
  rfl

theorem allReported_iff (s : State) : s.allReported = true ↔
    s.dev.boundary = false ∧ s.enabledReeves ≠ [] ∧ ∀ k ∈ s.enabledReeves, (s.reeve k).reported = true := by
  simp [State.allReported, and_assoc]

theorem reports_enabledReeves (c : Nat) (s : State) : ((reports c).run s).enabledReeves = s.enabledReeves := rfl

theorem reports_reported (c k : Nat) (s : State) : (((reports c).run s).reeve k).reported = if k = c then true else (s.reeve k).reported := by
  by_cases h : k = c
  · subst h; simp [reports, modReeve, modCroft]
  · simp [reports, modReeve, modCroft, State.reeve_eq, Act.apply_croft_croft_at, h]

theorem reports_allReported_iff (c : Nat) (s : State) : ((reports c).run s).allReported = true ↔
    s.dev.boundary = false ∧ s.enabledReeves ≠ [] ∧ ∀ k ∈ s.enabledReeves, k ≠ c → (s.reeve k).reported = true := by
  rw [allReported_iff, reports_enabledReeves]
  refine and_congr Iff.rfl (and_congr Iff.rfl (forall₂_congr fun k _ => ?_))
  rw [reports_reported]
  by_cases h : k = c <;> simp [h]

/-! ### The boundary -/

/-- What a croft latches at the boundary. -/
def latchStep (c : Nat) : Prog := .all [
  latchBell (pgReeve c) R.reeve_STEP_BELL_LO R.reeve_STEP_BELL_HI,
  .get (fun s => Prog.when (!(s.reeve c).repeated.isEmpty) (modReeve c (fun r => { r with repeated := [] })))]

/-- What Watch and Bucket do at the boundary. -/
def boundaryTail : Prog := .all [watchBoundary, bucketBoundary]

theorem passBoundary_run (s : State) : passBoundary.run s =
    (Prog.get fun s => modDev (fun d => { d with boundary := true, stopHere := s.bit pgPlan R.plan_STATUS_STOP_PENDING })).run
      (boundaryTail.run ((ledgerSwap false).run ((Prog.each allCrofts latchStep).run (numericsBoundary.run s)))) := by
  simp -implicitDefEqProofs only [passBoundary, boundaryTail, Prog.run_all_cons, Prog.run_all_nil]
  rfl

/-- The frame of Watch and Bucket at the boundary. -/
def tailTouch : Touch where
  regs := offKinds [.numstep, .plan, .reeve]
  mem := fun _ => True
  links := fun _ => True
  dev := True
  seq := True

theorem tailTouch_snapshots : tailTouch.snapshots where
  dev := trivial
  mem _ := trivial
  links _ := trivial
  seq := trivial
  cist c o ho := onReg_offKinds ho (by simp) (by simp)
  gran g o ho := onReg_offKinds ho (by simp) (by simp)
  watch o ho := onReg_offKinds ho (by simp) (by simp)
  bucket o ho := onReg_offKinds ho (by simp) (by simp)

theorem boundaryTail_keeps (s : State) : Keeps tailTouch s (boundaryTail.run s) :=
  Prog.keeps (by simp [boundaryTail, watchBoundary_only tailTouch_snapshots, bucketBoundary_only tailTouch_snapshots]) s

theorem boundaryTail_reg {q : Page} (hq : q.kind ∈ [Kind.numstep, .plan, .reeve]) (hp : q.placed) {o : Nat} (ho : o < 0x1000) (s : State) :
    (boundaryTail.run s).reg q o = s.reg q o :=
  (boundaryTail_keeps s).reg_eq (not_offKinds hq hp ho)

section
variable (d : Device)

theorem flood_start (m : StewMsg) (skip : Option Nat) : (flood m skip).Safe (looks startView d) := by simp [flood, sendFlits]

theorem askSnapshot_start (b : Nat) : (askSnapshot b).Safe (looks startView d) := by simp [askSnapshot, flood_start]

theorem sendPartner_start (what k addr : Nat) (bs : List Byte) : (sendPartner what k addr bs).Safe (looks startView d) := by
  simp only [sendPartner, sendBucket, Prog.safe_get]
  intros
  split <;> simp [sendFlits]

theorem beginSnapshot_start (b : Nat) (forced : Bool) : (beginSnapshot b forced).Safe (looks startView d) := by
  simp [beginSnapshot, writeStateBlock, sendPartner_start]

theorem boundaryTail_start : boundaryTail.Safe (looks startView d) := by
  simp [boundaryTail, watchBoundary, bucketBoundary, riskRequest, askSnapshot_start]
  intro s _ _
  split <;> simp [beginSnapshot_start]

end

/-! ### The numerics of the boundary -/

theorem tallyBoundary_keeps (n : Nat) (s : State) : Keeps { regs := theRegs pgNum [R.numstep_JUMP_CNT, R.numstep_JUMP_LOG_ENTRY,
    R.numstep_JUMP_NORM_N, R.numstep_JUMP_REF_REF, R.CRIER_LINE_RAISED], dev := True } s ((tallyBoundary n).run s) := by
  refine Prog.keeps ((Prog.only_get _).2 fun t => ?_) s
  simp only [Prog.only_all_cons, Prog.only_all_nil, and_true]
  refine ⟨by simp, ?_⟩
  split <;> simp

theorem numericsBoundary_flds (s : State) :
    let t := numericsBoundary.run s
    t.stepIndex = (s.stepIndex + 1) % 2 ^ 32 ∧ t.fld pgNum R.numstep_STATUS_FALLBACKS = 0 ∧ t.bit pgNum R.numstep_STATUS_REPEATING = false := by
  have hreg {o : Nat} (ho : o ∉ [R.numstep_JUMP_CNT, R.numstep_JUMP_LOG_ENTRY, R.numstep_JUMP_NORM_N, R.numstep_JUMP_REF_REF,
      R.CRIER_LINE_RAISED].map Fld.off) (n : Nat) (u : State) : ((tallyBoundary n).run u).reg pgNum o = u.reg pgNum o :=
    (tallyBoundary_keeps n u).reg_eq (not_theRegs_offset ho _)
  refine ⟨?_, ?_, ?_⟩
  all_goals simp -implicitDefEqProofs only [numericsBoundary, Prog.run_get, Prog.run_all_cons, Prog.run_all_nil, State.stepIndex, State.bit]
  all_goals rw [State.fld_eq, hreg (by decide)]
  all_goals simp -implicitDefEqProofs [modDev]

/-! ### What the crofts latch, and the swap of the digests -/

theorem latchStep_keeps (c : Nat) (s : State) :
    Keeps { regs := theRegs (pgReeve c) [R.reeve_STEP_BELL_LO, R.reeve_STEP_BELL_HI], crofts := (· = c) } s ((latchStep c).run s) :=
  Prog.keeps (by simp [latchStep, latchBell, Prog.only_when]) s

theorem latchStep_latches (c : Nat) (s : State) :
    ((latchStep c).run s).stepBell c = s.bellNow := by
  have hb : s.bellNow < 2 ^ 64 := Nat.mod_lt _ (by decide)
  norm_num only at hb
  cases h : (s.croft c).reeve.repeated.isEmpty
  all_goals simp -implicitDefEqProofs [latchStep, latchBell, State.stepBell, h, modReeve, modCroft, State.reeve_eq]
  all_goals omega

theorem latchStep_reeve (c : Nat) (s : State) : ((latchStep c).run s).reeve c = { s.reeve c with repeated := [] } := by
  cases h : (s.croft c).reeve.repeated.isEmpty
  all_goals simp -implicitDefEqProofs [latchStep, latchBell, h, modReeve, modCroft, State.reeve_eq]
  rw [← List.isEmpty_iff.1 h]

theorem latchStep_only (c : Nat) : (latchStep c).Only (reeveTouch c).allows := by
  simp [latchStep, latchBell, reeveTouch, Prog.only_when]

theorem SameReeve.stepBell {c : Nat} {s t : State} (h : SameReeve c s t) : t.stepBell c = s.stepBell c := by
  simp only [State.stepBell, (h.2 _ (by decide : R.reeve_STEP_BELL_LO.off < 0x1000)).1, (h.2 _ (by decide : R.reeve_STEP_BELL_HI.off < 0x1000)).1]

theorem latchStep_bellNow (c : Nat) (s : State) : ((latchStep c).run s).bellNow = s.bellNow :=
  congrArg (fun d : Device => (d.bell / 10 ^ 9) % 2 ^ 64) ((Prog.keeps (latchStep_only c) s).dev id)

theorem each_latchStep (s : State) {k : Nat} (hk : k < 128) : ((Prog.each allCrofts latchStep).run s).stepBell k = s.bellNow ∧
    ((Prog.each allCrofts latchStep).run s).reeve k = { s.reeve k with repeated := [] } := by
  obtain ⟨u, ⟨hu, hbell⟩, hend, -⟩ := each_part (V := fun c s t => SameReeve c s t ∧ t.bellNow = s.bellNow) (fun c s => ⟨.refl c s, rfl⟩)
    (fun c _ _ _ h h' => ⟨h.1.trans c _ _ _ h'.1, h'.2.trans h.2⟩) List.nodup_range
    (fun c _ k _ hne t => ⟨(Prog.keeps (latchStep_only k) t).sameReeve hne, latchStep_bellNow k t⟩) s (List.mem_range.2 hk)
  exact ⟨hend.stepBell.trans ((latchStep_latches k u).trans hbell), hend.reeve.trans ((latchStep_reeve k u).trans (by rw [hu.reeve]))⟩

theorem Sparse.get?_eq_none {α : Type} {m : List (Nat × α)} {k : Nat} (h : ∀ e ∈ m, e.1 ≠ k) : Sparse.get? m k = none := by
  induction m with
  | nil => rfl
  | cons e m ih =>
    obtain ⟨j, v⟩ := e
    rw [Sparse.get?_cons, if_neg (h (j, v) (List.mem_cons_self ..)), ih fun e he => h e (List.mem_cons_of_mem _ he)]

theorem ledgerSwap_digest (b : Bool) (s : State) {dir link coll : Nat} (hd : dir < 2) (hl : link < 16) (hc : coll < 256) :
    ((ledgerSwap b).run s).digest 0 dir link coll = 0 := by
  have hkey : digestAt 0 dir link coll < digestAt 1 0 0 0 := by simp only [digestAt]; omega
  have hnone : Sparse.get? ((s.dev.digests.filter (fun e => decide (e.1 < digestAt 1 0 0 0))).map (fun e => (e.1 + digestAt 1 0 0 0, e.2)))
      (digestAt 0 dir link coll) = none := by
    refine Sparse.get?_eq_none fun e he => ?_
    obtain ⟨e', -, rfl⟩ := List.mem_map.1 he
    simp only
    omega
  have hd : ((ledgerSwap b).run s).dev.digests =
      (s.dev.digests.filter (fun e => decide (e.1 < digestAt 1 0 0 0))).map (fun e => (e.1 + digestAt 1 0 0 0, e.2)) := by
    simp -implicitDefEqProofs only [ledgerSwap, Prog.run_get, Prog.run_all_cons, Prog.run_all_nil]
    exact congrArg Device.digests ((Prog.keeps (T := { regs := fun _ => True }) (by simp [onReg]) _).dev id)
  rw [State.digest, hd, hnone]
  rfl

theorem ledgerSwap_keeps (b : Bool) (s : State) : Keeps { regs := offKinds [.numstep, .plan, .reeve], dev := True } s ((ledgerSwap b).run s) := by
  have hon (o : Nat) (ho : o < 0x1000) (g : Nat) (hg : g ≤ 1) : onReg (offKinds [.numstep, .plan, .reeve]) (pgLedger g) o :=
    onReg_offKinds ho (by simpa using hg) (by simp)
  exact Prog.keeps (by simp [ledgerSwap, hon]) s

theorem each_latchStep_keeps (l : List Nat) (s : State) :
    Keeps { regs := offKinds [.numstep, .plan], crofts := fun _ => True } s ((Prog.each l latchStep).run s) := by
  have hon (o : Nat) (ho : o < 0x1000) (c : Nat) : onReg (offKinds [.numstep, .plan]) (pgReeve c) o := onReg_offKinds ho (by simp) (by simp)
  exact Prog.keeps (by simp [latchStep, latchBell, Prog.only_when, hon]) s

theorem numericsBoundary_keeps (s : State) : Keeps { regs := offKinds [.reeve, .plan], dev := True } s (numericsBoundary.run s) := by
  have hon (o : Nat) (ho : o < 0x1000) : onReg (offKinds [.reeve, .plan]) pgNum o := onReg_offKinds ho (by simp) (by simp)
  refine Prog.keeps ((Prog.only_get _).2 fun t => ?_) s
  simp only [tallyBoundary, Prog.only_all_cons, Prog.only_all_nil, and_true, Prog.only_get]
  refine ⟨by simp [hon], by simp [hon], by simp [hon], by simp, fun u => ?_⟩
  refine ⟨by simp, ?_⟩
  split <;> simp [hon]

theorem numericsBoundary_start (d : Device) : numericsBoundary.Safe (looks startView d) := by
  simp [numericsBoundary, tallyBoundary]
  intro s _ u _
  split <;> simp

/-- What passing the boundary does. -/
theorem passBoundary_passes (s : State) :
    let t := passBoundary.run s
    t.dev.boundary = true ∧ t.dev.stopHere = s.bit pgPlan R.plan_STATUS_STOP_PENDING ∧ t.stepIndex = (s.stepIndex + 1) % 2 ^ 32 ∧
    t.fld pgNum R.numstep_STATUS_FALLBACKS = 0 ∧ t.bit pgNum R.numstep_STATUS_REPEATING = false ∧
    (∀ k < 128, t.stepBell k = s.bellNow ∧ t.reeve k = { s.reeve k with repeated := [] }) ∧
    ∀ dir < 2, ∀ link < 16, ∀ coll < 256, t.digest 0 dir link coll = 0 := by
  rw [passBoundary_run]
  have hnum := numericsBoundary_flds s
  have hnumk := numericsBoundary_keeps s
  have hbell : (numericsBoundary.run s).bellNow = s.bellNow :=
    congrArg (fun v : StartView => (v.bell / 10 ^ 9) % 2 ^ 64) (looks_run numericsBoundary_start s)
  generalize numericsBoundary.run s = a at *
  have hlat {k : Nat} (hk : k < 128) := each_latchStep a hk
  have hlatk := each_latchStep_keeps allCrofts a
  generalize (Prog.each allCrofts latchStep).run a = b at *
  have hdig {dir link coll : Nat} := ledgerSwap_digest false b (dir := dir) (link := link) (coll := coll)
  have hswapk := ledgerSwap_keeps false b
  generalize (ledgerSwap false).run b = c at *
  have htailk := boundaryTail_keeps c
  have hstart := looks_run boundaryTail_start c
  generalize boundaryTail.run c = d at *
  have hreg {q : Page} (hq : q.kind ∈ [Kind.numstep, .plan]) (hp : q.placed) {o : Nat} (ho : o < 0x1000) : d.reg q o = a.reg q o := by
    have hq' : q.kind ∈ [Kind.numstep, .plan, .reeve] := List.mem_append_left [Kind.reeve] hq
    rw [htailk.reg_eq (not_offKinds hq' hp ho), hswapk.reg_eq (not_offKinds hq' hp ho), hlatk.reg_eq (not_offKinds hq hp ho)]
  have hreeve (k o : Nat) (hk : k < 128) (ho : o < 0x1000) : d.reg (pgReeve k) o = b.reg (pgReeve k) o := by
    rw [htailk.reg_eq (not_offKinds (by simp) (by simp) ho), hswapk.reg_eq (not_offKinds (by simp) (by simp) ho)]
  refine ⟨rfl, ?_, ?_, ?_, ?_, fun k hk => ⟨?_, ?_⟩, fun dir hdir link hlink coll hcoll => ?_⟩
  · show d.bit _ _ = _
    rw [State.bit, State.fld_eq, hreg (by simp) (by simp) (by decide), hnumk.reg_eq (not_offKinds (by simp) (by simp) (by decide))]
    rfl
  · exact (congrArg R.numstep_STEP_INDEX.of (hreg (q := pgNum) (by simp) (by simp) (by decide))).trans hnum.1
  · exact (congrArg R.numstep_STATUS_FALLBACKS.of (hreg (q := pgNum) (by simp) (by simp) (by decide))).trans hnum.2.1
  · exact (congrArg (fun w => R.numstep_STATUS_REPEATING.of w != 0) (hreg (q := pgNum) (by simp) (by simp) (by decide))).trans hnum.2.2
  · exact ((congrArg₂ (fun l h => l.toNat + 2 ^ 32 * h.toNat) (hreeve k _ hk (by decide)) (hreeve k _ hk (by decide))).trans (hlat hk).1).trans hbell
  · have hcroft : d.croft k = b.croft k := (htailk.crofts k id).trans (hswapk.crofts k id)
    exact ((congrArg Croft.reeve hcroft).trans (hlat hk).2).trans (congrArg (fun c : Croft => { c.reeve with repeated := [] }) (hnumk.crofts k id))
  · refine Eq.trans ?_ (hdig hdir hlink hcoll)
    exact congrArg (fun m => (Sparse.get? m _).getD 0) (congrArg StartView.digests hstart)

/-! ### The release -/

/-- What a croft's leaving of the barrier may change: its reeve, and where a halt ends a stop or an abandonment, what they change. -/
def leaveTouch (c : Nat) : Touch := { regs := onPages [pgReeve c, pgOwn c, pgPlan], crofts := (· = c), links := fun _ => True, dev := True, seq := True }

theorem Keeps.leaves_sameReeve {c k : Nat} (h : c ≠ k) {s t : State} (hk : Keeps (leaveTouch k) s t) : SameReeve c s t := by
  have hc := croftBase_eq c
  have hk' := croftBase_eq k
  refine ⟨hk.crofts c h, fun o ho => ⟨hk.reg_eq ?_, hk.reg_eq ?_⟩⟩
  all_goals
    rintro ⟨p, hp, h1, h2⟩
    obtain rfl | rfl | rfl : p = pgReeve k ∨ p = pgOwn k ∨ p = pgPlan := by simpa using hp
    all_goals simp only [pgReeve, pgOwn, pgPlan, Page.base] at h1 h2; omega

theorem leaveBarrier_only (stop : Bool) (c : Nat) : (leaveBarrier stop c).Only (leaveTouch c).allows := by
  cases stop <;> simp [leaveBarrier, croftStops, countHalted, flood, sendFlits, leaveTouch, Prog.only_when]

/-- The crofts that wait at the barrier. -/
def State.atBarrier (s : State) : List Nat := allCrofts.filter (fun c => (s.reeve c).wait == .stepBarrier)

theorem mem_atBarrier {s : State} {c : Nat} : c ∈ s.atBarrier ↔ c < 128 ∧ (s.reeve c).wait = .stepBarrier := by
  simp [State.atBarrier, allCrofts]

/-- The boundary is behind. -/
def boundaryOver : Prog := modDev (fun d => { d with boundary := false, stopHere := false })

theorem exec_release {s : State} (h : s.releasable = true) : exec .stepBarrierRelease s = .next
    ((Prog.each s.atBarrier (leaveBarrier s.dev.stopHere)).run (boundaryOver.run s)) := by
  show execStepBarrierRelease s = _
  simp -implicitDefEqProofs only [execStepBarrierRelease, Prog.next_eq, Prog.run_get, h, if_true, Prog.run_all_cons, Prog.run_all_nil]
  rfl

/-- The frame of a croft that goes on at the barrier. -/
def goOnTouch : Touch where
  regs := someRegs ((List.range 128).flatMap (fun c => [(pgReeve c, [R.reeve_PC_INDEX, R.reeve_STEP_CNT]), (pgOwn c, [R.own_STATUS_PHASE])]))
  crofts := (· < 128)
  dev := True

theorem goOnTouch_reeve {c : Nat} (hc : c < 128) {f : Fld} (hf : f ∈ [R.reeve_PC_INDEX, R.reeve_STEP_CNT]) : onReg goOnTouch.regs (pgReeve c) f.off :=
  onReg_someRegs (List.mem_flatMap.2 ⟨c, List.mem_range.2 hc, List.mem_cons_self ..⟩) hf

theorem goOnTouch_own {c : Nat} (hc : c < 128) : onReg goOnTouch.regs (pgOwn c) R.own_STATUS_PHASE.off :=
  onReg_someRegs (List.mem_flatMap.2 ⟨c, List.mem_range.2 hc, List.mem_cons_of_mem _ (List.mem_cons_self ..)⟩) (List.mem_singleton_self _)

theorem leaveBarrier_goOn {c : Nat} (hc : c < 128) : (leaveBarrier false c).Only goOnTouch.allows := by
  have hpc := goOnTouch_reeve hc (f := R.reeve_PC_INDEX) (by simp)
  have hstep := goOnTouch_reeve hc (f := R.reeve_STEP_CNT) (by simp)
  have hphase := goOnTouch_own hc
  have hcroft : goOnTouch.crofts c := hc
  simp only [leaveBarrier, setPC, Prog.only_get, Prog.only_all_cons, Prog.only_all_nil, Bool.false_eq_true, if_false, modReeve_allows, setFld_allows, bump, bumpBy_allows]
  simp_all

theorem leaveBarrier_dev (c : Nat) (s : State) : ((leaveBarrier false c).run s).dev = s.dev :=
  (Prog.keeps (T := { reeveTouch c with dev := False }) (by simp [leaveBarrier, reeveTouch]) s).dev id

/-- A croft goes on from the barrier. -/
theorem leaveBarrier_false_run (c : Nat) (s : State) :
    let t := (leaveBarrier false c).run s
    t.pc c = s.fld (pgReeve c) R.reeve_ENTRY_INDEX ∧ t.phase c = 0 ∧ t.reeve c = { s.reeve c with reported := false, wait := .none } ∧
    Counts s t (pgReeve c) R.reeve_STEP_CNT 1 ∧ t.running c = s.running c := by
  have he : s.fld (pgReeve c) R.reeve_ENTRY_INDEX < 16777216 := State.fld_lt (by decide) s _
  refine ⟨?_, ?_, ?_, ?_, ?_⟩
  all_goals
    simp -implicitDefEqProofs [leaveBarrier, setPC, modReeve, modCroft, State.phase, State.running, State.bit, Counts, State.reeve_eq, he]

theorem croftStops_own (c : Nat) (s : State) {o : Nat} (ho : o < 0x1000) : ((croftStops c).run s).reg (pgOwn c) o = s.reg (pgOwn c) o := by
  have hc := croftBase_eq c
  refine (Prog.keeps (T := { leaveTouch c with regs := onPages [pgReeve c, pgPlan] })
    (by simp [croftStops, countHalted, flood, sendFlits, leaveTouch, Prog.only_when]) s).reg_eq ?_
  rintro ⟨p, hp, h1, h2⟩
  obtain rfl | rfl : p = pgReeve c ∨ p = pgPlan := by simpa using hp
  all_goals simp only [pgReeve, pgOwn, pgPlan, Page.base] at h1 h2; omega

/-- A croft halts at the barrier. -/
theorem leaveBarrier_true_run (c : Nat) (s : State) :
    let t := (leaveBarrier true c).run s
    t.pc c = s.fld (pgReeve c) R.reeve_ENTRY_INDEX ∧ t.phase c = 0 ∧ t.running c = false ∧
    t.bit (pgReeve c) R.reeve_STATUS_HALTED = true ∧ t.fld (pgReeve c) R.reeve_STATUS_HALT_REASON = 6 := by
  have he : s.fld (pgReeve c) R.reeve_ENTRY_INDEX < 16777216 := State.fld_lt (by decide) s _
  rw [show (leaveBarrier true c).run s = (croftStops c).run ((Prog.all [modReeve c (fun r => { r with reported := false, wait := .none }),
    setFld (pgOwn c) R.own_STATUS_PHASE 0, setPC c (s.fld (pgReeve c) R.reeve_ENTRY_INDEX), setFld (pgReeve c) R.reeve_STATUS_HALT_REASON 6]).run s) by
      simp -implicitDefEqProofs only [leaveBarrier, Prog.run_get, if_true, Prog.run_all_cons, Prog.run_all_nil]]
  generalize hu : (Prog.all _).run s = u
  obtain ⟨hrun, hhalted, hreason, -⟩ := croftStops_run c u
  refine ⟨(congrArg R.reeve_PC_INDEX.of (croftStops_reg (by decide) c u)).trans ?_, (congrArg R.own_STATUS_PHASE.of (croftStops_own c u (by decide))).trans ?_, hrun, hhalted, hreason.trans ?_⟩
  · rw [← hu]; simp -implicitDefEqProofs [setPC, modReeve, modCroft, he]
  · rw [← hu]; simp -implicitDefEqProofs [setPC, modReeve, modCroft]
  · rw [← hu]; simp -implicitDefEqProofs [setPC, modReeve, modCroft]

/-- What each croft at the barrier does is what the release does to it. -/
theorem release_croft (stop : Bool) {l : List Nat} (hl : l.Nodup) (s : State) {c : Nat} (hc : c ∈ l) :
    ∃ u, SameReeve c s u ∧ SameReeve c ((leaveBarrier stop c).run u) ((Prog.each l (leaveBarrier stop)).run s) :=
  each_part SameReeve.refl SameReeve.trans hl (fun _ _ k _ hne t => (Prog.keeps (leaveBarrier_only stop k) t).leaves_sameReeve hne) s hc

theorem release_aside (stop : Bool) {l : List Nat} (s : State) {c : Nat} (hc : c ∉ l) :
    ((Prog.each l (leaveBarrier stop)).run s).croft c = s.croft c :=
  (each_aside (SameReeve.refl c) (SameReeve.trans c) (fun k hk t => (Prog.keeps (leaveBarrier_only stop k) t).leaves_sameReeve
    fun e : c = k => hc (by rwa [e])) s).1

theorem atBarrier_nodup (s : State) : s.atBarrier.Nodup := List.nodup_range.filter _

theorem release_start (stop : Bool) (l : List Nat) (d : Device) : (Prog.each l (leaveBarrier stop)).Safe (looks startView d) := by
  cases stop <;> simp [leaveBarrier, croftStops, countHalted, flood_start, setPC]

/-- Settles O28: the report of the last croft passes the boundary, and each croft at the barrier leaves it by one sequence of writes. -/
theorem boundariesArePassedAndReleased : Obligations.BoundariesArePassedAndReleased := by
  unfold Obligations.BoundariesArePassedAndReleased
  refine ⟨?report, ?waits, ?goesOn, ?stops⟩
  case report =>
    intro s c h
    refine ⟨_, exec_stepReport h, ?_, fun hn => ?_, fun hb hne hall => ?_⟩
    · split
      · obtain ⟨-, -, -, -, -, hcrofts, -⟩ := passBoundary_passes ((reports c.val).run s)
        rw [(hcrofts c.val c.isLt).2]
        simp [reports, modReeve, modCroft, State.reeve_eq]
      · simp [reports, modReeve, modCroft, State.reeve_eq]
    · rw [if_neg]
      · exact Prog.keeps (by simp [reports]) s
      · rw [reports_allReported_iff]
        rintro ⟨hb, -, hall⟩
        rcases hn with hn | ⟨k, hk, hne, hrep⟩
        · simp [hb] at hn
        · simp [hall k hk hne] at hrep
    · rw [if_pos ((reports_allReported_iff c.val s).2 ⟨hb, hne, hall⟩)]
      obtain ⟨h1, h2, h3, h4, h5, hcrofts, h7⟩ := passBoundary_passes ((reports c.val).run s)
      exact ⟨h1, h2, h3, h4, h5, fun k hk => ⟨(hcrofts k hk).1, by rw [(hcrofts k hk).2]⟩, h7⟩
  case waits =>
    intro s h
    show execStepBarrierRelease s = _
    simp only [execStepBarrierRelease, Prog.next_eq, Prog.run_get, h, Bool.false_eq_true, if_false]
    rfl
  case goesOn =>
    intro s h hstop
    refine ⟨_, exec_release h, ?_, fun c hc hw => ?_, fun c hc => ?_, ?_⟩
    all_goals rw [hstop]
    · exact each_aside (V := fun s t => t.dev = s.dev) (fun _ => rfl) (fun _ _ _ h h' => h'.trans h) (fun c _ t => leaveBarrier_dev c t) _
    · obtain ⟨u, hu, hend⟩ := release_croft false (atBarrier_nodup s) (boundaryOver.run s) (mem_atBarrier.2 ⟨hc, hw⟩)
      obtain ⟨hpc, hphase, hreeve, hcnt, hrun⟩ := leaveBarrier_false_run c u
      refine ⟨?_, ?_, hend.reeve.trans (hreeve.trans (by rw [hu.reeve]; rfl)), ?_, ?_⟩
      · exact (hend.fld (by decide)).1.trans (hpc.trans (hu.fld (by decide)).1)
      · exact (hend.fld (by decide)).2.trans hphase
      · exact ((hend.2 _ (by decide)).1.trans hcnt).trans (congrArg (satAdd · 1) (hu.2 _ (by decide)).1)
      · exact (hend.bit (by decide)).trans (hrun.trans (hu.bit (by decide)))
    · exact release_aside false _ fun hm => (mem_atBarrier.1 hm).elim fun hlt hw => hc.elim (absurd hlt ∘ Nat.not_lt.2) (absurd hw)
    · exact (Prog.keeps (by simp [boundaryOver]) s).trans (Prog.keeps ((Prog.only_each ..).2 fun c hc => leaveBarrier_goOn (mem_atBarrier.1 hc).1) _)
  case stops =>
    intro s h hstop
    refine ⟨_, exec_release h, ?_, fun c hc hw => ?_, fun c hc => ?_, fun a => ?_⟩
    all_goals rw [hstop]
    · exact congrArg StartView.boundary (looks_run (release_start true _) _)
    · obtain ⟨u, hu, hend⟩ := release_croft true (atBarrier_nodup s) (boundaryOver.run s) (mem_atBarrier.2 ⟨hc, hw⟩)
      obtain ⟨hpc, hphase, hrun, hhalted, hreason⟩ := leaveBarrier_true_run c u
      refine ⟨?_, ?_, ?_, ?_, ?_⟩
      · exact (hend.fld (by decide)).1.trans (hpc.trans (hu.fld (by decide)).1)
      · exact (hend.fld (by decide)).2.trans hphase
      · exact (hend.bit (by decide)).trans hrun
      · exact (hend.bit (by decide)).trans hhalted
      · exact (hend.fld (by decide)).1.trans hreason
    · exact release_aside true _ fun hm => (mem_atBarrier.1 hm).elim fun hlt hw => hc.elim (absurd hlt ∘ Nat.not_lt.2) (absurd hw)
    · have hmem := Prog.mem_eq (p := Prog.each s.atBarrier (leaveBarrier true))
        (by simp [leaveBarrier, croftStops, countHalted, flood, sendFlits, setPC, Prog.only_when]) (boundaryOver.run s)
      exact congrArg (Memory.read · a) hmem

end Sys2Proof.Machine
end

open Host
section
/-! SUPPORT. What a loop establishes. -/
namespace Sys2Proof.Machine

/-- What a loop establishes for each of its parts, where no other part undoes it. -/
theorem each_establishes {β : Type} {Q : β → State → Prop} {l : List β} {f : β → Prog} (hf : ∀ x ∈ l, ∀ s, Q x ((f x).run s))
    (hkeep : ∀ x ∈ l, ∀ y ∈ l, ∀ s, Q x s → Q x ((f y).run s)) (s : State) : ∀ x ∈ l, Q x ((Prog.each l f).run s) := by
  have hrest (x : β) (k : List β) (hk : ∀ y ∈ k, ∀ s, Q x s → Q x ((f y).run s)) (s : State) : Q x s → Q x ((Prog.each k f).run s) := by
    induction k generalizing s with
    | nil => exact id
    | cons y k ih =>
      rw [Prog.run_each_cons]
      exact fun h => ih (fun z hz => hk z (List.mem_cons_of_mem _ hz)) _ (hk y (List.mem_cons_self ..) s h)
  induction l generalizing s with
  | nil => exact fun _ h => nomatch h
  | cons z l ih =>
    intro x hx
    rw [Prog.run_each_cons]
    rcases List.mem_cons.1 hx with rfl | hxl
    · exact hrest x l (fun y hy => hkeep x hx y (List.mem_cons_of_mem _ hy)) _ (hf x hx s)
    · exact ih (fun y hy => hf y (List.mem_cons_of_mem _ hy))
        (fun y hy w hw => hkeep y (List.mem_cons_of_mem _ hy) w (List.mem_cons_of_mem _ hw)) _ x hxl

end Sys2Proof.Machine
end

section
/-! O54: firmware reaches the cores, and starts end (R499, R501, R502, R503, R507, R508, R511, R512, R514). -/
namespace Sys2Proof.Machine

variable {s : State}

/-! ### Firmware packets -/

/-- Whether a packet for a kind of core, or for one of them alone, reaches a core's load. -/
def packetReaches (kind : CoreKind) (only : Option (BitVec 16)) (l : CoreLoad) : Bool :=
  l.core.kind == CoreKind.page kind && (match only with | some u => u.toNat == l.core.inst | none => true)

/-- What a load lacks beside a packet. -/
def CoreLoad.left (n : BitVec 16) (l : CoreLoad) : List Nat := l.lacks.filter (· != n.toNat)

/-- What the packet leaves of a load. -/
def packetLeaves (kind : CoreKind) (n : BitVec 16) (only : Option (BitVec 16)) (lost differ : List Nat) (l : CoreLoad) : List CoreLoad :=
  if !packetReaches kind only l || lost.contains l.core.inst then [l]
  else
    if !(l.left n).isEmpty then [{ l with lacks := l.left n }]
    else if l.lacks.contains n.toNat && differ.contains l.core.inst then [{ l with lacks := List.range (packetsOf l.core) }]
    else []

/-- The cores store a packet. -/
def packetStored (kind : CoreKind) (n : BitVec 16) (only : Option (BitVec 16)) (lost differ : List Nat) : Prog := .all [
  Prog.when only.isSome (bump pgDevctl R.devctl_REPAIR_CNT),
  modBoot (fun b => { b with loads := b.loads.flatMap (packetLeaves kind n only lost differ) }),
  broadcastEnds]

/-- The first packet of a start. -/
def firstPacket (stored : Prog) : Prog := identified (.all [setPhase 4, modMailbox (fun m => { m with mstate := 0 }), stored])

theorem exec_fwPacket (kind : CoreKind) (n : BitVec 16) (only : Option (BitVec 16)) (lost differ : List Nat) (s : State) :
    exec (.fwPacket kind n only lost differ) s = .next (
      if ¬ s.dev.boot.loads.any (packetReaches kind only) then s
      else if s.deviceReset = true ∧ s.dev.boot.released = true ∧ s.bootPhase < 4 then
        (firstPacket (packetStored kind n only lost differ)).run s
      else (packetStored kind n only lost differ).run s) := by
  show execFwPacket kind n only lost differ s = _
  simp -implicitDefEqProofs only [execFwPacket, Prog.next_eq, Prog.run_get, Prog.run_ite, Prog.run_done]
  refine congrArg _ (if_congr (Iff.trans (b := (!s.dev.boot.loads.any (packetReaches kind only)) = true) Iff.rfl (by simp)) rfl (if_congr (by simp [and_assoc]) rfl rfl))

theorem packetReaches_iff {kind : CoreKind} {only : Option (BitVec 16)} {l : CoreLoad} : packetReaches kind only l = true ↔
    l.core.kind = CoreKind.page kind ∧ ∀ u, only = some u → u.toNat = l.core.inst := by
  cases only <;> simp [packetReaches]

theorem identified_run (k : Prog) (s : State) : (identified k).run s =
    if s.dev.boot.enrolled = false then (startStops 3 (Config.openWord s.seq).toNat).run (Act.seq.apply s)
    else if s.dev.boot.trim = .own then k.run ((modBoot (fun b => { b with enrol := .committed })).run s)
    else (startStops 1 (Config.openWord s.seq).toNat).run (Act.seq.apply ((modBoot (fun b => { b with enrol := .committed })).run s)) := by
  simp -implicitDefEqProofs only [identified, Prog.run_get, Prog.run_ite, Prog.run_all_cons, Prog.run_all_nil, Prog.run_eff]
  refine if_congr (by simp) rfl ?_
  split <;> rfl

theorem broadcastEnds_keeps (s : State) : Keeps { regs := theRegs pgDevctl [R.devctl_BOOT_PHASE] } s (broadcastEnds.run s) :=
  Prog.keeps (by simp [broadcastEnds, setPhase, Prog.only_when]) s

theorem broadcastEnds_phase (h : 4 ≤ s.bootPhase) : 4 ≤ (broadcastEnds.run s).bootPhase := by
  simp -implicitDefEqProofs only [broadcastEnds, Prog.run_get, Prog.run_when]
  split
  · split <;> simp -implicitDefEqProofs [setPhase, State.bootPhase]
  · exact h

/-- What the loads hold once the packet is stored. -/
theorem packetStored_run (kind : CoreKind) (n : BitVec 16) (only : Option (BitVec 16)) (lost differ : List Nat) (s : State) :
    let t := (packetStored kind n only lost differ).run s
    t.dev = { s.dev with boot := { s.dev.boot with loads := s.dev.boot.loads.flatMap (packetLeaves kind n only lost differ) } } ∧
    (only.isSome = true → Counts s t pgDevctl R.devctl_REPAIR_CNT 1) ∧ (4 ≤ s.bootPhase → 4 ≤ t.bootPhase) ∧
    Keeps { regs := theRegs pgDevctl ([R.devctl_BOOT_PHASE] ++ if only.isSome then [R.devctl_REPAIR_CNT] else []), dev := True } s t := by
  have hends := broadcastEnds_keeps
  have hphase (u : State) : 4 ≤ u.bootPhase → 4 ≤ (broadcastEnds.run u).bootPhase := broadcastEnds_phase
  refine ⟨?_, fun hs => ?_, fun h4 => ?_, Prog.keeps ?_ s⟩
  case refine_4 => cases h : only.isSome <;> simp [packetStored, broadcastEnds, setPhase, Prog.only_when, h]
  all_goals cases h : only.isSome
  all_goals simp -implicitDefEqProofs only [packetStored, Prog.run_all_cons, Prog.run_all_nil, h, Prog.run_when_true, Prog.run_when_false]
  · exact (hends _).dev id
  · exact (hends _).dev id
  · simp [h] at hs
  · exact ((hends _).reg_eq (not_theRegs_offset (by decide) _)).trans (bumpBy_run pgDevctl R.devctl_REPAIR_CNT 1 s).1
  · exact hphase _ h4
  · refine hphase _ (le_of_le_of_eq h4 (congrArg R.devctl_BOOT_PHASE.of (Eq.symm ?_)))
    exact (bumpBy_run pgDevctl R.devctl_REPAIR_CNT 1 s).2.reg_eq (not_theRegs_offset (by decide) _)

section
variable {kind : CoreKind} {n : BitVec 16} {only : Option (BitVec 16)} {lost differ : List Nat} {l l' : CoreLoad}

/-- The load gets the packet. -/
def packetGets (kind : CoreKind) (only : Option (BitVec 16)) (lost : List Nat) (l : CoreLoad) : Prop :=
  (l.core.kind = CoreKind.page kind ∧ ∀ u, only = some u → u.toNat = l.core.inst) ∧ l.core.inst ∉ lost

theorem packetLeaves_aside (h : ¬ packetGets kind only lost l) : packetLeaves kind n only lost differ l = [l] := by
  rw [packetLeaves, if_pos]
  by_contra hn
  simp only [Bool.or_eq_true, Bool.not_eq_true', List.contains_iff_mem, not_or, Bool.not_eq_false, packetReaches_iff] at hn
  exact h hn

theorem packetLeaves_gets (h : packetGets kind only lost l) : packetLeaves kind n only lost differ l =
    if l.left n ≠ [] then [{ l with lacks := l.left n }]
    else if n.toNat ∈ l.lacks ∧ l.core.inst ∈ differ then [{ l with lacks := List.range (packetsOf l.core) }] else [] := by
  obtain ⟨hr, hl⟩ := h
  rw [packetLeaves, if_neg (by simp [packetReaches_iff.2 hr, hl])]
  exact if_congr (by simp) rfl (if_congr (by simp) rfl rfl)

theorem mem_packetLeaves (h : l' ∈ packetLeaves kind n only lost differ l) : (l' = l ∧ ¬ packetGets kind only lost l) ∨
    (packetGets kind only lost l ∧ l'.core = l.core ∧ l'.round = l.round ∧ (l.left n ≠ [] ∨ l.core.inst ∈ differ)) := by
  by_cases hg : packetGets kind only lost l
  · rw [packetLeaves_gets hg] at h
    split at h
    case isTrue hleft => exact .inr ⟨hg, by simp_all⟩
    case isFalse =>
      split at h
      case isTrue hd => exact .inr ⟨hg, by simp_all⟩
      case isFalse => simp at h
  · rw [packetLeaves_aside hg] at h
    exact .inl ⟨List.mem_singleton.1 h, hg⟩

end

/-- What the first packet of a start finds: Orarn's identity and a free mailbox. -/
def packetFirst : Prog := .all [
  modBoot (fun b => { b with enrol := .committed }), setPhase 4, modMailbox (fun m => { m with mstate := 0 })]

theorem packetFirst_run (s : State) :
    let t := packetFirst.run s
    t.dev.boot = { s.dev.boot with enrol := .committed } ∧ t.bootPhase = 4 ∧ t.dev.host.mailbox.mstate = 0 ∧
    Keeps { regs := theRegs pgDevctl [R.devctl_BOOT_PHASE], dev := True } s t := by
  refine ⟨rfl, ?_, rfl, Prog.keeps (by simp [packetFirst, setPhase]) s⟩
  simp -implicitDefEqProofs [packetFirst, setPhase, State.bootPhase, modMailbox, modHost, modDev]

theorem firstPacket_run {stored : Prog} (he : s.dev.boot.enrolled = true) (ht : s.dev.boot.trim = .own) :
    (firstPacket stored).run s = stored.run (packetFirst.run s) := by
  rw [firstPacket, identified_run, if_neg (by simp [he]), if_pos ht]
  simp -implicitDefEqProofs only [packetFirst, Prog.run_all_cons, Prog.run_all_nil]

/-- Orarn commits the identity. -/
def commits : Prog := modBoot (fun b => { b with enrol := .committed })

theorem identified_goes {k : Prog} (he : s.dev.boot.enrolled = true) (ht : s.dev.boot.trim = .own) :
    (identified k).run s = k.run (commits.run s) := by
  rw [identified_run, if_neg (by simp [he]), if_pos ht, commits]

/-- A start stops where Orarn finds no identity or the trim image is another device's. -/
theorem identified_stops (k : Prog) (s : State) {code : Nat}
    (h : (s.dev.boot.enrolled = false ∧ code = 3) ∨ (s.dev.boot.enrolled = true ∧ s.dev.boot.trim ≠ .own ∧ code = 1)) :
    let t := (identified k).run s
    t.bootPhase = phStopped ∧ t.fld pgDevctl R.devctl_BOOT_STOP = code ∧ t.dev.faultN = true ∧ t.mem = s.mem := by
  rw [identified_run]
  rcases h with ⟨he, rfl⟩ | ⟨he, ht, rfl⟩
  · rw [if_pos he]
    obtain ⟨hf, -, -, hp, hs, -, -, -, -⟩ := startStops_stops (code := 3) (by decide) (Config.openWord s.seq).toNat (Act.seq.apply s)
    exact ⟨hp, hs, hf, Prog.mem_eq (by simp [startStops, setPhase]) _⟩
  · rw [if_neg (by simp [he]), if_neg ht]
    obtain ⟨hf, -, -, hp, hs, -, -, -, -⟩ := startStops_stops (code := 1) (by decide) (Config.openWord s.seq).toNat
      (Act.seq.apply ((modBoot (fun b => { b with enrol := .committed })).run s))
    exact ⟨hp, hs, hf, Prog.mem_eq (by simp [startStops, setPhase]) _⟩

/-! ### Repair reports -/

/-- A unit is named by an entry of the list or by a finding of this start. -/
def State.named (s : State) (k : Nat × Nat) : Prop := ∃ e ∈ s.defectList ++ s.dev.boot.found, e.kind = k.1 ∧ e.unit = k.2

theorem retire_dev (kind unit detail : Nat) (s : State) : ∃ found runtime unwritten, ((retire kind unit detail).run s).dev =
    { s.dev with boot := { s.dev.boot with
        found := s.dev.boot.found ++ found, runtime := s.dev.boot.runtime ++ runtime, unwritten := s.dev.boot.unwritten ++ unwritten } } := by
  simp -implicitDefEqProofs only [retire, Prog.run_get, Prog.run_ite, Prog.run_all_cons, Prog.run_all_nil, Prog.run_done]
  split
  · exact ⟨[], [], [], by simp⟩
  · split
    · exact ⟨[⟨kind, 1, unit, detail, s.dev.boot.starts⟩], [], [], by simp -implicitDefEqProofs [modBoot, modDev]⟩
    · exact ⟨[], [⟨kind, 2, unit, detail, s.dev.boot.starts⟩], [⟨kind, 2, unit, detail, s.dev.boot.starts⟩], by
        simp -implicitDefEqProofs [modBoot, modDev]⟩

theorem retire_only {T : Touch} (hd : T.dev) (hr : onReg T.regs pgDevctl R.devctl_RETIRE_CNT.off) (kind unit detail : Nat) :
    (retire kind unit detail).Only T.allows := by
  refine (Prog.only_get _).2 fun u => ?_
  dsimp only
  split
  · simp
  · split <;> simp_all

theorem retire_names (kind unit detail : Nat) (s : State) : ((retire kind unit detail).run s).named (kind, unit) := by
  simp -implicitDefEqProofs only [retire, Prog.run_get, Prog.run_ite, Prog.run_all_cons, Prog.run_all_nil, Prog.run_done]
  split
  case isTrue h =>
    have h' : ∃ e ∈ s.defectList ++ s.dev.boot.found, (e.kind == kind && e.unit == unit) = true := by
      simp only [State.retiredBy, List.find?_isSome, Bool.or_eq_true, List.any_eq_true] at h
      simp only [List.mem_append]
      rcases h with ⟨e, he, hk⟩ | ⟨e, he, hk⟩
      · exact ⟨e, .inl he, hk⟩
      · exact ⟨e, .inr he, hk⟩
    obtain ⟨e, he, hk⟩ := h'
    exact ⟨e, he, by simpa using hk⟩
  case isFalse =>
    split
    · exact ⟨⟨kind, 1, unit, detail, s.dev.boot.starts⟩, List.mem_append_right _ (List.mem_append_right _ (List.mem_singleton_self _)), rfl, rfl⟩
    · refine ⟨⟨kind, 2, unit, detail, s.dev.boot.starts⟩, List.mem_append_left _ (List.mem_append_right _ (List.mem_append_right _ ?_)), rfl, rfl⟩
      exact List.mem_singleton_self _

theorem State.named.retire {k : Nat × Nat} (h : s.named k) (kind unit detail : Nat) : ((retire kind unit detail).run s).named k := by
  obtain ⟨f, r, u, hd⟩ := retire_dev kind unit detail s
  obtain ⟨e, he, hk⟩ := h
  refine ⟨e, ?_, hk⟩
  simp only [State.defectList, hd, List.mem_append] at he ⊢
  tauto

/-- The loads of the third round are retired. -/
def retireLoads (ls : List CoreLoad) : Prog := Prog.each ls (fun l => retire (coreEntry l.core).1 (coreEntry l.core).2 2)

theorem retireLoads_names (ls : List CoreLoad) (s : State) {l : CoreLoad} (hl : l ∈ ls) :
    ((retireLoads ls).run s).named (coreEntry l.core) := by
  exact each_establishes (Q := fun (l : CoreLoad) s => s.named (coreEntry l.core)) (fun l _ t => retire_names _ _ _ t)
    (fun l _ l' _ t h => h.retire _ _ _) s l hl

theorem retireLoads_loads (ls : List CoreLoad) (s : State) : ((retireLoads ls).run s).dev.boot.loads = s.dev.boot.loads :=
  each_aside (V := fun s t => t.dev.boot.loads = s.dev.boot.loads) (fun _ => rfl) (fun _ _ _ h h' => h'.trans h)
    (fun l _ t => by obtain ⟨f, r, u, hd⟩ := retire_dev (coreEntry l.core).1 (coreEntry l.core).2 2 t; rw [hd]) s

/-- The frame of the reports. -/
def reportTouch : Touch := { regs := theRegs pgDevctl [R.devctl_BOOT_PHASE, R.devctl_RETIRE_CNT], dev := True }

/-- The reports of a round: every load counts it. -/
def roundCounts : Prog := modBoot (fun b => { b with loads := b.loads.map (fun l => { l with round := l.round + 1 }) })

theorem exec_repairReport (s : State) : exec .repairReport s = .next (broadcastEnds.run (dropRetired.run
    ((retireLoads ((s.dev.boot.loads.map (fun l => { l with round := l.round + 1 })).filter (fun l => decide (4 ≤ l.round)))).run
      (roundCounts.run s)))) := by
  show execRepairReport s = _
  simp -implicitDefEqProofs only [execRepairReport, Prog.next_eq, Prog.run_all_cons, Prog.run_all_nil, Prog.run_get]
  rfl

theorem retiredCore_of_entry {p : Page} (h : (s.retiredBy (coreEntry p).1 (coreEntry p).2).isSome = true) : s.retiredCore p = true := by
  obtain ⟨k, n⟩ := p
  cases k <;> simp_all [coreEntry, State.retiredCore, State.retiredWell, State.retiredPump, State.retiredCroft]

/-- A core that an entry or a finding names is dropped. -/
theorem dropRetired_drops {l : CoreLoad} (h : s.named (coreEntry l.core)) : l ∉ (dropRetired.run s).dev.boot.loads := by
  obtain ⟨e, he, hk, hu⟩ := h
  intro hl
  obtain ⟨-, hkeep⟩ := List.mem_filter.1 hl
  simp only [Bool.and_eq_true, Bool.not_eq_true'] at hkeep
  obtain ⟨hret, hfound⟩ := hkeep
  rcases List.mem_append.1 he with he | he
  · have hby : (s.retiredBy (coreEntry l.core).1 (coreEntry l.core).2).isSome = true := by
      rw [State.retiredBy, List.find?_isSome]
      exact ⟨e, he, by simp [hk, hu]⟩
    rw [retiredCore_of_entry hby] at hret
    exact Bool.noConfusion hret
  · refine absurd (List.any_eq_true.2 ⟨e, he, ?_⟩) (Bool.eq_false_iff.1 hfound)
    simp [hk, hu]

/-! ### Crofts that leave reset -/

/-- What a croft leaves reset with. -/
def renewCroft (c : Nat) : Prog := .all [clearCroft c, clearSlice c, Prog.each (wellsOf c) rebuildWell]

/-- No queue of a croft holds anything. -/
def queueFree (c : Nat) (s : State) : Prop := ∀ e ∈ s.queues, e.1 / 128 ≠ c

/-- A croft has left reset. -/
structure Fresh (c : Nat) (s : State) : Prop where
  croft : s.croft c = {}
  slice : ∀ x, ofSlice c x → s.byte x = 0
  queues : queueFree c s

/-- What rebuilding a croft's wells may change. -/
def rebuildTouch : Touch := { regs := fun _ => True, wells := fun _ => True }

theorem rebuildWell_only (w : Nat) : (rebuildWell w).Only rebuildTouch.allows := by
  simp [rebuildWell, setDue, showDue, rebuildTouch, Prog.only_when, onReg]

theorem queues_eq {T : Touch} (hq : ∀ a, ¬ T.queues a) {p : Prog} (h : p.Only T.allows) (s : State) : (p.run s).queues = s.queues := by
  refine Prog.Only.keeps State.queues (fun a s ha => ?_) h s
  cases a with
  | queue c r => exact absurd ha (hq c)
  | queueErase lo hi =>
    refine List.filter_eq_self.2 fun e _ => ?_
    have := fun h1 h2 => hq _ (ha e.1 h1 h2)
    simpa [imp_iff_or_not, or_comm] using this
  | _ => rfl

/-- What keeps a fresh croft fresh. -/
theorem Fresh.only {T : Touch} (hc : ∀ a, ¬ T.crofts a) (hm : ∀ a, ¬ T.mem a) (hq : ∀ a, ¬ T.queues a) {p : Prog} (h : p.Only T.allows)
    {c : Nat} (hf : Fresh c s) : Fresh c (p.run s) where
  croft := ((Prog.keeps h s).crofts c (hc c)).trans hf.croft
  slice x hx := ((Prog.keeps h s).mem x (hm x)).trans (hf.slice x hx)
  queues := by
    rw [queueFree, queues_eq hq h]
    exact hf.queues

theorem clears_run (c : Nat) (s : State) :
    let t := (clearSlice c).run ((clearCroft c).run s)
    (∀ k, t.croft k = if c ≤ k ∧ k < c + 1 then {} else s.croft k) ∧
    (∀ x, t.byte x = if sliceAddr c 0 ≤ x ∧ x < sliceAddr c sliceSize then 0 else s.byte x) ∧
    t.queues = Sparse.eraseRange s.queues (c * 128) (c * 128 + 128) := by
  refine ⟨fun k => ?_, fun x => ?_, ?_⟩
  · have h : ((clearSlice c).run ((clearCroft c).run s)).croft k = ((Act.croftErase c (c + 1)).apply s).croft k := rfl
    rw [h, croft_croftErase]
  · have h : ((clearSlice c).run ((clearCroft c).run s)).byte x = ((Act.memErase (sliceAddr c 0) (sliceAddr c sliceSize)).apply s).byte x := rfl
    rw [h, byte_memErase]
  · rfl

theorem renewCroft_run (c : Nat) (s : State) : (renewCroft c).run s =
    (Prog.each (wellsOf c) rebuildWell).run ((clearSlice c).run ((clearCroft c).run s)) := by
  simp only [renewCroft, Prog.run_all_cons, Prog.run_all_nil]

theorem Fresh.rebuilds {c : Nat} (h : Fresh c s) (l : List Nat) : Fresh c ((Prog.each l rebuildWell).run s) :=
  h.only (T := rebuildTouch) (fun _ h => h) (fun _ h => h) (fun _ h => h) ((Prog.only_each ..).2 fun w _ => rebuildWell_only w)

theorem renewCroft_fresh (c : Nat) (s : State) : Fresh c ((renewCroft c).run s) := by
  obtain ⟨hc, hm, hq⟩ := clears_run c s
  rw [renewCroft_run]
  refine Fresh.rebuilds ⟨(hc c).trans (if_pos ⟨le_rfl, by omega⟩), fun x hx => (hm x).trans (if_pos hx), fun e he => ?_⟩ _
  rw [hq] at he
  have := (List.mem_filter.1 he).2
  simp only [Bool.not_eq_true', Bool.and_eq_false_iff, decide_eq_false_iff_not] at this
  omega

theorem Fresh.renewCroft {c : Nat} (h : Fresh c s) (c' : Nat) : Fresh c ((renewCroft c').run s) := by
  obtain ⟨hc, hm, hq⟩ := clears_run c' s
  rw [renewCroft_run]
  refine Fresh.rebuilds ⟨(hc c).trans ?_, fun x hx => (hm x).trans ?_, fun e he => ?_⟩ _
  · rw [h.croft, ite_self]
  · rw [h.slice x hx, ite_self]
  · rw [hq] at he
    exact h.queues e (List.mem_filter.1 he).1

/-- The device's reset is over. -/
def deviceOver : Prog := modDev (fun d => { d with resets := d.resets.filter (fun r => r.grain != .device) })

theorem resetOver_device_run (s : State) : (resetOver .device).run s = (Prog.each allCrofts renewCroft).run (deviceOver.run s) := by
  simp -implicitDefEqProofs only [resetOver, grainLeaves, Prog.run_all_cons, Prog.run_all_nil]
  rfl

theorem resetOver_device_fresh (s : State) {c : Nat} (hc : c < 128) : Fresh c ((resetOver .device).run s) := by
  rw [resetOver_device_run]
  exact each_establishes (Q := Fresh) (l := allCrofts) (fun c _ s => renewCroft_fresh c s) (fun _ _ c' _ _ h => h.renewCroft c')
    (deviceOver.run s) c (List.mem_range.2 hc)

theorem renewCroft_start (c : Nat) (d : Device) : (renewCroft c).Safe (looks startView d) := by
  simp [renewCroft, clearCroft, clearSlice, rebuildWell, setDue, showDue]

theorem resetOver_device_boot (s : State) : ((resetOver .device).run s).dev.boot = s.dev.boot := by
  rw [resetOver_device_run]
  have h : startView ((Prog.each allCrofts renewCroft).run (deviceOver.run s)).dev = startView (deviceOver.run s).dev :=
    looks_run (fun d => by simp [renewCroft_start]) (deviceOver.run s)
  generalize (Prog.each allCrofts renewCroft).run (deviceOver.run s) = t at *
  exact congrArg StartView.boot h

/-- The bytes outside the slices. -/
def deviceLeaves : Touch where
  regs := fun _ => True
  mem := fun x => ∃ c < 128, ofSlice c x
  crofts := fun _ => True
  wells := fun _ => True
  pumps := fun _ => True
  queues := fun _ => True
  dev := True

theorem renewCroft_only {c : Nat} (hc : c < 128) : (renewCroft c).Only deviceLeaves.allows := by
  simp only [renewCroft, clearCroft, clearSlice, rebuildWell, setDue, showDue, Prog.only_all_cons, Prog.only_all_nil, Prog.only_get,
    Prog.only_each, Prog.only_eff, and_true]
  refine ⟨?_, ?_, fun w _ => ?_⟩
  · simp [deviceLeaves, Touch.allows]
  · exact ⟨fun x h1 h2 => ⟨c, hc, h1, h2⟩, by simp [deviceLeaves]⟩
  · simp [deviceLeaves, Prog.only_when, onReg]

/-! ### The device reads READY -/

/-- Registers and the device's record. -/
def aboard : Touch := { regs := fun _ => True, dev := True }

theorem Fresh.aboard {p : Prog} (h : p.Only aboard.allows) {c : Nat} (hf : Fresh c s) : Fresh c (p.run s) :=
  hf.only (fun _ h => h) (fun _ h => h) (fun _ h => h) h

/-- The device leaves reset. -/
def startOver (fallback : Bool) : Prog := .all [
  resetOver .device,
  modDev (fun d => { d with resets := [], boot := { d.boot with full := false, updated := false, released := false, wasStopped := false } }),
  setBit pgDevctl R.devctl_BOOT_FALLBACK fallback,
  .get (fun s => runBank (if fallback then 1 - s.dev.boot.bank else s.dev.boot.bank))]

/-- Gauge's load and the rails' voltages. -/
def boardLoad : Prog := .all [gaugeLoad, Prog.each (List.range 8) (fun h => setVolts h (vfOf h 0x40))]

/-- The Steward's last writes. -/
def startLast (starts now : Nat) : Prog := .all [
  setReg pgDevctl R.devctl_START_START_CNT.off (BitVec.ofNat 32 starts),
  setPhase phReady,
  raiseLine pgDevctl,
  modMailbox (fun m => { m with mstate := if m.mstate = 3 then 0 else m.mstate }),
  modDev (fun d => { d with wdogAt := now })]

theorem startReady_run (fallback : Bool) (s : State) :
    let u := (startOver fallback).run s
    (startReady fallback).run s = (startLast u.dev.boot.starts u.now).run (boardLoad.run u) := by
  simp -implicitDefEqProofs only [startReady, ready, startLast, startOver, boardLoad, Prog.run_all_cons, Prog.run_all_nil, Prog.run_get]

theorem startLast_run (hr : s.dev.resets = []) (starts now : Nat) :
    let t := (startLast starts now).run s
    t.atReady = true ∧ t.bit pgDevctl R.CRIER_LINE_RAISED = true ∧ (t.reg pgDevctl R.devctl_START_START_CNT.off).toNat = starts % 2 ^ 32 ∧
    t.bit pgDevctl R.devctl_BOOT_FALLBACK = s.bit pgDevctl R.devctl_BOOT_FALLBACK ∧ t.enabled pgGauge = s.enabled pgGauge ∧
    t.dev.resets = [] ∧ t.dev.boot = s.dev.boot := by
  have hup : s.underReset pgDevctl = false := by simp [State.underReset, hr]
  have hrun : (startLast starts now).run s = (Prog.all [
      setReg pgDevctl R.devctl_START_START_CNT.off (BitVec.ofNat 32 starts), setPhase phReady, setFld pgDevctl R.CRIER_LINE_RAISED 1,
      modMailbox (fun m => { m with mstate := if m.mstate = 3 then 0 else m.mstate }), modDev (fun d => { d with wdogAt := now })]).run s := by
    simp -implicitDefEqProofs [startLast, raiseLine, setPhase, hup]
  rw [hrun]
  refine ⟨?_, ?_, ?_, ?_, ?_, hr, rfl⟩
  all_goals simp -implicitDefEqProofs [setPhase, modMailbox, modHost, modDev, State.atReady, State.bit, State.enabled, phReady]

/-- The rails' voltages. -/
def railsSet : Prog := Prog.each (List.range 8) (fun h => setVolts h (vfOf h 0x40))

theorem railsSet_run (s : State) : (railsSet.run s).dev.resets = s.dev.resets ∧ (railsSet.run s).dev.boot = s.dev.boot ∧
    Keeps { dev := True } s (railsSet.run s) := by
  have h := each_aside (V := fun s t => t.dev.resets = s.dev.resets ∧ t.dev.boot = s.dev.boot) (fun _ => ⟨rfl, rfl⟩)
    (fun _ _ _ h h' => ⟨h'.1.trans h.1, h'.2.trans h.2⟩) (l := List.range 8) (f := fun h => setVolts h (vfOf h 0x40)) (fun _ _ _ => ⟨rfl, rfl⟩) s
  exact ⟨h.1, h.2, Prog.keeps (by simp [railsSet]) s⟩

theorem gaugeLoad_keeps (s : State) : Keeps { regs := pgGauge.covers } s (gaugeLoad.run s) := by
  have hentries : ∀ e ∈ standardEntries, e.1 ≤ 2 ∧ e.2.1 < 32 := by decide
  have hcomps : ∀ x ∈ List.zip (List.range 8) standardComps, x.1 < 8 := fun x hx => List.mem_range.1 (List.of_mem_zip hx).1
  refine Prog.keeps ?_ s
  simp only [gaugeLoad, Prog.only_all_cons, Prog.only_all_nil, Prog.only_each, setReg_allows, setFld_allows, onReg_covers, and_true]
  refine ⟨by simp, by simp, by simp, by simp, fun e he => ?_, fun x hx => ?_, by simp, by simp⟩
  · have := hentries e he
    omega
  · have := hcomps x hx
    omega

theorem gaugeLoad_enables (s : State) : (gaugeLoad.run s).enabled pgGauge = true := by
  have h : ∃ u, gaugeLoad.run s = (Prog.all [setFld pgGauge R.CTL_ENABLE 1, setFld pgGauge R.STATE_STATE stEnabled]).run u := by
    simp -implicitDefEqProofs only [gaugeLoad, Prog.run_all_cons, Prog.run_all_nil]
    exact ⟨_, rfl⟩
  obtain ⟨u, hu⟩ := h
  rw [hu]
  simp -implicitDefEqProofs [State.enabled, State.bit, stEnabled]

theorem boardLoad_run (s : State) :
    let t := boardLoad.run s
    t.enabled pgGauge = true ∧ (∀ o < 0x1000, t.reg pgDevctl o = s.reg pgDevctl o) ∧ t.dev.resets = s.dev.resets ∧ t.dev.boot = s.dev.boot := by
  have hrun : boardLoad.run s = railsSet.run (gaugeLoad.run s) := by
    simp -implicitDefEqProofs only [boardLoad, railsSet, Prog.run_all_cons, Prog.run_all_nil]
  have hgauge := gaugeLoad_keeps s
  have henabled := gaugeLoad_enables s
  rw [hrun]
  generalize gaugeLoad.run s = u at *
  obtain ⟨hresets, hboot, hrails⟩ := railsSet_run u
  refine ⟨?_, fun o ho => ?_, hresets.trans (congrArg _ (hgauge.dev id)), hboot.trans (congrArg _ (hgauge.dev id))⟩
  · rw [State.enabled, hrails.bit_eq id, hrails.fld_eq id]
    exact henabled
  · exact (hrails.reg_eq id).trans (hgauge.reg_eq (by simp only [Page.covers, pgGauge, pgDevctl, Page.base]; omega))

theorem startOver_run (fallback : Bool) (s : State) :
    let t := (startOver fallback).run s
    t.bit pgDevctl R.devctl_BOOT_FALLBACK = fallback ∧ t.dev.resets = [] ∧
    t.dev.boot = { s.dev.boot with full := false, updated := false, released := false, wasStopped := false } ∧
    ∀ c < 128, Fresh c t := by
  have hboot := resetOver_device_boot s
  have hfresh {c : Nat} (hc : c < 128) := resetOver_device_fresh s hc
  simp -implicitDefEqProofs only [startOver, Prog.run_all_cons, Prog.run_all_nil]
  generalize (resetOver .device).run s = u at *
  refine ⟨?_, rfl, ?_, fun c hc => Fresh.aboard ?_ (Fresh.aboard ?_ (Fresh.aboard ?_ (hfresh hc)))⟩
  · simp -implicitDefEqProofs [runBank, modOrarn, modDev]
  · exact congrArg (fun b : Boot => { b with full := false, updated := false, released := false, wasStopped := false }) hboot
  all_goals simp [runBank, aboard, onReg]

/-- The device reads READY. -/
structure Readied (s t : State) (fallback : Bool) : Prop where
  ready : t.atReady = true
  resets : t.dev.resets = []
  fallback : t.bit pgDevctl R.devctl_BOOT_FALLBACK = fallback
  gauge : t.enabled pgGauge = true
  line : t.bit pgDevctl R.CRIER_LINE_RAISED = true
  starts : (t.reg pgDevctl R.devctl_START_START_CNT.off).toNat = s.dev.boot.starts % 2 ^ 32
  boot : t.dev.boot = { s.dev.boot with full := false, updated := false, released := false, wasStopped := false }
  fresh : ∀ c < 128, Fresh c t

/-- What the end of a start reads. -/
def readsReady (t : State) (fb : Bool) : Prop := t.atReady = true ∧ t.dev.resets = [] ∧
  t.bit pgDevctl R.devctl_BOOT_FALLBACK = fb ∧ t.enabled pgGauge = true ∧ t.bit pgDevctl R.CRIER_LINE_RAISED = true ∧
  (t.reg pgDevctl R.devctl_START_START_CNT.off).toNat = t.dev.boot.starts % 2 ^ 32 ∧
  (∀ c < 128, t.croft c = {} ∧ ∀ x, ofSlice c x → t.byte x = 0)

theorem Readied.reads {s t : State} {fb : Bool} (h : Readied s t fb) : readsReady t fb :=
  ⟨h.ready, h.resets, h.fallback, h.gauge, h.line, h.starts.trans (by rw [h.boot]), fun c hc => ⟨(h.fresh c hc).croft, (h.fresh c hc).slice⟩⟩

theorem startReady_readied (fallback : Bool) (s : State) : Readied s ((startReady fallback).run s) fallback := by
  rw [startReady_run]
  obtain ⟨hfb, hresets, hboot, hfresh⟩ := startOver_run fallback s
  generalize (startOver fallback).run s = u at *
  obtain ⟨hgauge, hregs, hresets', hboot'⟩ := boardLoad_run u
  have hload : boardLoad.Only aboard.allows := by simp [boardLoad, gaugeLoad, aboard, onReg]
  have hfresh' {c : Nat} (hc : c < 128) : Fresh c (boardLoad.run u) := (hfresh c hc).aboard hload
  generalize boardLoad.run u = v at *
  obtain ⟨hready, hline, hstarts, hfb', hgauge', hresets'', hboot''⟩ := startLast_run (hresets'.trans hresets) u.dev.boot.starts u.now
  refine ⟨hready, hresets'', hfb'.trans ?_, hgauge'.trans hgauge, hline, ?_, ?_, fun c hc => (hfresh' hc).aboard ?_⟩
  · exact (congrArg (fun w => R.devctl_BOOT_FALLBACK.of w != 0) (hregs _ (by decide))).trans hfb
  · rw [hstarts, hboot]
  · rw [hboot'', hboot', hboot]
  · simp [startLast, setPhase, aboard, onReg]

theorem startReady_byte (fallback : Bool) (s : State) {x : Nat} (hx : ∀ c < 128, ¬ ofSlice c x) : ((startReady fallback).run s).byte x = s.byte x := by
  have hon (p : Page) (o : Nat) : onReg deviceLeaves.regs p o := trivial
  have hd : deviceLeaves.dev := trivial
  have hrenew : ∀ c ∈ allCrofts, (Prog.all [clearCroft c, clearSlice c, Prog.each (wellsOf c) rebuildWell]).Only deviceLeaves.allows :=
    fun c hc => renewCroft_only (List.mem_range.1 hc)
  have hover : (resetOver .device).Only deviceLeaves.allows := by
    simp only [resetOver, grainLeaves, Prog.only_all_cons, Prog.only_all_nil, and_true]
    exact ⟨by simp [hd], (Prog.only_each ..).2 hrenew⟩
  refine (Prog.keeps (T := deviceLeaves) ?_ s).mem x fun ⟨c, hc, h⟩ => hx c hc h
  simp [startReady, hover, ready, gaugeLoad, runBank, setPhase, hon, hd]

/-- The record of a granary that did not train. -/
def granRecord (h : Nat) : Prog := .all [pageFault (pgGran h) 1 0, raiseLine (pgGran h)]

/-- Without a request outstanding no croft halts for a controller fault. -/
theorem granFault_quiet (h : HamletId) (hf : ∀ c < 128, Fresh c s) : (granFault h.val 1 0).run s = (granRecord h.val).run s := by
  have hquiet : ∀ c ∈ (List.range 16).map (h.val * 16 + ·), (Prog.when (s.granWaits c h.val) (.all [haltReq c 3, stepEnds])) = .done := by
    intro c hc
    obtain ⟨i, hi, rfl⟩ := List.mem_map.1 hc
    have hlt : h.val * 16 + i < 128 := by have := List.mem_range.1 hi; omega
    have hw : s.granWaits (h.val * 16 + i) h.val = false := by
      rw [State.granWaits, List.any_eq_false]
      intro e he
      simp [(hf _ hlt).queues e he]
    rw [hw]
    rfl
  have hidle : ∀ (l : List Nat) (f : Nat → Prog) (t : State), (∀ c ∈ l, f c = .done) → (Prog.each l f).run t = t := by
    intro l f t hl
    induction l with
    | nil => rfl
    | cons c l ih => rw [Prog.run_each_cons, hl c (List.mem_cons_self ..)]; exact ih fun k hk => hl k (List.mem_cons_of_mem _ hk)
  rw [granFault_run]
  exact hidle _ _ _ hquiet

theorem granRecord_keeps (h : Nat) (s : State) : Keeps { regs := theRegs (pgGran h) faultRegs } s ((granRecord h).run s) :=
  Prog.keeps (by simp [granRecord, faultRegs]) s

/-- A granary that did not train is in FAULT; no croft has a request outstanding there. -/
theorem untrainedFault_run (hs : List HamletId) (hf : ∀ c < 128, Fresh c s) :
    let t := (untrainedFault hs).run s
    (∀ h ∈ hs, t.fld (pgGran h.val) R.STATE_STATE = stFault) ∧ (∀ c < 128, Fresh c t) ∧ t.dev = s.dev ∧
    (∀ o < 0x1000, t.reg pgDevctl o = s.reg pgDevctl o ∧ t.reg pgGauge o = s.reg pgGauge o) ∧
    ∀ h : HamletId, s.fld (pgGran h.val) R.STATE_STATE = stFault → t.fld (pgGran h.val) R.STATE_STATE = stFault := by
  induction hs generalizing s with
  | nil => exact ⟨fun h hh => absurd hh List.not_mem_nil, hf, rfl, fun o _ => ⟨rfl, rfl⟩, fun h hh => hh⟩
  | cons h hs ih =>
    have hkeep := granRecord_keeps h.val s
    have hfault : ((granRecord h.val).run s).fld (pgGran h.val) R.STATE_STATE = stFault := by
      rw [← granFault_quiet h hf]
      exact (granFault_faults h.val (by decide) 0 s).1
    have hfresh (c : Nat) (hc : c < 128) : Fresh c ((granRecord h.val).run s) :=
      (hf c hc).aboard (by simp [granRecord, Machine.aboard, onReg])
    have hreg {q : Page} (hq : q.kind ≠ .granary ∨ q.number ≠ h.val) (hp : q.placed) {o : Nat} (ho : o < 0x1000) :
        ((granRecord h.val).run s).reg q o = s.reg q o := by
      have hoff : ∀ f ∈ faultRegs, f.off < 0x1000 := by decide
      refine hkeep.reg_eq ?_
      rintro ⟨f, hf, e⟩
      exact apart_ne ⟨ho, hoff f hf, .inr ⟨hq, hp, by simp⟩⟩ e
    have hstays (k : HamletId) (hk : s.fld (pgGran k.val) R.STATE_STATE = stFault) :
        ((granRecord h.val).run s).fld (pgGran k.val) R.STATE_STATE = stFault := by
      by_cases hkh : k = h
      · rw [hkh]; exact hfault
      · exact (congrArg R.STATE_STATE.of (hreg (.inr (by simpa using fun e => hkh (Fin.ext e))) (by simp) (by decide))).trans hk
    have hrun : (untrainedFault (h :: hs)).run s = (untrainedFault hs).run ((granRecord h.val).run s) := by
      rw [← granFault_quiet h hf, untrainedFault, Prog.run_each_cons, untrainedFault]
    rw [hrun]
    obtain ⟨h1, h2, h3, h4, h5⟩ := ih hfresh
    refine ⟨fun k hk => ?_, h2, h3.trans (hkeep.dev id), fun o ho => ?_, fun k hk => h5 k (hstays k hk)⟩
    · rcases List.mem_cons.1 hk with rfl | hk
      · exact h5 _ hfault
      · exact h1 k hk
    · exact ⟨(h4 o ho).1.trans (hreg (.inl (by simp)) (by simp) ho), (h4 o ho).2.trans (hreg (.inl (by simp)) (by simp) ho)⟩

/-- What a cold start seals. -/
def coldSeals (s : State) (fs : List Finding) : Prog := .all [
  bumpBy pgDevctl R.devctl_RETIRE_CNT (s.dev.boot.newlyRetired (s.dev.boot.appended fs)),
  modDev (fun d => { d with
    spareRuns := []
    boot := { d.boot with
      defects := s.dev.boot.appended fs, starts := (d.boot.starts + 1) % 2 ^ 32, sealed := true, runtime := [], unwritten := [], found := []
      cold := false } }),
  eff (.bytes 0x7FF0000000 (Config.trimImage.take 0x10000000))]

theorem coldEnds_run (fs : List Finding) (k : Prog) (s : State) : (coldEnds fs k).run s =
    if 4096 < (s.dev.boot.appended fs).length then (startStops 5 (Config.openWord s.seq).toNat).run (Act.seq.apply s)
    else k.run ((coldSeals s fs).run s) := by
  simp -implicitDefEqProofs only [coldEnds, coldSeals, Prog.run_get, Prog.run_ite, Prog.run_all_cons, Prog.run_all_nil, Prog.run_eff]

theorem coldSeals_run (fs : List Finding) (s : State) :
    let t := (coldSeals s fs).run s
    t.dev.boot = { s.dev.boot with
      defects := s.dev.boot.appended fs, starts := (s.dev.boot.starts + 1) % 2 ^ 32, sealed := true, runtime := [], unwritten := [], found := []
      cold := false } ∧
    ∀ i < 0x10000000, i < Config.trimImage.length → t.byte (0x7FF0000000 + i) = Config.trimImage.getD i 0 := by
  refine ⟨rfl, fun i hi hlen => ?_⟩
  have hlast : ∃ u, (coldSeals s fs).run s = (Act.bytes 0x7FF0000000 (Config.trimImage.take 0x10000000)).apply u := by
    simp -implicitDefEqProofs only [coldSeals, Prog.run_all_cons, Prog.run_all_nil, Prog.run_eff]
    exact ⟨_, rfl⟩
  obtain ⟨u, hu⟩ := hlast
  rw [hu, Act.apply_bytes_holds u _ _ i (by rw [List.length_take]; omega), List.getD_eq_getElem?_getD, List.getElem?_take_of_lt hi,
    List.getD_eq_getElem?_getD]

/-- The end of a start on the full or the fast path. -/
def warmEnds (s : State) (fs : List Finding) (fallback : Bool) (hs : List HamletId) : Prog := .all [
  Prog.when s.dev.boot.full (fullEnds fs), startReady fallback, Prog.when (!s.dev.boot.full) (untrainedFault hs)]

/-- What the full path finds at runtime leaves the sealed list as it is. -/
theorem fullEnds_boot (fs : List Finding) (s : State) :
    ((fullEnds fs).run s).dev.boot.defects = s.dev.boot.defects ∧ ((fullEnds fs).run s).dev.boot.starts = s.dev.boot.starts := by
  let V (s t : State) : Prop := t.dev.boot.defects = s.dev.boot.defects ∧ t.dev.boot.starts = s.dev.boot.starts
  have hrefl (s : State) : V s s := ⟨rfl, rfl⟩
  have htrans (a b c : State) (h : V a b) (h' : V b c) : V a c := ⟨h'.1.trans h.1, h'.2.trans h.2⟩
  have hretire (k u d : Nat) (s : State) : V s ((retire k u d).run s) := by
    obtain ⟨f, r, w, hd⟩ := retire_dev k u d s
    exact ⟨by rw [hd], by rw [hd]⟩
  simp -implicitDefEqProofs only [fullEnds, Prog.run_all_cons, Prog.run_all_nil]
  refine htrans _ _ _ (each_aside (V := V) hrefl htrans (fun f _ t => hretire _ _ _ t) _) (each_aside (V := V) hrefl htrans (fun f _ t => ?_) _)
  simp -implicitDefEqProofs only [Prog.run_get]
  split
  · exact ⟨rfl, rfl⟩
  · exact hretire _ _ _ t

theorem warmEnds_run (fs : List Finding) (fallback : Bool) (hs : List HamletId) (s u : State) :
    let t := (warmEnds s fs fallback hs).run u
    readsReady t fallback ∧ t.dev.boot.defects = u.dev.boot.defects ∧ t.dev.boot.starts = u.dev.boot.starts ∧
    (s.dev.boot.full = false → ∀ h ∈ hs, t.fld (pgGran h.val) R.STATE_STATE = stFault) := by
  cases hfull : s.dev.boot.full
  · have hrun : (warmEnds s fs fallback hs).run u = (untrainedFault hs).run ((startReady fallback).run u) := by
      simp -implicitDefEqProofs only [warmEnds, hfull, Prog.run_all_cons, Prog.run_all_nil, Prog.run_when_false, Prog.run_when_true, Bool.not_false]
    rw [hrun]
    have hr := startReady_readied fallback u
    generalize (startReady fallback).run u = v at *
    obtain ⟨hfault, hfresh, hdev, hreg, -⟩ := untrainedFault_run hs hr.fresh
    generalize (untrainedFault hs).run v = t at *
    have hfld {f : Fld} (hf : f.off < 0x1000) : t.fld pgDevctl f = v.fld pgDevctl f ∧ t.fld pgGauge f = v.fld pgGauge f :=
      ⟨congrArg f.of (hreg _ hf).1, congrArg f.of (hreg _ hf).2⟩
    obtain ⟨h1, h2, h3, h4, h5, h6, -⟩ := hr.reads
    refine ⟨⟨?_, hdev ▸ h2, ?_, ?_, ?_, ?_, fun c hc => ⟨(hfresh c hc).croft, (hfresh c hc).slice⟩⟩, by rw [hdev, hr.boot], by rw [hdev, hr.boot],
      fun _ => hfault⟩
    · rwa [State.atReady, (hfld (by decide)).1]
    · rwa [State.bit, (hfld (by decide)).1]
    · rwa [State.enabled, State.bit, (hfld (by decide)).2, (hfld (by decide)).2]
    · rwa [State.bit, (hfld (by decide)).1]
    · rwa [hdev, (hreg _ (by decide)).1]
  · have hrun : (warmEnds s fs fallback hs).run u = (startReady fallback).run ((fullEnds fs).run u) := by
      simp -implicitDefEqProofs only [warmEnds, hfull, Prog.run_all_cons, Prog.run_all_nil, Prog.run_when_false, Prog.run_when_true, Bool.not_true]
    rw [hrun]
    obtain ⟨hd, hs'⟩ := fullEnds_boot fs u
    have hr := startReady_readied fallback ((fullEnds fs).run u)
    generalize (fullEnds fs).run u = v at *
    exact ⟨hr.reads, by rw [hr.boot, hd], by rw [hr.boot, hs'], nofun⟩

theorem exec_startStopped {s : State} (fs : List Finding) (code : Byte) (addr : BitVec 64) : exec (.resetDone .device fs (.stopped code addr)) s = .next (
    if ¬ (s.deviceReset = true ∧ s.dev.boot.released = true) then s
    else if 1 ≤ code.toNat ∧ code.toNat ≤ 9 ∧ ¬ (code = 1 ∧ s.dev.boot.trim = .own) then (startStops code.toNat addr.toNat).run s else s) := by
  show execResetDone .device fs (.stopped code addr) s = _
  simp -implicitDefEqProofs only [execResetDone, grainOf, startEnds, Prog.next_eq, Prog.run_get, Prog.run_ite, Prog.run_when, Prog.run_done]
  refine congrArg _ (if_congr ?_ rfl (if_congr ?_ rfl rfl))
  · simp [imp_iff_not_or]
  · simp [and_assoc, imp_iff_not_or]

theorem exec_startReady {s : State} (fs : List Finding) (fallback : Bool) (hs : List HamletId) : exec (.resetDone .device fs (.ready fallback hs)) s = .next (
    if ¬ (s.deviceReset = true ∧ s.dev.boot.released = true) then s
    else if ¬ (s.dev.boot.loads = [] ∧ s.fld pgPower R.power_STATUS_SUPPLY_RST = 0) then s
    else (identified (if s.dev.boot.cold then coldEnds fs (startReady fallback) else warmEnds s fs fallback hs)).run s) := by
  show execResetDone .device fs (.ready fallback hs) s = _
  simp -implicitDefEqProofs only [execResetDone, grainOf, startEnds, Prog.next_eq, Prog.run_get, Prog.run_ite, Prog.run_done]
  refine congrArg _ (if_congr ?_ rfl (if_congr ?_ rfl rfl))
  · simp [imp_iff_not_or]
  · simp [imp_iff_not_or]

/-- Settles O54: a packet maps each load, a report names the units it retires, and a start ends in one sequence of writes. -/
theorem startsLoadTheCoresAndEnd : Obligations.StartsLoadTheCoresAndEnd := by
  unfold Obligations.StartsLoadTheCoresAndEnd
  refine ⟨⟨?packet, ?report⟩, ?ends⟩
  case packet =>
    intro s kind n only lost differ b reaches gets left first stops stored
    have hexec := exec_fwPacket kind n only lost differ s
    have hany (h : ∃ l ∈ b.loads, reaches l) : b.loads.any (packetReaches kind only) = true := by
      obtain ⟨l, hl, hr⟩ := h
      exact List.any_eq_true.2 ⟨l, hl, packetReaches_iff.2 hr⟩
    have hstored {t : State} (hl : t.dev.boot.loads = b.loads.flatMap (packetLeaves kind n only lost differ))
        (hcnt : only.isSome = true → Counts s t pgDevctl R.devctl_REPAIR_CNT 1)
        (hkeep : Keeps { regs := theRegs pgDevctl ([R.devctl_BOOT_PHASE] ++ if only.isSome then [R.devctl_REPAIR_CNT] else []), dev := True } s t) :
        stored t := by
      have hin {l l' : CoreLoad} (h : l ∈ b.loads) (h' : l' ∈ packetLeaves kind n only lost differ l) : l' ∈ t.dev.boot.loads := by
        rw [hl]
        exact List.mem_flatMap.2 ⟨l, h, h'⟩
      refine ⟨fun l hm hg => hin hm ?_, fun l hm hg hleft => hin hm ?_, fun l hm hg hn hleft hd => hin hm ?_, fun l' hm => ?_, hcnt, hkeep⟩
      · rw [packetLeaves_aside hg]; exact List.mem_singleton_self _
      · rw [packetLeaves_gets hg, if_pos (show l.left n ≠ [] from hleft)]; exact List.mem_singleton_self _
      · rw [packetLeaves_gets hg, if_neg (not_not.2 (show l.left n = [] from hleft)), if_pos ⟨hn, hd⟩]; exact List.mem_singleton_self _
      · rw [hl] at hm
        obtain ⟨l, hlm, hl'⟩ := List.mem_flatMap.1 hm
        rcases mem_packetLeaves hl' with ⟨rfl, hg⟩ | ⟨hg, hrest⟩
        · exact .inl ⟨hlm, hg⟩
        · exact .inr ⟨l, hlm, hg, hrest⟩
    refine ⟨fun hn => ?_, fun ha hf => ?_, fun ha hf he ht => ?_, fun ha hf he => ?_, fun ha hf he ht => ?_⟩
    · refine hexec.trans (congrArg _ (if_pos ?_))
      intro h
      obtain ⟨l, hl, hr⟩ := List.any_eq_true.1 h
      exact hn l hl (packetReaches_iff.1 hr)
    · refine ⟨_, hexec.trans (congrArg _ ((if_neg (not_not.2 (hany ha))).trans (if_neg hf))), ?_⟩
      obtain ⟨hdev, hcnt, -, hkeep⟩ := packetStored_run kind n only lost differ s
      exact hstored (congrArg (fun d : Device => d.boot.loads) hdev) hcnt hkeep
    all_goals have hfirst := hexec.trans (congrArg _ ((if_neg (not_not.2 (hany ha))).trans (if_pos hf)))
    · rw [firstPacket_run he ht] at hfirst
      refine ⟨_, hfirst, ?_⟩
      obtain ⟨hboot, hphase, hmail, hkeep⟩ := packetFirst_run s
      have hstored' := packetStored_run kind n only lost differ (packetFirst.run s)
      generalize packetFirst.run s = u at *
      obtain ⟨hdev, hcnt, h4, hkeep'⟩ := hstored'
      refine ⟨hstored ?_ (fun h => ?_) ?_, h4 hphase.ge, (congrArg (fun d : Device => d.host.mailbox.mstate) hdev).trans hmail,
        (congrArg (fun d : Device => d.boot.enrol) hdev).trans (congrArg Boot.enrol hboot)⟩
      · exact (congrArg (fun d : Device => d.boot.loads) hdev).trans (congrArg (fun k : Boot => List.flatMap _ k.loads) hboot :)
      · exact (hcnt h).trans (congrArg (satAdd · 1) (hkeep.reg_eq (not_theRegs_offset (by decide) _)))
      · exact (hkeep.widen (theRegs_mono (by simp))).trans hkeep'
    · exact ⟨_, hfirst, identified_stops _ s (.inl ⟨he, rfl⟩)⟩
    · exact ⟨_, hfirst, identified_stops _ s (.inr ⟨he, ht, rfl⟩)⟩
  case report =>
    intro s
    refine ⟨_, exec_repairReport s, fun hr hf => ?_, fun l hl hr => ?_, ?_⟩
    · have hnone : (s.dev.boot.loads.map (fun l => { l with round := l.round + 1 })).filter (fun l => decide (4 ≤ l.round)) = [] := by
        simp only [List.filter_eq_nil_iff, List.mem_map, forall_exists_index, and_imp, forall_apply_eq_imp_iff₂, decide_eq_true_eq]
        intro l hl
        have := hr l hl
        omega
      rw [hnone, show (retireLoads []).run (roundCounts.run s) = roundCounts.run s from rfl,
        (broadcastEnds_keeps _).dev id]
      refine ⟨hf, rfl, fun l hl hret => List.mem_filter.2 ⟨List.mem_map.2 ⟨l, hl, rfl⟩, ?_⟩⟩
      have hret' : (roundCounts.run s).retiredCore l.core = false := (retiredCore_congr rfl rfl l.core).trans hret
      simp only [hret', show (roundCounts.run s).dev.boot.found = [] from hf, List.any_nil, Bool.not_false, Bool.and_self]
    · rw [(broadcastEnds_keeps _).dev id]
      have hnamed := retireLoads_names ((s.dev.boot.loads.map (fun l => { l with round := l.round + 1 })).filter (fun l => decide (4 ≤ l.round)))
        (roundCounts.run s) (l := { l with round := l.round + 1 }) (List.mem_filter.2 ⟨List.mem_map.2 ⟨l, hl, rfl⟩, by simpa using hr⟩)
      refine ⟨?_, fun l' hl' hc => dropRetired_drops ?_ hl'⟩
      · simp only [State.defectList, (broadcastEnds_keeps _).dev id]
        exact hnamed
      · rw [hc]
        exact hnamed
    · have hround := Prog.keeps (T := reportTouch) (p := roundCounts) (by simp [roundCounts, reportTouch]) s
      refine hround.trans ((Prog.keeps (p := retireLoads _) ?_ _).trans ((Prog.keeps (p := dropRetired) ?_ _).trans (Prog.keeps (p := broadcastEnds) ?_ _)))
      · exact (Prog.only_each ..).2 fun l _ => retire_only trivial (by simp [reportTouch]) _ _ _
      · simp [dropRetired, reportTouch]
      · simp [broadcastEnds, setPhase, Prog.only_when, reportTouch]
  case ends =>
    intro s fs b under
    refine ⟨fun e hn => ?_, fun code addr => ⟨fun hu ht => ?_, fun hu ht => ?_⟩, fun fb hs =>
      ⟨fun hu hn => ?_, fun hu hc he => ?_, fun hu hc he ht => ?_, fun hu hc hi hcold hl => ?_, fun hu hc hi hcold hl => ?_, fun hu hc hi hcold => ?_⟩⟩
    · cases e with
      | ready fb hs => exact (exec_startReady fs fb hs).trans (congrArg _ (if_pos hn))
      | stopped code addr => exact (exec_startStopped fs code addr).trans (congrArg _ (if_pos hn))
    · have hlt : code.toNat < 256 := code.isLt
      exact ⟨_, (exec_startStopped fs code addr).trans (congrArg _ ((if_neg (not_not.2 hu)).trans (if_pos ht))), startStops_stops hlt _ s⟩
    · exact (exec_startStopped fs code addr).trans (congrArg _ ((if_neg (not_not.2 hu)).trans (if_neg ht)))
    · exact (exec_startReady fs fb hs).trans (congrArg _ ((if_neg (not_not.2 hu)).trans (if_pos hn)))
    all_goals have hexec := (exec_startReady fs fb hs).trans (congrArg _ ((if_neg (not_not.2 hu)).trans (if_neg (not_not.2 hc))))
    · exact ⟨_, hexec, identified_stops _ s (.inl ⟨he, rfl⟩)⟩
    · exact ⟨_, hexec, identified_stops _ s (.inr ⟨he, ht, rfl⟩)⟩
    all_goals
      obtain ⟨he, ht⟩ := hi
      have hgoes := fun k => identified_goes (k := k) he ht
      have hcold' : s.dev.boot.cold = _ := hcold
      rw [hgoes, hcold'] at hexec
    · rw [if_pos rfl, coldEnds_run, if_pos (show 4096 < ((commits.run s).dev.boot.appended fs).length from hl)] at hexec
      obtain ⟨hf, -, -, hp, hs, -, -, -, -⟩ := startStops_stops (code := 5) (by decide) (Config.openWord (commits.run s).seq).toNat
        (Act.seq.apply (commits.run s))
      exact ⟨_, hexec, hp, hs, hf, Prog.mem_eq (by simp [startStops, setPhase]) _⟩
    · rw [if_pos rfl, coldEnds_run, if_neg (show ¬ 4096 < ((commits.run s).dev.boot.appended fs).length from not_lt.2 hl)] at hexec
      refine ⟨_, hexec, ?_⟩
      obtain ⟨hboot, hbytes⟩ := coldSeals_run fs (commits.run s)
      have hr := startReady_readied fb ((coldSeals (commits.run s) fs).run (commits.run s))
      have hbyte {x : Nat} := startReady_byte fb ((coldSeals (commits.run s) fs).run (commits.run s)) (x := x)
      generalize (coldSeals (commits.run s) fs).run (commits.run s) = w at *
      have hboot' := hr.boot.trans (congrArg (fun b : Boot => { b with full := false, updated := false, released := false, wasStopped := false }) hboot)
      refine ⟨hr.reads, ?_, ?_, ?_, ?_, fun i hi hlen => (hbyte ?_).trans (hbytes i hi hlen)⟩
      any_goals rw [hboot']
      · rfl
      · rfl
      · rintro c hc ⟨h1, -⟩
        simp only [sliceAddr] at h1
        omega
    · rw [if_neg (by simp)] at hexec
      refine ⟨_, hexec, ?_⟩
      obtain ⟨hr, hdefects, hstarts, hfault⟩ := warmEnds_run fs fb hs s (commits.run s)
      exact ⟨hr, hdefects, hstarts, hfault⟩

end Sys2Proof.Machine
end

open Host
section
/-! O29: Steward messages, the end of a step and its repeat (R217, R218, R417, R424, R562). -/
namespace Sys2Proof.Machine

variable {s : State}

/-! ### Floods -/

theorem sendFlits_link (l key : Nat) (fs : List Flit) (k : Nat) (s : State) : ((sendFlits l key fs).run s).link k =
    if k = l then { s.link l with tx := Sparse.set (s.link l).tx key ((Sparse.get? (s.link l).tx key).getD [] ++ fs) } else s.link k := by
  simp -implicitDefEqProofs only [sendFlits, modLink, Prog.run_get, Prog.run_eff, Act.apply_link_link_at]

theorem flood_floods (m : StewMsg) (skip : Option Nat) (s : State) : Floods s ((flood m skip).run s) m skip := by
  intro q hq
  have hrun : (flood m skip).run s = (Prog.each ((List.range 16).filter (fun q => s.linkUp q && skip != some q))
    (fun q => sendFlits q (txKey 3 15) [⟨0, .steward m⟩])).run s := rfl
  have hother (y : Nat) (hne : q ≠ y) (t : State) : ((sendFlits y (txKey 3 15) [⟨0, .steward m⟩]).run t).link q = t.link q := by
    rw [sendFlits_link, if_neg hne]
  have hmem : q ∈ (List.range 16).filter (fun q => s.linkUp q && skip != some q) ↔ s.linkUp q = true ∧ skip ≠ some q := by
    simp [hq]
  rw [hrun]
  split
  case isTrue h =>
    obtain ⟨u, hu, hend⟩ := each_part (V := fun q s t => t.link q = s.link q) (fun _ _ => rfl) (fun _ _ _ _ h h' => h'.trans h)
      (List.nodup_range.filter _) (fun q _ y _ hne t => by rw [sendFlits_link, if_neg hne]) s (hmem.2 h)
    rw [hend, sendFlits_link, if_pos rfl, hu]
    rfl
  case isFalse h =>
    exact each_aside (V := fun s t => t.link q = s.link q) (fun _ => rfl) (fun _ _ _ h h' => h'.trans h)
      (fun y hy t => hother y (fun e => h (hmem.1 (e ▸ hy))) t) s

theorem flood_keeps (m : StewMsg) (skip : Option Nat) (s : State) : Keeps { links := (· < 16) } s ((flood m skip).run s) :=
  Prog.keeps (by simp +contextual [flood]) s

/-! ### Messages -/

/-- A message is heard and forwarded. -/
def hears (l : Nat) (m : StewMsg) : Prog := .all [modDev (fun d => { d with heard := d.heard ++ [m] }), flood m (some l)]

theorem hear_run_new {m : StewMsg} (h : s.newMsg m) (l : Nat) (f : Prog) : (hear l m f).run s = f.run ((hears l m).run s) := by
  obtain ⟨hh, ho⟩ := h
  simp -implicitDefEqProofs only [hear, hears, Prog.run_get, hh, beq_eq_false_iff_ne.2 ho, Bool.or_false, Bool.false_eq_true, if_false,
    Prog.run_all_cons, Prog.run_all_nil]

theorem hear_run_old {m : StewMsg} (h : ¬ s.newMsg m) (l : Nat) (f : Prog) : (hear l m f).run s = s := by
  have h' : (s.dev.heard.contains m || stewOrigin m == s.self) = true := by
    rw [Bool.or_eq_true, beq_iff_eq]
    by_contra hn
    rw [not_or, Bool.not_eq_true] at hn
    exact h hn
  simp -implicitDefEqProofs only [hear, Prog.run_get, h', if_true]
  rfl

theorem hears_run (l : Nat) (m : StewMsg) (s : State) :
    let t := (hears l m).run s
    Floods s t m (some l) ∧ t.dev = { s.dev with heard := s.dev.heard ++ [m] } ∧ Keeps { links := (· < 16), dev := True } s t := by
  have hrun : (hears l m).run s = (flood m (some l)).run ((modDev (fun d => { d with heard := d.heard ++ [m] })).run s) := by
    simp -implicitDefEqProofs only [hears, Prog.run_all_cons, Prog.run_all_nil]
  have hkeep := flood_keeps m (some l) ((modDev (fun d => { d with heard := d.heard ++ [m] })).run s)
  rw [hrun]
  refine ⟨flood_floods m (some l) _, hkeep.dev id, ?_⟩
  exact (Prog.keeps (by simp) s).trans (Prog.keeps (by simp +contextual [flood]) _)

theorem Floods.congr {t u : State} {m : StewMsg} {skip : Option Nat} (h : Floods s t m skip) (hl : ∀ q < 16, u.link q = t.link q) :
    Floods s u m skip := fun q hq => (hl q hq).trans (h q hq)

/-- A late request. -/
def snapLate : Prog := .all [setFld pgBucket R.bucket_STATUS_LATE 1, bump pgBucket R.bucket_LATE_CNT, pageFault pgBucket 4 0, raiseLine pgBucket]

theorem snapLate_run (s : State) :
    let t := snapLate.run s
    t.bit pgBucket R.bucket_STATUS_LATE = true ∧ Counts s t pgBucket R.bucket_LATE_CNT 1 ∧ Faults s t pgBucket 4 ∧
    Keeps { regs := theRegs pgBucket ([R.bucket_STATUS_LATE, R.bucket_LATE_CNT] ++ faultRegs) } s t := by
  have hrun : snapLate.run s = (Prog.all [pageFault pgBucket 4 0, raiseLine pgBucket]).run
      ((Prog.all [setFld pgBucket R.bucket_STATUS_LATE 1, bump pgBucket R.bucket_LATE_CNT]).run s) := by
    simp -implicitDefEqProofs only [snapLate, Prog.run_all_cons, Prog.run_all_nil]
  have hkeep (u : State) : Keeps { regs := theRegs pgBucket faultRegs } u ((Prog.all [pageFault pgBucket 4 0, raiseLine pgBucket]).run u) :=
    Prog.keeps (by simp [faultRegs]) u
  refine ⟨?_, ?_, ?_, Prog.keeps (by simp [snapLate, faultRegs]) s⟩
  all_goals rw [hrun]
  · refine ((hkeep _).bit_eq (not_theRegs_offset (by decide) _)).trans ?_
    simp -implicitDefEqProofs [State.bit]
  · refine ((hkeep _).reg_eq (not_theRegs_offset (by decide) _)).trans ?_
    simp -implicitDefEqProofs
  · refine (pageFault_faults pgBucket (by decide) 0 _).congr (fun f hf => ?_) fun _ _ => rfl
    refine (Prog.keeps (T := { regs := theRegs pgBucket [R.bucket_STATUS_LATE, R.bucket_LATE_CNT] }) (by simp) s).reg_eq (not_theRegs_offset ?_ _)
    revert f
    decide

/-- The boundary of a request stands. -/
def snapPends (b : Nat) : Prog := modDev (fun d => { d with pendingB := some (max (d.pendingB.getD 0) b) })

theorem exec_snapReq {l : LinkId} {o : BitVec 14} {b : BitVec 32} (h : s.newMsg (.snapReq o.toNat b.toNat)) :
    let u := (hears l.val (.snapReq o.toNat b.toNat)).run s
    exec (.snapReq l o b) s = .next (if s.enabled pgBucket = false then u else if b.toNat ≤ s.stepIndex then snapLate.run u else (snapPends b.toNat).run u) := by
  obtain ⟨-, -, hkeep⟩ := hears_run l.val (.snapReq o.toNat b.toNat) s
  have hen : ((hears l.val (.snapReq o.toNat b.toNat)).run s).enabled pgBucket = s.enabled pgBucket := by
    rw [State.enabled, hkeep.bit_eq id, hkeep.fld_eq id, State.enabled]
  have hidx : ((hears l.val (.snapReq o.toNat b.toNat)).run s).stepIndex = s.stepIndex := hkeep.fld_eq id
  refine (congrArg Host.Outcome.next (hear_run_new h l.val _)).trans (congrArg _ ?_)
  generalize (hears l.val (.snapReq o.toNat b.toNat)).run s = u at *
  simp -implicitDefEqProofs only [Prog.run_get, Prog.run_ite, hen, hidx, Prog.run_done, snapLate, snapPends]
  exact if_congr (by simp) rfl rfl

/-- An alarm ends the step here. -/
def alarmEnds : Prog := .all [modDev (fun d => { d with stepEnd := true }), raiseLine pgBucket]

theorem exec_alarm {l : LinkId} {o : BitVec 14} {b : BitVec 32} {ab : Bool} (h : s.newMsg (.alarm o.toNat b.toNat ab)) :
    let u := (hears l.val (.alarm o.toNat b.toNat ab)).run s
    exec (.alarm l o b ab) s = .next (
      if ab = true ∧ s.bit pgNum R.numstep_STATUS_ABANDONING = false ∧ s.bit pgNum R.numstep_STATUS_HALTED = false then
        alarmEnds.run (abandonHere.run u) else alarmEnds.run u) := by
  obtain ⟨-, -, hkeep⟩ := hears_run l.val (.alarm o.toNat b.toNat ab) s
  have hbit (f : Fld) : ((hears l.val (.alarm o.toNat b.toNat ab)).run s).bit pgNum f = s.bit pgNum f := hkeep.bit_eq id
  refine (congrArg Host.Outcome.next (hear_run_new h l.val _)).trans (congrArg _ ?_)
  generalize (hears l.val (.alarm o.toNat b.toNat ab)).run s = u at *
  simp -implicitDefEqProofs only [Prog.run_all_cons, Prog.run_all_nil, Prog.run_get, Prog.run_when, hbit, alarmEnds]
  rw [apply_ite (fun v => (raiseLine pgBucket).run ((modDev fun d => { d with stepEnd := true }).run v))]
  exact if_congr (by simp [and_assoc]) rfl rfl

theorem alarmEnds_run (s : State) :
    let t := alarmEnds.run s
    t.dev = { s.dev with stepEnd := true } ∧ (s.underReset pgBucket = false → t.bit pgBucket R.CRIER_LINE_RAISED = true) ∧
    Keeps { regs := theRegs pgBucket [R.CRIER_LINE_RAISED], dev := True } s t := by
  have hrun : alarmEnds.run s = (raiseLine pgBucket).run ((modDev (fun d => { d with stepEnd := true })).run s) := by
    simp -implicitDefEqProofs only [alarmEnds, Prog.run_all_cons, Prog.run_all_nil]
  refine ⟨?_, fun hu => ?_, Prog.keeps (by simp [alarmEnds]) s⟩
  · rw [hrun, raiseLine_dev]
    rfl
  · rw [hrun]
    exact ((raiseLine_run pgBucket _).2.1 hu)

/-- What an abandonment does once the halts are asked for. -/
def abandonCounts : Prog := .all [
  setFld pgNum R.numstep_STATUS_ABANDONING 1, bump pgNum R.numstep_ABANDON_CNT, tellWatch 13, countHalted]

theorem abandonHere_run (s : State) : abandonHere.run s = abandonCounts.run ((haltAll 5).run s) := by
  simp -implicitDefEqProofs only [abandonHere, abandonCounts, Prog.run_all_cons, Prog.run_all_nil]

theorem countHalted_keeps' (s : State) : Keeps { links := (· < 16), dev := True } s (countHalted.run s) :=
  Prog.keeps (by simp +contextual [countHalted, Prog.only_when, flood]) s

theorem flood_waiting {q : Nat} (hq : q < 16) {x : Flit} (h : x ∈ (s.link q).waiting 16) (m : StewMsg) (skip : Option Nat) :
    x ∈ (((flood m skip).run s).link q).waiting 16 := by
  rw [flood_floods m skip s q hq]
  split
  · simp only [Link.waiting, Sparse.get?_set, if_true, Option.getD_some]
    exact List.mem_append_left _ h
  · exact h

theorem countHalted_waiting {q : Nat} (hq : q < 16) {x : Flit} (h : x ∈ (s.link q).waiting 16) : x ∈ ((countHalted.run s).link q).waiting 16 := by
  simp -implicitDefEqProofs only [countHalted, Prog.run_get, Prog.run_when, Prog.run_all_cons, Prog.run_all_nil]
  split
  · exact flood_waiting (s := (modDev _).run s) hq h _ _
  · exact h

/-- The frame of an abandonment. -/
def abandonTouch : Touch where
  regs := someRegs ([(pgBucket, [R.CRIER_LINE_RAISED]), (pgNum, [R.numstep_STATUS_ABANDONING, R.numstep_ABANDON_CNT])] ++
    (List.range 128).map (fun c => (pgReeve c, [R.reeve_STATUS_HALT_REASON])))
  crofts := (· < 128)
  links := (· < 16)
  dev := True

theorem abandonTouch_regs {p : Page} {fs : List Fld} (h : (p, fs) ∈ [(pgBucket, [R.CRIER_LINE_RAISED]),
    (pgNum, [R.numstep_STATUS_ABANDONING, R.numstep_ABANDON_CNT])] ++ (List.range 128).map (fun c => (pgReeve c, [R.reeve_STATUS_HALT_REASON])))
    {f : Fld} (hf : f ∈ fs) : onReg abandonTouch.regs p f.off := onReg_someRegs h hf

theorem abandonHere_only : abandonHere.Only abandonTouch.allows := by
  have h1 := abandonTouch_regs (p := pgNum) (fs := [R.numstep_STATUS_ABANDONING, R.numstep_ABANDON_CNT]) (by simp) (f := R.numstep_STATUS_ABANDONING) (by simp)
  have h2 := abandonTouch_regs (p := pgNum) (fs := [R.numstep_STATUS_ABANDONING, R.numstep_ABANDON_CNT]) (by simp) (f := R.numstep_ABANDON_CNT) (by simp)
  have h3 (c : Nat) (hc : c < 128) := abandonTouch_regs (p := pgReeve c) (List.mem_append_right _ (List.mem_map.2 ⟨c, List.mem_range.2 hc, rfl⟩))
    (f := R.reeve_STATUS_HALT_REASON) (by simp)
  have hd : abandonTouch.dev := trivial
  have hl (q : Nat) (hq : q < 16) : abandonTouch.links q := hq
  have hc (c : Nat) (h : c < 128) : abandonTouch.crofts c := h
  simp +contextual [abandonHere, haltAll, allCrofts, countHalted, flood, Prog.only_when, hd, hl, hc, h3]
  exact ⟨h1, h2⟩

theorem abandonHere_abandons (s : State) :
    let t := abandonHere.run s
    t.bit pgNum R.numstep_STATUS_ABANDONING = true ∧ Counts s t pgNum R.numstep_ABANDON_CNT 1 ∧ t.dev.heard = s.dev.heard ∧
    t.dev.stepAlarm = s.dev.stepAlarm ∧ t.dev.resets = s.dev.resets ∧ (∀ c < 128, s.running c = true → (t.reeve c).halting.isSome = true) ∧
    ∀ q < 16, ∀ x ∈ (s.link q).waiting 16, x ∈ (t.link q).waiting 16 := by
  have hlooks := looks_run (p := abandonHere) (v := fun d => (d.heard, d.stepAlarm, d.resets)) (fun d => by
    simp [abandonHere, haltAll, tellWatch, countHalted, flood, sendFlits]) s
  have hrun : abandonHere.run s = countHalted.run ((Prog.all [setFld pgNum R.numstep_STATUS_ABANDONING 1, bump pgNum R.numstep_ABANDON_CNT,
      tellWatch 13]).run ((haltAll 5).run s)) := by
    simp -implicitDefEqProofs only [abandonHere, Prog.run_all_cons, Prog.run_all_nil]
  have hhalts (c : Nat) := haltEach_run allCrofts 5 c s
  have hall := Prog.keeps (p := haltAll 5) (T := { regs := offKinds [.numstep], crofts := fun _ => True }) (by
    simp [haltAll]
    exact fun c _ => onReg_offKinds (by decide) (by simp) (by simp)) s
  rw [hrun] at hlooks ⊢
  change ∀ c, ((haltAll 5).run s).running c = _ ∧ ((haltAll 5).run s).croft c = _ at hhalts
  generalize (haltAll 5).run s = v at *
  have hrec := Prog.keeps (p := Prog.all [setFld pgNum R.numstep_STATUS_ABANDONING 1, bump pgNum R.numstep_ABANDON_CNT, tellWatch 13])
    (T := { regs := pgNum.covers, dev := True }) (by simp) v
  have habandon : ((Prog.all [setFld pgNum R.numstep_STATUS_ABANDONING 1, bump pgNum R.numstep_ABANDON_CNT, tellWatch 13]).run v).bit pgNum
      R.numstep_STATUS_ABANDONING = true := by simp -implicitDefEqProofs [tellWatch, modDev, State.bit]
  have hcnt : Counts v ((Prog.all [setFld pgNum R.numstep_STATUS_ABANDONING 1, bump pgNum R.numstep_ABANDON_CNT, tellWatch 13]).run v) pgNum
      R.numstep_ABANDON_CNT 1 := by simp -implicitDefEqProofs [tellWatch, modDev, Counts]
  generalize (Prog.all _).run v = w at *
  have hend := countHalted_keeps' w
  obtain ⟨hheard, hrest⟩ := Prod.mk.inj hlooks
  obtain ⟨hal, hresets⟩ := Prod.mk.inj hrest
  refine ⟨(hend.bit_eq id).trans habandon, ?_, hheard, hal, hresets, fun c hc hr => ?_, fun q hq x hx => countHalted_waiting hq ?_⟩
  · rw [Counts, hend.reg_eq id, hcnt, hall.reg_eq (not_offKinds (by simp) (by simp) (by decide))]
  · rw [State.reeve_eq, hend.crofts c id, hrec.crofts c id, (hhalts c).2]
    split
    case isTrue => rfl
    case isFalse hn =>
      have hmem : c ∈ allCrofts := List.mem_range.2 hc
      rw [← State.reeve_eq]
      by_contra hsome
      rw [Option.isSome_iff_ne_none, not_not] at hsome
      exact hn ⟨hmem, by rw [State.haltsNow, hr, hsome]; rfl⟩
  · rwa [hrec.links q id, hall.links q id]

/-! ### The end of a step -/

/-- The crofts whose halt is not under way. -/
def State.unhalted (s : State) : List Nat := allCrofts.filter (fun c => (s.reeve c).halting.isNone)

/-- The step is over. -/
def stepOver : Prog := modDev (fun d => { d with stepEnd := false, stepAlarm := false })

theorem exec_stepEnd (h : s.dev.stepEnd = true) : exec .stewardStepEnd s = .next (stepOver.run
    ((Prog.when s.dev.stepAlarm (raiseAlarm false)).run ((Prog.each s.unhalted (fun c => haltReq c 5)).run s))) := by
  show execStewardStepEnd s = _
  simp -implicitDefEqProofs only [execStewardStepEnd, Prog.next_eq, Prog.run_get, h, Bool.not_true, Bool.false_eq_true, if_false,
    Prog.run_all_cons, Prog.run_all_nil]
  rfl

theorem haltReq_reeve (c reason : Nat) : (haltReq c reason).Only (reeveTouch c).allows := by simp [reeveTouch]

/-- Every croft that runs and has no halt under way begins one. -/
theorem unhalted_run (s : State) :
    let t := (Prog.each s.unhalted (fun c => haltReq c 5)).run s
    (∀ c < 128, s.running c = true → (s.reeve c).halting = none →
      (t.reeve c).halting = some 5 ∧ t.fld (pgReeve c) R.reeve_STATUS_HALT_REASON = 5 ∧ (t.reeve c).orders = (s.reeve c).orders ∧
      t.pc c = s.pc c) ∧
    (∀ c, (128 ≤ c ∨ s.running c = false ∨ (s.reeve c).halting.isSome = true) → t.croft c = s.croft c) ∧
    Keeps { regs := someRegs ((List.range 128).map (fun c => (pgReeve c, [R.reeve_STATUS_HALT_REASON]))), crofts := (· < 128) } s t ∧
    Keeps { regs := offKinds [.port, .numstep], crofts := fun _ => True } s t := by
  refine ⟨fun c hc hr hn => ?_, fun c hc => ?_, ?_, ?_⟩
  · have hmem : c ∈ s.unhalted := List.mem_filter.2 ⟨List.mem_range.2 hc, by rw [hn]; rfl⟩
    obtain ⟨u, hu, hend⟩ := each_reeve (l := s.unhalted) (List.nodup_range.filter _) (fun c _ => haltReq_reeve c 5) s hmem
    have hrun := haltReq_run_first ((hu.bit (by decide)).trans hr) (hu.reeve ▸ hn) 5
    rw [hrun] at hend
    refine ⟨?_, (hend.fld (by decide)).1.trans ?_, ?_, (hend.fld (by decide)).1.trans (Eq.trans ?_ (hu.fld (by decide)).1)⟩
    · rw [hend.reeve]; simp [modReeve, modCroft, Reeve.haltsFor, State.reeve_eq]
    · simp -implicitDefEqProofs [modReeve, modCroft]
    · rw [hend.reeve, ← hu.reeve]; simp [modReeve, modCroft, Reeve.haltsFor, State.reeve_eq]
    · simp -implicitDefEqProofs [modReeve, modCroft]
  · obtain ⟨-, hcroft⟩ := haltEach_run s.unhalted 5 c s
    refine hcroft.trans (if_neg ?_)
    rintro ⟨hm, hnow⟩
    simp only [State.haltsNow, Bool.and_eq_true] at hnow
    rcases hc with hc | hc | hc
    · exact absurd (List.mem_range.1 (List.mem_filter.1 hm).1) (not_lt.2 hc)
    · simp [hc] at hnow
    · rw [Option.isSome_iff_ne_none] at hc
      exact hc (Option.isNone_iff_eq_none.1 hnow.2)
  · refine Prog.keeps ((Prog.only_each ..).2 fun c hc => ?_) s
    have hlt : c < 128 := List.mem_range.1 (List.mem_filter.1 hc).1
    exact (haltReq_allows ..).2 ⟨onReg_someRegs (List.mem_map.2 ⟨c, List.mem_range.2 hlt, rfl⟩) (f := R.reeve_STATUS_HALT_REASON)
      (List.mem_singleton_self _), hlt⟩
  · exact Prog.keeps ((Prog.only_each ..).2 fun c hc => (haltReq_allows ..).2 ⟨onReg_offKinds (by decide)
      (by simp) (by simp), trivial⟩) s

/-! ### The repeat of a step -/

/-- The records rise. -/
def liftRecords (g : Nat → Nat) (l : List Nat) : Prog := Prog.each l (fun i => liftRecord (g i))

/-- What a repeat sets beside the records and the reeves. -/
def repeatMarks : Prog := .all [
  setFld pgNum R.numstep_STATUS_REPEATING 1,
  setFld pgNum R.numstep_STATUS_FALLBACKS 0,
  setFld pgNum R.numstep_STATUS_ABANDONING 0,
  modDev (fun d => { d with fallLayers := [], haltedDevs := [] }),
  ledgerSwap true]

/-- The reeves restart at ENTRY. -/
def repeatRestarts (s : State) : Prog := Prog.each s.enabledReeves (fun c => cleanRestartOr c (s.fld (pgReeve c) R.reeve_ENTRY_INDEX))

/-- The first entry of RECLIST that is no record. -/
def State.badEntry (s : State) : Option Nat := (List.range s.recCount).find? (fun i => !recordValid (s.recEntry i))

theorem exec_stepRepeat (s : State) : exec .stepRepeat s = .next (
    if ¬ (s.bit pgNum R.numstep_STATUS_ABANDONING = true ∧ (∀ c ∈ s.enabledReeves, s.bit (pgReeve c) R.reeve_STATUS_HALTED = true) ∧
      ∀ d ∈ s.knownDevs, d ∈ s.dev.haltedDevs) then s
    else match s.badEntry with
      | some i => (repeatRefused (s.recList + 8 * i)).run s
      | none => (repeatRestarts s).run (repeatMarks.run ((liftRecords s.recEntry (List.range s.recCount)).run s))) := by
  show execStepRepeat s = _
  simp -implicitDefEqProofs only [execStepRepeat, Prog.next_eq, Prog.run_get, Prog.run_ite, Prog.run_done]
  refine congrArg _ (if_congr ?_ rfl ?_)
  · rw [Bool.not_eq_true', ← Bool.not_eq_true]
    exact not_congr (by simp [and_assoc])
  · cases h : s.badEntry with
    | none =>
      rw [State.badEntry] at h
      rw [h]
      simp -implicitDefEqProofs only [Prog.run_all_cons, Prog.run_all_nil, liftRecords, repeatMarks, repeatRestarts]
    | some i =>
      rw [State.badEntry] at h
      rw [h]

theorem repeatRefused_run (s : State) (addr : Nat) :
    let t := (repeatRefused addr).run s
    t.bit pgNum R.numstep_STATUS_HALTED = true ∧ t.bit pgNum R.numstep_STATUS_ABANDONING = false ∧ Faults s t pgNum 2 ∧
    (s.fld pgNum R.STATE_STATE ≠ stFault → t.fld pgNum R.FAULT_ADDR_LO = addr % 2 ^ 32) ∧ Keeps { regs := pgNum.covers } s t := by
  have hrun : (repeatRefused addr).run s = (Prog.all [pageFault pgNum 2 addr, raiseLine pgNum]).run
      ((Prog.all [setFld pgNum R.numstep_STATUS_HALTED 1, setFld pgNum R.numstep_STATUS_ABANDONING 0]).run s) := by
    simp -implicitDefEqProofs only [repeatRefused, Prog.run_all_cons, Prog.run_all_nil]
  have hkeep (u : State) : Keeps { regs := theRegs pgNum faultRegs } u ((Prog.all [pageFault pgNum 2 addr, raiseLine pgNum]).run u) :=
    Prog.keeps (by simp [faultRegs]) u
  have hfirst := Prog.keeps (T := { regs := theRegs pgNum [R.numstep_STATUS_HALTED] })
    (p := Prog.all [setFld pgNum R.numstep_STATUS_HALTED 1, setFld pgNum R.numstep_STATUS_ABANDONING 0]) (by simp) s
  refine ⟨?_, ?_, ?_, fun hn => ?_, Prog.keeps (by simp [repeatRefused]) s⟩
  all_goals rw [hrun]
  · refine ((hkeep _).bit_eq (not_theRegs_offset (by decide) _)).trans ?_
    simp -implicitDefEqProofs [State.bit]
  · refine ((hkeep _).bit_eq (not_theRegs_offset (by decide) _)).trans ?_
    simp -implicitDefEqProofs [State.bit]
  · refine (pageFault_faults pgNum (by decide) addr _).congr (fun f hf => hfirst.reg_eq (not_theRegs_offset ?_ _)) fun _ _ => rfl
    revert f
    decide
  · have hn' : ((Prog.all [setFld pgNum R.numstep_STATUS_HALTED 1, setFld pgNum R.numstep_STATUS_ABANDONING 0]).run s).fld pgNum
        R.STATE_STATE ≠ stFault := by
      rwa [hfirst.fld_eq (not_theRegs_offset (by decide) _)]
    generalize (Prog.all [setFld pgNum R.numstep_STATUS_HALTED 1, setFld pgNum R.numstep_STATUS_ABANDONING 0]).run s = u at *
    simp -implicitDefEqProofs [pageFault_run_new hn', faultRecord, raiseLine_fld]

theorem intact_of_keeps {T : Touch} {t : State} (h : Keeps T s t) (hd : ¬ T.dev) (hi : s.intact = true) : t.intact = true := by
  rw [State.intact, h.dev hd]
  exact hi

theorem le_one_lt (s : State) (a : Nat) : s.le a 1 < 256 := by
  have h := leNat_lt (s.bytes a 1)
  rwa [show (s.bytes a 1).length = 1 by simp [State.bytes]] at h

/-- A record's HEADROOM and SCALE have risen. -/
structure Lifted (s t : State) (a : Nat) : Prop where
  scale : t.le a 1 = min 0xFE (s.le a 1 + 2)
  headroom : t.le (a + 1) 1 = s.le (a + 1) 1 / 8 * 8 + min 7 (s.le (a + 1) 1 % 8 + 2)

theorem liftRecord_run (h : s.intact = true) (a : Nat) : ∃ n, (liftRecord a).run s = (bumpBy pgNum R.numstep_HEADROOM_SAT_CNT n).run
    ((Act.bytes (a + 1) (toLe 1 (s.le (a + 1) 1 / 8 * 8 + min 7 (s.le (a + 1) 1 % 8 + 2)))).apply
      ((Act.bytes a (toLe 1 (min 0xFE (s.le a 1 + 2)))).apply s)) := by
  simp -implicitDefEqProofs only [liftRecord, Prog.run_get, Prog.run_all_cons, Prog.run_all_nil, storeLe_run h]
  rw [storeLe_run (s := (Act.bytes a _).apply s) h]
  exact ⟨_, rfl⟩

/-- The frame of the record of some addresses. -/
def liftTouch (A : Nat → Prop) : Touch := { regs := theRegs pgNum [R.numstep_HEADROOM_SAT_CNT], mem := A }

theorem liftRecord_keeps (h : s.intact = true) (a : Nat) : Keeps (liftTouch fun x => x = a ∨ x = a + 1) s ((liftRecord a).run s) := by
  obtain ⟨n, hn⟩ := liftRecord_run h a
  have hb (b : Nat) (hab : b = a ∨ b = a + 1) (v : Nat) (u : State) : Keeps (liftTouch fun x => x = a ∨ x = a + 1) u ((Act.bytes b (toLe 1 v)).apply u) := by
    refine (Act.apply_bytes_keeps u b (toLe 1 v)).mono ?_
    constructor
    case mem =>
      rintro x ⟨h1, h2⟩
      rw [length_toLe] at h2
      show x = a ∨ x = a + 1
      omega
    all_goals simp [liftTouch]
  rw [hn]
  exact ((hb a (.inl rfl) _ s).trans (hb (a + 1) (.inr rfl) _ _)).trans (Prog.keeps (by simp [liftTouch]) _)

theorem liftRecord_lifted (h : s.intact = true) (a : Nat) : Lifted s ((liftRecord a).run s) a := by
  obtain ⟨n, hn⟩ := liftRecord_run h a
  have hle (u : State) (b : Nat) : ((bumpBy pgNum R.numstep_HEADROOM_SAT_CNT n).run u).le b 1 = u.le b 1 := rfl
  have hlt : s.le (a + 1) 1 < 256 := le_one_lt s (a + 1)
  rw [hn]
  refine ⟨?_, ?_⟩
  · rw [hle, State.le_store_apart _ (by rw [length_toLe]; omega), State.le_store]
    omega
  · rw [hle, State.le_store]
    omega

theorem Lifted.congr {a : Nat} {t u : State} (h : Lifted s t a) (h0 : u.le a 1 = t.le a 1) (h1 : u.le (a + 1) 1 = t.le (a + 1) 1) : Lifted s u a :=
  ⟨h0.trans h.scale, h1.trans h.headroom⟩

/-- The bytes of a record that a repeat reads are the same. -/
def sameRecord (a : Nat) (s t : State) : Prop :=
  s.intact = true → t.intact = true ∧ t.le a 1 = s.le a 1 ∧ t.le (a + 1) 1 = s.le (a + 1) 1

theorem liftRecords_run (h : s.intact = true) (g : Nat → Nat) {l : List Nat} (hl : l.Nodup) :
    let t := (liftRecords g l).run s
    ((∀ i ∈ l, ∀ j ∈ l, i ≠ j → g i + 2 ≤ g j ∨ g j + 2 ≤ g i) → ∀ i ∈ l, Lifted s t (g i)) ∧
    Keeps (liftTouch fun x => ∃ i ∈ l, x = g i ∨ x = g i + 1) s t := by
  refine ⟨fun hap i hi => ?_, ?_⟩
  · obtain ⟨u, hu, hend⟩ := each_part (V := fun i => sameRecord (g i)) (fun _ _ h => ⟨h, rfl, rfl⟩)
      (fun _ _ _ _ h h' hi => by
        obtain ⟨hi', h0, h1⟩ := h hi
        obtain ⟨hi'', h0', h1'⟩ := h' hi'
        exact ⟨hi'', h0'.trans h0, h1'.trans h1⟩) hl (f := fun i => liftRecord (g i)) (fun i hi j hj hne t ht => by
        have hk := liftRecord_keeps ht (g j)
        have hd := hap i hi j hj hne
        refine ⟨intact_of_keeps hk id ht, State.le_congr fun k hk' => hk.mem _ ?_, State.le_congr fun k hk' => hk.mem _ ?_⟩
        all_goals
          show ¬ (_ ∨ _)
          omega) s hi
    obtain ⟨hui, h0, h1⟩ := hu h
    have hk := liftRecord_keeps hui (g i)
    obtain ⟨-, h0', h1'⟩ := hend (intact_of_keeps hk id hui)
    obtain ⟨hs, hh⟩ := (liftRecord_lifted hui (g i)).congr h0' h1'
    rw [h0] at hs
    rw [h1] at hh
    exact ⟨hs, hh⟩
  · have hin : ∀ (k : List Nat), k ⊆ l → ∀ s : State, s.intact = true →
        Keeps (liftTouch fun x => ∃ i ∈ l, x = g i ∨ x = g i + 1) s ((liftRecords g k).run s) := by
      intro k
      induction k with
      | nil => exact fun _ s _ => Prog.keeps (p := .done) Prog.only_done s
      | cons i k ih =>
        intro hk s hs
        have hi : i ∈ l := hk (List.mem_cons_self ..)
        have hfirst := liftRecord_keeps hs (g i)
        rw [liftRecords, Prog.run_each_cons]
        refine (hfirst.mono ?_).trans (ih (fun j hj => hk (List.mem_cons_of_mem _ hj)) _ (intact_of_keeps hfirst id hs))
        constructor
        case mem => exact fun x hx => ⟨i, hi, hx⟩
        all_goals simp [liftTouch]
    exact hin l (List.Subset.refl l) s h

/-! ### The restarts -/

/-- The pages of a croft lie in its region of BAR0. -/
theorem onReg_inCroft {p : Page} {c o : Nat} (hp : p.croft? = some c) (ho : o < 0x1000) : onReg (inCroft c) p o := by
  obtain ⟨k, n⟩ := p
  have hc := croftBase_eq c
  have hn := croftBase_eq n
  cases k <;> simp only [Page.croft?, Option.some.injEq, reduceCtorEq] at hp <;> subst hp <;> simp only [onReg, inCroft, Page.base] <;> omega

theorem croft?_of_croftPages {c : Nat} {p : Page} (h : p ∈ croftPages c) : p.croft? = some c := by
  simp only [croftPages, List.mem_append, List.mem_map, List.mem_range, List.mem_cons, List.not_mem_nil, or_false] at h
  rcases h with ((h | ⟨i, hi, rfl⟩) | ⟨i, hi, rfl⟩) | ⟨i, hi, rfl⟩
  · rcases h with rfl | rfl | rfl | rfl | rfl | rfl | rfl | rfl <;> rfl
  all_goals
    simp only [Page.croft?, pgPump, pgWell, Option.some.injEq]
    omega

/-- Whether a restart takes effect is read from the croft's registers and the resets. -/
theorem canRestart_congr {c : Nat} {t : State} (hr : ∀ a, inCroft c a → Sparse.get? t.regs a = Sparse.get? s.regs a)
    (hd : t.dev.resets = s.dev.resets) : t.canRestart c = s.canRestart c := by
  have hreg {p : Page} (hp : p.croft? = some c) {o : Nat} (ho : o < 0x1000) : t.reg p o = s.reg p o := by
    rw [State.reg, hr _ (onReg_inCroft hp ho), State.reg]
  have hfld {p : Page} (hp : p.croft? = some c) {f : Fld} (hf : f.off < 0x1000) : t.fld p f = s.fld p f := congrArg f.of (hreg hp hf)
  have hreeve : (pgReeve c).croft? = some c := rfl
  have hfault : t.croftFault c = s.croftFault c := by
    rw [Bool.eq_iff_iff, State.croftFault, State.croftFault, List.any_eq_true, List.any_eq_true]
    exact exists_congr fun p => and_congr_right fun hp => by rw [hfld (croft?_of_croftPages hp) (by decide)]
  simp only [State.canRestart, State.enabled, State.bit, State.underReset, hd, hfault, hfld hreeve (f := R.reeve_STATUS_HALTED) (by decide),
    hfld hreeve (f := R.CTL_ENABLE) (by decide), hfld hreeve (f := R.STATE_STATE) (by decide)]

theorem cleanRestartOr_only (c i : Nat) : (cleanRestartOr c i).Only (reeveTouch c).allows := by
  refine (Prog.only_get _).2 fun u => ?_
  split <;> simp [cleanRestartAt, cleanReeve, restartAt, reeveTouch, setPC]

theorem reeveTouch_inCroft {c k a : Nat} (h : c ≠ k) (ha : inCroft c a) : ¬ (reeveTouch k).regs a := by
  have hc := croftBase_eq c
  have hk := croftBase_eq k
  obtain ⟨h1, h2⟩ := ha
  rintro ⟨p, hp, h3, h4⟩
  obtain rfl | rfl : p = pgReeve k ∨ p = pgOwn k := by simpa using hp
  all_goals simp only [pgReeve, pgOwn, Page.base] at h3 h4; omega

/-- A reeve that can restart has restarted. -/
theorem cleanRestartAt_run {i : Nat} (hi : i < 16777216) (c : Nat) (s : State) :
    let t := (cleanRestartAt c i).run s
    t.running c = true ∧ t.pc c = i ∧ t.phase c = 0 ∧ (t.reeve c).wait = .none ∧ (t.reeve c).tokens = [] ∧ (t.croft c).wideRefs = [] := by
  refine ⟨?_, ?_, ?_, ?_, ?_, ?_⟩
  all_goals
    simp -implicitDefEqProofs [cleanRestartAt, cleanReeve, restartAt, setPC, modReeve, modCroft, State.reeve_eq, State.running, State.phase, State.bit, hi]

theorem repeatMarks_run (s : State) :
    let t := repeatMarks.run s
    t.bit pgNum R.numstep_STATUS_REPEATING = true ∧ t.bit pgNum R.numstep_STATUS_ABANDONING = false ∧
    t.fld pgNum R.numstep_STATUS_FALLBACKS = 0 ∧ t.dev.haltedDevs = [] ∧ t.dev.fallLayers = [] ∧ t.dev.resets = s.dev.resets ∧
    Keeps { regs := onPages [pgNum, pgLedger 0, pgLedger 1], dev := True } s t := by
  let first : Prog := .all [setFld pgNum R.numstep_STATUS_REPEATING 1, setFld pgNum R.numstep_STATUS_FALLBACKS 0,
    setFld pgNum R.numstep_STATUS_ABANDONING 0, modDev (fun d => { d with fallLayers := [], haltedDevs := [] })]
  have hrun : repeatMarks.run s = (ledgerSwap true).run (first.run s) := by
    simp -implicitDefEqProofs only [repeatMarks, first, Prog.run_all_cons, Prog.run_all_nil]
  have hdev := looks_run (p := repeatMarks) (v := fun d => d.resets) (fun d => by simp [repeatMarks, ledgerSwap]) s
  have hview (u : State) := looks_run (p := ledgerSwap true) (v := fun d => (d.haltedDevs, d.fallLayers)) (fun d => by simp [ledgerSwap]) u
  have hswap (u : State) := ledgerSwap_keeps true u
  have hpl : pgNum.placed := by simp
  refine ⟨?_, ?_, ?_, ?_, ?_, hdev, Prog.keeps (by simp [repeatMarks, ledgerSwap]) s⟩
  all_goals rw [hrun]
  · refine ((hswap _).bit_eq (not_offKinds (by simp) hpl (by decide))).trans ?_
    simp -implicitDefEqProofs [first, modDev, State.bit]
  · refine ((hswap _).bit_eq (not_offKinds (by simp) hpl (by decide))).trans ?_
    simp -implicitDefEqProofs [first, modDev, State.bit]
  · refine ((hswap _).fld_eq (not_offKinds (by simp) hpl (by decide))).trans ?_
    simp -implicitDefEqProofs [first, modDev]
  · exact congrArg Prod.fst (hview (first.run s))
  · exact congrArg Prod.snd (hview (first.run s))

/-- Each reeve that can restart has restarted. -/
theorem repeatRestarts_run (s v : State) {c : Nat} (hc : c ∈ s.enabledReeves) (hv : v.canRestart c = true) :
    let t := (repeatRestarts s).run v
    t.running c = true ∧ t.pc c = s.fld (pgReeve c) R.reeve_ENTRY_INDEX ∧ t.phase c = 0 ∧ (t.reeve c).wait = .none ∧ (t.reeve c).tokens = [] ∧
    (t.croft c).wideRefs = [] := by
  have hi : s.fld (pgReeve c) R.reeve_ENTRY_INDEX < 16777216 := State.fld_lt (by decide) s _
  obtain ⟨u, ⟨-, hcan⟩, hend, -⟩ := each_part (V := fun c s t => SameReeve c s t ∧ t.canRestart c = s.canRestart c) (fun c s => ⟨.refl c s, rfl⟩)
    (fun c _ _ _ h h' => ⟨h.1.trans c _ _ _ h'.1, h'.2.trans h.2⟩) (enabledReeves_nodup s)
    (f := fun c => cleanRestartOr c (s.fld (pgReeve c) R.reeve_ENTRY_INDEX))
    (fun c _ k _ hne t => by
      have hk := Prog.keeps (cleanRestartOr_only k (s.fld (pgReeve k) R.reeve_ENTRY_INDEX)) t
      exact ⟨hk.sameReeve hne, canRestart_congr (fun a ha => hk.regs a (reeveTouch_inCroft hne ha)) (congrArg _ (hk.dev id))⟩) v hc
  rw [(canRestart_run (hcan.trans hv) _).2] at hend
  obtain ⟨h1, h2, h3, h4, h5, h6⟩ := cleanRestartAt_run hi c u
  refine ⟨(hend.bit (by decide)).trans h1, (hend.fld (by decide)).1.trans h2, (hend.fld (by decide)).2.trans h3, ?_, ?_, ?_⟩
  · exact (congrArg Reeve.wait hend.reeve).trans h4
  · exact (congrArg Reeve.tokens hend.reeve).trans h5
  · exact (congrArg Croft.wideRefs hend.1).trans h6

theorem repeatRestarts_keeps (s v : State) :
    Keeps { regs := offKinds [.numstep], crofts := fun _ => True } v ((repeatRestarts s).run v) := by
  have hon (k : Kind) (hk : k ≠ .numstep) (c o : Nat) (ho : o < 0x1000) (hp : (⟨k, c⟩ : Page).placed) : onReg (offKinds [.numstep]) ⟨k, c⟩ o :=
    onReg_offKinds ho hp (by simpa using hk)
  refine Prog.keeps ((Prog.only_each ..).2 fun c hc => (Prog.only_get _).2 fun u => ?_) v
  have hlt : c < 128 := List.mem_range.1 (List.mem_filter.1 hc).1
  have hreeve (o : Nat) (ho : o < 0x1000) : onReg (offKinds [.numstep]) (pgReeve c) o := onReg_offKinds ho (by simp) (by simp)
  have hown (o : Nat) (ho : o < 0x1000) : onReg (offKinds [.numstep]) (pgOwn c) o := onReg_offKinds ho (by simp) (by simp)
  split <;> simp [cleanRestartAt, cleanReeve, restartAt, setPC, hreeve, hown]

/-- Settles O29: a message is heard once and acted on by one record, a step ends by a halt of each croft, and a repeat raises each record. -/
theorem stewardsEndAndRepeatSteps : Obligations.StewardsEndAndRepeatSteps := by
  unfold Obligations.StewardsEndAndRepeatSteps
  refine ⟨⟨?old, ?snap, ?alarm, ?halted⟩, ⟨?idle, ?ends⟩, ?waits, ?repeats⟩
  case old =>
    intro s l o b ab
    exact ⟨fun h => congrArg Host.Outcome.next (hear_run_old h _ _), fun h => congrArg Host.Outcome.next (hear_run_old h _ _),
      fun h => congrArg Host.Outcome.next (hear_run_old h _ _)⟩
  case snap =>
    rintro s l o b m rfl hnew
    have hexec := exec_snapReq (l := l) hnew
    obtain ⟨hfl, hdev, hkeep⟩ := hears_run l.val (.snapReq o.toNat b.toNat) s
    generalize (hears l.val (.snapReq o.toNat b.toNat)).run s = u at *
    refine ⟨fun he => ⟨_, hexec.trans (congrArg _ (if_pos he)), hfl, hdev, hkeep⟩,
      fun he hb => ⟨_, hexec.trans (congrArg _ ((if_neg (by simp [he])).trans (if_neg (not_le.2 hb)))), hfl, ?_, ?_⟩,
      fun he hb => ⟨_, hexec.trans (congrArg _ ((if_neg (by simp [he])).trans (if_pos hb))), ?_⟩⟩
    · exact congrArg (fun d : Device => { d with pendingB := some (max (d.pendingB.getD 0) b.toNat) }) hdev
    · exact hkeep.trans (Prog.keeps (by simp [snapPends]) u)
    · obtain ⟨hlate, hcnt, hfault, hkeep'⟩ := snapLate_run u
      generalize snapLate.run u = t at *
      have hreg (o : Nat) : u.reg pgBucket o = s.reg pgBucket o := hkeep.reg_eq id
      refine ⟨hfl.congr fun q _ => hkeep'.links q id, (hkeep'.dev id).trans hdev, hlate, ?_, hfault.congr (fun f _ => hreg _) fun _ _ => rfl, ?_⟩
      · rw [Counts, hcnt, hreg]
      · exact (hkeep.mono (by constructor <;> simp)).trans (hkeep'.mono (by constructor <;> simp))
  case alarm =>
    rintro s l o b ab m rfl hnew
    have hexec := exec_alarm (l := l) hnew
    obtain ⟨hfl, hdev, hkeep⟩ := hears_run l.val (.alarm o.toNat b.toNat ab) s
    generalize (hears l.val (.alarm o.toNat b.toNat ab)).run s = u at *
    refine ⟨fun hn => ⟨_, hexec.trans (congrArg _ (if_neg ?_)), ?_⟩, fun hab ha hh => ⟨_, hexec.trans (congrArg _ (if_pos ⟨hab, ha, hh⟩)), ?_⟩⟩
    · simp only [not_and, Bool.not_eq_false]
      intro h1 h2
      rcases hn with hn | hn | hn <;> simp_all
    · obtain ⟨hdev', hline, hkeep'⟩ := alarmEnds_run u
      generalize alarmEnds.run u = t at *
      refine ⟨hfl.congr fun q _ => hkeep'.links q id, hdev'.trans (by rw [hdev]), fun hu => hline ?_, ?_⟩
      · rw [State.underReset, hdev]
        exact hu
      · exact (hkeep.mono (by constructor <;> simp)).trans (hkeep'.mono (by constructor <;> simp))
    · have habandon := abandonHere_abandons u
      have hon := Prog.keeps abandonHere_only u
      obtain ⟨hbit, hcnt, hheard, hal, hresets, hhalts, hwait⟩ := habandon
      generalize abandonHere.run u = v at *
      obtain ⟨hdev', hline, hkeep'⟩ := alarmEnds_run v
      generalize alarmEnds.run v = t at *
      have hnum (o : Nat) (ho : o < 0x1000) : t.reg pgNum o = v.reg pgNum o :=
        hkeep'.reg_eq (not_theRegs_apart (by simp [ho]))
      refine ⟨fun q hq hup hskip => ?_, ?_, ?_, ?_, fun hu => hline ?_, ?_, ?_, fun c hc hr => ?_, ?_⟩
      · rw [hkeep'.links q id]
        refine hwait q hq _ ?_
        rw [hfl q hq, if_pos ⟨hup, hskip⟩]
        simp only [Link.waiting, Sparse.get?_set, if_true, Option.getD_some]
        exact List.mem_append_right _ (List.mem_singleton_self _)
      · rw [hdev', hheard, hdev]
      · rw [hdev']
      · rw [hdev', hal, hdev]
      · rw [State.underReset, hresets, hdev]
        exact hu
      · exact (congrArg (fun w => R.numstep_STATUS_ABANDONING.of w != 0) (hnum _ (by decide))).trans hbit
      · rw [Counts, hnum _ (by decide), hcnt, hkeep.reg_eq id]
      · rw [State.reeve_eq, hkeep'.crofts c id]
        exact hhalts c hc ((hkeep.bit_eq id).trans hr)
      · refine ((hkeep.mono ?_).trans hon).trans (hkeep'.mono ?_)
        · constructor <;> simp [abandonTouch]
        · constructor
          case regs => exact fun a ha => ⟨_, List.mem_append_left _ (List.mem_cons_self ..), ha⟩
          all_goals simp [abandonTouch]
  case halted =>
    rintro s l o b m rfl hnew
    refine ⟨_, congrArg Host.Outcome.next (hear_run_new hnew l.val _), ?_⟩
    obtain ⟨hfl, hdev, hkeep⟩ := hears_run l.val (.halted o.toNat b.toNat) s
    generalize (hears l.val (.halted o.toNat b.toNat)).run s = u at *
    refine ⟨hfl, ?_, hkeep.trans (Prog.keeps (by simp) u)⟩
    refine (congrArg (fun d : Device => { d with
      haltedDevs := if d.haltedDevs.contains o.toNat then d.haltedDevs else d.haltedDevs ++ [o.toNat] }) hdev).trans ?_
    by_cases h : o.toNat ∈ s.dev.haltedDevs <;> simp [h]
  case idle =>
    intro s h
    show execStewardStepEnd s = _
    simp only [execStewardStepEnd, Prog.next_eq, Prog.run_get, h, Bool.not_false, if_true]
    rfl
  case ends =>
    intro s h
    refine ⟨_, exec_stepEnd h, ?_⟩
    obtain ⟨hcrofts, hasides, hkeep, hoff⟩ := unhalted_run s
    generalize (Prog.each s.unhalted (fun c => haltReq c 5)).run s = v at *
    have halarm := Prog.keeps (p := Prog.when s.dev.stepAlarm (raiseAlarm false)) (T := { links := (· < 16) })
      (by simp +contextual [raiseAlarm, flood, Prog.only_when]) v
    have hflood (ha : s.dev.stepAlarm = true) :
        Floods s ((Prog.when s.dev.stepAlarm (raiseAlarm false)).run v) (.alarm s.self s.stepIndex false) none := by
      have hfld {p : Page} (hk : p.kind ∈ [Kind.port, .numstep]) (hp : p.placed) {f : Fld} (hf : f.off < 0x1000) : v.fld p f = s.fld p f :=
        congrArg f.of (hoff.reg_eq (not_offKinds hk hp hf))
      have hself : v.self = s.self := hfld (p := pgPort) (by simp) (by simp) (by decide)
      have hidx : v.stepIndex = s.stepIndex := hfld (p := pgNum) (by simp) (by simp) (by decide)
      have hfl := flood_floods (.alarm v.self v.stepIndex false) none v
      rw [ha, Prog.run_when_true, raiseAlarm, Prog.run_get, hself, hidx]
      intro q hq
      have hup : v.linkUp q = s.linkUp q := by rw [State.linkUp, hfld (p := pgPort) (by simp) (by simp) (by decide), State.linkUp]
      have hlink := hkeep.links q id
      have h := hfl q hq
      rw [hself, hidx, hup, hlink] at h
      exact h
    have hquiet (ha : s.dev.stepAlarm = false) : (Prog.when s.dev.stepAlarm (raiseAlarm false)).run v = v := by rw [ha]; rfl
    generalize (Prog.when s.dev.stepAlarm (raiseAlarm false)).run v = w at *
    refine ⟨?_, hflood, fun ha q => ?_, fun c hc hr hn => ?_, fun c hc => ?_, ?_⟩
    · exact congrArg (fun d : Device => { d with stepEnd := false, stepAlarm := false }) ((halarm.dev id).trans (hkeep.dev id))
    · rw [hquiet ha]
      exact hkeep.links q id
    · obtain ⟨h1, h2, h3, h4⟩ := hcrofts c hc hr hn
      have hreeve : w.reeve c = v.reeve c := by rw [State.reeve_eq, halarm.crofts c id, State.reeve_eq]
      have hreg (o : Nat) : w.reg (pgReeve c) o = v.reg (pgReeve c) o := halarm.reg_eq id
      exact ⟨(congrArg Reeve.halting hreeve).trans h1, (congrArg R.reeve_STATUS_HALT_REASON.of (hreg _)).trans h2,
        (congrArg Reeve.orders hreeve).trans h3, (congrArg R.reeve_PC_INDEX.of (hreg _)).trans h4⟩
    · exact (halarm.crofts c id).trans (hasides c hc)
    · exact ((hkeep.mono (by constructor <;> simp)).trans (halarm.mono (by constructor <;> simp))).trans (Prog.keeps (by simp [stepOver]) w)
  case waits =>
    intro s h
    refine (exec_stepRepeat s).trans (congrArg _ (if_pos ?_))
    rintro ⟨ha, hc, hd⟩
    rcases h with h | ⟨c, hcm, h⟩ | ⟨d, hdm, h⟩
    · simp [ha] at h
    · simp [hc c hcm] at h
    · exact h (hd d hdm)
  case repeats =>
    intro s ha hh hd
    have hexec := (exec_stepRepeat s).trans (congrArg _ (if_neg (not_not.2 ⟨ha, hh, hd⟩)))
    refine ⟨fun i hi hbad hfirst => ?_, fun hvalid hintact => ?_⟩
    · have hsome : s.badEntry = some i := List.find?_range_eq_some.2 ⟨by simp [hbad], List.mem_range.2 hi, fun j hj => by simp [hfirst j hj]⟩
      rw [hsome] at hexec
      exact ⟨_, hexec, repeatRefused_run s _⟩
    · have hnone : s.badEntry = none := List.find?_eq_none.2 fun i hi => by simp [hvalid i (List.mem_range.1 hi)]
      rw [hnone] at hexec
      refine ⟨_, hexec, ?_⟩
      obtain ⟨hlift, hliftk⟩ := liftRecords_run hintact s.recEntry (List.nodup_range (n := s.recCount))
      generalize (liftRecords s.recEntry (List.range s.recCount)).run s = u at *
      obtain ⟨h1, h2, h3, h4, h5, hresets, hmarkk⟩ := repeatMarks_run u
      generalize repeatMarks.run u = v at *
      have hrestart {c : Nat} (hc : c ∈ s.enabledReeves) (hv : v.canRestart c = true) := repeatRestarts_run s v hc hv
      have hendk := repeatRestarts_keeps s v
      generalize (repeatRestarts s).run v = t at *
      have hpl : pgNum.placed := by simp
      have hbyte (x : Nat) : t.byte x = u.byte x := (hendk.mem x id).trans (hmarkk.mem x id)
      refine ⟨?_, ?_, ?_, ?_, ?_, fun hdist i hi => ?_, fun a ha => ?_, fun c hc hcan => hrestart hc ?_⟩
      · exact (hendk.bit_eq (not_offKinds (by simp) hpl (by decide))).trans h1
      · exact (hendk.bit_eq (not_offKinds (by simp) hpl (by decide))).trans h2
      · exact (hendk.fld_eq (not_offKinds (by simp) hpl (by decide))).trans h3
      · rw [hendk.dev id, h4]
      · rw [hendk.dev id, h5]
      · have halign (k : Nat) (hk : k < s.recCount) : s.recEntry k % 64 = 0 := by
          have := hvalid k hk
          rw [recordValid, Bool.and_eq_true, decide_eq_true_eq] at this
          exact this.1
        obtain ⟨hs, hh⟩ := hlift (fun i hi j hj hne => by
          have hi' := List.mem_range.1 hi
          have hj' := List.mem_range.1 hj
          have := halign i hi'
          have := halign j hj'
          have : s.recEntry i ≠ s.recEntry j := fun e => hne (hdist i hi' j hj' e)
          omega) i (List.mem_range.2 hi)
        have hle (b : Nat) : t.le b 1 = u.le b 1 := State.le_congr fun k _ => hbyte _
        rw [hle, hle, hs, hh]
        exact ⟨rfl, by omega, by omega⟩
      · rw [hbyte]
        exact hliftk.mem a fun ⟨i, hi, h⟩ => by
          obtain ⟨hn0, hn1⟩ := ha i (List.mem_range.1 hi)
          exact h.elim hn0 hn1
      · refine (canRestart_congr (fun a ha => ?_) (hresets.trans (congrArg _ (hliftk.dev id)))).trans hcan
        have hbase := croftBase_eq c
        obtain ⟨hlo, -⟩ := ha
        refine (hmarkk.regs a ?_).trans (hliftk.regs a ?_)
        · rintro ⟨p, hp, -, hhi⟩
          obtain rfl | rfl | rfl : p = pgNum ∨ p = pgLedger 0 ∨ p = pgLedger 1 := by simpa using hp
          all_goals simp only [pgNum, pgLedger, Page.base] at hhi; omega
        · rintro ⟨f, hf, rfl⟩
          obtain rfl := List.mem_singleton.1 hf
          simp only [pgNum, Page.base] at hlo
          have : R.numstep_HEADROOM_SAT_CNT.off < 0x1000 := by decide
          omega

end Sys2Proof.Machine
end

open Host
section
/-! O30: Watch's inputs and score, and the faults the Steward detects (R287, R409 to R411, R430 to R432). -/
namespace Sys2Proof.Machine

variable {s : State}

/-! ### Events -/

/-- An event reaches its input. -/
def eventReaches (k i v : Nat) : Prog := .all [modDev (fun d => { d with watchDue := d.watchDue.eraseIdx k }), setInputA i v]

theorem exec_watchEvent {k i : Nat} (h : s.dev.watchDue[k]? = some i) : exec (.watchEvent k) s = .next ((eventReaches k i
    (min 65535 (s.inputA i + 256 / 2 ^ s.fld pgWatch (R.watch_INPUT_CFG_PRESCALE.plus (8 * i))))).run s) := by
  show execWatchEvent k s = _
  simp -implicitDefEqProofs only [execWatchEvent, Prog.next_eq, Prog.run_get, h, eventReaches]

theorem setInputA_inputA {i v : Nat} (hi : i < 16) (hv : v < 65536) (s : State) {j : Nat} (hj : j < 16) :
    ((setInputA i v).run s).inputA j = if j = i then v else s.inputA j := by
  by_cases h : j = i
  · subst h
    simp [setInputA, State.inputA, Fld.plus, hv]
  · rw [if_neg h]
    refine congrArg (R.watch_INPUT_VAL_A.plus (8 * j)).of ?_
    simp only [setInputA, setFld_run_put]
    rw [State.reg_put_apart]
    simp [Fld.plus]
    omega

theorem inputA_lt (s : State) (i : Nat) : s.inputA i < 65536 := State.fld_lt (show 2 ^ 16 ≤ 65536 by decide) s _

/-! ### Decay -/

/-- The decay of one input. -/
def decays (i : Nat) : Prog := .get (fun s =>
  Prog.when (decide (0 < s.inputA i) && s.fld pgWatch (R.watch_INPUT_CFG_DECAY.plus (8 * i)) != 0)
    (setInputA i (s.inputA i - max 1 (s.inputA i / 2 ^ s.fld pgWatch (R.watch_INPUT_CFG_DECAY.plus (8 * i))))))

theorem exec_watchDecay (s : State) : exec .watchDecay s = .next ((Prog.each eventInputs decays).run s) := rfl

theorem decays_only (i : Nat) : (decays i).Only (Touch.allows { regs := theRegs pgWatch [R.watch_INPUT_VAL_A.plus (8 * i)] }) := by
  simp [decays, setInputA, Prog.only_when]

/-- Two states agree on an input. -/
def sameInput (i : Nat) (s t : State) : Prop := ∀ o, o = 0x100 + 8 * i ∨ o = 0x104 + 8 * i → t.reg pgWatch o = s.reg pgWatch o

theorem sameInput.inputA {i : Nat} {t : State} (h : sameInput i s t) : t.inputA i = s.inputA i :=
  congrArg (R.watch_INPUT_VAL_A.plus (8 * i)).of (h _ (.inr rfl))

theorem sameInput.cfg {i : Nat} {t : State} (h : sameInput i s t) (f : Fld) (hf : f.off = 0x100) : t.fld pgWatch (f.plus (8 * i)) = s.fld pgWatch (f.plus (8 * i)) :=
  congrArg (f.plus (8 * i)).of (h _ (.inl (by rw [Fld.plus, hf])))

theorem decays_aside {i j : Nat} (h : i ≠ j) (s : State) : sameInput i s ((decays j).run s) := by
  intro o ho
  refine (Prog.keeps (decays_only j) s).reg_eq (not_theRegs_offset ?_ _)
  simp only [List.map_cons, List.map_nil, List.mem_singleton, Fld.plus]
  omega

theorem decays_run {i : Nat} (hi : i < 16) (s : State) : ((decays i).run s).inputA i =
    if s.fld pgWatch (R.watch_INPUT_CFG_DECAY.plus (8 * i)) = 0 then s.inputA i
    else s.inputA i - max 1 (s.inputA i / 2 ^ s.fld pgWatch (R.watch_INPUT_CFG_DECAY.plus (8 * i))) := by
  have hlt := inputA_lt s i
  simp -implicitDefEqProofs only [decays, Prog.run_get, Prog.run_when]
  split
  case isTrue h =>
    rw [setInputA_inputA hi (by omega) s hi, if_pos rfl, if_neg (by simpa using (Bool.and_eq_true_iff.1 h).2)]
  case isFalse h =>
    simp only [Bool.and_eq_true, decide_eq_true_eq, bne_iff_ne, ne_eq, not_and, not_not] at h
    split
    case isTrue => rfl
    case isFalse hn =>
      have : s.inputA i = 0 := by
        by_contra h0
        exact hn (h (Nat.pos_of_ne_zero h0))
      omega

theorem mem_eventInputs {i : Nat} : i ∈ eventInputs ↔ i < 16 ∧ i ≠ 9 ∧ i ≠ 10 := by
  simp [eventInputs]

theorem watchDecay_inputA (s : State) {i : Nat} (hi : i < 16) : ((Prog.each eventInputs decays).run s).inputA i =
    if i = 9 ∨ i = 10 ∨ s.fld pgWatch (R.watch_INPUT_CFG_DECAY.plus (8 * i)) = 0 then s.inputA i
    else s.inputA i - max 1 (s.inputA i / 2 ^ s.fld pgWatch (R.watch_INPUT_CFG_DECAY.plus (8 * i))) := by
  by_cases hm : i ∈ eventInputs
  · obtain ⟨-, h9, h10⟩ := mem_eventInputs.1 hm
    obtain ⟨u, hu, hend⟩ := each_part (V := sameInput) (fun _ _ _ _ => rfl) (fun _ _ _ _ h h' o ho => (h' o ho).trans (h o ho))
      (l := eventInputs) (List.nodup_range.filter _) (fun x _ y _ hne t => decays_aside hne t) s hm
    rw [hend.inputA, decays_run hi, hu.inputA, hu.cfg _ rfl]
    exact if_congr (by simp [h9, h10]) rfl rfl
  · have haside := each_aside (V := sameInput i) (fun _ _ _ => rfl) (fun _ _ _ h h' o ho => (h' o ho).trans (h o ho))
      (fun y hy t => decays_aside (fun e : i = y => hm (by rwa [e])) t) s (l := eventInputs)
    have : i = 9 ∨ i = 10 := by
      by_contra hn
      rw [not_or] at hn
      exact hm (mem_eventInputs.2 ⟨hi, hn⟩)
    rw [haside.inputA, if_pos (by tauto)]

/-! ### The sample -/

/-- The two levels are sampled. -/
def samples (tj : Int) (shift : Nat) : Prog := .all [setInputA 9 (min 255 (max 0 (8 * (tj - 73))).toNat), setInputA 10 (min 255 shift)]

theorem samples_inputA (tj : Int) (shift : Nat) (s : State) :
    let t := (samples tj shift).run s
    t.inputA 9 = min 255 (max 0 (8 * (tj - 73))).toNat ∧ t.inputA 10 = min 255 shift ∧ ∀ i < 16, i ≠ 9 → i ≠ 10 → t.inputA i = s.inputA i := by
  have hrun : (samples tj shift).run s = (setInputA 10 (min 255 shift)).run ((setInputA 9 (min 255 (max 0 (8 * (tj - 73))).toNat)).run s) := by
    simp -implicitDefEqProofs only [samples, Prog.run_all_cons, Prog.run_all_nil]
  have h10 {j : Nat} (u : State) (hj : j < 16) : ((setInputA 10 (min 255 shift)).run u).inputA j = if j = 10 then min 255 shift else u.inputA j :=
    setInputA_inputA (by decide) (by omega) u hj
  have h9 {j : Nat} (u : State) (hj : j < 16) : ((setInputA 9 (min 255 (max 0 (8 * (tj - 73))).toNat)).run u).inputA j =
      if j = 9 then min 255 (max 0 (8 * (tj - 73))).toNat else u.inputA j := setInputA_inputA (by decide) (by omega) u hj
  refine ⟨?_, ?_, fun i hi h h' => ?_⟩
  all_goals rw [hrun, h10 _ (by omega)]
  · rw [if_neg (by decide), h9 _ (by decide), if_pos rfl]
  · rw [if_pos rfl]
  · rw [if_neg h', h9 _ hi, if_neg h]

theorem contribution_lt (s : State) (i : Nat) : s.contribution i < 256 := by
  unfold State.contribution
  split <;> omega

theorem sameInput.contribution {i : Nat} {t : State} (h : sameInput i s t) : t.contribution i = s.contribution i := by
  rw [State.contribution, State.bit, h.cfg _ rfl, h.cfg _ rfl, h.inputA]
  rfl

/-- What an input keeps beside its contribution's field. -/
def sameLevel (i : Nat) (s t : State) : Prop := t.inputA i = s.inputA i ∧ t.reg pgWatch (0x100 + 8 * i) = s.reg pgWatch (0x100 + 8 * i)

theorem sameLevel.contribution {i : Nat} {t : State} (h : sameLevel i s t) : t.contribution i = s.contribution i := by
  obtain ⟨ha, hcfg⟩ := h
  have hf (f : Fld) (hf : f.off = 0x100) : t.fld pgWatch (f.plus (8 * i)) = s.fld pgWatch (f.plus (8 * i)) :=
    congrArg (f.plus (8 * i)).of (by rw [Fld.plus, hf]; exact hcfg)
  rw [State.contribution, State.bit, hf _ rfl, hf _ rfl, ha]
  rfl

theorem sameInput.level {i : Nat} {t : State} (h : sameInput i s t) : sameLevel i s t := ⟨h.inputA, h _ (.inl rfl)⟩

/-- The contribution of an input is shown. -/
def showsContribution (a : State) (i : Nat) : Prog := setFld pgWatch (R.watch_INPUT_VAL_CONTRIB.plus (8 * i)) (a.contribution i)

theorem showsContribution_aside (a : State) {i j : Nat} (h : i ≠ j) (s : State) : sameInput i s ((showsContribution a j).run s) := by
  intro o ho
  refine (Prog.keeps (T := { regs := theRegs pgWatch [R.watch_INPUT_VAL_CONTRIB.plus (8 * j)] }) (by simp [showsContribution]) s).reg_eq
    (not_theRegs_offset ?_ _)
  simp only [List.map_cons, List.map_nil, List.mem_singleton, Fld.plus]
  omega

theorem showsContribution_run (a : State) {i : Nat} (hi : i < 16) (s : State) :
    let t := (showsContribution a i).run s
    sameLevel i s t ∧ t.fld pgWatch (R.watch_INPUT_VAL_CONTRIB.plus (8 * i)) = a.contribution i := by
  have hlt := contribution_lt a i
  refine ⟨⟨?_, ?_⟩, ?_⟩
  · simp [showsContribution, State.inputA, Fld.plus]
  · simp only [showsContribution, setFld_run_put]
    rw [State.reg_put_apart]
    simp [Fld.plus]
    omega
  · simp [showsContribution, Fld.plus, Nat.mod_eq_of_lt hlt]

/-- The contributions are shown. -/
def contribs (a : State) : Prog := Prog.each (List.range 16) (showsContribution a)

theorem contribs_run (a s : State) {i : Nat} (hi : i < 16) :
    let t := (contribs a).run s
    sameLevel i s t ∧ t.fld pgWatch (R.watch_INPUT_VAL_CONTRIB.plus (8 * i)) = a.contribution i := by
  obtain ⟨u, hu, hend⟩ := each_part (V := sameInput) (fun _ _ _ _ => rfl) (fun _ _ _ _ h h' o ho => (h' o ho).trans (h o ho))
    List.nodup_range (fun x _ y _ hne t => showsContribution_aside a hne t) s (List.mem_range.2 hi)
  obtain ⟨hlevel, hshow⟩ := showsContribution_run a hi u
  refine ⟨⟨hend.inputA.trans (hlevel.1.trans hu.inputA), ?_⟩, ?_⟩
  · exact (hend _ (.inl rfl)).trans (hlevel.2.trans (hu _ (.inl rfl)))
  · exact (congrArg (R.watch_INPUT_VAL_CONTRIB.plus (8 * i)).of (hend _ (.inr rfl))).trans hshow

theorem contribs_low (a s : State) {o : Nat} (ho : o < 0x100) : ((contribs a).run s).reg pgWatch o = s.reg pgWatch o :=
  each_aside (V := fun s t => t.reg pgWatch o = s.reg pgWatch o) (fun _ => rfl) (fun _ _ _ h h' => h'.trans h) (fun i _ t => by
    refine (Prog.keeps (T := { regs := theRegs pgWatch [R.watch_INPUT_VAL_CONTRIB.plus (8 * i)] }) (by simp [showsContribution]) t).reg_eq
      (not_theRegs_offset ?_ _)
    simp only [List.map_cons, List.map_nil, List.mem_singleton, Fld.plus]
    omega) s

/-- The score of a state whose contributions are formed. -/
def State.score (s : State) : Nat := if s.enabled pgWatch then min 255 ((List.range 16).map s.contribution).sum else 0

/-- The score is shown. -/
def scores (score top peak : Nat) : Prog := .all [
  setFld pgWatch R.watch_STATUS_SCORE score, setFld pgWatch R.watch_STATUS_TOP top, setFld pgWatch R.watch_PEAK_SCORE peak]

/-- A crossing is counted and logged, and a request counted. -/
def crossed (score top : Nat) : Prog := .all [
  bump pgWatch R.watch_CROSS_CNT, setFld pgWatch R.watch_CROSS_LOG_SCORE score, setFld pgWatch R.watch_CROSS_LOG_TOP top,
  setFld pgWatch R.watch_CROSS_LOG_VALID 1, raiseLine pgWatch, bump pgWatch R.watch_REQ_CNT]

/-- The score crosses its threshold. -/
def State.crosses (s : State) (score : Nat) : Prop :=
  s.enabled pgWatch = true ∧ s.fld pgWatch R.watch_STATUS_SCORE < s.fld pgWatch R.watch_CFG_THRESH ∧ s.fld pgWatch R.watch_CFG_THRESH ≤ score

/-- The last snapshot is too near for a request. -/
def State.near (s : State) : Prop := s.stepIndex + 2 - s.fld pgBucket R.bucket_B_LAST < s.fld pgWatch R.watch_CFG_MIN_GAP

/-- A crossing asks for a snapshot, or is too near the last. -/
def asks (b : Nat) (near : Prop) [Decidable near] : Prog := if near then bump pgWatch R.watch_GAP_DROP_CNT else askSnapshot b

/-- The score is formed and shown. -/
def shows (a : State) : Prog := .all [contribs a,
  scores a.score (topInput ((List.range 16).map a.contribution)) (max (a.fld pgWatch R.watch_PEAK_SCORE) a.score)]

theorem contribs_eq (a : State) :
    Prog.each (List.zip (List.range 16) ((List.range 16).map a.contribution))
      (fun x => setFld pgWatch (R.watch_INPUT_VAL_CONTRIB.plus (8 * x.1)) x.2) = contribs a := by
  rw [show List.zip (List.range 16) ((List.range 16).map a.contribution) = (List.range 16).map (fun i => (i, a.contribution i)) by
    simpa using List.zip_map' (f := fun i => i) (g := a.contribution) (l := List.range 16), each_map]
  rfl

theorem crossed_keeps (score top : Nat) (s : State) : Keeps { regs := theRegs pgWatch [R.watch_CROSS_CNT, R.watch_CROSS_LOG_SCORE,
    R.CRIER_LINE_RAISED, R.watch_REQ_CNT] } s ((crossed score top).run s) := Prog.keeps (by simp [crossed]) s

theorem crossed_run {score : Nat} (h : score < 256) (top : Nat) (s : State) :
    let t := (crossed score top).run s
    Counts s t pgWatch R.watch_CROSS_CNT 1 ∧ Counts s t pgWatch R.watch_REQ_CNT 1 ∧ t.fld pgWatch R.watch_CROSS_LOG_SCORE = score ∧
    t.bit pgWatch R.watch_CROSS_LOG_VALID = true := by
  refine ⟨?_, ?_, ?_, ?_⟩
  all_goals simp -implicitDefEqProofs [crossed, Counts, State.bit, Nat.mod_eq_of_lt h]

theorem scores_keeps (score top peak : Nat) (s : State) : Keeps { regs := theRegs pgWatch [R.watch_STATUS_SCORE, R.watch_PEAK_SCORE] } s
    ((scores score top peak).run s) := Prog.keeps (by simp [scores]) s

theorem scores_run {score top peak : Nat} (h : score < 256) (ht : top < 16) (hp : peak < 256) (s : State) :
    let t := (scores score top peak).run s
    t.fld pgWatch R.watch_STATUS_SCORE = score ∧ t.fld pgWatch R.watch_STATUS_TOP = top ∧ t.fld pgWatch R.watch_PEAK_SCORE = peak := by
  refine ⟨?_, ?_, ?_⟩
  all_goals simp -implicitDefEqProofs [scores, Nat.mod_eq_of_lt h, Nat.mod_eq_of_lt ht, Nat.mod_eq_of_lt hp]

theorem contribs_keeps (a s : State) : Keeps { regs := fun x => pgWatch.base + 0x100 ≤ x ∧ pgWatch.covers x } s ((contribs a).run s) := by
  refine Prog.keeps ((Prog.only_each ..).2 fun i hi => ?_) s
  have := List.mem_range.1 hi
  simp [showsContribution, onReg, Page.covers, Fld.plus]
  omega

theorem samples_keeps (tj : Int) (shift : Nat) (s : State) :
    Keeps { regs := fun x => pgWatch.base + 0x100 ≤ x ∧ pgWatch.covers x } s ((samples tj shift).run s) := by
  refine Prog.keeps ?_ s
  simp [samples, setInputA, onReg, Page.covers, Fld.plus]

/-- A register below the inputs is not among the inputs'. -/
theorem not_inputs {o : Nat} (h : o < 0x100) : ¬ (pgWatch.base + 0x100 ≤ pgWatch.base + o ∧ pgWatch.covers (pgWatch.base + o)) := by
  omega

/-- A register of the numbers' page, of Bucket's or of the ports' is not among the inputs'. -/
theorem not_inputs_of_page {p : Page} (hp : p = pgNum ∨ p = pgBucket ∨ p = pgPort) {o : Nat} (ho : o < 0x1000) :
    ¬ (pgWatch.base + 0x100 ≤ p.base + o ∧ pgWatch.covers (p.base + o)) := by
  rcases hp with rfl | rfl | rfl
  all_goals simp only [pgWatch, pgNum, pgBucket, pgPort, Page.base, Page.covers]; omega

theorem enabled_of_reg {t : State} (h : ∀ o < 0x100, t.reg pgWatch o = s.reg pgWatch o) : t.enabled pgWatch = s.enabled pgWatch := by
  simp only [State.enabled, State.bit, State.fld_eq, h R.CTL_ENABLE.off (by decide), h R.STATE_STATE.off (by decide)]

theorem topInput_lt {cs : List Nat} (h : cs ≠ []) : topInput cs < cs.length := by
  refine List.idxOf_lt_length_iff.2 ?_
  obtain ⟨hmem, hle⟩ := List.max?_eq_some_iff.1 (List.max?_cons' (x := 0) (xs := cs))
  rcases List.mem_cons.1 hmem with h0 | hmem
  · obtain ⟨x, hx⟩ := List.exists_mem_of_ne_nil cs h
    have hx0 := hle x (List.mem_cons_of_mem _ hx)
    rw [h0] at hx0 ⊢
    rwa [← Nat.le_zero.1 hx0]
  · exact hmem

theorem score_lt (s : State) : s.score < 256 := by
  unfold State.score
  split <;> omega

theorem asks_only (b : Nat) (near : Prop) [Decidable near] : (asks b near).Only
    (Touch.allows { regs := theRegs pgWatch [R.watch_GAP_DROP_CNT], links := (· < 16), dev := True }) := by
  unfold asks
  split <;> simp +contextual [askSnapshot, flood, Prog.only_when]

theorem askSnapshot_run (b : Nat) (s : State) :
    let t := (askSnapshot b).run s
    Floods s t (.snapReq s.self b) none ∧
    (s.enabled pgBucket = true → t.dev = { s.dev with pendingB := some (max (s.dev.pendingB.getD 0) b) }) := by
  simp -implicitDefEqProofs only [askSnapshot, Prog.run_get, Prog.run_all_cons, Prog.run_all_nil, Prog.run_when]
  refine ⟨?_, fun h => ?_⟩
  · split
    all_goals exact flood_floods _ _ _
  · rw [if_pos h]
    exact (flood_keeps _ _ _).dev id

/-- What showing the score changes. -/
def showTouch : Touch := { regs := fun x => (pgWatch.base + 0x100 ≤ x ∧ pgWatch.covers x) ∨ theRegs pgWatch [R.watch_STATUS_SCORE, R.watch_PEAK_SCORE] x }

theorem shows_keeps (a s : State) : Keeps showTouch s ((shows a).run s) := by
  have hrun : (shows a).run s = (scores a.score (topInput ((List.range 16).map a.contribution)) (max (a.fld pgWatch R.watch_PEAK_SCORE) a.score)).run
      ((contribs a).run s) := by
    simp -implicitDefEqProofs only [shows, Prog.run_all_cons, Prog.run_all_nil]
  rw [hrun]
  exact ((contribs_keeps a s).mono (by constructor <;> simp +contextual [showTouch])).trans
    ((scores_keeps _ _ _ _).mono (by constructor <;> simp +contextual [showTouch]))

theorem not_showTouch {o : Nat} (h : o < 0x100) (h1 : o ≠ R.watch_STATUS_SCORE.off) (h2 : o ≠ R.watch_PEAK_SCORE.off) :
    ¬ showTouch.regs (pgWatch.base + o) := by
  rintro (hi | ht)
  · exact not_inputs h hi
  · exact not_theRegs_offset (by simp only [List.map_cons, List.map_nil, List.mem_cons, List.not_mem_nil, or_false, not_or]; exact ⟨h1, h2⟩) _ ht

theorem not_showTouch_of_page {p : Page} (hp : p = pgNum ∨ p = pgBucket ∨ p = pgPort) {o : Nat} (ho : o < 0x1000) : ¬ showTouch.regs (p.base + o) := by
  rintro (hi | ⟨f, hf, he⟩)
  · exact not_inputs_of_page hp ho hi
  · have hf' : f.off < 0x1000 := by
      revert f
      simp
    rcases hp with rfl | rfl | rfl
    all_goals simp only [pgWatch, pgNum, pgBucket, pgPort, Page.base] at he; omega

theorem riskRequest_run [Decidable s.near] {w : State} (hidx : w.stepIndex = s.stepIndex)
    (hlast : w.fld pgBucket R.bucket_B_LAST = s.fld pgBucket R.bucket_B_LAST) (hgap : w.fld pgWatch R.watch_CFG_MIN_GAP = s.fld pgWatch R.watch_CFG_MIN_GAP) :
    riskRequest.run w = (asks (s.stepIndex + 2) s.near).run ((bump pgWatch R.watch_REQ_CNT).run w) := by
  simp -implicitDefEqProofs only [riskRequest, Prog.run_get, Prog.run_all_cons, Prog.run_all_nil, hidx, hlast, hgap, asks, Prog.run_ite]
  exact if_congr Iff.rfl rfl rfl

/-- What forming the score does: a crossing is decided before the score is shown, and asks once it is. -/
theorem formScore_run (s : State) [Decidable (s.crosses s.score)] [Decidable s.near] : formScore.run s =
    if s.crosses s.score then (asks (s.stepIndex + 2) s.near).run
      ((crossed s.score (topInput ((List.range 16).map s.contribution))).run ((shows s).run s)) else (shows s).run s := by
  have hrun : formScore.run s = (Prog.when (s.enabled pgWatch && decide (s.fld pgWatch R.watch_STATUS_SCORE < s.fld pgWatch R.watch_CFG_THRESH) &&
      decide (s.fld pgWatch R.watch_CFG_THRESH ≤ s.score)) (.all [bump pgWatch R.watch_CROSS_CNT, setFld pgWatch R.watch_CROSS_LOG_SCORE s.score,
        setFld pgWatch R.watch_CROSS_LOG_TOP (topInput ((List.range 16).map s.contribution)), setFld pgWatch R.watch_CROSS_LOG_VALID 1,
        raiseLine pgWatch, riskRequest])).run ((shows s).run s) := by
    simp -implicitDefEqProofs only [formScore, shows, scores, Prog.run_get, Prog.run_all_cons, Prog.run_all_nil, contribs_eq]
    rfl
  have hmid (v : State) := Prog.keeps (p := .all [bump pgWatch R.watch_CROSS_CNT, setFld pgWatch R.watch_CROSS_LOG_SCORE s.score,
      setFld pgWatch R.watch_CROSS_LOG_TOP (topInput ((List.range 16).map s.contribution)), setFld pgWatch R.watch_CROSS_LOG_VALID 1,
      raiseLine pgWatch]) (T := { regs := theRegs pgWatch [R.watch_CROSS_CNT, R.watch_CROSS_LOG_SCORE, R.CRIER_LINE_RAISED] }) (by simp) v
  simp -implicitDefEqProofs only [Prog.run_all_cons, Prog.run_all_nil] at hmid
  have hkeep := shows_keeps s s
  rw [hrun, Prog.run_when]
  refine if_congr (by simp [State.crosses, and_assoc]) ?_ rfl
  simp -implicitDefEqProofs only [crossed, Prog.run_all_cons, Prog.run_all_nil]
  refine riskRequest_run ?_ ?_ ?_
  · exact ((hmid _).fld_eq (not_theRegs_apart (by simp))).trans (hkeep.fld_eq (not_showTouch_of_page (.inl rfl) (by decide)))
  · exact ((hmid _).fld_eq (not_theRegs_apart (by simp))).trans (hkeep.fld_eq (not_showTouch_of_page (.inr (.inl rfl)) (by decide)))
  · exact ((hmid _).fld_eq (not_theRegs_offset (by decide) _)).trans (hkeep.fld_eq (not_showTouch (by decide) (by decide) (by decide)))


/-! ### Stops of every croft -/

theorem stopAtOnce_only (c : Nat) : (stopAtOnce c).Only (leaveTouch c).allows := by
  have h (b : Bool) : (if b = true then setFld (pgReeve c) R.reeve_STATUS_MORE 1 else setFld (pgReeve c) R.reeve_STATUS_HALT_REASON 4).Only
      (leaveTouch c).allows := by
    cases b <;> simp [leaveTouch]
  simp only [leaveTouch] at h
  simp [stopAtOnce, croftStops, countHalted, flood, sendFlits, leaveTouch, Prog.only_when, faultRecord, h]

theorem stopAtOnce_start (c : Nat) (d : Device) : (stopAtOnce c).Safe (looks startView d) := by
  have h (b : Bool) : (if b = true then setFld (pgReeve c) R.reeve_STATUS_MORE 1 else setFld (pgReeve c) R.reeve_STATUS_HALT_REASON 4).Safe
      (looks startView d) := by
    cases b <;> simp
  simp [stopAtOnce, croftStops, countHalted, flood, sendFlits, faultRecord, h]

/-- The reeves that run are stopped. -/
def stopsWatched (s : State) : Prog := Prog.each (allCrofts.filter s.watched) stopAtOnce

theorem not_leaveTouch_watch (c : Nat) {o : Nat} (ho : o < 0x1000) : ¬ (leaveTouch c).regs (pgWatch.base + o) := by
  have hc := croftBase_eq c
  rintro ⟨p, hp, h1, h2⟩
  obtain rfl | rfl | rfl : p = pgReeve c ∨ p = pgOwn c ∨ p = pgPlan := by simpa using hp
  all_goals simp only [pgReeve, pgOwn, pgPlan, pgWatch, Page.base] at h1 h2; omega

/-- What the stops leave. -/
theorem stopsWatched_aside (s : State) :
    let t := (stopsWatched s).run s
    (∀ o < 0x1000, t.reg pgWatch o = s.reg pgWatch o) ∧ (∀ c, (128 ≤ c ∨ s.watched c = false) → t.croft c = s.croft c) ∧
    (∀ a, t.byte a = s.byte a) ∧ startView t.dev = startView s.dev := by
  have hone (c : Nat) (t : State) := Prog.keeps (stopAtOnce_only c) t
  refine ⟨fun o ho => ?_, fun c hc => ?_, fun a => ?_, ?_⟩
  · exact each_aside (V := fun s t => t.reg pgWatch o = s.reg pgWatch o) (fun _ => rfl) (fun _ _ _ h h' => h'.trans h)
      (fun k _ t => (hone k t).reg_eq (not_leaveTouch_watch k ho)) s
  · refine each_aside (V := fun s t => t.croft c = s.croft c) (fun _ => rfl) (fun _ _ _ h h' => h'.trans h)
      (fun k hk t => (hone k t).crofts c ?_) s
    rintro (rfl : c = k)
    obtain ⟨hlt, hw⟩ := List.mem_filter.1 hk
    have : c < 128 := List.mem_range.1 hlt
    rcases hc with h | h
    · omega
    · exact absurd hw (by rw [h]; decide)
  · exact each_aside (V := fun s t => t.byte a = s.byte a) (fun _ => rfl) (fun _ _ _ h h' => h'.trans h)
      (fun k _ t => (hone k t).mem a id) s
  · exact looks_run (fun d => (Prog.safe_each exists_looks ..).2 fun c _ => stopAtOnce_start c d) s

/-- What a stop makes of a reeve that runs. -/
def StoppedAtOnce (c : Nat) (s t : State) : Prop :=
  t.running c = false ∧ t.bit (pgReeve c) R.reeve_STATUS_HALTED = true ∧ (t.reeve c).dead = true ∧ (t.reeve c).pend = [] ∧
  t.fld (pgReeve c) R.STATE_STATE = stFault ∧ t.fld (pgReeve c) R.FAULT_CAUSE = 0x0A ∧
  ((s.reeve c).halting = none → t.fld (pgReeve c) R.reeve_STATUS_HALT_REASON = 4)

theorem stopAtOnce_stops {c : Nat} (hc : c < 128) (h : s.watched c = true) : StoppedAtOnce c s ((stopAtOnce c).run s) := by
  have hw := h
  simp only [State.watched, Bool.and_eq_true, Bool.not_eq_true'] at hw
  obtain ⟨⟨hrun, hdead⟩, hup⟩ := hw
  have hexec : exec (.watchdogExpiry ⟨c, hc⟩) s = .next ((stopAtOnce c).run s) := by
    show execWatchdogExpiry ⟨c, hc⟩ s = _
    simp only [execWatchdogExpiry, Prog.next_eq, Prog.run_get, h, Prog.run_when_true]
  obtain ⟨hfault, hcause, hstopped, hhalted, hreason, -, -, -, -, hcroft, -⟩ := (watchdogAndRestarts.1 s ⟨c, hc⟩ hrun hdead hup).elim hexec
  refine ⟨hstopped, hhalted, ?_, ?_, hfault, ?_, hreason⟩
  · rw [State.reeve_eq, hcroft]
  · rw [State.reeve_eq, hcroft]
  · exact (Fld.of_whole rfl rfl _).trans hcause

theorem StoppedAtOnce.congr {c : Nat} {s' t t' : State} (h : StoppedAtOnce c s t) (hs : SameReeve c s' s) (ht : SameReeve c t t') :
    StoppedAtOnce c s' t' := by
  obtain ⟨h1, h2, h3, h4, h5, h6, h7⟩ := h
  refine ⟨(ht.bit (by decide)).trans h1, (ht.bit (by decide)).trans h2, ?_, ?_, (ht.fld (by decide)).1.trans h5, (ht.fld (by decide)).1.trans h6,
    fun hn => (ht.fld (by decide)).1.trans (h7 ?_)⟩
  · rw [ht.reeve, h3]
  · rw [ht.reeve, h4]
  · rw [hs.reeve, hn]

theorem stopsWatched_stops (s : State) {c : Nat} (hc : c < 128) (h : s.watched c = true) : StoppedAtOnce c s ((stopsWatched s).run s) := by
  obtain ⟨u, ⟨hu, hres⟩, hend, -⟩ := each_part (V := fun c s t => SameReeve c s t ∧ t.dev.resets = s.dev.resets)
    (fun c s => ⟨SameReeve.refl c s, rfl⟩) (fun c _ _ _ h h' => ⟨SameReeve.trans c _ _ _ h.1 h'.1, h'.2.trans h.2⟩)
    (l := allCrofts.filter s.watched) (List.nodup_range.filter _)
    (fun x _ y _ hne t => ⟨(Prog.keeps (stopAtOnce_only y) t).leaves_sameReeve hne,
      congrArg StartView.resets (looks_run (stopAtOnce_start y) t)⟩) s (List.mem_filter.2 ⟨List.mem_range.2 hc, h⟩)
  have hw : u.watched c = true := by
    rw [← h]
    simp only [State.watched, State.running, State.underReset, hu.bit (f := R.reeve_STATUS_RUNNING) (by decide), hu.reeve, hres]
  exact (stopAtOnce_stops hc hw).congr hu hend

/-- What the expiry of the Steward's watchdog records. -/
def expiryRecord : Prog := .all [setFld pgWatch R.watch_SW_WDOG_EXPIRED 1, pageFault pgWatch 3 0, bump pgWatch R.watch_SW_WDOG_CNT]

/-- FAULT_N is asserted and the mailbox is failed. -/
def expiryDev : Prog := modDev (fun d => { d with
  faultN := true, host := { d.host with mailbox := { d.host.mailbox with mstate := 3, serving := none } } })

theorem exec_stewardWdogExpiry (s : State) : exec .stewardWdogExpiry s = .next
    (expiryRecord.run ((stopsWatched s).run (expiryDev.run s))) := by
  show execStewardWdogExpiry s = _
  simp -implicitDefEqProofs only [execStewardWdogExpiry, Prog.next_eq, Prog.run_get, Prog.run_all_cons, Prog.run_all_nil, expiryRecord,
    stopsWatched, expiryDev]

theorem expiryRecord_keeps (s : State) : Keeps { regs := pgWatch.covers } s (expiryRecord.run s) := Prog.keeps (by simp [expiryRecord]) s

theorem Keeps.watch_sameReeve {t : State} (h : Keeps { regs := pgWatch.covers } s t) (c : Nat) : SameReeve c s t := by
  have hc := croftBase_eq c
  refine ⟨h.crofts c id, fun o ho => ⟨h.reg_eq ?_, h.reg_eq ?_⟩⟩
  all_goals simp only [Page.covers, pgWatch, pgReeve, pgOwn, Page.base]; omega

theorem expiryRecord_run (s : State) :
    let t := expiryRecord.run s
    t.bit pgWatch R.watch_SW_WDOG_EXPIRED = true ∧ Counts s t pgWatch R.watch_SW_WDOG_CNT 1 ∧ Faults s t pgWatch 3 := by
  have hrun : expiryRecord.run s = (bump pgWatch R.watch_SW_WDOG_CNT).run ((pageFault pgWatch 3 0).run
      ((setFld pgWatch R.watch_SW_WDOG_EXPIRED 1).run s)) := by
    simp -implicitDefEqProofs only [expiryRecord, Prog.run_all_cons, Prog.run_all_nil]
  have hfault := pageFault_run_faults pgWatch (cause := 3) (by decide) 0 ((setFld pgWatch R.watch_SW_WDOG_EXPIRED 1).run s)
  have hkeep := Prog.keeps (T := { regs := theRegs pgWatch faultRegs }) (p := pageFault pgWatch 3 0) (by simp [faultRegs])
    ((setFld pgWatch R.watch_SW_WDOG_EXPIRED 1).run s)
  rw [hrun]
  generalize (pageFault pgWatch 3 0).run _ = u at *
  refine ⟨?_, ?_, hfault.congr (fun f hf => ?_) fun f hf => ?_⟩
  · refine Eq.trans ?_ ((hkeep.bit_eq (f := R.watch_SW_WDOG_EXPIRED) (not_theRegs_offset (by decide) _)).trans ?_)
    · simp
    · simp [State.bit]
  · have := hkeep.reg_eq (o := R.watch_SW_WDOG_CNT.off) (not_theRegs_offset (by decide) pgWatch)
    simp at this
    simp [Counts, this]
  · revert f
    simp [faultRegs]
  · revert f
    simp [faultRegs]

/-! ### Residue mismatches -/

/-- Whether an order is the unit's own. -/
def Issued.ofUnit (u : Nat) (o : Issued) : Bool := o.unit == resUnit u && o.engine != 7

/-- A unit stops with what it had in hand. -/
def unitStops (c u : Nat) : Prog := .all [
  modCroft c (fun r => { r with
    stopped := if r.stopped.contains u then r.stopped else r.stopped ++ [u]
    runs := if u = 5 then [] else r.runs
    mill := if u = 4 then none else r.mill
    reeve := { r.reeve with orders := r.reeve.orders.filter (fun o => !o.ofUnit u) } }),
  Prog.when (decide (u < 4)) (eff (.pumpErase (c * 4 + u) (c * 4 + u + 1)))]

/-- The record of a mismatch on Watch's page. -/
def residueRecord (c u : Nat) (valid : Bool) : Prog := .all [
  eff .seq,
  Prog.when (!valid) (.all [
    setFld pgWatch R.watch_RES_LOG_CROFT c, setFld pgWatch R.watch_RES_LOG_ENGINE u, setFld pgWatch R.watch_RES_LOG_VALID 1]),
  pageFault pgWatch 1 0, bump pgWatch R.watch_RES_CNT]

theorem exec_residueMismatch {c : CroftId} {u : Fin 6} (h : s.croftUnderReset c.val = false) : ∃ idx, exec (.residueMismatch c u) s = .next
    ((orderHalt c.val idx (resEngine u.val)).run ((unitStops c.val u.val).run
      ((residueRecord c.val u.val (s.bit pgWatch R.watch_RES_LOG_VALID)).run s))) := by
  refine ⟨?_, ?_⟩
  rotate_left
  · show execResidueMismatch c u s = _
    simp -implicitDefEqProofs only [execResidueMismatch, Prog.next_eq, Prog.run_get, h, Bool.false_eq_true, if_false, Prog.run_all_cons,
      Prog.run_all_nil, residueRecord, unitStops]
    rfl

/-- The registers of a mismatch's record. -/
def residueFields : List Fld := [R.watch_RES_LOG_VALID, R.watch_RES_CNT, R.STATE_STATE, R.FAULT_CAUSE, R.FAULT_ADDR_LO, R.FAULT_ADDR_HI]

theorem residueRecord_keeps (c u : Nat) (valid : Bool) (s : State) :
    Keeps { regs := theRegs pgWatch residueFields, seq := True } s ((residueRecord c u valid).run s) :=
  Prog.keeps (by cases valid <;> simp [residueRecord, residueFields, Touch.allows, Prog.when]) s

/-- The log of a mismatch. -/
def residueLog (c u : Nat) (valid : Bool) : Prog := .all [eff .seq, Prog.when (!valid) (.all [
    setFld pgWatch R.watch_RES_LOG_CROFT c, setFld pgWatch R.watch_RES_LOG_ENGINE u, setFld pgWatch R.watch_RES_LOG_VALID 1])]

theorem residueLog_keeps (c u : Nat) (valid : Bool) (s : State) :
    Keeps { regs := theRegs pgWatch [R.watch_RES_LOG_VALID], seq := True } s ((residueLog c u valid).run s) :=
  Prog.keeps (by cases valid <;> simp [residueLog, Touch.allows, Prog.when]) s

theorem residueLog_run {c u : Nat} (hc : c < 128) (hu : u < 6) (s : State) :
    let t := (residueLog c u (s.bit pgWatch R.watch_RES_LOG_VALID)).run s
    t.bit pgWatch R.watch_RES_LOG_VALID = true ∧ (s.bit pgWatch R.watch_RES_LOG_VALID = false →
      t.fld pgWatch R.watch_RES_LOG_CROFT = c ∧ t.fld pgWatch R.watch_RES_LOG_ENGINE = u) := by
  cases hv : s.bit pgWatch R.watch_RES_LOG_VALID
  · simp -implicitDefEqProofs [residueLog, State.bit, Nat.mod_eq_of_lt hc, Nat.mod_eq_of_lt (show u < 8 by omega)]
  · refine ⟨hv, nofun⟩

theorem pageFault_bump_run (p : Page) {cause : Nat} (hc : cause < 2 ^ R.FAULT_CAUSE.width) {f : Fld} (hf : f.off ∉ faultRegs.map Fld.off) (s : State) :
    let t := (bump p f).run ((pageFault p cause 0).run s)
    Counts s t p f 1 ∧ Faults s t p cause := by
  have hfault := pageFault_run_faults p hc 0 s
  have hkeep := Prog.keeps (T := { regs := theRegs p faultRegs }) (p := pageFault p cause 0) (by simp [faultRegs]) s
  generalize (pageFault p cause 0).run s = u at *
  refine ⟨?_, hfault.congr (fun _ _ => rfl) fun g hg => ?_⟩
  · have := hkeep.reg_eq (o := f.off) (not_theRegs_offset hf p)
    simp -implicitDefEqProofs [Counts, this]
  · have hne : f.off ≠ g.off := fun e => hf (e ▸ List.mem_map_of_mem hg)
    rw [bump_run_put, State.put, State.reg_apply_reg, if_neg (by omega)]

theorem residueRecord_run {c u : Nat} (hc : c < 128) (hu : u < 6) (s : State) :
    let t := (residueRecord c u (s.bit pgWatch R.watch_RES_LOG_VALID)).run s
    Counts s t pgWatch R.watch_RES_CNT 1 ∧ t.bit pgWatch R.watch_RES_LOG_VALID = true ∧
    (s.bit pgWatch R.watch_RES_LOG_VALID = false →
      t.fld pgWatch R.watch_RES_LOG_CROFT = c ∧ t.fld pgWatch R.watch_RES_LOG_ENGINE = u) ∧ Faults s t pgWatch 1 := by
  have hrun : (residueRecord c u (s.bit pgWatch R.watch_RES_LOG_VALID)).run s = (Prog.all [pageFault pgWatch 1 0, bump pgWatch R.watch_RES_CNT]).run
      ((residueLog c u (s.bit pgWatch R.watch_RES_LOG_VALID)).run s) := by
    simp -implicitDefEqProofs only [residueRecord, residueLog, Prog.run_all_cons, Prog.run_all_nil]
  obtain ⟨hvalid, hlog⟩ := residueLog_run hc hu s
  have hbefore := residueLog_keeps c u (s.bit pgWatch R.watch_RES_LOG_VALID) s
  rw [hrun]
  generalize (residueLog c u (s.bit pgWatch R.watch_RES_LOG_VALID)).run s = v at *
  have hafter := Prog.keeps (T := { regs := theRegs pgWatch (R.watch_RES_CNT :: faultRegs) })
    (p := .all [pageFault pgWatch 1 0, bump pgWatch R.watch_RES_CNT]) (by simp [faultRegs]) v
  obtain ⟨hcnt, hfault⟩ := pageFault_bump_run pgWatch (cause := 1) (by decide) (f := R.watch_RES_CNT) (by decide) v
  simp -implicitDefEqProofs only [Prog.run_all_cons, Prog.run_all_nil] at hafter ⊢
  generalize (bump pgWatch R.watch_RES_CNT).run ((pageFault pgWatch 1 0).run v) = t at *
  refine ⟨?_, (hafter.bit_eq (not_theRegs_offset (by decide) _)).trans hvalid, fun h => ?_, hfault.congr (fun f hf => ?_) fun _ _ => rfl⟩
  · rw [Counts, hcnt, hbefore.reg_eq (not_theRegs_offset (by decide) _)]
  · obtain ⟨h1, h2⟩ := hlog h
    exact ⟨(hafter.fld_eq (not_theRegs_offset (by decide) _)).trans h1, (hafter.fld_eq (not_theRegs_offset (by decide) _)).trans h2⟩
  · refine hbefore.reg_eq (not_theRegs_offset ?_ _)
    revert f
    decide

theorem unitStops_croft (c u : Nat) (s : State) : ((unitStops c u).run s).croft c = { s.croft c with
    stopped := if (s.croft c).stopped.contains u then (s.croft c).stopped else (s.croft c).stopped ++ [u]
    runs := if u = 5 then [] else (s.croft c).runs
    mill := if u = 4 then none else (s.croft c).mill
    reeve := { (s.croft c).reeve with orders := (s.croft c).reeve.orders.filter (fun o => !o.ofUnit u) } } := by
  simp -implicitDefEqProofs only [unitStops, Prog.run_all_cons, Prog.run_all_nil, modCroft, Prog.run_get, Prog.run_eff, Prog.run_when]
  split <;> simp

theorem unitStops_keeps (c u : Nat) (s : State) : Keeps { crofts := (· = c), pumps := fun p => u < 4 ∧ p = c * 4 + u } s ((unitStops c u).run s) := by
  refine Prog.keeps ?_ s
  simp [unitStops, Prog.only_when, Touch.allows]
  omega

theorem orderHalt_keeps (c idx engine : Nat) (s : State) :
    Keeps { regs := theRegs (pgReeve c) [R.reeve_FAULT_IDX_INDEX, R.reeve_STATUS_MORE], crofts := (· = c), dev := True } s
      ((orderHalt c idx engine).run s) := Prog.keeps (by simp [orderHalt]) s

theorem haltReq_croft_more (c x : Nat) (s : State) : ∃ r : Reeve, ((haltReq c x).run s).croft c = { s.croft c with reeve := r } ∧
    r.orders = (s.reeve c).orders ∧ (s.running c = true → r.halting.isSome = true) := by
  rw [haltReq_croft]
  by_cases hn : s.haltsNow c = true
  · exact ⟨_, if_pos ⟨rfl, hn⟩, rfl, fun _ => rfl⟩
  · refine ⟨s.reeve c, if_neg (fun h => hn h.2), rfl, fun hrun => ?_⟩
    simpa [State.haltsNow, hrun, Option.isSome_iff_ne_none] using hn

/-- FAULT_IDX names an order and its engine. -/
def faultIdx (c idx engine : Nat) : Prog := .all [
  setFld (pgReeve c) R.reeve_FAULT_IDX_INDEX idx, setFld (pgReeve c) R.reeve_FAULT_IDX_ENGINE engine]

theorem faultIdx_keeps (c idx engine : Nat) (s : State) :
    Keeps { regs := theRegs (pgReeve c) [R.reeve_FAULT_IDX_INDEX] } s ((faultIdx c idx engine).run s) := Prog.keeps (by simp [faultIdx]) s

theorem faultIdx_run {engine : Nat} (he : engine < 16) (c idx : Nat) (s : State) :
    ((faultIdx c idx engine).run s).fld (pgReeve c) R.reeve_FAULT_IDX_ENGINE = engine := by
  simp -implicitDefEqProofs [faultIdx, Nat.mod_eq_of_lt he]

theorem orderHalt_run_eq (c idx engine : Nat) (s : State) : (orderHalt c idx engine).run s =
    stepEnds.run ((haltReq c 3).run ((faultIdx c idx engine).run s)) := by
  simp -implicitDefEqProofs only [orderHalt, faultIdx, Prog.run_all_cons, Prog.run_all_nil]

theorem stepEnds_keeps (s : State) : Keeps { dev := True } s (stepEnds.run s) := Prog.keeps (by simp) s

theorem orderHalt_run {engine : Nat} (he : engine < 16) (c idx : Nat) (s : State) :
    let t := (orderHalt c idx engine).run s
    ∃ r : Reeve, t.croft c = { s.croft c with reeve := r } ∧ r.orders = (s.reeve c).orders ∧ (s.running c = true → r.halting.isSome = true) ∧
    t.dev.stepEnd = true ∧ t.fld (pgReeve c) R.reeve_FAULT_IDX_ENGINE = engine := by
  have hengine := faultIdx_run he c idx s
  have hmarks := faultIdx_keeps c idx engine s
  rw [orderHalt_run_eq]
  generalize (faultIdx c idx engine).run s = u at *
  obtain ⟨r, hcroft, horders, hhalts⟩ := haltReq_croft_more c 3 u
  have hrunning : u.running c = s.running c := hmarks.bit_eq (not_theRegs_offset (by decide) _)
  have hreeve : u.croft c = s.croft c := hmarks.crofts c id
  have hkeep := (haltReq_keeps c 3 u).fld_eq (f := R.reeve_FAULT_IDX_ENGINE) (p := pgReeve c) (not_theRegs_offset (by decide) _)
  generalize (haltReq c 3).run u = v at *
  have hends := stepEnds_keeps v
  refine ⟨r, ?_, ?_, fun h => hhalts (hrunning.trans h), ?_, (hends.fld_eq id).trans (hkeep.trans hengine)⟩
  · rw [hends.crofts c id, hcroft, hreeve]
  · rw [horders, State.reeve_eq, hreeve, State.reeve_eq]
  · simp [stepEnds, modDev]

/-! ### Lane flits -/

/-- A croft with traffic over a failed channel direction halts. -/
def laneHalt (c : Nat) : Prog := .all [haltReq c 3, stepEnds]

/-- The failure of a channel direction is recorded. -/
def laneRecord (ch dir : Nat) (valid : Bool) : Prog := .all [
  Prog.when (!valid) (.all [
    setFld pgWatch R.watch_LANE_LOG_CHANNEL ch, setFld pgWatch R.watch_LANE_LOG_DIR dir, setFld pgWatch R.watch_LANE_LOG_VALID 1]),
  pageFault pgWatch 2 0, bump pgWatch R.watch_LANE_CNT]

theorem laneHalt_only (c : Nat) : (laneHalt c).Only (leaveTouch c).allows := by
  simp [laneHalt, leaveTouch]

theorem laneHalt_halts (c : Nat) (s : State) : Halts s ((laneHalt c).run s) c ∧ ((laneHalt c).run s).dev.stepEnd = true := by
  have hrun : (laneHalt c).run s = stepEnds.run ((haltReq c 3).run s) := by
    simp -implicitDefEqProofs only [laneHalt, Prog.run_all_cons, Prog.run_all_nil]
  obtain ⟨r, hcroft, -, hhalts⟩ := haltReq_croft_more c 3 s
  rw [hrun]
  generalize (haltReq c 3).run s = v at *
  refine ⟨fun h => ?_, by simp [stepEnds, modDev]⟩
  have : (stepEnds.run v).croft c = v.croft c := rfl
  rw [State.reeve_eq, this, hcroft]
  exact hhalts h

theorem laneHalts_run (l : List Nat) (hl : l.Nodup) (s : State) :
    let t := (Prog.each l laneHalt).run s
    (∀ c ∈ l, Halts s t c ∧ t.dev.stepEnd = true) ∧ (∀ c, c ∉ l → t.croft c = s.croft c) ∧ ∀ o < 0x1000, t.reg pgWatch o = s.reg pgWatch o := by
  refine ⟨fun c hc => ?_, fun c hc => ?_, fun o ho => ?_⟩
  · obtain ⟨u, ⟨hu, -⟩, hend, hstep⟩ := each_part (f := laneHalt)
      (V := fun c s t => SameReeve c s t ∧ (s.dev.stepEnd = true → t.dev.stepEnd = true))
      (fun c s => ⟨SameReeve.refl c s, id⟩) (fun c _ _ _ h h' => ⟨SameReeve.trans c _ _ _ h.1 h'.1, fun hs => h'.2 (h.2 hs)⟩) hl
      (fun x _ y _ hne t => ⟨(Prog.keeps (laneHalt_only y) t).leaves_sameReeve hne, fun _ => (laneHalt_halts y t).2⟩) s hc
    obtain ⟨hhalts, hstep'⟩ := laneHalt_halts c u
    refine ⟨fun h => ?_, hstep hstep'⟩
    rw [hend.reeve]
    exact hhalts ((hu.bit (f := R.reeve_STATUS_RUNNING) (by decide)).trans h)
  · exact each_aside (V := fun s t => t.croft c = s.croft c) (fun _ => rfl) (fun _ _ _ h h' => h'.trans h)
      (fun k hk t => (Prog.keeps (laneHalt_only k) t).crofts c fun e : c = k => hc (by rwa [e])) s
  · exact each_aside (V := fun s t => t.reg pgWatch o = s.reg pgWatch o) (fun _ => rfl) (fun _ _ _ h h' => h'.trans h)
      (fun k _ t => (Prog.keeps (laneHalt_only k) t).reg_eq (not_leaveTouch_watch k ho)) s

/-- The log of a failed channel direction. -/
def laneLog (ch dir : Nat) (valid : Bool) : Prog := .all [
  Prog.when (!valid) (.all [
    setFld pgWatch R.watch_LANE_LOG_CHANNEL ch, setFld pgWatch R.watch_LANE_LOG_DIR dir, setFld pgWatch R.watch_LANE_LOG_VALID 1])]

theorem laneLog_keeps (ch dir : Nat) (valid : Bool) (s : State) :
    Keeps { regs := theRegs pgWatch [R.watch_LANE_LOG_VALID] } s ((laneLog ch dir valid).run s) :=
  Prog.keeps (by cases valid <;> simp [laneLog, Prog.when]) s

theorem laneLog_run {ch dir : Nat} (hc : ch < 14) (hd : dir < 2) (s : State) :
    let t := (laneLog ch dir (s.bit pgWatch R.watch_LANE_LOG_VALID)).run s
    t.bit pgWatch R.watch_LANE_LOG_VALID = true ∧ (s.bit pgWatch R.watch_LANE_LOG_VALID = false →
      t.fld pgWatch R.watch_LANE_LOG_CHANNEL = ch ∧ t.fld pgWatch R.watch_LANE_LOG_DIR = dir) := by
  cases hv : s.bit pgWatch R.watch_LANE_LOG_VALID
  · simp -implicitDefEqProofs [laneLog, State.bit, Nat.mod_eq_of_lt (show ch < 16 by omega), Nat.mod_eq_of_lt hd]
  · refine ⟨hv, nofun⟩

theorem laneRecord_run {ch dir : Nat} (hc : ch < 14) (hd : dir < 2) (s : State) :
    let t := (laneRecord ch dir (s.bit pgWatch R.watch_LANE_LOG_VALID)).run s
    Counts s t pgWatch R.watch_LANE_CNT 1 ∧ t.bit pgWatch R.watch_LANE_LOG_VALID = true ∧ Faults s t pgWatch 2 ∧
    (s.bit pgWatch R.watch_LANE_LOG_VALID = false →
      t.fld pgWatch R.watch_LANE_LOG_CHANNEL = ch ∧ t.fld pgWatch R.watch_LANE_LOG_DIR = dir) ∧
    Keeps { regs := pgWatch.covers } s t := by
  have hrun : (laneRecord ch dir (s.bit pgWatch R.watch_LANE_LOG_VALID)).run s = (Prog.all [pageFault pgWatch 2 0, bump pgWatch R.watch_LANE_CNT]).run
      ((laneLog ch dir (s.bit pgWatch R.watch_LANE_LOG_VALID)).run s) := by
    simp -implicitDefEqProofs only [laneRecord, laneLog, Prog.run_all_cons, Prog.run_all_nil]
  obtain ⟨hvalid, hlog⟩ := laneLog_run hc hd s
  have hbefore := laneLog_keeps ch dir (s.bit pgWatch R.watch_LANE_LOG_VALID) s
  have hall := Prog.keeps (T := { regs := pgWatch.covers }) (p := laneRecord ch dir (s.bit pgWatch R.watch_LANE_LOG_VALID))
    (by cases s.bit pgWatch R.watch_LANE_LOG_VALID <;> simp [laneRecord, Prog.when]) s
  rw [hrun] at hall ⊢
  generalize (laneLog ch dir (s.bit pgWatch R.watch_LANE_LOG_VALID)).run s = v at *
  have hafter := Prog.keeps (T := { regs := theRegs pgWatch (R.watch_LANE_CNT :: faultRegs) })
    (p := .all [pageFault pgWatch 2 0, bump pgWatch R.watch_LANE_CNT]) (by simp [faultRegs]) v
  obtain ⟨hcnt, hfault⟩ := pageFault_bump_run pgWatch (cause := 2) (by decide) (f := R.watch_LANE_CNT) (by decide) v
  simp -implicitDefEqProofs only [Prog.run_all_cons, Prog.run_all_nil] at hafter hall ⊢
  generalize (bump pgWatch R.watch_LANE_CNT).run ((pageFault pgWatch 2 0).run v) = t at *
  refine ⟨?_, (hafter.bit_eq (not_theRegs_offset (by decide) _)).trans hvalid, hfault.congr (fun f hf => ?_) fun _ _ => rfl, fun h => ?_, hall⟩
  · rw [Counts, hcnt, hbefore.reg_eq (not_theRegs_offset (by decide) _)]
  · refine hbefore.reg_eq (not_theRegs_offset ?_ _)
    revert f
    decide
  · obtain ⟨h1, h2⟩ := hlog h
    exact ⟨(hafter.fld_eq (not_theRegs_offset (by decide) _)).trans h1, (hafter.fld_eq (not_theRegs_offset (by decide) _)).trans h2⟩

/-- What a failed channel direction does. -/
theorem exec_laneFlitCrcFail (ch : Fin 14) (dir : Fin 2) (again : Bool) (s : State) :
    let k := ch.val * 2 + dir.val
    let n := if again then (Sparse.get? s.dev.laneFails k).getD 0 + 1 else 1
    exec (.laneFlitCrcFail ch dir again) s = .next (
      if n ≤ 3 then (modDev (fun d => { d with laneFails := Sparse.set d.laneFails k n })).run s
      else (Prog.each (s.sharers ch.val dir.val) laneHalt).run ((laneRecord ch.val dir.val (s.bit pgWatch R.watch_LANE_LOG_VALID)).run
        ((modDev (fun d => { d with laneFails := Sparse.eraseRange d.laneFails k (k + 1) })).run s))) := by
  show execLaneFlitCrcFail ch dir again s = _
  simp -implicitDefEqProofs only [execLaneFlitCrcFail, Prog.next_eq, Prog.run_get, Prog.run_ite, Prog.run_all_cons, Prog.run_all_nil, laneRecord]
  rfl

/-! ### Hops -/

/-- The discarded flit is counted and logged. -/
def hopRecord (link : Bool) (n share c : Nat) : Prog := .all [
  bump pgFabric R.fabric_HDR_COLL_CNT,
  setFld pgFabric R.fabric_HDR_LOG_INDEX (n * 16 + share),
  setBit pgFabric R.fabric_HDR_LOG_LINK link,
  setFld pgFabric R.fabric_HDR_LOG_CROFT c,
  setFld pgFabric R.fabric_HDR_LOG_VALID 1]

theorem hopRecord_keeps (link : Bool) (n share c : Nat) (s : State) :
    Keeps { regs := theRegs pgFabric [R.fabric_HDR_COLL_CNT, R.fabric_HDR_LOG_VALID] } s ((hopRecord link n share c).run s) :=
  Prog.keeps (by simp [hopRecord]) s

theorem hopRecord_run (link : Bool) {n share c : Nat} (hn : n < 28) (hs : share < 16) (hc : c < 128) (s : State) :
    let t := (hopRecord link n share c).run s
    Counts s t pgFabric R.fabric_HDR_COLL_CNT 1 ∧ t.fld pgFabric R.fabric_HDR_LOG_INDEX = n * 16 + share ∧
    t.bit pgFabric R.fabric_HDR_LOG_LINK = link ∧ t.fld pgFabric R.fabric_HDR_LOG_CROFT = c ∧ t.bit pgFabric R.fabric_HDR_LOG_VALID = true := by
  refine ⟨?_, ?_, ?_, ?_, ?_⟩
  all_goals simp -implicitDefEqProofs [hopRecord, Counts, State.bit, Nat.mod_eq_of_lt hc, Nat.mod_eq_of_lt (show n * 16 + share < 512 by omega)]

/-- What is discarded. -/
def dropsFlit (s : State) (link : Bool) (n share c : Nat) : Prog :=
  if link then Prog.when (!((s.link (n % 16)).waiting share).isEmpty) (dropLinkFlit (n % 16) share c) else dropLaneFlit c

/-- A flit's croft matches its share. -/
def State.hopGoes (s : State) (link : Bool) (n share c : Nat) : Prop :=
  let q := n % 16
  let off := if link then linkShareOff q share else laneShareOff (n / 2) (n % 2) share
  let es := (List.range 64).filterMap s.transit
  share = 15 ∨
    (s.fld pgFabric (R.fabric_SHARE_KIND.plus off) ≠ 0 ∧
      (s.fld pgFabric (R.fabric_SHARE_KIND.plus off) = 1 → s.fld pgFabric (R.fabric_SHARE_CROFT.plus off) = c)) ∨
    (link = true ∧ (s.portFld R.port_RESP_SHARES (4 * q) / 2 ^ share % 2 = 1 ∨ ∃ e ∈ es, e.1 = (q, share) ∨ e.2 = (q, share)))

theorem flitOk_iff (s : State) (off share c : Nat) : s.flitOk off share c = true ↔ share = 15 ∨
    (s.fld pgFabric (R.fabric_SHARE_KIND.plus off) ≠ 0 ∧
      (s.fld pgFabric (R.fabric_SHARE_KIND.plus off) = 1 → s.fld pgFabric (R.fabric_SHARE_CROFT.plus off) = c)) := by
  simp only [State.flitOk, Bool.or_eq_true, decide_eq_true_eq]
  refine or_congr_right ?_
  split
  case _ h => simp [h]
  case _ h => simp [h]
  case _ h h' =>
    have h0 : s.fld pgFabric (R.fabric_SHARE_KIND.plus off) ≠ 0 := h
    have h1 : s.fld pgFabric (R.fabric_SHARE_KIND.plus off) ≠ 1 := h'
    simp [h0, h1]

theorem exec_laneFlitHop (link : Bool) (n : Fin 28) (share : Fin 16) (c : CroftId) (s : State) [Decidable (s.hopGoes link n.val share.val c.val)] :
    exec (.laneFlitHop link n share c) s = .next (if s.hopGoes link n.val share.val c.val then s else
      (hopRecord link (if link then n.val % 16 else n.val) share.val c.val).run ((dropsFlit s link n.val share.val c.val).run s)) := by
  show execLaneFlitHop link n share c s = _
  simp -implicitDefEqProofs only [execLaneFlitHop, Prog.next_eq, Prog.run_get]
  rw [Prog.run_ite]
  refine congrArg _ (if_congr ?_ rfl ?_)
  · rw [Bool.or_eq_true, flitOk_iff]
    simp only [State.hopGoes, Bool.and_eq_true, Bool.or_eq_true, beq_iff_eq, List.any_eq_true]
    exact or_comm.trans or_assoc
  · simp -implicitDefEqProofs only [hopRecord, dropsFlit, Prog.run_all_cons, Prog.run_all_nil]

theorem eraseP_reverse {α : Type} (p : α → Bool) (a b : List α) (x : α) (hx : p x = true) (hb : ∀ y ∈ b, p y = false) :
    ((a ++ x :: b).reverse.eraseP p).reverse = a ++ b := by
  rw [List.reverse_append, List.reverse_cons, List.append_assoc, List.singleton_append,
    List.eraseP_append_right _ (fun y hy => by rw [hb y (List.mem_reverse.1 hy)]; decide), List.eraseP_cons_of_pos hx]
  simp

theorem dropLinkFlit_link (q share c : Nat) (s : State) : ((dropLinkFlit q share c).run s).link q = { s.link q with
    tx := Sparse.set (s.link q).tx share (((s.link q).waiting share).reverse.eraseP (fun f => f.croft.val == c)).reverse } := by
  simp -implicitDefEqProofs only [dropLinkFlit, modLink, Prog.run_get, Prog.run_eff, Act.apply_link_link_at, if_pos]

/-- The bytes that a croft's writes of this device carried. -/
def ofCroft (self c : Nat) (j : InJob) : Bool := match j with | .write dev src _ _ _ => dev == self && src == c | _ => false

theorem ofCroft_iff (self c : Nat) (j : InJob) : ofCroft self c j = true ↔ ∃ key via parts, j = .write self c key via parts := by
  cases j <;> simp [ofCroft]

theorem dropLaneFlit_run_eq (c : Nat) (s : State) : (dropLaneFlit c).run s =
    match s.crofts.reverse.find? (fun e => e.2.inJobs.any (ofCroft s.self c)) with
    | some e => (modCroft e.1 (fun k => { k with inJobs := (k.inJobs.reverse.eraseP (ofCroft s.self c)).reverse })).run s
    | none => s := by
  simp -implicitDefEqProofs only [dropLaneFlit, Prog.run_get]
  show Prog.run (match s.crofts.reverse.find? (fun e => e.2.inJobs.any (ofCroft s.self c)) with
    | some e => modCroft e.1 (fun k => { k with inJobs := (k.inJobs.reverse.eraseP (ofCroft s.self c)).reverse })
    | none => .done) s = _
  split <;> rfl

theorem Sparse.get?_of_mem {α : Type} {m : List (Nat × α)} (h : Sparse.Wf m) {e : Nat × α} (he : e ∈ m) : Sparse.get? m e.1 = some e.2 := by
  induction m with
  | nil => contradiction
  | cons x m ih =>
    obtain ⟨hx, hm⟩ := List.pairwise_cons.1 h
    rcases List.mem_cons.1 he with rfl | he
    · exact if_pos rfl
    · have hlt := hx e he
      exact (if_neg (by omega)).trans (ih hm he)

theorem Sparse.mem_of_get? {α : Type} {m : List (Nat × α)} {k : Nat} {v : α} (h : Sparse.get? m k = some v) : (k, v) ∈ m := by
  induction m with
  | nil => contradiction
  | cons x m ih =>
    rw [show x = (x.1, x.2) from rfl, Sparse.get?_cons] at h
    split at h
    · rename_i hk
      obtain rfl := Option.some.inj h
      rw [← hk]
      exact List.mem_cons_self ..
    · exact List.mem_cons_of_mem _ (ih h)

theorem croft_of_mem (h : Sparse.Wf s.crofts) {e : Nat × Croft} (he : e ∈ s.crofts) : s.croft e.1 = e.2 := by
  rw [State.croft, Sparse.get?_of_mem h he]
  rfl

theorem croft_mem_or (k : Nat) (s : State) : (k, s.croft k) ∈ s.crofts ∨ s.croft k = {} := by
  cases hk : Sparse.get? s.crofts k with
  | none => exact .inr (by rw [State.croft, hk]; rfl)
  | some r =>
    have : s.croft k = r := by rw [State.croft, hk]; rfl
    exact .inl (this ▸ Sparse.mem_of_get? hk)

/-- Bytes that croft `c`'s writes of this device carried are no longer among what a slice waits for, or there were none. -/
def LaneDrops (c : Nat) (s t : State) : Prop :=
  ((∀ k, ∀ j ∈ (s.croft k).inJobs, ¬ ∃ key via parts, j = .write s.self c key via parts) ∧ ∀ k, t.croft k = s.croft k) ∨
    ∃ k a j b, (s.croft k).inJobs = a ++ j :: b ∧ (∃ key via parts, j = .write s.self c key via parts) ∧
      t.croft k = { s.croft k with inJobs := a ++ b } ∧ ∀ x, x ≠ k → t.croft x = s.croft x

theorem dropLaneFlit_run (c : Nat) (h : Sparse.Wf s.crofts) : LaneDrops c s ((dropLaneFlit c).run s) := by
  rw [dropLaneFlit_run_eq]
  cases hf : s.crofts.reverse.find? (fun e => e.2.inJobs.any (ofCroft s.self c)) with
  | none =>
    refine .inl ⟨fun k j hj hm => ?_, fun k => rfl⟩
    have hnone := List.find?_eq_none.1 hf
    rcases croft_mem_or k s with hk | hk
    · exact hnone _ (List.mem_reverse.2 hk) (List.any_eq_true.2 ⟨j, hj, (ofCroft_iff ..).2 hm⟩)
    · rw [hk] at hj
      contradiction
  | some e =>
    have hany : (s.croft e.1).inJobs.any (ofCroft s.self c) = true := by
      rw [croft_of_mem h (List.mem_reverse.1 (List.mem_of_find?_eq_some hf))]
      exact List.find?_some (p := fun e : Nat × Croft => e.2.inJobs.any (ofCroft s.self c)) hf
    obtain ⟨j, b', a', hb, hj, hl, he⟩ := List.exists_of_eraseP (p := ofCroft s.self c) (l := (s.croft e.1).inJobs.reverse)
      (List.mem_reverse.2 (List.any_eq_true.1 hany).choose_spec.1) (List.any_eq_true.1 hany).choose_spec.2
    refine .inr ⟨e.1, a'.reverse, j, b'.reverse, ?_, (ofCroft_iff ..).1 hj, ?_, fun x hx => ?_⟩
    · rw [← List.reverse_reverse (s.croft e.1).inJobs, hl]
      simp
    · simp -implicitDefEqProofs [modCroft, he]
    · exact (Prog.keeps (T := { crofts := (· = e.1) }) (by simp) s).crofts x hx

/-! ### O30 -/

theorem dropsFlit_keeps (link : Bool) (n share c : Nat) (s : State) :
    Keeps { crofts := fun _ => link = false, links := fun x => link = true ∧ x = n % 16 } s ((dropsFlit s link n share c).run s) := by
  cases link
  · refine Prog.keeps ?_ s
    simp only [dropsFlit, dropLaneFlit, Bool.false_eq_true, if_false, Prog.only_get]
    intro t
    split <;> simp
  · refine Prog.keeps ?_ s
    simp [dropsFlit, dropLinkFlit, Prog.only_when, modLink, Touch.allows]

theorem residue_run {c u : Nat} (hc : c < 128) (hu : u < 6) (idx : Nat) (s : State) :
    let t := (orderHalt c idx (resEngine u)).run ((unitStops c u).run ((residueRecord c u (s.bit pgWatch R.watch_RES_LOG_VALID)).run s))
    u ∈ (t.croft c).stopped ∧ Counts s t pgWatch R.watch_RES_CNT 1 ∧ t.bit pgWatch R.watch_RES_LOG_VALID = true ∧
    (s.bit pgWatch R.watch_RES_LOG_VALID = false →
      t.fld pgWatch R.watch_RES_LOG_CROFT = c ∧ t.fld pgWatch R.watch_RES_LOG_ENGINE = u) ∧
    Faults s t pgWatch 1 ∧ t.fld (pgReeve c) R.reeve_FAULT_IDX_ENGINE = resEngine u ∧
    (∀ o ∈ (t.reeve c).orders, o.unit = resUnit u → o.engine = 7) ∧
    (∀ o ∈ (s.reeve c).orders, o.unit ≠ resUnit u ∨ o.engine = 7 → o ∈ (t.reeve c).orders) ∧
    Halts s t c ∧ t.dev.stepEnd = true ∧
    Keeps { regs := fun a => theRegs pgWatch residueFields a ∨ theRegs (pgReeve c) [R.reeve_FAULT_IDX_INDEX, R.reeve_STATUS_MORE] a,
            crofts := (· = c), pumps := fun p => u < 4 ∧ p = c * 4 + u, dev := True, seq := True } s t := by
  obtain ⟨hcnt, hvalid, hlog, hfault⟩ := residueRecord_run hc hu s
  have hrecord := residueRecord_keeps c u (s.bit pgWatch R.watch_RES_LOG_VALID) s
  generalize (residueRecord c u (s.bit pgWatch R.watch_RES_LOG_VALID)).run s = a at *
  have hcroft := unitStops_croft c u a
  have hstops := unitStops_keeps c u a
  generalize (unitStops c u).run a = b at *
  have he : resEngine u < 16 := by unfold resEngine; split <;> (try split) <;> omega
  obtain ⟨r, hr, horders, hhalts, hstep, hengine⟩ := orderHalt_run he c idx b
  have hkeep := orderHalt_keeps c idx (resEngine u) b
  generalize (orderHalt c idx (resEngine u)).run b = t at *
  have hreg {o : Nat} (ho : o < 0x1000) : t.reg pgWatch o = a.reg pgWatch o :=
    (hkeep.reg_eq (not_theRegs_apart (by simp [ho]))).trans (hstops.reg_eq id)
  have hbc : (b.reeve c).orders = (s.reeve c).orders.filter (fun o => !o.ofUnit u) := by
    rw [State.reeve_eq, hcroft, State.reeve_eq, ← hrecord.crofts c id]
  have htc : (t.reeve c).orders = (s.reeve c).orders.filter (fun o => !o.ofUnit u) := by
    rw [State.reeve_eq, hr, horders, hbc]
  refine ⟨?_, ?_, ?_, fun h => ?_, ?_, hengine, fun o ho hunit => ?_, fun o ho h => ?_, fun h => ?_, hstep, ?_⟩
  · rw [hr, hcroft]
    simp only
    split
    case isTrue h => simpa using h
    case isFalse => simp
  · exact (hreg (by decide)).trans hcnt
  · exact (congrArg (fun w => R.watch_RES_LOG_VALID.of w != 0) (hreg (by decide))).trans hvalid
  · obtain ⟨h1, h2⟩ := hlog h
    exact ⟨(congrArg R.watch_RES_LOG_CROFT.of (hreg (by decide))).trans h1, (congrArg R.watch_RES_LOG_ENGINE.of (hreg (by decide))).trans h2⟩
  · refine hfault.congr (fun _ _ => rfl) fun f hf => hreg ?_
    revert f
    decide
  · rw [htc] at ho
    have := (List.mem_filter.1 ho).2
    simpa [Issued.ofUnit, hunit] using this
  · rw [htc]
    refine List.mem_filter.2 ⟨ho, ?_⟩
    rcases h with h | h
    · simp [Issued.ofUnit, h]
    · simp [Issued.ofUnit, h]
  · rw [State.reeve_eq, hr]
    exact hhalts ((hstops.bit_eq id).trans ((hrecord.bit_eq (not_theRegs_apart (by simp [residueFields]))).trans h))
  · exact ((hrecord.mono (by constructor <;> simp +contextual)).trans (hstops.mono (by constructor <;> simp +contextual))).trans
      (hkeep.mono (by constructor <;> simp +contextual))

theorem expiry_run (s : State) :
    let t := expiryRecord.run ((stopsWatched s).run (expiryDev.run s))
    t.dev.faultN = true ∧ t.dev.host.mailbox.mstate = 3 ∧ t.bit pgWatch R.watch_SW_WDOG_EXPIRED = true ∧
    Counts s t pgWatch R.watch_SW_WDOG_CNT 1 ∧ Faults s t pgWatch 3 ∧
    (∀ c < 128, s.watched c = true → StoppedAtOnce c s t) ∧
    (∀ c, (128 ≤ c ∨ s.watched c = false) → t.croft c = s.croft c) ∧ ∀ a, t.byte a = s.byte a := by
  have hdev : (expiryDev.run s).dev.faultN = true ∧ (expiryDev.run s).dev.host.mailbox.mstate = 3 := ⟨rfl, rfl⟩
  have hfirst := Prog.keeps (T := { dev := True }) (p := expiryDev) (by simp [expiryDev]) s
  have hres : (expiryDev.run s).dev.resets = s.dev.resets := rfl
  generalize expiryDev.run s = a at *
  have hwatched : s.watched = a.watched := by
    funext c
    simp only [State.watched, State.running, State.underReset, hfirst.bit_eq id, State.reeve_eq, hfirst.crofts c id, hres]
  have hsame (c : Nat) : SameReeve c s a := ⟨hfirst.crofts c id, fun o _ => ⟨hfirst.reg_eq id, hfirst.reg_eq id⟩⟩
  have hrun : stopsWatched s = stopsWatched a := by rw [stopsWatched, hwatched]; rfl
  rw [hrun]
  obtain ⟨hreg, hcroft, hbyte, hview⟩ := stopsWatched_aside a
  have hstops (c : Nat) (hc : c < 128) (h : a.watched c = true) := stopsWatched_stops a hc h
  generalize (stopsWatched a).run a = b at *
  obtain ⟨hexpired, hcnt, hfault⟩ := expiryRecord_run b
  have hlast := expiryRecord_keeps b
  generalize expiryRecord.run b = t at *
  have hregs {o : Nat} (ho : o < 0x1000) : b.reg pgWatch o = s.reg pgWatch o := (hreg o ho).trans (hfirst.reg_eq id)
  refine ⟨?_, ?_, hexpired, ?_, ?_, fun c hc h => ?_, fun c hc => ?_, fun x => ?_⟩
  · rw [hlast.dev id]
    exact (congrArg StartView.faultN hview).trans hdev.1
  · rw [hlast.dev id]
    exact (congrArg (fun v : StartView => v.host.mailbox.mstate) hview).trans hdev.2
  · rw [Counts, hcnt, hregs (by decide)]
  · refine hfault.congr (fun f hf => hregs ?_) fun _ _ => rfl
    revert f
    decide
  · exact (hstops c hc (by rwa [← hwatched])).congr (hsame c) (hlast.watch_sameReeve c)
  · rw [hlast.crofts c id, hcroft c (by rwa [← hwatched]), hfirst.crofts c id]
  · rw [hlast.mem x id, hbyte x, hfirst.mem x id]

theorem laneFails_run {ch dir : Nat} (hc : ch < 14) (hd : dir < 2) (s : State) :
    let k := ch * 2 + dir
    let t := (Prog.each (s.sharers ch dir) laneHalt).run ((laneRecord ch dir (s.bit pgWatch R.watch_LANE_LOG_VALID)).run
        ((modDev (fun d => { d with laneFails := Sparse.eraseRange d.laneFails k (k + 1) })).run s))
    t.dev.laneFails = Sparse.eraseRange s.dev.laneFails k (k + 1) ∧
    Counts s t pgWatch R.watch_LANE_CNT 1 ∧ t.bit pgWatch R.watch_LANE_LOG_VALID = true ∧ Faults s t pgWatch 2 ∧
    (s.bit pgWatch R.watch_LANE_LOG_VALID = false →
      t.fld pgWatch R.watch_LANE_LOG_CHANNEL = ch ∧ t.fld pgWatch R.watch_LANE_LOG_DIR = dir) ∧
    (∀ c ∈ s.sharers ch dir, Halts s t c ∧ t.dev.stepEnd = true) ∧
    ∀ c, c ∉ s.sharers ch dir → t.croft c = s.croft c := by
  intro k
  have hdev : ((modDev (fun d => { d with laneFails := Sparse.eraseRange d.laneFails k (k + 1) })).run s).dev.laneFails =
    Sparse.eraseRange s.dev.laneFails k (k + 1) := rfl
  have hfirst := Prog.keeps (T := { dev := True }) (p := modDev (fun d => { d with laneFails := Sparse.eraseRange d.laneFails k (k + 1) }))
    (by simp) s
  generalize (modDev (fun d => { d with laneFails := Sparse.eraseRange d.laneFails k (k + 1) })).run s = a at *
  have hvalid : s.bit pgWatch R.watch_LANE_LOG_VALID = a.bit pgWatch R.watch_LANE_LOG_VALID := (hfirst.bit_eq id).symm
  rw [hvalid]
  obtain ⟨hcnt, hv, hfault, hlog, hrecord⟩ := laneRecord_run hc hd a
  generalize (laneRecord ch dir (a.bit pgWatch R.watch_LANE_LOG_VALID)).run a = b at *
  obtain ⟨hhalts, haside, hreg⟩ := laneHalts_run (s.sharers ch dir) (List.nodup_range.filter _) b
  have hlook : ((Prog.each (s.sharers ch dir) laneHalt).run b).dev.laneFails = b.dev.laneFails :=
    looks_run (v := Device.laneFails) (fun d => (Prog.safe_each exists_looks ..).2 fun c _ => by simp [laneHalt, stepEnds]) b
  generalize (Prog.each (s.sharers ch dir) laneHalt).run b = t at *
  refine ⟨?_, ?_, ?_, hfault.congr (fun f hf => hfirst.reg_eq id) fun f hf => hreg _ ?_, fun h => ?_, fun c hc => ⟨fun h => ?_, (hhalts c hc).2⟩, fun c hc => ?_⟩
  · rw [hlook, hrecord.dev id, hdev]
  · rw [Counts, hreg _ (by decide), hcnt, hfirst.reg_eq id]
  · exact (congrArg (fun w => R.watch_LANE_LOG_VALID.of w != 0) (hreg _ (by decide))).trans hv
  · revert f
    decide
  · obtain ⟨h1, h2⟩ := hlog h
    exact ⟨(congrArg R.watch_LANE_LOG_CHANNEL.of (hreg _ (by decide))).trans h1, (congrArg R.watch_LANE_LOG_DIR.of (hreg _ (by decide))).trans h2⟩
  · refine (hhalts c hc).1 (Eq.trans ?_ h)
    exact ((hrecord.watch_sameReeve c).bit (f := R.reeve_STATUS_RUNNING) (by decide)).trans (hfirst.bit_eq id)
  · rw [haside c hc, hrecord.crofts c id, hfirst.crofts c id]

theorem hop_run (link : Bool) {n share c : Nat} (hn : n < 28) (hs : share < 16) (hc : c < 128) (s : State) :
    let q := n % 16
    let t := (hopRecord link (if link then n % 16 else n) share c).run ((dropsFlit s link n share c).run s)
    Counts s t pgFabric R.fabric_HDR_COLL_CNT 1 ∧
    t.fld pgFabric R.fabric_HDR_LOG_INDEX = (if link then q else n) * 16 + share ∧
    t.bit pgFabric R.fabric_HDR_LOG_LINK = link ∧ t.fld pgFabric R.fabric_HDR_LOG_CROFT = c ∧
    t.bit pgFabric R.fabric_HDR_LOG_VALID = true ∧
    Keeps { regs := theRegs pgFabric [R.fabric_HDR_COLL_CNT, R.fabric_HDR_LOG_VALID], crofts := fun _ => link = false,
            links := fun x => link = true ∧ x = q } s t ∧
    (link = true → ((s.link q).waiting share = [] → t.link q = s.link q) ∧
      ∀ a f b, (s.link q).waiting share = a ++ f :: b → f.croft.val = c → (∀ x ∈ b, x.croft.val ≠ c) →
        t.link q = { s.link q with tx := Sparse.set (s.link q).tx share (a ++ b) }) ∧
    (link = false → Sparse.Wf s.crofts → LaneDrops c s t) := by
  intro q
  have hdrop := dropsFlit_keeps link n share c s
  have hlink (h : link = true) : ((dropsFlit s link n share c).run s).link q =
      if (s.link q).waiting share = [] then s.link q else { s.link q with
        tx := Sparse.set (s.link q).tx share (((s.link q).waiting share).reverse.eraseP (fun f => f.croft.val == c)).reverse } := by
    subst h
    simp only [dropsFlit, if_true, Prog.run_when]
    split
    case isTrue h => rw [dropLinkFlit_link, if_neg (by simpa using h)]
    case isFalse h => rw [if_pos (by simpa using h)]
  have hlane (h : link = false) (hwf : Sparse.Wf s.crofts) : LaneDrops c s ((dropsFlit s link n share c).run s) := by
    have := dropLaneFlit_run c hwf
    rw [show dropLaneFlit c = dropsFlit s link n share c by subst h; rfl] at this
    exact this
  generalize (dropsFlit s link n share c).run s = u at *
  obtain ⟨h1, h2, h3, h4, h5⟩ := hopRecord_run link (n := if link then n % 16 else n) (by split <;> omega) hs hc u
  have hkeep := hopRecord_keeps link (if link then n % 16 else n) share c u
  generalize (hopRecord link (if link then n % 16 else n) share c).run u = t at *
  refine ⟨?_, h2, h3, h4, h5, ?_, fun h => ⟨fun hw => ?_, fun a f b hw hf hb => ?_⟩, fun h hwf => ?_⟩
  · rw [Counts, h1, hdrop.reg_eq id]
  · exact (hdrop.mono (by constructor <;> simp +contextual [q])).trans (hkeep.mono (by constructor <;> simp +contextual))
  · rw [hkeep.links q id, hlink h, if_pos hw]
  · rw [hkeep.links q id, hlink h, if_neg (by rw [hw]; simp), hw,
      eraseP_reverse _ a b f (by simpa using hf) (fun y hy => by simpa using hb y hy)]
  · have hcroft (k : Nat) : t.croft k = u.croft k := hkeep.crofts k id
    simp only [LaneDrops, hcroft]
    exact hlane h hwf

/-- What leaves the inputs' registers leaves every input. -/
theorem Keeps.sameInput {T : Touch} {t : State} (h : Keeps T s t) (hT : ∀ o, 0x100 ≤ o → ¬ T.regs (pgWatch.base + o)) (i : Nat) : sameInput i s t :=
  fun o ho => h.reg_eq (hT o (by omega))

theorem not_theRegs_inputs {fs : List Fld} (h : ∀ f ∈ fs, f.off < 0x100) (o : Nat) (ho : 0x100 ≤ o) : ¬ theRegs pgWatch fs (pgWatch.base + o) := by
  refine not_theRegs_offset (fun hm => ?_) _
  obtain ⟨f, hf, he⟩ := List.mem_map.1 hm
  have := h f hf
  omega

theorem shows_run (a : State) :
    let t := (shows a).run a
    (∀ i < 16, sameLevel i a t ∧ t.fld pgWatch (R.watch_INPUT_VAL_CONTRIB.plus (8 * i)) = a.contribution i) ∧
    t.fld pgWatch R.watch_STATUS_SCORE = a.score ∧ t.fld pgWatch R.watch_STATUS_TOP = topInput ((List.range 16).map a.contribution) ∧
    t.fld pgWatch R.watch_PEAK_SCORE = max (a.fld pgWatch R.watch_PEAK_SCORE) a.score := by
  have hrun : (shows a).run a = (scores a.score (topInput ((List.range 16).map a.contribution)) (max (a.fld pgWatch R.watch_PEAK_SCORE) a.score)).run
      ((contribs a).run a) := by
    simp -implicitDefEqProofs only [shows, Prog.run_all_cons, Prog.run_all_nil]
  have hscore := score_lt a
  have hpeak : a.fld pgWatch R.watch_PEAK_SCORE < 256 := State.fld_lt (by decide) a _
  have htop : topInput ((List.range 16).map a.contribution) < 16 := by simpa using topInput_lt (cs := (List.range 16).map a.contribution) (by simp)
  rw [hrun]
  refine ⟨fun i hi => ?_, scores_run hscore htop (by omega) _⟩
  obtain ⟨hlevel, hshow⟩ := contribs_run a a hi
  have hsame := (scores_keeps a.score (topInput ((List.range 16).map a.contribution)) (max (a.fld pgWatch R.watch_PEAK_SCORE) a.score)
    ((contribs a).run a)).sameInput (not_theRegs_inputs (by simp)) i
  generalize (contribs a).run a = u at *
  exact ⟨⟨hsame.inputA.trans hlevel.1, (hsame _ (.inl rfl)).trans hlevel.2⟩,
    (congrArg (R.watch_INPUT_VAL_CONTRIB.plus (8 * i)).of (hsame _ (.inr rfl))).trans hshow⟩

/-- What a crossing may change. -/
def crossTouch : Touch where
  regs := theRegs pgWatch [R.watch_CROSS_CNT, R.watch_CROSS_LOG_SCORE, R.CRIER_LINE_RAISED, R.watch_REQ_CNT, R.watch_GAP_DROP_CNT]
  links := (· < 16)
  dev := True

theorem formScore_keeps (a : State) : Keeps crossTouch ((shows a).run a) (formScore.run a) := by
  classical
  rw [formScore_run]
  split
  · have hasks : (asks (a.stepIndex + 2) a.near).Only crossTouch.allows := by
      unfold asks crossTouch
      split <;> simp +contextual [askSnapshot, flood, Prog.only_when]
    exact (Prog.keeps (by simp [crossed, crossTouch]) _).trans (Prog.keeps hasks _)
  · exact Keeps.refl _ _

theorem formScore_only (a : State) : Keeps { regs := pgWatch.covers, links := (· < 16), dev := True } a (formScore.run a) := by
  have hcovers {fs : List Fld} (h : ∀ f ∈ fs, f.off < 0x1000) (x : Nat) : theRegs pgWatch fs x → pgWatch.covers x := by
    rintro ⟨f, hf, rfl⟩
    have := h f hf
    simp only [Page.covers]
    omega
  refine ((shows_keeps a a).mono ?_).trans ((formScore_keeps a).mono ?_)
  · constructor
    case regs => exact fun x hx => hx.elim (fun h => h.2) (hcovers (by simp) x)
    all_goals simp [showTouch]
  · constructor
    case regs => exact hcovers (by simp)
    all_goals simp [crossTouch]

/-- What forming the score does where it crosses the threshold, and where it does not. -/
theorem formScore_crosses (a : State) :
    let t := formScore.run a
    (a.crosses a.score → Counts a t pgWatch R.watch_CROSS_CNT 1 ∧ Counts a t pgWatch R.watch_REQ_CNT 1 ∧
      t.fld pgWatch R.watch_CROSS_LOG_SCORE = a.score ∧ t.bit pgWatch R.watch_CROSS_LOG_VALID = true) ∧
    (a.crosses a.score → a.near → Counts a t pgWatch R.watch_GAP_DROP_CNT 1 ∧ t.dev = a.dev ∧ ∀ q, t.link q = a.link q) ∧
    (a.crosses a.score → ¬ a.near → Floods a t (.snapReq a.self (a.stepIndex + 2)) none ∧
      (a.enabled pgBucket = true → t.dev = { a.dev with pendingB := some (max (a.dev.pendingB.getD 0) (a.stepIndex + 2)) })) ∧
    (¬ a.crosses a.score → Counts a t pgWatch R.watch_CROSS_CNT 0 ∧ t.dev = a.dev ∧ ∀ q, t.link q = a.link q) := by
  classical
  have hshow := shows_keeps a a
  obtain ⟨h1, h2, h3, h4⟩ := crossed_run (score_lt a) (topInput ((List.range 16).map a.contribution)) ((shows a).run a)
  have hcross := crossed_keeps a.score (topInput ((List.range 16).map a.contribution)) ((shows a).run a)
  rw [formScore_run]
  generalize (shows a).run a = v at *
  generalize (crossed a.score (topInput ((List.range 16).map a.contribution))).run v = w at *
  have hasks := Prog.keeps (asks_only (a.stepIndex + 2) a.near) w
  have hpage {p : Page} (hp : p = pgNum ∨ p = pgBucket ∨ p = pgPort) {o : Nat} (ho : o < 0x1000) : w.reg p o = a.reg p o := by
    refine (hcross.reg_eq (not_theRegs_apart fun f hf => ?_)).trans (hshow.reg_eq (not_showTouch_of_page hp ho))
    revert f
    rcases hp with rfl | rfl | rfl
    all_goals simp [ho]
  have hself : w.self = a.self := congrArg R.port_CFG_SELF_DEV.of (hpage (.inr (.inr rfl)) (by decide))
  have hbucket : w.enabled pgBucket = a.enabled pgBucket := by
    simp only [State.enabled, State.bit, State.fld_eq, hpage (.inr (.inl rfl)) (show R.CTL_ENABLE.off < 0x1000 by decide),
      hpage (.inr (.inl rfl)) (show R.STATE_STATE.off < 0x1000 by decide)]
  have hup (q : Nat) (hq : q < 16) : w.linkUp q = a.linkUp q :=
    congrArg (fun v => R.port_STATUS_UP.of v / 2 ^ q % 2 == 1) (hpage (.inr (.inr rfl)) (by decide))
  have hdev : w.dev = a.dev := (hcross.dev id).trans (hshow.dev id)
  have hlink (q : Nat) : w.link q = a.link q := (hcross.links q id).trans (hshow.links q id)
  refine ⟨fun h => ?_, fun h hn => ?_, fun h hn => ?_, fun h => ?_⟩
  · rw [if_pos h]
    refine ⟨?_, ?_, (hasks.fld_eq (not_theRegs_offset (by decide) _)).trans h3, (hasks.bit_eq (not_theRegs_offset (by decide) _)).trans h4⟩
    · rw [Counts, hasks.reg_eq (not_theRegs_offset (by decide) _), h1, hshow.reg_eq (not_showTouch (by decide) (by decide) (by decide))]
    · rw [Counts, hasks.reg_eq (not_theRegs_offset (by decide) _), h2, hshow.reg_eq (not_showTouch (by decide) (by decide) (by decide))]
  · rw [if_pos h, asks, if_pos hn]
    refine ⟨?_, hdev, hlink⟩
    have hgap : w.reg pgWatch R.watch_GAP_DROP_CNT.off = a.reg pgWatch R.watch_GAP_DROP_CNT.off :=
      (hcross.reg_eq (not_theRegs_offset (by decide) _)).trans (hshow.reg_eq (not_showTouch (by decide) (by decide) (by decide)))
    rw [Counts, ← hgap]
    exact State.reg_put_same rfl _ _ _
  · rw [if_pos h, asks, if_neg hn]
    obtain ⟨hflood, hask⟩ := askSnapshot_run (a.stepIndex + 2) w
    rw [hself] at hflood
    refine ⟨fun q hq => ?_, fun hb => ?_⟩
    · rw [hflood q hq, hup q hq, hlink q]
    · rw [hask (hbucket.trans hb), hdev]
  · rw [if_neg h]
    refine ⟨?_, hshow.dev id, fun q => hshow.links q id⟩
    rw [Counts, hshow.reg_eq (not_showTouch (by decide) (by decide) (by decide)), satAdd_zero]

/-- What a sample does. -/
theorem sample_run (tj : Int) (shift : Nat) (s : State) :
    let t := (Prog.all [setInputA 9 (min 255 (max 0 (8 * (tj - 73))).toNat), setInputA 10 (min 255 shift), formScore]).run s
    let score := if s.enabled pgWatch then min 255 ((List.range 16).map t.contribution).sum else 0
    let crosses := s.enabled pgWatch = true ∧ s.fld pgWatch R.watch_STATUS_SCORE < s.fld pgWatch R.watch_CFG_THRESH ∧
      s.fld pgWatch R.watch_CFG_THRESH ≤ score
    let near := s.stepIndex + 2 - s.fld pgBucket R.bucket_B_LAST < s.fld pgWatch R.watch_CFG_MIN_GAP
    t.inputA 9 = min 255 (max 0 (8 * (tj - 73))).toNat ∧ t.inputA 10 = min 255 shift ∧
    (∀ i < 16, i ≠ 9 → i ≠ 10 → t.inputA i = s.inputA i) ∧
    t.fld pgWatch R.watch_STATUS_SCORE = score ∧ t.fld pgWatch R.watch_PEAK_SCORE = max (s.fld pgWatch R.watch_PEAK_SCORE) score ∧
    t.fld pgWatch R.watch_STATUS_TOP = topInput ((List.range 16).map t.contribution) ∧
    (∀ i < 16, t.fld pgWatch (R.watch_INPUT_VAL_CONTRIB.plus (8 * i)) = t.contribution i) ∧
    (crosses → Counts s t pgWatch R.watch_CROSS_CNT 1 ∧ Counts s t pgWatch R.watch_REQ_CNT 1 ∧ t.fld pgWatch R.watch_CROSS_LOG_SCORE = score ∧
      t.bit pgWatch R.watch_CROSS_LOG_VALID = true) ∧
    (crosses → near → Counts s t pgWatch R.watch_GAP_DROP_CNT 1 ∧ t.dev = s.dev ∧ ∀ q, t.link q = s.link q) ∧
    (crosses → ¬ near → Floods s t (.snapReq s.self (s.stepIndex + 2)) none ∧
      (s.enabled pgBucket = true → t.dev = { s.dev with pendingB := some (max (s.dev.pendingB.getD 0) (s.stepIndex + 2)) })) ∧
    (¬ crosses → Counts s t pgWatch R.watch_CROSS_CNT 0 ∧ t.dev = s.dev ∧ ∀ q, t.link q = s.link q) ∧
    Keeps { regs := pgWatch.covers, links := (· < 16), dev := True } s t := by
  obtain ⟨h9, h10, hother⟩ := samples_inputA tj shift s
  have hsamples := samples_keeps tj shift s
  have hrun : (Prog.all [setInputA 9 (min 255 (max 0 (8 * (tj - 73))).toNat), setInputA 10 (min 255 shift), formScore]).run s =
      formScore.run ((samples tj shift).run s) := by
    simp -implicitDefEqProofs only [samples, Prog.run_all_cons, Prog.run_all_nil]
  rw [hrun]
  generalize (samples tj shift).run s = a at *
  have hlow {o : Nat} (ho : o < 0x100) : a.reg pgWatch o = s.reg pgWatch o := hsamples.reg_eq (not_inputs ho)
  have hpage {p : Page} (hp : p = pgNum ∨ p = pgBucket ∨ p = pgPort) {o : Nat} (ho : o < 0x1000) : a.reg p o = s.reg p o :=
    hsamples.reg_eq (not_inputs_of_page hp ho)
  have henabled : a.enabled pgWatch = s.enabled pgWatch := enabled_of_reg fun o ho => hlow ho
  have hbucket : a.enabled pgBucket = s.enabled pgBucket := by
    simp only [State.enabled, State.bit, State.fld_eq, hpage (.inr (.inl rfl)) (show R.CTL_ENABLE.off < 0x1000 by decide),
      hpage (.inr (.inl rfl)) (show R.STATE_STATE.off < 0x1000 by decide)]
  have hthresh : a.fld pgWatch R.watch_CFG_THRESH = s.fld pgWatch R.watch_CFG_THRESH := congrArg R.watch_CFG_THRESH.of (hlow (by decide))
  have hold : a.fld pgWatch R.watch_STATUS_SCORE = s.fld pgWatch R.watch_STATUS_SCORE := congrArg R.watch_STATUS_SCORE.of (hlow (by decide))
  have hpeak : a.fld pgWatch R.watch_PEAK_SCORE = s.fld pgWatch R.watch_PEAK_SCORE := congrArg R.watch_PEAK_SCORE.of (hlow (by decide))
  have hgap : a.fld pgWatch R.watch_CFG_MIN_GAP = s.fld pgWatch R.watch_CFG_MIN_GAP := congrArg R.watch_CFG_MIN_GAP.of (hlow (by decide))
  have hlast : a.fld pgBucket R.bucket_B_LAST = s.fld pgBucket R.bucket_B_LAST := congrArg R.bucket_B_LAST.of (hpage (.inr (.inl rfl)) (by decide))
  have hidx : a.stepIndex = s.stepIndex := congrArg R.numstep_STEP_INDEX.of (hpage (.inl rfl) (by decide))
  have hself : a.self = s.self := congrArg R.port_CFG_SELF_DEV.of (hpage (.inr (.inr rfl)) (by decide))
  have hup (q : Nat) : a.linkUp q = s.linkUp q :=
    congrArg (fun v => R.port_STATUS_UP.of v / 2 ^ q % 2 == 1) (hpage (.inr (.inr rfl)) (by decide))
  have hlink (q : Nat) : a.link q = s.link q := hsamples.links q id
  have hdev : a.dev = s.dev := hsamples.dev id
  obtain ⟨hinputs, hscore, htop, hpeak'⟩ := shows_run a
  have hform := formScore_keeps a
  have hcross := formScore_crosses a
  have hall := (hsamples.mono (U := { regs := pgWatch.covers, links := (· < 16), dev := True }) (by constructor <;> simp +contextual)).trans
    ((formScore_only a))
  generalize (shows a).run a = v at *
  generalize formScore.run a = t at *
  have hlevel {i : Nat} (hi : i < 16) : t.inputA i = a.inputA i ∧ t.contribution i = a.contribution i ∧
      t.fld pgWatch (R.watch_INPUT_VAL_CONTRIB.plus (8 * i)) = a.contribution i := by
    obtain ⟨hl, hc⟩ := hinputs i hi
    have hsame := hform.sameInput (not_theRegs_inputs (by simp)) i
    exact ⟨hsame.inputA.trans hl.1, hsame.contribution.trans hl.contribution,
      (congrArg (R.watch_INPUT_VAL_CONTRIB.plus (8 * i)).of (hsame _ (.inr rfl))).trans hc⟩
  have hcs : (List.range 16).map t.contribution = (List.range 16).map a.contribution :=
    List.map_congr_left fun i hi => (hlevel (List.mem_range.1 hi)).2.1
  have hs : (if s.enabled pgWatch then min 255 ((List.range 16).map t.contribution).sum else 0) = a.score := by
    rw [hcs, ← henabled]
    rfl
  simp only [hs]
  simp only [State.crosses, State.near, henabled, hold, hthresh, hgap, hlast, hidx, hself, hbucket, hdev] at hcross
  obtain ⟨hc1, hc2, hc3, hc4⟩ := hcross
  have hcounts {f : Fld} (hf : f.off < 0x100) {n : Nat} (h : Counts a t pgWatch f n) : Counts s t pgWatch f n := by
    rw [Counts, h, hlow hf]
  refine ⟨(hlevel (by decide)).1.trans h9, (hlevel (by decide)).1.trans h10, fun i hi h h' => (hlevel hi).1.trans (hother i hi h h'),
    (hform.fld_eq (not_theRegs_offset (by decide) _)).trans hscore, ?_, ?_, fun i hi => ?_, fun h => ?_, fun h hn => ?_, fun h hn => ?_, fun h => ?_, hall⟩
  · exact (hform.fld_eq (not_theRegs_offset (by decide) _)).trans (hpeak'.trans (by rw [hpeak]))
  · rw [hcs]
    exact (hform.fld_eq (not_theRegs_offset (by decide) _)).trans htop
  · rw [(hlevel hi).2.1, (hlevel hi).2.2]
  · obtain ⟨h1, h2, h3, h4⟩ := hc1 h
    exact ⟨hcounts (by decide) h1, hcounts (by decide) h2, h3, h4⟩
  · obtain ⟨h1, h2, h3⟩ := hc2 h hn
    exact ⟨hcounts (by decide) h1, h2, fun q => (h3 q).trans (hlink q)⟩
  · obtain ⟨h1, h2⟩ := hc3 h hn
    exact ⟨fun q hq => by rw [h1 q hq, hup q, hlink q], h2⟩
  · obtain ⟨h1, h2, h3⟩ := hc4 h
    exact ⟨hcounts (by decide) h1, h2, fun q => (h3 q).trans (hlink q)⟩

/-- Settles O30: the inputs one at a time, the score from its parts, a stop as that of O16, a flit as its share has it. -/
theorem faultsAreDetectedAndScored : Obligations.FaultsAreDetectedAndScored := by
  unfold Obligations.FaultsAreDetectedAndScored
  refine ⟨⟨?event, ?decay, ?sample⟩, ⟨?residue, ?residueReset, ?restart, ?expiry, ?lane⟩, ?hop⟩
  case event =>
    intro s k i h hi
    refine ⟨_, exec_watchEvent h, ?_, rfl, Prog.keeps (by simp [eventReaches, setInputA]) s⟩
    simp -implicitDefEqProofs only [eventReaches, Prog.run_all_cons, Prog.run_all_nil]
    rw [setInputA_inputA hi (by omega) _ hi, if_pos rfl]
  case decay =>
    intro s
    refine ⟨_, exec_watchDecay s, fun i hi => watchDecay_inputA s hi, Prog.keeps ?_ s⟩
    refine (Prog.only_each ..).2 fun i hi => ?_
    have hon : onReg (theRegs pgWatch (eventInputs.map (fun i => R.watch_INPUT_VAL_A.plus (8 * i)))) pgWatch (R.watch_INPUT_VAL_A.plus (8 * i)).off :=
      ⟨_, List.mem_map_of_mem hi, rfl⟩
    simp [decays, setInputA, Prog.only_when, hon]
  case sample =>
    intro s tj shift
    exact ⟨_, rfl, sample_run tj shift s⟩
  case residue =>
    intro s c u hup
    obtain ⟨idx, hexec⟩ := exec_residueMismatch (u := u) hup
    exact ⟨_, hexec, residue_run c.isLt u.isLt idx s⟩
  case residueReset =>
    intro s c u hup
    show execResidueMismatch c u s = _
    simp -implicitDefEqProofs only [execResidueMismatch, Prog.next_eq, Prog.run_get, hup, if_true]
    rfl
  case restart => exact fun s => ⟨_, rfl, rfl, Prog.keeps (by simp) s⟩
  case expiry =>
    intro s
    exact ⟨_, exec_stewardWdogExpiry s, expiry_run s⟩
  case lane =>
    intro s ch dir again k n
    have hexec := exec_laneFlitCrcFail ch dir again s
    exact ⟨fun h => ⟨_, hexec.trans (congrArg _ (if_pos h)), rfl, Prog.keeps (by simp) s⟩, fun h =>
      ⟨_, hexec.trans (congrArg _ (if_neg (Nat.not_le.2 h))), laneFails_run ch.isLt dir.isLt s⟩⟩
  case hop =>
    intro s link n share c q off es goes mine
    classical
    have hexec := exec_laneFlitHop link n share c s
    refine ⟨fun h => hexec.trans (congrArg _ (if_pos h)), fun h => ⟨_, hexec.trans (congrArg _ (if_neg h)), ?_⟩⟩
    exact hop_run link n.isLt share.isLt c.isLt s

end Sys2Proof.Machine
end

open Host
section
/-! O32: order chunks as they arrive (R241, R242). -/
namespace Sys2Proof.Machine

variable {s : State}

/-- The bytes that arrive of a chunk, as its fetch changed them. -/
def State.fetched (s : State) (c n : Nat) (flips : List (Nat × Byte)) : List Byte :=
  let raw := s.bytes (sliceAddr c (s.orderOffset c (n * 256))) 4096
  (List.range 4096).map (fun i => raw.getD i 0 ^^^ (Sparse.get? flips i).getD 0)

/-- The check record of a chunk's bytes. -/
def checkRecord (bs : List Byte) : OrderWord := BitVec.ofNat 128 (leNat (bs.drop 4080))

/-- A chunk is marked as failing. -/
def chunkFails (c n cause : Nat) : Prog := modReeve c (fun r => { r with failed := some (n, cause), refetch := none })

/-- A chunk is fetched a second time. -/
def chunkAgain (c n : Nat) : Prog := .all [modReeve c (fun r => { r with refetch := some n }), bump (pgReeve c) R.reeve_REFETCH_CNT]

/-- A chunk is held. -/
def chunkHeld (c n p : Nat) (bs : List Byte) : Prog := .all [
  modReeve c (fun r => { r with chunks := (r.chunks.filter (fun k => k.no == p)) ++ [⟨n, chunkSlots bs⟩], refetch := none }),
  bump (pgReeve c) R.reeve_CHUNK_CNT]

theorem exec_chunkFetchDone {c : CroftId} {n : Nat} (hw : s.fetchWanted c.val n = true) (hi : s.intact = true) (flips : List (Nat × Byte)) :
    let bs := s.fetched c.val n flips
    exec (.chunkFetchDone c n flips) s = .next (
      if checkRecordOk (checkRecord bs) (s.fld (pgReeve c.val) R.reeve_STREAM_CFG_ID) n = false then (chunkFails c.val n 5).run s
      else if bitsOf (checkRecord bs).toNat 64 32 ≠ (crc32 (bs.take 4080)).toNat then
        if (s.reeve c.val).refetch = some n then (chunkFails c.val n 4).run s else (chunkAgain c.val n).run s
      else (chunkHeld c.val n (s.pc c.val / 256) bs).run s) := by
  have hreads : (fetchReads c.val n (s.orderOffset c.val (n * 256))).run s = s := by
    rw [fetchReads, Prog.run_get, if_pos hi]
    rfl
  show execChunkFetchDone c n flips s = _
  simp -implicitDefEqProofs only [execChunkFetchDone, Prog.next_eq, Prog.run_get, hw,
    Prog.run_all_cons, Prog.run_all_nil, hreads, Prog.run_ite, Bool.not_eq_true']
  rfl

theorem chunkFails_run (c n cause : Nat) (s : State) :
    let t := (chunkFails c n cause).run s
    t.reeve c = { s.reeve c with failed := some (n, cause), refetch := none } ∧ Keeps { crofts := (· = c) } s t := by
  refine ⟨?_, Prog.keeps (by simp [chunkFails]) s⟩
  simp -implicitDefEqProofs [chunkFails, modReeve, modCroft, State.reeve_eq]

theorem chunkHeld_run (c n p : Nat) (bs : List Byte) (s : State) :
    let t := (chunkHeld c n p bs).run s
    t.reeve c = { s.reeve c with chunks := (s.reeve c).chunks.filter (fun k => k.no == p) ++ [⟨n, chunkSlots bs⟩], refetch := none } ∧
    Counts s t (pgReeve c) R.reeve_CHUNK_CNT 1 ∧ Keeps { regs := theRegs (pgReeve c) [R.reeve_CHUNK_CNT], crofts := (· = c) } s t := by
  refine ⟨?_, ?_, Prog.keeps (by simp [chunkHeld]) s⟩
  all_goals simp -implicitDefEqProofs [chunkHeld, modReeve, modCroft, State.reeve_eq, Counts]

/-- Settles O32: a chunk's arrival is one of four short writes, as its check record and its CRC decide. -/
theorem chunksAreVerified : Obligations.ChunksAreVerified := by
  unfold Obligations.ChunksAreVerified
  refine ⟨fun s c n flips hw => ?_, fun s c n flips hw hi => ?_⟩
  · show execChunkFetchDone c n flips s = _
    simp -implicitDefEqProofs only [execChunkFetchDone, Prog.next_eq, Prog.run_get, hw, Bool.not_false, if_true]
    rfl
  have hexec := exec_chunkFetchDone hw hi flips
  refine ⟨fun ha => ?_, fun ha hc hr => ?_, fun ha hc hr => ?_, fun ha hc => ?_⟩
  · exact ⟨_, hexec.trans (congrArg _ (if_pos ha)), chunkFails_run c.val n 5 s⟩
  all_goals have hexec := hexec.trans (congrArg _ (if_neg (by rw [Bool.not_eq_false]; exact ha)))
  · refine ⟨_, hexec.trans (congrArg _ ((if_pos hc).trans (if_neg hr))), ?_, ?_, Prog.keeps (by simp [chunkAgain]) s⟩
    all_goals simp -implicitDefEqProofs [chunkAgain, modReeve, modCroft, State.reeve_eq, Counts]
  · exact ⟨_, hexec.trans (congrArg _ ((if_pos hc).trans (if_pos hr))), chunkFails_run c.val n 4 s⟩
  · exact ⟨_, hexec.trans (congrArg _ (if_neg (not_not.2 hc))), chunkHeld_run ..⟩

end Sys2Proof.Machine
end

section
/-! O35: refresh, temperature and faults of the granary controller (R307, R313, R322). -/
namespace Sys2Proof.Machine

variable {s : State}

/-! ### Temperatures -/

/-- A readout is kept, and refresh follows it. -/
def tempKept (h x : Nat) : Prog := .all [
  modDev (fun d => { d with tempFails := Sparse.eraseRange d.tempFails h (h + 1) }),
  setFld (pgGran h) R.granary_THERM_TEMP x,
  Prog.when (decide (85 ≤ x)) (setFld (pgGran h) R.granary_STATUS_REFRESH_2X 1),
  Prog.when (decide (x < 83)) (setFld (pgGran h) R.granary_STATUS_REFRESH_2X 0)]

/-- The stack is hot. -/
def tempHot (h : Nat) : Prog := .all [setFld (pgGran h) R.granary_STATUS_HOT 1, raiseLine (pgGran h), tellWatchOpen]

theorem exec_granaryTempReadout {h : HamletId} (hs : s.granServes h.val = true) (x : Byte) : exec (.granaryTempReadout h (some x)) s = .next (
    if s.fld (pgGran h.val) R.granary_THERM_HOT_LIMIT ≤ x.toNat then (tempHot h.val).run ((tempKept h.val x.toNat).run s)
    else (tempKept h.val x.toNat).run s) := by
  show execGranaryTempReadout h (some x) s = _
  simp -implicitDefEqProofs only [execGranaryTempReadout, Prog.next_eq, Prog.run_get, hs, Bool.not_true, Bool.false_eq_true, if_false,
    Prog.run_all_cons, Prog.run_all_nil, Prog.run_when, decide_eq_true_eq, tempKept, tempHot]

theorem tempKept_run (h : Nat) {x : Nat} (hx : x < 256) (s : State) :
    let t := (tempKept h x).run s
    t.fld (pgGran h) R.granary_THERM_TEMP = x ∧ t.dev.tempFails = Sparse.eraseRange s.dev.tempFails h (h + 1) ∧
    t.bit (pgGran h) R.granary_STATUS_REFRESH_2X =
      (if 85 ≤ x then true else if x < 83 then false else s.bit (pgGran h) R.granary_STATUS_REFRESH_2X) ∧
    Keeps { regs := theRegs (pgGran h) [R.granary_THERM_TEMP, R.granary_STATUS_REFRESH_2X], dev := True } s t := by
  refine ⟨?_, ?_, ?_, Prog.keeps (by simp [tempKept, Prog.only_when]) s⟩
  all_goals simp -implicitDefEqProofs only [tempKept, Prog.run_all_cons, Prog.run_all_nil, Prog.run_when, decide_eq_true_eq]
  all_goals
    by_cases h1 : 85 ≤ x
    · have h2 : ¬ x < 83 := by omega
      simp -implicitDefEqProofs [h1, h2, modDev, State.bit, Nat.mod_eq_of_lt hx]
    · by_cases h2 : x < 83
      · simp -implicitDefEqProofs [h1, h2, modDev, State.bit, Nat.mod_eq_of_lt hx]
      · simp -implicitDefEqProofs [h1, h2, modDev, State.bit, Nat.mod_eq_of_lt hx]

theorem tempHot_run (h : Nat) (s : State) :
    let t := (tempHot h).run s
    t.bit (pgGran h) R.granary_STATUS_HOT = true ∧ t.fld (pgGran h) R.granary_THERM_TEMP = s.fld (pgGran h) R.granary_THERM_TEMP ∧
    t.dev.tempFails = s.dev.tempFails ∧ t.bit (pgGran h) R.granary_STATUS_REFRESH_2X = s.bit (pgGran h) R.granary_STATUS_REFRESH_2X := by
  have hkeep := Prog.keeps (T := { regs := theRegs (pgGran h) [R.granary_STATUS_HOT, R.CRIER_LINE_RAISED], dev := True, seq := True }) (p := tempHot h)
    (by simp [tempHot]) s
  have hlook : ((tempHot h).run s).dev.tempFails = s.dev.tempFails :=
    looks_run (v := Device.tempFails) (fun d => by simp [tempHot, tellWatchOpen, tellWatch]) s
  have hhot : ((tempHot h).run s).bit (pgGran h) R.granary_STATUS_HOT = true ∧
      ((tempHot h).run s).bit (pgGran h) R.granary_STATUS_REFRESH_2X = s.bit (pgGran h) R.granary_STATUS_REFRESH_2X := by
    have hrun : (tempHot h).run s = (Prog.all [raiseLine (pgGran h), tellWatchOpen]).run ((setFld (pgGran h) R.granary_STATUS_HOT 1).run s) := by
      simp -implicitDefEqProofs only [tempHot, Prog.run_all_cons, Prog.run_all_nil]
    have hrest := Prog.keeps (T := { regs := theRegs (pgGran h) [R.CRIER_LINE_RAISED], dev := True, seq := True })
      (p := .all [raiseLine (pgGran h), tellWatchOpen]) (by simp) ((setFld (pgGran h) R.granary_STATUS_HOT 1).run s)
    rw [hrun]
    refine ⟨(hrest.bit_eq (not_theRegs_offset (by decide) _)).trans ?_, (hrest.bit_eq (not_theRegs_offset (by decide) _)).trans ?_⟩
    all_goals simp [State.bit]
  exact ⟨hhot.1, hkeep.fld_eq (not_theRegs_offset (by decide) _), hlook, hhot.2⟩

/-! ### Controller faults -/

theorem each_when {α : Type} (b : α → Bool) (p : α → Prog) (l : List α) (s : State) :
    (Prog.each l (fun x => Prog.when (b x) (p x))).run s = (Prog.each (l.filter b) p).run s := by
  induction l generalizing s with
  | nil => rfl
  | cons x l ih =>
    rw [Prog.run_each_cons, Prog.run_when, List.filter_cons, ih]
    split
    · rw [Prog.run_each_cons]
    · rfl

/-- What a controller fault does. -/
def ControllerFaults (s t : State) (h cause addr : Nat) : Prop :=
  t.fld (pgGran h) R.STATE_STATE = stFault ∧ t.fld (pgGran h) R.FAULT_CAUSE = cause ∧ t.fld (pgGran h) R.FAULT_ADDR_LO = addr % 2 ^ 32 ∧
  (∀ c, c / 16 = h → s.granWaits c h = true → Halts s t c ∧ t.dev.stepEnd = true) ∧
  (∀ c, c / 16 ≠ h ∨ s.granWaits c h = false → t.croft c = s.croft c) ∧ t.mem = s.mem ∧ t.out = s.out

theorem granFault_acts {h : Nat} (hs : s.granServes h = true) {cause : Nat} (hc : cause < 2 ^ R.FAULT_CAUSE.width) (addr : Nat) :
    ControllerFaults s ((granFault h cause addr).run s) h cause addr := by
  have hfault : s.fld (pgGran h) R.STATE_STATE ≠ stFault := by
    rw [State.granServes, Bool.and_eq_true, beq_iff_eq] at hs
    rw [hs.1]
    decide
  have hmem : ((granFault h cause addr).run s).mem = s.mem := Prog.mem_eq (by simp [granFault, Prog.only_when]) s
  have hout := (Prog.keeps (T := { regs := fun _ => True, crofts := fun _ => True, dev := True }) (p := granFault h cause addr)
    (by simp [granFault, Prog.only_when, onReg]) s).out id
  have hrecord : (Prog.all [pageFault (pgGran h) cause addr, raiseLine (pgGran h)]).run s =
      (raiseLine (pgGran h)).run ((faultRecord (pgGran h) cause addr).run s) := by
    rw [Prog.run_all_cons, Prog.run_all_cons, Prog.run_all_nil, pageFault_run_new hfault]
  have hkeep := Prog.keeps (T := { regs := theRegs (pgGran h) faultRegs }) (p := .all [pageFault (pgGran h) cause addr, raiseLine (pgGran h)])
    (by simp [faultRegs]) s
  have hline := Prog.keeps (T := { regs := theRegs (pgGran h) [R.CRIER_LINE_RAISED] }) (p := raiseLine (pgGran h)) (by simp)
    ((faultRecord (pgGran h) cause addr).run s)
  have haddr : ((faultRecord (pgGran h) cause addr).run s).fld (pgGran h) R.FAULT_ADDR_LO = addr % 2 ^ 32 := by
    simp [faultRecord]
  obtain ⟨hstate, hcause⟩ := pageFault_faults (pgGran h) hc addr s
  rw [granFault_run] at hmem hout ⊢
  rw [← hrecord] at hline
  have haddr' := (hline.fld_eq (f := R.FAULT_ADDR_LO) (not_theRegs_offset (by decide) (pgGran h))).trans haddr
  generalize (Prog.all [pageFault (pgGran h) cause addr, raiseLine (pgGran h)]).run s = u at *
  have hsame : (granHalts s h).run u = (Prog.each (((List.range 16).map (h * 16 + ·)).filter (fun c => s.granWaits c h)) laneHalt).run u :=
    each_when _ _ _ u
  have hhalts := granHalts_keeps s h u
  obtain ⟨hhalt, haside, -⟩ := laneHalts_run (((List.range 16).map (h * 16 + ·)).filter (fun c => s.granWaits c h))
    ((List.nodup_range.map (fun a b e => by simpa using e)).filter _) u
  rw [← hsame] at hhalt haside
  generalize (granHalts s h).run u = t at *
  have hreg (f : Fld) (hf : f.off < 0x1000) : t.fld (pgGran h) f = u.fld (pgGran h) f := congrArg f.of (hhalts.offPage_reg hf)
  refine ⟨(hreg _ (by decide)).trans hstate, (hreg _ (by decide)).trans (hcause hfault), (hreg _ (by decide)).trans haddr', fun c hc hw => ?_,
    fun c hc => ?_, hmem, hout⟩
  · obtain ⟨hh, hstep⟩ := hhalt c (List.mem_filter.2 ⟨List.mem_map.2 ⟨c % 16, List.mem_range.2 (by omega), by omega⟩, hw⟩)
    exact ⟨fun hrun => hh ((hkeep.bit_eq (not_theRegs_apart (by simp [faultRegs]))).trans hrun), hstep⟩
  · refine (haside c fun hm => ?_).trans (hkeep.crofts c id)
    obtain ⟨hl, hw⟩ := List.mem_filter.1 hm
    obtain ⟨i, hi, rfl⟩ := List.mem_map.1 hl
    have := List.mem_range.1 hi
    rcases hc with hc | hc
    · omega
    · rw [hc] at hw
      contradiction

theorem ControllerFaults.congr {u t : State} {h cause addr : Nat} (hf : ControllerFaults u t h cause addr) (hw : ∀ c, u.granWaits c h = s.granWaits c h)
    (hrun : ∀ c, u.running c = s.running c) (hcroft : ∀ c, u.croft c = s.croft c) (hmem : u.mem = s.mem) (hout : u.out = s.out) :
    ControllerFaults s t h cause addr := by
  obtain ⟨h1, h2, h3, h4, h5, h6, h7⟩ := hf
  refine ⟨h1, h2, h3, fun c hc hc' => ?_, fun c hc => ?_, h6.trans hmem, h7.trans hout⟩
  · obtain ⟨hh, hstep⟩ := h4 c hc ((hw c).trans hc')
    exact ⟨fun hr => hh ((hrun c).trans hr), hstep⟩
  · rw [h5 c (by rwa [hw]), hcroft]

/-- Settles O35: a readout is a few writes, and a controller fault one record and a halt of each croft that waits. -/
theorem granaryControllerActs : Obligations.GranaryControllerActs := by
  unfold Obligations.GranaryControllerActs
  refine ⟨fun s h rfm hs => ?_, fun s h x hs => ?_, fun s h hs hf => ?_, fun s h i cause addr hs hi => ?_⟩
  · refine ⟨_, rfl, ?_, Prog.keeps (by simp [Prog.only_when]) s⟩
    simp -implicitDefEqProofs only [Prog.run_get, hs, Bool.and_true, Prog.run_when]
    cases rfm
    · simp [Counts, satAdd_zero]
    · simp [Counts]
  · obtain ⟨htemp, hfails, h2x, hkeep⟩ := tempKept_run h.val x.isLt s
    have hnone : Sparse.get? ((tempKept h.val x.toNat).run s).dev.tempFails h.val = none := by
      rw [hfails, Sparse.get?_eraseRange, if_pos (by omega)]
    refine ⟨_, exec_granaryTempReadout hs x, ?_⟩
    split
    case isTrue hhot =>
      obtain ⟨h1, h2, h3, h4⟩ := tempHot_run h.val ((tempKept h.val x.toNat).run s)
      exact ⟨h2.trans htemp, by rw [h3, hnone], h4.trans h2x, fun _ => h1, fun hn => absurd hhot (by omega)⟩
    case isFalse hhot => exact ⟨htemp, hnone, h2x, fun hn => absurd hn hhot, fun _ => hkeep⟩
  · have hexec : exec (.granaryTempReadout h none) s =
        .next ((modDev (fun d => { d with tempFails := Sparse.set d.tempFails h.val 1 })).run s) := by
      show execGranaryTempReadout h none s = _
      simp -implicitDefEqProofs only [execGranaryTempReadout, Prog.next_eq, Prog.run_get, hs, hf, Bool.not_true, Bool.false_eq_true, if_false,
        Nat.reduceLeDiff]
    exact ⟨_, hexec, rfl, Prog.keeps (by simp) s⟩
  · rcases hi with ⟨rfl, rfl, rfl, hn⟩ | ⟨g, rfl, rfl, rfl, hr⟩ | ⟨a, rfl, rfl, rfl⟩
    · have hexec : exec (.granaryTempReadout h none) s = .next ((granFault h.val 3 0).run s) := by
        show execGranaryTempReadout h none s = _
        simp -implicitDefEqProofs only [execGranaryTempReadout, Prog.next_eq, Prog.run_get, hs, hn, Bool.not_true, Bool.false_eq_true, if_false, if_true]
      exact ⟨_, hexec, granFault_acts hs (by decide) 0⟩
    · have hexec : exec (.writeParityReport h g) s = .next ((granFault h.val 4 (g.val * 64)).run
          ((modDev (fun d => { d with writeRetries := d.writeRetries.filter (· != granuleOf h g.val) })).run s)) := by
        show execWriteParityReport h g s = _
        simp -implicitDefEqProofs only [execWriteParityReport, Prog.next_eq, Prog.run_get, hs, hr, Bool.not_true, Bool.false_eq_true, if_false,
          if_true, Prog.run_all_cons, Prog.run_all_nil]
      refine ⟨_, hexec, ControllerFaults.congr (granFault_acts ?_ (by decide) (g.val * 64)) (fun _ => rfl) (fun _ => rfl) (fun _ => rfl) rfl rfl⟩
      exact hs
    · have hexec : exec (.granaryCmdTimeout h a) s = .next ((granFault h.val 2 a.val).run s) := by
        show execGranaryCmdTimeout h a s = _
        simp -implicitDefEqProofs only [execGranaryCmdTimeout, Prog.next_eq, Prog.run_get, hs, Prog.run_when, if_true]
      exact ⟨_, hexec, granFault_acts hs (by decide) a.val⟩

end Sys2Proof.Machine
end

open Host
section
/-! SUPPORT. Accesses to protected memory that is clean where they are (R299 to R305). -/
namespace Sys2Proof.Machine

variable {s : State}

theorem each_still {α : Type} {l : List α} {f : α → Prog} {s : State} (h : ∀ x ∈ l, (f x).run s = s) : (Prog.each l f).run s = s := by
  induction l with
  | nil => rfl
  | cons x l ih =>
    rw [Prog.run_each_cons, h x (List.mem_cons_self ..)]
    exact ih fun y hy => h y (List.mem_cons_of_mem _ hy)

/-! ### Words -/

theorem wordFind_zero : wordFind 0 = .clean := by decide

theorem wordFind_one {m : BitVec 72} (h : weight m = 1) : wordFind m = .single 0 := by simp only [wordFind, h]

theorem wordFind_two {m : BitVec 72} (h : weight m = 2) : wordFind m = .beyond := by simp only [wordFind, h]

theorem reviveWord_still {k : Nat} (h : k ∉ s.dev.deadWords) : (reviveWord k).run s = s := by
  simp [reviveWord, h]

theorem settleWord_still {c k : Nat} (h : s.flipOf k = 0) : (settleWord c k).run s = s := by
  simp only [settleWord, Prog.run_get, h, wordFind_zero]
  rfl

theorem settleWord_beyond {c k : Nat} (h : wordFind (s.flipOf k) = .beyond) : (settleWord c k).run s = s := by
  simp only [settleWord, Prog.run_get, h]
  rfl

theorem settleParity_still {c st : Nat} (h : s.parityFlip st = 0) : (settleParity c st).run s = s := by
  simp only [settleParity, Prog.run_get, h, wordFind_zero]
  rfl

theorem checkWord_still {c k : Nat} (h : s.flipOf k = 0) (hd : k ∉ s.dev.deadWords) (src : Option Source) : (checkWord c k src).run s = s := by
  simp -implicitDefEqProofs only [checkWord, Prog.run_all_cons, Prog.run_all_nil, settleWord_still h, Prog.run_get, h, wordFind_zero]
  exact reviveWord_still hd

theorem checkParity_still {c st : Nat} (h : s.parityFlip st = 0) : (checkParity c st).run s = s := by
  simp -implicitDefEqProofs only [checkParity, Prog.run_all_cons, Prog.run_all_nil, settleParity_still h, Prog.run_get, h, wordFind_zero]
  rfl

/-! ### Uncorrectable words near an access -/

theorem meets_iff (a n u k : Nat) : meets a n u k = true ↔ a < (k + 1) * u ∧ k * u < a + n := by
  simp [meets]

theorem mem_wordsOf {a n k : Nat} (hn : 0 < n) : k ∈ wordsOf a n ↔ a / 8 ≤ k ∧ k ≤ (a + n - 1) / 8 := by
  rw [wordsOf, if_neg (by omega), List.mem_map]
  constructor
  · rintro ⟨i, hi, rfl⟩
    have := List.mem_range.1 hi
    omega
  · rintro ⟨h1, h2⟩
    exact ⟨k - a / 8, List.mem_range.2 (by omega), by omega⟩

theorem meets_words {a n k : Nat} (hn : 0 < n) : meets a n 8 k = true ↔ k ∈ wordsOf a n := by
  rw [meets_iff, mem_wordsOf hn]
  omega

/-- No word of an access to a slice is uncorrectable. -/
theorem deadAt_slice {a n : Nat} (ha : granEnd ≤ a) (hn : 0 < n) : s.deadAt a n = false ↔ ∀ k ∈ wordsOf a n, k ∉ s.dev.deadWords := by
  have ha' : ¬ a < granEnd := by omega
  simp only [State.deadAt, ha, ha', decide_true, Bool.true_and, decide_false, Bool.false_and, Bool.or_false, List.any_eq_false, meets_words hn]
  exact ⟨fun h k hk hd => h k hd hk, fun h k hd hk => h k hk hd⟩

theorem bucketHears_still {a n : Nat} (h : s.deadAt a n = false) (src : Source) (fail : Prog) : (bucketHears src fail a n).run s = s := by
  simp [bucketHears, h]

theorem bucketHears_other {src : Source} (h : src ≠ .bucket) (fail : Prog) (a n : Nat) (s : State) : (bucketHears src fail a n).run s = s := by
  rw [bucketHears, Prog.run_get, beq_eq_false_iff_ne.2 h]
  rfl

/-! ### Places of a slice -/

theorem granEnd_le_slice (c o : Nat) : granEnd ≤ sliceAddr c o := by simp only [granEnd, sliceAddr]; omega

theorem sliceOf_slice (c : Nat) {o : Nat} (h : o < 0x10000000) : sliceOf (sliceAddr c o) = c := by simp only [sliceOf, sliceAddr]; omega

theorem inStripe_iff (o n : Nat) : inStripe o n = true ↔ 0 < n ∧ o + n ≤ sliceSize ∧ o / 256 = (o + n - 1) / 256 := by
  simp [inStripe, and_assoc]

/-- The words of an access within one stripe. -/
theorem wordsOf_stripe {c o n k : Nat} (h : inStripe o n = true) (hk : k ∈ wordsOf (sliceAddr c o) n) : k / 32 = sliceAddr c o / 256 := by
  obtain ⟨hn, hsize, hst⟩ := (inStripe_iff ..).1 h
  have := (mem_wordsOf hn).1 hk
  simp only [sliceAddr] at this ⊢
  omega

theorem newFlips_nil (st : Nat) : newFlips st [] = .done := rfl

theorem mem_stripeWords {k st : Nat} : k ∈ stripeWords st ↔ k / 32 = st := by
  simp only [stripeWords, List.mem_map, List.mem_range]
  constructor
  · rintro ⟨b, hb, rfl⟩
    omega
  · exact fun h => ⟨k % 32, by omega, by omega⟩

/-! ### Changed bits -/

theorem toLe_zero (n : Nat) : toLe n 0 = List.replicate n 0 := by
  induction n with
  | zero => rfl
  | succ n ih => rw [toLe, Nat.zero_div, ih, List.replicate_succ]; rfl

theorem zipWith_xor_zero (bs : List Byte) : List.zipWith (· ^^^ ·) bs (List.replicate bs.length 0) = bs := by
  induction bs with
  | nil => rfl
  | cons b bs ih => rw [List.length_cons, List.replicate_succ, List.zipWith_cons_cons, ih]; exact congrArg (· :: bs) (BitVec.xor_zero)

theorem xorBytes_zero_run (a n : Nat) (s : State) : (xorBytes a n 0).run s = (Act.bytes a (s.bytes a n)).apply s := by
  have hlen : (s.bytes a n).length = n := by simp [State.bytes]
  have h := zipWith_xor_zero (s.bytes a n)
  rw [hlen] at h
  simp only [xorBytes, Prog.run_get, Prog.run_eff, toLe_zero, h]

/-- No stored bit is changed. -/
theorem xorBytes_zero (a n : Nat) (s : State) : Keeps {} s ((xorBytes a n 0).run s) := by
  have hlen : (s.bytes a n).length = n := by simp [State.bytes]
  rw [xorBytes_zero_run]
  have hkeep := Act.apply_bytes_keeps s a (s.bytes a n)
  refine { hkeep with mem := fun x _ => ?_ }
  rw [Act.apply_bytes_byte]
  split
  case isTrue h =>
    rw [hlen] at h
    have hlt : x - a < n := by omega
    simp [State.bytes, hlt, show a + (x - a) = x by omega]
  case isFalse => rfl

theorem putBits_zero_get {w : Nat} (m : List (Nat × BitVec w)) (k j : Nat) :
    (Sparse.get? (putBits m k 0) j).getD 0 = if j = k then 0 else (Sparse.get? m j).getD 0 := by
  rw [putBits, if_pos rfl, Sparse.get?_eraseRange, if_congr (show k ≤ j ∧ j < k + 1 ↔ j = k by omega) rfl rfl]
  split <;> rfl

end Sys2Proof.Machine
end

section
/-! O33: cistern reads, writes and scrubs (R298 to R305, R316, R318). -/
namespace Sys2Proof.Machine

variable {s : State}

/-! ### Reads -/

theorem exec_cisternRead {c : CroftId} {off : BitVec 28} {len : Fin 257} (hin : Machine.inStripe off.toNat len.val = true)
    (hup : s.underReset (pgCist c.val) = false) (src : Source) : exec (.cisternRead c off len src []) s = .next (
      (bucketHears src (snapFail 1 (sliceAddr c.val off.toNat)) (sliceAddr c.val off.toNat) len.val).run
        ((Prog.each (wordsOf (sliceAddr c.val off.toNat) len.val) (fun k => checkWord c.val k (some src))).run s)) := by
  show execCisternRead c off len src [] s = _
  simp -implicitDefEqProofs only [execCisternRead, Prog.next_eq, Prog.run_get, hin, hup, Bool.not_true, Bool.or_self, Bool.false_eq_true,
    if_false, Prog.run_all_cons, Prog.run_all_nil]
  rfl

/-- A word has been made good: its changed bits are gone, and neither memory nor any other word's changed bits are touched. -/
structure Mends (k : Nat) (s t : State) : Prop where
  keeps : Keeps { dev := True } s t
  flips : t.dev.flips = putBits s.dev.flips k 0
  dead : t.dev.deadWords = s.dev.deadWords

/-- A correction is counted and logged. -/
def ceRecord (c k : Nat) (f : Fld) (kind : Nat) : Prog := .all [bump (pgCist c) f, logCE c (k * 8) kind]

/-- What a correction leaves. -/
def Corrected (c k : Nat) (f : Fld) (kind : Nat) (s t : State) : Prop :=
  t.flipOf k = 0 ∧ (∀ j, j ≠ k → t.flipOf j = s.flipOf j) ∧ t.dev.deadWords = s.dev.deadWords ∧ Counts s t (pgCist c) f 1 ∧
  t.fld (pgCist c) R.cistern_CE_LOG_KIND = kind ∧ t.bit (pgCist c) R.cistern_CE_LOG_VALID = true ∧
  Keeps { regs := theRegs (pgCist c) [f, R.cistern_CE_LOG_VALID, R.CRIER_LINE_RAISED], dev := True } s t

theorem ceRecord_run {c k kind : Nat} {f : Fld} (hf : f ∈ [R.cistern_CE_CNT, R.cistern_RECON_CNT]) (hk : kind < 2) {u : State} (h : Mends k s u) :
    Corrected c k f kind s ((ceRecord c k f kind).run u) := by
  have hlook : (fun d : Device => (d.flips, d.deadWords)) ((ceRecord c k f kind).run u).dev = (u.dev.flips, u.dev.deadWords) :=
    looks_run (v := fun d : Device => (d.flips, d.deadWords)) (fun d => by simp [ceRecord, logCE, tellWatch]) u
  obtain ⟨hflips, hdead⟩ := Prod.mk.inj hlook
  have hkeep := Prog.keeps (T := { regs := theRegs (pgCist c) [f, R.cistern_CE_LOG_VALID, R.CRIER_LINE_RAISED], dev := True })
    (p := ceRecord c k f kind) (by simp [ceRecord, logCE, Prog.only_when]) u
  have hget (j : Nat) : ((ceRecord c k f kind).run u).flipOf j = if j = k then 0 else s.flipOf j := by
    rw [State.flipOf, hflips, h.flips, putBits_zero_get]
    rfl
  have hfields : Counts u ((ceRecord c k f kind).run u) (pgCist c) f 1 ∧
      ((ceRecord c k f kind).run u).fld (pgCist c) R.cistern_CE_LOG_KIND = kind ∧
      ((ceRecord c k f kind).run u).bit (pgCist c) R.cistern_CE_LOG_VALID = true := by
    have hrun : ∃ b, (ceRecord c k f kind).run u = (Prog.all [Prog.when b (raiseLine (pgCist c)), tellWatch 0]).run ((Prog.all [bump (pgCist c) f,
        setFld (pgCist c) R.cistern_CE_LOG_OFFSET (offIn c (k * 8)), setFld (pgCist c) R.cistern_CE_LOG_KIND kind,
        setFld (pgCist c) R.cistern_CE_LOG_VALID 1]).run u) :=
      ⟨((bump (pgCist c) f).run u).bit (pgCist c) R.cistern_CFG_CE_IRQ, by
        simp -implicitDefEqProofs only [ceRecord, logCE, Prog.run_all_cons, Prog.run_all_nil, Prog.run_get]⟩
    obtain ⟨b, hrun⟩ := hrun
    have hlast (v : State) := Prog.keeps (T := { regs := theRegs (pgCist c) [R.CRIER_LINE_RAISED], dev := True })
      (p := .all [Prog.when b (raiseLine (pgCist c)), tellWatch 0]) (by cases b <;> simp [Prog.when]) v
    have hoff : f.off = 0x80 ∨ f.off = 0x84 := by simpa [or_comm] using (List.mem_pair.1 hf).imp (congrArg Fld.off) (congrArg Fld.off)
    rw [hrun]
    refine ⟨?_, ((hlast _).fld_eq (not_theRegs_offset (by decide) _)).trans ?_, ((hlast _).bit_eq (not_theRegs_offset (by decide) _)).trans ?_⟩
    · refine ((hlast _).reg_eq (not_theRegs_offset (by rcases hoff with h | h <;> rw [h] <;> decide) _)).trans ?_
      rcases hoff with h | h
      all_goals simp -implicitDefEqProofs [h]
    · simp -implicitDefEqProofs [Nat.mod_eq_of_lt hk]
    · simp -implicitDefEqProofs [State.bit]
  obtain ⟨hcnt, hkind, hvalid⟩ := hfields
  refine ⟨by rw [hget, if_pos rfl], fun j hj => by rw [hget, if_neg hj], hdead.trans h.dead, ?_, hkind, hvalid, ?_⟩
  · rw [Counts, hcnt, h.keeps.reg_eq id]
  · exact (h.keeps.mono (by constructor <;> simp)).trans hkeep

theorem Mends.congr {k : Nat} {t u : State} (h : Mends k s t) (hk : Keeps { dev := True } t u) (hf : u.dev.flips = t.dev.flips)
    (hd : u.dev.deadWords = t.dev.deadWords) : Mends k s u := ⟨h.keeps.trans hk, hf.trans h.flips, hd.trans h.dead⟩

/-- The stripe's parity word is left as it says. -/
def leavesParity (f : List (Nat × BitVec 64) → List (Nat × BitVec 64)) : Prog := modDev (fun x => { x with parityErr := f x.parityErr })

theorem checkWord_run_single {k : Nat} (h : weight (s.flipOf k) = 1) (hd : k ∉ s.dev.deadWords) (c : Nat) (src : Option Source) :
    Corrected c k R.cistern_CE_CNT 0 s ((checkWord c k src).run s) := by
  have hset : Mends k s ((setFlip k 0).run s) := ⟨Prog.keeps (by simp [setFlip]) s, rfl, rfl⟩
  have hxor : Mends k s ((xorBytes (k * 8) 8 0).run ((setFlip k 0).run s)) :=
    hset.congr ((xorBytes_zero _ _ _).mono (by constructor <;> simp)) rfl rfl
  have hpar (f : List (Nat × BitVec 64) → List (Nat × BitVec 64)) : Mends k s ((leavesParity f).run ((xorBytes (k * 8) 8 0).run ((setFlip k 0).run s))) :=
    hxor.congr (Prog.keeps (by simp [leavesParity]) _) rfl rfl
  have hsettle : ∃ u, Mends k s u ∧ (settleWord c k).run s = (ceRecord c k R.cistern_CE_CNT 0).run u := by
    refine ⟨_, hpar (fun m => putBits m (k / 32) ((Sparse.get? m (k / 32)).getD 0 ^^^ 0)), ?_⟩
    simp -implicitDefEqProofs only [settleWord, Prog.run_get, wordFind_one h, Prog.run_all_cons, Prog.run_all_nil, reviveWord_still hd, corrupt, ceRecord,
      leavesParity]
    rfl
  obtain ⟨u, hu, hrun⟩ := hsettle
  have hcorr := ceRecord_run (c := c) (f := R.cistern_CE_CNT) (kind := 0) (by simp) (by decide) hu
  rw [← hrun] at hcorr
  obtain ⟨hflip, hothers, hdead, -⟩ := id hcorr
  have hcheck : (checkWord c k src).run s = (settleWord c k).run s := by
    simp -implicitDefEqProofs only [checkWord, Prog.run_all_cons, Prog.run_all_nil, Prog.run_get, hflip, wordFind_zero]
    exact reviveWord_still (by rwa [hdead])
  rw [hcheck]
  exact hcorr

theorem checkWord_run_double {k : Nat} (h : weight (s.flipOf k) = 2) (hd : k ∉ s.dev.deadWords)
    (ho : ∀ j, j ≠ k → j / 32 = k / 32 → s.flipOf j = 0) (hp : s.parityFlip (k / 32) = 0) (hpd : s.parityDiff (k / 32) = 0) (c : Nat)
    (src : Option Source) : Corrected c k R.cistern_RECON_CNT 1 s ((checkWord c k src).run s) := by
  have hbeyond := wordFind_two h
  have hreb : s.rebuildable (k / 32) k = true := by
    simp only [State.rebuildable, hp, wordFind_zero, Bool.and_eq_true, List.all_eq_true, List.mem_range, Bool.or_eq_true, beq_iff_eq]
    refine ⟨by decide, fun b hb => ?_⟩
    by_cases hk : k / 32 * 32 + b = k
    · exact .inl hk
    · rw [ho _ hk (by omega), wordFind_zero]
      exact .inr (by decide)
  have heach : (Prog.each ((stripeWords (k / 32)).filter (· != k)) (settleWord c)).run s = s := by
    refine each_still fun j hj => settleWord_still ?_
    obtain ⟨hj, hne⟩ := List.mem_filter.1 hj
    exact ho j (by simpa using hne) (mem_stripeWords.1 hj)
  have hxor : Keeps { dev := True } s ((xorBytes (k * 8) 8 0).run s) := (xorBytes_zero _ _ _).mono (by constructor <;> simp)
  have hu : Mends k s ((setFlip k 0).run ((leavesParity (fun m => putBits m (k / 32) 0)).run ((xorBytes (k * 8) 8 0).run s))) :=
    ⟨(hxor.trans (Prog.keeps (by simp [leavesParity]) _)).trans (Prog.keeps (by simp [setFlip]) _), rfl, rfl⟩
  have hrun : (checkWord c k src).run s = (ceRecord c k R.cistern_RECON_CNT 1).run
      ((setFlip k 0).run ((leavesParity (fun m => putBits m (k / 32) 0)).run ((xorBytes (k * 8) 8 0).run s))) := by
    simp -implicitDefEqProofs only [checkWord, Prog.run_all_cons, Prog.run_all_nil, Prog.run_get, settleWord_beyond hbeyond, hbeyond]
    rw [if_neg (by decide)]
    simp -implicitDefEqProofs only [Prog.run_all_cons, Prog.run_all_nil, reviveWord_still hd]
    rw [if_pos hreb]
    simp -implicitDefEqProofs only [Prog.run_all_cons, Prog.run_all_nil, Prog.run_get, heach, settleParity_still hp, hpd, ceRecord, leavesParity]
    rfl
  rw [hrun]
  exact ceRecord_run (by simp) (by decide) hu

/-! ### Uncorrectable words -/

/-- What the find of uncorrectable data does to its source: a reeve's page, and what the device is told. -/
def reactTouch : Touch := { regs := offKinds [.cistern, .granary], crofts := fun _ => True, dev := True, seq := True }

theorem ueHalt_only (c e i a : Nat) : (ueHalt c e i a).Only reactTouch.allows := by
  have hon (o : Nat) (ho : o < 0x1000) : onReg reactTouch.regs (pgReeve c) o := onReg_offKinds ho (by simp) (by simp)
  intro s
  simp only [reactTouch] at hon ⊢
  refine iteInduction (motive := Prog.Only _) (fun _ => ?_) fun _ => ?_
  · simp [hon]
  · simp [faultRecord, orderHalt, hon]

theorem queueUE_only (q a : Nat) : (queueUE q a).Only reactTouch.allows := by
  intro s
  show Prog.Only _ (if _ then _ else _)
  split
  · exact ueHalt_only _ _ _ _
  · simp only [Prog.only_all_cons, Prog.only_all_nil, Prog.only_eff, and_true]
    exact ⟨ueHalt_only _ _ _ _, trivial⟩

theorem ueReact_only (src : Option Source) (own : Option Nat) (addr : Nat) : (ueReact src own addr).Only reactTouch.allows := by
  cases src with
  | none =>
    cases own with
    | none => trivial
    | some c =>
      intro s
      simp only [Prog.only_all_cons, Prog.only_all_nil, Prog.only_eff, and_true]
      exact ⟨ueHalt_only _ _ _ _, trivial⟩
  | some src =>
    cases src with
    | engine e i =>
      cases own with
      | none => trivial
      | some c => exact ueHalt_only _ _ _ _
    | sluice q => exact queueUE_only _ _
    | incoming q =>
      cases q with
      | none => trivial
      | some q => exact queueUE_only _ _
    | host => trivial
    | bucket => trivial
    | steward => trivial

section
variable {α : Type} {v : Device → α} (hv : ∀ d, v { d with stepEnd := true, stepAlarm := true } = v d)
include hv

theorem ueHalt_looks (c e i a : Nat) (d : Device) : (ueHalt c e i a).Safe (looks v d) := by
  have hends : stepEnds.Safe (looks v d) := modDev_looks hv
  refine (Prog.safe_get _).2 fun s _ => iteInduction (motive := Prog.Safe _) (fun _ => ?_) fun _ => ?_
  · simp [hends]
  · simp [faultRecord, orderHalt, hends]

theorem queueUE_looks (q a : Nat) (d : Device) : (queueUE q a).Safe (looks v d) := by
  refine (Prog.safe_get _).2 fun s _ => iteInduction (motive := Prog.Safe _) (fun _ => ueHalt_looks hv ..) fun _ => ?_
  simp [ueHalt_looks hv]

/-- The find of uncorrectable data tells the device only that the step ends. -/
theorem ueReact_looks (src : Option Source) (own : Option Nat) (addr : Nat) (d : Device) : (ueReact src own addr).Safe (looks v d) := by
  cases src with
  | none =>
    cases own with
    | none => exact Prog.safe_done
    | some c => exact (Prog.safe_get _).2 fun s _ => by simp [ueHalt_looks hv]
  | some src =>
    cases src with
    | engine e i =>
      cases own with
      | none => exact Prog.safe_done
      | some c => exact ueHalt_looks hv ..
    | sluice q => exact queueUE_looks hv ..
    | incoming q =>
      cases q with
      | none => exact Prog.safe_done
      | some q => exact queueUE_looks hv ..
    | host => exact Prog.safe_done
    | bucket => exact Prog.safe_done
    | steward => exact Prog.safe_done

end

/-- The record of an uncorrectable word. -/
def ueRecord (c addr : Nat) (src : Option Source) (valid : Bool) : Prog := .all [
  bump (pgCist c) R.cistern_UE_CNT,
  if valid then setFld (pgCist c) R.cistern_UE_LOG_OVERRUN 1
  else .all [
    setFld (pgCist c) R.cistern_UE_LOG_OFFSET (offIn c addr),
    setFld (pgCist c) R.cistern_UE_LOG_SOURCE (srcCode src),
    setFld (pgCist c) R.cistern_UE_LOG_VALID 1]]

theorem ueRecord_run (c addr : Nat) (src : Option Source) (s : State) :
    let t := (ueRecord c addr src (s.bit (pgCist c) R.cistern_UE_LOG_VALID)).run s
    Counts s t (pgCist c) R.cistern_UE_CNT 1 ∧ t.bit (pgCist c) R.cistern_UE_LOG_VALID = true ∧
    Keeps { regs := theRegs (pgCist c) [R.cistern_UE_CNT, R.cistern_UE_LOG_VALID] } s t := by
  cases hv : s.bit (pgCist c) R.cistern_UE_LOG_VALID
  · refine ⟨?_, ?_, Prog.keeps (by simp [ueRecord]) s⟩
    all_goals simp -implicitDefEqProofs [ueRecord, Counts, State.bit]
  · refine ⟨?_, ?_, Prog.keeps (by simp [ueRecord]) s⟩
    · simp -implicitDefEqProofs [ueRecord, Counts]
    · simp only [State.bit, bne_iff_ne, ne_eq] at hv
      simp -implicitDefEqProofs [ueRecord, State.bit, hv]

/-- An uncorrectable word is recorded, and its source reacts. -/
theorem cistUE_run (c addr cause : Nat) (src : Option Source) (s : State) :
    ∃ a, (cistUE c addr cause src).run s = (ueReact src (some c) (offIn c addr)).run
      ((Prog.all [pageFault (pgCist c) cause a, raiseLine (pgCist c), tellWatch 1]).run
        ((ueRecord c addr src (s.bit (pgCist c) R.cistern_UE_LOG_VALID)).run s)) := by
  refine ⟨((ueRecord c addr src (s.bit (pgCist c) R.cistern_UE_LOG_VALID)).run s).fld (pgCist c) R.cistern_UE_LOG_OFFSET, ?_⟩
  simp -implicitDefEqProofs only [cistUE, ueRecord, Prog.run_get, Prog.run_all_cons, Prog.run_all_nil]

theorem cistUE_facts (c addr : Nat) {cause : Nat} (hc : cause < 2 ^ R.FAULT_CAUSE.width) (src : Option Source) (s : State) :
    ∃ v, (cistUE c addr cause src).run s = (ueReact src (some c) (offIn c addr)).run v ∧
    Counts s v (pgCist c) R.cistern_UE_CNT 1 ∧ v.bit (pgCist c) R.cistern_UE_LOG_VALID = true ∧ Faults s v (pgCist c) cause ∧
    v.dev.deadWords = s.dev.deadWords ∧
    Keeps { regs := theRegs (pgCist c) (R.cistern_UE_CNT :: R.cistern_UE_LOG_VALID :: faultRegs), dev := True } s v := by
  obtain ⟨a, hrun⟩ := cistUE_run c addr cause src s
  obtain ⟨hcnt, hvalid, hrec⟩ := ueRecord_run c addr src s
  refine ⟨_, hrun, ?_⟩
  have hdev : ((ueRecord c addr src (s.bit (pgCist c) R.cistern_UE_LOG_VALID)).run s).dev = s.dev := hrec.dev id
  generalize (ueRecord c addr src (s.bit (pgCist c) R.cistern_UE_LOG_VALID)).run s = u at *
  have hrun2 : (Prog.all [pageFault (pgCist c) cause a, raiseLine (pgCist c), tellWatch 1]).run u =
      (tellWatch 1).run ((Prog.all [pageFault (pgCist c) cause a, raiseLine (pgCist c)]).run u) := by
    simp -implicitDefEqProofs only [Prog.run_all_cons, Prog.run_all_nil]
  have hfault := pageFault_faults (pgCist c) hc a u
  have hkeep := Prog.keeps (T := { regs := theRegs (pgCist c) faultRegs }) (p := .all [pageFault (pgCist c) cause a, raiseLine (pgCist c)])
    (by simp [faultRegs]) u
  rw [hrun2]
  generalize (Prog.all [pageFault (pgCist c) cause a, raiseLine (pgCist c)]).run u = w at *
  have htell : Keeps { dev := True } w ((tellWatch 1).run w) := Prog.keeps (by simp) w
  have hdead : ((tellWatch 1).run w).dev.deadWords = w.dev.deadWords := looks_run (v := Device.deadWords) (fun d => by simp [tellWatch]) w
  refine ⟨?_, ?_, hfault.congr (fun f hf => hrec.reg_eq (not_theRegs_offset ?_ _)) fun f _ => htell.reg_eq id, ?_, ?_⟩
  · rw [Counts, htell.reg_eq id, hkeep.reg_eq (not_theRegs_offset (by decide) _), hcnt]
  · rw [htell.bit_eq id, hkeep.bit_eq (not_theRegs_offset (by decide) _), hvalid]
  · revert f
    decide
  · rw [hdead, hkeep.dev id, hdev]
  · exact ((hrec.mono (by constructor; case regs => exact theRegs_mono (by simp)
                          all_goals simp)).trans
      (hkeep.mono (by constructor; case regs => exact theRegs_mono (by simp)
                      all_goals simp))).trans (htell.mono (by constructor <;> simp))

theorem xorBytes_range (a n v : Nat) (s : State) : Keeps { mem := inRange a n } s ((xorBytes a n v).run s) := by
  rw [xorBytes, Prog.run_get, Prog.run_eff]
  refine (Act.apply_bytes_keeps s a _).mono ⟨by simp, fun x hx => ?_, by simp, by simp, by simp, by simp, by simp, by simp, by simp, by simp, by simp⟩
  have : (List.zipWith (· ^^^ ·) (s.bytes a n) (toLe n v)).length ≤ n := by simp [State.bytes]
  exact ⟨hx.1, by have := hx.2; omega⟩

theorem checkWord_run_dead {k : Nat} (h : weight (s.flipOf k) = 2) (hd : k ∉ s.dev.deadWords) (hr : s.rebuildable (k / 32) k = false) (c : Nat)
    (src : Option Source) : ∃ u, (checkWord c k src).run s = (cistUE c (k * 8) 1 src).run u ∧ u.dev.deadWords = s.dev.deadWords ++ [k] ∧
      Keeps { mem := inRange (k * 8) 8, dev := True } s u := by
  have hbeyond := wordFind_two h
  refine ⟨(modDev (fun d => { d with deadWords := d.deadWords ++ [k] })).run ((xorBytes (k * 8) 8 (dataBits (s.flipOf k)).toNat).run s), ?_, rfl,
    ((xorBytes_range _ _ _ _).mono (by constructor <;> simp)).trans (Prog.keeps (by simp) _)⟩
  simp -implicitDefEqProofs only [checkWord, Prog.run_all_cons, Prog.run_all_nil, Prog.run_get, settleWord_beyond hbeyond, hbeyond]
  rw [if_neg (by decide)]
  simp -implicitDefEqProofs only [Prog.run_all_cons, Prog.run_all_nil, reviveWord_still hd]
  rw [if_neg (by rw [hr]; decide)]
  simp -implicitDefEqProofs only [Prog.run_all_cons, Prog.run_all_nil]

/-! ### Halts for uncorrectable data -/

theorem orderHalt_index {idx : Nat} (hi : idx < 2 ^ 24) (c engine : Nat) (s : State) :
    ((orderHalt c idx engine).run s).fld (pgReeve c) R.reeve_FAULT_IDX_INDEX = idx := by
  norm_num only at hi
  have hidx : ((faultIdx c idx engine).run s).fld (pgReeve c) R.reeve_FAULT_IDX_INDEX = idx := by
    simp -implicitDefEqProofs [faultIdx, Nat.mod_eq_of_lt hi]
  rw [orderHalt_run_eq]
  generalize (faultIdx c idx engine).run s = u at *
  have hkeep := (haltReq_keeps c 3 u).fld_eq (f := R.reeve_FAULT_IDX_INDEX) (p := pgReeve c) (not_theRegs_offset (by decide) _)
  exact ((stepEnds_keeps _).fld_eq id).trans (hkeep.trans hidx)

/-- What a reeve records of an uncorrectable read. -/
def ueMarks (c e a now : Nat) : Prog := .all [
  faultRecord (pgReeve c) 0x0C a, raiseLine (pgReeve c), modReeve c (fun r => { r with ueAt := some (now, e) })]

theorem ueHalt_run {c e i a : Nat} (h : s.fld (pgReeve c) R.STATE_STATE ≠ stFault) :
    (ueHalt c e i a).run s = (orderHalt c i e).run ((ueMarks c e a s.now).run s) := by
  rw [ueHalt, Prog.run_get]
  simp -implicitDefEqProofs only [h, false_and, if_false, Prog.run_all_cons, Prog.run_all_nil, ueMarks]

theorem ueMarks_run (c e a now : Nat) (s : State) :
    let t := (ueMarks c e a now).run s
    t.fld (pgReeve c) R.STATE_STATE = stFault ∧ t.fld (pgReeve c) R.FAULT_CAUSE = 0x0C ∧
    Keeps { regs := theRegs (pgReeve c) faultRegs, crofts := (· = c) } s t := by
  have hrun : (ueMarks c e a now).run s = (Prog.all [raiseLine (pgReeve c), modReeve c (fun r => { r with ueAt := some (now, e) })]).run
      ((faultRecord (pgReeve c) 0x0C a).run s) := by
    simp -implicitDefEqProofs only [ueMarks, Prog.run_all_cons, Prog.run_all_nil]
  have hkeep := Prog.keeps (T := { regs := theRegs (pgReeve c) [R.CRIER_LINE_RAISED], crofts := (· = c) })
    (p := .all [raiseLine (pgReeve c), modReeve c (fun r => { r with ueAt := some (now, e) })]) (by simp) ((faultRecord (pgReeve c) 0x0C a).run s)
  refine ⟨?_, ?_, Prog.keeps (by simp [ueMarks, faultRecord, faultRegs]) s⟩
  · rw [hrun, hkeep.fld_eq (not_theRegs_offset (by decide) _)]
    simp [faultRecord, stFault]
  · rw [hrun, hkeep.fld_eq (not_theRegs_offset (by decide) _)]
    simp [faultRecord]

/-- An engine's uncorrectable read stops its croft. -/
theorem ueHalt_facts {c e i : Nat} (he : e < 16) (hi : i < 2 ^ 24) (a : Nat) (h : s.fld (pgReeve c) R.STATE_STATE ≠ stFault) :
    let t := (ueHalt c e i a).run s
    Faults s t (pgReeve c) 0x0C ∧ Halts s t c ∧ t.fld (pgReeve c) R.reeve_FAULT_IDX_INDEX = i ∧ t.fld (pgReeve c) R.reeve_FAULT_IDX_ENGINE = e ∧
    Keeps { regs := theRegs (pgReeve c) (R.reeve_FAULT_IDX_INDEX :: R.reeve_STATUS_MORE :: faultRegs), crofts := (· = c), dev := True } s t := by
  rw [ueHalt_run h]
  obtain ⟨hstate, hcause, hmarks⟩ := ueMarks_run c e a s.now s
  generalize (ueMarks c e a s.now).run s = u at *
  obtain ⟨r, hr, -, hhalts, -, hengine⟩ := orderHalt_run he c i u
  have hindex := orderHalt_index hi c e u
  have hkeep := orderHalt_keeps c i e u
  generalize (orderHalt c i e).run u = t at *
  refine ⟨⟨(hkeep.fld_eq (not_theRegs_offset (by decide) _)).trans hstate, fun _ => (hkeep.fld_eq (not_theRegs_offset (by decide) _)).trans hcause⟩,
    fun hrun => ?_, hindex, hengine, ?_⟩
  · rw [State.reeve_eq, hr]
    exact hhalts ((hmarks.bit_eq (not_theRegs_offset (by decide) _)).trans hrun)
  · exact (hmarks.mono (by constructor; case regs => exact theRegs_mono (by simp)
                           all_goals simp)).trans
      (hkeep.mono (by constructor; case regs => exact theRegs_mono (by simp)
                      all_goals simp))

/-- What the record of an uncorrectable word of croft `c` changes. -/
def ueTouch (c k : Nat) : Touch where
  regs := theRegs (pgCist c) (R.cistern_UE_CNT :: R.cistern_UE_LOG_VALID :: faultRegs)
  mem := inRange (k * 8) 8
  dev := True

/-- A single word with two bits changed that cannot be rebuilt. -/
theorem cisternRead_dead {c : CroftId} {off : BitVec 28} {len : Fin 257} {src : Source} {k : Nat} (hin : Machine.inStripe off.toNat len.val = true)
    (hup : s.underReset (pgCist c.val) = false) (hw : wordsOf (sliceAddr c.val off.toNat) len.val = [k]) (hd : k ∉ s.dev.deadWords)
    (h : weight (s.flipOf k) = 2) (hr : s.rebuildable (k / 32) k = false) (hsrc : src ≠ .bucket) :
    ∃ v, exec (.cisternRead c off len src []) s = .next ((ueReact (some src) (some c.val) (offIn c.val (k * 8))).run v) ∧
      Counts s v (pgCist c.val) R.cistern_UE_CNT 1 ∧ v.bit (pgCist c.val) R.cistern_UE_LOG_VALID = true ∧ Faults s v (pgCist c.val) 1 ∧
      k ∈ v.dev.deadWords ∧ Keeps (ueTouch c.val k) s v := by
  obtain ⟨u, hrun, hdead, hu⟩ := checkWord_run_dead h hd hr c.val (some src)
  obtain ⟨v, hrun', hcnt, hvalid, hfault, hdead', hv⟩ := cistUE_facts c.val (k * 8) (cause := 1) (by decide) (some src) u
  refine ⟨v, ?_, ?_, hvalid, hfault.congr (fun f _ => hu.reg_eq id) (fun _ _ => rfl), ?_, ?_⟩
  · rw [exec_cisternRead hin hup, bucketHears_other hsrc, hw, Prog.run_each_cons, Prog.run_each_nil, hrun, hrun']
  · rw [Counts, hcnt, hu.reg_eq id]
  · rw [hdead', hdead]
    simp
  · exact (hu.mono (by constructor <;> simp [ueTouch])).trans (hv.mono (by constructor <;> simp [ueTouch]))

theorem cisternRead_mended {c : CroftId} {off : BitVec 28} {len : Fin 257} {src : Source} {k kind : Nat} {f : Fld}
    (hin : Machine.inStripe off.toNat len.val = true) (hup : s.underReset (pgCist c.val) = false)
    (hw : wordsOf (sliceAddr c.val off.toNat) len.val = [k]) (hd : k ∉ s.dev.deadWords)
    (h : Corrected c.val k f kind s ((checkWord c.val k (some src)).run s)) :
    Leaves (exec (.cisternRead c off len src []) s) (Corrected c.val k f kind s) := by
  obtain ⟨hn, -, -⟩ := (inStripe_iff ..).1 hin
  obtain ⟨-, -, hdead, -⟩ := id h
  refine ⟨_, exec_cisternRead hin hup src, ?_⟩
  rw [hw, Prog.run_each_cons, Prog.run_each_nil, bucketHears_still]
  · exact h
  · refine (deadAt_slice (granEnd_le_slice _ _) hn).2 fun j hj => ?_
    rw [hw, List.mem_singleton] at hj
    rwa [hj, hdead]

/-! ### Writes -/

/-- Another write of the cycle takes effect over this one's. -/
def loses (src : Source) (rival : Option Source) : Bool := match rival with | some r => decide (writeRank src < writeRank r) | none => false

theorem loses_iff (src : Source) (rival : Option Source) : loses src rival = true ↔ ∃ r, rival = some r ∧ writeRank src < writeRank r := by
  cases rival <;> simp [loses]

theorem exec_cisternWrite {c : CroftId} {off : BitVec 28} {bs : List Byte} (hin : Machine.inStripe off.toNat bs.length = true)
    (hup : s.underReset (pgCist c.val) = false) (src : Source) (rival : Option Source) : exec (.cisternWrite c off bs src rival []) s = .next (
      if loses src rival = true then (bump (pgCist c.val) R.cistern_WW_CNT).run s
      else (bucketHears src (snapFail 1 (sliceAddr c.val off.toNat)) (sliceAddr c.val off.toNat) bs.length).run
        ((store (some src) (sliceAddr c.val off.toNat) bs).run s)) := by
  show execCisternWrite c off bs src rival [] s = _
  simp -implicitDefEqProofs only [execCisternWrite, Prog.next_eq, Prog.run_get, hin, hup, Bool.not_true, Bool.or_self, Bool.false_eq_true,
    if_false, Prog.run_all_cons, Prog.run_all_nil, Prog.run_ite, List.map_nil, newFlips_nil, Prog.run_done]
  rfl

theorem cutAt_within {u a : Nat} {bs : List Byte} (hb : bs ≠ []) (h : a % u + bs.length ≤ u) (fuel : Nat) : cutAt u (fuel + 1) a bs = [(a, bs)] := by
  have hdrop : bs.drop (u - a % u) = [] := List.drop_eq_nil_of_le (by omega)
  have hnil (n x : Nat) : cutAt u n x [] = [] := by cases n <;> rfl
  rw [cutAt, if_neg (by simpa using hb)]
  simp only [hdrop, hnil, List.take_of_length_le (show bs.length ≤ u - a % u by omega)]

/-- A stripe written whole. -/
def wholeStripe (a : Nat) (bs : List Byte) : Prog := .all [eff (.bytes a bs), modDev (fun d => { d with
  flips := Sparse.eraseRange d.flips (a / 256 * 32) (a / 256 * 32 + 32), deadWords := d.deadWords.filter (fun k => k / 32 != a / 256)
  parityFlips := putBits d.parityFlips (a / 256) 0, parityErr := putBits d.parityErr (a / 256) 0 })]

/-- The accesses of a stripe's write: a whole stripe directly, and part of a clean stripe as its bytes. -/
theorem store_stripe {c o : Nat} {bs : List Byte} (hin : Machine.inStripe o bs.length = true) (src : Option Source) :
    (s.intact = true → (store src (sliceAddr c o) bs).run s = (Act.bytes (sliceAddr c o) bs).apply s) ∧
    (s.intact = false → bs.length = 256 → (store src (sliceAddr c o) bs).run s = (wholeStripe (sliceAddr c o) bs).run s) ∧
    (s.intact = false → bs.length < 256 → s.cleanStripe (sliceAddr c o / 256) → (∀ k ∈ s.dev.deadWords, k / 32 ≠ sliceAddr c o / 256) →
      (store src (sliceAddr c o) bs).run s = (Act.bytes (sliceAddr c o) bs).apply s) := by
  obtain ⟨hn, hsize, hst⟩ := (inStripe_iff ..).1 hin
  have hlen : bs ≠ [] := fun e => by simp [e] at hn
  have hmod : sliceAddr c o % 256 + bs.length ≤ 256 := by
    simp only [sliceAddr]
    omega
  have hgran := granEnd_le_slice c o
  have hone (hi : s.intact = false) : (store src (sliceAddr c o) bs).run s = (storeStripe src (sliceAddr c o) bs).run s := by
    rw [store, Prog.run_get, if_neg (by rw [hi]; decide), if_neg (by omega), cutAt_within hlen hmod, Prog.run_each_cons, Prog.run_each_nil]
  refine ⟨fun hi => store_run hi .., fun hi hw => ?_, fun hi hw hc hd => ?_⟩
  · rw [hone hi, storeStripe, if_pos hw]
    rfl
  · have hwords : (Prog.each (wordsOf (sliceAddr c o) bs.length) (fun k => checkWord (sliceOf (sliceAddr c o)) k src)).run s = s := by
      refine each_still fun k hk => ?_
      have hkst := wordsOf_stripe hin hk
      obtain ⟨hflip, -, -⟩ := hc
      refine checkWord_still ?_ (fun hm => hd k hm hkst) _
      have := hflip (k % 32) (Nat.mod_lt _ (by decide))
      rwa [← hkst, Nat.div_add_mod'] at this
    have hdead : s.deadAt (sliceAddr c o) bs.length = false :=
      (deadAt_slice hgran hn).2 fun k hk hm => hd k hm (wordsOf_stripe hin hk)
    rw [hone hi, storeStripe, if_neg (by omega)]
    simp -implicitDefEqProofs only [Prog.run_all_cons, Prog.run_all_nil, hwords, checkParity_still hc.2.1, Prog.run_get, hdead, Bool.false_eq_true,
      if_false, Prog.run_eff]

theorem intact_clean (h : s.intact = true) : (∀ k, s.flipOf k = 0) ∧ ∀ st, s.cleanStripe st := by
  simp only [State.intact, Bool.and_eq_true, List.isEmpty_iff] at h
  obtain ⟨⟨⟨⟨⟨⟨hf, hpf⟩, hpe⟩, -⟩, -⟩, -⟩, -⟩ := h
  have hk (k : Nat) : s.flipOf k = 0 := by rw [State.flipOf, hf]; rfl
  exact ⟨hk, fun st => ⟨fun b _ => hk _, by rw [State.parityFlip, hpf]; rfl, by rw [State.parityDiff, hpe]; rfl⟩⟩

theorem wholeStripe_run (a : Nat) {bs : List Byte} (hl : bs.length = 256) (ha : a % 256 = 0) (hg : granEnd ≤ a) (s : State) :
    let t := (wholeStripe a bs).run s
    t.holds a bs ∧ t.cleanStripe (a / 256) ∧ (∀ k, k / 32 ≠ a / 256 → t.flipOf k = s.flipOf k) ∧ t.deadAt a bs.length = false ∧
    Keeps { mem := inRange a 256, dev := True } s t := by
  have hflips : ((wholeStripe a bs).run s).dev.flips = Sparse.eraseRange s.dev.flips (a / 256 * 32) (a / 256 * 32 + 32) := rfl
  have hdead : ((wholeStripe a bs).run s).dev.deadWords = s.dev.deadWords.filter (fun k => k / 32 != a / 256) := rfl
  have hpf : ((wholeStripe a bs).run s).dev.parityFlips = putBits s.dev.parityFlips (a / 256) 0 := rfl
  have hpe : ((wholeStripe a bs).run s).dev.parityErr = putBits s.dev.parityErr (a / 256) 0 := rfl
  refine ⟨Act.apply_bytes_holds s a bs, ⟨fun b hb => ?_, ?_, ?_⟩, fun k hk => ?_, (deadAt_slice hg (by omega)).2 fun k hk hm => ?_, ?_⟩
  · rw [State.flipOf, hflips, Sparse.get?_eraseRange, if_pos (by omega)]
    rfl
  · rw [State.parityFlip, hpf, putBits_zero_get, if_pos rfl]
  · rw [State.parityDiff, hpe, putBits_zero_get, if_pos rfl]
  · rw [State.flipOf, hflips, Sparse.get?_eraseRange, if_neg (by omega), State.flipOf]
  · rw [hdead] at hm
    have h1 := (List.mem_filter.1 hm).2
    have h2 := (mem_wordsOf (by omega)).1 hk
    simp only [bne_iff_ne, ne_eq] at h1
    omega
  · have hb := Act.apply_bytes_keeps s a bs
    rw [hl] at hb
    have hmarks := Prog.keeps (T := { mem := inRange a 256, dev := True }) (p := .all [modDev (fun d => { d with
      flips := Sparse.eraseRange d.flips (a / 256 * 32) (a / 256 * 32 + 32), deadWords := d.deadWords.filter (fun k => k / 32 != a / 256)
      parityFlips := putBits d.parityFlips (a / 256) 0, parityErr := putBits d.parityErr (a / 256) 0 })]) (by simp) ((Act.bytes a bs).apply s)
    exact (hb.mono (U := { mem := inRange a 256, dev := True }) (by constructor <;> simp)).trans hmarks

theorem cisternWrite_cases {c : CroftId} {off : BitVec 28} {bs : List Byte} (hin : Machine.inStripe off.toNat bs.length = true)
    (hup : s.underReset (pgCist c.val) = false) (src : Source) (rival : Option Source) :
    let a := sliceAddr c.val off.toNat
    (∀ r, rival = some r → writeRank src < writeRank r → Leaves (exec (.cisternWrite c off bs src rival []) s) (fun t =>
      Counts s t (pgCist c.val) R.cistern_WW_CNT 1 ∧ Keeps { regs := theRegs (pgCist c.val) [R.cistern_WW_CNT] } s t)) ∧
    ((∀ r, rival = some r → writeRank r ≤ writeRank src) → s.cleanStripe (a / 256) → (∀ k ∈ s.dev.deadWords, k / 32 ≠ a / 256) →
      Leaves (exec (.cisternWrite c off bs src rival []) s) (fun t => t.holds a bs ∧ t.cleanStripe (a / 256) ∧
        Keeps { mem := inRange a bs.length, dev := bs.length = 256 } s t)) ∧
    ((∀ r, rival = some r → writeRank r ≤ writeRank src) → bs.length = 256 → Leaves (exec (.cisternWrite c off bs src rival []) s) (fun t =>
      t.holds a bs ∧ t.cleanStripe (a / 256) ∧ (∀ k, k / 32 ≠ a / 256 → t.flipOf k = s.flipOf k) ∧
      Keeps { mem := inRange a 256, dev := True } s t)) := by
  intro a
  obtain ⟨hn, hsize, hst⟩ := (inStripe_iff ..).1 hin
  have hgran : granEnd ≤ a := granEnd_le_slice _ _
  have hle : bs.length ≤ 256 := by omega
  have hexec := exec_cisternWrite hin hup src rival
  obtain ⟨hintact, hwhole, hpart⟩ := store_stripe (c := c.val) (s := s) hin (some src)
  have hwon (h : ∀ r, rival = some r → writeRank r ≤ writeRank src) :
      ¬ loses src rival = true := by
    rw [loses_iff]
    rintro ⟨r, hr, hlt⟩
    exact absurd (h r hr) (by omega)
  have hbytes (hc : s.cleanStripe (a / 256)) : (Act.bytes a bs).apply s |>.cleanStripe (a / 256) := hc
  have hdead (hd : ∀ k ∈ s.dev.deadWords, k / 32 ≠ a / 256) : ((Act.bytes a bs).apply s).deadAt a bs.length = false :=
    (deadAt_slice hgran hn).2 fun k hk hm => hd k hm (wordsOf_stripe hin hk)
  have halign (h : bs.length = 256) : a % 256 = 0 := by
    simp only [a, sliceAddr]
    omega
  refine ⟨fun r hr h => ⟨_, hexec.trans (congrArg _ (if_pos ((loses_iff ..).2 ⟨r, hr, h⟩))), ?_, Prog.keeps (by simp) s⟩, fun h hc hd => ?_, fun h hl => ?_⟩
  · simp [Counts]
  · refine ⟨_, hexec.trans (congrArg _ (if_neg (hwon h))), ?_⟩
    by_cases hfull : s.intact = false ∧ bs.length = 256
    · obtain ⟨h1, h2, -, h4, h5⟩ := wholeStripe_run a hfull.2 (halign hfull.2) hgran s
      rw [hwhole hfull.1 hfull.2, bucketHears_still h4]
      exact ⟨h1, h2, h5.mono (by constructor <;> simp [hfull.2])⟩
    · have hrun : (store (some src) a bs).run s = (Act.bytes a bs).apply s := by
        cases hi : s.intact
        · exact hpart hi (by simp only [hi, true_and] at hfull; omega) hc hd
        · exact hintact hi
      rw [hrun, bucketHears_still (hdead hd)]
      exact ⟨Act.apply_bytes_holds s a bs, hbytes hc, (Act.apply_bytes_keeps s a bs).mono (by constructor <;> simp)⟩
  · refine ⟨_, hexec.trans (congrArg _ (if_neg (hwon h))), ?_⟩
    cases hi : s.intact
    · obtain ⟨h1, h2, h3, h4, h5⟩ := wholeStripe_run a hl (halign hl) hgran s
      rw [hwhole hi hl, bucketHears_still h4]
      exact ⟨h1, h2, h3, h5⟩
    · have hstill : ((Act.bytes a bs).apply s).deadAt a bs.length = false := deadAt_intact (by simpa using hi) _ _
      rw [hintact hi, bucketHears_still hstill]
      exact ⟨Act.apply_bytes_holds s a bs, hbytes ((intact_clean hi).2 _), fun _ _ => rfl,
        (Act.apply_bytes_keeps s a bs).mono (by constructor <;> simp [hl])⟩

/-! ### Scrubs -/

theorem scrubOne_still {c st : Nat} (h : s.cleanStripe st) (hd : ∀ k ∈ s.dev.deadWords, k / 32 ≠ st) : (scrubOne c st).run s = s := by
  obtain ⟨hf, hp, hpd⟩ := h
  have hwords : (Prog.each ((List.range 32).map (st * 32 + ·)) (fun k => checkWord c k none)).run s = s := by
    refine each_still fun k hk => ?_
    obtain ⟨b, hb, rfl⟩ := List.mem_map.1 hk
    have := List.mem_range.1 hb
    exact checkWord_still (hf b this) (fun hm => hd _ hm (by omega)) none
  simp -implicitDefEqProofs only [scrubOne, Prog.run_get, Prog.run_all_cons, Prog.run_all_nil, hwords, checkParity_still hp, hpd, bne_self_eq_false,
    Bool.and_false, Prog.run_when_false]

/-- The scrub's place goes on. -/
def scrubNext (c n : Nat) : Prog := .all [
  setFld (pgCist c) R.cistern_STATUS_SCRUB_STRIPE (if n + 1 < 61440 then n + 1 else 0),
  Prog.when (decide (61440 ≤ n + 1)) (bump (pgCist c) R.cistern_SCRUB_PASS_CNT)]

theorem scrubNext_run (c n : Nat) (s : State) :
    let t := (scrubNext c n).run s
    t.fld (pgCist c) R.cistern_STATUS_SCRUB_STRIPE = (if n + 1 < 61440 then n + 1 else 0) ∧
    Counts s t (pgCist c) R.cistern_SCRUB_PASS_CNT (if n + 1 < 61440 then 0 else 1) ∧
    Keeps { regs := theRegs (pgCist c) [R.cistern_STATUS_SCRUB_STRIPE, R.cistern_SCRUB_PASS_CNT] } s t := by
  refine ⟨?_, ?_, Prog.keeps (by simp [scrubNext, Prog.only_when]) s⟩
  all_goals
    by_cases h : n + 1 < 61440
    · have h' : ¬ 61440 ≤ n + 1 := by omega
      simp -implicitDefEqProofs [scrubNext, h, h', Counts, satAdd_zero, Nat.mod_eq_of_lt (show n + 1 < 65536 by omega)]
    · have h' : 61440 ≤ n + 1 := by omega
      simp -implicitDefEqProofs [scrubNext, h, h', Counts]

/-- Settles O33: a clean word and a clean stripe are as they were; a word that is not has one of three courses. -/
theorem cisternWordsAreProtected : Obligations.CisternWordsAreProtected := by
  unfold Obligations.CisternWordsAreProtected
  refine ⟨⟨fun s c off len src hin hup hclean => ?_, fun s c off len src k hin hup hw hd => ?_⟩, fun s c off bs src rival hin hup => ?_,
    fun s c hen => ?_, fun s c hup hen hclean => ?_⟩
  · obtain ⟨hn, -, -⟩ := (inStripe_iff ..).1 hin
    have hwords : (Prog.each (wordsOf (sliceAddr c.val off.toNat) len.val) (fun k => checkWord c.val k (some src))).run s = s :=
      each_still fun k hk => checkWord_still (hclean k hk).1 (hclean k hk).2 _
    rw [exec_cisternRead hin hup, hwords, bucketHears_still]
    exact (deadAt_slice (granEnd_le_slice _ _) hn).2 fun k hk => (hclean k hk).2
  · intro st others
    refine ⟨fun h => ?_, fun h hr hsrc => ?_, fun h hr hf e i hs => ?_⟩
    · by_cases h1 : weight (s.flipOf k) = 1
      · simp only [h1, if_true]
        exact cisternRead_mended hin hup hw hd (checkWord_run_single h1 hd c.val _)
      · obtain ⟨h2, ho, hp, hpd⟩ := h.resolve_left h1
        simp only [h1, if_false]
        exact cisternRead_mended hin hup hw hd (checkWord_run_double h2 hd ho hp hpd c.val _)
    · obtain ⟨v, hexec, hcnt, hvalid, hfault, hdead, hv⟩ := cisternRead_dead hin hup hw hd h hr hsrc
      have hreact := Prog.keeps (ueReact_only (some src) (some c.val) (offIn c.val (k * 8))) v
      have hlook : ((ueReact (some src) (some c.val) (offIn c.val (k * 8))).run v).dev.deadWords = v.dev.deadWords :=
        looks_run (v := Device.deadWords) (ueReact_looks (fun _ => rfl) _ _ _) v
      generalize (ueReact (some src) (some c.val) (offIn c.val (k * 8))).run v = t at *
      have hreg {o : Nat} (ho : o < 0x1000) : t.reg (pgCist c.val) o = v.reg (pgCist c.val) o := hreact.reg_eq (not_offKinds (by simp) (by simp) ho)
      refine ⟨_, hexec, (hreg (by decide)).trans hcnt, (congrArg (fun w => R.cistern_UE_LOG_VALID.of w != 0) (hreg (by decide))).trans hvalid,
        by rwa [hlook], hfault.congr (fun _ _ => rfl) fun f hf => hreg ?_⟩
      revert f
      decide
    · subst hs
      obtain ⟨v, hexec, -, -, -, -, hv⟩ := cisternRead_dead (src := .engine e i) hin hup hw hd h hr (by simp)
      have hstate : v.fld (pgReeve c.val) R.STATE_STATE ≠ stFault := by
        rwa [hv.fld_eq (not_theRegs_apart (by simp [faultRegs]))]
      obtain ⟨hfault, hhalts, hindex, hengine, hkeep⟩ := ueHalt_facts e.isLt i.isLt (offIn c.val (k * 8)) hstate
      refine ⟨_, hexec, hfault.congr (fun f hf => hv.reg_eq (not_theRegs_apart ?_)) (fun _ _ => rfl), fun hrun => hhalts ?_, hindex, hengine, ?_⟩
      · revert f
        simp [faultRegs]
      · exact (hv.bit_eq (not_theRegs_apart (by simp [faultRegs]))).trans hrun
      · refine (hv.mono ?_).trans (hkeep.mono ?_)
        · constructor
          case regs => exact fun a ha => ⟨_, List.mem_cons_self .., ha⟩
          all_goals simp [ueTouch]
        · constructor
          case regs => exact fun a ha => ⟨_, List.mem_cons_of_mem _ (List.mem_cons_self ..), ha⟩
          all_goals simp
  · exact cisternWrite_cases hin hup src rival
  · show execScrubStripe c [] s = _
    simp -implicitDefEqProofs only [execScrubStripe, Prog.next_eq, Prog.run_get, hen, Bool.not_false, Bool.true_or, if_true]
    rfl
  · have hscrubs : (Prog.each (List.range 16) (fun g => scrubOne c.val ((sliceAddr c.val (g * bankSize)) / 256 +
        s.fld (pgCist c.val) R.cistern_STATUS_SCRUB_STRIPE))).run s = s := by
      refine each_still fun g hg => ?_
      obtain ⟨h1, h2⟩ := hclean g (List.mem_range.1 hg)
      exact scrubOne_still h1 h2
    have hexec : exec (.scrubStripe c []) s = .next ((scrubNext c.val (s.fld (pgCist c.val) R.cistern_STATUS_SCRUB_STRIPE)).run s) := by
      show execScrubStripe c [] s = _
      simp -implicitDefEqProofs only [execScrubStripe, Prog.next_eq, Prog.run_get, hen, hup, Bool.not_true, Bool.or_self, Bool.false_eq_true, if_false,
        Prog.run_all_cons, Prog.run_all_nil, Prog.run_each_nil, scrubNext]
      rw [hscrubs]
    exact ⟨_, hexec, scrubNext_run c.val _ s⟩

end Sys2Proof.Machine
end

open Host
section
/-! SUPPORT. Granules: what the decoder makes of one (R309 to R311). -/
namespace Sys2Proof.Machine

variable {s : State}

theorem granFind_clean {m : BitVec 544} (h : symbolsOf m = []) (detect : Bool) : granFind detect m = .clean := by
  simp [granFind, h]

theorem granFind_few {m : BitVec 544} (h : (symbolsOf m).length = 1 ∨ (symbolsOf m).length = 2) :
    granFind false m = .corrected (symbolsOf m).length 0 := by
  have h0 : (symbolsOf m).length ≠ 0 := by omega
  have h2 : (symbolsOf m).length ≤ 2 := by omega
  simp only [granFind, h0, h2, if_false, if_true, Bool.false_eq_true]

theorem granFind_bad {m : BitVec 544} (h : 1 ≤ (symbolsOf m).length) (h' : (symbolsOf m).length ≤ 4) : granFind true m = .bad := by
  have h0 : (symbolsOf m).length ≠ 0 := by omega
  simp only [granFind, h0, h', if_false, if_true, true_or]

theorem putBits_get {w : Nat} (m : List (Nat × BitVec w)) (k j : Nat) (v : BitVec w) :
    (Sparse.get? (putBits m k v) j).getD 0 = if j = k then v else (Sparse.get? m j).getD 0 := by
  by_cases hv : v = 0
  · rw [hv, putBits_zero_get]
  · rw [putBits, if_neg hv, Sparse.get?_set]
    split <;> rfl

theorem reviveGranule_still {g : Nat} (h : g ∉ s.dev.deadGranules) : (reviveGranule g).run s = s := by
  have h' : s.dev.deadGranules.contains g = false := by simpa using h
  rw [reviveGranule, Prog.run_get, h']
  rfl

theorem granDecode_still {g : Nat} (h : symbolsOf (s.granMask g) = []) (hd : g ∉ s.dev.deadGranules) (src : Option Source) (back : Bool) :
    (granDecode g src back).run s = s := by
  simp -implicitDefEqProofs only [granDecode, Prog.run_all_cons, Prog.run_all_nil, reviveGranule_still hd, Prog.run_get, granFind_clean h]
  rfl

/-- No other granule is met by an access within one. -/
theorem deadAt_granule {a n : Nat} (ha : a < granEnd) (hn : 0 < n) (hin : a % 64 + n ≤ 64) :
    s.deadAt a n = false ↔ a / 64 ∉ s.dev.deadGranules := by
  have ha' : ¬ granEnd ≤ a := by omega
  have hmeets (k : Nat) : meets a n 64 k = true ↔ k = a / 64 := by
    rw [meets_iff]
    omega
  simp only [State.deadAt, ha, ha', decide_true, Bool.true_and, decide_false, Bool.false_and, Bool.false_or, List.any_eq_false, hmeets]
  exact ⟨fun h hm => h _ hm rfl, fun h k hk e => h (e ▸ hk)⟩

/-! ### Corrections -/

/-- Of any width, so that no numeral of the granule's is formed. -/
theorem xor_nothing {w : Nat} (m : BitVec w) : m ^^^ 0 = m := by simp

theorem toNat_nothing {w : Nat} : (0 : BitVec w).toNat = 0 := by simp

@[simp] theorem tellWatch_reg (i : Nat) (p : Page) (o : Nat) (s : State) : ((tellWatch i).run s).reg p o = s.reg p o := (rfl)
@[simp] theorem tellWatch_fld (i : Nat) (p : Page) (f : Fld) (s : State) : ((tellWatch i).run s).fld p f = s.fld p f := (rfl)

/-- A correction of a granule is counted and logged. -/
def granCE (p : Page) (n x y : Nat) : Prog := .all [
  bump p (if n ≤ 1 then R.granary_CE_CNT else R.granary_CE2_CNT),
  setFld p R.granary_CE_LOG_LO_ADDR x,
  setFld p R.granary_CE_LOG_HI_ADDR y,
  setFld p R.granary_CE_LOG_HI_SYMBOLS n,
  setFld p R.granary_CE_LOG_HI_VALID 1,
  tellWatch 2]

theorem granDecode_few {g : Nat} {src : Option Source} (hr : s.fld (pgGran (g / 2 ^ 30)) R.granary_CFG_RS_MODE ≠ 1)
    (hn : (symbolsOf (s.granMask g)).length = 1 ∨ (symbolsOf (s.granMask g)).length = 2) (hd : g ∉ s.dev.deadGranules) :
    (granDecode g src false).run s = (granCE (pgGran (g / 2 ^ 30)) (symbolsOf (s.granMask g)).length
      (stackGranule g % 2 ^ 26) (stackGranule g / 2 ^ 26)).run
      ((setGranMask g (s.granMask g)).run ((xorBytes (g * 64) 64 0).run s)) := by
  simp -implicitDefEqProofs only [granDecode, Prog.run_all_cons, Prog.run_all_nil, reviveGranule_still hd, Prog.run_get, beq_eq_false_iff_ne.2 hr,
    granFind_few hn]
  have hx := xor_nothing (s.granMask g)
  have hz : (0 : BitVec 544).toNat % 2 ^ 512 = 0 := by rw [toNat_nothing, Nat.zero_mod]
  simp -implicitDefEqProofs only [Prog.run_all_cons, Prog.run_all_nil, granCE, Bool.false_eq_true, if_false, hx, hz]

/-- The frame of a correction's record. -/
def ceTouch (p : Page) (n : Nat) : Touch where
  regs := theRegs p [if n = 1 then R.granary_CE_CNT else R.granary_CE2_CNT, R.granary_CE_LOG_LO_ADDR, R.granary_CE_LOG_HI_ADDR]
  dev := True

theorem granCE_run {n x y : Nat} (hn : n = 1 ∨ n = 2) (hx : x < 2 ^ 26) (hy : y < 2 ^ 4) (p : Page) (s : State) :
    let t := (granCE p n x y).run s
    Counts s t p (if n = 1 then R.granary_CE_CNT else R.granary_CE2_CNT) 1 ∧
    t.fld p R.granary_CE_LOG_HI_SYMBOLS = n ∧ t.bit p R.granary_CE_LOG_HI_VALID = true ∧
    t.fld p R.granary_CE_LOG_LO_ADDR = x ∧ t.fld p R.granary_CE_LOG_HI_ADDR = y ∧
    t.dev.granFlips = s.dev.granFlips ∧ t.dev.deadGranules = s.dev.deadGranules ∧ Keeps (ceTouch p n) s t := by
  norm_num only at hx hy
  refine ⟨?_, ?_, ?_, ?_, ?_, ?_, ?_, Prog.keeps ?_ s⟩
  case refine_6 => exact looks_run (v := Device.granFlips) (fun d => by simp [granCE, tellWatch]) s
  case refine_7 => exact looks_run (v := Device.deadGranules) (fun d => by simp [granCE, tellWatch]) s
  all_goals rcases hn with rfl | rfl
  all_goals simp -implicitDefEqProofs [granCE, ceTouch, Counts, State.bit, Nat.mod_eq_of_lt hx, Nat.mod_eq_of_lt hy]

/-- What the decoder makes of a granule with one or two symbols changed, which is not written back. -/
theorem granDecode_few_run {g : Nat} {src : Option Source} (hr : s.fld (pgGran (g / 2 ^ 30)) R.granary_CFG_RS_MODE ≠ 1)
    (hn : (symbolsOf (s.granMask g)).length = 1 ∨ (symbolsOf (s.granMask g)).length = 2) (hd : g ∉ s.dev.deadGranules) :
    let p := pgGran (g / 2 ^ 30)
    let n := (symbolsOf (s.granMask g)).length
    let t := (granDecode g src false).run s
    Counts s t p (if n = 1 then R.granary_CE_CNT else R.granary_CE2_CNT) 1 ∧ t.granMask g = s.granMask g ∧
    t.fld p R.granary_CE_LOG_HI_SYMBOLS = n ∧ t.bit p R.granary_CE_LOG_HI_VALID = true ∧
    t.fld p R.granary_CE_LOG_LO_ADDR = stackGranule g % 2 ^ 26 ∧ t.fld p R.granary_CE_LOG_HI_ADDR = stackGranule g / 2 ^ 26 ∧
    t.dev.deadGranules = s.dev.deadGranules ∧ Keeps (ceTouch p n) s t := by
  intro p n
  have hlo : stackGranule g % 2 ^ 26 < 2 ^ 26 := Nat.mod_lt _ (by decide)
  have hhi : stackGranule g / 2 ^ 26 < 2 ^ 4 := by
    simp only [stackGranule]
    omega
  have hdev : ((setGranMask g (s.granMask g)).run ((xorBytes (g * 64) 64 0).run s)).dev =
    { s.dev with granFlips := putBits s.dev.granFlips g (s.granMask g) } := rfl
  have hsame : Keeps { dev := True } s ((setGranMask g (s.granMask g)).run ((xorBytes (g * 64) 64 0).run s)) :=
    ((xorBytes_zero _ _ _).mono (by constructor <;> simp)).trans (Prog.keeps (by simp [setGranMask]) _)
  have hrun := granDecode_few (src := src) hr hn hd
  rw [hrun]
  generalize (setGranMask g (s.granMask g)).run ((xorBytes (g * 64) 64 0).run s) = w at *
  obtain ⟨h1, h2, h3, h4, h5, h6, h7, h8⟩ := granCE_run hn hlo hhi p w
  generalize (granCE p n (stackGranule g % 2 ^ 26) (stackGranule g / 2 ^ 26)).run w = t at *
  refine ⟨?_, ?_, h2, h3, h4, h5, ?_, (hsame.mono (by constructor <;> simp [ceTouch])).trans h8⟩
  · rw [Counts, h1, hsame.reg_eq id]
  · rw [State.granMask, h6, hdev]
    exact (putBits_get ..).trans (if_pos rfl)
  · rw [h7, hdev]

/-! ### Uncorrectable granules -/

/-- The log of an uncorrectable granule. -/
def granUELog (p : Page) (x y code : Nat) (valid : Bool) : Prog := .all [
  bump p R.granary_UE_CNT,
  if valid then setFld p R.granary_UE_LOG_HI_OVERRUN 1
  else .all [
    setFld p R.granary_UE_LOG_LO_ADDR x, setFld p R.granary_UE_LOG_HI_ADDR y, setFld p R.granary_UE_LOG_HI_SOURCE code,
    setFld p R.granary_UE_LOG_HI_VALID 1]]

theorem granUELog_run (p : Page) (x y code : Nat) (s : State) :
    let t := (granUELog p x y code (s.bit p R.granary_UE_LOG_HI_VALID)).run s
    Counts s t p R.granary_UE_CNT 1 ∧ t.bit p R.granary_UE_LOG_HI_VALID = true ∧
    Keeps { regs := theRegs p [R.granary_UE_CNT, R.granary_UE_LOG_LO_ADDR, R.granary_UE_LOG_HI_ADDR] } s t := by
  cases hv : s.bit p R.granary_UE_LOG_HI_VALID
  · refine ⟨?_, ?_, Prog.keeps (by simp [granUELog]) s⟩
    all_goals simp -implicitDefEqProofs [granUELog, Counts, State.bit]
  · refine ⟨?_, ?_, Prog.keeps (by simp [granUELog]) s⟩
    · simp -implicitDefEqProofs [granUELog, Counts]
    · simp only [State.bit, bne_iff_ne, ne_eq] at hv
      simp -implicitDefEqProofs [granUELog, State.bit, hv]

/-- What is told of an uncorrectable granule. -/
def granUETells (p : Page) : Prog := .all [raiseLine p, tellWatch 3]

theorem granUETells_run (p : Page) (s : State) :
    let t := (granUETells p).run s
    (t.dev.deadGranules, t.dev.rereads) = (s.dev.deadGranules, s.dev.rereads) ∧
    Keeps { regs := theRegs p [R.CRIER_LINE_RAISED], dev := True } s t :=
  ⟨looks_run (v := fun d : Device => (d.deadGranules, d.rereads)) (fun d => by simp [granUETells, tellWatch]) s,
    Prog.keeps (by simp [granUETells]) s⟩

/-- The frame of an uncorrectable granule's record. -/
def granUETouch (g : Nat) : Touch where
  regs := theRegs (pgGran (g / 2 ^ 30)) [R.granary_UE_CNT, R.granary_UE_LOG_LO_ADDR, R.granary_UE_LOG_HI_ADDR, R.CRIER_LINE_RAISED]
  mem := inRange (g * 64) 64
  dev := True

theorem reviveGranule_run (g : Nat) (s : State) :
    let t := (reviveGranule g).run s
    t.dev.rereads = s.dev.rereads ∧ Keeps { mem := inRange (g * 64) 64, dev := True } s t := by
  simp only [reviveGranule, Prog.run_get, Prog.run_when]
  split
  · refine ⟨rfl, ?_⟩
    rw [Prog.run_all_cons, Prog.run_all_cons, Prog.run_all_nil]
    exact ((xorBytes_range _ _ _ _).mono (by constructor <;> simp)).trans (Prog.keeps (by simp) _)
  · exact ⟨rfl, Keeps.refl _ _⟩

/-- A granule holds its stored bits and is listed as uncorrectable. -/
def granDies (g v : Nat) : Prog := .all [xorBytes (g * 64) 64 v, modDev (fun d => { d with deadGranules := d.deadGranules ++ [g] })]

theorem granDies_run (g v : Nat) (s : State) :
    let t := (granDies g v).run s
    g ∈ t.dev.deadGranules ∧ t.dev.rereads = s.dev.rereads ∧ Keeps { mem := inRange (g * 64) 64, dev := True } s t := by
  refine ⟨?_, rfl, ?_⟩
  · exact List.mem_append_right _ (List.mem_singleton_self _)
  · rw [granDies, Prog.run_all_cons, Prog.run_all_cons, Prog.run_all_nil]
    exact ((xorBytes_range _ _ _ _).mono (by constructor <;> simp)).trans (Prog.keeps (by simp) _)

/-- The parts of an uncorrectable granule's treatment, in order. -/
theorem granUE_run (g : Nat) (src : Option Source) (s : State) : ∃ a b x y, (granUE g src).run s =
    (ueReact src none (g * 64)).run ((granUETells (pgGran (g / 2 ^ 30))).run
      ((granUELog (pgGran (g / 2 ^ 30)) x y b (((granDies g a).run ((reviveGranule g).run s)).bit (pgGran (g / 2 ^ 30)) R.granary_UE_LOG_HI_VALID)).run
        ((granDies g a).run ((reviveGranule g).run s)))) := by
  obtain ⟨-, -, hk⟩ := granDies_run g ((((reviveGranule g).run s).granMask g).toNat % 2 ^ 512) ((reviveGranule g).run s)
  refine ⟨(((reviveGranule g).run s).granMask g).toNat % 2 ^ 512, srcCode src, stackGranule g * 64 / 64 % 2 ^ 26, stackGranule g * 64 / 2 ^ 32, ?_⟩
  rw [hk.bit_eq id]
  simp -implicitDefEqProofs only [granUE, granUETells, granUELog, granDies, Prog.run_all_cons, Prog.run_all_nil, Prog.run_get]

/-- An uncorrectable granule is recorded, and the source of its access reacts. -/
theorem granUE_facts (g : Nat) (src : Option Source) (s : State) :
    ∃ v, (granUE g src).run s = (ueReact src none (g * 64)).run v ∧
    Counts s v (pgGran (g / 2 ^ 30)) R.granary_UE_CNT 1 ∧ v.bit (pgGran (g / 2 ^ 30)) R.granary_UE_LOG_HI_VALID = true ∧
    g ∈ v.dev.deadGranules ∧ v.dev.rereads = s.dev.rereads ∧ Keeps (granUETouch g) s v := by
  obtain ⟨hrr, hrk⟩ := reviveGranule_run g s
  obtain ⟨a, b, x, y, hrun⟩ := granUE_run g src s
  refine ⟨_, hrun, ?_⟩
  generalize (reviveGranule g).run s = r at *
  obtain ⟨hdm, hdr, hdk⟩ := granDies_run g a r
  generalize (granDies g a).run r = d at *
  obtain ⟨hcnt, hvalid, hlk⟩ := granUELog_run (pgGran (g / 2 ^ 30)) x y b d
  generalize (granUELog (pgGran (g / 2 ^ 30)) x y b (d.bit (pgGran (g / 2 ^ 30)) R.granary_UE_LOG_HI_VALID)).run d = l at *
  obtain ⟨hview, htk⟩ := granUETells_run (pgGran (g / 2 ^ 30)) l
  obtain ⟨hdead, hreads⟩ := Prod.mk.inj hview
  generalize (granUETells (pgGran (g / 2 ^ 30))).run l = v at *
  refine ⟨?_, ?_, ?_, ?_, ?_⟩
  · rw [Counts, htk.reg_eq (not_theRegs_offset (by decide) _), hcnt, hdk.reg_eq id, hrk.reg_eq id]
  · rw [htk.bit_eq (not_theRegs_offset (by decide) _), hvalid]
  · rw [hdead, hlk.dev id]
    exact hdm
  · rw [hreads, hlk.dev id, hdr, hrr]
  · exact (((hrk.mono (by constructor <;> simp [granUETouch])).trans (hdk.mono (by constructor <;> simp [granUETouch]))).trans
      (hlk.mono (by constructor; case regs => exact theRegs_mono (by simp)
                    all_goals simp [granUETouch]))).trans
      (htk.mono (by constructor; case regs => exact theRegs_mono (by simp)
                    all_goals simp [granUETouch]))

/-- What stands after an uncorrectable granule was met and its source has reacted. -/
def granGone (g : Nat) (src : Option Source) (s t : State) : Prop :=
  Counts s t (pgGran (g / 2 ^ 30)) R.granary_UE_CNT 1 ∧ t.bit (pgGran (g / 2 ^ 30)) R.granary_UE_LOG_HI_VALID = true ∧
  g ∈ t.dev.deadGranules ∧ t.dev.rereads = s.dev.rereads ∧
  (∀ o < 0x1000, ¬ theRegs (pgGran (g / 2 ^ 30)) [R.granary_UE_CNT, R.granary_UE_LOG_LO_ADDR, R.granary_UE_LOG_HI_ADDR, R.CRIER_LINE_RAISED]
    ((pgGran (g / 2 ^ 30)).base + o) → t.reg (pgGran (g / 2 ^ 30)) o = s.reg (pgGran (g / 2 ^ 30)) o) ∧
  (src = some .host → Keeps (granUETouch g) s t)

theorem granUE_gone (g : Nat) (hg : (pgGran (g / 2 ^ 30)).placed) (src : Option Source) (s : State) :
    granGone g src s ((granUE g src).run s) := by
  obtain ⟨v, hrun, hcnt, hvalid, hdead, hreads, hkeep⟩ := granUE_facts g src s
  have hreact := Prog.keeps (ueReact_only src none (g * 64)) v
  have hlooks : (fun d : Device => (d.deadGranules, d.rereads)) ((ueReact src none (g * 64)).run v).dev = (v.dev.deadGranules, v.dev.rereads) :=
    looks_run (v := fun d : Device => (d.deadGranules, d.rereads)) (ueReact_looks (fun _ => rfl) src none (g * 64)) v
  obtain ⟨hld, hlr⟩ := Prod.mk.inj hlooks
  have hhost : src = some .host → (ueReact src none (g * 64)).run v = v := fun e => by subst e; rfl
  rw [hrun]
  generalize (ueReact src none (g * 64)).run v = t at *
  have hreg {o : Nat} (ho : o < 0x1000) : t.reg (pgGran (g / 2 ^ 30)) o = v.reg (pgGran (g / 2 ^ 30)) o :=
    hreact.reg_eq (not_offKinds (by simp) hg ho)
  refine ⟨?_, ?_, hld ▸ hdead, hlr.trans hreads, fun o ho hn => (hreg ho).trans (hkeep.reg_eq hn), fun e => hhost e ▸ hkeep⟩
  · rw [Counts, hreg (by decide), hcnt]
  · rw [State.bit, State.fld_eq, hreg (by decide), ← State.fld_eq, ← State.bit, hvalid]

theorem reviveGranule_mask (g j : Nat) (s : State) : ((reviveGranule g).run s).granMask j = s.granMask j := by
  rw [reviveGranule, Prog.run_get, Prog.run_when]
  split <;> rfl

/-- A decoder that only detects finds a granule with up to four symbols changed uncorrectable. -/
theorem granDecode_bad {g : Nat} (hr : s.fld (pgGran (g / 2 ^ 30)) R.granary_CFG_RS_MODE = 1) (h1 : 1 ≤ (symbolsOf (s.granMask g)).length)
    (h4 : (symbolsOf (s.granMask g)).length ≤ 4) (src : Option Source) (back : Bool) :
    (granDecode g src back).run s = (granUE g src).run ((reviveGranule g).run s) := by
  have hmask := reviveGranule_mask g g s
  obtain ⟨-, hkeep⟩ := reviveGranule_run g s
  have hmode := hkeep.fld_eq (f := R.granary_CFG_RS_MODE) (p := pgGran (g / 2 ^ 30)) id
  rw [granDecode, Prog.run_all_cons, Prog.run_all_cons, Prog.run_all_nil, Prog.run_get]
  generalize (reviveGranule g).run s = r at *
  have hfind : granFind (r.fld (pgGran (g / 2 ^ 30)) R.granary_CFG_RS_MODE == 1) (r.granMask g) = .bad := by
    rw [hmode, hr, hmask]
    exact granFind_bad h1 h4
  simp -implicitDefEqProofs only [hfind]

theorem granDecode_gone {g : Nat} (hg : (pgGran (g / 2 ^ 30)).placed) (hr : s.fld (pgGran (g / 2 ^ 30)) R.granary_CFG_RS_MODE = 1)
    (h1 : 1 ≤ (symbolsOf (s.granMask g)).length) (h4 : (symbolsOf (s.granMask g)).length ≤ 4) (src : Option Source) (back : Bool) :
    granGone g src s ((granDecode g src back).run s) := by
  rw [granDecode_bad hr h1 h4]
  obtain ⟨hreads, hkeep⟩ := reviveGranule_run g s
  obtain ⟨hcnt, hvalid, hdead, hreads', hregs, hhost⟩ := granUE_gone g hg src ((reviveGranule g).run s)
  generalize (granUE g src).run ((reviveGranule g).run s) = t at *
  generalize (reviveGranule g).run s = r at *
  refine ⟨?_, hvalid, hdead, hreads'.trans hreads, fun o ho hn => (hregs o ho hn).trans (hkeep.reg_eq id), fun e => ?_⟩
  · rw [Counts, hcnt, hkeep.reg_eq id]
  · exact (hkeep.mono (by constructor <;> simp [granUETouch])).trans (hhost e)

/-! ### Writes within one granule -/

theorem holds_congr {t u : State} (hm : t.mem = u.mem) {a : Nat} {bs : List Byte} (h : u.holds a bs) : t.holds a bs := fun i hi => by
  rw [← h i hi]
  simp only [State.byte, hm]

/-- A whole granule is encoded anew, with the changed bits `m`. -/
def wholeGranule (m : BitVec 544) (a : Nat) (bs : List Byte) : Prog := .all [
  modDev (fun d => { d with writeRetries := d.writeRetries.filter (· != a / 64) }),
  .all [eff (.bytes a bs), setGranMask (a / 64) m, modDev (fun d => { d with deadGranules := d.deadGranules.filter (· != a / 64) })]]

theorem wholeGranule_run (m : BitVec 544) (a : Nat) (bs : List Byte) (s : State) :
    let t := (wholeGranule m a bs).run s
    t.granMask (a / 64) = m ∧ t.holds a bs ∧ a / 64 ∉ t.dev.deadGranules ∧ (∀ j, j ≠ a / 64 → t.granMask j = s.granMask j) ∧ Keeps { mem := inRange a bs.length, dev := True } s t := by
  have hdev : ((wholeGranule m a bs).run s).dev.granFlips = putBits s.dev.granFlips (a / 64) m := rfl
  have hdead : ((wholeGranule m a bs).run s).dev.deadGranules = s.dev.deadGranules.filter (· != a / 64) := rfl
  have hmem : ((wholeGranule m a bs).run s).mem = ((Act.bytes a bs).apply s).mem := rfl
  have hkeep : Keeps { mem := inRange a bs.length, dev := True } s ((wholeGranule m a bs).run s) :=
    Prog.keeps (by simp [wholeGranule, setGranMask, Touch.allows, inRange]; exact fun _ h h' => ⟨h, h'⟩) s
  generalize (wholeGranule m a bs).run s = t at *
  refine ⟨?_, ?_, ?_, fun j hj => ?_, hkeep⟩
  · rw [State.granMask, hdev]
    exact (putBits_get ..).trans (if_pos rfl)
  · exact holds_congr hmem (Act.apply_bytes_holds s a bs)
  · rw [hdead]
    simp
  · rw [State.granMask, hdev]
    exact (putBits_get ..).trans (if_neg hj)

/-- A part of a granule is merged into what was read. -/
def partGranule (a : Nat) (bs : List Byte) : Prog := .all [
  modDev (fun d => { d with writeRetries := d.writeRetries.filter (· != a / 64) }), eff (.bytes a bs)]

theorem partGranule_run (a : Nat) (bs : List Byte) (s : State) :
    let t := (partGranule a bs).run s
    t.holds a bs ∧ t.dev.deadGranules = s.dev.deadGranules ∧ (∀ j, t.granMask j = s.granMask j) ∧
    Keeps { mem := inRange a bs.length, dev := True } s t := by
  have hmem : ((partGranule a bs).run s).mem = ((Act.bytes a bs).apply s).mem := rfl
  refine ⟨holds_congr hmem (Act.apply_bytes_holds s a bs), rfl, fun j => rfl, ?_⟩
  exact Prog.keeps (by simp [partGranule, Touch.allows, inRange]; exact fun _ h h' => ⟨h, h'⟩) s

/-- A write within one granule while no snapshot is taken is one access. -/
theorem memStore_granule {a : Nat} {bs : List Byte} (hs : s.dev.snap = none) (hi : s.intact = false) (ha : a < granEnd) (hb : bs ≠ [])
    (hin : a % 64 + bs.length ≤ 64) (src : Source) : (memStore src a bs).run s = (storeGranule (some src) a bs).run s := by
  have hpail : a % pailSize + bs.length ≤ pailSize := by
    simp only [pailSize]
    omega
  rw [memStore, if_pos ha, cutAt_within hb hpail, Prog.run_each_cons, Prog.run_each_nil, pailStore, Prog.run_get, hs]
  show (store (some src) a bs).run s = _
  rw [store, Prog.run_get, if_neg (by rw [hi]; decide), if_pos ha, cutAt_within hb hin, Prog.run_each_cons, Prog.run_each_nil]

theorem storeGranule_whole {bs : List Byte} (h : bs.length = 64) (src : Option Source) (a : Nat) : storeGranule src a bs = wholeGranule 0 a bs := by
  rw [storeGranule, if_pos h]
  rfl

theorem storeGranule_part {a : Nat} {bs : List Byte} (h : bs.length < 64) (hm : symbolsOf (s.granMask (a / 64)) = [])
    (hd : a / 64 ∉ s.dev.deadGranules) (src : Option Source) : (storeGranule src a bs).run s = (partGranule a bs).run s := by
  have hmask : symbolsOf (((modDev (fun d => { d with writeRetries := d.writeRetries.filter (· != a / 64) })).run s).granMask (a / 64)) = [] := hm
  have hdead : a / 64 ∉ ((modDev (fun d => { d with writeRetries := d.writeRetries.filter (· != a / 64) })).run s).dev.deadGranules := hd
  rw [storeGranule, if_neg (by omega), partGranule]
  simp only [Prog.run_all_cons, Prog.run_all_nil]
  generalize (modDev (fun d => { d with writeRetries := d.writeRetries.filter (· != a / 64) })).run s = u at *
  rw [granDecode_still hmask hdead, Prog.run_get, if_neg (by simpa using hdead)]

theorem intact_granules (h : s.intact = true) : s.dev.granFlips = [] ∧ s.dev.deadGranules = [] := by
  simp only [State.intact, Bool.and_eq_true, List.isEmpty_iff] at h
  exact ⟨h.1.1.2, h.1.2⟩

/-- A write within one granule while no snapshot is taken. -/
theorem memStore_granule_run {a : Nat} {bs : List Byte} (hs : s.dev.snap = none) (ha : a < granEnd) (hb : bs ≠ []) (hin : a % 64 + bs.length ≤ 64)
    (src : Source) :
    let t := (memStore src a bs).run s
    (bs.length = 64 → t.granMask (a / 64) = 0) ∧
    (bs.length = 64 ∨ symbolsOf (s.granMask (a / 64)) = [] ∧ a / 64 ∉ s.dev.deadGranules →
      t.holds a bs ∧ a / 64 ∉ t.dev.deadGranules ∧ (∀ j, j ≠ a / 64 → t.granMask j = s.granMask j) ∧
      Keeps { mem := inRange a bs.length, dev := True } s t) := by
  have hlen : bs.length ≠ 0 := fun e => hb (List.length_eq_zero_iff.1 e)
  rcases Bool.eq_false_or_eq_true s.intact with hi | hi
  · obtain ⟨hflips, hdead⟩ := intact_granules hi
    have hdev : ((Act.bytes a bs).apply s).dev = s.dev := rfl
    rw [memStore_run hi a (.inl hs)]
    refine ⟨fun _ => ?_, fun _ => ⟨Act.apply_bytes_holds s a bs, ?_, fun j _ => rfl, (Act.apply_bytes_keeps s a bs).mono (by constructor <;> simp)⟩⟩
    · rw [State.granMask, hdev, hflips]
      rfl
    · rw [hdev, hdead]
      exact List.not_mem_nil
  · rw [memStore_granule hs hi ha hb hin]
    by_cases hw : bs.length = 64
    · rw [storeGranule_whole hw]
      obtain ⟨hm, hh, hd, hj, hk⟩ := wholeGranule_run 0 a bs s
      exact ⟨fun _ => hm, fun _ => ⟨hh, hd, hj, hk⟩⟩
    · refine ⟨fun h => absurd h hw, fun h => ?_⟩
      obtain ⟨hm, hd⟩ := h.resolve_left hw
      rw [storeGranule_part (by omega) hm hd]
      obtain ⟨hh, hdead, hj, hk⟩ := partGranule_run a bs s
      exact ⟨hh, by rw [hdead]; exact hd, fun j _ => hj j, hk⟩

/-! ### The instructions -/

theorem newSymbols_nil (g : Nat) : (newSymbols g []).run s = s := rfl

theorem exec_granaryRead {h : HamletId} (hs : s.granServes h.val = true) (g : Fin 1073741824) (src : Source) (parity : Bool) (onDie : Nat) :
    exec (.granaryRead h g src parity onDie []) s = .next ((parityRead h.val (granuleOf h g.val) parity (.read src)
      (granuleRead (granuleOf h g.val) src)).run ((bumpBy (pgGran h.val) R.granary_ODECC_CNT onDie).run s)) := by
  show execGranaryRead _ _ _ _ _ _ _ = _
  simp -implicitDefEqProofs only [execGranaryRead, Prog.next_eq, Prog.run_get, hs, Bool.not_true, Bool.false_eq_true, if_false, Prog.run_all_cons,
    Prog.run_all_nil, newSymbols_nil]

theorem granuleOf_page (h : HamletId) (g : Fin 1073741824) : granuleOf h g.val / 2 ^ 30 = h.val ∧ stackGranule (granuleOf h g.val) = g.val := by
  simp only [granuleOf, stackGranule]
  omega

theorem onDie_run (h n : Nat) (s : State) :
    let t := (bumpBy (pgGran h) R.granary_ODECC_CNT n).run s
    Counts s t (pgGran h) R.granary_ODECC_CNT n ∧ t.dev = s.dev ∧ Keeps { regs := theRegs (pgGran h) [R.granary_ODECC_CNT] } s t := by
  refine ⟨?_, rfl, Prog.keeps (by simp) s⟩
  simp -implicitDefEqProofs [Counts]

/-- The last part of a granule's read has no effect where the granule is not uncorrectable, or another than the Bucket reads it. -/
theorem granuleRead_run {g : Nat} {src : Source} (hg : g < 2 ^ 33)
    (h : src ≠ .bucket ∨ g ∉ ((granDecode g (some src) false).run s).dev.deadGranules) :
    (granuleRead g src).run s = (granDecode g (some src) false).run s := by
  rw [granuleRead, Prog.run_all_cons, Prog.run_all_cons, Prog.run_all_nil]
  rcases h with h | h
  · exact bucketHears_other h ..
  · refine bucketHears_still ((deadAt_granule (by simp only [granEnd]; omega) (by decide) (by omega)).2 ?_) ..
    rwa [Nat.mul_div_cancel g (by decide)]

theorem granuleRead_clean {g : Nat} (hg : g < 2 ^ 33) (hm : symbolsOf (s.granMask g) = []) (hd : g ∉ s.dev.deadGranules) (src : Source) :
    (granuleRead g src).run s = s := by
  have hstill := granDecode_still hm hd (some src) false
  rw [granuleRead_run hg (.inr (by rw [hstill]; exact hd)), hstill]

theorem granMask_of_dev {t : State} (h : t.dev = s.dev) (j : Nat) : t.granMask j = s.granMask j := by rw [State.granMask, h, State.granMask]

/-- A clean granule is read: the stack's own corrections are counted. -/
theorem granaryRead_clean {h : HamletId} (hs : s.granServes h.val = true) {g : Fin 1073741824}
    (hm : symbolsOf (s.granMask (granuleOf h g.val)) = []) (hd : granuleOf h g.val ∉ s.dev.deadGranules) (src : Source) (onDie : Nat) :
    exec (.granaryRead h g src false onDie []) s = .next ((bumpBy (pgGran h.val) R.granary_ODECC_CNT onDie).run s) := by
  have hg : granuleOf h g.val < 2 ^ 33 := by
    simp only [granuleOf]
    omega
  obtain ⟨-, hdev, -⟩ := onDie_run h.val onDie s
  rw [exec_granaryRead hs, parityRead, if_neg Bool.false_ne_true]
  generalize (bumpBy (pgGran h.val) R.granary_ODECC_CNT onDie).run s = u at *
  rw [granuleRead_clean hg (by rw [granMask_of_dev hdev]; exact hm) (by rw [hdev]; exact hd)]

/-- A granule with changed bits is read: the decoder meets what stands there. -/
theorem granaryRead_decodes {h : HamletId} (hs : s.granServes h.val = true) (g : Fin 1073741824) {src : Source} (onDie : Nat)
    {t : State} (ht : t = (granDecode (granuleOf h g.val) (some src) false).run ((bumpBy (pgGran h.val) R.granary_ODECC_CNT onDie).run s))
    (hsrc : src ≠ .bucket ∨ granuleOf h g.val ∉ t.dev.deadGranules) : exec (.granaryRead h g src false onDie []) s = .next t := by
  have hg : granuleOf h g.val < 2 ^ 33 := by
    simp only [granuleOf]
    omega
  subst ht
  rw [exec_granaryRead hs, parityRead, if_neg Bool.false_ne_true, granuleRead_run hg hsrc]

theorem granaryRead_parity {h : HamletId} (hs : s.granServes h.val = true) (g : Fin 1073741824) (src : Source) (onDie : Nat) :
    let a := granuleOf h g.val
    Leaves (exec (.granaryRead h g src true onDie []) s) (fun t =>
      Counts s t (pgGran h.val) R.granary_ODECC_CNT onDie ∧ t.dev.rereads = s.dev.rereads ++ [⟨h.val, a, .read src⟩] ∧ t.granMask a = s.granMask a ∧
      Keeps { regs := theRegs (pgGran h.val) [R.granary_ODECC_CNT], dev := True } s t) := by
  intro a
  obtain ⟨hcnt, hdev, hkeep⟩ := onDie_run h.val onDie s
  refine ⟨_, exec_granaryRead hs .., ?_⟩
  rw [parityRead, if_pos rfl]
  generalize (bumpBy (pgGran h.val) R.granary_ODECC_CNT onDie).run s = u at *
  refine ⟨hcnt, ?_, granMask_of_dev hdev a, (hkeep.mono (by constructor <;> simp)).trans (Prog.keeps (by simp) _)⟩
  show u.dev.rereads ++ _ = _
  rw [hdev]

theorem granaryRead_few {h : HamletId} (hs : s.granServes h.val = true) (g : Fin 1073741824) (src : Source) (onDie : Nat) :
    let p := pgGran h.val
    let a := granuleOf h g.val
    let n := (symbolsOf (s.granMask a)).length
    s.fld p R.granary_CFG_RS_MODE ≠ 1 → n = 1 ∨ n = 2 → a ∉ s.dev.deadGranules → Leaves (exec (.granaryRead h g src false onDie []) s) (fun t =>
      Counts s t p R.granary_ODECC_CNT onDie ∧
      Counts s t p (if n = 1 then R.granary_CE_CNT else R.granary_CE2_CNT) 1 ∧ t.granMask a = s.granMask a ∧
      t.fld p R.granary_CE_LOG_HI_SYMBOLS = n ∧ t.bit p R.granary_CE_LOG_HI_VALID = true ∧
      t.fld p R.granary_CE_LOG_LO_ADDR = g.val % 2 ^ 26 ∧ t.fld p R.granary_CE_LOG_HI_ADDR = g.val / 2 ^ 26 ∧
      Keeps { regs := theRegs p [R.granary_ODECC_CNT, if n = 1 then R.granary_CE_CNT else R.granary_CE2_CNT,
                R.granary_CE_LOG_LO_ADDR, R.granary_CE_LOG_HI_ADDR], dev := True } s t) := by
  intro p a n hr hn hd
  obtain ⟨hpage, hstack⟩ := granuleOf_page h g
  obtain ⟨hcnt, hdev, hkeep⟩ := onDie_run h.val onDie s
  have hdec := granaryRead_decodes hs g (src := src) onDie rfl
  generalize (bumpBy (pgGran h.val) R.granary_ODECC_CNT onDie).run s = u at *
  have hmask := granMask_of_dev hdev a
  have hfew := granDecode_few_run (s := u) (g := a) (src := some src) (by rw [hpage, hkeep.fld_eq (not_theRegs_offset (by decide) _)]; exact hr)
    (by rw [hmask]; exact hn) (by rw [hdev]; exact hd)
  generalize hlen : (symbolsOf (u.granMask a)).length = m at hfew
  have hmn : m = n := by rw [← hlen, hmask]
  subst hmn
  rw [hpage, hstack] at hfew
  obtain ⟨hce, hm, hsym, hval, hlo, hhi, hdg, hk⟩ := hfew
  refine ⟨_, hdec (.inr ?_), ?_⟩
  · rw [hdg, hdev]
    exact hd
  generalize (granDecode (granuleOf h g.val) (some src) false).run u = t at *
  refine ⟨?_, ?_, hm.trans hmask, hsym, hval, hlo, hhi, ?_⟩
  · rw [Counts, hk.reg_eq (not_theRegs_offset (by rcases hn with e | e <;> rw [e] <;> decide) _), hcnt]
  · rw [Counts, hce, hkeep.reg_eq (not_theRegs_offset (by rcases hn with e | e <;> rw [e] <;> decide) _)]
  · exact (hkeep.mono (by constructor; case regs => exact theRegs_mono (by simp)
                          all_goals simp)).trans
      (hk.mono (by constructor; case regs => exact theRegs_mono (by simp)
                   all_goals simp [ceTouch]))

theorem pgGran_placed (h : HamletId) : (pgGran h.val).placed := by
  simp

theorem granaryRead_bad {h : HamletId} (hs : s.granServes h.val = true) (g : Fin 1073741824) (src : Source) (onDie : Nat) :
    let p := pgGran h.val
    let a := granuleOf h g.val
    let n := (symbolsOf (s.granMask a)).length
    s.fld p R.granary_CFG_RS_MODE = 1 → 1 ≤ n → n ≤ 4 → src ≠ .bucket → Leaves (exec (.granaryRead h g src false onDie []) s) (fun t =>
      Counts s t p R.granary_ODECC_CNT onDie ∧ Counts s t p R.granary_UE_CNT 1 ∧ t.bit p R.granary_UE_LOG_HI_VALID = true ∧
      a ∈ t.dev.deadGranules ∧
      (src = .host → Keeps { regs := theRegs p [R.granary_ODECC_CNT, R.granary_UE_CNT, R.granary_UE_LOG_LO_ADDR, R.granary_UE_LOG_HI_ADDR,
                R.CRIER_LINE_RAISED], mem := inRange (a * 64) 64, dev := True } s t)) := by
  intro p a n hr h1 h4 hsrc
  obtain ⟨hpage, hstack⟩ := granuleOf_page h g
  obtain ⟨hcnt, hdev, hkeep⟩ := onDie_run h.val onDie s
  have hdec := granaryRead_decodes hs g (src := src) onDie rfl (.inl hsrc)
  generalize (bumpBy (pgGran h.val) R.granary_ODECC_CNT onDie).run s = u at *
  have hmask := granMask_of_dev hdev a
  have hgone := granDecode_gone (s := u) (g := a) (by rw [hpage]; exact pgGran_placed h)
    (by rw [hpage, hkeep.fld_eq (not_theRegs_offset (by decide) _)]; exact hr) (by rw [hmask]; exact h1) (by rw [hmask]; exact h4) (some src) false
  refine ⟨_, hdec, ?_⟩
  generalize (granDecode a (some src) false).run u = t at *
  rw [granGone, granUETouch, hpage] at hgone
  obtain ⟨hue, hval, hdead, -, hregs, hhost⟩ := hgone
  refine ⟨?_, ?_, hval, hdead, fun e => ?_⟩
  · rw [Counts, hregs _ (by decide) (not_theRegs_offset (by decide) _), hcnt]
  · rw [Counts, hue, hkeep.reg_eq (not_theRegs_offset (by decide) _)]
  · exact (hkeep.mono (by constructor; case regs => exact theRegs_mono (by simp)
                          all_goals simp)).trans
      ((hhost (by rw [e])).mono (by constructor; case regs => exact theRegs_mono (by simp)
                                    all_goals simp))

/-! ### Re-reads -/

/-- The hamlet's oldest re-read is no longer waited for. -/
def dropReread (h : Nat) (d : Device) : Device := { d with rereads := d.rereads.eraseP (fun x => x.hamlet == h) }

/-- What a re-read records. -/
def rereadRecord (h : HamletId) (parity : Bool) (onDie : Nat) : Prog := .all [
  modDev (dropReread h.val),
  bumpBy (pgGran h.val) R.granary_ODECC_CNT onDie,
  Prog.when (!parity) (bump (pgGran h.val) R.granary_BEAT_RETRY_CNT)]

theorem rereadRecord_run (h : HamletId) (parity : Bool) (onDie : Nat) (s : State) :
    let t := (rereadRecord h parity onDie).run s
    t.dev = dropReread h.val s.dev ∧
    Counts s t (pgGran h.val) R.granary_ODECC_CNT onDie ∧
    (parity = false → Counts s t (pgGran h.val) R.granary_BEAT_RETRY_CNT 1) ∧
    Keeps { regs := theRegs (pgGran h.val) [R.granary_ODECC_CNT, R.granary_BEAT_RETRY_CNT], dev := True } s t := by
  cases parity
  · refine ⟨rfl, ?_, fun _ => ?_, Prog.keeps (by simp [rereadRecord, Prog.only_when]) s⟩
    all_goals simp -implicitDefEqProofs [rereadRecord, Counts, modDev]
  · refine ⟨rfl, ?_, fun h => absurd h (by decide), Prog.keeps (by simp [rereadRecord, Prog.only_when]) s⟩
    simp -implicitDefEqProofs [rereadRecord, Counts, modDev]

/-- What follows a re-read for what read the granule. -/
def rereadFollows (h : HamletId) (parity : Bool) (x : Reread) : Prog :=
  match x.what with
  | .read src => if parity then .all [granUE x.granule (some src), bucketHears src (snapFail 1 (x.granule * 64)) (x.granule * 64) 64]
      else granuleRead x.granule src
  | .scrub => if parity then granUE x.granule none else granDecode x.granule none true
  | .merge src a bs =>
    if parity then .all [
      granUE x.granule (some src), bump (pgGran h.val) R.granary_RMW_UE_CNT, bucketHears src (snapFail 1 a) a bs.length]
    else granuleMerge src a bs

theorem exec_granaryRereadDone {h : HamletId} {x : Reread} (hx : s.dev.rereads.find? (fun x => x.hamlet == h.val) = some x) (parity : Bool) (onDie : Nat) :
    exec (.granaryRereadDone h ⟨parity, onDie, []⟩) s = .next ((rereadFollows h parity x).run ((rereadRecord h parity onDie).run s)) := by
  show execGranaryRereadDone _ _ _ = _
  simp -implicitDefEqProofs only [execGranaryRereadDone, Prog.next_eq, Prog.run_get, hx, Prog.run_all_cons, Prog.run_all_nil, newSymbols_nil,
    rereadRecord]
  rfl

/-- The granule of a re-read whose parity failed again is uncorrectable for what waited for it. -/
theorem rereadFollows_failed {h : HamletId} {x : Reread} (hx : x.granule / 2 ^ 30 = h.val) (s : State) :
    let t := (rereadFollows h true x).run s
    (x.what = .read .host ∨ x.what = .scrub → t.dev.rereads = s.dev.rereads ∧
      (∀ f ∈ [R.granary_ODECC_CNT], t.reg (pgGran h.val) f.off = s.reg (pgGran h.val) f.off) ∧
      Counts s t (pgGran h.val) R.granary_UE_CNT 1 ∧ x.granule ∈ t.dev.deadGranules) ∧
    (∀ src a bs, x.what = .merge src a bs → src ≠ .bucket → t.dev.rereads = s.dev.rereads ∧
      Counts s t (pgGran h.val) R.granary_UE_CNT 1 ∧ Counts s t (pgGran h.val) R.granary_RMW_UE_CNT 1 ∧ x.granule ∈ t.dev.deadGranules) := by
  have hgone (src : Option Source) := granUE_gone x.granule (by rw [hx]; exact pgGran_placed h) src s
  simp only [granGone, hx] at hgone
  have hplain (src : Option Source) : ((granUE x.granule src).run s).dev.rereads = s.dev.rereads ∧
      (∀ f ∈ [R.granary_ODECC_CNT], ((granUE x.granule src).run s).reg (pgGran h.val) f.off = s.reg (pgGran h.val) f.off) ∧
      Counts s ((granUE x.granule src).run s) (pgGran h.val) R.granary_UE_CNT 1 ∧ x.granule ∈ ((granUE x.granule src).run s).dev.deadGranules := by
    obtain ⟨hue, -, hdead, hreads, hregs, -⟩ := hgone src
    refine ⟨hreads, fun f hf => ?_, hue, hdead⟩
    rw [List.mem_singleton] at hf
    subst hf
    exact hregs _ (by decide) (not_theRegs_offset (by decide) _)
  refine ⟨fun hw => ?_, fun src a bs hw hsrc => ?_⟩
  · rcases hw with hw | hw
    · have hrun : (rereadFollows h true x).run s = (granUE x.granule (some .host)).run s := by
        simp -implicitDefEqProofs only [rereadFollows, hw, if_true, Prog.run_all_cons, Prog.run_all_nil]
        exact bucketHears_other (by decide) ..
      rw [hrun]
      exact hplain _
    · have hrun : (rereadFollows h true x).run s = (granUE x.granule none).run s := by
        simp -implicitDefEqProofs only [rereadFollows, hw, if_true]
      rw [hrun]
      exact hplain _
  · have hrun : (rereadFollows h true x).run s = (bump (pgGran h.val) R.granary_RMW_UE_CNT).run ((granUE x.granule (some src)).run s) := by
      simp -implicitDefEqProofs only [rereadFollows, hw, if_true, Prog.run_all_cons, Prog.run_all_nil]
      exact bucketHears_other hsrc ..
    obtain ⟨hue, -, hdead, hreads, hregs, -⟩ := hgone (some src)
    rw [hrun]
    generalize (granUE x.granule (some src)).run s = t at *
    refine ⟨hreads, ?_, ?_, hdead⟩
    · simpa -implicitDefEqProofs [Counts] using hue
    · have := hregs R.granary_RMW_UE_CNT.off (by decide) (not_theRegs_offset (by decide) _)
      simp -implicitDefEqProofs [Counts]
      exact congrArg (satAdd · 1) this

/-- What a re-read that passes leaves of a clean granule, and what it merges. -/
theorem rereadFollows_passed {h : HamletId} {x : Reread} (hx : x.granule / 2 ^ 30 = h.val) (s : State) :
    (x.what = .read .host ∨ x.what = .scrub → symbolsOf (s.granMask x.granule) = [] → x.granule ∉ s.dev.deadGranules →
      (rereadFollows h false x).run s = s) ∧
    (∀ src a bs, x.what = .merge src a bs → src ≠ .bucket → s.intact = true → s.dev.snap = none →
      (rereadFollows h false x).run s = (Act.bytes a bs).apply s) := by
  have hg : x.granule < 2 ^ 33 := by omega
  refine ⟨fun hw hm hd => ?_, fun src a bs hw hsrc hi hs => ?_⟩
  · rcases hw with hw | hw
    · simp -implicitDefEqProofs only [rereadFollows, hw, Bool.false_eq_true, if_false]
      exact granuleRead_clean hg hm hd _
    · simp -implicitDefEqProofs only [rereadFollows, hw, Bool.false_eq_true, if_false]
      exact granDecode_still hm hd _ _
  · simp -implicitDefEqProofs only [rereadFollows, hw, Bool.false_eq_true, if_false, granuleMerge, Prog.run_all_cons, Prog.run_all_nil]
    rw [memStore_run hi a (.inl hs)]
    exact bucketHears_other hsrc ..

/-! ### Writes and the patrol scrub -/

theorem exec_granaryWrite {h : HamletId} {a : Fin 68719476736} {bs : List Byte} (hs : s.granServes h.val = true) (hb : bs ≠ [])
    (hin : a.val % 64 + bs.length ≤ 64) (src : Source) (parity : Bool) (onDie : Nat) :
    (bs.length = 64 → exec (.granaryWrite h a bs src ⟨parity, onDie, []⟩) s = .next ((granuleMerge src (h.val * 2 ^ 36 + a.val) bs).run s)) ∧
    (bs.length < 64 → exec (.granaryWrite h a bs src ⟨parity, onDie, []⟩) s = .next ((parityRead h.val (granuleOf h (a.val / 64)) parity
      (.merge src (h.val * 2 ^ 36 + a.val) bs) (granuleMerge src (h.val * 2 ^ 36 + a.val) bs)).run ((bumpBy (pgGran h.val) R.granary_ODECC_CNT onDie).run s))) := by
  have hgo : (!s.granServes h.val || bs.isEmpty || decide (64 < a.val % 64 + bs.length)) = false := by
    rw [hs, List.isEmpty_eq_false_iff.2 hb, decide_eq_false (by omega)]
    rfl
  refine ⟨fun hl => ?_, fun hl => ?_⟩
  · show execGranaryWrite _ _ _ _ _ _ = _
    simp -implicitDefEqProofs only [execGranaryWrite, Prog.next_eq, Prog.run_get, hgo, Bool.false_eq_true, if_false, Prog.run_all_cons, Prog.run_all_nil,
      newSymbols_nil, if_pos hl]
  · show execGranaryWrite _ _ _ _ _ _ = _
    simp -implicitDefEqProofs only [execGranaryWrite, Prog.next_eq, Prog.run_get, hgo, Bool.false_eq_true, if_false, Prog.run_all_cons, Prog.run_all_nil,
      newSymbols_nil, show ¬ bs.length = 64 by omega]

/-- A merge into a granule that is not uncorrectable after it is its bytes' write. -/
theorem granuleMerge_run {src : Source} {a : Nat} {bs : List Byte} (ha : a < granEnd) (hb : bs ≠ []) (hin : a % 64 + bs.length ≤ 64)
    (h : a / 64 ∉ ((memStore src a bs).run s).dev.deadGranules) : (granuleMerge src a bs).run s = (memStore src a bs).run s := by
  rw [granuleMerge, Prog.run_all_cons, Prog.run_all_cons, Prog.run_all_nil]
  exact bucketHears_still ((deadAt_granule ha (List.length_pos_iff.2 hb) hin).2 h) ..

theorem granaryWrites (h : HamletId) (a : Fin 68719476736) (bs : List Byte) (src : Source) (parity : Bool) (onDie : Nat) (hsnap : s.dev.snap = none)
    (hs : s.granServes h.val = true) (hb : bs ≠ []) (hin : a.val % 64 + bs.length ≤ 64) :
    let g := granuleOf h (a.val / 64)
    let x := h.val * 2 ^ 36 + a.val
    (bs.length = 64 → Leaves (exec (.granaryWrite h a bs src ⟨parity, onDie, []⟩) s) (fun t =>
      t.granMask g = 0 ∧ t.holds x bs ∧ (∀ j, j ≠ g → t.granMask j = s.granMask j) ∧ Keeps { mem := inRange x 64, dev := True } s t)) ∧
    (bs.length < 64 → symbolsOf (s.granMask g) = [] → g ∉ s.dev.deadGranules →
      Leaves (exec (.granaryWrite h a bs src ⟨false, onDie, []⟩) s) (fun t =>
        t.holds x bs ∧ Counts s t (pgGran h.val) R.granary_ODECC_CNT onDie ∧ (∀ j, j ≠ g → t.granMask j = s.granMask j) ∧
        Keeps { regs := theRegs (pgGran h.val) [R.granary_ODECC_CNT], mem := inRange x bs.length, dev := True } s t)) ∧
    (bs.length < 64 → Leaves (exec (.granaryWrite h a bs src ⟨true, onDie, []⟩) s) (fun t =>
      t.dev.rereads = s.dev.rereads ++ [⟨h.val, g, .merge src x bs⟩] ∧ Counts s t (pgGran h.val) R.granary_ODECC_CNT onDie ∧
      (∀ j, t.granMask j = s.granMask j) ∧ Keeps { regs := theRegs (pgGran h.val) [R.granary_ODECC_CNT], dev := True } s t)) := by
  intro g x
  have hx : x < granEnd := by
    simp only [x, granEnd]
    omega
  have hxg : x / 64 = g := by
    simp only [x, g, granuleOf]
    omega
  have hxin : x % 64 + bs.length ≤ 64 := by
    simp only [x]
    omega
  obtain ⟨hcnt, hdev, hkeep⟩ := onDie_run h.val onDie s
  refine ⟨fun hl => ?_, fun hl hm hd => ?_, fun hl => ?_⟩
  · obtain ⟨hexec, -⟩ := exec_granaryWrite hs hb hin src parity onDie
    obtain ⟨hzero, hrest⟩ := memStore_granule_run hsnap hx hb hxin src
    obtain ⟨hholds, hdead, hmask, hk⟩ := hrest (.inl hl)
    refine ⟨_, (hexec hl).trans (congrArg _ (granuleMerge_run hx hb hxin hdead)), ?_⟩
    rw [hxg] at hmask hzero
    exact ⟨hzero hl, hholds, hmask, hl ▸ hk⟩
  · obtain ⟨-, hexec⟩ := exec_granaryWrite hs hb hin src false onDie
    generalize (bumpBy (pgGran h.val) R.granary_ODECC_CNT onDie).run s = u at *
    obtain ⟨-, hrest⟩ := memStore_granule_run (s := u) (by rw [hdev]; exact hsnap) hx hb hxin src
    obtain ⟨hholds, hdead, hmask, hk⟩ := hrest (.inr ⟨by rw [hxg, granMask_of_dev hdev]; exact hm, by rw [hxg, hdev]; exact hd⟩)
    refine ⟨_, (hexec hl).trans (congrArg _ (granuleMerge_run hx hb hxin hdead)), hholds, ?_, fun j hj => ?_, ?_⟩
    · rw [Counts, hk.reg_eq id, hcnt]
    · rw [hmask j (by rw [hxg]; exact hj), granMask_of_dev hdev]
    · exact (hkeep.mono (by constructor <;> simp)).trans (hk.mono (by constructor <;> simp [x]))
  · obtain ⟨-, hexec⟩ := exec_granaryWrite hs hb hin src true onDie
    refine ⟨_, hexec hl, ?_⟩
    rw [parityRead, if_pos rfl]
    generalize (bumpBy (pgGran h.val) R.granary_ODECC_CNT onDie).run s = u at *
    refine ⟨?_, hcnt, fun j => granMask_of_dev hdev j, (hkeep.mono (by constructor <;> simp)).trans (Prog.keeps (by simp) _)⟩
    show u.dev.rereads ++ _ = _
    rw [hdev]

/-- What the patrol scrub does beside its granule: its place goes on. -/
def scrubEnds (h : HamletId) (n : Nat) : Prog := .all [
  modDev (fun d => { d with scrubAt := Sparse.set d.scrubAt h.val ((n + 1) % 2 ^ 30) }),
  Prog.when (decide (2 ^ 30 ≤ n + 1)) (bump (pgGran h.val) R.granary_SCRUB_PASS_CNT)]

theorem scrubEnds_run (h : HamletId) (n : Nat) (s : State) :
    let t := (scrubEnds h n).run s
    Sparse.get? t.dev.scrubAt h.val = some ((n + 1) % 2 ^ 30) ∧ t.dev.rereads = s.dev.rereads ∧
    Counts s t (pgGran h.val) R.granary_SCRUB_PASS_CNT (if 2 ^ 30 ≤ n + 1 then 1 else 0) ∧
    Keeps { regs := theRegs (pgGran h.val) [R.granary_SCRUB_PASS_CNT], dev := True } s t := by
  simp only [scrubEnds, Prog.run_all_cons, Prog.run_all_nil, Prog.run_when, decide_eq_true_eq]
  have hkeep : Keeps { dev := True } s ((modDev (fun d => { d with scrubAt := Sparse.set d.scrubAt h.val ((n + 1) % 2 ^ 30) })).run s) :=
    Prog.keeps (by simp) s
  have hplace : Sparse.get? ((modDev (fun d => { d with scrubAt := Sparse.set d.scrubAt h.val ((n + 1) % 2 ^ 30) })).run s).dev.scrubAt h.val =
      some ((n + 1) % 2 ^ 30) := (Sparse.get?_set ..).trans (if_pos rfl)
  have hreads : ((modDev (fun d => { d with scrubAt := Sparse.set d.scrubAt h.val ((n + 1) % 2 ^ 30) })).run s).dev.rereads = s.dev.rereads := rfl
  generalize (modDev (fun d => { d with scrubAt := Sparse.set d.scrubAt h.val ((n + 1) % 2 ^ 30) })).run s = u at *
  split
  · refine ⟨hplace, hreads, ?_, (hkeep.mono (by constructor <;> simp)).trans (Prog.keeps (by simp) u)⟩
    have := hkeep.reg_eq (p := pgGran h.val) (o := R.granary_SCRUB_PASS_CNT.off) id
    simp -implicitDefEqProofs [Counts]
    exact congrArg (satAdd · 1) this
  · exact ⟨hplace, hreads, by rw [Counts, satAdd_zero, hkeep.reg_eq id], hkeep.mono (by constructor <;> simp)⟩

theorem granaryScrubs (h : HamletId) (onDie : Nat) (hs : s.granServes h.val = true) (hen : s.bit (pgGran h.val) R.granary_CFG_SCRUB_EN = true) :
    let n := (Sparse.get? s.dev.scrubAt h.val).getD 0
    (symbolsOf (s.granMask (granuleOf h n)) = [] → granuleOf h n ∉ s.dev.deadGranules → Leaves (exec (.granaryScrub h ⟨false, onDie, []⟩) s) (fun t =>
      Sparse.get? t.dev.scrubAt h.val = some ((n + 1) % 2 ^ 30) ∧ Counts s t (pgGran h.val) R.granary_ODECC_CNT onDie ∧
      Counts s t (pgGran h.val) R.granary_SCRUB_PASS_CNT (if 2 ^ 30 ≤ n + 1 then 1 else 0) ∧
      Keeps { regs := theRegs (pgGran h.val) [R.granary_ODECC_CNT, R.granary_SCRUB_PASS_CNT], dev := True } s t)) ∧
    Leaves (exec (.granaryScrub h ⟨true, onDie, []⟩) s) (fun t =>
      t.dev.rereads = s.dev.rereads ++ [⟨h.val, granuleOf h n, .scrub⟩] ∧ Sparse.get? t.dev.scrubAt h.val = some ((n + 1) % 2 ^ 30) ∧
      Counts s t (pgGran h.val) R.granary_SCRUB_PASS_CNT (if 2 ^ 30 ≤ n + 1 then 1 else 0) ∧
      Keeps { regs := theRegs (pgGran h.val) [R.granary_ODECC_CNT, R.granary_SCRUB_PASS_CNT], dev := True } s t) := by
  intro n
  have hexec (parity : Bool) : exec (.granaryScrub h ⟨parity, onDie, []⟩) s = .next ((scrubEnds h n).run ((parityRead h.val (granuleOf h n) parity .scrub
      (granDecode (granuleOf h n) none true)).run ((bumpBy (pgGran h.val) R.granary_ODECC_CNT onDie).run s))) := by
    show execGranaryScrub _ _ _ = _
    simp -implicitDefEqProofs only [execGranaryScrub, Prog.next_eq, Prog.run_get, hs, hen, Bool.not_true, Bool.or_false, Bool.false_eq_true, if_false,
      Prog.run_all_cons, Prog.run_all_nil, newSymbols_nil, scrubEnds]
    rfl
  obtain ⟨hcnt, hdev, hkeep⟩ := onDie_run h.val onDie s
  refine ⟨fun hm hd => ⟨_, hexec false, ?_⟩, ⟨_, hexec true, ?_⟩⟩
  · rw [parityRead, if_neg Bool.false_ne_true]
    generalize (bumpBy (pgGran h.val) R.granary_ODECC_CNT onDie).run s = u at *
    rw [granDecode_still (by rw [granMask_of_dev hdev]; exact hm) (by rw [hdev]; exact hd)]
    obtain ⟨hplace, -, hpass, hk⟩ := scrubEnds_run h n u
    refine ⟨hplace, ?_, ?_, (hkeep.mono (by constructor; case regs => exact theRegs_mono (by simp)
                                            all_goals simp)).trans
      (hk.mono (by constructor; case regs => exact theRegs_mono (by simp)
                   all_goals simp))⟩
    · rw [Counts, hk.reg_eq (not_theRegs_offset (by decide) _), hcnt]
    · rw [Counts, hpass, hkeep.reg_eq (not_theRegs_offset (by decide) _)]
  · rw [parityRead, if_pos rfl]
    generalize (bumpBy (pgGran h.val) R.granary_ODECC_CNT onDie).run s = u at *
    have hwait : Keeps { dev := True } u ((modDev (fun d => { d with rereads := d.rereads ++ [⟨h.val, granuleOf h n, .scrub⟩] })).run u) :=
      Prog.keeps (by simp) u
    have hlist : ((modDev (fun d => { d with rereads := d.rereads ++ [⟨h.val, granuleOf h n, .scrub⟩] })).run u).dev.rereads =
      u.dev.rereads ++ [⟨h.val, granuleOf h n, .scrub⟩] := rfl
    generalize (modDev (fun d => { d with rereads := d.rereads ++ [⟨h.val, granuleOf h n, .scrub⟩] })).run u = w at *
    obtain ⟨hplace, hreads, hpass, hk⟩ := scrubEnds_run h n w
    refine ⟨by rw [hreads, hlist, hdev], hplace, ?_, ((hkeep.mono (by constructor; case regs => exact theRegs_mono (by simp)
                                                                      all_goals simp)).trans (hwait.mono (by constructor <;> simp))).trans
      (hk.mono (by constructor; case regs => exact theRegs_mono (by simp)
                   all_goals simp))⟩
    rw [Counts, hpass, hwait.reg_eq id, hkeep.reg_eq (not_theRegs_offset (by decide) _)]

/-- Settles O34: every access meets the decoder once, whose outcome the changed symbols fix; a re-read and a write do the same after it. -/
theorem granaryGranulesAreProtected : Obligations.GranaryGranulesAreProtected := by
  refine ⟨⟨fun s h g src onDie hs => ⟨granaryRead_parity hs _ _ _, fun hn hd => ?_, granaryRead_few hs _ _ _, granaryRead_bad hs _ _ _⟩,
    fun s h b hx => ?_, fun s h onDie x hx hpage => ⟨fun hw => ⟨⟨_, exec_granaryRereadDone hx .., ?_⟩, fun hm hd => ⟨_, exec_granaryRereadDone hx .., ?_⟩⟩,
      fun src a bs hw hsrc => ⟨⟨_, exec_granaryRereadDone hx .., ?_⟩, fun hi hsnap => ⟨_, exec_granaryRereadDone hx .., ?_⟩⟩⟩⟩,
    fun s h a bs src parity onDie hsnap hs hb hin => granaryWrites h a bs src parity onDie hsnap hs hb hin, fun s h g hs hnew => ?_,
    fun s h onDie hs hen => granaryScrubs h onDie hs hen⟩
  · obtain ⟨hcnt, hdev, hkeep⟩ := onDie_run h.val onDie s
    exact ⟨_, granaryRead_clean hs (List.length_eq_zero_iff.1 hn) hd .., hcnt, granMask_of_dev hdev _, hkeep.mono (by constructor <;> simp)⟩
  · show execGranaryRereadDone _ _ _ = _
    simp -implicitDefEqProofs only [execGranaryRereadDone, Prog.next_eq, Prog.run_get, hx, Prog.run_done]
  · obtain ⟨hdev, hcnt, -, hkeep⟩ := rereadRecord_run h true onDie s
    generalize (rereadRecord h true onDie).run s = u at *
    obtain ⟨hreads, hregs, hue, hdead⟩ := (rereadFollows_failed hpage u).1 hw
    refine ⟨by rw [hreads, hdev]; rfl, ?_, ?_, hdead⟩
    · rw [Counts, hregs _ (List.mem_singleton_self _), hcnt]
    · rw [Counts, hue, hkeep.reg_eq (not_theRegs_offset (by decide) _)]
  · obtain ⟨hdev, hcnt, hretry, hkeep⟩ := rereadRecord_run h false onDie s
    generalize (rereadRecord h false onDie).run s = u at *
    rw [(rereadFollows_passed hpage u).1 hw (by rw [State.granMask, hdev]; exact hm) (by rw [hdev]; exact hd)]
    exact ⟨hdev, hcnt, hretry rfl, hkeep⟩
  · obtain ⟨hdev, -, -, hkeep⟩ := rereadRecord_run h true onDie s
    generalize (rereadRecord h true onDie).run s = u at *
    obtain ⟨hreads, hue, hrmw, hdead⟩ := (rereadFollows_failed hpage u).2 src a bs hw hsrc
    refine ⟨by rw [hreads, hdev]; rfl, ?_, ?_, hdead⟩
    · rw [Counts, hue, hkeep.reg_eq (not_theRegs_offset (by decide) _)]
    · rw [Counts, hrmw, hkeep.reg_eq (not_theRegs_offset (by decide) _)]
  · obtain ⟨hdev, hcnt, hretry, hkeep⟩ := rereadRecord_run h false onDie s
    generalize (rereadRecord h false onDie).run s = u at *
    have hi' : u.intact = true := by
      rw [State.intact, hdev]
      exact hi
    rw [(rereadFollows_passed hpage u).2 src a bs hw hsrc hi' (by rw [hdev]; exact hsnap)]
    have hbytes := Act.apply_bytes_keeps u a bs
    refine ⟨hdev, Act.apply_bytes_holds u a bs, hcnt, hretry rfl, (hkeep.mono (by constructor <;> simp)).trans (hbytes.mono (by constructor <;> simp))⟩
  · refine ⟨_, ?_, ?_, Prog.keeps (p := modDev (fun d => { d with writeRetries := d.writeRetries ++ [granuleOf h g.val] })) (by simp) s⟩
    · show execWriteParityReport _ _ _ = _
      simp -implicitDefEqProofs only [execWriteParityReport, Prog.next_eq, Prog.run_get, hs, hnew, Bool.not_true, Bool.false_eq_true, if_false]
    · rfl

end Sys2Proof.Machine
end

open Host
section
/-! O41 fails: a segment is accounted for at the place its entry names (R333, R361), which need not be where its message is written. -/
namespace Sys2Proof.Machine

/-- A message that writes one byte of granary 0. -/
def straySegment : RxMsg where
  share := 0
  croft := 0
  head := ⟨.write, false, 0, 1, 0, 0, 0, 0, 0, 0, 0, 0, 1, 1, 0, false⟩
  bytes := [7]

/-- Granary 0 serves traffic of other dies, and the message waits on link 0. Its segment was opened for a byte of croft 0's slice. -/
def strayEntryState : State := { State.reset with
  regs := [((pgGran 0).base + R.STATE_STATE.off, BitVec.ofNat 32 stEnabled), ((pgGran 0).base + R.granary_SHARE_KIND.off, 2)]
  links := [(0, { inbox := [straySegment] })]
  dev := { entriesIn := [{ key := headKey straySegment.head 0, size := 1, dst := sliceAddr 0 0 }] } }

theorem strayEntryState_message : strayEntryState.message 0 0 .write = some straySegment := by decide

set_option maxRecDepth 10000 in
theorem strayEntryState_goes :
    strayEntryState.keptFrom 0 1 = false ∧ strayEntryState.placeWaits (headKey straySegment.head 0) (straySegment.via 0) 0 false = false := by decide

/-- Where the segment is counted: a register of croft 0's sluice. -/
def strayInSeg : Nat := (pgSluice 0).base + R.sluice_IN_SEG_CNT.off

theorem strayInSeg_outside : ¬ theRegs pgPort [R.port_CTRL_DROP_CNT] strayInSeg := by
  unfold theRegs strayInSeg
  decide

set_option maxRecDepth 10000 in
theorem strayEntryState_counts : Sparse.get? (leftBy (.write 0 0) strayEntryState).regs strayInSeg = some 1 := by decide

/-- Refutes O41: a WRITE for a granary counts its segment in a slice's sluice, where an open segment of its key was opened for that slice. -/
theorem not_messagesAreServed : ¬ Obligations.MessagesAreServed := by
  unfold Obligations.MessagesAreServed
  rintro ⟨hmessages, -⟩
  obtain ⟨hkept, hwaits⟩ := strayEntryState_goes
  obtain ⟨hwrite, -⟩ := hmessages strayEntryState 0 0 straySegment
  obtain ⟨hgranary, -⟩ := hwrite strayEntryState_message rfl (by decide) hkept hwaits
  obtain ⟨-, -, hkeeps⟩ := (hgranary 0 rfl rfl (by decide) (by decide) rfl).leftBy
  have hcount := strayEntryState_counts
  rw [hkeeps.regs strayInSeg strayInSeg_outside] at hcount
  exact absurd hcount (by decide)

end Sys2Proof.Machine
end

open Host
section
/-! O25: the mill's operations (R184 to R195). -/
namespace Sys2Proof.Machine

variable {s : State}

theorem carryMill_run {c : Nat} {r : MillRun} (hr : (s.croft c).mill = some r) (hcar : r.carried = false) (hcmp : r.cmp = none)
    (hreset : s.underReset (pgMill c) = false) (hi : s.intact = true) (hclk : s.clockRuns c = true) :
    (carryMill c r.op).run s = (millCompute c r (s.millWide c r)).run s := by
  rw [carryMill, Prog.run_get, hr]
  simp -implicitDefEqProofs only [hcar, hcmp, hreset, hclk, ne_eq, not_true_eq_false, Bool.false_eq_true, Option.isSome_none, Bool.not_true, or_self, if_false,
    Prog.run_all_cons, Prog.run_all_nil, engineReads_run hi]
  rfl

theorem modCroft_run_self (c : Nat) (f : Croft → Croft) (s : State) : ((modCroft c f).run s).croft c = f (s.croft c) :=
  (Act.apply_croft_croft_at ..).trans (if_pos rfl)

/-- The mill's run once its operation has been carried out. -/
def MillRun.carrying (r : MillRun) (x : MillResult) (wide : Bool) : MillRun := { r with
  carried := true, outs := x.outs, raw := x.raw, tally := if wide then [] else x.tally
  nanSeen := r.nanSeen || x.nan, amax := amaxOf (Val.zero false) ((x.outs.filter (fun o => o.slot == 3)).flatMap (·.vals)) }

/-- The mill goes on with a run. -/
def Croft.onMill (m : Option MillRun) (k : Croft) : Croft := { k with mill := m }

theorem millCompute_run (c : Nat) (r : MillRun) (wide : Bool) (s : State) :
    let t := (millCompute c r wide).run s
    (t.croft c).mill = some (r.carrying (s.millResult c r wide) wide) ∧ (t.croft c).reeve = s.reeve c ∧
    Keeps { regs := someRegs [(pgMill c, [R.mill_TOPK_NAN_CNT]), (pgCroft c, [R.croft_NAN_IN_CNT])], crofts := (· = c) } s t := by
  have hrun : (millCompute c r wide).run s = (modCroft c (Croft.onMill (some (r.carrying (s.millResult c r wide) wide)))).run
      ((Prog.all [countNanIn c r.nanSeen (s.millResult c r wide).nan, bumpBy (pgMill c) R.mill_TOPK_NAN_CNT (s.millResult c r wide).topkNan]).run s) := by
    simp -implicitDefEqProofs only [millCompute, Prog.run_get, Prog.run_all_cons, Prog.run_all_nil]
    rfl
  have hcount : Keeps { regs := someRegs [(pgMill c, [R.mill_TOPK_NAN_CNT]), (pgCroft c, [R.croft_NAN_IN_CNT])] } s
      ((Prog.all [countNanIn c r.nanSeen (s.millResult c r wide).nan, bumpBy (pgMill c) R.mill_TOPK_NAN_CNT (s.millResult c r wide).topkNan]).run s) :=
    Prog.keeps (by simp [countNanIn, Prog.only_when]) s
  rw [hrun]
  generalize (Prog.all [countNanIn c r.nanSeen (s.millResult c r wide).nan, bumpBy (pgMill c) R.mill_TOPK_NAN_CNT (s.millResult c r wide).topkNan]).run s
    = u at *
  have hcroft := modCroft_run_self c (Croft.onMill (some (r.carrying (s.millResult c r wide) wide))) u
  refine ⟨congrArg Croft.mill hcroft, ?_, (hcount.mono (by constructor <;> simp)).trans (Prog.keeps (by simp) u)⟩
  exact (congrArg Croft.reeve hcroft).trans (congrArg Croft.reeve (hcount.crofts c id) : (u.croft c).reeve = (s.croft c).reeve)

/-! ### What an operation gives outside heritage mode -/

theorem outOf_vals {slots : List MillSlot} {i : Nat} (h : i < slots.length) (slot : Nat) (vals : List Val) :
    (outOf slots i slot vals).vals = vals := by
  rw [outOf, List.getElem?_eq_getElem h]

theorem sgd_elem (p : OptParams) (g w m v : Val) : (optElem false 0x28 p g w m v).2.2.2 =
    rne (Val.sub w (rne (Val.mul p.lr (rne (Val.add (rne (Val.mul g p.gscale)) (rne (Val.mul p.lam w))))))) := rfl

theorem map_range_getD {α β γ : Type} (f : α → β → γ) (a : α) (b : β) : ∀ (xs : List α) (ys : List β), xs.length = ys.length →
    (List.range xs.length).map (fun i => f (xs.getD i a) (ys.getD i b)) = List.zipWith f xs ys
  | xs, ys, h => by
    refine List.ext_getElem (by simp [h]) fun i h1 h2 => ?_
    simp only [List.length_map, List.length_range] at h1
    simp [List.getD_eq_getElem?_getD, List.getElem?_eq_getElem h1, List.getElem?_eq_getElem (h ▸ h1)]

theorem rowProd_false : rowProd false = prodPair := rfl

section
variable {c : Nat} {r : MillRun} (hher : s.bit pgNum R.numstep_CFG_HERITAGE = false)
include hher

theorem millResult_unary (h : isUnary r.op = true) :
    (s.millResult c r (s.millWide c r)).outs.map (·.vals) = [(s.millIn c r 0).flatten.map (millUnary false r.op)] := by
  simp [State.millResult, State.millIn, State.millSlots, h, hher, outOf]

theorem millResult_binary (hu : isUnary r.op = false) (hc : r.op ≠ 0x22) (h : isBinary r.op = true) :
    (s.millResult c r (s.millWide c r)).outs.map (·.vals) =
      [List.zipWith (millBinary false r.op (s.par c r.args 0) (s.par c r.args 4)) (s.millIn c r 0).flatten (s.millIn c r 1).flatten] := by
  simp [State.millResult, State.millIn, State.millSlots, h, hu, hc, hher, outOf]

theorem millResult_fma (h : r.op = 3) :
    (s.millResult c r (s.millWide c r)).outs.map (·.vals) = [List.zipWith (fun ab d => rne (Val.mulAdd ab.1 ab.2 d))
      (List.zip (s.millIn c r 0).flatten (s.millIn c r 1).flatten) (s.millIn c r 2).flatten] := by
  simp [State.millResult, State.millIn, State.millSlots, h, isUnary, isBinary, hher, outOf, step32]

theorem millResult_rows :
    (r.op = 0x10 → (s.millResult c r (s.millWide c r)).outs.map (·.vals) = [(s.millIn c r 0).map (fun v => rowSum (v.map asPair))]) ∧
    (r.op = 0x11 → (s.millResult c r (s.millWide c r)).outs.map (·.vals) = [(s.millIn c r 0).map maxRow]) ∧
    (r.op = 0x12 → (s.millResult c r (s.millWide c r)).outs.map (·.vals) =
      [List.zipWith (fun a b => rowSum (List.zipWith prodPair a b)) (s.millIn c r 0) (s.millIn c r 1)]) := by
  refine ⟨fun h => ?_, fun h => ?_, fun h => ?_⟩
  · simp [State.millResult, State.millIn, State.millSlots, h, isUnary, isBinary, hher, outOf, sumRow]
  · simp [State.millResult, State.millIn, State.millSlots, h, isUnary, isBinary, hher, outOf]
  · simp [State.millResult, State.millIn, State.millSlots, h, isUnary, isBinary, hher, outOf, sumRow, rowProd_false]

theorem millResult_topk (h : r.op = 0x21) :
    (s.millResult c r (s.millWide c r)).outs.map (·.vals) =
      [(s.millIn c r 0).flatMap (fun v => (topkRow r.args.magnitude r.args.topk v).map (·.1))] := by
  simp [State.millResult, State.millIn, State.millSlots, h, isUnary, isBinary, isNorm, hher, outOf, List.flatMap_map]

theorem millResult_convert (h : r.op = 0x22) : (s.millResult c r (s.millWide c r)).outs.map (·.vals) = [(s.millIn c r 0).flatten] := by
  simp [State.millResult, State.millIn, State.millSlots, h, isUnary, hher, outOf]

theorem millResult_sgd (h : r.op = 0x28) (hcopy : r.args.copy = false) (hlen : (s.millIn c r 0).flatten.length = (s.millIn c r 1).flatten.length) :
    (s.millResult c r (s.millWide c r)).outs.map (·.vals) = [List.zipWith (fun g w => rne (Val.sub w (rne (Val.mul (s.par c r.args 0)
      (rne (Val.add (rne (Val.mul g (s.par c r.args 0x24))) (rne (Val.mul (s.par c r.args 0x18) w))))))))
      (s.millIn c r 0).flatten (s.millIn c r 1).flatten] := by
  rw [← map_range_getD _ (Val.zero false) (Val.zero false) _ _ hlen]
  simp [State.millResult, State.millIn, State.millSlots, h, isUnary, isBinary, isNorm, isOpt, hcopy, hher, outOf, sgd_elem, State.optParams]

end

theorem zipWith_congr_right {α β γ : Type} {f g : α → β → γ} : ∀ {xs : List α} {ys : List β}, (∀ a, ∀ b ∈ ys, f a b = g a b) →
    List.zipWith f xs ys = List.zipWith g xs ys
  | [], _, _ => by simp
  | _ :: _, [], _ => by simp
  | x :: xs, y :: ys, h => by
    rw [List.zipWith_cons_cons, List.zipWith_cons_cons, h x y (List.mem_cons_self ..), zipWith_congr_right fun a b hb => h a b (List.mem_cons_of_mem _ hb)]

/-- Settles O25: every mill row carries out the operation of its order, whose slots stand where the operation's form puts them. -/
theorem millOperationsAreCarriedOut : Obligations.MillOperationsAreCarriedOut := by
  intro s c i op r hrow hr hop hcar hcmp hreset hi hclk
  subst hop
  have hexec : exec i s = .next ((carryMill c.val r.op).run s) := exec_millRow c .carry s (i, r.op) hrow
  rw [carryMill_run hr hcar hcmp hreset hi hclk] at hexec
  obtain ⟨hmill, hreeve, hkeep⟩ := millCompute_run c.val r (s.millWide c.val r) s
  refine ⟨_, hexec, ⟨_, hmill, rfl, rfl, rfl, rfl, rfl, fun hher => ?_⟩, hreeve, hkeep⟩
  have hbinary (hb : isBinary r.op = true) (hu : isUnary r.op = false) (hc : r.op ≠ 0x22) := millResult_binary (c := c.val) hher hu hc hb
  refine ⟨fun h => ?_, fun h => ?_, fun h => millResult_fma hher h, fun h => ?_, fun h => ?_, fun h => ?_, fun h hy => ?_,
    (millResult_rows hher).1, (millResult_rows hher).2.1, (millResult_rows hher).2.2, fun h => millResult_topk hher h,
    fun h => millResult_convert hher h, fun h hcopy hlen => millResult_sgd hher h hcopy hlen⟩
  · exact (hbinary (by rw [h]; rfl) (by rw [h]; rfl) (by rw [h]; decide)).trans (by rw [h]; rfl)
  · exact (hbinary (by rw [h]; rfl) (by rw [h]; rfl) (by rw [h]; decide)).trans (by rw [h]; rfl)
  · exact (hbinary (by rw [h]; rfl) (by rw [h]; rfl) (by rw [h]; decide)).trans (by rw [h]; rfl)
  · exact (millResult_unary hher (by rw [h]; rfl)).trans (by rw [h]; rfl)
  · exact (millResult_unary hher (by rw [h]; rfl)).trans (by rw [h]; rfl)
  · refine (hbinary (by rw [h]; rfl) (by rw [h]; rfl) (by rw [h]; decide)).trans (congrArg (fun l => [l]) ?_)
    exact zipWith_congr_right fun a b hb => by
      rw [h]
      exact if_neg (by simp [hy b hb])

end Sys2Proof.Machine
end

open Host
section
/-! O42: Bell messages and their exchange (R398 to R400). -/
namespace Sys2Proof.Machine

variable {s : State}

/-! ### Messages as they are sent -/

/-- The bits of a Bell message, built and read back (R399). -/
theorem bellMsg_ofNat {far op x t p : Nat} (hf : far < 2 ^ 14) (ho : op < 4) (hp : p = 0 ∨ p = 2 ^ 60) :
    bellMsg (BitVec.ofNat 61 (far + op * 2 ^ 14 + x % 16 * 2 ^ 16 + t % 2 ^ 40 * 2 ^ 20 + p)) =
      ⟨far, op, x % 16, t % 2 ^ 40, decide (p = 2 ^ 60)⟩ := by
  have hx : x % 16 < 16 := Nat.mod_lt _ (by decide)
  have ht : t % 2 ^ 40 < 2 ^ 40 := Nat.mod_lt _ (by decide)
  generalize x % 16 = y at *
  generalize t % 2 ^ 40 = u at *
  norm_num only at hf ht hp ⊢
  rw [bellMsg, BitVec.toNat_ofNat]
  simp only [bitsOf, BellMsg.mk.injEq]
  norm_num only
  rcases hp with rfl | rfl
  all_goals refine ⟨?_, ?_, ?_, ?_, decide_eq_decide.2 ?_⟩
  all_goals omega

/-- Whether the Bell is locked to a source, as its messages say (R399). -/
def State.bellPlock (s : State) : Bool := s.bellState == bRoot || s.bellState == bLocked

/-- A Bell message waits on its link. -/
def SendsBell (s t : State) (l op seq x : Nat) : Prop :=
  ∃ b, t.link l = { s.link l with ctrl := (s.link l).ctrl ++ [(2, .bell b)] } ∧
    bellMsg b = ⟨s.fld (pgLink l) R.link_FAR_ID_FAR_DEV, op, seq % 16, x % 2 ^ 40, s.bellPlock⟩

theorem sendBell_run {op : Nat} (ho : op < 4) (l seq x : Nat) (s : State) :
    let t := (sendBell l op seq x).run s
    SendsBell s t l op seq x ∧ t.dev = s.dev ∧ Keeps { links := (· = l) } s t := by
  refine ⟨⟨_, (Act.apply_link_link_at ..).trans (if_pos rfl), ?_⟩, rfl, Prog.keeps (by simp [sendBell]) s⟩
  have hfar : s.fld (pgLink l) R.link_FAR_ID_FAR_DEV < 2 ^ 14 := State.fld_lt (le_refl _) s _
  have hlock : s.bellPlock = decide ((if s.bellState = bRoot ∨ s.bellState = bLocked then 2 ^ 60 else 0) = 2 ^ 60) := by
    simp only [State.bellPlock]
    split
    next h => rcases h with h | h <;> simp [h]
    next h =>
      obtain ⟨h1, h2⟩ := not_or.1 h
      simp [h1, h2]
  rw [hlock]
  refine bellMsg_ofNat hfar ho ?_
  split
  · exact .inr rfl
  · exact .inl rfl

/-! ### Messages as they are taken -/

/-- The `k`-th message leaves the list. -/
def unlistBell (k : Nat) : Prog := modDev (fun d => { d with bells := d.bells.eraseIdx k })

theorem unlistBell_run (k : Nat) (s : State) :
    let t := (unlistBell k).run s
    t.dev = { s.dev with bells := s.dev.bells.eraseIdx k } ∧ Keeps { dev := True } s t := ⟨rfl, Prog.keeps (by simp [unlistBell]) s⟩

theorem takeBell_none {k : Nat} (h : s.dev.bells[k]? = none) (op : Nat) (f : Nat → BellMsg → Prog) : (takeBell k op f).run s = s := by
  simp -implicitDefEqProofs only [takeBell, Prog.run_get, h, Prog.run_done]

section
variable {k l : Nat} {b : BitVec 61} (h : s.dev.bells[k]? = some (l, b))
include h

theorem takeBell_other {op : Nat} (ho : (bellMsg b).op ≠ op) (f : Nat → BellMsg → Prog) : (takeBell k op f).run s = s := by
  simp -implicitDefEqProofs only [takeBell, Prog.run_get, h, if_pos ho, Prog.run_done]

theorem takeBell_far {op : Nat} (ho : (bellMsg b).op = op) (hd : (bellMsg b).dev ≠ s.self) (f : Nat → BellMsg → Prog) :
    (takeBell k op f).run s = (bump pgBell R.bell_MSG_DROP_CNT).run ((unlistBell k).run s) := by
  simp -implicitDefEqProofs only [takeBell, Prog.run_get, h, ho, ne_eq, not_true_eq_false, if_false, Prog.run_all_cons, Prog.run_all_nil, if_pos hd,
    unlistBell]

theorem takeBell_here {op : Nat} (ho : (bellMsg b).op = op) (hd : (bellMsg b).dev = s.self) (f : Nat → BellMsg → Prog) :
    (takeBell k op f).run s = (f l (bellMsg b)).run ((unlistBell k).run s) := by
  simp -implicitDefEqProofs only [takeBell, Prog.run_get, h, ho, ne_eq, not_true_eq_false, if_false, Prog.run_all_cons, Prog.run_all_nil, hd, unlistBell]

end

/-- A message is discarded and counted. -/
theorem dropBell_run (k : Nat) (s : State) :
    let t := (bump pgBell R.bell_MSG_DROP_CNT).run ((unlistBell k).run s)
    t.dev = { s.dev with bells := s.dev.bells.eraseIdx k } ∧ Counts s t pgBell R.bell_MSG_DROP_CNT 1 ∧
    Keeps { regs := theRegs pgBell [R.bell_MSG_DROP_CNT], dev := True } s t := by
  obtain ⟨hdev, hkeep⟩ := unlistBell_run k s
  generalize (unlistBell k).run s = u at *
  obtain ⟨hcnt, hbump⟩ := bumpBy_run pgBell R.bell_MSG_DROP_CNT 1 u
  refine ⟨(hbump.dev id).trans hdev, ?_, (hkeep.mono (by constructor <;> simp)).trans (hbump.mono (by constructor <;> simp))⟩
  rw [Counts, ← hkeep.reg_eq (p := pgBell) (o := R.bell_MSG_DROP_CNT.off) id]
  exact hcnt

/-! ### The four operations -/

/-- What a follower records of a SYNC. -/
def opens (e : Exchange) (b : BellSync) : BellSync := { b with opened := b.opened.filter (fun x => x.link != e.link) ++ [e] }

theorem exec_sync {k ago ahead l : Nat} {b : BitVec 61} (h : s.dev.bells[k]? = some (l, b)) (ho : (bellMsg b).op = 0) (hd : (bellMsg b).dev = s.self) :
    (s.bellHears l = false → exec (.sync k ago ahead) s = .next ((unlistBell k).run s)) ∧
    (s.bellHears l = true → exec (.sync k ago ahead) s = .next ((sendBell l 1 (bellMsg b).seq (s.fine + ahead)).run
      ((modSync (opens ⟨l, (bellMsg b).seq, rebuild (s.fine - ago) (bellMsg b).t, (s.fine - ago : Nat), (s.fine + ahead : Nat), (bellMsg b).plock⟩)).run
        ((unlistBell k).run s)))) := by
  have hexec : exec (.sync k ago ahead) s = .next ((takeBell k 0 _).run s) := rfl
  rw [takeBell_here h ho hd] at hexec
  have hears : ((unlistBell k).run s).bellHears l = s.bellHears l := rfl
  have hfine : ((unlistBell k).run s).fine = s.fine := rfl
  refine ⟨fun hh => hexec.trans (congrArg _ ?_), fun hh => hexec.trans (congrArg _ ?_)⟩
  · simp -implicitDefEqProofs only [Prog.run_get, hears, hh, Bool.not_false, if_true, Prog.run_done]
  · simp -implicitDefEqProofs only [Prog.run_get, hears, hh, Bool.not_true, Bool.false_eq_true, if_false, Prog.run_all_cons, Prog.run_all_nil, hfine]
    rfl

theorem sendCoarse_run (l seq : Nat) (s : State) :
    let t := (sendCoarse l seq).run s
    SendsBell s t l 3 seq (s.bellNow / 2 ^ 24) ∧
    t.dev = { s.dev with bellSync := { s.dev.bellSync with
      coarse := if s.dev.bellSync.coarse.contains l then s.dev.bellSync.coarse else s.dev.bellSync.coarse ++ [l] } } ∧
    Keeps { links := (· = l), dev := True } s t := by
  rw [sendCoarse, Prog.run_get, Prog.run_all_cons, Prog.run_all_cons, Prog.run_all_nil]
  obtain ⟨⟨b, hlink, hmsg⟩, hdev, hkeep⟩ := sendBell_run (op := 3) (by decide) l seq (s.bellNow / 2 ^ 24) s
  generalize (sendBell l 3 seq (s.bellNow / 2 ^ 24)).run s = u at *
  refine ⟨⟨b, hlink, hmsg⟩, ?_, (hkeep.mono (by constructor <;> simp)).trans (Prog.keeps (by simp) u)⟩
  rw [← hdev]
  rfl

theorem SendsBell.congr {u t : State} {l op seq x : Nat} (h : SendsBell u t l op seq x) (hk : Keeps { dev := True } s u) :
    SendsBell s t l op seq x := by
  obtain ⟨b, hlink, hmsg⟩ := h
  refine ⟨b, ?_, ?_⟩
  · rw [hlink, hk.links l id]
  · rw [hmsg, hk.fld_eq id, State.bellPlock, State.bellPlock, State.bellState, State.bellState, hk.fld_eq id]

theorem bellMsg_seq (b : BitVec 61) : (bellMsg b).seq % 16 = (bellMsg b).seq := by
  simp only [bellMsg, bitsOf]
  omega

theorem exec_delayReq {k ago l : Nat} {b : BitVec 61} (h : s.dev.bells[k]? = some (l, b)) (ho : (bellMsg b).op = 1) (hd : (bellMsg b).dev = s.self) :
    (¬ (s.bellSends = true ∧ Sparse.get? s.dev.bellSync.sent l = some (bellMsg b).seq) →
      exec (.delayReq k ago) s = .next ((bump pgBell R.bell_MSG_DROP_CNT).run ((unlistBell k).run s))) ∧
    (s.bellSends = true ∧ Sparse.get? s.dev.bellSync.sent l = some (bellMsg b).seq → exec (.delayReq k ago) s =
      .next ((sendBell l 2 (bellMsg b).seq (s.fine - ago)).run
        ((Prog.when (!s.dev.bellSync.coarse.contains l) (sendCoarse l (bellMsg b).seq)).run ((unlistBell k).run s)))) := by
  have hexec : exec (.delayReq k ago) s = .next ((takeBell k 1 _).run s) := rfl
  rw [takeBell_here h ho hd] at hexec
  have hsends : ((unlistBell k).run s).bellSends = s.bellSends := rfl
  have hfine : ((unlistBell k).run s).fine = s.fine := rfl
  have hsync : ((unlistBell k).run s).dev.bellSync = s.dev.bellSync := rfl
  refine ⟨fun hh => hexec.trans (congrArg _ ?_), fun hh => hexec.trans (congrArg _ ?_)⟩
  · have hcond : (!s.bellSends || Sparse.get? s.dev.bellSync.sent l != some (bellMsg b).seq) = true := by
      rcases Bool.eq_false_or_eq_true s.bellSends with hb | hb
      · simpa [hb] using hh
      · simp [hb]
    simp -implicitDefEqProofs only [Prog.run_get, hsends, hsync, hcond, if_true]
  · obtain ⟨hb, hsent⟩ := hh
    simp -implicitDefEqProofs only [Prog.run_get, hsends, hsync, hb, hsent, bne_self_eq_false, Bool.not_true, Bool.or_false, Bool.false_eq_true, if_false,
      Prog.run_all_cons, Prog.run_all_nil, hfine]

/-! ### SYNC on every link -/

/-- What the Bell sends on one link in a period. -/
def syncOn (b : BellSync) (fine l : Nat) : Prog := .all [
  modSync (fun b' => { b' with sent := Sparse.set b'.sent l (((Sparse.get? b.sent l).getD 15 + 1) % 16) }),
  sendBell l 0 (((Sparse.get? b.sent l).getD 15 + 1) % 16) fine,
  Prog.when ((b.periods + 1) % 64 == 0) (sendCoarse l (((Sparse.get? b.sent l).getD 15 + 1) % 16))]

/-- What the loop of a period leaves of a link's part. -/
def syncView (l : Nat) (s t : State) : Prop :=
  t.link l = s.link l ∧ Sparse.get? t.dev.bellSync.sent l = Sparse.get? s.dev.bellSync.sent l ∧
  (l ∈ s.dev.bellSync.coarse → l ∈ t.dev.bellSync.coarse) ∧ t.dev = { s.dev with bellSync := t.dev.bellSync } ∧
  Keeps { links := fun _ => True, dev := True } s t

theorem mem_coarse_of_set (l q : Nat) (xs : List Nat) : q ∈ xs → q ∈ (if xs.contains l then xs else xs ++ [l]) := fun h => by
  split
  · exact h
  · exact List.mem_append_left _ h

theorem mem_coarse_self (l : Nat) (xs : List Nat) : l ∈ (if xs.contains l then xs else xs ++ [l]) := by
  split
  next h => simpa using h
  next => exact List.mem_append_right _ (List.mem_singleton_self l)

/-- Two messages in a row. -/
theorem SendsBell.two {u t : State} {l op op' seq x x' : Nat} (h : SendsBell s u l op seq x) (h' : SendsBell u t l op' seq x')
    (hf : u.fld (pgLink l) R.link_FAR_ID_FAR_DEV = s.fld (pgLink l) R.link_FAR_ID_FAR_DEV) (hp : u.bellPlock = s.bellPlock) :
    ∃ b b', t.link l = { s.link l with ctrl := (s.link l).ctrl ++ [(2, .bell b), (2, .bell b')] } ∧
      bellMsg b = ⟨s.fld (pgLink l) R.link_FAR_ID_FAR_DEV, op, seq % 16, x % 2 ^ 40, s.bellPlock⟩ ∧
      bellMsg b' = ⟨s.fld (pgLink l) R.link_FAR_ID_FAR_DEV, op', seq % 16, x' % 2 ^ 40, s.bellPlock⟩ := by
  obtain ⟨b, hlink, hmsg⟩ := h
  obtain ⟨b', hlink', hmsg'⟩ := h'
  refine ⟨b, b', ?_, hmsg, by rw [hmsg', hf, hp]⟩
  rw [hlink', hlink, List.append_assoc]
  rfl

theorem bellPlock_eq {u : State} {T : Touch} (h : Keeps T s u) (hT : ¬ T.regs (pgBell.base + R.bell_STATUS_STATE.off)) : u.bellPlock = s.bellPlock := by
  rw [State.bellPlock, State.bellPlock, State.bellState, State.bellState, h.fld_eq hT]

theorem syncOn_run (b : BellSync) (fine l : Nat) (s : State) :
    let t := (syncOn b fine l).run s
    let seq := ((Sparse.get? b.sent l).getD 15 + 1) % 16
    Sparse.get? t.dev.bellSync.sent l = some seq ∧
    ((b.periods + 1) % 64 ≠ 0 → SendsBell s t l 0 seq fine) ∧
    ((b.periods + 1) % 64 = 0 → l ∈ t.dev.bellSync.coarse ∧
      ∃ u, SendsBell s u l 0 seq fine ∧ SendsBell u t l 3 seq (s.bellNow / 2 ^ 24) ∧ Keeps { links := (· = l), dev := True } s u) ∧
    (∀ q, q ≠ l → syncView q s t) ∧ (t.dev = { s.dev with bellSync := t.dev.bellSync }) ∧ t.dev.bellSync.periods = s.dev.bellSync.periods ∧
    Keeps { links := (· = l), dev := True } s t := by
  intro t seq
  have hrun : t = (Prog.when ((b.periods + 1) % 64 == 0) (sendCoarse l seq)).run ((sendBell l 0 seq fine).run
      ((modSync (fun b' => { b' with sent := Sparse.set b'.sent l seq })).run s)) := by
    simp -implicitDefEqProofs only [t, syncOn, Prog.run_all_cons, Prog.run_all_nil, seq]
  have hsent : ((modSync (fun b' => { b' with sent := Sparse.set b'.sent l seq })).run s).dev =
    { s.dev with bellSync := { s.dev.bellSync with sent := Sparse.set s.dev.bellSync.sent l seq } } := rfl
  have hkeep : Keeps { dev := True } s ((modSync (fun b' => { b' with sent := Sparse.set b'.sent l seq })).run s) := Prog.keeps (by simp) s
  generalize (modSync (fun b' => { b' with sent := Sparse.set b'.sent l seq })).run s = u at *
  obtain ⟨hsends, hdev, hsendk⟩ := sendBell_run (op := 0) (by decide) l seq fine u
  generalize (sendBell l 0 seq fine).run u = v at *
  have hkv : Keeps { links := (· = l), dev := True } s v := (hkeep.mono (by constructor <;> simp)).trans (hsendk.mono (by constructor <;> simp))
  have hsv : SendsBell s v l 0 seq fine := hsends.congr hkeep
  have hother (q : Nat) (hq : q ≠ l) : Sparse.get? (Sparse.set s.dev.bellSync.sent l seq) q = Sparse.get? s.dev.bellSync.sent q := by
    rw [Sparse.get?_set, if_neg hq]
  have hown : Sparse.get? (Sparse.set s.dev.bellSync.sent l seq) l = some seq := by rw [Sparse.get?_set, if_pos rfl]
  rw [hrun, Prog.run_when]
  split
  next hc =>
    obtain ⟨hcoarse, hcdev, hck⟩ := sendCoarse_run l seq v
    generalize (sendCoarse l seq).run v = w at *
    have hk : Keeps { links := (· = l), dev := True } s w := hkv.trans hck
    have hwdev : w.dev = { s.dev with bellSync := w.dev.bellSync } := by rw [hcdev, hdev, hsent]
    have hnow : v.bellNow = s.bellNow := by rw [State.bellNow, State.bellNow, hdev, hsent]
    have hlist : w.dev.bellSync.coarse = if s.dev.bellSync.coarse.contains l then s.dev.bellSync.coarse else s.dev.bellSync.coarse ++ [l] := by
      rw [hcdev, hdev, hsent]
    refine ⟨by rw [hcdev, hdev, hsent]; exact hown, fun h => absurd (by simpa using hc) h, fun _ => ⟨?_, v, hsv, hnow ▸ hcoarse, hkv⟩, fun q hq =>
      ⟨hk.links q hq, by rw [hcdev, hdev, hsent]; exact hother q hq, ?_, hwdev, ?_⟩, hwdev, by rw [hcdev, hdev, hsent], hk⟩
    · rw [hlist]
      exact mem_coarse_self ..
    · rw [hlist]
      exact mem_coarse_of_set l q _
    · exact hk.mono (by constructor <;> simp)
  next hc =>
    have hvdev : v.dev = { s.dev with bellSync := v.dev.bellSync } := by rw [hdev, hsent]
    refine ⟨by rw [hdev, hsent]; exact hown, fun _ => hsv, fun h => absurd (by simpa using h) hc, fun q hq =>
      ⟨hkv.links q hq, by rw [hdev, hsent]; exact hother q hq, by rw [hdev, hsent]; exact id, hvdev, ?_⟩, hvdev, by rw [hdev, hsent], hkv⟩
    exact hkv.mono (by constructor <;> simp)

theorem syncView_refl (l : Nat) (s : State) : syncView l s s := ⟨rfl, rfl, id, rfl, Keeps.refl _ s⟩

theorem syncView_trans (l : Nat) (a b c : State) (h : syncView l a b) (h' : syncView l b c) : syncView l a c := by
  obtain ⟨hlink, hsent, hcoarse, hdev, hkeep⟩ := h
  obtain ⟨hlink', hsent', hcoarse', hdev', hkeep'⟩ := h'
  exact ⟨hlink'.trans hlink, hsent'.trans hsent, hcoarse' ∘ hcoarse, by rw [hdev', hdev], hkeep.trans hkeep'⟩

/-- A period's loop, and the count of periods. -/
def bellRound (ls : List Nat) (b : BellSync) (fine : Nat) : Prog := .all [
  Prog.each ls (syncOn b fine), modSync (fun b => { b with periods := b.periods + 1 })]

theorem exec_bellPeriod (ahead : Nat) (s : State) :
    (s.bellSends = false → exec (.bellPeriod ahead) s = .next s) ∧
    (s.bellSends = true → exec (.bellPeriod ahead) s =
      .next ((bellRound ((List.range 16).filter (fun l => s.linkUp l)) s.dev.bellSync (s.fine + ahead)).run s)) := by
  refine ⟨fun h => ?_, fun h => ?_⟩
  · show execBellPeriod _ _ = _
    simp -implicitDefEqProofs only [execBellPeriod, Prog.next_eq, Prog.run_get, h, Bool.not_false, if_true, Prog.run_done]
  · show execBellPeriod _ _ = _
    simp -implicitDefEqProofs only [execBellPeriod, Prog.next_eq, Prog.run_get, h, Bool.not_true, Bool.false_eq_true, if_false]
    rfl

theorem bellRound_run {ls : List Nat} (hnodup : ls.Nodup) (b : BellSync) (fine : Nat) (s : State) :
    let t := (bellRound ls b fine).run s
    t.dev = { s.dev with bellSync := t.dev.bellSync } ∧ t.dev.bellSync.periods = s.dev.bellSync.periods + 1 ∧
    (∀ l ∈ ls, ∃ u, syncView l s u ∧ syncView l ((syncOn b fine l).run u) t) ∧ Keeps { links := (· ∈ ls), dev := True } s t := by
  have hpart (l : Nat) (hl : l ∈ ls) := each_part (V := syncView) syncView_refl syncView_trans hnodup (f := syncOn b fine)
    (fun x _ y _ hxy s => (syncOn_run b fine y s).2.2.2.1 x hxy) s hl
  have hdev : ((Prog.each ls (syncOn b fine)).run s).dev = { s.dev with bellSync := ((Prog.each ls (syncOn b fine)).run s).dev.bellSync } ∧
      ((Prog.each ls (syncOn b fine)).run s).dev.bellSync.periods = s.dev.bellSync.periods :=
    each_aside (V := fun a c => c.dev = { a.dev with bellSync := c.dev.bellSync } ∧ c.dev.bellSync.periods = a.dev.bellSync.periods)
      (fun _ => ⟨rfl, rfl⟩) (fun _ _ _ h h' => ⟨by rw [h'.1, h.1], h'.2.trans h.2⟩)
      (fun x _ s => ⟨(syncOn_run b fine x s).2.2.2.2.1, (syncOn_run b fine x s).2.2.2.2.2.1⟩) s
  have hkeep : Keeps { links := (· ∈ ls), dev := True } s ((Prog.each ls (syncOn b fine)).run s) :=
    Prog.keeps ((Prog.only_each ..).2 fun l hl => by
      simp [syncOn, sendBell, sendCoarse, Prog.only_when, hl]) s
  have hrun : (bellRound ls b fine).run s =
      (modSync (fun b => { b with periods := b.periods + 1 })).run ((Prog.each ls (syncOn b fine)).run s) := by
    simp -implicitDefEqProofs only [bellRound, Prog.run_all_cons, Prog.run_all_nil]
  rw [hrun]
  generalize (Prog.each ls (syncOn b fine)).run s = u at *
  obtain ⟨hudev, huper⟩ := hdev
  have hlast : ((modSync (fun b => { b with periods := b.periods + 1 })).run u).dev =
    { u.dev with bellSync := { u.dev.bellSync with periods := u.dev.bellSync.periods + 1 } } := rfl
  have hlastk : Keeps { dev := True } u ((modSync (fun b => { b with periods := b.periods + 1 })).run u) := Prog.keeps (by simp) u
  generalize (modSync (fun b => { b with periods := b.periods + 1 })).run u = t at *
  refine ⟨by rw [hlast, hudev], by rw [hlast, huper], fun l hl => ?_, hkeep.trans (hlastk.mono (by constructor <;> simp))⟩
  obtain ⟨v, hv, hv'⟩ := hpart l hl
  refine ⟨v, hv, syncView_trans _ _ _ _ hv' ⟨hlastk.links l id, by rw [hlast], by rw [hlast]; exact id, by rw [hlast], ?_⟩⟩
  exact hlastk.mono (by constructor <;> simp)

/-- A view's states agree on what a message says. -/
theorem SendsBell.view {u v t : State} {l op seq x : Nat} (hu : syncView l s u) (h : SendsBell u v l op seq x) (ht : t.link l = v.link l) :
    SendsBell s t l op seq x := by
  obtain ⟨hlink, -, -, -, hkeep⟩ := hu
  obtain ⟨b, hb, hmsg⟩ := h
  refine ⟨b, by rw [ht, hb, hlink], ?_⟩
  rw [hmsg, hkeep.fld_eq id, bellPlock_eq hkeep id]

theorem exec_bell_takes (k ago ahead : Nat) : ∀ x ∈ [(Instr.sync k ago ahead, 0), (.delayReq k ago, 1), (.delayResp k, 2), (.coarse k, 3)],
    ∃ f, ∀ s, exec x.1 s = .next ((takeBell k x.2 f).run s) := by
  simp only [List.forall_mem_cons, List.not_mem_nil, false_implies, implies_true, and_true]
  exact ⟨⟨_, fun _ => rfl⟩, ⟨_, fun _ => rfl⟩, ⟨_, fun _ => rfl⟩, ⟨_, fun _ => rfl⟩⟩

/-- Settles O42: each message is read back from the bits it is built of, and each link's part of a period is its own. -/
theorem bellMessagesAreExchanged : Obligations.BellMessagesAreExchanged := by
  refine ⟨fun s ahead => ⟨(exec_bellPeriod ahead s).1, fun hs => ⟨_, (exec_bellPeriod ahead s).2 hs, ?_⟩⟩,
    fun s k ago ahead l b h => ⟨fun r op hr => ⟨fun ho => ?_, fun ho hd => ?_⟩, fun hd ho hh => ?_, fun hd ho hh => ?_, fun hd ho hdue => ?_,
      fun hd ho hdue hc => ?_, fun hd ho hdue hc => ?_⟩, fun s k ago ahead h r hr => ?_⟩
  · have hnodup : ((List.range 16).filter (fun l => s.linkUp l)).Nodup := List.nodup_range.filter _
    obtain ⟨hdev, hper, hparts, hkeep⟩ := bellRound_run hnodup s.dev.bellSync (s.fine + ahead) s
    generalize (bellRound ((List.range 16).filter (fun l => s.linkUp l)) s.dev.bellSync (s.fine + ahead)).run s = t at *
    refine ⟨hdev, hper, fun l hl hup => ?_, hkeep.mono (by constructor <;> simp)⟩
    obtain ⟨u, hu, hv⟩ := hparts l (by simp [hl, hup])
    obtain ⟨hsent, hplain, hcoarse, -⟩ := syncOn_run s.dev.bellSync (s.fine + ahead) l u
    generalize (syncOn s.dev.bellSync (s.fine + ahead) l).run u = v at *
    have hmod : ((Sparse.get? s.dev.bellSync.sent l).getD 15 + 1) % 16 % 16 = ((Sparse.get? s.dev.bellSync.sent l).getD 15 + 1) % 16 :=
      Nat.mod_mod _ _
    refine ⟨hv.2.1.trans hsent, fun h64 => ?_, fun h64 => ?_⟩
    · obtain ⟨b, hb, hmsg⟩ := SendsBell.view hu (hplain h64) hv.1
      exact ⟨b, hb, by rw [hmsg, hmod]; rfl⟩
    · obtain ⟨hc, w, hw, hw', hwk⟩ := hcoarse h64
      obtain ⟨b, b', hb, hm, hm'⟩ := hw.two hw' (hwk.fld_eq id) (bellPlock_eq hwk id)
      have hplock : u.bellPlock = s.bellPlock := bellPlock_eq hu.2.2.2.2 id
      have hnow : u.bellNow = s.bellNow := by rw [State.bellNow, State.bellNow, hu.2.2.2.1]
      have hcount : s.bellNow / 2 ^ 24 % 2 ^ 40 = s.bellNow / 2 ^ 24 := by
        have : s.bellNow < 2 ^ 64 := Nat.mod_lt _ (by decide)
        omega
      refine ⟨b, b', by rw [hv.1, hb, hu.1], ?_, ?_, hv.2.2.1 hc⟩
      · rw [hm, hu.2.2.2.2.fld_eq id, hplock, hmod]
        rfl
      · rw [hm', hu.2.2.2.2.fld_eq id, hplock, hmod, hnow, hcount]
        rfl
  · obtain ⟨f, hf⟩ := exec_bell_takes k ago ahead (r, op) hr
    rw [hf, takeBell_other h ho]
  · obtain ⟨f, hf⟩ := exec_bell_takes k ago ahead (r, op) hr
    exact ⟨_, (hf s).trans (congrArg _ (takeBell_far h ho hd f)), dropBell_run k s⟩
  · exact ⟨_, (exec_sync h ho hd).1 hh, unlistBell_run k s⟩
  · refine ⟨_, (exec_sync h ho hd).2 hh, ?_⟩
    have hdev : ((modSync (opens ⟨l, (bellMsg b).seq, rebuild (s.fine - ago) (bellMsg b).t, (s.fine - ago : Nat), (s.fine + ahead : Nat),
        (bellMsg b).plock⟩)).run ((unlistBell k).run s)).dev = { s.dev with
      bells := s.dev.bells.eraseIdx k
      bellSync := opens ⟨l, (bellMsg b).seq, rebuild (s.fine - ago) (bellMsg b).t, (s.fine - ago : Nat), (s.fine + ahead : Nat), (bellMsg b).plock⟩
        s.dev.bellSync } := rfl
    have hkeep : Keeps { dev := True } s ((modSync (opens ⟨l, (bellMsg b).seq, rebuild (s.fine - ago) (bellMsg b).t, (s.fine - ago : Nat),
        (s.fine + ahead : Nat), (bellMsg b).plock⟩)).run ((unlistBell k).run s)) :=
      (unlistBell_run k s).2.trans (Prog.keeps (by simp) _)
    generalize (modSync (opens ⟨l, (bellMsg b).seq, rebuild (s.fine - ago) (bellMsg b).t, (s.fine - ago : Nat), (s.fine + ahead : Nat),
        (bellMsg b).plock⟩)).run ((unlistBell k).run s) = u at *
    obtain ⟨hsends, hsd, hsk⟩ := sendBell_run (op := 1) (by decide) l (bellMsg b).seq (s.fine + ahead) u
    obtain ⟨b', hb, hmsg⟩ := hsends.congr hkeep
    refine ⟨hsd.trans hdev, ⟨b', hb, ?_⟩, (hkeep.mono (by constructor <;> simp)).trans (hsk.mono (by constructor <;> simp))⟩
    rw [hmsg, bellMsg_seq]
    rfl
  · exact ⟨_, (exec_delayReq h ho hd).1 hdue, dropBell_run k s⟩
  · have hc' : (!s.dev.bellSync.coarse.contains l) = false := by simpa using hc
    have hexec := (exec_delayReq (ago := ago) h ho hd).2 hdue
    rw [hc', Prog.run_when_false] at hexec
    obtain ⟨hdev, hkeep⟩ := unlistBell_run k s
    generalize (unlistBell k).run s = u at *
    obtain ⟨hsends, hsd, hsk⟩ := sendBell_run (op := 2) (by decide) l (bellMsg b).seq (s.fine - ago) u
    obtain ⟨b', hb, hmsg⟩ := hsends.congr hkeep
    refine ⟨_, hexec, hsd.trans hdev, ⟨b', hb, ?_⟩, (hkeep.mono (by constructor <;> simp)).trans (hsk.mono (by constructor <;> simp))⟩
    rw [hmsg, bellMsg_seq]
    rfl
  · have hc' : (!s.dev.bellSync.coarse.contains l) = true := by simpa using hc
    have hexec := (exec_delayReq (ago := ago) h ho hd).2 hdue
    rw [hc', Prog.run_when_true] at hexec
    obtain ⟨hdev, hkeep⟩ := unlistBell_run k s
    generalize (unlistBell k).run s = u at *
    obtain ⟨hcoarse, hcd, hck⟩ := sendCoarse_run l (bellMsg b).seq u
    have hlist : (if u.dev.bellSync.coarse.contains l then u.dev.bellSync.coarse else u.dev.bellSync.coarse ++ [l]) = s.dev.bellSync.coarse ++ [l] := by
      rw [hdev, if_neg (by simpa using hc)]
    generalize (sendCoarse l (bellMsg b).seq).run u = v at *
    obtain ⟨hsends, hsd, hsk⟩ := sendBell_run (op := 2) (by decide) l (bellMsg b).seq (s.fine - ago) v
    obtain ⟨b1, b2, hb, hm, hm'⟩ := (hcoarse.congr hkeep).two hsends ((hkeep.mono (by constructor <;> simp)).trans hck |>.fld_eq id)
      (bellPlock_eq ((hkeep.mono (by constructor <;> simp)).trans hck) id)
    have hnow : u.bellNow = s.bellNow := by rw [State.bellNow, State.bellNow, hdev]
    have hcount : s.bellNow / 2 ^ 24 % 2 ^ 40 = s.bellNow / 2 ^ 24 := by
      have : s.bellNow < 2 ^ 64 := Nat.mod_lt _ (by decide)
      omega
    refine ⟨_, hexec, ?_, ⟨b1, b2, hb, ?_, ?_⟩, ((hkeep.mono (by constructor <;> simp)).trans hck).trans (hsk.mono (by constructor <;> simp))⟩
    · rw [hsd, hcd, hlist, hdev]
    · rw [hm, bellMsg_seq, hnow, hcount]
      rfl
    · rw [hm', bellMsg_seq]
      rfl
  · have htakes := exec_bell_takes k ago ahead
    simp only [List.forall_mem_cons, List.not_mem_nil, false_implies, implies_true, and_true] at htakes
    obtain ⟨⟨f0, h0⟩, ⟨f1, h1⟩, ⟨f2, h2⟩, ⟨f3, h3⟩⟩ := htakes
    simp only [List.mem_cons, List.not_mem_nil, or_false] at hr
    obtain rfl | rfl | rfl | rfl := hr
    · rw [h0, takeBell_none h]
    · rw [h1, takeBell_none h]
    · rw [h2, takeBell_none h]
    · rw [h3, takeBell_none h]

end Sys2Proof.Machine
end

open Host
section
/-! O43: the steering of the Bell, its losses, faults and outputs (R395, R400 to R408). -/
namespace Sys2Proof.Machine

variable {s : State}

/-! ### STATE -/

/-- What a change of STATE leaves of the device. -/
def bellRest (d : Device) : Nat × List (Nat × BitVec 61) × List Exchange × Nat × Nat × Nat :=
  (d.bell, d.bells, d.bellSync.opened, d.bellSync.misses, d.bellSync.at', d.bellSync.back)

theorem bellGo_run {st : Nat} (hst : st < 8) (s : State) :
    let t := (bellGo st).run s
    t.bellState = st ∧ bellRest t.dev = bellRest s.dev := by
  refine ⟨?_, looks_run (v := bellRest) (fun d => ?_) s⟩
  · rw [bellGo, Prog.run_get]
    split
    next h => exact h
    next h =>
      have hkeep : (((Prog.all [Prog.when (st == bHoldover) (bump pgBell R.bell_HOLDOVER_CNT),
          Prog.when (st == bLocked && s.fld pgBell R.STATE_STATE == stFault && s.fld pgBell R.FAULT_CAUSE == 1) (setFld pgBell R.STATE_STATE stEnabled),
          modSync (fun b => { b with good := 0 }), raiseLine pgBell, tellWatch 15]).run ((setFld pgBell R.bell_STATUS_STATE st).run s)).bellState) =
          ((setFld pgBell R.bell_STATUS_STATE st).run s).bellState :=
        (Prog.keeps (T := { regs := theRegs pgBell [R.bell_HOLDOVER_CNT, R.STATE_STATE, R.CRIER_LINE_RAISED], dev := True })
          (by simp [Prog.only_when]) _).fld_eq (not_theRegs_offset (by decide) _)
      have hset : ((setFld pgBell R.bell_STATUS_STATE st).run s).bellState = st := by
        simp -implicitDefEqProofs [State.bellState, Nat.mod_eq_of_lt hst]
      rw [Prog.run_all_cons]
      exact hkeep.trans hset
  · rw [bellGo, Prog.safe_get]
    intro s _
    refine iteInduction (motive := Prog.Safe _) (fun _ => Prog.safe_done) fun _ => ?_
    simp [Prog.safe_when, modSync, bellRest, tellWatch]

theorem bellGo_keeps (st : Nat) (s : State) :
    Keeps { regs := theRegs pgBell [R.bell_STATUS_STATE, R.bell_HOLDOVER_CNT, R.STATE_STATE, R.CRIER_LINE_RAISED], dev := True } s ((bellGo st).run s) := by
  refine Prog.keeps (fun s => ?_) s
  refine iteInduction (motive := Prog.Only _) (fun _ => trivial) fun _ => ?_
  simp [Prog.only_when]

theorem bellGo_keeps_up {st : Nat} (h : st ≠ bHoldover) (s : State) :
    Keeps { regs := theRegs pgBell [R.bell_STATUS_STATE, R.STATE_STATE, R.CRIER_LINE_RAISED], dev := True } s ((bellGo st).run s) := by
  refine Prog.keeps (fun s => ?_) s
  refine iteInduction (motive := Prog.Only _) (fun _ => trivial) fun _ => ?_
  simp [Prog.only_when, h]

/-! ### The rate -/

theorem halved_even (s : State) {x off : Int} (h : 2 * off = x) : halved s x = off := by
  have hmod : x.emod 2 = 0 := by
    show x % 2 = 0
    omega
  have hdiv : x.ediv 2 = off := by
    show x / 2 = off
    omega
  rw [halved, hmod, hdiv]
  simp

theorem steer_run (off : Int) (s : State) :
    let t := (steer off).run s
    t.bellAdj ≤ 500000 ∧ -500000 ≤ t.bellAdj ∧ (off = 0 → t.bellAdj = 0) ∧ (0 < off → t.bellAdj ≤ 0) ∧ (off < 0 → 0 ≤ t.bellAdj) ∧
    Keeps { regs := theRegs pgBell [R.bell_FREQ_ADJ], seq := True } s t := by
  have hfld : ((steer off).run s).fld pgBell R.bell_FREQ_ADJ =
      (if off = 0 then 0 else if 0 < off then (2 ^ 20 - (Config.openWord s.seq).toNat % 500001) % 2 ^ 20 else (Config.openWord s.seq).toNat % 500001) % 2 ^ 20 := by
    simp -implicitDefEqProofs [steer]
  have hn : (Config.openWord s.seq).toNat % 500001 < 500001 := Nat.mod_lt _ (by decide)
  have hkeep : Keeps { regs := theRegs pgBell [R.bell_FREQ_ADJ], seq := True } s ((steer off).run s) := Prog.keeps (by simp [steer, Touch.allows]) s
  generalize (Config.openWord s.seq).toNat % 500001 = n at *
  generalize (steer off).run s = t at *
  norm_num only at hfld
  simp only [State.bellAdj, hfld]
  norm_num only
  refine ⟨?_, ?_, ?_, ?_, ?_, hkeep⟩
  all_goals split_ifs <;> omega

/-! ### Exchanges -/

/-- The rate and STATE after an exchange on the link in use. -/
def steered (off : Int) (plock : Bool) (now : Nat) : Prog := .all [
  modSync (fun b => { b with misses := 0, at' := now }), steer off, bellExchange off plock]

/-- What an exchange of an acquiring device does. -/
def acquires (v good : Nat) : Prog := .all [bellStep v, modSync (fun b => { b with good := good }), Prog.when (decide (16 ≤ good)) (bellGo bLocked)]

theorem bellStep_run (v : Nat) (s : State) :
    let t := (bellStep v).run s
    t.dev = { s.dev with bell := if s.mayStep then v else s.dev.bell } ∧
    Counts s t pgBell R.bell_STEP_CNT (if t.dev.bell = s.dev.bell then 0 else 1) ∧
    Keeps { regs := theRegs pgBell [R.bell_STEP_CNT], dev := True } s t := by
  rw [bellStep, Prog.run_get, Prog.run_when]
  split
  next h =>
    obtain ⟨hmay, hne⟩ : s.mayStep = true ∧ v ≠ s.dev.bell := by simpa using h
    rw [Prog.run_all_cons, Prog.run_all_cons, Prog.run_all_nil]
    have hdev : ((modDev (fun d => { d with bell := v })).run s).dev = { s.dev with bell := v } := rfl
    have hkeep : Keeps { dev := True } s ((modDev (fun d => { d with bell := v })).run s) := Prog.keeps (by simp) s
    generalize (modDev (fun d => { d with bell := v })).run s = u at *
    obtain ⟨hcnt, hbump⟩ := bumpBy_run pgBell R.bell_STEP_CNT 1 u
    have hb : ((bump pgBell R.bell_STEP_CNT).run u).dev = u.dev := hbump.dev id
    refine ⟨by rw [if_pos hmay]; exact hb.trans hdev, ?_, (hkeep.mono (by constructor <;> simp)).trans (hbump.mono (by constructor <;> simp))⟩
    rw [if_neg (by rw [hb, hdev]; exact hne), Counts, ← hkeep.reg_eq (p := pgBell) (o := R.bell_STEP_CNT.off) id]
    exact hcnt
  next h =>
    have hsame : (if s.mayStep then v else s.dev.bell) = s.dev.bell := by
      split
      next hm => simpa [hm] using h
      next => rfl
    refine ⟨by rw [hsame], ?_, Keeps.refl _ s⟩
    rw [if_pos rfl, Counts, satAdd_zero]

theorem acquires_run (v good : Nat) (h : s.bellState = bAcquiring) :
    let t := (acquires v good).run s
    t.bellState = (if 16 ≤ good then bLocked else bAcquiring) ∧ t.dev.bell = (if s.mayStep then v else s.dev.bell) ∧
    (t.dev.bells, t.dev.bellSync.opened, t.dev.bellSync.misses, t.dev.bellSync.at') =
      (s.dev.bells, s.dev.bellSync.opened, s.dev.bellSync.misses, s.dev.bellSync.at') ∧
    Keeps { regs := theRegs pgBell [R.bell_STEP_CNT, R.bell_STATUS_STATE, R.STATE_STATE, R.CRIER_LINE_RAISED], dev := True } s t := by
  obtain ⟨hdev, -, hkeep⟩ := bellStep_run v s
  rw [acquires, Prog.run_all_cons, Prog.run_all_cons, Prog.run_all_cons, Prog.run_all_nil]
  generalize (bellStep v).run s = u at *
  have hgood : ((modSync (fun b => { b with good := good })).run u).dev = { u.dev with bellSync := { u.dev.bellSync with good := good } } := rfl
  have hgk : Keeps { dev := True } u ((modSync (fun b => { b with good := good })).run u) := Prog.keeps (by simp) u
  generalize (modSync (fun b => { b with good := good })).run u = w at *
  have hw : w.bellState = bAcquiring := by
    rw [State.bellState, hgk.fld_eq id, hkeep.fld_eq (not_theRegs_offset (by decide) _)]
    exact h
  have hkw : Keeps { regs := theRegs pgBell [R.bell_STEP_CNT, R.bell_STATUS_STATE, R.STATE_STATE, R.CRIER_LINE_RAISED], dev := True } s w :=
    (hkeep.mono (by constructor; case regs => exact theRegs_mono (by simp)
                    all_goals simp)).trans (hgk.mono (by constructor <;> simp))
  rw [Prog.run_when]
  by_cases h16 : 16 ≤ good
  · obtain ⟨hst, hrest⟩ := bellGo_run (st := bLocked) (by decide) w
    have hgo := bellGo_keeps_up (st := bLocked) (by decide) w
    rw [if_pos (by simpa using h16), if_pos h16]
    generalize (bellGo bLocked).run w = t at *
    simp only [bellRest, Prod.mk.injEq] at hrest
    obtain ⟨hbell, hbells, hopen, hmiss, hat, -⟩ := hrest
    refine ⟨hst, by rw [hbell, hgood, hdev], by rw [hbells, hopen, hmiss, hat, hgood, hdev], hkw.trans (hgo.mono ?_)⟩
    constructor
    case regs => exact theRegs_mono (by simp)
    all_goals simp
  · rw [if_neg (by simpa using h16), if_neg h16]
    exact ⟨hw, by rw [hgood, hdev], by rw [hgood, hdev], hkw⟩

theorem bellExchange_run (off : Int) (plock : Bool) (s : State) :
    let t := (bellExchange off plock).run s
    (s.bellState = bAcquiring → t.bellState =
      (if 16 ≤ (if off.natAbs ≤ 32 ∧ plock = true then s.dev.bellSync.good + 1 else 0) then bLocked else bAcquiring)) ∧
    (s.bellState = bHoldover → t.bellState = if off.natAbs ≤ 16000 then bLocked else bAcquiring) ∧
    (s.bellState ≠ bAcquiring → s.bellState ≠ bHoldover → t.bellState = s.bellState) ∧
    t.dev.bell = (if s.mayStep = true ∧ s.bellState = bAcquiring then s.countLess off else s.dev.bell) ∧
    (t.dev.bells, t.dev.bellSync.opened, t.dev.bellSync.misses, t.dev.bellSync.at') =
      (s.dev.bells, s.dev.bellSync.opened, s.dev.bellSync.misses, s.dev.bellSync.at') ∧
    Keeps { regs := theRegs pgBell [R.bell_STEP_CNT, R.bell_STATUS_STATE, R.STATE_STATE, R.CRIER_LINE_RAISED], dev := True } s t := by
  rw [bellExchange, Prog.run_get]
  by_cases ha : s.bellState = bAcquiring
  · rw [if_pos ha]
    have hfacts := acquires_run (s.countLess off) (if off.natAbs ≤ 32 ∧ plock then s.dev.bellSync.good + 1 else 0) ha
    rw [acquires] at hfacts
    generalize (Prog.all [bellStep (s.countLess off), _, _]).run s = t at *
    obtain ⟨hst, hbell, hrest, hkeep⟩ := hfacts
    refine ⟨fun _ => hst, fun hh => absurd (ha.symm.trans hh) (by decide), fun hn => absurd ha hn, ?_, hrest, hkeep⟩
    rw [hbell]
    simp only [ha, and_true]
  · rw [if_neg ha]
    by_cases hh : s.bellState = bHoldover
    · rw [if_pos hh]
      have hlt : (if off.natAbs ≤ 16000 then bLocked else bAcquiring) < 8 := by split <;> decide
      have hne : (if off.natAbs ≤ 16000 then bLocked else bAcquiring) ≠ bHoldover := by split <;> decide
      obtain ⟨hst, hrest⟩ := bellGo_run hlt s
      have hgo := bellGo_keeps_up hne s
      generalize (bellGo (if off.natAbs ≤ 16000 then bLocked else bAcquiring)).run s = t at *
      simp only [bellRest, Prod.mk.injEq] at hrest
      obtain ⟨hbell, hbells, hopen, hmiss, hat, -⟩ := hrest
      refine ⟨fun h => absurd h ha, fun _ => hst, fun _ hn => absurd hh hn, ?_, by rw [hbells, hopen, hmiss, hat], hgo.mono ?_⟩
      · rw [hbell, if_neg fun h => ha h.2]
      · constructor
        case regs => exact theRegs_mono (by simp)
        all_goals simp
    · rw [if_neg hh]
      exact ⟨fun h => absurd h ha, fun h => absurd h hh, fun _ _ => rfl, by rw [if_neg fun h => ha h.2]; rfl, rfl, Keeps.refl _ s⟩

/-! ### DELAY_RESP and COARSE -/

/-- What a DELAY_RESP records of its exchange. -/
def exchForms (l : Nat) (off del : Int) : Prog := .all [
  modSync (fun b => { b with opened := b.opened.filter (fun x => x.link != l) }),
  bump pgBell R.bell_EXCH_CNT,
  setReg pgBell R.bell_OFFSET.off (BitVec.ofInt 32 off),
  setReg pgBell R.bell_DELAY.off (BitVec.ofInt 32 del),
  eff .seq]

theorem exchForms_run (l : Nat) (off del : Int) (s : State) :
    let t := (exchForms l off del).run s
    t.dev = { s.dev with bellSync := { s.dev.bellSync with opened := s.dev.bellSync.opened.filter (fun x => x.link != l) } } ∧
    Counts s t pgBell R.bell_EXCH_CNT 1 ∧ t.reg pgBell R.bell_OFFSET.off = BitVec.ofInt 32 off ∧ t.reg pgBell R.bell_DELAY.off = BitVec.ofInt 32 del ∧
    Keeps { regs := theRegs pgBell [R.bell_EXCH_CNT, R.bell_OFFSET, R.bell_DELAY], dev := True, seq := True } s t := by
  have hfirst : (exchForms l off del).run s = (Prog.all [bump pgBell R.bell_EXCH_CNT, setReg pgBell R.bell_OFFSET.off (BitVec.ofInt 32 off),
      setReg pgBell R.bell_DELAY.off (BitVec.ofInt 32 del), eff .seq]).run
      ((modSync (fun b => { b with opened := b.opened.filter (fun x => x.link != l) })).run s) := by
    simp -implicitDefEqProofs only [exchForms, Prog.run_all_cons, Prog.run_all_nil]
  have hdev : ((modSync (fun b => { b with opened := b.opened.filter (fun x => x.link != l) })).run s).dev =
    { s.dev with bellSync := { s.dev.bellSync with opened := s.dev.bellSync.opened.filter (fun x => x.link != l) } } := rfl
  have hkeep : Keeps { dev := True } s ((modSync (fun b => { b with opened := b.opened.filter (fun x => x.link != l) })).run s) :=
    Prog.keeps (by simp) s
  rw [hfirst]
  generalize (modSync (fun b => { b with opened := b.opened.filter (fun x => x.link != l) })).run s = u at *
  refine ⟨hdev, ?_, ?_, ?_, (hkeep.mono (by constructor <;> simp)).trans (Prog.keeps (by simp [Touch.allows]) u)⟩
  · have := hkeep.reg_eq (p := pgBell) (o := R.bell_EXCH_CNT.off) id
    simp -implicitDefEqProofs [Counts]
    exact congrArg (satAdd · 1) this
  · simp -implicitDefEqProofs
  · simp -implicitDefEqProofs

/-- The return to the parent link. -/
def returns : Prog := .all [
  modSync (fun b => { b with back := 0, misses := 0 }), setFld pgBell R.bell_STATUS_ON_ALT 0, bump pgBell R.bell_LINK_SWITCH_CNT]

/-- What follows an exchange on the parent link while the alternate is in use. -/
def backOn : Prog := .get (fun s => if 15 ≤ s.dev.bellSync.back then returns else modSync (fun b => { b with back := b.back + 1 }))

theorem exec_delayResp {k l : Nat} {b : BitVec 61} {e : Exchange} {off del : Int} (h : s.dev.bells[k]? = some (l, b)) (ho : (bellMsg b).op = 2)
    (hd : (bellMsg b).dev = s.self) (he : s.dev.bellSync.opened.find? (fun e => e.link == l && e.seq == (bellMsg b).seq) = some e)
    (hoff : 2 * off = (e.t2 - e.t1) - (rebuild s.fine (bellMsg b).t - e.t3)) (hdel : 2 * del = (e.t2 - e.t1) + (rebuild s.fine (bellMsg b).t - e.t3)) :
    (l = s.bellLink → exec (.delayResp k) s =
      .next ((steered off (e.plock && (bellMsg b).plock) s.now).run ((exchForms l off del).run ((unlistBell k).run s)))) ∧
    (l ≠ s.bellLink → exec (.delayResp k) s = .next (backOn.run ((exchForms l off del).run ((unlistBell k).run s)))) := by
  have hexec : exec (.delayResp k) s = .next ((takeBell k 2 _).run s) := rfl
  rw [takeBell_here h ho hd] at hexec
  have hsync : ((unlistBell k).run s).dev.bellSync = s.dev.bellSync := rfl
  have hfine : ((unlistBell k).run s).fine = s.fine := rfl
  have hlink : ((unlistBell k).run s).bellLink = s.bellLink := rfl
  have hnow : ((unlistBell k).run s).now = s.now := rfl
  have hback : ((exchForms l off del).run ((unlistBell k).run s)).dev.bellSync.back = s.dev.bellSync.back := rfl
  refine ⟨fun hl => hexec.trans (congrArg _ ?_), fun hl => hexec.trans (congrArg _ ?_)⟩
  · simp -implicitDefEqProofs only [Prog.run_get, hsync, he, hfine, halved_even _ hoff, halved_even _ hdel, hlink, if_pos hl, Prog.run_all_cons,
      Prog.run_all_nil, exchForms, steered, hnow]
  · simp -implicitDefEqProofs only [Prog.run_get, hsync, he, hfine, halved_even _ hoff, halved_even _ hdel, hlink, if_neg hl, Prog.run_all_cons,
      Prog.run_all_nil, exchForms, backOn, returns]
    rfl

theorem backOn_run (s : State) :
    let t := backOn.run s
    t.bellState = s.bellState ∧ t.bit pgBell R.bell_STATUS_ON_ALT = (if 15 ≤ s.dev.bellSync.back then false else s.bit pgBell R.bell_STATUS_ON_ALT) ∧
    Counts s t pgBell R.bell_LINK_SWITCH_CNT (if 15 ≤ s.dev.bellSync.back then 1 else 0) ∧
    t.dev.bellSync.back = (if 15 ≤ s.dev.bellSync.back then 0 else s.dev.bellSync.back + 1) ∧
    (t.dev.bell, t.dev.bells, t.dev.bellSync.opened) = (s.dev.bell, s.dev.bells, s.dev.bellSync.opened) ∧
    Keeps { regs := theRegs pgBell [R.bell_STATUS_ON_ALT, R.bell_LINK_SWITCH_CNT], dev := True } s t := by
  rw [backOn, Prog.run_get]
  by_cases hb : 15 ≤ s.dev.bellSync.back
  · simp only [if_pos hb]
    have hfirst : returns.run s = (Prog.all [setFld pgBell R.bell_STATUS_ON_ALT 0, bump pgBell R.bell_LINK_SWITCH_CNT]).run
        ((modSync (fun b => { b with back := 0, misses := 0 })).run s) := by
      simp -implicitDefEqProofs only [returns, Prog.run_all_cons, Prog.run_all_nil]
    have hdev : ((modSync (fun b => { b with back := 0, misses := 0 })).run s).dev =
      { s.dev with bellSync := { s.dev.bellSync with back := 0, misses := 0 } } := rfl
    have hkeep : Keeps { dev := True } s ((modSync (fun b => { b with back := 0, misses := 0 })).run s) := Prog.keeps (by simp) s
    rw [hfirst]
    generalize (modSync (fun b => { b with back := 0, misses := 0 })).run s = u at *
    have hudev : ((Prog.all [setFld pgBell R.bell_STATUS_ON_ALT 0, bump pgBell R.bell_LINK_SWITCH_CNT]).run u).dev = u.dev := rfl
    refine ⟨?_, ?_, ?_, by rw [hudev, hdev], by rw [hudev, hdev], (hkeep.mono (by constructor <;> simp)).trans (Prog.keeps (by simp) u)⟩
    · rw [State.bellState, State.bellState, ← hkeep.fld_eq (p := pgBell) (f := R.bell_STATUS_STATE) id]
      simp -implicitDefEqProofs
    · simp -implicitDefEqProofs [State.bit]
    · have := hkeep.reg_eq (p := pgBell) (o := R.bell_LINK_SWITCH_CNT.off) id
      simp -implicitDefEqProofs [Counts]
      exact congrArg (satAdd · 1) this
  · simp only [if_neg hb]
    refine ⟨rfl, rfl, ?_, rfl, rfl, Prog.keeps (by simp) s⟩
    rw [Counts, satAdd_zero]
    rfl

theorem sixteen_good {off : Int} {p q : Bool} {good : Nat} :
    (16 ≤ (if off.natAbs ≤ 32 ∧ (p && q) = true then good + 1 else 0)) ↔ (off.natAbs ≤ 32 ∧ p = true ∧ q = true ∧ 15 ≤ good) := by
  split
  next h =>
    obtain ⟨hoff, hpq⟩ := h
    obtain ⟨hp, hq⟩ := (Bool.and_eq_true _ _).mp hpq
    exact ⟨fun hg => ⟨hoff, hp, hq, by omega⟩, fun hg => by omega⟩
  next h => exact ⟨fun hg => by omega, fun hg => absurd ⟨hg.1, (Bool.and_eq_true _ _).mpr ⟨hg.2.1, hg.2.2.1⟩⟩ h⟩

/-- What an exchange on the link in use has noted before the rate is corrected. -/
def noteExchange (now : Nat) : Prog := modSync (fun b => { b with misses := 0, at' := now })

theorem mayStep_of_keeps {T : Touch} {t : State} (h : Keeps T s t) (hT : ∀ c, ∀ f ∈ [R.CTL_ENABLE, R.STATE_STATE], ¬ T.regs ((pgReeve c).base + f.off)) :
    t.mayStep = s.mayStep := by
  rw [State.mayStep, State.mayStep]
  congr 1
  funext c
  rw [State.enabled, State.enabled, h.bit_eq (hT c _ (by simp)), h.fld_eq (hT c _ (by simp))]

theorem steered_run (off : Int) (p q : Bool) (now : Nat) (s : State) :
    let t := (steered off (p && q) now).run s
    (t.dev.bells, t.dev.bellSync.opened, t.dev.bellSync.misses, t.dev.bellSync.at') = (s.dev.bells, s.dev.bellSync.opened, 0, now) ∧
    t.bellAdj ≤ 500000 ∧ -500000 ≤ t.bellAdj ∧ (off = 0 → t.bellAdj = 0) ∧ (0 < off → t.bellAdj ≤ 0) ∧ (off < 0 → 0 ≤ t.bellAdj) ∧
    t.dev.bell = (if s.mayStep = true ∧ s.bellState = bAcquiring then s.countLess off else s.dev.bell) ∧
    (s.bellState = bAcquiring → t.bellState = if off.natAbs ≤ 32 ∧ p = true ∧ q = true ∧ 15 ≤ s.dev.bellSync.good then bLocked else bAcquiring) ∧
    (s.bellState = bHoldover → t.bellState = if off.natAbs ≤ 16000 then bLocked else bAcquiring) ∧
    (s.bellState ≠ bAcquiring → s.bellState ≠ bHoldover → t.bellState = s.bellState) ∧
    Keeps { regs := theRegs pgBell [R.bell_FREQ_ADJ, R.bell_STEP_CNT, R.bell_STATUS_STATE, R.STATE_STATE, R.CRIER_LINE_RAISED], dev := True,
            seq := True } s t := by
  have hsplit : (steered off (p && q) now).run s = (bellExchange off (p && q)).run ((steer off).run ((noteExchange now).run s)) := by
    rw [steered, Prog.run_all_cons, Prog.run_all_cons, Prog.run_all_cons, Prog.run_all_nil]
    rfl
  have hdev : ((noteExchange now).run s).dev = { s.dev with bellSync := { s.dev.bellSync with misses := 0, at' := now } } := rfl
  have hnote : Keeps { dev := True } s ((noteExchange now).run s) := Prog.keeps (by simp [noteExchange]) s
  rw [hsplit]
  generalize (noteExchange now).run s = u at *
  obtain ⟨hle, hge, hzero, hpos, hneg, hsteer⟩ := steer_run off u
  generalize (steer off).run u = w at *
  obtain ⟨hacq, hhold, hrest, hbell, hsame, hexch⟩ := bellExchange_run off (p && q) w
  generalize (bellExchange off (p && q)).run w = t at *
  have hsw : Keeps { regs := theRegs pgBell [R.bell_FREQ_ADJ], dev := True, seq := True } s w :=
    (hnote.mono (by constructor <;> simp)).trans (hsteer.mono (by constructor <;> simp))
  have hst : w.bellState = s.bellState := hsw.fld_eq (not_theRegs_offset (by decide) _)
  have hwdev : w.dev = { s.dev with bellSync := { s.dev.bellSync with misses := 0, at' := now } } := (hsteer.dev id).trans hdev
  have hmay : w.mayStep = s.mayStep := mayStep_of_keeps hsw (fun c f hf => not_theRegs_apart (by
    have hlt : f.off < 4096 := by
      revert f
      decide
    simp [hlt]))
  have hadj : t.bellAdj = w.bellAdj := by
    rw [State.bellAdj, State.bellAdj, hexch.fld_eq (not_theRegs_offset (by decide) _)]
  have hgood : w.dev.bellSync.good = s.dev.bellSync.good := by rw [hwdev]
  have hless : w.countLess off = s.countLess off := by rw [State.countLess, State.countLess, hwdev]
  have hbells : w.dev.bell = s.dev.bell := by rw [hwdev]
  dsimp only
  rw [hadj]
  rw [hst] at hacq hhold hrest hbell
  rw [hmay, hless, hbells] at hbell
  rw [hgood] at hacq
  simp only [sixteen_good] at hacq
  refine ⟨by rw [hsame, hwdev], hle, hge, hzero, hpos, hneg, hbell, hacq, hhold, hrest, (hsw.mono ?_).trans (hexch.mono ?_)⟩
  all_goals
    constructor
    case regs => exact theRegs_mono (by simp)
    all_goals simp

/-! ### The clauses of the messages -/

section
variable {k l : Nat} {b : BitVec 61} (h : s.dev.bells[k]? = some (l, b)) (hd : (bellMsg b).dev = s.self)
include h hd

theorem unopened_dropped (hnone : s.dev.bellSync.opened.find? (fun e => e.link == l && e.seq == (bellMsg b).seq) = none) {r : Instr} {op : Nat}
    (hr : (r, op) ∈ [(Instr.delayResp k, 2), (.coarse k, 3)]) (ho : (bellMsg b).op = op) :
    exec r s = .next ((bump pgBell R.bell_MSG_DROP_CNT).run ((unlistBell k).run s)) := by
  have hsync : ((unlistBell k).run s).dev.bellSync = s.dev.bellSync := rfl
  have hmem : r = .delayResp k ∧ op = 2 ∨ r = .coarse k ∧ op = 3 := by simpa using hr
  obtain ⟨rfl, rfl⟩ | ⟨rfl, rfl⟩ := hmem
  · have hexec : exec (.delayResp k) s = .next ((takeBell k 2 _).run s) := rfl
    rw [takeBell_here h ho hd] at hexec
    refine hexec.trans (congrArg _ ?_)
    simp -implicitDefEqProofs only [Prog.run_get, hsync, hnone]
  · have hexec : exec (.coarse k) s = .next ((takeBell k 3 _).run s) := rfl
    rw [takeBell_here h ho hd] at hexec
    refine hexec.trans (congrArg _ ?_)
    have hany : (s.dev.bellSync.opened.any fun e => e.link == l && e.seq == (bellMsg b).seq) = false := by
      rw [List.any_eq_false]
      exact List.find?_eq_none.mp hnone
    simp -implicitDefEqProofs only [Prog.run_get, hsync, hany, Bool.not_false, if_true]

theorem delayResp_ends {e : Exchange} {off del : Int} (ho : (bellMsg b).op = 2)
    (he : s.dev.bellSync.opened.find? (fun e => e.link == l && e.seq == (bellMsg b).seq) = some e)
    (hoff : 2 * off = (e.t2 - e.t1) - (rebuild s.fine (bellMsg b).t - e.t3)) (hdel : 2 * del = (e.t2 - e.t1) + (rebuild s.fine (bellMsg b).t - e.t3))
    (hl : l = s.bellLink) :
    Leaves (exec (.delayResp k) s) fun t => (t.dev.bells = s.dev.bells.eraseIdx k ∧ Counts s t pgBell R.bell_EXCH_CNT 1 ∧
        t.reg pgBell R.bell_OFFSET.off = BitVec.ofInt 32 off ∧ t.reg pgBell R.bell_DELAY.off = BitVec.ofInt 32 del ∧
        (∀ x ∈ t.dev.bellSync.opened, x.link ≠ l)) ∧
        t.dev.bellSync.misses = 0 ∧ t.dev.bellSync.at' = s.now ∧ t.bellAdj ≤ 500000 ∧ -500000 ≤ t.bellAdj ∧
        (off = 0 → t.bellAdj = 0) ∧ (0 < off → t.bellAdj ≤ 0) ∧ (off < 0 → 0 ≤ t.bellAdj) ∧
        t.dev.bell = (if s.mayStep = true ∧ s.bellState = bAcquiring then s.countLess off else s.dev.bell) ∧
        (s.bellState = bAcquiring → t.bellState =
          (if off.natAbs ≤ 32 ∧ e.plock = true ∧ (bellMsg b).plock = true ∧ 15 ≤ s.dev.bellSync.good then bLocked else bAcquiring)) ∧
        (s.bellState = bHoldover → t.bellState = if off.natAbs ≤ 16000 then bLocked else bAcquiring) ∧
        (s.bellState ≠ bAcquiring → s.bellState ≠ bHoldover → t.bellState = s.bellState) ∧
        Keeps { regs := theRegs pgBell [R.bell_EXCH_CNT, R.bell_OFFSET, R.bell_DELAY, R.bell_FREQ_ADJ, R.bell_STEP_CNT, R.bell_STATUS_STATE,
                  R.STATE_STATE, R.CRIER_LINE_RAISED], dev := True, seq := True } s t := by
  rw [(exec_delayResp h ho hd he hoff hdel).1 hl]
  refine Leaves.of_next ?_
  obtain ⟨hdev, hkeep⟩ := unlistBell_run k s
  generalize (unlistBell k).run s = u at *
  obtain ⟨hwdev, hcnt, hoffset, hdelay, hforms⟩ := exchForms_run l off del u
  generalize (exchForms l off del).run u = w at *
  obtain ⟨hsync, hle, hge, hzero, hpos, hneg, hbell, hacq, hhold, hother, hsteered⟩ := steered_run off e.plock (bellMsg b).plock s.now w
  generalize (steered off (e.plock && (bellMsg b).plock) s.now).run w = t at *
  have hsw : Keeps { regs := theRegs pgBell [R.bell_EXCH_CNT, R.bell_OFFSET, R.bell_DELAY], dev := True, seq := True } s w :=
    (hkeep.mono (by constructor <;> simp)).trans (hforms.mono (by constructor <;> simp))
  have hst : w.bellState = s.bellState := hsw.fld_eq (not_theRegs_offset (by decide) _)
  have hmay : w.mayStep = s.mayStep := mayStep_of_keeps hsw (fun c f hf => not_theRegs_apart (by
    have hlt : f.off < 4096 := by
      revert f
      decide
    simp [hlt]))
  have hbells : w.dev.bell = s.dev.bell := by rw [hwdev, hdev]
  have hless : w.countLess off = s.countLess off := by rw [State.countLess, State.countLess, hbells]
  have hgood : w.dev.bellSync.good = s.dev.bellSync.good := by rw [hwdev, hdev]
  simp only [Prod.mk.injEq] at hsync
  obtain ⟨hwaits, hopen, hmiss, hat⟩ := hsync
  rw [hst] at hacq hhold hother hbell
  rw [hmay, hless, hbells] at hbell
  rw [hgood] at hacq
  refine ⟨⟨by rw [hwaits, hwdev, hdev], ?_, ?_, ?_, ?_⟩, hmiss, hat, hle, hge, hzero, hpos, hneg, hbell, hacq, hhold, hother,
    (hsw.mono ?_).trans (hsteered.mono ?_)⟩
  · rw [Counts, hsteered.reg_eq (not_theRegs_offset (by decide) _), ← hkeep.reg_eq (p := pgBell) (o := R.bell_EXCH_CNT.off) id]
    exact hcnt
  · rw [hsteered.reg_eq (not_theRegs_offset (by decide) _), hoffset]
  · rw [hsteered.reg_eq (not_theRegs_offset (by decide) _), hdelay]
  · rw [hopen, hwdev]
    simp
  all_goals
    constructor
    case regs => exact theRegs_mono (by simp)
    all_goals simp

theorem delayResp_returns {e : Exchange} {off del : Int} (ho : (bellMsg b).op = 2)
    (he : s.dev.bellSync.opened.find? (fun e => e.link == l && e.seq == (bellMsg b).seq) = some e)
    (hoff : 2 * off = (e.t2 - e.t1) - (rebuild s.fine (bellMsg b).t - e.t3)) (hdel : 2 * del = (e.t2 - e.t1) + (rebuild s.fine (bellMsg b).t - e.t3))
    (hl : l ≠ s.bellLink) :
    Leaves (exec (.delayResp k) s) fun t => (t.dev.bells = s.dev.bells.eraseIdx k ∧ Counts s t pgBell R.bell_EXCH_CNT 1 ∧
        t.reg pgBell R.bell_OFFSET.off = BitVec.ofInt 32 off ∧ t.reg pgBell R.bell_DELAY.off = BitVec.ofInt 32 del ∧
        (∀ x ∈ t.dev.bellSync.opened, x.link ≠ l)) ∧ t.dev.bell = s.dev.bell ∧ t.bellState = s.bellState ∧
        t.bit pgBell R.bell_STATUS_ON_ALT = (if 15 ≤ s.dev.bellSync.back then false else s.bit pgBell R.bell_STATUS_ON_ALT) ∧
        Counts s t pgBell R.bell_LINK_SWITCH_CNT (if 15 ≤ s.dev.bellSync.back then 1 else 0) ∧
        t.dev.bellSync.back = (if 15 ≤ s.dev.bellSync.back then 0 else s.dev.bellSync.back + 1) ∧
        Keeps { regs := theRegs pgBell [R.bell_EXCH_CNT, R.bell_OFFSET, R.bell_DELAY, R.bell_STATUS_ON_ALT, R.bell_LINK_SWITCH_CNT], dev := True,
                seq := True } s t := by
  rw [(exec_delayResp h ho hd he hoff hdel).2 hl]
  refine Leaves.of_next ?_
  obtain ⟨hdev, hkeep⟩ := unlistBell_run k s
  generalize (unlistBell k).run s = u at *
  obtain ⟨hwdev, hcnt, hoffset, hdelay, hforms⟩ := exchForms_run l off del u
  generalize (exchForms l off del).run u = w at *
  obtain ⟨hst, halt, hswitch, hback, hsync, hbackOn⟩ := backOn_run w
  generalize backOn.run w = t at *
  have hsw : Keeps { regs := theRegs pgBell [R.bell_EXCH_CNT, R.bell_OFFSET, R.bell_DELAY], dev := True, seq := True } s w :=
    (hkeep.mono (by constructor <;> simp)).trans (hforms.mono (by constructor <;> simp))
  have hwback : w.dev.bellSync.back = s.dev.bellSync.back := by rw [hwdev, hdev]
  have hwst : w.bellState = s.bellState := hsw.fld_eq (not_theRegs_offset (by decide) _)
  have hwalt : w.bit pgBell R.bell_STATUS_ON_ALT = s.bit pgBell R.bell_STATUS_ON_ALT := hsw.bit_eq (not_theRegs_offset (by decide) _)
  simp only [Prod.mk.injEq] at hsync
  obtain ⟨hbell, hwaits, hopen⟩ := hsync
  rw [hwback] at halt hswitch hback
  rw [hwalt] at halt
  rw [hwst] at hst
  refine ⟨⟨by rw [hwaits, hwdev, hdev], ?_, ?_, ?_, ?_⟩, by rw [hbell, hwdev, hdev], hst, halt, ?_, hback, (hsw.mono ?_).trans (hbackOn.mono ?_)⟩
  · rw [Counts, hbackOn.reg_eq (not_theRegs_offset (by decide) _), ← hkeep.reg_eq (p := pgBell) (o := R.bell_EXCH_CNT.off) id]
    exact hcnt
  · rw [hbackOn.reg_eq (not_theRegs_offset (by decide) _), hoffset]
  · rw [hbackOn.reg_eq (not_theRegs_offset (by decide) _), hdelay]
  · rw [hopen, hwdev]
    simp
  · rw [Counts, ← hsw.reg_eq (p := pgBell) (o := R.bell_LINK_SWITCH_CNT.off) (not_theRegs_offset (by decide) _)]
    exact hswitch
  all_goals
    constructor
    case regs => exact theRegs_mono (by simp)
    all_goals simp

theorem coarse_sets (ho : (bellMsg b).op = 3)
    (hopen : s.dev.bellSync.opened.find? (fun e => e.link == l && e.seq == (bellMsg b).seq) ≠ none) :
    Leaves (exec (.coarse k) s) fun t =>
      t.dev = { s.dev with bells := s.dev.bells.eraseIdx k, bell := t.dev.bell } ∧
      t.dev.bell = (if l = s.bellLink ∧ s.bellState = bAcquiring ∧ s.mayStep = true then
        ((bellMsg b).t * 2 ^ 24 + s.bellNow % 2 ^ 24) * 10 ^ 9 + s.dev.bell % 10 ^ 9 else s.dev.bell) ∧
      Counts s t pgBell R.bell_STEP_CNT (if t.dev.bell = s.dev.bell then 0 else 1) ∧
      Keeps { regs := theRegs pgBell [R.bell_STEP_CNT], dev := True } s t := by
  have hany : (s.dev.bellSync.opened.any fun e => e.link == l && e.seq == (bellMsg b).seq) = true := by
    rw [List.any_eq_true]
    obtain ⟨e, he⟩ := Option.ne_none_iff_exists'.mp hopen
    exact ⟨e, List.mem_of_find?_eq_some he, List.find?_some (p := fun e : Exchange => e.link == l && e.seq == (bellMsg b).seq) he⟩
  obtain ⟨hdev, hkeep⟩ := unlistBell_run k s
  have hexec : exec (.coarse k) s = .next ((takeBell k 3 _).run s) := rfl
  rw [takeBell_here h ho hd] at hexec
  generalize (unlistBell k).run s = u at *
  have hsync : u.dev.bellSync = s.dev.bellSync := by rw [hdev]
  have hbell : u.dev.bell = s.dev.bell := by rw [hdev]
  have hlink : u.bellLink = s.bellLink := by
    rw [State.bellLink, State.bellLink, hkeep.bit_eq id, hkeep.fld_eq id, hkeep.fld_eq id]
  have hst : u.bellState = s.bellState := hkeep.fld_eq id
  have hnow : u.bellNow = s.bellNow := by rw [State.bellNow, State.bellNow, hbell]
  have hmay : u.mayStep = s.mayStep := mayStep_of_keeps hkeep (fun _ _ _ => id)
  simp -implicitDefEqProofs only [Prog.run_get, hsync, hany, Bool.not_true, Bool.false_eq_true, if_false, hlink, hst, hnow, hbell] at hexec
  rw [hexec]
  refine Leaves.of_next ?_
  rw [Prog.run_when]
  by_cases hc : l = s.bellLink ∧ s.bellState = bAcquiring
  · obtain ⟨hl, ha⟩ := hc
    rw [if_pos (by simp [hl, ha])]
    obtain ⟨hbdev, hcnt, hbkeep⟩ := bellStep_run (((bellMsg b).t * 2 ^ 24 + s.bellNow % 2 ^ 24) * 10 ^ 9 + s.dev.bell % 10 ^ 9) u
    generalize (bellStep _).run u = t at *
    have htb : t.dev.bell = if u.mayStep = true then ((bellMsg b).t * 2 ^ 24 + s.bellNow % 2 ^ 24) * 10 ^ 9 + s.dev.bell % 10 ^ 9 else u.dev.bell := by
      rw [hbdev]
    refine ⟨by rw [hbdev, hdev], ?_, ?_, (hkeep.mono (by constructor <;> simp)).trans hbkeep⟩
    · simp only [htb, hmay, hbell, hl, ha, true_and]
    · rw [Counts, ← hkeep.reg_eq (p := pgBell) (o := R.bell_STEP_CNT.off) id, ← hbell]
      exact hcnt
  · rw [if_neg (by simpa using hc), if_neg (fun hh => hc ⟨hh.1, hh.2.1⟩), if_pos hbell]
    refine ⟨by rw [hdev], hbell, ?_, hkeep.mono (by constructor <;> simp)⟩
    rw [Counts, satAdd_zero]
    exact hkeep.reg_eq (p := pgBell) (o := R.bell_STEP_CNT.off) id

end

/-! ### Exchanges missed -/

/-- An exchange on link `l` is missed: what is noted of it at once. -/
def missForms (l : Nat) : Prog := .all [
  bump pgBell R.bell_MISS_CNT, modSync (fun b => { b with opened := b.opened.filter (fun e => e.link != l) })]

theorem missForms_run (l : Nat) (s : State) :
    let t := (missForms l).run s
    t.dev = { s.dev with bellSync := { s.dev.bellSync with opened := s.dev.bellSync.opened.filter (fun x => x.link != l) } } ∧
    Counts s t pgBell R.bell_MISS_CNT 1 ∧ Keeps { regs := theRegs pgBell [R.bell_MISS_CNT], dev := True } s t := by
  obtain ⟨hcnt, hbump⟩ := bumpBy_run pgBell R.bell_MISS_CNT 1 s
  rw [missForms, Prog.run_all_cons, Prog.run_all_cons, Prog.run_all_nil]
  have hone : bump pgBell R.bell_MISS_CNT = bumpBy pgBell R.bell_MISS_CNT 1 := rfl
  have hs := hbump.dev id
  rw [hone]
  generalize (bumpBy pgBell R.bell_MISS_CNT 1).run s = u at *
  have hdev : ((modSync (fun b => { b with opened := b.opened.filter (fun e => e.link != l) })).run u).dev =
    { u.dev with bellSync := { u.dev.bellSync with opened := u.dev.bellSync.opened.filter (fun x => x.link != l) } } := rfl
  have hkeep : Keeps { dev := True } u ((modSync (fun b => { b with opened := b.opened.filter (fun e => e.link != l) })).run u) :=
    Prog.keeps (by simp) u
  refine ⟨by rw [hdev, hs], ?_, (hbump.mono (by constructor <;> simp)).trans (hkeep.mono (by constructor <;> simp))⟩
  rw [Counts, hkeep.reg_eq id]
  exact hcnt

theorem exec_bellExchangeMiss {l : LinkId} (h : s.bellHears l.val = true) :
    (l.val ≠ s.bellLink → exec (.bellExchangeMiss l) s = .next ((modSync (fun b => { b with back := 0 })).run ((missForms l.val).run s))) ∧
    (l.val = s.bellLink → s.dev.bellSync.misses < 7 → exec (.bellExchangeMiss l) s =
      .next ((modSync (fun b => { b with misses := b.misses + 1 })).run ((missForms l.val).run s))) ∧
    (l.val = s.bellLink → 7 ≤ s.dev.bellSync.misses → exec (.bellExchangeMiss l) s = .next (bellLost.run ((missForms l.val).run s))) := by
  have hexec : exec (.bellExchangeMiss l) s = .next ((if l.val = s.bellLink then
      if 7 ≤ s.dev.bellSync.misses then bellLost else modSync (fun b => { b with misses := b.misses + 1 })
      else modSync (fun b => { b with back := 0 })).run ((missForms l.val).run s)) := by
    show execBellExchangeMiss l s = _
    simp -implicitDefEqProofs only [execBellExchangeMiss, Prog.next_eq, Prog.run_get, h, Bool.not_true, Bool.false_eq_true, if_false,
      Prog.run_all_cons, Prog.run_all_nil, missForms]
  refine ⟨fun hl => ?_, fun hl hm => ?_, fun hl hm => ?_⟩
  · rw [hexec, if_neg hl]
  · rw [hexec, if_pos hl, if_neg (by omega)]
  · rw [hexec, if_pos hl, if_pos hm]

/-- The count of missed exchanges begins anew. -/
def missesReset : Prog := modSync (fun b => { b with misses := 0, back := 0 })

/-- The move to the alternate link. -/
def toAlternate : Prog := .all [setFld pgBell R.bell_STATUS_ON_ALT 1, bump pgBell R.bell_LINK_SWITCH_CNT]

/-- The alternate link is free to take over. -/
def State.otherLink (s : State) : Prop :=
  s.bit pgBell R.bell_STATUS_ON_ALT = false ∧ s.bit pgBell R.bell_CFG_ALT_EN = true ∧ s.linkUp (s.fld pgBell R.bell_CFG_ALT_LINK) = true

theorem bellLost_cases (s : State) :
    (s.otherLink → bellLost.run s = toAlternate.run (missesReset.run s)) ∧
    (¬ s.otherLink → s.bellState = bLocked → bellLost.run s = (bellGo bHoldover).run (missesReset.run s)) ∧
    (¬ s.otherLink → s.bellState ≠ bLocked → bellLost.run s = missesReset.run s) := by
  have hcond : ((!s.bit pgBell R.bell_STATUS_ON_ALT && s.bit pgBell R.bell_CFG_ALT_EN && s.linkUp (s.fld pgBell R.bell_CFG_ALT_LINK)) = true) ↔
      s.otherLink := by
    simp only [State.otherLink, Bool.and_eq_true, Bool.not_eq_true', and_assoc]
  have hrun : bellLost.run s = (if (!s.bit pgBell R.bell_STATUS_ON_ALT && s.bit pgBell R.bell_CFG_ALT_EN && s.linkUp (s.fld pgBell R.bell_CFG_ALT_LINK)) = true
      then toAlternate else Prog.when (s.bellState == bLocked) (bellGo bHoldover)).run (missesReset.run s) := by
    simp -implicitDefEqProofs only [bellLost, Prog.run_get, Prog.run_all_cons, Prog.run_all_nil, missesReset, toAlternate]
  refine ⟨fun ho => ?_, fun ho hst => ?_, fun ho hst => ?_⟩
  · rw [hrun, if_pos (hcond.mpr ho)]
  · rw [hrun, if_neg (mt hcond.mp ho), hst]
    rfl
  · rw [hrun, if_neg (mt hcond.mp ho), beq_eq_false_iff_ne.mpr hst]
    rfl

theorem toAlternate_run (s : State) :
    let t := toAlternate.run s
    t.bit pgBell R.bell_STATUS_ON_ALT = true ∧ Counts s t pgBell R.bell_LINK_SWITCH_CNT 1 ∧ t.bellState = s.bellState ∧ t.dev = s.dev ∧
    Keeps { regs := theRegs pgBell [R.bell_STATUS_ON_ALT, R.bell_LINK_SWITCH_CNT] } s t := by
  refine ⟨?_, ?_, ?_, rfl, Prog.keeps (by simp [toAlternate]) s⟩
  · simp -implicitDefEqProofs [toAlternate, State.bit]
  · simp -implicitDefEqProofs [toAlternate, Counts]
  · simp -implicitDefEqProofs [toAlternate, State.bellState]

/-- A change of STATE ends the count of good exchanges and raises the line. -/
def quietly : Prog := .all [modSync (fun b => { b with good := 0 }), raiseLine pgBell]

/-- From LOCKED the Bell enters HOLDOVER, counted, and Watch hears of it. -/
theorem holdover_run (h : s.bellState = bLocked) :
    let t := (bellGo bHoldover).run s
    t.bellState = bHoldover ∧ Counts s t pgBell R.bell_HOLDOVER_CNT 1 ∧ t.dev.bell = s.dev.bell ∧ t.dev.watchDue = s.dev.watchDue ++ [15] ∧
    Keeps { regs := theRegs pgBell [R.bell_STATUS_STATE, R.bell_HOLDOVER_CNT, R.CRIER_LINE_RAISED], dev := True } s t := by
  obtain ⟨hst, hrest⟩ := bellGo_run (st := bHoldover) (by decide) s
  have hrun : (bellGo bHoldover).run s =
      (tellWatch 15).run (quietly.run ((bump pgBell R.bell_HOLDOVER_CNT).run ((setFld pgBell R.bell_STATUS_STATE bHoldover).run s))) := by
    have hne : (bHoldover == bLocked) = false := by decide
    rw [bellGo, Prog.run_get, if_neg (by rw [h]; decide)]
    simp -implicitDefEqProofs only [quietly, Prog.run_all_cons, Prog.run_all_nil, Prog.run_when, hne, beq_self_eq_true, if_true, Bool.false_and,
      Bool.false_eq_true, if_false]
  have hkeep : Keeps { regs := theRegs pgBell [R.bell_STATUS_STATE, R.bell_HOLDOVER_CNT, R.CRIER_LINE_RAISED], dev := True } s
      ((bellGo bHoldover).run s) := by
    rw [hrun]
    refine Keeps.trans (t := (setFld pgBell R.bell_STATUS_STATE bHoldover).run s) (Prog.keeps (by simp) s) ?_
    have hrest := Prog.keeps (p := .all [bump pgBell R.bell_HOLDOVER_CNT, quietly, tellWatch 15])
      (T := { regs := theRegs pgBell [R.bell_STATUS_STATE, R.bell_HOLDOVER_CNT, R.CRIER_LINE_RAISED], dev := True }) (by simp [quietly])
      ((setFld pgBell R.bell_STATUS_STATE bHoldover).run s)
    simpa -implicitDefEqProofs only [Prog.run_all_cons, Prog.run_all_nil] using hrest
  refine ⟨hst, ?_, (Prod.mk.inj hrest).1, ?_, hkeep⟩
  · have hset : ((setFld pgBell R.bell_STATUS_STATE bHoldover).run s).reg pgBell R.bell_HOLDOVER_CNT.off = s.reg pgBell R.bell_HOLDOVER_CNT.off :=
      Keeps.reg_eq (T := { regs := theRegs pgBell [R.bell_STATUS_STATE] }) (Prog.keeps (by simp) s) (not_theRegs_offset (by decide) _)
    have htail := Prog.keeps (p := .all [quietly, tellWatch 15]) (T := { regs := theRegs pgBell [R.CRIER_LINE_RAISED], dev := True })
      (by simp [quietly]) ((bump pgBell R.bell_HOLDOVER_CNT).run ((setFld pgBell R.bell_STATUS_STATE bHoldover).run s))
    obtain ⟨hcnt, -⟩ := bumpBy_run pgBell R.bell_HOLDOVER_CNT 1 ((setFld pgBell R.bell_STATUS_STATE bHoldover).run s)
    simp -implicitDefEqProofs only [Prog.run_all_cons, Prog.run_all_nil] at htail
    rw [hrun, Counts, ← hset, ← hcnt]
    exact htail.reg_eq (o := R.bell_HOLDOVER_CNT.off) (not_theRegs_offset (by decide) _)
  · rw [hrun]
    have hquiet := looks_run (p := .all [setFld pgBell R.bell_STATUS_STATE bHoldover, bump pgBell R.bell_HOLDOVER_CNT, quietly])
      (v := fun d => d.watchDue) (fun d => by simp [quietly, modSync]) s
    simp -implicitDefEqProofs only [Prog.run_all_cons, Prog.run_all_nil] at hquiet
    exact congrArg (· ++ [15]) hquiet

/-! ### Faults of the Bell -/

theorem bellFault_run {cause : Nat} (hc : cause < 2 ^ R.FAULT_CAUSE.width) (s : State) :
    let t := (bellFault cause).run s
    Faults s t pgBell cause ∧ Floods s t (.alarm s.self s.stepIndex false) none ∧
    (s.underReset pgBell = false → t.bit pgBell R.CRIER_LINE_RAISED = true) ∧ Keeps { regs := theRegs pgBell faultRegs, links := (· < 16), dev := True } s t := by
  have hsplit : (bellFault cause).run s = (raiseAlarm false).run ((Prog.all [pageFault pgBell cause 0, raiseLine pgBell]).run s) := by
    simp -implicitDefEqProofs only [bellFault, Prog.run_all_cons, Prog.run_all_nil]
  have hfault := pageFault_faults pgBell hc 0 s
  have hline : s.underReset pgBell = false → ((Prog.all [pageFault pgBell cause 0, raiseLine pgBell]).run s).bit pgBell R.CRIER_LINE_RAISED = true := by
    intro hr
    rw [Prog.run_all_cons, Prog.run_all_cons, Prog.run_all_nil]
    have hk : Keeps { regs := theRegs pgBell faultRegs } s ((pageFault pgBell cause 0).run s) :=
      Prog.keeps (by simp [faultRegs]) s
    exact (raiseLine_run pgBell _).2.1 ((hk.underReset_eq id).trans hr)
  have hkeep : Keeps { regs := theRegs pgBell faultRegs } s ((Prog.all [pageFault pgBell cause 0, raiseLine pgBell]).run s) :=
    Prog.keeps (by simp [faultRegs]) s
  rw [hsplit]
  generalize (Prog.all [pageFault pgBell cause 0, raiseLine pgBell]).run s = u at *
  have halarm := Prog.keeps (p := raiseAlarm false) (T := { links := (· < 16) }) (by simp +contextual [raiseAlarm, flood]) u
  have hapart {p : Page} (hp : p.kind ≠ .bell) (hpl : p.placed) {f : Fld} (hf : f.off < 0x1000) : u.fld p f = s.fld p f :=
    congrArg f.of (hkeep.reg_eq (not_theRegs_apart (by simp [faultRegs, hf, hp, hpl])))
  have hself : u.self = s.self := hapart (by simp) (by simp) (by decide)
  have hidx : u.stepIndex = s.stepIndex := hapart (by simp) (by simp) (by decide)
  have hfl : Floods u ((raiseAlarm false).run u) (.alarm s.self s.stepIndex false) none := by
    rw [raiseAlarm, Prog.run_get, hself, hidx]
    exact flood_floods _ none u
  generalize (raiseAlarm false).run u = t at *
  refine ⟨hfault.congr (fun _ _ => rfl) (fun f _ => halarm.reg_eq id), fun q hq => ?_, fun hr => (halarm.bit_eq id).trans (hline hr),
    (hkeep.mono (by constructor <;> simp)).trans (halarm.mono (by constructor <;> simp))⟩
  have hup : u.linkUp q = s.linkUp q := by rw [State.linkUp, hapart (by simp) (by simp) (by decide), State.linkUp]
  rw [hfl q hq, hup, hkeep.links q id]

/-! ### The outputs -/

theorem todWord_bits (sec st acc seq : Nat) :
    let w := (todWord sec st acc seq).toNat
    w % 2 ^ 16 = 0x5AA5 ∧ w / 2 ^ 16 % 2 ^ 48 = sec % 2 ^ 48 ∧ w / 2 ^ 64 % 8 = st % 8 ∧ w / 2 ^ 67 % 32 = 0 ∧ w / 2 ^ 72 % 256 = acc % 256 ∧
    w / 2 ^ 80 % 256 = seq % 256 := by
  dsimp only [todWord]
  generalize hc : ((List.range 88).foldl _ 0 : BitVec 8) = crc
  have hcrc := crc.isLt
  rw [BitVec.toNat_ofNat]
  norm_num only at hcrc ⊢
  refine ⟨?_, ?_, ?_, ?_, ?_, ?_⟩ <;> omega

/-- The second that BELL_PPS begins. -/
def noteSecond (n : Nat) : Prog := modSync (fun b => { b with seconds := n })

theorem exec_bellPps (h : s.bellSends = true) :
    exec .bellPps s = .next ((Prog.when (s.bit pgBell R.bell_OUTCFG_PPS_EN) (emit (.pps (s.bellNow / 10 ^ 9)))).run
      ((noteSecond (s.bellNow / 10 ^ 9)).run s)) := by
  show execBellPps s = _
  simp -implicitDefEqProofs only [execBellPps, Prog.next_eq, Prog.run_get, h, Prog.run_when_true, Prog.run_all_cons, Prog.run_all_nil, State.bellDrives,
    Bool.and_true, noteSecond]

theorem exec_bellTod (h : s.bellDrives R.bell_OUTCFG_TOD_EN = true) :
    exec .bellTod s = .next ((modSync (fun b => { b with todSeq := (b.todSeq + 1) % 256 })).run
      ((emit (.tod (todWord s.dev.bellSync.seconds s.bellState s.bellAccuracy s.dev.bellSync.todSeq))).run s)) := by
  show execBellTod s = _
  simp -implicitDefEqProofs only [execBellTod, Prog.next_eq, Prog.run_get, h, Prog.run_when_true, Prog.run_all_cons, Prog.run_all_nil]

theorem bellNow_lt (s : State) : s.bellNow / 2 ^ 32 < 2 ^ 32 := by
  have h : s.bellNow < 2 ^ 64 := Nat.mod_lt _ (by decide)
  norm_num only at h ⊢
  omega

theorem outputs_of_bell (s : State) :
    let noted := { s.dev with bellSync := { s.dev.bellSync with seconds := s.bellNow / 10 ^ 9 } }
    (s.bellSends = false → exec .bellPps s = .next s) ∧
    (s.bellSends = true → s.bit pgBell R.bell_OUTCFG_PPS_EN = false → Leaves (exec .bellPps s) (fun t =>
      t.dev = noted ∧ Keeps { dev := True } s t)) ∧
    (s.bellSends = true → s.bit pgBell R.bell_OUTCFG_PPS_EN = true → Leaves (exec .bellPps s) (fun t =>
      t.dev = noted ∧ t.out = s.out ++ [.pps (s.bellNow / 10 ^ 9)] ∧ Keeps { dev := True, out := True } s t)) ∧
    (s.bellDrives R.bell_OUTCFG_TOD_EN = false → exec .bellTod s = .next s) ∧
    (s.bellDrives R.bell_OUTCFG_TOD_EN = true → Leaves (exec .bellTod s) (fun t =>
      (∃ w : BitVec 96, t.out = s.out ++ [.tod w] ∧ w.toNat % 2 ^ 16 = 0x5AA5 ∧
        w.toNat / 2 ^ 16 % 2 ^ 48 = s.dev.bellSync.seconds % 2 ^ 48 ∧ w.toNat / 2 ^ 64 % 8 = s.bellState % 8 ∧ w.toNat / 2 ^ 67 % 32 = 0 ∧
        w.toNat / 2 ^ 72 % 256 = s.bellAccuracy % 256 ∧ w.toNat / 2 ^ 80 % 256 = s.dev.bellSync.todSeq % 256) ∧
      t.dev = { s.dev with bellSync := { s.dev.bellSync with todSeq := (s.dev.bellSync.todSeq + 1) % 256 } } ∧
      Keeps { dev := True, out := True } s t)) ∧
    (s.underReset pgBell = true → exec .bellNowRead s = .next s) ∧
    (s.underReset pgBell = false → Leaves (exec .bellNowRead s) (fun t =>
      (t.reg pgBell R.bell_NOW_HI.off).toNat = s.bellNow / 2 ^ 32 ∧ Keeps { regs := theRegs pgBell [R.bell_NOW_HI] } s t)) := by
  refine ⟨fun h => ?_, fun h he => ?_, fun h he => ?_, fun h => ?_, fun h => ?_, fun h => ?_, fun h => ?_⟩
  · show execBellPps s = _
    rw [execBellPps, Prog.next_eq, Prog.run_get, h]
    rfl
  · rw [exec_bellPps h, he]
    exact Leaves.of_next ⟨rfl, Prog.keeps (by simp [noteSecond]) s⟩
  · rw [exec_bellPps h, he, Prog.run_when_true]
    refine Leaves.of_next ⟨rfl, rfl, ?_⟩
    exact Prog.keeps (p := .all [noteSecond (s.bellNow / 10 ^ 9), emit (.pps (s.bellNow / 10 ^ 9))]) (by simp [noteSecond]) s
  · show execBellTod s = _
    rw [execBellTod, Prog.next_eq, Prog.run_get, h]
    rfl
  · rw [exec_bellTod h]
    refine Leaves.of_next ⟨⟨_, rfl, todWord_bits ..⟩, rfl, ?_⟩
    exact (Prog.keeps (T := { dev := True, out := True }) (p := emit _) (by simp) s).trans (Prog.keeps (by simp) _)
  · show execBellNowRead s = _
    rw [execBellNowRead, Prog.next_eq, Prog.run_get, h]
    rfl
  · have hexec : exec .bellNowRead s = .next ((setReg pgBell R.bell_NOW_HI.off (BitVec.ofNat 32 (s.bellNow / 2 ^ 32))).run s) := by
      show execBellNowRead s = _
      rw [execBellNowRead, Prog.next_eq, Prog.run_get, h]
      rfl
    rw [hexec]
    refine Leaves.of_next ⟨?_, Prog.keeps (by simp) s⟩
    have hlt := bellNow_lt s
    norm_num only at hlt
    simp -implicitDefEqProofs [hlt]

/-! ### An exchange missed, by the link -/

theorem exchange_missed (s : State) (l : LinkId) :
    let y := s.dev.bellSync
    let other := s.bit pgBell R.bell_STATUS_ON_ALT = false ∧ s.bit pgBell R.bell_CFG_ALT_EN = true ∧
      s.linkUp (s.fld pgBell R.bell_CFG_ALT_LINK) = true
    let less := y.opened.filter (fun e => e.link != l.val)
    (s.bellHears l.val = false → exec (.bellExchangeMiss l) s = .next s) ∧
    (s.bellHears l.val = true → l.val ≠ s.bellLink ∨ y.misses < 7 → Leaves (exec (.bellExchangeMiss l) s) (fun t =>
      Counts s t pgBell R.bell_MISS_CNT 1 ∧
      t.dev = { s.dev with bellSync := { y with
        opened := less, misses := if l.val = s.bellLink then y.misses + 1 else y.misses, back := if l.val = s.bellLink then y.back else 0 } } ∧
      Keeps { regs := theRegs pgBell [R.bell_MISS_CNT], dev := True } s t)) ∧
    (s.bellHears l.val = true → l.val = s.bellLink → 7 ≤ y.misses →
      (other → Leaves (exec (.bellExchangeMiss l) s) (fun t => Counts s t pgBell R.bell_MISS_CNT 1 ∧
        t.dev = { s.dev with bellSync := { y with opened := less, misses := 0, back := 0 } } ∧
        t.bit pgBell R.bell_STATUS_ON_ALT = true ∧ Counts s t pgBell R.bell_LINK_SWITCH_CNT 1 ∧ t.bellState = s.bellState ∧
        Keeps { regs := theRegs pgBell [R.bell_MISS_CNT, R.bell_STATUS_ON_ALT, R.bell_LINK_SWITCH_CNT], dev := True } s t)) ∧
      (¬ other → s.bellState = bLocked → Leaves (exec (.bellExchangeMiss l) s) (fun t => Counts s t pgBell R.bell_MISS_CNT 1 ∧
        t.bellState = bHoldover ∧ Counts s t pgBell R.bell_HOLDOVER_CNT 1 ∧ t.dev.bell = s.dev.bell ∧ t.dev.watchDue = s.dev.watchDue ++ [15] ∧
        Keeps { regs := theRegs pgBell [R.bell_MISS_CNT, R.bell_STATUS_STATE, R.bell_HOLDOVER_CNT, R.CRIER_LINE_RAISED], dev := True } s t)) ∧
      (¬ other → s.bellState ≠ bLocked → Leaves (exec (.bellExchangeMiss l) s) (fun t => Counts s t pgBell R.bell_MISS_CNT 1 ∧
        t.dev = { s.dev with bellSync := { y with opened := less, misses := 0, back := 0 } } ∧
        Keeps { regs := theRegs pgBell [R.bell_MISS_CNT], dev := True } s t))) := by
  obtain ⟨hdev, hcnt, hkeep⟩ := missForms_run l.val s
  have hst : ((missForms l.val).run s).bellState = s.bellState := hkeep.fld_eq (not_theRegs_offset (by decide) _)
  have hother : ((missForms l.val).run s).otherLink ↔ s.otherLink := by
    have hup (q : Nat) : ((missForms l.val).run s).linkUp q = s.linkUp q := by
      rw [State.linkUp, hkeep.fld_eq (not_theRegs_apart (by simp)), State.linkUp]
    rw [State.otherLink, State.otherLink, hkeep.bit_eq (not_theRegs_offset (by decide) _), hkeep.bit_eq (not_theRegs_offset (by decide) _),
      hkeep.fld_eq (not_theRegs_offset (by decide) _), hup]
  obtain ⟨hto, hholds, hstays⟩ := bellLost_cases ((missForms l.val).run s)
  rw [hother] at hto hholds hstays
  rw [hst] at hholds hstays
  have hreset : Keeps { regs := theRegs pgBell [R.bell_MISS_CNT], dev := True } s (missesReset.run ((missForms l.val).run s)) :=
    hkeep.trans (Prog.keeps (by simp [missesReset]) _)
  have hrdev : (missesReset.run ((missForms l.val).run s)).dev =
      { s.dev with bellSync := { s.dev.bellSync with opened := s.dev.bellSync.opened.filter (fun e => e.link != l.val), misses := 0, back := 0 } } := by
    show { ((missForms l.val).run s).dev with bellSync := { ((missForms l.val).run s).dev.bellSync with misses := 0, back := 0 } } = _
    rw [hdev]
  have hrcnt : Counts s (missesReset.run ((missForms l.val).run s)) pgBell R.bell_MISS_CNT 1 := hcnt
  refine ⟨fun h => ?_, fun h hm => ?_, fun h hl hm => ⟨fun ho => ?_, fun ho hb => ?_, fun ho hb => ?_⟩⟩
  · show execBellExchangeMiss l s = _
    rw [execBellExchangeMiss, Prog.next_eq, Prog.run_get, h]
    rfl
  · obtain ⟨hfar, hnear, -⟩ := exec_bellExchangeMiss h
    by_cases hl : l.val = s.bellLink
    · rw [hnear hl (hm.resolve_left (absurd hl))]
      refine Leaves.of_next ⟨hcnt, ?_, hkeep.trans (Prog.keeps (by simp) _)⟩
      show { ((missForms l.val).run s).dev with bellSync := { ((missForms l.val).run s).dev.bellSync with
        misses := ((missForms l.val).run s).dev.bellSync.misses + 1 } } = _
      rw [hdev, if_pos hl, if_pos hl]
    · rw [hfar hl]
      refine Leaves.of_next ⟨hcnt, ?_, hkeep.trans (Prog.keeps (by simp) _)⟩
      show { ((missForms l.val).run s).dev with bellSync := { ((missForms l.val).run s).dev.bellSync with back := 0 } } = _
      rw [hdev, if_neg hl, if_neg hl]
  · rw [(exec_bellExchangeMiss h).2.2 hl hm, hto ho]
    generalize missesReset.run ((missForms l.val).run s) = w at *
    obtain ⟨halt, hswitch, hstate, htdev, htkeep⟩ := toAlternate_run w
    generalize toAlternate.run w = t at *
    refine ⟨t, rfl, ?_, htdev.trans hrdev, halt, ?_, ?_, (hreset.mono ?_).trans (htkeep.mono ?_)⟩
    · rw [Counts, htkeep.reg_eq (not_theRegs_offset (by decide) _)]
      exact hrcnt
    · rw [Counts, ← hreset.reg_eq (p := pgBell) (o := R.bell_LINK_SWITCH_CNT.off) (not_theRegs_offset (by decide) _)]
      exact hswitch
    · exact hstate.trans (hreset.fld_eq (not_theRegs_offset (by decide) _))
    all_goals
      constructor
      case regs => exact theRegs_mono (by simp)
      all_goals simp
  · rw [(exec_bellExchangeMiss h).2.2 hl hm, hholds ho hb]
    generalize missesReset.run ((missForms l.val).run s) = w at *
    have hwst : w.bellState = bLocked := (hreset.fld_eq (not_theRegs_offset (by decide) _)).trans hb
    obtain ⟨hstate, hhold, hbell, hwatch, htkeep⟩ := holdover_run hwst
    generalize (bellGo bHoldover).run w = t at *
    refine ⟨t, rfl, ?_, hstate, ?_, by rw [hbell, hrdev], by rw [hwatch, hrdev], (hreset.mono ?_).trans (htkeep.mono ?_)⟩
    · rw [Counts, htkeep.reg_eq (not_theRegs_offset (by decide) _)]
      exact hrcnt
    · rw [Counts, ← hreset.reg_eq (p := pgBell) (o := R.bell_HOLDOVER_CNT.off) (not_theRegs_offset (by decide) _)]
      exact hhold
    all_goals
      constructor
      case regs => exact theRegs_mono (by simp)
      all_goals simp
  · rw [(exec_bellExchangeMiss h).2.2 hl hm, hstays ho hb]
    exact Leaves.of_next ⟨hrcnt, hrdev, hreset⟩

/-- Settles O43: each exchange by the link it came on, the losses by what the follower can still use, and the outputs by their rows. -/
theorem bellIsSteered : Obligations.BellIsSteered := by
  unfold Obligations.BellIsSteered
  refine ⟨fun s k l b h hd => ⟨fun r op hr ho hnone => ?_, fun e off del ho he hoff hdel => ⟨?_, ?_⟩, ?_⟩, exchange_missed, fun s diff => ?_,
    outputs_of_bell⟩
  · rw [unopened_dropped h hd hnone hr ho]
    exact Leaves.of_next (dropBell_run k s)
  · exact delayResp_ends h hd ho he hoff hdel
  · exact delayResp_returns h hd ho he hoff hdel
  · exact coarse_sets h hd
  · refine ⟨fun h => ?_, fun h => ⟨_, ?_, bellFault_run (by decide) s⟩, fun h => ?_, fun h => ⟨_, ?_, bellFault_run (by decide) s⟩⟩
    · show execBellCopyCheck diff s = _
      rw [execBellCopyCheck, Prog.next_eq, decide_eq_false (by omega)]
      rfl
    · show execBellCopyCheck diff s = _
      rw [execBellCopyCheck, Prog.next_eq, decide_eq_true h]
      rfl
    · show execHoldoverLimit s = _
      rw [execHoldoverLimit, Prog.next_eq, Prog.run_get, beq_eq_false_iff_ne.mpr h]
      rfl
    · show execHoldoverLimit s = _
      rw [execHoldoverLimit, Prog.next_eq, Prog.run_get, h]
      rfl

end Sys2Proof.Machine
end

open Host
section
/-! O27: the compares of Tally, from their sums to their verdicts (R224 to R226, R261). -/
namespace Sys2Proof.Machine

variable {s : State}

/-! ### The sums of a COMPARE -/

theorem carryCompare_run {c g : Nat} {r : MillRun} {k : Contrib} (hr : (s.croft c).mill = some r) (hcmp : r.cmp = some (g, k)) (hcar : r.carried = false)
    (hi : s.intact = true) (hclk : s.clockRuns c = true) (hreset : s.underReset (pgMill c) = false) :
    (carryCompare c).run s = (compareSums c r g k).run s := by
  rw [carryCompare, Prog.run_get, hr]
  simp -implicitDefEqProofs only [hcar, hcmp, hreset, hclk, Bool.false_eq_true, Bool.not_true, or_self, if_false, Prog.run_all_cons, Prog.run_all_nil,
    engineReads_run hi]

/-- What a croft's mill holds once a COMPARE's operands `x` and `y` have been read. -/
def MillRun.compared (r : MillRun) (g : Nat) (k : Contrib) (x y : List Val) : MillRun :=
  let d := List.zipWith (fun a b => rne (Val.sub a b)) x y
  let z : Pair := ⟨Val.zero false, Val.zero false⟩
  { r with
    carried := true
    cmp := some (g, { k with
      d := (lanePairs (d.map (fun v => prodPair v v))).getD z, q := (lanePairs (y.map (fun v => prodPair v v))).getD z
      nonfin := d.any (fun v => !v.isFin) }) }

theorem compareSums_run {c g : Nat} {r : MillRun} {k : Contrib} (hher : s.bit pgNum R.numstep_CFG_HERITAGE = false) :
    let t := (compareSums c r g k).run s
    t.croft c = { s.croft c with mill := some (r.compared g k
      (s.millRows c false (compareSlot (s.asRead c (r.args.slot 0)) r.len 0)).flatten
      (s.millRows c false (compareSlot (s.asRead c (r.args.slot 1)) r.len 0)).flatten) } ∧
    Keeps { regs := theRegs (pgCroft c) [R.croft_NAN_IN_CNT], crofts := (· = c) } s t := by
  have hkeep : Keeps { regs := theRegs (pgCroft c) [R.croft_NAN_IN_CNT], crofts := (· = c) } s ((compareSums c r g k).run s) :=
    Prog.keeps (by simp [compareSums, countNanIn, Prog.only_when]) s
  refine ⟨?_, hkeep⟩
  simp -implicitDefEqProofs only [compareSums, Prog.run_get, Prog.run_all_cons, Prog.run_all_nil, hher, modCroft_run_self]
  have hcroft (seen now : Bool) : ((countNanIn c seen now).run s).croft c = s.croft c :=
    Keeps.crofts (T := { regs := theRegs (pgCroft c) [R.croft_NAN_IN_CNT] }) (Prog.keeps (by simp [countNanIn, Prog.only_when]) s) c id
  rw [hcroft]
  rfl

/-! ### Contributions -/

/-- The `k`-th contribution leaves those on their way. -/
def unlistContrib (k : Nat) : Prog := modDev (fun d => { d with contribs := d.contribs.eraseIdx k })

theorem joinCompare_ne_nil {x : Contrib} {ls l : List (List Contrib)} (h : joinCompare x ls = some l) : l ≠ [] := by
  cases ls with
  | nil =>
    obtain rfl : [[x]] = l := by simpa [joinCompare] using h
    simp
  | cons y ys =>
    unfold joinCompare at h
    split at h
    · obtain ⟨_, -, rfl⟩ := Option.map_eq_some_iff.mp h
      simp
    · split at h
      · obtain rfl := Option.some.inj h
        simp
      · split at h
        · obtain rfl := Option.some.inj h
          simp
        · contradiction

theorem pending_bit {i : Nat} (hi : i < 16) {f : Fld} (hf : f = R.numstep_GROUP_STATUS_PENDING ∨ f = R.numstep_GROUP_STATUS_FAIL) (b : Bool) (s : State) :
    (((putBit pgNum f i b).run s).fld pgNum f / 2 ^ i % 2 = 1 ↔ b = true) := by
  have hw : f.lo + f.width ≤ 32 ∧ f.width = 16 := by
    obtain rfl | rfl := hf <;> decide
  have h := putBit_testBit hw.1 (hw.2 ▸ hi) pgNum b s (hw.2 ▸ hi)
  rw [if_pos rfl, Nat.testBit_eq_decide_div_mod_eq] at h
  simpa using Bool.eq_iff_iff.mp h

theorem setCompares_run {g : Nat} (hg : g < 16) (l : List (List Contrib)) (s : State) :
    let t := (setCompares g l).run s
    t.dev = { s.dev with groups := if l.isEmpty then Sparse.eraseRange s.dev.groups g (g + 1) else Sparse.set s.dev.groups g l } ∧
    (l ≠ [] → (t.fld pgNum R.numstep_GROUP_STATUS_PENDING / 2 ^ g % 2 = 1 ↔ compareFull (l.headD []) = false)) ∧
    Keeps { regs := theRegs pgNum [R.numstep_GROUP_STATUS_PENDING], dev := True } s t := by
  refine ⟨?_, fun hne => ?_, Prog.keeps (by simp [setCompares, putBit]) s⟩
  · simp -implicitDefEqProofs only [setCompares, Prog.run_all_cons, Prog.run_all_nil]
    exact Keeps.dev (T := { regs := theRegs pgNum [R.numstep_GROUP_STATUS_PENDING] }) (Prog.keeps (by simp [putBit]) _) id
  · obtain ⟨x, xs, rfl⟩ := List.exists_cons_of_ne_nil hne
    simp -implicitDefEqProofs only [setCompares, Prog.run_all_cons, Prog.run_all_nil, pending_bit hg (.inl rfl)]
    simp

theorem compares_setCompares {g : Nat} {s t : State} {l : List (List Contrib)}
    (h : t.dev.groups = if l.isEmpty then Sparse.eraseRange s.dev.groups g (g + 1) else Sparse.set s.dev.groups g l) : t.compares g = l := by
  rw [State.compares, h]
  cases l with
  | nil => simp [Sparse.get?_eraseRange]
  | cons x xs => simp

theorem modReeve_run_self (c : Nat) (f : Reeve → Reeve) (s : State) : ((modReeve c f).run s).reeve c = f (s.reeve c) :=
  congrArg Croft.reeve (modCroft_run_self c (fun k => { k with reeve := f k.reeve }) s)

/-- A contribution that disagrees with its group's first is a fault of its order. -/
def disagrees (c : Nat) (o : Issued) (a : Nat) : Prog := .all [
  pageFault (pgTally c) 2 a, raiseLine (pgTally c), orderFault c o.idx 8, dropOrder c o.serial, noVerdict c]

theorem orderHalt_names (c idx engine : Nat) (s : State) :
    ((orderHalt c idx engine).run s).fld (pgReeve c) R.reeve_FAULT_IDX_INDEX = idx % 2 ^ 24 := by
  have hidx : ((faultIdx c idx engine).run s).fld (pgReeve c) R.reeve_FAULT_IDX_INDEX = idx % 2 ^ 24 := by
    simp -implicitDefEqProofs [faultIdx]
  rw [orderHalt_run_eq]
  generalize (faultIdx c idx engine).run s = u at *
  have hkeep := (haltReq_keeps c 3 u).fld_eq (f := R.reeve_FAULT_IDX_INDEX) (p := pgReeve c) (not_theRegs_offset (by decide) _)
  exact ((stepEnds_keeps _).fld_eq id).trans (hkeep.trans hidx)

theorem Wait.afterHalt_none {w : Wait} : (if w == .verdict then Wait.none else w) ≠ .verdict := by
  split
  next => simp
  next h => simpa using h

theorem disagrees_run (c : Nat) (o : Issued) (a : Nat) (s : State) :
    let t := (disagrees c o a).run s
    t.fld (pgTally c) R.STATE_STATE = stFault ∧ (s.fld (pgTally c) R.STATE_STATE ≠ stFault → t.fld (pgTally c) R.FAULT_CAUSE = 2) ∧
    t.fld (pgReeve c) R.reeve_FAULT_IDX_INDEX = o.idx % 2 ^ 24 ∧ t.fld (pgReeve c) R.reeve_FAULT_IDX_ENGINE = 8 ∧
    (t.reeve c).orders = (s.reeve c).orders.filter (fun y => y.serial != o.serial) ∧ (t.reeve c).wait ≠ .verdict := by
  have hsplit : (disagrees c o a).run s = (noVerdict c).run ((dropOrder c o.serial).run ((tellWatch 14).run ((orderHalt c o.idx 8).run
      ((Prog.all [pageFault (pgTally c) 2 a, raiseLine (pgTally c)]).run s)))) := by
    simp -implicitDefEqProofs only [disagrees, orderFault, Prog.run_all_cons, Prog.run_all_nil]
  have hfault := pageFault_faults (pgTally c) (cause := 2) (by decide) a s
  have hkeep : Keeps { regs := theRegs (pgTally c) faultRegs } s ((Prog.all [pageFault (pgTally c) 2 a, raiseLine (pgTally c)]).run s) :=
    Prog.keeps (by simp [faultRegs]) s
  rw [hsplit]
  generalize (Prog.all [pageFault (pgTally c) 2 a, raiseLine (pgTally c)]).run s = u at *
  have hhalt := orderHalt_keeps c o.idx 8 u
  obtain ⟨r, hcroft, horders, -, -, hengine⟩ := orderHalt_run (engine := 8) (by decide) c o.idx u
  have hidx : ((orderHalt c o.idx 8).run u).fld (pgReeve c) R.reeve_FAULT_IDX_INDEX = o.idx % 2 ^ 24 := orderHalt_names ..
  generalize (orderHalt c o.idx 8).run u = w at *
  have htail : Keeps { crofts := (· = c), dev := True } w ((noVerdict c).run ((dropOrder c o.serial).run ((tellWatch 14).run w))) := by
    have := Prog.keeps (p := .all [tellWatch 14, dropOrder c o.serial, noVerdict c]) (T := { crofts := (· = c), dev := True }) (by simp [noVerdict]) w
    simpa -implicitDefEqProofs only [Prog.run_all_cons, Prog.run_all_nil] using this
  have hwait : ((noVerdict c).run ((dropOrder c o.serial).run ((tellWatch 14).run w))).reeve c =
      { w.reeve c with orders := (w.reeve c).orders.filter (fun y => y.serial != o.serial)
                       wait := if (w.reeve c).wait == .verdict then .none else (w.reeve c).wait } := by
    rw [noVerdict, dropOrder, modReeve_run_self, modReeve_run_self]
    rfl
  have hsame : u.reeve c = s.reeve c := congrArg Croft.reeve (hkeep.crofts c id)
  have hr : w.reeve c = r := congrArg Croft.reeve hcroft
  have hstate : w.fld (pgTally c) R.STATE_STATE = u.fld (pgTally c) R.STATE_STATE := hhalt.fld_eq (not_theRegs_apart (by simp))
  have hcause : w.fld (pgTally c) R.FAULT_CAUSE = u.fld (pgTally c) R.FAULT_CAUSE := hhalt.fld_eq (not_theRegs_apart (by simp))
  refine ⟨(htail.fld_eq id).trans (hstate.trans hfault.1), fun hn => (htail.fld_eq id).trans (hcause.trans (hfault.2 hn)), (htail.fld_eq id).trans hidx,
    (htail.fld_eq id).trans hengine, ?_, ?_⟩
  · rw [hwait, hr, horders, hsame]
  · rw [hwait]
    exact Wait.afterHalt_none

/-! ### Verdicts -/

/-- The frame of a verdict at one croft. -/
def verdictTouch (c : Nat) : Touch := { regs := onPages [pgTally c, pgReeve c], crofts := (· = c) }

/-- Two states agree on what a verdict sets of a croft. -/
def SameVerdict (c : Nat) (s t : State) : Prop :=
  t.croft c = s.croft c ∧ ∀ o < 0x1000, t.reg (pgTally c) o = s.reg (pgTally c) o ∧ t.reg (pgReeve c) o = s.reg (pgReeve c) o

theorem SameVerdict.refl (c : Nat) (s : State) : SameVerdict c s s := ⟨rfl, fun _ _ => ⟨rfl, rfl⟩⟩

theorem SameVerdict.trans (c : Nat) (a b d : State) (h : SameVerdict c a b) (h' : SameVerdict c b d) : SameVerdict c a d :=
  ⟨h'.1.trans h.1, fun o ho => ⟨(h'.2 o ho).1.trans (h.2 o ho).1, (h'.2 o ho).2.trans (h.2 o ho).2⟩⟩

theorem Keeps.sameVerdict {c k : Nat} (h : c ≠ k) {s t : State} (hk : Keeps (verdictTouch k) s t) : SameVerdict c s t := by
  have hc := croftBase_eq c
  have hk' := croftBase_eq k
  refine ⟨hk.crofts c h, fun o ho => ⟨hk.reg_eq ?_, hk.reg_eq ?_⟩⟩
  all_goals
    rintro ⟨p, hp, h1, h2⟩
    obtain rfl | rfl : p = pgTally k ∨ p = pgReeve k := by simpa using hp
    all_goals simp only [pgReeve, pgTally, Page.base] at h1 h2; omega

/-- CMP_LAST and CMP_RATIO of a contributor. -/
def verdictMarks (g : Nat) (fail : Bool) (ratio layer c : Nat) : Prog := .all [
  setFld (pgTally c) R.tally_CMP_LAST_VALID 1,
  setBit (pgTally c) R.tally_CMP_LAST_FAIL fail,
  setFld (pgTally c) R.tally_CMP_LAST_GROUP g,
  setFld (pgTally c) R.tally_CMP_LAST_LAYER layer,
  setReg (pgTally c) R.tally_CMP_RATIO_RATIO.off (BitVec.ofNat 32 ratio),
  Prog.when fail (bump (pgTally c) R.tally_CMP_FAIL_CNT)]

theorem verdictMarks_run {g : Nat} (hg : g < 16) (fail : Bool) (ratio layer c : Nat) (s : State) :
    let t := (verdictMarks g fail ratio layer c).run s
    t.bit (pgTally c) R.tally_CMP_LAST_VALID = true ∧ t.bit (pgTally c) R.tally_CMP_LAST_FAIL = fail ∧ t.fld (pgTally c) R.tally_CMP_LAST_GROUP = g ∧
    Counts s t (pgTally c) R.tally_CMP_FAIL_CNT (if fail then 1 else 0) ∧
    Keeps { regs := theRegs (pgTally c) [R.tally_CMP_LAST_VALID, R.tally_CMP_RATIO_RATIO, R.tally_CMP_FAIL_CNT] } s t := by
  refine ⟨?_, ?_, ?_, ?_, Prog.keeps (by simp [verdictMarks, Prog.only_when]) s⟩
  · cases fail <;> simp -implicitDefEqProofs [verdictMarks, State.bit]
  · cases fail <;> simp -implicitDefEqProofs [verdictMarks, State.bit]
  · cases fail <;> simp -implicitDefEqProofs [verdictMarks, Nat.mod_eq_of_lt hg]
  · cases fail <;> simp -implicitDefEqProofs [verdictMarks, Counts, satAdd_zero]

/-- What a verdict makes of the order that asked for it, and of the reeve that waits. -/
def verdictEnds (fail : Bool) (c : Nat) (wait : Wait) (o : Issued) (skip : Nat) : Prog := .all [
  dropOrder c o.serial,
  Prog.when (wait == .verdict) (.all [
    noVerdict c,
    setPC c (if fail then nextIdx o.idx else skipIdx skip (nextIdx o.idx)),
    Prog.when (!fail) (bumpBy (pgReeve c) R.reeve_SKIP_CNT skip)])]

/-- The number of orders that a passed COMPARE skips. -/
def skipOf (o : Issued) : Nat := match decodeOrder o.word with | .ok (.tallyCompare _ n _ _) => n | _ => 0

theorem verdictTo_run (g : Nat) (fail : Bool) (ratio layer c : Nat) (s : State) :
    (s.compareOrder c = none → (verdictTo g fail ratio layer c).run s = (verdictMarks g fail ratio layer c).run s) ∧
    (∀ o, s.compareOrder c = some o → (verdictTo g fail ratio layer c).run s =
      (verdictEnds fail c (s.reeve c).wait o (skipOf o)).run ((verdictMarks g fail ratio layer c).run s)) := by
  refine ⟨fun h => ?_, fun o h => ?_⟩
  · simp -implicitDefEqProofs only [verdictTo, verdictMarks, Prog.run_get, Prog.run_all_cons, Prog.run_all_nil, h, Prog.run_done]
  · simp -implicitDefEqProofs only [verdictTo, verdictMarks, verdictEnds, skipOf, Prog.run_get, Prog.run_all_cons, Prog.run_all_nil, h] <;> rfl

theorem verdictEnds_keeps (fail : Bool) (c : Nat) (wait : Wait) (o : Issued) (skip : Nat) (s : State) :
    Keeps { regs := theRegs (pgReeve c) [R.reeve_PC_INDEX, R.reeve_SKIP_CNT], crofts := (· = c) } s ((verdictEnds fail c wait o skip).run s) :=
  Prog.keeps (by simp [verdictEnds, noVerdict, setPC, Prog.only_when]) s

theorem verdictEnds_run (fail : Bool) (c : Nat) (o : Issued) (skip : Nat) (s : State) (hw : (s.reeve c).wait = .verdict) :
    let t := (verdictEnds fail c .verdict o skip).run s
    t.pc c = (if fail then nextIdx o.idx else skipIdx skip (nextIdx o.idx)) % 2 ^ 24 ∧
    (t.reeve c).orders = (s.reeve c).orders.filter (fun y => y.serial != o.serial) ∧ (t.reeve c).wait = .none ∧
    Counts s t (pgReeve c) R.reeve_SKIP_CNT (if fail then 0 else skip) := by
  have hreeve : ((verdictEnds fail c .verdict o skip).run s).reeve c =
      { s.reeve c with orders := (s.reeve c).orders.filter (fun y => y.serial != o.serial), wait := .none } := by
    have hrun : (verdictEnds fail c .verdict o skip).run s =
        (Prog.all [setPC c (if fail then nextIdx o.idx else skipIdx skip (nextIdx o.idx)),
          Prog.when (!fail) (bumpBy (pgReeve c) R.reeve_SKIP_CNT skip)]).run ((noVerdict c).run ((dropOrder c o.serial).run s)) := by
      simp -implicitDefEqProofs only [verdictEnds, beq_self_eq_true, Prog.run_when_true, Prog.run_all_cons, Prog.run_all_nil]
    have hkeep := Prog.keeps (T := { regs := theRegs (pgReeve c) [R.reeve_PC_INDEX, R.reeve_SKIP_CNT] })
      (p := .all [setPC c (if fail then nextIdx o.idx else skipIdx skip (nextIdx o.idx)), Prog.when (!fail) (bumpBy (pgReeve c) R.reeve_SKIP_CNT skip)])
      (by simp [setPC, Prog.only_when]) ((noVerdict c).run ((dropOrder c o.serial).run s))
    rw [hrun]
    refine (congrArg Croft.reeve (hkeep.crofts c id)).trans ((modReeve_run_self ..).trans ?_)
    rw [dropOrder, modReeve_run_self, hw]
    rfl
  refine ⟨?_, by rw [hreeve], by rw [hreeve], ?_⟩
  · cases fail <;> simp -implicitDefEqProofs [verdictEnds, noVerdict, dropOrder, setPC, State.pc]
  · cases fail <;> simp -implicitDefEqProofs [verdictEnds, noVerdict, dropOrder, setPC, Counts, satAdd_zero] <;> rfl

theorem verdictTo_only {T : Touch} {c : Nat} (ht : ∀ o < 0x1000, onReg T.regs (pgTally c) o) (hr : ∀ o < 0x1000, onReg T.regs (pgReeve c) o)
    (hc : T.crofts c) (g : Nat) (fail : Bool) (ratio layer : Nat) : (verdictTo g fail ratio layer c).Only T.allows := by
  intro s
  simp only [Prog.only_all_cons, Prog.only_all_nil, and_true]
  refine ⟨?_, ?_, ?_, ?_, ?_, ?_, ?_⟩
  case refine_7 => split <;> simp [noVerdict, setPC, Prog.only_when, hr, hc]
  all_goals simp [Prog.only_when, ht]

theorem verdictTo_touch (g : Nat) (fail : Bool) (ratio layer c : Nat) : (verdictTo g fail ratio layer c).Only (verdictTouch c).allows := by
  refine verdictTo_only (T := verdictTouch c) (fun o ho => ?_) (fun o ho => ?_) rfl _ _ _ _
  all_goals simp [verdictTouch, ho]

/-- The crofts a verdict reaches, each once. -/
def contributors (l : List Contrib) : List Nat := ((l.foldl (fun a k => insertContrib k a) []).map (·.croft)).dedup

theorem mem_insertContrib (x k : Contrib) (l : List Contrib) : x ∈ insertContrib k l ↔ x = k ∨ x ∈ l := by
  induction l with
  | nil => simp [insertContrib]
  | cons y ys ih =>
    unfold insertContrib
    split
    · simp
    · simp only [List.mem_cons, ih]
      tauto

theorem mem_foldl_insertContrib (x : Contrib) (l a : List Contrib) : x ∈ l.foldl (fun a k => insertContrib k a) a ↔ x ∈ l ∨ x ∈ a := by
  induction l generalizing a with
  | nil => simp
  | cons y ys ih =>
    rw [List.foldl_cons, ih, mem_insertContrib, List.mem_cons]
    tauto

theorem mem_contributors {x : Contrib} {l : List Contrib} (h : x ∈ l) : x.croft ∈ contributors l :=
  List.mem_dedup.mpr (List.mem_map_of_mem ((mem_foldl_insertContrib ..).mpr (.inl h)))

/-- A failed compare is counted as a recomputation and falls its layer back. -/
def failed (c layer : Nat) : Prog := .all [bump pgNum R.numstep_RECOMP_CNT, fallBack c layer 3]

/-- The verdict of group `g` on the compare `l`, with what is left of the group. -/
def decides (g : Nat) (l : List Contrib) (rest : List (List Contrib)) (v : Val × Val × Bool) (layer : Nat) : Prog := .all [
  setCompares g rest,
  putBit pgNum R.numstep_GROUP_STATUS_FAIL g v.2.2,
  Prog.each (contributors l) (verdictTo g v.2.2 (ratioCode v.1 v.2.1) layer),
  Prog.when v.2.2 (failed (((l.foldl (fun a k => insertContrib k a) []).head?.map (·.croft)).getD 0) layer)]

/-- The layer of a compare. -/
def layerOf : List Contrib → Nat
  | k :: _ => k.layer
  | [] => 0

theorem exec_tallyVerdict {g : Fin 16} {l : List Contrib} {rest : List (List Contrib)} (h : s.compares g.val = l :: rest) (hf : compareFull l = true) :
    exec (.tallyVerdict g) s =
      .next ((decides g.val l rest (verdictOf (s.fld pgNum R.numstep_CFG_DIV_LIMIT) l) (layerOf l)).run s) := by
  show execTallyVerdict g s = _
  rw [execTallyVerdict, Prog.next_eq, Prog.run_get, h]
  simp -implicitDefEqProofs only [hf, Bool.not_true, Bool.false_eq_true, if_false]
  rfl

theorem haltAll_looks {α : Type} (v : Device → α) (d : Device) (reason : Nat) : (haltAll reason).Safe (looks v d) := by
  simp [haltAll, Prog.safe_each exists_looks]

/-- A fall-back leaves the compares of every group. -/
theorem fallBack_groups (c layer kind : Nat) (s : State) : ((fallBack c layer kind).run s).dev.groups = s.dev.groups := by
  refine looks_run (v := fun d => d.groups) (fun d => ?_) s
  have hrepeat : repeatExceeded.Safe (looks (fun d => d.groups) d) := by
    simp [repeatExceeded, raiseAlarm, flood, sendFlits, haltAll_looks, Prog.safe_each exists_looks]
  have habandon : abandon.Safe (looks (fun d => d.groups) d) := by
    simp [abandon, abandonHere, countHalted, raiseAlarm, flood, sendFlits, haltAll_looks, Prog.safe_when, Prog.safe_each exists_looks, tellWatch]
  simp [fallBack, tellWatch, hrepeat, habandon]

theorem not_fallBackTouch_aside {halts : Prop} {p : Page} {o : Nat} (hp : p.placed) (hn : p.kind ≠ .numstep) (hr : p.kind ≠ .reeve) (ho : o < 0x1000) :
    ¬ (fallBackTouch halts).regs (p.base + o) := by
  rintro (h | ⟨k, h⟩)
  · exact not_theRegs_apart (by simp [ho, hp, hn]) h
  · exact not_theRegs_apart (by simp [ho, hp, hr]) h

/-- What a fall-back of a failed compare leaves. -/
theorem failed_run (c layer k : Nat) (s : State) :
    let t := (failed c layer).run s
    Counts s t pgNum R.numstep_RECOMP_CNT 1 ∧ Counts s t pgNum R.numstep_FALLBACK_CNT 1 ∧ t.dev.groups = s.dev.groups ∧
    (t.reeve k = s.reeve k ∨ t.reeve k = (s.reeve k).haltsFor 5) ∧
    t.reg pgNum R.numstep_GROUP_STATUS_FAIL.off = s.reg pgNum R.numstep_GROUP_STATUS_FAIL.off ∧
    ∀ o < 0x1000, t.reg (pgTally k) o = s.reg (pgTally k) o ∧ (o ≠ R.reeve_STATUS_RUNNING.off → t.reg (pgReeve k) o = s.reg (pgReeve k) o) := by
  obtain ⟨hcnt, hbump⟩ := bumpBy_run pgNum R.numstep_RECOMP_CNT 1 s
  have hone : bump pgNum R.numstep_RECOMP_CNT = bumpBy pgNum R.numstep_RECOMP_CNT 1 := rfl
  rw [failed, Prog.run_all_cons, Prog.run_all_cons, Prog.run_all_nil, hone]
  have hdev := hbump.dev id
  generalize (bumpBy pgNum R.numstep_RECOMP_CNT 1).run s = u at *
  obtain ⟨hfall, hreeve, w, hw, ht⟩ := fallBack_facts c layer 3 k u
  have hgroups := fallBack_groups c layer 3 u
  generalize (fallBack c layer 3).run u = t at *
  have hsame : u.reeve k = s.reeve k := congrArg Croft.reeve (hbump.crofts k id)
  refine ⟨?_, ?_, hgroups.trans (congrArg _ hdev), hsame ▸ hreeve, ?_, fun o ho => ⟨?_, fun hr => ?_⟩⟩
  · rw [Counts, ht.reg_eq (not_fallBackTouch_num (by decide) (by decide)), hw.reg_eq (not_theRegs_offset (by decide) _)]
    exact hcnt
  · rw [Counts, ← hbump.reg_eq (p := pgNum) (o := R.numstep_FALLBACK_CNT.off) (not_theRegs_offset (by decide) _)]
    exact hfall
  · rw [ht.reg_eq (not_fallBackTouch_num (by decide) (by decide)), hw.reg_eq (not_theRegs_offset (by decide) _),
      hbump.reg_eq (not_theRegs_offset (by decide) _)]
  · rw [ht.reg_eq (not_fallBackTouch_aside (by simp) (by simp) (by simp) ho), hw.reg_eq (not_theRegs_apart (by simp [ho])),
      hbump.reg_eq (not_theRegs_apart (by simp [ho]))]
  · rw [ht.reg_eq (not_fallBackTouch_croft (by simp) (by simp) ho hr), hw.reg_eq (not_theRegs_apart (by simp [ho])),
      hbump.reg_eq (not_theRegs_apart (by simp [ho]))]

/-- What a verdict leaves of the device's half of Tally, and of a contributing croft but for the halt that a fall-back may bring. -/
theorem decides_run {g : Nat} (hg : g < 16) (l : List Contrib) (rest : List (List Contrib)) (v : Val × Val × Bool) (layer : Nat) (s : State) :
    let t := (decides g l rest v layer).run s
    t.compares g = rest ∧ (t.fld pgNum R.numstep_GROUP_STATUS_FAIL / 2 ^ g % 2 = 1 ↔ v.2.2 = true) ∧
    Counts s t pgNum R.numstep_RECOMP_CNT (if v.2.2 then 1 else 0) ∧ Counts s t pgNum R.numstep_FALLBACK_CNT (if v.2.2 then 1 else 0) ∧
    ∀ x ∈ l, ∃ u w, SameVerdict x.croft s u ∧ SameVerdict x.croft ((verdictTo g v.2.2 (ratioCode v.1 v.2.1) layer x.croft).run u) w ∧
      (t.reeve x.croft = w.reeve x.croft ∨ t.reeve x.croft = (w.reeve x.croft).haltsFor 5) ∧
      ∀ o < 0x1000, t.reg (pgTally x.croft) o = w.reg (pgTally x.croft) o ∧
        (o ≠ R.reeve_STATUS_RUNNING.off → t.reg (pgReeve x.croft) o = w.reg (pgReeve x.croft) o) := by
  have hsplit : (decides g l rest v layer).run s =
      (Prog.when v.2.2 (failed (((l.foldl (fun a k => insertContrib k a) []).head?.map (·.croft)).getD 0) layer)).run
        ((Prog.each (contributors l) (verdictTo g v.2.2 (ratioCode v.1 v.2.1) layer)).run
          ((putBit pgNum R.numstep_GROUP_STATUS_FAIL g v.2.2).run ((setCompares g rest).run s))) := by
    simp -implicitDefEqProofs only [decides, Prog.run_all_cons, Prog.run_all_nil]
  rw [hsplit]
  obtain ⟨hset, -, hsetk⟩ := setCompares_run hg rest s
  generalize (setCompares g rest).run s = a at *
  have hfail := pending_bit hg (.inr rfl) v.2.2 a
  have hputk : Keeps { regs := theRegs pgNum [R.numstep_GROUP_STATUS_FAIL] } a ((putBit pgNum R.numstep_GROUP_STATUS_FAIL g v.2.2).run a) :=
    Prog.keeps (by simp [putBit]) a
  generalize (putBit pgNum R.numstep_GROUP_STATUS_FAIL g v.2.2).run a = b at *
  have hsb : Keeps { regs := theRegs pgNum [R.numstep_GROUP_STATUS_PENDING, R.numstep_GROUP_STATUS_FAIL], dev := True } s b := by
    refine (hsetk.mono ?_).trans (hputk.mono ?_)
    all_goals
      constructor
      case regs => exact theRegs_mono (by simp)
      all_goals simp
  have heach : Keeps { regs := offKinds [.numstep], crofts := fun _ => True } b
      ((Prog.each (contributors l) (verdictTo g v.2.2 (ratioCode v.1 v.2.1) layer)).run b) := Prog.keeps (by
    rw [Prog.only_each]
    exact fun c _ => verdictTo_only (T := { regs := offKinds [.numstep], crofts := fun _ => True }) (fun o ho => onReg_offKinds ho (by simp) (by simp))
      (fun o ho => onReg_offKinds ho (by simp) (by simp)) trivial _ _ _ _) b
  have hpart (x : Contrib) (hx : x ∈ l) := each_part (V := SameVerdict) SameVerdict.refl SameVerdict.trans (l := contributors l) (List.nodup_dedup _)
    (f := verdictTo g v.2.2 (ratioCode v.1 v.2.1) layer) (fun _ _ y _ hne t => (Prog.keeps (verdictTo_touch g v.2.2 _ layer y) t).sameVerdict hne) b
    (mem_contributors hx)
  generalize (Prog.each (contributors l) (verdictTo g v.2.2 (ratioCode v.1 v.2.1) layer)).run b = d at *
  have hnum {o : Nat} (ho : o < 0x1000) : d.reg pgNum o = b.reg pgNum o := heach.reg_eq (not_offKinds (by simp) (by simp) ho)
  have hgroups : d.compares g = rest := by
    rw [State.compares, heach.dev id, hputk.dev id]
    exact compares_setCompares (t := a) (congrArg (·.groups) hset)
  have hdfail : d.fld pgNum R.numstep_GROUP_STATUS_FAIL / 2 ^ g % 2 = 1 ↔ v.2.2 = true := by
    rw [State.fld_eq, hnum (by decide), ← State.fld_eq]
    exact hfail
  have hcnt {f : Fld} (hf : f.off < 0x1000) (hn : f.off ≠ R.numstep_GROUP_STATUS_FAIL.off) : d.reg pgNum f.off = s.reg pgNum f.off :=
    (hnum hf).trans (hsb.reg_eq (not_theRegs_offset (by simpa using hn) _))
  have hsame (x : Contrib) : SameVerdict x.croft s b := by
    refine ⟨hsb.crofts _ id, fun o ho => ⟨hsb.reg_eq ?_, hsb.reg_eq ?_⟩⟩
    all_goals exact not_theRegs_apart (by simp [ho])
  have hreach (x : Contrib) (hx : x ∈ l) : ∃ u, SameVerdict x.croft s u ∧
      SameVerdict x.croft ((verdictTo g v.2.2 (ratioCode v.1 v.2.1) layer x.croft).run u) d := by
    obtain ⟨u, hu, hd⟩ := hpart x hx
    exact ⟨u, (hsame x).trans _ _ _ _ hu, hd⟩
  cases hv : v.2.2
  · rw [Prog.run_when, if_neg (by simp)]
    rw [hv] at hdfail hreach
    refine ⟨hgroups, hdfail, ?_, ?_, fun x hx => ?_⟩
    · rw [if_neg (by simp), Counts, satAdd_zero]
      exact hcnt (by decide) (by decide)
    · rw [if_neg (by simp), Counts, satAdd_zero]
      exact hcnt (by decide) (by decide)
    · obtain ⟨u, hu, hd⟩ := hreach x hx
      exact ⟨u, d, hu, hd, .inl rfl, fun _ _ => ⟨rfl, fun _ => rfl⟩⟩
  · rw [Prog.run_when, if_pos rfl]
    have hfacts := failed_run (((l.foldl (fun a k => insertContrib k a) []).head?.map (·.croft)).getD 0) layer
    rw [hv] at hdfail hreach
    refine ⟨?_, ?_, ?_, ?_, fun x hx => ?_⟩
    · obtain ⟨-, -, hg', -⟩ := hfacts 0 d
      rw [State.compares, hg']
      exact hgroups
    · obtain ⟨-, -, -, -, hf', -⟩ := hfacts 0 d
      rw [State.fld_eq, hf', ← State.fld_eq]
      exact hdfail
    · obtain ⟨hr, -⟩ := hfacts 0 d
      rw [if_pos rfl, Counts, ← hcnt (by decide) (by decide)]
      exact hr
    · obtain ⟨-, hr, -⟩ := hfacts 0 d
      rw [if_pos rfl, Counts, ← hcnt (by decide) (by decide)]
      exact hr
    · obtain ⟨u, hu, hd⟩ := hreach x hx
      obtain ⟨-, -, -, hreeve, -, hregs⟩ := hfacts x.croft d
      exact ⟨u, d, hu, hd, hreeve, hregs⟩

theorem skipOf_eq {o : Issued} {grp n k a : Nat} (h : decodeOrder o.word = .ok (.tallyCompare grp n k a)) : skipOf o = n := by
  rw [skipOf, h]

theorem SameVerdict.fld {c : Nat} {s t : State} (h : SameVerdict c s t) {f : Fld} (hf : f.off < 0x1000) :
    t.fld (pgTally c) f = s.fld (pgTally c) f ∧ t.fld (pgReeve c) f = s.fld (pgReeve c) f := by
  simp only [State.fld_eq, (h.2 _ hf).1, (h.2 _ hf).2, and_self]

/-- What the verdict itself shows of a contributing croft. -/
theorem verdictTo_marks {g : Nat} (hg : g < 16) (fail : Bool) (ratio layer c : Nat) (s : State) :
    let t := (verdictTo g fail ratio layer c).run s
    t.bit (pgTally c) R.tally_CMP_LAST_VALID = true ∧ t.bit (pgTally c) R.tally_CMP_LAST_FAIL = fail ∧ t.fld (pgTally c) R.tally_CMP_LAST_GROUP = g ∧
    Counts s t (pgTally c) R.tally_CMP_FAIL_CNT (if fail then 1 else 0) ∧
    ∀ o grp n k a, s.compareOrder c = some o → decodeOrder o.word = .ok (.tallyCompare grp n k a) → (s.reeve c).wait = .verdict →
      t.pc c = (if fail then nextIdx o.idx else skipIdx n (nextIdx o.idx)) % 2 ^ 24 ∧
      (t.reeve c).orders = (s.reeve c).orders.filter (fun y => y.serial != o.serial) ∧ (t.reeve c).wait = .none ∧
      Counts s t (pgReeve c) R.reeve_SKIP_CNT (if fail then 0 else n) := by
  obtain ⟨hnone, hsome⟩ := verdictTo_run g fail ratio layer c s
  obtain ⟨hvalid, hfail, hgroup, hcnt, hkeep⟩ := verdictMarks_run hg fail ratio layer c s
  cases ho : s.compareOrder c with
  | none =>
    rw [hnone ho]
    exact ⟨hvalid, hfail, hgroup, hcnt, fun _ _ _ _ _ h => nomatch h⟩
  | some o =>
    rw [hsome o ho]
    generalize (verdictMarks g fail ratio layer c).run s = u at *
    have hends := verdictEnds_keeps fail c (s.reeve c).wait o (skipOf o) u
    have hsame : u.reeve c = s.reeve c := congrArg Croft.reeve (hkeep.crofts c id)
    refine ⟨(hends.bit_eq (not_theRegs_apart (by simp))).trans hvalid, (hends.bit_eq (not_theRegs_apart (by simp))).trans hfail,
      (hends.fld_eq (not_theRegs_apart (by simp))).trans hgroup, ?_, fun o' grp n k a ho' hdec hwait => ?_⟩
    · rw [Counts, hends.reg_eq (not_theRegs_apart (by simp))]
      exact hcnt
    · obtain rfl : o = o' := Option.some.inj ho'
      obtain ⟨hpc, horders, hw, hskip⟩ := verdictEnds_run fail c o (skipOf o) u (hsame ▸ hwait)
      rw [hwait, skipOf_eq hdec] at *
      refine ⟨hpc, hsame ▸ horders, hw, ?_⟩
      rw [Counts, ← hkeep.reg_eq (p := pgReeve c) (o := R.reeve_SKIP_CNT.off) (not_theRegs_apart (by simp))]
      exact hskip

/-- Settles O27: the sums are those of the mill's lanes, a contribution joins its group or faults its order, and a verdict reaches each contributor
once. -/
theorem comparesGiveVerdicts : Obligations.ComparesGiveVerdicts := by
  unfold Obligations.ComparesGiveVerdicts
  refine ⟨⟨?sums, ?joins⟩, ?verdict⟩
  case sums =>
    intro s c r g k hr hcmp hcar hi hclk hreset hher
    have hexec : exec (.tallyCompare c .carry) s = .next ((compareSums c.val r g k).run s) := by
      show Prog.next (carryCompare c.val) s = _
      rw [Prog.next_eq, carryCompare_run hr hcmp hcar hi hclk hreset]
    rw [hexec]
    exact Leaves.of_next (compareSums_run hher)
  case joins =>
    intro s k g x hk hg
    have hexec : ∀ p, (joinCompare x (s.compares g) = some p → exec (.tallyContribution k) s = .next ((setCompares g p).run ((unlistContrib k).run s))) := by
      intro p hp
      show execTallyContribution k s = _
      simp -implicitDefEqProofs only [execTallyContribution, Prog.next_eq, Prog.run_get, hk, hp, Prog.run_all_cons, Prog.run_all_nil, unlistContrib]
    have hkeep : Keeps { dev := True } s ((unlistContrib k).run s) := Prog.keeps (by simp [unlistContrib]) s
    refine ⟨fun l hl => ?_, fun hn o ho => ?_⟩
    · rw [hexec l hl]
      have hdev : ((unlistContrib k).run s).dev = { s.dev with contribs := s.dev.contribs.eraseIdx k } := rfl
      generalize (unlistContrib k).run s = u at *
      obtain ⟨hset, hpend, hsetk⟩ := setCompares_run hg l u
      have hne := joinCompare_ne_nil hl
      have hempty : l.isEmpty = false := by simpa using hne
      generalize (setCompares g l).run u = t at *
      refine ⟨t, rfl, ?_, hpend hne, (hkeep.mono (by constructor <;> simp)).trans hsetk⟩
      rw [hset, hdev, hempty]
      rfl
    · have hexec : exec (.tallyContribution k) s =
          .next ((disagrees x.croft o (sliceAddr x.croft (s.orderOffset x.croft o.idx))).run ((unlistContrib k).run s)) := by
        show execTallyContribution k s = _
        simp -implicitDefEqProofs only [execTallyContribution, Prog.next_eq, Prog.run_get, hk, hn, ho, Prog.run_all_cons, Prog.run_all_nil, unlistContrib,
          disagrees]
      rw [hexec]
      generalize (unlistContrib k).run s = u at *
      obtain ⟨h1, h2, h3, h4, h5, h6⟩ := disagrees_run x.croft o (sliceAddr x.croft (s.orderOffset x.croft o.idx)) u
      have hreeve : u.reeve x.croft = s.reeve x.croft := congrArg Croft.reeve (hkeep.crofts _ id)
      rw [hkeep.fld_eq id] at h2
      exact ⟨_, rfl, h1, h2, h3, h4, hreeve ▸ h5, h6⟩
  case verdict =>
    intro s g l rest hl hf hcrofts
    rw [exec_tallyVerdict hl hf]
    generalize verdictOf (s.fld pgNum R.numstep_CFG_DIV_LIMIT) l = v
    obtain ⟨hrest, hfail, hrecomp, hfall, hto⟩ := decides_run g.isLt l rest v (layerOf l) s
    refine ⟨_, rfl, hrest, hfail, hrecomp, hfall, fun x hx => ?_⟩
    obtain ⟨u, w, hu, hw, hreeve, hregs⟩ := hto x hx
    generalize (decides g.val l rest v (layerOf l)).run s = t at *
    obtain ⟨hvalid, hfails, hgroup, hcnt, hends⟩ := verdictTo_marks g.isLt v.2.2 (ratioCode v.1 v.2.1) (layerOf l) x.croft u
    generalize (verdictTo g.val v.2.2 (ratioCode v.1 v.2.1) (layerOf l) x.croft).run u = a at *
    have htally {f : Fld} (hf : f.off < 0x1000) : t.fld (pgTally x.croft) f = a.fld (pgTally x.croft) f := by
      rw [State.fld_eq, (hregs _ hf).1, ← State.fld_eq, (hw.fld hf).1]
    have hsame : u.reeve x.croft = s.reeve x.croft := congrArg Croft.reeve hu.1
    have hwa : w.reeve x.croft = a.reeve x.croft := congrArg Croft.reeve hw.1
    refine ⟨?_, ?_, (htally (by decide)).trans hgroup, ?_, fun o grp n k a' ho hdec hwait => ?_⟩
    · rw [State.bit, htally (by decide)]
      exact hvalid
    · rw [State.bit, htally (by decide)]
      exact hfails
    · rw [Counts, (hregs _ (by decide)).1, (hw.2 _ (by decide)).1, ← (hu.2 _ (by decide)).1]
      exact hcnt
    · have hou : u.compareOrder x.croft = some o := by rw [State.compareOrder, hsame]; exact ho
      obtain ⟨hpc, horders, hnone, hskip⟩ := hends o grp n k a' hou hdec (hsame ▸ hwait)
      rw [hwa] at hreeve
      refine ⟨?_, ?_, ?_, ?_⟩
      · rw [State.pc, State.fld_eq, (hregs _ (by decide)).2 (by decide), ← State.fld_eq, (hw.fld (by decide)).2]
        exact hpc
      · rw [← hsame, ← horders]
        obtain h | h := hreeve <;> rw [h]
        rfl
      · obtain h | h := hreeve <;> rw [h]
        · exact hnone
        · rw [Reeve.haltsFor, hnone]
          rfl
      · rw [Counts, (hregs _ (by decide)).2 (by decide), (hw.2 _ (by decide)).2, ← (hu.2 _ (by decide)).2]
        exact hskip

end Sys2Proof.Machine
end

open Host
section
/-! SUPPORT. What the end of a segment and of a transfer may change (R334 to R337). -/
namespace Sys2Proof.Machine

/-- The offsets of the registers of a sluice's page that the end of a transfer writes. -/
def endOffsets : List Nat := [R.sluice_XFER_CNT, R.sluice_ERR_CNT, R.STATE_STATE, R.FAULT_CAUSE, R.FAULT_ADDR_LO, R.FAULT_ADDR_HI].map Fld.off

/-- The offsets of the counters of a sluice's page that the end of a segment advances. -/
def segOffsets : List Nat := [R.sluice_SEG_CNT, R.sluice_TIMEOUT_CNT].map Fld.off

/-- A frame that permits a store and what uncorrectable data does. -/
structure Touch.reacts (T : Touch) : Prop extends Touch.guards T where
  reeve : ∀ c o, o < 0x1000 → onReg T.regs (pgReeve c) o
  crofts : ∀ c, T.crofts c
  seq : T.seq

/-- A frame that permits what the end of a transfer does beside its queue. -/
structure Touch.ends (T : Touch) : Prop extends Touch.reacts T where
  sluice : ∀ c, ∀ o ∈ endOffsets, onReg T.regs (pgSluice c) o
  group : ∀ q o, o < 0x1000 → onReg T.regs (pgQueue q) o
  own : ∀ c o, o < 0x1000 → onReg T.regs (pgOwn c) o
  port : onReg T.regs pgPort R.port_CTRL_DROP_CNT.off
  links : ∀ l, T.links l

@[simp] theorem qblk_lt {o : Nat} (h : o < 0xE00) (q : Nat) : o + qblk q < 0x1000 := by
  have := Nat.mod_lt q (show 0 < 8 by decide)
  simp only [qblk]
  omega

theorem Prog.only_ite' {P : Act → Prop} {b : Prop} [Decidable b] {p q : Prog} :
    (if b then p else q).Only P ↔ (b → p.Only P) ∧ (¬ b → q.Only P) := by
  split
  next h => exact ⟨fun hp => ⟨fun _ => hp, fun hn => absurd h hn⟩, fun hp => hp.1 h⟩
  next h => exact ⟨fun hp => ⟨fun hb => absurd hb h, fun _ => hp⟩, fun hp => hp.2 h⟩

section
variable {T : Touch} (h : T.reacts)
include h

theorem ueHalt_ends (c e i a : Nat) : (ueHalt c e i a).Only T.allows := by
  simp [ueHalt, orderHalt, Prog.only_ite', h.reeve, h.crofts, h.dev]

theorem queueUE_ends (k a : Nat) : (queueUE k a).Only T.allows := by
  simp [queueUE, Prog.only_ite', ueHalt_ends h, Touch.allows, h.seq]

theorem ueReact_ends (src : Option Source) (own : Option Nat) (addr : Nat) : (ueReact src own addr).Only T.allows := by
  have hengine (e : Nat) (i : Nat) : (match own with | some c => ueHalt c e i addr | none => .done).Only T.allows := by
    cases own
    · trivial
    · exact ueHalt_ends h _ _ _ _
  match src with
  | some (.engine e i) => exact hengine _ _
  | some (.sluice k) => exact queueUE_ends h _ _
  | some (.incoming (some k)) => exact queueUE_ends h _ _
  | none =>
    cases own
    · trivial
    · exact fun s => by simp [ueHalt_ends h, Touch.allows, h.seq]
  | some .host | some .bucket | some .steward | some (.incoming none) => trivial

theorem store_ends (src : Option Source) (a : Nat) (bs : List Byte) : (store src a bs).Only T.allows :=
  store_only h.toguards (ueReact_ends h src) a bs

end

section
variable {T : Touch} {q : Nat} (h : T.ends)
include h

theorem routeCtrl_ends (src : Nat) (queue : Option Nat) (m : Ctrl) : (routeCtrl src queue m).Only T.allows := by
  have hroute (s : State) (dev : Nat) (here : Prog) (hh : here.Only T.allows) :
      (if dev = s.self then here else
        match s.ctrlLink dev with
        | some l => modLink l (fun k => { k with ctrl := k.ctrl ++ [(src, m)] })
        | none => bump pgPort R.port_CTRL_DROP_CNT).Only T.allows := by
    refine iteInduction (motive := Prog.Only _) (fun _ => hh) fun _ => ?_
    cases s.ctrlLink dev <;> simp [h.links, h.port]
  intro s
  cases m
  case segAck => exact hroute s _ _ (by simp [h.dev])
  case signal => exact hroute s _ _ (by simp [h.dev])
  all_goals simp [h.port]

theorem xferSignals_ends (k : Nat) (d : Desc) : (xferSignals k d).Only T.allows := by
  intro s
  simp only [Prog.only_all_cons, Prog.only_all_nil, and_true]
  refine ⟨by simp [Prog.only_when, h.dev], ?_⟩
  cases s.dstDev d
  · trivial
  · exact (Prog.only_when ..).2 fun _ => routeCtrl_ends h _ _ _

theorem xferFails_ends (idx st : Nat) : (xferFails q idx st).Only T.allows := by
  simp [xferFails, h.sluice, endOffsets, h.group, h.dev, Fld.plus]

theorem collide_ends (c e cls i o a : Nat) (k : Option Sender) : (collide c e cls i o a k).Only T.allows := by
  cases k <;> simp [collide, latchBell, Prog.only_when, Prog.only_ite', h.own, h.dev]

theorem sluiceCollide_ends (cls index : Nat) (a : Option Nat) : (sluiceCollide q cls index a).Only T.allows := by
  simp [sluiceCollide, collideHalt, orderHalt, collide_ends h, h.own, h.reeve, h.crofts, h.dev, Touch.allows, h.seq]

variable (hq : T.queues q)
include hq

theorem finishXfer_ends (x : Xfer) : (finishXfer q x).Only T.allows := by
  intro s
  refine iteInduction (motive := Prog.Only _) (fun _ => by simp [dropXfer, hq]) fun _ => ?_
  simp only [Prog.only_all_cons, Prog.only_all_nil, and_true]
  refine ⟨?_, by simp [dropXfer, hq], ?_, ?_, ?_⟩
  · simp [Prog.only_when, Touch.allows, h.seq]
  · exact (Prog.only_when ..).2 fun _ => xferFails_ends h _ _
  · split
    · exact sluiceCollide_ends h _ _ _
    · simp [store_ends h.toreacts, h.sluice, endOffsets, h.group, hq, Prog.only_when, xferSignals_ends h]
  · simp [Prog.only_when, h.sluice, endOffsets, orderFault, orderHalt, h.reeve, h.crofts, h.dev]

theorem completeSeg_ends (hseg : ∀ c, ∀ o ∈ segOffsets, onReg T.regs (pgSluice c) o) (idx k st : Nat) : (completeSeg q idx k st).Only T.allows := by
  intro s
  dsimp only
  split
  · trivial
  split
  · trivial
  refine iteInduction (motive := Prog.Only _) (fun _ => trivial) fun _ => ?_
  simp only [Prog.only_all_cons, Prog.only_all_nil, and_true]
  refine ⟨by simp [modSeg, hq], by simp [dropEntries, h.dev], by simp [Prog.only_when, hseg, segOffsets], by simp [Prog.only_when, hseg, segOffsets],
    (Prog.only_when ..).2 fun _ => by simp [hq], fun t => ?_⟩
  dsimp only
  split
  · exact (Prog.only_when ..).2 fun _ => finishXfer_ends h hq _
  · trivial

end

/-! ### What stays of a queue -/

/-- The view `v` of queue `q` is `x`. -/
def queueIs {α : Type} (q : Nat) (v : Queue → α) (x : α) (s : State) : Prop := v (s.queue q) = x

theorem exists_queueIs {α : Type} (q : Nat) (v : Queue → α) (s : State) : ∃ t, queueIs q v (v (s.queue q)) t := ⟨s, rfl⟩

/-- A program that keeps queue `q` keeps every view of it. -/
theorem Prog.queueIs_of_only {α : Type} {T : Touch} {p : Prog} (h : p.Only T.allows) {q : Nat} (hq : ¬ T.queues q) {v : Queue → α} {x : α} :
    p.Safe (queueIs q v x) := by
  induction p with
  | done => exact Prog.safe_done
  | act a k ih =>
    refine (Prog.safe_act ..).2 ⟨fun s hs => ?_, ih h.2⟩
    have hkeep := Prog.keeps (p := eff a) (T := T) ((Prog.only_eff a).2 h.1) s
    exact (congrArg v (hkeep.queues q hq)).trans hs
  | get f ih => exact (Prog.safe_get f).2 fun s _ => ih s (h s)

/-- The frame of what an end does beside the queues. -/
def besideQueues : Touch :=
  { regs := fun _ => True, mem := fun _ => True, crofts := fun _ => True, links := fun _ => True, dev := True, seq := True }

theorem besideQueues_ends : besideQueues.ends :=
  { dev := trivial, mem := fun _ => trivial, cist := fun _ _ _ => trivial, gran := fun _ _ _ => trivial, sluice := fun _ _ _ => trivial,
    group := fun _ _ _ => trivial, own := fun _ _ _ => trivial, reeve := fun _ _ _ => trivial, port := trivial,
    crofts := fun _ => trivial, links := fun _ => trivial, seq := trivial }

theorem besideQueues_seg (c o : Nat) : onReg besideQueues.regs (pgSluice c) o := trivial

section
variable {α : Type} {q : Nat} {v : Queue → α} {x : α}

theorem Prog.queueIs_beside {p : Prog} (h : p.Only besideQueues.allows) : p.Safe (queueIs q v x) := Prog.queueIs_of_only h id

theorem modQueue_queueIs {k : Nat} {f : Queue → Queue} (h : k = q → ∀ r, v r = x → v (f r) = x) : (modQueue k f).Safe (queueIs q v x) := by
  refine (Prog.safe_get _).2 fun s hs => (Prog.safe_eff _).2 fun t ht => ?_
  rw [queueIs, Act.apply_queue_queue_at]
  split
  next e => exact h e.symm _ (by rw [← e]; exact hs)
  next => exact ht

/-- A view of a queue that neither its transfers, nor what stopped it, nor its written records show in. -/
def Stands (v : Queue → α) : Prop :=
  (∀ r xs o, v { r with xfers := xs, stopper := o } = v r) ∧ ∀ r d w, v { r with done := d, written := w } = v r

/-- A view of a queue in which neither its transfers nor its written records show. -/
def Rests (v : Queue → α) : Prop := (∀ r xs, v { r with xfers := xs } = v r) ∧ ∀ r d w, v { r with done := d, written := w } = v r

theorem Stands.rests (h : Stands v) : Rests v := ⟨fun r xs => h.1 r xs r.stopper, h.2⟩

theorem finishXfer_keeps_view {y : Xfer} (hdrops : ∀ r, v r = x → v { r with xfers := r.xfers.filter (fun z => z.idx != y.idx) } = x)
    (hdone : ∀ r d w, v { r with done := d, written := w } = v r) (hx : ∃ s, queueIs q v x s) (k : Nat) : (finishXfer k y).Safe (queueIs q v x) := by
  have hdrop : (dropXfer k y.idx).Safe (queueIs q v x) := modQueue_queueIs fun _ r hr => hdrops r hr
  have hadvance : (modQueue k (fun r => ({ r with written := r.written ++ [y.idx] } : Queue).advance)).Safe (queueIs q v x) :=
    modQueue_queueIs fun _ r hr => (hdone r _ _).trans hr
  refine (Prog.safe_get _).2 fun s _ => ?_
  refine iteInduction (motive := Prog.Safe _) (fun _ => hdrop) fun _ => ?_
  simp only [Prog.safe_all_cons hx, Prog.safe_all_nil, and_true]
  refine ⟨?_, hdrop, ?_, ?_, ?_⟩
  · exact Prog.queueIs_beside (by simp [Prog.only_when, Touch.allows, besideQueues])
  · exact Prog.queueIs_beside ((Prog.only_when ..).2 fun _ => xferFails_ends besideQueues_ends _ _)
  · split
    · exact Prog.queueIs_beside (sluiceCollide_ends besideQueues_ends _ _ _)
    · simp only [Prog.safe_all_cons hx, Prog.safe_all_nil, and_true]
      refine ⟨Prog.queueIs_beside (store_ends besideQueues_ends.toreacts _ _ _), Prog.queueIs_beside (by simp [besideQueues_ends.sluice, endOffsets]), hadvance,
        Prog.queueIs_beside (by simp [Prog.only_when, besideQueues_ends.group]), ?_⟩
      exact Prog.queueIs_beside ((Prog.only_when ..).2 fun _ => xferSignals_ends besideQueues_ends _ _)
  · exact Prog.queueIs_beside (by
      simp [Prog.only_when, besideQueues_ends.sluice, endOffsets, orderFault, orderHalt, besideQueues_ends.reeve, besideQueues_ends.crofts, besideQueues_ends.dev])

theorem finishXfer_queueIs (hv : Rests v) (hx : ∃ s, queueIs q v x s) (k : Nat) (y : Xfer) : (finishXfer k y).Safe (queueIs q v x) :=
  finishXfer_keeps_view (fun r hr => (hv.1 r _).trans hr) hv.2 hx k

theorem completeSeg_queueIs (hv : Stands v) (hx : ∃ s, queueIs q v x s) (k idx i st : Nat) : (completeSeg k idx i st).Safe (queueIs q v x) := by
  have hfinish := finishXfer_queueIs hv.rests hx k
  obtain ⟨hxfers, hdone⟩ := hv
  refine (Prog.safe_get _).2 fun s _ => ?_
  dsimp only
  split
  · exact Prog.safe_done
  split
  · exact Prog.safe_done
  refine iteInduction (motive := Prog.Safe _) (fun _ => Prog.safe_done) fun _ => ?_
  simp only [Prog.safe_all_cons hx, Prog.safe_all_nil, and_true]
  refine ⟨modQueue_queueIs fun _ r hr => (hxfers r _ r.stopper).trans hr, ?_, ?_, ?_, ?_, (Prog.safe_get _).2 fun t _ => ?_⟩
  · exact Prog.queueIs_beside (by simp [dropEntries, besideQueues_ends.dev])
  · exact Prog.queueIs_beside (by simp [Prog.only_when, besideQueues_seg])
  · exact Prog.queueIs_beside (by simp [Prog.only_when, besideQueues_seg])
  · exact (Prog.safe_when ..).2 fun _ => modQueue_queueIs fun _ r hr => (hxfers r _ _).trans hr
  · split
    · exact (Prog.safe_when ..).2 fun _ => hfinish _
    · exact Prog.safe_done

end

end Sys2Proof.Machine
end

open Host
section
/-! O36: doorbells of the queues, and their epochs (R324, R327, R338, R339, R345). -/
namespace Sys2Proof.Machine

variable {s : State}

/-! ### Collisions -/

/-- A collision is counted and heard of. -/
def collideCounts (c : Nat) : Prog := .all [bump (pgOwn c) R.own_COLL_CNT, raiseLine (pgOwn c), tellWatch 14]

/-- COLL_STATUS of a first collision. -/
def collideNames (c source cls index phase : Nat) : Prog := .all [
  setFld (pgOwn c) R.own_COLL_STATUS_VALID 1,
  setFld (pgOwn c) R.own_COLL_STATUS_SOURCE source,
  setFld (pgOwn c) R.own_COLL_STATUS_CLASS cls,
  setFld (pgOwn c) R.own_COLL_STATUS_PHASE phase,
  setFld (pgOwn c) R.own_COLL_STATUS_INDEX index]

/-- The rest of the record of a first collision. -/
def collideWhere (c source order addr : Nat) (snd : Option Sender) : Prog := .all [
  Prog.when (decide (source ≤ 9)) (setFld (pgOwn c) R.own_COLL_ORDER_INDEX order),
  setFld (pgOwn c) R.own_COLL_ADDR_OFFSET addr,
  match snd with
  | none => .done
  | some x => .all [
      setFld (pgOwn c) R.own_COLL_SRC_CROFT x.croft,
      setFld (pgOwn c) R.own_COLL_SRC_VILLAGE_IDX x.vidx,
      setBit (pgOwn c) R.own_COLL_SRC_OUTSIDE x.outside],
  latchBell (pgOwn c) R.own_COLL_BELL_LO R.own_COLL_BELL_HI]

theorem collide_only {T : Touch} {c : Nat} (ho : ∀ o < 0x1000, onReg T.regs (pgOwn c) o) (hd : T.dev) (e cls i o a : Nat) (k : Option Sender) :
    (collide c e cls i o a k).Only T.allows := by
  cases k <;> simp [collide, latchBell, Prog.only_when, Prog.only_ite', ho, hd]

theorem collide_run_eq (c source cls index order addr : Nat) (snd : Option Sender) (s : State) :
    (s.bit (pgOwn c) R.own_COLL_STATUS_VALID = true → (collide c source cls index order addr snd).run s =
      (setFld (pgOwn c) R.own_COLL_STATUS_OVERRUN 1).run ((collideCounts c).run s)) ∧
    (s.bit (pgOwn c) R.own_COLL_STATUS_VALID = false → (collide c source cls index order addr snd).run s =
      (collideWhere c source order addr snd).run ((collideNames c source cls index (s.phase c)).run ((collideCounts c).run s))) := by
  refine ⟨fun hv => ?_, fun hv => ?_⟩
  all_goals
    simp -implicitDefEqProofs only [collide, Prog.run_get, hv, Bool.false_eq_true, if_false, if_true, Prog.run_all_cons, Prog.run_all_nil, collideCounts,
      collideNames, collideWhere] <;> rfl

theorem collideCounts_run (c : Nat) (s : State) :
    let t := (collideCounts c).run s
    Counts s t (pgOwn c) R.own_COLL_CNT 1 ∧ Keeps { regs := theRegs (pgOwn c) [R.own_COLL_CNT, R.CRIER_LINE_RAISED], dev := True } s t := by
  refine ⟨?_, Prog.keeps (by simp [collideCounts]) s⟩
  have hcnt := (bumpBy_run (pgOwn c) R.own_COLL_CNT 1 s).1
  have htail := Prog.keeps (p := .all [raiseLine (pgOwn c), tellWatch 14]) (T := { regs := theRegs (pgOwn c) [R.CRIER_LINE_RAISED], dev := True }) (by simp)
    ((bump (pgOwn c) R.own_COLL_CNT).run s)
  rw [Counts, ← hcnt]
  rw [collideCounts, Prog.run_all_cons]
  exact htail.reg_eq (o := R.own_COLL_CNT.off) (not_theRegs_offset (by decide) _)

theorem collideWhere_keeps (c source order addr : Nat) (snd : Option Sender) (s : State) :
    Keeps { regs := theRegs (pgOwn c) [R.own_COLL_ORDER_INDEX, R.own_COLL_ADDR_OFFSET, R.own_COLL_SRC_CROFT, R.own_COLL_BELL_LO, R.own_COLL_BELL_HI] } s
      ((collideWhere c source order addr snd).run s) := by
  refine Prog.keeps ?_ s
  cases snd <;> simp [collideWhere, latchBell, Prog.only_when]

theorem collide_run {source cls : Nat} (hs : source < 16) (hc : cls < 8) (c index order addr : Nat) (snd : Option Sender) (s : State) :
    let t := (collide c source cls index order addr snd).run s
    let own := pgOwn c
    Counts s t own R.own_COLL_CNT 1 ∧ t.bit own R.own_COLL_STATUS_VALID = true ∧
    (s.bit own R.own_COLL_STATUS_VALID = false → t.fld own R.own_COLL_STATUS_SOURCE = source ∧ t.fld own R.own_COLL_STATUS_CLASS = cls) ∧
    t.reg own R.own_HOST_COLL_CNT.off = s.reg own R.own_HOST_COLL_CNT.off ∧ t.reg own R.own_IN_COLL_CNT.off = s.reg own R.own_IN_COLL_CNT.off ∧
    Keeps { regs := own.covers, dev := True } s t := by
  have hsource := Nat.mod_eq_of_lt hs
  have hcls := Nat.mod_eq_of_lt hc
  have hkeep := Prog.keeps (collide_only (T := { regs := (pgOwn c).covers, dev := True }) (c := c) (by simp) trivial source cls index order addr snd) s
  obtain ⟨hheld, hfree⟩ := collide_run_eq c source cls index order addr snd s
  obtain ⟨hcnt, hcounts⟩ := collideCounts_run c s
  have hsame {o : Nat} (ho : o ∉ [R.own_COLL_CNT.off, R.CRIER_LINE_RAISED.off]) : ((collideCounts c).run s).reg (pgOwn c) o = s.reg (pgOwn c) o :=
    hcounts.reg_eq (not_theRegs_offset ho _)
  cases hv : s.bit (pgOwn c) R.own_COLL_STATUS_VALID
  · rw [hfree hv] at hkeep ⊢
    generalize s.phase c = phase at *
    generalize (collideCounts c).run s = u at *
    have hnames : Keeps { regs := theRegs (pgOwn c) [R.own_COLL_STATUS_VALID] } u ((collideNames c source cls index phase).run u) :=
      Prog.keeps (by simp [collideNames]) u
    have hset : let w := (collideNames c source cls index phase).run u
        w.bit (pgOwn c) R.own_COLL_STATUS_VALID = true ∧ w.fld (pgOwn c) R.own_COLL_STATUS_SOURCE = source ∧
        w.fld (pgOwn c) R.own_COLL_STATUS_CLASS = cls := by
      simp -implicitDefEqProofs [collideNames, hsource, hcls, State.bit]
    generalize (collideNames c source cls index phase).run u = w at *
    have hwhere := collideWhere_keeps c source order addr snd w
    have hreg {o : Nat} (ho : o ∉ [R.own_COLL_STATUS_VALID.off, R.own_COLL_ORDER_INDEX.off, R.own_COLL_ADDR_OFFSET.off, R.own_COLL_SRC_CROFT.off,
        R.own_COLL_BELL_LO.off, R.own_COLL_BELL_HI.off]) : ((collideWhere c source order addr snd).run w).reg (pgOwn c) o = u.reg (pgOwn c) o := by
      simp only [List.mem_cons, List.not_mem_nil, or_false, not_or] at ho
      obtain ⟨h1, h2⟩ := ho
      rw [hwhere.reg_eq (not_theRegs_offset (by simpa using h2) _), hnames.reg_eq (not_theRegs_offset (by simpa using h1) _)]
    refine ⟨(hreg (by decide)).trans hcnt, (hwhere.bit_eq (not_theRegs_offset (by decide) _)).trans hset.1,
      fun _ => ⟨(hwhere.fld_eq (not_theRegs_offset (by decide) _)).trans hset.2.1, (hwhere.fld_eq (not_theRegs_offset (by decide) _)).trans hset.2.2⟩,
      (hreg (by decide)).trans (hsame (by decide)), (hreg (by decide)).trans (hsame (by decide)), hkeep⟩
  · rw [hheld hv] at hkeep ⊢
    have hvalid : ((collideCounts c).run s).bit (pgOwn c) R.own_COLL_STATUS_VALID = true := by
      rw [State.bit, State.fld_eq, hsame (by decide), ← State.fld_eq]
      exact hv
    generalize (collideCounts c).run s = u at *
    have hover : Keeps { regs := theRegs (pgOwn c) [R.own_COLL_STATUS_OVERRUN] } u ((setFld (pgOwn c) R.own_COLL_STATUS_OVERRUN 1).run u) :=
      Prog.keeps (by simp) u
    refine ⟨(hover.reg_eq (not_theRegs_offset (by decide) _)).trans hcnt, ?_, fun h => absurd h (by rw [hv]; decide),
      (hover.reg_eq (o := R.own_HOST_COLL_CNT.off) (not_theRegs_offset (by decide) _)).trans (hsame (by decide)),
      (hover.reg_eq (o := R.own_IN_COLL_CNT.off) (not_theRegs_offset (by decide) _)).trans (hsame (by decide)), hkeep⟩
    have hother : ((setFld (pgOwn c) R.own_COLL_STATUS_OVERRUN 1).run u).bit (pgOwn c) R.own_COLL_STATUS_VALID = u.bit (pgOwn c) R.own_COLL_STATUS_VALID := by
      simp -implicitDefEqProofs [State.bit]
    rw [hother, hvalid]

theorem not_covers {p q : Page} (h : p.kind ≠ q.kind) (hp : p.placed) (hq : q.placed) {o : Nat} (ho : o < 0x1000) : ¬ q.covers (p.base + o) :=
  fun ⟨hlo, hhi⟩ => apart_ne (p := p) (q := q) (o := o) (o' := p.base + o - q.base) ⟨ho, by omega, .inr ⟨.inl h, hp, hq⟩⟩ (by omega)

/-! ### Doorbells -/

/-- A doorbell of an agent that does not own the queue collides. -/
def bellCollides (c j addr : Nat) : Prog := .all [bump (pgOwn c) R.own_HOST_COLL_CNT, collide c 10 clQueue j 0 addr none, eff .seq]

theorem bellCollides_run (c j addr : Nat) (s : State) :
    let t := (bellCollides c j addr).run s
    let own := pgOwn c
    Counts s t own R.own_HOST_COLL_CNT 1 ∧ Counts s t own R.own_COLL_CNT 1 ∧ t.bit own R.own_COLL_STATUS_VALID = true ∧
    (s.bit own R.own_COLL_STATUS_VALID = false → t.fld own R.own_COLL_STATUS_SOURCE = 10 ∧ t.fld own R.own_COLL_STATUS_CLASS = 4) ∧
    Keeps { regs := own.covers, dev := True, seq := True } s t := by
  obtain ⟨hcnt, hbump⟩ := bumpBy_run (pgOwn c) R.own_HOST_COLL_CNT 1 s
  have hone : bump (pgOwn c) R.own_HOST_COLL_CNT = bumpBy (pgOwn c) R.own_HOST_COLL_CNT 1 := rfl
  have hall : Keeps { regs := (pgOwn c).covers, dev := True, seq := True } s ((bellCollides c j addr).run s) := Prog.keeps (by
    simp [bellCollides, collide_only, Touch.allows]) s
  rw [bellCollides, Prog.run_all_cons, Prog.run_all_cons, Prog.run_all_cons, Prog.run_all_nil, hone] at *
  generalize (bumpBy (pgOwn c) R.own_HOST_COLL_CNT 1).run s = u at *
  obtain ⟨hcoll, hvalid, hnames, hhost, -, hkeep⟩ := collide_run (source := 10) (cls := clQueue) (by decide) (by decide) c j 0 addr none u
  generalize (collide c 10 clQueue j 0 addr none).run u = w at *
  have hseq : Keeps { seq := True } w ((eff .seq).run w) := Prog.keeps (by simp [Touch.allows]) w
  have hbit : u.bit (pgOwn c) R.own_COLL_STATUS_VALID = s.bit (pgOwn c) R.own_COLL_STATUS_VALID := hbump.bit_eq (not_theRegs_offset (by decide) _)
  have hreg : u.reg (pgOwn c) R.own_COLL_CNT.off = s.reg (pgOwn c) R.own_COLL_CNT.off := hbump.reg_eq (not_theRegs_offset (by decide) _)
  rw [hbit] at hnames
  rw [Counts, hreg] at hcoll
  refine ⟨(hseq.reg_eq id).trans (hhost.trans hcnt), (hseq.reg_eq id).trans hcoll, (hseq.bit_eq id).trans hvalid,
    fun hn => ⟨(hseq.fld_eq id).trans (hnames hn).1, (hseq.fld_eq id).trans (hnames hn).2⟩, hall⟩

theorem exec_ringDoorbell {q : QueueId} {who : Ringer} {n : BitVec 16} (h : s.reaches (ringAgent who) (pgQueue q.val)) :
    (n = 0 → exec (.doorbell q who n) s = .next ((ignored (pgQueue q.val)).run s)) ∧
    (n ≠ 0 → s.queueOwner (qCroft q.val) (qLocal q.val) ≠ ringOwner who → exec (.doorbell q who n) s =
      .next ((Prog.when (ringOwner who == 2) (hostEnd 0 endRefused true ((pgQueue q.val).base + R.qgroup_DOORBELL_COUNT.off + qblk q.val))).run
        ((bellCollides (qCroft q.val) (qLocal q.val) ((Config.openWord s.seq).toNat % 2 ^ 28)).run s))) ∧
    (n ≠ 0 → s.queueOwner (qCroft q.val) (qLocal q.val) = ringOwner who → exec (.doorbell q who n) s =
      .next ((if s.hasRoom q.val n.toNat then ring q.val n.toNat (ringOwner who) none else
        bump (pgSluice (qCroft q.val)) R.sluice_DB_REFUSE_CNT).run s)) := by
  have hexec : exec (.doorbell q who n) s = .next ((doorbell q.val (ringOwner who) n.toNat).run s) := by
    show execDoorbell q who n s = _
    rw [execDoorbell, Prog.next_eq, regWrite_reaches h]
  have hzero (hn : n ≠ 0) : ¬ n.toNat = 0 := fun e => hn (BitVec.eq_of_toNat_eq e)
  refine ⟨fun hn => ?_, fun hn ho => ?_, fun hn ho => ?_⟩
  · rw [hexec, hn]
    rfl
  · rw [hexec, doorbell, Prog.run_get, if_neg (hzero hn), if_pos ho]
    simp -implicitDefEqProofs only [Prog.run_all_cons, Prog.run_all_nil, bellCollides]
  · rw [hexec, doorbell, Prog.run_get, if_neg (hzero hn), if_neg (not_not.2 ho)]

theorem ringOwner_host (who : Ringer) : (ringOwner who == 2) = true ↔ who = .host := by cases who <;> decide

theorem doorbell_collides {q : QueueId} {who : Ringer} {n : BitVec 16} (h : s.reaches (ringAgent who) (pgQueue q.val)) (hn : n ≠ 0)
    (ho : s.queueOwner (qCroft q.val) (qLocal q.val) ≠ ringOwner who) :
    let own := pgOwn (qCroft q.val)
    Leaves (exec (.doorbell q who n) s) fun t =>
      Counts s t own R.own_HOST_COLL_CNT 1 ∧ Counts s t own R.own_COLL_CNT 1 ∧ t.bit own R.own_COLL_STATUS_VALID = true ∧
      (s.bit own R.own_COLL_STATUS_VALID = false → t.fld own R.own_COLL_STATUS_SOURCE = 10 ∧ t.fld own R.own_COLL_STATUS_CLASS = 4) ∧
      (who = .host → HostEnds s t 0 endRefused true ((pgQueue q.val).base + R.qgroup_DOORBELL_COUNT.off + qblk q.val)) ∧
      Keeps { regs := fun a => own.covers a ∨ (who = .host ∧ theRegs pgHost (hostEndRegs endRefused) a), dev := True, seq := True } s t := by
  dsimp only
  rw [(exec_ringDoorbell h).2.1 hn ho]
  refine Leaves.of_next ?_
  obtain ⟨hhost, hcoll, hvalid, hnames, hkeep⟩ := bellCollides_run (qCroft q.val) (qLocal q.val) ((Config.openWord s.seq).toNat % 2 ^ 28) s
  generalize (bellCollides (qCroft q.val) (qLocal q.val) ((Config.openWord s.seq).toNat % 2 ^ 28)).run s = u at *
  have hfirst : Keeps
      { regs := fun a => (pgOwn (qCroft q.val)).covers a ∨ (who = .host ∧ theRegs pgHost (hostEndRegs endRefused) a), dev := True, seq := True }
      s u := hkeep.mono (by
    constructor
    case regs => exact fun a => .inl
    all_goals simp)
  by_cases hw : who = .host
  · rw [(ringOwner_host who).2 hw, Prog.run_when_true]
    obtain ⟨hends, hend⟩ := hostEnd_run (bar := 0) (kind := endRefused) (by decide) (by decide) true
      ((pgQueue q.val).base + R.qgroup_DOORBELL_COUNT.off + qblk q.val) u
    generalize (hostEnd 0 endRefused true ((pgQueue q.val).base + R.qgroup_DOORBELL_COUNT.off + qblk q.val)).run u = t at *
    have hown {o : Nat} (ho : o < 0x1000) : t.reg (pgOwn (qCroft q.val)) o = u.reg (pgOwn (qCroft q.val)) o :=
      hend.reg_eq (not_theRegs_apart (by
        intro f hf
        have hf' : f.off < 0x1000 := by
          revert f
          decide
        simp [ho, hf']))
    have hpage {o : Nat} (ho : o < 0x1000) : u.reg pgHost o = s.reg pgHost o :=
      hkeep.reg_eq (not_covers (by simp) (by simp) (by simp) ho)
    refine ⟨(hown (by decide)).trans hhost, (hown (by decide)).trans hcoll, ?_, fun hn => ?_, fun _ => hends.congr (fun o ho => hpage ho) (hkeep.out id),
      hfirst.trans (hend.mono ?_)⟩
    · rw [State.bit, State.fld_eq, hown (by decide), ← State.fld_eq]
      exact hvalid
    · rw [State.fld_eq, State.fld_eq _ _ R.own_COLL_STATUS_CLASS, hown (by decide)]
      exact hnames hn
    · constructor
      case regs => exact fun a ha => .inr ⟨hw, ha⟩
      all_goals simp
  · have hf : (ringOwner who == 2) = false := Bool.eq_false_iff.2 fun e => hw ((ringOwner_host who).1 e)
    rw [hf]
    exact ⟨hhost, hcoll, hvalid, hnames, fun e => absurd e hw, hfirst⟩

/-! ### Epochs -/

/-- What an advance of the epoch leaves of a queue besides its transfers, records and stop. -/
def epochView (r : Queue) : Nat × List Nat × List (Nat × Nat) × Option (Option Nat) × Nat × Nat :=
  (r.epoch, r.tags, r.left, r.waiting, r.head, r.tail)

theorem epochView_stands : Stands epochView := ⟨fun _ _ _ => rfl, fun _ _ _ => rfl⟩

theorem queueIs_run {α : Type} {q : Nat} {v : Queue → α} {p : Prog} (h : ∀ x, (∃ s, queueIs q v x s) → p.Safe (queueIs q v x)) (s : State) :
    v ((p.run s).queue q) = v (s.queue q) := (h _ (exists_queueIs q v s)).run rfl

/-- Transfers of the old epoch complete with TIMEOUT. -/
def oldEnds (q : Nat) (old : List Xfer) : Prog :=
  Prog.each old (fun x => Prog.each (List.range x.segs.length) (fun k => completeSeg q x.idx k 6))

/-- The next epoch begins. -/
def nextEpoch (q now : Nat) : Prog := modQueue q (fun r => { r with
  epoch := (r.epoch + 1) % 16, tags := [], waiting := none, left := Sparse.set r.left r.epoch now })

/-- The record of the EPOCH descriptor that ordered an advance. -/
def epochRecord (q : Nat) (order : Option Nat) (xs : List Xfer) : Prog :=
  match order with
  | some i => (match xs.find? (fun x => x.idx == i) with
      | some x => finishXfer q { x with segs := [] }
      | none => .done)
  | none => .done

theorem epochTakes_run_eq (q : Nat) (order : Option Nat) (s : State) : (epochTakes q order).run s =
    (epochRecord q order (s.queue q).xfers).run ((nextEpoch q s.now).run ((oldEnds q ((s.queue q).xfers.filter (fun x => order != some x.idx))).run s)) := by
  rw [epochTakes, Prog.run_get, Prog.run_all_cons, Prog.run_all_cons, Prog.run_all_cons, Prog.run_all_nil]
  rfl

theorem oldEnds_queueIs {α : Type} {q : Nat} {v : Queue → α} {x : α} (hv : Stands v) (hx : ∃ s, queueIs q v x s) (k : Nat) (old : List Xfer) :
    (oldEnds k old).Safe (queueIs q v x) := by
  rw [oldEnds, Prog.safe_each hx]
  intro y _
  rw [Prog.safe_each hx]
  exact fun i _ => completeSeg_queueIs hv hx k _ i 6

theorem epochRecord_queueIs {α : Type} {q : Nat} {v : Queue → α} {x : α} (hv : Stands v) (hx : ∃ s, queueIs q v x s) (k : Nat) (order : Option Nat)
    (xs : List Xfer) : (epochRecord k order xs).Safe (queueIs q v x) := by
  unfold epochRecord
  split
  · split
    · exact finishXfer_queueIs hv.rests hx _ _
    · exact Prog.safe_done
  · exact Prog.safe_done

theorem modQueue_run_self (q : Nat) (f : Queue → Queue) (s : State) : ((modQueue q f).run s).queue q = f (s.queue q) :=
  (Act.apply_queue_queue_at ..).trans (if_pos rfl)

theorem epochTakes_run (q : Nat) (order : Option Nat) (s : State) : EpochTakes s ((epochTakes q order).run s) q := by
  have hold := queueIs_run (q := q) (v := epochView) (fun x hx => oldEnds_queueIs epochView_stands hx q ((s.queue q).xfers.filter (fun x => order != some x.idx))) s
  rw [epochTakes_run_eq]
  generalize (oldEnds q ((s.queue q).xfers.filter (fun x => order != some x.idx))).run s = u at *
  have hnext := modQueue_run_self q (fun r => { r with
    epoch := (r.epoch + 1) % 16, tags := [], waiting := none, left := Sparse.set r.left r.epoch s.now }) u
  have hrecord := queueIs_run (q := q) (v := epochView) (fun x hx => epochRecord_queueIs epochView_stands hx q order (s.queue q).xfers) ((nextEpoch q s.now).run u)
  generalize (epochRecord q order (s.queue q).xfers).run ((nextEpoch q s.now).run u) = t at *
  rw [show (nextEpoch q s.now).run u = _ from rfl, nextEpoch, hnext] at hrecord
  simp only [epochView, Prod.mk.injEq] at hold hrecord
  obtain ⟨hepoch, -, hleft, -, hhead, htail⟩ := hold
  obtain ⟨repoch, rtags, rleft, rwaiting, rhead, rtail⟩ := hrecord
  refine ⟨by rw [repoch, hepoch], rtags, rwaiting, ?_, rhead.trans hhead, rtail.trans htail⟩
  rw [rleft, hepoch, Sparse.get?_set, if_pos rfl]

theorem epochAdvance_run (q : Nat) (order : Option Nat) (s : State) :
    (s.leftSoon q = false → (epochAdvance q order).run s = (epochTakes q order).run s) ∧
    (s.leftSoon q = true → EpochWaits s ((epochAdvance q order).run s) q order ∧
      ((epochAdvance q order).run s).queue q = { s.queue q with waiting := some order }) := by
  rw [epochAdvance, Prog.run_get]
  dsimp only
  simp only [State.leftSoon]
  cases h : Sparse.get? (s.queue q).left (((s.queue q).epoch + 1) % 16) with
  | none => exact ⟨fun _ => rfl, fun hn => nomatch hn⟩
  | some t0 =>
    by_cases hlt : s.now < t0 + s.epochGuard q
    · have hwait : let t := (Prog.all [modQueue q (fun r => { r with waiting := some order }),
          bump (pgSluice (qCroft q)) R.sluice_EPOCH_WAIT_CNT]).run s
          t.queue q = { s.queue q with waiting := some order } ∧ Counts s t (pgSluice (qCroft q)) R.sluice_EPOCH_WAIT_CNT 1 := by
        rw [Prog.run_all_cons, Prog.run_all_cons, Prog.run_all_nil]
        have hmod := modQueue_run_self q (fun r => { r with waiting := some order }) s
        have hkeep : Keeps { queues := (· = q) } s ((modQueue q (fun r => { r with waiting := some order })).run s) := Prog.keeps (by simp) s
        generalize (modQueue q (fun r => { r with waiting := some order })).run s = u at *
        obtain ⟨hcnt, hbump⟩ := bumpBy_run (pgSluice (qCroft q)) R.sluice_EPOCH_WAIT_CNT 1 u
        refine ⟨(hbump.queues q id).trans hmod, ?_⟩
        rw [Counts, ← hkeep.reg_eq (p := pgSluice (qCroft q)) (o := R.sluice_EPOCH_WAIT_CNT.off) id]
        exact hcnt
      simp only [if_pos hlt]
      generalize (Prog.all [modQueue q (fun r => { r with waiting := some order }), bump (pgSluice (qCroft q)) R.sluice_EPOCH_WAIT_CNT]).run s = t at *
      obtain ⟨hqueue, hcnt⟩ := hwait
      exact ⟨fun hn => absurd hn (by simp [hlt]), fun _ => ⟨⟨by rw [hqueue], by rw [hqueue], hcnt⟩, hqueue⟩⟩
    · simp only [if_neg hlt]
      exact ⟨fun _ => trivial, fun hn => absurd hn (by simpa using hlt)⟩

/-- A change of a queue's transfers or of what stopped it, before the epoch advances. -/
theorem modQueue_aside {q : Nat} {f : Queue → Queue} (hf : ∀ r, epochView (f r) = epochView r) (s : State) :
    let u := (modQueue q f).run s
    epochView (u.queue q) = epochView (s.queue q) ∧ u.leftSoon q = s.leftSoon q ∧ u.now = s.now ∧ ∀ p o, u.reg p o = s.reg p o := by
  have hrun := modQueue_run_self q f s
  have hkeep : Keeps { queues := (· = q) } s ((modQueue q f).run s) := Prog.keeps (by simp) s
  generalize (modQueue q f).run s = u at *
  have hview : epochView (u.queue q) = epochView (s.queue q) := by rw [hrun, hf]
  have hreg (p : Page) (o : Nat) : u.reg p o = s.reg p o := hkeep.reg_eq id
  refine ⟨hview, ?_, hkeep.now, hreg⟩
  simp only [epochView, Prod.mk.injEq] at hview
  obtain ⟨hepoch, -, hleft, -, -, -⟩ := hview
  rw [State.leftSoon, State.leftSoon, hepoch, hleft, hkeep.now, State.epochGuard, State.epochGuard, State.qfld, State.qfld, State.fld_eq, hreg, ← State.fld_eq]

theorem epochAdvance_after {q : Nat} {f : Queue → Queue} (hf : ∀ r, epochView (f r) = epochView r) (order : Option Nat) (s : State) :
    let t := (epochAdvance q order).run ((modQueue q f).run s)
    (s.leftSoon q = false → EpochTakes s t q) ∧
    (s.leftSoon q = true → EpochWaits s t q order ∧ (t.queue q).stopper = (f (s.queue q)).stopper) := by
  obtain ⟨hview, hsoon, hnow, hreg⟩ := modQueue_aside hf s
  have hrun := modQueue_run_self q f s
  generalize (modQueue q f).run s = u at *
  obtain ⟨htakes, hwaits⟩ := epochAdvance_run q order u
  simp only [epochView, Prod.mk.injEq] at hview
  obtain ⟨hepoch, htags, hleft, hwaiting, hhead, htail⟩ := hview
  refine ⟨fun h => ?_, fun h => ?_⟩
  · rw [htakes (hsoon.trans h)]
    obtain ⟨h1, h2, h3, h4, h5, h6⟩ := epochTakes_run q order u
    exact ⟨by rw [h1, hepoch], h2, h3, by rw [← hepoch, h4, hnow], h5.trans hhead, h6.trans htail⟩
  · obtain ⟨⟨h1, h2, h3⟩, hqueue⟩ := hwaits (hsoon.trans h)
    exact ⟨⟨h1, h2.trans hepoch, h3.trans (by rw [hreg])⟩, by rw [hqueue, hrun]⟩

/-- A restart leaves no transfer of a stopped queue to end. -/
theorem stopped_of_state {r : Queue} (h : r.state = 2) : r.xfers = [] := by
  unfold Queue.state at h
  split at h
  · contradiction
  · split at h
    next hs => exact List.isEmpty_iff.1 ((Bool.and_eq_true _ _).mp hs).2
    next => split at h <;> contradiction

theorem epochTakes_stopper {q : Nat} (h : (s.queue q).xfers = []) : (((epochTakes q none).run s).queue q).stopper = (s.queue q).stopper := by
  rw [epochTakes_run_eq, h]
  show (((nextEpoch q s.now).run s).queue q).stopper = _
  rw [nextEpoch, modQueue_run_self]

/-- Settles O36: a doorbell by its owner and its room, an epoch by the state of its queue. -/
theorem doorbellsAndEpochs : Obligations.DoorbellsAndEpochs := by
  unfold Obligations.DoorbellsAndEpochs
  refine ⟨fun s q who n h => ⟨fun hn => ?_, doorbell_collides h, fun hn ho hr => ?_, fun hn ho hr => ?_⟩,
    fun s q => ⟨fun x hx => ?_, fun o ho => ?_, fun hn => ?_, fun h => ?_⟩⟩
  · rw [(exec_ringDoorbell h).1 hn]
    exact Leaves.of_next (ignored_run _ s)
  · rw [(exec_ringDoorbell h).2.2 hn ho, hr]
    rw [if_pos rfl]
    exact Leaves.of_next ⟨modQueue_run_self .., Prog.keeps (by simp [ring]) s⟩
  · rw [(exec_ringDoorbell h).2.2 hn ho, hr]
    exact Leaves.of_next (bumpBy_run _ R.sluice_DB_REFUSE_CNT 1 s)
  · have hexec : exec (.epoch q) s = .next ((epochAdvance q.val (some x.idx)).run ((unfresh q.val x.idx).run s)) := by
      show execEpoch q s = _
      simp -implicitDefEqProofs only [execEpoch, Prog.next_eq, Prog.run_get, hx, Prog.run_all_cons, Prog.run_all_nil]
    rw [hexec]
    obtain ⟨htakes, hwaits⟩ := epochAdvance_after (f := fun r => { r with
      xfers := r.xfers.map (fun y => if y.idx = x.idx then { y with fresh := false } else y) }) (fun _ => rfl) (some x.idx) (q := q.val) s
    exact ⟨fun h => ⟨_, rfl, htakes h⟩, fun h => ⟨_, rfl, (hwaits h).1⟩⟩
  · have hexec : exec (.epochWaitEnd q) s = .next ((epochTakes q.val o).run s) := by
      show execEpochWaitEnd q s = _
      simp -implicitDefEqProofs only [execEpochWaitEnd, Prog.next_eq, Prog.run_get, ho]
    rw [hexec]
    exact Leaves.of_next (epochTakes_run ..)
  · show execEpochWaitEnd q s = _
    simp -implicitDefEqProofs only [execEpochWaitEnd, Prog.next_eq, Prog.run_get, hn, Prog.run_done]
  · have hrestart : exec (.queueRestart q) s = .next ((queueRestart q.val).run s) := by
      show execQueueRestart q s = _
      rw [execQueueRestart, Prog.next_eq, regWrite_reaches h]
    have hadvance : exec (.advanceEpoch q) s = .next ((queueAdvance q.val).run s) := by
      show execAdvanceEpoch q s = _
      rw [execAdvanceEpoch, Prog.next_eq, regWrite_reaches h]
    have hgoes (h2 : (s.queue q.val).state = 2) : (queueRestart q.val).run s =
        (epochAdvance q.val none).run ((modQueue q.val (fun r => { r with stopper := none })).run s) := by
      simp -implicitDefEqProofs only [queueRestart, Prog.run_get, h2, bne_self_eq_false, Bool.false_eq_true, if_false, Prog.run_all_cons, Prog.run_all_nil]
    have hcmd (h0 : (s.queue q.val).state = 0) : (queueAdvance q.val).run s = (epochAdvance q.val none).run s := by
      simp -implicitDefEqProofs only [queueAdvance, Prog.run_get, h0, bne_self_eq_false, Bool.false_eq_true, if_false]
    obtain ⟨htakes, hwaits⟩ := epochAdvance_after (q := q.val) (f := fun r => { r with stopper := none }) (fun _ => rfl) none s
    obtain ⟨hnow, hlater⟩ := epochAdvance_run q.val none s
    rw [hrestart, hadvance]
    refine ⟨fun h2 hs => ?_, fun h2 hs => ?_, fun h2 => ?_, fun h0 hs => ?_, fun h0 hs => ?_, fun h0 => ?_⟩
    · rw [hgoes h2]
      refine ⟨_, rfl, htakes hs, ?_⟩
      have hself := modQueue_run_self q.val (fun r => { r with stopper := none }) s
      obtain ⟨-, hsoon, -⟩ := modQueue_aside (q := q.val) (f := fun r => { r with stopper := none }) (fun _ => rfl) s
      generalize (modQueue q.val (fun r => { r with stopper := none })).run s = u at *
      rw [(epochAdvance_run q.val none u).1 (hsoon.trans hs), epochTakes_stopper (by rw [hself]; exact stopped_of_state (r := s.queue q.val) h2), hself]
    · rw [hgoes h2]
      exact ⟨_, rfl, hwaits hs⟩
    · rw [queueRestart, Prog.run_get, if_pos (by simpa using h2)]
      exact ⟨_, rfl, ignored_run _ s⟩
    · rw [hcmd h0, hnow hs]
      exact ⟨_, rfl, epochTakes_run ..⟩
    · rw [hcmd h0]
      exact ⟨_, rfl, (hlater hs).1⟩
    · rw [queueAdvance, Prog.run_get, if_pos (by simpa using h0)]
      exact ⟨_, rfl, ignored_run _ s⟩

end Sys2Proof.Machine
end

open Host
section
/-! O37: descriptors start and take effect (R328, R330, R331, R335 to R337). -/
namespace Sys2Proof.Machine

variable {s : State}

/-! ### The record of a transfer -/

theorem length_record (x : Xfer) (stopped : Bool) (bell nseg : Nat) : (x.record stopped bell nseg).length = 32 := by
  simp [Xfer.record, length_toLe]

/-- A transfer's record is written, DONE follows, and its signals are sent. -/
def recordWritten (q : Nat) (x : Xfer) (a : Nat) (bs : List Byte) (signals : Bool) : Prog := .all [
  store (some (.sluice (Fin.ofNat 16384 q))) a bs,
  bump (pgSluice (qCroft q)) R.sluice_XFER_CNT,
  modQueue q (fun r => ({ r with written := r.written ++ [x.idx] } : Queue).advance),
  Prog.when x.desc.irq (raiseLine (pgQueue q)),
  Prog.when signals (xferSignals q x.desc)]

/-- A transfer that stopped its queue stops the croft that rang it. -/
def stopsCroft (q st a order : Nat) : Prog := .all [pageFault (pgSluice (qCroft q)) (if st = 9 then 2 else 1) a, orderFault (qCroft q) order 9]

/-- A transfer leaves its queue, with a failure recorded. -/
def leavesQueue (q : Nat) (x : Xfer) (free : Bool) : Prog := .all [
  Prog.when free (eff .seq),
  dropXfer q x.idx,
  Prog.when x.firstBad.isSome (xferFails q x.idx (match x.firstBad with | some b => b.2 | none => 0))]

/-- What a transfer's record says of the number of segments. -/
def State.segCount (s : State) (x : Xfer) : Nat :=
  if x.desc.nseg = 0 ∨ 64 < x.desc.nseg then (Config.openWord s.seq).toNat % 128 else x.desc.nseg

/-- The record goes to its place, or collides there. -/
def recordGoes (q : Nat) (x : Xfer) (miss : Option Nat) (a : Nat) (bs : List Byte) (signals : Bool) : Prog :=
  match miss with
  | some b => sluiceCollide q clBank (b / bankSize) (some b)
  | none => recordWritten q x a bs signals

theorem finishXfer_run (q : Nat) (x : Xfer) (h : s.croftUnderReset (qCroft q) = false) : (finishXfer q x).run s =
    (Prog.when ((x.firstBad.isSome && (s.queue q).stopper == some x.idx) && (s.queue q).owner == 1)
      (stopsCroft q (match x.firstBad with | some b => b.2 | none => 0) (s.descOff q x.idx) (s.queue q).order)).run
    ((recordGoes q x (s.bankMiss (qCroft q) agSluice true (s.recOff q x.idx) 32) (sliceAddr (qCroft q) (s.recOff q x.idx))
      (x.record (x.firstBad.isSome && (s.queue q).stopper == some x.idx) s.bellNow (s.segCount x)) (!x.firstBad.isSome)).run
    ((leavesQueue q x (decide (x.desc.nseg = 0 ∨ 64 < x.desc.nseg))).run s)) := by
  rw [finishXfer, Prog.run_get]
  simp -implicitDefEqProofs only [h, Bool.false_eq_true, if_false, Prog.run_all_cons, Prog.run_all_nil, leavesQueue]
  rfl

/-! ### Registers of several pages -/

theorem not_someRegs_apart {l : List (Page × List Fld)} {p : Page} {o : Nat} (h : ∀ x ∈ l, ∀ f ∈ x.2, apart p o x.1 f.off) :
    ¬ someRegs l (p.base + o) :=
  fun ⟨x, hx, hr⟩ => not_theRegs_apart (h x hx) hr

theorem someRegs_mono {l m : List (Page × List Fld)} (h : l ⊆ m) : ∀ a, someRegs l a → someRegs m a := fun _ ⟨x, hx, hr⟩ => ⟨x, h hx, hr⟩

/-! ### Signals -/

/-- Two states agree on a page. -/
def SamePage (p : Page) (s t : State) : Prop := ∀ o < 0x1000, t.reg p o = s.reg p o

theorem SamePage.fld {p : Page} {t : State} (h : SamePage p s t) {f : Fld} (hf : f.off < 0x1000) : t.fld p f = s.fld p f := congrArg f.of (h _ hf)

theorem SamePage.portFld {t : State} (h : SamePage pgPort s t) {f : Fld} {k : Nat} (hf : f.off + k < 0x1000) : t.portFld f k = s.portFld f k :=
  h.fld (f := f.plus k) hf

theorem find?_range_congr {f g : Nat → Bool} {n : Nat} (h : ∀ i < n, f i = g i) : (List.range n).find? f = (List.range n).find? g := by
  have hcongr (l : List Nat) (hl : ∀ i ∈ l, f i = g i) : l.find? f = l.find? g := by
    induction l with
    | nil => rfl
    | cons x xs ih =>
      rw [List.find?_cons, List.find?_cons, hl x (List.mem_cons_self ..), ih fun i hi => hl i (List.mem_cons_of_mem _ hi)]
  exact hcongr _ fun i hi => h i (List.mem_range.1 hi)

theorem State.portTowards_congr {t : State} (h : SamePage pgPort s t) {v : Nat} (hv : v < 16) : t.portTowards v = s.portTowards v := by
  have hfind := find?_range_congr (n := 16) (f := fun p => t.portValid p false && t.portFld R.port_PORT_FAR_FAR_VIDX (8 * p) == v)
    (g := fun p => s.portValid p false && s.portFld R.port_PORT_FAR_FAR_VIDX (8 * p) == v) fun p hp => by
      simp only [State.portValid]
      rw [h.portFld (by simp only []; omega), h.portFld (by simp only []; omega), h.portFld (by simp only []; omega)]
  rw [State.portTowards, State.portTowards, hfind, h.portFld (by simp only []; omega), h.portFld (by simp only []; omega)]

theorem State.village_congr {t : State} (h : SamePage pgPort s t) (a : Nat) : t.village a = s.village a := by
  have hv : a / 2 ^ 48 % 16 < 16 := Nat.mod_lt _ (by decide)
  simp only [State.village]
  generalize a / 2 ^ 48 % 16 = v at *
  rw [h.fld (by decide), State.portTowards_congr h hv, h.portFld (by simp only []; omega)]

theorem State.dstDev_congr {t : State} (h : SamePage pgPort s t) (d : Desc) : t.dstDev d = s.dstDev d := by
  have hfind := find?_range_congr (n := 16)
    (f := fun p => t.portFld R.port_PORT_LINKS_VALID (8 * p) == 1 && t.portFld R.port_PORT_FAR_FAR_DEV (8 * p) == d.dev)
    (g := fun p => s.portFld R.port_PORT_LINKS_VALID (8 * p) == 1 && s.portFld R.port_PORT_FAR_FAR_DEV (8 * p) == d.dev) fun p hp => by
      rw [h.portFld (by simp only []; omega), h.portFld (by simp only []; omega)]
  have hself : t.self = s.self := h.fld (by decide)
  rw [State.dstDev, State.dstDev, State.dstDest, State.dstDest, State.system, State.system, hfind, State.village_congr h, hself]

/-- The signal a transfer asks for on its own croft. -/
def localSignals (q : Nat) (d : Desc) : List TokSig := if d.lSig then [⟨some (qCroft q), d.ltok.2.1, d.ltok.1, d.ltok.2.2, some q, false⟩] else []

/-- The signal that a control message for this device brings at once. -/
def remoteSignals (q : Nat) (d : Desc) (here : Bool) : List TokSig :=
  if d.rSig && here then [⟨none, d.rtok.2.1 % 128, d.rtok.1 % 256, d.rtok.2.2 % 65536, some q, true⟩] else []

/-- Whether a transfer's destination is a memory of this device. -/
def State.endsHere (s : State) (d : Desc) : Bool := match s.dstDev d with | some dev => decide (dev % 2 ^ 14 = s.self) | none => false

theorem State.endsHere_congr {t : State} (h : SamePage pgPort s t) (d : Desc) : t.endsHere d = s.endsHere d := by
  have hself : t.self = s.self := h.fld (by decide)
  rw [State.endsHere, State.endsHere, State.dstDev_congr h, hself]

/-- The local signal leaves. -/
def signalsHere (q : Nat) (d : Desc) : Prog := Prog.when d.lSig (modDev (fun v => { v with
  signals := v.signals ++ [{ src := some (qCroft q), dst := d.ltok.2.1, token := d.ltok.1, count := d.ltok.2.2, queue := some q }] }))

theorem signalsHere_run (q : Nat) (d : Desc) (s : State) :
    let t := (signalsHere q d).run s
    t.dev.signals = s.dev.signals ++ localSignals q d ∧ Keeps { dev := True } s t := by
  refine ⟨?_, Prog.keeps (by simp [signalsHere, Prog.only_when]) s⟩
  rw [signalsHere, Prog.run_when, localSignals]
  split
  · rfl
  · exact (List.append_nil _).symm

/-- The remote signal of a transfer. -/
def signalsThere (q : Nat) (d : Desc) (dev : Option Nat) : Prog :=
  match dev with
  | some dev => Prog.when d.rSig (routeCtrl 1 (some q)
      (.signal (BitVec.ofNat 14 dev) (Fin.ofNat 128 d.rtok.2.1) (BitVec.ofNat 8 d.rtok.1) (BitVec.ofNat 16 d.rtok.2.2)))
  | none => .done

/-- A control message goes out, or nowhere. -/
def sendsCtrl (src : Nat) (m : Ctrl) (link : Option Nat) : Prog :=
  match link with
  | some l => modLink l (fun k => { k with ctrl := k.ctrl ++ [(src, m)] })
  | none => bump pgPort R.port_CTRL_DROP_CNT

theorem signalsThere_run (q : Nat) (d : Desc) (dev : Option Nat) (s : State) :
    let t := (signalsThere q d dev).run s
    t.dev.signals = s.dev.signals ++ remoteSignals q d (match dev with | some dev => decide (dev % 2 ^ 14 = s.self) | none => false) ∧
    Keeps { regs := theRegs pgPort [R.port_CTRL_DROP_CNT], links := fun _ => True, dev := True } s t := by
  cases dev with
  | none =>
    refine ⟨?_, Keeps.refl _ s⟩
    rw [remoteSignals, Bool.and_false]
    exact (List.append_nil _).symm
  | some dev =>
    rw [signalsThere]
    dsimp only
    rw [Prog.run_when, remoteSignals]
    cases d.rSig
    · exact ⟨(List.append_nil _).symm, Keeps.refl _ s⟩
    · rw [if_pos rfl, routeCtrl, Prog.run_get]
      dsimp only
      rw [BitVec.toNat_ofNat]
      by_cases hh : dev % 2 ^ 14 = s.self
      · rw [if_pos hh, decide_eq_true hh]
        refine ⟨?_, Prog.keeps (by simp) s⟩
        show s.dev.signals ++ _ = _
        norm_num [BitVec.toNat_ofNat]
      · rw [if_neg hh, decide_eq_false hh]
        have hrest : Keeps { regs := theRegs pgPort [R.port_CTRL_DROP_CNT], links := fun _ => True } s
            ((sendsCtrl 1 (.signal (BitVec.ofNat 14 dev) (Fin.ofNat 128 d.rtok.2.1) (BitVec.ofNat 8 d.rtok.1) (BitVec.ofNat 16 d.rtok.2.2))
              (s.ctrlLink (dev % 2 ^ 14))).run s) := Prog.keeps (by
          unfold sendsCtrl
          split <;> simp) s
        exact ⟨(congrArg (·.signals) (hrest.dev id)).trans (List.append_nil _).symm, hrest.mono (by constructor <;> simp)⟩

theorem xferSignals_run (q : Nat) (d : Desc) (s : State) :
    let t := (xferSignals q d).run s
    t.dev.signals = s.dev.signals ++ localSignals q d ++ remoteSignals q d (s.endsHere d) ∧
    Keeps { regs := theRegs pgPort [R.port_CTRL_DROP_CNT], links := fun _ => True, dev := True } s t := by
  have hrun : (xferSignals q d).run s = (signalsThere q d (s.dstDev d)).run ((signalsHere q d).run s) := by
    simp -implicitDefEqProofs only [xferSignals, Prog.run_get, Prog.run_all_cons, Prog.run_all_nil, signalsHere]
    rfl
  obtain ⟨hhere, hkeep⟩ := signalsHere_run q d s
  rw [hrun]
  generalize (signalsHere q d).run s = u at *
  obtain ⟨hthere, hroute⟩ := signalsThere_run q d (s.dstDev d) u
  have hself : u.self = s.self := hkeep.fld_eq id
  rw [hself] at hthere
  exact ⟨by rw [hthere, hhere, State.endsHere], (hkeep.mono (by constructor <;> simp)).trans hroute⟩

/-! ### The record of a NOP -/

/-- A record written is counted, DONE follows over it, and the page's line is raised where it is asked for. -/
def recordCounts (q : Nat) (x : Xfer) : Prog := .all [
  bump (pgSluice (qCroft q)) R.sluice_XFER_CNT,
  modQueue q (fun r => ({ r with written := r.written ++ [x.idx] } : Queue).advance),
  Prog.when x.desc.irq (raiseLine (pgQueue q))]

theorem recordCounts_run (q : Nat) (x : Xfer) (s : State) :
    let t := (recordCounts q x).run s
    t.queue q = ({ s.queue q with written := (s.queue q).written ++ [x.idx] } : Queue).advance ∧
    Counts s t (pgSluice (qCroft q)) R.sluice_XFER_CNT 1 ∧
    Keeps { regs := someRegs [(pgSluice (qCroft q), [R.sluice_XFER_CNT]), (pgQueue q, [R.CRIER_LINE_RAISED])], queues := (· = q) } s t := by
  refine ⟨?_, ?_, Prog.keeps (by simp [recordCounts, Prog.only_when]) s⟩
  all_goals
    obtain ⟨hcnt, hbump⟩ := bumpBy_run (pgSluice (qCroft q)) R.sluice_XFER_CNT 1 s
    have hone : bump (pgSluice (qCroft q)) R.sluice_XFER_CNT = bumpBy (pgSluice (qCroft q)) R.sluice_XFER_CNT 1 := rfl
    rw [recordCounts, Prog.run_all_cons, hone]
    generalize (bumpBy (pgSluice (qCroft q)) R.sluice_XFER_CNT 1).run s = u at *
    rw [Prog.run_all_cons, Prog.run_all_cons, Prog.run_all_nil]
    have hmod := modQueue_run_self q (fun r => ({ r with written := r.written ++ [x.idx] } : Queue).advance) u
    have hmodk : Keeps { queues := (· = q) } u ((modQueue q (fun r => ({ r with written := r.written ++ [x.idx] } : Queue).advance)).run u) :=
      Prog.keeps (by simp) u
    generalize (modQueue q (fun r => ({ r with written := r.written ++ [x.idx] } : Queue).advance)).run u = w at *
    have hraise : Keeps { regs := theRegs (pgQueue q) [R.CRIER_LINE_RAISED] } w ((Prog.when x.desc.irq (raiseLine (pgQueue q))).run w) :=
      Prog.keeps (by simp [Prog.only_when]) w
  · rw [hraise.queues q id, hmod, hbump.queues q id]
  · rw [Counts, hraise.reg_eq (not_theRegs_apart (by simp)), hmodk.reg_eq id]
    exact hcnt

theorem recordWritten_run (hi : s.intact = true) (q : Nat) (x : Xfer) (a : Nat) {bs : List Byte} (hb : bs.length = 32) :
    let t := (recordWritten q x a bs true).run s
    t.holds a bs ∧ t.queue q = ({ s.queue q with written := (s.queue q).written ++ [x.idx] } : Queue).advance ∧
    Counts s t (pgSluice (qCroft q)) R.sluice_XFER_CNT 1 ∧
    t.dev.signals = s.dev.signals ++ localSignals q x.desc ++ remoteSignals q x.desc (s.endsHere x.desc) ∧
    Keeps { regs := someRegs [(pgSluice (qCroft q), [R.sluice_XFER_CNT]), (pgQueue q, [R.CRIER_LINE_RAISED]), (pgPort, [R.port_CTRL_DROP_CNT])],
            mem := inRange a 32, queues := (· = q), links := fun _ => True, dev := True } s t := by
  have hsplit : (recordWritten q x a bs true).run s = (xferSignals q x.desc).run ((recordCounts q x).run ((Act.bytes a bs).apply s)) := by
    simp -implicitDefEqProofs only [recordWritten, recordCounts, Prog.run_all_cons, Prog.run_all_nil, store_run hi, Prog.run_when_true]
  have hholds := Act.apply_bytes_holds s a bs
  have hbytes := Act.apply_bytes_keeps s a bs
  rw [hb] at hbytes
  rw [hsplit]
  generalize (Act.bytes a bs).apply s = u at *
  obtain ⟨hqueue, hcnt, hw⟩ := recordCounts_run q x u
  generalize (recordCounts q x).run u = w at *
  obtain ⟨hsignals, hroute⟩ := xferSignals_run q x.desc w
  generalize (xferSignals q x.desc).run w = t at *
  have hport : SamePage pgPort s w := fun o ho => by
    rw [hw.reg_eq (not_someRegs_apart (by simp [ho])), hbytes.reg_eq id]
  have hends : w.endsHere x.desc = s.endsHere x.desc := State.endsHere_congr hport x.desc
  refine ⟨fun i hlt => ?_, ?_, ?_, ?_, ?_⟩
  · rw [hroute.mem _ id, hw.mem _ id]
    exact hholds i hlt
  · rw [hroute.queues q id, hqueue, hbytes.queues q id]
  · rw [Counts, hroute.reg_eq (not_theRegs_apart (by simp)), ← hbytes.reg_eq (p := pgSluice (qCroft q)) (o := R.sluice_XFER_CNT.off) id]
    exact hcnt
  · rw [hsignals, hw.dev id, hbytes.dev id, hends]
  · refine ((hbytes.mono ?_).trans (hw.mono ?_)).trans (hroute.mono ?_)
    · constructor <;> simp
    · constructor
      case regs => exact someRegs_mono (by simp)
      all_goals simp
    · constructor
      case regs => exact fun a ha => ⟨(pgPort, [R.port_CTRL_DROP_CNT]), by simp, ha⟩
      all_goals simp

/-! ### A transfer that fails -/

/-- The registers a transfer that fails may change on its sluice's and its group's page after its failure is recorded. -/
def failRegs (q : Nat) : List (Page × List Fld) := [
  (pgSluice (qCroft q), [R.sluice_XFER_CNT, R.STATE_STATE, R.FAULT_CAUSE, R.FAULT_ADDR_LO, R.FAULT_ADDR_HI]), (pgQueue q, [R.CRIER_LINE_RAISED])]

/-- What a transfer that fails may change after its failure is recorded. -/
def failTouch (q a : Nat) : Touch :=
  { regs := fun x => onPages [pgOwn (qCroft q), pgReeve (qCroft q)] x ∨ someRegs (failRegs q) x,
    mem := inRange a 32, queues := (· = q), crofts := fun _ => True, dev := True, seq := True }

theorem not_failTouch {q a o : Nat} {p : Page} (hp : p.placed) (hk : p.kind ≠ .own ∧ p.kind ≠ .reeve) (ho : o < 0x1000)
    (h : ∀ x ∈ failRegs q, ∀ f ∈ x.2, apart p o x.1 f.off) : ¬ (failTouch q a).regs (p.base + o) := by
  rintro (⟨p', hp', hc⟩ | hs)
  · simp only [List.mem_cons, List.not_mem_nil, or_false] at hp'
    obtain rfl | rfl := hp'
    · exact not_covers hk.1 hp (by simp) ho hc
    · exact not_covers hk.2 hp (by simp) ho hc
  · exact not_someRegs_apart h hs

theorem sluiceCollide_failTouch (q a cls index : Nat) (o : Option Nat) : (sluiceCollide q cls index o).Only (failTouch q a).allows := by
  have hown {o : Nat} (ho : o < 0x1000) : onReg (failTouch q a).regs (pgOwn (qCroft q)) o := .inl ⟨_, by simp, (onReg_covers ..).2 ho⟩
  have hreeve {o : Nat} (ho : o < 0x1000) : onReg (failTouch q a).regs (pgReeve (qCroft q)) o := .inl ⟨_, by simp, (onReg_covers ..).2 ho⟩
  have hrest : (failTouch q a).crofts (qCroft q) ∧ (failTouch q a).dev ∧ (failTouch q a).seq := ⟨trivial, trivial, trivial⟩
  intro s
  simp [collideHalt, Touch.allows, hown, hreeve, hrest]
  exact collide_only (fun o ho => hown ho) trivial _ _ _ _ _ _

theorem stopsCroft_failTouch (q a st b order : Nat) : (stopsCroft q st b order).Only (failTouch q a).allows := by
  have hreeve {o : Nat} (ho : o < 0x1000) : onReg (failTouch q a).regs (pgReeve (qCroft q)) o := .inl ⟨_, by simp, (onReg_covers ..).2 ho⟩
  have hsluice {f : Fld} (hf : f ∈ [R.sluice_XFER_CNT, R.STATE_STATE, R.FAULT_CAUSE, R.FAULT_ADDR_LO, R.FAULT_ADDR_HI]) :
      onReg (failTouch q a).regs (pgSluice (qCroft q)) f.off := .inr (onReg_someRegs (List.mem_cons_self ..) hf)
  have hrest : (failTouch q a).crofts (qCroft q) ∧ (failTouch q a).dev := ⟨trivial, trivial⟩
  simp only [stopsCroft, Prog.only_all_cons, Prog.only_all_nil, pageFault_allows, orderFault_allows]
  simp [hreeve, hrest]
  exact ⟨hsluice (f := R.STATE_STATE) (by simp), hsluice (f := R.FAULT_CAUSE) (by simp), hsluice (f := R.FAULT_ADDR_LO) (by simp), hsluice (f := R.FAULT_ADDR_HI) (by simp)⟩

theorem recordGoes_fails (hi : s.intact = true) (q : Nat) (x : Xfer) (miss : Option Nat) (a : Nat) {bs : List Byte} (hb : bs.length = 32) :
    Keeps (failTouch q a) s ((recordGoes q x miss a bs false).run s) := by
  cases miss with
  | some b => exact Prog.keeps (sluiceCollide_failTouch ..) s
  | none =>
    have hbytes := Act.apply_bytes_keeps s a bs
    rw [hb] at hbytes
    have hsluice : onReg (failTouch q a).regs (pgSluice (qCroft q)) R.sluice_XFER_CNT.off :=
      .inr (onReg_someRegs (List.mem_cons_self ..) (List.mem_cons_self ..))
    have hline : onReg (failTouch q a).regs (pgQueue q) R.CRIER_LINE_RAISED.off :=
      .inr (onReg_someRegs (List.mem_cons_of_mem _ (List.mem_cons_self ..)) (List.mem_cons_self ..))
    have hqueue : (failTouch q a).queues q := rfl
    rw [recordGoes, recordWritten, Prog.run_all_cons, store_run hi]
    refine (hbytes.mono ?_).trans (Prog.keeps ?_ _)
    · constructor <;> simp [failTouch]
    · simp [Prog.only_when, hqueue]
      exact ⟨hsluice, fun _ => hline⟩

theorem xferFails_run (q idx : Nat) {st : Nat} (hst : st < 16) (s : State) :
    let t := (xferFails q idx st).run s
    Counts s t (pgSluice (qCroft q)) R.sluice_ERR_CNT 1 ∧ t.fld (pgQueue q) (R.qgroup_LAST_ERR_STATUS.plus (qblk q)) = st ∧
    Keeps { regs := someRegs [(pgSluice (qCroft q), [R.sluice_ERR_CNT]), (pgQueue q, [R.qgroup_LAST_ERR_STATUS.plus (qblk q), R.CRIER_LINE_RAISED])],
            dev := True } s t := by
  have hmod := Nat.mod_eq_of_lt hst
  have hq : R.qgroup_LAST_ERR_STATUS.off + qblk q < 0x1000 := qblk_lt (by decide) q
  refine ⟨?_, ?_, Prog.keeps (by simp [xferFails, Fld.plus]) s⟩
  · simp -implicitDefEqProofs [xferFails, Counts, Fld.plus, tellWatch, modDev]
  · rw [xferFails, Prog.run_all_cons, Prog.run_all_cons, Prog.run_all_cons]
    have hset : ((setFld (pgQueue q) (R.qgroup_LAST_ERR_STATUS.plus (qblk q)) st).run ((setFld (pgQueue q) (R.qgroup_LAST_ERR_INDEX.plus (qblk q)) idx).run
        ((bump (pgSluice (qCroft q)) R.sluice_ERR_CNT).run s))).fld (pgQueue q) (R.qgroup_LAST_ERR_STATUS.plus (qblk q)) = st := by
      simp -implicitDefEqProofs [Fld.plus, hmod]
    generalize (setFld (pgQueue q) (R.qgroup_LAST_ERR_STATUS.plus (qblk q)) st).run _ = u at *
    have htail := Prog.keeps (p := .all [raiseLine (pgQueue q), tellWatch 14]) (T := { regs := theRegs (pgQueue q) [R.CRIER_LINE_RAISED], dev := True })
      (by simp) u
    rw [htail.fld_eq (not_theRegs_offset (by simp [Fld.plus]; omega) _)]
    exact hset

/-- Whether the memories of a device hold their code words. -/
def Device.intact (d : Device) : Bool :=
  d.flips.isEmpty && d.parityFlips.isEmpty && d.parityErr.isEmpty && d.deadWords.isEmpty && d.granFlips.isEmpty && d.deadGranules.isEmpty &&
  d.writeRetries.isEmpty

theorem intact_of_looks {p : Prog} (h : ∀ d, p.Safe (looks Device.intact d)) (hi : s.intact = true) : (p.run s).intact = true :=
  (looks_run h s).trans hi

theorem xferFails_looks (q idx st : Nat) (d : Device) : (xferFails q idx st).Safe (looks Device.intact d) := by
  rw [xferFails]
  simp only [Prog.safe_all_cons exists_looks, Prog.safe_all_nil, and_true, bump_looks, setFld_looks, raiseLine_looks, tellWatch, true_and]
  exact modDev_looks fun _ => rfl

/-- A transfer that failed: it leaves the queue, its failure is counted and shown, and no byte but its record's changes. -/
theorem failsXfer_run (hi : s.intact = true) {q : Nat} (hr : s.croftUnderReset (qCroft q) = false) {x : Xfer} {k st : Nat}
    (hx : x.firstBad = some (k, st)) (hst : st < 16) :
    let t := (finishXfer q x).run s
    Counts s t (pgSluice (qCroft q)) R.sluice_ERR_CNT 1 ∧
    t.reg (pgSluice (qCroft q)) R.sluice_DESC_ERR_CNT.off = s.reg (pgSluice (qCroft q)) R.sluice_DESC_ERR_CNT.off ∧
    t.fld (pgQueue q) (R.qgroup_LAST_ERR_STATUS.plus (qblk q)) = st ∧
    ∀ a, ¬ inRange (sliceAddr (qCroft q) (s.recOff q x.idx)) 32 a → t.byte a = s.byte a := by
  rw [finishXfer_run q x hr, hx]
  rw [Option.isSome_some, Bool.not_true]
  have hleaves (free : Bool) : (leavesQueue q x free).run s = (xferFails q x.idx st).run ((dropXfer q x.idx).run ((Prog.when free (eff .seq)).run s)) := by
    simp -implicitDefEqProofs only [leavesQueue, hx, Option.isSome_some, Prog.run_when_true, Prog.run_all_cons, Prog.run_all_nil]
  have hfirst (free : Bool) : Keeps { queues := (· = q), seq := True } s ((dropXfer q x.idx).run ((Prog.when free (eff .seq)).run s)) := by
    have h : (Prog.all [Prog.when free (eff .seq), dropXfer q x.idx]).Only ({ queues := (· = q), seq := True } : Touch).allows := by
      simp [Prog.only_when, Touch.allows, dropXfer]
    simpa only [Prog.run_all_cons, Prog.run_all_nil] using Prog.keeps h s
  rw [hleaves]
  generalize hfree : decide (x.desc.nseg = 0 ∨ 64 < x.desc.nseg) = free
  have hkeep := hfirst free
  generalize (dropXfer q x.idx).run ((Prog.when free (eff .seq)).run s) = u at *
  obtain ⟨herr, hlast, hfails⟩ := xferFails_run q x.idx hst u
  have hiw := intact_of_looks (xferFails_looks q x.idx st) (intact_of_keeps hkeep id hi)
  generalize (xferFails q x.idx st).run u = w at *
  have hgoes := recordGoes_fails hiw q x (s.bankMiss (qCroft q) agSluice true (s.recOff q x.idx) 32) (sliceAddr (qCroft q) (s.recOff q x.idx))
    (length_record x (true && (s.queue q).stopper == some x.idx) s.bellNow (s.segCount x))
  generalize (recordGoes q x _ _ _ false).run w = v at *
  have hend := hgoes.trans (Prog.keeps ((Prog.only_when (true && (s.queue q).stopper == some x.idx && (s.queue q).owner == 1) _).2 fun _ =>
    stopsCroft_failTouch q (sliceAddr (qCroft q) (s.recOff q x.idx)) st (s.descOff q x.idx) (s.queue q).order) v)
  dsimp only
  generalize Prog.run _ v = t at *
  have hsluice {o : Nat} (ho : o < 0x1000) (h : o ∉ [R.sluice_XFER_CNT, R.STATE_STATE, R.FAULT_CAUSE, R.FAULT_ADDR_LO, R.FAULT_ADDR_HI].map Fld.off) :
      t.reg (pgSluice (qCroft q)) o = w.reg (pgSluice (qCroft q)) o :=
    hend.reg_eq (not_failTouch (by simp) (by simp) ho (by
      simp only [List.map_cons, List.map_nil, List.mem_cons, List.not_mem_nil, or_false, not_or] at h
      obtain ⟨h1, h2, h3, h4, h5⟩ := h
      simp [failRegs, ho, h1, h2, h3, h4, h5]))
  have hoff : 0x124 + qblk q < 0x1000 := qblk_lt (by decide) q
  refine ⟨?_, ?_, ?_, fun a ha => ?_⟩
  · rw [Counts, hsluice (by decide) (by decide), ← hkeep.reg_eq (p := pgSluice (qCroft q)) (o := R.sluice_ERR_CNT.off) id]
    exact herr
  · rw [hsluice (by decide) (by decide), hfails.reg_eq (not_someRegs_apart (by simp [Fld.plus, hoff])), hkeep.reg_eq id]
  · rw [hend.fld_eq (not_failTouch (by simp) (by simp) hoff (by
      simp [failRegs, Fld.plus]
      omega))]
    exact hlast
  · rw [hend.mem a ha, hfails.mem a id, hkeep.mem a id]

/-! ### Starting descriptors -/

/-- A queue may start its next descriptor. -/
def State.mayDescribe (s : State) (q : Nat) : Prop :=
  (s.queue q).head < (s.queue q).tail ∧ (s.queue q).stopper = none ∧ (s.queue q).waiting = none ∧
  (s.queue q).xfers.length < s.qfld q R.qgroup_QCFG_MAX_OUT ∧ s.croftUnderReset (qCroft q) = false ∧ s.clockRuns (qCroft q) = true

/-- The transfer of a descriptor in error. -/
def errXfer (r : Queue) (d : Desc) : Xfer :=
  ⟨r.head, r.epoch, d, List.replicate (if d.nseg = 0 ∨ 64 < d.nseg then 1 else d.nseg) { size := 0, res := some 9 }, false⟩

theorem errXfer_firstBad (r : Queue) (d : Desc) : (errXfer r d).firstBad = some (0, 9) := by
  have hpos : ∃ n, (if d.nseg = 0 ∨ 64 < d.nseg then 1 else d.nseg) = n + 1 := by
    split
    next => exact ⟨0, rfl⟩
    next h => exact Nat.exists_eq_succ_of_ne_zero fun e => h (.inl e)
  obtain ⟨n, hn⟩ := hpos
  simp [errXfer, hn, Xfer.firstBad, List.range_succ_eq_map, List.replicate_succ]

/-- A descriptor in error is passed, and under STOP_ON_ERROR stops its queue. -/
def errTakes (s : State) (q : Nat) (r : Queue) : Queue :=
  { r with head := r.head + 1, stopper := if s.qfld q R.qgroup_QCFG_MODE = 0 then some (s.queue q).head else none }

/-- A descriptor in error completes with DESC_ERR. -/
def errDescribes (s : State) (q : Nat) (d : Desc) : Prog := .all [
  bump (pgSluice (qCroft q)) R.sluice_DESC_ERR_CNT, modQueue q (errTakes s q), finishXfer q (errXfer (s.queue q) d)]

/-- A descriptor is started. -/
def describes (s : State) (q : Nat) (d : Desc) : Prog := modQueue q (fun r => { r with
  head := r.head + 1, tags := r.tags ++ [d.tag], xfers := r.xfers ++ [⟨(s.queue q).head, (s.queue q).epoch, d, d.segs, true⟩] })

theorem exec_descriptorStart {q : QueueId} :
    (¬ s.mayDescribe q.val → exec (.descriptorStart q) s = .next s) ∧
    (s.mayDescribe q.val → s.intact = true → s.bankMiss (qCroft q.val) agSluice false (s.descOff q.val (s.queue q.val).head) 64 = none →
      let d := s.readDesc (qCroft q.val) (s.descOff q.val (s.queue q.val).head)
      exec (.descriptorStart q) s = .next (
        if ((d.fence || d.kind == 3) && !(s.queue q.val).allWritten) = true then s
        else if s.descErr (s.queue q.val) d = true then (errDescribes s q.val d).run s
        else (describes s q.val d).run s)) := by
  have hgate : (decide ((s.queue q.val).tail ≤ (s.queue q.val).head) || (s.queue q.val).stopper.isSome || (s.queue q.val).waiting.isSome ||
      decide (s.qfld q.val R.qgroup_QCFG_MAX_OUT ≤ (s.queue q.val).xfers.length) || s.croftUnderReset (qCroft q.val) || !s.clockRuns (qCroft q.val)) =
      true ↔ ¬ s.mayDescribe q.val := by
    simp only [State.mayDescribe, Bool.or_eq_true, decide_eq_true_eq, Option.isSome_iff_ne_none, Bool.not_eq_true', ne_eq]
    grind
  refine ⟨fun h => ?_, fun h hi hm => ?_⟩
  · show execDescriptorStart q s = _
    simp -implicitDefEqProofs only [execDescriptorStart, Prog.next_eq, Prog.run_get]
    rw [if_pos (hgate.2 h)]
    rfl
  · show execDescriptorStart q s = _
    simp -implicitDefEqProofs only [execDescriptorStart, Prog.next_eq, Prog.run_get]
    rw [if_neg fun e => hgate.1 e h, hm]
    dsimp only
    rw [Prog.run_all_cons, readBy_run hi, Prog.run_all_cons, Prog.run_all_nil, Prog.run_get]
    split
    · rfl
    · split <;> rfl

theorem queueIs_finish {α : Type} {q : Nat} {v : Queue → α} (hv : Rests v) (x : Xfer) (s : State) :
    v (((finishXfer q x).run s).queue q) = v (s.queue q) := queueIs_run (fun _ hy => finishXfer_queueIs hv hy q x) s

/-- What the end of a transfer leaves of its queue. -/
def restView (r : Queue) : Nat × List Nat × Nat × Option Nat := (r.head, r.tags, r.tail, r.stopper)

theorem restView_rests : Rests restView := ⟨fun _ _ => rfl, fun _ _ _ => rfl⟩

theorem errDescribes_run (hi : s.intact = true) {q : Nat} (hr : s.croftUnderReset (qCroft q) = false) (d : Desc) :
    let t := (errDescribes s q d).run s
    restView (t.queue q) = restView (errTakes s q (s.queue q)) ∧
    Counts s t (pgSluice (qCroft q)) R.sluice_DESC_ERR_CNT 1 ∧ Counts s t (pgSluice (qCroft q)) R.sluice_ERR_CNT 1 ∧
    t.fld (pgQueue q) (R.qgroup_LAST_ERR_STATUS.plus (qblk q)) = 9 ∧
    ∀ a, ¬ inRange (sliceAddr (qCroft q) (s.recOff q (s.queue q).head)) 32 a → t.byte a = s.byte a := by
  obtain ⟨hcnt, hbump⟩ := bumpBy_run (pgSluice (qCroft q)) R.sluice_DESC_ERR_CNT 1 s
  have hone : bump (pgSluice (qCroft q)) R.sluice_DESC_ERR_CNT = bumpBy (pgSluice (qCroft q)) R.sluice_DESC_ERR_CNT 1 := rfl
  rw [errDescribes, Prog.run_all_cons, Prog.run_all_cons, Prog.run_all_cons, Prog.run_all_nil, hone]
  generalize (bumpBy (pgSluice (qCroft q)) R.sluice_DESC_ERR_CNT 1).run s = u at *
  have hmod := modQueue_run_self q (errTakes s q) u
  have hmodk : Keeps { queues := (· = q) } u ((modQueue q (errTakes s q)).run u) := Prog.keeps (by simp) u
  generalize (modQueue q (errTakes s q)).run u = w at *
  have hfix : Keeps { regs := theRegs (pgSluice (qCroft q)) [R.sluice_DESC_ERR_CNT], queues := (· = q) } s w :=
    (hbump.mono (by constructor <;> simp)).trans (hmodk.mono (by constructor <;> simp))
  have hrw : w.croftUnderReset (qCroft q) = false := by rw [← hr]; exact hfix.underReset_eq id
  have hfld {f : Fld} (hf : f.off < 0xE00) : w.qfld q f = s.qfld q f :=
    hfix.fld_eq (p := pgQueue q) (f := f.plus (qblk q)) (not_theRegs_apart (by
      have hq : (f.plus (qblk q)).off < 0x1000 := qblk_lt hf q
      simp [hq]))
  have hrec : w.recOff q (errXfer (s.queue q) d).idx = s.recOff q (s.queue q).head := by
    rw [State.recOff, State.recOff, State.ringLen, State.ringLen, hfld (by decide), hfld (by decide)]
    rfl
  obtain ⟨herr, hdesc, hlast, hmem⟩ := failsXfer_run (intact_of_keeps hfix id hi) hrw (errXfer_firstBad (s.queue q) d) (by decide)
  have hview := queueIs_finish restView_rests (q := q) (errXfer (s.queue q) d) w
  generalize (finishXfer q (errXfer (s.queue q) d)).run w = t at *
  rw [hrec] at hmem
  refine ⟨?_, ?_, ?_, hlast, fun a ha => (hmem a ha).trans (hfix.mem a id)⟩
  · rw [hview, hmod, hbump.queues q id]
  · rw [Counts, hdesc, hmodk.reg_eq id]
    exact hcnt
  · rw [Counts, ← hfix.reg_eq (p := pgSluice (qCroft q)) (o := R.sluice_ERR_CNT.off) (not_theRegs_offset (by decide) _)]
    exact herr


/-- A NOP's record is written where its croft is not under reset. -/
theorem nopEnds_run_eq {q : Nat} {x : Xfer} (hr : s.croftUnderReset (qCroft q) = false) (hlo : 1 ≤ x.desc.nseg) (hhi : x.desc.nseg ≤ 64)
    (hm : s.bankMiss (qCroft q) agSluice true (s.recOff q x.idx) 32 = none) :
    (finishXfer q { x with segs := [] }).run s = (recordWritten q { x with segs := [] } (sliceAddr (qCroft q) (s.recOff q x.idx))
      (({ x with segs := [] } : Xfer).record false s.bellNow x.desc.nseg) true).run ((dropXfer q x.idx).run s) := by
  have hn : ¬ (x.desc.nseg = 0 ∨ 64 < x.desc.nseg) := by omega
  have hbad : ({ x with segs := [] } : Xfer).firstBad = none := rfl
  have hcount : s.segCount { x with segs := [] } = x.desc.nseg := if_neg hn
  rw [finishXfer_run q _ hr, hbad, hcount]
  dsimp only
  rw [hm, decide_eq_false hn]
  rfl

/-- Settles O37: what a queue may start, how a descriptor in error completes, and the record of a NOP. -/
theorem descriptorsTakeEffect : Obligations.DescriptorsTakeEffect := by
  unfold Obligations.DescriptorsTakeEffect
  refine ⟨fun s q => ?_, fun s q r kind hr => ?_, fun s q hn => ?_, fun s q x hx hi hlo hhi => ?_⟩
  · dsimp only
    obtain ⟨hstill, hgoes⟩ := exec_descriptorStart (s := s) (q := q)
    refine ⟨hstill, fun hmay hi hm => ?_⟩
    obtain ⟨-, -, -, -, hr, -⟩ := id hmay
    rw [hgoes hmay hi hm]
    refine ⟨fun hh => by rw [if_pos hh], fun hh he => ?_, fun hh he => ?_⟩
    · rw [if_neg (by rw [hh]; decide), if_neg (by rw [he]; decide)]
      exact Leaves.of_next ⟨modQueue_run_self .., Prog.keeps (by simp [describes]) s⟩
    · rw [if_neg (by rw [hh]; decide), if_pos he]
      refine Leaves.of_next ?_
      obtain ⟨hview, hrest⟩ := errDescribes_run hi hr (s.readDesc (qCroft q.val) (s.descOff q.val (s.queue q.val).head))
      simp only [restView, errTakes, Prod.mk.injEq] at hview
      obtain ⟨hhead, htags, htail, hstop⟩ := hview
      exact ⟨hhead, htags, htail, hstop, hrest⟩
  · have hexec : exec r s = .next ((Prog.get fun s => match s.freshXfer q.val kind with | some x => unfresh q.val x.idx | none => .done).run s) := by
      obtain ⟨rfl, rfl⟩ | ⟨rfl, rfl⟩ := hr <;> rfl
    rw [hexec, Prog.run_get]
    refine ⟨fun hn => by rw [hn]; rfl, fun x hx => ?_⟩
    rw [hx]
    exact Leaves.of_next ⟨modQueue_run_self .., Prog.keeps (by simp [unfresh]) s⟩
  · show execDescriptorNop q s = _
    simp -implicitDefEqProofs only [execDescriptorNop, Prog.next_eq, Prog.run_get, hn, Prog.run_done]
  · intro c k off d here hr hm
    have hexec : exec (.descriptorNop q) s = .next ((finishXfer q.val { x with segs := [] }).run s) := by
      show execDescriptorNop q s = _
      simp -implicitDefEqProofs only [execDescriptorNop, Prog.next_eq, Prog.run_get, hx]
    rw [hexec, nopEnds_run_eq hr hlo hhi hm]
    refine Leaves.of_next ?_
    have hself : ((dropXfer q.val x.idx).run s).queue q.val = { s.queue q.val with xfers := (s.queue q.val).xfers.filter (fun y => y.idx != x.idx) } :=
      modQueue_run_self ..
    have hdrop : Keeps { queues := (· = q.val) } s ((dropXfer q.val x.idx).run s) := Prog.keeps (by simp [dropXfer]) s
    generalize (dropXfer q.val x.idx).run s = u at *
    obtain ⟨hholds, hqueue, hcnt, hsignals, hkeep⟩ := recordWritten_run (intact_of_keeps hdrop id hi) q.val { x with segs := [] } (sliceAddr (qCroft q.val) (s.recOff q.val x.idx))
      (length_record { x with segs := [] } false s.bellNow x.desc.nseg)
    generalize (recordWritten q.val { x with segs := [] } _ _ true).run u = t at *
    rw [State.endsHere_congr (s := s) fun o _ => hdrop.reg_eq id, hdrop.dev id] at hsignals
    refine ⟨hholds, by rw [hqueue, hself], ?_, hsignals, (hdrop.mono ?_).trans hkeep⟩
    · rw [Counts, ← hdrop.reg_eq (p := pgSluice (qCroft q.val)) (o := R.sluice_XFER_CNT.off) id]
      exact hcnt
    · constructor <;> simp

end Sys2Proof.Machine
end

open Host
section
/-! O38: sluice cycles move bytes, segments end (R284, R325, R330, R333 to R336, R338, R340). -/
namespace Sys2Proof.Machine

variable {s : State}

/-! ### Bytes that several stores write -/

/-- Byte `b` is among some bytes to be written. -/
def covered (ps : List (Nat × List Byte)) (b : Nat) : Prop := ∃ p ∈ ps, inRange p.1 p.2.length b

/-- Some bytes to be written show a pattern over the addresses. -/
def showsAll (f : Nat → Byte) (ps : List (Nat × List Byte)) : Prop := ∀ p ∈ ps, ∀ i (h : i < p.2.length), p.2[i] = f (p.1 + i)

theorem covered_nil (b : Nat) : ¬ covered [] b := by simp [covered]

theorem covered_cons (p : Nat × List Byte) (ps : List (Nat × List Byte)) (b : Nat) :
    covered (p :: ps) b ↔ inRange p.1 p.2.length b ∨ covered ps b := by simp [covered]

theorem showsAll_cons {f : Nat → Byte} {p : Nat × List Byte} {ps : List (Nat × List Byte)} :
    showsAll f (p :: ps) ↔ (∀ i (h : i < p.2.length), p.2[i] = f (p.1 + i)) ∧ showsAll f ps := by simp [showsAll]

/-- One more part before the parts joined so far. -/
def joinPart (p : Nat × List Byte) (l : List (Nat × List Byte)) : List (Nat × List Byte) :=
  match l with
  | (a, bs) :: l' => if a = p.1 + p.2.length then (p.1, p.2 ++ bs) :: l' else p :: l
  | [] => [p]

theorem joinParts_cons (p : Nat × List Byte) (ps : List (Nat × List Byte)) : joinParts (p :: ps) = joinPart p (joinParts ps) := rfl

theorem joinPart_cases (p : Nat × List Byte) (l : List (Nat × List Byte)) :
    joinPart p l = p :: l ∨ ∃ bs l', l = (p.1 + p.2.length, bs) :: l' ∧ joinPart p l = (p.1, p.2 ++ bs) :: l' := by
  unfold joinPart
  split
  next a bs l' =>
    split
    next h => exact .inr ⟨bs, l', by rw [h], rfl⟩
    next => exact .inl rfl
  next => exact .inl rfl

theorem covered_joinParts (ps : List (Nat × List Byte)) (b : Nat) : covered (joinParts ps) b ↔ covered ps b := by
  induction ps with
  | nil => exact Iff.rfl
  | cons p ps ih =>
    rw [joinParts_cons, covered_cons, ← ih]
    obtain h | ⟨bs, l', hl, h⟩ := joinPart_cases p (joinParts ps)
    · rw [h, covered_cons]
    · rw [h, hl, covered_cons, covered_cons, ← or_assoc]
      refine or_congr_left ?_
      simp only [inRange, List.length_append]
      omega

theorem showsAll_joinParts {f : Nat → Byte} {ps : List (Nat × List Byte)} (hf : showsAll f ps) : showsAll f (joinParts ps) := by
  induction ps with
  | nil => exact hf
  | cons p ps ih =>
    obtain ⟨hp, hps⟩ := showsAll_cons.1 hf
    rw [joinParts_cons]
    obtain h | ⟨bs, l', hl, h⟩ := joinPart_cases p (joinParts ps)
    · rw [h]
      exact showsAll_cons.2 ⟨hp, ih hps⟩
    · obtain ⟨hbs, hl'⟩ := showsAll_cons.1 (hl ▸ ih hps)
      rw [h]
      refine showsAll_cons.2 ⟨fun i hi => ?_, hl'⟩
      rw [List.getElem_append]
      split
      next hlt => exact hp i hlt
      next hge =>
        rw [hbs (i - p.2.length) (show i - p.2.length < bs.length by simp only [List.length_append] at hi; omega)]
        congr 1
        dsimp only
        omega

/-- Parts that show a pattern over their addresses are written: what they cover shows it, and nothing else changes. -/
theorem each_memStore_run (src : Source) {f : Nat → Byte} {ps : List (Nat × List Byte)} (hf : showsAll f ps) (ha : ∀ p ∈ ps, granEnd ≤ p.1)
    {s : State} (hi : s.intact = true) :
    let t := (Prog.each ps (fun p => memStore src p.1 p.2)).run s
    (∀ b, covered ps b → t.byte b = f b) ∧ Keeps { mem := covered ps } s t := by
  induction ps generalizing s with
  | nil => exact ⟨fun b hb => absurd hb (covered_nil b), Keeps.refl _ s⟩
  | cons p ps ih =>
    obtain ⟨hp, hps⟩ := showsAll_cons.1 hf
    rw [Prog.run_each_cons, memStore_run hi p.1 (.inr (ha p (List.mem_cons_self ..)))]
    have hholds := Act.apply_bytes_holds s p.1 p.2
    have hbytes := Act.apply_bytes_keeps s p.1 p.2
    generalize (Act.bytes p.1 p.2).apply s = u at *
    obtain ⟨hcov, hkeep⟩ := ih hps (fun q hq => ha q (List.mem_cons_of_mem _ hq)) (intact_of_keeps hbytes id hi)
    generalize (Prog.each ps (fun p => memStore src p.1 p.2)).run u = t at *
    have hsub : ∀ b, covered ps b → covered (p :: ps) b := fun b hb => (covered_cons ..).2 (.inr hb)
    refine ⟨fun b hb => ?_, (hbytes.mono ?_).trans (hkeep.mono ?_)⟩
    · by_cases h : covered ps b
      · exact hcov b h
      · obtain ⟨hlo, hhi⟩ := ((covered_cons ..).1 hb).resolve_right h
        obtain ⟨i, rfl⟩ := Nat.exists_eq_add_of_le hlo
        have hlt : i < p.2.length := by omega
        rw [hkeep.mem _ h, ← hp i hlt, hholds i hlt]
        exact (List.getD_eq_getElem _ _ hlt)
    · constructor
      case mem => exact fun b hb => (covered_cons ..).2 (.inl hb)
      all_goals simp
    · constructor
      case mem => exact hsub
      all_goals simp

/-! ### Accounts of segments -/

/-- What the account of a segment may change. -/
def accountTouch : Touch := { regs := offKinds [.own, .reeve], links := fun _ => True, dev := True }

theorem account_only (k : SegKey) (n status : Nat) : (account k n status).Only accountTouch.allows := by
  have hreg {p : Page} (hp : p.placed) (hk : p.kind ≠ .own ∧ p.kind ≠ .reeve) {o : Nat} (ho : o < 0x1000) : onReg accountTouch.regs p o :=
    onReg_offKinds ho hp (by simpa using hk)
  have hdev : accountTouch.dev := trivial
  have hlinks (l : Nat) : accountTouch.links l := trivial
  have hroute (s : State) (dev : Nat) (here : Prog) (hh : here.Only accountTouch.allows) (src : Nat) (m : Ctrl) :
      (if dev = s.self then here else
        match s.ctrlLink dev with
        | some l => modLink l (fun k => { k with ctrl := k.ctrl ++ [(src, m)] })
        | none => bump pgPort R.port_CTRL_DROP_CNT).Only accountTouch.allows := by
    refine iteInduction (motive := Prog.Only _) (fun _ => hh) fun _ => ?_
    cases s.ctrlLink dev <;> simp [hlinks, hreg]
  have hsend (st : Nat) : (sendCtrl (k.ack st)).Only accountTouch.allows := fun s => hroute s _ _ (by simp [hdev]) _ _
  have habsorbed (a : Nat) : (countAbsorbed a).Only accountTouch.allows := by
    unfold countAbsorbed
    split <;> simp [hreg, hdev]
  intro s
  dsimp only
  split
  · trivial
  simp only [Prog.only_all_cons, Prog.only_all_nil, and_true]
  refine ⟨(Prog.only_when ..).2 fun _ => habsorbed _, ?_⟩
  split
  · simp only [Prog.only_all_cons, Prog.only_all_nil, and_true]
    refine ⟨by simp [dropEntries, hdev], ?_, hsend _⟩
    split <;> simp [Prog.only_when, hreg]
  · simp [hdev]

/-! ### A FILL's beat -/

/-- The pattern of a FILL over the addresses. -/
def fillAt (v a : Nat) : Byte := BitVec.ofNat 8 (v / 2 ^ (8 * (a % 8)))

theorem length_fillBytes (v n : Nat) : (fillBytes v n).length = n := by simp [fillBytes]

theorem getElem_fillBytes (v n i : Nat) (h : i < (fillBytes v n).length) : (fillBytes v n)[i] = fillAt v i := by simp [fillBytes, fillAt]

theorem fillAt_add {a : Nat} (h : a % 64 = 0) (v i : Nat) : fillAt v (a + i) = fillAt v i := by
  rw [fillAt, fillAt, show (a + i) % 8 = i % 8 by omega]

theorem granulesOf_fill (v : Nat) (as : List Nat) :
    granulesOf as (fillBytes v (64 * as.length)) = as.map (fun a => (a, fillBytes v 64)) := by
  have hpart {j : Nat} (hj : j < as.length) : ((fillBytes v (64 * as.length)).drop (64 * j)).take 64 = fillBytes v 64 := by
    refine List.ext_getElem (by simp only [List.length_take, List.length_drop, length_fillBytes]; omega) fun i h1 h2 => ?_
    rw [List.getElem_take, List.getElem_drop, getElem_fillBytes, getElem_fillBytes, fillAt_add (by omega)]
  refine List.ext_getElem (by simp [granulesOf]) fun j h1 h2 => ?_
  have hj : j < as.length := by simpa using h2
  simp only [granulesOf, List.getElem_map, List.getElem_zip, List.getElem_range, hpart hj]

theorem showsAll_fill {as : List Nat} (h : ∀ a ∈ as, a % 64 = 0) (v : Nat) : showsAll (fillAt v) (as.map fun a => (a, fillBytes v 64)) := by
  intro p hp i hi
  obtain ⟨a, ha, rfl⟩ := List.mem_map.1 hp
  rw [getElem_fillBytes, fillAt_add (h a ha)]

theorem covered_fill (v : Nat) (as : List Nat) (b : Nat) : covered (as.map fun a => (a, fillBytes v 64)) b ↔ ∃ a ∈ as, inRange a 64 b := by
  simp [covered, length_fillBytes]

theorem mem_granules {d : Desc} {p n x : Nat} (h : x ∈ d.granules p n) : ∃ i, x = p + 64 * i := by
  obtain ⟨i, -, rfl⟩ := List.mem_map.1 ((List.takeWhile_sublist _).subset h)
  exact ⟨i, rfl⟩

/-- The first granule of a FILL's beat is where the beat begins. -/
theorem granules_fill {d : Desc} (hd : d.kind = 2) (p : Nat) {n : Nat} (hn : 64 ≤ n) : ∃ l, d.granules p n = p :: l := by
  obtain ⟨m, hm⟩ : ∃ m, n / 64 = m + 1 := ⟨n / 64 - 1, by omega⟩
  refine List.head?_eq_some_iff.1 ?_
  simp [Desc.granules, hm, hd, List.range_succ_eq_map]

theorem rowAddr_aligned {d : Desc} {base pitch p : Nat} (hb : base % 64 = 0) (hp : pitch % 64 = 0) (hr : d.rowBytes % 64 = 0) (hpos : p % 64 = 0) :
    d.rowAddr base pitch p % 64 = 0 := by
  have hrow : 64 ∣ (if pitch = 0 then d.rowBytes else pitch) := by
    split
    · exact Nat.dvd_of_mod_eq_zero hr
    · exact Nat.dvd_of_mod_eq_zero hp
  refine Nat.mod_eq_zero_of_dvd (Nat.dvd_add (Nat.dvd_add (Nat.dvd_of_mod_eq_zero hb) (Dvd.dvd.mul_left hrow _)) ?_)
  exact (Nat.dvd_mod_iff (Nat.dvd_of_mod_eq_zero hr)).2 (Nat.dvd_of_mod_eq_zero hpos)

theorem dstAddr_aligned {d : Desc} {p : Nat} (hb : d.dst % 64 = 0) (hp : d.dstPitch % 64 = 0) (hr : d.rowBytes % 64 = 0) (hpos : p % 64 = 0) :
    d.dstAddr p % 64 = 0 := by
  have h := rowAddr_aligned (d := d) hb hp hr hpos
  rw [Desc.dstAddr]
  omega

/-- A beat's bytes are taken and accounted for. -/
def beatWrites (q idx k size a0 : Nat) (ps : List Nat) (key : SegKey) (src : Source) (parts : List (Nat × List Byte)) : Prog := .all [
  openEntry key size a0,
  modSeg q idx k (fun g => { g with moved := g.moved + 64 * ps.length }),
  writeParts src key parts]

theorem openEntry_looks (key : SegKey) (size dst : Nat) (d : Device) : (openEntry key size dst).Safe (looks Device.intact d) :=
  (Prog.safe_get _).2 fun _ _ => (Prog.safe_when ..).2 fun _ => modDev_looks fun _ => rfl

/-- Parts that show a pattern are written and accounted for. -/
theorem writeParts_run (src : Source) (key : SegKey) {f : Nat → Byte} {ps : List (Nat × List Byte)} (hf : showsAll f ps)
    (ha : ∀ p ∈ ps, granEnd ≤ p.1) (hi : s.intact = true) :
    let t := (writeParts src key ps).run s
    (∀ b, covered ps b → t.byte b = f b) ∧ Keeps { accountTouch with mem := covered ps } s t := by
  have hlow : ∀ p ∈ joinParts ps, granEnd ≤ p.1 := by
    clear hf
    induction ps with
    | nil => exact ha
    | cons p ps ih =>
      have hrest := ih fun q hq => ha q (List.mem_cons_of_mem _ hq)
      have hp := ha p (List.mem_cons_self ..)
      rw [joinParts_cons]
      obtain h | ⟨bs, l', hl, h⟩ := joinPart_cases p (joinParts ps)
      · rw [h]
        exact List.forall_mem_cons.2 ⟨hp, hrest⟩
      · rw [h]
        rw [hl] at hrest
        exact List.forall_mem_cons.2 ⟨hp, (List.forall_mem_cons.1 hrest).2⟩
  obtain ⟨hcov, hkeep⟩ := each_memStore_run src (showsAll_joinParts hf) hlow hi
  rw [writeParts, Prog.run_all_cons, Prog.run_all_cons, Prog.run_all_nil, Prog.run_get]
  generalize (Prog.each (joinParts ps) (fun p => memStore src p.1 p.2)).run s = u at *
  have hacc := Prog.keeps (account_only key (ps.map (fun p => p.2.length)).sum (if ps.any (fun p => u.deadAt p.1 p.2.length) then 2 else 0)) u
  generalize (account key _ _).run u = t at *
  refine ⟨fun b hb => (hacc.mem b id).trans (hcov b ((covered_joinParts ps b).2 hb)), (hkeep.mono ?_).trans (hacc.mono ?_)⟩
  · constructor
    case mem => exact fun b hb => (covered_joinParts ps b).1 hb
    all_goals simp [accountTouch]
  · constructor <;> simp [accountTouch]

theorem beatWrites_run (q idx k size a0 : Nat) (ps : List Nat) (key : SegKey) (src : Source) {f : Nat → Byte} {parts : List (Nat × List Byte)}
    (hf : showsAll f parts) (ha : ∀ p ∈ parts, granEnd ≤ p.1) (hi : s.intact = true) :
    let t := (beatWrites q idx k size a0 ps key src parts).run s
    (∀ b, covered parts b → t.byte b = f b) ∧ (∀ b, ¬ covered parts b → t.byte b = s.byte b) ∧
    t.queue q = { s.queue q with xfers := (s.queue q).xfers.map (fun y => if y.idx = idx then
      { y with segs := y.segs.modify k (fun g => { g with moved := g.moved + 64 * ps.length }) } else y) } := by
  have hopen : Keeps { dev := True } s ((openEntry key size a0).run s) := Prog.keeps (by simp [openEntry, Prog.only_when]) s
  have hi1 := intact_of_looks (openEntry_looks key size a0) hi
  rw [beatWrites, Prog.run_all_cons, Prog.run_all_cons, Prog.run_all_cons, Prog.run_all_nil]
  generalize (openEntry key size a0).run s = u at *
  have hself : ((modSeg q idx k (fun g => { g with moved := g.moved + 64 * ps.length })).run u).queue q = { u.queue q with
      xfers := (u.queue q).xfers.map (fun y => if y.idx = idx then
        { y with segs := y.segs.modify k (fun g => { g with moved := g.moved + 64 * ps.length }) } else y) } := modQueue_run_self ..
  have hmod : Keeps { queues := (· = q) } u ((modSeg q idx k (fun g => { g with moved := g.moved + 64 * ps.length })).run u) :=
    Prog.keeps (by simp [modSeg]) u
  generalize (modSeg q idx k (fun g => { g with moved := g.moved + 64 * ps.length })).run u = w at *
  obtain ⟨hcov, hkeep⟩ := writeParts_run src key hf ha (intact_of_keeps hmod id hi1)
  refine ⟨hcov, fun b hb => ?_, ?_⟩
  · rw [hkeep.mem b hb, hmod.mem b id, hopen.mem b id]
  · rw [hkeep.queues q id, hself, hopen.queues q id]

/-! ### Slot cycles -/

theorem exec_slotCycle {c : CroftId} {cyc : Fin 16} {turn : Fin 4} (hd : s.drained c.val = false) (hc : s.clockRuns c.val = true)
    (h0 : cyc.val ≠ 0) (h8 : cyc.val ≠ 8) :
    exec (.sluiceSlotCycle c cyc turn) s = .next (
      if s.slotEntry c.val cyc.val < 0x80 then
        (Prog.when ((s.queue (c.val * 128 + s.slotEntry c.val cyc.val)).owner == 1) (queueBeat (c.val * 128 + s.slotEntry c.val cyc.val))).run s
      else if s.slotEntry c.val cyc.val = 0x80 then (inBeat c.val).run s else s) := by
  show execSluiceSlotCycle c cyc turn s = _
  simp -implicitDefEqProofs only [execSluiceSlotCycle, Prog.next_eq, Prog.run_get, hd, hc, Bool.not_true, Bool.false_or, h0, decide_false,
    Bool.false_eq_true, if_false, h8]
  rw [Prog.run_ite, Prog.run_ite]
  rfl

theorem firstSome_none {α : Type} {l : List (Option α)} (h : ∀ x ∈ l, x = none) : firstSome l = none := by
  induction l with
  | nil => rfl
  | cons x xs ih =>
    obtain rfl := h x (List.mem_cons_self ..)
    exact ih fun y hy => h y (List.mem_cons_of_mem _ hy)

/-- A FILL whose bytes go to the slice of its own croft is ready. -/
theorem fillBeat_run {q c o : Nat} {x : Xfer} {k : Nat} {g : Seg} (hcur : s.current q = some (x, k, g)) (hk : x.desc.kind = 2)
    (hdst : s.dstDest x.desc = .here) (hq : qCroft q = c) (hplace : placeOf (x.desc.dstAddr (k * x.desc.segSize + g.moved)) = .slice c o)
    (hn : 64 ≤ g.size - g.moved)
    (hbank : ∀ p ∈ x.desc.granules (k * x.desc.segSize + g.moved) (min 256 (g.size - g.moved)),
      s.bankMiss c agSluice true (x.desc.dstAddr p - sliceAddr c 0) 64 = none) :
    ∃ size a0 key src, (queueBeat q).run s = (beatWrites q x.idx k size a0
      (x.desc.granules (k * x.desc.segSize + g.moved) (min 256 (g.size - g.moved))) key src
      (((x.desc.granules (k * x.desc.segSize + g.moved) (min 256 (g.size - g.moved))).map x.desc.dstAddr).map
        (fun a => (a, fillBytes x.desc.fill 64)))).run s := by
  have hsrc : s.srcDest x.desc = .here := if_pos hk
  have hwaits : s.beatWaits q x k g = false := by
    rw [State.beatWaits]
    simp [hsrc, hdst, hk, hplace]
  obtain ⟨l, hl⟩ := granules_fill hk (k * x.desc.segSize + g.moved) (n := min 256 (g.size - g.moved)) (by omega)
  generalize hps : x.desc.granules (k * x.desc.segSize + g.moved) (min 256 (g.size - g.moved)) = ps at *
  have hparts : granulesOf (ps.map x.desc.dstAddr) (fillBytes x.desc.fill (64 * ps.length)) = (ps.map x.desc.dstAddr).map
      (fun a => (a, fillBytes x.desc.fill 64)) := by
    have h := granulesOf_fill x.desc.fill (ps.map x.desc.dstAddr)
    rwa [List.length_map] at h
  have hmiss : firstSome (ps.map (fun p => s.bankMiss c agSluice true (x.desc.dstAddr p - sliceAddr c 0) 64)) = none :=
    firstSome_none fun y hy => by
      obtain ⟨p, hp, rfl⟩ := List.mem_map.1 hy
      exact hbank p hp
  have hhead : x.desc.dstAddr (ps.headD 0) = x.desc.dstAddr (k * x.desc.segSize + g.moved) := by rw [hl]; rfl
  refine ⟨g.size, x.desc.dstAddr (ps.headD 0), s.localKey q x k, .sluice (Fin.ofNat 16384 q), ?_⟩
  rw [queueBeat, Prog.run_get, hcur]
  dsimp only
  rw [hwaits, if_neg Bool.false_ne_true, hsrc, hdst]
  dsimp only
  rw [hps, withSource, Prog.run_get]
  dsimp only
  rw [if_pos hk, putBeat, Prog.run_get]
  dsimp only
  rw [hhead, hplace]
  dsimp only
  rw [hq, if_pos rfl, hmiss, hparts]
  rfl

theorem fillSlot_run {c : CroftId} {cyc : Fin 16} {turn : Fin 4} {x : Xfer} {k : Nat} {g : Seg} (hi : s.intact = true)
    (hd : s.drained c.val = false) (hc : s.clockRuns c.val = true) (h0 : cyc.val ≠ 0) (h8 : cyc.val ≠ 8) (he : s.slotEntry c.val cyc.val < 0x80)
    (ho : (s.queue (c.val * 128 + s.slotEntry c.val cyc.val)).owner = 1) (hcur : s.current (c.val * 128 + s.slotEntry c.val cyc.val) = some (x, k, g))
    (hk : x.desc.kind = 2) (hdst : s.dstDest x.desc = .here) (hbase : x.desc.dst % 64 = 0) (hpitch : x.desc.dstPitch % 64 = 0)
    (hrow : x.desc.rowBytes % 64 = 0) (hmoved : g.moved % 64 = 0) (hn : 64 ≤ g.size - g.moved)
    (hplace : ∀ p ∈ x.desc.granules (k * x.desc.segSize + g.moved) (min 256 (g.size - g.moved)),
      placeOf (x.desc.dstAddr p) = .slice c.val (x.desc.dstAddr p - sliceAddr c.val 0))
    (hbank : ∀ p ∈ x.desc.granules (k * x.desc.segSize + g.moved) (min 256 (g.size - g.moved)),
      s.bankMiss c.val agSluice true (x.desc.dstAddr p - sliceAddr c.val 0) 64 = none) :
    let q := c.val * 128 + s.slotEntry c.val cyc.val
    let ps := x.desc.granules (k * x.desc.segSize + g.moved) (min 256 (g.size - g.moved))
    Leaves (exec (.sluiceSlotCycle c cyc turn) s) fun t =>
      (∀ p ∈ ps, t.holds (x.desc.dstAddr p) (fillBytes x.desc.fill 64)) ∧
      (∀ a, (∀ p ∈ ps, ¬ inRange (x.desc.dstAddr p) 64 a) → t.byte a = s.byte a) ∧
      t.queue q = { s.queue q with
        xfers := (s.queue q).xfers.map (fun y => if y.idx = x.idx then
          { y with segs := y.segs.modify k (fun g => { g with moved := g.moved + 64 * ps.length }) } else y) } := by
  dsimp only
  rw [exec_slotCycle hd hc h0 h8, if_pos he, Prog.run_when, if_pos (beq_iff_eq.2 ho)]
  generalize hq : c.val * 128 + s.slotEntry c.val cyc.val = q at *
  have hcroft : qCroft q = c.val := by
    rw [qCroft]
    omega
  obtain ⟨l, hl⟩ := granules_fill hk (k * x.desc.segSize + g.moved) (n := min 256 (g.size - g.moved)) (by omega)
  have hfirst := hplace (k * x.desc.segSize + g.moved) (by rw [hl]; exact List.mem_cons_self ..)
  obtain ⟨size, a0, key, src, hrun⟩ := fillBeat_run hcur hk hdst hcroft hfirst hn hbank
  rw [hrun]
  have hmem := fun p (hp : p ∈ x.desc.granules (k * x.desc.segSize + g.moved) (min 256 (g.size - g.moved))) => mem_granules hp
  generalize x.desc.granules (k * x.desc.segSize + g.moved) (min 256 (g.size - g.moved)) = ps at *
  have haligned : ∀ a ∈ ps.map x.desc.dstAddr, a % 64 = 0 := by
    intro a ha
    obtain ⟨p, hp, rfl⟩ := List.mem_map.1 ha
    obtain ⟨i, rfl⟩ := hmem p hp
    have hseg : 64 ∣ k * x.desc.segSize := by
      rw [Desc.segSize, show 12 + x.desc.segLog = 6 + (6 + x.desc.segLog) by omega, pow_add]
      exact Dvd.dvd.mul_left (Dvd.intro _ rfl) k
    exact dstAddr_aligned hbase hpitch hrow (by omega)
  have hhigh : ∀ p ∈ (ps.map x.desc.dstAddr).map (fun a => (a, fillBytes x.desc.fill 64)), granEnd ≤ p.1 := by
    intro y hy
    simp only [List.map_map, List.mem_map, Function.comp_apply] at hy
    obtain ⟨p, hp, rfl⟩ := hy
    have h := hplace p hp
    unfold placeOf at h
    split at h
    · cases h
    next hlow => exact Nat.le_of_not_lt hlow
  obtain ⟨hcov, hkeep, hqueue⟩ := beatWrites_run q x.idx k size a0 ps key src (showsAll_fill haligned x.desc.fill) hhigh hi
  refine Leaves.of_next ⟨fun p hp i hlt => ?_, fun a ha => hkeep a fun h => ?_, hqueue⟩
  · rw [length_fillBytes] at hlt
    rw [hcov _ ((covered_fill ..).2 ⟨_, List.mem_map_of_mem hp, by omega, by omega⟩), fillAt_add (haligned _ (List.mem_map_of_mem hp)),
      List.getD_eq_getElem _ _ (by rwa [length_fillBytes]), getElem_fillBytes]
  · obtain ⟨b, hb, hr⟩ := (covered_fill ..).1 h
    obtain ⟨p, hp, rfl⟩ := List.mem_map.1 hb
    exact ha p hp hr

theorem granEnd_le_sliceAddr (c o : Nat) : granEnd ≤ sliceAddr c o := by
  rw [granEnd, sliceAddr]
  omega

theorem firstSome_singleton {α : Type} (x : Option α) : firstSome [x] = x := by cases x <;> rfl

/-- The oldest waiting bytes of a croft leave its list. -/
def popJob (c : Nat) (rest : List InJob) : Prog := modCroft c (fun r => { r with inJobs := rest })

theorem inBeat_run {c dev src : Nat} {key : SegKey} {via : Option Nat} {o : Nat} {bs : List Byte} {rest : List InJob}
    (hj : (s.croft c).inJobs = .write dev src key via [(o, bs)] :: rest) :
    (s.bankMiss c agSluice true o bs.length = none → (inBeat c).run s =
      (writeParts (.incoming (if dev = s.self then some (Fin.ofNat 16384 key.queue) else none)) key [(sliceAddr c o, bs)]).run ((popJob c rest).run s)) ∧
    (∀ a, s.bankMiss c agSluice true o bs.length = some a → (inBeat c).run s =
      (account key bs.length 1).run ((inCollide c a dev src).run ((popJob c rest).run s))) := by
  have hmiss : firstSome ([(o, bs)].map fun p => s.bankMiss c agSluice true p.1 p.2.length) = s.bankMiss c agSluice true o bs.length := by
    rw [List.map_cons, List.map_nil, firstSome_singleton]
  refine ⟨fun hm => ?_, fun a hm => ?_⟩
  all_goals
    rw [inBeat, Prog.run_get, hj]
    dsimp only
    rw [hmiss, hm]
    simp -implicitDefEqProofs only [Prog.run_all_cons, Prog.run_all_nil, popJob, List.map_cons, List.map_nil, List.sum_cons, List.sum_nil, Nat.add_zero]

theorem writePart_run (src : Source) (key : SegKey) (a : Nat) (bs : List Byte) (ha : granEnd ≤ a) (hi : s.intact = true) :
    let t := (writeParts src key [(a, bs)]).run s
    t.holds a bs ∧ Keeps { accountTouch with mem := inRange a bs.length } s t := by
  have hbytes := Act.apply_bytes_keeps s a bs
  have hholds := Act.apply_bytes_holds s a bs
  have hjoin : joinParts [(a, bs)] = [(a, bs)] := rfl
  rw [writeParts, Prog.run_all_cons, Prog.run_all_cons, Prog.run_all_nil, Prog.run_get, hjoin, Prog.run_each_cons, memStore_run hi a (.inr ha)]
  generalize (Act.bytes a bs).apply s = u at *
  rw [show (Prog.each [] (fun p : Nat × List Byte => memStore src p.1 p.2)).run u = u from rfl]
  have hacc := Prog.keeps (account_only key ([(a, bs)].map (fun p => p.2.length)).sum (if [(a, bs)].any (fun p => u.deadAt p.1 p.2.length) then 2 else 0)) u
  generalize (account key _ _).run u = t at *
  refine ⟨fun i hlt => (hacc.mem _ id).trans (hholds i hlt), (hbytes.mono ?_).trans (hacc.mono ?_)⟩ <;> constructor <;> simp [accountTouch]

theorem inSlot_writes {c dev src : Nat} {key : SegKey} {via : Option Nat} {o : Nat} {bs : List Byte} {rest : List InJob} (hi : s.intact = true)
    (hj : (s.croft c).inJobs = .write dev src key via [(o, bs)] :: rest) (hm : s.bankMiss c agSluice true o bs.length = none) :
    let t := (inBeat c).run s
    (t.croft c).inJobs = rest ∧ t.holds (sliceAddr c o) bs ∧ ∀ a, ¬ inRange (sliceAddr c o) bs.length a → t.byte a = s.byte a := by
  have hrun := (inBeat_run hj).1 hm
  have hpop : (((popJob c rest).run s).croft c).inJobs = rest := congrArg Croft.inJobs (modCroft_run_self ..)
  have hkeep : Keeps { crofts := (· = c) } s ((popJob c rest).run s) := Prog.keeps (by simp [popJob]) s
  rw [hrun]
  generalize (popJob c rest).run s = u at *
  obtain ⟨hholds, hparts⟩ := writePart_run (.incoming (if dev = s.self then some (Fin.ofNat 16384 key.queue) else none)) key (sliceAddr c o) bs (granEnd_le_sliceAddr c o) (intact_of_keeps hkeep id hi)
  exact ⟨by rw [hparts.crofts c id]; exact hpop, hholds, fun a ha => (hparts.mem a ha).trans (hkeep.mem a id)⟩

theorem inSlot_collides {c dev src : Nat} {key : SegKey} {via : Option Nat} {o a : Nat} {bs : List Byte} {rest : List InJob}
    (hj : (s.croft c).inJobs = .write dev src key via [(o, bs)] :: rest) (hm : s.bankMiss c agSluice true o bs.length = some a) :
    let t := (inBeat c).run s
    (t.croft c).inJobs = rest ∧ Counts s t (pgOwn c) R.own_IN_COLL_CNT 1 ∧ ∀ a, t.byte a = s.byte a := by
  have hrun := (inBeat_run hj).2 a hm
  have hpop : (((popJob c rest).run s).croft c).inJobs = rest := congrArg Croft.inJobs (modCroft_run_self ..)
  have hkeep : Keeps { crofts := (· = c) } s ((popJob c rest).run s) := Prog.keeps (by simp [popJob]) s
  rw [hrun]
  generalize (popJob c rest).run s = u at *
  have hcoll : (inCollide c a dev src).run u = (collide c 11 clBank (a / bankSize) 0 a (some (u.sender dev src))).run
      ((bumpBy (pgOwn c) R.own_IN_COLL_CNT 1).run u) := by
    rw [inCollide, Prog.run_get, Prog.run_all_cons, Prog.run_all_cons, Prog.run_all_nil]
    rfl
  rw [hcoll]
  obtain ⟨hcnt, hbump⟩ := bumpBy_run (pgOwn c) R.own_IN_COLL_CNT 1 u
  generalize u.sender dev src = snd at *
  generalize (bumpBy (pgOwn c) R.own_IN_COLL_CNT 1).run u = w at *
  obtain ⟨-, -, -, -, hin, hc⟩ := collide_run (source := 11) (cls := clBank) (by decide) (by decide) c (a / bankSize) 0 a (some snd) w
  generalize (collide c 11 clBank (a / bankSize) 0 a (some snd)).run w = v at *
  have hacc := Prog.keeps (account_only key bs.length 1) v
  refine ⟨?_, ?_, fun b => ?_⟩
  · rw [hacc.crofts c id, hc.crofts c id, hbump.crofts c id]
    exact hpop
  · rw [Counts, hacc.reg_eq (not_offKinds (by simp) (by simp) (by decide)), hin, hcnt, hkeep.reg_eq id]
  · rw [hacc.mem b id, hc.mem b id, hbump.mem b id, hkeep.mem b id]

/-! ### The end of a segment -/

/-- The transfers of descriptor index `idx` first in a queue have segment `k` ended with status `st`. -/
def segEnded (idx k st : Nat) (r : Queue) : Prop :=
  ∀ y, r.xfers.find? (fun x => x.idx == idx) = some y → ∃ g, y.segs[k]? = some g ∧ g.res = some st

theorem find?_map_idx {idx : Nat} {f : Xfer → Xfer} (hf : ∀ y, (f y).idx = y.idx) (xs : List Xfer) :
    (xs.map f).find? (fun x => x.idx == idx) = (xs.find? (fun x => x.idx == idx)).map f := by
  rw [List.find?_map]
  congr 2
  funext y
  exact congrArg (· == idx) (hf y)

theorem segEnded_drop {idx k st : Nat} (r : Queue) (i : Nat) (h : segEnded idx k st r) (hi : i = idx) :
    segEnded idx k st { r with xfers := r.xfers.filter (fun z => z.idx != i) } := by
  subst hi
  intro y hy
  have hmem := List.mem_of_find?_eq_some hy
  have hidx : y.idx = i := by simpa using List.find?_some hy
  simp only [List.mem_filter, bne_iff_ne, ne_eq] at hmem
  exact absurd hidx hmem.2

/-- Segments not yet issued do not run once a failure has stopped their queue. -/
def segSkips (g : Seg) : Seg := if g.res.isNone && g.moved == 0 && !g.asked then { g with res := some 8 } else g

/-- A failure stops its queue. -/
def stopsQueue (idx : Nat) (r : Queue) : Queue := { r with
  stopper := if r.stopper.isSome then r.stopper else some idx
  xfers := r.xfers.map (fun x => if x.idx = idx then { x with segs := x.segs.map segSkips } else x) }

theorem segEnded_stops {idx k st : Nat} {r : Queue} (h : segEnded idx k st r) : segEnded idx k st (stopsQueue idx r) := by
  intro y hy
  rw [stopsQueue, find?_map_idx (fun y => by split <;> rfl)] at hy
  obtain ⟨z, hz, rfl⟩ := Option.map_eq_some_iff.1 hy
  obtain ⟨g, hg, hres⟩ := h z hz
  have hidx : z.idx = idx := by simpa using List.find?_some hz
  refine ⟨g, ?_, hres⟩
  rw [if_pos hidx]
  show (z.segs.map segSkips)[k]? = some g
  rw [List.getElem?_map, hg]
  simp [segSkips, hres]

/-- A segment is counted as it ends. -/
def segCounts (q st : Nat) : Prog := .all [
  Prog.when (st == 0) (bump (pgSluice (qCroft q)) R.sluice_SEG_CNT),
  Prog.when (st == 6) (bump (pgSluice (qCroft q)) R.sluice_TIMEOUT_CNT)]

/-- A transfer ends with its last segment. -/
def lastEnds (q idx : Nat) : Prog := .get (fun s =>
  match s.xfer? q idx with
  | some x => Prog.when (x.segs.all (fun g => g.res.isSome)) (finishXfer q x)
  | none => .done)

/-- A queue whose segment has ended with status `st`. -/
def resultIn (idx k st : Nat) (r : Queue) : Queue := { r with
  xfers := r.xfers.map (fun x => if x.idx = idx then { x with segs := x.segs.modify k (fun g => { g with res := some st }) } else x) }

/-- A segment ends with status `st`. -/
def segResult (q idx k st : Nat) : Prog := modQueue q (resultIn idx k st)

theorem completeSeg_run {q idx k : Nat} (st : Nat) {x : Xfer} {g : Seg} (hx : s.xfer? q idx = some x) (hg : x.segs[k]? = some g) (hres : g.res = none) :
    ∃ stop, (completeSeg q idx k st).run s = (lastEnds q idx).run ((Prog.when stop (modQueue q (stopsQueue idx))).run
      ((segCounts q st).run ((dropEntries (fun e => e == s.localKey q x k || e == { s.localKey q x k with link := 17 })).run
        ((segResult q idx k st).run s)))) := by
  refine ⟨st != 0 && s.qfld q R.qgroup_QCFG_MODE == 0, ?_⟩
  rw [completeSeg, Prog.run_get, hx]
  dsimp only
  rw [hg]
  dsimp only
  rw [hres, Option.isSome_none, if_neg Bool.false_ne_true]
  simp -implicitDefEqProofs only [Prog.run_all_cons, Prog.run_all_nil, segCounts]
  rfl

theorem segCounts_run (q st : Nat) (s : State) :
    let t := (segCounts q st).run s
    Counts s t (pgSluice (qCroft q)) R.sluice_SEG_CNT (if st = 0 then 1 else 0) ∧
    Counts s t (pgSluice (qCroft q)) R.sluice_TIMEOUT_CNT (if st = 6 then 1 else 0) ∧
    Keeps { regs := theRegs (pgSluice (qCroft q)) [R.sluice_SEG_CNT, R.sluice_TIMEOUT_CNT] } s t := by
  refine ⟨?_, ?_, Prog.keeps (by simp [segCounts, Prog.only_when]) s⟩
  all_goals
    rw [segCounts, Prog.run_all_cons, Prog.run_all_cons, Prog.run_all_nil, Prog.run_when, Prog.run_when]
    by_cases h0 : st = 0
    · simp -implicitDefEqProofs [h0, Counts, satAdd_zero]
    · by_cases h6 : st = 6 <;> simp -implicitDefEqProofs [h0, h6, Counts, satAdd_zero]

/-- All but the counters of segments. -/
def besideSegs : Touch :=
  { regs := fun a => ∀ c, ∀ o ∈ segOffsets, a ≠ (pgSluice c).base + o, mem := fun _ => True, queues := fun _ => True, crofts := fun _ => True,
    links := fun _ => True, dev := True, seq := True }

theorem besideSegs_ends : besideSegs.ends := by
  have hon {p : Page} (hp : p.placed) (hk : p.kind ≠ .sluice) {o : Nat} (ho : o < 0x1000) : onReg besideSegs.regs p o := fun c o' ho' =>
    apart_ne ⟨ho, by
      revert o'
      decide, .inr ⟨.inl hk, hp, by simp⟩⟩
  refine { dev := trivial, mem := fun _ => trivial, cist := fun _ o ho => hon (by simp) (by simp) ho, gran := fun _ o ho => hon (by simp) (by simp) ho,
           sluice := fun c o ho c' o' ho' => apart_ne ⟨?_, ?_, .inl ?_⟩, group := fun _ o ho => hon (by simp) (by simp) ho,
           own := fun _ o ho => hon (by simp) (by simp) ho, reeve := fun _ o ho => hon (by simp) (by simp) ho,
           port := hon (by simp) (by simp) (by decide), crofts := fun _ => trivial, links := fun _ => trivial, seq := trivial }
  · revert o
    decide
  · revert o'
    decide
  · revert o o'
    decide

theorem lastEnds_run (q idx : Nat) (s : State) :
    let t := (lastEnds q idx).run s
    (∀ o ∈ segOffsets, t.reg (pgSluice (qCroft q)) o = s.reg (pgSluice (qCroft q)) o) ∧
    (∀ k st, segEnded idx k st (s.queue q) → segEnded idx k st (t.queue q)) := by
  have honly : (lastEnds q idx).Only besideSegs.allows := by
    intro s
    dsimp only
    split
    · exact (Prog.only_when ..).2 fun _ => finishXfer_ends besideSegs_ends trivial _
    · trivial
  refine ⟨fun o ho => (Prog.keeps honly s).reg_eq fun h => h _ o ho rfl, fun k st h => ?_⟩
  rw [lastEnds, Prog.run_get]
  split
  next x hx =>
    have hidx : x.idx = idx := by simpa using List.find?_some hx
    rw [Prog.run_when]
    split
    · have hsafe : (finishXfer q x).Safe (queueIs q (segEnded idx k st) True) :=
        finishXfer_keeps_view (fun r hr => eq_true (segEnded_drop r x.idx (of_eq_true hr) hidx)) (fun r d w => rfl) ⟨s, eq_true h⟩ q
      exact of_eq_true (hsafe.run (eq_true h))
    · exact h
  next => exact h

/-- A segment that had not ended ends: it is counted, and its transfer, while it stands, shows the status. -/
theorem completeSeg_ended {q idx k : Nat} (st : Nat) {x : Xfer} {g : Seg} (hx : s.xfer? q idx = some x) (hg : x.segs[k]? = some g) (hres : g.res = none) :
    let t := (completeSeg q idx k st).run s
    Counts s t (pgSluice (qCroft q)) R.sluice_SEG_CNT (if st = 0 then 1 else 0) ∧
    Counts s t (pgSluice (qCroft q)) R.sluice_TIMEOUT_CNT (if st = 6 then 1 else 0) ∧ segEnded idx k st (t.queue q) := by
  obtain ⟨stop, hrun⟩ := completeSeg_run st hx hg hres
  rw [hrun]
  have hself : ((segResult q idx k st).run s).queue q = resultIn idx k st (s.queue q) := modQueue_run_self ..
  have hfirst : Keeps { queues := (· = q) } s ((segResult q idx k st).run s) := Prog.keeps (by simp [segResult]) s
  have hended : segEnded idx k st (((segResult q idx k st).run s).queue q) := by
    rw [hself]
    intro y hy
    rw [resultIn, find?_map_idx (fun y => by split <;> rfl)] at hy
    obtain ⟨z, hz, rfl⟩ := Option.map_eq_some_iff.1 hy
    obtain rfl : x = z := Option.some.inj (hx.symm.trans hz)
    have hidx : x.idx = idx := by simpa using List.find?_some hz
    rw [if_pos hidx]
    exact ⟨{ g with res := some st }, by simp [hg], rfl⟩
  generalize (segResult q idx k st).run s = u at *
  have hdrop : Keeps { dev := True } u ((dropEntries (fun e => e == s.localKey q x k || e == { s.localKey q x k with link := 17 })).run u) :=
    Prog.keeps (by simp [dropEntries]) u
  generalize (dropEntries _).run u = w at *
  obtain ⟨hseg, htime, hcounts⟩ := segCounts_run q st w
  generalize (segCounts q st).run w = v at *
  have hv : segEnded idx k st (v.queue q) := by
    rw [hcounts.queues q id, hdrop.queues q id]
    exact hended
  have hstops : Keeps { queues := (· = q) } v ((Prog.when stop (modQueue q (stopsQueue idx))).run v) := Prog.keeps (by simp [Prog.only_when]) v
  have hstopped : segEnded idx k st (((Prog.when stop (modQueue q (stopsQueue idx))).run v).queue q) := by
    rw [Prog.run_when]
    split
    · rw [modQueue_run_self]
      exact segEnded_stops hv
    · exact hv
  generalize (Prog.when stop (modQueue q (stopsQueue idx))).run v = r at *
  obtain ⟨hregs, hlast⟩ := lastEnds_run q idx r
  have hbefore {o : Nat} : w.reg (pgSluice (qCroft q)) o = s.reg (pgSluice (qCroft q)) o := (hdrop.reg_eq id).trans (hfirst.reg_eq id)
  refine ⟨?_, ?_, hlast k st hstopped⟩
  · rw [Counts, hregs _ (by decide), hstops.reg_eq id, hseg, hbefore]
  · rw [Counts, hregs _ (by decide), hstops.reg_eq id, htime, hbefore]

/-! ### Acknowledgements and timeouts -/

theorem find?_of_imp {l : List Xfer} {p p' : Xfer → Bool} {x : Xfer} (h : l.find? p = some x) (hx : p' x = true)
    (himp : ∀ y, p' y = true → p y = true) : l.find? p' = some x := by
  obtain ⟨-, as, bs, rfl, has⟩ := List.find?_eq_some_iff_append.1 h
  refine List.find?_eq_some_iff_append.2 ⟨hx, as, bs, rfl, fun a ha => ?_⟩
  have hnot := has a ha
  cases hp : p' a
  · rfl
  · rw [himp a hp] at hnot
    exact absurd hnot (by decide)

theorem exec_segTimeout {q : QueueId} {idx : BitVec 32} {seg : Fin 64} {x : Xfer} {g : Seg}
    (hx : (s.queue q.val).xfers.find? (fun x => x.idx % 2 ^ 32 == idx.toNat) = some x) (hg : x.segs[seg.val]? = some g) (hm : g.size ≤ g.moved) :
    exec (.segTimeout q idx seg) s = .next ((completeSeg q.val x.idx seg.val 6).run s) := by
  show execSegTimeout q idx seg s = _
  rw [execSegTimeout, Prog.next_eq, Prog.run_get, hx]
  dsimp only
  rw [hg]
  dsimp only
  rw [Prog.run_when, if_pos (decide_eq_true hm)]

/-- An acknowledgement is taken from the list. -/
def ackTakes (k : Nat) : Prog := modDev (fun d => { d with acks := d.acks.eraseIdx k })

theorem exec_segAck {k : Nat} {dev queue : BitVec 14} {tag : BitVec 12} {epoch inc : BitVec 4} {seg : BitVec 6} {status : BitVec 4}
    (h : s.dev.acks[k]? = some (.segAck dev queue tag epoch inc seg status false)) :
    exec (.segAck k) s = .next ((ackArrives queue.toNat tag.toNat epoch.toNat inc.toNat seg.toNat status.toNat).run ((ackTakes k).run s)) := by
  show execSegAck k s = _
  rw [execSegAck, Prog.next_eq, Prog.run_get, h]
  dsimp only
  rw [if_neg Bool.false_ne_true, Prog.run_all_cons, Prog.run_all_cons, Prog.run_all_nil, ackTakes]

/-- Uncorrectable data that an acknowledgement reports halts the croft. -/
def ackHalts (q a : Nat) (halts : Bool) : Prog := Prog.when halts (.all [queueUE q a, eff .seq])

theorem ackHalts_ends {T : Touch} (h : T.ends) (q a : Nat) (halts : Bool) : (ackHalts q a halts).Only T.allows := by
  simp [ackHalts, Prog.only_when, queueUE_ends h.toreacts, Touch.allows, h.seq]

theorem ackArrives_stale {q tag epoch inc seg status : Nat} (h : inc ≠ s.inc (qCroft q) ∨ epoch ≠ (s.queue q).epoch) :
    (ackArrives q tag epoch inc seg status).run s = (bump (pgSluice (qCroft q)) R.sluice_STALE_CNT).run s := by
  rw [ackArrives, Prog.run_get]
  dsimp only
  rw [if_pos h]

theorem ackArrives_run {q tag epoch inc seg status : Nat} {x : Xfer} (hinc : inc = s.inc (qCroft q)) (hepoch : epoch = (s.queue q).epoch)
    (hx : (s.queue q).xfers.find? (fun x => x.desc.tag == tag && x.epoch == epoch) = some x) :
    ∃ a halts, (ackArrives q tag epoch inc seg status).run s = (completeSeg q x.idx seg status).run ((ackHalts q a halts).run s) := by
  refine ⟨(Config.openWord s.seq).toNat % 2 ^ 28, status == 2 &&
    !(s.fld (pgReeve (qCroft q)) R.STATE_STATE == stFault && s.fld (pgReeve (qCroft q)) R.FAULT_CAUSE == 0x0C) &&
    (match x.segs[seg]? with | some g => g.res.isNone | none => false), ?_⟩
  rw [ackArrives, Prog.run_get]
  dsimp only
  rw [if_neg (not_or.2 ⟨not_not.2 hinc, not_not.2 hepoch⟩), hx]
  dsimp only
  rw [Prog.run_all_cons, Prog.run_all_cons, Prog.run_all_nil]
  rfl

theorem ackArrives_ends {q tag epoch inc seg status : Nat} {x : Xfer} {g : Seg} (hinc : inc = s.inc (qCroft q)) (hepoch : epoch = (s.queue q).epoch)
    (hfind : (s.queue q).xfers.find? (fun x => x.desc.tag == tag && x.epoch == epoch) = some x) (hx : s.xfer? q x.idx = some x)
    (hg : x.segs[seg]? = some g) (hres : g.res = none) :
    let t := (ackArrives q tag epoch inc seg status).run s
    Counts s t (pgSluice (qCroft q)) R.sluice_SEG_CNT (if status = 0 then 1 else 0) ∧ segEnded x.idx seg status (t.queue q) := by
  obtain ⟨a, halts, hrun⟩ := ackArrives_run (seg := seg) (status := status) hinc hepoch hfind
  rw [hrun]
  have hregs := Prog.keeps (ackHalts_ends besideSegs_ends q a halts) s
  have hqueue := Prog.keeps (ackHalts_ends besideQueues_ends q a halts) s
  generalize (ackHalts q a halts).run s = u at *
  have hxu : u.xfer? q x.idx = some x := by
    rw [State.xfer?, hqueue.queues q id]
    exact hx
  obtain ⟨hseg, -, hended⟩ := completeSeg_ended status hxu hg hres
  have hsame : u.reg (pgSluice (qCroft q)) R.sluice_SEG_CNT.off = s.reg (pgSluice (qCroft q)) R.sluice_SEG_CNT.off :=
    hregs.reg_eq fun h => h (qCroft q) R.sluice_SEG_CNT.off (by decide) rfl
  exact ⟨by rw [Counts, ← hsame]; exact hseg, hended⟩

/-- Settles O38: the cycles of a stream slot and of an IN slot, and how a segment ends. -/
theorem segmentsMoveAndEnd : Obligations.SegmentsMoveAndEnd := by
  unfold Obligations.SegmentsMoveAndEnd
  refine ⟨⟨fun s c turn => ?_, ?_, fun s c cyc turn dev src o key via bs rest hi hd hc h0 h8 he hj => ⟨fun hm => ?_, fun hm => ?_⟩⟩,
    fun s q idx seg x g hx hg hres hm => ?_, fun s k dev queue tag epoch inc seg status h => ?_⟩
  · show execSluiceSlotCycle c 0 turn s = _
    simp -implicitDefEqProofs only [execSluiceSlotCycle, Prog.next_eq, Prog.run_get, Fin.val_zero, decide_true, Bool.or_true, if_true, Prog.run_done]
  · intro s c cyc turn x k g hi hd hc h0 h8 he q d ps ho hcur hk hdst hbase hpitch hrow hmoved hn hplace hbank
    exact fillSlot_run hi hd hc h0 h8 he ho hcur hk hdst hbase hpitch hrow hmoved hn hplace hbank
  · rw [exec_slotCycle hd hc h0 h8, if_neg (by rw [he]; decide), if_pos he]
    exact Leaves.of_next (inSlot_writes hi hj hm)
  · rw [exec_slotCycle hd hc h0 h8, if_neg (by rw [he]; decide), if_pos he]
    obtain ⟨a, ha⟩ := Option.ne_none_iff_exists'.1 hm
    exact Leaves.of_next (inSlot_collides hj ha)
  · have hfirst : s.xfer? q.val x.idx = some x :=
      find?_of_imp hx (beq_self_eq_true _) fun y hy => by
        rw [beq_iff_eq.1 hy]
        exact List.find?_some (p := fun x : Xfer => x.idx % 2 ^ 32 == idx.toNat) hx
    rw [exec_segTimeout hx hg hm]
    obtain ⟨-, htime, hended⟩ := completeSeg_ended 6 hfirst hg hres
    exact Leaves.of_next ⟨htime, hended⟩
  · intro c Q
    rw [exec_segAck h]
    have hdev : ((ackTakes k).run s).dev = { s.dev with acks := s.dev.acks.eraseIdx k } := rfl
    have hkeep : Keeps { dev := True } s ((ackTakes k).run s) := Prog.keeps (by simp [ackTakes]) s
    generalize (ackTakes k).run s = u at *
    have hinc : u.inc c = s.inc c := by rw [State.inc, State.inc, hdev]
    have hQ : u.queue queue.toNat = Q := hkeep.queues queue.toNat id
    refine ⟨fun hstale => ?_, fun x g hi he hfind hx hg hres => ?_⟩
    · rw [ackArrives_stale (by rw [hinc, hQ]; exact hstale)]
      obtain ⟨hcnt, hbump⟩ := bumpBy_run (pgSluice c) R.sluice_STALE_CNT 1 u
      refine Leaves.of_next ⟨?_, (hbump.dev id).trans hdev, (hkeep.mono ?_).trans (hbump.mono ?_)⟩
      · rw [Counts, ← hkeep.reg_eq (p := pgSluice c) (o := R.sluice_STALE_CNT.off) id]
        exact hcnt
      · constructor <;> simp
      · constructor <;> simp
    · have hxu : u.xfer? queue.toNat x.idx = some x := by
        rw [State.xfer?, hQ]
        exact hx
      obtain ⟨hcnt, hended⟩ := ackArrives_ends (status := status.toNat) (hi.trans hinc.symm) (he.trans (congrArg Queue.epoch hQ.symm)) (hQ ▸ hfind) hxu hg hres
      refine Leaves.of_next ⟨?_, hended⟩
      rw [Counts, hkeep.reg_eq id] at hcnt
      rw [Counts, hcnt]
      congr 1
      refine if_congr ?_ rfl rfl
      exact (BitVec.toNat_eq (x := status) (y := 0)).symm

end Sys2Proof.Machine
end

open Host
section
/-! O40: links replay, retrain, come up and go down (R354 to R356, R373, R557). -/
namespace Sys2Proof.Machine

variable {s : State}

/-! ### What the end of a link touches -/

section
variable {T : Touch}

theorem snapFail_only (h : T.reacts) (hb : ∀ o < 0x1000, onReg T.regs pgBucket o) (cause addr : Nat) : (snapFail cause addr).Only T.allows := by
  intro s
  dsimp only
  split
  · trivial
  · simp [h.dev, hb, Prog.only_each, store_ends h, unhold]

theorem failSegments_only (h : T.ends) (hseg : ∀ c, ∀ o ∈ segOffsets, onReg T.regs (pgSluice c) o) (hq : ∀ q, T.queues q) (l : Nat) :
    (failSegments l).Only T.allows := by
  intro s
  refine (Prog.only_each ..).2 fun e _ => (Prog.only_each ..).2 fun x _ => (Prog.only_each ..).2 fun k _ => ?_
  split
  · exact (Prog.only_when ..).2 fun _ => completeSeg_ends h (hq _) hseg _ _ _
  · trivial

theorem dropTransit_only (h : T.ends) (hp : onReg T.regs pgPort R.port_TRANSIT_DROP_CNT.off) (l : Nat) : (dropTransit l).Only T.allows := by
  intro s
  refine (Prog.only_each ..).2 fun out _ t => ?_
  simp only [Prog.only_all_cons, Prog.only_all_nil, and_true, bumpBy_allows, modLink_allows]
  exact ⟨hp, h.links _⟩

end

/-- What the outstanding traffic of a link that goes down may change: all but the pages of the links, and what the port shows of them. -/
def trafficTouch : Touch :=
  { regs := fun a => offKinds [.link] a ∧ a ≠ pgPort.base + R.port_STATUS_UP.off, mem := fun _ => True, queues := fun _ => True,
    crofts := fun _ => True, links := fun _ => True, dev := True, seq := True }

theorem trafficTouch_on {p : Page} (hp : p.placed) (hk : p.kind ≠ .link ∧ p.kind ≠ .port) {o : Nat} (ho : o < 0x1000) : onReg trafficTouch.regs p o :=
  ⟨onReg_offKinds ho hp (by simpa using hk.1), apart_ne ⟨ho, by decide, .inr ⟨.inl hk.2, hp, by simp⟩⟩⟩

theorem trafficTouch_port {o : Nat} (ho : o < 0x1000) (h : o ≠ R.port_STATUS_UP.off) : onReg trafficTouch.regs pgPort o :=
  ⟨onReg_offKinds ho (by simp) (by simp), by omega⟩

theorem endOffset_lt {o : Nat} (h : o ∈ endOffsets) : o < 0x1000 := by
  revert o
  decide

theorem segOffset_lt {o : Nat} (h : o ∈ segOffsets) : o < 0x1000 := by
  revert o
  decide

theorem trafficTouch_ends : trafficTouch.ends :=
  { dev := trivial, mem := fun _ => trivial, cist := fun _ _ => trafficTouch_on (by simp) (by simp), gran := fun _ _ => trafficTouch_on (by simp) (by simp),
    sluice := fun _ _ ho => trafficTouch_on (by simp) (by simp) (endOffset_lt ho), group := fun _ _ => trafficTouch_on (by simp) (by simp),
    own := fun _ _ => trafficTouch_on (by simp) (by simp), reeve := fun _ _ => trafficTouch_on (by simp) (by simp),
    port := trafficTouch_port (by decide) (by decide), crofts := fun _ => trivial, links := fun _ => trivial, seq := trivial }

/-- The traffic of a link that goes down ends. -/
def trafficEnds (l n : Nat) : Prog := .all [failSegments l, dropTransit l, bumpBy pgPort R.port_CTRL_DROP_CNT n]

theorem trafficEnds_keeps (l n : Nat) (s : State) : Keeps trafficTouch s ((trafficEnds l n).run s) := by
  refine Prog.keeps ?_ s
  simp only [trafficEnds, Prog.only_all_cons, Prog.only_all_nil, and_true]
  exact ⟨failSegments_only trafficTouch_ends (fun c o ho => trafficTouch_on (by simp) (by simp) (segOffset_lt ho)) (fun _ => trivial) l,
    dropTransit_only trafficTouch_ends (trafficTouch_port (by decide) (by decide)) l, (bumpBy_allows ..).2 (trafficTouch_port (by decide) (by decide))⟩

/-! ### A link goes down -/

/-- Nothing waits on a link any more. -/
def Link.cleared (k : Link) : Link := { k with tx := [], replay := [], ctrl := [], creplay := [], rx := [], txHead := [], retrainDue := false }

/-- A link's pages show it down. -/
def downShows (l v cause : Nat) : Prog := .all [
  setLinkState l 4,
  setFld pgPort R.port_STATUS_DOWN v,
  setFld (pgLink l) R.link_LAST_DOWN_CAUSE cause,
  bump (pgLink l) R.link_DOWN_CNT]

/-- A link's page faults. -/
def downFaults (l cause : Nat) : Prog := .all [pageFault (pgLink l) cause 0, raiseLine (pgLink l)]

/-- The rest of the device hears of a link that went down. -/
def downHeard (l : Nat) (fails : Bool) : Prog := .all [
  tellWatch 7, raiseAlarm false, bellLinkDown l, Prog.when fails (snapFail 2 0)]

theorem linkDown_run_eq (l cause : Nat) (s : State) : ∃ fails, (linkDown l cause).run s =
    (downHeard l fails).run ((downFaults l cause).run ((downShows l (s.fld pgPort R.port_STATUS_DOWN ||| 2 ^ l) cause).run
      ((modLink l Link.cleared).run ((trafficEnds l ((s.link l).ctrl.length + (s.link l).creplay.length)).run s)))) := by
  refine ⟨s.enabled pgBucket && (s.portLinks (s.fld pgBucket R.bucket_CFG_PARTNER_PORT)).contains l, ?_⟩
  rw [linkDown, Prog.run_get]
  simp -implicitDefEqProofs only [Prog.run_all_cons, Prog.run_all_nil, trafficEnds, downShows, downFaults, downHeard]
  rfl

theorem modLink_run_self (l : Nat) (f : Link → Link) (s : State) : ((modLink l f).run s).link l = f (s.link l) :=
  (Act.apply_link_link_at ..).trans (if_pos rfl)

theorem State.linkUp_eq (s : State) (q : Nat) : s.linkUp q = (s.fld pgPort R.port_STATUS_UP).testBit q := by
  rw [State.linkUp, Nat.testBit_eq_decide_div_mod_eq]
  rfl

theorem State.linkDowned_eq (s : State) (q : Nat) : s.linkDowned q = (s.fld pgPort R.port_STATUS_DOWN).testBit q := by
  rw [State.linkDowned, Nat.testBit_eq_decide_div_mod_eq]
  rfl

/-- A mask of 16 bits that leaves out bit `l`. -/
theorem testBit_mask {l : Nat} (hl : l < 16) (i : Nat) : (0xFFFF - 2 ^ l).testBit i = (decide (i < 16) && decide (l ≠ i)) := by
  have hpow : 2 ^ l < 2 ^ 16 := Nat.pow_lt_pow_right (by decide) hl
  rw [show 0xFFFF - 2 ^ l = 2 ^ 16 - (2 ^ l + 1) by norm_num only; omega, Nat.testBit_two_pow_sub_succ hpow, Nat.testBit_two_pow]
  simp

theorem or_bit_lt {x l : Nat} (hx : x < 2 ^ 16) (hl : l < 16) : x ||| 2 ^ l < 2 ^ 16 := Nat.or_lt_two_pow hx (Nat.pow_lt_pow_right (by decide) hl)

theorem setLinkState_run {l v : Nat} (hl : l < 16) (hv : v < 8) (s : State) :
    let t := (setLinkState l v).run s
    t.linkState l = v ∧ (∀ q, t.linkUp q = if q = l then decide (v = 2) else s.linkUp q) ∧ Keeps { regs := someRegs [(pgLink l, [R.link_LSTATUS_STATE]), (pgPort, [R.port_STATUS_UP])] } s t := by
  have hup : s.fld pgPort R.port_STATUS_UP < 2 ^ 16 := State.fld_lt (by decide) s pgPort
  have hor := Nat.mod_eq_of_lt (or_bit_lt hup hl)
  have hand := Nat.mod_eq_of_lt ((Nat.and_le_left (n := s.fld pgPort R.port_STATUS_UP) (m := 0xFFFF - 2 ^ l)).trans_lt hup)
  norm_num only at hor hand
  refine ⟨?_, ?_, Prog.keeps (setLinkState_only (by simp) (by simp) v) s⟩
  · simp -implicitDefEqProofs [setLinkState, State.linkState, Nat.mod_eq_of_lt hv, hl]
  · intro q
    have hhigh : (s.fld pgPort R.port_STATUS_UP).testBit q = (decide (q < 16) && (s.fld pgPort R.port_STATUS_UP).testBit q) := by
      by_cases hq : q < 16
      · rw [decide_eq_true hq, Bool.true_and]
      · rw [Nat.testBit_lt_two_pow (hup.trans_le (Nat.pow_le_pow_right (by decide) (Nat.not_lt.1 hq))), Bool.and_false]
    rw [State.linkUp_eq, State.linkUp_eq]
    by_cases h2 : v = 2
    · have hfld : ((setLinkState l v).run s).fld pgPort R.port_STATUS_UP = s.fld pgPort R.port_STATUS_UP ||| 2 ^ l := by
        simp -implicitDefEqProofs [setLinkState, h2, hor, hl]
      rw [hfld, Nat.testBit_or, Nat.testBit_two_pow]
      by_cases hq : q = l
      · simp [hq, h2]
      · simp [hq, Ne.symm hq]
    · have hfld : ((setLinkState l v).run s).fld pgPort R.port_STATUS_UP = s.fld pgPort R.port_STATUS_UP &&& (0xFFFF - 2 ^ l) := by
        simp -implicitDefEqProofs [setLinkState, h2, hand, hl]
      rw [hfld, Nat.testBit_and, testBit_mask hl]
      by_cases hq : q = l
      · simp [hq, h2]
      · rw [if_neg hq, hhigh]
        rw [decide_eq_true (Ne.symm hq), Bool.and_true, Bool.and_right_comm, Bool.and_self]

theorem downShows_run {l v cause : Nat} (hl : l < 16) (hv : v < 2 ^ 16) (hc : cause < 8) (s : State) :
    let t := (downShows l v cause).run s
    t.linkState l = 4 ∧ (∀ q, t.linkUp q = if q = l then false else s.linkUp q) ∧ t.fld pgPort R.port_STATUS_DOWN = v ∧ t.fld (pgLink l) R.link_LAST_DOWN_CAUSE = cause ∧
    Counts s t (pgLink l) R.link_DOWN_CNT 1 ∧
    Keeps { regs := someRegs [(pgLink l, [R.link_LSTATUS_STATE, R.link_LAST_DOWN_CAUSE, R.link_DOWN_CNT]), (pgPort, [R.port_STATUS_UP])] } s t := by
  have hv' := Nat.mod_eq_of_lt hv
  have hc' := Nat.mod_eq_of_lt hc
  norm_num only at hv'
  obtain ⟨hstate, hup, hset⟩ := setLinkState_run hl (v := 4) (by decide) s
  have hall : Keeps { regs := someRegs [(pgLink l, [R.link_LSTATUS_STATE, R.link_LAST_DOWN_CAUSE, R.link_DOWN_CNT]), (pgPort, [R.port_STATUS_UP])] } s
      ((downShows l v cause).run s) := Prog.keeps (by simp [downShows, setLinkState_only]) s
  have hrun : (downShows l v cause).run s = (Prog.all [setFld pgPort R.port_STATUS_DOWN v, setFld (pgLink l) R.link_LAST_DOWN_CAUSE cause,
      bump (pgLink l) R.link_DOWN_CNT]).run ((setLinkState l 4).run s) := Prog.run_all_cons ..
  rw [hrun] at hall ⊢
  have hcnt : ((setLinkState l 4).run s).reg (pgLink l) R.link_DOWN_CNT.off = s.reg (pgLink l) R.link_DOWN_CNT.off :=
    hset.reg_eq (not_someRegs_apart (by simp))
  generalize (setLinkState l 4).run s = u at *
  rw [State.linkState] at hstate
  refine ⟨?_, ?_, ?_, ?_, ?_, hall⟩
  · rw [State.linkState, ← hstate]
    simp -implicitDefEqProofs [hl]
  · intro q
    refine Eq.trans ?_ (hup q)
    rw [State.linkUp_eq, State.linkUp_eq]
    simp -implicitDefEqProofs [hl]
  · simp -implicitDefEqProofs [hv', hl]
  · simp -implicitDefEqProofs [hc', hl]
  · rw [Counts, ← hcnt]
    simp -implicitDefEqProofs [hl]

/-! ### The rest of the device hears -/

theorem bellLinkDown_touch (l : Nat) : (bellLinkDown l).Only ({ regs := pgBell.covers, dev := True } : Touch).allows := by
  have hgo (st : Nat) : (bellGo st).Only ({ regs := pgBell.covers, dev := True } : Touch).allows := by
    intro s
    refine iteInduction (motive := Prog.Only _) (fun _ => trivial) fun _ => ?_
    simp [Prog.only_when]
  intro s
  simp only [Prog.only_all_cons, Prog.only_all_nil, Prog.only_when, and_true, modSync_allows, true_and]
  intro _ t
  simp only [Prog.only_all_cons, Prog.only_all_nil, and_true, modSync_allows, true_and]
  split
  · simp
  · exact (Prog.only_when ..).2 fun _ => hgo _

/-- What a snapshot that fails may change: all but the pages of the links and of the port. -/
def failsTouch : Touch :=
  { regs := offKinds [.link, .port], mem := fun _ => True, crofts := fun _ => True, dev := True, seq := True }

theorem failsTouch_reacts : failsTouch.reacts := by
  have hon {p : Page} (hp : p.placed) (hk : p.kind ≠ .link ∧ p.kind ≠ .port) {o : Nat} (ho : o < 0x1000) : onReg failsTouch.regs p o :=
    onReg_offKinds ho hp (by simpa using hk)
  exact { dev := trivial, mem := fun _ => trivial, cist := fun _ _ => hon (by simp) (by simp), gran := fun _ _ => hon (by simp) (by simp),
          reeve := fun _ _ => hon (by simp) (by simp), crofts := fun _ => trivial, seq := trivial }

theorem downHeard_run {l : Nat} (hl : l < 16) (fails : Bool) (hup : s.linkUp l = false) :
    let t := (downHeard l fails).run s
    t.link l = s.link l ∧
    Keeps { regs := offKinds [.link, .port], mem := fun _ => True, crofts := fun _ => True, links := fun _ => True, dev := True, seq := True } s t := by
  have htell : Keeps { dev := True } s ((tellWatch 7).run s) := Prog.keeps (by simp) s
  rw [downHeard, Prog.run_all_cons, Prog.run_all_cons, Prog.run_all_cons, Prog.run_all_cons, Prog.run_all_nil]
  generalize (tellWatch 7).run s = u at *
  have hupu : u.linkUp l = false := by
    rw [State.linkUp, htell.fld_eq id]
    exact hup
  have hflood := flood_floods (.alarm u.self u.stepIndex false) none u l hl
  rw [if_neg (by rw [hupu]; exact fun h => absurd h.1 Bool.false_ne_true)] at hflood
  have hlinks := flood_keeps (.alarm u.self u.stepIndex false) none u
  rw [show (raiseAlarm false).run u = (flood (.alarm u.self u.stepIndex false) none).run u from rfl]
  generalize (flood (.alarm u.self u.stepIndex false) none).run u = w at *
  have hbell := Prog.keeps (bellLinkDown_touch l) w
  generalize (bellLinkDown l).run w = v at *
  have hfail : Keeps failsTouch v ((Prog.when fails (snapFail 2 0)).run v) :=
    Prog.keeps ((Prog.only_when ..).2 fun _ => snapFail_only failsTouch_reacts (fun o ho => onReg_offKinds ho (by simp) (by simp)) _ _) v
  generalize (Prog.when fails (snapFail 2 0)).run v = t at *
  refine ⟨by rw [hfail.links l id, hbell.links l id, hflood, htell.links l id],
    (htell.mono ?_).trans ((hlinks.mono ?_).trans ((hbell.mono ?_).trans (hfail.mono ?_)))⟩
  · constructor <;> simp
  · constructor <;> simp
  · constructor
    case regs => exact fun a ha p hk hp hc => not_covers (p := p) (q := pgBell) (by
        simp only [List.mem_cons, List.not_mem_nil, or_false] at hk
        obtain hk | hk := hk <;> simp [hk]) hp (by simp) (o := a - p.base) (by obtain ⟨h1, h2⟩ := hc; omega) (by
        obtain ⟨h1, h2⟩ := hc
        rwa [Nat.add_sub_cancel' h1])
    all_goals simp
  · constructor <;> simp [failsTouch]

theorem onReg_theRegs_covers {p : Page} {fs : List Fld} (h : ∀ f ∈ fs, f.off < 0x1000) {a : Nat} (ha : theRegs p fs a) : p.covers a := by
  obtain ⟨f, hf, rfl⟩ := ha
  exact (onReg_covers p f.off).2 (h f hf)

theorem faultRegs_lt : ∀ f ∈ faultRegs, f.off < 0x1000 := by simp [faultRegs]

/-- What a link that goes down may change: all but the pages of the other links. -/
def downTouch (l : Nat) : Touch :=
  { regs := fun a => offKinds [.link] a ∨ (pgLink l).covers a, mem := fun _ => True, queues := fun _ => True, crofts := fun _ => True,
    links := fun _ => True, dev := True, seq := True }

theorem linkDown_run {l cause : Nat} (hl : l < 16) (hc : cause < 8) (s : State) :
    let t := (linkDown l cause).run s
    LinkDowns s t l cause ∧ (∀ q, s.linkUp q = false → t.linkUp q = false) ∧ Keeps (downTouch l) s t := by
  obtain ⟨fails, hrun⟩ := linkDown_run_eq l cause s
  rw [hrun]
  have hdown : s.fld pgPort R.port_STATUS_DOWN < 2 ^ 16 := State.fld_lt (by decide) s pgPort
  have htraffic := trafficEnds_keeps l ((s.link l).ctrl.length + (s.link l).creplay.length) s
  generalize (trafficEnds l _).run s = a at *
  have hclear := modLink_run_self l Link.cleared a
  have hclearK : Keeps { links := (· = l) } a ((modLink l Link.cleared).run a) := Prog.keeps (by simp) a
  generalize (modLink l Link.cleared).run a = b at *
  obtain ⟨hstate, hup, hdowned, hcause, hcnt, hshows⟩ := downShows_run hl (or_bit_lt hdown hl) hc b
  generalize (downShows l (s.fld pgPort R.port_STATUS_DOWN ||| 2 ^ l) cause).run b = c at *
  have hfaults := pageFault_faults (pgLink l) (cause := cause) (hc.trans_le (by decide)) 0 c
  have hfaultK : Keeps { regs := theRegs (pgLink l) faultRegs } c ((downFaults l cause).run c) := Prog.keeps (by simp [downFaults, faultRegs]) c
  rw [show (Prog.all [pageFault (pgLink l) cause 0, raiseLine (pgLink l)]).run c = (downFaults l cause).run c from rfl] at hfaults
  generalize (downFaults l cause).run c = d at *
  have hfreg {o : Nat} (ho : o ∉ faultRegs.map Fld.off) : d.reg (pgLink l) o = c.reg (pgLink l) o := hfaultK.reg_eq (not_theRegs_offset ho _)
  have hport {o : Nat} (ho : o < 0x1000) : d.reg pgPort o = c.reg pgPort o := hfaultK.reg_eq (not_theRegs_apart (by simp [faultRegs, ho, hl]))
  have hupd (q : Nat) : d.linkUp q = if q = l then false else s.linkUp q := by
    have hkept : b.fld pgPort R.port_STATUS_UP = s.fld pgPort R.port_STATUS_UP := (hclearK.fld_eq id).trans (htraffic.fld_eq fun h => h.2 rfl)
    rw [State.linkUp, State.fld_eq, hport (by decide), ← State.fld_eq]
    refine (hup q).trans ?_
    rw [State.linkUp, State.linkUp, hkept]
  obtain ⟨hlink, hheard⟩ := downHeard_run hl fails ((hupd l).trans (if_pos rfl))
  generalize (downHeard l fails).run d = t at *
  have hplaced : (pgLink l).placed := by simp [hl]
  have hlreg {o : Nat} (ho : o < 0x1000) : t.reg (pgLink l) o = d.reg (pgLink l) o := hheard.reg_eq (not_offKinds (by simp) hplaced ho)
  have hpreg {o : Nat} (ho : o < 0x1000) : t.reg pgPort o = d.reg pgPort o := hheard.reg_eq (not_offKinds (by simp) (by simp) ho)
  have hbefore {o : Nat} (ho : o < 0x1000) : b.reg (pgLink l) o = s.reg (pgLink l) o :=
    (hclearK.reg_eq id).trans (htraffic.reg_eq fun h => not_offKinds (by simp) hplaced ho h.1)
  have hsame {o : Nat} (ho : o < 0x1000) (h : o ∉ [R.link_LSTATUS_STATE.off, R.link_LAST_DOWN_CAUSE.off, R.link_DOWN_CNT.off]) :
      c.reg (pgLink l) o = s.reg (pgLink l) o := by
    simp only [List.mem_cons, List.not_mem_nil, or_false, not_or] at h
    obtain ⟨h1, h2, h3⟩ := h
    rw [hshows.reg_eq (not_someRegs_apart (by simp [ho, h1, h2, h3, hl])), hbefore ho]
  have hend : t.link l = Link.cleared (a.link l) := by
    rw [hlink, hfaultK.links l id, hshows.links l id, hclear]
  have hupt (q : Nat) : t.linkUp q = if q = l then false else s.linkUp q := by
    rw [State.linkUp, State.fld_eq, hpreg (by decide), ← State.fld_eq]
    exact hupd q
  refine ⟨⟨?_, (hupt l).trans (if_pos rfl), ?_, ?_, ?_, ?_, by rw [hend]; rfl, by rw [hend]; rfl, by rw [hend]; rfl, by rw [hend]; rfl⟩,
    fun q hq => by rw [hupt, hq, ite_self], ?_⟩
  · rw [State.linkState, State.fld_eq, hlreg (by decide), hfreg (by decide), ← State.fld_eq]
    exact hstate
  · rw [State.linkDowned_eq, State.fld_eq, hpreg (by decide), hport (by decide), ← State.fld_eq, hdowned, Nat.testBit_or, Nat.testBit_two_pow_self,
      Bool.or_true]
  · rw [State.fld_eq, hlreg (by decide), hfreg (by decide), ← State.fld_eq]
    exact hcause
  · rw [Counts, hlreg (by decide), hfreg (by decide), hcnt, hbefore (by decide)]
  · obtain ⟨hf, hfc⟩ := hfaults
    refine ⟨?_, fun hn => ?_⟩
    · rw [State.fld_eq, hlreg (by decide), ← State.fld_eq]
      exact hf
    · rw [State.fld_eq, hlreg (by decide), ← State.fld_eq]
      refine hfc fun e => hn ?_
      rw [State.fld_eq, ← hsame (by decide) (by decide), ← State.fld_eq]
      exact e
  · have hrest : Keeps (downTouch l) c t := (hfaultK.mono (by
      constructor
      case regs => exact fun x hx => .inr (onReg_theRegs_covers faultRegs_lt hx)
      all_goals simp)).trans (hheard.mono (by
      constructor
      case regs => exact fun x hx => .inl fun p hk hp => hx p (by simp only [List.mem_singleton] at hk; simp [hk]) hp
      all_goals simp [downTouch]))
    refine ((htraffic.mono ?_).trans ((hclearK.mono ?_).trans (hshows.mono ?_))).trans hrest
    · constructor
      case regs => exact fun x hx => .inl hx.1
      all_goals simp [downTouch, trafficTouch]
    · constructor <;> simp [downTouch]
    · constructor
      case regs =>
        rintro x ⟨y, hy, hr⟩
        simp only [List.mem_cons, List.not_mem_nil, or_false] at hy
        obtain rfl | rfl := hy
        · exact .inr (onReg_theRegs_covers (by simp) hr)
        · obtain ⟨f, hf, rfl⟩ := hr
          exact .inl (onReg_offKinds (p := pgPort) (by revert f; decide) (by simp) (by simp))
      all_goals simp

/-! ### Replays and retrains -/

/-- Flits are replayed from sequence `n`. -/
def replaysFrom (now n : Nat) (k : Link) : Link := { k with next := n, replay := replayFrom k.replay n, replayAt := some now }

/-- Control messages are replayed from sequence `n`. -/
def ctrlReplaysFrom (now n : Nat) (k : Link) : Link := { k with cnext := n, creplay := replayFrom k.creplay n, creplayAt := some now }

/-- A replay of a link is counted. -/
theorem replay_run (l : Nat) (f : Link → Link) (s : State) :
    let t := (Prog.all [modLink l f, bump (pgLink l) R.link_TIMEOUT_REPLAY_CNT, tellReplay]).run s
    t.link l = f (s.link l) ∧ Counts s t (pgLink l) R.link_TIMEOUT_REPLAY_CNT 1 ∧
    Keeps { regs := theRegs (pgLink l) [R.link_TIMEOUT_REPLAY_CNT], links := (· = l), dev := True } s t := by
  have hall : Keeps { regs := theRegs (pgLink l) [R.link_TIMEOUT_REPLAY_CNT], links := (· = l), dev := True } s
      ((Prog.all [modLink l f, bump (pgLink l) R.link_TIMEOUT_REPLAY_CNT, tellReplay]).run s) := Prog.keeps (by simp [tellReplay]) s
  have hself := modLink_run_self l f s
  have hlink : Keeps { links := (· = l) } s ((modLink l f).run s) := Prog.keeps (by simp) s
  rw [Prog.run_all_cons] at *
  generalize (modLink l f).run s = u at *
  have hone : bump (pgLink l) R.link_TIMEOUT_REPLAY_CNT = bumpBy (pgLink l) R.link_TIMEOUT_REPLAY_CNT 1 := rfl
  obtain ⟨hcnt, hbump⟩ := bumpBy_run (pgLink l) R.link_TIMEOUT_REPLAY_CNT 1 u
  rw [Prog.run_all_cons, Prog.run_all_cons, Prog.run_all_nil, hone] at hall ⊢
  generalize (bumpBy (pgLink l) R.link_TIMEOUT_REPLAY_CNT 1).run u = w at *
  have htell : Keeps { dev := True } w (tellReplay.run w) := Prog.keeps (by simp [tellReplay]) w
  refine ⟨by rw [htell.links l id, hbump.links l id, hself], ?_, hall⟩
  rw [Counts, htell.reg_eq id, ← hlink.reg_eq (p := pgLink l) (o := R.link_TIMEOUT_REPLAY_CNT.off) id]
  exact hcnt

theorem exec_replayTimeout {l : LinkId} {ctrl : Bool} (h : s.linkState l.val ≠ 2) : exec (.replayTimeout l ctrl) s = .next s := by
  show execReplayTimeout l ctrl s = _
  rw [execReplayTimeout, Prog.next_eq, Prog.run_get, if_pos h]
  rfl

theorem exec_replayTimeout_flits {l : LinkId} (h : s.linkState l.val = 2) :
    ((s.link l.val).replay = [] → exec (.replayTimeout l false) s = .next s) ∧
    (∀ e es, (s.link l.val).replay = e :: es → exec (.replayTimeout l false) s = .next ((replayFlits l.val e.seq R.link_TIMEOUT_REPLAY_CNT).run s)) := by
  have hexec : exec (.replayTimeout l false) s = _ := show execReplayTimeout l false s = _ by
    rw [execReplayTimeout, Prog.next_eq, Prog.run_get, if_neg (not_not.2 h), if_neg Bool.false_ne_true]
  rw [hexec]
  refine ⟨fun hn => ?_, fun e es he => ?_⟩
  · rw [hn]
    rfl
  · rw [he]

theorem exec_replayTimeout_ctrl {l : LinkId} (h : s.linkState l.val = 2) :
    ((s.link l.val).creplay = [] → exec (.replayTimeout l true) s = .next s) ∧
    (∀ e es, (s.link l.val).creplay = e :: es → exec (.replayTimeout l true) s = .next ((replayCtrl l.val e.seq R.link_TIMEOUT_REPLAY_CNT).run s)) := by
  have hexec : exec (.replayTimeout l true) s = _ := show execReplayTimeout l true s = _ by
    rw [execReplayTimeout, Prog.next_eq, Prog.run_get, if_neg (not_not.2 h), if_pos rfl]
  rw [hexec]
  refine ⟨fun hn => ?_, fun e es he => ?_⟩
  · rw [hn]
    rfl
  · rw [he]

theorem replayFlits_run (l n : Nat) (c : Fld) :
    ((s.link l).replayAt = some s.now → (replayFlits l n c).run s = s) ∧
    ((s.link l).replayAt ≠ some s.now → worn (s.link l).replay n = true →
      (replayFlits l n c).run s = (modLink l (fun k => { k with retrainDue := true })).run s) ∧
    ((s.link l).replayAt ≠ some s.now → worn (s.link l).replay n = false →
      (replayFlits l n c).run s = (Prog.all [modLink l (replaysFrom s.now n), bump (pgLink l) c, tellReplay]).run s) := by
  rw [replayFlits, Prog.run_get]
  refine ⟨fun h => ?_, fun h hw => ?_, fun h hw => ?_⟩
  · rw [if_pos h]
    rfl
  · rw [if_neg h, if_pos hw]
  · rw [if_neg h, if_neg (by rw [hw]; exact Bool.false_ne_true)]
    rfl

theorem replayCtrl_run (l n : Nat) (c : Fld) :
    ((s.link l).creplayAt = some s.now → (replayCtrl l n c).run s = s) ∧
    ((s.link l).creplayAt ≠ some s.now → worn (s.link l).creplay n = true →
      (replayCtrl l n c).run s = (modLink l (fun k => { k with retrainDue := true })).run s) ∧
    ((s.link l).creplayAt ≠ some s.now → worn (s.link l).creplay n = false →
      (replayCtrl l n c).run s = (Prog.all [modLink l (ctrlReplaysFrom s.now n), bump (pgLink l) c, tellReplay]).run s) := by
  rw [replayCtrl, Prog.run_get]
  refine ⟨fun h => ?_, fun h hw => ?_, fun h hw => ?_⟩
  · rw [if_pos h]
    rfl
  · rw [if_neg h, if_pos hw]
  · rw [if_neg h, if_neg (by rw [hw]; exact Bool.false_ne_true)]
    rfl

/-- A link is marked for its retrain. -/
def retrainMarks (down : Bool) (k : Link) : Link := { k with retrainDue := false, wasDown := down }

theorem startRetrain_run {l : Nat} (hl : l < 16) (s : State) : Retrains s ((startRetrain l).run s) l := by
  have hrun : (startRetrain l).run s = (Prog.all [bump (pgLink l) R.link_RETRAIN_CNT, tellWatch 6]).run
      ((setLinkState l 3).run ((modLink l (retrainMarks (decide (s.linkState l = 4)))).run s)) := by
    simp -implicitDefEqProofs only [startRetrain, Prog.run_get, Prog.run_all_cons, Prog.run_all_nil]
    rfl
  rw [hrun]
  have hself := modLink_run_self l (retrainMarks (decide (s.linkState l = 4))) s
  have hlink : Keeps { links := (· = l) } s ((modLink l (retrainMarks (decide (s.linkState l = 4)))).run s) := Prog.keeps (by simp) s
  generalize (modLink l _).run s = u at *
  obtain ⟨hstate, hup, hset⟩ := setLinkState_run hl (v := 3) (by decide) u
  generalize (setLinkState l 3).run u = w at *
  rw [Prog.run_all_cons, Prog.run_all_cons, Prog.run_all_nil]
  have hone : bump (pgLink l) R.link_RETRAIN_CNT = bumpBy (pgLink l) R.link_RETRAIN_CNT 1 := rfl
  obtain ⟨hcnt, hbump⟩ := bumpBy_run (pgLink l) R.link_RETRAIN_CNT 1 w
  rw [hone]
  generalize (bumpBy (pgLink l) R.link_RETRAIN_CNT 1).run w = v at *
  have htell : Keeps { dev := True } v ((tellWatch 6).run v) := Prog.keeps (by simp) v
  have hbefore : w.reg (pgLink l) R.link_RETRAIN_CNT.off = s.reg (pgLink l) R.link_RETRAIN_CNT.off :=
    (hset.reg_eq (not_someRegs_apart (by simp))).trans (hlink.reg_eq id)
  refine ⟨?_, ?_, ?_, ?_, ?_⟩
  · rw [State.linkState, htell.fld_eq id, hbump.fld_eq (not_theRegs_offset (by decide) _)]
    exact hstate
  · rw [State.linkUp, htell.fld_eq id, hbump.fld_eq (not_theRegs_apart (by simp))]
    exact (hup l).trans (if_pos rfl)
  · rw [Counts, htell.reg_eq id, hcnt, hbefore]
  · rw [htell.links l id, hbump.links l id, hset.links l id, hself]
    rfl
  · refine ((hlink.mono ?_).trans (hset.mono ?_)).trans ((hbump.mono ?_).trans (htell.mono ?_))
    · constructor <;> simp
    · constructor
      case regs =>
        rintro x ⟨y, hy, hr⟩
        simp only [List.mem_cons, List.not_mem_nil, or_false] at hy
        obtain rfl | rfl := hy
        · exact ⟨(pgLink l, [R.link_LSTATUS_STATE, R.link_RETRAIN_CNT]), by simp, theRegs_mono (by simp) x hr⟩
        · exact ⟨(pgPort, [R.port_STATUS_UP]), by simp, hr⟩
      all_goals simp
    · constructor
      case regs => exact fun x hr => ⟨(pgLink l, [R.link_LSTATUS_STATE, R.link_RETRAIN_CNT]), by simp, theRegs_mono (by simp) x hr⟩
      all_goals simp
    · constructor <;> simp

/-! ### A link comes up -/

/-- The far end's identity is shown. -/
def farShows (l dev far vidx : Nat) : Prog := .all [
  setFld (pgLink l) R.link_FAR_ID_FAR_DEV dev, setFld (pgLink l) R.link_FAR_ID_FAR_LINK far,
  setFld (pgLink l) R.link_FAR_ID_FAR_VIDX vidx, setFld (pgLink l) R.link_FAR_ID_VALID 1]

/-- The link is shown up. -/
def upShows (l : Nat) (reversed : Bool) (polarity : Nat) : Prog := .all [
  setBit (pgLink l) R.link_LSTATUS_REVERSED reversed, setFld (pgLink l) R.link_LSTATUS_POLARITY polarity, setLinkState l 2]

/-- The link is up, and its page names the far end. -/
def IsUp (t : State) (l dev far vidx : Nat) (rev : Bool) (pol : Nat) : Prop :=
  t.linkState l = 2 ∧ t.linkUp l = true ∧ t.fld (pgLink l) R.link_FAR_ID_FAR_DEV = dev ∧ t.fld (pgLink l) R.link_FAR_ID_FAR_LINK = far ∧
  t.fld (pgLink l) R.link_FAR_ID_FAR_VIDX = vidx ∧ t.bit (pgLink l) R.link_FAR_ID_VALID = true ∧
  t.bit (pgLink l) R.link_LSTATUS_REVERSED = rev ∧ t.fld (pgLink l) R.link_LSTATUS_POLARITY = pol

theorem isUp_congr {t u : State} {l dev far vidx : Nat} {rev : Bool} {pol : Nat} (h : IsUp t l dev far vidx rev pol)
    (hup : u.linkUp l = t.linkUp l) (hreg : ∀ o ∈ [R.link_FAR_ID_FAR_DEV.off, R.link_LSTATUS_STATE.off], u.reg (pgLink l) o = t.reg (pgLink l) o) :
    IsUp u l dev far vidx rev pol := by
  have hfar := hreg R.link_FAR_ID_FAR_DEV.off (by simp)
  have hstat := hreg R.link_LSTATUS_STATE.off (by simp)
  obtain ⟨h1, h2, h3, h4, h5, h6, h7, h8⟩ := h
  refine ⟨(congrArg R.link_LSTATUS_STATE.of hstat).trans h1, hup.trans h2, (congrArg R.link_FAR_ID_FAR_DEV.of hfar).trans h3,
    (congrArg R.link_FAR_ID_FAR_LINK.of hfar).trans h4, (congrArg R.link_FAR_ID_FAR_VIDX.of hfar).trans h5,
    (congrArg (fun w => R.link_FAR_ID_VALID.of w != 0) hfar).trans h6, (congrArg (fun w => R.link_LSTATUS_REVERSED.of w != 0) hstat).trans h7,
    (congrArg R.link_LSTATUS_POLARITY.of hstat).trans h8⟩

/-- The registers that a link that comes up writes. -/
def upRegs (l : Nat) : List (Page × List Fld) := [
  (pgLink l, [R.link_FAR_ID_FAR_DEV, R.link_LSTATUS_STATE]), (pgPort, [R.port_STATUS_UP])]

theorem comesUp_run {l dev far vidx pol : Nat} (hl : l < 16) (hd : dev < 2 ^ 14) (hf : far < 16) (hv : vidx < 16) (rev : Bool) (hp : pol < 2 ^ 12)
    (s : State) :
    let t := (upShows l rev pol).run ((farShows l dev far vidx).run s)
    IsUp t l dev far vidx rev pol ∧ Keeps { regs := someRegs (upRegs l) } s t := by
  have hd' := Nat.mod_eq_of_lt hd
  have hf' := Nat.mod_eq_of_lt hf
  have hv' := Nat.mod_eq_of_lt hv
  have hp' := Nat.mod_eq_of_lt hp
  norm_num only at hd' hp'
  have hkeep : Keeps { regs := someRegs (upRegs l) } s ((upShows l rev pol).run ((farShows l dev far vidx).run s)) :=
    (Prog.keeps (by simp [farShows, upRegs]) s).trans (Prog.keeps (by simp [upShows, upRegs, setLinkState_only]) _)
  have hup : ((upShows l rev pol).run ((farShows l dev far vidx).run s)).linkUp l = true := by
    rw [upShows, Prog.run_all_cons, Prog.run_all_cons, Prog.run_all_cons, Prog.run_all_nil]
    obtain ⟨-, h, -⟩ := setLinkState_run hl (v := 2) (by decide)
      ((setFld (pgLink l) R.link_LSTATUS_POLARITY pol).run ((setBit (pgLink l) R.link_LSTATUS_REVERSED rev).run ((farShows l dev far vidx).run s)))
    exact (h l).trans (if_pos rfl)
  refine ⟨⟨?_, hup, ?_, ?_, ?_, ?_, ?_, ?_⟩, hkeep⟩
  all_goals simp -implicitDefEqProofs [farShows, upShows, setLinkState, State.linkState, State.bit, hl, hd', hf', hv', hp']

/-- A link that was down is no longer shown down. -/
def upClears (l down : Nat) (was enable : Bool) : Prog := Prog.when was (.all [
  setFld pgPort R.port_STATUS_DOWN down, Prog.when enable (setFld (pgLink l) R.STATE_STATE stEnabled)])

/-- Both ends replay from what they have accepted. -/
def upReplays (ack cack : Nat) (k : Link) : Link := { k with
  wasDown := false
  replay := (k.replay.filter (fun e => !covers 32 ack e.seq)).map (fun e => { e with count := 0 })
  creplay := (k.creplay.filter (fun e => !covers 8 cack e.seq)).map (fun e => { e with count := 0 })
  next := unwrap 32 k.high ack, cnext := unwrap 8 k.chigh cack
  chigh := if k.creplay.all (fun e => covers 8 cack e.seq) then unwrap 8 k.chigh cack else k.chigh
  nak := false, lastNak := none, cnak := false, clastNak := none }

theorem replayed_zero {α : Type} {es : List (Sent α)} {n a : Nat} {e : Sent α}
    (h : e ∈ (es.filter (fun e => !covers n a e.seq)).map (fun e => { e with count := 0 })) : e.count = 0 ∧ covers n a e.seq = false := by
  obtain ⟨x, hx, rfl⟩ := List.mem_map.1 h
  exact ⟨rfl, by simpa using (List.mem_filter.1 hx).2⟩

theorem replayed_nil {α : Type} {es : List (Sent α)} {n a : Nat}
    (h : (es.filter (fun e => !covers n a e.seq)).map (fun e => { e with count := 0 }) = []) : es.all (fun e => covers n a e.seq) = true := by
  rw [List.map_eq_nil_iff, List.filter_eq_nil_iff] at h
  exact List.all_eq_true.2 fun e he => by simpa using h e he

/-- The far end is the one a retraining link knows. -/
def State.sameFar (s : State) (l dev far vidx : Nat) : Prop :=
  s.fld (pgLink l) R.link_FAR_ID_FAR_DEV = dev ∧ s.fld (pgLink l) R.link_FAR_ID_FAR_LINK = far ∧ s.fld (pgLink l) R.link_FAR_ID_FAR_VIDX = vidx

theorem exec_linkUp {l : LinkId} {dev : BitVec 14} {far : LinkId} {vidx : BitVec 4} {rev : Bool} {pol : BitVec 12} {ack : BitVec 32} {cack : BitVec 8} :
    (s.linkState l.val = 1 → exec (.linkUp l dev far vidx rev pol ack cack) s = .next ((setReg (pgLink l.val) R.REFUSAL_REASON.off 0).run
      ((setFld (pgLink l.val) R.STATE_STATE stEnabled).run ((upShows l.val rev pol.toNat).run ((farShows l.val dev.toNat far.val vidx.toNat).run s))))) ∧
    (s.linkState l.val = 3 → s.bit (pgLink l.val) R.link_FAR_ID_VALID = true → ¬ s.sameFar l.val dev.toNat far.val vidx.toNat →
      exec (.linkUp l dev far vidx rev pol ack cack) s = .next ((linkDown l.val 2).run s)) ∧
    (s.linkState l.val = 3 → s.bit (pgLink l.val) R.link_FAR_ID_VALID = false ∨ s.sameFar l.val dev.toNat far.val vidx.toNat →
      exec (.linkUp l dev far vidx rev pol ack cack) s = .next ((modLink l.val (upReplays ack.toNat cack.toNat)).run
        ((upClears l.val (s.fld pgPort R.port_STATUS_DOWN &&& (0xFFFF - 2 ^ l.val)) (s.link l.val).wasDown (s.bit (pgLink l.val) R.CTL_ENABLE)).run
          ((upShows l.val rev pol.toNat).run ((farShows l.val dev.toNat far.val vidx.toNat).run s))))) ∧
    (s.linkState l.val ≠ 1 → s.linkState l.val ≠ 3 → exec (.linkUp l dev far vidx rev pol ack cack) s = .next s) := by
  have hsame : (s.fld (pgLink l.val) R.link_FAR_ID_FAR_DEV == dev.toNat && s.fld (pgLink l.val) R.link_FAR_ID_FAR_LINK == far.val &&
      s.fld (pgLink l.val) R.link_FAR_ID_FAR_VIDX == vidx.toNat) = true ↔ s.sameFar l.val dev.toNat far.val vidx.toNat := by
    simp only [State.sameFar, Bool.and_eq_true, beq_iff_eq, and_assoc]
  have hexec : exec (.linkUp l dev far vidx rev pol ack cack) s = execLinkUp l dev far vidx rev pol ack cack s := rfl
  rw [hexec, execLinkUp, Prog.next_eq, Prog.run_get]
  refine ⟨fun h => ?_, fun h hv hs => ?_, fun h hv => ?_, fun h1 h3 => ?_⟩
  · rw [h]
    simp -implicitDefEqProofs only [Prog.run_all_cons, Prog.run_all_nil, farShows, upShows]
  · rw [h]
    dsimp only
    rw [if_pos (by rw [hv, Bool.true_and, Bool.not_eq_true', ← Bool.not_eq_true]; exact fun e => hs (hsame.1 e))]
    rfl
  · rw [h]
    dsimp only
    rw [if_neg (by
      rw [Bool.and_eq_true, Bool.not_eq_true']
      rintro ⟨h1, h2⟩
      obtain hv | hv := hv
      · rw [hv] at h1
        exact Bool.false_ne_true h1
      · rw [hsame.2 hv] at h2
        exact Bool.false_ne_true h2.symm)]
    simp -implicitDefEqProofs only [Prog.run_all_cons, Prog.run_all_nil, farShows, upShows, upClears]
    rfl
  · split
    next h => exact absurd h h1
    next h => exact absurd h h3
    next => rfl

theorem linkUp_trained {l : LinkId} {dev : BitVec 14} {far : LinkId} {vidx : BitVec 4} {rev : Bool} {pol : BitVec 12} (s : State) :
    let t := (setReg (pgLink l.val) R.REFUSAL_REASON.off 0).run ((setFld (pgLink l.val) R.STATE_STATE stEnabled).run
      ((upShows l.val rev pol.toNat).run ((farShows l.val dev.toNat far.val vidx.toNat).run s)))
    IsUp t l.val dev.toNat far.val vidx.toNat rev pol.toNat ∧ t.fld (pgLink l.val) R.STATE_STATE = stEnabled ∧ t.link l.val = s.link l.val := by
  obtain ⟨hup, hkeep⟩ := comesUp_run l.isLt dev.isLt far.isLt vidx.isLt rev pol.isLt s
  generalize (upShows l.val rev pol.toNat).run ((farShows l.val dev.toNat far.val vidx.toNat).run s) = u at *
  have hset : ((setReg (pgLink l.val) R.REFUSAL_REASON.off 0).run ((setFld (pgLink l.val) R.STATE_STATE stEnabled).run u)).fld (pgLink l.val)
      R.STATE_STATE = stEnabled := by
    simp -implicitDefEqProofs [stEnabled]
  have htail : Keeps { regs := theRegs (pgLink l.val) [R.STATE_STATE, R.REFUSAL_REASON] } u
      ((setReg (pgLink l.val) R.REFUSAL_REASON.off 0).run ((setFld (pgLink l.val) R.STATE_STATE stEnabled).run u)) :=
    (Prog.keeps (by simp) u).trans (Prog.keeps (by simp) _)
  refine ⟨isUp_congr hup ?_ fun o ho => htail.reg_eq (not_theRegs_offset (by revert o; decide) _), hset, (htail.links _ id).trans (hkeep.links _ id)⟩
  rw [State.linkUp, State.linkUp, htail.fld_eq (not_theRegs_apart (by simp [l.isLt]))]

theorem linkUp_retrained {l : LinkId} {dev : BitVec 14} {far : LinkId} {vidx : BitVec 4} {rev : Bool} {pol : BitVec 12} (ack cack : Nat) (s : State) :
    let t := (modLink l.val (upReplays ack cack)).run
        ((upClears l.val (s.fld pgPort R.port_STATUS_DOWN &&& (0xFFFF - 2 ^ l.val)) (s.link l.val).wasDown (s.bit (pgLink l.val) R.CTL_ENABLE)).run
          ((upShows l.val rev pol.toNat).run ((farShows l.val dev.toNat far.val vidx.toNat).run s)))
    IsUp t l.val dev.toNat far.val vidx.toNat rev pol.toNat ∧ t.link l.val = upReplays ack cack (s.link l.val) ∧
    ((s.link l.val).wasDown = true → t.linkDowned l.val = false ∧
      (s.bit (pgLink l.val) R.CTL_ENABLE = true → t.fld (pgLink l.val) R.STATE_STATE = stEnabled)) := by
  obtain ⟨hup, hkeep⟩ := comesUp_run l.isLt dev.isLt far.isLt vidx.isLt rev pol.isLt s
  generalize (upShows l.val rev pol.toNat).run ((farShows l.val dev.toNat far.val vidx.toNat).run s) = u at *
  have hdown : s.fld pgPort R.port_STATUS_DOWN &&& (0xFFFF - 2 ^ l.val) < 2 ^ 16 :=
    Nat.and_le_left.trans_lt (State.fld_lt (by decide) s pgPort)
  have hmask : (s.fld pgPort R.port_STATUS_DOWN &&& (0xFFFF - 2 ^ l.val)).testBit l.val = false := by
    rw [Nat.testBit_and, testBit_mask l.isLt, decide_eq_false (not_not.2 rfl), Bool.and_false, Bool.and_false]
  generalize s.fld pgPort R.port_STATUS_DOWN &&& (0xFFFF - 2 ^ l.val) = v at *
  have hv := Nat.mod_eq_of_lt hdown
  norm_num only at hv
  generalize (s.link l.val).wasDown = was at *
  generalize s.bit (pgLink l.val) R.CTL_ENABLE = enable at *
  have hclears : let w := (upClears l.val v was enable).run u
      w.linkUp l.val = u.linkUp l.val ∧ (was = true → w.fld pgPort R.port_STATUS_DOWN = v ∧
        (enable = true → w.fld (pgLink l.val) R.STATE_STATE = stEnabled)) := by
    dsimp only
    rw [State.linkUp_eq, State.linkUp_eq, upClears, Prog.run_when]
    cases was
    · exact ⟨rfl, fun h => absurd h Bool.false_ne_true⟩
    · rw [if_pos rfl, Prog.run_all_cons, Prog.run_all_cons, Prog.run_all_nil, Prog.run_when]
      cases enable
      · simp -implicitDefEqProofs [hv, l.isLt]
      · simp -implicitDefEqProofs [hv, l.isLt, stEnabled]
  have hclearK : Keeps { regs := someRegs [(pgLink l.val, [R.STATE_STATE]), (pgPort, [R.port_STATUS_DOWN])] } u ((upClears l.val v was enable).run u) :=
    Prog.keeps (by simp [upClears, Prog.only_when]) u
  generalize (upClears l.val v was enable).run u = w at *
  have hself := modLink_run_self l.val (upReplays ack cack) w
  have hmod : Keeps { links := (· = l.val) } w ((modLink l.val (upReplays ack cack)).run w) := Prog.keeps (by simp) w
  generalize (modLink l.val (upReplays ack cack)).run w = t at *
  obtain ⟨hsame, hwas⟩ := hclears
  refine ⟨isUp_congr hup ?_ fun o ho => (hmod.reg_eq id).trans (hclearK.reg_eq (not_someRegs_apart ?_)), by rw [hself, hclearK.links _ id, hkeep.links _ id],
    fun h => ⟨?_, fun he => ?_⟩⟩
  · rw [State.linkUp, hmod.fld_eq id]
    exact hsame
  · revert o
    simp [l.isLt]
  · rw [State.linkDowned_eq, hmod.fld_eq id, (hwas h).1]
    exact hmask
  · rw [hmod.fld_eq id]
    exact (hwas h).2 he

/-! ### A reference clock is lost -/

/-- A link of a gatehouse whose clock is lost goes down where it was up or on its way. -/
def clockDowns (l : Nat) : Prog := Prog.whenever (fun s => s.linkState l != 0 && s.linkState l != 4) (linkDown l 5)

/-- The links of gatehouse `g`. -/
def gateLinks (g : Nat) : List Nat := (List.range 8).map (8 * g + ·)

theorem gateLinks_nodup (g : Nat) : (gateLinks g).Nodup := List.nodup_range.map fun _ _ h => Nat.add_left_cancel h

theorem mem_gateLinks {g l : Nat} : l ∈ gateLinks g ↔ l / 8 = g := by
  simp only [gateLinks, List.mem_map, List.mem_range]
  exact ⟨fun ⟨i, hi, e⟩ => by omega, fun h => ⟨l % 8, Nat.mod_lt _ (by decide), by omega⟩⟩

/-- What the loss of another link's clock leaves of link `l`. -/
def LinkStays (l : Nat) (s t : State) : Prop :=
  (∀ o < 0x1000, t.reg (pgLink l) o = s.reg (pgLink l) o) ∧ (s.linkUp l = false → t.linkUp l = false)

theorem linkStays_refl (l : Nat) (s : State) : LinkStays l s s := ⟨fun _ _ => rfl, id⟩

theorem linkStays_trans (l : Nat) (a b c : State) (h : LinkStays l a b) (h' : LinkStays l b c) : LinkStays l a c :=
  ⟨fun o ho => (h'.1 o ho).trans (h.1 o ho), fun hup => h'.2 (h.2 hup)⟩

theorem LinkStays.fld {l : Nat} {t : State} (h : LinkStays l s t) {f : Fld} (hf : f.off < 0x1000) : t.fld (pgLink l) f = s.fld (pgLink l) f :=
  congrArg f.of (h.1 f.off hf)

theorem clockDowns_stays {l y : Nat} (hl : l < 16) (hy : y < 16) (hne : l ≠ y) (s : State) : LinkStays l s ((clockDowns y).run s) := by
  rw [clockDowns, Prog.whenever, Prog.run_get, Prog.run_when]
  split
  · obtain ⟨-, hup, hkeep⟩ := linkDown_run hy (cause := 5) (by decide) s
    refine ⟨fun o ho => hkeep.reg_eq ?_, hup l⟩
    rintro (h | ⟨hlo, hhi⟩)
    · exact not_offKinds (by simp) (by simp [hl]) ho h
    · exact apart_ne (p := pgLink l) (q := pgLink y) (o := o) (o' := (pgLink l).base + o - (pgLink y).base)
        ⟨ho, by omega, .inr ⟨.inr (by simpa using hne), by simp [hl], by simp [hy]⟩⟩ (by omega)
  · exact linkStays_refl l s

/-- What follows the links of a gatehouse whose clock is lost. -/
def clockHeard (b : Bool) : Prog := Prog.when b (bellGo bHoldover)

theorem exec_qrefLoss {g : Fin 2} : exec (.qrefLoss g) s = .next ((clockHeard (g.val == 0 && s.bellState != bFree)).run
    ((Prog.each (gateLinks g.val) clockDowns).run s)) := by
  show execQrefLoss g s = _
  rw [execQrefLoss, Prog.next_eq, Prog.run_get, Prog.run_all_cons, Prog.run_all_cons, Prog.run_all_nil]
  rfl

theorem clockHeard_stays (b : Bool) {l : Nat} (hl : l < 16) (s : State) : LinkStays l s ((clockHeard b).run s) := by
  rw [clockHeard, Prog.run_when]
  split
  · have hkeep := bellGo_keeps bHoldover s
    refine ⟨fun o ho => hkeep.reg_eq (not_theRegs_apart (by simp [ho, hl])), fun hup => ?_⟩
    rw [State.linkUp, hkeep.fld_eq (not_theRegs_apart (by simp))]
    exact hup
  · exact linkStays_refl l s

theorem gateLinks_lt {g : Fin 2} {l : Nat} (h : l ∈ gateLinks g.val) : l < 16 := by
  have hg := mem_gateLinks.1 h
  omega

theorem qrefLoss_downs {g : Fin 2} {l : LinkId} (hg : l.val / 8 = g.val) (h0 : s.linkState l.val ≠ 0) (h4 : s.linkState l.val ≠ 4) :
    Leaves (exec (.qrefLoss g) s) fun t => t.linkState l.val = 4 ∧ t.linkUp l.val = false ∧
      t.fld (pgLink l.val) R.link_LAST_DOWN_CAUSE = 5 ∧ Counts s t (pgLink l.val) R.link_DOWN_CNT 1 := by
  obtain ⟨u, hu, hend⟩ := each_part (V := LinkStays) linkStays_refl linkStays_trans (gateLinks_nodup g.val) (f := clockDowns)
    (fun x hx y hy hne s => clockDowns_stays (gateLinks_lt hx) (gateLinks_lt hy) hne s) s (mem_gateLinks.2 hg)
  rw [exec_qrefLoss]
  refine Leaves.of_next ?_
  have hheard := clockHeard_stays (g.val == 0 && s.bellState != bFree) l.isLt ((Prog.each (gateLinks g.val) clockDowns).run s)
  generalize (clockHeard _).run _ = t at *
  have hstate : u.linkState l.val = s.linkState l.val := hu.fld (by decide)
  have hrun : (clockDowns l.val).run u = (linkDown l.val 5).run u := by
    rw [clockDowns, Prog.whenever, Prog.run_get, Prog.run_when, if_pos (by simp [hstate, h0, h4])]
  obtain ⟨⟨hdown, hup, -, hcause, hcnt, -⟩, -, -⟩ := linkDown_run l.isLt (cause := 5) (by decide) u
  rw [hrun] at hend
  generalize (linkDown l.val 5).run u = w at *
  obtain ⟨hregs, hups⟩ := linkStays_trans _ _ _ _ hend hheard
  refine ⟨(congrArg R.link_LSTATUS_STATE.of (hregs _ (by decide))).trans hdown, hups hup,
    (congrArg R.link_LAST_DOWN_CAUSE.of (hregs R.link_LAST_DOWN_CAUSE.off (by decide))).trans hcause, ?_⟩
  rw [Counts, hregs _ (by decide), hcnt, hu.1 _ (by decide)]

theorem qrefLoss_spares {g : Fin 2} {l : LinkId} (h : l.val / 8 ≠ g.val ∨ s.linkState l.val = 0 ∨ s.linkState l.val = 4) :
    Leaves (exec (.qrefLoss g) s) fun t => t.linkState l.val = s.linkState l.val := by
  rw [exec_qrefLoss]
  refine Leaves.of_next ?_
  refine Eq.trans ((clockHeard_stays _ l.isLt _).fld (by decide)) ?_
  by_cases hg : l.val / 8 = g.val
  · have hs := h.resolve_left (not_not.2 hg)
    obtain ⟨u, hu, hend⟩ := each_part (V := LinkStays) linkStays_refl linkStays_trans (gateLinks_nodup g.val) (f := clockDowns)
      (fun x hx y hy hne s => clockDowns_stays (gateLinks_lt hx) (gateLinks_lt hy) hne s) s (mem_gateLinks.2 hg)
    have hstate : u.linkState l.val = s.linkState l.val := hu.fld (by decide)
    have hrun : (clockDowns l.val).run u = u := by
      rw [clockDowns, Prog.whenever, Prog.run_get, Prog.run_when, if_neg (by
        rw [hstate]
        obtain hs | hs := hs <;> rw [hs] <;> decide)]
    rw [hrun] at hend
    exact (hend.fld (by decide)).trans hstate
  · exact LinkStays.fld (each_aside (V := LinkStays l.val) (linkStays_refl _) (linkStays_trans _)
      (fun y hy s => clockDowns_stays l.isLt (gateLinks_lt hy) (fun e => hg (mem_gateLinks.1 (e ▸ hy))) s) s) (by decide)

theorem exec_retrainTimeout {l : LinkId} :
    (s.linkState l.val = 1 → exec (.retrainTimeout l) s = .next ((linkDown l.val 3).run s)) ∧
    (s.linkState l.val = 3 → exec (.retrainTimeout l) s = .next ((linkDown l.val 1).run s)) ∧
    (s.linkState l.val ≠ 1 → s.linkState l.val ≠ 3 → exec (.retrainTimeout l) s = .next s) := by
  have hexec : exec (.retrainTimeout l) s = execRetrainTimeout l s := rfl
  rw [hexec, execRetrainTimeout, Prog.next_eq, Prog.run_get]
  refine ⟨fun h => by rw [h]; rfl, fun h => by rw [h]; rfl, fun h1 h3 => ?_⟩
  split
  next h => exact absurd h h1
  next h => exact absurd h h3
  next => rfl

/-- The fields of a link that comes back up. -/
theorem upReplays_fields (ack cack : Nat) (k : Link) :
    (upReplays ack cack k).next = unwrap 32 k.high ack ∧ (upReplays ack cack k).cnext = unwrap 8 k.chigh cack ∧
    (upReplays ack cack k).expect = k.expect ∧ (upReplays ack cack k).tx = k.tx ∧ (upReplays ack cack k).wasDown = false ∧
    (∀ e ∈ (upReplays ack cack k).replay, e.count = 0 ∧ covers 32 ack e.seq = false) ∧
    (∀ e ∈ (upReplays ack cack k).creplay, e.count = 0 ∧ covers 8 cack e.seq = false) ∧
    ((upReplays ack cack k).creplay = [] → (upReplays ack cack k).chigh = (upReplays ack cack k).cnext) := by
  refine ⟨by rw [upReplays], by rw [upReplays], by rw [upReplays], by rw [upReplays], by rw [upReplays], fun e he => ?_, fun e he => ?_, fun hn => ?_⟩
  · rw [upReplays] at he
    exact replayed_zero he
  · rw [upReplays] at he
    exact replayed_zero he
  · rw [upReplays] at hn ⊢
    exact if_pos (replayed_nil hn)

/-- Settles O40: replays and retrains, a link that goes down and one that comes up. -/
theorem linksRetrainAndGoDown : Obligations.LinksRetrainAndGoDown := by
  unfold Obligations.LinksRetrainAndGoDown
  intro s l k p
  have hretrain : exec (.retrainStart l) s = .next ((Prog.when ((s.link l.val).retrainDue && s.linkState l.val == 2) (startRetrain l.val)).run s) := by
    show execRetrainStart l s = _
    rw [execRetrainStart, Prog.next_eq, Prog.run_get]
  obtain ⟨htrains, hretrains, hneither⟩ := exec_retrainTimeout (s := s) (l := l)
  refine ⟨⟨fun h => ?_, fun h => ?_⟩, fun e es h2 he hat => ?_, fun e es h2 he hat => ?_, fun hdue h2 => ?_, fun h => ?_, fun h => ?_, fun h => ?_,
    hneither, fun hr => ?_, fun g => ⟨qrefLoss_downs, qrefLoss_spares, fun h0 hf => ?_⟩, fun dev far vidx rev pol ack cack => ?_⟩
  · by_cases h2 : s.linkState l.val = 2
    · obtain ⟨hnil, hcons⟩ := exec_replayTimeout_flits h2
      cases hk : k.replay with
      | nil => exact hnil hk
      | cons e es =>
        rw [hcons e es hk, (replayFlits_run ..).1 ((h.resolve_left (not_not.2 h2)).resolve_left (by rw [hk]; exact List.cons_ne_nil _ _))]
    · exact exec_replayTimeout h2
  · by_cases h2 : s.linkState l.val = 2
    · obtain ⟨hnil, hcons⟩ := exec_replayTimeout_ctrl h2
      cases hk : k.creplay with
      | nil => exact hnil hk
      | cons e es =>
        rw [hcons e es hk, (replayCtrl_run ..).1 ((h.resolve_left (not_not.2 h2)).resolve_left (by rw [hk]; exact List.cons_ne_nil _ _))]
    · exact exec_replayTimeout h2
  · obtain ⟨-, hworn, hgoes⟩ := replayFlits_run (s := s) l.val e.seq R.link_TIMEOUT_REPLAY_CNT
    rw [(exec_replayTimeout_flits h2).2 e es he]
    refine ⟨fun hw => ?_, fun hw => ?_⟩
    · rw [hworn hat hw]
      exact Leaves.of_next ⟨modLink_run_self .., Prog.keeps (by simp) s⟩
    · rw [hgoes hat hw]
      exact Leaves.of_next (replay_run l.val (replaysFrom s.now e.seq) s)
  · obtain ⟨-, hworn, hgoes⟩ := replayCtrl_run (s := s) l.val e.seq R.link_TIMEOUT_REPLAY_CNT
    rw [(exec_replayTimeout_ctrl h2).2 e es he]
    refine ⟨fun hw => ?_, fun hw => ?_⟩
    · rw [hworn hat hw]
      exact Leaves.of_next ⟨modLink_run_self .., Prog.keeps (by simp) s⟩
    · rw [hgoes hat hw]
      exact Leaves.of_next (replay_run l.val (ctrlReplaysFrom s.now e.seq) s)
  · rw [hretrain, Prog.run_when, if_pos (by rw [Bool.and_eq_true, beq_iff_eq]; exact ⟨hdue, h2⟩)]
    exact Leaves.of_next (startRetrain_run l.isLt s)
  · rw [hretrain, Prog.run_when, if_neg (by
      rw [Bool.and_eq_true, beq_iff_eq]
      rintro ⟨h', h2⟩
      exact h.elim (fun hd => Bool.false_ne_true (hd.symm.trans h')) fun hn => hn h2)]
  · rw [htrains h]
    exact Leaves.of_next (linkDown_run l.isLt (by decide) s).1
  · rw [hretrains h]
    exact Leaves.of_next (linkDown_run l.isLt (by decide) s).1
  · have hcmd : exec (.linkRetrain l) s = .next ((linkRetrain l.val).run s) := by
      show execLinkRetrain l s = _
      rw [execLinkRetrain, Prog.next_eq, regWrite_reaches hr]
    have htake : exec (.linkTakeDown l) s = .next ((linkTakeDown l.val).run s) := by
      show execLinkTakeDown l s = _
      rw [execLinkTakeDown, Prog.next_eq, regWrite_reaches hr]
    rw [hcmd, htake, linkRetrain, linkTakeDown, Prog.run_get, Prog.run_get]
    refine ⟨fun h => ?_, fun h2 h4 => ?_, fun h2 => ?_, fun h2 => ?_⟩
    · rw [if_pos (by rw [Bool.or_eq_true, beq_iff_eq, beq_iff_eq]; exact h)]
      exact Leaves.of_next (startRetrain_run l.isLt s)
    · rw [if_neg (by rw [Bool.or_eq_true, beq_iff_eq, beq_iff_eq]; exact not_or.2 ⟨h2, h4⟩)]
      exact Leaves.of_next (ignored_run _ s)
    · rw [if_pos (beq_iff_eq.2 h2)]
      exact Leaves.of_next (linkDown_run l.isLt (by decide) s).1
    · rw [if_neg (fun e => h2 (beq_iff_eq.1 e))]
      exact Leaves.of_next (ignored_run _ s)
  · rw [exec_qrefLoss, clockHeard, Prog.run_when, if_pos (by rw [Bool.and_eq_true, beq_iff_eq, bne_iff_ne]; exact ⟨h0, hf⟩)]
    exact Leaves.of_next (bellGo_run (by decide) _).1
  · intro same up
    obtain ⟨htrain, hother, hback, hstill⟩ := exec_linkUp (s := s) (l := l) (dev := dev) (far := far) (vidx := vidx) (rev := rev) (pol := pol) (ack := ack) (cack := cack)
    refine ⟨fun h => ?_, fun h hv hs => ?_, fun h hv => ?_, hstill⟩
    · rw [htrain h]
      exact Leaves.of_next (linkUp_trained s)
    · rw [hother h hv hs]
      exact Leaves.of_next (linkDown_run l.isLt (by decide) s).1
    · rw [hback h hv]
      obtain ⟨hup, hlink, hwas⟩ := linkUp_retrained (l := l) (dev := dev) (far := far) (vidx := vidx) (rev := rev) (pol := pol) ack.toNat cack.toNat s
      obtain ⟨h1, h2, h3, h4, h5, h6, h7, h8⟩ := upReplays_fields ack.toNat cack.toNat (s.link l.val)
      rw [← hlink] at h1 h2 h3 h4 h5 h6 h7 h8
      exact Leaves.of_next ⟨hup, h1, h2, h3, h4, h5, h6, h7, h8, hwas⟩

end Sys2Proof.Machine
end

open Host
section
/-! O39: frames of the links are sent and received (R346, R350 to R354, R362, R373). -/
namespace Sys2Proof.Machine

variable {s : State}

/-! ### The slots of a frame -/

theorem noteSent_rest (k : Link) (key : Nat) (f : Flit) :
    (k.noteSent key f).1.next = k.next ∧ (k.noteSent key f).1.expect = k.expect := by
  unfold Link.noteSent
  split
  · exact ⟨rfl, rfl⟩
  · exact ⟨rfl, rfl⟩
  · exact ⟨rfl, rfl⟩
  · exact ⟨rfl, rfl⟩
  · split <;> exact ⟨rfl, rfl⟩

/-- A slot takes the next sequence number. -/
theorem fill_next (k : Link) (new : Bool) (going : List Nat) :
    (k.fill new going).link.next = k.next + 1 ∧ (k.fill new going).link.expect = k.expect := by
  unfold Link.fill
  dsimp only
  split
  · split <;> exact ⟨rfl, rfl⟩
  · split
    · exact ⟨rfl, rfl⟩
    · split
      · exact ⟨rfl, rfl⟩
      · exact noteSent_rest ..

/-- During a retrain a slot takes no waiting flit. -/
theorem fill_old (k : Link) (going : List Nat) :
    (k.fill false going).link.tx = k.tx ∧ (k.fill false going).link.replay = k.replay := by
  unfold Link.fill
  dsimp only
  split
  · split <;> exact ⟨rfl, rfl⟩
  · split
    · exact ⟨rfl, rfl⟩
    · rw [if_pos (by simp)]
      exact ⟨rfl, rfl⟩

theorem fillSlots_next (new : Bool) (going : List Nat) (n : Nat) (k : Link) :
    (Link.fillSlots new going n k).2.1.length = n ∧ (Link.fillSlots new going n k).1.next = k.next + n ∧
    (Link.fillSlots new going n k).1.expect = k.expect := by
  induction n generalizing k with
  | zero => exact ⟨rfl, rfl, rfl⟩
  | succ n ih =>
    obtain ⟨hlen, hnext, hexpect⟩ := ih (k.fill new going).link
    obtain ⟨hn, he⟩ := fill_next k new going
    refine ⟨congrArg (· + 1) hlen, ?_, hexpect.trans he⟩
    refine hnext.trans ?_
    rw [hn]
    omega

theorem fillSlots_old (going : List Nat) (n : Nat) (k : Link) :
    (Link.fillSlots false going n k).1.tx = k.tx ∧ (Link.fillSlots false going n k).1.replay = k.replay := by
  induction n generalizing k with
  | zero => exact ⟨rfl, rfl⟩
  | succ n ih =>
    obtain ⟨htx, hreplay⟩ := ih (k.fill false going).link
    obtain ⟨h1, h2⟩ := fill_old k going
    exact ⟨htx.trans h1, hreplay.trans h2⟩

/-- What the control messages of a frame leave of its link. -/
def ctrlRest (k : Link) : Nat × Nat × List (Nat × List Flit) × List (Sent Flit) := (k.next, k.expect, k.tx, k.replay)

theorem nextCtrl_rest {k k' : Link} {m : Ctrl} (h : k.nextCtrl = some (m, k')) : ctrlRest k' = ctrlRest k := by
  obtain ⟨src, -, h⟩ := List.exists_of_findSome?_eq_some h
  obtain ⟨e, -, he⟩ := Option.map_eq_some_iff.1 h
  cases he
  rfl

theorem takeCtrl_rest (new : Bool) (n : Nat) (k : Link) :
    (Link.takeCtrl new n k).2.length ≤ n ∧ ctrlRest (Link.takeCtrl new n k).1 = ctrlRest k := by
  induction n generalizing k with
  | zero => exact ⟨Nat.le_refl _, rfl⟩
  | succ n ih =>
    unfold Link.takeCtrl
    split
    · split
      · obtain ⟨hlen, hrest⟩ := ih { k with cnext := k.cnext + 1 }
        exact ⟨Nat.succ_le_succ hlen, hrest⟩
      · obtain ⟨hlen, hrest⟩ := ih { k with cnext := k.cnext + 1 }
        exact ⟨Nat.le_succ_of_le hlen, hrest⟩
    · split
      · exact ⟨Nat.zero_le _, rfl⟩
      next m k' hk =>
        split
        · exact ⟨Nat.zero_le _, rfl⟩
        · have hk' := nextCtrl_rest hk
          obtain ⟨hlen, hrest⟩ := ih { k' with cnext := k.cnext + 1, chigh := k.chigh + 1, creplay := k.creplay ++ [{ seq := k.cnext, item := m }] }
          exact ⟨Nat.succ_le_succ hlen, hrest.trans hk'⟩

/-! ### A frame is sent -/

/-- The flits, granules and link after the slots of the next frame of link `l`. -/
def State.slots (s : State) (l : Nat) : Link × List Flit × List (Nat × Nat × List Byte) :=
  (s.link l).fillSlots (decide (s.linkState l = 2)) (asyncKeys.filter (fun key => s.shareBusy 16384 l key)) 20

/-- The number of the first control message of a link's next frame. -/
def Link.ctrlFrom (k : Link) : Nat := match k.creplay with | e :: _ => max k.cnext e.seq | [] => k.chigh

/-- The number of the first control message of the next frame of link `l`. -/
def State.ctrlFirst (s : State) (l : Nat) : Nat := (s.slots l).1.ctrlFrom

/-- The control messages of the next frame of link `l`, and the link after them. -/
def State.ctrls (s : State) (l : Nat) : Link × List Ctrl :=
  Link.takeCtrl (decide (s.linkState l = 2)) 3 { (s.slots l).1 with cnext := s.ctrlFirst l }

/-- Whether a NAK of flits, or of control messages, goes out with the next frame of link `l`. -/
def State.sendsNak (s : State) (l : Nat) : Bool := (s.link l).nak && nakAllowed (s.link l).lastNak (s.link l).expect s.now
def State.sendsCnak (s : State) (l : Nat) : Bool := (s.link l).cnak && nakAllowed (s.link l).clastNak (s.link l).cexpect s.now

/-- Flits of link `l` that count towards the next 2^20 after its next frame. -/
def State.flitCount (s : State) (l : Nat) : Nat := (s.slots l).1.txCount + busyFlits (s.slots l).2.1

/-- The next frame of link `l`. -/
def State.nextFrame (s : State) (l : Nat) : Frame := {
  firstSeq := BitVec.ofNat 32 (s.link l).next, ackSeq := BitVec.ofNat 32 (s.link l).expect, cseq := BitVec.ofNat 8 (s.ctrlFirst l),
  cack := BitVec.ofNat 8 (s.link l).cexpect, nak := s.sendsNak l, cnak := s.sendsCnak l, retrain := decide (s.linkState l = 3),
  ctrl := (s.ctrls l).2, flits := (s.slots l).2.1 }

/-- Link `l` after its next frame. -/
def State.linkAfter (s : State) (l : Nat) : Link := { (s.ctrls l).1 with
  nak := (s.link l).nak && !s.sendsNak l, lastNak := if s.sendsNak l then some ((s.link l).expect, s.now) else (s.link l).lastNak
  cnak := (s.link l).cnak && !s.sendsCnak l, clastNak := if s.sendsCnak l then some ((s.link l).cexpect, s.now) else (s.link l).clastNak
  txCount := s.flitCount l % 2 ^ 20 }

/-- A frame's flits are counted and its granules digested. -/
def frameCounts (l n : Nat) (granules : List (Nat × Nat × List Byte)) : Prog := .all [
  bumpBy (pgLink l) R.link_TX_FLIT_CNT (n / 2 ^ 20),
  Prog.each granules (fun x => digestFlit 0 l x.1 x.2.1 x.2.2)]

theorem exec_frameSend {l : LinkId} :
    (s.linkState l.val ≠ 2 → s.linkState l.val ≠ 3 → exec (.frameSend l) s = .next s) ∧
    (s.linkState l.val = 2 ∨ s.linkState l.val = 3 → exec (.frameSend l) s = .next ((emit (.frame l.val (stripe (s.nextFrame l.val).bytes))).run
      ((frameCounts l.val (s.flitCount l.val) (s.slots l.val).2.2).run ((Act.link l.val (s.linkAfter l.val)).apply s)))) := by
  have hexec : exec (.frameSend l) s = execFrameSend l s := rfl
  rw [hexec, execFrameSend, Prog.next_eq, Prog.run_get]
  dsimp only
  refine ⟨fun h2 h3 => ?_, fun h => ?_⟩
  · rw [if_pos ⟨h2, h3⟩]
    rfl
  · have hn : ¬ (s.linkState l.val ≠ 2 ∧ s.linkState l.val ≠ 3) := by omega
    rw [if_neg hn]
    rw [Prog.run_all_cons, Prog.run_all_cons, Prog.run_all_cons, Prog.run_all_cons, Prog.run_all_nil, Prog.run_eff, frameCounts, Prog.run_all_cons,
      Prog.run_all_cons, Prog.run_all_nil, State.nextFrame, State.linkAfter, State.flitCount, State.ctrls, State.ctrlFirst, State.sendsNak, State.sendsCnak]
    rw [show Link.fillSlots (decide (s.linkState l.val = 2)) (asyncKeys.filter (fun key => s.shareBusy 16384 l.val key)) 20 (s.link l.val) =
      s.slots l.val from rfl]
    generalize s.slots l.val = r
    rfl

theorem frameCounts_only (l n : Nat) (granules : List (Nat × Nat × List Byte)) : (frameCounts l n granules).Only
    ({ regs := fun a => theRegs (pgLink l) [R.link_TX_FLIT_CNT] a ∨ theRegs (pgLedger (gateOf l)) [R.ledger_TX_GRAN_CNT] a, dev := True } : Touch).allows := by
  simp only [frameCounts, Prog.only_all_cons, Prog.only_all_nil, and_true]
  refine ⟨by simp, (Prog.only_each ..).2 fun x _ s => ?_⟩
  dsimp only
  split
  · trivial
  · simp [countGranules]

theorem nextFrame_parts (s : State) (l : Nat) :
    (s.nextFrame l).flits.length = 20 ∧ (s.nextFrame l).ctrl.length ≤ 3 ∧ (s.linkAfter l).next = (s.link l).next + 20 ∧
    (s.linkAfter l).expect = (s.link l).expect ∧
    (s.linkState l = 3 → (s.linkAfter l).tx = (s.link l).tx ∧ (s.linkAfter l).replay = (s.link l).replay) := by
  obtain ⟨hlen, hnext, hexpect⟩ := fillSlots_next (decide (s.linkState l = 2)) (asyncKeys.filter (fun key => s.shareBusy 16384 l key)) 20 (s.link l)
  have hold : s.linkState l = 3 → (s.slots l).1.tx = (s.link l).tx ∧ (s.slots l).1.replay = (s.link l).replay := fun h => by
    rw [State.slots, decide_eq_false (by rw [h]; decide)]
    exact fillSlots_old ..
  rw [← State.slots] at hlen hnext hexpect
  obtain ⟨hctrl, hrest⟩ := takeCtrl_rest (decide (s.linkState l = 2)) 3 { (s.slots l).1 with cnext := s.ctrlFirst l }
  rw [← State.ctrls] at hctrl hrest
  simp only [ctrlRest, Prod.mk.injEq] at hrest
  obtain ⟨h1, h2, h3, h4⟩ := hrest
  simp only [State.nextFrame, State.linkAfter, h1, h2, h3, h4]
  exact ⟨hlen, hctrl, hnext, hexpect, hold⟩

theorem frameSend_run {l : LinkId} (h : s.linkState l.val = 2 ∨ s.linkState l.val = 3) : Leaves (exec (.frameSend l) s) fun t =>
    t.out = s.out ++ [.frame l.val (stripe (s.nextFrame l.val).bytes)] ∧ t.link l.val = s.linkAfter l.val ∧
    Keeps { regs := fun a => theRegs (pgLink l.val) [R.link_TX_FLIT_CNT] a ∨ theRegs (pgLedger (gateOf l.val)) [R.ledger_TX_GRAN_CNT] a,
            links := (· = l.val), dev := True, out := True } s t := by
  rw [exec_frameSend.2 h]
  refine Leaves.of_next ?_
  generalize s.nextFrame l.val = f
  generalize s.linkAfter l.val = k
  generalize s.flitCount l.val = n
  generalize (s.slots l.val).2.2 = granules
  have hlink : ((Act.link l.val k).apply s).link l.val = k := (Act.apply_link_link_at ..).trans (if_pos rfl)
  have hfirst : Keeps { links := (· = l.val) } s ((Act.link l.val k).apply s) :=
    Prog.keeps (p := eff (.link l.val k)) ((Prog.only_eff (Act.link l.val k)).2 (by simp [Touch.allows])) s
  generalize (Act.link l.val k).apply s = u at *
  have hcounts := Prog.keeps (frameCounts_only l.val n granules) u
  generalize (frameCounts l.val n granules).run u = w at *
  have hout : ((emit (.frame l.val (stripe f.bytes))).run w).out = w.out ++ [.frame l.val (stripe f.bytes)] := rfl
  have hemit : Keeps { out := True } w ((emit (.frame l.val (stripe f.bytes))).run w) := Prog.keeps (by simp [emit, Touch.allows]) w
  generalize (emit (.frame l.val (stripe f.bytes))).run w = t at *
  refine ⟨by rw [hout, hcounts.out id, hfirst.out id], by rw [hemit.links _ id, hcounts.links _ id, hlink],
    (hfirst.mono ?_).trans ((hcounts.mono ?_).trans (hemit.mono ?_))⟩
  all_goals constructor <;> simp

/-! ### What the decoder reports -/

/-- The bytes corrected on a lane. -/
def laneFixes (fixes : List Nat) (i : Nat) : Nat := (fixes.filter (fun j => j % 12 == i)).length

/-- The lanes with a corrected byte. -/
def fixedLanes (fixes : List Nat) : List Nat := (List.range 12).filter (fun i => fixes.any (fun j => j % 12 == i))

theorem mem_fixedLanes {fixes : List Nat} {i : Nat} (hi : i < 12) : i ∈ fixedLanes fixes ↔ laneFixes fixes i ≠ 0 := by
  simp only [fixedLanes, laneFixes, List.mem_filter, List.mem_range, hi, true_and, List.any_eq_true, ne_eq, List.length_eq_zero_iff,
    List.filter_eq_nil_iff, not_forall, Bool.not_eq_true, Bool.not_eq_false]
  exact ⟨fun ⟨j, hj, h⟩ => ⟨j, hj, by simpa using h⟩, fun ⟨j, hj, h⟩ => ⟨j, hj, by simpa using h⟩⟩

/-- A lane's errors with `n` more, held. -/
def laneAdds (lane n : Nat) (k : Link) : Link := { k with
  laneErr := Sparse.set k.laneErr lane (min ((Sparse.get? k.laneErr lane).getD 0 + n) 0xFFFFFFFF) }

theorem countLane_run (l lane n : Nat) (s : State) : ((countLane l lane n).run s).link l = laneAdds lane n (s.link l) := modLink_run_self ..

/-- The errors of a lane. -/
def State.laneErrs (s : State) (l i : Nat) : Nat := (Sparse.get? (s.link l).laneErr i).getD 0

theorem countLane_errs (l lane n i : Nat) (s : State) : ((countLane l lane n).run s).laneErrs l i =
    if i = lane then min (s.laneErrs l lane + n) 0xFFFFFFFF else s.laneErrs l i := by
  rw [State.laneErrs, countLane_run, laneAdds]
  split
  next h =>
    rw [h, Sparse.get?_set_same]
    rfl
  next h =>
    rw [Sparse.get?_set_ne _ _ h]
    rfl

/-- The corrections of a frame, lane by lane. -/
def countLanes (l : Nat) (fixes : List Nat) : Prog :=
  Prog.each (fixedLanes fixes) (fun i => countLane l i (fixes.filter (fun j => j % 12 == i)).length)

theorem countLanes_run (l : Nat) (fixes : List Nat) (s : State) :
    let t := (countLanes l fixes).run s
    (∀ i < 12, t.laneErrs l i = if laneFixes fixes i = 0 then s.laneErrs l i else min (s.laneErrs l i + laneFixes fixes i) 0xFFFFFFFF) ∧
    t.link l = { s.link l with laneErr := (t.link l).laneErr } ∧ Keeps { links := (· = l) } s t := by
  refine ⟨fun i hi => ?_, ?_, Prog.keeps ((Prog.only_each ..).2 fun i _ => by simp [countLane]) s⟩
  · by_cases hm : i ∈ fixedLanes fixes
    · rw [if_neg ((mem_fixedLanes hi).1 hm)]
      obtain ⟨u, hu, hend⟩ := each_part (V := fun i s t => t.laneErrs l i = s.laneErrs l i) (fun _ _ => rfl) (fun _ _ _ _ h h' => h'.trans h)
        (List.nodup_range.filter _) (f := fun i => countLane l i (fixes.filter (fun j => j % 12 == i)).length)
        (fun x _ y _ hne t => by rw [countLane_errs, if_neg hne]) s hm
      rw [← fixedLanes, ← countLanes] at hend
      rw [hend, countLane_errs, if_pos rfl, hu]
      rfl
    · rw [if_pos (not_not.1 fun h => hm ((mem_fixedLanes hi).2 h))]
      exact each_aside (V := fun s t => t.laneErrs l i = s.laneErrs l i) (fun _ => rfl) (fun _ _ _ h h' => h'.trans h)
        (fun y hy t => by rw [countLane_errs, if_neg (fun (e : i = y) => hm (e ▸ hy))]) s
  · exact each_aside (V := fun s t => t.link l = { s.link l with laneErr := (t.link l).laneErr }) (fun _ => rfl)
      (fun a b c h h' => by rw [h', h]) (fun y _ t => by rw [countLane_run]; rfl) s

/-- The counts of a frame's codewords. -/
def countCodewords (l corr flagged : Nat) : Prog := .all [
  bumpBy (pgLink l) R.link_FEC_CORR_CNT corr,
  Prog.each (List.range corr) (fun _ => tellWatch 4),
  bumpBy (pgLink l) R.link_FEC_UNCORR_CNT flagged]

theorem countFec_run_eq (l : Nat) (fixes : List Nat) (flagged : Nat) (s : State) : (countFec l fixes flagged).run s =
    (countLanes l fixes).run ((countCodewords l ((List.range 24).filter (fun c => fixes.any (fun j => codewordAt j == c))).length flagged).run s) := by
  rw [countFec, countCodewords, Prog.run_all_cons, Prog.run_all_cons, Prog.run_all_cons, Prog.run_all_cons, Prog.run_all_nil, Prog.run_all_cons,
    Prog.run_all_cons, Prog.run_all_cons, Prog.run_all_nil]
  rfl

theorem countCodewords_run (l corr flagged : Nat) (s : State) :
    let t := (countCodewords l corr flagged).run s
    Counts s t (pgLink l) R.link_FEC_CORR_CNT corr ∧ Counts s t (pgLink l) R.link_FEC_UNCORR_CNT flagged ∧
    Keeps { regs := theRegs (pgLink l) [R.link_FEC_CORR_CNT, R.link_FEC_UNCORR_CNT], dev := True } s t := by
  have hall : Keeps { regs := theRegs (pgLink l) [R.link_FEC_CORR_CNT, R.link_FEC_UNCORR_CNT], dev := True } s ((countCodewords l corr flagged).run s) :=
    Prog.keeps (by simp [countCodewords, Prog.only_each]) s
  obtain ⟨hcorr, hfirst⟩ := bumpBy_run (pgLink l) R.link_FEC_CORR_CNT corr s
  rw [countCodewords, Prog.run_all_cons, Prog.run_all_cons, Prog.run_all_cons, Prog.run_all_nil] at hall ⊢
  generalize (bumpBy (pgLink l) R.link_FEC_CORR_CNT corr).run s = u at *
  have htell : Keeps { dev := True } u ((Prog.each (List.range corr) (fun _ => tellWatch 4)).run u) := Prog.keeps ((Prog.only_each ..).2 fun _ _ => by simp) u
  generalize (Prog.each (List.range corr) (fun _ => tellWatch 4)).run u = w at *
  obtain ⟨hbad, hlast⟩ := bumpBy_run (pgLink l) R.link_FEC_UNCORR_CNT flagged w
  generalize (bumpBy (pgLink l) R.link_FEC_UNCORR_CNT flagged).run w = t at *
  refine ⟨?_, ?_, hall⟩
  · rw [Counts, hlast.reg_eq (not_theRegs_offset (by decide) _), htell.reg_eq id]
    exact hcorr
  · rw [Counts, hbad, htell.reg_eq id, hfirst.reg_eq (not_theRegs_offset (by decide) _)]

/-- What a decoder reports is counted, and nothing else changes. -/
theorem countFec_run (l : Nat) (fixes : List Nat) (flagged : Nat) (s : State) :
    let t := (countFec l fixes flagged).run s
    FecCounted s t l fixes flagged ∧ t.link l = { s.link l with laneErr := (t.link l).laneErr } ∧
    Keeps { regs := theRegs (pgLink l) [R.link_FEC_CORR_CNT, R.link_FEC_UNCORR_CNT], links := (· = l), dev := True } s t := by
  rw [countFec_run_eq]
  obtain ⟨hcorr, hbad, hwords⟩ := countCodewords_run l ((List.range 24).filter (fun c => fixes.any (fun j => codewordAt j == c))).length flagged s
  generalize (countCodewords l _ flagged).run s = u at *
  obtain ⟨hlanes, hlink, hkeep⟩ := countLanes_run l fixes u
  generalize (countLanes l fixes).run u = t at *
  have hsame : u.link l = s.link l := hwords.links l id
  refine ⟨⟨?_, ?_, fun i hi => ?_⟩, by rw [← hsame]; exact hlink, (hwords.mono ?_).trans (hkeep.mono ?_)⟩
  · rw [Counts, hkeep.reg_eq id]
    exact hcorr
  · rw [Counts, hkeep.reg_eq id]
    exact hbad
  · have h := hlanes i hi
    rw [State.laneErrs, State.laneErrs, hsame] at h
    exact h
  · constructor <;> simp
  · constructor <;> simp

/-! ### Flits in sequence -/

/-- A flit accepted in sequence. -/
def Link.accepts (k : Link) : Link := { k with expect := k.expect + 1, nak := false }

/-- A flit rejected. -/
def Link.rejects (k : Link) : Link := { k with nak := true }

/-- The slot of sequence `seq` is the next expected on link `l`. -/
def State.inSequence (s : State) (l seq : Nat) : Prop := seq % 2 ^ 32 = (s.link l).expect % 2 ^ 32

theorem takeFlit_idle {l seq : Nat} {f : Flit} (hf : f.body = .idle) :
    (s.inSequence l seq → (takeFlit l seq false f).run s = (modLink l Link.accepts).run s) ∧ (¬ s.inSequence l seq → (takeFlit l seq false f).run s = s) := by
  rw [takeFlit, Prog.run_get]
  dsimp only
  rw [if_neg Bool.false_ne_true, hf]
  dsimp only
  rw [Prog.run_when]
  exact ⟨fun h => if_pos (decide_eq_true (show seq % 2 ^ 32 = _ from h)), fun h => if_neg (by rw [decide_eq_true_eq]; exact h)⟩

/-- The slots of a frame from number `i` on, all in order. -/
def goodSlots (fs : List Flit) (i : Nat) : List ((Flit × Bool) × Nat) :=
  List.zip (List.zip fs (List.replicate fs.length true)) (List.range' i fs.length)

theorem goodSlots_cons (f : Flit) (fs : List Flit) (i : Nat) : goodSlots (f :: fs) i = ((f, true), i) :: goodSlots fs (i + 1) := by
  simp [goodSlots, List.replicate_succ, List.range'_succ]

/-- The flits of the slots are taken. -/
def takeSlots (l first : Nat) (slots : List ((Flit × Bool) × Nat)) : Prog := Prog.each slots (fun m => takeFlit l (first + m.2) (!m.1.2) m.1.1)

theorem takeSlots_cons (l first : Nat) (m : (Flit × Bool) × Nat) (slots : List ((Flit × Bool) × Nat)) (s : State) :
    (takeSlots l first (m :: slots)).run s = (takeSlots l first slots).run ((takeFlit l (first + m.2) (!m.1.2) m.1.1).run s) := Prog.run_each_cons ..

/-- Idle flits in sequence are accepted. -/
theorem idleSlots_accepted {l first i : Nat} {fs : List Flit} (hidle : ∀ f ∈ fs, f.body = .idle) (hseq : s.inSequence l (first + i)) :
    let t := (takeSlots l first (goodSlots fs i)).run s
    t.link l = { s.link l with expect := (s.link l).expect + fs.length, nak := if fs = [] then (s.link l).nak else false } ∧
    Keeps { links := (· = l) } s t := by
  induction fs generalizing s i with
  | nil => exact ⟨rfl, Keeps.refl _ s⟩
  | cons f fs ih =>
    rw [goodSlots_cons, takeSlots_cons, Bool.not_true, (takeFlit_idle (hidle f (List.mem_cons_self ..))).1 hseq]
    have hself := modLink_run_self l Link.accepts s
    have hmod : Keeps { links := (· = l) } s ((modLink l Link.accepts).run s) := Prog.keeps (by simp) s
    generalize (modLink l Link.accepts).run s = u at *
    have hnext : u.inSequence l (first + (i + 1)) := by
      rw [State.inSequence] at hseq ⊢
      rw [hself, Link.accepts]
      dsimp only
      omega
    obtain ⟨hlink, hkeep⟩ := ih (fun g hg => hidle g (List.mem_cons_of_mem _ hg)) hnext
    refine ⟨?_, hmod.trans hkeep⟩
    rw [hlink, hself, if_neg (List.cons_ne_nil f fs), Link.accepts]
    simp only [List.length_cons, Nat.add_assoc, Nat.add_comm 1, ite_self]

/-- Idle flits out of sequence change nothing. -/
theorem idleSlots_rejected {l first i : Nat} {fs : List Flit} (hidle : ∀ f ∈ fs, f.body = .idle) (hseq : s.inSequence l first) (hi : 1 ≤ i)
    (hn : i + fs.length ≤ 2 ^ 32) : (takeSlots l first (goodSlots fs i)).run s = s := by
  induction fs generalizing i with
  | nil => rfl
  | cons f fs ih =>
    rw [List.length_cons] at hn
    have hout : ¬ s.inSequence l (first + i) := by
      rw [State.inSequence] at hseq ⊢
      omega
    rw [goodSlots_cons, takeSlots_cons, Bool.not_true, (takeFlit_idle (hidle f (List.mem_cons_self ..))).2 hout]
    exact ih (fun g hg => hidle g (List.mem_cons_of_mem _ hg)) (by omega) (by omega)

/-- A flit whose CRC fails is counted and rejected. -/
theorem takeFlit_bad (l seq : Nat) (f : Flit) (s : State) :
    let t := (takeFlit l seq true f).run s
    t.link l = (s.link l).rejects ∧ Counts s t (pgLink l) R.link_CRC_FAIL_CNT 1 ∧
    Keeps { regs := theRegs (pgLink l) [R.link_CRC_FAIL_CNT], links := (· = l), dev := True } s t := by
  have hrun : (takeFlit l seq true f).run s = (modLink l Link.rejects).run (tellReplay.run ((bumpBy (pgLink l) R.link_CRC_FAIL_CNT 1).run s)) := by
    rw [takeFlit, Prog.run_get]
    dsimp only
    rw [if_pos rfl, Prog.run_all_cons, Prog.run_all_cons, Prog.run_all_cons, Prog.run_all_nil]
    rfl
  rw [hrun]
  obtain ⟨hcnt, hbump⟩ := bumpBy_run (pgLink l) R.link_CRC_FAIL_CNT 1 s
  generalize (bumpBy (pgLink l) R.link_CRC_FAIL_CNT 1).run s = u at *
  have htell : Keeps { dev := True } u (tellReplay.run u) := Prog.keeps (by simp [tellReplay]) u
  generalize tellReplay.run u = w at *
  have hself := modLink_run_self l Link.rejects w
  have hmod : Keeps { links := (· = l) } w ((modLink l Link.rejects).run w) := Prog.keeps (by simp) w
  generalize (modLink l Link.rejects).run w = t at *
  refine ⟨by rw [hself, htell.links l id, hbump.links l id], ?_, (hbump.mono ?_).trans ((htell.mono ?_).trans (hmod.mono ?_))⟩
  · rw [Counts, hmod.reg_eq id, htell.reg_eq id]
    exact hcnt
  all_goals constructor <;> simp

/-! ### A frame's header -/

/-- A frame whose header fails is rejected whole. -/
def headerFails (l : Nat) : Prog := .all [
  bump (pgLink l) R.link_HCRC_FAIL_CNT, tellReplay, modLink l (fun k => { k with nak := true, cnak := true })]

theorem headerFails_run (l : Nat) (s : State) :
    let t := (headerFails l).run s
    t.link l = { s.link l with nak := true, cnak := true } ∧ Counts s t (pgLink l) R.link_HCRC_FAIL_CNT 1 ∧
    Keeps { regs := theRegs (pgLink l) [R.link_HCRC_FAIL_CNT], links := (· = l), dev := True } s t := by
  have hone : bump (pgLink l) R.link_HCRC_FAIL_CNT = bumpBy (pgLink l) R.link_HCRC_FAIL_CNT 1 := rfl
  obtain ⟨hcnt, hbump⟩ := bumpBy_run (pgLink l) R.link_HCRC_FAIL_CNT 1 s
  rw [headerFails, Prog.run_all_cons, Prog.run_all_cons, Prog.run_all_cons, Prog.run_all_nil, hone]
  generalize (bumpBy (pgLink l) R.link_HCRC_FAIL_CNT 1).run s = u at *
  have htell : Keeps { dev := True } u (tellReplay.run u) := Prog.keeps (by simp [tellReplay]) u
  generalize tellReplay.run u = w at *
  have hself := modLink_run_self l (fun k => { k with nak := true, cnak := true }) w
  have hmod : Keeps { links := (· = l) } w ((modLink l (fun k => { k with nak := true, cnak := true })).run w) := Prog.keeps (by simp) w
  generalize (modLink l _).run w = t at *
  refine ⟨by rw [hself, htell.links l id, hbump.links l id], ?_, (hbump.mono ?_).trans ((htell.mono ?_).trans (hmod.mono ?_))⟩
  · rw [Counts, hmod.reg_eq id, htell.reg_eq id]
    exact hcnt
  all_goals constructor <;> simp

theorem exec_frameReceive {l : LinkId} {a b c d : List (List (BitVec 2))} {fixes : List (Fin 5376 × Byte)} {flagged : List (Fin 24)}
    (h : s.linkState l.val = 2 ∨ s.linkState l.val = 3) :
    exec (.frameReceive l a b c d fixes flagged) s = .next ((if (received (a ++ b ++ c ++ d) fixes).headerOk = true then
      takeFrame l.val (received (a ++ b ++ c ++ d) fixes) else headerFails l.val).run
        ((countFec l.val (fixes.map (fun x => x.1.val)) flagged.length).run s)) := by
  have hexec : exec (.frameReceive l a b c d fixes flagged) s = execFrameReceive l a b c d fixes flagged s := rfl
  have hn : ¬ (s.linkState l.val ≠ 2 ∧ s.linkState l.val ≠ 3) := by omega
  rw [hexec, execFrameReceive, Prog.next_eq, Prog.run_get]
  generalize received (a ++ b ++ c ++ d) fixes = x
  dsimp only
  rw [if_neg hn, Prog.run_all_cons, Prog.run_all_cons, Prog.run_all_nil]
  rfl

theorem received_flits (lanes : List (List (BitVec 2))) (fixes : List (Fin 5376 × Byte)) : (received lanes fixes).frame.flits.length = 20 := by
  rw [received, frameOf]
  exact (List.length_map _).trans List.length_range

/-- A link after what a frame acknowledges. -/
def Link.acked (k : Link) (f : Frame) : Link := { k with
  replay := k.replay.filter (fun e => !covers 32 f.ackSeq.toNat e.seq)
  creplay := k.creplay.filter (fun e => !covers 8 f.cack.toNat e.seq) }

theorem takeFrame_run {l : Nat} {x : RxFrame} (hnak : x.frame.nak = false) (hcnak : x.frame.cnak = false) (hretrain : x.frame.retrain = false)
    (hctrl : x.frame.ctrl = []) : (takeFrame l x).run s =
      (takeSlots l x.frame.firstSeq.toNat (List.zip (List.zip x.frame.flits x.ok) (List.range 20))).run
        ((modLink l (fun k => k.acked x.frame)).run s) := by
  rw [takeFrame, Prog.run_get]
  dsimp only
  rw [hnak, hcnak, hretrain, hctrl, Prog.run_all_cons, Prog.run_all_cons, Prog.run_all_cons, Prog.run_all_cons, Prog.run_all_cons, Prog.run_all_cons,
    Prog.run_all_nil]
  rfl

/-! ### A read request -/

/-- A flit in sequence counts towards the next 2^20. -/
def flitCounts (l n : Nat) : Prog := .all [
  modLink l Link.accepts,
  bumpBy (pgLink l) R.link_RX_FLIT_CNT ((n + 1) / 2 ^ 20),
  modLink l (fun k => { k with rxCount := (k.rxCount + 1) % 2 ^ 20 })]

/-- A read request for this device is kept. -/
def keepsRequest (l sh : Nat) (rx : ShareRx) (m : RxMsg) : Prog := .all [setRx l sh rx, modLink l (fun k => { k with inbox := k.inbox ++ [m] })]

theorem takeHead_readReq {l sh : Nat} {f : Flit} {h : Head} (hkind : h.kind = .readReq) (hdst : h.dstDev.toNat = s.self) (hfor : s.forward l sh = none) :
    (takeHead l sh f h).run s = (keepsRequest l sh { croft := f.croft.val, head := h, drop := true }
      ⟨sh, f.croft.val, h, [], s.resetAt h.addr.toNat⟩).run s := by
  rw [takeHead, Prog.run_get]
  dsimp only
  rw [hfor]
  dsimp only
  rw [if_neg (by rw [hkind]; decide)]
  dsimp only
  rw [if_neg (not_not.2 hdst), hkind]
  rfl

theorem takeFlit_head {l seq : Nat} {f : Flit} {h : Head} (hf : f.body = .head h) (hseq : s.inSequence l seq) :
    (takeFlit l seq false f).run s = (takeHead l (seq % 16) f h).run ((flitCounts l (s.link l).rxCount).run s) := by
  have hseq' : decide (seq % 2 ^ 32 = (s.link l).expect % 2 ^ 32) = true := decide_eq_true hseq
  rw [takeFlit, Prog.run_get]
  dsimp only
  rw [if_neg Bool.false_ne_true, hf]
  dsimp only
  rw [hseq', Bool.not_true, if_neg Bool.false_ne_true, Prog.run_all_cons, Prog.run_all_cons, Prog.run_all_cons, Prog.run_all_cons, Prog.run_all_nil,
    flitCounts, Prog.run_all_cons, Prog.run_all_cons, Prog.run_all_cons, Prog.run_all_nil]
  rfl

theorem flitCounts_run (l n : Nat) (s : State) :
    let t := (flitCounts l n).run s
    t.link l = { (s.link l).accepts with rxCount := ((s.link l).rxCount + 1) % 2 ^ 20 } ∧ Counts s t (pgLink l) R.link_RX_FLIT_CNT ((n + 1) / 2 ^ 20) ∧
    Keeps { regs := theRegs (pgLink l) [R.link_RX_FLIT_CNT], links := (· = l) } s t := by
  have hself := modLink_run_self l Link.accepts s
  have hfirst : Keeps { links := (· = l) } s ((modLink l Link.accepts).run s) := Prog.keeps (by simp) s
  rw [flitCounts, Prog.run_all_cons, Prog.run_all_cons, Prog.run_all_cons, Prog.run_all_nil]
  generalize (modLink l Link.accepts).run s = u at *
  obtain ⟨hcnt, hbump⟩ := bumpBy_run (pgLink l) R.link_RX_FLIT_CNT ((n + 1) / 2 ^ 20) u
  generalize (bumpBy (pgLink l) R.link_RX_FLIT_CNT ((n + 1) / 2 ^ 20)).run u = w at *
  have hlast := modLink_run_self l (fun k => { k with rxCount := (k.rxCount + 1) % 2 ^ 20 }) w
  have hmod : Keeps { links := (· = l) } w ((modLink l (fun k => { k with rxCount := (k.rxCount + 1) % 2 ^ 20 })).run w) := Prog.keeps (by simp) w
  generalize (modLink l (fun k => { k with rxCount := (k.rxCount + 1) % 2 ^ 20 })).run w = t at *
  refine ⟨by rw [hlast, hbump.links l id, hself]; rfl, ?_, (hfirst.mono ?_).trans ((hbump.mono ?_).trans (hmod.mono ?_))⟩
  · rw [Counts, hmod.reg_eq id, hcnt, hfirst.reg_eq id]
  all_goals constructor <;> simp

theorem keepsRequest_run (l sh : Nat) (rx : ShareRx) (m : RxMsg) (s : State) :
    let t := (keepsRequest l sh rx m).run s
    t.link l = { s.link l with rx := Sparse.set (s.link l).rx sh rx, inbox := (s.link l).inbox ++ [m] } ∧ Keeps { links := (· = l) } s t := by
  have hrx := modLink_run_self l (fun k => { k with rx := Sparse.set k.rx sh rx }) s
  refine ⟨?_, Prog.keeps (by simp [keepsRequest, setRx]) s⟩
  rw [keepsRequest, Prog.run_all_cons, Prog.run_all_cons, Prog.run_all_nil, setRx]
  generalize (modLink l (fun k => { k with rx := Sparse.set k.rx sh rx })).run s = u at *
  rw [modLink_run_self, hrx]

theorem State.transit_congr {t : State} (h : SamePage pgPort s t) {e : Nat} (he : e < 64) : t.transit e = s.transit e := by
  rw [State.transit, State.transit, h.portFld (by simp only []; omega), h.portFld (by simp only []; omega), h.portFld (by simp only []; omega),
    h.portFld (by simp only []; omega), h.portFld (by simp only []; omega)]

theorem State.forward_congr {t : State} (h : SamePage pgPort s t) (l sh : Nat) : t.forward l sh = s.forward l sh := by
  have hmap : (List.range 64).filterMap t.transit = (List.range 64).filterMap s.transit :=
    List.filterMap_congr fun e he => State.transit_congr h (List.mem_range.1 he)
  rw [State.forward, State.forward, hmap]

theorem State.resetAt_congr {t : State} (h : t.dev.resets = s.dev.resets) (a : Nat) : t.resetAt a = s.resetAt a := by
  have hunder (p : Page) : t.underReset p = s.underReset p := by rw [State.underReset, State.underReset, h]
  rw [State.resetAt, State.resetAt]
  split <;> simp only [State.croftUnderReset, hunder]

theorem countFec_resets (l : Nat) (fixes : List Nat) (flagged : Nat) (s : State) : ((countFec l fixes flagged).run s).dev.resets = s.dev.resets := by
  refine looks_run (v := Device.resets) (fun d => ?_) s
  have htell (i : Nat) : (tellWatch i).Safe (looks Device.resets d) := modDev_looks fun _ => rfl
  simp only [countFec, Prog.safe_all_cons exists_looks, Prog.safe_all_nil, and_true, bumpBy_looks, true_and]
  exact ⟨(Prog.safe_each exists_looks _ _).2 fun _ _ => htell 4, (Prog.safe_each exists_looks _ _).2 fun _ _ => Prog.looks_of_only (T := { links := fun _ => True })
    (by simp [countLane]) id⟩

/-! ### A frame is received -/

/-- The slots of a frame whose first flit passes its CRC, or fails it, and whose others pass. -/
theorem frame_slots {x : RxFrame} {y : Flit} {rest : List Flit} (hflits : x.frame.flits = y :: rest) (hlen : rest.length = 19) {b : Bool}
    (hok : x.ok = b :: List.replicate 19 true) :
    List.zip (List.zip x.frame.flits x.ok) (List.range 20) = ((y, b), 0) :: goodSlots rest 1 := by
  rw [hflits, hok, goodSlots, hlen, List.range_eq_range', show (20 : Nat) = 19 + 1 from rfl, List.range'_succ, List.zip_cons_cons, List.zip_cons_cons]

/-- The frame's registers of link `l` for its codewords. -/
def fecRegs : List Fld := [R.link_FEC_CORR_CNT, R.link_FEC_UNCORR_CNT]

theorem FecCounted.congr {t u : State} {l : Nat} {fixes : List Nat} {flagged : Nat} (h : FecCounted s t l fixes flagged)
    (hreg : ∀ f ∈ fecRegs, u.reg (pgLink l) f.off = t.reg (pgLink l) f.off) (hlane : (u.link l).laneErr = (t.link l).laneErr) :
    FecCounted s u l fixes flagged := by
  obtain ⟨hcorr, hbad, hlanes⟩ := h
  exact ⟨(hreg R.link_FEC_CORR_CNT (by simp [fecRegs])).trans hcorr, (hreg R.link_FEC_UNCORR_CNT (by simp [fecRegs])).trans hbad,
    fun i hi => by rw [hlane]; exact hlanes i hi⟩

theorem frameHeader_fails {l : LinkId} (fixes : List Nat) (flagged : Nat) (s : State) :
    let t := (headerFails l.val).run ((countFec l.val fixes flagged).run s)
    FecCounted s t l.val fixes flagged ∧ t.link l.val = { s.link l.val with nak := true, cnak := true, laneErr := (t.link l.val).laneErr } ∧
    Counts s t (pgLink l.val) R.link_HCRC_FAIL_CNT 1 ∧
    Keeps { regs := theRegs (pgLink l.val) (fecRegs ++ [R.link_HCRC_FAIL_CNT]), links := (· = l.val), dev := True } s t := by
  obtain ⟨hfec, hlink, hkeep⟩ := countFec_run l.val fixes flagged s
  generalize (countFec l.val fixes flagged).run s = u at *
  obtain ⟨hself, hcnt, hfails⟩ := headerFails_run l.val u
  generalize (headerFails l.val).run u = t at *
  refine ⟨hfec.congr (fun f hf => hfails.reg_eq (not_theRegs_offset (by revert f; decide) _)) (by rw [hself]), ?_, ?_, (hkeep.mono ?_).trans (hfails.mono ?_)⟩
  · rw [hself, hlink]
  · rw [Counts, ← hkeep.reg_eq (p := pgLink l.val) (o := R.link_HCRC_FAIL_CNT.off) (not_theRegs_offset (by decide) _)]
    exact hcnt
  · constructor
    case regs => exact theRegs_mono (by simp [fecRegs])
    all_goals simp
  · constructor
    case regs => exact theRegs_mono (by simp)
    all_goals simp

/-- The state in which a frame's slots are taken: what the decoder reports is counted, and what the frame acknowledges is gone. -/
theorem frame_acked {l : LinkId} (fixes : List Nat) (flagged : Nat) (f : Frame) (s : State) :
    let t := (modLink l.val (fun k => k.acked f)).run ((countFec l.val fixes flagged).run s)
    FecCounted s t l.val fixes flagged ∧ t.link l.val = { (s.link l.val).acked f with laneErr := (t.link l.val).laneErr } ∧
    t.dev.resets = s.dev.resets ∧ Keeps { regs := theRegs (pgLink l.val) fecRegs, links := (· = l.val), dev := True } s t := by
  obtain ⟨hfec, hlink, hkeep⟩ := countFec_run l.val fixes flagged s
  have hresets := countFec_resets l.val fixes flagged s
  generalize (countFec l.val fixes flagged).run s = u at *
  have hself := modLink_run_self l.val (fun k => k.acked f) u
  have hmod : Keeps { links := (· = l.val) } u ((modLink l.val (fun k => k.acked f)).run u) := Prog.keeps (by simp) u
  generalize (modLink l.val (fun k => k.acked f)).run u = t at *
  refine ⟨hfec.congr (fun f _ => hmod.reg_eq id) (by rw [hself]; rfl), ?_, by rw [hmod.dev id, hresets], (hkeep.mono ?_).trans (hmod.mono ?_)⟩
  · rw [hself, hlink]
    rfl
  · constructor
    case regs => exact theRegs_mono (by simp [fecRegs])
    all_goals simp
  · constructor <;> simp

section
variable {u : State} {l : LinkId} {places : List Nat} {flagged : Nat} {f : Frame} {y : Flit} {rest : List Flit}
  (hfec : FecCounted s u l.val places flagged) (hlink : u.link l.val = { (s.link l.val).acked f with laneErr := (u.link l.val).laneErr })
  (hkeep : Keeps { regs := theRegs (pgLink l.val) fecRegs, links := (· = l.val), dev := True } s u)
  (hnext : u.inSequence l.val f.firstSeq.toNat) (hidle : ∀ z ∈ rest, z.body = .idle) (hlen : rest.length = 19)
include hfec hlink hkeep hnext hidle hlen

/-- A frame of idle flits in sequence is accepted. -/
theorem frame_idle (hy : y.body = .idle) :
    let t := (takeSlots l.val f.firstSeq.toNat (((y, true), 0) :: goodSlots rest 1)).run u
    FecCounted s t l.val places flagged ∧
    t.link l.val = { (s.link l.val).acked f with expect := (s.link l.val).expect + 20, nak := false, laneErr := (t.link l.val).laneErr } ∧
    Keeps { regs := theRegs (pgLink l.val) fecRegs, links := (· = l.val), dev := True } s t := by
  have hall : ∀ z ∈ y :: rest, z.body = .idle := List.forall_mem_cons.2 ⟨hy, hidle⟩
  obtain ⟨hself, hslots⟩ := idleSlots_accepted (first := f.firstSeq.toNat) (i := 0) hall (by rwa [Nat.add_zero])
  rw [goodSlots_cons, Nat.zero_add] at hself hslots
  dsimp only
  generalize (takeSlots l.val f.firstSeq.toNat (((y, true), 0) :: goodSlots rest 1)).run u = t at *
  rw [if_neg (List.cons_ne_nil y rest), List.length_cons, hlen] at hself
  refine ⟨hfec.congr (fun _ _ => hslots.reg_eq id) (by rw [hself]), ?_, hkeep.trans (hslots.mono (by constructor <;> simp))⟩
  rw [hself, hlink]
  rfl

/-- A frame whose first flit's CRC fails: the flit is counted, and a NAK is due. -/
theorem frame_bad :
    let t := (takeSlots l.val f.firstSeq.toNat (((y, false), 0) :: goodSlots rest 1)).run u
    FecCounted s t l.val places flagged ∧
    t.link l.val = { (s.link l.val).acked f with nak := true, laneErr := (t.link l.val).laneErr } ∧ Counts s t (pgLink l.val) R.link_CRC_FAIL_CNT 1 ∧
    Keeps { regs := theRegs (pgLink l.val) (fecRegs ++ [R.link_CRC_FAIL_CNT]), links := (· = l.val), dev := True } s t := by
  obtain ⟨hself, hcnt, hbad⟩ := takeFlit_bad l.val (f.firstSeq.toNat + 0) y u
  dsimp only
  rw [takeSlots_cons, Bool.not_false]
  generalize (takeFlit l.val (f.firstSeq.toNat + 0) true y).run u = t at *
  have hseq : t.inSequence l.val f.firstSeq.toNat := by
    rw [State.inSequence, hself]
    exact hnext
  rw [idleSlots_rejected hidle hseq (Nat.le_refl 1) (by omega)]
  refine ⟨hfec.congr (fun g hg => hbad.reg_eq (not_theRegs_offset (by revert g; decide) _)) (by rw [hself]; rfl), ?_, ?_, (hkeep.mono ?_).trans (hbad.mono ?_)⟩
  · rw [hself, hlink]
    rfl
  · rw [Counts, ← hkeep.reg_eq (p := pgLink l.val) (o := R.link_CRC_FAIL_CNT.off) (not_theRegs_offset (by decide) _)]
    exact hcnt
  · constructor
    case regs => exact theRegs_mono (by simp)
    all_goals simp
  · constructor
    case regs => exact theRegs_mono (by simp)
    all_goals simp

/-- A frame that begins with a read request for this device: the request is kept for service. -/
theorem frame_request (hresets : u.dev.resets = s.dev.resets) {h : Head} (hy : y.body = .head h) (hkind : h.kind = .readReq)
    (hdst : h.dstDev.toNat = s.self) (hfor : s.forward l.val (f.firstSeq.toNat % 16) = none) :
    let t := (takeSlots l.val f.firstSeq.toNat (((y, true), 0) :: goodSlots rest 1)).run u
    FecCounted s t l.val places flagged ∧
    (t.link l.val).inbox = (s.link l.val).inbox ++ [⟨f.firstSeq.toNat % 16, y.croft.val, h, [], s.resetAt h.addr.toNat⟩] ∧
    (t.link l.val).expect = (s.link l.val).expect + 20 ∧ (t.link l.val).nak = false ∧
    Counts s t (pgLink l.val) R.link_RX_FLIT_CNT (((s.link l.val).rxCount + 1) / 2 ^ 20) ∧
    Keeps { regs := theRegs (pgLink l.val) (fecRegs ++ [R.link_RX_FLIT_CNT]), links := (· = l.val), dev := True } s t := by
  have hrx : (u.link l.val).rxCount = (s.link l.val).rxCount := by
    rw [hlink]
    rfl
  obtain ⟨hself, hcnt, hcounts⟩ := flitCounts_run l.val (s.link l.val).rxCount u
  dsimp only
  rw [takeSlots_cons, Bool.not_true, Nat.add_zero, takeFlit_head hy hnext, hrx]
  generalize (flitCounts l.val (s.link l.val).rxCount).run u = v at *
  have hboth := (hkeep.mono (U := { regs := theRegs (pgLink l.val) (fecRegs ++ [R.link_RX_FLIT_CNT]), links := (· = l.val), dev := True }) (by
    constructor
    case regs => exact theRegs_mono (by simp)
    all_goals simp)).trans (hcounts.mono (by
    constructor
    case regs => exact theRegs_mono (by simp)
    all_goals simp))
  have hport : SamePage pgPort s v := fun o ho => hboth.reg_eq (not_theRegs_apart (by
    intro g hg
    have hg' : g.off < 0x1000 := by
      revert g
      decide
    simp [ho, hg']))
  have hself' : h.dstDev.toNat = v.self := hdst.trans (hport.fld (f := R.port_CFG_SELF_DEV) (by decide)).symm
  rw [takeHead_readReq hkind hself' ((State.forward_congr hport ..).trans hfor),
    State.resetAt_congr (s := s) (t := v) ((congrArg Device.resets (hcounts.dev id)).trans hresets)]
  obtain ⟨hkept, hreq⟩ := keepsRequest_run l.val (f.firstSeq.toNat % 16) { croft := y.croft.val, head := h, drop := true }
    ⟨f.firstSeq.toNat % 16, y.croft.val, h, [], s.resetAt h.addr.toNat⟩ v
  generalize (keepsRequest l.val (f.firstSeq.toNat % 16) _ _).run v = w at *
  have hseq : w.inSequence l.val (f.firstSeq.toNat + 1) := by
    rw [State.inSequence] at hnext ⊢
    rw [hkept, hself]
    show _ = ((u.link l.val).expect + 1) % _
    omega
  obtain ⟨hend, htail⟩ := idleSlots_accepted hidle hseq
  generalize (takeSlots l.val f.firstSeq.toNat (goodSlots rest 1)).run w = t at *
  have hne : rest ≠ [] := fun e => by
    rw [e] at hlen
    exact absurd hlen (by decide)
  rw [if_neg hne, hlen, hkept, hself] at hend
  refine ⟨hfec.congr (fun g hg => ?_) (by rw [hend]; rfl), ?_, ?_, by rw [hend], ?_, (hboth.trans (hreq.mono ?_)).trans (htail.mono ?_)⟩
  · rw [htail.reg_eq id, hreq.reg_eq id, hcounts.reg_eq (not_theRegs_offset (by revert g; decide) _)]
  · rw [hend, hlink]
    rfl
  · rw [hend, hlink]
    rfl
  · rw [Counts, htail.reg_eq id, hreq.reg_eq id, hcnt, hkeep.reg_eq (not_theRegs_offset (by decide) _)]
  · constructor <;> simp
  · constructor <;> simp

end

/-- Settles O39: the frame a link sends, and what it takes from one it receives. -/
theorem framesAreSentAndReceived : Obligations.FramesAreSentAndReceived := by
  unfold Obligations.FramesAreSentAndReceived
  refine ⟨⟨fun s l h2 h3 => exec_frameSend.1 h2 h3, fun s l h => ?_⟩, fun s l a b c d fixes flagged h => ?_⟩
  · obtain ⟨t, ht, hout, hlink, hkeep⟩ := frameSend_run h
    obtain ⟨hlen, hctrl, hnext, hexpect, hold⟩ := nextFrame_parts s l.val
    refine ⟨t, ht, s.nextFrame l.val, hout, hlen, hctrl, ?_, ?_, ?_, fun hn => ?_, rfl, by rw [hlink, hnext], by rw [hlink, hexpect], fun h3 => ?_, hkeep⟩
    · rw [State.nextFrame, BitVec.toNat_ofNat]
    · rw [State.nextFrame, BitVec.toNat_ofNat]
    · rw [State.nextFrame, BitVec.toNat_ofNat]
    · exact ((Bool.and_eq_true _ _).mp hn).1
    · rw [hlink]
      exact hold h3
  · intro x f k places fec acked
    rw [exec_frameReceive h]
    refine ⟨fun hbad => ?_, fun y rest hgood hnak hcnak hretrain hctrl hflits hidle hseq => ?_⟩
    · rw [if_neg (by rw [hbad]; exact Bool.false_ne_true)]
      exact Leaves.of_next (frameHeader_fails places flagged.length s)
    · have hlen : rest.length = 19 := Nat.succ.inj ((congrArg List.length hflits).symm.trans (received_flits ..))
      rw [if_pos hgood, takeFrame_run hnak hcnak hretrain hctrl]
      obtain ⟨hfec, hlink, hresets, hkeep⟩ := frame_acked places flagged.length f s (l := l)
      have hframe {b : Bool} (hok : x.ok = b :: List.replicate 19 true) := frame_slots hflits hlen hok
      rw [show fixes.map (fun x => x.1.val) = places from rfl, show x.frame = f from rfl]
      rw [show x.frame = f from rfl] at hframe
      generalize (modLink l.val (fun k => k.acked f)).run ((countFec l.val places flagged.length).run s) = u at *
      have hexpect : (u.link l.val).expect = k.expect := by
        rw [hlink]
        rfl
      have hnext : u.inSequence l.val f.firstSeq.toNat := by
        rw [State.inSequence, hexpect]
        omega
      refine ⟨fun hok hy => ?_, fun hok => ?_, fun hd hok hy hkind hdst hfor => ?_⟩
      · rw [hframe (b := true) hok]
        exact Leaves.of_next (frame_idle hfec hlink hkeep hnext hidle hlen hy)
      · rw [hframe (b := false) hok]
        exact Leaves.of_next (frame_bad hfec hlink hkeep hnext hidle hlen)
      · rw [hframe (b := true) hok]
        exact Leaves.of_next (frame_request hfec hlink hkeep hnext hidle hlen hresets hy hkind hdst hfor)

end Sys2Proof.Machine
end

open Host
section
/-! O31: snapshots proceed pail by pail, and the commands of the Bucket page (R415 to R425, R435 to R437). -/
namespace Sys2Proof.Machine

variable {s : State} {n : Snap}

/-! ### The snapshot's record and memory -/

theorem modSnap_run (h : s.dev.snap = some n) (f : Snap → Snap) :
    ((modSnap f).run s).dev = { s.dev with snap := some (f n) } ∧ Keeps { dev := True } s ((modSnap f).run s) := by
  refine ⟨?_, Prog.keeps (modDev_only (fun _ => trivial) _) s⟩
  show { s.dev with snap := s.dev.snap.map f } = _
  rw [h]
  rfl

/-- While memory holds its code words a store only writes its bytes. -/
theorem store_effect (hi : s.intact = true) (src : Option Source) (a : Nat) (bs : List Byte) :
    let t := (store src a bs).run s
    t.dev = s.dev ∧ t.holds a bs ∧ Keeps { mem := inRange a bs.length } s t := by
  dsimp only
  rw [store_run hi]
  exact ⟨rfl, Act.apply_bytes_holds _ _ _, Act.apply_bytes_keeps ..⟩

theorem State.holds_of_keeps {T : Touch} {t : State} {a : Nat} {bs : List Byte} (h : Keeps T s t) (hm : ∀ x, ¬ T.mem x) (hs : s.holds a bs) :
    t.holds a bs := fun i hi => (h.mem _ (hm _)).trans (hs i hi)

/-- Writes carried out one after another, while memory holds its code words. -/
theorem stores_effect {α : Type} (src : α → Option Source) (a : α → Nat) (bs : α → List Byte) (l : List α) (hi : s.intact = true) :
    let t := (Prog.each l (fun x => store (src x) (a x) (bs x))).run s
    t.dev = s.dev ∧ Keeps { mem := fun y => ∃ x ∈ l, inRange (a x) (bs x).length y } s t := by
  induction l generalizing s with
  | nil => exact ⟨rfl, Keeps.refl _ s⟩
  | cons x l ih =>
    obtain ⟨hdev, -, hkeep⟩ := store_effect hi (src x) (a x) (bs x)
    dsimp only
    rw [Prog.run_each_cons]
    generalize (store (src x) (a x) (bs x)).run s = u at *
    have hiu : u.intact = true := by
      rw [State.intact, hdev]
      exact hi
    obtain ⟨hdev', hkeep'⟩ := ih hiu
    refine ⟨hdev'.trans hdev, (hkeep.mono ?_).trans (hkeep'.mono ?_)⟩
    · constructor
      case mem => exact fun _ h => ⟨x, List.mem_cons_self, h⟩
      all_goals simp
    · constructor
      case mem => exact fun _ ⟨y, hy, h⟩ => ⟨y, List.mem_cons_of_mem x hy, h⟩
      all_goals simp

theorem sendPartner_keeps (what k addr : Nat) (bs : List Byte) (s : State) :
    Keeps { links := fun _ => True } s ((sendPartner what k addr bs).run s) := Prog.keeps (sendPartner_only (fun _ => trivial) ..) s

/-! ### Copying -/

/-- The snapshot once pail `k` has been sent. -/
def Snap.shipped (n : Snap) (k : Nat) (d : BitVec 128) : Snap := { n with unacked := n.unacked ++ [k], digest := n.digest + d }

theorem shipPail_run (hi : s.intact = true) (h : s.dev.snap = some n) (k : Nat) (bs : List Byte) :
    let t := (shipPail k bs).run s
    let a := slotAddr s.larder.1 n.pails.length n.slot k
    t.dev = { s.dev with snap := some (n.shipped k (s.pailDigest k bs)) } ∧ t.holds a bs ∧
    Keeps { mem := inRange a bs.length, links := fun _ => True, dev := True } s t := by
  rw [shipPail, Prog.run_get, h]
  dsimp only
  rw [Prog.run_all_cons, Prog.run_all_cons, Prog.run_all_cons, Prog.run_all_nil]
  obtain ⟨hdev, hholds, hkeep⟩ := store_effect hi (some .bucket) (slotAddr s.larder.1 n.pails.length n.slot k) bs
  generalize (store (some .bucket) (slotAddr s.larder.1 n.pails.length n.slot k) bs).run s = u at *
  have hsend := sendPartner_keeps bkPail k (slotAddr s.partnerCellar n.pails.length n.slot k) bs u
  generalize (sendPartner bkPail k (slotAddr s.partnerCellar n.pails.length n.slot k) bs).run u = v at *
  have hv : v.dev = s.dev := (hsend.dev id).trans hdev
  obtain ⟨hend, hlast⟩ := modSnap_run ((congrArg Device.snap hv).trans h) (fun n => { n with unacked := n.unacked ++ [k], digest := n.digest + s.pailDigest k bs })
  refine ⟨by rw [hend, hv]; rfl, State.holds_of_keeps hlast (fun _ => id) (State.holds_of_keeps hsend (fun _ => id) hholds), ?_⟩
  refine ((hkeep.mono ?_).trans (hsend.mono ?_)).trans (hlast.mono ?_) <;> constructor <;> simp

theorem pailRead_run (hi : s.intact = true) (n : Snap) (k : Nat) (go : Prog) : (pailRead n k go).run s = go.run s := by
  rw [pailRead, Prog.run_all_cons, Prog.run_all_cons, Prog.run_all_nil, readBy_run hi, ifRefused, Prog.run_get, deadAt_intact hi]
  rfl

/-- A write of the pail at slot place `k` that is held. -/
def Snap.holdsFor (n : Snap) (k : Nat) (h : HeldWrite) : Bool := n.pails[k]? == some (h.addr / pailSize)

theorem releaseHeld_run (hi : s.intact = true) (h : s.dev.snap = some n) (k : Nat) :
    let t := (releaseHeld k).run s
    t.dev = { s.dev with snap := some { n with held := n.held.filter (fun x => !n.holdsFor k x) } } ∧
    Keeps { mem := fun a => ∃ x ∈ n.held, n.pails[k]? = some (x.addr / pailSize) ∧ inRange x.addr x.bytes.length a, dev := True } s t := by
  rw [releaseHeld, Prog.run_get, h]
  dsimp only
  rw [Prog.run_all_cons, Prog.run_all_cons, Prog.run_all_nil]
  obtain ⟨hdev, hkeep⟩ := modSnap_run h (fun x => { x with held := x.held.filter (fun x => !n.holdsFor k x) })
  rw [show (modSnap fun x => { x with held := x.held.filter (fun h => !(n.pails[k]? == some (h.addr / pailSize))) }) =
    modSnap (fun x => { x with held := x.held.filter (fun x => !n.holdsFor k x) }) from rfl]
  generalize (modSnap (fun x => { x with held := x.held.filter (fun x => !n.holdsFor k x) })).run s = u at *
  have hiu : u.intact = true := by
    rw [State.intact, hdev]
    exact hi
  obtain ⟨hdev', hkeep'⟩ := stores_effect (fun x : HeldWrite => some x.src) (·.addr) (·.bytes)
    (n.held.filter (fun h => n.pails[k]? == some (h.addr / pailSize))) hiu
  refine ⟨hdev'.trans hdev, (hkeep.mono (by constructor <;> simp)).trans (hkeep'.mono ?_)⟩
  constructor
  case mem =>
    rintro a ⟨x, hx, ha⟩
    obtain ⟨hx, hp⟩ := List.mem_filter.1 hx
    exact ⟨x, hx, eq_of_beq hp, ha⟩
  all_goals simp

theorem releaseHeld_none (h : s.dev.snap = some n) (hh : n.held = []) (k : Nat) :
    ((releaseHeld k).run s).dev = s.dev ∧ Keeps { dev := True } s ((releaseHeld k).run s) := by
  rw [releaseHeld, Prog.run_get, h]
  dsimp only
  rw [hh, List.filter_nil, Prog.run_all_cons, Prog.run_all_cons, Prog.run_all_nil, Prog.run_each_nil]
  obtain ⟨hdev, hkeep⟩ := modSnap_run h (fun x => { x with held := x.held.filter (fun h => !(n.pails[k]? == some (h.addr / pailSize))) })
  refine ⟨hdev.trans ?_, hkeep⟩
  rw [hh, List.filter_nil, ← hh, ← h]

theorem exec_pailCopy_staged (hi : s.intact = true) (h : s.dev.snap = some n) (hb : n.begun = true) {k : Nat} {bs : List Byte}
    {rest : List (Nat × List Byte)} (hs : n.staged = (k, bs) :: rest) : Leaves (exec .bucketPailCopy s) (fun t =>
      t.dev = { s.dev with snap := some { n with staged := rest, unacked := n.unacked ++ [k], digest := n.digest + s.pailDigest k bs } } ∧
      t.fld pgBucket R.bucket_STATUS_STAGED = rest.length % 32 ∧ t.holds (slotAddr s.larder.1 n.pails.length n.slot k) bs ∧
      Keeps { regs := theRegs pgBucket [R.bucket_STATUS_STAGED], mem := inRange (slotAddr s.larder.1 n.pails.length n.slot k) bs.length,
              links := fun _ => True, dev := True } s t) := by
  have hrun : exec .bucketPailCopy s = .next ((setFld pgBucket R.bucket_STATUS_STAGED rest.length).run
      ((modSnap (fun n => { n with staged := rest })).run ((shipPail k bs).run s))) := by
    show execBucketPailCopy s = _
    rw [execBucketPailCopy, Prog.next_eq, Prog.run_get, h]
    dsimp only
    rw [hb, Bool.not_true, if_neg Bool.false_ne_true, hs]
    dsimp only
    rw [Prog.run_all_cons, Prog.run_all_cons, Prog.run_all_cons, Prog.run_all_nil]
  rw [hrun]
  refine Leaves.of_next ?_
  obtain ⟨hdev, hholds, hkeep⟩ := shipPail_run hi h k bs
  generalize (shipPail k bs).run s = u at *
  obtain ⟨hdev', hkeep'⟩ := modSnap_run (congrArg Device.snap hdev) (fun n => { n with staged := rest })
  generalize (modSnap (fun n => { n with staged := rest })).run u = v at *
  have hlast : Keeps { regs := theRegs pgBucket [R.bucket_STATUS_STAGED] } v ((setFld pgBucket R.bucket_STATUS_STAGED rest.length).run v) :=
    Prog.keeps (by simp) v
  refine ⟨?_, by simp -implicitDefEqProofs, State.holds_of_keeps hlast (fun _ => id) (State.holds_of_keeps hkeep' (fun _ => id) hholds),
    ((hkeep.mono ?_).trans (hkeep'.mono ?_)).trans (hlast.mono ?_)⟩
  · rw [hlast.dev id, hdev', hdev]
    rfl
  all_goals constructor <;> simp

theorem exec_pailCopy_next (hi : s.intact = true) (h : s.dev.snap = some n) (hb : n.begun = true) {k : Nat} {rest : List Nat}
    (hs : n.staged = []) (hu : n.uncopied = k :: rest) (hh : n.held = []) : Leaves (exec .bucketPailCopy s) (fun t =>
      let bs := s.bytes (n.addr k) pailSize
      t.dev = { s.dev with snap := some { n with uncopied := rest, unacked := n.unacked ++ [k], digest := n.digest + s.pailDigest k bs } } ∧
      t.holds (slotAddr s.larder.1 n.pails.length n.slot k) bs ∧
      Keeps { mem := inRange (slotAddr s.larder.1 n.pails.length n.slot k) pailSize, links := fun _ => True, dev := True } s t) := by
  have hrun : exec .bucketPailCopy s = .next ((releaseHeld k).run
      ((modSnap (fun n => { n with uncopied := rest })).run ((shipPail k (s.bytes (n.addr k) pailSize)).run s))) := by
    show execBucketPailCopy s = _
    rw [execBucketPailCopy, Prog.next_eq, Prog.run_get, h]
    dsimp only
    rw [hb, Bool.not_true, if_neg Bool.false_ne_true, hs]
    dsimp only
    rw [hu]
    dsimp only
    rw [pailRead_run hi, Prog.run_get, Prog.run_all_cons, Prog.run_all_cons, Prog.run_all_cons, Prog.run_all_nil]
  rw [hrun]
  refine Leaves.of_next ?_
  dsimp only
  obtain ⟨hdev, hholds, hkeep⟩ := shipPail_run hi h k (s.bytes (n.addr k) pailSize)
  generalize (shipPail k (s.bytes (n.addr k) pailSize)).run s = u at *
  obtain ⟨hdev', hkeep'⟩ := modSnap_run (congrArg Device.snap hdev) (fun n => { n with uncopied := rest })
  generalize (modSnap (fun n => { n with uncopied := rest })).run u = v at *
  obtain ⟨hend, hlast⟩ := releaseHeld_none (congrArg Device.snap hdev') (show _ = [] from hh) k
  have hlen : (s.bytes (n.addr k) pailSize).length = pailSize := by simp [State.bytes]
  rw [hlen] at hkeep
  refine ⟨?_, State.holds_of_keeps hlast (fun _ => id) (State.holds_of_keeps hkeep' (fun _ => id) hholds),
    (hkeep.trans (hkeep'.mono ?_)).trans (hlast.mono ?_)⟩
  · rw [hend, hdev', hdev]
    rfl
  all_goals constructor <;> simp

/-- The snapshot once pail `k` has been read into a holding buffer. -/
def Snap.stages (n : Snap) (s : State) (k : Nat) : Snap :=
  { n with staged := n.staged ++ [(k, s.bytes (n.addr k) pailSize)], uncopied := n.uncopied.filter (· != k) }

theorem exec_touchRelease (hi : s.intact = true) (h : s.dev.snap = some n) {x : HeldWrite} {k : Nat} (hh : n.held.head? = some x)
    (hw : n.waiting x.addr = some k) (hs : n.staged.length < 16) : Leaves (exec .bucketTouchRelease s) (fun t =>
      (∃ n', t.dev = { s.dev with snap := some n' } ∧ n'.staged = n.staged ++ [(k, s.bytes (n.addr k) pailSize)] ∧
        n'.uncopied = n.uncopied.filter (· != k) ∧ ∀ x ∈ n'.held, x ∈ n.held ∧ n.pails[k]? ≠ some (x.addr / pailSize)) ∧
      Counts s t pgBucket R.bucket_TOUCH_CNT 1 ∧ t.fld pgBucket R.bucket_STATUS_STAGED = n.staged.length + 1 ∧
      Keeps { regs := theRegs pgBucket [R.bucket_TOUCH_CNT, R.bucket_STATUS_STAGED],
              mem := fun a => ∃ x ∈ n.held, n.pails[k]? = some (x.addr / pailSize) ∧ inRange x.addr x.bytes.length a, dev := True } s t) := by
  have hrun : exec .bucketTouchRelease s = .next ((releaseHeld k).run ((bump pgBucket R.bucket_TOUCH_CNT).run
      ((setFld pgBucket R.bucket_STATUS_STAGED (n.staged.length + 1)).run ((modSnap (fun n =>
        n.stages s k)).run s)))) := by
    show execBucketTouchRelease s = _
    rw [execBucketTouchRelease, Prog.next_eq, Prog.run_get, h]
    dsimp only
    rw [hh, Option.bind_some, hw]
    dsimp only
    rw [if_neg (by omega), pailRead_run hi, Prog.run_get, Prog.run_all_cons, Prog.run_all_cons, Prog.run_all_cons, Prog.run_all_cons, Prog.run_all_nil]
    rfl
  rw [hrun]
  refine Leaves.of_next ?_
  obtain ⟨hdev, hkeep⟩ := modSnap_run h (fun n => n.stages s k)
  generalize (modSnap (fun n => n.stages s k)).run s = u at *
  have hpage : Keeps { regs := theRegs pgBucket [R.bucket_TOUCH_CNT, R.bucket_STATUS_STAGED] } u
      ((bump pgBucket R.bucket_TOUCH_CNT).run ((setFld pgBucket R.bucket_STATUS_STAGED (n.staged.length + 1)).run u)) :=
    (Prog.keeps (by simp) u).trans (Prog.keeps (by simp) _)
  have hcnt : Counts u ((bump pgBucket R.bucket_TOUCH_CNT).run ((setFld pgBucket R.bucket_STATUS_STAGED (n.staged.length + 1)).run u))
      pgBucket R.bucket_TOUCH_CNT 1 := by simp -implicitDefEqProofs [Counts]
  have hfld : ((bump pgBucket R.bucket_TOUCH_CNT).run ((setFld pgBucket R.bucket_STATUS_STAGED (n.staged.length + 1)).run u)).fld pgBucket
      R.bucket_STATUS_STAGED = n.staged.length + 1 := by
    have := Nat.mod_eq_of_lt (show n.staged.length + 1 < 32 by omega)
    simp -implicitDefEqProofs [this]
  generalize (bump pgBucket R.bucket_TOUCH_CNT).run ((setFld pgBucket R.bucket_STATUS_STAGED (n.staged.length + 1)).run u) = v at *
  have hv : v.dev = { s.dev with snap := some (n.stages s k) } := (hpage.dev id).trans hdev
  have hiv : v.intact = true := by
    rw [State.intact, hv]
    exact hi
  obtain ⟨hend, hlast⟩ := releaseHeld_run hiv (congrArg Device.snap hv) k
  refine ⟨⟨_, by rw [hend, hv], rfl, rfl, fun x hx => ?_⟩, ?_, (hlast.fld_eq id).trans hfld, ((hkeep.mono ?_).trans (hpage.mono ?_)).trans (hlast.mono ?_)⟩
  · obtain ⟨hx, hp⟩ := List.mem_filter.1 hx
    refine ⟨hx, fun e => ?_⟩
    have hno : (n.pails[k]? == some (x.addr / pailSize)) = false := by
      rw [← Bool.not_eq_true']
      exact hp
    rw [e, beq_self_eq_true] at hno
    exact Bool.noConfusion hno
  · rw [Counts, hlast.reg_eq id, hcnt, hkeep.reg_eq id]
  · constructor <;> simp
  · constructor <;> simp
  · constructor
    case mem => exact fun _ h => h
    all_goals simp

/-! ### Failures and acknowledgements -/

theorem snapFail_run {cause : Nat} (addr : Nat) (hi : s.intact = true) (h : s.dev.snap = some n) (hc : cause < 2 ^ R.FAULT_CAUSE.width) :
    SnapFailed s ((snapFail cause addr).run s) cause := by
  rw [snapFail, Prog.run_get, h]
  dsimp only
  simp -implicitDefEqProofs only [Prog.run_all_cons, Prog.run_all_nil]
  have hfirst : ((modDev (fun d => { d with snap := none, pendingB := some (max (d.pendingB.getD 0) (s.stepIndex + 1)) })).run s).dev =
      { s.dev with snap := none, pendingB := some (max (s.dev.pendingB.getD 0) (s.stepIndex + 1)) } := rfl
  have hkeep : Keeps { dev := True } s ((modDev (fun d => { d with snap := none, pendingB := some (max (d.pendingB.getD 0) (s.stepIndex + 1)) })).run s) :=
    Prog.keeps (modDev_only (fun _ => trivial) _) s
  generalize (modDev (fun d => { d with snap := none, pendingB := some (max (d.pendingB.getD 0) (s.stepIndex + 1)) })).run s = u at *
  have hpage : Keeps { regs := theRegs pgBucket [R.bucket_STATUS_SNAP, R.bucket_FAIL_CNT] } u ((bump pgBucket R.bucket_FAIL_CNT).run
      ((setFld pgBucket R.bucket_STATUS_STAGED 0).run ((setFld pgBucket R.bucket_STATUS_SNAP 0).run u))) :=
    ((Prog.keeps (by simp) u).trans (Prog.keeps (by simp) _)).trans (Prog.keeps (by simp) _)
  have hcnt : Counts u ((bump pgBucket R.bucket_FAIL_CNT).run
      ((setFld pgBucket R.bucket_STATUS_STAGED 0).run ((setFld pgBucket R.bucket_STATUS_SNAP 0).run u))) pgBucket R.bucket_FAIL_CNT 1 := by
    simp -implicitDefEqProofs [Counts]
  have hsnap : ((bump pgBucket R.bucket_FAIL_CNT).run ((setFld pgBucket R.bucket_STATUS_STAGED 0).run
      ((setFld pgBucket R.bucket_STATUS_SNAP 0).run u))).fld pgBucket R.bucket_STATUS_SNAP = 0 := by simp -implicitDefEqProofs
  generalize (bump pgBucket R.bucket_FAIL_CNT).run
      ((setFld pgBucket R.bucket_STATUS_STAGED 0).run ((setFld pgBucket R.bucket_STATUS_SNAP 0).run u)) = v at *
  have hfault := pageFault_run_faults pgBucket hc addr v
  have hfkeep : Keeps { regs := theRegs pgBucket faultRegs } v ((pageFault pgBucket cause addr).run v) := Prog.keeps (by simp [faultRegs]) v
  generalize (pageFault pgBucket cause addr).run v = w at *
  have hwatch : ((tellWatch 14).run w).dev = { w.dev with watchDue := w.dev.watchDue ++ [14] } := rfl
  have hwkeep : Keeps { dev := True } w ((tellWatch 14).run w) := Prog.keeps (modDev_only (fun _ => trivial) _) w
  generalize (tellWatch 14).run w = x at *
  rw [hfkeep.dev id, hpage.dev id, hfirst] at hwatch
  have hix : x.intact = true := by
    rw [State.intact, hwatch]
    exact hi
  obtain ⟨hdev, hstores⟩ := stores_effect (fun h : HeldWrite => some h.src) (·.addr) (·.bytes) n.held hix
  generalize (Prog.each n.held (fun h => store (some h.src) h.addr h.bytes)).run x = y at *
  have hlast : Keeps { regs := theRegs pgBucket [R.bucket_STATUS_HELD] } y (unhold.run y) := Prog.keeps (by simp [unhold]) y
  have hheld : (unhold.run y).bit pgBucket R.bucket_STATUS_HELD = false := by simp -implicitDefEqProofs [unhold, State.bit]
  have hsnap' : (unhold.run y).fld pgBucket R.bucket_STATUS_SNAP = y.fld pgBucket R.bucket_STATUS_SNAP := by simp -implicitDefEqProofs [unhold]
  generalize unhold.run y = t at *
  have hback {f : Fld} (h : f.off ≠ R.bucket_STATUS_HELD.off) (hf : f.off < 0x1000) : t.reg pgBucket f.off = w.reg pgBucket f.off :=
    (hlast.reg_eq (not_theRegs_apart (by simp [h, hf]))).trans ((hstores.reg_eq id).trans (hwkeep.reg_eq id))
  have hfld {f : Fld} (h : f.off ≠ R.bucket_STATUS_HELD.off) (hf : f.off < 0x1000) : t.fld pgBucket f = w.fld pgBucket f :=
    congrArg (fun v : Word => v.toNat / 2 ^ f.lo % 2 ^ f.width) (hback h hf)
  refine ⟨?_, ?_, ?_, hheld, ?_, (hfld (by decide) (by decide)).trans hfault.1, fun hn => (hfld (by decide) (by decide)).trans (hfault.2 fun e => hn ?_)⟩
  · rw [hlast.dev id, hdev, hwatch]
  · rw [hlast.dev id, hdev, hwatch]
  · rw [hsnap', hstores.fld_eq id, hwkeep.fld_eq id, hfkeep.fld_eq (not_theRegs_offset (by decide) _), hsnap]
  · rw [Counts, hback (by decide) (by decide), hfkeep.reg_eq (not_theRegs_offset (by decide) _), hcnt, hkeep.reg_eq id]
  · rw [← e, hpage.fld_eq (not_theRegs_offset (by decide) _), hkeep.fld_eq id]

theorem exec_pailTimeout (h : s.dev.snap = some n) {k p : Nat} (hp : n.unacked[k]? = some p) :
    exec (.bucketPailTimeout k) s = .next ((snapFail 2 (n.addr p)).run s) := by
  show execBucketPailTimeout k s = _
  rw [execBucketPailTimeout, Prog.next_eq, Prog.run_get, h]
  dsimp only
  rw [hp]

/-- The acknowledgement at place `k` is taken. -/
def takesAck (k : Nat) : Prog := modDev (fun d => { d with acks := d.acks.eraseIdx k })

theorem exec_pailAck {k : Nat} {dev queue : BitVec 14} {tag : BitVec 12} {epoch inc status : BitVec 4}
    (ha : s.dev.acks[k]? = some (.segAck dev queue tag epoch inc 0 status true)) :
    exec (.segAck k) s = .next ((bucketAck 0 (queue.toNat + tag.toNat * 2 ^ 14) status.toNat).run ((takesAck k).run s)) := by
  show execSegAck k s = _
  rw [execSegAck, Prog.next_eq, Prog.run_get, ha]
  dsimp only
  rw [if_pos rfl, Prog.run_all_cons, Prog.run_all_cons, Prog.run_all_nil]
  rfl

theorem takesAck_run (k : Nat) (s : State) : ((takesAck k).run s).dev = { s.dev with acks := s.dev.acks.eraseIdx k } ∧
    Keeps { dev := True } s ((takesAck k).run s) := ⟨rfl, Prog.keeps (modDev_only (fun _ => trivial) _) s⟩

theorem bucketAck_acknowledges (h : s.dev.snap = some n) (p : Nat) :
    (bucketAck 0 p 0).run s = (modSnap (fun n => { n with unacked := n.unacked.filter (· != p) })).run s := by
  rw [bucketAck, Prog.run_get, if_neg (by decide), h]
  rfl

theorem bucketAck_fails (h : s.dev.snap = some n) (p : Nat) {status : Nat} (hs : status ≠ 0) :
    (bucketAck 0 p status).run s = (snapFail (if status = 7 then 2 else 3) (n.addr p)).run s := by
  rw [bucketAck, Prog.run_get, if_neg (by decide), h]
  dsimp only
  rw [if_pos hs, if_pos (show 0 = bkPail from rfl)]

theorem SnapFailed.of_keeps {T : Touch} {t u : State} {cause : Nat} (h : SnapFailed u t cause) (hk : Keeps T s u) (hr : ∀ a, ¬ T.regs a)
    (hp : u.dev.pendingB = s.dev.pendingB) : SnapFailed s t cause := by
  obtain ⟨hsnap, hpend, hstat, hheld, hcnt, hstate, hcause⟩ := h
  have hreg (p : Page) (o : Nat) : u.reg p o = s.reg p o := hk.reg_eq (hr _)
  refine ⟨hsnap, ?_, hstat, hheld, ?_, hstate, fun hn => hcause ?_⟩
  · rw [hpend, hp, State.stepIndex, State.stepIndex, hk.fld_eq (hr _)]
  · rw [Counts, hcnt, hreg]
  · rwa [hk.fld_eq (hr _)]

/-! ### Commit -/

theorem exec_commit (hi : s.intact = true) (h : s.dev.snap = some n) (hb : n.begun = true) (hu : n.uncopied = []) (hs : n.staged = [])
    (ha : n.unacked = []) (hc : n.committing = false) : Leaves (exec .bucketCommit s) (fun t =>
      t.dev = { s.dev with snap := some { n with committing := true } } ∧ t.fld pgBucket R.bucket_STATUS_SNAP = 2 ∧
      t.holds (s.larder.1 + 0x40 * n.slot) (headerBytes (s.commitHeader n)) ∧
      Keeps { regs := theRegs pgBucket [R.bucket_STATUS_SNAP], mem := inRange (s.larder.1 + 0x40 * n.slot) 0x40,
              links := fun _ => True, dev := True } s t) := by
  have hrun : exec .bucketCommit s = .next ((modSnap (fun n => { n with committing := true })).run ((setFld pgBucket R.bucket_STATUS_SNAP 2).run
      ((sendPartner bkCommit 0 (s.partnerCellar + 0x40 * n.slot) (headerBytes (s.commitHeader n))).run
      ((store (some .bucket) (s.larder.1 + 0x40 * n.slot) (headerBytes (s.commitHeader n))).run s)))) := by
    show execBucketCommit s = _
    rw [execBucketCommit, Prog.next_eq, Prog.run_get, h]
    dsimp only
    rw [if_neg (by simp [hb, hu, hs, ha, hc]), Prog.run_all_cons, Prog.run_all_cons, Prog.run_all_cons, Prog.run_all_cons, Prog.run_all_nil]
  rw [hrun]
  refine Leaves.of_next ?_
  obtain ⟨hdev, hholds, hkeep⟩ := store_effect hi (some .bucket) (s.larder.1 + 0x40 * n.slot) (headerBytes (s.commitHeader n))
  rw [show (headerBytes (s.commitHeader n)).length = 0x40 by simp [headerBytes, length_toLe]] at hkeep
  generalize (store (some .bucket) (s.larder.1 + 0x40 * n.slot) (headerBytes (s.commitHeader n))).run s = u at *
  have hsend := sendPartner_keeps bkCommit 0 (s.partnerCellar + 0x40 * n.slot) (headerBytes (s.commitHeader n)) u
  generalize (sendPartner bkCommit 0 (s.partnerCellar + 0x40 * n.slot) (headerBytes (s.commitHeader n))).run u = v at *
  have hstat : ((setFld pgBucket R.bucket_STATUS_SNAP 2).run v).fld pgBucket R.bucket_STATUS_SNAP = 2 := by simp -implicitDefEqProofs
  have hset : Keeps { regs := theRegs pgBucket [R.bucket_STATUS_SNAP] } v ((setFld pgBucket R.bucket_STATUS_SNAP 2).run v) := Prog.keeps (by simp) v
  generalize (setFld pgBucket R.bucket_STATUS_SNAP 2).run v = w at *
  have hw : w.dev = s.dev := (hset.dev id).trans ((hsend.dev id).trans hdev)
  obtain ⟨hend, hlast⟩ := modSnap_run ((congrArg Device.snap hw).trans h) (fun n => { n with committing := true })
  refine ⟨by rw [hend, hw], (hlast.fld_eq id).trans hstat, State.holds_of_keeps hlast (fun _ => id) (State.holds_of_keeps hset (fun _ => id)
    (State.holds_of_keeps hsend (fun _ => id) hholds)), (((hkeep.mono ?_).trans (hsend.mono ?_)).trans (hset.mono ?_)).trans (hlast.mono ?_)⟩
  all_goals constructor <;> simp

theorem bucketSound_run (s : State) : (bucketSound.run s).fld pgBucket R.STATE_STATE =
    (if s.fld pgBucket R.STATE_STATE = stFault then stEnabled else s.fld pgBucket R.STATE_STATE) ∧
    Keeps { regs := theRegs pgBucket [R.STATE_STATE] } s (bucketSound.run s) := by
  refine ⟨?_, Prog.keeps (by simp [bucketSound, Prog.only_when]) s⟩
  rw [bucketSound, Prog.run_get, Prog.run_when]
  by_cases h : s.fld pgBucket R.STATE_STATE = stFault
  · rw [if_pos (beq_iff_eq.2 h), if_pos h]
    simp -implicitDefEqProofs [stEnabled]
  · rw [if_neg (by rwa [beq_iff_eq]), if_neg h]

/-- What the page shows of a commit before its fault and its hold end. -/
theorem commitShown_run {o : Nat} (ho : o = R.bucket_OWN_A.off ∨ o = R.bucket_OWN_B.off) (x : Word) (s : State) :
    let t := (setFld pgBucket R.bucket_STATUS_SNAP 0).run ((bump pgBucket R.bucket_COMMIT_CNT).run ((setReg pgBucket o x).run s))
    t.reg pgBucket o = x ∧ Counts s t pgBucket R.bucket_COMMIT_CNT 1 ∧ t.fld pgBucket R.bucket_STATUS_SNAP = 0 ∧
    t.fld pgBucket R.STATE_STATE = s.fld pgBucket R.STATE_STATE ∧
    Keeps { regs := theRegs pgBucket [R.bucket_OWN_A, R.bucket_OWN_B, R.bucket_COMMIT_CNT, R.bucket_STATUS_SNAP] } s t := by
  dsimp only
  refine ⟨?_, ?_, ?_, ?_, ((Prog.keeps ?_ s).trans (Prog.keeps (by simp) _)).trans (Prog.keeps (by simp) _)⟩
  all_goals obtain rfl | rfl := ho
  all_goals simp -implicitDefEqProofs [Counts]

theorem exec_commitAck (h : s.dev.snap = some n) (ha : n.acked = true) (hs : n.slot < 2) : Leaves (exec .commitAck s) (fun t =>
    t.dev = { s.dev with snap := none } ∧ (t.reg pgBucket (R.bucket_OWN_A.off + 4 * n.slot)).toNat = n.b % 2 ^ 32 ∧
    Counts s t pgBucket R.bucket_COMMIT_CNT 1 ∧
    t.fld pgBucket R.bucket_STATUS_SNAP = 0 ∧ t.bit pgBucket R.bucket_STATUS_HELD = false ∧
    t.fld pgBucket R.STATE_STATE = (if s.fld pgBucket R.STATE_STATE = stFault then stEnabled else s.fld pgBucket R.STATE_STATE) ∧
    Keeps { regs := theRegs pgBucket [R.bucket_OWN_A, R.bucket_OWN_B, R.bucket_COMMIT_CNT, R.bucket_STATUS_SNAP, R.STATE_STATE],
            dev := True } s t) := by
  have hrun : exec .commitAck s = .next (unhold.run (bucketSound.run ((setFld pgBucket R.bucket_STATUS_SNAP 0).run
      ((bump pgBucket R.bucket_COMMIT_CNT).run ((setReg pgBucket (R.bucket_OWN_A.off + 4 * n.slot) (BitVec.ofNat 32 n.b)).run
      ((modDev (fun d => { d with snap := none })).run s)))))) := by
    show execCommitAck s = _
    rw [execCommitAck, Prog.next_eq, Prog.run_get, h]
    dsimp only
    rw [if_neg (by simp [ha])]
    simp -implicitDefEqProofs only [Prog.run_all_cons, Prog.run_all_nil]
  rw [hrun]
  refine Leaves.of_next ?_
  have hdev : ((modDev (fun d => { d with snap := none })).run s).dev = { s.dev with snap := none } := rfl
  have hkeep : Keeps { dev := True } s ((modDev (fun d => { d with snap := none })).run s) := Prog.keeps (modDev_only (fun _ => trivial) _) s
  generalize (modDev (fun d => { d with snap := none })).run s = u at *
  obtain ⟨hown, hcnt, hsnap, hstate, hpage⟩ := commitShown_run (o := R.bucket_OWN_A.off + 4 * n.slot) (by norm_num; omega) (BitVec.ofNat 32 n.b) u
  generalize (setFld pgBucket R.bucket_STATUS_SNAP 0).run ((bump pgBucket R.bucket_COMMIT_CNT).run
    ((setReg pgBucket (R.bucket_OWN_A.off + 4 * n.slot) (BitVec.ofNat 32 n.b)).run u)) = v at *
  obtain ⟨hsound, hskeep⟩ := bucketSound_run v
  generalize bucketSound.run v = w at *
  have hlast : Keeps { regs := theRegs pgBucket [R.bucket_STATUS_SNAP] } w (unhold.run w) := Prog.keeps (by simp [unhold]) w
  have hheld : (unhold.run w).bit pgBucket R.bucket_STATUS_HELD = false := by simp -implicitDefEqProofs [unhold, State.bit]
  have hsnap' : (unhold.run w).fld pgBucket R.bucket_STATUS_SNAP = w.fld pgBucket R.bucket_STATUS_SNAP := by simp -implicitDefEqProofs [unhold]
  generalize unhold.run w = t at *
  have hback {o : Nat} (h : o ≠ R.bucket_STATUS_SNAP.off) (h' : o ≠ R.STATE_STATE.off) (hf : o < 0x1000) : t.reg pgBucket o = v.reg pgBucket o :=
    (hlast.reg_eq (not_theRegs_apart (by simp [h, hf]))).trans (hskeep.reg_eq (not_theRegs_apart (by simp [h', hf])))
  refine ⟨?_, ?_, ?_, ?_, hheld, ?_, (((hkeep.mono ?_).trans (hpage.mono ?_)).trans (hskeep.mono ?_)).trans (hlast.mono ?_)⟩
  · rw [hlast.dev id, hskeep.dev id, hpage.dev id, hdev]
  · have hoff : R.bucket_OWN_A.off + 4 * n.slot = 0x70 + 4 * n.slot := rfl
    rw [hback (o := R.bucket_OWN_A.off + 4 * n.slot) (fun e => by
        have : 0x70 + 4 * n.slot = 0x60 := e
        omega) (fun e => by
        have : 0x70 + 4 * n.slot = 0xC := e
        omega) (by rw [hoff]; omega), hown, BitVec.toNat_ofNat]
  · rw [Counts, hback (by decide) (by decide) (by decide), hcnt, hkeep.reg_eq id]
  · rw [hsnap', hskeep.fld_eq (not_theRegs_offset (by decide) _), hsnap]
  · rw [hlast.fld_eq (not_theRegs_offset (by decide) _), hsound, hstate, hkeep.fld_eq id]
  · constructor <;> simp
  all_goals
    constructor
    case regs => exact theRegs_mono (by simp)
    all_goals simp

/-! ### Restores -/

theorem restoreFails_run {cause addr : Nat} (hc : cause < 2 ^ R.FAULT_CAUSE.width) (s : State) :
    let t := (restoreFails cause addr).run s
    t.fld pgBucket R.bucket_STATUS_REST = 5 ∧ t.dev = { s.dev with restore := none } ∧ Faults s t pgBucket cause ∧
    Keeps { regs := theRegs pgBucket (R.bucket_STATUS_REST :: faultRegs), dev := True } s t := by
  rw [restoreFails, Prog.run_all_cons, Prog.run_all_cons, Prog.run_all_cons, Prog.run_all_nil]
  have hdev : ((modDev (fun d => { d with restore := none })).run s).dev = { s.dev with restore := none } := rfl
  have hkeep : Keeps { dev := True } s ((modDev (fun d => { d with restore := none })).run s) := Prog.keeps (modDev_only (fun _ => trivial) _) s
  generalize (modDev (fun d => { d with restore := none })).run s = u at *
  have hrest : ((setFld pgBucket R.bucket_STATUS_REST 5).run u).fld pgBucket R.bucket_STATUS_REST = 5 := by simp -implicitDefEqProofs
  have hset : Keeps { regs := theRegs pgBucket [R.bucket_STATUS_REST] } u ((setFld pgBucket R.bucket_STATUS_REST 5).run u) := Prog.keeps (by simp) u
  generalize (setFld pgBucket R.bucket_STATUS_REST 5).run u = v at *
  obtain ⟨hstate, hcause⟩ := pageFault_run_faults pgBucket hc addr v
  have hlast : Keeps { regs := theRegs pgBucket faultRegs } v ((pageFault pgBucket cause addr).run v) := Prog.keeps (by simp [faultRegs]) v
  refine ⟨(hlast.fld_eq (not_theRegs_offset (by decide) _)).trans hrest, by rw [hlast.dev id, hset.dev id, hdev], ⟨hstate, fun hn => hcause ?_⟩,
    ((hkeep.mono ?_).trans (hset.mono ?_)).trans (hlast.mono ?_)⟩
  · rwa [hset.fld_eq (not_theRegs_offset (by decide) _), hkeep.fld_eq id]
  · constructor <;> simp
  all_goals
    constructor
    case regs => exact theRegs_mono (by simp)
    all_goals simp

theorem slotRead_run (hi : s.intact = true) (base n slot : Nat) (go : Prog) : (slotRead base n slot go).run s = go.run s := by
  rw [slotRead, Prog.run_all_cons, Prog.run_all_cons, Prog.run_all_nil, readAll_run hi, Prog.run_get]
  rw [List.find?_eq_none.2 fun k _ => by rw [deadAt_intact hi]; exact Bool.false_ne_true]

theorem restoreEnds_run (s : State) :
    let t := (Prog.all [modDev (fun d => { d with restore := none }), setFld pgBucket R.bucket_STATUS_REST 0]).run s
    t.dev = { s.dev with restore := none } ∧ t.fld pgBucket R.bucket_STATUS_REST = 0 ∧
    Keeps { regs := theRegs pgBucket [R.bucket_STATUS_REST], dev := True } s t := by
  rw [Prog.run_all_cons, Prog.run_all_cons, Prog.run_all_nil]
  refine ⟨rfl, by simp -implicitDefEqProofs, (Prog.keeps (modDev_only (fun _ => trivial) _) s).trans (Prog.keeps (by simp) _)⟩

theorem Leaves.bucketWrite {r : Instr} {p : Prog} {Q : State → Prop} (hx : exec r s = Prog.next (regWrite .host pgBucket R.bucket_CMD_OP.off p) s)
    (h : s.reaches .host pgBucket) (hq : Q (p.run s)) : Leaves (exec r s) Q := by
  rw [hx, Prog.next_eq, regWrite_reaches h]
  exact Leaves.of_next hq

/-- A device that takes a restore notes which. -/
theorem restoring_run (rest : Nat) (hr : rest < 8) (x : Restore) (s : State) :
    let t := (Prog.all [setFld pgBucket R.bucket_STATUS_REST rest, modDev (fun d => { d with restore := some x })]).run s
    t.fld pgBucket R.bucket_STATUS_REST = rest ∧ t.dev = { s.dev with restore := some x } := by
  have := Nat.mod_eq_of_lt hr
  rw [Prog.run_all_cons, Prog.run_all_cons, Prog.run_all_nil]
  exact ⟨by simp -implicitDefEqProofs [modDev, this], rfl⟩

/-- The restore an OP 2 command begins. -/
def State.localRestore (s : State) (slot : Nat) : Restore :=
  let h := s.header (s.larder.1 + 0x40 * slot)
  { kind := 1, slot := slot, b := h.step, want := h.digest,
    digest := (List.range s.slotPails.length).foldl (fun (a : BitVec 128) k =>
      a + s.pailDigest k (s.bytes (slotAddr s.larder.1 s.slotPails.length slot k) pailSize)) 0 }

/-- The slot's pails go to their places. -/
def putsPails (s : State) (slot : Nat) : Prog :=
  Prog.each (List.zip s.slotPails (List.range s.slotPails.length)) (fun x =>
    store (some .bucket) (x.1 * pailSize) (s.bytes (slotAddr s.larder.1 s.slotPails.length slot x.2) pailSize))

theorem bucketLocal_eq (hi : s.intact = true) (hm : s.mayRestore = true) {slot : Nat}
    (hh : s.headerOk (s.header (s.larder.1 + 0x40 * slot)) = true) :
    (bucketLocal slot).run s = (modDev (fun d => { d with restore := some (s.localRestore slot) })).run
      ((putsPails s slot).run ((setFld pgBucket R.bucket_STATUS_REST 1).run s)) := by
  rw [bucketLocal, Prog.run_get]
  dsimp only
  rw [if_neg (by simp [hm]), if_neg (by simp [hh]), slotRead_run hi, Prog.run_get, Prog.run_all_cons, Prog.run_all_cons, Prog.run_all_cons,
    Prog.run_all_nil]
  rfl

theorem putsPails_run {u : State} (hi : u.intact = true) (s : State) (slot : Nat) :
    ((putsPails s slot).run u).dev = u.dev ∧ Keeps { mem := fun _ => True } u ((putsPails s slot).run u) := by
  obtain ⟨hdev, hkeep⟩ := stores_effect (fun _ : Nat × Nat => some Source.bucket) (fun x => x.1 * pailSize)
    (fun x => s.bytes (slotAddr s.larder.1 s.slotPails.length slot x.2) pailSize) (List.zip s.slotPails (List.range s.slotPails.length)) hi
  exact ⟨hdev, hkeep.mono (by constructor <;> simp)⟩

theorem bucketLocal_run (hi : s.intact = true) (hm : s.mayRestore = true) {slot : Nat}
    (hh : s.headerOk (s.header (s.larder.1 + 0x40 * slot)) = true) :
    let t := (bucketLocal slot).run s
    let h := s.header (s.larder.1 + 0x40 * slot)
    t.fld pgBucket R.bucket_STATUS_REST = 1 ∧
    ∃ x, t.dev = { s.dev with restore := some x } ∧ x.kind = 1 ∧ x.slot = slot ∧ x.b = h.step ∧ x.want = h.digest := by
  dsimp only
  rw [bucketLocal_eq hi hm hh]
  have hrest : ((setFld pgBucket R.bucket_STATUS_REST 1).run s).fld pgBucket R.bucket_STATUS_REST = 1 := by simp -implicitDefEqProofs
  have hset : Keeps { regs := theRegs pgBucket [R.bucket_STATUS_REST] } s ((setFld pgBucket R.bucket_STATUS_REST 1).run s) := Prog.keeps (by simp) s
  generalize (setFld pgBucket R.bucket_STATUS_REST 1).run s = u at *
  obtain ⟨hdev, hkeep⟩ := putsPails_run (intact_of_keeps hset id hi) s slot
  generalize (putsPails s slot).run u = v at *
  refine ⟨(hkeep.fld_eq id).trans hrest, s.localRestore slot, ?_, rfl, rfl, rfl, rfl⟩
  show { v.dev with restore := some (s.localRestore slot) } = _
  rw [hdev, hset.dev id]

theorem bucketAccept_run (hm : s.mayRestore = true) {slot : Nat} {p : Peer} {h : SlotHeader} (hp : s.dev.partner = some p)
    (hslot : p.headers[slot]? = some h) (hh : s.headerOk h = true) :
    let t := (bucketAccept slot).run s
    t.fld pgBucket R.bucket_STATUS_REST = 3 ∧
    ∃ x, t.dev = { s.dev with restore := some x } ∧ x.kind = 3 ∧ x.slot = slot ∧ x.b = h.step ∧ x.want = h.digest := by
  have hget : (s.dev.partner.bind (fun p => p.headers[slot]?)).getD ⟨0, 0, 0, 0, 0, 0⟩ = h := by rw [hp, Option.bind_some, hslot, Option.getD_some]
  dsimp only
  rw [bucketAccept, Prog.run_get, hget]
  dsimp only
  rw [if_neg (by simp [hm]), if_neg (by simp [hh])]
  obtain ⟨hrest, hdev⟩ := restoring_run 3 (by decide)
    { kind := 3, slot := slot, b := h.step, want := h.digest, left := List.range s.slotPails.length } s
  exact ⟨hrest, _, hdev, rfl, rfl, rfl, rfl⟩

theorem bucketLocal_fails (hm : s.mayRestore = true) {slot : Nat} (hh : s.headerOk (s.header (s.larder.1 + 0x40 * slot)) = false) :
    (bucketLocal slot).run s = (restoreFails 6 0).run s := by
  rw [bucketLocal, Prog.run_get]
  dsimp only
  rw [if_neg (by simp [hm]), if_pos (by simp [hh])]

theorem bucketAccept_fails (hm : s.mayRestore = true) {slot : Nat} {p : Peer} {h : SlotHeader} (hp : s.dev.partner = some p)
    (hslot : p.headers[slot]? = some h) (hh : s.headerOk h = false) : (bucketAccept slot).run s = (restoreFails 6 0).run s := by
  rw [bucketAccept, Prog.run_get]
  dsimp only
  rw [if_neg (by simp [hm]), hp, Option.bind_some, hslot, Option.getD_some, if_pos (by simp [hh])]

theorem sendBucket_only {T : Touch} (h : ∀ l, T.links l) (port dev what k addr : Nat) (bs : List Byte) :
    (sendBucket port dev what k addr bs).Only T.allows := by
  intro t
  dsimp only
  split
  · trivial
  · simp [h]

/-- The restore an OP 3 command begins. -/
def State.servedRestore (s : State) (slot : Nat) (w : Peer) : Restore :=
  let h := s.header (s.cellar.1 + 0x40 * slot)
  { kind := 2, slot := slot, b := h.step, want := h.digest, left := List.range w.set.length }

/-- The cellar slot's pails go to the ward. -/
def servesPails (s : State) (slot : Nat) (w : Peer) : Prog :=
  Prog.each (List.zip w.set (List.range w.set.length)) (fun x =>
    sendBucket (s.fld pgBucket R.bucket_CFG_WARD_PORT) (s.fld pgBucket R.bucket_PEERS_WARD_DEV) bkServe x.2 (x.1 * pailSize)
      (s.bytes (slotAddr s.cellar.1 w.set.length slot x.2) pailSize))

theorem bucketServe_eq (hi : s.intact = true) (hm : s.mayRestore = true) {w : Peer} (hw : s.dev.ward = some w) (slot : Nat) :
    (bucketServe slot).run s = (servesPails s slot w).run ((modDev (fun d => { d with restore := some (s.servedRestore slot w) })).run
      ((setFld pgBucket R.bucket_STATUS_REST 2).run s)) := by
  rw [bucketServe, Prog.run_get, hw]
  dsimp only
  rw [if_neg (by simp [hm]), slotRead_run hi, Prog.run_get, Prog.run_all_cons, Prog.run_all_cons, Prog.run_all_cons, Prog.run_all_nil]
  rfl

theorem bucketServe_run (hi : s.intact = true) (hm : s.mayRestore = true) {w : Peer} (hw : s.dev.ward = some w) (slot : Nat) :
    let t := (bucketServe slot).run s
    t.fld pgBucket R.bucket_STATUS_REST = 2 ∧
    (∃ x, t.dev = { s.dev with restore := some x } ∧ x.kind = 2 ∧ x.slot = slot ∧ x.left = List.range w.set.length) ∧
    Keeps { regs := theRegs pgBucket [R.bucket_STATUS_REST], links := fun _ => True, dev := True } s t := by
  dsimp only
  rw [bucketServe_eq hi hm hw]
  have hrest : ((setFld pgBucket R.bucket_STATUS_REST 2).run s).fld pgBucket R.bucket_STATUS_REST = 2 := by simp -implicitDefEqProofs
  have hset : Keeps { regs := theRegs pgBucket [R.bucket_STATUS_REST] } s ((setFld pgBucket R.bucket_STATUS_REST 2).run s) := Prog.keeps (by simp) s
  generalize (setFld pgBucket R.bucket_STATUS_REST 2).run s = u at *
  have hdev : ((modDev (fun d => { d with restore := some (s.servedRestore slot w) })).run u).dev =
    { u.dev with restore := some (s.servedRestore slot w) } := rfl
  have hmod : Keeps { dev := True } u ((modDev (fun d => { d with restore := some (s.servedRestore slot w) })).run u) :=
    Prog.keeps (modDev_only (fun _ => trivial) _) u
  generalize (modDev (fun d => { d with restore := some (s.servedRestore slot w) })).run u = v at *
  have hsend : Keeps { links := fun _ => True } v ((servesPails s slot w).run v) :=
    Prog.keeps ((Prog.only_each ..).2 fun _ _ => sendBucket_only (fun _ => trivial) _ _ _ _ _ _) v
  refine ⟨(hsend.fld_eq id).trans ((hmod.fld_eq id).trans hrest), ⟨s.servedRestore slot w, ?_, rfl, rfl, rfl⟩,
    ((hset.mono ?_).trans (hmod.mono ?_)).trans (hsend.mono ?_)⟩
  · rw [hsend.dev id, hdev, hset.dev id]
  all_goals constructor <;> simp

theorem stewardRestores_run (b : Nat) (s : State) :
    let t := (stewardRestores b).run s
    t.dev.restore = s.dev.restore ∧ t.reg pgNum R.numstep_STEP_INDEX.off = BitVec.ofNat 32 b ∧
    t.reg pgBucket R.bucket_B_LAST.off = BitVec.ofNat 32 b := by
  refine ⟨congrArg StartView.restore (looks_run (v := startView) (fun d => ?_) s), ?_, ?_⟩
  · refine (Prog.safe_get _).2 fun u _ => ?_
    simp only [Prog.safe_all_cons exists_looks, Prog.safe_all_nil, and_true, setReg_looks]
    refine ⟨(Prog.safe_each exists_looks ..).2 fun i _ => ?_, modDev_looks fun _ => rfl⟩
    simp
  all_goals
    rw [stewardRestores, Prog.run_get]
    simp -implicitDefEqProofs only [Prog.run_all_cons, Prog.run_all_nil]
    simp -implicitDefEqProofs


theorem exec_restoreDone {x : Restore} (h : s.dev.restore = some x) (hl : x.left = []) : exec .restoreDone s = .next (
    (if x.kind = 2 then Prog.all [modDev (fun d => { d with restore := none }), setFld pgBucket R.bucket_STATUS_REST 0]
     else if x.digest ≠ x.want then restoreFails 5 0
     else .all [modDev (fun d => { d with restore := none }), stewardRestores x.b, setFld pgBucket R.bucket_STATUS_REST 4, bucketSound]).run s) := by
  show execRestoreDone s = _
  rw [execRestoreDone, Prog.next_eq, Prog.run_get, h]
  dsimp only
  rw [if_neg (by simp [hl])]

theorem restored_run (b : Nat) (s : State) :
    let t := (Prog.all [modDev (fun d => { d with restore := none }), stewardRestores b, setFld pgBucket R.bucket_STATUS_REST 4, bucketSound]).run s
    t.dev.restore = none ∧ t.fld pgBucket R.bucket_STATUS_REST = 4 ∧ t.stepIndex = b % 2 ^ 32 ∧
    t.fld pgBucket R.bucket_B_LAST = b % 2 ^ 32 ∧ t.fld pgBucket R.STATE_STATE ≠ stFault := by
  rw [Prog.run_all_cons, Prog.run_all_cons, Prog.run_all_cons, Prog.run_all_cons, Prog.run_all_nil]
  obtain ⟨hnone, hstep, hlast⟩ := stewardRestores_run b ((modDev (fun d => { d with restore := none })).run s)
  rw [show ((modDev (fun d => { d with restore := none })).run s).dev.restore = none from rfl] at hnone
  generalize (stewardRestores b).run ((modDev (fun d => { d with restore := none })).run s) = u at *
  have hrest : ((setFld pgBucket R.bucket_STATUS_REST 4).run u).fld pgBucket R.bucket_STATUS_REST = 4 := by simp -implicitDefEqProofs
  have hset : Keeps { regs := theRegs pgBucket [R.bucket_STATUS_REST] } u ((setFld pgBucket R.bucket_STATUS_REST 4).run u) := Prog.keeps (by simp) u
  generalize (setFld pgBucket R.bucket_STATUS_REST 4).run u = v at *
  obtain ⟨hstate, hkeep⟩ := bucketSound_run v
  generalize bucketSound.run v = t at *
  refine ⟨by rw [hkeep.dev id, hset.dev id, hnone], (hkeep.fld_eq (not_theRegs_offset (by decide) _)).trans hrest, ?_, ?_, ?_⟩
  · rw [State.stepIndex, hkeep.fld_eq (not_theRegs_apart (by simp)), hset.fld_eq (not_theRegs_apart (by simp)), ← Fld.of_reg rfl, Fld.of_whole rfl rfl, hstep, BitVec.toNat_ofNat]
  · rw [hkeep.fld_eq (not_theRegs_offset (by decide) _), hset.fld_eq (not_theRegs_offset (by decide) _), ← Fld.of_reg rfl, Fld.of_whole rfl rfl, hlast, BitVec.toNat_ofNat]
  · rw [hstate]
    split
    · decide
    next h => exact h

theorem exec_exchange (l : LinkId) (s : State) : exec (.bucketExchange l) s = .next ((emit (.exchangeAnswer l.val s.ownPeer)).run s) := rfl

/-- Settles O31: what a snapshot's pails, its commit and the commands of the Bucket page do, and how a restore ends. -/
theorem snapshotsAndRestoresProceed : Obligations.SnapshotsAndRestoresProceed := by
  unfold Obligations.SnapshotsAndRestoresProceed
  refine ⟨fun s n hi h => ⟨fun k bs rest hb hs => exec_pailCopy_staged hi h hb hs, fun k rest hb hs hu hh => exec_pailCopy_next hi h hb hs hu hh,
    fun x k hh hw hs => exec_touchRelease hi h hh hw hs, fun k p hp => ?_, fun k dev queue tag epoch inc status ha => ⟨?_, ?_⟩,
    fun hb hu hs ha hc => exec_commit hi h hb hu hs ha hc, fun ha hs => exec_commitAck h ha hs⟩, ?_, ?_, ?_, ?_, ?_, ?_, ?_, ?_⟩
  · rw [exec_pailTimeout h hp]
    exact Leaves.of_next (snapFail_run _ hi h (by decide))
  · rintro rfl
    rw [exec_pailAck ha]
    refine Leaves.of_next ?_
    obtain ⟨hdev, hkeep⟩ := takesAck_run k s
    generalize (takesAck k).run s = u at *
    have hu : u.dev.snap = some n := (congrArg Device.snap hdev).trans h
    rw [show (0 : BitVec 4).toNat = 0 from rfl, bucketAck_acknowledges hu]
    obtain ⟨hend, hlast⟩ := modSnap_run hu (fun n => { n with unacked := n.unacked.filter (· != queue.toNat + tag.toNat * 2 ^ 14) })
    exact ⟨by rw [hend, hdev], hkeep.trans hlast⟩
  · intro hs
    rw [exec_pailAck ha]
    refine Leaves.of_next ?_
    obtain ⟨hdev, hkeep⟩ := takesAck_run k s
    generalize (takesAck k).run s = u at *
    have hiu : u.intact = true := by
      rw [State.intact, hdev]
      exact hi
    have hu : u.dev.snap = some n := (congrArg Device.snap hdev).trans h
    rw [bucketAck_fails hu _ (fun e => hs (BitVec.eq_of_toNat_eq e))]
    have hst : (if status.toNat = 7 then 2 else 3) = if status = 7 then 2 else 3 := by
      congr 1
      exact propext ⟨fun e => BitVec.eq_of_toNat_eq e, fun e => congrArg BitVec.toNat e⟩
    rw [hst]
    exact (snapFail_run _ hiu hu (by split <;> decide)).of_keeps hkeep (fun _ => id) (by rw [hdev])
  · intro s hr he
    refine Leaves.bucketWrite rfl hr ?_
    rw [bucketRequest, Prog.run_get, if_neg (by simp [he])]
    obtain ⟨hflood, hdev⟩ := askSnapshot_run (s.stepIndex + 2) s
    refine ⟨hdev he, hflood, Prog.keeps (p := askSnapshot (s.stepIndex + 2)) ?_ s⟩
    simp +contextual [askSnapshot, flood, Prog.only_when]
  · intro s hr he
    refine Leaves.bucketWrite rfl hr ?_
    rw [bucketRequest, Prog.run_get, if_pos (by simp [he])]
    exact ignored_run ..
  · intro s r rest kind h slot hr hm hcase
    obtain ⟨rfl, rfl, rfl, rfl, hi⟩ | ⟨rfl, rfl, rfl, p, hp, hslot⟩ := hcase
    · refine ⟨fun hs ho => Leaves.bucketWrite rfl hr ?_, fun hno => Leaves.bucketWrite rfl hr ?_⟩
      · exact bucketLocal_run hi hm (by simp [State.headerOk, hs, ho])
      · rw [bucketLocal_fails hm (by simpa [State.headerOk] using hno)]
        exact restoreFails_run (by decide) s
    · refine ⟨fun hs ho => Leaves.bucketWrite rfl hr ?_, fun hno => Leaves.bucketWrite rfl hr ?_⟩
      · exact bucketAccept_run hm hp hslot (by simp [State.headerOk, hs, ho])
      · rw [bucketAccept_fails hm hp hslot (by simpa [State.headerOk] using hno)]
        exact restoreFails_run (by decide) s
  · intro s slot w hr hm hw hi
    exact Leaves.bucketWrite rfl hr (bucketServe_run hi hm hw slot.val)
  · intro s hr hm
    refine Leaves.bucketWrite rfl hr ?_
    rw [bucketAbort, Prog.run_get, if_neg (by simp [hm])]
    exact restoreEnds_run s
  · intro s hr hm
    refine Leaves.bucketWrite rfl hr ?_
    rw [bucketAbort, Prog.run_get, if_pos (by simp [hm])]
    exact ignored_run ..
  · intro s x h hl
    rw [exec_restoreDone h hl]
    refine ⟨fun hk => Leaves.of_next ?_, fun hk hd => Leaves.of_next ?_, fun hk hd => Leaves.of_next ?_⟩
    · rw [if_pos hk]
      exact restoreEnds_run s
    · rw [if_neg hk, if_pos hd]
      obtain ⟨hrest, hdev, hfault, hkeep⟩ := restoreFails_run (cause := 5) (addr := 0) (by decide) s
      exact ⟨hdev, hrest, hfault, hkeep⟩
    · rw [if_neg hk, if_neg (not_not_intro hd)]
      exact restored_run x.b s
  · intro s l
    rw [exec_exchange]
    exact Leaves.of_next ⟨rfl, Prog.keeps (T := { out := True }) ((emit_only _).2 trivial) s⟩

end Sys2Proof.Machine
end

open Host
section
/-! SUPPORT. What the work of one unit leaves of a croft's record (R57, R213, R216). -/
namespace Sys2Proof.Machine

/-- A croft's record but for its reeve. -/
def Croft.units (k : Croft) : Croft := { k with reeve := {} }

/-- The record of croft `c` is that of `k`, but for its reeve. -/
def unitsAre (c : Nat) (k : Croft) (s : State) : Prop := (s.croft c).units = k.units

variable {p : Prog} {c : Nat} {k : Croft}

@[simp] theorem exists_units : ∃ s, unitsAre c k s := by
  refine ⟨{ State.reset with crofts := [(c, k)] }, ?_⟩
  simp [unitsAre, State.croft, Sparse.get?]

theorem units_run (h : ∀ k, p.Safe (unitsAre c k)) (s : State) : ((p.run s).croft c).units = (s.croft c).units := (h (s.croft c)).run rfl

theorem Prog.units_of_only {T : Touch} (h : p.Only T.allows) (hc : ¬ T.crofts c) : p.Safe (unitsAre c k) := by
  induction p with
  | done => exact Prog.safe_done
  | act a f ih =>
    have hkeep : ∀ s, unitsAre c k s → unitsAre c k (a.apply s) := fun s hs => by
      have := (Prog.keeps (p := eff a) ((Prog.only_eff _).2 h.1) s).crofts c hc
      exact (congrArg Croft.units this).trans hs
    exact (Prog.safe_act ..).2 ⟨hkeep, ih h.2⟩
  | get f ih => exact (Prog.safe_get f).2 fun s _ => ih s (h s)

section
variable (c k)

@[simp] theorem setReg_units (p : Page) (o : Nat) (v : Word) : (setReg p o v).Safe (unitsAre c k) := (Prog.safe_eff _).2 fun _ hs => hs
@[simp] theorem setFld_units (p : Page) (f : Fld) (n : Nat) : (setFld p f n).Safe (unitsAre c k) := (Prog.safe_get _).2 fun _ _ => setReg_units ..
@[simp] theorem setBit_units (p : Page) (f : Fld) (b : Bool) : (setBit p f b).Safe (unitsAre c k) := setFld_units c k p f _
@[simp] theorem bumpBy_units (p : Page) (f : Fld) (n : Nat) : (bumpBy p f n).Safe (unitsAre c k) := (Prog.safe_get _).2 fun _ _ => setReg_units ..
@[simp] theorem bump_units (p : Page) (f : Fld) : (bump p f).Safe (unitsAre c k) := bumpBy_units c k p f 1
@[simp] theorem modDev_units (f : Device → Device) : (modDev f).Safe (unitsAre c k) := (Prog.safe_get _).2 fun _ _ => (Prog.safe_eff _).2 fun _ hs => hs
@[simp] theorem modLink_units (l : Nat) (f : Link → Link) : (modLink l f).Safe (unitsAre c k) :=
  (Prog.safe_get _).2 fun _ _ => (Prog.safe_eff _).2 fun _ hs => hs
@[simp] theorem sendFlits_units (l key : Nat) (fs : List Flit) : (sendFlits l key fs).Safe (unitsAre c k) := modLink_units c k l _
@[simp] theorem eff_seq_units : (eff .seq).Safe (unitsAre c k) := (Prog.safe_eff _).2 fun _ hs => hs
@[simp] theorem eff_bytes_units (a : Nat) (bs : List Byte) : (eff (.bytes a bs)).Safe (unitsAre c k) := (Prog.safe_eff _).2 fun _ hs => hs
@[simp] theorem tellWatch_units (i : Nat) : (tellWatch i).Safe (unitsAre c k) := modDev_units c k _
@[simp] theorem stepEnds_units : stepEnds.Safe (unitsAre c k) := modDev_units c k _
@[simp] theorem raiseLine_units (p : Page) : (raiseLine p).Safe (unitsAre c k) := Prog.units_of_only (T := { regs := p.covers }) (by simp) id
@[simp] theorem pageFault_units (p : Page) (cause addr : Nat) : (pageFault p cause addr).Safe (unitsAre c k) :=
  Prog.units_of_only (T := { regs := p.covers }) (by simp) id

/-- A reeve's own record is none of its units'. -/
@[simp] theorem modReeve_units (j : Nat) (f : Reeve → Reeve) : (modReeve j f).Safe (unitsAre c k) := by
  refine (Prog.safe_get _).2 fun s hs => ?_
  by_cases h : j = c
  · subst h
    refine (Prog.safe_eff _).2 fun t _ => ?_
    rw [unitsAre, Act.apply_croft_croft_at]
    exact (congrArg Croft.units (if_pos rfl)).trans hs
  · refine (Prog.safe_eff _).2 fun t ht => ?_
    rw [unitsAre, Act.apply_croft_croft_at]
    exact (congrArg Croft.units (if_neg (Ne.symm h))).trans ht

@[simp] theorem setWait_units (j : Nat) (w : Wait) : (setWait j w).Safe (unitsAre c k) := modReeve_units c k j _
@[simp] theorem dropOrder_units (j n : Nat) : (dropOrder j n).Safe (unitsAre c k) := modReeve_units c k j _

@[simp] theorem haltReq_units (j reason : Nat) : (haltReq j reason).Safe (unitsAre c k) := by
  refine (Prog.safe_get _).2 fun s _ => iteInduction (motive := Prog.Safe _) (fun _ => Prog.safe_done) fun _ => ?_
  split <;> simp

@[simp] theorem flood_units (m : StewMsg) (skip : Option Nat) : (flood m skip).Safe (unitsAre c k) := by simp [flood]
@[simp] theorem haltAll_units (reason : Nat) : (haltAll reason).Safe (unitsAre c k) := by simp [haltAll]
@[simp] theorem fallBack_units (j layer kind : Nat) : (fallBack j layer kind).Safe (unitsAre c k) := by
  simp [fallBack, repeatExceeded, abandon, abandonHere, countHalted, raiseAlarm]
@[simp] theorem reportOvf_units (j layer : Nat) (b : Bool) (o : Option Nat) : (reportOvf j layer b o).Safe (unitsAre c k) := by simp [reportOvf]
@[simp] theorem orderHalt_units (j idx engine : Nat) : (orderHalt j idx engine).Safe (unitsAre c k) := by simp [orderHalt]
@[simp] theorem orderFault_units (j idx engine : Nat) : (orderFault j idx engine).Safe (unitsAre c k) := by simp [orderFault]
@[simp] theorem trap_units (j cause : Nat) (t : TrapAt) : (trap j cause t).Safe (unitsAre c k) := by simp [trap, latchBell]
@[simp] theorem countConv_units (j : Nat) (x : Conv) : (countConv j x).Safe (unitsAre c k) := by simp [countConv]

end

/-! ### Frames -/

variable {T : Touch}

theorem trap_only (hp : ∀ o < 0x1000, onReg T.regs (pgCroft c) o) (hr : onReg T.regs (pgReeve c) R.reeve_STATUS_RUNNING.off) (hc : T.crofts c)
    (cause : Nat) (t : TrapAt) : (trap c cause t).Only T.allows := by
  intro s
  simp only [Prog.only_all_cons, Prog.only_all_nil, and_true, bump_allows, raiseLine_allows, Prog.only_when, haltReq_allows]
  refine ⟨hp _ (by decide), iteInduction (motive := Prog.Only _) (fun _ => ?_) fun _ => ?_, hp _ (by decide), fun _ => ⟨hr, hc⟩⟩
  · exact (setFld_allows ..).2 (hp _ (by decide))
  · simp [latchBell, hp]

theorem reportOvf_only (hn : ∀ o < 0x1000, onReg T.regs pgNum o) (hr : ∀ j, onReg T.regs (pgReeve j) R.reeve_STATUS_RUNNING.off)
    (hc : ∀ j, T.crofts j) (hd : T.dev) (hl : ∀ l, T.links l) (layer : Nat) (b : Bool) (o : Option Nat) :
    (reportOvf c layer b o).Only T.allows := by
  simp only [reportOvf, fallBack, Prog.only_all_cons, Prog.only_all_nil, and_true, modReeve_allows, bump_allows, modDev_allows, Prog.only_get,
    setFld_allows, tellWatch_allows]
  refine ⟨hc _, hn _ (by decide), hd, fun _ => hn _ (by decide), hn _ (by decide), hn _ (by decide), hn _ (by decide), hn _ (by decide), hd,
    fun s => iteInduction (motive := Prog.Only _) (fun _ => trivial) fun _ => iteInduction (motive := Prog.Only _) (fun _ => ?_) fun _ => ?_⟩
  · simp [repeatExceeded, haltAll, raiseAlarm, flood, hn, hr, hc, hl]
  · simp [abandon, abandonHere, haltAll, countHalted, raiseAlarm, flood, Prog.only_when, hn, hr, hc, hd, hl]

end Sys2Proof.Machine
end

open Host
section
/-! SUPPORT. Programs that only write memory (R31, R167). -/
namespace Sys2Proof.Machine

/-- While memory holds its code words the program writes bytes and does nothing else. -/
structure Prog.writesOnly (p : Prog) : Prop where
  keeps : ∀ s : State, s.intact = true → Keeps { mem := fun _ => True } s (p.run s)

variable {s : State}

theorem Prog.writesOnly.intact {p : Prog} (h : p.writesOnly) (hi : s.intact = true) : (p.run s).intact = true := intact_of_keeps (h.keeps s hi) id hi

theorem Prog.writesOnly_done : Prog.done.writesOnly := ⟨fun s _ => Keeps.refl _ s⟩

theorem Prog.writesOnly_all {ps : List Prog} (h : ∀ p ∈ ps, p.writesOnly) : (Prog.all ps).writesOnly := by
  induction ps with
  | nil => exact writesOnly_done
  | cons p ps ih =>
    obtain ⟨hp, hps⟩ := List.forall_mem_cons.1 h
    refine ⟨fun s hi => ?_⟩
    rw [Prog.run_all_cons]
    exact (hp.keeps s hi).trans ((ih hps).keeps _ (hp.intact hi))

theorem Prog.writesOnly_each {α : Type} {l : List α} {f : α → Prog} (h : ∀ x ∈ l, (f x).writesOnly) : (Prog.each l f).writesOnly :=
  writesOnly_all (List.forall_mem_map.2 h)

theorem Prog.writesOnly_when {b : Bool} {p : Prog} (h : b = true → p.writesOnly) : (Prog.when b p).writesOnly := by
  cases b
  · exact writesOnly_done
  · exact h rfl

theorem Prog.writesOnly_get {f : State → Prog} (h : ∀ s, (f s).writesOnly) : (Prog.get f).writesOnly := ⟨fun s hi => (h s).keeps s hi⟩

theorem store_writesOnly (src : Option Source) (a : Nat) (bs : List Byte) : (store src a bs).writesOnly :=
  ⟨fun _ hi => (store_effect hi src a bs).2.2.mono (by constructor <;> simp)⟩

theorem storeLe_writesOnly (src : Option Source) (a n v : Nat) : (storeLe src a n v).writesOnly := store_writesOnly ..

theorem storeCodes_writesOnly (src : Option Source) (c base : Nat) (f : Fmt) (total i : Nat) (codes : List Nat) :
    (storeCodes src c base f total i codes).writesOnly := store_writesOnly ..

theorem storeScales_writesOnly (src : Option Source) (c base total b : Nat) (scales : List Nat) :
    (storeScales src c base total b scales).writesOnly := store_writesOnly ..

theorem storePeels_writesOnly (src : Option Source) (c : Nat) (t : TRef) (n : Nat) (ps : List (Nat × Nat)) :
    (storePeels src c t n ps).writesOnly := by
  unfold storePeels
  split
  · refine Prog.writesOnly_all (List.forall_mem_cons.2 ⟨Prog.writesOnly_each fun _ _ => storeLe_writesOnly .., ?_⟩)
    exact List.forall_mem_singleton.2 (storeLe_writesOnly ..)
  · exact Prog.writesOnly_done

theorem updateRecord_writesOnly (src : Option Source) (c o : Nat) (f : Fmt) (amax : Val) (corrected : Bool) :
    (updateRecord src c o f amax corrected).writesOnly := by
  refine Prog.writesOnly_get fun s => Prog.writesOnly_all ?_
  simp only [List.forall_mem_cons, List.not_mem_nil, false_imp_iff, implies_true, and_true]
  refine ⟨storeLe_writesOnly .., storeLe_writesOnly .., Prog.writesOnly_get fun s => Prog.writesOnly_all ?_⟩
  simp only [List.forall_mem_cons, List.not_mem_nil, false_imp_iff, implies_true, and_true]
  exact ⟨storeLe_writesOnly .., storeLe_writesOnly .., storeLe_writesOnly .., Prog.writesOnly_when fun _ => storeLe_writesOnly ..⟩

theorem writeStretch_writesOnly (src : Option Source) (c : Nat) (o : MillOut) (i0 peel0 : Nat) (k : Conv) :
    (writeStretch src c o i0 peel0 k).writesOnly := by
  refine Prog.writesOnly_all ?_
  simp only [List.forall_mem_cons, List.not_mem_nil, false_imp_iff, implies_true, and_true]
  refine ⟨?_, Prog.writesOnly_when fun _ => storeScales_writesOnly .., storePeels_writesOnly ..⟩
  split
  · exact Prog.writesOnly_each fun _ _ => storeCodes_writesOnly ..
  · exact storeCodes_writesOnly ..

/-! ### What the bytes written read as -/

theorem State.bytes_of_holds {a i n : Nat} {bs : List Byte} (h : s.holds a bs) (hn : i + n ≤ bs.length) :
    s.bytes (a + i) n = (bs.drop i).take n := by
  refine List.ext_getElem (by simp [State.bytes]; omega) fun j hj _ => ?_
  have hj' : j < n := by simpa [State.bytes] using hj
  have := h (i + j) (by omega)
  rw [List.getD_eq_getElem _ _ (by omega)] at this
  simpa [State.bytes, Nat.add_assoc] using this

theorem flatMap_at {α β : Type} {f : α → List β} {n : Nat} (hf : ∀ x, (f x).length = n) {l : List α} {i : Nat} {x : α} (hx : l[i]? = some x) :
    ((l.flatMap f).drop (n * i)).take n = f x := by
  induction l generalizing i with
  | nil => simp at hx
  | cons y l ih =>
    cases i with
    | zero =>
      rw [List.getElem?_cons_zero, Option.some_inj] at hx
      rw [Nat.mul_zero, List.drop_zero, List.flatMap_cons, List.take_left' (hf y), hx]
    | succ i =>
      rw [List.getElem?_cons_succ] at hx
      rw [List.flatMap_cons, Nat.mul_succ, Nat.add_comm, List.drop_append, hf y, Nat.add_sub_cancel_left, List.drop_eq_nil_of_le (by rw [hf y]; omega),
        List.nil_append, ih hx]

theorem length_flatMap_const {α β : Type} {f : α → List β} {n : Nat} (hf : ∀ x, (f x).length = n) (l : List α) :
    (l.flatMap f).length = n * l.length := by
  induction l with
  | nil => rfl
  | cons x l ih => rw [List.flatMap_cons, List.length_append, ih, hf, List.length_cons, Nat.mul_succ, Nat.add_comm]

end Sys2Proof.Machine
end

section
/-! O26: stretches of a MILL result are written, and the order ends (R183, R187, R197, R198, R201, R224, R246). -/
namespace Sys2Proof.Machine

variable {s : State} {c : CroftId} {r : MillRun} {j : Nat} {o : MillOut}

/-! ### The mill's record -/

/-- The result at place `j` advanced by `n` elements, and the mill's flags of the stretch. -/
def MillRun.advance (r : MillRun) (j n : Nat) (again ovf : Bool) : MillRun := { r with
  outs := r.outs.modify j (fun o => { o with done := o.done + n }), retry := false, retried := r.retried || again, ovf := r.ovf || ovf }

theorem advanceOut_run (c n : Nat) (again ovf : Bool) {m : MillRun} (hm : (s.croft c).mill = some m)
    (hj : m.outs.findIdx? (fun o => decide (o.done < o.vals.length)) = some j) :
    (((advanceOut c n again ovf).run s).croft c).mill = some (m.advance j n again ovf) ∧
    Keeps { crofts := (· = c) } s ((advanceOut c n again ovf).run s) := by
  refine ⟨?_, Prog.keeps (by simp [advanceOut]) s⟩
  rw [advanceOut, modCroft_run_self]
  dsimp only
  rw [hm, Option.map_some, hj]
  rfl

theorem find?_of_findIdx? {α : Type} {p : α → Bool} {l : List α} {x : α} (h : l.findIdx? p = some j) (hx : l[j]? = some x) : l.find? p = some x := by
  obtain ⟨hj, hp, hlt⟩ := List.findIdx?_eq_some_iff_getElem.1 h
  obtain ⟨hj', rfl⟩ := List.getElem?_eq_some_iff.1 hx
  exact List.find?_eq_some_iff_getElem.2 ⟨hp, j, hj, rfl, fun i hi => by simpa using hlt i hi⟩

theorem keepRng_run (c : Nat) (x : Rng) (s : State) : (((keepRng c x).run s).croft c).mill = (s.croft c).mill ∧
    Keeps { crofts := (· = c), seq := True } s ((keepRng c x).run s) := by
  have hseq : ∀ l : List Nat, (Prog.each l fun _ => eff .seq).Only (Touch.allows { seq := True }) := fun l =>
    (Prog.only_each ..).2 fun _ _ => (Prog.only_eff _).2 trivial
  rw [keepRng, Prog.run_get, Prog.run_all_cons, Prog.run_all_cons, Prog.run_all_nil]
  have hend := Prog.keeps (hseq (List.range (x.free - s.seq))) ((modCroft c fun k => { k with lanes := x.lanes }).run s)
  refine ⟨?_, (Prog.keeps (by simp) s).trans (hend.mono (by constructor <;> simp))⟩
  rw [hend.crofts c id, modCroft_run_self]

/-! ### A stretch -/

/-- An overflow event: the stretch is converted again. -/
def stretchAgain (c : Nat) (k : Conv) : Prog := .all [
  keepRng c k.rng, bump (pgMill c) R.mill_RETRY_CNT, setFld (pgMill c) R.mill_STATUS_RETRYING 1,
  modCroft c (fun q => { q with mill := q.mill.map (fun r => { r with retry := true }) })]

/-- What an overflow event of a stretch that is written counts and reports. -/
def stretchOvf (c : Nat) (r : MillRun) (o : MillOut) (pol : Bool) : Prog := .all [
  bump (pgMill c) R.mill_OVF_CNT, Prog.when r.retry (bump (pgMill c) R.mill_RETRY_FAIL_CNT),
  reportOvf c r.layer pol (if o.ref.smode = 1 then some r.args.rc else none)]

/-- The stretch is written. -/
def stretchWritten (c : Nat) (r : MillRun) (o : MillOut) (n : Nat) (pol : Bool) (peel0 : Nat) (k : Conv) : Prog := .all [
  writeStretch (byEngine 6 r.idx) c o o.done peel0 k, keepRng c k.rng, countConv c k, millTraps c r o o.done k.causes,
  Prog.when k.ovf (stretchOvf c r o pol), setFld (pgMill c) R.mill_STATUS_RETRYING 0, advanceOut c n r.retry k.ovf]

/-- The elements of the stretch, and what their conversion gives. -/
def MillOut.part (o : MillOut) : List Val := (o.vals.drop o.done).take 4096
def State.stretchConv (s : State) (c : Nat) (r : MillRun) (o : MillOut) : Conv :=
  let peel0 := s.peelsBefore c o.ref (o.done == 0)
  convert o.ref (s.convMode c) (fun i => (o.done + i) % 128) (if r.retry then raisedScale r.scale else r.scale) (s.peelCap c o.ref - peel0) o.done
    o.part { rng := s.rng c }

section
variable (hrun : s.clockRuns c.val = true) (hm : (s.croft c.val).mill = some r)
  (hj : r.outs.findIdx? (fun o => decide (o.done < o.vals.length)) = some j) (ho : r.outs[j]? = some o)
  (hr : s.underReset (pgMill c.val) = false)
include hrun hm hj ho hr

theorem exec_stretchSplit (hrem : o.rem = true) : exec (.millStretchEnd c) s = .next ((advanceOut c.val o.part.length false false).run
    ((splitStretch c.val r o o.part).run s)) := by
  show execMillStretchEnd c s = _
  rw [execMillStretchEnd, Prog.next_eq, Prog.run_get]
  dsimp only
  rw [hm]
  dsimp only
  rw [find?_of_findIdx? hj ho]
  dsimp only
  rw [if_neg (by simp [hrun, hr]), if_pos hrem, Prog.run_all_cons, Prog.run_all_cons, Prog.run_all_nil]
  rfl

theorem exec_stretchEnd (hrem : o.rem = false) : exec (.millStretchEnd c) s = .next (
    (let k := s.stretchConv c.val r o
     let pol := s.bit (pgMill c.val) R.mill_MILLCFG_OVF_POLICY
     if k.ovf && o.ref.smode == 1 && !pol && !r.retry then stretchAgain c.val k
     else stretchWritten c.val r o o.part.length pol (s.peelsBefore c.val o.ref (o.done == 0)) k).run s) := by
  show execMillStretchEnd c s = _
  rw [execMillStretchEnd, Prog.next_eq, Prog.run_get]
  dsimp only
  rw [hm]
  dsimp only
  rw [find?_of_findIdx? hj ho]
  dsimp only
  rw [if_neg (by simp [hrun, hr]), if_neg (by simp [hrem])]
  rfl

end

theorem stretchAgain_run (hm : (s.croft c.val).mill = some r) (k : Conv) :
    let t := (stretchAgain c.val k).run s
    (t.croft c.val).mill = some { r with retry := true } ∧ Counts s t (pgMill c.val) R.mill_RETRY_CNT 1 ∧
    t.bit (pgMill c.val) R.mill_STATUS_RETRYING = true ∧
    Keeps { regs := theRegs (pgMill c.val) [R.mill_RETRY_CNT, R.mill_STATUS_RETRYING], crofts := (· = c.val), seq := True } s t := by
  dsimp only
  rw [stretchAgain, Prog.run_all_cons, Prog.run_all_cons, Prog.run_all_cons, Prog.run_all_cons, Prog.run_all_nil]
  obtain ⟨hmill, hrng⟩ := keepRng_run c.val k.rng s
  generalize (keepRng c.val k.rng).run s = u at *
  have hpage : Keeps { regs := theRegs (pgMill c.val) [R.mill_RETRY_CNT, R.mill_STATUS_RETRYING] } u
      ((setFld (pgMill c.val) R.mill_STATUS_RETRYING 1).run ((bump (pgMill c.val) R.mill_RETRY_CNT).run u)) :=
    (Prog.keeps (by simp) u).trans (Prog.keeps (by simp) _)
  have hcnt : Counts u ((setFld (pgMill c.val) R.mill_STATUS_RETRYING 1).run ((bump (pgMill c.val) R.mill_RETRY_CNT).run u)) (pgMill c.val)
      R.mill_RETRY_CNT 1 := by simp -implicitDefEqProofs [Counts]
  have hbit : ((setFld (pgMill c.val) R.mill_STATUS_RETRYING 1).run ((bump (pgMill c.val) R.mill_RETRY_CNT).run u)).bit (pgMill c.val)
      R.mill_STATUS_RETRYING = true := by simp -implicitDefEqProofs [State.bit]
  generalize (setFld (pgMill c.val) R.mill_STATUS_RETRYING 1).run ((bump (pgMill c.val) R.mill_RETRY_CNT).run u) = v at *
  have hlast : Keeps { crofts := (· = c.val) } v
      ((modCroft c.val (fun q => { q with mill := q.mill.map (fun r => { r with retry := true }) })).run v) := Prog.keeps (by simp) v
  refine ⟨?_, ?_, (hlast.bit_eq id).trans hbit, ((hrng.mono ?_).trans (hpage.mono ?_)).trans (hlast.mono ?_)⟩
  · rw [modCroft_run_self]
    show ((v.croft c.val).mill.map _) = _
    rw [hpage.crofts _ id, hmill, hm]
    rfl
  · rw [Counts, hlast.reg_eq id, hcnt, hrng.reg_eq id]
  all_goals constructor <;> simp

/-! ### A stretch that is written -/

theorem trapGroups_none {n : Nat} {causes : List Nat} (h : causes.all (· == 0) = true) : trapGroups n causes = [] := by
  refine List.filterMap_eq_nil_iff.2 fun g _ => ?_
  have hnone : ((causes.drop (g * n)).take n).filter (· != 0) = [] := by
    refine List.filter_eq_nil_iff.2 fun x hx => ?_
    have := List.all_eq_true.1 h x (List.mem_of_mem_drop (List.mem_of_mem_take hx))
    simpa using this
  dsimp only
  rw [hnone]

theorem trapPlaces_none {causes : List Nat} (h : causes.all (· == 0) = true) : trapPlaces causes = [] := by
  rw [trapPlaces, trapGroups_none h, List.map_nil]

theorem millTraps_none {causes : List Nat} (h : causes.all (· == 0) = true) (c : Nat) (r : MillRun) (o : MillOut) (i0 : Nat) (s : State) :
    Keeps { seq := o.contr = true } s ((millTraps c r o i0 causes).run s) := by
  refine Prog.keeps (p := millTraps c r o i0 causes) ?_ s
  simp [millTraps, trapPlaces_none h, Prog.only_when, Touch.allows]

theorem millTraps_units (c : Nat) (k : Croft) (j : Nat) (r : MillRun) (o : MillOut) (i0 : Nat) (causes : List Nat) :
    (millTraps j r o i0 causes).Safe (unitsAre c k) := by simp [millTraps]

theorem millTraps_beside (c : Nat) (r : MillRun) (o : MillOut) (i0 : Nat) (causes : List Nat) :
    (millTraps c r o i0 causes).Only (offPage (pgMill c)).allows := by
  intro s
  have hpage (q : Page) (hq : q.kind ≠ .mill) (hp : q.placed) {x : Nat} (hx : x < 0x1000) : onReg (offPage (pgMill c)).regs q x :=
    onReg_offPage hx (.inl hq) hp (by simp)
  simp only [Prog.only_all_cons, Prog.only_all_nil, and_true, Prog.only_when, Prog.only_eff, Prog.only_each]
  exact ⟨fun _ => trivial, fun x _ => trap_only (fun x hx => hpage _ (by simp) (by simp) hx) (hpage _ (by simp) (by simp) (by decide)) trivial _ _⟩

/-- What an overflow event counts on the mill's page. -/
theorem stretchOvf_run (c : Nat) (r : MillRun) (o : MillOut) (pol : Bool) (s : State) :
    let t := (stretchOvf c r o pol).run s
    (t.croft c).mill = (s.croft c).mill ∧ Counts s t (pgMill c) R.mill_OVF_CNT 1 ∧ Counts s t (pgMill c) R.mill_RETRY_FAIL_CNT (oneIf r.retry) ∧
    ∀ x, t.byte x = s.byte x := by
  dsimp only
  have hunits := units_run (c := c) (p := stretchOvf c r o pol) (fun k => by simp [stretchOvf]) s
  rw [stretchOvf, Prog.run_all_cons, Prog.run_all_cons, Prog.run_all_cons, Prog.run_all_nil, Prog.run_when] at *
  have hpage (q : Page) (hq : q.kind ≠ .mill) (hp : q.placed) {x : Nat} (hx : x < 0x1000) : onReg (offPage (pgMill c)).regs q x :=
    onReg_offPage hx (.inl hq) hp (by simp)
  have hbeside (v : State) := Prog.keeps (reportOvf_only (T := offPage (pgMill c)) (c := c) (fun x hx => hpage pgNum (by simp) (by simp) hx)
    (fun j => hpage (pgReeve j) (by simp) (by simp) (by decide)) (fun _ => trivial) trivial (fun _ => trivial) r.layer pol
    (if o.ref.smode = 1 then some r.args.rc else none)) v
  have hmill := congrArg Croft.mill hunits
  refine ⟨hmill, ?_, ?_, ?_⟩
  · rw [Counts, (hbeside _).offPage_reg (by decide)]
    cases r.retry <;> simp -implicitDefEqProofs
  · rw [Counts, (hbeside _).offPage_reg (by decide)]
    cases r.retry <;> simp -implicitDefEqProofs [oneIf, satAdd_zero]
  · intro x
    rw [(hbeside _).mem _ id]
    cases r.retry <;> rfl

theorem whenOvf_run (c : Nat) (r : MillRun) (o : MillOut) (pol ovf : Bool) (s : State) :
    let t := (Prog.when ovf (stretchOvf c r o pol)).run s
    (t.croft c).mill = (s.croft c).mill ∧ Counts s t (pgMill c) R.mill_OVF_CNT (oneIf ovf) ∧
    Counts s t (pgMill c) R.mill_RETRY_FAIL_CNT (oneIf (ovf && r.retry)) ∧ ∀ x, t.byte x = s.byte x := by
  cases ovf
  · exact ⟨rfl, (satAdd_zero _).symm, (satAdd_zero _).symm, fun _ => rfl⟩
  · exact stretchOvf_run c r o pol s

/-- The counts of the conversion and its traps leave the mill and memory as they are. -/
theorem stretchCounts_run (c : Nat) (r : MillRun) (o : MillOut) (i0 : Nat) (k : Conv) (s : State) :
    let t := (millTraps c r o i0 k.causes).run ((countConv c k).run s)
    (t.croft c).mill = (s.croft c).mill ∧ Keeps (offPage (pgMill c)) s t ∧
    (k.causes.all (· == 0) = true → Keeps { regs := theRegs (pgCroft c) [R.croft_ZERO_BLK_CNT, R.croft_PEEL_CNT, R.croft_SWAMP_CNT,
      R.croft_VANISH_CNT, R.croft_SAT_CNT], seq := True } s t) := by
  dsimp only
  have hconv : Keeps { regs := theRegs (pgCroft c) [R.croft_ZERO_BLK_CNT, R.croft_PEEL_CNT, R.croft_SWAMP_CNT, R.croft_VANISH_CNT, R.croft_SAT_CNT] }
    s ((countConv c k).run s) := Prog.keeps (by simp [countConv]) s
  have hbeside : Keeps (offPage (pgMill c)) s ((countConv c k).run s) := Prog.keeps (by simp [countConv]) s
  generalize (countConv c k).run s = u at *
  refine ⟨?_, hbeside.trans (Prog.keeps (millTraps_beside ..) u), fun h => (hconv.mono ?_).trans ((millTraps_none h c r o i0 u).mono ?_)⟩
  · have := congrArg Croft.mill (units_run (c := c) (fun k' => millTraps_units c k' c r o i0 k.causes) u)
    exact this.trans (by rw [Croft.units, hconv.crofts c id])
  all_goals constructor <;> simp

theorem stretchWritten_run (hi : s.intact = true) (hm : (s.croft c.val).mill = some r)
    (hj : r.outs.findIdx? (fun o => decide (o.done < o.vals.length)) = some j) (n : Nat) (pol : Bool) (peel0 : Nat) (k : Conv) :
    let t := (stretchWritten c.val r o n pol peel0 k).run s
    (t.croft c.val).mill = some (r.advance j n r.retry k.ovf) ∧
    Counts s t (pgMill c.val) R.mill_OVF_CNT (oneIf k.ovf) ∧ Counts s t (pgMill c.val) R.mill_RETRY_FAIL_CNT (oneIf (k.ovf && r.retry)) ∧
    t.bit (pgMill c.val) R.mill_STATUS_RETRYING = false ∧
    (∀ x, t.byte x = ((writeStretch (byEngine 6 r.idx) c.val o o.done peel0 k).run s).byte x) ∧
    (k.ovf = false → k.causes.all (· == 0) = true →
      Keeps { regs := someRegs [(pgMill c.val, [R.mill_STATUS_RETRYING]),
                (pgCroft c.val, [R.croft_ZERO_BLK_CNT, R.croft_PEEL_CNT, R.croft_SWAMP_CNT, R.croft_VANISH_CNT, R.croft_SAT_CNT])],
              mem := fun _ => True, crofts := (· = c.val), seq := True } s t) := by
  dsimp only
  rw [stretchWritten]
  simp -implicitDefEqProofs only [Prog.run_all_cons, Prog.run_all_nil]
  have hwrite := (writeStretch_writesOnly (byEngine 6 r.idx) c.val o o.done peel0 k).keeps s hi
  generalize (writeStretch (byEngine 6 r.idx) c.val o o.done peel0 k).run s = u at *
  obtain ⟨hmill, hrng⟩ := keepRng_run c.val k.rng u
  generalize (keepRng c.val k.rng).run u = v at *
  obtain ⟨hmill', hbeside, hquiet⟩ := stretchCounts_run c.val r o o.done k v
  generalize (millTraps c.val r o o.done k.causes).run ((countConv c.val k).run v) = w at *
  obtain ⟨hmill'', hovf, hfail, hbyte⟩ := whenOvf_run c.val r o pol k.ovf w
  have hno : k.ovf = false → (Prog.when k.ovf (stretchOvf c.val r o pol)).run w = w := fun h => by
    rw [h]
    rfl
  generalize (Prog.when k.ovf (stretchOvf c.val r o pol)).run w = x at *
  have hset : Keeps { regs := theRegs (pgMill c.val) [R.mill_STATUS_RETRYING] } x ((setFld (pgMill c.val) R.mill_STATUS_RETRYING 0).run x) :=
    Prog.keeps (by simp) x
  have hbit : ((setFld (pgMill c.val) R.mill_STATUS_RETRYING 0).run x).bit (pgMill c.val) R.mill_STATUS_RETRYING = false := by
    simp -implicitDefEqProofs [State.bit]
  generalize (setFld (pgMill c.val) R.mill_STATUS_RETRYING 0).run x = y at *
  have hy : (y.croft c.val).mill = some r := by
    rw [hset.crofts _ id, hmill'', hmill', hmill, hwrite.crofts _ id, hm]
  obtain ⟨hend, hlast⟩ := advanceOut_run c.val n r.retry k.ovf hy hj
  generalize (advanceOut c.val n r.retry k.ovf).run y = t at *
  have hback {f : Fld} (h : ¬ theRegs (pgMill c.val) [R.mill_STATUS_RETRYING] ((pgMill c.val).base + f.off)) :
      t.reg (pgMill c.val) f.off = x.reg (pgMill c.val) f.off := (hlast.reg_eq id).trans (hset.reg_eq h)
  have hfirst {f : Fld} (h : f.off < 0x1000) : w.reg (pgMill c.val) f.off = s.reg (pgMill c.val) f.off :=
    (hbeside.offPage_reg h).trans ((hrng.reg_eq id).trans (hwrite.reg_eq id))
  refine ⟨hend, ?_, ?_, (hlast.bit_eq id).trans hbit, fun a => ?_, fun ho hc => ?_⟩
  · rw [Counts, hback (not_theRegs_offset (by decide) _), hovf, hfirst (by decide)]
  · rw [Counts, hback (not_theRegs_offset (by decide) _), hfail, hfirst (by decide)]
  · rw [hlast.mem _ id, hset.mem _ id, hbyte, hbeside.mem _ id, hrng.mem _ id]
  · have hx := hno ho
    subst hx
    refine ((((hwrite.mono ?_).trans (hrng.mono ?_)).trans ((hquiet hc).mono ?_)).trans (hset.mono ?_)).trans (hlast.mono ?_)
    all_goals constructor
    case refine_3.regs => exact fun a h => ⟨_, List.mem_cons_of_mem _ List.mem_cons_self, h⟩
    case refine_4.regs => exact fun a h => ⟨_, List.mem_cons_self, h⟩
    all_goals simp

/-! ### A result held as head and remnant -/

/-- The bytes of the heads of a stretch, with the region's padding after the last, and those of the remnants. -/
def MillOut.heads (o : MillOut) : List Byte := (o.part.map split).flatMap (fun x => toLe 2 x.head) ++
  if o.done + o.part.length = o.vals.length then padding (2 * o.vals.length) else []
def MillOut.remnants (o : MillOut) : List Byte := (o.part.map split).map (fun x => BitVec.ofNat 8 x.rem)

theorem le_pad64 (n : Nat) : n ≤ pad64 n := by
  rw [pad64]
  omega

theorem MillOut.part_le (o : MillOut) : o.part.length ≤ o.vals.length - o.done := by
  rw [part, List.length_take, List.length_drop]
  omega

/-- The heads lie below the remnants. -/
theorem MillOut.heads_le (o : MillOut) (h : o.done ≤ o.vals.length) :
    2 * o.part.length ≤ o.heads.length ∧ 2 * o.done + o.heads.length ≤ pad64 (2 * o.vals.length) := by
  have hlen : ((o.part.map split).flatMap (fun x => toLe 2 x.head)).length = 2 * o.part.length := by
    rw [length_flatMap_const (fun x : Split => length_toLe 2 x.head), List.length_map]
  have hpart := o.part_le
  have hpad := le_pad64 (2 * o.vals.length)
  rw [heads, List.length_append, hlen]
  split
  · rw [padding, List.length_replicate]
    omega
  · rw [List.length_nil]
    omega

theorem MillOut.heads_at (o : MillOut) {i : Nat} {v : Val} (hv : o.part[i]? = some v) : (o.heads.drop (2 * i)).take 2 = toLe 2 (split v).head := by
  have hi : i < o.part.length := (List.getElem?_eq_some_iff.1 hv).1
  have hlen : ((o.part.map split).flatMap (fun x => toLe 2 x.head)).length = 2 * o.part.length := by
    rw [length_flatMap_const (fun x : Split => length_toLe 2 x.head), List.length_map]
  have hsplit : (o.part.map split)[i]? = some (split v) := by rw [List.getElem?_map, hv, Option.map_some]
  rw [heads, List.drop_append, List.take_append, List.length_drop, hlen, show 2 - (2 * o.part.length - 2 * i) = 0 by omega, List.take_zero,
    List.append_nil, flatMap_at (fun x : Split => length_toLe 2 x.head) hsplit]

/-- What a split stretch writes. -/
theorem splitWrites_run (hi : s.intact = true) (src : Option Source) (c : Nat) (h : o.done < o.vals.length) :
    let a := sliceAddr c (o.ref.elem + 2 * o.done)
    let b := sliceAddr c (o.ref.elem + pad64 (2 * o.vals.length) + o.done)
    let t := (store src b o.remnants).run ((store src a o.heads).run s)
    (∀ i < o.part.length, ∀ v, o.part[i]? = some v →
      t.le (sliceAddr c (o.ref.elem + 2 * (o.done + i))) 2 = (split v).head % 2 ^ 16 ∧
      (t.byte (sliceAddr c (o.ref.elem + pad64 (2 * o.vals.length) + o.done + i))).toNat = (split v).rem % 256) ∧
    Keeps { mem := fun x => inRange a (pad64 (2 * o.vals.length) - 2 * o.done) x ∨ inRange b o.part.length x } s t := by
  obtain ⟨hlow, hhigh⟩ := o.heads_le (Nat.le_of_lt h)
  dsimp only
  obtain ⟨hdev, hheads, hkeep⟩ := store_effect hi src (sliceAddr c (o.ref.elem + 2 * o.done)) o.heads
  generalize (store src (sliceAddr c (o.ref.elem + 2 * o.done)) o.heads).run s = u at *
  have hiu : u.intact = true := by
    rw [State.intact, hdev]
    exact hi
  obtain ⟨-, hrems, hkeep'⟩ := store_effect hiu src (sliceAddr c (o.ref.elem + pad64 (2 * o.vals.length) + o.done)) o.remnants
  have hrl : o.remnants.length = o.part.length := by rw [MillOut.remnants, List.length_map, List.length_map]
  rw [hrl] at hkeep'
  generalize (store src (sliceAddr c (o.ref.elem + pad64 (2 * o.vals.length) + o.done)) o.remnants).run u = t at *
  refine ⟨fun i hlt v hv => ⟨?_, ?_⟩, (hkeep.mono ?_).trans (hkeep'.mono ?_)⟩
  · have haddr : sliceAddr c (o.ref.elem + 2 * (o.done + i)) = sliceAddr c (o.ref.elem + 2 * o.done) + 2 * i := by
      simp only [sliceAddr]
      omega
    rw [State.le_congr (s := u) fun k hk => hkeep'.mem _ ?_]
    · rw [State.le, haddr, State.bytes_of_holds hheads (by omega), o.heads_at hv, leNat_toLe]
      rfl
    · simp only [inRange, sliceAddr]
      omega
  · have haddr : sliceAddr c (o.ref.elem + pad64 (2 * o.vals.length) + o.done + i) =
        sliceAddr c (o.ref.elem + pad64 (2 * o.vals.length) + o.done) + i := by
      simp only [sliceAddr]
      omega
    have hr : o.remnants[i]? = some (BitVec.ofNat 8 (split v).rem) := by
      rw [MillOut.remnants, List.getElem?_map, List.getElem?_map, hv]
      rfl
    rw [haddr, hrems i (by omega), List.getD_eq_getElem?_getD, hr, Option.getD_some, BitVec.toNat_ofNat]
  · constructor
    case mem =>
      intro x hx
      left
      simp only [inRange, sliceAddr] at hx ⊢
      omega
    all_goals simp
  · constructor
    case mem => exact fun x hx => .inr hx
    all_goals simp

theorem splitStretch_run (hi : s.intact = true) (hm : (s.croft c.val).mill = some r)
    (hj : r.outs.findIdx? (fun o => decide (o.done < o.vals.length)) = some j) (h : o.done < o.vals.length) :
    let part := o.part
    let t := (advanceOut c.val part.length false false).run ((splitStretch c.val r o part).run s)
    (t.croft c.val).mill = some (r.advance j part.length false false) ∧
    Counts s t (pgMill c.val) R.mill_SPLIT_STEP_CNT (((part.map split).filter (·.stepped)).length) ∧
    Counts s t (pgMill c.val) R.mill_MASTER_SAT_CNT (((part.map split).filter (·.held)).length) ∧
    (∀ i < part.length, ∀ v, part[i]? = some v →
      t.le (sliceAddr c.val (o.ref.elem + 2 * (o.done + i))) 2 = (split v).head % 2 ^ 16 ∧
      (t.byte (sliceAddr c.val (o.ref.elem + pad64 (2 * o.vals.length) + o.done + i))).toNat = (split v).rem % 256) ∧
    ((part.map (·.cause)).all (· == 0) = true →
      Keeps { regs := theRegs (pgMill c.val) [R.mill_SPLIT_STEP_CNT, R.mill_MASTER_SAT_CNT],
              mem := fun x => inRange (sliceAddr c.val (o.ref.elem + 2 * o.done)) (pad64 (2 * o.vals.length) - 2 * o.done) x ∨
                inRange (sliceAddr c.val (o.ref.elem + pad64 (2 * o.vals.length) + o.done)) part.length x,
              crofts := (· = c.val), seq := o.contr = true } s t) := by
  dsimp only
  rw [splitStretch]
  simp -implicitDefEqProofs only [Prog.run_all_cons, Prog.run_all_nil]
  obtain ⟨hbytes, hwrite⟩ := splitWrites_run hi (byEngine 6 r.idx) c.val h
  rw [← MillOut.heads, ← MillOut.remnants]
  generalize (store (byEngine 6 r.idx) (sliceAddr c.val (o.ref.elem + pad64 (2 * o.vals.length) + o.done)) o.remnants).run
    ((store (byEngine 6 r.idx) (sliceAddr c.val (o.ref.elem + 2 * o.done)) o.heads).run s) = u at *
  generalize ((o.part.map split).filter (·.stepped)).length = steps
  generalize ((o.part.map split).filter (·.held)).length = held
  have hcounts : Keeps { regs := theRegs (pgMill c.val) [R.mill_SPLIT_STEP_CNT, R.mill_MASTER_SAT_CNT] } u
      ((bumpBy (pgMill c.val) R.mill_MASTER_SAT_CNT held).run ((bumpBy (pgMill c.val) R.mill_SPLIT_STEP_CNT steps).run u)) :=
    (Prog.keeps (by simp) u).trans (Prog.keeps (by simp) _)
  have hsteps : Counts u ((bumpBy (pgMill c.val) R.mill_MASTER_SAT_CNT held).run ((bumpBy (pgMill c.val) R.mill_SPLIT_STEP_CNT steps).run u))
    (pgMill c.val) R.mill_SPLIT_STEP_CNT steps := by simp -implicitDefEqProofs [Counts]
  have hheld : Counts u ((bumpBy (pgMill c.val) R.mill_MASTER_SAT_CNT held).run ((bumpBy (pgMill c.val) R.mill_SPLIT_STEP_CNT steps).run u))
    (pgMill c.val) R.mill_MASTER_SAT_CNT held := by simp -implicitDefEqProofs [Counts]
  generalize (bumpBy (pgMill c.val) R.mill_MASTER_SAT_CNT held).run ((bumpBy (pgMill c.val) R.mill_SPLIT_STEP_CNT steps).run u) = v at *
  have hbeside := Prog.keeps (millTraps_beside c.val r o o.done (o.part.map (·.cause))) v
  have hunits := congrArg Croft.mill (units_run (c := c.val) (fun k => millTraps_units c.val k c.val r o o.done (o.part.map (·.cause))) v)
  have hquiet (h : (o.part.map (·.cause)).all (· == 0) = true) := millTraps_none h c.val r o o.done v
  generalize (millTraps c.val r o o.done (o.part.map (·.cause))).run v = w at *
  have hw : (w.croft c.val).mill = some r := hunits.trans (by rw [Croft.units, hcounts.crofts _ id, hwrite.crofts _ id]; exact hm)
  obtain ⟨hend, hlast⟩ := advanceOut_run c.val o.part.length false false hw hj
  generalize (advanceOut c.val o.part.length false false).run w = t at *
  have hbyte (x : Nat) : t.byte x = u.byte x := by rw [hlast.mem _ id, hbeside.mem _ id, hcounts.mem _ id]
  refine ⟨hend, ?_, ?_, fun i hi v hv => ?_, fun hc => (((hwrite.mono ?_).trans (hcounts.mono ?_)).trans ((hquiet hc).mono ?_)).trans (hlast.mono ?_)⟩
  · rw [Counts, hlast.reg_eq id, hbeside.offPage_reg (by decide), hsteps, hwrite.reg_eq id]
  · rw [Counts, hlast.reg_eq id, hbeside.offPage_reg (by decide), hheld, hwrite.reg_eq id]
  · rw [State.le_congr fun k _ => hbyte _, hbyte]
    exact hbytes i hi v hv
  · constructor
    case mem => exact fun _ h => h
    all_goals simp
  all_goals constructor <;> simp

/-! ### The end of an order -/

/-- What a finished order writes beside its results. -/
def orderWrites (s : State) (c : Nat) (r : MillRun) : Prog :=
  let w := asWritten (s.millWide c r) r.bnd (r.args.slot 3)
  .all [
    Prog.each r.raw (fun x => store (byEngine 6 r.idx) (sliceAddr c x.1) x.2),
    Prog.when (r.op == 0x22 && r.args.hasAmax) (storeLe (byEngine 6 r.idx) (sliceAddr c r.args.amax) 4 (code32 r.amax)),
    Prog.when (resultInS3 r.op && w.smode == 1) (updateRecord (byEngine 6 r.idx) c r.args.rc w.format r.amax r.retried)]

/-- The sums a finished order adds to its croft's Tally slots. -/
def orderTallies (c : Nat) (r : MillRun) (wide : Bool) : Prog := .all [
  Prog.each r.tally (fun x => tallyAdd c x.1 x.2),
  .get (fun s =>
    match tallySlotOf r.op r.args.tsrc (s.millSlots c r.op 0 r.args wide r.bnd) with
    | some t => Prog.when (!wide) (tallyAdd c r.args.tslot (squareSum (s.millRows c (s.bit pgNum R.numstep_CFG_HERITAGE) t).flatten))
    | none => .done)]

theorem orderWrites_writesOnly (s : State) (c : Nat) (r : MillRun) : (orderWrites s c r).writesOnly := by
  refine Prog.writesOnly_all ?_
  simp only [List.forall_mem_cons, List.not_mem_nil, false_imp_iff, implies_true, and_true]
  exact ⟨Prog.writesOnly_each fun _ _ => store_writesOnly _ _ _, Prog.writesOnly_when fun _ => storeLe_writesOnly _ _ _ _,
    Prog.writesOnly_when fun _ => updateRecord_writesOnly _ _ _ _ _ _⟩

section
variable (hrun : s.clockRuns c.val = true) (hm : (s.croft c.val).mill = some r) (hcar : r.carried = true)
  (hdone : ∀ o ∈ r.outs, o.vals.length ≤ o.done) (hr : s.underReset (pgMill c.val) = false)
include hrun hm hcar hdone hr

omit hm in
theorem ordered_mayEnd : ¬ (!r.carried || r.outs.any (fun o => decide (o.done < o.vals.length)) || !s.clockRuns c.val || s.underReset (pgMill c.val)) = true := by
  have hno : r.outs.any (fun o => decide (o.done < o.vals.length)) = false :=
    List.any_eq_false.2 fun o ho => by simpa using hdone o ho
  simp only [hcar, hno, hrun, hr, Bool.not_true, Bool.or_false, Bool.false_eq_true, not_false_eq_true]

theorem exec_orderEnd_compare {x : Nat × Contrib} (hx : r.cmp = some x) : exec (.millOrderEnd c) s = .next ((millEnd c.val).run
    ((modDev (fun d => { d with contribs := d.contribs ++ [x] })).run ((bump (pgTally c.val) R.tally_CMP_CNT).run s))) := by
  show execMillOrderEnd c s = _
  rw [execMillOrderEnd, Prog.next_eq, Prog.run_get]
  dsimp only
  rw [hm]
  dsimp only
  rw [if_neg (ordered_mayEnd hrun hcar hdone hr), hx]
  simp -implicitDefEqProofs only [Prog.run_all_cons, Prog.run_all_nil]

theorem exec_orderEnd (hx : r.cmp = none) : exec (.millOrderEnd c) s = .next ((dropOrder c.val r.serial).run ((millEnd c.val).run
    ((bump (pgMill c.val) R.mill_ORDER_CNT).run ((orderTallies c.val r (s.millWide c.val r)).run ((orderWrites s c.val r).run s))))) := by
  show execMillOrderEnd c s = _
  rw [execMillOrderEnd, Prog.next_eq, Prog.run_get]
  dsimp only
  rw [hm]
  dsimp only
  rw [if_neg (ordered_mayEnd hrun hcar hdone hr), hx]
  dsimp only
  rw [orderTallies, orderWrites]
  simp -implicitDefEqProofs only [Prog.run_all_cons, Prog.run_all_nil]
  rfl

end

theorem millEnd_run (c : Nat) (s : State) :
    let t := (millEnd c).run s
    t.croft c = { s.croft c with mill := none } ∧ t.bit (pgMill c) R.mill_STATUS_BUSY = false ∧ t.fld (pgMill c) R.mill_STATUS_OP = 0 ∧
    Keeps { regs := theRegs (pgMill c) [R.mill_STATUS_BUSY], crofts := (· = c) } s t := by
  dsimp only
  rw [millEnd, Prog.run_all_cons, Prog.run_all_cons, Prog.run_all_cons, Prog.run_all_cons, Prog.run_all_nil]
  have hmod := modCroft_run_self c (fun k => { k with mill := none }) s
  have hkeep : Keeps { crofts := (· = c) } s ((modCroft c (fun k => { k with mill := none })).run s) := Prog.keeps (by simp) s
  generalize (modCroft c (fun k => { k with mill := none })).run s = u at *
  have hlast : Keeps { regs := theRegs (pgMill c) [R.mill_STATUS_BUSY] } u ((setFld (pgMill c) R.mill_STATUS_RETRYING 0).run
      ((setFld (pgMill c) R.mill_STATUS_OP 0).run ((setFld (pgMill c) R.mill_STATUS_BUSY 0).run u))) :=
    ((Prog.keeps (by simp) u).trans (Prog.keeps (by simp) _)).trans (Prog.keeps (by simp) _)
  refine ⟨(hlast.crofts c id).trans hmod, by simp -implicitDefEqProofs [State.bit], by simp -implicitDefEqProofs,
    (hkeep.mono ?_).trans (hlast.mono ?_)⟩
  all_goals constructor <;> simp

/-- A Tally slot of a croft's record once sums are added to it. -/
def Croft.tallied (k : Croft) (slot : Nat) (x : TallySlot) : Croft :=
  let old := (Sparse.get? k.tally slot).getD ⟨none, 0⟩
  { k with tally := Sparse.set k.tally slot ⟨Pair.merge old.pair x.pair, old.nf + x.nf⟩ }

theorem tallyAdd_run (c slot : Nat) (x : TallySlot) (s : State) :
    let t := (tallyAdd c slot x).run s
    t.croft c = (s.croft c).tallied slot x ∧ Counts s t (pgMill c) R.mill_TALLY_NONFIN_CNT x.nf ∧
    Keeps { regs := theRegs (pgMill c) [R.mill_TALLY_NONFIN_CNT], crofts := (· = c) } s t := by
  dsimp only
  rw [tallyAdd, Prog.run_all_cons, Prog.run_all_cons, Prog.run_all_nil]
  obtain ⟨hcnt, hkeep⟩ := bumpBy_run (pgMill c) R.mill_TALLY_NONFIN_CNT x.nf s
  generalize (bumpBy (pgMill c) R.mill_TALLY_NONFIN_CNT x.nf).run s = u at *
  have hmod := modCroft_run_self c (fun k => k.tallied slot x) u
  have hlast : Keeps { crofts := (· = c) } u ((modCroft c (fun k => k.tallied slot x)).run u) := Prog.keeps (by simp) u
  refine ⟨?_, ?_, (hkeep.mono ?_).trans (hlast.mono ?_)⟩
  · exact hmod.trans (by rw [hkeep.crofts c id])
  · exact (hlast.reg_eq id).trans hcnt
  all_goals constructor <;> simp

theorem tallies_run (c : Nat) (l : List (Nat × TallySlot)) (s : State) :
    let t := (Prog.each l (fun x => tallyAdd c x.1 x.2)).run s
    t.reeve c = s.reeve c ∧ Keeps { regs := theRegs (pgMill c) [R.mill_TALLY_NONFIN_CNT], crofts := (· = c) } s t := by
  induction l generalizing s with
  | nil => exact ⟨rfl, Keeps.refl _ s⟩
  | cons x l ih =>
    obtain ⟨hcroft, -, hkeep⟩ := tallyAdd_run c x.1 x.2 s
    dsimp only
    rw [Prog.run_each_cons]
    generalize (tallyAdd c x.1 x.2).run s = u at *
    obtain ⟨hreeve, hrest⟩ := ih u
    refine ⟨hreeve.trans ?_, hkeep.trans hrest⟩
    rw [State.reeve, hcroft]
    rfl

theorem orderTallies_run (c : Nat) (r : MillRun) (wide : Bool) (s : State) :
    let t := (orderTallies c r wide).run s
    t.reeve c = s.reeve c ∧ Keeps { regs := theRegs (pgMill c) [R.mill_TALLY_NONFIN_CNT], crofts := (· = c) } s t := by
  dsimp only
  rw [orderTallies, Prog.run_all_cons, Prog.run_all_cons, Prog.run_all_nil, Prog.run_get]
  obtain ⟨hreeve, hkeep⟩ := tallies_run c r.tally s
  generalize (Prog.each r.tally (fun x => tallyAdd c x.1 x.2)).run s = u at *
  split
  next m _ =>
    rw [Prog.run_when]
    split
    · obtain ⟨hcroft, -, hlast⟩ := tallyAdd_run c r.args.tslot (squareSum (u.millRows c (u.bit pgNum R.numstep_CFG_HERITAGE) m).flatten) u
      refine ⟨Eq.trans ?_ hreeve, hkeep.trans hlast⟩
      rw [State.reeve, hcroft]
      rfl
    · exact ⟨hreeve, hkeep⟩
  · exact ⟨hreeve, hkeep⟩

theorem orderTallies_none (ht : r.tally = []) {wide : Bool} (c : Nat) (s : State)
    (hn : tallySlotOf r.op r.args.tsrc (s.millSlots c r.op 0 r.args wide r.bnd) = none) : (orderTallies c r wide).run s = s := by
  rw [orderTallies, Prog.run_all_cons, Prog.run_all_cons, Prog.run_all_nil, Prog.run_get, ht, Prog.run_each_nil, hn]
  rfl

theorem orderTallies_some (ht : r.tally = []) {c : Nat} {s : State} {m : MillSlot}
    (hn : tallySlotOf r.op r.args.tsrc (s.millSlots c r.op 0 r.args false r.bnd) = some m) : (orderTallies c r false).run s =
    (tallyAdd c r.args.tslot (squareSum (s.millRows c (s.bit pgNum R.numstep_CFG_HERITAGE) m).flatten)).run s := by
  rw [orderTallies, Prog.run_all_cons, Prog.run_all_cons, Prog.run_all_nil, Prog.run_get, ht, Prog.run_each_nil, hn]
  rfl

theorem orderEnd_run (hi : s.intact = true) (c : Nat) (r : MillRun) :
    let t := (dropOrder c r.serial).run ((millEnd c).run ((bump (pgMill c) R.mill_ORDER_CNT).run ((orderTallies c r (s.millWide c r)).run
      ((orderWrites s c r).run s))))
    let u := (orderWrites s c r).run s
    let v := (orderTallies c r (s.millWide c r)).run u
    t.bit (pgMill c) R.mill_STATUS_BUSY = false ∧ t.fld (pgMill c) R.mill_STATUS_OP = 0 ∧ (t.croft c).mill = none ∧
    t.reeve c = (s.reeve c).ended r.serial ∧ Counts s t (pgMill c) R.mill_ORDER_CNT 1 ∧ (∀ x, t.byte x = u.byte x) ∧
    (t.croft c).tally = (v.croft c).tally ∧
    t.reg (pgMill c) R.mill_TALLY_NONFIN_CNT.off = v.reg (pgMill c) R.mill_TALLY_NONFIN_CNT.off ∧
    Keeps { regs := theRegs (pgMill c) [R.mill_STATUS_BUSY, R.mill_ORDER_CNT, R.mill_TALLY_NONFIN_CNT], mem := fun _ => True,
            crofts := (· = c) } s t := by
  dsimp only
  have hwrite := (orderWrites_writesOnly s c r).keeps s hi
  generalize (orderWrites s c r).run s = u at *
  obtain ⟨hreeve, htally⟩ := orderTallies_run c r (s.millWide c r) u
  generalize (orderTallies c r (s.millWide c r)).run u = v at *
  have hone : bump (pgMill c) R.mill_ORDER_CNT = bumpBy (pgMill c) R.mill_ORDER_CNT 1 := rfl
  rw [hone]
  obtain ⟨hcnt, hkeep⟩ := bumpBy_run (pgMill c) R.mill_ORDER_CNT 1 v
  generalize (bumpBy (pgMill c) R.mill_ORDER_CNT 1).run v = w at *
  obtain ⟨hcroft, hbusy, hop, hend⟩ := millEnd_run c w
  generalize (millEnd c).run w = x at *
  have hdrop : Keeps { crofts := (· = c) } x ((dropOrder c r.serial).run x) := Prog.keeps (by simp) x
  have hself : ((dropOrder c r.serial).run x).croft c = { x.croft c with reeve := (x.reeve c).ended r.serial } :=
    modCroft_run_self c (fun k => { k with reeve := k.reeve.ended r.serial }) x
  generalize (dropOrder c r.serial).run x = t at *
  refine ⟨(hdrop.bit_eq id).trans hbusy, (hdrop.fld_eq id).trans hop, ?_, ?_, ?_, fun a => ?_, ?_, ?_,
    ((((hwrite.mono ?_).trans (htally.mono ?_)).trans (hkeep.mono ?_)).trans (hend.mono ?_)).trans (hdrop.mono ?_)⟩
  · rw [hself, hcroft]
  · rw [State.reeve, hself, State.reeve, hcroft]
    show (w.reeve c).ended _ = _
    rw [State.reeve, hkeep.crofts c id]
    exact congrArg (Reeve.ended · r.serial) (hreeve.trans (by rw [State.reeve, hwrite.crofts c id]; rfl))
  · rw [Counts, hdrop.reg_eq id, hend.reg_eq (not_theRegs_offset (by decide) _), hcnt, htally.reg_eq (not_theRegs_offset (by decide) _),
      hwrite.reg_eq id]
  · rw [hdrop.mem _ id, hend.mem _ id, hkeep.mem _ id, htally.mem _ id]
  · rw [hself, hcroft, hkeep.crofts c id]
  · rw [hdrop.reg_eq id, hend.reg_eq (not_theRegs_offset (by decide) _), hkeep.reg_eq (not_theRegs_offset (by decide) _)]
  · constructor <;> simp
  · constructor
    case regs => exact theRegs_mono (by simp)
    all_goals simp
  · constructor
    case regs => exact theRegs_mono (by simp)
    all_goals simp
  · constructor
    case regs => exact theRegs_mono (by simp)
    all_goals simp
  · constructor <;> simp

/-- Settles O26: a stretch is converted and written, or split, and the order's end. -/
theorem millResultsAreWritten : Obligations.MillResultsAreWritten := by
  unfold Obligations.MillResultsAreWritten
  refine ⟨fun s c r j o hi hrun hm hj ho hr => ?_, fun s c r hi hrun hm hcar hdone hr => ⟨fun x hx => ?_, fun hx => ?_⟩⟩
  · refine ⟨fun hrem hagain => ?_, fun hrem hno => ?_, fun hrem => ?_⟩
    · obtain ⟨hovf, hmode, hpol, hretry⟩ := hagain
      rw [exec_stretchEnd hrun hm hj ho hr hrem]
      refine Leaves.of_next ?_
      dsimp only
      rw [if_pos (by simp only [Bool.and_eq_true, beq_iff_eq, Bool.not_eq_true']; exact ⟨⟨⟨hovf, hmode⟩, hpol⟩, hretry⟩)]
      exact stretchAgain_run hm _
    · rw [exec_stretchEnd hrun hm hj ho hr hrem]
      refine Leaves.of_next ?_
      dsimp only
      rw [if_neg fun h => by
        simp only [Bool.and_eq_true, beq_iff_eq, Bool.not_eq_true', and_assoc] at h
        exact hno h]
      exact stretchWritten_run hi hm hj o.part.length (s.bit (pgMill c.val) R.mill_MILLCFG_OVF_POLICY)
        (s.peelsBefore c.val o.ref (o.done == 0)) (s.stretchConv c.val r o)
    · rw [exec_stretchSplit hrun hm hj ho hr hrem]
      refine Leaves.of_next ?_
      obtain ⟨hj', hp, -⟩ := List.findIdx?_eq_some_iff_getElem.1 hj
      have hlt : o.done < o.vals.length := by
        rw [(List.getElem?_eq_some_iff.1 ho).2] at hp
        exact of_decide_eq_true hp
      obtain ⟨hmill, hrest⟩ := splitStretch_run hi hm hj hlt
      refine ⟨hmill.trans ?_, hrest⟩
      rw [MillRun.advance, Bool.or_false, Bool.or_false]
      rfl
  · rw [exec_orderEnd_compare hrun hm hcar hdone hr hx]
    refine Leaves.of_next ?_
    obtain ⟨hcnt, hkeep⟩ := bumpBy_run (pgTally c.val) R.tally_CMP_CNT 1 s
    have hone : bump (pgTally c.val) R.tally_CMP_CNT = bumpBy (pgTally c.val) R.tally_CMP_CNT 1 := rfl
    rw [hone]
    generalize (bumpBy (pgTally c.val) R.tally_CMP_CNT 1).run s = u at *
    have hdev : ((modDev (fun d => { d with contribs := d.contribs ++ [x] })).run u).dev = { u.dev with contribs := u.dev.contribs ++ [x] } := rfl
    have hmod : Keeps { dev := True } u ((modDev (fun d => { d with contribs := d.contribs ++ [x] })).run u) :=
      Prog.keeps (modDev_only (fun _ => trivial) _) u
    generalize (modDev (fun d => { d with contribs := d.contribs ++ [x] })).run u = v at *
    obtain ⟨hcroft, hbusy, hop, hend⟩ := millEnd_run c.val v
    refine ⟨hbusy, hop, ?_, ?_, ?_, ((hkeep.mono ?_).trans (hmod.mono ?_)).trans (hend.mono ?_)⟩
    · rw [hend.dev id, hdev, hkeep.dev id]
    · rw [Counts, hend.reg_eq (not_theRegs_apart (by simp)), hmod.reg_eq id, hcnt]
    · rw [hcroft, hmod.crofts _ id, hkeep.crofts _ id]
    · constructor
      case regs => exact fun a h => ⟨_, List.mem_cons_self, h⟩
      all_goals simp
    · constructor <;> simp
    · constructor
      case regs => exact fun a h => ⟨_, List.mem_cons_of_mem _ List.mem_cons_self, h⟩
      all_goals simp
  · rw [exec_orderEnd hrun hm hcar hdone hr hx]
    refine Leaves.of_next ?_
    obtain ⟨hbusy, hop, hmill, hreeve, hcnt, hbyte, htally, hnonfin, hkeep⟩ := orderEnd_run hi c.val r
    refine ⟨hbusy, hop, hmill, hreeve, hcnt, hbyte, fun ht hsrc => ?_, fun ht hwide m hslot hraw hamax hrec => ?_, hkeep⟩
    · have hwrite := (orderWrites_writesOnly s c.val r).keeps s hi
      have hno := orderTallies_none ht (wide := s.millWide c.val r) c.val ((orderWrites s c.val r).run s) (by rw [tallySlotOf, hsrc]; rfl)
      refine ⟨htally.trans ?_, hnonfin.trans ?_⟩
      · rw [hno, hwrite.crofts _ id]
      · rw [hno, hwrite.reg_eq id, satAdd_zero]
    · have hnone : (orderWrites s c.val r).run s = s := by
        have hnorec : (resultInS3 r.op && (asWritten (s.millWide c.val r) r.bnd (r.args.slot 3)).smode == 1) = false :=
          Bool.eq_false_iff.2 fun h => by
            obtain ⟨h1, h2⟩ := (Bool.and_eq_true _ _).mp h
            exact hrec h1 (beq_iff_eq.1 h2)
        have hnoamax : (r.op == 0x22 && r.args.hasAmax) = false :=
          Bool.eq_false_iff.2 fun h => by
            obtain ⟨h1, h2⟩ := (Bool.and_eq_true _ _).mp h
            exact Bool.eq_false_iff.1 (hamax (beq_iff_eq.1 h1)) h2
        rw [orderWrites, hraw, hnorec, hnoamax]
        rfl
      rw [hwide] at hslot
      have hadd : (orderTallies c.val r (s.millWide c.val r)).run ((orderWrites s c.val r).run s) = (tallyAdd c.val r.args.tslot
          (squareSum (s.millRows c.val (s.bit pgNum R.numstep_CFG_HERITAGE) m).flatten)).run s := by
        rw [hnone, hwide, orderTallies_some ht hslot]
      obtain ⟨hcroft, hcount, -⟩ := tallyAdd_run c.val r.args.tslot
        (squareSum (s.millRows c.val (s.bit pgNum R.numstep_CFG_HERITAGE) m).flatten) s
      refine ⟨htally.trans ?_, hnonfin.trans ?_⟩
      · rw [hadd, hcroft]
        rfl
      · rw [hadd]
        exact hcount

end Sys2Proof.Machine
end

open Host
section
/-! O22: windows and soundings begin and end (R114 to R118, R121, R130, R135, R477). -/
namespace Sys2Proof.Machine

variable {s : State}

theorem theRegs_sub {p : Page} {fs gs : List Fld} (h : ∀ f ∈ fs, ∃ g ∈ gs, g.off = f.off) : ∀ a, theRegs p fs a → theRegs p gs a := by
  rintro a ⟨f, hf, ha⟩
  obtain ⟨g, hg, e⟩ := h f hf
  exact ⟨g, hg, by rw [ha, e]⟩

/-! ### The work begins -/

/-- The work as it begins under a supply warning, or without. -/
def PlumbJob.begins (j : PlumbJob) (s : State) (c : Nat) : PlumbJob := { j with restart := decide ((s.hamlet (c / 16)).warn ≠ 0) }

/-- What the beginning of work on a well may change. -/
def plumbTouch (c w : Nat) : Touch :=
  { regs := someRegs [(pgPlumb c, [R.plumb_STATUS_CUR_WELL, R.plumb_ABORT_CNT]), (pgWell (c * 16 + w), [R.well_CAL_STATUS_WINDOW])]
    crofts := (· = c) }

theorem plumbBegin_run {c : Nat} {j : PlumbJob} (hw : j.well < 16) (s : State) :
    let t := (plumbBegin c j).run s
    let again := decide ((s.hamlet (c / 16)).warn ≠ 0)
    t.croft c = { s.croft c with plumb := some (j.begins s c) } ∧ t.fld (pgPlumb c) R.plumb_STATUS_CUR_WELL = j.well ∧
    t.bit (pgPlumb c) R.plumb_STATUS_BUSY_SOUND = j.sound ∧ t.bit (pgPlumb c) R.plumb_STATUS_BUSY_WINDOW = !j.sound ∧
    t.bit (pgWell (c * 16 + j.well)) (if j.sound then R.well_CAL_STATUS_SOUNDING else R.well_CAL_STATUS_WINDOW) = true ∧
    Counts s t (pgPlumb c) R.plumb_ABORT_CNT (if again then 1 else 0) ∧
    Keeps (plumbTouch c j.well) s t := by
  dsimp only
  have hmod : j.well % 16 = j.well := Nat.mod_eq_of_lt hw
  have hkeep : Keeps (plumbTouch c j.well) s ((plumbBegin c j).run s) := by
    refine Prog.keeps ?_ s
    cases hs : j.sound <;> simp [plumbBegin, plumbShow, Prog.only_when, hs, plumbTouch]
  have hcroft : ((plumbBegin c j).run s).croft c = { s.croft c with plumb := some (j.begins s c) } := by
    rw [plumbBegin, Prog.run_get, Prog.run_all_cons]
    refine (Keeps.crofts (Prog.keeps (T := { regs := fun _ => True }) ?_ _) c id).trans (modCroft_run_self ..)
    simp [plumbShow, Prog.only_when, onReg]
  refine ⟨hcroft, ?_, ?_, ?_, ?_, ?_, hkeep⟩
  all_goals
    cases hs : j.sound <;> by_cases hd : (s.hamlet (c / 16)).warn = 0 <;>
      simp -implicitDefEqProofs [plumbBegin, plumbShow, modCroft, hs, hd, hmod, Counts, satAdd_zero, State.bit]

theorem markStarted_run (c serial : Nat) (s : State) :
    ((markStarted c serial).run s).croft c = { s.croft c with reeve := (s.reeve c).begun serial } ∧
    Keeps { crofts := (· = c) } s ((markStarted c serial).run s) :=
  ⟨modCroft_run_self c (fun k => { k with reeve := k.reeve.begun serial }) s, Prog.keeps (by simp [markStarted]) s⟩

theorem startPlumb_run {c : Nat} {o : Issued} {mask w : Nat} {rest : List Nat} {sound : Bool} (hd : decodeOrder o.word = .ok (.plumb mask sound))
    (hws : (List.range 16).filter (fun w => mask / 2 ^ w % 2 = 1) = w :: rest) (hbusy : s.wellsBusy c o.serial (w :: rest) = false)
    (huse : ∀ x ∈ w :: rest, s.wellUse c x / 4 ≠ 0) (hp : (s.croft c).plumb = none) : (startOrder c o).run s =
    (Prog.all [markStarted c o.serial, plumbBegin c ⟨some (o.serial, o.idx), w, rest, sound, false⟩]).run s := by
  have hnone : (w :: rest).find? (fun w => s.wellUse c w / 4 = 0) = none := List.find?_eq_none.2 fun x hx => by simpa using huse x hx
  simp only [startOrder, hd, startPlumb, Prog.run_get, hws, hbusy, hp, Option.isSome_none, Bool.or_self, Bool.false_eq_true, if_false, hnone]

/-- The end of a start: the step limiter may have counted the order. -/
theorem limiterTail_run (b : Bool) (s : State) :
    let t := (Prog.when b (bump pgPower R.power_STEP_DELAY_CNT)).run ((eff .seq).run s)
    MayCountHold s t ∧ Keeps { regs := theRegs pgPower [R.power_STEP_DELAY_CNT], seq := True } s t := by
  have hseq : Keeps { seq := True } s ((eff .seq).run s) :=
    Prog.keeps (T := { seq := True }) (p := eff .seq) ((Prog.only_eff _).2 trivial) s
  dsimp only
  cases b
  · exact ⟨.inl rfl, hseq.mono (by constructor <;> simp)⟩
  · obtain ⟨hcnt, hkeep⟩ := bumpBy_run pgPower R.power_STEP_DELAY_CNT 1 ((eff .seq).run s)
    exact ⟨.inr hcnt, (hseq.mono (by constructor <;> simp)).trans (hkeep.mono (by constructor <;> simp))⟩

/-- What the plumb shows of work that has begun on a well, against the state before it. -/
structure PlumbBegun (s t : State) (c w : Nat) (rest : List Nat) (sound : Bool) (by' : Option Issued) : Prop where
  croft : t.croft c = { s.croft c with
    reeve := (match by' with | some o => (s.reeve c).begun o.serial | none => s.reeve c)
    plumb := some ⟨by'.map (fun o => (o.serial, o.idx)), w, rest, sound, decide ((s.hamlet (c / 16)).warn ≠ 0)⟩ }
  cur : t.fld (pgPlumb c) R.plumb_STATUS_CUR_WELL = w
  busy : t.bit (pgPlumb c) R.plumb_STATUS_BUSY_SOUND = sound ∧ t.bit (pgPlumb c) R.plumb_STATUS_BUSY_WINDOW = !sound
  well : t.bit (pgWell (c * 16 + w)) (if sound then R.well_CAL_STATUS_SOUNDING else R.well_CAL_STATUS_WINDOW) = true
  abort : Counts s t (pgPlumb c) R.plumb_ABORT_CNT (if decide ((s.hamlet (c / 16)).warn ≠ 0) then 1 else 0)

theorem plumbOrder_run {c : Nat} {o : Issued} {w : Nat} (hw : w < 16) (rest : List Nat) (sound b : Bool) (s : State) :
    let t := (Prog.all [.all [markStarted c o.serial, plumbBegin c ⟨some (o.serial, o.idx), w, rest, sound, false⟩], eff .seq,
      Prog.when b (bump pgPower R.power_STEP_DELAY_CNT)]).run s
    PlumbBegun s t c w rest sound (some o) ∧ Counts s t (pgPlumb c) R.plumb_AUTO_CNT 0 ∧ MayCountHold s t ∧
    Keeps { regs := someRegs ([(pgPlumb c, [R.plumb_STATUS_CUR_WELL, R.plumb_ABORT_CNT, R.plumb_AUTO_CNT]),
              (pgWell (c * 16 + w), [R.well_CAL_STATUS_WINDOW])] ++ [(pgPower, [R.power_STEP_DELAY_CNT])]),
            crofts := (· = c), seq := True } s t := by
  dsimp only
  rw [Prog.run_all_cons, Prog.run_all_cons, Prog.run_all_cons, Prog.run_all_nil, Prog.run_all_cons, Prog.run_all_cons, Prog.run_all_nil]
  obtain ⟨hcroft, hmark⟩ := markStarted_run c o.serial s
  generalize (markStarted c o.serial).run s = u at *
  obtain ⟨hcroft', hcur, hsound, hwindow, hwell, habort, hbegin⟩ :=
    plumbBegin_run (c := c) (j := ⟨some (o.serial, o.idx), w, rest, sound, false⟩) hw u
  generalize (plumbBegin c ⟨some (o.serial, o.idx), w, rest, sound, false⟩).run u = v at *
  obtain ⟨hmay, htail⟩ := limiterTail_run b v
  generalize (Prog.when b (bump pgPower R.power_STEP_DELAY_CNT)).run ((eff .seq).run v) = t at *
  have hham : u.hamlet = s.hamlet := funext fun k => hmark.hamlets k id
  rw [hham] at habort
  have hpage (q : Page) (hq : q.kind ≠ .power) (hp : q.placed) {x : Nat} (hx : x < 0x1000) : t.reg q x = v.reg q x :=
    htail.reg_eq (not_theRegs_apart (by simp [hx, hq, hp]))
  refine ⟨⟨?_, ?_, ⟨?_, ?_⟩, ?_, ?_⟩, ?_, ?_, ((hmark.mono ?_).trans (hbegin.mono ?_)).trans (htail.mono ?_)⟩
  · rw [htail.crofts c id, hcroft', hcroft, PlumbJob.begins, hham]
    rfl
  · rw [State.fld_eq, hpage _ (by simp) (by simp) (by decide), ← State.fld_eq, hcur]
  · rw [State.bit, State.fld_eq, hpage _ (by simp) (by simp) (by decide), ← State.fld_eq, ← State.bit, hsound]
  · rw [State.bit, State.fld_eq, hpage _ (by simp) (by simp) (by decide), ← State.fld_eq, ← State.bit, hwindow]
  · rw [State.bit, State.fld_eq, hpage _ (by simp) (by simp) (by split <;> decide), ← State.fld_eq, ← State.bit]
    exact hwell
  · rw [Counts, hpage _ (by simp) (by simp) (by decide), habort, hmark.reg_eq id]
  · rw [Counts, hpage _ (by simp) (by simp) (by decide), hbegin.reg_eq (not_someRegs_apart (by simp)), hmark.reg_eq id, satAdd_zero]
  · rw [MayCountHold, Counts, ← hmark.reg_eq (p := pgPower) (o := R.power_STEP_DELAY_CNT.off) id,
      ← hbegin.reg_eq (p := pgPower) (o := R.power_STEP_DELAY_CNT.off) (not_someRegs_apart (by simp))]
    exact hmay
  · constructor <;> simp
  · constructor
    case regs =>
      rintro a ⟨x, hx, hr⟩
      simp only [List.mem_cons, List.not_mem_nil, or_false] at hx
      obtain rfl | rfl := hx
      · exact ⟨_, List.mem_cons_self, theRegs_mono (by simp) a hr⟩
      · exact ⟨_, by simp, hr⟩
    case crofts => exact fun _ h => h
    all_goals simp [plumbTouch]
  · constructor
    case regs => exact fun a hr => ⟨_, List.mem_append_right _ List.mem_cons_self, hr⟩
    all_goals simp

theorem plumbAuto_run {c w : Nat} (hw : w < 16) (sound : Bool) (s : State) :
    let t := (Prog.all [bump (pgPlumb c) R.plumb_AUTO_CNT, plumbBegin c ⟨none, w, [], sound, false⟩]).run s
    PlumbBegun s t c w [] sound none ∧ Counts s t (pgPlumb c) R.plumb_AUTO_CNT 1 ∧ MayCountHold s t ∧
    Keeps { regs := someRegs ([(pgPlumb c, [R.plumb_STATUS_CUR_WELL, R.plumb_ABORT_CNT, R.plumb_AUTO_CNT]),
              (pgWell (c * 16 + w), [R.well_CAL_STATUS_WINDOW])] ++ []),
            crofts := (· = c) } s t := by
  dsimp only
  have hone : bump (pgPlumb c) R.plumb_AUTO_CNT = bumpBy (pgPlumb c) R.plumb_AUTO_CNT 1 := rfl
  rw [Prog.run_all_cons, Prog.run_all_cons, Prog.run_all_nil, hone]
  obtain ⟨hcnt, hkeep⟩ := bumpBy_run (pgPlumb c) R.plumb_AUTO_CNT 1 s
  generalize (bumpBy (pgPlumb c) R.plumb_AUTO_CNT 1).run s = u at *
  obtain ⟨hcroft, hcur, hsound, hwindow, hwell, habort, hbegin⟩ := plumbBegin_run (c := c) (j := ⟨none, w, [], sound, false⟩) hw u
  generalize (plumbBegin c ⟨none, w, [], sound, false⟩).run u = t at *
  have hham : u.hamlet = s.hamlet := funext fun k => hkeep.hamlets k id
  rw [hham] at habort
  refine ⟨⟨?_, hcur, ⟨hsound, hwindow⟩, hwell, ?_⟩, ?_, .inl ?_, (hkeep.mono ?_).trans (hbegin.mono ?_)⟩
  · rw [hcroft, hkeep.crofts c id, PlumbJob.begins, hham]
    rfl
  · rw [Counts, habort, hkeep.reg_eq (not_theRegs_offset (by decide) _)]
  · rw [Counts, hbegin.reg_eq (not_someRegs_apart (by simp)), hcnt]
  · rw [hbegin.reg_eq (not_someRegs_apart (by simp)), hkeep.reg_eq (not_theRegs_apart (by simp))]
  · constructor
    case regs => exact fun a hr => ⟨_, List.mem_cons_self, theRegs_mono (by simp) a hr⟩
    all_goals simp
  · constructor
    case regs =>
      rintro a ⟨x, hx, hr⟩
      simp only [List.mem_cons, List.not_mem_nil, or_false] at hx
      obtain rfl | rfl := hx
      · exact ⟨_, List.mem_cons_self, theRegs_mono (by simp) a hr⟩
      · exact ⟨_, by simp, hr⟩
    case crofts => exact fun _ h => h
    all_goals simp [plumbTouch]

theorem find?_first {p : Nat → Bool} {w n : Nat} (hw : w < n) (hp : p w = true) (h : ∀ x < w, p x = false) : (List.range n).find? p = some w := by
  refine List.find?_eq_some_iff_getElem.2 ⟨hp, w, by simpa using hw, List.getElem_range _, fun j hj => ?_⟩
  simp [h j hj]

theorem exec_plumbAuto {c : CroftId} {w : Nat} {sound : Bool} (hw : w < 16) (hauto : s.bit (pgPlumb c.val) R.plumb_PLUMBCFG_AUTO = true)
    (hr : s.underReset (pgPlumb c.val) = false) (hload : (s.well (c.val * 16 + w)).load = none)
    (hover : (if sound then (s.well (c.val * 16 + w)).overSound else (s.well (c.val * 16 + w)).overWindow) = true)
    (hfirst : ∀ x < w, (s.well (c.val * 16 + x)).load = none →
      (if sound then (s.well (c.val * 16 + x)).overSound else (s.well (c.val * 16 + x)).overWindow) = false)
    (hnone : sound = false → ∀ x < 16, (s.well (c.val * 16 + x)).load = none → (s.well (c.val * 16 + x)).overSound = false)
    (hp : (s.croft c.val).plumb = none) : exec (.plumbAutoStart c) s =
    .next ((Prog.all [bump (pgPlumb c.val) R.plumb_AUTO_CNT, plumbBegin c.val ⟨none, w, [], sound, false⟩]).run s) := by
  show execPlumbAutoStart c s = _
  rw [execPlumbAutoStart, Prog.next_eq, Prog.run_get]
  dsimp only
  rw [if_neg (by simp [hauto, hp, hr])]
  have hok {x : Nat} {b : Bool} (h : (s.well (c.val * 16 + x)).load = none → b = false) : ((s.well (c.val * 16 + x)).load.isNone && b) = false := by
    cases hl : (s.well (c.val * 16 + x)).load with
    | none => rw [h hl, Bool.and_false]
    | some l => rfl
  cases sound with
  | true =>
    rw [find?_first (p := fun w => (s.well (c.val * 16 + w)).load.isNone && (s.well (c.val * 16 + w)).overSound) hw
      (by rw [hload]; exact hover) fun x hx => hok (hfirst x hx)]
  | false =>
    have hsnd : (List.range 16).find? (fun w => (s.well (c.val * 16 + w)).load.isNone && (s.well (c.val * 16 + w)).overSound) = none :=
      List.find?_eq_none.2 fun x hx => by
        rw [hok (hnone rfl x (List.mem_range.1 hx))]
        exact Bool.false_ne_true
    rw [hsnd, find?_first (p := fun w => (s.well (c.val * 16 + w)).load.isNone && (s.well (c.val * 16 + w)).overWindow) hw
        (by rw [hload]; exact hover) fun x hx => hok (hfirst x hx)]

/-! ### Due and overdue -/

/-- The flags of CAL_STATUS that neither DUE nor OVERDUE is. -/
def calFlags : List Fld := [R.well_CAL_STATUS_CALIBRATED, R.well_CAL_STATUS_WINDOW, R.well_CAL_STATUS_SOUNDING, R.well_CAL_STATUS_SOUND_FAIL]

/-- Whether DUE of a well reads 1 (R117). -/
def State.readsDue (s : State) (g : Nat) : Bool := (s.well g).due || s.tempMet g (s.fld (pgPlumb (g / 16)) R.plumb_PLUMBCFG_CAL_DT)

/-- What DUE of a well may change. -/
def dueTouch (g : Nat) : Touch :=
  { regs := someRegs [(pgPlumb (g / 16), [R.plumb_STATUS_DUE_MASK]), (pgWell g, [R.well_CAL_STATUS_DUE])], wells := (· = g) }

theorem showDue_facts (g : Nat) (s : State) :
    let t := (showDue g).run s
    t.bit (pgWell g) R.well_CAL_STATUS_DUE = s.readsDue g ∧
    (∀ f ∈ R.well_CAL_STATUS_OVERDUE :: calFlags, t.bit (pgWell g) f = s.bit (pgWell g) f) ∧ t.well g = s.well g ∧ Keeps (dueTouch g) s t := by
  have hrun : (showDue g).run s = (Prog.all [setBit (pgWell g) R.well_CAL_STATUS_DUE (s.readsDue g),
    setBit (pgPlumb (g / 16)) (dueBit (g % 16)) (s.readsDue g)]).run s := rfl
  dsimp only
  rw [hrun]
  generalize s.readsDue g = b
  have hg : g % 16 < 16 := Nat.mod_lt _ (by decide)
  refine ⟨?_, ?_, ?_, Prog.keeps (by simp [dueTouch]) s⟩
  · cases b <;> simp -implicitDefEqProofs [State.bit]
  · simp only [calFlags, List.forall_mem_cons, List.not_mem_nil, false_imp_iff, implies_true, and_true]
    refine ⟨?_, ?_, ?_, ?_, ?_⟩
    all_goals simp -implicitDefEqProofs [State.bit]
  · simp -implicitDefEqProofs

theorem showOverdue_facts (g : Nat) (s : State) :
    let t := (showOverdue g).run s
    t.bit (pgWell g) R.well_CAL_STATUS_OVERDUE = ((s.well g).overWindow || (s.well g).overSound) ∧
    (∀ f ∈ R.well_CAL_STATUS_DUE :: calFlags, t.bit (pgWell g) f = s.bit (pgWell g) f) ∧ t.well g = s.well g ∧ Keeps (overdueTouch g) s t := by
  have hkeep : Keeps (overdueTouch g) s ((showOverdue g).run s) := Prog.keeps (by simp +decide [showOverdue, Prog.only_when, overdueTouch]) s
  have hfirst (b : Bool) (u : State) : ((setBit (pgWell g) R.well_CAL_STATUS_OVERDUE b).run u).bit (pgWell g) R.well_CAL_STATUS_OVERDUE = b ∧
      (∀ f ∈ R.well_CAL_STATUS_DUE :: calFlags, ((setBit (pgWell g) R.well_CAL_STATUS_OVERDUE b).run u).bit (pgWell g) f = u.bit (pgWell g) f) ∧
      ((setBit (pgWell g) R.well_CAL_STATUS_OVERDUE b).run u).well g = u.well g := by
    simp only [calFlags, List.forall_mem_cons, List.not_mem_nil, false_imp_iff, implies_true, and_true]
    refine ⟨?_, ⟨?_, ?_, ?_, ?_, ?_⟩, ?_⟩
    all_goals cases b <;> simp -implicitDefEqProofs [State.bit]
  have hrun : (showOverdue g).run s = (setBit (pgWell g) R.well_CAL_STATUS_OVERDUE ((s.well g).overWindow || (s.well g).overSound)).run
      ((Prog.when (((s.well g).overWindow || (s.well g).overSound) && !s.bit (pgWell g) R.well_CAL_STATUS_OVERDUE)
        (.all [bump (pgWell g) R.well_OVERDUE_CNT, raiseLine (pgWell g)])).run s) := by
    rw [showOverdue, Prog.run_get, Prog.run_all_cons, Prog.run_all_cons, Prog.run_all_nil]
  have hcount : Keeps { regs := theRegs (pgWell g) [R.well_OVERDUE_CNT, R.CRIER_LINE_RAISED] } s
      ((Prog.when (((s.well g).overWindow || (s.well g).overSound) && !s.bit (pgWell g) R.well_CAL_STATUS_OVERDUE)
        (.all [bump (pgWell g) R.well_OVERDUE_CNT, raiseLine (pgWell g)])).run s) := Prog.keeps (by simp [Prog.only_when]) s
  dsimp only
  rw [hrun] at hkeep ⊢
  generalize (Prog.when _ _).run s = u at *
  obtain ⟨hbit, hflags, hwell⟩ := hfirst ((s.well g).overWindow || (s.well g).overSound) u
  refine ⟨hbit, fun f hf => (hflags f hf).trans (hcount.bit_eq (not_theRegs_offset ?_ _)), hwell.trans (hcount.wells g id), hkeep⟩
  revert f
  decide

theorem modWell_run (g : Nat) (f : Well → Well) (s : State) :
    ((modWell g f).run s).well g = f (s.well g) ∧ Keeps { wells := (· = g) } s ((modWell g f).run s) :=
  ⟨by simp [modWell], Prog.keeps (by simp) s⟩

theorem setDue_facts (g : Nat) (b : Bool) (s : State) :
    let t := (setDue g b).run s
    t.bit (pgWell g) R.well_CAL_STATUS_DUE = (b || s.tempMet g (s.fld (pgPlumb (g / 16)) R.plumb_PLUMBCFG_CAL_DT)) ∧
    (∀ f ∈ R.well_CAL_STATUS_OVERDUE :: calFlags, t.bit (pgWell g) f = s.bit (pgWell g) f) ∧ t.well g = { s.well g with due := b } ∧
    Keeps (dueTouch g) s t := by
  dsimp only
  rw [setDue, Prog.run_all_cons, Prog.run_all_cons, Prog.run_all_nil]
  obtain ⟨hwell, hkeep⟩ := modWell_run g (fun r => { r with due := b }) s
  have hmet : ((modWell g (fun r => { r with due := b })).run s).tempMet g (((modWell g (fun r => { r with due := b })).run s).fld (pgPlumb (g / 16))
    R.plumb_PLUMBCFG_CAL_DT) = s.tempMet g (s.fld (pgPlumb (g / 16)) R.plumb_PLUMBCFG_CAL_DT) := rfl
  generalize (modWell g (fun r => { r with due := b })).run s = u at *
  obtain ⟨hdue, hflags, hwell', hkeep'⟩ := showDue_facts g u
  refine ⟨?_, fun f hf => (hflags f hf).trans (hkeep.bit_eq id), hwell'.trans hwell, (hkeep.mono ?_).trans hkeep'⟩
  · rw [hdue, State.readsDue, hmet, hwell]
  · constructor
    case wells => exact fun _ h => h
    all_goals simp

/-- A kind of overdue work is noted in the well's record, and OVERDUE follows. -/
theorem setOver_facts (g : Nat) (f : Well → Well) (s : State) :
    let t := (Prog.all [modWell g f, showOverdue g]).run s
    t.bit (pgWell g) R.well_CAL_STATUS_OVERDUE = ((f (s.well g)).overWindow || (f (s.well g)).overSound) ∧
    (∀ f ∈ R.well_CAL_STATUS_DUE :: calFlags, t.bit (pgWell g) f = s.bit (pgWell g) f) ∧ t.well g = f (s.well g) ∧ Keeps (overdueTouch g) s t := by
  dsimp only
  rw [Prog.run_all_cons, Prog.run_all_cons, Prog.run_all_nil]
  obtain ⟨hwell, hkeep⟩ := modWell_run g f s
  generalize (modWell g f).run s = u at *
  obtain ⟨hover, hflags, hwell', hkeep'⟩ := showOverdue_facts g u
  refine ⟨by rw [hover, hwell], fun f hf => (hflags f hf).trans (hkeep.bit_eq id), hwell'.trans hwell, (hkeep.mono ?_).trans hkeep'⟩
  constructor
  case wells => exact fun _ h => h
  all_goals simp

/-! ### The work ends -/

/-- The croft once its plumb has no work, and the order of the work, if any, is complete. -/
def Croft.plumbed (k : Croft) (order : Option (Nat × Nat)) : Croft := { k with
  plumb := none, reeve := match order with | some x => k.reeve.ended x.1 | none => k.reeve }

theorem plumbNext_run (c : Nat) {j : PlumbJob} (h : j.rest = []) (s : State) :
    let t := (plumbNext c j).run s
    t.croft c = (s.croft c).plumbed j.order ∧ t.bit (pgPlumb c) R.plumb_STATUS_BUSY_WINDOW = false ∧
    Keeps { regs := theRegs (pgPlumb c) [R.plumb_STATUS_CUR_WELL], crofts := (· = c) } s t := by
  dsimp only
  rw [plumbNext, h]
  cases ho : j.order with
  | none =>
    dsimp only
    refine ⟨?_, ?_, Prog.keeps (by simp [plumbShow]) s⟩
    · rw [Prog.run_all_cons, Prog.run_all_cons, Prog.run_all_nil]
      exact (Keeps.crofts (Prog.keeps (T := { regs := fun _ => True }) (by simp [plumbShow, onReg]) _) c id).trans (modCroft_run_self ..)
    · simp -implicitDefEqProofs [plumbShow, State.bit]
  | some x =>
    obtain ⟨serial, i⟩ := x
    dsimp only
    refine ⟨?_, ?_, Prog.keeps (by simp [plumbShow]) s⟩
    · rw [Prog.run_all_cons, Prog.run_all_cons, Prog.run_all_cons, Prog.run_all_nil]
      have hmod := modCroft_run_self c (fun k => { k with plumb := none }) s
      generalize (modCroft c (fun k => { k with plumb := none })).run s = u at *
      have hshow := Keeps.crofts (Prog.keeps (T := { regs := fun _ => True }) (p := plumbShow c none) (by simp [plumbShow, onReg]) u) c id
      generalize (plumbShow c none).run u = v at *
      refine (modCroft_run_self c (fun k => { k with reeve := k.reeve.ended serial }) v).trans ?_
      rw [hshow, hmod]
      rfl
    · simp -implicitDefEqProofs [plumbShow, State.bit, dropOrder, modReeve, modCroft]

/-- What a window measured is taken into the well's record. -/
def windowTakes (g : Nat) (new : List (Nat × Int)) (now : Nat) (drawing : Bool) : Prog := .all [
  modWell g (fun r => { r with shadow := some new, windowAt := some now }), Prog.when (!drawing) (commitTrims g)]

/-- The well's record with a window's trims, in its shadow or in force. -/
def Well.measured (r : Well) (new : List (Nat × Int)) (now : Nat) (drawing : Bool) : Well := { r with
  windowAt := some now
  trims := if drawing then r.trims else new.foldl (fun m x => Sparse.set m x.1 x.2) r.trims
  shadow := if drawing then some new else none }

theorem windowTakes_run (g : Nat) (new : List (Nat × Int)) (now : Nat) (drawing : Bool) (s : State) :
    let t := (windowTakes g new now drawing).run s
    t.well g = (s.well g).measured new now drawing ∧ Keeps { wells := (· = g) } s t := by
  dsimp only
  rw [windowTakes, Prog.run_all_cons, Prog.run_all_cons, Prog.run_all_nil]
  obtain ⟨hwell, hkeep⟩ := modWell_run g (fun r => { r with shadow := some new, windowAt := some now }) s
  generalize (modWell g (fun r => { r with shadow := some new, windowAt := some now })).run s = u at *
  cases drawing with
  | true => exact ⟨hwell, hkeep⟩
  | false =>
    have hrun : (Prog.when (!false) (commitTrims g)).run u =
        (modWell g (fun r => { r with trims := new.foldl (fun m x => Sparse.set m x.1 x.2) r.trims, shadow := none })).run u := by
      show (commitTrims g).run u = _
      rw [commitTrims, Prog.run_get, hwell]
    rw [hrun]
    obtain ⟨hwell', hkeep'⟩ := modWell_run g (fun r => { r with trims := new.foldl (fun m x => Sparse.set m x.1 x.2) r.trims, shadow := none }) u
    refine ⟨?_, hkeep.trans hkeep'⟩
    rw [hwell', hwell]
    rfl

/-- What the well's page shows of a window that ends. -/
def windowShows (g tj shift col : Nat) : Prog := .all [
  setFld (pgWell g) R.well_CAL_STATUS_WINDOW 0, setFld (pgWell g) R.well_CAL_STATUS_CALIBRATED 1, setFld (pgWell g) R.well_CAL_TEMP_T_CAL tj,
  setFld (pgWell g) R.well_CAL_DRIFT_MAX_SHIFT shift, setFld (pgWell g) R.well_CAL_DRIFT_COL col, bump (pgWell g) R.well_WINDOW_CNT]

theorem windowShows_run (g : Nat) {tj : Nat} (ht : tj < 2 ^ 12) (shift col : Nat) (s : State) :
    let t := (windowShows g tj shift col).run s
    t.bit (pgWell g) R.well_CAL_STATUS_WINDOW = false ∧ t.bit (pgWell g) R.well_CAL_STATUS_CALIBRATED = true ∧
    t.fld (pgWell g) R.well_CAL_TEMP_T_CAL = tj ∧ Counts s t (pgWell g) R.well_WINDOW_CNT 1 ∧
    Keeps { regs := theRegs (pgWell g) [R.well_CAL_STATUS_WINDOW, R.well_CAL_TEMP_T_CAL, R.well_CAL_DRIFT_COL, R.well_WINDOW_CNT] } s t := by
  have hmod : tj % 4096 = tj := Nat.mod_eq_of_lt ht
  refine ⟨?_, ?_, ?_, ?_, Prog.keeps (by simp [windowShows]) s⟩
  all_goals simp -implicitDefEqProofs [windowShows, State.bit, Counts, hmod]

/-- A clean window on a suspect well is noted. -/
def notesClean (b : Bool) (g : Nat) : Prog := Prog.when b (modWell g (fun r => { r with cleanWindow := true }))

theorem notesClean_run (b : Bool) (g : Nat) (s : State) :
    let t := (notesClean b g).run s
    t.well g = { s.well g with cleanWindow := if b then true else (s.well g).cleanWindow } ∧ Keeps { wells := (· = g) } s t := by
  cases b with
  | false => exact ⟨rfl, Keeps.refl _ s⟩
  | true => exact modWell_run g (fun r => { r with cleanWindow := true }) s

/-- The largest change of a trim in a window, and its column. -/
def State.drift (s : State) (g : Nat) (ts : List (Nat × Nat × Int)) : Nat × Nat :=
  ts.foldl (fun (b : Nat × Nat) t =>
    let d := (max (-256) (min 255 t.2.2) - s.trim g t.1 t.2.1).natAbs
    if b.1 < d then (d, t.1) else b) (0, 0)

section
variable {c : CroftId} {j : PlumbJob} (hj : (s.croft c.val).plumb = some j) (hrest : j.restart = false)
include hj hrest

theorem exec_windowEnd (hs : j.sound = false) {ts : List (Nat × Nat × Int)} (hts : ∀ x ∈ ts, -256 ≤ x.2.2 ∧ x.2.2 ≤ 255)
    (hstale : s.bit (pgPlumb c.val) R.plumb_STATUS_TEMP_STALE = false) : exec (.windowEnd c ts) s = .next (
      let g := c.val * 16 + j.well
      (plumbNext c.val j).run ((notesClean (s.bit (pgWell g) R.well_STATUS_SUSPECT) g).run ((setOverWindow g false).run ((setDue g false).run
        ((windowShows g (s.fld (pgPlumb c.val) R.plumb_TEMP_TJ) (s.drift g ts).1 (s.drift g ts).2).run ((windowTakes g (ts.map (fun x => (x.1 * 128 + x.2.1, x.2.2))) s.now
          ((s.croft c.val).runs.any (fun r => r.live && r.args.wells.contains j.well))).run s)))))) := by
  have hhold {x : Nat × Nat × Int} (hx : x ∈ ts) : max (-256) (min 255 x.2.2) = x.2.2 := by
    have := hts x hx
    omega
  have hmap : ts.map (fun t => (t.1 * 128 + t.2.1, max (-256) (min 255 t.2.2))) = ts.map (fun x => (x.1 * 128 + x.2.1, x.2.2)) :=
    List.map_congr_left fun x hx => by rw [hhold hx]
  have hin : ts.filter (fun t => decide (max (-256) (min 255 t.2.2) ≠ t.2.2)) = [] :=
    List.filter_eq_nil_iff.2 fun x hx => by simp [hhold hx]
  show execWindowEnd c ts s = _
  rw [execWindowEnd, Prog.next_eq, Prog.run_get, hj]
  dsimp only
  rw [if_neg (by simp [hs, hrest]), hmap, hin, List.filterMap_nil, List.eraseDups_nil, if_pos List.isEmpty_nil, hstale]
  simp -implicitDefEqProofs only [Prog.run_all_cons, Prog.run_all_nil, windowTakes, windowShows, notesClean]
  rfl

/-- What a failed sounding does to its well. -/
def soundFails (g : Nat) : Prog := .all [
  setFld (pgWell g) R.well_CAL_STATUS_SOUND_FAIL 1, suspect g R.well_SUSPECT_CAUSE_SOUND, setDue g true, raiseLine (pgWell g)]

theorem exec_soundingEnd (hs : j.sound = true) (sums : List (Nat × List Int)) : exec (.soundingEnd c sums) s = .next (
      let g := c.val * 16 + j.well
      (plumbNext c.val j).run ((Prog.when (sums.any (fun x => (List.zip x.2 soundPoints).any (fun y => decide (72 < (y.1 - 12 * y.2).natAbs))))
        (soundFails g)).run ((setOverSound g false).run ((bump (pgWell g) R.well_SOUND_CNT).run
        ((setFld (pgWell g) R.well_CAL_STATUS_SOUNDING 0).run ((modWell g (fun r => { r with soundAt := some s.now })).run s)))))) := by
  show execSoundingEnd c sums s = _
  rw [execSoundingEnd, Prog.next_eq, Prog.run_get, hj]
  dsimp only
  rw [if_neg (by simp [hs, hrest])]
  simp -implicitDefEqProofs only [Prog.run_all_cons, Prog.run_all_nil, soundFails]

end

/-- What the end of a window may change, and of a sounding. -/
def windowRegs : List Fld := [R.well_CAL_STATUS_WINDOW, R.well_CAL_TEMP_T_CAL, R.well_CAL_DRIFT_COL, R.well_WINDOW_CNT, R.well_OVERDUE_CNT,
  R.CRIER_LINE_RAISED]
def soundingRegs : List Fld := [R.well_CAL_STATUS_SOUNDING, R.well_SOUND_CNT, R.well_STATUS_SUSPECT, R.well_SUSPECT_CAUSE_SOUND, R.well_SUSPECT_CNT,
  R.well_OVERDUE_CNT, R.CRIER_LINE_RAISED]
def plumbRegs : List Fld := [R.plumb_STATUS_CUR_WELL, R.plumb_STATUS_DUE_MASK]
def endTouch (c g : Nat) (fs : List Fld) (dev : Prop) : Touch :=
  { regs := someRegs [(pgPlumb c, plumbRegs), (pgWell g, fs)]
    crofts := (· = c), wells := (· = g), dev := dev }

theorem endTouch_well {c g : Nat} {fs gs : List Fld} {dev : Prop} (h : ∀ f ∈ fs, ∃ f' ∈ gs, f'.off = f.off) :
    ∀ a, theRegs (pgWell g) fs a → (endTouch c g gs dev).regs a :=
  fun a hr => ⟨_, List.mem_cons_of_mem _ List.mem_cons_self, theRegs_sub h a hr⟩

theorem endTouch_plumb {c g : Nat} {gs : List Fld} {dev : Prop} : ∀ a, theRegs (pgPlumb c) [R.plumb_STATUS_CUR_WELL] a → (endTouch c g gs dev).regs a :=
  fun a hr => ⟨_, List.mem_cons_self, theRegs_sub (gs := plumbRegs) (by decide) a hr⟩

theorem endTouch_due {c g : Nat} {gs : List Fld} {dev : Prop} (hdiv : g / 16 = c) (h : ∃ f ∈ gs, f.off = R.well_CAL_STATUS_DUE.off) :
    ∀ a, (dueTouch g).regs a → (endTouch c g gs dev).regs a := by
  rintro a ⟨x, hx, hr⟩
  simp only [List.mem_cons, List.not_mem_nil, or_false] at hx
  obtain rfl | rfl := hx
  · rw [hdiv] at hr
    exact ⟨_, List.mem_cons_self, theRegs_sub (fs := [R.plumb_STATUS_DUE_MASK]) (gs := plumbRegs) (by decide) a hr⟩
  · exact endTouch_well (by simpa using h) a hr

theorem windowEnd_run {c : CroftId} {j : PlumbJob} (hj : (s.croft c.val).plumb = some j) (hrest : j.restart = false) (hnil : j.rest = [])
    (hw : j.well < 16) (hs : j.sound = false) {ts : List (Nat × Nat × Int)} (hts : ∀ x ∈ ts, -256 ≤ x.2.2 ∧ x.2.2 ≤ 255)
    (hstale : s.bit (pgPlumb c.val) R.plumb_STATUS_TEMP_STALE = false) :
    let g := c.val * 16 + j.well
    Leaves (exec (.windowEnd c ts) s) (fun t =>
      let new := ts.map (fun x => (x.1 * 128 + x.2.1, x.2.2))
      t.bit (pgWell g) R.well_CAL_STATUS_WINDOW = false ∧ t.bit (pgWell g) R.well_CAL_STATUS_CALIBRATED = true ∧
      t.bit (pgWell g) R.well_CAL_STATUS_DUE = decide (s.fld (pgPlumb c.val) R.plumb_PLUMBCFG_CAL_DT = 0) ∧ t.bit (pgWell g) R.well_CAL_STATUS_OVERDUE = (s.well g).overSound ∧
      t.fld (pgWell g) R.well_CAL_TEMP_T_CAL = s.fld (pgPlumb c.val) R.plumb_TEMP_TJ ∧ Counts s t (pgWell g) R.well_WINDOW_CNT 1 ∧
      t.well g = { s.well g with
        windowAt := some s.now, due := false, overWindow := false
        cleanWindow := if s.bit (pgWell g) R.well_STATUS_SUSPECT then true else (s.well g).cleanWindow
        trims := if s.drawing g then (s.well g).trims else new.foldl (fun m x => Sparse.set m x.1 x.2) (s.well g).trims
        shadow := if s.drawing g then some new else none } ∧
      t.bit (pgPlumb c.val) R.plumb_STATUS_BUSY_WINDOW = false ∧
      t.croft c.val = { s.croft c.val with
        plumb := none
        reeve := (match j.order with | some x => (s.reeve c.val).ended x.1 | none => s.reeve c.val) } ∧
      Keeps (endTouch c.val g windowRegs False) s t) := by
  have hdiv : (c.val * 16 + j.well) / 16 = c.val := by omega
  have hmod : (c.val * 16 + j.well) % 16 = j.well := by omega
  have hdrawing : s.drawing (c.val * 16 + j.well) = (s.croft c.val).runs.any (fun r => r.live && r.args.wells.contains j.well) := by
    rw [State.drawing, hdiv, hmod]
  dsimp only
  rw [exec_windowEnd hj hrest hs hts hstale, ← hdrawing]
  refine Leaves.of_next ?_
  generalize (s.drift (c.val * 16 + j.well) ts).1 = shift
  generalize (s.drift (c.val * 16 + j.well) ts).2 = col
  generalize ts.map (fun x => (x.1 * 128 + x.2.1, x.2.2)) = new
  generalize hg : c.val * 16 + j.well = g at *
  obtain ⟨hw1, hk1⟩ := windowTakes_run g new s.now (s.drawing g) s
  generalize (windowTakes g new s.now (s.drawing g)).run s = u1 at *
  obtain ⟨hwin, hcal, htemp, hcnt, hk2⟩ := windowShows_run g (tj := s.fld (pgPlumb c.val) R.plumb_TEMP_TJ) (State.fld_lt (by decide) ..) shift col u1
  generalize (windowShows g (s.fld (pgPlumb c.val) R.plumb_TEMP_TJ) shift col).run u1 = u2 at *
  obtain ⟨hdue, hf3, hw3, hk3⟩ := setDue_facts g false u2
  generalize (setDue g false).run u2 = u3 at *
  obtain ⟨hover, hf4, hw4, hk4⟩ := setOver_facts g (fun r => { r with overWindow := false }) u3
  rw [show setOverWindow g false = Prog.all [modWell g (fun r => { r with overWindow := false }), showOverdue g] from rfl]
  generalize (Prog.all [modWell g (fun r => { r with overWindow := false }), showOverdue g]).run u3 = u4 at *
  obtain ⟨hw5, hk5⟩ := notesClean_run (s.bit (pgWell g) R.well_STATUS_SUSPECT) g u4
  generalize (notesClean (s.bit (pgWell g) R.well_STATUS_SUSPECT) g).run u4 = u5 at *
  obtain ⟨hcroft, hbusy, hk6⟩ := plumbNext_run c.val hnil u5
  generalize (plumbNext c.val j).run u5 = t at *
  have hwell {o : Nat} (ho : o < 0x1000) : t.reg (pgWell g) o = u4.reg (pgWell g) o :=
    (hk6.reg_eq (not_theRegs_apart (by simp [ho]))).trans (hk5.reg_eq id)
  have hbit {f : Fld} (hf : f.off < 0x1000) : t.bit (pgWell g) f = u4.bit (pgWell g) f := by
    rw [State.bit, State.fld_eq, hwell hf, ← State.fld_eq, ← State.bit]
  have hflag {f : Fld} (hf : f ∈ calFlags) : t.bit (pgWell g) f = u2.bit (pgWell g) f :=
    (hbit (by revert f; decide)).trans ((hf4 f (List.mem_cons_of_mem _ hf)).trans (hf3 f (List.mem_cons_of_mem _ hf)))
  have hplumb : u2.tempMet g (u2.fld (pgPlumb (g / 16)) R.plumb_PLUMBCFG_CAL_DT) = decide (s.fld (pgPlumb c.val) R.plumb_PLUMBCFG_CAL_DT = 0) := by
    have hreg {f : Fld} (hf : f.off < 0x1000) : u2.fld (pgPlumb c.val) f = s.fld (pgPlumb c.val) f := by
      rw [State.fld_eq, State.fld_eq, hk2.reg_eq (not_theRegs_apart (by simp [hf])), hk1.reg_eq id]
    have hshift : u2.tempShift g = 0 := by rw [State.tempShift, hdiv, htemp, hreg (by decide), Int.sub_self, Int.natAbs_zero]
    rw [State.tempMet, hdiv, hshift, State.bit, hreg (by decide), ← State.bit, hstale, hreg (by decide), Bool.false_or]
    simp
  refine ⟨(hflag (by decide)).trans hwin, (hflag (by decide)).trans hcal, ?_, ?_, ?_, ?_, ?_, hbusy, ?_, ?_⟩
  · rw [hbit (by decide), hf4 _ List.mem_cons_self, hdue, Bool.false_or, hplumb]
  · rw [hbit (by decide), hover, hw3, Bool.false_or, (hk2.wells g id), hw1]
    rfl
  · rw [State.fld_eq, hwell (by decide), hk4.reg_eq (not_theRegs_offset (by decide) _), hk3.reg_eq (not_someRegs_apart (by simp)), ← State.fld_eq, htemp]
  · rw [Counts, hwell (by decide), hk4.reg_eq (not_theRegs_offset (by decide) _), hk3.reg_eq (not_someRegs_apart (by simp)), hcnt, hk1.reg_eq id]
  · rw [hk6.wells g id, hw5, hw4, hw3, hk2.wells g id, hw1]
    rfl
  · rw [hcroft, hk5.crofts _ id, hk4.crofts _ id, hk3.crofts _ id, hk2.crofts _ id, hk1.crofts _ id]
    rfl
  · refine (((((hk1.mono ?_).trans (hk2.mono ?_)).trans (hk3.mono ?_)).trans (hk4.mono ?_)).trans (hk5.mono ?_)).trans (hk6.mono ?_)
    all_goals constructor
    case refine_2.regs => exact endTouch_well (by decide)
    case refine_3.regs => exact endTouch_due hdiv (by decide)
    case refine_4.regs => exact endTouch_well (by decide)
    case refine_6.regs => exact endTouch_plumb
    case refine_1.wells => exact fun _ h => h
    case refine_3.wells => exact fun _ h => h
    case refine_4.wells => exact fun _ h => h
    case refine_5.wells => exact fun _ h => h
    case refine_6.crofts => exact fun _ h => h
    all_goals simp [dueTouch, overdueTouch]

/-! ### A sounding ends -/

/-- The registers that a well's becoming suspect changes. -/
def suspectRegs : List Fld := [R.well_STATUS_SUSPECT, R.well_SUSPECT_CAUSE_SOUND, R.well_SUSPECT_CNT, R.CRIER_LINE_RAISED]

theorem suspect_run (g : Nat) (s : State) :
    let t := (suspect g R.well_SUSPECT_CAUSE_SOUND).run s
    t.bit (pgWell g) R.well_STATUS_SUSPECT = true ∧ t.bit (pgWell g) R.well_SUSPECT_CAUSE_SOUND = true ∧
    t.well g = { s.well g with cleanWindow := false } ∧ Keeps { regs := theRegs (pgWell g) suspectRegs, wells := (· = g), dev := True } s t := by
  have hkeep : Keeps { regs := theRegs (pgWell g) suspectRegs, wells := (· = g), dev := True } s ((suspect g R.well_SUSPECT_CAUSE_SOUND).run s) :=
    Prog.keeps (by simp [suspect, Prog.only_when, suspectRegs, tellWatch]) s
  dsimp only
  rw [suspect, Prog.run_all_cons, Prog.run_get, Prog.run_all_cons, Prog.run_all_cons, Prog.run_all_nil] at hkeep ⊢
  have hnew : ((Prog.when (!s.bit (pgWell g) R.well_STATUS_SUSPECT) (.all [
      setFld (pgWell g) R.well_STATUS_SUSPECT 1, bump (pgWell g) R.well_SUSPECT_CNT, raiseLine (pgWell g), tellWatch 11])).run s).bit (pgWell g)
      R.well_STATUS_SUSPECT = true := by
    cases h : s.bit (pgWell g) R.well_STATUS_SUSPECT with
    | true => exact h
    | false => simp -implicitDefEqProofs [State.bit, tellWatch, modDev]
  have hwell := Keeps.wells (Prog.keeps (T := { regs := fun _ => True, dev := True }) (p := Prog.when (!s.bit (pgWell g) R.well_STATUS_SUSPECT) (.all [
      setFld (pgWell g) R.well_STATUS_SUSPECT 1, bump (pgWell g) R.well_SUSPECT_CNT, raiseLine (pgWell g), tellWatch 11]))
      (by simp [Prog.only_when, onReg, tellWatch]) s) g id
  generalize (Prog.when _ _).run s = u at *
  refine ⟨?_, ?_, ?_, hkeep⟩
  · refine Eq.trans ?_ hnew
    simp -implicitDefEqProofs [State.bit, modWell]
  · simp -implicitDefEqProofs [State.bit, modWell]
  · rw [(modWell_run ..).1]
    rw [Keeps.wells (Prog.keeps (T := { regs := fun _ => True }) (p := setFld (pgWell g) R.well_SUSPECT_CAUSE_SOUND 1) (by simp [onReg]) u) g id, hwell]

/-- What a failed sounding may change. -/
def soundFailTouch (g : Nat) : Touch :=
  { regs := someRegs [(pgPlumb (g / 16), [R.plumb_STATUS_DUE_MASK]), (pgWell g, R.well_CAL_STATUS_SOUNDING :: suspectRegs)]
    wells := (· = g), dev := True }

theorem soundFails_run (g : Nat) (s : State) :
    let t := (soundFails g).run s
    t.bit (pgWell g) R.well_CAL_STATUS_SOUND_FAIL = true ∧ t.bit (pgWell g) R.well_STATUS_SUSPECT = true ∧
    t.bit (pgWell g) R.well_SUSPECT_CAUSE_SOUND = true ∧ t.bit (pgWell g) R.well_CAL_STATUS_DUE = true ∧
    t.bit (pgWell g) R.well_CAL_STATUS_SOUNDING = s.bit (pgWell g) R.well_CAL_STATUS_SOUNDING ∧
    t.bit (pgWell g) R.well_CAL_STATUS_OVERDUE = s.bit (pgWell g) R.well_CAL_STATUS_OVERDUE ∧
    t.well g = { s.well g with cleanWindow := false, due := true } ∧ Keeps (soundFailTouch g) s t := by
  have hset : ((setFld (pgWell g) R.well_CAL_STATUS_SOUND_FAIL 1).run s).bit (pgWell g) R.well_CAL_STATUS_SOUND_FAIL = true ∧
      ∀ f ∈ [R.well_CAL_STATUS_SOUNDING, R.well_CAL_STATUS_OVERDUE],
        ((setFld (pgWell g) R.well_CAL_STATUS_SOUND_FAIL 1).run s).bit (pgWell g) f = s.bit (pgWell g) f := by
    simp only [List.forall_mem_cons, List.not_mem_nil, false_imp_iff, implies_true, and_true]
    refine ⟨?_, ?_, ?_⟩
    all_goals simp -implicitDefEqProofs [State.bit]
  have hk1 : Keeps { regs := theRegs (pgWell g) [R.well_CAL_STATUS_SOUND_FAIL] } s ((setFld (pgWell g) R.well_CAL_STATUS_SOUND_FAIL 1).run s) :=
    Prog.keeps (by simp) s
  dsimp only
  rw [soundFails, Prog.run_all_cons, Prog.run_all_cons, Prog.run_all_cons, Prog.run_all_cons, Prog.run_all_nil]
  generalize (setFld (pgWell g) R.well_CAL_STATUS_SOUND_FAIL 1).run s = u1 at *
  obtain ⟨hfail, hsame⟩ := hset
  obtain ⟨hsus, hcause, hw2, hk2⟩ := suspect_run g u1
  generalize (suspect g R.well_SUSPECT_CAUSE_SOUND).run u1 = u2 at *
  obtain ⟨hdue, hflags, hw3, hk3⟩ := setDue_facts g true u2
  generalize (setDue g true).run u2 = u3 at *
  have hk4 : Keeps { regs := theRegs (pgWell g) [R.CRIER_LINE_RAISED] } u3 ((raiseLine (pgWell g)).run u3) := Prog.keeps (by simp) u3
  generalize (raiseLine (pgWell g)).run u3 = t at *
  have hcal {f : Fld} (hf : f ∈ R.well_CAL_STATUS_OVERDUE :: calFlags) : t.bit (pgWell g) f = u1.bit (pgWell g) f :=
    ((hk4.bit_eq (not_theRegs_offset (by revert f; decide) _)).trans (hflags f hf)).trans (hk2.bit_eq (not_theRegs_offset (by revert f; decide) _))
  refine ⟨(hcal (by decide)).trans hfail, ?_, ?_, ?_, (hcal (by decide)).trans (hsame _ (by decide)), (hcal (by decide)).trans (hsame _ (by decide)), ?_, ?_⟩
  · rw [hk4.bit_eq (not_theRegs_offset (by decide) _), hk3.bit_eq (not_someRegs_apart (by simp)), hsus]
  · rw [hk4.bit_eq (not_theRegs_offset (by decide) _), hk3.bit_eq (not_someRegs_apart (by simp)), hcause]
  · rw [hk4.bit_eq (not_theRegs_offset (by decide) _), hdue, Bool.true_or]
  · rw [hk4.wells g id, hw3, hw2, hk1.wells g id]
  · have hsub {fs : List Fld} (h : ∀ f ∈ fs, ∃ f' ∈ R.well_CAL_STATUS_SOUNDING :: suspectRegs, f'.off = f.off) :
        ∀ a, theRegs (pgWell g) fs a → (soundFailTouch g).regs a :=
      fun a hr => ⟨_, List.mem_cons_of_mem _ List.mem_cons_self, theRegs_sub h a hr⟩
    refine (((hk1.mono ?_).trans (hk2.mono ?_)).trans (hk3.mono ?_)).trans (hk4.mono ?_)
    all_goals constructor
    case refine_1.regs => exact hsub (by decide)
    case refine_2.regs => exact hsub (by decide)
    case refine_4.regs => exact hsub (by decide)
    case refine_3.regs =>
      rintro a ⟨x, hx, hr⟩
      simp only [List.mem_cons, List.not_mem_nil, or_false] at hx
      obtain rfl | rfl := hx
      · exact ⟨_, List.mem_cons_self, hr⟩
      · exact hsub (fs := [R.well_CAL_STATUS_DUE]) (by decide) a hr
    case refine_2.wells => exact fun _ h => h
    case refine_3.wells => exact fun _ h => h
    all_goals simp [dueTouch, soundFailTouch]

/-- What a sounding leaves of itself, whether it passes or fails. -/
def soundTakes (g now : Nat) : Prog := .all [modWell g (fun r => { r with soundAt := some now }), setFld (pgWell g) R.well_CAL_STATUS_SOUNDING 0,
  bump (pgWell g) R.well_SOUND_CNT]

theorem soundTakes_run (g now : Nat) (s : State) :
    let t := (soundTakes g now).run s
    t.bit (pgWell g) R.well_CAL_STATUS_SOUNDING = false ∧ t.bit (pgWell g) R.well_CAL_STATUS_SOUND_FAIL = s.bit (pgWell g) R.well_CAL_STATUS_SOUND_FAIL ∧
    Counts s t (pgWell g) R.well_SOUND_CNT 1 ∧ t.well g = { s.well g with soundAt := some now } ∧
    Keeps { regs := theRegs (pgWell g) [R.well_CAL_STATUS_SOUNDING, R.well_SOUND_CNT], wells := (· = g) } s t := by
  refine ⟨?_, ?_, ?_, ?_, Prog.keeps (by simp [soundTakes]) s⟩
  · simp -implicitDefEqProofs [soundTakes, modWell, State.bit]
  · simp -implicitDefEqProofs [soundTakes, modWell, State.bit]
  · simp -implicitDefEqProofs [soundTakes, modWell, Counts]
  · rw [soundTakes, Prog.run_all_cons, Keeps.wells (Prog.keeps (T := { regs := fun _ => True }) (by simp [onReg]) _) g id]
    exact (modWell_run ..).1

/-- What a sounding's verdict does, against the state before it. -/
structure SoundVerdict (g : Nat) (fail : Bool) (s t : State) : Prop where
  failed : fail = true → t.bit (pgWell g) R.well_CAL_STATUS_SOUND_FAIL = true ∧ t.bit (pgWell g) R.well_STATUS_SUSPECT = true ∧
    t.bit (pgWell g) R.well_SUSPECT_CAUSE_SOUND = true ∧ t.bit (pgWell g) R.well_CAL_STATUS_DUE = true
  passed : fail = false → t = s
  same : ∀ f ∈ [R.well_CAL_STATUS_SOUNDING, R.well_CAL_STATUS_OVERDUE], t.bit (pgWell g) f = s.bit (pgWell g) f
  well : (t.well g).soundAt = (s.well g).soundAt ∧ (t.well g).overSound = (s.well g).overSound
  keeps : Keeps (soundFailTouch g) s t

theorem soundVerdict_run (g : Nat) (fail : Bool) (s : State) : SoundVerdict g fail s ((Prog.when fail (soundFails g)).run s) := by
  cases fail with
  | false => exact ⟨fun h => (Bool.false_ne_true h).elim, fun _ => rfl, fun _ _ => rfl, ⟨rfl, rfl⟩, Keeps.refl _ s⟩
  | true =>
    obtain ⟨hfail, hsus, hcause, hdue, hsnd, hover, hwell, hkeep⟩ := soundFails_run g s
    refine ⟨fun _ => ⟨hfail, hsus, hcause, hdue⟩, fun h => (Bool.false_ne_true h.symm).elim, ?_, ?_, hkeep⟩
    · exact List.forall_mem_cons.2 ⟨hsnd, List.forall_mem_singleton.2 hover⟩
    · show (((soundFails g).run s).well g).soundAt = _ ∧ (((soundFails g).run s).well g).overSound = _
      rw [hwell]
      exact ⟨rfl, rfl⟩

theorem soundingEnd_run {c : CroftId} {j : PlumbJob} (hj : (s.croft c.val).plumb = some j) (hrest : j.restart = false) (hnil : j.rest = [])
    (hw : j.well < 16) (hs : j.sound = true) (sums : List (Nat × List Int)) :
    let g := c.val * 16 + j.well
    Leaves (exec (.soundingEnd c sums) s) (fun t =>
      let fail : Prop := ∃ x ∈ sums, ∃ y ∈ List.zip x.2 soundPoints, 72 < (y.1 - 12 * y.2).natAbs
      t.bit (pgWell g) R.well_CAL_STATUS_SOUNDING = false ∧ Counts s t (pgWell g) R.well_SOUND_CNT 1 ∧ (t.well g).soundAt = some s.now ∧
      (t.well g).overSound = false ∧ t.bit (pgWell g) R.well_CAL_STATUS_OVERDUE = (s.well g).overWindow ∧
      (fail → t.bit (pgWell g) R.well_CAL_STATUS_SOUND_FAIL = true ∧ t.bit (pgWell g) R.well_STATUS_SUSPECT = true ∧
        t.bit (pgWell g) R.well_SUSPECT_CAUSE_SOUND = true ∧ t.bit (pgWell g) R.well_CAL_STATUS_DUE = true) ∧
      (¬ fail → t.bit (pgWell g) R.well_CAL_STATUS_SOUND_FAIL = s.bit (pgWell g) R.well_CAL_STATUS_SOUND_FAIL ∧
        t.bit (pgWell g) R.well_STATUS_SUSPECT = s.bit (pgWell g) R.well_STATUS_SUSPECT ∧ t.dev = s.dev) ∧
      t.croft c.val = (s.croft c.val).plumbed j.order ∧
      Keeps (endTouch c.val g soundingRegs True) s t) := by
  have hdiv : (c.val * 16 + j.well) / 16 = c.val := by omega
  dsimp only
  have hany : (∃ x ∈ sums, ∃ y ∈ List.zip x.2 soundPoints, 72 < (y.1 - 12 * y.2).natAbs) ↔
      sums.any (fun x => (List.zip x.2 soundPoints).any (fun y => decide (72 < (y.1 - 12 * y.2).natAbs))) = true := by
    simp only [List.any_eq_true, decide_eq_true_eq]
  rw [exec_soundingEnd hj hrest hs sums]
  refine Leaves.of_next ?_
  rw [hany]
  generalize sums.any (fun x => (List.zip x.2 soundPoints).any (fun y => decide (72 < (y.1 - 12 * y.2).natAbs))) = fail
  rw [show ∀ g, (bump (pgWell g) R.well_SOUND_CNT).run ((setFld (pgWell g) R.well_CAL_STATUS_SOUNDING 0).run
    ((modWell g (fun r => { r with soundAt := some s.now })).run s)) = (soundTakes g s.now).run s from fun _ => rfl]
  generalize hg : c.val * 16 + j.well = g at *
  obtain ⟨hsnd, hsf, hcnt, hw1, hk1⟩ := soundTakes_run g s.now s
  generalize (soundTakes g s.now).run s = u1 at *
  obtain ⟨hover, hf2, hw2, hk2⟩ := setOver_facts g (fun r => { r with overSound := false }) u1
  rw [show setOverSound g false = Prog.all [modWell g (fun r => { r with overSound := false }), showOverdue g] from rfl]
  generalize (Prog.all [modWell g (fun r => { r with overSound := false }), showOverdue g]).run u1 = u2 at *
  obtain ⟨hfail, hpass, hsame, ⟨hsat, hos⟩, hk3⟩ := soundVerdict_run g fail u2
  generalize (Prog.when fail (soundFails g)).run u2 = u3 at *
  obtain ⟨hcroft, -, hk4⟩ := plumbNext_run c.val hnil u3
  generalize (plumbNext c.val j).run u3 = t at *
  have hreg {o : Nat} (ho : o < 0x1000) : t.reg (pgWell g) o = u3.reg (pgWell g) o := hk4.reg_eq (not_theRegs_apart (by simp [ho]))
  have hbit {f : Fld} (hf : f.off < 0x1000) : t.bit (pgWell g) f = u3.bit (pgWell g) f := by
    rw [State.bit, State.fld_eq, hreg hf, ← State.fld_eq, ← State.bit]
  refine ⟨?_, ?_, ?_, ?_, ?_, ?_, ?_, ?_, ?_⟩
  · rw [hbit (by decide), hsame _ (by decide), hf2 _ (by decide), hsnd]
  · rw [Counts, hreg (by decide), hk3.reg_eq (not_someRegs_apart (by simp [suspectRegs])), hk2.reg_eq (not_theRegs_offset (by decide) _), hcnt]
  · rw [hk4.wells g id, hsat, hw2, hw1]
  · rw [hk4.wells g id, hos, hw2]
  · rw [hbit (by decide), hsame _ (by decide), hover, hw1, Bool.or_false]
  · intro hf
    obtain ⟨h1, h2, h3, h4⟩ := hfail hf
    exact ⟨(hbit (by decide)).trans h1, (hbit (by decide)).trans h2, (hbit (by decide)).trans h3, (hbit (by decide)).trans h4⟩
  · intro hf
    have heq := hpass (Bool.not_eq_true _ ▸ hf)
    refine ⟨?_, ?_, ?_⟩
    · rw [hbit (by decide), heq, hf2 _ (by decide), hsf]
    · rw [hbit (by decide), heq, hk2.bit_eq (not_theRegs_offset (by decide) _), hk1.bit_eq (not_theRegs_offset (by decide) _)]
    · rw [hk4.dev id, heq, hk2.dev id, hk1.dev id]
  · rw [hcroft, hk3.crofts _ id, hk2.crofts _ id, hk1.crofts _ id]
  · refine (((hk1.mono ?_).trans (hk2.mono ?_)).trans (hk3.mono ?_)).trans (hk4.mono ?_)
    all_goals constructor
    case refine_1.regs => exact endTouch_well (by decide)
    case refine_2.regs => exact endTouch_well (by decide)
    case refine_3.regs =>
      rintro a ⟨x, hx, hr⟩
      simp only [List.mem_cons, List.not_mem_nil, or_false] at hx
      obtain rfl | rfl := hx
      · rw [hdiv] at hr
        exact ⟨_, List.mem_cons_self, theRegs_sub (fs := [R.plumb_STATUS_DUE_MASK]) (gs := plumbRegs) (by decide) a hr⟩
      · exact endTouch_well (fs := R.well_CAL_STATUS_SOUNDING :: suspectRegs) (by decide) a hr
    case refine_4.regs => exact endTouch_plumb
    case refine_1.wells => exact fun _ h => h
    case refine_2.wells => exact fun _ h => h
    case refine_3.wells => exact fun _ h => h
    case refine_4.crofts => exact fun _ h => h
    all_goals simp [overdueTouch, soundFailTouch, endTouch]

/-! ### O22 -/

/-- Settles O22: the starts reach one program, whose pieces say what the plumb shows; the ends by their pieces. -/
theorem plumbWorkRuns : Obligations.PlumbWorkRuns := by
  unfold Obligations.PlumbWorkRuns
  refine ⟨?_, ?_⟩
  · rintro s c r w rest sound by' (⟨k, o, mask, rfl, rfl, hstart, hd, hws, hbusy, huse⟩ | ⟨rfl, rfl, rfl, hw, hauto, hr, hload, hover, hfirst, hnone⟩) hp
    · have hw : w < 16 := by
        have := (hws ▸ List.mem_cons_self : w ∈ (List.range 16).filter (fun w => mask / 2 ^ w % 2 = 1))
        exact List.mem_range.1 (List.mem_of_mem_filter this)
      refine leaves_orderStart hstart (startPlumb_run hd hws hbusy huse hp) ?_ fun b => ?_
      · rw [Prog.run_all_cons, Prog.run_all_cons, Prog.run_all_nil, State.reeve_eq, (plumbBegin_run (j := ⟨_, _, _, _, _⟩) hw _).1,
          (markStarted_run ..).1]
      · obtain ⟨⟨hcroft, hcur, ⟨hs, hwin⟩, hwell, habort⟩, hcnt, hmay, hkeep⟩ := plumbOrder_run (c := c.val) (o := o) hw rest sound b s
        exact ⟨hcroft, hcur, hs, hwin, hwell, habort, hcnt, hmay, hkeep.mono (by constructor <;> simp)⟩
    · rw [exec_plumbAuto hw hauto hr hload hover hfirst hnone hp]
      obtain ⟨⟨hcroft, hcur, ⟨hs, hwin⟩, hwell, habort⟩, hcnt, hmay, hkeep⟩ := plumbAuto_run (c := c.val) hw sound s
      exact Leaves.of_next ⟨hcroft, hcur, hs, hwin, hwell, habort, hcnt, hmay, hkeep.mono (by constructor <;> simp)⟩
  · intro s c j hj hrest hnil hw
    exact ⟨fun ts hs hts hstale => windowEnd_run hj hrest hnil hw hs hts hstale, fun sums hs => soundingEnd_run hj hrest hnil hw hs sums⟩

end Sys2Proof.Machine
end

open Host
section
/-! O23: PUMP orders start and their chunks end (R150, R157, R160 to R163, R170, R173, R177, R245, R274, R283, R477). -/
namespace Sys2Proof.Machine

variable {s : State}

@[simp] theorem pump_allows (T : Touch) (g : Nat) (r : PumpRun) : T.allows (.pump g r) ↔ T.pumps g := Iff.rfl

theorem modPump_allows {T : Touch} {g : Nat} (h : T.pumps g) (f : PumpRun → PumpRun) : (modPump g f).Only T.allows :=
  modPump_only (fun _ => h) f

theorem modPump_run {g : Nat} {r : PumpRun} (h : s.pumpRun g = some r) (f : PumpRun → PumpRun) :
    (modPump g f).run s = (eff (.pump g (f r))).run s := by
  rw [modPump, Prog.run_get, h]

theorem modPump_self {g : Nat} {r : PumpRun} (h : s.pumpRun g = some r) (f : PumpRun → PumpRun) :
    ((modPump g f).run s).pumpRun g = some (f r) := by
  rw [modPump_run h, Prog.run_eff, Act.apply_pump_pumpRun_same]

/-! ### The order starts -/

/-- What a pump takes of an order whose block holds, and what the mill shows of its epilogue. -/
def pumpShows (c pl : Nat) (o : Issued) (run : PumpRun) : Prog := .all [
  markStarted c o.serial,
  eff (.pump (c * 4 + pl) run),
  setFld (pgPump (c * 4 + pl)) R.pump_STATUS_BUSY 1,
  setBit (pgPump (c * 4 + pl)) R.pump_STATUS_FUSED (run.epi != 0),
  setFld (pgPump (c * 4 + pl)) R.pump_STATUS_SHAPE run.shape,
  setReg (pgPump (c * 4 + pl)) R.pump_ORDER_IDX_INDEX.off (BitVec.ofNat 32 run.idx),
  setReg (pgPump (c * 4 + pl)) R.pump_TILE_POS_ROW.off 0]
def millServes (c pl epi : Nat) : Prog := Prog.when (epi != 0) (.all [
  setFld (pgMill c) R.mill_STATUS_EPILOGUE 1, setFld (pgMill c) R.mill_STATUS_EPI_PUMP pl])

/-- The run of a PUMP order as it starts (R173). -/
def State.pumpStarts (s : State) (c sh epi a : Nat) (o : Issued) : PumpRun :=
  { serial := o.serial, idx := o.idx, shape := sh, epi := epi, bnd := orderBnd o.word, layer := orderLayer o.word
    args := s.pumpArgs c a
    scale := if (asWritten o.wide (orderBnd o.word) (s.pumpArgs c a).c).smode = 1 then s.sl c (s.pumpArgs c a).rc 1 else 0 }

theorem noteWide_run (c : Nat) (wide bnd : Bool) (t : TRef) (rows len : Nat) (s : State) :
    ((noteWide c wide bnd t rows len).run s).reeve c = s.reeve c ∧ Keeps { crofts := (· = c) } s ((noteWide c wide bnd t rows len).run s) := by
  refine ⟨?_, Prog.keeps (by simp [noteWide, Prog.only_when]) s⟩
  cases wide with
  | false => rfl
  | true =>
    rw [State.reeve_eq, State.reeve_eq, noteWide, Prog.run_when_true, modCroft_run_self]

/-- What a PUMP order that starts may change of its croft. -/
def pumpTouch (c g epi : Nat) : Touch :=
  { regs := someRegs ((pgPump g, [R.pump_STATUS_BUSY, R.pump_ORDER_IDX_INDEX, R.pump_TILE_POS_ROW]) ::
      (if epi = 0 then [] else [(pgMill c, [R.mill_STATUS_EPILOGUE])]))
    crofts := (· = c), pumps := (· = g) }

/-- A pump has taken up an order. -/
structure PumpStarted (s t : State) (c pl : Nat) (o : Issued) (r : PumpRun) : Prop where
  reeve : t.reeve c = (s.reeve c).begun o.serial
  run : t.pumpRun (c * 4 + pl) = some r
  busy : t.bit (pgPump (c * 4 + pl)) R.pump_STATUS_BUSY = true
  fused : t.bit (pgPump (c * 4 + pl)) R.pump_STATUS_FUSED = (r.epi != 0)
  shape : t.fld (pgPump (c * 4 + pl)) R.pump_STATUS_SHAPE = r.shape % 8
  idx : t.fld (pgPump (c * 4 + pl)) R.pump_ORDER_IDX_INDEX = r.idx % 2 ^ 32

theorem pumpShows_run (c pl : Nat) (o : Issued) (r : PumpRun) (s : State) :
    PumpStarted s ((pumpShows c pl o r).run s) c pl o r ∧ Keeps (pumpTouch c (c * 4 + pl) 0) s ((pumpShows c pl o r).run s) := by
  refine ⟨⟨?_, ?_, ?_, ?_, ?_, ?_⟩, Prog.keeps (by simp [pumpShows, markStarted, pumpTouch]) s⟩
  all_goals cases he : r.epi != 0
  all_goals simp -implicitDefEqProofs [pumpShows, markStarted, modReeve, modCroft, State.reeve_eq, Reeve.begun, State.bit, he]

theorem millServes_run (c pl epi : Nat) (s : State) :
    let t := (millServes c pl epi).run s
    (epi ≠ 0 → t.bit (pgMill c) R.mill_STATUS_EPILOGUE = true ∧ t.fld (pgMill c) R.mill_STATUS_EPI_PUMP = pl % 4) ∧
    Keeps { regs := someRegs (if epi = 0 then [] else [(pgMill c, [R.mill_STATUS_EPILOGUE])]) } s t := by
  dsimp only
  by_cases he : epi = 0
  · simp only [he, millServes]
    exact ⟨fun h => absurd rfl h, Keeps.refl _ s⟩
  · have hrun : (millServes c pl epi).run s = (Prog.all [setFld (pgMill c) R.mill_STATUS_EPILOGUE 1, setFld (pgMill c) R.mill_STATUS_EPI_PUMP pl]).run s := by
      rw [millServes, Prog.run_when, if_pos (by simpa using he)]
    rw [hrun, if_neg he]
    refine ⟨fun _ => ⟨?_, ?_⟩, Prog.keeps (by simp) s⟩
    all_goals simp -implicitDefEqProofs [State.bit]

theorem pumpTakes_run (c pl : Nat) (o : Issued) (r : PumpRun) (wide bnd : Bool) (w : TRef) (rows len : Nat) (s : State) :
    let t := (millServes c pl r.epi).run ((noteWide c wide bnd w rows len).run ((pumpShows c pl o r).run s))
    PumpStarted s t c pl o r ∧
    (r.epi ≠ 0 → t.bit (pgMill c) R.mill_STATUS_EPILOGUE = true ∧ t.fld (pgMill c) R.mill_STATUS_EPI_PUMP = pl % 4) ∧
    Keeps (pumpTouch c (c * 4 + pl) r.epi) s t := by
  obtain ⟨⟨hreeve, hrun, hbusy, hfused, hshape, hidx⟩, hk1⟩ := pumpShows_run c pl o r s
  dsimp only
  generalize (pumpShows c pl o r).run s = u at *
  obtain ⟨hreeve', hk2⟩ := noteWide_run c wide bnd w rows len u
  generalize (noteWide c wide bnd w rows len).run u = v at *
  obtain ⟨hmill, hk3⟩ := millServes_run c pl r.epi v
  generalize (millServes c pl r.epi).run v = t at *
  have hpage {o : Nat} (ho : o < 0x1000) : t.reg (pgPump (c * 4 + pl)) o = u.reg (pgPump (c * 4 + pl)) o := by
    rw [hk3.reg_eq ?_, hk2.reg_eq id]
    split
    · exact not_someRegs_apart (by simp)
    · exact not_someRegs_apart (by simp [ho])
  have hfld {f : Fld} (hf : f.off < 0x1000) : t.fld (pgPump (c * 4 + pl)) f = u.fld (pgPump (c * 4 + pl)) f := by
    rw [State.fld_eq, hpage hf, ← State.fld_eq]
  refine ⟨⟨?_, ?_, ?_, ?_, ?_, ?_⟩, hmill, ((hk1.mono ?_).trans (hk2.mono ?_)).trans (hk3.mono ?_)⟩
  · rw [State.reeve_eq, hk3.crofts c id, ← State.reeve_eq, hreeve', hreeve]
  · rw [hk3.pumps _ id, hk2.pumps _ id, hrun]
  · rw [State.bit, hfld (by decide), ← State.bit, hbusy]
  · rw [State.bit, hfld (by decide), ← State.bit, hfused]
  · rw [hfld (by decide), hshape]
  · rw [hfld (by decide), hidx]
  all_goals constructor
  case refine_7.regs => exact someRegs_mono (by simp)
  case refine_9.regs => exact someRegs_mono (by simp)
  case refine_7.crofts => exact fun _ h => h
  case refine_8.crofts => exact fun _ h => h
  case refine_7.pumps => exact fun _ h => h
  all_goals simp [pumpTouch]

theorem startPump_run {c pl sh epi a : Nat} {o : Issued} {bnd : Bool}
    (hfirst : ∀ z ∈ (s.reeve c).orders, z.unit = o.unit → o.serial ≤ z.serial) (hidle : s.pumpRun (c * 4 + pl) = none)
    (hr : s.underReset (pgPump (c * 4 + pl)) = false)
    (hrec : (s.pumpArgs c a).hasRec = true → s.recordBusy c o.serial (s.pumpArgs c a).rc (s.recOf c) = false) (hi : s.intact = true)
    (hright : s.pumpRight c pl = true) (hepi : epi ≠ 0 → s.epiRight c pl = true) (hblock : s.bankColl c pl false [(a, 128)] = none) :
    (startPump c o pl sh epi a bnd).run s = (beginPump c o pl sh epi a bnd).run s := by
  have hearly : (s.reeve c).orders.any (fun x => x.unit == o.unit && decide (x.serial < o.serial)) = false := by
    simp only [List.any_eq_false, Bool.and_eq_true, beq_iff_eq, decide_eq_true_eq, not_and, not_lt]
    exact hfirst
  have hbusy : ((s.pumpArgs c a).hasRec && s.recordBusy c o.serial (s.pumpArgs c a).rc (s.recOf c)) = false := by
    cases h : (s.pumpArgs c a).hasRec with
    | false => rfl
    | true => exact hrec h
  rw [startPump, Prog.run_get]
  dsimp only
  rw [if_neg (by simp [hearly, hidle, hr, hbusy]), if_neg (by simp [hright]), if_neg (by simpa using hepi), hblock]
  simp only [Prog.run_all_cons, Prog.run_all_nil, argReads, engineReads_run hi, Prog.run_get]

theorem beginPump_run {c pl sh epi a : Nat} {o : Issued}
    (hchecks : firstFault (s.pumpChecks c a sh epi (s.orderOffset c o.idx) o.wide (orderBnd o.word)) = none)
    (hcoll : let p := s.pumpArgs c a
      let w := asWritten o.wide (orderBnd o.word) p.c
      let x := s.asRead c p.a
      let y := s.asRead c p.b
      firstSome [s.bankColl c pl false ((if x.trans then s.regions c x p.k p.m else s.regions c x p.m p.k) ++
          (if y.trans then s.regions c y p.k p.n else s.regions c y p.n p.k)),
        s.bankColl c agMill false (if epi = 0 then [] else if epi = 1 then s.regions c p.e0 p.m p.n ++ s.regions c p.e1 p.m 1
          else s.regions c p.e0 p.m p.n ++ s.regions c p.e1 1 p.n ++ s.regions c p.e2 p.m 1),
        s.bankColl c (if epi = 0 then pl else agMill) true (s.regions c w p.m p.n ++ (if w.smode = 1 then [(p.rc, 128)] else []) ++
          (if 2 ≤ epi then [(p.scratch, scratchBytes p.n)] else []))] = none) :
    (beginPump c o pl sh epi a (orderBnd o.word)).run s =
      (millServes c pl epi).run ((noteWide c o.wide (orderBnd o.word) (s.pumpArgs c a).c (s.pumpArgs c a).m (s.pumpArgs c a).n).run
        ((pumpShows c pl o (s.pumpStarts c sh epi a o)).run s)) := by
  rw [beginPump, Prog.run_get]
  dsimp only at hcoll ⊢
  rw [hchecks]
  dsimp only
  rw [hcoll]
  simp -implicitDefEqProofs only [pumpShows, millServes, Prog.run_all_cons, Prog.run_all_nil]
  rfl

/-- The start of a PUMP order, with what the step limiter may count. -/
theorem pumpOrder_run (c pl : Nat) (o : Issued) (r : PumpRun) (wide bnd b : Bool) (w : TRef) (rows len : Nat) (s : State) :
    let t := (Prog.all [.all [pumpShows c pl o r, noteWide c wide bnd w rows len, millServes c pl r.epi], eff .seq,
      Prog.when b (bump pgPower R.power_STEP_DELAY_CNT)]).run s
    PumpStarted s t c pl o r ∧
    (r.epi ≠ 0 → t.bit (pgMill c) R.mill_STATUS_EPILOGUE = true ∧ t.fld (pgMill c) R.mill_STATUS_EPI_PUMP = pl % 4) ∧ MayCountHold s t ∧
    Keeps { regs := someRegs ((pgPump (c * 4 + pl), [R.pump_STATUS_BUSY, R.pump_ORDER_IDX_INDEX, R.pump_TILE_POS_ROW]) ::
              (pgPower, [R.power_STEP_DELAY_CNT]) :: (if r.epi = 0 then [] else [(pgMill c, [R.mill_STATUS_EPILOGUE])])),
            crofts := (· = c), pumps := (· = c * 4 + pl), seq := True } s t := by
  dsimp only
  simp -implicitDefEqProofs only [Prog.run_all_cons, Prog.run_all_nil]
  obtain ⟨⟨hreeve, hrun, hbusy, hfused, hshape, hidx⟩, hmill, hk⟩ := pumpTakes_run c pl o r wide bnd w rows len s
  generalize (millServes c pl r.epi).run ((noteWide c wide bnd w rows len).run ((pumpShows c pl o r).run s)) = u at *
  obtain ⟨hmay, htail⟩ := limiterTail_run b u
  generalize (Prog.when b (bump pgPower R.power_STEP_DELAY_CNT)).run ((eff .seq).run u) = t at *
  have hfld {q : Page} (hq : q.kind ≠ .power) (hp : q.placed) {f : Fld} (hf : f.off < 0x1000) : t.fld q f = u.fld q f := by
    rw [State.fld_eq, htail.reg_eq (not_theRegs_apart (by simp [hf, hq, hp])), ← State.fld_eq]
  have hbit {q : Page} (hq : q.kind ≠ .power) (hp : q.placed) {f : Fld} (hf : f.off < 0x1000) : t.bit q f = u.bit q f := by
    rw [State.bit, hfld hq hp hf, ← State.bit]
  refine ⟨⟨?_, ?_, ?_, ?_, ?_, ?_⟩, fun he => ?_, ?_, (hk.mono ?_).trans (htail.mono ?_)⟩
  · rw [State.reeve_eq, htail.crofts c id, ← State.reeve_eq, hreeve]
  · rw [htail.pumps _ id, hrun]
  · rw [hbit (by simp) (by simp) (by decide), hbusy]
  · rw [hbit (by simp) (by simp) (by decide), hfused]
  · rw [hfld (by simp) (by simp) (by decide), hshape]
  · rw [hfld (by simp) (by simp) (by decide), hidx]
  · rw [hbit (by simp) (by simp) (by decide), hfld (by simp) (by simp) (by decide)]
    exact hmill he
  · have hpower : u.reg pgPower R.power_STEP_DELAY_CNT.off = s.reg pgPower R.power_STEP_DELAY_CNT.off := by
      refine hk.reg_eq ?_
      by_cases he : r.epi = 0
      · simp only [pumpTouch, if_pos he]
        exact not_someRegs_apart (by simp)
      · simp only [pumpTouch, if_neg he]
        exact not_someRegs_apart (by simp)
    rw [MayCountHold, Counts, ← hpower]
    exact hmay
  · constructor
    case regs =>
      refine someRegs_mono ?_
      rw [List.cons_subset]
      exact ⟨List.mem_cons_self, List.subset_cons_of_subset _ (List.subset_cons_of_subset _ (List.Subset.refl _))⟩
    case crofts => exact fun _ h => h
    case pumps => exact fun _ h => h
    all_goals simp [pumpTouch]
  · constructor
    case regs => exact fun a hr => ⟨_, List.mem_cons_of_mem _ List.mem_cons_self, hr⟩
    all_goals simp

/-! ### A chunk ends -/

/-- A pump's run after a chunk: its cells' sums, and with the last chunk of a tile the tile in the converter. -/
def PumpRun.chunked (r : PumpRun) (final nan inv : Bool) (bad : Option (Nat × Nat)) (sums : List (List (Option Pair))) (cells : Nat) : PumpRun :=
  let r := { r with nanSeen := r.nanSeen || nan, invalid := r.invalid || inv, bad := bad, served := false }
  if final then { r with
    conv := some ⟨r.tileRow, r.tileCol, finalSums sums cells, bad, false⟩
    tile := r.tile + 1, chunk := 0, sums := [], bad := none }
  else { r with chunk := r.chunk + 1, sums := sums }

theorem PumpRun.chunked_facts (r : PumpRun) (final nan inv : Bool) (bad : Option (Nat × Nat)) (sums : List (List (Option Pair))) (cells : Nat) :
    let r' := r.chunked final nan inv bad sums cells
    r'.args = r.args ∧ r'.serial = r.serial ∧ r'.scale = r.scale ∧ r'.served = false ∧
    (if final then r'.tile = r.tile + 1 ∧ r'.chunk = 0 ∧ r'.sums = [] ∧
        ∃ tc, r'.conv = some tc ∧ tc.row = r.tileRow ∧ tc.col = r.tileCol ∧ tc.retry = false ∧ tc.sums = finalSums sums cells
      else r'.tile = r.tile ∧ r'.chunk = r.chunk + 1 ∧ r'.conv = r.conv ∧ r'.sums = sums) := by
  cases final with
  | false => exact ⟨rfl, rfl, rfl, rfl, rfl, rfl, rfl, rfl⟩
  | true => exact ⟨rfl, rfl, rfl, rfl, rfl, rfl, rfl, _, rfl, rfl, rfl, rfl, rfl⟩

/-- A chunk's counts, the place of the tile shown, and the run after it. -/
def chunkEnters (g row col inv terms : Nat) (first : Bool) (f : PumpRun → PumpRun) : Prog := .all [
  bump (pgPump g) R.pump_CHUNK_CNT, bumpBy (pgPump g) R.pump_INVALID_BLK_CNT inv, bumpBy (pgPump g) R.pump_PEEL_TERM_CNT terms,
  setFld (pgPump g) R.pump_TILE_POS_ROW row, setFld (pgPump g) R.pump_TILE_POS_COL col,
  Prog.when first (bump (pgCroft (g / 4)) R.croft_NAN_IN_CNT), modPump g f]

theorem chunkEnters_run {g : Nat} {r : PumpRun} (h : s.pumpRun g = some r) (row col inv terms : Nat) (first : Bool) (f : PumpRun → PumpRun) :
    let t := (chunkEnters g row col inv terms first f).run s
    Counts s t (pgPump g) R.pump_CHUNK_CNT 1 ∧ t.fld (pgPump g) R.pump_TILE_POS_ROW = row % 2 ^ 16 ∧
    t.fld (pgPump g) R.pump_TILE_POS_COL = col % 2 ^ 16 ∧ t.pumpRun g = some (f r) ∧
    Keeps { regs := someRegs [(pgPump g, [R.pump_CHUNK_CNT, R.pump_INVALID_BLK_CNT, R.pump_PEEL_TERM_CNT, R.pump_TILE_POS_ROW]),
              (pgCroft (g / 4), [R.croft_NAN_IN_CNT])], pumps := (· = g) } s t := by
  refine ⟨?_, ?_, ?_, ?_, Prog.keeps (by simp [chunkEnters, Prog.only_when, modPump_allows]) s⟩
  all_goals cases first <;> simp -implicitDefEqProofs [chunkEnters, modPump, h, Counts]

/-- The first 0 × infinity product of a tile, as a chunk's steps leave it (R59). -/
def PumpRun.badAfter (r : PumpRun) (bads : List Nat) : Option (Nat × Nat) :=
  match r.bad, bads with
  | some x, _ => some x
  | none, [] => none
  | none, x :: xs => some (r.chunk, xs.foldl min x)

/-- The chunk's steps enter the tile. -/
def chunkTakes (g : Nat) (r : PumpRun) (narrow final : Bool) (grp : Nat) (next : PumpRun) (steps : List CellStep) : Prog :=
  let bads := steps.filterMap (·.bad)
  let inv := if narrow then bads.length else 0
  let nan := steps.any (·.nanIn)
  chunkEnters g next.tileRow next.tileCol inv ((steps.map (·.terms)).foldl (· + ·) 0) (nan && !r.nanSeen) (fun x =>
    x.chunked final nan (decide (inv ≠ 0)) (r.badAfter bads) (setGroup r.sums grp (steps.map (·.sum))) (r.rowsIn r.tileRow * r.colsIn r.tileCol))

/-- A tile's sums as the chunk finds them (R160, R162). -/
def PumpRun.oldSums (r : PumpRun) (grp : Nat) (tree : Bool) : List (Option Pair) :=
  if tree ∨ r.sums.getD grp [] = [] then List.replicate (r.rowsIn r.tileRow * r.colsIn r.tileCol) none else r.sums.getD grp []

theorem chunkSums_run {g : Nat} {r : PumpRun} (hpa : s.peelBad (g / 4) (s.asRead (g / 4) r.args.a) (r.args.m * r.args.k) = none)
    (hpb : s.peelBad (g / 4) (s.asRead (g / 4) r.args.b) (r.args.n * r.args.k) = none) (hher : s.bit pgNum R.numstep_CFG_HERITAGE = false) :
    let a := s.asRead (g / 4) r.args.a
    let final := decide (ceilDiv r.args.k (chunkLen a (s.asRead (g / 4) r.args.b)) ≤ r.chunk + 1)
    let tree := s.bit (pgPump g) R.pump_PUMPCFG_SUM_ORDER
    let grp := if tree then r.chunk else r.chunk % (shapeOf r.shape).2.2
    (chunkSums g r).run s = (chunkTakes g r (narrowPair a) final grp
      (if final = true ∧ r.tile + 1 < r.tileRows * r.tileCols then { r with tile := r.tile + 1 } else r)
      (s.tileChunk (g / 4) r (r.oldSums grp tree))).run s := by
  dsimp only
  rw [chunkSums, Prog.run_get]
  dsimp only
  rw [hpa, hpb, hher]
  generalize decide (ceilDiv r.args.k (chunkLen (s.asRead (g / 4) r.args.a) (s.asRead (g / 4) r.args.b)) ≤ r.chunk + 1) = final
  simp only [firstSome, Bool.not_false, Bool.and_true, Bool.false_eq_true, if_false, List.isEmpty_iff, ← ite_or, Bool.and_eq_true,
    decide_eq_true_eq, PumpRun.oldSums]
  generalize s.tileChunk (g / 4) r _ = steps
  rfl

section
variable {p : PumpId} {r : PumpRun} (h : s.pumpRun p.val = some r) (hr : s.underReset (pgPump p.val) = false)
include h hr

omit hr in
theorem exec_pumpChunk_held (hheld : ((s.croft (p.val / 4)).escNow.isSome && decide (s.escPump (p.val / 4) = p.val % 4)) = true ∨
      s.clockRuns (p.val / 4) = false ∨ r.tileRows * r.tileCols ≤ r.tile ∨
      (decide (ceilDiv r.args.k (chunkLen (s.asRead (p.val / 4) r.args.a) (s.asRead (p.val / 4) r.args.b)) ≤ r.chunk + 1) = true ∧ r.conv.isSome)) :
    exec (.pumpChunkEnd p) s = .next s := by
  show execPumpChunkEnd p s = _
  rw [execPumpChunkEnd, Prog.next_eq, Prog.run_get]
  dsimp only
  rw [h]
  dsimp only
  rw [if_pos ?_]
  · rfl
  · rcases hheld with hheld | hheld | hheld | hheld
    · simp only [beq_eq_decide, hheld, Bool.true_or]
    all_goals simp [hheld]

theorem exec_pumpChunk_enters
    (hheld : ((s.croft (p.val / 4)).escNow.isSome && decide (s.escPump (p.val / 4) = p.val % 4)) = false)
    (hclock : s.clockRuns (p.val / 4) = true) (htile : r.tile < r.tileRows * r.tileCols)
    (hconv : decide (ceilDiv r.args.k (chunkLen (s.asRead (p.val / 4) r.args.a) (s.asRead (p.val / 4) r.args.b)) ≤ r.chunk + 1) = true → r.conv = none)
    (hi : s.intact = true) : exec (.pumpChunkEnd p) s = .next ((chunkSums p.val r).run s) := by
  have hfree : (decide (ceilDiv r.args.k (chunkLen (s.asRead (p.val / 4) r.args.a) (s.asRead (p.val / 4) r.args.b)) ≤ r.chunk + 1) && r.conv.isSome) =
      false := by
    rw [Bool.and_eq_false_imp]
    intro hf
    rw [hconv hf, Option.isSome_none]
  rw [show exec (.pumpChunkEnd p) s = execPumpChunkEnd p s from rfl, execPumpChunkEnd, Prog.next_eq, Prog.run_get]
  dsimp only
  rw [h]
  dsimp only
  rw [beq_eq_decide, hheld, hclock, hr, hfree, if_neg (by simpa using htile), Prog.run_all_cons, engineReads_run hi, Prog.run_all_cons,
    Prog.run_all_nil]

end

/-- Settles O23: the order's start by its three pieces; a chunk's end by the step it takes. -/
theorem pumpOrdersRun : Obligations.PumpOrdersRun := by
  unfold Obligations.PumpOrdersRun
  refine ⟨?_, ?_⟩
  · intro s c k p sh a epi o hstart hd b w x y hfirst hidle hr hrec hi hright hepi hblock hchecks hread hepiRead hwrite
    have hcode : epi ≠ .none → epi.code ≠ 0 := by cases epi <;> simp [Epi.code]
    have hzero : epi.code ≠ 0 → epi ≠ .none := by cases epi <;> simp [Epi.code]
    have hcoll {α : Type} {x y z : Option α} (hx : x = none) (hy : y = none) (hz : z = none) : firstSome [x, y, z] = none := by
      rw [hx, hy, hz]
      rfl
    have hrun : (startOrder c.val o).run s = (Prog.all [pumpShows c.val p o (s.pumpStarts c.val sh epi.code a o),
        noteWide c.val o.wide (orderBnd o.word) b.c b.m b.n, millServes c.val p epi.code]).run s := by
      rw [startOrder, hd]
      dsimp only
      rw [startPump_run hfirst hidle hr hrec hi hright (fun h => hepi (hzero h)) hblock, beginPump_run hchecks ?_]
      · simp -implicitDefEqProofs only [Prog.run_all_cons, Prog.run_all_nil]
        rfl
      · exact hcoll hread (by cases epi <;> exact hepiRead) (by cases epi <;> exact hwrite)
    refine leaves_orderStart hstart hrun ?_ fun b' => ?_
    · simp -implicitDefEqProofs only [Prog.run_all_cons, Prog.run_all_nil]
      exact (pumpTakes_run c.val p o (s.pumpStarts c.val sh epi.code a o) o.wide _ b.c b.m b.n s).1.reeve
    · obtain ⟨⟨hreeve, hrun, hbusy, hfused, hshape, hidx⟩, hmill, hmay, hk⟩ :=
        pumpOrder_run c.val p o (s.pumpStarts c.val sh epi.code a o) o.wide (orderBnd o.word) b' b.c b.m b.n s
      exact ⟨hreeve, hrun, hbusy, hfused.trans (by cases epi <;> rfl), hshape, hidx, fun he => hmill (hcode he), hmay,
        by cases epi <;> exact hk⟩
  · intro s p r h hr c a b final cells tree grp old held next
    refine ⟨fun hheld => exec_pumpChunk_held h hheld, fun hheld hclock htile hconv hi hpa hpb hher => ?_⟩
    have hold : old = r.oldSums grp tree := rfl
    rw [exec_pumpChunk_enters h hr hheld hclock htile hconv hi, chunkSums_run hpa hpb hher, hold, chunkTakes]
    refine Leaves.of_next ?_
    generalize s.tileChunk (p.val / 4) r _ = steps
    obtain ⟨hcnt, hrow, hcol, hrun, hk⟩ := chunkEnters_run h next.tileRow next.tileCol _ _ _ _
    refine ⟨hcnt, hrow, hcol, ⟨_, hrun, ?_⟩, hk⟩
    exact PumpRun.chunked_facts r final _ _ _ _ _

end Sys2Proof.Machine
end

open Host
section
/-! SUPPORT. Programs whose bytes follow from the bytes before them (R31, R169, R209). -/
namespace Sys2Proof.Machine

/-- While memory holds its code words the program writes bytes and does nothing else, and the bytes it leaves follow from those it finds. -/
structure Prog.writesBytes (p : Prog) : Prop extends p.writesOnly where
  same : ∀ s t : State, s.intact = true → t.intact = true → (∀ x, t.byte x = s.byte x) → ∀ x, (p.run t).byte x = (p.run s).byte x

theorem Prog.writesBytes_done : Prog.done.writesBytes := ⟨writesOnly_done, fun _ _ _ _ h => h⟩

theorem Prog.writesBytes_all {ps : List Prog} (h : ∀ p ∈ ps, p.writesBytes) : (Prog.all ps).writesBytes := by
  refine ⟨writesOnly_all fun p hp => (h p hp).towritesOnly, ?_⟩
  induction ps with
  | nil => exact writesBytes_done.same
  | cons p ps ih =>
    obtain ⟨hp, hps⟩ := List.forall_mem_cons.1 h
    intro s t hs ht hb
    rw [Prog.run_all_cons, Prog.run_all_cons]
    exact ih hps _ _ (hp.intact hs) (hp.intact ht) (hp.same s t hs ht hb)

theorem Prog.writesBytes_each {α : Type} {l : List α} {f : α → Prog} (h : ∀ x ∈ l, (f x).writesBytes) : (Prog.each l f).writesBytes :=
  writesBytes_all (List.forall_mem_map.2 h)

theorem Prog.writesBytes_when {b : Bool} {p : Prog} (h : p.writesBytes) : (Prog.when b p).writesBytes := by
  cases b
  · exact writesBytes_done
  · exact h

/-- A program that reads bytes alone before it writes. -/
theorem Prog.writesBytes_get {f : State → Prog} (h : ∀ s, (f s).writesBytes) (hf : ∀ s t : State, (∀ x, t.byte x = s.byte x) → f t = f s) :
    (Prog.get f).writesBytes := by
  refine ⟨writesOnly_get fun s => (h s).towritesOnly, fun s t hs ht hb => ?_⟩
  rw [Prog.run_get, Prog.run_get, hf s t hb]
  exact (h s).same s t hs ht hb

theorem store_writesBytes (src : Option Source) (a : Nat) (bs : List Byte) : (store src a bs).writesBytes := by
  refine ⟨store_writesOnly .., fun s t hs ht hb x => ?_⟩
  rw [store_run hs, store_run ht, Act.apply_bytes_byte, Act.apply_bytes_byte, hb]

theorem storeLe_writesBytes (src : Option Source) (a n v : Nat) : (storeLe src a n v).writesBytes := store_writesBytes ..

theorem storePeels_writesBytes (src : Option Source) (c : Nat) (t : TRef) (n : Nat) (ps : List (Nat × Nat)) :
    (storePeels src c t n ps).writesBytes := by
  unfold storePeels
  split
  · refine Prog.writesBytes_all (List.forall_mem_cons.2 ⟨Prog.writesBytes_each fun _ _ => storeLe_writesBytes .., ?_⟩)
    exact List.forall_mem_singleton.2 (storeLe_writesBytes ..)
  · exact Prog.writesBytes_done

theorem State.sl_of_bytes {s t : State} (h : ∀ x, t.byte x = s.byte x) (c o n : Nat) : t.sl c o n = s.sl c o n :=
  State.le_congr fun _ _ => h _

theorem updateRecord_writesBytes (src : Option Source) (c o : Nat) (f : Fmt) (amax : Val) (corrected : Bool) :
    (updateRecord src c o f amax corrected).writesBytes := by
  refine Prog.writesBytes_get (fun s => Prog.writesBytes_all ?_) fun s t h => by simp only [State.sl_of_bytes h]
  simp only [List.forall_mem_cons, List.not_mem_nil, false_imp_iff, implies_true, and_true]
  refine ⟨storeLe_writesBytes .., storeLe_writesBytes .., Prog.writesBytes_get (fun s => Prog.writesBytes_all ?_) fun s t h => by
    simp only [State.sl_of_bytes h]⟩
  simp only [List.forall_mem_cons, List.not_mem_nil, false_imp_iff, implies_true, and_true]
  exact ⟨storeLe_writesBytes .., storeLe_writesBytes .., storeLe_writesBytes .., Prog.writesBytes_when (storeLe_writesBytes ..)⟩

theorem writeTile_writesBytes (src : Option Source) (c : Nat) (t : TRef) (m n row0 col0 cols peel0 : Nat) (k : Conv) :
    (writeTile src c t m n row0 col0 cols peel0 k).writesBytes := by
  refine Prog.writesBytes_all ?_
  simp only [List.forall_mem_cons, List.not_mem_nil, false_imp_iff, implies_true, and_true]
  refine ⟨Prog.writesBytes_each fun _ _ => ?_, Prog.writesBytes_when (Prog.writesBytes_each fun _ _ => store_writesBytes ..),
    storePeels_writesBytes ..⟩
  split <;> exact store_writesBytes ..

/-! ### The orders of a croft -/

/-- The orders issued in croft `c` are `l`. -/
def ordersAre (c : Nat) (l : List Issued) (s : State) : Prop := (s.reeve c).orders = l

variable {p : Prog} {c : Nat} {l : List Issued}

@[simp] theorem exists_orders : ∃ s, ordersAre c l s := by
  refine ⟨{ State.reset with crofts := [(c, { reeve := { orders := l } })] }, ?_⟩
  simp [ordersAre, State.reeve, State.croft, Sparse.get?]

theorem orders_run (h : ∀ l, p.Safe (ordersAre c l)) (s : State) : ((p.run s).reeve c).orders = (s.reeve c).orders :=
  (h (s.reeve c).orders).run rfl

theorem Prog.orders_of_only {T : Touch} (h : p.Only T.allows) (hc : ¬ T.crofts c) : p.Safe (ordersAre c l) := by
  induction p with
  | done => exact Prog.safe_done
  | act a f ih =>
    have hkeep : ∀ s, ordersAre c l s → ordersAre c l (a.apply s) := fun s hs => by
      have := (Prog.keeps (p := eff a) ((Prog.only_eff _).2 h.1) s).crofts c hc
      exact (congrArg (fun k : Croft => k.reeve.orders) this).trans hs
    exact (Prog.safe_act ..).2 ⟨hkeep, ih h.2⟩
  | get f ih => exact (Prog.safe_get f).2 fun s _ => ih s (h s)

section
variable (c l)

@[simp] theorem setReg_orders (p : Page) (o : Nat) (v : Word) : (setReg p o v).Safe (ordersAre c l) := (Prog.safe_eff _).2 fun _ hs => hs
@[simp] theorem setFld_orders (p : Page) (f : Fld) (n : Nat) : (setFld p f n).Safe (ordersAre c l) := (Prog.safe_get _).2 fun _ _ => setReg_orders ..
@[simp] theorem bumpBy_orders (p : Page) (f : Fld) (n : Nat) : (bumpBy p f n).Safe (ordersAre c l) := (Prog.safe_get _).2 fun _ _ => setReg_orders ..
@[simp] theorem bump_orders (p : Page) (f : Fld) : (bump p f).Safe (ordersAre c l) := bumpBy_orders c l p f 1
@[simp] theorem modDev_orders (f : Device → Device) : (modDev f).Safe (ordersAre c l) :=
  (Prog.safe_get _).2 fun _ _ => (Prog.safe_eff _).2 fun _ hs => hs
@[simp] theorem sendFlits_orders (q key : Nat) (fs : List Flit) : (sendFlits q key fs).Safe (ordersAre c l) :=
  (Prog.safe_get _).2 fun _ _ => (Prog.safe_eff _).2 fun _ hs => hs
@[simp] theorem eff_seq_orders : (eff .seq).Safe (ordersAre c l) := (Prog.safe_eff _).2 fun _ hs => hs
@[simp] theorem tellWatch_orders (i : Nat) : (tellWatch i).Safe (ordersAre c l) := modDev_orders c l _
@[simp] theorem stepEnds_orders : stepEnds.Safe (ordersAre c l) := modDev_orders c l _
@[simp] theorem raiseLine_orders (p : Page) : (raiseLine p).Safe (ordersAre c l) := Prog.orders_of_only (T := { regs := p.covers }) (by simp) id

/-- A croft's record that keeps its orders. -/
theorem modCroft_orders {f : Croft → Croft} (hf : ∀ k, (f k).reeve.orders = k.reeve.orders) (j : Nat) : (modCroft j f).Safe (ordersAre c l) := by
  refine (Prog.safe_get _).2 fun s hs => (Prog.safe_eff _).2 fun t ht => ?_
  rw [ordersAre, State.reeve_eq, Act.apply_croft_croft_at]
  split
  next h => exact (hf _).trans (h ▸ hs)
  next => exact ht

theorem modReeve_orders {f : Reeve → Reeve} (hf : ∀ r, (f r).orders = r.orders) (j : Nat) : (modReeve j f).Safe (ordersAre c l) :=
  modCroft_orders c l (fun k => hf k.reeve) j

@[simp] theorem haltReq_orders (j reason : Nat) : (haltReq j reason).Safe (ordersAre c l) := by
  refine (Prog.safe_get _).2 fun s _ => iteInduction (motive := Prog.Safe _) (fun _ => Prog.safe_done) fun _ => ?_
  split
  · exact setFld_orders ..
  · simp [modReeve_orders]

@[simp] theorem pageFault_orders (p : Page) (cause addr : Nat) : (pageFault p cause addr).Safe (ordersAre c l) :=
  Prog.orders_of_only (T := { regs := p.covers }) (by simp) id
@[simp] theorem flood_orders (m : StewMsg) (skip : Option Nat) : (flood m skip).Safe (ordersAre c l) := by simp [flood]
@[simp] theorem haltAll_orders (reason : Nat) : (haltAll reason).Safe (ordersAre c l) := by simp [haltAll]
@[simp] theorem fallBack_orders (j layer kind : Nat) : (fallBack j layer kind).Safe (ordersAre c l) := by
  simp [fallBack, repeatExceeded, abandon, abandonHere, countHalted, raiseAlarm]
@[simp] theorem reportOvf_orders (j layer : Nat) (b : Bool) (o : Option Nat) : (reportOvf j layer b o).Safe (ordersAre c l) := by
  simp only [reportOvf, Prog.safe_all_cons exists_orders, Prog.safe_all_nil, and_true, fallBack_orders]
  refine modReeve_orders c l (fun r => ?_) j
  split <;> rfl
@[simp] theorem trap_orders (j cause : Nat) (t : TrapAt) : (trap j cause t).Safe (ordersAre c l) := by simp [trap, latchBell]
@[simp] theorem countConv_orders (j : Nat) (x : Conv) : (countConv j x).Safe (ordersAre c l) := by simp [countConv]
@[simp] theorem keepRng_orders (j : Nat) (x : Rng) : (keepRng j x).Safe (ordersAre c l) := by
  simp [keepRng, modCroft_orders]

end

end Sys2Proof.Machine
end

open Host
section
/-! O24: tiles of a PUMP order are converted and written, or handed to the mill (R64, R165 to R169, R171, R172, R177, R178, R200, R209, R246). -/
namespace Sys2Proof.Machine

variable {s : State} {g : Nat} {r : PumpRun} {tc : TileConv}

/-! ### Beside the pump -/

/-- Everything but the pumps, memory, and the pages of pumps and mills. -/
def besidePump : Touch where
  regs := offKinds [.pump, .mill]
  crofts := fun _ => True
  links := fun _ => True
  dev := True
  seq := True

/-- The program leaves the pumps, the orders of croft `c` and memory, with its code words, as they are. -/
structure Prog.asidePump (c : Nat) (p : Prog) : Prop where
  only : p.Only besidePump.allows
  orders : ∀ l, p.Safe (ordersAre c l)
  intact : ∀ d, p.Safe (looks Device.intact d)

/-- What such a program leaves as it was. -/
structure AsidePump (c : Nat) (s t : State) : Prop where
  keeps : Keeps besidePump s t
  orders : (t.reeve c).orders = (s.reeve c).orders
  intact : s.intact = true → t.intact = true

theorem Prog.asidePump.run {c : Nat} {p : Prog} (h : p.asidePump c) (s : State) : AsidePump c s (p.run s) :=
  ⟨Prog.keeps h.only s, orders_run h.orders s, intact_of_looks h.intact⟩

theorem AsidePump.refl (c : Nat) (s : State) : AsidePump c s s := ⟨Keeps.refl _ s, rfl, id⟩

theorem AsidePump.trans {c : Nat} {s t u : State} (h : AsidePump c s t) (h' : AsidePump c t u) : AsidePump c s u :=
  ⟨h.keeps.trans h'.keeps, h'.orders.trans h.orders, h'.intact ∘ h.intact⟩

theorem AsidePump.reg {c : Nat} {s t : State} (h : AsidePump c s t) {q : Page} (hq : q.kind = .pump ∨ q.kind = .mill) {o : Nat} (ho : o < 0x1000) :
    t.reg q o = s.reg q o :=
  h.keeps.reg_eq (not_offKinds (by simpa using hq) (Page.placed_of_kind (by rcases hq with h | h <;> simp [h]) (by rcases hq with h | h <;> simp [h])) ho)

theorem besidePump_on {q : Page} (hp : q.kind ≠ .pump) (hm : q.kind ≠ .mill) (hq : q.placed) {o : Nat} (ho : o < 0x1000) :
    onReg besidePump.regs q o := onReg_offKinds ho hq (by simp [hp, hm])

theorem keepRng_aside (c j : Nat) (x : Rng) : (keepRng j x).asidePump c := by
  refine ⟨?_, fun l => keepRng_orders c l j x, fun d => ?_⟩
  · simp [keepRng, besidePump, Touch.allows]
  · simp [keepRng]

theorem countConv_aside (c j : Nat) (k : Conv) : (countConv j k).asidePump c := by
  refine ⟨?_, fun l => countConv_orders c l j k, fun d => by simp [countConv]⟩
  have hon {o : Nat} (ho : o < 0x1000) : onReg besidePump.regs (pgCroft j) o := besidePump_on (by simp) (by simp) (by simp) ho
  simp [countConv, hon]

theorem trap_aside (c j cause : Nat) (x : TrapAt) : (trap j cause x).asidePump c := by
  refine ⟨trap_only (fun o ho => besidePump_on (by simp) (by simp) (by simp) ho) (besidePump_on (by simp) (by simp) (by simp) (by decide)) trivial _ _,
    fun l => trap_orders c l j cause x, fun d => ?_⟩
  simp [trap, latchBell, Prog.safe_when]

theorem reportOvf_aside (c j layer : Nat) (b : Bool) (o : Option Nat) : (reportOvf j layer b o).asidePump c := by
  refine ⟨reportOvf_only (fun o ho => besidePump_on (by simp) (by simp) (by simp) ho)
    (fun k => besidePump_on (by simp) (by simp) (by simp) (by decide)) (fun _ => trivial) trivial (fun _ => trivial) _ _ _,
    fun l => reportOvf_orders c l j layer b o, fun d => ?_⟩
  have hhalt := haltAll_looks Device.intact d 5
  simp [reportOvf, fallBack, repeatExceeded, abandon, abandonHere, countHalted, raiseAlarm, flood, sendFlits, hhalt, tellWatch, Device.intact]

/-! ### What the write of a tile counts -/

/-- What the write of a tile counts on the pump's page. -/
def tileCounts (g : Nat) (trans her inf : Bool) : Prog := .all [
  bump (pgPump g) R.pump_TILE_CNT, Prog.when trans (bump (pgPump g) R.pump_TRANS_TILE_CNT),
  Prog.when her (bump (pgPump g) R.pump_HERITAGE_TILE_CNT), Prog.when inf (bump (pgPump g) R.pump_INF_OUT_CNT)]

theorem tileCounts_run (g : Nat) (trans her inf : Bool) (s : State) :
    let t := (tileCounts g trans her inf).run s
    Counts s t (pgPump g) R.pump_TILE_CNT 1 ∧ Counts s t (pgPump g) R.pump_TRANS_TILE_CNT (oneIf trans) ∧
    Counts s t (pgPump g) R.pump_HERITAGE_TILE_CNT (oneIf her) ∧ Counts s t (pgPump g) R.pump_INF_OUT_CNT (oneIf inf) ∧
    Keeps { regs := theRegs (pgPump g) [R.pump_TILE_CNT, R.pump_TRANS_TILE_CNT, R.pump_HERITAGE_TILE_CNT, R.pump_INF_OUT_CNT] } s t := by
  refine ⟨?_, ?_, ?_, ?_, Prog.keeps (by simp [tileCounts, Prog.only_when]) s⟩
  all_goals cases trans <;> cases her <;> cases inf <;> simp -implicitDefEqProofs [tileCounts, Counts, oneIf, satAdd_zero]

/-- The traps of a conversion's causes, in groups. -/
def tileTraps (c : Nat) (l : List (Nat × Nat)) (f : Nat × Nat → TrapAt) : Prog := .all [eff .seq, Prog.each l fun x => trap c x.2 (f x)]

theorem tileTraps_aside (c j : Nat) (l : List (Nat × Nat)) (f : Nat × Nat → TrapAt) : (tileTraps j l f).asidePump c := by
  refine ⟨?_, fun m => ?_, fun d => ?_⟩
  · simp only [tileTraps, Prog.only_all_cons, Prog.only_all_nil, and_true, Prog.only_eff, Prog.only_each]
    exact ⟨trivial, fun x _ => (trap_aside c j x.2 (f x)).only⟩
  · simp [tileTraps]
  · simp only [tileTraps, Prog.safe_all_cons exists_looks, Prog.safe_all_nil, and_true, eff_seq_looks, true_and, Prog.safe_each exists_looks]
    exact fun x _ => (trap_aside c j x.2 (f x)).intact d

/-- What an overflow event counts and reports. -/
def tileOvf (g : Nat) (layer : Nat) (rec' : Option Nat) (pol again : Bool) : Prog := .all [
  bump (pgPump g) R.pump_OVF_CNT, Prog.when again (bump (pgPump g) R.pump_RETRY_FAIL_CNT), reportOvf (g / 4) layer pol rec']

/-- A frame of registers alone is beside no pump's record, no order and no byte. -/
structure AsideBytes (c : Nat) (s t : State) : Prop where
  byte : ∀ x, t.byte x = s.byte x
  pump : t.pumpRun = s.pumpRun
  orders : (t.reeve c).orders = (s.reeve c).orders
  intact : s.intact = true → t.intact = true

theorem AsideBytes.trans {c : Nat} {s t u : State} (h : AsideBytes c s t) (h' : AsideBytes c t u) : AsideBytes c s u :=
  ⟨fun x => (h'.byte x).trans (h.byte x), h'.pump.trans h.pump, h'.orders.trans h.orders, h'.intact ∘ h.intact⟩

theorem AsidePump.bytes {c : Nat} {s t : State} (h : AsidePump c s t) : AsideBytes c s t :=
  ⟨fun x => h.keeps.mem x id, funext fun k => h.keeps.pumps k id, h.orders, h.intact⟩

theorem Keeps.asideBytes {T : Touch} {s t : State} (h : Keeps T s t) (hm : ∀ x, ¬ T.mem x) (hp : ∀ k, ¬ T.pumps k) (hc : ∀ k, ¬ T.crofts k)
    (hd : ¬ T.dev) (c : Nat) : AsideBytes c s t :=
  ⟨fun x => h.mem x (hm x), funext fun k => h.pumps k (hp k), by rw [State.reeve_eq, State.reeve_eq, h.crofts c (hc c)], intact_of_keeps h hd⟩

theorem tileOvf_run (g layer : Nat) (rec' : Option Nat) (pol again ovf : Bool) (s : State) :
    let t := (Prog.when ovf (tileOvf g layer rec' pol again)).run s
    Counts s t (pgPump g) R.pump_OVF_CNT (oneIf ovf) ∧ Counts s t (pgPump g) R.pump_RETRY_FAIL_CNT (oneIf (again && ovf)) ∧
    (∀ o < 0x1000, o ≠ R.pump_OVF_CNT.off → o ≠ R.pump_RETRY_FAIL_CNT.off → t.reg (pgPump g) o = s.reg (pgPump g) o) ∧
    AsideBytes (g / 4) s t := by
  cases ovf with
  | false => 
    refine ⟨(satAdd_zero _).symm, ?_, fun _ _ _ _ => rfl, (AsidePump.refl _ s).bytes⟩
    rw [Bool.and_false]
    exact (satAdd_zero _).symm
  | true =>
    dsimp only
    rw [Prog.run_when_true, tileOvf, Prog.run_all_cons, Prog.run_all_cons, Prog.run_all_cons, Prog.run_all_nil]
    have hcnt : Keeps { regs := theRegs (pgPump g) [R.pump_OVF_CNT, R.pump_RETRY_FAIL_CNT] } s
        ((Prog.when again (bump (pgPump g) R.pump_RETRY_FAIL_CNT)).run ((bump (pgPump g) R.pump_OVF_CNT).run s)) :=
      (Prog.keeps (by simp) s).trans (Prog.keeps (by simp [Prog.only_when]) _)
    have hovf : Counts s ((Prog.when again (bump (pgPump g) R.pump_RETRY_FAIL_CNT)).run ((bump (pgPump g) R.pump_OVF_CNT).run s)) (pgPump g)
        R.pump_OVF_CNT 1 := by cases again <;> simp -implicitDefEqProofs [Counts]
    have hfail : Counts s ((Prog.when again (bump (pgPump g) R.pump_RETRY_FAIL_CNT)).run ((bump (pgPump g) R.pump_OVF_CNT).run s)) (pgPump g)
        R.pump_RETRY_FAIL_CNT (oneIf again) := by cases again <;> simp -implicitDefEqProofs [Counts, oneIf, satAdd_zero]
    generalize (Prog.when again (bump (pgPump g) R.pump_RETRY_FAIL_CNT)).run ((bump (pgPump g) R.pump_OVF_CNT).run s) = u at *
    have hrep := (reportOvf_aside (g / 4) (g / 4) layer pol rec').run u
    generalize (reportOvf (g / 4) layer pol rec').run u = t at *
    refine ⟨(hrep.reg (.inl rfl) (by decide)).trans hovf, ?_, fun o ho h1 h2 => ?_, (hcnt.asideBytes (fun _ => id) (fun _ => id) (fun _ => id) id _).trans hrep.bytes⟩
    · rw [Bool.and_true]
      exact (hrep.reg (.inl rfl) (by decide)).trans hfail
    · exact (hrep.reg (.inl rfl) ho).trans (hcnt.reg_eq (not_theRegs_apart (by simp [ho, h1, h2])))

/-- What follows the bytes of a tile that is written. -/
def tileFollows (g : Nat) (k : Conv) (trans her : Bool) (l : List (Nat × Nat)) (f : Nat × Nat → TrapAt) (layer : Nat) (rec' : Option Nat)
    (pol again : Bool) : Prog := .all [
  .all [keepRng (g / 4) k.rng, countConv (g / 4) k], tileCounts g trans her k.toInf, tileTraps (g / 4) l f, Prog.when k.ovf (tileOvf g layer rec' pol again),
  setFld (pgPump g) R.pump_STATUS_RETRYING 0]

/-- The registers a conversion counts in, and those of a tile that is written. -/
def convRegs : List Fld := [R.croft_ZERO_BLK_CNT, R.croft_PEEL_CNT, R.croft_SWAMP_CNT, R.croft_VANISH_CNT, R.croft_SAT_CNT]

/-- A tile has been counted, its traps and its overflow reported. -/
structure TileCounted (s t : State) (g : Nat) (k : Conv) (trans her again : Bool) : Prop where
  tile : Counts s t (pgPump g) R.pump_TILE_CNT 1
  trans : Counts s t (pgPump g) R.pump_TRANS_TILE_CNT (oneIf trans)
  her : Counts s t (pgPump g) R.pump_HERITAGE_TILE_CNT (oneIf her)
  inf : Counts s t (pgPump g) R.pump_INF_OUT_CNT (oneIf k.toInf)
  ovf : Counts s t (pgPump g) R.pump_OVF_CNT (oneIf k.ovf)
  fail : Counts s t (pgPump g) R.pump_RETRY_FAIL_CNT (oneIf (again && k.ovf))
  retrying : t.bit (pgPump g) R.pump_STATUS_RETRYING = false

theorem tileConv_run (c : Nat) (k : Conv) (s : State) :
    let t := (Prog.all [keepRng c k.rng, countConv c k]).run s
    AsidePump c s t ∧ Keeps { regs := theRegs (pgCroft c) convRegs, crofts := (· = c), seq := True } s t := by
  dsimp only
  rw [Prog.run_all_cons, Prog.run_all_cons, Prog.run_all_nil]
  refine ⟨((keepRng_aside c c k.rng).run s).trans ((countConv_aside c c k).run _), ((keepRng_run c k.rng s).2.mono ?_).trans
    (Prog.keeps (by simp [countConv, convRegs]) _)⟩
  constructor <;> simp

theorem tileTraps_none {l : List (Nat × Nat)} (h : l = []) (c : Nat) (f : Nat × Nat → TrapAt) (s : State) :
    Keeps { seq := True } s ((tileTraps c l f).run s) := by
  subst h
  exact Prog.keeps (p := tileTraps c [] f) (by simp [tileTraps, Touch.allows]) s

theorem tileFollows_run (g : Nat) (k : Conv) (trans her : Bool) (l : List (Nat × Nat)) (f : Nat × Nat → TrapAt) (layer : Nat) (rec' : Option Nat)
    (pol again : Bool) (s : State) :
    let t := (tileFollows g k trans her l f layer rec' pol again).run s
    TileCounted s t g k trans her again ∧ AsideBytes (g / 4) s t ∧
    (k.ovf = false → l = [] → Keeps { regs := someRegs [(pgPump g, [R.pump_TILE_CNT, R.pump_TRANS_TILE_CNT, R.pump_HERITAGE_TILE_CNT, R.pump_INF_OUT_CNT,
        R.pump_STATUS_RETRYING]), (pgCroft (g / 4), convRegs)], crofts := (· = g / 4), seq := True } s t) := by
  dsimp only
  rw [tileFollows, Prog.run_all_cons, Prog.run_all_cons, Prog.run_all_cons, Prog.run_all_cons, Prog.run_all_cons, Prog.run_all_nil]
  obtain ⟨haside1, hk1⟩ := tileConv_run (g / 4) k s
  generalize (Prog.all [keepRng (g / 4) k.rng, countConv (g / 4) k]).run s = u1 at *
  obtain ⟨htile, htrans, hher, hinf, hk2⟩ := tileCounts_run g trans her k.toInf u1
  generalize (tileCounts g trans her k.toInf).run u1 = u2 at *
  have haside3 := (tileTraps_aside (g / 4) (g / 4) l f).run u2
  have hk3 (h : l = []) := tileTraps_none h (g / 4) f u2
  generalize (tileTraps (g / 4) l f).run u2 = u3 at *
  obtain ⟨hovf, hfail, hreg4, haside4⟩ := tileOvf_run g layer rec' pol again k.ovf u3
  have hk4 (h : k.ovf = false) : (Prog.when k.ovf (tileOvf g layer rec' pol again)).run u3 = u3 := by
    rw [h]
    rfl
  generalize (Prog.when k.ovf (tileOvf g layer rec' pol again)).run u3 = u4 at *
  have hset : ((setFld (pgPump g) R.pump_STATUS_RETRYING 0).run u4).bit (pgPump g) R.pump_STATUS_RETRYING = false := by
    simp -implicitDefEqProofs [State.bit]
  have hk5 : Keeps { regs := theRegs (pgPump g) [R.pump_STATUS_RETRYING] } u4 ((setFld (pgPump g) R.pump_STATUS_RETRYING 0).run u4) :=
    Prog.keeps (by simp) u4
  generalize (setFld (pgPump g) R.pump_STATUS_RETRYING 0).run u4 = t at *
  have hlate {o : Nat} (ho : o < 0x1000) (h1 : o ≠ R.pump_OVF_CNT.off) (h2 : o ≠ R.pump_RETRY_FAIL_CNT.off) (h3 : o ≠ R.pump_STATUS_RETRYING.off) :
      t.reg (pgPump g) o = u2.reg (pgPump g) o :=
    (hk5.reg_eq (not_theRegs_apart (by simp [ho, h3]))).trans ((hreg4 o ho h1 h2).trans (haside3.reg (.inl rfl) ho))
  have hfirst {o : Nat} (ho : o < 0x1000) : u1.reg (pgPump g) o = s.reg (pgPump g) o := haside1.reg (.inl rfl) ho
  have hmid {o : Nat} (ho : o < 0x1000) (h : o ∉ [R.pump_TILE_CNT, R.pump_TRANS_TILE_CNT, R.pump_HERITAGE_TILE_CNT, R.pump_INF_OUT_CNT].map (·.off)) :
      u3.reg (pgPump g) o = s.reg (pgPump g) o := by
    refine (haside3.reg (.inl rfl) ho).trans ((hk2.reg_eq ?_).trans (hfirst ho))
    rw [List.map_cons, List.map_cons, List.map_cons, List.map_singleton, List.mem_cons, List.mem_cons, List.mem_cons, List.mem_singleton] at h
    simp only [not_or] at h
    exact not_theRegs_apart (by simp [ho, h])
  refine ⟨⟨?_, ?_, ?_, ?_, ?_, ?_, hset⟩, ?_, fun ho hl => ?_⟩
  · rw [Counts, hlate (by decide) (by decide) (by decide) (by decide), htile, hfirst (by decide)]
  · rw [Counts, hlate (by decide) (by decide) (by decide) (by decide), htrans, hfirst (by decide)]
  · rw [Counts, hlate (by decide) (by decide) (by decide) (by decide), hher, hfirst (by decide)]
  · rw [Counts, hlate (by decide) (by decide) (by decide) (by decide), hinf, hfirst (by decide)]
  · rw [Counts, hk5.reg_eq (not_theRegs_offset (by decide) _), hovf, hmid (by decide) (by decide)]
  · rw [Counts, hk5.reg_eq (not_theRegs_offset (by decide) _), hfail, hmid (by decide) (by decide)]
  · exact (haside1.bytes.trans (hk2.asideBytes (fun _ => id) (fun _ => id) (fun _ => id) id _)).trans ((haside3.bytes.trans haside4).trans
      (hk5.asideBytes (fun _ => id) (fun _ => id) (fun _ => id) id _))
  · rw [hk4 ho] at hk5
    refine (((hk1.mono ?_).trans (hk2.mono ?_)).trans ((hk3 hl).mono ?_)).trans (hk5.mono ?_)
    all_goals constructor
    case refine_1.regs => exact fun a h => ⟨_, List.mem_cons_of_mem _ List.mem_cons_self, h⟩
    case refine_2.regs => exact fun a h => ⟨_, List.mem_cons_self, theRegs_mono (by simp) a h⟩
    case refine_4.regs => exact fun a h => ⟨_, List.mem_cons_self, theRegs_mono (by simp) a h⟩
    case refine_1.crofts => exact fun _ h => h
    all_goals simp

/-! ### The order ends -/

/-- The mill is free of a pump's epilogue. -/
def millFreed (c epi : Nat) : Prog := Prog.when (epi != 0) (.all [
  setFld (pgMill c) R.mill_STATUS_EPILOGUE 0, setFld (pgMill c) R.mill_STATUS_EPI_PUMP 0])

theorem millFreed_run (c epi : Nat) (s : State) :
    let t := (millFreed c epi).run s
    (epi ≠ 0 → t.bit (pgMill c) R.mill_STATUS_EPILOGUE = false) ∧
    Keeps { regs := fun a => epi ≠ 0 ∧ theRegs (pgMill c) [R.mill_STATUS_EPILOGUE] a } s t := by
  dsimp only
  by_cases he : epi = 0
  · subst he
    exact ⟨fun h => absurd rfl h, Keeps.refl _ s⟩
  · have hrun : (millFreed c epi).run s = (Prog.all [setFld (pgMill c) R.mill_STATUS_EPILOGUE 0, setFld (pgMill c) R.mill_STATUS_EPI_PUMP 0]).run s := by
      rw [millFreed, Prog.run_when, if_pos (by simpa using he)]
    rw [hrun]
    refine ⟨fun _ => by simp -implicitDefEqProofs [State.bit], ?_⟩
    refine (Prog.keeps (T := { regs := theRegs (pgMill c) [R.mill_STATUS_EPILOGUE] }) (by simp) s).mono ?_
    constructor
    case regs => exact fun a h => ⟨he, h⟩
    all_goals simp

/-- What the end of a PUMP order may change beside memory and the orders. -/
def pumpEndTouch (g epi : Nat) : Touch :=
  { regs := fun a => theRegs (pgPump g) [R.pump_STATUS_BUSY] a ∨ (epi ≠ 0 ∧ theRegs (pgMill (g / 4)) [R.mill_STATUS_EPILOGUE] a)
    pumps := (· = g) }

/-- What an idle pump shows. -/
def pumpIdle (g : Nat) : Prog := .all [setFld (pgPump g) R.pump_STATUS_BUSY 0, setFld (pgPump g) R.pump_STATUS_FUSED 0,
  setFld (pgPump g) R.pump_STATUS_RETRYING 0, setFld (pgPump g) R.pump_STATUS_HELD 0, setFld (pgPump g) R.pump_STATUS_SHAPE 0]

theorem pumpEnd_run (g : Nat) (r : PumpRun) (s : State) :
    let t := (pumpEnd g r).run s
    t.pumpRun g = none ∧ t.bit (pgPump g) R.pump_STATUS_BUSY = false ∧ t.bit (pgPump g) R.pump_STATUS_RETRYING = false ∧
    (r.epi ≠ 0 → t.bit (pgMill (g / 4)) R.mill_STATUS_EPILOGUE = false) ∧ Keeps (pumpEndTouch g r.epi) s t := by
  have hrun : (pumpEnd g r).run s = (millFreed (g / 4) r.epi).run ((pumpIdle g).run ((eff (.pumpErase g (g + 1))).run s)) := by
    simp -implicitDefEqProofs only [pumpEnd, millFreed, pumpIdle, Prog.run_all_cons, Prog.run_all_nil]
  dsimp only
  rw [hrun]
  have herase : ((eff (.pumpErase g (g + 1))).run s).pumpRun g = none := (pumpRun_pumpErase ..).trans (if_pos ⟨Nat.le_refl g, Nat.lt_succ_self g⟩)
  have hk1 : Keeps { pumps := (· = g) } s ((eff (.pumpErase g (g + 1))).run s) :=
    Prog.keeps (T := { pumps := (· = g) }) (p := eff (.pumpErase g (g + 1)))
      ((Prog.only_eff _).2 fun x hlo hhi => Nat.le_antisymm (Nat.lt_succ_iff.1 hhi) hlo) s
  generalize (eff (.pumpErase g (g + 1))).run s = u at *
  have hidle : ((pumpIdle g).run u).bit (pgPump g) R.pump_STATUS_BUSY = false ∧ ((pumpIdle g).run u).bit (pgPump g) R.pump_STATUS_RETRYING = false := by
    constructor <;> simp -implicitDefEqProofs [pumpIdle, State.bit]
  have hk2 : Keeps { regs := theRegs (pgPump g) [R.pump_STATUS_BUSY] } u ((pumpIdle g).run u) := Prog.keeps (by simp [pumpIdle]) u
  generalize (pumpIdle g).run u = v at *
  obtain ⟨hmill, hk3⟩ := millFreed_run (g / 4) r.epi v
  generalize (millFreed (g / 4) r.epi).run v = t at *
  have hpage {f : Fld} (hf : f.off < 0x1000) : t.bit (pgPump g) f = v.bit (pgPump g) f :=
    hk3.bit_eq fun h => not_theRegs_apart (by simp [hf]) h.2
  refine ⟨?_, (hpage (by decide)).trans hidle.1, (hpage (by decide)).trans hidle.2, hmill, ((hk1.mono ?_).trans (hk2.mono ?_)).trans (hk3.mono ?_)⟩
  · rw [hk3.pumps g id, hk2.pumps g id, herase]
  all_goals constructor
  case refine_3.regs => exact fun a h => .inl h
  case refine_4.regs => exact fun a h => .inr h
  case refine_2.pumps => exact fun _ h => h
  all_goals simp [pumpEndTouch]

/-- The order of a PUMP run ends: its record, its last word on the page, the pump idle and the order complete. -/
structure PumpEnded (s t : State) (g : Nat) (r : PumpRun) : Prop where
  run : t.pumpRun g = none
  busy : t.bit (pgPump g) R.pump_STATUS_BUSY = false
  retrying : t.bit (pgPump g) R.pump_STATUS_RETRYING = false
  epilogue : r.epi ≠ 0 → t.bit (pgMill (g / 4)) R.mill_STATUS_EPILOGUE = false
  orders : (t.reeve (g / 4)).orders = ((s.reeve (g / 4)).ended r.serial).orders
  last : (t.reg (pgPump g) R.pump_LAST_DONE_RETRIED.off).toNat = r.lastDone
  byte : ∀ x, t.byte x = ((Prog.when ((s.pumpOut (g / 4) r).smode == 1) (updateRecord (byEngine (if r.epi = 0 then 2 + g % 4 else 6) r.idx) (g / 4) r.args.rc
    (s.pumpOut (g / 4) r).format r.amax r.retried)).run s).byte x

/-- What the end of a PUMP order may change. -/
def pumpDoneTouch (g epi : Nat) : Touch :=
  { regs := fun a => theRegs (pgPump g) [R.pump_STATUS_BUSY, R.pump_LAST_DONE_RETRIED] a ∨ (epi ≠ 0 ∧ theRegs (pgMill (g / 4)) [R.mill_STATUS_EPILOGUE] a)
    mem := fun _ => True, crofts := (· = g / 4), pumps := (· = g) }

theorem PumpRun.lastDone_lt (r : PumpRun) : r.lastDone < 64 := by
  have h (b : Bool) (n : Nat) : (if b then n else 0) ≤ n := by cases b <;> simp
  have h1 := h r.retried 1
  have h2 := h r.retryFail 2
  have h3 := h r.ovf 4
  have h4 := h r.invalid 8
  have h5 := h r.infOut 16
  have h6 := h r.esc 32
  rw [PumpRun.lastDone]
  omega

theorem pumpDone_run (hi : s.intact = true) (hr : s.pumpRun g = some r) :
    PumpEnded s ((pumpDone g).run s) g r ∧ Keeps (pumpDoneTouch g r.epi) s ((pumpDone g).run s) := by
  have hrun : (pumpDone g).run s = (dropOrder (g / 4) r.serial).run ((pumpEnd g r).run ((setReg (pgPump g) R.pump_LAST_DONE_RETRIED.off
      (BitVec.ofNat 32 r.lastDone)).run ((Prog.when ((s.pumpOut (g / 4) r).smode == 1) (updateRecord (byEngine (if r.epi = 0 then 2 + g % 4 else 6) r.idx) (g / 4)
      r.args.rc (s.pumpOut (g / 4) r).format r.amax r.retried)).run s))) := by
    rw [pumpDone, Prog.run_get, hr]
    simp -implicitDefEqProofs only [Prog.run_all_cons, Prog.run_all_nil]
  rw [hrun]
  generalize hu : (Prog.when ((s.pumpOut (g / 4) r).smode == 1) (updateRecord (byEngine (if r.epi = 0 then 2 + g % 4 else 6) r.idx) (g / 4)
      r.args.rc (s.pumpOut (g / 4) r).format r.amax r.retried)).run s = u
  have hk1 : Keeps { mem := fun _ => True } s u := hu ▸ (Prog.writesOnly_when fun _ => updateRecord_writesOnly ..).keeps s hi
  have hlast : ((setReg (pgPump g) R.pump_LAST_DONE_RETRIED.off (BitVec.ofNat 32 r.lastDone)).run u).reg (pgPump g) R.pump_LAST_DONE_RETRIED.off =
      BitVec.ofNat 32 r.lastDone := by simp -implicitDefEqProofs
  have hk2 : Keeps { regs := theRegs (pgPump g) [R.pump_LAST_DONE_RETRIED] } u
      ((setReg (pgPump g) R.pump_LAST_DONE_RETRIED.off (BitVec.ofNat 32 r.lastDone)).run u) := Prog.keeps (by simp) u
  generalize (setReg (pgPump g) R.pump_LAST_DONE_RETRIED.off (BitVec.ofNat 32 r.lastDone)).run u = v at *
  obtain ⟨hnone, hbusy, hretry, hmill, hk3⟩ := pumpEnd_run g r v
  generalize (pumpEnd g r).run v = w at *
  have hk4 : Keeps { crofts := (· = g / 4) } w ((dropOrder (g / 4) r.serial).run w) := Prog.keeps (by simp) w
  have hself : ((dropOrder (g / 4) r.serial).run w).croft (g / 4) = { w.croft (g / 4) with reeve := (w.reeve (g / 4)).ended r.serial } :=
    modCroft_run_self (g / 4) (fun k => { k with reeve := k.reeve.ended r.serial }) w
  generalize (dropOrder (g / 4) r.serial).run w = t at *
  refine ⟨⟨(hk4.pumps g id).trans hnone, (hk4.bit_eq id).trans hbusy, (hk4.bit_eq id).trans hretry, fun h => (hk4.bit_eq id).trans (hmill h), ?_, ?_, ?_⟩,
    (((hk1.mono ?_).trans (hk2.mono ?_)).trans (hk3.mono ?_)).trans (hk4.mono ?_)⟩
  · rw [State.reeve_eq, hself, State.reeve_eq, hk3.crofts _ id, hk2.crofts _ id, hk1.crofts _ id]
    rfl
  · have hend : w.reg (pgPump g) R.pump_LAST_DONE_RETRIED.off = v.reg (pgPump g) R.pump_LAST_DONE_RETRIED.off :=
      hk3.reg_eq (by rintro (h | h); exacts [not_theRegs_offset (by decide) _ h, not_theRegs_apart (by simp) h.2])
    rw [hk4.reg_eq id, hend, hlast, BitVec.toNat_ofNat, Nat.mod_eq_of_lt (r.lastDone_lt.trans (by decide))]
  · intro x
    rw [hk4.mem x id, hk3.mem x id, hk2.mem x id, hu]
  all_goals constructor
  case refine_5.regs => exact fun a h => .inl (theRegs_mono (by simp) a h)
  case refine_6.regs => exact fun a h => h.imp_left (theRegs_mono (by simp) a)
  case refine_6.pumps => exact fun _ h => h
  case refine_7.crofts => exact fun _ h => h
  all_goals simp [pumpDoneTouch, pumpEndTouch]

/-! ### A tile is written -/

/-- The traps of a tile's conversion (R57, R60). -/
def State.tileTrapAt (s : State) (g : Nat) (r : PumpRun) (tc : TileConv) (w : TRef) (x : Nat × Nat) : TrapAt :=
  let _ := x
  ⟨g % 4, r.idx, tc.row, tc.col, (s.kPlace tc.bad).1, (s.kPlace tc.bad).2, (s.asRead (g / 4) r.args.a).fmt, (s.asRead (g / 4) r.args.b).fmt, w.fmt,
    w.rnd⟩

/-- The bytes of a tile. -/
def tileBytes (g : Nat) (r : PumpRun) (tc : TileConv) (w : TRef) (k : Conv) (peel0 : Nat) : Prog :=
  writeTile (byEngine (2 + g % 4) r.idx) (g / 4) w r.args.m r.args.n (tc.row * (shapeOf r.shape).1) (tc.col * (shapeOf r.shape).2.1) (r.colsIn tc.col) peel0 k

/-- The order ends where no tile of it is left. -/
def pumpMayEnd (g : Nat) (s : State) : Prog := 
  match s.pumpRun g with
  | some r => Prog.when (decide (r.tileRows * r.tileCols ≤ r.tile) && r.conv.isNone) (pumpDone g)
  | none => .done

theorem pumpWrite_eq (g : Nat) (r : PumpRun) (tc : TileConv) (w : TRef) (k : Conv) (peel0 : Nat) (again : Bool) (s : State) :
    (pumpWrite g r tc w k peel0 again).run s = 
      let u := (tileFollows g k (r.args.a.trans || r.args.b.trans) (s.bit pgNum R.numstep_CFG_HERITAGE) (trapGroups 64 k.causes) (s.tileTrapAt g r tc w)
        r.layer (if w.smode = 1 then some r.args.rc else none) (s.bit (pgPump g) R.pump_PUMPCFG_OVF_POLICY) again).run ((tileBytes g r tc w k peel0).run s)
      let v := (modPump g (fun r => { r with
        conv := none, retried := r.retried || again, retryFail := r.retryFail || (again && k.ovf), ovf := r.ovf || k.ovf,
        infOut := r.infOut || k.toInf })).run u
      (pumpMayEnd g v).run v := by
  rw [pumpWrite, Prog.run_get]
  simp -implicitDefEqProofs only [Prog.run_all_cons, Prog.run_all_nil, tileFollows, tileCounts, tileTraps, tileOvf, tileBytes, Prog.run_get] <;> rfl

theorem State.pumpOut_congr {s t : State} {c : Nat} {r q : PumpRun} (h : (t.reeve c).orders = (s.reeve c).orders) (hs : q.serial = r.serial)
    (hb : q.bnd = r.bnd) (ha : q.args = r.args) : t.pumpOut c q = s.pumpOut c r := by
  rw [State.pumpOut, State.pumpOut, State.orderWide, State.orderWide, State.order?, State.order?, h, hs, hb, ha]

/-- The order ends or goes on after the tile. -/
theorem pumpMayEnd_run (hi : s.intact = true) (hr : s.pumpRun g = some r) (hc : r.conv = none) :
    let t := (pumpMayEnd g s).run s
    (r.lastTile = true → PumpEnded s t g r ∧ Keeps (pumpDoneTouch g r.epi) s t) ∧ (r.lastTile = false → t = s) := by
  dsimp only
  rw [pumpMayEnd, hr]
  dsimp only
  rw [hc, Option.isNone_none, Bool.and_true, ← PumpRun.lastTile]
  cases r.lastTile with
  | false => exact ⟨fun h => (Bool.false_ne_true h).elim, fun _ => rfl⟩
  | true => exact ⟨fun _ => pumpDone_run hi hr, fun h => (Bool.false_ne_true h.symm).elim⟩

section
variable {s0 : State} {amax : Val}

theorem pumpWrite_run (hi : s0.intact = true) (hk : Keeps { pumps := (· = g) } s0 s) (hr : s.pumpRun g = some { r with amax := amax }) (he : r.epi = 0)
    (k : Conv) (peel0 : Nat) (again : Bool) :
    let t := (pumpWrite g r tc (s0.pumpOut (g / 4) r) k peel0 again).run s
    TileWritten s0 t g r tc k peel0 again amax ∧ (k.ovf = false → k.causes.all (· == 0) = true → Keeps (tileTouch g) s0 t) := by
  have his : s.intact = true := intact_of_keeps hk id hi
  dsimp only
  rw [pumpWrite_eq]
  generalize hw : s0.pumpOut (g / 4) r = w
  have hbytes := (writeTile_writesBytes (byEngine (2 + g % 4) r.idx) (g / 4) w r.args.m r.args.n (tc.row * (shapeOf r.shape).1)
    (tc.col * (shapeOf r.shape).2.1) (r.colsIn tc.col) peel0 k).same s0 s hi his fun x => hk.mem x id
  have hk1 : Keeps { mem := fun _ => True } s ((tileBytes g r tc w k peel0).run s) := (writeTile_writesBytes ..).keeps s his
  have hi1 : ((tileBytes g r tc w k peel0).run s0).intact = true := (writeTile_writesBytes ..).intact hi
  rw [← tileBytes] at hbytes
  generalize (tileBytes g r tc w k peel0).run s = u1 at *
  dsimp only
  generalize s.tileTrapAt g r tc w = f
  generalize (if w.smode = 1 then some r.args.rc else none) = rec'
  obtain ⟨hcounted, haside, hk2⟩ := tileFollows_run g k (r.args.a.trans || r.args.b.trans) (s.bit pgNum R.numstep_CFG_HERITAGE) (trapGroups 64 k.causes) f
    r.layer rec' (s.bit (pgPump g) R.pump_PUMPCFG_OVF_POLICY) again u1
  generalize (tileFollows g k (r.args.a.trans || r.args.b.trans) (s.bit pgNum R.numstep_CFG_HERITAGE) (trapGroups 64 k.causes) f r.layer rec'
    (s.bit (pgPump g) R.pump_PUMPCFG_OVF_POLICY) again).run u1 = u2 at *
  have hu2 : u2.pumpRun g = some { r with amax := amax } := by rw [haside.pump, hk1.pumps g id, hr]
  have hv := modPump_self hu2 (fun r => { r with
    conv := none, retried := r.retried || again, retryFail := r.retryFail || (again && k.ovf), ovf := r.ovf || k.ovf, infOut := r.infOut || k.toInf })
  have hk3 : Keeps { pumps := (· = g) } u2 ((modPump g (fun r => { r with
      conv := none, retried := r.retried || again, retryFail := r.retryFail || (again && k.ovf), ovf := r.ovf || k.ovf,
      infOut := r.infOut || k.toInf })).run u2) := Prog.keeps (modPump_allows rfl _) u2
  generalize (modPump g _).run u2 = v at *
  have hiv : v.intact = true := intact_of_keeps hk3 id (haside.intact (intact_of_keeps hk1 id his))
  have hrun : v.pumpRun g = some (r.wroteTile k again amax) := hv
  have hbytev : ∀ x, v.byte x = ((tileBytes g r tc w k peel0).run s0).byte x := fun x => by
    rw [hk3.mem x id, haside.byte, hbytes]
  have horders : (v.reeve (g / 4)).orders = (s0.reeve (g / 4)).orders := by
    rw [State.reeve_eq, hk3.crofts _ id, ← State.reeve_eq, haside.orders, State.reeve_eq, hk1.crofts _ id, hk.crofts _ id, ← State.reeve_eq]
  have hreg0 {o : Nat} : u1.reg (pgPump g) o = s0.reg (pgPump g) o := (hk1.reg_eq id).trans (hk.reg_eq id)
  have hher : s.bit pgNum R.numstep_CFG_HERITAGE = s0.bit pgNum R.numstep_CFG_HERITAGE := hk.bit_eq id
  have hout : v.pumpOut (g / 4) (r.wroteTile k again amax) = w := (State.pumpOut_congr horders rfl rfl rfl).trans hw
  obtain ⟨hcnt1, hcnt2, hcnt3, hcnt4, hcnt5, hcnt6, hretry⟩ := hcounted
  obtain ⟨hend, hgo⟩ := pumpMayEnd_run hiv hrun rfl
  have hquiet (ho : k.ovf = false) (hc : k.causes.all (· == 0) = true) : Keeps (tileTouch g) s0 v := by
    refine (((hk.mono ?_).trans (hk1.mono ?_)).trans ((hk2 ho (trapGroups_none hc)).mono ?_)).trans (hk3.mono ?_)
    all_goals constructor
    case refine_3.regs =>
      rintro a ⟨x, hx, h⟩
      simp only [List.mem_cons, List.not_mem_nil, or_false] at hx
      obtain rfl | rfl := hx
      · exact ⟨_, List.mem_cons_self, theRegs_mono (by simp) a h⟩
      · exact ⟨_, List.mem_cons_of_mem _ List.mem_cons_self, h⟩
    case refine_3.crofts => exact fun _ h => h
    all_goals simp [tileTouch]
  generalize (pumpMayEnd g v).run v = t at *
  have hlt : (r.wroteTile k again amax).lastTile = r.lastTile := rfl
  rw [hlt] at hend hgo
  have hcounts {f : Fld} {n : Nat} (h : Counts u1 u2 (pgPump g) f n) (hf : t.reg (pgPump g) f.off = v.reg (pgPump g) f.off) :
      Counts s0 t (pgPump g) f n := by
    rw [Counts, hf, hk3.reg_eq id, h, hreg0]
  rw [hher] at hcnt3
  have hwritten (hf : ∀ f ∈ [R.pump_TILE_CNT, R.pump_TRANS_TILE_CNT, R.pump_HERITAGE_TILE_CNT, R.pump_INF_OUT_CNT, R.pump_OVF_CNT,
      R.pump_RETRY_FAIL_CNT], t.reg (pgPump g) f.off = v.reg (pgPump g) f.off) (hret : t.bit (pgPump g) R.pump_STATUS_RETRYING = false)
      (hb : ∀ x, t.byte x = ((Prog.all [tileBytes g r tc w k peel0, Prog.when (r.lastTile && w.smode == 1)
        (updateRecord (byEngine (2 + g % 4) r.idx) (g / 4) r.args.rc w.format amax (r.wroteTile k again amax).retried)]).run s0).byte x)
      (hl : if r.lastTile then t.pumpRun g = none ∧ t.bit (pgPump g) R.pump_STATUS_BUSY = false ∧
          (t.reeve (g / 4)).orders = ((s0.reeve (g / 4)).ended r.serial).orders ∧
          (t.reg (pgPump g) R.pump_LAST_DONE_RETRIED.off).toNat = (r.wroteTile k again amax).lastDone
        else t.pumpRun g = some (r.wroteTile k again amax) ∧ (t.reeve (g / 4)).orders = (s0.reeve (g / 4)).orders) :
      TileWritten s0 t g r tc k peel0 again amax := by
    simp only [List.forall_mem_cons, List.not_mem_nil, false_imp_iff, implies_true, and_true] at hf
    obtain ⟨h1, h2, h3, h4, h5, h6⟩ := hf
    refine ⟨hcounts hcnt1 h1, hcounts hcnt2 h2, hcounts hcnt3 h3, hcounts hcnt4 h4, hcounts hcnt5 h5, hcounts hcnt6 h6, hret, ?_, hl⟩
    rw [hw]
    exact hb
  cases hl : r.lastTile with
  | false =>
    have ht := hgo hl
    subst ht
    refine ⟨hwritten (fun _ _ => rfl) ((hk3.bit_eq id).trans hretry) ?_ ?_, fun ho hc => hquiet ho hc⟩
    · rw [hl, Bool.false_and, Prog.run_all_cons, Prog.run_all_cons, Prog.run_all_nil, Prog.run_when_false]
      exact hbytev
    · rw [hl]
      exact ⟨hrun, horders⟩
  | true =>
    obtain ⟨⟨hnone, hbusy, hret, -, hord, hlast, hbyte⟩, hk4⟩ := hend hl
    rw [hout] at hbyte
    have hsame {o : Nat} (ho : o ∉ [R.pump_STATUS_BUSY, R.pump_LAST_DONE_RETRIED].map Fld.off) (h : o < 0x1000) : t.reg (pgPump g) o = v.reg (pgPump g) o := by
      refine hk4.reg_eq ?_
      rintro (h1 | ⟨-, h1⟩)
      · exact not_theRegs_offset ho _ h1
      · exact not_theRegs_apart (by simp [h]) h1
    refine ⟨hwritten ?_ hret ?_ ?_, fun ho hc => (hquiet ho hc).trans (hk4.mono ?_)⟩
    · simp only [List.forall_mem_cons, List.not_mem_nil, false_imp_iff, implies_true, and_true]
      refine ⟨?_, ?_, ?_, ?_, ?_, ?_⟩
      all_goals exact hsame (by decide) (by decide)
    · intro x
      rw [hbyte, hl, Bool.true_and, Prog.run_all_cons, Prog.run_all_cons, Prog.run_all_nil]
      have he' : (r.wroteTile k again amax).epi = 0 := he
      rw [he', if_pos rfl]
      exact (Prog.writesBytes_when (updateRecord_writesBytes ..)).same _ _ hi1 hiv hbytev x
    · rw [hl]
      refine ⟨hnone, hbusy, ?_, hlast⟩
      rw [hord, Reeve.ended, Reeve.ended, horders]
      rfl
    · constructor
      case regs =>
        rintro a (h | ⟨h, -⟩)
        · exact ⟨_, List.mem_cons_self, theRegs_sub (gs := [R.pump_TILE_CNT, R.pump_TRANS_TILE_CNT, R.pump_HERITAGE_TILE_CNT, R.pump_INF_OUT_CNT,
            R.pump_STATUS_RETRYING, R.pump_LAST_DONE_RETRIED]) (fs := [R.pump_STATUS_BUSY, R.pump_LAST_DONE_RETRIED]) (by decide) a h⟩
        · exact absurd he h
      case crofts => exact fun _ h => h
      case pumps => exact fun _ h => h
      all_goals simp [pumpDoneTouch, tileTouch]

end

/-! ### The conversion ends -/

/-- An overflow event: the tile is converted again. -/
def tileAgain (g : Nat) (tc : TileConv) (k : Conv) : Prog := .all [
  keepRng (g / 4) k.rng, bump (pgPump g) R.pump_RETRY_CNT, setFld (pgPump g) R.pump_STATUS_RETRYING 1,
  modPump g (fun r => { r with conv := some { tc with retry := true } })]

theorem tileAgain_run (hr : s.pumpRun g = some r) (tc : TileConv) (k : Conv) :
    let t := (tileAgain g tc k).run s
    Counts s t (pgPump g) R.pump_RETRY_CNT 1 ∧ t.bit (pgPump g) R.pump_STATUS_RETRYING = true ∧
    t.pumpRun g = some { r with conv := some { tc with retry := true } } ∧
    Keeps { regs := theRegs (pgPump g) [R.pump_RETRY_CNT, R.pump_STATUS_RETRYING], crofts := (· = g / 4), pumps := (· = g), seq := True } s t := by
  dsimp only
  rw [tileAgain, Prog.run_all_cons, Prog.run_all_cons, Prog.run_all_cons, Prog.run_all_cons, Prog.run_all_nil]
  have hk1 := (keepRng_run (g / 4) k.rng s).2
  generalize (keepRng (g / 4) k.rng).run s = u at *
  have hcnt : Counts u ((setFld (pgPump g) R.pump_STATUS_RETRYING 1).run ((bump (pgPump g) R.pump_RETRY_CNT).run u)) (pgPump g) R.pump_RETRY_CNT 1 := by
    simp -implicitDefEqProofs [Counts]
  have hbit : ((setFld (pgPump g) R.pump_STATUS_RETRYING 1).run ((bump (pgPump g) R.pump_RETRY_CNT).run u)).bit (pgPump g) R.pump_STATUS_RETRYING = true := by
    simp -implicitDefEqProofs [State.bit]
  have hk2 : Keeps { regs := theRegs (pgPump g) [R.pump_RETRY_CNT, R.pump_STATUS_RETRYING] } u
      ((setFld (pgPump g) R.pump_STATUS_RETRYING 1).run ((bump (pgPump g) R.pump_RETRY_CNT).run u)) :=
    (Prog.keeps (by simp) u).trans (Prog.keeps (by simp) _)
  generalize (setFld (pgPump g) R.pump_STATUS_RETRYING 1).run ((bump (pgPump g) R.pump_RETRY_CNT).run u) = v at *
  have hv : v.pumpRun g = some r := by rw [hk2.pumps g id, hk1.pumps g id, hr]
  have hself := modPump_self hv (fun r => { r with conv := some { tc with retry := true } })
  have hk3 : Keeps { pumps := (· = g) } v ((modPump g (fun r => { r with conv := some { tc with retry := true } })).run v) :=
    Prog.keeps (modPump_allows rfl _) v
  generalize (modPump g (fun r => { r with conv := some { tc with retry := true } })).run v = t at *
  refine ⟨?_, (hk3.bit_eq id).trans hbit, hself, ((hk1.mono ?_).trans (hk2.mono ?_)).trans (hk3.mono ?_)⟩
  · rw [Counts, hk3.reg_eq id, hcnt, hk1.reg_eq id]
  all_goals constructor <;> simp

section
variable {p : PumpId} (hrun : s.clockRuns (p.val / 4) = true) (hr : s.pumpRun p.val = some r) (hc : r.conv = some tc)
  (hreset : s.underReset (pgPump p.val) = false)
include hrun hr hc hreset

theorem exec_conversionEnd (he : r.epi = 0) (hretry : tc.retry = false) : exec (.pumpConversionEnd p) s = .next (
    (let w := s.pumpOut (p.val / 4) r
     let k := s.pumpConv p.val r tc w r.scale
     if k.ovf && w.smode == 1 && !s.bit (pgPump p.val) R.pump_PUMPCFG_OVF_POLICY then tileAgain p.val tc k
     else pumpWrite p.val r tc w k (s.peelsBefore (p.val / 4) w (decide (tc.row = 0 ∧ tc.col = 0))) false).run
    ((modPump p.val (fun r => { r with amax := amaxOf r.amax (tileVals tc.sums) })).run s)) := by
  show execPumpConversionEnd p s = _
  rw [execPumpConversionEnd, Prog.next_eq, Prog.run_get]
  dsimp only
  rw [hr]
  dsimp only
  rw [hc]
  dsimp only
  rw [if_neg (by simp [hretry, he, hrun, hreset]), Prog.run_all_cons, Prog.run_all_cons, Prog.run_all_nil]
  rfl

theorem exec_retryEnd (hretry : tc.retry = true) : exec (.pumpRetryEnd p) s = .next (
    (let w := s.pumpOut (p.val / 4) r
     pumpWrite p.val r tc w (s.pumpConv p.val r tc w (raisedScale r.scale)) 0 true).run s) := by
  show execPumpRetryEnd p s = _
  rw [execPumpRetryEnd, Prog.next_eq, Prog.run_get]
  dsimp only
  rw [hr]
  dsimp only
  rw [hc]
  dsimp only
  rw [if_neg (by simp [hretry, hrun, hreset])]

end

/-- The conversion ends of a pump without epilogue. -/
theorem pumpTiles_written {p : PumpId} (hi : s.intact = true) (hrun : s.clockRuns (p.val / 4) = true) (hr : s.pumpRun p.val = some r)
    (hc : r.conv = some tc) (hreset : s.underReset (pgPump p.val) = false) (he : r.epi = 0) :
    let c := p.val / 4
    let w := s.pumpOut c r
    let k := s.pumpConv p.val r tc w r.scale
    let k2 := s.pumpConv p.val r tc w (raisedScale r.scale)
    let retries := k.ovf = true ∧ w.smode = 1 ∧ s.bit (pgPump p.val) R.pump_PUMPCFG_OVF_POLICY = false
    (tc.retry = false → retries → Leaves (exec (.pumpConversionEnd p) s) (fun t =>
      Counts s t (pgPump p.val) R.pump_RETRY_CNT 1 ∧ t.bit (pgPump p.val) R.pump_STATUS_RETRYING = true ∧
      t.pumpRun p.val = some { r with amax := amaxOf r.amax (tileVals tc.sums), conv := some { tc with retry := true } } ∧
      Keeps { regs := theRegs (pgPump p.val) [R.pump_RETRY_CNT, R.pump_STATUS_RETRYING], crofts := (· = c), pumps := (· = p.val),
              seq := True } s t)) ∧
    (tc.retry = false → ¬ retries → Leaves (exec (.pumpConversionEnd p) s) (fun t =>
      TileWritten s t p.val r tc k (s.peelsBefore c w (decide (tc.row = 0 ∧ tc.col = 0))) false (amaxOf r.amax (tileVals tc.sums)) ∧
      (k.ovf = false → k.causes.all (· == 0) = true → Keeps (tileTouch p.val) s t))) ∧
    (tc.retry = true → Leaves (exec (.pumpRetryEnd p) s) (fun t =>
      TileWritten s t p.val r tc k2 0 true r.amax ∧
      (k2.ovf = false → k2.causes.all (· == 0) = true → Keeps (tileTouch p.val) s t))) := by
  have hmod := modPump_self hr (fun r => { r with amax := amaxOf r.amax (tileVals tc.sums) })
  have hk : Keeps { pumps := (· = p.val) } s ((modPump p.val (fun r => { r with amax := amaxOf r.amax (tileVals tc.sums) })).run s) :=
    Prog.keeps (modPump_allows rfl _) s
  refine ⟨fun hretry ⟨hovf, hmode, hpol⟩ => ?_, fun hretry hno => ?_, fun hretry => ?_⟩
  · rw [exec_conversionEnd hrun hr hc hreset he hretry]
    refine Leaves.of_next ?_
    dsimp only
    rw [if_pos (by rw [hovf, hmode, hpol]; rfl)]
    generalize (modPump p.val (fun r => { r with amax := amaxOf r.amax (tileVals tc.sums) })).run s = u at *
    obtain ⟨hcnt, hbit, hself, hk'⟩ := tileAgain_run hmod tc (s.pumpConv p.val r tc (s.pumpOut (p.val / 4) r) r.scale)
    refine ⟨?_, hbit, hself, (hk.mono ?_).trans hk'⟩
    · rw [Counts, hcnt, hk.reg_eq id]
    · constructor <;> simp
  · rw [exec_conversionEnd hrun hr hc hreset he hretry]
    refine Leaves.of_next ?_
    dsimp only
    rw [if_neg fun h => by
      simp only [Bool.and_eq_true, beq_iff_eq, Bool.not_eq_true', and_assoc] at h
      exact hno h]
    exact pumpWrite_run hi hk hmod he _ _ false
  · rw [exec_retryEnd hrun hr hc hreset hretry]
    exact Leaves.of_next (pumpWrite_run hi (Keeps.refl _ s) hr he _ _ true)

end Sys2Proof.Machine
end

open Host
section
/-! SUPPORT. What an epilogue reads, and programs that leave it as it is (R36, R43, R166, R171, R172, R197). -/
namespace Sys2Proof.Machine

variable {s t u : State} {g : Nat}

/-- Two states agree on what a conversion of the croft's mill reads, and memory holds its code words in both. -/
structure SameConv (c : Nat) (s t : State) : Prop where
  byte : ∀ x, t.byte x = s.byte x
  rng : t.rng c = s.rng c
  mode : t.convMode c = s.convMode c
  policy : t.bit (pgMill c) R.mill_MILLCFG_OVF_POLICY = s.bit (pgMill c) R.mill_MILLCFG_OVF_POLICY
  intact : s.intact = true ∧ t.intact = true

/-- They also agree on the run of pump `g`. -/
structure SameEpi (g : Nat) (s t : State) : Prop extends SameConv (g / 4) s t where
  run : t.pumpRun g = s.pumpRun g

theorem SameConv.refl {c : Nat} (hi : s.intact = true) : SameConv c s s := ⟨fun _ => rfl, rfl, rfl, rfl, hi, hi⟩
theorem SameConv.symm {c : Nat} (h : SameConv c s t) : SameConv c t s :=
  ⟨fun x => (h.byte x).symm, h.rng.symm, h.mode.symm, h.policy.symm, h.intact.2, h.intact.1⟩
theorem SameConv.trans {c : Nat} (h : SameConv c s t) (h' : SameConv c t u) : SameConv c s u :=
  ⟨fun x => (h'.byte x).trans (h.byte x), h'.rng.trans h.rng, h'.mode.trans h.mode, h'.policy.trans h.policy, h.intact.1, h'.intact.2⟩
theorem SameEpi.refl (hi : s.intact = true) : SameEpi g s s := ⟨SameConv.refl hi, rfl⟩
theorem SameEpi.symm (h : SameEpi g s t) : SameEpi g t s := ⟨h.toSameConv.symm, h.run.symm⟩
theorem SameEpi.trans (h : SameEpi g s t) (h' : SameEpi g t u) : SameEpi g s u := ⟨h.toSameConv.trans h'.toSameConv, h'.run.trans h.run⟩

theorem SameConv.her {c : Nat} (h : SameConv c s t) : t.bit pgNum R.numstep_CFG_HERITAGE = s.bit pgNum R.numstep_CFG_HERITAGE :=
  congrArg ConvMode.heritage h.mode

theorem SameConv.sl {c : Nat} (h : SameConv c s t) (k o n : Nat) : t.sl k o n = s.sl k o n := State.sl_of_bytes h.byte k o n

theorem SameConv.elem {c : Nat} (h : SameConv c s t) (k : Nat) (her : Bool) (x : TRef) (len i j : Nat) : t.elem k her x len i j = s.elem k her x len i j := by
  simp only [State.elem, State.elemCode, State.scaleByte, h.sl]

theorem SameConv.peelsBefore {c : Nat} (h : SameConv c s t) (k : Nat) (x : TRef) (first : Bool) : t.peelsBefore k x first = s.peelsBefore k x first := by
  simp only [State.peelsBefore, h.sl]

theorem SameConv.peelCap {c : Nat} (h : SameConv c s t) (k : Nat) (x : TRef) : t.peelCap k x = s.peelCap k x := by
  simp only [State.peelCap, h.sl]

theorem SameConv.epiConv {c : Nat} (h : SameConv c s t) {r q : PumpRun} (hw : q.wrote = r.wrote) (hs : q.scale = r.scale) (ha : q.args = r.args) (w : TRef)
    (row0 col0 cols : Nat) (vals : List Val) : t.epiConv c q w row0 col0 cols vals = s.epiConv c r w row0 col0 cols vals := by
  simp only [State.epiConv, h.peelsBefore, h.peelCap, h.mode, h.rng, h.policy, hw, hs, ha]

theorem SameConv.epiRows {c : Nat} (h : SameConv c s t) (r : PumpRun) (tc : TileConv) : t.epiRows r tc = s.epiRows r tc := by
  simp only [State.epiRows, h.her]

theorem SameConv.smaxBwd {c : Nat} (h : SameConv c s t) (k : Nat) (r : PumpRun) (her : Bool) (row0 col0 : Nat) (rows : List (List Val)) :
    t.smaxBwd k r her row0 col0 rows = s.smaxBwd k r her row0 col0 rows := by
  simp only [State.smaxBwd, h.elem]

theorem SameConv.stripElem {c : Nat} (h : SameConv c s t) (k : Nat) (r : PumpRun) (her : Bool) (i : Nat) : t.stripElem k r her i = s.stripElem k r her i := by
  simp only [State.stripElem, h.sl]

/-! ### Programs beside the epilogue's data -/

/-- The registers that conversions read, and those that count an epilogue's tiles. -/
def epiGuards (g : Nat) : List (Page × Nat) := [
  (pgCroft (g / 4), R.croft_NUMCFG_RNG_MODE.off), (pgNum, R.numstep_CFG_HERITAGE.off), (pgMill (g / 4), R.mill_MILLCFG_OVF_POLICY.off),
  (pgMill (g / 4), R.mill_EPI_TILE_CNT.off), (pgPump g, R.pump_FUSED_TILE_CNT.off), (pgPump g, R.pump_TRANS_TILE_CNT.off),
  (pgPump g, R.pump_HERITAGE_TILE_CNT.off)]

/-- All but those registers, memory and pumps; and the same with memory, the pump and the draws of the generators. -/
def quietTouch (g : Nat) : Touch where
  regs a := ∀ x ∈ epiGuards g, a ≠ x.1.base + x.2
  crofts := fun _ => True
  links := fun _ => True
  dev := True
def epiTouch (g : Nat) : Touch := { quietTouch g with mem := fun _ => True, pumps := (· = g), seq := True }

theorem onReg_quiet {q : Page} (hq : q.placed) {o : Nat} (ho : o < 0x1000) (h : ∀ x ∈ epiGuards g, q.kind ≠ x.1.kind ∨ o ≠ x.2) :
    onReg (quietTouch g).regs q o := by
  intro x hx
  have hoff : x.2 < 0x1000 ∧ x.1.placed := by
    revert x
    simp [epiGuards]
  refine apart_ne ⟨ho, hoff.1, ?_⟩
  rcases h x hx with hk | hk
  · exact .inr ⟨.inl hk, hq, hoff.2⟩
  · exact .inl hk

theorem not_quiet {x : Page × Nat} (hx : x ∈ epiGuards g) : ¬ (quietTouch g).regs (x.1.base + x.2) := fun h => h x hx rfl

theorem Keeps.toEpi (h : Keeps (quietTouch g) s t) : Keeps (epiTouch g) s t := by
  refine h.mono ?_
  constructor
  case regs => exact fun _ h => h
  all_goals simp [quietTouch, epiTouch]

/-- The program leaves what conversions read, and the orders of the croft, as they are. -/
structure Prog.quietEpi (g : Nat) (p : Prog) : Prop where
  only : p.Only (quietTouch g).allows
  units : ∀ k, p.Safe (unitsAre (g / 4) k)
  orders : ∀ l, p.Safe (ordersAre (g / 4) l)
  intact : ∀ d, p.Safe (looks Device.intact d)

theorem State.rng_congr {c : Nat} (hu : (t.croft c).units = (s.croft c).units) (hm : t.bit (pgCroft c) R.croft_NUMCFG_RNG_MODE =
    s.bit (pgCroft c) R.croft_NUMCFG_RNG_MODE) (hs : t.seq = s.seq) : t.rng c = s.rng c := by
  have h1 := congrArg Croft.lanes hu
  have h2 := congrArg Croft.laneSeed hu
  have h3 := congrArg Croft.laneRan hu
  simp only [Croft.units] at h1 h2 h3
  rw [State.rng, State.rng, h1, h2, h3, hm, hs]

theorem Prog.quietEpi.same {p : Prog} (h : p.quietEpi g) (hi : s.intact = true) : SameEpi g s (p.run s) := by
  have hk := Prog.keeps h.only s
  have hbit {f : Fld} (q : Page) (hx : (q, f.off) ∈ epiGuards g) : (p.run s).bit q f = s.bit q f := hk.bit_eq (not_quiet hx)
  refine ⟨⟨fun x => hk.mem x id, State.rng_congr (units_run h.units s) (hbit _ (by simp [epiGuards])) (hk.seq id), ?_,
    hbit _ (by simp [epiGuards]), hi, intact_of_looks h.intact hi⟩, hk.pumps g id⟩
  rw [State.convMode, State.convMode, hbit (pgCroft (g / 4)) (by simp [epiGuards]), hbit pgNum (by simp [epiGuards])]

/-! ### What an epilogue's work leaves -/

/-- Two records of one order's run, at one tile. -/
structure RunCore (r q : PumpRun) : Prop where
  args : q.args = r.args
  serial : q.serial = r.serial
  idx : q.idx = r.idx
  shape : q.shape = r.shape
  epi : q.epi = r.epi
  bnd : q.bnd = r.bnd
  tile : q.tile = r.tile

/-- Work on an epilogue of pump `g` has gone on: the run is of the same order, the croft's orders stand. -/
structure EpiGoes (g : Nat) (s t : State) : Prop where
  run : ∀ r, s.pumpRun g = some r → ∃ q, t.pumpRun g = some q ∧ RunCore r q
  orders : (t.reeve (g / 4)).orders = (s.reeve (g / 4)).orders
  intact : t.intact = true
  keeps : Keeps (epiTouch g) s t

theorem RunCore.refl (r : PumpRun) : RunCore r r := ⟨rfl, rfl, rfl, rfl, rfl, rfl, rfl⟩
theorem RunCore.trans {r q v : PumpRun} (h : RunCore r q) (h' : RunCore q v) : RunCore r v :=
  ⟨h'.args.trans h.args, h'.serial.trans h.serial, h'.idx.trans h.idx, h'.shape.trans h.shape, h'.epi.trans h.epi, h'.bnd.trans h.bnd, h'.tile.trans h.tile⟩

theorem EpiGoes.refl (hi : s.intact = true) : EpiGoes g s s := ⟨fun r h => ⟨r, h, RunCore.refl r⟩, rfl, hi, Keeps.refl _ s⟩
theorem EpiGoes.trans (h : EpiGoes g s t) (h' : EpiGoes g t u) : EpiGoes g s u := by
  refine ⟨fun r hr => ?_, h'.orders.trans h.orders, h'.intact, h.keeps.trans h'.keeps⟩
  obtain ⟨q, hq, hrq⟩ := h.run r hr
  obtain ⟨v, hv, hqv⟩ := h'.run q hq
  exact ⟨v, hv, hrq.trans hqv⟩

theorem Prog.quietEpi.goes {p : Prog} (h : p.quietEpi g) (hi : s.intact = true) : EpiGoes g s (p.run s) := by
  have hk := Prog.keeps h.only s
  refine ⟨fun r hr => ⟨r, (hk.pumps g id).trans hr, RunCore.refl r⟩, orders_run h.orders s, intact_of_looks h.intact hi, hk.toEpi⟩

theorem Prog.writesBytes.epiSame {p : Prog} (h : p.writesBytes) (hst : SameEpi g s t) : SameEpi g (p.run s) (p.run t) := by
  have hks := h.keeps s hst.intact.1
  have hkt := h.keeps t hst.intact.2
  refine ⟨⟨h.same s t hst.intact.1 hst.intact.2 hst.byte, ?_, ?_, ?_, h.intact hst.intact.1, h.intact hst.intact.2⟩, ?_⟩
  · rw [State.rng_congr (congrArg Croft.units (hkt.crofts _ id)) (hkt.bit_eq id) (hkt.seq id),
      State.rng_congr (congrArg Croft.units (hks.crofts _ id)) (hks.bit_eq id) (hks.seq id), hst.rng]
  · rw [State.convMode, State.convMode, hkt.bit_eq id, hkt.bit_eq id, hks.bit_eq id, hks.bit_eq id]
    exact hst.mode
  · rw [hkt.bit_eq id, hks.bit_eq id, hst.policy]
  · rw [hkt.pumps g id, hks.pumps g id, hst.run]

theorem Prog.writesBytes.epiGoes {p : Prog} (h : p.writesBytes) (hi : s.intact = true) : EpiGoes g s (p.run s) := by
  have hk := h.keeps s hi
  refine ⟨fun r hr => ⟨r, (hk.pumps g id).trans hr, RunCore.refl r⟩, by rw [State.reeve_eq, State.reeve_eq, hk.crofts _ id], h.intact hi, hk.mono ?_⟩
  constructor <;> simp [epiTouch]

/-! ### The pieces of the epilogue's work -/

@[simp] theorem quietTouch_crofts (j : Nat) : (quietTouch g).crofts j := trivial
@[simp] theorem quietTouch_links (j : Nat) : (quietTouch g).links j := trivial
@[simp] theorem quietTouch_dev : (quietTouch g).dev := trivial

theorem quiet_croft (j : Nat) {o : Nat} (ho : o < 0x1000) (h : o ≠ R.croft_NUMCFG_RNG_MODE.off) : onReg (quietTouch g).regs (pgCroft j) o :=
  onReg_quiet (by simp) ho (by simp [epiGuards, h])

theorem quiet_num {o : Nat} (ho : o < 0x1000) (h : o ≠ R.numstep_CFG_HERITAGE.off) : onReg (quietTouch g).regs pgNum o :=
  onReg_quiet (by simp) ho (by simp [epiGuards, h])

theorem quiet_reeve (j : Nat) {o : Nat} (ho : o < 0x1000) : onReg (quietTouch g).regs (pgReeve j) o :=
  onReg_quiet (by simp) ho (by simp [epiGuards])

theorem quiet_mill (j : Nat) {o : Nat} (ho : o < 0x1000) (h : o ≠ R.mill_MILLCFG_OVF_POLICY.off ∧ o ≠ R.mill_EPI_TILE_CNT.off) :
    onReg (quietTouch g).regs (pgMill j) o := onReg_quiet (by simp) ho (by simp [epiGuards, h])

theorem quiet_pump (j : Nat) {o : Nat} (ho : o < 0x1000)
    (h : o ≠ R.pump_FUSED_TILE_CNT.off ∧ o ≠ R.pump_TRANS_TILE_CNT.off ∧ o ≠ R.pump_HERITAGE_TILE_CNT.off) :
    onReg (quietTouch g).regs (pgPump j) o := onReg_quiet (by simp) ho (by simp [epiGuards, h])

theorem trap_quiet (j cause : Nat) (x : TrapAt) : (trap j cause x).quietEpi g := by
  refine ⟨?_, fun k => trap_units (g / 4) k j cause x, fun l => trap_orders (g / 4) l j cause x, (trap_aside (g / 4) j cause x).intact⟩
  intro s
  simp only [Prog.only_all_cons, Prog.only_all_nil, and_true, bump_allows, raiseLine_allows, Prog.only_when, haltReq_allows]
  refine ⟨quiet_croft j (by decide) (by decide), iteInduction (motive := Prog.Only _) (fun _ => ?_) fun _ => ?_, quiet_croft j (by decide) (by decide),
    fun _ => ⟨quiet_reeve j (by decide), trivial⟩⟩
  · exact (setFld_allows ..).2 (quiet_croft j (by decide) (by decide))
  · simp [latchBell, quiet_croft]

theorem reportOvf_quiet (j layer : Nat) (b : Bool) (o : Option Nat) : (reportOvf j layer b o).quietEpi g := by
  refine ⟨?_, fun k => reportOvf_units (g / 4) k j layer b o, fun l => reportOvf_orders (g / 4) l j layer b o, (reportOvf_aside (g / 4) j layer b o).intact⟩
  simp only [reportOvf, fallBack, Prog.only_all_cons, Prog.only_all_nil, and_true, modReeve_allows, bump_allows, modDev_allows, Prog.only_get,
    setFld_allows, tellWatch_allows]
  refine ⟨trivial, quiet_num (by decide) (by decide), trivial, fun _ => quiet_num (by decide) (by decide), quiet_num (by decide) (by decide),
    quiet_num (by decide) (by decide), quiet_num (by decide) (by decide), quiet_num (by decide) (by decide), trivial,
    fun s => iteInduction (motive := Prog.Only _) (fun _ => trivial) fun _ => iteInduction (motive := Prog.Only _) (fun _ => ?_) fun _ => ?_⟩
  · simp [repeatExceeded, haltAll, raiseAlarm, flood, quiet_num, quiet_reeve]
  · simp [abandon, abandonHere, haltAll, countHalted, raiseAlarm, flood, Prog.only_when, quiet_num, quiet_reeve]


/-- A program that changes registers alone, and none of those. -/
theorem Prog.quietEpi_regs {p : Prog} (h : p.Only (Touch.allows { regs := fun _ => True })) (hq : p.Only (quietTouch g).allows) : p.quietEpi g :=
  ⟨hq, fun _ => Prog.units_of_only h id, fun _ => Prog.orders_of_only h id, fun _ => Prog.looks_of_only h id⟩

theorem countConv_quiet (k : Conv) : (countConv (g / 4) k).quietEpi g :=
  Prog.quietEpi_regs (by simp [countConv, onReg]) (by simp [countConv, quiet_croft])

theorem eff_seq_same (h : SameEpi g s t) : SameEpi g ((eff .seq).run s) ((eff .seq).run t) := by
  have hseq (u : State) : ((eff .seq).run u).rng (g / 4) = { u.rng (g / 4) with free := (u.rng (g / 4)).free + 1 } := rfl
  exact ⟨⟨h.byte, by rw [hseq, hseq, h.rng], h.mode, h.policy, h.intact⟩, h.run⟩

theorem each_seq_run {α : Type} (l : List α) (s : State) : (Prog.each l fun _ => eff .seq).run s = { s with seq := s.seq + l.length } := by
  induction l generalizing s with
  | nil => rfl
  | cons x l ih =>
    rw [Prog.run_each_cons, ih]
    show ({ s with seq := s.seq + 1 + l.length } : State) = _
    rw [List.length_cons, Nat.add_assoc, Nat.add_comm 1]

theorem keepRng_rng (c : Nat) (x : Rng) (s : State) : ((keepRng c x).run s).rng c = { s.rng c with
    lanes := x.lanes, free := (s.rng c).free + (x.free - (s.rng c).free) } := by
  rw [keepRng, Prog.run_get, Prog.run_all_cons, Prog.run_all_cons, Prog.run_all_nil, each_seq_run, List.length_range]
  have hself := modCroft_run_self c (fun k => { k with lanes := x.lanes }) s
  have hk : Keeps { crofts := (· = c) } s ((modCroft c (fun k => { k with lanes := x.lanes })).run s) := Prog.keeps (by simp) s
  generalize (modCroft c (fun k => { k with lanes := x.lanes })).run s = u at *
  show ({ u.rng c with free := u.seq + (x.free - s.seq) } : Rng) = _
  rw [State.rng, State.rng, hself, hk.bit_eq id, hk.seq id]

theorem keepRng_same (x : Rng) (h : SameEpi g s t) : SameEpi g ((keepRng (g / 4) x).run s) ((keepRng (g / 4) x).run t) := by
  have hk (u : State) := (keepRng_run (g / 4) x u).2
  refine ⟨⟨fun a => ?_, by rw [keepRng_rng, keepRng_rng, h.rng], ?_, ?_, intact_of_keeps (hk s) id h.intact.1, intact_of_keeps (hk t) id h.intact.2⟩, ?_⟩
  · rw [(hk t).mem a id, (hk s).mem a id, h.byte]
  · rw [State.convMode, State.convMode, (hk t).bit_eq id, (hk t).bit_eq id, (hk s).bit_eq id, (hk s).bit_eq id]
    exact h.mode
  · rw [(hk t).bit_eq id, (hk s).bit_eq id, h.policy]
  · rw [(hk t).pumps g id, (hk s).pumps g id, h.run]

theorem keepRng_goes (x : Rng) (hi : s.intact = true) : EpiGoes g s ((keepRng (g / 4) x).run s) := by
  have hk := (keepRng_run (g / 4) x s).2
  refine ⟨fun r hr => ⟨r, (hk.pumps g id).trans hr, RunCore.refl r⟩, orders_run (fun l => keepRng_orders (g / 4) l (g / 4) x) s, intact_of_keeps hk id hi,
    hk.mono ?_⟩
  constructor <;> simp [epiTouch]

theorem modPump_same (f : PumpRun → PumpRun) (h : SameEpi g s t) : SameEpi g ((modPump g f).run s) ((modPump g f).run t) := by
  have hk (u : State) : Keeps { pumps := (· = g) } u ((modPump g f).run u) := Prog.keeps (modPump_allows rfl f) u
  have hrng (u : State) : ((modPump g f).run u).rng (g / 4) = u.rng (g / 4) :=
    State.rng_congr (congrArg Croft.units ((hk u).crofts _ id)) ((hk u).bit_eq id) ((hk u).seq id)
  refine ⟨⟨fun a => ?_, by rw [hrng, hrng, h.rng], ?_, ?_, intact_of_keeps (hk s) id h.intact.1, intact_of_keeps (hk t) id h.intact.2⟩, ?_⟩
  · rw [(hk t).mem a id, (hk s).mem a id, h.byte]
  · rw [State.convMode, State.convMode, (hk t).bit_eq id, (hk t).bit_eq id, (hk s).bit_eq id, (hk s).bit_eq id]
    exact h.mode
  · rw [(hk t).bit_eq id, (hk s).bit_eq id, h.policy]
  · cases hr : s.pumpRun g with
    | none =>
      have ht : t.pumpRun g = none := h.run.trans hr
      have hnone {u : State} (hu : u.pumpRun g = none) : (modPump g f).run u = u := by
        rw [modPump, Prog.run_get, hu]
        rfl
      rw [hnone hr, hnone ht, hr, ht]
    | some r => rw [modPump_self hr, modPump_self (h.run.trans hr)]

theorem modPump_goes {f : PumpRun → PumpRun} (hf : ∀ r, RunCore r (f r)) (hi : s.intact = true) : EpiGoes g s ((modPump g f).run s) := by
  have hk : Keeps { pumps := (· = g) } s ((modPump g f).run s) := Prog.keeps (modPump_allows rfl f) s
  refine ⟨fun r hr => ⟨f r, modPump_self hr f, hf r⟩, by rw [State.reeve_eq, State.reeve_eq, hk.crofts _ id], intact_of_keeps hk id hi, hk.mono ?_⟩
  constructor <;> simp [epiTouch]

/-! ### Programs whose work on an epilogue follows from what it reads -/

/-- From states that agree on what an epilogue reads the program leads to such states, and the epilogue's order goes on. -/
structure Prog.epiPiece (g : Nat) (p : Prog) : Prop where
  same : ∀ s t, SameEpi g s t → SameEpi g (p.run s) (p.run t)
  goes : ∀ s : State, s.intact = true → EpiGoes g s (p.run s)

theorem Prog.epiPiece_done : Prog.done.epiPiece g := ⟨fun _ _ h => h, fun _ hi => EpiGoes.refl hi⟩

theorem Prog.quietEpi.piece {p : Prog} (h : p.quietEpi g) : p.epiPiece g :=
  ⟨fun _ _ hst => ((h.same hst.intact.1).symm.trans hst).trans (h.same hst.intact.2), fun _ hi => h.goes hi⟩

theorem Prog.writesBytes.piece {p : Prog} (h : p.writesBytes) : p.epiPiece g := ⟨fun _ _ => h.epiSame, fun _ => h.epiGoes⟩

theorem Prog.epiPiece_all {ps : List Prog} (h : ∀ p ∈ ps, p.epiPiece g) : (Prog.all ps).epiPiece g := by
  induction ps with
  | nil => exact epiPiece_done
  | cons p ps ih =>
    obtain ⟨hp, hps⟩ := List.forall_mem_cons.1 h
    refine ⟨fun s t hst => ?_, fun s hi => ?_⟩
    · rw [Prog.run_all_cons, Prog.run_all_cons]
      exact (ih hps).same _ _ (hp.same s t hst)
    · rw [Prog.run_all_cons]
      exact (hp.goes s hi).trans ((ih hps).goes _ (hp.goes s hi).intact)

theorem Prog.epiPiece_each {α : Type} {l : List α} {f : α → Prog} (h : ∀ x ∈ l, (f x).epiPiece g) : (Prog.each l f).epiPiece g :=
  epiPiece_all (List.forall_mem_map.2 h)

theorem Prog.epiPiece_when {b : Bool} {p : Prog} (h : p.epiPiece g) : (Prog.when b p).epiPiece g := by
  cases b
  · exact epiPiece_done
  · exact h

/-- A program that reads what an epilogue reads before it acts. -/
theorem Prog.epiPiece_get {f : State → Prog} (h : ∀ s, (f s).epiPiece g) (hf : ∀ s t, SameEpi g s t → f t = f s) : (Prog.get f).epiPiece g := by
  refine ⟨fun s t hst => ?_, fun s hi => (h s).goes s hi⟩
  rw [Prog.run_get, Prog.run_get, hf s t hst]
  exact (h s).same s t hst

theorem modPump_piece {f : PumpRun → PumpRun} (hf : ∀ r, RunCore r (f r)) : (modPump g f).epiPiece g :=
  ⟨fun _ _ => modPump_same f, fun _ => modPump_goes hf⟩

theorem keepRng_piece (x : Rng) : (keepRng (g / 4) x).epiPiece g := ⟨fun _ _ => keepRng_same x, fun _ => keepRng_goes x⟩

theorem eff_seq_piece : (eff .seq).epiPiece g := by
  refine ⟨fun _ _ => eff_seq_same, fun s hi => ⟨fun r hr => ⟨r, hr, RunCore.refl r⟩, rfl, hi, ?_⟩⟩
  exact Prog.keeps (T := epiTouch g) (p := eff .seq) ((Prog.only_eff _).2 trivial) s

end Sys2Proof.Machine
end

open Host
section
/-! O24: a tile of an order with an epilogue reaches the mill (R171, R172, R178, R200, R246). -/
namespace Sys2Proof.Machine

variable {s t : State} {g : Nat} {r : PumpRun} {tc : TileConv}

/-! ### The mill writes a tile -/

/-- The run after the mill's write of a tile (R183). -/
def PumpRun.epiWrote (r : PumpRun) (vals : List Val) (again ovf inf : Bool) : PumpRun := { r with
  wrote := r.wrote + vals.length, amax := amaxOf r.amax vals, retried := r.retried || again,
  retryFail := r.retryFail || (again && ovf), ovf := r.ovf || ovf, infOut := r.infOut || inf }

/-- The mill's counts of an epilogue's overflow event, and its report. -/
def epiOvf (g layer : Nat) (rec' : Option Nat) (pol again : Bool) : Prog := .all [
  bump (pgMill (g / 4)) R.mill_OVF_CNT, Prog.when again (bump (pgMill (g / 4)) R.mill_RETRY_FAIL_CNT), reportOvf (g / 4) layer pol rec']

/-- What follows the bytes of a tile that the mill writes. -/
def epiFollows (g : Nat) (k : Conv) (again : Bool) (f : Nat × Nat → TrapAt) (layer : Nat) (rec' : Option Nat) (pol : Bool) (vals : List Val) : Prog := .all [
  .all [keepRng (g / 4) k.rng, countConv (g / 4) k], Prog.when again (bump (pgMill (g / 4)) R.mill_RETRY_CNT),
  Prog.when k.toInf (bump (pgPump g) R.pump_INF_OUT_CNT), tileTraps (g / 4) (trapPlaces k.causes) f, Prog.when k.ovf (epiOvf g layer rec' pol again),
  modPump g (fun r => r.epiWrote vals again k.ovf k.toInf)]

/-- The traps of an epilogue's tile (R57, R60). -/
def State.epiTrapAt (s : State) (g : Nat) (r : PumpRun) (w : TRef) (row0 col0 cols : Nat) (bad : Option (Nat × Nat)) (x : Nat × Nat) : TrapAt :=
  ⟨4, r.idx, row0 + x.1 / max 1 cols, col0 + x.1 % max 1 cols, (s.kPlace bad).1, (s.kPlace bad).2, (s.asRead (g / 4) r.args.a).fmt,
    (s.asRead (g / 4) r.args.b).fmt, w.fmt, w.rnd⟩

theorem epiWrite_eq (hr : s.pumpRun g = some r) (w : TRef) (row0 col0 cols : Nat) (bad : Option (Nat × Nat)) (vals : List Val) :
    (epiWrite g w row0 col0 cols bad vals).run s =
      let k := s.epiConv (g / 4) r w row0 col0 cols vals
      (epiFollows g k.1 k.2 (s.epiTrapAt g r w row0 col0 cols bad) r.layer (if w.smode = 1 then some r.args.rc else none)
        (s.bit (pgMill (g / 4)) R.mill_MILLCFG_OVF_POLICY) vals).run
      ((writeTile (byEngine 6 r.idx) (g / 4) w r.args.m r.args.n row0 col0 cols (s.peelsBefore (g / 4) w (decide (r.wrote = 0))) k.1).run s) := by
  rw [epiWrite, Prog.run_get, hr]
  simp -implicitDefEqProofs only [Prog.run_all_cons, Prog.run_all_nil, epiFollows, tileTraps, epiOvf]
  rfl

theorem epiWrite_none (hr : s.pumpRun g = none) (w : TRef) (row0 col0 cols : Nat) (bad : Option (Nat × Nat)) (vals : List Val) :
    (epiWrite g w row0 col0 cols bad vals).run s = s := by
  rw [epiWrite, Prog.run_get, hr]
  rfl

/-! ### Its pieces -/

theorem epiWrote_core (r : PumpRun) (vals : List Val) (again ovf inf : Bool) : RunCore r (r.epiWrote vals again ovf inf) :=
  ⟨rfl, rfl, rfl, rfl, rfl, rfl, rfl⟩

theorem bumpMill_quiet {f : Fld} (ho : f.off < 0x1000) (h : f.off ≠ R.mill_MILLCFG_OVF_POLICY.off ∧ f.off ≠ R.mill_EPI_TILE_CNT.off) :
    (bump (pgMill (g / 4)) f).quietEpi g :=
  Prog.quietEpi_regs ((bump_allows ..).2 trivial) ((bump_allows ..).2 (quiet_mill _ ho h))

theorem tileTraps_piece (l : List (Nat × Nat)) (f : Nat × Nat → TrapAt) : (tileTraps (g / 4) l f).epiPiece g := by
  refine Prog.epiPiece_all (List.forall_mem_cons.2 ⟨eff_seq_piece, List.forall_mem_singleton.2 (Prog.epiPiece_each fun x _ => ?_)⟩)
  exact (trap_quiet (g / 4) x.2 (f x)).piece

theorem epiOvf_piece (layer : Nat) (rec' : Option Nat) (pol again : Bool) : (epiOvf g layer rec' pol again).epiPiece g := by
  refine Prog.epiPiece_all ?_
  simp only [List.forall_mem_cons, List.not_mem_nil, false_imp_iff, implies_true, and_true]
  exact ⟨(bumpMill_quiet (by decide) (by decide)).piece, Prog.epiPiece_when (bumpMill_quiet (by decide) (by decide)).piece,
    (reportOvf_quiet (g / 4) layer pol rec').piece⟩

theorem epiFollows_piece (k : Conv) (again : Bool) (f : Nat × Nat → TrapAt) (layer : Nat) (rec' : Option Nat) (pol : Bool) (vals : List Val) :
    (epiFollows g k again f layer rec' pol vals).epiPiece g := by
  refine Prog.epiPiece_all ?_
  simp only [List.forall_mem_cons, List.not_mem_nil, false_imp_iff, implies_true, and_true]
  refine ⟨Prog.epiPiece_all (List.forall_mem_cons.2 ⟨keepRng_piece k.rng, List.forall_mem_singleton.2 (countConv_quiet k).piece⟩),
    Prog.epiPiece_when (bumpMill_quiet (by decide) (by decide)).piece, Prog.epiPiece_when (Prog.quietEpi.piece ?_), tileTraps_piece .., 
    Prog.epiPiece_when (epiOvf_piece ..), modPump_piece fun r => epiWrote_core r vals again k.ovf k.toInf⟩
  exact Prog.quietEpi_regs ((bump_allows ..).2 trivial) ((bump_allows ..).2 (quiet_pump g (by decide) (by decide)))

/-- The traps' own data change nothing an epilogue reads. -/
theorem tileTraps_same (l : List (Nat × Nat)) (f f' : Nat × Nat → TrapAt) (h : SameEpi g s t) :
    SameEpi g ((tileTraps (g / 4) l f).run s) ((tileTraps (g / 4) l f').run t) := by
  have hquiet (f : Nat × Nat → TrapAt) {u : State} (hi : u.intact = true) : SameEpi g u ((Prog.each l fun x => trap (g / 4) x.2 (f x)).run u) := by
    induction l generalizing u with
    | nil => exact SameEpi.refl hi
    | cons x l ih =>
      rw [Prog.run_each_cons]
      have hx := (trap_quiet (g := g) (g / 4) x.2 (f x)).same hi
      exact hx.trans (ih hx.intact.2)
  rw [tileTraps, tileTraps, Prog.run_all_cons, Prog.run_all_cons, Prog.run_all_cons, Prog.run_all_cons, Prog.run_all_nil, Prog.run_all_nil]
  have hseq := eff_seq_same h
  exact ((hquiet f hseq.intact.1).symm.trans hseq).trans (hquiet f' hseq.intact.2)

theorem epiFollows_same (k : Conv) (again : Bool) (f f' : Nat × Nat → TrapAt) (layer : Nat) (rec' : Option Nat) (pol : Bool) (vals : List Val)
    (h : SameEpi g s t) :
    SameEpi g ((epiFollows g k again f layer rec' pol vals).run s) ((epiFollows g k again f' layer rec' pol vals).run t) := by
  have hfirst : (Prog.all [.all [keepRng (g / 4) k.rng, countConv (g / 4) k], Prog.when again (bump (pgMill (g / 4)) R.mill_RETRY_CNT),
      Prog.when k.toInf (bump (pgPump g) R.pump_INF_OUT_CNT)]).epiPiece g := by
    refine Prog.epiPiece_all ?_
    simp only [List.forall_mem_cons, List.not_mem_nil, false_imp_iff, implies_true, and_true]
    refine ⟨Prog.epiPiece_all (List.forall_mem_cons.2 ⟨keepRng_piece k.rng, List.forall_mem_singleton.2 (countConv_quiet k).piece⟩),
      Prog.epiPiece_when (bumpMill_quiet (by decide) (by decide)).piece, Prog.epiPiece_when (Prog.quietEpi.piece ?_)⟩
    exact Prog.quietEpi_regs ((bump_allows ..).2 trivial) ((bump_allows ..).2 (quiet_pump g (by decide) (by decide)))
  have hlast : (Prog.all [Prog.when k.ovf (epiOvf g layer rec' pol again), modPump g (fun r => r.epiWrote vals again k.ovf k.toInf)]).epiPiece g :=
    Prog.epiPiece_all (List.forall_mem_cons.2 ⟨Prog.epiPiece_when (epiOvf_piece ..),
      List.forall_mem_singleton.2 (modPump_piece fun r => epiWrote_core r vals again k.ovf k.toInf)⟩)
  have h1 := hlast.same _ _ (tileTraps_same (trapPlaces k.causes) f f' (hfirst.same _ _ h))
  simp -implicitDefEqProofs only [Prog.run_all_cons, Prog.run_all_nil, epiFollows] at h1 ⊢
  exact h1

theorem epiWrite_piece (w : TRef) (row0 col0 cols : Nat) (bad : Option (Nat × Nat)) (vals : List Val) :
    (epiWrite g w row0 col0 cols bad vals).epiPiece g := by
  refine ⟨fun s t h => ?_, fun s hi => ?_⟩
  · cases hr : s.pumpRun g with
    | none =>
      rw [epiWrite_none hr, epiWrite_none (h.run.trans hr)]
      exact h
    | some r =>
      rw [epiWrite_eq hr, epiWrite_eq (h.run.trans hr), h.epiConv rfl rfl rfl, h.peelsBefore, h.policy]
      exact epiFollows_same _ _ _ _ _ _ _ _ ((writeTile_writesBytes ..).epiSame h)
  · cases hr : s.pumpRun g with
    | none =>
      rw [epiWrite_none hr]
      exact EpiGoes.refl hi
    | some r =>
      rw [epiWrite_eq hr]
      have h1 := (writeTile_writesBytes (byEngine 6 r.idx) (g / 4) w r.args.m r.args.n row0 col0 cols (s.peelsBefore (g / 4) w (decide (r.wrote = 0)))
        (s.epiConv (g / 4) r w row0 col0 cols vals).1).epiGoes (g := g) hi
      exact h1.trans ((epiFollows_piece ..).goes _ h1.intact)

theorem epiNanIn_piece (nan : Bool) : (epiNanIn g nan).epiPiece g := by
  refine Prog.epiPiece_get (fun s => ?_) fun s t h => by simp only [h.run]
  split
  · exact Prog.epiPiece_done
  · refine Prog.epiPiece_all (List.forall_mem_cons.2 ⟨Prog.quietEpi.piece ?_, List.forall_mem_singleton.2 (modPump_piece fun r => ⟨rfl, rfl, rfl, rfl, rfl, rfl, rfl⟩)⟩)
    exact Prog.quietEpi_regs (by simp [countNanIn, Prog.only_when, onReg]) (by simp [countNanIn, Prog.only_when, quiet_croft])

theorem engineReads_piece (c e idx : Nat) (rs : List (Nat × Nat)) : (engineReads c e idx rs).epiPiece g := by
  refine ⟨fun s t h => ?_, fun s hi => ?_⟩
  · rw [engineReads_run h.intact.1, engineReads_run h.intact.2]
    exact h
  · rw [engineReads_run hi]
    exact EpiGoes.refl hi

theorem stripGather_piece (r : PumpRun) (tc : TileConv) : (stripGather g r tc).epiPiece g := by
  refine Prog.epiPiece_get (fun s => ?_) fun s t h => by simp only [h.epiRows]
  exact Prog.epiPiece_all (List.forall_mem_cons.2 ⟨Prog.epiPiece_each fun _ _ => (store_writesBytes ..).piece,
    List.forall_mem_singleton.2 (modPump_piece fun r => ⟨rfl, rfl, rfl, rfl, rfl, rfl, rfl⟩)⟩)

theorem epiStrip_piece (w : TRef) (row : Nat) : (epiStrip g w row).epiPiece g := by
  refine Prog.epiPiece_get (fun s => ?_) fun s t h => by simp only [h.run, h.her, h.elem, h.stripElem]
  split
  · exact Prog.epiPiece_done
  · refine Prog.epiPiece_all ?_
    simp only [List.forall_mem_cons, List.not_mem_nil, false_imp_iff, implies_true, and_true]
    exact ⟨epiNanIn_piece _, Prog.epiPiece_each fun _ _ => epiWrite_piece .., modPump_piece fun r => ⟨rfl, rfl, rfl, rfl, rfl, rfl, rfl⟩⟩

/-! ### The tile is counted, and the order goes on or ends -/

/-- The counts of a tile that reaches the mill. -/
def epiCounts (g : Nat) (trans her : Bool) : Prog := .all [
  bump (pgPump g) R.pump_FUSED_TILE_CNT, Prog.when trans (bump (pgPump g) R.pump_TRANS_TILE_CNT),
  Prog.when her (bump (pgPump g) R.pump_HERITAGE_TILE_CNT), bump (pgMill (g / 4)) R.mill_EPI_TILE_CNT]

/-- The tile has been counted. -/
structure EpiCounted (g : Nat) (trans her : Bool) (s t : State) : Prop where
  fused : Counts s t (pgPump g) R.pump_FUSED_TILE_CNT 1
  epi : Counts s t (pgMill (g / 4)) R.mill_EPI_TILE_CNT 1
  trans : Counts s t (pgPump g) R.pump_TRANS_TILE_CNT (oneIf trans)
  her : Counts s t (pgPump g) R.pump_HERITAGE_TILE_CNT (oneIf her)

def epiCountTouch (g : Nat) : Touch :=
  { regs := someRegs [(pgPump g, [R.pump_FUSED_TILE_CNT, R.pump_TRANS_TILE_CNT, R.pump_HERITAGE_TILE_CNT]), (pgMill (g / 4), [R.mill_EPI_TILE_CNT])] }

theorem epiCounts_run (g : Nat) (trans her : Bool) (s : State) :
    EpiCounted g trans her s ((epiCounts g trans her).run s) ∧ Keeps (epiCountTouch g) s ((epiCounts g trans her).run s) := by
  refine ⟨⟨?_, ?_, ?_, ?_⟩, Prog.keeps (by simp [epiCounts, Prog.only_when, epiCountTouch]) s⟩
  all_goals cases trans <;> cases her <;> simp -implicitDefEqProofs [epiCounts, Counts, oneIf, satAdd_zero]

theorem Keeps.sameEpi (h : Keeps (epiCountTouch g) s t) (hi : s.intact = true) : SameEpi g s t := by
  have hbit (q : Page) {f : Fld} (hf : ∀ x ∈ [(pgPump g, [R.pump_FUSED_TILE_CNT, R.pump_TRANS_TILE_CNT, R.pump_HERITAGE_TILE_CNT]),
      (pgMill (g / 4), [R.mill_EPI_TILE_CNT])], ∀ f' ∈ x.2, apart q f.off x.1 f'.off) : t.bit q f = s.bit q f := h.bit_eq (not_someRegs_apart hf)
  refine ⟨⟨fun x => h.mem x id, State.rng_congr (congrArg Croft.units (h.crofts _ id)) (hbit _ (by simp)) (h.seq id), ?_, hbit _ (by simp), hi,
    intact_of_keeps h id hi⟩, h.pumps g id⟩
  rw [State.convMode, State.convMode, hbit _ (by simp), hbit _ (by simp)]

theorem EpiCounted.after {trans her : Bool} {u : State} (h : EpiCounted g trans her s t)
    (hu : ∀ x ∈ epiGuards g, u.reg x.1 x.2 = t.reg x.1 x.2) : EpiCounted g trans her s u := by
  obtain ⟨h1, h2, h3, h4⟩ := h
  exact ⟨(hu (pgPump g, _) (by simp [epiGuards])).trans h1, (hu (pgMill (g / 4), _) (by simp [epiGuards])).trans h2,
    (hu (pgPump g, _) (by simp [epiGuards])).trans h3, (hu (pgPump g, _) (by simp [epiGuards])).trans h4⟩

/-- The converter is free, and the order ends where no tile of it is left. -/
def epiDone (g : Nat) (s : State) : Prog :=
  match s.pumpRun g with
  | some r => Prog.when (decide (r.tileRows * r.tileCols ≤ r.tile)) (pumpDone g)
  | none => .done

/-- What the end of a tile leaves of its order. -/
def epiLeft (g : Nat) (r : PumpRun) (s t : State) : Prop :=
  if r.lastTile then
    t.pumpRun g = none ∧ t.bit (pgPump g) R.pump_STATUS_BUSY = false ∧ t.bit (pgMill (g / 4)) R.mill_STATUS_EPILOGUE = false ∧
    (t.reeve (g / 4)).orders = ((s.reeve (g / 4)).ended r.serial).orders
  else (t.reeve (g / 4)).orders = (s.reeve (g / 4)).orders ∧
    ∃ r', t.pumpRun g = some r' ∧ r'.conv = none ∧ r'.tile = r.tile ∧ r'.args = r.args ∧ r'.serial = r.serial

theorem epiDone_run (he : r.epi ≠ 0) (hr : s.pumpRun g = some r) (h : EpiGoes g s t) :
    let v := (modPump g (fun r => { r with conv := none })).run t
    let u := (epiDone g v).run v
    epiLeft g r s u ∧ (∀ x ∈ epiGuards g, u.reg x.1 x.2 = s.reg x.1 x.2) ∧
    (r.lastTile = false ∨ (s.pumpOut (g / 4) r).smode ≠ 1 → ∀ x, u.byte x = t.byte x) ∧
    (∀ {f : Fld}, f.off ∉ [R.pump_STATUS_BUSY, R.pump_LAST_DONE_RETRIED].map Fld.off → f.off < 0x1000 → u.reg (pgPump g) f.off = t.reg (pgPump g) f.off) ∧
    (r.lastTile = false → Keeps { pumps := (· = g) } t u) := by
  obtain ⟨q, hq, hcore⟩ := h.run r hr
  have hv := modPump_self hq (fun r => { r with conv := none })
  have hk : Keeps { pumps := (· = g) } t ((modPump g (fun r => { r with conv := none })).run t) := Prog.keeps (modPump_allows rfl _) t
  dsimp only
  generalize (modPump g (fun r => { r with conv := none })).run t = v at *
  have hiv : v.intact = true := intact_of_keeps hk id h.intact
  have horders : (v.reeve (g / 4)).orders = (s.reeve (g / 4)).orders := by rw [State.reeve_eq, hk.crofts _ id, ← State.reeve_eq, h.orders]
  have hguard {x : Page × Nat} (hx : x ∈ epiGuards g) : v.reg x.1 x.2 = s.reg x.1 x.2 :=
    (hk.reg_eq id).trans (h.keeps.reg_eq (not_quiet hx))
  rw [epiDone, hv]
  dsimp only
  have hlt : decide (({ q with conv := none } : PumpRun).tileRows * ({ q with conv := none } : PumpRun).tileCols ≤ q.tile) = r.lastTile := by
    rw [PumpRun.lastTile, PumpRun.tileRows, PumpRun.tileCols, PumpRun.tileRows, PumpRun.tileCols, hcore.args, hcore.shape, hcore.tile]
  rw [hlt]
  cases hl : r.lastTile with
  | false =>
    rw [Prog.run_when_false]
    refine ⟨?_, fun x hx => hguard hx, fun _ x => hk.mem x id, fun _ _ => hk.reg_eq id, fun _ => hk⟩
    rw [epiLeft, hl]
    exact ⟨horders, _, hv, rfl, hcore.tile, hcore.args, hcore.serial⟩
  | true =>
    rw [Prog.run_when_true]
    obtain ⟨⟨hnone, hbusy, -, hmill, hord, -, hbyte⟩, hk'⟩ := pumpDone_run hiv hv
    generalize (pumpDone g).run v = u at *
    have hne : ({ q with conv := none } : PumpRun).epi ≠ 0 := by
      show q.epi ≠ 0
      rw [hcore.epi]
      exact he
    refine ⟨?_, fun x hx => ?_, fun hmode x => ?_, fun {f} ho h' => ?_, fun h' => (Bool.false_ne_true h'.symm).elim⟩
    · rw [epiLeft, hl]
      refine ⟨hnone, hbusy, hmill hne, ?_⟩
      rw [hord, Reeve.ended, Reeve.ended, horders, ← hcore.serial]
    · refine (hk'.reg_eq ?_).trans (hguard hx)
      have hapart : ∀ x ∈ epiGuards g, (∀ f ∈ [R.pump_STATUS_BUSY, R.pump_LAST_DONE_RETRIED], apart x.1 x.2 (pgPump g) f.off) ∧
          ∀ f ∈ [R.mill_STATUS_EPILOGUE], apart x.1 x.2 (pgMill (g / 4)) f.off := by simp [epiGuards]
      rintro (h1 | ⟨-, h1⟩)
      · exact not_theRegs_apart (hapart x hx).1 h1
      · exact not_theRegs_apart (hapart x hx).2 h1
    · have hout : v.pumpOut (g / 4) { q with conv := none } = s.pumpOut (g / 4) r := State.pumpOut_congr horders hcore.serial hcore.bnd hcore.args
      have hfalse : ((s.pumpOut (g / 4) r).smode == 1) = false := by
        rcases hmode with h | h
        · exact (Bool.false_ne_true h.symm).elim
        · simpa using h
      rw [hbyte, hout, hfalse]
      exact hk.mem x id
    · refine (hk'.reg_eq ?_).trans (hk.reg_eq id)
      rintro (h1 | ⟨-, h1⟩)
      · exact not_theRegs_offset ho _ h1
      · exact not_theRegs_apart (by simp [h']) h1

section
variable {p : PumpId} (hrun : s.clockRuns (p.val / 4) = true) (hr : s.pumpRun p.val = some r) (hc : r.conv = some tc) (he : r.epi ≠ 0)
  (hmill : (s.croft (p.val / 4)).mill = none) (hreset : s.underReset (pgMill (p.val / 4)) = false)
include hrun hr hc he hmill hreset

theorem exec_epilogueTile : exec (.epilogueTile p) s = .next (
    let u := (epiTile p.val r tc (s.pumpOut (p.val / 4) r)).run
      ((epiCounts p.val (r.args.a.trans || r.args.b.trans) (s.bit pgNum R.numstep_CFG_HERITAGE)).run s)
    let v := (modPump p.val (fun r => { r with conv := none })).run u
    (epiDone p.val v).run v) := by
  show execEpilogueTile p s = _
  rw [execEpilogueTile, Prog.next_eq, Prog.run_get]
  dsimp only
  rw [hr]
  dsimp only
  rw [hc]
  dsimp only
  rw [if_neg (by simp [he, hmill, hrun, hreset])]
  simp -implicitDefEqProofs only [Prog.run_all_cons, Prog.run_all_nil, epiCounts, Prog.run_get] <;> rfl

end

/-- The epilogue of an order: a tile, with what every tile's end leaves. -/
theorem epiTile_run (hr : s.pumpRun g = some r) (he : r.epi ≠ 0) {w : TRef} {trans her : Bool}
    (hgoes : EpiGoes g ((epiCounts g trans her).run s) ((epiTile g r tc w).run ((epiCounts g trans her).run s))) :
    let u := (epiTile g r tc w).run ((epiCounts g trans her).run s)
    let v := (modPump g (fun r => { r with conv := none })).run u
    let t := (epiDone g v).run v
    EpiCounted g trans her s t ∧ epiLeft g r s t ∧ (r.lastTile = false ∨ (s.pumpOut (g / 4) r).smode ≠ 1 → ∀ x, t.byte x = u.byte x) ∧
    (∀ {f : Fld}, f.off ∉ [R.pump_STATUS_BUSY, R.pump_LAST_DONE_RETRIED].map Fld.off → f.off < 0x1000 → t.reg (pgPump g) f.off = u.reg (pgPump g) f.off) ∧
    (r.lastTile = false → Keeps { pumps := (· = g) } u t) := by
  obtain ⟨hcounted, hk⟩ := epiCounts_run g trans her s
  dsimp only
  generalize (epiCounts g trans her).run s = s1 at *
  have hreeve : s1.reeve (g / 4) = s.reeve (g / 4) := by rw [State.reeve_eq, hk.crofts _ id, ← State.reeve_eq]
  obtain ⟨hleft, hguard, hbyte, hreg, hkeep⟩ := epiDone_run he ((hk.pumps g id).trans hr) hgoes
  rw [epiLeft, hreeve, ← epiLeft] at hleft
  rw [State.pumpOut_congr (congrArg Reeve.orders hreeve) rfl rfl rfl] at hbyte
  exact ⟨hcounted.after hguard, hleft, hbyte, hreg, hkeep⟩

/-! ### SMAX_BWD -/

theorem Keeps.sameConv {c : Nat} (h : Keeps { pumps := (· = g) } s t) (hi : s.intact = true) : SameConv c s t := by
  refine ⟨fun x => h.mem x id, State.rng_congr (congrArg Croft.units (h.crofts _ id)) (h.bit_eq id) (h.seq id), ?_, h.bit_eq id, hi, intact_of_keeps h id hi⟩
  rw [State.convMode, State.convMode, h.bit_eq id, h.bit_eq id]

theorem epiNanIn_run (hr : s.pumpRun g = some r) (hi : s.intact = true) (nan : Bool) :
    let t := (epiNanIn g nan).run s
    t.pumpRun g = some { r with nanSeen := r.nanSeen || nan } ∧ SameConv (g / 4) s t ∧ ∀ o < 0x1000, t.reg (pgPump g) o = s.reg (pgPump g) o := by
  dsimp only
  rw [epiNanIn, Prog.run_get, hr]
  dsimp only
  rw [Prog.run_all_cons, Prog.run_all_cons, Prog.run_all_nil]
  have hquiet : (countNanIn (g / 4) r.nanSeen nan).quietEpi g :=
    Prog.quietEpi_regs (by simp [countNanIn, Prog.only_when, onReg]) (by simp [countNanIn, Prog.only_when, quiet_croft])
  have hsame := hquiet.same hi
  have hk : Keeps { regs := theRegs (pgCroft (g / 4)) [R.croft_NAN_IN_CNT] } s ((countNanIn (g / 4) r.nanSeen nan).run s) :=
    Prog.keeps (by simp [countNanIn, Prog.only_when]) s
  generalize (countNanIn (g / 4) r.nanSeen nan).run s = u at *
  have hu : u.pumpRun g = some r := hsame.run.trans hr
  have hself := modPump_self hu (fun r => { r with nanSeen := r.nanSeen || nan })
  have hk' : Keeps { pumps := (· = g) } u ((modPump g (fun r => { r with nanSeen := r.nanSeen || nan })).run u) := Prog.keeps (modPump_allows rfl _) u
  exact ⟨hself, hsame.toSameConv.trans (hk'.sameConv hsame.intact.2), fun o ho =>
    (hk'.reg_eq id).trans (hk.reg_eq (not_theRegs_apart (by simp [ho])))⟩

/-- What the mill counts of a tile beside the pump's page. -/
theorem whenEpiOvf_run (g layer : Nat) (rec' : Option Nat) (pol again ovf : Bool) (s : State) :
    let t := (Prog.when ovf (epiOvf g layer rec' pol again)).run s
    (∀ x, t.byte x = s.byte x) ∧ ∀ o < 0x1000, t.reg (pgPump g) o = s.reg (pgPump g) o := by
  cases ovf with
  | false => exact ⟨fun _ => rfl, fun _ _ => rfl⟩
  | true =>
    dsimp only
    rw [Prog.run_when_true, epiOvf, Prog.run_all_cons, Prog.run_all_cons, Prog.run_all_cons, Prog.run_all_nil]
    have hk : Keeps { regs := theRegs (pgMill (g / 4)) [R.mill_OVF_CNT, R.mill_RETRY_FAIL_CNT] } s
        ((Prog.when again (bump (pgMill (g / 4)) R.mill_RETRY_FAIL_CNT)).run ((bump (pgMill (g / 4)) R.mill_OVF_CNT).run s)) :=
      (Prog.keeps (by simp) s).trans (Prog.keeps (by simp [Prog.only_when]) _)
    generalize (Prog.when again (bump (pgMill (g / 4)) R.mill_RETRY_FAIL_CNT)).run ((bump (pgMill (g / 4)) R.mill_OVF_CNT).run s) = u at *
    have hrep := (reportOvf_aside (g / 4) (g / 4) layer pol rec').run u
    exact ⟨fun x => (hrep.keeps.mem x id).trans (hk.mem x id), fun o ho =>
      (hrep.reg (.inl rfl) ho).trans (hk.reg_eq (not_theRegs_apart (by simp [ho])))⟩

theorem whenInf_run (g : Nat) (inf : Bool) (s : State) :
    let t := (Prog.when inf (bump (pgPump g) R.pump_INF_OUT_CNT)).run s
    (∀ x, t.byte x = s.byte x) ∧ Counts s t (pgPump g) R.pump_INF_OUT_CNT (oneIf inf) := by
  cases inf with
  | false => exact ⟨fun _ => rfl, (satAdd_zero _).symm⟩
  | true => exact ⟨fun _ => rfl, (bumpBy_run (pgPump g) R.pump_INF_OUT_CNT 1 s).1⟩

theorem epiFollows_run (g : Nat) (k : Conv) (again : Bool) (f : Nat × Nat → TrapAt) (layer : Nat) (rec' : Option Nat) (pol : Bool) (vals : List Val) (s : State) :
    let t := (epiFollows g k again f layer rec' pol vals).run s
    (∀ x, t.byte x = s.byte x) ∧ Counts s t (pgPump g) R.pump_INF_OUT_CNT (oneIf k.toInf) := by
  dsimp only
  rw [epiFollows, Prog.run_all_cons, Prog.run_all_cons, Prog.run_all_cons, Prog.run_all_cons, Prog.run_all_cons, Prog.run_all_cons, Prog.run_all_nil]
  have haside := (tileConv_run (g / 4) k s).1
  generalize (Prog.all [keepRng (g / 4) k.rng, countConv (g / 4) k]).run s = u1 at *
  have hk2 : Keeps { regs := theRegs (pgMill (g / 4)) [R.mill_RETRY_CNT] } u1 ((Prog.when again (bump (pgMill (g / 4)) R.mill_RETRY_CNT)).run u1) :=
    Prog.keeps (by simp [Prog.only_when]) u1
  generalize (Prog.when again (bump (pgMill (g / 4)) R.mill_RETRY_CNT)).run u1 = u2 at *
  obtain ⟨hb3, hcnt⟩ := whenInf_run g k.toInf u2
  generalize (Prog.when k.toInf (bump (pgPump g) R.pump_INF_OUT_CNT)).run u2 = u3 at *
  have haside4 := (tileTraps_aside (g / 4) (g / 4) (trapPlaces k.causes) f).run u3
  generalize (tileTraps (g / 4) (trapPlaces k.causes) f).run u3 = u4 at *
  obtain ⟨hb5, hr5⟩ := whenEpiOvf_run g layer rec' pol again k.ovf u4
  generalize (Prog.when k.ovf (epiOvf g layer rec' pol again)).run u4 = u5 at *
  have hk6 : Keeps { pumps := (· = g) } u5 ((modPump g (fun r => r.epiWrote vals again k.ovf k.toInf)).run u5) := Prog.keeps (modPump_allows rfl _) u5
  generalize (modPump g (fun r => r.epiWrote vals again k.ovf k.toInf)).run u5 = t at *
  refine ⟨fun x => ?_, ?_⟩
  · rw [hk6.mem x id, hb5, haside4.keeps.mem x id, hb3, hk2.mem x id, haside.keeps.mem x id]
  · rw [Counts, hk6.reg_eq id, hr5 _ (by decide), haside4.reg (.inl rfl) (by decide), hcnt, hk2.reg_eq (not_theRegs_apart (by simp)),
      haside.reg (.inl rfl) (by decide)]

/-- The mill writes a tile: its bytes, and its count of infinities. -/
theorem epiWrite_run (hr : s.pumpRun g = some r) (hi : s.intact = true) (w : TRef) (row0 col0 cols : Nat) (bad : Option (Nat × Nat)) (vals : List Val) :
    let k := (s.epiConv (g / 4) r w row0 col0 cols vals).1
    let t := (epiWrite g w row0 col0 cols bad vals).run s
    (∀ x, t.byte x = ((writeTile (byEngine 6 r.idx) (g / 4) w r.args.m r.args.n row0 col0 cols (s.peelsBefore (g / 4) w (decide (r.wrote = 0))) k).run s).byte x) ∧
    Counts s t (pgPump g) R.pump_INF_OUT_CNT (oneIf k.toInf) := by
  dsimp only
  rw [epiWrite_eq hr]
  dsimp only
  have hk := (writeTile_writesBytes (byEngine 6 r.idx) (g / 4) w r.args.m r.args.n row0 col0 cols (s.peelsBefore (g / 4) w (decide (r.wrote = 0)))
    (s.epiConv (g / 4) r w row0 col0 cols vals).1).keeps s hi
  generalize (writeTile _ _ w _ _ row0 col0 cols _ _).run s = u at *
  obtain ⟨hbyte, hcnt⟩ := epiFollows_run g (s.epiConv (g / 4) r w row0 col0 cols vals).1 (s.epiConv (g / 4) r w row0 col0 cols vals).2
    (s.epiTrapAt g r w row0 col0 cols bad) r.layer (if w.smode = 1 then some r.args.rc else none) (s.bit (pgMill (g / 4)) R.mill_MILLCFG_OVF_POLICY) vals u
  exact ⟨hbyte, hcnt.trans (by rw [hk.reg_eq id])⟩

theorem smaxTile_run (hi : s.intact = true) (hr : s.pumpRun g = some r) (h1 : r.epi = 1) (w : TRef) :
    let row0 := tc.row * (shapeOf r.shape).1
    let col0 := tc.col * (shapeOf r.shape).2.1
    let vals := (s.smaxBwd (g / 4) r (s.bit pgNum R.numstep_CFG_HERITAGE) row0 col0 (s.epiRows r tc)).1
    let k := (s.epiConv (g / 4) r w row0 col0 (r.colsIn tc.col) vals).1
    let t := (epiTile g r tc w).run s
    EpiGoes g s t ∧ Counts s t (pgPump g) R.pump_INF_OUT_CNT (oneIf k.toInf) ∧
    ∀ x, t.byte x = ((writeTile (byEngine 6 r.idx) (g / 4) w r.args.m r.args.n row0 col0 (r.colsIn tc.col) (s.peelsBefore (g / 4) w (decide (r.wrote = 0)))
      k).run s).byte x := by
  dsimp only
  rw [epiTile, Prog.run_get]
  dsimp only
  rw [if_pos h1, Prog.run_all_cons, engineReads_run hi, Prog.run_all_cons, Prog.run_all_nil, Prog.run_get]
  generalize hv : s.smaxBwd (g / 4) r (s.bit pgNum R.numstep_CFG_HERITAGE) (tc.row * (shapeOf r.shape).1) (tc.col * (shapeOf r.shape).2.1) (s.epiRows r tc) = v
  rw [Prog.run_all_cons, Prog.run_all_cons, Prog.run_all_nil]
  obtain ⟨hrun, hsame, hreg⟩ := epiNanIn_run hr hi v.2
  obtain ⟨q, hrun, hwrote, hscale, hargs, hidx⟩ : ∃ q, ((epiNanIn g v.2).run s).pumpRun g = some q ∧ q.wrote = r.wrote ∧ q.scale = r.scale ∧
    q.args = r.args ∧ q.idx = r.idx := ⟨_, hrun, rfl, rfl, rfl, rfl⟩
  have hgoes := (epiNanIn_piece (g := g) v.2).goes s hi
  generalize (epiNanIn g v.2).run s = u at *
  have hgoes' := (epiWrite_piece (g := g) w (tc.row * (shapeOf r.shape).1) (tc.col * (shapeOf r.shape).2.1) (r.colsIn tc.col) tc.bad v.1).goes u hgoes.intact
  obtain ⟨hbyte, hcnt⟩ := epiWrite_run hrun hgoes.intact w (tc.row * (shapeOf r.shape).1) (tc.col * (shapeOf r.shape).2.1) (r.colsIn tc.col) tc.bad v.1
  rw [hsame.epiConv hwrote hscale hargs, hsame.peelsBefore, hwrote, hargs, hidx] at hbyte
  rw [hsame.epiConv hwrote hscale hargs] at hcnt
  generalize (epiWrite g w _ _ _ tc.bad v.1).run u = t at *
  refine ⟨hgoes.trans hgoes', ?_, fun x => ?_⟩
  · rw [Counts, hcnt, hreg _ (by decide)]
  · rw [hbyte]
    exact (writeTile_writesBytes ..).same s u hi hgoes.intact hsame.byte x

/-! ### NORM_BWD: the strip -/

/-- Writes that do not overlap all stand after the last of them. -/
theorem stores_hold {α : Type} (src : α → Option Source) (a : α → Nat) (bs : α → List Byte) (l : List α) (hi : s.intact = true)
    (hl : l.Pairwise fun x y => ∀ z, ¬ (inRange (a x) (bs x).length z ∧ inRange (a y) (bs y).length z)) :
    ∀ x ∈ l, ((Prog.each l (fun x => store (src x) (a x) (bs x))).run s).holds (a x) (bs x) := by
  induction l generalizing s with
  | nil => exact fun x h => absurd h List.not_mem_nil
  | cons x l ih =>
    obtain ⟨hfirst, hrest⟩ := List.pairwise_cons.1 hl
    obtain ⟨hdev, hx, -⟩ := store_effect hi (src x) (a x) (bs x)
    rw [Prog.run_each_cons]
    generalize (store (src x) (a x) (bs x)).run s = u at *
    have hiu : u.intact = true := by
      rw [State.intact, hdev]
      exact hi
    refine List.forall_mem_cons.2 ⟨?_, ih hiu hrest⟩
    have hkeep := (stores_effect src a bs l hiu).2
    refine fun i hlt => (hkeep.mem _ ?_).trans (hx i hlt)
    rintro ⟨y, hy, h⟩
    exact hfirst y hy _ ⟨by simp only [inRange]; omega, h⟩

theorem length_cuts {α : Type} (k n : Nat) (l : List α) : (cuts k n l).length = n := by
  induction n generalizing l with
  | zero => rfl
  | succ n ih => rw [cuts, List.length_cons, ih]

theorem getElem?_cuts {α : Type} (k : Nat) {n i : Nat} (h : i < n) (l : List α) : (cuts k n l)[i]? = some ((l.drop (i * k)).take k) := by
  induction n generalizing i l with
  | zero => omega
  | succ n ih =>
    cases i with
    | zero => rw [cuts, List.getElem?_cons_zero, Nat.zero_mul, List.drop_zero]
    | succ i => rw [cuts, List.getElem?_cons_succ, ih (by omega), List.drop_drop, Nat.succ_mul, Nat.add_comm k]

/-- The first rows with their numbers. -/
theorem getElem?_rows {α : Type} (l : List α) (m i : Nat) :
    ((List.zip l (List.range l.length)).take m)[i]? = if i < m then (l[i]?).map (fun x => (x, i)) else none := by
  rw [List.getElem?_take, List.zip, List.getElem?_zipWith]
  split
  · by_cases hi : i < l.length
    · rw [List.getElem?_range hi, List.getElem?_eq_getElem hi]
      rfl
    · rw [List.getElem?_eq_none (Nat.le_of_not_lt hi)]
      rfl
  · rfl

theorem mem_rows {α : Type} {l : List α} {m : Nat} {x : α × Nat} :
    x ∈ (List.zip l (List.range l.length)).take m ↔ x.2 < m ∧ l[x.2]? = some x.1 := by
  rw [List.mem_iff_getElem?]
  constructor
  · rintro ⟨i, hi⟩
    rw [getElem?_rows] at hi
    split at hi
    · next hm =>
      obtain ⟨y, hy, rfl⟩ := Option.map_eq_some_iff.1 hi
      exact ⟨hm, hy⟩
    · exact absurd hi.symm (Option.some_ne_none _)
  · rintro ⟨hm, hx⟩
    exact ⟨x.2, by rw [getElem?_rows, if_pos hm, hx, Option.map_some]⟩

theorem rows_pairwise {α : Type} (l : List α) (m : Nat) : ((List.zip l (List.range l.length)).take m).Pairwise fun x y => x.2 < y.2 := by
  rw [List.pairwise_iff_getElem]
  intro i j hi hj hij
  have hsnd {k : Nat} (hk : k < ((List.zip l (List.range l.length)).take m).length) : ((List.zip l (List.range l.length)).take m)[k].2 = k := by
    have h := List.getElem?_eq_getElem hk
    rw [getElem?_rows] at h
    split at h
    · obtain ⟨y, -, hy⟩ := Option.map_eq_some_iff.1 h
      rw [← hy]
    · exact absurd h.symm (Option.some_ne_none _)
  rw [hsnd hi, hsnd hj]
  exact hij

/-- The address of a row of a strip's tile, and its bytes (R172). -/
def stripAddr (g : Nat) (r : PumpRun) (tc : TileConv) (i : Nat) : Nat :=
  sliceAddr (g / 4) (r.args.scratch + (i * r.args.n + tc.col * (shapeOf r.shape).2.1) * 4)
def rowBytes (vs : List Val) : List Byte := vs.flatMap (fun v => toLe 4 (code32 v))

theorem length_rowBytes (vs : List Val) : (rowBytes vs).length = 4 * vs.length := length_flatMap_const (fun v => length_toLe 4 (code32 v)) vs

theorem PumpRun.colsIn_le (r : PumpRun) (j : Nat) : r.colsIn j ≤ r.args.n := (Nat.min_le_right ..).trans (Nat.sub_le ..)

/-- Two rows of a strip's tile do not overlap. -/
theorem stripAddr_apart (g : Nat) (r : PumpRun) (tc : TileConv) {i i' m m' : Nat} (h : i < i') (hm : m ≤ 4 * r.colsIn tc.col) (z : Nat) :
    ¬ (inRange (stripAddr g r tc i) m z ∧ inRange (stripAddr g r tc i') m' z) := by
  have hn := r.colsIn_le tc.col
  have hmul : (i + 1) * r.args.n ≤ i' * r.args.n := Nat.mul_le_mul_right _ h
  rw [Nat.succ_mul] at hmul
  simp only [inRange, stripAddr, sliceAddr]
  omega

section
variable (s g r tc)

/-- The rows a strip's tile stores, with their numbers. -/
def State.stripRows : List (List Val × Nat) := (List.zip (s.epiRows r tc) (List.range (s.epiRows r tc).length)).take 64

theorem mem_stripRows {x : List Val × Nat} : x ∈ s.stripRows r tc ↔ x.2 < min 64 (r.rowsIn tc.row) ∧
    x.1 = ((tc.sums.map (fun q => step32 (s.bit pgNum R.numstep_CFG_HERITAGE) q.val)).drop (x.2 * r.colsIn tc.col)).take (r.colsIn tc.col) := by
  rw [State.stripRows, mem_rows, Nat.lt_min, State.epiRows, and_assoc]
  refine and_congr_right fun _ => ?_
  by_cases hx : x.2 < r.rowsIn tc.row
  · rw [getElem?_cuts _ hx, Option.some_inj]
    exact ⟨fun h => ⟨hx, h.symm⟩, fun h => h.2.symm⟩
  · rw [List.getElem?_eq_none (by rw [length_cuts]; omega)]
    exact ⟨fun h => absurd h.symm (Option.some_ne_none _), fun h => absurd h.1 hx⟩

theorem stripGather_eq : ∃ f, (stripGather g r tc).run s = (modPump g f).run
    ((Prog.each (s.stripRows r tc) (fun x => store (byEngine 6 r.idx) (stripAddr g r tc x.2) (rowBytes x.1))).run s) := by
  rw [stripGather, Prog.run_get]
  dsimp only
  rw [Prog.run_all_cons, Prog.run_all_cons, Prog.run_all_nil]
  exact ⟨_, rfl⟩

end

theorem stripGather_run (hi : s.intact = true) :
    let n := r.args.n
    let col0 := tc.col * (shapeOf r.shape).2.1
    let t := (stripGather g r tc).run s
    (tc.sums.length = r.rowsIn tc.row * r.colsIn tc.col → ∀ i < min 64 (r.rowsIn tc.row), ∀ j < r.colsIn tc.col,
      t.le (sliceAddr (g / 4) (r.args.scratch + (i * n + col0 + j) * 4)) 4 =
        code32 (step32 (s.bit pgNum R.numstep_CFG_HERITAGE) (tc.sums.getD (i * r.colsIn tc.col + j) ⟨Val.zero false, Val.zero false⟩).val) % 2 ^ 32) ∧
    Keeps { mem := fun x => ∃ i < min 64 (r.rowsIn tc.row), ∃ j < 4 * r.colsIn tc.col, x = sliceAddr (g / 4) (r.args.scratch + (i * n + col0) * 4) + j
            pumps := (· = g) } s t := by
  obtain ⟨f, hf⟩ := stripGather_eq s g r tc
  dsimp only
  rw [hf]
  have hlen {x : List Val × Nat} (hx : x ∈ s.stripRows r tc) : (rowBytes x.1).length ≤ 4 * r.colsIn tc.col := by
    rw [length_rowBytes, ((mem_stripRows s r tc).1 hx).2, List.length_take]
    omega
  have hheld := stores_hold (fun _ => byEngine 6 r.idx) (fun x => stripAddr g r tc x.2) (fun x => rowBytes x.1) (s.stripRows r tc) hi
    ((rows_pairwise _ 64).imp_of_mem fun hx _ hxy => stripAddr_apart g r tc hxy (hlen hx))
  have hstore := (stores_effect (fun _ => byEngine 6 r.idx) (fun x : List Val × Nat => stripAddr g r tc x.2) (fun x => rowBytes x.1)
    (s.stripRows r tc) hi).2
  generalize (Prog.each (s.stripRows r tc) _).run s = u at *
  have hk : ∀ f : PumpRun → PumpRun, Keeps { pumps := (· = g) } u ((modPump g f).run u) := fun f => Prog.keeps (modPump_allows rfl f) u
  refine ⟨fun hsums i hlt j hj => ?_, (hstore.mono ?_).trans ((hk _).mono ?_)⟩
  · have hrow := hheld (((tc.sums.map (fun q => step32 (s.bit pgNum R.numstep_CFG_HERITAGE) q.val)).drop (i * r.colsIn tc.col)).take (r.colsIn tc.col), i)
      ((mem_stripRows s r tc).2 ⟨hlt, rfl⟩)
    have hlast := hk f
    generalize (modPump g f).run u = t at *
    have him : i * r.colsIn tc.col + r.colsIn tc.col ≤ r.rowsIn tc.row * r.colsIn tc.col := by
      rw [← Nat.succ_mul]
      exact Nat.mul_le_mul_right _ (lt_of_lt_of_le hlt (Nat.min_le_right ..))
    have hget : (((tc.sums.map (fun q => step32 (s.bit pgNum R.numstep_CFG_HERITAGE) q.val)).drop (i * r.colsIn tc.col)).take (r.colsIn tc.col))[j]? =
        some (step32 (s.bit pgNum R.numstep_CFG_HERITAGE) (tc.sums.getD (i * r.colsIn tc.col + j) ⟨Val.zero false, Val.zero false⟩).val) := by
      rw [List.getElem?_take_of_lt hj, List.getElem?_drop, List.getElem?_map, List.getD_eq_getElem?_getD, List.getElem?_eq_getElem (by omega)]
      rfl
    have hlen' : j < (((tc.sums.map (fun q => step32 (s.bit pgNum R.numstep_CFG_HERITAGE) q.val)).drop (i * r.colsIn tc.col)).take
        (r.colsIn tc.col)).length := (List.getElem?_eq_some_iff.1 hget).1
    have haddr : sliceAddr (g / 4) (r.args.scratch + (i * r.args.n + tc.col * (shapeOf r.shape).2.1 + j) * 4) = stripAddr g r tc i + 4 * j := by
      simp only [stripAddr, sliceAddr]
      omega
    rw [State.le_congr (s := u) fun x _ => hlast.mem _ id, State.le, haddr,
      State.bytes_of_holds hrow (by rw [length_rowBytes]; dsimp only; omega), rowBytes, flatMap_at (fun v => length_toLe 4 (code32 v)) hget, leNat_toLe]
    rfl
  · constructor
    case mem =>
      rintro x ⟨y, hy, hlo, hhi⟩
      have hl := hlen hy
      refine ⟨y.2, ((mem_stripRows s r tc).1 hy).1, x - stripAddr g r tc y.2, by omega, ?_⟩
      rw [← stripAddr]
      omega
    all_goals simp
  · constructor <;> simp

/-! ### O24 -/

section
variable (hi : s.intact = true) (h1 : r.epi ≠ 1) (w : TRef)
include h1

/-- A tile that is not its strip's last only enters the scratch region. -/
theorem epiTile_gather (hcol : tc.col + 1 < r.tileCols) : (epiTile g r tc w).run s = (stripGather g r tc).run s := by
  rw [epiTile, Prog.run_get]
  dsimp only
  rw [if_neg h1, decide_eq_false (by omega), Prog.run_all_cons, Prog.run_all_cons, Prog.run_all_nil, Prog.run_when_false]

include hi in
/-- A strip's last tile enters it, and the strip is written. -/
theorem epiTile_strip (hcol : r.tileCols ≤ tc.col + 1) : (epiTile g r tc w).run s = (epiStrip g w tc.row).run ((stripGather g r tc).run s) := by
  rw [epiTile, Prog.run_get]
  dsimp only
  rw [if_neg h1, decide_eq_true hcol, Prog.run_all_cons, Prog.run_all_cons, Prog.run_all_nil, Prog.run_when_true, Prog.run_all_cons, Prog.run_all_cons,
    Prog.run_all_nil, engineReads_run ((stripGather_piece r tc).goes s hi).intact]

end

/-- Settles O24: a conversion's end by the write it makes or the retry it begins; an epilogue's tile by the work of its kind. -/
theorem pumpTilesAreWritten : Obligations.PumpTilesAreWritten := by
  unfold Obligations.PumpTilesAreWritten
  refine ⟨fun s p r tc hi hrun hr hc hreset he => pumpTiles_written hi hrun hr hc hreset he, ?_⟩
  intro s p r tc hi hrun hr hc he hmill hreset c n w her row0 col0 counted
  rw [exec_epilogueTile hrun hr hc he hmill hreset]
  have hk := (epiCounts_run p.val (r.args.a.trans || r.args.b.trans) (s.bit pgNum R.numstep_CFG_HERITAGE) s).2
  have hsame := hk.sameEpi hi
  have hcounted {t : State} (h : EpiCounted p.val (r.args.a.trans || r.args.b.trans) (s.bit pgNum R.numstep_CFG_HERITAGE) s t)
      (hl : epiLeft p.val r s t) : counted t := by
    obtain ⟨hf, hepi, htrans, hher⟩ := h
    exact ⟨hf, hepi, htrans, hher, hl⟩
  have htile := epiTile_run (g := p.val) (r := r) (tc := tc) (w := s.pumpOut (p.val / 4) r) (trans := r.args.a.trans || r.args.b.trans)
    (her := s.bit pgNum R.numstep_CFG_HERITAGE) hr he
  generalize (epiCounts p.val (r.args.a.trans || r.args.b.trans) (s.bit pgNum R.numstep_CFG_HERITAGE)).run s = s1 at *
  have hi1 := hsame.intact.2
  refine ⟨fun h1 => Leaves.of_next ?_, fun h1 hcol hl hsums => Leaves.of_next ?_, fun h1 hcol => Leaves.of_next ?_⟩
  · obtain ⟨hgoes, hinf, hbyte⟩ := smaxTile_run (tc := tc) hi1 (hsame.run.trans hr) h1 (s.pumpOut (p.val / 4) r)
    obtain ⟨hcnt, hleft, hb, hreg, -⟩ := htile hgoes
    rw [hsame.her, hsame.epiRows, hsame.smaxBwd, hsame.epiConv (r := r) rfl rfl rfl] at hinf hbyte
    rw [hsame.peelsBefore] at hbyte
    dsimp only at hb hreg hinf ⊢
    refine ⟨hcounted hcnt hleft, ?_, fun hl x => ?_⟩
    · rw [Counts, hreg (by decide) (by decide), hinf, hk.reg_eq (not_someRegs_apart (by simp))]
    · rw [hb hl, hbyte]
      exact (writeTile_writesBytes ..).same _ _ hi hi1 hsame.byte x
  · have hgoes := (stripGather_piece (g := p.val) r tc).goes _ hi1
    rw [epiTile_gather h1 (s.pumpOut (p.val / 4) r) hcol] at htile ⊢
    obtain ⟨hcnt, hleft, -, -, hkeep⟩ := htile hgoes
    obtain ⟨hvals, hstrip⟩ := stripGather_run (g := p.val) (r := r) (tc := tc) hi1
    rw [hsame.her] at hvals
    have hlast := hkeep hl
    generalize (stripGather p.val r tc).run s1 = u at *
    generalize (modPump p.val (fun r => { r with conv := none })).run u = v at *
    generalize (epiDone p.val v).run v = t at *
    refine ⟨hcounted hcnt hleft, fun i hlt j hj => ?_, ((hk.mono ?_).trans (hstrip.mono ?_)).trans (hlast.mono ?_)⟩
    · rw [State.le_congr (s := u) fun x _ => hlast.mem _ id]
      exact hvals hsums i hlt j hj
    · constructor
      case regs => exact fun _ h => h
      all_goals simp [epiCountTouch]
    · constructor
      case mem => exact fun _ h => h
      all_goals simp
    · constructor <;> simp
  · have hgather := (stripGather_piece (g := p.val) r tc).goes _ hi1
    have hgoes := hgather.trans ((epiStrip_piece (g := p.val) (s.pumpOut (p.val / 4) r) tc.row).goes _ hgather.intact)
    have hbyte := ((epiStrip_piece (s.pumpOut (p.val / 4) r) tc.row).same _ _ ((stripGather_piece r tc).same _ _ hsame)).byte
    rw [epiTile_strip hi1 h1 (s.pumpOut (p.val / 4) r) hcol] at htile ⊢
    obtain ⟨hcnt, hleft, hb, -, -⟩ := htile hgoes
    exact ⟨hcounted hcnt hleft, fun hl x => (hb hl x).trans (hbyte x)⟩

end Sys2Proof.Machine
end

open Host
section
/-! O21: draw records are promoted and merged, and escalated parts computed (R97, R98, R128, R129, R132, R170, R191 to R193). -/
namespace Sys2Proof.Machine

variable {s : State}

/-! ### Records of the leat queue -/

theorem modRec_croft (c serial draw : Nat) (f : DrawRec → DrawRec) (s : State) : ((modRec c serial draw f).run s).croft c =
    { s.croft c with leat := (s.croft c).leat.map (fun x => if x.serial = serial ∧ x.draw = draw then f x else x) } := modCroft_run_self ..

@[simp] theorem modRec_allows {T : Touch} (c serial draw : Nat) (f : DrawRec → DrawRec) : (modRec c serial draw f).Only T.allows ↔ T.crofts c :=
  modCroft_allows ..

/-- The bytes of an output record: its values and the status word (R98). -/
def DrawRec.bytes (r : DrawRec) : List Byte := r.y.flatMap (toLe 4) ++ toLe 4 (r.status ||| 1)

theorem DrawRec.length_bytes (r : DrawRec) : r.bytes.length = 4 * r.y.length + 4 := by
  rw [DrawRec.bytes, List.length_append, length_flatMap_const (length_toLe 4), length_toLe]

/-- A record is written where its draw is complete, and leaves everything else. -/
theorem writeRecord_run {b : Bool} (hi : s.intact = true) (c : Nat) (r : DrawRec) :
    let t := (Prog.when b (writeRecord c r)).run s
    (b = true → t.holds (sliceAddr c r.out) r.bytes) ∧
    Keeps { mem := fun a => b = true ∧ inRange (sliceAddr c r.out) (4 * r.y.length + 4) a } s t := by
  cases b with
  | false => exact ⟨fun h => absurd h (by decide), Keeps.refl _ s⟩
  | true =>
    obtain ⟨-, hholds, hkeep⟩ := store_effect hi (byEngine 1 r.idx) (sliceAddr c r.out) r.bytes
    rw [r.length_bytes] at hkeep
    refine ⟨fun _ => hholds, hkeep.mono ?_⟩
    constructor <;> simp

/-- A record of the queue takes a new form, and is written where its draw is complete. -/
theorem putRec_run {b : Bool} (hi : s.intact = true) (c serial draw : Nat) (r : DrawRec) :
    let t := (Prog.when b (writeRecord c r)).run ((modRec c serial draw (fun _ => r)).run s)
    t.croft c = { s.croft c with leat := (s.croft c).leat.map (fun x => if x.serial = serial ∧ x.draw = draw then r else x) } ∧
    (b = true → t.holds (sliceAddr c r.out) r.bytes) ∧
    Keeps { mem := fun a => b = true ∧ inRange (sliceAddr c r.out) (4 * r.y.length + 4) a, crofts := (· = c) } s t := by
  have hmod : Keeps { crofts := (· = c) } s ((modRec c serial draw (fun _ => r)).run s) := Prog.keeps (by simp) s
  obtain ⟨hholds, hkeep⟩ := writeRecord_run (b := b) (intact_of_keeps hmod id hi) c r
  refine ⟨(hkeep.crofts c id).trans (modRec_croft ..), hholds, (hmod.mono ?_).trans (hkeep.mono ?_)⟩
  · constructor <;> simp
  · constructor <;> simp

theorem DrawRec.length_outputs (r : DrawRec) (scales : List Nat) : (r.outputs scales).length = 512 := by simp [DrawRec.outputs]

/-! ### Promotion -/

theorem promotion_ends {w : WellId} {r : DrawRec} (hi : s.intact = true) (hclock : s.clockRuns (w.val / 16) = true)
    (hfind : (s.croft (w.val / 16)).leat.find? (fun x => x.wells.head? == some (w.val % 16) && !x.promoted) = some r) :
    Leaves (exec (.drawPromotionEnd w) s) (fun t =>
      t.croft (w.val / 16) = { s.croft (w.val / 16) with leat := (s.croft (w.val / 16)).leat.map (fun x =>
        if x.serial = r.serial ∧ x.draw = r.draw then { r with promoted := true, y := r.outputs (s.well w.val).scales } else x) } ∧
      (r.parts = 0 → t.holds (sliceAddr (w.val / 16) r.out)
        ((r.outputs (s.well w.val).scales).flatMap (toLe 4) ++ toLe 4 (r.status ||| 1))) ∧
      Keeps { mem := fun a => r.parts = 0 ∧ inRange (sliceAddr (w.val / 16) r.out) 2052 a, crofts := (· = w.val / 16) } s t) := by
  have hexec : exec (.drawPromotionEnd w) s = .next ((Prog.when (decide (r.parts = 0)) (writeRecord (w.val / 16)
      { r with promoted := true, y := r.outputs (s.well w.val).scales })).run ((modRec (w.val / 16) r.serial r.draw
        (fun _ => { r with promoted := true, y := r.outputs (s.well w.val).scales })).run s)) := by
    show execDrawPromotionEnd w s = _
    rw [execDrawPromotionEnd, Prog.next_eq, Prog.run_get]
    dsimp only
    rw [hfind]
    dsimp only
    rw [hclock, Prog.run_when_true, Prog.run_all_cons, Prog.run_all_cons, Prog.run_all_nil]
  have hlen := r.length_outputs (s.well w.val).scales
  generalize r.outputs (s.well w.val).scales = ys at *
  obtain ⟨hcroft, hholds, hkeep⟩ := putRec_run (b := decide (r.parts = 0)) hi (w.val / 16) r.serial r.draw { r with promoted := true, y := ys }
  refine ⟨_, hexec, hcroft, fun h => hholds (decide_eq_true h), hkeep.mono ?_⟩
  constructor <;> simp [hlen]

/-! ### The leat merge -/

theorem merge_starts {c : CroftId} {r : DrawRec} {rs : List DrawRec} (hleat : (s.croft c.val).leat = r :: rs) (hp : r.promoted = true)
    (hparts : r.parts = 0) (hm : r.merging = false) (hreset : s.underReset (pgMill c.val) = false) (hclock : s.clockRuns c.val = true) :
    Leaves (exec (.leatMergeStart c) s) (fun t =>
      t.croft c.val = { s.croft c.val with leat := (r :: rs).map (fun x =>
        if x.serial = r.serial ∧ x.draw = r.draw then { x with merging := true } else x) } ∧
      Keeps { crofts := (· = c.val) } s t) := by
  refine ⟨(modRec c.val r.serial r.draw (fun x => { x with merging := true })).run s, ?_, ?_, Prog.keeps (by simp) s⟩
  · show execLeatMergeStart c s = _
    rw [execLeatMergeStart, Prog.next_eq, Prog.run_get, hleat]
    simp -implicitDefEqProofs only [hp, hparts, hm, hreset, hclock]
    rfl
  · rw [modRec_croft, hleat]

/-- The merged columns of a record: their values, and what each met. -/
def State.merged (s : State) (c : Nat) (r : DrawRec) : List (Nat × Option (Nat × Nat)) :=
  (List.zip r.y ((List.range 512).map (s.leatTerms c r))).map (fun x => mergeColumn x.1 x.2)

def State.termCount (s : State) (c : Nat) (r : DrawRec) : Nat :=
  ((List.range 512).map (fun j => (s.leatTerms c r j).length)).sum

theorem State.merged_at {c j : Nat} {r : DrawRec} (hy : r.y.length = 512) (hj : j < 512) :
    (s.merged c r)[j]? = some (mergeColumn (r.y.getD j 0) (s.leatTerms c r j)) := by
  have hj' : j < r.y.length := by omega
  simp [State.merged, hj, hj']

theorem State.length_merged {c : Nat} {r : DrawRec} (hy : r.y.length = 512) : (s.merged c r).length = 512 := by simp [State.merged, hy]

/-- Columns that met nothing leave no trap. -/
theorem leatEvents_none {cols : List (Nat × Option (Nat × Nat))} (h : ∀ x ∈ cols, x.2 = none) : leatEvents cols = [] := by
  have hnone : (List.zip cols (List.range cols.length)).filterMap (fun x => x.1.2.map (fun k => (k.1, k.2, x.2))) = [] :=
    List.filterMap_eq_nil_iff.2 fun x hx => by rw [h x.1 (List.of_mem_zip hx).1, Option.map_none]
  simp only [leatEvents, hnone, List.mergeSort_nil, List.foldl_nil, List.map_nil]

theorem merged_none {c : Nat} {r : DrawRec} (hy : r.y.length = 512)
    (h : ∀ j < 512, (mergeColumn (r.y.getD j 0) (s.leatTerms c r j)).2 = none) : ∀ x ∈ s.merged c r, x.2 = none := by
  intro x hx
  obtain ⟨j, hj⟩ := List.mem_iff_getElem?.1 hx
  have hlt : j < 512 := by
    have := (List.getElem?_eq_some_iff.1 hj).1
    rwa [State.length_merged hy] at this
  rw [State.merged_at hy hlt] at hj
  rw [← Option.some.inj hj]
  exact h j hlt

/-- A merge that met nothing writes its values and counts the record and its terms. -/
def mergeWrites (c : Nat) (r : DrawRec) (vals : List Nat) (n : Nat) : Prog := .all [
  modCroft c (fun k => { k with leat := k.leat.drop 1 }),
  store (byEngine 6 r.idx) (sliceAddr c r.out) (vals.flatMap (toLe 4)),
  bumpBy (pgMill c) R.mill_LEAT_REC_CNT 1,
  bumpBy (pgMill c) R.mill_LEAT_TERM_CNT n]
def mergeLeaves (c : Nat) (r : DrawRec) : Prog := .all [leatStatus c, Prog.when r.final (dropOrder c r.serial)]

/-- What the written values of a merge leave. -/
structure MergeWritten (s t : State) (c : Nat) (r : DrawRec) (vals : List Nat) (n : Nat) : Prop where
  croft : t.croft c = { s.croft c with leat := (s.croft c).leat.drop 1 }
  mem : t.holds (sliceAddr c r.out) (vals.flatMap (toLe 4))
  records : Counts s t (pgMill c) R.mill_LEAT_REC_CNT 1
  terms : Counts s t (pgMill c) R.mill_LEAT_TERM_CNT n
  keeps : Keeps { regs := theRegs (pgMill c) [R.mill_LEAT_REC_CNT, R.mill_LEAT_TERM_CNT], mem := inRange (sliceAddr c r.out) (4 * vals.length)
                  crofts := (· = c) } s t

theorem mergeWrites_run (hi : s.intact = true) (c : Nat) (r : DrawRec) (vals : List Nat) (n : Nat) :
    MergeWritten s ((mergeWrites c r vals n).run s) c r vals n := by
  have hmod : Keeps { crofts := (· = c) } s ((modCroft c (fun k => { k with leat := k.leat.drop 1 })).run s) := Prog.keeps (by simp) s
  obtain ⟨-, hholds, hkeep⟩ := store_effect (intact_of_keeps hmod id hi) (byEngine 6 r.idx) (sliceAddr c r.out) (vals.flatMap (toLe 4))
  have hself := modCroft_run_self c (fun k => { k with leat := k.leat.drop 1 }) s
  rw [length_flatMap_const (length_toLe 4)] at hkeep
  simp -implicitDefEqProofs only [mergeWrites, Prog.run_all_cons, Prog.run_all_nil]
  generalize (modCroft c (fun k => { k with leat := k.leat.drop 1 })).run s = u at *
  generalize (store (byEngine 6 r.idx) (sliceAddr c r.out) (vals.flatMap (toLe 4))).run u = v at *
  have hcount (o : Nat) : v.reg (pgMill c) o = s.reg (pgMill c) o := (hkeep.reg_eq id).trans (hmod.reg_eq id)
  have hlast : Keeps { regs := theRegs (pgMill c) [R.mill_LEAT_REC_CNT, R.mill_LEAT_TERM_CNT] } v
      ((bumpBy (pgMill c) R.mill_LEAT_TERM_CNT n).run ((bumpBy (pgMill c) R.mill_LEAT_REC_CNT 1).run v)) :=
    (Prog.keeps (by simp) v).trans (Prog.keeps (by simp) _)
  constructor
  case croft => exact (hlast.crofts c id).trans ((hkeep.crofts c id).trans hself)
  case mem => exact State.holds_of_keeps hlast (fun _ => id) hholds
  case records => simp -implicitDefEqProofs [Counts, hcount]
  case terms => simp -implicitDefEqProofs [Counts, hcount]
  case keeps =>
    refine (hmod.mono ?_).trans ((hkeep.mono ?_).trans (hlast.mono ?_))
    · constructor <;> simp
    · constructor <;> simp
    · constructor <;> simp

theorem mergeLeaves_run (c : Nat) (r : DrawRec) (s : State) :
    let t := (mergeLeaves c r).run s
    t.croft c = { s.croft c with reeve := if r.final then (s.reeve c).ended r.serial else s.reeve c } ∧
    Keeps { regs := theRegs (pgMill c) [R.mill_LEAT_STATUS_QUEUED], crofts := (· = c) } s t := by
  refine ⟨?_, Prog.keeps (by simp [mergeLeaves, leatStatus, Prog.only_when]) s⟩
  have hstatus : ((leatStatus c).run s).croft c = s.croft c := by simp -implicitDefEqProofs [leatStatus]
  rw [mergeLeaves, Prog.run_all_cons, Prog.run_all_cons, Prog.run_all_nil]
  cases r.final with
  | false => exact hstatus
  | true =>
    rw [Prog.run_when_true, dropOrder, modReeve, modCroft_run_self, hstatus]
    rfl

theorem exec_mergeEnd {c : CroftId} {r : DrawRec} {rs : List DrawRec} (hi : s.intact = true) (hclock : s.clockRuns c.val = true)
    (hleat : (s.croft c.val).leat = r :: rs) (hm : r.merging = true) (hnan : r.edge.nan = false)
    (hon : s.bit (pgMill c.val) R.mill_MILLCFG_LEAT = true) (hevents : leatEvents (s.merged c.val r) = []) :
    exec (.leatMergeEnd c) s = .next ((mergeLeaves c.val r).run
      ((mergeWrites c.val r ((s.merged c.val r).map (·.1)) (s.termCount c.val r)).run s)) := by
  show execLeatMergeEnd c s = _
  rw [execLeatMergeEnd, Prog.next_eq, Prog.run_get]
  dsimp only
  rw [hleat]
  dsimp only
  rw [if_neg (by simp [hm, hclock]), Prog.run_all_cons, engineReads_run hi, Prog.run_all_cons, Prog.run_all_nil, Prog.run_get]
  rw [hon, hnan]
  have hterms : (List.range 512).map (fun j => if false = true then [] else s.leatTerms c.val r j) =
      (List.range 512).map (s.leatTerms c.val r) := rfl
  have hcount : (((List.range 512).map (s.leatTerms c.val r)).map (·.length)).foldl (· + ·) 0 = s.termCount c.val r := by
    rw [List.map_map, ← List.sum_eq_foldl]
    rfl
  have hcols : (List.zip r.y ((List.range 512).map (s.leatTerms c.val r))).map (fun x => mergeColumn x.1 x.2) = s.merged c.val r := rfl
  rw [hterms, hcount, hcols, hevents]
  simp -implicitDefEqProofs only [mergeLeaves, mergeWrites, Prog.run_all_cons, Prog.run_all_nil, if_true, Prog.run_each_nil, bump]

theorem merge_ends {c : CroftId} {r : DrawRec} {rs : List DrawRec} (hi : s.intact = true) (hclock : s.clockRuns c.val = true)
    (hleat : (s.croft c.val).leat = r :: rs) (hm : r.merging = true) (hnan : r.edge.nan = false) (hy : r.y.length = 512)
    (hon : s.bit (pgMill c.val) R.mill_MILLCFG_LEAT = true)
    (hnone : ∀ j < 512, (mergeColumn (r.y.getD j 0) (s.leatTerms c.val r j)).2 = none) :
    Leaves (exec (.leatMergeEnd c) s) (fun t =>
      t.croft c.val = { s.croft c.val with
        leat := rs, reeve := if r.final then (s.reeve c.val).ended r.serial else s.reeve c.val } ∧
      (∀ j < 512, t.le (sliceAddr c.val r.out + 4 * j) 4 = (mergeColumn (r.y.getD j 0) (s.leatTerms c.val r j)).1 % 2 ^ 32) ∧
      Counts s t (pgMill c.val) R.mill_LEAT_REC_CNT 1 ∧
      Counts s t (pgMill c.val) R.mill_LEAT_TERM_CNT (((List.range 512).map (fun j => (s.leatTerms c.val r j).length)).sum) ∧
      Keeps { regs := theRegs (pgMill c.val) [R.mill_LEAT_REC_CNT, R.mill_LEAT_TERM_CNT, R.mill_LEAT_STATUS_QUEUED],
              mem := inRange (sliceAddr c.val r.out) 2048, crofts := (· = c.val) } s t) := by
  have hlen : ((s.merged c.val r).map (·.1)).length = 512 := by rw [List.length_map, State.length_merged hy]
  have hat (j : Nat) (hj : j < 512) : ((s.merged c.val r).map (·.1))[j]? =
      some (mergeColumn (r.y.getD j 0) (s.leatTerms c.val r j)).1 := by
    rw [List.getElem?_map, State.merged_at hy hj]
    rfl
  obtain ⟨hcroft, hmem, hrec, hterm, hkeep⟩ := mergeWrites_run hi c.val r ((s.merged c.val r).map (·.1)) (s.termCount c.val r)
  refine ⟨_, exec_mergeEnd hi hclock hleat hm hnan hon (leatEvents_none (merged_none hy hnone)), ?_⟩
  generalize (s.merged c.val r).map (·.1) = vals at *
  generalize (mergeWrites c.val r vals (s.termCount c.val r)).run s = u at *
  obtain ⟨hcroft', hkeep'⟩ := mergeLeaves_run c.val r u
  refine ⟨?_, fun j hj => ?_, (hkeep'.reg_eq (not_theRegs_offset (by decide) _)).trans hrec,
    (hkeep'.reg_eq (not_theRegs_offset (by decide) _)).trans hterm, (hkeep.mono ?_).trans (hkeep'.mono ?_)⟩
  · rw [hcroft', State.reeve_eq, hcroft, hleat]
    rfl
  · have hholds := State.holds_of_keeps hkeep' (fun _ => id) hmem
    rw [State.le, State.bytes_of_holds hholds (by rw [length_flatMap_const (length_toLe 4), hlen]; omega),
      flatMap_at (length_toLe 4) (hat j hj), leNat_toLe, show 256 ^ 4 = 2 ^ 32 by decide]
  · rw [hlen]
    constructor
    case regs => exact theRegs_sub (by decide)
    all_goals simp
  · constructor
    case regs => exact theRegs_sub (by decide)
    all_goals simp

/-! ### Escalated parts -/

/-- What the escalation pump shows as it takes a part. -/
def partTaken (c pl : Nat) (e : EscPart) (rest : List EscPart) (held : Bool) : Prog := .all [
  modCroft c (fun k => { k with escs := rest, escNow := some e }),
  setFld (pgPump (c * 4 + pl)) R.pump_STATUS_ESCALATING 1,
  setBit (pgPump (c * 4 + pl)) R.pump_STATUS_HELD held,
  modPump (c * 4 + pl) (fun r => { r with esc := true, served := true })]

theorem modPump_pumpRun (g : Nat) (f : PumpRun → PumpRun) (s : State) : ((modPump g f).run s).pumpRun g = (s.pumpRun g).map f := by
  cases h : s.pumpRun g with
  | none =>
    rw [modPump, Prog.run_get, h]
    exact h
  | some r => exact modPump_self h f

theorem partTaken_run (c pl : Nat) (e : EscPart) (rest : List EscPart) (held : Bool) (s : State) :
    let t := (partTaken c pl e rest held).run s
    t.croft c = { s.croft c with escs := rest, escNow := some e } ∧ t.bit (pgPump (c * 4 + pl)) R.pump_STATUS_ESCALATING = true ∧
    t.bit (pgPump (c * 4 + pl)) R.pump_STATUS_HELD = held ∧
    t.pumpRun (c * 4 + pl) = (s.pumpRun (c * 4 + pl)).map (fun r => { r with esc := true, served := true }) ∧
    Keeps { regs := theRegs (pgPump (c * 4 + pl)) [R.pump_STATUS_ESCALATING], crofts := (· = c), pumps := (· = c * 4 + pl) } s t := by
  have hpump (u : State) : Keeps { pumps := (· = c * 4 + pl) } u
      ((modPump (c * 4 + pl) (fun r => { r with esc := true, served := true })).run u) := Prog.keeps (modPump_allows rfl _) u
  have hcroft := modCroft_run_self c (fun k => { k with escs := rest, escNow := some e }) s
  refine ⟨?_, ?_, ?_, ?_, Prog.keeps ?_ s⟩
  · simp -implicitDefEqProofs only [partTaken, Prog.run_all_cons, Prog.run_all_nil]
    rw [(hpump _).crofts c id, ← hcroft]
    simp -implicitDefEqProofs
  · simp -implicitDefEqProofs only [partTaken, Prog.run_all_cons, Prog.run_all_nil]
    rw [(hpump _).bit_eq id]
    simp -implicitDefEqProofs [State.bit]
  · simp -implicitDefEqProofs only [partTaken, Prog.run_all_cons, Prog.run_all_nil]
    rw [(hpump _).bit_eq id]
    cases held <;> simp -implicitDefEqProofs [State.bit]
  · simp -implicitDefEqProofs only [partTaken, Prog.run_all_cons, Prog.run_all_nil]
    rw [modPump_pumpRun]
    simp -implicitDefEqProofs [modCroft]
  · simp [partTaken, modPump_allows]

theorem part_starts {c : CroftId} {e : EscPart} {rest : List EscPart} {d : DrawRec} (hidle : (s.croft c.val).escNow = none)
    (hescs : (s.croft c.val).escs = e :: rest)
    (hfind : (s.croft c.val).leat.find? (fun r => r.serial == e.serial && r.draw == e.draw) = some d) (hi : s.intact = true)
    (hclock : s.clockRuns c.val = true)
    (hfree : ∀ r, s.pumpRun (c.val * 4 + s.escPump c.val) = some r → (r.conv = none ∨ r.epi ≠ 0) ∧ r.served = false)
    (hreset : s.underReset (pgPump (c.val * 4 + s.escPump c.val)) = false)
    (hbank : s.bankMiss c.val (s.escPump c.val) false (s.fld (pgWell (c.val * 16 + e.well)) R.well_IMG_ADDR_OFFSET) 0x40800 = none)
    (hfp : s.imageFp c.val (s.fld (pgWell (c.val * 16 + e.well)) R.well_IMG_ADDR_OFFSET) =
      s.reg (pgWell (c.val * 16 + e.well)) R.well_SCALE_FP_FP.off) :
    exec (.escPartStart c) s = .next ((partTaken c.val (s.escPump c.val) e rest (s.pumpRun (c.val * 4 + s.escPump c.val)).isSome).run s) := by
  have hconv : (match s.pumpRun (c.val * 4 + s.escPump c.val) with
      | some r => (r.conv.isSome && r.epi == 0) || r.served
      | none => false) = false := by
    cases h : s.pumpRun (c.val * 4 + s.escPump c.val) with
    | none => rfl
    | some r =>
      obtain ⟨hr, hserved⟩ := hfree r h
      rcases hr with hr | hr <;> simp [hr, hserved]
  show execEscPartStart c s = _
  rw [execEscPartStart, Prog.next_eq, Prog.run_get]
  dsimp only
  rw [hidle, hescs]
  dsimp only
  rw [if_neg (by exact ne_true_of_eq_false (congrArg₂ (fun a b => a || !b) hconv hclock)), hfind]
  dsimp only
  rw [if_neg (by simp [hreset]), hbank]
  dsimp only
  rw [Prog.run_all_cons, engineReads_run hi, Prog.run_all_cons, Prog.run_all_nil, Prog.run_get, if_neg (by simpa using hfp)]
  rfl

/-- What the escalation pump leaves as a part ends. -/
def partLeaves (c pl : Nat) (e : EscPart) (cycles : Nat) : Prog := .all [
  bumpBy (pgPump (c * 4 + pl)) R.pump_ESC_PART_CNT 1,
  setFld (pgPump (c * 4 + pl)) R.pump_ESC_LAST_WELL (c * 16 + e.well),
  setFld (pgPump (c * 4 + pl)) R.pump_ESC_LAST_CYCLES cycles,
  setFld (pgPump (c * 4 + pl)) R.pump_STATUS_ESCALATING 0,
  setFld (pgPump (c * 4 + pl)) R.pump_STATUS_HELD 0,
  modCroft c (fun k => { k with escNow := none })]

theorem partLeaves_run (c pl : Nat) (e : EscPart) (cycles : Nat) (s : State) :
    let t := (partLeaves c pl e cycles).run s
    let p := pgPump (c * 4 + pl)
    t.croft c = { s.croft c with escNow := none } ∧ Counts s t p R.pump_ESC_PART_CNT 1 ∧ t.bit p R.pump_STATUS_ESCALATING = false ∧
    t.bit p R.pump_STATUS_HELD = false ∧ t.fld p R.pump_ESC_LAST_WELL = (c * 16 + e.well) % 2048 ∧
    Keeps { regs := theRegs p [R.pump_ESC_PART_CNT, R.pump_ESC_LAST_WELL, R.pump_STATUS_ESCALATING], crofts := (· = c) } s t := by
  refine ⟨?_, ?_, ?_, ?_, ?_, Prog.keeps (by simp [partLeaves]) s⟩
  · simp -implicitDefEqProofs only [partLeaves, Prog.run_all_cons, Prog.run_all_nil]
    rw [modCroft_run_self]
    simp -implicitDefEqProofs
  all_goals simp -implicitDefEqProofs [partLeaves, Counts, modCroft, State.bit]

/-- The record of a draw with an escalated part's values added. -/
def DrawRec.withPart (r : DrawRec) (zs : List Val) : DrawRec :=
  { r with parts := r.parts - 1, y := List.zipWith (fun y z => code32 (Val.add (f32 y) z)) r.y zs }

theorem exec_partEnd {c : CroftId} {e : EscPart} {r : DrawRec} (hclock : s.clockRuns c.val = true)
    (hnow : (s.croft c.val).escNow = some e)
    (hfind : (s.croft c.val).leat.find? (fun r => r.serial == e.serial && r.draw == e.draw) = some r) (hp : r.promoted = true) :
    ∃ cycles, exec (.escPartEnd c) s =
      let r' := r.withPart (s.escValues c.val (s.fld (pgWell (c.val * 16 + e.well)) R.well_IMG_ADDR_OFFSET) r.edge
        (r.edge.wells.getD (r.wells.findIdx (fun w => w == e.well)) ⟨[], 0, [], []⟩))
      .next ((Prog.when (decide (r.parts ≤ 1)) (writeRecord c.val r')).run ((modRec c.val r.serial r.draw (fun _ => r')).run
        ((partLeaves c.val (s.escPump c.val) e cycles).run s))) := by
  refine ⟨min 0xFFFF (s.croftCycles c.val (s.now - e.due)), ?_⟩
  show execEscPartEnd c s = _
  rw [execEscPartEnd, Prog.next_eq, Prog.run_get]
  dsimp only
  rw [hnow]
  dsimp only
  rw [hfind]
  dsimp only
  rw [if_neg (by simp [hp, hclock])]
  simp -implicitDefEqProofs only [partLeaves, Prog.run_all_cons, Prog.run_all_nil, DrawRec.withPart, bump]

theorem part_ends {c : CroftId} {e : EscPart} {r : DrawRec} (hi : s.intact = true) (hclock : s.clockRuns c.val = true)
    (hnow : (s.croft c.val).escNow = some e)
    (hfind : (s.croft c.val).leat.find? (fun r => r.serial == e.serial && r.draw == e.draw) = some r) (hp : r.promoted = true) :
    Leaves (exec (.escPartEnd c) s) (fun t =>
      let p := pgPump (c.val * 4 + s.escPump c.val)
      let ys := List.zipWith (fun y z => code32 (Val.add (f32 y) z)) r.y (s.escValues c.val
        (s.fld (pgWell (c.val * 16 + e.well)) R.well_IMG_ADDR_OFFSET) r.edge
        (r.edge.wells.getD (r.wells.findIdx (fun w => w == e.well)) ⟨[], 0, [], []⟩))
      t.croft c.val = { s.croft c.val with
        escNow := none
        leat := (s.croft c.val).leat.map (fun x =>
          if x.serial = r.serial ∧ x.draw = r.draw then { r with parts := r.parts - 1, y := ys } else x) } ∧
      Counts s t p R.pump_ESC_PART_CNT 1 ∧ t.bit p R.pump_STATUS_ESCALATING = false ∧ t.bit p R.pump_STATUS_HELD = false ∧
      t.fld p R.pump_ESC_LAST_WELL = (c.val * 16 + e.well) % 2048 ∧
      (r.parts ≤ 1 → t.holds (sliceAddr c.val r.out) (ys.flatMap (toLe 4) ++ toLe 4 (r.status ||| 1))) ∧
      Keeps { regs := theRegs p [R.pump_ESC_PART_CNT, R.pump_ESC_LAST_WELL, R.pump_STATUS_ESCALATING],
              mem := fun a => r.parts ≤ 1 ∧ inRange (sliceAddr c.val r.out) (4 * ys.length + 4) a, crofts := (· = c.val) } s t) := by
  obtain ⟨cycles, hexec⟩ := exec_partEnd hclock hnow hfind hp
  refine ⟨_, hexec, ?_⟩
  obtain ⟨hcroft, hcount, hesc, hheld, hlast, hkeep⟩ := partLeaves_run c.val (s.escPump c.val) e cycles s
  generalize s.escValues c.val _ r.edge _ = zs
  generalize (partLeaves c.val (s.escPump c.val) e cycles).run s = u at *
  generalize hys : List.zipWith (fun y z => code32 (Val.add (f32 y) z)) r.y zs = ys
  have hpart : r.withPart zs = { r with parts := r.parts - 1, y := ys } := by rw [DrawRec.withPart, hys]
  rw [hpart]
  obtain ⟨hcroft', hholds, hkeep'⟩ := putRec_run (b := decide (r.parts ≤ 1)) (intact_of_keeps hkeep id hi) c.val r.serial r.draw
    { r with parts := r.parts - 1, y := ys }
  refine ⟨?_, (hkeep'.reg_eq id).trans hcount, (hkeep'.bit_eq id).trans hesc, (hkeep'.bit_eq id).trans hheld, (hkeep'.fld_eq id).trans hlast,
    fun h => hholds (decide_eq_true h), (hkeep.mono ?_).trans (hkeep'.mono ?_)⟩
  · rw [hcroft', hcroft]
  · constructor <;> simp
  · constructor <;> simp

/-- Settles O21. -/
theorem recordsArePromotedAndMerged : Obligations.RecordsArePromotedAndMerged := by
  unfold Obligations.RecordsArePromotedAndMerged
  refine ⟨⟨?promotion, ?mergeStart, ?mergeEnd⟩, ?partStart, ?partEnd⟩
  case promotion => exact fun s w r hi hclock hfind => promotion_ends hi hclock hfind
  case mergeStart => exact fun s c r rs hleat hp hparts hm hreset hclock => merge_starts hleat hp hparts hm hreset hclock
  case mergeEnd => exact fun s c r rs hi hclock hleat hm hnan hy hon hnone => merge_ends hi hclock hleat hm hnan hy hon hnone
  case partStart =>
    exact fun s c e rest d hidle hescs hfind hi hclock hfree hreset hbank hfp =>
      ⟨_, part_starts hidle hescs hfind hi hclock hfree hreset hbank hfp, partTaken_run ..⟩
  case partEnd => exact fun s c e r hi hclock hnow hfind hp => part_ends hi hclock hnow hfind hp

end Sys2Proof.Machine
end

open Host
section
/-! O20: slice-draws end (R81, R93 to R96, R120, R124 to R128, R132). -/
namespace Sys2Proof.Machine

theorem onReg_runRegs {c i : Nat} {r : Run} (hi : i < r.args.wells.length) {fs : List Fld} {f : Fld} (hf : f ∈ fs) :
    onReg (runRegs c r fs) (pgWell (r.well c i)) f.off := by
  rw [Run.well, List.getD_eq_getElem _ _ hi]
  exact onReg_someRegs (List.mem_map_of_mem (f := fun x => (pgWell (c * 16 + x), fs)) (List.getElem_mem hi)) hf

theorem theRegs_runRegs {c i : Nat} {r : Run} (hi : i < r.args.wells.length) {fs : List Fld} : ∀ a, theRegs (pgWell (r.well c i)) fs a → runRegs c r fs a := by
  rintro _ ⟨f, hf, rfl⟩
  exact onReg_runRegs hi hf

/-- A register that a run's frame does not name. -/
theorem not_runRegs {c o : Nat} {r : Run} {fs : List Fld} (h : o ∉ fs.map Fld.off) (ho : o < 0x1000) (hfs : ∀ f ∈ fs, f.off < 0x1000)
    {p : Page} : ¬ runRegs c r fs (p.base + o) := by
  rintro ⟨x, hx, f, hf, e⟩
  obtain ⟨y, -, rfl⟩ := List.mem_map.1 hx
  exact apart_ne (by simpa [ho, hfs f hf] using .inl fun e => h (e ▸ List.mem_map_of_mem hf)) e

theorem Run.clips_lt {r : Run} {codes : List (List Int)} {i : Nat} (h : i ∈ r.clips codes) : i < r.args.wells.length := by
  simp only [Run.clips, Run.reads, List.mem_filter, List.mem_range] at h
  exact h.1.1

theorem Run.clips_nodup (r : Run) (codes : List (List Int)) : (r.clips codes).Nodup := (List.nodup_range.filter _).filter _

theorem Run.quarterReads_sub {r : Run} {i : Nat} (h : i ∈ r.quarterReads) : i ∈ r.quartering := (List.mem_filter.1 h).1

/-- The counters of several wells of a run advance. -/
theorem run_counts {r : Run} (hr : r.args.wells.Nodup) (c : Nat) {l : List Nat} (hl : l.Nodup) (hlt : ∀ i ∈ l, i < r.args.wells.length)
    {f : Fld} (hf : f.off < 0x1000) (n : Nat → Nat) (s : State) {i : Nat} (hi : i ∈ l) :
    Counts s ((Prog.each l (fun j => bumpBy (pgWell (r.well c j)) f (n j))).run s) (pgWell (r.well c i)) f (n i) :=
  each_bumpBy_run hl n (fun x hx y hy hne => by simp [hf, Run.well_ne hr c (hlt x hx) (hlt y hy) hne]) s hi

/-- Counting on wells of a run leaves every other register. -/
theorem run_counts_reg (r : Run) (c : Nat) (l : List Nat) {f : Fld} (n : Nat → Nat) (s : State) {q : Page} {o : Nat} (ho : o < 0x1000)
    (hf : f.off < 0x1000) (h : o ≠ f.off) : ((Prog.each l (fun j => bumpBy (pgWell (r.well c j)) f (n j))).run s).reg q o = s.reg q o :=
  each_reg_apart (P := fun j => pgWell (r.well c j)) (fs := [f]) (fun _ _ u => Prog.keeps (by simp) u)
    (fun j _ g hg => by simp [List.mem_singleton.1 hg, ho, hf, h]) s

theorem run_counts_only {T : Touch} {r : Run} {c : Nat} {l : List Nat} {fs : List Fld} (hT : ∀ a, runRegs c r fs a → T.regs a)
    (hlt : ∀ i ∈ l, i < r.args.wells.length) {f : Fld} (hf : f ∈ fs) (n : Nat → Nat) :
    (Prog.each l (fun j => bumpBy (pgWell (r.well c j)) f (n j))).Only T.allows :=
  (Prog.only_each ..).2 fun i hi => (bumpBy_allows ..).2 (hT _ (onReg_runRegs (hlt i hi) hf))

/-- A run whose slice-draw clipped, and one with a quarter drawn. -/
def Run.clipped (r : Run) (codes : List (List Int)) : Run :=
  { r with
    part := r.slicePart codes, inSlot := false, quarter := some 0, quartering := r.clips codes, status := r.status ||| 8 }
def Run.quartered (r : Run) (codes : List (List Int)) (q : Nat) : Run :=
  { r with part := r.quarterPart codes, inSlot := false, quarter := some (q + 1) }

/-- What a slice-draw's end counts on the wells of its run, and a quarter's. -/
def sliceCounts (c : Nat) (r : Run) (codes : List (List Int)) : Prog := .all [
  Prog.each (List.range r.args.wells.length) (fun i => bumpBy (pgWell (r.well c i)) R.well_DRAW_CNT 1),
  Prog.each (r.clips codes) (fun i => bumpBy (pgWell (r.well c i)) R.well_QUARTER_CNT 1)]
def quarterCounts (c : Nat) (r : Run) (codes : List (List Int)) : Prog := .all [
  Prog.each r.quartering (fun i => bumpBy (pgWell (r.well c i)) R.well_DRAW_CNT 1),
  Prog.each r.quarterReads (fun i => bumpBy (pgWell (r.well c i)) R.well_QSAT_CNT
    ((codesAt codes i).filter (fun x => decide (512 < x.natAbs))).length)]

section
variable {s : State} {w : WellId} {r : Run} {codes : List (List Int)}

theorem exec_drawSliceEnd (hr : s.runOf w.val = some r) (hs : r.inSlot = true) (hq : r.quarter = none) :
    exec (.drawSliceEnd w codes) s = .next ((if (r.clips codes).isEmpty then sliceDrawEnds (w.val / 16) { r with part := r.slicePart codes }
      else putRun (w.val / 16) (r.clipped codes) : Prog).run ((sliceCounts (w.val / 16) r codes).run s)) := by
  show execDrawSliceEnd w codes s = _
  simp only [execDrawSliceEnd, Prog.next_eq, Prog.run_get, hr, hs, hq, Option.isSome_none, Bool.not_true, Bool.or_self, Bool.false_eq_true,
    if_false, Prog.run_all_cons, Prog.run_all_nil, sliceCounts, bump, Run.clipped]

theorem exec_drawQuarterEnd {q : Nat} (hr : s.runOf w.val = some r) (hs : r.inSlot = true) (hq : r.quarter = some q) :
    exec (.drawQuarterEnd w codes) s = .next ((if q < 3 then putRun (w.val / 16) (r.quartered codes q)
      else sliceDrawEnds (w.val / 16) { r with part := r.quarterPart codes } : Prog).run ((quarterCounts (w.val / 16) r codes).run s)) := by
  show execDrawQuarterEnd w codes s = _
  simp only [execDrawQuarterEnd, Prog.next_eq, Prog.run_get, hr, hs, hq, Prog.run_all_cons, Prog.run_all_nil, quarterCounts, bump,
    Run.quartered]

end

theorem sliceCounts_only {T : Touch} {c : Nat} {r : Run} {codes : List (List Int)} {fs : List Fld} (hT : ∀ a, runRegs c r fs a → T.regs a)
    (hd : R.well_DRAW_CNT ∈ fs) (hq : R.well_QUARTER_CNT ∈ fs ∨ r.clips codes = []) : (sliceCounts c r codes).Only T.allows := by
  simp only [sliceCounts, Prog.only_all_cons, Prog.only_all_nil, and_true]
  refine ⟨run_counts_only hT (fun i hi => List.mem_range.1 hi) hd _, ?_⟩
  rcases hq with hq | hq
  · exact run_counts_only hT (fun i => Run.clips_lt) hq _
  · simp [hq]

theorem quarterCounts_only {T : Touch} {c : Nat} {r : Run} {codes : List (List Int)} {fs : List Fld} (hT : ∀ a, runRegs c r fs a → T.regs a)
    (hd : R.well_DRAW_CNT ∈ fs) (hq : R.well_QSAT_CNT ∈ fs) (hlt : ∀ i ∈ r.quartering, i < r.args.wells.length) :
    (quarterCounts c r codes).Only T.allows := by
  simp only [quarterCounts, Prog.only_all_cons, Prog.only_all_nil, and_true]
  exact ⟨run_counts_only hT hlt hd _, run_counts_only hT (fun i hi => hlt i (Run.quarterReads_sub hi)) hq _⟩

theorem sliceCounts_croft (c : Nat) (r : Run) (codes : List (List Int)) (s : State) (k : Nat) :
    ((sliceCounts c r codes).run s).croft k = s.croft k :=
  (Prog.keeps (T := { regs := runRegs c r [R.well_DRAW_CNT, R.well_QUARTER_CNT] })
    (sliceCounts_only (fun _ => id) (by simp) (.inl (by simp))) s).crofts k id

theorem quarterCounts_croft {r : Run} (hlt : ∀ i ∈ r.quartering, i < r.args.wells.length) (c : Nat) (codes : List (List Int)) (s : State)
    (k : Nat) : ((quarterCounts c r codes).run s).croft k = s.croft k :=
  (Prog.keeps (T := { regs := runRegs c r [R.well_DRAW_CNT, R.well_QSAT_CNT] })
    (quarterCounts_only (fun _ => id) (by simp) (by simp) hlt) s).crofts k id

theorem putRun_reg (c : Nat) (r : Run) (s : State) (p : Page) (o : Nat) : ((putRun c r).run s).reg p o = s.reg p o :=
  (Prog.keeps (T := { crofts := fun _ => True }) (by simp) s).reg_eq id

/-- Each well of the run counts its slice-draw, and a clip those that clipped. -/
theorem sliceCounts_run {r : Run} (h : r.args.wells.Nodup) (c : Nat) (codes : List (List Int)) (s : State) {i : Nat}
    (hi : i < r.args.wells.length) :
    let t := (sliceCounts c r codes).run s
    Counts s t (pgWell (r.well c i)) R.well_DRAW_CNT 1 ∧
    Counts s t (pgWell (r.well c i)) R.well_QUARTER_CNT (if i ∈ r.clips codes then 1 else 0) := by
  have hdraw := run_counts h c (l := List.range r.args.wells.length) List.nodup_range (fun i hi => List.mem_range.1 hi)
    (f := R.well_DRAW_CNT) (by decide) (fun _ => 1) s (List.mem_range.2 hi)
  have hother := run_counts_reg r c (List.range r.args.wells.length) (f := R.well_DRAW_CNT) (fun _ => 1) s
    (q := pgWell (r.well c i)) (o := R.well_QUARTER_CNT.off) (by decide) (by decide) (by decide)
  simp only [sliceCounts, Prog.run_all_cons, Prog.run_all_nil]
  refine ⟨(run_counts_reg (f := R.well_QUARTER_CNT) _ _ _ _ _ (by decide) (by decide) (by decide)).trans hdraw, ?_⟩
  by_cases hc : i ∈ r.clips codes
  · rw [if_pos hc]
    exact (run_counts h c (Run.clips_nodup r codes) (fun i => Run.clips_lt) (by decide) (fun _ => 1) _ hc).trans (congrArg (satAdd · 1) hother)
  · rw [if_neg hc, Counts, satAdd_zero]
    refine (each_reg_apart (P := fun j => pgWell (r.well c j)) (fs := [R.well_QUARTER_CNT]) (fun _ _ u => Prog.keeps (by simp) u)
      (fun j hj g hg => ?_) _).trans hother
    have hne := Run.well_ne h c hi (Run.clips_lt hj) fun e => hc (e ▸ hj)
    simp [List.mem_singleton.1 hg, hne]

/-- Each well that drew the quarter counts it, and the codes of each that counts it are counted where they were beyond. -/
theorem quarterCounts_run {r : Run} (h : r.args.wells.Nodup) (hn : r.quartering.Nodup) (hlt : ∀ i ∈ r.quartering, i < r.args.wells.length)
    (c : Nat) (codes : List (List Int)) (s : State) :
    let t := (quarterCounts c r codes).run s
    (∀ i ∈ r.quartering, Counts s t (pgWell (r.well c i)) R.well_DRAW_CNT 1) ∧
    (∀ i ∈ r.quarterReads, Counts s t (pgWell (r.well c i)) R.well_QSAT_CNT
      ((codesAt codes i).filter (fun x => decide (512 < x.natAbs))).length) := by
  simp only [quarterCounts, Prog.run_all_cons, Prog.run_all_nil]
  have hqsat (i o : Nat) (ho : o < 0x1000) (h : o ≠ R.well_QSAT_CNT.off) (u : State) := run_counts_reg r c r.quarterReads
    (f := R.well_QSAT_CNT) (fun i => ((codesAt codes i).filter (fun x => decide (512 < x.natAbs))).length) u
    (q := pgWell (r.well c i)) ho (by decide) h
  have hdraw (i o : Nat) (ho : o < 0x1000) (h : o ≠ R.well_DRAW_CNT.off) := run_counts_reg r c r.quartering
    (f := R.well_DRAW_CNT) (fun _ => 1) s (q := pgWell (r.well c i)) ho (by decide) h
  refine ⟨fun i hi => ?_, fun i hi => ?_⟩
  · exact (hqsat i _ (by decide) (by decide) _).trans (run_counts h c hn hlt (by decide) (fun _ => 1) s hi)
  · have hcount := run_counts h c (hn.filter _) (fun i hi => hlt i (Run.quarterReads_sub hi)) (f := R.well_QSAT_CNT) (by decide)
      (fun i => ((codesAt codes i).filter (fun x => decide (512 < x.natAbs))).length)
      ((Prog.each r.quartering (fun i => bumpBy (pgWell (r.well c i)) R.well_DRAW_CNT 1)).run s) hi
    rwa [Counts, hdraw i _ (by decide) (by decide)] at hcount

/-- The wells' last codes are kept, but for those held and those that do not read. -/
def lastCodes (s : State) (c : Nat) (r : Run) : Prog :=
  Prog.each ((List.range r.args.wells.length).filter (fun i => !((s.afterSlot c r).held.contains i || r.idle i || r.edge.nan || r.edge.zero)))
    (fun i => modWell (r.well c i) (fun k => { k with last := r.part.getD i noCodes }))

/-- Wells newly stale are counted. -/
def staleCounts (s : State) (c : Nat) (r : Run) : Prog :=
  Prog.each (s.newStale c r) (fun i => bumpBy (pgWell (r.well c i)) R.well_STALE_CNT 1)

/-- The failing wells of a slice whose last repeat has ended. -/
def sliceFails (s : State) (c : Nat) (r : Run) : List (Nat × List Int) :=
  if (s.afterSlot c r).rep = (s.afterSlot c r).nrep then s.confFails c (s.afterSlot c r) (s.afterSlot c r).nrep else []

/-- A slice whose last repeat has ended: its check, and what follows it. -/
def sliceChecked (s : State) (c : Nat) (r : Run) (fails : List (Nat × List Int)) : Prog :=
  let r1 := s.afterSlot c r
  let r2 := (r1.failing (fails.map (·.1))).nextSlice
  .all [
    Prog.when (decide (r1.nrep = 1)) (Prog.each fails (fun f => bump (pgWell (r.well c f.1)) R.well_CONF_FAIL_CNT)),
    if r1.nrep = 1 ∧ !fails.isEmpty ∧ s.fld (pgWell (r.well c 0)) R.well_DRAWCFG_AVG ≠ 0 then
      .all [bump (pgWell (r.well c 0)) R.well_REPEAT_CNT, putRun c (r1.averaging (s.fld (pgWell (r.well c 0)) R.well_DRAWCFG_AVG))]
    else .all [
      confEscalate c r1 r1.nrep (decide (r1.nrep ≠ 1)) fails,
      if s.fld (pgWell (r.well c 0)) R.well_DRAWCFG_SLICES ≤ r2.slice then drawEnds c r2 else putRun c r2]]

/-- What follows the codes of a slice-draw that has ended. -/
def sliceRest (s : State) (c : Nat) (r : Run) : Prog :=
  if !(s.staleFaults c r).isEmpty then runFault c r ((s.staleFaults c r).map (fun i => (r.well c i, 6, s.orderOffset c r.idx)))
  else if (s.afterSlot c r).rep < (s.afterSlot c r).nrep then putRun c (s.afterSlot c r)
  else sliceChecked s c r (sliceFails s c r)

theorem sliceDrawEnds_run (c : Nat) (r : Run) (s : State) : (sliceDrawEnds c r).run s =
    (sliceRest s c r).run ((staleCounts s c r).run ((lastCodes s c r).run s)) := by
  simp only [sliceDrawEnds, Prog.run_get, Prog.run_all_cons, Prog.run_all_nil, sliceRest, staleCounts, lastCodes, sliceChecked, sliceFails, bump]
  rfl

/-- What is read of the wells of a run is not what a slice-draw's end counts. -/
theorem slice_reads {s u : State} {c : Nat} {r0 : Run} (h : Keeps { regs := runRegs c r0 [R.well_DRAW_CNT, R.well_QSAT_CNT] } s u) (r : Run) :
    u.newStale c r = s.newStale c r ∧ u.staleFaults c r = s.staleFaults c r ∧ u.afterSlot c r = s.afterSlot c r ∧
    (∀ n, u.confFails c r n = s.confFails c r n) := by
  have hreg (p : Page) {o : Nat} (ho : o < 0x1000) (hn : o ∉ [R.well_DRAW_CNT.off, R.well_QSAT_CNT.off]) : u.reg p o = s.reg p o :=
    h.reg_eq (not_runRegs hn ho (by decide))
  have hfld (p : Page) (f : Fld) (ho : f.off < 0x1000) (hn : f.off ∉ [R.well_DRAW_CNT.off, R.well_QSAT_CNT.off]) : u.fld p f = s.fld p f :=
    h.fld_eq (not_runRegs hn ho (by decide))
  have hwell (g : Nat) : u.well g = s.well g := h.wells g id
  have hstale (g : Nat) : u.bit (pgWell g) R.well_STATUS_STALE = s.bit (pgWell g) R.well_STATUS_STALE := by
    simp only [State.bit, State.fld_eq, hreg (pgWell g) (o := R.well_STATUS_STALE.off) (by decide) (by decide)]
  have hact (g : Nat) : u.bit (pgWell g) R.well_RETCFG_STALE_ACT = s.bit (pgWell g) R.well_RETCFG_STALE_ACT := by
    simp only [State.bit, State.fld_eq, hreg (pgWell g) (o := R.well_RETCFG_STALE_ACT.off) (by decide) (by decide)]
  have hcal (g : Nat) : u.calibrating g = s.calibrating g := by
    simp only [State.calibrating, State.bit, State.fld_eq, hreg (pgWell g) (o := R.well_CAL_STATUS_WINDOW.off) (by decide) (by decide)]
  have hpass (g n : Nat) (ds : List Int) : u.confPass g n ds = s.confPass g n ds := by
    unfold State.confPass
    rw [hfld (pgWell g) R.well_CONFCFG_TOL_Q (by decide) (by decide), hfld (pgWell g) R.well_CONFCFG_TOL_R (by decide) (by decide)]
  have hnew : u.newStale c r = s.newStale c r := by simp only [State.newStale, hstale]
  refine ⟨hnew, by simp only [State.staleFaults, hnew, hact], by simp only [State.afterSlot, State.heldNow, hnew, hcal], fun n => ?_⟩
  simp only [State.confFails, hwell, hpass]

theorem sliceRest_congr {s u : State} {c : Nat} {r0 : Run} (h : Keeps { regs := runRegs c r0 [R.well_DRAW_CNT, R.well_QSAT_CNT] } s u)
    (r : Run) : lastCodes u c r = lastCodes s c r ∧ staleCounts u c r = staleCounts s c r ∧ sliceRest u c r = sliceRest s c r := by
  have hfld (p : Page) (f : Fld) (ho : f.off < 0x1000) (hn : f.off ∉ [R.well_DRAW_CNT.off, R.well_QSAT_CNT.off]) : u.fld p f = s.fld p f :=
    h.fld_eq (not_runRegs hn ho (by decide))
  obtain ⟨hnew, hfaults, hafter, -⟩ := slice_reads h r
  obtain ⟨-, -, -, hfails⟩ := slice_reads h (s.afterSlot c r)
  have hoff : u.orderOffset c r.idx = s.orderOffset c r.idx := by
    rw [orderOffset_eq, orderOffset_eq, hfld _ _ (by decide) (by decide)]
  refine ⟨by simp only [lastCodes, hafter], by simp only [staleCounts, hnew], ?_⟩
  have hchecked (fails : List (Nat × List Int)) : sliceChecked u c r fails = sliceChecked s c r fails := by
    unfold sliceChecked
    rw [hafter, hfld _ R.well_DRAWCFG_AVG (by decide) (by decide), hfld _ R.well_DRAWCFG_SLICES (by decide) (by decide)]
  have hfails' : sliceFails u c r = sliceFails s c r := by
    unfold sliceFails
    rw [hafter, hfails]
  unfold sliceRest
  rw [hfaults, hafter, hfails', hchecked, hoff]

theorem inRun_well {r : Run} {c i : Nat} (hi : i < r.args.wells.length) : inRun c r (r.well c i) :=
  ⟨r.args.wells[i], List.getElem_mem hi, by rw [Run.well, List.getD_eq_getElem _ _ hi]⟩

theorem newStale_lt {s : State} {c i : Nat} {r : Run} (h : i ∈ s.newStale c r) : i < r.args.wells.length :=
  List.mem_range.1 (List.mem_filter.1 h).1

/-- The frame of what a slice-draw's end does to its wells before the run goes on. -/
def sliceTouch (c : Nat) (r : Run) : Touch :=
  { regs := runRegs c r [R.well_DRAW_CNT, R.well_QSAT_CNT, R.well_STALE_CNT], wells := inRun c r }

/-- The wells keep their codes and count staleness. -/
theorem lastAndStale_run {s u : State} {c : Nat} {r : Run} (h : r.args.wells.Nodup) :
    let v := (staleCounts s c r).run ((lastCodes s c r).run u)
    Keeps (sliceTouch c r) u v ∧ (∀ k ∈ s.newStale c r, Counts u v (pgWell (r.well c k)) R.well_STALE_CNT 1) ∧
    (∀ k ∈ r.reads, k ∉ (s.afterSlot c r).held → (v.well (r.well c k)).last = r.part.getD k noCodes) ∧
    (∀ k < r.args.wells.length, k ∈ (s.afterSlot c r).held → v.well (r.well c k) = u.well (r.well c k)) := by
  have hlast : (lastCodes s c r).Only (sliceTouch c r).allows :=
    (Prog.only_each ..).2 fun i hi => (modWell_allows ..).2 (inRun_well (List.mem_range.1 (List.mem_filter.1 hi).1))
  have hstale : (staleCounts s c r).Only (sliceTouch c r).allows :=
    run_counts_only (fun _ => id) (fun i => newStale_lt) (by simp) _
  have hcount (w : State) := (Prog.keeps (T := { regs := fun _ => True }) (p := staleCounts s c r) (by simp [staleCounts, onReg]) w).wells
  have hloop {x : Nat} := each_well (x := x) (l := (List.range r.args.wells.length).filter
      (fun i => !((s.afterSlot c r).held.contains i || r.idle i || r.edge.nan || r.edge.zero))) (List.nodup_range.filter _)
    (f := fun i => modWell (r.well c i) (fun k => { k with last := r.part.getD i noCodes })) (W := r.well c) (fs := [])
    (fun i _ u => Prog.keeps (by simp [wellTouch]) u) (by simp)
    (fun i hi j hj hij => Run.well_ne h c (List.mem_range.1 (List.mem_filter.1 hi).1) (List.mem_range.1 (List.mem_filter.1 hj).1) hij) u
  refine ⟨(Prog.keeps hlast u).trans (Prog.keeps hstale _), fun k hk => ?_, fun k hk hn => ?_, fun k hk hh => ?_⟩
  · refine (run_counts h c (List.nodup_range.filter _) (fun i => newStale_lt) (by decide) (fun _ => 1) _ hk).trans (congrArg (satAdd · 1) ?_)
    exact (Prog.keeps (T := { wells := fun _ => True }) (p := lastCodes s c r) (by simp [lastCodes]) u).reg_eq id
  · obtain ⟨hlt, hidle⟩ := List.mem_filter.1 hk
    obtain ⟨a, b, -, rfl, -, hb⟩ := hloop (List.mem_filter.2 ⟨hlt, by simpa [hn] using hidle⟩)
    rw [hcount _ _ id, lastCodes, hb]
    simp [modWell]
  · rw [hcount _ _ id]
    refine (each_wells_apart (W := r.well c) (fs := []) (fun i _ u => Prog.keeps (by simp [wellTouch]) u) (by simp) (fun i hi => ?_) u).2
    have hi' := List.mem_filter.1 hi
    exact Run.well_ne h c (List.mem_range.1 hi'.1) hk fun e => by simp [e, hh] at hi'

/-- A slice-draw that ends leaves its wells' counts, staleness and last codes; the run goes on by what stood before. -/
theorem exec_sliceEnds {s : State} {w : WellId} {codes : List (List Int)} {r : Run} {i : Instr} {part : List (List Int)}
    (hr : s.runOf w.val = some r) (hs : r.inSlot = true) (hlt : ∀ k ∈ r.quartering, k < r.args.wells.length)
    (hi : (r.quarter = none ∧ i = .drawSliceEnd w codes ∧ r.clips codes = [] ∧ part = r.slicePart codes) ∨
      (r.quarter = some 3 ∧ i = .drawQuarterEnd w codes ∧ part = r.quarterPart codes)) :
    ∃ u, exec i s = .next ((sliceRest s (w.val / 16) { r with part := part }).run ((staleCounts s (w.val / 16) { r with part := part }).run
      ((lastCodes s (w.val / 16) { r with part := part }).run u))) ∧
      Keeps { regs := runRegs (w.val / 16) r [R.well_DRAW_CNT, R.well_QSAT_CNT] } s u := by
  rcases hi with ⟨hq, rfl, hc, rfl⟩ | ⟨hq, rfl, rfl⟩
  · have hkeep := Prog.keeps (T := { regs := runRegs (w.val / 16) r [R.well_DRAW_CNT, R.well_QSAT_CNT] })
      (sliceCounts_only (codes := codes) (fun _ => id) (by simp) (.inr hc)) s
    obtain ⟨hl, hst, hrest⟩ := sliceRest_congr hkeep { r with part := r.slicePart codes }
    refine ⟨_, ?_, hkeep⟩
    rw [exec_drawSliceEnd hr hs hq, if_pos (by simp [hc]), sliceDrawEnds_run, hl, hst, hrest]
  · have hkeep := Prog.keeps (T := { regs := runRegs (w.val / 16) r [R.well_DRAW_CNT, R.well_QSAT_CNT] })
      (quarterCounts_only (codes := codes) (fun _ => id) (by simp) (by simp) hlt) s
    obtain ⟨hl, hst, hrest⟩ := sliceRest_congr hkeep { r with part := r.quarterPart codes }
    refine ⟨_, ?_, hkeep⟩
    rw [exec_drawQuarterEnd hr hs hq, if_neg (by decide), sliceDrawEnds_run, hl, hst, hrest]

theorem endDraw_only {T : Touch} {c serial d : Nat} {ws : List Nat} (hc : T.crofts c)
    (hp : ∀ g, onReg T.regs (pgPump g) R.pump_STATUS_ESCALATING.off) (hw : ∀ g, onReg T.regs (pgWell g) R.well_STATUS_DRAWING.off)
    (hm : onReg T.regs (pgMill c) R.mill_LEAT_STATUS_QUEUED.off) : (endDraw c serial d ws).Only T.allows := by
  simp [endDraw, Prog.only_when, setDrawing, leatStatus, hc, hp, hw, hm]

/-- The records of a draw that ends leave the croft; where the escalation pump computes a part of it (`parted`), pump `g` lets it go. -/
def dropDraw (c serial d g : Nat) (parted : Bool) : Prog := .all [
  modCroft c (fun k => { k with
    runs := k.runs.filter (fun r => r.serial != serial)
    leat := k.leat.filter (fun r => !(r.serial == serial && decide (d ≤ r.draw)))
    escs := k.escs.filter (fun e => !(e.serial == serial && decide (d ≤ e.draw)))
    escNow := if parted then none else k.escNow }),
  Prog.when parted (.all [setFld (pgPump g) R.pump_STATUS_ESCALATING 0, setFld (pgPump g) R.pump_STATUS_HELD 0])]

theorem endDraw_run_eq (c serial d : Nat) (ws : List Nat) (s : State) : ∃ g parted, (endDraw c serial d ws).run s =
    (dropOrder c serial).run ((leatStatus c).run ((setDrawing c ws false).run ((dropDraw c serial d g parted).run s))) := by
  refine ⟨c * 4 + s.escPump c, match (s.croft c).escNow with | some e => decide (e.serial = serial ∧ d ≤ e.draw) | none => false, ?_⟩
  simp -implicitDefEqProofs only [endDraw, dropDraw, Prog.run_get, Prog.run_all_cons, Prog.run_all_nil] <;> rfl

theorem dropDraw_croft (c serial d g : Nat) (parted : Bool) (s : State) :
    (((dropDraw c serial d g parted).run s).croft c).runs = (s.croft c).runs.filter (fun r => r.serial != serial) ∧
    (((dropDraw c serial d g parted).run s).croft c).reeve = (s.croft c).reeve := by
  cases parted <;> exact ⟨by simp -implicitDefEqProofs [dropDraw, modCroft], by simp -implicitDefEqProofs [dropDraw, modCroft]⟩

/-- The end of a draw takes its run and its order away, and its wells leave DRAWING. -/
theorem endDraw_run (c serial d : Nat) (ws : List Nat) (s : State) :
    let t := (endDraw c serial d ws).run s
    (∀ x ∈ (t.croft c).runs, x.serial ≠ serial) ∧ (∀ o ∈ (t.reeve c).orders, o.serial ≠ serial) ∧
    (t.reeve c).halting = (s.reeve c).halting ∧ (∀ x ∈ ws, t.bit (pgWell (c * 16 + x)) R.well_STATUS_DRAWING = false) := by
  obtain ⟨g, parted, hrun⟩ := endDraw_run_eq c serial d ws s
  obtain ⟨hruns, hreeve⟩ := dropDraw_croft c serial d g parted s
  rw [hrun]
  generalize (dropDraw c serial d g parted).run s = v at *
  have hkeep : Keeps { regs := fun _ => True } v ((leatStatus c).run ((setDrawing c ws false).run v)) :=
    (Prog.keeps (by simp [setDrawing, onReg]) v).trans (Prog.keeps (by simp [leatStatus, onReg]) _)
  have hdrop (u : State) : ((dropOrder c serial).run u).croft c = { u.croft c with reeve := (u.croft c).reeve.ended serial } := by
    simp [dropOrder, modReeve, modCroft, Reeve.ended]
  refine ⟨fun x hx => ?_, fun o ho => ?_, ?_, fun x hx => ?_⟩
  · rw [hdrop, hkeep.crofts c id, hruns] at hx
    simpa using (List.mem_filter.1 hx).2
  · rw [State.reeve_eq, hdrop, Reeve.ended] at ho
    simpa using (List.mem_filter.1 ho).2
  · rw [State.reeve_eq, hdrop, hkeep.crofts c id, hreeve]
    rfl
  · have hlast (u : State) : ((dropOrder c serial).run ((leatStatus c).run u)).bit (pgWell (c * 16 + x)) R.well_STATUS_DRAWING =
        u.bit (pgWell (c * 16 + x)) R.well_STATUS_DRAWING := by
      simp -implicitDefEqProofs [leatStatus, dropOrder, modReeve, modCroft]
    rw [hlast, setDrawing_bit, if_pos hx]

/-- A well of a run faults, and raises its line. -/
def wellFaults (c : Nat) (r : Run) (cause off i : Nat) : Prog :=
  .all [pageFault (pgWell (r.well c i)) cause (sliceAddr c off), raiseLine (pgWell (r.well c i))]

/-- Several wells of a run fault: each page names its cause, and the order's fault ends the DRAW. -/
theorem runFault_run {r : Run} (h : r.args.wells.Nodup) (c : Nat) {l : List Nat} (hl : l.Nodup) (hlt : ∀ i ∈ l, i < r.args.wells.length)
    {cause : Nat} (hc : cause < 2 ^ 32) (off : Nat) (s : State) :
    let t := (runFault c r (l.map (fun i => (r.well c i, cause, off)))).run s
    (∀ k ∈ l, Faults s t (pgWell (r.well c k)) cause) ∧ Halts s t c ∧ t.dev.stepEnd = true ∧ (∀ x ∈ (t.croft c).runs, x.serial ≠ r.serial) ∧
    (∀ o ∈ (t.reeve c).orders, o.serial ≠ r.serial) ∧
    (∀ x ∈ r.args.wells, t.bit (pgWell (c * 16 + x)) R.well_STATUS_DRAWING = false) ∧ ∀ a, t.byte a = s.byte a := by
  have hoff : ∀ f ∈ faultRegs, f.off < 0x1000 ∧ f.off ≠ 0x50 ∧ 0x50 ≠ f.off := by decide
  have hkeeps : ∀ i ∈ l, ∀ u, Keeps (wellTouch (r.well c i) faultRegs) u ((wellFaults c r cause off i).run u) :=
    fun i _ u => Prog.keeps (by simp [wellFaults, wellTouch, faultRegs]) u
  have hrun : (runFault c r (l.map (fun i => (r.well c i, cause, off)))).run s =
      (endDraw c r.serial r.draw r.args.wells).run ((orderFault c r.idx 1).run ((Prog.each l (wellFaults c r cause off)).run s)) := by
    simp -implicitDefEqProofs only [runFault, Prog.run_all_cons, Prog.run_all_nil, each_map]
    rfl
  have hfaults (k : Nat) (hk : k ∈ l) : Faults s ((Prog.each l (wellFaults c r cause off)).run s) (pgWell (r.well c k)) cause := by
    obtain ⟨u, v, ⟨hu, -⟩, rfl, hv, -⟩ := each_well hl hkeeps (by decide)
      (fun i hi j hj hij => Run.well_ne h c (hlt i hi) (hlt j hj) hij) s hk
    exact (pageFault_faults _ hc _ u).congr hu hv
  have hrunning : ((Prog.each l (wellFaults c r cause off)).run s).running c = s.running c :=
    Keeps.bit_eq (T := allBut (pgReeve c) R.reeve_STATUS_RUNNING.off) (Prog.keeps (by simp [wellFaults]) s) (by simp [allBut])
  have hmem : Keeps { regs := fun _ => True, dev := True } s ((Prog.each l (wellFaults c r cause off)).run s) :=
    Prog.keeps (by simp [wellFaults, onReg]) s
  rw [hrun]
  generalize (Prog.each l (wellFaults c r cause off)).run s = u at *
  obtain ⟨-, -, hstep⟩ := orderFault_run c r.idx 1 u
  have hhalts := orderFault_halts c r.idx 1 u
  have hfault : Keeps { regs := fun _ => True, crofts := (· = c), dev := True } u ((orderFault c r.idx 1).run u) :=
    Prog.keeps (by simp [onReg]) u
  have hwell (k : Nat) : ∀ f ∈ faultRegs, ((orderFault c r.idx 1).run u).reg (pgWell k) f.off = u.reg (pgWell k) f.off :=
    fun f hf => Keeps.reg_eq (T := allBut (pgWell k) f.off) (Prog.keeps (by simp [hoff f hf]) u) (by simp [allBut])
  generalize (orderFault c r.idx 1).run u = v at *
  obtain ⟨hruns, horders, hhalting, hdrawing⟩ := endDraw_run c r.serial r.draw r.args.wells v
  have hend : Keeps { regs := fun _ => True, crofts := (· = c) } v ((endDraw c r.serial r.draw r.args.wells).run v) :=
    Prog.keeps (endDraw_only rfl (by simp [onReg]) (by simp [onReg]) (by simp [onReg])) v
  have hwell' (k : Nat) : ∀ f ∈ faultRegs, ((endDraw c r.serial r.draw r.args.wells).run v).reg (pgWell k) f.off = v.reg (pgWell k) f.off := by
    intro f hf
    refine Keeps.reg_eq (T := allBut (pgWell k) f.off) (Prog.keeps (endDraw_only trivial ?_ ?_ ?_) v) (by simp [allBut])
    all_goals simp [hoff f hf]
  refine ⟨fun k hk => (hfaults k hk).congr (fun _ _ => rfl) fun f hf => (hwell' _ f hf).trans (hwell _ f hf), fun hr => ?_, ?_, hruns, horders,
    hdrawing, fun a => ?_⟩
  · rw [hhalting]
    exact hhalts (hrunning.trans hr)
  · rw [hend.dev id]
    exact hstep
  · exact (hend.mem a id).trans ((hfault.mem a id).trans (hmem.mem a id))

/-! ### Failed checks -/

theorem filterMap_places {α : Type} (p : Nat → Bool) (d : Nat → α) (l : List Nat) :
    (l.filterMap (fun i => if p i then none else some (i, d i))).map (·.1) = l.filter (fun i => !p i) := by
  induction l with
  | nil => rfl
  | cons i l ih => cases h : p i <;> simp [h, ih]

/-- The places that fail are different places of the run, and not held ones. -/
theorem confFails_places (s : State) (c : Nat) (r : Run) (n : Nat) :
    ((s.confFails c r n).map (·.1)).Nodup ∧ ∀ f ∈ s.confFails c r n, f.1 < r.args.wells.length ∧ f.1 ∉ r.held := by
  have hchecked : r.checked.Nodup ∧ ∀ i ∈ r.checked, i < r.args.wells.length ∧ i ∉ r.held := by
    unfold Run.checked
    split
    · simp
    · refine ⟨List.nodup_range.filter _, fun i hi => ?_⟩
      obtain ⟨hlt, hidle⟩ := List.mem_filter.1 hi
      exact ⟨List.mem_range.1 hlt, fun h => by simp [Run.idle, h] at hidle⟩
  have hplaces := filterMap_places (fun i => s.confPass (r.well c i) n (deviations (s.well (r.well c i)).resErr
    (r.edge.wells.getD i ⟨[], 0, [], []⟩).rows r.slice n (r.cur.getD i noCodes)))
    (fun i => deviations (s.well (r.well c i)).resErr (r.edge.wells.getD i ⟨[], 0, [], []⟩).rows r.slice n (r.cur.getD i noCodes)) r.checked
  change (s.confFails c r n).map (·.1) = _ at hplaces
  refine ⟨hplaces ▸ hchecked.1.filter _, fun f hf => hchecked.2 _ ?_⟩
  have := List.mem_map_of_mem (f := (·.1)) hf
  rw [hplaces] at this
  exact (List.mem_filter.1 this).1

theorem SameWell.bit_eq {g : Nat} {fs : List Fld} {s t : State} (h : SameWell g fs s t) {k : Fld} (hk : k ∈ fs) (f : Fld)
    (hf : f.off = k.off) : t.bit (pgWell g) f = s.bit (pgWell g) f := by
  rw [State.bit, State.bit, State.fld_eq, State.fld_eq, hf, h.1 k hk]

/-- A failed check is written to CONF_LAST. -/
theorem confLast_run (g k n : Nat) (summed : Bool) (ds : List Int) (s : State) :
    let t := (confLast g k n summed ds).run s
    t.bit (pgWell g) R.well_CONF_LAST_VALID = true ∧ Keeps (wellTouch g [R.well_CONF_LAST_VALID]) s t := by
  refine ⟨?_, Prog.keeps (by simp [confLast, wellTouch, Touch.allows]) s⟩
  have hseq (u : State) : ((eff .seq).run u).bit (pgWell g) R.well_CONF_LAST_VALID = u.bit (pgWell g) R.well_CONF_LAST_VALID := rfl
  rw [confLast, Prog.run_get]
  simp -implicitDefEqProofs only [Prog.run_all_cons, Prog.run_all_nil, hseq]
  simp -implicitDefEqProofs [State.bit]

/-- A well that fails its check is suspect for it. -/
theorem suspect_conf_run (g : Nat) (s : State) :
    let t := (suspect g R.well_SUSPECT_CAUSE_CONF).run s
    t.bit (pgWell g) R.well_STATUS_SUSPECT = true ∧ t.bit (pgWell g) R.well_SUSPECT_CAUSE_CONF = true ∧
    Keeps (wellTouch g [R.well_STATUS_SUSPECT, R.well_SUSPECT_CAUSE_CONF, R.well_SUSPECT_CNT, R.CRIER_LINE_RAISED]) s t := by
  refine ⟨?_, ?_, Prog.keeps (by simp [suspect, Prog.only_when, wellTouch]) s⟩
  · cases h : s.bit (pgWell g) R.well_STATUS_SUSPECT <;>
      simp -implicitDefEqProofs [suspect, h, modWell, tellWatch, modDev]
  · cases h : s.bit (pgWell g) R.well_STATUS_SUSPECT <;>
      simp -implicitDefEqProofs [suspect, h, modWell, tellWatch, modDev]

/-- The registers that a failed check changes. -/
def confRegs : List Fld := [R.well_STATUS_SUSPECT, R.well_SUSPECT_CAUSE_CONF, R.well_SUSPECT_CNT, R.CRIER_LINE_RAISED,
  R.well_CONF_LAST_VALID, R.well_ESC_CONF_CNT]

/-- A well fails its check on the last of its slice's draws. -/
def confBody (c : Nat) (r : Run) (n : Nat) (summed : Bool) (f : Nat × List Int) : Prog := .all [
  confLast (r.well c f.1) r.slice n summed f.2,
  Prog.when (!r.esc.contains f.1) (bumpBy (pgWell (r.well c f.1)) R.well_ESC_CONF_CNT 1),
  suspect (r.well c f.1) R.well_SUSPECT_CAUSE_CONF]

theorem confBody_run (c : Nat) (r : Run) (n : Nat) (summed : Bool) (f : Nat × List Int) (s : State) :
    let t := (confBody c r n summed f).run s
    let p := pgWell (r.well c f.1)
    t.bit p R.well_STATUS_SUSPECT = true ∧ t.bit p R.well_SUSPECT_CAUSE_CONF = true ∧ t.bit p R.well_CONF_LAST_VALID = true ∧
    Counts s t p R.well_ESC_CONF_CNT (if f.1 ∈ r.esc then 0 else 1) ∧ Keeps (wellTouch (r.well c f.1) confRegs) s t := by
  dsimp only
  rw [confBody, Prog.run_all_cons, Prog.run_all_cons, Prog.run_all_cons, Prog.run_all_nil]
  obtain ⟨hvalid, hlast⟩ := confLast_run (r.well c f.1) r.slice n summed f.2 s
  generalize (confLast (r.well c f.1) r.slice n summed f.2).run s = u at *
  have hcount : Counts u ((Prog.when (!r.esc.contains f.1) (bumpBy (pgWell (r.well c f.1)) R.well_ESC_CONF_CNT 1)).run u)
      (pgWell (r.well c f.1)) R.well_ESC_CONF_CNT (if f.1 ∈ r.esc then 0 else 1) := by
    by_cases h : f.1 ∈ r.esc <;> simp [h, Counts, satAdd_zero]
  have hbump : Keeps (wellTouch (r.well c f.1) [R.well_ESC_CONF_CNT]) u
      ((Prog.when (!r.esc.contains f.1) (bumpBy (pgWell (r.well c f.1)) R.well_ESC_CONF_CNT 1)).run u) :=
    Prog.keeps (by simp [Prog.only_when, wellTouch]) u
  generalize (Prog.when (!r.esc.contains f.1) (bumpBy (pgWell (r.well c f.1)) R.well_ESC_CONF_CNT 1)).run u = v at *
  obtain ⟨hsuspect, hcause, hkeep⟩ := suspect_conf_run (r.well c f.1) v
  refine ⟨hsuspect, hcause, ?_, ?_, (hlast.mono ?_).trans ((hbump.mono ?_).trans (hkeep.mono ?_))⟩
  · exact (hkeep.bit_eq (not_theRegs_offset (by decide) _)).trans ((hbump.bit_eq (not_theRegs_offset (by decide) _)).trans hvalid)
  · rw [Counts, hkeep.reg_eq (not_theRegs_offset (by decide) _), hcount, hlast.reg_eq (not_theRegs_offset (by decide) _)]
  all_goals
    constructor
    case regs => exact theRegs_sub (gs := confRegs) (by decide)
    all_goals simp [wellTouch]

/-- Wells that failed their checks. -/
structure Failed (s t : State) (c : Nat) (r : Run) (once : Bool) (f : Nat × List Int) : Prop where
  suspect : t.bit (pgWell (r.well c f.1)) R.well_STATUS_SUSPECT = true
  cause : t.bit (pgWell (r.well c f.1)) R.well_SUSPECT_CAUSE_CONF = true
  valid : t.bit (pgWell (r.well c f.1)) R.well_CONF_LAST_VALID = true
  fails : Counts s t (pgWell (r.well c f.1)) R.well_CONF_FAIL_CNT (if once then 1 else 0)
  escs : Counts s t (pgWell (r.well c f.1)) R.well_ESC_CONF_CNT (if f.1 ∈ r.esc then 0 else 1)

def confCounts (c : Nat) (r : Run) (once : Bool) (fails : List (Nat × List Int)) : Prog :=
  Prog.when once (Prog.each fails (fun f => bumpBy (pgWell (r.well c f.1)) R.well_CONF_FAIL_CNT 1))

section
variable {c : Nat} {r : Run} {fails : List (Nat × List Int)} (hr : r.args.wells.Nodup) (hn : (fails.map (·.1)).Nodup)
  (hlt : ∀ f ∈ fails, f.1 < r.args.wells.length)
include hr hn hlt

theorem confCounts_run (once : Bool) (s : State) :
    let t := (confCounts c r once fails).run s
    (∀ f ∈ fails, Counts s t (pgWell (r.well c f.1)) R.well_CONF_FAIL_CNT (if once then 1 else 0)) ∧
    Keeps { regs := runRegs c r [R.well_CONF_FAIL_CNT] } s t := by
  cases once with
  | false => exact ⟨fun f _ => (satAdd_zero _).symm, Keeps.refl _ s⟩
  | true =>
    rw [confCounts, Prog.run_when_true, ← each_map (·.1) fails (fun i => bumpBy (pgWell (r.well c i)) R.well_CONF_FAIL_CNT 1)]
    have hlt' : ∀ i ∈ fails.map (·.1), i < r.args.wells.length := by simpa using fun a b h => hlt (a, b) h
    exact ⟨fun f hf => run_counts hr c hn hlt' (by decide) (fun _ => 1) s (List.mem_map_of_mem hf),
      Prog.keeps (run_counts_only (fun _ => id) hlt' (by simp) _) s⟩

theorem confEscalate_run (n : Nat) (summed : Bool) (s : State) :
    let t := (confEscalate c r n summed fails).run s
    (∀ f ∈ fails, t.bit (pgWell (r.well c f.1)) R.well_STATUS_SUSPECT = true ∧ t.bit (pgWell (r.well c f.1)) R.well_SUSPECT_CAUSE_CONF = true ∧
      t.bit (pgWell (r.well c f.1)) R.well_CONF_LAST_VALID = true ∧
      Counts s t (pgWell (r.well c f.1)) R.well_ESC_CONF_CNT (if f.1 ∈ r.esc then 0 else 1)) ∧
    (∀ g, (∀ f ∈ fails, r.well c f.1 ≠ g) → t.well g = s.well g) ∧
    Keeps { regs := runRegs c r confRegs, wells := inRun c r, dev := True, seq := True } s t := by
  have hbody : ∀ f ∈ fails, ∀ u, Keeps (wellTouch (r.well c f.1) confRegs) u ((confBody c r n summed f).run u) :=
    fun f _ u => (confBody_run c r n summed f u).2.2.2.2
  have hne : ∀ f ∈ fails, ∀ f' ∈ fails, f ≠ f' → r.well c f.1 ≠ r.well c f'.1 :=
    fun f hf f' hf' h => Run.well_ne hr c (hlt f hf) (hlt f' hf') fun e => h (List.inj_on_of_nodup_map hn hf hf' e)
  refine ⟨fun f hf => ?_, fun g hg => (each_wells_apart hbody (by decide) hg s).2, ?_⟩
  · obtain ⟨u, v, ⟨hu, -⟩, hv, hsame⟩ := each_well (List.Nodup.of_map _ hn) hbody (by decide) hne s hf
    obtain ⟨hsuspect, hcause, hvalid, hcount, -⟩ := confBody_run c r n summed f u
    rw [← hv] at hsuspect hcause hvalid hcount
    refine ⟨(hsame.bit_eq (k := R.well_STATUS_SUSPECT) (by simp [confRegs]) _ rfl).trans hsuspect,
      (hsame.bit_eq (k := R.well_SUSPECT_CAUSE_CONF) (by simp [confRegs]) _ rfl).trans hcause,
      (hsame.bit_eq (k := R.well_CONF_LAST_VALID) (by simp [confRegs]) _ rfl).trans hvalid, ?_⟩
    exact (hsame.1 R.well_ESC_CONF_CNT (by simp [confRegs])).trans (hcount.trans (by rw [hu R.well_ESC_CONF_CNT (by simp [confRegs])]))
  · refine each_aside (Keeps.refl _) (fun _ _ _ => Keeps.trans) (fun f hf u => (hbody f hf u).mono ?_) s
    constructor
    case regs => exact theRegs_runRegs (hlt f hf)
    case wells =>
      rintro _ rfl
      exact inRun_well (hlt f hf)
    all_goals simp [wellTouch]

end

/-! ### The end of a draw -/

/-- A croft with a draw's record in its leat queue, its parts due, and its run gone on or ended. -/
def Croft.drawn (k : Croft) (r : Run) (d : DrawRec) (ps : List EscPart) : Croft :=
  { k with
    leat := k.leat ++ [d]
    escs := k.escs ++ ps
    runs := if r.n ≤ r.draw + 1 then k.runs.filter (fun x => x.serial != r.serial)
      else k.runs.map (fun x => if x.serial = r.serial then { r with draw := r.draw + 1, live := false } else x) }

/-- The held wells of a draw that ends are counted, and those that escalate. -/
def heldCounts (c : Nat) (r : Run) : Prog := Prog.each r.held (fun i => bumpBy (pgWell (r.well c i)) R.well_HELD_CNT 1)
def escCounts (c : Nat) (r : Run) : Prog := Prog.each r.escPlaces (fun i => .all [bumpBy (pgWell (r.well c i)) R.well_ESC_CNT 1, tellWatch 11])

theorem drawEnds_run_eq (c : Nat) (r : Run) (s : State) : (drawEnds c r).run s =
    (leatStatus c).run ((setDrawing c r.args.wells false).run ((modCroft c (fun k => k.drawn r (s.recordOf c r) (s.partsOf r))).run
      ((escCounts c r).run ((heldCounts c r).run s)))) := by
  simp -implicitDefEqProofs only [drawEnds, Prog.run_get, Prog.run_all_cons, Prog.run_all_nil, heldCounts, escCounts, bump]
  rfl

theorem Run.escPlaces_places (r : Run) : r.escPlaces.Nodup ∧ ∀ i ∈ r.escPlaces, i < r.args.wells.length :=
  ⟨List.nodup_range.filter _, fun _ hi => List.mem_range.1 (List.mem_filter.1 hi).1⟩

theorem heldCounts_run {r : Run} (h : r.args.wells.Nodup) (hn : r.held.Nodup) (hlt : ∀ i ∈ r.held, i < r.args.wells.length) (c : Nat) (s : State) :
    let t := (heldCounts c r).run s
    (∀ k ∈ r.held, Counts s t (pgWell (r.well c k)) R.well_HELD_CNT 1) ∧ Keeps { regs := runRegs c r [R.well_HELD_CNT] } s t :=
  ⟨fun _ hk => run_counts h c hn hlt (by decide) (fun _ => 1) s hk, Prog.keeps (run_counts_only (fun _ => id) hlt (by simp) _) s⟩

theorem escCounts_run {r : Run} (h : r.args.wells.Nodup) (c : Nat) (s : State) :
    let t := (escCounts c r).run s
    (∀ k ∈ r.escPlaces, Counts s t (pgWell (r.well c k)) R.well_ESC_CNT 1) ∧ Keeps { regs := runRegs c r [R.well_ESC_CNT], dev := True } s t := by
  obtain ⟨hn, hlt⟩ := r.escPlaces_places
  refine ⟨fun k hk => ?_, Prog.keeps ((Prog.only_each ..).2 fun i hi => ?_) s⟩
  · obtain ⟨u, v, ⟨hu, -⟩, rfl, hv, -⟩ := each_well (f := fun i => .all [bumpBy (pgWell (r.well c i)) R.well_ESC_CNT 1, tellWatch 11])
      (W := r.well c) (fs := [R.well_ESC_CNT]) hn (fun i _ u => Prog.keeps (by simp [wellTouch]) u) (by decide)
      (fun i hi j hj hij => Run.well_ne h c (hlt i hi) (hlt j hj) hij) s hk
    refine (hv R.well_ESC_CNT (by simp)).trans ?_
    rw [← hu R.well_ESC_CNT (by simp)]
    simp -implicitDefEqProofs [tellWatch, modDev]
  · have hreg : onReg (runRegs c r [R.well_ESC_CNT]) (pgWell (r.well c i)) R.well_ESC_CNT.off := onReg_runRegs (hlt i hi) (by simp)
    simp [hreg]

/-- The frame of a draw's end. -/
def drawEndTouch (c : Nat) (r : Run) : Touch :=
  { regs := fun a => runRegs c r [R.well_STATUS_DRAWING, R.well_ESC_CNT, R.well_HELD_CNT] a ∨ theRegs (pgMill c) [R.mill_LEAT_STATUS_QUEUED] a
    crofts := (· = c), dev := True }

theorem runRegs_sub {c : Nat} {r : Run} {fs gs : List Fld} (h : ∀ f ∈ fs, ∃ g ∈ gs, g.off = f.off) : ∀ a, runRegs c r fs a → runRegs c r gs a := by
  rintro _ ⟨x, hx, f, hf, rfl⟩
  obtain ⟨y, hy, rfl⟩ := List.mem_map.1 hx
  obtain ⟨g, hg, e⟩ := h f hf
  exact ⟨(pgWell (c * 16 + y), gs), List.mem_map_of_mem (f := fun x => (pgWell (c * 16 + x), gs)) hy, g, hg, by rw [e]⟩

/-- Wells that leave DRAWING keep whether they are suspect. -/
theorem setDrawing_suspect (c : Nat) (ws : List Nat) (s : State) (g : Nat) :
    ((setDrawing c ws false).run s).bit (pgWell g) R.well_STATUS_SUSPECT = s.bit (pgWell g) R.well_STATUS_SUSPECT := by
  induction ws generalizing s with
  | nil => rfl
  | cons w ws ih =>
    rw [setDrawing, Prog.run_each_cons, ← setDrawing, ih]
    by_cases hw : c * 16 + w = g
    · simp [hw, State.bit]
    · simp [hw]

theorem drawEnds_run {r : Run} (h : r.args.wells.Nodup) (hn : r.held.Nodup) (hlt : ∀ i ∈ r.held, i < r.args.wells.length) (c : Nat) (s : State) :
    let t := (drawEnds c r).run s
    t.croft c = (s.croft c).drawn r (s.recordOf c r) (s.partsOf r) ∧
    (∀ k ∈ r.escPlaces, Counts s t (pgWell (r.well c k)) R.well_ESC_CNT 1) ∧
    (∀ k ∈ r.held, Counts s t (pgWell (r.well c k)) R.well_HELD_CNT 1) ∧
    (∀ x ∈ r.args.wells, t.bit (pgWell (c * 16 + x)) R.well_STATUS_DRAWING = false) ∧
    (∀ g, t.bit (pgWell g) R.well_STATUS_SUSPECT = s.bit (pgWell g) R.well_STATUS_SUSPECT) ∧ Keeps (drawEndTouch c r) s t := by
  dsimp only
  rw [drawEnds_run_eq]
  generalize s.recordOf c r = d
  generalize s.partsOf r = ps
  obtain ⟨hheld, hkeep⟩ := heldCounts_run h hn hlt c s
  generalize (heldCounts c r).run s = u at *
  obtain ⟨hesc, hkeep'⟩ := escCounts_run h c u
  generalize (escCounts c r).run u = v at *
  have hself := modCroft_run_self c (fun k => k.drawn r d ps) v
  have hmod : Keeps { crofts := (· = c) } v ((modCroft c (fun k => k.drawn r d ps)).run v) := Prog.keeps (by simp) v
  generalize (modCroft c (fun k => k.drawn r d ps)).run v = x at *
  have hdraw : Keeps { regs := runRegs c r [R.well_STATUS_DRAWING] } x ((setDrawing c r.args.wells false).run x) := by
    refine Prog.keeps ((Prog.only_each ..).2 fun w hw => (setBit_allows ..).2 ?_) x
    exact onReg_someRegs (List.mem_map_of_mem (f := fun x => (pgWell (c * 16 + x), [R.well_STATUS_DRAWING])) hw) (by simp)
  have hdrawing := setDrawing_bit c r.args.wells false x
  have hsuspect := setDrawing_suspect c r.args.wells x
  generalize (setDrawing c r.args.wells false).run x = y at *
  have hleat : Keeps { regs := theRegs (pgMill c) [R.mill_LEAT_STATUS_QUEUED] } y ((leatStatus c).run y) :=
    Prog.keeps (by simp [leatStatus]) y
  have hlast (g : Nat) (o : Nat) (ho : o < 0x1000) : ((leatStatus c).run y).reg (pgWell g) o = y.reg (pgWell g) o :=
    hleat.reg_eq (not_theRegs_apart (by simp [ho]))
  have hreg (g : Nat) {o : Nat} (ho : o < 0x1000) (hne : o ∉ [R.well_STATUS_DRAWING.off]) :
      ((leatStatus c).run y).reg (pgWell g) o = v.reg (pgWell g) o :=
    (hlast g o ho).trans ((hdraw.reg_eq (not_runRegs hne ho (by decide))).trans (hmod.reg_eq id))
  have hbit (g : Nat) (f : Fld) (hf : f.off < 0x1000) : ((leatStatus c).run y).bit (pgWell g) f = y.bit (pgWell g) f := by
    rw [State.bit, State.bit, State.fld_eq, State.fld_eq, hlast g _ hf]
  refine ⟨?_, fun k hk => ?_, fun k hk => ?_, fun w hw => ?_, fun g => ?_, ?_⟩
  · rw [hleat.crofts c id, hdraw.crofts c id, hself, hkeep'.crofts c id, hkeep.crofts c id]
  · rw [Counts, hreg _ (by decide) (by decide), hesc k hk, hkeep.reg_eq (not_runRegs (by decide) (by decide) (by decide))]
  · rw [Counts, hreg _ (by decide) (by decide), hkeep'.reg_eq (not_runRegs (by decide) (by decide) (by decide)), hheld k hk]
  · rw [hbit _ _ (by decide), hdrawing, if_pos hw]
  · rw [hbit _ _ (by decide), hsuspect, hmod.bit_eq id, hkeep'.bit_eq (not_runRegs (by decide) (by decide) (by decide)),
      hkeep.bit_eq (not_runRegs (by decide) (by decide) (by decide))]
  · refine (hkeep.mono ?_).trans ((hkeep'.mono ?_).trans ((hmod.mono ?_).trans ((hdraw.mono ?_).trans (hleat.mono ?_))))
    · constructor
      case regs => exact fun a ha => .inl (runRegs_sub (by decide) a ha)
      all_goals simp
    · constructor
      case regs => exact fun a ha => .inl (runRegs_sub (by decide) a ha)
      all_goals simp [drawEndTouch]
    · constructor <;> simp [drawEndTouch]
    · constructor
      case regs => exact fun a ha => .inl (runRegs_sub (by decide) a ha)
      all_goals simp
    · constructor
      case regs => exact fun a ha => .inr ha
      all_goals simp

theorem recordOf_congr {s t : State} {c : Nat} {r : Run} (h : ∀ k < r.args.wells.length, k ∈ r.held → t.well (r.well c k) = s.well (r.well c k)) :
    t.recordOf c r = s.recordOf c r := by
  have hfold (l : List Nat) (hl : ∀ i ∈ l, i < r.args.wells.length) (sl : List (List Int)) (a : List Int) :
      l.foldl (fun a i => addCodes a (if r.held.contains i then ((((t.well (r.well c i)).last ++ noCodes).take 512).map (fun x => x * r.nrep))
        else (sl.getD i noCodes).take 512)) a =
      l.foldl (fun a i => addCodes a (if r.held.contains i then ((((s.well (r.well c i)).last ++ noCodes).take 512).map (fun x => x * r.nrep))
        else (sl.getD i noCodes).take 512)) a := by
    refine List.foldl_ext _ _ _ fun a i hi => ?_
    by_cases hh : i ∈ r.held
    · rw [h i (hl i hi) hh]
    · simp [hh]
  simp only [State.recordOf]
  congr 1
  refine List.map_congr_left fun sl _ => hfold _ (fun i hi => List.mem_range.1 (List.mem_filter.1 hi).1) sl _

/-- A draw that ends before its run's last leaves the run to go on to the next. -/
theorem drawn_goesOn {s t : State} {w : Nat} {r r' : Run} {d : DrawRec} {ps : List EscPart} (h : s.runOf w = some r) (hs : r'.serial = r.serial)
    (ha : r'.args = r.args) (hlt : r'.draw + 1 < r'.n) (ht : t.croft (w / 16) = (s.croft (w / 16)).drawn r' d ps) :
    t.runOf w = some { r' with draw := r'.draw + 1, live := false } := by
  have hput := runOf_putRun (r' := { r' with draw := r'.draw + 1, live := false }) h hs ha
  rw [State.runOf, putRun, modRun_croft] at hput
  rw [State.runOf, ht, Croft.drawn]
  dsimp only
  rw [if_neg (by omega)]
  exact hput

theorem drawn_ends {k : Croft} {r : Run} {d : DrawRec} {ps : List EscPart} (h : r.n ≤ r.draw + 1) : ∀ x ∈ (k.drawn r d ps).runs, x.serial ≠ r.serial := by
  intro x hx
  rw [Croft.drawn] at hx
  dsimp only at hx
  rw [if_pos h] at hx
  simpa using (List.mem_filter.1 hx).2

/-! ### A slice whose last repeat has ended -/

theorem runOf_well {s : State} {w : Nat} {r : Run} (h : s.runOf w = some r) : r.well (w / 16) 0 = w := by
  have hlead := runOf_leader h
  have hhead : r.args.wells.getD 0 0 = r.leader := by cases hw : r.args.wells <;> simp [Run.leader, hw]
  rw [Run.well, hhead, hlead]
  omega

theorem afterSlot_held (s : State) (c : Nat) (r : Run) : (s.afterSlot c r).held.Nodup ∧ ∀ i ∈ (s.afterSlot c r).held, i < r.args.wells.length :=
  ⟨List.nodup_range.filter _, fun _ hi => List.mem_range.1 (List.mem_filter.1 hi).1⟩

/-- A run whose slice has ended with the failing wells `fails`. -/
def State.sliceEnded (s : State) (c : Nat) (r : Run) (fails : List (Nat × List Int)) : Run :=
  ((s.afterSlot c r).failing (fails.map (·.1))).nextSlice

/-- A slice ended takes the run on to the next, or to its draw's end. -/
def sliceTail (s : State) (c : Nat) (r : Run) (fails : List (Nat × List Int)) : Prog :=
  if s.fld (pgWell (r.well c 0)) R.well_DRAWCFG_SLICES ≤ (s.sliceEnded c r fails).slice then drawEnds c (s.sliceEnded c r fails)
  else putRun c (s.sliceEnded c r fails)

section
variable {s v : State} {c : Nat} {r : Run} {fails : List (Nat × List Int)}

theorem sliceChecked_averages (hn : (s.afterSlot c r).nrep = 1) (hf : fails ≠ []) (ha : s.fld (pgWell (r.well c 0)) R.well_DRAWCFG_AVG ≠ 0) :
    (sliceChecked s c r fails).run v =
      (putRun c ((s.afterSlot c r).averaging (s.fld (pgWell (r.well c 0)) R.well_DRAWCFG_AVG))).run
        ((bumpBy (pgWell (r.well c 0)) R.well_REPEAT_CNT 1).run ((confCounts c r true fails).run v)) := by
  rw [sliceChecked, hn, if_pos ⟨rfl, by simpa using hf, ha⟩]
  simp -implicitDefEqProofs only [Prog.run_all_cons, Prog.run_all_nil, confCounts, bump, decide_true]

theorem sliceChecked_ends (h : (s.afterSlot c r).nrep ≠ 1 ∨ fails = [] ∨ s.fld (pgWell (r.well c 0)) R.well_DRAWCFG_AVG = 0) :
    (sliceChecked s c r fails).run v = (sliceTail s c r fails).run
      ((confEscalate c (s.afterSlot c r) (s.afterSlot c r).nrep (decide ((s.afterSlot c r).nrep ≠ 1)) fails).run
        ((confCounts c r (decide ((s.afterSlot c r).nrep = 1)) fails).run v)) := by
  have hnot : ¬ ((s.afterSlot c r).nrep = 1 ∧ (!fails.isEmpty) = true ∧ s.fld (pgWell (r.well c 0)) R.well_DRAWCFG_AVG ≠ 0) := by
    rintro ⟨hn, hf, ha⟩
    rcases h with h | h | h
    · exact h hn
    · simp [h] at hf
    · exact ha h
  rw [sliceChecked, if_neg hnot]
  simp -implicitDefEqProofs only [Prog.run_all_cons, Prog.run_all_nil, confCounts, bump]
  rfl

end

/-- What the failed checks of a slice may change. -/
def sliceFailTouch (c : Nat) (r : Run) : Touch :=
  { regs := runRegs c r (R.well_CONF_FAIL_CNT :: confRegs), wells := inRun c r, dev := True, seq := True }

/-- The failed checks of a slice, after what the slice-draw itself left. -/
theorem fails_run {s v : State} {c : Nat} {r : Run} (hr : r.args.wells.Nodup) (hv : Keeps (sliceTouch c r) s v) (r1 : Run) (h1 : r1.args = r.args)
    {fails : List (Nat × List Int)} (hn : (fails.map (·.1)).Nodup) (hlt : ∀ f ∈ fails, f.1 < r.args.wells.length) (once summed : Bool) (n : Nat) :
    let t := (confEscalate c r1 n summed fails).run ((confCounts c r once fails).run v)
    (∀ f ∈ fails, Failed s t c r1 once f) ∧ (∀ g, (∀ f ∈ fails, r.well c f.1 ≠ g) → t.well g = v.well g) ∧ Keeps (sliceFailTouch c r) v t := by
  obtain ⟨hcount, hkeep⟩ := confCounts_run hr hn hlt once v
  generalize (confCounts c r once fails).run v = x at *
  obtain ⟨hfailed, hwells, hkeep'⟩ := confEscalate_run (r := r1) (h1 ▸ hr) hn (h1 ▸ hlt) n summed x
  have hwell : r1.well = r.well := by
    funext c i
    rw [Run.well, h1, Run.well]
  have hregs : runRegs c r1 confRegs = runRegs c r confRegs := by
    funext a
    rw [runRegs, h1, runRegs]
  have hruns : inRun c r1 = inRun c r := by
    funext a
    rw [inRun, h1, inRun]
  rw [hregs, hruns] at hkeep'
  have hs (p : Page) {o : Nat} (ho : o < 0x1000) (hne : o ∉ [R.well_DRAW_CNT, R.well_QSAT_CNT, R.well_STALE_CNT].map Fld.off) :
      v.reg p o = s.reg p o := hv.reg_eq (not_runRegs hne ho (by decide))
  refine ⟨fun f hf => ?_, fun g hg => (hwells g (hwell ▸ hg)).trans (hkeep.wells g id), (hkeep.mono ?_).trans (hkeep'.mono ?_)⟩
  · obtain ⟨hsuspect, hcause, hvalid, hesc⟩ := hfailed f hf
    refine ⟨hsuspect, hcause, hvalid, ?_, ?_⟩
    · rw [Counts, hkeep'.reg_eq (not_runRegs (by decide) (by decide) (by decide)), hwell, hcount f hf, hs _ (by decide) (by decide)]
    · rw [Counts, hesc, hkeep.reg_eq (not_runRegs (by decide) (by decide) (by decide)), hs _ (by decide) (by decide)]
  · constructor
    case regs => exact runRegs_sub (gs := R.well_CONF_FAIL_CNT :: confRegs) (by decide)
    all_goals simp
  · constructor
    case regs => exact runRegs_sub (gs := R.well_CONF_FAIL_CNT :: confRegs) (by decide)
    all_goals simp [sliceFailTouch]

/-- What a slice's end leaves of its run: it goes on with the next slice, or its draw ends. -/
theorem sliceTail_run {s y : State} {w : Nat} {r r0 : Run} {fails : List (Nat × List Int)} (hr : y.runOf w = some r) (hargs : r0.args = r.args)
    (hserial : r0.serial = r.serial) (hnodup : r.args.wells.Nodup) (hcroft : y.croft (w / 16) = s.croft (w / 16)) (hnow : y.now = s.now)
    (hheld : ∀ k < r.args.wells.length, k ∈ (s.afterSlot (w / 16) r0).held → y.well (r.well (w / 16) k) = s.well (r.well (w / 16) k)) :
    let c := w / 16
    let r2 := s.sliceEnded c r0 fails
    let t := (sliceTail s c r0 fails).run y
    let slices := s.fld (pgWell (r0.well c 0)) R.well_DRAWCFG_SLICES
    (r2.slice < slices → t.runOf w = some r2 ∧ (t.croft c).leat = (s.croft c).leat ∧ (t.croft c).escs = (s.croft c).escs) ∧
    (slices ≤ r2.slice →
      (t.croft c).leat = (s.croft c).leat ++ [s.recordOf c r2] ∧ (t.croft c).escs = (s.croft c).escs ++ s.partsOf r2 ∧
      (r0.draw + 1 < r0.n → t.runOf w = some { r2 with draw := r0.draw + 1, live := false }) ∧
      (r0.n ≤ r0.draw + 1 → ∀ x ∈ (t.croft c).runs, x.serial ≠ r.serial) ∧
      (∀ k ∈ r2.escPlaces, Counts y t (pgWell (r.well c k)) R.well_ESC_CNT 1) ∧
      (∀ k ∈ r2.held, Counts y t (pgWell (r.well c k)) R.well_HELD_CNT 1) ∧
      ∀ x ∈ r.args.wells, t.bit (pgWell (c * 16 + x)) R.well_STATUS_DRAWING = false) ∧
    (∀ g, t.bit (pgWell g) R.well_STATUS_SUSPECT = y.bit (pgWell g) R.well_STATUS_SUSPECT) ∧ Keeps (drawEndTouch c r) y t := by
  have hargs2 : (s.sliceEnded (w / 16) r0 fails).args = r.args := hargs
  have hserial2 : (s.sliceEnded (w / 16) r0 fails).serial = r.serial := hserial
  have hheld2 : (s.sliceEnded (w / 16) r0 fails).held = (s.afterSlot (w / 16) r0).held := rfl
  have hdraw2 : (s.sliceEnded (w / 16) r0 fails).draw = r0.draw := rfl
  have hn2 : (s.sliceEnded (w / 16) r0 fails).n = r0.n := rfl
  obtain ⟨hplaces, hlt⟩ := afterSlot_held s (w / 16) r0
  rw [← hheld2] at hplaces hlt hheld
  rw [hargs] at hlt
  dsimp only
  rw [sliceTail]
  generalize s.sliceEnded (w / 16) r0 fails = r2 at *
  have hwell (k : Nat) : r2.well (w / 16) k = r.well (w / 16) k := by rw [Run.well, hargs2, Run.well]
  by_cases hs : s.fld (pgWell (r0.well (w / 16) 0)) R.well_DRAWCFG_SLICES ≤ r2.slice
  · rw [if_pos hs]
    obtain ⟨hdrawn, hesc, hheldCount, hdrawing, hsuspect, hkeep⟩ := drawEnds_run (hargs2 ▸ hnodup) hplaces (hargs2 ▸ hlt) (w / 16) y
    rw [recordOf_congr (s := s) (t := y) fun k hk hh => by rw [hwell]; exact hheld k (hargs2 ▸ hk) hh] at hdrawn
    refine ⟨fun hn => absurd hs (by omega), fun _ => ⟨?_, ?_, fun hgo => ?_, fun hend => ?_, fun k hk => hwell k ▸ hesc k hk,
      fun k hk => hwell k ▸ hheldCount k hk, fun x hx => hdrawing x (hargs2 ▸ hx)⟩, hsuspect, ?_⟩
    · rw [hdrawn, hcroft]
      rfl
    · rw [hdrawn, hcroft, State.partsOf, State.partsOf, hnow]
      rfl
    · rw [← hdraw2]
      exact drawn_goesOn hr hserial2 hargs2 (by omega) hdrawn
    · rw [hdrawn, ← hserial2]
      exact drawn_ends (by omega)
    · have htouch : drawEndTouch (w / 16) r2 = drawEndTouch (w / 16) r := by
        have hregs : runRegs (w / 16) r2 = runRegs (w / 16) r := by
          funext fs a
          rw [runRegs, hargs2, runRegs]
        rw [drawEndTouch, hregs, drawEndTouch]
      exact htouch ▸ hkeep
  · rw [if_neg hs]
    have hkeep : Keeps { crofts := (· = w / 16) } y ((putRun (w / 16) r2).run y) := Prog.keeps (by simp) y
    refine ⟨fun _ => ⟨runOf_putRun hr hserial2 hargs2, ?_, ?_⟩, fun hn => absurd hn hs, fun g => hkeep.bit_eq id, hkeep.mono ?_⟩
    · rw [putRun, modRun_croft, hcroft]
    · rw [putRun, modRun_croft, hcroft]
    · constructor <;> simp [drawEndTouch]

/-! ### The ends of slice-draws -/

section
variable {s : State} {w : WellId} {codes : List (List Int)} {r : Run}

/-- A slice-draw that clips is drawn again in quarters. -/
theorem clip_goesOn (hr : s.runOf w.val = some r) (hs : r.inSlot = true) (hnodup : r.args.wells.Nodup) (hq : r.quarter = none)
    (hc : r.clips codes ≠ []) : Leaves (exec (.drawSliceEnd w codes) s) (fun t =>
      t.runOf w.val = some (r.clipped codes) ∧
      (∀ i < r.args.wells.length, Counts s t (pgWell (r.well (w.val / 16) i)) R.well_DRAW_CNT 1 ∧
        Counts s t (pgWell (r.well (w.val / 16) i)) R.well_QUARTER_CNT (if i ∈ r.clips codes then 1 else 0)) ∧
      Keeps { regs := runRegs (w.val / 16) r [R.well_DRAW_CNT, R.well_QUARTER_CNT], crofts := (· = w.val / 16) } s t) := by
  refine ⟨_, (exec_drawSliceEnd hr hs hq).trans (by rw [if_neg (by simpa using hc)]), ?_, fun i hi => ⟨?_, ?_⟩, ?_⟩
  · exact runOf_putRun ((runOf_congr (sliceCounts_croft ..)).trans hr) rfl rfl
  · exact (putRun_reg ..).trans (sliceCounts_run hnodup (w.val / 16) codes s hi).1
  · exact (putRun_reg ..).trans (sliceCounts_run hnodup (w.val / 16) codes s hi).2
  · exact (Prog.keeps (sliceCounts_only (fun _ => id) (by simp) (.inl (by simp))) s).trans (Prog.keeps (by simp) _)

/-- A quarter that is not the fourth leads to the next. -/
theorem quarter_goesOn {q : Nat} (hr : s.runOf w.val = some r) (hs : r.inSlot = true) (hnodup : r.args.wells.Nodup) (hq : r.quarter = some q)
    (hlt : q < 3) (hnd : r.quartering.Nodup) (hwells : ∀ i ∈ r.quartering, i < r.args.wells.length) :
    Leaves (exec (.drawQuarterEnd w codes) s) (fun t =>
      t.runOf w.val = some (r.quartered codes q) ∧
      (∀ i ∈ r.quartering, Counts s t (pgWell (r.well (w.val / 16) i)) R.well_DRAW_CNT 1) ∧
      (∀ i ∈ r.quarterReads, Counts s t (pgWell (r.well (w.val / 16) i)) R.well_QSAT_CNT
        ((codesAt codes i).filter (fun x => decide (512 < x.natAbs))).length) ∧
      Keeps { regs := runRegs (w.val / 16) r [R.well_DRAW_CNT, R.well_QSAT_CNT], crofts := (· = w.val / 16) } s t) := by
  refine ⟨_, (exec_drawQuarterEnd hr hs hq).trans (by rw [if_pos hlt]), ?_, fun i hi => ?_, fun i hi => ?_, ?_⟩
  · exact runOf_putRun ((runOf_congr (quarterCounts_croft hwells ..)).trans hr) rfl rfl
  · exact (putRun_reg ..).trans ((quarterCounts_run hnodup hnd hwells (w.val / 16) codes s).1 i hi)
  · exact (putRun_reg ..).trans ((quarterCounts_run hnodup hnd hwells (w.val / 16) codes s).2 i hi)
  · exact (Prog.keeps (quarterCounts_only (fun _ => id) (by simp) (by simp) hwells) s).trans (Prog.keeps (by simp) _)

/-- What a slice-draw that has ended with the codes of its run's `part` leaves of the wells, before the run goes on. -/
structure SliceDrawn (s v : State) (c : Nat) (r : Run) : Prop where
  keeps : Keeps (sliceTouch c r) s v
  stale : ∀ k ∈ s.newStale c r, Counts s v (pgWell (r.well c k)) R.well_STALE_CNT 1
  last : ∀ k ∈ r.reads, k ∉ (s.afterSlot c r).held → (v.well (r.well c k)).last = r.part.getD k noCodes
  held : ∀ k < r.args.wells.length, k ∈ (s.afterSlot c r).held → v.well (r.well c k) = s.well (r.well c k)

theorem sliceDrawn_leaves {i : Instr} {part : List (List Int)} (hr : s.runOf w.val = some r) (hs : r.inSlot = true) (hnodup : r.args.wells.Nodup)
    (hlt : ∀ k ∈ r.quartering, k < r.args.wells.length)
    (hi : (r.quarter = none ∧ i = .drawSliceEnd w codes ∧ r.clips codes = [] ∧ part = r.slicePart codes) ∨
      (r.quarter = some 3 ∧ i = .drawQuarterEnd w codes ∧ part = r.quarterPart codes)) :
    ∃ v, exec i s = .next ((sliceRest s (w.val / 16) { r with part := part }).run v) ∧ SliceDrawn s v (w.val / 16) { r with part := part } := by
  obtain ⟨u, hexec, hu⟩ := exec_sliceEnds hr hs hlt hi
  obtain ⟨hkeep, hstale, hlast, hheld⟩ := lastAndStale_run (s := s) (u := u) (c := w.val / 16) (r := { r with part := part }) hnodup
  refine ⟨_, hexec, (hu.mono ?_).trans hkeep, fun k hk => ?_, hlast, fun k hk hh => (hheld k hk hh).trans (hu.wells _ id)⟩
  · constructor
    case regs => exact runRegs_sub (gs := [R.well_DRAW_CNT, R.well_QSAT_CNT, R.well_STALE_CNT]) (by decide)
    all_goals simp
  · rw [Counts, hstale k hk, hu.reg_eq (not_runRegs (by decide) (by decide) (by decide))]

end

namespace SliceDrawn

variable {s v : State} {w : Nat} {r : Run} {part : List (List Int)}

theorem reg_eq {c o : Nat} (hv : SliceDrawn s v c r) (p : Page) (ho : o < 0x1000)
    (hne : o ∉ [R.well_DRAW_CNT, R.well_QSAT_CNT, R.well_STALE_CNT].map Fld.off) : v.reg p o = s.reg p o :=
  hv.keeps.reg_eq (not_runRegs hne ho (by decide))

/-- Newly stale wells whose STALE_ACT is FAULT end the DRAW. -/
theorem faults {c : Nat} (hv : SliceDrawn s v c r) (hnodup : r.args.wells.Nodup) (hf : s.staleFaults c r ≠ []) :
    let t := (sliceRest s c r).run v
    (∀ k ∈ s.staleFaults c r, Faults s t (pgWell (r.well c k)) 6) ∧ Halts s t c ∧ t.dev.stepEnd = true ∧
    (∀ x ∈ (t.croft c).runs, x.serial ≠ r.serial) ∧ (∀ o ∈ (t.reeve c).orders, o.serial ≠ r.serial) ∧
    (∀ x ∈ r.args.wells, t.bit (pgWell (c * 16 + x)) R.well_STATUS_DRAWING = false) ∧ ∀ a, t.byte a = s.byte a := by
  have hplaces : (s.staleFaults c r).Nodup := (List.nodup_range.filter _).filter _
  have hlt : ∀ i ∈ s.staleFaults c r, i < r.args.wells.length := fun i hi => newStale_lt (List.mem_filter.1 hi).1
  obtain ⟨hfaults, hhalts, hstep, hruns, horders, hdrawing, hmem⟩ :=
    runFault_run hnodup c hplaces hlt (cause := 6) (by decide) (s.orderOffset c r.idx) v
  dsimp only
  rw [sliceRest, if_pos (by simpa using hf)]
  have hoff : ∀ f ∈ faultRegs, f.off < 0x1000 ∧ f.off ∉ [R.well_DRAW_CNT, R.well_QSAT_CNT, R.well_STALE_CNT].map Fld.off := by decide
  refine ⟨fun k hk => (hfaults k hk).congr (fun f hf => hv.reg_eq _ (hoff f hf).1 (hoff f hf).2) fun _ _ => rfl, fun hrun => hhalts ?_, hstep,
    hruns, horders, hdrawing, fun a => (hmem a).trans (hv.keeps.mem a id)⟩
  rw [← hrun]
  exact hv.keeps.bit_eq (not_runRegs (by decide) (by decide) (by decide))

/-- With repeats of the slice still due the run goes on with them. -/
theorem repeats (hv : SliceDrawn s v (w / 16) { r with part := part }) (hr : s.runOf w = some r)
    (hf : s.staleFaults (w / 16) { r with part := part } = []) :
    let c := w / 16
    let r1 := s.afterSlot c { r with part := part }
    let t := (sliceRest s c { r with part := part }).run v
    r1.rep < r1.nrep → t.runOf w = some r1 ∧
      (∀ k ∈ s.newStale c { r with part := part }, Counts s t (pgWell (r.well c k)) R.well_STALE_CNT 1) ∧
      (∀ k ∈ r.reads, k ∉ r1.held → (t.well (r.well c k)).last = part.getD k noCodes) ∧
      Keeps { regs := runRegs c r [R.well_DRAW_CNT, R.well_QSAT_CNT, R.well_STALE_CNT], crofts := (· = c), wells := inRun c r } s t := by
  intro c r1 t hrep
  have hrun : t = (putRun c r1).run v := by
    show (sliceRest s c { r with part := part }).run v = _
    rw [sliceRest, if_neg (by simp [c, hf]), if_pos hrep]
  have hkeep : Keeps { crofts := (· = c) } v ((putRun c r1).run v) := Prog.keeps (by simp) v
  rw [hrun]
  refine ⟨runOf_putRun ((runOf_congr (hv.keeps.crofts _ id)).trans hr) rfl rfl, fun k hk => (hkeep.reg_eq id).trans (hv.stale k hk),
    fun k hk hh => ?_, (hv.keeps.mono ?_).trans (hkeep.mono ?_)⟩
  · rw [hkeep.wells _ id]
    exact hv.last k hk hh
  · constructor <;> simp [sliceTouch, runRegs, inRun, c]
  · constructor <;> simp

theorem rest_checked {c : Nat} (hf : s.staleFaults c r = []) (hrep : (s.afterSlot c r).rep = (s.afterSlot c r).nrep) :
    (sliceRest s c r).run v = (sliceChecked s c r (s.confFails c (s.afterSlot c r) (s.afterSlot c r).nrep)).run v := by
  rw [sliceRest, if_neg (by simp [hf]), if_neg (by omega), sliceFails, if_pos hrep]

/-- A first check that fails under AVG is counted, and the slice is repeated. -/
theorem averages (hv : SliceDrawn s v (w / 16) { r with part := part }) (hr : s.runOf w = some r) (hnodup : r.args.wells.Nodup)
    (hf : s.staleFaults (w / 16) { r with part := part } = []) :
    let c := w / 16
    let r1 := s.afterSlot c { r with part := part }
    let fails := s.confFails c r1 r1.nrep
    let avg := s.fld (pgWell w) R.well_DRAWCFG_AVG
    let t := (sliceRest s c { r with part := part }).run v
    r1.rep = r1.nrep → r1.nrep = 1 → fails ≠ [] → avg ≠ 0 → t.runOf w = some (r1.averaging avg) ∧ Counts s t (pgWell w) R.well_REPEAT_CNT 1 ∧
      (∀ f ∈ fails, Counts s t (pgWell (r.well c f.1)) R.well_CONF_FAIL_CNT 1) ∧
      Keeps { regs := runRegs c r [R.well_DRAW_CNT, R.well_QSAT_CNT, R.well_STALE_CNT, R.well_REPEAT_CNT, R.well_CONF_FAIL_CNT],
              crofts := (· = c), wells := inRun c r } s t := by
  intro c r1 fails avg t hrep hn hfails havg
  have hlead : ({ r with part := part } : Run).well c 0 = w := (runOf_well hr : r.well (w / 16) 0 = w)
  obtain ⟨hplaces, hfree⟩ := confFails_places s c r1 r1.nrep
  have hlt : ∀ f ∈ fails, f.1 < r.args.wells.length := fun f hf => (hfree f hf).1
  have hpos : 0 < r.args.wells.length := by
    obtain ⟨f, hmem⟩ := List.exists_mem_of_ne_nil _ hfails
    exact Nat.zero_lt_of_lt (hlt f hmem)
  have hrun : t = (putRun c (r1.averaging avg)).run ((bumpBy (pgWell w) R.well_REPEAT_CNT 1).run
      ((confCounts c { r with part := part } true fails).run v)) := by
    have := sliceChecked_averages (v := v) (r := { r with part := part }) (fails := fails) hn hfails (by rwa [hlead])
    rw [hlead] at this
    exact (rest_checked hf hrep).trans this
  obtain ⟨hcount, hkeep⟩ := confCounts_run (r := { r with part := part }) hnodup hplaces hlt true v
  rw [hrun]
  generalize (confCounts c { r with part := part } true fails).run v = x at *
  have hbump : Keeps { regs := runRegs c r [R.well_REPEAT_CNT] } x ((bumpBy (pgWell w) R.well_REPEAT_CNT 1).run x) := by
    refine Prog.keeps ((bumpBy_allows ..).2 ?_) x
    rw [← runOf_well hr]
    exact onReg_runRegs hpos (by simp)
  have hbumped : Counts x ((bumpBy (pgWell w) R.well_REPEAT_CNT 1).run x) (pgWell w) R.well_REPEAT_CNT 1 := (bumpBy_run ..).1
  generalize (bumpBy (pgWell w) R.well_REPEAT_CNT 1).run x = y at *
  have hcroft : y.croft (w / 16) = s.croft (w / 16) := (hbump.crofts _ id).trans ((hkeep.crofts _ id).trans (hv.keeps.crofts _ id))
  have hput : Keeps { crofts := (· = c) } y ((putRun c (r1.averaging avg)).run y) := Prog.keeps (by simp) y
  refine ⟨runOf_putRun ((runOf_congr hcroft).trans hr) rfl rfl, ?_, fun f hf => ?_, (hv.keeps.mono ?_).trans ((hkeep.mono ?_).trans
    ((hbump.mono ?_).trans (hput.mono ?_)))⟩
  · rw [Counts, hput.reg_eq id, hbumped, hkeep.reg_eq (not_runRegs (by decide) (by decide) (by decide)),
      hv.reg_eq _ (by decide) (by decide)]
  · rw [Counts, hput.reg_eq id, hbump.reg_eq (not_runRegs (by decide) (by decide) (by decide))]
    refine (hcount f hf).trans ?_
    rw [hv.reg_eq _ (by decide) (by decide)]
    rfl
  iterate 3
    · constructor
      case regs => exact runRegs_sub (by decide)
      all_goals simp [sliceTouch, inRun, c]
  · constructor <;> simp

/-- A slice whose check passes, or fails without a repeat to come, ends. -/
theorem ends (hv : SliceDrawn s v (w / 16) { r with part := part }) (hr : s.runOf w = some r) (hnodup : r.args.wells.Nodup)
    (hf : s.staleFaults (w / 16) { r with part := part } = []) :
    let c := w / 16
    let r1 := s.afterSlot c { r with part := part }
    let fails := s.confFails c r1 r1.nrep
    let avg := s.fld (pgWell w) R.well_DRAWCFG_AVG
    let r2 := (r1.failing (fails.map (·.1))).nextSlice
    let slices := s.fld (pgWell w) R.well_DRAWCFG_SLICES
    let t := (sliceRest s c { r with part := part }).run v
    r1.rep = r1.nrep → (r1.nrep ≠ 1 ∨ fails = [] ∨ avg = 0) →
      (∀ f ∈ fails, t.bit (pgWell (r.well c f.1)) R.well_STATUS_SUSPECT = true ∧
        t.bit (pgWell (r.well c f.1)) R.well_SUSPECT_CAUSE_CONF = true ∧ t.bit (pgWell (r.well c f.1)) R.well_CONF_LAST_VALID = true ∧
        Counts s t (pgWell (r.well c f.1)) R.well_CONF_FAIL_CNT (if r1.nrep = 1 then 1 else 0) ∧
        Counts s t (pgWell (r.well c f.1)) R.well_ESC_CONF_CNT (if f.1 ∈ r1.esc then 0 else 1)) ∧
      (r2.slice < slices → t.runOf w = some r2 ∧ (t.croft c).leat = (s.croft c).leat ∧ (t.croft c).escs = (s.croft c).escs) ∧
      (slices ≤ r2.slice →
        (t.croft c).leat = (s.croft c).leat ++ [s.recordOf c r2] ∧ (t.croft c).escs = (s.croft c).escs ++ s.partsOf r2 ∧
        (r.draw + 1 < r.n → t.runOf w = some { r2 with draw := r.draw + 1, live := false }) ∧
        (r.n ≤ r.draw + 1 → ∀ x ∈ (t.croft c).runs, x.serial ≠ r.serial) ∧
        (∀ k ∈ r2.escPlaces, Counts s t (pgWell (r.well c k)) R.well_ESC_CNT 1) ∧
        (∀ k ∈ r2.held, Counts s t (pgWell (r.well c k)) R.well_HELD_CNT 1) ∧
        ∀ x ∈ r.args.wells, t.bit (pgWell (c * 16 + x)) R.well_STATUS_DRAWING = false) ∧
      Keeps { regs := fun a => runRegs c r [R.well_DRAW_CNT, R.well_QSAT_CNT, R.well_STALE_CNT, R.well_CONF_FAIL_CNT, R.well_STATUS_DRAWING,
                R.well_SUSPECT_CAUSE_CONF, R.well_SUSPECT_CNT, R.well_CONF_LAST_VALID, R.well_ESC_CONF_CNT, R.well_ESC_CNT, R.well_HELD_CNT,
                R.CRIER_LINE_RAISED] a ∨ theRegs (pgMill c) [R.mill_LEAT_STATUS_QUEUED] a,
              crofts := (· = c), wells := inRun c r, dev := True, seq := True } s t := by
  intro c r1 fails avg r2 slices t hrep hlast
  have hlead : ({ r with part := part } : Run).well c 0 = w := (runOf_well hr : r.well (w / 16) 0 = w)
  obtain ⟨hplaces, hfree⟩ := confFails_places s c r1 r1.nrep
  have hlt : ∀ f ∈ fails, f.1 < r.args.wells.length := fun f hf => (hfree f hf).1
  have hrun : t = (sliceTail s c { r with part := part } fails).run ((confEscalate c r1 r1.nrep (decide (r1.nrep ≠ 1)) fails).run
      ((confCounts c { r with part := part } (decide (r1.nrep = 1)) fails).run v)) :=
    (rest_checked hf hrep).trans (sliceChecked_ends (by rwa [hlead]))
  obtain ⟨hfailed, hwells, hkeep⟩ := fails_run (r := { r with part := part }) hnodup hv.keeps r1 rfl hplaces hlt (decide (r1.nrep = 1))
    (decide (r1.nrep ≠ 1)) r1.nrep
  have hheld : ∀ k < r.args.wells.length, k ∈ r1.held → ((confEscalate c r1 r1.nrep (decide (r1.nrep ≠ 1)) fails).run
      ((confCounts c { r with part := part } (decide (r1.nrep = 1)) fails).run v)).well (r.well c k) = s.well (r.well c k) := by
    intro k hk hh
    refine (hwells _ fun f hf => ?_).trans (hv.held k hk hh)
    exact Run.well_ne hnodup c (hlt f hf) hk fun e => (hfree f hf).2 (e ▸ hh)
  rw [hrun]
  generalize (confEscalate c r1 r1.nrep (decide (r1.nrep ≠ 1)) fails).run
    ((confCounts c { r with part := part } (decide (r1.nrep = 1)) fails).run v) = y at *
  have hcroft : y.croft (w / 16) = s.croft (w / 16) := (hkeep.crofts _ id).trans (hv.keeps.crofts _ id)
  obtain ⟨hgo, hend, hsuspect, htail⟩ := sliceTail_run (r0 := { r with part := part }) (fails := fails) ((runOf_congr hcroft).trans hr) rfl rfl hnodup
    hcroft (hkeep.now.trans hv.keeps.now) hheld
  have hslices : s.fld (pgWell (({ r with part := part } : Run).well (w / 16) 0)) R.well_DRAWCFG_SLICES = slices :=
    congrArg (fun g => s.fld (pgWell g) R.well_DRAWCFG_SLICES) hlead
  rw [hslices] at hgo hend
  have htailReg (g : Nat) {o : Nat} (ho : o < 0x1000) (hne : o ∉ [R.well_STATUS_DRAWING, R.well_ESC_CNT, R.well_HELD_CNT].map Fld.off) :
      ((sliceTail s c { r with part := part } fails).run y).reg (pgWell g) o = y.reg (pgWell g) o := by
    refine htail.reg_eq fun h => ?_
    rcases h with h | h
    · exact not_runRegs hne ho (by decide) h
    · exact not_theRegs_apart (by simp [ho]) h
  have hy (g : Nat) {o : Nat} (ho : o < 0x1000) (hne : o ∉ (R.well_CONF_FAIL_CNT :: confRegs).map Fld.off)
      (hne' : o ∉ [R.well_DRAW_CNT, R.well_QSAT_CNT, R.well_STALE_CNT].map Fld.off) : y.reg (pgWell g) o = s.reg (pgWell g) o :=
    (hkeep.reg_eq (not_runRegs hne ho (by decide))).trans (hv.reg_eq _ ho hne')
  refine ⟨fun f hf => ?_, hgo, fun hs => ?_, ?_⟩
  · obtain ⟨hsus, hcause, hvalid, hfails, hescs⟩ := hfailed f hf
    refine ⟨(hsuspect _).trans hsus, ?_, ?_, ?_, ?_⟩
    · rw [State.bit, State.fld_eq, htailReg _ (by decide) (by decide), ← State.fld_eq]
      exact hcause
    · rw [State.bit, State.fld_eq, htailReg _ (by decide) (by decide), ← State.fld_eq]
      exact hvalid
    · refine (htailReg _ (by decide) (by decide)).trans (hfails.trans ?_)
      simp only [decide_eq_true_eq]
      rfl
    · exact (htailReg _ (by decide) (by decide)).trans hescs
  · obtain ⟨hleat, hescs, hnext, hlastDraw, hescCount, hheldCount, hdrawing⟩ := hend hs
    refine ⟨hleat, hescs, hnext, hlastDraw, fun k hk => (hescCount k hk).trans ?_, fun k hk => (hheldCount k hk).trans ?_, hdrawing⟩
    · rw [hy _ (by decide) (by decide) (by decide)]
    · rw [hy _ (by decide) (by decide) (by decide)]
  · refine (hv.keeps.mono ?_).trans ((hkeep.mono ?_).trans (htail.mono ?_))
    · constructor
      case regs => exact fun a ha => .inl (runRegs_sub (by decide) a ha)
      all_goals simp [sliceTouch, inRun, c]
    · constructor
      case regs => exact fun a ha => .inl (runRegs_sub (by decide) a ha)
      all_goals simp [sliceFailTouch, inRun, c]
    · constructor
      case regs => exact fun a ha => ha.imp_left (runRegs_sub (by decide) a)
      all_goals simp [drawEndTouch, c]

end SliceDrawn

/-- Settles O20: a clip goes on in quarters; a slice-draw's end repeats its slice, goes on to the next or ends its draw. -/
theorem drawsEnd : Obligations.DrawsEnd := by
  unfold Obligations.DrawsEnd
  refine ⟨?clips, ?ends⟩
  case clips => exact fun s w codes r hr hs hnodup => ⟨fun hq hc => clip_goesOn hr hs hnodup hq hc, fun q hq hlt hnd hwells =>
    quarter_goesOn hr hs hnodup hq hlt hnd hwells⟩
  case ends =>
    intro s w codes r i part hr hs hnodup hlt hi
    obtain ⟨v, hexec, hv⟩ := sliceDrawn_leaves hr hs hnodup hlt hi
    refine ⟨fun hf => ⟨_, hexec, hv.faults hnodup hf⟩, fun hf => ⟨fun hrep => ⟨_, hexec, hv.repeats hr hf hrep⟩,
      fun hrep hn hfails havg => ⟨_, hexec, hv.averages hr hnodup hf hrep hn hfails havg⟩,
      fun hrep hlast => ⟨_, hexec, hv.ends hr hnodup hf hrep hlast⟩⟩⟩

end Sys2Proof.Machine
end
